-- ==== Sys2Proof/Word.lean ====
section
/-! DEFINITION. The plain number types of the SPR3200: bytes, words and the index ranges of R1. -/
namespace Sys2Proof

abbrev Byte := BitVec 8
abbrev Half := BitVec 16
abbrev Word := BitVec 32
abbrev DWord := BitVec 64

/-- Host domains D0 to D15 (R1, R20). -/
abbrev Dom := Fin 16
/-- Field ports FP0 to FP31 (R1). -/
abbrev PortId := Fin 32
/-- Star groups SG0 to SG3 (R1). -/
abbrev GrpId := Fin 4
/-- Station Ethernet ports EP0 to EP3 (R1). -/
abbrev EpId := Fin 4
/-- Ridgeline links RL0 to RL3 (R1). -/
abbrev LinkId := Fin 4
/-- Spur engines SE0 to SE33 (R1). -/
abbrev EngId := Fin 34
/-- Gateway cores GC0 to GC3 (R1). -/
abbrev CoreId := Fin 4
/-- Local ring numbers of a domain (R24, section Rings of 02_rings_and_doorbells.md). -/
abbrev RingNo := Fin 64
/-- Branches of a star group (R227). -/
abbrev Branch := Fin 16
/-- Port pairs (2k, 2k+1) with COLk_DRV (00_scope.md, Inside the device). -/
abbrev PairId := Fin 16
/-- Field-port I/O banks (R101). -/
abbrev BankId := Fin 4

end Sys2Proof
end

