-- ==== Sys2Proof/Syntax.lean ====
section
/-! DEFINITION. The commands of the device: one constructor of Instr for each row of spec/opcode_table.json. -/
namespace Sys2Proof

/-- How much of a register one access covers (R18). -/
inductive Width where
  | whole
  | low
  | high
  deriving DecidableEq, Repr

/-- Where a host write goes: the BARs of R56, and the two configuration-space controls the manual names (log 14). -/
inductive Target where
  | bar0 (off : BitVec 19)
  | bar2 (off : BitVec 22)
  | bar4 (off : BitVec 13)
  | sriov (vfEnable : Bool) (numVfs : Dom)
  | msixControl (enable functionMask : Bool)
  deriving DecidableEq, Repr

/-- A fetched descriptor without its OPCODE, which the command names: flags byte 1, TAG, bytes 4 to 31 (section Descriptors of
02_rings_and_doorbells.md). Byte 4 is bits 7..0 of body. -/
structure Desc where
  flags : Byte
  tag : Half
  body : BitVec 224
  deriving DecidableEq, Repr

/-- CAN frame formats (R117). -/
inductive Fmt where
  | cc
  | fd
  | xl
  deriving DecidableEq, Repr

/-- A field frame as it stands on the bus. -/
structure CanFrame where
  fmt : Fmt
  ident : BitVec 29
  ide : Bool
  rtr : Bool
  brs : Bool
  esi : Bool
  dlc : BitVec 4
  sdt : Byte
  vcid : Byte
  sec : Bool
  af : Word
  data : List Byte
  deriving DecidableEq, Repr

/-- Error kinds, coded as LAST_ERR (05_transmission_and_confinement.md, FPn_TXSTAT). -/
inductive ErrKind where
  | bit
  | stuff
  | crc
  | form
  | ack
  deriving DecidableEq, Repr

/-- How an attempt ends (05, Attempts, retries and hold time). -/
inductive AttemptResult where
  | success
  | arbLost
  /-- an error; won says that the attempt had won arbitration before it (R171) -/
  | error (e : ErrKind) (won : Bool := true)
  deriving DecidableEq, Repr

/-- What the port meets when it detects an error (R119, R207, R506). The counts depend on the other nodes of the bus. -/
structure ErrEvent where
  kind : ErrKind
  /-- detected as transmitter -/
  tx : Bool
  /-- a stuff error in arbitration on a stuff bit sent recessive (R207 (b)) -/
  arbStuff : Bool
  /-- a dominant bit was seen while the passive error flag was sent (R207 (a)) -/
  dominantInFlag : Bool
  /-- the first bit after the error flag was dominant (R207) -/
  dominantAfterFlag : Bool
  /-- bit errors while sending an active error flag or an overload flag (R207) -/
  flagBitErrors : Nat
  /-- runs of dominant bits counted after the flag: the 14th or 8th and each further 8 (R207) -/
  longRuns : Nat
  /-- detected between ADS and DAS of an XL frame (R121) -/
  xlData : Bool
  /-- the error is a frame format that the port has not enabled, or a recessive res or resXL bit (R119, R507) -/
  unknownFormat : Bool
  /-- of these, a recessive res or resXL bit -/
  resBit : Bool := false
  /-- the event is that of an overload flag, with no detected error before it (R207) -/
  overload : Bool := false
  /-- as transmitter: the attempt had won arbitration (R171) -/
  won : Bool := true
  deriving DecidableEq, Repr

/-- A low level on FPn_RXD of a sleeping port: whether it began with a fall from high while the port slept, and how long it has lasted, in 1/16 ns
(R130). -/
structure WakeLow where
  port : PortId
  fell : Bool
  low : Nat
  deriving DecidableEq, Repr

/-- Raw instants of a received frame: its start of frame at the pin, and the moment at which it became valid (R86, R156). -/
structure FrameTimes where
  sof : DWord
  done : DWord
  deriving DecidableEq, Repr

/-- What the attempt on the wire passes: the end of its arbitration field, which it has won, or its commit point (R171, R396). -/
inductive Passed where
  | arbitration
  | commit
  deriving DecidableEq, Repr

/-- An attempt on the wire and what it passes. -/
structure Passage where
  port : PortId
  point : Passed
  deriving DecidableEq, Repr

/-- What a hold acts on (R128, R247). -/
inductive HoldTarget where
  | port (p : PortId)
  | grp (k : GrpId)
  deriving DecidableEq, Repr

/-- A Ridgeline frame (R343), its fields and payload. -/
structure RlFrame where
  dest : Byte
  src : Byte
  cls : BitVec 2
  kind : BitVec 3
  rtag : Byte
  seqNo : Half
  version : BitVec 4
  twin : Bool
  wrapped : Bool
  ttl : Byte
  stamp : BitVec 36
  payload : List Byte
  deriving DecidableEq, Repr

/-- The counter C and the tag with which a frame arrived on an encrypted link (R385, R386). -/
structure RlSeal where
  c : DWord
  tag : List Byte
  deriving DecidableEq, Repr

/-- A frame as it arrives: in clear, or decrypted, with what it was sealed by. -/
structure RlArrival where
  frame : RlFrame
  under : Option RlSeal := none
  deriving DecidableEq, Repr

/-- Why a link leaves its state (R353). -/
inductive RlFaultCause where
  | lossOfSignal
  | lossOfLock
  | hiBer
  | remoteFault
  deriving DecidableEq, Repr

/-- Why a received Ridgeline frame is discarded (R345, R386). -/
inductive RlDiscard where
  | hcrc
  | kind
  | ttl
  | crc
  | stomp
  | auth
  deriving DecidableEq, Repr

/-- What an access of an engine or a core names (R34, R388): its own memories, the front end of a port, a 4 KiB unit of Tarn, the staging and
fetch-ahead slots of a port in the reserve, a leaf event controller, the gateway region, links and classes of route entries, gateway rules, the
servo's inputs, or anything else. -/
inductive Reach where
  | memory
  | frontEnd (p : PortId)
  | tarn (unit : Nat)
  | slots (p : PortId)
  | leaf (e : EngId)
  | gateway
  | routeLinks
  | gwRules
  | servo
  | other
  deriving DecidableEq, Repr

/-- Engine and core fault causes (DEV_SEe_FAULT.CAUSE, R394, R409). -/
inductive FaultCause where
  | watchdog
  | window (addr : Word) (to_ : Reach)
  | memory
  | halt
  deriving DecidableEq, Repr

/-- Gateway duties (R408). -/
inductive Duty where
  | routing
  | rules
  | time
  | traverse
  deriving DecidableEq, Repr

/-- What the PTP clock sends each interval (R332). -/
inductive PtpKind where
  | sync
  | pdelayReq
  | announce
  deriving DecidableEq, Repr

/-- A 64-bit time register whose low half is read (R280). -/
inductive TimeReg where
  | now
  | raw
  | ofs
  | anchor
  deriving DecidableEq, Repr

/-- One sampling by Cairn (R435); each list is in sensor order. -/
inductive Sensors where
  | temp (quarter : List Int)
  | rail (mv : List Nat)
  | pace (ps : List Nat)
  | age (tenthPpm : List Int)
  deriving DecidableEq, Repr

/-- Event targets of the vector level (R425) and Cairn (R430). -/
inductive VecTarget where
  | core (c : CoreId)
  | leaf (e : EngId)
  | cairn
  deriving DecidableEq, Repr

/-- Whose stack an EOI completes: a target of a domain's claim page (R423), or a target of the vector level, which writes its own EOI register (R425). -/
inductive EoiTarget where
  /-- with the value written -/
  | claim (t : Fin 128) (v : Word)
  | vector (t : VecTarget)
  deriving DecidableEq, Repr

/-- Whose moderation gap ends: a claim target's of a domain, or a vector-level target's (R429). -/
inductive GapTarget where
  | claim (t : Fin 128)
  | vector (t : VecTarget)
  deriving DecidableEq, Repr

/-- An asserted and enabled source of a vector-level target as the EVC sees it: number, priority, mask, moderation class, GUARD (R425, R427, R429,
R430). -/
structure VecSource where
  src : Byte
  prio : BitVec 4
  masked : Bool
  cls : BitVec 2 := 0
  guarded : Bool := false
  deriving DecidableEq, Repr

/-- The state of a source that has been asserted, and the target's other asserted and enabled sources (R422, R425). -/
structure SourceLevel where
  prio : BitVec 4
  masked : Bool
  cls : BitVec 2 := 0
  guarded : Bool := false
  others : List VecSource := []
  deriving DecidableEq, Repr

/-- A source of an offline core, and the raw instant since which it has been deliverable (R431). -/
structure OfflineSource where
  src : Byte
  since : DWord
  deriving DecidableEq, Repr

/-- Why the service firmware restarts: the record's cause, and the address where it was a window violation (R434, R34). -/
structure RestartCause where
  cause : Word
  window : Option Word
  deriving DecidableEq, Repr

/-- A discarded frame: the payload's length, and its header where that had passed (R345, R346). -/
structure Discarded where
  length : Nat
  head : Option RlFrame
  deriving DecidableEq, Repr

/-- Memories of the scrub table (R468), with what the failing word belongs to. -/
inductive ScrubMem where
  | tarn (line : Nat)
  | filter (element : Nat)
  | engine (e : EngId)
  | core (c : CoreId)
  | cairn
  | log (pos : Nat)
  deriving DecidableEq, Repr

/-- What triggers a warm reset (R479), coded as DEV_RSTSTAT.CAUSE. -/
inductive WarmCause where
  /-- DEV_RST written by a function with a value -/
  | register (d : Dom) (v : Word)
  | smbus
  | belayFault
  /-- the boot ROM, after it has activated a Belay image in the recovery path (R488, log 66) -/
  | recovered
  deriving DecidableEq, Repr

/-- Abilities the Clause 37 partner advertised (R313): full duplex, PS1, PS2, remote fault. -/
structure AnPartner where
  fullDuplex : Bool
  ps1 : Bool
  ps2 : Bool
  rf : BitVec 2
  deriving DecidableEq, Repr

/-- The device's steps. Comments name the row's rule. -/
inductive Instr where
  -- domains (01)
  | domainEntry (d : Dom) (v : Word)                                  -- R30
  | dmaWindowRecord (d : Dom) (v : Word)                              -- R26
  | routeAssign (d : Dom) (v : Word)                                  -- R36
  | reclaim (d : Dom) (v : Word)                                      -- R31
  | recordComplete                                                    -- R26
  | registerWrite (d : Dom) (t : Target) (w : Width) (v : DWord)      -- R15
  -- rings (02)
  | devKick (d : Dom) (v : Word) (words : List Half)                  -- R64
  | ringPoll (d : Dom) (n : RingNo) (word : Half)                     -- R66
  | cqStallPoll (d : Dom) (n : RingNo) (word : Half)                  -- R83
  | dbbEnable (d : Dom) (v : DWord)                                   -- R62
  | tsqEnable (d : Dom) (v : DWord)                                   -- R90
  | ringEnable (d : Dom) (n : RingNo) (v : Word)                      -- R69
  | ringDisable (d : Dom) (n : RingNo) (v : Word)                     -- R71
  | ringDisableDone (d : Dom) (n : RingNo)                            -- R71
  | txFrame (d : Dom) (n : RingNo) (x : Desc)                         -- R187
  | rxBuf (d : Dom) (n : RingNo) (x : Desc)                           -- R86
  | ethTx (d : Dom) (n : RingNo) (x : Desc) (payload : List Byte)     -- R316
  | nop (d : Dom) (n : RingNo) (x : Desc)                             -- R186
  | objRead (d : Dom) (n : RingNo) (x : Desc)                         -- R148
  | objReadCopyDone (d : Dom) (o : BitVec 13)                         -- R148
  | objWrite (d : Dom) (n : RingNo) (x : Desc) (payload : List Byte)  -- R152
  | objSend (d : Dom) (n : RingNo) (x : Desc)                         -- R153
  | hold (d : Dom) (n : RingNo) (x : Desc)                            -- R128
  | offsetSample (d : Dom) (n : RingNo) (x : Desc)                    -- R290
  | keyGen (d : Dom) (n : RingNo) (x : Desc)                          -- R45
  | keyLoad (d : Dom) (n : RingNo) (x : Desc) (blob : List Byte)      -- R46
  | keyErase (d : Dom) (n : RingNo) (x : Desc)                        -- R45
  | challenge (d : Dom) (n : RingNo) (x : Desc)                       -- R47
  | challengeExpiry                                                   -- R47
  | ownerEnrol (d : Dom) (n : RingNo) (x : Desc) (key : List Byte)    -- R47
  | ownerRelease (d : Dom) (n : RingNo) (x : Desc) (sig : List Byte)  -- R47
  | retire (d : Dom) (n : RingNo) (x : Desc) (sig : List Byte)        -- R47
  | rmaEnter (d : Dom) (n : RingNo) (x : Desc) (sig : List Byte)      -- R47
  | attest (d : Dom) (n : RingNo) (x : Desc) (nonce : List Byte)      -- R48
  | logRead (d : Dom) (n : RingNo) (x : Desc)                         -- R452
  | imgWrite (d : Dom) (n : RingNo) (x : Desc) (bytes : List Byte) (programmed : Bool) -- R464
  | imgActivate (d : Dom) (n : RingNo) (x : Desc) (programmed : Bool) -- R465
  | gwRule (d : Dom) (n : RingNo) (x : Desc) (rule : List Byte)       -- R414
  | selfTest (d : Dom) (n : RingNo) (x : Desc)                        -- R469
  | selfTestEnd (failed : Bool) (block : Byte) (us : Half)            -- R472
  | trvWrite (d : Dom) (n : RingNo) (x : Desc) (bytes : List Byte)    -- R252
  | trvRead (d : Dom) (n : RingNo) (x : Desc)                         -- R251
  | rtWrite (d : Dom) (n : RingNo) (x : Desc) (bytes : List Byte)     -- R364
  | rtRead (d : Dom) (n : RingNo) (x : Desc)                          -- R363
  | fabTopoRead (d : Dom) (n : RingNo) (x : Desc)                     -- R363
  | flr (d : Dom)                                                     -- R57
  | flrComplete (d : Dom)                                             -- R57
  | pfFlr                                                             -- R61
  | hostReset                                                         -- R485
  -- ports (03)
  | portEnable (d : Dom) (p : PortId)                                 -- R125
  | portDisable (d : Dom) (p : PortId)                                -- R125
  | portStart (d : Dom) (p : PortId)                                  -- R109
  | portStop (d : Dom) (p : PortId)                                   -- R126
  | portStopEffect (p : PortId)                                       -- R126
  | portRestart (d : Dom) (p : PortId)                                -- R218
  | portSleep (d : Dom) (p : PortId)                                  -- R125
  | portWake (d : Dom) (p : PortId)                                   -- R125
  | wakeEdge (e : WakeLow)                                            -- R130
  | wakeFrame (p : PortId) (f : CanFrame)                             -- R130
  | busIntegrated (p : PortId)                                        -- R125
  -- transmission (05)
  | startDecision (p : PortId) (sof : DWord)                          -- R192
  | attemptCommit (x : Passage)                                       -- R171, R396
  | attemptEnd (p : PortId) (r : AttemptResult) (loop : Option Half)  -- R203
  | errorDetected (p : PortId) (e : ErrEvent)                         -- R506
  | recoverySeqEnd (p : PortId)                                       -- R212
  | suspendEnd (p : PortId)                                           -- R213
  | payloadLoaded (p : PortId) (c : Nat) (reread : Bool) (bytes : Option (List Byte)) -- R191
  | candidateExpiry (p : PortId) (c : Nat)                            -- R201
  | holdTakesEffect (t : HoldTarget)                                  -- R128
  | holdExpiry (t : HoldTarget)                                       -- R129
  | frameReceived (p : PortId) (f : CanFrame) (t : FrameTimes) (arrived : PortId) -- R156
  | filterEval (d : Dom)                                              -- R159
  | bufWaitExpiry (d : Dom) (n : RingNo)                              -- R86
  | objLoad (d : Dom)                                                 -- R141
  | objCommit (d : Dom)                                               -- R142
  | fltRead (d : Dom)                                                 -- R166
  | fltWrite (d : Dom)                                                -- R166
  | bankSupplyLoss (b : BankId)                                       -- R103
  | ref25Loss                                                         -- R274
  | ref25Lock                                                         -- R272
  | refHoldoverExpiry                                                 -- R106
  | colTravelEnd (k : PairId)                                         -- R134
  | pairInserted (k : PairId)                                         -- R134
  -- star groups (06)
  | groupStart (d : Dom) (k : GrpId)                                  -- R238
  | groupStop (d : Dom) (k : GrpId)                                   -- R245
  | groupStopEffect (k : GrpId)                                       -- R245
  | groupRejoin (d : Dom) (k : GrpId) (b : Branch)                    -- R243
  | groupRestart (d : Dom) (k : GrpId)                                -- R246
  | branchJoin (k : GrpId) (b : Branch)                               -- R235
  | stuckIsolate (k : GrpId) (b : Branch)                             -- R239
  | rejoinSeqEnd (k : GrpId) (b : Branch)                             -- R242
  | starSof (k : GrpId) (b : Branch) (sof : DWord) (ident : BitVec 29) (ide : Bool) (dominant : BitVec 16) -- R257
  | windowCloseCut (k : GrpId)                                        -- R257
  | cycleStart (k : GrpId)                                            -- R254
  | listenTimeout (k : GrpId)                                         -- R269
  | coldstartBackoffEnd (k : GrpId)                                   -- R269
  | refBackupTimeout (k : GrpId)                                      -- R269
  | slotMissed (p : PortId) (c : Nat)                                 -- R263
  -- device time (07)
  | tmuRateWrite (d : Dom) (v : Word)                                 -- R276
  | tmuStep (d : Dom) (w : Width) (v : DWord)                         -- R278
  | tmuLatchRead (d : Dom) (r : TimeReg)                              -- R280
  | epochPass                                                         -- R91
  | servoEnable (d : Dom) (v : Word)                                  -- R293
  | servoSample                                                       -- R292
  | servoHoldover                                                     -- R293
  | ppsEdge (i : Fin 2) (raw : DWord) (fall : Bool)                   -- R295
  | evtInEdge (i : Fin 8) (raw : DWord) (rise : Bool) (held : Nat)    -- R296
  | evtoutEnable (d : Dom) (i : Fin 4) (v : Word)                     -- R300
  | pulseEdge (i : Fin 4)                                             -- R299
  | beaconDue (p : PortId)                                            -- R306
  -- Ethernet (08)
  | epEnable (d : Dom) (k : EpId) (v : Word)                          -- R319
  | epLinkUp (k : EpId) (partner : AnPartner)                         -- R313
  | epLinkLoss (k : EpId)                                             -- R315
  | anRestart (k : EpId)                                              -- R313
  | ethFrameReceived (k : EpId) (bytes : List Byte) (fcsOk symbolOk : Bool) (raw : DWord) -- R320
  | pauseEnd (k : EpId)                                               -- R328
  | ethTxEnd (k : EpId) (raw : DWord)                                 -- R318
  | ptpProfileWrite (d : Dom) (v : Word)                              -- R335
  -- Ridgeline (09)
  | rlEnable (d : Dom) (k : LinkId) (v : Word)                        -- R353
  | rlAligned (k : LinkId)                                            -- R353
  | rlFault (k : LinkId) (cause : RlFaultCause)                       -- R353
  | helloTimer (k : LinkId)                                           -- R352
  | hello (k : LinkId) (f : RlArrival)                                 -- R353
  | helloTimeout (k : LinkId)                                         -- R353
  | keyx (k : LinkId) (f : RlArrival)                                  -- R384
  | keyxTimer (k : LinkId)                                            -- R383
  | topo (k : LinkId) (f : RlArrival)                                  -- R356
  | topoTimer                                                         -- R355
  | topoExpiry (serial : DWord)                                       -- R356
  | addrReqTimer                                                      -- R359
  | addrReq (k : LinkId) (f : RlArrival)                               -- R359
  | addrAssign (k : LinkId) (f : RlArrival)                            -- R359
  | routed (k : LinkId) (f : RlArrival)                                -- R368
  | creditReport (k : LinkId) (cls : BitVec 2) (count : BitVec 12)    -- R350
  | creditReportTimer (k : LinkId)                                    -- R350
  | linkTxStart (k : LinkId) (raw : DWord)                            -- R351
  | timeSyncTimer (k : LinkId)                                        -- R379
  | timeSync (k : LinkId) (f : RlArrival) (raw : DWord)                -- R379
  | timeReply (k : LinkId) (f : RlArrival) (raw : DWord)               -- R380
  | fabEnable (d : Dom) (v : Word)                                    -- R376
  | colfTravelEnd (k : LinkId)                                        -- R376
  | fabTimeWrite (d : Dom) (v : Word)                                 -- R377
  | routeRecompute                                                    -- R365
  -- engines, cores, events (10)
  | engineLoss (e : EngId) (cause : FaultCause)                       -- R394
  | engineLoadDone (e : EngId)                                        -- R393
  | takeoverDone (p : PortId)                                         -- R401
  | devSwap (d : Dom) (v : Word)                                      -- R405
  | swapQuietPoint                                                    -- R405
  | swapTimeout                                                       -- R407
  | retest (d : Dom) (v : Word)                                       -- R393
  | reload (d : Dom) (v : Word)                                       -- R393
  | halt (d : Dom) (v : Word)                                         -- R412
  | engineTestEnd (e : EngId) (pass : Bool)                           -- R393
  | coreTestEnd (c : CoreId) (pass : Bool)                            -- R412
  | coreFault (c : CoreId) (cause : FaultCause)                       -- R409
  | dutyMoveDone (u : Duty)                                           -- R410
  | gwInput                                                           -- R416
  | gwGapEnd (r : Fin 512)                                            -- R417
  | gwRead (d : Dom)                                                  -- R419
  | evcClaim (d : Dom) (t : Fin 128)                                  -- R422
  | evcEoi (d : Dom) (x : EoiTarget) (word : Half)                    -- R423, R425
  | vectorDelivery (t : VecTarget) (src : Byte) (level : SourceLevel)   -- R425, R430
  | moderationGapEnd (d : Dom) (t : GapTarget)                        -- R429
  | offlineFallback (c : CoreId) (x : OfflineSource)                  -- R431
  -- Cairn (11)
  | modeWrite (d : Dom) (v : Word)                                    -- R442
  | raiseConfirmed                                                    -- R442
  | raiseTimeout                                                      -- R442
  | sensorSample (r : Sensors)                                        -- R435
  | govFallback                                                       -- R442
  | govReturn                                                         -- R442
  | govWrite (d : Dom) (hold : Bool) (v : Word)                       -- R444
  | logIntake                                                         -- R451
  | logClear (d : Dom) (v : Word)                                     -- R450
  | setEndpointId (eid : Byte)                                        -- R456
  | getEndpointId                                                     -- R456
  | getEndpointUuid                                                   -- R456
  | getMctpVersionSupport (msgType : Byte)                            -- R456
  | getMessageTypeSupport                                             -- R456
  | getVendorDefinedMsgSupport (selector : Byte)                      -- R456
  | getSensors (inst : BitVec 5) (req : List Byte)                    -- R457
  | setMode (inst : BitVec 5) (req : List Byte)                       -- R457
  | getAttest (inst : BitVec 5) (req : List Byte)                     -- R457
  | getLog (inst : BitVec 5) (req : List Byte)                        -- R457
  | stage (inst : BitVec 5) (req : List Byte) (programmed : Bool)     -- R463
  | activate (inst : BitVec 5) (req : List Byte) (programmed : Bool)  -- R465
  | getStatus (inst : BitVec 5) (req : List Byte)                     -- R457
  | smbusReset (inst : BitVec 5) (req : List Byte)                    -- R457
  | clearAlert (inst : BitVec 5) (req : List Byte)                    -- R458
  | alertResponse                                                     -- R458
  | stagingHolderTimeout                                              -- R463
  | imgConfirm (c : Fin 7)                                            -- R467
  | imgRevert (c : Fin 7)                                             -- R467
  | svcRestart (cause : RestartCause)                                 -- R434, R34
  | scrub (m : ScrubMem) (addr : Word) (uncorrectable : Bool)         -- R468
  | debugUnlockRequest                                                -- R49
  | debugUnlock (sig : List Byte)                                     -- R49
  -- power and reset (12)
  | warmReset (c : WarmCause)                                         -- R480
  | powerOnReset                                                      -- R478
  | boot                                                              -- R487
  | bankSupplyReturn (b : BankId) (v33 : Bool)                        -- R475
  | svcRestartEnd                                                     -- R434
  | perstHigh                                                         -- R482
  | selfTestForcedStart                                               -- R471
  | ptpMessageInterval (k : EpId) (m : PtpKind)                       -- R332
  | announceReceiptTimeout (k : EpId)                                 -- R334
  | rlFrameDiscard (k : LinkId) (why : RlDiscard) (cls : BitVec 2) (frame : Discarded) -- R345, R346
  | invalidOpcodeDescriptor (d : Dom) (n : RingNo) (opcode : Byte) (x : Desc) -- R77
  | unsupportedMctpMessage (packets : List (List Byte))               -- R456
  deriving DecidableEq, Repr

end Sys2Proof
end

