-- ==== Sys2Proof/Decode.lean ====
section
/-! DEFINITION. Commands spelled by words: no row of the table gives bits. -/
namespace Sys2Proof

/-- The command that a word spells: none, since the commands of the device are events and not encoded words. -/
def decodeTableWord (_nbits _w : Nat) : Option Instr := none

end Sys2Proof
end

