-- ==== Sys2Proof/Machine/Bits.lean ====
section
/-! DEFINITION. Bit fields, byte order, sparse tables, and the two checks the manual spells out (HCRC, the hash index). -/
namespace Sys2Proof.Machine

/-- The n-bit field of w that starts at bit lo (R9). -/
def fld (w : DWord) (lo n : Nat) : Nat := (w.toNat >>> lo) % 2 ^ n

/-- Bit i of w (R9). -/
def bit (w : DWord) (i : Nat) : Bool := w.getLsbD i

/-- A word whose field [lo + n - 1 : lo] is ones. -/
def ones (lo n : Nat) : DWord := BitVec.ofNat 64 ((2 ^ n - 1) <<< lo)

/-- w with the n-bit field at lo replaced by v. -/
def putFld (w : DWord) (lo n v : Nat) : DWord := (w &&& ~~~ (ones lo n)) ||| (BitVec.ofNat 64 ((v % 2 ^ n) <<< lo))

def setBit (w : DWord) (i : Nat) : DWord := w ||| ones i 1
def clearBit (w : DWord) (i : Nat) : DWord := w &&& ~~~ (ones i 1)
def putBit (w : DWord) (i : Nat) (b : Bool) : DWord := if b then setBit w i else clearBit w i

def b2n (b : Bool) : Nat := if b then 1 else 0

/-- n bytes of v, least significant byte first (R11). -/
def leBytes : Nat → Nat → List Byte
  | 0, _ => []
  | n + 1, v => BitVec.ofNat 8 v :: leBytes n (v / 256)

/-- n bytes of v, most significant byte first (R167, R343). -/
def beBytes (n v : Nat) : List Byte := (leBytes n v).reverse

/-- The value of bytes, least significant byte first (R11). -/
def ofLe : List Byte → Nat
  | [] => 0
  | b :: bs => b.toNat + 256 * ofLe bs

def ofBe (bs : List Byte) : Nat := ofLe bs.reverse

/-- n bytes of bs from offset o, zero where bs has ended. -/
def slice (bs : List Byte) (o n : Nat) : List Byte := ((bs.drop o).take n) ++ List.replicate (n - (bs.drop o).length) 0

/-- Little-endian field of n bytes at offset o. -/
def leAt (bs : List Byte) (o n : Nat) : Nat := ofLe (slice bs o n)

/-- A table in canonical form: keys rising, no entry equal to the default. -/
abbrev Tbl (α : Type) := List (Nat × α)

def Tbl.get {α : Type} (dflt : α) : Tbl α → Nat → α
  | [], _ => dflt
  | (k, v) :: t, i => if k = i then v else Tbl.get dflt t i

/-- Entry i replaced; a default value removes the entry. -/
def Tbl.put {α : Type} [DecidableEq α] (dflt : α) (t : Tbl α) (i : Nat) (v : α) : Tbl α :=
  match t with
  | [] => if v = dflt then [] else [(i, v)]
  | (k, u) :: r =>
    if i < k then (if v = dflt then (k, u) :: r else (i, v) :: (k, u) :: r)
    else if i = k then (if v = dflt then r else (i, v) :: r)
    else (k, u) :: Tbl.put dflt r i v

/-- The canonical form that every table operation keeps. -/
def Tbl.wf {α : Type} [DecidableEq α] (dflt : α) : Tbl α → Bool
  | [] => true
  | (k, v) :: t => decide (v ≠ dflt) && t.all (fun e => decide (k < e.1)) && Tbl.wf dflt t

/-- Entries whose key satisfies p removed. -/
def Tbl.drop {α : Type} (t : Tbl α) (p : Nat → Bool) : Tbl α := t.filter (fun e => !p e.1)

/-- Every value replaced by a function of its key and itself; a value that becomes the default is no longer listed. -/
def Tbl.mapVal {α : Type} [DecidableEq α] (dflt : α) (t : Tbl α) (f : Nat → α → α) : Tbl α :=
  (t.map (fun e => (e.1, f e.1 e.2))).filter (fun e => decide (e.2 ≠ dflt))

/-- One bit of a cyclic redundancy check shifted in, most significant bit first. -/
def crcStep (width poly reg : Nat) (b : Bool) : Nat :=
  let top := (reg >>> (width - 1)) % 2
  let r := (reg * 2) % 2 ^ width
  if (top == 1) == b then r else r ^^^ poly

def crcBytes (width poly init : Nat) (bs : List Byte) : Nat :=
  bs.foldl (fun r b => (List.range 8).foldl (fun r i => crcStep width poly r (b.getLsbD (7 - i))) r) init

/-- Bits of a byte, least significant bit first, as IEEE 802.3 sends them. -/
def crcBytesLsb (width poly init : Nat) (bs : List Byte) : Nat :=
  bs.foldl (fun r b => (List.range 8).foldl (fun r i => crcStep width poly r (b.getLsbD i)) r) init

/-- Nanoseconds, microseconds, milliseconds and seconds of the raw counter, in 1/16 ns (R12). -/
def ns (n : Nat) : Nat := n * 16
def us (n : Nat) : Nat := n * 16000
def ms (n : Nat) : Nat := n * 16000000
def sec (n : Nat) : Nat := n * 16000000000

end Sys2Proof.Machine
end

