-- ==== Sys2Proof/Machine/Cipher.lean ====
section
/-! DEFINITION. The ciphers that the manual names: AES (FIPS 197), AES-CMAC (NIST SP 800-38B), AES-GCM (NIST SP 800-38D), AES-KW (NIST SP
800-38F), and the CRC-32 of IEEE 802.3. Keys and blocks are bytes in the order of those standards. -/
namespace Sys2Proof.Machine

/-! ### AES (FIPS 197) -/

/-- The S-box, sixteen bytes to a row. -/
def sboxRows : List Nat :=
  [ 0x637c777bf26b6fc53001672bfed7ab76, 0xca82c97dfa5947f0add4a2af9ca472c0,
    0xb7fd9326363ff7cc34a5e5f171d83115, 0x04c723c31896059a071280e2eb27b275,
    0x09832c1a1b6e5aa0523bd6b329e32f84, 0x53d100ed20fcb15b6acbbe394a4c58cf,
    0xd0efaafb434d338545f9027f503c9fa8, 0x51a3408f929d38f5bcb6da2110fff3d2,
    0xcd0c13ec5f974417c4a77e3d645d1973, 0x60814fdc222a908846eeb814de5e0bdb,
    0xe0323a0a4906245cc2d3ac629195e479, 0xe7c8376d8dd54ea96c56f4ea657aae08,
    0xba78252e1ca6b4c6e8dd741f4bbd8b8a, 0x703eb5664803f60e613557b986c11d9e,
    0xe1f8981169d98e949b1e87e9ce5528df, 0x8ca1890dbfe6426841992d0fb054bb16 ]

/-- The inverse S-box. -/
def invSboxRows : List Nat :=
  [ 0x52096ad53036a538bf40a39e81f3d7fb, 0x7ce339829b2fff87348e4344c4dee9cb,
    0x547b9432a6c2233dee4c950b42fac34e, 0x082ea16628d924b2765ba2496d8bd125,
    0x72f8f66486689816d4a45ccc5d65b692, 0x6c704850fdedb9da5e154657a78d9d84,
    0x90d8ab008cbcd30af7e45805b8b34506, 0xd02c1e8fca3f0f02c1afbd0301138a6b,
    0x3a9111414f67dcea97f2cfcef0b4e673, 0x96ac7422e7ad3585e2f937e81c75df6e,
    0x47f11a711d29c5896fb7620eaa18be1b, 0xfc563e4bc6d279209adbc0fe78cd5af4,
    0x1fdda8338807c731b11210592780ec5f, 0x60517fa919b54a0d2de57a9f93c99cef,
    0xa0e03b4dae2af5b0c8ebbb3c83539961, 0x172b047eba77d626e169146355210c7d ]

def boxAt (rows : List Nat) (b : Byte) : Byte := BitVec.ofNat 8 (rows.getD (b.toNat / 16) 0 >>> (8 * (15 - b.toNat % 16)))

/-- Multiplication by x in the field of AES. -/
def xtime (b : Byte) : Byte := (b <<< 1) ^^^ (if b.getLsbD 7 then 0x1B else 0)

/-- Product in the field of AES of a small constant and a byte. -/
def gfMul (a : Nat) (b : Byte) : Byte :=
  (if a % 2 = 1 then b else 0) ^^^ (if a / 2 % 2 = 1 then xtime b else 0) ^^^ (if a / 4 % 2 = 1 then xtime (xtime b) else 0)
    ^^^ (if a / 8 % 2 = 1 then xtime (xtime (xtime b)) else 0)

def xorBytes (a b : List Byte) : List Byte := List.zipWith (· ^^^ ·) a b

/-- The next word of the key schedule of a key of nk words, from the words so far. -/
def nextKeyWord (nk : Nat) (ws : List (List Byte)) : List Byte :=
  let i := ws.length
  let t := ws.getD (i - 1) []
  let t := if i % nk = 0 then
      let r := (t.drop 1 ++ t.take 1).map (boxAt sboxRows)
      xorBytes r ((Nat.repeat xtime (i / nk - 1) 1) :: [0, 0, 0])
    else if 6 < nk ∧ i % nk = 4 then t.map (boxAt sboxRows) else t
  xorBytes (ws.getD (i - nk) []) t

/-- Round keys of a key of 16 or 32 bytes. -/
def roundKeys (key : List Byte) : List (List Byte) :=
  let nk := key.length / 4
  let ws := (List.range (3 * nk + 28)).foldl (fun ws _ => ws ++ [nextKeyWord nk ws]) ((List.range nk).map (fun i => slice key (4 * i) 4))
  (List.range (nk + 7)).map (fun r => (ws.drop (4 * r)).take 4 |>.flatten)

/-- Rows of the state turned left by k times their number; byte r + 4 c of the state stands in row r and column c. -/
def turnRows (k : Nat) (x : List Byte) : List Byte := (List.range 16).map (fun i => x.getD (i % 4 + 4 * ((i / 4 + k * (i % 4)) % 4)) 0)

/-- Each column of the state multiplied by a circulant matrix with first row m. -/
def mixBy (m : List Nat) (x : List Byte) : List Byte :=
  (List.range 16).map (fun i => (List.range 4).foldl (fun a j => a ^^^ gfMul (m.getD ((j + 4 - i % 4) % 4) 0) (x.getD (4 * (i / 4) + j) 0)) 0)

/-- AES of one block. -/
def aesBlock (key x : List Byte) : List Byte :=
  match roundKeys key with
  | [] => []
  | k :: ks =>
    let x := (ks.take (ks.length - 1)).foldl (fun x k => xorBytes (mixBy [2, 3, 1, 1] (turnRows 1 (x.map (boxAt sboxRows)))) k) (xorBytes x k)
    xorBytes (turnRows 1 (x.map (boxAt sboxRows))) (ks.getLastD [])

/-- The inverse of AES on one block. -/
def aesInverse (key x : List Byte) : List Byte :=
  match (roundKeys key).reverse with
  | [] => []
  | k :: ks =>
    let x := (ks.take (ks.length - 1)).foldl (fun x k => mixBy [14, 11, 13, 9] (xorBytes ((turnRows 3 x).map (boxAt invSboxRows)) k)) (xorBytes x k)
    xorBytes ((turnRows 3 x).map (boxAt invSboxRows)) (ks.getLastD [])

/-- Bytes cut into blocks of 16, the last one short where they do not divide. -/
def aesBlocks (bs : List Byte) : List (List Byte) := (List.range ((bs.length + 15) / 16)).map (fun i => (bs.drop (16 * i)).take 16)

/-! ### CMAC (NIST SP 800-38B) -/

/-- Doubling of a block in the field of CMAC. -/
def cmacDouble (x : List Byte) : List Byte :=
  let v := ofBe x
  beBytes 16 ((2 * v) % 2 ^ 128 ^^^ (if 2 ^ 127 ≤ v then 0x87 else 0))

/-- AES-CMAC of a message. -/
def aesCmac (key m : List Byte) : List Byte :=
  let k1 := cmacDouble (aesBlock key (List.replicate 16 0))
  let bs := aesBlocks m
  let last := bs.getLastD []
  let last := if last.length = 16 then xorBytes last k1 else xorBytes (slice (last ++ [0x80]) 0 16) (cmacDouble k1)
  aesBlock key (xorBytes ((bs.take (bs.length - 1)).foldl (fun c b => aesBlock key (xorBytes c b)) (List.replicate 16 0)) last)

/-! ### GCM (NIST SP 800-38D) -/

/-- One step of the product in the field of GCM: the bit of the left factor, the running sum and the shifted right factor. -/
def ghashStep (acc : Nat × Nat) (b : Bool) : Nat × Nat :=
  (if b then acc.1 ^^^ acc.2 else acc.1, acc.2 / 2 ^^^ (if acc.2 % 2 = 1 then 0xE1 <<< 120 else 0))

/-- Product in the field of GCM, the most significant bit being the coefficient of 1. -/
def ghashMul (x y : Nat) : Nat := ((List.range 128).foldl (fun a i => ghashStep a ((x >>> (127 - i)) % 2 == 1)) (0, y)).1

def ghash (h : Nat) (bs : List (List Byte)) : Nat := bs.foldl (fun a b => ghashMul (a ^^^ ofBe (slice b 0 16)) h) 0

/-- The key stream of counter block 2 on, exclusive-or the data. -/
def gcmStream (key nonce data : List Byte) : List Byte :=
  ((aesBlocks data).zipIdx.flatMap (fun e => xorBytes e.1 (aesBlock key (nonce ++ beBytes 4 (e.2 + 2)))))

/-- The tag over associated data and ciphertext. -/
def gcmTag (key nonce aad ct : List Byte) : List Byte :=
  let h := ofBe (aesBlock key (List.replicate 16 0))
  let s := ghash h (aesBlocks aad ++ aesBlocks ct ++ [beBytes 8 (8 * aad.length) ++ beBytes 8 (8 * ct.length)])
  xorBytes (beBytes 16 s) (aesBlock key (nonce ++ [0, 0, 0, 1]))

/-- Ciphertext and tag, under a nonce of 12 bytes. -/
def gcmSeal (key nonce aad data : List Byte) : List Byte :=
  let ct := gcmStream key nonce data
  ct ++ gcmTag key nonce aad ct

/-- The plaintext of ciphertext and tag, none where the tag is wrong. -/
def gcmOpen (key nonce aad bs : List Byte) : Option (List Byte) :=
  let ct := bs.take (bs.length - 16)
  if bs.drop (bs.length - 16) = gcmTag key nonce aad ct then some (gcmStream key nonce ct) else none

/-! ### Key wrapping (NIST SP 800-38F, KW) -/

/-- One step of the wrapping: the block A with the halves so far, the step's number t from 1. -/
def kwStep (key : List Byte) (n : Nat) (st : List Byte × List (List Byte)) (t : Nat) : List Byte × List (List Byte) :=
  let i := (t - 1) % n
  let b := aesBlock key (st.1 ++ st.2.getD i [])
  (xorBytes (b.take 8) (beBytes 8 t), st.2.set i (b.drop 8))

/-- AES-KW of a plaintext of whole eight-byte halves. -/
def kwWrap (key data : List Byte) : List Byte :=
  let n := data.length / 8
  let st := (List.range (6 * n)).foldl (fun st t => kwStep key n st (t + 1)) (List.replicate 8 0xA6, (List.range n).map (fun i => slice data (8 * i) 8))
  st.1 ++ st.2.flatten

/-- The step undone. -/
def kwUnstep (key : List Byte) (n : Nat) (st : List Byte × List (List Byte)) (t : Nat) : List Byte × List (List Byte) :=
  let i := (t - 1) % n
  let b := aesInverse key (xorBytes st.1 (beBytes 8 t) ++ st.2.getD i [])
  (b.take 8, st.2.set i (b.drop 8))

/-- The plaintext of a wrapping, none where its integrity check fails. -/
def kwUnwrap (key bs : List Byte) : Option (List Byte) :=
  let n := bs.length / 8 - 1
  let st := (List.range (6 * n)).foldl (fun st t => kwUnstep key n st (6 * n - t)) (slice bs 0 8, (List.range n).map (fun i => slice bs (8 * (i + 1)) 8))
  if st.1 = List.replicate 8 0xA6 then some st.2.flatten else none

/-! ### CRC-32 of IEEE 802.3 -/

/-- The CRC-32 as it is sent: complemented, its first bit the one of the highest power, each byte least significant bit first. -/
def crc32 (bs : List Byte) : List Byte :=
  let r := crcBytesLsb 32 0x04C11DB7 0xFFFFFFFF bs ^^^ 0xFFFFFFFF
  (List.range 4).map (fun k => BitVec.ofNat 8 ((List.range 8).foldl (fun a i => a + (r >>> (31 - 8 * k - i)) % 2 * 2 ^ i) 0))

end Sys2Proof.Machine
end

