-- ==== Sys2Proof/Machine/Curve.lean ====
section
/-! DEFINITION. ECDSA verification on the curve P-384 with SHA-384 (FIPS 186-5). -/
namespace Sys2Proof.Machine

/-- The prime of the field, the coefficient b, the base point and its order. -/
def p384 : Nat := 2 ^ 384 - 2 ^ 128 - 2 ^ 96 + 2 ^ 32 - 1
def p384B : Nat :=
  0xb3312fa7e23ee7e4988e056be3f82d19181d9c6efe8141120314088f5013875ac656398d8a2ed19d2a85c8edd3ec2aef
def p384X : Nat :=
  0xaa87ca22be8b05378eb1c71ef320ad746e1d3b628ba79b9859f741e082542a385502f25dbf55296c3a545e3872760ab7
def p384Y : Nat :=
  0x3617de4a96262c6f5d9e98bf9292dc29f8f41dbd289a147ce9da3113b5f0b8c00a60b1ce1d7e819d7a431d7c90ea0e5f
def p384N : Nat :=
  0xffffffffffffffffffffffffffffffffffffffffffffffffc7634d81f4372ddf581a0db248b0a77aecec196accc52973

/-- Power modulo m, by the 384 bits of the exponent. -/
def powMod (m a e : Nat) : Nat := (List.range 384).foldl (fun r i => let r := r * r % m; if (e >>> (383 - i)) % 2 = 1 then r * a % m else r) 1

/-- Inverse modulo a prime. -/
def invMod (m a : Nat) : Nat := powMod m a (m - 2)

/-- A point in Jacobian coordinates: x / z², y / z³; z 0 is the point at infinity. -/
structure CurvePoint where
  x : Nat
  y : Nat
  z : Nat
  deriving DecidableEq, Repr

def subMod (a b : Nat) : Nat := (a + p384 - b % p384) % p384

/-- The double of a point. -/
def CurvePoint.double (q : CurvePoint) : CurvePoint :=
  let d := q.z * q.z % p384
  let g := q.y * q.y % p384
  let b := q.x * g % p384
  let a := 3 * subMod q.x d * (q.x + d) % p384
  let x := subMod (a * a) (8 * b)
  ⟨x, subMod (a * subMod (4 * b) x) (8 * g * g), 2 * q.y * q.z % p384⟩

/-- The sum of two points. -/
def CurvePoint.add (q r : CurvePoint) : CurvePoint :=
  if q.z = 0 then r else if r.z = 0 then q
  else
    let u := q.x * r.z * r.z % p384
    let v := r.x * q.z * q.z % p384
    let s := q.y * r.z * r.z * r.z % p384
    let t := r.y * q.z * q.z * q.z % p384
    if u = v then (if s = t then q.double else ⟨1, 1, 0⟩)
    else
      let h := subMod v u
      let w := subMod t s
      let x := subMod (w * w) (h * h * h + 2 * u * h * h)
      ⟨x, subMod (w * subMod (u * h * h) x) (s * h * h * h), h * q.z * r.z % p384⟩

/-- A multiple of a point. -/
def CurvePoint.times (q : CurvePoint) (k : Nat) : CurvePoint :=
  (List.range 384).foldl (fun a i => if (k >>> (383 - i)) % 2 = 1 then a.double.add q else a.double) ⟨1, 1, 0⟩

/-- The affine x-coordinate. -/
def CurvePoint.affineX (q : CurvePoint) : Nat := q.x * invMod p384 (q.z * q.z % p384) % p384

/-- The coordinates name a point of the curve. -/
def onCurve (x y : Nat) : Bool := decide (x < p384 ∧ y < p384 ∧ y * y % p384 = (x * x * x + p384B + (p384 - 3) * x) % p384)

/-- ECDSA P-384 with SHA-384: public key X then Y, message, signature r then s. -/
def ecdsaVerify (key : BitVec 768) (m : List Byte) (sig : BitVec 768) : Bool :=
  let qx := key.toNat / 2 ^ 384
  let qy := key.toNat % 2 ^ 384
  let r := sig.toNat / 2 ^ 384
  let s := sig.toNat % 2 ^ 384
  if r = 0 ∨ p384N ≤ r ∨ s = 0 ∨ p384N ≤ s ∨ !onCurve qx qy then false
  else
    let w := invMod p384N s
    let sum := ((⟨p384X, p384Y, 1⟩ : CurvePoint).times ((sha384 m).toNat * w % p384N)).add ((⟨qx, qy, 1⟩ : CurvePoint).times (r * w % p384N))
    sum.z != 0 && sum.affineX % p384N == r

end Sys2Proof.Machine
end

