-- ==== Sys2Proof/Config.lean ====
section
/-! DEFINITION. What the manual leaves to the part or to a cited standard: constants without a body, so that every claim
holds whatever they are (logs 4, 5, 7, 8, 15, 16, 26, 35, 49, 60, 64, 70, 72 and 73). -/
namespace Sys2Proof.Config

/-- Hetrum's PCI Vendor ID (R55, R504), a number the manual does not give (log 4). -/
opaque vendorId : Half

/-- Word that host memory returns when the device reads the IDLE word (R95) or TSQ_CONS (R90) on its own: one value for each
draw of the free counter (log 7). -/
opaque hostWord : Nat → Word

/-- FENCE of the descriptor that host memory holds at an index of a device ring: what decides whether the ring has a frame that may be
fetched (R181, log 7). -/
opaque nextFence : Nat → Nat → Bool

/-- What the tester does with the boundary-scan port, by draw of the free counter: it shifts; EXTEST is in force; the level that the cell of
an output pin then drives, none where it drives none, by place in OutPin.all (R491, log 72). -/
opaque tapShift : Nat → Bool
opaque tapExtest : Nat → Bool
opaque tapCell : Nat → Nat → Option Bool

/-- The SMBus manager that a message goes to, by draw of the free counter: its 7-bit address, its endpoint ID, the TO bit and message tag of
the MCTP header (R455, log 73). -/
opaque manager : Nat → Byte
opaque managerEid : Nat → Byte
opaque mctpTag : Nat → BitVec 4

/-- Values of the DRBG (NIST SP 800-90A), 384 bits for each draw of the free counter (log 8). -/
opaque drbg : Nat → BitVec 384

/-- Signature made with the device identity key DIK over a message (log 8). -/
opaque dikSign : List Byte → BitVec 768

/-- The DIK public key and Hetrum's certificate signature over it (log 8). -/
opaque dikPublic : BitVec 768
opaque dikCertificate : BitVec 768

/-- Hetrum's root key, the four image-signing keys and the failure analysis key in the boot ROM (log 8). -/
opaque hetrumRoot : BitVec 768
opaque imageKey : Nat → BitVec 768
opaque faKey : BitVec 768

/-- The owner public key whose SHA-384 hash an owner slot holds: signature checks run against a key of that hash (log 8). -/
opaque ownerKey : BitVec 384 → BitVec 768

/-- The domain wrapping key of (owner seed, owner slot, domain, generation), which follows from the part's DUS (R44, log 8). -/
opaque dwk : BitVec 256 → Nat → Nat → Nat → BitVec 256

/-- Ephemeral ECDH P-384 key of a KEYX, its private share and the shared x-coordinate (R383, R384) (log 8). -/
opaque ecdhPublic : Nat → BitVec 768
opaque ecdhShared : Nat → BitVec 768 → BitVec 384

/-- SVN and digest of an image delivered with the part, by place in CRN_SLOT0 to 6 (log 5). -/
opaque factorySvn : Nat → Word
opaque factoryDigest : Nat → BitVec 384

/-- Byte of a frame of the firmware's clock that the manual does not state: messageType, EP_PTPG and EP_PTPLT in force, draw of the free
counter, index (log 16). -/
opaque ptpByte : Nat → Word → Word → Nat → Nat → Byte

/-- TLVs of a profile's Announce: EP_PTPG and EP_PTPLT in force, draw of the free counter (R332, log 16). -/
opaque ptpTlvs : Word → Word → Nat → List Byte

/-- clockClass that a profile prescribes for a state of the servo: EP_PTPG, TMU_SSTAT.STATE (R332, log 16). -/
opaque ptpClass : Word → Nat → Byte

/-- Peer delay by IEEE 1588-2019 from the answers to a Pdelay_Req, its transmit stamp and the receive stamp of the answer (log 16). -/
opaque ptpDelay : List (List Byte) → DWord → DWord → DWord

/-- Offset that the firmware's clock computes by IEEE 1588-2019 from a Sync, and its Follow_Up, its receive stamp and the peer delay (log 16). -/
opaque ptpOffset : List (List Byte) → DWord → DWord → DWord

/-- Port state that the best master clock algorithm of IEEE 1588-2019 chooses for a port: EP_PTPG, clockClass, the Announce that stands for
each port, the port; 0 master, 1 slave, otherwise passive (log 16). -/
opaque bmca : Word → Byte → List (Option (List Byte)) → Nat → Nat

/-- VBASE of a vector-level target (R425), and its gap of a class in microseconds (R429), which the register maps do not give (log 60). -/
opaque vectorBase : Nat → Word
opaque vectorGap : Nat → Nat → Nat

/-- CAUSE of the SVC_RESTART record of a restart that an activation, a reversion or a memory error brings (R446), which the manual does
not number (log 7). -/
opaque svcCause : Nat → Word

/-- How much later than 11 nominal bits after the one before it the i-th run of 11 recessive bits of a recovery sequence ends, by the raw
instant of the sequence's start, the port and i; the table has no row for one run (R212, log 35). -/
opaque runDelay : Nat → Nat → Nat → Nat

/-- A frame of another node is on the bus of a port, by raw instant and port; the table has no row for its start (log 49). -/
opaque busTaken : Nat → Nat → Bool

/-- By how much the next bus idle after an error on the joined bus of a group is later than the shortest error frame, by raw instant and group
(R269 step 4, log 26). -/
opaque errorTail : Nat → Nat → Nat

/-- Latency of a frame that goes through a device cut-through, in 1/16 ns, by raw instant and link; block lock of a link that aligns; signal back
on a link that had lost it: no row says when (R346, R348, R353, R354, log 64). -/
opaque hopDelay : Nat → Nat → Nat
opaque blockLock : Nat → Nat → Bool
opaque signalBack : Nat → Nat → Bool

/-- What an engine's firmware has left in a byte of its data memory: engine, raw instant of its attachment, byte (R387, log 70). -/
opaque engineByte : Nat → Nat → Nat → Byte

/-- Answers of the MCTP control commands whose content DMTF DSP0236 and the part give: the UUID, and the version entries of a message
type (log 15). -/
opaque mctpUuid : BitVec 128
opaque mctpVersions : Nat → List Byte

end Sys2Proof.Config
end

