-- ==== Sys2Proof/Machine/Regs.lean ====
section
/-! DEFINITION. The registers of BAR0: their names, offsets, writable fields and reset values, as the register tables give them. -/
namespace Sys2Proof.Machine

/-- Access codes of writable fields (R14); fields with none of these are RO or reserved and no write reaches them. -/
inductive Acc where
  | rw
  | wo
  | rw1c
  | rws
  | rwo
  deriving DecidableEq, Repr

/-- A writable field: lowest bit, width, access code, reset value (R14, R17). -/
structure Field where
  lo : Nat
  width : Nat
  acc : Acc
  rst : Nat
  deriving DecidableEq, Repr

/-- Registers of which every function has its own copy. -/
inductive FnReg where
  | devId
  | kick
  | dbb
  | tsq
  | hoststat
  | objSel
  | objCmd
  | objRes
  | objCfg0
  | objCfg1
  | objCfg2
  | objCfg3
  | objCfg4
  | objCfg5
  | objRt
  | fltSel
  | fltCmd
  | fltRes
  | fltData (i : Fin 4)
  | fltCtl
  | fltHipri
  | sealSel
  | sealCfg
  | sealCtr
  | sealLast
  | sealWin
  | sealFail (i : Fin 2)
  | gwSel
  | gwCmd
  | gwRes
  | gwData (i : Fin 8)
  | evcGuard
  | evcDstat
  | crnEvt
  deriving DecidableEq, Repr

/-- RNG registers of one ring. -/
inductive RingReg where
  | addr
  | cfg
  | cqcfg
  | rxcfg
  | poll
  | status
  | drops
  deriving DecidableEq, Repr

/-- FPn registers. -/
inductive PortReg where
  | state
  | cmd
  | mode
  | evt
  | nbt
  | nsjw
  | dbt
  | dsjw
  | xbt
  | xsjw
  | tdcf
  | pwm
  | rxdly
  | txdly
  | err
  | tdcstat
  | sleep
  | wakeid
  | wakeidm
  | wakedlc
  | wakedata
  | wakedm
  | pair
  | cap
  | holdleft
  | txset
  | txstat
  | txhead
  | ftcfg
  | ftid
  | ftreq
  | ftstat
  | eng
  deriving DecidableEq, Repr

/-- GRPk registers. -/
inductive GrpReg where
  | state
  | cmd
  | members
  | cfg
  | echo
  | evt
  | brst
  | brv (i : Fin 16)
  | cycle
  | guardBand
  | listen
  | tbl
  | tzero
  | cs (i : Fin 4)
  | tstat
  deriving DecidableEq, Repr

/-- Time unit registers. -/
inductive TmuReg where
  | now
  | raw
  | ofs
  | anchor
  | rate
  | step
  | epoch
  | servo
  | sgain
  | sstep
  | slock
  | shold
  | sint
  | sstat
  | scnt
  | slast
  | evt
  deriving DecidableEq, Repr

/-- TMU_EVTOUTn registers. -/
inductive OutReg where
  | cfg
  | width
  | start
  | pint
  | pfrac
  | count
  | emitted
  deriving DecidableEq, Repr

/-- EPk registers. -/
inductive EpReg where
  | cfg
  | rxcfg
  | stat
  | evt
  deriving DecidableEq, Repr

/-- RLk registers. -/
inductive RlReg where
  | cfg
  | stat
  | asym
  | dly
  | nbr
  deriving DecidableEq, Repr

/-- Fabric registers. -/
inductive FabReg where
  | cfg
  | time
  | stat
  | evt
  | colf
  deriving DecidableEq, Repr

/-- DEV registers that are D0's. -/
inductive DevReg where
  | seevt
  | swap
  | secmd
  | sparecfg
  | mode
  | mstat
  | rst
  | rststat
  deriving DecidableEq, Repr

/-- Cairn registers that are D0's. -/
inductive CrnReg where
  | gov
  | govhold
  | logcfg
  | logstat
  | loglost
  | smb
  | smbevt
  | imgstat
  | scrub
  deriving DecidableEq, Repr

/-- Every register, by block (R14 and the register tables). -/
inductive Reg where
  | domLife
  | domStage (i : Fin 8)
  | domApply
  | domSmb
  | fn (d : Dom) (r : FnReg)
  | ring (n : Fin 512) (r : RingReg)
  | port (p : PortId) (r : PortReg)
  | fltPort (p : PortId)
  | grp (k : GrpId) (r : GrpReg)
  | tmu (r : TmuReg)
  | ppsCfg (i : Fin 2)
  | ppsLast (i : Fin 2)
  | evtinCfg (i : Fin 8)
  | evtinIdx (i : Fin 8)
  | out (i : Fin 4) (r : OutReg)
  | ep (k : EpId) (r : EpReg)
  | epMac (k : EpId) (n : Fin 32)
  | epHash (k : EpId) (i : Fin 16)
  | ptpg
  | ptplt
  /-- counter i of block b: FP0 to FP31, EP0 to EP3, the device, RL0 to RL3 (R336) -/
  | counter (b : Fin 41) (i : Fin 192)
  | half (b : Fin 41) (i : Fin 6)
  | rl (k : LinkId) (r : RlReg)
  | fab (r : FabReg)
  | seStat (e : EngId)
  | seFault (e : EngId)
  | gcStat (c : CoreId)
  | seimg (i : Fin 4)
  | dev (r : DevReg)
  | evcClaim (d : Dom) (t : Fin 128)
  | evcEoi (d : Dom) (t : Fin 128)
  | evcPri (d : Dom) (t : Fin 128)
  | evcMod (d : Dom) (t : Fin 128)
  | evcSrc (d : Dom) (s : Fin 256)
  /-- kind 0 ENABLE, 1 MASK, 2 PEND, 3 ACTIVE, 4 STORM -/
  | evcWord (d : Dom) (kind : Fin 5) (i : Fin 8)
  | crn (r : CrnReg)
  | crnSlot (c : Fin 7)
  deriving DecidableEq, Repr

/-- Offset within the block of BAR0. -/
def FnReg.off : FnReg → Nat
  | .devId => 0x0
  | .kick => 0x1000
  | .dbb => 0x1008
  | .tsq => 0x1010
  | .hoststat => 0x1018
  | .objSel => 0x20000
  | .objCmd => 0x20004
  | .objRes => 0x20008
  | .objCfg0 => 0x20010
  | .objCfg1 => 0x20014
  | .objCfg2 => 0x20018
  | .objCfg3 => 0x2001C
  | .objCfg4 => 0x20020
  | .objCfg5 => 0x20024
  | .objRt => 0x20028
  | .fltSel => 0x20100
  | .fltCmd => 0x20104
  | .fltRes => 0x20108
  | .fltData i => 0x20110 + 4 * i.val
  | .fltCtl => 0x20120
  | .fltHipri => 0x20124
  | .sealSel => 0x20800
  | .sealCfg => 0x20804
  | .sealCtr => 0x20808
  | .sealLast => 0x2080C
  | .sealWin => 0x20810
  | .sealFail i => 0x20818 + 4 * i.val
  | .gwSel => 0x20C00
  | .gwCmd => 0x20C04
  | .gwRes => 0x20C08
  | .gwData i => 0x20C10 + 4 * i.val
  | .evcGuard => 0x34CA0
  | .evcDstat => 0x34CA4
  | .crnEvt => 0x38000

/-- Every register of the block. -/
def FnReg.all : List FnReg :=
  [.devId, .kick, .dbb, .tsq, .hoststat, .objSel, .objCmd, .objRes, .objCfg0, .objCfg1, .objCfg2, .objCfg3, .objCfg4, .objCfg5, .objRt, .fltSel, .fltCmd, .fltRes, .fltCtl, .fltHipri, .sealSel, .sealCfg, .sealCtr, .sealLast, .sealWin, .gwSel, .gwCmd, .gwRes, .evcGuard, .evcDstat, .crnEvt] ++
  (List.finRange 4).map .fltData ++
  (List.finRange 2).map .sealFail ++
  (List.finRange 8).map .gwData

/-- 64-bit registers (R18). -/
def FnReg.wide : FnReg → Bool
  | .devId | .dbb | .tsq => true
  | _ => false

/-- Writable fields (register tables). -/
def FnReg.fields : FnReg → List Field
  | .kick => [⟨0, 9, .wo, 0⟩]
  | .dbb => [⟨0, 1, .rws, 0⟩, ⟨12, 52, .rws, 0⟩]
  | .tsq => [⟨0, 1, .rw, 0⟩, ⟨10, 54, .rws, 0⟩]
  | .hoststat => [⟨0, 1, .rw1c, 0⟩, ⟨1, 1, .rw1c, 0⟩]
  | .objSel => [⟨0, 13, .rw, 0⟩]
  | .objCmd => [⟨0, 2, .wo, 0⟩]
  | .objCfg0 => [⟨0, 1, .rw, 0⟩, ⟨1, 1, .rw, 0⟩, ⟨2, 2, .rw, 0⟩, ⟨4, 5, .rw, 0⟩, ⟨16, 16, .rw, 0⟩]
  | .objCfg1 => [⟨0, 32, .rw, 0⟩]
  | .objCfg2 => [⟨0, 8, .rw, 0⟩, ⟨8, 4, .rw, 0⟩, ⟨16, 8, .rw, 0⟩, ⟨24, 8, .rw, 0⟩]
  | .objCfg3 => [⟨0, 8, .rw, 0⟩, ⟨8, 1, .rw, 0⟩]
  | .objCfg4 => [⟨0, 32, .rw, 0⟩]
  | .objCfg5 => [⟨0, 32, .rw, 0⟩]
  | .fltSel => [⟨0, 14, .rw, 0⟩]
  | .fltCmd => [⟨0, 2, .wo, 0⟩]
  | .fltData _ => [⟨0, 32, .rw, 0⟩]
  | .fltCtl => [⟨0, 1, .rw, 0⟩]
  | .fltHipri => [⟨0, 32, .rw1c, 0⟩]
  | .sealSel => [⟨0, 8, .rw, 0⟩]
  | .sealCfg => [⟨0, 1, .rw, 0⟩]
  | .sealCtr => [⟨0, 32, .rw, 0⟩]
  | .sealLast => [⟨0, 32, .rw, 0⟩]
  | .sealWin => [⟨0, 31, .rw, 256⟩]
  | .gwSel => [⟨0, 9, .rw, 0⟩]
  | .gwCmd => [⟨0, 1, .wo, 0⟩]
  | .evcGuard => [⟨0, 8, .rw, 64⟩, ⟨8, 16, .rw, 1000⟩]
  | .evcDstat => [⟨0, 1, .rw1c, 0⟩, ⟨1, 1, .rw1c, 0⟩, ⟨2, 1, .rw1c, 0⟩, ⟨3, 1, .rw1c, 0⟩]
  | .crnEvt => [⟨0, 1, .rw1c, 0⟩, ⟨1, 1, .rw1c, 0⟩, ⟨2, 1, .rw1c, 0⟩, ⟨3, 1, .rw1c, 0⟩, ⟨4, 1, .rw1c, 0⟩, ⟨5, 1, .rw1c, 0⟩, ⟨6, 1, .rw1c, 0⟩, ⟨7, 1, .rw1c, 0⟩, ⟨8, 1, .rw1c, 0⟩, ⟨9, 1, .rw1c, 0⟩, ⟨10, 1, .rw1c, 0⟩, ⟨11, 1, .rw1c, 0⟩, ⟨12, 1, .rw1c, 0⟩]
  | _ => []

/-- Offset within the block. -/
def RingReg.off : RingReg → Nat
  | .addr => 0x0
  | .cfg => 0x8
  | .cqcfg => 0xC
  | .rxcfg => 0x10
  | .poll => 0x14
  | .status => 0x18
  | .drops => 0x1C

/-- Every register of the block. -/
def RingReg.all : List RingReg :=
  [.addr, .cfg, .cqcfg, .rxcfg, .poll, .status, .drops]

/-- 64-bit registers (R18). -/
def RingReg.wide : RingReg → Bool
  | .addr => true
  | _ => false

/-- Writable fields (register tables). -/
def RingReg.fields : RingReg → List Field
  | .addr => [⟨6, 58, .rws, 0⟩]
  | .cfg => [⟨0, 1, .rw, 0⟩, ⟨1, 3, .rws, 0⟩, ⟨4, 4, .rws, 4⟩, ⟨8, 1, .rws, 0⟩, ⟨9, 1, .rws, 0⟩, ⟨10, 6, .rws, 0⟩, ⟨16, 5, .rws, 0⟩, ⟨21, 3, .rws, 0⟩]
  | .cqcfg => [⟨0, 7, .rws, 0⟩, ⟨7, 1, .rw, 0⟩, ⟨8, 2, .rw, 0⟩]
  | .rxcfg => [⟨0, 10, .rw, 100⟩]
  | .poll => [⟨0, 10, .rw, 0⟩]
  | .status => [⟨29, 1, .rw1c, 0⟩]
  | _ => []

/-- Offset within the block. -/
def PortReg.off : PortReg → Nat
  | .state => 0x0
  | .cmd => 0x4
  | .mode => 0x8
  | .evt => 0xC
  | .nbt => 0x10
  | .nsjw => 0x14
  | .dbt => 0x18
  | .dsjw => 0x1C
  | .xbt => 0x20
  | .xsjw => 0x24
  | .tdcf => 0x28
  | .pwm => 0x2C
  | .rxdly => 0x30
  | .txdly => 0x34
  | .err => 0x38
  | .tdcstat => 0x3C
  | .sleep => 0x40
  | .wakeid => 0x44
  | .wakeidm => 0x48
  | .wakedlc => 0x4C
  | .wakedata => 0x50
  | .wakedm => 0x58
  | .pair => 0x60
  | .cap => 0x64
  | .holdleft => 0x68
  | .txset => 0x70
  | .txstat => 0x74
  | .txhead => 0x78
  | .ftcfg => 0x80
  | .ftid => 0x84
  | .ftreq => 0x88
  | .ftstat => 0x8C
  | .eng => 0x90

/-- Every register of the block. -/
def PortReg.all : List PortReg :=
  [.state, .cmd, .mode, .evt, .nbt, .nsjw, .dbt, .dsjw, .xbt, .xsjw, .tdcf, .pwm, .rxdly, .txdly, .err, .tdcstat, .sleep, .wakeid, .wakeidm, .wakedlc, .wakedata, .wakedm, .pair, .cap, .holdleft, .txset, .txstat, .txhead, .ftcfg, .ftid, .ftreq, .ftstat, .eng]

/-- 64-bit registers (R18). -/
def PortReg.wide : PortReg → Bool
  | .wakedata | .wakedm => true
  | _ => false

/-- Writable fields (register tables). -/
def PortReg.fields : PortReg → List Field
  | .cmd => [⟨0, 4, .wo, 0⟩]
  | .mode => [⟨0, 3, .rws, 0⟩, ⟨3, 1, .rws, 1⟩, ⟨4, 1, .rws, 0⟩, ⟨5, 1, .rws, 1⟩, ⟨6, 1, .rws, 1⟩, ⟨7, 1, .rws, 0⟩, ⟨8, 1, .rws, 1⟩, ⟨9, 1, .rws, 1⟩, ⟨10, 1, .rws, 0⟩, ⟨11, 1, .rw, 0⟩, ⟨12, 1, .rw, 0⟩, ⟨16, 5, .rws, 16⟩]
  | .evt => [⟨0, 1, .rw1c, 0⟩, ⟨1, 1, .rw1c, 0⟩, ⟨2, 1, .rw1c, 0⟩, ⟨3, 1, .rw1c, 0⟩, ⟨4, 1, .rw1c, 0⟩, ⟨5, 1, .rw1c, 0⟩, ⟨6, 1, .rw1c, 0⟩, ⟨7, 1, .rw1c, 0⟩, ⟨8, 1, .rw1c, 0⟩, ⟨9, 1, .rw1c, 0⟩]
  | .nbt => [⟨0, 21, .rws, 32000⟩, ⟨24, 8, .rws, 224⟩]
  | .nsjw => [⟨0, 21, .rws, 4000⟩]
  | .dbt => [⟨0, 16, .rws, 4000⟩, ⟨16, 8, .rws, 192⟩]
  | .dsjw => [⟨0, 16, .rws, 1000⟩, ⟨16, 16, .rws, 3000⟩]
  | .xbt => [⟨0, 16, .rws, 1600⟩, ⟨16, 8, .rws, 192⟩]
  | .xsjw => [⟨0, 16, .rws, 160⟩, ⟨16, 16, .rws, 1200⟩]
  | .tdcf => [⟨0, 16, .rws, 0⟩]
  | .pwm => [⟨0, 16, .rws, 400⟩, ⟨16, 16, .rws, 1200⟩]
  | .rxdly => [⟨0, 16, .rw, 0⟩]
  | .txdly => [⟨0, 16, .rw, 0⟩]
  | .sleep => [⟨0, 2, .rws, 0⟩, ⟨2, 1, .rws, 0⟩, ⟨3, 1, .rws, 1⟩, ⟨4, 10, .rws, 100⟩]
  | .wakeid => [⟨0, 29, .rws, 0⟩, ⟨29, 1, .rws, 0⟩]
  | .wakeidm => [⟨0, 29, .rws, 0⟩, ⟨29, 1, .rws, 0⟩]
  | .wakedlc => [⟨0, 4, .rws, 0⟩, ⟨4, 1, .rws, 0⟩, ⟨5, 1, .rws, 0⟩]
  | .wakedata => [⟨0, 64, .rws, 0⟩]
  | .wakedm => [⟨0, 64, .rws, 0⟩]
  | .pair => [⟨0, 1, .rws, 0⟩, ⟨8, 8, .rws, 50⟩]
  | .txset => [⟨0, 6, .rw, 32⟩]
  | .ftcfg => [⟨0, 1, .rws, 0⟩, ⟨1, 1, .rws, 0⟩, ⟨2, 1, .rws, 0⟩, ⟨8, 6, .rws, 0⟩, ⟨16, 16, .rws, 125⟩]
  | .ftid => [⟨0, 29, .rws, 0⟩]
  | .ftreq => [⟨0, 29, .rws, 0⟩]
  | _ => []

/-- Offset within the block. -/
def GrpReg.off : GrpReg → Nat
  | .state => 0x0
  | .cmd => 0x4
  | .members => 0x8
  | .cfg => 0xC
  | .echo => 0x10
  | .evt => 0x14
  | .brst => 0x18
  | .brv i => 0x60 + 4 * i.val
  | .cycle => 0x20
  | .guardBand => 0x24
  | .listen => 0x28
  | .tbl => 0x2C
  | .tzero => 0x30
  | .cs i => 0x38 + 4 * i.val
  | .tstat => 0x48

/-- Every register of the block. -/
def GrpReg.all : List GrpReg :=
  [.state, .cmd, .members, .cfg, .echo, .evt, .brst, .cycle, .guardBand, .listen, .tbl, .tzero, .tstat] ++
  (List.finRange 16).map .brv ++
  (List.finRange 4).map .cs

/-- 64-bit registers (R18). -/
def GrpReg.wide : GrpReg → Bool
  | .tzero | .tstat => true
  | _ => false

/-- Writable fields (register tables). -/
def GrpReg.fields : GrpReg → List Field
  | .cmd => [⟨0, 4, .wo, 0⟩, ⟨4, 4, .wo, 0⟩]
  | .members => [⟨0, 32, .rws, 0⟩]
  | .cfg => [⟨0, 1, .rws, 0⟩, ⟨1, 1, .rws, 0⟩, ⟨2, 1, .rws, 0⟩, ⟨3, 1, .rws, 0⟩, ⟨4, 8, .rws, 26⟩, ⟨12, 5, .rws, 16⟩, ⟨17, 5, .rws, 3⟩, ⟨22, 6, .rws, 16⟩, ⟨28, 4, .rws, 4⟩]
  | .echo => [⟨0, 16, .rws, 4080⟩]
  | .evt => [⟨0, 1, .rw1c, 0⟩, ⟨1, 1, .rw1c, 0⟩, ⟨2, 1, .rw1c, 0⟩, ⟨3, 1, .rw1c, 0⟩, ⟨4, 1, .rw1c, 0⟩, ⟨5, 1, .rw1c, 0⟩, ⟨6, 1, .rw1c, 0⟩, ⟨7, 1, .rw1c, 0⟩]
  | .cycle => [⟨0, 30, .rws, 1000000⟩]
  | .guardBand => [⟨0, 17, .rws, 4000⟩]
  | .listen => [⟨0, 30, .rws, 2000000⟩]
  | .tbl => [⟨0, 9, .rws, 1⟩, ⟨16, 8, .rws, 0⟩]
  | .tzero => [⟨0, 64, .rws, 0⟩]
  | .cs _ => [⟨0, 1, .rws, 0⟩, ⟨1, 1, .rws, 0⟩, ⟨2, 4, .rws, 0⟩, ⟨6, 2, .rws, 0⟩, ⟨8, 11, .rws, 0⟩]
  | _ => []

/-- Offset within the block of BAR0. -/
def TmuReg.off : TmuReg → Nat
  | .now => 0x2C000
  | .raw => 0x2C008
  | .ofs => 0x2C010
  | .anchor => 0x2C018
  | .rate => 0x2C020
  | .step => 0x2C028
  | .epoch => 0x2C030
  | .servo => 0x2C040
  | .sgain => 0x2C044
  | .sstep => 0x2C048
  | .slock => 0x2C04C
  | .shold => 0x2C050
  | .sint => 0x2C054
  | .sstat => 0x2C058
  | .scnt => 0x2C05C
  | .slast => 0x2C060
  | .evt => 0x2C068

/-- Every register of the block. -/
def TmuReg.all : List TmuReg :=
  [.now, .raw, .ofs, .anchor, .rate, .step, .epoch, .servo, .sgain, .sstep, .slock, .shold, .sint, .sstat, .scnt, .slast, .evt]

/-- 64-bit registers (R18). -/
def TmuReg.wide : TmuReg → Bool
  | .now | .raw | .ofs | .anchor | .step | .epoch | .slast => true
  | _ => false

/-- Writable fields (register tables). -/
def TmuReg.fields : TmuReg → List Field
  | .rate => [⟨0, 32, .rws, 0⟩]
  | .step => [⟨0, 64, .wo, 0⟩]
  | .epoch => [⟨0, 48, .rwo, 0⟩]
  | .servo => [⟨0, 1, .rw, 0⟩, ⟨1, 3, .rws, 7⟩, ⟨4, 2, .rws, 1⟩, ⟨6, 1, .rwo, 0⟩, ⟨8, 4, .rws, 0⟩]
  | .sgain => [⟨0, 16, .rw, 45875⟩, ⟨16, 16, .rw, 19661⟩]
  | .sstep => [⟨0, 32, .rw, 10000⟩]
  | .slock => [⟨0, 16, .rw, 100⟩, ⟨16, 8, .rw, 8⟩]
  | .shold => [⟨0, 16, .rw, 3000⟩, ⟨16, 16, .rw, 100⟩]
  | .sint => [⟨0, 32, .rws, 0⟩]
  | .evt => [⟨0, 1, .rw1c, 0⟩, ⟨1, 1, .rw1c, 0⟩, ⟨2, 1, .rw1c, 0⟩, ⟨3, 1, .rw1c, 0⟩, ⟨4, 1, .rw1c, 0⟩, ⟨5, 1, .rw1c, 0⟩, ⟨6, 1, .rw1c, 0⟩]
  | _ => []

/-- Offset within the block. -/
def OutReg.off : OutReg → Nat
  | .cfg => 0x2C200
  | .width => 0x2C204
  | .start => 0x2C208
  | .pint => 0x2C210
  | .pfrac => 0x2C214
  | .count => 0x2C218
  | .emitted => 0x2C21C

/-- Every register of the block. -/
def OutReg.all : List OutReg :=
  [.cfg, .width, .start, .pint, .pfrac, .count, .emitted]

/-- 64-bit registers (R18). -/
def OutReg.wide : OutReg → Bool
  | .start => true
  | _ => false

/-- Writable fields (register tables). -/
def OutReg.fields : OutReg → List Field
  | .cfg => [⟨0, 2, .rws, 0⟩, ⟨2, 1, .rws, 0⟩, ⟨3, 1, .rw, 0⟩, ⟨4, 1, .rw, 0⟩, ⟨16, 16, .rws, 0⟩]
  | .width => [⟨0, 32, .rws, 0⟩]
  | .start => [⟨0, 64, .rws, 0⟩]
  | .pint => [⟨0, 32, .rws, 0⟩]
  | .pfrac => [⟨0, 32, .rws, 0⟩]
  | .count => [⟨0, 32, .rws, 0⟩]
  | _ => []

/-- Offset within the block. -/
def EpReg.off : EpReg → Nat
  | .cfg => 0x0
  | .rxcfg => 0x4
  | .stat => 0x8
  | .evt => 0xC

/-- Every register of the block. -/
def EpReg.all : List EpReg :=
  [.cfg, .rxcfg, .stat, .evt]

/-- 64-bit registers (R18). -/
def EpReg.wide : EpReg → Bool
  | _ => false

/-- Writable fields (register tables). -/
def EpReg.fields : EpReg → List Field
  | .cfg => [⟨0, 1, .rw, 0⟩, ⟨1, 1, .rws, 1⟩, ⟨2, 1, .rws, 1⟩, ⟨3, 1, .rws, 0⟩, ⟨4, 1, .rws, 0⟩, ⟨5, 1, .rw, 0⟩, ⟨6, 1, .rw, 0⟩, ⟨7, 1, .rw, 1⟩, ⟨8, 1, .rw, 0⟩, ⟨9, 1, .rw, 0⟩, ⟨10, 1, .rwo, 0⟩, ⟨11, 1, .rwo, 0⟩, ⟨16, 11, .rws, 2000⟩]
  | .rxcfg => [⟨0, 6, .rw, 0⟩]
  | .evt => [⟨0, 1, .rw1c, 0⟩, ⟨1, 1, .rw1c, 0⟩]
  | _ => []

/-- Offset within the block. -/
def RlReg.off : RlReg → Nat
  | .cfg => 0x0
  | .stat => 0x4
  | .asym => 0x8
  | .dly => 0xC
  | .nbr => 0x10

/-- Every register of the block. -/
def RlReg.all : List RlReg :=
  [.cfg, .stat, .asym, .dly, .nbr]

/-- 64-bit registers (R18). -/
def RlReg.wide : RlReg → Bool
  | .nbr => true
  | _ => false

/-- Writable fields (register tables). -/
def RlReg.fields : RlReg → List Field
  | .cfg => [⟨0, 1, .rw, 0⟩, ⟨1, 1, .rws, 0⟩]
  | .asym => [⟨0, 32, .rw, 0⟩]
  | _ => []

/-- Offset within the block of BAR0. -/
def FabReg.off : FabReg → Nat
  | .cfg => 0x30400
  | .time => 0x30404
  | .stat => 0x30408
  | .evt => 0x3040C
  | .colf => 0x30414

/-- Every register of the block. -/
def FabReg.all : List FabReg :=
  [.cfg, .time, .stat, .evt, .colf]

/-- 64-bit registers (R18). -/
def FabReg.wide : FabReg → Bool
  | _ => false

/-- Writable fields (register tables). -/
def FabReg.fields : FabReg → List Field
  | .cfg => [⟨0, 1, .rw, 0⟩, ⟨1, 1, .rws, 1⟩, ⟨2, 1, .rws, 0⟩, ⟨3, 1, .rws, 0⟩, ⟨8, 8, .rws, 0⟩, ⟨24, 8, .rw, 255⟩]
  | .time => [⟨0, 8, .rw, 128⟩, ⟨8, 1, .rw, 0⟩, ⟨16, 8, .rw, 0⟩]
  | .evt => [⟨0, 1, .rw1c, 0⟩, ⟨1, 1, .rw1c, 0⟩, ⟨2, 1, .rw1c, 0⟩, ⟨3, 1, .rw1c, 0⟩, ⟨4, 1, .rw1c, 0⟩, ⟨5, 1, .rw1c, 0⟩]
  | .colf => [⟨8, 8, .rws, 10⟩]
  | _ => []

/-- Offset within the block of BAR0. -/
def DevReg.off : DevReg → Nat
  | .seevt => 0x21A0
  | .swap => 0x21A4
  | .secmd => 0x21A8
  | .sparecfg => 0x21AC
  | .mode => 0x100
  | .mstat => 0x104
  | .rst => 0x200
  | .rststat => 0x204

/-- Every register of the block. -/
def DevReg.all : List DevReg :=
  [.seevt, .swap, .secmd, .sparecfg, .mode, .mstat, .rst, .rststat]

/-- 64-bit registers (R18). -/
def DevReg.wide : DevReg → Bool
  | _ => false

/-- Writable fields (register tables). -/
def DevReg.fields : DevReg → List Field
  | .seevt => [⟨0, 1, .rw1c, 0⟩, ⟨1, 1, .rw1c, 0⟩, ⟨2, 1, .rw1c, 0⟩, ⟨3, 1, .rw1c, 0⟩, ⟨4, 1, .rw1c, 0⟩]
  | .swap => [⟨0, 5, .rw, 0⟩, ⟨8, 2, .rw, 0⟩, ⟨15, 1, .wo, 0⟩]
  | .secmd => [⟨0, 6, .rw, 0⟩, ⟨8, 2, .wo, 0⟩]
  | .sparecfg => [⟨0, 2, .rw, 0⟩, ⟨2, 2, .rw, 0⟩]
  | .mode => [⟨0, 1, .rwo, 0⟩, ⟨4, 4, .rwo, 4⟩, ⟨8, 1, .rwo, 1⟩]
  | .rst => [⟨0, 1, .wo, 0⟩, ⟨8, 8, .wo, 0⟩]
  | _ => []

/-- Offset within the block of BAR0. -/
def CrnReg.off : CrnReg → Nat
  | .gov => 0x38004
  | .govhold => 0x38008
  | .logcfg => 0x38100
  | .logstat => 0x38104
  | .loglost => 0x38108
  | .smb => 0x38140
  | .smbevt => 0x38144
  | .imgstat => 0x38110
  | .scrub => 0x38148

/-- Every register of the block. -/
def CrnReg.all : List CrnReg :=
  [.gov, .govhold, .logcfg, .logstat, .loglost, .smb, .smbevt, .imgstat, .scrub]

/-- 64-bit registers (R18). -/
def CrnReg.wide : CrnReg → Bool
  | _ => false

/-- Writable fields (register tables). -/
def CrnReg.fields : CrnReg → List Field
  | .gov => [⟨0, 8, .rwo, 110⟩, ⟨8, 8, .rwo, 95⟩, ⟨16, 8, .rwo, 120⟩, ⟨24, 4, .rwo, 4⟩]
  | .govhold => [⟨0, 16, .rwo, 60⟩]
  | .logcfg => [⟨0, 1, .rwo, 0⟩, ⟨1, 1, .wo, 0⟩]
  | .smb => [⟨0, 7, .rwo, 54⟩, ⟨7, 1, .rwo, 0⟩]
  | _ => []

/-- Writable fields of a register. -/
def Reg.fields : Reg → List Field
  | .domStage _ => [⟨0, 32, .rw, 0⟩]
  | .domApply => [⟨0, 1, .wo, 0⟩]
  | .domSmb => [⟨0, 1, .rw, 1⟩, ⟨1, 1, .rw, 1⟩, ⟨2, 1, .rw, 1⟩, ⟨3, 1, .rw, 0⟩, ⟨4, 1, .rw, 0⟩, ⟨5, 1, .rw, 0⟩, ⟨6, 1, .rw, 0⟩]
  | .fltPort _ => [⟨0, 14, .rw, 0⟩, ⟨16, 15, .rw, 0⟩, ⟨32, 1, .rw, 0⟩, ⟨33, 6, .rw, 0⟩, ⟨39, 1, .rw, 0⟩]
  | .ppsCfg _ => [⟨0, 1, .rwo, 0⟩, ⟨1, 1, .rwo, 0⟩, ⟨16, 16, .rwo, 0⟩]
  | .evtinCfg _ => [⟨0, 1, .rwo, 0⟩, ⟨1, 2, .rwo, 1⟩, ⟨4, 10, .rwo, 0⟩, ⟨16, 4, .rwo, 0⟩, ⟨20, 12, .rwo, 0⟩]
  | .evtinIdx _ => [⟨16, 16, .rw, 0⟩]
  | .epMac _ _ => [⟨0, 48, .rw, 0⟩, ⟨48, 1, .rw, 0⟩, ⟨49, 6, .rw, 0⟩]
  | .epHash _ _ => [⟨0, 32, .rw, 0⟩]
  | .ptpg => [⟨0, 2, .rwo, 0⟩, ⟨2, 2, .rwo, 1⟩, ⟨4, 4, .rwo, 0⟩, ⟨8, 8, .rwo, 128⟩, ⟨16, 8, .rwo, 128⟩, ⟨24, 8, .rwo, 0⟩]
  | .ptplt => [⟨0, 16, .rwo, 0⟩]
  | .half _ _ => [⟨0, 32, .rw1c, 0⟩]
  | .evcEoi _ _ => [⟨0, 32, .wo, 0⟩]
  | .evcMod _ _ => [⟨0, 10, .rw, 0⟩, ⟨10, 10, .rw, 0⟩, ⟨20, 10, .rw, 0⟩]
  | .evcSrc _ s => if s.val ≤ 64 then [⟨0, 4, .rw, 0⟩, ⟨13, 1, .rw, 0⟩]
    else [⟨0, 4, .rw, 0⟩, ⟨4, 7, .rw, 0⟩, ⟨11, 2, .rw, 0⟩, ⟨13, 1, .rw, 1⟩]
  | .evcWord _ k _ => if k.val = 0 ∨ k.val = 1 then [⟨0, 32, .rw, 0⟩] else if k.val = 4 then [⟨0, 32, .rw1c, 0⟩] else []
  | .fn _ r => r.fields
  | .ring _ r => r.fields
  | .port _ r => r.fields
  | .grp _ r => r.fields
  | .tmu r => r.fields
  | .out _ r => r.fields
  | .ep _ r => r.fields
  | .rl _ r => r.fields
  | .fab r => r.fields
  | .dev r => r.fields
  | .crn r => r.fields
  | _ => []

/-- Reset value of the writable fields (R17). -/
def Reg.reset (r : Reg) : DWord := r.fields.foldl (fun w f => putFld w f.lo f.width f.rst) 0

/-- 64-bit registers (R18). -/
def Reg.wide : Reg → Bool
  | .fltPort _ | .ppsLast _ | .epMac _ _ => true
  | .fn _ r => r.wide
  | .ring _ r => r.wide
  | .port _ r => r.wide
  | .grp _ r => r.wide
  | .tmu r => r.wide
  | .out _ r => r.wide
  | .ep _ r => r.wide
  | .rl _ r => r.wide
  | .fab r => r.wide
  | .dev r => r.wide
  | .crn r => r.wide
  | _ => false

/-- Offset of a counter block: FP0 to FP31, EP0 to EP3, the device (section Statistics counters of 08). -/
def blockOff (b : Nat) : Nat := if b = 36 then 0x4C000 else 0x40000 + 0x400 * b

/-- BAR0 offset, with device ring numbers for RNG registers (D0's view). -/
def Reg.off : Reg → Nat
  | .domLife => 0x4000
  | .domStage i => 0x4020 + 4 * i.val
  | .domApply => 0x4040
  | .domSmb => 0x4048
  | .fn _ r => r.off
  | .ring n r => 0x8000 + 0x40 * n.val + r.off
  | .port p r => 0x10000 + 0x800 * p.val + r.off
  | .fltPort p => 0x20400 + 8 * p.val
  | .grp k r => 0x24000 + 0x100 * k.val + r.off
  | .tmu r => r.off
  | .ppsCfg i => 0x2C080 + 0x10 * i.val
  | .ppsLast i => 0x2C088 + 0x10 * i.val
  | .evtinCfg i => 0x2C100 + 0x10 * i.val
  | .evtinIdx i => 0x2C104 + 0x10 * i.val
  | .out i r => 0x40 * i.val + r.off
  | .ep k r => 0x28000 + 0x1000 * k.val + r.off
  | .epMac k n => 0x28100 + 0x1000 * k.val + 8 * n.val
  | .epHash k i => 0x28200 + 0x1000 * k.val + 4 * i.val
  | .ptpg => 0x28800
  | .ptplt => 0x28804
  | .counter b i => if b.val < 37 then blockOff b.val + 4 * i.val else 0x30040 + 0x100 * (b.val - 37) + 4 * i.val
  | .half b i => if b.val < 37 then blockOff b.val + 0x300 + 4 * i.val else 0x300F0 + 0x100 * (b.val - 37)
  | .rl k r => 0x30000 + 0x100 * k.val + r.off
  | .fab r => r.off
  | .seStat e => 0x2000 + 8 * e.val
  | .seFault e => 0x2004 + 8 * e.val
  | .gcStat c => 0x2180 + 4 * c.val
  | .seimg i => 0x2190 + 4 * i.val
  | .dev r => r.off
  | .evcClaim _ t => 0x34000 + 0x10 * t.val
  | .evcEoi _ t => 0x34004 + 0x10 * t.val
  | .evcPri _ t => 0x34008 + 0x10 * t.val
  | .evcMod _ t => 0x3400C + 0x10 * t.val
  | .evcSrc _ s => 0x34800 + 4 * s.val
  | .evcWord _ k i => 0x34C00 + 0x20 * k.val + 4 * i.val
  | .crn r => r.off
  | .crnSlot c => 0x38120 + 4 * c.val

/-- The function whose copy a register is, 0 where there is one copy. -/
def Reg.copy : Reg → Nat
  | .fn d _ | .evcClaim d _ | .evcEoi d _ | .evcPri d _ | .evcMod d _ | .evcSrc d _ | .evcWord d _ _ => d.val
  | _ => 0

/-- Order of registers in the canonical register file. -/
def Reg.key (r : Reg) : Nat := r.copy * 0x80000 + r.off

/-- The first register of a list that lies at an offset of its block, whether it is a high half, or none. -/
def findOff {α : Type} (all : List α) (off : α → Nat) (wide : α → Bool) (o : Nat) : Option (α × Bool) :=
  match all with
  | [] => none
  | r :: rs => if off r = o then some (r, false) else if wide r && off r + 4 == o then some (r, true) else findOff rs off wide o

/-- Index i of a table of n registers. -/
def nth? (n i : Nat) : Option (Fin n) := if h : i < n then some ⟨i, h⟩ else none

/-- The register at a 4-byte aligned offset in the view of domain d (ring registers by device number), and whether the offset is
the high half of a 64-bit register (R18). -/
def Reg.atOff (d : Dom) (o : Nat) : Option (Reg × Bool) :=
  if o = 0x4000 then some (.domLife, false)
  else if 0x4020 ≤ o ∧ o < 0x4040 then (nth? 8 ((o - 0x4020) / 4)).map (fun i => (.domStage i, false))
  else if o = 0x4040 then some (.domApply, false)
  else if o = 0x4048 then some (.domSmb, false)
  else if o < 0x2000 ∨ (0x20000 ≤ o ∧ o < 0x20400) ∨ (0x20800 ≤ o ∧ o < 0x21000) ∨ o = 0x34CA0 ∨ o = 0x34CA4 ∨ o = 0x38000 then
    match findOff FnReg.all FnReg.off FnReg.wide o with
    | some (r, h) => some (.fn d r, h)
    | none => (findOff DevReg.all DevReg.off DevReg.wide o).map (fun e => (.dev e.1, e.2))
  else if 0x2000 ≤ o ∧ o < 0x2110 then
    (nth? 34 ((o - 0x2000) / 8)).map (fun e => (if o % 8 = 0 then .seStat e else .seFault e, false))
  else if 0x2180 ≤ o ∧ o < 0x2190 then (nth? 4 ((o - 0x2180) / 4)).map (fun c => (.gcStat c, false))
  else if 0x2190 ≤ o ∧ o < 0x21A0 then (nth? 4 ((o - 0x2190) / 4)).map (fun c => (.seimg c, false))
  else if 0x21A0 ≤ o ∧ o < 0x2200 then (findOff DevReg.all DevReg.off DevReg.wide o).map (fun e => (.dev e.1, e.2))
  else if 0x8000 ≤ o ∧ o < 0x10000 then
    (nth? 512 ((o - 0x8000) / 0x40)).bind (fun n => (findOff RingReg.all RingReg.off RingReg.wide (o % 0x40)).map (fun e => (.ring n e.1, e.2)))
  else if 0x10000 ≤ o ∧ o < 0x20000 then
    (nth? 32 ((o - 0x10000) / 0x800)).bind (fun p => (findOff PortReg.all PortReg.off PortReg.wide (o % 0x800)).map (fun e => (.port p e.1, e.2)))
  else if 0x20400 ≤ o ∧ o < 0x20500 then (nth? 32 ((o - 0x20400) / 8)).map (fun p => (.fltPort p, o % 8 == 4))
  else if 0x24000 ≤ o ∧ o < 0x24400 then
    (nth? 4 ((o - 0x24000) / 0x100)).bind (fun k => (findOff GrpReg.all GrpReg.off GrpReg.wide (o % 0x100)).map (fun e => (.grp k e.1, e.2)))
  else if o = 0x28800 then some (.ptpg, false)
  else if o = 0x28804 then some (.ptplt, false)
  else if 0x28000 ≤ o ∧ o < 0x2C000 then
    (nth? 4 ((o - 0x28000) / 0x1000)).bind (fun k =>
      let r := o % 0x1000
      if 0x100 ≤ r ∧ r < 0x200 then (nth? 32 ((r - 0x100) / 8)).map (fun n => (.epMac k n, r % 8 == 4))
      else if 0x200 ≤ r ∧ r < 0x240 then (nth? 16 ((r - 0x200) / 4)).map (fun i => (.epHash k i, false))
      else (findOff EpReg.all EpReg.off EpReg.wide r).map (fun e => (.ep k e.1, e.2)))
  else if 0x2C080 ≤ o ∧ o < 0x2C0A0 then
    (nth? 2 ((o - 0x2C080) / 0x10)).bind (fun i =>
      if o % 0x10 = 0 then some (.ppsCfg i, false) else if 8 ≤ o % 0x10 then some (.ppsLast i, o % 0x10 == 12) else none)
  else if 0x2C100 ≤ o ∧ o < 0x2C180 then
    (nth? 8 ((o - 0x2C100) / 0x10)).bind (fun i =>
      if o % 0x10 = 0 then some (.evtinCfg i, false) else if o % 0x10 = 4 then some (.evtinIdx i, false) else none)
  else if 0x2C200 ≤ o ∧ o < 0x2C300 then
    (nth? 4 ((o - 0x2C200) / 0x40)).bind (fun i => (findOff OutReg.all OutReg.off OutReg.wide (0x2C200 + o % 0x40)).map (fun e => (.out i e.1, e.2)))
  else if 0x2C000 ≤ o ∧ o < 0x30000 then (findOff TmuReg.all TmuReg.off TmuReg.wide o).map (fun e => (.tmu e.1, e.2))
  else if 0x30400 ≤ o ∧ o < 0x31000 then (findOff FabReg.all FabReg.off FabReg.wide o).map (fun e => (.fab e.1, e.2))
  else if 0x30000 ≤ o ∧ o < 0x30400 then
    (nth? 4 ((o - 0x30000) / 0x100)).bind (fun k =>
      let r := o % 0x100
      if r = 0xF0 then (nth? 41 (37 + k.val)).map (fun b => (.half b 0, false))
      else if 0x40 ≤ r ∧ r < 0xF0 then (nth? 41 (37 + k.val)).bind (fun b => (nth? 192 ((r - 0x40) / 4)).map (fun i => (.counter b i, false)))
      else (findOff RlReg.all RlReg.off RlReg.wide r).map (fun e => (.rl k e.1, e.2)))
  else if 0x34000 ≤ o ∧ o < 0x34800 then
    (nth? 128 ((o - 0x34000) / 0x10)).map (fun t =>
      (if o % 0x10 = 0 then .evcClaim d t else if o % 0x10 = 4 then .evcEoi d t else if o % 0x10 = 8 then .evcPri d t else .evcMod d t, false))
  else if 0x34800 ≤ o ∧ o < 0x34C00 then (nth? 256 ((o - 0x34800) / 4)).bind (fun s => if s.val = 0 then none else some (.evcSrc d s, false))
  else if 0x34C00 ≤ o ∧ o < 0x34CA0 then
    (nth? 5 ((o - 0x34C00) / 0x20)).bind (fun k => (nth? 8 ((o % 0x20) / 4)).map (fun i => (.evcWord d k i, false)))
  else if 0x38120 ≤ o ∧ o < 0x3813C then (nth? 7 ((o - 0x38120) / 4)).map (fun c => (.crnSlot c, false))
  else if 0x38000 ≤ o ∧ o < 0x39000 then (findOff CrnReg.all CrnReg.off CrnReg.wide o).map (fun e => (.crn e.1, e.2))
  else if (0x40000 ≤ o ∧ o < 0x49000) ∨ (0x4C000 ≤ o ∧ o < 0x4C400) then
    (nth? 41 (if 0x4C000 ≤ o then 36 else (o - 0x40000) / 0x400)).bind (fun b =>
      let r := o % 0x400
      if 0x300 ≤ r ∧ r < 0x318 then (nth? 6 ((r - 0x300) / 4)).map (fun i => (.half b i, false))
      else (nth? 192 (r / 4)).map (fun i => (.counter b i, false)))
  else none

/-- The register file: the registers that differ from their reset value, in the order of Reg.key. -/
abbrev RegFile := List (Reg × DWord)

def RegFile.get (f : RegFile) (r : Reg) : DWord :=
  match f with
  | [] => r.reset
  | (q, w) :: t => if q = r then w else RegFile.get t r

/-- f with r removed. -/
def RegFile.erase (f : RegFile) (r : Reg) : RegFile := f.filter (fun e => decide (e.1 ≠ r))

/-- (r, w) put before the first register of a greater key. -/
def RegFile.insert (f : RegFile) (r : Reg) (w : DWord) : RegFile :=
  match f with
  | [] => [(r, w)]
  | (q, u) :: t => if r.key < q.key then (r, w) :: (q, u) :: t else (q, u) :: RegFile.insert t r w

def RegFile.set (f : RegFile) (r : Reg) (w : DWord) : RegFile :=
  if w = r.reset then f.erase r else (f.erase r).insert r w

/-- Registers chosen by p back at their reset values (R17). -/
def RegFile.clear (f : RegFile) (p : Reg → Bool) : RegFile := f.filter (fun e => !p e.1)

/-- The canonical form of a register file: keys in order, no register twice, none at its reset value. -/
def RegFile.wf : RegFile → Bool
  | [] => true
  | (r, w) :: t => decide (w ≠ r.reset) && t.all (fun e => decide (r.key ≤ e.1.key) && decide (e.1 ≠ r)) && RegFile.wf t

end Sys2Proof.Machine
end

