-- ==== Sys2Proof/Machine/Parts.lean ====
section
/-! DEFINITION. The parts of the state: plain data, one structure for each thing the manual gives the device. -/
namespace Sys2Proof.Machine

/-! ### What leaves the device (the model's own record, log 3) -/

/-- A completion entry; PHASE is given by its index in the CQ (R76; section Completion entries). -/
structure CqEntry where
  tag : Half := 0
  status : Byte := 0
  /-- local submission ring -/
  num : RingNo := 0
  more : Bool := false
  info0 : Word := 0
  /-- short stamp, none where STAMP_VALID is 0 -/
  stamp : Option (BitVec 36) := none
  port : Byte := 0xFF
  info1 : Half := 0
  deriving DecidableEq, Repr

/-- What the device drives, sends or writes outside, newest last in State.out (log 3). -/
inductive Output where
  /-- the 16 bytes of a completion entry, written whole at index i of a local CQ (R79) -/
  | completion (d : Dom) (cq : RingNo) (i : Half) (bytes : List Byte)
  /-- bytes written to host memory -/
  | host (d : Dom) (addr : Nat) (bytes : List Byte)
  /-- a device-written word of the doorbell block (R63) -/
  | doorbell (d : Dom) (off : Nat) (w : Word)
  /-- 16-byte entry of the TX timestamp queue at its index (R90) -/
  | tsq (d : Dom) (i : Half) (bytes : List Byte)
  /-- MSI-X message of a local vector, with the data and address of its table entry (R424) -/
  | msix (d : Dom) (v : Fin 128) (entry : BitVec 96)
  /-- a start of frame on a field port, with its frame (R192) -/
  | frame (p : PortId) (f : CanFrame)
  /-- the trailer of the sealed frame that has won arbitration (R171) -/
  | trailer (p : PortId) (bytes : List Byte)
  /-- error flag: active or passive (R506) -/
  | errorFlag (p : PortId) (active : Bool)
  /-- a frame of a branch that the star relays onto other branches (R231) -/
  | relay (k : GrpId) (from_ : Branch) (to_ : BitVec 16)
  /-- frame bytes on an Ethernet port, without FCS (R316) -/
  | eth (k : EpId) (bytes : List Byte)
  /-- frame on a Ridgeline link (R343) -/
  | ridge (k : LinkId) (f : RlFrame)
  /-- a sealed frame on an encrypted link: its counter, ciphertext, tag and CRC-32 (R385) -/
  | ridgeSealed (k : LinkId) (bytes : List Byte)
  /-- copy of a frame ended with an error block (R346), on an encrypted link its counter and ciphertext -/
  | ridgeError (k : LinkId) (f : RlFrame)
  | ridgeErrorSealed (k : LinkId) (bytes : List Byte)
  /-- remote-fault ordered set, which from here on stands in place of idle (R354) -/
  | remoteFault (k : LinkId)
  /-- credit report of one class (R350) -/
  | credit (k : LinkId) (cls : BitVec 2) (count : BitVec 12)
  /-- SMBus message from Cairn, which leaves in the packets of State.mctpPackets (R455, R456, R457) -/
  | smbus (bytes : List Byte)
  /-- vector handed to a target: the source, and the address VBASE + 16 times the source (R425) -/
  | vector (t : VecTarget) (src : Byte) (addr : Word)
  /-- a pulse edge of EVT_OUTi at a raw instant (R299) -/
  | pulse (i : Fin 4) (raw : DWord)
  /-- 32-byte challenge placed in the JTAG data register (section Debug unlock) -/
  | jtag (c : BitVec 256)
  deriving DecidableEq, Repr

/-! ### Domains and trust (01) -/

/-- A domain entry of the partition table (record type 01h, R30). -/
structure Entry where
  valid : Bool := false
  timeFeed : Bool := false
  routeUse : Bool := false
  gateway : Bool := false
  ports : Word := 0
  groups : BitVec 4 := 0
  eports : BitVec 4 := 0
  ringBase : Nat := 0
  ringCount : Nat := 0
  tarnQuota : Nat := 0
  fltLanes : Nat := 0
  msixCount : Nat := 0
  fltBase : Nat := 0
  fltCount : Nat := 0
  msixBase : Nat := 0
  inflight : Nat := 0
  generation : Nat := 0
  logRate : Nat := 0
  keyQuota : Nat := 0
  deriving DecidableEq, Repr

/-- D0's entry after reset (R503). -/
def Entry.ownerReset : Entry :=
  { valid := true, timeFeed := true, routeUse := true, gateway := true, ringCount := 64, tarnQuota := 960, fltCount := 16384,
    fltLanes := 64, msixCount := 128, inflight := 1024, keyQuota := 255 }

/-- A DMA window (record type 02h). -/
structure Window where
  valid : Bool := false
  read : Bool := false
  write : Bool := false
  base : Nat := 0
  limit : Nat := 0
  deriving DecidableEq, Repr

/-- A key slot in use (R43, R45, R170). -/
structure KeySlot where
  dom : Dom
  /-- SEAL128 rather than LINK256 -/
  sealing : Bool
  key : BitVec 256
  mac64 : Bool := false
  ctr : Word := 0
  last : Word := 0
  win : Word := 0x100
  deriving DecidableEq, Repr

/-- LIFECYCLE (DOM_LIFE). -/
inductive Lifecycle where
  | unowned
  | owned
  | rma
  | retired
  deriving DecidableEq, Repr

/-- An owner slot of the OTP. -/
structure OwnerSlot where
  used : Bool := false
  revoked : Bool := false
  hash : BitVec 384 := 0
  seed : BitVec 256 := 0
  deriving DecidableEq, Repr

/-- The OTP (section OTP); its contents at manufacture are log 5. -/
structure Otp where
  life : Lifecycle := .unowned
  serial : DWord := 0
  slots : Vector OwnerSlot 8 := Vector.replicate 8 {}
  dusKilled : Bool := false
  /-- rollback counters by component, in the order of CRN_SLOTc -/
  rollback : Vector Nat 7 := Vector.replicate 7 0
  vminBc : BitVec 4 := 4
  vminSu : BitVec 4 := 10
  deriving DecidableEq, Repr

/-- An operation in flight, by the ring it came from (R82). -/
structure Op where
  dom : Dom
  num : RingNo
  tag : Half
  /-- Func.epoch at the fetch -/
  epoch : Nat := 0
  deriving DecidableEq, Repr

/-- A state change held while a record is applied (R28). -/
inductive Held where
  | portCmd (d : Dom) (p : PortId) (cmd : Nat)
  | ringCfg (d : Dom) (n : RingNo) (v : Word)
  | grpCmd (d : Dom) (k : GrpId) (v : Word)
  | epCfg (d : Dom) (k : EpId) (v : Word)
  /-- a write of GRPk_MEMBERS -/
  | grpMembers (d : Dom) (k : GrpId) (v : Word)
  /-- a HOLD command: TARGET and TIME -/
  | hold (o : Op) (target : Nat) (time : Word)
  /-- MSI-X Enable and the function mask -/
  | msix (d : Dom) (enable mask : Bool)
  /-- an RT_WRITE command with its entries -/
  | rtWrite (o : Op) (x : Desc) (bytes : List Byte)
  /-- the stop that a reclaim asks of a port under a forced self-test (R31, R471) -/
  | reclaimStop (p : PortId)
  deriving DecidableEq, Repr

/-- A record that is being applied: its type, its domain, the resources it names, its outcome (R26, R28). -/
structure Applying where
  kind : Byte
  dom : Byte
  ports : Word := 0
  groups : BitVec 4 := 0
  eports : BitVec 4 := 0
  /-- ranges of device rings -/
  rings : List (Nat × Nat) := []
  /-- FIRST and COUNT of the route entries -/
  routes : Nat × Nat := (0, 0)
  /-- ranges of MSI-X vectors -/
  msix : List (Nat × Nat) := []
  result : Byte := 0
  held : List Held := []
  deriving DecidableEq, Repr

/-- Belay: partition table, windows, key store, OTP, challenges (R34). -/
structure Belay where
  entries : Vector Entry 16 := (Vector.replicate 16 ({} : Entry)).set 0 Entry.ownerReset
  /-- key 16 d + index -/
  windows : Tbl Window := []
  /-- domain of each route entry, D0 where unlisted (R22) -/
  routeDom : Tbl Nat := []
  /-- key slots by handle -/
  keys : Tbl (Option KeySlot) := []
  applying : Option Applying := none
  result : Byte := 0
  otp : Otp := {}
  /-- challenge of CHALLENGE and its raw instant (R47) -/
  challenge : Option (BitVec 256 × DWord) := none
  jtagChallenge : Option (BitVec 256) := none
  debugUnlocked : Bool := false
  /-- domains whose CQs a reclaim disables, each once the rings that name it have reached ACTIVE 0 (R31) -/
  closing : List Dom := []
  deriving DecidableEq, Repr

/-! ### Functions and rings (02) -/

/-- What each function holds beside its registers. -/
structure Func where
  /-- TX timestamp queue: next index, last TSQ_CONS read, entries lost (R90) -/
  tsqProd : Half := 0
  tsqCons : Half := 0
  tsqLost : Half := 0
  /-- a run of discards has raised TMU_TSQ_OVF (R90) -/
  tsqRun : Bool := false
  /-- function-level reset in progress, with the operations it ended (R57) -/
  flr : Option Nat := none
  /-- rises at each reset that ends the domain's operations without completion, which tells them from later ones (R57) -/
  epoch : Nat := 0
  flrAborts : Half := 0
  /-- PCI Express MSI-X Enable, function mask, address and data of the table's entries, entries whose mask bit is 0, pending entries
  (R56, R424, log 14) -/
  msixEnable : Bool := false
  funcMask : Bool := false
  vecTable : Tbl (BitVec 96) := []
  vecOpen : List Nat := []
  vecPending : List Nat := []
  /-- latched high halves: NOW, RAW, OFS, ANCHOR; none before a first read of a low half (R280) -/
  latch : Vector (Option Word) 4 := Vector.replicate 4 none
  /-- RESULT of OBJ_RES, FLT_RES, GW_RES -/
  objRes : Byte := 0
  fltRes : Byte := 0
  gwRes : Byte := 0
  /-- raw instants at which OBJ_CMD, FLT_CMD and GW_CMD last started a command, whose BUSY lasts until raw time goes on (R510, log 46) -/
  objAt : Option DWord := none
  fltAt : Option DWord := none
  gwAt : Option DWord := none
  /-- OBJ_RT as loaded by LOAD -/
  objRt : Word := 0
  /-- SEAL_FAILCNT0 and 1: reasons 1 to 4 (R176) -/
  sealFail : Vector Half 4 := Vector.replicate 4 0
  /-- log records caused in the interval of the raw counter, and not written (R42) -/
  logInterval : Nat := 0
  logCount : Nat := 0
  logDropped : Nat := 0
  deriving DecidableEq, Repr

/-- A frame that waits for buffers or CQ room at an RX ring (R86). -/
structure RxWait where
  /-- receive header and payload -/
  bytes : List Byte
  info0 : Word
  status : Byte
  stamp : Option (BitVec 36)
  port : Byte
  /-- staging share (FP0 to FP31, EP0 to EP3 as 32 to 35) and space -/
  block : Nat
  space : Nat
  taken : List (Half × DWord) := []
  since : DWord := 0
  deriving DecidableEq, Repr

/-- A ring (R67 to R86). -/
structure Ring where
  active : Bool := false
  /-- own index (R70) -/
  head : Half := 0
  /-- PROD or CONS last read (R64, R93) -/
  idx : Half := 0
  /-- operations fetched and not completed (RNG_STATUS.INFLIGHT) -/
  inflight : Nat := 0
  /-- raw instant of the last read of the index on the ring's own account (R66, R83) -/
  polledAt : DWord := 0
  drops : Word := 0
  posted : List (Half × DWord) := []
  frames : List RxWait := []
  /-- entries waiting for room or for the CQ to be enabled, with whether each ends an operation (R83, R72) -/
  wait : List (CqEntry × Bool) := []
  deriving DecidableEq, Repr

/-! ### Field ports (03, 05) -/

/-- Port states, coded as FPn_STATE.STATE. -/
inductive PState where
  | off
  | stopped
  | startup
  | normal
  | test
  | recovery
  | busoff
  | hold
  | sleep
  | isolated
  deriving DecidableEq, Repr

def PState.code : PState → Nat
  | .off => 0
  | .stopped => 1
  | .startup => 2
  | .normal => 3
  | .test => 4
  | .recovery => 5
  | .busoff => 6
  | .hold => 7
  | .sleep => 8
  | .isolated => 9

/-- What a candidate sends (R179, R183). -/
inductive Source where
  | ring (n : RingNo)
  | obj (o : BitVec 13)
  deriving DecidableEq, Repr

/-- A candidate: a TX_FRAME or a pending send object with its retry state (R178). -/
structure Cand where
  slot : Nat
  /-- order of entry into the set (R189) -/
  order : Nat
  src : Source
  op : Op
  /-- frame without payload for send objects, which read theirs at each start (R155) -/
  frame : CanFrame
  sealWith : Option Byte := none
  alcount : Bool := false
  retry : Nat := 0
  tsq : Bool := false
  /-- payload address of a candidate that is not inline (R191) -/
  addr : Option DWord := none
  len : Nat := 0
  ready : Bool := false
  /-- the first payload read failed (text after R195) -/
  reread : Bool := false
  /-- raw instant at which the hold time ends (R200) -/
  due : Option DWord := none
  /-- raw instants at which it became ready, and at which its first ending event arrived (R193, R263) -/
  since : DWord := 0
  endAt : DWord := 0
  attempts : Nat := 0
  arb : Nat := 0
  errors : Nat := 0
  counted : Nat := 0
  nonAck : Bool := false
  lastErr : Option ErrKind := none
  holdEnded : Bool := false
  ringOff : Bool := false
  /-- ending event that stands highest in R222 so far: its place in that table (R224) -/
  ending : Option Nat := none
  /-- sent for a gateway rule: no completion entry (R416) -/
  quiet : Bool := false
  /-- its uncommitted attempt was destroyed with the engine (R397, R398) -/
  destroyed : Bool := false
  deriving DecidableEq, Repr

/-- What an attempt sends. -/
inductive Sending where
  | cand (slot : Nat)
  | beacon
  | followUp
  | delayResp
  | reference
  deriving DecidableEq, Repr

/-- An attempt: from the start of frame (R192, R194, R396). -/
structure Attempt where
  what : Sending
  frame : CanFrame
  /-- corrected raw instant of the start of frame (R284) -/
  sof : DWord
  committed : Bool := false
  /-- the trailer has been made, which uses its FV (R171) -/
  trailed : Bool := false
  /-- the engine was lost before the commit point: FPn_TXD is recessive until the frame has ended (R397) -/
  destroyed : Bool := false
  /-- earlier attempts of a field-time frame (R336) -/
  tries : Nat := 0
  deriving DecidableEq, Repr

/-- A received field frame on its way through staging or the FIFO (R87, R156, R400). -/
structure RxFrame where
  frame : CanFrame
  /-- corrected raw instant of the start of frame -/
  sof : DWord
  /-- port on which it arrived (R237) -/
  arrived : PortId
  /-- raw instant at which it was complete in staging (R86) -/
  done : DWord := 0
  space : Nat := 0
  deriving DecidableEq, Repr

/-- A staging space: number, units of 64 bytes, deliveries not ended (R87, R136). -/
structure Space where
  id : Nat
  units : Nat
  users : Nat
  deriving DecidableEq, Repr

/-- Field time of a port (R304 to R308). -/
structure FieldTime where
  /-- SEQ of the beacon that fell due last, of the last beacon sent, of the last follow-up -/
  seqNo : Byte := 0
  sentSeq : Byte := 0
  fupSeq : Byte := 0
  poll : Nat := 0
  missed : Byte := 0
  bad : Byte := 0
  beaconDue : Bool := false
  /-- FOLLOW_UP due for the last beacon, with its stamp -/
  followUp : Option DWord := none
  /-- DELAY_RESP due: node, sequence, stamp -/
  delayResp : List (Byte × Byte × DWord) := []
  /-- the node of POLL has not answered yet -/
  pollOpen : Bool := false
  /-- T at which a beacon last fell due; raw instant at which the last follow-up ended -/
  dueAt : Option DWord := none
  fupEnd : DWord := 0
  /-- attempts of the frame that is to be sent -/
  tries : Nat := 0
  deriving DecidableEq, Repr

/-- The last-committed record of one attempt (R396). -/
structure Committed where
  slot : Nat
  /-- order of the candidate, which tells it from a later one in the same slot -/
  order : Nat
  result : AttemptResult
  sof : DWord
  /-- the engine has acted on the outcome -/
  settled : Bool
  deriving DecidableEq, Repr

/-- A field port (03, 05, 07, 10). -/
structure Port where
  state : PState := .off
  prior : PState := .off
  /-- return state of a HOLD that ISOLATED keeps (R125) -/
  holdReturn : PState := .off
  boAuto : Bool := false
  seqOn : Bool := false
  /-- raw instant at which the recovery sequence started (R212) -/
  seqAt : DWord := 0
  /-- the port takes part in the bus: 11 recessive bits seen since it entered its state (R125) -/
  joined : Bool := false
  busIdle : Bool := false
  /-- the port integrates to bus idle after an error between ADS and DAS with XLES 0 (R121, R126) -/
  integ : Bool := false
  /-- hold accepted and not in effect: its TIME, and the waiting command (R128) -/
  holdPending : Option Word := none
  holdWaiter : Option Op := none
  /-- hold in force: raw instant of its end, or indefinite (R129) -/
  holdEnd : Option DWord := none
  /-- remaining microseconds that ISOLATED keeps (R125) -/
  holdKept : Option Word := none
  promoteCnt : Nat := 0
  cfgCode : Byte := 0
  tec : Nat := 0
  rec_ : Nat := 0
  loopFd : Half := 0
  loopXl : Half := 0
  /-- STOP accepted, waiting for the end of the frame (R126) -/
  stopPending : Bool := false
  /-- reference loss beyond holdover, waiting for bus idle (R106) -/
  refStop : Bool := false
  /-- FLUSH as read at bus-off entry (R215) -/
  flush : Bool := false
  cands : List Cand := []
  /-- ready candidates that an ending has taken out of the set since the last start decision may have chosen them (R193) -/
  left : List Cand := []
  nextOrder : Nat := 0
  /-- local ring served last (R181) -/
  lastRing : Nat := 63
  onWire : Option Attempt := none
  ackRun : Nat := 0
  lone : Bool := false
  suspend : Bool := false
  lastErr : Option ErrKind := none
  lastErrTx : Bool := false
  /-- front-end receive FIFO (R400) and last-committed record (R396), newest first -/
  fifo : List RxFrame := []
  record : List Committed := []
  spaces : List Space := []
  nextSpace : Nat := 0
  ft : FieldTime := {}
  wakeArmed : Bool := false
  deriving DecidableEq, Repr

/-- A port pair (R133 to R135). -/
structure Pair where
  colOn : Bool := false
  /-- raw instant at which COLk_DRV began to sink (R134) -/
  travelAt : DWord := 0
  travelDone : Bool := false
  inserted : Bool := false
  deriving DecidableEq, Repr

/-! ### Objects (04) -/

/-- Configuration of an object: OBJ_CFG0 to OBJ_CFG5 as committed (R141). -/
structure ObjCfg where
  cfg0 : Word := 0
  idw : Word := 0
  cfg2 : Word := 0
  cfg3 : Word := 0
  af : Word := 0
  hold : Word := 0
  deriving DecidableEq, Repr

/-- A message object; its slots lie in Tarn (R139 to R155). -/
structure Obj where
  cfg : ObjCfg := {}
  isNew : Bool := false
  lost : Bool := false
  pending : Bool := false
  copying : Bool := false
  tooLong : Bool := false
  /-- LENGTH as last written by OBJ_WRITE (R508), and that OBJ_WRITE has written one (R142) -/
  len : Nat := 0
  wrote : Bool := false
  seqNo : Half := 0
  /-- full stamp and arrival port of the frame in the main slot, none where it has held no frame (R148, R288) -/
  held : Option (DWord × PortId) := none
  /-- frame in the shadow slot not yet promoted, (R145) -/
  shadow : Option (DWord × PortId) := none
  /-- OBJ_READ in progress: operation, address, entry to write when the copy ends -/
  reading : Option (Op × CqEntry) := none
  /-- OBJ_READs that wait their turn (R150) -/
  readers : List (Op × DWord) := []
  deriving DecidableEq, Repr

/-! ### Device time (07) -/

/-- Time parameters in force from a raw instant (R275, R283). -/
structure TimePar where
  start : DWord := 0
  ofs : DWord := 0
  rate : Word := 0
  anchor : DWord := 0
  /-- sum of the steps made so far (R282) -/
  steps : DWord := 0
  deriving DecidableEq, Repr

/-- Servo states, coded as TMU_SSTAT.STATE. -/
inductive Servo where
  | off
  | freerun
  | locking
  | locked
  | holdover
  deriving DecidableEq, Repr

def Servo.code : Servo → Nat
  | .off => 0
  | .freerun => 1
  | .locking => 2
  | .locked => 3
  | .holdover => 4

/-- An EVT_IN buffer of 16 entries (R297). -/
structure Capture where
  entries : Vector (BitVec 128) 16 := Vector.replicate 16 0
  prod : Half := 0
  lost : Half := 0
  /-- raw instant of the last stamped edge (R296) -/
  lastEdge : Option DWord := none
  deriving DecidableEq, Repr

/-- A pulse output (R299 to R301). -/
structure Pulse where
  running : Bool := false
  emitted : Word := 0
  /-- n of the next pulse; the last pulse emitted -/
  next : Nat := 0
  last : Option Nat := none
  /-- raw instant at which the pulse in progress ends -/
  ends : Option DWord := none
  deriving DecidableEq, Repr

/-- The time unit (07). -/
structure Tmu where
  /-- the PLL has locked since power-on reset, and is locked now (R273, R274) -/
  started : Bool := false
  reflock : Bool := false
  /-- REF25 was lost since the last lock or reset: the next lock is its return (TMU_EVT), not step 3 of a boot (R487) -/
  refGone : Bool := false
  /-- ports run on PLL holdover (R106) -/
  portHoldover : Bool := false
  /-- raw instant of the last loss of lock (R106) -/
  lostAt : DWord := 0
  raw : DWord := 0
  par : TimePar := {}
  /-- earlier parameters, newest first (R283) -/
  past : List TimePar := []
  /-- held low half of TMU_STEP (R278) -/
  stepLow : Option Word := none
  servo : Servo := .off
  /-- I in units of 2^-64 (R292 asks at least 48 fractional bits) -/
  integ : Int := 0
  /-- reference sample: AT and offset; AT of the last sample used since the last step -/
  ref : Option DWord := none
  lastAt : Option DWord := none
  /-- raw instant of, and T just after, the last step (R291) -/
  stepRaw : DWord := 0
  stepT : Option DWord := none
  /-- samples waiting to be applied, oldest first: AT, offset, raw instant of the stamp where the device took it (R291) -/
  samples : List (DWord × DWord × Option DWord) := []
  /-- number of the last multiple of 2^35 that T passed or a step left behind (R91) -/
  epochs : Nat := 0
  lastUse : DWord := 0
  lockCnt : Nat := 0
  stepCnt : Half := 0
  used : Half := 0
  stale : Half := 0
  lastOffset : DWord := 0
  /-- last accepted PPS edge and its stamp (R295) -/
  ppsRaw : Vector (Option DWord) 2 := Vector.replicate 2 none
  ppsStamp : Vector DWord 2 := Vector.replicate 2 0
  captures : Vector Capture 8 := Vector.replicate 8 {}
  pulses : Vector Pulse 4 := Vector.replicate 4 {}
  deriving DecidableEq, Repr

/-! ### Star groups (06) -/

/-- Group states, coded as GRPk_STATE.STATE. -/
inductive GState where
  | stopped
  | joining
  | coldstart
  | startup
  | normal
  | hold
  deriving DecidableEq, Repr

def GState.code : GState → Nat
  | .stopped => 0
  | .joining => 1
  | .coldstart => 2
  | .startup => 3
  | .normal => 4
  | .hold => 5

/-- Branch states, coded as GRPk_BRST. -/
inductive BState where
  | joining
  | joined
  | isolated
  | out
  deriving DecidableEq, Repr

def BState.code : BState → Nat
  | .joining => 0
  | .joined => 1
  | .isolated => 2
  | .out => 3

/-- A branch of a group (R235 to R244, R259, R260). -/
structure BranchSt where
  state : BState := .joining
  /-- violations by cycle, newest first (R260) -/
  recent : List Nat := []
  kind : Nat := 0
  seqOn : Bool := false
  /-- raw instant at which the rejoin sequence began (R242) -/
  seqAt : DWord := 0
  total : Half := 0
  /-- a frame not relayed or cut is ignored until 11 recessive bits (R258) -/
  ignored : Bool := false
  deriving DecidableEq, Repr

/-- A frame in progress on the joined bus, from a branch: what the star does with it (R257). -/
structure StarFrame where
  branch : Branch
  sof : DWord
  /-- raw instant at which the window of its slot closes -/
  close : Option DWord := none
  /-- branches whose input was dominant in the last bit of the arbitration field (R259) -/
  dominant : BitVec 16 := 0
  deriving DecidableEq, Repr

/-- Where the device's own cold-start role stands (R269). -/
inductive ColdRole where
  | none_
  | listening
  | sendDue
  | backoff
  | integrated
  | leading
  deriving DecidableEq, Repr

/-- A star group (06). -/
structure Group where
  state : GState := .stopped
  prior : GState := .stopped
  holdPending : Option Word := none
  holdWaiter : Option Op := none
  holdEnd : Option DWord := none
  cfgCode : Byte := 0
  leader : Nat := 15
  promoteCnt : Nat := 0
  stopPending : Bool := false
  refStop : Bool := false
  branches : Vector BranchSt 16 := Vector.replicate 16 {}
  /-- traverse table: entry bytes by index (R250) -/
  table : Tbl (BitVec 256) := []
  frame : Option StarFrame := none
  /-- start of the present cycle, raw (R254); cycle count; consecutive misses -/
  cycleAt : DWord := 0
  cycleCnt : Half := 0
  misses : Nat := 0
  /-- a reference frame was accepted for the present cycle -/
  accepted : Bool := false
  /-- a reference start of frame has appeared in the present cycle (R269) -/
  refSof : Bool := false
  /-- one has appeared for the next cycle, whose start is not settled yet -/
  nextRefSof : Bool := false
  /-- windows apply (R245) -/
  windows : Bool := false
  /-- rho as the last measured cycle in 1/16 ns (R268), none before a first measurement: rho 1 -/
  rho : Option Nat := none
  /-- accepted reference before: leading entry and raw start (R268) -/
  lastRef : Option (Nat × DWord) := none
  /-- entry of the leader whose cycles rho was measured from (R268) -/
  rhoOf : Nat := 15
  /-- grid point at which a cold-start reference frame is due with DEV_MASTER 1 (R267, R269) -/
  gridDue : Option Int := none
  deviation : Word := 0
  role : ColdRole := .none_
  /-- raw instant at which the present listen or back-off wait started (R269) -/
  listenAt : DWord := 0
  /-- a reference frame of the device is to be sent: COLD bit -/
  refSend : Option Bool := none
  deriving DecidableEq, Repr

/-! ### Station Ethernet (08) -/

/-- An ETH_TX in flight (R316). -/
structure EthItem where
  op : Op
  bytes : List Byte
  oneStep : Bool := false
  tsq : Bool := false
  attempts : Nat := 0
  ringOff : Bool := false
  /-- sent by the time firmware: no completion (R332) -/
  firmware : Bool := false
  deriving DecidableEq, Repr

/-- An Ethernet port (08). -/
structure EthPort where
  link : Bool := false
  anDone : Bool := false
  lpPause : BitVec 2 := 0
  lpRf : BitVec 2 := 0
  /-- raw instant at which the pause timer ends, and when it was loaded (R328) -/
  pauseEnd : Option DWord := none
  pauseFrom : DWord := 0
  /-- frames waiting, oldest first; frame on the wire -/
  queue : List EthItem := []
  wire : Option EthItem := none
  /-- local ring served last (R316) -/
  lastRing : Nat := 63
  /-- local ring whose frame was loaded last, ring whose frame was sent last, MAC control frames that a pause lets pass among them (R316, R329) -/
  lastFetch : Nat := 63
  lastCtrl : Nat := 63
  /-- ENABLE was written 0 and the frame on the wire is not finished (R319) -/
  stopping : Bool := false
  /-- raw instant of that write: a frame that had begun to arrive is still delivered (R319) -/
  offAt : Option DWord := none
  /-- auto-negotiation has failed and restarts after 1 s (R313) -/
  anFailed : Bool := false
  failedAt : DWord := 0
  spaces : List Space := []
  nextSpace : Nat := 0
  deriving DecidableEq, Repr

/-- States of a port of the firmware's PTP clock (IEEE 1588-2019, R334). -/
inductive PtpPort where
  | off
  | listening
  | master
  | slave
  | passive
  deriving DecidableEq, Repr

/-- A Pdelay_Req sent: its sequenceId and transmit stamp, and the two-step answer to it with its receive stamp (R332). -/
structure PeerReq where
  seqNo : Half
  sent : DWord
  answer : Option (List Byte × DWord) := none
  deriving DecidableEq, Repr

/-- Raw instants of a port of the firmware's clock: its last Sync, Pdelay_Req and Announce, and the last Announce it heard (R332). -/
structure PtpTimes where
  sync : DWord := 0
  pdelay : DWord := 0
  announce : DWord := 0
  heard : DWord := 0
  deriving DecidableEq, Repr

/-- The time firmware's PTP clock (R332 to R335). -/
structure Ptp where
  /-- EP_PTPG as it stood when PROFILE was last written other than 00b; none while the clock is stopped -/
  running : Option Word := none
  ports : Vector PtpPort 4 := Vector.replicate 4 .off
  /-- two-step Sync that waits for its Follow_Up: its bytes and the corrected raw instant of its reception -/
  syncRx : Vector (Option (List Byte × DWord)) 4 := Vector.replicate 4 none
  /-- the Announce that stands for each port, none since a receipt timeout (R332, R334) -/
  announces : Vector (Option (List Byte)) 4 := Vector.replicate 4 none
  /-- the last Pdelay_Req sent, until it is answered -/
  pdelay : Vector (Option PeerReq) 4 := Vector.replicate 4 none
  /-- peer delay of each port (R332) -/
  delay : Vector DWord 4 := Vector.replicate 4 0
  times : Vector PtpTimes 4 := Vector.replicate 4 {}
  deriving DecidableEq, Repr

/-! ### Ridgeline (09) -/

/-- Link states, coded as RLk_STAT.STATE. -/
inductive LState where
  | down
  | aligning
  | keying
  | hello
  | up
  deriving DecidableEq, Repr

def LState.code : LState → Nat
  | .down => 0
  | .aligning => 1
  | .keying => 2
  | .hello => 3
  | .up => 4

/-- What a HELLO said (R352). -/
structure Neighbour where
  serial : DWord := 0
  addr : Byte := 0
  link : BitVec 2 := 0
  encReq : Bool := false
  upIsYou : Bool := false
  tprio : Byte := 0
  hops : Byte := 0xFF
  master : Byte := 0
  boot : Byte := 0
  deriving DecidableEq, Repr

/-- A Ridgeline link (09). -/
structure Link where
  state : LState := .down
  /-- the link aligns for the first time since ENABLE was written 1: idle blocks are sent (R353) -/
  fresh : Bool := false
  los : Bool := false
  rf : Bool := false
  /-- the link has left UP in ring mode and has not come back: its ring is wrapped (R372) -/
  wrapped : Bool := false
  encOn : Bool := false
  /-- a travel of the optical switch is still to end before alignment (R376) -/
  travel : Bool := false
  nbr : Neighbour := {}
  /-- HELLOs in a row from one SERIAL; SEQ of HELLOs sent -/
  helloCount : Nat := 0
  helloSeq : Half := 0
  /-- cumulative credits granted by the peer, used by this end, and returned to the peer, by class (R349, R350) -/
  granted : Vector Nat 3 := Vector.replicate 3 0
  usedCr : Vector Nat 3 := Vector.replicate 3 0
  returned : Vector Nat 3 := Vector.replicate 3 0
  /-- frames that wait, oldest first, with the link whose receive buffer holds the frame (R349) -/
  queue : List (Option LinkId × RlFrame) := []
  /-- frame on the wire and the raw instant of its end; it is a copy that ends with an error block (R346) -/
  wire : Option (RlFrame × DWord) := none
  stomped : Bool := false
  delay : Word := 0
  /-- TIME_SYNC: SEQ and transmit stamp t1 of the last sent (R379, R380) -/
  syncSeq : Half := 0
  syncSent : Option (Half × DWord) := none
  /-- handle of the link key; C of the next frame sent (R385) -/
  key : Option Nat := none
  cTx : DWord := 0
  /-- C of the last frame accepted under the key, none before the first (R386) -/
  cRx : Option DWord := none
  /-- last KEYX sent: draw of the ephemeral key and its bytes (R383) -/
  keyxSent : Option (Nat × List Byte) := none
  /-- raw instants of the last HELLO sent and heard, the last KEYX and TIME_SYNC sent, and the start of the optical switch's travel
  (R352, R353, R376, R379, R383) -/
  helloAt : DWord := 0
  heardAt : DWord := 0
  keyxAt : DWord := 0
  syncAt : DWord := 0
  travelAt : DWord := 0
  deriving DecidableEq, Repr

/-- What a link carries between frames (R353, R354). -/
inductive RlFill where
  | idle
  | remoteFault
  deriving DecidableEq, Repr

/-- A TOPO payload held (R355, R356). -/
structure Topo where
  serial : DWord
  gen : Half
  payload : List Byte
  /-- raw instant of the last refresh (R356) -/
  at_ : DWord
  deriving DecidableEq, Repr

/-- The fabric (09). -/
structure Fabric where
  addr : Byte := 0
  /-- the address was given up with ADDR_MODE 0 (R360) -/
  gaveUp : Bool := false
  /-- the address held before, which ADDR_REQ names (R359) -/
  prevAddr : Byte := 0
  master : Byte := 0
  /-- SERIAL of the master, where it is known (R377) -/
  masterSerial : Option DWord := none
  isMaster : Bool := false
  hops : Byte := 0xFF
  upstream : Nat := 7
  alloc : Bool := false
  topo : List Topo := []
  /-- topology generation: SEQ of this device's TOPO (R355) -/
  gen : Half := 0
  mgmtSeq : Half := 0
  /-- last 256 pairs of SERIAL and SEQ of flooded frames, newest first (R356) -/
  flooded : List (DWord × Half × Bool) := []
  boot : Byte := 0
  /-- addresses given by this allocator: SERIAL and address (R359) -/
  given : List (DWord × Byte) := []
  /-- LAST of the sequence check, by 256 r + source (R369) -/
  last : Tbl (Option Half) := []
  /-- SERIAL, BOOT and address of each device as its TOPO last gave them, the last address other than 0 (R369) -/
  boots : List (DWord × Byte × Byte) := []
  drivers : BitVec 4 := 0
  /-- raw instants of this device's last TOPO and ADDR_REQ (R355, R359) -/
  topoAt : DWord := 0
  reqAt : DWord := 0
  deriving DecidableEq, Repr

/-- A route entry (R362); its OWNER is Belay.routeDom. -/
structure Route where
  valid : Bool := false
  twin : Bool := false
  cls : BitVec 2 := 0
  dest : Byte := 0
  toRule : Bool := false
  target : Half := 0
  src : Byte := 0
  primary : BitVec 3 := 7
  alternate : BitVec 3 := 7
  seqTx : Half := 0
  deriving DecidableEq, Repr

/-! ### Engines, cores, gateway rules, events (10) -/

/-- Engine states, coded as DEV_SEe_STAT.STATE. -/
inductive EState where
  | standby
  | active
  | loading
  | faulted
  | testing
  deriving DecidableEq, Repr

def EState.code : EState → Nat
  | .standby => 0
  | .active => 1
  | .loading => 2
  | .faulted => 3
  | .testing => 4

/-- What a LOADING engine is loaded for (R393). -/
inductive LoadFor where
  | takeover (p : PortId)
  | swap (p : PortId)
  | reload
  | retest
  deriving DecidableEq, Repr

/-- A Spur engine (R387, R393). -/
structure Engine where
  state : EState := .standby
  port : PortId := 0
  image : Fin 4 := 0
  gen : Byte := 0
  held : Bool := true
  cause : BitVec 4 := 0
  count : Byte := 0
  loading : Option LoadFor := none
  /-- family of the copy, and the copy itself in the 64 KiB of instruction memory; none is kept of the image delivered with the part (R387, R390,
  log 5) -/
  family : Byte := 1
  instr : List Byte := []
  /-- the 32 KiB of data memory: zeros, or since the raw instant of the attachment what the firmware writes (R387, R389, log 70) -/
  data : Option DWord := none
  /-- port and domain of the window set in force (R388) -/
  windows : Option (PortId × Dom) := none
  deriving DecidableEq, Repr

/-- An entry of the engine image store (R390). -/
structure ImgEntry where
  valid : Bool := false
  family : Byte := 0
  gen : Byte := 0
  /-- the image; none is kept of the one delivered with the part (log 5) -/
  body : List Byte := []
  deriving DecidableEq, Repr

/-- An engine holds a copy of an entry (R390). -/
def Engine.load (x : Engine) (img : ImgEntry) : Engine := { x with held := img.valid, gen := img.gen, family := img.family, instr := img.body }

/-- Core states, coded as DEV_GCc_STAT.STATE. -/
inductive CState where
  | running
  | halted
  | faulted
  | testing
  deriving DecidableEq, Repr

def CState.code : CState → Nat
  | .running => 0
  | .halted => 1
  | .faulted => 2
  | .testing => 3

/-- A gateway core (R412). -/
structure Core where
  state : CState := .running
  cause : BitVec 4 := 0
  /-- halted because gateway firmware is absent (R488) -/
  wantsFw : Bool := false
  /-- raw instant since which the core runs (R466) -/
  runAt : DWord := 0
  deriving DecidableEq, Repr

/-- Where a duty runs: a core, moving to one, or nowhere (R408 to R411). -/
structure DutySt where
  core : Option CoreId
  moving : Option CoreId := none
  /-- the move follows a HALT, whose RESULT waits for it (R412) -/
  forHalt : Bool := false
  deriving DecidableEq, Repr

/-- A swap in progress (R405). -/
structure Swap where
  port : PortId
  image : Fin 4
  /-- the new engine, none where it must be chosen again -/
  engine : Option EngId
  /-- raw instant of the GO (R407) -/
  at_ : DWord
  deriving DecidableEq, Repr

/-- An input of a gateway rule: receive header and payload, SEALED (R415). -/
structure GwIn where
  bytes : List Byte
  isSealed : Bool
  stamp : BitVec 36
  deriving DecidableEq, Repr

/-- A gateway rule in use (R413). -/
structure Rule where
  /-- bytes 0 to 23 -/
  body : BitVec 192
  /-- domain that holds the number (R414) -/
  owner : Dom
  hits : Word := 0
  drops : Word := 0
  lastOut : Option DWord := none
  held : Option GwIn := none
  deriving DecidableEq, Repr

/-- Engines, cores and gateway rules (10). -/
structure Spur where
  engines : Vector Engine 34 := (Vector.range 34).map (fun e =>
    if h : e < 32 then { state := .active, port := ⟨e, h⟩, data := some 0, windows := some (⟨e, h⟩, 0) } else {})
  /-- engine attached to each port (R387) -/
  attached : Vector (Option EngId) 32 := (Vector.range 32).map (fun p => nth? 34 p)
  /-- store entry each port runs (FPn_ENG.IMAGE) -/
  portImage : Vector (Fin 4) 32 := Vector.replicate 32 0
  /-- takeovers that wait for a spare (R403) -/
  orphans : List PortId := []
  /-- ports whose spare is being attached (R401) -/
  takeovers : List (PortId × EngId) := []
  images : Vector ImgEntry 4 := (Vector.replicate 4 ({} : ImgEntry)).set 0 { valid := true, family := 1 }
  swap : Option Swap := none
  swapResult : Byte := 0
  /-- unit of the engine command that is BUSY, and RESULT (DEV_SECMD) -/
  cmdUnit : Option Nat := none
  cmdResult : Byte := 0
  cores : Vector Core 4 := Vector.replicate 4 {}
  /-- routing, rules, time, traverse -/
  duties : Vector DutySt 4 := #v[⟨some 0, none, false⟩, ⟨some 1, none, false⟩, ⟨some 2, none, false⟩, ⟨some 3, none, false⟩]
  rules : Tbl (Option Rule) := []
  /-- inputs in the gateway region, oldest first, by rule (R415, R410) -/
  inputs : List (Fin 512 × GwIn) := []
  deriving DecidableEq, Repr

/-- The event controller's run-time state (R420 to R431). -/
structure Evc where
  /-- running-priority stack of each host target, key 128 d + t: source and priority, top first -/
  claimStacks : Tbl (List (Nat × Nat)) := []
  /-- sources that were deliverable above the running priority when last looked at, with their target: 128 (256 d + s) + t (R424, R426) -/
  announced : List Nat := []
  /-- sources whose message moderation holds back, by 128 d + t (R429) -/
  heldMsgs : Tbl (List Nat) := []
  /-- raw instant of the last message of each target, 128 d + t (R429) -/
  lastMsg : Tbl (Option DWord) := []
  /-- raw instants of the deliveries of each guarded source within the window, newest first: 256 d + s, vector-level sources from 4096 (R427) -/
  storm : Tbl (List DWord) := []
  /-- vector-level sources that the storm guard has masked (R427) -/
  vecStorm : List Nat := []
  /-- running-priority stacks of the vector level: cores 0 to 3, the leaf of a port from 4, of an engine without a port from 64 (R425, R431) -/
  vstacks : Tbl (List (Nat × Nat)) := []
  /-- raw instant of the last vector of each vector-level target, and the sources that moderation holds back at it, with their owner (R429) -/
  lastVec : Tbl (Option DWord) := []
  heldVecs : Tbl (Nat × List VecSource) := []
  /-- vector-level targets, and Cairn as 38, that are not in their wait state (R430, log 60) -/
  awake : List Nat := []
  /-- sources of an offline core that go to its fallback: core and source (R431) -/
  fallback : List (CoreId × Byte) := []
  deriving DecidableEq, Repr

/-! ### Cairn (11) -/

/-- A log record (R445). -/
structure LogRec where
  t : BitVec 36 := 0
  /-- 00h to 0Fh domains, 10h the device, 11h the SMBus manager -/
  dom : BitVec 5
  severity : BitVec 3
  sensitive : Bool := false
  source : Byte
  code : Byte
  arg0 : Word := 0
  arg1 : Word := 0
  deriving DecidableEq, Repr

/-- The log (R445 to R454). -/
structure Log where
  /-- records by sequence number, oldest first -/
  recs : List (Nat × LogRec) := []
  next : Nat := 0
  /-- records written since the last clear (R450) -/
  sinceClear : Nat := 0
  lost : Word := 0
  /-- records lost on a full intake queue, not yet reported (R451); while the log was full (R450) -/
  owed : Nat := 0
  fullLost : Nat := 0
  fullSeen : Bool := false
  /-- records on their way, with the raw instant of each (R451) -/
  intake : List (DWord × LogRec) := []
  /-- T of the last ANCHOR, and the step count it was written under (R447) -/
  anchor : Option (DWord × Half) := none
  /-- full time of the last ANCHOR overwritten (R453) -/
  anchorGone : DWord := 0
  deriving DecidableEq, Repr

/-- The states of R442. -/
inductive MMode where
  | base
  | raising
  | summit
  | held
  deriving DecidableEq, Repr

/-- A flash slot: container bytes (none kept for the image delivered with the part), its header fields, whether it passes R462. -/
structure Slot where
  bytes : List Byte := []
  present : Bool := false
  passes : Bool := false
  family : Byte := 0
  svn : Word := 0
  /-- FLOOR -/
  floor : Nat := 0
  deriving DecidableEq, Repr

/-- A copy of the flash's layout record (R460): generation, per component whether slot B is active and whether it is in trial, CRC-32. -/
structure Layout where
  gen : Nat
  marks : Vector (Bool × Bool) 7
  crc : List Byte
  deriving DecidableEq, Repr

/-- The bytes that the CRC-32 of a layout record covers: the generation in four bytes, then one byte for each component (log 71). -/
def layoutBytes (gen : Nat) (marks : Vector (Bool × Bool) 7) : List Byte :=
  leBytes 4 gen ++ marks.toList.map (fun m => BitVec.ofNat 8 (b2n m.1 + 2 * b2n m.2))
def Layout.made (gen : Nat) (marks : Vector (Bool × Bool) 7) : Layout := ⟨gen, marks, crc32 (layoutBytes gen marks)⟩
def Layout.valid (x : Layout) : Bool := x.crc == crc32 (layoutBytes x.gen x.marks)

/-- The two slots of a component and what the layout record says of it (R460). -/
structure Comp where
  a : Slot := {}
  b : Slot := {}
  /-- slot B is active -/
  activeB : Bool := false
  trial : Bool := false
  /-- the slot in trial has taken effect at its safe point (R466); since then Belay has restarted it or it has faulted -/
  runs : Bool := false
  spoiled : Bool := false
  deriving DecidableEq, Repr

/-- A self-test (R469): operation, KIND, INDEX, forced. -/
structure SelfTest where
  op : Op
  kind : Nat
  index : Nat
  force : Bool
  /-- started, rather than waiting for a quiet point or a swap -/
  started : Bool := false
  /-- return state and end of the hold of a port that was in HOLD -/
  heldPrior : PState := .off
  heldEnd : Option DWord := none
  deriving DecidableEq, Repr

/-- Holder of the staging area (R463). -/
inductive Holder where
  | none_
  | owner
  | smbus
  deriving DecidableEq, Repr

/-- The components of CRN_SLOT0 to 6 as the part is delivered (log 5). -/
def Comp.delivered (c : Nat) : Comp :=
  if c < 3 then { a := { present := true, passes := true } }
  else if c = 3 then { a := { present := true, passes := true, family := 1 } } else {}

/-- An activation that is running (R465): its agent, slot and outcome, which the container decides as it stands at the start (log 33). -/
structure Activating where
  who : Holder
  dom : BitVec 5
  comp : Fin 7
  slotB : Bool
  /-- the slot is activated as it stands -/
  inPlace : Bool
  reason : Byte
  image : Slot
  /-- the IMG_ACTIVATE that waits for its completion -/
  op : Option Op
  deriving DecidableEq, Repr

/-- The values that Cairn's registers last had before an outage (R434). -/
structure CrnLast where
  evt : Vector DWord 16
  smbEvt : BitVec 12
  logNext : Nat
  logLost : Word
  imgstat : Word
  slots : Vector Word 7
  corrected : Nat
  uncorr : Byte
  deriving DecidableEq, Repr

/-- Cairn (11). -/
structure Cairn where
  running : Bool := false
  temps : Vector Int 6 := Vector.replicate 6 0
  /-- junction temperatures as the governor and the comparators see them, which act while the service firmware is out (R434) -/
  felt : Vector Int 6 := Vector.replicate 6 0
  /-- CRN_GOV and CRN_GOVHOLD as they took effect at the last sample (R444) -/
  gov : Word := 0x04785F6E
  govHold : Half := 60
  rails : Vector Nat 8 := Vector.replicate 8 0
  paces : Vector Nat 12 := Vector.replicate 12 0
  ages : Vector Int 4 := Vector.replicate 4 0
  /-- raw instants since which a rail (R436) or pace sensor (R437) has been outside, and whether that was reported -/
  railOut : Vector (Option DWord × Bool) 4 := Vector.replicate 4 (none, false)
  paceOut : Vector (Option DWord × Bool) 12 := Vector.replicate 12 (none, false)
  ageLogged : Vector Bool 4 := Vector.replicate 4 false
  mode : MMode := .base
  vidNow : BitVec 4 := 4
  vidBefore : BitVec 4 := 4
  reason : Byte := 0
  fallbacks : Byte := 0
  /-- raw instants since which Tmax has been at or above HI, at or below LO (R442) -/
  hotSince : Option DWord := none
  coolSince : Option DWord := none
  /-- raw instant of the last change of VID (R442) -/
  vidAt : DWord := 0
  /-- raw instants at which the service firmware was restarted and since which it runs, at which Belay began to run, and of the last
  staging by the holder (R463, R466) -/
  restartAt : DWord := 0
  runAt : DWord := 0
  belayAt : DWord := 0
  stagedAt : DWord := 0
  alert : Bool := false
  smbEvt : BitVec 12 := 0
  eid : Byte := 0
  holder : Holder := .none_
  /-- staged bytes by 256-byte block (R463) -/
  staging : Tbl (List Byte) := []
  /-- a warm reset that an SMBus RESET has asked for (R457) -/
  resetDue : Bool := false
  imgReason : Byte := 0
  imgComponent : Half := 0
  comps : Vector Comp 7 := (Vector.range 7).map Comp.delivered
  /-- the two copies of the layout record (R460) -/
  layouts : Vector Layout 2 := #v[Layout.made 1 (Vector.replicate 7 (false, false)), Layout.made 0 (Vector.replicate 7 (false, false))]
  /-- the activation that is running (R465) -/
  activating : Option Activating := none
  /-- what Cairn's registers return while the service firmware is out (R434) -/
  last : Option CrnLast := none
  test : Option SelfTest := none
  tests : List SelfTest := []
  /-- port commands held back by a forced port test (R471) -/
  deferred : List Held := []
  deferredHolds : List (Op × PortId × Word) := []
  corrected : Nat := 0
  uncorr : Byte := 0
  deriving DecidableEq, Repr

/-! ### Power and reset (12) -/

/-- The output pins of R489. -/
inductive OutPin where
  | txd (p : PortId)
  | stb (p : PortId)
  | col (k : PairId)
  | colf (k : LinkId)
  | vid (i : Fin 4)
  | evtOut (i : Fin 4)
  | tempAlert
  | smbDat
  | smbClk
  | smbAlert
  | fspiCs
  | fspiClk
  | fspiIo (i : Fin 4)
  | rlTx (k : LinkId)
  | epTx (k : EpId)
  | pcieTx (i : Fin 4)
  | jtagTdo
  deriving DecidableEq, Repr

/-- Every output pin, in the order of the table of R489. -/
def OutPin.all : List OutPin :=
  (List.finRange 32).map .txd ++ (List.finRange 32).map .stb ++ (List.finRange 16).map .col ++ (List.finRange 4).map .colf ++ (List.finRange 4).map .vid
    ++ (List.finRange 4).map .evtOut ++ [.tempAlert, .smbDat, .smbClk, .smbAlert, .fspiCs, .fspiClk] ++ (List.finRange 4).map .fspiIo
    ++ (List.finRange 4).map .rlTx ++ (List.finRange 4).map .epTx ++ (List.finRange 4).map .pcieTx ++ [.jtagTdo]

/-- How far the boot has come: power-on reset in force (R478), then the step of R487 done last, apart from step 3, whose lock comes on its
own; READY is step 8. -/
inductive BootStage where
  | held
  | rom
  | otp
  | belay
  | cairn
  | gateway
  | spur
  deriving DecidableEq, Repr

/-- The boundary-scan port: it shifts data or an instruction; EXTEST is in force, with the levels that its output cells hold (R491). -/
structure Tap where
  shift : Bool := false
  extest : Option (List (OutPin × Bool)) := none
  deriving DecidableEq, Repr

/-- Boot, reset and configuration-space state (12, 02). -/
structure Dev where
  ready : Bool := false
  stage : BootStage := .rom
  /-- PCI Express interface in reset: PERST# low or a host reset in force (R481, R482) -/
  hostDown : Bool := false
  recovery : Bool := false
  /-- the boot ROM has activated a Belay image in the recovery path: a warm reset is due (R488) -/
  reboot : Bool := false
  absent : BitVec 4 := 0
  cause : BitVec 3 := 1
  warmCount : Half := 0
  /-- SR-IOV VF Enable and NumVFs (R21) -/
  vfEnable : Bool := false
  numVfs : Dom := 0
  /-- bank supplies as FPn_CAP.BANKV: 0 none, 1 1.8 V, 2 3.3 V (R101, log 6) -/
  banks : Vector (BitVec 2) 4 := Vector.replicate 4 2
  tap : Tap := {}
  deriving DecidableEq, Repr

end Sys2Proof.Machine
end

