-- ==== Sys2Proof/Machine/State.lean ====
section
/-! DEFINITION. The state of the device, its stops, and the state after reset. -/
namespace Sys2Proof.Machine

/-- The machine's stops other than refusals; each is safe: the model stops where no such command can occur. -/
inductive Fault where
  /-- a data operand has not the length that the descriptor names: raised by commands that read host memory; safe -/
  | dataLength
  deriving DecidableEq, Repr

/-- Commands the model gives no meaning on a given state. -/
inductive Refusal where
  /-- no meaning yet: raised only in Dispatch; safe -/
  | notModelled (mnemonic : String)
  /-- frame behaviour of an image of family 02h to 04h, which other manuals describe (R392): raised by the frame commands of a
  port whose engine runs such an image; safe -/
  | otherImageFamily
  deriving DecidableEq, Repr

structure State where
  /-- commands waiting, first in, first out -/
  pending : List Instr
  /-- what has left the device, newest last (log 3) -/
  out : List Output
  /-- draws of free values so far (log 7) -/
  free : Nat
  regs : RegFile
  dev : Dev
  belay : Belay
  funcs : Vector Func 16
  /-- by device ring number -/
  rings : Tbl Ring
  ports : Vector Port 32
  /-- frames queued for evaluation, oldest first (R156, R164) -/
  rxq : List (PortId × RxFrame)
  pairs : Vector Pair 16
  groups : Vector Group 4
  /-- raw instant since which the device's node in each group may start attempts, none while it may not (R195, R264) -/
  may : Vector (Option DWord) 4
  /-- Tarn bytes by address; unlisted bytes read 0 (log 11) -/
  tarn : Tbl Byte
  /-- 4 KiB units of each domain's quota, in order (R24, R56, log 11) -/
  units : Vector (List Nat) 16
  /-- by 8192 d + object -/
  objs : Tbl Obj
  /-- filter elements by store index -/
  flt : Tbl (BitVec 128)
  tmu : Tmu
  eths : Vector EthPort 4
  ptp : Ptp
  links : Vector Link 4
  fab : Fabric
  routes : Tbl Route
  spur : Spur
  evc : Evc
  log : Log
  cairn : Cairn
  /-- counters by 64 b + i, block b as in Reg.counter (R336) -/
  counts : Tbl Word
  /-- HALF bits that are 1, by the same key (R337) -/
  halves : Tbl Bool
  deriving DecidableEq, Repr

/-- Power-on reset, before BOOT (R478, R487). -/
def State.reset : State where
  pending := []
  out := []
  free := 0
  regs := []
  dev := {}
  belay := {}
  funcs := Vector.replicate 16 {}
  rings := []
  ports := Vector.replicate 32 {}
  rxq := []
  pairs := Vector.replicate 16 {}
  groups := Vector.replicate 4 {}
  may := Vector.replicate 4 none
  tarn := []
  units := (Vector.replicate 16 []).set 0 (List.range 960)
  objs := []
  flt := []
  tmu := {}
  eths := Vector.replicate 4 {}
  ptp := {}
  links := Vector.replicate 4 {}
  fab := {}
  routes := []
  spur := {}
  evc := {}
  log := {}
  cairn := {}
  counts := []
  halves := []

end Sys2Proof.Machine
end

