-- ==== Sys2Proof/Machine/Ops.lean ====
section
/-! DEFINITION. Operations that every family of commands shares: registers, ownership, time, log, host memory, completions. -/
namespace Sys2Proof.Machine

abbrev Result := Host.Outcome State Fault Refusal

/-! ### Access to the parts -/

def State.reg (s : State) (r : Reg) : DWord := s.regs.get r
def State.setReg (s : State) (r : Reg) (w : DWord) : State := { s with regs := s.regs.set r w }
/-- Field of a register. -/
def State.rf (s : State) (r : Reg) (lo n : Nat) : Nat := fld (s.reg r) lo n
/-- Bit of a register. -/
def State.rb (s : State) (r : Reg) (i : Nat) : Bool := bit (s.reg r) i
def State.setRf (s : State) (r : Reg) (lo n v : Nat) : State := s.setReg r (putFld (s.reg r) lo n v)
/-- An event or status bit set by the device (R16: it stays 1 whatever a write clears at that moment). -/
def State.raise (s : State) (r : Reg) (i : Nat) : State := s.setReg r (setBit (s.reg r) i)

def State.emit (s : State) (o : Output) : State := { s with out := s.out ++ [o] }
def State.port (s : State) (p : PortId) : Port := s.ports[p]
def State.setPort (s : State) (p : PortId) (x : Port) : State := { s with ports := s.ports.set p x }
def State.group (s : State) (k : GrpId) : Group := s.groups[k]
def State.setGroup (s : State) (k : GrpId) (x : Group) : State := { s with groups := s.groups.set k x }
def State.func (s : State) (d : Dom) : Func := s.funcs[d]
def State.setFunc (s : State) (d : Dom) (x : Func) : State := { s with funcs := s.funcs.set d x }
def State.entry (s : State) (d : Dom) : Entry := s.belay.entries[d]
def State.ring (s : State) (i : Nat) : Ring := Tbl.get {} s.rings i
def State.setRing (s : State) (i : Nat) (x : Ring) : State := { s with rings := Tbl.put {} s.rings i x }
def State.eth (s : State) (k : EpId) : EthPort := s.eths[k]
def State.setEth (s : State) (k : EpId) (x : EthPort) : State := { s with eths := s.eths.set k x }
def State.link (s : State) (k : LinkId) : Link := s.links[k]
def State.setLink (s : State) (k : LinkId) (x : Link) : State := { s with links := s.links.set k x }
def State.obj (s : State) (d : Dom) (o : Nat) : Obj := Tbl.get {} s.objs (8192 * d.val + o)
def State.setObj (s : State) (d : Dom) (o : Nat) (x : Obj) : State := { s with objs := Tbl.put {} s.objs (8192 * d.val + o) x }
def State.route (s : State) (r : Nat) : Route := Tbl.get {} s.routes r
def State.setRoute (s : State) (r : Nat) (x : Route) : State := { s with routes := Tbl.put {} s.routes r x }
def State.key (s : State) (h : Nat) : Option KeySlot := Tbl.get none s.belay.keys h
def State.setKey (s : State) (h : Nat) (x : Option KeySlot) : State :=
  { s with belay := { s.belay with keys := Tbl.put none s.belay.keys h x } }
def State.raw (s : State) : DWord := s.tmu.raw

/-- Every domain, every tenant. -/
def doms : List Dom := List.finRange 16
def tenants : List Dom := doms.drop 1
def portIds : List PortId := List.finRange 32
def grpIds : List GrpId := List.finRange 4
def fin (n : Nat) [NeZero n] (i : Nat) : Fin n := Fin.ofNat n i

/-! ### Access by the host (R41, R481, R483, R488) -/

/-- BAR accesses act: READY, and the PCI Express interface is not in reset. -/
def State.answers (s : State) : Bool := s.dev.ready && !s.dev.hostDown
/-- The same outside the recovery path, in which few registers respond (R488). -/
def State.serves (s : State) : Bool := s.answers && !s.dev.recovery

/-- Steps 2 and 5 of the boot are done (R487). -/
def Dev.otpRead (x : Dev) : Bool := x.stage != .held && x.stage != .rom
def Dev.cairnUp (x : Dev) : Bool := x.ready || x.stage == .cairn || x.stage == .gateway || x.stage == .spur

/-- A component in trial that runs has faulted, or Belay has restarted it: it is not confirmed any more (R466). -/
def State.spoil (s : State) (c : Fin 7) : State :=
  let x := s.cairn.comps[c]
  { s with cairn := { s.cairn with comps := s.cairn.comps.set c { x with spoiled := x.spoiled || (x.trial && x.runs) } } }

/-! ### Commands of the register windows (R510) -/

/-- BUSY of OBJ_RES, FLT_RES and GW_RES: the command was written at this instant of the raw counter (R510, log 46). -/
def State.objBusy (s : State) (d : Dom) : Bool := (s.func d).objAt == some s.raw
def State.fltBusy (s : State) (d : Dom) : Bool := (s.func d).fltAt == some s.raw
def State.gwBusy (s : State) (d : Dom) : Bool := (s.func d).gwAt == some s.raw

/-! ### Ownership (R20 to R23) -/

/-- A range of an entry in force: base and count (R22). -/
def rangeIf (e : Entry) (base count : Nat) : Nat × Nat := if e.valid then (base, count) else (0, 0)
def rangesMeet (x y : Nat × Nat) : Bool := decide (0 < x.2 ∧ 0 < y.2 ∧ x.1 < y.1 + y.2 ∧ y.1 < x.1 + x.2)
def inRangeOf (x : Nat × Nat) (i : Nat) : Bool := decide (x.1 ≤ i ∧ i < x.1 + x.2)
def ringsOf (e : Entry) : Nat × Nat := rangeIf e e.ringBase e.ringCount
def fltOf (e : Entry) : Nat × Nat := rangeIf e e.fltBase e.fltCount
def msixOf (e : Entry) : Nat × Nat := rangeIf e e.msixBase e.msixCount

/-- A domain is active (R21): D0 always, a tenant while VF Enable is set, NumVFs reaches it and its entry is valid. -/
def State.active (s : State) (d : Dom) : Bool := d == 0 || (s.dev.vfEnable && decide (d ≤ s.dev.numVfs) && (s.entry d).valid)
/-- The function of a domain is on the bus, whether or not its entry is valid (R21, R41). -/
def State.present (s : State) (d : Dom) : Bool := d == 0 || (s.dev.vfEnable && decide (d ≤ s.dev.numVfs))

/-- The tenant whose valid entry satisfies p, D0 where there is none (R22). -/
def State.ownerBy (s : State) (p : Entry → Bool) : Dom :=
  (tenants.find? (fun d => (s.entry d).valid && p (s.entry d))).getD 0

def State.portOwner (s : State) (p : PortId) : Dom := s.ownerBy (fun e => e.ports.getLsbD p.val)
def State.grpOwner (s : State) (k : GrpId) : Dom := s.ownerBy (fun e => e.groups.getLsbD k.val)
def State.epOwner (s : State) (k : EpId) : Dom := s.ownerBy (fun e => e.eports.getLsbD k.val)
def State.routeOwner (s : State) (r : Nat) : Nat := Tbl.get 0 s.belay.routeDom r

/-- Group to which the port belongs: GRPk_MEMBERS names it, and one domain holds both (R23, R24, R226). -/
def State.groupOf (s : State) (p : PortId) : Option GrpId :=
  grpIds.find? (fun k => s.rb (.grp k .members) p.val && decide (s.grpOwner k = s.portOwner p))
/-- The group of a port, while it is not STOPPED. -/
def State.liveGroup (s : State) (p : PortId) : Option GrpId := (s.groupOf p).filter (fun k => decide ((s.group k).state ≠ .stopped))
/-- Members of a group in ascending order; the first is the anchor (R227). -/
def State.members (s : State) (k : GrpId) : List PortId := portIds.filter (fun p => s.rb (.grp k .members) p.val)
def State.anchor (s : State) (k : GrpId) : PortId := (s.members k).headD 0
def State.anchorOf (s : State) (p : PortId) : Option GrpId := (s.groupOf p).filter (fun k => s.anchor k == p)
/-- In-line pair of a port, by its even port (R133). -/
def pairOf (p : PortId) : PairId := fin 16 (p.val / 2)
def evenPort (k : PairId) : PortId := fin 32 (2 * k.val)
def State.inline (s : State) (k : PairId) : Bool := s.rb (.port (evenPort k) .pair) 0
/-- A member of an in-line pair that is not inserted. -/
def State.pairOpen (s : State) (p : PortId) : Bool := s.inline (pairOf p) && !(s.pairs[pairOf p]).inserted
/-- A port in loopback TEST: internal 1, external 2, listen-only 3 (FPn_MODE.TESTMODE). -/
def State.testMode (s : State) (p : PortId) : Nat := s.rf (.port p .mode) 0 3
/-- FPn_TXD stays recessive whatever the node sends: TEST in listen-only or internal loopback, or an in-line pair that is not inserted (R100). -/
def State.txdRecessive (s : State) (p : PortId) : Bool :=
  ((s.port p).state == .test && (s.testMode p == 1 || s.testMode p == 3)) || s.pairOpen p
/-- JOINED branches of a group. -/
def State.joinedBranches (s : State) (k : GrpId) : List Branch :=
  (List.finRange 16).filter (fun b => decide (((s.group k).branches[b]).state = .joined))
/-- Branches that are driven: the JOINED ones, and the ISOLATED ones, whose nodes keep hearing the joined bus (R231, R240). -/
def State.drivenBranches (s : State) (k : GrpId) : List Branch :=
  (List.finRange 16).filter (fun b => decide (((s.group k).branches[b]).state = .joined ∨ ((s.group k).branches[b]).state = .isolated))
/-- The ports on which the device's own node is driven: every driven branch of a running group, else the port itself (R231, R240). -/
def State.nodePorts (s : State) (p : PortId) : List PortId :=
  match s.liveGroup p with
  | some k => (s.drivenBranches k).filterMap (fun b => (s.members k)[b.val]?)
  | none => [p]
/-- What the device's own node drives; nothing leaves a pin that stays recessive (R100). -/
def State.emitNode (s : State) (p : PortId) (o : PortId → Output) : State :=
  ((s.nodePorts p).filter (fun q => !s.txdRecessive q)).foldl (fun s q => s.emit (o q)) s
/-- The joined bus carries no frame (R235, R256). -/
def State.joinedIdle (s : State) (k : GrpId) : Bool := (s.group k).frame.isNone && (s.port (s.anchor k)).onWire.isNone
/-- The port is in a group that is not STOPPED and is not its anchor (R229). -/
def State.silentMember (s : State) (p : PortId) : Bool :=
  match s.groupOf p with
  | some k => !(s.anchor k == p) && decide ((s.group k).state ≠ .stopped)
  | none => false

/-! ### Device time (R275, R283) -/

/-- T at a raw instant under given parameters (R275). -/
def TimePar.time (p : TimePar) (raw : DWord) : DWord :=
  p.ofs + raw + BitVec.ofInt 64 ((((raw.toNat : Int) - p.anchor.toNat) * p.rate.toInt) / 2 ^ 40)

/-- Parameters in force at a raw instant (R283). -/
def Tmu.parAt (t : Tmu) (raw : DWord) : TimePar := ((t.par :: t.past).find? (fun p => decide (p.start ≤ raw))).getD t.par

/-- T at a raw instant (R283): the value of a stamp. -/
def State.timeAt (s : State) (raw : DWord) : DWord := (s.tmu.parAt raw).time raw
/-- T now (TMU_NOW). -/
def State.now (s : State) : DWord := s.timeAt s.raw
/-- Short stamp (R12). -/
def State.short (s : State) (raw : DWord) : BitVec 36 := (s.timeAt raw).setWidth 36

/-- T without its steps, at a raw instant: what a cycle of a schedule runs on (R267, R282, log 19). -/
def State.flow (s : State) (raw : DWord) : DWord := s.timeAt raw - (s.tmu.parAt raw).steps

/-- Raw instant at which T reaches a value under the parameters in force. -/
def State.rawOf (s : State) (t : DWord) : DWord :=
  let p := s.tmu.par
  let num : Int := ((t - p.ofs).toNat : Int) * 2 ^ 40 + p.anchor.toNat * p.rate.toInt
  BitVec.ofInt 64 (-((-num) / (2 ^ 40 + p.rate.toInt)))

/-- Raw instant at which the step-free time reaches a value. -/
def State.rawOfFlow (s : State) (t : DWord) : DWord := s.rawOf (t + s.tmu.par.steps)

/-- A raw instant n sixteenths after r. -/
def after (r : DWord) (n : Nat) : DWord := r + BitVec.ofNat 64 n

/-- Microseconds from now to a raw instant, rounded up, 0 where it has come (FPn_HOLDLEFT, where 0 means not held; log 38). -/
def State.usLeft (s : State) (due : DWord) : Nat := (due.toNat - s.raw.toNat + 15999) / 16000

/-! ### Log (R42, R445, R446, R451) -/

/-- The log code of a domain (R445). -/
def domCode (d : Dom) : BitVec 5 := BitVec.ofNat 5 d.val

/-- A record enters the intake queue, or is counted as lost (R451); with no Cairn service it is counted (R488). -/
def State.record (s : State) (dom : BitVec 5) (sev : BitVec 3) (sens : Bool) (src code : Byte) (a0 a1 : Word) : State :=
  let l := s.log
  if s.dev.absent.getLsbD 0 then { s with log := { l with lost := l.lost + 1 } }
  else if 256 ≤ l.intake.length then { s with log := { l with lost := l.lost + 1, owed := l.owed + 1 } }
  else { s with log := { l with intake := l.intake ++ [(s.raw,
    { t := s.short s.raw, dom := dom, severity := sev, sensitive := sens, source := src, code := code, arg0 := a0, arg1 := a1 })] } }

/-- REFUSED_WRITE (R15, R446). -/
def State.refuseWrite (s : State) (d : Dom) (off : Nat) (v : Word) : State :=
  s.record (domCode d) 3 false 0x01 0x01 (BitVec.ofNat 32 off) v
/-- CROSS_DOMAIN (R41, R446). -/
def State.crossDomain (s : State) (d : Dom) (off : Nat) (v : Word) : State :=
  s.record (domCode d) 3 true 0x01 0x02 (BitVec.ofNat 32 off) v

/-! ### Counters (R336, R337) -/

/-- Counter i of block b rises by n; its HALF bit is set when bit 31 passes from 0 to 1 (R337). -/
def State.countBy (s : State) (b i n : Nat) : State :=
  let k := 64 * b + i
  let v := Tbl.get 0 s.counts k
  let w := v + BitVec.ofNat 32 n
  { s with
    counts := Tbl.put 0 s.counts k w
    halves := if !v.getLsbD 31 && w.getLsbD 31 then Tbl.put false s.halves k true else s.halves }

def State.count (s : State) (b i : Nat) : State := s.countBy b i 1

/-- Block that counts for a port: its own, or the anchor's while the group is not STOPPED (R339). -/
def State.block (s : State) (p : PortId) : Nat :=
  match s.groupOf p with
  | some k => if (s.group k).state = .stopped then p.val else (s.anchor k).val
  | none => p.val

/-- Counter of a field port by its offset in the block. -/
def State.countPort (s : State) (p : PortId) (off : Nat) : State := s.count (s.block p) (off / 4)
/-- Device block (R336). -/
def State.countDev (s : State) (off : Nat) : State := s.count 36 (off / 4)
def State.countEth (s : State) (k : EpId) (off : Nat) : State := s.count (32 + k.val) (off / 4)
/-- Link counter by its offset (09, Registers). -/
def State.countLink (s : State) (k : LinkId) (off : Nat) : State := s.count (37 + k.val) ((off - 0x40) / 4)

/-! ### Duties of the gateway cores (R408) -/

/-- A duty runs on a core: routing 0, rules 1, time 2, traverse supervision 3 (R408 to R411). -/
def State.dutyRuns (s : State) (u : Fin 4) : Bool := (s.spur.duties[u]).core.isSome

/-! ### Free values (log 7) -/

def State.draw (s : State) : State := { s with free := s.free + 1 }

/-! ### Host memory (R88, record type 02h) -/

/-- Some window of the domain holds all n bytes from a, with the rights asked for (R88); the recovery path, which can set no window, asks none
of D0 (R488, DESIGN CHOICE, log 78). -/
def State.inWindow (s : State) (d : Dom) (a n : Nat) (rd wr : Bool) : Bool :=
  (s.dev.recovery && d == 0) || (List.range 16).any (fun i =>
    let w := Tbl.get {} s.belay.windows (16 * d.val + i)
    w.valid && (!rd || w.read) && (!wr || w.write) && decide (w.base ≤ a ∧ a + n ≤ w.limit + 1))

/-- The device writes no host memory of the domain: it is not active, a function-level reset is under way, or the link is down (R21, R57, R481). -/
def State.mute (s : State) (d : Dom) : Bool := !s.active d || (s.func d).flr.isSome || s.dev.hostDown

/-- A device write to host memory; an empty one is none. -/
def State.hostWrite (s : State) (d : Dom) (a : Nat) (bs : List Byte) : State :=
  if bs.isEmpty || s.mute d then s else s.emit (.host d a bs)

/-- A device-written word of the doorbell block, while DEV_DBB.ENABLE is 1 (R63). -/
def State.doorbell (s : State) (d : Dom) (off : Nat) (w : Word) : State :=
  if s.rb (.fn d .dbb) 0 && !s.mute d then s.emit (.doorbell d off w) else s

/-! ### Rings (R67 to R83) -/

/-- Device ring number of a local ring (section Rings). -/
def State.dring (s : State) (d : Dom) (n : RingNo) : Nat := (s.entry d).ringBase + n.val
def ringReg (i : Nat) (r : RingReg) : Reg := .ring (fin 512 i) r
def State.ringCfg (s : State) (i : Nat) : DWord := s.reg (ringReg i .cfg)
def ringType (cfg : DWord) : Nat := fld cfg 1 3
/-- Entries of a ring, 2^k (R68). -/
def ringSize (cfg : DWord) : Nat := 2 ^ fld cfg 4 4
/-- Rings that a domain holds: those of its entry while that is valid (R22). -/
def State.ringsHeld (s : State) (d : Dom) : Nat := if (s.entry d).valid then (s.entry d).ringCount else 0
/-- The local ring exists in the domain, which is active (R21, R24). -/
def State.ringOk (s : State) (d : Dom) (n : RingNo) : Bool := decide (n.val < s.ringsHeld d) && s.active d

/-- An enabled ring of a type: ENABLE 1 and ACTIVE 1. -/
def State.ringOn (s : State) (d : Dom) (n : RingNo) (ty : Nat) : Bool :=
  let i := s.dring d n
  s.ringOk d n && bit (s.ringCfg i) 0 && (s.ring i).active && ringType (s.ringCfg i) == ty

/-- The CQ of a local ring. -/
def State.cqOf (s : State) (d : Dom) (n : RingNo) : RingNo := fin 64 (fld (s.ringCfg (s.dring d n)) 10 6)

/-- Entries for which a CQ has room by the last CONS read (R73, R83). -/
def State.room (s : State) (d : Dom) (cq : RingNo) : Nat :=
  let i := s.dring d cq
  let r := s.ring i
  ringSize (s.ringCfg i) - (r.head - r.idx).toNat

/-- PHASE of entry i in a CQ of 2^k entries (R76). -/
def phase (k : Nat) (i : Half) : Bool := !((i >>> k).getLsbD 0)

/-- Bytes 8 to 12 of an entry with a stamp (section Completion entries). -/
def stampBytes (st : BitVec 36) : List Byte := leBytes 4 (st.toNat / 16) ++ [BitVec.ofNat 8 (st.toNat % 16 + 16)]

/-- The 16 bytes of a completion entry under its PHASE (R11; section Completion entries). -/
def CqEntry.bytes (e : CqEntry) (ph : Bool) : List Byte :=
  leBytes 2 e.tag.toNat ++ [e.status, BitVec.ofNat 8 (e.num.val + 64 * b2n e.more + 128 * b2n ph)] ++ leBytes 4 e.info0.toNat
    ++ (match e.stamp with
      | some st => stampBytes st
      | none => leBytes 5 0)
    ++ [e.port] ++ leBytes 2 e.info1.toNat

/-- A completion entry as it leaves for the next index of a CQ, with the PHASE of that index (R76, R79). -/
def State.entryOut (s : State) (d : Dom) (cq : RingNo) (e : CqEntry) : Output :=
  let i := s.dring d cq
  let head := (s.ring i).head
  .completion d cq head (e.bytes (phase (fld (s.ringCfg i) 4 4) head))

/-- An operation of a local ring is no longer in flight. -/
def State.endOp (s : State) (d : Dom) (n : RingNo) : State :=
  let j := s.dring d n
  let q := s.ring j
  s.setRing j { q with inflight := q.inflight - 1 }

/-- One completion entry written whole (R79): the entry, the CQ's HEAD, and the end of the operation (R82). -/
def State.writeEntry (s : State) (d : Dom) (cq : RingNo) (e : CqEntry) (isOp : Bool) : State :=
  let i := s.dring d cq
  let r := s.ring i
  let s := s.emit (s.entryOut d cq e)
  let s := s.setRing i { r with head := r.head + 1 }
  let s := s.doorbell d (0x400 + 4 * cq.val) ((r.head + 1).setWidth 32)
  if isOp then s.endOp d e.num else s

/-- A completion: written where the CQ is enabled and has room, otherwise kept until it is (R72, R83); the operation of a domain that can write
no entry ends without one (R21, R57, log 68), as in the recovery path, which has no CQ (R488; DESIGN CHOICE, log 78). -/
def State.completeE (s : State) (d : Dom) (e : CqEntry) (isOp : Bool) : State :=
  let s := if e.status = 0x30 then s.countDev 0 else s
  let cq := s.cqOf d e.num
  let i := s.dring d cq
  if s.mute d || s.dev.recovery then (if isOp then s.endOp d e.num else s)
  else if s.ringOn d cq 3 && (s.ring i).wait.isEmpty && decide (0 < s.room d cq) then s.writeEntry d cq e isOp
  else
    let r := s.ring i
    let s := s.setRing i { r with wait := r.wait ++ [(e, isOp)] }
    if s.ringOn d cq 3 then s.countDev 8 else s

/-- The end of an operation in flight (R82, R97); one that a reset has ended writes no entry (R57). -/
def State.complete (s : State) (o : Op) (status : Byte) (info0 : Word := 0) (info1 : Half := 0) (stamp : Option (BitVec 36) := none)
    (port : Byte := 0xFF) : State :=
  if o.epoch ≠ (s.func o.dom).epoch then s
  else s.completeE o.dom { tag := o.tag, status := status, num := o.num, info0 := info0, info1 := info1, stamp := stamp, port := port } true

/-- The empty return of a receive buffer (R71, R86, R89). -/
def State.returnBuffer (s : State) (d : Dom) (n : RingNo) (tag : Half) (status : Byte) : State :=
  s.completeE d { tag := tag, status := status, num := n } false

/-- Waiting entries of a CQ written while there is room, at most fuel of them (R83). -/
def State.drain (s : State) (d : Dom) (cq : RingNo) : Nat → State
  | 0 => s
  | fuel + 1 =>
    let i := s.dring d cq
    match (s.ring i).wait with
    | [] => s
    | (e, isOp) :: rest =>
      if s.ringOn d cq 3 && decide (0 < s.room d cq) then
        let r := s.ring i
        State.drain ((s.setRing i { r with wait := rest }).writeEntry d cq e isOp) d cq fuel
      else s

/-- STALL: the CQ is enabled and full and a completion waits (RNG_STATUS). A received frame that waits with all its buffers for room is no
waiting completion here: it alone neither sets STALL nor has CONS read every 10 µs, which the manual leaves open (DESIGN CHOICE, log 74). -/
def State.stalled (s : State) (d : Dom) (cq : RingNo) : Bool :=
  s.ringOn d cq 3 && !(s.ring (s.dring d cq)).wait.isEmpty

/-- Operations of a domain in flight (R82). -/
def State.inflight (s : State) (d : Dom) : Nat :=
  let e := s.entry d
  (List.range (s.ringsHeld d)).foldl (fun n i => n + (s.ring (e.ringBase + i)).inflight) 0

/-- Operations of the device in flight (R82). -/
def State.inflightAll (s : State) : Nat := s.rings.foldl (fun n r => n + r.2.inflight) 0

/-- The ring at n could have its next descriptor fetched now, apart from what its port asks: fence is its FENCE; the
quotas hold back TX and CMD rings (R77, R82, R83). -/
def State.fetchable (s : State) (d : Dom) (n : RingNo) (fence : Bool) : Bool :=
  let i := s.dring d n
  let r := s.ring i
  let op := decide (ringType (s.ringCfg i) ≠ 1)
  s.answers && (s.func d).flr.isNone && s.ringOk d n && bit (s.ringCfg i) 0 && r.active
    && decide (ringType (s.ringCfg i) < 3) && decide (r.idx ≠ r.head)
    && !(s.stalled d (s.cqOf d n))
    && (!op || (decide (s.inflight d < (s.entry d).inflight) && decide (s.inflightAll < 1024)))
    && (!fence || (r.inflight == 0 && r.posted.isEmpty && r.frames.isEmpty))

/-- The fetch: HEAD moves on and is written before any completion (R74); the operation is in flight, which all descriptors but RX_BUF are
(R82). -/
def State.fetch (s : State) (d : Dom) (n : RingNo) (op : Bool := true) : State :=
  let i := s.dring d n
  let r := s.ring i
  let s := s.setRing i { r with head := r.head + 1, inflight := if op then r.inflight + 1 else r.inflight }
  s.doorbell d (0x400 + 4 * n.val) ((r.head + 1).setWidth 32)

/-- A CMD command: fetched if it can be, then its effect on the operation (section Descriptors); the recovery path takes only the
image commands (R488). -/
def State.command (s : State) (d : Dom) (n : RingNo) (x : Desc) (f : State → Op → State) (image : Bool := false) : State :=
  let o : Op := { dom := d, num := n, tag := x.tag, epoch := (s.func d).epoch }
  if !s.fetchable d n (x.flags.getLsbD 2) then s
  else if s.dev.recovery && !image then (s.fetch d n).complete o 0x32
  else f (s.fetch d n) o

/-! ### TX timestamp queue (R90) -/

/-- One entry for the queue: bytes 0 to 3 and 5 to 6 are completed here (OVF, LOST, PHASE). -/
def State.tsqEntry (s : State) (d : Dom) (tag : Half) (ring : Nat) (kind : Nat) (port : Byte) (tail : List Byte) : State :=
  if !s.rb (.fn d .tsq) 0 || s.mute d then s
  else
    let f := s.func d
    -- TSQ_CONS read once more where the queue looks full: what the host returns is free (log 7)
    let full := (f.tsqProd - f.tsqCons).toNat == 64
    let cons := if full then (Config.hostWord s.free).setWidth 16 else f.tsqCons
    let s := if full then s.draw else s
    if full && (f.tsqProd - cons).toNat == 64 then
      let s := s.setFunc d { f with tsqCons := cons, tsqLost := if f.tsqLost = 0xFFFF then 0xFFFF else f.tsqLost + 1, tsqRun := true }
      let s := s.countDev 0xC
      if f.tsqRun then s else s.raise (.fn d .evcDstat) 0
    else
      let ovf := f.tsqLost ≠ 0
      let b2 := BitVec.ofNat 8 (ring % 64 + (if ovf then 64 else 0) + (if phase 6 f.tsqProd then 128 else 0))
      let s := s.emit (.tsq d f.tsqProd (leBytes 2 tag.toNat ++ [b2, BitVec.ofNat 8 kind, port] ++ leBytes 2 f.tsqLost.toNat ++ [0] ++ tail))
      let s := s.setFunc d { f with tsqCons := cons, tsqProd := f.tsqProd + 1, tsqLost := 0, tsqRun := false }
      s.doorbell d 0x500 ((f.tsqProd + 1).setWidth 32)

/-- A transmit stamp for the queue (R90, R92). -/
def State.tsqStamp (s : State) (o : Op) (kind : Nat) (port : Byte) (st : BitVec 36) : State :=
  if o.epoch ≠ (s.func o.dom).epoch then s else s.tsqEntry o.dom o.tag o.num.val kind port (stampBytes st ++ [0, 0, 0])

/-- An EPOCH entry carrying a full time in every queue (R91, R282). -/
def State.epochEntries (s : State) (t : DWord) : State :=
  doms.foldl (fun s d => s.tsqEntry d 0 0 2 0xFF (leBytes 8 t.toNat)) s

end Sys2Proof.Machine
end

