-- ==== Sys2Proof/Machine/Evc.lean ====
section
/-! DEFINITION. The event controller: levels, delivery, messages, claims, the storm guard (R420 to R431). -/
namespace Sys2Proof.Machine

/-- Bits set in the words of a kind of EVC word register. -/
def State.evcBit (s : State) (d : Dom) (kind : Fin 5) (src : Nat) : Bool := s.rb (.evcWord d kind (fin 8 (src / 32))) (src % 32)

/-- Ports of a domain (R22). -/
def State.ports_ (s : State) (d : Dom) : List PortId := portIds.filter (fun p => s.portOwner p == d)

/-- Domain to which a counter block belongs (R337, R338). -/
def State.blockOwner (s : State) (b : Nat) : Dom :=
  if b < 32 then s.portOwner (fin 32 b) else if b < 36 then s.epOwner (fin 4 (b - 32)) else 0

/-- A claim source of a domain is asserted (R420, R421). -/
def State.level (s : State) (d : Dom) (src : Nat) : Bool :=
  if src = 0 then false
  else if src ≤ 64 then
    let n : RingNo := fin 64 (src - 1)
    let i := s.dring d n
    s.ringOk d n && ringType (s.ringCfg i) == 3 && s.rb (ringReg i .cqcfg) 7 && decide ((s.ring i).head ≠ (s.ring i).idx)
  else if src = 65 then
    (List.range (s.ringsHeld d)).any (fun n => s.rb (ringReg ((s.entry d).ringBase + n) .status) 29)
  else if src = 66 then (s.ports_ d).any (fun p => s.rb (.fn d .fltHipri) p.val)
  else if src = 67 then s.rb (.fn d .evcDstat) 3
  else if src = 68 then s.rb (.fn d .evcDstat) 0
  else if src = 69 then s.rb (.fn d .evcDstat) 1
  else if src = 70 then decide (d ≠ 0) && (s.entry d).routeUse && s.rb (.fn d .evcDstat) 2
  else if src = 71 then s.halves.any (fun h => s.blockOwner (h.1 / 64) == d)
  else if src < 80 then
    let n : Fin 8 := fin 8 (src - 72)
    s.rf (.evtinCfg n) 16 4 == d.val && decide (s.tmu.captures[n].prod.toNat ≠ s.rf (.evtinIdx n) 16 16)
  else if src < 112 then
    let p : PortId := fin 32 (src - 80)
    s.portOwner p == d && decide (clearBit (s.reg (.port p .evt)) 8 ≠ 0)
  else if src < 116 then
    let k : GrpId := fin 4 (src - 112)
    s.grpOwner k == d && decide (s.reg (.grp k .evt) ≠ 0)
  else if src < 120 then
    let k : EpId := fin 4 (src - 116)
    s.epOwner k == d && decide (s.reg (.ep k .evt) ≠ 0)
  else if src = 120 then d == 0 && decide (s.reg (.tmu .evt) ≠ 0)
  else if src = 121 then d == 0 && decide (s.reg (.fab .evt) ≠ 0)
  else if src = 122 then d == 0 && decide (s.reg (.dev .seevt) ≠ 0)
  else if src = 123 then decide (s.reg (.fn d .crnEvt) ≠ 0)
  else if src = 124 then (List.finRange 8).any (fun i => decide (s.reg (.evcWord d 4 i) ≠ 0))
  else false

def State.srcPrio (s : State) (d : Dom) (src : Nat) : Nat := s.rf (.evcSrc d (fin 256 src)) 0 4
/-- Claim target: the ring's VECTOR for CQ sources (R94). -/
def State.srcTarget (s : State) (d : Dom) (src : Nat) : Nat :=
  if src ≤ 64 then s.rf (ringReg (s.dring d (fin 64 (src - 1))) .cqcfg) 0 7 else s.rf (.evcSrc d (fin 256 src)) 4 7
/-- Moderation class: the ring's MOD_CLASS for CQ sources. -/
def State.srcClass (s : State) (d : Dom) (src : Nat) : Nat :=
  if src ≤ 64 then s.rf (ringReg (s.dring d (fin 64 (src - 1))) .cqcfg) 8 2 else s.rf (.evcSrc d (fin 256 src)) 11 2

def tgtKey (d : Dom) (t : Nat) : Nat := 128 * d.val + t
def State.stack (s : State) (d : Dom) (t : Nat) : List (Nat × Nat) := Tbl.get [] s.evc.claimStacks (tgtKey d t)
/-- Running priority of a host target (EVC_TGTt_PRI). -/
def State.runPri (s : State) (d : Dom) (t : Nat) : Nat := ((s.stack d t).head?.map (·.2)).getD 0
/-- A source is active: it stands on a stack of its domain (R420). -/
def State.srcActive (s : State) (d : Dom) (src : Nat) : Bool :=
  s.evc.claimStacks.any (fun e => e.1 / 128 == d.val && e.2.any (fun x => x.1 == src))

/-- Deliverable (R420): asserted, enabled, not masked, priority 1 to 15, not active. -/
def State.deliverable (s : State) (d : Dom) (src : Nat) : Bool :=
  s.evcBit d 0 src && !s.evcBit d 1 src && decide (s.srcPrio d src ≠ 0) && !s.srcActive d src && s.level d src

/-- Deliverable sources of a domain whose priority is above their target's running priority, ascending. -/
def State.dueSources (s : State) (d : Dom) : List Nat :=
  (List.range 256).filter (fun x => s.deliverable d x && decide (s.runPri d (s.srcTarget d x) < s.srcPrio d x))

/-- A domain has set some ENABLE bit. -/
def State.evcUsed (s : State) (d : Dom) : Bool := (List.finRange 8).any (fun i => decide (s.reg (.evcWord d 0 i) ≠ 0))

/-- Source s of domain d at target t. -/
def dueKey (d s t : Nat) : Nat := 128 * (256 * d + s) + t
def dueDom (x : Nat) : Dom := fin 16 (x / 32768)
def dueSrc (x : Nat) : Nat := x / 128 % 256
def dueTgt (x : Nat) : Nat := x % 128

/-- Everything due, with its target. -/
def State.due (s : State) : List Nat :=
  (doms.filter (fun d => s.evcUsed d)).flatMap (fun d => (s.dueSources d).map (fun x => dueKey d.val x (s.srcTarget d x)))

/-- Deliveries of a source within the last window, with one more now. -/
def State.stormLog (s : State) (k w : Nat) : List DWord :=
  s.raw :: (Tbl.get [] s.evc.storm k).filter (fun t => decide (s.raw.toNat < t.toNat + us w))

/-- A delivery counted by the storm guard: more than N within any WINDOW masks the source (R427). -/
def State.stormCount (s : State) (d : Dom) (src : Nat) : State :=
  let n := s.rf (.fn d .evcGuard) 0 8
  let w := max 1 (s.rf (.fn d .evcGuard) 8 16)
  if n = 0 ∨ src = 124 ∨ !s.rb (.evcSrc d (fin 256 src)) 13 then s
  else
    let l := s.stormLog (256 * d.val + src) w
    let s := { s with evc := { s.evc with storm := Tbl.put [] s.evc.storm (256 * d.val + src) l } }
    if n < l.length then
      let i : Fin 8 := fin 8 (src / 32)
      let s := s.raise (.evcWord d 4 i) (src % 32)
      let s := s.raise (.evcWord d 1 i) (src % 32)
      s.record (domCode d) 3 false 0x0B 0x01 (BitVec.ofNat 32 src) (BitVec.ofNat 32 (s.srcTarget d src))
    else s

/-- A target of an active domain sends messages: its vector exists, MSI-X is enabled, and no reset is under way (R21, R56, R57). -/
def State.sends (s : State) (d : Dom) (t : Nat) : Bool :=
  decide (t < (s.entry d).msixCount ∧ t < 128) && (s.func d).msixEnable && (s.func d).flr.isNone && s.active d

/-- An MSI-X message of a target for the sources that it announces, those held at the target among them; it is held as PCI Express prescribes while
masked, and the storm guard counts it for each source (R424, R427, R429, R56, R57). -/
def State.message (s : State) (d : Dom) (t : Nat) (srcs : List Nat) : State :=
  let f := s.func d
  let held := Tbl.get [] s.evc.heldMsgs (tgtKey d t)
  let e := { s.evc with heldMsgs := Tbl.put [] s.evc.heldMsgs (tgtKey d t) [],
                        lastMsg := Tbl.put none s.evc.lastMsg (tgtKey d t) (some s.raw) }
  let s := { s with evc := e }
  if !s.sends d t then s
  else
    let s := if f.funcMask ∨ t ∉ f.vecOpen then s.setFunc d { f with vecPending := t :: f.vecPending.filter (fun k => decide (k ≠ t)) }
      else s.emit (.msix d (fin 128 t) (Tbl.get 0 f.vecTable t))
    (srcs ++ held.filter (fun x => decide (x ∉ srcs))).foldl (fun s x => s.stormCount d x) s

/-- The gap of a class at a target, in microseconds (EVC_TGTt_MOD). -/
def State.gap (s : State) (d : Dom) (t c : Nat) : Nat := if c = 0 then 0 else s.rf (.evcMod d (fin 128 t)) (10 * (c - 1)) 10

/-- The gap of class c has run since the target's previous message (R429). -/
def State.gapOver (s : State) (d : Dom) (t c : Nat) : Bool :=
  match Tbl.get none s.evc.lastMsg (tgtKey d t) with
  | none => true
  | some r => decide (c = 0 ∨ r.toNat + us (s.gap d t c) ≤ s.raw.toNat)

/-- Sources become due at a target: a message at once, or held by moderation unless the host is idle (R424, R429, R95). The IDLE word is a free
value also while DEV_DBB.ENABLE is 0 (DESIGN CHOICE, log 7). -/
def State.announceAt (s : State) (d : Dom) (t : Nat) (srcs : List Nat) : State :=
  if srcs.any (fun x => s.gapOver d t (s.srcClass d x)) then s.message d t srcs
  else if (Config.hostWord s.free).getLsbD 0 then s.draw.message d t srcs
  else
    let s := s.draw
    let held := Tbl.get [] s.evc.heldMsgs (tgtKey d t)
    { s with evc := { s.evc with heldMsgs := Tbl.put [] s.evc.heldMsgs (tgtKey d t) (held ++ srcs.filter (fun x => decide (x ∉ held))) } }

/-- The first of the sources that have become due at its target stands for all of them. -/
def standsFor (new : List Nat) (x : Nat) : Bool :=
  (new.find? (fun y => decide (dueDom y = dueDom x) && dueTgt y == dueTgt x)) == some x

/-- After each command: messages for the sources that have become due at a target, by their level or by a new TARGET; one message may announce several
(R424, R426). -/
def State.announce (s : State) : State :=
  let cur := s.due
  let new := cur.filter (fun x => decide (x ∉ s.evc.announced))
  let reps := new.filter (fun x => standsFor new x)
  let s' := reps.foldl (fun s x => s.announceAt (dueDom x) (dueTgt x)
    ((new.filter (fun y => decide (dueDom y = dueDom x) && dueTgt y == dueTgt x)).map dueSrc)) s
  { s' with evc := { s'.evc with announced := cur } }

/-! ### When the node of a group may start (R195, R264) -/

def running : PState → Bool
  | .startup | .normal | .test | .recovery => true
  | _ => false

/-- R195 forbids an attempt of the port, apart from what a group adds. -/
def State.forbidden (s : State) (p : PortId) : Bool :=
  let x := s.port p
  !running x.state || (x.state == .recovery && x.seqOn) || (x.state == .test && s.testMode p == 3)
    || (x.lone && s.rb (.port p .mode) 12) || x.suspend

/-- The device's node in a group may start attempts: R195 does not forbid it, and the group is in STARTUP or NORMAL (R264). -/
def State.nodeMay (s : State) (k : GrpId) : Bool :=
  ((s.group k).state == .startup || (s.group k).state == .normal) && !s.forbidden (s.anchor k)

/-- The raw instants from which the groups' nodes may start, kept after each command (R264). -/
def State.noteMay (s : State) : State :=
  { s with may := Vector.ofFn (fun k => if s.nodeMay k then some ((s.may[k]).getD s.raw) else none) }

/-- What every command ends with. -/
def finish (s : State) : Result := .next s.noteMay.announce

/-- The source a claim of target t takes: highest priority, then lowest number (R422). -/
def State.claimed (s : State) (d : Dom) (t : Nat) : Option Nat :=
  ((s.dueSources d).filter (fun x => s.srcTarget d x == t)).foldl
    (fun best x => match best with
      | none => some x
      | some b => if s.srcPrio d b < s.srcPrio d x then some x else some b) none

/-- EVC_CLAIM: a claim read makes the source active and pushes its priority; with none it changes nothing (R422, R427). -/
def execEvcClaim (d : Dom) (t : Fin 128) (s : State) : Result :=
  if (s.entry d).msixCount ≤ t.val ∨ !s.serves ∨ !s.active d then .next s
  else match s.claimed d t.val with
    | none => .next s
    | some x =>
      let st := (x, s.srcPrio d x) :: s.stack d t.val
      let s := { s with evc := { s.evc with claimStacks := Tbl.put [] s.evc.claimStacks (tgtKey d t.val) st } }
      finish (s.stormCount d x)

/-! ### The vector level (R408, R409, R425, R429 to R431) -/

def coreIds : List CoreId := List.finRange 4
def dutyIds : List (Fin 4) := List.finRange 4
def State.core (s : State) (c : CoreId) : Core := s.spur.cores[c]
/-- Duties that a core holds or is about to hold. -/
def State.dutiesOf (s : State) (c : CoreId) : Nat :=
  (dutyIds.filter (fun u => (s.spur.duties[u]).core == some c || (s.spur.duties[u]).moving == some c)).length
/-- The RUNNING core with the fewest duties, ties to the lower number (R409). -/
def State.moveTarget (s : State) : Option CoreId :=
  (coreIds.filter (fun c => decide ((s.core c).state = .running))).foldl (fun (b : Option CoreId) c => match b with
    | none => some c
    | some d => if s.dutiesOf c < s.dutiesOf d then some c else some d) none

/-- Code of a vector-level target. -/
def vecCode : VecTarget → Nat
  | .core c => c.val
  | .leaf e => 4 + e.val
  | .cairn => 38

/-- Whose sources a target serves: a leaf's belong to the port that its engine is attached to, and move with the port (R431). -/
def State.vecOwner (s : State) : VecTarget → Nat
  | .core c => c.val
  | .leaf e => match portIds.find? (fun p => s.spur.attached[p] == some e) with
    | some p => 4 + p.val
    | none => 64 + e.val
  | .cairn => 38

/-- A target in its wait state is woken (R430). -/
def State.wakeTarget (s : State) (t : VecTarget) : State :=
  if vecCode t ∈ s.evc.awake then s else { s with evc := { s.evc with awake := vecCode t :: s.evc.awake } }

/-- A delivery of a vector-level source counted by the storm guard, under EVC_GUARD of D0 (R427; DESIGN CHOICE, log 17). -/
def State.stormVector (s : State) (t : VecTarget) (key : Nat) (x : VecSource) : State :=
  let n := s.rf (.fn 0 .evcGuard) 0 8
  if n = 0 ∨ !x.guarded then s
  else
    let l := s.stormLog (4096 + key) (max 1 (s.rf (.fn 0 .evcGuard) 8 16))
    let s := { s with evc := { s.evc with storm := Tbl.put [] s.evc.storm (4096 + key) l } }
    if n < l.length then
      { s with evc := { s.evc with vecStorm := key :: s.evc.vecStorm } }.record 0x10 3 false 0x0B 0x01 (BitVec.ofNat 32 x.src.toNat)
        (BitVec.ofNat 32 (0x100 + vecCode t))
    else s

/-- A source of owner o by its key. -/
def vecKey (o : Nat) (x : VecSource) : Nat := 256 * o + x.src.toNat

/-- The source of owner o that target u takes under R422: not masked, not active, above the running priority, the highest priority, then the lowest
number (R422, R425). -/
def State.vecChosen (s : State) (u : VecTarget) (o : Nat) (xs : List VecSource) : Option VecSource :=
  let run := ((Tbl.get [] s.evc.vstacks (s.vecOwner u)).head?.map (·.2)).getD 0
  let fit := xs.filter (fun x => !x.masked && decide (vecKey o x ∉ s.evc.vecStorm) && decide (run < x.prio.toNat)
    && !s.evc.vstacks.any (fun e => e.2.any (fun y => y.1 == vecKey o x)))
  fit.foldl (fun b x => match b with
    | none => some x
    | some y => if y.prio.toNat < x.prio.toNat ∨ (y.prio = x.prio ∧ x.src.toNat < y.src.toNat) then some x else some y) none

/-- A vector goes out: the handler's address, the priority on the stack, the storm guard (R425, R427). -/
def State.sendVector (s : State) (u : VecTarget) (o : Nat) (x : VecSource) : State :=
  let c := s.vecOwner u
  let st := (vecKey o x, x.prio.toNat) :: Tbl.get [] s.evc.vstacks c
  let s := { s with evc := { s.evc with vstacks := Tbl.put [] s.evc.vstacks c st, lastVec := Tbl.put none s.evc.lastVec (vecCode u) (some s.raw),
                                        heldVecs := Tbl.put (0, []) s.evc.heldVecs (vecCode u) (0, []) } }
  (s.emit (.vector u x.src (Config.vectorBase (vecCode u) + BitVec.ofNat 32 (16 * x.src.toNat)))).stormVector u (vecKey o x) x

/-- The gap of a vector-level target's class has run (R429). -/
def State.vecGapEnd (s : State) (u : VecTarget) (c : Nat) : DWord :=
  match Tbl.get none s.evc.lastVec (vecCode u) with
  | none => 0
  | some r => if c = 0 then 0 else after r (us (Config.vectorGap (vecCode u) c))

/-- Sources offered to target u: the chosen one goes, or waits for the end of its gap unless the target was idle (R422, R425, R429). -/
def State.offerVector (s : State) (u : VecTarget) (o : Nat) (xs : List VecSource) (idle : Bool) : State :=
  match s.vecChosen u o xs with
  | none => s
  | some x =>
    if idle || decide (s.vecGapEnd u x.cls.toNat ≤ s.raw) then s.sendVector u o x
    else { s with evc := { s.evc with heldVecs := Tbl.put (0, []) s.evc.heldVecs (vecCode u) (o, xs) } }

/-- A target of the vector level writes its EOI: its stack is popped, and with an empty stack a record is written (R423, R425). With nothing
left to serve it goes back to its wait state, in which what moderation held goes at once (R429, log 60). -/
def State.vecEoi (s : State) (t : VecTarget) : State :=
  let o := s.vecOwner t
  match Tbl.get [] s.evc.vstacks o with
  | [] => s.record 0x10 3 false 0x0B 0x02 (BitVec.ofNat 32 (0x100 + vecCode t)) 0
  | _ :: rest =>
    let s := { s with evc := { s.evc with vstacks := Tbl.put [] s.evc.vstacks o rest } }
    let held := Tbl.get (0, []) s.evc.heldVecs (vecCode t)
    if rest ≠ [] then s
    else if held.2 = [] then { s with evc := { s.evc with awake := s.evc.awake.filter (fun k => decide (k ≠ vecCode t)) } }
    else s.offerVector t held.1 held.2 true

/-- Where a source of a target goes: an offline core's goes to its fallback, the RUNNING core that R409 would choose, once OFFLINE_FALLBACK has named
it (R431). -/
def State.vecTarget (s : State) (t : VecTarget) (src : Byte) : Option VecTarget :=
  match t with
  | .core c =>
    if (s.core c).state = .running then some t
    else if (c, src) ∈ s.evc.fallback then s.moveTarget.map VecTarget.core
    else none
  | _ => some t

/-- VECTOR_DELIVERY: an asserted and enabled source wakes its target, masked or not; of the target's sources the one that R422 chooses goes out as its
handler's address, subject to moderation (R425, R429, R430, R431). Cairn claims its sources itself: for it there is only the wake (log 60). -/
def execVectorDelivery (t : VecTarget) (src : Byte) (level : SourceLevel) (s : State) : Result :=
  match s.vecTarget t src with
  | none => .next s
  | some u =>
    let own : VecSource := { src := src, prio := level.prio, masked := level.masked, cls := level.cls, guarded := level.guarded }
    let xs := (own :: level.others).filter (fun x => decide (x.prio ≠ 0) && s.vecTarget t x.src == some u)
    if xs.isEmpty then .next s
    else
      let idle := decide (vecCode u ∉ s.evc.awake)
      let s := s.wakeTarget u
      if u = .cairn then finish s else finish (s.offerVector u (s.vecOwner t) xs idle)

end Sys2Proof.Machine
end

