-- ==== Sys2Proof/Machine/Operands.lean ====
section
/-! DEFINITION. Operand forms: descriptor fields, field-frame lengths and headers, arbitration values (R77, R84, R117, R169, R188). -/
namespace Sys2Proof.Machine

/-! ### Descriptors (section Descriptors of 02_rings_and_doorbells.md) -/

/-- n bytes of a descriptor from byte i, i at least 4. -/
def dnum (x : Desc) (i n : Nat) : Nat := (x.body.toNat >>> (8 * (i - 4))) % 2 ^ (8 * n)
/-- Bit b of byte i. -/
def dbit (x : Desc) (i b : Nat) : Bool := x.body.getLsbD (8 * (i - 4) + b)
/-- w bits of byte i from bit b. -/
def dfld (x : Desc) (i b w : Nat) : Nat := (x.body.toNat >>> (8 * (i - 4) + b)) % 2 ^ w
/-- ADDR, bytes 24 to 31. -/
def daddr (x : Desc) : DWord := BitVec.ofNat 64 (dnum x 24 8)
def dtsq (x : Desc) : Bool := x.flags.getLsbD 0
def dinline (x : Desc) : Bool := x.flags.getLsbD 1
def dfence (x : Desc) : Bool := x.flags.getLsbD 2

/-- Every bit outside the fields (byte, low bit, width) and every reserved flag is 0 (R77). -/
def reservedZero (x : Desc) (fields : List (Nat × Nat × Nat)) : Bool :=
  let used := fields.foldl (fun m f => m ||| ((2 ^ f.2.2 - 1) <<< (8 * (f.1 - 4) + f.2.1))) 0
  decide (x.flags.toNat < 8) && decide (x.body.toNat ||| used = used)

/-- The field ADDR. -/
def fAddr : Nat × Nat × Nat := (24, 0, 64)

/-! ### Frame lengths (R117, R169) -/

def fdLens : List Nat := [0, 1, 2, 3, 4, 5, 6, 7, 8, 12, 16, 20, 24, 32, 48, 64]

/-- A legal payload length of a format. -/
def lenOk : Fmt → Nat → Bool
  | .cc, n => decide (n ≤ 8)
  | .fd, n => fdLens.contains n
  | .xl, n => decide (1 ≤ n ∧ n ≤ 2048)

/-- A legal data length with a trailer of T bytes after the freshness value (R169). -/
def lenOkSealed (f : Fmt) (t d : Nat) : Bool := decide (f ≠ .cc) && lenOk f (d + 4 + t)

/-- The DLC code of a length, CC and FD. A sealed object's data length may have no code of its own (36, 40, 52, 56): the header then shows
the next higher one (DESIGN CHOICE, log 48). -/
def dlcOf (f : Fmt) (n : Nat) : BitVec 4 := if f = .xl then 0 else BitVec.ofNat 4 (fdLens.findIdx (fun k => decide (n ≤ k)))

/-- Payload bytes that a DLC code stands for. -/
def dlcLen (f : Fmt) (c : BitVec 4) : Nat :=
  match f with
  | .cc => min 8 c.toNat
  | _ => fdLens.getD c.toNat 64

def fmtCode : Fmt → Nat
  | .cc => 0
  | .fd => 1
  | .xl => 2

def fmtOf : Nat → Option Fmt
  | 0 => some .cc
  | 1 => some .fd
  | 2 => some .xl
  | _ => none

/-- A frame from an ID word, a format byte and the XL fields; fields that the format does not use are 0 (R77). -/
def mkFrame (f : Fmt) (idw : Nat) (b8 : Nat) (sdt vcid : Nat) (sec : Bool) (af : Nat) (data : List Byte) (len : Nat) : CanFrame :=
  { fmt := f, ident := BitVec.ofNat 29 idw, ide := decide (idw / 2 ^ 29 % 2 = 1), rtr := decide (idw / 2 ^ 30 % 2 = 1) && decide (f = .cc),
    brs := decide (f = .fd) && decide (b8 / 4 % 2 = 1), esi := decide (f = .fd) && decide (b8 / 8 % 2 = 1), dlc := dlcOf f len,
    sdt := if f = .xl then BitVec.ofNat 8 sdt else 0, vcid := if f = .xl then BitVec.ofNat 8 vcid else 0, sec := decide (f = .xl) && sec,
    af := if f = .xl then BitVec.ofNat 32 af else 0, data := data }

/-- An ID word and format byte that name a frame (R77): base identifiers in [10:0], no IDE or RTR with XL, no RTR with FD. -/
def idWordOk (f : Fmt) (idw : Nat) : Bool :=
  let ide := decide (idw / 2 ^ 29 % 2 = 1)
  let rtr := decide (idw / 2 ^ 30 % 2 = 1)
  decide (idw < 2 ^ 31) && (ide || decide (idw % 2 ^ 29 < 2 ^ 11)) && !(rtr && decide (f ≠ .cc)) && !(ide && decide (f = .xl))

/-- ID word of a frame, as TX_FRAME bytes 4 to 7. -/
def idWord (f : CanFrame) : Nat := f.ident.toNat + (if f.ide then 2 ^ 29 else 0) + (if f.rtr then 2 ^ 30 else 0)

/-- Format byte of a receive header or object image, flags above bit 3 excepted. -/
def fmtByte (f : CanFrame) : Nat := fmtCode f.fmt + (if f.brs then 4 else 0) + (if f.esi then 8 else 0)

/-- Receive header of a field frame (R84). -/
def rxHeader (f : CanFrame) (isSealed : Bool) (act : Nat) : List Byte :=
  leBytes 4 (idWord f) ++ leBytes 1 (fmtByte f + (if isSealed then 16 else 0)) ++ leBytes 1 f.dlc.toNat ++ leBytes 2 f.data.length
    ++ [f.sdt, f.vcid] ++ leBytes 1 (b2n f.sec) ++ leBytes 1 (act % 4) ++ leBytes 4 f.af.toNat

/-- Header of an object image (section The object image of 04_objects_and_filters.md). -/
def objHeader (f : CanFrame) (isSealed isNew lost : Bool) (len : Nat) (seqNo : Half) : List Byte :=
  leBytes 4 (idWord f) ++ leBytes 1 (fmtByte f + (if isSealed then 16 else 0) + (if isNew then 32 else 0) + (if lost then 64 else 0)
    + (if f.sec then 128 else 0)) ++ leBytes 1 f.dlc.toNat ++ leBytes 2 len ++ [f.sdt, f.vcid] ++ leBytes 2 seqNo.toNat ++ leBytes 4 f.af.toNat

/-- Header of a send object's image: every configured field stands in it, whatever the format (R508, log 48 for the DLC code). -/
def sendHeader (idw cfg2 cfg3 : Word) (af : Word) (len : Nat) (seqNo : Half) : List Byte :=
  leBytes 4 idw.toNat ++ leBytes 1 (cfg2.toNat % 16 + 128 * b2n (cfg3.getLsbD 8))
    ++ leBytes 1 (match fmtOf (cfg2.toNat % 4) with
      | some f => (dlcOf f len).toNat
      | none => 0) ++ leBytes 2 len ++ [BitVec.ofNat 8 (cfg2.toNat / 2 ^ 24), BitVec.ofNat 8 cfg3.toNat] ++ leBytes 2 seqNo.toNat ++ leBytes 4 af.toNat

/-- The frame that an image or a receive header with its payload describes. -/
def frameOfImage (bs : List Byte) (secBit : Bool) : CanFrame :=
  let b4 := leAt bs 4 1
  let f := (fmtOf (b4 % 4)).getD .cc
  { mkFrame f (leAt bs 0 4) b4 (leAt bs 8 1) (leAt bs 9 1) secBit (leAt bs 12 4) (slice bs 16 (leAt bs 6 2)) 0 with
    dlc := BitVec.ofNat 4 (leAt bs 5 1) }

/-! ### Arbitration (R188, R189) -/

/-- Arbitration value. -/
def arbValue (f : CanFrame) : Nat :=
  if f.ide then (f.ident.toNat / 2 ^ 18) * 2 ^ 21 + 2 ^ 20 + 2 ^ 19 + (f.ident.toNat % 2 ^ 18) * 2 + b2n f.rtr
  else (f.ident.toNat % 2 ^ 11) * 2 ^ 21 + b2n f.rtr * 2 ^ 20

/-- One value that orders candidates: arbitration value, then format, then order of entry (R189). -/
def candRank (c : Cand) : Nat × Nat × Nat := (arbValue c.frame, fmtCode c.frame.fmt, c.order)

def rankLt (a b : Nat × Nat × Nat) : Bool :=
  decide (a.1 < b.1) || (a.1 == b.1 && (decide (a.2.1 < b.2.1) || (a.2.1 == b.2.1 && decide (a.2.2 < b.2.2))))

/-- The lowest-ranked element of a list. -/
def lowest (cs : List Cand) : Option Cand :=
  cs.foldl (fun b c => match b with
    | none => some c
    | some x => if rankLt (candRank c) (candRank x) then some c else some x) none

/-- The highest-ranked element of a list. -/
def highest (cs : List Cand) : Option Cand :=
  cs.foldl (fun b c => match b with
    | none => some c
    | some x => if rankLt (candRank x) (candRank c) then some c else some x) none

/-- The two lowest-ranked candidates (R190). -/
def lowestTwo (cs : List Cand) : List Cand :=
  match lowest cs with
  | none => []
  | some a => a :: (lowest (cs.filter (fun c => decide (c.order ≠ a.order)))).toList

end Sys2Proof.Machine
end

