-- ==== Sys2Proof/Machine/Flags.lean ====
section
/-! DEFINITION. Bit timing, error counters, LAST_ERR, and the statistics of a field frame (R107, R108, R111, R207 to R211, R336). -/
namespace Sys2Proof.Machine

/-! ### Bit timing (R107, R108, R111, R114) -/

/-- Sample instant, in 1/16 ns after the start of the bit (R107). -/
def sampleInstant (bt sp : Nat) : Nat := bt * sp / 256

/-- How a bit changes for a resynchronising edge at position p: by how much it is lengthened, or shortened (R111). -/
def edgeCorrection (bt sp sjw p : Nat) : Int :=
  if p = 0 then 0
  else if p < sampleInstant bt sp then (min p sjw : Nat)
  else -((min (bt - p) sjw : Nat) : Int)

/-- One phase lies within R108: bounds of BT, SP and SJW. -/
def phaseOk (bt sp sjw btLo btHi spLo : Nat) : Bool :=
  let si := sampleInstant bt sp
  decide (btLo ≤ bt ∧ bt ≤ btHi) && decide (spLo ≤ sp ∧ sp ≤ 240) && decide (16 ≤ sjw ∧ sjw ≤ min si (bt - si)) && decide (400 ≤ si) && decide (200 ≤ bt - si)

/-- SSP beyond min(3 BT, 32,000) (R114). -/
def sspOver (loop off bt : Nat) : Bool := decide (min (3 * bt) 32000 < loop + off)

/-- Highest value that FPn_TDCSTAT shows. -/
def clampHalf (n : Nat) : Half := BitVec.ofNat 16 (min n 65535)

/-! ### Error counters (R207 to R211) -/

/-- LAST_ERR (FPn_TXSTAT). -/
def errCode : ErrKind → Nat
  | .bit => 1
  | .stuff => 2
  | .crc => 3
  | .form => 4
  | .ack => 5

def lastErrCode (e : Option ErrKind) : Nat := (e.map errCode).getD 0

/-- Counter of an error kind in the field-port block. -/
def errCounter : ErrKind → Nat
  | .bit => 0x60
  | .stuff => 0x64
  | .crc => 0x68
  | .form => 0x6C
  | .ack => 0x70

/-- ERRSTATE error-passive (R211). -/
def passive (tec rec_ : Nat) : Bool := decide ((128 ≤ tec ∨ 128 ≤ rec_) ∧ tec ≤ 255)

/-- ERRSTATE (FPn_ERR). -/
def errState (tec rec_ : Nat) : Nat := if 255 < tec then 2 else if passive tec rec_ then 1 else 0

/-- What one detected error, or an overload flag, adds to TEC and REC (R207); pass says that the port was error-passive. -/
def errAdds (e : ErrEvent) (pass : Bool) : Nat × Nat :=
  if e.tx then
    let excA := pass && e.kind == .ack && !e.dominantInFlag
    let excB := e.arbStuff && e.kind == .stuff
    ((if excA || excB || e.overload then 0 else 8) + 8 * e.flagBitErrors + 8 * e.longRuns, 0)
  else (0, (if e.overload then 0 else 1) + (if e.dominantAfterFlag then 8 else 0) + 8 * e.flagBitErrors + 8 * e.longRuns)

/-- REC after a successful reception (R207). -/
def recDown (r : Nat) : Nat := if r = 0 then 0 else if r ≤ 127 then r - 1 else 120

/-! ### Statistics of frames (R336) -/

/-- RX_LENi or TX_LENi of a payload length. -/
def lenBucket (n : Nat) : Nat :=
  if n ≤ 8 then 0 else if n ≤ 16 then 1 else if n ≤ 32 then 2 else if n ≤ 64 then 3 else if n ≤ 128 then 4 else if n ≤ 256 then 5
  else if n ≤ 1024 then 6 else 7

/-- Kind counter of a frame: CC, FD, XL, remote. -/
def kindIndex (f : CanFrame) : Nat := if f.rtr then 3 else fmtCode f.fmt

/-- The counters of a frame received without error (rx) or sent with success. -/
def State.countFrame (s : State) (p : PortId) (f : CanFrame) (rx : Bool) : State :=
  let s := s.countPort p ((if rx then 0 else 0x10) + 4 * kindIndex f)
  let s := s.countPort p ((if rx then 0x20 else 0x40) + 4 * lenBucket f.data.length)
  s.countBy (s.block p) ((if rx then 0xAC else 0xB0) / 4) f.data.length

/-- The counters of one detected error. -/
def State.countError (s : State) (p : PortId) (e : ErrEvent) (silent : Bool) : State :=
  let s := s.countPort p (errCounter e.kind)
  let s := if e.tx then s.countPort p 0x74 else s
  if silent then s.countPort p 0x78 else s

end Sys2Proof.Machine
end

