-- ==== Sys2Proof/Machine/Traverse.lean ====
section
/-! DEFINITION. Traverse schedules: the table, longest durations, windows, admission (R250, R253 to R255, R261, R505). -/
namespace Sys2Proof.Machine

/-! ### Slot entries (R250) -/

def eb (e : BitVec 256) (lo n : Nat) : Nat := (e.toNat >>> lo) % 2 ^ n
/-- START and LENGTH, ns. -/
def slotStart (e : BitVec 256) : Nat := eb e 0 30
def slotLen (e : BitVec 256) : Nat := eb e 32 30
def slotOwners (e : BitVec 256) : Nat := eb e 64 16
def slotValid (e : BitVec 256) : Bool := e.getLsbD 80
def slotDev (e : BitVec 256) : Bool := e.getLsbD 81
def slotRef (e : BitVec 256) : Bool := e.getLsbD 82
def slotIde (e : BitVec 256) : Bool := e.getLsbD 83
def slotLow (e : BitVec 256) : Nat := eb e 96 29
def slotHigh (e : BitVec 256) : Nat := eb e 128 29
/-- Reserved fields are 0. -/
def slotClean (e : BitVec 256) : Bool :=
  eb e 30 2 == 0 && eb e 62 2 == 0 && eb e 84 12 == 0 && eb e 125 3 == 0 && eb e 157 99 == 0

/-- An identifier lies in a slot's range; XL frames compare their priority ID (R250, R257, R261). -/
def slotAdmitsId (e : BitVec 256) (ident : Nat) (ide : Bool) : Bool :=
  ide == slotIde e && decide (slotLow e ≤ ident ∧ ident ≤ slotHigh e)

/-! ### Longest duration (R505) -/

/-- Stuff bits counted in a dynamically stuffed stretch of n bits. -/
def stuffMax (n : Nat) : Nat := (n - 1) / 4

/-- Longest duration in 1/16 ns of a frame with len payload bytes, at bit times nominal, FD data and XL data; the XL field widths
are those of ISO 11898-1:2024 (log 18). -/
def longestDuration (f : Fmt) (ide rtr brs : Bool) (len nbt dbt xbt : Nat) : Nat :=
  match f with
  | .cc =>
    let n := (if ide then 39 else 19) + (if rtr then 0 else 8 * len) + 15
    (n + stuffMax n + 10) * nbt
  | .fd =>
    let m := if ide then 36 else 17
    let n := m + 5 + 8 * len
    let crc := if len ≤ 16 then 21 + 6 else 25 + 7
    if brs then (m + stuffMax m + 10) * nbt + ((n - m) + (stuffMax n - stuffMax m) + crc) * dbt
    else (n + stuffMax n + crc + 10) * nbt
  | .xl =>
    let n := 108 + 8 * len
    (17 + stuffMax 17 + 4 + 4 + 2 + 7) * nbt + (n + (n - 1) / 10 + 4) * xbt

/-- Bit times of a port: nominal, FD data, XL data. -/
def State.nbt (s : State) (p : PortId) : Nat := s.rf (.port p .nbt) 0 21
def State.dbt (s : State) (p : PortId) : Nat := s.rf (.port p .dbt) 0 16
def State.xbt (s : State) (p : PortId) : Nat := s.rf (.port p .xbt) 0 16

/-- Longest duration of a frame with len payload bytes at a port's rates. -/
def State.duration (s : State) (p : PortId) (f : CanFrame) (len : Nat) : Nat :=
  longestDuration f.fmt f.ide f.rtr f.brs len (s.nbt p) (s.dbt p) (s.xbt p)

/-! ### Group settings -/

def State.traverse (s : State) (k : GrpId) : Bool := s.rb (.grp k .cfg) 0
def State.missWait (s : State) (k : GrpId) : Bool := s.rb (.grp k .cfg) 1
def State.devMaster (s : State) (k : GrpId) : Bool := s.rb (.grp k .cfg) 2
def State.refFd (s : State) (k : GrpId) : Bool := s.rb (.grp k .cfg) 3
def State.guardNs (s : State) (k : GrpId) : Nat := s.rf (.grp k .guardBand) 0 17
def State.cycleNs (s : State) (k : GrpId) : Nat := s.rf (.grp k .cycle) 0 30
def State.slots (s : State) (k : GrpId) : Nat := s.rf (.grp k .tbl) 0 9
def State.tableTag (s : State) (k : GrpId) : Nat := s.rf (.grp k .tbl) 16 8
def State.slotAt (s : State) (k : GrpId) (i : Nat) : BitVec 256 := Tbl.get 0 (s.group k).table i
/-- Entries in use, 0 to SLOTS - 1. -/
def State.slotList (s : State) (k : GrpId) : List (BitVec 256) := (List.range (s.slots k)).map (s.slotAt k)

/-- Cold-start entry i: VALID, DEVICE, BRANCH, RANK, REF_ID. -/
def State.csValid (s : State) (k : GrpId) (i : Fin 4) : Bool := s.rb (.grp k (.cs i)) 0
def State.csDevice (s : State) (k : GrpId) (i : Fin 4) : Bool := s.rb (.grp k (.cs i)) 1
def State.csBranch (s : State) (k : GrpId) (i : Fin 4) : Nat := s.rf (.grp k (.cs i)) 2 4
def State.csRank (s : State) (k : GrpId) (i : Fin 4) : Nat := s.rf (.grp k (.cs i)) 6 2
def State.csRefId (s : State) (k : GrpId) (i : Fin 4) : Nat := s.rf (.grp k (.cs i)) 8 11
def csIds : List (Fin 4) := List.finRange 4
/-- The device's own entry. -/
def State.devEntry (s : State) (k : GrpId) : Option (Fin 4) := csIds.find? (fun i => s.csValid k i && s.csDevice k i)
/-- Valid entry of a branch whose REF_ID is given: of two the lower-numbered, whatever RANK the frame carries (DESIGN CHOICE, log 77). -/
def State.branchEntry (s : State) (k : GrpId) (b : Nat) (ident : Nat) : Option (Fin 4) :=
  csIds.find? (fun i => s.csValid k i && !s.csDevice k i && s.csBranch k i == b && s.csRefId k i == ident)

/-! ### Cycle time (R254, R255) -/

/-- Device time between two raw instants, steps left out (log 19). -/
def State.elapsed (s : State) (a b : DWord) : Int := (s.flow b - s.flow a).toInt

/-- The raw instant n sixteenths of device time after another, steps left out. -/
def State.later (s : State) (a : DWord) (n : Nat) : DWord := s.rawOfFlow (after (s.flow a) n)

/-- A table time in 1/16 ns times rho (R255); rho is 1 while the device leads. -/
def State.scaled (s : State) (k : GrpId) (t : Nat) : Nat :=
  match (s.group k).rho with
  | none => t * 16
  | some m => if (s.group k).role = .leading then t * 16 else t * m / (max 1 (s.cycleNs k))

/-- CYCLE times rho (R254). -/
def State.cycleLen (s : State) (k : GrpId) : Nat := s.scaled k (s.cycleNs k)

/-- Time of a raw instant in the present cycle; from margin before the next cycle start it is taken in that cycle (R253 keeps every
other window clear of it). -/
def State.cycleTime (s : State) (k : GrpId) (margin : Nat) (sof : DWord) : Int :=
  let x := s.elapsed (s.group k).cycleAt sof
  if ((s.cycleLen k : Int) - margin) ≤ x then x - s.cycleLen k else x

/-- The instant belongs to the next cycle, whose start has not been settled yet. -/
def State.inNextCycle (s : State) (k : GrpId) (sof : DWord) : Bool :=
  decide (((s.cycleLen k : Int) - s.guardNs k * 16) ≤ s.elapsed (s.group k).cycleAt sof)

/-- A start of frame at a corrected raw instant lies in the window of an entry (R255). -/
def State.inSlotWindow (s : State) (k : GrpId) (e : BitVec 256) (sof : DWord) : Bool :=
  let x := s.cycleTime k (s.guardNs k * 16) sof
  let g : Int := s.guardNs k * 16
  decide ((s.scaled k (slotStart e) : Int) - g ≤ x) && decide (x < (s.scaled k (slotStart e + slotLen e) : Int) + g)

/-- The entry in whose window a start of frame falls, with its index. -/
def State.windowOf (s : State) (k : GrpId) (sof : DWord) : Option (Nat × BitVec 256) :=
  ((List.range (s.slots k)).find? (fun i => s.inSlotWindow k (s.slotAt k i) sof)).map (fun i => (i, s.slotAt k i))

/-- Raw instant at which the window of an entry closes, for a frame that started at sof (R257). -/
def State.windowClose (s : State) (k : GrpId) (e : BitVec 256) (sof : DWord) : DWord :=
  s.later (s.group k).cycleAt ((if s.inNextCycle k sof then s.cycleLen k else 0) + s.scaled k (slotStart e + slotLen e) + s.guardNs k * 16)

/-- Some slot admits a device frame of this identifier and duration (R261, R262). -/
def State.someSlot (s : State) (k : GrpId) (ident : Nat) (ide : Bool) (dur : Nat) : Bool :=
  (s.slotList k).any (fun e => slotDev e && slotAdmitsId e ident ide && decide (dur ≤ slotLen e * 16))

/-- A slot admits a device frame that starts at a corrected raw instant (R261). -/
def State.admitsAt (s : State) (k : GrpId) (ident : Nat) (ide : Bool) (dur : Nat) (sof : DWord) : Bool :=
  let x := s.cycleTime k 0 sof
  (s.slotList k).any (fun e => slotDev e && slotAdmitsId e ident ide && decide ((slotStart e * 16 : Int) ≤ x)
    && decide (x + dur ≤ ((slotStart e + slotLen e) * 16 : Int)))

/-- The latest fitting starts, by cycle time, of the slots that admit a device frame, ascending (R263; R253 keeps the slots in order). -/
def State.latestStarts (s : State) (k : GrpId) (ident : Nat) (ide : Bool) (dur : Nat) : List Int :=
  ((s.slotList k).filter (fun e => slotDev e && slotAdmitsId e ident ide && decide (dur ≤ slotLen e * 16))).map
    (fun e => ((slotStart e + slotLen e) * 16 : Int) - dur)

/-- Latest fitting start of a device frame's own slot, by the time of the present cycle: the first that lies at or after a moment; the
cycle before is looked at too (R263). None where it lies beyond the present cycle. -/
def State.ownStart (s : State) (k : GrpId) (ident : Nat) (ide : Bool) (dur : Nat) (since : DWord) : Option Int :=
  let ls := s.latestStarts k ident ide dur
  let t := s.elapsed (s.group k).cycleAt since
  (ls.map (fun l => l - (s.cycleLen k : Int)) ++ ls).find? (fun l => decide (t ≤ l))

/-! ### START checks of a traverse group (R253, R270) -/

/-- Longest duration of a reference frame of the device (R253, R265). -/
def State.refDuration (s : State) (k : GrpId) : Nat :=
  let a := s.anchor k
  longestDuration (if s.refFd k then .fd else .cc) false false (s.refFd k) 8 (s.nbt a) (s.dbt a) (s.xbt a)

/-- The traverse table meets R253. -/
def State.tableOk (s : State) (k : GrpId) : Bool :=
  let es := s.slotList k
  let g := s.guardNs k
  let e0 := s.slotAt k 0
  let n := (s.members k).length
  decide (1 ≤ s.slots k ∧ s.slots k ≤ 256)
    && es.all (fun e => slotValid e && slotClean e && decide (slotOwners e < 2 ^ n) && decide (slotLow e ≤ slotHigh e)
        && (slotIde e || decide (slotHigh e ≤ 0x7FF)))
    && slotRef e0 && slotStart e0 == 0 && (es.drop 1).all (fun e => !slotRef e)
    && csIds.all (fun i => !s.csValid k i ||
        ((if s.csDevice k i then slotDev e0 else decide (slotOwners e0 / 2 ^ s.csBranch k i % 2 = 1)) && slotAdmitsId e0 (s.csRefId k i) false))
    && (es.zip (es.drop 1)).all (fun x => decide (slotStart x.1 + slotLen x.1 + 2 * g ≤ slotStart x.2))
    && (match es.getLast? with
        | some e => decide (slotStart e + slotLen e + 2 * g ≤ s.cycleNs k)
        | none => false)
    && decide (32 * g + s.refDuration k ≤ slotLen e0 * 16)

/-- The cold-start entries meet R270. -/
def State.coldOk (s : State) (k : GrpId) : Bool :=
  let vs := csIds.filter (fun i => s.csValid k i)
  !vs.isEmpty && decide ((vs.filter (fun i => s.csDevice k i)).length ≤ 1)
    && vs.all (fun i => (vs.filter (fun j => s.csRank k j == s.csRank k i)).length == 1)
    && vs.all (fun i => s.csDevice k i || decide (s.csBranch k i < (s.members k).length))
    && (!s.devMaster k || (s.devEntry k).isSome)
    && decide (s.cycleNs k + slotLen (s.slotAt k 0) ≤ s.rf (.grp k .listen) 0 30)

end Sys2Proof.Machine
end

