-- ==== Sys2Proof/Machine/Cands.lean ====
section
/-! DEFINITION. The candidate set of a port: sources, slots, and how a candidate ends (R178 to R183, R203 to R205, R222 to R224). -/
namespace Sys2Proof.Machine

/-! ### Object configuration (R139 to R142) -/

def objValid (o : Obj) : Bool := o.cfg.cfg0.getLsbD 0
def objIsSend (o : Obj) : Bool := o.cfg.cfg0.getLsbD 1
def objClass (c : ObjCfg) : Nat := c.cfg0.toNat / 4 % 4
def objPort (c : ObjCfg) : PortId := fin 32 (c.cfg0.toNat / 16)
def objOfs (c : ObjCfg) : Nat := c.cfg0.toNat / 65536
/-- Payload class in bytes (R140). -/
def classBytes (c : Nat) : Nat := if c = 0 then 8 else if c = 1 then 64 else if c = 2 then 256 else 2048
/-- Slot size (R140). -/
def slotBytes (c : Nat) : Nat := (16 + classBytes c + 63) / 64 * 64
/-- Footprint (R140). -/
def footBytes (c : ObjCfg) : Nat := if c.cfg0.getLsbD 1 then slotBytes (objClass c) else 2 * slotBytes (objClass c)

/-! ### Sources and slots -/

/-- Enabled TX rings that name a field port (R179). -/
def State.txRings (s : State) (p : PortId) : List RingNo :=
  let d := s.portOwner p
  (List.finRange 64).filter (fun n =>
    let cfg := s.ringCfg (s.dring d n)
    s.ringOn d n 0 && !bit cfg 9 && fld cfg 16 5 == p.val)

/-- The port has a valid send object of its owner (R179). -/
def State.hasSendObj (s : State) (p : PortId) : Bool :=
  let d := s.portOwner p
  s.objs.any (fun e => e.1 / 8192 == d.val && objValid e.2 && objIsSend e.2 && objPort e.2.cfg == p)

/-- SOURCES (FPn_TXSTAT). -/
def State.sources (s : State) (p : PortId) : Nat := (s.txRings p).length + b2n (s.hasSendObj p)

/-- The candidate holds a slot; a pending send that waits for one is numbered from 32 (R183). -/
def inSet (c : Cand) : Bool := decide (c.slot < 32)
def isObj (c : Cand) : Bool := match c.src with
  | .obj _ => true
  | .ring _ => false

def slotsUsed (x : Port) : Nat := (x.cands.filter inSet).length
def heldByObj (x : Port) : Nat := (x.cands.filter (fun c => inSet c && isObj c)).length
def heldByRing (x : Port) (n : RingNo) : Nat := (x.cands.filter (fun c => inSet c && decide (c.src = .ring n))).length

/-- Sources that hold no slot (R181, R182). -/
def State.emptySources (s : State) (p : PortId) : Nat :=
  ((s.txRings p).filter (fun n => heldByRing (s.port p) n == 0)).length + b2n (s.hasSendObj p && heldByObj (s.port p) == 0)

/-- SRC_CAP as it acts (FPn_TXSET). -/
def State.srcCap (s : State) (p : PortId) : Nat := min 32 (max 1 (s.rf (.port p .txset) 0 6))

/-- A source may take a slot now (R181, R182). -/
def State.mayTake (s : State) (p : PortId) (held : Nat) (fifo : Bool) : Bool :=
  let free := 32 - slotsUsed (s.port p)
  decide (0 < free) && (held == 0 || (decide (s.emptySources p < free) && decide (held < s.srcCap p))) && !(fifo && decide (0 < held))

/-- A bus-off episode under FLUSH 1: what is fetched or requested completes BUSOFF_FLUSH at once (R215). -/
def State.flushing (s : State) (p : PortId) : Bool := (s.port p).state == .busoff && (s.port p).flush

/-- Ring m has a frame waiting to enter: its next descriptor, whose FENCE host memory holds, can be fetched and may take a slot
(R181, log 7). -/
def State.ringWaits (s : State) (p : PortId) (m : RingNo) : Bool :=
  let i := s.dring (s.portOwner p) m
  s.fetchable (s.portOwner p) m ((s.ring i).inflight != 0 && Config.nextFence i (s.ring i).head.toNat) && s.mayTake p (heldByRing (s.port p) m) (bit (s.ringCfg (s.dring (s.portOwner p) m)) 8)

/-- Distance of ring m after the ring served last, round-robin. -/
def turn (x : Port) (m : RingNo) : Nat := (m.val + 63 - x.lastRing % 64) % 64

/-- Ring n is the one to be served: no source that stands before it under R181 waits for certain. -/
def State.ringTurn (s : State) (p : PortId) (n : RingNo) : Bool :=
  let x := s.port p
  let h := heldByRing x n
  (s.txRings p).all (fun m => m == n || !s.ringWaits p m ||
    (let hm := heldByRing x m
     if (hm == 0) == (h == 0) then decide (turn x n < turn x m) else h == 0))

/-- The send-object source may take a slot now: where it holds one already, the rings that hold none and have a frame waiting come first
(R181, R182). -/
def State.sendMayTake (s : State) (p : PortId) : Bool :=
  let h := heldByObj (s.port p)
  s.mayTake p h false && (h == 0 || (s.txRings p).all (fun m => heldByRing (s.port p) m != 0 || !s.ringWaits p m))

/-- Lowest free slot. -/
def freeSlot (x : Port) : Nat := ((List.range 32).find? (fun i => x.cands.all (fun c => decide (c.slot ≠ i)))).getD 32

/-! ### The end of a candidate -/

/-- Status of each place in the table of R222 that a candidate without an attempt can end by. -/
def endingStatus : Nat → Byte
  | 1 => 0x30
  | 2 => 0x18
  | 4 => 0x16
  | 5 => 0x14
  | 8 => 0x12
  | 9 => 0x13
  | 10 => 0x14
  | 11 => 0x15
  | _ => 0x17

def sat8 (n : Nat) : Nat := min n 255

/-- INFO0 of a transmission (R204). -/
def txInfo0 (c : Cand) : Word := BitVec.ofNat 32 (sat8 c.attempts + 256 * sat8 c.arb)
/-- INFO1 of a TX_FRAME; 0 for a send object (R204). -/
def txInfo1 (c : Cand) : Half := if isObj c then 0 else BitVec.ofNat 16 (sat8 c.errors + 256 * lastErrCode c.lastErr)

/-- PENDING of a send object ends with its transmission (R153). -/
def State.clearPending (s : State) (d : Dom) : Source → State
  | .obj o => s.setObj d o.toNat { s.obj d o.toNat with pending := false }
  | .ring _ => s

/-- Candidate c leaves the set of p with a status: completion, PENDING and queue stamp. One that an ending takes is kept for as long as
a start decision may have chosen it, 100 µs and 12.5 ns at the longest bit time (R108, R192, R193). -/
def State.leaveSet (s : State) (p : PortId) (c : Cand) (status : Byte) (stamp : Option (BitVec 36) := none) : State :=
  let x := s.port p
  let gone := if c.ending.isSome && c.ready && inSet c then [c] else []
  let s := s.setPort p { x with
    cands := x.cands.filter (fun k => decide (k.slot ≠ c.slot))
    left := gone ++ x.left.filter (fun k => decide (s.raw.toNat ≤ k.endAt.toNat + 1600200)) }
  let s := s.clearPending c.op.dom c.src
  let s := if c.quiet then s else s.complete c.op status (txInfo0 c) (txInfo1 c) stamp (BitVec.ofNat 8 p.val)
  match stamp with
  | some st => if c.tsq then s.tsqStamp c.op 0 (BitVec.ofNat 8 p.val) st else s
  | none => s

/-! ### Lengths on the wire (R169, R509) -/

/-- T of a key slot as R509 takes it: 4 where the handle holds no key of the domain. -/
def State.trailer (s : State) (d : Dom) (h : Nat) : Nat :=
  match s.key h with
  | some k => if k.dom = d ∧ k.mac64 then 8 else 4
  | none => 4

/-- Payload length on the wire. -/
def State.wireLen (s : State) (c : Cand) : Nat :=
  match c.sealWith with
  | some h => c.len + 4 + s.trailer c.op.dom h.toNat
  | none => c.len

/-- The candidate with the length of this moment: a send object's may have been rewritten (R155). -/
def State.freshLen (s : State) (c : Cand) : Cand :=
  match c.src with
  | .obj o => { c with len := (s.obj c.op.dom o.toNat).len }
  | .ring _ => c

/-- No slot of the running traverse schedule of its group admits the candidate (R262). -/
def State.unslotted (s : State) (p : PortId) (c : Cand) : Bool :=
  match s.groupOf p with
  | some k => decide ((s.group k).state ≠ .stopped) && s.traverse k
      && !s.someSlot k c.frame.ident.toNat c.frame.ide (s.duration p c.frame (s.wireLen (s.freshLen c)))
  | none => false

/-- A pending send that waits takes a slot when one is free for the objects: it enters the set, or completes SLOT_MISSED where no slot of a
traverse table admits it (R181, R183, R189, R262). -/
def State.fillSlots (s : State) (p : PortId) : Nat → State
  | 0 => s
  | fuel + 1 =>
    let x := s.port p
    match x.cands.find? (fun c => !inSet c && c.ending.isNone) with
    | none => s
    | some w =>
      if !s.sendMayTake p then s
      else if s.unslotted p w then State.fillSlots (s.leaveSet p w 0x17) p fuel
      else
        let enter := fun c : Cand => if c.slot = w.slot then { c with slot := freeSlot x, order := x.nextOrder, since := s.raw } else c
        State.fillSlots (s.setPort p { x with cands := x.cands.map enter, nextOrder := x.nextOrder + 1 }) p fuel

/-- Candidate c leaves the set of p with a status, and the next pending send takes the slot. -/
def State.endCand (s : State) (p : PortId) (c : Cand) (status : Byte) (stamp : Option (BitVec 36) := none) : State :=
  (s.leaveSet p c status stamp).fillSlots p 32

/-- The candidate that an attempt on the wire sends. -/
def onWireSlot (x : Port) : Option Nat :=
  match x.onWire with
  | some { what := .cand i, .. } => some i
  | _ => none

/-- A candidate at a slot of the port. -/
def candAt (x : Port) (i : Nat) : Option Cand := x.cands.find? (fun c => decide (c.slot = i))

/-- An ending event arrives at a raw instant for the candidates chosen by f; those on the wire are left to the end of their attempt
(R223, R224). -/
def addEnding (raw : DWord) (x : Port) (rank : Nat) (f : Cand → Bool) : Port :=
  { x with cands := x.cands.map (fun c =>
      if f c && decide (onWireSlot x ≠ some c.slot) then
        match c.ending with
        | some r => { c with ending := some (min r rank) }
        | none => { c with ending := some rank, endAt := raw }
      else c) }

/-- The candidate waits for the spare: its port has no engine, and is STOPPED, or its attempt was destroyed, or its outcome stands in
the record (R106, R398, R399). -/
def State.waitsSpare (s : State) (p : PortId) (c : Cand) : Bool :=
  let x := s.port p
  (s.spur.attached[p]).isNone && (x.state == .stopped || c.destroyed || x.record.any (fun r => r.order == c.order && !r.settled))

/-- The settling of R224 for one port: every candidate with an ending completes with the status that stands highest; pending sends take
the slots that they may (R181). -/
def State.settlePort (s : State) (p : PortId) : State :=
  let x := s.port p
  ((x.cands.filter (fun c => c.ending.isSome && decide (onWireSlot x ≠ some c.slot) && !s.waitsSpare p c)).foldl
    (fun s c => s.endCand p c (endingStatus (c.ending.getD 0))) s).fillSlots p 32

/-- The settling of R224. -/
def State.settle (s : State) : State := portIds.foldl (fun s p => s.settlePort p) s

/-- The next whole microsecond of the raw counter. -/
def State.nextUs (s : State) : DWord := BitVec.ofNat 64 ((s.raw.toNat / 16000 + 1) * 16000)

/-- RAW moved on to an instant that a command names; it never decreases and stands still before the first lock (R273, log 2). The endings
that have arrived are settled at the first whole microsecond that it reaches (R224). -/
def State.advance (s : State) (raw : DWord) : State :=
  if s.tmu.started && decide (s.raw < raw) then
    let s := if s.nextUs ≤ raw then State.settle { s with tmu := { s.tmu with raw := s.nextUs } } else s
    { s with tmu := { s.tmu with raw := raw } }
  else s

/-- RAW moved on to the end of a time of n sixteenths of a nanosecond that began at a raw instant. -/
def State.waitFrom (s : State) (start : DWord) (n : Nat) : State := s.advance (after start n)

/-- A candidate enters the set of p, or completes SLOT_MISSED where no slot of a traverse table admits it; one that must wait for a slot
enters later (R178, R183, R262). -/
def State.enterSet (s : State) (p : PortId) (c : Cand) (wait : Bool) : State :=
  let x := s.port p
  let c := { c with slot := if wait then 32 + x.nextOrder else freeSlot x, order := x.nextOrder, since := s.raw }
  let s := s.setPort p { x with cands := x.cands ++ [c], nextOrder := x.nextOrder + 1 }
  if !wait && s.unslotted p c then s.endCand p c 0x17 else s

/-! ### The end of a moderation gap; sources of an offline core (R429, R431) -/

/-- The raw instant from which a held message may go: the shortest gap among the classes of the sources that wait. -/
def State.gapEnd (s : State) (d : Dom) (t : Nat) (due : List Nat) : DWord :=
  match Tbl.get none s.evc.lastMsg (tgtKey d t) with
  | none => s.raw
  | some r => after r (us (((due.map (fun x => s.gap d t (s.srcClass d x))).min?).getD 0))

/-- Sources of a target whose message is held back, and which are still due there. -/
def State.heldDue (s : State) (d : Dom) (t : Nat) : List Nat :=
  (Tbl.get [] s.evc.heldMsgs (tgtKey d t)).filter (fun x => decide (x ∈ s.dueSources d) && s.srcTarget d x == t)

/-- MODERATION_GAP_END: a held message or vector goes once its gap has run (R429). -/
def execModerationGapEnd (d : Dom) (t : GapTarget) (s : State) : Result :=
  match t with
  | .claim t =>
    if Tbl.get [] s.evc.heldMsgs (tgtKey d t.val) = [] then .next s
    else
      let due := s.heldDue d t.val
      if due.isEmpty then .next { s with evc := { s.evc with heldMsgs := Tbl.put [] s.evc.heldMsgs (tgtKey d t.val) [] } }
      else finish ((s.advance (s.gapEnd d t.val due)).message d t.val due)
  | .vector u =>
    let held := Tbl.get (0, []) s.evc.heldVecs (vecCode u)
    if held.2 = [] then .next s
    else match s.vecChosen u held.1 held.2 with
      | none => .next { s with evc := { s.evc with heldVecs := Tbl.put (0, []) s.evc.heldVecs (vecCode u) (0, []) } }
      | some x => finish ((s.advance (s.vecGapEnd u x.cls.toNat)).sendVector u held.1 x)

/-- OFFLINE_FALLBACK: a source of a HALTED or FAULTED core that has been deliverable for 1 µs goes to the core's fallback (R431). -/
def execOfflineFallback (c : CoreId) (x : OfflineSource) (s : State) : Result :=
  let st := (s.core c).state
  if (st = CState.halted ∨ st = CState.faulted) ∧ (c, x.src) ∉ s.evc.fallback then
    let s := s.advance (after x.since (us 1))
    finish { s with evc := { s.evc with fallback := (c, x.src) :: s.evc.fallback } }
  else .next s

end Sys2Proof.Machine
end

