-- ==== Sys2Proof/Machine/PortOps.lean ====
section
/-! DEFINITION. Passages of a field port and of a star group between states: START checks, stop, hold, bus-off, members
(R102 to R109, R118, R124 to R129, R212 to R215, R230, R238, R245). -/
namespace Sys2Proof.Machine

/-! ### Small operations -/

/-- Event bits of FPn_EVT. -/
def State.portEvt (s : State) (p : PortId) (i : Nat) : State := s.raise (.port p .evt) i
/-- Event bits of GRPk_EVT. -/
def State.grpEvt (s : State) (k : GrpId) (i : Nat) : State := s.raise (.grp k .evt) i
/-- The port shows a state; STATE_CHG where it changed (FPn_EVT). -/
def State.showPort (s : State) (p : PortId) (x : Port) : State :=
  let old := (s.port p).state
  let s := s.setPort p x
  if old = x.state then s else s.portEvt p 0
/-- A command not valid in the present state (R125). -/
def State.cmdRefused (s : State) (p : PortId) : State := s.portEvt p 5
/-- START, SLEEP or ENABLE refused with a code (R109, R125). -/
def State.cfgErr (s : State) (p : PortId) (code : Nat) : State :=
  (s.setPort p { s.port p with cfgCode := BitVec.ofNat 8 code }).portEvt p 4

def bankOf (p : PortId) : BankId := fin 4 (p.val / 8)
/-- The bank of a port is supplied (R101). -/
def State.bankOn (s : State) (p : PortId) : Bool := decide (s.dev.banks[bankOf p] ≠ 0)
/-- Entry 0 of the engine image store is present (R125, R488). -/
def State.imagePresent (s : State) : Bool := s.spur.images[(0 : Fin 4)].valid

def halted : PState → Bool
  | .off | .stopped | .sleep => true
  | _ => false

/-! ### START checks (R108, R109, R113, R118, R123, R311) -/

/-- FPn_MODE combination of R118 and R123; PXE has no part in it. -/
def comboOk (fd xl xles fast : Bool) : Bool :=
  if !xl then !fast else if xles then !fast else !fd

/-- Checks of R311 on the field-time settings. -/
def State.fieldTimeOk (s : State) (p : PortId) : Bool :=
  let c := Reg.port p .ftcfg
  let id := s.rf (.port p .ftid) 0 29
  let rq := s.rf (.port p .ftreq) 0 29
  !s.rb c 0 || (decide (10 ≤ s.rf c 16 16 ∧ s.rf c 16 16 ≤ 10000) && decide (s.rf c 8 6 ≠ 0) && decide (id ≠ rq)
    && (s.rb c 2 || decide (id ≤ 0x7FF ∧ rq ≤ 0x7FF)))

/-- The first failing check of START, 0 where all pass (R109). -/
def State.startCode (s : State) (p : PortId) : Nat :=
  let m := Reg.port p .mode
  let fd := s.rb m 3; let xl := s.rb m 4; let xles := s.rb m 6; let fast := s.rb m 7
  let fdTdc := fd && s.rb m 8; let xlTdc := xl && s.rb m 9
  let nbt := s.nbt p; let dbt := s.dbt p; let xbt := s.xbt p
  let pshort := s.rf (.port p .pwm) 0 16; let plong := s.rf (.port p .pwm) 16 16
  if !phaseOk nbt (s.rf (.port p .nbt) 24 8) (s.rf (.port p .nsjw) 0 21) 16000 1600000 128 then 1
  else if fd && !phaseOk dbt (s.rf (.port p .dbt) 16 8) (s.rf (.port p .dsjw) 0 16) 2000 (min nbt 65535) 96 then 2
  else if xl && !phaseOk xbt (s.rf (.port p .xbt) 16 8) (s.rf (.port p .xsjw) 0 16) (if fast then 800 else 1600) (min nbt 65535) 96 then 3
  else if (fdTdc && decide (32000 < s.rf (.port p .dsjw) 16 16)) || (xlTdc && decide (32000 < s.rf (.port p .xsjw) 16 16))
      || ((fdTdc || xlTdc) && decide (32000 < s.rf (.port p .tdcf) 0 16)) then 4
  else if fast && !(decide (pshort + plong = xbt) && decide (160 ≤ pshort) && decide (pshort < plong)) then 5
  else if !comboOk fd xl xles fast then 6
  else if !s.tmu.reflock then 7
  else if !s.bankOn p then 9
  else if !s.fieldTimeOk p then 10
  else 0

/-! ### Entering and leaving the bus -/

/-- A forced self-test of the port has started and is not over (R471). -/
def State.underTest (s : State) (p : PortId) : Bool :=
  match s.cairn.test with
  | some t => t.started && t.kind == 0 && t.index == p.val && t.force
  | none => false

/-- A port takes part in the bus after a START whose checks pass (R125); one whose engine is lost does so ISOLATED (R125, R230; DEDUCED,
log 67). -/
def State.portGoes (s : State) (p : PortId) : State :=
  let x := s.port p
  let st := if s.testMode p = 0 then PState.startup else PState.test
  let lost := (s.spur.attached[p]).isNone
  s.showPort p { x with
    state := if lost then .isolated else st, prior := if lost then st else .off, tec := 0, rec_ := 0, promoteCnt := 0, joined := false, busIdle := false, seqOn := false,
    boAuto := false, stopPending := false, refStop := false, wakeArmed := false, integ := false, left := [],
    ft := { x.ft with beaconDue := false, followUp := none, delayResp := [], pollOpen := false } }

/-- Any hold of the port is cleared; a HOLD that waits completes ABORTED_STOP (R125, R128). -/
def State.clearHold (s : State) (p : PortId) : State :=
  let x := s.port p
  let s := match x.holdWaiter with
    | some o => s.complete o 0x14
    | none => s
  s.setPort p { s.port p with holdPending := none, holdWaiter := none, holdEnd := none, holdKept := none, holdReturn := .off }

/-- The port passes to STOPPED: its operations end at a place of R222, holds are cleared, FPn_TXSTAT and FPn_TXHEAD reset
(R126, R103, R106, R196, R219). A frame that an ISOLATED port has on the wire is finished (R126, R194, R223); the loss of a bank cuts it
(R103). -/
def State.toStopped (s : State) (p : PortId) (rank : Nat) : State :=
  let s := s.clearHold p
  let x := { s.port p with onWire := if (s.port p).state = .isolated ∧ rank ≠ 5 then (s.port p).onWire else none }
  let x := addEnding s.raw x rank (fun _ => true)
  let s := s.showPort p { x with
    state := .stopped, prior := .off, boAuto := false, seqOn := false, joined := false, busIdle := false, stopPending := false,
    integ := false, left := [], refStop := false, ackRun := 0, lone := false, suspend := false, lastErr := none, lastErrTx := false,
    ft := { x.ft with beaconDue := false, followUp := none, delayResp := [], pollOpen := false } }
  -- a takeover in progress for the port goes on (R402)
  s

/-! ### Holds of a port (R128, R129) -/

/-- The raw end of a hold of t microseconds from now; FFFFFFFFh has none (R129). -/
def State.holdDue (s : State) (t : Word) : Option DWord := if t = 0xFFFFFFFF then none else some (after s.raw (us t.toNat))

/-- A hold takes effect in a running port (R125). -/
def State.enterHold (s : State) (p : PortId) (t : Word) : State :=
  let x := s.port p
  let due := s.holdDue t
  let s := s.showPort p { x with state := .hold, prior := x.state, holdPending := none, holdWaiter := none, holdEnd := due }
  match x.holdWaiter with
  | some o => s.complete o 0x00
  | none => s

/-- A held port returns to PRIOR (R125). -/
def State.leaveHold (s : State) (p : PortId) : State :=
  let x := s.port p
  s.showPort p { x with state := x.prior, prior := .off, holdEnd := none }

/-- A pending hold takes effect as the port enters a state in which it can (R125, R128). -/
def State.holdArrives (s : State) (p : PortId) : State :=
  match (s.port p).holdPending with
  | some t => if running (s.port p).state then s.enterHold p t else s
  | none => s

/-- A HOLD of a port with time t (R128); op is the command that completes, none for the hold of a reset (R57, R60). In SLEEP with a hold
pending, TIME other than 0 replaces the pending time and completes DONE (DESIGN CHOICE, log 50). -/
def State.holdPort (s : State) (p : PortId) (t : Word) (op : Option Op) : State :=
  let x := s.port p
  let done (s : State) (st : Byte) : State := match op with
    | some o => s.complete o st
    | none => s
  let cancel (s : State) : State :=
    let s := match x.holdWaiter with
      | some o => s.complete o 0x00
      | none => s
    s.setPort p { s.port p with holdPending := none, holdWaiter := none }
  if (s.groupOf p).isSome then done s 0x33
  else if x.state = .hold then
    if t = 0 then done (s.leaveHold p) 0x00 else done (s.setPort p { x with holdEnd := s.holdDue t }) 0x00
  else if x.state = .sleep ∧ op.isNone ∧ t ≠ 0 then
    -- R60: a sleeping port with AUTOSTART is held as it arrives
    if s.rb (.port p .sleep) 2 then s.setPort p { x with holdPending := some t } else s
  else if x.holdPending.isSome ∧ x.state ≠ .off ∧ x.state ≠ .stopped then
    if t = 0 then done (cancel s) 0x00 else done (s.setPort p { x with holdPending := some t }) 0x00
  else if halted x.state then done s 0x33
  else if t = 0 then done s 0x00
  else if running x.state then s.setPort p { x with holdPending := some t, holdWaiter := op }
  else done (s.setPort p { x with holdPending := some t }) 0x00

/-! ### Bus-off (R125, R214, R215) -/

/-- TEC has passed 255: BUSOFF, with the FLUSH policy read at entry. -/
def State.enterBusoff (s : State) (p : PortId) : State :=
  let x := s.port p
  let deciding := if x.state = .isolated then (if x.prior = .hold then x.holdReturn else x.prior) else if x.state = .hold then x.prior else x.state
  let auto := decide (deciding ≠ .normal)
  let kept : Option Word := if x.state = .isolated ∧ x.prior = .hold then x.holdPending <|> x.holdKept else x.holdPending
  let fl := s.rb (.port p .mode) 11
  let s := s.countPort p 0x8C
  let s := s.showPort p { x with
    state := .busoff, boAuto := auto, prior := if auto then deciding else .off, seqOn := auto, seqAt := s.raw, integ := false,
    tec := 256, flush := fl,
    holdPending := kept, holdEnd := none, holdKept := none, holdReturn := .off, suspend := false, busIdle := false }
  let s := if fl then s.setPort p (addEnding s.raw (s.port p) 11 (fun _ => true)) else s
  let s := s.record (domCode (s.portOwner p)) 3 false 0x03 0x01 (BitVec.ofNat 32 p.val) (BitVec.ofNat 32 (256 + 65536 * x.rec_ + 2 ^ 25))
  s.portEvt p 1

/-! ### Promotion (R124, R230, R245) -/

/-- A frame counts towards promotion (R124); the state becomes NORMAL where PROMOTE is reached. Past 31 the count stays at 31 (DESIGN
CHOICE, log 51). -/
def State.promote (s : State) (p : PortId) : State :=
  let x := s.port p
  if x.state = .hold ∨ halted x.state ∨ 96 ≤ x.tec then s
  else
    let n := x.promoteCnt + 1
    let need := max 1 (s.rf (.port p .mode) 16 5)
    if (x.state = .startup ∨ x.state = .recovery) ∧ need ≤ n then s.showPort p { x with promoteCnt := min n 31, state := .normal }
    else s.setPort p { x with promoteCnt := min n 31 }

/-- PROMOTE_CNT is 0 whenever TEC is 96 or more (R124). -/
def demote (x : Port) : Port := if 96 ≤ x.tec then { x with promoteCnt := 0 } else x

/-! ### Star groups: states of the group and of its members (R230, R245) -/

/-- The state that a member other than the anchor shows (R230). -/
def State.memberShows (s : State) (k : GrpId) (b : Nat) : PState :=
  let g := s.group k
  if g.state = .stopped ∨ (g.branches[fin 16 b]).state = .out then .stopped
  else match g.state with
    | .normal => .normal
    | .hold => .hold
    | _ => .startup

/-- Members other than the anchor follow the group; a member whose engine is lost shows ISOLATED while its branch takes part (R230). -/
def State.syncMembers (s : State) (k : GrpId) : State :=
  ((s.members k).zipIdx.drop 1).foldl (fun s e =>
    let st := s.memberShows k e.2
    let x := s.port e.1
    if (s.spur.attached[e.1]).isNone ∧ st ≠ .stopped then s.showPort e.1 { x with state := .isolated, prior := st }
    else s.showPort e.1 { x with state := st, prior := if st ≠ .hold then PState.off else if (s.group k).prior = .normal then .normal else .startup }) s

/-- The group passes to a state (R245). -/
def State.groupGoes (s : State) (k : GrpId) (g : Group) : State :=
  let old := (s.group k).state
  let s := s.setGroup k g
  let s := if old = g.state then s else s.grpEvt k 0
  s.syncMembers k

/-- The effective state: PRIOR while the group is held. -/
def gPhase (g : Group) : GState := if g.state = .hold then g.prior else g.state

/-- The group's PROMOTE_CNT rises (R245). -/
def State.promoteGroup (s : State) (k : GrpId) : State :=
  let g := s.group k
  if g.state = .stopped ∨ g.state = .joining then s
  else
    let n := min 31 (g.promoteCnt + 1)
    let need := max 1 (s.rf (.grp k .cfg) 12 5)
    if g.state = .startup ∧ need ≤ n then s.groupGoes k { g with promoteCnt := n, state := .normal }
    else s.setGroup k { g with promoteCnt := n }

/-- LEADER changes (R269, GRPk_STATE). -/
def State.setLeader (s : State) (k : GrpId) (l : Nat) : State :=
  let g := s.group k
  if g.leader = l then s else ((s.setGroup k { g with leader := l }).grpEvt k 4).grpEvt k 0

/-- ISOLATED branches start their rejoin sequence (R241). -/
def startRejoins (raw : DWord) (g : Group) : Group :=
  { g with branches := g.branches.map (fun b => if b.state = .isolated ∧ !b.seqOn then { b with seqOn := true, seqAt := raw } else b) }

/-- COL_TRAVEL in units of 100 µs (FPn_PAIR). -/
def State.colTravel (s : State) (k : PairId) : Nat := max 1 (s.rf (.port (evenPort k) .pair) 8 8)

/-- Star relaying of a pair ends: its branches leave the joined bus, and STATE_CHG is set where one changes (R135, GRPk_EVT). -/
def State.unjoinPair (s : State) (q : PairId) : State :=
  match s.groupOf (evenPort q) with
  | none => s
  | some k =>
    let g := s.group k
    let ms := s.members k
    let hit : Fin 16 → Bool := fun b => ((ms[b.val]?).map (fun p => decide (pairOf p = q))).getD false && decide ((g.branches[b]).state = .joined)
    let s := s.setGroup k { g with branches := Vector.ofFn (fun b => if hit b then { g.branches[b] with state := .joining } else g.branches[b]) }
    if (List.finRange 16).any hit then s.grpEvt k 0 else s

/-- Withdrawal of a pair: relaying ends, the coil is released, INSERTED is 0 (R135). -/
def State.withdrawPair (s : State) (k : PairId) : State :=
  let s := if s.inline k then s.unjoinPair k else s
  let x := s.pairs[k]
  let s := { s with pairs := s.pairs.set k {} }
  if x.inserted then s.portEvt (evenPort k) 0 else s

/-- Withdrawal of every in-line pair of a group. -/
def State.withdrawPairs (s : State) (k : GrpId) : State :=
  ((List.finRange 16).filter (fun q => s.inline q && s.groupOf (evenPort q) == some k)).foldl (fun s q => s.withdrawPair q) s

/-- Any hold of the group is cleared; a HOLD that waits completes ABORTED_STOP (R128, R247). -/
def State.clearGroupHold (s : State) (k : GrpId) : State :=
  let g := s.group k
  let s := match g.holdWaiter with
    | some o => s.complete o 0x14
    | none => s
  s.setGroup k { s.group k with holdPending := none, holdWaiter := none, holdEnd := none }

/-- The group enters STOPPED; the anchor's operations end at a place of R222 (R245). -/
def State.stopGroup (s : State) (k : GrpId) (rank : Nat) : State :=
  let s := s.clearGroupHold k
  let s := s.withdrawPairs k
  let s := s.toStopped (s.anchor k) rank
  let g := s.group k
  s.groupGoes k { g with
    state := .stopped, prior := .stopped, stopPending := false, refStop := false, leader := 15, frame := none, windows := false,
    role := .none_, refSend := none, branches := g.branches.map (fun b => { b with state := .joining, seqOn := false, ignored := false }) }

/-- A hold of the group takes effect: the device's node starts no data frame, the anchor shows HOLD (R245, R247, log 20). -/
def State.enterGroupHold (s : State) (k : GrpId) (t : Word) : State :=
  let g := s.group k
  let s := s.groupGoes k { g with state := .hold, prior := g.state, holdPending := none, holdWaiter := none, holdEnd := s.holdDue t }
  let a := s.port (s.anchor k)
  let s := if running a.state then s.showPort (s.anchor k) { a with state := .hold, prior := a.state } else s
  match g.holdWaiter with
  | some o => s.complete o 0x00
  | none => s

/-- A held group returns to PRIOR (R245). -/
def State.leaveGroupHold (s : State) (k : GrpId) : State :=
  let g := s.group k
  let s := s.groupGoes k { g with state := g.prior, prior := .stopped, holdEnd := none }
  let a := s.port (s.anchor k)
  let s := if a.state = .hold then s.showPort (s.anchor k) { a with state := a.prior, prior := .off }
    else if a.state = .isolated ∧ a.prior = .hold then s.setPort (s.anchor k) { a with prior := a.holdReturn }
    else s
  -- a count that reached G_PROMOTE during the hold promotes here
  let g := s.group k
  if g.state = .startup ∧ max 1 (s.rf (.grp k .cfg) 12 5) ≤ g.promoteCnt then s.groupGoes k { g with state := .normal } else s

/-- A pending hold of the group takes effect in COLDSTART, STARTUP or NORMAL (R60, R245). -/
def State.groupHoldArrives (s : State) (k : GrpId) : State :=
  let g := s.group k
  match g.holdPending with
  | some t => if g.state = .coldstart ∨ g.state = .startup ∨ g.state = .normal then s.enterGroupHold k t else s
  | none => s

/-- A HOLD of a group with time t (R247); op is the command that completes, none for the hold of a reset (R248, R60). -/
def State.holdGroup (s : State) (k : GrpId) (t : Word) (op : Option Op) : State :=
  let g := s.group k
  let done (s : State) (st : Byte) : State := match op with
    | some o => s.complete o st
    | none => s
  let cancel (s : State) : State :=
    let s := match g.holdWaiter with
      | some o => s.complete o 0x00
      | none => s
    s.setGroup k { s.group k with holdPending := none, holdWaiter := none }
  if g.state = .stopped then done s 0x33
  else if g.state = .hold then
    if t = 0 then done (s.leaveGroupHold k) 0x00 else done (s.setGroup k { g with holdEnd := s.holdDue t }) 0x00
  else if g.state = .joining then
    if op.isNone ∧ t ≠ 0 then s.setGroup k { g with holdPending := some t }
    else if g.holdPending.isSome ∧ t = 0 then done (cancel s) 0x00
    else done s 0x33
  else if g.holdPending.isSome then
    if t = 0 then done (cancel s) 0x00 else done (s.setGroup k { g with holdPending := some t }) 0x00
  else if t = 0 then done s 0x00
  else s.setGroup k { g with holdPending := some t, holdWaiter := op }

/-- The port passes to another domain: what is pending of a hold is cleared, and a hold without end that is in force, or that ISOLATED keeps,
ends (R60, R128, R129). -/
def State.reassignPort (s : State) (p : PortId) : State :=
  let x := s.port p
  if x.state = .hold then (if x.holdEnd.isNone ∧ (s.groupOf p).isNone then s.leaveHold p else s)
  else if x.state = .isolated ∧ x.prior = .hold then
    (if x.holdKept.isSome then s else (s.clearHold p).setPort p { (s.clearHold p).port p with prior := x.holdReturn })
  else s.clearHold p

/-- The same of a group (R247). -/
def State.reassignGroup (s : State) (k : GrpId) : State :=
  let g := s.group k
  if g.state = .hold then (if g.holdEnd.isNone then s.leaveGroupHold k else s) else s.clearGroupHold k

end Sys2Proof.Machine
end

