-- ==== Sys2Proof/Machine/RxOps.lean ====
section
/-! DEFINITION. Staging and delivery into RX rings (R84, R86, R87, R89, R136). -/
namespace Sys2Proof.Machine

/-! ### Staging shares (R87, R136) -/

/-- Spaces of a share: FP0 to FP31, then EP0 to EP3; frames of the fabric, 36, draw on none. -/
def State.share (s : State) (b : Nat) : List Space :=
  if b < 32 then (s.port (fin 32 b)).spaces else if b < 36 then (s.eth (fin 4 (b - 32))).spaces else []
def State.setShare (s : State) (b : Nat) (sp : List Space) : State :=
  if b < 32 then s.setPort (fin 32 b) { s.port (fin 32 b) with spaces := sp }
  else if b < 36 then s.setEth (fin 4 (b - 32)) { s.eth (fin 4 (b - 32)) with spaces := sp } else s
/-- Units of 64 bytes that a frame of n payload bytes takes. -/
def stageUnits (n : Nat) : Nat := (16 + n + 63) / 64
def usedUnits (sp : List Space) : Nat := sp.foldl (fun n x => n + x.units) 0

/-- A space for n payload bytes in a share of limit units: its number, or none where the share is too full (R87). -/
def State.takeSpace (s : State) (b limit n : Nat) : Option (Nat × State) :=
  if limit < usedUnits (s.share b) + stageUnits n then none
  else if b < 32 then
    let x := s.port (fin 32 b)
    some (x.nextSpace, s.setPort (fin 32 b) { x with spaces := x.spaces ++ [⟨x.nextSpace, stageUnits n, 1⟩], nextSpace := x.nextSpace + 1 })
  else
    let x := s.eth (fin 4 (b - 32))
    some (x.nextSpace, s.setEth (fin 4 (b - 32)) { x with spaces := x.spaces ++ [⟨x.nextSpace, stageUnits n, 1⟩], nextSpace := x.nextSpace + 1 })

/-- One more delivery holds the space. -/
def State.useSpace (s : State) (b i : Nat) : State :=
  s.setShare b ((s.share b).map (fun x => if x.id = i then { x with users := x.users + 1 } else x))

/-- One delivery or the evaluation has ended; the last releases the space (R87). -/
def State.freeSpace (s : State) (b i : Nat) : State :=
  s.setShare b (((s.share b).map (fun x => if x.id = i then { x with users := x.users - 1 } else x)).filter (fun x => decide (x.users ≠ 0)))

/-! ### RX rings (R84, R86) -/

/-- Buffer size of a ring (RNG_CFG.BUFCLASS). -/
def bufSize (cfg : DWord) : Nat := 256 * 2 ^ fld cfg 21 3

/-- The receive-drop counter of the share's port (R86). -/
def State.countNoBuf (s : State) (b : Nat) : State := 
  if b < 32 then s.countPort (fin 32 b) 0x90 else if b < 36 then s.countEth (fin 4 (b - 32)) 0x5C else s

/-- A frame of the ring is dropped whole: taken buffers return with a status (R71, R86). -/
def State.dropWait (s : State) (d : Dom) (n : RingNo) (w : RxWait) (status : Byte) : State :=
  let s := w.taken.foldl (fun s b => s.returnBuffer d n b.1 status) s
  s.freeSpace w.block w.space

/-- The counters of a frame dropped for lack of buffers or room (R86). -/
def State.countDrop (s : State) (d : Dom) (n : RingNo) (w : RxWait) : State :=
  let i := s.dring d n
  (s.setRing i { s.ring i with drops := (s.ring i).drops + 1 }).countNoBuf w.block

/-- Data and entries of a frame that has all its buffers (R84): chunk by chunk, MORE in all but the last. -/
def State.writeBuffers (s : State) (d : Dom) (n : RingNo) (w : RxWait) (size : Nat) : List (Half × DWord) → List Byte → State
  | [], _ => s
  | b :: rest, bs =>
    let chunk := bs.take size
    let s := s.hostWrite d b.2.toNat chunk
    let s := s.writeEntry d (s.cqOf d n)
      { tag := b.1, status := w.status, num := n, more := !rest.isEmpty, info0 := w.info0, stamp := w.stamp, port := w.port,
        info1 := BitVec.ofNat 16 chunk.length } false
    State.writeBuffers s d n w size rest (bs.drop size)

/-- Buffers posted to the ring are taken by its oldest frame; a frame with all its buffers and CQ room is delivered; a posted
buffer outside the windows returns DMA_WINDOW when it is reached (R84, R86, R89). -/
def State.serveRx (s : State) (d : Dom) (n : RingNo) : Nat → State
  | 0 => s
  | fuel + 1 =>
    let i := s.dring d n
    let r := s.ring i
    let size := bufSize (s.ringCfg i)
    match r.frames with
    | [] => s
    | w :: later =>
      let need := (w.bytes.length + size - 1) / size
      if w.taken.length < need then
        match r.posted with
        | [] => s
        | b :: more =>
          if s.inWindow d b.2.toNat size false true then
            State.serveRx (s.setRing i { r with posted := more, frames := { w with taken := w.taken ++ [b] } :: later }) d n fuel
          else State.serveRx ((s.setRing i { r with posted := more }).returnBuffer d n b.1 0x30) d n fuel
      else
        let cq := s.cqOf d n
        if s.ringOn d cq 3 && (s.ring (s.dring d cq)).wait.isEmpty && decide (need ≤ s.room d cq) then
          let s := s.setRing i { r with frames := later }
          let s := s.writeBuffers d n w size w.taken w.bytes
          State.serveRx (s.freeSpace w.block w.space) d n fuel
        else s

/-- Serving a ring to the end of what can be done now. -/
def State.serve (s : State) (d : Dom) (n : RingNo) : State :=
  let r := s.ring (s.dring d n)
  s.serveRx d n (r.frames.length + r.posted.length + 1)

/-- BUF_WAIT as it acts (RNG_RXCFG). -/
def State.bufWait (s : State) (d : Dom) (n : RingNo) : Nat := min 1000 (s.rf (ringReg (s.dring d n) .rxcfg) 0 10)

/-- The oldest frame of the ring is dropped whole, NOBUF_DROP, and counted (R86). -/
def State.dropOldest (s : State) (d : Dom) (n : RingNo) : State :=
  let i := s.dring d n
  match (s.ring i).frames with
  | [] => s
  | w :: later =>
    let s := (s.setRing i { s.ring i with frames := later }).dropWait d n w 0x20
    s.countDrop d n w

/-- A frame is sent to an RX ring (R86): it is delivered, waits since it was complete in staging, or is dropped at once where BUF_WAIT is 0. -/
def State.deliver (s : State) (d : Dom) (n : RingNo) (w : RxWait) : State :=
  let i := s.dring d n
  let s := s.useSpace w.block w.space
  let r := s.ring i
  let s := s.setRing i { r with frames := r.frames ++ [w] }
  let s := s.serve d n
  if s.bufWait d n = 0 ∧ (s.ring i).frames ≠ [] then s.dropOldest d n else s

/-- The RX rings of a domain that name a CQ are served once it has room. -/
def State.serveCq (s : State) (d : Dom) (cq : RingNo) : State :=
  (List.finRange 64).foldl (fun s n => if s.ringOn d n 1 && s.cqOf d n == cq then s.serve d n else s) s

/-- A read of CONS has shown room: waiting entries are written, then waiting frames (R83, R86). -/
def State.roomShown (s : State) (d : Dom) (cq : RingNo) : State :=
  (s.drain d cq (s.ring (s.dring d cq)).wait.length).serveCq d cq

/-! ### Reception on a field port (R87, R156, R400) -/

/-- Space for a received frame in the port's share of 96 units, then its place in the evaluation order (R87, R156). -/
def State.stageFrame (s : State) (p : PortId) (f : RxFrame) : State :=
  match s.takeSpace p.val 96 f.frame.data.length with
  | none => s.countPort p 0x94
  | some (i, s) => { s with rxq := s.rxq ++ [(p, { f with space := i, done := s.raw })] }

/-- A frame of an ISOLATED port enters its FIFO of 4; a fifth is acknowledged and dropped (R400). -/
def State.pushFifo (s : State) (p : PortId) (f : RxFrame) : State :=
  let x := s.port p
  if x.fifo.length < 4 then s.setPort p { x with fifo := x.fifo ++ [f] } else s.countPort p 0xA8

end Sys2Proof.Machine
end

