-- ==== Sys2Proof/Machine/GwOps.lean ====
section
/-! DEFINITION. Gateway rules and the queue of their inputs (R410, R413, R415, R136). -/
namespace Sys2Proof.Machine

/-- n bits of bytes 0 to 23 of a rule from bit lo of byte i. -/
def gwFld (r : Rule) (i lo n : Nat) : Nat := (r.body.toNat >>> (8 * i + lo)) % 2 ^ n
def gwValid (r : Rule) : Bool := r.body.getLsbD 0
def gwInRoute (r : Rule) : Bool := r.body.getLsbD 1
def gwOutRoute (r : Rule) : Bool := r.body.getLsbD 2
def gwStrip (r : Rule) : Nat := gwFld r 0 3 2
def gwInDom (r : Rule) : Nat := gwFld r 1 0 4
def gwOutDom (r : Rule) : Nat := gwFld r 1 4 4
def gwIn (r : Rule) : Nat := gwFld r 2 0 16
def gwOut (r : Rule) : Nat := gwFld r 4 0 16
def gwLen (r : Rule) : Nat := gwFld r 6 0 16
def gwGap (r : Rule) : Nat := gwFld r 8 0 16

def State.rule (s : State) (i : Fin 512) : Option Rule := Tbl.get none s.spur.rules i.val
def State.setRule (s : State) (i : Fin 512) (r : Option Rule) : State := { s with spur := { s.spur with rules := Tbl.put none s.spur.rules i.val r } }
def State.ruleDrop (s : State) (i : Fin 512) : State :=
  match s.rule i with
  | some r => s.setRule i (some { r with drops := r.drops + 1 })
  | none => s

/-- An input joins the gateway region of 16 KiB, or is counted in DROPS where the region is full (R136, R410, log 22). -/
def State.gwEnqueue (s : State) (i : Fin 512) (x : GwIn) : State :=
  let used := s.spur.inputs.foldl (fun n e => n + e.2.bytes.length) 0
  if 16384 < used + x.bytes.length then s.ruleDrop i
  else { s with spur := { s.spur with inputs := s.spur.inputs ++ [(i, x)] } }

/-- The side of a rule with domain dom and number n: a route entry must be one that the domain owns, and the domain must be active; no other
domain has a right to use it (R21, R23, R37, R38, log 56). -/
def State.gwSideOk (s : State) (isRoute : Bool) (dom n : Nat) : Bool :=
  s.active (fin 16 dom) && (!isRoute || (decide (n < 256) && decide (s.routeOwner n = dom)))
def State.gwInOk (s : State) (r : Rule) : Bool := s.gwSideOk (gwInRoute r) (gwInDom r) (gwIn r)
def State.gwOutOk (s : State) (r : Rule) : Bool := s.gwSideOk (gwOutRoute r) (gwOutDom r) (gwOut r)

/-- A frame written into the main slot of receive object o of domain d is an input of every rule that names it (R415). -/
def State.gwObject (s : State) (d : Dom) (o : Nat) (x : GwIn) : State :=
  (s.spur.rules.filter (fun e => match e.2 with
      | some r => gwValid r && !gwInRoute r && gwInDom r == d.val && gwIn r == o && s.gwInOk r
      | none => false)).foldl (fun s e => s.gwEnqueue (fin 512 e.1) x) s

/-- A ROUTED frame delivered to rule i: an input where the rule is VALID, its IN is the route entry, and the rule's IN_DOM owns that entry
(R37, R415, log 56). -/
def State.gwRouted (s : State) (i rtag : Nat) (x : GwIn) : Option State :=
  if h : i < 512 then
    match s.rule ⟨i, h⟩ with
    | some r => if gwValid r && gwInRoute r && gwIn r == rtag && s.gwInOk r then some (s.gwEnqueue ⟨i, h⟩ x) else none
    | none => none
  else none

end Sys2Proof.Machine
end

