-- ==== Sys2Proof/Machine/FabOps.lean ====
section
/-! DEFINITION. Ridgeline frames, credits, rings, origination and delivery (R342 to R351, R356, R366 to R372, R377, R378). -/
namespace Sys2Proof.Machine

def linkIds : List LinkId := List.finRange 4

/-- Kinds of R343. -/
def kHello : BitVec 3 := 0
def kTopo : BitVec 3 := 1
def kRouted : BitVec 3 := 2
def kSync : BitVec 3 := 3
def kReply : BitVec 3 := 4
def kMgmt : BitVec 3 := 5
/-- Classes: TIME 0, URGENT 1, BULK 2. -/
def cTime : BitVec 2 := 0
def cUrgent : BitVec 2 := 1

def State.serial (s : State) : DWord := s.belay.otp.serial
def State.fabOn (s : State) : Bool := s.rb (.fab .cfg) 0
def State.fabTtl (s : State) : Byte := BitVec.ofNat 8 (s.rf (.fab .cfg) 24 8)
def State.linkUp (s : State) (k : LinkId) : Bool := decide ((s.link k).state = .up)
/-- The link is of a ring (R370). -/
def State.ringMode (s : State) (k : LinkId) : Bool := if k.val < 2 then !s.rb (.fab .cfg) 2 else !s.rb (.fab .cfg) 3
/-- The other link of the ring of link k. -/
def otherLink (k : LinkId) : LinkId := fin 4 (if k.val % 2 = 0 then k.val + 1 else k.val - 1)
def State.fabEvt (s : State) (i : Nat) : State := s.raise (.fab .evt) i
/-- FAB_TOPO in D0 and in every tenant with ROUTE_USE (R357). -/
def State.fabTopo (s : State) : State :=
  tenants.foldl (fun s d => if s.active d && (s.entry d).routeUse then s.raise (.fn d .evcDstat) 2 else s) (s.fabEvt 0)

/-! ### Frames on the wire (R342, R343, R385) -/

/-- Header bytes 0 to 14. -/
def rlHead (f : RlFrame) : List Byte :=
  [f.dest, f.src] ++ beBytes 1 (f.cls.toNat * 64 + f.kind.toNat * 8) ++ [f.rtag] ++ beBytes 2 f.seqNo.toNat
    ++ beBytes 2 (f.version.toNat * 4096 + f.payload.length) ++ beBytes 1 (b2n f.twin + 2 * b2n f.wrapped) ++ [f.ttl]
    ++ beBytes 1 (f.stamp.toNat / 2 ^ 32) ++ beBytes 4 (f.stamp.toNat % 2 ^ 32)

/-- HCRC: CRC-8 with polynomial x^8 + x^2 + x + 1 from 00h (R343). -/
def hcrc (bs : List Byte) : Byte := BitVec.ofNat 8 (crcBytes 8 0x07 0 bs)

/-- The 16-byte header (R343). -/
def rlHeader (f : RlFrame) : List Byte := rlHead f ++ [hcrc (rlHead f)]

/-- Credits a frame needs (R349). -/
def rlCredits (len : Nat) (enc : Bool) : Nat := (20 + len + (if enc then 24 else 0) + 63) / 64
/-- Credits of the receive buffer of a class (R349). -/
def bufCredits (c : Nat) : Nat := if c = 0 then 64 else if c = 1 then 512 else 1024

/-- Credits of the peer that are free for a class (R350). -/
def freeCredits (l : Link) (c : Fin 3) : Nat := (l.granted[c] + 4096 - l.usedCr[c]) % 4096
def clsIx (c : BitVec 2) : Fin 3 := fin 3 (min c.toNat 2)
def rlFits (l : Link) (f : RlFrame) : Bool := decide (rlCredits f.payload.length l.encOn ≤ freeCredits l (clsIx f.cls))

/-- A report of one class, with the cumulative count modulo 4096 (R350). -/
def State.reportCredit (s : State) (k : LinkId) (c : Fin 3) : State :=
  s.emit (.credit k (BitVec.ofNat 2 c.val) (BitVec.ofNat 12 (s.link k).returned[c]))

/-- A frame leaves the receive buffer of link k: its credits return and are reported (R349, R350). -/
def State.returnCredit (s : State) (k : LinkId) (cls : BitVec 2) (len : Nat) : State :=
  let l := s.link k
  let c := clsIx cls
  (s.setLink k { l with returned := l.returned.set c ((l.returned[c] + rlCredits len l.encOn) % 4096) }).reportCredit k c

/-- A received frame leaves the buffer at once, by delivery or discard. -/
def State.rlDone (s : State) (k : LinkId) (f : RlFrame) : State := s.returnCredit k f.cls f.payload.length

/-! ### Sending (R351, R366, R367, R372) -/

def linkLocal (f : RlFrame) : Bool :=
  f.kind == kHello || f.kind == kSync || f.kind == kReply || (f.kind == kMgmt && f.payload.headD 0 == 0x10)

/-- A frame joins the queue of a link. -/
def State.pushLink (s : State) (k : LinkId) (from_ : Option LinkId) (f : RlFrame) : State :=
  s.setLink k { s.link k with queue := (s.link k).queue ++ [(from_, f)] }

/-- A copy of a frame with DEST 255 that arrived on link j still waits. -/
def State.copyWaits (s : State) (j : LinkId) (f : RlFrame) : Bool :=
  f.dest == 0xFF && linkIds.any (fun k => (s.link k).queue.any (fun e => e.1 == some j && { e.2 with wrapped := f.wrapped } == f))

/-- A frame has left a queue, sent or not: its credits return with the last of its copies (R349). -/
def State.dropFrom (s : State) (from_ : Option LinkId) (f : RlFrame) : State :=
  match from_ with
  | some j => if s.copyWaits j f then s else s.rlDone j f
  | none => s

/-- Kinds of frame that a wrap does not carry (R372). -/
def wrapDrops (f : RlFrame) : Bool := f.wrapped || f.twin || linkLocal f

/-- Link and frame of a frame that would leave on link k of a wrapped ring (R372). -/
def State.wrapTo (s : State) (k : LinkId) (f : RlFrame) : Option (LinkId × RlFrame) :=
  if (s.link k).wrapped && !wrapDrops f && s.linkUp (otherLink k) then some (otherLink k, { f with wrapped := true }) else none

/-- A frame that would leave on link k, not UP: wrapped onto the other link of its ring, or discarded (R372); counted in NOROUTE
on link c where no wrap can carry it. -/
def State.wrapOnto (s : State) (k c : LinkId) (from_ : Option LinkId) (f : RlFrame) : State :=
  match s.wrapTo k f with
  | some (o, g) => (s.countLink o 0x60).pushLink o from_ g
  | none => (if (s.link k).wrapped && wrapDrops f then s.countLink k 0x64 else s.countLink c 0x68).dropFrom from_ f

/-- Links of a route entry: PRIMARY, ALTERNATE. -/
def routeLink (v : BitVec 3) : Option LinkId := nth? 4 v.toNat

/-- A ROUTED frame of this device leaves on PRIMARY, or on ALTERNATE when PRIMARY is not UP; twins leave on both (R366, R372). -/
def State.originate (s : State) (rt : Route) (f : RlFrame) : State :=
  let one (s : State) (l : Option LinkId) : State :=
    match l with
    | some k => if s.linkUp k then s.pushLink k none f else s.wrapOnto k 0 none f
    | none => s.countLink 0 0x68
  if rt.twin then one (one s (routeLink rt.primary)) (routeLink rt.alternate)
  else match routeLink rt.primary, routeLink rt.alternate with
    | some p, some a => if s.linkUp p then one s (some p) else if s.linkUp a then one s (some a) else one s (some p)
    | some p, none => one s (some p)
    | none, a => one s a

/-- The link on which a frame in transit that arrived on link k is to leave: by its valid entry PRIMARY or, where that is not UP, ALTERNATE, and
without a valid entry the other link of its ring (R367). -/
def State.transitLink (s : State) (k : LinkId) (f : RlFrame) : Option LinkId :=
  let rt := s.route f.rtag.toNat
  let away := fun v : BitVec 3 => (routeLink v).filter (fun j => j ≠ k)
  let up := fun v : BitVec 3 => (away v).filter s.linkUp
  if rt.valid then up rt.primary <|> up rt.alternate <|> away rt.primary <|> away rt.alternate
  else if s.ringMode k then some (otherLink k) else none

/-- A frame in transit that arrived on link k (R347, R367, R372). -/
def State.transit (s : State) (k : LinkId) (f : RlFrame) : State :=
  let g := { f with ttl := f.ttl - 1 }
  match s.transitLink k f with
  | some j => if s.linkUp j then s.pushLink j (some k) g else s.wrapOnto j k (some k) g
  | none => (s.countLink k 0x68).rlDone k f

/-- A flooded frame leaves on every UP link but the one it arrived on, whose buffer it holds until the last copy has left (R349, R356). -/
def State.flood (s : State) (from_ : Option LinkId) (f : RlFrame) : State :=
  let ks := linkIds.filter (fun k => s.linkUp k && decide (some k ≠ from_))
  if ks.isEmpty then s.dropFrom from_ f else ks.foldl (fun s k => s.pushLink k from_ f) s

/-! ### Delivery (R368, R369) -/

/-- The sequence check of R369 for a frame that needs it: none where the frame is a duplicate. -/
def State.seqCheck (s : State) (f : RlFrame) : Option State :=
  let key := 256 * f.rtag.toNat + f.src.toNat
  if f.twin || f.dest == 0xFF then
    match Tbl.get none s.fab.last key with
    | some l =>
      let d := (f.seqNo - l).toNat
      if 1 ≤ d ∧ d ≤ 32767 then some { s with fab := { s.fab with last := Tbl.put none s.fab.last key (some f.seqNo) } } else none
    | none => some { s with fab := { s.fab with last := Tbl.put none s.fab.last key (some f.seqNo) } }
  else some s

/-- Conditions of R368 apart from the sequence check. -/
def State.deliverable_ (s : State) (f : RlFrame) : Bool :=
  let rt := s.route f.rtag.toNat
  rt.valid && (rt.dest == s.fab.addr || rt.dest == 0xFF) && (rt.src == 0 || rt.src == f.src) && decide (s.fab.addr ≠ 0)

/-- Delivery of a ROUTED frame to its owner's ring or gateway rule; c is the link that counts a refusal (R368, R415). -/
def State.deliverRouted (s : State) (c : LinkId) (f : RlFrame) : State :=
  let rt := s.route f.rtag.toNat
  let d : Dom := fin 16 (s.routeOwner f.rtag.toNat)
  if rt.toRule then
    match s.gwRouted rt.target.toNat f.rtag.toNat
      { bytes := f.payload, isSealed := decide (leAt f.payload 4 1 / 16 % 2 = 1), stamp := f.stamp } with
    | some s => s
    | none => s.countLink c 0x6C
  else
    match nth? 64 rt.target.toNat with
    | some n =>
      if s.ringOn d n 1 then
        s.deliver d n { bytes := f.payload, since := s.raw, info0 := BitVec.ofNat 32 (f.rtag.toNat + 65536 * f.payload.length), status := 0, stamp := some f.stamp,
                        port := 0xFF, block := 36, space := 0 }
      else s.countLink c 0x6C
    | none => s.countLink c 0x6C

/-- A ROUTED frame addressed here: delivered, refused or a duplicate, which is no delivery either; whether a broadcast goes on, which the same
test decides (R368, R369). -/
def State.arriveRouted (s : State) (c : LinkId) (f : RlFrame) : State × Bool :=
  match s.seqCheck f with
  | none => ((s.countLink c 0x70).countLink c 0x6C, false)
  | some t => (if s.deliverable_ f then t.deliverRouted c f else t.countLink c 0x6C, true)

/-- A ROUTE action or rule output on entry r: the frame is formed and sent, or delivered here (R361, R366). -/
def State.routeOut (s : State) (r : Nat) (bytes : List Byte) (stamp : BitVec 36) : State :=
  let rt := s.route r
  if s.fab.addr = 0 then s.countLink 0 0x68
  else
    let q := rt.seqTx + 1
    let s := s.setRoute r { rt with seqTx := q }
    let f : RlFrame :=
      { dest := rt.dest, src := s.fab.addr, cls := rt.cls, kind := kRouted, rtag := BitVec.ofNat 8 r, seqNo := q, version := 1, twin := rt.twin,
        wrapped := false, ttl := s.fabTtl, stamp := stamp, payload := bytes }
    if rt.dest = s.fab.addr then (s.arriveRouted 0 f).1
    else
      -- a broadcast of this device is not accepted back from the ring (R369)
      let s := if rt.twin || rt.dest == 0xFF then
          { s with fab := { s.fab with last := Tbl.put none s.fab.last (256 * r + s.fab.addr.toNat) (some q) } } else s
      s.originate rt f

/-! ### Fabric time: master and upstream (R377, R378) -/

/-- SERIAL, address and TPRIO of a TOPO payload. -/
def topoAddr (t : Topo) : Byte := t.payload.getD 8 0
def topoPrio (t : Topo) : Byte := t.payload.getD 9 0
def topoFlags (t : Topo) : Byte := t.payload.getD 11 0
def topoBoot (t : Topo) : Byte := t.payload.getD 10 0

/-- Serials that the UP records of a payload name (R355). -/
def topoNbrs (t : Topo) : List DWord :=
  ((List.range 4).filter (fun k => t.payload.getD (16 + 12 * k) 0 == 1)).map (fun k => BitVec.ofNat 64 (ofBe (slice t.payload (20 + 12 * k) 8)))

/-- The topology: payloads held that an UP record of another device confirms; this device's own records count (R356). -/
def State.topology (s : State) : List Topo :=
  s.fab.topo.filter (fun t => linkIds.any (fun k => s.linkUp k && (s.link k).nbr.serial == t.serial)
    || s.fab.topo.any (fun u => u.serial != t.serial && (topoNbrs u).contains t.serial))

def State.myPrio (s : State) : Byte := BitVec.ofNat 8 (s.rf (.fab .time) 0 8)

/-- The master of the topology: whether it is this device, its address, and its SERIAL where that is known (R377). -/
def State.electMaster (s : State) : Bool × Byte × Option DWord :=
  if s.rb (.fab .time) 8 then
    let m := BitVec.ofNat 8 (s.rf (.fab .time) 16 8)
    let me := decide (m ≠ 0) && m == s.fab.addr
    let known := if me then some s.serial else (s.topology.find? (fun t => decide (m ≠ 0) && topoAddr t == m)).map (·.serial)
    (me, m, known <|> (if m = s.fab.master then s.fab.masterSerial else none))
  else
    let all : List (Nat × Nat × Byte × Bool) :=
      (s.myPrio.toNat, s.serial.toNat, s.fab.addr, true) :: s.topology.map (fun t => ((topoPrio t).toNat, t.serial.toNat, topoAddr t, false))
    match (all.filter (fun x => decide (x.1 ≠ 255))).foldl (fun (b : Option (Nat × Nat × Byte × Bool)) x => match b with
        | none => some x
        | some y => if x.1 < y.1 ∨ (x.1 = y.1 ∧ x.2.1 < y.2.1) then some x else some y) none with
    | some x => (x.2.2.2, x.2.2.1, some (BitVec.ofNat 64 x.2.1))
    | none => (false, 0, none)

/-- The upstream link: lowest HOPS, then lowest number, never one that says UP_IS_YOU (R378). -/
def State.pickUpstream (s : State) : Option LinkId :=
  (linkIds.filter (fun k => s.linkUp k && !(s.link k).nbr.upIsYou && decide ((s.link k).nbr.hops ≠ 0xFF))).foldl
    (fun (b : Option LinkId) k => match b with
      | none => some k
      | some j => if (s.link k).nbr.hops.toNat < (s.link j).nbr.hops.toNat then some k else some j) none

/-- The time firmware, while its duty runs, names the servo's input: stream 6, or on the master its own reference, stream 0 (R294, R381, R410,
log 62). -/
def State.nameSource (s : State) : State :=
  if s.rb (.tmu .servo) 6 && s.dutyRuns 2 then s.setRf (.tmu .servo) 1 3 (if s.fab.isMaster then 0 else 6) else s

/-- Election and upstream anew; FAB_MASTER where the master, by address while it is fixed and else by SERIAL, or the upstream changed (R377, R378). -/
def State.fabricTime (s : State) : State :=
  let (me, m, who) := if s.fabOn then s.electMaster else (false, 0, none)
  let up := if me || !s.fabOn then none else s.pickUpstream
  let hops : Byte := if me then 0 else match up with
    | some k => if (s.link k).nbr.hops.toNat < 254 then (s.link k).nbr.hops + 1 else 0xFF
    | none => 0xFF
  let upN := (up.map (·.val)).getD 7
  let other := if s.rb (.fab .time) 8 then decide (s.fab.master ≠ m) else decide (s.fab.masterSerial ≠ who)
  let changed := other || decide (s.fab.isMaster ≠ me ∨ s.fab.upstream ≠ upN)
  let s := { s with fab := { s.fab with master := m, masterSerial := who, isMaster := me, hops := hops, upstream := upN } }.nameSource
  if changed then s.fabEvt 2 else s

/-! ### This device's TOPO (R355) -/

/-- The record of link k. -/
def State.linkRecord (s : State) (k : LinkId) : List Byte :=
  let l := s.link k
  if l.state = .up then [1, l.nbr.addr] ++ beBytes 1 l.nbr.link.toNat ++ [0] ++ beBytes 8 l.nbr.serial.toNat else List.replicate 12 0

/-- The 64-byte TOPO payload. -/
def State.topoPayload (s : State) : List Byte :=
  beBytes 8 s.serial.toNat ++ [s.fab.addr, s.myPrio, s.fab.boot]
    ++ beBytes 1 (b2n (s.rb (.fab .cfg) 1) + 2 * b2n s.fab.alloc) ++ List.replicate 4 0
    ++ linkIds.flatMap (fun k => s.linkRecord k)

/-- A frame that this device originates for link-local or flooded use. -/
def State.ownFrame (s : State) (dest : Byte) (kind : BitVec 3) (cls : BitVec 2) (q : Half) (ttl : Byte) (payload : List Byte) : RlFrame :=
  { dest := dest, src := s.fab.addr, cls := cls, kind := kind, rtag := 0, seqNo := q, version := 1, twin := false, wrapped := false, ttl := ttl,
    stamp := 0, payload := payload }

/-- The pair of a frame that this device floods is among those it drops when they return (R356). -/
def State.remember (s : State) (serial : DWord) (q : Half) (mg : Bool) : State :=
  { s with fab := { s.fab with flooded := ((serial, q, mg) :: s.fab.flooded).take 256 } }

/-- TRAVEL of FAB_COLF in milliseconds (R376). -/
def State.colfTravel (s : State) : Nat := max 1 (s.rf (.fab .colf) 8 8)

/-- TOPO flooded with the present generation (R355). -/
def State.sendTopo (s : State) : State :=
  let s := { s with fab := { s.fab with topoAt := s.raw } }
  (s.remember s.serial s.fab.gen false).flood none (s.ownFrame 0xFF kTopo cUrgent s.fab.gen s.fabTtl s.topoPayload)

/-- A link record has changed: a new generation is sent (R353, R355). -/
def State.newTopo (s : State) : State := { s with fab := { s.fab with gen := s.fab.gen + 1 } }.sendTopo

/-- ALLOC: the fabric in use, ADDR_MODE 1 and the lowest SERIAL of those with ADDR_MODE 1 (R358); the routing duty follows it while it runs
(R408, R411). -/
def State.allocator (s : State) : State :=
  let a := if !s.dutyRuns 0 then s.fab.alloc else s.fabOn && s.rb (.fab .cfg) 1 && s.topology.all (fun t => !(topoFlags t).getLsbD 0 || decide (s.serial < t.serial))
  { s with fab := { s.fab with alloc := a } }

/-- A device of the topology with a lower SERIAL holds an address (R360). -/
def State.heldBelow (s : State) (a : Byte) : Bool := decide (a ≠ 0) && s.topology.any (fun t => topoAddr t == a && decide (t.serial < s.serial))

/-- The device with the higher SERIAL gives up an address that another holds (R360). -/
def State.addrConflict (s : State) : State :=
  let a := s.fab.addr
  if s.heldBelow a then
    ({ s with fab := { s.fab with addr := 0, prevAddr := a, gaveUp := !s.rb (.fab .cfg) 1 } }.fabEvt 3).fabEvt 4
  else s

/-- A change of topology (R356, R360, R377): event, a conflict of addresses, allocator, election. -/
def State.topologyChanged (s : State) : State := s.fabTopo.addrConflict.allocator.fabricTime

/-! ### A link leaves UP or its state (R353, R354, R372) -/

/-- The queue of a link that has gone down: that of a lost link moves to the other link of its ring with WRAPPED set, its order kept (R372); that of a
link that has not been UP holds frames for its neighbour alone, which go. -/
def State.wrapQueue (s : State) (k : LinkId) (up : Bool) : State :=
  let q := (s.link k).queue
  let s := s.setLink k { s.link k with queue := [] }
  q.foldl (fun s e => if up || (s.link k).wrapped then s.wrapOnto k k e.1 e.2 else s.dropFrom e.1 e.2) s

/-- The key slot of a link is erased (R386). -/
def State.dropLinkKey (s : State) (k : LinkId) : State :=
  match (s.link k).key with
  | some h => (s.setKey h none).setLink k { s.link k with key := none, encOn := false, cRx := none }
  | none => s.setLink k { s.link k with encOn := false, cRx := none }

/-- The frame on the wire is counted: TX_OK where it has ended whole by now or more, TX_CUT where the link went down before (R374); a copy that
ended with an error block was not sent whole (R346). -/
def State.endWire (s : State) (k : LinkId) (cut : Bool) : State :=
  match (s.link k).wire with
  | some (_, e) =>
    let broken := (s.link k).stomped
    let s := s.setLink k { s.link k with wire := none, stomped := false }
    if cut && decide (s.raw < e) then s.countLink k 0x5C else if broken then s else s.countLink k 0x44
  | none => s

/-- RLk_STAT.WRAPPED: a link of the ring of link k is lost, so the ring is wrapped here (R372). -/
def State.ringWrapped (s : State) (k : LinkId) : Bool := s.ringMode k && ((s.link k).wrapped || (s.link (otherLink k)).wrapped)

/-- RLk_STAT.LOS: no row says when a lost signal is back (log 64). -/
def State.rlLos (s : State) (k : LinkId) : Bool := (s.link k).los && !Config.signalBack s.raw.toNat k.val

/-- Between frames a link carries idle where it is UP or has no signal, after ENABLE was written 1, and while its block lock has held for less than
1 ms; else remote fault (R353, R354, log 64). -/
def State.rlFill (s : State) (k : LinkId) : RlFill :=
  if s.linkUp k || s.rlLos k || ((s.link k).state == .aligning && ((s.link k).fresh || Config.blockLock s.raw.toNat k.val)) then .idle else .remoteFault

/-- Link k passes to ALIGNING or DOWN (R353): the ring wraps where it was UP, a TOPO is sent, FAB_LINK. -/
def State.linkDown (s : State) (k : LinkId) (st : LState) : State :=
  let up := s.linkUp k
  let s := s.endWire k true
  let s := s.dropLinkKey k
  let l := s.link k
  let s := s.setLink k { l with state := st, fresh := false, wrapped := l.wrapped || (up && s.ringMode k), nbr := {}, helloCount := 0, granted := Vector.replicate 3 0,
                                usedCr := Vector.replicate 3 0, syncSent := none, keyxSent := none, heardAt := s.raw }
  let s := if !l.los then s.emit (.remoteFault k) else s
  let s := s.wrapQueue k up
  let s := if up then s.topologyChanged.newTopo else s.newTopo
  s.fabEvt 1

/-- Encrypted links whose slot has gone leave their state (R386). -/
def State.dropKeyless (s : State) : State :=
  linkIds.foldl (fun s k => match (s.link k).key with
    | some h => if (s.key h).isNone then s.linkDown k .aligning else s
    | none => s) s

end Sys2Proof.Machine
end

