-- ==== Sys2Proof/Machine/Seal.lean ====
section
/-! DEFINITION. Sealed frames: CMAC input, trailer, verification (R167, R168, R171, R172, R174). -/
namespace Sys2Proof.Machine

/-- The CMAC input of a frame with its data and freshness value (R168). -/
def cmacInput (f : CanFrame) (data : List Byte) (fv : Word) : List Byte :=
  beBytes 1 (fmtCode f.fmt) ++ beBytes 4 (idWord f) ++ [f.sdt, f.vcid] ++ beBytes 1 (b2n f.sec) ++ beBytes 4 f.af.toNat
    ++ beBytes 2 data.length ++ data ++ beBytes 4 fv.toNat

/-- T of a key slot (R167). -/
def slotT (k : KeySlot) : Nat := if k.mac64 then 8 else 4

/-- The leftmost T bytes of the AES-128-CMAC output (R167). -/
def macOf (k : KeySlot) (m : List Byte) : List Byte := (aesCmac (beBytes 16 (k.key.setWidth 128).toNat) m).take (slotT k)

/-- FV and MAC that follow the data (R167). -/
def trailerOf (k : KeySlot) (f : CanFrame) (data : List Byte) (fv : Word) : List Byte := beBytes 4 fv.toNat ++ macOf k (cmacInput f data fv)

/-- The SEAL128 slot of a handle that the domain holds (R170, R172). -/
def State.sealKey (s : State) (d : Dom) (h : Nat) : Option KeySlot := (s.key h).filter (fun k => k.dom == d && k.sealing)
/-- Any key of the domain at a handle (R78). -/
def State.ownKey (s : State) (d : Dom) (h : Nat) : Bool := match s.key h with
  | some k => k.dom == d
  | none => false

/-- A sealed attempt may start: key, room in CTR, legal length with the MAC64 in force (R172, R509). -/
def State.sealReady (s : State) (d : Dom) (h : Nat) (f : Fmt) (len : Nat) : Bool :=
  match s.sealKey d h with
  | some k => decide (k.ctr < 0xFFFFFFE0) && lenOkSealed f (slotT k) len
  | none => false

/-- The attempt has won arbitration: FV = CTR + 1 is written back, and the trailer goes out (R171, R206). -/
def State.takeFv (s : State) (p : PortId) (h : Nat) (f : CanFrame) : State × List Byte :=
  match s.key h with
  | some k =>
    let fv := k.ctr + 1
    let t := trailerOf k f f.data fv
    ((s.setKey h (some { k with ctr := fv })).emit (.trailer p t), t)
  | none => (s, [])

/-- Verification of a received frame under handle h: reason of the failure, 0 for a pass, and the state with LAST (R174). -/
def State.verify (s : State) (d : Dom) (h : Nat) (f : CanFrame) : State × Nat :=
  match s.sealKey d h with
  | none => (s, 3)
  | some k =>
    let t := slotT k
    let n := f.data.length
    if f.fmt = .cc ∨ n < 4 + t then (s, 4)
    else
      let data := f.data.take (n - 4 - t)
      let fv : Word := BitVec.ofNat 32 (ofBe (slice f.data (n - 4 - t) 4))
      if f.data.drop (n - t) ≠ macOf k (cmacInput f data fv) then (s, 1)
      else
        let win := max 1 (k.win.toNat % 2 ^ 31)
        let dist := (fv - k.last).toNat
        if 1 ≤ dist ∧ dist ≤ win then (s.setKey h (some { k with last := fv }), 0) else (s, 2)

end Sys2Proof.Machine
end

