-- ==== Sys2Proof/Machine/Objects.lean ====
section
/-! DEFINITION. Tarn, message objects and their commands (R137 to R155, R508). -/
namespace Sys2Proof.Machine

/-! ### Tarn (R24, R56, R138) -/

/-- Tarn address of byte x of a domain's quota, in the order of its 4 KiB units. -/
def State.tarnAddr (s : State) (d : Dom) (x : Nat) : Option Nat := (s.units[d][x / 4096]?).map (fun u => u * 4096 + x % 4096)
def State.tarnByte (s : State) (d : Dom) (x : Nat) : Byte :=
  match s.tarnAddr d x with
  | some a => Tbl.get 0 s.tarn a
  | none => 0
def State.tarnRead (s : State) (d : Dom) (x n : Nat) : List Byte := (List.range n).map (fun i => s.tarnByte d (x + i))
/-- Bytes written from byte x of a domain's quota; bytes beyond the quota are dropped. -/
def State.tarnWrite (s : State) (d : Dom) (x : Nat) : List Byte → State
  | [] => s
  | b :: bs =>
    let s := match s.tarnAddr d x with
      | some a => { s with tarn := Tbl.put 0 s.tarn a b }
      | none => s
    State.tarnWrite s d (x + 1) bs

/-! ### The image of an object (R140, R147, R508) -/

def objMain (o : Obj) : Nat := 64 * objOfs o.cfg
def objShadow (o : Obj) : Nat := objMain o + slotBytes (objClass o.cfg)

/-- Format, seal and data length of a send object. -/
def objFmt (c : ObjCfg) : Option Fmt := fmtOf (c.cfg2.toNat % 4)
def objSeal (c : ObjCfg) : Bool := c.cfg2.getLsbD 4
def objAlcount (c : ObjCfg) : Bool := c.cfg2.getLsbD 5
def objRetry (c : ObjCfg) : Nat := c.cfg2.toNat / 256 % 16
def objKey (c : ObjCfg) : Nat := c.cfg2.toNat / 65536 % 256

/-- The frame that a send object describes (R508); data as given. -/
def objFrame (c : ObjCfg) (data : List Byte) (len : Nat) : CanFrame :=
  mkFrame ((objFmt c).getD .cc) c.idw.toNat c.cfg2.toNat (c.cfg2.toNat / 2 ^ 24) (c.cfg3.toNat % 256) (c.cfg3.getLsbD 8) c.af.toNat data len

/-- SEQ after one whole write of the main slot: odd during it, then the next even value (R147). -/
def seqNext (q : Half) : Half := (q &&& 0xFFFE) + 2

/-- The header of a send object is written inside the SEQ bracket (R508). -/
def State.writeSendHeader (s : State) (d : Dom) (o : Nat) : State :=
  let x := s.obj d o
  let q := seqNext x.seqNo
  let s := s.setObj d o { x with seqNo := q }
  s.tarnWrite d (objMain x) (sendHeader x.cfg.idw x.cfg.cfg2 x.cfg.cfg3 x.cfg.af x.len q)

/-- A frame written into the main slot: header with NEW and LOST, payload, SEQ, stamp; the gateway rules take it (R145, R147, R415). -/
def State.writeMain (s : State) (d : Dom) (o : Nat) (f : CanFrame) (isSealed : Bool) (lost : Bool) (stamp : DWord) (p : PortId) : State :=
  let x := s.obj d o
  let q := seqNext x.seqNo
  let s := s.setObj d o { x with isNew := true, lost := lost, seqNo := q, held := some (stamp, p) }
  let s := s.tarnWrite d (objMain x) (objHeader f isSealed true lost f.data.length q ++ f.data)
  s.gwObject d o { bytes := rxHeader f isSealed 0 ++ f.data, isSealed := isSealed, stamp := stamp.setWidth 36 }

/-- An OBJECT action stores a frame (R145, R146). -/
def State.storeObject (s : State) (d : Dom) (o : Nat) (p : PortId) (arrived : PortId) (f : CanFrame) (isSealed : Bool) (stamp : DWord) : State :=
  let x := s.obj d o
  if classBytes (objClass x.cfg) < f.data.length then (s.setObj d o { x with tooLong := true }).countPort p 0x9C
  else if x.copying then
    let s := s.setObj d o { x with shadow := some (stamp, arrived), lost := x.lost || x.shadow.isSome }
    s.tarnWrite d (objShadow x) (objHeader f isSealed true (x.lost || x.shadow.isSome) f.data.length x.seqNo ++ f.data)
  else s.writeMain d o f isSealed (x.lost || x.isNew) stamp arrived

/-- Promotion of the shadow slot at the end of a copy (R148, R149). -/
def State.promoteShadow (s : State) (d : Dom) (o : Nat) : State :=
  let x := s.obj d o
  match x.shadow with
  | none => s
  | some (st, p) =>
    let bs := s.tarnRead d (objShadow x) (slotBytes (objClass x.cfg))
    let s := s.setObj d o { x with shadow := none }
    s.writeMain d o (frameOfImage bs (decide (leAt bs 4 1 / 128 % 2 = 1))) (decide (leAt bs 4 1 / 16 % 2 = 1)) x.lost st p

/-! ### OBJ_READ (R148 to R151) -/

/-- A copy starts: COPYING, the flags as they stand, the bytes, and the completion kept for its end. STAMP is the low 36 bits of the stamp
held (log 55). -/
def State.startCopy (s : State) (d : Dom) (o : Nat) (op : Op) (addr : DWord) : State :=
  let x := s.obj d o
  let n := 16 + min (leAt (s.tarnRead d (objMain x) 16) 6 2) (classBytes (objClass x.cfg))
  let bs := s.tarnRead d (objMain x) n
  let isNew := x.isNew && !objIsSend x
  let lost := x.lost && !objIsSend x
  let b4 : Byte := (bs.getD 4 0 &&& 0x9F) ||| BitVec.ofNat 8 (32 * b2n isNew + 64 * b2n lost)
  let held := if objIsSend x then none else x.held
  let e : CqEntry :=
    { tag := op.tag, status := 0, num := op.num, info0 := BitVec.ofNat 32 (b2n isNew + 2 * b2n lost), info1 := BitVec.ofNat 16 n,
      stamp := held.map (fun h => h.1.setWidth 36), port := BitVec.ofNat 8 ((held.map (fun h => h.2.val)).getD (objPort x.cfg).val) }
  let s := s.hostWrite d addr.toNat (bs.take 4 ++ [b4] ++ bs.drop 5)
  let s := s.tarnWrite d (objMain x + 4) [bs.getD 4 0 &&& 0x9F]
  s.setObj d o { x with copying := true, isNew := false, lost := false, reading := some (op, e) }

/-- The copy ends: promotion, COPYING, completion, then the next OBJ_READ of the object (R148, R150). A completion that still waits for room in
its CQ counts as completed here (DESIGN CHOICE, log 76). -/
def State.endCopy (s : State) (d : Dom) (o : Nat) : State :=
  match (s.obj d o).reading with
  | none => s
  | some (_, e) =>
    let s := s.promoteShadow d o
    let s := s.setObj d o { s.obj d o with copying := false, reading := none }
    let s := s.completeE d e true
    match (s.obj d o).readers with
    | [] => s
    | (op, a) :: rest => (s.setObj d o { s.obj d o with readers := rest }).startCopy d o op a

/-- OBJ_READ (R148, R150, R151). -/
def State.objReadOp (s : State) (d : Dom) (x : Desc) (op : Op) : State :=
  let o := dnum x 4 2
  if !reservedZero x [(4, 0, 16), fAddr] || decide (8192 ≤ o) then s.complete op 0x32
  else
    let ob := s.obj d o
    if !objValid ob then s.complete op 0x32
    else if !s.inWindow d (daddr x).toNat (16 + classBytes (objClass ob.cfg)) false true then
      s.complete op 0x30
    else if ob.copying then s.setObj d o { ob with readers := ob.readers ++ [(op, daddr x)] }
    else s.startCopy d o op (daddr x)

def execObjRead (d : Dom) (n : RingNo) (x : Desc) (s : State) : Result :=
  if s.ringOn d n 2 then finish (s.command d n x (fun s op => s.objReadOp d x op)) else .next s

/-- OBJ_READ_COPY_DONE (R148, R149). -/
def execObjReadCopyDone (d : Dom) (o : BitVec 13) (s : State) : Result :=
  if (s.obj d o.toNat).copying then finish (s.endCopy d o.toNat) else .next s

/-! ### Sending (R152 to R155, R185) -/

/-- The format is enabled on the port (R120). -/
def State.fmtEnabled (s : State) (p : PortId) : Fmt → Bool
  | .cc => true
  | .fd => s.rb (.port p .mode) 3
  | .xl => s.rb (.port p .mode) 4

/-- LENGTH of a send object is at most its class and legal with its trailer (R152, R509). -/
def State.objLenOk (s : State) (d : Dom) (c : ObjCfg) (len : Nat) : Bool :=
  match objFmt c with
  | none => false
  | some f => decide (len ≤ classBytes (objClass c)) && (if objSeal c then lenOkSealed f (s.trailer d (objKey c)) len else lenOk f len)

/-- The checks of R154 that give BAD_DESC. -/
def State.sendBad (s : State) (d : Dom) (o : Obj) (len : Nat) : Bool :=
  !s.objLenOk d o.cfg len || !s.fmtEnabled (objPort o.cfg) ((objFmt o.cfg).getD .cc)

/-- The candidate of a send request (R153, R200). -/
def State.sendCand (s : State) (o : Nat) (x : Obj) (op : Op) (tsq quiet : Bool) : Cand :=
  { slot := 0, order := 0, src := .obj (BitVec.ofNat 13 o), op := op, frame := objFrame x.cfg [] x.len, sealWith := if objSeal x.cfg then
      some (BitVec.ofNat 8 (objKey x.cfg)) else none, alcount := objAlcount x.cfg, retry := objRetry x.cfg, tsq := tsq, len := x.len, ready := true,
    due := if x.cfg.hold = 0 then none else some (after s.raw (us x.cfg.hold.toNat)), quiet := quiet }

/-- One transmission of a valid send object is requested (R153, R185, R215). -/
def State.requestSend (s : State) (d : Dom) (o : Nat) (op : Op) (tsq quiet : Bool) : State :=
  let x := s.obj d o
  let p := objPort x.cfg
  let pt := s.port p
  if halted pt.state then (if quiet then s else s.complete op 0x14 (port := BitVec.ofNat 8 p.val))
  else if s.flushing p then (if quiet then s else s.complete op 0x15 (port := BitVec.ofNat 8 p.val))
  else
    let s := s.setObj d o { x with pending := true }
    let c := s.sendCand o x op tsq quiet
    s.enterSet p c (!s.sendMayTake p || pt.cands.any (fun c => !inSet c && isObj c))

/-- LENGTH, the DLC and the payload of a send object are written (R152, R508). -/
def State.writeSend (s : State) (d : Dom) (o : Nat) (payload : List Byte) : State :=
  let x := s.obj d o
  let s := s.tarnWrite d (objMain x + 16) payload
  (s.setObj d o { x with len := payload.length, wrote := true }).writeSendHeader d o

/-- OBJ_WRITE (R152, R154, R155). With SEND 1 on an object whose port is OFF, STOPPED or SLEEP it writes payload and LENGTH, and then completes
14h: the manual does not say whether the payload is written (DESIGN CHOICE, log 76). -/
def State.objWriteOp (s : State) (d : Dom) (x : Desc) (payload : List Byte) (op : Op) : State :=
  let o := dnum x 4 2
  let len := dnum x 6 2
  let send := dbit x 8 0
  if !reservedZero x [(4, 0, 32), (8, 0, 1), fAddr] || decide (8192 ≤ o) then s.complete op 0x32
  else
    let ob := s.obj d o
    if !objValid ob || !objIsSend ob || !s.objLenOk d ob.cfg len then s.complete op 0x32
    else if send && s.sendBad d ob len then s.complete op 0x32
    else if decide (len ≠ 0) && !s.inWindow d (daddr x).toNat len true false then s.complete op 0x30
    else if send && ob.pending then s.complete op 0x33
    else
      let s := s.writeSend d o payload
      if send then s.requestSend d o op false false else s.complete op 0x00

/-- The payload of an OBJ_WRITE is read only where its LENGTH is legal for the object. -/
def State.objWriteReads (s : State) (d : Dom) (x : Desc) : Bool :=
  let ob := s.obj d (dnum x 4 2)
  decide (dnum x 4 2 < 8192) && objValid ob && objIsSend ob && s.objLenOk d ob.cfg (dnum x 6 2)

def execObjWrite (d : Dom) (n : RingNo) (x : Desc) (payload : List Byte) (s : State) : Result :=
  if !s.ringOn d n 2 then .next s
  else if s.objWriteReads d x && payload.length != dnum x 6 2 then .fault .dataLength
  else finish (s.command d n x (fun s op => s.objWriteOp d x payload op))

/-- OBJ_SEND (R153, R154). -/
def State.objSendOp (s : State) (d : Dom) (x : Desc) (op : Op) : State :=
  let o := dnum x 4 2
  if !reservedZero x [(4, 0, 16)] || decide (8192 ≤ o) then s.complete op 0x32
  else
    let ob := s.obj d o
    if !objValid ob || !objIsSend ob then s.complete op 0x32
    else if s.sendBad d ob ob.len then s.complete op 0x32
    else if ob.pending then s.complete op 0x33
    else s.requestSend d o op (dtsq x) false

def execObjSend (d : Dom) (n : RingNo) (x : Desc) (s : State) : Result :=
  if s.ringOn d n 2 then finish (s.command d n x (fun s op => s.objSendOp d x op)) else .next s

/-! ### A port leaves a domain (R144) -/

/-- VALID 0, and the footprint zeroed. -/
def State.dropObject (s : State) (d : Dom) (o : Nat) : State :=
  let x := s.obj d o
  (s.tarnWrite d (objMain x) (List.replicate (footBytes x.cfg) 0)).setObj d o
    { x with cfg := { x.cfg with cfg0 := x.cfg.cfg0 &&& ~~~1#32 }, shadow := none }

/-- Every valid object of the domain that is bound to the port. -/
def State.dropBound (s : State) (d : Dom) (p : PortId) : State :=
  (s.objs.filter (fun e => e.1 / 8192 == d.val && objValid e.2 && objPort e.2.cfg == p)).foldl (fun s e => s.dropObject d (e.1 % 8192)) s

/-! ### The object window (R141 to R143) -/

def State.fnWord (s : State) (d : Dom) (r : FnReg) : Word := (s.reg (.fn d r)).setWidth 32

/-- The staged configuration (R141). -/
def State.staged (s : State) (d : Dom) : ObjCfg :=
  { cfg0 := s.fnWord d .objCfg0, idw := s.fnWord d .objCfg1, cfg2 := s.fnWord d .objCfg2, cfg3 := s.fnWord d .objCfg3, af := s.fnWord d .objCfg4,
    hold := s.fnWord d .objCfg5 }

/-- COPYING is a receive object's flag: a send object that is being read shows 0 and is free for a COMMIT (OBJ_RT, R142, R151, log 57). -/
def objCopying (x : Obj) : Bool := x.copying && !objIsSend x

/-- Check 2 of R142; a LENGTH that no OBJ_WRITE has written is not checked, nor are the fields of a send object in a receive object, which the
manual does not except (DESIGN CHOICE, log 76). -/
def State.cfgRange (s : State) (d : Dom) (c : ObjCfg) (x : Obj) : Bool :=
  !c.cfg0.getLsbD 1 ||
    (match objFmt c with
     | none => false
     | some f => idWordOk f c.idw.toNat && decide (c.cfg2.toNat / 64 % 4 = 0) && !(objSeal c && decide (f = .cc))
        && (!x.wrote || s.objLenOk d c x.len))

/-- Valid objects other than (d, o), as keys. -/
def State.otherObjs (s : State) (d : Dom) (o : Nat) : List (Nat × Obj) :=
  s.objs.filter (fun e => objValid e.2 && decide (e.1 ≠ 8192 * d.val + o))

/-- RESULT of a COMMIT: the first failing check of R142, 0 where all pass. -/
def State.commitCode (s : State) (d : Dom) (o : Nat) (c : ObjCfg) : Nat :=
  let x := s.obj d o
  let p := objPort c
  let a := 64 * objOfs c
  let b := a + footBytes c
  if objValid x && (x.pending || objCopying x || (c.cfg0.getLsbD 0 && decide (c.cfg0 ≠ x.cfg.cfg0))) then 3
  else if !c.cfg0.getLsbD 0 then 0
  else if !s.cfgRange d c x then 1
  else if decide (s.portOwner p ≠ d) || s.silentMember p then 2
  else if s.units[d].length * 4096 < b then 4
  else if (s.otherObjs d o).any (fun e => e.1 / 8192 == d.val && decide (64 * objOfs e.2.cfg < b)
      && decide (a < 64 * objOfs e.2.cfg + footBytes e.2.cfg)) then 5
  else if !objValid x && (decide (256 ≤ ((s.otherObjs d o).filter (fun e => objPort e.2.cfg == p)).length)
      || decide (8192 ≤ (s.otherObjs d o).length)) then 6
  else 0

/-- COMMIT (R141 to R143, R508). A fresh receive object has NEW, LOST and LENGTH 0 in its main slot too; SEQ goes on from the count the object
had, and bytes 10 and 11 of the slot are left as they are until the next write of it (log 58). -/
def State.objCommitOp (s : State) (d : Dom) : State :=
  let o := s.rf (.fn d .objSel) 0 13
  let c := s.staged d
  let code := s.commitCode d o c
  let s := s.setFunc d { s.func d with objRes := BitVec.ofNat 8 code }
  if code ≠ 0 then s
  else
    let x := s.obj d o
    let fresh := c.cfg0.getLsbD 0 && !objValid x
    let y := { x with cfg := c }
    let y := if fresh then { y with isNew := false, lost := false, tooLong := false, held := none, shadow := none } else y
    let s := s.setObj d o y
    if !c.cfg0.getLsbD 0 then s
    else if c.cfg0.getLsbD 1 then s.writeSendHeader d o
    else if fresh then (s.tarnWrite d (objMain y + 4) [s.tarnByte d (objMain y + 4) &&& 0x9F]).tarnWrite d (objMain y + 6) [0, 0]
    else s

/-- OBJ_RT as LOAD shows it. -/
def objRtWord (x : Obj) : Word :=
  BitVec.ofNat 32 (b2n x.isNew + 2 * b2n x.lost + 4 * b2n x.pending + 8 * b2n (objCopying x) + 16 * b2n x.tooLong + 65536 * x.seqNo.toNat)

/-- LOAD (R141). -/
def State.objLoadOp (s : State) (d : Dom) : State :=
  let x := s.obj d (s.rf (.fn d .objSel) 0 13)
  let put (s : State) (r : FnReg) (w : Word) : State := s.setReg (.fn d r) (w.setWidth 64)
  let s := put (put (put (put (put (put s .objCfg0 x.cfg.cfg0) .objCfg1 x.cfg.idw) .objCfg2 x.cfg.cfg2) .objCfg3 x.cfg.cfg3) .objCfg4 x.cfg.af)
    .objCfg5 x.cfg.hold
  s.setFunc d { s.func d with objRes := 0, objRt := objRtWord x }

/-- A write of OBJ_CMD: LOAD is 1, COMMIT 2; while BUSY it is refused (R141, R510). -/
def State.writeObjCmd (s : State) (d : Dom) (v : Word) : State :=
  let c := v.toNat % 4
  if c ≠ 1 ∧ c ≠ 2 then s
  else if s.objBusy d then s.refuseWrite d FnReg.objCmd.off v
  else
    let s := if c = 1 then s.objLoadOp d else s.objCommitOp d
    s.setFunc d { s.func d with objAt := some s.raw }

/-- A function writes a register of its own; one whose entry is not valid owns nothing (R21, R41). -/
def State.ownFn (s : State) (d : Dom) (q : FnReg) (v : Word) (f : State → State) : Result :=
  if !s.serves || !s.present d then .next s
  else if s.active d then finish (f s) else finish (s.crossDomain d q.off v)

def execObjLoad (d : Dom) (s : State) : Result := s.ownFn d .objCmd 1 (fun s => s.writeObjCmd d 1)
def execObjCommit (d : Dom) (s : State) : Result := s.ownFn d .objCmd 2 (fun s => s.writeObjCmd d 2)

end Sys2Proof.Machine
end

