-- ==== Sys2Proof/Machine/FieldTimeOps.lean ====
section
/-! DEFINITION. Field time: the frames of the device and the requests of the nodes (R304 to R308). -/
namespace Sys2Proof.Machine

/-- FPn_FTCFG: EN, FD, IDE, NODES. -/
def State.ftEn (s : State) (p : PortId) : Bool := s.rb (.port p .ftcfg) 0
def State.ftFd (s : State) (p : PortId) : Bool := s.rb (.port p .ftcfg) 1
def State.ftIde (s : State) (p : PortId) : Bool := s.rb (.port p .ftcfg) 2
def State.ftNodes (s : State) (p : PortId) : Nat := s.rf (.port p .ftcfg) 8 6

/-- The port takes part in the bus (R125, section Port states). -/
def takesPart (x : Port) : Bool := !x.seqOn && (running x.state || x.state == .hold || x.state == .isolated)

/-- TAI second and time within it, 1/16 ns, of a time T; EPOCH is the TAI second of device second 0 (R305). -/
def State.taiSec (s : State) (t : DWord) : Nat := (s.rf (.tmu .epoch) 0 48 + t.toNat / 16000000000) % 2 ^ 48
def subSec (t : DWord) : Nat := t.toNat % 16000000000

/-- SYNC: the servo state as field time codes it (R305). -/
def syncCode : Servo → Nat
  | .off | .freerun => 0
  | .locking => 1
  | .locked => 2
  | .holdover => 3

/-- A field-time frame of the device with its 8 payload bytes (R305). -/
def State.ftFrame (s : State) (p : PortId) (payload : List Byte) : CanFrame :=
  mkFrame (if s.ftFd p then .fd else .cc) (s.rf (.port p .ftid) 0 29 + (if s.ftIde p then 2 ^ 29 else 0)) (if s.ftFd p then 5 else 0) 0 0 false 0
    payload 8

/-- BEACON, with SEC at the start decision (R305). -/
def State.beaconFrame (s : State) (p : PortId) (t : DWord) : CanFrame :=
  s.ftFrame p ([0x11, (s.port p).ft.seqNo] ++ beBytes 6 (s.taiSec t))

/-- Bytes 3 to 7 of FOLLOW_UP and DELAY_RESP: SECLO and SUBSEC of a stamp. -/
def State.secloBytes (s : State) (t : DWord) : List Byte :=
  beBytes 1 (s.taiSec t % 64 * 4 + subSec t / 2 ^ 32) ++ beBytes 4 (subSec t % 2 ^ 32)

/-- FOLLOW_UP with the beacon's stamp and the POLL of the next node in turn (R305, R306). -/
def nextPoll (poll nodes : Nat) : Nat := if nodes ≤ poll then 1 else poll + 1
def State.followFrame (s : State) (p : PortId) (t1 : DWord) : CanFrame :=
  let ft := (s.port p).ft
  s.ftFrame p ([0x21, ft.sentSeq] ++ beBytes 1 (nextPoll ft.poll (s.ftNodes p) + 64 * syncCode s.tmu.servo) ++ s.secloBytes t1)

/-- DELAY_RESP (R305). -/
def State.respFrame (s : State) (p : PortId) (r : Byte × Byte × DWord) : CanFrame :=
  s.ftFrame p ([0x41, r.2.1, r.1] ++ s.secloBytes r.2.2)

/-- The next field-time frame that the device wants to send, with what it is (R306, R307). -/
def State.nextField (s : State) (p : PortId) (t : DWord) : Option (Sending × CanFrame) :=
  let ft := (s.port p).ft
  if !s.ftEn p then none
  else match ft.followUp with
    | some t1 => some (.followUp, s.followFrame p t1)
    | none =>
      match ft.delayResp with
      | r :: _ => some (.delayResp, s.respFrame p r)
      | [] => if ft.beaconDue then some (.beacon, s.beaconFrame p t) else none

/-- A frame that a TIMEBEACON element hands to the field-time protocol (R304, R308), with the raw instant of its start of frame. One that
begins later than 5 ms after the follow-up is no valid request (R306, log 59). -/
def State.timeBeacon (s : State) (p : PortId) (f : CanFrame) (t4 sof : DWord) : State :=
  let x := s.port p
  let b := fun i => f.data.getD i 0
  let ok := s.ftEn p && f.data.length == 8 && b 0 == 0x31 && b 1 == x.ft.fupSeq && b 2 == BitVec.ofNat 8 x.ft.poll && x.ft.pollOpen
    && decide (sof ≤ s.later x.ft.fupEnd (ms 5)) && f.ident.toNat == s.rf (.port p .ftreq) 0 29 && f.ide == s.ftIde p && f.fmt ≠ .xl && !f.rtr
  if ok then s.setPort p { x with ft := { x.ft with pollOpen := false, delayResp := x.ft.delayResp ++ [(b 2, b 1, t4)] } }
  else s.setPort p { x with ft := { x.ft with bad := x.ft.bad + 1 } }

/-- The device time at which the next beacon falls due: a multiple of INTERVAL milliseconds, not before now and not the one that fell due
last (R306). -/
def State.beaconTime (s : State) (p : PortId) : DWord :=
  let n := ms (s.rf (.port p .ftcfg) 16 16)
  let t := s.now.toNat
  BitVec.ofNat 64 (if (s.port p).ft.dueAt = some s.now then (t / n + 1) * n else (t + (n - 1)) / n * n)

/-- BEACON_DUE: T reaches the instant; earlier frames not yet sent are abandoned, an unanswered poll raises MISSED, and the beacon takes the next SEQ (R306). -/
def execBeaconDue (p : PortId) (s : State) : Result :=
  let x := s.port p
  if s.ftEn p && takesPart x && x.joined && !s.silentMember p && s.tmu.started then
    let t := s.beaconTime p
    let s := s.advance (s.rawOf t)
    let x := s.port p
    let ft := x.ft
    finish (s.setPort p { x with ft := { ft with
      missed := if ft.pollOpen then ft.missed + 1 else ft.missed, pollOpen := false, followUp := none, delayResp := [],
      beaconDue := true, seqNo := ft.seqNo + 1, tries := 0, dueAt := some t } })
  else .next s

/-- SEQ, byte 1 of a field-time frame of the device. -/
def ftSeq (f : CanFrame) : Byte := f.data.getD 1 0

/-- The end of a field-time attempt with success: the stamp, the poll, the answer given (R306). A beacon that was on the wire as the next fell
due leaves that one due. -/
def fieldSent (ft : FieldTime) (w : Sending) (f : CanFrame) (stamp now : DWord) : FieldTime :=
  let ft := { ft with tries := 0 }
  match w with
  | .beacon => { ft with beaconDue := ft.beaconDue && ft.seqNo != ftSeq f, sentSeq := ftSeq f, followUp := some stamp }
  | .followUp => { ft with followUp := none, fupSeq := ftSeq f, poll := (f.data.getD 2 0).toNat % 64, pollOpen := true, fupEnd := now }
  | .delayResp => { ft with delayResp := ft.delayResp.drop 1 }
  | _ => ft

/-- The end of a field-time attempt without success: the frame is tried again, unless it has been abandoned or another beacon has fallen due
meanwhile (R306, R336, R398). -/
def fieldFailed (ft : FieldTime) (w : Sending) (f : CanFrame) (tries : Nat) : FieldTime :=
  let wanted := match w with
    | .beacon => ft.beaconDue && ft.seqNo == ftSeq f
    | .followUp => ft.followUp.isSome
    | .delayResp => !ft.delayResp.isEmpty
    | _ => false
  if wanted then { ft with tries := tries + 1 } else ft

/-- A destroyed field-time frame is abandoned (R398). -/
def fieldAbandon (ft : FieldTime) (w : Sending) (f : CanFrame) : FieldTime :=
  let ft := { ft with tries := 0 }
  match w with
  | .beacon => { ft with beaconDue := ft.beaconDue && ft.seqNo != ftSeq f }
  | .followUp => { ft with followUp := none }
  | .delayResp => { ft with delayResp := ft.delayResp.drop 1 }
  | _ => ft

end Sys2Proof.Machine
end

