-- ==== Sys2Proof/Machine/Filter.lean ====
section
/-! DEFINITION. Acceptance filters: elements, evaluation, actions, and the element window (R156 to R166, R174 to R177). -/
namespace Sys2Proof.Machine

/-! ### Elements (section Element format) -/

def elEnable (e : BitVec 128) : Bool := e.getLsbD 0
def elFld (e : BitVec 128) (lo n : Nat) : Nat := (e.toNat >>> lo) % 2 ^ n
def elType (e : BitVec 128) : Nat := elFld e 1 3
def elAction (e : BitVec 128) : Nat := elFld e 8 3
def elMore (e : BitVec 128) : Bool := e.getLsbD 11
def elHipri (e : BitVec 128) : Bool := e.getLsbD 12
def elSeal (e : BitVec 128) : Bool := e.getLsbD 13
def elIde (e : BitVec 128) : Bool := e.getLsbD 14
def elTarget (e : BitVec 128) : Nat := elFld e 16 16
/-- KEY: byte 11 of an XL tuple, byte 12 otherwise. -/
def elKey (e : BitVec 128) : Nat := if elType e = 3 then elFld e 88 8 else elFld e 96 8

/-- The format bit of a frame is set in FMT. -/
def elFormat (e : BitVec 128) (f : CanFrame) : Bool :=
  match f.fmt with
  | .cc => if f.rtr then e.getLsbD 5 else e.getLsbD 4
  | .fd => e.getLsbD 6
  | .xl => e.getLsbD 7

/-- A frame matches an enabled element (R157). -/
def elMatches (e : BitVec 128) (f : CanFrame) : Bool :=
  let w := if elIde e then 29 else 11
  let a := elFld e 32 w
  let b := elFld e 64 w
  let i := f.ident.toNat % 2 ^ w
  elEnable e && elFormat e f &&
    (if elType e = 3 then
      ((elFld e 32 11 ^^^ i) &&& elFld e 48 11) == 0 && (!e.getLsbD 43 || elFld e 64 8 == f.sdt.toNat) && (!e.getLsbD 44 || elFld e 72 8 == f.vcid.toNat)
        && (elFld e 96 32 / 2 ^ (32 - elFld e 80 6) == f.af.toNat / 2 ^ (32 - elFld e 80 6))
     else f.ide == elIde e &&
      (if elType e = 0 then ((i ^^^ a) &&& b) == 0
       else if elType e = 1 then i == a || i == b
       else if elType e = 2 then decide (a ≤ i ∧ i ≤ b)
       else false))

/-! ### Evaluation (R158 to R161, R175 to R177) -/

/-- A frame under evaluation: receiving port, frame, stamp. -/
structure Eval where
  dom : Dom
  port : PortId
  rx : RxFrame
  stamp : BitVec 36
  full : DWord
  deriving DecidableEq, Repr

/-- A delivery of the frame to a ring (R84). -/
def Eval.wait (v : Eval) (element : Nat) (dflt isSealed : Bool) (act : Nat) (status : Byte) : RxWait :=
  { bytes := rxHeader v.rx.frame isSealed act ++ v.rx.frame.data,
    info0 := BitVec.ofNat 32 (element + (if dflt then 2 ^ 14 else 0) + 65536 * (16 + v.rx.frame.data.length)), status := status, stamp := some v.stamp,
    port := BitVec.ofNat 8 v.rx.arrived.val, block := v.port.val, space := v.rx.space, since := v.rx.done }

/-- RING condition (R158); no frame joins a ring of a function that is being reset (R57). -/
def State.ringCond (s : State) (d : Dom) (t : Nat) : Option RingNo := (nth? 64 t).filter (fun n => s.ringOn d n 1 && (s.func d).flr.isNone)

/-- The receiving port's bit of FLT_HIPRI (R161). -/
def State.hipri (s : State) (v : Eval) : State := s.raise (.fn v.dom .fltHipri) v.port.val

/-- The action of element number i, in slot act, under its condition (R158, R161). -/
def State.takeAction (s : State) (v : Eval) (i : Nat) (e : BitVec 128) (act : Nat) : State :=
  let d := v.dom
  let t := elTarget e
  let notTaken := s.countPort v.port 0x98
  let hi (s : State) : State := if elHipri e then s.hipri v else s
  match elAction e with
  | 0 =>
    let o := s.obj d t
    if decide (t < 8192) && objValid o && !objIsSend o && objPort o.cfg == v.port then
      hi (s.storeObject d t v.port v.rx.arrived v.rx.frame (elSeal e) v.full)
    else notTaken
  | 1 =>
    match s.ringCond d t with
    | some n => hi (s.deliver d n (v.wait i false (elSeal e) act 0))
    | none => notTaken
  | 2 =>
    if (s.entry d).routeUse && decide (t < 256) && s.routeOwner t == d.val && (s.route t).valid then
      hi (s.routeOut t (rxHeader v.rx.frame (elSeal e) 0 ++ v.rx.frame.data) v.stamp)
    else notTaken
  | 4 => hi (s.timeBeacon v.port v.rx.frame v.full v.rx.sof)
  | _ => notTaken

/-- What follows a failed verification (R176). With RING and SEAL_REPORT 1 a frame whose target is no enabled RX ring, or whose function is in
reset, counts in RX_FILTER; the other failed cases count nothing there (DESIGN CHOICE, log 76). -/
def State.sealFailed (s : State) (v : Eval) (i : Nat) (e : BitVec 128) (act reason : Nat) : State :=
  let d := v.dom
  let s := if elAction e = 1 ∧ s.rb (.fn d .fltCtl) 0 then
      match s.ringCond d (elTarget e) with
      | some n => s.deliver d n (v.wait i false true act 0x18)
      | none => s.countPort v.port 0x98
    else s
  let f := s.func d
  let j : Fin 4 := fin 4 (reason - 1)
  let s := s.setFunc d { f with sealFail := f.sealFail.set j (f.sealFail[j] + 1) }
  let s := (s.countPort v.port 0xA4).raise (.fn d .evcDstat) 3
  s.record (domCode d) 3 true 0x04 0x01 (BitVec.ofNat 32 (v.port.val + 256 * i)) (BitVec.ofNat 32 (elKey e + 256 * reason))

/-- The verification for an element with SEAL_VERIFY: at most once under each key, its result kept for later elements (R174, R175). -/
def State.evalSeal (s : State) (v : Eval) (e : BitVec 128) (cache : List (Nat × Nat)) : State × Nat × List (Nat × Nat) :=
  if elSeal e then
    match cache.find? (fun c => c.1 == elKey e) with
    | some c => (s, c.2, cache)
    | none =>
      let r := s.verify v.dom (elKey e) v.rx.frame
      (r.1, r.2, (elKey e, r.2) :: cache)
  else (s, 0, cache)

/-- Elements examined in list order (R159, R175); true where no element has matched. -/
def State.evalList (s : State) (v : Eval) (slot : Nat) (cache : List (Nat × Nat)) : List Nat → State × Bool
  | [] => (s, slot == 0)
  | i :: rest =>
    let ent := s.entry v.dom
    let e := Tbl.get 0 s.flt (ent.fltBase + i)
    if !(decide (i < ent.fltCount) && elMatches e v.rx.frame) then State.evalList s v slot cache rest
    else if elAction e = 3 then ((if elHipri e then s.hipri v else s).countPort v.port 0xA0, false)
    else
      let r := s.evalSeal v e cache
      if r.2.1 ≠ 0 then (r.1.sealFailed v i e slot r.2.1, false)
      else
        let t := r.1.takeAction v i e slot
        if !elMore e || slot == 3 then (t, false) else State.evalList t v (slot + 1) r.2.2 rest

/-- FLT_PORTn: FIRST, COUNT, and the default rule. -/
def State.listOf (s : State) (p : PortId) : List Nat := (List.range (s.rf (.fltPort p) 16 15)).map (fun j => s.rf (.fltPort p) 0 14 + j)

/-- The default rule (R160). -/
def State.defaultRule (s : State) (v : Eval) : State :=
  let c := Reg.fltPort v.port
  if s.rb c 32 then
    match s.ringCond v.dom (s.rf c 33 6) with
    | some n =>
      let s := s.deliver v.dom n (v.wait 0 true false 0 0)
      if s.rb c 39 then s.hipri v else s
    | none => s.countPort v.port 0x98
  else s.countPort v.port 0xA0

/-- One evaluation, and the end of the evaluation's hold on the staging space (R87, R159). -/
def State.evaluate (s : State) (p : PortId) (f : RxFrame) : State :=
  let v : Eval := { dom := s.portOwner p, port := p, rx := f, stamp := s.short f.sof, full := s.timeAt f.sof }
  let r := s.evalList v 0 [] (s.listOf p)
  let s := if r.2 then r.1.defaultRule v else r.1
  s.freeSpace p.val f.space

/-- A port whose engine runs a copy of an image of another family (R390, R392); without an engine the store's entry tells. -/
def State.otherFamily (s : State) (p : PortId) : Bool :=
  match s.spur.attached[p] with
  | some e => (s.spur.engines[e]).held && decide ((s.spur.engines[e]).family ≠ 1)
  | none => (s.spur.images[s.spur.portImage[p]]).valid && decide ((s.spur.images[s.spur.portImage[p]]).family ≠ 1)

/-- FILTER_EVAL: the oldest frame of the domain (R156, R159, R164). -/
def execFilterEval (d : Dom) (s : State) : Result :=
  match s.rxq.find? (fun e => s.portOwner e.1 == d) with
  | none => .next s
  | some e => finish ({ s with rxq := s.rxq.erase e }.evaluate e.1 e.2)

/-! ### The element window (R166) -/

/-- FLT_DATA0 to 3 as one element. -/
def State.fltStaged (s : State) (d : Dom) : BitVec 128 :=
  BitVec.ofNat 128 (((List.finRange 4).map (fun i => (s.fnWord d (.fltData i)).toNat * 2 ^ (32 * i.val))).foldl (· + ·) 0)

/-- Reserved TYPE, ACTION or field (check 2 of R166). TARGET is no reserved field with REJECT and TIMEBEACON, which have no use for it (DESIGN
CHOICE, log 76). -/
def elReserved (e : BitVec 128) : Bool :=
  decide (3 < elType e) || decide (4 < elAction e) || e.getLsbD 15 ||
    (if elType e = 3 then decide (elFld e 45 3 ≠ 0) || decide (elFld e 59 5 ≠ 0) || decide (elFld e 86 2 ≠ 0)
     else decide (elFld e 61 3 ≠ 0) || decide (elFld e 93 3 ≠ 0) || decide (elFld e 104 24 ≠ 0))

/-- RESULT of a WRITE of element i (R166). -/
def State.fltCode (s : State) (d : Dom) (i : Nat) (e : BitVec 128) : Nat :=
  let ent := s.entry d
  if ent.fltCount ≤ i then 1
  else if elReserved e then 2
  else if elType e = 3 ∧ 32 < elFld e 80 6 then 1
  else if elType e = 3 ∧ (elFld e 4 3 ≠ 0 ∨ elIde e) then 5
  else if elSeal e ∧ (e.getLsbD 4 ∨ e.getLsbD 5 ∨ elAction e = 3 ∨ elAction e = 4) then 4
  else if elAction e = 2 ∧ !(ent.routeUse && decide (elTarget e < 256) && s.routeOwner (elTarget e) == d.val) then 3
  else 0

/-- WRITE of an element (R166). -/
def State.fltWriteOp (s : State) (d : Dom) : State :=
  let i := s.rf (.fn d .fltSel) 0 14
  let e := s.fltStaged d
  let code := s.fltCode d i e
  let s := s.setFunc d { s.func d with fltRes := BitVec.ofNat 8 code }
  if code = 0 then { s with flt := Tbl.put 0 s.flt ((s.entry d).fltBase + i) e } else s

/-- READ of an element (R166). -/
def State.fltReadOp (s : State) (d : Dom) : State :=
  let i := s.rf (.fn d .fltSel) 0 14
  let ent := s.entry d
  if ent.fltCount ≤ i then s.setFunc d { s.func d with fltRes := 1 }
  else
    let e := Tbl.get 0 s.flt (ent.fltBase + i)
    let s := (List.finRange 4).foldl (fun s j => s.setReg (.fn d (.fltData j)) (BitVec.ofNat 64 (elFld e (32 * j.val) 32))) s
    s.setFunc d { s.func d with fltRes := 0 }

/-- A write of FLT_CMD: READ is 1, WRITE 2; while BUSY it is refused (R166, R510). -/
def State.writeFltCmd (s : State) (d : Dom) (v : Word) : State :=
  let c := v.toNat % 4
  if c ≠ 1 ∧ c ≠ 2 then s
  else if s.fltBusy d then s.refuseWrite d FnReg.fltCmd.off v
  else
    let s := if c = 1 then s.fltReadOp d else s.fltWriteOp d
    s.setFunc d { s.func d with fltAt := some s.raw }

def execFltRead (d : Dom) (s : State) : Result := s.ownFn d .fltCmd 1 (fun s => s.writeFltCmd d 1)
def execFltWrite (d : Dom) (s : State) : Result := s.ownFn d .fltCmd 2 (fun s => s.writeFltCmd d 2)

end Sys2Proof.Machine
end

