-- ==== Sys2Proof/Machine/RefOps.lean ====
section
/-! DEFINITION. Cycles and reference frames of a traverse group (R245, R254, R260, R265 to R269). -/
namespace Sys2Proof.Machine

/-- The group runs on a schedule: STARTUP or NORMAL, or HOLD with one of these as PRIOR. -/
def scheduled (g : Group) : Bool := gPhase g = .startup || gPhase g = .normal

/-- State and PRIOR as the effective state becomes st (R245: a held group stays held). -/
def setPhase (g : Group) (st : GState) : Group := if g.state = .hold then { g with prior := st } else { g with state := st }

/-- An error frame on the joined bus, or a cycle without a reference, clears the group's PROMOTE_CNT (R245). -/
def State.groupError (s : State) (k : GrpId) : State := s.setGroup k { s.group k with promoteCnt := 0 }

/-- The supervision of the traverse groups runs on a core (R408). -/
def State.traverseDuty (s : State) : Bool := s.dutyRuns 3

/-- Role of a device that begins a listen; while the duty moves it waits for the end of the move (R249, R269). -/
def State.coldRole (s : State) (k : GrpId) : ColdRole := if (s.devEntry k).isSome && s.traverseDuty then .listening else .none_

/-- The group returns to COLDSTART: LEADER Fh, no windows, and a fresh listen (R241, R245, R269). -/
def State.toColdstart (s : State) (k : GrpId) : State :=
  let s := s.setLeader k 15
  let g := s.group k
  let g := if gPhase g = .normal then startRejoins s.raw g else g
  s.groupGoes k { setPhase g .coldstart with
    windows := false, accepted := false, refSof := false, nextRefSof := false, lastRef := none, refSend := none, gridDue := none, deviation := 0, promoteCnt := 0,
    frame := g.frame.map (fun f => { f with close := none }), listenAt := s.raw, role := s.coldRole k }

/-- The device leads: its own reference frame was accepted last (R269). -/
def State.leads (s : State) (k : GrpId) : Bool := decide ((s.group k).role = .leading)

def State.t0 (s : State) (k : GrpId) : DWord := s.reg (.grp k .tzero)
/-- CYCLE in 1/16 ns. -/
def State.cycleTicks (s : State) (k : GrpId) : Nat := max 1 (16 * s.cycleNs k)

/-- The grid point of a cycle count: the number congruent to it modulo 65,536 whose grid point lies nearest to a time (R267). -/
def State.gridOf (s : State) (k : GrpId) (cnt : Half) (t : DWord) : Int :=
  let near : Int := (((t.toNat : Int) - (s.t0 k).toNat) + (s.cycleTicks k / 2 : Nat)) / (s.cycleTicks k : Int)
  near + (((cnt.toNat : Int) - near + 32768) % 65536 - 32768)
def State.gridTime (s : State) (k : GrpId) (m : Int) : Int := (s.t0 k).toNat + m * s.cycleTicks k

/-- Number of the first grid point after now (R267, R269 step 2). -/
def State.gridNext (s : State) (k : GrpId) : Int := ((s.now.toNat : Int) - (s.t0 k).toNat) / (s.cycleTicks k : Int) + 1

/-- With DEV_MASTER 1 a cold-start reference frame is due at the first grid point after now, with that point's count; a step or a change of rate
moves the instant of that point (R267, R269). -/
def State.planCold (s : State) (k : GrpId) : State :=
  s.setGroup k { s.group k with gridDue := some (s.gridNext k), refSend := some true }

/-- Raw instant of a grid point under the time parameters in force (R267). -/
def State.gridRaw (s : State) (k : GrpId) (m : Int) : DWord := s.rawOf (BitVec.ofInt 64 (s.gridTime k m))

/-- The next cycle start as the device expects it, with its count: C + CYCLE x rho, moved towards the grid by at most g/4 while the
device leads with DEV_MASTER 1 and the traverse duty runs (R249, R254, R267). -/
def State.nextCycle (s : State) (k : GrpId) : DWord × Half :=
  let g := s.group k
  let flow := after (s.flow g.cycleAt) (s.cycleLen k)
  if s.leads k && s.devMaster k && s.traverseDuty then
    let nat := flow + s.tmu.par.steps
    let lim : Int := (s.guardNs k * 4 : Nat)
    let dev := s.gridTime k (s.gridOf k (g.cycleCnt + 1) nat) - nat.toNat
    (s.rawOf (nat + BitVec.ofInt 64 (max (-lim) (min lim dev))), g.cycleCnt + 1)
  else (s.rawOfFlow flow, g.cycleCnt + 1)

/-- DEVIATION after an accepted reference frame, or as a cycle of a leading device begins (GRPk_TSTAT). -/
def State.deviationOf (s : State) (k : GrpId) (own : Bool) (cnt : Half) (sof : DWord) (rho : Option Nat) : Word :=
  if own then
    if s.devMaster k then
      let t := s.timeAt sof
      BitVec.ofInt 32 ((s.gridTime k (s.gridOf k cnt t) - t.toNat) / 16)
    else 0
  else match rho with
    | some m => BitVec.ofInt 32 ((((m : Int) - s.cycleTicks k) * 1000000000) / s.cycleTicks k)
    | none => 0

/-- A cycle ends: without an accepted reference frame it counts as missing, and REF_LOSS of these in a row lead to COLDSTART; the next
cycle begins (R245, R254). -/
def State.turnCycle (s : State) (k : GrpId) : State :=
  let g := s.group k
  let miss := !g.accepted
  let s := if miss then (s.grpEvt k 3).setGroup k { g with misses := g.misses + 1, promoteCnt := 0, lastRef := none } else s
  if miss && decide (max 1 (s.rf (.grp k .cfg) 28 4) ≤ g.misses + 1) then s.toColdstart k
  else
    let (c, n) := s.nextCycle k
    let keep := if s.rf (.grp k .cfg) 22 6 = 0 ∨ 32 < s.rf (.grp k .cfg) 22 6 then 32 else s.rf (.grp k .cfg) 22 6
    let g := s.group k
    s.setGroup k { g with
      deviation := if s.leads k then s.deviationOf k true n c none else g.deviation
      cycleAt := c, cycleCnt := n, accepted := false, refSof := g.nextRefSof, nextRefSof := false, windows := true,
      branches := g.branches.map (fun b => { b with recent := (0 :: b.recent).take keep }) }

/-- The payload of a reference frame of the device (R265). -/
def State.refPayload (s : State) (k : GrpId) (cold : Bool) (cnt : Half) : List Byte :=
  let rank := ((s.devEntry k).map (fun i => s.csRank k i)).getD 0
  beBytes 1 (1 + 16 * rank + (if cold then 64 else 0)) ++ beBytes 1 (s.tableTag k) ++ beBytes 2 cnt.toNat ++ beBytes 4 (s.cycleNs k)

/-- A reference frame of the device (R265). -/
def State.refFrame (s : State) (k : GrpId) (cold : Bool) (cnt : Half) : CanFrame :=
  let ident := ((s.devEntry k).map (fun i => s.csRefId k i)).getD 0
  mkFrame (if s.refFd k then .fd else .cc) ident (if s.refFd k then 5 else 0) 0 0 false 0 (s.refPayload k cold cnt) 8

/-- What R265 and R266 ask of a frame but for its TABLE_TAG: form, VERSION, CYCLE, and the window of slot 0 in a running schedule.
In HOLD with PRIOR COLDSTART no window is asked, as in COLDSTART, and an accepted frame makes PRIOR STARTUP (DESIGN CHOICE, log 77). -/
def State.refForm (s : State) (k : GrpId) (f : CanFrame) (sof : DWord) : Bool :=
  !f.ide && !f.rtr && (f.fmt == .cc || (f.fmt == .fd && f.brs)) && f.data.length == 8 && (f.data.getD 0 0).toNat % 16 == 1 && ofBe (slice f.data 4 4) == s.cycleNs k
    && (!scheduled (s.group k) || s.inSlotWindow k (s.slotAt k 0) sof)

/-- A reference frame of entry e is accepted: the cycle starts at its start of frame (R245, R254, R266 to R269). -/
def State.acceptRef (s : State) (k : GrpId) (e : Fin 4) (own : Bool) (f : CanFrame) (sof : DWord) : State :=
  let was := scheduled (s.group k)
  -- a frame of the next cycle, whose start has not been settled, turns the cycle first
  let s := if was && s.inNextCycle k sof then s.turnCycle k else s
  let g := s.group k
  -- rho of the leader, from the stamps of two cycle starts in a row
  let measured := if own || g.accepted then none else match g.lastRef with
    | some (l, c) => if l = e.val then some (s.timeAt sof - s.timeAt c).toInt.toNat else none
    | none => none
  let rho := measured <|> g.rho
  let rhoOf := if measured.isSome then e.val else g.rhoOf
  let shown := if rhoOf = e.val then rho else none
  let cnt := BitVec.ofNat 16 (ofBe (slice f.data 2 2))
  let still := scheduled g
  let g := { setPhase g (if still then gPhase g else .startup) with
    cycleAt := sof, cycleCnt := cnt, accepted := true, refSof := true, nextRefSof := false, misses := 0, rho := rho, rhoOf := rhoOf, gridDue := none,
    lastRef := some (e.val, sof), deviation := s.deviationOf k own cnt sof shown, refSend := none,
    role := if own then .leading else if (s.devEntry k).isSome then .integrated else .none_ }
  let s := s.groupGoes k g
  (s.setLeader k e.val).promoteGroup k

/-- A frame that ends on the joined bus without error is examined as a reference frame (R266). -/
def State.examineRef (s : State) (k : GrpId) (e : Option (Fin 4)) (own : Bool) (f : CanFrame) (sof : DWord) : State :=
  match e with
  | none => s
  | some e =>
    if !s.traverse k || (s.group k).state = .stopped || (s.group k).state = .joining || !s.refForm k f sof then s
    else if (f.data.getD 1 0).toNat ≠ s.tableTag k then s.grpEvt k 7
    else s.acceptRef k e own f sof

/-- The next bus idle after an error that is detected now: the shortest error frame and intermission are 6 + 8 + 3 nominal bits (log 26). -/
def State.idleAfterError (s : State) (k : GrpId) : DWord :=
  after s.raw (17 * s.nbt (s.anchor k) + Config.errorTail s.raw.toNat k.val)

/-- An error frame on the joined bus before the device has integrated starts its back-off at the next bus idle, while it listens too
(R269 step 4); the frame in progress has ended. -/
def State.refError (s : State) (k : GrpId) : State :=
  let g := s.group k
  let g := { g with promoteCnt := 0, frame := none }
  s.setGroup k (if gPhase g = .coldstart ∧ (g.role = .sendDue ∨ g.role = .backoff ∨ g.role = .listening) then
    { g with role := .backoff, refSend := none, gridDue := none, listenAt := s.idleAfterError k } else g)

end Sys2Proof.Machine
end

