-- ==== Sys2Proof/Machine/Tx.lean ====
section
/-! DEFINITION. Transmission on a field port: descriptors, starts, attempts, errors (R112 to R115, R178 to R224, R261 to R264, R396, R506). -/
namespace Sys2Proof.Machine

/-! ### TX_FRAME (R77, R78, R88, R120, R169, R183 to R187) -/

/-- Fields of TX_FRAME. -/
def txFields : List (Nat × Nat × Nat) :=
  [(4, 0, 31), (8, 0, 6), (9, 0, 4), (10, 0, 16), (12, 0, 8), (13, 0, 8), (14, 0, 1), (15, 0, 8), (16, 0, 32), (20, 0, 32), fAddr]

def txFmt (x : Desc) : Option Fmt := fmtOf (dfld x 8 0 2)
def txSeal (x : Desc) : Bool := dbit x 8 4
def txLen (x : Desc) : Nat := dnum x 10 2
def txRtr (x : Desc) : Bool := dbit x 4 30 && txFmt x == some .cc
/-- No payload is read from host memory: inline, none, or a remote frame (log 25). -/
def txNoLoad (x : Desc) : Bool := dinline x || txLen x == 0 || txRtr x

/-- The checks that give BAD_DESC (R77, R120, R169); the formats of a port of another domain are not looked at (R23). -/
def State.txBad (s : State) (d : Dom) (p : PortId) (x : Desc) : Bool :=
  !reservedZero x txFields ||
    (match txFmt x with
     | none => true
     | some f =>
       !idWordOk f (dnum x 4 4) || (dinline x && decide (8 < txLen x)) || (txSeal x && f == .cc)
         || !(if txSeal x then lenOkSealed f (s.trailer d (dnum x 15 1)) (txLen x) else lenOk f (txLen x)) || (s.portOwner p == d && !s.fmtEnabled p f))

/-- The first fetch check that fails (R187, log 10): a port that has passed to another domain is not the ring's any more (R24, R78). -/
def State.txCode (s : State) (d : Dom) (p : PortId) (x : Desc) : Option Byte :=
  if s.txBad d p x then some 0x32
  else if s.portOwner p ≠ d || (txSeal x && !s.ownKey d (dnum x 15 1)) then some 0x31
  else if !txNoLoad x && !s.inWindow d (daddr x).toNat (txLen x) true false then some 0x30
  else none

/-- The raw instant at which a hold time of t microseconds from now ends; 0 sets none (R200). -/
def State.holdLimit (s : State) (t : Nat) : Option DWord := if t = 0 then none else some (after s.raw (us t))

/-- The candidate of a TX_FRAME (R178, R200). -/
def State.txCand (s : State) (n : RingNo) (x : Desc) (op : Op) : Cand :=
  { slot := 0, order := 0, src := .ring n, op := op,
    frame := mkFrame ((txFmt x).getD .cc) (dnum x 4 4) (dnum x 8 1) (dnum x 12 1) (dnum x 13 1) (dbit x 14 0) (dnum x 16 4)
      (if dinline x && !txRtr x then (leBytes 8 (daddr x).toNat).take (txLen x) else []) (txLen x),
    sealWith := if txSeal x then some (BitVec.ofNat 8 (dnum x 15 1)) else none, alcount := dbit x 8 5, retry := dfld x 9 0 4, tsq := dtsq x,
    addr := if txNoLoad x then none else some (daddr x), len := txLen x, ready := txNoLoad x, due := s.holdLimit (dnum x 20 4) }

/-- TX_FRAME once fetched; a ring is served last where its descriptor takes a slot (R181). -/
def State.txOp (s : State) (p : PortId) (n : RingNo) (x : Desc) (op : Op) : State :=
  match s.txCode op.dom p x with
  | some code => s.complete op code (port := BitVec.ofNat 8 p.val)
  | none =>
    if s.flushing p then s.complete op 0x15 (port := BitVec.ofNat 8 p.val)
    else ((s.setPort p { s.port p with lastRing := n.val }).enterSet p (s.txCand n x op) false).fillSlots p 32

/-- The port that a TX ring names. -/
def State.ringPort (s : State) (d : Dom) (n : RingNo) : PortId := fin 32 (fld (s.ringCfg (s.dring d n)) 16 5)

/-- The port of a TX ring lets the ring be fetched (R181, R182, R184); of a port that has passed to another domain nothing is looked at. -/
def State.portTakes (s : State) (d : Dom) (p : PortId) (n : RingNo) (fifo : Bool) : Bool :=
  s.portOwner p != d
    || (!halted (s.port p).state && (s.flushing p || (s.mayTake p (heldByRing (s.port p) n) fifo && s.ringTurn p n)))

/-- TX_FRAME: fetched where R82, R83, R181, R182 and R184 allow it. The round-robin of the rings resumes after the ring that took a slot last; a
send of the send-object source leaves it where it was (DESIGN CHOICE, log 77). -/
def execTxFrame (d : Dom) (n : RingNo) (x : Desc) (s : State) : Result :=
  let p := s.ringPort d n
  let cfg := s.ringCfg (s.dring d n)
  if s.ringOn d n 0 && !bit cfg 9 && s.fetchable d n (dfence x) && s.portTakes d p n (bit cfg 8) then
    let s := s.fetch d n
    finish (s.txOp p n x { dom := d, num := n, tag := x.tag, epoch := (s.func d).epoch })
  else .next s

/-- NOP: DONE when it is fetched (R186); an operation on every ring (R82). -/
def execNop (d : Dom) (n : RingNo) (x : Desc) (s : State) : Result :=
  let i := s.dring d n
  let cfg := s.ringCfg i
  let p := s.ringPort d n
  let quiet := ringType cfg == 0 && !bit cfg 9 && s.portOwner p == d && halted (s.port p).state
  if s.fetchable d n (dfence x) && !quiet then
    let s := s.fetch d n
    let st : Byte := if reservedZero x [] then 0x00 else 0x32
    finish (s.complete { dom := d, num := n, tag := x.tag, epoch := (s.func d).epoch } st)
  else .next s

/-! ### Payload loads (R190, R191, R195) -/

/-- The candidate's payload lies in one of the two transmit buffers (R190). -/
def buffered (c : Cand) : Bool := c.addr.isSome && c.ready

/-- Buffers whose payload another may replace: of candidates outside the two lowest and not on the wire (R190). -/
def replaceable (x : Port) : List Cand :=
  x.cands.filter (fun e => buffered e && decide (onWireSlot x ≠ some e.slot) && !(lowestTwo (x.cands.filter inSet)).any (fun k => k.slot == e.slot))

/-- A buffer can take a load: one of the two is free, or may be reused (R190). -/
def bufferFor (x : Port) : Bool := decide ((x.cands.filter buffered).length < 2) || !(replaceable x).isEmpty

/-- Slot of the candidate that gives its buffer up to a load, the highest-ranked one; none where a buffer is free (R190, log 25). -/
def givesUp (x : Port) : Option Nat :=
  if (x.cands.filter buffered).length < 2 then none else (highest (replaceable x)).map (fun e => e.slot)

/-- The payload of candidate c is loaded at a raw instant; what lay in the buffer must be loaded again (R190, R191). -/
def loadPayload (raw : DWord) (x : Port) (c : Nat) (bs : List Byte) : Port :=
  { x with cands := x.cands.map (fun e =>
      if e.slot = c then { e with ready := true, since := raw, frame := { e.frame with data := bs } }
      else if some e.slot = givesUp x then { e with ready := false, reread := false, frame := { e.frame with data := [] } } else e) }

/-- The candidates of the port keep their slots and end by few paths only (R225). -/
def State.keepsCands (s : State) (p : PortId) : Bool :=
  let x := s.port p
  x.state == .hold || x.state == .busoff || x.state == .isolated || (x.lone && s.rb (.port p .mode) 12) || x.suspend
    || (x.state == .test && s.testMode p == 3)

/-- PAYLOAD_LOADED: the bytes are at the front end, or the read failed and is made once more, or twice and the candidate ends; where R225
keeps the candidate, its payload is read afresh (log 25). -/
def execPayloadLoaded (p : PortId) (c : Nat) (reread : Bool) (bytes : Option (List Byte)) (s : State) : Result :=
  let x := s.port p
  match candAt x c with
  | none => .next s
  | some k =>
    if k.ready || k.ending.isSome || k.addr.isNone || decide (k.reread ≠ reread) || !(lowestTwo (x.cands.filter inSet)).any (fun e => e.slot == c) || !bufferFor x then
      .next s
    else
      match bytes with
      | some bs =>
        if bs.length ≠ k.len then .fault .dataLength
        else finish (s.setPort p (loadPayload s.raw x c bs))
      | none =>
        if reread && s.keepsCands p then
          finish (s.setPort p { x with cands := x.cands.map (fun e => if e.slot = c then { e with reread := false } else e) })
        else if reread then finish (s.setPort p (addEnding s.raw x 1 (fun e => e.slot == c)))
        else finish ((s.setPort p { x with cands := x.cands.map (fun e => if e.slot = c then { e with reread := true } else e) }).countDev 4)

/-! ### Hold times and slots (R200, R201, R262 to R264) -/

/-- The hold time of candidate c has ended: off the wire it ends EXPIRED at the settling, on the wire the end of its attempt sees it
(R201). -/
def State.holdTimeEnds (s : State) (p : PortId) (c : Nat) : State :=
  let x := s.port p
  if onWireSlot x = some c then
    s.setPort p { x with cands := x.cands.map (fun e => if e.slot = c then { e with holdEnded := true } else e) }
  else s.setPort p (addEnding s.raw x 8 (fun e => e.slot == c))

/-- The candidate at a slot is still the one with an order number. -/
def State.sameCand (s : State) (p : PortId) (c order : Nat) : Bool := (candAt (s.port p) c).any (fun e => e.order == order)

/-- CANDIDATE_EXPIRY: at the due instant of the hold time (R200); a candidate that has ended by then leaves the slot's next one alone. -/
def execCandidateExpiry (p : PortId) (c : Nat) (s : State) : Result :=
  match candAt (s.port p) c with
  | some k => match k.due with
    | some t => finish (if (s.advance t).sameCand p c k.order then (s.advance t).holdTimeEnds p c else s.advance t)
    | none => .next s
  | none => .next s

/-- Latest fitting start of the candidate's own slot, by the time of the present cycle: chosen from the moment it became ready, or from
which the node may start where that is later (R263, R264). -/
def State.ownSlot (s : State) (p : PortId) (k : GrpId) (c : Cand) (may : DWord) : Option Int :=
  s.ownStart k c.frame.ident.toNat c.frame.ide (s.duration p c.frame (s.wireLen (s.freshLen c))) (if may ≤ c.since then c.since else may)

/-- The latest fitting start of candidate c has passed: off the wire it ends SLOT_MISSED, on the wire where its attempt fails (R263). -/
def State.slotPassed (s : State) (p : PortId) (c : Nat) : State :=
  let x := s.port p
  if onWireSlot x = some c then
    s.setPort p { x with cands := x.cands.map (fun e => if e.slot = c then { e with ending := some 12 } else e) }
  else s.setPort p (addEnding s.raw x 12 (fun e => e.slot == c))

/-- SLOT_MISSED: at the latest fitting start of the candidate's own slot, attempts being possible then (R263, R264). -/
def execSlotMissed (p : PortId) (c : Nat) (s : State) : Result :=
  match s.anchorOf p, candAt (s.port p) c with
  | some k, some e =>
    match s.may[k] with
    | none => .next s
    | some t =>
      if s.traverse k && !s.missWait k && e.ready && inSet e then
        match s.ownSlot p k e t with
        | some l =>
          let t := s.advance (s.rawOfFlow (s.flow (s.group k).cycleAt + BitVec.ofInt 64 l))
          finish (if t.sameCand p c e.order then t.slotPassed p c else t)
        | none => .next s
      else .next s
  | _, _ => .next s

/-! ### The start decision (R188 to R195, R261, R307) -/

/-- Payload of a candidate at its start of frame; a send object's is read from its main slot (R155). -/
def State.startData (s : State) (c : Cand) : List Byte :=
  match c.src with
  | .obj o =>
    let ob := s.obj c.op.dom o.toNat
    if c.frame.rtr then [] else s.tarnRead c.op.dom (objMain ob + 16) ob.len
  | .ring _ => c.frame.data

/-- The candidate as it would go on the wire: data and the length of that moment; the trailer's FV is taken later (R171). -/
def State.startCand (s : State) (c : Cand) : Cand :=
  let k := s.freshLen c
  { k with frame := { k.frame with data := s.startData k, dlc := dlcOf k.frame.fmt (s.wireLen k) } }

/-- The candidate is admitted at a corrected start of frame; outside a traverse group always (R261). -/
def State.admitted (s : State) (p : PortId) (f : CanFrame) (len : Nat) (sof : DWord) : Bool :=
  match s.groupOf p with
  | none => true
  | some k => (s.group k).state = .stopped || !s.traverse k || s.admitsAt k f.ident.toNat f.ide (s.duration p f len) sof

/-- The group of an anchor lets its node start a data frame (R247, R264). -/
def State.groupLets (s : State) (p : PortId) : Bool :=
  match s.groupOf p with
  | none => true
  | some k => s.anchor k == p && ((s.group k).state == .startup || (s.group k).state == .normal) && (s.group k).holdPending.isNone
      && (s.group k).frame.isNone

/-- The port may start an attempt at this opportunity, as far as its own state goes (R21, R106, R126, R128, R195, R406). -/
def State.mayStart (s : State) (p : PortId) : Bool :=
  let x := s.port p
  x.joined && x.onWire.isNone && !x.stopPending && x.holdPending.isNone && !x.refStop && !s.forbidden p && (s.spur.attached[p]).isSome
    && s.active (s.portOwner p)

/-- The start-of-frame bit of a frame is driven, in a group on every JOINED branch (R194, R231): ON_WIRE, the bus is not idle. -/
def State.driveSof (s : State) (p : PortId) (w : Sending) (f : CanFrame) (sof : DWord) : State :=
  let dly := s.rf (.port p .txdly) 0 16
  let s := s.setPort p { s.port p with onWire := some { what := w, frame := f, sof := after sof dly, tries := (s.port p).ft.tries }, busIdle := false }
  s.emitNode p (fun q => .frame q f)

/-- From when to when each candidate stood ready in the set, those that have left it of late among them (R192, R193). -/
def readySpans (x : Port) : List (Nat × Option Nat) :=
  ((x.cands ++ x.left).filter (fun e => inSet e && e.ready)).map (fun e => (e.since.toNat, e.ending.map (fun _ => e.endAt.toNat)))

/-- Raw time of the start decision for a start of frame at sof (R192). A start on an idle bus follows the decision by 12.5 ns to a nominal bit
time more: where no candidate was ready as that interval opened, the decision falls to the moment in it at which a ready one first existed.
Otherwise it is the sample instant of the bit before (log 49). -/
def State.decisionAt (s : State) (p : PortId) (sof : DWord) : Nat :=
  let x := s.port p
  let nbt := s.nbt p
  let latest := sof.toNat - 200
  let opens := sof.toNat - nbt - 200
  if (readySpans x).any (fun e => decide (e.1 < opens) && e.2.all (fun t => decide (opens < t))) then
    sof.toNat - (nbt - sampleInstant nbt (s.rf (.port p .nbt) 24 8))
  else min latest ((((readySpans x).map (·.1)).filter (fun t => decide (opens ≤ t))).min?.getD latest)

/-- The own slot of a candidate under MISS_MODE 0 passed before a corrected start of frame (R263). -/
def State.slotGone (s : State) (p : PortId) (c : Cand) (sof : DWord) : Bool :=
  match s.anchorOf p with
  | none => false
  | some k =>
    if !s.traverse k || s.missWait k then false
    else match (s.may[k]).bind (fun t => s.ownSlot p k c t) with
      | some l => decide (l < s.elapsed (s.group k).cycleAt sof)
      | none => false

/-- The candidate stood ready in the set at a decision, and had not been withdrawn by then (R193). -/
def offeredAt (c : Cand) (t : Nat) : Bool :=
  inSet c && c.ready && decide (c.since.toNat ≤ t) && (c.ending.isNone || decide (t < c.endAt.toNat))

/-- The lowest-ranked ready candidate that the schedule admits at the start decision (R192, R193, R261, R263). -/
def State.chosen (s : State) (p : PortId) (sof : DWord) : Option Cand :=
  let x := s.port p
  let c := after sof (s.rf (.port p .txdly) 0 16)
  let t := s.decisionAt p sof
  lowest ((x.cands ++ x.left).filter (fun e => offeredAt e t && s.admitted p e.frame (s.wireLen (s.freshLen e)) c && !s.slotGone p e c))

/-- The seal check at the start of frame (R172, R509). -/
def State.sealStarts (s : State) (c : Cand) : Bool :=
  match c.sealWith with
  | some h => s.sealReady c.op.dom h.toNat c.frame.fmt c.len
  | none => true

/-- The start of the chosen candidate. No frame starts where it was withdrawn since the decision (R193), or where it ends SEAL_FAIL, which
is settled with its other endings (R172, R224). -/
def State.startCandidate (s : State) (p : PortId) (c : Cand) (sof : DWord) : State :=
  let k := s.startCand c
  if c.ending.isSome then s
  else if s.sealStarts k then s.driveSof p (.cand c.slot) k.frame sof
  else s.setPort p (addEnding s.raw (s.port p) 2 (fun e => e.slot == c.slot))

/-- The start of frame of a reference frame of the device. -/
def State.driveRef (s : State) (k : GrpId) (p : PortId) (cold : Bool) (sof : DWord) : State :=
  let s := s.advance sof
  let s := s.setGroup k { s.group k with refSend := none, gridDue := none, refSof := true }
  s.driveSof p .reference (s.refFrame k cold (s.group k).cycleCnt) sof

/-- What the port offers at a start opportunity: a due reference frame of its group, the field-time frame, or the candidate, by
arbitration value with a tie to the field-time frame (R192, R269, R307). -/
def State.startOp (s : State) (p : PortId) (sof : DWord) : State :=
  let at_ : DWord := BitVec.ofNat 64 (s.decisionAt p sof)
  let ref := (s.anchorOf p).bind (fun k => ((s.group k).refSend).map (fun cold => (k, cold)))
  match ref with
  | some (k, cold) =>
    let c := after sof (s.rf (.port p .txdly) 0 16)
    if cold && s.devMaster k then
      match (s.group k).gridDue with
      | none => s.planCold k
      | some m =>
        if c < s.gridRaw k m then s
        else if s.gridRaw k m < c then s.planCold k
        else (s.setGroup k { s.group k with cycleAt := c, cycleCnt := BitVec.ofInt 16 m }).driveRef k p cold sof
    else s.driveRef k p cold sof
  | none =>
    if !s.groupLets p then s
    else
      let ft := (s.nextField p (s.timeAt at_)).filter (fun e => s.admitted p e.2 8 (after sof (s.rf (.port p .txdly) 0 16)))
      match ft, s.chosen p sof with
      | some (w, f), some c => if arbValue c.frame < arbValue f then (s.advance sof).startCandidate p c sof else (s.advance sof).driveSof p w f sof
      | some (w, f), none => (s.advance sof).driveSof p w f sof
      | none, some c => (s.advance sof).startCandidate p c sof
      | none, none => s

/-- What the engine has armed the front end with beyond the attempt on the wire, at most one thing: the reference frame, field-time frame or candidate
that may start now (R192, R395). A lost engine arms nothing. -/
def State.arm (s : State) (p : PortId) : Option Sending :=
  let at_ := s.raw
  let ready := lowest ((s.port p).cands.filter (fun c => inSet c && c.ready && c.ending.isNone && s.admitted p c.frame (s.wireLen (s.freshLen c)) at_))
  if ((s.anchorOf p).bind (fun k => (s.group k).refSend)).isSome then (if (s.spur.attached[p]).isSome then some .reference else none)
  else if !s.mayStart p || !s.groupLets p then none
  else match (s.nextField p (s.timeAt at_)).filter (fun e => s.admitted p e.2 8 at_), ready with
    | some (w, f), some c => some (if arbValue c.frame < arbValue f then .cand c.slot else w)
    | some (w, _), none => some w
    | none, some c => some (.cand c.slot)
    | none, none => none

/-- A reference frame of the group may start: its node runs, held or not, and the joined bus carries no frame (R247, R249, R269 step 3). -/
def State.refMayStart (s : State) (p : PortId) : Bool :=
  let x := s.port p
  (match s.anchorOf p with
    | some k => (s.group k).frame.isNone
    | none => true) &&
  x.joined && x.onWire.isNone && !x.stopPending && !x.refStop && !(x.lone && s.rb (.port p .mode) 12) && !x.suspend
    && (match x.state with
        | .startup | .normal | .hold | .isolated => true
        | .recovery => !x.seqOn
        | _ => false)

/-- START_DECISION. -/
def execStartDecision (p : PortId) (sof : DWord) (s : State) : Result :=
  let refDue := ((s.anchorOf p).bind (fun k => (s.group k).refSend)).isSome
  if s.otherFamily p then .refused .otherImageFamily
  else if s.silentMember p then .next s
  else if refDue then (if s.refMayStart p then finish (s.startOp p sof) else .next s)
  else if s.mayStart p then finish (s.startOp p sof)
  else .next s

/-- SUSPEND_END (R213). -/
def execSuspendEnd (p : PortId) (s : State) : Result :=
  if (s.port p).suspend then finish (s.setPort p { s.port p with suspend := false }) else .next s

/-! ### The end of an attempt (R112, R114, R171, R197 to R206, R219, R396) -/

/-- Loop delay of the attempt's frame, where compensation is in use: the setting's offset and the data-phase bit time (R112, R236). An FD frame
with BRS 0 has no data phase and makes no measurement (DEDUCED, log 52). -/
def State.tdcOf (s : State) (p : PortId) (f : CanFrame) : Option (Nat × Nat) :=
  match f.fmt with
  | .fd => if f.brs && s.rb (.port p .mode) 8 then some (s.rf (.port p .dsjw) 16 16, s.dbt p) else none
  | .xl => if s.rb (.port p .mode) 9 then some (s.rf (.port p .xsjw) 16 16, s.xbt p) else none
  | .cc => none

/-- The loop delay that the port measures: an edge before TDC_FILT, or past min(3 data-phase BT, 32,000), is none (R112, R114). -/
def State.loopOf (s : State) (p : PortId) (f : CanFrame) (loop : Option Half) : Option Half :=
  match s.tdcOf p f with
  | some (_, bt) => loop.filter (fun l => decide (s.rf (.port p .tdcf) 0 16 ≤ l.toNat ∧ l.toNat ≤ min (3 * bt) 32000))
  | none => none

/-- R114 applies to the attempt: the measured loop delay is too long, or there is none. -/
def State.tdcRange (s : State) (p : PortId) (f : CanFrame) (loop : Option Half) : Bool :=
  match s.tdcOf p f with
  | none => false
  | some (off, bt) => match s.loopOf p f loop with
    | some l => sspOver l.toNat off bt
    | none => true

/-- FPn_TDCSTAT takes the loop delay (R112). -/
def State.noteLoop (s : State) (p : PortId) (f : CanFrame) (loop : Option Half) : State :=
  match s.tdcOf p f, s.loopOf p f loop with
  | some _, some l =>
    let x := s.port p
    s.setPort p (if f.fmt = .xl then { x with loopXl := l } else { x with loopFd := l })
  | _, _ => s

/-- Frame with its trailer once the seal's FV is taken: when arbitration is won, at the latest on commit or at the end of an attempt that won
it (R171). -/
def State.takeTrailer (s : State) (p : PortId) : State :=
  let x := s.port p
  match x.onWire with
  | some a =>
    match onWireSlot x with
    | some i =>
      match candAt x i with
      | some c =>
        match c.sealWith with
        | some h =>
          if a.trailed || !s.ownKey c.op.dom h.toNat then s
          else
            let (s, t) := s.takeFv p h.toNat a.frame
            s.setPort p { s.port p with onWire := some { a with trailed := true, frame := { a.frame with data := a.frame.data ++ t } } }
        | none => s
      | none => s
    | none => s
  | none => s

/-- Counters of a lone node after an attempt (R219, R220). -/
def State.ackErr (s : State) (p : PortId) : State :=
  let x := s.port p
  let run := min 31 (x.ackRun + 1)
  let s := s.setPort p { x with ackRun := run, lone := x.lone || decide (16 ≤ run) }
  if 16 ≤ run && !x.lone then s.portEvt p 2 else s
def State.ackReset (s : State) (p : PortId) : State := s.setPort p { s.port p with ackRun := 0, lone := false }

/-- The candidate after the attempt, and the status by which it ends, if it ends (R198, R199, R203). -/
def attemptOutcome (c : Cand) (r : AttemptResult) (stopping flushing : Bool) : Cand × Option Byte :=
  let c := { c with attempts := c.attempts + 1 }
  let after (c : Cand) : Cand × Option Byte :=
    if c.holdEnded then (c, some 0x12) else if c.ringOff then (c, some 0x13) else if stopping then (c, some 0x14)
    else if flushing then (c, some 0x15) else if c.ending = some 12 then (c, some 0x17) else (c, none)
  let limit (c : Cand) : Cand × Option Byte :=
    let c := { c with counted := c.counted + 1 }
    if c.retry ≠ 15 ∧ c.retry < c.counted then (c, some (if c.nonAck then 0x10 else 0x11)) else after c
  match r with
  | .success => (c, some (if c.attempts = 1 then 0x00 else 0x01))
  | .arbLost => let c := { c with arb := c.arb + 1 }; if c.alcount then limit { c with nonAck := true } else after c
  | .error e _ => limit { c with errors := c.errors + 1, lastErr := some e, nonAck := c.nonAck || decide (e ≠ .ack) }

/-- A candidate's attempt is settled (R197 to R205, R399). -/
def State.settleAttempt (s : State) (p : PortId) (c : Cand) (r : AttemptResult) (sof : DWord) : State :=
  let x := s.port p
  let (k, st) := attemptOutcome c r (x.stopPending || x.refStop || x.state == .stopped) (x.state == .busoff && x.flush)
  match st with
  | some code => s.endCand p k code (if r = .success then some (s.short sof) else none)
  | none => s.setPort p { x with cands := x.cands.map (fun e => if e.slot = c.slot then k else e) }

/-- Suspend transmission after a transmission of an error-passive port (R213). -/
def suspends (x : Port) : Bool := passive x.tec x.rec_

/-- A frame that this node has sent with success, or its own frame in loopback, counts towards promotion (R124, R236, R245). -/
def State.promoteBy (s : State) (p : PortId) : State :=
  let s := s.promote p
  match s.anchorOf p with
  | some k => if (s.group k).state ≠ .stopped ∧ !s.traverse k then s.promoteGroup k else s
  | none => s

/-- What the end of a candidate's attempt leaves: its engine settles it, or, while the port has none, a committed outcome waits in the
record and a destroyed attempt is counted (R396 to R399). -/
def State.endCandAttempt (s : State) (p : PortId) (a : Attempt) (c : Cand) (r : AttemptResult) : State :=
  let s := if c.attempts = 0 then s else s.countPort p 0x88
  let here := (s.spur.attached[p]).isSome
  let x := s.port p
  let s := if a.committed then
      s.setPort p { x with record := ({ slot := c.slot, order := c.order, result := r, sof := a.sof, settled := here } :: x.record).take 4 } else s
  if here then s.settleAttempt p c r a.sof
  else if a.committed then s
  else
    let x := s.port p
    let x : Port := { x with cands := x.cands.map (fun e => if e.slot = c.slot then (attemptOutcome c r false false).1 else e) }
    s.setPort p (if x.state = .stopped then addEnding s.raw x 10 (fun e => e.slot == c.slot) else x)

/-- A port in TEST in internal or external loopback. -/
def State.loopback (s : State) (p : PortId) : Bool := (s.port p).state == .test && (s.testMode p == 1 || s.testMode p == 2)

/-- The attempt ends with success: counters, promotion, completion or field time, and reception in loopback (R124, R207, R210). -/
def State.attemptDone (s : State) (p : PortId) (a : Attempt) : State :=
  let x := s.port p
  let s := if halted x.state then s
    else s.setPort p (demote { x with tec := x.tec - 1, suspend := suspends { x with tec := x.tec - 1 }, busIdle := true })
  let s := s.countFrame p a.frame false
  let s := s.ackReset p
  let s := s.promoteBy p
  let s := match a.what with
    | .cand i => match candAt (s.port p) i with
      | some c => s.endCandAttempt p a c .success
      | none => s
    | .reference => match s.anchorOf p with
      | some k => s.examineRef k (s.devEntry k) true a.frame a.sof
      | none => s
    | w =>
      let s := if a.tries = 0 then s else s.countPort p 0x88
      s.setPort p { s.port p with ft := fieldSent (s.port p).ft w a.frame (s.timeAt a.sof) s.raw }
  if s.loopback p then s.stageFrame p { frame := a.frame, sof := a.sof, arrived := p } else s

/-- A cold-start reference frame that has lost arbitration goes out at a later opportunity, unless the device integrates to the frame it
receives (R269 step 3, log 26). -/
def State.refLostBus (s : State) (p : PortId) : State :=
  match s.anchorOf p with
  | some k =>
    if gPhase (s.group k) = .coldstart ∧ (s.group k).role = .sendDue then s.setGroup k { s.group k with refSend := some true } else s
  | none => s

/-- The attempt ends in an error or an arbitration loss. -/
def State.attemptFailed (s : State) (p : PortId) (a : Attempt) (r : AttemptResult) : State :=
  let x := s.port p
  let s := match r with
    | .arbLost => s.countPort p 0x80
    | .error _ _ => s.setPort p { s.port p with suspend := suspends x && !halted x.state, busIdle := takesPart x && x.joined }
    | .success => s
  match a.what with
  | .cand i => match candAt (s.port p) i with
    | some c => s.endCandAttempt p a c r
    | none => s
  | .reference => if r = .arbLost then s.refLostBus p else s
  | w =>
    let s := if a.tries = 0 then s else s.countPort p 0x88
    s.setPort p { s.port p with ft := fieldFailed (s.port p).ft w a.frame a.tries }

/-- The attempt won arbitration (R171, R206). -/
def wonArb : AttemptResult → Bool
  | .success => true
  | .arbLost => false
  | .error _ won => won

/-- The joined bus carries no frame after an attempt of the device's node that has not lost arbitration to a branch (R231, R256). -/
def State.frameEnds (s : State) (p : PortId) (r : AttemptResult) : State :=
  match s.anchorOf p with
  | some k => if r = .arbLost then s else s.setGroup k { s.group k with frame := none }
  | none => s

/-- The attempt on the wire ends with a result. -/
def State.endAttempt (s : State) (p : PortId) (r : AttemptResult) : State :=
  match (s.port p).onWire with
  | none => s
  | some a0 =>
    let s := if wonArb r then s.takeTrailer p else s
    let a := ((s.port p).onWire).getD a0
    let s := (s.setPort p { s.port p with onWire := none }).frameEnds p r
    if r = .success then s.attemptDone p a else s.attemptFailed p a r

/-- ATTEMPT_COMMIT: the attempt has won arbitration, which takes its FV, or has passed its last data bit, its trailer among them (R171, R206,
R396, log 23). A destroyed attempt commits no more (R397). -/
def execAttemptCommit (x : Passage) (s : State) : Result :=
  let p := x.port
  match (s.port p).onWire with
  | none => .next s
  | some a =>
    if a.committed || a.destroyed then .next s
    else
      let s := s.takeTrailer p
      let a := ((s.port p).onWire).getD a
      match x.point with
      | .arbitration => finish s
      | .commit => finish (s.setPort p { s.port p with onWire := some { a with committed := true } })

/-! ### Errors (R119, R121, R207 to R214, R506, R507) -/

/-- The error counters take part in a state (R209). -/
def State.countsErrors (s : State) (p : PortId) : Bool := takesPart (s.port p) && !s.silentMember p

/-- The event is a protocol exception: PXE is 1, or the format is FD on a port of CC and XL with error signalling off (R118, R119). -/
def State.protocolExc (s : State) (p : PortId) (e : ErrEvent) : Bool :=
  let m := Reg.port p .mode
  e.unknownFormat && (s.rb m 5 || (s.rb m 4 && !s.rb m 6 && !e.resBit))

/-- The kind of the error: a form error for a format that is not enabled (R119), a bit error for one met in an overload flag (R207). -/
def errKindOf (e : ErrEvent) : ErrKind := if e.unknownFormat then .form else if e.overload then .bit else e.kind

/-- ACKERR_RUN after an error detected as transmitter: an ACK error raises it, and any other one, met in the flag that follows too, returns it to 0
(R219). -/
def State.noteAck (s : State) (p : PortId) (e : ErrEvent) : State :=
  let s := if e.kind = .ack then s.ackErr p else s
  if e.kind ≠ .ack ∨ 0 < e.flagBitErrors then s.ackReset p else s

/-- The port detects an error, or sends an overload flag, in which it may meet bit errors: LAST_ERR, TEC and REC, ACKERR_RUN, the
statistics and the flag; TEC beyond 255 is bus-off (R119, R121, R207 to R210, R214, R219, R231, R506). -/
def State.errorOp (s : State) (p : PortId) (e0 : ErrEvent) : State :=
  let x := s.port p
  let e := { e0 with kind := errKindOf e0 }
  if s.protocolExc p e then (s.setPort p { x with busIdle := false, joined := false }).portEvt p 8 |>.countPort p 0x7C
  else if s.loopback p && e.tx && decide (e.kind = .ack) then s
  else
    let isErr := !e.overload || decide (0 < e.flagBitErrors)
    let silent := e.xlData && !s.rb (.port p .mode) 6
    let pass := passive x.tec x.rec_
    let listen := x.state = .test ∧ s.testMode p = 3
    let (dt, dr) := if silent then (0, 0) else errAdds e pass
    let dt := if x.state = .hold ∨ listen then 0 else dt
    let s := if e.overload then s.countPort p 0x84 else s
    let s := if isErr then s.countError p e silent else s
    let s := if silent ∨ listen ∨ !isErr then s else s.emitNode p (fun q => .errorFlag q (!pass))
    let y := { s.port p with
      rec_ := min 255 (x.rec_ + dr), tec := x.tec + dt, busIdle := false, joined := x.joined && !silent, integ := silent }
    let y := if isErr then { y with lastErr := some e.kind, lastErrTx := e.tx } else y
    let s := s.setPort p (demote y)
    let s := if isErr && e.tx then s.noteAck p e else s
    let s := match s.anchorOf p with
      | some k => if (s.group k).state = .stopped ∨ !isErr ∨ silent then s else s.refError k
      | none => s
    if 255 < x.tec + dt then
      -- the failed attempt that caused bus-off ends with it (R214, R216)
      (s.enterBusoff p).endAttempt p (.error e.kind e.won)
    else s

/-- A bit error of this transmitter at the first bit of the data phase of a frame, as R114 has it. -/
def tdcError (f : Fmt) : ErrEvent :=
  { kind := .bit, tx := true, arbStuff := false, dominantInFlag := false, dominantAfterFlag := false, flagBitErrors := 0, longRuns := 0,
    xlData := decide (f = .xl), unknownFormat := false }

/-- The result of an attempt as the port takes it: no ACK error in loopback (R210); with a loop delay that is too long or missing, the
success that the command names is a bit error (R114). -/
def State.attemptOp (s : State) (p : PortId) (r : AttemptResult) (loop : Option Half) : State :=
  match (s.port p).onWire with
  | none => s
  | some a =>
    let r := match r with
      | .error .ack won => if s.loopback p then .success else .error .ack won
      | r => r
    let late := match r with
      | .success => s.tdcRange p a.frame loop
      | .error _ _ => loop.isSome && s.tdcRange p a.frame loop
      | .arbLost => false
    let s := s.noteLoop p a.frame loop
    let s := if late then s.portEvt p 6 else s
    if late && decide (r = .success) then (s.errorOp p (tdcError a.frame.fmt)).endAttempt p (.error .bit) else s.endAttempt p r

/-- ATTEMPT_END: a destroyed attempt ends in an error frame and has no success (R397). -/
def execAttemptEnd (p : PortId) (r : AttemptResult) (loop : Option Half) (s : State) : Result :=
  if (s.port p).onWire.all (fun a => a.destroyed && decide (r = .success)) then .next s
  else if s.otherFamily p then .refused .otherImageFamily
  else finish (s.attemptOp p r loop)

/-- ERROR_DETECTED; a port under a forced self-test detects none (R471). -/
def execErrorDetected (p : PortId) (e : ErrEvent) (s : State) : Result :=
  if s.otherFamily p then .refused .otherImageFamily
  else if s.underTest p then .next s
  else if s.countsErrors p then finish (s.errorOp p e)
  else match s.anchorOf p with
    | some k => if (s.group k).state = .stopped ∨ takesPart (s.port p) ∨ (e.xlData ∧ !s.rb (.port p .mode) 6) then .next s else finish (s.refError k)
    | none => .next s

/-- Time from the start of the recovery sequence to the end of its n-th run of 11 recessive nominal bits: 11 bit times for each, and what the bus
leaves between them (R212, log 35). -/
def State.runEnd (s : State) (p : PortId) (n : Nat) : Nat :=
  (List.range n).foldl (fun t i => t + (11 * s.nbt p + Config.runDelay (s.port p).seqAt.toNat p.val i)) 0

/-- REC while SEQ is 1: runs counted so far (R212). -/
def State.runsSeen (s : State) (p : PortId) : Nat :=
  ((List.range 128).filter (fun i => decide (s.runEnd p (i + 1) ≤ s.raw.toNat - (s.port p).seqAt.toNat))).length

/-- RECOVERY_SEQ_END: 128 runs of 11 recessive nominal bits have been counted; error-active again; the state is PRIOR, or RECOVERY without its sequence, and a pending hold takes effect
(R125, R211, R212). -/
def execRecoverySeqEnd (p : PortId) (s : State) : Result :=
  if (s.port p).seqOn then
    let s := s.waitFrom (s.port p).seqAt (s.runEnd p 128)
    let x := s.port p
    let y := { x with seqOn := false, tec := 0, rec_ := 0, promoteCnt := 0, boAuto := false, joined := true, busIdle := true }
    let s := if x.state = .busoff then s.showPort p { y with state := x.prior, prior := .off } else s.setPort p y
    finish (s.holdArrives p)
  else .next s

end Sys2Proof.Machine
end

