-- ==== Sys2Proof/Machine/Ports.lean ====
section
/-! DEFINITION. Field-port commands, holds, wake, reception, bank supplies and in-line pairs (R99 to R136, R475, R486). -/
namespace Sys2Proof.Machine

/-! ### Who may write (R21, R28, R29, R40, R41, R483) -/

/-- A write of value v at BAR0 offset off by domain d to something that owner holds: dropped with a record where d does not hold it. -/
def State.ownedWrite (s : State) (d owner : Dom) (off : Nat) (v : Word) (f : State → State) : Result :=
  if !s.serves || !s.present d then .next s
  else if owner = d ∧ s.active d then finish (f s) else finish (s.crossDomain d off v)

/-- The record being applied holds back changes that the owner of a resource it names asks of that resource (R28). -/
def State.heldBack (s : State) (names : Applying → Bool) : Bool :=
  match s.belay.applying with
  | some a => names a
  | none => false

/-- The record names a group, or a port that is a member of it and stops with it (R28, R31). -/
def State.namesGroup (s : State) (k : GrpId) (a : Applying) : Bool :=
  a.groups.getLsbD k.val || (s.members k).any (fun p => a.ports.getLsbD p.val)

/-- A held change joins those of the record. -/
def State.holdBack (s : State) (h : Held) : State :=
  match s.belay.applying with
  | some a => { s with belay := { s.belay with applying := some { a with held := a.held ++ [h] } } }
  | none => s

/-! ### Port commands (R109, R125 to R127, R218) -/

/-- A command that a group member refuses: CFG_CODE 08h, with CFG_ERR for START and SLEEP, else CMD_REFUSED, and no REFUSED_WRITE record
(R127; DESIGN CHOICE, log 43). -/
def State.memberRefuses (s : State) (p : PortId) (cfg : Bool) : State :=
  if cfg then s.cfgErr p 8 else (s.setPort p { s.port p with cfgCode := 8 }).cmdRefused p

/-- HALF bits of a block cleared. -/
def State.clearHalves (s : State) (b : Nat) : State := { s with halves := Tbl.drop s.halves (fun k => decide (k / 64 = b)) }

/-- Entry to OFF (R486): the clearing first, then STATE_CHG; a frame still on the wire is cut. -/
def State.toOff (s : State) (p : PortId) : State :=
  let x := addEnding s.raw { s.port p with onWire := none } 10 (fun _ => true)
  let s := (s.setReg (.port p .evt) 0).clearHalves p.val
  s.showPort p { x with state := .off, wakeArmed := false, fifo := [], record := [], tec := 0, rec_ := 0, loopFd := 0, loopXl := 0 }

def State.enableOp (s : State) (p : PortId) : State :=
  let x := s.port p
  if x.state ≠ .off then s.cmdRefused p
  else if !s.bankOn p then s.cfgErr p 9
  else if !s.imagePresent then s.cfgErr p 0xB
  else s.showPort p { x with state := .stopped }

/-- DISABLE; a hold that waits for the wake of a sleeping port is kept (DESIGN CHOICE, log 53). -/
def State.disableOp (s : State) (p : PortId) : State :=
  let x := s.port p
  if (s.groupOf p).isSome then s.memberRefuses p false
  else if x.state = .stopped ∨ x.state = .sleep then s.toOff p
  else s.cmdRefused p

def State.startPort (s : State) (p : PortId) : State :=
  if (s.groupOf p).isSome then s.memberRefuses p true
  else if (s.port p).state ≠ .stopped then s.cmdRefused p
  else if s.startCode p = 0 then s.portGoes p
  else s.cfgErr p (s.startCode p)

/-- STOP (R126): at once in BUSOFF and ISOLATED, otherwise pending until PORT_STOP_EFFECT, which comes at once on an idle bus (log 49). -/
def State.stopAccepted (s : State) (p : PortId) : State :=
  let x := s.port p
  if x.state = .busoff ∨ x.state = .isolated then s.toStopped p 10
  else s.setPort p { x with stopPending := true }

def State.stopPort (s : State) (p : PortId) : State :=
  if (s.groupOf p).isSome then s.memberRefuses p false
  else if halted (s.port p).state then s.cmdRefused p
  else s.stopAccepted p

/-- RESTART of a bus-off port, by command or through its group (R218, R246). -/
def State.restartAccepted (s : State) (p : PortId) : State :=
  s.showPort p { s.port p with state := .recovery, prior := .off, seqOn := true, seqAt := s.raw, joined := false }

def State.restartPort (s : State) (p : PortId) : State :=
  let x := s.port p
  if (s.groupOf p).isSome then s.memberRefuses p false
  else if x.state = .busoff ∧ !x.boAuto then s.restartAccepted p
  else s.cmdRefused p

def State.sleepPort (s : State) (p : PortId) : State :=
  let x := s.port p
  if (s.groupOf p).isSome then s.memberRefuses p true
  else if x.state ≠ .stopped then s.cmdRefused p
  else if s.rf (.port p .sleep) 0 2 = 1 ∧ ¬(50 ≤ s.rf (.port p .sleep) 4 10 ∧ s.rf (.port p .sleep) 4 10 ≤ 500) then s.cfgErr p 9
  else s.showPort p { x with state := .sleep, wakeArmed := true }

/-- SLEEP ends in STOPPED; a hold that waits for the wake is kept, since R60 does not name WAKE among what clears it (R60, R125; DESIGN CHOICE, log 53). -/
def State.toAwake (s : State) (p : PortId) : State :=
  s.showPort p { s.port p with state := .stopped, wakeArmed := false }

def State.wakePort (s : State) (p : PortId) : State :=
  if (s.port p).state = .sleep then s.toAwake p else s.cmdRefused p

/-- The command with code c; other values are ignored (FPn_CMD). -/
def State.portCommand (s : State) (p : PortId) (c : Nat) : State :=
  match c with
  | 1 => s.enableOp p
  | 2 => s.disableOp p
  | 3 => s.startPort p
  | 4 => s.stopPort p
  | 5 => s.restartPort p
  | 6 => s.sleepPort p
  | 7 => s.wakePort p
  | _ => s

/-- A command as it arrives: held back by a record or a forced self-test, or carried out (R28, R471). -/
def State.portRequest (s : State) (d : Dom) (p : PortId) (c : Nat) : State :=
  if s.heldBack (fun a => a.ports.getLsbD p.val) then s.holdBack (.portCmd d p c)
  else if s.underTest p then { s with cairn := { s.cairn with deferred := s.cairn.deferred ++ [.portCmd d p c] } }
  else s.portCommand p c

/-- A write of FPn_CMD. -/
def State.writePortCmd (s : State) (d : Dom) (p : PortId) (c : Nat) : Result :=
  s.ownedWrite d (s.portOwner p) (Reg.port p .cmd).off (BitVec.ofNat 32 c) (fun s => s.portRequest d p c)

def execPortEnable (d : Dom) (p : PortId) (s : State) : Result := s.writePortCmd d p 1
def execPortDisable (d : Dom) (p : PortId) (s : State) : Result := s.writePortCmd d p 2
def execPortStart (d : Dom) (p : PortId) (s : State) : Result := s.writePortCmd d p 3
def execPortStop (d : Dom) (p : PortId) (s : State) : Result := s.writePortCmd d p 4
def execPortRestart (d : Dom) (p : PortId) (s : State) : Result := s.writePortCmd d p 5
def execPortSleep (d : Dom) (p : PortId) (s : State) : Result := s.writePortCmd d p 6
def execPortWake (d : Dom) (p : PortId) (s : State) : Result := s.writePortCmd d p 7

/-- PORT_STOP_EFFECT: the end of the frame on the bus, or bus idle; after an error between ADS and DAS with XLES 0 that is the end of the
integration (R106, R126). -/
def execPortStopEffect (p : PortId) (s : State) : Result :=
  let x := s.port p
  if x.onWire.isSome ∨ x.integ ∨ s.silentMember p ∨ (s.anchorOf p).isSome then .next s
  else if x.refStop then finish ((s.toStopped p 10).portEvt p 7)
  else if x.stopPending then finish (s.toStopped p 10)
  else .next s

/-! ### Wake (R125, R130, R131) -/

/-- A bus wake: START if AUTOSTART is 1 and its checks pass, otherwise STOPPED; a kept hold takes effect as the port starts (R60). -/
def State.busWake (s : State) (p : PortId) : State :=
  let code := if (s.groupOf p).isSome then 8 else s.startCode p
  let s := s.portEvt p 3
  if s.rb (.port p .sleep) 2 then
    if code = 0 then (s.portGoes p).holdArrives p else (s.toAwake p).cfgErr p code
  else s.toAwake p

/-- WAKE_EDGE: a level that has been low since a fall of the armed port's FPn_RXD wakes it after WFILT × 10 ns; one that was low when SLEEP
was entered does not (R130). -/
def execWakeEdge (e : WakeLow) (s : State) : Result :=
  let p := e.port
  if (s.port p).state = .sleep ∧ (s.port p).wakeArmed ∧ s.rf (.port p .sleep) 0 2 = 1 ∧ e.fell ∧ 160 * s.rf (.port p .sleep) 4 10 ≤ e.low then
    finish (s.busWake p)
  else .next s

/-- Byte i of a frame matches FPn_WAKEDATA under FPn_WAKEDM; a masked byte beyond the frame's length does not (R130). -/
def wakeByte (data mask : DWord) (f : CanFrame) (i : Nat) : Bool :=
  let m := fld mask (8 * i) 8
  m == 0 || (decide (i < f.data.length) && ((f.data.getD i 0).toNat ^^^ fld data (8 * i) 8) &&& m == 0)

/-- The frame meets the wake filter (R130). -/
def State.wakeMatches (s : State) (p : PortId) (f : CanFrame) : Bool :=
  let idr := s.reg (.port p .wakeid)
  let msk := s.reg (.port p .wakeidm)
  let dlc := s.reg (.port p .wakedlc)
  f.fmt == .cc && ((f.ident.toNat ^^^ fld idr 0 29) &&& fld msk 0 29) == 0 && (!bit msk 29 || f.ide == bit idr 29)
    && (!bit dlc 4 || f.dlc.toNat == fld dlc 0 4)
    && (!bit dlc 5 || (List.range 8).all (fun i => wakeByte (s.reg (.port p .wakedata)) (s.reg (.port p .wakedm)) f i))

/-- WAKE_FRAME: decoding is suspended while REF25 is not locked (R106). -/
def execWakeFrame (p : PortId) (f : CanFrame) (s : State) : Result :=
  if (s.port p).state = .sleep ∧ (s.port p).wakeArmed ∧ s.rf (.port p .sleep) 0 2 = 2 ∧ s.tmu.reflock ∧ s.wakeMatches p f then finish (s.busWake p)
  else .next s

/-! ### Joining the bus; in-line pairs (R125, R133 to R135) -/

/-- An in-line pair may be inserting: its ports run in a group that is not about to stop for want of its reference (R133, R135). -/
def State.mayInsert (s : State) (q : PairId) : Bool :=
  let a := evenPort q
  let b : PortId := fin 32 (2 * q.val + 1)
  s.inline q && !halted (s.port a).state && !halted (s.port b).state
    && (match s.liveGroup a with
        | some k => !(s.group k).refStop
        | none => false)

/-- BUS_INTEGRATED: the port takes part, and the joined bus of an anchor carries no frame any more (R119, R126); on the even port of an in-line pair the coil of its relay is driven (R134 step 2). -/
def execBusIntegrated (p : PortId) (s : State) : Result :=
  let x := s.port p
  let k := pairOf p
  let coil := decide (evenPort k = p) && s.mayInsert k && !(s.pairs[k]).colOn
  let early := match s.liveGroup p with
    | some g => decide ((s.group g).state = .joining)
    | none => false
  let join := takesPart x && !s.silentMember p && !early && !s.underTest p
  let s := if coil then { s with pairs := s.pairs.set k { s.pairs[k] with colOn := true, travelAt := s.raw } } else s
  let s := if join then s.setPort p { x with joined := true, busIdle := true, integ := false } else s
  let ended := (s.anchorOf p).filter (fun g => decide ((s.group g).state ≠ .stopped) && x.onWire.isNone && (s.group g).frame.isSome)
  let s := match ended with
    | some g => s.setGroup g { s.group g with frame := none }
    | none => s
  if coil || join || ended.isSome then finish s else .next s

/-- COL_TRAVEL_END: COL_TRAVEL × 100 µs after the relay began to open (R134 step 3). -/
def execColTravelEnd (k : PairId) (s : State) : Result :=
  let x := s.pairs[k]
  if x.colOn && !x.travelDone then
    let s := s.waitFrom x.travelAt (us (100 * s.colTravel k))
    finish { s with pairs := s.pairs.set k { x with travelDone := true } }
  else .next s

/-- PAIR_INSERTED (R134 step 4). -/
def execPairInserted (k : PairId) (s : State) : Result :=
  let x := s.pairs[k]
  if x.travelDone && !x.inserted then finish ({ s with pairs := s.pairs.set k { x with inserted := true } }.portEvt (evenPort k) 0) else .next s

/-! ### HOLD (R128, R129, R247) -/

def holdFields : List (Nat × Nat × Nat) := [(4, 0, 8), (8, 0, 32)]

/-- A hold of target t: a port, a star group, or none. It waits for a record that names the target (R28); a port under a forced self-test is
held when the test is over (R471). -/
def State.holdRequest (s : State) (t : Nat) (time : Word) (o : Op) : State :=
  match nth? 32 t, (if 0x40 ≤ t then nth? 4 (t - 0x40) else none) with
  | some p, _ =>
    if s.portOwner p ≠ o.dom then s.complete o 0x31
    else if s.heldBack (fun a => a.ports.getLsbD p.val) then s.holdBack (.hold o t time)
    else if s.underTest p then { s with cairn := { s.cairn with deferredHolds := s.cairn.deferredHolds ++ [(o, p, time)] } }
    else s.holdPort p time (some o)
  | none, some k =>
    if s.grpOwner k ≠ o.dom then s.complete o 0x31
    else if s.heldBack (s.namesGroup k) then s.holdBack (.hold o t time)
    else s.holdGroup k time (some o)
  | none, none => s.complete o 0x32

/-- HOLD once fetched. -/
def State.holdOp (s : State) (x : Desc) (o : Op) : State :=
  if !reservedZero x holdFields then s.complete o 0x32 else s.holdRequest (dnum x 4 1) (BitVec.ofNat 32 (dnum x 8 4)) o

def execHold (d : Dom) (n : RingNo) (x : Desc) (s : State) : Result :=
  if s.ringOn d n 2 then finish (s.command d n x (fun s op => s.holdOp x op)) else .next s

/-- HOLD_TAKES_EFFECT: at the end of the frame, or on an idle bus. -/
def execHoldTakesEffect (t : HoldTarget) (s : State) : Result :=
  match t with
  | .port p =>
    let x := s.port p
    if x.holdPending.isSome && x.onWire.isNone && running x.state && !x.seqOn && (s.groupOf p).isNone then finish (s.holdArrives p) else .next s
  | .grp k =>
    let g := s.group k
    if g.holdPending.isSome && s.joinedIdle k && g.state ≠ .stopped && g.state ≠ .joining then finish (s.groupHoldArrives k)
    else .next s

/-- HOLD_EXPIRY: at its due instant the hold time of a port or group that is held ends; an indefinite hold has none (R129). -/
def execHoldExpiry (t : HoldTarget) (s : State) : Result :=
  match t with
  | .port p =>
    match (s.port p).holdEnd with
    | some due => if (s.port p).state = .hold ∧ (s.groupOf p).isNone then finish ((s.advance due).leaveHold p) else .next s
    | none => .next s
  | .grp k =>
    match (s.group k).holdEnd with
    | some due => if (s.group k).state = .hold then finish ((s.advance due).leaveGroupHold k) else .next s
    | none => .next s

/-! ### Reception (R87, R124, R156, R207, R219, R237, R266, R400) -/

/-- The port hears the bus: not in internal loopback, and through its group only as anchor. -/
def State.hears (s : State) (p : PortId) (f : CanFrame) : Bool :=
  let x := s.port p
  takesPart x && x.joined && !s.silentMember p && s.fmtEnabled p f.fmt && !(x.state == .test && s.testMode p == 1)

/-- Branch number of a member port. -/
def State.branchNo (s : State) (k : GrpId) (p : PortId) : Nat := (s.members k).findIdx (fun q => q == p)

/-- Corrected stamp of a received frame: that of the branch on which its start of frame was first detected, in a group (R237, R284). -/
def State.stampOf (s : State) (p : PortId) (sof : DWord) : DWord :=
  match (s.liveGroup p).bind (fun k => (s.group k).frame) with
  | some f => f.sof
  | none => sof - BitVec.ofNat 64 (s.rf (.port p .rxdly) 0 16)

/-- A frame received without error. -/
def State.receiveOp (s : State) (p : PortId) (f : CanFrame) (t : FrameTimes) (arrived : PortId) : State :=
  let s := (s.advance t.sof).advance t.done
  let corrected := s.stampOf p t.sof
  let x := s.port p
  let s := s.setPort p { x with rec_ := recDown x.rec_, suspend := false, busIdle := true }
  let s := s.countFrame p f true
  let s := s.ackReset p
  let s := s.promoteBy p
  let s := match s.liveGroup p with
    | some k =>
      let s := s.examineRef k (s.branchEntry k (s.branchNo k arrived) f.ident.toNat) false f corrected
      s.setGroup k { s.group k with frame := none }
    | none => s
  let r : RxFrame := { frame := f, sof := corrected, arrived := arrived }
  if x.state = .isolated then s.pushFifo p r else s.stageFrame p r

/-- The anchor's node takes no part in the bus, and its group's logic goes on (R246). -/
def State.groupAlone (s : State) (p : PortId) : Bool := !(takesPart (s.port p) && (s.port p).joined) && (s.anchorOf p).isSome

/-- A frame that ends on the joined bus without error while the anchor's own node takes no part: the group counts and examines it, and the
anchor's block counts it (R245, R266, R339). -/
def State.groupHears (s : State) (k : GrpId) (f : CanFrame) (t : FrameTimes) (arrived : PortId) : State :=
  let s := ((s.advance t.sof).advance t.done).countFrame (s.anchor k) f true
  let s := if s.traverse k then s else s.promoteGroup k
  let s := s.examineRef k (s.branchEntry k (s.branchNo k arrived) f.ident.toNat) false f (s.stampOf (s.anchor k) t.sof)
  s.setGroup k { s.group k with frame := none }

/-- The port on which the frame in progress first arrived: the branch that STAR_SOF named, else the command's own (R237). -/
def State.arrivedOn (s : State) (k : GrpId) (arrived : PortId) : PortId :=
  match (s.group k).frame with
  | some f => (s.members k).getD f.branch.val arrived
  | none => arrived

/-- FRAME_RECEIVED: the device's node takes a frame of a JOINED branch that the star has neither cut nor withheld (R235, R240, R258). -/
def execFrameReceived (p : PortId) (f : CanFrame) (t : FrameTimes) (arrived : PortId) (s : State) : Result :=
  if s.otherFamily p then .refused .otherImageFamily
  else match s.liveGroup p with
    | some k =>
      let q := s.arrivedOn k arrived
      let b : Branch := fin 16 (s.branchNo k q)
      if (s.group k).branches[b].ignored || decide ((s.group k).branches[b].state ≠ .joined) || decide (s.groupOf q ≠ some k) then .next s
      else if s.hears p f then finish (s.receiveOp p f t q)
      else if s.groupAlone p then finish (s.groupHears k f t q)
      else .next s
    | none => if arrived = p && s.hears p f then finish (s.receiveOp p f t p) else .next s

/-- BUF_WAIT_EXPIRY: BUF_WAIT after the oldest frame began to wait it is dropped, and the frames behind it are served (R86). -/
def execBufWaitExpiry (d : Dom) (n : RingNo) (s : State) : Result :=
  match (s.ring (s.dring d n)).frames with
  | [] => .next s
  | w :: _ =>
    let s := s.advance (after w.since (us (s.bufWait d n)))
    finish ((s.dropOldest d n).serve d n)

/-! ### Bank supplies (R101, R103, R135, R244, R245, R475) -/

/-- The branch of a member other than the anchor goes OUT (R244). -/
def State.branchOut (s : State) (k : GrpId) (p : PortId) : State :=
  let b := s.branchNo k p
  let g := s.group k
  let i : Branch := fin 16 b
  let s := s.withdrawPair (pairOf p)
  let s := s.setGroup k { g with branches := g.branches.set i { g.branches[i] with state := .out, seqOn := false } }
  (s.grpEvt k 0).syncMembers k

/-- One port of a lost bank. -/
def State.bankLost (s : State) (p : PortId) : State :=
  match s.liveGroup p with
  | some k =>
    if s.anchor k = p then
      let ms := s.members k
      ms.foldl (fun s q => s.portEvt q 9) (s.stopGroup k 5)
    else if ((s.group k).branches[fin 16 (s.branchNo k p)]).state = .out then s
    else (s.branchOut k p).portEvt p 9
  | none => if halted (s.port p).state then s else (s.toStopped p 5).portEvt p 9

/-- BANK_SUPPLY_LOSS. -/
def execBankSupplyLoss (b : BankId) (s : State) : Result :=
  let s := { s with dev := { s.dev with banks := s.dev.banks.set b 0 } }
  finish ((portIds.filter (fun p => bankOf p == b)).foldl (fun s p => s.bankLost p) s)

/-- BANK_SUPPLY_RETURN: the level is sensed again (R101). -/
def execBankSupplyReturn (b : BankId) (v33 : Bool) (s : State) : Result :=
  finish { s with dev := { s.dev with banks := s.dev.banks.set b (if v33 then 2 else 1) } }

/-! ### Reference lost beyond holdover (R106, R135, R245) -/

/-- One port that no running group holds: a port in BUSOFF or ISOLATED passes at once, another at the next bus idle, with PORT_STOP_EFFECT
(R106). -/
def State.refLost (s : State) (p : PortId) : State :=
  let x := s.port p
  if (s.liveGroup p).isSome ∨ halted x.state then s
  else if x.state = .busoff ∨ x.state = .isolated then (s.toStopped p 10).portEvt p 7
  else s.setPort p { x with refStop := true }

/-- REF_HOLDOVER_EXPIRY: groups wait for the next idle of the joined bus, their pairs withdraw at once. -/
def execRefHoldoverExpiry (s : State) : Result :=
  if s.tmu.reflock ∨ !s.tmu.portHoldover then .next s
  else
    let s := s.waitFrom s.tmu.lostAt (ms 100)
    let s := { s with tmu := { s.tmu with portHoldover := false } }
    let s := grpIds.foldl (fun s k =>
      if (s.group k).state = .stopped then s
      else
        let s := (s.withdrawPairs k).setGroup k { s.group k with refStop := true }
        s.setPort (s.anchor k) { s.port (s.anchor k) with refStop := true }) s
    finish (portIds.foldl (fun s p => s.refLost p) s)

end Sys2Proof.Machine
end

