-- ==== Sys2Proof/Machine/Star.lean ====
section
/-! DEFINITION. Star groups: commands, branches, windows, cold start, the traverse table's commands (R226 to R270, R505, R511). -/
namespace Sys2Proof.Machine

/-! ### START (R238, R244, R245) -/

/-- Some enabled TX ring or valid object is bound to a port (R229). -/
def State.bound (s : State) (p : PortId) : Bool :=
  !(s.txRings p).isEmpty || s.objs.any (fun e => objValid e.2 && objPort e.2.cfg == p)

/-- CFG_CODE of a START: the first failing check, 0 where all pass (R238). -/
def State.groupCode (s : State) (k : GrpId) : Nat :=
  let ms := s.members k
  let a := s.anchor k
  let m := Reg.port a .mode
  let xl := s.rb m 4
  let si := sampleInstant (s.nbt a) (s.rf (.port a .nbt) 24 8)
  if decide (ms.length < 2 ∨ 16 < ms.length) || ms.any (fun p => grpIds.any (fun j => j ≠ k && decide (s.grpOwner j = s.portOwner p) && s.rb (.grp j .members) p.val)) then 1
  else if ms.any (fun p => s.portOwner p ≠ s.grpOwner k) then 2
  else if ms.any (fun p => (s.port p).state ≠ .stopped) then 3
  else if decide (s.startCode a ≠ 0) || decide (s.testMode a ≠ 0) then 4
  else if s.rb m 7 || (xl && decide (s.xbt a < 2000)) || decide (si < s.rf (.grp k .echo) 0 16 + 720 + 400) then 5
  else if (List.finRange 16).any (fun q => s.inline q && (ms.contains (evenPort q) != ms.contains (fin 32 (2 * q.val + 1)))) then 6
  else if (ms.drop 1).any (fun p => s.bound p) then 7
  else if s.traverse k && !s.tableOk k then 8
  else if s.traverse k && !s.coldOk k then 9
  else if !s.tmu.reflock then 10
  else if s.traverse k && !(decide (100000 ≤ s.cycleNs k ∧ s.cycleNs k ≤ 1000000000) && decide (s.guardNs k ≤ 100000)) then 11
  else 0

/-- START refused with a code; the anchor's CFG_CODE names its own failing check (R238). -/
def State.groupCfgErr (s : State) (k : GrpId) (code : Nat) : State :=
  let a := s.anchor k
  let s := if code = 4 ∧ s.startCode a ≠ 0 then s.setPort a { s.port a with cfgCode := BitVec.ofNat 8 (s.startCode a) } else s
  (s.setGroup k { s.group k with cfgCode := BitVec.ofNat 8 code }).grpEvt k 5

/-- The group goes to JOINING: its branches join afresh, but a branch without its bank supply is OUT (R244, R245). -/
def State.groupGoesLive (s : State) (k : GrpId) : State :=
  let g := s.group k
  let ms := s.members k
  let fresh : Vector BranchSt 16 := Vector.ofFn (fun b : Fin 16 =>
    { g.branches[b] with
      state := if s.bankOn (ms.getD b.val 0) || decide (ms.length ≤ b.val) then .joining else .out,
      seqOn := false, ignored := false, total := 0, recent := [] })
  let s := s.portGoes (s.anchor k)
  s.groupGoes k { g with
    state := .joining, prior := .stopped, promoteCnt := 0, holdPending := none, holdWaiter := none, holdEnd := none, stopPending := false,
    refStop := false, branches := fresh, frame := none, misses := 0, cycleCnt := 0, accepted := false, refSof := false, nextRefSof := false,
    windows := false, rho := none, rhoOf := 15, gridDue := none, listenAt := s.raw, lastRef := none, deviation := 0, role := .none_, refSend := none }

/-- A command not valid in the group's present state (R246). -/
def State.groupRefused (s : State) (k : GrpId) : State := s.grpEvt k 6

def State.startGroupCmd (s : State) (k : GrpId) : State :=
  if (s.group k).state ≠ .stopped then s.groupRefused k
  else
    let code := s.groupCode k
    if code = 0 then s.groupGoesLive k else s.groupCfgErr k code

/-- STOP: pending until the next idle of the joined bus; the device's node starts no further frame (R126, R245). -/
def State.stopGroupCmd (s : State) (k : GrpId) : State :=
  let g := s.group k
  if g.state = .stopped then s.groupRefused k
  else
    let a := s.anchor k
    (s.setGroup k { g with stopPending := true }).setPort a { s.port a with stopPending := true }

/-- Members of a group, at most 16. -/
def State.width (s : State) (k : GrpId) : Nat := (s.members k).length

def State.setBranch (s : State) (k : GrpId) (b : Branch) (x : BranchSt) : State :=
  s.setGroup k { s.group k with branches := (s.group k).branches.set b x }
def State.branch (s : State) (k : GrpId) (b : Branch) : BranchSt := (s.group k).branches[b]

/-- REJOIN of an ISOLATED branch whose sequence does not run (R241, R243). -/
def State.rejoinCmd (s : State) (k : GrpId) (b : Branch) : State :=
  let x := s.branch k b
  if (s.group k).state ≠ .stopped ∧ b.val < s.width k ∧ x.state = .isolated ∧ !x.seqOn then s.setBranch k b { x with seqOn := true, seqAt := s.raw }
  else s.groupRefused k

/-- RESTART acts on the anchor (R246). -/
def State.restartGroupCmd (s : State) (k : GrpId) : State :=
  let a := s.port (s.anchor k)
  if (s.group k).state ≠ .stopped ∧ a.state = .busoff ∧ !a.boAuto then s.restartAccepted (s.anchor k) else s.groupRefused k

/-- The command in a value of GRPk_CMD; other values are ignored. -/
def State.groupCommand (s : State) (k : GrpId) (v : Word) : State :=
  match v.toNat % 16 with
  | 1 => s.startGroupCmd k
  | 2 => s.stopGroupCmd k
  | 3 => s.rejoinCmd k (fin 16 (v.toNat / 16))
  | 4 => s.restartGroupCmd k
  | _ => s

/-- A group command as it arrives: held back by a record that names the group or a member (R28). -/
def State.groupRequest (s : State) (d : Dom) (k : GrpId) (v : Word) : State :=
  if s.heldBack (s.namesGroup k) then s.holdBack (.grpCmd d k v) else s.groupCommand k v

/-- A write of GRPk_CMD. -/
def State.writeGroupCmd (s : State) (d : Dom) (k : GrpId) (v : Word) : Result :=
  s.ownedWrite d (s.grpOwner k) (Reg.grp k .cmd).off v (fun s => s.groupRequest d k v)

def execGroupStart (d : Dom) (k : GrpId) (s : State) : Result := s.writeGroupCmd d k 1
def execGroupStop (d : Dom) (k : GrpId) (s : State) : Result := s.writeGroupCmd d k 2
def execGroupRejoin (d : Dom) (k : GrpId) (b : Branch) (s : State) : Result := s.writeGroupCmd d k (BitVec.ofNat 32 (3 + 16 * b.val))
def execGroupRestart (d : Dom) (k : GrpId) (s : State) : Result := s.writeGroupCmd d k 4

/-- GROUP_STOP_EFFECT: the next idle of the joined bus after a STOP, or after a reference loss beyond holdover (R106, R245). -/
def execGroupStopEffect (k : GrpId) (s : State) : Result :=
  let g := s.group k
  if g.state = .stopped ∨ !s.joinedIdle k ∨ (!g.stopPending ∧ !g.refStop) then .next s
  else if g.refStop then finish ((s.members k).foldl (fun s p => s.portEvt p 7) (s.stopGroup k 10))
  else finish (s.stopGroup k 10)

/-! ### Branches (R134, R235, R239 to R242) -/

/-- A branch becomes JOINED; the first one takes the group out of JOINING, and a hold that waited since a reset takes effect
(R60, R235, R245, R269). -/
def State.joinBranch (s : State) (k : GrpId) (b : Branch) : State :=
  let s := s.setBranch k b { s.branch k b with state := .joined, seqOn := false, ignored := false }
  let s := s.grpEvt k 0
  if (s.group k).state = .joining then
    let g := s.group k
    let s := if s.traverse k then
        s.groupGoes k { g with state := .coldstart, listenAt := s.raw, role := s.coldRole k }
      else s.groupGoes k { g with state := .startup }
    s.groupHoldArrives k
  else s

/-- The port of branch b is not in an in-line pair, or its pair is inserted (R134 step 4). -/
def State.pairReady (s : State) (k : GrpId) (b : Branch) : Bool :=
  let q := pairOf ((s.members k).getD b.val 0)
  !s.inline q || s.pairs[q].inserted

/-- BRANCH_JOIN: 11 recessive bits on its own input and the joined bus idle (R235). -/
def execBranchJoin (k : GrpId) (b : Branch) (s : State) : Result :=
  if (s.group k).state ≠ .stopped ∧ b.val < s.width k ∧ (s.branch k b).state = .joining ∧ s.pairReady k b ∧ s.joinedIdle k then finish (s.joinBranch k b)
  else .next s

/-- In JOINING, COLDSTART or STARTUP, held or not, an isolated branch starts its rejoin sequence at once (R241). -/
def earlyPhase (g : Group) : Bool := gPhase g = .joining || gPhase g = .coldstart || gPhase g = .startup

/-- A branch leaves the wired-AND (R239, R260). -/
def State.isolate (s : State) (k : GrpId) (b : Branch) (kind : Nat) : State :=
  let g := s.group k
  let s := s.setBranch k b { s.branch k b with state := .isolated, kind := kind, seqOn := earlyPhase g, seqAt := s.raw }
  let g := s.group k
  let s := s.setGroup k { g with frame := g.frame.filter (fun f => decide (f.branch ≠ b)) }
  (s.grpEvt k 1).grpEvt k 0

/-- STUCK_ISOLATE (R239). -/
def execStuckIsolate (k : GrpId) (b : Branch) (s : State) : Result :=
  let x := s.branch k b
  if (s.group k).state ≠ .stopped ∧ b.val < s.width k ∧ (x.state = .joined ∨ x.state = .joining) then finish (s.isolate k b 5) else .next s

/-- REJOIN_SEQ_END: 128 runs of 11 recessive bits, then the next idle of the joined bus (R242). -/
def execRejoinSeqEnd (k : GrpId) (b : Branch) (s : State) : Result :=
  let x := s.branch k b
  if x.state = .isolated ∧ x.seqOn ∧ s.joinedIdle k then
    let s := s.waitFrom x.seqAt (1408 * s.nbt (s.anchor k))
    finish ((s.setBranch k b { s.branch k b with recent := [] }).joinBranch k b)
  else .next s

/-! ### Windows: relaying, violations, cuts (R231, R256 to R260, R511) -/

/-- RECENT: violations in the last VIOL_L cycles (R260). -/
def recentSum (x : BranchSt) : Nat := x.recent.foldl (· + ·) 0

/-- One more violation in the present cycle. -/
def raiseRecent : List Nat → List Nat
  | [] => [1]
  | n :: t => (n + 1) :: t

/-- A violation is counted against a branch, which is isolated at VIOL_K (R259, R260). -/
def State.violation (s : State) (k : GrpId) (kind : Nat) (b : Branch) : State :=
  let x := s.branch k b
  let x := { x with recent := raiseRecent x.recent, total := x.total + 1, kind := kind }
  let s := (s.setBranch k b x).grpEvt k 2
  if max 1 (s.rf (.grp k .cfg) 17 5) ≤ recentSum x ∧ x.state = .joined then s.isolate k b kind else s

def joinedMask (bs : List Branch) : BitVec 16 := bs.foldl (fun m b => m ||| (1 <<< b.val)) 0

/-- A violation against each JOINED branch of a mask (R259). -/
def State.violations (s : State) (k : GrpId) (kind : Nat) (m : BitVec 16) : State :=
  ((s.joinedBranches k).filter (fun b => m.getLsbD b.val)).foldl (fun s b => s.violation k kind b) s

/-- A frame that is not relayed is ignored on its branch until the branch is recessive for 11 bits (R258). -/
def State.ignoreBranch (s : State) (k : GrpId) (b : Branch) : State := s.setBranch k b { s.branch k b with ignored := true }

/-- A level of branch b goes onto every other driven branch (R231, R240). -/
def State.driveOthers (s : State) (k : GrpId) (b : Branch) : State :=
  s.emit (.relay k b (joinedMask ((s.drivenBranches k).filter (fun j => decide (j ≠ b)))))

/-- The star relays the frame of a branch onto the others (R231). -/
def State.relay (s : State) (k : GrpId) (f : StarFrame) : State := (s.setGroup k { s.group k with frame := some f }).driveOthers k f.branch

/-- A cut: an active error flag on every JOINED branch, and the source is ignored (R258). -/
def State.cutFrame (s : State) (k : GrpId) (b : Branch) : State :=
  let s := (s.joinedBranches k).foldl (fun s j => s.emit (.errorFlag ((s.members k).getD j.val 0) true)) s
  (s.refError k).ignoreBranch k b

/-- A start of frame on branch b in a running schedule (R257). -/
def State.scheduledSof (s : State) (k : GrpId) (f : StarFrame) (ident : Nat) (ide : Bool) : State :=
  if !(s.group k).windows && !s.inNextCycle k f.sof then s.relay k f
  else match s.windowOf k f.sof with
    | none => (s.violation k 1 f.branch).ignoreBranch k f.branch
    | some (_, e) =>
      if slotOwners e / 2 ^ f.branch.val % 2 = 0 then (s.violation k 2 f.branch).ignoreBranch k f.branch
      else if !slotAdmitsId e ident ide || (slotRef e && (s.branchEntry k f.branch.val ident).isNone) then
        ((s.relay k f).cutFrame k f.branch).violations k 3 f.dominant
      else s.relay k { f with close := some (s.windowClose k e f.sof) }

/-- A reference start of frame has appeared, in the present cycle or already for the next (R269). -/
def State.noteRefSof (s : State) (k : GrpId) (b : Branch) (sof : DWord) (ident : Nat) (ide : Bool) : State :=
  let g := s.group k
  if ide || (s.branchEntry k b.val ident).isNone then s
  else if scheduled g && s.inNextCycle k sof then s.setGroup k { g with nextRefSof := true } else s.setGroup k { g with refSof := true }

/-- A start of frame on a JOINED branch (R257). -/
def State.starSofOp (s : State) (k : GrpId) (b : Branch) (sof : DWord) (ident : Nat) (ide : Bool) (dominant : BitVec 16) : State :=
  let s := s.advance sof
  let s := s.setBranch k b { s.branch k b with ignored := false }
  let f : StarFrame := { branch := b, sof := sof - BitVec.ofNat 64 (s.rf (.port (s.anchor k) .rxdly) 0 16), dominant := dominant }
  if !s.traverse k then s.relay k f
  else if scheduled (s.group k) then (s.scheduledSof k f ident ide).noteRefSof k b f.sof ident ide
  else if csIds.any (fun i => s.csValid k i && !s.csDevice k i && s.csBranch k i == b.val) then
    if ide || (s.branchEntry k b.val ident).isNone then (s.relay k f).cutFrame k b else s.relay k f
  else s.ignoreBranch k b

/-- A second branch on which the start of frame in progress appears: the one that was first is named, the lower-numbered one within 1 ns
(R237). -/
def firstBranch (f : StarFrame) (b : Branch) (sof : DWord) : StarFrame :=
  if sof.toNat + 16 < f.sof.toNat ∨ (sof.toNat ≤ f.sof.toNat + 16 ∧ b < f.branch) then { f with branch := b, sof := sof } else f

/-- The start of frame of a branch within the frame in progress: it is relayed, and named where it came first (R231, R237, R256); while the
device's own attempt is on the wire, it is the frame that the device receives should it lose arbitration. -/
def State.joinFrame (s : State) (k : GrpId) (b : Branch) (sof : DWord) (dominant : BitVec 16) : State :=
  let f := match (s.group k).frame with
    | some f => firstBranch f b sof
    | none => { branch := b, sof := sof, dominant := dominant }
  (s.setGroup k { s.group k with frame := some f }).driveOthers k b

/-- STAR_SOF: a dominant level that begins while the joined bus is idle; every other one belongs to the frame in progress (R256). -/
def execStarSof (k : GrpId) (b : Branch) (sof : DWord) (ident : BitVec 29) (ide : Bool) (dominant : BitVec 16) (s : State) : Result :=
  if (s.group k).state = .stopped ∨ (s.branch k b).state ≠ .joined then .next s
  else if s.joinedIdle k then finish (s.starSofOp k b sof ident.toNat ide dominant)
  else finish (s.joinFrame k b (sof - BitVec.ofNat 64 (s.rf (.port (s.anchor k) .rxdly) 0 16)) dominant)

/-- WINDOW_CLOSE_CUT: the window closes on a frame that has not reached the end of end-of-frame (R257). -/
def execWindowCloseCut (k : GrpId) (s : State) : Result :=
  match (s.group k).frame with
  | some f =>
    match f.close with
    | some c => if scheduled (s.group k) then finish (((s.advance c).cutFrame k f.branch).violations k 4 f.dominant) else .next s
    | none => .next s
  | none => .next s

/-! ### Cycles and cold start (R249, R254, R265 to R269) -/

/-- A reference frame of the device at a corrected raw instant: its start of frame is driven where the node may start, otherwise it waits for
the next start opportunity (log 26). -/
def State.sendRef (s : State) (k : GrpId) (cold : Bool) (at_ : DWord) : State :=
  let a := s.anchor k
  let sof := at_ - BitVec.ofNat 64 (s.rf (.port a .txdly) 0 16)
  if s.refMayStart a then s.driveRef k a cold sof
  else s.setGroup k { s.group k with refSend := some cold }

/-- CYCLE_START: the cycle turns; the leader sends its reference frame at the cycle start (R254, R269 step 6). -/
def execCycleStart (k : GrpId) (s : State) : Result :=
  if s.traverse k && scheduled (s.group k) then
    let s := s.turnCycle k
    if scheduled (s.group k) && s.leads k then finish (s.sendRef k false (s.group k).cycleAt)
    else finish (if scheduled (s.group k) then s.advance (s.group k).cycleAt else s)
  else .next s

/-- A cold-start reference frame: on the grid with DEV_MASTER 1, at the start decision of that instant; otherwise at once with count 0
(R267, R269 steps 2, 4 and 5). -/
def State.sendCold (s : State) (k : GrpId) : State :=
  let g := { s.group k with role := .sendDue }
  if s.devMaster k then (s.setGroup k g).planCold k
  else (s.setGroup k { g with cycleAt := s.raw, cycleCnt := 0 }).sendRef k true s.raw

/-- LISTEN_TIMEOUT: LISTEN_TO after the listen started (R269 step 2). -/
def execListenTimeout (k : GrpId) (s : State) : Result :=
  let g := s.group k
  if s.traverse k && gPhase g == .coldstart && g.role == .listening then
    finish ((s.advance (after g.listenAt (16 * s.rf (.grp k .listen) 0 30))).sendCold k)
  else .next s

/-- COLDSTART_BACKOFF_END: RANK x 2 x LENGTH(0) after the error frame at the earliest (R269 step 4). -/
def execColdstartBackoffEnd (k : GrpId) (s : State) : Result :=
  let g := s.group k
  let wait := 32 * ((s.devEntry k).map (fun i => s.csRank k i)).getD 0 * slotLen (s.slotAt k 0)
  if s.traverse k && gPhase g == .coldstart && g.role == .backoff then finish ((s.advance (after g.listenAt wait)).sendCold k) else .next s

/-- REF_BACKUP_TIMEOUT: 2g after the expected cycle start, with no reference start of frame yet (R269 step 6). -/
def execRefBackupTimeout (k : GrpId) (s : State) : Result :=
  let g := s.group k
  if s.traverse k && scheduled g && g.role == .integrated && !g.refSof then
    finish (s.sendRef k false (s.later g.cycleAt (32 * s.guardNs k)))
  else .next s

/-! ### TRV_WRITE and TRV_READ (R250 to R252) -/

def trvGroup (x : Desc) : GrpId := fin 4 (dfld x 4 0 2)
def trvFirst (x : Desc) : Nat := dnum x 6 2
def trvCount (x : Desc) : Nat := dnum x 8 2
def trvBad (x : Desc) : Bool :=
  !reservedZero x [(4, 0, 2), (6, 0, 16), (8, 0, 16), fAddr] || decide (255 < trvFirst x ∨ trvCount x = 0 ∨ 256 < trvFirst x + trvCount x)

/-- Entry bytes, least significant byte first (R11). -/
def slotBytesOf (e : BitVec 256) : List Byte := leBytes 32 e.toNat

/-- TRV_WRITE once fetched. -/
def State.trvWriteOp (s : State) (x : Desc) (bytes : List Byte) (o : Op) : State :=
  let k := trvGroup x
  let n := trvCount x
  if trvBad x then s.complete o 0x32
  else if s.grpOwner k ≠ o.dom then s.complete o 0x31
  else if !s.inWindow o.dom (daddr x).toNat (32 * n) true false then s.complete o 0x30
  else if (s.group k).state ≠ .stopped then s.complete o 0x33
  else
    let g := s.group k
    let t := (List.range n).foldl (fun t i => Tbl.put 0 t (trvFirst x + i) (BitVec.ofNat 256 (leAt bytes (32 * i) 32))) g.table
    (s.setGroup k { g with table := t }).complete o 0x00 (BitVec.ofNat 32 n)

def execTrvWrite (d : Dom) (n : RingNo) (x : Desc) (bytes : List Byte) (s : State) : Result :=
  if !s.ringOn d n 2 then .next s
  else if !trvBad x && bytes.length != 32 * trvCount x then .fault .dataLength
  else finish (s.command d n x (fun s op => s.trvWriteOp x bytes op))

/-- TRV_READ once fetched. -/
def State.trvReadOp (s : State) (x : Desc) (o : Op) : State :=
  let k := trvGroup x
  let n := trvCount x
  if trvBad x then s.complete o 0x32
  else if s.grpOwner k ≠ o.dom then s.complete o 0x31
  else if !s.inWindow o.dom (daddr x).toNat (32 * n) false true then s.complete o 0x30
  else
    let s := s.hostWrite o.dom (daddr x).toNat ((List.range n).flatMap (fun i => slotBytesOf (s.slotAt k (trvFirst x + i))))
    s.complete o 0x00 (BitVec.ofNat 32 n)

def execTrvRead (d : Dom) (n : RingNo) (x : Desc) (s : State) : Result :=
  if s.ringOn d n 2 then finish (s.command d n x (fun s op => s.trvReadOp x op)) else .next s

end Sys2Proof.Machine
end

