-- ==== Sys2Proof/Machine/RegCore.lean ====
section
/-! DEFINITION. Writes of register fields by their access codes (R14, R15, R18, R27, R510). -/
namespace Sys2Proof.Machine

/-- Every ring of a domain is disabled (section Rings: RNG_STATUS.ACTIVE 0). -/
def State.ringsIdle (s : State) (d : Dom) : Bool :=
  (List.range (s.ringsHeld d)).all (fun n => !(s.ring ((s.entry d).ringBase + n)).active)

/-- The RWS state of a port's registers: STOPPED or OFF, and its group, if any, STOPPED (section Registers of a field port). -/
def State.portSettable (s : State) (p : PortId) : Bool :=
  ((s.port p).state == .stopped || (s.port p).state == .off) && (s.liveGroup p).isNone

/-- The state that an RWS field's table names holds. -/
def State.rwsOk (s : State) (r : Reg) (f : Field) : Bool :=
  match r with
  | .fn d .dbb => if f.lo = 0 then s.ringsIdle d else !s.rb (.fn d .dbb) 0
  | .fn d .tsq => !s.rb (.fn d .tsq) 0
  | .ring n _ => !(s.ring n.val).active
  | .port p .pair => s.portSettable p && s.portSettable (fin 32 (2 * (p.val / 2) + (1 - p.val % 2)))
  | .port p _ => s.portSettable p
  | .grp k _ => decide ((s.group k).state = .stopped)
  | .tmu _ => !s.rb (.tmu .servo) 0
  | .out i _ => !s.rb (.out i .cfg) 4
  | .ep k _ => !s.rb (.ep k .cfg) 0
  | .rl k _ => !s.rb (.rl k .cfg) 0
  | .fab _ => !s.rb (.fab .cfg) 0
  | _ => true

/-- The selection and staged registers of the object window, and of the filter window (R510). -/
def isObjStaged : FnReg → Bool
  | .objSel | .objCfg0 | .objCfg1 | .objCfg2 | .objCfg3 | .objCfg4 | .objCfg5 => true
  | _ => false
def isFltStaged : FnReg → Bool
  | .fltSel | .fltData _ => true
  | _ => false

/-- A change of the field by domain d is allowed now (R14, R15, R27, R294, R510). -/
def State.fieldOk (s : State) (d : Dom) (r : Reg) (f : Field) : Bool :=
  match f.acc with
  | .rwo => d == 0
  | .rws => s.rwsOk r f && (match r with
    | .tmu _ => !s.rb (.tmu .servo) 6
    | _ => true)
  | .rw =>
    match r with
    | .domStage _ => s.belay.applying.isNone
    | .dev .secmd => s.spur.cmdUnit.isNone
    | .fn e q => if isObjStaged q then !s.objBusy e else if isFltStaged q then !s.fltBusy e else q != .gwSel || !s.gwBusy e
    | .dev .swap => s.spur.swap.isNone
    | .tmu _ => !s.rb (.tmu .servo) 6
    | _ => true
  | .rw1c => true
  | .wo => false

/-- A written value as the fields of a register take it, fields for which skip holds left out: the register after the write, and
whether some field refused its change. Bits outside mask are not written (R18). -/
def State.fieldWrite (s : State) (d : Dom) (r : Reg) (mask v : DWord) (skip : Field → Bool) : DWord × Bool :=
  (r.fields.filter (fun f => !skip f)).foldl (fun acc f =>
    let old := s.reg r
    let o := fld old f.lo f.width
    let w := fld ((old &&& ~~~ mask) ||| (v &&& mask)) f.lo f.width
    match f.acc with
    | .wo => acc
    | .rw1c => (putFld acc.1 f.lo f.width (fld (old &&& ~~~ (v &&& mask)) f.lo f.width), acc.2)
    | _ => if w = o then acc else if s.fieldOk d r f then (putFld acc.1 f.lo f.width w, acc.2) else (acc.1, true)) (s.reg r, false)

/-- Offset of a register in a domain's own view: a tenant sees its local ring numbers (section RNG registers). -/
def State.viewOff (s : State) (d : Dom) (r : Reg) : Nat :=
  match r with
  | .ring n q => if d = 0 then (Reg.ring n q).off else 0x8000 + 0x40 * (n.val - (s.entry d).ringBase) + q.off
  | r => r.off

/-- Mask of a 32-bit register, or of one half or the whole of a 64-bit register. -/
def mask32 : DWord := 0xFFFFFFFF
def maskAll : DWord := 0xFFFFFFFFFFFFFFFF

/-- A REFUSED_WRITE for a register; an access to the high half alone is named by its own offset (R15, R450). -/
def State.refuse (s : State) (d : Dom) (r : Reg) (mask v : DWord) : State :=
  s.refuseWrite d (s.viewOff d r + if mask = mask32 <<< 32 then 4 else 0) (v.setWidth 32)

/-- The fields of a register are written; one REFUSED_WRITE names a write of which a field was refused (R15). -/
def State.writeFields (s : State) (d : Dom) (r : Reg) (mask v : DWord) (skip : Field → Bool) : State :=
  let (w, refused) := s.fieldWrite d r mask v skip
  let s := s.setReg r w
  if refused then s.refuse d r mask v else s

/-- A write of GRPk_MEMBERS, which a record that names the group or a port concerned holds back (R28). -/
def State.membersRequest (s : State) (d : Dom) (k : GrpId) (v : Word) : State :=
  let old : Word := (s.reg (.grp k .members)).setWidth 32
  if s.heldBack (fun a => s.namesGroup k a || decide (a.ports &&& (old ^^^ v) ≠ 0)) then s.holdBack (.grpMembers d k v)
  else s.writeFields d (.grp k .members) mask32 (v.setWidth 64) (fun _ => false)

end Sys2Proof.Machine
end

