-- ==== Sys2Proof/Machine/Rings.lean ====
section
/-! DEFINITION. Rings: indices, kicks, enabling, disabling, receive buffers, EOI, function-level reset (R57 to R95, R423). -/
namespace Sys2Proof.Machine

/-! ### Disabling (R71, R72, R222, R223) -/

/-- Candidates of a TX ring: those off the wire end ABORTED_HOST at the settling, one on the wire keeps its own outcome; on a port that a
reclaim stops, those off the wire end with the stop instead (R31, R71, R223). -/
def State.withdrawRing (s : State) (d : Dom) (n : RingNo) (p : PortId) (stops : Bool) : State :=
  let mine := fun c : Cand => decide (c.op.dom = d ∧ c.op.num = n) && !isObj c
  let x := addEnding s.raw (s.port p) 9 (fun c => mine c && !stops)
  s.setPort p { x with cands := x.cands.map (fun c => if mine c && decide (onWireSlot x = some c.slot) then { c with ringOff := true } else c) }

/-- ETH_TX frames of a ring that have not started complete ABORTED_HOST; one on the wire keeps its own outcome (R71). -/
def State.withdrawEth (s : State) (d : Dom) (n : RingNo) (k : EpId) : State :=
  let x := s.eth k
  let mine := fun i : EthItem => decide (i.op.dom = d ∧ i.op.num = n) && !i.firmware
  let gone := x.queue.filter mine
  let s := s.setEth k { x with queue := x.queue.filter (fun i => !mine i), wire := x.wire.map (fun i => if mine i then { i with ringOff := true } else i) }
  gone.foldl (fun s i => s.complete i.op 0x13 (BitVec.ofNat 32 (i.attempts % 256)) (port := BitVec.ofNat 8 (32 + k.val))) s

/-- Posted buffers and frames of an RX ring: each buffer returns ABORTED_HOST with length 0 (R71). -/
def State.withdrawRx (s : State) (d : Dom) (n : RingNo) : State :=
  let i := s.dring d n
  let r := s.ring i
  let s := s.setRing i { r with posted := [], frames := [] }
  let s := r.frames.foldl (fun s w => s.dropWait d n w 0x13) s
  r.posted.foldl (fun s b => s.returnBuffer d n b.1 0x13) s

/-- The operation of a command that a record holds back. -/
def Held.op : Held → Option Op
  | .hold o _ _ => some o
  | .rtWrite o _ _ => some o
  | _ => none

/-- Commands chosen by f leave those that a record holds back; their operations. -/
def State.takeHeld (s : State) (f : Op → Bool) : State × List Op :=
  match s.belay.applying with
  | none => (s, [])
  | some a =>
    let mine := fun h : Held => match h.op with
      | some o => f o
      | none => false
    ({ s with belay := { s.belay with applying := some { a with held := a.held.filter (fun h => !mine h) } } }, (a.held.filter mine).filterMap Held.op)

/-- Commands of a CMD ring that wait and have not started complete ABORTED_HOST: reads that wait their turn, self-tests that wait, commands
that a record holds back, holds that a forced self-test keeps back (R28, R71, R150, R469, R471). -/
def State.withdrawCmd (s : State) (d : Dom) (n : RingNo) : State :=
  let mine := fun o : Op => decide (o.dom = d ∧ o.num = n)
  let (s, held) := s.takeHeld mine
  let ops := held ++ s.objs.flatMap (fun e => (e.2.readers.map (·.1)).filter mine)
    ++ ((s.cairn.test.toList ++ s.cairn.tests).filter (fun t => mine t.op && !t.started)).map (·.op)
    ++ (s.cairn.deferredHolds.map (·.1)).filter mine
  let s := { s with
    objs := Tbl.mapVal {} s.objs (fun _ x => { x with readers := x.readers.filter (fun r => !mine r.1) }),
    cairn := { s.cairn with
      test := s.cairn.test.filter (fun t => t.started || !mine t.op),
      tests := s.cairn.tests.filter (fun t => !mine t.op),
      deferredHolds := s.cairn.deferredHolds.filter (fun h => !mine h.1) } }
  ops.foldl (fun s o => s.complete o 0x13) s

/-- ENABLE becomes 0: nothing more is fetched and what waits ends by ring type; a CQ is simply disabled; stops says that a reclaim stops
the ring's port with it (R31, R71 to R73). -/
def State.disableRing (s : State) (d : Dom) (n : RingNo) (stops : Bool := false) : State :=
  let i := s.dring d n
  let cfg := s.ringCfg i
  let s := s.setRf (ringReg i .cfg) 0 1 0
  match ringType cfg with
  | 0 => if bit cfg 9 then s.withdrawEth d n (fin 4 (fld cfg 16 5)) else (s.withdrawRing d n (fin 32 (fld cfg 16 5)) stops).fillSlots (fin 32 (fld cfg 16 5)) 32
  | 1 => s.withdrawRx d n
  | 2 => s.withdrawCmd d n
  | _ => s

/-- Every completion entry of the ring has been written and none of its operations is in flight (R71). -/
def State.ringDone (s : State) (d : Dom) (n : RingNo) : Bool :=
  let r := s.ring (s.dring d n)
  ringType (s.ringCfg (s.dring d n)) == 3 ||
    (r.inflight == 0 && r.posted.isEmpty && r.frames.isEmpty
      && (List.range (s.ringsHeld d)).all (fun c => (s.ring ((s.entry d).ringBase + c)).wait.all (fun e => decide (e.1.num ≠ n))))

/-- A reclaim disables the CQs of its domain, each once every ring that names it has reached ACTIVE 0 (R31). -/
def State.closeCqs (s : State) (d : Dom) : State :=
  if !s.belay.closing.contains d then s
  else
    let mine := (List.finRange 64).filter (fun n => decide (n.val < s.ringsHeld d))
    let cqs := mine.filter (fun n => ringType (s.ringCfg (s.dring d n)) == 3 && bit (s.ringCfg (s.dring d n)) 0)
    let free := fun c : RingNo => mine.all (fun n =>
      ringType (s.ringCfg (s.dring d n)) == 3 || !(s.ring (s.dring d n)).active || s.cqOf d n != c)
    let s := (cqs.filter free).foldl (fun s c => s.disableRing d c) s
    if cqs.all free then { s with belay := { s.belay with closing := s.belay.closing.filter (fun e => e != d) } } else s

/-- RING_DISABLE_DONE (R71). -/
def execRingDisableDone (d : Dom) (n : RingNo) (s : State) : Result :=
  let i := s.dring d n
  if decide (n.val < s.ringsHeld d) && !bit (s.ringCfg i) 0 && (s.ring i).active && s.ringDone d n then
    finish ((s.setRing i { s.ring i with active := false }).closeCqs d)
  else .next s

/-! ### Indices (R64, R66, R73, R93) -/

/-- RNG_FAULT, a log record, and the disable of a ring (R69, R73); code 1 a refused enable, 2 the index rule. -/
def State.ringFault (s : State) (d : Dom) (n : RingNo) (code : Nat) : State :=
  (s.raise (ringReg (s.dring d n) .status) 29).record (domCode d) 3 false 0x02 0x01 (BitVec.ofNat 32 n.val) (BitVec.ofNat 32 code)

/-- PROD or CONS of an enabled ring has been read as w (R73, R83, R93). -/
def State.readIndex (s : State) (d : Dom) (n : RingNo) (w : Half) : State :=
  let i := s.dring d n
  let r := s.ring i
  let cq := ringType (s.ringCfg i) == 3
  let diff := if cq then (r.head - w).toNat else (w - r.head).toNat
  if ringSize (s.ringCfg i) < diff then (s.ringFault d n 2).disableRing d n
  else
    let s := s.setRing i { r with idx := w }
    if cq then s.roomShown d n else s

/-- The ring takes part in kicks and polls: ENABLE 1 and ACTIVE 1. -/
def State.ringLive (s : State) (d : Dom) (n : RingNo) : Bool :=
  let i := s.dring d n
  s.ringOk d n && bit (s.ringCfg i) 0 && (s.ring i).active && !s.mute d

/-- Enabled submission rings in ascending order. -/
def State.liveSubmission (s : State) (d : Dom) : List RingNo :=
  (List.finRange 64).filter (fun n => s.ringLive d n && ringType (s.ringCfg (s.dring d n)) != 3)

/-- DEV_KICK: a named ring, or every enabled submission ring; words are what the reads return, in ring order (R64). -/
def execDevKick (d : Dom) (v : Word) (words : List Half) (s : State) : Result :=
  let r := v.toNat % 512
  if !s.answers || !s.active d then .next s
  else if r = 0x1FF then
    let ns := s.liveSubmission d
    if words.length < ns.length then .fault .dataLength
    else finish ((ns.zip words).foldl (fun s e => if s.ringLive d e.1 then s.readIndex d e.1 e.2 else s) s)
  else match nth? 64 r with
    | none => finish (s.raise (.fn d .hoststat) 1)
    | some n =>
      if !s.ringLive d n || s.rb (ringReg (s.dring d n) .status) 29 then finish (s.raise (.fn d .hoststat) 1)
      else match words with
        | [] => .fault .dataLength
        | w :: _ => finish (s.readIndex d n w)

/-- RING_POLL: an enabled ring with POLL_US not 0 is read every POLL_US microseconds, values above 1000 acting as
1000, less the microsecond that the interval may be short (R66, RNG_POLL). -/
def execRingPoll (d : Dom) (n : RingNo) (word : Half) (s : State) : Result :=
  let i := s.dring d n
  let t := s.rf (ringReg i .poll) 0 10
  if s.ringLive d n && decide (t ≠ 0) then
    let s := s.waitFrom (s.ring i).polledAt (us (min 1000 t - 1))
    finish ((s.setRing i { s.ring i with polledAt := s.raw }).readIndex d n word)
  else .next s

/-- CQ_STALL_POLL: every 10 µs, less the microsecond that the interval may be short (R83). -/
def execCqStallPoll (d : Dom) (n : RingNo) (word : Half) (s : State) : Result :=
  let i := s.dring d n
  if s.ringLive d n && s.stalled d n then
    let s := s.waitFrom (s.ring i).polledAt (us 9)
    finish ((s.setRing i { s.ring i with polledAt := s.raw }).readIndex d n word)
  else .next s

/-- EVC_EOI: the source at the top of the stack is completed; a CQ's CONS is read again, and a source that remains due is announced
again; an empty stack writes a record (R93, R423, R424). -/
def State.eoiOp (s : State) (d : Dom) (t : Fin 128) (word : Half) : State :=
  match s.stack d t.val with
  | [] => s.record (domCode d) 3 false 0x0B 0x02 (BitVec.ofNat 32 t.val) 0
  | (src, _) :: rest =>
    let s := { s with evc := { s.evc with
      claimStacks := Tbl.put [] s.evc.claimStacks (tgtKey d t.val) rest,
      announced := s.evc.announced.filter (fun x => decide (dueDom x ≠ d ∨ dueTgt x ≠ t.val)) } }
    if 1 ≤ src ∧ src ≤ 64 ∧ s.ringLive d (fin 64 (src - 1)) then s.readIndex d (fin 64 (src - 1)) word else s

def execEvcEoi (d : Dom) (x : EoiTarget) (word : Half) (s : State) : Result :=
  match x with
  | .vector t => finish (s.vecEoi t)
  | .claim t v =>
    if !s.serves ∨ !s.present d then .next s
    else if (s.entry d).msixCount ≤ t.val ∨ !s.active d then finish (s.crossDomain d (Reg.evcEoi d t).off v)
    else finish (s.eoiOp d t word)

/-! ### Enabling (R69, R70, R180, R229) -/

/-- Every condition of R69, R180, R229 and R488 on an enable, fields as just written. -/
def State.enableOk (s : State) (d : Dom) (n : RingNo) : Bool :=
  let i := s.dring d n
  let cfg := s.ringCfg i
  let ty := ringType cfg
  let size := ringSize cfg * (if ty = 3 then 16 else 32)
  let base := (s.reg (ringReg i .addr)).toNat
  let p : PortId := fin 32 (fld cfg 16 5)
  s.rb (.fn d .dbb) 0 && (!s.dev.recovery || ty == 2) && decide (ty < 4) && decide (4 ≤ fld cfg 4 4) && !(ty == 1 && fld cfg 21 3 == 7) && !(s.ring i).active
    && s.inWindow d base size (ty != 3) (ty == 3)
    && (ty == 3 || s.dev.recovery || s.ringOn d (s.cqOf d n) 3)
    && (ty != 0 ||
      (if bit cfg 9 then decide (fld cfg 16 5 < 4) && s.epOwner (fin 4 (fld cfg 16 5)) == d
       else s.portOwner p == d && decide ((s.txRings p).length < 31) && !s.silentMember p))

/-- ENABLE is written 1: the ring starts with its own index 0, or FAULT and a record; a CQ then writes what waited for it
(R69, R70, R72). -/
def State.enableRing (s : State) (d : Dom) (n : RingNo) : State :=
  let i := s.dring d n
  if s.enableOk d n then
    let s := s.setRf (ringReg i .cfg) 0 1 1
    let s := s.setRing i { s.ring i with active := true, head := 0, idx := 0, posted := [], frames := [] }
    if ringType (s.ringCfg i) = 3 then s.roomShown d n else s
  else s.ringFault d n 1

/-- A write of RNG_CFG: its other fields while the ring is disabled, and ENABLE (R69, R71). -/
def State.writeRingCfg (s : State) (d : Dom) (n : RingNo) (v : Word) : State :=
  let i := s.dring d n
  let was := bit (s.ringCfg i) 0
  let s := s.writeFields d (ringReg i .cfg) mask32 (v.setWidth 64) (fun f => f.lo == 0)
  if v.getLsbD 0 && !was then s.enableRing d n
  else if !v.getLsbD 0 && was then s.disableRing d n
  else s

/-- A write of RNG_CFG as it arrives: dropped where the domain has no such ring, held back by a record that names its rings (R24, R28, R41). -/
def State.ringRequest (s : State) (d : Dom) (n : RingNo) (v : Word) : Result :=
  if !s.answers || !s.present d then .next s
  else if !s.active d || decide (s.ringsHeld d ≤ n.val) then finish (s.crossDomain d (0x8008 + 0x40 * (if d = 0 then s.dring d n else n.val)) v)
  else if s.heldBack (fun a => a.rings.any (fun x => inRangeOf x (s.dring d n))) then finish (s.holdBack (.ringCfg d n v))
  else finish (s.writeRingCfg d n v)

def execRingEnable (d : Dom) (n : RingNo) (v : Word) (s : State) : Result := s.ringRequest d n v
def execRingDisable (d : Dom) (n : RingNo) (v : Word) (s : State) : Result := s.ringRequest d n v

/-! ### The doorbell block and the timestamp queue (R62, R90) -/

/-- A write of DEV_DBB. -/
def State.writeDbb (s : State) (d : Dom) (mask v : DWord) : State :=
  let r := Reg.fn d .dbb
  let was := s.rb r 0
  let en := bit ((s.reg r &&& ~~~ mask) ||| (v &&& mask)) 0
  let (w, refused) := s.fieldWrite d r mask v (fun f => f.lo == 0)
  let s := s.setReg r w
  let base := (w &&& ~~~ (4095 : DWord)).toNat
  let bad := decide (en ≠ was) && !s.ringsIdle d
  let fault := en && !was && s.ringsIdle d && !s.inWindow d base 4096 true true
  let s := if en == was || bad || fault then s else s.setReg r (putBit w 0 en)
  let s := if fault then s.raise (.fn d .hoststat) 0 else s
  if refused || bad || fault then s.refuse d r mask v else s

def execDbbEnable (d : Dom) (v : DWord) (s : State) : Result :=
  if !s.answers || !s.present d then .next s
  else if s.active d then finish (s.writeDbb d maskAll v) else finish (s.crossDomain d (FnReg.dbb).off (v.setWidth 32))

/-- A write of DEV_TSQ: the enable restarts the queue at 0. -/
def State.writeTsq (s : State) (d : Dom) (mask v : DWord) : State :=
  let r := Reg.fn d .tsq
  let was := s.rb r 0
  let en := bit ((s.reg r &&& ~~~ mask) ||| (v &&& mask)) 0
  let (w, refused) := s.fieldWrite d r mask v (fun f => f.lo == 0)
  let s := s.setReg r w
  let base := (w &&& ~~~ (1023 : DWord)).toNat
  let fault := en && !was && !s.inWindow d base 1024 true true
  let bad := en && !was && (fault || !s.rb (.fn d .dbb) 0)
  let s := if en == was || bad then s else s.setReg r (putBit w 0 en)
  let s := if fault then s.raise (.fn d .hoststat) 0 else s
  let s := if en && !was && !bad then
      (s.setFunc d { s.func d with tsqProd := 0, tsqCons := 0, tsqLost := 0, tsqRun := false }).doorbell d 0x500 0
    else s
  if refused || bad then s.refuse d r mask v else s

def execTsqEnable (d : Dom) (v : DWord) (s : State) : Result :=
  if !s.serves || !s.present d then .next s
  else if s.active d then finish (s.writeTsq d maskAll v) else finish (s.crossDomain d (FnReg.tsq).off (v.setWidth 32))

/-! ### RX_BUF and opcodes that a ring does not take (R77, R86, R89) -/

/-- RX_BUF: the buffer is posted; one that is malformed returns at once (R77). -/
def execRxBuf (d : Dom) (n : RingNo) (x : Desc) (s : State) : Result :=
  if s.ringOn d n 1 && s.fetchable d n (dfence x) then
    let s := s.fetch d n false
    if !reservedZero x [fAddr] || decide ((daddr x).toNat % 64 ≠ 0) then finish (s.returnBuffer d n x.tag 0x32)
    else
      let i := s.dring d n
      finish ((s.setRing i { s.ring i with posted := (s.ring i).posted ++ [(x.tag, daddr x)] }).serve d n)
  else .next s

/-- Opcodes of CMD rings (tables of R77, R251 and R363). -/
def cmdOpcodes : List Nat :=
  [0x0F, 0x10, 0x11, 0x12, 0x18, 0x20, 0x30, 0x31, 0x32, 0x38, 0x39, 0x3A, 0x3B, 0x3C, 0x3D, 0x40, 0x48, 0x49, 0x50, 0x54, 0x55, 0x58, 0x5C, 0x5D, 0x5E]

/-- An opcode is valid for a ring with this configuration. -/
def opcodeOk (cfg : DWord) (opcode : Byte) : Bool :=
  match ringType cfg with
  | 0 => [0x0F, if bit cfg 9 then 3 else 1].contains opcode.toNat
  | 1 => [0x0F, 2].contains opcode.toNat
  | 2 => cmdOpcodes.contains opcode.toNat
  | _ => false

/-- INVALID_OPCODE_DESCRIPTOR: BAD_DESC (R77). -/
def execInvalidOpcodeDescriptor (d : Dom) (n : RingNo) (opcode : Byte) (x : Desc) (s : State) : Result :=
  let cfg := s.ringCfg (s.dring d n)
  let p := s.ringPort d n
  let quiet := ringType cfg == 0 && !bit cfg 9 && s.portOwner p == d && halted (s.port p).state
  if s.fetchable d n (dfence x) && !quiet && !opcodeOk cfg opcode then
    finish ((s.fetch d n).complete { dom := d, num := n, tag := x.tag, epoch := (s.func d).epoch } 0x32)
  else .next s

/-! ### Function-level reset (R57 to R61, R248) -/

/-- Holds of step 2: a port or group whose bus is idle is held at once (R57, R60, R248). -/
def State.flrHoldPort (s : State) (p : PortId) : State :=
  if s.underTest p then s.setPort p { s.port p with holdPending := some 0xFFFFFFFF } else
  let s := s.holdPort p 0xFFFFFFFF none
  let x := s.port p
  if (s.groupOf p).isNone && x.busIdle && x.onWire.isNone && !x.seqOn then s.holdArrives p else s

def State.flrHoldGroup (s : State) (k : GrpId) : State :=
  let s := s.holdGroup k 0xFFFFFFFF none
  let a := s.port (s.anchor k)
  if a.busIdle && s.joinedIdle k then s.groupHoldArrives k else s

/-- Step 3 for one port: frames off the wire leave the set, one on the wire is finished without a retry and without an entry (R57). -/
def State.flrPort (s : State) (d : Dom) (p : PortId) : State :=
  let x := s.port p
  let gone := x.cands.filter (fun c => decide (c.op.dom = d) && decide (onWireSlot x ≠ some c.slot))
  let s := gone.foldl (fun s c => s.clearPending d c.src) s
  s.setPort p { x with cands := (x.cands.filter (fun c => !(decide (c.op.dom = d) && decide (onWireSlot x ≠ some c.slot)))).map (fun c =>
    if c.op.dom = d then { c with quiet := true, ringOff := true } else c) }

/-- The OBJ_READs of a domain end without completion; a frame in a shadow slot is promoted as at the end of a copy (R57, R148). -/
def State.endReads (s : State) (d : Dom) : State :=
  let keys := (s.objs.filter (fun o => o.1 / 8192 == d.val && (o.2.copying || !o.2.readers.isEmpty))).map (·.1 % 8192)
  keys.foldl (fun s o =>
    let s := s.promoteShadow d o
    s.setObj d o { s.obj d o with copying := false, reading := none, readers := [] }) s

/-- Step 3 for the rings, objects and frames of a domain. -/
def State.flrRings (s : State) (d : Dom) : State :=
  let e := s.entry d
  let s := (List.range (s.ringsHeld d)).foldl (fun s n =>
    let i := e.ringBase + n
    let r := s.ring i
    let s := r.frames.foldl (fun s w => s.freeSpace w.block w.space) s
    s.setRing i { r with posted := [], frames := [], wait := [], inflight := 0 }) s
  let s := s.endReads d
  let mineEth := fun i : EthItem => decide (i.op.dom = d) && !i.firmware
  let s := (List.finRange 4).foldl (fun s (k : EpId) =>
    s.setEth k { s.eth k with queue := (s.eth k).queue.filter (fun i => !mineEth i), wire := (s.eth k).wire.map (fun i => if mineEth i then { i with ringOff := true } else i) }) s
  let s := (s.takeHeld (fun o => decide (o.dom = d))).1
  { s with cairn := { s.cairn with
      tests := s.cairn.tests.filter (fun t => decide (t.op.dom ≠ d)),
      test := s.cairn.test.filter (fun t => t.started || decide (t.op.dom ≠ d)),
      deferredHolds := s.cairn.deferredHolds.filter (fun h => decide (h.1.dom ≠ d)) } }

/-- Key slots of a domain erased (R57), and with them the encryption of links (R386). -/
def State.eraseKeys (s : State) (d : Dom) : State :=
  { s with belay := { s.belay with keys := s.belay.keys.filter (fun e => match e.2 with
      | some k => decide (k.dom ≠ d)
      | none => false) } }.dropKeyless

/-- Steps 1 to 4 of R57. -/
def State.flrStart (s : State) (d : Dom) : State :=
  let aborts := s.inflight d
  let f := s.func d
  let s := (s.setFunc d { f with flr := some aborts, epoch := f.epoch + 1, msixEnable := false }).countDev 0x14
  let s := (grpIds.filter (fun k => s.grpOwner k == d)).foldl (fun s k => s.flrHoldGroup k) s
  let s := (s.ports_ d).foldl (fun s p => s.flrHoldPort p) s
  let s := portIds.foldl (fun s p => s.flrPort d p) s
  (s.flrRings d).eraseKeys d

/-- FLR of a VF; the PF's is PF_FLR (R57). -/
def execFlr (d : Dom) (s : State) : Result :=
  if !s.serves || d == 0 || !s.active d || (s.func d).flr.isSome then .next s else finish (s.flrStart d)

/-- Registers that step 5 takes back to their reset values: those of the domain's rings, DEV_DBB and DEV_TSQ. -/
def State.flrReg (s : State) (d : Dom) (r : Reg) : Bool :=
  match r with
  | .ring n _ => inRangeOf (ringsOf (s.entry d)) n.val
  | .fn e .dbb => e == d
  | .fn e .tsq => e == d
  | _ => false

/-- Step 5 of R57. -/
def State.flrEnd (s : State) (d : Dom) (aborts : Nat) : State :=
  let e := s.entry d
  let left := (List.range (s.ringsHeld d)).flatMap (fun n => (s.ring (e.ringBase + n)).frames)
  let s := left.foldl (fun s w => s.freeSpace w.block w.space) s
  let s := { s with regs := s.regs.clear (s.flrReg d), rings := Tbl.drop s.rings (inRangeOf (ringsOf e)) }
  let s := s.setFunc d { s.func d with flr := none, flrAborts := BitVec.ofNat 16 (min aborts 65535), tsqProd := 0, tsqCons := 0, tsqLost := 0, tsqRun := false }
  s.record (domCode d) 2 false 0x02 0x02 (BitVec.ofNat 32 d.val) (BitVec.ofNat 32 aborts)

/-- A port or group of the domain still waits for its hold to take effect (R57, R248). -/
def State.holdsDue (s : State) (d : Dom) : Bool :=
  (s.ports_ d).any (fun p => running (s.port p).state && (s.port p).holdPending.isSome)
    || grpIds.any (fun k => s.grpOwner k == d && (s.group k).holdPending.isSome && (s.group k).state != .stopped && (s.group k).state != .joining)

/-- FLR_COMPLETE: every hold of step 2 has taken effect. -/
def execFlrComplete (d : Dom) (s : State) : Result :=
  match (s.func d).flr with
  | none => .next s
  | some n => if s.holdsDue d then .next s else finish (s.flrEnd d n)

/-- PF FLR: VF Enable is cleared, every VF domain that was active goes through the sequence, then D0 (R61). -/
def State.pfReset (s : State) : State :=
  let vfs := tenants.filter (fun d => s.active d)
  let s := { s with dev := { s.dev with vfEnable := false } }
  (vfs ++ [0]).foldl (fun s d => if (s.func d).flr.isSome then s else s.flrStart d) s

def execPfFlr (s : State) : Result := if s.answers then finish s.pfReset else .next s

end Sys2Proof.Machine
end

