-- ==== Sys2Proof/Machine/Time.lean ====
section
/-! DEFINITION. The time unit: rate, steps, the servo, PPS and event inputs, pulse outputs, the reference (R271 to R303). -/
namespace Sys2Proof.Machine

def State.setTmu (s : State) (t : Tmu) : State := { s with tmu := t }

/-! ### Rate and steps (R276 to R278, R282, R288, R301) -/

/-- New parameters from now on; the earlier ones are kept for earlier instants (R283). -/
def Tmu.push (t : Tmu) (p : TimePar) : Tmu := { t with par := { p with start := t.raw }, past := t.par :: t.past }

/-- RATE is written: T does not change at this instant (R276). -/
def State.setRate (s : State) (rate : Word) : State :=
  let p := s.tmu.par
  s.setTmu (s.tmu.push { p with
    ofs := p.ofs + BitVec.ofInt 64 ((((s.raw.toNat : Int) - p.anchor.toNat) * p.rate.toInt) / 2 ^ 40), anchor := s.raw, rate := rate })

/-- 16 x (PERIOD_INT + PERIOD_FRAC / 2^32) in units of 2^-28 sixteenths, or of a second in PPS mode (R299). -/
def State.period (s : State) (i : Fin 4) : Nat :=
  if s.rf (.out i .cfg) 0 2 = 1 then 16000000000 * 2 ^ 28 else s.rf (.out i .pint) 0 32 * 2 ^ 32 + s.rf (.out i .pfrac) 0 32
def State.pulseStart (s : State) (i : Fin 4) : Nat := if s.rf (.out i .cfg) 0 2 = 1 then 0 else s.rf (.out i .start) 0 64

/-- E_n (R299). -/
def State.pulseAt (s : State) (i : Fin 4) (n : Nat) : Nat := s.pulseStart i + (n * s.period i + 2 ^ 27) / 2 ^ 28

/-- The lowest n at or above lo whose E_n lies at or after t (R300, R301). -/
def State.pulseFrom (s : State) (i : Fin 4) (lo t : Nat) : Nat :=
  let y : Int := ((t : Int) - s.pulseStart i) * 2 ^ 28 - 2 ^ 27
  max lo ((-((-y) / (max 1 (s.period i) : Nat))).toNat)

/-- PPS or TRAIN. -/
def State.pulsing (s : State) (i : Fin 4) : Bool := s.rf (.out i .cfg) 0 2 == 1 || s.rf (.out i .cfg) 0 2 == 2

def State.setPulse (s : State) (i : Fin 4) (p : Pulse) : State := s.setTmu { s.tmu with pulses := s.tmu.pulses.set i p }

/-- A running output continues on its grid after a step (R301). -/
def State.resumePulse (s : State) (i : Fin 4) : State :=
  let p := s.tmu.pulses[i]
  let lo := (p.last.map (· + 1)).getD 0
  if p.running then s.setPulse i { p with next := s.pulseFrom i lo (s.now.toNat + us 1) } else s

/-- A step of device time by delta, with every effect of R282. -/
def State.stepTime (s : State) (delta : DWord) : State :=
  let s := s.setTmu (s.tmu.push { s.tmu.par with ofs := s.tmu.par.ofs + delta, steps := s.tmu.par.steps + delta })
  let s := s.setTmu { s.tmu with ref := none, lastAt := none, stepRaw := s.raw, stepT := some s.now, stepCnt := s.tmu.stepCnt + 1, epochs := s.now.toNat / 2 ^ 35 }
  let s := s.raise (.tmu .evt) 0
  let s := doms.foldl (fun s d => if s.active d then s.raise (.fn d .evcDstat) 1 else s) s
  let s := s.epochEntries s.now
  (List.finRange 4).foldl (fun s i => s.resumePulse i) s

/-- TMU_RATE_WRITE (R276, R294). -/
def execTmuRateWrite (d : Dom) (v : Word) (s : State) : Result :=
  s.ownedWrite d 0 (Reg.tmu .rate).off v (fun s =>
    if s.rb (.tmu .servo) 0 || s.rb (.tmu .servo) 6 then (if v = s.tmu.par.rate then s else s.refuse d (.tmu .rate) mask32 (v.setWidth 64))
    else s.setRate v)

/-- A write of TMU_STEP, whole or by halves; a half carries its word in the low bits of v (R278). -/
def State.writeStep (s : State) (d : Dom) (w : Width) (v : DWord) : State :=
  if s.rb (.tmu .servo) 0 || s.rb (.tmu .servo) 6 then
    let s := if s.rb (.tmu .servo) 0 then s.setTmu { s.tmu with stepLow := none } else s
    s.refuse d (.tmu .step) (if w = .high then mask32 <<< 32 else maskAll) v
  else match w with
    | .low => s.setTmu { s.tmu with stepLow := some (v.setWidth 32) }
    | .high =>
      let lo : Word := s.tmu.stepLow.getD 0
      (s.setTmu { s.tmu with stepLow := none }).stepTime ((v.setWidth 32 : Word) ++ lo)
    | .whole => (s.setTmu { s.tmu with stepLow := none }).stepTime v

/-- TMU_STEP. -/
def execTmuStep (d : Dom) (w : Width) (v : DWord) (s : State) : Result :=
  s.ownedWrite d 0 ((Reg.tmu .step).off + if w = .high then 4 else 0) (v.setWidth 32) (fun s => s.writeStep d w v)

/-- The register whose low half is read; TMU_NOW reads 0 before the first lock (R280). -/
def State.timeReg (s : State) : TimeReg → DWord
  | .now => if s.tmu.started then s.now else 0
  | .raw => s.raw
  | .ofs => s.tmu.par.ofs
  | .anchor => s.tmu.par.anchor
def timeIx : TimeReg → Fin 4
  | .now => 0
  | .raw => 1
  | .ofs => 2
  | .anchor => 3

/-- TMU_LATCH_READ (R280). -/
def execTmuLatchRead (d : Dom) (r : TimeReg) (s : State) : Result :=
  if s.serves && s.active d then
    finish (s.setFunc d { s.func d with latch := (s.func d).latch.set (timeIx r) (some ((s.timeReg r >>> 32).setWidth 32)) })
  else .next s

/-- EPOCH_PASS: T passes the next multiple of 2^35 sixteenths by running (R91, R288). -/
def execEpochPass (s : State) : Result :=
  if !s.tmu.started then .next s
  else
    let t : DWord := BitVec.ofNat 64 ((s.tmu.epochs + 1) * 2 ^ 35)
    let s := if 0 < (t - s.now).toInt then s.advance (s.rawOf t) else s
    finish ((s.setTmu { s.tmu with epochs := (s.tmu.epochs + 1) % 2 ^ 29 }).epochEntries t)

/-! ### The servo (R289 to R294) -/

/-- Nearest integer to n / d, halves away from zero (R292). -/
def roundDiv (n : Int) (d : Nat) : Int :=
  let q : Int := ((2 * n.natAbs + d) / (2 * d) : Nat)
  if n < 0 then -q else q

/-- Clamping to a signed 32-bit value, scaled by 2^k (R292). -/
def clampRate (k : Nat) (v : Int) : Int := max (-(2 ^ 31 * 2 ^ k)) (min ((2 ^ 31 - 1) * 2 ^ k) v)

/-- round(2^40 x I), clamped; I is held in units of 2^-64. -/
def rateOfInt (i : Int) : Word := BitVec.ofInt 32 (clampRate 0 (roundDiv i (2 ^ 24)))

def State.setInteg (s : State) (i : Int) : State := (s.setTmu { s.tmu with integ := i }).setReg (.tmu .sint) ((rateOfInt i).setWidth 64)

def State.kp (s : State) : Nat := s.rf (.tmu .sgain) 0 16
def State.ki (s : State) : Nat := s.rf (.tmu .sgain) 16 16

/-- The PI update for offset e at AT against the reference sample (R292). -/
def State.piUpdate (s : State) (e : Int) (at_ ref : DWord) : State :=
  let den := max 1 (at_ - ref).toNat
  let i := clampRate 24 (roundDiv (s.tmu.integ * den + (s.ki : Int) * e * 2 ^ 48) den)
  let rate := clampRate 0 (roundDiv ((s.kp : Int) * e * 2 ^ 48 + i * den) (den * 2 ^ 24))
  let s := (s.setInteg i).setRate (BitVec.ofInt 32 rate)
  s.setTmu { s.tmu with ref := some at_ }

/-- A servo state; UNLOCK whenever LOCKED is left, LOCK on entry (TMU_EVT). -/
def State.servoGoes (s : State) (st : Servo) : State :=
  let old := s.tmu.servo
  let s := s.setTmu { s.tmu with servo := st }
  let s := if old = .locked ∧ st ≠ .locked then s.raise (.tmu .evt) 2 else s
  if old ≠ .locked ∧ st = .locked then s.raise (.tmu .evt) 1 else s

def State.stepThr (s : State) : Nat := 16 * s.rf (.tmu .sstep) 0 32
def State.lockThr (s : State) : Nat := 16 * s.rf (.tmu .slock) 0 16
def State.lockN (s : State) : Nat := max 1 (s.rf (.tmu .slock) 16 8)
def State.stepMode (s : State) : Nat := s.rf (.tmu .servo) 4 2

/-- The row of R293 for a sample with offset e at AT. -/
def State.applySample (s : State) (e : DWord) (at_ : DWord) : State :=
  let v := e.toInt
  let big := decide (s.stepThr ≤ v.natAbs)
  let fine := decide (v.natAbs < s.lockThr)
  let first (s : State) : State := s.setTmu { s.tmu with ref := some at_ }
  match s.tmu.servo with
  | .off => s
  | .freerun | .holdover =>
    let s := if big && decide (s.stepMode ≠ 0) then s.stepTime e else first s
    (s.setTmu { s.tmu with lockCnt := 0 }).servoGoes .locking
  | st =>
    let s := if st = .locked ∧ !fine then s.servoGoes .locking else s
    match s.tmu.ref with
    | none => first s
    | some r =>
      if decide (s.tmu.servo = .locking) && big && decide (2 ≤ s.stepMode) then
        let s := s.stepTime e
        s.setTmu { s.tmu with lockCnt := 0 }
      else
        let s := s.piUpdate v at_ r
        if fine then
          let n := min 255 (s.tmu.lockCnt + 1)
          let s := s.setTmu { s.tmu with lockCnt := n }
          if s.lockN ≤ n then s.servoGoes .locked else s
        else s.setTmu { s.tmu with lockCnt := 0 }

/-- A sample is discarded (R291). -/
def State.staleSample (s : State) (at_ : DWord) (rawAt : Option DWord) : Bool :=
  let now := s.now
  decide (now < at_) || decide (ms (max 1 (s.rf (.tmu .shold) 16 16)) < (now - at_).toNat)
    || (match s.tmu.lastAt with
        | some l => decide (at_ ≤ l)
        | none => false)
    || (match rawAt, s.tmu.stepT with
        | some r, some _ => decide (r < s.tmu.stepRaw)
        | none, some t => decide (at_ < t)
        | _, none => false)

/-- SERVO_SAMPLE: the oldest waiting sample is used or discarded (R291 to R293). -/
def State.takeSample (s : State) (at_ e : DWord) (rawAt : Option DWord) : State :=
  if s.tmu.servo = .off then s
  else if s.staleSample at_ rawAt then s.setTmu { s.tmu with stale := s.tmu.stale + 1 }
  else
    let s := s.setTmu { s.tmu with used := s.tmu.used + 1, lastOffset := e, lastAt := some at_, lastUse := s.raw }
    s.applySample e at_

def execServoSample (s : State) : Result :=
  match s.tmu.samples with
  | [] => .next s
  | (a, e, r) :: rest => finish ((s.setTmu { s.tmu with samples := rest }).takeSample a e r)

/-- A sample for the servo, where its input is the one that SRC names (R289). -/
def State.offerSample (s : State) (src : Nat) (at_ e : DWord) (rawAt : Option DWord) : State :=
  if s.rb (.tmu .servo) 0 && decide (s.rf (.tmu .servo) 1 3 = src) then s.setTmu { s.tmu with samples := s.tmu.samples ++ [(at_, e, rawAt)] } else s

/-- HOLD_TO in milliseconds; 0 acts as 1 (TMU_SHOLD). -/
def State.holdTo (s : State) : Nat := max 1 (s.rf (.tmu .shold) 0 16)

/-- SERVO_HOLDOVER: HOLD_TO after the last sample used (R293). -/
def execServoHoldover (s : State) : Result :=
  if s.tmu.servo = .locking ∨ s.tmu.servo = .locked then
    let s := s.advance (after s.tmu.lastUse (ms s.holdTo))
    let s := s.setRate (rateOfInt s.tmu.integ)
    finish (((s.setTmu { s.tmu with ref := none }).servoGoes .holdover).raise (.tmu .evt) 3)
  else .next s

/-- EN is written (R278, R293). -/
def State.servoSwitch (s : State) (en : Bool) : State :=
  if en then
    let i : Int := ((s.reg (.tmu .sint)).setWidth 32 : Word).toInt * 2 ^ 24
    (s.setTmu { s.tmu with integ := i, ref := none, stepLow := none, samples := [] }).servoGoes .freerun
  else (s.setTmu { s.tmu with samples := [] }).servoGoes .off

/-- FW is set: the time firmware names the input and, while the time duty runs on a core, starts a servo that is off on the settings that stand
(R294, R381, log 62). -/
def State.firmwareTakes (s : State) : State :=
  let s := s.fabricTime
  if s.rb (.tmu .servo) 0 || !s.dutyRuns 2 then s else (s.setRf (.tmu .servo) 0 1 1).servoSwitch true

/-- A write of TMU_SERVO (R293, R294). -/
def State.writeServo (s : State) (d : Dom) (v : Word) : State :=
  let r := Reg.tmu .servo
  let was := s.rb r 0
  let en := v.getLsbD 0
  let fw := s.rb r 6
  let (w, refused) := s.fieldWrite d r mask32 (v.setWidth 64) (fun f => f.lo == 0)
  let s := s.setReg r w
  let bad := en != was && fw
  let s := if en == was || bad then s else (s.setReg r (putBit w 0 en)).servoSwitch en
  let s := if s.rb r 6 && !fw then s.firmwareTakes else s
  if refused || bad then s.refuse d r mask32 (v.setWidth 64) else s

def execServoEnable (d : Dom) (v : Word) (s : State) : Result :=
  s.ownedWrite d 0 (Reg.tmu .servo).off v (fun s => s.writeServo d v)

/-- OFFSET_SAMPLE: it completes DONE whether or not the servo uses it; stream 0 is the firmware's while FW is 1 (R290, R294). -/
def State.offsetOp (s : State) (x : Desc) (o : Op) : State :=
  let src := dnum x 4 1
  if !reservedZero x [(4, 0, 8), (8, 0, 64), (16, 0, 64)] || decide (3 < src) then s.complete o 0x32
  else if !(s.entry o.dom).timeFeed then s.complete o 0x31
  else
    let steers := decide (s.rf (.tmu .servo) 8 4 = o.dom.val) && !(src == 0 && s.rb (.tmu .servo) 6)
    let s := if steers then s.offerSample src (BitVec.ofNat 64 (dnum x 16 8)) (BitVec.ofNat 64 (dnum x 8 8)) none else s
    s.complete o 0x00

def execOffsetSample (d : Dom) (n : RingNo) (x : Desc) (s : State) : Result :=
  if s.ringOn d n 2 then finish (s.command d n x (fun s op => s.offsetOp x op)) else .next s

/-! ### PPS and event inputs (R295 to R298) -/

/-- The multiple of 16 x 10^9 nearest to a time, the earlier on a tie (R295). -/
def nearestSecond (t : DWord) : DWord := BitVec.ofNat 64 ((t.toNat + 7999999999) / 16000000000 * 16000000000)

/-- PPS_EDGE. -/
def execPpsEdge (i : Fin 2) (raw : DWord) (fall : Bool) (s : State) : Result :=
  let c := Reg.ppsCfg i
  let early := match s.tmu.ppsRaw[i] with
    | some r => decide (raw.toNat < r.toNat + ms 500)
    | none => false
  if !s.rb c 0 || s.rb c 1 != fall || early then .next s
  else
    let s := s.advance raw
    let at_ := raw - BitVec.ofNat 64 (16 * s.rf c 16 16)
    let p := s.timeAt at_
    let s := s.setTmu { s.tmu with ppsRaw := s.tmu.ppsRaw.set i (some raw), ppsStamp := s.tmu.ppsStamp.set i p }
    finish (s.offerSample (4 + i.val) p (nearestSecond p - p) (some at_))

/-- A capture entry (R297). -/
def captureEntry (t : DWord) (rise : Bool) (lost : Half) : BitVec 128 :=
  BitVec.ofNat 128 (t.toNat + (b2n rise + 2 * b2n (decide (lost ≠ 0))) * 2 ^ 64 + lost.toNat * 2 ^ 80)

def satHalf (h : Half) : Half := if h = 0xFFFF then h else h + 1

/-- CONS of an event input. -/
def State.captureCons (s : State) (i : Fin 8) : Half := BitVec.ofNat 16 (s.rf (.evtinIdx i) 16 16)

/-- A stamped edge of EVT_INi, or a lost one (R296, R297). -/
def State.captureEdge (s : State) (i : Fin 8) (raw : DWord) (rise : Bool) : State :=
  let x := s.tmu.captures[i]
  let put (x : Capture) : State := s.setTmu { s.tmu with captures := s.tmu.captures.set i x }
  let soon := match x.lastEdge with
    | some r => decide (raw.toNat < r.toNat + ns 40)
    | none => false
  if soon then put { x with lost := satHalf x.lost }
  else
    let x := { x with lastEdge := some raw }
    if (x.prod - s.captureCons i).toNat = 16 then put { x with lost := satHalf x.lost }
    else
      let t := s.timeAt (raw - BitVec.ofNat 64 (16 * s.rf (.evtinCfg i) 20 12))
      put { x with entries := x.entries.set (fin 16 x.prod.toNat) (captureEntry t rise x.lost), prod := x.prod + 1, lost := 0 }

/-- EDGE selects the edge. -/
def edgeSelected (edge : Nat) (rise : Bool) : Bool := if rise then edge != 2 else decide (2 ≤ edge)

/-- EVT_IN_EDGE: held is how many nanoseconds the level holds after the edge. -/
def execEvtInEdge (i : Fin 8) (raw : DWord) (rise : Bool) (held : Nat) (s : State) : Result :=
  let c := Reg.evtinCfg i
  if s.rb c 0 && edgeSelected (s.rf c 1 2) rise && decide (10 * min 100 (s.rf c 4 10) ≤ held) then finish ((s.advance raw).captureEdge i raw rise)
  else .next s

/-! ### Pulse outputs (R299 to R302) -/

/-- An ENABLE of an output is refused (R302). -/
def State.pulseBad (s : State) (i : Fin 4) : Bool :=
  let mode := s.rf (.out i .cfg) 0 2
  let width := s.rf (.out i .width) 0 32
  let pint := s.rf (.out i .pint) 0 32
  (mode == 2 && decide (pint < 100)) || decide (width < 8) || (mode == 2 && decide (pint ≤ width)) || (mode == 1 && decide (1000000000 ≤ width))
    || !s.tmu.reflock

/-- ENABLE written 1 (R300). -/
def State.pulseOn (s : State) (i : Fin 4) : State :=
  s.setPulse i { s.tmu.pulses[i] with running := true, emitted := 0, next := s.pulseFrom i 0 (s.now.toNat + us 10), last := none }

/-- A write of TMU_EVTOUTi_CFG (R300, R302). -/
def State.writeOut (s : State) (d : Dom) (i : Fin 4) (v : Word) : State :=
  let r := Reg.out i .cfg
  let was := s.rb r 4
  let en := v.getLsbD 4
  let (w, refused) := s.fieldWrite d r mask32 (v.setWidth 64) (fun f => f.lo == 4)
  let s := s.setReg r w
  let bad := en && !was && s.pulseBad i
  let s := if en == was || bad then s
    else if en then (s.setReg r (putBit w 4 true)).pulseOn i
    else (s.setReg r (putBit w 4 false)).setPulse i { s.tmu.pulses[i] with running := false }
  if refused || bad then s.refuse d r mask32 (v.setWidth 64) else s

def execEvtoutEnable (d : Dom) (i : Fin 4) (v : Word) (s : State) : Result :=
  s.ownedWrite d 0 (Reg.out i .cfg).off v (fun s => s.writeOut d i v)

/-- The trailing edge of a pulse; after COUNT pulses the output stops (R300). -/
def State.pulseEnds (s : State) (i : Fin 4) (raw : DWord) : State :=
  let s := (s.advance raw).emit (.pulse i raw)
  let p : Pulse := { s.tmu.pulses[i] with ends := none }
  let n := s.rf (.out i .count) 0 32
  if p.running ∧ n ≠ 0 ∧ n ≤ p.emitted.toNat then
    (((s.setPulse i { p with running := false }).setReg (.out i .cfg) (clearBit (s.reg (.out i .cfg)) 4)).raise (.tmu .evt) 6)
  else s.setPulse i p

/-- The leading edge of pulse n, at E_n - DLY (R299). -/
def State.pulseStarts (s : State) (i : Fin 4) : State :=
  let p := s.tmu.pulses[i]
  let raw := s.rawOf (BitVec.ofNat 64 (s.pulseAt i p.next) - BitVec.ofNat 64 (s.rf (.out i .cfg) 16 16))
  let s := (s.advance raw).emit (.pulse i raw)
  s.setPulse i { p with emitted := p.emitted + 1, last := some p.next, next := p.next + 1, ends := some (after raw (16 * s.rf (.out i .width) 0 32)) }

/-- PULSE_EDGE: the trailing edge of the pulse in progress, or the leading edge of the next. -/
def execPulseEdge (i : Fin 4) (s : State) : Result :=
  let p := s.tmu.pulses[i]
  match p.ends with
  | some r => finish (s.pulseEnds i r)
  | none => if p.running && s.pulsing i then finish (s.pulseStarts i) else .next s

/-! ### The reference (R106, R272 to R274) -/

/-- REF25_LOSS. -/
def execRef25Loss (s : State) : Result :=
  if s.tmu.reflock then finish ((s.setTmu { s.tmu with reflock := false, portHoldover := true, lostAt := s.raw, refGone := true }).raise (.tmu .evt) 4) else .next s

/-- REF25_LOCK: the first lock after power-on reset starts RAW; the lock after a reset is step 3 of the boot, a lock after a loss is the
return of REF25; in power-on reset the PLL does not lock (R273, R478, R487). -/
def execRef25Lock (s : State) : Result :=
  if s.tmu.reflock || s.dev.stage == .held then .next s
  else
    let back := s.tmu.refGone
    let s := s.setTmu { s.tmu with reflock := true, started := true, portHoldover := false, refGone := false }
    finish (if back then s.raise (.tmu .evt) 5 else s)

end Sys2Proof.Machine
end

