-- ==== Sys2Proof/Machine/Ether.lean ====
section
/-! DEFINITION. Station Ethernet: link, transmission, reception, PAUSE, and the time firmware's PTP clock (R312 to R335). -/
namespace Sys2Proof.Machine

/-- PORT of a completion on EPk. -/
def epPort (k : EpId) : Byte := BitVec.ofNat 8 (32 + k.val)
def State.epOn (s : State) (k : EpId) : Bool := s.rb (.ep k .cfg) 0

/-! ### PAUSE (R314, R328) -/

/-- PAUSE_HON: the port honours received PAUSE (R314; IEEE 802.3 Annex 28B for the resolution). -/
def State.pauseHon (s : State) (k : EpId) : Bool :=
  let c := Reg.ep k .cfg
  let lp := (s.eth k).lpPause
  s.rb c 2 && (!s.rb c 1 || (s.rb c 3 && (lp.getLsbD 0 || (s.rb c 4 && lp.getLsbD 1))))

/-- A pause is in force now. -/
def State.paused (s : State) (k : EpId) : Bool := match (s.eth k).pauseEnd with
  | some r => decide (s.raw < r)
  | none => false

/-- A pause ends at a raw instant and is counted in PAUSE_US. -/
def State.endPause (s : State) (k : EpId) (at_ : DWord) : State :=
  let x := s.eth k
  match x.pauseEnd with
  | none => s
  | some _ => (s.setEth k { x with pauseEnd := none }).countBy (32 + k.val) (0xC0 / 4) ((at_.toNat - x.pauseFrom.toNat) / us 1)

/-- A pause whose timer has run out ends (R328). -/
def State.pauseSettle (s : State) (k : EpId) : State := match (s.eth k).pauseEnd with
  | some r => if r ≤ s.raw then s.endPause k r else s
  | none => s

/-! ### Transmission (R316 to R319, R329, R330) -/

/-- EtherType, or two bytes of a frame. -/
def etherType (bs : List Byte) : Nat := ofBe (slice bs 12 2)
/-- C of R321: the FCS of the bytes as a little-endian word. -/
def fcsWord (a : List Byte) : Word := ~~~ (BitVec.ofNat 32 (crcBytesLsb 32 0x04C11DB7 0xFFFFFFFF a)).reverse
/-- A frame with its FCS behind it, as it stands on the wire (R317). -/
def withFcs (a : List Byte) : List Byte := a ++ leBytes 4 (fcsWord a).toNat
def isCtrl (bs : List Byte) : Bool := etherType bs == 0x8808

/-- Offset of the PTP message, none where the frame is not PTP (R326). -/
def ptpAt (bs : List Byte) : Option Nat :=
  if etherType bs = 0x88F7 then some 14
  else if etherType bs = 0x8100 ∧ ofBe (slice bs 16 2) = 0x88F7 then some 18
  else none

/-- The frame is a PTP Sync with messageType 0h and twoStepFlag 0 (R330). -/
def oneStepOk (bs : List Byte) : Bool := match ptpAt bs with
  | some m => decide (m + 44 ≤ bs.length) && leAt bs m 1 % 16 == 0 && leAt bs (m + 6) 1 / 2 % 2 == 0
  | none => false

/-- bs with the bytes from offset o replaced by new ones. -/
def overwrite (bs : List Byte) (o : Nat) (new : List Byte) : List Byte := bs.take o ++ new ++ bs.drop (o + new.length)

/-- One-step insertion of the corrected transmit stamp T (R330). -/
def State.oneStep (s : State) (bs : List Byte) (t : DWord) : List Byte :=
  match ptpAt bs with
  | none => bs
  | some m =>
    let sec := s.rf (.tmu .epoch) 0 48 + t.toNat / 16000000000
    let nanos := t.toNat % 16000000000 / 16
    let corr := (ofBe (slice bs (m + 8) 8) + 4096 * (t.toNat % 16)) % 2 ^ 64
    overwrite (overwrite bs (m + 34) (beBytes 6 sec ++ beBytes 4 nanos)) (m + 8) (beBytes 8 corr)

/-- The frame that may start next: one that a loss of link has cut, the firmware's own, then the rings in round-robin order after the one
served last; a pause lets MAC control frames alone pass, in a round of their own, and nothing of an inactive domain starts (R21, R316, R318,
R328, R329). -/
def State.ethNext (s : State) (k : EpId) : Option EthItem :=
  let x := s.eth k
  let can := x.queue.filter (fun i => (!s.paused k || isCtrl i.bytes) && (i.firmware || s.active i.op.dom))
  let least (l : List EthItem) : Option EthItem := l.foldl (fun b i => match b with
    | none => some i
    | some j => if i.op.num.val < j.op.num.val then some i else some j) none
  let last := if s.paused k then x.lastCtrl else x.lastRing
  match can.find? (fun i => decide (i.attempts ≠ 0)) <|> can.find? (fun i => i.firmware) with
  | some i => some i
  | none => match least (can.filter (fun i => decide (last < i.op.num.val))) with
    | some i => some i
    | none => least can

/-- The first element for which p holds removed. -/
def dropFirst {α : Type} (p : α → Bool) : List α → List α
  | [] => []
  | a :: l => if p a then l else a :: dropFirst p l

/-- A free wire takes the next frame; one that a loss of link has cut moves no round (R318, R329). -/
def State.ethKick (s : State) (k : EpId) : State :=
  let x := s.eth k
  if !x.link || !s.epOn k || x.wire.isSome then s
  else match s.ethNext k with
    | none => s
    | some i =>
      s.setEth k { x with wire := some { i with attempts := i.attempts + 1 }, queue := dropFirst (fun j => j == i) x.queue,
                          lastRing := if i.firmware || s.paused k || decide (i.attempts ≠ 0) then x.lastRing else i.op.num.val,
                          lastCtrl := if i.firmware || decide (i.attempts ≠ 0) then x.lastCtrl else i.op.num.val }

/-- An item that is not sent ends with a status; the firmware's have no completion. -/
def State.endEth (s : State) (k : EpId) (i : EthItem) (status : Byte) : State :=
  if i.firmware then s else s.complete i.op status (BitVec.ofNat 32 (i.attempts % 256)) (port := epPort k)

def ethFields : List (Nat × Nat × Nat) := [(4, 0, 16), (6, 0, 1), fAddr]

/-- The first check that fails before the frame is read; a port that has passed to another domain is not the ring's any more (R24, R78, R88,
R317, log 10). -/
def State.ethTxCode (s : State) (d : Dom) (k : EpId) (x : Desc) : Option Byte :=
  let len := dnum x 4 2
  if !reservedZero { x with flags := x.flags &&& 0xFD } ethFields || decide (len < 14 ∨ 1996 < len) then some 0x32
  else if s.epOwner k ≠ d then some 0x31
  else if !s.inWindow d (daddr x).toNat len true false then some 0x30
  else none

/-- ETH_TX once fetched. -/
def State.ethTxOp (s : State) (k : EpId) (x : Desc) (payload : List Byte) (o : Op) : State :=
  match s.ethTxCode o.dom k x with
  | some c => s.complete o c (port := epPort k)
  | none =>
    if dbit x 6 0 && !oneStepOk payload then s.complete o 0x32 (port := epPort k)
    else
      let e := s.eth k
      (s.setEth k { e with queue := e.queue ++ [{ op := o, bytes := payload, oneStep := dbit x 6 0, tsq := dtsq x }] }).ethKick k

/-- Ring m of domain d names EPk. -/
def State.ethNames (s : State) (d : Dom) (k : EpId) (m : RingNo) : Bool :=
  let cfg := s.ringCfg (s.dring d m)
  s.ringOn d m 0 && bit cfg 9 && decide (fld cfg 16 5 = k.val)
/-- No loaded frame of the ring waits. -/
def State.ethRoom (s : State) (k : EpId) (m : RingNo) : Bool := (s.eth k).queue.all (fun i => i.firmware || decide (i.op.num ≠ m))
/-- Ring n stands before every other ring of the port that has a frame to load, round-robin after the ring loaded last (R316). -/
def State.ethTurn (s : State) (d : Dom) (k : EpId) (n : RingNo) : Bool :=
  let far := fun m : RingNo => (m.val + 127 - (s.eth k).lastFetch) % 64
  (List.finRange 64).all (fun m => m == n || decide (far n < far m) || !(s.ethNames d k m && s.ethRoom k m
    && s.fetchable d m ((s.ring (s.dring d m)).inflight != 0 && Config.nextFence (s.dring d m) (s.ring (s.dring d m)).head.toNat)))

/-- ETH_TX: fetched while the port is enabled, its link is up, the ring has no loaded frame that waits, and it is the ring's turn
(R316, R318, R319). -/
def execEthTx (d : Dom) (n : RingNo) (x : Desc) (payload : List Byte) (s : State) : Result :=
  let cfg := s.ringCfg (s.dring d n)
  let k : EpId := fin 4 (fld cfg 16 5)
  if s.ethNames d k n && s.epOn k && (s.eth k).link && s.ethRoom k n && s.fetchable d n (dfence x) && s.ethTurn d k n then
    if (s.ethTxCode d k x).isNone ∧ payload.length ≠ dnum x 4 2 then .fault .dataLength
    else finish ((s.setEth k { s.eth k with lastFetch := n.val }).command d n x (fun s o => s.ethTxOp k x payload o))
  else .next s

/-- Length bucket of frames from destination address to FCS (section Ethernet block). -/
def ethBucket (n : Nat) : Option Nat :=
  if n < 64 then none else if n = 64 then some 0 else if n ≤ 127 then some 1 else if n ≤ 255 then some 2 else if n ≤ 511 then some 3
  else if n ≤ 1023 then some 4 else if n ≤ 1518 then some 5 else if n ≤ 2048 then some 6 else none

def State.countBucket (s : State) (k : EpId) (base n : Nat) : State := match ethBucket n with
  | some i => s.countEth k (base + 4 * i)
  | none => s

def ethBroadcast : List Byte := List.replicate 6 0xFF
/-- 0 unicast, 1 multicast, 2 broadcast. -/
def destKind (bs : List Byte) : Nat := if bs.take 6 = ethBroadcast then 2 else if (bs.headD 0).getLsbD 0 then 1 else 0

/-- The transmit stamp of a Pdelay_Req of the firmware is kept for its answer (R332). -/
def State.ptpSent (s : State) (k : EpId) (bs : List Byte) (t : DWord) : State :=
  match ptpAt bs with
  | some m => if leAt bs m 1 % 16 = 2 then
      { s with ptp := { s.ptp with pdelay := s.ptp.pdelay.set k (some { seqNo := BitVec.ofNat 16 (ofBe (slice bs (m + 30) 2)), sent := t }) } }
    else s
  | none => s

/-- A frame has been sent: its bytes with the FCS, stamp, counters and completion (R284, R285, R317, R318, R330, R331). -/
def State.ethSent (s : State) (k : EpId) (i : EthItem) (raw : DWord) : State :=
  let t := s.timeAt (raw + BitVec.ofNat 64 (102 + k.val))
  let padded := i.bytes ++ List.replicate (60 - i.bytes.length) 0
  let bytes := if i.oneStep then s.oneStep padded t else padded
  let n := bytes.length + 4
  let s := s.emit (.eth k (withFcs bytes))
  let s := s.countEth k 0x80
  let s := s.countBy (32 + k.val) (0x84 / 4) n
  let s := s.countEth k (0x88 + 4 * destKind bytes)
  let s := if isCtrl bytes then s.countEth k 0x94 else s
  let s := if i.oneStep then s.countEth k 0x98 else s
  let s := s.countBucket k 0xA0 n
  if i.firmware then s.ptpSent k bytes t
  else
    let st : BitVec 36 := t.setWidth 36
    let s := if i.tsq then s.tsqStamp i.op 1 (epPort k) st else s
    s.complete i.op (if i.attempts = 1 then 0x00 else 0x01) (BitVec.ofNat 32 (i.attempts % 256)) (stamp := some st) (port := epPort k)

/-- ETH_TX_END: raw is the raw value at the frame's message timestamp point; the next frame starts. -/
def execEthTxEnd (k : EpId) (raw : DWord) (s : State) : Result :=
  let x := s.eth k
  match x.wire with
  | none => .next s
  | some i =>
    let s := s.setEth k { x with wire := none, stopping := false }
    let s := s.ethSent k i raw
    -- the frame lasts 8 ns for each byte after the point
    let s := s.advance (after raw (128 * (max 60 i.bytes.length + 4)))
    finish ((s.pauseSettle k).ethKick k)

/-- A running port is disabled: what is not on the wire ends ABORTED_STOP, a pause is cleared (R319, R31). -/
def State.stopEth (s : State) (k : EpId) : State :=
  let s := s.setRf (.ep k .cfg) 0 1 0
  let s := (s.pauseSettle k).endPause k s.raw
  let x := s.eth k
  let s := s.setEth k { x with queue := [], stopping := x.wire.isSome, offAt := some s.raw }
  x.queue.foldl (fun s i => s.endEth k i 0x14) s

/-- A write of EPk_CFG. -/
def State.writeEpCfg (s : State) (d : Dom) (k : EpId) (v : Word) : State :=
  let r := Reg.ep k .cfg
  let was := s.rb r 0
  let s := s.writeFields d r mask32 (v.setWidth 64) (fun f => f.lo == 0)
  if v.getLsbD 0 && !was then
    ((s.setRf r 0 1 1).setEth k { s.eth k with stopping := false, offAt := none }).ethKick k
  else if !v.getLsbD 0 && was then s.stopEth k
  else s

/-- A write of EPk_CFG as it arrives (R28, R319). -/
def State.epRequest (s : State) (d : Dom) (k : EpId) (v : Word) : Result :=
  s.ownedWrite d (s.epOwner k) (Reg.ep k .cfg).off v (fun s =>
    if s.heldBack (fun a => a.eports.getLsbD k.val) then s.holdBack (.epCfg d k v) else s.writeEpCfg d k v)

def execEpEnable (d : Dom) (k : EpId) (v : Word) (s : State) : Result := s.epRequest d k v

/-! ### The link (R313, R315) -/

/-- EP_LINK_UP: the partner's abilities decide with AN_EN 1; without REF25 no link aligns (R487). -/
def execEpLinkUp (k : EpId) (partner : AnPartner) (s : State) : Result :=
  let x := s.eth k
  if x.link || !s.tmu.reflock then .next s
  else if s.rb (.ep k .cfg) 1 then
    if partner.fullDuplex then
      let lp : BitVec 2 := BitVec.ofNat 2 (b2n partner.ps1 + 2 * b2n partner.ps2)
      finish (((s.setEth k { x with link := true, anDone := true, anFailed := false, lpPause := lp, lpRf := partner.rf }).raise (.ep k .evt) 0).ethKick k)
    else finish ((s.setEth k { x with anFailed := true, failedAt := s.raw }).raise (.ep k .evt) 1)
  else finish (((s.setEth k { x with link := true }).raise (.ep k .evt) 0).ethKick k)

/-- EP_LINK_LOSS: the frame on the wire is cut and goes back to the head of its queue, or ends where it may not be repeated. -/
def execEpLinkLoss (k : EpId) (s : State) : Result :=
  if !(s.eth k).link then .next s
  else
    let s := ((s.pauseSettle k).endPause k s.raw).raise (.ep k .evt) 0
    let s := s.countEth k 0xC4
    let x := s.eth k
    let s := s.setEth k { x with link := false, anDone := false, lpPause := 0, lpRf := 0, wire := none, stopping := false }
    finish (match x.wire with
      | none => s
      | some i =>
        let s := s.countEth k 0x9C
        if i.ringOff then s.endEth k i 0x13
        else if x.stopping then s.endEth k i 0x14
        else s.setEth k { s.eth k with queue := i :: (s.eth k).queue })

/-- AN_RESTART: 1 s after auto-negotiation has failed. -/
def execAnRestart (k : EpId) (s : State) : Result :=
  let x := s.eth k
  if x.anFailed && !x.link && s.rb (.ep k .cfg) 1 then
    let s := s.waitFrom x.failedAt (sec 1)
    finish ((s.setEth k { s.eth k with anFailed := false }).countEth k 0xC8)
  else .next s

/-- PAUSE_END: the pause timer ends (R328). -/
def execPauseEnd (k : EpId) (s : State) : Result :=
  match (s.eth k).pauseEnd with
  | none => .next s
  | some r => finish (((s.advance r).endPause k r).ethKick k)

/-! ### The time firmware's clock (R332 to R335) -/

/-- The clock runs on port k, while the time duty runs on a core (R332, R334, R410). -/
def State.ptpUses (s : State) (k : EpId) : Bool :=
  match s.ptp.running with
  | none => false
  | some g =>
    let used := (g.toNat / 16) % 16
    let boundary := g.toNat / 4 % 4 == 2
    let first := (List.range 4).find? (fun i => used / 2 ^ i % 2 == 1)
    s.rb (.tmu .servo) 6 && s.dutyRuns 2 && s.rb (.ep k .cfg) 10 && decide (used / 2 ^ k.val % 2 = 1) && (boundary || first == some k.val)

/-- On a device of a fabric that is not its time master every port is master (R334). -/
def State.mastersOnly (s : State) : Bool := s.fabOn && !s.fab.isMaster
def State.ptpState (s : State) (k : EpId) : PtpPort := if s.mastersOnly then .master else s.ptp.ports[k]

/-- Length of a message of the firmware before its TLVs (IEEE 1588-2019, log 16). -/
def ptpLen (kind : Nat) : Nat := if kind = 0xB then 64 else if kind = 0 then 44 else 54

/-- A message of the firmware: untagged, with its type, the domain number and, in an Announce, the priorities and the class of the clock
(R332, R333); a Sync is one-step. The bytes that the manual does not state are free values (log 16). -/
def State.ptpBytes (s : State) (kind : Nat) (g : Word) : List Byte :=
  let lt : Word := (s.reg .ptplt).setWidth 32
  let b := Config.ptpByte kind g lt s.free
  let tlvs := if kind = 0xB then Config.ptpTlvs g lt s.free else []
  let msg := (List.range (ptpLen kind)).map b ++ tlvs
  let msg := overwrite msg 0 [(b 0 &&& 0xF0) ||| BitVec.ofNat 8 kind, (b 1 &&& 0xF0) ||| 2]
  let msg := overwrite msg 2 (beBytes 2 msg.length ++ [BitVec.ofNat 8 (g.toNat / 2 ^ 24)])
  let msg := overwrite msg 6 [b 6 &&& 0xFD]
  let msg := if kind = 0xB then
      overwrite (overwrite msg 47 [BitVec.ofNat 8 (g.toNat / 2 ^ 8), Config.ptpClass g s.tmu.servo.code]) 52 [BitVec.ofNat 8 (g.toNat / 2 ^ 16)]
    else msg
  (List.range 12).map (fun i => b (2048 + i)) ++ [0x88, 0xF7] ++ msg

/-- A message of the firmware joins the port's frames. -/
def State.ptpSend (s : State) (k : EpId) (kind : Nat) (oneStep : Bool) : State :=
  match s.ptp.running with
  | none => s
  | some g =>
    if s.epOn k && (s.eth k).link then
      let i : EthItem := { op := { dom := 0, num := 0, tag := 0 }, bytes := s.ptpBytes kind g, oneStep := oneStep, firmware := true }
      let s := s.draw
      (s.setEth k { s.eth k with queue := (s.eth k).queue ++ [i] }).ethKick k
    else s

/-- The state that the best master clock algorithm chooses for a port with an Announce; a port whose Announces have timed out is master, one
that still listens goes on listening (IEEE 1588-2019, R332, R334, log 16). -/
def State.ptpState' (s : State) (g : Word) (k : EpId) : PtpPort :=
  if (s.ptp.announces[k]).isNone then (if s.ptp.ports[k] = .listening then .listening else .master)
  else
    let c := Config.bmca g (Config.ptpClass g s.tmu.servo.code) s.ptp.announces.toList k.val
    if s.mastersOnly || c == 0 then .master else if c = 1 then .slave else .passive

/-- The states of the clock's ports are chosen anew after an Announce or a receipt timeout on port k (R334); a two-step Sync of a port that stays slave
goes on waiting for its Follow_Up. -/
def State.ptpChoose (s : State) (k : EpId) (a : Option (List Byte)) : State :=
  match s.ptp.running with
  | none => s
  | some g =>
    let st := if a.isNone then s.ptp.ports.set k .master else s.ptp.ports
    let ts := s.ptp.times.set k { s.ptp.times[k] with heard := s.raw }
    let s := { s with ptp := { s.ptp with announces := s.ptp.announces.set k a, ports := st, times := ts } }
    let s := { s with ptp := { s.ptp with ports := Vector.ofFn (fun j => if s.ptpUses j then s.ptpState' g j else s.ptp.ports[j]) } }
    { s with ptp := { s.ptp with syncRx := Vector.ofFn (fun j => if s.ptp.ports[j] = .slave then s.ptp.syncRx[j] else none) } }

/-- A slave port's measurement steers the servo as stream 0, an OFFSET_SAMPLE by its device time (R291, R294, R334). -/
def State.ptpMeasure (s : State) (k : EpId) (msgs : List (List Byte)) (at_ : DWord) : State :=
  let t := s.timeAt at_
  s.offerSample 0 t (Config.ptpOffset msgs t s.ptp.delay[k]) none

/-- The answers to a Pdelay_Req give the peer delay (R332). -/
def State.ptpPeer (s : State) (k : EpId) (msgs : List (List Byte)) (t1 t4 : DWord) : State :=
  { s with ptp := { s.ptp with pdelay := s.ptp.pdelay.set k none, delay := s.ptp.delay.set k (Config.ptpDelay msgs t1 t4) } }

/-- A Pdelay_Resp (kind 3), or the follow-up of a two-step one (kind Ah), received on port k. -/
def State.ptpAnswer (s : State) (k : EpId) (kind : Nat) (q : Half) (msg : List Byte) (t : DWord) : State :=
  match s.ptp.pdelay[k] with
  | none => s
  | some x =>
    if q ≠ x.seqNo then s
    else match x.answer with
      | some (r, t4) => if kind = 0xA then s.ptpPeer k [r, msg] x.sent t4 else s
      | none =>
        if kind ≠ 3 then s
        else if leAt msg 6 1 / 2 % 2 = 1 then { s with ptp := { s.ptp with pdelay := s.ptp.pdelay.set k (some { x with answer := some (msg, t) }) } }
        else s.ptpPeer k [msg] x.sent t

/-- A good PTP frame given to the firmware; at_ is the corrected raw instant of its reception. -/
def State.ptpReceive (s : State) (k : EpId) (bs : List Byte) (at_ : DWord) : State :=
  match ptpAt bs, s.ptp.running with
  | some m, some g =>
    if !s.ptpUses k || decide (leAt bs (m + 4) 1 ≠ g.toNat / 2 ^ 24) then s
    else
      let q : Half := BitVec.ofNat 16 (ofBe (slice bs (m + 30) 2))
      let msg := bs.drop m
      let slave := s.ptpState k == .slave
      match leAt bs m 1 % 16 with
      | 0x0 =>
        if !slave then s
        else if leAt bs (m + 6) 1 / 2 % 2 = 1 then { s with ptp := { s.ptp with syncRx := s.ptp.syncRx.set k (some (msg, at_)) } }
        else s.ptpMeasure k [msg] at_
      | 0x8 => match s.ptp.syncRx[k] with
        | some (sync, r) =>
          if slave && ofBe (slice sync 30 2) == q.toNat then { s with ptp := { s.ptp with syncRx := s.ptp.syncRx.set k none } }.ptpMeasure k [sync, msg] r
          else s
        | none => s
      | 0x2 => s.ptpSend k 3 false
      | 0x3 => s.ptpAnswer k 3 q msg (s.timeAt at_)
      | 0xA => s.ptpAnswer k 0xA q msg (s.timeAt at_)
      | 0xB => s.ptpChoose k (some msg)
      | _ => s
  | _, _ => s

/-- EP_PTPG is written by D0: another PROFILE than 00b and 11b starts the clock with the fields as they now stand, the rest stop it (R335). -/
def State.writePtpg (s : State) (d : Dom) (v : Word) : State :=
  let s := s.writeFields d .ptpg mask32 (v.setWidth 64) (fun _ => false)
  if d ≠ 0 then s
  else
    let w : Word := (s.reg .ptpg).setWidth 32
    if w.toNat % 4 = 1 ∨ w.toNat % 4 = 2 then { s with ptp := { running := some w, ports := Vector.replicate 4 .listening, times := Vector.replicate 4 { heard := s.raw } } }
    else { s with ptp := {} }

/-- PTP_PROFILE_WRITE. -/
def execPtpProfileWrite (d : Dom) (v : Word) (s : State) : Result := s.ownedWrite d 0 Reg.ptpg.off v (fun s => s.writePtpg d v)

/-- The times of a port's messages after the present moment is noted for one of them. -/
def PtpTimes.note (x : PtpTimes) (m : PtpKind) (raw : DWord) : PtpTimes :=
  match m with
  | .sync => { x with sync := raw }
  | .pdelayReq => { x with pdelay := raw }
  | .announce => { x with announce := raw }
def PtpTimes.last (x : PtpTimes) : PtpKind → DWord
  | .sync => x.sync
  | .pdelayReq => x.pdelay
  | .announce => x.announce

/-- The interval of a message of port k has run: RAW stands at its end, and the next one begins (R332). -/
def State.ptpTurn (s : State) (k : EpId) (m : PtpKind) : State :=
  let s := s.waitFrom (s.ptp.times[k].last m) (sec 1)
  { s with ptp := { s.ptp with times := s.ptp.times.set k (s.ptp.times[k].note m s.raw) } }

/-- PTP_MESSAGE_INTERVAL: Sync and Announce are a master port's, Pdelay_Req every port's, each once a second (R332). -/
def execPtpMessageInterval (k : EpId) (m : PtpKind) (s : State) : Result :=
  if !s.ptpUses k then .next s
  else
    let master := s.ptpState k == .master
    match m with
    | .sync => if master then finish ((s.ptpTurn k m).ptpSend k 0 true) else .next s
    | .pdelayReq => finish ((s.ptpTurn k m).ptpSend k 2 false)
    | .announce => if master then finish ((s.ptpTurn k m).ptpSend k 0xB false) else .next s

/-- ANNOUNCE_RECEIPT_TIMEOUT: three intervals of 1 s without an Announce (R332). -/
def execAnnounceReceiptTimeout (k : EpId) (s : State) : Result :=
  if s.ptpUses k then finish ((s.waitFrom s.ptp.times[k].heard (sec 3)).ptpChoose k none) else .next s

/-! ### Reception (R320 to R328) -/

/-- Hash index (R321). -/
def hashIndex (a : List Byte) : Nat := (fcsWord a).toNat / 2 ^ 23

/-- The error flags of a frame as bits 0 to 4 of header byte 2 (R323). -/
def State.ethFlags (s : State) (k : EpId) (n : Nat) (fcsOk symbolOk : Bool) : Nat :=
  let m := s.rf (.ep k .cfg) 16 11
  let maxlen := if 64 ≤ m ∧ m ≤ 2000 then m else 2000
  b2n (!fcsOk) + 2 * b2n (!symbolOk) + 4 * b2n (decide (n < 64)) + 8 * b2n (decide (maxlen < n ∨ 2048 < n)) + 16 * b2n (decide (2048 < n))

/-- Where a frame goes by rules 3 to 6 of R320: its ring, MATCH and INFO0. -/
def State.ethMatch (s : State) (k : EpId) (bs : List Byte) : Option (Nat × Nat × Word) :=
  let c := Reg.ep k .cfg
  let dest := s.rf (.ep k .rxcfg) 0 6
  let da := slice bs 0 6
  let h := hashIndex da
  match (List.finRange 32).find? (fun n => s.rb (.epMac k n) 48 && s.rf (.epMac k n) 0 48 == ofLe da) with
  | some n => some (s.rf (.epMac k n) 49 6, 0, BitVec.ofNat 32 n.val)
  | none =>
    if destKind bs = 2 && s.rb c 7 then some (dest, 1, 0x4000)
    else if (if destKind bs = 0 then s.rb c 8 else s.rb c 9) && s.rb (.epHash k (fin 16 (h / 32))) (h % 32) then some (dest, 2, 0x4000)
    else if s.rb c 6 then some (dest, 3, 0x4000)
    else none

/-- Receive header (R325). -/
def ethHeader (bs : List Byte) (len flags m : Nat) : List Byte :=
  let vlan := decide (etherType bs = 0x8100)
  leBytes 2 len ++ leBytes 1 (flags + 32 * b2n (ptpAt bs).isSome + 64 * b2n vlan) ++ leBytes 1 m
    ++ (if vlan then leBytes 2 (ofBe (slice bs 14 2)) else [0, 0]) ++ List.replicate 10 0

/-- A frame takes its space in staging before it is matched, or is dropped whole and counted there alone (R87); MAC control frames and the
firmware's are not staged (log 63). -/
def State.ethStaged (s : State) (k : EpId) (bs : List Byte) (f : Nat → State → State) : State :=
  match s.takeSpace (32 + k.val) 96 (min 2048 (bs.length - 4)) with
  | none => s.countEth k 0x60
  | some (i, s) => (f i s).freeSpace (32 + k.val) i

/-- A matched frame goes to a ring of the port's domain that is enabled and not being reset, or is dropped and counted; INFO0 carries the bytes
of the frame with its header (R57, R84, R320, R325). -/
def State.ethDeliver (s : State) (k : EpId) (bs : List Byte) (ring flags m : Nat) (info0 : Word) (st : BitVec 36) (i : Nat) : State :=
  let d := s.epOwner k
  let body := bs.take (min 2048 (bs.length - 4))
  match s.ringCond d ring with
  | none => s.countEth k 0x5C
  | some n => s.deliver d n { bytes := ethHeader bs body.length flags m ++ body, info0 := info0 ||| BitVec.ofNat 32 (65536 * (16 + body.length)),
                              status := if flags = 0 then 0x00 else 0x21, stamp := some st, port := epPort k, block := 32 + k.val, space := i, since := s.raw }

/-- A PAUSE that the port honours, whose FCS ended at a raw instant (R328). -/
def State.pauseFrame (s : State) (k : EpId) (quanta : Nat) (at_ : DWord) : State :=
  let s := s.pauseSettle k
  let x := s.eth k
  if quanta = 0 then (s.endPause k at_).ethKick k
  else s.setEth k { x with pauseEnd := some (after at_ (8192 * quanta)), pauseFrom := if x.pauseEnd.isSome then x.pauseFrom else at_ }

/-- A MAC control frame (R324, R327). -/
def State.ctrlFrame (s : State) (k : EpId) (bs : List Byte) (good : Bool) (at_ : DWord) : State :=
  let da := slice bs 0 6
  let exact := (List.finRange 32).any (fun n => s.rb (.epMac k n) 48 && s.rf (.epMac k n) 0 48 == ofLe da)
  let mine := da == [0x01, 0x80, 0xC2, 0x00, 0x00, 0x01] || exact
  if good && ofBe (slice bs 14 2) == 1 && mine then
    let s := s.countEth k 0x14
    if s.pauseHon k then s.pauseFrame k (ofBe (slice bs 16 2)) at_ else s
  else
    let s := s.countEth k 0x18
    if !good && !s.rb (.ep k .cfg) 5 then s.countEth k 0x64 else s

/-- The counters of a frame that is no fragment. -/
def State.ethCountRx (s : State) (k : EpId) (bs : List Byte) (flags : Nat) : State :=
  let n := bs.length
  let s := (List.range 5).foldl (fun s i => if flags / 2 ^ i % 2 = 1 then s.countEth k (0x40 + 4 * i) else s) s
  let s := s.countBucket k 0x20 n
  if flags = 0 then ((s.countEth k 0).countBy (32 + k.val) 1 n).countEth k (8 + 4 * destKind bs) else s

/-- A frame of at least 14 bytes before its FCS: the rules of R320 in their order. -/
def State.ethFrame (s : State) (k : EpId) (bs : List Byte) (flags : Nat) (raw : DWord) : State :=
  let at_ := raw - BitVec.ofNat 64 (166 + k.val)
  let st := s.short at_
  let good := decide (flags = 0)
  let c := Reg.ep k .cfg
  let s := s.ethCountRx k bs flags
  if s.rb c 10 && (ptpAt bs).isSome && good then
    let s := (s.countEth k 0x68).ptpReceive k bs at_
    if s.rb c 11 then s.ethStaged k bs (fun i s => s.ethDeliver k bs (s.rf (.ep k .rxcfg) 0 6) flags 4 0x4000 st i) else s
  else if isCtrl bs then s.ctrlFrame k bs good (after raw (128 * bs.length))
  else s.ethStaged k bs (fun i s => match s.ethMatch k bs with
    | none => s.countEth k 0x58
    | some (ring, m, info0) =>
      if !good && !s.rb c 5 then s.countEth k 0x64 else s.ethDeliver k bs ring flags m info0 st i)

/-- ETH_FRAME_RECEIVED: bytes run from destination address to FCS; raw is the raw value at the message timestamp point. A disabled
port still delivers the frame that was arriving (R315, R319). -/
def execEthFrameReceived (k : EpId) (bytes : List Byte) (fcsOk symbolOk : Bool) (raw : DWord) (s : State) : Result :=
  let x := s.eth k
  let open_ := s.epOn k || (match x.offAt with
    | some r => decide (raw ≤ r)
    | none => false)
  if !open_ || !(x.link || !symbolOk) then .next s
  else
    let s := s.advance (after raw (128 * bytes.length))
    let s := (s.pauseSettle k).ethKick k
    finish (if bytes.length < 18 then s.countEth k 0x54 else s.ethFrame k bytes (s.ethFlags k bytes.length fcsOk symbolOk) raw)

end Sys2Proof.Machine
end

