-- ==== Sys2Proof/Machine/Fabric.lean ====
section
/-! DEFINITION. Ridgeline rows: links, discovery, addresses, routes, fabric time, link encryption (R341 to R386). -/
namespace Sys2Proof.Machine

/-! ### Received frames (R345, R349) -/

def rlReceives (l : Link) : Bool := l.state == .keying || l.state == .hello || l.state == .up
/-- VERSION, CLASS and KIND are those of R343. -/
def rlKnown (f : RlFrame) : Bool := f.version == 1 && f.cls != 3 && decide (f.kind.toNat ≤ 5)

/-- GCM nonce of the frames of one end of link k: 1 from the end with the lower SERIAL, 2 from the other, then C (R385). -/
def State.rlNonce (s : State) (k : LinkId) (mine : Bool) (c : DWord) : List Byte :=
  beBytes 4 (if decide (s.serial < (s.link k).nbr.serial) == mine then 1 else 2) ++ beBytes 8 c.toNat

/-- Ciphertext and tag of a frame under the key of link k, with C as associated data (R385). -/
def State.rlSeal (s : State) (k : LinkId) (slot : KeySlot) (mine : Bool) (c : DWord) (f : RlFrame) : List Byte :=
  gcmSeal (beBytes 32 slot.key.toNat) (s.rlNonce k mine c) (beBytes 8 c.toNat) (rlHeader f ++ f.payload)

/-- A frame on an encrypted link is authentic: its tag is that of the key, and C is above the last accepted (R386). -/
def State.authentic (s : State) (k : LinkId) (a : RlArrival) : Bool :=
  match a.under, (s.link k).key.bind (fun h => s.key h) with
  | some q, some slot =>
    (match (s.link k).cRx with
      | some c => decide (c < q.c)
      | none => true) && (s.rlSeal k slot false q.c a.frame).drop (16 + a.frame.payload.length) == q.tag
  | _, _ => false

/-- The checks of R386 and R345 on a frame that has arrived on link k, and RX_OK; then its effect, and its credits return. A link in clear reads no
frame of any kind from a sealed one. -/
def State.rlTake (s : State) (k : LinkId) (a : RlArrival) (eff : State → State) : Result :=
  let f := a.frame
  let l := s.link k
  if !rlReceives l || (!l.encOn && a.under.isSome) then .next s
  else if l.encOn && !s.authentic k a then finish ((s.countLink k 0x74).rlDone k f)
  else
    let s := if l.encOn then s.setLink k { l with cRx := a.under.map (·.c) } else s
    if !rlKnown f then finish ((s.countLink k 0x54).rlDone k f)
    else if f.ttl = 0 then finish ((s.countLink k 0x58).rlDone k f)
    else finish (eff (s.countLink k 0x40))

/-- Offset of the counter of a discard. -/
def discardOff : RlDiscard → Nat
  | .hcrc => 0x4C
  | .kind => 0x54
  | .ttl => 0x58
  | .crc => 0x48
  | .stomp => 0x50
  | .auth => 0x74

/-- SERIAL of the device that a MGMT frame names. -/
def mgmtSerial (f : RlFrame) : DWord := BitVec.ofNat 64 (ofBe (slice f.payload 8 8))

/-- SERIAL of the device at an address, this one's own included; 0 where none is known: the originator of an ADDR_ASSIGN (R356). -/
def State.serialAt (s : State) (a : Byte) : DWord :=
  if a ≠ 0 ∧ a = s.fab.addr then s.serial else ((s.fab.topo.find? (fun t => topoAddr t == a)).map (·.serial)).getD 0

/-- Originating SERIAL of a flooded frame (R356). -/
def State.floodSerial (s : State) (f : RlFrame) : DWord :=
  if f.kind = kTopo then BitVec.ofNat 64 (ofBe (slice f.payload 0 8))
  else if f.payload.headD 0 = 0x02 then s.serialAt f.src else mgmtSerial f

/-- The pair of a flooded frame has been seen (R356). -/
def State.seen (s : State) (serial : DWord) (q : Half) (mg : Bool) : Bool := s.fab.flooded.contains (serial, q, mg)

/-- The links on which copies of a frame that arrived on link k leave, and the frame as it leaves (R356, R367, R368, R372). -/
def State.copiesOf (s : State) (k : LinkId) (f : RlFrame) : List (LinkId × RlFrame) :=
  let g := { f with ttl := f.ttl - 1 }
  let others := (linkIds.filter (fun j => s.linkUp j && j != k)).map (fun j => (j, g))
  if linkLocal f then []
  else if f.kind ≠ kRouted then (if s.seen (s.floodSerial f) f.seqNo (f.kind == kMgmt) then [] else others)
  else if f.dest = 0xFF then (if (s.seqCheck f).isSome then others else [])
  else if s.fab.addr ≠ 0 ∧ f.dest = s.fab.addr then []
  else match s.transitLink k f with
    | some j => if s.linkUp j then [(j, g)] else (s.wrapTo j g).toList
    | none => []

/-- The output link is free now: nothing waits on it and the wire is not taken. -/
def State.linkFree (s : State) (k : LinkId) : Bool :=
  (s.link k).queue.isEmpty && (match (s.link k).wire with
    | some (_, e) => decide (e ≤ s.raw)
    | none => true)

/-- STAMP of a frame, and t3 of a TIME_REPLY, as the device inserts them at the start of frame (R344, R379). -/
def stampFrame (f : RlFrame) (t : DWord) : RlFrame :=
  if f.kind = kRouted then f
  else
    let f := { f with stamp := t.setWidth 36 }
    if f.kind = kReply then { f with payload := overwrite f.payload 8 (beBytes 8 t.toNat) } else f

/-- A KEYX goes in clear (R383); any other frame of an encrypted link is sealed (R385). -/
def rlSealed (l : Link) (f : RlFrame) : Bool := l.encOn && !(f.kind == kMgmt && f.payload.headD 0 == 0x10)

/-- Raw time that a frame takes on the wire: 12.8 sixteenths of a nanosecond for each byte, the start block's octet and the terminate block's
included. -/
def rlDuration (l : Link) (f : RlFrame) : Nat := (f.payload.length + 20 + (if rlSealed l f then 24 else 0) + 4) * 128 / 10

/-- Corrected transmit stamp of a frame that starts on link k at a raw instant (R284). -/
def State.rlTxStamp (s : State) (k : LinkId) (raw : DWord) : DWord := s.timeAt (raw + BitVec.ofNat 64 (248 + k.val))

/-- Frame g takes the wire and the credits of link k, free by now, until a raw instant. -/
def State.takeWire (s : State) (k : LinkId) (g : RlFrame) (ends : DWord) (broken : Bool) : State :=
  let s := s.endWire k false
  let l := s.link k
  let c := clsIx g.cls
  s.setLink k { l with
    usedCr := l.usedCr.set c ((l.usedCr[c] + rlCredits g.payload.length (rlSealed l g)) % 4096), wire := some (g, ends), stomped := broken }

/-- What goes out of a frame on link k: in clear, or under the next counter of the link key with tag and CRC-32; a broken copy ends with an error
block in their place (R343, R346, R385). No frame leaves an encrypted link in clear. -/
def State.emitRidge (s : State) (k : LinkId) (f : RlFrame) (broken : Bool := false) : State :=
  let l := s.link k
  if !rlSealed l f then s.emit (if broken then .ridgeError k f else .ridge k f)
  else match l.key.bind (fun h => s.key h) with
    | some slot =>
      let body := beBytes 8 l.cTx.toNat ++ s.rlSeal k slot true l.cTx f
      (s.emit (if broken then .ridgeErrorSealed k (body.take (body.length - 16)) else .ridgeSealed k (body ++ crc32 body))).setLink k { l with cTx := l.cTx + 1 }
    | none => s

/-- A copy that went on cut-through and whose frame then failed: it ends, one hop's latency after the frame, with an error block (R346, log 64). -/
def State.brokenCopy (s : State) (j : LinkId) (g : RlFrame) : State :=
  let ends := after s.raw (Config.hopDelay s.raw.toNat j.val)
  let g := stampFrame g (s.rlTxStamp j (ends - BitVec.ofNat 64 (rlDuration (s.link j) g)))
  (s.takeWire j g ends true).emitRidge j g true

/-- A frame that fails after its header has passed was forwarded cut-through on the links that were free and had credit (R346). -/
def State.cutThrough (s : State) (k : LinkId) (f : RlFrame) : State :=
  if !rlKnown f || f.ttl == 0 then s
  else ((s.copiesOf k f).filter (fun e => s.linkFree e.1 && rlFits (s.link e.1) e.2)).foldl (fun s e => s.brokenCopy e.1 e.2) s

/-- The frame failed after its header had passed. -/
def afterHeader : RlDiscard → Bool
  | .crc | .stomp | .auth => true
  | _ => false

/-- RL_FRAME_DISCARD (R345, R346, R349, R386). -/
def execRlFrameDiscard (k : LinkId) (why : RlDiscard) (cls : BitVec 2) (frame : Discarded) (s : State) : Result :=
  if rlReceives (s.link k) && (why != .auth || (s.link k).encOn) then
    let s := match frame.head with
      | some f => if afterHeader why then s.cutThrough k f else s
      | none => s
    finish ((s.countLink k (discardOff why)).returnCredit k cls frame.length)
  else .next s

/-! ### Bypass switches (R375, R376) -/

/-- The ring or mesh link to which COLFk_DRV belongs is inserted. -/
def State.insertedLink (s : State) (k : LinkId) : Bool :=
  s.fabOn && s.rb (.rl k .cfg) 0 && (!s.ringMode k || s.rb (.rl (otherLink k) .cfg) 0)

/-- The drivers follow EN and the ENABLEs; a switch that starts to move holds alignment back (R376). -/
def State.insertLinks (s : State) : State :=
  linkIds.foldl (fun s k =>
    let now := s.insertedLink k
    let was := s.fab.drivers.getLsbD k.val
    let s := { s with fab := { s.fab with drivers := if now then s.fab.drivers ||| BitVec.ofNat 4 (2 ^ k.val) else s.fab.drivers &&& ~~~ (BitVec.ofNat 4 (2 ^ k.val)) } }
    if now && !was then s.setLink k { s.link k with travel := true, travelAt := s.raw }
    else if !now then s.setLink k { s.link k with travel := false }
    else s) s

/-- COLF_TRAVEL_END: TRAVEL milliseconds after the switch began to move (R376). -/
def execColfTravelEnd (k : LinkId) (s : State) : Result :=
  if (s.link k).travel then
    let s := s.waitFrom (s.link k).travelAt (ms (s.colfTravel))
    finish (s.setLink k { s.link k with travel := false })
  else .next s

/-! ### Link states (R353, R354, R383) -/

/-- A write of RLk_CFG. -/
def State.writeRlCfg (s : State) (d : Dom) (k : LinkId) (v : Word) : State :=
  let r := Reg.rl k .cfg
  let was := s.rb r 0
  let s := s.writeFields d r mask32 (v.setWidth 64) (fun f => f.lo == 0)
  if v.getLsbD 0 && !was then ((s.setRf r 0 1 1).setLink k { s.link k with state := .aligning, fresh := true, heardAt := s.raw }).insertLinks
  else if !v.getLsbD 0 && was then ((s.setRf r 0 1 0).linkDown k .down).insertLinks
  else s

/-- RL_ENABLE. -/
def execRlEnable (d : Dom) (k : LinkId) (v : Word) (s : State) : Result :=
  s.ownedWrite d 0 (Reg.rl k .cfg).off v (fun s => s.writeRlCfg d k v)

/-- A frame of this device for its neighbour alone. -/
def State.sendLocal (s : State) (k : LinkId) (kind : BitVec 3) (cls : BitVec 2) (q : Half) (ttl : Byte) (payload : List Byte) : State :=
  s.pushLink k none { s.ownFrame 0 kind cls q ttl payload with }

/-- OWNER_HASH of the owner slot in use, zero where the device is not OWNED (R384). -/
def State.ownerHash (s : State) : BitVec 384 :=
  match s.belay.otp.slots.toList.find? (fun o => o.used && !o.revoked) with
  | some o => o.hash
  | none => 0

/-- KEYX bytes 0 to 379 (R383). -/
def State.keyxBody (s : State) (draw : Nat) : List Byte :=
  [0x10, 0x01] ++ beBytes 1 (b2n s.belay.debugUnlocked) ++ [0] ++ beBytes 8 s.serial.toNat ++ beBytes 96 Config.dikPublic.toNat
    ++ beBytes 96 Config.dikCertificate.toNat ++ beBytes 48 s.ownerHash.toNat ++ beBytes 96 (Config.ecdhPublic draw).toNat
    ++ beBytes 32 ((Config.drbg (draw + 1)).toNat % 2 ^ 256)

/-- A KEYX with a fresh ephemeral key and nonce (R383, R384). -/
def State.sendKeyx (s : State) (k : LinkId) : State :=
  let body := s.keyxBody s.free
  let s := s.setLink k { s.link k with keyxSent := some (s.free, body), keyxAt := s.raw }
  (s.draw.draw).sendLocal k kMgmt cUrgent 0 s.fabTtl (body ++ beBytes 96 (Config.dikSign body).toNat)

/-- The link enters KEYING. -/
def State.enterKeying (s : State) (k : LinkId) : State :=
  (s.setLink k { s.link k with state := .keying, helloCount := 0 }).sendKeyx k

/-- RL_ALIGNED, once REF25 is locked: counts of credits start at 0 and the first reports grant the whole buffers (R350, R353, R487). -/
def execRlAligned (k : LinkId) (s : State) : Result :=
  let l := s.link k
  if l.state ≠ .aligning ∨ l.travel ∨ !s.tmu.reflock then .next s
  else
    let s := s.setLink k { l with
      state := .hello, fresh := false, los := false, rf := false, helloCount := 0, heardAt := s.raw, granted := Vector.replicate 3 0, usedCr := Vector.replicate 3 0,
      returned := #v[bufCredits 0, bufCredits 1, bufCredits 2] }
    let s := (List.finRange 3).foldl (fun s c => s.reportCredit k c) s
    finish (if s.rb (.rl k .cfg) 1 then s.enterKeying k else s)

/-- RL_FAULT. -/
def execRlFault (k : LinkId) (cause : RlFaultCause) (s : State) : Result :=
  let l := s.link k
  if l.state = .down then .next s
  else finish ((s.setLink k { l with
    los := cause == .lossOfSignal || (l.los && cause == .lossOfLock), rf := l.rf || cause == .remoteFault }).linkDown k .aligning)

/-- HELLO_TIMEOUT: 30 ms without a HELLO. -/
def execHelloTimeout (k : LinkId) (s : State) : Result :=
  if (s.link k).state = .down then .next s else finish ((s.waitFrom (s.link k).heardAt (ms 30)).linkDown k .aligning)

/-- The 32-byte HELLO payload (R352). -/
def State.helloPayload (s : State) (k : LinkId) : List Byte :=
  beBytes 8 s.serial.toNat ++ [s.fab.addr]
    ++ beBytes 1 (k.val + 4 * b2n (s.rb (.rl k .cfg) 1) + 8 * b2n (decide (s.fab.upstream = k.val)))
    ++ [s.myPrio, s.fab.hops, s.fab.master, s.fab.boot] ++ List.replicate 18 0

/-- HELLO_TIMER: 10 ms after the last HELLO, less the millisecond that the period may be short (R352). -/
def execHelloTimer (k : LinkId) (s : State) : Result :=
  let l := s.link k
  if !rlReceives l then .next s
  else
    let s := s.waitFrom l.helloAt (ms 9)
    let q := l.helloSeq + 1
    finish ((s.setLink k { s.link k with helloSeq := q, helloAt := s.raw }).sendLocal k kHello cUrgent q 1 (s.helloPayload k))

/-- What a HELLO says of its sender. -/
def neighbourOf (p : List Byte) : Neighbour :=
  let b := leAt p 9 1
  { serial := BitVec.ofNat 64 (ofBe (slice p 0 8)), addr := p.getD 8 0, link := BitVec.ofNat 2 b, encReq := decide (b / 4 % 2 = 1),
    upIsYou := decide (b / 8 % 2 = 1), tprio := p.getD 10 0, hops := p.getD 11 0, master := p.getD 12 0, boot := p.getD 13 0 }

/-- Link k is UP (R353): the wrap of its ring ends (R372). -/
def State.linkEntersUp (s : State) (k : LinkId) : State :=
  let s := s.setLink k { s.link k with state := .up, wrapped := false }
  (s.topologyChanged.newTopo).fabEvt 1

/-- A HELLO on a link that receives. That the peer has ENC_REQ set is first heard here: a link that is not encrypted then enters KEYING before it can
be UP (R353, R383, log 65). -/
def State.helloOp (s : State) (k : LinkId) (n : Neighbour) : State :=
  let l := s.link k
  if 0 < l.helloCount ∧ l.nbr.serial ≠ n.serial then s.linkDown k .aligning
  else
    let was := l.nbr
    let c := min 3 (l.helloCount + 1)
    let s := s.setLink k { l with nbr := n, helloCount := c, heardAt := s.raw }
    match l.state with
    | .hello => if n.encReq && !l.encOn then s.enterKeying k else if c = 3 then s.linkEntersUp k else s
    | .up => if was.addr ≠ n.addr ∨ was.link ≠ n.link then s.topologyChanged.newTopo else s.fabricTime
    | _ => s

/-- HELLO. -/
def execHello (k : LinkId) (a : RlArrival) (s : State) : Result :=
  let f := a.frame
  if f.kind ≠ kHello then .next s else s.rlTake k a (fun s => (s.rlDone k f).helloOp k (neighbourOf f.payload))

/-! ### Link encryption (R383 to R386) -/

/-- The lowest free handle within the quota of a domain (R43, R45). -/
def State.freeHandle (s : State) (d : Dom) : Option Nat :=
  let used := (s.belay.keys.filter (fun e => match e.2 with
    | some k => decide (k.dom = d)
    | none => false)).length
  if (s.entry d).keyQuota ≤ used then none else (List.range 256).find? (fun h => (s.key h).isNone)

/-- Belay accepts the peer's KEYX (R384). -/
def State.keyxOk (s : State) (p : List Byte) : Bool :=
  let dik : BitVec 768 := BitVec.ofNat 768 (ofBe (slice p 12 96))
  decide (p.length = 476) && p.headD 0 == 0x10 && p.getD 1 0 == 0x01 && p.getD 2 0 == 0 && !s.belay.debugUnlocked
    && ecdsaVerify Config.hetrumRoot (slice p 4 104) (BitVec.ofNat 768 (ofBe (slice p 108 96)))
    && ecdsaVerify dik (slice p 0 380) (BitVec.ofNat 768 (ofBe (slice p 380 96)))
    && s.belay.otp.life == .owned && BitVec.ofNat 384 (ofBe (slice p 204 48)) == s.ownerHash

/-- K: the leftmost 256 bits of the one-step KDF (R384). -/
def State.linkKey (s : State) (draw : Nat) (mine peer : List Byte) : BitVec 256 :=
  let z := Config.ecdhShared draw (BitVec.ofNat 768 (ofBe (slice peer 252 96)))
  let low := decide (s.serial.toNat < ofBe (slice peer 4 8))
  let pair (o n : Nat) : List Byte := if low then slice mine o n ++ slice peer o n else slice peer o n ++ slice mine o n
  let label : List Byte := [0x52, 0x49, 0x44, 0x47, 0x45, 0x4C, 0x49, 0x4E, 0x45, 0x2D, 0x4C, 0x4B, 0x31]
  BitVec.ofNat 256 ((sha384 (beBytes 4 1 ++ beBytes 48 z.toNat ++ label ++ pair 348 32 ++ pair 4 8)).toNat / 2 ^ 128)

/-- Agreement succeeds or fails (R384, R386). -/
def State.keyxOp (s : State) (k : LinkId) (p : List Byte) : State :=
  let l := s.link k
  match l.keyxSent, s.freeHandle 0 with
  | some (draw, mine), some h =>
    if s.keyxOk p then
      let s := s.setKey h (some { dom := 0, sealing := false, key := s.linkKey draw mine p })
      let n : Neighbour := { l.nbr with serial := BitVec.ofNat 64 (ofBe (slice p 4 8)) }
      s.setLink k { s.link k with state := .hello, encOn := true, key := some h, cTx := 0, cRx := none, keyxSent := none, nbr := n }
    else s.fabEvt 5
  | _, _ => s.fabEvt 5

/-- KEYX. -/
def execKeyx (k : LinkId) (a : RlArrival) (s : State) : Result :=
  let f := a.frame
  if f.kind ≠ kMgmt ∨ f.payload.headD 0 ≠ 0x10 then .next s
  else s.rlTake k a (fun s => if (s.link k).state ≠ .keying then s.rlDone k f else (s.rlDone k f).keyxOp k f.payload)

/-- KEYX_TIMER: 100 ms without agreement. -/
def execKeyxTimer (k : LinkId) (s : State) : Result :=
  if (s.link k).state = .keying then finish ((s.waitFrom (s.link k).keyxAt (ms 100)).sendKeyx k) else .next s

/-! ### Topology (R355, R356, R360, R369) -/

/-- What a TOPO payload says of BOOT: where it changes for a device, or for a source address, the next frame of the address that the device had and
of the one it has passes the sequence check (R369). -/
def State.noteBoot (s : State) (t : Topo) : State :=
  let a := topoAddr t
  let b := topoBoot t
  let old := s.fab.boots.find? (fun e => e.1 == t.serial)
  let had := (old.map (·.2.2)).getD 0
  let reboot := old.any (fun e => e.2.1 != b)
  let taken := s.fab.boots.any (fun e => e.1 != t.serial && e.2.2 == a && e.2.1 != b)
  let fresh := fun i : Nat => (reboot && (i % 256 == had.toNat || i % 256 == a.toNat)) || (taken && i % 256 == a.toNat)
  { s with fab := { s.fab with
    last := Tbl.drop s.fab.last fresh,
    boots := (t.serial, b, if a = 0 then had else a) :: s.fab.boots.filter (fun e => e.1 != t.serial && (a == 0 || e.2.2 != a)) } }

/-- A TOPO payload taken in (R356, R369). -/
def State.holdTopo (s : State) (t : Topo) : State :=
  let before := s.topology
  let s := s.noteBoot t
  let s := { s with fab := { s.fab with topo := t :: s.fab.topo.filter (fun u => u.serial != t.serial) } }
  let same := before.length == s.topology.length && s.topology.all (fun u => before.any (fun b => b.serial == u.serial && b.payload == u.payload))
  if same then s else s.topologyChanged

/-- A flooded frame that arrived: a repeat is dropped, another has its effect and goes on with TTL less 1 (R347, R356). -/
def State.flooded_ (s : State) (k : LinkId) (f : RlFrame) (serial : DWord) (mg : Bool) (eff : State → State) : State :=
  if s.seen serial f.seqNo mg then s.rlDone k f
  else (eff (s.remember serial f.seqNo mg)).flood (some k) { f with ttl := f.ttl - 1 }

/-- A TOPO with the payload that is held refreshes it, a repeat too, which is what a device sends once a second (R355, R356, log 65). -/
def State.refreshTopo (s : State) (serial : DWord) (payload : List Byte) : State :=
  { s with fab := { s.fab with topo := s.fab.topo.map (fun t => if t.serial == serial && t.payload == payload then { t with at_ := s.raw } else t) } }

/-- TOPO. -/
def execTopo (k : LinkId) (a : RlArrival) (s : State) : Result :=
  let f := a.frame
  if f.kind ≠ kTopo then .next s
  else
    let serial := s.floodSerial f
    s.rlTake k a (fun s => (s.refreshTopo serial (slice f.payload 0 64)).flooded_ k f serial false (fun s =>
      if serial = s.serial then s else s.holdTopo { serial := serial, gen := f.seqNo, payload := slice f.payload 0 64, at_ := s.raw }))

/-- TOPO_TIMER: once a second. -/
def execTopoTimer (s : State) : Result :=
  if linkIds.any (fun k => s.linkUp k) then finish (s.waitFrom s.fab.topoAt (sec 1)).sendTopo else .next s

/-- TOPO_EXPIRY: 3.5 s without a refresh of a device's payload. -/
def execTopoExpiry (serial : DWord) (s : State) : Result :=
  match s.fab.topo.find? (fun t => t.serial == serial) with
  | none => .next s
  | some t =>
    let s := s.waitFrom t.at_ (ms 3500)
    let n := s.topology.length
    let s := { s with fab := { s.fab with topo := s.fab.topo.filter (fun t => t.serial != serial) } }
    finish (if s.topology.length = n then s else s.topologyChanged)

/-! ### Addresses (R358, R359) -/

/-- A MGMT frame with DEST 255 that this device originates. -/
def State.floodMgmt (s : State) (originator : DWord) (payload : List Byte) : State :=
  let q := s.fab.mgmtSeq + 1
  let s := { s with fab := { s.fab with mgmtSeq := q } }
  (s.remember originator q true).flood none (s.ownFrame 0xFF kMgmt cUrgent q s.fabTtl payload)

def State.addrFree (s : State) (a : Byte) (serial : DWord) : Bool :=
  (decide (s.fab.addr ≠ a) || serial == s.serial) && s.topology.all (fun t => topoAddr t != a || t.serial == serial)

/-- The address for a SERIAL (R359). -/
def State.chooseAddr (s : State) (serial : DWord) : Option Byte :=
  let before := (s.fab.given.find? (fun g => g.1 == serial)).map (·.2)
  match before.filter (fun a => s.addrFree a serial) with
  | some a => some a
  | none => ((List.range 128).map (fun i => BitVec.ofNat 8 (i + 1))).find? (fun a => s.addrFree a serial)

/-- The device takes an address (R359, R360). -/
def State.takeAddr (s : State) (a : Byte) : State :=
  ({ s with fab := { s.fab with addr := a, gaveUp := false } }.fabEvt 3).addrConflict.fabricTime

/-- The allocator answers a request, while its duty runs (R359, R408, R411). -/
def State.allocate (s : State) (serial : DWord) : State :=
  if !s.fab.alloc || !s.dutyRuns 0 then s
  else match s.chooseAddr serial with
  | none => s.fabEvt 3
  | some a =>
    let s := { s with fab := { s.fab with given := (serial, a) :: s.fab.given.filter (fun g => g.1 != serial) } }
    let s := if serial = s.serial then s.takeAddr a else s
    s.floodMgmt s.serial ([0x02, a] ++ List.replicate 6 0 ++ beBytes 8 serial.toNat)

/-- ADDR_REQ_TIMER: 100 ms without an address. -/
def execAddrReqTimer (s : State) : Result :=
  if s.fabOn && s.rb (.fab .cfg) 1 && s.fab.addr == 0 then
    let s := s.waitFrom s.fab.reqAt (ms 100)
    let s := { s with fab := { s.fab with reqAt := s.raw } }.floodMgmt s.serial ([0x01, s.fab.prevAddr] ++ List.replicate 6 0 ++ beBytes 8 s.serial.toNat)
    finish (s.allocate s.serial)
  else .next s

/-- ADDR_REQ. -/
def execAddrReq (k : LinkId) (a : RlArrival) (s : State) : Result :=
  let f := a.frame
  if f.kind ≠ kMgmt ∨ f.payload.headD 0 ≠ 0x01 then .next s
  else s.rlTake k a (fun s => s.flooded_ k f (s.floodSerial f) true (fun s => s.allocate (mgmtSerial f)))

/-- ADDR_ASSIGN. -/
def execAddrAssign (k : LinkId) (a : RlArrival) (s : State) : Result :=
  let f := a.frame
  if f.kind ≠ kMgmt ∨ f.payload.headD 0 ≠ 0x02 then .next s
  else s.rlTake k a (fun s => s.flooded_ k f (s.floodSerial f) true (fun s =>
    if mgmtSerial f = s.serial ∧ s.fabOn ∧ s.rb (.fab .cfg) 1 ∧ s.fab.addr = 0 then s.takeAddr (f.payload.getD 1 0) else s))

/-- FAB_CFG is written: EN inserts or withdraws the rings and gives or takes the address (R358, R360, R376). -/
def State.writeFabCfg (s : State) (d : Dom) (v : Word) : State :=
  let r := Reg.fab .cfg
  let was := s.rb r 0
  let en := v.getLsbD 0
  let s := s.writeFields d r mask32 (v.setWidth 64) (fun f => f.lo == 0)
  let s := s.setRf r 0 1 (b2n en)
  let fixed := BitVec.ofNat 8 (s.rf r 8 8)
  let fixed : Byte := if 128 < fixed.toNat then 0 else fixed
  let a := s.fab.addr
  let new : Byte := if !en then 0 else if !s.rb r 1 then fixed else a
  let s := { s with fab := { s.fab with addr := new, gaveUp := false, prevAddr := if new = a then s.fab.prevAddr else a } }
  let s := if new = a then s else s.fabEvt 3
  let s := s.addrConflict.insertLinks
  if en != was || decide (new ≠ a) then s.allocator.fabricTime else s

/-- FAB_ENABLE. -/
def execFabEnable (d : Dom) (v : Word) (s : State) : Result := s.ownedWrite d 0 (Reg.fab .cfg).off v (fun s => s.writeFabCfg d v)

/-- FAB_TIME is written: a new election at once (R377). -/
def State.writeFabTime (s : State) (d : Dom) (v : Word) : State :=
  (s.writeFields d (.fab .time) mask32 (v.setWidth 64) (fun _ => false)).fabricTime

/-- FAB_TIME_WRITE. -/
def execFabTimeWrite (d : Dom) (v : Word) (s : State) : Result := s.ownedWrite d 0 (Reg.fab .time).off v (fun s => s.writeFabTime d v)

/-! ### Routes (R362 to R365) -/

/-- Serials one hop from a set of devices, this device left out. -/
def State.hopFrom (s : State) (seen : List DWord) : List DWord :=
  (s.topology.filter (fun t => seen.contains t.serial)).flatMap (fun t => (topoNbrs t).filter (fun x => x != s.serial && !seen.contains x))

/-- Hops from a device to another, at most fuel. -/
def State.hops (s : State) (target : DWord) : Nat → Nat → List DWord → Option Nat
  | 0, _, _ => none
  | fuel + 1, n, seen =>
    if seen.contains target then some n
    else
      let new := (s.hopFrom seen).eraseDups
      if new.isEmpty then none else State.hops s target fuel (n + 1) (seen ++ new)

/-- Hops from link k to an address: 1 and the way on from the neighbour; a broadcast is one hop on every link (R365). -/
def State.linkHops (s : State) (dest : Byte) (k : LinkId) : Option Nat :=
  if !s.linkUp k then none
  else if dest = 0xFF then some 1
  else match s.topology.find? (fun t => topoAddr t == dest) with
    | some t => s.hops t.serial 130 1 [(s.link k).nbr.serial]
    | none => if (s.link k).nbr.addr = dest then some 1 else none

/-- The link of the fewest hops among some, ties to the lower number. -/
def State.bestLink (s : State) (dest : Byte) (ks : List LinkId) : Option LinkId :=
  (ks.foldl (fun (b : Option (LinkId × Nat)) k => match s.linkHops dest k, b with
    | some n, some (_, m) => if n < m then some (k, n) else b
    | some n, none => some (k, n)
    | none, _ => b) none).map (·.1)

def linkCode (k : Option LinkId) : BitVec 3 := BitVec.ofNat 3 ((k.map (·.val)).getD 7)

/-- PRIMARY and ALTERNATE of one entry (R365). -/
def State.routeLinks (s : State) (rt : Route) : Route :=
  if rt.dest = s.fab.addr then { rt with primary := 7, alternate := 7 }
  else
    let p := s.bestLink rt.dest linkIds
    let a := s.bestLink rt.dest (linkIds.filter (fun k => decide (some k ≠ p)))
    { rt with primary := linkCode p, alternate := linkCode a }

/-- ROUTE_RECOMPUTE: gateway firmware, on the core of the routing duty, rewrites every valid entry (R36, R365, R408). -/
def execRouteRecompute (s : State) : Result :=
  if !s.dutyRuns 0 then .next s
  else finish ((s.routes.filter (fun e => e.2.valid)).foldl (fun s e => s.setRoute e.1 (s.routeLinks e.2)) s)

def rtFirst (x : Desc) : Nat := dnum x 6 2
def rtCount (x : Desc) : Nat := dnum x 8 2
def rtBad (x : Desc) : Bool :=
  !reservedZero x [(6, 0, 16), (8, 0, 16), fAddr] || decide (255 < rtFirst x ∨ rtCount x = 0 ∨ 256 < rtFirst x + rtCount x)

/-- Entries of the command that the domain does not hold (R363). -/
def State.rtForeign (s : State) (x : Desc) (d : Dom) : Bool := (List.range (rtCount x)).any (fun i => s.routeOwner (rtFirst x + i) != d.val)

/-- Bytes of an entry that RT_WRITE refuses (R363). -/
def rtEntryBad (b : List Byte) : Bool :=
  let b0 := leAt b 0 1
  let dest := leAt b 1 1
  let cls := b0 / 4 % 4
  decide (16 ≤ b0) || decide (2 ≤ leAt b 2 1) || leAt b 3 1 != 0 || leAt b 7 1 != 0 || decide (16 ≤ leAt b 8 1) || decide (leAt b 9 1 / 8 % 2 = 1)
    || decide (128 ≤ leAt b 9 1) || leAt b 12 20 != 0 || dest == 0 || decide (129 ≤ dest ∧ dest ≤ 254) || cls == 0 || cls == 3
    || (decide (b0 / 2 % 2 = 1) && cls == 2)

/-- One entry replaced; the bytes of others are kept, and an entry made valid starts its sequence check anew (R364, R369). -/
def State.rtPut (s : State) (r : Nat) (b : List Byte) : State :=
  let b0 := leAt b 0 1
  let old := s.route r
  let valid := decide (b0 % 2 = 1)
  let s := if valid && !old.valid then { s with fab := { s.fab with last := Tbl.drop s.fab.last (fun i => i / 256 == r) } } else s
  s.setRoute r { old with
    valid := valid, twin := decide (b0 / 2 % 2 = 1), cls := BitVec.ofNat 2 (b0 / 4), dest := b.getD 1 0, toRule := decide (leAt b 2 1 % 2 = 1),
    target := BitVec.ofNat 16 (leAt b 4 2), src := b.getD 6 0 }

/-- RT_WRITE once fetched; it waits for a record that names one of the entries (R28). -/
def State.rtWriteOp (s : State) (x : Desc) (bytes : List Byte) (o : Op) : State :=
  let n := rtCount x
  if rtBad x then s.complete o 0x32
  else if s.rtForeign x o.dom then s.complete o 0x31
  else if !s.inWindow o.dom (daddr x).toNat (32 * n) true false then s.complete o 0x30
  else if s.heldBack (fun a => decide (rtFirst x < a.routes.1 + a.routes.2 ∧ a.routes.1 < rtFirst x + n)) then s.holdBack (.rtWrite o x bytes)
  else if (List.range n).any (fun i => rtEntryBad (slice bytes (32 * i) 32)) then s.complete o 0x32
  else ((List.range n).foldl (fun s i => s.rtPut (rtFirst x + i) (slice bytes (32 * i) 32)) s).complete o 0x00 (BitVec.ofNat 32 n)

/-- RT_WRITE. -/
def execRtWrite (d : Dom) (n : RingNo) (x : Desc) (bytes : List Byte) (s : State) : Result :=
  if !s.ringOn d n 2 then .next s
  else if !rtBad x && bytes.length != 32 * rtCount x then .fault .dataLength
  else finish (s.command d n x (fun s op => s.rtWriteOp x bytes op))

/-- The 32 bytes of an entry (R362). -/
def State.rtBytes (s : State) (r : Nat) : List Byte :=
  let e := s.route r
  leBytes 1 (b2n e.valid + 2 * b2n e.twin + 4 * e.cls.toNat) ++ [e.dest] ++ leBytes 1 (b2n e.toRule) ++ [0] ++ leBytes 2 e.target.toNat ++ [e.src, 0]
    ++ leBytes 1 (s.routeOwner r) ++ leBytes 1 (e.primary.toNat + 16 * e.alternate.toNat) ++ leBytes 2 e.seqTx.toNat ++ List.replicate 20 0

/-- RT_READ once fetched. -/
def State.rtReadOp (s : State) (x : Desc) (o : Op) : State :=
  let n := rtCount x
  if rtBad x then s.complete o 0x32
  else if s.rtForeign x o.dom then s.complete o 0x31
  else if !s.inWindow o.dom (daddr x).toNat (32 * n) false true then s.complete o 0x30
  else (s.hostWrite o.dom (daddr x).toNat ((List.range n).flatMap (fun i => s.rtBytes (rtFirst x + i)))).complete o 0x00 (BitVec.ofNat 32 n)

/-- RT_READ. -/
def execRtRead (d : Dom) (n : RingNo) (x : Desc) (s : State) : Result :=
  if s.ringOn d n 2 then finish (s.command d n x (fun s op => s.rtReadOp x op)) else .next s

/-- FAB_TOPO_READ once fetched: this device's payload, then those of its topology (R363). -/
def State.topoReadOp (s : State) (x : Desc) (o : Op) : State :=
  let len := dnum x 4 4
  if !reservedZero x [(4, 0, 32), fAddr] || decide (len < 8192) then s.complete o 0x32
  else if o.dom ≠ 0 then s.complete o 0x31
  else if !s.inWindow o.dom (daddr x).toNat len false true then s.complete o 0x30
  else
    let ts := s.topology
    let gens := s.fab.gen.toNat + ts.foldl (fun n t => n + t.gen.toNat) 0
    (s.hostWrite o.dom (daddr x).toNat (s.topoPayload ++ ts.flatMap (·.payload))).complete o 0x00 (BitVec.ofNat 32 (ts.length + 1)) (BitVec.ofNat 16 gens)

/-- FAB_TOPO_READ. -/
def execFabTopoRead (d : Dom) (n : RingNo) (x : Desc) (s : State) : Result :=
  if s.ringOn d n 2 then finish (s.command d n x (fun s op => s.topoReadOp x op)) else .next s

/-! ### Frames in transit and delivery (R345, R356, R367, R368) -/

/-- ROUTED. -/
def State.routedOp (s : State) (k : LinkId) (f : RlFrame) : State :=
  if f.dest = 0xFF then
    let (s, fwd) := s.arriveRouted k f
    if fwd then s.flood (some k) { f with ttl := f.ttl - 1 } else s.rlDone k f
  else if s.fab.addr ≠ 0 ∧ f.dest = s.fab.addr then (s.arriveRouted k f).1.rlDone k f
  else s.transit k f

def execRouted (k : LinkId) (a : RlArrival) (s : State) : Result :=
  if a.frame.kind ≠ kRouted then .next s else s.rlTake k a (fun s => s.routedOp k a.frame)

/-! ### Credits and sending (R344, R349 to R351, R385) -/

/-- CREDIT_REPORT: the peer's cumulative count of a class. -/
def execCreditReport (k : LinkId) (cls : BitVec 2) (count : BitVec 12) (s : State) : Result :=
  let l := s.link k
  if !rlReceives l || cls == 3 then .next s else finish (s.setLink k { l with granted := l.granted.set (clsIx cls) count.toNat })

/-- CREDIT_REPORT_TIMER: every class is reported. -/
def execCreditReportTimer (k : LinkId) (s : State) : Result :=
  if rlReceives (s.link k) then finish ((List.finRange 3).foldl (fun s c => s.reportCredit k c) s) else .next s

/-- The first frame of a class that fits the peer's credit. -/
def readyFrame (l : Link) : Option (Option LinkId × RlFrame) :=
  let cand (c : Nat) : Option (Option LinkId × RlFrame) := (l.queue.find? (fun e => e.2.cls.toNat == c)).filter (fun e => rlFits l e.2)
  match cand 0, cand 1 with
  | some e, _ => some e
  | none, some e => some e
  | none, none => cand 2

/-- A frame starts on a free wire at a raw instant. -/
def State.linkStart (s : State) (k : LinkId) (raw : DWord) (from_ : Option LinkId) (f : RlFrame) : State :=
  let l := s.link k
  let t := s.rlTxStamp k raw
  let g := stampFrame f t
  let s := s.setLink k { l with
    queue := dropFirst (fun e => e == (from_, f)) l.queue, syncSent := if g.kind = kSync then some (g.seqNo, t) else l.syncSent }
  ((s.takeWire k g (after raw (rlDuration l g)) false).emitRidge k g).dropFrom from_ f

/-- LINK_TX_START (R351). -/
def execLinkTxStart (k : LinkId) (raw : DWord) (s : State) : Result :=
  let s := s.advance raw
  let busy := match (s.link k).wire with
    | some (_, e) => decide (raw < e)
    | none => false
  if !rlReceives (s.link k) || busy then .next s
  else
    let s := s.endWire k false
    match readyFrame (s.link k) with
    | none => finish s
    | some (from_, f) => finish (s.linkStart k raw from_ f)

/-! ### Fabric time (R379, R380) -/

/-- TIME_SYNC_TIMER: 1 ms after the last TIME_SYNC, less the 10 µs that the period may be short (R379). -/
def execTimeSyncTimer (k : LinkId) (s : State) : Result :=
  let l := s.link k
  if !s.linkUp k then .next s
  else
    let s := s.waitFrom l.syncAt (us 990)
    let q := l.syncSeq + 1
    finish ((s.setLink k { s.link k with syncSeq := q, syncAt := s.raw }).sendLocal k kSync cTime q s.fabTtl (List.replicate 8 0))

/-- The corrected receive stamp of a link (R285). -/
def State.rlStamp (s : State) (k : LinkId) (raw : DWord) : DWord := s.timeAt (raw - BitVec.ofNat 64 (388 + k.val))

/-- TIME_REPLY payload; t3 is inserted at its start (R379). -/
def State.replyPayload (s : State) (t2 : DWord) (q : Half) : List Byte :=
  beBytes 8 t2.toNat ++ List.replicate 8 0 ++ beBytes 2 q.toNat ++ [s.fab.hops, s.fab.master] ++ beBytes 1 (syncCode s.tmu.servo) ++ List.replicate 3 0

/-- TIME_SYNC: the receiving end answers. -/
def execTimeSync (k : LinkId) (a : RlArrival) (raw : DWord) (s : State) : Result :=
  let f := a.frame
  if f.kind ≠ kSync then .next s
  else
    let s := s.advance raw
    s.rlTake k a (fun s => if !s.linkUp k then s.rlDone k f else (s.rlDone k f).sendLocal k kReply cTime f.seqNo s.fabTtl (s.replyPayload (s.rlStamp k raw) f.seqNo))

/-- d and e of R380 from t1 to t4 and ASYM. -/
def replyDelay (t1 t2 t3 t4 : DWord) (asym : Word) : Int := ((t4 - t1).toInt - (t3 - t2).toInt - asym.toInt) / 2
def replyOffset (t3 t4 : DWord) (d : Int) : DWord := t3 + BitVec.ofInt 64 d - t4

/-- The answer to the last TIME_SYNC: RLk_DLY, and on the upstream link a sample for the servo (R380). -/
def State.replyOp (s : State) (k : LinkId) (p : List Byte) (raw : DWord) : State :=
  let l := s.link k
  match l.syncSent with
  | none => s
  | some (q, t1) =>
    let t4 := s.rlStamp k raw
    if ofBe (slice p 16 2) ≠ q.toNat ∨ us 100 < (t4 - t1).toNat then s
    else
      let t2 : DWord := BitVec.ofNat 64 (ofBe (slice p 0 8))
      let t3 : DWord := BitVec.ofNat 64 (ofBe (slice p 8 8))
      let d := replyDelay t1 t2 t3 t4 (BitVec.ofNat 32 (s.rf (.rl k .asym) 0 32))
      let s := s.setLink k { l with delay := BitVec.ofInt 32 d, syncSent := none }
      if s.fab.upstream = k.val then s.offerSample 6 t4 (replyOffset t3 t4 d) (some (raw - BitVec.ofNat 64 (388 + k.val))) else s

/-- TIME_REPLY. -/
def execTimeReply (k : LinkId) (a : RlArrival) (raw : DWord) (s : State) : Result :=
  let f := a.frame
  if f.kind ≠ kReply then .next s
  else
    let s := s.advance raw
    s.rlTake k a (fun s => if !s.linkUp k then s.rlDone k f else (s.rlDone k f).replyOp k f.payload raw)

end Sys2Proof.Machine
end

