-- ==== Sys2Proof/Machine/Engines.lean ====
section
/-! DEFINITION. Spur engines, takeover, swap, gateway cores and duties, gateway rules (R387 to R419). -/
namespace Sys2Proof.Machine

/-- DOMAIN of the device's own records (R445). -/
def devCode : BitVec 5 := 0x10

def State.engine (s : State) (e : EngId) : Engine := s.spur.engines[e]
def State.setEngine (s : State) (e : EngId) (x : Engine) : State := { s with spur := { s.spur with engines := s.spur.engines.set e x } }
/-- The crossbar attaches a port to an engine, or to none; the engine's windows follow (R387, R388). -/
def State.attach (s : State) (p : PortId) (e : Option EngId) : State :=
  let s := match s.spur.attached[p] with
    | some o => s.setEngine o { s.engine o with windows := none }
    | none => s
  let s := { s with spur := { s.spur with attached := s.spur.attached.set p e } }
  match e with
  | some o => s.setEngine o { s.engine o with windows := some (p, s.portOwner p) }
  | none => s

/-- The window set of a port's engine as the port passes to another domain (R388). -/
def State.newWindows (s : State) (p : PortId) : State := s.attach p s.spur.attached[p]

/-- What an engine reaches: its memories and leaf, and by the window set in force the front end and reserve slots of its port and the Tarn units of
the port's domain (R34, R388). -/
def State.engineReaches (s : State) (e : EngId) (x : Reach) : Bool :=
  match x, (s.engine e).windows with
  | .memory, _ => true
  | .leaf o, _ => o == e
  | .frontEnd q, some (p, _) | .slots q, some (p, _) => q == p
  | .tarn u, some (_, d) => (s.units[d]).contains u
  | _, _ => false

/-- What a gateway core reaches (R34). -/
def coreReaches : Reach → Bool
  | .memory | .gateway | .routeLinks | .gwRules | .servo => true
  | _ => false

/-- A fault cause that can arise: a window is broken by an access outside what the agent reaches (R34). -/
def breaks (reaches : Reach → Bool) : FaultCause → Bool
  | .window _ x => !reaches x
  | _ => true

/-- Byte of an engine's data memory (R387, R389). -/
def State.engineData (s : State) (e : EngId) (i : Nat) : Byte :=
  match (s.engine e).data with
  | some t => Config.engineByte e.val t.toNat i
  | none => 0
def State.seEvt (s : State) (i : Nat) : State := s.raise (.dev .seevt) i
def engIds : List EngId := List.finRange 34

/-- Code of a fault cause (DEV_SEe_FAULT.CAUSE). -/
def causeCode : FaultCause → BitVec 4
  | .watchdog => 1
  | .window _ _ => 2
  | .memory => 3
  | .halt => 4

/-- A WINDOW record of an agent (R34). -/
def State.windowRecord (s : State) (agent : Nat) : FaultCause → State
  | .window a _ => s.record devCode 4 false 0x0A 0x03 (BitVec.ofNat 32 agent) a
  | _ => s

/-! ### The choice of a spare (R401, R403) -/

/-- Engines in STANDBY. -/
def State.standby (s : State) : List EngId := engIds.filter (fun e => decide ((s.engine e).state = .standby))

/-- The STANDBY engine for a store entry, and whether it holds the entry (R401). -/
def State.pickSpare (s : State) (i : Fin 4) : Option (EngId × Bool) :=
  match s.standby.find? (fun e => (s.engine e).held && (s.engine e).image == i) with
  | some e => some (e, true)
  | none => s.standby.head?.map (fun e => (e, false))

/-- An engine starts to load a store entry (R390, R393). -/
def State.startLoad (s : State) (e : EngId) (i : Fin 4) (why : LoadFor) : State :=
  s.setEngine e { s.engine e with state := .loading, image := i, loading := some why, held := false }

/-- A chosen engine is attached to its port, or loads the entry first (R393). -/
def State.choose (s : State) (p : PortId) (i : Fin 4) (e : EngId) (holds swap : Bool) : State :=
  if holds then s.setEngine e { s.engine e with state := .active, port := p, data := some s.raw }
  else s.startLoad e i (if swap then .swap p else .takeover p)

/-- The takeover of a port begins, or waits for an engine to enter STANDBY (R401, R403). -/
def State.takeover (s : State) (p : PortId) : State :=
  match s.pickSpare s.spur.portImage[p] with
  | none => { s with spur := { s.spur with orphans := s.spur.orphans ++ [p] } }.seEvt 1
  | some (e, holds) =>
    let s := s.choose p s.spur.portImage[p] e holds false
    if holds then { s with spur := { s.spur with takeovers := s.spur.takeovers ++ [(p, e)] } } else s

/-- An engine enters STANDBY with its data memory zeroed; the oldest takeover that waits begins (R389, R403). -/
def State.enterStandby (s : State) (e : EngId) : State :=
  let s := s.setEngine e { s.engine e with state := .standby, port := 0, loading := none, data := none }
  match s.spur.orphans with
  | p :: rest => { s with spur := { s.spur with orphans := rest } }.takeover p
  | [] => s

/-! ### Loss of an engine (R394 to R398, R402 to R407) -/

/-- FV of a sealed attempt that is destroyed counts as used (R206, R398). -/
def State.useFv (s : State) (p : PortId) (a : Attempt) (c : Cand) : State :=
  match c.sealWith with
  | none => s
  | some h => match s.key h.toNat with
    | some k => if a.trailed || k.dom ≠ c.op.dom then s
      else (s.setKey h.toNat (some { k with ctr := k.ctr + 1 })).setPort p { s.port p with onWire := some { a with trailed := true } }
    | none => s

/-- FPn_TXD of the port is recessive until the frame on the wire has ended in an error frame (R397). -/
def State.cutOutput (s : State) (p : PortId) : State :=
  s.setPort p { s.port p with onWire := (s.port p).onWire.map (fun a => { a with destroyed := true }) }

/-- The uncommitted attempt on the wire of a lost engine is destroyed (R397, R398); a reference frame goes on (R404). -/
def State.destroyAttempt (s : State) (p : PortId) : State :=
  match (s.port p).onWire with
  | none => s
  | some a =>
    if a.committed then s
    else match a.what with
      | .cand i => match candAt (s.port p) i with
        | some c =>
          let s := s.useFv p a c
          let x := s.port p
          (s.setPort p { x with cands := x.cands.map (fun e => if e.slot = i then { e with destroyed := true, ending := some 4 } else e) }).cutOutput p
        | none => s
      | .reference => s
      | w => (s.setPort p { s.port p with ft := fieldAbandon (s.port p).ft w a.frame }).cutOutput p

/-- The port enters ISOLATED, PRIOR the state it was in; a hold keeps its return state and its remaining time (R125, R402). -/
def State.isolatePort (s : State) (p : PortId) : State :=
  let x := s.port p
  if halted x.state || x.state == .busoff || x.state == .isolated then s
  else
    let kept : Option Word := if x.state = .hold then (match x.holdEnd with
      | some due => some (BitVec.ofNat 32 (s.usLeft due))
      | none => some 0xFFFFFFFF) else none
    s.showPort p { x with state := .isolated, prior := x.state, holdReturn := if x.state = .hold then x.prior else .off, holdKept := kept, holdEnd := none }

/-- A swap ends with a RESULT (DEV_SWAP); its engine goes back to STANDBY unless it is named the new engine of the port. -/
def State.endSwap (s : State) (result : Byte) : State :=
  { s with spur := { s.spur with swap := none, swapResult := result } }.seEvt 2

/-- The swap's chosen engine is free again. -/
def State.releaseSwap (s : State) : State :=
  match s.spur.swap with
  | some w => match w.engine with
    | some e => if (s.engine e).state = .active then s.enterStandby e else s
    | none => s
  | none => s

/-- The swap chooses its engine (R405), or chooses again after a fault of one that was loading (R393). -/
def State.swapChoose (s : State) (p : PortId) (i : Fin 4) : State :=
  match s.pickSpare i with
  | none => s.endSwap 0x03
  | some (e, holds) =>
    let s := s.choose p i e holds true
    { s with spur := { s.spur with swap := some { port := p, image := i, engine := some e, at_ := s.raw } } }

/-- FAULTED, with the cause, the count and the event (R393). -/
def State.faultEngine (s : State) (e : EngId) (cause : BitVec 4) : State :=
  let x := s.engine e
  (s.setEngine e { x with state := .faulted, cause := cause, count := if x.count = 0xFF then 0xFF else x.count + 1, loading := none }).seEvt 0

/-- The engine of a port is lost: detached, the attempt destroyed, ISOLATED, and the takeover begins (R394, R397, R401). -/
def State.losePort (s : State) (p : PortId) : State :=
  let s := s.destroyAttempt p
  ((s.attach p none).isolatePort p).takeover p

/-- ENGINE_LOSS on an engine in one of the states of R393. -/
def State.engineLost (s : State) (e : EngId) (cause : FaultCause) : State :=
  let x := s.engine e
  let s := s.faultEngine e (causeCode cause)
  let s := s.windowRecord e.val cause
  let inSwap := match s.spur.swap with
    | some w => some w.port
    | none => none
  match x.state, x.loading with
  | .loading, some (.takeover p) => s.takeover p
  | .loading, some (.swap p) => match s.spur.swap with
    | some w => if w.engine = some e then s.swapChoose p w.image else s
    | none => s
  | .loading, some _ => { s with spur := { s.spur with cmdUnit := none, cmdResult := 0x02 } }.seEvt 2
  | .active, _ =>
    let p := x.port
    let s := s.record devCode 4 false 0x0A 0x01 (BitVec.ofNat 32 e.val) (BitVec.ofNat 32 (p.val + 256 * (causeCode cause).toNat))
    if s.spur.takeovers.any (fun t => t.2 == e) then
      ({ s with spur := { s.spur with takeovers := s.spur.takeovers.filter (fun t => t.2 != e) } }.attach p none).takeover p
    else if s.spur.attached[p] = some e then
      let s := if inSwap = some p then s.releaseSwap.endSwap 0x04 else s
      s.losePort p
    else if inSwap = some p then s.endSwap 0x04
    else s
  | _, _ => s

/-- ENGINE_LOSS; an access within the windows is no loss (R34, R394). -/
def execEngineLoss (e : EngId) (cause : FaultCause) (s : State) : Result :=
  match (s.engine e).state with
  | .faulted | .testing => .next s
  | _ => if breaks (s.engineReaches e) cause then finish (s.engineLost e cause) else .next s

/-- An engine command ends with a RESULT (DEV_SECMD). -/
def State.endCmd (s : State) (result : Byte) : State := { s with spur := { s.spur with cmdUnit := none, cmdResult := result } }.seEvt 2

/-- ENGINE_LOAD_DONE: the copy is that of the entry as it stands, with its GEN (R390, R393); a port that a swap has meanwhile served needs no
takeover. -/
def execEngineLoadDone (e : EngId) (s : State) : Result :=
  let x := s.engine e
  match x.state, x.loading with
  | .loading, some why =>
    let img := s.spur.images[x.image]
    let x := { x.load img with loading := none }
    match why with
    | .takeover p =>
      if (s.spur.attached[p]).isSome || s.spur.takeovers.any (fun t => t.1 == p) then finish ((s.setEngine e x).enterStandby e)
      else
        let s := s.setEngine e { x with state := .active, port := p, data := some s.raw }
        finish { s with spur := { s.spur with takeovers := s.spur.takeovers ++ [(p, e)] } }
    | .swap p =>
      let wanted := match s.spur.swap with
        | some w => w.engine == some e
        | none => false
      if wanted then finish (s.setEngine e { x with state := .active, port := p, data := some s.raw }) else finish ((s.setEngine e x).enterStandby e)
    | .reload | .retest => finish (((s.setEngine e x).enterStandby e).endCmd 0x00)
  | _, _ => .next s

/-! ### Takeover (R398 to R401) -/

/-- An entry of the last-committed record whose candidate still waits is settled (R399). -/
def State.settleRecord (s : State) (p : PortId) (r : Committed) : State :=
  if r.settled then s
  else match (s.port p).cands.find? (fun c => c.order == r.order) with
    | some c => s.settleAttempt p c r.result r.sof
    | none => s

/-- An attempt that was destroyed and still stands on the wire is counted and leaves the candidate (R398). -/
def State.countDestroyed (s : State) (p : PortId) : State :=
  let x := s.port p
  match onWireSlot x with
  | none => s
  | some i => match candAt x i with
    | some c =>
      if !c.destroyed then s
      else
      let s := if c.attempts = 0 then s else s.countPort p 0x88
      let x := s.port p
      s.setPort p { x with
        cands := x.cands.map (fun e => if e.slot = i then { c with attempts := c.attempts + 1, errors := c.errors + 1, lastErr := x.lastErr } else e), onWire := none }
    | none => s

/-- ISOLATED ends in PRIOR; a kept hold goes on for what was left of it (R125, R401). -/
def State.returnPort (s : State) (p : PortId) : State :=
  let x := s.port p
  if x.state ≠ .isolated then s
  else if s.underTest p then s.showPort p { x with state := .hold, prior := x.holdReturn, holdReturn := .off, holdKept := none, holdEnd := none }
  else if x.prior = .hold then
    s.showPort p { x with state := .hold, prior := x.holdReturn, holdReturn := .off, holdKept := none, holdPending := none,
                          holdEnd := (x.holdPending <|> x.holdKept).bind s.holdDue }
  else (s.showPort p { x with state := x.prior, prior := .off, holdReturn := .off, holdKept := none }).holdArrives p

/-- The kept frames are evaluated in their order of reception (R400). -/
def State.passFifo (s : State) (p : PortId) : State :=
  let x := s.port p
  x.fifo.foldl (fun s f => s.stageFrame p f) (s.setPort p { x with fifo := [] })

/-- TAKEOVER_DONE (R398 to R401); the endings of other candidates are settled at the next whole microsecond (R224). -/
def execTakeoverDone (p : PortId) (s : State) : Result :=
  match s.spur.takeovers.find? (fun t => t.1 == p) with
  | none => .next s
  | some (_, e) =>
    let s := { s with spur := { s.spur with takeovers := s.spur.takeovers.filter (fun t => t.1 != p) } }
    let s := s.attach p (some e)
    let s := (s.port p).record.reverse.foldl (fun s r => s.settleRecord p r) s
    let s := s.setPort p { s.port p with record := (s.port p).record.map (fun r => { r with settled := true }) }
    finish (((s.countDestroyed p).returnPort p).passFifo p)

/-! ### DEV_SWAP (R405 to R407) -/

/-- A write of DEV_SWAP: PORT and IMAGE, and GO; while BUSY it is refused, with one record (R15, R407). -/
def State.writeSwap (s : State) (d : Dom) (v : Word) : State :=
  let (w, refused) := s.fieldWrite d (.dev .swap) mask32 (v.setWidth 64) (fun _ => false)
  let busy := v.getLsbD 15 && s.spur.swap.isSome
  let s := s.setReg (.dev .swap) w
  let s := if refused || busy then s.refuse d (.dev .swap) mask32 (v.setWidth 64) else s
  if !v.getLsbD 15 || busy then s
  else
    let p : PortId := fin 32 (s.rf (.dev .swap) 0 5)
    let i : Fin 4 := fin 4 (s.rf (.dev .swap) 8 2)
    if !(s.spur.images[i]).valid then s.endSwap 0x01 else s.swapChoose p i

/-- DEV_SWAP. -/
def execDevSwap (d : Dom) (v : Word) (s : State) : Result := s.ownedWrite d 0 (Reg.dev .swap).off v (fun s => s.writeSwap d v)

/-- The port is at a quiet point: its bus is idle, no attempt is on the wire and no arm is outstanding; at once where it takes no part (R405). -/
def State.quiet (s : State) (p : PortId) : Bool :=
  let x := s.port p
  halted x.state || x.state == .busoff || x.state == .isolated || (x.busIdle && x.onWire.isNone && (s.arm p).isNone)

/-- A port without an engine that a swap serves is taken over by the swap's engine, in place of the spare chosen for it, which is free again
(R403, R405; DEDUCED, log 69). -/
def State.swapTakes (s : State) (p : PortId) (new : EngId) : State :=
  let freed := (s.spur.takeovers.filter (fun t => t.1 == p)).map (·.2)
  let s := { s with spur := { s.spur with
    orphans := s.spur.orphans.filter (fun q => q != p), takeovers := s.spur.takeovers.filter (fun t => t.1 != p) ++ [(p, new)] } }
  freed.foldl (fun s e => s.enterStandby e) s

/-- The attachment of a swap at the quiet point; then a forced engine test that waited for it starts (R405, R469). -/
def State.swapNow (s : State) (w : Swap) (new : EngId) (old : Option EngId) : State :=
  let s := s.attach w.port (some new)
  let s := { s with spur := { s.spur with portImage := s.spur.portImage.set w.port w.image } }
  let s := s.endSwap 0x00
  match old with
  | some e => s.enterStandby e
  | none => s.swapTakes w.port new

/-- The engine of a swap that may be attached now, and the old one where the port has one. -/
def State.swapReady (s : State) : Option (Swap × EngId × Option EngId) :=
  s.spur.swap.bind (fun w => w.engine.bind (fun e =>
    if (s.engine e).state = .active && s.quiet w.port then some (w, e, s.spur.attached[w.port]) else none))

/-- A self-test of an engine that a swap has freed begins (R469). -/
def State.engineTestAfterSwap (s : State) : State :=
  match s.cairn.test with
  | some t =>
    if !t.started && t.kind == 1 && t.force then
      match nth? 34 t.index with
      | some e => if (s.engine e).state = .standby then
          { s.setEngine e { s.engine e with state := .testing } with cairn := { s.cairn with test := some { t with started := true } } }
        else s
      | none => s
    else s
  | none => s

/-- SWAP_QUIET_POINT. -/
def execSwapQuietPoint (s : State) : Result :=
  match s.swapReady with
  | some (w, e, old) => finish ((s.swapNow w e old).engineTestAfterSwap)
  | none => .next s

/-- SWAP_TIMEOUT: no quiet point within 1 s (R407). -/
def execSwapTimeout (s : State) : Result :=
  match s.spur.swap with
  | some w => finish ((s.waitFrom w.at_ (sec 1)).releaseSwap.endSwap 0x02)
  | none => .next s

/-! ### Gateway cores and duties (R408 to R412) -/

def State.setCore (s : State) (c : CoreId) (x : Core) : State := { s with spur := { s.spur with cores := s.spur.cores.set c x } }
def State.setDuty (s : State) (u : Fin 4) (x : DutySt) : State := { s with spur := { s.spur with duties := s.spur.duties.set u x } }
def dutyIx : Duty → Fin 4
  | .routing => 0
  | .rules => 1
  | .time => 2
  | .traverse => 3

/-- The traverse duty leaves its core: a cold-start attempt of the device is dropped at that moment (R249). -/
def State.dropColdStart (s : State) : State :=
  grpIds.foldl (fun s k =>
    let g := s.group k
    if gPhase g == .coldstart then s.setGroup k { g with role := .none_, refSend := none } else s) s

/-- It runs again: the device listens afresh (R249). -/
def State.listenAgain (s : State) : State :=
  grpIds.foldl (fun s k =>
    let g := s.group k
    if gPhase g == .coldstart && g.role == .none_ then s.setGroup k { g with role := s.coldRole k, listenAt := s.raw } else s) s

/-- Each duty of a core starts to move (R409); with no RUNNING core no duty runs (R411). -/
def State.moveDuties (s : State) (c : CoreId) (forHalt : Bool) : State :=
  dutyIds.foldl (fun s u =>
    let x := s.spur.duties[u]
    if x.core = some c ∨ x.moving = some c then
      let s := s.setDuty u { core := none, moving := none, forHalt := false }
      let s := if u = 3 then s.dropColdStart else s
      match s.moveTarget with
      | some t => s.setDuty u { core := none, moving := some t, forHalt := forHalt || x.forHalt }
      | none => s
    else s) s

/-- A core that runs takes its home duties back, and those that run nowhere (R411). -/
def State.takeHome (s : State) (c : CoreId) : State :=
  dutyIds.foldl (fun s u =>
    let x := s.spur.duties[u]
    if (u = c ∧ x.core ≠ some c) ∨ (x.core.isNone ∧ x.moving.isNone) then s.setDuty u { core := none, moving := some c, forHalt := x.forHalt } else s) s

/-- A core enters RUNNING; sources of its fallback come back (R412, R431). -/
def State.coreRuns (s : State) (c : CoreId) : State :=
  let s := s.setCore c { s.core c with state := .running, wantsFw := false, runAt := s.raw }
  let s := { s with evc := { s.evc with fallback := s.evc.fallback.filter (fun f => decide (f.1 ≠ c)) } }
  s.takeHome c

/-- A HALT whose moves have all ended completes (R412). -/
def State.haltDone (s : State) : State :=
  match s.spur.cmdUnit with
  | some u =>
    if 0x38 ≤ u && decide ((s.core (fin 4 (u - 0x38))).state = .halted) && dutyIds.all (fun i => !(s.spur.duties[i]).forHalt) then s.endCmd 0x00 else s
  | none => s

/-- A RUNNING core faults (R409). -/
def State.coreLost (s : State) (c : CoreId) (cause : FaultCause) : State :=
  let x := s.core c
  if x.state ≠ .running then s
  else
    let code := causeCode cause
    let s := (s.setCore c { x with state := .faulted, cause := code }).spoil 2
    let s := (s.seEvt 3).record devCode 4 false 0x0A 0x02 (BitVec.ofNat 32 c.val) (BitVec.ofNat 32 code.toNat)
    ((s.windowRecord (0x38 + c.val) cause).moveDuties c false).haltDone

/-- CORE_FAULT; an access to what the core reaches is none (R34). -/
def execCoreFault (c : CoreId) (cause : FaultCause) (s : State) : Result :=
  if (s.core c).state ≠ .running ∨ !breaks coreReaches cause then .next s else finish (s.coreLost c cause)

/-- What a duty does as its move ends (R249, R294, R358, R381, R410). -/
def State.dutyStarts (s : State) (u : Duty) : State :=
  match u with
  | .routing => s.fabTopo.allocator
  | .traverse => s.listenAgain
  | .time => if s.rb (.tmu .servo) 6 then s.firmwareTakes else s
  | .rules => s

/-- DUTY_MOVE_DONE. -/
def execDutyMoveDone (u : Duty) (s : State) : Result :=
  let i := dutyIx u
  match (s.spur.duties[i]).moving with
  | some c =>
    let s := (s.setDuty i { core := some c, moving := none, forHalt := false }).seEvt 4
    finish ((s.dutyStarts u).haltDone)
  | none => .next s

/-! ### DEV_SECMD (R393, R412) -/

/-- Entry that RELOAD and RETEST load into an engine (DEV_SPARECFG). -/
def State.spareEntry (s : State) (e : EngId) : Fin 4 :=
  let low := s.standby.all (fun o => o == e || decide (e < o))
  fin 4 (s.rf (.dev .sparecfg) (if low then 0 else 2) 2)

/-- A command accepted: BUSY until RESULT is valid. -/
def State.cmdBusy (s : State) (u : Nat) : State := { s with spur := { s.spur with cmdUnit := some u } }

/-- The command on an engine, or on a core. -/
def State.engineCmd (s : State) (e : EngId) (cmd : Nat) : State :=
  let x := s.engine e
  if cmd = 1 ∧ x.state = .faulted then (s.setEngine e { x with state := .testing }).cmdBusy e.val
  else if cmd = 2 ∧ x.state = .standby then (s.startLoad e (s.spareEntry e) .reload).cmdBusy e.val
  else s.endCmd 0x01

def State.coreCmd (s : State) (c : CoreId) (cmd : Nat) : State :=
  let x := s.core c
  if cmd = 1 ∧ (x.state = .faulted ∨ x.state = .halted) then (s.setCore c { x with state := .testing, wantsFw := false }).cmdBusy (0x38 + c.val)
  else if cmd = 3 ∧ x.state = .running then
    (((s.setCore c { x with state := .halted }).cmdBusy (0x38 + c.val)).moveDuties c true).haltDone
  else s.endCmd 0x01

/-- A write of DEV_SECMD; while BUSY it is refused (R15). -/
def State.writeSecmd (s : State) (d : Dom) (v : Word) : State :=
  let cmd := v.toNat / 256 % 4
  let busy := s.spur.cmdUnit.isSome
  if busy && cmd != 0 then s.refuse d (.dev .secmd) mask32 (v.setWidth 64)
  else
    let s := s.writeFields d (.dev .secmd) mask32 (v.setWidth 64) (fun _ => false)
    let u := s.rf (.dev .secmd) 0 6
    if cmd = 0 then s
    else match nth? 34 u, (if 0x38 ≤ u then nth? 4 (u - 0x38) else none) with
      | some e, _ => s.engineCmd e cmd
      | none, some c => s.coreCmd c cmd
      | none, none => s.endCmd 0x01

def State.secmdRequest (s : State) (d : Dom) (v : Word) : Result := s.ownedWrite d 0 (Reg.dev .secmd).off v (fun s => s.writeSecmd d v)
def execRetest (d : Dom) (v : Word) (s : State) : Result := s.secmdRequest d v
def execReload (d : Dom) (v : Word) (s : State) : Result := s.secmdRequest d v
def execHalt (d : Dom) (v : Word) (s : State) : Result := s.secmdRequest d v

/-- The unit of the command in progress. -/
def State.cmdIs (s : State) (u : Nat) : Bool := s.spur.cmdUnit == some u

/-- ENGINE_TEST_END: the test of RETEST (R393). -/
def execEngineTestEnd (e : EngId) (pass : Bool) (s : State) : Result :=
  let x := s.engine e
  if x.state ≠ .testing ∨ !s.cmdIs e.val then .next s
  else if pass then finish (s.startLoad e (s.spareEntry e) .retest)
  else finish ((s.faultEngine e 5).endCmd 0x02)

/-- The gateway firmware is present (R488). -/
def State.gatewayFw (s : State) : Bool := !s.dev.absent.getLsbD 1

/-- CORE_TEST_END (R412). -/
def execCoreTestEnd (c : CoreId) (pass : Bool) (s : State) : Result :=
  let x := s.core c
  if x.state ≠ .testing then .next s
  else if !pass then finish (((s.setCore c { x with state := .faulted, cause := 5 }).seEvt 3).endCmd 0x02)
  else if s.gatewayFw then finish ((s.coreRuns c).endCmd 0x00)
  else finish ((s.setCore c { x with state := .halted, wantsFw := true }).endCmd 0x00)

/-! ### Gateway rules (R413 to R419) -/

def gwNumber (x : Desc) : Nat := dnum x 4 2
def gwOp (x : Desc) : Nat := dnum x 6 1
def gwDescBad (x : Desc) : Bool := !reservedZero x [(4, 0, 16), (6, 0, 8), fAddr] || decide (511 < gwNumber x) || decide (2 < gwOp x)
/-- Reserved bits of the 32 bytes, and STRIP 11b (R413, R414). -/
def gwRuleBad (b : List Byte) : Bool := decide (32 ≤ leAt b 0 1) || decide (leAt b 0 1 / 8 % 4 = 3) || leAt b 10 22 != 0

/-- A rule within one domain needs that domain's GATEWAY, and a tenant's rule names only route entries of its own: one that joins resources
of two domains is D0's alone (R38, R414, log 56). -/
def State.gwForeign (s : State) (d : Dom) (r : Rule) : Bool :=
  (gwInDom r == gwOutDom r && !(s.entry (fin 16 (gwInDom r))).gateway)
    || (decide (d ≠ 0) && (gwInDom r != d.val || gwOutDom r != d.val || (gwInRoute r && (decide (256 ≤ gwIn r) || s.routeOwner (gwIn r) != d.val))
          || (gwOutRoute r && (decide (256 ≤ gwOut r) || s.routeOwner (gwOut r) != d.val))))

/-- GW_RULE once fetched (R38, R414). -/
def State.gwRuleOp (s : State) (x : Desc) (bytes : List Byte) (o : Op) : State :=
  let i : Fin 512 := fin 512 (gwNumber x)
  let d := o.dom
  let foreign := match s.rule i with
    | some r => r.owner != d
    | none => false
  if gwDescBad x then s.complete o 0x32
  else if !(s.entry d).gateway || foreign then s.complete o 0x31
  else if gwOp x = 2 then
    if (s.rule i).isNone then s.complete o 0x33
    else ({ s.setRule i none with spur := { (s.setRule i none).spur with inputs := s.spur.inputs.filter (fun e => e.1 != i) } }).complete o 0x00
  else if !s.inWindow d (daddr x).toNat 32 true false then s.complete o 0x30
  else if gwRuleBad bytes then s.complete o 0x32
  else
    let r : Rule := { body := BitVec.ofNat 192 (leAt bytes 0 24), owner := d }
    if s.gwForeign d r then s.complete o 0x31
    else match s.rule i with
      | none => if gwOp x = 0 then (s.setRule i (some r)).complete o 0x00 else s.complete o 0x33
      | some old => if gwOp x = 0 then s.complete o 0x33 else (s.setRule i (some { r with hits := old.hits, drops := old.drops })).complete o 0x00

/-- GW_RULE. -/
def execGwRule (d : Dom) (n : RingNo) (x : Desc) (rule : List Byte) (s : State) : Result :=
  if !s.ringOn d n 2 then .next s
  else if !gwDescBad x && gwOp x != 2 && rule.length != 32 then .fault .dataLength
  else finish (s.command d n x (fun s op => s.gwRuleOp x rule op))

/-- Payload that a rule passes on: trailer stripped from a sealed input, cut to LEN (R413). -/
def gwPayload (r : Rule) (x : GwIn) : List Byte :=
  let p := x.bytes.drop 16
  let cut := if !x.isSealed then 0 else if gwStrip r = 1 then 8 else if gwStrip r = 2 then 12 else 0
  let p := p.take (p.length - cut)
  if gwLen r = 0 then p else p.take (gwLen r)

/-- An output made. -/
def State.gwHit (s : State) (i : Fin 512) : State :=
  match s.rule i with
  | some r => s.setRule i (some { r with hits := r.hits + 1, lastOut := some s.raw })
  | none => s

/-- An input goes to the rule's output, or is counted in DROPS; an output that its domain has no right to use is not valid (R21, R23, R416). -/
def State.gwPass (s : State) (i : Fin 512) (r : Rule) (x : GwIn) : State :=
  let p := gwPayload r x
  if !s.gwOutOk r then s.ruleDrop i
  else if gwOutRoute r then
    let e := gwOut r
    if !(s.route e).valid then s.ruleDrop i
    else (s.gwHit i).routeOut e (slice x.bytes 0 11 ++ [(x.bytes.getD 11 0) &&& 0xFC] ++ slice x.bytes 12 4 ++ p) x.stamp
  else
    let d : Dom := fin 16 (gwOutDom r)
    let o := gwOut r
    let ob := s.obj d o
    if 8192 ≤ o ∨ !objValid ob ∨ !objIsSend ob ∨ !s.objLenOk d ob.cfg p.length ∨ (!ob.pending ∧ s.sendBad d ob p.length) then s.ruleDrop i
    else
      let s := (s.gwHit i).writeSend d o p
      if ob.pending then s else s.requestSend d o { dom := d, num := 0, tag := 0 } false true

/-- MIN_GAP has run since the rule's last output (R417). -/
def State.gwGapOver (s : State) (r : Rule) : Bool :=
  match r.lastOut with
  | some t => decide (t.toNat + us (gwGap r) ≤ s.raw.toNat)
  | none => true

/-- A held input that another replaces is counted in DROPS. -/
def State.gwReplace (s : State) (i : Fin 512) (x : Option GwIn) : State :=
  match s.rule i with
  | some r => s.setRule i (some { r with held := x, drops := if r.held.isSome then r.drops + 1 else r.drops })
  | none => s

/-- One input (R410, R416, R417). -/
def State.gwTake (s : State) (i : Fin 512) (x : GwIn) : State :=
  match s.rule i with
  | none => s
  | some r =>
    if !gwValid r then s.ruleDrop i
    else if s.gwGapOver r then (s.gwReplace i none).gwPass i r x
    else s.gwReplace i (some x)

/-- GW_INPUT: the rule duty takes the oldest input (R416). -/
def execGwInput (s : State) : Result :=
  match s.spur.inputs with
  | [] => .next s
  | (i, x) :: rest =>
    if !s.dutyRuns 1 then .next s
    else finish ({ s with spur := { s.spur with inputs := rest } }.gwTake i x)

/-- GW_GAP_END: the held input is passed on as the gap ends (R417). -/
def execGwGapEnd (i : Fin 512) (s : State) : Result :=
  match s.rule i with
  | none => .next s
  | some r =>
    match r.held, (s.spur.duties[(1 : Fin 4)]).core with
    | some x, some _ =>
      let s := match r.lastOut with
        | some t => s.advance (after t (us (gwGap r)))
        | none => s
      finish ((s.setRule i (some { r with held := none })).gwPass i r x)
    | _, _ => .next s

/-- GW_CMD.READ: RESULT and GW_DATA (R419). -/
def State.gwReadOp (s : State) (d : Dom) : State :=
  let f := s.func d
  match s.rule (fin 512 (s.rf (.fn d .gwSel) 0 9)) with
  | none => s.setFunc d { f with gwRes := 2 }
  | some r =>
    if r.owner = d ∨ gwInDom r = d.val ∨ gwOutDom r = d.val then
      let all := r.body.toNat + r.hits.toNat * 2 ^ 192 + r.drops.toNat * 2 ^ 224
      let s := s.setFunc d { f with gwRes := 0 }
      (List.finRange 8).foldl (fun s i => s.setReg (.fn d (.gwData i)) (BitVec.ofNat 64 (all / 2 ^ (32 * i.val) % 2 ^ 32))) s
    else s.setFunc d { f with gwRes := 1 }

/-- A write of GW_CMD: READ is 1; while BUSY it is refused (R419, R510). -/
def State.writeGwCmd (s : State) (d : Dom) (v : Word) : State :=
  if !v.getLsbD 0 then s
  else if s.gwBusy d then s.refuseWrite d FnReg.gwCmd.off v
  else (s.gwReadOp d).setFunc d { (s.gwReadOp d).func d with gwAt := some s.raw }

/-- GW_READ. -/
def execGwRead (d : Dom) (s : State) : Result := s.ownFn d .gwCmd 1 (fun s => s.writeGwCmd d 1)

end Sys2Proof.Machine
end

