-- ==== Sys2Proof/Machine/Logs.lean ====
section
/-! DEFINITION. The log: intake, rate limit, ANCHOR, full, reading, erasing (R42, R445 to R454). -/
namespace Sys2Proof.Machine

/-- A bit of CRN_EVT in D0, latched for the SMBus manager too (R458). -/
def State.crnEvent (s : State) (i : Nat) : State :=
  let s := s.raise (.fn 0 .crnEvt) i
  if i < 12 then { s with cairn := { s.cairn with smbEvt := s.cairn.smbEvt ||| BitVec.ofNat 12 (2 ^ i) } } else s

def State.setLog (s : State) (l : Log) : State := { s with log := l }
def isAnchor (r : LogRec) : Bool := r.source == 0 && r.code == 1
/-- Full time of an ANCHOR record. -/
def anchorTime (r : LogRec) : DWord := r.arg1 ++ r.arg0
def logSize : Nat := 16384

/-! ### Writing (R445, R447, R450) -/

/-- STOP_FULL is 1 and 16,384 records have been written since the last clear (R450). -/
def State.logFull (s : State) : Bool := s.rb (.crn .logcfg) 0 && decide (logSize ≤ s.log.sinceClear)

/-- LOG_FULL once for each time the log becomes full (R450). -/
def State.noteFull (s : State) : State :=
  if s.logFull && !s.log.fullSeen then (s.setLog { s.log with fullSeen := true }).crnEvent 11 else s

/-- A record takes the next sequence number, and the place of the oldest where the ring is full (R450, R453). -/
def State.putRec (s : State) (r : LogRec) : State :=
  let l := s.log
  let gone := match l.recs with
    | (_, o) :: _ => if logSize ≤ l.recs.length ∧ isAnchor o then anchorTime o else l.anchorGone
    | [] => l.anchorGone
  let recs := (if logSize ≤ l.recs.length then l.recs.drop 1 else l.recs) ++ [(l.next, r)]
  let s := s.setLog { l with recs := recs, next := (l.next + 1) % 2 ^ 32, sinceClear := l.sinceClear + 1, anchorGone := gone }
  let s := if 3 ≤ r.severity.toNat ∧ r.dom.toNat < 16 then
      (if r.dom = 0 then s.crnEvent 12 else s.raise (.fn (fin 16 r.dom.toNat) .crnEvt) 12) else s
  s.noteFull

/-- A record of the device made now. -/
def State.nowRec (s : State) (dom : BitVec 5) (sev : BitVec 3) (source code : Byte) (a0 a1 : Word) : LogRec :=
  { t := s.short s.raw, dom := dom, severity := sev, source := source, code := code, arg0 := a0, arg1 := a1 }

/-- An ANCHOR now (R447). -/
def State.writeAnchor (s : State) : State :=
  let t := s.now
  let s := s.putRec (s.nowRec devCode 1 0 1 (t.setWidth 32) ((t >>> 32).setWidth 32))
  s.setLog { s.log with anchor := some (t, s.tmu.stepCnt) }

/-- An ANCHOR is due: none in the previous 2^30 ns, or a step since the last (R447). -/
def State.anchorDue (s : State) : Bool :=
  match s.log.anchor with
  | none => true
  | some (t, n) => decide (2 ^ 34 ≤ (s.now - t).toNat) || n != s.tmu.stepCnt

/-- What comes before a record: an ANCHOR where one is due and the log has room (R447, R450). -/
def State.readyRec (s : State) : State :=
  let s := s.noteFull
  if !s.logFull && s.anchorDue then s.writeAnchor else s

/-- A record is written, after an ANCHOR where one is due; while the log is full it is counted (R447, R450). -/
def State.writeRec (s : State) (r : LogRec) : State :=
  let s := s.readyRec
  if s.logFull then s.setLog { s.log with lost := s.log.lost + 1, fullLost := s.log.fullLost + 1 } else s.putRec r

/-! ### Intake (R42, R451) -/

/-- Interval of the raw counter (R42). -/
def logInterval (raw : DWord) : Nat := raw.toNat / sec 1

/-- A record of a domain under its LOG_RATE; RATE_DROP comes before one that is written, which none is while the log is full (R42, R450). -/
def State.domainRec (s : State) (d : Dom) (raw : DWord) (r : LogRec) : State :=
  let n := (s.entry d).logRate
  let f := s.func d
  let f := if f.logInterval = logInterval raw then f else { f with logInterval := logInterval raw, logCount := 0 }
  if n ≠ 0 ∧ n ≤ f.logCount then (s.setFunc d { f with logDropped := f.logDropped + 1 }).countDev 0x10
  else
    let s := (s.setFunc d { f with logCount := f.logCount + 1 }).readyRec
    if f.logDropped = 0 || s.logFull then s.writeRec r
    else
      let s := s.putRec (s.nowRec (domCode d) 2 0 2 (BitVec.ofNat 32 f.logDropped) 0)
      (s.setFunc d { s.func d with logDropped := 0 }).writeRec r

/-- The intake queue has room: what it lost is reported (R451). -/
def State.reportLost (s : State) : State :=
  let l := s.log
  if l.owed = 0 ∨ 256 ≤ l.intake.length then s
  else s.setLog { l with owed := 0, intake := l.intake ++ [(s.raw, s.nowRec devCode 3 0 4 (BitVec.ofNat 32 l.owed) 0)] }

/-- LOG_INTAKE: the oldest record leaves the queue; the service firmware must run (R434, R451). -/
def execLogIntake (s : State) : Result :=
  match s.log.intake with
  | [] => .next s
  | (raw, r) :: rest =>
    if !s.cairn.running then .next s
    else
      let s := (s.setLog { s.log with intake := rest }).reportLost
      finish (if h : r.dom.toNat < 16 then s.domainRec ⟨r.dom.toNat, h⟩ raw r else s.writeRec r)

/-- CLEAR: every record goes; the next are an ANCHOR and a LOST record (R450). -/
def State.clearLog (s : State) : State :=
  let n := s.log.fullLost
  let s := s.setLog { s.log with recs := [], sinceClear := 0, fullLost := 0, fullSeen := false }
  let s := s.writeAnchor
  s.putRec (s.nowRec devCode 3 0 4 (BitVec.ofNat 32 n) 0)

/-- A write of CRN_LOGCFG; while the service firmware is out it is dropped with a record (R434). -/
def State.writeLogCfg (s : State) (d : Dom) (v : Word) : State :=
  if !s.cairn.running then s.refuse d (.crn .logcfg) mask32 (v.setWidth 64)
  else
    let s := s.writeFields d (.crn .logcfg) mask32 (v.setWidth 64) (fun _ => false)
    if v.getLsbD 1 then s.clearLog else s.noteFull

/-- LOG_CLEAR. -/
def execLogClear (d : Dom) (v : Word) (s : State) : Result := s.ownedWrite d 0 (Reg.crn .logcfg).off v (fun s => s.writeLogCfg d v)

/-! ### Erasing (R449) -/

/-- A record of the erasure with its count; like every record it goes by the intake queue (R451). -/
def State.erasedRec (s : State) (n : Nat) : State := s.record devCode 2 false 0 3 (BitVec.ofNat 32 n) 0

/-- Sensitive records, those on their way among them (R449). -/
def State.sensitiveRecs (s : State) : Nat :=
  (s.log.recs.filter (fun e => e.2.sensitive)).length + (s.log.intake.filter (fun e => e.2.sensitive)).length

/-- Debug unlock: the arguments of sensitive records become 0, those on their way too. -/
def State.eraseArgs (s : State) : State :=
  let z := fun r : LogRec => if r.sensitive then { r with arg0 := 0, arg1 := 0 } else r
  let n := s.sensitiveRecs
  (s.setLog { s.log with recs := s.log.recs.map (fun e => (e.1, z e.2)), intake := s.log.intake.map (fun e => (e.1, z e.2)) }).erasedRec n

/-- The ERASED record that stands in place of another. -/
def erasedAs (r : LogRec) (n : Word) : LogRec :=
  { t := r.t, dom := devCode, severity := 2, source := 0, code := 3, arg0 := n }

/-- Release, retirement, RMA entry: every sensitive record is replaced in place. -/
def State.eraseRecords (s : State) : State :=
  let z := fun r : LogRec => if r.sensitive then erasedAs r 0 else r
  let n := s.sensitiveRecs
  (s.setLog { s.log with recs := s.log.recs.map (fun e => (e.1, z e.2)), intake := s.log.intake.map (fun e => (e.1, z e.2)) }).erasedRec n

/-! ### Reading (R448, R452 to R454) -/

/-- The 16 bytes of a record (R445). -/
def recBytes (r : LogRec) : List Byte :=
  leBytes 4 (r.t.toNat / 16)
    ++ leBytes 2 (r.t.toNat % 16 + 16 * r.dom.toNat + 512 * r.severity.toNat + 4096 * b2n r.sensitive)
    ++ [r.source, r.code] ++ leBytes 4 r.arg0.toNat ++ leBytes 4 r.arg1.toNat

/-- A record as D0 reads it: the arguments of a tenant's sensitive record are 0 (R39, R448). -/
def ownerView (r : LogRec) : LogRec :=
  if r.sensitive ∧ 1 ≤ r.dom.toNat ∧ r.dom.toNat < 16 then { r with arg0 := 0, arg1 := 0 } else r

/-- What a domain sees of a record. -/
def domainView (d : Dom) (r : LogRec) : Option LogRec :=
  if d = 0 then some (ownerView r) else if r.dom = domCode d ∨ isAnchor r then some r else none

/-- What the SMBus manager sees of a record. -/
def State.smbusView (s : State) (r : LogRec) : Option LogRec :=
  if s.rb .domSmb 3 then some (ownerView r) else if s.rb .domSmb 2 && (r.dom == devCode || r.dom == 0x11) then some r else none

/-- Place of a sequence number after the oldest record; the number is 32 bits wide (R445). -/
def State.logPlace (s : State) (q : Nat) : Nat := (q + 2 ^ 32 - ((s.log.recs.head?.map (·.1)).getD s.log.next)) % 2 ^ 32

/-- A snapshot (R452, R453): its records with their numbers, and the number after the last one examined. -/
def State.snapshot (s : State) (see : LogRec → Option LogRec) (start count : Nat) : List (Nat × LogRec) × Nat :=
  let place := s.logPlace start
  let from_ := if start = 0xFFFFFFFF ∨ 2 ^ 31 ≤ place then 0 else place
  let vis := s.log.recs.filterMap (fun e => if from_ ≤ s.logPlace e.1 then (see e.2).map (fun r => (e.1, r)) else none)
  let take := vis.take count
  let after := if take.length < count then s.log.next else (take.getLast?.map (fun e => (e.1 + 1) % 2 ^ 32)).getD s.log.next
  (take, if take.isEmpty then s.log.next else after)

/-- Full time of the last ANCHOR at or before a record (R453). -/
def State.anchorBefore (s : State) (seqNo : Nat) : DWord :=
  match (s.log.recs.filter (fun e => decide (s.logPlace e.1 ≤ s.logPlace seqNo) && isAnchor e.2)).getLast? with
  | some e => anchorTime e.2
  | none => s.log.anchorGone

/-- Head record and records of a snapshot, empty where nothing is visible (R453). -/
def State.snapshotBytes (s : State) (rs : List (Nat × LogRec)) : List Byte :=
  match rs with
  | [] => []
  | (q, _) :: _ =>
    leBytes 4 q ++ leBytes 2 (16 * 0x10) ++ [0x00, 0x05] ++ leBytes 8 (s.anchorBefore q).toNat ++ rs.flatMap (fun e => recBytes e.2)

/-- LOG_READ once fetched (R452 to R454). -/
def State.logReadOp (s : State) (x : Desc) (o : Op) : State :=
  let count := dnum x 8 2
  if !reservedZero x [(4, 0, 32), (8, 0, 16), fAddr] || decide (count = 0 ∨ 1024 < count) then s.complete o 0x32
  else if !s.inWindow o.dom (daddr x).toNat ((count + 1) * 16) false true then s.complete o 0x30
  else
    let (rs, next) := s.snapshot (domainView o.dom) (dnum x 4 4) count
    (s.hostWrite o.dom (daddr x).toNat (s.snapshotBytes rs)).complete o 0x00 (BitVec.ofNat 32 next) (BitVec.ofNat 16 rs.length)

/-- LOG_READ. -/
def execLogRead (d : Dom) (n : RingNo) (x : Desc) (s : State) : Result :=
  if s.ringOn d n 2 then finish (s.command d n x (fun s op => s.logReadOp x op)) else .next s

end Sys2Proof.Machine
end

