-- ==== Sys2Proof/Machine/Trust.lean ====
section
/-! DEFINITION. Keys, ownership lifecycle, attestation, debug unlock (R43 to R52, R449). -/
namespace Sys2Proof.Machine

/-- LIFECYCLE (DOM_LIFE). -/
def lifeCode : Lifecycle → Nat
  | .unowned => 1
  | .owned => 2
  | .rma => 3
  | .retired => 4

def State.setOtp (s : State) (t : Otp) : State := { s with belay := { s.belay with otp := t } }
/-- Index of the owner slot in use: the one enrolled and not revoked. -/
def State.ownerSlot (s : State) : Nat := (s.belay.otp.slots.toList.findIdx? (fun o => o.used && !o.revoked)).getD 0
/-- SLOTS_FREE. -/
def State.slotsFree (s : State) : Nat := (s.belay.otp.slots.toList.filter (fun o => !o.used)).length
/-- The OWK exists: OWNED, and debug is locked (section Hierarchy, R51). -/
def State.hasOwk (s : State) : Bool := s.belay.otp.life == .owned && !s.belay.debugUnlocked

/-! ### Keys (R43 to R46) -/

/-- A KEY_OP record and the completion of a key command (R446). -/
def State.keyDone (s : State) (o : Op) (opcode handle : Nat) (status : Byte) : State :=
  let s := s.record (domCode o.dom) 2 true 0x05 0x01 (BitVec.ofNat 32 (opcode + 256 * handle)) (status.setWidth 32)
  s.complete o status (if status = 0 ∧ opcode ≠ 0x32 then BitVec.ofNat 32 handle else 0)

/-- Bytes of a blob of a USE (R44). -/
def blobLen (use : Nat) : Nat := if use = 2 then 48 else 32
def keyLen (use : Nat) : Nat := if use = 2 then 32 else 16

/-- Checks that KEY_GEN and KEY_LOAD share, up to the window: the status, 0 where all pass. The status while no OWK
exists is the model's (R45, R46, R51, R88; DESIGN CHOICE, log 40). -/
def State.keyCheck (s : State) (x : Desc) (o : Op) (rd : Bool) : Byte :=
  let use := dnum x 4 1
  if !reservedZero x [(4, 0, 8), fAddr] || decide (use ≠ 1 ∧ use ≠ 2) then 0x32
  else if use = 2 ∧ o.dom ≠ 0 then 0x31
  else if !s.hasOwk then 0x32
  else if !s.inWindow o.dom (daddr x).toNat (blobLen use) rd (!rd) then 0x30
  else 0

/-- The seed and index of the owner slot in use. -/
def State.ownerSeed (s : State) : BitVec 256 := ((s.belay.otp.slots.toList[s.ownerSlot]?).map (·.seed)).getD 0

/-- The wrapping key of a domain's blobs (R44). -/
def State.wrapKey (s : State) (d : Dom) : List Byte := beBytes 32 (Config.dwk s.ownerSeed s.ownerSlot d.val (s.entry d).generation).toNat

/-- KEY_GEN once fetched: the key comes from the DRBG, and its blob goes to the host (R45). -/
def State.keyGenOp (s : State) (x : Desc) (o : Op) : State :=
  let use := dnum x 4 1
  let st := s.keyCheck x o false
  if st ≠ 0 then s.keyDone o 0x30 0 st
  else match s.freeHandle o.dom with
    | none => s.keyDone o 0x30 0 0x33
    | some h =>
      let key : BitVec 256 := BitVec.ofNat 256 ((Config.drbg s.free).toNat % 2 ^ (8 * keyLen use))
      let s := s.draw.setKey h (some { dom := o.dom, sealing := use == 1, key := key })
      let gen := (s.entry o.dom).generation
      let plain := leBytes 1 use ++ leBytes 1 o.dom.val ++ leBytes 2 gen ++ [0, 0, 0, 0] ++ beBytes (keyLen use) key.toNat
      let s := s.hostWrite o.dom (daddr x).toNat (kwWrap (s.wrapKey o.dom) plain)
      s.keyDone o 0x30 h 0x00

/-- KEY_GEN. -/
def execKeyGen (d : Dom) (n : RingNo) (x : Desc) (s : State) : Result :=
  if s.ringOn d n 2 then finish (s.command d n x (fun s op => s.keyGenOp x op)) else .next s

/-- KEY_LOAD once fetched (R45, R46). -/
def State.keyLoadOp (s : State) (x : Desc) (blob : List Byte) (o : Op) : State :=
  let use := dnum x 4 1
  let st := s.keyCheck x o true
  if st ≠ 0 then s.keyDone o 0x31 0 st
  else
    let gen := (s.entry o.dom).generation
    match kwUnwrap (s.wrapKey o.dom) blob with
    | none => s.keyDone o 0x31 0 0x32
    | some p =>
      if leAt p 0 1 ≠ use ∨ leAt p 1 1 ≠ o.dom.val ∨ leAt p 2 2 ≠ gen then s.keyDone o 0x31 0 0x32
      else match s.freeHandle o.dom with
        | none => s.keyDone o 0x31 0 0x33
        | some h =>
          let s := s.setKey h (some { dom := o.dom, sealing := use == 1, key := BitVec.ofNat 256 (ofBe (slice p 8 (keyLen use))) })
          s.keyDone o 0x31 h 0x00

/-- KEY_LOAD. -/
def execKeyLoad (d : Dom) (n : RingNo) (x : Desc) (blob : List Byte) (s : State) : Result :=
  if !s.ringOn d n 2 then .next s
  else if (dnum x 4 1 = 1 ∨ dnum x 4 1 = 2) ∧ blob.length ≠ blobLen (dnum x 4 1) then .fault .dataLength
  else finish (s.command d n x (fun s op => s.keyLoadOp x blob op))

/-- KEY_ERASE once fetched (R45, R78). -/
def State.keyEraseOp (s : State) (x : Desc) (o : Op) : State :=
  let h := dnum x 4 1
  if !reservedZero x [(4, 0, 8)] then s.keyDone o 0x32 h 0x32
  else if !s.ownKey o.dom h then s.keyDone o 0x32 h 0x31
  else ((s.setKey h none).dropKeyless).keyDone o 0x32 h 0x00

/-- KEY_ERASE. -/
def execKeyErase (d : Dom) (n : RingNo) (x : Desc) (s : State) : Result :=
  if s.ringOn d n 2 then finish (s.command d n x (fun s op => s.keyEraseOp x op)) else .next s

/-! ### Erasure (R25, R44, R52) -/

/-- The payload that a candidate holds in the fetch-ahead set reads 0. -/
def blankCand (c : Cand) : Cand := { c with frame := { c.frame with data := c.frame.data.map (fun _ => 0) } }

/-- What the device reserve of Tarn holds goes with Tarn: frames that wait for evaluation and inputs of the gateway are gone, and payloads
and frames that a ring, a port or a gateway still uses read 0 (R24, R52, R136, log 47). -/
def State.eraseReserve (s : State) : State :=
  let s := s.rxq.foldl (fun s e => s.freeSpace e.1.val e.2.space) s
  { s with
    rxq := [], spur := { s.spur with inputs := [], rules := Tbl.mapVal none s.spur.rules (fun _ r => r.map (fun r => { r with held := none })) },
    ports := s.ports.map (fun x => { x with cands := x.cands.map blankCand }),
    rings := Tbl.mapVal {} s.rings (fun _ r => { r with frames := r.frames.map (fun w => { w with bytes := w.bytes.map (fun _ => 0) }) }) }

/-- Key slots, Tarn contents and the filter store are erased; the images of the objects are empty (R52). -/
def State.eraseData (s : State) : State :=
  let s := s.eraseReserve
  let s := { s with tarn := [], flt := [], objs := Tbl.mapVal {} s.objs (fun _ x =>
      { cfg := x.cfg, pending := x.pending, copying := x.copying, reading := x.reading, readers := x.readers }), belay := { s.belay with keys := [] } }
  s.dropKeyless

/-- Rings outside D0's present range go back to reset, with their registers (R25). -/
def State.clearTenantRings (s : State) : State :=
  let e := s.entry 0
  let mine := inRangeOf (ringsOf e)
  { s with
    rings := Tbl.drop s.rings (fun i => !mine i),
    regs := s.regs.clear (fun r => match r with
      | .ring n _ => !mine n.val
      | _ => false) }

/-- Counters and HALF bits of a block set to 0 (R25, R338). -/
def State.clearBlock (s : State) (b : Nat) : State :=
  { s with counts := Tbl.drop s.counts (fun k => decide (k / 64 = b)), halves := Tbl.drop s.halves (fun k => decide (k / 64 = b)) }

/-- Operations of a tenant end with no completion, as the domain ends. -/
def State.endDomain (s : State) (d : Dom) : State :=
  let f := s.func d
  let s := s.setFunc d { f with epoch := f.epoch + 1 }
  (portIds.foldl (fun s p => s.flrPort d p) s).flrRings d

/-- The partition table of R22 and R503; what the tenants held is cleared first (R25), and no DMA window is left, D0's neither
(R52, log 34). -/
def State.defaultPartition (s : State) : State :=
  let ts := tenants.filter (fun d => (s.entry d).valid)
  let blocks := (portIds.filter (fun p => s.portOwner p ≠ 0)).map (·.val) ++ ((List.finRange 4).filter (fun k : EpId => s.epOwner k ≠ 0)).map (fun k => 32 + k.val)
  let s := ts.foldl (fun s d => s.endDomain d) s
  let s := (portIds.filter (fun p => s.portOwner p ≠ 0)).foldl (fun s p => s.reassignPort p) s
  let s := (grpIds.filter (fun k => s.grpOwner k ≠ 0)).foldl (fun s k => s.reassignGroup k) s
  let s := blocks.foldl (fun s b => s.clearBlock b) s
  let s := s.clearTenantRings
  let gone := portIds.filter (fun p => s.portOwner p ≠ 0)
  let s : State := { s with
    regs := s.regs.clear (fun r => match r with
      | .fltPort p => s.portOwner p ≠ 0
      | _ => false),
    objs := [], units := (Vector.replicate 16 []).set 0 (List.range 960),
    routes := Tbl.mapVal {} s.routes (fun r x => if s.routeOwner r = 0 then x else { x with valid := false }),
    belay := { s.belay with
      entries := (Vector.replicate 16 ({} : Entry)).set 0 Entry.ownerReset, windows := [], routeDom := [] } }
  gone.foldl (fun s p => s.newWindows p) s

/-! ### Lifecycle (R47) -/

/-- LIFECYCLE changes, with its record. -/
def State.setLife (s : State) (l : Lifecycle) : State :=
  let old := s.belay.otp.life
  (s.setOtp { s.belay.otp with life := l }).record devCode 4 false 0x05 0x03 (BitVec.ofNat 32 (lifeCode old)) (BitVec.ofNat 32 (lifeCode l))

/-- What a signed command covers: serial number, owner slot, challenge (R47, log 8). -/
def State.signedMessage (s : State) (c : BitVec 256) : List Byte := beBytes 8 s.serial.toNat ++ leBytes 1 s.ownerSlot ++ beBytes 32 c.toNat

/-- The signature verifies under the current owner key and an unspent challenge (R47). -/
def State.ownerSigned (s : State) (sig : List Byte) : Bool :=
  match s.belay.challenge with
  | some (c, _) => ecdsaVerify (Config.ownerKey s.ownerHash) (s.signedMessage c) (BitVec.ofNat 768 (ofBe (slice sig 0 96)))
  | none => false

/-- A challenge serves one signed command. -/
def State.spendChallenge (s : State) : State := { s with belay := { s.belay with challenge := none } }

/-- CHALLENGE once fetched. -/
def State.challengeOp (s : State) (x : Desc) (o : Op) : State :=
  if !reservedZero x [fAddr] then s.complete o 0x32
  else if o.dom ≠ 0 then s.complete o 0x31
  else if !s.inWindow o.dom (daddr x).toNat 32 false true then s.complete o 0x30
  else
    let c : BitVec 256 := (Config.drbg s.free).setWidth 256
    let s := s.draw
    let s := { s with belay := { s.belay with challenge := some (c, s.raw) } }
    (s.hostWrite o.dom (daddr x).toNat (beBytes 32 c.toNat)).complete o 0x00

/-- CHALLENGE. -/
def execChallenge (d : Dom) (n : RingNo) (x : Desc) (s : State) : Result :=
  if s.ringOn d n 2 then finish (s.command d n x (fun s op => s.challengeOp x op)) else .next s

/-- CHALLENGE_EXPIRY: 60 s (R47). -/
def execChallengeExpiry (s : State) : Result :=
  match s.belay.challenge with
  | some (_, t) => finish (s.advance (after t (sec 60))).spendChallenge
  | none => .next s

/-- OWNER_ENROL once fetched. -/
def State.ownerEnrolOp (s : State) (x : Desc) (key : List Byte) (o : Op) : State :=
  if !reservedZero x [fAddr] then s.complete o 0x32
  else if o.dom ≠ 0 then s.complete o 0x31
  else if s.belay.otp.life ≠ .unowned then s.complete o 0x32
  else if !s.inWindow o.dom (daddr x).toNat 96 true false then s.complete o 0x30
  else match (List.finRange 8).find? (fun i => !(s.belay.otp.slots[i]).used) with
    | none => s.complete o 0x33
    | some i =>
      let slot : OwnerSlot := { used := true, hash := sha384 (slice key 0 96), seed := (Config.drbg s.free).setWidth 256 }
      let s := s.draw
      let s := s.setOtp { s.belay.otp with slots := s.belay.otp.slots.set i slot }
      (s.setLife .owned).complete o 0x00 (BitVec.ofNat 32 i.val)

/-- OWNER_ENROL. -/
def execOwnerEnrol (d : Dom) (n : RingNo) (x : Desc) (key : List Byte) (s : State) : Result :=
  if !s.ringOn d n 2 then .next s
  else if s.belay.otp.life = .unowned ∧ key.length ≠ 96 then .fault .dataLength
  else finish (s.command d n x (fun s op => s.ownerEnrolOp x key op))

/-- What release, retirement and RMA entry erase (R52). -/
def State.ownerErase (s : State) : State := (s.eraseData.defaultPartition).eraseRecords

/-- The shared course of the signed commands: status, and the effect once the signature verifies (R47). -/
def State.signedOp (s : State) (x : Desc) (sig : List Byte) (o : Op) (eff : State → State) : State :=
  if !reservedZero x [fAddr] then s.complete o 0x32
  else if o.dom ≠ 0 then s.complete o 0x31
  else if s.belay.otp.life ≠ .owned then s.complete o 0x32
  else if !s.inWindow o.dom (daddr x).toNat 96 true false then s.complete o 0x30
  else
    let good := s.ownerSigned sig
    let s := s.spendChallenge
    if good then (eff s).complete o 0x00 else s.complete o 0x32

/-- The signature is read from host memory. -/
def State.readsSig (s : State) (sig : List Byte) : Bool := s.belay.otp.life == .owned && sig.length != 96

/-- OWNER_RELEASE. -/
def execOwnerRelease (d : Dom) (n : RingNo) (x : Desc) (sig : List Byte) (s : State) : Result :=
  if !s.ringOn d n 2 then .next s
  else if s.readsSig sig then .fault .dataLength
  else finish (s.command d n x (fun s op => s.signedOp x sig op (fun s =>
    let i := fin 8 s.ownerSlot
    let slots := s.belay.otp.slots
    let s := s.ownerErase
    (s.setOtp { s.belay.otp with slots := slots.set i { slots[i] with revoked := true } }).setLife .unowned)))

/-- The DUS kill fuse is blown and the device takes its last owner's leave (R47, R52). -/
def State.killDus (s : State) (l : Lifecycle) : State :=
  let s := s.ownerErase
  (s.setOtp { s.belay.otp with dusKilled := true }).setLife l

/-- RETIRE once fetched: signed where OWNED, plain from D0 where UNOWNED. -/
def State.retireOp (s : State) (x : Desc) (sig : List Byte) (o : Op) : State :=
  if s.belay.otp.life = .unowned then
    if !reservedZero x [] then s.complete o 0x32
    else if o.dom ≠ 0 then s.complete o 0x31
    else (s.killDus .retired).complete o 0x00
  else s.signedOp x sig o (fun s => s.killDus .retired)

/-- RETIRE. -/
def execRetire (d : Dom) (n : RingNo) (x : Desc) (sig : List Byte) (s : State) : Result :=
  if !s.ringOn d n 2 then .next s
  else if s.readsSig sig then .fault .dataLength
  else finish (s.command d n x (fun s op => s.retireOp x sig op))

/-- RMA_ENTER. -/
def execRmaEnter (d : Dom) (n : RingNo) (x : Desc) (sig : List Byte) (s : State) : Result :=
  if !s.ringOn d n 2 then .next s
  else if s.readsSig sig then .fault .dataLength
  else finish (s.command d n x (fun s op => s.signedOp x sig op (fun s => s.killDus .rma)))

/-! ### Attestation (R48) -/

/-- Component numbers of CRN_SLOT0 to 6. -/
def compCode (c : Nat) : Nat := if c < 3 then c + 1 else 0x10 + (c - 3)
def Comp.active (x : Comp) : Slot := if x.activeB then x.b else x.a
/-- SVN of a slot; that of an image delivered with the part is the part's (log 5). -/
def slotSvn (c : Nat) (x : Slot) : Word := if x.bytes.isEmpty then Config.factorySvn c else x.svn
def slotDigest (c : Nat) (x : Slot) : BitVec 384 := if x.bytes.isEmpty then Config.factoryDigest c else sha384 x.bytes

/-- Places of the images that the engines hold, those of one digest once (R48, log 8). -/
def State.spurImages (s : State) : List (Fin 7) :=
  let held := (List.finRange 7).filter (fun c => engIds.any (fun e => (s.engine e).held && (s.engine e).image.val + 3 == c.val))
  let digest (c : Fin 7) : BitVec 384 := slotDigest c.val (s.cairn.comps[c]).active
  held.filter (fun c => held.find? (fun b => digest b == digest c) == some c)

/-- What is measured, as COMPONENT and place: the components that run, then the i-th distinct Spur image as 0010h + i (R48). -/
def State.measured (s : State) : List (Nat × Fin 7) :=
  let absent (i : Nat) : Bool := s.dev.absent.getLsbD i
  (if absent 3 then [] else [(1, 0)]) ++ (if absent 0 then [] else [(2, 1)]) ++ (if absent 1 then [] else [(3, 2)])
    ++ s.spurImages.zipIdx.map (fun e => (0x10 + e.2, e.1))

/-- A measurement entry of 56 bytes. -/
def State.measurement (s : State) (code : Nat) (c : Fin 7) : List Byte :=
  let x := s.cairn.comps[c]
  leBytes 2 code ++ leBytes 1 (b2n x.activeB) ++ [0] ++ leBytes 4 (slotSvn c.val x.active).toNat ++ beBytes 48 (slotDigest c.val x.active).toNat

/-- An entry of the partition table as a record of type 01h. -/
def entryBytes (d : Nat) (e : Entry) : List Byte :=
  [0x01] ++ leBytes 1 d ++ leBytes 2 (b2n e.valid + 2 * b2n e.timeFeed + 4 * b2n e.routeUse + 8 * b2n e.gateway) ++ leBytes 4 e.ports.toNat
    ++ leBytes 1 (e.groups.toNat + 16 * e.eports.toNat) ++ leBytes 1 e.ringCount ++ leBytes 2 e.ringBase ++ leBytes 2 e.tarnQuota ++ leBytes 1 e.fltLanes
    ++ leBytes 1 e.msixCount ++ leBytes 2 e.fltBase ++ leBytes 2 e.fltCount ++ leBytes 2 e.msixBase ++ leBytes 2 e.inflight ++ leBytes 2 e.generation
    ++ leBytes 2 e.logRate ++ leBytes 1 e.keyQuota ++ [0, 0, 0]

/-- A DMA window as a record of type 02h. -/
def windowBytes (i : Nat) (w : Window) : List Byte :=
  [0x02] ++ leBytes 1 (i / 16) ++ leBytes 1 (i % 16) ++ leBytes 1 (b2n w.valid + 2 * b2n w.read + 4 * b2n w.write) ++ [0, 0, 0, 0]
    ++ leBytes 8 w.base ++ leBytes 8 w.limit ++ List.replicate 8 0

/-- The whole partition table (R48): entries, windows, owners of route entries. -/
def State.tableBytes (s : State) : List Byte :=
  doms.flatMap (fun d => entryBytes d.val (s.entry d)) ++ (List.range 256).flatMap (fun i => windowBytes i (Tbl.get {} s.belay.windows i))
    ++ (List.range 256).flatMap (fun r => leBytes 1 (s.routeOwner r))

/-- The report of R48; domByte FFh and scope 2 for the SMBus manager. -/
def State.report (s : State) (domByte scope : Nat) (own : Dom) (nonce : List Byte) : List Byte :=
  let ms := s.measured
  let digest := sha384 (if scope = 0 then entryBytes own.val (s.entry own) else s.tableBytes)
  let body := leBytes 2 1 ++ leBytes 2 (256 + 56 * ms.length) ++ leBytes 1 (lifeCode s.belay.otp.life) ++ leBytes 1 (b2n s.belay.debugUnlocked)
    ++ leBytes 1 domByte ++ leBytes 1 scope ++ leBytes 8 s.now.toNat ++ leBytes 8 s.serial.toNat ++ leBytes 1 s.ownerSlot ++ leBytes 1 ms.length
    ++ List.replicate 6 0 ++ slice nonce 0 32 ++ beBytes 48 (if s.belay.otp.life = .owned then s.ownerHash.toNat else 0) ++ beBytes 48 digest.toNat
    ++ ms.flatMap (fun e => s.measurement e.1 e.2)
  body ++ beBytes 96 (Config.dikSign body).toNat

/-- An ATTEST record (R446). -/
def State.attestRecord (s : State) (dom : BitVec 5) (scope : Nat) (nonce : List Byte) : State :=
  s.record dom 2 true 0x05 0x02 (BitVec.ofNat 32 scope) (BitVec.ofNat 32 (leAt nonce 0 4))

/-- ATTEST once fetched. -/
def State.attestOp (s : State) (x : Desc) (nonce : List Byte) (o : Op) : State :=
  let len := dnum x 4 4
  let scope := if o.dom = 0 then 1 else 0
  if !reservedZero x [(4, 0, 32), fAddr] || decide (len < 1152) then s.complete o 0x32
  else if !s.inWindow o.dom (daddr x).toNat len true true then s.complete o 0x30
  else
    let r := s.report o.dom.val scope o.dom nonce
    let s := s.attestRecord (domCode o.dom) scope nonce
    (s.hostWrite o.dom (daddr x).toNat r).complete o 0x00 0 (BitVec.ofNat 16 r.length)

/-- ATTEST. -/
def execAttest (d : Dom) (n : RingNo) (x : Desc) (nonce : List Byte) (s : State) : Result :=
  if !s.ringOn d n 2 then .next s
  else if 1152 ≤ dnum x 4 4 ∧ nonce.length ≠ 32 then .fault .dataLength
  else finish (s.command d n x (fun s op => s.attestOp x nonce op))

/-! ### Debug unlock (R49 to R52) -/

/-- DEBUG_UNLOCK_REQUEST: a challenge in the JTAG data register, where an unlock is possible; elsewhere the request is ignored (R49; DESIGN
CHOICE, log 40). -/
def execDebugUnlockRequest (s : State) : Result :=
  let l := s.belay.otp.life
  if s.belay.debugUnlocked ∨ (l ≠ .owned ∧ l ≠ .rma) then .next s
  else
    let c : BitVec 256 := (Config.drbg s.free).setWidth 256
    let s := s.draw
    let s : State := { s with belay := { s.belay with jtagChallenge := some c } }
    finish (s.emit (.jtag c))

/-- DEBUG_UNLOCK: the signature covers the challenge and the serial number; in RMA it is Hetrum's (log 8). -/
def execDebugUnlock (sig : List Byte) (s : State) : Result :=
  match s.belay.jtagChallenge with
  | none => .next s
  | some c =>
    let key := if s.belay.otp.life = .rma then Config.faKey else Config.ownerKey s.ownerHash
    let good := ecdsaVerify key (beBytes 32 c.toNat ++ beBytes 8 s.serial.toNat) (BitVec.ofNat 768 (ofBe (slice sig 0 96)))
    let s := { s with belay := { s.belay with jtagChallenge := none } }
    if good then
      let s := s.eraseData.eraseArgs
      let s := { s with spur := { s.spur with engines := s.spur.engines.map (fun e : Engine => { e with data := none }) } }
      let s := { s with belay := { s.belay with debugUnlocked := true } }
      finish (s.record devCode 5 false 0x05 0x04 (BitVec.ofNat 32 (lifeCode s.belay.otp.life)) 0)
    else finish s

end Sys2Proof.Machine
end

