-- ==== Sys2Proof/Machine/Cairn.lean ====
section
/-! DEFINITION. Cairn: operating modes, the governor, sensors, restarts of the service firmware, the scrub (R433 to R444, R468). -/
namespace Sys2Proof.Machine

def State.setCairn (s : State) (c : Cairn) : State := { s with cairn := c }

/-! ### Slots (R460, R462, R465) -/

/-- Rollback counter of a component with an image of a family, numbered as the components and then the families 1 to 4 (R462). -/
def counterIx (c : Fin 7) (family : Nat) : Option (Fin 7) :=
  if c.val < 3 then some c else if 1 ≤ family ∧ family ≤ 4 then some (fin 7 (2 + family)) else none
def State.rollback (s : State) (c : Fin 7) (family : Nat) : Nat :=
  match counterIx c family with
  | some i => s.belay.otp.rollback[i]
  | none => 0

/-- A slot passes R462 now: it holds a container that passed, and its SVN has not fallen behind the counter. -/
def State.slotPasses (s : State) (c : Fin 7) (x : Slot) : Bool :=
  x.present && x.passes && decide (s.rollback c x.family.toNat ≤ (slotSvn c.val x).toNat)

def State.comp (s : State) (c : Fin 7) : Comp := s.cairn.comps[c]
def State.marks (s : State) : Vector (Bool × Bool) 7 := s.cairn.comps.map (fun x => (x.activeB, x.trial))
/-- Belay writes the layout record: the copies in turn, which is the one that is not valid or has the lower generation (R460). -/
def State.writeLayout (s : State) : State :=
  let (x, y) := (s.cairn.layouts[0], s.cairn.layouts[1])
  let first := !x.valid || (y.valid && decide (x.gen < y.gen))
  let z := Layout.made (max (if x.valid then x.gen else 0) (if y.valid then y.gen else 0) + 1) s.marks
  s.setCairn { s.cairn with layouts := if first then s.cairn.layouts.set 0 z else s.cairn.layouts.set 1 z }
/-- A component changes; where the active slot or its trial does, the layout record follows (R460). -/
def State.setComp (s : State) (c : Fin 7) (x : Comp) : State :=
  let t := s.setCairn { s.cairn with comps := s.cairn.comps.set c x }
  if t.marks = s.marks then t else t.writeLayout
def Comp.slot (x : Comp) (b : Bool) : Slot := if b then x.b else x.a
def Comp.setSlot (x : Comp) (b : Bool) (y : Slot) : Comp := if b then { x with b := y } else { x with a := y }

/-- CRN_IMGSTAT and CRN_SLOTc. -/
def State.imgstat (s : State) : Word :=
  let h := match s.cairn.holder with
    | .none_ => 0
    | .owner => 1
    | .smbus => 2
  BitVec.ofNat 32 (h + 4 * b2n s.cairn.activating.isSome + 256 * s.cairn.imgReason.toNat + 2 ^ 16 * s.cairn.imgComponent.toNat)
def State.slotWord (s : State) (c : Fin 7) : Word :=
  let x := s.comp c
  BitVec.ofNat 32 (b2n x.activeB + 2 * b2n x.trial + 4 * b2n (s.slotPasses c x.a) + 8 * b2n (s.slotPasses c x.b)
    + 256 * s.rollback c x.active.family.toNat)

/-! ### Modes (R438 to R442) -/

/-- DEV_MSTAT (R439, R440, R442). -/
def State.mstat (s : State) : Word :=
  let c := s.cairn
  BitVec.ofNat 32 (b2n (c.mode == .summit) + 2 * b2n (c.mode == .raising) + 4 * b2n (c.mode == .held) + 16 * c.vidNow.toNat
    + 2 ^ 8 * c.reason.toNat + 2 ^ 16 * c.fallbacks.toNat + 2 ^ 24 * s.belay.otp.vminBc.toNat + 2 ^ 28 * s.belay.otp.vminSu.toNat)

/-- A passage of R442: a MODE record where DEV_MSTAT changes (log 30). -/
def State.modeGoes (s : State) (c : Cairn) : State :=
  let old := s.mstat
  let s := s.setCairn c
  if s.mstat = old then s else s.record devCode 2 false 0x0C 0x01 old s.mstat

/-- Codes of a mode (R438), and the lowest of the part (R439). -/
def inRange (summit : Bool) (v : Nat) : Bool := if summit then decide (10 ≤ v ∧ v ≤ 15) else decide (v ≤ 6)
def State.vmin (s : State) (summit : Bool) : Nat := if summit then s.belay.otp.vminSu.toNat else s.belay.otp.vminBc.toNat

/-- REASON of a refusal of R441, 0 where there is none. -/
def State.modeRefusal (s : State) (v : Word) : Byte :=
  let m := v.getLsbD 0
  let vid := v.toNat / 16 % 16
  if !inRange m vid then 1 else if vid < s.vmin m then 2 else if s.cairn.mode = .raising then 3 else 0

/-- Highest junction temperature, in 0.25 °C, and its sensor (R442). -/
def State.tmax (s : State) : Int := s.cairn.felt.toList.foldl max (s.cairn.felt[0])
def State.hottest (s : State) : Nat := s.cairn.felt.toList.findIdx (fun t => t == s.tmax)
/-- HI, LO and ALERT in force, in 0.25 °C. -/
def Cairn.hi (c : Cairn) : Int := 4 * (c.gov.toNat % 256)
def Cairn.lo (c : Cairn) : Int := 4 * (c.gov.toNat / 2 ^ 8 % 256)
def Cairn.alertAt (c : Cairn) : Int := 4 * (c.gov.toNat / 2 ^ 16 % 256)
def Cairn.fbVid (c : Cairn) : BitVec 4 := (c.gov >>> 24).setWidth 4

/-- A raise begins with a code (R442). -/
def State.raiseTo (s : State) (vid : BitVec 4) : State :=
  s.modeGoes { s.cairn with mode := .raising, vidBefore := s.cairn.vidNow, vidNow := vid, vidAt := s.raw }

/-- An accepted write of DEV_MODE acts by the state of R442; ret says that GOV_RETURN was 1 before the write. -/
def State.modeActs (s : State) (v : Word) (ret : Bool) : State :=
  let c := s.cairn
  let vid := (v >>> 4).setWidth 4
  match c.mode, v.getLsbD 0 with
  | .base, true => if s.tmax < c.hi then s.raiseTo vid else s.modeGoes { c with mode := .held }
  | .summit, true => s.modeGoes { c with vidNow := vid }
  | .held, true => if !ret && decide (s.tmax < c.hi) then s.raiseTo vid else s
  | .raising, _ => s
  | _, false => s.modeGoes { c with mode := .base, vidNow := vid }

/-- A value that DEV_MODE's fields already hold. -/
def State.sameMode (s : State) (v : Word) : Bool := s.reg (.dev .mode) == ((v &&& 0x1F1).setWidth 64)

/-- A write of DEV_MODE by an agent of log code dom: the REASON of a refusal, and the state (R15, R441). -/
def State.writeMode (s : State) (dom : BitVec 5) (v : Word) : Byte × State :=
  let r := s.modeRefusal v
  if r ≠ 0 then
    if s.sameMode v then (0, s)
    else (r, (s.setCairn { s.cairn with reason := r }).record dom 3 false 0x01 0x01 0x100 v)
  else
    let ret := s.rb (.dev .mode) 8
    (0, (s.setReg (.dev .mode) ((v &&& 0x1F1).setWidth 64)).modeActs v ret)

/-- MODE_WRITE. -/
def execModeWrite (d : Dom) (v : Word) (s : State) : Result := s.ownedWrite d 0 (Reg.dev .mode).off v (fun s => (s.writeMode 0 v).2)

/-- RAISE_CONFIRMED: both sense points within 3 % of the target, at least 200 µs after the change of VID. -/
def execRaiseConfirmed (s : State) : Result :=
  if s.cairn.mode = .raising then
    let s := s.waitFrom s.cairn.vidAt (us 200)
    finish ((s.modeGoes { s.cairn with mode := .summit }).crnEvent 0)
  else .next s

/-- RAISE_TIMEOUT: 2 ms without a confirmation. -/
def execRaiseTimeout (s : State) : Result :=
  if s.cairn.mode ≠ .raising then .next s
  else
    let s := s.waitFrom s.cairn.vidAt (ms 2)
    let s := s.modeGoes { s.cairn with mode := .base, vidNow := s.cairn.vidBefore, reason := 4 }
    finish ((s.setRf (.dev .mode) 0 1 0).crnEvent 1)

/-- GOV_FALLBACK: Tmax has been at or above HI for 1 ms (R434, R442). -/
def execGovFallback (s : State) : Result :=
  match s.cairn.mode, s.cairn.hotSince with
  | .summit, some t =>
    let s := s.advance (after t (ms 1))
    let n := s.cairn.fallbacks
    let s := s.modeGoes { s.cairn with mode := .held, vidNow := s.cairn.fbVid, fallbacks := if n = 0xFF then n else n + 1 }
    let s := s.record devCode 3 false 0x0C 0x02 (BitVec.ofInt 32 s.tmax) (BitVec.ofNat 32 s.hottest)
    finish (s.crnEvent 2)
  | _, _ => .next s

/-- GOV_RETURN: Tmax has been at or below LO for RET_HOLD seconds, 0 acting as 1, and GOV_RETURN is 1 (R442, R444). -/
def execGovReturn (s : State) : Result :=
  match s.cairn.mode, s.cairn.coolSince with
  | .held, some t =>
    if !s.rb (.dev .mode) 8 then .next s
    else
      let s := s.advance (after t (sec (max 1 s.cairn.govHold.toNat)))
      finish ((s.raiseTo (BitVec.ofNat 4 (s.rf (.dev .mode) 4 4))).crnEvent 3)
  | _, _ => .next s

/-! ### CRN_GOV and CRN_GOVHOLD (R444) -/

/-- The threshold registers after the write keep R444. -/
def State.govOk (s : State) (v : Word) : Bool :=
  let hi := v.toNat % 256
  let lo := v.toNat / 2 ^ 8 % 256
  let fb := v.toNat / 2 ^ 24 % 16
  decide (hi ≤ 120) && decide (lo + 5 ≤ hi) && inRange false fb && decide (s.vmin false ≤ fb)

/-- A write of CRN_GOV or CRN_GOVHOLD by D0; while the service firmware is out it is dropped with a record (R434). -/
def State.writeGov (s : State) (d : Dom) (hold : Bool) (v : Word) : State :=
  let r : Reg := .crn (if hold then .govhold else .gov)
  let same := (s.fieldWrite d r mask32 (v.setWidth 64) (fun _ => false)).1 == s.reg r
  if same && s.cairn.running then s
  else if !s.cairn.running || (!hold && !s.govOk v) then s.refuse d r mask32 (v.setWidth 64)
  else s.writeFields d r mask32 (v.setWidth 64) (fun _ => false)

/-- GOV_WRITE. -/
def execGovWrite (d : Dom) (hold : Bool) (v : Word) (s : State) : Result :=
  s.ownedWrite d 0 (Reg.crn (if hold then .govhold else .gov)).off v (fun s => s.writeGov d hold v)

/-! ### Sensors (R434 to R437, R443) -/

/-- Cairn's sensor registers; the manual gives them no offset, so that no BAR read finds them (log 44). -/
inductive SensorReg where
  | temp (i : Fin 6)
  | rail (i : Fin 8)
  | pace (i : Fin 12)
  | age (i : Fin 4)
  deriving DecidableEq, Repr

/-- What a sensor register shows: 0.25 °C, mV, ps, 0.1 ppm (R435). -/
def State.sensorView (s : State) : SensorReg → Word
  | .temp i => BitVec.ofInt 32 s.cairn.temps[i]
  | .rail i => BitVec.ofNat 32 s.cairn.rails[i]
  | .pace i => BitVec.ofNat 32 s.cairn.paces[i]
  | .age i => BitVec.ofInt 32 s.cairn.ages[i]

/-- TEMP_ALERT# (R443). -/
def State.alertActs (s : State) : State :=
  let c := s.cairn
  if !c.alert && decide (c.alertAt ≤ s.tmax) then
    let s := s.setCairn { c with alert := true }
    (s.record devCode 4 false 0x0C 0x03 (BitVec.ofInt 32 s.tmax) (BitVec.ofNat 32 s.hottest)).crnEvent 4
  else if c.alert && decide (s.tmax < c.alertAt - 20) then s.setCairn { c with alert := false }
  else s

/-- A sample of the junction temperatures: the comparators act always, CRN_TEMP follows while the service firmware runs (R434). -/
def State.sampleTemp (s : State) (q : List Int) : State :=
  let c := s.cairn
  let felt := Vector.ofFn (fun i : Fin 6 => q.getD i.val c.felt[i])
  let s := s.setCairn { c with
    felt := felt, temps := if c.running then felt else c.temps,
    gov := (s.reg (.crn .gov)).setWidth 32, govHold := (s.reg (.crn .govhold)).setWidth 16 }
  let c := s.cairn
  let s := s.setCairn { c with
    hotSince := if c.hi ≤ s.tmax then some (c.hotSince.getD s.raw) else none
    coolSince := if s.tmax ≤ c.lo then some (c.coolSince.getD s.raw) else none }
  s.alertActs

/-- Nominal millivolts of the rails with a band: VDD_CORE at two points, VDD_SERDES, VDD_IO (R436, R438). -/
def State.railTarget (s : State) (i : Nat) : Nat := if i < 2 then 700 + 12 * s.cairn.vidNow.toNat else if i = 2 then 900 else 1800
def State.railBad (s : State) (i mv : Nat) : Bool := decide (100 * mv < 95 * s.railTarget i ∨ 105 * s.railTarget i < 100 * mv)

/-- A watch on a reading: outside since, reported; true where it is to be reported now. -/
def watch (w : Option DWord × Bool) (bad : Bool) (raw : DWord) (limit : Nat) : (Option DWord × Bool) × Bool :=
  if !bad then ((none, false), false)
  else
    let t := w.1.getD raw
    if w.2 then ((some t, true), false)
    else if limit ≤ raw.toNat - t.toNat then ((some t, true), true) else ((some t, false), false)

/-- A sample of the rails (R436). -/
def State.sampleRail (s : State) (mv : List Nat) : State :=
  let s := s.setCairn { s.cairn with rails := Vector.ofFn (fun i : Fin 8 => mv.getD i.val s.cairn.rails[i]) }
  (List.finRange 4).foldl (fun (s : State) (i : Fin 4) =>
    let v := s.cairn.rails[(fin 8 i.val)]
    let (w, tell) := watch s.cairn.railOut[i] (s.railBad i.val v) s.raw (ms 1)
    let s := s.setCairn { s.cairn with railOut := s.cairn.railOut.set i w }
    if tell then (s.record devCode 4 false 0x0C 0x04 (BitVec.ofNat 32 i.val) (BitVec.ofNat 32 v)).crnEvent 5 else s) s

/-- A sample of the pace sensors (R437). -/
def State.samplePace (s : State) (ps : List Nat) : State :=
  let s := s.setCairn { s.cairn with paces := Vector.ofFn (fun i : Fin 12 => ps.getD i.val s.cairn.paces[i]) }
  let limit := if s.cairn.mode = .summit then 833 else 1250
  (List.finRange 12).foldl (fun (s : State) (i : Fin 12) =>
    let v := s.cairn.paces[i]
    let (w, tell) := watch s.cairn.paceOut[i] (decide (limit < v)) s.raw (ms 10)
    let s := s.setCairn { s.cairn with paceOut := s.cairn.paceOut.set i w }
    if tell then (s.record devCode 4 false 0x0C 0x05 (BitVec.ofNat 32 i.val) (BitVec.ofNat 32 v)).crnEvent 6 else s) s

/-- A sample of the ageing lines: a drift above 200 ppm is logged once (text after R437). -/
def State.sampleAge (s : State) (ppm : List Int) : State :=
  let s := s.setCairn { s.cairn with ages := Vector.ofFn (fun i : Fin 4 => ppm.getD i.val s.cairn.ages[i]) }
  (List.finRange 4).foldl (fun (s : State) (i : Fin 4) =>
    let v := s.cairn.ages[i]
    if 2000 < v ∧ !s.cairn.ageLogged[i] then
      let s := s.setCairn { s.cairn with ageLogged := s.cairn.ageLogged.set i true }
      s.record devCode 3 false 0x0C 0x08 (BitVec.ofNat 32 i.val) (BitVec.ofInt 32 v)
    else s) s

/-- SENSOR_SAMPLE: the comparators act from step 2 of the boot on (R487); rails, pace and ageing are read by the service firmware (R434, R435). -/
def execSensorSample (r : Sensors) (s : State) : Result :=
  match r with
  | .temp q => if s.dev.otpRead then finish (s.sampleTemp q) else .next s
  | .rail mv => if s.cairn.running then finish (s.sampleRail mv) else .next s
  | .pace ps => if s.cairn.running then finish (s.samplePace ps) else .next s
  | .age ppm => if s.cairn.running then finish (s.sampleAge ppm) else .next s

/-! ### The service firmware (R34, R434) -/

/-- What Cairn's registers show at the start of an outage (R434). -/
def State.crnNow (s : State) : CrnLast :=
  { evt := Vector.ofFn (fun d : Dom => s.reg (.fn d .crnEvt)), smbEvt := s.cairn.smbEvt, logNext := s.log.next, logLost := s.log.lost,
    imgstat := s.imgstat, slots := Vector.ofFn (fun c : Fin 7 => s.slotWord c), corrected := s.cairn.corrected, uncorr := s.cairn.uncorr }

/-- Belay halts and restarts the service firmware; Cairn's registers keep showing what they last showed (R434). -/
def State.restartService (s : State) (cause : Word) : State :=
  let s := s.setCairn { s.cairn with running := false, restartAt := s.raw, last := some (s.cairn.last.getD s.crnNow) }
  (s.record devCode 4 false 0x0C 0x07 cause 0).crnEvent 8

/-- A restart whose cause the manual does not number: 1 activation, 2 reversion, 3 memory error. -/
def State.restartFor (s : State) (why : Nat) : State := s.restartService (Config.svcCause why)

/-- SVC_RESTART; a window violation of the service firmware has its WINDOW record too, agent 40h (R34, R446). -/
def execSvcRestart (cause : RestartCause) (s : State) : Result :=
  if s.cairn.running then
    let s := s.spoil 1
    let s := match cause.window with
      | some a => s.windowRecord 0x40 (.window a .other)
      | none => s
    finish (s.restartService cause.cause)
  else .next s

/-- SVC_RESTART_END: the firmware runs again, if it is present (R434, R488). -/
def execSvcRestartEnd (s : State) : Result :=
  if s.dev.cairnUp && !s.cairn.running && !s.dev.absent.getLsbD 0 then finish (s.setCairn { s.cairn with running := true, runAt := s.raw, last := none }) else .next s

/-! ### The scrub (R468) -/

/-- Memory number in an ECC record: the rows of the scrub table in order (log 31). -/
def scrubCode : ScrubMem → Nat
  | .tarn _ => 0
  | .filter _ => 1
  | .engine _ => 2
  | .core _ => 3
  | .cairn => 4
  | .log _ => 5

/-- The space of a share that holds a unit: spaces lie in the share in the order of their list (log 31). -/
def spaceAt : List Space → Nat → Option Nat
  | [], _ => none
  | x :: rest, u => if u < x.units then some x.id else spaceAt rest (u - x.units)

/-- A staged frame whose space holds the line is dropped and counted (R468). -/
def State.dropStaged (s : State) (b i : Nat) : State :=
  let s := { s with rxq := s.rxq.filter (fun e => !(e.1.val == b && e.2.space == i)) }
  let hit := fun w : RxWait => w.block == b && w.space == i
  let s := doms.foldl (fun s d => (List.finRange 64).foldl (fun s n =>
    if !s.ringOk d n then s
    else
      let k := s.dring d n
      let ws := (s.ring k).frames.filter hit
      let s := s.setRing k { s.ring k with frames := (s.ring k).frames.filter (fun w => !hit w) }
      ws.foldl (fun s w => s.dropWait d n w 0x20) s) s) s
  let s := s.setShare b ((s.share b).filter (fun x => decide (x.id ≠ i)))
  s.countPort (fin 32 b) 0x94

/-- Receive objects with a slot in the line: LOST (R468). -/
def State.loseObjects (s : State) (line : Nat) : State :=
  let objs := Tbl.mapVal {} s.objs (fun k x =>
    let d := fin 16 (k / 8192)
    let at_ := objMain x
    let n := 2 * slotBytes (objClass x.cfg)
    let inside := objValid x && !objIsSend x && (List.range ((n + 63) / 64)).any (fun i =>
      match s.tarnAddr d (at_ + 64 * i) with
      | some a => a / 64 == line
      | none => false)
    if inside then { x with lost := true } else x)
  { s with objs := objs }

/-- Bytes that lie in the line are zeroed: those from 64 times line to 64 times (line + 1), the bytes given lying from at_ on. -/
def zeroLine (line at_ : Nat) (bs : List Byte) : List Byte :=
  bs.zipIdx.map (fun e => if (at_ + e.2) / 64 = line then 0 else e.1)

/-- A line of a port's fetch-ahead: the payload that its candidates have there is zeroed. Slot i of the set has 48 of the share's 1536 bytes
(log 31). -/
def State.scrubAhead (s : State) (p : PortId) (line : Nat) : State :=
  let x := s.port p
  s.setPort p { x with cands := x.cands.map (fun c => { c with frame := { c.frame with data := zeroLine line (48 * c.slot) c.frame.data } }) }

/-- A line of the gateway region: the payload of the input that waits there is zeroed; input i has line i (log 31). -/
def State.scrubInputs (s : State) (line : Nat) : State :=
  { s with spur := { s.spur with inputs := s.spur.inputs.zipIdx.map (fun e => if e.2 = line then (e.1.1, { e.1.2 with bytes := e.1.2.bytes.map (fun _ => 0) }) else e.1) } }

/-- A 64-byte line of Tarn is zeroed: of the quotas, or of the device reserve, which the staging shares of the field ports open, 96 lines
each, then their fetch-ahead, 24 lines each, then the gateway region (R136, log 31). -/
def State.scrubTarn (s : State) (line : Nat) : State :=
  if line < 61440 then
    { s with tarn := Tbl.drop s.tarn (fun a => a / 64 == line) }.loseObjects line
  else
    let r := line - 61440
    let b := r / 96
    if 3840 ≤ r then s.scrubInputs (r - 3840)
    else if 3072 ≤ r then s.scrubAhead (fin 32 ((r - 3072) / 24)) ((r - 3072) % 24)
    else match spaceAt (s.share b) (r % 96) with
      | some i => s.dropStaged b i
      | none => s

/-- The record at a position of the log becomes an ERASED record with count 1. -/
def State.scrubLog (s : State) (pos : Nat) : State :=
  s.setLog { s.log with recs := s.log.recs.map (fun e => if e.1 % logSize = pos % logSize then (e.1, erasedAs e.2 1) else e) }

/-- What an uncorrectable error does, by memory. -/
def State.scrubActs (s : State) (m : ScrubMem) : State :=
  match m with
  | .tarn line => s.scrubTarn line
  | .filter e => { s with flt := Tbl.put 0 s.flt e 0 }
  | .engine e => match (s.engine e).state with
    | .faulted | .testing => s
    | _ => s.engineLost e .memory
  | .core c => s.coreLost c .memory
  | .cairn => if s.cairn.running then (s.spoil 1).restartFor 3 else s
  | .log pos => s.scrubLog pos

/-- SCRUB: a corrected error is counted; an uncorrectable one is handled, with an ECC record and an event (R468). -/
def execScrub (m : ScrubMem) (addr : Word) (uncorrectable : Bool) (s : State) : Result :=
  let c := s.cairn
  if !uncorrectable then finish (s.setCairn { c with corrected := (c.corrected + 1) % 2 ^ 24 })
  else
    let s := s.setCairn { c with uncorr := if c.uncorr = 0xFF then 0xFF else c.uncorr + 1 }
    let s := s.scrubActs m
    finish ((s.record devCode 4 false 0x0C 0x06 (BitVec.ofNat 32 (scrubCode m)) addr).crnEvent 7)

end Sys2Proof.Machine
end

