-- ==== Sys2Proof/Machine/Updates.lean ====
section
/-! DEFINITION. Firmware updates: containers, staging, activation, confirmation, reversion (R459 to R467). -/
namespace Sys2Proof.Machine

/-! ### Containers (R461, R462) -/

/-- Place in CRN_SLOT0 to 6 of a COMPONENT. -/
def compIx (code : Nat) : Option (Fin 7) :=
  if code = 1 then some 0 else if code = 2 then some 1 else if code = 3 then some 2 else if 0x10 ≤ code then nth? 4 (code - 0x10) |>.map (fun i => fin 7 (3 + i.val)) else none

/-- Bytes of a slot, and of the memory that the component runs in (R433, R460, R387; log 32). -/
def slotSize (c : Fin 7) : Nat := if c = 1 ∨ c = 2 then 0x100000 else 0x40000
def runSize (c : Fin 7) : Nat := if c = 0 then 0x10000 else if c = 1 then 0x70000 else if c = 2 then 0x80000 else 0x18000

/-- Offset of a slot in the flash; the layout copies lie below, at 0 and 8000h, staging above, at 100_0000h (R460). -/
def slotOffset (c : Fin 7) (b : Bool) : Nat :=
  (if c = 0 then 0x10000 else if c = 1 then 0x100000 else if c = 2 then 0x300000 else 0x800000 + 0x80000 * (c.val - 3)) + (if b then slotSize c else 0)
def layoutOffset (i : Fin 2) : Nat := 0x8000 * i.val
def stagingOffset : Nat := 0x1000000

def hdrMagic (h : List Byte) : Bool :=
  slice h 0 4 == [0x53, 0x50, 0x52, 0x49] && leAt h 4 2 == 1 && leAt h 9 3 == 0 && leAt h 24 8 == 0 && leAt h 81 15 == 0 && leAt h 192 64 == 0
def hdrFamily (h : List Byte) : Nat := leAt h 8 1
def hdrSvn (h : List Byte) : Nat := leAt h 12 4
def hdrFloor (h : List Byte) : Nat := leAt h 16 4
def hdrLength (h : List Byte) : Nat := leAt h 20 4

/-- First REASON that applies to a container, 0 where it passes: header h, body read from body (R462). -/
def State.imageReason (s : State) (h : List Byte) (body : Nat → List Byte) (c : Fin 7) : Byte :=
  if !hdrMagic h then 1
  else if leAt h 6 2 ≠ compCode c.val then 2
  else if slotSize c < hdrLength h + 256 ∨ runSize c < hdrLength h then 3
  else if 3 < leAt h 80 1 ∨ !ecdsaVerify (Config.imageKey (leAt h 80 1)) (slice h 0 96) (BitVec.ofNat 768 (ofBe (slice h 96 96))) then 4
  else if sha384 (body (hdrLength h)) ≠ BitVec.ofNat 384 (ofBe (slice h 32 48)) then 5
  else if hdrSvn h < s.rollback c (hdrFamily h) then 6
  else if (c.val < 3 ∧ hdrFamily h ≠ 0) ∨ (c.val = 3 ∧ hdrFamily h ≠ 1) then 7
  else 0

/-! ### Staging (R463, R464) -/

def stagingSize : Nat := 0x400000
/-- n staged bytes from offset o; what no write has programmed reads FFh (log 32). -/
def State.stagedBytes (s : State) (o n : Nat) : List Byte :=
  (((List.range ((o % 256 + n + 255) / 256)).flatMap (fun i =>
    let b := Tbl.get [] s.cairn.staging (o / 256 + i)
    if b.isEmpty then List.replicate 256 0xFF else b)).drop (o % 256)).take n

/-- Bytes cut into blocks of 256. -/
def blocks : Nat → List Byte → List (List Byte)
  | 0, _ => []
  | n + 1, bs => bs.take 256 :: blocks n (bs.drop 256)

/-- A write by an agent: none where it is BUSY (R463). -/
def State.stageWrite (s : State) (who : Holder) (o : Nat) (bs : List Byte) (programmed : Bool) : Option State :=
  let c := s.cairn
  if c.holder ≠ who ∧ ¬(o = 0 ∧ c.holder = .none_) then none
  else
    let c := if o = 0 then { c with holder := who, staging := [] } else c
    let st := ((blocks (bs.length / 256) bs).zipIdx).foldl (fun t e => Tbl.put [] t (o / 256 + e.2) (if programmed then e.1 else [])) c.staging
    some (s.setCairn { c with staging := st, stagedAt := s.raw, imgReason := if programmed then c.imgReason else 8 })

/-- IMG_WRITE once fetched. -/
def State.imgWriteOp (s : State) (x : Desc) (bytes : List Byte) (programmed : Bool) (o : Op) : State :=
  let off := dnum x 4 4
  let len := dnum x 8 4
  if !reservedZero x [(4, 0, 32), (8, 0, 32), fAddr] || len % 256 != 0 || decide (0x10000 < len) || off % 256 != 0 || decide (stagingSize < off + len) then
    s.complete o 0x32
  else if o.dom ≠ 0 then s.complete o 0x31
  else if !s.inWindow o.dom (daddr x).toNat len true false then s.complete o 0x30
  else match s.stageWrite .owner off bytes programmed with
    | none => s.complete o 0x33
    | some s => s.complete o (if programmed then 0x00 else 0x32)

/-- IMG_WRITE. -/
def execImgWrite (d : Dom) (n : RingNo) (x : Desc) (bytes : List Byte) (programmed : Bool) (s : State) : Result :=
  if !s.ringOn d n 2 then .next s
  else if dnum x 8 4 ≤ 0x10000 ∧ bytes.length ≠ dnum x 8 4 then .fault .dataLength
  else finish (s.command d n x (fun s op => s.imgWriteOp x bytes programmed op) true)

/-- STAGING_HOLDER_TIMEOUT: 300 s (R463). -/
def execStagingHolderTimeout (s : State) : Result :=
  if s.cairn.holder = .none_ ∨ s.cairn.activating.any (fun a => a.who == s.cairn.holder) then .next s
  else
    let s := s.waitFrom s.cairn.stagedAt (sec 300)
    finish (s.setCairn { s.cairn with holder := .none_ })

/-! ### Confirmation and reversion (R466, R467) -/

/-- The active slot is confirmed: its rollback counter rises to FLOOR (R467). -/
def State.confirm (s : State) (c : Fin 7) : State :=
  let x := s.comp c
  let s := s.setComp c { x with trial := false, runs := false, spoiled := false }
  let f := min 63 x.active.floor
  match counterIx c x.active.family.toNat with
  | none => s
  | some i =>
    if s.belay.otp.rollback[i] < f then
      (s.setOtp { s.belay.otp with rollback := s.belay.otp.rollback.set i f }).record devCode 2 false 0x0D 0x04 (BitVec.ofNat 32 i.val) (BitVec.ofNat 32 f)
    else s

/-- The other slot becomes active again, with its record and event. -/
def State.makeOther (s : State) (c : Fin 7) : State :=
  let x := s.comp c
  let s := s.setComp c { x with activeB := !x.activeB, trial := false, runs := false, spoiled := false }
  (s.record devCode 4 false 0x0D 0x03 (BitVec.ofNat 32 (compCode c.val)) (BitVec.ofNat 32 (b2n (!x.activeB)))).crnEvent 10

/-- The other slot may take over: its SVN is at least the rollback counter (R467). -/
def State.otherOk (s : State) (c : Fin 7) : Bool := s.slotPasses c ((s.comp c).slot (!(s.comp c).activeB))

/-- Every core is RUNNING (R466). -/
def State.coresRun (s : State) : Bool := coreIds.all (fun c => decide ((s.core c).state = .running))

/-- The component in trial runs, and meets its condition apart from the 10 s: no fault and no restart by Belay since its safe point, and the
service firmware can run them within 30 s of its restart (R466). -/
def State.confirmable (s : State) (c : Fin 7) : Bool :=
  (s.comp c).trial && (s.comp c).runs && !(s.comp c).spoiled && (c != 1 || (s.cairn.running && decide (s.cairn.runAt.toNat ≤ s.cairn.restartAt.toNat + sec 20)))
    && (c != 2 || s.coresRun)

/-- The raw instant since which a component runs: Belay, the service firmware, the core that started last (R466). -/
def State.runsSince (s : State) (c : Fin 7) : DWord :=
  if c = 0 then s.cairn.belayAt else if c = 1 then s.cairn.runAt
  else coreIds.foldl (fun t i => if t < (s.core i).runAt then (s.core i).runAt else t) 0

/-- IMG_CONFIRM: the component has run 10 s. -/
def execImgConfirm (c : Fin 7) (s : State) : Result :=
  if s.confirmable c then finish ((s.waitFrom (s.runsSince c) (sec 10)).confirm c) else .next s

/-- The gateway cores reload one at a time, from GC3 down; each core's duties move and come back (R466). -/
def State.reloadCores (s : State) : State :=
  [3, 2, 1, 0].foldl (fun s (c : CoreId) =>
    let x := s.core c
    if x.state = .running then ((s.setCore c { x with state := .halted }).moveDuties c false).coreRuns c
    else if x.state = .halted ∧ x.wantsFw then s.coreRuns c
    else s) s

/-- The safe point of a component whose active slot has changed: 1 by an activation, 2 by a reversion (R466). -/
def State.safePoint (s : State) (c : Fin 7) (why : Nat) : State :=
  if c = 1 then s.restartFor why else if c = 2 then s.reloadCores else s

/-- IMG_REVERT: a component in trial that runs is not confirmed. -/
def execImgRevert (c : Fin 7) (s : State) : Result :=
  if (s.comp c).trial && (s.comp c).runs && s.otherOk c then finish ((s.makeOther c).safePoint c 2) else .next s

/-! ### Activation (R465, R466) -/

def State.clearAbsent (s : State) (i : Nat) : State := { s with dev := { s.dev with absent := s.dev.absent &&& ~~~ (BitVec.ofNat 4 (2 ^ i)) } }

/-- REASON of an activation of a slot as it stands. -/
def State.inPlaceReason (s : State) (c : Fin 7) (x : Slot) (programmed : Bool) : Byte :=
  if !x.present then 9 else if !s.slotPasses c x then 6 else if !programmed then 8 else 0

/-- What the engine image store holds of a slot: the body of its container (R390). -/
def imageOf (y : Slot) : ImgEntry := { valid := true, family := if y.bytes.isEmpty then 1 else y.family, body := y.bytes.drop 256 }

/-- The slot is active, in trial; then the safe point, and for a Spur entry the confirmation (R390, R466). -/
def State.activated (s : State) (dom : BitVec 5) (c : Fin 7) (b : Bool) : State :=
  let x := s.comp c
  let y := x.slot b
  let s := s.setComp c { x with activeB := b, trial := true, runs := c == 1 || c == 2, spoiled := false }
  let s := s.record dom 2 false 0x0D 0x01 (BitVec.ofNat 32 (compCode c.val)) (BitVec.ofNat 32 (b2n b + 256 * ((slotSvn c.val y).toNat % 2 ^ 24)))
  if c.val < 3 then
    let s := if c = 1 then s.clearAbsent 0 else if c = 2 then s.clearAbsent 1 else s
    s.safePoint c 1
  else
    let i : Fin 4 := fin 4 (c.val - 3)
    let g := (s.spur.images[i]).gen
    let s := { s with spur := { s.spur with images := s.spur.images.set i { imageOf y with gen := g + 1 } } }
    (if i = 0 then s.clearAbsent 2 else s).confirm c

/-- What a slot holds once the staged container with header h, which passed R462, is in it. -/
def State.stagedSlot (s : State) (h : List Byte) : Slot :=
  { bytes := h ++ s.stagedBytes 256 (hdrLength h), present := true, passes := true, family := BitVec.ofNat 8 (hdrFamily h), svn := BitVec.ofNat 32 (hdrSvn h),
    floor := hdrFloor h }
/-- An activation that no BUSY case stops begins: the container decides its REASON; a slot to be written is erased first (R465). -/
def State.beginActivation (s : State) (dom : BitVec 5) (who : Holder) (c : Fin 7) (slot : Nat) (programmed : Bool) (o : Option Op) : State :=
  let b := slot % 2 == 1
  let inPlace := decide (128 ≤ slot)
  let h := s.stagedBytes 0 256
  let r := if inPlace then s.inPlaceReason c ((s.comp c).slot b) programmed
    else (let r := s.imageReason h (fun n => s.stagedBytes 256 n) c
          if r ≠ 0 then r else if !programmed then 8 else 0)
  let s := if !inPlace && (r == 0 || r == 8) then s.setComp c ((s.comp c).setSlot b {}) else s
  s.setCairn { s.cairn with
    imgComponent := BitVec.ofNat 16 (compCode c.val),
    activating := some { who := who, dom := dom, comp := c, slotB := b, inPlace := inPlace, reason := r, image := if !inPlace && r == 0 then s.stagedSlot h else {}, op := o } }

/-- The activation ends: the slot is written and active in trial, or REASON and a record; IMG_DONE, the end of the holding, and the completion
of an IMG_ACTIVATE; in the recovery path a warm reset is due after it (R463, R465, R488). -/
def State.endActivation (s : State) : State :=
  match s.cairn.activating with
  | none => s
  | some a =>
    let s := s.setCairn { s.cairn with activating := none, holder := if s.cairn.holder = a.who then .none_ else s.cairn.holder }
    let s := if a.reason = 0 then
        let s := if a.inPlace then s else s.setComp a.comp ((s.comp a.comp).setSlot a.slotB a.image)
        let s := s.activated a.dom a.comp a.slotB
        { s with dev := { s.dev with reboot := s.dev.recovery } }
      else (s.setCairn { s.cairn with imgReason := a.reason }).record a.dom 3 false 0x0D 0x02 (BitVec.ofNat 32 (compCode a.comp.val)) (a.reason.setWidth 32)
    let s := s.crnEvent 9
    match a.op with
    | some o => s.complete o (if a.reason = 0 then 0x00 else 0x32)
    | none => s

def slotOk (slot : Nat) : Bool := slot == 0 || slot == 1 || slot == 0x80 || slot == 0x81
/-- The slot to install into is the component's active slot (R465). -/
def State.slotBusy (s : State) (c : Fin 7) (slot : Nat) : Bool := decide (slot < 128) && ((slot == 1) == (s.comp c).activeB)

/-- IMG_ACTIVATE once fetched: one activation runs at a time, and the recovery path takes component 0001h only (R465, R488). -/
def State.imgActivateOp (s : State) (x : Desc) (programmed : Bool) (o : Op) : State :=
  let slot := dnum x 6 1
  match compIx (dnum x 4 2) with
  | none => if o.dom ≠ 0 ∧ reservedZero x [(4, 0, 16), (6, 0, 8)] then s.complete o 0x31 else s.complete o 0x32
  | some c =>
    if !reservedZero x [(4, 0, 16), (6, 0, 8)] || !slotOk slot then s.complete o 0x32
    else if o.dom ≠ 0 then s.complete o 0x31
    else if s.dev.recovery && c != 0 then s.complete o 0x32
    else if s.cairn.activating.isSome || s.slotBusy c slot then s.complete o 0x33
    else s.beginActivation (domCode o.dom) .owner c slot programmed (some o)

/-- IMG_ACTIVATE. -/
def execImgActivate (d : Dom) (n : RingNo) (x : Desc) (programmed : Bool) (s : State) : Result :=
  if s.ringOn d n 2 then finish (s.command d n x (fun s op => s.imgActivateOp x programmed op) true) else .next s

end Sys2Proof.Machine
end

