-- ==== Sys2Proof/Machine/Smbus.lean ====
section
/-! DEFINITION. Management over SMBus: MCTP control and Hetrum messages (R455 to R458). -/
namespace Sys2Proof.Machine

/-! ### The SMBus and its packets (R455; packets of DMTF DSP0236 and DSP0237, log 73) -/

/-- Packet error code: CRC-8 of the bytes of the transaction, address byte included (SMBus 3.1). -/
def pec (bs : List Byte) : Byte :=
  BitVec.ofNat 8 (bs.foldl (fun c b => (List.range 8).foldl (fun c _ => if 128 ≤ c then (2 * c % 256) ^^^ 7 else 2 * c) (c ^^^ b.toNat)) 0)

/-- One packet as a block write: addresses, command code 0Fh, count, MCTP header, at most 64 bytes of the message, PEC. -/
def mctpPacket (to_ from_ toEid fromEid flags : Byte) (body : List Byte) : List Byte :=
  let p := [2 * to_, 0x0F, BitVec.ofNat 8 (body.length + 5), 2 * from_ + 1, 0x01, toEid, fromEid, flags] ++ body
  p ++ [pec p]

/-- A message cut into the baseline transmission unit of 64 bytes. -/
def chunks64 : Nat → List Byte → List (List Byte)
  | 0, _ => []
  | n + 1, bs => if bs.length ≤ 64 then [bs] else bs.take 64 :: chunks64 n (bs.drop 64)

/-- Flags of packet i of n: SOM, EOM, the sequence number, TO and the tag. -/
def mctpFlags (i n : Nat) (tag : BitVec 4) : Byte := BitVec.ofNat 8 (128 * b2n (i == 0) + 64 * b2n (i + 1 == n) + 16 * (i % 4) + tag.toNat)

/-- The packets in which the device sends a message as bus master, with every PEC. -/
def State.mctpPackets (s : State) (bs : List Byte) : List (List Byte) :=
  let cs := chunks64 bs.length bs
  cs.zipIdx.map (fun e => mctpPacket (Config.manager s.free) (BitVec.ofNat 8 (s.rf (.crn .smb) 0 7)) (Config.managerEid s.free) s.cairn.eid
    (mctpFlags e.2 cs.length (Config.mctpTag s.free)) e.1)

/-- A transaction that the device takes: at its address, with a right PEC; its flags and its part of a message. -/
def State.smbusTake (s : State) (p : List Byte) : Option (Byte × List Byte) :=
  let n := p.length
  let eid := p.getD 5 0
  if 9 ≤ n ∧ n ≤ 73 ∧ leAt p 0 1 = 2 * s.rf (.crn .smb) 0 7 ∧ p.getD 1 0 = 0x0F ∧ leAt p 2 1 + 4 = n ∧ leAt p 4 1 % 16 = 1 ∧ (eid = 0 ∨ eid = s.cairn.eid)
      ∧ pec (p.take (n - 1)) = p.getD (n - 1) 0 then
    some (p.getD 7 0, (p.take (n - 1)).drop 8)
  else none

/-- Further packets of a message: their sequence numbers rise, they share TO and tag, and EOM stands in the last. -/
def mctpRest (flags : Byte) (acc : List Byte) : List (Byte × List Byte) → Option (List Byte)
  | [] => if flags.getLsbD 6 then some acc else none
  | (f, b) :: rest =>
    if !flags.getLsbD 6 && !f.getLsbD 7 && f.toNat / 16 % 4 == (flags.toNat / 16 + 1) % 4 && f.toNat % 16 == flags.toNat % 16 then mctpRest f (acc ++ b) rest
    else none

/-- The message that transactions carry, of at most 1280 bytes; none where they make none. A row of the table with a request stands for one
that has come whole. -/
def State.mctpMessage (s : State) (ps : List (List Byte)) : Option (List Byte) :=
  match ps.mapM s.smbusTake with
  | some ((f, b) :: rest) => if f.getLsbD 7 then (mctpRest f b rest).filter (fun m => decide (m.length ≤ 1280)) else none
  | _ => none

/-- A message sent, while the service firmware runs. -/
def State.answer (s : State) (bs : List Byte) : State := s.emit (.smbus bs)
def State.whileUp (s : State) (f : State → State) : Result := if s.cairn.running then finish (f s) else .next s

/-! ### MCTP control (R456; layouts of DMTF DSP0236, log 15) -/

/-- Type 00h, the command and its completion code with data; the Rq, D and instance byte of DSP0236 is left out (log 15). -/
def State.control (s : State) (cmd : Byte) (bs : List Byte) : State := s.answer ([0x00, cmd] ++ bs)

/-- SET_ENDPOINT_ID: 00h and FFh are no endpoint IDs. -/
def execSetEndpointId (eid : Byte) (s : State) : Result :=
  s.whileUp (fun s =>
    if eid = 0 ∨ eid = 0xFF then s.control 0x01 [0x02, 0x00, s.cairn.eid, 0x00]
    else (s.setCairn { s.cairn with eid := eid }).control 0x01 [0x00, 0x00, eid, 0x00])

/-- GET_ENDPOINT_ID: a simple endpoint with a dynamic ID. -/
def execGetEndpointId (s : State) : Result := s.whileUp (fun s => s.control 0x02 [0x00, s.cairn.eid, 0x00, 0x00])

/-- GET_ENDPOINT_UUID. -/
def execGetEndpointUuid (s : State) : Result := s.whileUp (fun s => s.control 0x03 ([0x00] ++ beBytes 16 Config.mctpUuid.toNat))

/-- GET_MCTP_VERSION_SUPPORT: the base (FFh) and the two message types. -/
def execGetMctpVersionSupport (msgType : Byte) (s : State) : Result :=
  s.whileUp (fun s =>
    if msgType = 0xFF ∨ msgType = 0x00 ∨ msgType = 0x7E then s.control 0x04 ([0x00] ++ Config.mctpVersions msgType.toNat) else s.control 0x04 [0x80])

/-- GET_MESSAGE_TYPE_SUPPORT: exactly 00h and 7Eh. -/
def execGetMessageTypeSupport (s : State) : Result := s.whileUp (fun s => s.control 0x05 [0x00, 0x02, 0x00, 0x7E])

/-- GET_VENDOR_DEFINED_MSG_SUPPORT: one entry, Hetrum's Vendor ID with VERSION 01h. -/
def execGetVendorDefinedMsgSupport (selector : Byte) (s : State) : Result :=
  s.whileUp (fun s =>
    if selector = 0 then s.control 0x06 ([0x00, 0xFF, 0x00] ++ beBytes 2 Config.vendorId.toNat ++ [0x00, 0x01]) else s.control 0x06 [0x02])

/-! ### Hetrum messages (R457) -/

/-- Header of a response. -/
def hetrumHead (inst : BitVec 5) (cmd comp : Byte) : List Byte := [0x7E] ++ beBytes 2 Config.vendorId.toNat ++ [0x01, BitVec.ofNat 8 inst.toNat, cmd, comp]
def State.respond (s : State) (inst : BitVec 5) (cmd comp : Byte) (data : List Byte) : State := s.answer (hetrumHead inst cmd comp ++ data)

/-- A request with a right and a length: NO_RIGHT before INVALID (log 15). -/
def State.request (s : State) (inst : BitVec 5) (cmd : Byte) (right : Bool) (lenOk : Bool) (f : State → State) : Result :=
  s.whileUp (fun s => if !right then s.respond inst cmd 0x01 [] else if !lenOk then s.respond inst cmd 0x02 [] else f s)

def State.smbRight (s : State) (i : Nat) : Bool := s.rb .domSmb i

/-- Every sensor register, in the order of GET_SENSORS; bits [15:0] of each are 60 bytes. -/
def SensorReg.all : List SensorReg :=
  (List.finRange 6).map .temp ++ (List.finRange 8).map .rail ++ (List.finRange 12).map .pace ++ (List.finRange 4).map .age
def State.sensorBytes (s : State) : List Byte := SensorReg.all.flatMap (fun q => leBytes 2 (s.sensorView q).toNat)

def execGetSensors (inst : BitVec 5) (req : List Byte) (s : State) : Result :=
  s.request inst 0x01 (s.smbRight 0) req.isEmpty (fun s => s.respond inst 0x01 0x00 (s.sensorBytes ++ leBytes 4 s.mstat.toNat))

/-- SET_MODE: DEV_MODE under R441. -/
def execSetMode (inst : BitVec 5) (req : List Byte) (s : State) : Result :=
  s.request inst 0x02 (s.smbRight 5) (req.length == 4) (fun s =>
    let (r, s) := s.writeMode 0x11 (BitVec.ofNat 32 (leAt req 0 4))
    if r = 3 then s.respond inst 0x02 0x03 [] else if r ≠ 0 then s.respond inst 0x02 0x06 []
    else s.respond inst 0x02 0x00 (leBytes 4 s.mstat.toNat))

/-- GET_ATTEST: DOMAIN FFh, SCOPE 2. -/
def execGetAttest (inst : BitVec 5) (req : List Byte) (s : State) : Result :=
  s.request inst 0x03 (s.smbRight 1) (req.length == 32) (fun s => (s.attestRecord 0x11 2 req).respond inst 0x03 0x00 (s.report 0xFF 2 0 req))

/-- GET_LOG: INFO0, the number of records after the head, head and records. -/
def execGetLog (inst : BitVec 5) (req : List Byte) (s : State) : Result :=
  let n := leAt req 4 1
  s.request inst 0x04 (s.smbRight 2 || s.smbRight 3) (req.length == 5 && decide (1 ≤ n ∧ n ≤ 60)) (fun s =>
    let (rs, next) := s.snapshot s.smbusView (leAt req 0 4) n
    s.respond inst 0x04 0x00 (leBytes 4 next ++ leBytes 2 rs.length ++ s.snapshotBytes rs))

/-- STAGE. -/
def execStage (inst : BitVec 5) (req : List Byte) (programmed : Bool) (s : State) : Result :=
  let o := leAt req 0 4
  s.request inst 0x05 (s.smbRight 4) (req.length == 260 && o % 256 == 0 && decide (o + 256 ≤ stagingSize)) (fun s =>
    match s.stageWrite .smbus o (req.drop 4) programmed with
    | none => s.respond inst 0x05 0x03 []
    | some s => s.respond inst 0x05 (if programmed then 0x00 else 0x05) [])

/-- ACTIVATE: the response is sent on acceptance, and the activation runs on; one runs at a time (R465). -/
def execActivate (inst : BitVec 5) (req : List Byte) (programmed : Bool) (s : State) : Result :=
  let slot := leAt req 2 1
  s.request inst 0x06 (s.smbRight 4) (req.length == 3 && slotOk slot && (compIx (leAt req 0 2)).isSome) (fun s =>
    match compIx (leAt req 0 2) with
    | none => s
    | some c => if s.cairn.activating.isSome || s.slotBusy c slot then s.respond inst 0x06 0x03 []
      else (s.respond inst 0x06 0x00 []).beginActivation 0x11 .smbus c slot programmed none)

/-- GET_STATUS. -/
def execGetStatus (inst : BitVec 5) (req : List Byte) (s : State) : Result :=
  s.request inst 0x07 true req.isEmpty (fun s =>
    s.respond inst 0x07 0x00 (leBytes 4 s.imgstat.toNat ++ (List.finRange 7).flatMap (fun c => leBytes 4 (s.slotWord c).toNat) ++ leBytes 4 s.cairn.smbEvt.toNat))

/-- SMBUS_RESET: a warm reset follows within 10 ms. -/
def execSmbusReset (inst : BitVec 5) (req : List Byte) (s : State) : Result :=
  s.request inst 0x08 (s.smbRight 6) req.isEmpty (fun s => (s.respond inst 0x08 0x00 []).setCairn { s.cairn with resetDue := true })

/-- CLEAR_ALERT. -/
def execClearAlert (inst : BitVec 5) (req : List Byte) (s : State) : Result :=
  s.request inst 0x09 true (req.length == 4) (fun s =>
    let e := s.cairn.smbEvt &&& ~~~ (BitVec.ofNat 12 (leAt req 0 4))
    (s.setCairn { s.cairn with smbEvt := e }).respond inst 0x09 0x00 (leBytes 4 e.toNat))

/-! ### SMB_ALERT# and messages that are not supported (R456, R458) -/

/-- SMB_ALERT# is asserted. -/
def State.smbAlert (s : State) : Bool := s.rb (.crn .smb) 7 && s.cairn.smbEvt != 0

/-- ALERT_RESPONSE: the device's address in the upper seven bits. -/
def execAlertResponse (s : State) : Result :=
  if s.cairn.running && s.smbAlert then finish (s.answer [BitVec.ofNat 8 (2 * s.rf (.crn .smb) 0 7)]) else .next s

/-- A Hetrum request with an unknown VERSION or COMMAND (R457). -/
def hetrumUnknown (bs : List Byte) : Bool :=
  decide (6 ≤ bs.length) && leAt bs 0 1 == 0x7E && slice bs 1 2 == beBytes 2 Config.vendorId.toNat && decide (128 ≤ leAt bs 4 1)
    && (leAt bs 3 1 != 1 || leAt bs 5 1 == 0 || decide (9 < leAt bs 5 1))

/-- A control request whose command the device does not support. -/
def controlUnknown (bs : List Byte) : Bool :=
  decide (3 ≤ bs.length) && leAt bs 0 1 == 0 && decide (128 ≤ leAt bs 1 1) && (leAt bs 2 1 == 0 || decide (6 < leAt bs 2 1))

/-- UNSUPPORTED_MCTP_MESSAGE, as its packets come: discarded, but for a request that the layer of its type answers. -/
def execUnsupportedMctpMessage (packets : List (List Byte)) (s : State) : Result :=
  match s.mctpMessage packets with
  | none => .next s
  | some bytes =>
    if hetrumUnknown bytes then s.whileUp (fun s => s.respond (BitVec.ofNat 5 (leAt bytes 4 1)) (bytes.getD 5 0) 0x04 [])
    else if controlUnknown bytes then s.whileUp (fun s => s.control (bytes.getD 2 0) [0x05])
    else .next s

end Sys2Proof.Machine
end

