-- ==== Sys2Proof/Machine/SelfTest.lean ====
section
/-! DEFINITION. On-demand self-test of ports, engines and links (R469 to R472). -/
namespace Sys2Proof.Machine

def testPort (t : SelfTest) : PortId := fin 32 t.index
def testEngine (t : SelfTest) : EngId := fin 34 t.index
def testLink (t : SelfTest) : LinkId := fin 4 t.index

/-- SELF_TEST completes BUSY (R470). -/
def State.testBusy (s : State) (t : SelfTest) : Bool :=
  if t.kind = 0 then
    let p := testPort t
    let st := (s.port p).state
    (s.liveGroup p).isSome || st == .sleep || st == .busoff || st == .isolated || ((running st || st == .hold) && !t.force)
  else if t.kind = 1 then
    let st := (s.engine (testEngine t)).state
    st == .loading || st == .testing || (st == .active && !t.force) || (t.force && s.standby.isEmpty)
  else !((s.link (testLink t)).state == .down) && !t.force

/-- The test that is to run starts, or waits for its quiet point, its swap or its idle block (R469). -/
def State.beginTest (s : State) (t : SelfTest) : State :=
  let wait (s : State) : State := s.setCairn { s.cairn with test := some t }
  let start (s : State) : State := s.setCairn { s.cairn with test := some { t with started := true, force := false } }
  if t.kind = 0 then (if halted (s.port (testPort t)).state then start s else wait s)
  else if t.kind = 1 then
    let e := testEngine t
    let x := s.engine e
    if x.state = .active then
      let s := wait s
      if s.spur.swap.isNone then s.swapChoose x.port s.spur.portImage[x.port] else s
    else start (s.setEngine e { x with state := .testing })
  else if (s.link (testLink t)).state = .down then start s else wait s

/-- Tests that wait have their turn, in order; those that find BUSY complete (R469, R470). -/
def State.nextTest (s : State) : Nat → State
  | 0 => s
  | fuel + 1 =>
    if s.cairn.test.isSome then s
    else match s.cairn.tests with
      | [] => s
      | t :: rest =>
        let s := s.setCairn { s.cairn with tests := rest }
        if s.testBusy t then State.nextTest (s.complete t.op 0x33) fuel
        else s.beginTest t

def State.turnTests (s : State) : State := s.nextTest (s.cairn.tests.length + 1)

/-- SELF_TEST once fetched. -/
def State.selfTestOp (s : State) (x : Desc) (o : Op) : State :=
  let kind := dnum x 4 1
  let i := dnum x 5 1
  let limit := if kind = 0 then 32 else if kind = 1 then 34 else 4
  if !reservedZero x [(4, 0, 8), (5, 0, 8), (6, 0, 1)] || decide (2 < kind) || decide (limit ≤ i) then s.complete o 0x32
  else if (if kind = 0 then decide (s.portOwner (fin 32 i) ≠ o.dom) else decide (o.dom ≠ 0)) then
    s.complete o 0x31
  else
    let t : SelfTest := { op := o, kind := kind, index := i, force := dbit x 6 0 }
    (s.setCairn { s.cairn with tests := s.cairn.tests ++ [t] }).turnTests

/-- SELF_TEST. -/
def execSelfTest (d : Dom) (n : RingNo) (x : Desc) (s : State) : Result :=
  if s.ringOn d n 2 then finish (s.command d n x (fun s op => s.selfTestOp x op)) else .next s

/-- A port under a forced test shows HOLD with PRIOR the state before, and takes no part in the bus (R471). -/
def State.forcePort (s : State) (t : SelfTest) : State :=
  let p := testPort t
  let x := s.port p
  let held := x.state == .hold
  let s := s.setCairn { s.cairn with test := some { t with
    started := true, heldPrior := if held then x.prior else .off, heldEnd := if held then x.holdEnd else none } }
  s.showPort p { x with state := .hold, prior := x.state, holdEnd := none, joined := false, busIdle := false }

/-- The quiet point of a forced test has come. -/
def State.forcedStart (s : State) (t : SelfTest) : State :=
  if s.testBusy t then
    ((s.setCairn { s.cairn with test := none }).complete t.op 0x33).turnTests
  else if t.kind = 0 then (if halted (s.port (testPort t)).state then s.beginTest t else s.forcePort t)
  else if t.kind = 1 then s.beginTest t
  else if (s.link (testLink t)).state = .down then s.beginTest t
  else (s.linkDown (testLink t) .down).setCairn { (s.linkDown (testLink t) .down).cairn with test := some { t with started := true } }

/-- SELF_TEST_FORCED_START: the port's quiet point, or the link's next idle block. -/
def execSelfTestForcedStart (s : State) : Result :=
  match s.cairn.test with
  | none => if s.cairn.tests.isEmpty then .next s else finish s.turnTests
  | some t => if t.started || (t.kind == 0 && !s.quiet (testPort t)) then .next s else finish (s.forcedStart t)

/-- A tested port goes back to PRIOR; one that was held goes on with its hold. Where its engine was lost during the test, the port stays ISOLATED,
with PRIOR what the test would have restored (R472). -/
def State.restorePort (s : State) (t : SelfTest) : State :=
  let p := testPort t
  let x := s.port p
  if x.state = .isolated ∧ x.prior = .hold then
    if x.holdReturn = .hold then
      s.setPort p { x with holdReturn := t.heldPrior, holdKept := some (match t.heldEnd with
        | some due => BitVec.ofNat 32 (s.usLeft due)
        | none => 0xFFFFFFFF) }
    else s.setPort p { x with prior := x.holdReturn, holdReturn := .off, holdKept := none }
  else if x.state ≠ .hold then s
  else if x.prior = .hold then
    let due := match x.holdPending with
      | some w => s.holdDue w
      | none => t.heldEnd
    s.setPort p { x with prior := t.heldPrior, holdEnd := due, holdPending := none }
  else (s.showPort p { x with state := x.prior, prior := .off }).holdArrives p

/-- A port whose test has failed is STOPPED, whatever has become of it since the test began (R469); a member of a group that runs leaves it. -/
def State.failPort (s : State) (p : PortId) : State :=
  match s.liveGroup p with
  | some k => if s.anchor k = p then s.stopGroup k 10 else s.branchOut k p
  | none => match (s.port p).state with
    | .stopped => s
    | .off => s.showPort p { s.port p with state := .stopped }
    | .sleep => s.toAwake p
    | _ => s.toStopped p 10

/-- What the end of a test does to its resource (R469, R472). -/
def State.testOutcome (s : State) (t : SelfTest) (failed : Bool) : State :=
  if t.kind = 0 then
    let p := testPort t
    if failed then s.failPort p else if t.force then s.restorePort t else s
  else if t.kind = 1 then
    let e := testEngine t
    if (s.engine e).state ≠ .testing then s
    else if failed then s.faultEngine e 5
    else
      let i := s.spareEntry e
      let img := s.spur.images[i]
      (s.setEngine e { s.engine e with image := i, held := img.valid, gen := img.gen }).enterStandby e
  else
    let k := testLink t
    if failed then ((s.setRf (.rl k .cfg) 0 1 0).setLink k { s.link k with state := .down }).insertLinks
    else if s.rb (.rl k .cfg) 0 then s.setLink k { s.link k with state := .aligning } else s

/-- The stop of a reclaim that met a forced self-test: the port, which has its state again, is taken to STOPPED (R31, R471). -/
def State.reclaimStop (s : State) (p : PortId) : State := if halted (s.port p).state then s else s.stopAccepted p

/-- Commands held back by a forced test take effect (R471). -/
def State.replayTest (s : State) : State :=
  let cmds := s.cairn.deferred
  let holds := s.cairn.deferredHolds
  let s := s.setCairn { s.cairn with deferred := [], deferredHolds := [] }
  let s := cmds.foldl (fun s h => match h with
    | .portCmd d p c => if s.portOwner p = d then s.portRequest d p c else s
    | .reclaimStop p => s.reclaimStop p
    | _ => s) s
  holds.foldl (fun s h => s.holdPort h.2.1 h.2.2 (some h.1)) s

/-- INFO0 of a test (R472). -/
def testInfo (failed : Bool) (block : Byte) (us : Half) : Word :=
  BitVec.ofNat 32 (b2n failed + 256 * (if failed then block.toNat else 0) + 65536 * us.toNat)

/-- SELF_TEST_END. -/
def execSelfTestEnd (failed : Bool) (block : Byte) (us : Half) (s : State) : Result :=
  match s.cairn.test with
  | none => .next s
  | some t =>
    if !t.started then .next s
    else
      let info := testInfo failed block us
      let s := (s.testOutcome t failed).setCairn { (s.testOutcome t failed).cairn with test := none }
      let s := s.record (domCode t.op.dom) (if failed then 4 else 2) false 0x0E 0x01 (BitVec.ofNat 32 (t.kind + 256 * t.index)) info
      let s := s.complete t.op 0x00 info
      finish s.replayTest.turnTests

end Sys2Proof.Machine
end

