-- ==== Sys2Proof/Machine/Boot.lean ====
section
/-! DEFINITION. Resets and the boot (R474 to R488). -/
namespace Sys2Proof.Machine

/-! ### Power-on and warm reset (R478 to R481) -/

/-- BOOT of the fabric's frames is drawn anew in the boot that follows each power-on and warm reset (R352, R369, log 37). -/
def State.newBoot (s : State) : Byte := (Config.drbg s.free).setWidth 8

/-- What power-on reset leaves while it is in force: OTP and flash, the surroundings (bank supplies, PERST#, the tester), and the model's own
queue, record and draws (R477, R478, R479). -/
def State.powerOn (s : State) : State :=
  { State.reset with
    pending := s.pending, out := s.out, free := s.free,
    belay := { otp := s.belay.otp },
    cairn := { comps := s.cairn.comps, layouts := s.cairn.layouts, staging := s.cairn.staging },
    dev := { stage := .held, banks := s.dev.banks, hostDown := s.dev.hostDown, tap := s.dev.tap } }

/-- POWER_ON_RESET: the device is held in power-on reset until BOOT, or time that passes, releases it (log 79). -/
def execPowerOnReset (s : State) : Result := .next s.powerOn

/-- Registers that a warm reset keeps whole: DOM_SMB, DEV_MODE, CRN_LOGCFG, CRN_SMB, TMU_EPOCH, TMU_SINT, the settings of the pulse outputs
(R32, R281, R440, R479). -/
def warmKeeps : Reg → Bool
  | .domSmb => true
  | .dev .mode => true
  | .crn .logcfg => true
  | .crn .smb => true
  | .tmu .epoch => true
  | .tmu .sint => true
  | .out _ .width => true
  | .out _ .start => true
  | .out _ .pint => true
  | .out _ .pfrac => true
  | .out _ .count => true
  | .out _ .cfg => true
  | _ => false

/-- Fields of a kept register that take their reset value all the same: ENABLE and what is not MODE, POL or DLY of a pulse output. -/
def warmValue (r : Reg) (w : DWord) : DWord :=
  match r with
  | .out _ .cfg => w &&& 0xFFFF0007
  | _ => w

def State.warmRegs (s : State) : RegFile :=
  (s.regs.filter (fun e => warmKeeps e.1)).foldl (fun f e => f.set e.1 (warmValue e.1 e.2)) []

/-- The time unit after a warm reset: RAW runs on, and OFS, ANCHOR, RATE and SINT keep their values; REFLOCK is 0 until the lock of the warm
boot (R273, R281, R487). -/
def State.warmTmu (s : State) : Tmu :=
  let t := s.tmu
  { started := t.started, raw := t.raw, par := t.par, past := t.past, integ := t.integ, epochs := t.epochs }

/-- The log after a warm reset; its ANCHOR stays good unless device time has been stepped since, and the count of steps starts again
(R447, R450). -/
def State.warmLog (s : State) : Log :=
  { s.log with anchor := (s.log.anchor.filter (fun a => a.2 == s.tmu.stepCnt)).map (fun a => (a.1, 0)) }

/-- Message objects after a warm reset: contents and configuration stay; OBJ_READs and sends have ended (R479). -/
def State.warmObjs (s : State) : State :=
  let s := doms.foldl (fun s d => s.endReads d) s
  { s with objs := Tbl.mapVal {} s.objs (fun _ x => { x with pending := false }) }

/-- What a warm reset leaves: nothing that its row does not name is reset, so Tarn, message objects, filter elements, gateway rules with their
inputs, traverse tables and route entries but for SEQ_TX stay (R364, R479). -/
def State.warm (s : State) (cause : BitVec 3) : State :=
  let c := s.cairn
  let o := s.warmObjs
  { State.reset with
    pending := s.pending, out := s.out, free := s.free,
    regs := s.warmRegs, tmu := s.warmTmu, log := s.warmLog,
    funcs := s.funcs.map (fun f => { epoch := f.epoch + 1, logInterval := f.logInterval, logCount := f.logCount, logDropped := f.logDropped }),
    tarn := o.tarn, objs := o.objs, flt := s.flt,
    groups := s.groups.map (fun g => { table := g.table }),
    routes := Tbl.mapVal {} s.routes (fun _ r => { r with seqTx := 0 }),
    fab := { last := s.fab.last },
    spur := { rules := s.spur.rules, inputs := s.spur.inputs },
    belay := { otp := s.belay.otp, debugUnlocked := s.belay.debugUnlocked },
    cairn := { comps := c.comps, layouts := c.layouts, staging := c.staging, felt := c.felt, railOut := c.railOut, paceOut := c.paceOut, ageLogged := c.ageLogged,
               mode := c.mode, vidAt := c.vidAt, vidNow := c.vidNow, vidBefore := c.vidBefore, reason := c.reason, fallbacks := c.fallbacks,
               hotSince := c.hotSince, coolSince := c.coolSince, alert := c.alert },
    dev := { stage := .otp, banks := s.dev.banks, hostDown := s.dev.hostDown, tap := s.dev.tap, cause := cause, warmCount := satHalf s.dev.warmCount } }

/-- A trigger during a warm reset is counted and ignored (R481). -/
def State.warmTrigger (s : State) (cause : BitVec 3) : State :=
  if !s.dev.ready && s.dev.cause != 1 then { s with dev := { s.dev with warmCount := satHalf s.dev.warmCount } } else s.warm cause

/-- DEV_RST: WARM with KEY A5h acts (R479). -/
def rstActs (v : Word) : Bool := v.getLsbD 0 && v.toNat / 256 % 256 == 0xA5

/-- WARM_RESET. -/
def execWarmReset (c : WarmCause) (s : State) : Result :=
  match c with
  | .register d v =>
    if !s.serves || !s.active d then .next s
    else if d ≠ 0 then finish (s.crossDomain d (Reg.dev .rst).off v)
    else if rstActs v then .next (s.warmTrigger 2) else .next s
  | .smbus => if s.cairn.resetDue then .next (s.warmTrigger 3) else .next s
  | .belayFault => .next (s.warmTrigger 4)
  | .recovered => if s.dev.reboot then .next (s.warmTrigger 4) else .next s

/-! ### Host reset (R481, R482, R485) -/

/-- Configuration space and MSI-X of every function. -/
def State.configReset (s : State) : State :=
  { s with
    dev := { s.dev with vfEnable := false, numVfs := 0 },
    funcs := s.funcs.map (fun f => { f with msixEnable := false, funcMask := false, vecTable := [], vecOpen := [], vecPending := [] }) }

/-- HOST_RESET: PERST# low, a hot reset or loss of the link; ports of every active domain are put on HOLD (R485). -/
def execHostReset (s : State) : Result :=
  let down := fun s : State => { s with dev := { s.dev with hostDown := true } }
  if s.dev.ready then finish (down s).pfReset.configReset else .next (down s)

/-- PERST_HIGH. -/
def execPerstHigh (s : State) : Result := .next { s with dev := { s.dev with hostDown := false } }

/-! ### Boot (R487, R488) -/

/-- The marks of the layout record that the boot ROM uses: those of the valid copy with the higher generation; where no copy is valid, slot A
of each component, not in trial (R460, log 71). -/
def State.bootMarks (s : State) : Vector (Bool × Bool) 7 :=
  let (x, y) := (s.cairn.layouts[0], s.cairn.layouts[1])
  if x.valid && !(y.valid && decide (x.gen < y.gen)) then x.marks else if y.valid then y.marks else Vector.replicate 7 (false, false)
def State.readLayout (s : State) : State :=
  let m := s.bootMarks
  s.setCairn { s.cairn with comps := Vector.ofFn (fun c : Fin 7 => { s.cairn.comps[c] with activeB := m[c].1, trial := m[c].2 }) }

/-- How a component comes up: its slots after the boot, whether the other slot took over, whether it is absent (R466, R467, R488). -/
def State.bootComp (s : State) (c : Fin 7) : Comp × Bool × Bool :=
  let x := s.comp c
  let other := s.slotPasses c (x.slot (!x.activeB))
  let swapped := { x with activeB := !x.activeB, trial := false, runs := false, spoiled := false }
  if x.trial && x.runs && other then (swapped, true, false)
  else if s.slotPasses c x.active then ({ x with runs := x.trial, spoiled := false }, false, false)
  else if other then (swapped, true, false)
  else (x, false, true)

/-- Bit of ABSENT for a component: the service firmware, the gateway firmware, Spur entry 0, the Belay monitor (DEV_RSTSTAT). -/
def absentBit (c : Fin 7) : BitVec 4 := if c = 0 then 8 else if c = 1 then 1 else if c = 2 then 2 else if c = 3 then 4 else 0

def State.setAbsent (s : State) (m : BitVec 4) : State := { s with dev := { s.dev with absent := s.dev.absent ||| m } }

/-- A component is verified: the boot's choice of slot with the record of a reversion, and ABSENT (R488). -/
def State.bootSlot (s : State) (c : Fin 7) : State :=
  let r := s.bootComp c
  let s := s.setComp c r.1
  let s := if r.2.1 then
      (s.record devCode 4 false 0x0D 0x03 (BitVec.ofNat 32 (compCode c.val)) (BitVec.ofNat 32 (b2n r.1.activeB))).crnEvent 10
    else s
  if r.2.2 then s.setAbsent (absentBit c) else s

/-- The engine image store as the boot fills it. -/
def bootImages (s : State) : Vector ImgEntry 4 :=
  Vector.ofFn (fun i : Fin 4 =>
    let c : Fin 7 := fin 7 (3 + i.val)
    let x := (s.comp c).active
    if s.slotPasses c x then imageOf x else {})

/-- Cores with their home duties, or HALTED without their firmware (R408, R411, R488). -/
def State.bootCores (s : State) : State :=
  let base : Spur := {}
  if s.dev.absent.getLsbD 1 then
    { s with spur := { s.spur with cores := Vector.replicate 4 { state := .halted, wantsFw := true }, duties := Vector.replicate 4 { core := none } } }
  else { s with spur := { s.spur with cores := base.cores.map (fun c : Core => { c with runAt := s.raw }), duties := base.duties } }

/-- The store, engines under the map of R2 with entry 0 loaded (R391). -/
def State.bootEngines (s : State) : State :=
  let base : Spur := {}
  let images := bootImages s
  { s with spur := { s.spur with
    images := images,
    engines := base.engines.map (fun e : Engine => { e.load images[(0 : Fin 4)] with data := e.data.map (fun _ => s.raw) }),
    attached := base.attached, portImage := base.portImage } }

/-- VID and FB_VID: 4, or VMIN_BC if higher; DEV_MODE is kept across a warm reset (R439, R440, R444). -/
def State.bootVid (s : State) : State :=
  let v := max 4 s.belay.otp.vminBc.toNat
  let s := s.setRf (.crn .gov) 24 4 v
  let s := s.setCairn { s.cairn with gov := (s.reg (.crn .gov)).setWidth 32 }
  if s.dev.cause = 1 then (s.setRf (.dev .mode) 4 4 v).setCairn { s.cairn with vidNow := BitVec.ofNat 4 v, vidBefore := BitVec.ofNat 4 v } else s

def State.setStage (s : State) (x : BootStage) : State := { s with dev := { s.dev with stage := x } }

/-- READY, with a new BOOT for the fabric's frames. -/
def State.nowReady (s : State) : State :=
  { s.draw with dev := { s.dev with ready := true }, fab := { s.fab with boot := s.newBoot } }

/-- Without a Belay monitor the boot goes no further: RECOVERY and READY, no engine, no core, no service firmware (R488). -/
def State.recoveryPath (s : State) : State :=
  let s := { s with spur := { s.spur with
    images := Vector.replicate 4 {}, engines := s.spur.engines.map (fun e : Engine => e.load {}),
    cores := Vector.replicate 4 { state := .halted, wantsFw := true }, duties := Vector.replicate 4 { core := none } } }
  { s with dev := { s.dev with recovery := true } }.nowReady

/-- The next step of the boot: the release of power-on reset, then the steps of R487 with what R488 says of each. FB_VID is set with VID; a
warm reset enters the table at step 3. -/
def State.bootStep (s : State) : State :=
  if s.dev.ready then s
  else match s.dev.stage with
  | .held => s.setStage .rom
  | .rom => s.bootVid.setStage .otp
  | .otp =>
    let s := s.bootVid.readLayout.bootSlot 0
    if s.dev.absent.getLsbD 3 then s.recoveryPath else (s.setCairn { s.cairn with belayAt := s.raw }).setStage .belay
  | .belay =>
    let s := s.bootSlot 1
    (s.setCairn { s.cairn with running := !s.dev.absent.getLsbD 0, restartAt := s.raw, runAt := s.raw }).setStage .cairn
  | .cairn => (s.bootSlot 2).bootCores.setStage .gateway
  | .gateway => (([3, 4, 5, 6].foldl (fun s (c : Fin 7) => s.bootSlot c) s).bootEngines).setStage .spur
  | .spur => s.nowReady

def State.bootSteps (s : State) : Nat → State
  | 0 => s
  | n + 1 => State.bootSteps s.bootStep n

/-- BOOT: the release, and every step that is left (R487, R488, log 79). -/
def State.bootOp (s : State) : State := s.bootSteps 7

/-- BOOT. -/
def execBoot (s : State) : Result := if s.dev.ready then .next s else finish s.bootOp

end Sys2Proof.Machine
end

