-- ==== Sys2Proof/Machine/Domains.lean ====
section
/-! DEFINITION. Records of the partition table: checks, application, reclaim, completion (R22 to R31). -/
namespace Sys2Proof.Machine

/-! ### The staged record -/

/-- The 32 bytes of DOM_STAGE0 to DOM_STAGE7. -/
def State.stageBytes (s : State) : List Byte := (List.finRange 8).flatMap (fun i => leBytes 4 (s.reg (.domStage i)).toNat)
def recKind (b : List Byte) : Nat := leAt b 0 1
def recDom (b : List Byte) : Nat := leAt b 1 1

/-- A domain entry as a record carries it (record type 01h). -/
def entryOf (b : List Byte) : Entry :=
  let fl := leAt b 2 2
  { valid := fl % 2 == 1, timeFeed := fl / 2 % 2 == 1, routeUse := fl / 4 % 2 == 1, gateway := fl / 8 % 2 == 1,
    ports := BitVec.ofNat 32 (leAt b 4 4), groups := BitVec.ofNat 4 (leAt b 8 1), eports := BitVec.ofNat 4 (leAt b 8 1 / 16),
    ringCount := leAt b 9 1, ringBase := leAt b 10 2, tarnQuota := leAt b 12 2, fltLanes := leAt b 14 1, msixCount := leAt b 15 1,
    fltBase := leAt b 16 2, fltCount := leAt b 18 2, msixBase := leAt b 20 2, inflight := leAt b 22 2, generation := leAt b 24 2,
    logRate := leAt b 26 2, keyQuota := leAt b 28 1 }

/-- A DMA window as a record carries it (record type 02h). -/
def recWindow (b : List Byte) : Window :=
  let fl := leAt b 3 1
  { valid := fl % 2 == 1, read := fl / 2 % 2 == 1, write := fl / 4 % 2 == 1, base := leAt b 8 8, limit := leAt b 16 8 }

/-- Reserved fields of a record are 0 (R26). -/
def reservedOk (b : List Byte) : Bool :=
  match recKind b with
  | 1 => decide (leAt b 2 2 < 16) && leAt b 29 3 == 0
  | 2 => decide (leAt b 3 1 < 8) && leAt b 4 4 == 0 && leAt b 24 8 == 0
  | 3 => leAt b 6 26 == 0
  | 4 => leAt b 2 2 == 0 && decide (leAt b 9 1 < 2) && leAt b 10 22 == 0
  | _ => false

/-! ### Checks of a domain entry (R24, R26, R30) -/

def State.withEntry (s : State) (d : Dom) (e : Entry) : State := { s with belay := { s.belay with entries := s.belay.entries.set d e } }

def amountIf (e : Entry) (n : Nat) : Nat := if e.valid then n else 0

/-- The sum of a capacity with the entry in place. -/
def State.total (s : State) (d : Dom) (e : Entry) (f : Entry → Nat) : Nat :=
  ((doms.filter (fun o => o != d)).map (fun o => amountIf (s.entry o) (f (s.entry o)))).foldl (· + ·) (amountIf e (f e))

/-- RANGE (02h). -/
def State.entryRange (s : State) (d : Dom) (e : Entry) : Bool :=
  let t := s.withEntry d e
  (d != 0 || e.valid) && decide (e.ringCount ≤ 64 ∧ e.ringBase ≤ 511 ∧ e.ringBase + e.ringCount ≤ 512) && decide (s.total d e (·.ringCount) ≤ 512)
    && decide (s.total d e (·.tarnQuota) ≤ 960)
    && decide (e.fltBase % 64 = 0 ∧ e.fltCount % 64 = 0 ∧ e.fltBase + e.fltCount ≤ 16384) && decide (s.total d e (·.fltCount) ≤ 16384)
    && decide (e.fltLanes ≤ 64) && decide (s.total d e (·.fltLanes) ≤ 64)
    && (decide (1 ≤ e.fltLanes) || !e.valid || portIds.all (fun p => t.portOwner p != d))
    && decide (e.msixCount ≤ 128 ∧ e.msixBase ≤ 2047 ∧ e.msixBase + e.msixCount ≤ 2048) && decide (s.total d e (·.msixCount) ≤ 2048)
    && decide (e.inflight ≤ 1024) && decide (s.total d e (·.inflight) ≤ 1024) && decide (s.total d e (·.keyQuota) ≤ 256)

/-- OVERLAP (03h). -/
def State.entryOverlap (s : State) (d : Dom) (e : Entry) : Bool :=
  let t := s.withEntry d e
  let others := doms.filter (fun o => o != d && (s.entry o).valid)
  let clash := fun o : Dom =>
    let f := s.entry o
    (d != 0 && o != 0 && e.valid && (f.ports &&& e.ports != 0 || f.groups &&& e.groups != 0 || f.eports &&& e.eports != 0))
      || rangesMeet (ringsOf e) (ringsOf f) || rangesMeet (fltOf e) (fltOf f) || rangesMeet (msixOf e) (msixOf f)
  others.any clash || grpIds.any (fun k => (s.members k).any (fun p => t.portOwner p != t.grpOwner k))

/-- Units of 4 KiB up to the end of the domain's last object (R24, log 11). -/
def State.tarnUse (s : State) (d : Dom) : Nat :=
  (s.objs.filter (fun e => e.1 / 8192 == d.val && objValid e.2)).foldl (fun n e => max n ((64 * objOfs e.2.cfg + footBytes e.2.cfg + 4095) / 4096)) 0

def State.keysHeld (s : State) (d : Dom) : Nat := (s.belay.keys.filter (fun k => match k.2 with
  | some x => x.dom == d
  | none => false)).length

/-- A port or group in which its owner may change (R24). -/
def State.portStill (s : State) (p : PortId) : Bool := (s.port p).state == .off || (s.port p).state == .stopped
def State.ringStill (s : State) (i : Nat) : Bool := !(s.ring i).active && (s.ring i).inflight == 0
def State.ethStill (s : State) (k : EpId) : Bool := !s.rb (.ep k .cfg) 0 && !(s.eth k).stopping

/-- STATE (01h): every part that changes is in the state of R24. -/
def State.entryStill (s : State) (d : Dom) (e : Entry) : Bool :=
  let t := s.withEntry d e
  let o := s.entry d
  portIds.all (fun p => s.portOwner p == t.portOwner p || (s.portStill p && (s.groupOf p).isNone))
    && grpIds.all (fun k => s.grpOwner k == t.grpOwner k || (decide ((s.group k).state = .stopped) && (s.members k).all s.portStill))
    && (List.finRange 4).all (fun k => s.epOwner k == t.epOwner k || s.ethStill k)
    && (ringsOf o == ringsOf e || (List.range 512).all (fun i => !(inRangeOf (ringsOf o) i || inRangeOf (ringsOf e) i) || s.ringStill i))
    && decide (s.tarnUse d ≤ amountIf e e.tarnQuota ∨ amountIf o o.tarnQuota ≤ amountIf e e.tarnQuota)
    && ((fltOf o == fltOf e && amountIf o o.fltLanes == amountIf e e.fltLanes) || portIds.all (fun p => s.portOwner p != d || s.portStill p))
    && (msixOf o == msixOf e || !(s.func d).msixEnable)
    && decide (amountIf o o.inflight ≤ amountIf e e.inflight ∨ s.inflight d = 0)
    && decide (s.keysHeld d ≤ amountIf e e.keyQuota ∨ amountIf o o.keyQuota ≤ amountIf e e.keyQuota)

/-! ### The check of a record (R26) -/

/-- FIRST and COUNT of a route assignment (record type 03h). -/
def routeRange (b : List Byte) : Nat × Nat := (leAt b 2 2, leAt b 4 2)

def State.reclaimOwned (s : State) (d : Dom) (b : List Byte) : Bool :=
  let m := BitVec.ofNat 32 (leAt b 4 4)
  let x := BitVec.ofNat 8 (leAt b 8 1)
  portIds.all (fun p => !m.getLsbD p.val || s.portOwner p == d) && grpIds.all (fun k => !x.getLsbD k.val || s.grpOwner k == d)
    && (List.finRange 4).all (fun k : EpId => !x.getLsbD (4 + k.val) || s.epOwner k == d)

/-- The domain may hold route entries: D0, or a tenant whose valid entry has ROUTE_USE (record type 01h, log 44). -/
def State.holdsRoutes (s : State) (d : Dom) : Bool := d == 0 || ((s.entry d).valid && (s.entry d).routeUse)

/-- Number of the tenant whose valid entry holds a route entry, 0 where none does (R26). -/
def State.routeHolder (s : State) (i : Nat) : Nat := if (s.entry (fin 16 (s.routeOwner i))).valid then s.routeOwner i else 0

/-- The first failure of R26, 0 where the check passes. -/
def State.checkRecord (s : State) (b : List Byte) : Byte :=
  let d : Dom := fin 16 (recDom b)
  if !reservedOk b then 4
  else if s.belay.otp.life ≠ .owned then 5
  else if 15 < recDom b then 2
  else match recKind b with
    | 1 =>
      let e := entryOf b
      if !s.entryRange d e then 2 else if s.entryOverlap d e then 3 else if !s.entryStill d e then 1 else 0
    | 2 => if 15 < leAt b 2 1 ∨ leAt b 8 8 % 4096 ≠ 0 ∨ leAt b 16 8 % 4096 ≠ 4095 then 2 else if !s.ringsIdle d then 1 else 0
    | 3 =>
      let r := routeRange b
      if 255 < r.1 ∨ r.2 = 0 ∨ 256 < r.1 + r.2 ∨ !s.holdsRoutes d then 2
      else if (List.range 256).any (fun i => inRangeOf r i && s.routeHolder i != d.val && s.routeHolder i != 0) then 3
      else if (List.range 256).any (fun i => inRangeOf r i && (s.route i).valid) then 1 else 0
    | _ => if !s.reclaimOwned d b then 3 else 0

/-! ### Application (R25, R30, R31) -/

/-- The lowest n units that no quota holds. -/
def State.freeUnits (s : State) (n : Nat) : List Nat := ((List.range 960).filter (fun u => doms.all (fun d => !(s.units[d]).contains u))).take n

/-- Tarn quota of a domain changed: released units are zeroed, and with the last of them the objects (R25). -/
def State.setQuota (s : State) (d : Dom) (n : Nat) : State :=
  let us := s.units[d]
  if us.length ≤ n then { s with units := s.units.set d (us ++ s.freeUnits (n - us.length)) }
  else
    let gone := us.drop n
    { s with
      units := s.units.set d (us.take n), tarn := Tbl.drop s.tarn (fun a => gone.contains (a / 4096)),
      objs := if n = 0 then Tbl.drop s.objs (fun k => k / 8192 == d.val) else s.objs }

/-- A checked entry comes into force; what passes to a new owner is cleared first (R25, R30, R338), and before that the
old domain's objects on a port that leaves it (R144); FLT_PORTn of such a port goes back to reset (R162), and its holds end (R128, R129). -/
def State.applyEntry (s : State) (d : Dom) (e : Entry) : State :=
  let o := s.entry d
  let t := s.withEntry d e
  let gone := portIds.filter (fun p => s.portOwner p != t.portOwner p)
  let left := grpIds.filter (fun k => s.grpOwner k != t.grpOwner k)
  let t := (gone.foldl (fun t p => (t.dropBound (s.portOwner p) p).reassignPort p) s)
  let t := (left.foldl (fun t k => t.reassignGroup k) t).withEntry d e
  let moved := gone.map (·.val)
    ++ ((List.finRange 4).filter (fun k : EpId => s.epOwner k != t.epOwner k)).map (fun k => 32 + k.val)
  let newRing := fun i : Nat => inRangeOf (ringsOf e) i && !inRangeOf (ringsOf o) i
  let newFlt := fun i : Nat => inRangeOf (fltOf e) i && !inRangeOf (fltOf o) i
  let t := moved.foldl (fun t b => t.clearBlock b) t
  let t := { t with
    rings := Tbl.drop t.rings newRing, flt := Tbl.drop t.flt newFlt,
    regs := t.regs.clear (fun r => match r with
      | .ring n _ => newRing n.val
      | .fltPort p => gone.contains p
      | _ => false) }
  gone.foldl (fun t p => t.newWindows p) (t.setQuota d (amountIf e e.tarnQuota))

/-- What waits for the CQs of a domain that is not active ends without an entry (R21, R31; DESIGN CHOICE, log 68). -/
def State.dropWaits (s : State) (d : Dom) : State :=
  (List.range (s.ringsHeld d)).foldl (fun s n =>
    let i := (s.entry d).ringBase + n
    let ops := ((s.ring i).wait.filter (·.2)).map (·.1.num)
    ops.foldl (fun s m => s.endOp d m) (s.setRing i { s.ring i with wait := [] })) s

/-- A port that a reclaim names (R31). -/
def State.reclaimPort (s : State) (p : PortId) : State :=
  match s.liveGroup p with
  | some k => s.stopGroupCmd k
  | none =>
    if (s.port p).state = .sleep then s.toAwake p
    else if halted (s.port p).state then s
    else if s.underTest p then { s with cairn := { s.cairn with deferred := s.cairn.deferred ++ [.reclaimStop p] } }
    else s.stopAccepted p

/-- The stops and disables of a reclaim record. -/
def State.applyReclaim (s : State) (d : Dom) (b : List Byte) : State :=
  let m := BitVec.ofNat 32 (leAt b 4 4)
  let x := BitVec.ofNat 8 (leAt b 8 1)
  let hit := fun p : PortId => m.getLsbD p.val || (match s.liveGroup p with
    | some k => x.getLsbD k.val || (s.members k).any (fun q => m.getLsbD q.val)
    | none => false)
  let stopping : Word := BitVec.ofNat 32 (portIds.foldl (fun a p => if hit p then a + 2 ^ p.val else a) 0)
  let s := (portIds.filter (fun p => m.getLsbD p.val)).foldl (fun s p => s.reclaimPort p) s
  let s := (grpIds.filter (fun k => x.getLsbD k.val)).foldl (fun s k => if (s.group k).state = .stopped then s else s.stopGroupCmd k) s
  let s := ((List.finRange 4).filter (fun k : EpId => x.getLsbD (4 + k.val))).foldl (fun s k => if s.rb (.ep k .cfg) 0 then s.stopEth k else s) s
  if leAt b 9 1 % 2 = 0 then s
  else
    let mine := (List.finRange 64).filter (fun n => decide (n.val < s.ringsHeld d))
    let s := if s.active d then s else s.dropWaits d
    let s := mine.foldl (fun s n =>
      let cfg := s.ringCfg (s.dring d n)
      let p : PortId := fin 32 (fld cfg 16 5)
      if bit cfg 0 && ringType cfg != 3 then s.disableRing d n (!bit cfg 9 && (stopping.getLsbD p.val)) else s) s
    { s with belay := { s.belay with closing := s.belay.closing ++ [d] } }.closeCqs d

/-- What a record that has passed its check does. -/
def State.applyRecord (s : State) (b : List Byte) : State :=
  let d : Dom := fin 16 (recDom b)
  match recKind b with
  | 1 => s.applyEntry d (entryOf b)
  | 2 => { s with belay := { s.belay with windows := Tbl.put {} s.belay.windows (16 * d.val + leAt b 2 1) (recWindow b) } }
  | 3 => { s with belay := { s.belay with
      routeDom := (List.range 256).foldl (fun t i => if inRangeOf (routeRange b) i then Tbl.put 0 t i d.val else t) s.belay.routeDom } }
  | _ => s.applyReclaim d b

/-- The resources that a record names (R28). -/
def State.names (s : State) (b : List Byte) (result : Byte) : Applying :=
  let x := leAt b 8 1
  let o := s.entry (fin 16 (recDom b))
  let a : Applying := { kind := BitVec.ofNat 8 (recKind b), dom := BitVec.ofNat 8 (recDom b), result := result }
  match recKind b with
  | 1 => { a with
      ports := o.ports ||| BitVec.ofNat 32 (leAt b 4 4), groups := o.groups ||| BitVec.ofNat 4 x, eports := o.eports ||| BitVec.ofNat 4 (x / 16),
      rings := [ringsOf o, (leAt b 10 2, leAt b 9 1)], msix := [msixOf o, (leAt b 20 2, leAt b 15 1)] }
  | 2 => { a with rings := [ringsOf o] }
  | 3 => { a with routes := (leAt b 2 2, leAt b 4 2) }
  | 4 => { a with ports := BitVec.ofNat 32 (leAt b 4 4), groups := BitVec.ofNat 4 x, eports := BitVec.ofNat 4 (x / 16), rings := if leAt b 9 1 % 2 = 1 then [ringsOf o] else [] }
  | _ => a

/-- A write of DOM_APPLY: GO submits the staged record; while BUSY it is refused (R27). The check and the change take place at GO, and
RESULT follows at RECORD_COMPLETE (log 9). -/
def State.writeApply (s : State) (d : Dom) (v : Word) : State :=
  if !v.getLsbD 0 then s
  else if s.belay.applying.isSome then s.refuse d .domApply mask32 (v.setWidth 64)
  else
    let b := s.stageBytes
    let r := s.checkRecord b
    let s := { s with belay := { s.belay with applying := some (s.names b r) } }
    if r = 0 then s.applyRecord b else s

/-- One of the rows that submit a record: it acts where the staged TYPE is its own. -/
def State.submit (s : State) (d : Dom) (v : Word) (kind : Nat) : Result :=
  s.ownedWrite d 0 Reg.domApply.off v (fun s => if recKind s.stageBytes = kind then s.writeApply d v else s)

def execDomainEntry (d : Dom) (v : Word) (s : State) : Result := s.submit d v 1
def execDmaWindowRecord (d : Dom) (v : Word) (s : State) : Result := s.submit d v 2
def execRouteAssign (d : Dom) (v : Word) (s : State) : Result := s.submit d v 3
def execReclaim (d : Dom) (v : Word) (s : State) : Result := s.submit d v 4

/-! ### Completion (R26, R28, R31) -/

/-- Operations of a ring that have ended and wait for room in their CQ (R83). -/
def State.waitingOps (s : State) (d : Dom) (n : RingNo) : Nat :=
  (List.range (s.ringsHeld d)).foldl (fun m c =>
    m + ((s.ring ((s.entry d).ringBase + c)).wait.filter (fun e => e.2 && decide (e.1.num = n))).length) 0

/-- A reclaim has nothing left to wait for (R31). -/
def State.reclaimDone (s : State) (a : Applying) : Bool :=
  let d : Dom := fin 16 a.dom.toNat
  portIds.all (fun p => !a.ports.getLsbD p.val || (s.portStill p && (s.liveGroup p).isNone && (s.port p).cands.isEmpty))
    && grpIds.all (fun k => !a.groups.getLsbD k.val || (decide ((s.group k).state = .stopped) && (s.port (s.anchor k)).cands.isEmpty))
    && (List.finRange 4).all (fun k => !a.eports.getLsbD k.val || s.ethStill k)
    && (a.rings.isEmpty || (List.finRange 64).all (fun n => !decide (n.val < s.ringsHeld d) || ringType (s.ringCfg (s.dring d n)) == 3
      || (s.ring (s.dring d n)).inflight == s.waitingOps d n))

/-- Pending messages whose vector is no longer masked go (R424, as PCI Express prescribes). -/
def State.flushVectors (s : State) (d : Dom) : State :=
  let f := s.func d
  if !f.msixEnable || f.funcMask || f.flr.isSome then s
  else
    let go := f.vecPending.filter (fun t => f.vecOpen.contains t)
    let s := s.setFunc d { f with vecPending := f.vecPending.filter (fun t => !f.vecOpen.contains t) }
    go.foldl (fun s t => s.emit (.msix d (fin 128 t) (Tbl.get 0 f.vecTable t))) s

/-- A write of MSI-X Enable and Function Mask, which a record that names the domain's vectors holds back (R28). -/
def State.msixRequest (s : State) (d : Dom) (en fm : Bool) : State :=
  if s.heldBack (fun a => (a.kind == 1 && a.dom.toNat == d.val) || a.msix.any (rangesMeet (msixOf (s.entry d)))) then s.holdBack (.msix d en fm)
  else (s.setFunc d { s.func d with msixEnable := en, funcMask := fm }).flushVectors d

/-- A command that the record held back acts, unless a reset has ended it since (R57). -/
def State.actOp (s : State) (o : Op) (f : State → State) : State := if o.epoch = (s.func o.dom).epoch then f s else s

/-- A change that the record held back acts under the ownership that the record has left (R28). -/
def State.actHeld (s : State) (h : Held) : State :=
  match h with
  | .portCmd d p c => if s.portOwner p = d then s.portRequest d p c else s
  | .ringCfg d n v => if s.ringOk d n then s.writeRingCfg d n v else s
  | .grpCmd d k v => if s.grpOwner k = d then s.groupRequest d k v else s
  | .epCfg d k v => if s.epOwner k = d then s.writeEpCfg d k v else s
  | .grpMembers d k v => if s.grpOwner k = d then s.membersRequest d k v else s
  | .hold o t time => s.actOp o (fun s => s.holdRequest t time o)
  | .msix d en fm => if s.present d then s.msixRequest d en fm else s
  | .rtWrite o x bytes => s.actOp o (fun s => s.rtWriteOp x bytes o)
  | .reclaimStop p => s.reclaimStop p

/-- RECORD_COMPLETE. -/
def execRecordComplete (s : State) : Result :=
  match s.belay.applying with
  | none => .next s
  | some a =>
    if a.kind = 4 && a.result == 0 && !s.reclaimDone a then .next s
    else
      let s := { s with belay := { s.belay with applying := none, result := a.result } }
      let s := s.record 0 2 false 0x01 0x03 (BitVec.ofNat 32 (a.kind.toNat + 256 * a.dom.toNat)) (a.result.setWidth 32)
      finish (a.held.foldl (fun s h => s.actHeld h) s)

end Sys2Proof.Machine
end

