-- ==== Sys2Proof/Machine/RegWrite.lean ====
section
/-! DEFINITION. REGISTER_WRITE: any host write to BAR0, BAR2 or BAR4, and the two configuration-space controls the manual names
(R13 to R19, R21, R40, R41, R56, R138, R170, R337, R424). -/
namespace Sys2Proof.Machine

/-! ### Whose register it is (R22, R40, R41, R298) -/

/-- The domain whose device rings hold ring n, D0 where none does. -/
def State.ringOwner (s : State) (n : Nat) : Dom :=
  s.ownerBy (fun e => inRangeOf (ringsOf e) n)

/-- The domain that a write must come from: the owner of the resource, the function itself for its own copies, D0 otherwise. -/
def State.regOwner (s : State) (r : Reg) : Dom :=
  match r with
  | .fn d _ | .evcClaim d _ | .evcEoi d _ | .evcPri d _ | .evcMod d _ | .evcSrc d _ | .evcWord d _ _ => d
  | .ring n _ => s.ringOwner n.val
  | .port p _ | .fltPort p => s.portOwner p
  | .grp k _ => s.grpOwner k
  | .ep k _ | .epMac k _ | .epHash k _ => s.epOwner k
  | .counter b _ | .half b _ => s.blockOwner b.val
  | .evtinIdx i => fin 16 (s.rf (.evtinCfg i) 16 4)
  | _ => 0

/-- The register at an offset of a domain's view: a tenant's ring numbers are local, and its ring n lies at its RING_BASE (section RNG
registers). -/
def State.regAt (s : State) (d : Dom) (o : Nat) : Option (Reg × Bool) :=
  if o % 4 ≠ 0 then none
  else match Reg.atOff d o with
    | some (.ring n q, h) => if d = 0 then some (.ring n q, h) else some (.ring (fin 512 ((s.entry d).ringBase + n.val)) q, h)
    | x => x

/-- The offset names a ring that the domain does not hold (R22, R41). -/
def State.ringBeyond (s : State) (d : Dom) (o : Nat) : Bool :=
  let e := s.entry d
  let n := (o - 0x8000) / 0x40
  decide (0x8000 ≤ o ∧ o < 0x10000) && (if d = 0 then decide (n < e.ringBase ∨ e.ringBase + e.ringCount ≤ n) else decide (e.ringCount ≤ n))

/-! ### Registers with an effect of their own -/

/-- A KEY_SEAL register of the selected handle: the slot's fields, dropped with a record where the domain does not hold it (R170). -/
def State.writeSeal (s : State) (d : Dom) (r : FnReg) (v : Word) : State :=
  let h := s.rf (.fn d .sealSel) 0 8
  match s.key h with
  | none => s.crossDomain d r.off v
  | some k =>
    if k.dom ≠ d then s.crossDomain d r.off v
    else s.setKey h (some (match r with
      | .sealCfg => { k with mac64 := v.getLsbD 0 }
      | .sealCtr => { k with ctr := v }
      | .sealLast => { k with last := v }
      | _ => { k with win := v &&& 0x7FFFFFFF }))

/-- TMU_EVTINn_CFG: a change of DOMAIN is applied only while EN is 0, and empties the input's buffer (R298). -/
def State.writeEvtin (s : State) (d : Dom) (i : Fin 8) (v : DWord) : State :=
  let r : Reg := .evtinCfg i
  let move := fld v 16 4 != s.rf r 16 4
  let bad := move && s.rb r 0
  let (w, refused) := s.fieldWrite d r mask32 v (fun f => bad && f.lo == 16)
  let s := s.setReg r w
  let s := if move && !bad then
      (s.setReg (.evtinIdx i) 0).setTmu { s.tmu with captures := s.tmu.captures.set i { s.tmu.captures[i] with
        entries := Vector.replicate 16 0, prod := 0, lost := 0 } }
    else s
  if refused || bad then s.refuse d r mask32 v else s

/-- HALF bits written 1 are cleared (R337). -/
def State.writeHalf (s : State) (b : Fin 41) (i : Fin 6) (v : Word) : State :=
  { s with halves := Tbl.drop s.halves (fun k => k / 64 == b.val && k % 64 / 32 == i.val && v.getLsbD (k % 32)) }

/-- What host memory returns for the index words of a kick that this write makes (log 7). -/
def State.kickWords (s : State) : List Half := (List.range 64).map (fun i => (Config.hostWord (s.free + i)).setWidth 16)

/-- Registers of Cairn that drop writes with a record while the service firmware is out (R434). -/
def cairnHeld : Reg → Bool
  | .crn .smb | .fn _ .crnEvt => true
  | _ => false

/-- A write with no effect beyond the register's own fields; Cairn's registers take none while it does not run (R434). -/
def State.plainWrite (s : State) (d : Dom) (r : Reg) (mask v : DWord) : Result :=
  finish (if cairnHeld r && !s.cairn.running then s.refuse d r mask v else s.writeFields d r mask v (fun _ => false))

/-- Registers of a function that start something. -/
def State.fnWrite (s : State) (d e : Dom) (q : FnReg) (mask v : DWord) (x : Word) : Result :=
  match q with
  | .kick => execDevKick d x s.kickWords { s with free := s.free + 64 }
  | .dbb => finish (s.writeDbb d mask v)
  | .tsq => finish (s.writeTsq d mask v)
  | .objCmd => finish (s.writeObjCmd d x)
  | .fltCmd => finish (s.writeFltCmd d x)
  | .gwCmd => finish (s.writeGwCmd d x)
  | .sealCfg => finish (s.writeSeal d .sealCfg x)
  | .sealCtr => finish (s.writeSeal d .sealCtr x)
  | .sealLast => finish (s.writeSeal d .sealLast x)
  | .sealWin => finish (s.writeSeal d .sealWin x)
  | _ => s.plainWrite d (.fn e q) mask v

/-- Registers of the device block that start something. -/
def State.devWrite (s : State) (d : Dom) (q : DevReg) (mask v : DWord) (x : Word) : Result :=
  match q with
  | .mode => finish (s.writeMode 0 x).2
  | .swap => finish (s.writeSwap d x)
  | .secmd => finish (s.writeSecmd d x)
  | .rst => execWarmReset (.register d x) s
  | _ => s.plainWrite d (.dev q) mask v

/-- Registers of the time unit that start something. -/
def State.tmuWrite (s : State) (d : Dom) (q : TmuReg) (w : Width) (mask v : DWord) (x : Word) : Result :=
  match q with
  | .rate => execTmuRateWrite d x s
  | .step => finish (s.writeStep d w (if w = .high then x.setWidth 64 else v))
  | .servo => finish (s.writeServo d x)
  | _ => s.plainWrite d (.tmu q) mask v

/-- Registers of Cairn that start something. -/
def State.crnWrite (s : State) (d : Dom) (q : CrnReg) (mask v : DWord) (x : Word) : Result :=
  match q with
  | .gov => finish (s.writeGov d false x)
  | .govhold => finish (s.writeGov d true x)
  | .logcfg => finish (s.writeLogCfg d x)
  | _ => s.plainWrite d (.crn q) mask v

/-- A write that reaches a register of the writing domain. mask and v are those of the whole register; x is the word or low word
written. Registers that start something act as their own rows do. -/
def State.regWrite (s : State) (d : Dom) (r : Reg) (w : Width) (mask v : DWord) (x : Word) : Result :=
  match r with
  | .fn e q => s.fnWrite d e q mask v x
  | .dev q => s.devWrite d q mask v x
  | .tmu q => s.tmuWrite d q w mask v x
  | .crn q => s.crnWrite d q mask v x
  | .ring n q => if q = .cfg then s.ringRequest d (fin 64 (n.val - (s.entry d).ringBase)) x else s.plainWrite d r mask v
  | .port p q =>
    if q = .cmd then finish (s.portRequest d p (x.toNat % 16))
    else if q = .pair ∧ p.val % 2 ≠ 0 then .next s
    else if q = .txset then finish ((s.writeFields d r mask v (fun _ => false)).fillSlots p 32)
    else s.plainWrite d r mask v
  | .grp k q =>
    if q = .cmd then finish (s.groupRequest d k x) else if q = .members then finish (s.membersRequest d k x) else s.plainWrite d r mask v
  | .evtinCfg i => finish (s.writeEvtin d i v)
  | .out i q => if q = .cfg then finish (s.writeOut d i x) else s.plainWrite d r mask v
  | .ep k q => if q = .cfg then s.epRequest d k x else s.plainWrite d r mask v
  | .ptpg => finish (s.writePtpg d x)
  | .half b i => finish (s.writeHalf b i x)
  | .rl k q => if q = .cfg then finish (s.writeRlCfg d k x) else s.plainWrite d r mask v
  | .fab q =>
    if q = .cfg then finish (s.writeFabCfg d x) else if q = .time then finish (s.writeFabTime d x) else s.plainWrite d r mask v
  | .evcMod _ t | .evcClaim _ t | .evcPri _ t => if t.val < (s.entry d).msixCount then s.plainWrite d r mask v else finish (s.crossDomain d r.off x)
  | .evcWord _ _ i => s.plainWrite d r (if i = 0 then mask &&& ~~~ 1 else mask) v
  | .evcEoi _ t => execEvcEoi d (.claim t x) ((Config.hostWord s.free).setWidth 16) s.draw
  | .domApply => finish (s.writeApply d x)
  | .domLife | .domStage _ | .domSmb | .fltPort _ | .ppsCfg _ | .ppsLast _ | .evtinIdx _ | .epMac _ _ | .epHash _ _ | .ptplt
  | .counter _ _ | .seStat _ | .seFault _ | .gcStat _ | .seimg _ | .evcSrc _ _ | .crnSlot _ =>
    s.plainWrite d r mask v

/-- In the recovery path only these registers respond (R488). -/
def recoveryReg : Reg → Bool
  | .fn _ .devId | .fn _ .dbb | .fn _ .kick | .ring _ _ | .dev .rststat | .domLife => true
  | _ => false

/-- A write to BAR0 (R13 to R19, R21, R40, R41, R483, R488): a function whose entry is not valid owns nothing, and its kicks have no effect. A half carries its word in the low bits of v.
A 64-bit write that names a 32-bit register, or the high half of a 64-bit register, writes its low word there and drops its upper 32 bits
(DESIGN CHOICE, log 75). -/
def State.bar0Write (s : State) (d : Dom) (off : Nat) (w : Width) (v : DWord) : Result :=
  let o := off + (if w = .high then 4 else 0)
  let x : Word := v.setWidth 32
  if !s.answers || !s.present d then .next s
  else if s.ringBeyond d o then (if s.dev.recovery then .next s else finish (s.crossDomain d o x))
  else match s.regAt d o with
    | none => .next s
    | some (r, hi) =>
      if s.dev.recovery && !recoveryReg r then .next s
      else if r = .fn d .kick ∧ !s.active d then .next s
      else if s.regOwner r ≠ d ∨ !s.active d then finish (s.crossDomain d o x)
      else if hi then s.regWrite d r .high (mask32 <<< 32) ((x ++ x : BitVec 64)) x
      else if r.wide && w == .whole then s.regWrite d r .whole maskAll v x
      else s.regWrite d r .low mask32 v x

/-! ### BAR2 and BAR4 (R56, R138) -/

/-- Bytes of an access: eight, or four. -/
def widthBytes : Width → Nat
  | .whole => 8
  | _ => 4

/-- A write to BAR2: a tenant's goes to its quota; D0's to the Tarn addresses of its own quota, and another unit drops it with a
CROSS_DOMAIN record, also where no quota holds the unit, of which the manual says nothing (R138; DESIGN CHOICE, log 75). -/
def State.bar2Write (s : State) (d : Dom) (off : Nat) (w : Width) (v : DWord) : State :=
  let o := off + (if w = .high then 4 else 0)
  let bs := leBytes (widthBytes w) v.toNat
  if d ≠ 0 then s.tarnWrite d o bs
  else
    let own := fun a : Nat => (s.units[d]).contains (a / 4096)
    let cells := (List.range bs.length).zip bs
    let t := cells.foldl (fun (t : Tbl Byte) e => if own (o + e.1) then Tbl.put 0 t (o + e.1) e.2 else t) s.tarn
    let s := { s with tarn := t }
    if cells.all (fun e => own (o + e.1)) then s else s.crossDomain d o (v.setWidth 32)

/-- One 32-bit word of the MSI-X table: address low, address high, data, or the mask bit (log 14). -/
def State.vectorWord (s : State) (d : Dom) (o : Nat) (x : Word) : State :=
  let t := o / 16
  let f := s.func d
  if 128 ≤ t then s
  else if o % 16 / 4 = 3 then
    s.setFunc d { f with vecOpen := if x.getLsbD 0 then f.vecOpen.filter (fun i => i != t) else t :: f.vecOpen.filter (fun i => i != t) }
  else
    let sh := 32 * (o % 16 / 4)
    let m : BitVec 96 := 0xFFFFFFFF
    s.setFunc d { f with vecTable := Tbl.put 0 f.vecTable t ((Tbl.get 0 f.vecTable t &&& ~~~ (m <<< sh)) ||| (x.setWidth 96 <<< sh)) }

/-- A write to BAR4: the MSI-X table; the PBA is read-only. -/
def State.bar4Write (s : State) (d : Dom) (off : Nat) (w : Width) (v : DWord) : State :=
  let o := off + (if w = .high then 4 else 0)
  let s := s.vectorWord d o (v.setWidth 32)
  let s := if w = .whole ∧ o % 8 = 0 then s.vectorWord d (o + 4) ((v >>> 32).setWidth 32) else s
  s.flushVectors d

/-- REGISTER_WRITE. -/
def execRegisterWrite (d : Dom) (t : Target) (w : Width) (v : DWord) (s : State) : Result :=
  match t with
  | .bar0 off => s.bar0Write d off.toNat w v
  | .bar2 off => if s.serves && s.active d then finish (s.bar2Write d off.toNat w v) else .next s
  | .bar4 off => if s.serves && s.active d then finish (s.bar4Write d off.toNat w v) else .next s
  | .sriov en n =>
    if d ≠ 0 ∨ !s.serves then .next s
    else finish { s with dev := { s.dev with vfEnable := en, numVfs := if s.dev.vfEnable && en then s.dev.numVfs else n } }
  | .msixControl en fm =>
    if s.serves && s.present d then finish (s.msixRequest d en fm) else .next s

end Sys2Proof.Machine
end

