-- ==== Sys2Proof/Machine/Dispatch.lean ====
section
/-! DEFINITION. Each command calls its meaning. -/
namespace Sys2Proof.Machine

def exec (i : Instr) (s : State) : Host.Outcome State Fault Refusal :=
  match i with
  | .domainEntry d v => Sys2Proof.Machine.execDomainEntry d v s
  | .dmaWindowRecord d v => Sys2Proof.Machine.execDmaWindowRecord d v s
  | .routeAssign d v => Sys2Proof.Machine.execRouteAssign d v s
  | .reclaim d v => Sys2Proof.Machine.execReclaim d v s
  | .recordComplete => Sys2Proof.Machine.execRecordComplete s
  | .registerWrite d t w v => Sys2Proof.Machine.execRegisterWrite d t w v s
  | .devKick d v words => Sys2Proof.Machine.execDevKick d v words s
  | .ringPoll d n word => Sys2Proof.Machine.execRingPoll d n word s
  | .cqStallPoll d n word => Sys2Proof.Machine.execCqStallPoll d n word s
  | .dbbEnable d v => Sys2Proof.Machine.execDbbEnable d v s
  | .tsqEnable d v => Sys2Proof.Machine.execTsqEnable d v s
  | .ringEnable d n v => Sys2Proof.Machine.execRingEnable d n v s
  | .ringDisable d n v => Sys2Proof.Machine.execRingDisable d n v s
  | .ringDisableDone d n => Sys2Proof.Machine.execRingDisableDone d n s
  | .txFrame d n x => Sys2Proof.Machine.execTxFrame d n x s
  | .rxBuf d n x => Sys2Proof.Machine.execRxBuf d n x s
  | .ethTx d n x payload => Sys2Proof.Machine.execEthTx d n x payload s
  | .nop d n x => Sys2Proof.Machine.execNop d n x s
  | .objRead d n x => Sys2Proof.Machine.execObjRead d n x s
  | .objReadCopyDone d o => Sys2Proof.Machine.execObjReadCopyDone d o s
  | .objWrite d n x payload => Sys2Proof.Machine.execObjWrite d n x payload s
  | .objSend d n x => Sys2Proof.Machine.execObjSend d n x s
  | .hold d n x => Sys2Proof.Machine.execHold d n x s
  | .offsetSample d n x => Sys2Proof.Machine.execOffsetSample d n x s
  | .keyGen d n x => Sys2Proof.Machine.execKeyGen d n x s
  | .keyLoad d n x blob => Sys2Proof.Machine.execKeyLoad d n x blob s
  | .keyErase d n x => Sys2Proof.Machine.execKeyErase d n x s
  | .challenge d n x => Sys2Proof.Machine.execChallenge d n x s
  | .challengeExpiry => Sys2Proof.Machine.execChallengeExpiry s
  | .ownerEnrol d n x key => Sys2Proof.Machine.execOwnerEnrol d n x key s
  | .ownerRelease d n x sig => Sys2Proof.Machine.execOwnerRelease d n x sig s
  | .retire d n x sig => Sys2Proof.Machine.execRetire d n x sig s
  | .rmaEnter d n x sig => Sys2Proof.Machine.execRmaEnter d n x sig s
  | .attest d n x nonce => Sys2Proof.Machine.execAttest d n x nonce s
  | .logRead d n x => Sys2Proof.Machine.execLogRead d n x s
  | .imgWrite d n x bytes programmed => Sys2Proof.Machine.execImgWrite d n x bytes programmed s
  | .imgActivate d n x programmed => Sys2Proof.Machine.execImgActivate d n x programmed s
  | .gwRule d n x rule => Sys2Proof.Machine.execGwRule d n x rule s
  | .selfTest d n x => Sys2Proof.Machine.execSelfTest d n x s
  | .selfTestEnd failed block us => Sys2Proof.Machine.execSelfTestEnd failed block us s
  | .trvWrite d n x bytes => Sys2Proof.Machine.execTrvWrite d n x bytes s
  | .trvRead d n x => Sys2Proof.Machine.execTrvRead d n x s
  | .rtWrite d n x bytes => Sys2Proof.Machine.execRtWrite d n x bytes s
  | .rtRead d n x => Sys2Proof.Machine.execRtRead d n x s
  | .fabTopoRead d n x => Sys2Proof.Machine.execFabTopoRead d n x s
  | .flr d => Sys2Proof.Machine.execFlr d s
  | .flrComplete d => Sys2Proof.Machine.execFlrComplete d s
  | .pfFlr => Sys2Proof.Machine.execPfFlr s
  | .hostReset => Sys2Proof.Machine.execHostReset s
  | .portEnable d p => Sys2Proof.Machine.execPortEnable d p s
  | .portDisable d p => Sys2Proof.Machine.execPortDisable d p s
  | .portStart d p => Sys2Proof.Machine.execPortStart d p s
  | .portStop d p => Sys2Proof.Machine.execPortStop d p s
  | .portStopEffect p => Sys2Proof.Machine.execPortStopEffect p s
  | .portRestart d p => Sys2Proof.Machine.execPortRestart d p s
  | .portSleep d p => Sys2Proof.Machine.execPortSleep d p s
  | .portWake d p => Sys2Proof.Machine.execPortWake d p s
  | .wakeEdge p => Sys2Proof.Machine.execWakeEdge p s
  | .wakeFrame p f => Sys2Proof.Machine.execWakeFrame p f s
  | .busIntegrated p => Sys2Proof.Machine.execBusIntegrated p s
  | .startDecision p sof => Sys2Proof.Machine.execStartDecision p sof s
  | .attemptCommit p => Sys2Proof.Machine.execAttemptCommit p s
  | .attemptEnd p r loop => Sys2Proof.Machine.execAttemptEnd p r loop s
  | .errorDetected p e => Sys2Proof.Machine.execErrorDetected p e s
  | .recoverySeqEnd p => Sys2Proof.Machine.execRecoverySeqEnd p s
  | .suspendEnd p => Sys2Proof.Machine.execSuspendEnd p s
  | .payloadLoaded p c reread bytes => Sys2Proof.Machine.execPayloadLoaded p c reread bytes s
  | .candidateExpiry p c => Sys2Proof.Machine.execCandidateExpiry p c s
  | .holdTakesEffect t => Sys2Proof.Machine.execHoldTakesEffect t s
  | .holdExpiry t => Sys2Proof.Machine.execHoldExpiry t s
  | .frameReceived p f sof arrived => Sys2Proof.Machine.execFrameReceived p f sof arrived s
  | .filterEval d => Sys2Proof.Machine.execFilterEval d s
  | .bufWaitExpiry d n => Sys2Proof.Machine.execBufWaitExpiry d n s
  | .objLoad d => Sys2Proof.Machine.execObjLoad d s
  | .objCommit d => Sys2Proof.Machine.execObjCommit d s
  | .fltRead d => Sys2Proof.Machine.execFltRead d s
  | .fltWrite d => Sys2Proof.Machine.execFltWrite d s
  | .bankSupplyLoss b => Sys2Proof.Machine.execBankSupplyLoss b s
  | .ref25Loss => Sys2Proof.Machine.execRef25Loss s
  | .ref25Lock => Sys2Proof.Machine.execRef25Lock s
  | .refHoldoverExpiry => Sys2Proof.Machine.execRefHoldoverExpiry s
  | .colTravelEnd k => Sys2Proof.Machine.execColTravelEnd k s
  | .pairInserted k => Sys2Proof.Machine.execPairInserted k s
  | .groupStart d k => Sys2Proof.Machine.execGroupStart d k s
  | .groupStop d k => Sys2Proof.Machine.execGroupStop d k s
  | .groupStopEffect k => Sys2Proof.Machine.execGroupStopEffect k s
  | .groupRejoin d k b => Sys2Proof.Machine.execGroupRejoin d k b s
  | .groupRestart d k => Sys2Proof.Machine.execGroupRestart d k s
  | .branchJoin k b => Sys2Proof.Machine.execBranchJoin k b s
  | .stuckIsolate k b => Sys2Proof.Machine.execStuckIsolate k b s
  | .rejoinSeqEnd k b => Sys2Proof.Machine.execRejoinSeqEnd k b s
  | .starSof k b sof ident ide dominant => Sys2Proof.Machine.execStarSof k b sof ident ide dominant s
  | .windowCloseCut k => Sys2Proof.Machine.execWindowCloseCut k s
  | .cycleStart k => Sys2Proof.Machine.execCycleStart k s
  | .listenTimeout k => Sys2Proof.Machine.execListenTimeout k s
  | .coldstartBackoffEnd k => Sys2Proof.Machine.execColdstartBackoffEnd k s
  | .refBackupTimeout k => Sys2Proof.Machine.execRefBackupTimeout k s
  | .slotMissed p c => Sys2Proof.Machine.execSlotMissed p c s
  | .tmuRateWrite d v => Sys2Proof.Machine.execTmuRateWrite d v s
  | .tmuStep d w v => Sys2Proof.Machine.execTmuStep d w v s
  | .tmuLatchRead d r => Sys2Proof.Machine.execTmuLatchRead d r s
  | .epochPass => Sys2Proof.Machine.execEpochPass s
  | .servoEnable d v => Sys2Proof.Machine.execServoEnable d v s
  | .servoSample => Sys2Proof.Machine.execServoSample s
  | .servoHoldover => Sys2Proof.Machine.execServoHoldover s
  | .ppsEdge ix raw fall => Sys2Proof.Machine.execPpsEdge ix raw fall s
  | .evtInEdge ix raw rise held => Sys2Proof.Machine.execEvtInEdge ix raw rise held s
  | .evtoutEnable d ix v => Sys2Proof.Machine.execEvtoutEnable d ix v s
  | .pulseEdge ix => Sys2Proof.Machine.execPulseEdge ix s
  | .beaconDue p => Sys2Proof.Machine.execBeaconDue p s
  | .epEnable d k v => Sys2Proof.Machine.execEpEnable d k v s
  | .epLinkUp k partner => Sys2Proof.Machine.execEpLinkUp k partner s
  | .epLinkLoss k => Sys2Proof.Machine.execEpLinkLoss k s
  | .anRestart k => Sys2Proof.Machine.execAnRestart k s
  | .ethFrameReceived k bytes fcsOk symbolOk raw => Sys2Proof.Machine.execEthFrameReceived k bytes fcsOk symbolOk raw s
  | .pauseEnd k => Sys2Proof.Machine.execPauseEnd k s
  | .ethTxEnd k raw => Sys2Proof.Machine.execEthTxEnd k raw s
  | .ptpProfileWrite d v => Sys2Proof.Machine.execPtpProfileWrite d v s
  | .rlEnable d k v => Sys2Proof.Machine.execRlEnable d k v s
  | .rlAligned k => Sys2Proof.Machine.execRlAligned k s
  | .rlFault k cause => Sys2Proof.Machine.execRlFault k cause s
  | .helloTimer k => Sys2Proof.Machine.execHelloTimer k s
  | .hello k f => Sys2Proof.Machine.execHello k f s
  | .helloTimeout k => Sys2Proof.Machine.execHelloTimeout k s
  | .keyx k f => Sys2Proof.Machine.execKeyx k f s
  | .keyxTimer k => Sys2Proof.Machine.execKeyxTimer k s
  | .topo k f => Sys2Proof.Machine.execTopo k f s
  | .topoTimer => Sys2Proof.Machine.execTopoTimer s
  | .topoExpiry serial => Sys2Proof.Machine.execTopoExpiry serial s
  | .addrReqTimer => Sys2Proof.Machine.execAddrReqTimer s
  | .addrReq k f => Sys2Proof.Machine.execAddrReq k f s
  | .addrAssign k f => Sys2Proof.Machine.execAddrAssign k f s
  | .routed k f => Sys2Proof.Machine.execRouted k f s
  | .creditReport k cls count => Sys2Proof.Machine.execCreditReport k cls count s
  | .creditReportTimer k => Sys2Proof.Machine.execCreditReportTimer k s
  | .linkTxStart k raw => Sys2Proof.Machine.execLinkTxStart k raw s
  | .timeSyncTimer k => Sys2Proof.Machine.execTimeSyncTimer k s
  | .timeSync k f raw => Sys2Proof.Machine.execTimeSync k f raw s
  | .timeReply k f raw => Sys2Proof.Machine.execTimeReply k f raw s
  | .fabEnable d v => Sys2Proof.Machine.execFabEnable d v s
  | .colfTravelEnd k => Sys2Proof.Machine.execColfTravelEnd k s
  | .fabTimeWrite d v => Sys2Proof.Machine.execFabTimeWrite d v s
  | .routeRecompute => Sys2Proof.Machine.execRouteRecompute s
  | .engineLoss e cause => Sys2Proof.Machine.execEngineLoss e cause s
  | .engineLoadDone e => Sys2Proof.Machine.execEngineLoadDone e s
  | .takeoverDone p => Sys2Proof.Machine.execTakeoverDone p s
  | .devSwap d v => Sys2Proof.Machine.execDevSwap d v s
  | .swapQuietPoint => Sys2Proof.Machine.execSwapQuietPoint s
  | .swapTimeout => Sys2Proof.Machine.execSwapTimeout s
  | .retest d v => Sys2Proof.Machine.execRetest d v s
  | .reload d v => Sys2Proof.Machine.execReload d v s
  | .halt d v => Sys2Proof.Machine.execHalt d v s
  | .engineTestEnd e pass => Sys2Proof.Machine.execEngineTestEnd e pass s
  | .coreTestEnd c pass => Sys2Proof.Machine.execCoreTestEnd c pass s
  | .coreFault c cause => Sys2Proof.Machine.execCoreFault c cause s
  | .dutyMoveDone u => Sys2Proof.Machine.execDutyMoveDone u s
  | .gwInput => Sys2Proof.Machine.execGwInput s
  | .gwGapEnd r => Sys2Proof.Machine.execGwGapEnd r s
  | .gwRead d => Sys2Proof.Machine.execGwRead d s
  | .evcClaim d t => Sys2Proof.Machine.execEvcClaim d t s
  | .evcEoi d x word => Sys2Proof.Machine.execEvcEoi d x word s
  | .vectorDelivery t src level => Sys2Proof.Machine.execVectorDelivery t src level s
  | .moderationGapEnd d t => Sys2Proof.Machine.execModerationGapEnd d t s
  | .offlineFallback c src => Sys2Proof.Machine.execOfflineFallback c src s
  | .modeWrite d v => Sys2Proof.Machine.execModeWrite d v s
  | .raiseConfirmed => Sys2Proof.Machine.execRaiseConfirmed s
  | .raiseTimeout => Sys2Proof.Machine.execRaiseTimeout s
  | .sensorSample r => Sys2Proof.Machine.execSensorSample r s
  | .govFallback => Sys2Proof.Machine.execGovFallback s
  | .govReturn => Sys2Proof.Machine.execGovReturn s
  | .govWrite d hold v => Sys2Proof.Machine.execGovWrite d hold v s
  | .logIntake => Sys2Proof.Machine.execLogIntake s
  | .logClear d v => Sys2Proof.Machine.execLogClear d v s
  | .setEndpointId eid => Sys2Proof.Machine.execSetEndpointId eid s
  | .getEndpointId => Sys2Proof.Machine.execGetEndpointId s
  | .getEndpointUuid => Sys2Proof.Machine.execGetEndpointUuid s
  | .getMctpVersionSupport msgType => Sys2Proof.Machine.execGetMctpVersionSupport msgType s
  | .getMessageTypeSupport => Sys2Proof.Machine.execGetMessageTypeSupport s
  | .getVendorDefinedMsgSupport selector => Sys2Proof.Machine.execGetVendorDefinedMsgSupport selector s
  | .getSensors inst req => Sys2Proof.Machine.execGetSensors inst req s
  | .setMode inst req => Sys2Proof.Machine.execSetMode inst req s
  | .getAttest inst req => Sys2Proof.Machine.execGetAttest inst req s
  | .getLog inst req => Sys2Proof.Machine.execGetLog inst req s
  | .stage inst req programmed => Sys2Proof.Machine.execStage inst req programmed s
  | .activate inst req programmed => Sys2Proof.Machine.execActivate inst req programmed s
  | .getStatus inst req => Sys2Proof.Machine.execGetStatus inst req s
  | .smbusReset inst req => Sys2Proof.Machine.execSmbusReset inst req s
  | .clearAlert inst req => Sys2Proof.Machine.execClearAlert inst req s
  | .alertResponse => Sys2Proof.Machine.execAlertResponse s
  | .stagingHolderTimeout => Sys2Proof.Machine.execStagingHolderTimeout s
  | .imgConfirm c => Sys2Proof.Machine.execImgConfirm c s
  | .imgRevert c => Sys2Proof.Machine.execImgRevert c s
  | .svcRestart cause => Sys2Proof.Machine.execSvcRestart cause s
  | .scrub m addr uncorrectable => Sys2Proof.Machine.execScrub m addr uncorrectable s
  | .debugUnlockRequest => Sys2Proof.Machine.execDebugUnlockRequest s
  | .debugUnlock sig => Sys2Proof.Machine.execDebugUnlock sig s
  | .warmReset c => Sys2Proof.Machine.execWarmReset c s
  | .powerOnReset => Sys2Proof.Machine.execPowerOnReset s
  | .boot => Sys2Proof.Machine.execBoot s
  | .bankSupplyReturn b v33 => Sys2Proof.Machine.execBankSupplyReturn b v33 s
  | .svcRestartEnd => Sys2Proof.Machine.execSvcRestartEnd s
  | .perstHigh => Sys2Proof.Machine.execPerstHigh s
  | .selfTestForcedStart => Sys2Proof.Machine.execSelfTestForcedStart s
  | .ptpMessageInterval k m => Sys2Proof.Machine.execPtpMessageInterval k m s
  | .announceReceiptTimeout k => Sys2Proof.Machine.execAnnounceReceiptTimeout k s
  | .rlFrameDiscard k why cls frame => Sys2Proof.Machine.execRlFrameDiscard k why cls frame s
  | .invalidOpcodeDescriptor d n opcode x => Sys2Proof.Machine.execInvalidOpcodeDescriptor d n opcode x s
  | .unsupportedMctpMessage bytes => Sys2Proof.Machine.execUnsupportedMctpMessage bytes s

end Sys2Proof.Machine
end

