-- ==== Sys2Proof/Machine/View.lean ====
section
/-! DEFINITION. What a host read of BAR0 and BAR2 returns, derived from the state: the RO fields of the register tables, and who sees
them (R39 to R41, R138, R298, R338, R483, R488). Reads that change the state are commands of their own. -/
namespace Sys2Proof.Machine

/-- A word made of fields: lowest bit, width, value. -/
def pack (fs : List (Nat × Nat × Nat)) : DWord := fs.foldl (fun w f => putFld w f.1 f.2.1 f.2.2) 0

/-! ### RO fields by block -/

/-- LIFECYCLE (DOM_LIFE). -/
def Lifecycle.code : Lifecycle → Nat
  | .unowned => 1
  | .owned => 2
  | .rma => 3
  | .retired => 4

/-- DOM_LIFE. -/
def State.lifeView (s : State) : DWord :=
  let o := s.belay.otp
  pack [(0, 3, o.life.code), (4, 3, o.slots.toList.findIdx (fun x => x.used && !x.revoked)), (8, 4, (o.slots.toList.filter (fun x => !x.used)).length),
    (16, 1, b2n s.belay.debugUnlocked), (17, 1, b2n s.belay.jtagChallenge.isSome)]

/-- A field of the selected key slot, 0 where the domain does not hold it (R170). -/
def State.sealView (s : State) (d : Dom) (f : KeySlot → Nat) : DWord :=
  match s.key (s.rf (.fn d .sealSel) 0 8) with
  | some k => if k.dom = d then BitVec.ofNat 64 (f k) else 0
  | none => 0

/-- RO fields of a function's own registers. -/
def State.fnView (s : State) (d : Dom) (r : FnReg) : DWord :=
  let f := s.func d
  match r with
  | .devId => pack [(0, 16, Config.vendorId.toNat), (16, 16, if d = 0 then 0x3200 else 0x3201), (32, 8, 0xB0), (40, 8, 1)]
  | .hoststat => pack [(16, 16, f.flrAborts.toNat)]
  | .objRes => pack [(0, 1, b2n (s.objBusy d)), (8, 8, f.objRes.toNat)]
  | .objRt => f.objRt.setWidth 64
  | .fltRes => pack [(0, 1, b2n (s.fltBusy d)), (8, 8, f.fltRes.toNat)]
  | .gwRes => pack [(0, 1, b2n (s.gwBusy d)), (8, 8, f.gwRes.toNat)]
  | .sealCfg => s.sealView d (fun k => b2n k.mac64)
  | .sealCtr => s.sealView d (fun k => k.ctr.toNat)
  | .sealLast => s.sealView d (fun k => k.last.toNat)
  | .sealWin => s.sealView d (fun k => k.win.toNat)
  | .sealFail i => pack [(0, 16, (f.sealFail.toList.getD (2 * i.val) 0).toNat), (16, 16, (f.sealFail.toList.getD (2 * i.val + 1) 0).toNat)]
  | _ => 0

/-- RO fields of a ring's registers, in its domain. -/
def State.ringView (s : State) (i : Nat) (r : RingReg) : DWord :=
  let x := s.ring i
  let full := ringType (s.ringCfg i) == 3 && bit (s.ringCfg i) 0 && x.active && !x.wait.isEmpty
  match r with
  | .status => pack [(0, 16, x.head.toNat), (16, 11, x.inflight), (27, 1, b2n x.active), (28, 1, b2n full)]
  | .drops => x.drops.setWidth 64
  | _ => 0

/-- Remaining hold time of a port or of the group whose anchor it is (FPn_HOLDLEFT, R129, R247). -/
def State.holdLeft (s : State) (p : PortId) : Nat :=
  let left := fun e : Option DWord => match e with
    | some due => s.usLeft due
    | none => 0xFFFFFFFF
  let x := s.port p
  match s.liveGroup p with
  | some k => if (s.group k).state = .hold ∧ s.anchor k = p then left (s.group k).holdEnd else 0
  | none => if x.state = .hold then left x.holdEnd else if x.state = .isolated ∧ x.prior = .hold then ((x.holdKept).getD 0).toNat else 0

/-- FPn_TXHEAD: the lowest-ranked candidate. -/
def State.txHead (s : State) (p : PortId) : DWord :=
  match lowest ((s.port p).cands.filter inSet) with
  | none => 0
  | some c =>
    let item := match c.src with
      | .obj o => o.toNat
      | .ring _ => c.op.tag.toNat
    pack [(0, 16, item), (16, 6, if isObj c then 0 else c.op.num.val), (22, 1, b2n (isObj c)), (23, 1, 1), (24, 1, b2n c.ready)]

/-- RO fields of a field port's registers. -/
def State.portView (s : State) (p : PortId) (r : PortReg) : DWord :=
  let x := s.port p
  match r with
  | .state =>
    let shown := x.state == .hold || x.state == .isolated || (x.state == .busoff && x.boAuto)
    pack [(0, 4, x.state.code), (4, 4, if shown then x.prior.code else 0), (8, 1, b2n (x.state == .busoff && x.boAuto)), (9, 1, b2n x.seqOn),
      (10, 1, b2n x.holdPending.isSome), (11, 1, b2n (x.busIdle && !Config.busTaken s.raw.toNat p.val)), (12, 1, b2n s.tmu.portHoldover), (16, 5, x.promoteCnt), (24, 8, x.cfgCode.toNat)]
  | .err => pack [(0, 9, x.tec), (16, 8, if x.seqOn then s.runsSeen p else x.rec_), (24, 2, errState x.tec x.rec_)]
  | .tdcstat => pack [(0, 16, x.loopFd.toNat), (16, 16, x.loopXl.toNat)]
  | .pair =>
    let q := s.pairs[fin 16 (p.val / 2)]
    if p.val % 2 = 0 then pack [(1, 1, b2n q.inserted), (2, 1, b2n q.colOn)] else 0
  | .cap => pack [(0, 2, (s.dev.banks[bankOf p]).toNat), (2, 2, p.val / 8)]
  | .holdleft => pack [(0, 32, s.holdLeft p)]
  | .txstat => if halted x.state then 0 else pack [(0, 6, slotsUsed x), (6, 1, b2n x.lone), (7, 1, b2n (x.lone && s.rb (.port p .mode) 12)), (8, 5, min 31 x.ackRun), (13, 1, b2n x.suspend),
      (14, 1, b2n x.onWire.isSome), (16, 3, lastErrCode x.lastErr), (19, 1, b2n x.lastErrTx), (24, 6, s.sources p)]
  | .txhead => if halted x.state then 0 else s.txHead p
  | .ftstat => pack [(0, 8, x.ft.sentSeq.toNat), (8, 6, x.ft.poll), (16, 8, x.ft.missed.toNat), (24, 8, x.ft.bad.toNat)]
  | .eng => match s.spur.attached[p] with
    | some e => pack [(0, 6, e.val), (8, 2, (s.spur.portImage[p]).val), (16, 8, (s.engine e).gen.toNat)]
    | none => pack [(0, 6, 0x3F), (8, 2, (s.spur.portImage[p]).val)]
  | _ => 0

/-- RO fields of a star group's registers. -/
def State.groupView (s : State) (k : GrpId) (r : GrpReg) : DWord :=
  let g := s.group k
  match r with
  | .state => pack [(0, 3, g.state.code), (3, 3, if g.state = .hold then g.prior.code else 0), (6, 1, b2n g.holdPending.isSome), (8, 8, g.cfgCode.toNat),
      (16, 4, g.leader), (20, 5, g.promoteCnt)]
  | .brst => (List.finRange 16).foldl (fun w b => if b.val < (s.members k).length then putFld w (2 * b.val) 2 (g.branches[b]).state.code else w) 0
  | .brv b =>
    let x := g.branches[b]
    pack [(0, 8, recentSum x), (8, 3, x.kind), (11, 1, b2n x.seqOn), (16, 16, x.total.toNat)]
  | .tstat => pack [(0, 16, g.cycleCnt.toNat), (16, 8, g.misses), (32, 32, g.deviation.toNat)]
  | _ => 0

/-- RO fields of the time unit. -/
def State.tmuView (s : State) (r : TmuReg) : DWord :=
  let t := s.tmu
  match r with
  | .now => if t.started then s.now else 0
  | .raw => t.raw
  | .ofs => t.par.ofs
  | .anchor => t.par.anchor
  | .rate => t.par.rate.setWidth 64
  | .sstat => pack [(0, 3, t.servo.code), (3, 1, b2n t.reflock), (4, 8, min 255 t.lockCnt), (16, 16, t.stepCnt.toNat)]
  | .scnt => pack [(0, 16, t.used.toNat), (16, 16, t.stale.toNat)]
  | .slast => t.lastOffset
  | _ => 0

/-- RO fields of an Ethernet port; a quantum of pause lasts 512 ns, and a begun one counts (log 38). -/
def State.ethView (s : State) (k : EpId) (r : EpReg) : DWord :=
  let x := s.eth k
  match r with
  | .stat => pack [(0, 1, b2n x.link), (1, 1, b2n x.anDone), (2, 2, x.lpPause.toNat), (4, 2, x.lpRf.toNat), (6, 1, b2n (s.pauseHon k)), (7, 1, b2n (s.paused k)),
      (16, 16, match x.pauseEnd with
        | some e => (e.toNat - s.raw.toNat + ns 512 - 1) / ns 512
        | none => 0)]
  | _ => 0

/-- RO fields of a Ridgeline link. -/
def State.linkView (s : State) (k : LinkId) (r : RlReg) : DWord :=
  let l := s.link k
  match r with
  | .stat => pack [(0, 3, l.state.code), (3, 1, b2n (s.rlLos k)), (4, 1, b2n l.rf), (5, 1, b2n (s.ringWrapped k)), (6, 1, b2n (decide (s.fab.upstream = k.val))),
      (7, 1, b2n l.encOn), (8, 8, if l.state = .up then l.nbr.addr.toNat else 0), (16, 2, if l.state = .up then l.nbr.link.toNat else 0)]
  | .dly => l.delay.setWidth 64
  | .nbr => if l.state = .up then l.nbr.serial else 0
  | _ => 0

/-- RO fields of the fabric. -/
def State.fabView (s : State) (r : FabReg) : DWord :=
  let f := s.fab
  match r with
  | .stat => pack [(0, 8, f.addr.toNat), (8, 8, f.master.toNat), (16, 8, f.hops.toNat), (24, 3, f.upstream), (27, 1, b2n f.alloc), (28, 1, b2n f.isMaster)]
  | .colf => pack [(0, 4, f.drivers.toNat)]
  | _ => 0

/-- RO fields of DEV registers. -/
def State.devView (s : State) (r : DevReg) : DWord :=
  match r with
  | .swap => pack [(16, 1, b2n s.spur.swap.isSome), (24, 8, s.spur.swapResult.toNat)]
  | .secmd => pack [(16, 1, b2n s.spur.cmdUnit.isSome), (24, 8, s.spur.cmdResult.toNat)]
  | .mstat => s.mstat.setWidth 64
  | .rststat => pack [(0, 3, s.dev.cause.toNat), (3, 1, b2n s.dev.ready), (4, 1, b2n s.dev.recovery), (8, 4, s.dev.absent.toNat), (16, 16, s.dev.warmCount.toNat)]
  | _ => 0

/-- What Cairn's registers show now, or showed last while the service firmware is out (R434). -/
def State.crnShown (s : State) : CrnLast := s.cairn.last.getD s.crnNow

/-- RO fields of Cairn's registers. -/
def State.crnView (s : State) (r : CrnReg) : DWord :=
  let x := s.crnShown
  match r with
  | .logstat => BitVec.ofNat 64 (x.logNext % 2 ^ 32)
  | .loglost => x.logLost.setWidth 64
  | .smbevt => x.smbEvt.setWidth 64
  | .imgstat => x.imgstat.setWidth 64
  | .scrub => pack [(0, 24, x.corrected), (24, 8, x.uncorr.toNat)]
  | _ => 0

/-- A word of 32 sources (EVC_PENDi, EVC_ACTIVEi). -/
def srcWord (p : Nat → Bool) (i : Nat) : DWord := (List.range 32).foldl (fun w j => if p (32 * i + j) then setBit w j else w) 0

/-- Every RO field of a register as domain d's view shows it. -/
def State.statusOf (s : State) (r : Reg) : DWord :=
  match r with
  | .domLife => s.lifeView
  | .domApply => pack [(1, 1, b2n s.belay.applying.isSome), (8, 8, s.belay.result.toNat)]
  | .fn d q => s.fnView d q
  | .ring n q => s.ringView n.val q
  | .port p q => s.portView p q
  | .grp k q => s.groupView k q
  | .tmu q => s.tmuView q
  | .ppsLast i => s.tmu.ppsStamp[i]
  | .evtinIdx i => pack [(0, 16, (s.tmu.captures[i]).prod.toNat)]
  | .out i .cfg => pack [(5, 1, b2n ((s.tmu.pulses[i]).running || (s.tmu.pulses[i]).ends.isSome))]
  | .out i .emitted => (s.tmu.pulses[i]).emitted.setWidth 64
  | .ep k q => s.ethView k q
  | .counter b i => if i.val < 64 then (Tbl.get 0 s.counts (64 * b.val + i.val)).setWidth 64 else 0
  | .half b i => if i.val < 2 then srcWord (fun j => Tbl.get false s.halves (64 * b.val + j)) i.val else 0
  | .rl k q => s.linkView k q
  | .fab q => s.fabView q
  | .seStat e =>
    let x := s.engine e
    pack [(0, 3, x.state.code), (8, 5, x.port.val), (16, 2, x.image.val), (18, 1, b2n x.held), (24, 8, x.gen.toNat)]
  | .seFault e => pack [(0, 4, (s.engine e).cause.toNat), (8, 8, (s.engine e).count.toNat)]
  | .gcStat c =>
    let x := s.core c
    let duty := fun i : Fin 4 => b2n ((s.spur.duties[i]).core == some c)
    pack [(0, 2, x.state.code), (4, 4, duty 0 + 2 * duty 1 + 4 * duty 2 + 8 * duty 3), (8, 4, x.cause.toNat)]
  | .seimg i => pack [(0, 1, b2n (s.spur.images[i]).valid), (8, 8, (s.spur.images[i]).family.toNat), (16, 8, (s.spur.images[i]).gen.toNat)]
  | .dev q => s.devView q
  | .evcClaim d t => pack [(0, 8, (s.claimed d t.val).getD 0)]
  | .evcPri d t => pack [(0, 4, s.runPri d t.val), (4, 5, (s.stack d t.val).length)]
  | .evcSrc d x =>
    let ring := if x.val ≤ 64 then pack [(4, 7, s.srcTarget d x.val), (11, 2, s.srcClass d x.val)] else 0
    ring ||| pack [(14, 1, b2n (s.level d x.val))]
  | .evcWord d k i => if k.val = 2 then srcWord (fun x => s.deliverable d x) i.val else if k.val = 3 then srcWord (fun x => s.srcActive d x) i.val else 0
  | .crn q => s.crnView q
  | .crnSlot c => (s.crnShown.slots[c]).setWidth 64
  | _ => 0

/-- Registers that show nothing of their own: those of an odd port's pair, and the window on the selected key slot (FPn_PAIR, R170). -/
def hidden : Reg → Bool
  | .port p .pair => decide (p.val % 2 = 1)
  | .fn _ .sealCfg | .fn _ .sealCtr | .fn _ .sealLast | .fn _ .sealWin => true
  | _ => false

/-- Bits of a register that its function sees: FLT_HIPRI shows the ports that the function's domain holds (R23, R161). -/
def State.shown (s : State) : Reg → DWord
  | .fn d .fltHipri => BitVec.ofNat 64 ((s.ports_ d).foldl (fun m p => m + 2 ^ p.val) 0)
  | _ => BitVec.allOnes 64

/-- What a register holds: CRN_EVT keeps what it last showed while the service firmware is out (R434). -/
def State.heldReg (s : State) (r : Reg) : DWord :=
  match r, s.cairn.last with
  | .fn d .crnEvt, some x => x.evt[d]
  | _, _ => s.reg r

/-- The register whole: its writable fields and its RO fields. -/
def State.regView (s : State) (r : Reg) : DWord := (if hidden r then 0 else s.heldReg r &&& s.shown r) ||| s.statusOf r

/-! ### Who sees it (R39 to R41, R298, R338, R483, R488) -/

/-- The register appears in the domain's view. D0 sees FLT_PORTn of a tenant's port: R40 opens every port register to D0 and closes the registers
of filter elements, and names this one in neither (DESIGN CHOICE, log 75). -/
def State.visible (s : State) (d : Dom) (r : Reg) : Bool :=
  match r with
  | .tmu _ | .ppsCfg _ | .ppsLast _ | .evtinCfg _ | .out _ _ => true
  | .counter _ _ | .half _ _ => s.regOwner r == d
  | .evcPri e t | .evcMod e t | .evcClaim e t => e == d && decide (t.val < (s.entry d).msixCount)
  | _ => s.regOwner r == d || d == 0

/-- The register whose high half a read of its low half latches (R280). -/
def latchOf : Reg → Option TimeReg
  | .tmu .now => some .now
  | .tmu .raw => some .raw
  | .tmu .ofs => some .ofs
  | .tmu .anchor => some .anchor
  | _ => none

/-- The high half of a 64-bit register: of a time register the half latched by the function's last read of its low half, which stays until
that half is read again (R280, log 54). -/
def State.highView (s : State) (d : Dom) (r : Reg) : DWord :=
  match (latchOf r).bind (fun t => (s.func d).latch[timeIx t]) with
  | some w => w.setWidth 64
  | none => s.regView r >>> 32

/-- An entry of an EVT_IN buffer: its owner's and D0's (R297, R298). -/
def State.captureRead (s : State) (d : Dom) (i : Fin 8) (n : Fin 16) : BitVec 128 :=
  if d = 0 ∨ s.rf (.evtinCfg i) 16 4 = d.val then (s.tmu.captures[i]).entries[n] else 0

/-- The EVT_IN buffers in BAR0, 16 entries of 16 bytes at 2D000h + n x 100h: eight bytes from an offset within an entry (R297). -/
def State.captureAt (s : State) (d : Dom) (off : Nat) : DWord :=
  (s.captureRead d (fin 8 ((off - 0x2D000) / 0x100)) (fin 16 (off % 0x100 / 16)) >>> (8 * (off % 16))).setWidth 64

/-- The 64-bit register, or the 32-bit register in the low half, that a read of the domain's BAR0 finds at an offset; a function whose entry
is not valid sees DEV_ID alone (R21, R41, R504). -/
def State.bar0Read (s : State) (d : Dom) (off : Nat) : DWord :=
  if !s.answers || !s.present d then 0
  else if d ≠ 0 ∧ s.ringBeyond d off then 0
  else if 0x2D000 ≤ off ∧ off < 0x2D800 then (if s.dev.recovery || !s.active d || off % 4 != 0 then 0 else s.captureAt d off)
  else match s.regAt d off with
    | none => 0
    | some (r, hi) =>
      if (s.dev.recovery && !recoveryReg r) || !s.visible d r || (!s.active d && r != .fn d .devId) then 0
      else if hi then s.highView d r else s.regView r

/-! ### Configuration space (R55, R56) -/

/-- What the manual gives of configuration space: identity, SR-IOV, MSI-X and the payload sizes. -/
inductive CfgField where
  | vendorId
  | deviceId
  | classCode
  | totalVfs
  | numVfs
  | vfEnable
  | firstVfOffset
  | vfStride
  | msixTableSize
  | msixEnable
  | functionMask
  | maxPayload
  | maxReadRequest
  deriving DecidableEq, Repr

/-- A configuration request: no answer while the interface is in reset, Retry Status until READY, no function, or the field (R482). -/
inductive CfgAnswer where
  | down
  | retry
  | noFunction
  | value (n : Nat)
  deriving DecidableEq, Repr

/-- A field of a function's configuration space; sizes in bytes and entries; the SR-IOV capability is the PF's. -/
def State.cfgField (s : State) (d : Dom) (f : CfgField) : Nat :=
  let pf (n : Nat) : Nat := if d = 0 then n else 0
  match f with
  | .vendorId => Config.vendorId.toNat
  | .deviceId => if d = 0 then 0x3200 else 0x3201
  | .classCode => 0x0C0900
  | .totalVfs => pf 15
  | .numVfs => pf s.dev.numVfs.val
  | .vfEnable => pf (b2n s.dev.vfEnable)
  | .firstVfOffset => pf 1
  | .vfStride => pf 1
  | .msixTableSize => 128
  | .msixEnable => b2n (s.func d).msixEnable
  | .functionMask => b2n (s.func d).funcMask
  | .maxPayload => 512
  | .maxReadRequest => 4096

/-- A configuration read of a function (R482, R488). -/
def State.configRead (s : State) (d : Dom) (f : CfgField) : CfgAnswer :=
  if s.dev.hostDown || s.dev.stage == .held then .down
  else if !s.dev.ready then .retry
  else if !s.present d then .noFunction
  else .value (s.cfgField d f)

/-! ### Rights over each class of state (R39) -/

/-- The agents of R39, and the classes of state. -/
inductive Agent where
  | owner
  | tenant
  | belay
  | spur
  | gateway
  | cairn
  | smbus
  | debug
  deriving DecidableEq, Repr

inductive StateClass where
  | ports
  | objects
  | filters
  | rings
  | counters
  | tsq
  | log
  | keys
  | keyQuota
  | routeOwner
  | routePolicy
  | routeLinks
  | time
  | images
  | reports
  | partition
  | otp
  deriving DecidableEq, Repr

/-- How far a right reaches: nothing, the agent's own, everything, or what a grant in DOM_SMB or the partition entry allows. -/
inductive Scope where
  | none_
  | own
  | all
  | granted
  deriving DecidableEq, Repr

/-- Read, change, and use without reading. -/
structure Right where
  read : Scope := .none_
  write : Scope := .none_
  use : Scope := .none_
  deriving DecidableEq, Repr

/-- The table of R39. Use stands for use by handle, for DMA on a port's rings, and for a request, verification or activation. -/
def rights : StateClass → Agent → Right
  | .ports, .owner => ⟨.all, .own, .none_⟩
  | .ports, .tenant => ⟨.own, .own, .none_⟩
  | .ports, .belay => ⟨.all, .none_, .none_⟩
  | .ports, .spur => ⟨.own, .own, .none_⟩
  | .ports, .cairn => ⟨.all, .none_, .none_⟩
  | .ports, .debug => ⟨.all, .all, .none_⟩
  | .objects, .owner | .objects, .tenant | .objects, .spur | .objects, .gateway => ⟨.own, .own, .none_⟩
  | .objects, .debug => ⟨.all, .all, .none_⟩
  | .filters, .owner | .filters, .tenant => ⟨.own, .own, .none_⟩
  | .filters, .debug => ⟨.all, .all, .none_⟩
  | .rings, .owner | .rings, .tenant => ⟨.own, .own, .none_⟩
  | .rings, .spur => ⟨.none_, .none_, .own⟩
  | .counters, .owner => ⟨.own, .none_, .none_⟩
  | .counters, .tenant => ⟨.own, .none_, .none_⟩
  | .counters, .belay | .counters, .debug => ⟨.all, .none_, .none_⟩
  | .tsq, .owner | .tsq, .tenant => ⟨.own, .none_, .none_⟩
  | .log, .owner => ⟨.all, .none_, .none_⟩
  | .log, .tenant => ⟨.own, .none_, .none_⟩
  | .log, .belay | .log, .spur | .log, .gateway => ⟨.none_, .all, .none_⟩
  | .log, .cairn => ⟨.all, .all, .none_⟩
  | .log, .smbus => ⟨.granted, .none_, .none_⟩
  | .log, .debug => ⟨.all, .none_, .none_⟩
  | .keys, .tenant => ⟨.none_, .none_, .own⟩
  | .keys, .belay => ⟨.all, .all, .none_⟩
  | .keyQuota, .owner | .keyQuota, .belay => ⟨.all, .all, .none_⟩
  | .keyQuota, .tenant => ⟨.own, .none_, .none_⟩
  | .routeOwner, .owner | .routeOwner, .belay => ⟨.all, .all, .none_⟩
  | .routeOwner, .tenant => ⟨.own, .none_, .none_⟩
  | .routeOwner, .debug => ⟨.all, .none_, .none_⟩
  | .routePolicy, .owner | .routePolicy, .tenant => ⟨.own, .own, .none_⟩
  | .routePolicy, .belay | .routePolicy, .gateway | .routePolicy, .debug => ⟨.all, .none_, .none_⟩
  | .routeLinks, .owner | .routeLinks, .belay | .routeLinks, .debug => ⟨.all, .none_, .none_⟩
  | .routeLinks, .tenant => ⟨.own, .none_, .none_⟩
  | .routeLinks, .gateway => ⟨.all, .all, .none_⟩
  | .time, .owner | .time, .gateway => ⟨.all, .all, .none_⟩
  | .time, .tenant => ⟨.all, .none_, .granted⟩
  | .time, .belay | .time, .debug => ⟨.all, .none_, .none_⟩
  | .time, .smbus => ⟨.granted, .none_, .none_⟩
  | .images, .owner => ⟨.all, .all, .none_⟩
  | .images, .belay => ⟨.none_, .none_, .all⟩
  | .images, .cairn => ⟨.none_, .all, .none_⟩
  | .images, .smbus => ⟨.none_, .granted, .none_⟩
  | .reports, .owner | .reports, .belay => ⟨.none_, .none_, .all⟩
  | .reports, .tenant => ⟨.none_, .none_, .own⟩
  | .reports, .smbus => ⟨.none_, .none_, .granted⟩
  | .partition, .owner | .partition, .belay => ⟨.all, .all, .none_⟩
  | .partition, .tenant => ⟨.own, .none_, .none_⟩
  | .partition, .debug => ⟨.all, .none_, .none_⟩
  | .otp, .owner => ⟨.all, .none_, .none_⟩
  | .otp, .belay => ⟨.all, .all, .none_⟩
  | _, _ => {}

/-- The class of R39 to which a register belongs, for those that unlocked debug reaches. -/
def Reg.stateClass : Reg → Option StateClass
  | .port _ _ | .grp _ _ | .ep _ _ | .epMac _ _ | .epHash _ _ => some .ports
  | .fltPort _ => some .filters
  | .counter _ _ | .half _ _ => some .counters
  | .tmu _ | .ppsCfg _ | .ppsLast _ | .evtinCfg _ | .evtinIdx _ | .out _ _ => some .time
  | .domStage _ | .domApply => some .partition
  | _ => none

/-- A debugger may read, or change, a class of state (R39, R49, R50). -/
def State.debugReads (s : State) (c : StateClass) : Bool := s.belay.debugUnlocked && (rights c .debug).read != .none_
def State.debugWrites (s : State) (c : StateClass) : Bool := s.belay.debugUnlocked && (rights c .debug).write != .none_

/-- What unlocked debug reads of a register, of a byte of Tarn, of a filter element (R39, R49). -/
def State.debugRead (s : State) (r : Reg) : DWord :=
  match r.stateClass with
  | some c => if s.debugReads c then s.regView r else 0
  | none => 0
def State.debugTarn (s : State) (a : Nat) : Byte := if s.debugReads .objects then Tbl.get 0 s.tarn a else 0
def State.debugFilter (s : State) (i : Nat) : BitVec 128 := if s.debugReads .filters then Tbl.get 0 s.flt i else 0
/-- Log records that unlocked debug reads, with their sequence numbers; the sensitive ones were erased at the unlock (R39 note c). -/
def State.debugLog (s : State) : List (Nat × LogRec) := if s.debugReads .log then s.log.recs else []
/-- A route entry with its owner, and a partition entry, as unlocked debug reads them (R39). -/
def State.debugRoute (s : State) (r : Nat) : Option (Nat × Route) := if s.debugReads .routeLinks then some (s.routeOwner r, s.route r) else none
def State.debugEntry (s : State) (d : Dom) : Option Entry := if s.debugReads .partition then some (s.entry d) else none

/-- What unlocked debug changes: the writable fields of a port's register, a byte of Tarn, a filter element (R39, R49). -/
def State.debugWrite (s : State) (r : Reg) (v : DWord) : State :=
  match r.stateClass with
  | some c => if s.debugWrites c then s.writeFields 0 r (BitVec.allOnes 64) v (fun _ => false) else s
  | none => s
def State.debugTarnWrite (s : State) (a : Nat) (b : Byte) : State :=
  if s.debugWrites .objects ∧ a < 960 * 4096 then { s with tarn := Tbl.put 0 s.tarn a b } else s
def State.debugFilterWrite (s : State) (i : Nat) (e : BitVec 128) : State :=
  if s.debugWrites .filters ∧ i < 16384 then { s with flt := Tbl.put 0 s.flt i e } else s

/-! ### BAR2 and BAR4 -/

/-- A byte of BAR2 (R56, R138). -/
def State.bar2Read (s : State) (d : Dom) (a : Nat) : Byte :=
  if !s.serves || !s.active d then 0
  else if d ≠ 0 then s.tarnByte d a
  else if (s.units[d]).contains (a / 4096) then Tbl.get 0 s.tarn a else 0

/-- A 32-bit word of BAR4: the MSI-X table at 0000h, the PBA at 1000h (R56; layouts of PCI Express, log 14). -/
def State.bar4Read (s : State) (d : Dom) (off : Nat) : Word :=
  let f := s.func d
  if !s.serves || !s.active d then 0
  else if off < 0x800 then
    if off % 16 / 4 = 3 then BitVec.ofNat 32 (b2n (!f.vecOpen.contains (off / 16)))
    else (Tbl.get 0 f.vecTable (off / 16) >>> (32 * (off % 16 / 4))).setWidth 32
  else if 0x1000 ≤ off ∧ off < 0x1010 then (srcWord (fun t => f.vecPending.contains t) ((off - 0x1000) / 4)).setWidth 32
  else 0

end Sys2Proof.Machine
end

