-- ==== Sys2Proof/Machine/Pins.lean ====
section
/-! DEFINITION. The state of the output pins, derived from the state of the device (R98 to R100, R133, R217, R299, R375, R438, R443, R458, R489,
R491). -/
namespace Sys2Proof.Machine

/-- What an output pin shows. -/
inductive PinState where
  /-- not driven, high-impedance, no output -/
  | released
  | pullUp
  | pullDown
  /-- electrical idle -/
  | idle
  | level (high : Bool)
  /-- the bit stream, or the signal, of the unit behind the pin -/
  | stream
  deriving DecidableEq, Repr

/-- The columns of R489 that the device's state tells apart; the host reset changes the PCI Express lanes alone. -/
inductive Phase where
  | powerOnReset
  | boot
  | warm
  | running
  deriving DecidableEq, Repr

def State.phase (s : State) : Phase :=
  if s.dev.ready then .running else if s.dev.stage = .held then .powerOnReset else if s.dev.cause = 1 then .boot else .warm

/-- A member port whose branch is not driven: it is JOINING or OUT, or its pair is not inserted (R134, R235). -/
def State.undriven (s : State) (p : PortId) : Bool :=
  s.pairOpen p || (match s.liveGroup p with
    | some k =>
      let b := ((s.group k).branches[fin 16 (s.branchNo k p)]).state
      b == .joining || b == .out
    | none => false)

/-- FPn_TXD: recessive, which is high, in the states that send nothing, and after the loss of an engine that left an attempt uncommitted
(R98, R100, R217, R397, R489). -/
def State.txdPin (s : State) (p : PortId) : PinState :=
  let x := s.port p
  if !s.bankOn p then .released
  else if !s.dev.ready then .pullUp
  else if halted x.state || ((x.state == .busoff || (x.state == .recovery && x.seqOn)) && (s.liveGroup p).isNone)
      || s.txdRecessive p || s.undriven p || (x.onWire.any (fun a => a.destroyed) && (s.liveGroup p).isNone) then .level true
  else .stream

/-- The port whose FPn_MODE governs a port: the anchor of its group (R228). -/
def State.modePort (s : State) (p : PortId) : PortId := ((s.groupOf p).map (fun k => s.anchor k)).getD p

/-- FPn_STB: high is the standby level with STB_INV 0, low with STB_INV 1 (R98, R99, R489). -/
def State.stbPin (s : State) (p : PortId) : PinState :=
  if !s.bankOn p then .released
  else if !s.dev.ready then .pullUp
  else
    let standby := decide ((s.port p).state = .off) || (decide ((s.port p).state = .sleep) && s.rb (.port p .sleep) 3)
    .level (standby != s.rb (.port (s.modePort p) .mode) 10)

/-- COLk_DRV sinks coil current; otherwise it is high-impedance (R133, R489). -/
def State.colPin (s : State) (k : PairId) : Bool := s.dev.ready && (s.pairs[k]).colOn
/-- COLFk_DRV sinks coil current (R375, R489). -/
def State.colfPin (s : State) (k : LinkId) : Bool := s.dev.ready && s.fab.drivers.getLsbD k.val
/-- An open-drain driver: low while it sinks. -/
def sink (on : Bool) : PinState := if on then .level false else .released
/-- EVT_OUTi: its level, driven low from the release of power-on reset until READY (R299, R489). -/
def State.evtOutPin (s : State) (i : Fin 4) : PinState :=
  let c := Reg.out i .cfg
  match s.phase with
  | .powerOnReset => .pullDown
  | .boot | .warm => .level false
  | .running => .level (if s.rf c 0 2 = 0 then s.rb c 3 else (s.tmu.pulses[i]).ends.isSome != s.rb c 2)
/-- TEMP_ALERT# is asserted, from step 2 of the boot on (R443, R489). -/
def State.tempAlertPin (s : State) : Bool := s.dev.otpRead && s.cairn.alert
/-- The SMBus pins answer: from step 5 of the boot on, with a service firmware (R488, R489). -/
def State.smbPins (s : State) : Bool := s.dev.cairnUp && !s.dev.absent.getLsbD 0 && !s.dev.recovery
/-- SMB_ALERT# is asserted (R458). -/
def State.smbAlertPin (s : State) : Bool := s.smbPins && s.rb (.crn .smb) 7 && decide (s.cairn.smbEvt ≠ 0)
/-- A lane that gives a signal while it is enabled. -/
def lane (on : Bool) : PinState := if on then .stream else .released

/-- The PCI Express lanes: electrical idle in power-on reset, at the start of a warm reset, and while the interface is in reset (R482, R489). -/
def State.pciePin (s : State) : PinState :=
  if s.dev.hostDown || s.phase == .powerOnReset || (s.phase == .warm && s.dev.stage == .otp) then .idle else .stream

/-- A pin as the device's own logic drives it (R489). -/
def State.ownPin (s : State) : OutPin → PinState
  | .txd p => s.txdPin p
  | .stb p => s.stbPin p
  | .col k => sink (s.colPin k)
  | .colf k => sink (s.colfPin k)
  | .vid i => .level (s.cairn.vidNow.getLsbD i.val)
  | .evtOut i => s.evtOutPin i
  | .tempAlert => sink s.tempAlertPin
  | .smbDat | .smbClk => lane (s.smbPins && s.cairn.running)
  | .smbAlert => sink s.smbAlertPin
  | .fspiCs => if s.phase = .powerOnReset then .pullUp else .stream
  | .fspiClk | .fspiIo _ => if s.phase = .powerOnReset then .pullDown else .stream
  | .rlTx k => lane (s.dev.ready && s.rb (.rl k .cfg) 0)
  | .epTx k => lane (s.dev.ready && s.rb (.ep k .cfg) 0)
  | .pcieTx _ => s.pciePin
  | .jtagTdo => lane s.dev.tap.shift

/-- A pin: EXTEST takes over every output with what its boundary cells hold; a pin without a cell value is not driven (R491). JTAG_TDO is the
scan chain's own. -/
def State.pin (s : State) (o : OutPin) : PinState :=
  match s.dev.tap.extest with
  | some cells =>
    if o = .jtagTdo then s.ownPin o
    else match cells.find? (fun c => c.1 == o) with
    | some c => .level c.2
    | none => .released
  | none => s.ownPin o

/-- A pin whose own supply is absent: not driven, high-impedance or without output, whatever the device does; board resistors then give code 4
on VID0 to VID3. The banks' supplies are in State; no row of the table takes away another supply but by power-on reset (R478, R489, log 79). -/
def unpoweredPin : OutPin → PinState
  | .vid i => if i = 2 then .pullUp else .pullDown
  | _ => .released

end Sys2Proof.Machine
end

