-- ==== Sys2Proof/Machine/Idle.lean ====
section
/-! DEFINITION. What the device does while no command waits: raw time passes (log 2). -/
namespace Sys2Proof.Machine

/-- Frames on Ridgeline links that have ended by now are counted (R374). -/
def State.wiresEnd (s : State) : State :=
  linkIds.foldl (fun s k => match (s.link k).wire with
    | some (_, e) => if e ≤ s.raw then s.endWire k false else s
    | none => s) s

/-- Commands of the register windows are over, also where the raw counter stands still (R510, log 46). -/
def State.endBusy (s : State) : State := { s with funcs := s.funcs.map (fun f => { f with objAt := none, fltAt := none, gwAt := none }) }

/-- The tester may have used the boundary-scan port meanwhile (R491, log 72). -/
def State.scan (s : State) : State :=
  let cells := OutPin.all.zipIdx.filterMap (fun e => (Config.tapCell s.free e.2).map (fun b => (e.1, b)))
  { s.draw with dev := { s.dev with tap := { shift := Config.tapShift s.free, extest := if Config.tapExtest s.free then some cells else none } } }

/-- On an empty queue the raw counter reaches its next whole microsecond, once it runs: endings are settled, frames on links end, self-tests
that wait have their turn, an activation that runs ends, and a device that boots takes its next step (R224, R273, R465, R469, R487). -/
def idle (s : State) : Result :=
  finish (s.advance s.nextUs).wiresEnd.turnTests.endBusy.endActivation.bootStep.scan

end Sys2Proof.Machine
end

