-- ==== Sys2Proof/WellFormed.lean ====
section
/-! DEFINITION. Well-formed commands: operands that agree with each other and with the manual's ranges. A command that is not well-formed
cannot occur; what the model does with it is log 12. -/
namespace Sys2Proof

open Machine

/-- A field frame whose format, identifier, DLC and data agree (R117, R120). -/
def frameOk (f : CanFrame) : Bool :=
  (f.ide || decide (f.ident.toNat < 2048)) &&
  (match f.fmt with
   | .cc => !f.brs && !f.esi && (if f.rtr then f.data.isEmpty else decide (f.data.length = min 8 f.dlc.toNat))
   | .fd => !f.rtr && decide (f.data.length = dlcLen .fd f.dlc)
   | .xl => !f.rtr && !f.ide && lenOk .xl f.data.length)

/-- A frame on a Ridgeline link whose payload fits the LENGTH field (R343). -/
def rlOk (a : RlArrival) : Bool := decide (a.frame.payload.length ≤ 2112)

/-- As many values as there are sensors, in their ranges (R435). -/
def sensorsOk : Sensors → Bool
  | .temp v => v.length == 6 && v.all (fun t => decide (-220 ≤ t ∧ t ≤ 600))
  | .rail v => v.length == 8 && v.all (fun m => decide (m ≤ 4000))
  | .pace v => v.length == 12
  | .age v => v.length == 4

/-- Offset and width of a host write agree (R18). -/
def targetOk (w : Width) (o : Nat) : Bool := o % 4 == 0 && (w == .low || o % 8 == 0)

/-- The data of a signature (R47). -/
def sigOk (b : List Byte) : Bool := b.length == 96

/-- A command whose operands could be those of a device. -/
def Instr.wf : Instr → Bool
  | .registerWrite _ t w _ => match t with
    | .bar0 o => targetOk w o.toNat
    | .bar2 o => targetOk w o.toNat
    | .bar4 o => targetOk w o.toNat
    | _ => true
  | .devKick _ _ words => decide (words.length ≤ 64)
  | .ethTx _ _ x b => b.length == dnum x 4 2
  | .objWrite _ _ x b => b.length == dnum x 6 2
  | .keyLoad _ _ x b => b.length == blobLen (dnum x 4 1)
  | .ownerEnrol _ _ _ b => b.length == 96
  | .ownerRelease _ _ _ b => sigOk b
  | .retire _ _ _ b => sigOk b
  | .rmaEnter _ _ _ b => sigOk b
  | .debugUnlock b => sigOk b
  | .attest _ _ _ b => b.length == 32
  | .imgWrite _ _ x b _ => b.length == dnum x 8 4
  | .gwRule _ _ _ b => b.length == 32
  | .trvWrite _ _ x b => b.length == 32 * dnum x 8 2
  | .rtWrite _ _ x b => b.length == 32 * dnum x 8 2
  | .wakeFrame _ f => frameOk f
  | .frameReceived _ f t _ => frameOk f && decide (t.sof ≤ t.done)
  | .payloadLoaded _ _ _ b => b.all (fun v => decide (v.length ≤ 2048))
  | .ethFrameReceived _ b _ _ _ => decide (14 ≤ b.length)
  | .hello _ f => rlOk f
  | .keyx _ f => rlOk f
  | .topo _ f => rlOk f
  | .addrReq _ f => rlOk f
  | .addrAssign _ f => rlOk f
  | .routed _ f => rlOk f
  | .timeSync _ f _ => rlOk f
  | .timeReply _ f _ => rlOk f
  | .sensorSample r => sensorsOk r
  | _ => true

end Sys2Proof
end

