-- ==== Sys2Proof/Safety.lean ====
section
/-! DEFINITION. What counts as a safe run: no stop, and the canonical forms of the state. -/
namespace Sys2Proof.Machine

/-- The machine answers a next state: it neither stops with a fault nor refuses. -/
def completes (r : Result) : Prop := ∃ t, r = .next t

/-- The command completes at s, and p holds in the next state. -/
def Does (i : Instr) (s : State) (p : State → Prop) : Prop := ∃ t, exec i s = .next t ∧ p t

/-- Registers, tarn units, rings, objects, filter rows, routes, counters, latched halves and keys are in canonical form: indexes rising,
nothing listed that an unlisted index reads as. -/
structure TablesOk (s : State) : Prop where
  regs : RegFile.wf s.regs = true
  tarn : Tbl.wf 0 s.tarn = true
  rings : Tbl.wf {} s.rings = true
  objs : Tbl.wf {} s.objs = true
  flt : Tbl.wf 0 s.flt = true
  routes : Tbl.wf {} s.routes = true
  counts : Tbl.wf 0 s.counts = true
  halves : Tbl.wf false s.halves = true
  keys : Tbl.wf none s.belay.keys = true

/-- The blocks of registers. -/
inductive RegBlock where
  | dom
  | fn
  | ring
  | port
  | flt
  | grp
  | tmu
  | evt
  | out
  | ep
  | ptp
  | counter
  | link
  | fab
  | spur
  | dev
  | evc
  | guard
  | cairn
  deriving DecidableEq, Repr

/-- Block of a register; the MASK and STORM words, which the storm guard writes at a delivery (R427), are one of their own. -/
def blockOf : Reg → RegBlock
  | .domLife | .domStage _ | .domApply | .domSmb => .dom
  | .fn _ _ => .fn
  | .ring _ _ => .ring
  | .port _ _ => .port
  | .fltPort _ => .flt
  | .grp _ _ => .grp
  | .tmu _ => .tmu
  | .ppsCfg _ | .ppsLast _ | .evtinCfg _ | .evtinIdx _ => .evt
  | .out _ _ => .out
  | .ep _ _ | .epMac _ _ | .epHash _ _ => .ep
  | .ptpg | .ptplt => .ptp
  | .counter _ _ | .half _ _ => .counter
  | .rl _ _ => .link
  | .fab _ => .fab
  | .seStat _ | .seFault _ | .gcStat _ | .seimg _ => .spur
  | .dev _ => .dev
  | .evcClaim _ _ | .evcEoi _ _ | .evcPri _ _ | .evcMod _ _ | .evcSrc _ _ => .evc
  | .evcWord _ k _ => if k = 1 ∨ k = 4 then .guard else .evc
  | .crn _ | .crnSlot _ => .cairn

/-- The kinds of state, for frames: a block of registers, a part of Belay, the log's records or its intake queue with what that lost, or another
part of the state. -/
inductive Part where
  | regs (b : RegBlock)
  | out
  | free
  | dev
  | partition
  | keys
  | otp
  | trust
  | funcs
  | rings
  | ports
  | rxq
  | pairs
  | groups
  | may
  | tarn
  | units
  | objs
  | flt
  | tmu
  | eths
  | ptp
  | links
  | fab
  | routes
  | spur
  | evc
  | log
  | intake
  | cairn
  | counts
  | halves
  deriving DecidableEq, Repr

/-- A part is the same in two states; memory byte by byte, registers one by one. -/
def Part.same : Part → State → State → Prop
  | .regs b, s, t => ∀ r, blockOf r = b → t.reg r = s.reg r
  | .out, s, t => t.out = s.out
  | .free, s, t => t.free = s.free
  | .dev, s, t => t.dev = s.dev
  | .partition, s, t => t.belay.entries = s.belay.entries ∧ t.belay.windows = s.belay.windows ∧ t.belay.routeDom = s.belay.routeDom
  | .keys, s, t => t.belay.keys = s.belay.keys
  | .otp, s, t => t.belay.otp = s.belay.otp
  | .trust, s, t => t.belay.applying = s.belay.applying ∧ t.belay.result = s.belay.result ∧ t.belay.challenge = s.belay.challenge ∧
      t.belay.jtagChallenge = s.belay.jtagChallenge ∧ t.belay.debugUnlocked = s.belay.debugUnlocked ∧ t.belay.closing = s.belay.closing
  | .funcs, s, t => t.funcs = s.funcs
  | .rings, s, t => ∀ i, t.ring i = s.ring i
  | .ports, s, t => t.ports = s.ports
  | .rxq, s, t => t.rxq = s.rxq
  | .pairs, s, t => t.pairs = s.pairs
  | .groups, s, t => t.groups = s.groups
  | .may, s, t => t.may = s.may
  | .tarn, s, t => ∀ a, Tbl.get 0 t.tarn a = Tbl.get 0 s.tarn a
  | .units, s, t => t.units = s.units
  | .objs, s, t => ∀ d o, t.obj d o = s.obj d o
  | .flt, s, t => ∀ i, Tbl.get 0 t.flt i = Tbl.get 0 s.flt i
  | .tmu, s, t => t.tmu = s.tmu
  | .eths, s, t => t.eths = s.eths
  | .ptp, s, t => t.ptp = s.ptp
  | .links, s, t => t.links = s.links
  | .fab, s, t => t.fab = s.fab
  | .routes, s, t => ∀ r, t.route r = s.route r
  | .spur, s, t => t.spur = s.spur
  | .evc, s, t => t.evc = s.evc
  | .log, s, t => t.log.recs = s.log.recs ∧ t.log.next = s.log.next ∧ t.log.sinceClear = s.log.sinceClear ∧ t.log.fullLost = s.log.fullLost ∧
      t.log.fullSeen = s.log.fullSeen ∧ t.log.anchor = s.log.anchor ∧ t.log.anchorGone = s.log.anchorGone
  | .intake, s, t => t.log.intake = s.log.intake ∧ t.log.lost = s.log.lost ∧ t.log.owed = s.log.owed
  | .cairn, s, t => t.cairn = s.cairn
  | .counts, s, t => t.counts = s.counts
  | .halves, s, t => t.halves = s.halves

/-- Nothing outside the parts named differs between the two states; the queue is the same. -/
def Only (ps : List Part) (s t : State) : Prop := t.pending = s.pending ∧ ∀ p, p ∉ ps → p.same s t

/-- An output leaves the device between two states. -/
def Sends (s t : State) (o : Output) : Prop := ∃ l, t.out = s.out ++ l ∧ o ∈ l

/-- A descriptor of a ring of type ty can be fetched, outside the recovery path, and its completion can be written at once: its CQ is
enabled, has room, and nothing waits for it (R77, R79, R82, R83). -/
structure RingReady (ty : Nat) (s : State) (d : Dom) (n : RingNo) (x : Desc) : Prop where
  on : s.ringOn d n ty = true
  sub : ty ≠ 3
  fetch : s.fetchable d n (x.flags.getLsbD 2) = true
  path : s.dev.recovery = false
  cqOn : s.ringOn d (s.cqOf d n) 3 = true
  room : 0 < s.room d (s.cqOf d n)
  tables : Tbl.wf {} s.rings = true

/-- A command of a CMD ring can be fetched and answered at once. -/
abbrev CmdReady : State → Dom → RingNo → Desc → Prop := RingReady 2

/-- The completion entry of a command descriptor, written whole at the next index of its CQ: TAG, ring, STATUS, INFO0 (R76, R79). -/
def Answered (s t : State) (d : Dom) (n : RingNo) (x : Desc) (status : Byte) (info0 : Word) : Prop :=
  ∃ e : CqEntry, Sends s t (s.entryOut d (s.cqOf d n) e) ∧
    e.tag = x.tag ∧ e.num = n ∧ e.status = status ∧ e.info0 = info0

/-- The data operands of a command have the lengths that it reads at s (log 12). -/
def fits (i : Instr) (s : State) : Bool :=
  match i with
  | .devKick _ _ words => decide (64 ≤ words.length)
  | .payloadLoaded p c _ (some b) => match candAt (s.port p) c with
    | some k => b.length == k.len
    | none => true
  | i => i.wf

/-- The operation that a fetched descriptor becomes (R82). -/
def State.opOf (s : State) (d : Dom) (n : RingNo) (x : Desc) : Op := { dom := d, num := n, tag := x.tag, epoch := (s.func d).epoch }

/-- Every port but p is the same. -/
def OtherPorts (s t : State) (p : PortId) : Prop := ∀ q, q ≠ p → t.port q = s.port q

/-- A register holds w, or it is a MASK or STORM word in which, beyond w, the storm guard has set bits and cleared none: every command ends with the messages
for the sources that became due, and the guard counts them (R424, R427). -/
def Kept (w : DWord) (t : State) (r : Reg) : Prop := t.reg r = w ∨ (blockOf r = .guard ∧ w &&& t.reg r = w)
/-- Every register is kept. -/
def SameRegs (s t : State) : Prop := ∀ r, Kept (s.reg r) t r
/-- Every register but those named is kept. -/
def OtherRegs (s t : State) (rs : List Reg) : Prop := ∀ r, r ∉ rs → Kept (s.reg r) t r

/-- The record of the storm guard (R427). -/
def isStorm (r : LogRec) : Bool := r.source == 0x0B && r.code == 0x01
/-- The intake queue of the log holds l, then records of the storm guard only. -/
def Queued (t : State) (l : List (DWord × LogRec)) : Prop := ∃ m, t.log.intake = l ++ m ∧ ∀ e ∈ m, isStorm e.2 = true
/-- Of the log only its intake changes: the records l join it, then records of the storm guard only. -/
def Logged (s t : State) (l : List (DWord × LogRec)) : Prop := Part.log.same s t ∧ Queued t (s.log.intake ++ l)

/-- A write by domain d to something that domain o holds reaches it (R21, R40, R41, R483, R488). -/
abbrev Writes (s : State) (d o : Dom) : Prop := s.serves = true ∧ s.active d = true ∧ o = d

/-- A command that d writes to FPn_CMD is carried out: d holds the port, no record that is being applied holds the command back, and no forced
self-test of the port runs (R28, R471). -/
structure PortCmdReady (s : State) (d : Dom) (p : PortId) : Prop where
  write : Writes s d (s.portOwner p)
  free : s.heldBack (fun a => a.ports.getLsbD p.val) = false
  test : s.underTest p = false

/-- Link k takes an arrival: it receives; the frame is authentic where the link is encrypted and in clear where it is not; its header is known, and
its TTL is not 0 (R343, R345, R386). -/
structure RlTakes (s : State) (k : LinkId) (a : RlArrival) : Prop where
  receives : rlReceives (s.link k) = true
  auth : if (s.link k).encOn then s.authentic k a = true else a.under = none
  known : rlKnown a.frame = true
  hops : a.frame.ttl ≠ 0

/-- A write of RNG_CFG by d reaches its local ring n: d is active and holds the ring, and no record being applied names it (R21, R24, R28). -/
structure RingWrite (s : State) (d : Dom) (n : RingNo) : Prop where
  answers : s.answers = true
  active : s.active d = true
  held : n.val < s.ringsHeld d
  free : s.heldBack (fun a => a.rings.any (fun x => inRangeOf x (s.dring d n))) = false

/-- A boot that has not come to its first choice of a slot yet, and finds nothing absent (R487, R488). -/
structure BootAhead (s : State) : Prop where
  ready : s.dev.ready = false
  stage : s.dev.stage = .held ∨ s.dev.stage = .rom ∨ s.dev.stage = .otp
  absent : s.dev.absent = 0
  path : s.dev.recovery = false

/-- What the device does of itself after a command: messages for interrupt sources that have become due, which the storm guard
counts and may answer with a mask and a record (R424, R427), and the note since when the nodes of groups may start (R264). -/
def signalling : List Part := [.out, .free, .may, .funcs, .evc, .intake, .regs .guard]

/-- Every part. -/
def everyPart : List Part :=
  [.regs .dom, .regs .fn, .regs .ring, .regs .port, .regs .flt, .regs .grp, .regs .tmu, .regs .evt, .regs .out, .regs .ep, .regs .ptp,
   .regs .counter, .regs .link, .regs .fab, .regs .spur, .regs .dev, .regs .evc, .regs .guard, .regs .cairn, .out, .free, .dev, .partition, .keys, .otp, .trust,
   .funcs, .rings, .ports, .rxq, .pairs, .groups, .may, .tarn, .units, .objs, .flt, .tmu, .eths, .ptp, .links, .fab, .routes, .spur, .evc, .log, .intake, .cairn,
   .counts, .halves]

/-- The parts that a command can change; a register write and the resets of the whole device can change any. -/
def touches : Instr → List Part
  | .domainEntry .. | .dmaWindowRecord .. | .routeAssign .. | .reclaim .. =>
    signalling ++ [.partition, .trust, .rings, .ports, .groups, .tarn, .units, .objs, .flt, .eths, .spur, .cairn, .counts, .halves, .regs .ep, .regs .flt, .regs .fn, .regs .grp, .regs .port, .regs .ring]
  | .recordComplete =>
    signalling ++ [.trust, .rings, .ports, .groups, .objs, .eths, .fab, .routes, .cairn, .counts, .halves, .regs .ep, .regs .fn, .regs .grp, .regs .port, .regs .ring]
  | .registerWrite .. | .warmReset .. | .powerOnReset =>
    everyPart
  | .devKick .. | .ringEnable .. | .ringDisable .. | .ringDisableDone .. | .evcEoi .. =>
    signalling ++ [.trust, .rings, .ports, .objs, .eths, .cairn, .counts, .halves, .regs .fn, .regs .ring]
  | .ringPoll .. | .cqStallPoll .. =>
    signalling ++ [.trust, .rings, .ports, .objs, .tmu, .eths, .cairn, .counts, .halves, .regs .fn, .regs .ring]
  | .dbbEnable .. | .tsqEnable .. | .gwRead .. =>
    signalling ++ [.regs .fn]
  | .txFrame .. | .objSend .. =>
    signalling ++ [.rings, .ports, .objs, .counts, .halves, .regs .fn]
  | .rxBuf .. =>
    signalling ++ [.rings, .ports, .eths, .counts, .halves]
  | .ethTx .. =>
    signalling ++ [.rings, .eths, .counts, .halves]
  | .nop .. | .attest .. | .logRead .. | .trvRead .. | .rtRead .. | .fabTopoRead .. | .invalidOpcodeDescriptor .. =>
    signalling ++ [.rings, .counts, .halves]
  | .objRead .. =>
    signalling ++ [.rings, .tarn, .objs, .counts, .halves]
  | .objReadCopyDone .. =>
    signalling ++ [.rings, .tarn, .objs, .spur, .counts, .halves]
  | .objWrite .. =>
    signalling ++ [.rings, .ports, .tarn, .objs, .counts, .halves, .regs .fn]
  | .hold .. =>
    signalling ++ [.trust, .rings, .ports, .groups, .cairn, .counts, .halves, .regs .grp, .regs .port]
  | .offsetSample .. =>
    signalling ++ [.rings, .tmu, .counts, .halves]
  | .keyGen .. | .keyLoad .. =>
    signalling ++ [.keys, .rings, .counts, .halves]
  | .keyErase .. =>
    signalling ++ [.keys, .rings, .links, .fab, .counts, .halves, .regs .fab, .regs .fn, .regs .tmu]
  | .challenge .. =>
    signalling ++ [.trust, .rings, .counts, .halves]
  | .challengeExpiry =>
    signalling ++ [.trust, .rings, .ports, .objs, .tmu, .counts, .halves, .regs .fn]
  | .ownerEnrol .. =>
    signalling ++ [.otp, .rings, .counts, .halves]
  | .ownerRelease .. | .retire .. | .rmaEnter .. =>
    signalling ++ [.partition, .keys, .otp, .trust, .rings, .ports, .rxq, .groups, .tarn, .units, .objs, .flt, .eths, .links, .fab, .routes, .spur, .log, .cairn, .counts, .halves, .regs .fab, .regs .flt, .regs .fn, .regs .grp, .regs .port, .regs .ring, .regs .tmu]
  | .imgWrite .. | .imgActivate .. =>
    signalling ++ [.rings, .cairn, .counts, .halves]
  | .gwRule .. =>
    signalling ++ [.rings, .spur, .counts, .halves]
  | .selfTest .. =>
    signalling ++ [.rings, .spur, .cairn, .counts, .halves, .regs .dev]
  | .selfTestEnd .. =>
    signalling ++ [.trust, .rings, .ports, .pairs, .groups, .links, .fab, .spur, .cairn, .counts, .halves, .regs .dev, .regs .grp, .regs .link, .regs .port]
  | .trvWrite .. =>
    signalling ++ [.rings, .groups, .counts, .halves]
  | .rtWrite .. =>
    signalling ++ [.trust, .rings, .fab, .routes, .counts, .halves]
  | .flr .. =>
    signalling ++ [.keys, .trust, .rings, .ports, .groups, .tarn, .objs, .eths, .links, .fab, .spur, .cairn, .counts, .halves, .regs .fab, .regs .fn, .regs .grp, .regs .port, .regs .tmu]
  | .flrComplete .. =>
    signalling ++ [.rings, .ports, .eths, .regs .fn, .regs .ring]
  | .pfFlr | .hostReset =>
    signalling ++ [.dev, .keys, .trust, .rings, .ports, .groups, .tarn, .objs, .eths, .links, .fab, .spur, .cairn, .counts, .halves, .regs .fab, .regs .fn, .regs .grp, .regs .port, .regs .tmu]
  | .portEnable .. | .portDisable .. | .portStart .. | .portStop .. | .portRestart .. | .portSleep .. | .portWake .. =>
    signalling ++ [.trust, .rings, .ports, .cairn, .counts, .halves, .regs .port]
  | .portStopEffect .. | .wakeEdge .. | .wakeFrame .. =>
    signalling ++ [.rings, .ports, .counts, .halves, .regs .port]
  | .busIntegrated .. =>
    signalling ++ [.ports, .pairs, .groups]
  | .startDecision .. | .listenTimeout .. | .coldstartBackoffEnd .. | .refBackupTimeout .. =>
    signalling ++ [.rings, .ports, .groups, .objs, .tmu, .counts, .halves, .regs .fn]
  | .attemptCommit .. =>
    signalling ++ [.keys, .ports]
  | .attemptEnd .. | .errorDetected .. =>
    signalling ++ [.keys, .rings, .ports, .rxq, .groups, .objs, .eths, .counts, .halves, .regs .fn, .regs .grp, .regs .port]
  | .recoverySeqEnd .. =>
    signalling ++ [.rings, .ports, .objs, .tmu, .counts, .halves, .regs .fn, .regs .port]
  | .suspendEnd .. =>
    signalling ++ [.ports]
  | .payloadLoaded .. =>
    signalling ++ [.ports, .counts, .halves]
  | .candidateExpiry .. | .slotMissed .. | .epochPass | .ppsEdge .. | .evtInEdge .. | .beaconDue .. | .moderationGapEnd ..
  | .offlineFallback .. =>
    signalling ++ [.rings, .ports, .objs, .tmu, .counts, .halves, .regs .fn]
  | .holdTakesEffect .. | .branchJoin .. =>
    signalling ++ [.rings, .ports, .groups, .counts, .halves, .regs .grp, .regs .port]
  | .holdExpiry .. | .rejoinSeqEnd .. | .cycleStart .. =>
    signalling ++ [.rings, .ports, .groups, .objs, .tmu, .counts, .halves, .regs .fn, .regs .grp, .regs .port]
  | .frameReceived .. =>
    signalling ++ [.rings, .ports, .rxq, .groups, .objs, .tmu, .eths, .counts, .halves, .regs .fn, .regs .grp, .regs .port]
  | .filterEval .. =>
    signalling ++ [.keys, .rings, .ports, .rxq, .tarn, .objs, .eths, .links, .fab, .routes, .spur, .counts, .halves, .regs .fn]
  | .bufWaitExpiry .. | .anRestart .. | .pauseEnd .. =>
    signalling ++ [.rings, .ports, .objs, .tmu, .eths, .counts, .halves, .regs .fn]
  | .objLoad .. | .objCommit .. =>
    signalling ++ [.tarn, .objs, .regs .fn]
  | .fltRead .. | .fltWrite .. =>
    signalling ++ [.flt, .regs .fn]
  | .bankSupplyLoss .. =>
    signalling ++ [.dev, .rings, .ports, .pairs, .groups, .counts, .halves, .regs .grp, .regs .port]
  | .ref25Loss | .ref25Lock =>
    signalling ++ [.tmu, .regs .tmu]
  | .refHoldoverExpiry =>
    signalling ++ [.rings, .ports, .pairs, .groups, .objs, .tmu, .counts, .halves, .regs .fn, .regs .grp, .regs .port]
  | .colTravelEnd .. =>
    signalling ++ [.rings, .ports, .pairs, .objs, .tmu, .counts, .halves, .regs .fn]
  | .pairInserted .. =>
    signalling ++ [.pairs, .regs .port]
  | .groupStart .. | .groupStop .. | .groupRejoin .. | .groupRestart .. =>
    signalling ++ [.trust, .ports, .groups, .regs .grp, .regs .port]
  | .groupStopEffect .. =>
    signalling ++ [.rings, .ports, .pairs, .groups, .counts, .halves, .regs .grp, .regs .port]
  | .stuckIsolate .. =>
    signalling ++ [.groups, .regs .grp]
  | .starSof .. | .windowCloseCut .. =>
    signalling ++ [.rings, .ports, .groups, .objs, .tmu, .counts, .halves, .regs .fn, .regs .grp]
  | .tmuRateWrite .. =>
    signalling ++ [.tmu]
  | .tmuStep .. | .servoSample =>
    signalling ++ [.tmu, .counts, .halves, .regs .fn, .regs .tmu]
  | .tmuLatchRead .. | .creditReportTimer .. | .evcClaim .. | .vectorDelivery .. | .getEndpointId | .getEndpointUuid
  | .getMctpVersionSupport .. | .getMessageTypeSupport | .getVendorDefinedMsgSupport .. | .getSensors .. | .getAttest ..
  | .getLog .. | .getStatus .. | .alertResponse | .unsupportedMctpMessage .. =>
    signalling
  | .servoEnable .. =>
    signalling ++ [.tmu, .fab, .regs .fab, .regs .tmu]
  | .servoHoldover =>
    signalling ++ [.rings, .ports, .objs, .tmu, .counts, .halves, .regs .fn, .regs .tmu]
  | .evtoutEnable .. =>
    signalling ++ [.tmu, .regs .out]
  | .pulseEdge .. =>
    signalling ++ [.rings, .ports, .objs, .tmu, .counts, .halves, .regs .fn, .regs .out, .regs .tmu]
  | .epEnable .. =>
    signalling ++ [.trust, .rings, .eths, .counts, .halves, .regs .ep]
  | .epLinkUp .. =>
    signalling ++ [.eths, .regs .ep]
  | .epLinkLoss .. =>
    signalling ++ [.rings, .eths, .counts, .halves, .regs .ep]
  | .ethFrameReceived .. | .ethTxEnd .. | .ptpMessageInterval .. =>
    signalling ++ [.rings, .ports, .objs, .tmu, .eths, .ptp, .counts, .halves, .regs .fn]
  | .ptpProfileWrite .. =>
    signalling ++ [.ptp, .regs .ptp]
  | .rlEnable .. =>
    signalling ++ [.keys, .links, .fab, .counts, .halves, .regs .fab, .regs .fn, .regs .link, .regs .tmu]
  | .rlAligned .. | .creditReport .. =>
    signalling ++ [.links]
  | .rlFault .. | .hello .. =>
    signalling ++ [.keys, .links, .fab, .counts, .halves, .regs .fab, .regs .fn, .regs .tmu]
  | .helloTimer .. | .keyxTimer .. | .linkTxStart .. | .timeSyncTimer .. | .timeSync .. | .timeReply .. | .colfTravelEnd .. =>
    signalling ++ [.rings, .ports, .objs, .tmu, .links, .counts, .halves, .regs .fn]
  | .helloTimeout .. =>
    signalling ++ [.keys, .rings, .ports, .objs, .tmu, .links, .fab, .counts, .halves, .regs .fab, .regs .fn, .regs .tmu]
  | .keyx .. =>
    signalling ++ [.keys, .links, .counts, .halves, .regs .fab]
  | .topo .. =>
    signalling ++ [.links, .fab, .counts, .halves, .regs .fab, .regs .fn, .regs .tmu]
  | .topoTimer =>
    signalling ++ [.rings, .ports, .objs, .tmu, .links, .fab, .counts, .halves, .regs .fn]
  | .topoExpiry .. =>
    signalling ++ [.rings, .ports, .objs, .tmu, .fab, .counts, .halves, .regs .fab, .regs .fn, .regs .tmu]
  | .addrReqTimer =>
    signalling ++ [.rings, .ports, .objs, .tmu, .links, .fab, .counts, .halves, .regs .fab, .regs .fn, .regs .tmu]
  | .addrReq .. | .addrAssign .. =>
    signalling ++ [.links, .fab, .counts, .halves, .regs .fab, .regs .tmu]
  | .routed .. =>
    signalling ++ [.rings, .ports, .eths, .links, .fab, .spur, .counts, .halves]
  | .fabEnable .. =>
    signalling ++ [.links, .fab, .regs .fab, .regs .tmu]
  | .fabTimeWrite .. =>
    signalling ++ [.fab, .regs .fab, .regs .tmu]
  | .routeRecompute =>
    signalling ++ [.routes]
  | .engineLoss .. =>
    signalling ++ [.keys, .ports, .spur, .regs .dev, .regs .port]
  | .engineLoadDone .. | .devSwap .. | .engineTestEnd .. | .coreTestEnd .. =>
    signalling ++ [.spur, .regs .dev]
  | .takeoverDone .. =>
    signalling ++ [.rings, .ports, .rxq, .objs, .eths, .spur, .counts, .halves, .regs .fn, .regs .port]
  | .swapQuietPoint =>
    signalling ++ [.spur, .cairn, .regs .dev]
  | .swapTimeout =>
    signalling ++ [.rings, .ports, .objs, .tmu, .spur, .counts, .halves, .regs .dev, .regs .fn]
  | .retest .. | .reload .. | .halt .. =>
    signalling ++ [.groups, .spur, .regs .dev]
  | .coreFault .. =>
    signalling ++ [.groups, .spur, .cairn, .regs .dev]
  | .dutyMoveDone .. =>
    signalling ++ [.groups, .tmu, .fab, .spur, .regs .dev, .regs .fab, .regs .fn, .regs .tmu]
  | .gwInput =>
    signalling ++ [.rings, .ports, .tarn, .objs, .eths, .links, .fab, .routes, .spur, .counts, .halves, .regs .fn]
  | .gwGapEnd .. =>
    signalling ++ [.rings, .ports, .tarn, .objs, .tmu, .eths, .links, .fab, .routes, .spur, .counts, .halves, .regs .fn]
  | .modeWrite .. | .setMode .. =>
    signalling ++ [.cairn, .regs .dev]
  | .raiseConfirmed | .govFallback | .govReturn | .stagingHolderTimeout =>
    signalling ++ [.rings, .ports, .objs, .tmu, .cairn, .counts, .halves, .regs .fn]
  | .raiseTimeout =>
    signalling ++ [.rings, .ports, .objs, .tmu, .cairn, .counts, .halves, .regs .dev, .regs .fn]
  | .sensorSample .. | .svcRestart .. =>
    signalling ++ [.cairn, .regs .fn]
  | .govWrite .. =>
    signalling ++ [.regs .cairn]
  | .logIntake =>
    signalling ++ [.log, .cairn, .counts, .halves, .regs .fn]
  | .logClear .. =>
    signalling ++ [.log, .cairn, .regs .cairn, .regs .fn]
  | .setEndpointId .. | .stage .. | .activate .. | .smbusReset .. | .clearAlert .. | .svcRestartEnd =>
    signalling ++ [.cairn]
  | .imgConfirm .. =>
    signalling ++ [.otp, .rings, .ports, .objs, .tmu, .cairn, .counts, .halves, .regs .fn]
  | .imgRevert .. =>
    signalling ++ [.groups, .spur, .cairn, .regs .fn]
  | .scrub .. =>
    signalling ++ [.keys, .rings, .ports, .rxq, .groups, .tarn, .objs, .flt, .eths, .spur, .log, .cairn, .counts, .halves, .regs .dev, .regs .fn, .regs .port]
  | .debugUnlockRequest =>
    signalling ++ [.trust]
  | .debugUnlock .. =>
    signalling ++ [.keys, .trust, .rings, .ports, .rxq, .tarn, .objs, .flt, .eths, .links, .fab, .spur, .log, .counts, .halves, .regs .fab, .regs .fn, .regs .tmu]
  | .boot =>
    signalling ++ [.dev, .fab, .spur, .cairn, .regs .cairn, .regs .dev, .regs .fn]
  | .bankSupplyReturn .. =>
    signalling ++ [.dev]
  | .perstHigh =>
    [.dev]
  | .selfTestForcedStart =>
    signalling ++ [.keys, .rings, .ports, .links, .fab, .spur, .cairn, .counts, .halves, .regs .dev, .regs .fab, .regs .fn, .regs .port, .regs .tmu]
  | .announceReceiptTimeout .. =>
    signalling ++ [.rings, .ports, .objs, .tmu, .ptp, .counts, .halves, .regs .fn]
  | .rlFrameDiscard .. =>
    signalling ++ [.links, .counts, .halves]

end Sys2Proof.Machine
end

