-- ==== Sys2Proof/Certificates/Slice0/Obligations.lean ====
section
/-! DEFINITION. What the provers are asked to prove of the model. Clauses of one statement are about different commands. -/
open Sys2Proof Sys2Proof.Machine

/-- A step takes the command at the front of the queue and is that command's effect on the state with the queue's rest; on an empty queue it is idle,
in which raw time passes (the model's choice: log 2). -/
def Obligations.FrontCommandRuns : Prop :=
  (∀ c rest s, s.pending = c :: rest → step s = exec c { s with pending := rest }) ∧ (∀ s, s.pending = [] → step s = idle s)

/-- What reset leaves. The tables are in canonical form and the queue is empty; every register holds its reset value; raw time and RATE are 0 and
READY is 0; every port is OFF and every group STOPPED; D0 has the entry of the section on the reset partition and no other entry is valid; no key, no
object and no log record exists, debug is locked, every counter reads 0, every ring is at its start, and the governor is in BASE. The values of
registers that the spec gives none are the model's (logs 5, 6 and 11). Rests on R17, R22, R44, R273, R450. -/
def Obligations.ResetState : Prop :=
  TablesOk State.reset ∧ State.reset.pending = [] ∧ (∀ r, State.reset.reg r = r.reset) ∧ State.reset.raw = 0 ∧ State.reset.dev.ready = false ∧
  (∀ p, (State.reset.port p).state = .off) ∧ (∀ k, (State.reset.group k).state = .stopped) ∧ State.reset.tmu.par.rate = 0 ∧
  State.reset.entry 0 = Entry.ownerReset ∧ (∀ d, d ≠ 0 → (State.reset.entry d).valid = false) ∧ (∀ h, State.reset.key h = none) ∧
  State.reset.belay.debugUnlocked = false ∧ (∀ i, State.reset.ring i = {}) ∧ (∀ d o, objValid (State.reset.obj d o) = false) ∧
  (∀ b i, Tbl.get 0 State.reset.counts (64 * b + i) = 0) ∧ State.reset.log.recs = [] ∧ State.reset.cairn.mode = .base

/-- An invariant: every step keeps the canonical form of the tables that hold memory, registers, rings, objects, elements, routes, counters and keys,
which is that indexes rise and nothing is listed that an unlisted index reads as. The tables are the model's own representation (DESIGN CHOICE, log
80): equal contents are equal data. -/
def Obligations.StepKeepsTables : Prop := ∀ s t, TablesOk s → step s = .next t → TablesOk t

/-- The frame of every command: every part of the state that is not named for the command is the same after it (registers one by one, Tarn byte by
byte, tables row by row), and the queue is the same. Rests on R23, R39, R58, R479. -/
def Obligations.EveryCommandTouchesOnlyItsParts : Prop := ∀ i s t, exec i s = .next t → Only (touches i) s t

/-- A step removes at most the front of the queue and adds nothing to it; what has left the device stays recorded; the raw counter never falls but by
a power-on reset (R273; logs 2 and 3). Rests on R273. -/
def Obligations.QueueOutputAndRaw : Prop := ∀ s t, step s = .next t →
  t.pending = s.pending.tail ∧ (∃ l, t.out = s.out ++ l) ∧ (s.pending.head? ≠ some .powerOnReset → s.raw ≤ t.raw)

/-- The model stops in two named cases and in no other: a data operand has not the length that the command reads (the model's choice: log 12), or the
command is about a frame of a port whose engine runs an image of a family that the spec does not describe (log 13), and never in the second way where
no port's engine does. Every command, of whatever constructor, completes at every state in which no port's engine does and at which its data operands
fit. Rests on R392. -/
def Obligations.StopsOnlyByName : Prop :=
  (∀ i s, completes (exec i s) ∨ exec i s = .fault .dataLength ∨ exec i s = .refused .otherImageFamily) ∧
  (∀ i s, (∀ p, s.otherFamily p = false) → exec i s ≠ .refused .otherImageFamily) ∧
  (∀ i s, (∀ p, s.otherFamily p = false) → fits i s = true → completes (exec i s))

/-- The lifecycle stays, or changes along an arrow of its table by the command of that arrow, sent by D0; a rollback counter never falls, a used owner
slot stays used, and a blown DUS kill fuse stays blown. Rests on R47, R467. -/
def Obligations.LifecycleAndFuses : Prop := ∀ i s t, exec i s = .next t →
  (t.belay.otp.life = s.belay.otp.life ∨
    ((∃ n x key, i = .ownerEnrol 0 n x key) ∧ s.belay.otp.life = .unowned ∧ t.belay.otp.life = .owned) ∨
    ((∃ n x sig, i = .ownerRelease 0 n x sig) ∧ s.belay.otp.life = .owned ∧ t.belay.otp.life = .unowned) ∨
    ((∃ n x sig, i = .retire 0 n x sig) ∧ (s.belay.otp.life = .owned ∨ s.belay.otp.life = .unowned) ∧ t.belay.otp.life = .retired) ∨
    ((∃ n x sig, i = .rmaEnter 0 n x sig) ∧ s.belay.otp.life = .owned ∧ t.belay.otp.life = .rma)) ∧
  (∀ c : Fin 7, s.belay.otp.rollback[c] ≤ t.belay.otp.rollback[c]) ∧ (∀ j : Fin 8, (s.belay.otp.slots[j]).used = true → (t.belay.otp.slots[j]).used = true) ∧
  (s.belay.otp.dusKilled = true → t.belay.otp.dusKilled = true)

/-- The resets. Function-level reset of a VF opens its reset, moves its epoch on, turns MSI-X off, erases its keys and no others, empties its rings,
and keeps partition, fuses and time. It completes once none of its running ports has a hold pending: the number of operations ended is shown, its
rings and registers return to reset, and its ports and the partition stay. Function-level reset of the PF turns VF Enable off and opens a reset of
every function, with its epoch and its keys. A host reset clears VF Enable and the MSI-X state of every function, keeps partition and time, and the
links where none is encrypted under a key of D0, and lasts until PERST# is high; before READY it only holds the host down. A warm reset returns every
register outside the lists of R281, R479 and R485 to reset, empties keys and rings and clears SEQ_TX of each route entry, with its cause and the count
of warm resets; fuses, lock state, log, raw time, component slots, filter elements, object configurations, traverse tables, gateway rules, the rest of
the routes and, where no read copies an object, Tarn stay. Warm resets by SMBus, by a Belay fault and at the end of recovery carry their causes (the
last one the code of a Belay fault: the model's choice, log 66); one more in a boot is counted. Power-on reset holds the device in reset and takes
registers, raw time, keys, lock state, log, rings, Tarn, objects, filters and counters to reset, and keeps fuses and component slots; that it keeps
the queue is the model's (log 2). Rests on R57, R58, R61, R281, R479, R481, R485, R488. -/
def Obligations.Resets : Prop :=
  (∀ s d, s.serves = true → d ≠ 0 → s.active d = true → (s.func d).flr = none → TablesOk s →
    Does (.flr d) s fun t => (t.func d).flr = some (s.inflight d) ∧ (t.func d).epoch = (s.func d).epoch + 1 ∧ (t.func d).msixEnable = false ∧
      (∀ h k, t.key h = some k → k.dom ≠ d) ∧ (∀ h k, s.key h = some k → k.dom ≠ d → t.key h = some k) ∧
      (∀ i, (s.entry d).ringBase ≤ i → i < (s.entry d).ringBase + (s.entry d).ringCount →
        (t.ring i).posted = [] ∧ (t.ring i).frames = [] ∧ (t.ring i).wait = [] ∧ (t.ring i).inflight = 0) ∧
      t.belay.entries = s.belay.entries ∧ t.belay.otp = s.belay.otp ∧ t.tmu = s.tmu) ∧
  (∀ s d n, (s.func d).flr = some n → (s.ports_ d).any (fun p => running (s.port p).state && (s.port p).holdPending.isSome) = false →
    Does (.flrComplete d) s fun t => (t.func d).flr = none ∧ (t.func d).flrAborts = BitVec.ofNat 16 (min n 65535) ∧ (t.func d).tsqProd = 0 ∧
      (∀ i, t.ring i = if (s.entry d).ringBase ≤ i ∧ i < (s.entry d).ringBase + (s.entry d).ringCount then {} else s.ring i) ∧
      (∀ r, Kept (if s.flrReg d r then r.reset else s.reg r) t r) ∧ t.ports = s.ports ∧ t.belay = s.belay) ∧
  (∀ s d, s.answers = true → d = 0 ∨ s.active d = true → (s.func d).flr = none →
    Does .pfFlr s fun t => t.dev.vfEnable = false ∧ (t.func d).flr.isSome = true ∧ (t.func d).epoch = (s.func d).epoch + 1 ∧ (∀ h k, t.key h = some k → k.dom ≠ d) ∧
      t.belay.entries = s.belay.entries) ∧
  (∀ s, s.dev.ready = true →
    Does .hostReset s fun t => t.dev.hostDown = true ∧ t.dev.vfEnable = false ∧ t.dev.numVfs = 0 ∧ t.belay.entries = s.belay.entries ∧ t.tmu = s.tmu ∧
      ((∀ k, (s.link k).key = none) → t.links = s.links) ∧
      ∀ d, (t.func d).msixEnable = false ∧ (t.func d).vecTable = [] ∧ (t.func d).vecOpen = []) ∧
  (∀ s, s.dev.ready = false → Does .hostReset s fun t => t = { s with dev := { s.dev with hostDown := true } }) ∧
  (∀ s, Does .perstHigh s fun t => t = { s with dev := { s.dev with hostDown := false } }) ∧
  (∀ s d v, s.serves = true → s.active d = true → d = 0 → rstActs v = true → TablesOk s →
    Does (.warmReset (.register d v)) s fun t => t.dev.ready = false ∧ t.dev.cause = 2 ∧ t.dev.warmCount = satHalf s.dev.warmCount ∧
      (∀ r, warmKeeps r = false → t.reg r = r.reset) ∧ t.reg (.dev .mode) = s.reg (.dev .mode) ∧ t.reg .domSmb = s.reg .domSmb ∧
      t.reg (.tmu .epoch) = s.reg (.tmu .epoch) ∧ t.raw = s.raw ∧ t.tmu.par = s.tmu.par ∧ t.belay.keys = [] ∧ (∀ e : Dom, t.belay.entries[e] = State.reset.belay.entries[e]) ∧
      t.belay.otp = s.belay.otp ∧ t.belay.debugUnlocked = s.belay.debugUnlocked ∧ t.log.recs = s.log.recs ∧ t.log.next = s.log.next ∧ t.rings = [] ∧ t.flt = s.flt ∧
      ((∀ e o, (s.obj e o).copying = false) → ∀ a, Tbl.get 0 t.tarn a = Tbl.get 0 s.tarn a) ∧ (∀ e o, (t.obj e o).cfg = (s.obj e o).cfg) ∧
      (∀ k, (t.group k).table = (s.group k).table) ∧ (∀ i, t.rule i = s.rule i) ∧ (∀ i, t.route i = { s.route i with seqTx := 0 }) ∧
      t.cairn.comps = s.cairn.comps ∧ t.mstat = s.mstat) ∧
  (∀ s, s.dev.ready = true → s.cairn.resetDue = true → Does (.warmReset .smbus) s fun t => t.dev.ready = false ∧ t.dev.cause = 3 ∧ t.belay.otp = s.belay.otp ∧ t.raw = s.raw) ∧
  (∀ s, s.dev.ready = true → Does (.warmReset .belayFault) s fun t => t.dev.ready = false ∧ t.dev.cause = 4 ∧ t.belay.otp = s.belay.otp ∧ t.raw = s.raw) ∧
  (∀ s, s.dev.reboot = true → s.dev.ready = true →
    Does (.warmReset .recovered) s fun t => t.dev.ready = false ∧ t.dev.cause = 4 ∧ t.belay.otp = s.belay.otp ∧ t.raw = s.raw) ∧
  (∀ s, s.dev.ready = false → s.dev.cause ≠ 1 →
    Does (.warmReset .belayFault) s fun t => t = { s with dev := { s.dev with warmCount := satHalf s.dev.warmCount } }) ∧
  (∀ s, Does .powerOnReset s fun t => (∀ r, t.reg r = r.reset) ∧ t.raw = 0 ∧ t.dev.ready = false ∧ t.dev.stage = .held ∧ t.dev.cause = 1 ∧ t.dev.warmCount = 0 ∧ t.belay.keys = [] ∧
      t.belay.debugUnlocked = false ∧ t.belay.otp = s.belay.otp ∧ t.cairn.comps = s.cairn.comps ∧ t.log = {} ∧ t.rings = [] ∧ t.tarn = [] ∧ t.objs = [] ∧ t.flt = [] ∧
      t.counts = [] ∧ t.pending = s.pending)

/-- The staging area falls free when its 300 s are over and no activation runs. A component in trial that has run for 10 s is confirmed: its rollback
counter becomes FLOOR where that is higher, and no other counter and no other component changes (that the counter stops at 63 is the model's: log 32).
A component in trial that runs and whose other slot passes reverts: the other slot becomes active, with the event bit; the service firmware restarts
with it, and the gateway cores that run go on running. That a wait is over where its time is (log 61), and that BOOT carries the steps of the boot
that are left (log 79), are the model's. A boot in which the slot that the layout record calls active passes for every component, none in trial, makes
the device READY with every image valid, every core running and each port on its own engine. Where that slot of a component not in trial fails and the
other passes, the other becomes active, with the event bit. Without a Belay monitor that passes, the device comes READY in recovery: firmware out, no
image valid, cores halted, and no component changes its slot. A boot of a READY device does nothing (the model's choice: log 1). Rests on R460, R463,
R466, R467, R487, R488. -/
def Obligations.UpdatesAndBoots : Prop :=
  (∀ s u, s.cairn.holder ≠ .none_ → s.cairn.activating = none → u = s.waitFrom s.cairn.stagedAt (sec 300) →
    Does .stagingHolderTimeout s fun t => t.cairn = { s.cairn with holder := .none_ } ∧ SameRegs u t ∧ t.raw = u.raw) ∧
  (∀ s u c i, s.confirmable c = true → u = s.waitFrom (s.runsSince c) (sec 10) → counterIx c (s.comp c).active.family.toNat = some i →
    Does (.imgConfirm c) s fun t => (t.comp c).trial = false ∧ (t.comp c).activeB = (s.comp c).activeB ∧
      (t.belay.otp.rollback[i] = max s.belay.otp.rollback[i] (min 63 (s.comp c).active.floor)) ∧ (∀ j : Fin 7, j ≠ i → t.belay.otp.rollback[j] = s.belay.otp.rollback[j]) ∧
      (∀ b, b ≠ c → t.comp b = s.comp b) ∧ SameRegs u t) ∧
  (∀ s c, (s.comp c).trial = true → (s.comp c).runs = true → s.otherOk c = true → c ≠ 1 → c ≠ 2 →
    Does (.imgRevert c) s fun t => (t.comp c).activeB = !(s.comp c).activeB ∧ (t.comp c).trial = false ∧ (t.comp c).a = (s.comp c).a ∧ (t.comp c).b = (s.comp c).b ∧
      t.belay.otp = s.belay.otp ∧ (∀ b, b ≠ c → t.comp b = s.comp b) ∧ t.rb (.fn 0 .crnEvt) 10 = true ∧ OtherRegs s t [.fn 0 .crnEvt]) ∧
  (∀ s, (s.comp 1).trial = true → (s.comp 1).runs = true → s.otherOk 1 = true →
    Does (.imgRevert 1) s fun t => (t.comp 1).activeB = !(s.comp 1).activeB ∧ (t.comp 1).trial = false ∧ t.cairn.running = false ∧ t.rb (.fn 0 .crnEvt) 8 = true ∧
      t.rb (.fn 0 .crnEvt) 10 = true) ∧
  (∀ s, BootAhead s → (∀ c, s.slotPasses c ((s.comp c).slot (s.bootMarks[c]).1) = true ∧ (s.bootMarks[c]).2 = false) →
    Does .boot s fun t => t.dev.ready = true ∧ t.dev.absent = 0 ∧ t.dev.recovery = false ∧ t.cairn.running = true ∧ (∀ i : Fin 4, (t.spur.images[i]).valid = true) ∧
      (∀ c, (t.core c).state = .running) ∧ (∀ c, (t.comp c).activeB = (s.bootMarks[c]).1) ∧ (∀ p : PortId, t.spur.attached[p] = some (fin 34 p.val)) ∧
      t.belay.otp = s.belay.otp) ∧
  (∀ s c, BootAhead s → s.slotPasses 0 (s.comp 0).a = true ∨ s.slotPasses 0 (s.comp 0).b = true → (s.bootMarks[c]).2 = false →
      s.slotPasses c ((s.comp c).slot (s.bootMarks[c]).1) = false → s.slotPasses c ((s.comp c).slot (!(s.bootMarks[c]).1)) = true →
    Does .boot s fun t => t.dev.ready = true ∧ (t.comp c).activeB = !(s.bootMarks[c]).1 ∧ (t.comp c).a = (s.comp c).a ∧ (t.comp c).b = (s.comp c).b ∧
      t.rb (.fn 0 .crnEvt) 10 = true) ∧
  (∀ s, BootAhead s → s.cairn.running = false → s.slotPasses 0 (s.comp 0).a = false → s.slotPasses 0 (s.comp 0).b = false →
    Does .boot s fun t => t.dev.ready = true ∧ t.dev.recovery = true ∧ t.dev.absent = 8 ∧ t.cairn.running = false ∧ t.serves = false ∧
      (∀ c, (t.comp c).activeB = (s.bootMarks[c]).1) ∧ (∀ i : Fin 4, (t.spur.images[i]).valid = false) ∧ (∀ c, (t.core c).state = .halted)) ∧
  (∀ s, s.dev.ready = true → Does .boot s fun t => t = s) ∧
  (∀ s, (s.comp 2).trial = true → (s.comp 2).runs = true → s.otherOk 2 = true →
    Does (.imgRevert 2) s fun t => (t.comp 2).activeB = !(s.comp 2).activeB ∧ (t.comp 2).trial = false ∧ t.rb (.fn 0 .crnEvt) 10 = true ∧
      (∀ c, (s.core c).state = .running → (t.core c).state = .running) ∧ (∀ b, b ≠ 2 → t.comp b = s.comp b) ∧ t.ports = s.ports)

/-- FPn_CMD on a port, the command being accepted for it. ENABLE of a port that is OFF on a supplied bank makes it STOPPED; on a bank that is not
supplied it is refused with code 9 in CFG_ERR and the port stays OFF. DISABLE of a STOPPED or sleeping port outside a group makes it OFF and clears
its error counters, its FIFO and its event bits but the one of the change. SLEEP of a stopped port with a good wake filter, WAKE of a sleeping one,
which keeps a hold that waits for the wake (the model's choice: log 53), and RESTART of one in BUSOFF without BO_AUTO act. A RESTART in any other
state is ignored and sets CMD_REFUSED. Each sets the event bit named; no other port and no other register changes. Rests on R60, R102, R125, R214,
R218, R486. -/
def Obligations.PortEnableDisableSleepWakeRestart : Prop :=
  (∀ s d p, PortCmdReady s d p → (s.port p).state = .off → s.bankOn p = true → s.imagePresent = true →
    Does (.portEnable d p) s fun t => t.port p = { s.port p with state := .stopped } ∧ t.reg (.port p .evt) = setBit (s.reg (.port p .evt)) 0 ∧
      OtherPorts s t p ∧ OtherRegs s t [.port p .evt]) ∧
  (∀ s d p, PortCmdReady s d p → s.groupOf p = none → (s.port p).state = .stopped ∨ (s.port p).state = .sleep →
    Does (.portDisable d p) s fun t => (t.port p).state = .off ∧ (t.port p).tec = 0 ∧ (t.port p).rec_ = 0 ∧ (t.port p).fifo = [] ∧
      t.reg (.port p .evt) = setBit 0 0 ∧ OtherPorts s t p ∧ OtherRegs s t [.port p .evt]) ∧
  (∀ s d p, PortCmdReady s d p → s.groupOf p = none → (s.port p).state = .stopped →
      ¬(s.rf (.port p .sleep) 0 2 = 1 ∧ (s.rf (.port p .sleep) 4 10 < 50 ∨ 500 < s.rf (.port p .sleep) 4 10)) →
    Does (.portSleep d p) s fun t => t.port p = { s.port p with state := .sleep, wakeArmed := true } ∧
      t.reg (.port p .evt) = setBit (s.reg (.port p .evt)) 0 ∧ OtherPorts s t p ∧ OtherRegs s t [.port p .evt]) ∧
  (∀ s d p, PortCmdReady s d p → (s.port p).state = .sleep →
    Does (.portWake d p) s fun t => t.port p = { s.port p with state := .stopped, wakeArmed := false } ∧ t.reg (.port p .evt) = setBit (s.reg (.port p .evt)) 0 ∧
      OtherPorts s t p ∧ OtherRegs s t [.port p .evt]) ∧
  (∀ s d p, PortCmdReady s d p → s.groupOf p = none → (s.port p).state = .busoff → (s.port p).boAuto = false →
    Does (.portRestart d p) s fun t =>
      t.port p = { s.port p with state := .recovery, prior := .off, seqOn := true, seqAt := s.raw, joined := false } ∧
      t.reg (.port p .evt) = setBit (s.reg (.port p .evt)) 0 ∧ OtherPorts s t p ∧ OtherRegs s t [.port p .evt]) ∧
  (∀ s d p, PortCmdReady s d p → (s.port p).state = .off → s.bankOn p = false →
    Does (.portEnable d p) s fun t => t.port p = { s.port p with cfgCode := 9 } ∧ t.reg (.port p .evt) = setBit (s.reg (.port p .evt)) 4 ∧
      OtherPorts s t p ∧ OtherRegs s t [.port p .evt]) ∧
  (∀ s d p, PortCmdReady s d p → ¬((s.port p).state = .busoff ∧ (s.port p).boAuto = false) →
    Does (.portRestart d p) s fun t => t.reg (.port p .evt) = setBit (s.reg (.port p .evt)) 5 ∧ (∀ q, (t.port q).state = (s.port q).state) ∧
      (s.groupOf p = none → t.ports = s.ports) ∧ OtherPorts s t p ∧ OtherRegs s t [.port p .evt])

/-- START of a stopped port outside a group whose checks all pass clears its error counters and takes it to STARTUP, or to TEST in a test mode. STOP
of a running or held port is accepted and pending (until PORT_STOP_EFFECT, which says that the bus is idle: log 49); in BUSOFF and in ISOLATED it
takes effect at once, and leaves an attempt of an isolated port on the wire. A pending stop, and the loss of the reference, take effect once nothing
is on the wire and the port does not integrate, the latter with REF_LOST. No other port changes. Rests on R109, R125, R126. -/
def Obligations.PortStartStop : Prop :=
  (∀ s d p, PortCmdReady s d p → s.groupOf p = none → (s.port p).state = .stopped → s.startCode p = 0 → (s.spur.attached[p]).isSome = true →
    Does (.portStart d p) s fun t => (t.port p).state = (if s.testMode p = 0 then PState.startup else .test) ∧ (t.port p).tec = 0 ∧ (t.port p).rec_ = 0 ∧
      (t.port p).promoteCnt = 0 ∧ (t.port p).cands = (s.port p).cands ∧ t.reg (.port p .evt) = setBit (s.reg (.port p .evt)) 0 ∧
      OtherPorts s t p ∧ OtherRegs s t [.port p .evt]) ∧
  (∀ s d p, PortCmdReady s d p → s.groupOf p = none → running (s.port p).state = true ∨ (s.port p).state = .hold →
    Does (.portStop d p) s fun t => t.port p = { s.port p with stopPending := true } ∧ OtherPorts s t p ∧ OtherRegs s t []) ∧
  (∀ s d p, PortCmdReady s d p → s.groupOf p = none → (s.port p).state = .busoff ∨ (s.port p).state = .isolated →
    Does (.portStop d p) s fun t => (t.port p).state = .stopped ∧ (t.port p).stopPending = false ∧
      (t.port p).onWire = (if (s.port p).state = .isolated then (s.port p).onWire else none) ∧
      OtherPorts s t p ∧ OtherRegs s t [.port p .evt]) ∧
  (∀ s p, (s.port p).onWire = none → (s.port p).integ = false → s.silentMember p = false → s.anchorOf p = none → (s.port p).stopPending = true ∨ (s.port p).refStop = true →
    Does (.portStopEffect p) s fun t => (t.port p).state = .stopped ∧ (t.port p).stopPending = false ∧ (t.port p).refStop = false ∧
      ((s.port p).refStop = true → t.rb (.port p .evt) 7 = true) ∧ OtherPorts s t p ∧ OtherRegs s t [.port p .evt])

/-- A write of GO with a staged record that passes its check begins to apply it, and what it changes is in force at once (the model's choice: log 9).
A domain entry comes into force and no other entry changes; a window takes its place and no other window changes; the route entries of the range pass
to the domain and no others; a reclaim of rings disables the domain's rings that are not CQs, accepts a stop for each running port that it names
outside live groups and self-tests, and clears EN of each Ethernet port that it names. Rests on R26, R30, R31, R36. -/
def Obligations.RecordsApply : Prop :=
  (∀ s d v, Writes s d 0 → v.getLsbD 0 = true → s.belay.applying = none → recKind s.stageBytes = 1 → s.checkRecord s.stageBytes = 0 →
    Does (.domainEntry d v) s fun t => t.entry (fin 16 (recDom s.stageBytes)) = entryOf s.stageBytes ∧
      (∀ e, e ≠ fin 16 (recDom s.stageBytes) → t.entry e = s.entry e) ∧ t.belay.applying.isSome = true ∧ t.belay.keys = s.belay.keys ∧
      t.belay.windows = s.belay.windows ∧ t.belay.routeDom = s.belay.routeDom) ∧
  (∀ s d v, Writes s d 0 → v.getLsbD 0 = true → s.belay.applying = none → recKind s.stageBytes = 2 → s.checkRecord s.stageBytes = 0 →
      Tbl.wf {} s.belay.windows = true →
    Does (.dmaWindowRecord d v) s fun t =>
      (∀ i, Tbl.get {} t.belay.windows i =
        if i = 16 * (fin 16 (recDom s.stageBytes) : Dom).val + leAt s.stageBytes 2 1 then recWindow s.stageBytes else Tbl.get {} s.belay.windows i) ∧
      t.belay.applying.isSome = true ∧ t.belay.entries = s.belay.entries ∧ t.belay.routeDom = s.belay.routeDom) ∧
  (∀ s d v, Writes s d 0 → v.getLsbD 0 = true → s.belay.applying = none → recKind s.stageBytes = 3 → s.checkRecord s.stageBytes = 0 →
      Tbl.wf 0 s.belay.routeDom = true →
    Does (.routeAssign d v) s fun t =>
      (∀ r, t.routeOwner r = if inRangeOf (routeRange s.stageBytes) r then (fin 16 (recDom s.stageBytes) : Dom).val else s.routeOwner r) ∧
      t.belay.applying.isSome = true ∧ t.belay.entries = s.belay.entries ∧ t.belay.windows = s.belay.windows) ∧
  (∀ s d v, Writes s d 0 → v.getLsbD 0 = true → s.belay.applying = none → recKind s.stageBytes = 4 → s.checkRecord s.stageBytes = 0 →
    Does (.reclaim d v) s fun t =>
      (∀ n : RingNo, n.val < (s.entry (fin 16 (recDom s.stageBytes))).ringCount → leAt s.stageBytes 9 1 % 2 = 1 →
        ringType (s.ringCfg (s.dring (fin 16 (recDom s.stageBytes)) n)) ≠ 3 → bit (t.ringCfg (s.dring (fin 16 (recDom s.stageBytes)) n)) 0 = false) ∧
      (∀ p : PortId, (BitVec.ofNat 32 (leAt s.stageBytes 4 4)).getLsbD p.val = true → s.liveGroup p = none → running (s.port p).state = true →
        s.underTest p = false → (t.port p).stopPending = true) ∧
      (∀ k : EpId, (BitVec.ofNat 8 (leAt s.stageBytes 8 1)).getLsbD (4 + k.val) = true → t.rb (.ep k .cfg) 0 = false) ∧
      t.belay.applying.isSome = true ∧ t.belay.entries = s.belay.entries)

/-- A record ends, which is a row of its own (the model's choice: log 9): BUSY falls and RESULT is the outcome of its check; where no request was held
back for it, only its log record, with kind, domain and result, is written. A reclaim that has passed its check and names something that is not still
does not end. Rests on R26, R28, R446. -/
def Obligations.RecordEnds : Prop :=
  (∀ s a, s.belay.applying = some a → (a.kind ≠ 4 ∨ a.result ≠ 0 ∨ s.reclaimDone a = true) →
    Does .recordComplete s fun t => t.belay.applying = none ∧ t.belay.result = a.result) ∧
  (∀ s a, s.belay.applying = some a → a.held = [] → (a.kind ≠ 4 ∨ a.result ≠ 0 ∨ s.reclaimDone a = true) → s.dev.absent.getLsbD 0 = false →
      s.log.intake.length < 256 →
    Does .recordComplete s fun t => t.ports = s.ports ∧ SameRegs s t ∧ t.rings = s.rings ∧ ∃ r, Logged s t [(s.raw, r)] ∧
      r.source = 0x01 ∧ r.code = 0x03 ∧ r.arg0 = BitVec.ofNat 32 (a.kind.toNat + 256 * a.dom.toNat) ∧ r.arg1 = a.result.setWidth 32) ∧
  (∀ s a, s.belay.applying = some a → a.kind = 4 → a.result = 0 → s.reclaimDone a = false → Does .recordComplete s fun t => t = s)

/-- Writes by the host. A register of a field port that no command stands behind takes the fields that its access lets change, and no other register
changes. A write by a domain that does not hold the register changes nothing and is logged CROSS_DOMAIN. A write of BAR2 by a tenant puts the bytes at
the Tarn addresses of its quota and nowhere else. A write of MSI-X message data changes that word of that entry, VF Enable with NumVFs and MSI-X
Enable with Function Mask take the written values (the layouts of PCI Express, presumed: log 14). While READY is 0, writes are dropped and reads of
BAR0, BAR2 and BAR4 return 0. Rests on R18, R23, R41, R138, R483. -/
def Obligations.RegisterWrites : Prop :=
  (∀ s d off w v p q, s.serves = true → s.active d = true → s.ringBeyond d off.toNat = false → s.regAt d off.toNat = some (.port p q, false) →
      s.portOwner p = d → q ≠ .cmd → q ≠ .pair → w = .low ∨ (Reg.port p q).wide = false ∧ w = .whole →
    Does (.registerWrite d (.bar0 off) w v) s fun t => t.reg (.port p q) = (s.fieldWrite d (.port p q) mask32 v (fun _ => false)).1 ∧
      OtherRegs s t [.port p q] ∧ t.ports = s.ports ∧ t.rings = s.rings ∧ t.objs = s.objs ∧ t.tarn = s.tarn) ∧
  (∀ s d off v p q, s.serves = true → s.active d = true → s.ringBeyond d off.toNat = false → s.regAt d off.toNat = some (.port p q, false) →
      s.portOwner p = d → q ≠ .cmd → q ≠ .pair → (Reg.port p q).wide = true →
    Does (.registerWrite d (.bar0 off) .whole v) s fun t => t.reg (.port p q) = (s.fieldWrite d (.port p q) maskAll v (fun _ => false)).1 ∧
      OtherRegs s t [.port p q] ∧ t.ports = s.ports) ∧
  (∀ s d off w v r hi, s.serves = true → s.active d = true → w ≠ .high → s.ringBeyond d off.toNat = false → s.regAt d off.toNat = some (r, hi) →
      s.regOwner r ≠ d → s.dev.absent.getLsbD 0 = false → s.log.intake.length < 256 →
    Does (.registerWrite d (.bar0 off) w v) s fun t => SameRegs s t ∧ t.ports = s.ports ∧ t.rings = s.rings ∧ t.belay = s.belay ∧
      ∃ e, Logged s t [(s.raw, e)] ∧ e.source = 0x01 ∧ e.code = 0x02 ∧ e.dom = domCode d ∧ e.arg0 = BitVec.ofNat 32 off.toNat) ∧
  (∀ s d off w v, s.serves = true → s.active d = true → d ≠ 0 → w ≠ .high → TablesOk s →
    Does (.registerWrite d (.bar2 off) w v) s fun t => SameRegs s t ∧ t.objs = s.objs ∧
      (∀ a, (∀ i, i < widthBytes w → s.tarnAddr d (off.toNat + i) ≠ some a) → Tbl.get 0 t.tarn a = Tbl.get 0 s.tarn a) ∧
      ((s.units[d]).Nodup → ∀ i a, i < widthBytes w → s.tarnAddr d (off.toNat + i) = some a →
        Tbl.get 0 t.tarn a = (leBytes (widthBytes w) v.toNat).getD i 0)) ∧
  (∀ s d off v, s.serves = true → s.active d = true → off.toNat % 16 = 8 → off.toNat < 2048 → Tbl.wf 0 (s.func d).vecTable = true →
    Does (.registerWrite d (.bar4 off) .low v) s fun t =>
      Tbl.get 0 (t.func d).vecTable (off.toNat / 16) =
        (Tbl.get 0 (s.func d).vecTable (off.toNat / 16) &&& ~~~ ((0xFFFFFFFF : BitVec 96) <<< 64)) ||| (((v.setWidth 32).setWidth 96) <<< 64) ∧
      (∀ i, i ≠ off.toNat / 16 → Tbl.get 0 (t.func d).vecTable i = Tbl.get 0 (s.func d).vecTable i) ∧
      SameRegs s t ∧ (t.func d).vecOpen = (s.func d).vecOpen ∧ ∀ e, e ≠ d → (t.func e).vecTable = (s.func e).vecTable) ∧
  (∀ s en n, s.serves = true →
    Does (.registerWrite 0 (.sriov en n) .low 0) s fun t => t.dev.vfEnable = en ∧
      t.dev.numVfs = (if s.dev.vfEnable && en then s.dev.numVfs else n) ∧ SameRegs s t ∧ t.belay = s.belay) ∧
  (∀ s d en fm, s.serves = true → d = 0 ∨ (s.dev.vfEnable = true ∧ d ≤ s.dev.numVfs) →
    Does (.registerWrite d (.msixControl en fm) .low 0) s fun t => (t.func d).msixEnable = en ∧ (t.func d).funcMask = fm ∧ SameRegs s t) ∧
  (∀ s d tg w v, s.dev.ready = false →
    Does (.registerWrite d tg w v) s fun t => t = s ∧ ∀ e o, s.bar0Read e o = 0 ∧ s.bar2Read e o = 0 ∧ s.bar4Read e o = 0)

/-- A write of ENABLE 1 to a ring at which every condition of R69 holds enables it, with ACTIVE and its own index 0; one that is not a CQ also has
fetched nothing, and no other ring changes. A write of ENABLE 0 to an enabled ring clears ENABLE, keeps ACTIVE, leaves an RX ring no posted buffer and
no waiting frame, and changes no other register; the one buffer posted on an RX ring returns ABORTED_HOST with length 0. ACTIVE falls once nothing of
the ring is left, and no other ring changes. Rests on R69, R70, R71. -/
def Obligations.RingEnableDisable : Prop :=
  (∀ s d n v, RingWrite s d n → TablesOk s →
      v.getLsbD 0 = true → bit (s.ringCfg (s.dring d n)) 0 = false →
      (s.writeFields d (ringReg (s.dring d n) .cfg) mask32 (v.setWidth 64) (fun f => f.lo == 0)).enableOk d n = true →
    Does (.ringEnable d n v) s fun t => (t.ring (s.dring d n)).active = true ∧ bit (t.ringCfg (s.dring d n)) 0 = true ∧ (t.ring (s.dring d n)).idx = 0 ∧
      (ringType (t.ringCfg (s.dring d n)) ≠ 3 → (t.ring (s.dring d n)).head = 0 ∧ ∀ j, j ≠ s.dring d n → t.ring j = s.ring j)) ∧
  (∀ s d n v, RingWrite s d n → TablesOk s →
      v.getLsbD 0 = false → bit (s.ringCfg (s.dring d n)) 0 = true →
    Does (.ringDisable d n v) s fun t => bit (t.ringCfg (s.dring d n)) 0 = false ∧ (t.ring (s.dring d n)).active = (s.ring (s.dring d n)).active ∧
      (ringType (t.ringCfg (s.dring d n)) = 1 → (t.ring (s.dring d n)).posted = [] ∧ (t.ring (s.dring d n)).frames = []) ∧
      OtherRegs s t [ringReg (s.dring d n) .cfg]) ∧
  (∀ s d n, s.ringOk d n = true → bit (s.ringCfg (s.dring d n)) 0 = false → (s.ring (s.dring d n)).active = true → s.ringDone d n = true →
      TablesOk s →
    Does (.ringDisableDone d n) s fun t => t.ring (s.dring d n) = { s.ring (s.dring d n) with active := false } ∧
      ∀ j, j ≠ s.dring d n → t.ring j = s.ring j) ∧
  (∀ s d n v b, RingWrite s d n → TablesOk s →
      v.getLsbD 0 = false → bit (s.ringCfg (s.dring d n)) 0 = true → ringType (s.ringCfg (s.dring d n)) = 1 → s.cqOf d n ≠ n →
      (s.ring (s.dring d n)).posted = [b] → (s.ring (s.dring d n)).frames = [] → s.mute d = false → s.dev.recovery = false →
      s.ringOn d (s.cqOf d n) 3 = true → (s.ring (s.dring d (s.cqOf d n))).wait = [] → 0 < s.room d (s.cqOf d n) →
    Does (.ringDisable d n v) s fun t => ∃ e : CqEntry, Sends s t (s.entryOut d (s.cqOf d n) e) ∧ e.tag = b.1 ∧ e.num = n ∧ e.status = 0x13 ∧ e.info0 = 0)

/-- A kick of a named submission ring, a poll of one, and the poll of a full CQ take the index read, where it is no further ahead than the ring has
entries. A poll that reads an index further ahead sets FAULT and clears ENABLE. A kick of all takes one index for every enabled submission ring. A
POLL_US above 1000 acts as 1000. The polls act at the end of their interval (log 61). Rests on R64, R66, R73, R83, R93. -/
def Obligations.IndexReads : Prop :=
  (∀ s d v (n : RingNo) w ws, s.answers = true → s.active d = true → v.toNat % 512 = n.val → s.ringLive d n = true →
      s.rb (ringReg (s.dring d n) .status) 29 = false → ringType (s.ringCfg (s.dring d n)) ≠ 3 →
      (w - (s.ring (s.dring d n)).head).toNat ≤ ringSize (s.ringCfg (s.dring d n)) → TablesOk s →
    Does (.devKick d v (w :: ws)) s fun t => t.ring (s.dring d n) = { s.ring (s.dring d n) with idx := w } ∧
      (∀ j, j ≠ s.dring d n → t.ring j = s.ring j) ∧ SameRegs s t) ∧
  (∀ s u d (n : RingNo) w, s.ringLive d n = true → s.rf (ringReg (s.dring d n) .poll) 0 10 ≠ 0 → ringType (s.ringCfg (s.dring d n)) ≠ 3 →
      u = s.waitFrom (s.ring (s.dring d n)).polledAt (us (min 1000 (s.rf (ringReg (s.dring d n) .poll) 0 10) - 1)) →
      (w - (u.ring (s.dring d n)).head).toNat ≤ ringSize (s.ringCfg (s.dring d n)) → TablesOk s →
    Does (.ringPoll d n w) s fun t => t.ring (s.dring d n) = { u.ring (s.dring d n) with idx := w, polledAt := u.raw } ∧
      (∀ j, j ≠ s.dring d n → t.ring j = u.ring j) ∧ SameRegs u t) ∧
  (∀ s u d (n : RingNo) w, s.ringLive d n = true → s.stalled d n = true → u = s.waitFrom (s.ring (s.dring d n)).polledAt (us 9) →
      ((u.ring (s.dring d n)).head - w).toNat ≤ ringSize (s.ringCfg (s.dring d n)) → TablesOk s →
    Does (.cqStallPoll d n w) s fun t => (t.ring (s.dring d n)).idx = w ∧ SameRegs u t) ∧
  (∀ s u d (n : RingNo) w, s.ringLive d n = true → s.rf (ringReg (s.dring d n) .poll) 0 10 ≠ 0 → ringType (s.ringCfg (s.dring d n)) ≠ 3 →
      u = s.waitFrom (s.ring (s.dring d n)).polledAt (us (min 1000 (s.rf (ringReg (s.dring d n) .poll) 0 10) - 1)) →
      ringSize (s.ringCfg (s.dring d n)) < (w - (u.ring (s.dring d n)).head).toNat →
    Does (.ringPoll d n w) s fun t => bit (t.ringCfg (s.dring d n)) 0 = false ∧ t.rb (ringReg (s.dring d n) .status) 29 = true) ∧
  (∀ s d v ws, s.answers = true → s.active d = true → v.toNat % 512 = 0x1FF → (s.liveSubmission d).length ≤ ws.length → TablesOk s →
      (∀ e ∈ (s.liveSubmission d).zip ws, (e.2 - (s.ring (s.dring d e.1)).head).toNat ≤ ringSize (s.ringCfg (s.dring d e.1))) →
    Does (.devKick d v ws) s fun t => (∀ e ∈ (s.liveSubmission d).zip ws, (t.ring (s.dring d e.1)).idx = e.2) ∧ SameRegs s t)

/-- The doorbell block of a domain with no active ring, and the timestamp queue beside an enabled doorbell block, are enabled at the written address
where a window of the domain holds them; the queue restarts at 0 with nothing lost. No other register and no log record is written. Rests on R62, R90.
-/
def Obligations.DoorbellAndStampQueue : Prop :=
  (∀ s d v, s.answers = true → s.active d = true → s.rb (.fn d .dbb) 0 = false → v.getLsbD 0 = true → s.ringsIdle d = true →
      s.inWindow d (v &&& ~~~ (4095 : DWord)).toNat 4096 true true = true →
    Does (.dbbEnable d v) s fun t => t.rb (.fn d .dbb) 0 = true ∧ t.rf (.fn d .dbb) 12 52 = fld v 12 52 ∧ OtherRegs s t [.fn d .dbb] ∧
      t.rings = s.rings ∧ Logged s t []) ∧
  (∀ s d v, s.serves = true → s.active d = true → s.rb (.fn d .tsq) 0 = false → s.rb (.fn d .dbb) 0 = true → v.getLsbD 0 = true →
      s.inWindow d (v &&& ~~~ (1023 : DWord)).toNat 1024 true true = true →
    Does (.tsqEnable d v) s fun t => t.rb (.fn d .tsq) 0 = true ∧ t.rf (.fn d .tsq) 10 54 = fld v 10 54 ∧ (t.func d).tsqProd = 0 ∧
      (t.func d).tsqLost = 0 ∧ OtherRegs s t [.fn d .tsq] ∧ Logged s t [])

/-- On a TX, RX or CMD ring a NOP completes DONE and an opcode that the ring does not take completes BAD_DESC (on a TX ring of a field port, where the
port is not halted). An RX_BUF with reserved bits 0 and an aligned address joins the buffers posted on its ring, and no other ring changes; one
without them completes BAD_DESC. Rests on R77, R86, R186. -/
def Obligations.NopBadOpcodeAndBuffers : Prop :=
  (∀ s d n x ty, RingReady ty s d n x → reservedZero x [] = true → (ty = 0 → bit (s.ringCfg (s.dring d n)) 9 = true ∨ halted (s.port (s.ringPort d n)).state = false) →
    Does (.nop d n x) s fun t => Answered s t d n x 0x00 0 ∧ SameRegs s t ∧ t.ports = s.ports ∧ t.objs = s.objs) ∧
  (∀ s d n op x ty, RingReady ty s d n x → opcodeOk (s.ringCfg (s.dring d n)) op = false →
      (ty = 0 → bit (s.ringCfg (s.dring d n)) 9 = true ∨ halted (s.port (s.ringPort d n)).state = false) →
    Does (.invalidOpcodeDescriptor d n op x) s fun t => Answered s t d n x 0x32 0 ∧ SameRegs s t ∧ t.ports = s.ports ∧ t.objs = s.objs) ∧
  (∀ s d n x, s.ringOn d n 1 = true → s.fetchable d n (dfence x) = true → reservedZero x [fAddr] = true → (daddr x).toNat % 64 = 0 →
      (s.ring (s.dring d n)).frames = [] → TablesOk s →
    Does (.rxBuf d n x) s fun t => (t.ring (s.dring d n)).posted = (s.ring (s.dring d n)).posted ++ [(x.tag, daddr x)] ∧
      (t.ring (s.dring d n)).head = (s.ring (s.dring d n)).head + 1 ∧ (∀ j, j ≠ s.dring d n → t.ring j = s.ring j) ∧ SameRegs s t ∧
      t.ports = s.ports) ∧
  (∀ s d n x, RingReady 1 s d n x → (reservedZero x [fAddr] = false ∨ (daddr x).toNat % 64 ≠ 0) →
    Does (.rxBuf d n x) s fun t => Answered s t d n x 0x32 0)

/-- A TX_FRAME that its port may take and whose fetch finds no fault joins the candidates of its port with the identifier, length and retry limit of
its descriptor (in a schedule that is stopped, or on no schedule); one that fails a check completes with the code of that check; under FLUSH 1 in a
bus-off episode a faultless one completes BUSOFF_FLUSH. The candidates that were in the set stay. Rests on R120, R183, R187, R215. -/
def Obligations.TxFrames : Prop :=
  (∀ s d n x, s.otherFamily (s.ringPort d n) = false → s.ringOn d n 0 = true → bit (s.ringCfg (s.dring d n)) 9 = false →
      halted (s.port (s.ringPort d n)).state = false → s.fetchable d n (dfence x) = true → s.flushing (s.ringPort d n) = false →
      s.portTakes d (s.ringPort d n) n (bit (s.ringCfg (s.dring d n)) 8) = true → s.txCode d (s.ringPort d n) x = none → (∀ k, s.groupOf (s.ringPort d n) = some k → (s.group k).state = .stopped ∨ s.traverse k = false) →
    Does (.txFrame d n x) s fun t => (∃ c ∈ (t.port (s.ringPort d n)).cands, c.src = .ring n ∧ c.op = s.opOf d n x ∧
        c.len = txLen x ∧ c.retry = dfld x 9 0 4 ∧ c.attempts = 0 ∧ c.frame.ident = BitVec.ofNat 29 (dnum x 4 4)) ∧
      (t.port (s.ringPort d n)).cands.length = (s.port (s.ringPort d n)).cands.length + 1 ∧
      (∀ c ∈ (s.port (s.ringPort d n)).cands, inSet c = true → c ∈ (t.port (s.ringPort d n)).cands) ∧ OtherPorts s t (s.ringPort d n) ∧ SameRegs s t ∧ t.objs = s.objs ∧ t.tarn = s.tarn) ∧
  (∀ s d n x code, s.otherFamily (s.ringPort d n) = false → RingReady 0 s d n x → bit (s.ringCfg (s.dring d n)) 9 = false →
      s.portTakes d (s.ringPort d n) n (bit (s.ringCfg (s.dring d n)) 8) = true → s.txCode d (s.ringPort d n) x = some code →
    Does (.txFrame d n x) s fun t => Answered s t d n x code 0 ∧ (t.port (s.ringPort d n)).cands = (s.port (s.ringPort d n)).cands ∧ SameRegs s t) ∧
  (∀ s d n x, s.otherFamily (s.ringPort d n) = false → RingReady 0 s d n x → bit (s.ringCfg (s.dring d n)) 9 = false → s.flushing (s.ringPort d n) = true →
      halted (s.port (s.ringPort d n)).state = false → s.txCode d (s.ringPort d n) x = none →
    Does (.txFrame d n x) s fun t => Answered s t d n x 0x15 0 ∧ (t.port (s.ringPort d n)).cands = (s.port (s.ringPort d n)).cands)

/-- OBJ_READ of a valid object that no read copies: the header and payload of its main slot go to host memory, NEW and LOST are cleared, COPYING is
set, and the completion, DONE, is kept for the end of the copy (a LENGTH in Tarn beyond the object's class is capped there: the model's choice, log
24); of an object being copied, it waits behind the others. The end of the last copy writes the completion and clears COPYING. Rests on R148, R150,
R151. -/
def Obligations.ObjectReads : Prop :=
  (∀ s d n x, CmdReady s d n x → TablesOk s → reservedZero x [(4, 0, 16), fAddr] = true → dnum x 4 2 < 8192 → objValid (s.obj d (dnum x 4 2)) = true →
      s.inWindow d (daddr x).toNat (16 + classBytes (objClass (s.obj d (dnum x 4 2)).cfg)) false true = true → (s.obj d (dnum x 4 2)).copying = false →
    Does (.objRead d n x) s fun t => (t.obj d (dnum x 4 2)).copying = true ∧ (t.obj d (dnum x 4 2)).isNew = false ∧ (t.obj d (dnum x 4 2)).lost = false ∧
      (∃ bs, Sends s t (.host d (daddr x).toNat bs) ∧ bs.length = 16 + min (leAt (s.tarnRead d (objMain (s.obj d (dnum x 4 2))) 16) 6 2)
          (classBytes (objClass (s.obj d (dnum x 4 2)).cfg)) ∧
        ∀ i, i ≠ 4 → i < bs.length → bs.getD i 0 = s.tarnByte d (objMain (s.obj d (dnum x 4 2)) + i)) ∧
      (∃ e, (t.obj d (dnum x 4 2)).reading = some (s.opOf d n x, e) ∧ e.tag = x.tag ∧ e.status = 0 ∧ e.num = n) ∧
      (∀ e o, (e, o) ≠ (d, dnum x 4 2) → o < 8192 → t.obj e o = s.obj e o) ∧ SameRegs s t ∧ t.ports = s.ports) ∧
  (∀ s d n x, CmdReady s d n x → TablesOk s → reservedZero x [(4, 0, 16), fAddr] = true → dnum x 4 2 < 8192 → objValid (s.obj d (dnum x 4 2)) = true →
      s.inWindow d (daddr x).toNat (16 + classBytes (objClass (s.obj d (dnum x 4 2)).cfg)) false true = true → (s.obj d (dnum x 4 2)).copying = true →
    Does (.objRead d n x) s fun t => t.obj d (dnum x 4 2) = { s.obj d (dnum x 4 2) with readers := (s.obj d (dnum x 4 2)).readers ++ [(s.opOf d n x, daddr x)] } ∧
      t.tarn = s.tarn) ∧
  (∀ s d (o : BitVec 13) op e, TablesOk s → (s.obj d o.toNat).copying = true → (s.obj d o.toNat).reading = some (op, e) → (s.obj d o.toNat).readers = [] →
      s.ringOn d (s.cqOf d e.num) 3 = true → (s.ring (s.dring d (s.cqOf d e.num))).wait = [] → 0 < s.room d (s.cqOf d e.num) → s.mute d = false → s.dev.recovery = false →
    Does (.objReadCopyDone d o) s fun t => (t.obj d o.toNat).copying = false ∧ (t.obj d o.toNat).reading = none ∧ (t.obj d o.toNat).shadow = none ∧
      Sends s t (s.entryOut d (s.cqOf d e.num) e) ∧ SameRegs s t ∧ t.ports = s.ports)

/-- OBJ_WRITE stores the payload and its length in the main slot of a send object, counts SEQ on, completes DONE and changes no byte of Tarn outside
header and payload. With SEND, and by OBJ_SEND, one transmission of an object that may be sent and is not pending is requested: PENDING is set and a
candidate joins its port. Rests on R152, R153, R154, R155. -/
def Obligations.ObjectWritesAndSends : Prop :=
  (∀ s d n x payload, CmdReady s d n x → TablesOk s → reservedZero x [(4, 0, 32), (8, 0, 1), fAddr] = true → dnum x 4 2 < 8192 → payload.length = dnum x 6 2 →
      objValid (s.obj d (dnum x 4 2)) = true → objIsSend (s.obj d (dnum x 4 2)) = true → s.objLenOk d (s.obj d (dnum x 4 2)).cfg (dnum x 6 2) = true →
      (dnum x 6 2 = 0 ∨ s.inWindow d (daddr x).toNat (dnum x 6 2) true false = true) → dbit x 8 0 = false →
    Does (.objWrite d n x payload) s fun t => Answered s t d n x 0x00 0 ∧ (t.obj d (dnum x 4 2)).len = dnum x 6 2 ∧
      (t.obj d (dnum x 4 2)).seqNo = seqNext (s.obj d (dnum x 4 2)).seqNo ∧ (t.obj d (dnum x 4 2)).cfg = (s.obj d (dnum x 4 2)).cfg ∧
      (∀ a, (∀ i, i < 16 + dnum x 6 2 → s.tarnAddr d (objMain (s.obj d (dnum x 4 2)) + i) ≠ some a) → Tbl.get 0 t.tarn a = Tbl.get 0 s.tarn a) ∧
      ((s.units[d]).Nodup → ∀ i a, i < dnum x 6 2 → s.tarnAddr d (objMain (s.obj d (dnum x 4 2)) + 16 + i) = some a → Tbl.get 0 t.tarn a = payload.getD i 0) ∧
      (∀ e o, (e, o) ≠ (d, dnum x 4 2) → o < 8192 → t.obj e o = s.obj e o) ∧ SameRegs s t ∧ t.ports = s.ports) ∧
  (∀ s d n x payload, CmdReady s d n x → TablesOk s → reservedZero x [(4, 0, 32), (8, 0, 1), fAddr] = true → dnum x 4 2 < 8192 → payload.length = dnum x 6 2 →
      objValid (s.obj d (dnum x 4 2)) = true → objIsSend (s.obj d (dnum x 4 2)) = true → s.objLenOk d (s.obj d (dnum x 4 2)).cfg (dnum x 6 2) = true →
      (dnum x 6 2 = 0 ∨ s.inWindow d (daddr x).toNat (dnum x 6 2) true false = true) → dbit x 8 0 = true →
      s.sendBad d (s.obj d (dnum x 4 2)) (dnum x 6 2) = false → (s.obj d (dnum x 4 2)).pending = false →
      halted (s.port (objPort (s.obj d (dnum x 4 2)).cfg)).state = false → s.flushing (objPort (s.obj d (dnum x 4 2)).cfg) = false →
      (∀ k, s.groupOf (objPort (s.obj d (dnum x 4 2)).cfg) = some k → (s.group k).state = .stopped ∨ s.traverse k = false) →
    Does (.objWrite d n x payload) s fun t => (t.obj d (dnum x 4 2)).pending = true ∧ (t.obj d (dnum x 4 2)).len = dnum x 6 2 ∧
      ∃ c, (t.port (objPort (s.obj d (dnum x 4 2)).cfg)).cands = (s.port (objPort (s.obj d (dnum x 4 2)).cfg)).cands ++ [c] ∧
        c.src = .obj (BitVec.ofNat 13 (dnum x 4 2)) ∧ c.op = s.opOf d n x ∧ c.len = dnum x 6 2) ∧
  (∀ s d n x, CmdReady s d n x → TablesOk s → reservedZero x [(4, 0, 16)] = true → dnum x 4 2 < 8192 →
      objValid (s.obj d (dnum x 4 2)) = true → objIsSend (s.obj d (dnum x 4 2)) = true → s.sendBad d (s.obj d (dnum x 4 2)) (s.obj d (dnum x 4 2)).len = false →
      (s.obj d (dnum x 4 2)).pending = false → halted (s.port (objPort (s.obj d (dnum x 4 2)).cfg)).state = false →
      s.flushing (objPort (s.obj d (dnum x 4 2)).cfg) = false →
      (∀ k, s.groupOf (objPort (s.obj d (dnum x 4 2)).cfg) = some k → (s.group k).state = .stopped ∨ s.traverse k = false) →
    Does (.objSend d n x) s fun t => t.obj d (dnum x 4 2) = { s.obj d (dnum x 4 2) with pending := true } ∧ t.tarn = s.tarn ∧ SameRegs s t ∧
      OtherPorts s t (objPort (s.obj d (dnum x 4 2)).cfg) ∧
      ∃ c, (t.port (objPort (s.obj d (dnum x 4 2)).cfg)).cands = (s.port (objPort (s.obj d (dnum x 4 2)).cfg)).cands ++ [c] ∧
        c.src = .obj (BitVec.ofNat 13 (dnum x 4 2)) ∧ c.op = s.opOf d n x ∧ c.tsq = dtsq x)

/-- The windows on objects and elements, while no command runs in them. LOAD and READ copy the configuration of the selected object and the selected
element into the staging registers. COMMIT and WRITE put the staged value in force where no check fails, and otherwise change nothing but RESULT, the
code of the first check that fails; COMMIT writes at most the 16 bytes of a slot header, and none for an object that is not valid. A COMMIT or WRITE
while a command runs changes nothing and is logged REFUSED_WRITE (log 46). Rests on R141, R142, R143. -/
def Obligations.WindowsOnObjectsAndElements : Prop :=
  (∀ s d, s.serves = true → s.active d = true → s.objBusy d = false →
    Does (.objLoad d) s fun t => t.staged d = (s.obj d (s.rf (.fn d .objSel) 0 13)).cfg ∧ (t.func d).objRes = 0 ∧
      (t.func d).objRt = objRtWord (s.obj d (s.rf (.fn d .objSel) 0 13)) ∧
      OtherRegs s t [.fn d .objCfg0, .fn d .objCfg1, .fn d .objCfg2, .fn d .objCfg3, .fn d .objCfg4, .fn d .objCfg5] ∧ t.objs = s.objs ∧ t.tarn = s.tarn) ∧
  (∀ s d, s.serves = true → s.active d = true → s.objBusy d = false → TablesOk s → s.commitCode d (s.rf (.fn d .objSel) 0 13) (s.staged d) = 0 →
    Does (.objCommit d) s fun t => (t.obj d (s.rf (.fn d .objSel) 0 13)).cfg = s.staged d ∧ (t.func d).objRes = 0 ∧ SameRegs s t ∧
      (∀ e o, (e, o) ≠ (d, s.rf (.fn d .objSel) 0 13) → o < 8192 → t.obj e o = s.obj e o) ∧
      ((s.staged d).cfg0.getLsbD 0 = false → t.tarn = s.tarn) ∧
      (∀ a, (∀ i, i < 16 → s.tarnAddr d (64 * objOfs (s.staged d) + i) ≠ some a) → Tbl.get 0 t.tarn a = Tbl.get 0 s.tarn a)) ∧
  (∀ s d, s.serves = true → s.active d = true → s.objBusy d = false → s.commitCode d (s.rf (.fn d .objSel) 0 13) (s.staged d) ≠ 0 →
    Does (.objCommit d) s fun t => (t.func d).objRes = BitVec.ofNat 8 (s.commitCode d (s.rf (.fn d .objSel) 0 13) (s.staged d)) ∧ SameRegs s t ∧
      t.objs = s.objs ∧ t.tarn = s.tarn) ∧
  (∀ s d, s.serves = true → s.active d = true → s.fltBusy d = false → s.rf (.fn d .fltSel) 0 14 < (s.entry d).fltCount →
    Does (.fltRead d) s fun t => t.fltStaged d = Tbl.get 0 s.flt ((s.entry d).fltBase + s.rf (.fn d .fltSel) 0 14) ∧ (t.func d).fltRes = 0 ∧ t.flt = s.flt ∧
      OtherRegs s t [.fn d (.fltData 0), .fn d (.fltData 1), .fn d (.fltData 2), .fn d (.fltData 3)]) ∧
  (∀ s d, s.serves = true → s.active d = true → s.fltBusy d = false → TablesOk s → s.fltCode d (s.rf (.fn d .fltSel) 0 14) (s.fltStaged d) = 0 →
    Does (.fltWrite d) s fun t => (t.func d).fltRes = 0 ∧ SameRegs s t ∧
      ∀ i, Tbl.get 0 t.flt i = if i = (s.entry d).fltBase + s.rf (.fn d .fltSel) 0 14 then s.fltStaged d else Tbl.get 0 s.flt i) ∧
  (∀ s d, s.serves = true → s.active d = true → s.fltBusy d = false → s.fltCode d (s.rf (.fn d .fltSel) 0 14) (s.fltStaged d) ≠ 0 →
    Does (.fltWrite d) s fun t => (t.func d).fltRes = BitVec.ofNat 8 (s.fltCode d (s.rf (.fn d .fltSel) 0 14) (s.fltStaged d)) ∧ t.flt = s.flt ∧
      SameRegs s t) ∧
  (∀ s d, s.serves = true → s.active d = true → s.objBusy d = true → s.dev.absent.getLsbD 0 = false → s.log.intake.length < 256 →
    Does (.objCommit d) s fun t => t.objs = s.objs ∧ SameRegs s t ∧ t.tarn = s.tarn ∧ t.func d = s.func d ∧
      ∃ r, Logged s t [(s.raw, r)] ∧ r.dom = domCode d ∧ r.arg0 = BitVec.ofNat 32 FnReg.objCmd.off ∧ r.arg1 = 2) ∧
  (∀ s d, s.serves = true → s.active d = true → s.fltBusy d = true → s.dev.absent.getLsbD 0 = false → s.log.intake.length < 256 →
    Does (.fltWrite d) s fun t => t.flt = s.flt ∧ SameRegs s t ∧ t.func d = s.func d ∧
      ∃ r, Logged s t [(s.raw, r)] ∧ r.dom = domCode d ∧ r.arg0 = BitVec.ofNat 32 FnReg.fltCmd.off ∧ r.arg1 = 2)

/-- KEY_GEN within the quota fills the lowest free slot (the lowest one is the model's choice: log 40), completes DONE with its handle, and its blob
goes to host memory. KEY_LOAD of a blob that unwraps to this domain, generation and use fills the lowest free slot and completes DONE with its handle;
of any other it completes BAD_DESC and fills none. KEY_ERASE of a slot that the domain holds empties it. No other slot changes. Rests on R43, R45,
R46. -/
def Obligations.KeyCommands : Prop :=
  (∀ s d n x h, CmdReady s d n x → TablesOk s → s.keyCheck x (s.opOf d n x) false = 0 → s.freeHandle d = some h →
    Does (.keyGen d n x) s fun t => Answered s t d n x 0x00 (BitVec.ofNat 32 h) ∧
      (∃ k, t.key h = some k ∧ k.dom = d ∧ k.sealing = (dnum x 4 1 == 1) ∧ k.ctr = 0 ∧
        Sends s t (.host d (daddr x).toNat (kwWrap (s.wrapKey d)
          (leBytes 1 (dnum x 4 1) ++ leBytes 1 d.val ++ leBytes 2 (s.entry d).generation ++ [0, 0, 0, 0] ++ beBytes (keyLen (dnum x 4 1)) k.key.toNat)))) ∧ (∀ i, i ≠ h → t.key i = s.key i) ∧ s.key h = none ∧
      (∀ i, i < h → (s.key i).isSome = true) ∧ t.ports = s.ports ∧
      SameRegs s t ∧ t.belay.otp = s.belay.otp) ∧
  (∀ s d n x blob h, CmdReady s d n x → TablesOk s → s.keyCheck x (s.opOf d n x) true = 0 → s.freeHandle d = some h → blob.length = blobLen (dnum x 4 1) →
    Does (.keyLoad d n x blob) s fun t => (∀ i, i ≠ h → t.key i = s.key i) ∧ SameRegs s t ∧ t.ports = s.ports ∧
      (∀ p, kwUnwrap (s.wrapKey d) blob = some p →
        if leAt p 0 1 = dnum x 4 1 ∧ leAt p 1 1 = d.val ∧ leAt p 2 2 = (s.entry d).generation then
          Answered s t d n x 0x00 (BitVec.ofNat 32 h) ∧ (∀ i, i < h → (s.key i).isSome = true) ∧
          ∃ k, t.key h = some k ∧ k.dom = d ∧ k.sealing = (dnum x 4 1 == 1) ∧ k.key = BitVec.ofNat 256 (ofBe (slice p 8 (keyLen (dnum x 4 1))))
        else Answered s t d n x 0x32 0 ∧ t.key h = s.key h) ∧
      (kwUnwrap (s.wrapKey d) blob = none → Answered s t d n x 0x32 0 ∧ t.key h = s.key h)) ∧
  (∀ s d n x, CmdReady s d n x → TablesOk s → reservedZero x [(4, 0, 8)] = true → s.ownKey d (dnum x 4 1) = true →
    Does (.keyErase d n x) s fun t => Answered s t d n x 0x00 0 ∧ t.key (dnum x 4 1) = none ∧ (∀ i, i ≠ dnum x 4 1 → t.key i = s.key i) ∧
      t.ports = s.ports ∧ t.belay.otp = s.belay.otp)

/-- CHALLENGE draws 32 bytes, which go to host memory, are kept with the instant, and expire 60 s later. OWNER_ENROL of an unowned device puts the
hash of the key into the first unused owner slot, completes DONE with its number and makes the device OWNED; no other slot and no key changes. Rests
on R47. -/
def Obligations.ChallengeAndEnrol : Prop :=
  (∀ s n x, CmdReady s 0 n x → reservedZero x [fAddr] = true → s.inWindow 0 (daddr x).toNat 32 false true = true →
    Does (.challenge 0 n x) s fun t => Answered s t 0 n x 0x00 0 ∧ (∃ c, t.belay.challenge = some (c, s.raw) ∧
        Sends s t (.host 0 (daddr x).toNat (beBytes 32 c.toNat))) ∧ t.belay.otp = s.belay.otp ∧ t.belay.keys = s.belay.keys ∧ SameRegs s t) ∧
  (∀ s u c r, s.belay.challenge = some (c, r) → u = s.advance (after r (sec 60)) →
    Does .challengeExpiry s fun t => t.belay = { s.belay with challenge := none } ∧ SameRegs u t ∧ t.ports = u.ports ∧ t.raw = u.raw) ∧
  (∀ s n x key (i : Fin 8), CmdReady s 0 n x → reservedZero x [fAddr] = true → s.belay.otp.life = .unowned → key.length = 96 →
      s.inWindow 0 (daddr x).toNat 96 true false = true → (s.belay.otp.slots[i]).used = false → (∀ j : Fin 8, j < i → (s.belay.otp.slots[j]).used = true) →
    Does (.ownerEnrol 0 n x key) s fun t => Answered s t 0 n x 0x00 (BitVec.ofNat 32 i.val) ∧ t.belay.otp.life = .owned ∧ (t.belay.otp.slots[i]).used = true ∧
      (t.belay.otp.slots[i]).revoked = false ∧ (t.belay.otp.slots[i]).hash = sha384 key ∧ (∀ j : Fin 8, j ≠ i → t.belay.otp.slots[j] = s.belay.otp.slots[j]) ∧
      t.belay.keys = s.belay.keys ∧ SameRegs s t ∧ t.ports = s.ports)

/-- OWNER_RELEASE, RETIRE and RMA_ENTER of an owned device spend the challenge. With a good signature over it the device is UNOWNED with its owner
slot revoked, RETIRED with the DUS killed, or in RMA with the DUS killed; keys, Tarn, filters and objects are erased and the partition is the one of
reset. With a bad one the command completes BAD_DESC and nothing else changes in lifecycle, keys or partition. RETIRE of an unowned device needs no
signature. What a signature covers beyond the challenge is log 8. Every key slot is empty after a power-on reset, after each warm reset, after release
and retirement, and after a debug unlock. Rests on R44, R47, R52. -/
def Obligations.OwnerLeaves : Prop :=
  (∀ s n x sig, CmdReady s 0 n x → reservedZero x [fAddr] = true → s.belay.otp.life = .owned → sig.length = 96 →
      s.inWindow 0 (daddr x).toNat 96 true false = true →
    Does (.ownerRelease 0 n x sig) s fun t => t.belay.challenge = none ∧
      if s.ownerSigned sig then t.belay.otp.life = .unowned ∧ (t.belay.otp.slots[(fin 8 s.ownerSlot : Fin 8)]).revoked = true ∧ t.belay.keys = [] ∧ t.tarn = [] ∧
        t.flt = [] ∧ t.objs = [] ∧ t.entry 0 = Entry.ownerReset ∧ (∀ d, d ≠ 0 → t.entry d = {}) ∧ t.belay.otp.dusKilled = s.belay.otp.dusKilled
      else Answered s t 0 n x 0x32 0 ∧ t.belay.otp = s.belay.otp ∧ t.belay.keys = s.belay.keys ∧ t.belay.entries = s.belay.entries) ∧
  (∀ s n x sig, CmdReady s 0 n x → reservedZero x [fAddr] = true → s.belay.otp.life = .owned → sig.length = 96 →
      s.inWindow 0 (daddr x).toNat 96 true false = true →
    Does (.retire 0 n x sig) s fun t => t.belay.challenge = none ∧
      if s.ownerSigned sig then t.belay.otp.life = .retired ∧ t.belay.otp.dusKilled = true ∧ t.belay.keys = [] ∧ t.tarn = [] ∧ t.flt = [] ∧ t.objs = [] ∧
        t.entry 0 = Entry.ownerReset ∧ ∀ d, d ≠ 0 → t.entry d = {}
      else Answered s t 0 n x 0x32 0 ∧ t.belay.otp = s.belay.otp ∧ t.belay.keys = s.belay.keys ∧ t.belay.entries = s.belay.entries) ∧
  (∀ s n x sig, CmdReady s 0 n x → reservedZero x [] = true → s.belay.otp.life = .unowned →
    Does (.retire 0 n x sig) s fun t => t.belay.otp.life = .retired ∧ t.belay.otp.dusKilled = true ∧ t.belay.keys = [] ∧ t.tarn = []) ∧
  (∀ s n x sig, CmdReady s 0 n x → reservedZero x [fAddr] = true → s.belay.otp.life = .owned → sig.length = 96 →
      s.inWindow 0 (daddr x).toNat 96 true false = true →
    Does (.rmaEnter 0 n x sig) s fun t => t.belay.challenge = none ∧
      if s.ownerSigned sig then t.belay.otp.life = .rma ∧ t.belay.otp.dusKilled = true ∧ t.belay.keys = [] ∧ t.tarn = [] ∧ t.flt = [] ∧ t.objs = [] ∧
        t.entry 0 = Entry.ownerReset ∧ ∀ d, d ≠ 0 → t.entry d = {}
      else Answered s t 0 n x 0x32 0 ∧ t.belay.otp = s.belay.otp ∧ t.belay.keys = s.belay.keys ∧ t.belay.entries = s.belay.entries) ∧
  (∀ s, Does .powerOnReset s fun t => t.belay.keys = []) ∧
  (∀ s v, s.serves = true → rstActs v = true → Does (.warmReset (.register 0 v)) s fun t => t.belay.keys = []) ∧
  (∀ s, s.dev.ready = true → s.cairn.resetDue = true → Does (.warmReset .smbus) s fun t => t.belay.keys = []) ∧
  (∀ s, s.dev.ready = true → Does (.warmReset .belayFault) s fun t => t.belay.keys = []) ∧
  (∀ s sig c, s.belay.jtagChallenge = some c →
    Does (.debugUnlock sig) s fun t =>
      ecdsaVerify (if s.belay.otp.life = .rma then Config.faKey else Config.ownerKey s.ownerHash) (beBytes 32 c.toNat ++ beBytes 8 s.serial.toNat)
        (BitVec.ofNat 768 (ofBe (slice sig 0 96))) = true → t.belay.keys = [])

/-- ATTEST with enough room completes DONE and its report, in the scope of the domain, goes to host memory. LOG_READ completes DONE with the number
after its snapshot, which goes to host memory where it is not empty. A debug unlock request in OWNED or RMA while locked draws a challenge that leaves
on JTAG; an unlock spends it, and with a good signature debug is unlocked and keys, Tarn and filters are erased, with a bad one nothing else changes.
What the signature covers, and where draws come from, is log 8; that a request in another state does nothing is log 40. Rests on R48, R49, R51, R52,
R452. -/
def Obligations.AttestLogReadDebug : Prop :=
  (∀ s d n x nonce, CmdReady s d n x → reservedZero x [(4, 0, 32), fAddr] = true → 1152 ≤ dnum x 4 4 → nonce.length = 32 →
      s.inWindow d (daddr x).toNat (dnum x 4 4) true true = true →
    Does (.attest d n x nonce) s fun t => Answered s t d n x 0x00 0 ∧
      Sends s t (.host d (daddr x).toNat (s.report d.val (if d = 0 then 1 else 0) d nonce)) ∧ SameRegs s t ∧ t.belay = s.belay ∧ t.ports = s.ports) ∧
  (∀ s d n x, CmdReady s d n x → reservedZero x [(4, 0, 32), (8, 0, 16), fAddr] = true → 1 ≤ dnum x 8 2 → dnum x 8 2 ≤ 1024 →
      s.inWindow d (daddr x).toNat ((dnum x 8 2 + 1) * 16) false true = true →
    Does (.logRead d n x) s fun t => Answered s t d n x 0x00 (BitVec.ofNat 32 (s.snapshot (domainView d) (dnum x 4 4) (dnum x 8 2)).2) ∧
      (s.snapshotBytes (s.snapshot (domainView d) (dnum x 4 4) (dnum x 8 2)).1 ≠ [] →
        Sends s t (.host d (daddr x).toNat (s.snapshotBytes (s.snapshot (domainView d) (dnum x 4 4) (dnum x 8 2)).1))) ∧ Logged s t [] ∧ SameRegs s t) ∧
  (∀ s, s.belay.debugUnlocked = false → s.belay.otp.life = .owned ∨ s.belay.otp.life = .rma →
    Does .debugUnlockRequest s fun t => ∃ c, t.belay = { s.belay with jtagChallenge := some c } ∧ Sends s t (.jtag c)) ∧
  (∀ s sig c, s.belay.jtagChallenge = some c →
    Does (.debugUnlock sig) s fun t => t.belay.jtagChallenge = none ∧
      if ecdsaVerify (if s.belay.otp.life = .rma then Config.faKey else Config.ownerKey s.ownerHash) (beBytes 32 c.toNat ++ beBytes 8 s.serial.toNat)
          (BitVec.ofNat 768 (ofBe (slice sig 0 96))) then t.belay.debugUnlocked = true ∧ t.belay.keys = [] ∧ t.tarn = [] ∧ t.flt = [] ∧ t.belay.otp = s.belay.otp
      else t.belay = { s.belay with jtagChallenge := none } ∧ t.tarn = s.tarn)

/-- HOLD with a time: of a running port and of a live group it is pending, of a held port it sets the time left and completes DONE, of a port that the
domain does not own it completes OWNER. A pending hold takes effect once nothing is on the wire of the port, or the joined bus of the group is idle,
and shows HOLD. At the end of the time a port is back in the state before, and so is a group, which may have been promoted meanwhile. Rests on R128,
R129, R247. -/
def Obligations.HoldCommand : Prop :=
  (∀ s d n x (p : PortId), CmdReady s d n x → reservedZero x holdFields = true → dnum x 4 1 = p.val → s.portOwner p = d → s.underTest p = false →
      s.heldBack (fun a => a.ports.getLsbD p.val) = false → s.groupOf p = none → running (s.port p).state = true → (s.port p).holdPending = none → (BitVec.ofNat 32 (dnum x 8 4) : Word) ≠ 0 →
    Does (.hold d n x) s fun t => t.port p = { s.port p with holdPending := some (BitVec.ofNat 32 (dnum x 8 4)), holdWaiter := some (s.opOf d n x) } ∧
      OtherPorts s t p ∧ SameRegs s t ∧ t.groups = s.groups) ∧
  (∀ s d n x (p : PortId), CmdReady s d n x → reservedZero x holdFields = true → dnum x 4 1 = p.val → s.portOwner p = d → s.underTest p = false →
      s.heldBack (fun a => a.ports.getLsbD p.val) = false → s.groupOf p = none → (s.port p).state = .hold → (BitVec.ofNat 32 (dnum x 8 4) : Word) ≠ 0 →
    Does (.hold d n x) s fun t => Answered s t d n x 0x00 0 ∧ t.port p = { s.port p with holdEnd := s.holdDue (BitVec.ofNat 32 (dnum x 8 4)) } ∧
      OtherPorts s t p ∧ SameRegs s t ∧ t.groups = s.groups) ∧
  (∀ s d n x (k : GrpId), CmdReady s d n x → reservedZero x holdFields = true → dnum x 4 1 = 0x40 + k.val → s.grpOwner k = d →
      s.heldBack (s.namesGroup k) = false →
      (s.group k).state = .coldstart ∨ (s.group k).state = .startup ∨ (s.group k).state = .normal → (s.group k).holdPending = none →
      (BitVec.ofNat 32 (dnum x 8 4) : Word) ≠ 0 →
    Does (.hold d n x) s fun t => t.group k = { s.group k with holdPending := some (BitVec.ofNat 32 (dnum x 8 4)), holdWaiter := some (s.opOf d n x) } ∧
      SameRegs s t ∧ t.ports = s.ports ∧ ∀ j, j ≠ k → t.group j = s.group j) ∧
  (∀ s d n x (p : PortId), CmdReady s d n x → reservedZero x holdFields = true → dnum x 4 1 = p.val → s.portOwner p ≠ d →
    Does (.hold d n x) s fun t => Answered s t d n x 0x31 0 ∧ t.ports = s.ports ∧ t.groups = s.groups ∧ SameRegs s t) ∧
  (∀ s p w, (s.port p).holdPending = some w → (s.port p).onWire = none → running (s.port p).state = true → (s.port p).seqOn = false → s.groupOf p = none →
    Does (.holdTakesEffect (.port p)) s fun t =>
      t.port p = { s.port p with state := .hold, prior := (s.port p).state, holdPending := none, holdWaiter := none, holdEnd := s.holdDue w } ∧
      t.reg (.port p .evt) = setBit (s.reg (.port p .evt)) 0 ∧ OtherPorts s t p ∧ OtherRegs s t [.port p .evt] ∧ t.groups = s.groups) ∧
  (∀ s k w, (s.group k).holdPending = some w → s.joinedIdle k = true →
      (s.group k).state = .coldstart ∨ (s.group k).state = .startup ∨ (s.group k).state = .normal →
    Does (.holdTakesEffect (.grp k)) s fun t =>
      t.group k = { s.group k with state := .hold, prior := (s.group k).state, holdPending := none, holdWaiter := none, holdEnd := s.holdDue w } ∧
      t.reg (.grp k .evt) = setBit (s.reg (.grp k .evt)) 0 ∧ ∀ j, j ≠ k → t.group j = s.group j) ∧
  (∀ s u p r, (s.port p).state = .hold → (s.port p).holdEnd = some r → s.groupOf p = none → u = s.advance r →
    Does (.holdExpiry (.port p)) s fun t => t.port p = { u.port p with state := (s.port p).prior, prior := .off, holdEnd := none } ∧
      OtherPorts u t p ∧ OtherRegs u t [.port p .evt] ∧ t.groups = s.groups) ∧
  (∀ s k r, (s.group k).state = .hold → (s.group k).holdEnd = some r →
    Does (.holdExpiry (.grp k)) s fun t => (t.group k).holdEnd = none ∧
      (t.group k).state = (if (s.group k).prior = .startup ∧ max 1 (s.rf (.grp k .cfg) 12 5) ≤ (s.group k).promoteCnt then GState.normal else (s.group k).prior) ∧
      ∀ j, j ≠ k → t.group j = s.group j)

/-- IMG_WRITE of whole blocks within the staging area, by its holder or from offset 0 of a free area, stores them and completes DONE; a write that the
flash does not take completes BAD_DESC with REASON 8. IMG_ACTIVATE of a slot in place begins an activation with the REASON of that slot and changes no
slot; while one runs, another completes BUSY. It ends when the device is next idle (the model's choice: log 33): with REASON 0 the slot is active, in
trial for the three firmware components, with the slots unchanged and the event bit set; with another REASON the command completes BAD_DESC, and no
slot and no fuse changes. Rests on R463, R464, R465. -/
def Obligations.ImageCommands : Prop :=
  (∀ s n x bytes, CmdReady s 0 n x → reservedZero x [(4, 0, 32), (8, 0, 32), fAddr] = true → dnum x 8 4 % 256 = 0 → dnum x 8 4 ≤ 0x10000 →
      dnum x 4 4 % 256 = 0 → dnum x 4 4 + dnum x 8 4 ≤ stagingSize → bytes.length = dnum x 8 4 → s.inWindow 0 (daddr x).toNat (dnum x 8 4) true false = true →
      (s.cairn.holder = .owner ∨ (dnum x 4 4 = 0 ∧ s.cairn.holder = .none_)) →
    Does (.imgWrite 0 n x bytes true) s fun t => Answered s t 0 n x 0x00 0 ∧ t.cairn.holder = .owner ∧
      (∀ i, i < dnum x 8 4 / 256 → Tbl.get [] t.cairn.staging (dnum x 4 4 / 256 + i) = (bytes.drop (256 * i)).take 256) ∧
      SameRegs s t ∧ t.ports = s.ports ∧ t.cairn.comps = s.cairn.comps) ∧
  (∀ s n x bytes, CmdReady s 0 n x → reservedZero x [(4, 0, 32), (8, 0, 32), fAddr] = true → dnum x 8 4 % 256 = 0 → dnum x 8 4 ≤ 0x10000 →
      dnum x 4 4 % 256 = 0 → dnum x 4 4 + dnum x 8 4 ≤ stagingSize → bytes.length = dnum x 8 4 → s.inWindow 0 (daddr x).toNat (dnum x 8 4) true false = true →
      s.cairn.holder = .owner →
    Does (.imgWrite 0 n x bytes false) s fun t => Answered s t 0 n x 0x32 0 ∧ t.cairn.imgReason = 8 ∧ t.cairn.comps = s.cairn.comps) ∧
  (∀ s n x c, CmdReady s 0 n x → reservedZero x [(4, 0, 16), (6, 0, 8)] = true → compIx (dnum x 4 2) = some c → dnum x 6 1 = 0x80 ∨ dnum x 6 1 = 0x81 →
      s.cairn.activating = none →
    Does (.imgActivate 0 n x true) s fun t => (∃ a, t.cairn.activating = some a ∧ a.comp = c ∧ a.slotB = (dnum x 6 1 % 2 == 1) ∧ a.inPlace = true ∧
        a.op = some (s.opOf 0 n x) ∧ a.reason = s.inPlaceReason c ((s.comp c).slot (dnum x 6 1 % 2 == 1)) true) ∧
      t.cairn.comps = s.cairn.comps ∧ t.cairn.holder = s.cairn.holder ∧ t.belay.otp = s.belay.otp ∧ t.ports = s.ports ∧ SameRegs s t) ∧
  (∀ s n x c programmed, CmdReady s 0 n x → reservedZero x [(4, 0, 16), (6, 0, 8)] = true → compIx (dnum x 4 2) = some c → slotOk (dnum x 6 1) = true →
      s.cairn.activating.isSome = true →
    Does (.imgActivate 0 n x programmed) s fun t => Answered s t 0 n x 0x33 0 ∧ t.cairn = s.cairn ∧ SameRegs s t) ∧
  (∀ s u a, s.pending = [] → s.dev.ready = true → u = (s.advance s.nextUs).wiresEnd.turnTests.endBusy → u.cairn.activating = some a → a.reason = 0 →
      a.inPlace = true →
    ∃ t, step s = .next t ∧ t.cairn.activating = none ∧ (t.comp a.comp).activeB = a.slotB ∧ (t.comp a.comp).a = (s.comp a.comp).a ∧
      (t.comp a.comp).b = (s.comp a.comp).b ∧ (t.comp a.comp).trial = decide (a.comp.val < 3) ∧ (∀ i, i ≠ a.comp → t.comp i = s.comp i) ∧
      t.rb (.fn 0 .crnEvt) 9 = true ∧ (t.cairn.holder = .none_ ∨ t.cairn.holder = s.cairn.holder)) ∧
  (∀ s u a o, s.pending = [] → s.dev.ready = true → u = (s.advance s.nextUs).wiresEnd.turnTests.endBusy → u.cairn.activating = some a → a.reason ≠ 0 →
      a.op = some o → o.epoch = (u.func o.dom).epoch → u.mute o.dom = false → u.dev.recovery = false → u.ringOn o.dom (u.cqOf o.dom o.num) 3 = true →
      (u.ring (u.dring o.dom (u.cqOf o.dom o.num))).wait = [] → 0 < u.room o.dom (u.cqOf o.dom o.num) →
    ∃ t, step s = .next t ∧ t.cairn.activating = none ∧ t.cairn.imgReason = a.reason ∧ t.cairn.comps = s.cairn.comps ∧ t.belay.otp = s.belay.otp ∧
      t.rb (.fn 0 .crnEvt) 9 = true ∧
      ∃ e : CqEntry, Sends s t (u.entryOut o.dom (u.cqOf o.dom o.num) e) ∧ e.tag = o.tag ∧ e.num = o.num ∧ e.status = 0x32)

/-- TRV_WRITE to a stopped group and RT_WRITE to route entries of the domain write exactly the entries named, and TRV_READ, RT_READ and FAB_TOPO_READ
put exactly those named, or the whole topology, into host memory; each completes DONE with its count. TRV_WRITE to a group that is not STOPPED
completes BUSY and writes nothing; TRV_READ is allowed in every state. GW_RULE with rights on both sides installs a rule in a free number, replaces
one with its counters kept, and removes one with the inputs that wait for it; no other rule changes. States R252. -/
def Obligations.TableAndRuleCommands : Prop :=
  (∀ s d n x b, CmdReady s d n x → trvBad x = false → s.grpOwner (trvGroup x) = d → s.inWindow d (daddr x).toNat (32 * trvCount x) true false = true →
      (s.group (trvGroup x)).state = .stopped → b.length = 32 * trvCount x → Tbl.wf 0 (s.group (trvGroup x)).table = true →
    Does (.trvWrite d n x b) s fun t => Answered s t d n x 0x00 (BitVec.ofNat 32 (trvCount x)) ∧
      (∀ i, i < trvCount x → t.slotAt (trvGroup x) (trvFirst x + i) = BitVec.ofNat 256 (leAt b (32 * i) 32)) ∧
      (∀ j, j < trvFirst x ∨ trvFirst x + trvCount x ≤ j → t.slotAt (trvGroup x) j = s.slotAt (trvGroup x) j) ∧
      (∀ k, k ≠ trvGroup x → t.group k = s.group k) ∧ SameRegs s t ∧ t.ports = s.ports) ∧
  (∀ s d n x, CmdReady s d n x → trvBad x = false → s.grpOwner (trvGroup x) = d → s.inWindow d (daddr x).toNat (32 * trvCount x) false true = true →
    Does (.trvRead d n x) s fun t => Answered s t d n x 0x00 (BitVec.ofNat 32 (trvCount x)) ∧
      Sends s t (.host d (daddr x).toNat ((List.range (trvCount x)).flatMap (fun i => slotBytesOf (s.slotAt (trvGroup x) (trvFirst x + i))))) ∧
      SameRegs s t ∧ t.groups = s.groups ∧ t.ports = s.ports) ∧
  (∀ s d n x b, CmdReady s d n x → rtBad x = false → s.rtForeign x d = false → s.inWindow d (daddr x).toNat (32 * rtCount x) true false = true →
      b.length = 32 * rtCount x → (∀ i, i < rtCount x → rtEntryBad (slice b (32 * i) 32) = false) → TablesOk s →
    Does (.rtWrite d n x b) s fun t => Answered s t d n x 0x00 (BitVec.ofNat 32 (rtCount x)) ∧
      (∀ i, i < rtCount x → t.route (rtFirst x + i) = { s.route (rtFirst x + i) with
        valid := decide (leAt b (32 * i) 1 % 2 = 1), twin := decide (leAt b (32 * i) 1 / 2 % 2 = 1), cls := BitVec.ofNat 2 (leAt b (32 * i) 1 / 4),
        dest := b.getD (32 * i + 1) 0, toRule := decide (leAt b (32 * i + 2) 1 % 2 = 1), target := BitVec.ofNat 16 (leAt b (32 * i + 4) 2),
        src := b.getD (32 * i + 6) 0 }) ∧
      (∀ j, j < rtFirst x ∨ rtFirst x + rtCount x ≤ j → t.route j = s.route j) ∧ SameRegs s t ∧ t.belay = s.belay ∧ t.links = s.links) ∧
  (∀ s d n x, CmdReady s d n x → rtBad x = false → s.rtForeign x d = false → s.inWindow d (daddr x).toNat (32 * rtCount x) false true = true →
    Does (.rtRead d n x) s fun t => Answered s t d n x 0x00 (BitVec.ofNat 32 (rtCount x)) ∧
      Sends s t (.host d (daddr x).toNat ((List.range (rtCount x)).flatMap (fun i => s.rtBytes (rtFirst x + i)))) ∧ t.routes = s.routes ∧ SameRegs s t) ∧
  (∀ s n x, CmdReady s 0 n x → reservedZero x [(4, 0, 32), fAddr] = true → 8192 ≤ dnum x 4 4 → s.inWindow 0 (daddr x).toNat (dnum x 4 4) false true = true →
    Does (.fabTopoRead 0 n x) s fun t => Answered s t 0 n x 0x00 (BitVec.ofNat 32 (s.topology.length + 1)) ∧
      Sends s t (.host 0 (daddr x).toNat (s.topoPayload ++ s.topology.flatMap (·.payload))) ∧ t.fab = s.fab ∧ SameRegs s t) ∧
  (∀ s d n x b, CmdReady s d n x → trvBad x = false → s.grpOwner (trvGroup x) = d → s.inWindow d (daddr x).toNat (32 * trvCount x) true false = true →
      (s.group (trvGroup x)).state ≠ .stopped → b.length = 32 * trvCount x →
    Does (.trvWrite d n x b) s fun t => Answered s t d n x 0x33 0 ∧ t.groups = s.groups ∧ SameRegs s t ∧ t.ports = s.ports) ∧
  (∀ s d n x b, CmdReady s d n x → gwDescBad x = false → gwOp x = 0 → (s.entry d).gateway = true → s.rule (fin 512 (gwNumber x)) = none → b.length = 32 →
      s.inWindow d (daddr x).toNat 32 true false = true → gwRuleBad b = false →
      (d = 0 ∨ (leAt b 1 1 % 16 = d.val ∧ leAt b 1 1 / 16 = d.val)) →
    Does (.gwRule d n x b) s fun t => Answered s t d n x 0x00 0 ∧
      t.rule (fin 512 (gwNumber x)) = some { body := BitVec.ofNat 192 (leAt b 0 24), owner := d } ∧
      (∀ j, j ≠ (fin 512 (gwNumber x) : Fin 512) → t.rule j = s.rule j) ∧ SameRegs s t ∧ t.ports = s.ports ∧ t.spur.inputs = s.spur.inputs) ∧
  (∀ s d n x b old, CmdReady s d n x → gwDescBad x = false → gwOp x = 1 → (s.entry d).gateway = true → s.rule (fin 512 (gwNumber x)) = some old → old.owner = d →
      b.length = 32 → s.inWindow d (daddr x).toNat 32 true false = true → gwRuleBad b = false →
      (d = 0 ∨ (leAt b 1 1 % 16 = d.val ∧ leAt b 1 1 / 16 = d.val)) →
    Does (.gwRule d n x b) s fun t => Answered s t d n x 0x00 0 ∧
      t.rule (fin 512 (gwNumber x)) = some { body := BitVec.ofNat 192 (leAt b 0 24), owner := d, hits := old.hits, drops := old.drops } ∧
      (∀ j, j ≠ (fin 512 (gwNumber x) : Fin 512) → t.rule j = s.rule j) ∧ SameRegs s t ∧ t.ports = s.ports) ∧
  (∀ s d n x b old, CmdReady s d n x → gwDescBad x = false → gwOp x = 2 → (s.entry d).gateway = true → s.rule (fin 512 (gwNumber x)) = some old → old.owner = d →
      Tbl.wf none s.spur.rules = true →
    Does (.gwRule d n x b) s fun t => Answered s t d n x 0x00 0 ∧ t.rule (fin 512 (gwNumber x)) = none ∧
      (∀ j, j ≠ (fin 512 (gwNumber x) : Fin 512) → t.rule j = s.rule j) ∧
      t.spur.inputs = s.spur.inputs.filter (fun e => e.1 != fin 512 (gwNumber x)) ∧ SameRegs s t ∧ t.ports = s.ports)

/-- SELF_TEST of an OFF or STOPPED port starts at once and leaves the port as it is; of a sleeping one it completes BUSY. A forced test of a running
port outside a live group starts at the quiet point of the port, which then shows HOLD. A test that ends frees the unit; a port's is logged with its
result, and an engine that fails is FAULTED, with its event bit. Rests on R469, R470, R471, R472. -/
def Obligations.SelfTests : Prop :=
  (∀ s d n x (p : PortId), CmdReady s d n x → reservedZero x [(4, 0, 8), (5, 0, 8), (6, 0, 1)] = true → dnum x 4 1 = 0 → dnum x 5 1 = p.val → s.portOwner p = d →
      s.cairn.test = none → s.cairn.tests = [] → s.liveGroup p = none → (s.port p).state = .off ∨ (s.port p).state = .stopped →
    Does (.selfTest d n x) s fun t => t.cairn.test = some { op := s.opOf d n x, kind := 0, index := p.val, force := false, started := true } ∧ t.cairn.tests = [] ∧
      t.ports = s.ports ∧ SameRegs s t ∧ Logged s t []) ∧
  (∀ s d n x (p : PortId), CmdReady s d n x → reservedZero x [(4, 0, 8), (5, 0, 8), (6, 0, 1)] = true → dnum x 4 1 = 0 → dnum x 5 1 = p.val → s.portOwner p = d →
      s.cairn.test = none → s.cairn.tests = [] → (s.port p).state = .sleep →
    Does (.selfTest d n x) s fun t => Answered s t d n x 0x33 0 ∧ t.cairn.test = none ∧ t.ports = s.ports ∧ SameRegs s t) ∧
  (∀ s (q : SelfTest), s.cairn.test = some q → q.started = false → q.kind = 0 → q.force = true → running (s.port (testPort q)).state = true →
      s.liveGroup (testPort q) = none → s.quiet (testPort q) = true →
    Does .selfTestForcedStart s fun t => t.cairn.test = some { q with started := true, heldPrior := .off, heldEnd := none } ∧
      t.port (testPort q) = { s.port (testPort q) with state := .hold, prior := (s.port (testPort q)).state, holdEnd := none, joined := false, busIdle := false } ∧
      OtherPorts s t (testPort q) ∧ OtherRegs s t [.port (testPort q) .evt]) ∧
  (∀ s (q : SelfTest) block us, s.cairn.test = some q → q.started = true → q.kind = 0 → q.force = false → s.cairn.tests = [] → s.cairn.deferred = [] →
      s.cairn.deferredHolds = [] → s.dev.absent.getLsbD 0 = false → s.log.intake.length < 256 →
    Does (.selfTestEnd false block us) s fun t => t.cairn.test = none ∧ t.ports = s.ports ∧ SameRegs s t ∧
      ∃ r, Logged s t [(s.raw, r)] ∧ r.source = 0x0E ∧ r.code = 0x01 ∧ r.arg0 = BitVec.ofNat 32 (256 * q.index) ∧ r.arg1 = testInfo false block us) ∧
  (∀ s (q : SelfTest) block us, s.cairn.test = some q → q.started = true → q.kind = 1 → (s.engine (testEngine q)).state = .testing → s.cairn.tests = [] →
      s.cairn.deferred = [] → s.cairn.deferredHolds = [] →
    Does (.selfTestEnd true block us) s fun t => t.cairn.test = none ∧ (t.engine (testEngine q)).state = .faulted ∧ (t.engine (testEngine q)).cause = 5 ∧
      t.rb (.dev .seevt) 0 = true ∧ (∀ e, e ≠ testEngine q → t.engine e = s.engine e) ∧ t.ports = s.ports ∧ OtherRegs s t [.dev .seevt])

/-- At the start decision of a port outside a group and without time frames, the chosen candidate, whose seal can start, goes onto the wire, with the
start of frame corrected by TXDLY, and leaves the device where the pin is not held recessive. A commit keeps what is on the wire and its start of
frame. The arbitration that a sealed attempt wins takes its next FV and sends its trailer. The end of the suspension lets the port start again. Rests
on R100, R171, R192, R194, R206, R213. -/
def Obligations.StartsAndCommits : Prop :=
  (∀ s p sof c, TablesOk s → s.otherFamily p = false → s.groupOf p = none → s.mayStart p = true → s.ftEn p = false → s.chosen p sof = some c →
      s.sealStarts (s.startCand c) = true →
    Does (.startDecision p sof) s fun t => (∃ a, (t.port p).onWire = some a ∧ a.what = .cand c.slot ∧ a.frame = (s.startCand c).frame ∧
        a.sof = after sof (s.rf (.port p .txdly) 0 16) ∧ a.committed = false ∧ a.trailed = false ∧ a.destroyed = false) ∧
      (t.port p).busIdle = false ∧ (s.txdRecessive p = false → Sends s t (.frame p (s.startCand c).frame)) ∧ t.tarn = s.tarn ∧ t.belay = s.belay) ∧
  (∀ s p a, (s.port p).onWire = some a → a.committed = false → a.destroyed = false →
    Does (.attemptCommit ⟨p, .commit⟩) s fun t => (∃ b, (t.port p).onWire = some b ∧ b.committed = true ∧ b.what = a.what ∧ b.sof = a.sof) ∧
      OtherPorts s t p ∧ SameRegs s t ∧ t.rings = s.rings ∧ t.counts = s.counts) ∧
  (∀ s p a i c h k, (s.port p).onWire = some a → a.committed = false → a.destroyed = false → a.trailed = false → a.what = .cand i →
      candAt (s.port p) i = some c → c.sealWith = some h → s.ownKey c.op.dom h.toNat = true → s.key h.toNat = some k → TablesOk s →
    Does (.attemptCommit ⟨p, .arbitration⟩) s fun t => t.key h.toNat = some { k with ctr := k.ctr + 1 } ∧ (∀ j, j ≠ h.toNat → t.key j = s.key j) ∧
      Sends s t (.trailer p (trailerOf k a.frame a.frame.data (k.ctr + 1))) ∧
      (∃ b, (t.port p).onWire = some b ∧ b.trailed = true ∧ b.committed = false ∧ b.frame.data = a.frame.data ++ trailerOf k a.frame a.frame.data (k.ctr + 1)) ∧
      OtherPorts s t p ∧ SameRegs s t) ∧
  (∀ s p, (s.port p).suspend = true →
    Does (.suspendEnd p) s fun t => t.port p = { s.port p with suspend := false } ∧ OtherPorts s t p ∧ SameRegs s t)

/-- An attempt of an unsealed candidate that ends with success, on a port outside a group, takes one from TEC, leaves REC, takes the candidate from
the set and completes SUCCESS, or SUCCESS_RETRIED after an earlier attempt, with its start of frame as the stamp. One that loses arbitration without
ALCOUNT before its commit leaves the wire and stays a candidate with one more attempt and one more loss; no register and no other port changes. Rests
on R197, R198, R199, R203, R219. -/
def Obligations.AttemptEnds : Prop :=
  (∀ s p loop a i c, s.otherFamily p = false → s.groupOf p = none → running (s.port p).state = true → (s.port p).state ≠ .test → (s.port p).onWire = some a →
      a.what = .cand i → candAt (s.port p) i = some c → c.sealWith = none → c.quiet = false → (s.spur.attached[p]).isSome = true → a.destroyed = false → s.tdcRange p a.frame loop = false →
      c.op.epoch = (s.func c.op.dom).epoch → s.mute c.op.dom = false → s.dev.recovery = false → s.ringOn c.op.dom (s.cqOf c.op.dom c.op.num) 3 = true →
      (s.ring (s.dring c.op.dom (s.cqOf c.op.dom c.op.num))).wait = [] → 0 < s.room c.op.dom (s.cqOf c.op.dom c.op.num) →
    Does (.attemptEnd p .success loop) s fun t => (t.port p).onWire = none ∧ (t.port p).tec = (s.port p).tec - 1 ∧ (t.port p).rec_ = (s.port p).rec_ ∧
      (t.port p).cands.length = ((s.port p).cands.filter (fun k => decide (k.slot ≠ c.slot))).length ∧ OtherPorts s t p ∧
      ∃ e : CqEntry, Sends s t (s.entryOut c.op.dom (s.cqOf c.op.dom c.op.num) e) ∧ e.tag = c.op.tag ∧
        e.status = (if c.attempts = 0 then 0x00 else 0x01) ∧ e.stamp = some (s.short a.sof) ∧ e.port = BitVec.ofNat 8 p.val) ∧
  (∀ s p loop a i c, s.otherFamily p = false → running (s.port p).state = true → (s.port p).onWire = some a → a.what = .cand i →
      candAt (s.port p) i = some c → a.committed = false → (s.spur.attached[p]).isSome = true → (s.port p).stopPending = false → (s.port p).refStop = false →
      c.holdEnded = false → c.ringOff = false → c.alcount = false → c.ending ≠ some 12 → s.tdcOf p a.frame = none →
    Does (.attemptEnd p .arbLost loop) s fun t => t.port p = { s.port p with onWire := none, cands := (s.port p).cands.map (fun e =>
        if e.slot = c.slot then { c with attempts := c.attempts + 1, arb := c.arb + 1 } else e) } ∧
      OtherPorts s t p ∧ SameRegs s t ∧ t.rings = s.rings ∧ t.belay = s.belay)

/-- An error on a running port outside a group, other than in TEST, adds to TEC and REC by the table of R207, sets LAST_ERR and sends the flag of the
error state, where the pin is not held recessive. An overload flag counts in its own counter and leaves LAST_ERR. On a port under a forced self-test
an error changes nothing. A TEC beyond 255 in NORMAL, with nothing of the port on the wire, takes it to BUSOFF, keeps FLUSH of that moment and sets
both event bits. At the end of the recovery sequence both counters are 0, and a port in BUSOFF is back in the state before. Rests on R100, R207, R211,
R212, R214, R471, R506. -/
def Obligations.ErrorsAndRecovery : Prop :=
  (∀ s p e, s.otherFamily p = false → s.groupOf p = none → running (s.port p).state = true → (s.port p).state ≠ .test → (s.port p).seqOn = false → e.overload = false → e.unknownFormat = false → e.xlData = false →
      s.underTest p = false → (s.port p).tec + (errAdds e (passive (s.port p).tec (s.port p).rec_)).1 ≤ 255 →
    Does (.errorDetected p e) s fun t => (t.port p).tec = (s.port p).tec + (errAdds e (passive (s.port p).tec (s.port p).rec_)).1 ∧
      (t.port p).rec_ = min 255 ((s.port p).rec_ + (errAdds e (passive (s.port p).tec (s.port p).rec_)).2) ∧ (t.port p).lastErr = some e.kind ∧
      (t.port p).state = (s.port p).state ∧ (t.port p).cands = (s.port p).cands ∧ (t.port p).onWire = (s.port p).onWire ∧
      (s.txdRecessive p = false → Sends s t (.errorFlag p (!passive (s.port p).tec (s.port p).rec_))) ∧ OtherPorts s t p ∧ SameRegs s t) ∧
  (∀ s p e, s.otherFamily p = false → s.groupOf p = none → (s.port p).state = .normal → (s.port p).seqOn = false → (s.port p).onWire = none → e.overload = false → e.unknownFormat = false → e.xlData = false →
      s.underTest p = false → 255 < (s.port p).tec + (errAdds e (passive (s.port p).tec (s.port p).rec_)).1 →
    Does (.errorDetected p e) s fun t => (t.port p).state = .busoff ∧ (t.port p).boAuto = false ∧ (t.port p).tec = 256 ∧
      (t.port p).flush = s.rb (.port p .mode) 11 ∧ t.rb (.port p .evt) 1 = true ∧ t.rb (.port p .evt) 0 = true ∧ OtherPorts s t p ∧ OtherRegs s t [.port p .evt]) ∧
  (∀ s p e, s.otherFamily p = false → s.groupOf p = none → running (s.port p).state = true → (s.port p).state ≠ .test → (s.port p).seqOn = false → e.overload = true → e.flagBitErrors = 0 →
      e.unknownFormat = false → e.xlData = false → s.underTest p = false → TablesOk s →
      (s.port p).tec + (errAdds e (passive (s.port p).tec (s.port p).rec_)).1 ≤ 255 →
    Does (.errorDetected p e) s fun t => (t.port p).tec = (s.port p).tec + (errAdds e (passive (s.port p).tec (s.port p).rec_)).1 ∧
      (t.port p).rec_ = min 255 ((s.port p).rec_ + (errAdds e (passive (s.port p).tec (s.port p).rec_)).2) ∧ (t.port p).lastErr = (s.port p).lastErr ∧
      (t.port p).state = (s.port p).state ∧ (t.port p).cands = (s.port p).cands ∧ (t.port p).onWire = (s.port p).onWire ∧
      Tbl.get 0 t.counts (64 * s.block p + 0x84 / 4) = Tbl.get 0 s.counts (64 * s.block p + 0x84 / 4) + 1 ∧ OtherPorts s t p ∧ SameRegs s t) ∧
  (∀ s p e, s.otherFamily p = false → s.underTest p = true → Does (.errorDetected p e) s fun t => t = s) ∧
  (∀ s u p, (s.port p).seqOn = true → (s.port p).holdPending = none → u = s.waitFrom (s.port p).seqAt (1408 * s.nbt p) →
    Does (.recoverySeqEnd p) s fun t => (t.port p).tec = 0 ∧ (t.port p).rec_ = 0 ∧ (t.port p).seqOn = false ∧ (t.port p).joined = true ∧
      (t.port p).state = (if (s.port p).state = .busoff then (s.port p).prior else (s.port p).state) ∧ (t.port p).cands = (u.port p).cands ∧
      OtherPorts u t p ∧ OtherRegs u t [.port p .evt])

/-- A payload that is read for one of the two candidates that may load (which of them holds a buffer: log 25) is loaded; a first failed read is to be
repeated, and a second one ends the candidate DMA_WINDOW unless the port keeps its candidates. At the end of its HOLD a candidate that is not on the
wire ends, and one on the wire is marked to end with its attempt. At the latest fitting start of its own slot (log 61) a candidate that is not on the
wire ends SLOT_MISSED. A beacon that falls due counts its SEQ on, withdraws follow-up and answers of the one before, and counts an unanswered poll as
MISSED. Rests on R190, R191, R195, R201, R224, R263, R306. -/
def Obligations.CandidateEvents : Prop :=
  (∀ s p c k bs, candAt (s.port p) c = some k → k.ready = false → k.ending = none → k.addr.isSome = true → bs.length = k.len →
      (lowestTwo ((s.port p).cands.filter inSet)).any (fun e => e.slot == c) = true → bufferFor (s.port p) = true →
    Does (.payloadLoaded p c k.reread (some bs)) s fun t => t.port p = loadPayload s.raw (s.port p) c bs ∧ OtherPorts s t p ∧ SameRegs s t ∧ t.counts = s.counts) ∧
  (∀ s p c k, candAt (s.port p) c = some k → k.ready = false → k.ending = none → k.addr.isSome = true → k.reread = true →
      (lowestTwo ((s.port p).cands.filter inSet)).any (fun e => e.slot == c) = true → bufferFor (s.port p) = true →
    Does (.payloadLoaded p c true none) s fun t => t.port p = (if s.keepsCands p then
        { s.port p with cands := (s.port p).cands.map (fun e => if e.slot = c then { e with reread := false } else e) }
        else addEnding s.raw (s.port p) 1 (fun e => e.slot == c)) ∧ OtherPorts s t p ∧ SameRegs s t) ∧
  (∀ s p c k, candAt (s.port p) c = some k → k.ready = false → k.ending = none → k.addr.isSome = true → k.reread = false →
      (lowestTwo ((s.port p).cands.filter inSet)).any (fun e => e.slot == c) = true → bufferFor (s.port p) = true → TablesOk s →
    Does (.payloadLoaded p c false none) s fun t => OtherPorts s t p ∧ SameRegs s t ∧
      t.port p = { s.port p with cands := (s.port p).cands.map (fun e => if e.slot = c then { e with reread := true } else e) }) ∧
  (∀ s u p c k r, candAt (s.port p) c = some k → k.due = some r → u = s.advance r → onWireSlot (u.port p) ≠ some c →
    Does (.candidateExpiry p c) s fun t => t.port p = addEnding u.raw (u.port p) 8 (fun e => e.slot == c) ∧ OtherPorts u t p ∧ SameRegs u t) ∧
  (∀ s u p c k r, candAt (s.port p) c = some k → k.due = some r → u = s.advance r → onWireSlot (u.port p) = some c →
    Does (.candidateExpiry p c) s fun t => t.port p = { u.port p with cands := (u.port p).cands.map (fun e => if e.slot = c then { e with holdEnded := true } else e) } ∧
      OtherPorts u t p ∧ SameRegs u t) ∧
  (∀ s u p c k e m l, s.anchorOf p = some k → candAt (s.port p) c = some e → s.may[k] = some m → s.traverse k = true → s.missWait k = false →
      e.ready = true → inSet e = true → s.ownSlot p k e m = some l →
      u = s.advance (s.rawOfFlow (s.flow (s.group k).cycleAt + BitVec.ofInt 64 l)) → onWireSlot (u.port p) ≠ some c →
    Does (.slotMissed p c) s fun t => t.port p = addEnding u.raw (u.port p) 12 (fun e => e.slot == c) ∧ OtherPorts u t p ∧ SameRegs u t) ∧
  (∀ s u p, s.ftEn p = true → takesPart (s.port p) = true → (s.port p).joined = true → s.silentMember p = false → s.tmu.started = true →
      u = s.advance (s.rawOf (s.beaconTime p)) →
    Does (.beaconDue p) s fun t => (t.port p).ft.seqNo = (s.port p).ft.seqNo + 1 ∧ (t.port p).ft.beaconDue = true ∧ (t.port p).ft.dueAt = some (s.beaconTime p) ∧
      (t.port p).ft.followUp = none ∧ (t.port p).ft.delayResp = [] ∧
      (t.port p).ft.missed = (if (s.port p).ft.pollOpen then (s.port p).ft.missed + 1 else (s.port p).ft.missed) ∧
      (t.port p).cands = (u.port p).cands ∧ OtherPorts u t p ∧ SameRegs u t)

/-- A frame that a port outside a live group hears, with room, takes its place in staging, stamped at its start of frame less RXDLY, with the instant
at which it was complete, and REC falls by the rule of R207; an isolated port keeps it in its FIFO; a frame on an ignored branch of a star is not
taken. Rests on R86, R124, R156, R400. -/
def Obligations.FrameReception : Prop :=
  (∀ s p f tm, s.otherFamily p = false → s.liveGroup p = none → s.hears p f = true → (s.port p).state ≠ .isolated →
      usedUnits (s.port p).spaces + stageUnits f.data.length ≤ 96 →
    Does (.frameReceived p f tm p) s fun t => (∃ r, t.rxq = s.rxq ++ [(p, r)] ∧ r.frame = f ∧ r.sof = tm.sof - BitVec.ofNat 64 (s.rf (.port p .rxdly) 0 16) ∧ r.arrived = p ∧
        r.done = ((s.advance tm.sof).advance tm.done).raw ∧ r.space = (s.port p).nextSpace) ∧ (t.port p).rec_ = recDown (s.port p).rec_ ∧ (t.port p).tec = (s.port p).tec ∧ t.tarn = s.tarn ∧ t.flt = s.flt) ∧
  (∀ s p f tm, s.otherFamily p = false → s.liveGroup p = none → s.hears p f = true → (s.port p).state = .isolated → (s.port p).fifo.length < 4 →
    Does (.frameReceived p f tm p) s fun t => (∃ r, (t.port p).fifo = (s.port p).fifo ++ [r] ∧ r.frame = f) ∧ t.rxq = s.rxq) ∧
  (∀ s p f tm q k, s.otherFamily p = false → s.liveGroup p = some k →
      ((s.group k).branches[(fin 16 (s.branchNo k (s.arrivedOn k q)) : Fin 16)]).ignored = true →
    Does (.frameReceived p f tm q) s fun t => t = s)

/-- The oldest staged frame of a domain is taken from the queue. With no element that matches and no default rule it is counted and goes nowhere; an
element of the port's list of one with action RING puts it, with its receive header and its stamp, behind the empty ring that it names, and sets the
bit of the port where it is high-priority. A frame whose wait for buffers ends is dropped and counted by its ring. Rests on R156, R157, R158, R160,
R161, R86. -/
def Obligations.FilterEvaluation : Prop :=
  (∀ s d p f, s.rxq.find? (fun e => s.portOwner e.1 == d) = some (p, f) → s.otherFamily p = false → TablesOk s →
      (∀ i ∈ s.listOf p, ¬(i < (s.entry d).fltCount ∧ elMatches (Tbl.get 0 s.flt ((s.entry d).fltBase + i)) f.frame = true)) → s.rb (.fltPort p) 32 = false →
    Does (.filterEval d) s fun t => t.rxq = s.rxq.erase (p, f) ∧
      Tbl.get 0 t.counts (64 * s.block p + 0x28) = Tbl.get 0 s.counts (64 * s.block p + 0x28) + 1 ∧ t.rings = s.rings ∧ t.objs = s.objs ∧ t.tarn = s.tarn ∧ SameRegs s t) ∧
  (∀ s d p f i (n : RingNo), s.rxq.find? (fun e => s.portOwner e.1 == d) = some (p, f) → s.otherFamily p = false → TablesOk s → s.listOf p = [i] →
      i < (s.entry d).fltCount → elMatches (Tbl.get 0 s.flt ((s.entry d).fltBase + i)) f.frame = true → elAction (Tbl.get 0 s.flt ((s.entry d).fltBase + i)) = 1 →
      elSeal (Tbl.get 0 s.flt ((s.entry d).fltBase + i)) = false → elMore (Tbl.get 0 s.flt ((s.entry d).fltBase + i)) = false →
      s.ringCond d (elTarget (Tbl.get 0 s.flt ((s.entry d).fltBase + i))) = some n → (s.ring (s.dring d n)).frames = [] → (s.ring (s.dring d n)).posted = [] →
      s.bufWait d n ≠ 0 →
    Does (.filterEval d) s fun t => t.rxq = s.rxq.erase (p, f) ∧ (∃ w, (t.ring (s.dring d n)).frames = [w] ∧ w.bytes = rxHeader f.frame false 0 ++ f.frame.data ∧
        w.stamp = some (s.short f.sof) ∧ w.port = BitVec.ofNat 8 f.arrived.val ∧ w.block = p.val ∧ w.space = f.space) ∧
      (elHipri (Tbl.get 0 s.flt ((s.entry d).fltBase + i)) = true → t.rb (.fn d .fltHipri) p.val = true) ∧ t.objs = s.objs ∧ t.tarn = s.tarn) ∧
  (∀ s d n w, (s.ring (s.dring d n)).frames = [w] → w.taken = [] → TablesOk s →
    Does (.bufWaitExpiry d n) s fun t => (t.ring (s.dring d n)).frames = [] ∧ (t.ring (s.dring d n)).drops = (s.ring (s.dring d n)).drops + 1 ∧
      SameRegs s t ∧ t.objs = s.objs)

/-- A low level that fell while the port slept and has lasted WFILT takes a sleeping port that is woken by edges to STOPPED, or, with AUTOSTART and
good checks, on to STARTUP or TEST; one that was low before, or is shorter, does nothing; a wake frame that matches takes one that is woken by frames
to STOPPED. A port that takes part joins its idle bus. The coil of an in-line pair is driven where it may be inserted, its travel ends after the time
of COL_TRAVEL, and the insertion sets the event bit. No other port and no other pair changes. Rests on R125, R130, R134. -/
def Obligations.WakeJoinAndPairs : Prop :=
  (∀ s p low, (s.port p).state = .sleep → (s.port p).wakeArmed = true → s.rf (.port p .sleep) 0 2 = 1 → 160 * s.rf (.port p .sleep) 4 10 ≤ low →
      s.rb (.port p .sleep) 2 = false →
    Does (.wakeEdge ⟨p, true, low⟩) s fun t => (t.port p).state = .stopped ∧ (t.port p).wakeArmed = false ∧ t.rb (.port p .evt) 3 = true ∧ t.rb (.port p .evt) 0 = true ∧
      OtherPorts s t p ∧ OtherRegs s t [.port p .evt]) ∧
  (∀ s p low, (s.port p).state = .sleep → (s.port p).wakeArmed = true → s.rf (.port p .sleep) 0 2 = 1 → 160 * s.rf (.port p .sleep) 4 10 ≤ low →
      s.rb (.port p .sleep) 2 = true → s.groupOf p = none → s.startCode p = 0 → (s.spur.attached[p]).isSome = true → (s.port p).holdPending = none →
    Does (.wakeEdge ⟨p, true, low⟩) s fun t => (t.port p).state = (if s.testMode p = 0 then PState.startup else .test) ∧ (t.port p).tec = 0 ∧ t.rb (.port p .evt) 3 = true ∧
      OtherPorts s t p ∧ OtherRegs s t [.port p .evt]) ∧
  (∀ s p fell low, fell = false ∨ low < 160 * s.rf (.port p .sleep) 4 10 ∨ (s.port p).wakeArmed = false → Does (.wakeEdge ⟨p, fell, low⟩) s fun t => t = s) ∧
  (∀ s p f, s.otherFamily p = false → (s.port p).state = .sleep → (s.port p).wakeArmed = true → s.rf (.port p .sleep) 0 2 = 2 → s.tmu.reflock = true → s.wakeMatches p f = true →
      s.rb (.port p .sleep) 2 = false →
    Does (.wakeFrame p f) s fun t => (t.port p).state = .stopped ∧ t.rb (.port p .evt) 3 = true ∧ OtherPorts s t p ∧ OtherRegs s t [.port p .evt]) ∧
  (∀ s p, takesPart (s.port p) = true → s.silentMember p = false → s.liveGroup p = none → s.underTest p = false →
    Does (.busIntegrated p) s fun t => t.port p = { s.port p with joined := true, busIdle := true, integ := false } ∧ OtherPorts s t p ∧ t.pairs = s.pairs ∧ SameRegs s t) ∧
  (∀ s k, s.mayInsert k = true → (s.pairs[k]).colOn = false →
    Does (.busIntegrated (evenPort k)) s fun t => t.pairs[k] = { s.pairs[k] with colOn := true, travelAt := s.raw } ∧ (∀ j, j ≠ k → t.pairs[j] = s.pairs[j]) ∧ SameRegs s t) ∧
  (∀ s u k, (s.pairs[k]).colOn = true → (s.pairs[k]).travelDone = false → u = s.waitFrom (s.pairs[k]).travelAt (us (100 * s.colTravel k)) →
    Does (.colTravelEnd k) s fun t => t.pairs[k] = { s.pairs[k] with travelDone := true } ∧ (∀ j, j ≠ k → t.pairs[j] = s.pairs[j]) ∧ SameRegs u t ∧ t.ports = u.ports) ∧
  (∀ s k, (s.pairs[k]).travelDone = true → (s.pairs[k]).inserted = false →
    Does (.pairInserted k) s fun t => t.pairs[k] = { s.pairs[k] with inserted := true } ∧ (∀ j, j ≠ k → t.pairs[j] = s.pairs[j]) ∧
      t.reg (.port (evenPort k) .evt) = setBit (s.reg (.port (evenPort k) .evt)) 0 ∧ OtherRegs s t [.port (evenPort k) .evt] ∧ t.ports = s.ports)

/-- Group commands that reach the group. START of a stopped group whose checks pass makes it JOINING, its anchor STARTUP, or ISOLATED where no engine
serves it, and each branch JOINING or OUT; one that fails stores the code of the check. STOP of one that is not STOPPED is accepted, and takes effect
on an idle joined bus: group and anchor are STOPPED, with REF_LOST on every member where the reference was lost. REJOIN starts the sequence of an
isolated branch; one that names any other branch, or one whose sequence runs, is ignored and sets CMD_REFUSED. RESTART takes a bus-off anchor to
RECOVERY. No other group changes. States R243. -/
def Obligations.GroupCommands : Prop :=
  (∀ s d k, Writes s d (s.grpOwner k) → s.heldBack (s.namesGroup k) = false → (s.group k).state = .stopped → s.groupCode k = 0 →
    Does (.groupStart d k) s fun t => (t.group k).state = .joining ∧ (t.group k).windows = false ∧ (t.group k).promoteCnt = 0 ∧
      (∀ b : Branch, ((t.group k).branches[b]).state = .joining ∨ ((t.group k).branches[b]).state = .out) ∧
      ((s.spur.attached[s.anchor k]).isSome = true → (t.port (s.anchor k)).state = .startup) ∧
      ((s.spur.attached[s.anchor k]).isSome = false → (t.port (s.anchor k)).state = .isolated) ∧
      t.rb (.grp k .evt) 0 = true ∧ ∀ j, j ≠ k → t.group j = s.group j) ∧
  (∀ s d k, Writes s d (s.grpOwner k) → s.heldBack (s.namesGroup k) = false → (s.group k).state = .stopped → s.groupCode k ≠ 0 →
    Does (.groupStart d k) s fun t => t.group k = { s.group k with cfgCode := BitVec.ofNat 8 (s.groupCode k) } ∧ t.rb (.grp k .evt) 5 = true ∧
      (∀ p, (t.port p).state = (s.port p).state) ∧ OtherRegs s t [.grp k .evt]) ∧
  (∀ s d k, Writes s d (s.grpOwner k) → s.heldBack (s.namesGroup k) = false → (s.group k).state ≠ .stopped →
    Does (.groupStop d k) s fun t => t.group k = { s.group k with stopPending := true } ∧ t.port (s.anchor k) = { s.port (s.anchor k) with stopPending := true } ∧
      OtherPorts s t (s.anchor k) ∧ SameRegs s t) ∧
  (∀ s k, (s.group k).state ≠ .stopped → s.joinedIdle k = true → (s.group k).stopPending = true ∨ (s.group k).refStop = true →
    Does (.groupStopEffect k) s fun t => (t.group k).state = .stopped ∧ (t.group k).leader = 15 ∧ (t.group k).frame = none ∧ (t.group k).stopPending = false ∧
      (t.port (s.anchor k)).state = .stopped ∧ ((s.group k).refStop = true → ∀ p ∈ s.members k, t.rb (.port p .evt) 7 = true) ∧
      t.rb (.grp k .evt) 0 = true ∧ ∀ j, j ≠ k → t.group j = s.group j) ∧
  (∀ s d k (b : Branch), Writes s d (s.grpOwner k) → s.heldBack (s.namesGroup k) = false → (s.group k).state ≠ .stopped → b.val < s.width k →
      (s.branch k b).state = .isolated → (s.branch k b).seqOn = false →
    Does (.groupRejoin d k b) s fun t => t.branch k b = { s.branch k b with seqOn := true, seqAt := s.raw } ∧ (∀ c, c ≠ b → t.branch k c = s.branch k c) ∧
      (t.group k).state = (s.group k).state ∧ t.ports = s.ports ∧ SameRegs s t) ∧
  (∀ s d k, Writes s d (s.grpOwner k) → s.heldBack (s.namesGroup k) = false → (s.group k).state ≠ .stopped →
      (s.port (s.anchor k)).state = .busoff → (s.port (s.anchor k)).boAuto = false →
    Does (.groupRestart d k) s fun t => (t.port (s.anchor k)).state = .recovery ∧ (t.port (s.anchor k)).seqOn = true ∧
      t.rb (.port (s.anchor k) .evt) 0 = true ∧ OtherPorts s t (s.anchor k) ∧ t.groups = s.groups) ∧
  (∀ s d k (b : Branch), Writes s d (s.grpOwner k) → s.heldBack (s.namesGroup k) = false →
      (s.branch k b).state ≠ .isolated ∨ (s.branch k b).seqOn = true →
    Does (.groupRejoin d k b) s fun t => t.groups = s.groups ∧ t.ports = s.ports ∧ t.reg (.grp k .evt) = setBit (s.reg (.grp k .evt)) 6 ∧
      OtherRegs s t [.grp k .evt])

/-- On an idle joined bus a branch whose pair is ready joins; the first one of a JOINING group without a schedule takes it to STARTUP. A stuck branch
is isolated with its cause, and an isolated branch joins again at the end of its sequence with its recent violations forgotten. No other branch
changes. Rests on R235, R239, R241, R242. -/
def Obligations.Branches : Prop :=
  (∀ s k (b : Branch), (s.group k).state ≠ .stopped → (s.group k).state ≠ .joining → b.val < s.width k → (s.branch k b).state = .joining → s.pairReady k b = true →
      s.joinedIdle k = true →
    Does (.branchJoin k b) s fun t => (t.branch k b).state = .joined ∧ (∀ c, c ≠ b → t.branch k c = s.branch k c) ∧ (t.group k).state = (s.group k).state ∧
      t.reg (.grp k .evt) = setBit (s.reg (.grp k .evt)) 0 ∧ t.ports = s.ports ∧ OtherRegs s t [.grp k .evt]) ∧
  (∀ s k (b : Branch), (s.group k).state = .joining → s.traverse k = false → (s.group k).holdPending = none → b.val < s.width k →
      (s.branch k b).state = .joining → s.pairReady k b = true → s.joinedIdle k = true →
    Does (.branchJoin k b) s fun t => (t.branch k b).state = .joined ∧ (t.group k).state = .startup ∧ t.rb (.grp k .evt) 0 = true) ∧
  (∀ s k (b : Branch), (s.group k).state ≠ .stopped → b.val < s.width k → (s.branch k b).state = .joined ∨ (s.branch k b).state = .joining →
    Does (.stuckIsolate k b) s fun t => (t.branch k b).state = .isolated ∧ (t.branch k b).kind = 5 ∧ (t.branch k b).seqOn = earlyPhase (s.group k) ∧
      (∀ c, c ≠ b → t.branch k c = s.branch k c) ∧ t.reg (.grp k .evt) = setBit (setBit (s.reg (.grp k .evt)) 1) 0 ∧ t.ports = s.ports ∧
      OtherRegs s t [.grp k .evt]) ∧
  (∀ s u k (b : Branch), (s.group k).state ≠ .joining → (s.branch k b).state = .isolated → (s.branch k b).seqOn = true → s.joinedIdle k = true →
      u = s.waitFrom (s.branch k b).seqAt (1408 * s.nbt (s.anchor k)) →
    Does (.rejoinSeqEnd k b) s fun t => (t.branch k b).state = .joined ∧ (t.branch k b).recent = [] ∧ (t.branch k b).seqOn = false ∧
      (∀ c, c ≠ b → t.branch k c = s.branch k c) ∧ t.ports = u.ports ∧ OtherRegs u t [.grp k .evt])

/-- On an idle joined bus a star without a schedule relays a start of frame onto every other branch that is joined or isolated, and so it does with
every level of a joined branch while a frame is in progress. Under a schedule whose windows are on, a start outside every window makes the branch
ignored and counts a violation of kind 1. A frame that stands when its window closes is cut: an error flag on every joined branch, the branch ignored,
and the count to promotion at 0. Rests on R231, R240, R256, R257, R258, R259. -/
def Obligations.StarWindows : Prop :=
  (∀ s k b sof ident ide dom, (s.group k).state ≠ .stopped → (s.branch k b).state = .joined → s.joinedIdle k = true → s.traverse k = false →
    Does (.starSof k b sof ident ide dom) s fun t => Sends s t (.relay k b (joinedMask ((s.drivenBranches k).filter (fun j => decide (j ≠ b))))) ∧
      (∃ f, (t.group k).frame = some f ∧ f.branch = b) ∧ (t.branch k b).state = .joined ∧ (t.branch k b).total = (s.branch k b).total ∧ SameRegs (s.advance sof) t) ∧
  (∀ s k b sof ident ide dom, (s.group k).state ≠ .stopped → (s.branch k b).state = .joined → s.joinedIdle k = true → s.traverse k = true → scheduled (s.group k) = true →
      (s.group k).windows = true → s.windowOf k (sof - BitVec.ofNat 64 (s.rf (.port (s.anchor k) .rxdly) 0 16)) = none →
    Does (.starSof k b sof ident ide dom) s fun t => (t.branch k b).ignored = true ∧ (t.branch k b).kind = 1 ∧
      (t.branch k b).total = (s.branch k b).total + 1 ∧ t.rb (.grp k .evt) 2 = true) ∧
  (∀ s k f c, (s.group k).frame = some f → f.close = some c → scheduled (s.group k) = true →
    Does (.windowCloseCut k) s fun t => (t.group k).frame = none ∧ (t.group k).promoteCnt = 0 ∧ (t.branch k f.branch).ignored = true ∧
      ∀ j ∈ s.joinedBranches k, Sends s t (.errorFlag ((s.members k).getD j.val 0) true)) ∧
  (∀ s k b sof ident ide dom, (s.group k).state ≠ .stopped → (s.branch k b).state = .joined → s.joinedIdle k = false →
    Does (.starSof k b sof ident ide dom) s fun t => Sends s t (.relay k b (joinedMask ((s.drivenBranches k).filter (fun j => decide (j ≠ b))))) ∧
      (∃ f, (t.group k).frame = some f ∧ ((s.group k).frame = none → f.branch = b)) ∧ (t.branch k b) = s.branch k b ∧ t.ports = s.ports ∧ SameRegs s t)

/-- A cycle in which a reference was accepted, on a device that does not lead, turns at its end by the device time: the count goes on and the windows
are on. Where the misses reach REF_LOSS the group goes to COLDSTART, with its event bit. A listening master plans its cold frame for the next point of
the grid once its time is over; at the end of the back-off, and at the backup time-out, the device's reference frame goes out on the ports of the node
whose pin is not held recessive, where the node may start then (log 26). Cycles run on T without its steps (log 19). Rests on R245, R254, R267, R269.
-/
def Obligations.TraverseCycles : Prop :=
  (∀ s u k, s.traverse k = true → scheduled (s.group k) = true → (s.group k).accepted = true → s.leads k = false →
      u = s.advance (s.rawOfFlow (after (s.flow (s.group k).cycleAt) (s.cycleLen k))) →
    Does (.cycleStart k) s fun t => (t.group k).cycleAt = s.rawOfFlow (after (s.flow (s.group k).cycleAt) (s.cycleLen k)) ∧ (t.group k).cycleCnt = (s.group k).cycleCnt + 1 ∧
      (t.group k).windows = true ∧ (t.group k).accepted = false ∧ (t.group k).misses = (s.group k).misses ∧ (t.group k).state = (s.group k).state ∧
      SameRegs u t ∧ t.ports = u.ports ∧ ∀ j, j ≠ k → t.group j = s.group j) ∧
  (∀ s k, s.traverse k = true → (s.group k).state = .startup ∨ (s.group k).state = .normal → (s.group k).accepted = false →
      max 1 (s.rf (.grp k .cfg) 28 4) ≤ (s.group k).misses + 1 →
    Does (.cycleStart k) s fun t => (t.group k).state = .coldstart ∧ (t.group k).leader = 15 ∧ (t.group k).windows = false ∧ (t.group k).misses = (s.group k).misses + 1 ∧
      t.rb (.grp k .evt) 3 = true ∧ t.rb (.grp k .evt) 0 = true ∧ ∀ j, j ≠ k → t.group j = s.group j) ∧
  (∀ s u k, s.traverse k = true → gPhase (s.group k) = .coldstart → (s.group k).role = .listening → s.devMaster k = true →
      u = s.advance (after (s.group k).listenAt (16 * s.rf (.grp k .listen) 0 30)) →
    Does (.listenTimeout k) s fun t => (t.group k).role = .sendDue ∧ (t.group k).refSend = some true ∧ (t.group k).gridDue = some (u.gridNext k) ∧
      (t.group k).state = (s.group k).state ∧ t.ports = u.ports ∧ SameRegs u t) ∧
  (∀ s k, s.traverse k = true → gPhase (s.group k) = .coldstart → (s.group k).role = .backoff → s.devMaster k = false →
      s.refMayStart (s.anchor k) = true → (∀ c ∈ (s.port (s.anchor k)).cands, c.ending = none) →
    Does (.coldstartBackoffEnd k) s fun t => (t.group k).role = .sendDue ∧ (t.group k).cycleCnt = 0 ∧ (t.group k).refSend = none ∧
      ∀ j ∈ s.nodePorts (s.anchor k), s.txdRecessive j = false → Sends s t (.frame j (s.refFrame k true 0))) ∧
  (∀ s k, s.traverse k = true → scheduled (s.group k) = true → (s.group k).role = .integrated → (s.group k).refSof = false → s.refMayStart (s.anchor k) = true →
    Does (.refBackupTimeout k) s fun t => (t.group k).refSof = true ∧
      ∀ j ∈ s.nodePorts (s.anchor k), s.txdRecessive j = false → Sends s t (.frame j (s.refFrame k false (s.group k).cycleCnt)))

/-- The loss of a bank's supply stops every port of the bank outside groups that is not halted, with BANK_LOST; its return is sensed. The loss of
REF25 leaves the ports running on holdover, and its return ends that, with an event where it had been lost; beyond holdover a port stops at once in
BUSOFF and in ISOLATED, with REF_LOST, and any other has its stop pending until its bus is idle (where no group is live). Rests on R101, R103, R106,
R274. -/
def Obligations.SuppliesAndReference : Prop :=
  (∀ s b, Does (.bankSupplyLoss b) s fun t => t.dev.banks[b] = 0 ∧ (∀ c, c ≠ b → t.dev.banks[c] = s.dev.banks[c]) ∧
      ∀ p, bankOf p = b → (∀ k, s.rb (.grp k .members) p.val = false) → halted (s.port p).state = false → (t.port p).state = .stopped ∧ t.rb (.port p .evt) 9 = true) ∧
  (∀ s b v, Does (.bankSupplyReturn b v) s fun t => t.dev.banks[b] = (if v then 2 else 1) ∧ (∀ c, c ≠ b → t.dev.banks[c] = s.dev.banks[c]) ∧ t.ports = s.ports ∧
      SameRegs s t) ∧
  (∀ s, s.tmu.reflock = true → Does .ref25Loss s fun t => t.tmu = { s.tmu with reflock := false, portHoldover := true, lostAt := s.raw, refGone := true } ∧
      t.reg (.tmu .evt) = setBit (s.reg (.tmu .evt)) 4 ∧ t.ports = s.ports ∧ OtherRegs s t [.tmu .evt]) ∧
  (∀ s, s.tmu.reflock = false → Does .ref25Lock s fun t => t.tmu = { s.tmu with reflock := true, started := true, portHoldover := false, refGone := false } ∧
      t.reg (.tmu .evt) = (if s.tmu.refGone then setBit (s.reg (.tmu .evt)) 5 else s.reg (.tmu .evt)) ∧ t.ports = s.ports ∧ OtherRegs s t [.tmu .evt]) ∧
  (∀ s, s.tmu.reflock = false → s.tmu.portHoldover = true → (∀ k, (s.group k).state = .stopped) →
    Does .refHoldoverExpiry s fun t => t.tmu.portHoldover = false ∧ ∀ p, halted (s.port p).state = false →
      if (s.port p).state = .busoff ∨ (s.port p).state = .isolated then
        (t.port p).state = .stopped ∧ t.rb (.port p .evt) 7 = true
      else t.port p = { s.port p with refStop := true })

/-- With the servo off and not the firmware's, a write of RATE takes effect without a jump of T, and a write of TMU_STEP adds to OFS, counts, and is
announced to every active domain; by halves it acts with the high half. With EN 1 a write of another RATE changes nothing. A read of a low half
latches the high one. A pass of T over the next EPOCH is counted. Rests on R276, R278, R280, R282. -/
def Obligations.TimeRegisters : Prop :=
  (∀ s d v, Writes s d 0 → s.rb (.tmu .servo) 0 = false → s.rb (.tmu .servo) 6 = false → s.tmu.par.start ≤ s.raw →
    Does (.tmuRateWrite d v) s fun t => t.tmu.par.rate = v ∧ t.tmu.par.anchor = s.raw ∧ t.raw = s.raw ∧ t.now = s.now ∧ SameRegs s t ∧ Logged s t []) ∧
  (∀ s d v, Writes s d 0 → s.rb (.tmu .servo) 0 = true → v ≠ s.tmu.par.rate →
    Does (.tmuRateWrite d v) s fun t => t.tmu = s.tmu ∧ SameRegs s t) ∧
  (∀ s d v, Writes s d 0 → s.rb (.tmu .servo) 0 = false → s.rb (.tmu .servo) 6 = false →
    Does (.tmuStep d .whole v) s fun t => t.tmu.par.ofs = s.tmu.par.ofs + v ∧ t.tmu.par.rate = s.tmu.par.rate ∧ t.tmu.stepCnt = s.tmu.stepCnt + 1 ∧ t.raw = s.raw ∧
      t.rb (.tmu .evt) 0 = true ∧ ∀ e, s.active e = true → t.rb (.fn e .evcDstat) 1 = true) ∧
  (∀ s d v, Writes s d 0 → s.rb (.tmu .servo) 0 = false → s.rb (.tmu .servo) 6 = false →
    Does (.tmuStep d .low v) s fun t => t.tmu = { s.tmu with stepLow := some (v.setWidth 32) } ∧ SameRegs s t) ∧
  (∀ s d v w, Writes s d 0 → s.rb (.tmu .servo) 0 = false → s.rb (.tmu .servo) 6 = false → s.tmu.stepLow = some w →
    Does (.tmuStep d .high v) s fun t => t.tmu.par.ofs = s.tmu.par.ofs + ((v.setWidth 32 : Word) ++ w) ∧ t.tmu.stepLow = none ∧
      t.tmu.stepCnt = s.tmu.stepCnt + 1) ∧
  (∀ s d r, s.serves = true → s.active d = true →
    Does (.tmuLatchRead d r) s fun t => (t.func d).latch[timeIx r] = (s.timeReg r >>> 32).setWidth 32 ∧ t.tmu = s.tmu ∧ SameRegs s t) ∧
  (∀ s, s.tmu.started = true → Does .epochPass s fun t => t.tmu.epochs = s.tmu.epochs + 1 ∧ t.tmu.par = s.tmu.par)

/-- The arithmetic of the loop is the model's (log 28). EN 1 starts the servo free-running with no sample and no reference, EN 0 with FW 0 turns it
off. A sample that is stale is only counted; one that is used in the free run, within STEP_THR, makes the servo LOCKING. Without samples a locking or
locked servo goes to HOLDOVER at the rate of its integrator (log 61). OFFSET_SAMPLE of a domain that may feed time completes DONE and is queued where
the servo is on and steered by that domain's stream, stream 0 of the firmware excepted. Rests on R289, R291, R293, R294. -/
def Obligations.ServoRuns : Prop :=
  (∀ s d v, Writes s d 0 → v.getLsbD 0 = true → s.rb (.tmu .servo) 0 = false → s.rb (.tmu .servo) 6 = false →
    Does (.servoEnable d v) s fun t => t.tmu.servo = .freerun ∧ t.rb (.tmu .servo) 0 = true ∧ t.tmu.ref = none ∧ t.tmu.lockCnt = s.tmu.lockCnt ∧
      t.tmu.lastAt = s.tmu.lastAt ∧ t.tmu.samples = [] ∧ t.tmu.par = s.tmu.par) ∧
  (∀ s d v, Writes s d 0 → v.getLsbD 0 = false → v.getLsbD 6 = false → s.rb (.tmu .servo) 0 = true → s.rb (.tmu .servo) 6 = false →
    Does (.servoEnable d v) s fun t => t.tmu.servo = .off ∧ t.rb (.tmu .servo) 0 = false ∧ (s.tmu.servo = .locked → t.rb (.tmu .evt) 2 = true) ∧
      t.tmu.par = s.tmu.par) ∧
  (∀ s a e r l, s.tmu.samples = (a, e, r) :: l → s.tmu.servo ≠ .off → s.staleSample a r = true →
    Does .servoSample s fun t => t.tmu = { s.tmu with samples := l, stale := s.tmu.stale + 1 } ∧ SameRegs s t) ∧
  (∀ s a e r l, s.tmu.samples = (a, e, r) :: l → s.tmu.servo = .freerun → s.staleSample a r = false → e.toInt.natAbs < s.stepThr →
    Does .servoSample s fun t => t.tmu.servo = .locking ∧ t.tmu.ref = some a ∧ t.tmu.used = s.tmu.used + 1 ∧ t.tmu.lastOffset = e ∧ t.tmu.par = s.tmu.par ∧
      t.tmu.samples = l ∧ SameRegs s t) ∧
  (∀ s, s.tmu.servo = .locking ∨ s.tmu.servo = .locked →
    Does .servoHoldover s fun t => t.tmu.servo = .holdover ∧ t.tmu.par.rate = rateOfInt s.tmu.integ ∧ t.tmu.ref = none ∧ t.rb (.tmu .evt) 3 = true ∧
      (s.tmu.servo = .locked → t.rb (.tmu .evt) 2 = true) ∧ OtherRegs s t [.tmu .evt]) ∧
  (∀ s d n x, CmdReady s d n x → reservedZero x [(4, 0, 8), (8, 0, 64), (16, 0, 64)] = true → dnum x 4 1 ≤ 3 → (s.entry d).timeFeed = true →
    Does (.offsetSample d n x) s fun t => Answered s t d n x 0x00 0 ∧ SameRegs s t ∧ t.ports = s.ports ∧
      t.tmu.samples = (if s.rf (.tmu .servo) 8 4 = d.val ∧ ¬(dnum x 4 1 = 0 ∧ s.rb (.tmu .servo) 6 = true) ∧ s.rb (.tmu .servo) 0 = true ∧
          s.rf (.tmu .servo) 1 3 = dnum x 4 1 then s.tmu.samples ++ [(BitVec.ofNat 64 (dnum x 16 8), BitVec.ofNat 64 (dnum x 8 8), none)] else s.tmu.samples))

/-- A PPS edge of the chosen direction, 500 ms or more after the last, is stamped with its delay taken off. A selected edge of an event input that is
held long enough makes the next capture entry, with the count of those lost, and is counted as lost where the buffer is full. A pulse output whose
fields are good starts at 0 pulses, is stopped, ends a pulse, and drives the next one at its instant less its delay. Rests on R295, R297, R298, R299,
R302. -/
def Obligations.PulsesAndEdges : Prop :=
  (∀ s i raw fall, s.rb (.ppsCfg i) 0 = true → s.rb (.ppsCfg i) 1 = fall → (s.tmu.ppsRaw[i]).all (fun r => decide (r.toNat + ms 500 ≤ raw.toNat)) = true →
    Does (.ppsEdge i raw fall) s fun t => t.tmu.ppsRaw[i] = some raw ∧ t.tmu.ppsStamp[i] = s.timeAt (raw - BitVec.ofNat 64 (16 * s.rf (.ppsCfg i) 16 16)) ∧
      t.tmu.par = s.tmu.par) ∧
  (∀ s i raw rise held, s.rb (.evtinCfg i) 0 = true → edgeSelected (s.rf (.evtinCfg i) 1 2) rise = true → 10 * min 100 (s.rf (.evtinCfg i) 4 10) ≤ held →
      ((s.tmu.captures[i]).lastEdge).all (fun r => decide (r.toNat + ns 40 ≤ raw.toNat)) = true → ((s.tmu.captures[i]).prod - s.captureCons i).toNat ≠ 16 →
    Does (.evtInEdge i raw rise held) s fun t => (t.tmu.captures[i]).prod = (s.tmu.captures[i]).prod + 1 ∧ (t.tmu.captures[i]).lost = 0 ∧
      (t.tmu.captures[i]).entries[(fin 16 (s.tmu.captures[i]).prod.toNat : Fin 16)] =
        captureEntry (s.timeAt (raw - BitVec.ofNat 64 (16 * s.rf (.evtinCfg i) 20 12))) rise (s.tmu.captures[i]).lost ∧
      ∀ j, j ≠ i → t.tmu.captures[j] = s.tmu.captures[j]) ∧
  (∀ s i raw rise held, s.rb (.evtinCfg i) 0 = true → edgeSelected (s.rf (.evtinCfg i) 1 2) rise = true → 10 * min 100 (s.rf (.evtinCfg i) 4 10) ≤ held →
      ((s.tmu.captures[i]).lastEdge).all (fun r => decide (r.toNat + ns 40 ≤ raw.toNat)) = true → ((s.tmu.captures[i]).prod - s.captureCons i).toNat = 16 →
    Does (.evtInEdge i raw rise held) s fun t => (t.tmu.captures[i]).prod = (s.tmu.captures[i]).prod ∧ (t.tmu.captures[i]).entries = (s.tmu.captures[i]).entries ∧
      (t.tmu.captures[i]).lost = satHalf (s.tmu.captures[i]).lost) ∧
  (∀ s d i v, Writes s d 0 → v.getLsbD 4 = true → s.rb (.out i .cfg) 4 = false →
      (s.setReg (.out i .cfg) (s.fieldWrite d (.out i .cfg) mask32 (v.setWidth 64) (fun f => f.lo == 4)).1).pulseBad i = false →
    Does (.evtoutEnable d i v) s fun t => (t.tmu.pulses[i]).running = true ∧ (t.tmu.pulses[i]).emitted = 0 ∧ t.rb (.out i .cfg) 4 = true ∧
      (∀ j, j ≠ i → t.tmu.pulses[j] = s.tmu.pulses[j]) ∧ OtherRegs s t [.out i .cfg] ∧ t.tmu.par = s.tmu.par) ∧
  (∀ s d i v, Writes s d 0 → v.getLsbD 4 = false → s.rb (.out i .cfg) 4 = true →
    Does (.evtoutEnable d i v) s fun t => (t.tmu.pulses[i]).running = false ∧ (t.tmu.pulses[i]).ends = (s.tmu.pulses[i]).ends ∧ t.rb (.out i .cfg) 4 = false ∧
      OtherRegs s t [.out i .cfg]) ∧
  (∀ s i r, (s.tmu.pulses[i]).ends = some r → s.rf (.out i .count) 0 32 = 0 →
    Does (.pulseEdge i) s fun t => Sends s t (.pulse i r) ∧ (t.tmu.pulses[i]).ends = none ∧ (t.tmu.pulses[i]).running = (s.tmu.pulses[i]).running ∧
      (t.tmu.pulses[i]).emitted = (s.tmu.pulses[i]).emitted) ∧
  (∀ s i, (s.tmu.pulses[i]).ends = none → (s.tmu.pulses[i]).running = true → s.pulsing i = true →
    Does (.pulseEdge i) s fun t => Sends s t (.pulse i (s.rawOf (BitVec.ofNat 64 (s.pulseAt i (s.tmu.pulses[i]).next) - BitVec.ofNat 64 (s.rf (.out i .cfg) 16 16)))) ∧
      (t.tmu.pulses[i]).emitted = (s.tmu.pulses[i]).emitted + 1 ∧ (t.tmu.pulses[i]).last = some (s.tmu.pulses[i]).next ∧
      (t.tmu.pulses[i]).next = (s.tmu.pulses[i]).next + 1)

/-- The passages of a link: EN takes it to ALIGNING, and back to DOWN with its key given up; aligned, with its switch at rest and REF25 locked, it
grants its credits and begins HELLO, or with its own ENC_REQ enters KEYING; without REF25 nothing aligns; the third HELLO of one neighbour that asks
for no encryption, or on a link that is encrypted, makes it UP; a HELLO with ENC_REQ on a link in clear takes it to KEYING; a fault and the lack of
HELLOs take it back to ALIGNING without its key. It sends its HELLO on its timer, and key agreement messages while KEYING; a good answer gives the
link its key in the lowest free slot (the model's choice: log 40), a bad one sets LINK_AUTH. The timers act at the end of their time (log 61). A
switch ends its travel. No other link changes its state. Rests on R352, R353, R376, R383, R384, R487. -/
def Obligations.RidgelineLinks : Prop :=
  (∀ s d k v, Writes s d 0 → v.getLsbD 0 = true → s.rb (.rl k .cfg) 0 = false →
    Does (.rlEnable d k v) s fun t => (t.link k).state = .aligning ∧ t.rb (.rl k .cfg) 0 = true ∧ (∀ j, j ≠ k → (t.link j).state = (s.link j).state) ∧
      t.ports = s.ports ∧ OtherRegs s t [.rl k .cfg]) ∧
  (∀ s d k v, Writes s d 0 → v.getLsbD 0 = false → s.rb (.rl k .cfg) 0 = true →
    Does (.rlEnable d k v) s fun t => (t.link k).state = .down ∧ (t.link k).key = none ∧ t.rb (.rl k .cfg) 0 = false ∧ t.rb (.fab .evt) 1 = true ∧
      (∀ j, j ≠ k → (t.link j).state = (s.link j).state) ∧ t.ports = s.ports) ∧
  (∀ s k, (s.link k).state = .aligning → (s.link k).travel = false → s.tmu.reflock = true → s.rb (.rl k .cfg) 1 = false →
    Does (.rlAligned k) s fun t => (t.link k).state = .hello ∧ (t.link k).helloCount = 0 ∧ (∀ c : Fin 3, (t.link k).granted[c] = 0 ∧ (t.link k).usedCr[c] = 0) ∧
      (∀ c : Fin 3, Sends s t (.credit k (BitVec.ofNat 2 c.val) (BitVec.ofNat 12 (bufCredits c.val)))) ∧ (∀ j, j ≠ k → t.link j = s.link j) ∧ SameRegs s t) ∧
  (∀ s k, (s.link k).state = .aligning → (s.link k).travel = false → s.tmu.reflock = true → s.rb (.rl k .cfg) 1 = true →
    Does (.rlAligned k) s fun t => (t.link k).state = .keying ∧ (t.link k).keyxSent = some (s.free, s.keyxBody s.free) ∧ (∀ j, j ≠ k → t.link j = s.link j)) ∧
  (∀ s k, s.tmu.reflock = false → Does (.rlAligned k) s fun t => t = s) ∧
  (∀ s k cause, (s.link k).state ≠ .down →
    Does (.rlFault k cause) s fun t => (t.link k).state = .aligning ∧ (t.link k).key = none ∧ (t.link k).helloCount = 0 ∧ t.rb (.fab .evt) 1 = true ∧
      (∀ j, j ≠ k → (t.link j).state = (s.link j).state) ∧ t.ports = s.ports) ∧
  (∀ s k, (s.link k).state ≠ .down →
    Does (.helloTimeout k) s fun t => (t.link k).state = .aligning ∧ (t.link k).key = none ∧ t.rb (.fab .evt) 1 = true ∧
      (∀ j, j ≠ k → (t.link j).state = (s.link j).state) ∧ t.ports = (s.waitFrom (s.link k).heardAt (ms 30)).ports) ∧
  (∀ s u k, rlReceives (s.link k) = true → u = s.waitFrom (s.link k).helloAt (ms 9) →
    Does (.helloTimer k) s fun t => (t.link k).helloSeq = (s.link k).helloSeq + 1 ∧ (t.link k).helloAt = u.raw ∧
      (∃ f, (t.link k).queue = (s.link k).queue ++ [(none, f)] ∧ f.kind = kHello ∧
        f.ttl = 1 ∧ f.seqNo = (s.link k).helloSeq + 1 ∧ f.payload = u.helloPayload k) ∧ (∀ j, j ≠ k → t.link j = s.link j) ∧ SameRegs u t) ∧
  (∀ s k a f, a.frame = f → f.kind = kHello → RlTakes s k a → (s.link k).state = .hello → (s.link k).helloCount = 2 →
      (s.link k).nbr.serial = (neighbourOf f.payload).serial → (neighbourOf f.payload).encReq = false ∨ (s.link k).encOn = true →
    Does (.hello k a) s fun t => (t.link k).state = .up ∧ (t.link k).wrapped = false ∧ (t.link k).nbr = neighbourOf f.payload ∧ t.rb (.fab .evt) 1 = true ∧
      (∀ j, j ≠ k → (t.link j).state = (s.link j).state) ∧ t.ports = s.ports) ∧
  (∀ s k a f, a.frame = f → f.kind = kHello → RlTakes s k a → (s.link k).state = .hello → (s.link k).encOn = false → (neighbourOf f.payload).encReq = true →
      (s.link k).helloCount = 0 ∨ (s.link k).nbr.serial = (neighbourOf f.payload).serial →
    Does (.hello k a) s fun t => (t.link k).state = .keying ∧ (t.link k).nbr = neighbourOf f.payload ∧ (∀ j, j ≠ k → t.link j = s.link j) ∧ t.ports = s.ports ∧
      SameRegs s t) ∧
  (∀ s k a f draw mine h, a.frame = f → (s.link k).state = .keying → f.kind = kMgmt → f.payload.headD 0 = 0x10 → RlTakes s k a →
      (s.link k).keyxSent = some (draw, mine) → s.freeHandle 0 = some h → TablesOk s →
    Does (.keyx k a) s fun t =>
      if s.keyxOk f.payload then (t.link k).state = .hello ∧ (t.link k).encOn = true ∧ (t.link k).key = some h ∧
        t.key h = some { dom := 0, sealing := false, key := s.linkKey draw mine f.payload } ∧ ∀ i, i ≠ h → t.key i = s.key i
      else t.rb (.fab .evt) 5 = true ∧ (t.link k).state = .keying ∧ t.belay = s.belay) ∧
  (∀ s u k, (s.link k).state = .keying → u = s.waitFrom (s.link k).keyxAt (ms 100) →
    Does (.keyxTimer k) s fun t => (t.link k).keyxSent = some (u.free, u.keyxBody u.free) ∧ (t.link k).state = .keying ∧ SameRegs u t ∧
      ∃ f, (t.link k).queue = (s.link k).queue ++ [(none, f)] ∧ f.kind = kMgmt ∧
        f.payload = u.keyxBody u.free ++ beBytes 96 (Config.dikSign (u.keyxBody u.free)).toNat) ∧
  (∀ s u k, (s.link k).travel = true → u = s.waitFrom (s.link k).travelAt (ms s.colfTravel) →
    Does (.colfTravelEnd k) s fun t => t.link k = { s.link k with travel := false } ∧ (∀ j, j ≠ k → t.link j = s.link j) ∧ SameRegs u t)

/-- A link that receives takes the peer's count of a credit report and reports its own counts of three classes on its timer. A discarded frame is
counted by its cause and its credits return; one discarded after its header whose cut-through copy had begun ends that copy by an error block (log
64). A frame of this device that starts on a link without encryption uses its credits and carries its stamp. Rests on R344, R345, R346, R349, R350. -/
def Obligations.RidgelineCredits : Prop :=
  (∀ s k cls count, rlReceives (s.link k) = true → cls ≠ 3 →
    Does (.creditReport k cls count) s fun t => t.link k = { s.link k with granted := (s.link k).granted.set (clsIx cls) count.toNat } ∧
      (∀ j, j ≠ k → t.link j = s.link j) ∧ SameRegs s t) ∧
  (∀ s k, rlReceives (s.link k) = true →
    Does (.creditReportTimer k) s fun t => (∀ c : Fin 3, Sends s t (.credit k (BitVec.ofNat 2 c.val) (BitVec.ofNat 12 (s.link k).returned[c]))) ∧
      t.links = s.links ∧ SameRegs s t) ∧
  (∀ s k why cls len head, rlReceives (s.link k) = true → why ≠ .auth ∨ (s.link k).encOn = true → TablesOk s →
    Does (.rlFrameDiscard k why cls ⟨len, head⟩) s fun t =>
      Tbl.get 0 t.counts (64 * (37 + k.val) + (discardOff why - 0x40) / 4) = Tbl.get 0 s.counts (64 * (37 + k.val) + (discardOff why - 0x40) / 4) + 1 ∧
      (t.link k).returned[clsIx cls] = ((s.link k).returned[clsIx cls] + rlCredits len (s.link k).encOn) % 4096 ∧
      (t.link k).state = (s.link k).state ∧ (head = none → ∀ j, j ≠ k → t.link j = s.link j) ∧ SameRegs s t ∧
      ∀ f e, head = some f → afterHeader why = true → rlKnown f = true → f.ttl ≠ 0 → e ∈ s.copiesOf k f → s.linkFree e.1 = true → rlFits (s.link e.1) e.2 = true →
        (s.link e.1).encOn = false → (∃ g, Sends s t (.ridgeError e.1 g) ∧ g.kind = e.2.kind ∧ g.dest = e.2.dest ∧ g.ttl = e.2.ttl) ∧
          ∃ w, (t.link e.1).wire = some w ∧ (t.link e.1).stomped = true) ∧
  (∀ s k raw f, rlReceives (s.link k) = true → (s.link k).wire = none → readyFrame (s.link k) = some (none, f) → (s.link k).encOn = false →
    Does (.linkTxStart k raw) s fun t => Sends s t (.ridge k (stampFrame f (s.timeAt (raw + BitVec.ofNat 64 (248 + k.val))))) ∧
      (t.link k).queue = dropFirst (fun e => e == (none, f)) (s.link k).queue ∧
      (t.link k).usedCr[clsIx f.cls] = ((s.link k).usedCr[clsIx f.cls] + rlCredits (stampFrame f (s.timeAt (raw + BitVec.ofNat 64 (248 + k.val)))).payload.length false) % 4096 ∧
      (t.link k).wire.isSome = true ∧ ∀ j, j ≠ k → t.link j = s.link j)

/-- A TOPO of another device that has not been seen is held and goes on, with TTL less 1, on every other link that is UP; one seen before goes no
further and refreshes the payload that it repeats. The timer sends this device's own, and the expiry forgets a device. A device without an address
asks for one on every link that is UP; the allocator, while a core has the routing duty, gives an address to the serial that asks (log 37); a device
takes the one assigned to it unless a lower serial holds it. The recomputation sets the links of every valid route. The timer acts at the end of its
time (log 61). Rests on R355, R356, R359, R360, R365, R411. -/
def Obligations.TopologyAndAddresses : Prop :=
  (∀ s k a f, a.frame = f → f.kind = kTopo → RlTakes s k a → BitVec.ofNat 64 (ofBe (slice f.payload 0 8)) ≠ s.serial →
      s.seen (s.floodSerial f) f.seqNo false = false →
    Does (.topo k a) s fun t =>
      t.fab.topo = { serial := BitVec.ofNat 64 (ofBe (slice f.payload 0 8)), gen := f.seqNo, payload := slice f.payload 0 64, at_ := s.raw } ::
        s.fab.topo.filter (fun u => u.serial != BitVec.ofNat 64 (ofBe (slice f.payload 0 8))) ∧
      (∀ j, j ≠ k → s.linkUp j = true → (t.link j).queue = (s.link j).queue ++ [(some k, { f with ttl := f.ttl - 1 })]) ∧
      (t.link k).queue = (s.link k).queue ∧ t.ports = s.ports) ∧
  (∀ s k a f, a.frame = f → f.kind = kTopo → RlTakes s k a → s.seen (s.floodSerial f) f.seqNo false = true →
    Does (.topo k a) s fun t => t.fab = { s.fab with topo := s.fab.topo.map (fun u =>
        if u.serial = s.floodSerial f ∧ u.payload = slice f.payload 0 64 then { u with at_ := s.raw } else u) } ∧
      (∀ j, (t.link j).queue = (s.link j).queue) ∧ SameRegs s t) ∧
  (∀ s u k, s.linkUp k = true → u = s.waitFrom s.fab.topoAt (sec 1) →
    Does .topoTimer s fun t => (∃ f, (t.link k).queue = (s.link k).queue ++ [(none, f)] ∧ f.kind = kTopo ∧ f.seqNo = s.fab.gen ∧ f.payload = s.topoPayload) ∧
      t.fab.topo = s.fab.topo ∧ SameRegs u t) ∧
  (∀ s serial, s.fab.topo.any (fun u => u.serial == serial) = true →
    Does (.topoExpiry serial) s fun t => t.fab.topo = s.fab.topo.filter (fun u => u.serial != serial) ∧ t.links = s.links) ∧
  (∀ s, s.fabOn = true → s.rb (.fab .cfg) 1 = true → s.fab.addr = 0 → s.fab.alloc = false →
    Does .addrReqTimer s fun t => t.fab.mgmtSeq = s.fab.mgmtSeq + 1 ∧ t.fab.addr = 0 ∧
      ∀ k, s.linkUp k = true → ∃ f, (t.link k).queue = (s.link k).queue ++ [(none, f)] ∧ f.kind = kMgmt ∧
        f.payload = [0x01, s.fab.prevAddr] ++ List.replicate 6 0 ++ beBytes 8 s.serial.toNat) ∧
  (∀ s k y f a, y.frame = f → f.kind = kMgmt → f.payload.headD 0 = 0x01 → RlTakes s k y → s.seen (s.floodSerial f) f.seqNo true = false →
      s.fab.alloc = true → s.dutyRuns 0 = true → mgmtSerial f ≠ s.serial → s.chooseAddr (mgmtSerial f) = some a →
    Does (.addrReq k y) s fun t => t.fab.given = (mgmtSerial f, a) :: s.fab.given.filter (fun g => g.1 != mgmtSerial f) ∧ t.fab.addr = s.fab.addr ∧ SameRegs s t) ∧
  (∀ s k a f, a.frame = f → f.kind = kMgmt → f.payload.headD 0 = 0x02 → RlTakes s k a → s.seen (s.floodSerial f) f.seqNo true = false →
      mgmtSerial f = s.serial → s.fabOn = true → s.rb (.fab .cfg) 1 = true → s.fab.addr = 0 →
    Does (.addrAssign k a) s fun t => t.fab.addr = (if s.heldBelow (f.payload.getD 1 0) then 0 else f.payload.getD 1 0) ∧ t.fab.gaveUp = false ∧
      t.rb (.fab .evt) 3 = true ∧ (s.heldBelow (f.payload.getD 1 0) = true → t.rb (.fab .evt) 4 = true)) ∧
  (∀ s, s.dutyRuns 0 = true → TablesOk s →
    Does .routeRecompute s fun t => ∀ r, t.route r = if (s.route r).valid then s.routeLinks (s.route r) else s.route r)

/-- FAB_CFG with EN 1 without dynamic addressing takes the static address where it is legal and no lower serial holds it; EN 0 gives the address up;
FAB_TIME takes the fields that may change. A routed frame for another device goes to the PRIMARY link of its route, where that is UP, with TTL less 1.
The time exchange asks on its timer, answers a request with its stamps, and a fitting answer within 100 us gives the delay of the link. The timer acts
at the end of its time (log 61). Rests on R344, R347, R358, R360, R367, R379, R380. -/
def Obligations.FabricTransitAndTime : Prop :=
  (∀ s d v, Writes s d 0 → v.getLsbD 0 = true → v.getLsbD 1 = false → s.rb (.fab .cfg) 0 = false →
    Does (.fabEnable d v) s fun t => t.rb (.fab .cfg) 0 = true ∧
      t.fab.addr = (if 128 < v.toNat / 256 % 256 ∨ s.heldBelow (BitVec.ofNat 8 (v.toNat / 256)) = true then 0 else BitVec.ofNat 8 (v.toNat / 256)) ∧ t.ports = s.ports ∧ (∀ k, (t.link k).state = (s.link k).state)) ∧
  (∀ s d v, Writes s d 0 → v.getLsbD 0 = false → s.rb (.fab .cfg) 0 = true →
    Does (.fabEnable d v) s fun t => t.rb (.fab .cfg) 0 = false ∧ t.fab.addr = 0 ∧ t.fab.drivers = 0 ∧ t.ports = s.ports ∧ (∀ k, (t.link k).state = (s.link k).state)) ∧
  (∀ s d v, Writes s d 0 →
    Does (.fabTimeWrite d v) s fun t => t.reg (.fab .time) = (s.fieldWrite d (.fab .time) mask32 (v.setWidth 64) (fun _ => false)).1 ∧ t.links = s.links ∧
      OtherRegs s t [.fab .time, .fab .evt, .tmu .servo]) ∧
  (∀ s k j a f, a.frame = f → f.kind = kRouted → RlTakes s k a → f.dest ≠ 0xFF → ¬(s.fab.addr ≠ 0 ∧ f.dest = s.fab.addr) →
      (s.route f.rtag.toNat).valid = true → routeLink (s.route f.rtag.toNat).primary = some j → j ≠ k → s.linkUp j = true →
    Does (.routed k a) s fun t => (t.link j).queue = (s.link j).queue ++ [(some k, { f with ttl := f.ttl - 1 })] ∧ (∀ i, i ≠ j → t.link i = s.link i) ∧
      t.routes = s.routes ∧ SameRegs s t) ∧
  (∀ s u k, s.linkUp k = true → u = s.waitFrom (s.link k).syncAt (us 990) →
    Does (.timeSyncTimer k) s fun t => (t.link k).syncSeq = (s.link k).syncSeq + 1 ∧ (∃ f, (t.link k).queue = (s.link k).queue ++ [(none, f)] ∧ f.kind = kSync ∧
        f.cls = cTime ∧ f.seqNo = (s.link k).syncSeq + 1) ∧ (∀ j, j ≠ k → t.link j = s.link j) ∧ SameRegs u t) ∧
  (∀ s u k a f raw, a.frame = f → f.kind = kSync → u = s.advance raw → RlTakes u k a → s.linkUp k = true →
    Does (.timeSync k a raw) s fun t => (∃ g, (t.link k).queue = (s.link k).queue ++ [(none, g)] ∧ g.kind = kReply ∧ g.seqNo = f.seqNo ∧
        g.payload = s.replyPayload (s.rlStamp k raw) f.seqNo) ∧ ∀ j, j ≠ k → t.link j = s.link j) ∧
  (∀ s u k a f raw q t1, a.frame = f → f.kind = kReply → u = s.advance raw → RlTakes u k a → s.linkUp k = true → (s.link k).syncSent = some (q, t1) → ofBe (slice f.payload 16 2) = q.toNat →
      (s.rlStamp k raw - t1).toNat ≤ us 100 →
    Does (.timeReply k a raw) s fun t => (t.link k).syncSent = none ∧ (t.link k).delay = BitVec.ofInt 32 (replyDelay t1 (BitVec.ofNat 64 (ofBe (slice f.payload 0 8)))
        (BitVec.ofNat 64 (ofBe (slice f.payload 8 8))) (s.rlStamp k raw) (BitVec.ofNat 32 (s.rf (.rl k .asym) 0 32))) ∧ ∀ j, j ≠ k → t.link j = s.link j)

/-- An engine that is lost while it serves a running port is FAULTED with its cause and leaves the port ISOLATED: without a spare the port waits in
the order of loss, with one that holds its image the takeover begins. An engine that has loaded for a port that nothing serves becomes its engine in
takeover, and the end of the takeover attaches it, with the windows of the port, with the port in the state before and its FIFO empty. No other port
changes. Rests on R388, R393, R401, R402, R403. -/
def Obligations.EngineLossAndTakeover : Prop :=
  (∀ s e p cause, (s.engine e).state = .active → breaks (s.engineReaches e) cause = true → (s.engine e).port = p → s.spur.attached[p] = some e → s.spur.swap = none →
      s.spur.takeovers.any (fun u => u.2 == e) = false → running (s.port p).state = true → s.standby = [] →
    Does (.engineLoss e cause) s fun t => (t.engine e).state = .faulted ∧ (t.engine e).cause = causeCode cause ∧ t.spur.attached[p] = none ∧
      (t.port p).state = .isolated ∧ (t.port p).prior = (s.port p).state ∧ t.spur.orphans = s.spur.orphans ++ [p] ∧ t.rb (.dev .seevt) 0 = true ∧
      t.rb (.dev .seevt) 1 = true ∧ OtherPorts s t p) ∧
  (∀ s e p cause n, (s.engine e).state = .active → breaks (s.engineReaches e) cause = true → (s.engine e).port = p → s.spur.attached[p] = some e → s.spur.swap = none →
      s.spur.takeovers.any (fun u => u.2 == e) = false → running (s.port p).state = true → s.pickSpare s.spur.portImage[p] = some (n, true) →
    Does (.engineLoss e cause) s fun t => (t.engine e).state = .faulted ∧ (t.engine n).state = .active ∧ (t.engine n).port = p ∧
      t.spur.takeovers = s.spur.takeovers ++ [(p, n)] ∧ t.spur.attached[p] = none ∧ (t.port p).state = .isolated ∧ t.spur.orphans = s.spur.orphans ∧
      OtherPorts s t p) ∧
  (∀ s e p, (s.engine e).state = .loading → (s.engine e).loading = some (.takeover p) → s.spur.attached[p] = none →
      s.spur.takeovers.any (fun u => u.1 == p) = false →
    Does (.engineLoadDone e) s fun t => (t.engine e).state = .active ∧ (t.engine e).port = p ∧ (t.engine e).gen = (s.spur.images[(s.engine e).image]).gen ∧
      t.spur.takeovers = s.spur.takeovers ++ [(p, e)] ∧ (∀ f, f ≠ e → t.engine f = s.engine f) ∧ t.ports = s.ports ∧ SameRegs s t) ∧
  (∀ s e p, s.spur.takeovers.find? (fun u => u.1 == p) = some (p, e) → (s.port p).state = .isolated → running (s.port p).prior = true →
      (s.port p).holdPending = none → s.spur.attached[p] = none → s.underTest p = false →
    Does (.takeoverDone p) s fun t => t.spur.attached[p] = some e ∧ (t.port p).state = (s.port p).prior ∧ (t.port p).fifo = [] ∧
      t.spur.takeovers = s.spur.takeovers.filter (fun u => u.1 != p) ∧ t.rb (.port p .evt) 0 = true ∧ t.engine e = { s.engine e with windows := some (p, s.portOwner p) } ∧ ∀ f, f ≠ e → t.engine f = s.engine f)

/-- DEV_SWAP with GO chooses a spare that holds the image; of an image that is absent it ends with RESULT 01h. At the quiet point the engine is
attached and the old one, where there is one, is STANDBY, RESULT 00h; after 1 s without it the swap ends with RESULT 02h. RETEST of a faulted engine
starts its test, RELOAD of a standby one loads its image; a test that passes goes on to loading, one that fails leaves the engine FAULTED with RESULT
02h. Rests on R393, R405, R407. -/
def Obligations.EngineSwapAndCommands : Prop :=
  (∀ s d v e, Writes s d 0 → v.getLsbD 15 = true → s.spur.swap = none → (s.spur.images[(fin 4 (v.toNat / 256) : Fin 4)]).valid = true →
      s.pickSpare (fin 4 (v.toNat / 256)) = some (e, true) →
    Does (.devSwap d v) s fun t => t.spur.swap = some { port := fin 32 v.toNat, image := fin 4 (v.toNat / 256), engine := some e, at_ := s.raw } ∧
      (t.engine e).state = .active ∧ (t.engine e).port = fin 32 v.toNat ∧ t.spur.attached = s.spur.attached ∧ t.ports = s.ports) ∧
  (∀ s d v, Writes s d 0 → v.getLsbD 15 = true → s.spur.swap = none → (s.spur.images[(fin 4 (v.toNat / 256) : Fin 4)]).valid = false →
    Does (.devSwap d v) s fun t => t.spur.swap = none ∧ t.spur.swapResult = 0x01 ∧ t.rb (.dev .seevt) 2 = true ∧ t.spur.engines = s.spur.engines) ∧
  (∀ s (w : Swap) (e : EngId) (old : Option EngId), s.swapReady = some (w, e, old) → s.spur.orphans = [] → s.cairn.test = none →
    Does .swapQuietPoint s fun t => t.spur.attached[w.port] = some e ∧ t.spur.portImage[w.port] = w.image ∧ t.spur.swap = none ∧ t.spur.swapResult = 0x00 ∧
      (∀ o, old = some o → (t.engine o).state = .standby) ∧ (old = none → (w.port, e) ∈ t.spur.takeovers) ∧ t.rb (.dev .seevt) 2 = true ∧ t.ports = s.ports) ∧
  (∀ s u w, s.spur.swap = some w → u = s.waitFrom w.at_ (sec 1) →
    Does .swapTimeout s fun t => t.spur.swap = none ∧ t.spur.swapResult = 0x02 ∧ t.rb (.dev .seevt) 2 = true ∧ t.spur.attached = s.spur.attached ∧ t.ports = u.ports) ∧
  (∀ s d v (e : EngId), Writes s d 0 → v.toNat / 256 % 4 = 1 → v.toNat % 64 = e.val → s.spur.cmdUnit = none → (s.engine e).state = .faulted →
    Does (.retest d v) s fun t => t.engine e = { s.engine e with state := .testing } ∧ t.spur.cmdUnit = some e.val ∧ (∀ f, f ≠ e → t.engine f = s.engine f) ∧
      t.ports = s.ports) ∧
  (∀ s d v (e : EngId), Writes s d 0 → v.toNat / 256 % 4 = 2 → v.toNat % 64 = e.val → s.spur.cmdUnit = none → (s.engine e).state = .standby →
    Does (.reload d v) s fun t => (t.engine e).state = .loading ∧ (t.engine e).image = s.spareEntry e ∧ (t.engine e).loading = some .reload ∧
      t.spur.cmdUnit = some e.val ∧ (∀ f, f ≠ e → t.engine f = s.engine f) ∧ t.ports = s.ports) ∧
  (∀ s e, (s.engine e).state = .testing → s.spur.cmdUnit = some e.val →
    Does (.engineTestEnd e true) s fun t => (t.engine e).state = .loading ∧ (t.engine e).loading = some .retest ∧ t.spur.cmdUnit = some e.val ∧ SameRegs s t) ∧
  (∀ s e, (s.engine e).state = .testing → s.spur.cmdUnit = some e.val →
    Does (.engineTestEnd e false) s fun t => (t.engine e).state = .faulted ∧ (t.engine e).cause = 5 ∧ t.spur.cmdUnit = none ∧ t.spur.cmdResult = 0x02 ∧
      t.rb (.dev .seevt) 2 = true ∧ t.rb (.dev .seevt) 0 = true)

/-- A core that faults, and one that is halted, leaves no duty on itself and no duty on its way to it; a duty that has moved runs on its new core. The
end of a core's test leaves it running, with RESULT 00h, where it passed and the gateway firmware is there, and otherwise FAULTED, with RESULT 02h. No
other core and no port changes. Rests on R409, R410, R412. -/
def Obligations.GatewayCores : Prop :=
  (∀ s c cause, (s.core c).state = .running → breaks coreReaches cause = true →
    Does (.coreFault c cause) s fun t => (t.core c).state = .faulted ∧ (t.core c).cause = causeCode cause ∧ t.rb (.dev .seevt) 3 = true ∧
      (∀ u : Fin 4, (t.spur.duties[u]).core ≠ some c ∧ (t.spur.duties[u]).moving ≠ some c) ∧ (∀ b, b ≠ c → t.core b = s.core b) ∧ t.ports = s.ports) ∧
  (∀ s d v (c : CoreId), Writes s d 0 → v.toNat / 256 % 4 = 3 → v.toNat % 64 = 0x38 + c.val → s.spur.cmdUnit = none → (s.core c).state = .running →
    Does (.halt d v) s fun t => (t.core c).state = .halted ∧ (∀ u : Fin 4, (t.spur.duties[u]).core ≠ some c ∧ (t.spur.duties[u]).moving ≠ some c) ∧
      (∀ b, b ≠ c → t.core b = s.core b) ∧ t.ports = s.ports) ∧
  (∀ s u c, (s.spur.duties[dutyIx u]).moving = some c →
    Does (.dutyMoveDone u) s fun t => (t.spur.duties[dutyIx u]).core = some c ∧ (t.spur.duties[dutyIx u]).moving = none ∧ t.rb (.dev .seevt) 4 = true ∧
      (∀ w : Fin 4, w ≠ dutyIx u → t.spur.duties[w] = s.spur.duties[w]) ∧ t.ports = s.ports) ∧
  (∀ s c, (s.core c).state = .testing → s.gatewayFw = true →
    Does (.coreTestEnd c true) s fun t => (t.core c).state = .running ∧ t.spur.cmdUnit = none ∧ t.spur.cmdResult = 0x00 ∧ t.rb (.dev .seevt) 2 = true ∧
      (∀ b, b ≠ c → t.core b = s.core b) ∧ OtherRegs s t [.dev .seevt]) ∧
  (∀ s c, (s.core c).state = .testing →
    Does (.coreTestEnd c false) s fun t => (t.core c).state = .faulted ∧ (t.core c).cause = 5 ∧ t.spur.cmdResult = 0x02 ∧ t.rb (.dev .seevt) 3 = true ∧
      OtherRegs s t [.dev .seevt])

/-- The rule duty takes the oldest input of the rules. Within MIN_GAP it is held in place of an older one, which is counted as dropped; otherwise,
where the domain of the output has the right to it, its payload goes to the send object of the output and is counted (for an object still pending).
When the gap ends the held one goes the same way, and is counted as dropped where the output names no object. GW_READ copies a rule, with its
counters, for a domain that it concerns, and gives RESULT 02h for none. Rests on R21, R416, R417, R419. -/
def Obligations.GatewayInputs : Prop :=
  (∀ s i x rest r, s.spur.inputs = (i, x) :: rest → (s.spur.duties[(1 : Fin 4)]).core.isSome = true → s.rule i = some r → gwValid r = true →
      s.gwGapOver r = false →
    Does .gwInput s fun t => t.spur.inputs = rest ∧ t.rule i = some { r with held := some x, drops := if r.held.isSome then r.drops + 1 else r.drops } ∧
      (∀ j, j ≠ i → t.rule j = s.rule j) ∧ t.objs = s.objs ∧ t.tarn = s.tarn ∧ SameRegs s t) ∧
  (∀ s i x rest r, s.spur.inputs = (i, x) :: rest → (s.spur.duties[(1 : Fin 4)]).core.isSome = true → s.rule i = some r → gwValid r = true → TablesOk s →
      s.gwGapOver r = true → r.held = none → s.gwOutOk r = true → gwOutRoute r = false → gwOut r < 8192 → objValid (s.obj (fin 16 (gwOutDom r)) (gwOut r)) = true →
      objIsSend (s.obj (fin 16 (gwOutDom r)) (gwOut r)) = true →
      s.objLenOk (fin 16 (gwOutDom r)) (s.obj (fin 16 (gwOutDom r)) (gwOut r)).cfg (gwPayload r x).length = true → (s.obj (fin 16 (gwOutDom r)) (gwOut r)).pending = true →
    Does .gwInput s fun t => t.spur.inputs = rest ∧ t.rule i = some { r with hits := r.hits + 1, lastOut := some s.raw } ∧
      (t.obj (fin 16 (gwOutDom r)) (gwOut r)).len = (gwPayload r x).length ∧ t.ports = s.ports ∧ SameRegs s t) ∧
  (∀ s i x r, s.rule i = some r → r.held = some x → (s.spur.duties[(1 : Fin 4)]).core.isSome = true → gwOutRoute r = false → 8192 ≤ gwOut r →
    Does (.gwGapEnd i) s fun t => t.rule i = some { r with held := none, drops := r.drops + 1 } ∧ (∀ j, j ≠ i → t.rule j = s.rule j) ∧ t.tarn = s.tarn) ∧
  (∀ s i x r, s.rule i = some r → r.held = some x → (s.spur.duties[(1 : Fin 4)]).core.isSome = true → r.lastOut = none → TablesOk s →
      s.gwOutOk r = true → gwOutRoute r = false → gwOut r < 8192 → objValid (s.obj (fin 16 (gwOutDom r)) (gwOut r)) = true →
      objIsSend (s.obj (fin 16 (gwOutDom r)) (gwOut r)) = true →
      s.objLenOk (fin 16 (gwOutDom r)) (s.obj (fin 16 (gwOutDom r)) (gwOut r)).cfg (gwPayload r x).length = true → (s.obj (fin 16 (gwOutDom r)) (gwOut r)).pending = true →
    Does (.gwGapEnd i) s fun t => t.rule i = some { r with held := none, hits := r.hits + 1, lastOut := some s.raw } ∧
      (t.obj (fin 16 (gwOutDom r)) (gwOut r)).len = (gwPayload r x).length) ∧
  (∀ s d r, s.serves = true → s.active d = true → s.gwBusy d = false → s.rule (fin 512 (s.rf (.fn d .gwSel) 0 9)) = some r → r.owner = d ∨ gwInDom r = d.val ∨ gwOutDom r = d.val →
    Does (.gwRead d) s fun t => (t.func d).gwRes = 0 ∧ (∀ i : Fin 8, t.reg (.fn d (.gwData i)) =
        BitVec.ofNat 64 ((r.body.toNat + r.hits.toNat * 2 ^ 192 + r.drops.toNat * 2 ^ 224) / 2 ^ (32 * i.val) % 2 ^ 32)) ∧ t.spur = s.spur ∧
      OtherRegs s t ((List.finRange 8).map (fun i => Reg.fn d (.gwData i)))) ∧
  (∀ s d, s.serves = true → s.active d = true → s.gwBusy d = false → s.rule (fin 512 (s.rf (.fn d .gwSel) 0 9)) = none →
    Does (.gwRead d) s fun t => (t.func d).gwRes = 2 ∧ t.spur = s.spur ∧ SameRegs s t)

/-- A claim takes the due source of its target and raises the running priority, and does nothing where none is due. An EOI takes the newest off; one
without a claim is logged, and one at a target beyond MSIX_COUNT is logged CROSS_DOMAIN. A message held by moderation goes at the end of its gap where
its vector is open. A vector of a leaf whose running priority is lower is delivered at the address of its source, wakes its target and raises its
running priority; of several sources the highest is; a masked one only wakes its target. The EOI of a vector takes its newest off. A source of an
offline core gets its fallback 1 us later. Rests on R41, R422, R423, R425, R429, R430, R431. -/
def Obligations.EventClaims : Prop :=
  (∀ s d t0 x, t0.val < (s.entry d).msixCount → s.serves = true → s.active d = true → s.claimed d t0.val = some x → s.rb (.evcSrc d (fin 256 x)) 13 = false →
    Does (.evcClaim d t0) s fun t => t.stack d t0.val = (x, s.srcPrio d x) :: s.stack d t0.val ∧ SameRegs s t ∧ Logged s t []) ∧
  (∀ s d t0, t0.val < (s.entry d).msixCount → s.serves = true → s.active d = true → s.claimed d t0.val = none →
    Does (.evcClaim d t0) s fun t => t = s) ∧
  (∀ s d t0 v w x q rest, t0.val < (s.entry d).msixCount → s.serves = true → s.active d = true → s.stack d t0.val = (x, q) :: rest → 64 < x →
      Tbl.wf [] s.evc.claimStacks = true →
    Does (.evcEoi d (.claim t0 v) w) s fun t => t.stack d t0.val = rest ∧ SameRegs s t ∧ t.rings = s.rings ∧ Logged s t []) ∧
  (∀ s d t0 v w, t0.val < (s.entry d).msixCount → s.serves = true → s.active d = true → s.stack d t0.val = [] → s.dev.absent.getLsbD 0 = false →
      s.log.intake.length < 256 →
    Does (.evcEoi d (.claim t0 v) w) s fun t => SameRegs s t ∧ t.rings = s.rings ∧
      ∃ r, Logged s t [(s.raw, r)] ∧ r.source = 0x0B ∧ r.code = 0x02 ∧ r.dom = domCode d ∧ r.arg0 = BitVec.ofNat 32 t0.val) ∧
  (∀ s d t0 v w, (s.entry d).msixCount ≤ t0.val → s.serves = true → s.active d = true → s.dev.absent.getLsbD 0 = false → s.log.intake.length < 256 →
    Does (.evcEoi d (.claim t0 v) w) s fun t => t.evc.claimStacks = s.evc.claimStacks ∧ SameRegs s t ∧ t.rings = s.rings ∧
      ∃ r, Logged s t [(s.raw, r)] ∧ r.source = 0x01 ∧ r.code = 0x02 ∧ r.dom = domCode d ∧ r.arg1 = v) ∧
  (∀ s d (v : VecTarget) w a rest, Tbl.get [] s.evc.vstacks (s.vecOwner v) = a :: rest → Tbl.wf [] s.evc.vstacks = true →
      rest ≠ [] ∨ (Tbl.get (0, []) s.evc.heldVecs (vecCode v)).2 = [] →
    Does (.evcEoi d (.vector v) w) s fun t => Tbl.get [] t.evc.vstacks (s.vecOwner v) = rest ∧
      (∀ k, k ≠ s.vecOwner v → Tbl.get [] t.evc.vstacks k = Tbl.get [] s.evc.vstacks k) ∧ SameRegs s t ∧ Logged s t []) ∧
  (∀ s u d (t0 : Fin 128), s.heldDue d t0.val ≠ [] → u = s.advance (s.gapEnd d t0.val (s.heldDue d t0.val)) → s.sends d t0.val = true →
      (s.func d).funcMask = false → t0.val ∈ (s.func d).vecOpen →
    Does (.moderationGapEnd d (.claim t0)) s fun t => Sends s t (.msix d t0 (Tbl.get 0 (s.func d).vecTable t0.val)) ∧ SameRegs u t ∧ t.rings = u.rings) ∧
  (∀ s e o src prio cls guarded, o = s.vecOwner (.leaf e) → ((Tbl.get [] s.evc.vstacks o).head?.map (·.2)).getD 0 < prio.toNat →
      (∀ a ∈ s.evc.vstacks, ∀ y ∈ a.2, y.1 ≠ vecKey o ⟨src, prio, false, cls, guarded⟩) → vecKey o ⟨src, prio, false, cls, guarded⟩ ∉ s.evc.vecStorm →
      4 + e.val ∉ s.evc.awake ∨ s.vecGapEnd (.leaf e) cls.toNat ≤ s.raw → Tbl.wf [] s.evc.vstacks = true →
    Does (.vectorDelivery (.leaf e) src ⟨prio, false, cls, guarded, []⟩) s fun t =>
      Sends s t (.vector (.leaf e) src (Config.vectorBase (4 + e.val) + BitVec.ofNat 32 (16 * src.toNat))) ∧ 4 + e.val ∈ t.evc.awake ∧
      Tbl.get [] t.evc.vstacks o = (vecKey o ⟨src, prio, false, cls, guarded⟩, prio.toNat) :: Tbl.get [] s.evc.vstacks o ∧ SameRegs s t) ∧
  (∀ s e o src prio (y : VecSource), o = s.vecOwner (.leaf e) → Tbl.get [] s.evc.vstacks o = [] → 0 < prio.toNat → prio.toNat < y.prio.toNat → y.masked = false →
      (∀ a ∈ s.evc.vstacks, ∀ z ∈ a.2, z.1 ≠ vecKey o y) → vecKey o y ∉ s.evc.vecStorm → 4 + e.val ∉ s.evc.awake →
    Does (.vectorDelivery (.leaf e) src ⟨prio, false, 0, false, [y]⟩) s fun t =>
      Sends s t (.vector (.leaf e) y.src (Config.vectorBase (4 + e.val) + BitVec.ofNat 32 (16 * y.src.toNat)))) ∧
  (∀ s e src prio cls guarded, prio.toNat ≠ 0 →
    Does (.vectorDelivery (.leaf e) src ⟨prio, true, cls, guarded, []⟩) s fun t => 4 + e.val ∈ t.evc.awake ∧ t.evc.vstacks = s.evc.vstacks ∧ SameRegs s t) ∧
  (∀ s u c src since, (s.core c).state = .halted ∨ (s.core c).state = .faulted → (c, src) ∉ s.evc.fallback → u = s.advance (after since (us 1)) →
    Does (.offlineFallback c ⟨src, since⟩) s fun t => t.evc.fallback = (c, src) :: s.evc.fallback ∧ SameRegs u t ∧ t.spur = s.spur)

/-- An ETH_TX that its port may take, in its ring's turn, joins the frames of the port, or goes onto the wire where that is free and no pause stands;
one whose buffer lies outside the windows ends DMA_WINDOW, and one on a port that another domain holds OWNER. At the end of a frame its bytes leave,
padded to 60 and with the FCS, the wire is free, and one sent at its first attempt completes SENT with one attempt and its stamp. A pause ends. Rests
on R78, R316, R317, R318, R328. -/
def Obligations.EthernetTransmission : Prop :=
  (∀ s d n x payload k, RingReady 0 s d n x → k = (fin 4 (fld (s.ringCfg (s.dring d n)) 16 5) : EpId) → bit (s.ringCfg (s.dring d n)) 9 = true → s.epOn k = true →
      (s.eth k).link = true → s.ethTurn d k n = true → s.epOwner k = d → (s.eth k).queue.all (fun i => i.firmware || decide (i.op.num ≠ n)) = true → 14 ≤ dnum x 4 2 → dnum x 4 2 ≤ 1996 →
      payload.length = dnum x 4 2 → reservedZero { x with flags := x.flags &&& 0xFD } ethFields = true →
      s.inWindow d (daddr x).toNat (dnum x 4 2) true false = true → (dbit x 6 0 = true → oneStepOk payload = true) → (s.eth k).wire.isSome = true →
    Does (.ethTx d n x payload) s fun t =>
      (t.eth k).queue = (s.eth k).queue ++ [{ op := s.opOf d n x, bytes := payload, oneStep := dbit x 6 0, tsq := dtsq x }] ∧
      (t.eth k).wire = (s.eth k).wire ∧ (∀ j, j ≠ k → t.eth j = s.eth j) ∧ SameRegs s t ∧ t.counts = s.counts) ∧
  (∀ s d n x payload k, RingReady 0 s d n x → k = (fin 4 (fld (s.ringCfg (s.dring d n)) 16 5) : EpId) → bit (s.ringCfg (s.dring d n)) 9 = true → s.epOn k = true →
      (s.eth k).link = true → s.ethTurn d k n = true → s.epOwner k = d → (s.eth k).queue = [] → 14 ≤ dnum x 4 2 → dnum x 4 2 ≤ 1996 →
      payload.length = dnum x 4 2 → reservedZero { x with flags := x.flags &&& 0xFD } ethFields = true →
      s.inWindow d (daddr x).toNat (dnum x 4 2) true false = true → (dbit x 6 0 = true → oneStepOk payload = true) → (s.eth k).wire = none →
      (s.eth k).pauseEnd = none →
    Does (.ethTx d n x payload) s fun t => (t.eth k).queue = [] ∧
      (t.eth k).wire = some { op := s.opOf d n x, bytes := payload, oneStep := dbit x 6 0, tsq := dtsq x, attempts := 1 } ∧
      (∀ j, j ≠ k → t.eth j = s.eth j) ∧ SameRegs s t) ∧
  (∀ s d n x payload k, RingReady 0 s d n x → k = (fin 4 (fld (s.ringCfg (s.dring d n)) 16 5) : EpId) → bit (s.ringCfg (s.dring d n)) 9 = true → s.epOn k = true →
      (s.eth k).link = true → s.ethTurn d k n = true → s.epOwner k = d → (s.eth k).queue.all (fun i => i.firmware || decide (i.op.num ≠ n)) = true → 14 ≤ dnum x 4 2 → dnum x 4 2 ≤ 1996 →
      payload.length = dnum x 4 2 → reservedZero { x with flags := x.flags &&& 0xFD } ethFields = true →
      s.inWindow d (daddr x).toNat (dnum x 4 2) true false = false →
    Does (.ethTx d n x payload) s fun t => Answered s t d n x 0x30 0 ∧ (t.eth k).queue = (s.eth k).queue ∧ (t.eth k).wire = (s.eth k).wire ∧
      (∀ j, j ≠ k → t.eth j = s.eth j) ∧ SameRegs s t) ∧
  (∀ s d n x payload k, RingReady 0 s d n x → k = (fin 4 (fld (s.ringCfg (s.dring d n)) 16 5) : EpId) → bit (s.ringCfg (s.dring d n)) 9 = true → s.epOn k = true →
      (s.eth k).link = true → s.ethTurn d k n = true → s.epOwner k ≠ d → (s.eth k).queue.all (fun i => i.firmware || decide (i.op.num ≠ n)) = true →
      14 ≤ dnum x 4 2 → dnum x 4 2 ≤ 1996 → reservedZero { x with flags := x.flags &&& 0xFD } ethFields = true →
    Does (.ethTx d n x payload) s fun t => Answered s t d n x 0x31 0 ∧ (t.eth k).queue = (s.eth k).queue ∧ (t.eth k).wire = (s.eth k).wire ∧ SameRegs s t) ∧
  (∀ s k raw i, (s.eth k).wire = some i → i.oneStep = false → i.firmware = true → (s.eth k).queue = [] →
    Does (.ethTxEnd k raw) s fun t => Sends s t (.eth k (withFcs (i.bytes ++ List.replicate (60 - i.bytes.length) 0))) ∧ (t.eth k).wire = none) ∧
  (∀ s k raw i n, (s.eth k).wire = some i → i.oneStep = false → i.firmware = false → i.tsq = false → i.attempts = 1 → (s.eth k).queue = [] →
      s.mute i.op.dom = false → s.dev.recovery = false → i.op.epoch = (s.func i.op.dom).epoch → n = s.cqOf i.op.dom i.op.num → s.ringOn i.op.dom n 3 = true →
      (s.ring (s.dring i.op.dom n)).wait = [] → 0 < s.room i.op.dom n →
    Does (.ethTxEnd k raw) s fun t => Sends s t (.eth k (withFcs (i.bytes ++ List.replicate (60 - i.bytes.length) 0))) ∧ (t.eth k).wire = none ∧
      ∃ e : CqEntry, Sends s t (s.entryOut i.op.dom n e) ∧ e.tag = i.op.tag ∧ e.num = i.op.num ∧ e.status = 0x00 ∧ e.info0 = 1 ∧
        e.stamp = some ((s.timeAt (raw + BitVec.ofNat 64 (102 + k.val))).setWidth 36)) ∧
  (∀ s k r, (s.eth k).pauseEnd = some r →
    Does (.pauseEnd k) s fun t => (t.eth k).pauseEnd = none)

/-- EP_CFG.EN of the owner enables a port and disables it, with its waiting frames ended and the one on the wire kept; a write by another domain
changes nothing and is logged. With REF25 locked the link comes up with what the partner offers where it is full-duplex; otherwise auto-negotiation
fails, and restarts 1 s later. The loss of the link is counted, and a frame on the wire goes back to the head of its queue. A write of PROFILE 01b or
10b starts the clock with the whole of EP_PTPG as it then stands and every port LISTENING, and PROFILE 00b stops it. A master port, and for Pdelay_Req
any port of the clock, queues its message; without an Announce a port becomes master, slave or passive, and only master where the device must stay
master. What a message's bytes are follows the draws of log 16. Rests on R313, R315, R319, R332, R334, R335, R487. -/
def Obligations.EthernetLinksAndClock : Prop :=
  (∀ s d k v, Writes s d (s.epOwner k) → s.heldBack (fun a => a.eports.getLsbD k.val) = false → v.getLsbD 0 = true → s.epOn k = false →
    Does (.epEnable d k v) s fun t => t.epOn k = true ∧ (t.eth k).offAt = none ∧ (∀ j, j ≠ k → t.eth j = s.eth j) ∧ OtherRegs s t [.ep k .cfg] ∧ t.rings = s.rings) ∧
  (∀ s d k v, Writes s d (s.epOwner k) → s.heldBack (fun a => a.eports.getLsbD k.val) = false → v.getLsbD 0 = false → s.epOn k = true →
    Does (.epEnable d k v) s fun t => t.epOn k = false ∧ (t.eth k).queue = [] ∧ (t.eth k).wire = (s.eth k).wire ∧ (t.eth k).pauseEnd = none ∧
      (t.eth k).offAt = some s.raw ∧ (∀ j, j ≠ k → t.eth j = s.eth j) ∧ OtherRegs s t [.ep k .cfg]) ∧
  (∀ s d k v, s.serves = true → s.active d = true → s.epOwner k ≠ d → s.dev.absent.getLsbD 0 = false → s.log.intake.length < 256 →
    Does (.epEnable d k v) s fun t => t.eths = s.eths ∧ SameRegs s t ∧
      ∃ r, Logged s t [(s.raw, r)] ∧ r.source = 0x01 ∧ r.code = 0x02 ∧ r.dom = domCode d ∧ r.arg1 = v) ∧
  (∀ s k (a : AnPartner), (s.eth k).link = false → s.tmu.reflock = true → s.rb (.ep k .cfg) 1 = true → a.fullDuplex = true →
    Does (.epLinkUp k a) s fun t => (t.eth k).link = true ∧ (t.eth k).anDone = true ∧ (t.eth k).lpPause.getLsbD 0 = a.ps1 ∧ (t.eth k).lpPause.getLsbD 1 = a.ps2 ∧
      (t.eth k).lpRf = a.rf ∧ t.rb (.ep k .evt) 0 = true ∧ OtherRegs s t [.ep k .evt]) ∧
  (∀ s k (a : AnPartner), (s.eth k).link = false → s.tmu.reflock = true → s.rb (.ep k .cfg) 1 = true → a.fullDuplex = false →
    Does (.epLinkUp k a) s fun t => t.eth k = { s.eth k with anFailed := true, failedAt := s.raw } ∧ t.rb (.ep k .evt) 1 = true ∧ OtherRegs s t [.ep k .evt]) ∧
  (∀ s k (a : AnPartner), (s.eth k).link = false → s.tmu.reflock = true → s.rb (.ep k .cfg) 1 = false →
    Does (.epLinkUp k a) s fun t => (t.eth k).link = true ∧ (t.eth k).anDone = (s.eth k).anDone ∧ t.rb (.ep k .evt) 0 = true ∧ OtherRegs s t [.ep k .evt]) ∧
  (∀ s k, (s.eth k).link = true → (s.eth k).wire = none → TablesOk s →
    Does (.epLinkLoss k) s fun t => (t.eth k).link = false ∧ (t.eth k).pauseEnd = none ∧ (t.eth k).queue = (s.eth k).queue ∧ t.rb (.ep k .evt) 0 = true ∧
      Tbl.get 0 t.counts (64 * (32 + k.val) + 0xC4 / 4) = Tbl.get 0 s.counts (64 * (32 + k.val) + 0xC4 / 4) + 1 ∧ OtherRegs s t [.ep k .evt]) ∧
  (∀ s k i, (s.eth k).link = true → (s.eth k).wire = some i → i.ringOff = false → (s.eth k).stopping = false →
    Does (.epLinkLoss k) s fun t => (t.eth k).link = false ∧ (t.eth k).wire = none ∧ (t.eth k).queue = i :: (s.eth k).queue ∧ t.rb (.ep k .evt) 0 = true ∧
      (∀ j, j ≠ k → t.eth j = s.eth j) ∧ t.rings = s.rings) ∧
  (∀ s u k, (s.eth k).anFailed = true → (s.eth k).link = false → s.rb (.ep k .cfg) 1 = true → TablesOk s → u = s.waitFrom (s.eth k).failedAt (sec 1) →
    Does (.anRestart k) s fun t => t.eth k = { s.eth k with anFailed := false } ∧
      Tbl.get 0 t.counts (64 * (32 + k.val) + 0xC8 / 4) = Tbl.get 0 u.counts (64 * (32 + k.val) + 0xC8 / 4) + 1 ∧ SameRegs u t) ∧
  (∀ s d v, Writes s d 0 → v.toNat % 4 = 1 ∨ v.toNat % 4 = 2 →
    Does (.ptpProfileWrite d v) s fun t => t.ptp.running = some ((t.reg .ptpg).setWidth 32) ∧ t.rf .ptpg 0 2 = v.toNat % 4 ∧
      (∀ k : EpId, t.ptp.ports[k] = .listening) ∧ OtherRegs s t [.ptpg] ∧ t.eths = s.eths) ∧
  (∀ s d v, Writes s d 0 → v.toNat % 4 = 0 →
    Does (.ptpProfileWrite d v) s fun t => t.ptp = {} ∧ OtherRegs s t [.ptpg] ∧ t.eths = s.eths) ∧
  (∀ s u k m, s.ptpUses k = true → s.epOn k = true → (s.eth k).link = true → m = .pdelayReq ∨ s.ptpState k = .master → (s.eth k).wire.isSome = true →
      u = s.ptpTurn k m →
    Does (.ptpMessageInterval k m) s fun t => (∃ i, (t.eth k).queue = (s.eth k).queue ++ [i] ∧ i.firmware = true ∧ i.oneStep = decide (m = .sync)) ∧
      (t.eth k).wire = (s.eth k).wire ∧ (∀ j, j ≠ k → t.eth j = s.eth j) ∧ SameRegs u t ∧ t.rings = u.rings) ∧
  (∀ s k, s.ptpUses k = true → s.mastersOnly = true →
    Does (.announceReceiptTimeout k) s fun t => t.ptp.ports[k] = .master ∧ (∀ j : EpId, j ≠ k → t.ptp.ports[j] = s.ptp.ports[j]) ∧ t.ptp.running = s.ptp.running ∧
      t.eths = s.eths) ∧
  (∀ s k, s.ptpUses k = true → s.mastersOnly = false →
    Does (.announceReceiptTimeout k) s fun t => (t.ptp.ports[k] = .master ∨ t.ptp.ports[k] = .slave ∨ t.ptp.ports[k] = .passive) ∧
      (∀ j : EpId, j ≠ k → t.ptp.ports[j] = s.ptp.ports[j]) ∧ t.ptp.running = s.ptp.running ∧ t.eths = s.eths)

/-- What an enabled port with a link does with a frame, once the raw counter stands at the end of the frame (state u): a fragment, and a good frame
that no rule takes, is only counted; a frame with a bad FCS that a rule takes is counted and dropped without ERRFWD; a good frame that a rule takes
goes, with header and stamp, behind the empty ring of the rule (the staging share of an Ethernet port is the model's: log 38); a good PAUSE that the
port honours sets the end of the pause. Rests on R320, R323, R324, R325, R327, R328. -/
def Obligations.EthernetReception : Prop :=
  (∀ s u k bytes fcsOk symbolOk raw, s.epOn k = true → (s.eth k).link = true → bytes.length < 18 → TablesOk s →
      u = ((s.advance (after raw (128 * bytes.length))).pauseSettle k).ethKick k →
    Does (.ethFrameReceived k bytes fcsOk symbolOk raw) s fun t =>
      Tbl.get 0 t.counts (64 * (32 + k.val) + 0x54 / 4) = Tbl.get 0 u.counts (64 * (32 + k.val) + 0x54 / 4) + 1 ∧ t.rings = u.rings ∧
      (t.eth k).queue = (u.eth k).queue ∧ (t.eth k).wire = (u.eth k).wire ∧ (∀ j, j ≠ k → t.eth j = u.eth j) ∧ SameRegs u t) ∧
  (∀ s u k bytes raw, s.epOn k = true → (s.eth k).link = true → 18 ≤ bytes.length → TablesOk s → u = ((s.advance (after raw (128 * bytes.length))).pauseSettle k).ethKick k →
      u.ethFlags k bytes.length true true = 0 → u.rb (.ep k .cfg) 10 = false → isCtrl bytes = false → u.ethMatch k bytes = none →
    Does (.ethFrameReceived k bytes true true raw) s fun t =>
      Tbl.get 0 t.counts (64 * (32 + k.val) + 0x58 / 4) = Tbl.get 0 u.counts (64 * (32 + k.val) + 0x58 / 4) + 1 ∧
      Tbl.get 0 t.counts (64 * (32 + k.val)) = Tbl.get 0 u.counts (64 * (32 + k.val)) + 1 ∧ t.rings = u.rings ∧
      (t.eth k).queue = (u.eth k).queue ∧ (t.eth k).wire = (u.eth k).wire ∧ (∀ j, j ≠ k → t.eth j = u.eth j) ∧ SameRegs u t) ∧
  (∀ s u k bytes symbolOk raw r, s.epOn k = true → (s.eth k).link = true → 18 ≤ bytes.length → TablesOk s →
      u = ((s.advance (after raw (128 * bytes.length))).pauseSettle k).ethKick k → isCtrl bytes = false → u.ethMatch k bytes = some r → u.rb (.ep k .cfg) 5 = false →
    Does (.ethFrameReceived k bytes false symbolOk raw) s fun t =>
      Tbl.get 0 t.counts (64 * (32 + k.val) + 0x64 / 4) = Tbl.get 0 u.counts (64 * (32 + k.val) + 0x64 / 4) + 1 ∧
      Tbl.get 0 t.counts (64 * (32 + k.val) + 0x40 / 4) = Tbl.get 0 u.counts (64 * (32 + k.val) + 0x40 / 4) + 1 ∧ t.rings = u.rings ∧
      (t.eth k).queue = (u.eth k).queue ∧ (t.eth k).wire = (u.eth k).wire ∧ (∀ j, j ≠ k → t.eth j = u.eth j) ∧ SameRegs u t) ∧
  (∀ s u k bytes raw n m info0, s.epOn k = true → (s.eth k).link = true → 18 ≤ bytes.length → u = ((s.advance (after raw (128 * bytes.length))).pauseSettle k).ethKick k →
      u.ethFlags k bytes.length true true = 0 → u.rb (.ep k .cfg) 10 = false → isCtrl bytes = false → u.ethMatch k bytes = some (n, m, info0) →
      n < 64 → (u.func (u.epOwner k)).flr = none → u.ringOn (u.epOwner k) (fin 64 n) 1 = true → (u.ring (u.dring (u.epOwner k) (fin 64 n))).frames = [] →
      (u.ring (u.dring (u.epOwner k) (fin 64 n))).posted = [] → u.bufWait (u.epOwner k) (fin 64 n) ≠ 0 →
      usedUnits (u.eth k).spaces + stageUnits (min 2048 (bytes.length - 4)) ≤ 96 →
    Does (.ethFrameReceived k bytes true true raw) s fun t => (∃ w, (t.ring (u.dring (u.epOwner k) (fin 64 n))).frames = [w] ∧
        w.bytes = ethHeader bytes (min 2048 (bytes.length - 4)) 0 m ++ bytes.take (min 2048 (bytes.length - 4)) ∧ w.info0 = info0 ||| BitVec.ofNat 32 (65536 * (16 + min 2048 (bytes.length - 4))) ∧ w.status = 0x00 ∧
        w.stamp = some (u.short (raw - BitVec.ofNat 64 (166 + k.val))) ∧ w.port = epPort k) ∧ SameRegs u t) ∧
  (∀ s u k bytes raw, s.epOn k = true → (s.eth k).link = true → 18 ≤ bytes.length → u = ((s.advance (after raw (128 * bytes.length))).pauseSettle k).ethKick k →
      u.ethFlags k bytes.length true true = 0 → u.rb (.ep k .cfg) 10 = false → isCtrl bytes = true → ofBe (slice bytes 14 2) = 1 →
      slice bytes 0 6 = [0x01, 0x80, 0xC2, 0x00, 0x00, 0x01] → u.pauseHon k = true → ofBe (slice bytes 16 2) ≠ 0 →
    Does (.ethFrameReceived k bytes true true raw) s fun t =>
      (t.eth k).pauseEnd = some (after (after raw (128 * bytes.length)) (8192 * ofBe (slice bytes 16 2))) ∧ (t.eth k).queue = (u.eth k).queue ∧ SameRegs u t)

/-- A write of DEV_MODE that is not refused: in BASE a SUMMIT request raises the voltage, or is held where a sensor is at HI; in SUMMIT it sets the
code, and a BASE request returns to BASE; a refused one leaves its REASON. A raise ends in SUMMIT, or after 2 ms in BASE with its old code and REASON
4. After 1 ms at HI the governor falls back to HELD at FB_VID, and after its time at LO it raises again. CRN_GOV takes a write that keeps its rules
and no other, CRN_GOVHOLD takes any, while the firmware runs. Rests on R441, R442, R444. -/
def Obligations.OperatingModes : Prop :=
  (∀ s d v, Writes s d 0 → s.modeRefusal v = 0 → s.cairn.mode = .base → v.getLsbD 0 = true → s.tmax < s.cairn.hi →
    Does (.modeWrite d v) s fun t => t.cairn.mode = .raising ∧ t.cairn.vidNow = (v >>> 4).setWidth 4 ∧ t.cairn.vidBefore = s.cairn.vidNow ∧
      t.reg (.dev .mode) = (v &&& 0x1F1).setWidth 64 ∧ OtherRegs s t [.dev .mode]) ∧
  (∀ s d v, Writes s d 0 → s.modeRefusal v = 0 → s.cairn.mode = .base → v.getLsbD 0 = true → s.cairn.hi ≤ s.tmax →
    Does (.modeWrite d v) s fun t => t.cairn = { s.cairn with mode := .held } ∧ t.reg (.dev .mode) = (v &&& 0x1F1).setWidth 64 ∧ OtherRegs s t [.dev .mode]) ∧
  (∀ s d v, Writes s d 0 → s.modeRefusal v = 0 → s.cairn.mode = .summit → v.getLsbD 0 = true →
    Does (.modeWrite d v) s fun t => t.cairn = { s.cairn with vidNow := (v >>> 4).setWidth 4 } ∧ t.reg (.dev .mode) = (v &&& 0x1F1).setWidth 64 ∧
      OtherRegs s t [.dev .mode]) ∧
  (∀ s d v, Writes s d 0 → s.modeRefusal v = 0 → s.cairn.mode ≠ .raising → v.getLsbD 0 = false →
    Does (.modeWrite d v) s fun t => t.cairn = { s.cairn with mode := .base, vidNow := (v >>> 4).setWidth 4 } ∧ t.reg (.dev .mode) = (v &&& 0x1F1).setWidth 64 ∧
      OtherRegs s t [.dev .mode]) ∧
  (∀ s d v, Writes s d 0 → s.modeRefusal v ≠ 0 → s.sameMode v = false →
    Does (.modeWrite d v) s fun t => t.cairn = { s.cairn with reason := s.modeRefusal v } ∧ SameRegs s t) ∧
  (∀ s, s.cairn.mode = .raising →
    Does .raiseConfirmed s fun t => t.cairn.mode = .summit ∧ t.cairn.vidNow = s.cairn.vidNow ∧ t.cairn.smbEvt.getLsbD 0 = true ∧ t.rb (.fn 0 .crnEvt) 0 = true ∧
      OtherRegs (s.waitFrom s.cairn.vidAt (us 200)) t [.fn 0 .crnEvt]) ∧
  (∀ s, s.cairn.mode = .raising →
    Does .raiseTimeout s fun t => t.cairn.mode = .base ∧ t.cairn.vidNow = s.cairn.vidBefore ∧ t.cairn.reason = 4 ∧ t.rb (.dev .mode) 0 = false ∧
      t.rb (.fn 0 .crnEvt) 1 = true ∧ OtherRegs (s.waitFrom s.cairn.vidAt (ms 2)) t [.dev .mode, .fn 0 .crnEvt]) ∧
  (∀ s h, s.cairn.mode = .summit → s.cairn.hotSince = some h →
    Does .govFallback s fun t => t.cairn.mode = .held ∧ t.cairn.vidNow = s.cairn.fbVid ∧
      t.cairn.fallbacks = (if s.cairn.fallbacks = 0xFF then 0xFF else s.cairn.fallbacks + 1) ∧ t.rb (.fn 0 .crnEvt) 2 = true ∧ t.reg (.dev .mode) = s.reg (.dev .mode)) ∧
  (∀ s h, s.cairn.mode = .held → s.cairn.coolSince = some h → s.rb (.dev .mode) 8 = true →
    Does .govReturn s fun t => t.cairn.mode = .raising ∧ t.cairn.vidNow = BitVec.ofNat 4 (s.rf (.dev .mode) 4 4) ∧ t.cairn.vidBefore = s.cairn.vidNow ∧
      t.rb (.fn 0 .crnEvt) 3 = true ∧ t.reg (.dev .mode) = s.reg (.dev .mode)) ∧
  (∀ s d v, Writes s d 0 → s.cairn.running = true → s.govOk v = true →
    Does (.govWrite d false v) s fun t => t.rf (.crn .gov) 0 28 = v.toNat % 2 ^ 28 ∧ OtherRegs s t [.crn .gov] ∧ t.cairn = s.cairn) ∧
  (∀ s d v, Writes s d 0 → s.cairn.running = true →
    Does (.govWrite d true v) s fun t => t.rf (.crn .govhold) 0 16 = v.toNat % 2 ^ 16 ∧ OtherRegs s t [.crn .govhold] ∧ t.cairn = s.cairn) ∧
  (∀ s d v, Writes s d 0 → s.cairn.running = false ∨ (s.govOk v = false ∧ s.rf (.crn .gov) 0 28 ≠ v.toNat % 2 ^ 28) →
    Does (.govWrite d false v) s fun t => SameRegs s t ∧ t.cairn = s.cairn)

/-- Samples of temperature, rails, paces and ages are taken, with what each one watches (the raw instant since which a watch runs is the model's: log
30). Temperatures are taken once the boot has read the calibration. The service firmware restarts, with its cause, and with a WINDOW record of the
address before it where it left a window; it comes back. The scrub counts a corrected error, and an uncorrected one zeroes the line of Tarn or the
filter element (the numbers of the memories are the model's: log 31). A record of the intake goes to the log, after an ANCHOR where one is due, or is
counted as lost where the log is full and stops, or as dropped beyond its domain's rate. CLEAR leaves an ANCHOR and a LOST record. Rests on R434,
R435, R436, R437, R443, R447, R450, R451, R468. -/
def Obligations.SensorsServiceAndLog : Prop :=
  (∀ s q, s.dev.otpRead = true → Does (.sensorSample (.temp q)) s fun t => (∀ i : Fin 6, t.cairn.felt[i] = q.getD i.val s.cairn.felt[i]) ∧
      t.cairn.temps = (if s.cairn.running then t.cairn.felt else s.cairn.temps) ∧ t.cairn.mode = s.cairn.mode ∧
      t.cairn.hotSince = (if t.cairn.hi ≤ t.tmax then some (s.cairn.hotSince.getD s.raw) else none) ∧
      t.cairn.coolSince = (if t.tmax ≤ t.cairn.lo then some (s.cairn.coolSince.getD s.raw) else none) ∧
      t.cairn.alert = (if s.cairn.alert then !decide (t.tmax < t.cairn.alertAt - 20) else decide (t.cairn.alertAt ≤ t.tmax)) ∧
      (s.cairn.alert = false → t.cairn.alert = true → t.rb (.fn 0 .crnEvt) 4 = true)) ∧
  (∀ s mv, s.cairn.running = true →
    Does (.sensorSample (.rail mv)) s fun t => (∀ i : Fin 8, t.cairn.rails[i] = mv.getD i.val s.cairn.rails[i]) ∧
      (∀ i : Fin 4, t.cairn.railOut[i] = (watch s.cairn.railOut[i] (s.railBad i.val t.cairn.rails[(fin 8 i.val : Fin 8)]) s.raw (ms 1)).1) ∧
      ((∃ i : Fin 4, (watch s.cairn.railOut[i] (s.railBad i.val t.cairn.rails[(fin 8 i.val : Fin 8)]) s.raw (ms 1)).2 = true) → t.rb (.fn 0 .crnEvt) 5 = true) ∧
      t.cairn.mode = s.cairn.mode ∧ t.cairn.vidNow = s.cairn.vidNow) ∧
  (∀ s ps, s.cairn.running = true →
    Does (.sensorSample (.pace ps)) s fun t => (∀ i : Fin 12, t.cairn.paces[i] = ps.getD i.val s.cairn.paces[i]) ∧
      (∀ i : Fin 12, t.cairn.paceOut[i] =
        (watch s.cairn.paceOut[i] (decide ((if s.cairn.mode = .summit then 833 else 1250) < t.cairn.paces[i])) s.raw (ms 10)).1)) ∧
  (∀ s ppm, s.cairn.running = true →
    Does (.sensorSample (.age ppm)) s fun t => (∀ i : Fin 4, t.cairn.ages[i] = ppm.getD i.val s.cairn.ages[i]) ∧
      (∀ i : Fin 4, t.cairn.ageLogged[i] = (s.cairn.ageLogged[i] || decide (2000 < t.cairn.ages[i]))) ∧ SameRegs s t) ∧
  (∀ s cause, s.cairn.running = true → s.dev.absent.getLsbD 0 = false → s.log.intake.length < 256 →
    Does (.svcRestart ⟨cause, none⟩) s fun t => t.cairn.running = false ∧ t.rb (.fn 0 .crnEvt) 8 = true ∧ OtherRegs s t [.fn 0 .crnEvt] ∧
      ∃ r, Logged s t [(s.raw, r)] ∧ r.source = 0x0C ∧ r.code = 0x07 ∧ r.arg0 = cause) ∧
  (∀ s cause a, s.cairn.running = true → s.dev.absent.getLsbD 0 = false → s.log.intake.length < 255 →
    Does (.svcRestart ⟨cause, some a⟩) s fun t => t.cairn.running = false ∧ t.rb (.fn 0 .crnEvt) 8 = true ∧ OtherRegs s t [.fn 0 .crnEvt] ∧
      ∃ v r, Logged s t [(s.raw, v), (s.raw, r)] ∧ v.arg0 = 0x40 ∧ v.arg1 = a ∧ r.source = 0x0C ∧ r.code = 0x07) ∧
  (∀ s, s.dev.cairnUp = true → s.cairn.running = false → s.dev.absent.getLsbD 0 = false →
    Does .svcRestartEnd s fun t => t.cairn = { s.cairn with running := true, runAt := s.raw, last := none } ∧ SameRegs s t ∧ Logged s t []) ∧
  (∀ s m addr, Does (.scrub m addr false) s fun t => t.cairn = { s.cairn with corrected := (s.cairn.corrected + 1) % 2 ^ 24 } ∧ SameRegs s t ∧ Logged s t [] ∧
      t.tarn = s.tarn ∧ t.flt = s.flt) ∧
  (∀ s line addr, line < 61440 →
    Does (.scrub (.tarn line) addr true) s fun t => (∀ a, Tbl.get 0 t.tarn a = if a / 64 = line then 0 else Tbl.get 0 s.tarn a) ∧
      t.cairn.uncorr = (if s.cairn.uncorr = 0xFF then 0xFF else s.cairn.uncorr + 1) ∧ t.rb (.fn 0 .crnEvt) 7 = true ∧ OtherRegs s t [.fn 0 .crnEvt]) ∧
  (∀ s e addr, TablesOk s →
    Does (.scrub (.filter e) addr true) s fun t => (∀ i, Tbl.get 0 t.flt i = if i = e then 0 else Tbl.get 0 s.flt i) ∧ t.tarn = s.tarn ∧
      t.rb (.fn 0 .crnEvt) 7 = true ∧ OtherRegs s t [.fn 0 .crnEvt]) ∧
  (∀ s raw r rest, s.log.intake = (raw, r) :: rest → s.cairn.running = true → s.log.owed = 0 → 16 ≤ r.dom.toNat → s.logFull = false → s.anchorDue = false →
      s.log.recs.length < 16384 →
    Does .logIntake s fun t => Queued t rest ∧ t.log.recs = s.log.recs ++ [(s.log.next, r)] ∧ t.log.next = (s.log.next + 1) % 2 ^ 32 ∧
      t.log.sinceClear = s.log.sinceClear + 1 ∧ t.log.fullLost = s.log.fullLost) ∧
  (∀ s raw r rest, s.log.intake = (raw, r) :: rest → s.cairn.running = true → s.log.owed = 0 → 16 ≤ r.dom.toNat → s.rb (.crn .logcfg) 0 = false →
      s.anchorDue = true → s.log.recs.length + 1 < 16384 →
    Does .logIntake s fun t => Queued t rest ∧ t.log.next = ((s.log.next + 1) % 2 ^ 32 + 1) % 2 ^ 32 ∧
      ∃ a, t.log.recs = s.log.recs ++ [(s.log.next, a), ((s.log.next + 1) % 2 ^ 32, r)] ∧ isAnchor a = true ∧ anchorTime a = s.now) ∧
  (∀ s raw r rest, s.log.intake = (raw, r) :: rest → s.cairn.running = true → s.log.owed = 0 → 16 ≤ r.dom.toNat → s.logFull = true →
    Does .logIntake s fun t => Queued t rest ∧ t.log.recs = s.log.recs ∧ t.log.fullLost = s.log.fullLost + 1 ∧
      ((∀ e x, s.rb (.evcSrc e x) 13 = false) → t.log.lost = s.log.lost + 1)) ∧
  (∀ s raw r rest (d : Dom), s.log.intake = (raw, r) :: rest → s.cairn.running = true → s.log.owed = 0 → r.dom.toNat = d.val → (s.entry d).logRate ≠ 0 →
      (s.func d).logInterval = logInterval raw → (s.entry d).logRate ≤ (s.func d).logCount →
    Does .logIntake s fun t => Queued t rest ∧ t.log.recs = s.log.recs ∧ (t.func d).logDropped = (s.func d).logDropped + 1 ∧ SameRegs s t) ∧
  (∀ s d v, Writes s d 0 → s.cairn.running = true → v.getLsbD 1 = true →
    Does (.logClear d v) s fun t => ∃ a l, t.log.recs = [(s.log.next, a), ((s.log.next + 1) % 2 ^ 32, l)] ∧ isAnchor a = true ∧ l.source = 0 ∧ l.code = 4 ∧
      l.arg0 = BitVec.ofNat 32 s.log.fullLost ∧ t.log.fullLost = 0 ∧ t.log.sinceClear = 2 ∧ Queued t s.log.intake)

/-- What the service firmware answers over SMBus. MCTP control: the endpoint ID is set or refused, and read; UUID, versions, message types and the one
vendor-defined entry are given. Hetrum messages: each has its effect and its answer with the right that it needs; SET_MODE without the right is
answered NO_RIGHT, STAGE while the owner holds the area and ACTIVATE of a busy slot, or while an activation runs, BUSY; ACTIVATE begins an activation,
whose answer leaves before it ends (log 33); a request with an unknown command or version, which comes in packets with their PEC (log 73), and an
alert response are answered. Nothing is answered while the firmware is out. The header bytes of MCTP control and the order of NO_RIGHT and INVALID are
the model's (log 15). Rests on R455, R456, R457, R458, R465. -/
def Obligations.ManagementMessages : Prop :=
  (∀ s eid, s.cairn.running = true → eid ≠ 0 → eid ≠ 0xFF →
    Does (.setEndpointId eid) s fun t => Sends s t (.smbus [0x00, 0x01, 0x00, 0x00, eid, 0x00]) ∧ t.cairn = { s.cairn with eid := eid } ∧ SameRegs s t) ∧
  (∀ s eid, s.cairn.running = true → eid = 0 ∨ eid = 0xFF →
    Does (.setEndpointId eid) s fun t => Sends s t (.smbus [0x00, 0x01, 0x02, 0x00, s.cairn.eid, 0x00]) ∧ t.cairn = s.cairn) ∧
  (∀ s, s.cairn.running = true → Does .getEndpointId s fun t => Sends s t (.smbus [0x00, 0x02, 0x00, s.cairn.eid, 0x00, 0x00]) ∧ t.cairn = s.cairn) ∧
  (∀ s, s.cairn.running = true → Does .getEndpointUuid s fun t => Sends s t (.smbus ([0x00, 0x03, 0x00] ++ beBytes 16 Config.mctpUuid.toNat)) ∧ t.cairn = s.cairn) ∧
  (∀ s m, s.cairn.running = true → m = 0xFF ∨ m = 0x00 ∨ m = 0x7E →
    Does (.getMctpVersionSupport m) s fun t => Sends s t (.smbus ([0x00, 0x04, 0x00] ++ Config.mctpVersions m.toNat)) ∧ t.cairn = s.cairn) ∧
  (∀ s m, s.cairn.running = true → m ≠ 0xFF → m ≠ 0x00 → m ≠ 0x7E →
    Does (.getMctpVersionSupport m) s fun t => Sends s t (.smbus [0x00, 0x04, 0x80]) ∧ t.cairn = s.cairn) ∧
  (∀ s, s.cairn.running = true → Does .getMessageTypeSupport s fun t => Sends s t (.smbus [0x00, 0x05, 0x00, 0x02, 0x00, 0x7E]) ∧ t.cairn = s.cairn) ∧
  (∀ s, s.cairn.running = true →
    Does (.getVendorDefinedMsgSupport 0) s fun t =>
      Sends s t (.smbus ([0x00, 0x06, 0x00, 0xFF, 0x00] ++ beBytes 2 Config.vendorId.toNat ++ [0x00, 0x01])) ∧ t.cairn = s.cairn) ∧
  (∀ s x, s.cairn.running = true → x ≠ 0 → Does (.getVendorDefinedMsgSupport x) s fun t => Sends s t (.smbus [0x00, 0x06, 0x02]) ∧ t.cairn = s.cairn) ∧
  (∀ s inst, s.cairn.running = true → s.smbRight 0 = true →
    Does (.getSensors inst []) s fun t => Sends s t (.smbus (hetrumHead inst 0x01 0x00 ++ (s.sensorBytes ++ leBytes 4 s.mstat.toNat))) ∧ t.cairn = s.cairn ∧
      SameRegs s t) ∧
  (∀ s inst req, s.cairn.running = true → s.smbRight 5 = true → req.length = 4 → s.modeRefusal (BitVec.ofNat 32 (leAt req 0 4)) = 0 → s.cairn.mode = .summit →
      (BitVec.ofNat 32 (leAt req 0 4)).getLsbD 0 = false →
    Does (.setMode inst req) s fun t => Sends s t (.smbus (hetrumHead inst 0x02 0x00 ++ leBytes 4 t.mstat.toNat)) ∧ t.cairn.mode = .base ∧
      t.cairn.vidNow = BitVec.ofNat 4 (leAt req 0 4 / 16) ∧ t.reg (.dev .mode) = BitVec.ofNat 64 (leAt req 0 4) &&& 0x1F1 ∧ OtherRegs s t [.dev .mode]) ∧
  (∀ s inst req, s.cairn.running = true → s.smbRight 5 = false →
    Does (.setMode inst req) s fun t => Sends s t (.smbus (hetrumHead inst 0x02 0x01)) ∧ t.cairn = s.cairn ∧ SameRegs s t ∧ Logged s t []) ∧
  (∀ s inst req, s.cairn.running = true → s.smbRight 1 = true → req.length = 32 →
    Does (.getAttest inst req) s fun t => Sends s t (.smbus (hetrumHead inst 0x03 0x00 ++ s.report 0xFF 2 0 req)) ∧ t.belay = s.belay ∧
      t.cairn = s.cairn ∧ SameRegs s t) ∧
  (∀ s inst req, s.cairn.running = true → s.smbRight 2 = true ∨ s.smbRight 3 = true → req.length = 5 → 1 ≤ leAt req 4 1 → leAt req 4 1 ≤ 60 →
    Does (.getLog inst req) s fun t => Sends s t (.smbus (hetrumHead inst 0x04 0x00 ++ (leBytes 4 (s.snapshot s.smbusView (leAt req 0 4) (leAt req 4 1)).2 ++
        leBytes 2 (s.snapshot s.smbusView (leAt req 0 4) (leAt req 4 1)).1.length ++ s.snapshotBytes (s.snapshot s.smbusView (leAt req 0 4) (leAt req 4 1)).1))) ∧
      Logged s t [] ∧ t.cairn = s.cairn) ∧
  (∀ s inst req, s.cairn.running = true → s.smbRight 4 = true → req.length = 260 → leAt req 0 4 = 0 → s.cairn.holder = .none_ →
    Does (.stage inst req true) s fun t => Sends s t (.smbus (hetrumHead inst 0x05 0x00)) ∧ t.cairn.holder = .smbus ∧ t.stagedBytes 0 256 = req.drop 4 ∧
      t.cairn.comps = s.cairn.comps ∧ SameRegs s t) ∧
  (∀ s inst req p, s.cairn.running = true → s.smbRight 4 = true → req.length = 260 → leAt req 0 4 % 256 = 0 → leAt req 0 4 + 256 ≤ stagingSize → s.cairn.holder = .owner →
    Does (.stage inst req p) s fun t => Sends s t (.smbus (hetrumHead inst 0x05 0x03)) ∧ t.cairn = s.cairn) ∧
  (∀ s inst req p c, s.cairn.running = true → s.smbRight 4 = true → req.length = 3 → slotOk (leAt req 2 1) = true → compIx (leAt req 0 2) = some c →
      s.slotBusy c (leAt req 2 1) = true ∨ s.cairn.activating.isSome = true →
    Does (.activate inst req p) s fun t => Sends s t (.smbus (hetrumHead inst 0x06 0x03)) ∧ t.cairn = s.cairn ∧ SameRegs s t) ∧
  (∀ s inst req c, s.cairn.running = true → s.smbRight 4 = true → req.length = 3 → leAt req 2 1 = 128 → compIx (leAt req 0 2) = some c →
      s.cairn.activating = none →
    Does (.activate inst req true) s fun t => Sends s t (.smbus (hetrumHead inst 0x06 0x00)) ∧ (∃ a, t.cairn.activating = some a ∧ a.comp = c ∧ a.slotB = false ∧
        a.inPlace = true ∧ a.op = none ∧ a.who = .smbus ∧ a.reason = s.inPlaceReason c (s.comp c).a true) ∧ t.cairn.comps = s.cairn.comps ∧ SameRegs s t) ∧
  (∀ s inst, s.cairn.running = true →
    Does (.getStatus inst []) s fun t => Sends s t (.smbus (hetrumHead inst 0x07 0x00 ++ (leBytes 4 s.imgstat.toNat ++
        (List.finRange 7).flatMap (fun c => leBytes 4 (s.slotWord c).toNat) ++ leBytes 4 s.cairn.smbEvt.toNat))) ∧ t.cairn = s.cairn) ∧
  (∀ s inst, s.cairn.running = true → s.smbRight 6 = true →
    Does (.smbusReset inst []) s fun t => Sends s t (.smbus (hetrumHead inst 0x08 0x00)) ∧ t.cairn = { s.cairn with resetDue := true } ∧ SameRegs s t) ∧
  (∀ s inst req, s.cairn.running = true → req.length = 4 →
    Does (.clearAlert inst req) s fun t => t.cairn = { s.cairn with smbEvt := s.cairn.smbEvt &&& ~~~ (BitVec.ofNat 12 (leAt req 0 4)) } ∧
      Sends s t (.smbus (hetrumHead inst 0x09 0x00 ++ leBytes 4 t.cairn.smbEvt.toNat))) ∧
  (∀ s, s.cairn.running = true → s.smbAlert = true →
    Does .alertResponse s fun t => Sends s t (.smbus [BitVec.ofNat 8 (2 * s.rf (.crn .smb) 0 7)]) ∧ t.cairn = s.cairn) ∧
  (∀ s packets bs, s.cairn.running = true → s.mctpMessage packets = some bs → hetrumUnknown bs = true →
    Does (.unsupportedMctpMessage packets) s fun t => Sends s t (.smbus (hetrumHead (BitVec.ofNat 5 (leAt bs 4 1)) (bs.getD 5 0) 0x04)) ∧ t.cairn = s.cairn) ∧
  (∀ s, s.cairn.running = false → Does .getEndpointId s fun t => t = s)
end

