-- ==== Sys2Proof/Laws/Tables.lean ====
section
/-! SUPPORT. Sparse tables and the register file: read after write, and the canonical form that every operation keeps. -/
namespace Sys2Proof.Machine

variable {α : Type} [DecidableEq α] {dflt : α}

/-! ### Tables -/

theorem Tbl.get_put_same (t : Tbl α) (i : Nat) (v : α) (h : Tbl.wf dflt t = true) : Tbl.get dflt (Tbl.put dflt t i v) i = v := by
  have low : ∀ r : Tbl α, (∀ e ∈ r, i < e.1) → Tbl.get dflt r i = dflt := by
    intro r
    induction r with
    | nil => intro _; rfl
    | cons e r ih =>
      intro hr
      have h1 := hr e (by simp)
      simp only [Tbl.get]
      rw [if_neg (by omega)]
      exact ih (fun x hx => hr x (by simp [hx]))
  induction t with
  | nil => by_cases hv : v = dflt <;> simp [Tbl.put, Tbl.get, hv]
  | cons e r ih =>
    obtain ⟨k, u⟩ := e
    simp only [Tbl.wf, Bool.and_eq_true, decide_eq_true_eq, List.all_eq_true] at h
    obtain ⟨⟨hu, hk⟩, hr⟩ := h
    simp only [Tbl.put]
    split
    · rename_i hlt
      split
      · rename_i hv
        rw [hv]
        exact low _ (fun e he => by
          rcases List.mem_cons.mp he with rfl | he
          · exact hlt
          · exact Nat.lt_trans hlt (hk e he))
      · simp [Tbl.get]
    · split
      · rename_i hik
        split
        · rename_i hv
          rw [hv]
          exact low _ (fun e he => hik ▸ hk e he)
        · simp [Tbl.get]
      · rename_i hne
        simp only [Tbl.get]
        rw [if_neg (by omega)]
        exact ih hr

theorem Tbl.get_put_other (t : Tbl α) (i j : Nat) (v : α) (hij : j ≠ i) : Tbl.get dflt (Tbl.put dflt t i v) j = Tbl.get dflt t j := by
  induction t with
  | nil => simp only [Tbl.put]; split <;> simp [Tbl.get, Ne.symm hij]
  | cons e r ih =>
    obtain ⟨k, u⟩ := e
    simp only [Tbl.put]
    split
    · split <;> simp [Tbl.get, Ne.symm hij]
    · split
      · rename_i hik
        subst hik
        split <;> simp [Tbl.get, Ne.symm hij]
      · simp only [Tbl.get, ih]

theorem Tbl.put_low (t : Tbl α) (k i : Nat) (v : α) (hki : k < i) (h : ∀ e ∈ t, k < e.1) : ∀ e ∈ Tbl.put dflt t i v, k < e.1 := by
  induction t with
  | nil =>
    intro e he
    simp only [Tbl.put] at he
    split at he
    · simp at he
    · simp at he; rw [he]; exact hki
  | cons x r ih =>
    obtain ⟨q, u⟩ := x
    have hq := h (q, u) (by simp)
    have hr : ∀ e ∈ r, k < e.1 := fun e he => h e (by simp [he])
    intro e he
    simp only [Tbl.put] at he
    split at he
    · split at he
      · exact h e he
      · rcases List.mem_cons.mp he with rfl | he
        · exact hki
        · exact h e he
    · split at he
      · split at he
        · exact hr e he
        · rcases List.mem_cons.mp he with rfl | he
          · exact hki
          · exact hr e he
      · rcases List.mem_cons.mp he with rfl | he
        · exact hq
        · exact ih hr e he

theorem Tbl.wf_put (t : Tbl α) (i : Nat) (v : α) (h : Tbl.wf dflt t = true) : Tbl.wf dflt (Tbl.put dflt t i v) = true := by
  induction t with
  | nil => simp only [Tbl.put]; split <;> simp_all [Tbl.wf]
  | cons e r ih =>
    obtain ⟨k, u⟩ := e
    have h' := h
    simp only [Tbl.wf, Bool.and_eq_true, decide_eq_true_eq, List.all_eq_true] at h
    obtain ⟨⟨hu, hk⟩, hr⟩ := h
    simp only [Tbl.put]
    split
    · rename_i hlt
      split
      · exact h'
      · rename_i hv
        simp only [Tbl.wf, Bool.and_eq_true, decide_eq_true_eq, List.all_eq_true]
        refine ⟨⟨hv, ?_⟩, ⟨hu, hk⟩, hr⟩
        intro e he
        rcases List.mem_cons.mp he with rfl | he
        · exact hlt
        · exact Nat.lt_trans hlt (hk e he)
    · split
      · rename_i hik
        split
        · exact hr
        · rename_i hv
          simp only [Tbl.wf, Bool.and_eq_true, decide_eq_true_eq, List.all_eq_true]
          exact ⟨⟨hv, fun e he => hik ▸ hk e he⟩, hr⟩
      · simp only [Tbl.wf, Bool.and_eq_true, decide_eq_true_eq, List.all_eq_true]
        exact ⟨⟨hu, Tbl.put_low r k i v (by omega) hk⟩, ih hr⟩

theorem Tbl.wf_filter (t : Tbl α) (p : Nat × α → Bool) (h : Tbl.wf dflt t = true) : Tbl.wf dflt (t.filter p) = true := by
  induction t with
  | nil => rfl
  | cons e r ih =>
    obtain ⟨k, u⟩ := e
    simp only [Tbl.wf, Bool.and_eq_true, decide_eq_true_eq, List.all_eq_true] at h
    obtain ⟨⟨hu, hk⟩, hr⟩ := h
    by_cases hp : p (k, u) = true
    · simp only [List.filter_cons, hp, if_true, Tbl.wf, Bool.and_eq_true, decide_eq_true_eq, List.all_eq_true]
      exact ⟨⟨hu, fun e he => hk e (List.mem_filter.mp he).1⟩, ih hr⟩
    · simp only [List.filter_cons, hp]
      exact ih hr

theorem Tbl.wf_drop (t : Tbl α) (p : Nat → Bool) (h : Tbl.wf dflt t = true) : Tbl.wf dflt (Tbl.drop t p) = true := Tbl.wf_filter t _ h

theorem Tbl.wf_mapVal (t : Tbl α) (f : Nat → α → α) (h : Tbl.wf dflt t = true) : Tbl.wf dflt (Tbl.mapVal dflt t f) = true := by
  induction t with
  | nil => rfl
  | cons e r ih =>
    obtain ⟨k, u⟩ := e
    simp only [Tbl.wf, Bool.and_eq_true, decide_eq_true_eq, List.all_eq_true] at h
    obtain ⟨⟨hu, hk⟩, hr⟩ := h
    have hr' := ih hr
    unfold Tbl.mapVal at hr' ⊢
    simp only [List.map_cons, List.filter_cons]
    split
    · rename_i hv
      simp only [Tbl.wf, Bool.and_eq_true, decide_eq_true_eq, List.all_eq_true]
      refine ⟨⟨by simpa using hv, ?_⟩, hr'⟩
      intro e he
      obtain ⟨x, hx, rfl⟩ := List.mem_map.mp (List.mem_filter.mp he).1
      exact hk x hx
    · exact hr'

/-- A fold of canonical updates. -/
theorem Tbl.wf_foldl {β : Type} {l : List β} {f : Tbl α → β → Tbl α} (t : Tbl α) (hf : ∀ u x, Tbl.wf dflt u = true → Tbl.wf dflt (f u x) = true)
    (h : Tbl.wf dflt t = true) : Tbl.wf dflt (l.foldl f t) = true := by
  induction l generalizing t with
  | nil => exact h
  | cons x l ih => exact ih (f t x) (hf t x h)

omit [DecidableEq α] in
/-- A byte of a table that was removed reads as the default. -/
theorem Tbl.get_drop (t : Tbl α) (p : Nat → Bool) (i : Nat) : Tbl.get dflt (Tbl.drop t p) i = if p i then dflt else Tbl.get dflt t i := by
  induction t with
  | nil => simp [Tbl.drop, Tbl.get]
  | cons e r ih =>
    obtain ⟨k, u⟩ := e
    unfold Tbl.drop at ih ⊢
    by_cases hp : p k = true
    · simp only [List.filter_cons, hp, Bool.not_true, Tbl.get]
      by_cases hki : k = i
      · subst hki; simp [ih, hp]
      · simp [ih, hki]
    · simp only [List.filter_cons, hp, Tbl.get]
      by_cases hki : k = i
      · subst hki; simp [hp, Tbl.get]
      · simp [hki, Tbl.get, ih]

/-! ### The register file -/

theorem RegFile.mem_erase (f : RegFile) (r : Reg) (e : Reg × DWord) : e ∈ f.erase r ↔ e ∈ f ∧ e.1 ≠ r := by
  simp [RegFile.erase]

theorem RegFile.get_none (f : RegFile) (r : Reg) (h : ∀ e ∈ f, e.1 ≠ r) : f.get r = r.reset := by
  induction f with
  | nil => rfl
  | cons e t ih =>
    obtain ⟨q, w⟩ := e
    simp only [RegFile.get]
    rw [if_neg (h (q, w) (by simp))]
    exact ih (fun x hx => h x (by simp [hx]))

theorem RegFile.get_insert_same (f : RegFile) (r : Reg) (w : DWord) (h : ∀ e ∈ f, e.1 ≠ r) : (f.insert r w).get r = w := by
  induction f with
  | nil => simp [RegFile.insert, RegFile.get]
  | cons e t ih =>
    obtain ⟨q, u⟩ := e
    have hq := h (q, u) (by simp)
    have ht := ih (fun x hx => h x (by simp [hx]))
    simp only [RegFile.insert]
    split
    · simp [RegFile.get]
    · simp only [RegFile.get]
      rw [if_neg hq]
      exact ht

theorem RegFile.get_insert_other (f : RegFile) (r q : Reg) (w : DWord) (h : q ≠ r) : (f.insert r w).get q = f.get q := by
  induction f with
  | nil => simp [RegFile.insert, RegFile.get, Ne.symm h]
  | cons e t ih =>
    obtain ⟨x, u⟩ := e
    simp only [RegFile.insert]
    split
    · simp [RegFile.get, Ne.symm h]
    · simp only [RegFile.get, ih]

theorem RegFile.get_erase_other (f : RegFile) (r q : Reg) (h : q ≠ r) : (f.erase r).get q = f.get q := by
  induction f with
  | nil => rfl
  | cons e t ih =>
    obtain ⟨x, u⟩ := e
    unfold RegFile.erase at ih ⊢
    simp only [List.filter_cons]
    split
    · simp only [RegFile.get, ih]
    · rename_i hx
      have hx : x = r := by simpa using hx
      rw [ih, RegFile.get, if_neg (fun hq => h (hq.symm.trans hx))]

/-- A register reads as it was last written. -/
@[simp] theorem RegFile.get_set_same (f : RegFile) (r : Reg) (w : DWord) : (f.set r w).get r = w := by
  have hn : ∀ e ∈ f.erase r, e.1 ≠ r := fun e he => ((RegFile.mem_erase f r e).mp he).2
  unfold RegFile.set
  split
  · rename_i hw; rw [RegFile.get_none _ _ hn, hw]
  · exact RegFile.get_insert_same _ _ _ hn

/-- A write leaves every other register alone. -/
theorem RegFile.get_set_other (f : RegFile) (r q : Reg) (w : DWord) (h : q ≠ r) : (f.set r w).get q = f.get q := by
  unfold RegFile.set
  split
  · exact RegFile.get_erase_other f r q h
  · rw [RegFile.get_insert_other _ _ _ _ h, RegFile.get_erase_other f r q h]

theorem RegFile.wf_filter (f : RegFile) (p : Reg × DWord → Bool) (h : RegFile.wf f = true) : RegFile.wf (f.filter p) = true := by
  induction f with
  | nil => rfl
  | cons e t ih =>
    obtain ⟨r, w⟩ := e
    simp only [RegFile.wf, Bool.and_eq_true, decide_eq_true_eq, List.all_eq_true] at h
    obtain ⟨⟨hw, hk⟩, ht⟩ := h
    by_cases hp : p (r, w) = true
    · simp only [List.filter_cons, hp, if_true, RegFile.wf, Bool.and_eq_true, decide_eq_true_eq, List.all_eq_true]
      exact ⟨⟨hw, fun e he => hk e (List.mem_filter.mp he).1⟩, ih ht⟩
    · simp only [List.filter_cons, hp]
      exact ih ht

theorem RegFile.mem_insert (f : RegFile) (r : Reg) (w : DWord) (e : Reg × DWord) : e ∈ f.insert r w ↔ e = (r, w) ∨ e ∈ f := by
  induction f with
  | nil => simp [RegFile.insert]
  | cons x t ih =>
    obtain ⟨q, u⟩ := x
    simp only [RegFile.insert]
    split
    · simp
    · simp only [List.mem_cons, ih, or_left_comm]

theorem RegFile.wf_insert (f : RegFile) (r : Reg) (w : DWord) (hw : w ≠ r.reset) (hn : ∀ e ∈ f, e.1 ≠ r) (h : RegFile.wf f = true) :
    RegFile.wf (f.insert r w) = true := by
  induction f with
  | nil => simp [RegFile.insert, RegFile.wf, hw]
  | cons x t ih =>
    obtain ⟨q, u⟩ := x
    have h' := h
    simp only [RegFile.wf, Bool.and_eq_true, decide_eq_true_eq, List.all_eq_true] at h
    obtain ⟨⟨hu, hk⟩, ht⟩ := h
    simp only [RegFile.insert]
    split
    · rename_i hlt
      simp only [RegFile.wf, Bool.and_eq_true, decide_eq_true_eq, List.all_eq_true]
      refine ⟨⟨hw, ?_⟩, ⟨hu, hk⟩, ht⟩
      intro e he
      refine ⟨?_, hn e he⟩
      rcases List.mem_cons.mp he with rfl | he
      · exact Nat.le_of_lt hlt
      · exact Nat.le_trans (Nat.le_of_lt hlt) (hk e he).1
    · rename_i hge
      simp only [RegFile.wf, Bool.and_eq_true, decide_eq_true_eq, List.all_eq_true]
      refine ⟨⟨hu, ?_⟩, ih (fun e he => hn e (by simp [he])) ht⟩
      intro e he
      rcases (RegFile.mem_insert t r w e).mp he with rfl | he
      · exact ⟨by show q.key ≤ r.key; omega, fun hc => hn (q, u) (by simp) hc.symm⟩
      · exact hk e he

theorem RegFile.wf_set (f : RegFile) (r : Reg) (w : DWord) (h : RegFile.wf f = true) : RegFile.wf (f.set r w) = true := by
  unfold RegFile.set
  split
  · exact RegFile.wf_filter f _ h
  · rename_i hw
    exact RegFile.wf_insert _ r w hw (fun e he => ((RegFile.mem_erase f r e).mp he).2) (RegFile.wf_filter f _ h)

theorem RegFile.wf_foldl {β : Type} {l : List β} {g : β → Reg} {v : β → DWord} (f : RegFile) (h : RegFile.wf f = true) :
    RegFile.wf (l.foldl (fun u x => u.set (g x) (v x)) f) = true := by
  induction l generalizing f with
  | nil => exact h
  | cons x l ih => exact ih _ (RegFile.wf_set _ _ _ h)

theorem RegFile.wf_clear (f : RegFile) (p : Reg → Bool) (h : RegFile.wf f = true) : RegFile.wf (f.clear p) = true := RegFile.wf_filter f _ h

end Sys2Proof.Machine
end

