-- ==== Sys2Proof/Laws/State.lean ====
section
/-! SUPPORT. The plain updates of the state: what each leaves as it was, and what reading after it gives. -/
namespace Sys2Proof.Machine

variable (s : State)

/-! ### setReg -/

@[simp] theorem State.setReg_pending (r : Reg) (w : DWord) : (s.setReg r w).pending = s.pending := rfl
@[simp] theorem State.setReg_out (r : Reg) (w : DWord) : (s.setReg r w).out = s.out := rfl
@[simp] theorem State.setReg_free (r : Reg) (w : DWord) : (s.setReg r w).free = s.free := rfl
@[simp] theorem State.setReg_dev (r : Reg) (w : DWord) : (s.setReg r w).dev = s.dev := rfl
@[simp] theorem State.setReg_belay (r : Reg) (w : DWord) : (s.setReg r w).belay = s.belay := rfl
@[simp] theorem State.setReg_funcs (r : Reg) (w : DWord) : (s.setReg r w).funcs = s.funcs := rfl
@[simp] theorem State.setReg_rings (r : Reg) (w : DWord) : (s.setReg r w).rings = s.rings := rfl
@[simp] theorem State.setReg_ports (r : Reg) (w : DWord) : (s.setReg r w).ports = s.ports := rfl
@[simp] theorem State.setReg_rxq (r : Reg) (w : DWord) : (s.setReg r w).rxq = s.rxq := rfl
@[simp] theorem State.setReg_pairs (r : Reg) (w : DWord) : (s.setReg r w).pairs = s.pairs := rfl
@[simp] theorem State.setReg_groups (r : Reg) (w : DWord) : (s.setReg r w).groups = s.groups := rfl
@[simp] theorem State.setReg_tarn (r : Reg) (w : DWord) : (s.setReg r w).tarn = s.tarn := rfl
@[simp] theorem State.setReg_units (r : Reg) (w : DWord) : (s.setReg r w).units = s.units := rfl
@[simp] theorem State.setReg_objs (r : Reg) (w : DWord) : (s.setReg r w).objs = s.objs := rfl
@[simp] theorem State.setReg_flt (r : Reg) (w : DWord) : (s.setReg r w).flt = s.flt := rfl
@[simp] theorem State.setReg_tmu (r : Reg) (w : DWord) : (s.setReg r w).tmu = s.tmu := rfl
@[simp] theorem State.setReg_eths (r : Reg) (w : DWord) : (s.setReg r w).eths = s.eths := rfl
@[simp] theorem State.setReg_ptp (r : Reg) (w : DWord) : (s.setReg r w).ptp = s.ptp := rfl
@[simp] theorem State.setReg_links (r : Reg) (w : DWord) : (s.setReg r w).links = s.links := rfl
@[simp] theorem State.setReg_fab (r : Reg) (w : DWord) : (s.setReg r w).fab = s.fab := rfl
@[simp] theorem State.setReg_routes (r : Reg) (w : DWord) : (s.setReg r w).routes = s.routes := rfl
@[simp] theorem State.setReg_spur (r : Reg) (w : DWord) : (s.setReg r w).spur = s.spur := rfl
@[simp] theorem State.setReg_evc (r : Reg) (w : DWord) : (s.setReg r w).evc = s.evc := rfl
@[simp] theorem State.setReg_log (r : Reg) (w : DWord) : (s.setReg r w).log = s.log := rfl
@[simp] theorem State.setReg_cairn (r : Reg) (w : DWord) : (s.setReg r w).cairn = s.cairn := rfl
@[simp] theorem State.setReg_counts (r : Reg) (w : DWord) : (s.setReg r w).counts = s.counts := rfl
@[simp] theorem State.setReg_halves (r : Reg) (w : DWord) : (s.setReg r w).halves = s.halves := rfl
@[simp] theorem State.setReg_may (r : Reg) (w : DWord) : (s.setReg r w).may = s.may := rfl

/-! ### setRf -/

@[simp] theorem State.setRf_pending (r : Reg) (lo n v : Nat) : (s.setRf r lo n v).pending = s.pending := rfl
@[simp] theorem State.setRf_out (r : Reg) (lo n v : Nat) : (s.setRf r lo n v).out = s.out := rfl
@[simp] theorem State.setRf_free (r : Reg) (lo n v : Nat) : (s.setRf r lo n v).free = s.free := rfl
@[simp] theorem State.setRf_dev (r : Reg) (lo n v : Nat) : (s.setRf r lo n v).dev = s.dev := rfl
@[simp] theorem State.setRf_belay (r : Reg) (lo n v : Nat) : (s.setRf r lo n v).belay = s.belay := rfl
@[simp] theorem State.setRf_funcs (r : Reg) (lo n v : Nat) : (s.setRf r lo n v).funcs = s.funcs := rfl
@[simp] theorem State.setRf_rings (r : Reg) (lo n v : Nat) : (s.setRf r lo n v).rings = s.rings := rfl
@[simp] theorem State.setRf_ports (r : Reg) (lo n v : Nat) : (s.setRf r lo n v).ports = s.ports := rfl
@[simp] theorem State.setRf_rxq (r : Reg) (lo n v : Nat) : (s.setRf r lo n v).rxq = s.rxq := rfl
@[simp] theorem State.setRf_pairs (r : Reg) (lo n v : Nat) : (s.setRf r lo n v).pairs = s.pairs := rfl
@[simp] theorem State.setRf_groups (r : Reg) (lo n v : Nat) : (s.setRf r lo n v).groups = s.groups := rfl
@[simp] theorem State.setRf_tarn (r : Reg) (lo n v : Nat) : (s.setRf r lo n v).tarn = s.tarn := rfl
@[simp] theorem State.setRf_units (r : Reg) (lo n v : Nat) : (s.setRf r lo n v).units = s.units := rfl
@[simp] theorem State.setRf_objs (r : Reg) (lo n v : Nat) : (s.setRf r lo n v).objs = s.objs := rfl
@[simp] theorem State.setRf_flt (r : Reg) (lo n v : Nat) : (s.setRf r lo n v).flt = s.flt := rfl
@[simp] theorem State.setRf_tmu (r : Reg) (lo n v : Nat) : (s.setRf r lo n v).tmu = s.tmu := rfl
@[simp] theorem State.setRf_eths (r : Reg) (lo n v : Nat) : (s.setRf r lo n v).eths = s.eths := rfl
@[simp] theorem State.setRf_ptp (r : Reg) (lo n v : Nat) : (s.setRf r lo n v).ptp = s.ptp := rfl
@[simp] theorem State.setRf_links (r : Reg) (lo n v : Nat) : (s.setRf r lo n v).links = s.links := rfl
@[simp] theorem State.setRf_fab (r : Reg) (lo n v : Nat) : (s.setRf r lo n v).fab = s.fab := rfl
@[simp] theorem State.setRf_routes (r : Reg) (lo n v : Nat) : (s.setRf r lo n v).routes = s.routes := rfl
@[simp] theorem State.setRf_spur (r : Reg) (lo n v : Nat) : (s.setRf r lo n v).spur = s.spur := rfl
@[simp] theorem State.setRf_evc (r : Reg) (lo n v : Nat) : (s.setRf r lo n v).evc = s.evc := rfl
@[simp] theorem State.setRf_log (r : Reg) (lo n v : Nat) : (s.setRf r lo n v).log = s.log := rfl
@[simp] theorem State.setRf_cairn (r : Reg) (lo n v : Nat) : (s.setRf r lo n v).cairn = s.cairn := rfl
@[simp] theorem State.setRf_counts (r : Reg) (lo n v : Nat) : (s.setRf r lo n v).counts = s.counts := rfl
@[simp] theorem State.setRf_halves (r : Reg) (lo n v : Nat) : (s.setRf r lo n v).halves = s.halves := rfl
@[simp] theorem State.setRf_may (r : Reg) (lo n v : Nat) : (s.setRf r lo n v).may = s.may := rfl

/-! ### raise -/

@[simp] theorem State.raise_pending (r : Reg) (i : Nat) : (s.raise r i).pending = s.pending := rfl
@[simp] theorem State.raise_out (r : Reg) (i : Nat) : (s.raise r i).out = s.out := rfl
@[simp] theorem State.raise_free (r : Reg) (i : Nat) : (s.raise r i).free = s.free := rfl
@[simp] theorem State.raise_dev (r : Reg) (i : Nat) : (s.raise r i).dev = s.dev := rfl
@[simp] theorem State.raise_belay (r : Reg) (i : Nat) : (s.raise r i).belay = s.belay := rfl
@[simp] theorem State.raise_funcs (r : Reg) (i : Nat) : (s.raise r i).funcs = s.funcs := rfl
@[simp] theorem State.raise_rings (r : Reg) (i : Nat) : (s.raise r i).rings = s.rings := rfl
@[simp] theorem State.raise_ports (r : Reg) (i : Nat) : (s.raise r i).ports = s.ports := rfl
@[simp] theorem State.raise_rxq (r : Reg) (i : Nat) : (s.raise r i).rxq = s.rxq := rfl
@[simp] theorem State.raise_pairs (r : Reg) (i : Nat) : (s.raise r i).pairs = s.pairs := rfl
@[simp] theorem State.raise_groups (r : Reg) (i : Nat) : (s.raise r i).groups = s.groups := rfl
@[simp] theorem State.raise_tarn (r : Reg) (i : Nat) : (s.raise r i).tarn = s.tarn := rfl
@[simp] theorem State.raise_units (r : Reg) (i : Nat) : (s.raise r i).units = s.units := rfl
@[simp] theorem State.raise_objs (r : Reg) (i : Nat) : (s.raise r i).objs = s.objs := rfl
@[simp] theorem State.raise_flt (r : Reg) (i : Nat) : (s.raise r i).flt = s.flt := rfl
@[simp] theorem State.raise_tmu (r : Reg) (i : Nat) : (s.raise r i).tmu = s.tmu := rfl
@[simp] theorem State.raise_eths (r : Reg) (i : Nat) : (s.raise r i).eths = s.eths := rfl
@[simp] theorem State.raise_ptp (r : Reg) (i : Nat) : (s.raise r i).ptp = s.ptp := rfl
@[simp] theorem State.raise_links (r : Reg) (i : Nat) : (s.raise r i).links = s.links := rfl
@[simp] theorem State.raise_fab (r : Reg) (i : Nat) : (s.raise r i).fab = s.fab := rfl
@[simp] theorem State.raise_routes (r : Reg) (i : Nat) : (s.raise r i).routes = s.routes := rfl
@[simp] theorem State.raise_spur (r : Reg) (i : Nat) : (s.raise r i).spur = s.spur := rfl
@[simp] theorem State.raise_evc (r : Reg) (i : Nat) : (s.raise r i).evc = s.evc := rfl
@[simp] theorem State.raise_log (r : Reg) (i : Nat) : (s.raise r i).log = s.log := rfl
@[simp] theorem State.raise_cairn (r : Reg) (i : Nat) : (s.raise r i).cairn = s.cairn := rfl
@[simp] theorem State.raise_counts (r : Reg) (i : Nat) : (s.raise r i).counts = s.counts := rfl
@[simp] theorem State.raise_halves (r : Reg) (i : Nat) : (s.raise r i).halves = s.halves := rfl
@[simp] theorem State.raise_may (r : Reg) (i : Nat) : (s.raise r i).may = s.may := rfl

/-! ### emit -/

@[simp] theorem State.emit_pending (o : Output) : (s.emit o).pending = s.pending := rfl
@[simp] theorem State.emit_free (o : Output) : (s.emit o).free = s.free := rfl
@[simp] theorem State.emit_regs (o : Output) : (s.emit o).regs = s.regs := rfl
@[simp] theorem State.emit_dev (o : Output) : (s.emit o).dev = s.dev := rfl
@[simp] theorem State.emit_belay (o : Output) : (s.emit o).belay = s.belay := rfl
@[simp] theorem State.emit_funcs (o : Output) : (s.emit o).funcs = s.funcs := rfl
@[simp] theorem State.emit_rings (o : Output) : (s.emit o).rings = s.rings := rfl
@[simp] theorem State.emit_ports (o : Output) : (s.emit o).ports = s.ports := rfl
@[simp] theorem State.emit_rxq (o : Output) : (s.emit o).rxq = s.rxq := rfl
@[simp] theorem State.emit_pairs (o : Output) : (s.emit o).pairs = s.pairs := rfl
@[simp] theorem State.emit_groups (o : Output) : (s.emit o).groups = s.groups := rfl
@[simp] theorem State.emit_tarn (o : Output) : (s.emit o).tarn = s.tarn := rfl
@[simp] theorem State.emit_units (o : Output) : (s.emit o).units = s.units := rfl
@[simp] theorem State.emit_objs (o : Output) : (s.emit o).objs = s.objs := rfl
@[simp] theorem State.emit_flt (o : Output) : (s.emit o).flt = s.flt := rfl
@[simp] theorem State.emit_tmu (o : Output) : (s.emit o).tmu = s.tmu := rfl
@[simp] theorem State.emit_eths (o : Output) : (s.emit o).eths = s.eths := rfl
@[simp] theorem State.emit_ptp (o : Output) : (s.emit o).ptp = s.ptp := rfl
@[simp] theorem State.emit_links (o : Output) : (s.emit o).links = s.links := rfl
@[simp] theorem State.emit_fab (o : Output) : (s.emit o).fab = s.fab := rfl
@[simp] theorem State.emit_routes (o : Output) : (s.emit o).routes = s.routes := rfl
@[simp] theorem State.emit_spur (o : Output) : (s.emit o).spur = s.spur := rfl
@[simp] theorem State.emit_evc (o : Output) : (s.emit o).evc = s.evc := rfl
@[simp] theorem State.emit_log (o : Output) : (s.emit o).log = s.log := rfl
@[simp] theorem State.emit_cairn (o : Output) : (s.emit o).cairn = s.cairn := rfl
@[simp] theorem State.emit_counts (o : Output) : (s.emit o).counts = s.counts := rfl
@[simp] theorem State.emit_halves (o : Output) : (s.emit o).halves = s.halves := rfl
@[simp] theorem State.emit_may (o : Output) : (s.emit o).may = s.may := rfl

/-! ### setPort -/

@[simp] theorem State.setPort_pending (p : PortId) (x : Port) : (s.setPort p x).pending = s.pending := rfl
@[simp] theorem State.setPort_out (p : PortId) (x : Port) : (s.setPort p x).out = s.out := rfl
@[simp] theorem State.setPort_free (p : PortId) (x : Port) : (s.setPort p x).free = s.free := rfl
@[simp] theorem State.setPort_regs (p : PortId) (x : Port) : (s.setPort p x).regs = s.regs := rfl
@[simp] theorem State.setPort_dev (p : PortId) (x : Port) : (s.setPort p x).dev = s.dev := rfl
@[simp] theorem State.setPort_belay (p : PortId) (x : Port) : (s.setPort p x).belay = s.belay := rfl
@[simp] theorem State.setPort_funcs (p : PortId) (x : Port) : (s.setPort p x).funcs = s.funcs := rfl
@[simp] theorem State.setPort_rings (p : PortId) (x : Port) : (s.setPort p x).rings = s.rings := rfl
@[simp] theorem State.setPort_rxq (p : PortId) (x : Port) : (s.setPort p x).rxq = s.rxq := rfl
@[simp] theorem State.setPort_pairs (p : PortId) (x : Port) : (s.setPort p x).pairs = s.pairs := rfl
@[simp] theorem State.setPort_groups (p : PortId) (x : Port) : (s.setPort p x).groups = s.groups := rfl
@[simp] theorem State.setPort_tarn (p : PortId) (x : Port) : (s.setPort p x).tarn = s.tarn := rfl
@[simp] theorem State.setPort_units (p : PortId) (x : Port) : (s.setPort p x).units = s.units := rfl
@[simp] theorem State.setPort_objs (p : PortId) (x : Port) : (s.setPort p x).objs = s.objs := rfl
@[simp] theorem State.setPort_flt (p : PortId) (x : Port) : (s.setPort p x).flt = s.flt := rfl
@[simp] theorem State.setPort_tmu (p : PortId) (x : Port) : (s.setPort p x).tmu = s.tmu := rfl
@[simp] theorem State.setPort_eths (p : PortId) (x : Port) : (s.setPort p x).eths = s.eths := rfl
@[simp] theorem State.setPort_ptp (p : PortId) (x : Port) : (s.setPort p x).ptp = s.ptp := rfl
@[simp] theorem State.setPort_links (p : PortId) (x : Port) : (s.setPort p x).links = s.links := rfl
@[simp] theorem State.setPort_fab (p : PortId) (x : Port) : (s.setPort p x).fab = s.fab := rfl
@[simp] theorem State.setPort_routes (p : PortId) (x : Port) : (s.setPort p x).routes = s.routes := rfl
@[simp] theorem State.setPort_spur (p : PortId) (x : Port) : (s.setPort p x).spur = s.spur := rfl
@[simp] theorem State.setPort_evc (p : PortId) (x : Port) : (s.setPort p x).evc = s.evc := rfl
@[simp] theorem State.setPort_log (p : PortId) (x : Port) : (s.setPort p x).log = s.log := rfl
@[simp] theorem State.setPort_cairn (p : PortId) (x : Port) : (s.setPort p x).cairn = s.cairn := rfl
@[simp] theorem State.setPort_counts (p : PortId) (x : Port) : (s.setPort p x).counts = s.counts := rfl
@[simp] theorem State.setPort_halves (p : PortId) (x : Port) : (s.setPort p x).halves = s.halves := rfl
@[simp] theorem State.setPort_may (p : PortId) (x : Port) : (s.setPort p x).may = s.may := rfl

/-! ### setGroup -/

@[simp] theorem State.setGroup_pending (k : GrpId) (x : Group) : (s.setGroup k x).pending = s.pending := rfl
@[simp] theorem State.setGroup_out (k : GrpId) (x : Group) : (s.setGroup k x).out = s.out := rfl
@[simp] theorem State.setGroup_free (k : GrpId) (x : Group) : (s.setGroup k x).free = s.free := rfl
@[simp] theorem State.setGroup_regs (k : GrpId) (x : Group) : (s.setGroup k x).regs = s.regs := rfl
@[simp] theorem State.setGroup_dev (k : GrpId) (x : Group) : (s.setGroup k x).dev = s.dev := rfl
@[simp] theorem State.setGroup_belay (k : GrpId) (x : Group) : (s.setGroup k x).belay = s.belay := rfl
@[simp] theorem State.setGroup_funcs (k : GrpId) (x : Group) : (s.setGroup k x).funcs = s.funcs := rfl
@[simp] theorem State.setGroup_rings (k : GrpId) (x : Group) : (s.setGroup k x).rings = s.rings := rfl
@[simp] theorem State.setGroup_ports (k : GrpId) (x : Group) : (s.setGroup k x).ports = s.ports := rfl
@[simp] theorem State.setGroup_rxq (k : GrpId) (x : Group) : (s.setGroup k x).rxq = s.rxq := rfl
@[simp] theorem State.setGroup_pairs (k : GrpId) (x : Group) : (s.setGroup k x).pairs = s.pairs := rfl
@[simp] theorem State.setGroup_tarn (k : GrpId) (x : Group) : (s.setGroup k x).tarn = s.tarn := rfl
@[simp] theorem State.setGroup_units (k : GrpId) (x : Group) : (s.setGroup k x).units = s.units := rfl
@[simp] theorem State.setGroup_objs (k : GrpId) (x : Group) : (s.setGroup k x).objs = s.objs := rfl
@[simp] theorem State.setGroup_flt (k : GrpId) (x : Group) : (s.setGroup k x).flt = s.flt := rfl
@[simp] theorem State.setGroup_tmu (k : GrpId) (x : Group) : (s.setGroup k x).tmu = s.tmu := rfl
@[simp] theorem State.setGroup_eths (k : GrpId) (x : Group) : (s.setGroup k x).eths = s.eths := rfl
@[simp] theorem State.setGroup_ptp (k : GrpId) (x : Group) : (s.setGroup k x).ptp = s.ptp := rfl
@[simp] theorem State.setGroup_links (k : GrpId) (x : Group) : (s.setGroup k x).links = s.links := rfl
@[simp] theorem State.setGroup_fab (k : GrpId) (x : Group) : (s.setGroup k x).fab = s.fab := rfl
@[simp] theorem State.setGroup_routes (k : GrpId) (x : Group) : (s.setGroup k x).routes = s.routes := rfl
@[simp] theorem State.setGroup_spur (k : GrpId) (x : Group) : (s.setGroup k x).spur = s.spur := rfl
@[simp] theorem State.setGroup_evc (k : GrpId) (x : Group) : (s.setGroup k x).evc = s.evc := rfl
@[simp] theorem State.setGroup_log (k : GrpId) (x : Group) : (s.setGroup k x).log = s.log := rfl
@[simp] theorem State.setGroup_cairn (k : GrpId) (x : Group) : (s.setGroup k x).cairn = s.cairn := rfl
@[simp] theorem State.setGroup_counts (k : GrpId) (x : Group) : (s.setGroup k x).counts = s.counts := rfl
@[simp] theorem State.setGroup_halves (k : GrpId) (x : Group) : (s.setGroup k x).halves = s.halves := rfl
@[simp] theorem State.setGroup_may (k : GrpId) (x : Group) : (s.setGroup k x).may = s.may := rfl

/-! ### setFunc -/

@[simp] theorem State.setFunc_pending (d : Dom) (x : Func) : (s.setFunc d x).pending = s.pending := rfl
@[simp] theorem State.setFunc_out (d : Dom) (x : Func) : (s.setFunc d x).out = s.out := rfl
@[simp] theorem State.setFunc_free (d : Dom) (x : Func) : (s.setFunc d x).free = s.free := rfl
@[simp] theorem State.setFunc_regs (d : Dom) (x : Func) : (s.setFunc d x).regs = s.regs := rfl
@[simp] theorem State.setFunc_dev (d : Dom) (x : Func) : (s.setFunc d x).dev = s.dev := rfl
@[simp] theorem State.setFunc_belay (d : Dom) (x : Func) : (s.setFunc d x).belay = s.belay := rfl
@[simp] theorem State.setFunc_rings (d : Dom) (x : Func) : (s.setFunc d x).rings = s.rings := rfl
@[simp] theorem State.setFunc_ports (d : Dom) (x : Func) : (s.setFunc d x).ports = s.ports := rfl
@[simp] theorem State.setFunc_rxq (d : Dom) (x : Func) : (s.setFunc d x).rxq = s.rxq := rfl
@[simp] theorem State.setFunc_pairs (d : Dom) (x : Func) : (s.setFunc d x).pairs = s.pairs := rfl
@[simp] theorem State.setFunc_groups (d : Dom) (x : Func) : (s.setFunc d x).groups = s.groups := rfl
@[simp] theorem State.setFunc_tarn (d : Dom) (x : Func) : (s.setFunc d x).tarn = s.tarn := rfl
@[simp] theorem State.setFunc_units (d : Dom) (x : Func) : (s.setFunc d x).units = s.units := rfl
@[simp] theorem State.setFunc_objs (d : Dom) (x : Func) : (s.setFunc d x).objs = s.objs := rfl
@[simp] theorem State.setFunc_flt (d : Dom) (x : Func) : (s.setFunc d x).flt = s.flt := rfl
@[simp] theorem State.setFunc_tmu (d : Dom) (x : Func) : (s.setFunc d x).tmu = s.tmu := rfl
@[simp] theorem State.setFunc_eths (d : Dom) (x : Func) : (s.setFunc d x).eths = s.eths := rfl
@[simp] theorem State.setFunc_ptp (d : Dom) (x : Func) : (s.setFunc d x).ptp = s.ptp := rfl
@[simp] theorem State.setFunc_links (d : Dom) (x : Func) : (s.setFunc d x).links = s.links := rfl
@[simp] theorem State.setFunc_fab (d : Dom) (x : Func) : (s.setFunc d x).fab = s.fab := rfl
@[simp] theorem State.setFunc_routes (d : Dom) (x : Func) : (s.setFunc d x).routes = s.routes := rfl
@[simp] theorem State.setFunc_spur (d : Dom) (x : Func) : (s.setFunc d x).spur = s.spur := rfl
@[simp] theorem State.setFunc_evc (d : Dom) (x : Func) : (s.setFunc d x).evc = s.evc := rfl
@[simp] theorem State.setFunc_log (d : Dom) (x : Func) : (s.setFunc d x).log = s.log := rfl
@[simp] theorem State.setFunc_cairn (d : Dom) (x : Func) : (s.setFunc d x).cairn = s.cairn := rfl
@[simp] theorem State.setFunc_counts (d : Dom) (x : Func) : (s.setFunc d x).counts = s.counts := rfl
@[simp] theorem State.setFunc_halves (d : Dom) (x : Func) : (s.setFunc d x).halves = s.halves := rfl
@[simp] theorem State.setFunc_may (d : Dom) (x : Func) : (s.setFunc d x).may = s.may := rfl

/-! ### setRing -/

@[simp] theorem State.setRing_pending (i : Nat) (x : Ring) : (s.setRing i x).pending = s.pending := rfl
@[simp] theorem State.setRing_out (i : Nat) (x : Ring) : (s.setRing i x).out = s.out := rfl
@[simp] theorem State.setRing_free (i : Nat) (x : Ring) : (s.setRing i x).free = s.free := rfl
@[simp] theorem State.setRing_regs (i : Nat) (x : Ring) : (s.setRing i x).regs = s.regs := rfl
@[simp] theorem State.setRing_dev (i : Nat) (x : Ring) : (s.setRing i x).dev = s.dev := rfl
@[simp] theorem State.setRing_belay (i : Nat) (x : Ring) : (s.setRing i x).belay = s.belay := rfl
@[simp] theorem State.setRing_funcs (i : Nat) (x : Ring) : (s.setRing i x).funcs = s.funcs := rfl
@[simp] theorem State.setRing_ports (i : Nat) (x : Ring) : (s.setRing i x).ports = s.ports := rfl
@[simp] theorem State.setRing_rxq (i : Nat) (x : Ring) : (s.setRing i x).rxq = s.rxq := rfl
@[simp] theorem State.setRing_pairs (i : Nat) (x : Ring) : (s.setRing i x).pairs = s.pairs := rfl
@[simp] theorem State.setRing_groups (i : Nat) (x : Ring) : (s.setRing i x).groups = s.groups := rfl
@[simp] theorem State.setRing_tarn (i : Nat) (x : Ring) : (s.setRing i x).tarn = s.tarn := rfl
@[simp] theorem State.setRing_units (i : Nat) (x : Ring) : (s.setRing i x).units = s.units := rfl
@[simp] theorem State.setRing_objs (i : Nat) (x : Ring) : (s.setRing i x).objs = s.objs := rfl
@[simp] theorem State.setRing_flt (i : Nat) (x : Ring) : (s.setRing i x).flt = s.flt := rfl
@[simp] theorem State.setRing_tmu (i : Nat) (x : Ring) : (s.setRing i x).tmu = s.tmu := rfl
@[simp] theorem State.setRing_eths (i : Nat) (x : Ring) : (s.setRing i x).eths = s.eths := rfl
@[simp] theorem State.setRing_ptp (i : Nat) (x : Ring) : (s.setRing i x).ptp = s.ptp := rfl
@[simp] theorem State.setRing_links (i : Nat) (x : Ring) : (s.setRing i x).links = s.links := rfl
@[simp] theorem State.setRing_fab (i : Nat) (x : Ring) : (s.setRing i x).fab = s.fab := rfl
@[simp] theorem State.setRing_routes (i : Nat) (x : Ring) : (s.setRing i x).routes = s.routes := rfl
@[simp] theorem State.setRing_spur (i : Nat) (x : Ring) : (s.setRing i x).spur = s.spur := rfl
@[simp] theorem State.setRing_evc (i : Nat) (x : Ring) : (s.setRing i x).evc = s.evc := rfl
@[simp] theorem State.setRing_log (i : Nat) (x : Ring) : (s.setRing i x).log = s.log := rfl
@[simp] theorem State.setRing_cairn (i : Nat) (x : Ring) : (s.setRing i x).cairn = s.cairn := rfl
@[simp] theorem State.setRing_counts (i : Nat) (x : Ring) : (s.setRing i x).counts = s.counts := rfl
@[simp] theorem State.setRing_halves (i : Nat) (x : Ring) : (s.setRing i x).halves = s.halves := rfl
@[simp] theorem State.setRing_may (i : Nat) (x : Ring) : (s.setRing i x).may = s.may := rfl

/-! ### setEth -/

@[simp] theorem State.setEth_pending (k : EpId) (x : EthPort) : (s.setEth k x).pending = s.pending := rfl
@[simp] theorem State.setEth_out (k : EpId) (x : EthPort) : (s.setEth k x).out = s.out := rfl
@[simp] theorem State.setEth_free (k : EpId) (x : EthPort) : (s.setEth k x).free = s.free := rfl
@[simp] theorem State.setEth_regs (k : EpId) (x : EthPort) : (s.setEth k x).regs = s.regs := rfl
@[simp] theorem State.setEth_dev (k : EpId) (x : EthPort) : (s.setEth k x).dev = s.dev := rfl
@[simp] theorem State.setEth_belay (k : EpId) (x : EthPort) : (s.setEth k x).belay = s.belay := rfl
@[simp] theorem State.setEth_funcs (k : EpId) (x : EthPort) : (s.setEth k x).funcs = s.funcs := rfl
@[simp] theorem State.setEth_rings (k : EpId) (x : EthPort) : (s.setEth k x).rings = s.rings := rfl
@[simp] theorem State.setEth_ports (k : EpId) (x : EthPort) : (s.setEth k x).ports = s.ports := rfl
@[simp] theorem State.setEth_rxq (k : EpId) (x : EthPort) : (s.setEth k x).rxq = s.rxq := rfl
@[simp] theorem State.setEth_pairs (k : EpId) (x : EthPort) : (s.setEth k x).pairs = s.pairs := rfl
@[simp] theorem State.setEth_groups (k : EpId) (x : EthPort) : (s.setEth k x).groups = s.groups := rfl
@[simp] theorem State.setEth_tarn (k : EpId) (x : EthPort) : (s.setEth k x).tarn = s.tarn := rfl
@[simp] theorem State.setEth_units (k : EpId) (x : EthPort) : (s.setEth k x).units = s.units := rfl
@[simp] theorem State.setEth_objs (k : EpId) (x : EthPort) : (s.setEth k x).objs = s.objs := rfl
@[simp] theorem State.setEth_flt (k : EpId) (x : EthPort) : (s.setEth k x).flt = s.flt := rfl
@[simp] theorem State.setEth_tmu (k : EpId) (x : EthPort) : (s.setEth k x).tmu = s.tmu := rfl
@[simp] theorem State.setEth_ptp (k : EpId) (x : EthPort) : (s.setEth k x).ptp = s.ptp := rfl
@[simp] theorem State.setEth_links (k : EpId) (x : EthPort) : (s.setEth k x).links = s.links := rfl
@[simp] theorem State.setEth_fab (k : EpId) (x : EthPort) : (s.setEth k x).fab = s.fab := rfl
@[simp] theorem State.setEth_routes (k : EpId) (x : EthPort) : (s.setEth k x).routes = s.routes := rfl
@[simp] theorem State.setEth_spur (k : EpId) (x : EthPort) : (s.setEth k x).spur = s.spur := rfl
@[simp] theorem State.setEth_evc (k : EpId) (x : EthPort) : (s.setEth k x).evc = s.evc := rfl
@[simp] theorem State.setEth_log (k : EpId) (x : EthPort) : (s.setEth k x).log = s.log := rfl
@[simp] theorem State.setEth_cairn (k : EpId) (x : EthPort) : (s.setEth k x).cairn = s.cairn := rfl
@[simp] theorem State.setEth_counts (k : EpId) (x : EthPort) : (s.setEth k x).counts = s.counts := rfl
@[simp] theorem State.setEth_halves (k : EpId) (x : EthPort) : (s.setEth k x).halves = s.halves := rfl
@[simp] theorem State.setEth_may (k : EpId) (x : EthPort) : (s.setEth k x).may = s.may := rfl

/-! ### setLink -/

@[simp] theorem State.setLink_pending (k : LinkId) (x : Link) : (s.setLink k x).pending = s.pending := rfl
@[simp] theorem State.setLink_out (k : LinkId) (x : Link) : (s.setLink k x).out = s.out := rfl
@[simp] theorem State.setLink_free (k : LinkId) (x : Link) : (s.setLink k x).free = s.free := rfl
@[simp] theorem State.setLink_regs (k : LinkId) (x : Link) : (s.setLink k x).regs = s.regs := rfl
@[simp] theorem State.setLink_dev (k : LinkId) (x : Link) : (s.setLink k x).dev = s.dev := rfl
@[simp] theorem State.setLink_belay (k : LinkId) (x : Link) : (s.setLink k x).belay = s.belay := rfl
@[simp] theorem State.setLink_funcs (k : LinkId) (x : Link) : (s.setLink k x).funcs = s.funcs := rfl
@[simp] theorem State.setLink_rings (k : LinkId) (x : Link) : (s.setLink k x).rings = s.rings := rfl
@[simp] theorem State.setLink_ports (k : LinkId) (x : Link) : (s.setLink k x).ports = s.ports := rfl
@[simp] theorem State.setLink_rxq (k : LinkId) (x : Link) : (s.setLink k x).rxq = s.rxq := rfl
@[simp] theorem State.setLink_pairs (k : LinkId) (x : Link) : (s.setLink k x).pairs = s.pairs := rfl
@[simp] theorem State.setLink_groups (k : LinkId) (x : Link) : (s.setLink k x).groups = s.groups := rfl
@[simp] theorem State.setLink_tarn (k : LinkId) (x : Link) : (s.setLink k x).tarn = s.tarn := rfl
@[simp] theorem State.setLink_units (k : LinkId) (x : Link) : (s.setLink k x).units = s.units := rfl
@[simp] theorem State.setLink_objs (k : LinkId) (x : Link) : (s.setLink k x).objs = s.objs := rfl
@[simp] theorem State.setLink_flt (k : LinkId) (x : Link) : (s.setLink k x).flt = s.flt := rfl
@[simp] theorem State.setLink_tmu (k : LinkId) (x : Link) : (s.setLink k x).tmu = s.tmu := rfl
@[simp] theorem State.setLink_eths (k : LinkId) (x : Link) : (s.setLink k x).eths = s.eths := rfl
@[simp] theorem State.setLink_ptp (k : LinkId) (x : Link) : (s.setLink k x).ptp = s.ptp := rfl
@[simp] theorem State.setLink_fab (k : LinkId) (x : Link) : (s.setLink k x).fab = s.fab := rfl
@[simp] theorem State.setLink_routes (k : LinkId) (x : Link) : (s.setLink k x).routes = s.routes := rfl
@[simp] theorem State.setLink_spur (k : LinkId) (x : Link) : (s.setLink k x).spur = s.spur := rfl
@[simp] theorem State.setLink_evc (k : LinkId) (x : Link) : (s.setLink k x).evc = s.evc := rfl
@[simp] theorem State.setLink_log (k : LinkId) (x : Link) : (s.setLink k x).log = s.log := rfl
@[simp] theorem State.setLink_cairn (k : LinkId) (x : Link) : (s.setLink k x).cairn = s.cairn := rfl
@[simp] theorem State.setLink_counts (k : LinkId) (x : Link) : (s.setLink k x).counts = s.counts := rfl
@[simp] theorem State.setLink_halves (k : LinkId) (x : Link) : (s.setLink k x).halves = s.halves := rfl
@[simp] theorem State.setLink_may (k : LinkId) (x : Link) : (s.setLink k x).may = s.may := rfl

/-! ### setObj -/

@[simp] theorem State.setObj_pending (d : Dom) (o : Nat) (x : Obj) : (s.setObj d o x).pending = s.pending := rfl
@[simp] theorem State.setObj_out (d : Dom) (o : Nat) (x : Obj) : (s.setObj d o x).out = s.out := rfl
@[simp] theorem State.setObj_free (d : Dom) (o : Nat) (x : Obj) : (s.setObj d o x).free = s.free := rfl
@[simp] theorem State.setObj_regs (d : Dom) (o : Nat) (x : Obj) : (s.setObj d o x).regs = s.regs := rfl
@[simp] theorem State.setObj_dev (d : Dom) (o : Nat) (x : Obj) : (s.setObj d o x).dev = s.dev := rfl
@[simp] theorem State.setObj_belay (d : Dom) (o : Nat) (x : Obj) : (s.setObj d o x).belay = s.belay := rfl
@[simp] theorem State.setObj_funcs (d : Dom) (o : Nat) (x : Obj) : (s.setObj d o x).funcs = s.funcs := rfl
@[simp] theorem State.setObj_rings (d : Dom) (o : Nat) (x : Obj) : (s.setObj d o x).rings = s.rings := rfl
@[simp] theorem State.setObj_ports (d : Dom) (o : Nat) (x : Obj) : (s.setObj d o x).ports = s.ports := rfl
@[simp] theorem State.setObj_rxq (d : Dom) (o : Nat) (x : Obj) : (s.setObj d o x).rxq = s.rxq := rfl
@[simp] theorem State.setObj_pairs (d : Dom) (o : Nat) (x : Obj) : (s.setObj d o x).pairs = s.pairs := rfl
@[simp] theorem State.setObj_groups (d : Dom) (o : Nat) (x : Obj) : (s.setObj d o x).groups = s.groups := rfl
@[simp] theorem State.setObj_tarn (d : Dom) (o : Nat) (x : Obj) : (s.setObj d o x).tarn = s.tarn := rfl
@[simp] theorem State.setObj_units (d : Dom) (o : Nat) (x : Obj) : (s.setObj d o x).units = s.units := rfl
@[simp] theorem State.setObj_flt (d : Dom) (o : Nat) (x : Obj) : (s.setObj d o x).flt = s.flt := rfl
@[simp] theorem State.setObj_tmu (d : Dom) (o : Nat) (x : Obj) : (s.setObj d o x).tmu = s.tmu := rfl
@[simp] theorem State.setObj_eths (d : Dom) (o : Nat) (x : Obj) : (s.setObj d o x).eths = s.eths := rfl
@[simp] theorem State.setObj_ptp (d : Dom) (o : Nat) (x : Obj) : (s.setObj d o x).ptp = s.ptp := rfl
@[simp] theorem State.setObj_links (d : Dom) (o : Nat) (x : Obj) : (s.setObj d o x).links = s.links := rfl
@[simp] theorem State.setObj_fab (d : Dom) (o : Nat) (x : Obj) : (s.setObj d o x).fab = s.fab := rfl
@[simp] theorem State.setObj_routes (d : Dom) (o : Nat) (x : Obj) : (s.setObj d o x).routes = s.routes := rfl
@[simp] theorem State.setObj_spur (d : Dom) (o : Nat) (x : Obj) : (s.setObj d o x).spur = s.spur := rfl
@[simp] theorem State.setObj_evc (d : Dom) (o : Nat) (x : Obj) : (s.setObj d o x).evc = s.evc := rfl
@[simp] theorem State.setObj_log (d : Dom) (o : Nat) (x : Obj) : (s.setObj d o x).log = s.log := rfl
@[simp] theorem State.setObj_cairn (d : Dom) (o : Nat) (x : Obj) : (s.setObj d o x).cairn = s.cairn := rfl
@[simp] theorem State.setObj_counts (d : Dom) (o : Nat) (x : Obj) : (s.setObj d o x).counts = s.counts := rfl
@[simp] theorem State.setObj_halves (d : Dom) (o : Nat) (x : Obj) : (s.setObj d o x).halves = s.halves := rfl
@[simp] theorem State.setObj_may (d : Dom) (o : Nat) (x : Obj) : (s.setObj d o x).may = s.may := rfl

/-! ### setRoute -/

@[simp] theorem State.setRoute_pending (r : Nat) (x : Route) : (s.setRoute r x).pending = s.pending := rfl
@[simp] theorem State.setRoute_out (r : Nat) (x : Route) : (s.setRoute r x).out = s.out := rfl
@[simp] theorem State.setRoute_free (r : Nat) (x : Route) : (s.setRoute r x).free = s.free := rfl
@[simp] theorem State.setRoute_regs (r : Nat) (x : Route) : (s.setRoute r x).regs = s.regs := rfl
@[simp] theorem State.setRoute_dev (r : Nat) (x : Route) : (s.setRoute r x).dev = s.dev := rfl
@[simp] theorem State.setRoute_belay (r : Nat) (x : Route) : (s.setRoute r x).belay = s.belay := rfl
@[simp] theorem State.setRoute_funcs (r : Nat) (x : Route) : (s.setRoute r x).funcs = s.funcs := rfl
@[simp] theorem State.setRoute_rings (r : Nat) (x : Route) : (s.setRoute r x).rings = s.rings := rfl
@[simp] theorem State.setRoute_ports (r : Nat) (x : Route) : (s.setRoute r x).ports = s.ports := rfl
@[simp] theorem State.setRoute_rxq (r : Nat) (x : Route) : (s.setRoute r x).rxq = s.rxq := rfl
@[simp] theorem State.setRoute_pairs (r : Nat) (x : Route) : (s.setRoute r x).pairs = s.pairs := rfl
@[simp] theorem State.setRoute_groups (r : Nat) (x : Route) : (s.setRoute r x).groups = s.groups := rfl
@[simp] theorem State.setRoute_tarn (r : Nat) (x : Route) : (s.setRoute r x).tarn = s.tarn := rfl
@[simp] theorem State.setRoute_units (r : Nat) (x : Route) : (s.setRoute r x).units = s.units := rfl
@[simp] theorem State.setRoute_objs (r : Nat) (x : Route) : (s.setRoute r x).objs = s.objs := rfl
@[simp] theorem State.setRoute_flt (r : Nat) (x : Route) : (s.setRoute r x).flt = s.flt := rfl
@[simp] theorem State.setRoute_tmu (r : Nat) (x : Route) : (s.setRoute r x).tmu = s.tmu := rfl
@[simp] theorem State.setRoute_eths (r : Nat) (x : Route) : (s.setRoute r x).eths = s.eths := rfl
@[simp] theorem State.setRoute_ptp (r : Nat) (x : Route) : (s.setRoute r x).ptp = s.ptp := rfl
@[simp] theorem State.setRoute_links (r : Nat) (x : Route) : (s.setRoute r x).links = s.links := rfl
@[simp] theorem State.setRoute_fab (r : Nat) (x : Route) : (s.setRoute r x).fab = s.fab := rfl
@[simp] theorem State.setRoute_spur (r : Nat) (x : Route) : (s.setRoute r x).spur = s.spur := rfl
@[simp] theorem State.setRoute_evc (r : Nat) (x : Route) : (s.setRoute r x).evc = s.evc := rfl
@[simp] theorem State.setRoute_log (r : Nat) (x : Route) : (s.setRoute r x).log = s.log := rfl
@[simp] theorem State.setRoute_cairn (r : Nat) (x : Route) : (s.setRoute r x).cairn = s.cairn := rfl
@[simp] theorem State.setRoute_counts (r : Nat) (x : Route) : (s.setRoute r x).counts = s.counts := rfl
@[simp] theorem State.setRoute_halves (r : Nat) (x : Route) : (s.setRoute r x).halves = s.halves := rfl
@[simp] theorem State.setRoute_may (r : Nat) (x : Route) : (s.setRoute r x).may = s.may := rfl

/-! ### setKey -/

@[simp] theorem State.setKey_pending (i : Nat) (x : Option KeySlot) : (s.setKey i x).pending = s.pending := rfl
@[simp] theorem State.setKey_out (i : Nat) (x : Option KeySlot) : (s.setKey i x).out = s.out := rfl
@[simp] theorem State.setKey_free (i : Nat) (x : Option KeySlot) : (s.setKey i x).free = s.free := rfl
@[simp] theorem State.setKey_regs (i : Nat) (x : Option KeySlot) : (s.setKey i x).regs = s.regs := rfl
@[simp] theorem State.setKey_dev (i : Nat) (x : Option KeySlot) : (s.setKey i x).dev = s.dev := rfl
@[simp] theorem State.setKey_funcs (i : Nat) (x : Option KeySlot) : (s.setKey i x).funcs = s.funcs := rfl
@[simp] theorem State.setKey_rings (i : Nat) (x : Option KeySlot) : (s.setKey i x).rings = s.rings := rfl
@[simp] theorem State.setKey_ports (i : Nat) (x : Option KeySlot) : (s.setKey i x).ports = s.ports := rfl
@[simp] theorem State.setKey_rxq (i : Nat) (x : Option KeySlot) : (s.setKey i x).rxq = s.rxq := rfl
@[simp] theorem State.setKey_pairs (i : Nat) (x : Option KeySlot) : (s.setKey i x).pairs = s.pairs := rfl
@[simp] theorem State.setKey_groups (i : Nat) (x : Option KeySlot) : (s.setKey i x).groups = s.groups := rfl
@[simp] theorem State.setKey_tarn (i : Nat) (x : Option KeySlot) : (s.setKey i x).tarn = s.tarn := rfl
@[simp] theorem State.setKey_units (i : Nat) (x : Option KeySlot) : (s.setKey i x).units = s.units := rfl
@[simp] theorem State.setKey_objs (i : Nat) (x : Option KeySlot) : (s.setKey i x).objs = s.objs := rfl
@[simp] theorem State.setKey_flt (i : Nat) (x : Option KeySlot) : (s.setKey i x).flt = s.flt := rfl
@[simp] theorem State.setKey_tmu (i : Nat) (x : Option KeySlot) : (s.setKey i x).tmu = s.tmu := rfl
@[simp] theorem State.setKey_eths (i : Nat) (x : Option KeySlot) : (s.setKey i x).eths = s.eths := rfl
@[simp] theorem State.setKey_ptp (i : Nat) (x : Option KeySlot) : (s.setKey i x).ptp = s.ptp := rfl
@[simp] theorem State.setKey_links (i : Nat) (x : Option KeySlot) : (s.setKey i x).links = s.links := rfl
@[simp] theorem State.setKey_fab (i : Nat) (x : Option KeySlot) : (s.setKey i x).fab = s.fab := rfl
@[simp] theorem State.setKey_routes (i : Nat) (x : Option KeySlot) : (s.setKey i x).routes = s.routes := rfl
@[simp] theorem State.setKey_spur (i : Nat) (x : Option KeySlot) : (s.setKey i x).spur = s.spur := rfl
@[simp] theorem State.setKey_evc (i : Nat) (x : Option KeySlot) : (s.setKey i x).evc = s.evc := rfl
@[simp] theorem State.setKey_log (i : Nat) (x : Option KeySlot) : (s.setKey i x).log = s.log := rfl
@[simp] theorem State.setKey_cairn (i : Nat) (x : Option KeySlot) : (s.setKey i x).cairn = s.cairn := rfl
@[simp] theorem State.setKey_counts (i : Nat) (x : Option KeySlot) : (s.setKey i x).counts = s.counts := rfl
@[simp] theorem State.setKey_halves (i : Nat) (x : Option KeySlot) : (s.setKey i x).halves = s.halves := rfl
@[simp] theorem State.setKey_may (i : Nat) (x : Option KeySlot) : (s.setKey i x).may = s.may := rfl

/-! ### draw -/

@[simp] theorem State.draw_pending : (s.draw).pending = s.pending := rfl
@[simp] theorem State.draw_out : (s.draw).out = s.out := rfl
@[simp] theorem State.draw_regs : (s.draw).regs = s.regs := rfl
@[simp] theorem State.draw_dev : (s.draw).dev = s.dev := rfl
@[simp] theorem State.draw_belay : (s.draw).belay = s.belay := rfl
@[simp] theorem State.draw_funcs : (s.draw).funcs = s.funcs := rfl
@[simp] theorem State.draw_rings : (s.draw).rings = s.rings := rfl
@[simp] theorem State.draw_ports : (s.draw).ports = s.ports := rfl
@[simp] theorem State.draw_rxq : (s.draw).rxq = s.rxq := rfl
@[simp] theorem State.draw_pairs : (s.draw).pairs = s.pairs := rfl
@[simp] theorem State.draw_groups : (s.draw).groups = s.groups := rfl
@[simp] theorem State.draw_tarn : (s.draw).tarn = s.tarn := rfl
@[simp] theorem State.draw_units : (s.draw).units = s.units := rfl
@[simp] theorem State.draw_objs : (s.draw).objs = s.objs := rfl
@[simp] theorem State.draw_flt : (s.draw).flt = s.flt := rfl
@[simp] theorem State.draw_tmu : (s.draw).tmu = s.tmu := rfl
@[simp] theorem State.draw_eths : (s.draw).eths = s.eths := rfl
@[simp] theorem State.draw_ptp : (s.draw).ptp = s.ptp := rfl
@[simp] theorem State.draw_links : (s.draw).links = s.links := rfl
@[simp] theorem State.draw_fab : (s.draw).fab = s.fab := rfl
@[simp] theorem State.draw_routes : (s.draw).routes = s.routes := rfl
@[simp] theorem State.draw_spur : (s.draw).spur = s.spur := rfl
@[simp] theorem State.draw_evc : (s.draw).evc = s.evc := rfl
@[simp] theorem State.draw_log : (s.draw).log = s.log := rfl
@[simp] theorem State.draw_cairn : (s.draw).cairn = s.cairn := rfl
@[simp] theorem State.draw_counts : (s.draw).counts = s.counts := rfl
@[simp] theorem State.draw_halves : (s.draw).halves = s.halves := rfl
@[simp] theorem State.draw_may : (s.draw).may = s.may := rfl

/-! ### setCairn -/

@[simp] theorem State.setCairn_pending (c : Cairn) : (s.setCairn c).pending = s.pending := rfl
@[simp] theorem State.setCairn_out (c : Cairn) : (s.setCairn c).out = s.out := rfl
@[simp] theorem State.setCairn_free (c : Cairn) : (s.setCairn c).free = s.free := rfl
@[simp] theorem State.setCairn_regs (c : Cairn) : (s.setCairn c).regs = s.regs := rfl
@[simp] theorem State.setCairn_dev (c : Cairn) : (s.setCairn c).dev = s.dev := rfl
@[simp] theorem State.setCairn_belay (c : Cairn) : (s.setCairn c).belay = s.belay := rfl
@[simp] theorem State.setCairn_funcs (c : Cairn) : (s.setCairn c).funcs = s.funcs := rfl
@[simp] theorem State.setCairn_rings (c : Cairn) : (s.setCairn c).rings = s.rings := rfl
@[simp] theorem State.setCairn_ports (c : Cairn) : (s.setCairn c).ports = s.ports := rfl
@[simp] theorem State.setCairn_rxq (c : Cairn) : (s.setCairn c).rxq = s.rxq := rfl
@[simp] theorem State.setCairn_pairs (c : Cairn) : (s.setCairn c).pairs = s.pairs := rfl
@[simp] theorem State.setCairn_groups (c : Cairn) : (s.setCairn c).groups = s.groups := rfl
@[simp] theorem State.setCairn_tarn (c : Cairn) : (s.setCairn c).tarn = s.tarn := rfl
@[simp] theorem State.setCairn_units (c : Cairn) : (s.setCairn c).units = s.units := rfl
@[simp] theorem State.setCairn_objs (c : Cairn) : (s.setCairn c).objs = s.objs := rfl
@[simp] theorem State.setCairn_flt (c : Cairn) : (s.setCairn c).flt = s.flt := rfl
@[simp] theorem State.setCairn_tmu (c : Cairn) : (s.setCairn c).tmu = s.tmu := rfl
@[simp] theorem State.setCairn_eths (c : Cairn) : (s.setCairn c).eths = s.eths := rfl
@[simp] theorem State.setCairn_ptp (c : Cairn) : (s.setCairn c).ptp = s.ptp := rfl
@[simp] theorem State.setCairn_links (c : Cairn) : (s.setCairn c).links = s.links := rfl
@[simp] theorem State.setCairn_fab (c : Cairn) : (s.setCairn c).fab = s.fab := rfl
@[simp] theorem State.setCairn_routes (c : Cairn) : (s.setCairn c).routes = s.routes := rfl
@[simp] theorem State.setCairn_spur (c : Cairn) : (s.setCairn c).spur = s.spur := rfl
@[simp] theorem State.setCairn_evc (c : Cairn) : (s.setCairn c).evc = s.evc := rfl
@[simp] theorem State.setCairn_log (c : Cairn) : (s.setCairn c).log = s.log := rfl
@[simp] theorem State.setCairn_counts (c : Cairn) : (s.setCairn c).counts = s.counts := rfl
@[simp] theorem State.setCairn_halves (c : Cairn) : (s.setCairn c).halves = s.halves := rfl
@[simp] theorem State.setCairn_may (c : Cairn) : (s.setCairn c).may = s.may := rfl

/-! ### setEngine -/

@[simp] theorem State.setEngine_pending (e : EngId) (x : Engine) : (s.setEngine e x).pending = s.pending := rfl
@[simp] theorem State.setEngine_out (e : EngId) (x : Engine) : (s.setEngine e x).out = s.out := rfl
@[simp] theorem State.setEngine_free (e : EngId) (x : Engine) : (s.setEngine e x).free = s.free := rfl
@[simp] theorem State.setEngine_regs (e : EngId) (x : Engine) : (s.setEngine e x).regs = s.regs := rfl
@[simp] theorem State.setEngine_dev (e : EngId) (x : Engine) : (s.setEngine e x).dev = s.dev := rfl
@[simp] theorem State.setEngine_belay (e : EngId) (x : Engine) : (s.setEngine e x).belay = s.belay := rfl
@[simp] theorem State.setEngine_funcs (e : EngId) (x : Engine) : (s.setEngine e x).funcs = s.funcs := rfl
@[simp] theorem State.setEngine_rings (e : EngId) (x : Engine) : (s.setEngine e x).rings = s.rings := rfl
@[simp] theorem State.setEngine_ports (e : EngId) (x : Engine) : (s.setEngine e x).ports = s.ports := rfl
@[simp] theorem State.setEngine_rxq (e : EngId) (x : Engine) : (s.setEngine e x).rxq = s.rxq := rfl
@[simp] theorem State.setEngine_pairs (e : EngId) (x : Engine) : (s.setEngine e x).pairs = s.pairs := rfl
@[simp] theorem State.setEngine_groups (e : EngId) (x : Engine) : (s.setEngine e x).groups = s.groups := rfl
@[simp] theorem State.setEngine_tarn (e : EngId) (x : Engine) : (s.setEngine e x).tarn = s.tarn := rfl
@[simp] theorem State.setEngine_units (e : EngId) (x : Engine) : (s.setEngine e x).units = s.units := rfl
@[simp] theorem State.setEngine_objs (e : EngId) (x : Engine) : (s.setEngine e x).objs = s.objs := rfl
@[simp] theorem State.setEngine_flt (e : EngId) (x : Engine) : (s.setEngine e x).flt = s.flt := rfl
@[simp] theorem State.setEngine_tmu (e : EngId) (x : Engine) : (s.setEngine e x).tmu = s.tmu := rfl
@[simp] theorem State.setEngine_eths (e : EngId) (x : Engine) : (s.setEngine e x).eths = s.eths := rfl
@[simp] theorem State.setEngine_ptp (e : EngId) (x : Engine) : (s.setEngine e x).ptp = s.ptp := rfl
@[simp] theorem State.setEngine_links (e : EngId) (x : Engine) : (s.setEngine e x).links = s.links := rfl
@[simp] theorem State.setEngine_fab (e : EngId) (x : Engine) : (s.setEngine e x).fab = s.fab := rfl
@[simp] theorem State.setEngine_routes (e : EngId) (x : Engine) : (s.setEngine e x).routes = s.routes := rfl
@[simp] theorem State.setEngine_evc (e : EngId) (x : Engine) : (s.setEngine e x).evc = s.evc := rfl
@[simp] theorem State.setEngine_log (e : EngId) (x : Engine) : (s.setEngine e x).log = s.log := rfl
@[simp] theorem State.setEngine_cairn (e : EngId) (x : Engine) : (s.setEngine e x).cairn = s.cairn := rfl
@[simp] theorem State.setEngine_counts (e : EngId) (x : Engine) : (s.setEngine e x).counts = s.counts := rfl
@[simp] theorem State.setEngine_halves (e : EngId) (x : Engine) : (s.setEngine e x).halves = s.halves := rfl
@[simp] theorem State.setEngine_may (e : EngId) (x : Engine) : (s.setEngine e x).may = s.may := rfl

/-! ### setCore -/

@[simp] theorem State.setCore_pending (c : CoreId) (x : Core) : (s.setCore c x).pending = s.pending := rfl
@[simp] theorem State.setCore_out (c : CoreId) (x : Core) : (s.setCore c x).out = s.out := rfl
@[simp] theorem State.setCore_free (c : CoreId) (x : Core) : (s.setCore c x).free = s.free := rfl
@[simp] theorem State.setCore_regs (c : CoreId) (x : Core) : (s.setCore c x).regs = s.regs := rfl
@[simp] theorem State.setCore_dev (c : CoreId) (x : Core) : (s.setCore c x).dev = s.dev := rfl
@[simp] theorem State.setCore_belay (c : CoreId) (x : Core) : (s.setCore c x).belay = s.belay := rfl
@[simp] theorem State.setCore_funcs (c : CoreId) (x : Core) : (s.setCore c x).funcs = s.funcs := rfl
@[simp] theorem State.setCore_rings (c : CoreId) (x : Core) : (s.setCore c x).rings = s.rings := rfl
@[simp] theorem State.setCore_ports (c : CoreId) (x : Core) : (s.setCore c x).ports = s.ports := rfl
@[simp] theorem State.setCore_rxq (c : CoreId) (x : Core) : (s.setCore c x).rxq = s.rxq := rfl
@[simp] theorem State.setCore_pairs (c : CoreId) (x : Core) : (s.setCore c x).pairs = s.pairs := rfl
@[simp] theorem State.setCore_groups (c : CoreId) (x : Core) : (s.setCore c x).groups = s.groups := rfl
@[simp] theorem State.setCore_tarn (c : CoreId) (x : Core) : (s.setCore c x).tarn = s.tarn := rfl
@[simp] theorem State.setCore_units (c : CoreId) (x : Core) : (s.setCore c x).units = s.units := rfl
@[simp] theorem State.setCore_objs (c : CoreId) (x : Core) : (s.setCore c x).objs = s.objs := rfl
@[simp] theorem State.setCore_flt (c : CoreId) (x : Core) : (s.setCore c x).flt = s.flt := rfl
@[simp] theorem State.setCore_tmu (c : CoreId) (x : Core) : (s.setCore c x).tmu = s.tmu := rfl
@[simp] theorem State.setCore_eths (c : CoreId) (x : Core) : (s.setCore c x).eths = s.eths := rfl
@[simp] theorem State.setCore_ptp (c : CoreId) (x : Core) : (s.setCore c x).ptp = s.ptp := rfl
@[simp] theorem State.setCore_links (c : CoreId) (x : Core) : (s.setCore c x).links = s.links := rfl
@[simp] theorem State.setCore_fab (c : CoreId) (x : Core) : (s.setCore c x).fab = s.fab := rfl
@[simp] theorem State.setCore_routes (c : CoreId) (x : Core) : (s.setCore c x).routes = s.routes := rfl
@[simp] theorem State.setCore_evc (c : CoreId) (x : Core) : (s.setCore c x).evc = s.evc := rfl
@[simp] theorem State.setCore_log (c : CoreId) (x : Core) : (s.setCore c x).log = s.log := rfl
@[simp] theorem State.setCore_cairn (c : CoreId) (x : Core) : (s.setCore c x).cairn = s.cairn := rfl
@[simp] theorem State.setCore_counts (c : CoreId) (x : Core) : (s.setCore c x).counts = s.counts := rfl
@[simp] theorem State.setCore_halves (c : CoreId) (x : Core) : (s.setCore c x).halves = s.halves := rfl
@[simp] theorem State.setCore_may (c : CoreId) (x : Core) : (s.setCore c x).may = s.may := rfl

/-! ### setTmu -/

@[simp] theorem State.setTmu_pending (t : Tmu) : (s.setTmu t).pending = s.pending := rfl
@[simp] theorem State.setTmu_out (t : Tmu) : (s.setTmu t).out = s.out := rfl
@[simp] theorem State.setTmu_free (t : Tmu) : (s.setTmu t).free = s.free := rfl
@[simp] theorem State.setTmu_regs (t : Tmu) : (s.setTmu t).regs = s.regs := rfl
@[simp] theorem State.setTmu_dev (t : Tmu) : (s.setTmu t).dev = s.dev := rfl
@[simp] theorem State.setTmu_belay (t : Tmu) : (s.setTmu t).belay = s.belay := rfl
@[simp] theorem State.setTmu_funcs (t : Tmu) : (s.setTmu t).funcs = s.funcs := rfl
@[simp] theorem State.setTmu_rings (t : Tmu) : (s.setTmu t).rings = s.rings := rfl
@[simp] theorem State.setTmu_ports (t : Tmu) : (s.setTmu t).ports = s.ports := rfl
@[simp] theorem State.setTmu_rxq (t : Tmu) : (s.setTmu t).rxq = s.rxq := rfl
@[simp] theorem State.setTmu_pairs (t : Tmu) : (s.setTmu t).pairs = s.pairs := rfl
@[simp] theorem State.setTmu_groups (t : Tmu) : (s.setTmu t).groups = s.groups := rfl
@[simp] theorem State.setTmu_tarn (t : Tmu) : (s.setTmu t).tarn = s.tarn := rfl
@[simp] theorem State.setTmu_units (t : Tmu) : (s.setTmu t).units = s.units := rfl
@[simp] theorem State.setTmu_objs (t : Tmu) : (s.setTmu t).objs = s.objs := rfl
@[simp] theorem State.setTmu_flt (t : Tmu) : (s.setTmu t).flt = s.flt := rfl
@[simp] theorem State.setTmu_eths (t : Tmu) : (s.setTmu t).eths = s.eths := rfl
@[simp] theorem State.setTmu_ptp (t : Tmu) : (s.setTmu t).ptp = s.ptp := rfl
@[simp] theorem State.setTmu_links (t : Tmu) : (s.setTmu t).links = s.links := rfl
@[simp] theorem State.setTmu_fab (t : Tmu) : (s.setTmu t).fab = s.fab := rfl
@[simp] theorem State.setTmu_routes (t : Tmu) : (s.setTmu t).routes = s.routes := rfl
@[simp] theorem State.setTmu_spur (t : Tmu) : (s.setTmu t).spur = s.spur := rfl
@[simp] theorem State.setTmu_evc (t : Tmu) : (s.setTmu t).evc = s.evc := rfl
@[simp] theorem State.setTmu_log (t : Tmu) : (s.setTmu t).log = s.log := rfl
@[simp] theorem State.setTmu_cairn (t : Tmu) : (s.setTmu t).cairn = s.cairn := rfl
@[simp] theorem State.setTmu_counts (t : Tmu) : (s.setTmu t).counts = s.counts := rfl
@[simp] theorem State.setTmu_halves (t : Tmu) : (s.setTmu t).halves = s.halves := rfl
@[simp] theorem State.setTmu_may (t : Tmu) : (s.setTmu t).may = s.may := rfl

/-! ### setLog -/

@[simp] theorem State.setLog_pending (l : Log) : (s.setLog l).pending = s.pending := rfl
@[simp] theorem State.setLog_out (l : Log) : (s.setLog l).out = s.out := rfl
@[simp] theorem State.setLog_free (l : Log) : (s.setLog l).free = s.free := rfl
@[simp] theorem State.setLog_regs (l : Log) : (s.setLog l).regs = s.regs := rfl
@[simp] theorem State.setLog_dev (l : Log) : (s.setLog l).dev = s.dev := rfl
@[simp] theorem State.setLog_belay (l : Log) : (s.setLog l).belay = s.belay := rfl
@[simp] theorem State.setLog_funcs (l : Log) : (s.setLog l).funcs = s.funcs := rfl
@[simp] theorem State.setLog_rings (l : Log) : (s.setLog l).rings = s.rings := rfl
@[simp] theorem State.setLog_ports (l : Log) : (s.setLog l).ports = s.ports := rfl
@[simp] theorem State.setLog_rxq (l : Log) : (s.setLog l).rxq = s.rxq := rfl
@[simp] theorem State.setLog_pairs (l : Log) : (s.setLog l).pairs = s.pairs := rfl
@[simp] theorem State.setLog_groups (l : Log) : (s.setLog l).groups = s.groups := rfl
@[simp] theorem State.setLog_tarn (l : Log) : (s.setLog l).tarn = s.tarn := rfl
@[simp] theorem State.setLog_units (l : Log) : (s.setLog l).units = s.units := rfl
@[simp] theorem State.setLog_objs (l : Log) : (s.setLog l).objs = s.objs := rfl
@[simp] theorem State.setLog_flt (l : Log) : (s.setLog l).flt = s.flt := rfl
@[simp] theorem State.setLog_tmu (l : Log) : (s.setLog l).tmu = s.tmu := rfl
@[simp] theorem State.setLog_eths (l : Log) : (s.setLog l).eths = s.eths := rfl
@[simp] theorem State.setLog_ptp (l : Log) : (s.setLog l).ptp = s.ptp := rfl
@[simp] theorem State.setLog_links (l : Log) : (s.setLog l).links = s.links := rfl
@[simp] theorem State.setLog_fab (l : Log) : (s.setLog l).fab = s.fab := rfl
@[simp] theorem State.setLog_routes (l : Log) : (s.setLog l).routes = s.routes := rfl
@[simp] theorem State.setLog_spur (l : Log) : (s.setLog l).spur = s.spur := rfl
@[simp] theorem State.setLog_evc (l : Log) : (s.setLog l).evc = s.evc := rfl
@[simp] theorem State.setLog_cairn (l : Log) : (s.setLog l).cairn = s.cairn := rfl
@[simp] theorem State.setLog_counts (l : Log) : (s.setLog l).counts = s.counts := rfl
@[simp] theorem State.setLog_halves (l : Log) : (s.setLog l).halves = s.halves := rfl
@[simp] theorem State.setLog_may (l : Log) : (s.setLog l).may = s.may := rfl

/-! ### countBy -/

@[simp] theorem State.countBy_pending (b i n : Nat) : (s.countBy b i n).pending = s.pending := rfl
@[simp] theorem State.countBy_out (b i n : Nat) : (s.countBy b i n).out = s.out := rfl
@[simp] theorem State.countBy_free (b i n : Nat) : (s.countBy b i n).free = s.free := rfl
@[simp] theorem State.countBy_regs (b i n : Nat) : (s.countBy b i n).regs = s.regs := rfl
@[simp] theorem State.countBy_dev (b i n : Nat) : (s.countBy b i n).dev = s.dev := rfl
@[simp] theorem State.countBy_belay (b i n : Nat) : (s.countBy b i n).belay = s.belay := rfl
@[simp] theorem State.countBy_funcs (b i n : Nat) : (s.countBy b i n).funcs = s.funcs := rfl
@[simp] theorem State.countBy_rings (b i n : Nat) : (s.countBy b i n).rings = s.rings := rfl
@[simp] theorem State.countBy_ports (b i n : Nat) : (s.countBy b i n).ports = s.ports := rfl
@[simp] theorem State.countBy_rxq (b i n : Nat) : (s.countBy b i n).rxq = s.rxq := rfl
@[simp] theorem State.countBy_pairs (b i n : Nat) : (s.countBy b i n).pairs = s.pairs := rfl
@[simp] theorem State.countBy_groups (b i n : Nat) : (s.countBy b i n).groups = s.groups := rfl
@[simp] theorem State.countBy_tarn (b i n : Nat) : (s.countBy b i n).tarn = s.tarn := rfl
@[simp] theorem State.countBy_units (b i n : Nat) : (s.countBy b i n).units = s.units := rfl
@[simp] theorem State.countBy_objs (b i n : Nat) : (s.countBy b i n).objs = s.objs := rfl
@[simp] theorem State.countBy_flt (b i n : Nat) : (s.countBy b i n).flt = s.flt := rfl
@[simp] theorem State.countBy_tmu (b i n : Nat) : (s.countBy b i n).tmu = s.tmu := rfl
@[simp] theorem State.countBy_eths (b i n : Nat) : (s.countBy b i n).eths = s.eths := rfl
@[simp] theorem State.countBy_ptp (b i n : Nat) : (s.countBy b i n).ptp = s.ptp := rfl
@[simp] theorem State.countBy_links (b i n : Nat) : (s.countBy b i n).links = s.links := rfl
@[simp] theorem State.countBy_fab (b i n : Nat) : (s.countBy b i n).fab = s.fab := rfl
@[simp] theorem State.countBy_routes (b i n : Nat) : (s.countBy b i n).routes = s.routes := rfl
@[simp] theorem State.countBy_spur (b i n : Nat) : (s.countBy b i n).spur = s.spur := rfl
@[simp] theorem State.countBy_evc (b i n : Nat) : (s.countBy b i n).evc = s.evc := rfl
@[simp] theorem State.countBy_log (b i n : Nat) : (s.countBy b i n).log = s.log := rfl
@[simp] theorem State.countBy_cairn (b i n : Nat) : (s.countBy b i n).cairn = s.cairn := rfl
@[simp] theorem State.countBy_may (b i n : Nat) : (s.countBy b i n).may = s.may := rfl

/-! ### Reading after a write -/

@[simp] theorem State.port_setPort_same (p : PortId) (x : Port) : (s.setPort p x).port p = x := by
  simp [State.port, State.setPort]
theorem State.port_setPort_other (p q : PortId) (x : Port) (h : q ≠ p) : (s.setPort p x).port q = s.port q := by
  have hv : p.val ≠ q.val := fun c => h (Fin.ext c.symm)
  simp only [State.port, State.setPort, Fin.getElem_fin]
  exact Vector.getElem_set_ne _ _ hv

@[simp] theorem State.group_setGroup_same (p : GrpId) (x : Group) : (s.setGroup p x).group p = x := by
  simp [State.group, State.setGroup]
theorem State.group_setGroup_other (p q : GrpId) (x : Group) (h : q ≠ p) : (s.setGroup p x).group q = s.group q := by
  have hv : p.val ≠ q.val := fun c => h (Fin.ext c.symm)
  simp only [State.group, State.setGroup, Fin.getElem_fin]
  exact Vector.getElem_set_ne _ _ hv

@[simp] theorem State.func_setFunc_same (p : Dom) (x : Func) : (s.setFunc p x).func p = x := by
  simp [State.func, State.setFunc]
theorem State.func_setFunc_other (p q : Dom) (x : Func) (h : q ≠ p) : (s.setFunc p x).func q = s.func q := by
  have hv : p.val ≠ q.val := fun c => h (Fin.ext c.symm)
  simp only [State.func, State.setFunc, Fin.getElem_fin]
  exact Vector.getElem_set_ne _ _ hv

@[simp] theorem State.eth_setEth_same (p : EpId) (x : EthPort) : (s.setEth p x).eth p = x := by
  simp [State.eth, State.setEth]
theorem State.eth_setEth_other (p q : EpId) (x : EthPort) (h : q ≠ p) : (s.setEth p x).eth q = s.eth q := by
  have hv : p.val ≠ q.val := fun c => h (Fin.ext c.symm)
  simp only [State.eth, State.setEth, Fin.getElem_fin]
  exact Vector.getElem_set_ne _ _ hv

@[simp] theorem State.link_setLink_same (p : LinkId) (x : Link) : (s.setLink p x).link p = x := by
  simp [State.link, State.setLink]
theorem State.link_setLink_other (p q : LinkId) (x : Link) (h : q ≠ p) : (s.setLink p x).link q = s.link q := by
  have hv : p.val ≠ q.val := fun c => h (Fin.ext c.symm)
  simp only [State.link, State.setLink, Fin.getElem_fin]
  exact Vector.getElem_set_ne _ _ hv

@[simp] theorem State.reg_setReg_same (r : Reg) (w : DWord) : (s.setReg r w).reg r = w := RegFile.get_set_same _ _ _
theorem State.reg_setReg_other (r q : Reg) (w : DWord) (h : q ≠ r) : (s.setReg r w).reg q = s.reg q := RegFile.get_set_other _ _ _ _ h
theorem State.reg_raise_other (r q : Reg) (i : Nat) (h : q ≠ r) : (s.raise r i).reg q = s.reg q := RegFile.get_set_other _ _ _ _ h
@[simp] theorem State.reg_raise_same (r : Reg) (i : Nat) : (s.raise r i).reg r = setBit (s.reg r) i := RegFile.get_set_same _ _ _
theorem State.ring_setRing_same (i : Nat) (x : Ring) (h : Tbl.wf {} s.rings = true) : (s.setRing i x).ring i = x := Tbl.get_put_same _ _ _ h
theorem State.ring_setRing_other (i j : Nat) (x : Ring) (h : j ≠ i) : (s.setRing i x).ring j = s.ring j := Tbl.get_put_other _ _ _ _ h
theorem State.obj_setObj_same (d : Dom) (o : Nat) (x : Obj) (h : Tbl.wf {} s.objs = true) : (s.setObj d o x).obj d o = x := Tbl.get_put_same _ _ _ h
theorem State.route_setRoute_same (r : Nat) (x : Route) (h : Tbl.wf {} s.routes = true) : (s.setRoute r x).route r = x := Tbl.get_put_same _ _ _ h
theorem State.route_setRoute_other (r q : Nat) (x : Route) (h : q ≠ r) : (s.setRoute r x).route q = s.route q := Tbl.get_put_other _ _ _ _ h
theorem State.key_setKey_same (i : Nat) (x : Option KeySlot) (h : Tbl.wf none s.belay.keys = true) : (s.setKey i x).key i = x :=
  Tbl.get_put_same _ _ _ h
theorem State.key_setKey_other (i j : Nat) (x : Option KeySlot) (h : j ≠ i) : (s.setKey i x).key j = s.key j := Tbl.get_put_other _ _ _ _ h

end Sys2Proof.Machine
end

