-- ==== Sys2Proof/Laws/Finish.lean ====
section
/-! SUPPORT. The end of every command: State.noteMay keeps its one note, and State.announce changes what leaves the device, the event controller's own records, the draws, the
pending bits of the MSI-X tables and, by the storm guard, the MASK and STORM words and the intake of the log, and nothing else. -/
namespace Sys2Proof.Machine

/-- s and t differ in what has left the device, the draws, the event controller's records, the pending MSI-X entries, the MASK and STORM words,
and the intake of the log only. -/
structure Signals (s t : State) : Prop where
  rest : t = { s with out := t.out, free := t.free, evc := t.evc, funcs := t.funcs, regs := t.regs, log := t.log }
  func : ∀ d : Dom, ∃ l, t.func d = { s.func d with vecPending := l }
  regs : ∀ r, blockOf r ≠ .guard → t.reg r = s.reg r
  guard : ∀ r, s.reg r &&& t.reg r = s.reg r
  log : t.log = { s.log with intake := t.log.intake, lost := t.log.lost, owed := t.log.owed }
  queued : Queued t s.log.intake
  claim : t.evc.claimStacks = s.evc.claimStacks
  vector : t.evc.vstacks = s.evc.vstacks
  back : t.evc.fallback = s.evc.fallback

theorem Queued.of_eq {t : State} {l : List (DWord × LogRec)} (h : t.log.intake = l) : Queued t l :=
  ⟨[], by rw [h, List.append_nil], fun _ h => absurd h List.not_mem_nil⟩

theorem Queued.trans {s t : State} {l : List (DWord × LogRec)} (h : Queued s l) (g : Queued t s.log.intake) : Queued t l := by
  obtain ⟨a, ha, hs⟩ := h
  obtain ⟨b, hb, ht⟩ := g
  exact ⟨a ++ b, by rw [hb, ha, List.append_assoc], fun e he => (List.mem_append.1 he).elim (hs e) (ht e)⟩

theorem Signals.refl (s : State) : Signals s s :=
  ⟨rfl, fun d => ⟨(s.func d).vecPending, rfl⟩, fun _ _ => rfl, fun _ => BitVec.and_self, rfl, .of_eq rfl, rfl, rfl, rfl⟩

theorem Signals.trans {s t u : State} (h : Signals s t) (g : Signals t u) : Signals s u := by
  refine ⟨?_, fun d => ?_, fun r hr => (g.regs r hr).trans (h.regs r hr), fun r => ?_, ?_, h.queued.trans g.queued, g.claim.trans h.claim, g.vector.trans h.vector, g.back.trans h.back⟩
  · have h1 := g.rest
    rw [h.rest] at h1
    exact h1
  · obtain ⟨l, hl⟩ := h.func d
    obtain ⟨m, hm⟩ := g.func d
    exact ⟨m, by rw [hm, hl]⟩
  · have h1 := h.guard r
    rw [← h1, BitVec.and_assoc, g.guard r]
  · have h1 := g.log
    rw [h.log] at h1
    exact h1

/-- The queue, the draws and the records of the event controller apart from its stacks may change freely. -/
theorem Signals.own {s : State} {e : Evc} {o : List Output} {n : Nat} (hc : e.claimStacks = s.evc.claimStacks) (hv : e.vstacks = s.evc.vstacks)
    (hb : e.fallback = s.evc.fallback) : Signals s { s with evc := e, out := o, free := n } :=
  ⟨rfl, fun d => ⟨(s.func d).vecPending, rfl⟩, fun _ _ => rfl, fun _ => BitVec.and_self, rfl, .of_eq rfl, hc, hv, hb⟩

/-- An event bit that is set leaves every other bit of every register as it was. -/
theorem State.raise_guard (s : State) (r q : Reg) (i : Nat) : s.reg q &&& (s.raise r i).reg q = s.reg q := by
  unfold State.raise
  by_cases h : q = r
  · subst h
    rw [State.reg_setReg_same]
    unfold setBit
    ext j hj
    simp only [BitVec.getElem_and, BitVec.getElem_or]
    cases (s.reg q)[j] <;> rfl
  · rw [State.reg_setReg_other _ _ _ _ h]
    exact BitVec.and_self

theorem State.raise_signals (s : State) (r : Reg) (i : Nat) (h : blockOf r = .guard) : Signals s (s.raise r i) :=
  ⟨rfl, fun d => ⟨(s.func d).vecPending, rfl⟩, fun _ hq => RegFile.get_set_other _ _ _ _ (fun c => hq (c ▸ h)), fun q => s.raise_guard r q i, rfl, .of_eq rfl,
    rfl, rfl, rfl⟩

theorem State.record_signals (s : State) {dom : BitVec 5} {sev : BitVec 3} {sens : Bool} {a0 a1 : Word} :
    Signals s (s.record dom sev sens 0x0B 0x01 a0 a1) := by
  unfold State.record
  dsimp only
  split
  · exact ⟨rfl, fun d => ⟨(s.func d).vecPending, rfl⟩, fun _ _ => rfl, fun _ => BitVec.and_self, rfl, .of_eq rfl, rfl, rfl, rfl⟩
  · split
    · exact ⟨rfl, fun d => ⟨(s.func d).vecPending, rfl⟩, fun _ _ => rfl, fun _ => BitVec.and_self, rfl, .of_eq rfl, rfl, rfl, rfl⟩
    · refine ⟨rfl, fun d => ⟨(s.func d).vecPending, rfl⟩, fun _ _ => rfl, fun _ => BitVec.and_self, rfl, ⟨_, rfl, ?_⟩, rfl, rfl, rfl⟩
      intro e he
      rw [List.mem_singleton.1 he]
      rfl

theorem State.stormCount_signals (s : State) (d : Dom) (x : Nat) : Signals s (s.stormCount d x) := by
  unfold State.stormCount
  extract_lets n w l ev s1 i s2 s3
  split
  · exact Signals.refl s
  · have h1 : Signals s s1 := Signals.own rfl rfl rfl
    split
    · exact ((h1.trans (State.raise_signals s1 _ _ rfl)).trans (State.raise_signals s2 _ _ rfl)).trans (State.record_signals s3)
    · exact h1

theorem Signals.foldl {β : Type} (f : State → β → State) (hf : ∀ s x, Signals s (f s x)) (l : List β) (s : State) : Signals s (l.foldl f s) := by
  induction l generalizing s with
  | nil => exact Signals.refl s
  | cons x l ih => exact (hf s x).trans (ih _)

theorem State.setFunc_signals (s : State) (d : Dom) (l : List Nat) : Signals s (s.setFunc d { s.func d with vecPending := l }) := by
  refine ⟨rfl, fun e => ?_, fun _ _ => rfl, fun _ => BitVec.and_self, rfl, .of_eq rfl, rfl, rfl, rfl⟩
  by_cases h : e = d
  · subst h
    exact ⟨l, by simp only [State.func, State.setFunc]; simp⟩
  · refine ⟨(s.func e).vecPending, ?_⟩
    simp only [State.func, State.setFunc]
    exact Vector.getElem_set_ne _ _ (fun hv => h (Fin.ext hv.symm))

theorem State.message_signals (s : State) (d : Dom) (t : Nat) (xs : List Nat) : Signals s (s.message d t xs) := by
  unfold State.message
  extract_lets f held e ev s1 s2
  have h1 : Signals s s1 := Signals.own rfl rfl rfl
  split
  · exact h1
  · refine Signals.trans (t := s2) ?_ (Signals.foldl _ (fun u x => State.stormCount_signals u d x) _ s2)
    unfold s2
    split
    · exact h1.trans (State.setFunc_signals s1 d _)
    · exact h1.trans (Signals.own rfl rfl rfl)

theorem State.announceAt_signals (s : State) (d : Dom) (t : Nat) (xs : List Nat) : Signals s (s.announceAt d t xs) := by
  unfold State.announceAt
  split
  · exact State.message_signals _ _ _ _
  · split
    · exact (Signals.own (s := s) rfl rfl rfl).trans (State.message_signals s.draw d t xs)
    · exact Signals.own rfl rfl rfl

/-- Everything that the end of a command can do (R424, R427). -/
theorem State.announce_signals (s : State) : Signals s s.announce := by
  unfold State.announce
  extract_lets cur new reps s1
  have h1 : Signals s s1 := Signals.foldl _ (fun _ _ => State.announceAt_signals _ _ _ _) _ s
  exact h1.trans (Signals.own rfl rfl rfl)

section fields
variable (s : State)
@[simp] theorem State.announce_pending : s.announce.pending = s.pending := by rw [s.announce_signals.rest]
@[simp] theorem State.announce_dev : s.announce.dev = s.dev := by rw [s.announce_signals.rest]
@[simp] theorem State.announce_belay : s.announce.belay = s.belay := by rw [s.announce_signals.rest]
@[simp] theorem State.announce_rings : s.announce.rings = s.rings := by rw [s.announce_signals.rest]
@[simp] theorem State.announce_ports : s.announce.ports = s.ports := by rw [s.announce_signals.rest]
@[simp] theorem State.announce_rxq : s.announce.rxq = s.rxq := by rw [s.announce_signals.rest]
@[simp] theorem State.announce_pairs : s.announce.pairs = s.pairs := by rw [s.announce_signals.rest]
@[simp] theorem State.announce_groups : s.announce.groups = s.groups := by rw [s.announce_signals.rest]
@[simp] theorem State.announce_tarn : s.announce.tarn = s.tarn := by rw [s.announce_signals.rest]
@[simp] theorem State.announce_units : s.announce.units = s.units := by rw [s.announce_signals.rest]
@[simp] theorem State.announce_objs : s.announce.objs = s.objs := by rw [s.announce_signals.rest]
@[simp] theorem State.announce_flt : s.announce.flt = s.flt := by rw [s.announce_signals.rest]
@[simp] theorem State.announce_tmu : s.announce.tmu = s.tmu := by rw [s.announce_signals.rest]
@[simp] theorem State.announce_eths : s.announce.eths = s.eths := by rw [s.announce_signals.rest]
@[simp] theorem State.announce_ptp : s.announce.ptp = s.ptp := by rw [s.announce_signals.rest]
@[simp] theorem State.announce_links : s.announce.links = s.links := by rw [s.announce_signals.rest]
@[simp] theorem State.announce_fab : s.announce.fab = s.fab := by rw [s.announce_signals.rest]
@[simp] theorem State.announce_routes : s.announce.routes = s.routes := by rw [s.announce_signals.rest]
@[simp] theorem State.announce_spur : s.announce.spur = s.spur := by rw [s.announce_signals.rest]
@[simp] theorem State.announce_recs : s.announce.log.recs = s.log.recs := by rw [s.announce_signals.log]
@[simp] theorem State.announce_next : s.announce.log.next = s.log.next := by rw [s.announce_signals.log]
@[simp] theorem State.announce_cairn : s.announce.cairn = s.cairn := by rw [s.announce_signals.rest]
@[simp] theorem State.announce_counts : s.announce.counts = s.counts := by rw [s.announce_signals.rest]
@[simp] theorem State.announce_halves : s.announce.halves = s.halves := by rw [s.announce_signals.rest]
/-- A register apart from the MASK and STORM words. -/
theorem State.announce_reg (r : Reg) (h : blockOf r ≠ .guard) : s.announce.reg r = s.reg r := s.announce_signals.regs r h
@[simp] theorem State.announce_port (p : PortId) : s.announce.port p = s.port p := by unfold State.port; rw [State.announce_ports]
@[simp] theorem State.announce_group (k : GrpId) : s.announce.group k = s.group k := by unfold State.group; rw [State.announce_groups]
@[simp] theorem State.announce_entry (d : Dom) : s.announce.entry d = s.entry d := by unfold State.entry; rw [State.announce_belay]
@[simp] theorem State.announce_ring (i : Nat) : s.announce.ring i = s.ring i := by unfold State.ring; rw [State.announce_rings]
@[simp] theorem State.announce_eth (k : EpId) : s.announce.eth k = s.eth k := by unfold State.eth; rw [State.announce_eths]
@[simp] theorem State.announce_link (k : LinkId) : s.announce.link k = s.link k := by unfold State.link; rw [State.announce_links]
@[simp] theorem State.announce_route (r : Nat) : s.announce.route r = s.route r := by unfold State.route; rw [State.announce_routes]
@[simp] theorem State.announce_key (h : Nat) : s.announce.key h = s.key h := by unfold State.key; rw [State.announce_belay]
@[simp] theorem State.announce_obj (d : Dom) (o : Nat) : s.announce.obj d o = s.obj d o := by unfold State.obj; rw [State.announce_objs]
theorem State.announce_rf (r : Reg) (lo n : Nat) (h : blockOf r ≠ .guard) : s.announce.rf r lo n = s.rf r lo n := by unfold State.rf; rw [State.announce_reg s r h]
theorem State.announce_rb (r : Reg) (i : Nat) (h : blockOf r ≠ .guard) : s.announce.rb r i = s.rb r i := by unfold State.rb; rw [State.announce_reg s r h]
@[simp] theorem State.announce_raw : s.announce.raw = s.raw := by unfold State.raw; rw [State.announce_tmu]
end fields

/-- A field of a function other than its pending MSI-X entries is as before the end of a command. -/
theorem State.announce_func {α : Type} (s : State) (d : Dom) (f : Func → α) (hf : ∀ x l, f { x with vecPending := l } = f x) :
    f (s.announce.func d) = f (s.func d) := by
  obtain ⟨l, hl⟩ := s.announce_signals.func d
  rw [hl, hf]

/-- The frame that statements ask for, of the end of a command. -/
theorem State.announce_kept (s : State) (r : Reg) : Kept (s.reg r) s.announce r := by
  by_cases h : blockOf r = .guard
  · exact .inr ⟨h, s.announce_signals.guard r⟩
  · exact .inl (s.announce_reg r h)

theorem State.announce_sameRegs (s : State) : SameRegs s s.announce := s.announce_kept

theorem State.announce_logged (s : State) : Logged s s.announce [] := by
  refine ⟨?_, by rw [List.append_nil]; exact s.announce_signals.queued⟩
  rw [Part.same, s.announce_signals.log]
  exact ⟨rfl, rfl, rfl, rfl, rfl, rfl, rfl⟩

/-! ### The note of the nodes that may start (R264) -/

section note
variable (s : State)
@[simp] theorem State.noteMay_pending : s.noteMay.pending = s.pending := rfl
@[simp] theorem State.noteMay_regs : s.noteMay.regs = s.regs := rfl
@[simp] theorem State.noteMay_dev : s.noteMay.dev = s.dev := rfl
@[simp] theorem State.noteMay_belay : s.noteMay.belay = s.belay := rfl
@[simp] theorem State.noteMay_rings : s.noteMay.rings = s.rings := rfl
@[simp] theorem State.noteMay_ports : s.noteMay.ports = s.ports := rfl
@[simp] theorem State.noteMay_rxq : s.noteMay.rxq = s.rxq := rfl
@[simp] theorem State.noteMay_pairs : s.noteMay.pairs = s.pairs := rfl
@[simp] theorem State.noteMay_groups : s.noteMay.groups = s.groups := rfl
@[simp] theorem State.noteMay_tarn : s.noteMay.tarn = s.tarn := rfl
@[simp] theorem State.noteMay_units : s.noteMay.units = s.units := rfl
@[simp] theorem State.noteMay_objs : s.noteMay.objs = s.objs := rfl
@[simp] theorem State.noteMay_flt : s.noteMay.flt = s.flt := rfl
@[simp] theorem State.noteMay_tmu : s.noteMay.tmu = s.tmu := rfl
@[simp] theorem State.noteMay_eths : s.noteMay.eths = s.eths := rfl
@[simp] theorem State.noteMay_ptp : s.noteMay.ptp = s.ptp := rfl
@[simp] theorem State.noteMay_links : s.noteMay.links = s.links := rfl
@[simp] theorem State.noteMay_fab : s.noteMay.fab = s.fab := rfl
@[simp] theorem State.noteMay_routes : s.noteMay.routes = s.routes := rfl
@[simp] theorem State.noteMay_spur : s.noteMay.spur = s.spur := rfl
@[simp] theorem State.noteMay_log : s.noteMay.log = s.log := rfl
@[simp] theorem State.noteMay_cairn : s.noteMay.cairn = s.cairn := rfl
@[simp] theorem State.noteMay_counts : s.noteMay.counts = s.counts := rfl
@[simp] theorem State.noteMay_halves : s.noteMay.halves = s.halves := rfl
@[simp] theorem State.noteMay_evc : s.noteMay.evc = s.evc := rfl
@[simp] theorem State.noteMay_out : s.noteMay.out = s.out := rfl
@[simp] theorem State.noteMay_free : s.noteMay.free = s.free := rfl
@[simp] theorem State.noteMay_func (d : Dom) : s.noteMay.func d = s.func d := rfl
@[simp] theorem State.noteMay_reg (r : Reg) : s.noteMay.reg r = s.reg r := rfl
@[simp] theorem State.noteMay_port (p : PortId) : s.noteMay.port p = s.port p := rfl
@[simp] theorem State.noteMay_group (k : GrpId) : s.noteMay.group k = s.group k := rfl
@[simp] theorem State.noteMay_entry (d : Dom) : s.noteMay.entry d = s.entry d := rfl
@[simp] theorem State.noteMay_ring (i : Nat) : s.noteMay.ring i = s.ring i := rfl
@[simp] theorem State.noteMay_eth (k : EpId) : s.noteMay.eth k = s.eth k := rfl
@[simp] theorem State.noteMay_link (k : LinkId) : s.noteMay.link k = s.link k := rfl
@[simp] theorem State.noteMay_route (r : Nat) : s.noteMay.route r = s.route r := rfl
@[simp] theorem State.noteMay_key (h : Nat) : s.noteMay.key h = s.key h := rfl
@[simp] theorem State.noteMay_obj (d : Dom) (o : Nat) : s.noteMay.obj d o = s.obj d o := rfl
@[simp] theorem State.noteMay_rf (r : Reg) (lo n : Nat) : s.noteMay.rf r lo n = s.rf r lo n := rfl
@[simp] theorem State.noteMay_rb (r : Reg) (i : Nat) : s.noteMay.rb r i = s.rb r i := rfl
@[simp] theorem State.noteMay_raw : s.noteMay.raw = s.raw := rfl
end note

/-- A meaning that ends normally completes, in the state that State.noteMay and State.announce leave. -/
theorem Does.of_finish {i : Instr} {s u : State} {p : State → Prop} (h : exec i s = finish u) (g : p u.noteMay.announce) : Does i s p := ⟨u.noteMay.announce, h, g⟩

theorem Does.of_next {i : Instr} {s t : State} {p : State → Prop} (h : exec i s = .next t) (g : p t) : Does i s p := ⟨t, h, g⟩

end Sys2Proof.Machine
end

