-- ==== Sys2Proof/Laws/Access.lean ====
section
/-! SUPPORT. Reading a part of the state after an update of another part. -/
namespace Sys2Proof.Machine

variable (s : State)

@[simp] theorem State.record_pending (dom : BitVec 5) (sev : BitVec 3) (sens : Bool) (src code : Byte) (a0 a1 : Word) : (s.record dom sev sens src code a0 a1).pending = s.pending := by
  unfold State.record; dsimp only; split
  · rfl
  · split <;> rfl
@[simp] theorem State.record_out (dom : BitVec 5) (sev : BitVec 3) (sens : Bool) (src code : Byte) (a0 a1 : Word) : (s.record dom sev sens src code a0 a1).out = s.out := by
  unfold State.record; dsimp only; split
  · rfl
  · split <;> rfl
@[simp] theorem State.record_free (dom : BitVec 5) (sev : BitVec 3) (sens : Bool) (src code : Byte) (a0 a1 : Word) : (s.record dom sev sens src code a0 a1).free = s.free := by
  unfold State.record; dsimp only; split
  · rfl
  · split <;> rfl
@[simp] theorem State.record_regs (dom : BitVec 5) (sev : BitVec 3) (sens : Bool) (src code : Byte) (a0 a1 : Word) : (s.record dom sev sens src code a0 a1).regs = s.regs := by
  unfold State.record; dsimp only; split
  · rfl
  · split <;> rfl
@[simp] theorem State.record_dev (dom : BitVec 5) (sev : BitVec 3) (sens : Bool) (src code : Byte) (a0 a1 : Word) : (s.record dom sev sens src code a0 a1).dev = s.dev := by
  unfold State.record; dsimp only; split
  · rfl
  · split <;> rfl
@[simp] theorem State.record_belay (dom : BitVec 5) (sev : BitVec 3) (sens : Bool) (src code : Byte) (a0 a1 : Word) : (s.record dom sev sens src code a0 a1).belay = s.belay := by
  unfold State.record; dsimp only; split
  · rfl
  · split <;> rfl
@[simp] theorem State.record_funcs (dom : BitVec 5) (sev : BitVec 3) (sens : Bool) (src code : Byte) (a0 a1 : Word) : (s.record dom sev sens src code a0 a1).funcs = s.funcs := by
  unfold State.record; dsimp only; split
  · rfl
  · split <;> rfl
@[simp] theorem State.record_rings (dom : BitVec 5) (sev : BitVec 3) (sens : Bool) (src code : Byte) (a0 a1 : Word) : (s.record dom sev sens src code a0 a1).rings = s.rings := by
  unfold State.record; dsimp only; split
  · rfl
  · split <;> rfl
@[simp] theorem State.record_ports (dom : BitVec 5) (sev : BitVec 3) (sens : Bool) (src code : Byte) (a0 a1 : Word) : (s.record dom sev sens src code a0 a1).ports = s.ports := by
  unfold State.record; dsimp only; split
  · rfl
  · split <;> rfl
@[simp] theorem State.record_rxq (dom : BitVec 5) (sev : BitVec 3) (sens : Bool) (src code : Byte) (a0 a1 : Word) : (s.record dom sev sens src code a0 a1).rxq = s.rxq := by
  unfold State.record; dsimp only; split
  · rfl
  · split <;> rfl
@[simp] theorem State.record_pairs (dom : BitVec 5) (sev : BitVec 3) (sens : Bool) (src code : Byte) (a0 a1 : Word) : (s.record dom sev sens src code a0 a1).pairs = s.pairs := by
  unfold State.record; dsimp only; split
  · rfl
  · split <;> rfl
@[simp] theorem State.record_groups (dom : BitVec 5) (sev : BitVec 3) (sens : Bool) (src code : Byte) (a0 a1 : Word) : (s.record dom sev sens src code a0 a1).groups = s.groups := by
  unfold State.record; dsimp only; split
  · rfl
  · split <;> rfl
@[simp] theorem State.record_tarn (dom : BitVec 5) (sev : BitVec 3) (sens : Bool) (src code : Byte) (a0 a1 : Word) : (s.record dom sev sens src code a0 a1).tarn = s.tarn := by
  unfold State.record; dsimp only; split
  · rfl
  · split <;> rfl
@[simp] theorem State.record_units (dom : BitVec 5) (sev : BitVec 3) (sens : Bool) (src code : Byte) (a0 a1 : Word) : (s.record dom sev sens src code a0 a1).units = s.units := by
  unfold State.record; dsimp only; split
  · rfl
  · split <;> rfl
@[simp] theorem State.record_objs (dom : BitVec 5) (sev : BitVec 3) (sens : Bool) (src code : Byte) (a0 a1 : Word) : (s.record dom sev sens src code a0 a1).objs = s.objs := by
  unfold State.record; dsimp only; split
  · rfl
  · split <;> rfl
@[simp] theorem State.record_flt (dom : BitVec 5) (sev : BitVec 3) (sens : Bool) (src code : Byte) (a0 a1 : Word) : (s.record dom sev sens src code a0 a1).flt = s.flt := by
  unfold State.record; dsimp only; split
  · rfl
  · split <;> rfl
@[simp] theorem State.record_tmu (dom : BitVec 5) (sev : BitVec 3) (sens : Bool) (src code : Byte) (a0 a1 : Word) : (s.record dom sev sens src code a0 a1).tmu = s.tmu := by
  unfold State.record; dsimp only; split
  · rfl
  · split <;> rfl
@[simp] theorem State.record_eths (dom : BitVec 5) (sev : BitVec 3) (sens : Bool) (src code : Byte) (a0 a1 : Word) : (s.record dom sev sens src code a0 a1).eths = s.eths := by
  unfold State.record; dsimp only; split
  · rfl
  · split <;> rfl
@[simp] theorem State.record_ptp (dom : BitVec 5) (sev : BitVec 3) (sens : Bool) (src code : Byte) (a0 a1 : Word) : (s.record dom sev sens src code a0 a1).ptp = s.ptp := by
  unfold State.record; dsimp only; split
  · rfl
  · split <;> rfl
@[simp] theorem State.record_links (dom : BitVec 5) (sev : BitVec 3) (sens : Bool) (src code : Byte) (a0 a1 : Word) : (s.record dom sev sens src code a0 a1).links = s.links := by
  unfold State.record; dsimp only; split
  · rfl
  · split <;> rfl
@[simp] theorem State.record_fab (dom : BitVec 5) (sev : BitVec 3) (sens : Bool) (src code : Byte) (a0 a1 : Word) : (s.record dom sev sens src code a0 a1).fab = s.fab := by
  unfold State.record; dsimp only; split
  · rfl
  · split <;> rfl
@[simp] theorem State.record_routes (dom : BitVec 5) (sev : BitVec 3) (sens : Bool) (src code : Byte) (a0 a1 : Word) : (s.record dom sev sens src code a0 a1).routes = s.routes := by
  unfold State.record; dsimp only; split
  · rfl
  · split <;> rfl
@[simp] theorem State.record_spur (dom : BitVec 5) (sev : BitVec 3) (sens : Bool) (src code : Byte) (a0 a1 : Word) : (s.record dom sev sens src code a0 a1).spur = s.spur := by
  unfold State.record; dsimp only; split
  · rfl
  · split <;> rfl
@[simp] theorem State.record_evc (dom : BitVec 5) (sev : BitVec 3) (sens : Bool) (src code : Byte) (a0 a1 : Word) : (s.record dom sev sens src code a0 a1).evc = s.evc := by
  unfold State.record; dsimp only; split
  · rfl
  · split <;> rfl
@[simp] theorem State.record_cairn (dom : BitVec 5) (sev : BitVec 3) (sens : Bool) (src code : Byte) (a0 a1 : Word) : (s.record dom sev sens src code a0 a1).cairn = s.cairn := by
  unfold State.record; dsimp only; split
  · rfl
  · split <;> rfl
@[simp] theorem State.record_counts (dom : BitVec 5) (sev : BitVec 3) (sens : Bool) (src code : Byte) (a0 a1 : Word) : (s.record dom sev sens src code a0 a1).counts = s.counts := by
  unfold State.record; dsimp only; split
  · rfl
  · split <;> rfl
@[simp] theorem State.record_halves (dom : BitVec 5) (sev : BitVec 3) (sens : Bool) (src code : Byte) (a0 a1 : Word) : (s.record dom sev sens src code a0 a1).halves = s.halves := by
  unfold State.record; dsimp only; split
  · rfl
  · split <;> rfl
@[simp] theorem State.record_may (dom : BitVec 5) (sev : BitVec 3) (sens : Bool) (src code : Byte) (a0 a1 : Word) : (s.record dom sev sens src code a0 a1).may = s.may := by
  unfold State.record; dsimp only; split
  · rfl
  · split <;> rfl
@[simp] theorem State.port_setReg (r : Reg) (w : DWord) (q : PortId) : (s.setReg r w).port q = s.port q := rfl
@[simp] theorem State.group_setReg (r : Reg) (w : DWord) (q : GrpId) : (s.setReg r w).group q = s.group q := rfl
@[simp] theorem State.func_setReg (r : Reg) (w : DWord) (e : Dom) : (s.setReg r w).func e = s.func e := rfl
@[simp] theorem State.entry_setReg (r : Reg) (w : DWord) (e : Dom) : (s.setReg r w).entry e = s.entry e := rfl
@[simp] theorem State.ring_setReg (r : Reg) (w : DWord) (j : Nat) : (s.setReg r w).ring j = s.ring j := rfl
@[simp] theorem State.eth_setReg (r : Reg) (w : DWord) (q : EpId) : (s.setReg r w).eth q = s.eth q := rfl
@[simp] theorem State.link_setReg (r : Reg) (w : DWord) (q : LinkId) : (s.setReg r w).link q = s.link q := rfl
@[simp] theorem State.obj_setReg (r : Reg) (w : DWord) (e : Dom) (j : Nat) : (s.setReg r w).obj e j = s.obj e j := rfl
@[simp] theorem State.route_setReg (r : Reg) (w : DWord) (j : Nat) : (s.setReg r w).route j = s.route j := rfl
@[simp] theorem State.key_setReg (r : Reg) (w : DWord) (j : Nat) : (s.setReg r w).key j = s.key j := rfl
@[simp] theorem State.raw_setReg (r : Reg) (w : DWord) : (s.setReg r w).raw = s.raw := rfl
@[simp] theorem State.active_setReg (r : Reg) (w : DWord) (e : Dom) : (s.setReg r w).active e = s.active e := rfl
@[simp] theorem State.serves_setReg (r : Reg) (w : DWord) : (s.setReg r w).serves = s.serves := rfl
@[simp] theorem State.answers_setReg (r : Reg) (w : DWord) : (s.setReg r w).answers = s.answers := rfl
@[simp] theorem State.portOwner_setReg (r : Reg) (w : DWord) (q : PortId) : (s.setReg r w).portOwner q = s.portOwner q := rfl
@[simp] theorem State.dring_setReg (r : Reg) (w : DWord) (e : Dom) (m : RingNo) : (s.setReg r w).dring e m = s.dring e m := rfl
@[simp] theorem State.mute_setReg (r : Reg) (w : DWord) (e : Dom) : (s.setReg r w).mute e = s.mute e := rfl
@[simp] theorem State.port_setRf (r : Reg) (lo n v : Nat) (q : PortId) : (s.setRf r lo n v).port q = s.port q := rfl
@[simp] theorem State.group_setRf (r : Reg) (lo n v : Nat) (q : GrpId) : (s.setRf r lo n v).group q = s.group q := rfl
@[simp] theorem State.func_setRf (r : Reg) (lo n v : Nat) (e : Dom) : (s.setRf r lo n v).func e = s.func e := rfl
@[simp] theorem State.entry_setRf (r : Reg) (lo n v : Nat) (e : Dom) : (s.setRf r lo n v).entry e = s.entry e := rfl
@[simp] theorem State.ring_setRf (r : Reg) (lo n v : Nat) (j : Nat) : (s.setRf r lo n v).ring j = s.ring j := rfl
@[simp] theorem State.eth_setRf (r : Reg) (lo n v : Nat) (q : EpId) : (s.setRf r lo n v).eth q = s.eth q := rfl
@[simp] theorem State.link_setRf (r : Reg) (lo n v : Nat) (q : LinkId) : (s.setRf r lo n v).link q = s.link q := rfl
@[simp] theorem State.obj_setRf (r : Reg) (lo n v : Nat) (e : Dom) (j : Nat) : (s.setRf r lo n v).obj e j = s.obj e j := rfl
@[simp] theorem State.route_setRf (r : Reg) (lo n v : Nat) (j : Nat) : (s.setRf r lo n v).route j = s.route j := rfl
@[simp] theorem State.key_setRf (r : Reg) (lo n v : Nat) (j : Nat) : (s.setRf r lo n v).key j = s.key j := rfl
@[simp] theorem State.raw_setRf (r : Reg) (lo n v : Nat) : (s.setRf r lo n v).raw = s.raw := rfl
@[simp] theorem State.active_setRf (r : Reg) (lo n v : Nat) (e : Dom) : (s.setRf r lo n v).active e = s.active e := rfl
@[simp] theorem State.serves_setRf (r : Reg) (lo n v : Nat) : (s.setRf r lo n v).serves = s.serves := rfl
@[simp] theorem State.answers_setRf (r : Reg) (lo n v : Nat) : (s.setRf r lo n v).answers = s.answers := rfl
@[simp] theorem State.portOwner_setRf (r : Reg) (lo n v : Nat) (q : PortId) : (s.setRf r lo n v).portOwner q = s.portOwner q := rfl
@[simp] theorem State.dring_setRf (r : Reg) (lo n v : Nat) (e : Dom) (m : RingNo) : (s.setRf r lo n v).dring e m = s.dring e m := rfl
@[simp] theorem State.mute_setRf (r : Reg) (lo n v : Nat) (e : Dom) : (s.setRf r lo n v).mute e = s.mute e := rfl
@[simp] theorem State.port_raise (r : Reg) (i : Nat) (q : PortId) : (s.raise r i).port q = s.port q := rfl
@[simp] theorem State.group_raise (r : Reg) (i : Nat) (q : GrpId) : (s.raise r i).group q = s.group q := rfl
@[simp] theorem State.func_raise (r : Reg) (i : Nat) (e : Dom) : (s.raise r i).func e = s.func e := rfl
@[simp] theorem State.entry_raise (r : Reg) (i : Nat) (e : Dom) : (s.raise r i).entry e = s.entry e := rfl
@[simp] theorem State.ring_raise (r : Reg) (i : Nat) (j : Nat) : (s.raise r i).ring j = s.ring j := rfl
@[simp] theorem State.eth_raise (r : Reg) (i : Nat) (q : EpId) : (s.raise r i).eth q = s.eth q := rfl
@[simp] theorem State.link_raise (r : Reg) (i : Nat) (q : LinkId) : (s.raise r i).link q = s.link q := rfl
@[simp] theorem State.obj_raise (r : Reg) (i : Nat) (e : Dom) (j : Nat) : (s.raise r i).obj e j = s.obj e j := rfl
@[simp] theorem State.route_raise (r : Reg) (i : Nat) (j : Nat) : (s.raise r i).route j = s.route j := rfl
@[simp] theorem State.key_raise (r : Reg) (i : Nat) (j : Nat) : (s.raise r i).key j = s.key j := rfl
@[simp] theorem State.raw_raise (r : Reg) (i : Nat) : (s.raise r i).raw = s.raw := rfl
@[simp] theorem State.active_raise (r : Reg) (i : Nat) (e : Dom) : (s.raise r i).active e = s.active e := rfl
@[simp] theorem State.serves_raise (r : Reg) (i : Nat) : (s.raise r i).serves = s.serves := rfl
@[simp] theorem State.answers_raise (r : Reg) (i : Nat) : (s.raise r i).answers = s.answers := rfl
@[simp] theorem State.portOwner_raise (r : Reg) (i : Nat) (q : PortId) : (s.raise r i).portOwner q = s.portOwner q := rfl
@[simp] theorem State.dring_raise (r : Reg) (i : Nat) (e : Dom) (m : RingNo) : (s.raise r i).dring e m = s.dring e m := rfl
@[simp] theorem State.mute_raise (r : Reg) (i : Nat) (e : Dom) : (s.raise r i).mute e = s.mute e := rfl
@[simp] theorem State.reg_emit (o : Output) (q : Reg) : (s.emit o).reg q = s.reg q := rfl
@[simp] theorem State.rf_emit (o : Output) (q : Reg) (a m : Nat) : (s.emit o).rf q a m = s.rf q a m := rfl
@[simp] theorem State.rb_emit (o : Output) (q : Reg) (j : Nat) : (s.emit o).rb q j = s.rb q j := rfl
@[simp] theorem State.port_emit (o : Output) (q : PortId) : (s.emit o).port q = s.port q := rfl
@[simp] theorem State.group_emit (o : Output) (q : GrpId) : (s.emit o).group q = s.group q := rfl
@[simp] theorem State.func_emit (o : Output) (e : Dom) : (s.emit o).func e = s.func e := rfl
@[simp] theorem State.entry_emit (o : Output) (e : Dom) : (s.emit o).entry e = s.entry e := rfl
@[simp] theorem State.ring_emit (o : Output) (j : Nat) : (s.emit o).ring j = s.ring j := rfl
@[simp] theorem State.ringCfg_emit (o : Output) (j : Nat) : (s.emit o).ringCfg j = s.ringCfg j := rfl
@[simp] theorem State.eth_emit (o : Output) (q : EpId) : (s.emit o).eth q = s.eth q := rfl
@[simp] theorem State.link_emit (o : Output) (q : LinkId) : (s.emit o).link q = s.link q := rfl
@[simp] theorem State.obj_emit (o : Output) (e : Dom) (j : Nat) : (s.emit o).obj e j = s.obj e j := rfl
@[simp] theorem State.route_emit (o : Output) (j : Nat) : (s.emit o).route j = s.route j := rfl
@[simp] theorem State.key_emit (o : Output) (j : Nat) : (s.emit o).key j = s.key j := rfl
@[simp] theorem State.raw_emit (o : Output) : (s.emit o).raw = s.raw := rfl
@[simp] theorem State.active_emit (o : Output) (e : Dom) : (s.emit o).active e = s.active e := rfl
@[simp] theorem State.serves_emit (o : Output) : (s.emit o).serves = s.serves := rfl
@[simp] theorem State.answers_emit (o : Output) : (s.emit o).answers = s.answers := rfl
@[simp] theorem State.portOwner_emit (o : Output) (q : PortId) : (s.emit o).portOwner q = s.portOwner q := rfl
@[simp] theorem State.groupOf_emit (o : Output) (q : PortId) : (s.emit o).groupOf q = s.groupOf q := rfl
@[simp] theorem State.dring_emit (o : Output) (e : Dom) (m : RingNo) : (s.emit o).dring e m = s.dring e m := rfl
@[simp] theorem State.mute_emit (o : Output) (e : Dom) : (s.emit o).mute e = s.mute e := rfl
@[simp] theorem State.reg_setPort (p : PortId) (x : Port) (q : Reg) : (s.setPort p x).reg q = s.reg q := rfl
@[simp] theorem State.rf_setPort (p : PortId) (x : Port) (q : Reg) (a m : Nat) : (s.setPort p x).rf q a m = s.rf q a m := rfl
@[simp] theorem State.rb_setPort (p : PortId) (x : Port) (q : Reg) (j : Nat) : (s.setPort p x).rb q j = s.rb q j := rfl
@[simp] theorem State.group_setPort (p : PortId) (x : Port) (q : GrpId) : (s.setPort p x).group q = s.group q := rfl
@[simp] theorem State.func_setPort (p : PortId) (x : Port) (e : Dom) : (s.setPort p x).func e = s.func e := rfl
@[simp] theorem State.entry_setPort (p : PortId) (x : Port) (e : Dom) : (s.setPort p x).entry e = s.entry e := rfl
@[simp] theorem State.ring_setPort (p : PortId) (x : Port) (j : Nat) : (s.setPort p x).ring j = s.ring j := rfl
@[simp] theorem State.ringCfg_setPort (p : PortId) (x : Port) (j : Nat) : (s.setPort p x).ringCfg j = s.ringCfg j := rfl
@[simp] theorem State.eth_setPort (p : PortId) (x : Port) (q : EpId) : (s.setPort p x).eth q = s.eth q := rfl
@[simp] theorem State.link_setPort (p : PortId) (x : Port) (q : LinkId) : (s.setPort p x).link q = s.link q := rfl
@[simp] theorem State.obj_setPort (p : PortId) (x : Port) (e : Dom) (j : Nat) : (s.setPort p x).obj e j = s.obj e j := rfl
@[simp] theorem State.route_setPort (p : PortId) (x : Port) (j : Nat) : (s.setPort p x).route j = s.route j := rfl
@[simp] theorem State.key_setPort (p : PortId) (x : Port) (j : Nat) : (s.setPort p x).key j = s.key j := rfl
@[simp] theorem State.raw_setPort (p : PortId) (x : Port) : (s.setPort p x).raw = s.raw := rfl
@[simp] theorem State.active_setPort (p : PortId) (x : Port) (e : Dom) : (s.setPort p x).active e = s.active e := rfl
@[simp] theorem State.serves_setPort (p : PortId) (x : Port) : (s.setPort p x).serves = s.serves := rfl
@[simp] theorem State.answers_setPort (p : PortId) (x : Port) : (s.setPort p x).answers = s.answers := rfl
@[simp] theorem State.portOwner_setPort (p : PortId) (x : Port) (q : PortId) : (s.setPort p x).portOwner q = s.portOwner q := rfl
@[simp] theorem State.groupOf_setPort (p : PortId) (x : Port) (q : PortId) : (s.setPort p x).groupOf q = s.groupOf q := rfl
@[simp] theorem State.dring_setPort (p : PortId) (x : Port) (e : Dom) (m : RingNo) : (s.setPort p x).dring e m = s.dring e m := rfl
@[simp] theorem State.mute_setPort (p : PortId) (x : Port) (e : Dom) : (s.setPort p x).mute e = s.mute e := rfl
@[simp] theorem State.reg_setGroup (k : GrpId) (x : Group) (q : Reg) : (s.setGroup k x).reg q = s.reg q := rfl
@[simp] theorem State.rf_setGroup (k : GrpId) (x : Group) (q : Reg) (a m : Nat) : (s.setGroup k x).rf q a m = s.rf q a m := rfl
@[simp] theorem State.rb_setGroup (k : GrpId) (x : Group) (q : Reg) (j : Nat) : (s.setGroup k x).rb q j = s.rb q j := rfl
@[simp] theorem State.port_setGroup (k : GrpId) (x : Group) (q : PortId) : (s.setGroup k x).port q = s.port q := rfl
@[simp] theorem State.func_setGroup (k : GrpId) (x : Group) (e : Dom) : (s.setGroup k x).func e = s.func e := rfl
@[simp] theorem State.entry_setGroup (k : GrpId) (x : Group) (e : Dom) : (s.setGroup k x).entry e = s.entry e := rfl
@[simp] theorem State.ring_setGroup (k : GrpId) (x : Group) (j : Nat) : (s.setGroup k x).ring j = s.ring j := rfl
@[simp] theorem State.ringCfg_setGroup (k : GrpId) (x : Group) (j : Nat) : (s.setGroup k x).ringCfg j = s.ringCfg j := rfl
@[simp] theorem State.eth_setGroup (k : GrpId) (x : Group) (q : EpId) : (s.setGroup k x).eth q = s.eth q := rfl
@[simp] theorem State.link_setGroup (k : GrpId) (x : Group) (q : LinkId) : (s.setGroup k x).link q = s.link q := rfl
@[simp] theorem State.obj_setGroup (k : GrpId) (x : Group) (e : Dom) (j : Nat) : (s.setGroup k x).obj e j = s.obj e j := rfl
@[simp] theorem State.route_setGroup (k : GrpId) (x : Group) (j : Nat) : (s.setGroup k x).route j = s.route j := rfl
@[simp] theorem State.key_setGroup (k : GrpId) (x : Group) (j : Nat) : (s.setGroup k x).key j = s.key j := rfl
@[simp] theorem State.raw_setGroup (k : GrpId) (x : Group) : (s.setGroup k x).raw = s.raw := rfl
@[simp] theorem State.active_setGroup (k : GrpId) (x : Group) (e : Dom) : (s.setGroup k x).active e = s.active e := rfl
@[simp] theorem State.serves_setGroup (k : GrpId) (x : Group) : (s.setGroup k x).serves = s.serves := rfl
@[simp] theorem State.answers_setGroup (k : GrpId) (x : Group) : (s.setGroup k x).answers = s.answers := rfl
@[simp] theorem State.portOwner_setGroup (k : GrpId) (x : Group) (q : PortId) : (s.setGroup k x).portOwner q = s.portOwner q := rfl
@[simp] theorem State.groupOf_setGroup (k : GrpId) (x : Group) (q : PortId) : (s.setGroup k x).groupOf q = s.groupOf q := rfl
@[simp] theorem State.dring_setGroup (k : GrpId) (x : Group) (e : Dom) (m : RingNo) : (s.setGroup k x).dring e m = s.dring e m := rfl
@[simp] theorem State.mute_setGroup (k : GrpId) (x : Group) (e : Dom) : (s.setGroup k x).mute e = s.mute e := rfl
@[simp] theorem State.reg_setFunc (d : Dom) (x : Func) (q : Reg) : (s.setFunc d x).reg q = s.reg q := rfl
@[simp] theorem State.rf_setFunc (d : Dom) (x : Func) (q : Reg) (a m : Nat) : (s.setFunc d x).rf q a m = s.rf q a m := rfl
@[simp] theorem State.rb_setFunc (d : Dom) (x : Func) (q : Reg) (j : Nat) : (s.setFunc d x).rb q j = s.rb q j := rfl
@[simp] theorem State.port_setFunc (d : Dom) (x : Func) (q : PortId) : (s.setFunc d x).port q = s.port q := rfl
@[simp] theorem State.group_setFunc (d : Dom) (x : Func) (q : GrpId) : (s.setFunc d x).group q = s.group q := rfl
@[simp] theorem State.entry_setFunc (d : Dom) (x : Func) (e : Dom) : (s.setFunc d x).entry e = s.entry e := rfl
@[simp] theorem State.ring_setFunc (d : Dom) (x : Func) (j : Nat) : (s.setFunc d x).ring j = s.ring j := rfl
@[simp] theorem State.ringCfg_setFunc (d : Dom) (x : Func) (j : Nat) : (s.setFunc d x).ringCfg j = s.ringCfg j := rfl
@[simp] theorem State.eth_setFunc (d : Dom) (x : Func) (q : EpId) : (s.setFunc d x).eth q = s.eth q := rfl
@[simp] theorem State.link_setFunc (d : Dom) (x : Func) (q : LinkId) : (s.setFunc d x).link q = s.link q := rfl
@[simp] theorem State.obj_setFunc (d : Dom) (x : Func) (e : Dom) (j : Nat) : (s.setFunc d x).obj e j = s.obj e j := rfl
@[simp] theorem State.route_setFunc (d : Dom) (x : Func) (j : Nat) : (s.setFunc d x).route j = s.route j := rfl
@[simp] theorem State.key_setFunc (d : Dom) (x : Func) (j : Nat) : (s.setFunc d x).key j = s.key j := rfl
@[simp] theorem State.raw_setFunc (d : Dom) (x : Func) : (s.setFunc d x).raw = s.raw := rfl
@[simp] theorem State.active_setFunc (d : Dom) (x : Func) (e : Dom) : (s.setFunc d x).active e = s.active e := rfl
@[simp] theorem State.serves_setFunc (d : Dom) (x : Func) : (s.setFunc d x).serves = s.serves := rfl
@[simp] theorem State.answers_setFunc (d : Dom) (x : Func) : (s.setFunc d x).answers = s.answers := rfl
@[simp] theorem State.portOwner_setFunc (d : Dom) (x : Func) (q : PortId) : (s.setFunc d x).portOwner q = s.portOwner q := rfl
@[simp] theorem State.groupOf_setFunc (d : Dom) (x : Func) (q : PortId) : (s.setFunc d x).groupOf q = s.groupOf q := rfl
@[simp] theorem State.dring_setFunc (d : Dom) (x : Func) (e : Dom) (m : RingNo) : (s.setFunc d x).dring e m = s.dring e m := rfl
@[simp] theorem State.reg_setRing (i : Nat) (x : Ring) (q : Reg) : (s.setRing i x).reg q = s.reg q := rfl
@[simp] theorem State.rf_setRing (i : Nat) (x : Ring) (q : Reg) (a m : Nat) : (s.setRing i x).rf q a m = s.rf q a m := rfl
@[simp] theorem State.rb_setRing (i : Nat) (x : Ring) (q : Reg) (j : Nat) : (s.setRing i x).rb q j = s.rb q j := rfl
@[simp] theorem State.port_setRing (i : Nat) (x : Ring) (q : PortId) : (s.setRing i x).port q = s.port q := rfl
@[simp] theorem State.group_setRing (i : Nat) (x : Ring) (q : GrpId) : (s.setRing i x).group q = s.group q := rfl
@[simp] theorem State.func_setRing (i : Nat) (x : Ring) (e : Dom) : (s.setRing i x).func e = s.func e := rfl
@[simp] theorem State.entry_setRing (i : Nat) (x : Ring) (e : Dom) : (s.setRing i x).entry e = s.entry e := rfl
@[simp] theorem State.ringCfg_setRing (i : Nat) (x : Ring) (j : Nat) : (s.setRing i x).ringCfg j = s.ringCfg j := rfl
@[simp] theorem State.eth_setRing (i : Nat) (x : Ring) (q : EpId) : (s.setRing i x).eth q = s.eth q := rfl
@[simp] theorem State.link_setRing (i : Nat) (x : Ring) (q : LinkId) : (s.setRing i x).link q = s.link q := rfl
@[simp] theorem State.obj_setRing (i : Nat) (x : Ring) (e : Dom) (j : Nat) : (s.setRing i x).obj e j = s.obj e j := rfl
@[simp] theorem State.route_setRing (i : Nat) (x : Ring) (j : Nat) : (s.setRing i x).route j = s.route j := rfl
@[simp] theorem State.key_setRing (i : Nat) (x : Ring) (j : Nat) : (s.setRing i x).key j = s.key j := rfl
@[simp] theorem State.raw_setRing (i : Nat) (x : Ring) : (s.setRing i x).raw = s.raw := rfl
@[simp] theorem State.active_setRing (i : Nat) (x : Ring) (e : Dom) : (s.setRing i x).active e = s.active e := rfl
@[simp] theorem State.serves_setRing (i : Nat) (x : Ring) : (s.setRing i x).serves = s.serves := rfl
@[simp] theorem State.answers_setRing (i : Nat) (x : Ring) : (s.setRing i x).answers = s.answers := rfl
@[simp] theorem State.portOwner_setRing (i : Nat) (x : Ring) (q : PortId) : (s.setRing i x).portOwner q = s.portOwner q := rfl
@[simp] theorem State.groupOf_setRing (i : Nat) (x : Ring) (q : PortId) : (s.setRing i x).groupOf q = s.groupOf q := rfl
@[simp] theorem State.dring_setRing (i : Nat) (x : Ring) (e : Dom) (m : RingNo) : (s.setRing i x).dring e m = s.dring e m := rfl
@[simp] theorem State.mute_setRing (i : Nat) (x : Ring) (e : Dom) : (s.setRing i x).mute e = s.mute e := rfl
@[simp] theorem State.reg_setEth (k : EpId) (x : EthPort) (q : Reg) : (s.setEth k x).reg q = s.reg q := rfl
@[simp] theorem State.rf_setEth (k : EpId) (x : EthPort) (q : Reg) (a m : Nat) : (s.setEth k x).rf q a m = s.rf q a m := rfl
@[simp] theorem State.rb_setEth (k : EpId) (x : EthPort) (q : Reg) (j : Nat) : (s.setEth k x).rb q j = s.rb q j := rfl
@[simp] theorem State.port_setEth (k : EpId) (x : EthPort) (q : PortId) : (s.setEth k x).port q = s.port q := rfl
@[simp] theorem State.group_setEth (k : EpId) (x : EthPort) (q : GrpId) : (s.setEth k x).group q = s.group q := rfl
@[simp] theorem State.func_setEth (k : EpId) (x : EthPort) (e : Dom) : (s.setEth k x).func e = s.func e := rfl
@[simp] theorem State.entry_setEth (k : EpId) (x : EthPort) (e : Dom) : (s.setEth k x).entry e = s.entry e := rfl
@[simp] theorem State.ring_setEth (k : EpId) (x : EthPort) (j : Nat) : (s.setEth k x).ring j = s.ring j := rfl
@[simp] theorem State.ringCfg_setEth (k : EpId) (x : EthPort) (j : Nat) : (s.setEth k x).ringCfg j = s.ringCfg j := rfl
@[simp] theorem State.link_setEth (k : EpId) (x : EthPort) (q : LinkId) : (s.setEth k x).link q = s.link q := rfl
@[simp] theorem State.obj_setEth (k : EpId) (x : EthPort) (e : Dom) (j : Nat) : (s.setEth k x).obj e j = s.obj e j := rfl
@[simp] theorem State.route_setEth (k : EpId) (x : EthPort) (j : Nat) : (s.setEth k x).route j = s.route j := rfl
@[simp] theorem State.key_setEth (k : EpId) (x : EthPort) (j : Nat) : (s.setEth k x).key j = s.key j := rfl
@[simp] theorem State.raw_setEth (k : EpId) (x : EthPort) : (s.setEth k x).raw = s.raw := rfl
@[simp] theorem State.active_setEth (k : EpId) (x : EthPort) (e : Dom) : (s.setEth k x).active e = s.active e := rfl
@[simp] theorem State.serves_setEth (k : EpId) (x : EthPort) : (s.setEth k x).serves = s.serves := rfl
@[simp] theorem State.answers_setEth (k : EpId) (x : EthPort) : (s.setEth k x).answers = s.answers := rfl
@[simp] theorem State.portOwner_setEth (k : EpId) (x : EthPort) (q : PortId) : (s.setEth k x).portOwner q = s.portOwner q := rfl
@[simp] theorem State.groupOf_setEth (k : EpId) (x : EthPort) (q : PortId) : (s.setEth k x).groupOf q = s.groupOf q := rfl
@[simp] theorem State.dring_setEth (k : EpId) (x : EthPort) (e : Dom) (m : RingNo) : (s.setEth k x).dring e m = s.dring e m := rfl
@[simp] theorem State.mute_setEth (k : EpId) (x : EthPort) (e : Dom) : (s.setEth k x).mute e = s.mute e := rfl
@[simp] theorem State.reg_setLink (k : LinkId) (x : Link) (q : Reg) : (s.setLink k x).reg q = s.reg q := rfl
@[simp] theorem State.rf_setLink (k : LinkId) (x : Link) (q : Reg) (a m : Nat) : (s.setLink k x).rf q a m = s.rf q a m := rfl
@[simp] theorem State.rb_setLink (k : LinkId) (x : Link) (q : Reg) (j : Nat) : (s.setLink k x).rb q j = s.rb q j := rfl
@[simp] theorem State.port_setLink (k : LinkId) (x : Link) (q : PortId) : (s.setLink k x).port q = s.port q := rfl
@[simp] theorem State.group_setLink (k : LinkId) (x : Link) (q : GrpId) : (s.setLink k x).group q = s.group q := rfl
@[simp] theorem State.func_setLink (k : LinkId) (x : Link) (e : Dom) : (s.setLink k x).func e = s.func e := rfl
@[simp] theorem State.entry_setLink (k : LinkId) (x : Link) (e : Dom) : (s.setLink k x).entry e = s.entry e := rfl
@[simp] theorem State.ring_setLink (k : LinkId) (x : Link) (j : Nat) : (s.setLink k x).ring j = s.ring j := rfl
@[simp] theorem State.ringCfg_setLink (k : LinkId) (x : Link) (j : Nat) : (s.setLink k x).ringCfg j = s.ringCfg j := rfl
@[simp] theorem State.eth_setLink (k : LinkId) (x : Link) (q : EpId) : (s.setLink k x).eth q = s.eth q := rfl
@[simp] theorem State.obj_setLink (k : LinkId) (x : Link) (e : Dom) (j : Nat) : (s.setLink k x).obj e j = s.obj e j := rfl
@[simp] theorem State.route_setLink (k : LinkId) (x : Link) (j : Nat) : (s.setLink k x).route j = s.route j := rfl
@[simp] theorem State.key_setLink (k : LinkId) (x : Link) (j : Nat) : (s.setLink k x).key j = s.key j := rfl
@[simp] theorem State.raw_setLink (k : LinkId) (x : Link) : (s.setLink k x).raw = s.raw := rfl
@[simp] theorem State.active_setLink (k : LinkId) (x : Link) (e : Dom) : (s.setLink k x).active e = s.active e := rfl
@[simp] theorem State.serves_setLink (k : LinkId) (x : Link) : (s.setLink k x).serves = s.serves := rfl
@[simp] theorem State.answers_setLink (k : LinkId) (x : Link) : (s.setLink k x).answers = s.answers := rfl
@[simp] theorem State.portOwner_setLink (k : LinkId) (x : Link) (q : PortId) : (s.setLink k x).portOwner q = s.portOwner q := rfl
@[simp] theorem State.groupOf_setLink (k : LinkId) (x : Link) (q : PortId) : (s.setLink k x).groupOf q = s.groupOf q := rfl
@[simp] theorem State.dring_setLink (k : LinkId) (x : Link) (e : Dom) (m : RingNo) : (s.setLink k x).dring e m = s.dring e m := rfl
@[simp] theorem State.mute_setLink (k : LinkId) (x : Link) (e : Dom) : (s.setLink k x).mute e = s.mute e := rfl
@[simp] theorem State.reg_setObj (d : Dom) (o : Nat) (x : Obj) (q : Reg) : (s.setObj d o x).reg q = s.reg q := rfl
@[simp] theorem State.rf_setObj (d : Dom) (o : Nat) (x : Obj) (q : Reg) (a m : Nat) : (s.setObj d o x).rf q a m = s.rf q a m := rfl
@[simp] theorem State.rb_setObj (d : Dom) (o : Nat) (x : Obj) (q : Reg) (j : Nat) : (s.setObj d o x).rb q j = s.rb q j := rfl
@[simp] theorem State.port_setObj (d : Dom) (o : Nat) (x : Obj) (q : PortId) : (s.setObj d o x).port q = s.port q := rfl
@[simp] theorem State.group_setObj (d : Dom) (o : Nat) (x : Obj) (q : GrpId) : (s.setObj d o x).group q = s.group q := rfl
@[simp] theorem State.func_setObj (d : Dom) (o : Nat) (x : Obj) (e : Dom) : (s.setObj d o x).func e = s.func e := rfl
@[simp] theorem State.entry_setObj (d : Dom) (o : Nat) (x : Obj) (e : Dom) : (s.setObj d o x).entry e = s.entry e := rfl
@[simp] theorem State.ring_setObj (d : Dom) (o : Nat) (x : Obj) (j : Nat) : (s.setObj d o x).ring j = s.ring j := rfl
@[simp] theorem State.ringCfg_setObj (d : Dom) (o : Nat) (x : Obj) (j : Nat) : (s.setObj d o x).ringCfg j = s.ringCfg j := rfl
@[simp] theorem State.eth_setObj (d : Dom) (o : Nat) (x : Obj) (q : EpId) : (s.setObj d o x).eth q = s.eth q := rfl
@[simp] theorem State.link_setObj (d : Dom) (o : Nat) (x : Obj) (q : LinkId) : (s.setObj d o x).link q = s.link q := rfl
@[simp] theorem State.route_setObj (d : Dom) (o : Nat) (x : Obj) (j : Nat) : (s.setObj d o x).route j = s.route j := rfl
@[simp] theorem State.key_setObj (d : Dom) (o : Nat) (x : Obj) (j : Nat) : (s.setObj d o x).key j = s.key j := rfl
@[simp] theorem State.raw_setObj (d : Dom) (o : Nat) (x : Obj) : (s.setObj d o x).raw = s.raw := rfl
@[simp] theorem State.active_setObj (d : Dom) (o : Nat) (x : Obj) (e : Dom) : (s.setObj d o x).active e = s.active e := rfl
@[simp] theorem State.serves_setObj (d : Dom) (o : Nat) (x : Obj) : (s.setObj d o x).serves = s.serves := rfl
@[simp] theorem State.answers_setObj (d : Dom) (o : Nat) (x : Obj) : (s.setObj d o x).answers = s.answers := rfl
@[simp] theorem State.portOwner_setObj (d : Dom) (o : Nat) (x : Obj) (q : PortId) : (s.setObj d o x).portOwner q = s.portOwner q := rfl
@[simp] theorem State.groupOf_setObj (d : Dom) (o : Nat) (x : Obj) (q : PortId) : (s.setObj d o x).groupOf q = s.groupOf q := rfl
@[simp] theorem State.dring_setObj (d : Dom) (o : Nat) (x : Obj) (e : Dom) (m : RingNo) : (s.setObj d o x).dring e m = s.dring e m := rfl
@[simp] theorem State.mute_setObj (d : Dom) (o : Nat) (x : Obj) (e : Dom) : (s.setObj d o x).mute e = s.mute e := rfl
@[simp] theorem State.reg_setRoute (r : Nat) (x : Route) (q : Reg) : (s.setRoute r x).reg q = s.reg q := rfl
@[simp] theorem State.rf_setRoute (r : Nat) (x : Route) (q : Reg) (a m : Nat) : (s.setRoute r x).rf q a m = s.rf q a m := rfl
@[simp] theorem State.rb_setRoute (r : Nat) (x : Route) (q : Reg) (j : Nat) : (s.setRoute r x).rb q j = s.rb q j := rfl
@[simp] theorem State.port_setRoute (r : Nat) (x : Route) (q : PortId) : (s.setRoute r x).port q = s.port q := rfl
@[simp] theorem State.group_setRoute (r : Nat) (x : Route) (q : GrpId) : (s.setRoute r x).group q = s.group q := rfl
@[simp] theorem State.func_setRoute (r : Nat) (x : Route) (e : Dom) : (s.setRoute r x).func e = s.func e := rfl
@[simp] theorem State.entry_setRoute (r : Nat) (x : Route) (e : Dom) : (s.setRoute r x).entry e = s.entry e := rfl
@[simp] theorem State.ring_setRoute (r : Nat) (x : Route) (j : Nat) : (s.setRoute r x).ring j = s.ring j := rfl
@[simp] theorem State.ringCfg_setRoute (r : Nat) (x : Route) (j : Nat) : (s.setRoute r x).ringCfg j = s.ringCfg j := rfl
@[simp] theorem State.eth_setRoute (r : Nat) (x : Route) (q : EpId) : (s.setRoute r x).eth q = s.eth q := rfl
@[simp] theorem State.link_setRoute (r : Nat) (x : Route) (q : LinkId) : (s.setRoute r x).link q = s.link q := rfl
@[simp] theorem State.obj_setRoute (r : Nat) (x : Route) (e : Dom) (j : Nat) : (s.setRoute r x).obj e j = s.obj e j := rfl
@[simp] theorem State.key_setRoute (r : Nat) (x : Route) (j : Nat) : (s.setRoute r x).key j = s.key j := rfl
@[simp] theorem State.raw_setRoute (r : Nat) (x : Route) : (s.setRoute r x).raw = s.raw := rfl
@[simp] theorem State.active_setRoute (r : Nat) (x : Route) (e : Dom) : (s.setRoute r x).active e = s.active e := rfl
@[simp] theorem State.serves_setRoute (r : Nat) (x : Route) : (s.setRoute r x).serves = s.serves := rfl
@[simp] theorem State.answers_setRoute (r : Nat) (x : Route) : (s.setRoute r x).answers = s.answers := rfl
@[simp] theorem State.portOwner_setRoute (r : Nat) (x : Route) (q : PortId) : (s.setRoute r x).portOwner q = s.portOwner q := rfl
@[simp] theorem State.groupOf_setRoute (r : Nat) (x : Route) (q : PortId) : (s.setRoute r x).groupOf q = s.groupOf q := rfl
@[simp] theorem State.dring_setRoute (r : Nat) (x : Route) (e : Dom) (m : RingNo) : (s.setRoute r x).dring e m = s.dring e m := rfl
@[simp] theorem State.mute_setRoute (r : Nat) (x : Route) (e : Dom) : (s.setRoute r x).mute e = s.mute e := rfl
@[simp] theorem State.reg_setKey (i : Nat) (x : Option KeySlot) (q : Reg) : (s.setKey i x).reg q = s.reg q := rfl
@[simp] theorem State.rf_setKey (i : Nat) (x : Option KeySlot) (q : Reg) (a m : Nat) : (s.setKey i x).rf q a m = s.rf q a m := rfl
@[simp] theorem State.rb_setKey (i : Nat) (x : Option KeySlot) (q : Reg) (j : Nat) : (s.setKey i x).rb q j = s.rb q j := rfl
@[simp] theorem State.port_setKey (i : Nat) (x : Option KeySlot) (q : PortId) : (s.setKey i x).port q = s.port q := rfl
@[simp] theorem State.group_setKey (i : Nat) (x : Option KeySlot) (q : GrpId) : (s.setKey i x).group q = s.group q := rfl
@[simp] theorem State.func_setKey (i : Nat) (x : Option KeySlot) (e : Dom) : (s.setKey i x).func e = s.func e := rfl
@[simp] theorem State.entry_setKey (i : Nat) (x : Option KeySlot) (e : Dom) : (s.setKey i x).entry e = s.entry e := rfl
@[simp] theorem State.ring_setKey (i : Nat) (x : Option KeySlot) (j : Nat) : (s.setKey i x).ring j = s.ring j := rfl
@[simp] theorem State.ringCfg_setKey (i : Nat) (x : Option KeySlot) (j : Nat) : (s.setKey i x).ringCfg j = s.ringCfg j := rfl
@[simp] theorem State.eth_setKey (i : Nat) (x : Option KeySlot) (q : EpId) : (s.setKey i x).eth q = s.eth q := rfl
@[simp] theorem State.link_setKey (i : Nat) (x : Option KeySlot) (q : LinkId) : (s.setKey i x).link q = s.link q := rfl
@[simp] theorem State.obj_setKey (i : Nat) (x : Option KeySlot) (e : Dom) (j : Nat) : (s.setKey i x).obj e j = s.obj e j := rfl
@[simp] theorem State.route_setKey (i : Nat) (x : Option KeySlot) (j : Nat) : (s.setKey i x).route j = s.route j := rfl
@[simp] theorem State.raw_setKey (i : Nat) (x : Option KeySlot) : (s.setKey i x).raw = s.raw := rfl
@[simp] theorem State.active_setKey (i : Nat) (x : Option KeySlot) (e : Dom) : (s.setKey i x).active e = s.active e := rfl
@[simp] theorem State.serves_setKey (i : Nat) (x : Option KeySlot) : (s.setKey i x).serves = s.serves := rfl
@[simp] theorem State.answers_setKey (i : Nat) (x : Option KeySlot) : (s.setKey i x).answers = s.answers := rfl
@[simp] theorem State.portOwner_setKey (i : Nat) (x : Option KeySlot) (q : PortId) : (s.setKey i x).portOwner q = s.portOwner q := rfl
@[simp] theorem State.groupOf_setKey (i : Nat) (x : Option KeySlot) (q : PortId) : (s.setKey i x).groupOf q = s.groupOf q := rfl
@[simp] theorem State.dring_setKey (i : Nat) (x : Option KeySlot) (e : Dom) (m : RingNo) : (s.setKey i x).dring e m = s.dring e m := rfl
@[simp] theorem State.mute_setKey (i : Nat) (x : Option KeySlot) (e : Dom) : (s.setKey i x).mute e = s.mute e := rfl
@[simp] theorem State.reg_draw (q : Reg) : (s.draw).reg q = s.reg q := rfl
@[simp] theorem State.rf_draw (q : Reg) (a m : Nat) : (s.draw).rf q a m = s.rf q a m := rfl
@[simp] theorem State.rb_draw (q : Reg) (j : Nat) : (s.draw).rb q j = s.rb q j := rfl
@[simp] theorem State.port_draw (q : PortId) : (s.draw).port q = s.port q := rfl
@[simp] theorem State.group_draw (q : GrpId) : (s.draw).group q = s.group q := rfl
@[simp] theorem State.func_draw (e : Dom) : (s.draw).func e = s.func e := rfl
@[simp] theorem State.entry_draw (e : Dom) : (s.draw).entry e = s.entry e := rfl
@[simp] theorem State.ring_draw (j : Nat) : (s.draw).ring j = s.ring j := rfl
@[simp] theorem State.ringCfg_draw (j : Nat) : (s.draw).ringCfg j = s.ringCfg j := rfl
@[simp] theorem State.eth_draw (q : EpId) : (s.draw).eth q = s.eth q := rfl
@[simp] theorem State.link_draw (q : LinkId) : (s.draw).link q = s.link q := rfl
@[simp] theorem State.obj_draw (e : Dom) (j : Nat) : (s.draw).obj e j = s.obj e j := rfl
@[simp] theorem State.route_draw (j : Nat) : (s.draw).route j = s.route j := rfl
@[simp] theorem State.key_draw (j : Nat) : (s.draw).key j = s.key j := rfl
@[simp] theorem State.raw_draw  : (s.draw).raw = s.raw := rfl
@[simp] theorem State.active_draw (e : Dom) : (s.draw).active e = s.active e := rfl
@[simp] theorem State.serves_draw  : (s.draw).serves = s.serves := rfl
@[simp] theorem State.answers_draw  : (s.draw).answers = s.answers := rfl
@[simp] theorem State.portOwner_draw (q : PortId) : (s.draw).portOwner q = s.portOwner q := rfl
@[simp] theorem State.groupOf_draw (q : PortId) : (s.draw).groupOf q = s.groupOf q := rfl
@[simp] theorem State.dring_draw (e : Dom) (m : RingNo) : (s.draw).dring e m = s.dring e m := rfl
@[simp] theorem State.mute_draw (e : Dom) : (s.draw).mute e = s.mute e := rfl
@[simp] theorem State.reg_setCairn (c : Cairn) (q : Reg) : (s.setCairn c).reg q = s.reg q := rfl
@[simp] theorem State.rf_setCairn (c : Cairn) (q : Reg) (a m : Nat) : (s.setCairn c).rf q a m = s.rf q a m := rfl
@[simp] theorem State.rb_setCairn (c : Cairn) (q : Reg) (j : Nat) : (s.setCairn c).rb q j = s.rb q j := rfl
@[simp] theorem State.port_setCairn (c : Cairn) (q : PortId) : (s.setCairn c).port q = s.port q := rfl
@[simp] theorem State.group_setCairn (c : Cairn) (q : GrpId) : (s.setCairn c).group q = s.group q := rfl
@[simp] theorem State.func_setCairn (c : Cairn) (e : Dom) : (s.setCairn c).func e = s.func e := rfl
@[simp] theorem State.entry_setCairn (c : Cairn) (e : Dom) : (s.setCairn c).entry e = s.entry e := rfl
@[simp] theorem State.ring_setCairn (c : Cairn) (j : Nat) : (s.setCairn c).ring j = s.ring j := rfl
@[simp] theorem State.ringCfg_setCairn (c : Cairn) (j : Nat) : (s.setCairn c).ringCfg j = s.ringCfg j := rfl
@[simp] theorem State.eth_setCairn (c : Cairn) (q : EpId) : (s.setCairn c).eth q = s.eth q := rfl
@[simp] theorem State.link_setCairn (c : Cairn) (q : LinkId) : (s.setCairn c).link q = s.link q := rfl
@[simp] theorem State.obj_setCairn (c : Cairn) (e : Dom) (j : Nat) : (s.setCairn c).obj e j = s.obj e j := rfl
@[simp] theorem State.route_setCairn (c : Cairn) (j : Nat) : (s.setCairn c).route j = s.route j := rfl
@[simp] theorem State.key_setCairn (c : Cairn) (j : Nat) : (s.setCairn c).key j = s.key j := rfl
@[simp] theorem State.raw_setCairn (c : Cairn) : (s.setCairn c).raw = s.raw := rfl
@[simp] theorem State.active_setCairn (c : Cairn) (e : Dom) : (s.setCairn c).active e = s.active e := rfl
@[simp] theorem State.serves_setCairn (c : Cairn) : (s.setCairn c).serves = s.serves := rfl
@[simp] theorem State.answers_setCairn (c : Cairn) : (s.setCairn c).answers = s.answers := rfl
@[simp] theorem State.portOwner_setCairn (c : Cairn) (q : PortId) : (s.setCairn c).portOwner q = s.portOwner q := rfl
@[simp] theorem State.groupOf_setCairn (c : Cairn) (q : PortId) : (s.setCairn c).groupOf q = s.groupOf q := rfl
@[simp] theorem State.dring_setCairn (c : Cairn) (e : Dom) (m : RingNo) : (s.setCairn c).dring e m = s.dring e m := rfl
@[simp] theorem State.mute_setCairn (c : Cairn) (e : Dom) : (s.setCairn c).mute e = s.mute e := rfl
@[simp] theorem State.reg_setEngine (e : EngId) (x : Engine) (q : Reg) : (s.setEngine e x).reg q = s.reg q := rfl
@[simp] theorem State.rf_setEngine (e : EngId) (x : Engine) (q : Reg) (a m : Nat) : (s.setEngine e x).rf q a m = s.rf q a m := rfl
@[simp] theorem State.rb_setEngine (e : EngId) (x : Engine) (q : Reg) (j : Nat) : (s.setEngine e x).rb q j = s.rb q j := rfl
@[simp] theorem State.port_setEngine (e : EngId) (x : Engine) (q : PortId) : (s.setEngine e x).port q = s.port q := rfl
@[simp] theorem State.group_setEngine (e : EngId) (x : Engine) (q : GrpId) : (s.setEngine e x).group q = s.group q := rfl
@[simp] theorem State.ring_setEngine (e : EngId) (x : Engine) (j : Nat) : (s.setEngine e x).ring j = s.ring j := rfl
@[simp] theorem State.ringCfg_setEngine (e : EngId) (x : Engine) (j : Nat) : (s.setEngine e x).ringCfg j = s.ringCfg j := rfl
@[simp] theorem State.eth_setEngine (e : EngId) (x : Engine) (q : EpId) : (s.setEngine e x).eth q = s.eth q := rfl
@[simp] theorem State.link_setEngine (e : EngId) (x : Engine) (q : LinkId) : (s.setEngine e x).link q = s.link q := rfl
@[simp] theorem State.route_setEngine (e : EngId) (x : Engine) (j : Nat) : (s.setEngine e x).route j = s.route j := rfl
@[simp] theorem State.key_setEngine (e : EngId) (x : Engine) (j : Nat) : (s.setEngine e x).key j = s.key j := rfl
@[simp] theorem State.raw_setEngine (e : EngId) (x : Engine) : (s.setEngine e x).raw = s.raw := rfl
@[simp] theorem State.serves_setEngine (e : EngId) (x : Engine) : (s.setEngine e x).serves = s.serves := rfl
@[simp] theorem State.answers_setEngine (e : EngId) (x : Engine) : (s.setEngine e x).answers = s.answers := rfl
@[simp] theorem State.portOwner_setEngine (e : EngId) (x : Engine) (q : PortId) : (s.setEngine e x).portOwner q = s.portOwner q := rfl
@[simp] theorem State.groupOf_setEngine (e : EngId) (x : Engine) (q : PortId) : (s.setEngine e x).groupOf q = s.groupOf q := rfl
@[simp] theorem State.reg_setCore (c : CoreId) (x : Core) (q : Reg) : (s.setCore c x).reg q = s.reg q := rfl
@[simp] theorem State.rf_setCore (c : CoreId) (x : Core) (q : Reg) (a m : Nat) : (s.setCore c x).rf q a m = s.rf q a m := rfl
@[simp] theorem State.rb_setCore (c : CoreId) (x : Core) (q : Reg) (j : Nat) : (s.setCore c x).rb q j = s.rb q j := rfl
@[simp] theorem State.port_setCore (c : CoreId) (x : Core) (q : PortId) : (s.setCore c x).port q = s.port q := rfl
@[simp] theorem State.group_setCore (c : CoreId) (x : Core) (q : GrpId) : (s.setCore c x).group q = s.group q := rfl
@[simp] theorem State.func_setCore (c : CoreId) (x : Core) (e : Dom) : (s.setCore c x).func e = s.func e := rfl
@[simp] theorem State.entry_setCore (c : CoreId) (x : Core) (e : Dom) : (s.setCore c x).entry e = s.entry e := rfl
@[simp] theorem State.ring_setCore (c : CoreId) (x : Core) (j : Nat) : (s.setCore c x).ring j = s.ring j := rfl
@[simp] theorem State.ringCfg_setCore (c : CoreId) (x : Core) (j : Nat) : (s.setCore c x).ringCfg j = s.ringCfg j := rfl
@[simp] theorem State.eth_setCore (c : CoreId) (x : Core) (q : EpId) : (s.setCore c x).eth q = s.eth q := rfl
@[simp] theorem State.link_setCore (c : CoreId) (x : Core) (q : LinkId) : (s.setCore c x).link q = s.link q := rfl
@[simp] theorem State.obj_setCore (c : CoreId) (x : Core) (e : Dom) (j : Nat) : (s.setCore c x).obj e j = s.obj e j := rfl
@[simp] theorem State.route_setCore (c : CoreId) (x : Core) (j : Nat) : (s.setCore c x).route j = s.route j := rfl
@[simp] theorem State.key_setCore (c : CoreId) (x : Core) (j : Nat) : (s.setCore c x).key j = s.key j := rfl
@[simp] theorem State.raw_setCore (c : CoreId) (x : Core) : (s.setCore c x).raw = s.raw := rfl
@[simp] theorem State.active_setCore (c : CoreId) (x : Core) (e : Dom) : (s.setCore c x).active e = s.active e := rfl
@[simp] theorem State.serves_setCore (c : CoreId) (x : Core) : (s.setCore c x).serves = s.serves := rfl
@[simp] theorem State.answers_setCore (c : CoreId) (x : Core) : (s.setCore c x).answers = s.answers := rfl
@[simp] theorem State.portOwner_setCore (c : CoreId) (x : Core) (q : PortId) : (s.setCore c x).portOwner q = s.portOwner q := rfl
@[simp] theorem State.groupOf_setCore (c : CoreId) (x : Core) (q : PortId) : (s.setCore c x).groupOf q = s.groupOf q := rfl
@[simp] theorem State.dring_setCore (c : CoreId) (x : Core) (e : Dom) (m : RingNo) : (s.setCore c x).dring e m = s.dring e m := rfl
@[simp] theorem State.mute_setCore (c : CoreId) (x : Core) (e : Dom) : (s.setCore c x).mute e = s.mute e := rfl
@[simp] theorem State.reg_setTmu (t : Tmu) (q : Reg) : (s.setTmu t).reg q = s.reg q := rfl
@[simp] theorem State.rf_setTmu (t : Tmu) (q : Reg) (a m : Nat) : (s.setTmu t).rf q a m = s.rf q a m := rfl
@[simp] theorem State.rb_setTmu (t : Tmu) (q : Reg) (j : Nat) : (s.setTmu t).rb q j = s.rb q j := rfl
@[simp] theorem State.port_setTmu (t : Tmu) (q : PortId) : (s.setTmu t).port q = s.port q := rfl
@[simp] theorem State.group_setTmu (t : Tmu) (q : GrpId) : (s.setTmu t).group q = s.group q := rfl
@[simp] theorem State.func_setTmu (t : Tmu) (e : Dom) : (s.setTmu t).func e = s.func e := rfl
@[simp] theorem State.entry_setTmu (t : Tmu) (e : Dom) : (s.setTmu t).entry e = s.entry e := rfl
@[simp] theorem State.ring_setTmu (t : Tmu) (j : Nat) : (s.setTmu t).ring j = s.ring j := rfl
@[simp] theorem State.ringCfg_setTmu (t : Tmu) (j : Nat) : (s.setTmu t).ringCfg j = s.ringCfg j := rfl
@[simp] theorem State.eth_setTmu (t : Tmu) (q : EpId) : (s.setTmu t).eth q = s.eth q := rfl
@[simp] theorem State.link_setTmu (t : Tmu) (q : LinkId) : (s.setTmu t).link q = s.link q := rfl
@[simp] theorem State.obj_setTmu (t : Tmu) (e : Dom) (j : Nat) : (s.setTmu t).obj e j = s.obj e j := rfl
@[simp] theorem State.route_setTmu (t : Tmu) (j : Nat) : (s.setTmu t).route j = s.route j := rfl
@[simp] theorem State.key_setTmu (t : Tmu) (j : Nat) : (s.setTmu t).key j = s.key j := rfl
@[simp] theorem State.active_setTmu (t : Tmu) (e : Dom) : (s.setTmu t).active e = s.active e := rfl
@[simp] theorem State.serves_setTmu (t : Tmu) : (s.setTmu t).serves = s.serves := rfl
@[simp] theorem State.answers_setTmu (t : Tmu) : (s.setTmu t).answers = s.answers := rfl
@[simp] theorem State.portOwner_setTmu (t : Tmu) (q : PortId) : (s.setTmu t).portOwner q = s.portOwner q := rfl
@[simp] theorem State.groupOf_setTmu (t : Tmu) (q : PortId) : (s.setTmu t).groupOf q = s.groupOf q := rfl
@[simp] theorem State.dring_setTmu (t : Tmu) (e : Dom) (m : RingNo) : (s.setTmu t).dring e m = s.dring e m := rfl
@[simp] theorem State.mute_setTmu (t : Tmu) (e : Dom) : (s.setTmu t).mute e = s.mute e := rfl
@[simp] theorem State.reg_setLog (l : Log) (q : Reg) : (s.setLog l).reg q = s.reg q := rfl
@[simp] theorem State.rf_setLog (l : Log) (q : Reg) (a m : Nat) : (s.setLog l).rf q a m = s.rf q a m := rfl
@[simp] theorem State.rb_setLog (l : Log) (q : Reg) (j : Nat) : (s.setLog l).rb q j = s.rb q j := rfl
@[simp] theorem State.port_setLog (l : Log) (q : PortId) : (s.setLog l).port q = s.port q := rfl
@[simp] theorem State.group_setLog (l : Log) (q : GrpId) : (s.setLog l).group q = s.group q := rfl
@[simp] theorem State.func_setLog (l : Log) (e : Dom) : (s.setLog l).func e = s.func e := rfl
@[simp] theorem State.entry_setLog (l : Log) (e : Dom) : (s.setLog l).entry e = s.entry e := rfl
@[simp] theorem State.ring_setLog (l : Log) (j : Nat) : (s.setLog l).ring j = s.ring j := rfl
@[simp] theorem State.ringCfg_setLog (l : Log) (j : Nat) : (s.setLog l).ringCfg j = s.ringCfg j := rfl
@[simp] theorem State.eth_setLog (l : Log) (q : EpId) : (s.setLog l).eth q = s.eth q := rfl
@[simp] theorem State.link_setLog (l : Log) (q : LinkId) : (s.setLog l).link q = s.link q := rfl
@[simp] theorem State.obj_setLog (l : Log) (e : Dom) (j : Nat) : (s.setLog l).obj e j = s.obj e j := rfl
@[simp] theorem State.route_setLog (l : Log) (j : Nat) : (s.setLog l).route j = s.route j := rfl
@[simp] theorem State.key_setLog (l : Log) (j : Nat) : (s.setLog l).key j = s.key j := rfl
@[simp] theorem State.raw_setLog (l : Log) : (s.setLog l).raw = s.raw := rfl
@[simp] theorem State.active_setLog (l : Log) (e : Dom) : (s.setLog l).active e = s.active e := rfl
@[simp] theorem State.serves_setLog (l : Log) : (s.setLog l).serves = s.serves := rfl
@[simp] theorem State.answers_setLog (l : Log) : (s.setLog l).answers = s.answers := rfl
@[simp] theorem State.portOwner_setLog (l : Log) (q : PortId) : (s.setLog l).portOwner q = s.portOwner q := rfl
@[simp] theorem State.groupOf_setLog (l : Log) (q : PortId) : (s.setLog l).groupOf q = s.groupOf q := rfl
@[simp] theorem State.dring_setLog (l : Log) (e : Dom) (m : RingNo) : (s.setLog l).dring e m = s.dring e m := rfl
@[simp] theorem State.mute_setLog (l : Log) (e : Dom) : (s.setLog l).mute e = s.mute e := rfl
@[simp] theorem State.reg_countBy (b i n : Nat) (q : Reg) : (s.countBy b i n).reg q = s.reg q := rfl
@[simp] theorem State.rf_countBy (b i n : Nat) (q : Reg) (a m : Nat) : (s.countBy b i n).rf q a m = s.rf q a m := rfl
@[simp] theorem State.rb_countBy (b i n : Nat) (q : Reg) (j : Nat) : (s.countBy b i n).rb q j = s.rb q j := rfl
@[simp] theorem State.port_countBy (b i n : Nat) (q : PortId) : (s.countBy b i n).port q = s.port q := rfl
@[simp] theorem State.group_countBy (b i n : Nat) (q : GrpId) : (s.countBy b i n).group q = s.group q := rfl
@[simp] theorem State.func_countBy (b i n : Nat) (e : Dom) : (s.countBy b i n).func e = s.func e := rfl
@[simp] theorem State.entry_countBy (b i n : Nat) (e : Dom) : (s.countBy b i n).entry e = s.entry e := rfl
@[simp] theorem State.ring_countBy (b i n : Nat) (j : Nat) : (s.countBy b i n).ring j = s.ring j := rfl
@[simp] theorem State.ringCfg_countBy (b i n : Nat) (j : Nat) : (s.countBy b i n).ringCfg j = s.ringCfg j := rfl
@[simp] theorem State.eth_countBy (b i n : Nat) (q : EpId) : (s.countBy b i n).eth q = s.eth q := rfl
@[simp] theorem State.link_countBy (b i n : Nat) (q : LinkId) : (s.countBy b i n).link q = s.link q := rfl
@[simp] theorem State.obj_countBy (b i n : Nat) (e : Dom) (j : Nat) : (s.countBy b i n).obj e j = s.obj e j := rfl
@[simp] theorem State.route_countBy (b i n : Nat) (j : Nat) : (s.countBy b i n).route j = s.route j := rfl
@[simp] theorem State.key_countBy (b i n : Nat) (j : Nat) : (s.countBy b i n).key j = s.key j := rfl
@[simp] theorem State.raw_countBy (b i n : Nat) : (s.countBy b i n).raw = s.raw := rfl
@[simp] theorem State.active_countBy (b i n : Nat) (e : Dom) : (s.countBy b i n).active e = s.active e := rfl
@[simp] theorem State.serves_countBy (b i n : Nat) : (s.countBy b i n).serves = s.serves := rfl
@[simp] theorem State.answers_countBy (b i n : Nat) : (s.countBy b i n).answers = s.answers := rfl
@[simp] theorem State.portOwner_countBy (b i n : Nat) (q : PortId) : (s.countBy b i n).portOwner q = s.portOwner q := rfl
@[simp] theorem State.groupOf_countBy (b i n : Nat) (q : PortId) : (s.countBy b i n).groupOf q = s.groupOf q := rfl
@[simp] theorem State.dring_countBy (b i n : Nat) (e : Dom) (m : RingNo) : (s.countBy b i n).dring e m = s.dring e m := rfl
@[simp] theorem State.mute_countBy (b i n : Nat) (e : Dom) : (s.countBy b i n).mute e = s.mute e := rfl
@[simp] theorem State.port_portEvt (p : PortId) (i : Nat) (q : PortId) : (s.portEvt p i).port q = s.port q := rfl
@[simp] theorem State.group_portEvt (p : PortId) (i : Nat) (q : GrpId) : (s.portEvt p i).group q = s.group q := rfl
@[simp] theorem State.func_portEvt (p : PortId) (i : Nat) (e : Dom) : (s.portEvt p i).func e = s.func e := rfl
@[simp] theorem State.entry_portEvt (p : PortId) (i : Nat) (e : Dom) : (s.portEvt p i).entry e = s.entry e := rfl
@[simp] theorem State.ring_portEvt (p : PortId) (i : Nat) (j : Nat) : (s.portEvt p i).ring j = s.ring j := rfl
@[simp] theorem State.eth_portEvt (p : PortId) (i : Nat) (q : EpId) : (s.portEvt p i).eth q = s.eth q := rfl
@[simp] theorem State.link_portEvt (p : PortId) (i : Nat) (q : LinkId) : (s.portEvt p i).link q = s.link q := rfl
@[simp] theorem State.obj_portEvt (p : PortId) (i : Nat) (e : Dom) (j : Nat) : (s.portEvt p i).obj e j = s.obj e j := rfl
@[simp] theorem State.route_portEvt (p : PortId) (i : Nat) (j : Nat) : (s.portEvt p i).route j = s.route j := rfl
@[simp] theorem State.key_portEvt (p : PortId) (i : Nat) (j : Nat) : (s.portEvt p i).key j = s.key j := rfl
@[simp] theorem State.raw_portEvt (p : PortId) (i : Nat) : (s.portEvt p i).raw = s.raw := rfl
@[simp] theorem State.active_portEvt (p : PortId) (i : Nat) (e : Dom) : (s.portEvt p i).active e = s.active e := rfl
@[simp] theorem State.serves_portEvt (p : PortId) (i : Nat) : (s.portEvt p i).serves = s.serves := rfl
@[simp] theorem State.answers_portEvt (p : PortId) (i : Nat) : (s.portEvt p i).answers = s.answers := rfl
@[simp] theorem State.portOwner_portEvt (p : PortId) (i : Nat) (q : PortId) : (s.portEvt p i).portOwner q = s.portOwner q := rfl
@[simp] theorem State.dring_portEvt (p : PortId) (i : Nat) (e : Dom) (m : RingNo) : (s.portEvt p i).dring e m = s.dring e m := rfl
@[simp] theorem State.mute_portEvt (p : PortId) (i : Nat) (e : Dom) : (s.portEvt p i).mute e = s.mute e := rfl
@[simp] theorem State.port_grpEvt (k : GrpId) (i : Nat) (q : PortId) : (s.grpEvt k i).port q = s.port q := rfl
@[simp] theorem State.group_grpEvt (k : GrpId) (i : Nat) (q : GrpId) : (s.grpEvt k i).group q = s.group q := rfl
@[simp] theorem State.func_grpEvt (k : GrpId) (i : Nat) (e : Dom) : (s.grpEvt k i).func e = s.func e := rfl
@[simp] theorem State.entry_grpEvt (k : GrpId) (i : Nat) (e : Dom) : (s.grpEvt k i).entry e = s.entry e := rfl
@[simp] theorem State.ring_grpEvt (k : GrpId) (i : Nat) (j : Nat) : (s.grpEvt k i).ring j = s.ring j := rfl
@[simp] theorem State.eth_grpEvt (k : GrpId) (i : Nat) (q : EpId) : (s.grpEvt k i).eth q = s.eth q := rfl
@[simp] theorem State.link_grpEvt (k : GrpId) (i : Nat) (q : LinkId) : (s.grpEvt k i).link q = s.link q := rfl
@[simp] theorem State.obj_grpEvt (k : GrpId) (i : Nat) (e : Dom) (j : Nat) : (s.grpEvt k i).obj e j = s.obj e j := rfl
@[simp] theorem State.route_grpEvt (k : GrpId) (i : Nat) (j : Nat) : (s.grpEvt k i).route j = s.route j := rfl
@[simp] theorem State.key_grpEvt (k : GrpId) (i : Nat) (j : Nat) : (s.grpEvt k i).key j = s.key j := rfl
@[simp] theorem State.raw_grpEvt (k : GrpId) (i : Nat) : (s.grpEvt k i).raw = s.raw := rfl
@[simp] theorem State.active_grpEvt (k : GrpId) (i : Nat) (e : Dom) : (s.grpEvt k i).active e = s.active e := rfl
@[simp] theorem State.serves_grpEvt (k : GrpId) (i : Nat) : (s.grpEvt k i).serves = s.serves := rfl
@[simp] theorem State.answers_grpEvt (k : GrpId) (i : Nat) : (s.grpEvt k i).answers = s.answers := rfl
@[simp] theorem State.portOwner_grpEvt (k : GrpId) (i : Nat) (q : PortId) : (s.grpEvt k i).portOwner q = s.portOwner q := rfl
@[simp] theorem State.dring_grpEvt (k : GrpId) (i : Nat) (e : Dom) (m : RingNo) : (s.grpEvt k i).dring e m = s.dring e m := rfl
@[simp] theorem State.mute_grpEvt (k : GrpId) (i : Nat) (e : Dom) : (s.grpEvt k i).mute e = s.mute e := rfl
@[simp] theorem State.reg_count (b i : Nat) (q : Reg) : (s.count b i).reg q = s.reg q := rfl
@[simp] theorem State.rf_count (b i : Nat) (q : Reg) (a m : Nat) : (s.count b i).rf q a m = s.rf q a m := rfl
@[simp] theorem State.rb_count (b i : Nat) (q : Reg) (j : Nat) : (s.count b i).rb q j = s.rb q j := rfl
@[simp] theorem State.port_count (b i : Nat) (q : PortId) : (s.count b i).port q = s.port q := rfl
@[simp] theorem State.group_count (b i : Nat) (q : GrpId) : (s.count b i).group q = s.group q := rfl
@[simp] theorem State.func_count (b i : Nat) (e : Dom) : (s.count b i).func e = s.func e := rfl
@[simp] theorem State.entry_count (b i : Nat) (e : Dom) : (s.count b i).entry e = s.entry e := rfl
@[simp] theorem State.ring_count (b i : Nat) (j : Nat) : (s.count b i).ring j = s.ring j := rfl
@[simp] theorem State.ringCfg_count (b i : Nat) (j : Nat) : (s.count b i).ringCfg j = s.ringCfg j := rfl
@[simp] theorem State.eth_count (b i : Nat) (q : EpId) : (s.count b i).eth q = s.eth q := rfl
@[simp] theorem State.link_count (b i : Nat) (q : LinkId) : (s.count b i).link q = s.link q := rfl
@[simp] theorem State.obj_count (b i : Nat) (e : Dom) (j : Nat) : (s.count b i).obj e j = s.obj e j := rfl
@[simp] theorem State.route_count (b i : Nat) (j : Nat) : (s.count b i).route j = s.route j := rfl
@[simp] theorem State.key_count (b i : Nat) (j : Nat) : (s.count b i).key j = s.key j := rfl
@[simp] theorem State.raw_count (b i : Nat) : (s.count b i).raw = s.raw := rfl
@[simp] theorem State.active_count (b i : Nat) (e : Dom) : (s.count b i).active e = s.active e := rfl
@[simp] theorem State.serves_count (b i : Nat) : (s.count b i).serves = s.serves := rfl
@[simp] theorem State.answers_count (b i : Nat) : (s.count b i).answers = s.answers := rfl
@[simp] theorem State.portOwner_count (b i : Nat) (q : PortId) : (s.count b i).portOwner q = s.portOwner q := rfl
@[simp] theorem State.groupOf_count (b i : Nat) (q : PortId) : (s.count b i).groupOf q = s.groupOf q := rfl
@[simp] theorem State.dring_count (b i : Nat) (e : Dom) (m : RingNo) : (s.count b i).dring e m = s.dring e m := rfl
@[simp] theorem State.mute_count (b i : Nat) (e : Dom) : (s.count b i).mute e = s.mute e := rfl
@[simp] theorem State.reg_countPort (p : PortId) (off : Nat) (q : Reg) : (s.countPort p off).reg q = s.reg q := rfl
@[simp] theorem State.rf_countPort (p : PortId) (off : Nat) (q : Reg) (a m : Nat) : (s.countPort p off).rf q a m = s.rf q a m := rfl
@[simp] theorem State.rb_countPort (p : PortId) (off : Nat) (q : Reg) (j : Nat) : (s.countPort p off).rb q j = s.rb q j := rfl
@[simp] theorem State.port_countPort (p : PortId) (off : Nat) (q : PortId) : (s.countPort p off).port q = s.port q := rfl
@[simp] theorem State.group_countPort (p : PortId) (off : Nat) (q : GrpId) : (s.countPort p off).group q = s.group q := rfl
@[simp] theorem State.func_countPort (p : PortId) (off : Nat) (e : Dom) : (s.countPort p off).func e = s.func e := rfl
@[simp] theorem State.entry_countPort (p : PortId) (off : Nat) (e : Dom) : (s.countPort p off).entry e = s.entry e := rfl
@[simp] theorem State.ring_countPort (p : PortId) (off : Nat) (j : Nat) : (s.countPort p off).ring j = s.ring j := rfl
@[simp] theorem State.ringCfg_countPort (p : PortId) (off : Nat) (j : Nat) : (s.countPort p off).ringCfg j = s.ringCfg j := rfl
@[simp] theorem State.eth_countPort (p : PortId) (off : Nat) (q : EpId) : (s.countPort p off).eth q = s.eth q := rfl
@[simp] theorem State.link_countPort (p : PortId) (off : Nat) (q : LinkId) : (s.countPort p off).link q = s.link q := rfl
@[simp] theorem State.obj_countPort (p : PortId) (off : Nat) (e : Dom) (j : Nat) : (s.countPort p off).obj e j = s.obj e j := rfl
@[simp] theorem State.route_countPort (p : PortId) (off : Nat) (j : Nat) : (s.countPort p off).route j = s.route j := rfl
@[simp] theorem State.key_countPort (p : PortId) (off : Nat) (j : Nat) : (s.countPort p off).key j = s.key j := rfl
@[simp] theorem State.raw_countPort (p : PortId) (off : Nat) : (s.countPort p off).raw = s.raw := rfl
@[simp] theorem State.active_countPort (p : PortId) (off : Nat) (e : Dom) : (s.countPort p off).active e = s.active e := rfl
@[simp] theorem State.serves_countPort (p : PortId) (off : Nat) : (s.countPort p off).serves = s.serves := rfl
@[simp] theorem State.answers_countPort (p : PortId) (off : Nat) : (s.countPort p off).answers = s.answers := rfl
@[simp] theorem State.portOwner_countPort (p : PortId) (off : Nat) (q : PortId) : (s.countPort p off).portOwner q = s.portOwner q := rfl
@[simp] theorem State.groupOf_countPort (p : PortId) (off : Nat) (q : PortId) : (s.countPort p off).groupOf q = s.groupOf q := rfl
@[simp] theorem State.dring_countPort (p : PortId) (off : Nat) (e : Dom) (m : RingNo) : (s.countPort p off).dring e m = s.dring e m := rfl
@[simp] theorem State.mute_countPort (p : PortId) (off : Nat) (e : Dom) : (s.countPort p off).mute e = s.mute e := rfl
@[simp] theorem State.reg_countDev (off : Nat) (q : Reg) : (s.countDev off).reg q = s.reg q := rfl
@[simp] theorem State.rf_countDev (off : Nat) (q : Reg) (a m : Nat) : (s.countDev off).rf q a m = s.rf q a m := rfl
@[simp] theorem State.rb_countDev (off : Nat) (q : Reg) (j : Nat) : (s.countDev off).rb q j = s.rb q j := rfl
@[simp] theorem State.port_countDev (off : Nat) (q : PortId) : (s.countDev off).port q = s.port q := rfl
@[simp] theorem State.group_countDev (off : Nat) (q : GrpId) : (s.countDev off).group q = s.group q := rfl
@[simp] theorem State.func_countDev (off : Nat) (e : Dom) : (s.countDev off).func e = s.func e := rfl
@[simp] theorem State.entry_countDev (off : Nat) (e : Dom) : (s.countDev off).entry e = s.entry e := rfl
@[simp] theorem State.ring_countDev (off : Nat) (j : Nat) : (s.countDev off).ring j = s.ring j := rfl
@[simp] theorem State.ringCfg_countDev (off : Nat) (j : Nat) : (s.countDev off).ringCfg j = s.ringCfg j := rfl
@[simp] theorem State.eth_countDev (off : Nat) (q : EpId) : (s.countDev off).eth q = s.eth q := rfl
@[simp] theorem State.link_countDev (off : Nat) (q : LinkId) : (s.countDev off).link q = s.link q := rfl
@[simp] theorem State.obj_countDev (off : Nat) (e : Dom) (j : Nat) : (s.countDev off).obj e j = s.obj e j := rfl
@[simp] theorem State.route_countDev (off : Nat) (j : Nat) : (s.countDev off).route j = s.route j := rfl
@[simp] theorem State.key_countDev (off : Nat) (j : Nat) : (s.countDev off).key j = s.key j := rfl
@[simp] theorem State.raw_countDev (off : Nat) : (s.countDev off).raw = s.raw := rfl
@[simp] theorem State.active_countDev (off : Nat) (e : Dom) : (s.countDev off).active e = s.active e := rfl
@[simp] theorem State.serves_countDev (off : Nat) : (s.countDev off).serves = s.serves := rfl
@[simp] theorem State.answers_countDev (off : Nat) : (s.countDev off).answers = s.answers := rfl
@[simp] theorem State.portOwner_countDev (off : Nat) (q : PortId) : (s.countDev off).portOwner q = s.portOwner q := rfl
@[simp] theorem State.groupOf_countDev (off : Nat) (q : PortId) : (s.countDev off).groupOf q = s.groupOf q := rfl
@[simp] theorem State.dring_countDev (off : Nat) (e : Dom) (m : RingNo) : (s.countDev off).dring e m = s.dring e m := rfl
@[simp] theorem State.mute_countDev (off : Nat) (e : Dom) : (s.countDev off).mute e = s.mute e := rfl
@[simp] theorem State.reg_record (dom : BitVec 5) (sev : BitVec 3) (sens : Bool) (src code : Byte) (a0 a1 : Word) (q : Reg) : (s.record dom sev sens src code a0 a1).reg q = s.reg q := by
  unfold State.record; dsimp only; split
  · rfl
  · split <;> rfl
@[simp] theorem State.rf_record (dom : BitVec 5) (sev : BitVec 3) (sens : Bool) (src code : Byte) (a0 a1 : Word) (q : Reg) (a m : Nat) : (s.record dom sev sens src code a0 a1).rf q a m = s.rf q a m := by
  unfold State.record; dsimp only; split
  · rfl
  · split <;> rfl
@[simp] theorem State.rb_record (dom : BitVec 5) (sev : BitVec 3) (sens : Bool) (src code : Byte) (a0 a1 : Word) (q : Reg) (j : Nat) : (s.record dom sev sens src code a0 a1).rb q j = s.rb q j := by
  unfold State.record; dsimp only; split
  · rfl
  · split <;> rfl
@[simp] theorem State.port_record (dom : BitVec 5) (sev : BitVec 3) (sens : Bool) (src code : Byte) (a0 a1 : Word) (q : PortId) : (s.record dom sev sens src code a0 a1).port q = s.port q := by
  unfold State.record; dsimp only; split
  · rfl
  · split <;> rfl
@[simp] theorem State.group_record (dom : BitVec 5) (sev : BitVec 3) (sens : Bool) (src code : Byte) (a0 a1 : Word) (q : GrpId) : (s.record dom sev sens src code a0 a1).group q = s.group q := by
  unfold State.record; dsimp only; split
  · rfl
  · split <;> rfl
@[simp] theorem State.func_record (dom : BitVec 5) (sev : BitVec 3) (sens : Bool) (src code : Byte) (a0 a1 : Word) (e : Dom) : (s.record dom sev sens src code a0 a1).func e = s.func e := by
  unfold State.record; dsimp only; split
  · rfl
  · split <;> rfl
@[simp] theorem State.entry_record (dom : BitVec 5) (sev : BitVec 3) (sens : Bool) (src code : Byte) (a0 a1 : Word) (e : Dom) : (s.record dom sev sens src code a0 a1).entry e = s.entry e := by
  unfold State.record; dsimp only; split
  · rfl
  · split <;> rfl
@[simp] theorem State.ring_record (dom : BitVec 5) (sev : BitVec 3) (sens : Bool) (src code : Byte) (a0 a1 : Word) (j : Nat) : (s.record dom sev sens src code a0 a1).ring j = s.ring j := by
  unfold State.record; dsimp only; split
  · rfl
  · split <;> rfl
@[simp] theorem State.ringCfg_record (dom : BitVec 5) (sev : BitVec 3) (sens : Bool) (src code : Byte) (a0 a1 : Word) (j : Nat) : (s.record dom sev sens src code a0 a1).ringCfg j = s.ringCfg j := by
  unfold State.record; dsimp only; split
  · rfl
  · split <;> rfl
@[simp] theorem State.eth_record (dom : BitVec 5) (sev : BitVec 3) (sens : Bool) (src code : Byte) (a0 a1 : Word) (q : EpId) : (s.record dom sev sens src code a0 a1).eth q = s.eth q := by
  unfold State.record; dsimp only; split
  · rfl
  · split <;> rfl
@[simp] theorem State.link_record (dom : BitVec 5) (sev : BitVec 3) (sens : Bool) (src code : Byte) (a0 a1 : Word) (q : LinkId) : (s.record dom sev sens src code a0 a1).link q = s.link q := by
  unfold State.record; dsimp only; split
  · rfl
  · split <;> rfl
@[simp] theorem State.obj_record (dom : BitVec 5) (sev : BitVec 3) (sens : Bool) (src code : Byte) (a0 a1 : Word) (e : Dom) (j : Nat) : (s.record dom sev sens src code a0 a1).obj e j = s.obj e j := by
  unfold State.record; dsimp only; split
  · rfl
  · split <;> rfl
@[simp] theorem State.route_record (dom : BitVec 5) (sev : BitVec 3) (sens : Bool) (src code : Byte) (a0 a1 : Word) (j : Nat) : (s.record dom sev sens src code a0 a1).route j = s.route j := by
  unfold State.record; dsimp only; split
  · rfl
  · split <;> rfl
@[simp] theorem State.key_record (dom : BitVec 5) (sev : BitVec 3) (sens : Bool) (src code : Byte) (a0 a1 : Word) (j : Nat) : (s.record dom sev sens src code a0 a1).key j = s.key j := by
  unfold State.record; dsimp only; split
  · rfl
  · split <;> rfl
@[simp] theorem State.raw_record (dom : BitVec 5) (sev : BitVec 3) (sens : Bool) (src code : Byte) (a0 a1 : Word) : (s.record dom sev sens src code a0 a1).raw = s.raw := by
  unfold State.record; dsimp only; split
  · rfl
  · split <;> rfl
@[simp] theorem State.active_record (dom : BitVec 5) (sev : BitVec 3) (sens : Bool) (src code : Byte) (a0 a1 : Word) (e : Dom) : (s.record dom sev sens src code a0 a1).active e = s.active e := by
  unfold State.record; dsimp only; split
  · rfl
  · split <;> rfl
@[simp] theorem State.serves_record (dom : BitVec 5) (sev : BitVec 3) (sens : Bool) (src code : Byte) (a0 a1 : Word) : (s.record dom sev sens src code a0 a1).serves = s.serves := by
  unfold State.record; dsimp only; split
  · rfl
  · split <;> rfl
@[simp] theorem State.answers_record (dom : BitVec 5) (sev : BitVec 3) (sens : Bool) (src code : Byte) (a0 a1 : Word) : (s.record dom sev sens src code a0 a1).answers = s.answers := by
  unfold State.record; dsimp only; split
  · rfl
  · split <;> rfl
@[simp] theorem State.portOwner_record (dom : BitVec 5) (sev : BitVec 3) (sens : Bool) (src code : Byte) (a0 a1 : Word) (q : PortId) : (s.record dom sev sens src code a0 a1).portOwner q = s.portOwner q := by
  unfold State.record; dsimp only; split
  · rfl
  · split <;> rfl
@[simp] theorem State.groupOf_record (dom : BitVec 5) (sev : BitVec 3) (sens : Bool) (src code : Byte) (a0 a1 : Word) (q : PortId) : (s.record dom sev sens src code a0 a1).groupOf q = s.groupOf q := by
  unfold State.record; dsimp only; split
  · rfl
  · split <;> rfl
@[simp] theorem State.dring_record (dom : BitVec 5) (sev : BitVec 3) (sens : Bool) (src code : Byte) (a0 a1 : Word) (e : Dom) (m : RingNo) : (s.record dom sev sens src code a0 a1).dring e m = s.dring e m := by
  unfold State.record; dsimp only; split
  · rfl
  · split <;> rfl
@[simp] theorem State.mute_record (dom : BitVec 5) (sev : BitVec 3) (sens : Bool) (src code : Byte) (a0 a1 : Word) (e : Dom) : (s.record dom sev sens src code a0 a1).mute e = s.mute e := by
  unfold State.record; dsimp only; split
  · rfl
  · split <;> rfl

end Sys2Proof.Machine
end

