-- ==== Sys2Proof/Laws/Keeps.lean ====
section
/-! SUPPORT. What every operation keeps: the queue, what has left the device, the canonical form of the tables and, but for the lifecycle commands, the lifecycle.
The lemmas of the operations and of the meanings follow in KeepsA to KeepsD. -/
namespace Sys2Proof.Machine

/-- t has the queue of s, and all that had left the device; its tables are canonical if those of s are; for b = true its lifecycle is that of s. -/
def Keeps (b : Bool) (s t : State) : Prop :=
  (t.pending = s.pending ∧ ∃ l, t.out = s.out ++ l) ∧ (TablesOk s → TablesOk t) ∧ (b = true → t.belay.otp.life = s.belay.otp.life)

variable {b : Bool} {s0 s t : State}

theorem Keeps.refl (s : State) : Keeps b s s := ⟨⟨rfl, [], by simp⟩, id, fun _ => rfl⟩

theorem Keeps.trans (h : Keeps b s0 s) (g : Keeps b s t) : Keeps b s0 t :=
  ⟨⟨g.1.1.trans h.1.1, by
    obtain ⟨l, hl⟩ := h.1.2
    obtain ⟨m, hm⟩ := g.1.2
    exact ⟨l ++ m, by rw [hm, hl, List.append_assoc]⟩⟩, fun k => g.2.1 (h.2.1 k), fun k => (g.2.2 k).trans (h.2.2 k)⟩

theorem Keeps.weaken (h : Keeps true s t) : Keeps b s t := ⟨h.1, h.2.1, fun _ => h.2.2 rfl⟩

/-- An update of fields that are neither tables nor the queue. -/
theorem Keeps.same (h : Keeps b s0 s) (hp : t.pending = s.pending ∧ t.out = s.out) (regs : t.regs = s.regs) (tarn : t.tarn = s.tarn)
    (rings : t.rings = s.rings) (objs : t.objs = s.objs) (flt : t.flt = s.flt) (routes : t.routes = s.routes)
    (counts : t.counts = s.counts) (halves : t.halves = s.halves) (keys : t.belay.keys = s.belay.keys)
    (life : t.belay.otp.life = s.belay.otp.life) : Keeps b s0 t :=
  h.trans ⟨⟨hp.1, [], by rw [hp.2, List.append_nil]⟩, fun k => ⟨regs ▸ k.regs, tarn ▸ k.tarn, rings ▸ k.rings, objs ▸ k.objs, flt ▸ k.flt, routes ▸ k.routes,
    counts ▸ k.counts, halves ▸ k.halves, keys ▸ k.keys⟩, fun _ => life⟩

/-- An update that touches tables, each in canonical form afterwards. -/
theorem Keeps.tables (h : Keeps b s0 s) (hp : t.pending = s.pending ∧ t.out = s.out) (ht : TablesOk s → TablesOk t)
    (life : b = true → t.belay.otp.life = s.belay.otp.life) : Keeps b s0 t := h.trans ⟨⟨hp.1, [], by rw [hp.2, List.append_nil]⟩, ht, life⟩

theorem Keeps.ite {c : Prop} [Decidable c] {x y : State} (hx : Keeps b s0 x) (hy : Keeps b s0 y) : Keeps b s0 (if c then x else y) := by
  split <;> assumption

theorem Keeps.let_ {x : State} {f : State → State} (hx : Keeps b s0 x) (hf : ∀ y, Keeps b s0 y → Keeps b s0 (f y)) :
    Keeps b s0 (let y := x; f y) := hf x hx

theorem Keeps.letv {β : Type} {x : β} {f : β → State} (hf : Keeps b s0 (f x)) : Keeps b s0 (let y := x; f y) := hf

theorem Keeps.foldl {β : Type} {l : List β} {f : State → β → State} (h : Keeps b s0 s)
    (hf : ∀ y x, Keeps b s0 y → Keeps b s0 (f y x)) : Keeps b s0 (l.foldl f s) := by
  induction l generalizing s with
  | nil => exact h
  | cons x l ih => exact ih (hf s x h)

/-- The next state of a result, where there is one, satisfies p. -/
def Result.All (p : State → Prop) : Result → Prop
  | .next t => p t
  | .fault _ => True
  | .refused _ => True

theorem Result.all_next {p : State → Prop} (h : p t) : Result.All p (.next t) := h

theorem Result.all_iff {p : State → Prop} {r : Result} : Result.All p r ↔ ∀ t, r = .next t → p t := by
  cases r <;> simp [Result.All]

theorem Result.all_ite {p : State → Prop} {c : Prop} [Decidable c] {x y : Result} (hx : Result.All p x) (hy : Result.All p y) :
    Result.All p (if c then x else y) := by
  split <;> assumption

theorem Result.all_let {x : State} {f : State → Result} (hx : Keeps b s0 x) (hf : ∀ y, Keeps b s0 y → Result.All (Keeps b s0) (f y)) :
    Result.All (Keeps b s0) (let y := x; f y) := hf x hx

theorem Result.all_letv {β : Type} {p : State → Prop} {x : β} {f : β → Result} (hf : Result.All p (f x)) :
    Result.All p (let y := x; f y) := hf

/-! ### The operations that write a table -/

theorem State.setReg_keeps (h : Keeps b s0 s) {r : Reg} {w : DWord} : Keeps b s0 (s.setReg r w) :=
  h.tables ⟨rfl, rfl⟩ (fun k => ⟨RegFile.wf_set _ _ _ k.regs, k.tarn, k.rings, k.objs, k.flt, k.routes, k.counts, k.halves, k.keys⟩) (fun _ => rfl)

theorem State.setRing_keeps (h : Keeps b s0 s) {i : Nat} {x : Ring} : Keeps b s0 (s.setRing i x) :=
  h.tables ⟨rfl, rfl⟩ (fun k => ⟨k.regs, k.tarn, Tbl.wf_put _ _ _ k.rings, k.objs, k.flt, k.routes, k.counts, k.halves, k.keys⟩) (fun _ => rfl)

theorem State.setObj_keeps (h : Keeps b s0 s) {d : Dom} {o : Nat} {x : Obj} : Keeps b s0 (s.setObj d o x) :=
  h.tables ⟨rfl, rfl⟩ (fun k => ⟨k.regs, k.tarn, k.rings, Tbl.wf_put _ _ _ k.objs, k.flt, k.routes, k.counts, k.halves, k.keys⟩) (fun _ => rfl)

theorem State.setRoute_keeps (h : Keeps b s0 s) {i : Nat} {x : Route} : Keeps b s0 (s.setRoute i x) :=
  h.tables ⟨rfl, rfl⟩ (fun k => ⟨k.regs, k.tarn, k.rings, k.objs, k.flt, Tbl.wf_put _ _ _ k.routes, k.counts, k.halves, k.keys⟩) (fun _ => rfl)

theorem State.setKey_keeps (h : Keeps b s0 s) {i : Nat} {x : Option KeySlot} : Keeps b s0 (s.setKey i x) :=
  h.tables ⟨rfl, rfl⟩ (fun k => ⟨k.regs, k.tarn, k.rings, k.objs, k.flt, k.routes, k.counts, k.halves, Tbl.wf_put _ _ _ k.keys⟩) (fun _ => rfl)

theorem State.emit_keeps (h : Keeps b s0 s) {o : Output} : Keeps b s0 (s.emit o) :=
  h.trans ⟨⟨rfl, [o], rfl⟩, fun k => ⟨k.regs, k.tarn, k.rings, k.objs, k.flt, k.routes, k.counts, k.halves, k.keys⟩, fun _ => rfl⟩

theorem State.countBy_keeps (h : Keeps b s0 s) {c i n : Nat} : Keeps b s0 (s.countBy c i n) := by
  refine h.tables ⟨rfl, rfl⟩ (fun k => ?_) (fun _ => rfl)
  refine ⟨k.regs, k.tarn, k.rings, k.objs, k.flt, k.routes, Tbl.wf_put _ _ _ k.counts, ?_, k.keys⟩
  show Tbl.wf false (if _ then _ else _) = true
  split
  · exact Tbl.wf_put _ _ _ k.halves
  · exact k.halves

end Sys2Proof.Machine
end

