-- ==== Sys2Proof/Laws/KeepsA.lean ====
section
/-! SUPPORT. The operations keep the queue, the tables and the lifecycle (Keeps.lean), part 1 of 4, each after those it calls. -/
namespace Sys2Proof.Machine

variable {b : Bool} {s0 s t : State}

theorem State.setGroup_keeps (h : Keeps b s0 s) {a1 a2} : Keeps b s0 (State.setGroup s a1 a2) := by
  unfold State.setGroup
  exact Keeps.same h ⟨rfl, rfl⟩ rfl rfl rfl rfl rfl rfl rfl rfl rfl rfl

theorem State.raise_keeps (h : Keeps b s0 s) {a1 a2} : Keeps b s0 (State.raise s a1 a2) := by
  unfold State.raise
  exact State.setReg_keeps h

theorem State.grpEvt_keeps (h : Keeps b s0 s) {a1 a2} : Keeps b s0 (State.grpEvt s a1 a2) := by
  unfold State.grpEvt
  exact State.raise_keeps h

theorem State.setLeader_keeps (h : Keeps b s0 s) {a1 a2} : Keeps b s0 (State.setLeader s a1 a2) := by
  unfold State.setLeader
  extract_lets g1
  refine Keeps.ite ?_ ?_
  · exact h
  · with_reducible refine State.grpEvt_keeps ?_
    with_reducible refine State.grpEvt_keeps ?_
    exact State.setGroup_keeps h

theorem State.setPort_keeps (h : Keeps b s0 s) {a1 a2} : Keeps b s0 (State.setPort s a1 a2) := by
  unfold State.setPort
  exact Keeps.same h ⟨rfl, rfl⟩ rfl rfl rfl rfl rfl rfl rfl rfl rfl rfl

theorem State.portEvt_keeps (h : Keeps b s0 s) {a1 a2} : Keeps b s0 (State.portEvt s a1 a2) := by
  unfold State.portEvt
  exact State.raise_keeps h

theorem State.showPort_keeps (h : Keeps b s0 s) {a1 a2} : Keeps b s0 (State.showPort s a1 a2) := by
  unfold State.showPort
  extract_lets old1 s2
  have hs2 : Keeps b s0 s2 := by
    exact State.setPort_keeps h
  clear_value s2
  refine Keeps.ite ?_ ?_
  · exact hs2
  · exact State.portEvt_keeps hs2

theorem State.syncMembers_keeps (h : Keeps b s0 s) {a1} : Keeps b s0 (State.syncMembers s a1) := by
  unfold State.syncMembers
  refine Keeps.foldl ?_ ?_
  · exact h
  · intro s1 x2 k3
    extract_lets st4 x5
    refine Keeps.ite ?_ ?_
    · exact State.showPort_keeps k3
    · exact State.showPort_keeps k3

theorem State.groupGoes_keeps (h : Keeps b s0 s) {a1 a2} : Keeps b s0 (State.groupGoes s a1 a2) := by
  unfold State.groupGoes
  extract_lets old1 s2 s3
  have hs2 : Keeps b s0 s2 := by
    exact State.setGroup_keeps h
  clear_value s2
  have hs3 : Keeps b s0 s3 := by
    refine Keeps.ite ?_ ?_
    · exact hs2
    · exact State.grpEvt_keeps hs2
  clear_value s3
  exact State.syncMembers_keeps hs3

theorem State.toColdstart_keeps (h : Keeps b s0 s) {a1} : Keeps b s0 (State.toColdstart s a1) := by
  unfold State.toColdstart
  extract_lets s1 g2 g3 x4
  have hs1 : Keeps b s0 s1 := by
    exact State.setLeader_keeps h
  clear_value s1
  exact State.groupGoes_keeps hs1

theorem State.turnCycle_keeps (h : Keeps b s0 s) {a1} : Keeps b s0 (State.turnCycle s a1) := by
  unfold State.turnCycle
  extract_lets g1 miss2 s3 keep4 g5
  have hs3 : Keeps b s0 s3 := by
    refine Keeps.ite ?_ ?_
    · with_reducible refine State.setGroup_keeps ?_
      exact State.grpEvt_keeps h
    · exact h
  clear_value s3
  refine Keeps.ite ?_ ?_
  · exact State.toColdstart_keeps hs3
  · dsimp only
    exact State.setGroup_keeps hs3

theorem State.promoteGroup_keeps (h : Keeps b s0 s) {a1} : Keeps b s0 (State.promoteGroup s a1) := by
  unfold State.promoteGroup
  extract_lets g1 n2 need3
  refine Keeps.ite ?_ ?_
  · exact h
  · refine Keeps.ite ?_ ?_
    · exact State.groupGoes_keeps h
    · exact State.setGroup_keeps h

theorem State.acceptRef_keeps (h : Keeps b s0 s) {a1 a2 a3 a4 a5} : Keeps b s0 (State.acceptRef s a1 a2 a3 a4 a5) := by
  unfold State.acceptRef
  extract_lets was1 s2 g3 measured4 rho5 rhoOf6 shown7 cnt8 still9 x10 g11 s12
  have hs2 : Keeps b s0 s2 := by
    refine Keeps.ite ?_ ?_
    · exact State.turnCycle_keeps h
    · exact h
  clear_value s2
  have hs12 : Keeps b s0 s12 := by
    exact State.groupGoes_keeps hs2
  clear_value s12
  with_reducible refine State.promoteGroup_keeps ?_
  exact State.setLeader_keeps hs12

theorem State.ackErr_keeps (h : Keeps b s0 s) {a1} : Keeps b s0 (State.ackErr s a1) := by
  unfold State.ackErr
  extract_lets x1 run2 s3
  have hs3 : Keeps b s0 s3 := by
    exact State.setPort_keeps h
  clear_value s3
  refine Keeps.ite ?_ ?_
  · exact State.portEvt_keeps hs3
  · exact hs3

theorem State.ackReset_keeps (h : Keeps b s0 s) {a1} : Keeps b s0 (State.ackReset s a1) := by
  unfold State.ackReset
  extract_lets x1
  exact State.setPort_keeps h

theorem State.holdBack_keeps (h : Keeps b s0 s) {a1} : Keeps b s0 (State.holdBack s a1) := by
  unfold State.holdBack
  dsimp only
  split
  · rename_i x1 a2 heq3
    exact Keeps.same h ⟨rfl, rfl⟩ rfl rfl rfl rfl rfl rfl rfl rfl rfl rfl
  · rename_i x4 heq5
    exact h

theorem State.cmdRefused_keeps (h : Keeps b s0 s) {a1} : Keeps b s0 (State.cmdRefused s a1) := by
  unfold State.cmdRefused
  exact State.portEvt_keeps h

theorem State.cfgErr_keeps (h : Keeps b s0 s) {a1 a2} : Keeps b s0 (State.cfgErr s a1 a2) := by
  unfold State.cfgErr
  with_reducible refine State.portEvt_keeps ?_
  extract_lets x1
  exact State.setPort_keeps h

theorem State.enableOp_keeps (h : Keeps b s0 s) {a1} : Keeps b s0 (State.enableOp s a1) := by
  unfold State.enableOp
  extract_lets x1
  refine Keeps.ite ?_ ?_
  · exact State.cmdRefused_keeps h
  · refine Keeps.ite ?_ ?_
    · exact State.cfgErr_keeps h
    · refine Keeps.ite ?_ ?_
      · exact State.cfgErr_keeps h
      · exact State.showPort_keeps h

theorem State.memberRefuses_keeps (h : Keeps b s0 s) {a1 a2} : Keeps b s0 (State.memberRefuses s a1 a2) := by
  unfold State.memberRefuses
  refine Keeps.ite ?_ ?_
  · exact State.cfgErr_keeps h
  · with_reducible refine State.cmdRefused_keeps ?_
    extract_lets x1
    exact State.setPort_keeps h

theorem State.clearHalves_keeps (h : Keeps b s0 s) {a1} : Keeps b s0 (State.clearHalves s a1) := by
  unfold State.clearHalves
  exact Keeps.tables h ⟨rfl, rfl⟩ (fun k => ⟨k.regs, k.tarn, k.rings, k.objs, k.flt, k.routes, k.counts, by with_reducible exact Tbl.wf_drop _ _ k.halves, k.keys⟩) (fun _ => rfl)

theorem State.toOff_keeps (h : Keeps b s0 s) {a1} : Keeps b s0 (State.toOff s a1) := by
  unfold State.toOff
  extract_lets x1 x2 s3
  have hs3 : Keeps b s0 s3 := by
    with_reducible refine State.clearHalves_keeps ?_
    exact State.setReg_keeps h
  clear_value s3
  exact State.showPort_keeps hs3

theorem State.disableOp_keeps (h : Keeps b s0 s) {a1} : Keeps b s0 (State.disableOp s a1) := by
  unfold State.disableOp
  extract_lets x1
  refine Keeps.ite ?_ ?_
  · exact State.memberRefuses_keeps h
  · refine Keeps.ite ?_ ?_
    · exact State.toOff_keeps h
    · exact State.cmdRefused_keeps h

theorem State.portGoes_keeps (h : Keeps b s0 s) {a1} : Keeps b s0 (State.portGoes s a1) := by
  unfold State.portGoes
  extract_lets x1 st2 lost3 x4
  exact State.showPort_keeps h

theorem State.startPort_keeps (h : Keeps b s0 s) {a1} : Keeps b s0 (State.startPort s a1) := by
  unfold State.startPort
  refine Keeps.ite ?_ ?_
  · exact State.memberRefuses_keeps h
  · refine Keeps.ite ?_ ?_
    · exact State.cmdRefused_keeps h
    · refine Keeps.ite ?_ ?_
      · exact State.portGoes_keeps h
      · exact State.cfgErr_keeps h

theorem State.count_keeps (h : Keeps b s0 s) {a1 a2} : Keeps b s0 (State.count s a1 a2) := by
  unfold State.count
  exact State.countBy_keeps h

theorem State.countDev_keeps (h : Keeps b s0 s) {a1} : Keeps b s0 (State.countDev s a1) := by
  unfold State.countDev
  exact State.count_keeps h

theorem State.endOp_keeps (h : Keeps b s0 s) {a1 a2} : Keeps b s0 (State.endOp s a1 a2) := by
  unfold State.endOp
  extract_lets j1 q2
  exact State.setRing_keeps h

theorem State.doorbell_keeps (h : Keeps b s0 s) {a1 a2 a3} : Keeps b s0 (State.doorbell s a1 a2 a3) := by
  unfold State.doorbell
  refine Keeps.ite ?_ ?_
  · exact State.emit_keeps h
  · exact h

theorem State.writeEntry_keeps (h : Keeps b s0 s) {a1 a2 a3 a4} : Keeps b s0 (State.writeEntry s a1 a2 a3 a4) := by
  unfold State.writeEntry
  extract_lets i1 r2 s3 s4 s5
  have hs3 : Keeps b s0 s3 := by
    exact State.emit_keeps h
  clear_value s3
  have hs4 : Keeps b s0 s4 := by
    exact State.setRing_keeps hs3
  clear_value s4
  have hs5 : Keeps b s0 s5 := by
    exact State.doorbell_keeps hs4
  clear_value s5
  refine Keeps.ite ?_ ?_
  · exact State.endOp_keeps hs5
  · exact hs5

theorem State.completeE_keeps (h : Keeps b s0 s) {a1 a2 a3} : Keeps b s0 (State.completeE s a1 a2 a3) := by
  unfold State.completeE
  extract_lets s1 cq2 i3 r4 s5
  have hs1 : Keeps b s0 s1 := by
    refine Keeps.ite ?_ ?_
    · exact State.countDev_keeps h
    · exact h
  clear_value s1
  have hs5 : Keeps b s0 s5 := by
    exact State.setRing_keeps hs1
  clear_value s5
  refine Keeps.ite ?_ ?_
  · refine Keeps.ite ?_ ?_
    · exact State.endOp_keeps hs1
    · exact hs1
  · refine Keeps.ite ?_ ?_
    · exact State.writeEntry_keeps hs1
    · refine Keeps.ite ?_ ?_
      · exact State.countDev_keeps hs5
      · exact hs5

theorem State.complete_keeps (h : Keeps b s0 s) {a1 a2 a3 a4 a5 a6} : Keeps b s0 (State.complete s a1 a2 a3 a4 a5 a6) := by
  unfold State.complete
  refine Keeps.ite ?_ ?_
  · exact h
  · exact State.completeE_keeps h

theorem State.clearHold_keeps (h : Keeps b s0 s) {a1} : Keeps b s0 (State.clearHold s a1) := by
  unfold State.clearHold
  extract_lets x1 s2 x3
  have hs2 : Keeps b s0 s2 := by
    unfold s2
    split
    · rename_i x4 o5 heq6
      exact State.complete_keeps h
    · rename_i x7 heq8
      exact h
  clear_value s2
  exact State.setPort_keeps hs2

theorem State.toStopped_keeps (h : Keeps b s0 s) {a1 a2} : Keeps b s0 (State.toStopped s a1 a2) := by
  unfold State.toStopped
  extract_lets s1 x2 x3 x4 x5 s6
  have hs1 : Keeps b s0 s1 := by
    exact State.clearHold_keeps h
  clear_value s1
  have hs6 : Keeps b s0 s6 := by
    exact State.showPort_keeps hs1
  clear_value s6
  exact hs6

theorem State.stopAccepted_keeps (h : Keeps b s0 s) {a1} : Keeps b s0 (State.stopAccepted s a1) := by
  unfold State.stopAccepted
  extract_lets x1
  refine Keeps.ite ?_ ?_
  · exact State.toStopped_keeps h
  · exact State.setPort_keeps h

theorem State.stopPort_keeps (h : Keeps b s0 s) {a1} : Keeps b s0 (State.stopPort s a1) := by
  unfold State.stopPort
  refine Keeps.ite ?_ ?_
  · exact State.memberRefuses_keeps h
  · refine Keeps.ite ?_ ?_
    · exact State.cmdRefused_keeps h
    · exact State.stopAccepted_keeps h

theorem State.restartAccepted_keeps (h : Keeps b s0 s) {a1} : Keeps b s0 (State.restartAccepted s a1) := by
  unfold State.restartAccepted
  extract_lets x1
  exact State.showPort_keeps h

theorem State.restartPort_keeps (h : Keeps b s0 s) {a1} : Keeps b s0 (State.restartPort s a1) := by
  unfold State.restartPort
  extract_lets x1
  refine Keeps.ite ?_ ?_
  · exact State.memberRefuses_keeps h
  · refine Keeps.ite ?_ ?_
    · exact State.restartAccepted_keeps h
    · exact State.cmdRefused_keeps h

theorem State.sleepPort_keeps (h : Keeps b s0 s) {a1} : Keeps b s0 (State.sleepPort s a1) := by
  unfold State.sleepPort
  extract_lets x1
  refine Keeps.ite ?_ ?_
  · exact State.memberRefuses_keeps h
  · refine Keeps.ite ?_ ?_
    · exact State.cmdRefused_keeps h
    · refine Keeps.ite ?_ ?_
      · exact State.cfgErr_keeps h
      · exact State.showPort_keeps h

theorem State.toAwake_keeps (h : Keeps b s0 s) {a1} : Keeps b s0 (State.toAwake s a1) := by
  unfold State.toAwake
  exact State.showPort_keeps h

theorem State.wakePort_keeps (h : Keeps b s0 s) {a1} : Keeps b s0 (State.wakePort s a1) := by
  unfold State.wakePort
  refine Keeps.ite ?_ ?_
  · exact State.toAwake_keeps h
  · exact State.cmdRefused_keeps h

theorem State.portCommand_keeps (h : Keeps b s0 s) {a1 a2} : Keeps b s0 (State.portCommand s a1 a2) := by
  unfold State.portCommand
  split
  · rename_i c1
    exact State.enableOp_keeps h
  · rename_i c2
    exact State.disableOp_keeps h
  · rename_i c3
    exact State.startPort_keeps h
  · rename_i c4
    exact State.stopPort_keeps h
  · rename_i c5
    exact State.restartPort_keeps h
  · rename_i c6
    exact State.sleepPort_keeps h
  · rename_i c7
    exact State.wakePort_keeps h
  · rename_i c8 x9 x10 x11 x12 x13 x14 x15
    exact h

theorem State.portRequest_keeps (h : Keeps b s0 s) {a1 a2 a3} : Keeps b s0 (State.portRequest s a1 a2 a3) := by
  unfold State.portRequest
  refine Keeps.ite ?_ ?_
  · exact State.holdBack_keeps h
  · refine Keeps.ite ?_ ?_
    · extract_lets x1
      exact Keeps.same h ⟨rfl, rfl⟩ rfl rfl rfl rfl rfl rfl rfl rfl rfl rfl
    · exact State.portCommand_keeps h

theorem State.record_keeps (h : Keeps b s0 s) {a1 a2 a3 a4 a5 a6 a7} : Keeps b s0 (State.record s a1 a2 a3 a4 a5 a6 a7) := by
  unfold State.record
  extract_lets l1
  refine Keeps.ite ?_ ?_
  · exact Keeps.same h ⟨rfl, rfl⟩ rfl rfl rfl rfl rfl rfl rfl rfl rfl rfl
  · refine Keeps.ite ?_ ?_
    · exact Keeps.same h ⟨rfl, rfl⟩ rfl rfl rfl rfl rfl rfl rfl rfl rfl rfl
    · exact Keeps.same h ⟨rfl, rfl⟩ rfl rfl rfl rfl rfl rfl rfl rfl rfl rfl

theorem State.refuseWrite_keeps (h : Keeps b s0 s) {a1 a2 a3} : Keeps b s0 (State.refuseWrite s a1 a2 a3) := by
  unfold State.refuseWrite
  exact State.record_keeps h

theorem State.refuse_keeps (h : Keeps b s0 s) {a1 a2 a3 a4} : Keeps b s0 (State.refuse s a1 a2 a3 a4) := by
  unfold State.refuse
  exact State.refuseWrite_keeps h

theorem State.writeFields_keeps (h : Keeps b s0 s) {a1 a2 a3 a4 a5} : Keeps b s0 (State.writeFields s a1 a2 a3 a4 a5) := by
  unfold State.writeFields
  dsimp only
  refine Keeps.ite ?_ ?_
  · with_reducible refine State.refuse_keeps ?_
    exact State.setReg_keeps h
  · exact State.setReg_keeps h

theorem State.setRf_keeps (h : Keeps b s0 s) {a1 a2 a3 a4} : Keeps b s0 (State.setRf s a1 a2 a3 a4) := by
  unfold State.setRf
  exact State.setReg_keeps h

theorem State.returnBuffer_keeps (h : Keeps b s0 s) {a1 a2 a3 a4} : Keeps b s0 (State.returnBuffer s a1 a2 a3 a4) := by
  unfold State.returnBuffer
  exact State.completeE_keeps h

theorem State.setEth_keeps (h : Keeps b s0 s) {a1 a2} : Keeps b s0 (State.setEth s a1 a2) := by
  unfold State.setEth
  exact Keeps.same h ⟨rfl, rfl⟩ rfl rfl rfl rfl rfl rfl rfl rfl rfl rfl

theorem State.setShare_keeps (h : Keeps b s0 s) {a1 a2} : Keeps b s0 (State.setShare s a1 a2) := by
  unfold State.setShare
  refine Keeps.ite ?_ ?_
  · extract_lets x1
    exact State.setPort_keeps h
  · refine Keeps.ite ?_ ?_
    · extract_lets x2
      exact State.setEth_keeps h
    · exact h

theorem State.freeSpace_keeps (h : Keeps b s0 s) {a1 a2} : Keeps b s0 (State.freeSpace s a1 a2) := by
  unfold State.freeSpace
  exact State.setShare_keeps h

theorem State.hostWrite_keeps (h : Keeps b s0 s) {a1 a2 a3} : Keeps b s0 (State.hostWrite s a1 a2 a3) := by
  unfold State.hostWrite
  refine Keeps.ite ?_ ?_
  · exact h
  · exact State.emit_keeps h

theorem State.writeBuffers_keeps {a1 a2 a3 a4 a5 a6} (h : Keeps b s0 s) : Keeps b s0 (State.writeBuffers s a1 a2 a3 a4 a5 a6) := by
  induction a5 generalizing s a6 with
  | nil => exact h
  | cons x r ih =>
    unfold State.writeBuffers
    exact ih (State.writeEntry_keeps (State.hostWrite_keeps h))

theorem State.serveRx_keeps {a1 a2 a3} (h : Keeps b s0 s) : Keeps b s0 (State.serveRx s a1 a2 a3) := by
  induction a3 generalizing s with
  | zero => exact h
  | succ n ih =>
    unfold State.serveRx
    dsimp only
    split
    · exact h
    · split
      · split
        · exact h
        · split
          · exact ih (State.setRing_keeps h)
          · exact ih (State.returnBuffer_keeps (State.setRing_keeps h))
      · split
        · exact ih (State.freeSpace_keeps (State.writeBuffers_keeps (State.setRing_keeps h)))
        · exact h

theorem State.serve_keeps (h : Keeps b s0 s) {a1 a2} : Keeps b s0 (State.serve s a1 a2) := by
  unfold State.serve
  extract_lets r1
  exact State.serveRx_keeps h

theorem State.serveCq_keeps (h : Keeps b s0 s) {a1 a2} : Keeps b s0 (State.serveCq s a1 a2) := by
  unfold State.serveCq
  refine Keeps.foldl ?_ ?_
  · exact h
  · intro s1 x2 k3
    refine Keeps.ite ?_ ?_
    · exact State.serve_keeps k3
    · exact k3

theorem State.drain_keeps {a1 a2 a3} (h : Keeps b s0 s) : Keeps b s0 (State.drain s a1 a2 a3) := by
  induction a3 generalizing s with
  | zero => exact h
  | succ n ih =>
    unfold State.drain
    dsimp only
    split
    · exact h
    · split
      · exact ih (State.writeEntry_keeps (State.setRing_keeps h))
      · exact h

theorem State.roomShown_keeps (h : Keeps b s0 s) {a1 a2} : Keeps b s0 (State.roomShown s a1 a2) := by
  unfold State.roomShown
  with_reducible refine State.serveCq_keeps ?_
  exact State.drain_keeps h

theorem State.ringFault_keeps (h : Keeps b s0 s) {a1 a2 a3} : Keeps b s0 (State.ringFault s a1 a2 a3) := by
  unfold State.ringFault
  with_reducible refine State.record_keeps ?_
  exact State.raise_keeps h

theorem State.enableRing_keeps (h : Keeps b s0 s) {a1 a2} : Keeps b s0 (State.enableRing s a1 a2) := by
  unfold State.enableRing
  extract_lets i1 s2 x3 s4
  have hs2 : Keeps b s0 s2 := by
    exact State.setRf_keeps h
  clear_value s2
  have hs4 : Keeps b s0 s4 := by
    exact State.setRing_keeps hs2
  clear_value s4
  refine Keeps.ite ?_ ?_
  · refine Keeps.ite ?_ ?_
    · exact State.roomShown_keeps hs4
    · exact hs4
  · exact State.ringFault_keeps h

theorem State.withdrawEth_keeps (h : Keeps b s0 s) {a1 a2 a3} : Keeps b s0 (State.withdrawEth s a1 a2 a3) := by
  unfold State.withdrawEth
  extract_lets x1 mine2 gone3 s4
  have hs4 : Keeps b s0 s4 := by
    exact State.setEth_keeps h
  clear_value s4
  refine Keeps.foldl ?_ ?_
  · exact hs4
  · intro s5 x6 k7
    exact State.complete_keeps k7

theorem State.clearPending_keeps (h : Keeps b s0 s) {a1 a2} : Keeps b s0 (State.clearPending s a1 a2) := by
  unfold State.clearPending
  dsimp only
  split
  · rename_i x1 o2
    exact State.setObj_keeps h
  · rename_i x3 n4
    exact h

theorem State.draw_keeps (h : Keeps b s0 s) : Keeps b s0 (State.draw s) := by
  unfold State.draw
  exact Keeps.same h ⟨rfl, rfl⟩ rfl rfl rfl rfl rfl rfl rfl rfl rfl rfl

theorem State.setFunc_keeps (h : Keeps b s0 s) {a1 a2} : Keeps b s0 (State.setFunc s a1 a2) := by
  unfold State.setFunc
  exact Keeps.same h ⟨rfl, rfl⟩ rfl rfl rfl rfl rfl rfl rfl rfl rfl rfl

theorem State.tsqEntry_keeps (h : Keeps b s0 s) {a1 a2 a3 a4 a5 a6} : Keeps b s0 (State.tsqEntry s a1 a2 a3 a4 a5 a6) := by
  unfold State.tsqEntry
  refine Keeps.ite ?_ ?_
  · exact h
  · extract_lets f1 full2 cons3 s4 s5 s6 ovf7 b8 s9 s10
    have hs4 : Keeps b s0 s4 := by
      refine Keeps.ite ?_ ?_
      · exact State.draw_keeps h
      · exact h
    clear_value s4
    have hs5 : Keeps b s0 s5 := by
      exact State.setFunc_keeps hs4
    clear_value s5
    have hs6 : Keeps b s0 s6 := by
      exact State.countDev_keeps hs5
    clear_value s6
    have hs9 : Keeps b s0 s9 := by
      exact State.emit_keeps hs4
    clear_value s9
    have hs10 : Keeps b s0 s10 := by
      exact State.setFunc_keeps hs9
    clear_value s10
    refine Keeps.ite ?_ ?_
    · refine Keeps.ite ?_ ?_
      · exact hs6
      · exact State.raise_keeps hs6
    · exact State.doorbell_keeps hs10

theorem State.tsqStamp_keeps (h : Keeps b s0 s) {a1 a2 a3 a4} : Keeps b s0 (State.tsqStamp s a1 a2 a3 a4) := by
  unfold State.tsqStamp
  refine Keeps.ite ?_ ?_
  · exact h
  · exact State.tsqEntry_keeps h

theorem State.leaveSet_keeps (h : Keeps b s0 s) {a1 a2 a3 a4} : Keeps b s0 (State.leaveSet s a1 a2 a3 a4) := by
  unfold State.leaveSet
  extract_lets x1 gone2 s3 s4 s5
  have hs3 : Keeps b s0 s3 := by
    exact State.setPort_keeps h
  clear_value s3
  have hs4 : Keeps b s0 s4 := by
    exact State.clearPending_keeps hs3
  clear_value s4
  have hs5 : Keeps b s0 s5 := by
    refine Keeps.ite ?_ ?_
    · exact hs4
    · exact State.complete_keeps hs4
  clear_value s5
  split
  · rename_i stamp6 st7
    refine Keeps.ite ?_ ?_
    · exact State.tsqStamp_keeps hs5
    · exact hs5
  · rename_i stamp8
    exact hs5

theorem State.fillSlots_keeps {a1 a2} (h : Keeps b s0 s) : Keeps b s0 (State.fillSlots s a1 a2) := by
  induction a2 generalizing s with
  | zero => exact h
  | succ n ih =>
    unfold State.fillSlots
    dsimp only
    split
    · exact h
    · split
      · exact h
      · split
        · exact ih (State.leaveSet_keeps h)
        · exact ih (State.setPort_keeps h)

theorem State.withdrawRing_keeps (h : Keeps b s0 s) {a1 a2 a3 a4} : Keeps b s0 (State.withdrawRing s a1 a2 a3 a4) := by
  unfold State.withdrawRing
  extract_lets mine1 x2
  exact State.setPort_keeps h

theorem State.dropWait_keeps (h : Keeps b s0 s) {a1 a2 a3 a4} : Keeps b s0 (State.dropWait s a1 a2 a3 a4) := by
  unfold State.dropWait
  extract_lets s1
  have hs1 : Keeps b s0 s1 := by
    refine Keeps.foldl ?_ ?_
    · exact h
    · intro s2 x3 k4
      exact State.returnBuffer_keeps k4
  clear_value s1
  exact State.freeSpace_keeps hs1

theorem State.withdrawRx_keeps (h : Keeps b s0 s) {a1 a2} : Keeps b s0 (State.withdrawRx s a1 a2) := by
  unfold State.withdrawRx
  extract_lets i1 r2 s3 s4
  have hs3 : Keeps b s0 s3 := by
    exact State.setRing_keeps h
  clear_value s3
  have hs4 : Keeps b s0 s4 := by
    refine Keeps.foldl ?_ ?_
    · exact hs3
    · intro s5 x6 k7
      exact State.dropWait_keeps k7
  clear_value s4
  refine Keeps.foldl ?_ ?_
  · exact hs4
  · intro s8 x9 k10
    exact State.returnBuffer_keeps k10

theorem State.takeHeld_keeps (h : Keeps b s0 s) {a1} : Keeps b s0 (State.takeHeld s a1).1 := by
  unfold State.takeHeld
  split
  · exact h
  · exact Keeps.same h ⟨rfl, rfl⟩ rfl rfl rfl rfl rfl rfl rfl rfl rfl rfl

theorem State.withdrawCmd_keeps (h : Keeps b s0 s) {a1 a2} : Keeps b s0 (State.withdrawCmd s a1 a2) := by
  unfold State.withdrawCmd
  dsimp only
  refine Keeps.foldl ?_ (fun _ _ k => State.complete_keeps k)
  refine Keeps.tables (State.takeHeld_keeps h (a1 := fun o => decide (o.dom = a1 ∧ o.num = a2))) ⟨rfl, rfl⟩
    (fun k => ⟨k.regs, k.tarn, k.rings, ?_, k.flt, k.routes, k.counts, k.halves, k.keys⟩) (fun _ => rfl)
  with_reducible exact Tbl.wf_mapVal _ _ k.objs

theorem State.disableRing_keeps (h : Keeps b s0 s) {a1 a2 a3} : Keeps b s0 (State.disableRing s a1 a2 a3) := by
  unfold State.disableRing
  extract_lets i1 cfg2 s3
  have hs3 : Keeps b s0 s3 := by
    exact State.setRf_keeps h
  clear_value s3
  split
  · rename_i x4 heq5
    refine Keeps.ite ?_ ?_
    · exact State.withdrawEth_keeps hs3
    · with_reducible refine State.fillSlots_keeps ?_
      exact State.withdrawRing_keeps hs3
  · rename_i x6 heq7
    exact State.withdrawRx_keeps hs3
  · rename_i x8 heq9
    exact State.withdrawCmd_keeps hs3
  · rename_i x10 x11 x12 x13
    exact hs3

theorem State.writeRingCfg_keeps (h : Keeps b s0 s) {a1 a2 a3} : Keeps b s0 (State.writeRingCfg s a1 a2 a3) := by
  unfold State.writeRingCfg
  extract_lets i1 was2 s3
  have hs3 : Keeps b s0 s3 := by
    exact State.writeFields_keeps h
  clear_value s3
  refine Keeps.ite ?_ ?_
  · exact State.enableRing_keeps hs3
  · refine Keeps.ite ?_ ?_
    · exact State.disableRing_keeps hs3
    · exact hs3

theorem State.groupRefused_keeps (h : Keeps b s0 s) {a1} : Keeps b s0 (State.groupRefused s a1) := by
  unfold State.groupRefused
  exact State.grpEvt_keeps h

theorem State.groupGoesLive_keeps (h : Keeps b s0 s) {a1} : Keeps b s0 (State.groupGoesLive s a1) := by
  unfold State.groupGoesLive
  extract_lets g1 ms2 fresh3 s4
  have hs4 : Keeps b s0 s4 := by
    exact State.portGoes_keeps h
  clear_value s4
  exact State.groupGoes_keeps hs4

theorem State.groupCfgErr_keeps (h : Keeps b s0 s) {a1 a2} : Keeps b s0 (State.groupCfgErr s a1 a2) := by
  unfold State.groupCfgErr
  extract_lets a1 x2 s3 x4
  have hs3 : Keeps b s0 s3 := by
    refine Keeps.ite ?_ ?_
    · exact State.setPort_keeps h
    · exact h
  clear_value s3
  with_reducible refine State.grpEvt_keeps ?_
  exact State.setGroup_keeps hs3

theorem State.startGroupCmd_keeps (h : Keeps b s0 s) {a1} : Keeps b s0 (State.startGroupCmd s a1) := by
  unfold State.startGroupCmd
  refine Keeps.ite ?_ ?_
  · exact State.groupRefused_keeps h
  · extract_lets code1
    refine Keeps.ite ?_ ?_
    · exact State.groupGoesLive_keeps h
    · exact State.groupCfgErr_keeps h

theorem State.stopGroupCmd_keeps (h : Keeps b s0 s) {a1} : Keeps b s0 (State.stopGroupCmd s a1) := by
  unfold State.stopGroupCmd
  extract_lets g1 a2 x3
  refine Keeps.ite ?_ ?_
  · exact State.groupRefused_keeps h
  · with_reducible refine State.setPort_keeps ?_
    exact State.setGroup_keeps h

theorem State.setBranch_keeps (h : Keeps b s0 s) {a1 a2 a3} : Keeps b s0 (State.setBranch s a1 a2 a3) := by
  unfold State.setBranch
  extract_lets x1
  exact State.setGroup_keeps h

theorem State.rejoinCmd_keeps (h : Keeps b s0 s) {a1 a2} : Keeps b s0 (State.rejoinCmd s a1 a2) := by
  unfold State.rejoinCmd
  extract_lets x1
  refine Keeps.ite ?_ ?_
  · exact State.setBranch_keeps h
  · exact State.groupRefused_keeps h

theorem State.restartGroupCmd_keeps (h : Keeps b s0 s) {a1} : Keeps b s0 (State.restartGroupCmd s a1) := by
  unfold State.restartGroupCmd
  extract_lets a1
  refine Keeps.ite ?_ ?_
  · exact State.restartAccepted_keeps h
  · exact State.groupRefused_keeps h

theorem State.groupCommand_keeps (h : Keeps b s0 s) {a1 a2} : Keeps b s0 (State.groupCommand s a1 a2) := by
  unfold State.groupCommand
  split
  · rename_i x1 heq2
    exact State.startGroupCmd_keeps h
  · rename_i x3 heq4
    exact State.stopGroupCmd_keeps h
  · rename_i x5 heq6
    exact State.rejoinCmd_keeps h
  · rename_i x7 heq8
    exact State.restartGroupCmd_keeps h
  · rename_i x9 x10 x11 x12 x13
    exact h

theorem State.groupRequest_keeps (h : Keeps b s0 s) {a1 a2 a3} : Keeps b s0 (State.groupRequest s a1 a2 a3) := by
  unfold State.groupRequest
  refine Keeps.ite ?_ ?_
  · exact State.holdBack_keeps h
  · exact State.groupCommand_keeps h

theorem State.ethKick_keeps (h : Keeps b s0 s) {a1} : Keeps b s0 (State.ethKick s a1) := by
  unfold State.ethKick
  extract_lets x1
  refine Keeps.ite ?_ ?_
  · exact h
  · split
    · rename_i b2 heq3
      exact h
    · rename_i b4 j5 heq6
      exact State.setEth_keeps h

theorem State.endPause_keeps (h : Keeps b s0 s) {a1 a2} : Keeps b s0 (State.endPause s a1 a2) := by
  unfold State.endPause
  extract_lets x1
  split
  · rename_i x2 heq3
    exact h
  · rename_i x4 val5 heq6
    with_reducible refine State.countBy_keeps ?_
    exact State.setEth_keeps h

theorem State.pauseSettle_keeps (h : Keeps b s0 s) {a1} : Keeps b s0 (State.pauseSettle s a1) := by
  unfold State.pauseSettle
  split
  · rename_i x1 r2 heq3
    refine Keeps.ite ?_ ?_
    · exact State.endPause_keeps h
    · exact h
  · rename_i x4 heq5
    exact h

theorem State.endEth_keeps (h : Keeps b s0 s) {a1 a2 a3} : Keeps b s0 (State.endEth s a1 a2 a3) := by
  unfold State.endEth
  refine Keeps.ite ?_ ?_
  · exact h
  · exact State.complete_keeps h

theorem State.stopEth_keeps (h : Keeps b s0 s) {a1} : Keeps b s0 (State.stopEth s a1) := by
  unfold State.stopEth
  extract_lets s1 s2 x3 s4
  have hs1 : Keeps b s0 s1 := by
    exact State.setRf_keeps h
  clear_value s1
  have hs2 : Keeps b s0 s2 := by
    with_reducible refine State.endPause_keeps ?_
    exact State.pauseSettle_keeps hs1
  clear_value s2
  have hs4 : Keeps b s0 s4 := by
    exact State.setEth_keeps hs2
  clear_value s4
  refine Keeps.foldl ?_ ?_
  · exact hs4
  · intro s5 x6 k7
    exact State.endEth_keeps k7

theorem State.writeEpCfg_keeps (h : Keeps b s0 s) {a1 a2 a3} : Keeps b s0 (State.writeEpCfg s a1 a2 a3) := by
  unfold State.writeEpCfg
  extract_lets r1 was2 s3 x4
  have hs3 : Keeps b s0 s3 := by
    exact State.writeFields_keeps h
  clear_value s3
  refine Keeps.ite ?_ ?_
  · with_reducible refine State.ethKick_keeps ?_
    with_reducible refine State.setEth_keeps ?_
    exact State.setRf_keeps hs3
  · refine Keeps.ite ?_ ?_
    · exact State.stopEth_keeps hs3
    · exact hs3

theorem State.membersRequest_keeps (h : Keeps b s0 s) {a1 a2 a3} : Keeps b s0 (State.membersRequest s a1 a2 a3) := by
  unfold State.membersRequest
  extract_lets old1
  refine Keeps.ite ?_ ?_
  · exact State.holdBack_keeps h
  · exact State.writeFields_keeps h

theorem State.actOp_keeps {f : State → State} (h : Keeps b s0 s) (hf : ∀ y, Keeps b s0 y → Keeps b s0 (f y)) {a1} : Keeps b s0 (State.actOp s a1 f) := by
  unfold State.actOp
  refine Keeps.ite ?_ ?_
  · exact hf _ h
  · exact h

theorem State.leaveHold_keeps (h : Keeps b s0 s) {a1} : Keeps b s0 (State.leaveHold s a1) := by
  unfold State.leaveHold
  extract_lets x1
  exact State.showPort_keeps h

theorem State.holdPort_keeps (h : Keeps b s0 s) {a1 a2 a3} : Keeps b s0 (State.holdPort s a1 a2 a3) := by
  unfold State.holdPort
  extract_lets x1 done2 cancel3
  refine Keeps.ite ?_ ?_
  · dsimp only [done2]
    split
    · rename_i x4 o5
      exact State.complete_keeps h
    · rename_i x6
      exact h
  · refine Keeps.ite ?_ ?_
    · refine Keeps.ite ?_ ?_
      · dsimp only [done2]
        split
        · rename_i x7 o8
          with_reducible refine State.complete_keeps ?_
          exact State.leaveHold_keeps h
        · rename_i x9
          exact State.leaveHold_keeps h
      · dsimp only [done2]
        split
        · rename_i x10 o11
          with_reducible refine State.complete_keeps ?_
          exact State.setPort_keeps h
        · rename_i x12
          exact State.setPort_keeps h
    · refine Keeps.ite ?_ ?_
      · refine Keeps.ite ?_ ?_
        · exact State.setPort_keeps h
        · exact h
      · refine Keeps.ite ?_ ?_
        · refine Keeps.ite ?_ ?_
          · dsimp only [done2]
            split
            · rename_i x13 o14
              with_reducible refine State.complete_keeps ?_
              dsimp only [cancel3]
              with_reducible refine State.setPort_keeps ?_
              split
              · rename_i x15 o16 heq17
                exact State.complete_keeps h
              · rename_i x18 heq19
                exact h
            · rename_i x20
              dsimp only [cancel3]
              with_reducible refine State.setPort_keeps ?_
              split
              · rename_i x21 o22 heq23
                exact State.complete_keeps h
              · rename_i x24 heq25
                exact h
          · dsimp only [done2]
            split
            · rename_i x26 o27
              with_reducible refine State.complete_keeps ?_
              exact State.setPort_keeps h
            · rename_i x28
              exact State.setPort_keeps h
        · refine Keeps.ite ?_ ?_
          · dsimp only [done2]
            split
            · rename_i x29 o30
              exact State.complete_keeps h
            · rename_i x31
              exact h
          · refine Keeps.ite ?_ ?_
            · dsimp only [done2]
              split
              · rename_i x32 o33
                exact State.complete_keeps h
              · rename_i x34
                exact h
            · refine Keeps.ite ?_ ?_
              · exact State.setPort_keeps h
              · dsimp only [done2]
                split
                · rename_i x35 o36
                  with_reducible refine State.complete_keeps ?_
                  exact State.setPort_keeps h
                · rename_i x37
                  exact State.setPort_keeps h

theorem State.leaveGroupHold_keeps (h : Keeps b s0 s) {a1} : Keeps b s0 (State.leaveGroupHold s a1) := by
  unfold State.leaveGroupHold
  extract_lets g1 s2 a3 s4 g5
  have hs2 : Keeps b s0 s2 := by
    exact State.groupGoes_keeps h
  clear_value s2
  have hs4 : Keeps b s0 s4 := by
    refine Keeps.ite ?_ ?_
    · exact State.showPort_keeps hs2
    · refine Keeps.ite ?_ ?_
      · exact State.setPort_keeps hs2
      · exact hs2
  clear_value s4
  refine Keeps.ite ?_ ?_
  · exact State.groupGoes_keeps hs4
  · exact hs4

theorem State.holdGroup_keeps (h : Keeps b s0 s) {a1 a2 a3} : Keeps b s0 (State.holdGroup s a1 a2 a3) := by
  unfold State.holdGroup
  extract_lets g1 done2 cancel3
  refine Keeps.ite ?_ ?_
  · dsimp only [done2]
    split
    · rename_i x4 o5
      exact State.complete_keeps h
    · rename_i x6
      exact h
  · refine Keeps.ite ?_ ?_
    · refine Keeps.ite ?_ ?_
      · dsimp only [done2]
        split
        · rename_i x7 o8
          with_reducible refine State.complete_keeps ?_
          exact State.leaveGroupHold_keeps h
        · rename_i x9
          exact State.leaveGroupHold_keeps h
      · dsimp only [done2]
        split
        · rename_i x10 o11
          with_reducible refine State.complete_keeps ?_
          exact State.setGroup_keeps h
        · rename_i x12
          exact State.setGroup_keeps h
    · refine Keeps.ite ?_ ?_
      · refine Keeps.ite ?_ ?_
        · exact State.setGroup_keeps h
        · refine Keeps.ite ?_ ?_
          · dsimp only [done2]
            split
            · rename_i x13 o14
              with_reducible refine State.complete_keeps ?_
              dsimp only [cancel3]
              with_reducible refine State.setGroup_keeps ?_
              split
              · rename_i x15 o16 heq17
                exact State.complete_keeps h
              · rename_i x18 heq19
                exact h
            · rename_i x20
              dsimp only [cancel3]
              with_reducible refine State.setGroup_keeps ?_
              split
              · rename_i x21 o22 heq23
                exact State.complete_keeps h
              · rename_i x24 heq25
                exact h
          · dsimp only [done2]
            split
            · rename_i x26 o27
              exact State.complete_keeps h
            · rename_i x28
              exact h
      · refine Keeps.ite ?_ ?_
        · refine Keeps.ite ?_ ?_
          · dsimp only [done2]
            split
            · rename_i x29 o30
              with_reducible refine State.complete_keeps ?_
              dsimp only [cancel3]
              with_reducible refine State.setGroup_keeps ?_
              split
              · rename_i x31 o32 heq33
                exact State.complete_keeps h
              · rename_i x34 heq35
                exact h
            · rename_i x36
              dsimp only [cancel3]
              with_reducible refine State.setGroup_keeps ?_
              split
              · rename_i x37 o38 heq39
                exact State.complete_keeps h
              · rename_i x40 heq41
                exact h
          · dsimp only [done2]
            split
            · rename_i x42 o43
              with_reducible refine State.complete_keeps ?_
              exact State.setGroup_keeps h
            · rename_i x44
              exact State.setGroup_keeps h
        · refine Keeps.ite ?_ ?_
          · dsimp only [done2]
            split
            · rename_i x45 o46
              exact State.complete_keeps h
            · rename_i x47
              exact h
          · exact State.setGroup_keeps h

theorem State.holdRequest_keeps (h : Keeps b s0 s) {a1 a2 a3} : Keeps b s0 (State.holdRequest s a1 a2 a3) := by
  unfold State.holdRequest
  dsimp only
  split
  · rename_i x1 x2 p3 heq4
    refine Keeps.ite ?_ ?_
    · exact State.complete_keeps h
    · refine Keeps.ite ?_ ?_
      · exact State.holdBack_keeps h
      · refine Keeps.ite ?_ ?_
        · exact Keeps.same h ⟨rfl, rfl⟩ rfl rfl rfl rfl rfl rfl rfl rfl rfl rfl
        · exact State.holdPort_keeps h
  · rename_i x5 x6 k7 heq8 heq9
    refine Keeps.ite ?_ ?_
    · exact State.complete_keeps h
    · refine Keeps.ite ?_ ?_
      · exact State.holdBack_keeps h
      · exact State.holdGroup_keeps h
  · rename_i x10 x11 heq12 heq13
    exact State.complete_keeps h

theorem State.flushVectors_keeps (h : Keeps b s0 s) {a1} : Keeps b s0 (State.flushVectors s a1) := by
  unfold State.flushVectors
  extract_lets f1 go2 s3
  have hs3 : Keeps b s0 s3 := by
    exact State.setFunc_keeps h
  clear_value s3
  refine Keeps.ite ?_ ?_
  · exact h
  · refine Keeps.foldl ?_ ?_
    · exact hs3
    · intro s4 x5 k6
      exact State.emit_keeps k6

theorem State.msixRequest_keeps (h : Keeps b s0 s) {a1 a2 a3} : Keeps b s0 (State.msixRequest s a1 a2 a3) := by
  unfold State.msixRequest
  refine Keeps.ite ?_ ?_
  · exact State.holdBack_keeps h
  · with_reducible refine State.flushVectors_keeps ?_
    extract_lets x1
    exact State.setFunc_keeps h

theorem State.rtPut_keeps (h : Keeps b s0 s) {a1 a2} : Keeps b s0 (State.rtPut s a1 a2) := by
  unfold State.rtPut
  extract_lets b1 old2 valid3 x4 s5
  have hs5 : Keeps b s0 s5 := by
    refine Keeps.ite ?_ ?_
    · exact Keeps.same h ⟨rfl, rfl⟩ rfl rfl rfl rfl rfl rfl rfl rfl rfl rfl
    · exact h
  clear_value s5
  exact State.setRoute_keeps hs5

theorem State.rtWriteOp_keeps (h : Keeps b s0 s) {a1 a2 a3} : Keeps b s0 (State.rtWriteOp s a1 a2 a3) := by
  unfold State.rtWriteOp
  extract_lets n1
  refine Keeps.ite ?_ ?_
  · exact State.complete_keeps h
  · refine Keeps.ite ?_ ?_
    · exact State.complete_keeps h
    · refine Keeps.ite ?_ ?_
      · exact State.complete_keeps h
      · refine Keeps.ite ?_ ?_
        · exact State.holdBack_keeps h
        · refine Keeps.ite ?_ ?_
          · exact State.complete_keeps h
          · with_reducible refine State.complete_keeps ?_
            refine Keeps.foldl ?_ ?_
            · exact h
            · intro s2 x3 k4
              exact State.rtPut_keeps k4

theorem State.reclaimStop_keeps (h : Keeps b s0 s) {a1} : Keeps b s0 (State.reclaimStop s a1) := by
  unfold State.reclaimStop
  refine Keeps.ite ?_ ?_
  · exact h
  · exact State.stopAccepted_keeps h

theorem State.actHeld_keeps (h : Keeps b s0 s) {a1} : Keeps b s0 (State.actHeld s a1) := by
  unfold State.actHeld
  split
  · rename_i h1 d2 p3 c4
    refine Keeps.ite ?_ ?_
    · exact State.portRequest_keeps h
    · exact h
  · rename_i h5 d6 n7 v8
    refine Keeps.ite ?_ ?_
    · exact State.writeRingCfg_keeps h
    · exact h
  · rename_i h9 d10 k11 v12
    refine Keeps.ite ?_ ?_
    · exact State.groupRequest_keeps h
    · exact h
  · rename_i h13 d14 k15 v16
    refine Keeps.ite ?_ ?_
    · exact State.writeEpCfg_keeps h
    · exact h
  · rename_i h17 d18 k19 v20
    refine Keeps.ite ?_ ?_
    · exact State.membersRequest_keeps h
    · exact h
  · rename_i h21 o22 t23 time24
    with_reducible refine State.actOp_keeps ?_ ?_
    · exact h
    · intro s25 k26
      exact State.holdRequest_keeps k26
  · rename_i h27 d28 en29 fm30
    refine Keeps.ite ?_ ?_
    · exact State.msixRequest_keeps h
    · exact h
  · rename_i h31 o32 x33 bytes34
    with_reducible refine State.actOp_keeps ?_ ?_
    · exact h
    · intro s35 k36
      exact State.rtWriteOp_keeps k36
  · rename_i h37 p38
    exact State.reclaimStop_keeps h

theorem State.setCairn_keeps (h : Keeps b s0 s) {a1} : Keeps b s0 (State.setCairn s a1) := by
  unfold State.setCairn
  exact Keeps.same h ⟨rfl, rfl⟩ rfl rfl rfl rfl rfl rfl rfl rfl rfl rfl

theorem State.writeLayout_keeps (h : Keeps b s0 s) : Keeps b s0 (State.writeLayout s) := by
  unfold State.writeLayout
  dsimp only
  exact State.setCairn_keeps h

theorem State.setComp_keeps (h : Keeps b s0 s) {a1 a2} : Keeps b s0 (State.setComp s a1 a2) := by
  unfold State.setComp
  extract_lets x1 t2
  have ht2 : Keeps b s0 t2 := by
    exact State.setCairn_keeps h
  clear_value t2
  refine Keeps.ite ?_ ?_
  · exact ht2
  · exact State.writeLayout_keeps ht2

theorem State.clearAbsent_keeps (h : Keeps b s0 s) {a1} : Keeps b s0 (State.clearAbsent s a1) := by
  unfold State.clearAbsent
  extract_lets x1
  exact Keeps.same h ⟨rfl, rfl⟩ rfl rfl rfl rfl rfl rfl rfl rfl rfl rfl

theorem State.crnEvent_keeps (h : Keeps b s0 s) {a1} : Keeps b s0 (State.crnEvent s a1) := by
  unfold State.crnEvent
  extract_lets s1 x2
  have hs1 : Keeps b s0 s1 := by
    exact State.raise_keeps h
  clear_value s1
  refine Keeps.ite ?_ ?_
  · exact Keeps.same hs1 ⟨rfl, rfl⟩ rfl rfl rfl rfl rfl rfl rfl rfl rfl rfl
  · exact hs1

theorem State.restartService_keeps (h : Keeps b s0 s) {a1} : Keeps b s0 (State.restartService s a1) := by
  unfold State.restartService
  extract_lets x1 s2
  have hs2 : Keeps b s0 s2 := by
    exact State.setCairn_keeps h
  clear_value s2
  with_reducible refine State.crnEvent_keeps ?_
  exact State.record_keeps hs2

theorem State.restartFor_keeps (h : Keeps b s0 s) {a1} : Keeps b s0 (State.restartFor s a1) := by
  unfold State.restartFor
  exact State.restartService_keeps h

theorem State.setCore_keeps (h : Keeps b s0 s) {a1 a2} : Keeps b s0 (State.setCore s a1 a2) := by
  unfold State.setCore
  extract_lets x1
  exact Keeps.same h ⟨rfl, rfl⟩ rfl rfl rfl rfl rfl rfl rfl rfl rfl rfl

theorem State.setDuty_keeps (h : Keeps b s0 s) {a1 a2} : Keeps b s0 (State.setDuty s a1 a2) := by
  unfold State.setDuty
  extract_lets x1
  exact Keeps.same h ⟨rfl, rfl⟩ rfl rfl rfl rfl rfl rfl rfl rfl rfl rfl

theorem State.takeHome_keeps (h : Keeps b s0 s) {a1} : Keeps b s0 (State.takeHome s a1) := by
  unfold State.takeHome
  refine Keeps.foldl ?_ ?_
  · exact h
  · intro s1 x2 k3
    extract_lets x4
    refine Keeps.ite ?_ ?_
    · exact State.setDuty_keeps k3
    · exact k3

theorem State.coreRuns_keeps (h : Keeps b s0 s) {a1} : Keeps b s0 (State.coreRuns s a1) := by
  unfold State.coreRuns
  extract_lets x1 s2 x3 s4
  have hs2 : Keeps b s0 s2 := by
    exact State.setCore_keeps h
  clear_value s2
  have hs4 : Keeps b s0 s4 := by
    exact Keeps.same hs2 ⟨rfl, rfl⟩ rfl rfl rfl rfl rfl rfl rfl rfl rfl rfl
  clear_value s4
  exact State.takeHome_keeps hs4

theorem State.dropColdStart_keeps (h : Keeps b s0 s) : Keeps b s0 (State.dropColdStart s) := by
  unfold State.dropColdStart
  refine Keeps.foldl ?_ ?_
  · exact h
  · intro s1 x2 k3
    extract_lets g4
    refine Keeps.ite ?_ ?_
    · exact State.setGroup_keeps k3
    · exact k3

theorem State.moveDuties_keeps (h : Keeps b s0 s) {a1 a2} : Keeps b s0 (State.moveDuties s a1 a2) := by
  unfold State.moveDuties
  refine Keeps.foldl ?_ ?_
  · exact h
  · intro s1 x2 k3
    extract_lets x4 s5 s6
    have hs5 : Keeps b s0 s5 := by
      exact State.setDuty_keeps k3
    clear_value s5
    have hs6 : Keeps b s0 s6 := by
      refine Keeps.ite ?_ ?_
      · exact State.dropColdStart_keeps hs5
      · exact hs5
    clear_value s6
    refine Keeps.ite ?_ ?_
    · split
      · rename_i x7 t8 heq9
        exact State.setDuty_keeps hs6
      · rename_i x10 heq11
        exact hs6
    · exact k3

theorem State.reloadCores_keeps (h : Keeps b s0 s) : Keeps b s0 (State.reloadCores s) := by
  unfold State.reloadCores
  refine Keeps.foldl ?_ ?_
  · exact h
  · intro s1 x2 k3
    extract_lets x4
    refine Keeps.ite ?_ ?_
    · with_reducible refine State.coreRuns_keeps ?_
      with_reducible refine State.moveDuties_keeps ?_
      exact State.setCore_keeps k3
    · refine Keeps.ite ?_ ?_
      · exact State.coreRuns_keeps k3
      · exact k3

theorem State.safePoint_keeps (h : Keeps b s0 s) {a1 a2} : Keeps b s0 (State.safePoint s a1 a2) := by
  unfold State.safePoint
  refine Keeps.ite ?_ ?_
  · exact State.restartFor_keeps h
  · refine Keeps.ite ?_ ?_
    · exact State.reloadCores_keeps h
    · exact h

theorem State.setOtp_keeps {t : Otp} (h : Keeps b s0 s) (hl : b = true → t.life = s.belay.otp.life) : Keeps b s0 (State.setOtp s t) :=
  Keeps.tables h ⟨rfl, rfl⟩ (fun k => ⟨k.regs, k.tarn, k.rings, k.objs, k.flt, k.routes, k.counts, k.halves, k.keys⟩) hl

theorem State.confirm_keeps (h : Keeps b s0 s) {a1} : Keeps b s0 (State.confirm s a1) := by
  unfold State.confirm
  extract_lets x1 s2 f3 x4
  have hs2 : Keeps b s0 s2 := by
    exact State.setComp_keeps h
  clear_value s2
  split
  · rename_i x5 heq6
    exact hs2
  · rename_i x7 i8 heq9
    refine Keeps.ite ?_ ?_
    · with_reducible refine State.record_keeps ?_
      with_reducible refine State.setOtp_keeps ?_ ?_
      · exact hs2
      · intro x10
        dsimp only
    · exact hs2

theorem State.activated_keeps (h : Keeps b s0 s) {a1 a2 a3} : Keeps b s0 (State.activated s a1 a2 a3) := by
  unfold State.activated
  extract_lets x1 y2 s3 s4 s5 i6 g7 x8 x9 s10
  have hs3 : Keeps b s0 s3 := by
    exact State.setComp_keeps h
  clear_value s3
  have hs4 : Keeps b s0 s4 := by
    exact State.record_keeps hs3
  clear_value s4
  have hs5 : Keeps b s0 s5 := by
    refine Keeps.ite ?_ ?_
    · exact State.clearAbsent_keeps hs4
    · refine Keeps.ite ?_ ?_
      · exact State.clearAbsent_keeps hs4
      · exact hs4
  clear_value s5
  have hs10 : Keeps b s0 s10 := by
    exact Keeps.same hs4 ⟨rfl, rfl⟩ rfl rfl rfl rfl rfl rfl rfl rfl rfl rfl
  clear_value s10
  refine Keeps.ite ?_ ?_
  · exact State.safePoint_keeps hs5
  · with_reducible refine State.confirm_keeps ?_
    refine Keeps.ite ?_ ?_
    · exact State.clearAbsent_keeps hs10
    · exact hs10

theorem State.fabEvt_keeps (h : Keeps b s0 s) {a1} : Keeps b s0 (State.fabEvt s a1) := by
  unfold State.fabEvt
  exact State.raise_keeps h

theorem State.addrConflict_keeps (h : Keeps b s0 s) : Keeps b s0 (State.addrConflict s) := by
  unfold State.addrConflict
  extract_lets a1 x2
  refine Keeps.ite ?_ ?_
  · with_reducible refine State.fabEvt_keeps ?_
    with_reducible refine State.fabEvt_keeps ?_
    exact Keeps.same h ⟨rfl, rfl⟩ rfl rfl rfl rfl rfl rfl rfl rfl rfl rfl
  · exact h

theorem State.endCand_keeps (h : Keeps b s0 s) {a1 a2 a3 a4} : Keeps b s0 (State.endCand s a1 a2 a3 a4) := by
  unfold State.endCand
  with_reducible refine State.fillSlots_keeps ?_
  exact State.leaveSet_keeps h

theorem State.settlePort_keeps (h : Keeps b s0 s) {a1} : Keeps b s0 (State.settlePort s a1) := by
  unfold State.settlePort
  extract_lets x1
  with_reducible refine State.fillSlots_keeps ?_
  refine Keeps.foldl ?_ ?_
  · exact h
  · intro s2 x3 k4
    exact State.endCand_keeps k4

theorem State.settle_keeps (h : Keeps b s0 s) : Keeps b s0 (State.settle s) := by
  unfold State.settle
  refine Keeps.foldl ?_ ?_
  · exact h
  · intro s1 x2 k3
    exact State.settlePort_keeps k3

theorem State.advance_keeps (h : Keeps b s0 s) {a1} : Keeps b s0 (State.advance s a1) := by
  unfold State.advance
  refine Keeps.ite ?_ ?_
  · extract_lets x1 s2 x3
    have hs2 : Keeps b s0 s2 := by
      refine Keeps.ite ?_ ?_
      · with_reducible refine State.settle_keeps ?_
        exact Keeps.same h ⟨rfl, rfl⟩ rfl rfl rfl rfl rfl rfl rfl rfl rfl rfl
      · exact h
    clear_value s2
    exact Keeps.same hs2 ⟨rfl, rfl⟩ rfl rfl rfl rfl rfl rfl rfl rfl rfl rfl
  · exact h

theorem State.alertActs_keeps (h : Keeps b s0 s) : Keeps b s0 (State.alertActs s) := by
  unfold State.alertActs
  extract_lets c1 s2
  have hs2 : Keeps b s0 s2 := by
    exact State.setCairn_keeps h
  clear_value s2
  refine Keeps.ite ?_ ?_
  · with_reducible refine State.crnEvent_keeps ?_
    exact State.record_keeps hs2
  · refine Keeps.ite ?_ ?_
    · exact State.setCairn_keeps h
    · exact h

theorem State.nameSource_keeps (h : Keeps b s0 s) : Keeps b s0 (State.nameSource s) := by
  unfold State.nameSource
  refine Keeps.ite ?_ ?_
  · exact State.setRf_keeps h
  · exact h

theorem State.fabricTime_keeps (h : Keeps b s0 s) : Keeps b s0 (State.fabricTime s) := by
  unfold State.fabricTime
  dsimp only
  refine Keeps.ite ?_ ?_
  · with_reducible refine State.fabEvt_keeps ?_
    with_reducible refine State.nameSource_keeps ?_
    exact Keeps.same h ⟨rfl, rfl⟩ rfl rfl rfl rfl rfl rfl rfl rfl rfl rfl
  · with_reducible refine State.nameSource_keeps ?_
    exact Keeps.same h ⟨rfl, rfl⟩ rfl rfl rfl rfl rfl rfl rfl rfl rfl rfl

theorem State.takeAddr_keeps (h : Keeps b s0 s) {a1} : Keeps b s0 (State.takeAddr s a1) := by
  unfold State.takeAddr
  with_reducible refine State.fabricTime_keeps ?_
  with_reducible refine State.addrConflict_keeps ?_
  with_reducible refine State.fabEvt_keeps ?_
  extract_lets x1
  exact Keeps.same h ⟨rfl, rfl⟩ rfl rfl rfl rfl rfl rfl rfl rfl rfl rfl

theorem State.reportCredit_keeps (h : Keeps b s0 s) {a1 a2} : Keeps b s0 (State.reportCredit s a1 a2) := by
  unfold State.reportCredit
  exact State.emit_keeps h

theorem State.setLink_keeps (h : Keeps b s0 s) {a1 a2} : Keeps b s0 (State.setLink s a1 a2) := by
  unfold State.setLink
  exact Keeps.same h ⟨rfl, rfl⟩ rfl rfl rfl rfl rfl rfl rfl rfl rfl rfl

theorem State.returnCredit_keeps (h : Keeps b s0 s) {a1 a2 a3} : Keeps b s0 (State.returnCredit s a1 a2 a3) := by
  unfold State.returnCredit
  extract_lets l1 c2
  with_reducible refine State.reportCredit_keeps ?_
  exact State.setLink_keeps h

theorem State.rlDone_keeps (h : Keeps b s0 s) {a1 a2} : Keeps b s0 (State.rlDone s a1 a2) := by
  unfold State.rlDone
  exact State.returnCredit_keeps h

theorem State.dropFrom_keeps (h : Keeps b s0 s) {a1 a2} : Keeps b s0 (State.dropFrom s a1 a2) := by
  unfold State.dropFrom
  split
  · rename_i x1 j2
    refine Keeps.ite ?_ ?_
    · exact h
    · exact State.rlDone_keeps h
  · rename_i x3
    exact h

theorem State.pushLink_keeps (h : Keeps b s0 s) {a1 a2 a3} : Keeps b s0 (State.pushLink s a1 a2 a3) := by
  unfold State.pushLink
  extract_lets x1
  exact State.setLink_keeps h

theorem State.flood_keeps (h : Keeps b s0 s) {a1 a2} : Keeps b s0 (State.flood s a1 a2) := by
  unfold State.flood
  extract_lets ks1
  refine Keeps.ite ?_ ?_
  · exact State.dropFrom_keeps h
  · refine Keeps.foldl ?_ ?_
    · exact h
    · intro s2 x3 k4
      exact State.pushLink_keeps k4

theorem State.remember_keeps (h : Keeps b s0 s) {a1 a2 a3} : Keeps b s0 (State.remember s a1 a2 a3) := by
  unfold State.remember
  extract_lets x1
  exact Keeps.same h ⟨rfl, rfl⟩ rfl rfl rfl rfl rfl rfl rfl rfl rfl rfl

theorem State.floodMgmt_keeps (h : Keeps b s0 s) {a1 a2} : Keeps b s0 (State.floodMgmt s a1 a2) := by
  unfold State.floodMgmt
  extract_lets q1 x2 s3
  have hs3 : Keeps b s0 s3 := by
    exact Keeps.same h ⟨rfl, rfl⟩ rfl rfl rfl rfl rfl rfl rfl rfl rfl rfl
  clear_value s3
  with_reducible refine State.flood_keeps ?_
  exact State.remember_keeps hs3

theorem State.allocate_keeps (h : Keeps b s0 s) {a1} : Keeps b s0 (State.allocate s a1) := by
  unfold State.allocate
  refine Keeps.ite ?_ ?_
  · exact h
  · dsimp only
    split
    · rename_i x1 heq2
      exact State.fabEvt_keeps h
    · rename_i x3 a4 heq5
      with_reducible refine State.floodMgmt_keeps ?_
      refine Keeps.ite ?_ ?_
      · with_reducible refine State.takeAddr_keeps ?_
        exact Keeps.same h ⟨rfl, rfl⟩ rfl rfl rfl rfl rfl rfl rfl rfl rfl rfl
      · exact Keeps.same h ⟨rfl, rfl⟩ rfl rfl rfl rfl rfl rfl rfl rfl rfl rfl

theorem State.allocator_keeps (h : Keeps b s0 s) : Keeps b s0 (State.allocator s) := by
  unfold State.allocator
  extract_lets a1 x2
  exact Keeps.same h ⟨rfl, rfl⟩ rfl rfl rfl rfl rfl rfl rfl rfl rfl rfl

theorem State.stormCount_keeps (h : Keeps b s0 s) {a1 a2} : Keeps b s0 (State.stormCount s a1 a2) := by
  unfold State.stormCount
  extract_lets n1 w2 l3 x4 s5 i6 s7 s8
  have hs5 : Keeps b s0 s5 := by
    exact Keeps.same h ⟨rfl, rfl⟩ rfl rfl rfl rfl rfl rfl rfl rfl rfl rfl
  clear_value s5
  have hs7 : Keeps b s0 s7 := by
    exact State.raise_keeps hs5
  clear_value s7
  have hs8 : Keeps b s0 s8 := by
    exact State.raise_keeps hs7
  clear_value s8
  refine Keeps.ite ?_ ?_
  · exact h
  · refine Keeps.ite ?_ ?_
    · exact State.record_keeps hs8
    · exact hs5

theorem State.message_keeps (h : Keeps b s0 s) {a1 a2 a3} : Keeps b s0 (State.message s a1 a2 a3) := by
  unfold State.message
  extract_lets f1 held2 x3 e4 s5 s6
  have hs5 : Keeps b s0 s5 := by
    exact Keeps.same h ⟨rfl, rfl⟩ rfl rfl rfl rfl rfl rfl rfl rfl rfl rfl
  clear_value s5
  have hs6 : Keeps b s0 s6 := by
    refine Keeps.ite ?_ ?_
    · exact State.setFunc_keeps hs5
    · exact State.emit_keeps hs5
  clear_value s6
  refine Keeps.ite ?_ ?_
  · exact hs5
  · refine Keeps.foldl ?_ ?_
    · exact hs6
    · intro s7 x8 k9
      exact State.stormCount_keeps k9

theorem State.announceAt_keeps (h : Keeps b s0 s) {a1 a2 a3} : Keeps b s0 (State.announceAt s a1 a2 a3) := by
  unfold State.announceAt
  refine Keeps.ite ?_ ?_
  · exact State.message_keeps h
  · refine Keeps.ite ?_ ?_
    · with_reducible refine State.message_keeps ?_
      exact State.draw_keeps h
    · extract_lets s1 held2 x3
      have hs1 : Keeps b s0 s1 := by
        exact State.draw_keeps h
      clear_value s1
      exact Keeps.same hs1 ⟨rfl, rfl⟩ rfl rfl rfl rfl rfl rfl rfl rfl rfl rfl

theorem State.announce_keeps (h : Keeps b s0 s) : Keeps b s0 (State.announce s) := by
  unfold State.announce
  extract_lets cur1 new2 reps3 s4 x5
  have hs4 : Keeps b s0 s4 := by
    refine Keeps.foldl ?_ ?_
    · exact h
    · intro s6 x7 k8
      exact State.announceAt_keeps k8
  clear_value s4
  exact Keeps.same hs4 ⟨rfl, rfl⟩ rfl rfl rfl rfl rfl rfl rfl rfl rfl rfl

theorem State.answer_keeps (h : Keeps b s0 s) {a1} : Keeps b s0 (State.answer s a1) := by
  unfold State.answer
  exact State.emit_keeps h

theorem State.withEntry_keeps (h : Keeps b s0 s) {a1 a2} : Keeps b s0 (State.withEntry s a1 a2) := by
  unfold State.withEntry
  extract_lets x1
  exact Keeps.same h ⟨rfl, rfl⟩ rfl rfl rfl rfl rfl rfl rfl rfl rfl rfl

theorem State.reassignPort_keeps (h : Keeps b s0 s) {a1} : Keeps b s0 (State.reassignPort s a1) := by
  unfold State.reassignPort
  extract_lets x1 x2
  refine Keeps.ite ?_ ?_
  · refine Keeps.ite ?_ ?_
    · exact State.leaveHold_keeps h
    · exact h
  · refine Keeps.ite ?_ ?_
    · refine Keeps.ite ?_ ?_
      · exact h
      · with_reducible refine State.setPort_keeps ?_
        exact State.clearHold_keeps h
    · exact State.clearHold_keeps h

theorem State.tarnWrite_keeps {a1 a2 a3} (h : Keeps b s0 s) : Keeps b s0 (State.tarnWrite s a1 a2 a3) := by
  induction a3 generalizing s a2 with
  | nil => exact h
  | cons x r ih =>
    unfold State.tarnWrite
    dsimp only
    refine ih ?_
    split
    · exact Keeps.tables h ⟨rfl, rfl⟩ (fun k => ⟨k.regs, Tbl.wf_put _ _ _ k.tarn, k.rings, k.objs, k.flt, k.routes, k.counts, k.halves, k.keys⟩)
        (fun _ => rfl)
    · exact h

theorem State.dropObject_keeps (h : Keeps b s0 s) {a1 a2} : Keeps b s0 (State.dropObject s a1 a2) := by
  unfold State.dropObject
  extract_lets x1 x2
  with_reducible refine State.setObj_keeps ?_
  exact State.tarnWrite_keeps h

theorem State.dropBound_keeps (h : Keeps b s0 s) {a1 a2} : Keeps b s0 (State.dropBound s a1 a2) := by
  unfold State.dropBound
  refine Keeps.foldl ?_ ?_
  · exact h
  · intro s1 x2 k3
    exact State.dropObject_keeps k3

theorem State.clearGroupHold_keeps (h : Keeps b s0 s) {a1} : Keeps b s0 (State.clearGroupHold s a1) := by
  unfold State.clearGroupHold
  extract_lets g1 s2 x3
  have hs2 : Keeps b s0 s2 := by
    unfold s2
    split
    · rename_i x4 o5 heq6
      exact State.complete_keeps h
    · rename_i x7 heq8
      exact h
  clear_value s2
  exact State.setGroup_keeps hs2

theorem State.reassignGroup_keeps (h : Keeps b s0 s) {a1} : Keeps b s0 (State.reassignGroup s a1) := by
  unfold State.reassignGroup
  extract_lets g1
  refine Keeps.ite ?_ ?_
  · refine Keeps.ite ?_ ?_
    · exact State.leaveGroupHold_keeps h
    · exact h
  · exact State.clearGroupHold_keeps h

theorem State.clearBlock_keeps (h : Keeps b s0 s) {a1} : Keeps b s0 (State.clearBlock s a1) := by
  unfold State.clearBlock
  exact Keeps.tables h ⟨rfl, rfl⟩ (fun k => ⟨k.regs, k.tarn, k.rings, k.objs, k.flt, k.routes, by with_reducible exact Tbl.wf_drop _ _ k.counts, by with_reducible exact Tbl.wf_drop _ _ k.halves, k.keys⟩) (fun _ => rfl)

theorem State.setEngine_keeps (h : Keeps b s0 s) {a1 a2} : Keeps b s0 (State.setEngine s a1 a2) := by
  unfold State.setEngine
  extract_lets x1
  exact Keeps.same h ⟨rfl, rfl⟩ rfl rfl rfl rfl rfl rfl rfl rfl rfl rfl

theorem State.attach_keeps (h : Keeps b s0 s) {a1 a2} : Keeps b s0 (State.attach s a1 a2) := by
  unfold State.attach
  extract_lets s1 x2 s3
  have hs1 : Keeps b s0 s1 := by
    dsimp only [s1]
    split
    · rename_i e4 o5 heq6
      exact State.setEngine_keeps h
    · rename_i e7 heq8
      exact h
  clear_value s1
  have hs3 : Keeps b s0 s3 := by
    exact Keeps.same hs1 ⟨rfl, rfl⟩ rfl rfl rfl rfl rfl rfl rfl rfl rfl rfl
  clear_value s3
  dsimp only
  split
  · rename_i e9 o10
    exact State.setEngine_keeps hs3
  · rename_i e11
    exact hs3

theorem State.newWindows_keeps (h : Keeps b s0 s) {a1} : Keeps b s0 (State.newWindows s a1) := by
  unfold State.newWindows
  exact State.attach_keeps h

theorem State.setQuota_keeps (h : Keeps b s0 s) {a1 a2} : Keeps b s0 (State.setQuota s a1 a2) := by
  unfold State.setQuota
  extract_lets us gone
  refine Keeps.ite ?_ ?_
  · exact Keeps.same h ⟨rfl, rfl⟩ rfl rfl rfl rfl rfl rfl rfl rfl rfl rfl
  · refine Keeps.tables h ⟨rfl, rfl⟩ (fun k => ⟨k.regs, ?_, k.rings, ?_, k.flt, k.routes, k.counts, k.halves, k.keys⟩) (fun _ => rfl)
    · with_reducible exact Tbl.wf_drop _ _ k.tarn
    · show Tbl.wf _ (if _ then _ else _) = true
      split
      · exact Tbl.wf_drop _ _ k.objs
      · exact k.objs

theorem State.applyEntry_keeps (h : Keeps b s0 s) {a1 a2} : Keeps b s0 (State.applyEntry s a1 a2) := by
  unfold State.applyEntry
  extract_lets o1 t2 gone3 left4 t5 t6 moved7 newRing8 newFlt9 t10 t11
  have ht2 : Keeps b s0 t2 := by
    exact State.withEntry_keeps h
  clear_value t2
  have ht5 : Keeps b s0 t5 := by
    refine Keeps.foldl ?_ ?_
    · exact h
    · intro s12 x13 k14
      with_reducible refine State.reassignPort_keeps ?_
      exact State.dropBound_keeps k14
  clear_value t5
  have ht6 : Keeps b s0 t6 := by
    with_reducible refine State.withEntry_keeps ?_
    refine Keeps.foldl ?_ ?_
    · exact ht5
    · intro s15 x16 k17
      exact State.reassignGroup_keeps k17
  clear_value t6
  have ht10 : Keeps b s0 t10 := by
    refine Keeps.foldl ?_ ?_
    · exact ht6
    · intro s18 x19 k20
      exact State.clearBlock_keeps k20
  clear_value t10
  have ht11 : Keeps b s0 t11 := by
    exact Keeps.tables ht10 ⟨rfl, rfl⟩ (fun k => ⟨by with_reducible exact RegFile.wf_clear _ _ k.regs, k.tarn, by with_reducible exact Tbl.wf_drop _ _ k.rings, k.objs, by with_reducible exact Tbl.wf_drop _ _ k.flt, k.routes, k.counts, k.halves, k.keys⟩) (fun _ => rfl)
  clear_value t11
  refine Keeps.foldl ?_ ?_
  · exact State.setQuota_keeps ht11
  · intro s21 x22 k23
    exact State.newWindows_keeps k23

theorem State.reclaimPort_keeps (h : Keeps b s0 s) {a1} : Keeps b s0 (State.reclaimPort s a1) := by
  unfold State.reclaimPort
  dsimp only
  split
  · rename_i x1 k2 heq3
    exact State.stopGroupCmd_keeps h
  · rename_i x4 heq5
    refine Keeps.ite ?_ ?_
    · exact State.toAwake_keeps h
    · refine Keeps.ite ?_ ?_
      · exact h
      · refine Keeps.ite ?_ ?_
        · exact Keeps.same h ⟨rfl, rfl⟩ rfl rfl rfl rfl rfl rfl rfl rfl rfl rfl
        · exact State.stopAccepted_keeps h

theorem State.dropWaits_keeps (h : Keeps b s0 s) {a1} : Keeps b s0 (State.dropWaits s a1) := by
  unfold State.dropWaits
  refine Keeps.foldl ?_ ?_
  · exact h
  · intro s1 x2 k3
    extract_lets i4 ops5 x6
    refine Keeps.foldl ?_ ?_
    · exact State.setRing_keeps k3
    · intro s7 x8 k9
      exact State.endOp_keeps k9

theorem State.closeCqs_keeps (h : Keeps b s0 s) {a1} : Keeps b s0 (State.closeCqs s a1) := by
  unfold State.closeCqs
  refine Keeps.ite ?_ ?_
  · exact h
  · extract_lets mine1 cqs2 free3 s4 x5
    have hs4 : Keeps b s0 s4 := by
      refine Keeps.foldl ?_ ?_
      · exact h
      · intro s6 x7 k8
        exact State.disableRing_keeps k8
    clear_value s4
    refine Keeps.ite ?_ ?_
    · exact Keeps.same hs4 ⟨rfl, rfl⟩ rfl rfl rfl rfl rfl rfl rfl rfl rfl rfl
    · exact hs4

theorem State.applyReclaim_keeps (h : Keeps b s0 s) {a1 a2} : Keeps b s0 (State.applyReclaim s a1 a2) := by
  unfold State.applyReclaim
  extract_lets m1 x2 hit3 stopping4 s5 s6 s7 mine8 s9 s10 x11
  have hs5 : Keeps b s0 s5 := by
    refine Keeps.foldl ?_ ?_
    · exact h
    · intro s12 x13 k14
      exact State.reclaimPort_keeps k14
  clear_value s5
  have hs6 : Keeps b s0 s6 := by
    refine Keeps.foldl ?_ ?_
    · exact hs5
    · intro s15 x16 k17
      refine Keeps.ite ?_ ?_
      · exact k17
      · exact State.stopGroupCmd_keeps k17
  clear_value s6
  have hs7 : Keeps b s0 s7 := by
    refine Keeps.foldl ?_ ?_
    · exact hs6
    · intro s18 x19 k20
      refine Keeps.ite ?_ ?_
      · exact State.stopEth_keeps k20
      · exact k20
  clear_value s7
  have hs9 : Keeps b s0 s9 := by
    refine Keeps.ite ?_ ?_
    · exact hs7
    · exact State.dropWaits_keeps hs7
  clear_value s9
  have hs10 : Keeps b s0 s10 := by
    refine Keeps.foldl ?_ ?_
    · exact hs9
    · intro s21 x22 k23
      extract_lets cfg24 p25
      refine Keeps.ite ?_ ?_
      · exact State.disableRing_keeps k23
      · exact k23
  clear_value s10
  refine Keeps.ite ?_ ?_
  · exact hs7
  · with_reducible refine State.closeCqs_keeps ?_
    exact Keeps.same hs10 ⟨rfl, rfl⟩ rfl rfl rfl rfl rfl rfl rfl rfl rfl rfl

theorem State.applyRecord_keeps (h : Keeps b s0 s) {a1} : Keeps b s0 (State.applyRecord s a1) := by
  unfold State.applyRecord
  extract_lets d1 x2
  split
  · rename_i x3 heq4
    exact State.applyEntry_keeps h
  · rename_i x5 heq6
    exact Keeps.same h ⟨rfl, rfl⟩ rfl rfl rfl rfl rfl rfl rfl rfl rfl rfl
  · rename_i x7 heq8
    exact Keeps.same h ⟨rfl, rfl⟩ rfl rfl rfl rfl rfl rfl rfl rfl rfl rfl
  · rename_i x9 x10 x11 x12
    exact State.applyReclaim_keeps h

theorem State.setTmu_keeps (h : Keeps b s0 s) {a1} : Keeps b s0 (State.setTmu s a1) := by
  unfold State.setTmu
  exact Keeps.same h ⟨rfl, rfl⟩ rfl rfl rfl rfl rfl rfl rfl rfl rfl rfl

theorem State.epochEntries_keeps (h : Keeps b s0 s) {a1} : Keeps b s0 (State.epochEntries s a1) := by
  unfold State.epochEntries
  refine Keeps.foldl ?_ ?_
  · exact h
  · intro s1 x2 k3
    exact State.tsqEntry_keeps k3

theorem State.setPulse_keeps (h : Keeps b s0 s) {a1 a2} : Keeps b s0 (State.setPulse s a1 a2) := by
  unfold State.setPulse
  extract_lets x1
  exact State.setTmu_keeps h

theorem State.resumePulse_keeps (h : Keeps b s0 s) {a1} : Keeps b s0 (State.resumePulse s a1) := by
  unfold State.resumePulse
  extract_lets p1 lo2
  refine Keeps.ite ?_ ?_
  · exact State.setPulse_keeps h
  · exact h

theorem State.stepTime_keeps (h : Keeps b s0 s) {a1} : Keeps b s0 (State.stepTime s a1) := by
  unfold State.stepTime
  extract_lets x1 s2 x3 s4 s5 s6 s7
  have hs2 : Keeps b s0 s2 := by
    exact State.setTmu_keeps h
  clear_value s2
  have hs4 : Keeps b s0 s4 := by
    exact State.setTmu_keeps hs2
  clear_value s4
  have hs5 : Keeps b s0 s5 := by
    exact State.raise_keeps hs4
  clear_value s5
  have hs6 : Keeps b s0 s6 := by
    refine Keeps.foldl ?_ ?_
    · exact hs5
    · intro s8 x9 k10
      refine Keeps.ite ?_ ?_
      · exact State.raise_keeps k10
      · exact k10
  clear_value s6
  have hs7 : Keeps b s0 s7 := by
    exact State.epochEntries_keeps hs6
  clear_value s7
  refine Keeps.foldl ?_ ?_
  · exact hs7
  · intro s11 x12 k13
    exact State.resumePulse_keeps k13

theorem State.servoGoes_keeps (h : Keeps b s0 s) {a1} : Keeps b s0 (State.servoGoes s a1) := by
  unfold State.servoGoes
  extract_lets old1 x2 s3 s4
  have hs3 : Keeps b s0 s3 := by
    exact State.setTmu_keeps h
  clear_value s3
  have hs4 : Keeps b s0 s4 := by
    refine Keeps.ite ?_ ?_
    · exact State.raise_keeps hs3
    · exact hs3
  clear_value s4
  refine Keeps.ite ?_ ?_
  · exact State.raise_keeps hs4
  · exact hs4

theorem State.setRate_keeps (h : Keeps b s0 s) {a1} : Keeps b s0 (State.setRate s a1) := by
  unfold State.setRate
  extract_lets p1
  exact State.setTmu_keeps h

theorem State.setInteg_keeps (h : Keeps b s0 s) {a1} : Keeps b s0 (State.setInteg s a1) := by
  unfold State.setInteg
  with_reducible refine State.setReg_keeps ?_
  extract_lets x1
  exact State.setTmu_keeps h

theorem State.piUpdate_keeps (h : Keeps b s0 s) {a1 a2 a3} : Keeps b s0 (State.piUpdate s a1 a2 a3) := by
  unfold State.piUpdate
  extract_lets den1 i2 rate3 s4 x5
  have hs4 : Keeps b s0 s4 := by
    with_reducible refine State.setRate_keeps ?_
    exact State.setInteg_keeps h
  clear_value s4
  exact State.setTmu_keeps hs4

theorem State.applySample_keeps (h : Keeps b s0 s) {a1 a2} : Keeps b s0 (State.applySample s a1 a2) := by
  unfold State.applySample
  extract_lets v1 big2 fine3 first4 s5 x6
  have hs5 : Keeps b s0 s5 := by
    refine Keeps.ite ?_ ?_
    · exact State.stepTime_keeps h
    · dsimp only [first4]
      exact State.setTmu_keeps h
  clear_value s5
  dsimp only
  split
  · rename_i x7 heq8
    exact h
  · rename_i x9 heq10
    with_reducible refine State.servoGoes_keeps ?_
    exact State.setTmu_keeps hs5
  · rename_i x11 heq12
    with_reducible refine State.servoGoes_keeps ?_
    exact State.setTmu_keeps hs5
  · rename_i x13 x14 x15 x16
    split
    · rename_i x17 heq18
      dsimp only [first4]
      with_reducible refine State.setTmu_keeps ?_
      refine Keeps.ite ?_ ?_
      · exact State.servoGoes_keeps h
      · exact h
    · rename_i x19 r20 heq21
      refine Keeps.ite ?_ ?_
      · with_reducible refine State.setTmu_keeps ?_
        with_reducible refine State.stepTime_keeps ?_
        refine Keeps.ite ?_ ?_
        · exact State.servoGoes_keeps h
        · exact h
      · refine Keeps.ite ?_ ?_
        · refine Keeps.ite ?_ ?_
          · with_reducible refine State.servoGoes_keeps ?_
            with_reducible refine State.setTmu_keeps ?_
            with_reducible refine State.piUpdate_keeps ?_
            refine Keeps.ite ?_ ?_
            · exact State.servoGoes_keeps h
            · exact h
          · with_reducible refine State.setTmu_keeps ?_
            with_reducible refine State.piUpdate_keeps ?_
            refine Keeps.ite ?_ ?_
            · exact State.servoGoes_keeps h
            · exact h
        · with_reducible refine State.setTmu_keeps ?_
          with_reducible refine State.piUpdate_keeps ?_
          refine Keeps.ite ?_ ?_
          · exact State.servoGoes_keeps h
          · exact h

theorem State.seqCheck_keeps (h : Keeps b s0 s) {a1} (he : State.seqCheck s a1 = some t) : Keeps b s0 t := by
  unfold State.seqCheck at he
  dsimp only at he
  split at he
  · split at he
    · split at he
      · cases he; exact Keeps.same h ⟨rfl, rfl⟩ rfl rfl rfl rfl rfl rfl rfl rfl rfl rfl
      · cases he
    · cases he; exact Keeps.same h ⟨rfl, rfl⟩ rfl rfl rfl rfl rfl rfl rfl rfl rfl rfl
  · cases he; exact h

theorem State.countLink_keeps (h : Keeps b s0 s) {a1 a2} : Keeps b s0 (State.countLink s a1 a2) := by
  unfold State.countLink
  exact State.count_keeps h

theorem State.setRule_keeps (h : Keeps b s0 s) {a1 a2} : Keeps b s0 (State.setRule s a1 a2) := by
  unfold State.setRule
  extract_lets x1
  exact Keeps.same h ⟨rfl, rfl⟩ rfl rfl rfl rfl rfl rfl rfl rfl rfl rfl

theorem State.ruleDrop_keeps (h : Keeps b s0 s) {a1} : Keeps b s0 (State.ruleDrop s a1) := by
  unfold State.ruleDrop
  split
  · rename_i x1 r2 heq3
    exact State.setRule_keeps h
  · rename_i x4 heq5
    exact h

theorem State.gwEnqueue_keeps (h : Keeps b s0 s) {a1 a2} : Keeps b s0 (State.gwEnqueue s a1 a2) := by
  unfold State.gwEnqueue
  extract_lets used1 x2
  refine Keeps.ite ?_ ?_
  · exact State.ruleDrop_keeps h
  · exact Keeps.same h ⟨rfl, rfl⟩ rfl rfl rfl rfl rfl rfl rfl rfl rfl rfl

theorem State.gwRouted_keeps (h : Keeps b s0 s) {a1 a2 a3} (he : State.gwRouted s a1 a2 a3 = some t) : Keeps b s0 t := by
  unfold State.gwRouted at he
  split at he
  · split at he
    · split at he
      · cases he; exact State.gwEnqueue_keeps h
      · cases he
    · cases he
  · cases he

theorem State.useSpace_keeps (h : Keeps b s0 s) {a1 a2} : Keeps b s0 (State.useSpace s a1 a2) := by
  unfold State.useSpace
  exact State.setShare_keeps h

end Sys2Proof.Machine
end

