-- ==== Sys2Proof/Laws/KeepsB.lean ====
section
/-! SUPPORT. The operations keep the queue, the tables and the lifecycle (Keeps.lean), part 2 of 4, each after those it calls. -/
namespace Sys2Proof.Machine

variable {b : Bool} {s0 s t : State}

theorem State.countPort_keeps (h : Keeps b s0 s) {a1 a2} : Keeps b s0 (State.countPort s a1 a2) := by
  unfold State.countPort
  exact State.count_keeps h

theorem State.countEth_keeps (h : Keeps b s0 s) {a1 a2} : Keeps b s0 (State.countEth s a1 a2) := by
  unfold State.countEth
  exact State.count_keeps h

theorem State.countNoBuf_keeps (h : Keeps b s0 s) {a1} : Keeps b s0 (State.countNoBuf s a1) := by
  unfold State.countNoBuf
  refine Keeps.ite ?_ ?_
  · exact State.countPort_keeps h
  · refine Keeps.ite ?_ ?_
    · exact State.countEth_keeps h
    · exact h

theorem State.countDrop_keeps (h : Keeps b s0 s) {a1 a2 a3} : Keeps b s0 (State.countDrop s a1 a2 a3) := by
  unfold State.countDrop
  extract_lets i1 x2
  with_reducible refine State.countNoBuf_keeps ?_
  exact State.setRing_keeps h

theorem State.dropOldest_keeps (h : Keeps b s0 s) {a1 a2} : Keeps b s0 (State.dropOldest s a1 a2) := by
  unfold State.dropOldest
  extract_lets i1 x2
  dsimp only
  split
  · rename_i x3 heq4
    exact h
  · rename_i x5 w6 later7 heq8
    with_reducible refine State.countDrop_keeps ?_
    with_reducible refine State.dropWait_keeps ?_
    exact State.setRing_keeps h

theorem State.deliver_keeps (h : Keeps b s0 s) {a1 a2 a3} : Keeps b s0 (State.deliver s a1 a2 a3) := by
  unfold State.deliver
  extract_lets i1 s2 r3 s4 s5
  have hs2 : Keeps b s0 s2 := by
    exact State.useSpace_keeps h
  clear_value s2
  have hs4 : Keeps b s0 s4 := by
    exact State.setRing_keeps hs2
  clear_value s4
  have hs5 : Keeps b s0 s5 := by
    exact State.serve_keeps hs4
  clear_value s5
  refine Keeps.ite ?_ ?_
  · exact State.dropOldest_keeps hs5
  · exact hs5

theorem State.deliverRouted_keeps (h : Keeps b s0 s) {a1 a2} : Keeps b s0 (State.deliverRouted s a1 a2) := by
  unfold State.deliverRouted
  extract_lets rt1 d2
  refine Keeps.ite ?_ ?_
  · split
    · rename_i x3 s4 heq5
      exact State.gwRouted_keeps h heq5
    · rename_i x6 heq7
      exact State.countLink_keeps h
  · split
    · rename_i x8 n9 heq10
      refine Keeps.ite ?_ ?_
      · exact State.deliver_keeps h
      · exact State.countLink_keeps h
    · rename_i x11 heq12
      exact State.countLink_keeps h

theorem State.arriveRouted_keeps (h : Keeps b s0 s) {a1 a2} : Keeps b s0 (State.arriveRouted s a1 a2).1 := by
  unfold State.arriveRouted
  split
  · exact State.countLink_keeps (State.countLink_keeps h)
  · rename_i heq
    exact Keeps.ite (State.deliverRouted_keeps (State.seqCheck_keeps h heq)) (State.countLink_keeps (State.seqCheck_keeps h heq))

theorem State.countFrame_keeps (h : Keeps b s0 s) {a1 a2 a3} : Keeps b s0 (State.countFrame s a1 a2 a3) := by
  unfold State.countFrame
  extract_lets s1 s2
  have hs1 : Keeps b s0 s1 := by
    exact State.countPort_keeps h
  clear_value s1
  have hs2 : Keeps b s0 s2 := by
    exact State.countPort_keeps hs1
  clear_value s2
  exact State.countBy_keeps hs2

theorem State.promote_keeps (h : Keeps b s0 s) {a1} : Keeps b s0 (State.promote s a1) := by
  unfold State.promote
  extract_lets x1 n2 need3
  refine Keeps.ite ?_ ?_
  · exact h
  · refine Keeps.ite ?_ ?_
    · exact State.showPort_keeps h
    · exact State.setPort_keeps h

theorem State.promoteBy_keeps (h : Keeps b s0 s) {a1} : Keeps b s0 (State.promoteBy s a1) := by
  unfold State.promoteBy
  extract_lets s1
  have hs1 : Keeps b s0 s1 := by
    exact State.promote_keeps h
  clear_value s1
  split
  · rename_i x2 k3 heq4
    refine Keeps.ite ?_ ?_
    · exact State.promoteGroup_keeps hs1
    · exact hs1
  · rename_i x5 heq6
    exact hs1

theorem State.settleAttempt_keeps (h : Keeps b s0 s) {a1 a2 a3 a4} : Keeps b s0 (State.settleAttempt s a1 a2 a3 a4) := by
  unfold State.settleAttempt
  extract_lets x1
  dsimp only
  split
  · rename_i x2 code3 heq4
    exact State.endCand_keeps h
  · rename_i x5 heq6
    exact State.setPort_keeps h

theorem State.endCandAttempt_keeps (h : Keeps b s0 s) {a1 a2 a3 a4} : Keeps b s0 (State.endCandAttempt s a1 a2 a3 a4) := by
  unfold State.endCandAttempt
  extract_lets s1 here2 x3 s4 x5 x6
  have hs1 : Keeps b s0 s1 := by
    refine Keeps.ite ?_ ?_
    · exact h
    · exact State.countPort_keeps h
  clear_value s1
  have hs4 : Keeps b s0 s4 := by
    refine Keeps.ite ?_ ?_
    · exact State.setPort_keeps hs1
    · exact hs1
  clear_value s4
  refine Keeps.ite ?_ ?_
  · exact State.settleAttempt_keeps hs4
  · refine Keeps.ite ?_ ?_
    · exact hs4
    · exact State.setPort_keeps hs4

theorem State.examineRef_keeps (h : Keeps b s0 s) {a1 a2 a3 a4 a5} : Keeps b s0 (State.examineRef s a1 a2 a3 a4 a5) := by
  unfold State.examineRef
  split
  · rename_i e1
    exact h
  · rename_i e2 e3
    refine Keeps.ite ?_ ?_
    · exact h
    · refine Keeps.ite ?_ ?_
      · exact State.grpEvt_keeps h
      · exact State.acceptRef_keeps h

theorem State.takeSpace_keeps (h : Keeps b s0 s) {a1 a2 a3} {i : Nat} (he : State.takeSpace s a1 a2 a3 = some (i, t)) : Keeps b s0 t := by
  unfold State.takeSpace at he
  dsimp only at he
  split at he
  · cases he
  · split at he
    · cases he; exact State.setPort_keeps h
    · cases he; exact State.setEth_keeps h

theorem State.stageFrame_keeps (h : Keeps b s0 s) {a1 a2} : Keeps b s0 (State.stageFrame s a1 a2) := by
  unfold State.stageFrame
  split
  · exact State.countPort_keeps h
  · rename_i heq
    exact Keeps.same (State.takeSpace_keeps h heq) ⟨rfl, rfl⟩ rfl rfl rfl rfl rfl rfl rfl rfl rfl rfl

theorem State.attemptDone_keeps (h : Keeps b s0 s) {a1 a2} : Keeps b s0 (State.attemptDone s a1 a2) := by
  unfold State.attemptDone
  extract_lets x1 s2 s3 s4 s5 s6 x7 s8
  have hs2 : Keeps b s0 s2 := by
    refine Keeps.ite ?_ ?_
    · exact h
    · exact State.setPort_keeps h
  clear_value s2
  have hs3 : Keeps b s0 s3 := by
    exact State.countFrame_keeps hs2
  clear_value s3
  have hs4 : Keeps b s0 s4 := by
    exact State.ackReset_keeps hs3
  clear_value s4
  have hs5 : Keeps b s0 s5 := by
    exact State.promoteBy_keeps hs4
  clear_value s5
  have hs6 : Keeps b s0 s6 := by
    refine Keeps.ite ?_ ?_
    · exact hs5
    · exact State.countPort_keeps hs5
  clear_value s6
  have hs8 : Keeps b s0 s8 := by
    unfold s8
    split
    · rename_i x9 i10 heq11
      split
      · rename_i x12 k13 heq14
        exact State.endCandAttempt_keeps hs5
      · rename_i x15 heq16
        exact hs5
    · rename_i x17 heq18
      split
      · rename_i x19 k20 heq21
        exact State.examineRef_keeps hs5
      · rename_i x22 heq23
        exact hs5
    · rename_i x24 x25 x26
      exact State.setPort_keeps hs6
  clear_value s8
  refine Keeps.ite ?_ ?_
  · exact State.stageFrame_keeps hs8
  · exact hs8

theorem State.refLostBus_keeps (h : Keeps b s0 s) {a1} : Keeps b s0 (State.refLostBus s a1) := by
  unfold State.refLostBus
  dsimp only
  split
  · rename_i x1 k2 heq3
    refine Keeps.ite ?_ ?_
    · exact State.setGroup_keeps h
    · exact h
  · rename_i x4 heq5
    exact h

theorem State.attemptFailed_keeps (h : Keeps b s0 s) {a1 a2 a3} : Keeps b s0 (State.attemptFailed s a1 a2 a3) := by
  unfold State.attemptFailed
  extract_lets x1 s2 s3 x4
  have hs2 : Keeps b s0 s2 := by
    unfold s2
    split
    · rename_i r5
      exact State.countPort_keeps h
    · rename_i r6 e7 won8
      exact State.setPort_keeps h
    · rename_i r9
      exact h
  clear_value s2
  have hs3 : Keeps b s0 s3 := by
    refine Keeps.ite ?_ ?_
    · exact hs2
    · exact State.countPort_keeps hs2
  clear_value s3
  split
  · rename_i x10 i11 heq12
    split
    · rename_i x13 k14 heq15
      exact State.endCandAttempt_keeps hs2
    · rename_i x16 heq17
      exact hs2
  · rename_i x18 heq19
    refine Keeps.ite ?_ ?_
    · exact State.refLostBus_keeps hs2
    · exact hs2
  · rename_i x20 x21 x22
    exact State.setPort_keeps hs3

theorem State.noteLoop_keeps (h : Keeps b s0 s) {a1 a2 a3} : Keeps b s0 (State.noteLoop s a1 a2 a3) := by
  unfold State.noteLoop
  dsimp only
  split
  · rename_i x1 x2 val3 l4 heq5 heq6
    exact State.setPort_keeps h
  · rename_i x7 x8 x9
    exact h

theorem State.takeFv_keeps (h : Keeps b s0 s) {a1 a2 a3} : Keeps b s0 (State.takeFv s a1 a2 a3).1 := by
  unfold State.takeFv
  split
  · exact State.emit_keeps (State.setKey_keeps h)
  · exact h

theorem State.takeTrailer_keeps (h : Keeps b s0 s) {a1} : Keeps b s0 (State.takeTrailer s a1) := by
  unfold State.takeTrailer
  extract_lets x1
  dsimp only
  split
  · rename_i x2 a3 heq4
    split
    · rename_i x5 i6 heq7
      split
      · rename_i x8 k9 heq10
        split
        · rename_i x11 code12 heq13
          refine Keeps.ite ?_ ?_
          · exact h
          · with_reducible refine State.setPort_keeps ?_
            exact State.takeFv_keeps h
        · rename_i x14 heq15
          exact h
      · rename_i x16 heq17
        exact h
    · rename_i x18 heq19
      exact h
  · rename_i x20 heq21
    exact h

theorem State.frameEnds_keeps (h : Keeps b s0 s) {a1 a2} : Keeps b s0 (State.frameEnds s a1 a2) := by
  unfold State.frameEnds
  dsimp only
  split
  · rename_i x1 k2 heq3
    refine Keeps.ite ?_ ?_
    · exact h
    · exact State.setGroup_keeps h
  · rename_i x4 heq5
    exact h

theorem State.endAttempt_keeps (h : Keeps b s0 s) {a1 a2} : Keeps b s0 (State.endAttempt s a1 a2) := by
  unfold State.endAttempt
  dsimp only
  split
  · rename_i x1 heq2
    exact h
  · rename_i x3 x4 heq5
    refine Keeps.ite ?_ ?_
    · with_reducible refine State.attemptDone_keeps ?_
      with_reducible refine State.frameEnds_keeps ?_
      with_reducible refine State.setPort_keeps ?_
      refine Keeps.ite ?_ ?_
      · exact State.takeTrailer_keeps h
      · exact h
    · with_reducible refine State.attemptFailed_keeps ?_
      with_reducible refine State.frameEnds_keeps ?_
      with_reducible refine State.setPort_keeps ?_
      refine Keeps.ite ?_ ?_
      · exact State.takeTrailer_keeps h
      · exact h

theorem State.countError_keeps (h : Keeps b s0 s) {a1 a2 a3} : Keeps b s0 (State.countError s a1 a2 a3) := by
  unfold State.countError
  extract_lets s1 s2
  have hs1 : Keeps b s0 s1 := by
    exact State.countPort_keeps h
  clear_value s1
  have hs2 : Keeps b s0 s2 := by
    refine Keeps.ite ?_ ?_
    · exact State.countPort_keeps hs1
    · exact hs1
  clear_value s2
  refine Keeps.ite ?_ ?_
  · exact State.countPort_keeps hs2
  · exact hs2

theorem State.emitNode_keeps (h : Keeps b s0 s) {a1 a2} : Keeps b s0 (State.emitNode s a1 a2) := by
  unfold State.emitNode
  refine Keeps.foldl ?_ ?_
  · exact h
  · intro s1 x2 k3
    exact State.emit_keeps k3

theorem State.noteAck_keeps (h : Keeps b s0 s) {a1 a2} : Keeps b s0 (State.noteAck s a1 a2) := by
  unfold State.noteAck
  extract_lets s1
  have hs1 : Keeps b s0 s1 := by
    refine Keeps.ite ?_ ?_
    · exact State.ackErr_keeps h
    · exact h
  clear_value s1
  refine Keeps.ite ?_ ?_
  · exact State.ackReset_keeps hs1
  · exact hs1

theorem State.refError_keeps (h : Keeps b s0 s) {a1} : Keeps b s0 (State.refError s a1) := by
  unfold State.refError
  extract_lets g1 g2
  exact State.setGroup_keeps h

theorem State.enterBusoff_keeps (h : Keeps b s0 s) {a1} : Keeps b s0 (State.enterBusoff s a1) := by
  unfold State.enterBusoff
  extract_lets x1 deciding2 auto3 kept4 fl5 s6 s7 s8 s9
  have hs6 : Keeps b s0 s6 := by
    exact State.countPort_keeps h
  clear_value s6
  have hs7 : Keeps b s0 s7 := by
    exact State.showPort_keeps hs6
  clear_value s7
  have hs8 : Keeps b s0 s8 := by
    refine Keeps.ite ?_ ?_
    · exact State.setPort_keeps hs7
    · exact hs7
  clear_value s8
  have hs9 : Keeps b s0 s9 := by
    exact State.record_keeps hs8
  clear_value s9
  exact State.portEvt_keeps hs9

theorem State.errorOp_keeps (h : Keeps b s0 s) {a1 a2} : Keeps b s0 (State.errorOp s a1 a2) := by
  unfold State.errorOp
  extract_lets x1 e2 isErr3 silent4 pass5 listen6 s7 s8 s9 x10
  have hs7 : Keeps b s0 s7 := by
    refine Keeps.ite ?_ ?_
    · exact State.countPort_keeps h
    · exact h
  clear_value s7
  have hs8 : Keeps b s0 s8 := by
    refine Keeps.ite ?_ ?_
    · exact State.countError_keeps hs7
    · exact hs7
  clear_value s8
  have hs9 : Keeps b s0 s9 := by
    refine Keeps.ite ?_ ?_
    · exact hs8
    · exact State.emitNode_keeps hs8
  clear_value s9
  refine Keeps.ite ?_ ?_
  · with_reducible refine State.countPort_keeps ?_
    with_reducible refine State.portEvt_keeps ?_
    exact State.setPort_keeps h
  · refine Keeps.ite ?_ ?_
    · exact h
    · dsimp only
      refine Keeps.ite ?_ ?_
      · with_reducible refine State.endAttempt_keeps ?_
        with_reducible refine State.enterBusoff_keeps ?_
        split
        · rename_i x11 k12 heq13
          refine Keeps.ite ?_ ?_
          · refine Keeps.ite ?_ ?_
            · with_reducible refine State.noteAck_keeps ?_
              exact State.setPort_keeps hs9
            · exact State.setPort_keeps hs9
          · with_reducible refine State.refError_keeps ?_
            refine Keeps.ite ?_ ?_
            · with_reducible refine State.noteAck_keeps ?_
              exact State.setPort_keeps hs9
            · exact State.setPort_keeps hs9
        · rename_i x14 heq15
          refine Keeps.ite ?_ ?_
          · with_reducible refine State.noteAck_keeps ?_
            exact State.setPort_keeps hs9
          · exact State.setPort_keeps hs9
      · split
        · rename_i x16 k17 heq18
          refine Keeps.ite ?_ ?_
          · refine Keeps.ite ?_ ?_
            · with_reducible refine State.noteAck_keeps ?_
              exact State.setPort_keeps hs9
            · exact State.setPort_keeps hs9
          · with_reducible refine State.refError_keeps ?_
            refine Keeps.ite ?_ ?_
            · with_reducible refine State.noteAck_keeps ?_
              exact State.setPort_keeps hs9
            · exact State.setPort_keeps hs9
        · rename_i x19 heq20
          refine Keeps.ite ?_ ?_
          · with_reducible refine State.noteAck_keeps ?_
            exact State.setPort_keeps hs9
          · exact State.setPort_keeps hs9

theorem State.attemptOp_keeps (h : Keeps b s0 s) {a1 a2 a3} : Keeps b s0 (State.attemptOp s a1 a2 a3) := by
  unfold State.attemptOp
  dsimp only
  split
  · rename_i x1 heq2
    exact h
  · rename_i x3 x4 heq5
    refine Keeps.ite ?_ ?_
    · with_reducible refine State.endAttempt_keeps ?_
      with_reducible refine State.errorOp_keeps ?_
      refine Keeps.ite ?_ ?_
      · with_reducible refine State.portEvt_keeps ?_
        exact State.noteLoop_keeps h
      · exact State.noteLoop_keeps h
    · with_reducible refine State.endAttempt_keeps ?_
      refine Keeps.ite ?_ ?_
      · with_reducible refine State.portEvt_keeps ?_
        exact State.noteLoop_keeps h
      · exact State.noteLoop_keeps h

theorem State.attestRecord_keeps (h : Keeps b s0 s) {a1 a2 a3} : Keeps b s0 (State.attestRecord s a1 a2 a3) := by
  unfold State.attestRecord
  exact State.record_keeps h

theorem State.attestOp_keeps (h : Keeps b s0 s) {a1 a2 a3} : Keeps b s0 (State.attestOp s a1 a2 a3) := by
  unfold State.attestOp
  extract_lets len1 scope2 r3 s4
  have hs4 : Keeps b s0 s4 := by
    exact State.attestRecord_keeps h
  clear_value s4
  refine Keeps.ite ?_ ?_
  · exact State.complete_keeps h
  · refine Keeps.ite ?_ ?_
    · exact State.complete_keeps h
    · with_reducible refine State.complete_keeps ?_
      exact State.hostWrite_keeps hs4

theorem State.unjoinPair_keeps (h : Keeps b s0 s) {a1} : Keeps b s0 (State.unjoinPair s a1) := by
  unfold State.unjoinPair
  dsimp only
  split
  · rename_i x1 heq2
    exact h
  · rename_i x3 k4 heq5
    refine Keeps.ite ?_ ?_
    · with_reducible refine State.grpEvt_keeps ?_
      exact State.setGroup_keeps h
    · exact State.setGroup_keeps h

theorem State.withdrawPair_keeps (h : Keeps b s0 s) {a1} : Keeps b s0 (State.withdrawPair s a1) := by
  unfold State.withdrawPair
  extract_lets s1 x2 s3
  have hs1 : Keeps b s0 s1 := by
    refine Keeps.ite ?_ ?_
    · exact State.unjoinPair_keeps h
    · exact h
  clear_value s1
  have hs3 : Keeps b s0 s3 := by
    exact Keeps.same hs1 ⟨rfl, rfl⟩ rfl rfl rfl rfl rfl rfl rfl rfl rfl rfl
  clear_value s3
  refine Keeps.ite ?_ ?_
  · exact State.portEvt_keeps hs3
  · exact hs3

theorem State.withdrawPairs_keeps (h : Keeps b s0 s) {a1} : Keeps b s0 (State.withdrawPairs s a1) := by
  unfold State.withdrawPairs
  refine Keeps.foldl ?_ ?_
  · exact h
  · intro s1 x2 k3
    exact State.withdrawPair_keeps k3

theorem State.stopGroup_keeps (h : Keeps b s0 s) {a1 a2} : Keeps b s0 (State.stopGroup s a1 a2) := by
  unfold State.stopGroup
  extract_lets s1 s2 s3 g4
  have hs1 : Keeps b s0 s1 := by
    exact State.clearGroupHold_keeps h
  clear_value s1
  have hs2 : Keeps b s0 s2 := by
    exact State.withdrawPairs_keeps hs1
  clear_value s2
  have hs3 : Keeps b s0 s3 := by
    exact State.toStopped_keeps hs2
  clear_value s3
  exact State.groupGoes_keeps hs3

theorem State.branchOut_keeps (h : Keeps b s0 s) {a1 a2} : Keeps b s0 (State.branchOut s a1 a2) := by
  unfold State.branchOut
  extract_lets b1 g2 i3 s4 x5 s6
  have hs4 : Keeps b s0 s4 := by
    exact State.withdrawPair_keeps h
  clear_value s4
  have hs6 : Keeps b s0 s6 := by
    exact State.setGroup_keeps hs4
  clear_value s6
  with_reducible refine State.syncMembers_keeps ?_
  exact State.grpEvt_keeps hs6

theorem State.bankLost_keeps (h : Keeps b s0 s) {a1} : Keeps b s0 (State.bankLost s a1) := by
  unfold State.bankLost
  dsimp only
  split
  · rename_i x1 k2 heq3
    refine Keeps.ite ?_ ?_
    · refine Keeps.foldl ?_ ?_
      · exact State.stopGroup_keeps h
      · intro s4 x5 k6
        exact State.portEvt_keeps k6
    · refine Keeps.ite ?_ ?_
      · exact h
      · with_reducible refine State.portEvt_keeps ?_
        exact State.branchOut_keeps h
  · rename_i x7 heq8
    refine Keeps.ite ?_ ?_
    · exact h
    · with_reducible refine State.portEvt_keeps ?_
      exact State.toStopped_keeps h

theorem State.noteMay_keeps (h : Keeps b s0 s) : Keeps b s0 (State.noteMay s) := by
  unfold State.noteMay
  exact Keeps.same h ⟨rfl, rfl⟩ rfl rfl rfl rfl rfl rfl rfl rfl rfl rfl

theorem finish_keeps (h : Keeps b s0 s) : Result.All (Keeps b s0) (finish s) := by
  unfold finish
  refine Result.all_next ?_
  with_reducible refine State.announce_keeps ?_
  exact State.noteMay_keeps h

theorem State.crossDomain_keeps (h : Keeps b s0 s) {a1 a2 a3} : Keeps b s0 (State.crossDomain s a1 a2 a3) := by
  unfold State.crossDomain
  exact State.record_keeps h

theorem State.readIndex_keeps (h : Keeps b s0 s) {a1 a2 a3} : Keeps b s0 (State.readIndex s a1 a2 a3) := by
  unfold State.readIndex
  extract_lets i1 r2 cq3 diff4 s5
  have hs5 : Keeps b s0 s5 := by
    exact State.setRing_keeps h
  clear_value s5
  refine Keeps.ite ?_ ?_
  · with_reducible refine State.disableRing_keeps ?_
    exact State.ringFault_keeps h
  · refine Keeps.ite ?_ ?_
    · exact State.roomShown_keeps hs5
    · exact hs5

theorem execDevKick_keeps (h : Keeps b s0 s) {a1 a2 a3} : Result.All (Keeps b s0) (execDevKick a1 a2 a3 s) := by
  unfold execDevKick
  extract_lets r1 ns2
  refine Result.all_ite ?_ ?_
  · refine Result.all_next ?_
    exact h
  · refine Result.all_ite ?_ ?_
    · refine Result.all_ite ?_ ?_
      · exact trivial
      · with_reducible refine finish_keeps ?_
        refine Keeps.foldl ?_ ?_
        · exact h
        · intro s3 x4 k5
          refine Keeps.ite ?_ ?_
          · exact State.readIndex_keeps k5
          · exact k5
    · split
      · rename_i x6 heq7
        with_reducible refine finish_keeps ?_
        exact State.raise_keeps h
      · rename_i x8 n9 heq10
        refine Result.all_ite ?_ ?_
        · with_reducible refine finish_keeps ?_
          exact State.raise_keeps h
        · split
          · rename_i words11
            exact trivial
          · rename_i words12 w13 tail14
            with_reducible refine finish_keeps ?_
            exact State.readIndex_keeps h

theorem State.writeDbb_keeps (h : Keeps b s0 s) {a1 a2 a3} : Keeps b s0 (State.writeDbb s a1 a2 a3) := by
  unfold State.writeDbb
  extract_lets r1 was2 en3
  dsimp only
  refine Keeps.ite ?_ ?_
  · with_reducible refine State.refuse_keeps ?_
    refine Keeps.ite ?_ ?_
    · with_reducible refine State.raise_keeps ?_
      refine Keeps.ite ?_ ?_
      · exact State.setReg_keeps h
      · with_reducible refine State.setReg_keeps ?_
        exact State.setReg_keeps h
    · refine Keeps.ite ?_ ?_
      · exact State.setReg_keeps h
      · with_reducible refine State.setReg_keeps ?_
        exact State.setReg_keeps h
  · refine Keeps.ite ?_ ?_
    · with_reducible refine State.raise_keeps ?_
      refine Keeps.ite ?_ ?_
      · exact State.setReg_keeps h
      · with_reducible refine State.setReg_keeps ?_
        exact State.setReg_keeps h
    · refine Keeps.ite ?_ ?_
      · exact State.setReg_keeps h
      · with_reducible refine State.setReg_keeps ?_
        exact State.setReg_keeps h

theorem State.writeTsq_keeps (h : Keeps b s0 s) {a1 a2 a3} : Keeps b s0 (State.writeTsq s a1 a2 a3) := by
  unfold State.writeTsq
  extract_lets r1 was2 en3
  dsimp only
  refine Keeps.ite ?_ ?_
  · with_reducible refine State.refuse_keeps ?_
    refine Keeps.ite ?_ ?_
    · with_reducible refine State.doorbell_keeps ?_
      with_reducible refine State.setFunc_keeps ?_
      refine Keeps.ite ?_ ?_
      · with_reducible refine State.raise_keeps ?_
        refine Keeps.ite ?_ ?_
        · exact State.setReg_keeps h
        · with_reducible refine State.setReg_keeps ?_
          exact State.setReg_keeps h
      · refine Keeps.ite ?_ ?_
        · exact State.setReg_keeps h
        · with_reducible refine State.setReg_keeps ?_
          exact State.setReg_keeps h
    · refine Keeps.ite ?_ ?_
      · with_reducible refine State.raise_keeps ?_
        refine Keeps.ite ?_ ?_
        · exact State.setReg_keeps h
        · with_reducible refine State.setReg_keeps ?_
          exact State.setReg_keeps h
      · refine Keeps.ite ?_ ?_
        · exact State.setReg_keeps h
        · with_reducible refine State.setReg_keeps ?_
          exact State.setReg_keeps h
  · refine Keeps.ite ?_ ?_
    · with_reducible refine State.doorbell_keeps ?_
      with_reducible refine State.setFunc_keeps ?_
      refine Keeps.ite ?_ ?_
      · with_reducible refine State.raise_keeps ?_
        refine Keeps.ite ?_ ?_
        · exact State.setReg_keeps h
        · with_reducible refine State.setReg_keeps ?_
          exact State.setReg_keeps h
      · refine Keeps.ite ?_ ?_
        · exact State.setReg_keeps h
        · with_reducible refine State.setReg_keeps ?_
          exact State.setReg_keeps h
    · refine Keeps.ite ?_ ?_
      · with_reducible refine State.raise_keeps ?_
        refine Keeps.ite ?_ ?_
        · exact State.setReg_keeps h
        · with_reducible refine State.setReg_keeps ?_
          exact State.setReg_keeps h
      · refine Keeps.ite ?_ ?_
        · exact State.setReg_keeps h
        · with_reducible refine State.setReg_keeps ?_
          exact State.setReg_keeps h

theorem State.objLoadOp_keeps (h : Keeps b s0 s) {a1} : Keeps b s0 (State.objLoadOp s a1) := by
  unfold State.objLoadOp
  extract_lets x1 put2 s3 x4
  have hs3 : Keeps b s0 s3 := by
    unfold s3
    dsimp only [put2]
    with_reducible refine State.setReg_keeps ?_
    with_reducible refine State.setReg_keeps ?_
    with_reducible refine State.setReg_keeps ?_
    with_reducible refine State.setReg_keeps ?_
    with_reducible refine State.setReg_keeps ?_
    exact State.setReg_keeps h
  clear_value s3
  exact State.setFunc_keeps hs3

theorem State.writeSendHeader_keeps (h : Keeps b s0 s) {a1 a2} : Keeps b s0 (State.writeSendHeader s a1 a2) := by
  unfold State.writeSendHeader
  extract_lets x1 q2 s3
  have hs3 : Keeps b s0 s3 := by
    exact State.setObj_keeps h
  clear_value s3
  exact State.tarnWrite_keeps hs3

theorem State.objCommitOp_keeps (h : Keeps b s0 s) {a1} : Keeps b s0 (State.objCommitOp s a1) := by
  unfold State.objCommitOp
  extract_lets o1 c2 code3 x4 s5 x6 fresh7 y8 y9 s10
  have hs5 : Keeps b s0 s5 := by
    exact State.setFunc_keeps h
  clear_value s5
  have hs10 : Keeps b s0 s10 := by
    exact State.setObj_keeps hs5
  clear_value s10
  refine Keeps.ite ?_ ?_
  · exact hs5
  · refine Keeps.ite ?_ ?_
    · exact hs10
    · refine Keeps.ite ?_ ?_
      · exact State.writeSendHeader_keeps hs10
      · refine Keeps.ite ?_ ?_
        · with_reducible refine State.tarnWrite_keeps ?_
          exact State.tarnWrite_keeps hs10
        · exact hs10

theorem State.writeObjCmd_keeps (h : Keeps b s0 s) {a1 a2} : Keeps b s0 (State.writeObjCmd s a1 a2) := by
  unfold State.writeObjCmd
  extract_lets c1 s2 x3
  have hs2 : Keeps b s0 s2 := by
    refine Keeps.ite ?_ ?_
    · exact State.objLoadOp_keeps h
    · exact State.objCommitOp_keeps h
  clear_value s2
  refine Keeps.ite ?_ ?_
  · exact h
  · refine Keeps.ite ?_ ?_
    · exact State.refuseWrite_keeps h
    · exact State.setFunc_keeps hs2

theorem State.fltReadOp_keeps (h : Keeps b s0 s) {a1} : Keeps b s0 (State.fltReadOp s a1) := by
  unfold State.fltReadOp
  extract_lets i1 ent2 x3 e4 s5 x6
  have hs5 : Keeps b s0 s5 := by
    refine Keeps.foldl ?_ ?_
    · exact h
    · intro s7 x8 k9
      exact State.setReg_keeps k9
  clear_value s5
  refine Keeps.ite ?_ ?_
  · exact State.setFunc_keeps h
  · exact State.setFunc_keeps hs5

theorem State.fltWriteOp_keeps (h : Keeps b s0 s) {a1} : Keeps b s0 (State.fltWriteOp s a1) := by
  unfold State.fltWriteOp
  extract_lets i1 e2 code3 x4 s5
  have hs5 : Keeps b s0 s5 := by
    exact State.setFunc_keeps h
  clear_value s5
  refine Keeps.ite ?_ ?_
  · exact Keeps.tables hs5 ⟨rfl, rfl⟩ (fun k => ⟨k.regs, k.tarn, k.rings, k.objs, by with_reducible exact Tbl.wf_put _ _ _ k.flt, k.routes, k.counts, k.halves, k.keys⟩) (fun _ => rfl)
  · exact hs5

theorem State.writeFltCmd_keeps (h : Keeps b s0 s) {a1 a2} : Keeps b s0 (State.writeFltCmd s a1 a2) := by
  unfold State.writeFltCmd
  extract_lets c1 s2 x3
  have hs2 : Keeps b s0 s2 := by
    refine Keeps.ite ?_ ?_
    · exact State.fltReadOp_keeps h
    · exact State.fltWriteOp_keeps h
  clear_value s2
  refine Keeps.ite ?_ ?_
  · exact h
  · refine Keeps.ite ?_ ?_
    · exact State.refuseWrite_keeps h
    · exact State.setFunc_keeps hs2

theorem State.gwReadOp_keeps (h : Keeps b s0 s) {a1} : Keeps b s0 (State.gwReadOp s a1) := by
  unfold State.gwReadOp
  extract_lets f1 s2
  have hs2 : Keeps b s0 s2 := by
    exact State.setFunc_keeps h
  clear_value s2
  dsimp only
  split
  · rename_i x3 heq4
    exact State.setFunc_keeps h
  · rename_i x5 old6 heq7
    refine Keeps.ite ?_ ?_
    · refine Keeps.foldl ?_ ?_
      · exact hs2
      · intro s8 x9 k10
        exact State.setReg_keeps k10
    · exact State.setFunc_keeps h

theorem State.writeGwCmd_keeps (h : Keeps b s0 s) {a1 a2} : Keeps b s0 (State.writeGwCmd s a1 a2) := by
  unfold State.writeGwCmd
  refine Keeps.ite ?_ ?_
  · exact h
  · refine Keeps.ite ?_ ?_
    · exact State.refuseWrite_keeps h
    · extract_lets x1
      with_reducible refine State.setFunc_keeps ?_
      exact State.gwReadOp_keeps h

theorem State.writeSeal_keeps (h : Keeps b s0 s) {a1 a2 a3} : Keeps b s0 (State.writeSeal s a1 a2 a3) := by
  unfold State.writeSeal
  extract_lets h1
  split
  · rename_i x2 heq3
    exact State.crossDomain_keeps h
  · rename_i x4 k5 heq6
    refine Keeps.ite ?_ ?_
    · exact State.crossDomain_keeps h
    · exact State.setKey_keeps h

theorem State.plainWrite_keeps (h : Keeps b s0 s) {a1 a2 a3 a4} : Result.All (Keeps b s0) (State.plainWrite s a1 a2 a3 a4) := by
  unfold State.plainWrite
  with_reducible refine finish_keeps ?_
  refine Keeps.ite ?_ ?_
  · exact State.refuse_keeps h
  · exact State.writeFields_keeps h

theorem State.fnWrite_keeps (h : Keeps b s0 s) {a1 a2 a3 a4 a5 a6} : Result.All (Keeps b s0) (State.fnWrite s a1 a2 a3 a4 a5 a6) := by
  unfold State.fnWrite
  split
  · rename_i q1
    with_reducible refine execDevKick_keeps ?_
    exact Keeps.same h ⟨rfl, rfl⟩ rfl rfl rfl rfl rfl rfl rfl rfl rfl rfl
  · rename_i q2
    with_reducible refine finish_keeps ?_
    exact State.writeDbb_keeps h
  · rename_i q3
    with_reducible refine finish_keeps ?_
    exact State.writeTsq_keeps h
  · rename_i q4
    with_reducible refine finish_keeps ?_
    exact State.writeObjCmd_keeps h
  · rename_i q5
    with_reducible refine finish_keeps ?_
    exact State.writeFltCmd_keeps h
  · rename_i q6
    with_reducible refine finish_keeps ?_
    exact State.writeGwCmd_keeps h
  · rename_i q7
    with_reducible refine finish_keeps ?_
    exact State.writeSeal_keeps h
  · rename_i q8
    with_reducible refine finish_keeps ?_
    exact State.writeSeal_keeps h
  · rename_i q9
    with_reducible refine finish_keeps ?_
    exact State.writeSeal_keeps h
  · rename_i q10
    with_reducible refine finish_keeps ?_
    exact State.writeSeal_keeps h
  · rename_i q11 x12 x13 x14 x15 x16 x17 x18 x19 x20 x21
    exact State.plainWrite_keeps h

theorem State.modeGoes_keeps (h : Keeps b s0 s) {a1} : Keeps b s0 (State.modeGoes s a1) := by
  unfold State.modeGoes
  extract_lets old1 s2
  have hs2 : Keeps b s0 s2 := by
    exact State.setCairn_keeps h
  clear_value s2
  refine Keeps.ite ?_ ?_
  · exact hs2
  · exact State.record_keeps hs2

theorem State.raiseTo_keeps (h : Keeps b s0 s) {a1} : Keeps b s0 (State.raiseTo s a1) := by
  unfold State.raiseTo
  extract_lets x1
  exact State.modeGoes_keeps h

theorem State.modeActs_keeps (h : Keeps b s0 s) {a1 a2} : Keeps b s0 (State.modeActs s a1 a2) := by
  unfold State.modeActs
  extract_lets c1 vid2
  split
  · rename_i x3 x4 heq5 heq6
    refine Keeps.ite ?_ ?_
    · exact State.raiseTo_keeps h
    · exact State.modeGoes_keeps h
  · rename_i x7 x8 heq9 heq10
    exact State.modeGoes_keeps h
  · rename_i x11 x12 heq13 heq14
    refine Keeps.ite ?_ ?_
    · exact State.raiseTo_keeps h
    · exact h
  · rename_i x15 x16 heq17
    exact h
  · rename_i x18 x19 heq20 x21
    exact State.modeGoes_keeps h

theorem State.writeMode_keeps (h : Keeps b s0 s) {a1 a2} : Keeps b s0 (State.writeMode s a1 a2).2 := by
  unfold State.writeMode
  dsimp only
  split
  · split
    · exact h
    · exact State.record_keeps (State.setCairn_keeps h)
  · exact State.modeActs_keeps (State.setReg_keeps h)

theorem State.seEvt_keeps (h : Keeps b s0 s) {a1} : Keeps b s0 (State.seEvt s a1) := by
  unfold State.seEvt
  exact State.raise_keeps h

theorem State.endSwap_keeps (h : Keeps b s0 s) {a1} : Keeps b s0 (State.endSwap s a1) := by
  unfold State.endSwap
  with_reducible refine State.seEvt_keeps ?_
  extract_lets x1
  exact Keeps.same h ⟨rfl, rfl⟩ rfl rfl rfl rfl rfl rfl rfl rfl rfl rfl

theorem State.startLoad_keeps (h : Keeps b s0 s) {a1 a2 a3} : Keeps b s0 (State.startLoad s a1 a2 a3) := by
  unfold State.startLoad
  extract_lets x1
  exact State.setEngine_keeps h

theorem State.choose_keeps (h : Keeps b s0 s) {a1 a2 a3 a4 a5} : Keeps b s0 (State.choose s a1 a2 a3 a4 a5) := by
  unfold State.choose
  refine Keeps.ite ?_ ?_
  · extract_lets x1
    exact State.setEngine_keeps h
  · exact State.startLoad_keeps h

theorem State.swapChoose_keeps (h : Keeps b s0 s) {a1 a2} : Keeps b s0 (State.swapChoose s a1 a2) := by
  unfold State.swapChoose
  dsimp only
  split
  · rename_i x1 heq2
    exact State.endSwap_keeps h
  · rename_i x3 e4 holds5 heq6
    refine Keeps.same (State.choose_keeps ?_) ⟨rfl, rfl⟩ rfl rfl rfl rfl rfl rfl rfl rfl rfl rfl
    exact h

theorem State.writeSwap_keeps (h : Keeps b s0 s) {a1 a2} : Keeps b s0 (State.writeSwap s a1 a2) := by
  unfold State.writeSwap
  dsimp only
  refine Keeps.ite ?_ ?_
  · refine Keeps.ite ?_ ?_
    · with_reducible refine State.refuse_keeps ?_
      exact State.setReg_keeps h
    · exact State.setReg_keeps h
  · refine Keeps.ite ?_ ?_
    · with_reducible refine State.endSwap_keeps ?_
      refine Keeps.ite ?_ ?_
      · with_reducible refine State.refuse_keeps ?_
        exact State.setReg_keeps h
      · exact State.setReg_keeps h
    · with_reducible refine State.swapChoose_keeps ?_
      refine Keeps.ite ?_ ?_
      · with_reducible refine State.refuse_keeps ?_
        exact State.setReg_keeps h
      · exact State.setReg_keeps h

theorem State.cmdBusy_keeps (h : Keeps b s0 s) {a1} : Keeps b s0 (State.cmdBusy s a1) := by
  unfold State.cmdBusy
  extract_lets x1
  exact Keeps.same h ⟨rfl, rfl⟩ rfl rfl rfl rfl rfl rfl rfl rfl rfl rfl

theorem State.endCmd_keeps (h : Keeps b s0 s) {a1} : Keeps b s0 (State.endCmd s a1) := by
  unfold State.endCmd
  with_reducible refine State.seEvt_keeps ?_
  extract_lets x1
  exact Keeps.same h ⟨rfl, rfl⟩ rfl rfl rfl rfl rfl rfl rfl rfl rfl rfl

theorem State.engineCmd_keeps (h : Keeps b s0 s) {a1 a2} : Keeps b s0 (State.engineCmd s a1 a2) := by
  unfold State.engineCmd
  extract_lets x1
  refine Keeps.ite ?_ ?_
  · with_reducible refine State.cmdBusy_keeps ?_
    exact State.setEngine_keeps h
  · refine Keeps.ite ?_ ?_
    · with_reducible refine State.cmdBusy_keeps ?_
      exact State.startLoad_keeps h
    · exact State.endCmd_keeps h

theorem State.haltDone_keeps (h : Keeps b s0 s) : Keeps b s0 (State.haltDone s) := by
  unfold State.haltDone
  split
  · rename_i x1 u2 heq3
    refine Keeps.ite ?_ ?_
    · exact State.endCmd_keeps h
    · exact h
  · rename_i x4 heq5
    exact h

theorem State.coreCmd_keeps (h : Keeps b s0 s) {a1 a2} : Keeps b s0 (State.coreCmd s a1 a2) := by
  unfold State.coreCmd
  extract_lets x1
  refine Keeps.ite ?_ ?_
  · with_reducible refine State.cmdBusy_keeps ?_
    exact State.setCore_keeps h
  · refine Keeps.ite ?_ ?_
    · with_reducible refine State.haltDone_keeps ?_
      with_reducible refine State.moveDuties_keeps ?_
      with_reducible refine State.cmdBusy_keeps ?_
      exact State.setCore_keeps h
    · exact State.endCmd_keeps h

theorem State.writeSecmd_keeps (h : Keeps b s0 s) {a1 a2} : Keeps b s0 (State.writeSecmd s a1 a2) := by
  unfold State.writeSecmd
  extract_lets cmd1 busy2 s3 u4
  have hs3 : Keeps b s0 s3 := by
    exact State.writeFields_keeps h
  clear_value s3
  refine Keeps.ite ?_ ?_
  · exact State.refuse_keeps h
  · refine Keeps.ite ?_ ?_
    · exact hs3
    · split
      · rename_i x5 x6 e7 heq8
        exact State.engineCmd_keeps hs3
      · rename_i x9 x10 c11 heq12 heq13
        exact State.coreCmd_keeps hs3
      · rename_i x14 x15 heq16 heq17
        exact State.endCmd_keeps hs3

theorem State.gwObject_keeps (h : Keeps b s0 s) {a1 a2 a3} : Keeps b s0 (State.gwObject s a1 a2 a3) := by
  unfold State.gwObject
  refine Keeps.foldl ?_ ?_
  · exact h
  · intro s1 x2 k3
    exact State.gwEnqueue_keeps k3

theorem State.writeMain_keeps (h : Keeps b s0 s) {a1 a2 a3 a4 a5 a6 a7} : Keeps b s0 (State.writeMain s a1 a2 a3 a4 a5 a6 a7) := by
  unfold State.writeMain
  extract_lets x1 q2 s3 s4
  have hs3 : Keeps b s0 s3 := by
    exact State.setObj_keeps h
  clear_value s3
  have hs4 : Keeps b s0 s4 := by
    exact State.tarnWrite_keeps hs3
  clear_value s4
  exact State.gwObject_keeps hs4

theorem State.promoteShadow_keeps (h : Keeps b s0 s) {a1 a2} : Keeps b s0 (State.promoteShadow s a1 a2) := by
  unfold State.promoteShadow
  extract_lets x1 bs2 s3
  have hs3 : Keeps b s0 s3 := by
    exact State.setObj_keeps h
  clear_value s3
  split
  · rename_i x4 heq5
    exact h
  · rename_i x6 st7 p8 heq9
    exact State.writeMain_keeps hs3

theorem State.endReads_keeps (h : Keeps b s0 s) {a1} : Keeps b s0 (State.endReads s a1) := by
  unfold State.endReads
  extract_lets keys1
  refine Keeps.foldl ?_ ?_
  · exact h
  · intro s2 x3 k4
    extract_lets s5 x6
    have hs5 : Keeps b s0 s5 := by
      exact State.promoteShadow_keeps k4
    clear_value s5
    exact State.setObj_keeps hs5

theorem State.warmObjs_keeps (h : Keeps b s0 s) : Keeps b s0 (State.warmObjs s) := by
  unfold State.warmObjs
  extract_lets s1
  have h1 : Keeps b s0 s1 := Keeps.foldl h (fun _ _ k => State.endReads_keeps k)
  clear_value s1
  refine Keeps.tables h1 ⟨rfl, rfl⟩ (fun k => ⟨k.regs, k.tarn, k.rings, ?_, k.flt, k.routes, k.counts, k.halves, k.keys⟩) (fun _ => rfl)
  with_reducible exact Tbl.wf_mapVal _ _ k.objs

theorem State.warm_keeps (h : Keeps b s0 s) {a1} : Keeps b s0 (State.warm s a1) := by
  unfold State.warm
  extract_lets c o
  have ho : TablesOk s → TablesOk o := (State.warmObjs_keeps (b := false) (Keeps.refl s)).2.1
  clear_value o
  refine Keeps.tables h ⟨by with_reducible rfl, by with_reducible rfl⟩ (fun k => ?_) (fun _ => by with_reducible rfl)
  have k2 := ho k
  constructor
  · exact RegFile.wf_foldl _ rfl
  · with_reducible exact k2.tarn
  · exact rfl
  · with_reducible exact k2.objs
  · with_reducible exact k.flt
  · with_reducible exact Tbl.wf_mapVal _ _ k.routes
  · exact rfl
  · exact rfl
  · exact rfl

theorem State.warmTrigger_keeps (h : Keeps b s0 s) {a1} : Keeps b s0 (State.warmTrigger s a1) := by
  unfold State.warmTrigger
  refine Keeps.ite ?_ ?_
  · extract_lets x1
    exact Keeps.same h ⟨rfl, rfl⟩ rfl rfl rfl rfl rfl rfl rfl rfl rfl rfl
  · exact State.warm_keeps h

theorem execWarmReset_keeps (h : Keeps b s0 s) {a1} : Result.All (Keeps b s0) (execWarmReset a1 s) := by
  unfold execWarmReset
  split
  · rename_i c1 d2 v3
    refine Result.all_ite ?_ ?_
    · refine Result.all_next ?_
      exact h
    · refine Result.all_ite ?_ ?_
      · with_reducible refine finish_keeps ?_
        exact State.crossDomain_keeps h
      · refine Result.all_ite ?_ ?_
        · refine Result.all_next ?_
          exact State.warmTrigger_keeps h
        · refine Result.all_next ?_
          exact h
  · rename_i c4
    refine Result.all_ite ?_ ?_
    · refine Result.all_next ?_
      exact State.warmTrigger_keeps h
    · refine Result.all_next ?_
      exact h
  · rename_i c5
    refine Result.all_next ?_
    exact State.warmTrigger_keeps h
  · rename_i c6
    refine Result.all_ite ?_ ?_
    · refine Result.all_next ?_
      exact State.warmTrigger_keeps h
    · refine Result.all_next ?_
      exact h

theorem State.devWrite_keeps (h : Keeps b s0 s) {a1 a2 a3 a4 a5} : Result.All (Keeps b s0) (State.devWrite s a1 a2 a3 a4 a5) := by
  unfold State.devWrite
  split
  · rename_i q1
    with_reducible refine finish_keeps ?_
    exact State.writeMode_keeps h
  · rename_i q2
    with_reducible refine finish_keeps ?_
    exact State.writeSwap_keeps h
  · rename_i q3
    with_reducible refine finish_keeps ?_
    exact State.writeSecmd_keeps h
  · rename_i q4
    exact execWarmReset_keeps h
  · rename_i q5 x6 x7 x8 x9
    exact State.plainWrite_keeps h

theorem State.ownedWrite_keeps {f : State → State} (h : Keeps b s0 s) (hf : ∀ y, Keeps b s0 y → Keeps b s0 (f y)) {a1 a2 a3 a4} : Result.All (Keeps b s0) (State.ownedWrite s a1 a2 a3 a4 f) := by
  unfold State.ownedWrite
  refine Result.all_ite ?_ ?_
  · refine Result.all_next ?_
    exact h
  · refine Result.all_ite ?_ ?_
    · with_reducible refine finish_keeps ?_
      exact hf _ h
    · with_reducible refine finish_keeps ?_
      exact State.crossDomain_keeps h

theorem execTmuRateWrite_keeps (h : Keeps b s0 s) {a1 a2} : Result.All (Keeps b s0) (execTmuRateWrite a1 a2 s) := by
  unfold execTmuRateWrite
  with_reducible refine State.ownedWrite_keeps ?_ ?_
  · exact h
  · intro s1 k2
    refine Keeps.ite ?_ ?_
    · refine Keeps.ite ?_ ?_
      · exact k2
      · exact State.refuse_keeps k2
    · exact State.setRate_keeps k2

theorem State.writeStep_keeps (h : Keeps b s0 s) {a1 a2 a3} : Keeps b s0 (State.writeStep s a1 a2 a3) := by
  unfold State.writeStep
  refine Keeps.ite ?_ ?_
  · extract_lets x1 s2
    have hs2 : Keeps b s0 s2 := by
      refine Keeps.ite ?_ ?_
      · exact State.setTmu_keeps h
      · exact h
    clear_value s2
    exact State.refuse_keeps hs2
  · dsimp only
    split
    · rename_i w3
      exact State.setTmu_keeps h
    · rename_i w4
      with_reducible refine State.stepTime_keeps ?_
      exact State.setTmu_keeps h
    · rename_i w5
      with_reducible refine State.stepTime_keeps ?_
      exact State.setTmu_keeps h

theorem State.servoSwitch_keeps (h : Keeps b s0 s) {a1} : Keeps b s0 (State.servoSwitch s a1) := by
  unfold State.servoSwitch
  refine Keeps.ite ?_ ?_
  · extract_lets i1 x2
    with_reducible refine State.servoGoes_keeps ?_
    exact State.setTmu_keeps h
  · with_reducible refine State.servoGoes_keeps ?_
    extract_lets x3
    exact State.setTmu_keeps h

theorem State.firmwareTakes_keeps (h : Keeps b s0 s) : Keeps b s0 (State.firmwareTakes s) := by
  unfold State.firmwareTakes
  extract_lets s1
  have hs1 : Keeps b s0 s1 := by
    exact State.fabricTime_keeps h
  clear_value s1
  refine Keeps.ite ?_ ?_
  · exact hs1
  · with_reducible refine State.servoSwitch_keeps ?_
    exact State.setRf_keeps hs1

theorem State.writeServo_keeps (h : Keeps b s0 s) {a1 a2} : Keeps b s0 (State.writeServo s a1 a2) := by
  unfold State.writeServo
  extract_lets r1 was2 en3 fw4 bad5
  dsimp only
  refine Keeps.ite ?_ ?_
  · with_reducible refine State.refuse_keeps ?_
    refine Keeps.ite ?_ ?_
    · with_reducible refine State.firmwareTakes_keeps ?_
      refine Keeps.ite ?_ ?_
      · exact State.setReg_keeps h
      · with_reducible refine State.servoSwitch_keeps ?_
        with_reducible refine State.setReg_keeps ?_
        exact State.setReg_keeps h
    · refine Keeps.ite ?_ ?_
      · exact State.setReg_keeps h
      · with_reducible refine State.servoSwitch_keeps ?_
        with_reducible refine State.setReg_keeps ?_
        exact State.setReg_keeps h
  · refine Keeps.ite ?_ ?_
    · with_reducible refine State.firmwareTakes_keeps ?_
      refine Keeps.ite ?_ ?_
      · exact State.setReg_keeps h
      · with_reducible refine State.servoSwitch_keeps ?_
        with_reducible refine State.setReg_keeps ?_
        exact State.setReg_keeps h
    · refine Keeps.ite ?_ ?_
      · exact State.setReg_keeps h
      · with_reducible refine State.servoSwitch_keeps ?_
        with_reducible refine State.setReg_keeps ?_
        exact State.setReg_keeps h

theorem State.tmuWrite_keeps (h : Keeps b s0 s) {a1 a2 a3 a4 a5 a6} : Result.All (Keeps b s0) (State.tmuWrite s a1 a2 a3 a4 a5 a6) := by
  unfold State.tmuWrite
  split
  · rename_i q1
    exact execTmuRateWrite_keeps h
  · rename_i q2
    with_reducible refine finish_keeps ?_
    exact State.writeStep_keeps h
  · rename_i q3
    with_reducible refine finish_keeps ?_
    exact State.writeServo_keeps h
  · rename_i q4 x5 x6 x7
    exact State.plainWrite_keeps h

theorem State.writeGov_keeps (h : Keeps b s0 s) {a1 a2 a3} : Keeps b s0 (State.writeGov s a1 a2 a3) := by
  unfold State.writeGov
  extract_lets r1 same2
  refine Keeps.ite ?_ ?_
  · exact h
  · refine Keeps.ite ?_ ?_
    · exact State.refuse_keeps h
    · exact State.writeFields_keeps h

theorem State.setLog_keeps (h : Keeps b s0 s) {a1} : Keeps b s0 (State.setLog s a1) := by
  unfold State.setLog
  exact Keeps.same h ⟨rfl, rfl⟩ rfl rfl rfl rfl rfl rfl rfl rfl rfl rfl

theorem State.noteFull_keeps (h : Keeps b s0 s) : Keeps b s0 (State.noteFull s) := by
  unfold State.noteFull
  refine Keeps.ite ?_ ?_
  · with_reducible refine State.crnEvent_keeps ?_
    extract_lets x1
    exact State.setLog_keeps h
  · exact h

theorem State.putRec_keeps (h : Keeps b s0 s) {a1} : Keeps b s0 (State.putRec s a1) := by
  unfold State.putRec
  extract_lets l1 gone2 recs3 s4 s5
  have hs4 : Keeps b s0 s4 := by
    exact State.setLog_keeps h
  clear_value s4
  have hs5 : Keeps b s0 s5 := by
    refine Keeps.ite ?_ ?_
    · refine Keeps.ite ?_ ?_
      · exact State.crnEvent_keeps hs4
      · exact State.raise_keeps hs4
    · exact hs4
  clear_value s5
  exact State.noteFull_keeps hs5

theorem State.writeAnchor_keeps (h : Keeps b s0 s) : Keeps b s0 (State.writeAnchor s) := by
  unfold State.writeAnchor
  extract_lets t1 s2 x3
  have hs2 : Keeps b s0 s2 := by
    exact State.putRec_keeps h
  clear_value s2
  exact State.setLog_keeps hs2

theorem State.clearLog_keeps (h : Keeps b s0 s) : Keeps b s0 (State.clearLog s) := by
  unfold State.clearLog
  extract_lets n1 x2 s3 s4
  have hs3 : Keeps b s0 s3 := by
    exact State.setLog_keeps h
  clear_value s3
  have hs4 : Keeps b s0 s4 := by
    exact State.writeAnchor_keeps hs3
  clear_value s4
  exact State.putRec_keeps hs4

theorem State.writeLogCfg_keeps (h : Keeps b s0 s) {a1 a2} : Keeps b s0 (State.writeLogCfg s a1 a2) := by
  unfold State.writeLogCfg
  refine Keeps.ite ?_ ?_
  · exact State.refuse_keeps h
  · extract_lets s1
    have hs1 : Keeps b s0 s1 := by
      exact State.writeFields_keeps h
    clear_value s1
    refine Keeps.ite ?_ ?_
    · exact State.clearLog_keeps hs1
    · exact State.noteFull_keeps hs1

theorem State.crnWrite_keeps (h : Keeps b s0 s) {a1 a2 a3 a4 a5} : Result.All (Keeps b s0) (State.crnWrite s a1 a2 a3 a4 a5) := by
  unfold State.crnWrite
  split
  · rename_i q1
    with_reducible refine finish_keeps ?_
    exact State.writeGov_keeps h
  · rename_i q2
    with_reducible refine finish_keeps ?_
    exact State.writeGov_keeps h
  · rename_i q3
    with_reducible refine finish_keeps ?_
    exact State.writeLogCfg_keeps h
  · rename_i q4 x5 x6 x7
    exact State.plainWrite_keeps h

theorem State.ringRequest_keeps (h : Keeps b s0 s) {a1 a2 a3} : Result.All (Keeps b s0) (State.ringRequest s a1 a2 a3) := by
  unfold State.ringRequest
  refine Result.all_ite ?_ ?_
  · refine Result.all_next ?_
    exact h
  · refine Result.all_ite ?_ ?_
    · with_reducible refine finish_keeps ?_
      exact State.crossDomain_keeps h
    · refine Result.all_ite ?_ ?_
      · with_reducible refine finish_keeps ?_
        exact State.holdBack_keeps h
      · with_reducible refine finish_keeps ?_
        exact State.writeRingCfg_keeps h

theorem State.writeEvtin_keeps (h : Keeps b s0 s) {a1 a2 a3} : Keeps b s0 (State.writeEvtin s a1 a2 a3) := by
  unfold State.writeEvtin
  extract_lets r1 move2 bad3
  dsimp only
  refine Keeps.ite ?_ ?_
  · with_reducible refine State.refuse_keeps ?_
    refine Keeps.ite ?_ ?_
    · with_reducible refine State.setTmu_keeps ?_
      with_reducible refine State.setReg_keeps ?_
      exact State.setReg_keeps h
    · exact State.setReg_keeps h
  · refine Keeps.ite ?_ ?_
    · with_reducible refine State.setTmu_keeps ?_
      with_reducible refine State.setReg_keeps ?_
      exact State.setReg_keeps h
    · exact State.setReg_keeps h

theorem State.pulseOn_keeps (h : Keeps b s0 s) {a1} : Keeps b s0 (State.pulseOn s a1) := by
  unfold State.pulseOn
  extract_lets x1
  exact State.setPulse_keeps h

theorem State.writeOut_keeps (h : Keeps b s0 s) {a1 a2 a3} : Keeps b s0 (State.writeOut s a1 a2 a3) := by
  unfold State.writeOut
  extract_lets r1 was2 en3
  dsimp only
  refine Keeps.ite ?_ ?_
  · with_reducible refine State.refuse_keeps ?_
    refine Keeps.ite ?_ ?_
    · exact State.setReg_keeps h
    · refine Keeps.ite ?_ ?_
      · with_reducible refine State.pulseOn_keeps ?_
        with_reducible refine State.setReg_keeps ?_
        exact State.setReg_keeps h
      · with_reducible refine State.setPulse_keeps ?_
        with_reducible refine State.setReg_keeps ?_
        exact State.setReg_keeps h
  · refine Keeps.ite ?_ ?_
    · exact State.setReg_keeps h
    · refine Keeps.ite ?_ ?_
      · with_reducible refine State.pulseOn_keeps ?_
        with_reducible refine State.setReg_keeps ?_
        exact State.setReg_keeps h
      · with_reducible refine State.setPulse_keeps ?_
        with_reducible refine State.setReg_keeps ?_
        exact State.setReg_keeps h

theorem State.epRequest_keeps (h : Keeps b s0 s) {a1 a2 a3} : Result.All (Keeps b s0) (State.epRequest s a1 a2 a3) := by
  unfold State.epRequest
  with_reducible refine State.ownedWrite_keeps ?_ ?_
  · exact h
  · intro s1 k2
    refine Keeps.ite ?_ ?_
    · exact State.holdBack_keeps k2
    · exact State.writeEpCfg_keeps k2

theorem State.writePtpg_keeps (h : Keeps b s0 s) {a1 a2} : Keeps b s0 (State.writePtpg s a1 a2) := by
  unfold State.writePtpg
  extract_lets s1 w2
  have hs1 : Keeps b s0 s1 := by
    exact State.writeFields_keeps h
  clear_value s1
  refine Keeps.ite ?_ ?_
  · exact hs1
  · refine Keeps.ite ?_ ?_
    · exact Keeps.same hs1 ⟨rfl, rfl⟩ rfl rfl rfl rfl rfl rfl rfl rfl rfl rfl
    · exact Keeps.same hs1 ⟨rfl, rfl⟩ rfl rfl rfl rfl rfl rfl rfl rfl rfl rfl

theorem State.writeHalf_keeps (h : Keeps b s0 s) {a1 a2 a3} : Keeps b s0 (State.writeHalf s a1 a2 a3) := by
  unfold State.writeHalf
  exact Keeps.tables h ⟨rfl, rfl⟩ (fun k => ⟨k.regs, k.tarn, k.rings, k.objs, k.flt, k.routes, k.counts, by with_reducible exact Tbl.wf_drop _ _ k.halves, k.keys⟩) (fun _ => rfl)

theorem State.insertLinks_keeps (h : Keeps b s0 s) : Keeps b s0 (State.insertLinks s) := by
  unfold State.insertLinks
  refine Keeps.foldl ?_ ?_
  · exact h
  · intro s1 x2 k3
    extract_lets now4 was5 x6 s7 x8
    have hs7 : Keeps b s0 s7 := by
      exact Keeps.same k3 ⟨rfl, rfl⟩ rfl rfl rfl rfl rfl rfl rfl rfl rfl rfl
    clear_value s7
    refine Keeps.ite ?_ ?_
    · exact State.setLink_keeps hs7
    · refine Keeps.ite ?_ ?_
      · exact State.setLink_keeps hs7
      · exact hs7

theorem State.endWire_keeps (h : Keeps b s0 s) {a1 a2} : Keeps b s0 (State.endWire s a1 a2) := by
  unfold State.endWire
  dsimp only
  split
  · rename_i x1 fst2 e3 heq4
    refine Keeps.ite ?_ ?_
    · with_reducible refine State.countLink_keeps ?_
      exact State.setLink_keeps h
    · refine Keeps.ite ?_ ?_
      · exact State.setLink_keeps h
      · with_reducible refine State.countLink_keeps ?_
        exact State.setLink_keeps h
  · rename_i x5 heq6
    exact h

theorem State.dropLinkKey_keeps (h : Keeps b s0 s) {a1} : Keeps b s0 (State.dropLinkKey s a1) := by
  unfold State.dropLinkKey
  dsimp only
  split
  · rename_i x1 h2 heq3
    with_reducible refine State.setLink_keeps ?_
    exact State.setKey_keeps h
  · rename_i x4 heq5
    exact State.setLink_keeps h

theorem State.wrapOnto_keeps (h : Keeps b s0 s) {a1 a2 a3 a4} : Keeps b s0 (State.wrapOnto s a1 a2 a3 a4) := by
  unfold State.wrapOnto
  split
  · rename_i x1 o2 g3 heq4
    with_reducible refine State.pushLink_keeps ?_
    exact State.countLink_keeps h
  · rename_i x5 heq6
    with_reducible refine State.dropFrom_keeps ?_
    refine Keeps.ite ?_ ?_
    · exact State.countLink_keeps h
    · exact State.countLink_keeps h

theorem State.wrapQueue_keeps (h : Keeps b s0 s) {a1 a2} : Keeps b s0 (State.wrapQueue s a1 a2) := by
  unfold State.wrapQueue
  extract_lets q1 x2 s3
  have hs3 : Keeps b s0 s3 := by
    exact State.setLink_keeps h
  clear_value s3
  refine Keeps.foldl ?_ ?_
  · exact hs3
  · intro s4 x5 k6
    refine Keeps.ite ?_ ?_
    · exact State.wrapOnto_keeps k6
    · exact State.dropFrom_keeps k6

theorem State.sendTopo_keeps (h : Keeps b s0 s) : Keeps b s0 (State.sendTopo s) := by
  unfold State.sendTopo
  extract_lets x1 s2
  have hs2 : Keeps b s0 s2 := by
    exact Keeps.same h ⟨rfl, rfl⟩ rfl rfl rfl rfl rfl rfl rfl rfl rfl rfl
  clear_value s2
  with_reducible refine State.flood_keeps ?_
  exact State.remember_keeps hs2

theorem State.newTopo_keeps (h : Keeps b s0 s) : Keeps b s0 (State.newTopo s) := by
  unfold State.newTopo
  with_reducible refine State.sendTopo_keeps ?_
  extract_lets x1
  exact Keeps.same h ⟨rfl, rfl⟩ rfl rfl rfl rfl rfl rfl rfl rfl rfl rfl

theorem State.fabTopo_keeps (h : Keeps b s0 s) : Keeps b s0 (State.fabTopo s) := by
  unfold State.fabTopo
  refine Keeps.foldl ?_ ?_
  · exact State.fabEvt_keeps h
  · intro s1 x2 k3
    refine Keeps.ite ?_ ?_
    · exact State.raise_keeps k3
    · exact k3

theorem State.topologyChanged_keeps (h : Keeps b s0 s) : Keeps b s0 (State.topologyChanged s) := by
  unfold State.topologyChanged
  with_reducible refine State.fabricTime_keeps ?_
  with_reducible refine State.allocator_keeps ?_
  with_reducible refine State.addrConflict_keeps ?_
  exact State.fabTopo_keeps h

theorem State.linkDown_keeps (h : Keeps b s0 s) {a1 a2} : Keeps b s0 (State.linkDown s a1 a2) := by
  unfold State.linkDown
  extract_lets up1 s2 s3 l4 s5 s6 s7 s8
  have hs2 : Keeps b s0 s2 := by
    exact State.endWire_keeps h
  clear_value s2
  have hs3 : Keeps b s0 s3 := by
    exact State.dropLinkKey_keeps hs2
  clear_value s3
  have hs5 : Keeps b s0 s5 := by
    exact State.setLink_keeps hs3
  clear_value s5
  have hs6 : Keeps b s0 s6 := by
    refine Keeps.ite ?_ ?_
    · exact State.emit_keeps hs5
    · exact hs5
  clear_value s6
  have hs7 : Keeps b s0 s7 := by
    exact State.wrapQueue_keeps hs6
  clear_value s7
  have hs8 : Keeps b s0 s8 := by
    refine Keeps.ite ?_ ?_
    · with_reducible refine State.newTopo_keeps ?_
      exact State.topologyChanged_keeps hs7
    · exact State.newTopo_keeps hs7
  clear_value s8
  exact State.fabEvt_keeps hs8

theorem State.writeRlCfg_keeps (h : Keeps b s0 s) {a1 a2 a3} : Keeps b s0 (State.writeRlCfg s a1 a2 a3) := by
  unfold State.writeRlCfg
  extract_lets r1 was2 s3 x4
  have hs3 : Keeps b s0 s3 := by
    exact State.writeFields_keeps h
  clear_value s3
  refine Keeps.ite ?_ ?_
  · with_reducible refine State.insertLinks_keeps ?_
    with_reducible refine State.setLink_keeps ?_
    exact State.setRf_keeps hs3
  · refine Keeps.ite ?_ ?_
    · with_reducible refine State.insertLinks_keeps ?_
      with_reducible refine State.linkDown_keeps ?_
      exact State.setRf_keeps hs3
    · exact hs3

theorem State.writeFabCfg_keeps (h : Keeps b s0 s) {a1 a2} : Keeps b s0 (State.writeFabCfg s a1 a2) := by
  unfold State.writeFabCfg
  extract_lets r1 was2 en3 s4 s5 fixed6 fixed7 a8 new9 x10 s11 s12 s13
  have hs4 : Keeps b s0 s4 := by
    exact State.writeFields_keeps h
  clear_value s4
  have hs5 : Keeps b s0 s5 := by
    exact State.setRf_keeps hs4
  clear_value s5
  have hs11 : Keeps b s0 s11 := by
    exact Keeps.same hs5 ⟨rfl, rfl⟩ rfl rfl rfl rfl rfl rfl rfl rfl rfl rfl
  clear_value s11
  have hs12 : Keeps b s0 s12 := by
    refine Keeps.ite ?_ ?_
    · exact hs11
    · exact State.fabEvt_keeps hs11
  clear_value s12
  have hs13 : Keeps b s0 s13 := by
    with_reducible refine State.insertLinks_keeps ?_
    exact State.addrConflict_keeps hs12
  clear_value s13
  refine Keeps.ite ?_ ?_
  · with_reducible refine State.fabricTime_keeps ?_
    exact State.allocator_keeps hs13
  · exact hs13

theorem State.writeFabTime_keeps (h : Keeps b s0 s) {a1 a2} : Keeps b s0 (State.writeFabTime s a1 a2) := by
  unfold State.writeFabTime
  with_reducible refine State.fabricTime_keeps ?_
  exact State.writeFields_keeps h

theorem State.stormVector_keeps (h : Keeps b s0 s) {a1 a2 a3} : Keeps b s0 (State.stormVector s a1 a2 a3) := by
  unfold State.stormVector
  extract_lets n1 l2 x3 s4 x5
  have hs4 : Keeps b s0 s4 := by
    exact Keeps.same h ⟨rfl, rfl⟩ rfl rfl rfl rfl rfl rfl rfl rfl rfl rfl
  clear_value s4
  refine Keeps.ite ?_ ?_
  · exact h
  · refine Keeps.ite ?_ ?_
    · with_reducible refine State.record_keeps ?_
      exact Keeps.same hs4 ⟨rfl, rfl⟩ rfl rfl rfl rfl rfl rfl rfl rfl rfl rfl
    · exact hs4

theorem State.sendVector_keeps (h : Keeps b s0 s) {a1 a2 a3} : Keeps b s0 (State.sendVector s a1 a2 a3) := by
  unfold State.sendVector
  extract_lets c1 st2 x3 s4
  have hs4 : Keeps b s0 s4 := by
    exact Keeps.same h ⟨rfl, rfl⟩ rfl rfl rfl rfl rfl rfl rfl rfl rfl rfl
  clear_value s4
  with_reducible refine State.stormVector_keeps ?_
  exact State.emit_keeps hs4

theorem State.offerVector_keeps (h : Keeps b s0 s) {a1 a2 a3 a4} : Keeps b s0 (State.offerVector s a1 a2 a3 a4) := by
  unfold State.offerVector
  dsimp only
  split
  · rename_i b1 heq2
    exact h
  · rename_i b3 y4 heq5
    refine Keeps.ite ?_ ?_
    · exact State.sendVector_keeps h
    · exact Keeps.same h ⟨rfl, rfl⟩ rfl rfl rfl rfl rfl rfl rfl rfl rfl rfl

theorem State.vecEoi_keeps (h : Keeps b s0 s) {a1} : Keeps b s0 (State.vecEoi s a1) := by
  unfold State.vecEoi
  extract_lets o1 x2
  dsimp only
  split
  · rename_i x3 heq4
    exact State.record_keeps h
  · rename_i x5 head6 rest7 heq8
    refine Keeps.ite ?_ ?_
    · exact Keeps.same h ⟨rfl, rfl⟩ rfl rfl rfl rfl rfl rfl rfl rfl rfl rfl
    · refine Keeps.ite ?_ ?_
      · exact Keeps.same h ⟨rfl, rfl⟩ rfl rfl rfl rfl rfl rfl rfl rfl rfl rfl
      · with_reducible refine State.offerVector_keeps ?_
        exact Keeps.same h ⟨rfl, rfl⟩ rfl rfl rfl rfl rfl rfl rfl rfl rfl rfl

theorem State.eoiOp_keeps (h : Keeps b s0 s) {a1 a2 a3} : Keeps b s0 (State.eoiOp s a1 a2 a3) := by
  unfold State.eoiOp
  dsimp only
  split
  · rename_i x1 heq2
    exact State.record_keeps h
  · rename_i x3 src4 snd5 rest6 heq7
    refine Keeps.ite ?_ ?_
    · with_reducible refine State.readIndex_keeps ?_
      exact Keeps.same h ⟨rfl, rfl⟩ rfl rfl rfl rfl rfl rfl rfl rfl rfl rfl
    · exact Keeps.same h ⟨rfl, rfl⟩ rfl rfl rfl rfl rfl rfl rfl rfl rfl rfl

theorem execEvcEoi_keeps (h : Keeps b s0 s) {a1 a2 a3} : Result.All (Keeps b s0) (execEvcEoi a1 a2 a3 s) := by
  unfold execEvcEoi
  split
  · rename_i x1 t2
    with_reducible refine finish_keeps ?_
    exact State.vecEoi_keeps h
  · rename_i x3 t4 v5
    refine Result.all_ite ?_ ?_
    · refine Result.all_next ?_
      exact h
    · refine Result.all_ite ?_ ?_
      · with_reducible refine finish_keeps ?_
        exact State.crossDomain_keeps h
      · with_reducible refine finish_keeps ?_
        exact State.eoiOp_keeps h

theorem State.writeApply_keeps (h : Keeps b s0 s) {a1 a2} : Keeps b s0 (State.writeApply s a1 a2) := by
  unfold State.writeApply
  refine Keeps.ite ?_ ?_
  · exact h
  · refine Keeps.ite ?_ ?_
    · exact State.refuse_keeps h
    · extract_lets b1 r2 x3 s4
      have hs4 : Keeps b s0 s4 := by
        exact Keeps.same h ⟨rfl, rfl⟩ rfl rfl rfl rfl rfl rfl rfl rfl rfl rfl
      clear_value s4
      refine Keeps.ite ?_ ?_
      · exact State.applyRecord_keeps hs4
      · exact hs4

theorem State.regWrite_keeps (h : Keeps b s0 s) {a1 a2 a3 a4 a5 a6} : Result.All (Keeps b s0) (State.regWrite s a1 a2 a3 a4 a5 a6) := by
  unfold State.regWrite
  split
  · rename_i r1 e2 q3
    exact State.fnWrite_keeps h
  · rename_i r4 q5
    exact State.devWrite_keeps h
  · rename_i r6 q7
    exact State.tmuWrite_keeps h
  · rename_i r8 q9
    exact State.crnWrite_keeps h
  · rename_i r10 n11 q12
    refine Result.all_ite ?_ ?_
    · exact State.ringRequest_keeps h
    · exact State.plainWrite_keeps h
  · rename_i r13 p14 q15
    refine Result.all_ite ?_ ?_
    · with_reducible refine finish_keeps ?_
      exact State.portRequest_keeps h
    · refine Result.all_ite ?_ ?_
      · refine Result.all_next ?_
        exact h
      · refine Result.all_ite ?_ ?_
        · with_reducible refine finish_keeps ?_
          with_reducible refine State.fillSlots_keeps ?_
          exact State.writeFields_keeps h
        · exact State.plainWrite_keeps h
  · rename_i r16 k17 q18
    refine Result.all_ite ?_ ?_
    · with_reducible refine finish_keeps ?_
      exact State.groupRequest_keeps h
    · refine Result.all_ite ?_ ?_
      · with_reducible refine finish_keeps ?_
        exact State.membersRequest_keeps h
      · exact State.plainWrite_keeps h
  · rename_i r19 i20
    with_reducible refine finish_keeps ?_
    exact State.writeEvtin_keeps h
  · rename_i r21 i22 q23
    refine Result.all_ite ?_ ?_
    · with_reducible refine finish_keeps ?_
      exact State.writeOut_keeps h
    · exact State.plainWrite_keeps h
  · rename_i r24 k25 q26
    refine Result.all_ite ?_ ?_
    · exact State.epRequest_keeps h
    · exact State.plainWrite_keeps h
  · rename_i r27
    with_reducible refine finish_keeps ?_
    exact State.writePtpg_keeps h
  · rename_i r28 b29 i30
    with_reducible refine finish_keeps ?_
    exact State.writeHalf_keeps h
  · rename_i r31 k32 q33
    refine Result.all_ite ?_ ?_
    · with_reducible refine finish_keeps ?_
      exact State.writeRlCfg_keeps h
    · exact State.plainWrite_keeps h
  · rename_i r34 q35
    refine Result.all_ite ?_ ?_
    · with_reducible refine finish_keeps ?_
      exact State.writeFabCfg_keeps h
    · refine Result.all_ite ?_ ?_
      · with_reducible refine finish_keeps ?_
        exact State.writeFabTime_keeps h
      · exact State.plainWrite_keeps h
  · rename_i r36 d37 t38
    refine Result.all_ite ?_ ?_
    · exact State.plainWrite_keeps h
    · with_reducible refine finish_keeps ?_
      exact State.crossDomain_keeps h
  · rename_i r39 d40 t41
    refine Result.all_ite ?_ ?_
    · exact State.plainWrite_keeps h
    · with_reducible refine finish_keeps ?_
      exact State.crossDomain_keeps h
  · rename_i r42 d43 t44
    refine Result.all_ite ?_ ?_
    · exact State.plainWrite_keeps h
    · with_reducible refine finish_keeps ?_
      exact State.crossDomain_keeps h
  · rename_i r45 d46 kind47 i48
    exact State.plainWrite_keeps h
  · rename_i r49 d50 t51
    with_reducible refine execEvcEoi_keeps ?_
    exact State.draw_keeps h
  · rename_i r52
    with_reducible refine finish_keeps ?_
    exact State.writeApply_keeps h
  · rename_i r53
    exact State.plainWrite_keeps h
  · rename_i r54 i55
    exact State.plainWrite_keeps h
  · rename_i r56
    exact State.plainWrite_keeps h
  · rename_i r57 p58
    exact State.plainWrite_keeps h
  · rename_i r59 i60
    exact State.plainWrite_keeps h
  · rename_i r61 i62
    exact State.plainWrite_keeps h
  · rename_i r63 i64
    exact State.plainWrite_keeps h
  · rename_i r65 k66 n67
    exact State.plainWrite_keeps h
  · rename_i r68 k69 i70
    exact State.plainWrite_keeps h
  · rename_i r71
    exact State.plainWrite_keeps h
  · rename_i r72 b73 i74
    exact State.plainWrite_keeps h
  · rename_i r75 e76
    exact State.plainWrite_keeps h
  · rename_i r77 e78
    exact State.plainWrite_keeps h
  · rename_i r79 c80
    exact State.plainWrite_keeps h
  · rename_i r81 i82
    exact State.plainWrite_keeps h
  · rename_i r83 d84 s85
    exact State.plainWrite_keeps h
  · rename_i r86 c87
    exact State.plainWrite_keeps h

theorem State.bar0Write_keeps (h : Keeps b s0 s) {a1 a2 a3 a4} : Result.All (Keeps b s0) (State.bar0Write s a1 a2 a3 a4) := by
  unfold State.bar0Write
  extract_lets o1 x2
  refine Result.all_ite ?_ ?_
  · refine Result.all_next ?_
    exact h
  · refine Result.all_ite ?_ ?_
    · refine Result.all_ite ?_ ?_
      · refine Result.all_next ?_
        exact h
      · with_reducible refine finish_keeps ?_
        exact State.crossDomain_keeps h
    · split
      · rename_i x3 heq4
        refine Result.all_next ?_
        exact h
      · rename_i x5 r6 hi7 heq8
        refine Result.all_ite ?_ ?_
        · refine Result.all_next ?_
          exact h
        · refine Result.all_ite ?_ ?_
          · refine Result.all_next ?_
            exact h
          · refine Result.all_ite ?_ ?_
            · with_reducible refine finish_keeps ?_
              exact State.crossDomain_keeps h
            · refine Result.all_ite ?_ ?_
              · exact State.regWrite_keeps h
              · refine Result.all_ite ?_ ?_
                · exact State.regWrite_keeps h
                · exact State.regWrite_keeps h

theorem State.bar2Write_keeps (h : Keeps b s0 s) {a1 a2 a3 a4} : Keeps b s0 (State.bar2Write s a1 a2 a3 a4) := by
  unfold State.bar2Write
  extract_lets o bs own cells tt s1
  refine Keeps.ite (State.tarnWrite_keeps h) ?_
  have h1 : Keeps b s0 s1 := by
    refine Keeps.tables h ⟨rfl, rfl⟩ (fun k => ⟨k.regs, ?_, k.rings, k.objs, k.flt, k.routes, k.counts, k.halves, k.keys⟩) (fun _ => rfl)
    refine Tbl.wf_foldl _ ?_ k.tarn
    intro t e ht
    split
    · exact Tbl.wf_put _ _ _ ht
    · exact ht
  exact Keeps.ite h1 (State.crossDomain_keeps h1)

theorem State.vectorWord_keeps (h : Keeps b s0 s) {a1 a2 a3} : Keeps b s0 (State.vectorWord s a1 a2 a3) := by
  unfold State.vectorWord
  extract_lets t1 f2 sh3 m4
  refine Keeps.ite ?_ ?_
  · exact h
  · refine Keeps.ite ?_ ?_
    · exact State.setFunc_keeps h
    · exact State.setFunc_keeps h

theorem State.bar4Write_keeps (h : Keeps b s0 s) {a1 a2 a3 a4} : Keeps b s0 (State.bar4Write s a1 a2 a3 a4) := by
  unfold State.bar4Write
  extract_lets o1 s2 s3
  have hs2 : Keeps b s0 s2 := by
    exact State.vectorWord_keeps h
  clear_value s2
  have hs3 : Keeps b s0 s3 := by
    refine Keeps.ite ?_ ?_
    · exact State.vectorWord_keeps hs2
    · exact hs2
  clear_value s3
  exact State.flushVectors_keeps hs3

theorem State.beginActivation_keeps (h : Keeps b s0 s) {a1 a2 a3 a4 a5 a6} : Keeps b s0 (State.beginActivation s a1 a2 a3 a4 a5 a6) := by
  unfold State.beginActivation
  extract_lets b1 inPlace2 h3 r4 r5 s7 x8
  have hs7 : Keeps b s0 s7 := by
    refine Keeps.ite ?_ ?_
    · exact State.setComp_keeps h
    · exact h
  clear_value s7
  exact State.setCairn_keeps hs7

theorem State.beginTest_keeps (h : Keeps b s0 s) {a1} : Keeps b s0 (State.beginTest s a1) := by
  unfold State.beginTest
  extract_lets wait1 start2 e3 x4 s5
  have hs5 : Keeps b s0 s5 := by
    unfold s5
    dsimp only [wait1]
    exact State.setCairn_keeps h
  clear_value s5
  refine Keeps.ite ?_ ?_
  · refine Keeps.ite ?_ ?_
    · dsimp only [start2]
      exact State.setCairn_keeps h
    · dsimp only [wait1]
      exact State.setCairn_keeps h
  · refine Keeps.ite ?_ ?_
    · refine Keeps.ite ?_ ?_
      · refine Keeps.ite ?_ ?_
        · exact State.swapChoose_keeps hs5
        · exact hs5
      · dsimp only [start2]
        with_reducible refine State.setCairn_keeps ?_
        exact State.setEngine_keeps h
    · refine Keeps.ite ?_ ?_
      · dsimp only [start2]
        exact State.setCairn_keeps h
      · dsimp only [wait1]
        exact State.setCairn_keeps h

theorem State.bootCores_keeps (h : Keeps b s0 s) : Keeps b s0 (State.bootCores s) := by
  unfold State.bootCores
  extract_lets base1 x2
  refine Keeps.ite ?_ ?_
  · exact Keeps.same h ⟨rfl, rfl⟩ rfl rfl rfl rfl rfl rfl rfl rfl rfl rfl
  · exact Keeps.same h ⟨rfl, rfl⟩ rfl rfl rfl rfl rfl rfl rfl rfl rfl rfl

theorem State.bootEngines_keeps (h : Keeps b s0 s) : Keeps b s0 (State.bootEngines s) := by
  unfold State.bootEngines
  extract_lets base1 images2 x3
  exact Keeps.same h ⟨rfl, rfl⟩ rfl rfl rfl rfl rfl rfl rfl rfl rfl rfl

theorem State.setStage_keeps (h : Keeps b s0 s) {a1} : Keeps b s0 (State.setStage s a1) := by
  unfold State.setStage
  extract_lets x1
  exact Keeps.same h ⟨rfl, rfl⟩ rfl rfl rfl rfl rfl rfl rfl rfl rfl rfl

theorem State.bootVid_keeps (h : Keeps b s0 s) : Keeps b s0 (State.bootVid s) := by
  unfold State.bootVid
  extract_lets v1 s2 x3 s4 x5
  have hs2 : Keeps b s0 s2 := by
    exact State.setRf_keeps h
  clear_value s2
  have hs4 : Keeps b s0 s4 := by
    exact State.setCairn_keeps hs2
  clear_value s4
  refine Keeps.ite ?_ ?_
  · with_reducible refine State.setCairn_keeps ?_
    exact State.setRf_keeps hs4
  · exact hs4

theorem State.setAbsent_keeps (h : Keeps b s0 s) {a1} : Keeps b s0 (State.setAbsent s a1) := by
  unfold State.setAbsent
  extract_lets x1
  exact Keeps.same h ⟨rfl, rfl⟩ rfl rfl rfl rfl rfl rfl rfl rfl rfl rfl

theorem State.bootSlot_keeps (h : Keeps b s0 s) {a1} : Keeps b s0 (State.bootSlot s a1) := by
  unfold State.bootSlot
  extract_lets r1 s2 s3
  have hs2 : Keeps b s0 s2 := by
    exact State.setComp_keeps h
  clear_value s2
  have hs3 : Keeps b s0 s3 := by
    refine Keeps.ite ?_ ?_
    · with_reducible refine State.crnEvent_keeps ?_
      exact State.record_keeps hs2
    · exact hs2
  clear_value s3
  refine Keeps.ite ?_ ?_
  · exact State.setAbsent_keeps hs3
  · exact hs3

theorem State.readLayout_keeps (h : Keeps b s0 s) : Keeps b s0 (State.readLayout s) := by
  unfold State.readLayout
  extract_lets m1 x2
  exact State.setCairn_keeps h

theorem State.nowReady_keeps (h : Keeps b s0 s) : Keeps b s0 (State.nowReady s) := by
  unfold State.nowReady
  extract_lets x1 x2 x3
  have hx1 : Keeps b s0 x1 := by
    exact State.draw_keeps h
  clear_value x1
  exact Keeps.same hx1 ⟨rfl, rfl⟩ rfl rfl rfl rfl rfl rfl rfl rfl rfl rfl

theorem State.recoveryPath_keeps (h : Keeps b s0 s) : Keeps b s0 (State.recoveryPath s) := by
  unfold State.recoveryPath
  extract_lets x1 s2 x3
  have hs2 : Keeps b s0 s2 := by
    exact Keeps.same h ⟨rfl, rfl⟩ rfl rfl rfl rfl rfl rfl rfl rfl rfl rfl
  clear_value s2
  with_reducible refine State.nowReady_keeps ?_
  exact Keeps.same hs2 ⟨rfl, rfl⟩ rfl rfl rfl rfl rfl rfl rfl rfl rfl rfl

theorem State.bootStep_keeps (h : Keeps b s0 s) : Keeps b s0 (State.bootStep s) := by
  unfold State.bootStep
  refine Keeps.ite ?_ ?_
  · exact h
  · dsimp only
    split
    · rename_i x1 heq2
      exact State.setStage_keeps h
    · rename_i x3 heq4
      with_reducible refine State.setStage_keeps ?_
      exact State.bootVid_keeps h
    · rename_i x5 heq6
      refine Keeps.ite ?_ ?_
      · with_reducible refine State.recoveryPath_keeps ?_
        with_reducible refine State.bootSlot_keeps ?_
        with_reducible refine State.readLayout_keeps ?_
        exact State.bootVid_keeps h
      · with_reducible refine State.setStage_keeps ?_
        with_reducible refine State.setCairn_keeps ?_
        with_reducible refine State.bootSlot_keeps ?_
        with_reducible refine State.readLayout_keeps ?_
        exact State.bootVid_keeps h
    · rename_i x7 heq8
      with_reducible refine State.setStage_keeps ?_
      with_reducible refine State.setCairn_keeps ?_
      exact State.bootSlot_keeps h
    · rename_i x9 heq10
      with_reducible refine State.setStage_keeps ?_
      with_reducible refine State.bootCores_keeps ?_
      exact State.bootSlot_keeps h
    · rename_i x11 heq12
      with_reducible refine State.setStage_keeps ?_
      with_reducible refine State.bootEngines_keeps ?_
      refine Keeps.foldl ?_ ?_
      · exact h
      · intro s13 x14 k15
        exact State.bootSlot_keeps k15
    · rename_i x16 heq17
      exact State.nowReady_keeps h

theorem State.bootSteps_keeps (h : Keeps b s0 s) {a1} : Keeps b s0 (State.bootSteps s a1) := by
  induction a1 generalizing s with
  | zero => exact h
  | succ n ih => exact ih (State.bootStep_keeps h)

theorem State.bootOp_keeps (h : Keeps b s0 s) : Keeps b s0 (State.bootOp s) := by
  unfold State.bootOp
  exact State.bootSteps_keeps h

theorem State.emitRidge_keeps (h : Keeps b s0 s) {a1 a2 a3} : Keeps b s0 (State.emitRidge s a1 a2 a3) := by
  unfold State.emitRidge
  extract_lets l1
  refine Keeps.ite ?_ ?_
  · exact State.emit_keeps h
  · dsimp only
    split
    · rename_i x2 slot3 heq4
      with_reducible refine State.setLink_keeps ?_
      exact State.emit_keeps h
    · rename_i x5 heq6
      exact h

theorem State.takeWire_keeps (h : Keeps b s0 s) {a1 a2 a3 a4} : Keeps b s0 (State.takeWire s a1 a2 a3 a4) := by
  unfold State.takeWire
  extract_lets s1 l2 c3
  have hs1 : Keeps b s0 s1 := by
    exact State.endWire_keeps h
  clear_value s1
  exact State.setLink_keeps hs1

theorem State.brokenCopy_keeps (h : Keeps b s0 s) {a1 a2} : Keeps b s0 (State.brokenCopy s a1 a2) := by
  unfold State.brokenCopy
  extract_lets ends1 g2
  with_reducible refine State.emitRidge_keeps ?_
  exact State.takeWire_keeps h

theorem State.enterHold_keeps (h : Keeps b s0 s) {a1 a2} : Keeps b s0 (State.enterHold s a1 a2) := by
  unfold State.enterHold
  extract_lets x1 due2 s3
  have hs3 : Keeps b s0 s3 := by
    exact State.showPort_keeps h
  clear_value s3
  split
  · rename_i x4 o5 heq6
    exact State.complete_keeps hs3
  · rename_i x7 heq8
    exact hs3

theorem State.holdArrives_keeps (h : Keeps b s0 s) {a1} : Keeps b s0 (State.holdArrives s a1) := by
  unfold State.holdArrives
  split
  · rename_i x1 t2 heq3
    refine Keeps.ite ?_ ?_
    · exact State.enterHold_keeps h
    · exact h
  · rename_i x4 heq5
    exact h

theorem State.busWake_keeps (h : Keeps b s0 s) {a1} : Keeps b s0 (State.busWake s a1) := by
  unfold State.busWake
  extract_lets code1 s2
  have hs2 : Keeps b s0 s2 := by
    exact State.portEvt_keeps h
  clear_value s2
  refine Keeps.ite ?_ ?_
  · refine Keeps.ite ?_ ?_
    · with_reducible refine State.holdArrives_keeps ?_
      exact State.portGoes_keeps hs2
    · with_reducible refine State.cfgErr_keeps ?_
      exact State.toAwake_keeps hs2
  · exact State.toAwake_keeps hs2

theorem State.captureEdge_keeps (h : Keeps b s0 s) {a1 a2 a3} : Keeps b s0 (State.captureEdge s a1 a2 a3) := by
  unfold State.captureEdge
  extract_lets x1 x2 put3 soon4 x5 t6
  refine Keeps.ite ?_ ?_
  · dsimp only [put3]
    exact State.setTmu_keeps h
  · refine Keeps.ite ?_ ?_
    · dsimp only [put3]
      exact State.setTmu_keeps h
    · dsimp only [put3]
      exact State.setTmu_keeps h

theorem State.challengeOp_keeps (h : Keeps b s0 s) {a1 a2} : Keeps b s0 (State.challengeOp s a1 a2) := by
  unfold State.challengeOp
  refine Keeps.ite ?_ ?_
  · exact State.complete_keeps h
  · refine Keeps.ite ?_ ?_
    · exact State.complete_keeps h
    · refine Keeps.ite ?_ ?_
      · exact State.complete_keeps h
      · extract_lets c1 s2 x3 s4
        have hs2 : Keeps b s0 s2 := by
          exact State.draw_keeps h
        clear_value s2
        have hs4 : Keeps b s0 s4 := by
          exact Keeps.same hs2 ⟨rfl, rfl⟩ rfl rfl rfl rfl rfl rfl rfl rfl rfl rfl
        clear_value s4
        with_reducible refine State.complete_keeps ?_
        exact State.hostWrite_keeps hs4

theorem State.clearTenantRings_keeps (h : Keeps b s0 s) : Keeps b s0 (State.clearTenantRings s) := by
  unfold State.clearTenantRings
  extract_lets e1 mine2
  exact Keeps.tables h ⟨rfl, rfl⟩ (fun k => ⟨by with_reducible exact RegFile.wf_clear _ _ k.regs, k.tarn, by with_reducible exact Tbl.wf_drop _ _ k.rings, k.objs, k.flt, k.routes, k.counts, k.halves, k.keys⟩) (fun _ => rfl)

theorem State.fetch_keeps (h : Keeps b s0 s) {a1 a2 a3} : Keeps b s0 (State.fetch s a1 a2 a3) := by
  unfold State.fetch
  extract_lets i1 r2 s3
  have hs3 : Keeps b s0 s3 := by
    exact State.setRing_keeps h
  clear_value s3
  exact State.doorbell_keeps hs3

theorem State.command_keeps {f : State → Op → State} (h : Keeps b s0 s) (hf : ∀ y o, Keeps b s0 y → Keeps b s0 (f y o)) {a1 a2 a3 a4} : Keeps b s0 (State.command s a1 a2 a3 f a4) := by
  unfold State.command
  extract_lets o1
  refine Keeps.ite ?_ ?_
  · exact h
  · refine Keeps.ite ?_ ?_
    · with_reducible refine State.complete_keeps ?_
      exact State.fetch_keeps h
    · refine hf _ _ ?_
      exact State.fetch_keeps h

theorem State.configReset_keeps (h : Keeps b s0 s) : Keeps b s0 (State.configReset s) := by
  unfold State.configReset
  extract_lets x1
  exact Keeps.same h ⟨rfl, rfl⟩ rfl rfl rfl rfl rfl rfl rfl rfl rfl rfl

theorem State.control_keeps (h : Keeps b s0 s) {a1 a2} : Keeps b s0 (State.control s a1 a2) := by
  unfold State.control
  exact State.answer_keeps h

theorem State.spoil_keeps (h : Keeps b s0 s) {a1} : Keeps b s0 (State.spoil s a1) := by
  unfold State.spoil
  extract_lets x1 x2
  exact Keeps.same h ⟨rfl, rfl⟩ rfl rfl rfl rfl rfl rfl rfl rfl rfl rfl

theorem State.windowRecord_keeps (h : Keeps b s0 s) {a1 a2} : Keeps b s0 (State.windowRecord s a1 a2) := by
  unfold State.windowRecord
  split
  · rename_i x1 addr2 x3
    exact State.record_keeps h
  · rename_i x4 x5
    exact h

theorem State.coreLost_keeps (h : Keeps b s0 s) {a1 a2} : Keeps b s0 (State.coreLost s a1 a2) := by
  unfold State.coreLost
  extract_lets x1 code2 s3 s4
  have hs3 : Keeps b s0 s3 := by
    with_reducible refine State.spoil_keeps ?_
    exact State.setCore_keeps h
  clear_value s3
  have hs4 : Keeps b s0 s4 := by
    with_reducible refine State.record_keeps ?_
    exact State.seEvt_keeps hs3
  clear_value s4
  refine Keeps.ite ?_ ?_
  · exact h
  · with_reducible refine State.haltDone_keeps ?_
    with_reducible refine State.moveDuties_keeps ?_
    exact State.windowRecord_keeps hs4

theorem State.countBucket_keeps (h : Keeps b s0 s) {a1 a2 a3} : Keeps b s0 (State.countBucket s a1 a2 a3) := by
  unfold State.countBucket
  split
  · rename_i x1 m2 heq3
    exact State.countEth_keeps h
  · rename_i x4 heq5
    exact h

theorem State.countDestroyed_keeps (h : Keeps b s0 s) {a1} : Keeps b s0 (State.countDestroyed s a1) := by
  unfold State.countDestroyed
  extract_lets x1
  dsimp only
  split
  · rename_i x2 heq3
    exact h
  · rename_i x4 i5 heq6
    split
    · rename_i x7 c8 heq9
      refine Keeps.ite ?_ ?_
      · exact h
      · with_reducible refine State.setPort_keeps ?_
        refine Keeps.ite ?_ ?_
        · exact h
        · exact State.countPort_keeps h
    · rename_i x10 heq11
      exact h

theorem State.pauseFrame_keeps (h : Keeps b s0 s) {a1 a2 a3} : Keeps b s0 (State.pauseFrame s a1 a2 a3) := by
  unfold State.pauseFrame
  extract_lets s1 x2
  have hs1 : Keeps b s0 s1 := by
    exact State.pauseSettle_keeps h
  clear_value s1
  refine Keeps.ite ?_ ?_
  · with_reducible refine State.ethKick_keeps ?_
    exact State.endPause_keeps hs1
  · exact State.setEth_keeps hs1

theorem State.ctrlFrame_keeps (h : Keeps b s0 s) {a1 a2 a3 a4} : Keeps b s0 (State.ctrlFrame s a1 a2 a3 a4) := by
  unfold State.ctrlFrame
  extract_lets da1 exact2 mine3 s4 s5
  have hs4 : Keeps b s0 s4 := by
    exact State.countEth_keeps h
  clear_value s4
  have hs5 : Keeps b s0 s5 := by
    exact State.countEth_keeps h
  clear_value s5
  refine Keeps.ite ?_ ?_
  · refine Keeps.ite ?_ ?_
    · exact State.pauseFrame_keeps hs4
    · exact hs4
  · refine Keeps.ite ?_ ?_
    · exact State.countEth_keeps hs5
    · exact hs5

theorem State.ignoreBranch_keeps (h : Keeps b s0 s) {a1 a2} : Keeps b s0 (State.ignoreBranch s a1 a2) := by
  unfold State.ignoreBranch
  extract_lets x1
  exact State.setBranch_keeps h

theorem State.cutFrame_keeps (h : Keeps b s0 s) {a1 a2} : Keeps b s0 (State.cutFrame s a1 a2) := by
  unfold State.cutFrame
  extract_lets s1
  have hs1 : Keeps b s0 s1 := by
    refine Keeps.foldl ?_ ?_
    · exact h
    · intro s2 x3 k4
      exact State.emit_keeps k4
  clear_value s1
  with_reducible refine State.ignoreBranch_keeps ?_
  exact State.refError_keeps hs1

theorem State.cutOutput_keeps (h : Keeps b s0 s) {a1} : Keeps b s0 (State.cutOutput s a1) := by
  unfold State.cutOutput
  extract_lets x1
  exact State.setPort_keeps h

theorem State.cutThrough_keeps (h : Keeps b s0 s) {a1 a2} : Keeps b s0 (State.cutThrough s a1 a2) := by
  unfold State.cutThrough
  refine Keeps.ite ?_ ?_
  · exact h
  · refine Keeps.foldl ?_ ?_
    · exact h
    · intro s1 x2 k3
      exact State.brokenCopy_keeps k3

theorem State.debugFilterWrite_keeps (h : Keeps b s0 s) {a1 a2} : Keeps b s0 (State.debugFilterWrite s a1 a2) := by
  unfold State.debugFilterWrite
  refine Keeps.ite ?_ ?_
  · exact Keeps.tables h ⟨rfl, rfl⟩ (fun k => ⟨k.regs, k.tarn, k.rings, k.objs, by with_reducible exact Tbl.wf_put _ _ _ k.flt, k.routes, k.counts, k.halves, k.keys⟩) (fun _ => rfl)
  · exact h

theorem State.debugTarnWrite_keeps (h : Keeps b s0 s) {a1 a2} : Keeps b s0 (State.debugTarnWrite s a1 a2) := by
  unfold State.debugTarnWrite
  refine Keeps.ite ?_ ?_
  · exact Keeps.tables h ⟨rfl, rfl⟩ (fun k => ⟨k.regs, by with_reducible exact Tbl.wf_put _ _ _ k.tarn, k.rings, k.objs, k.flt, k.routes, k.counts, k.halves, k.keys⟩) (fun _ => rfl)
  · exact h

theorem State.debugWrite_keeps (h : Keeps b s0 s) {a1 a2} : Keeps b s0 (State.debugWrite s a1 a2) := by
  unfold State.debugWrite
  split
  · rename_i x1 c2 heq3
    refine Keeps.ite ?_ ?_
    · exact State.writeFields_keeps h
    · exact h
  · rename_i x4 heq5
    exact h

theorem State.flrRings_keeps (h : Keeps b s0 s) {a1} : Keeps b s0 (State.flrRings s a1) := by
  unfold State.flrRings
  extract_lets e1 s2 s3 mineEth4 s5 s6 x7
  have hs2 : Keeps b s0 s2 := by
    refine Keeps.foldl ?_ ?_
    · exact h
    · intro s8 x9 k10
      extract_lets i11 r12 s13
      have hs13 : Keeps b s0 s13 := by
        refine Keeps.foldl ?_ ?_
        · exact k10
        · intro s14 x15 k16
          exact State.freeSpace_keeps k16
      clear_value s13
      exact State.setRing_keeps hs13
  clear_value s2
  have hs3 : Keeps b s0 s3 := by
    exact State.endReads_keeps hs2
  clear_value s3
  have hs5 : Keeps b s0 s5 := by
    refine Keeps.foldl ?_ ?_
    · exact hs3
    · intro s17 x18 k19
      extract_lets x20
      exact State.setEth_keeps k19
  clear_value s5
  have hs6 : Keeps b s0 s6 := by
    exact State.takeHeld_keeps hs5
  clear_value s6
  exact Keeps.same hs6 ⟨rfl, rfl⟩ rfl rfl rfl rfl rfl rfl rfl rfl rfl rfl

theorem State.flrPort_keeps (h : Keeps b s0 s) {a1 a2} : Keeps b s0 (State.flrPort s a1 a2) := by
  unfold State.flrPort
  extract_lets x1 gone2 s3
  have hs3 : Keeps b s0 s3 := by
    refine Keeps.foldl ?_ ?_
    · exact h
    · intro s4 x5 k6
      exact State.clearPending_keeps k6
  clear_value s3
  exact State.setPort_keeps hs3

theorem State.endDomain_keeps (h : Keeps b s0 s) {a1} : Keeps b s0 (State.endDomain s a1) := by
  unfold State.endDomain
  extract_lets f1 s2
  have hs2 : Keeps b s0 s2 := by
    exact State.setFunc_keeps h
  clear_value s2
  with_reducible refine State.flrRings_keeps ?_
  refine Keeps.foldl ?_ ?_
  · exact hs2
  · intro s3 x4 k5
    exact State.flrPort_keeps k5

theorem State.defaultPartition_keeps (h : Keeps b s0 s) : Keeps b s0 (State.defaultPartition s) := by
  unfold State.defaultPartition
  extract_lets ts blocks s1 s2 s3 s4 s5 gone bl s6
  have h1 : Keeps b s0 s1 := Keeps.foldl h (fun _ _ k => State.endDomain_keeps k)
  have h2 : Keeps b s0 s2 := Keeps.foldl h1 (fun _ _ k => State.reassignPort_keeps k)
  have h3 : Keeps b s0 s3 := Keeps.foldl h2 (fun _ _ k => State.reassignGroup_keeps k)
  have h4 : Keeps b s0 s4 := Keeps.foldl h3 (fun _ _ k => State.clearBlock_keeps k)
  have h5 : Keeps b s0 s5 := State.clearTenantRings_keeps h4
  clear_value s5
  have h6 : Keeps b s0 s6 := by
    refine Keeps.tables h5 ⟨rfl, rfl⟩ (fun k => ⟨?_, k.tarn, k.rings, rfl, k.flt, ?_, k.counts, k.halves, k.keys⟩) (fun _ => rfl)
    · with_reducible exact RegFile.wf_clear _ _ k.regs
    · with_reducible exact Tbl.wf_mapVal _ _ k.routes
  exact Keeps.foldl h6 (fun _ _ k => State.newWindows_keeps k)

theorem State.hipri_keeps (h : Keeps b s0 s) {a1} : Keeps b s0 (State.hipri s a1) := by
  unfold State.hipri
  exact State.raise_keeps h

theorem State.defaultRule_keeps (h : Keeps b s0 s) {a1} : Keeps b s0 (State.defaultRule s a1) := by
  unfold State.defaultRule
  extract_lets c1
  refine Keeps.ite ?_ ?_
  · dsimp only
    split
    · rename_i x2 n3 heq4
      refine Keeps.ite ?_ ?_
      · with_reducible refine State.hipri_keeps ?_
        exact State.deliver_keeps h
      · exact State.deliver_keeps h
    · rename_i x5 heq6
      exact State.countPort_keeps h
  · exact State.countPort_keeps h

theorem State.useFv_keeps (h : Keeps b s0 s) {a1 a2 a3} : Keeps b s0 (State.useFv s a1 a2 a3) := by
  unfold State.useFv
  dsimp only
  split
  · rename_i x1 heq2
    exact h
  · rename_i x3 h4 heq5
    split
    · rename_i x6 k7 heq8
      refine Keeps.ite ?_ ?_
      · exact h
      · with_reducible refine State.setPort_keeps ?_
        exact State.setKey_keeps h
    · rename_i x9 heq10
      exact h

theorem State.destroyAttempt_keeps (h : Keeps b s0 s) {a1} : Keeps b s0 (State.destroyAttempt s a1) := by
  unfold State.destroyAttempt
  dsimp only
  split
  · rename_i x1 heq2
    exact h
  · rename_i x3 a4 heq5
    refine Keeps.ite ?_ ?_
    · exact h
    · split
      · rename_i x6 i7 heq8
        split
        · rename_i x9 c10 heq11
          with_reducible refine State.cutOutput_keeps ?_
          with_reducible refine State.setPort_keeps ?_
          exact State.useFv_keeps h
        · rename_i x12 heq13
          exact h
      · rename_i x14 heq15
        exact h
      · rename_i x16 x17 x18
        with_reducible refine State.cutOutput_keeps ?_
        exact State.setPort_keeps h

theorem State.readyRec_keeps (h : Keeps b s0 s) : Keeps b s0 (State.readyRec s) := by
  unfold State.readyRec
  extract_lets s1
  have hs1 : Keeps b s0 s1 := by
    exact State.noteFull_keeps h
  clear_value s1
  refine Keeps.ite ?_ ?_
  · exact State.writeAnchor_keeps hs1
  · exact hs1

theorem State.writeRec_keeps (h : Keeps b s0 s) {a1} : Keeps b s0 (State.writeRec s a1) := by
  unfold State.writeRec
  extract_lets s1 x2
  have hs1 : Keeps b s0 s1 := by
    exact State.readyRec_keeps h
  clear_value s1
  refine Keeps.ite ?_ ?_
  · exact State.setLog_keeps hs1
  · exact State.putRec_keeps hs1

theorem State.domainRec_keeps (h : Keeps b s0 s) {a1 a2 a3} : Keeps b s0 (State.domainRec s a1 a2 a3) := by
  unfold State.domainRec
  extract_lets n1 f2 f3 s4 s5 x6
  have hs4 : Keeps b s0 s4 := by
    with_reducible refine State.readyRec_keeps ?_
    exact State.setFunc_keeps h
  clear_value s4
  have hs5 : Keeps b s0 s5 := by
    exact State.putRec_keeps hs4
  clear_value s5
  refine Keeps.ite ?_ ?_
  · with_reducible refine State.countDev_keeps ?_
    exact State.setFunc_keeps h
  · refine Keeps.ite ?_ ?_
    · exact State.writeRec_keeps hs4
    · with_reducible refine State.writeRec_keeps ?_
      exact State.setFunc_keeps hs5

theorem State.driveOthers_keeps (h : Keeps b s0 s) {a1 a2} : Keeps b s0 (State.driveOthers s a1 a2) := by
  unfold State.driveOthers
  exact State.emit_keeps h

theorem State.driveSof_keeps (h : Keeps b s0 s) {a1 a2 a3 a4} : Keeps b s0 (State.driveSof s a1 a2 a3 a4) := by
  unfold State.driveSof
  extract_lets dly1 x2 s3
  have hs3 : Keeps b s0 s3 := by
    exact State.setPort_keeps h
  clear_value s3
  exact State.emitNode_keeps hs3

theorem State.driveRef_keeps (h : Keeps b s0 s) {a1 a2 a3 a4} : Keeps b s0 (State.driveRef s a1 a2 a3 a4) := by
  unfold State.driveRef
  extract_lets s1 x2 s3
  have hs1 : Keeps b s0 s1 := by
    exact State.advance_keeps h
  clear_value s1
  have hs3 : Keeps b s0 s3 := by
    exact State.setGroup_keeps hs1
  clear_value s3
  exact State.driveSof_keeps hs3

end Sys2Proof.Machine
end

