-- ==== Sys2Proof/Laws/KeepsC.lean ====
section
/-! SUPPORT. The operations keep the queue, the tables and the lifecycle (Keeps.lean), part 3 of 4, each after those it calls. -/
namespace Sys2Proof.Machine

variable {b : Bool} {s0 s t : State}

theorem State.dropKeyless_keeps (h : Keeps b s0 s) : Keeps b s0 (State.dropKeyless s) := by
  unfold State.dropKeyless
  refine Keeps.foldl ?_ ?_
  · exact h
  · intro s1 x2 k3
    split
    · rename_i x4 h5 heq6
      refine Keeps.ite ?_ ?_
      · exact State.linkDown_keeps k3
      · exact k3
    · rename_i x7 heq8
      exact k3

theorem State.dropStaged_keeps (h : Keeps b s0 s) {a1 a2} : Keeps b s0 (State.dropStaged s a1 a2) := by
  unfold State.dropStaged
  extract_lets s1 hit2 s3 s4
  have hs1 : Keeps b s0 s1 := by
    exact Keeps.same h ⟨rfl, rfl⟩ rfl rfl rfl rfl rfl rfl rfl rfl rfl rfl
  clear_value s1
  have hs3 : Keeps b s0 s3 := by
    refine Keeps.foldl ?_ ?_
    · exact hs1
    · intro s5 x6 k7
      refine Keeps.foldl ?_ ?_
      · exact k7
      · intro s8 x9 k10
        refine Keeps.ite ?_ ?_
        · exact k10
        · extract_lets k11 ws12 x13 s14
          have hs14 : Keeps b s0 s14 := by
            exact State.setRing_keeps k10
          clear_value s14
          refine Keeps.foldl ?_ ?_
          · exact hs14
          · intro s15 x16 k17
            exact State.dropWait_keeps k17
  clear_value s3
  have hs4 : Keeps b s0 s4 := by
    exact State.setShare_keeps hs3
  clear_value s4
  exact State.countPort_keeps hs4

theorem State.listenAgain_keeps (h : Keeps b s0 s) : Keeps b s0 (State.listenAgain s) := by
  unfold State.listenAgain
  refine Keeps.foldl ?_ ?_
  · exact h
  · intro s1 x2 k3
    extract_lets g4
    refine Keeps.ite ?_ ?_
    · exact State.setGroup_keeps k3
    · exact k3

theorem State.dutyStarts_keeps (h : Keeps b s0 s) {a1} : Keeps b s0 (State.dutyStarts s a1) := by
  unfold State.dutyStarts
  split
  · rename_i u1
    with_reducible refine State.allocator_keeps ?_
    exact State.fabTopo_keeps h
  · rename_i u2
    exact State.listenAgain_keeps h
  · rename_i u3
    refine Keeps.ite ?_ ?_
    · exact State.firmwareTakes_keeps h
    · exact h
  · rename_i u4
    exact h

theorem State.endActivation_keeps (h : Keeps b s0 s) : Keeps b s0 (State.endActivation s) := by
  unfold State.endActivation
  dsimp only
  split
  · rename_i x1 heq2
    exact h
  · rename_i x3 a4 heq5
    split
    · rename_i x6 o7 heq8
      with_reducible refine State.complete_keeps ?_
      with_reducible refine State.crnEvent_keeps ?_
      refine Keeps.ite ?_ ?_
      · refine Keeps.same (State.activated_keeps ?_) ⟨rfl, rfl⟩ rfl rfl rfl rfl rfl rfl rfl rfl rfl rfl
        refine Keeps.ite ?_ ?_
        · exact State.setCairn_keeps h
        · with_reducible refine State.setComp_keeps ?_
          exact State.setCairn_keeps h
      · with_reducible refine State.record_keeps ?_
        with_reducible refine State.setCairn_keeps ?_
        exact State.setCairn_keeps h
    · rename_i x9 heq10
      with_reducible refine State.crnEvent_keeps ?_
      refine Keeps.ite ?_ ?_
      · refine Keeps.same (State.activated_keeps ?_) ⟨rfl, rfl⟩ rfl rfl rfl rfl rfl rfl rfl rfl rfl rfl
        refine Keeps.ite ?_ ?_
        · exact State.setCairn_keeps h
        · with_reducible refine State.setComp_keeps ?_
          exact State.setCairn_keeps h
      · with_reducible refine State.record_keeps ?_
        with_reducible refine State.setCairn_keeps ?_
        exact State.setCairn_keeps h

theorem State.endBusy_keeps (h : Keeps b s0 s) : Keeps b s0 (State.endBusy s) := by
  unfold State.endBusy
  exact Keeps.same h ⟨rfl, rfl⟩ rfl rfl rfl rfl rfl rfl rfl rfl rfl rfl

theorem State.startCopy_keeps (h : Keeps b s0 s) {a1 a2 a3 a4} : Keeps b s0 (State.startCopy s a1 a2 a3 a4) := by
  unfold State.startCopy
  extract_lets x1 n2 bs3 isNew4 lost5 b6 held7 e8 s9 s10
  have hs9 : Keeps b s0 s9 := by
    exact State.hostWrite_keeps h
  clear_value s9
  have hs10 : Keeps b s0 s10 := by
    exact State.tarnWrite_keeps hs9
  clear_value s10
  exact State.setObj_keeps hs10

theorem State.endCopy_keeps (h : Keeps b s0 s) {a1 a2} : Keeps b s0 (State.endCopy s a1 a2) := by
  unfold State.endCopy
  dsimp only
  split
  · rename_i x1 heq2
    exact h
  · rename_i x3 fst4 e5 heq6
    split
    · rename_i x7 heq8
      with_reducible refine State.completeE_keeps ?_
      with_reducible refine State.setObj_keeps ?_
      exact State.promoteShadow_keeps h
    · rename_i x9 op10 a11 rest12 heq13
      with_reducible refine State.startCopy_keeps ?_
      with_reducible refine State.setObj_keeps ?_
      with_reducible refine State.completeE_keeps ?_
      with_reducible refine State.setObj_keeps ?_
      exact State.promoteShadow_keeps h

theorem State.faultEngine_keeps (h : Keeps b s0 s) {a1 a2} : Keeps b s0 (State.faultEngine s a1 a2) := by
  unfold State.faultEngine
  extract_lets x1
  with_reducible refine State.seEvt_keeps ?_
  exact State.setEngine_keeps h

theorem State.takeover_keeps (h : Keeps b s0 s) {a1} : Keeps b s0 (State.takeover s a1) := by
  unfold State.takeover
  dsimp only
  split
  · rename_i x1 heq2
    with_reducible refine State.seEvt_keeps ?_
    exact Keeps.same h ⟨rfl, rfl⟩ rfl rfl rfl rfl rfl rfl rfl rfl rfl rfl
  · rename_i x3 e4 holds5 heq6
    refine Keeps.ite ?_ ?_
    · refine Keeps.same (State.choose_keeps ?_) ⟨rfl, rfl⟩ rfl rfl rfl rfl rfl rfl rfl rfl rfl rfl
      exact h
    · exact State.choose_keeps h

theorem State.enterStandby_keeps (h : Keeps b s0 s) {a1} : Keeps b s0 (State.enterStandby s a1) := by
  unfold State.enterStandby
  extract_lets x1 s2 x3
  have hs2 : Keeps b s0 s2 := by
    exact State.setEngine_keeps h
  clear_value s2
  split
  · rename_i x4 p5 rest6 heq7
    with_reducible refine State.takeover_keeps ?_
    exact Keeps.same hs2 ⟨rfl, rfl⟩ rfl rfl rfl rfl rfl rfl rfl rfl rfl rfl
  · rename_i x8 heq9
    exact hs2

theorem State.releaseSwap_keeps (h : Keeps b s0 s) : Keeps b s0 (State.releaseSwap s) := by
  unfold State.releaseSwap
  split
  · rename_i x1 w2 heq3
    split
    · rename_i e4 o5 heq6
      refine Keeps.ite ?_ ?_
      · exact State.enterStandby_keeps h
      · exact h
    · rename_i e7 heq8
      exact h
  · rename_i x9 heq10
    exact h

theorem State.isolatePort_keeps (h : Keeps b s0 s) {a1} : Keeps b s0 (State.isolatePort s a1) := by
  unfold State.isolatePort
  extract_lets x1 kept2
  refine Keeps.ite ?_ ?_
  · exact h
  · exact State.showPort_keeps h

theorem State.losePort_keeps (h : Keeps b s0 s) {a1} : Keeps b s0 (State.losePort s a1) := by
  unfold State.losePort
  extract_lets s1
  have hs1 : Keeps b s0 s1 := by
    exact State.destroyAttempt_keeps h
  clear_value s1
  with_reducible refine State.takeover_keeps ?_
  with_reducible refine State.isolatePort_keeps ?_
  exact State.attach_keeps hs1

theorem State.engineLost_keeps (h : Keeps b s0 s) {a1 a2} : Keeps b s0 (State.engineLost s a1 a2) := by
  unfold State.engineLost
  extract_lets x1 s2 s3 inSwap4 x5 p6 s7 x8 s9
  have hs2 : Keeps b s0 s2 := by
    exact State.faultEngine_keeps h
  clear_value s2
  have hs3 : Keeps b s0 s3 := by
    exact State.windowRecord_keeps hs2
  clear_value s3
  have hs7 : Keeps b s0 s7 := by
    exact State.record_keeps hs3
  clear_value s7
  have hs9 : Keeps b s0 s9 := by
    refine Keeps.ite ?_ ?_
    · with_reducible refine State.endSwap_keeps ?_
      exact State.releaseSwap_keeps hs7
    · exact hs7
  clear_value s9
  split
  · rename_i x10 x11 p12 heq13 heq14
    exact State.takeover_keeps hs3
  · rename_i x15 x16 p17 heq18 heq19
    split
    · rename_i x20 w21 heq22
      refine Keeps.ite ?_ ?_
      · exact State.swapChoose_keeps hs3
      · exact hs3
    · rename_i x23 heq24
      exact hs3
  · rename_i x25 x26 val27 x28 x29 heq30 heq31
    with_reducible refine State.seEvt_keeps ?_
    exact Keeps.same hs3 ⟨rfl, rfl⟩ rfl rfl rfl rfl rfl rfl rfl rfl rfl rfl
  · rename_i x32 x33 heq34
    refine Keeps.ite ?_ ?_
    · with_reducible refine State.takeover_keeps ?_
      with_reducible refine State.attach_keeps ?_
      exact Keeps.same hs7 ⟨rfl, rfl⟩ rfl rfl rfl rfl rfl rfl rfl rfl rfl rfl
    · refine Keeps.ite ?_ ?_
      · exact State.losePort_keeps hs9
      · refine Keeps.ite ?_ ?_
        · exact State.endSwap_keeps hs7
        · exact hs7
  · rename_i x35 x36 x37 x38 x39 x40
    exact hs3

theorem State.engineTestAfterSwap_keeps (h : Keeps b s0 s) : Keeps b s0 (State.engineTestAfterSwap s) := by
  unfold State.engineTestAfterSwap
  dsimp only
  split
  · rename_i x1 t2 heq3
    refine Keeps.ite ?_ ?_
    · split
      · rename_i x4 e5 heq6
        refine Keeps.ite ?_ ?_
        · exact Keeps.same h ⟨rfl, rfl⟩ rfl rfl rfl rfl rfl rfl rfl rfl rfl rfl
        · exact h
      · rename_i x7 heq8
        exact h
    · exact h
  · rename_i x9 heq10
    exact h

theorem State.enterGroupHold_keeps (h : Keeps b s0 s) {a1 a2} : Keeps b s0 (State.enterGroupHold s a1 a2) := by
  unfold State.enterGroupHold
  extract_lets g1 s2 a3 s4
  have hs2 : Keeps b s0 s2 := by
    exact State.groupGoes_keeps h
  clear_value s2
  have hs4 : Keeps b s0 s4 := by
    refine Keeps.ite ?_ ?_
    · exact State.showPort_keeps hs2
    · exact hs2
  clear_value s4
  split
  · rename_i x5 o6 heq7
    exact State.complete_keeps hs4
  · rename_i x8 heq9
    exact hs4

theorem State.sendLocal_keeps (h : Keeps b s0 s) {a1 a2 a3 a4 a5 a6} : Keeps b s0 (State.sendLocal s a1 a2 a3 a4 a5 a6) := by
  unfold State.sendLocal
  extract_lets x1
  exact State.pushLink_keeps h

theorem State.sendKeyx_keeps (h : Keeps b s0 s) {a1} : Keeps b s0 (State.sendKeyx s a1) := by
  unfold State.sendKeyx
  extract_lets body1 x2 s3
  have hs3 : Keeps b s0 s3 := by
    exact State.setLink_keeps h
  clear_value s3
  with_reducible refine State.sendLocal_keeps ?_
  with_reducible refine State.draw_keeps ?_
  exact State.draw_keeps hs3

theorem State.enterKeying_keeps (h : Keeps b s0 s) {a1} : Keeps b s0 (State.enterKeying s a1) := by
  unfold State.enterKeying
  with_reducible refine State.sendKeyx_keeps ?_
  extract_lets x1
  exact State.setLink_keeps h

theorem State.enterSet_keeps (h : Keeps b s0 s) {a1 a2 a3} : Keeps b s0 (State.enterSet s a1 a2 a3) := by
  unfold State.enterSet
  extract_lets x1 c2 s3
  have hs3 : Keeps b s0 s3 := by
    exact State.setPort_keeps h
  clear_value s3
  refine Keeps.ite ?_ ?_
  · exact State.endCand_keeps hs3
  · exact hs3

theorem State.erasedRec_keeps (h : Keeps b s0 s) {a1} : Keeps b s0 (State.erasedRec s a1) := by
  unfold State.erasedRec
  exact State.record_keeps h

theorem State.eraseArgs_keeps (h : Keeps b s0 s) : Keeps b s0 (State.eraseArgs s) := by
  unfold State.eraseArgs
  extract_lets z1 n2 x3
  with_reducible refine State.erasedRec_keeps ?_
  exact State.setLog_keeps h

theorem State.eraseReserve_keeps (h : Keeps b s0 s) : Keeps b s0 (State.eraseReserve s) := by
  unfold State.eraseReserve
  extract_lets s1 x2
  have hs1 : Keeps b s0 s1 := by
    refine Keeps.foldl ?_ ?_
    · exact h
    · intro s3 x4 k5
      exact State.freeSpace_keeps k5
  clear_value s1
  exact Keeps.tables hs1 ⟨rfl, rfl⟩ (fun k => ⟨k.regs, k.tarn, by with_reducible exact Tbl.wf_mapVal _ _ k.rings, k.objs, k.flt, k.routes, k.counts, k.halves, k.keys⟩) (fun _ => rfl)

theorem State.eraseData_keeps (h : Keeps b s0 s) : Keeps b s0 (State.eraseData s) := by
  unfold State.eraseData
  refine State.dropKeyless_keeps ?_
  refine Keeps.tables (State.eraseReserve_keeps h) ⟨rfl, rfl⟩ (fun k => ⟨k.regs, rfl, k.rings, ?_, rfl, k.routes, k.counts, k.halves, rfl⟩) (fun _ => rfl)
  with_reducible exact Tbl.wf_mapVal _ _ k.objs

theorem State.eraseKeys_keeps (h : Keeps b s0 s) {a1} : Keeps b s0 (State.eraseKeys s a1) := by
  unfold State.eraseKeys
  with_reducible refine State.dropKeyless_keeps ?_
  extract_lets x1
  exact Keeps.tables h ⟨rfl, rfl⟩ (fun k => ⟨k.regs, k.tarn, k.rings, k.objs, k.flt, k.routes, k.counts, k.halves, by with_reducible exact Tbl.wf_filter _ _ k.keys⟩) (fun _ => rfl)

theorem State.eraseRecords_keeps (h : Keeps b s0 s) : Keeps b s0 (State.eraseRecords s) := by
  unfold State.eraseRecords
  extract_lets z1 n2 x3
  with_reducible refine State.erasedRec_keeps ?_
  exact State.setLog_keeps h

theorem State.ethCountRx_keeps (h : Keeps b s0 s) {a1 a2 a3} : Keeps b s0 (State.ethCountRx s a1 a2 a3) := by
  unfold State.ethCountRx
  extract_lets n1 s2 s3
  have hs2 : Keeps b s0 s2 := by
    refine Keeps.foldl ?_ ?_
    · exact h
    · intro s4 x5 k6
      refine Keeps.ite ?_ ?_
      · exact State.countEth_keeps k6
      · exact k6
  clear_value s2
  have hs3 : Keeps b s0 s3 := by
    exact State.countBucket_keeps hs2
  clear_value s3
  refine Keeps.ite ?_ ?_
  · with_reducible refine State.countEth_keeps ?_
    with_reducible refine State.countBy_keeps ?_
    exact State.countEth_keeps hs3
  · exact hs3

theorem State.ethDeliver_keeps (h : Keeps b s0 s) {a1 a2 a3 a4 a5 a6 a7 a8} : Keeps b s0 (State.ethDeliver s a1 a2 a3 a4 a5 a6 a7 a8) := by
  unfold State.ethDeliver
  extract_lets d1 body2
  split
  · rename_i x3 heq4
    exact State.countEth_keeps h
  · rename_i x5 n6 heq7
    exact State.deliver_keeps h

theorem State.offerSample_keeps (h : Keeps b s0 s) {a1 a2 a3 a4} : Keeps b s0 (State.offerSample s a1 a2 a3 a4) := by
  unfold State.offerSample
  refine Keeps.ite ?_ ?_
  · extract_lets x1
    exact State.setTmu_keeps h
  · exact h

theorem State.ptpMeasure_keeps (h : Keeps b s0 s) {a1 a2 a3} : Keeps b s0 (State.ptpMeasure s a1 a2 a3) := by
  unfold State.ptpMeasure
  extract_lets t1
  exact State.offerSample_keeps h

theorem State.ptpSend_keeps (h : Keeps b s0 s) {a1 a2 a3} : Keeps b s0 (State.ptpSend s a1 a2 a3) := by
  unfold State.ptpSend
  dsimp only
  split
  · rename_i x1 heq2
    exact h
  · rename_i x3 g4 heq5
    refine Keeps.ite ?_ ?_
    · with_reducible refine State.ethKick_keeps ?_
      with_reducible refine State.setEth_keeps ?_
      exact State.draw_keeps h
    · exact h

theorem State.ptpPeer_keeps (h : Keeps b s0 s) {a1 a2 a3 a4} : Keeps b s0 (State.ptpPeer s a1 a2 a3 a4) := by
  unfold State.ptpPeer
  extract_lets x1
  exact Keeps.same h ⟨rfl, rfl⟩ rfl rfl rfl rfl rfl rfl rfl rfl rfl rfl

theorem State.ptpAnswer_keeps (h : Keeps b s0 s) {a1 a2 a3 a4 a5} : Keeps b s0 (State.ptpAnswer s a1 a2 a3 a4 a5) := by
  unfold State.ptpAnswer
  dsimp only
  split
  · rename_i x1 heq2
    exact h
  · rename_i x3 x4 heq5
    refine Keeps.ite ?_ ?_
    · exact h
    · split
      · rename_i x6 r7 x8 heq9
        refine Keeps.ite ?_ ?_
        · exact State.ptpPeer_keeps h
        · exact h
      · rename_i x10 heq11
        refine Keeps.ite ?_ ?_
        · exact h
        · refine Keeps.ite ?_ ?_
          · exact Keeps.same h ⟨rfl, rfl⟩ rfl rfl rfl rfl rfl rfl rfl rfl rfl rfl
          · exact State.ptpPeer_keeps h

theorem State.ptpChoose_keeps (h : Keeps b s0 s) {a1 a2} : Keeps b s0 (State.ptpChoose s a1 a2) := by
  unfold State.ptpChoose
  dsimp only
  split
  · rename_i x1 heq2
    exact h
  · rename_i x3 g4 heq5
    exact Keeps.same h ⟨rfl, rfl⟩ rfl rfl rfl rfl rfl rfl rfl rfl rfl rfl

theorem State.ptpReceive_keeps (h : Keeps b s0 s) {a1 a2 a3} : Keeps b s0 (State.ptpReceive s a1 a2 a3) := by
  unfold State.ptpReceive
  dsimp only
  split
  · rename_i x1 x2 m3 g4 heq5 heq6
    refine Keeps.ite ?_ ?_
    · exact h
    · split
      · rename_i x7 heq8
        refine Keeps.ite ?_ ?_
        · exact h
        · refine Keeps.ite ?_ ?_
          · exact Keeps.same h ⟨rfl, rfl⟩ rfl rfl rfl rfl rfl rfl rfl rfl rfl rfl
          · exact State.ptpMeasure_keeps h
      · rename_i x9 heq10
        split
        · rename_i x11 r12 x13 heq14
          refine Keeps.ite ?_ ?_
          · with_reducible refine State.ptpMeasure_keeps ?_
            exact Keeps.same h ⟨rfl, rfl⟩ rfl rfl rfl rfl rfl rfl rfl rfl rfl rfl
          · exact h
        · rename_i x15 heq16
          exact h
      · rename_i x17 heq18
        exact State.ptpSend_keeps h
      · rename_i x19 heq20
        exact State.ptpAnswer_keeps h
      · rename_i x21 heq22
        exact State.ptpAnswer_keeps h
      · rename_i x23 heq24
        exact State.ptpChoose_keeps h
      · rename_i x25 x26 x27 x28 x29 x30 x31
        exact h
  · rename_i x32 x33 x34
    exact h

theorem State.ethStaged_keeps {f : Nat → State → State} (h : Keeps b s0 s) (hf : ∀ i y, Keeps b s0 y → Keeps b s0 (f i y)) {a1 a2} : Keeps b s0 (State.ethStaged s a1 a2 f) := by
  unfold State.ethStaged
  split
  · exact State.countEth_keeps h
  · rename_i heq
    exact State.freeSpace_keeps (hf _ _ (State.takeSpace_keeps h heq))

theorem State.ethFrame_keeps (h : Keeps b s0 s) {a1 a2 a3 a4} : Keeps b s0 (State.ethFrame s a1 a2 a3 a4) := by
  unfold State.ethFrame
  extract_lets at1 st2 good3 c4 s5 s6
  have hs5 : Keeps b s0 s5 := by
    exact State.ethCountRx_keeps h
  clear_value s5
  have hs6 : Keeps b s0 s6 := by
    with_reducible refine State.ptpReceive_keeps ?_
    exact State.countEth_keeps hs5
  clear_value s6
  refine Keeps.ite ?_ ?_
  · refine Keeps.ite ?_ ?_
    · with_reducible refine State.ethStaged_keeps ?_ ?_
      · exact hs6
      · intro x7 s8 k9
        exact State.ethDeliver_keeps k9
    · exact hs6
  · refine Keeps.ite ?_ ?_
    · exact State.ctrlFrame_keeps hs5
    · with_reducible refine State.ethStaged_keeps ?_ ?_
      · exact hs5
      · intro x10 s11 k12
        split
        · rename_i x13 heq14
          exact State.countEth_keeps k12
        · rename_i x15 ring16 m17 x18 heq19
          refine Keeps.ite ?_ ?_
          · exact State.countEth_keeps k12
          · exact State.ethDeliver_keeps k12

theorem State.ptpSent_keeps (h : Keeps b s0 s) {a1 a2 a3} : Keeps b s0 (State.ptpSent s a1 a2 a3) := by
  unfold State.ptpSent
  dsimp only
  split
  · rename_i x1 m2 heq3
    refine Keeps.ite ?_ ?_
    · exact Keeps.same h ⟨rfl, rfl⟩ rfl rfl rfl rfl rfl rfl rfl rfl rfl rfl
    · exact h
  · rename_i x4 heq5
    exact h

theorem State.ethSent_keeps (h : Keeps b s0 s) {a1 a2 a3} : Keeps b s0 (State.ethSent s a1 a2 a3) := by
  unfold State.ethSent
  extract_lets t1 padded2 bytes3 n4 s5 s6 s7 s8 s9 s10 s11 st12 s13
  have hs5 : Keeps b s0 s5 := by
    exact State.emit_keeps h
  clear_value s5
  have hs6 : Keeps b s0 s6 := by
    exact State.countEth_keeps hs5
  clear_value s6
  have hs7 : Keeps b s0 s7 := by
    exact State.countBy_keeps hs6
  clear_value s7
  have hs8 : Keeps b s0 s8 := by
    exact State.countEth_keeps hs7
  clear_value s8
  have hs9 : Keeps b s0 s9 := by
    refine Keeps.ite ?_ ?_
    · exact State.countEth_keeps hs8
    · exact hs8
  clear_value s9
  have hs10 : Keeps b s0 s10 := by
    refine Keeps.ite ?_ ?_
    · exact State.countEth_keeps hs9
    · exact hs9
  clear_value s10
  have hs11 : Keeps b s0 s11 := by
    exact State.countBucket_keeps hs10
  clear_value s11
  have hs13 : Keeps b s0 s13 := by
    refine Keeps.ite ?_ ?_
    · exact State.tsqStamp_keeps hs11
    · exact hs11
  clear_value s13
  refine Keeps.ite ?_ ?_
  · exact State.ptpSent_keeps hs11
  · exact State.complete_keeps hs13

theorem State.ethTxOp_keeps (h : Keeps b s0 s) {a1 a2 a3 a4} : Keeps b s0 (State.ethTxOp s a1 a2 a3 a4) := by
  unfold State.ethTxOp
  dsimp only
  split
  · rename_i x1 c2 heq3
    exact State.complete_keeps h
  · rename_i x4 heq5
    refine Keeps.ite ?_ ?_
    · exact State.complete_keeps h
    · with_reducible refine State.ethKick_keeps ?_
      exact State.setEth_keeps h

theorem State.verify_keeps (h : Keeps b s0 s) {a1 a2 a3} : Keeps b s0 (State.verify s a1 a2 a3).1 := by
  unfold State.verify
  split
  · exact h
  · dsimp only
    split
    · exact h
    · split
      · exact h
      · split
        · exact State.setKey_keeps h
        · exact h

theorem State.evalSeal_keeps (h : Keeps b s0 s) {a1 a2 a3} : Keeps b s0 (State.evalSeal s a1 a2 a3).1 := by
  unfold State.evalSeal
  split
  · split
    · exact h
    · exact State.verify_keeps h
  · exact h

theorem State.storeObject_keeps (h : Keeps b s0 s) {a1 a2 a3 a4 a5 a6 a7} : Keeps b s0 (State.storeObject s a1 a2 a3 a4 a5 a6 a7) := by
  unfold State.storeObject
  extract_lets x1 s2
  have hs2 : Keeps b s0 s2 := by
    exact State.setObj_keeps h
  clear_value s2
  refine Keeps.ite ?_ ?_
  · with_reducible refine State.countPort_keeps ?_
    exact State.setObj_keeps h
  · refine Keeps.ite ?_ ?_
    · exact State.tarnWrite_keeps hs2
    · exact State.writeMain_keeps h

theorem State.originate_keeps (h : Keeps b s0 s) {a1 a2} : Keeps b s0 (State.originate s a1 a2) := by
  unfold State.originate
  extract_lets one1
  refine Keeps.ite ?_ ?_
  · dsimp only [one1]
    split
    · rename_i x2 j3 heq4
      refine Keeps.ite ?_ ?_
      · with_reducible refine State.pushLink_keeps ?_
        split
        · rename_i x5 j6 heq7
          refine Keeps.ite ?_ ?_
          · exact State.pushLink_keeps h
          · exact State.wrapOnto_keeps h
        · rename_i x8 heq9
          exact State.countLink_keeps h
      · with_reducible refine State.wrapOnto_keeps ?_
        split
        · rename_i x10 j11 heq12
          refine Keeps.ite ?_ ?_
          · exact State.pushLink_keeps h
          · exact State.wrapOnto_keeps h
        · rename_i x13 heq14
          exact State.countLink_keeps h
    · rename_i x15 heq16
      with_reducible refine State.countLink_keeps ?_
      split
      · rename_i x17 j18 heq19
        refine Keeps.ite ?_ ?_
        · exact State.pushLink_keeps h
        · exact State.wrapOnto_keeps h
      · rename_i x20 heq21
        exact State.countLink_keeps h
  · split
    · rename_i x22 x23 p24 a25 heq26 heq27
      refine Keeps.ite ?_ ?_
      · dsimp only [one1]
        refine Keeps.ite ?_ ?_
        · exact State.pushLink_keeps h
        · exact State.wrapOnto_keeps h
      · refine Keeps.ite ?_ ?_
        · dsimp only [one1]
          refine Keeps.ite ?_ ?_
          · exact State.pushLink_keeps h
          · exact State.wrapOnto_keeps h
        · dsimp only [one1]
          refine Keeps.ite ?_ ?_
          · exact State.pushLink_keeps h
          · exact State.wrapOnto_keeps h
    · rename_i x28 x29 p30 heq31 heq32
      dsimp only [one1]
      refine Keeps.ite ?_ ?_
      · exact State.pushLink_keeps h
      · exact State.wrapOnto_keeps h
    · rename_i x33 x34 heq35
      dsimp only [one1]
      split
      · rename_i x36 j37 heq38
        refine Keeps.ite ?_ ?_
        · exact State.pushLink_keeps h
        · exact State.wrapOnto_keeps h
      · rename_i x39 heq40
        exact State.countLink_keeps h

theorem State.routeOut_keeps (h : Keeps b s0 s) {a1 a2 a3} : Keeps b s0 (State.routeOut s a1 a2 a3) := by
  unfold State.routeOut
  extract_lets rt1 q2 s3 f4 x5 s6
  have hs3 : Keeps b s0 s3 := by
    exact State.setRoute_keeps h
  clear_value s3
  have hs6 : Keeps b s0 s6 := by
    refine Keeps.ite ?_ ?_
    · exact Keeps.same hs3 ⟨rfl, rfl⟩ rfl rfl rfl rfl rfl rfl rfl rfl rfl rfl
    · exact hs3
  clear_value s6
  refine Keeps.ite ?_ ?_
  · exact State.countLink_keeps h
  · refine Keeps.ite ?_ ?_
    · exact State.arriveRouted_keeps hs3
    · exact State.originate_keeps hs6

theorem State.timeBeacon_keeps (h : Keeps b s0 s) {a1 a2 a3 a4} : Keeps b s0 (State.timeBeacon s a1 a2 a3 a4) := by
  unfold State.timeBeacon
  extract_lets x1 b2 ok3 x4
  refine Keeps.ite ?_ ?_
  · exact State.setPort_keeps h
  · exact State.setPort_keeps h

theorem State.takeAction_keeps (h : Keeps b s0 s) {a1 a2 a3 a4} : Keeps b s0 (State.takeAction s a1 a2 a3 a4) := by
  unfold State.takeAction
  extract_lets d1 t2 notTaken3 hi4 o5
  have hnotTaken3 : Keeps b s0 notTaken3 := by
    exact State.countPort_keeps h
  clear_value notTaken3
  split
  · rename_i x6 heq7
    refine Keeps.ite ?_ ?_
    · dsimp only [hi4]
      refine Keeps.ite ?_ ?_
      · with_reducible refine State.hipri_keeps ?_
        exact State.storeObject_keeps h
      · exact State.storeObject_keeps h
    · exact hnotTaken3
  · rename_i x8 heq9
    split
    · rename_i x10 n11 heq12
      dsimp only [hi4]
      refine Keeps.ite ?_ ?_
      · with_reducible refine State.hipri_keeps ?_
        exact State.deliver_keeps h
      · exact State.deliver_keeps h
    · rename_i x13 heq14
      exact hnotTaken3
  · rename_i x15 heq16
    refine Keeps.ite ?_ ?_
    · dsimp only [hi4]
      refine Keeps.ite ?_ ?_
      · with_reducible refine State.hipri_keeps ?_
        exact State.routeOut_keeps h
      · exact State.routeOut_keeps h
    · exact hnotTaken3
  · rename_i x17 heq18
    dsimp only [hi4]
    refine Keeps.ite ?_ ?_
    · with_reducible refine State.hipri_keeps ?_
      exact State.timeBeacon_keeps h
    · exact State.timeBeacon_keeps h
  · rename_i x19 x20 x21 x22 x23
    exact hnotTaken3

theorem State.sealFailed_keeps (h : Keeps b s0 s) {a1 a2 a3 a4 a5} : Keeps b s0 (State.sealFailed s a1 a2 a3 a4 a5) := by
  unfold State.sealFailed
  extract_lets d1 s2 f3 j4 s5 s6
  have hs2 : Keeps b s0 s2 := by
    refine Keeps.ite ?_ ?_
    · split
      · rename_i x7 n8 heq9
        exact State.deliver_keeps h
      · rename_i x10 heq11
        exact State.countPort_keeps h
    · exact h
  clear_value s2
  have hs5 : Keeps b s0 s5 := by
    exact State.setFunc_keeps hs2
  clear_value s5
  have hs6 : Keeps b s0 s6 := by
    with_reducible refine State.raise_keeps ?_
    exact State.countPort_keeps hs5
  clear_value s6
  exact State.record_keeps hs6

theorem State.evalList_keeps {a1 a2 a3 a4} (h : Keeps b s0 s) : Keeps b s0 (State.evalList s a1 a2 a3 a4).1 := by
  induction a4 generalizing s a2 a3 with
  | nil => exact h
  | cons x r ih =>
    unfold State.evalList
    dsimp only
    have hk := State.evalSeal_keeps h (a1 := a1) (a2 := Tbl.get 0 s.flt ((s.entry a1.dom).fltBase + x)) (a3 := a3)
    split
    · exact ih h
    · split
      · exact State.countPort_keeps (Keeps.ite (State.hipri_keeps h) h)
      · split
        · exact State.sealFailed_keeps hk
        · split
          · exact State.takeAction_keeps hk
          · exact ih (State.takeAction_keeps hk)

theorem State.evaluate_keeps (h : Keeps b s0 s) {a1 a2} : Keeps b s0 (State.evaluate s a1 a2) := by
  unfold State.evaluate
  extract_lets v1 r2 s3
  have hs3 : Keeps b s0 s3 := by
    refine Keeps.ite ?_ ?_
    · with_reducible refine State.defaultRule_keeps ?_
      dsimp only [r2]
      exact State.evalList_keeps h
    · dsimp only [r2]
      exact State.evalList_keeps h
  clear_value s3
  exact State.freeSpace_keeps hs3

theorem State.failPort_keeps (h : Keeps b s0 s) {a1} : Keeps b s0 (State.failPort s a1) := by
  unfold State.failPort
  dsimp only
  split
  · rename_i x1 k2 heq3
    refine Keeps.ite ?_ ?_
    · exact State.stopGroup_keeps h
    · exact State.branchOut_keeps h
  · rename_i x4 heq5
    split
    · rename_i x6 heq7
      exact h
    · rename_i x8 heq9
      exact State.showPort_keeps h
    · rename_i x10 heq11
      exact State.toAwake_keeps h
    · rename_i x12 x13 x14 x15
      exact State.toStopped_keeps h

theorem State.flooded__keeps {f : State → State} (h : Keeps b s0 s) (hf : ∀ y, Keeps b s0 y → Keeps b s0 (f y)) {a1 a2 a3 a4} : Keeps b s0 (State.flooded_ s a1 a2 a3 a4 f) := by
  unfold State.flooded_
  refine Keeps.ite ?_ ?_
  · exact State.rlDone_keeps h
  · with_reducible refine State.flood_keeps ?_
    refine hf _ ?_
    exact State.remember_keeps h

theorem State.flrEnd_keeps (h : Keeps b s0 s) {a1 a2} : Keeps b s0 (State.flrEnd s a1 a2) := by
  unfold State.flrEnd
  extract_lets e1 left2 s3 s4 x5 s6
  have hs3 : Keeps b s0 s3 := by
    refine Keeps.foldl ?_ ?_
    · exact h
    · intro s7 x8 k9
      exact State.freeSpace_keeps k9
  clear_value s3
  have hs4 : Keeps b s0 s4 := by
    exact Keeps.tables hs3 ⟨rfl, rfl⟩ (fun k => ⟨by with_reducible exact RegFile.wf_clear _ _ k.regs, k.tarn, by with_reducible exact Tbl.wf_drop _ _ k.rings, k.objs, k.flt, k.routes, k.counts, k.halves, k.keys⟩) (fun _ => rfl)
  clear_value s4
  have hs6 : Keeps b s0 s6 := by
    exact State.setFunc_keeps hs4
  clear_value s6
  exact State.record_keeps hs6

theorem State.groupHoldArrives_keeps (h : Keeps b s0 s) {a1} : Keeps b s0 (State.groupHoldArrives s a1) := by
  unfold State.groupHoldArrives
  extract_lets g1
  split
  · rename_i x2 t3 heq4
    refine Keeps.ite ?_ ?_
    · exact State.enterGroupHold_keeps h
    · exact h
  · rename_i x5 heq6
    exact h

theorem State.flrHoldGroup_keeps (h : Keeps b s0 s) {a1} : Keeps b s0 (State.flrHoldGroup s a1) := by
  unfold State.flrHoldGroup
  extract_lets s1 a2
  have hs1 : Keeps b s0 s1 := by
    exact State.holdGroup_keeps h
  clear_value s1
  refine Keeps.ite ?_ ?_
  · exact State.groupHoldArrives_keeps hs1
  · exact hs1

theorem State.flrHoldPort_keeps (h : Keeps b s0 s) {a1} : Keeps b s0 (State.flrHoldPort s a1) := by
  unfold State.flrHoldPort
  refine Keeps.ite (State.setPort_keeps h) ?_
  extract_lets s1 x
  have h1 : Keeps b s0 s1 := State.holdPort_keeps h
  exact Keeps.ite (State.holdArrives_keeps h1) h1

theorem State.flrStart_keeps (h : Keeps b s0 s) {a1} : Keeps b s0 (State.flrStart s a1) := by
  unfold State.flrStart
  extract_lets aborts1 f2 s3 s4 s5 s6
  have hs3 : Keeps b s0 s3 := by
    with_reducible refine State.countDev_keeps ?_
    exact State.setFunc_keeps h
  clear_value s3
  have hs4 : Keeps b s0 s4 := by
    refine Keeps.foldl ?_ ?_
    · exact hs3
    · intro s7 x8 k9
      exact State.flrHoldGroup_keeps k9
  clear_value s4
  have hs5 : Keeps b s0 s5 := by
    refine Keeps.foldl ?_ ?_
    · exact hs4
    · intro s10 x11 k12
      exact State.flrHoldPort_keeps k12
  clear_value s5
  have hs6 : Keeps b s0 s6 := by
    refine Keeps.foldl ?_ ?_
    · exact hs5
    · intro s13 x14 k15
      exact State.flrPort_keeps k15
  clear_value s6
  with_reducible refine State.eraseKeys_keeps ?_
  exact State.flrRings_keeps hs6

theorem State.forcePort_keeps (h : Keeps b s0 s) {a1} : Keeps b s0 (State.forcePort s a1) := by
  unfold State.forcePort
  extract_lets p1 x2 held3 x4 s5
  have hs5 : Keeps b s0 s5 := by
    exact State.setCairn_keeps h
  clear_value s5
  exact State.showPort_keeps hs5

theorem State.nextTest_keeps {a1} (h : Keeps b s0 s) : Keeps b s0 (State.nextTest s a1) := by
  induction a1 generalizing s with
  | zero => exact h
  | succ n ih =>
    unfold State.nextTest
    dsimp only
    split
    · exact h
    · split
      · exact h
      · split
        · exact ih (State.complete_keeps (State.setCairn_keeps h))
        · exact State.beginTest_keeps (State.setCairn_keeps h)

theorem State.turnTests_keeps (h : Keeps b s0 s) : Keeps b s0 (State.turnTests s) := by
  unfold State.turnTests
  exact State.nextTest_keeps h

theorem State.forcedStart_keeps (h : Keeps b s0 s) {a1} : Keeps b s0 (State.forcedStart s a1) := by
  unfold State.forcedStart
  refine Keeps.ite ?_ ?_
  · with_reducible refine State.turnTests_keeps ?_
    with_reducible refine State.complete_keeps ?_
    extract_lets x1
    exact State.setCairn_keeps h
  · refine Keeps.ite ?_ ?_
    · refine Keeps.ite ?_ ?_
      · exact State.beginTest_keeps h
      · exact State.forcePort_keeps h
    · refine Keeps.ite ?_ ?_
      · exact State.beginTest_keeps h
      · refine Keeps.ite ?_ ?_
        · exact State.beginTest_keeps h
        · extract_lets x2
          with_reducible refine State.setCairn_keeps ?_
          exact State.linkDown_keeps h

theorem State.groupError_keeps (h : Keeps b s0 s) {a1} : Keeps b s0 (State.groupError s a1) := by
  unfold State.groupError
  extract_lets x1
  exact State.setGroup_keeps h

theorem State.groupHears_keeps (h : Keeps b s0 s) {a1 a2 a3 a4} : Keeps b s0 (State.groupHears s a1 a2 a3 a4) := by
  unfold State.groupHears
  extract_lets s1 s2 s3 x4
  have hs1 : Keeps b s0 s1 := by
    with_reducible refine State.countFrame_keeps ?_
    with_reducible refine State.advance_keeps ?_
    exact State.advance_keeps h
  clear_value s1
  have hs2 : Keeps b s0 s2 := by
    refine Keeps.ite ?_ ?_
    · exact hs1
    · exact State.promoteGroup_keeps hs1
  clear_value s2
  have hs3 : Keeps b s0 s3 := by
    exact State.examineRef_keeps hs2
  clear_value s3
  exact State.setGroup_keeps hs3

theorem State.gwHit_keeps (h : Keeps b s0 s) {a1} : Keeps b s0 (State.gwHit s a1) := by
  unfold State.gwHit
  split
  · rename_i x1 r2 heq3
    exact State.setRule_keeps h
  · rename_i x4 heq5
    exact h

theorem State.writeSend_keeps (h : Keeps b s0 s) {a1 a2 a3} : Keeps b s0 (State.writeSend s a1 a2 a3) := by
  unfold State.writeSend
  extract_lets x1 s2
  have hs2 : Keeps b s0 s2 := by
    exact State.tarnWrite_keeps h
  clear_value s2
  with_reducible refine State.writeSendHeader_keeps ?_
  exact State.setObj_keeps hs2

theorem State.requestSend_keeps (h : Keeps b s0 s) {a1 a2 a3 a4 a5} : Keeps b s0 (State.requestSend s a1 a2 a3 a4 a5) := by
  unfold State.requestSend
  extract_lets x1 p2 pt3 s4 c5
  have hs4 : Keeps b s0 s4 := by
    exact State.setObj_keeps h
  clear_value s4
  refine Keeps.ite ?_ ?_
  · refine Keeps.ite ?_ ?_
    · exact h
    · exact State.complete_keeps h
  · refine Keeps.ite ?_ ?_
    · refine Keeps.ite ?_ ?_
      · exact h
      · exact State.complete_keeps h
    · exact State.enterSet_keeps hs4

theorem State.gwPass_keeps (h : Keeps b s0 s) {a1 a2 a3} : Keeps b s0 (State.gwPass s a1 a2 a3) := by
  unfold State.gwPass
  extract_lets p1 e2 d3 ob4 s5
  have hs5 : Keeps b s0 s5 := by
    with_reducible refine State.writeSend_keeps ?_
    exact State.gwHit_keeps h
  clear_value s5
  refine Keeps.ite ?_ ?_
  · exact State.ruleDrop_keeps h
  · refine Keeps.ite ?_ ?_
    · refine Keeps.ite ?_ ?_
      · exact State.ruleDrop_keeps h
      · with_reducible refine State.routeOut_keeps ?_
        exact State.gwHit_keeps h
    · refine Keeps.ite ?_ ?_
      · exact State.ruleDrop_keeps h
      · refine Keeps.ite ?_ ?_
        · exact hs5
        · exact State.requestSend_keeps hs5

theorem State.gwReplace_keeps (h : Keeps b s0 s) {a1 a2} : Keeps b s0 (State.gwReplace s a1 a2) := by
  unfold State.gwReplace
  split
  · rename_i x1 r2 heq3
    exact State.setRule_keeps h
  · rename_i x4 heq5
    exact h

theorem State.gwRuleOp_keeps (h : Keeps b s0 s) {a1 a2 a3} : Keeps b s0 (State.gwRuleOp s a1 a2 a3) := by
  unfold State.gwRuleOp
  extract_lets i1 d2 foreign3 x4 x5 r6
  have hx4 : Keeps b s0 x4 := by
    exact State.setRule_keeps h
  clear_value x4
  refine Keeps.ite ?_ ?_
  · exact State.complete_keeps h
  · refine Keeps.ite ?_ ?_
    · exact State.complete_keeps h
    · refine Keeps.ite ?_ ?_
      · refine Keeps.ite ?_ ?_
        · exact State.complete_keeps h
        · with_reducible refine State.complete_keeps ?_
          exact Keeps.same hx4 ⟨rfl, rfl⟩ rfl rfl rfl rfl rfl rfl rfl rfl rfl rfl
      · refine Keeps.ite ?_ ?_
        · exact State.complete_keeps h
        · refine Keeps.ite ?_ ?_
          · exact State.complete_keeps h
          · refine Keeps.ite ?_ ?_
            · exact State.complete_keeps h
            · split
              · rename_i x7 heq8
                refine Keeps.ite ?_ ?_
                · with_reducible refine State.complete_keeps ?_
                  exact State.setRule_keeps h
                · exact State.complete_keeps h
              · rename_i x9 old10 heq11
                refine Keeps.ite ?_ ?_
                · exact State.complete_keeps h
                · with_reducible refine State.complete_keeps ?_
                  exact State.setRule_keeps h

theorem State.gwTake_keeps (h : Keeps b s0 s) {a1 a2} : Keeps b s0 (State.gwTake s a1 a2) := by
  unfold State.gwTake
  split
  · rename_i x1 heq2
    exact h
  · rename_i x3 old4 heq5
    refine Keeps.ite ?_ ?_
    · exact State.ruleDrop_keeps h
    · refine Keeps.ite ?_ ?_
      · with_reducible refine State.gwPass_keeps ?_
        exact State.gwReplace_keeps h
      · exact State.gwReplace_keeps h

theorem State.linkEntersUp_keeps (h : Keeps b s0 s) {a1} : Keeps b s0 (State.linkEntersUp s a1) := by
  unfold State.linkEntersUp
  extract_lets x1 s2
  have hs2 : Keeps b s0 s2 := by
    exact State.setLink_keeps h
  clear_value s2
  with_reducible refine State.fabEvt_keeps ?_
  with_reducible refine State.newTopo_keeps ?_
  exact State.topologyChanged_keeps hs2

theorem State.helloOp_keeps (h : Keeps b s0 s) {a1 a2} : Keeps b s0 (State.helloOp s a1 a2) := by
  unfold State.helloOp
  extract_lets l1 was2 c3 s4
  have hs4 : Keeps b s0 s4 := by
    exact State.setLink_keeps h
  clear_value s4
  refine Keeps.ite ?_ ?_
  · exact State.linkDown_keeps h
  · split
    · rename_i x5 heq6
      refine Keeps.ite ?_ ?_
      · exact State.enterKeying_keeps hs4
      · refine Keeps.ite ?_ ?_
        · exact State.linkEntersUp_keeps hs4
        · exact hs4
    · rename_i x7 heq8
      refine Keeps.ite ?_ ?_
      · with_reducible refine State.newTopo_keeps ?_
        exact State.topologyChanged_keeps hs4
      · exact State.fabricTime_keeps hs4
    · rename_i x9 x10 x11
      exact hs4

theorem State.holdOp_keeps (h : Keeps b s0 s) {a1 a2} : Keeps b s0 (State.holdOp s a1 a2) := by
  unfold State.holdOp
  refine Keeps.ite ?_ ?_
  · exact State.complete_keeps h
  · exact State.holdRequest_keeps h

theorem State.holdTimeEnds_keeps (h : Keeps b s0 s) {a1 a2} : Keeps b s0 (State.holdTimeEnds s a1 a2) := by
  unfold State.holdTimeEnds
  extract_lets x1
  refine Keeps.ite ?_ ?_
  · exact State.setPort_keeps h
  · exact State.setPort_keeps h

theorem State.noteBoot_keeps (h : Keeps b s0 s) {a1} : Keeps b s0 (State.noteBoot s a1) := by
  unfold State.noteBoot
  extract_lets a1 b2 old3 had4 reboot5 taken6 fresh7 x8
  exact Keeps.same h ⟨rfl, rfl⟩ rfl rfl rfl rfl rfl rfl rfl rfl rfl rfl

theorem State.holdTopo_keeps (h : Keeps b s0 s) {a1} : Keeps b s0 (State.holdTopo s a1) := by
  unfold State.holdTopo
  extract_lets before1 s2 x3 s4 same5
  have hs2 : Keeps b s0 s2 := by
    exact State.noteBoot_keeps h
  clear_value s2
  have hs4 : Keeps b s0 s4 := by
    exact Keeps.same hs2 ⟨rfl, rfl⟩ rfl rfl rfl rfl rfl rfl rfl rfl rfl rfl
  clear_value s4
  refine Keeps.ite ?_ ?_
  · exact hs4
  · exact State.topologyChanged_keeps hs4

theorem State.imgActivateOp_keeps (h : Keeps b s0 s) {a1 a2 a3} : Keeps b s0 (State.imgActivateOp s a1 a2 a3) := by
  unfold State.imgActivateOp
  extract_lets slot1
  split
  · rename_i x2 heq3
    refine Keeps.ite ?_ ?_
    · exact State.complete_keeps h
    · exact State.complete_keeps h
  · rename_i x4 i5 heq6
    refine Keeps.ite ?_ ?_
    · exact State.complete_keeps h
    · refine Keeps.ite ?_ ?_
      · exact State.complete_keeps h
      · refine Keeps.ite ?_ ?_
        · exact State.complete_keeps h
        · refine Keeps.ite ?_ ?_
          · exact State.complete_keeps h
          · exact State.beginActivation_keeps h

theorem State.stageWrite_keeps (h : Keeps b s0 s) {a1 a2 a3 a4} (he : State.stageWrite s a1 a2 a3 a4 = some t) : Keeps b s0 t := by
  unfold State.stageWrite at he
  dsimp only at he
  split at he
  · cases he
  · cases he; exact State.setCairn_keeps h

theorem State.imgWriteOp_keeps (h : Keeps b s0 s) {a1 a2 a3 a4} : Keeps b s0 (State.imgWriteOp s a1 a2 a3 a4) := by
  unfold State.imgWriteOp
  extract_lets off1 len2
  refine Keeps.ite ?_ ?_
  · exact State.complete_keeps h
  · refine Keeps.ite ?_ ?_
    · exact State.complete_keeps h
    · refine Keeps.ite ?_ ?_
      · exact State.complete_keeps h
      · split
        · rename_i x3 heq4
          exact State.complete_keeps h
        · rename_i x5 s6 heq7
          with_reducible refine State.complete_keeps ?_
          exact State.stageWrite_keeps h heq7

theorem State.isolate_keeps (h : Keeps b s0 s) {a1 a2 a3} : Keeps b s0 (State.isolate s a1 a2 a3) := by
  unfold State.isolate
  extract_lets g1 x2 s3 g4 s5
  have hs3 : Keeps b s0 s3 := by
    exact State.setBranch_keeps h
  clear_value s3
  have hs5 : Keeps b s0 s5 := by
    exact State.setGroup_keeps hs3
  clear_value s5
  with_reducible refine State.grpEvt_keeps ?_
  exact State.grpEvt_keeps hs5

theorem State.joinBranch_keeps (h : Keeps b s0 s) {a1 a2} : Keeps b s0 (State.joinBranch s a1 a2) := by
  unfold State.joinBranch
  extract_lets x1 s2 s3 g4 s5
  have hs2 : Keeps b s0 s2 := by
    exact State.setBranch_keeps h
  clear_value s2
  have hs3 : Keeps b s0 s3 := by
    exact State.grpEvt_keeps hs2
  clear_value s3
  have hs5 : Keeps b s0 s5 := by
    refine Keeps.ite ?_ ?_
    · exact State.groupGoes_keeps hs3
    · exact State.groupGoes_keeps hs3
  clear_value s5
  refine Keeps.ite ?_ ?_
  · exact State.groupHoldArrives_keeps hs5
  · exact hs3

theorem State.joinFrame_keeps (h : Keeps b s0 s) {a1 a2 a3 a4} : Keeps b s0 (State.joinFrame s a1 a2 a3 a4) := by
  unfold State.joinFrame
  extract_lets f1 x2
  with_reducible refine State.driveOthers_keeps ?_
  exact State.setGroup_keeps h

theorem State.keyDone_keeps (h : Keeps b s0 s) {a1 a2 a3 a4} : Keeps b s0 (State.keyDone s a1 a2 a3 a4) := by
  unfold State.keyDone
  extract_lets s1
  have hs1 : Keeps b s0 s1 := by
    exact State.record_keeps h
  clear_value s1
  exact State.complete_keeps hs1

theorem State.keyEraseOp_keeps (h : Keeps b s0 s) {a1 a2} : Keeps b s0 (State.keyEraseOp s a1 a2) := by
  unfold State.keyEraseOp
  extract_lets h1
  refine Keeps.ite ?_ ?_
  · exact State.keyDone_keeps h
  · refine Keeps.ite ?_ ?_
    · exact State.keyDone_keeps h
    · with_reducible refine State.keyDone_keeps ?_
      with_reducible refine State.dropKeyless_keeps ?_
      exact State.setKey_keeps h

theorem State.keyGenOp_keeps (h : Keeps b s0 s) {a1 a2} : Keeps b s0 (State.keyGenOp s a1 a2) := by
  unfold State.keyGenOp
  extract_lets use1 st2 key3
  refine Keeps.ite ?_ ?_
  · exact State.keyDone_keeps h
  · dsimp only
    split
    · rename_i x4 heq5
      exact State.keyDone_keeps h
    · rename_i x6 h7 heq8
      with_reducible refine State.keyDone_keeps ?_
      with_reducible refine State.hostWrite_keeps ?_
      with_reducible refine State.setKey_keeps ?_
      exact State.draw_keeps h

theorem State.keyLoadOp_keeps (h : Keeps b s0 s) {a1 a2 a3} : Keeps b s0 (State.keyLoadOp s a1 a2 a3) := by
  unfold State.keyLoadOp
  extract_lets use1 st2 gen3
  refine Keeps.ite ?_ ?_
  · exact State.keyDone_keeps h
  · dsimp only
    split
    · rename_i x4 heq5
      exact State.keyDone_keeps h
    · rename_i x6 p7 heq8
      refine Keeps.ite ?_ ?_
      · exact State.keyDone_keeps h
      · split
        · rename_i x9 heq10
          exact State.keyDone_keeps h
        · rename_i x11 h12 heq13
          with_reducible refine State.keyDone_keeps ?_
          exact State.setKey_keeps h

theorem State.keyxOp_keeps (h : Keeps b s0 s) {a1 a2} : Keeps b s0 (State.keyxOp s a1 a2) := by
  unfold State.keyxOp
  extract_lets l1 x2 n3
  dsimp only
  split
  · rename_i x4 x5 draw6 mine7 h8 heq9 heq10
    refine Keeps.ite ?_ ?_
    · with_reducible refine State.setLink_keeps ?_
      exact State.setKey_keeps h
    · exact State.fabEvt_keeps h
  · rename_i x11 x12 x13
    exact State.fabEvt_keeps h

theorem State.ownerErase_keeps (h : Keeps b s0 s) : Keeps b s0 (State.ownerErase s) := by
  unfold State.ownerErase
  with_reducible refine State.eraseRecords_keeps ?_
  with_reducible refine State.defaultPartition_keeps ?_
  exact State.eraseData_keeps h

theorem State.setLife_keeps (h : Keeps false s0 s) {a1} : Keeps false s0 (State.setLife s a1) := by
  unfold State.setLife
  exact State.record_keeps (State.setOtp_keeps h (fun c => nomatch c))

theorem State.killDus_keeps (h : Keeps false s0 s) {a1} : Keeps false s0 (State.killDus s a1) := by
  unfold State.killDus
  extract_lets s1 x2
  have hs1 : Keeps false s0 s1 := by
    exact State.ownerErase_keeps h
  clear_value s1
  with_reducible refine State.setLife_keeps ?_
  with_reducible refine State.setOtp_keeps ?_ ?_
  · exact hs1
  · intro x3
    dsimp only

theorem State.linkStart_keeps (h : Keeps b s0 s) {a1 a2 a3 a4} : Keeps b s0 (State.linkStart s a1 a2 a3 a4) := by
  unfold State.linkStart
  extract_lets l1 t2 g3 s4
  have hs4 : Keeps b s0 s4 := by
    exact State.setLink_keeps h
  clear_value s4
  with_reducible refine State.dropFrom_keeps ?_
  with_reducible refine State.emitRidge_keeps ?_
  exact State.takeWire_keeps hs4

theorem State.logReadOp_keeps (h : Keeps b s0 s) {a1 a2} : Keeps b s0 (State.logReadOp s a1 a2) := by
  unfold State.logReadOp
  extract_lets count1
  refine Keeps.ite ?_ ?_
  · exact State.complete_keeps h
  · refine Keeps.ite ?_ ?_
    · exact State.complete_keeps h
    · dsimp only
      with_reducible refine State.complete_keeps ?_
      exact State.hostWrite_keeps h

theorem State.loseObjects_keeps (h : Keeps b s0 s) {a1} : Keeps b s0 (State.loseObjects s a1) := by
  unfold State.loseObjects
  extract_lets objs1
  exact Keeps.tables h ⟨rfl, rfl⟩ (fun k => ⟨k.regs, k.tarn, k.rings, by with_reducible exact Tbl.wf_mapVal _ _ k.objs, k.flt, k.routes, k.counts, k.halves, k.keys⟩) (fun _ => rfl)

theorem State.makeOther_keeps (h : Keeps b s0 s) {a1} : Keeps b s0 (State.makeOther s a1) := by
  unfold State.makeOther
  extract_lets x1 s2
  have hs2 : Keeps b s0 s2 := by
    exact State.setComp_keeps h
  clear_value s2
  with_reducible refine State.crnEvent_keeps ?_
  exact State.record_keeps hs2

theorem State.noteRefSof_keeps (h : Keeps b s0 s) {a1 a2 a3 a4 a5} : Keeps b s0 (State.noteRefSof s a1 a2 a3 a4 a5) := by
  unfold State.noteRefSof
  extract_lets g1
  refine Keeps.ite ?_ ?_
  · exact h
  · refine Keeps.ite ?_ ?_
    · exact State.setGroup_keeps h
    · exact State.setGroup_keeps h

theorem State.objReadOp_keeps (h : Keeps b s0 s) {a1 a2 a3} : Keeps b s0 (State.objReadOp s a1 a2 a3) := by
  unfold State.objReadOp
  extract_lets o1 ob2
  refine Keeps.ite ?_ ?_
  · exact State.complete_keeps h
  · refine Keeps.ite ?_ ?_
    · exact State.complete_keeps h
    · refine Keeps.ite ?_ ?_
      · exact State.complete_keeps h
      · refine Keeps.ite ?_ ?_
        · exact State.setObj_keeps h
        · exact State.startCopy_keeps h

theorem State.objSendOp_keeps (h : Keeps b s0 s) {a1 a2 a3} : Keeps b s0 (State.objSendOp s a1 a2 a3) := by
  unfold State.objSendOp
  extract_lets o1 ob2
  refine Keeps.ite ?_ ?_
  · exact State.complete_keeps h
  · refine Keeps.ite ?_ ?_
    · exact State.complete_keeps h
    · refine Keeps.ite ?_ ?_
      · exact State.complete_keeps h
      · refine Keeps.ite ?_ ?_
        · exact State.complete_keeps h
        · exact State.requestSend_keeps h

theorem State.objWriteOp_keeps (h : Keeps b s0 s) {a1 a2 a3 a4} : Keeps b s0 (State.objWriteOp s a1 a2 a3 a4) := by
  unfold State.objWriteOp
  extract_lets o1 len2 send3 ob4 s5
  have hs5 : Keeps b s0 s5 := by
    exact State.writeSend_keeps h
  clear_value s5
  refine Keeps.ite ?_ ?_
  · exact State.complete_keeps h
  · refine Keeps.ite ?_ ?_
    · exact State.complete_keeps h
    · refine Keeps.ite ?_ ?_
      · exact State.complete_keeps h
      · refine Keeps.ite ?_ ?_
        · exact State.complete_keeps h
        · refine Keeps.ite ?_ ?_
          · exact State.complete_keeps h
          · refine Keeps.ite ?_ ?_
            · exact State.requestSend_keeps hs5
            · exact State.complete_keeps hs5

theorem State.offsetOp_keeps (h : Keeps b s0 s) {a1 a2} : Keeps b s0 (State.offsetOp s a1 a2) := by
  unfold State.offsetOp
  extract_lets src1 steers2 s3
  have hs3 : Keeps b s0 s3 := by
    refine Keeps.ite ?_ ?_
    · exact State.offerSample_keeps h
    · exact h
  clear_value s3
  refine Keeps.ite ?_ ?_
  · exact State.complete_keeps h
  · refine Keeps.ite ?_ ?_
    · exact State.complete_keeps h
    · exact State.complete_keeps hs3

theorem State.ownFn_keeps {f : State → State} (h : Keeps b s0 s) (hf : ∀ y, Keeps b s0 y → Keeps b s0 (f y)) {a1 a2 a3} : Result.All (Keeps b s0) (State.ownFn s a1 a2 a3 f) := by
  unfold State.ownFn
  refine Result.all_ite ?_ ?_
  · refine Result.all_next ?_
    exact h
  · refine Result.all_ite ?_ ?_
    · with_reducible refine finish_keeps ?_
      exact hf _ h
    · with_reducible refine finish_keeps ?_
      exact State.crossDomain_keeps h

theorem State.ownerEnrolOp_keeps (h : Keeps false s0 s) {a1 a2 a3} : Keeps false s0 (State.ownerEnrolOp s a1 a2 a3) := by
  unfold State.ownerEnrolOp
  refine Keeps.ite ?_ ?_
  · exact State.complete_keeps h
  · refine Keeps.ite ?_ ?_
    · exact State.complete_keeps h
    · refine Keeps.ite ?_ ?_
      · exact State.complete_keeps h
      · refine Keeps.ite ?_ ?_
        · exact State.complete_keeps h
        · dsimp only
          split
          · rename_i x1 heq2
            exact State.complete_keeps h
          · rename_i x3 i4 heq5
            with_reducible refine State.complete_keeps ?_
            with_reducible refine State.setLife_keeps ?_
            with_reducible refine State.setOtp_keeps ?_ ?_
            · exact State.draw_keeps h
            · intro x6
              dsimp only

theorem State.passFifo_keeps (h : Keeps b s0 s) {a1} : Keeps b s0 (State.passFifo s a1) := by
  unfold State.passFifo
  extract_lets x1
  refine Keeps.foldl ?_ ?_
  · exact State.setPort_keeps h
  · intro s2 x3 k4
    exact State.stageFrame_keeps k4

theorem State.pfReset_keeps (h : Keeps b s0 s) : Keeps b s0 (State.pfReset s) := by
  unfold State.pfReset
  extract_lets vfs1 x2 s3
  have hs3 : Keeps b s0 s3 := by
    exact Keeps.same h ⟨rfl, rfl⟩ rfl rfl rfl rfl rfl rfl rfl rfl rfl rfl
  clear_value s3
  refine Keeps.foldl ?_ ?_
  · exact hs3
  · intro s4 x5 k6
    refine Keeps.ite ?_ ?_
    · exact k6
    · exact State.flrStart_keeps k6

theorem State.planCold_keeps (h : Keeps b s0 s) {a1} : Keeps b s0 (State.planCold s a1) := by
  unfold State.planCold
  extract_lets x1
  exact State.setGroup_keeps h

theorem State.powerOn_keeps (h : Keeps b s0 s) : Keeps b s0 (State.powerOn s) := by
  unfold State.powerOn
  exact Keeps.tables h ⟨rfl, rfl⟩ (fun _ => ⟨rfl, rfl, rfl, rfl, rfl, rfl, rfl, rfl, rfl⟩) (fun _ => rfl)

theorem State.waitFrom_keeps (h : Keeps b s0 s) {a1 a2} : Keeps b s0 (State.waitFrom s a1 a2) := by
  unfold State.waitFrom
  exact State.advance_keeps h

theorem State.ptpTurn_keeps (h : Keeps b s0 s) {a1 a2} : Keeps b s0 (State.ptpTurn s a1 a2) := by
  unfold State.ptpTurn
  extract_lets s1 x2
  have hs1 : Keeps b s0 s1 := by
    exact State.waitFrom_keeps h
  clear_value s1
  exact Keeps.same hs1 ⟨rfl, rfl⟩ rfl rfl rfl rfl rfl rfl rfl rfl rfl rfl

theorem State.pulseEnds_keeps (h : Keeps b s0 s) {a1 a2} : Keeps b s0 (State.pulseEnds s a1 a2) := by
  unfold State.pulseEnds
  extract_lets s1 x2 p3 n4
  have hs1 : Keeps b s0 s1 := by
    with_reducible refine State.emit_keeps ?_
    exact State.advance_keeps h
  clear_value s1
  refine Keeps.ite ?_ ?_
  · with_reducible refine State.raise_keeps ?_
    with_reducible refine State.setReg_keeps ?_
    exact State.setPulse_keeps hs1
  · exact State.setPulse_keeps hs1

theorem State.pulseStarts_keeps (h : Keeps b s0 s) {a1} : Keeps b s0 (State.pulseStarts s a1) := by
  unfold State.pulseStarts
  extract_lets p1 raw2 s3
  have hs3 : Keeps b s0 s3 := by
    with_reducible refine State.emit_keeps ?_
    exact State.advance_keeps h
  clear_value s3
  exact State.setPulse_keeps hs3

theorem State.pushFifo_keeps (h : Keeps b s0 s) {a1 a2} : Keeps b s0 (State.pushFifo s a1 a2) := by
  unfold State.pushFifo
  extract_lets x1
  refine Keeps.ite ?_ ?_
  · exact State.setPort_keeps h
  · exact State.countPort_keeps h

theorem State.receiveOp_keeps (h : Keeps b s0 s) {a1 a2 a3 a4} : Keeps b s0 (State.receiveOp s a1 a2 a3 a4) := by
  unfold State.receiveOp
  extract_lets s1 corrected2 x3 s4 s5 s6 s7 s8 r9
  have hs1 : Keeps b s0 s1 := by
    with_reducible refine State.advance_keeps ?_
    exact State.advance_keeps h
  clear_value s1
  have hs4 : Keeps b s0 s4 := by
    exact State.setPort_keeps hs1
  clear_value s4
  have hs5 : Keeps b s0 s5 := by
    exact State.countFrame_keeps hs4
  clear_value s5
  have hs6 : Keeps b s0 s6 := by
    exact State.ackReset_keeps hs5
  clear_value s6
  have hs7 : Keeps b s0 s7 := by
    exact State.promoteBy_keeps hs6
  clear_value s7
  have hs8 : Keeps b s0 s8 := by
    dsimp only [s8]
    split
    · rename_i x10 k11 heq12
      with_reducible refine State.setGroup_keeps ?_
      exact State.examineRef_keeps hs7
    · rename_i x13 heq14
      exact hs7
  clear_value s8
  refine Keeps.ite ?_ ?_
  · exact State.pushFifo_keeps hs8
  · exact State.stageFrame_keeps hs8

theorem State.refLost_keeps (h : Keeps b s0 s) {a1} : Keeps b s0 (State.refLost s a1) := by
  unfold State.refLost
  extract_lets x1
  refine Keeps.ite ?_ ?_
  · exact h
  · refine Keeps.ite ?_ ?_
    · with_reducible refine State.portEvt_keeps ?_
      exact State.toStopped_keeps h
    · exact State.setPort_keeps h

theorem State.refreshTopo_keeps (h : Keeps b s0 s) {a1 a2} : Keeps b s0 (State.refreshTopo s a1 a2) := by
  unfold State.refreshTopo
  extract_lets x1
  exact Keeps.same h ⟨rfl, rfl⟩ rfl rfl rfl rfl rfl rfl rfl rfl rfl rfl

theorem State.relay_keeps (h : Keeps b s0 s) {a1 a2} : Keeps b s0 (State.relay s a1 a2) := by
  unfold State.relay
  with_reducible refine State.driveOthers_keeps ?_
  extract_lets x1
  exact State.setGroup_keeps h

theorem State.replayTest_keeps (h : Keeps b s0 s) : Keeps b s0 (State.replayTest s) := by
  unfold State.replayTest
  extract_lets cmds1 holds2 x3 s4 s5
  have hs4 : Keeps b s0 s4 := by
    exact State.setCairn_keeps h
  clear_value s4
  have hs5 : Keeps b s0 s5 := by
    refine Keeps.foldl ?_ ?_
    · exact hs4
    · intro s6 x7 k8
      split
      · rename_i h9 d10 p11 c12
        refine Keeps.ite ?_ ?_
        · exact State.portRequest_keeps k8
        · exact k8
      · rename_i h13 p14
        exact State.reclaimStop_keeps k8
      · rename_i h15 x16 x17
        exact k8
  clear_value s5
  refine Keeps.foldl ?_ ?_
  · exact hs5
  · intro s18 x19 k20
    exact State.holdPort_keeps k20

theorem State.replyOp_keeps (h : Keeps b s0 s) {a1 a2 a3} : Keeps b s0 (State.replyOp s a1 a2 a3) := by
  unfold State.replyOp
  extract_lets l1 t2 t3 t4
  dsimp only
  split
  · rename_i x5 heq6
    exact h
  · rename_i x7 q8 x9 heq10
    refine Keeps.ite ?_ ?_
    · exact h
    · refine Keeps.ite ?_ ?_
      · with_reducible refine State.offerSample_keeps ?_
        exact State.setLink_keeps h
      · exact State.setLink_keeps h

theorem State.reportLost_keeps (h : Keeps b s0 s) : Keeps b s0 (State.reportLost s) := by
  unfold State.reportLost
  extract_lets l1
  refine Keeps.ite ?_ ?_
  · exact h
  · exact State.setLog_keeps h

theorem State.whileUp_keeps {f : State → State} (h : Keeps b s0 s) (hf : ∀ y, Keeps b s0 y → Keeps b s0 (f y)) : Result.All (Keeps b s0) (State.whileUp s f) := by
  unfold State.whileUp
  refine Result.all_ite ?_ ?_
  · with_reducible refine finish_keeps ?_
    exact hf _ h
  · refine Result.all_next ?_
    exact h

theorem State.respond_keeps (h : Keeps b s0 s) {a1 a2 a3 a4} : Keeps b s0 (State.respond s a1 a2 a3 a4) := by
  unfold State.respond
  exact State.answer_keeps h

theorem State.request_keeps {f : State → State} (h : Keeps b s0 s) (hf : ∀ y, Keeps b s0 y → Keeps b s0 (f y)) {a1 a2 a3 a4} : Result.All (Keeps b s0) (State.request s a1 a2 a3 a4 f) := by
  unfold State.request
  with_reducible refine State.whileUp_keeps ?_ ?_
  · exact h
  · intro s1 k2
    refine Keeps.ite ?_ ?_
    · exact State.respond_keeps k2
    · refine Keeps.ite ?_ ?_
      · exact State.respond_keeps k2
      · exact hf _ k2

theorem State.restorePort_keeps (h : Keeps b s0 s) {a1} : Keeps b s0 (State.restorePort s a1) := by
  unfold State.restorePort
  extract_lets p1 x2 due3
  refine Keeps.ite ?_ ?_
  · refine Keeps.ite ?_ ?_
    · exact State.setPort_keeps h
    · exact State.setPort_keeps h
  · refine Keeps.ite ?_ ?_
    · exact h
    · refine Keeps.ite ?_ ?_
      · exact State.setPort_keeps h
      · with_reducible refine State.holdArrives_keeps ?_
        exact State.showPort_keeps h

theorem State.spendChallenge_keeps (h : Keeps b s0 s) : Keeps b s0 (State.spendChallenge s) := by
  unfold State.spendChallenge
  extract_lets x1
  exact Keeps.same h ⟨rfl, rfl⟩ rfl rfl rfl rfl rfl rfl rfl rfl rfl rfl

theorem State.signedOp_keeps {f : State → State} (h : Keeps b s0 s) (hf : ∀ y, Keeps b s0 y → Keeps b s0 (f y)) {a1 a2 a3} : Keeps b s0 (State.signedOp s a1 a2 a3 f) := by
  unfold State.signedOp
  refine Keeps.ite ?_ ?_
  · exact State.complete_keeps h
  · refine Keeps.ite ?_ ?_
    · exact State.complete_keeps h
    · refine Keeps.ite ?_ ?_
      · exact State.complete_keeps h
      · refine Keeps.ite ?_ ?_
        · exact State.complete_keeps h
        · extract_lets good1 s2
          have hs2 : Keeps b s0 s2 := by
            exact State.spendChallenge_keeps h
          clear_value s2
          refine Keeps.ite ?_ ?_
          · with_reducible refine State.complete_keeps ?_
            exact hf _ hs2
          · exact State.complete_keeps hs2

theorem State.retireOp_keeps (h : Keeps false s0 s) {a1 a2 a3} : Keeps false s0 (State.retireOp s a1 a2 a3) := by
  unfold State.retireOp
  refine Keeps.ite ?_ ?_
  · refine Keeps.ite ?_ ?_
    · exact State.complete_keeps h
    · refine Keeps.ite ?_ ?_
      · exact State.complete_keeps h
      · with_reducible refine State.complete_keeps ?_
        exact State.killDus_keeps h
  · with_reducible refine State.signedOp_keeps ?_ ?_
    · exact h
    · intro s1 k2
      exact State.killDus_keeps k2

theorem State.returnPort_keeps (h : Keeps b s0 s) {a1} : Keeps b s0 (State.returnPort s a1) := by
  unfold State.returnPort
  extract_lets x1
  refine Keeps.ite ?_ ?_
  · exact h
  · refine Keeps.ite ?_ ?_
    · exact State.showPort_keeps h
    · refine Keeps.ite ?_ ?_
      · exact State.showPort_keeps h
      · with_reducible refine State.holdArrives_keeps ?_
        exact State.showPort_keeps h

theorem State.rlTake_keeps {f : State → State} (h : Keeps b s0 s) (hf : ∀ y, Keeps b s0 y → Keeps b s0 (f y)) {a1 a2} : Result.All (Keeps b s0) (State.rlTake s a1 a2 f) := by
  unfold State.rlTake
  extract_lets f1 l2 s3
  have hs3 : Keeps b s0 s3 := by
    refine Keeps.ite ?_ ?_
    · exact State.setLink_keeps h
    · exact h
  clear_value s3
  refine Result.all_ite ?_ ?_
  · refine Result.all_next ?_
    exact h
  · refine Result.all_ite ?_ ?_
    · with_reducible refine finish_keeps ?_
      with_reducible refine State.rlDone_keeps ?_
      exact State.countLink_keeps h
    · refine Result.all_ite ?_ ?_
      · with_reducible refine finish_keeps ?_
        with_reducible refine State.rlDone_keeps ?_
        exact State.countLink_keeps hs3
      · refine Result.all_ite ?_ ?_
        · with_reducible refine finish_keeps ?_
          with_reducible refine State.rlDone_keeps ?_
          exact State.countLink_keeps hs3
        · with_reducible refine finish_keeps ?_
          refine hf _ ?_
          exact State.countLink_keeps hs3

theorem State.transit_keeps (h : Keeps b s0 s) {a1 a2} : Keeps b s0 (State.transit s a1 a2) := by
  unfold State.transit
  extract_lets g1
  split
  · rename_i x2 j3 heq4
    refine Keeps.ite ?_ ?_
    · exact State.pushLink_keeps h
    · exact State.wrapOnto_keeps h
  · rename_i x5 heq6
    with_reducible refine State.rlDone_keeps ?_
    exact State.countLink_keeps h

theorem State.routedOp_keeps (h : Keeps b s0 s) {a1 a2} : Keeps b s0 (State.routedOp s a1 a2) := by
  unfold State.routedOp
  refine Keeps.ite ?_ ?_
  · dsimp only
    refine Keeps.ite ?_ ?_
    · with_reducible refine State.flood_keeps ?_
      exact State.arriveRouted_keeps h
    · with_reducible refine State.rlDone_keeps ?_
      exact State.arriveRouted_keeps h
  · refine Keeps.ite ?_ ?_
    · with_reducible refine State.rlDone_keeps ?_
      exact State.arriveRouted_keeps h
    · exact State.transit_keeps h

theorem State.rtReadOp_keeps (h : Keeps b s0 s) {a1 a2} : Keeps b s0 (State.rtReadOp s a1 a2) := by
  unfold State.rtReadOp
  extract_lets n1
  refine Keeps.ite ?_ ?_
  · exact State.complete_keeps h
  · refine Keeps.ite ?_ ?_
    · exact State.complete_keeps h
    · refine Keeps.ite ?_ ?_
      · exact State.complete_keeps h
      · with_reducible refine State.complete_keeps ?_
        exact State.hostWrite_keeps h

theorem State.sampleAge_keeps (h : Keeps b s0 s) {a1} : Keeps b s0 (State.sampleAge s a1) := by
  unfold State.sampleAge
  extract_lets x1 s2
  have hs2 : Keeps b s0 s2 := by
    exact State.setCairn_keeps h
  clear_value s2
  refine Keeps.foldl ?_ ?_
  · exact hs2
  · intro s3 x4 k5
    extract_lets v6 x7 s8
    have hs8 : Keeps b s0 s8 := by
      exact State.setCairn_keeps k5
    clear_value s8
    refine Keeps.ite ?_ ?_
    · exact State.record_keeps hs8
    · exact k5

theorem State.samplePace_keeps (h : Keeps b s0 s) {a1} : Keeps b s0 (State.samplePace s a1) := by
  unfold State.samplePace
  extract_lets x1 s2 limit3
  have hs2 : Keeps b s0 s2 := by
    exact State.setCairn_keeps h
  clear_value s2
  refine Keeps.foldl ?_ ?_
  · exact hs2
  · intro s4 x5 k6
    extract_lets v7 x8
    dsimp only
    refine Keeps.ite ?_ ?_
    · with_reducible refine State.crnEvent_keeps ?_
      with_reducible refine State.record_keeps ?_
      exact State.setCairn_keeps k6
    · exact State.setCairn_keeps k6

theorem State.sampleRail_keeps (h : Keeps b s0 s) {a1} : Keeps b s0 (State.sampleRail s a1) := by
  unfold State.sampleRail
  extract_lets x1 s2
  have hs2 : Keeps b s0 s2 := by
    exact State.setCairn_keeps h
  clear_value s2
  refine Keeps.foldl ?_ ?_
  · exact hs2
  · intro s3 x4 k5
    extract_lets v6 x7
    dsimp only
    refine Keeps.ite ?_ ?_
    · with_reducible refine State.crnEvent_keeps ?_
      with_reducible refine State.record_keeps ?_
      exact State.setCairn_keeps k5
    · exact State.setCairn_keeps k5

theorem State.sampleTemp_keeps (h : Keeps b s0 s) {a1} : Keeps b s0 (State.sampleTemp s a1) := by
  unfold State.sampleTemp
  extract_lets c1 felt2 s3 c4 s5
  have hs3 : Keeps b s0 s3 := by
    exact State.setCairn_keeps h
  clear_value s3
  have hs5 : Keeps b s0 s5 := by
    exact State.setCairn_keeps hs3
  clear_value s5
  exact State.alertActs_keeps hs5

theorem State.scan_keeps (h : Keeps b s0 s) : Keeps b s0 (State.scan s) := by
  unfold State.scan
  extract_lets cells1 x2 x3
  have hx2 : Keeps b s0 x2 := by
    exact State.draw_keeps h
  clear_value x2
  exact Keeps.same hx2 ⟨rfl, rfl⟩ rfl rfl rfl rfl rfl rfl rfl rfl rfl rfl

theorem State.violation_keeps (h : Keeps b s0 s) {a1 a2 a3} : Keeps b s0 (State.violation s a1 a2 a3) := by
  unfold State.violation
  extract_lets x1 x2 s3
  have hs3 : Keeps b s0 s3 := by
    with_reducible refine State.grpEvt_keeps ?_
    exact State.setBranch_keeps h
  clear_value s3
  refine Keeps.ite ?_ ?_
  · exact State.isolate_keeps hs3
  · exact hs3

theorem State.violations_keeps (h : Keeps b s0 s) {a1 a2 a3} : Keeps b s0 (State.violations s a1 a2 a3) := by
  unfold State.violations
  refine Keeps.foldl ?_ ?_
  · exact h
  · intro s1 x2 k3
    exact State.violation_keeps k3

theorem State.scheduledSof_keeps (h : Keeps b s0 s) {a1 a2 a3 a4} : Keeps b s0 (State.scheduledSof s a1 a2 a3 a4) := by
  unfold State.scheduledSof
  refine Keeps.ite ?_ ?_
  · exact State.relay_keeps h
  · split
    · rename_i x1 heq2
      with_reducible refine State.ignoreBranch_keeps ?_
      exact State.violation_keeps h
    · rename_i x3 fst4 e5 heq6
      refine Keeps.ite ?_ ?_
      · with_reducible refine State.ignoreBranch_keeps ?_
        exact State.violation_keeps h
      · refine Keeps.ite ?_ ?_
        · with_reducible refine State.violations_keeps ?_
          with_reducible refine State.cutFrame_keeps ?_
          exact State.relay_keeps h
        · exact State.relay_keeps h

theorem State.scrubInputs_keeps (h : Keeps b s0 s) {a1} : Keeps b s0 (State.scrubInputs s a1) := by
  unfold State.scrubInputs
  extract_lets x1
  exact Keeps.same h ⟨rfl, rfl⟩ rfl rfl rfl rfl rfl rfl rfl rfl rfl rfl

theorem State.scrubAhead_keeps (h : Keeps b s0 s) {a1 a2} : Keeps b s0 (State.scrubAhead s a1 a2) := by
  unfold State.scrubAhead
  extract_lets x1
  exact State.setPort_keeps h

theorem State.scrubTarn_keeps (h : Keeps b s0 s) {a1} : Keeps b s0 (State.scrubTarn s a1) := by
  unfold State.scrubTarn
  refine Keeps.ite ?_ ?_
  · with_reducible refine State.loseObjects_keeps ?_
    exact Keeps.tables h ⟨rfl, rfl⟩ (fun k => ⟨k.regs, by with_reducible exact Tbl.wf_drop _ _ k.tarn, k.rings, k.objs, k.flt, k.routes, k.counts, k.halves, k.keys⟩) (fun _ => rfl)
  · extract_lets r1 b2
    refine Keeps.ite ?_ ?_
    · exact State.scrubInputs_keeps h
    · refine Keeps.ite ?_ ?_
      · exact State.scrubAhead_keeps h
      · split
        · rename_i x3 a4 heq5
          exact State.dropStaged_keeps h
        · rename_i x6 heq7
          exact h

theorem State.scrubLog_keeps (h : Keeps b s0 s) {a1} : Keeps b s0 (State.scrubLog s a1) := by
  unfold State.scrubLog
  extract_lets x1
  exact State.setLog_keeps h

theorem State.scrubActs_keeps (h : Keeps b s0 s) {a1} : Keeps b s0 (State.scrubActs s a1) := by
  unfold State.scrubActs
  split
  · rename_i x1 line2
    exact State.scrubTarn_keeps h
  · rename_i x3 element4
    exact Keeps.tables h ⟨rfl, rfl⟩ (fun k => ⟨k.regs, k.tarn, k.rings, k.objs, by with_reducible exact Tbl.wf_put _ _ _ k.flt, k.routes, k.counts, k.halves, k.keys⟩) (fun _ => rfl)
  · rename_i x5 e6
    split
    · rename_i x7 heq8
      exact h
    · rename_i x9 heq10
      exact h
    · rename_i x11 x12 x13
      exact State.engineLost_keeps h
  · rename_i x14 c15
    exact State.coreLost_keeps h
  · rename_i x16
    refine Keeps.ite ?_ ?_
    · with_reducible refine State.restartFor_keeps ?_
      exact State.spoil_keeps h
    · exact h
  · rename_i x17 pos18
    exact State.scrubLog_keeps h

theorem State.secmdRequest_keeps (h : Keeps b s0 s) {a1 a2} : Result.All (Keeps b s0) (State.secmdRequest s a1 a2) := by
  unfold State.secmdRequest
  with_reducible refine State.ownedWrite_keeps ?_ ?_
  · exact h
  · intro s1 k2
    exact State.writeSecmd_keeps k2

theorem State.selfTestOp_keeps (h : Keeps b s0 s) {a1 a2} : Keeps b s0 (State.selfTestOp s a1 a2) := by
  unfold State.selfTestOp
  extract_lets kind1 i2 limit3 t4 x5
  refine Keeps.ite ?_ ?_
  · exact State.complete_keeps h
  · refine Keeps.ite ?_ ?_
    · exact State.complete_keeps h
    · with_reducible refine State.turnTests_keeps ?_
      exact State.setCairn_keeps h

theorem State.sendRef_keeps (h : Keeps b s0 s) {a1 a2 a3} : Keeps b s0 (State.sendRef s a1 a2 a3) := by
  unfold State.sendRef
  extract_lets a1 sof2 x3
  refine Keeps.ite ?_ ?_
  · exact State.driveRef_keeps h
  · exact State.setGroup_keeps h

theorem State.sendCold_keeps (h : Keeps b s0 s) {a1} : Keeps b s0 (State.sendCold s a1) := by
  unfold State.sendCold
  extract_lets x1 g2
  refine Keeps.ite ?_ ?_
  · with_reducible refine State.planCold_keeps ?_
    exact State.setGroup_keeps h
  · with_reducible refine State.sendRef_keeps ?_
    exact State.setGroup_keeps h

theorem State.settleRecord_keeps (h : Keeps b s0 s) {a1 a2} : Keeps b s0 (State.settleRecord s a1 a2) := by
  unfold State.settleRecord
  refine Keeps.ite ?_ ?_
  · exact h
  · split
    · rename_i x1 c2 heq3
      exact State.settleAttempt_keeps h
    · rename_i x4 heq5
      exact h

theorem State.slotPassed_keeps (h : Keeps b s0 s) {a1 a2} : Keeps b s0 (State.slotPassed s a1 a2) := by
  unfold State.slotPassed
  extract_lets x1
  refine Keeps.ite ?_ ?_
  · exact State.setPort_keeps h
  · exact State.setPort_keeps h

theorem State.starSofOp_keeps (h : Keeps b s0 s) {a1 a2 a3 a4 a5 a6} : Keeps b s0 (State.starSofOp s a1 a2 a3 a4 a5 a6) := by
  unfold State.starSofOp
  extract_lets s1 x2 s3 f4
  have hs1 : Keeps b s0 s1 := by
    exact State.advance_keeps h
  clear_value s1
  have hs3 : Keeps b s0 s3 := by
    exact State.setBranch_keeps hs1
  clear_value s3
  refine Keeps.ite ?_ ?_
  · exact State.relay_keeps hs3
  · refine Keeps.ite ?_ ?_
    · with_reducible refine State.noteRefSof_keeps ?_
      exact State.scheduledSof_keeps hs3
    · refine Keeps.ite ?_ ?_
      · refine Keeps.ite ?_ ?_
        · with_reducible refine State.cutFrame_keeps ?_
          exact State.relay_keeps hs3
        · exact State.relay_keeps hs3
      · exact State.ignoreBranch_keeps hs3

theorem State.startCandidate_keeps (h : Keeps b s0 s) {a1 a2 a3} : Keeps b s0 (State.startCandidate s a1 a2 a3) := by
  unfold State.startCandidate
  extract_lets k1
  refine Keeps.ite ?_ ?_
  · exact h
  · refine Keeps.ite ?_ ?_
    · exact State.driveSof_keeps h
    · exact State.setPort_keeps h

theorem State.startOp_keeps (h : Keeps b s0 s) {a1 a2} : Keeps b s0 (State.startOp s a1 a2) := by
  unfold State.startOp
  extract_lets at1 ref2 c3 ft4
  dsimp only
  clear_value ref2
  split
  · rename_i ref5 k6 cold7
    refine Keeps.ite ?_ ?_
    · split
      · rename_i x8 heq9
        exact State.planCold_keeps h
      · rename_i x10 m11 heq12
        refine Keeps.ite ?_ ?_
        · exact h
        · refine Keeps.ite ?_ ?_
          · exact State.planCold_keeps h
          · with_reducible refine State.driveRef_keeps ?_
            exact State.setGroup_keeps h
    · exact State.driveRef_keeps h
  · rename_i ref13
    refine Keeps.ite ?_ ?_
    · exact h
    · split
      · rename_i ft14 x15 w16 f17 c18 heq19 heq20
        refine Keeps.ite ?_ ?_
        · with_reducible refine State.startCandidate_keeps ?_
          exact State.advance_keeps h
        · with_reducible refine State.driveSof_keeps ?_
          exact State.advance_keeps h
      · rename_i ft21 x22 w23 f24 heq25 heq26
        with_reducible refine State.driveSof_keeps ?_
        exact State.advance_keeps h
      · rename_i ft27 x28 c29 heq30 heq31
        with_reducible refine State.startCandidate_keeps ?_
        exact State.advance_keeps h
      · rename_i ft32 x33 heq34 heq35
        exact h

theorem State.submit_keeps (h : Keeps b s0 s) {a1 a2 a3} : Result.All (Keeps b s0) (State.submit s a1 a2 a3) := by
  unfold State.submit
  with_reducible refine State.ownedWrite_keeps ?_ ?_
  · exact h
  · intro s1 k2
    refine Keeps.ite ?_ ?_
    · exact State.writeApply_keeps k2
    · exact k2

theorem State.swapTakes_keeps (h : Keeps b s0 s) {a1 a2} : Keeps b s0 (State.swapTakes s a1 a2) := by
  unfold State.swapTakes
  extract_lets freed1 x2 s3
  have hs3 : Keeps b s0 s3 := by
    exact Keeps.same h ⟨rfl, rfl⟩ rfl rfl rfl rfl rfl rfl rfl rfl rfl rfl
  clear_value s3
  refine Keeps.foldl ?_ ?_
  · exact hs3
  · intro s4 x5 k6
    exact State.enterStandby_keeps k6

theorem State.swapNow_keeps (h : Keeps b s0 s) {a1 a2 a3} : Keeps b s0 (State.swapNow s a1 a2 a3) := by
  unfold State.swapNow
  extract_lets s1 x2 s3 s4
  have hs1 : Keeps b s0 s1 := by
    exact State.attach_keeps h
  clear_value s1
  have hs3 : Keeps b s0 s3 := by
    exact Keeps.same hs1 ⟨rfl, rfl⟩ rfl rfl rfl rfl rfl rfl rfl rfl rfl rfl
  clear_value s3
  have hs4 : Keeps b s0 s4 := by
    exact State.endSwap_keeps hs3
  clear_value s4
  split
  · rename_i e5 o6
    exact State.enterStandby_keeps hs4
  · rename_i e7
    exact State.swapTakes_keeps hs4

theorem State.takeSample_keeps (h : Keeps b s0 s) {a1 a2 a3} : Keeps b s0 (State.takeSample s a1 a2 a3) := by
  unfold State.takeSample
  refine Keeps.ite ?_ ?_
  · exact h
  · refine Keeps.ite ?_ ?_
    · extract_lets x1
      exact State.setTmu_keeps h
    · extract_lets x2 s3
      have hs3 : Keeps b s0 s3 := by
        exact State.setTmu_keeps h
      clear_value s3
      exact State.applySample_keeps hs3

theorem State.testOutcome_keeps (h : Keeps b s0 s) {a1 a2} : Keeps b s0 (State.testOutcome s a1 a2) := by
  unfold State.testOutcome
  refine Keeps.ite ?_ ?_
  · extract_lets p1
    refine Keeps.ite ?_ ?_
    · exact State.failPort_keeps h
    · refine Keeps.ite ?_ ?_
      · exact State.restorePort_keeps h
      · exact h
  · refine Keeps.ite ?_ ?_
    · extract_lets e2 i3 img4 x5
      refine Keeps.ite ?_ ?_
      · exact h
      · refine Keeps.ite ?_ ?_
        · exact State.faultEngine_keeps h
        · with_reducible refine State.enterStandby_keeps ?_
          exact State.setEngine_keeps h
    · extract_lets k6 x7
      refine Keeps.ite ?_ ?_
      · with_reducible refine State.insertLinks_keeps ?_
        with_reducible refine State.setLink_keeps ?_
        exact State.setRf_keeps h
      · refine Keeps.ite ?_ ?_
        · exact State.setLink_keeps h
        · exact h

theorem State.topoReadOp_keeps (h : Keeps b s0 s) {a1 a2} : Keeps b s0 (State.topoReadOp s a1 a2) := by
  unfold State.topoReadOp
  extract_lets len1 ts2 gens3
  refine Keeps.ite ?_ ?_
  · exact State.complete_keeps h
  · refine Keeps.ite ?_ ?_
    · exact State.complete_keeps h
    · refine Keeps.ite ?_ ?_
      · exact State.complete_keeps h
      · with_reducible refine State.complete_keeps ?_
        exact State.hostWrite_keeps h

theorem State.trvReadOp_keeps (h : Keeps b s0 s) {a1 a2} : Keeps b s0 (State.trvReadOp s a1 a2) := by
  unfold State.trvReadOp
  extract_lets k1 n2 s3
  have hs3 : Keeps b s0 s3 := by
    exact State.hostWrite_keeps h
  clear_value s3
  refine Keeps.ite ?_ ?_
  · exact State.complete_keeps h
  · refine Keeps.ite ?_ ?_
    · exact State.complete_keeps h
    · refine Keeps.ite ?_ ?_
      · exact State.complete_keeps h
      · exact State.complete_keeps hs3

theorem State.trvWriteOp_keeps (h : Keeps b s0 s) {a1 a2 a3} : Keeps b s0 (State.trvWriteOp s a1 a2 a3) := by
  unfold State.trvWriteOp
  extract_lets k1 n2 g3 t4
  refine Keeps.ite ?_ ?_
  · exact State.complete_keeps h
  · refine Keeps.ite ?_ ?_
    · exact State.complete_keeps h
    · refine Keeps.ite ?_ ?_
      · exact State.complete_keeps h
      · refine Keeps.ite ?_ ?_
        · exact State.complete_keeps h
        · with_reducible refine State.complete_keeps ?_
          exact State.setGroup_keeps h

theorem State.txOp_keeps (h : Keeps b s0 s) {a1 a2 a3 a4} : Keeps b s0 (State.txOp s a1 a2 a3 a4) := by
  unfold State.txOp
  dsimp only
  split
  · rename_i x1 code2 heq3
    exact State.complete_keeps h
  · rename_i x4 heq5
    refine Keeps.ite ?_ ?_
    · exact State.complete_keeps h
    · with_reducible refine State.fillSlots_keeps ?_
      with_reducible refine State.enterSet_keeps ?_
      exact State.setPort_keeps h

theorem State.wakeTarget_keeps (h : Keeps b s0 s) {a1} : Keeps b s0 (State.wakeTarget s a1) := by
  unfold State.wakeTarget
  refine Keeps.ite ?_ ?_
  · exact h
  · extract_lets x1
    exact Keeps.same h ⟨rfl, rfl⟩ rfl rfl rfl rfl rfl rfl rfl rfl rfl rfl

theorem State.wiresEnd_keeps (h : Keeps b s0 s) : Keeps b s0 (State.wiresEnd s) := by
  unfold State.wiresEnd
  refine Keeps.foldl ?_ ?_
  · exact h
  · intro s1 x2 k3
    split
    · rename_i x4 fst5 e6 heq7
      refine Keeps.ite ?_ ?_
      · exact State.endWire_keeps k3
      · exact k3
    · rename_i x8 heq9
      exact k3

theorem State.writeGroupCmd_keeps (h : Keeps b s0 s) {a1 a2 a3} : Result.All (Keeps b s0) (State.writeGroupCmd s a1 a2 a3) := by
  unfold State.writeGroupCmd
  with_reducible refine State.ownedWrite_keeps ?_ ?_
  · exact h
  · intro s1 k2
    exact State.groupRequest_keeps k2

theorem State.writePortCmd_keeps (h : Keeps b s0 s) {a1 a2 a3} : Result.All (Keeps b s0) (State.writePortCmd s a1 a2 a3) := by
  unfold State.writePortCmd
  with_reducible refine State.ownedWrite_keeps ?_ ?_
  · exact h
  · intro s1 k2
    exact State.portRequest_keeps k2

theorem execActivate_keeps (h : Keeps b s0 s) {a1 a2 a3} : Result.All (Keeps b s0) (execActivate a1 a2 a3 s) := by
  unfold execActivate
  extract_lets slot1
  with_reducible refine State.request_keeps ?_ ?_
  · exact h
  · intro s2 k3
    split
    · rename_i x4 heq5
      exact k3
    · rename_i x6 c7 heq8
      refine Keeps.ite ?_ ?_
      · exact State.respond_keeps k3
      · with_reducible refine State.beginActivation_keeps ?_
        exact State.respond_keeps k3

theorem execAddrAssign_keeps (h : Keeps b s0 s) {a1 a2} : Result.All (Keeps b s0) (execAddrAssign a1 a2 s) := by
  unfold execAddrAssign
  extract_lets f1
  refine Result.all_ite ?_ ?_
  · refine Result.all_next ?_
    exact h
  · with_reducible refine State.rlTake_keeps ?_ ?_
    · exact h
    · intro s2 k3
      with_reducible refine State.flooded__keeps ?_ ?_
      · exact k3
      · intro s4 k5
        refine Keeps.ite ?_ ?_
        · exact State.takeAddr_keeps k5
        · exact k5

theorem execAddrReq_keeps (h : Keeps b s0 s) {a1 a2} : Result.All (Keeps b s0) (execAddrReq a1 a2 s) := by
  unfold execAddrReq
  extract_lets f1
  refine Result.all_ite ?_ ?_
  · refine Result.all_next ?_
    exact h
  · with_reducible refine State.rlTake_keeps ?_ ?_
    · exact h
    · intro s2 k3
      with_reducible refine State.flooded__keeps ?_ ?_
      · exact k3
      · intro s4 k5
        exact State.allocate_keeps k5

theorem execAddrReqTimer_keeps (h : Keeps b s0 s) : Result.All (Keeps b s0) (execAddrReqTimer s) := by
  unfold execAddrReqTimer
  refine Result.all_ite ?_ ?_
  · extract_lets s1 x2 s3
    have hs1 : Keeps b s0 s1 := by
      exact State.waitFrom_keeps h
    clear_value s1
    have hs3 : Keeps b s0 s3 := by
      with_reducible refine State.floodMgmt_keeps ?_
      exact Keeps.same hs1 ⟨rfl, rfl⟩ rfl rfl rfl rfl rfl rfl rfl rfl rfl rfl
    clear_value s3
    with_reducible refine finish_keeps ?_
    exact State.allocate_keeps hs3
  · refine Result.all_next ?_
    exact h

theorem execAlertResponse_keeps (h : Keeps b s0 s) : Result.All (Keeps b s0) (execAlertResponse s) := by
  unfold execAlertResponse
  refine Result.all_ite ?_ ?_
  · with_reducible refine finish_keeps ?_
    exact State.answer_keeps h
  · refine Result.all_next ?_
    exact h

theorem execAnRestart_keeps (h : Keeps b s0 s) {a1} : Result.All (Keeps b s0) (execAnRestart a1 s) := by
  unfold execAnRestart
  extract_lets x1 s2 x3
  have hs2 : Keeps b s0 s2 := by
    exact State.waitFrom_keeps h
  clear_value s2
  refine Result.all_ite ?_ ?_
  · with_reducible refine finish_keeps ?_
    with_reducible refine State.countEth_keeps ?_
    exact State.setEth_keeps hs2
  · refine Result.all_next ?_
    exact h

theorem execAnnounceReceiptTimeout_keeps (h : Keeps b s0 s) {a1} : Result.All (Keeps b s0) (execAnnounceReceiptTimeout a1 s) := by
  unfold execAnnounceReceiptTimeout
  refine Result.all_ite ?_ ?_
  · with_reducible refine finish_keeps ?_
    with_reducible refine State.ptpChoose_keeps ?_
    exact State.waitFrom_keeps h
  · refine Result.all_next ?_
    exact h

theorem execAttemptCommit_keeps (h : Keeps b s0 s) {a1} : Result.All (Keeps b s0) (execAttemptCommit a1 s) := by
  unfold execAttemptCommit
  extract_lets p1 s2 x3
  have hs2 : Keeps b s0 s2 := by
    exact State.takeTrailer_keeps h
  clear_value s2
  dsimp only
  split
  · rename_i x4 heq5
    refine Result.all_next ?_
    exact h
  · rename_i x6 x7 heq8
    refine Result.all_ite ?_ ?_
    · refine Result.all_next ?_
      exact h
    · split
      · rename_i x9 heq10
        exact finish_keeps hs2
      · rename_i x11 heq12
        with_reducible refine finish_keeps ?_
        exact State.setPort_keeps hs2

theorem execAttemptEnd_keeps (h : Keeps b s0 s) {a1 a2 a3} : Result.All (Keeps b s0) (execAttemptEnd a1 a2 a3 s) := by
  unfold execAttemptEnd
  refine Result.all_ite ?_ ?_
  · refine Result.all_next ?_
    exact h
  · refine Result.all_ite ?_ ?_
    · exact trivial
    · with_reducible refine finish_keeps ?_
      exact State.attemptOp_keeps h

theorem execAttest_keeps (h : Keeps b s0 s) {a1 a2 a3 a4} : Result.All (Keeps b s0) (execAttest a1 a2 a3 a4 s) := by
  unfold execAttest
  refine Result.all_ite ?_ ?_
  · refine Result.all_next ?_
    exact h
  · refine Result.all_ite ?_ ?_
    · exact trivial
    · with_reducible refine finish_keeps ?_
      with_reducible refine State.command_keeps ?_ ?_
      · exact h
      · intro s1 x2 k3
        exact State.attestOp_keeps k3

theorem execBankSupplyLoss_keeps (h : Keeps b s0 s) {a1} : Result.All (Keeps b s0) (execBankSupplyLoss a1 s) := by
  unfold execBankSupplyLoss
  extract_lets x1 s2
  have hs2 : Keeps b s0 s2 := by
    exact Keeps.same h ⟨rfl, rfl⟩ rfl rfl rfl rfl rfl rfl rfl rfl rfl rfl
  clear_value s2
  with_reducible refine finish_keeps ?_
  refine Keeps.foldl ?_ ?_
  · exact hs2
  · intro s3 x4 k5
    exact State.bankLost_keeps k5

theorem execBankSupplyReturn_keeps (h : Keeps b s0 s) {a1 a2} : Result.All (Keeps b s0) (execBankSupplyReturn a1 a2 s) := by
  unfold execBankSupplyReturn
  with_reducible refine finish_keeps ?_
  extract_lets x1
  exact Keeps.same h ⟨rfl, rfl⟩ rfl rfl rfl rfl rfl rfl rfl rfl rfl rfl

theorem execBeaconDue_keeps (h : Keeps b s0 s) {a1} : Result.All (Keeps b s0) (execBeaconDue a1 s) := by
  unfold execBeaconDue
  extract_lets x1 t2 s3 x4 ft5
  have hs3 : Keeps b s0 s3 := by
    exact State.advance_keeps h
  clear_value s3
  refine Result.all_ite ?_ ?_
  · with_reducible refine finish_keeps ?_
    exact State.setPort_keeps hs3
  · refine Result.all_next ?_
    exact h

theorem execBoot_keeps (h : Keeps b s0 s) : Result.All (Keeps b s0) (execBoot s) := by
  unfold execBoot
  refine Result.all_ite ?_ ?_
  · refine Result.all_next ?_
    exact h
  · with_reducible refine finish_keeps ?_
    exact State.bootOp_keeps h

theorem execBranchJoin_keeps (h : Keeps b s0 s) {a1 a2} : Result.All (Keeps b s0) (execBranchJoin a1 a2 s) := by
  unfold execBranchJoin
  refine Result.all_ite ?_ ?_
  · with_reducible refine finish_keeps ?_
    exact State.joinBranch_keeps h
  · refine Result.all_next ?_
    exact h

theorem execBufWaitExpiry_keeps (h : Keeps b s0 s) {a1 a2} : Result.All (Keeps b s0) (execBufWaitExpiry a1 a2 s) := by
  unfold execBufWaitExpiry
  dsimp only
  split
  · rename_i x1 heq2
    refine Result.all_next ?_
    exact h
  · rename_i x3 w4 tail5 heq6
    with_reducible refine finish_keeps ?_
    with_reducible refine State.serve_keeps ?_
    with_reducible refine State.dropOldest_keeps ?_
    exact State.advance_keeps h

theorem execBusIntegrated_keeps (h : Keeps b s0 s) {a1} : Result.All (Keeps b s0) (execBusIntegrated a1 s) := by
  unfold execBusIntegrated
  extract_lets x1 k2 coil3 early4 join5 x6 s7 s8 over9 s10
  have hs7 : Keeps b s0 s7 := by
    refine Keeps.ite ?_ ?_
    · exact Keeps.same h ⟨rfl, rfl⟩ rfl rfl rfl rfl rfl rfl rfl rfl rfl rfl
    · exact h
  clear_value s7
  have hs8 : Keeps b s0 s8 := by
    refine Keeps.ite ?_ ?_
    · exact State.setPort_keeps hs7
    · exact hs7
  clear_value s8
  have hs10 : Keeps b s0 s10 := by
    dsimp only [s10]
    clear_value over9
    split
    · rename_i x11 k12
      exact State.setGroup_keeps hs8
    · rename_i x13
      exact hs8
  clear_value s10
  refine Result.all_ite ?_ ?_
  · exact finish_keeps hs10
  · refine Result.all_next ?_
    exact hs10

theorem execCandidateExpiry_keeps (h : Keeps b s0 s) {a1 a2} : Result.All (Keeps b s0) (execCandidateExpiry a1 a2 s) := by
  unfold execCandidateExpiry
  split
  · rename_i x1 k2 heq3
    split
    · rename_i x4 t5 heq6
      with_reducible refine finish_keeps ?_
      refine Keeps.ite ?_ ?_
      · with_reducible refine State.holdTimeEnds_keeps ?_
        exact State.advance_keeps h
      · exact State.advance_keeps h
    · rename_i x7 heq8
      refine Result.all_next ?_
      exact h
  · rename_i x9 heq10
    refine Result.all_next ?_
    exact h

theorem execChallenge_keeps (h : Keeps b s0 s) {a1 a2 a3} : Result.All (Keeps b s0) (execChallenge a1 a2 a3 s) := by
  unfold execChallenge
  refine Result.all_ite ?_ ?_
  · with_reducible refine finish_keeps ?_
    with_reducible refine State.command_keeps ?_ ?_
    · exact h
    · intro s1 x2 k3
      exact State.challengeOp_keeps k3
  · refine Result.all_next ?_
    exact h

theorem execChallengeExpiry_keeps (h : Keeps b s0 s) : Result.All (Keeps b s0) (execChallengeExpiry s) := by
  unfold execChallengeExpiry
  split
  · rename_i x1 c2 snd3 heq4
    with_reducible refine finish_keeps ?_
    with_reducible refine State.spendChallenge_keeps ?_
    exact State.advance_keeps h
  · rename_i x5 heq6
    refine Result.all_next ?_
    exact h

end Sys2Proof.Machine
end

