-- ==== Sys2Proof/Laws/KeepsD.lean ====
section
/-! SUPPORT. The operations keep the queue, the tables and the lifecycle (Keeps.lean), part 4 of 4, each after those it calls. -/
namespace Sys2Proof.Machine

variable {b : Bool} {s0 s t : State}

theorem execClearAlert_keeps (h : Keeps b s0 s) {a1 a2} : Result.All (Keeps b s0) (execClearAlert a1 a2 s) := by
  unfold execClearAlert
  with_reducible refine State.request_keeps ?_ ?_
  · exact h
  · intro s1 k2
    extract_lets e3 x4
    with_reducible refine State.respond_keeps ?_
    exact State.setCairn_keeps k2

theorem execColTravelEnd_keeps (h : Keeps b s0 s) {a1} : Result.All (Keeps b s0) (execColTravelEnd a1 s) := by
  unfold execColTravelEnd
  extract_lets x1 s2
  have hs2 : Keeps b s0 s2 := by
    exact State.waitFrom_keeps h
  clear_value s2
  refine Result.all_ite ?_ ?_
  · with_reducible refine finish_keeps ?_
    exact Keeps.same hs2 ⟨rfl, rfl⟩ rfl rfl rfl rfl rfl rfl rfl rfl rfl rfl
  · refine Result.all_next ?_
    exact h

theorem execColdstartBackoffEnd_keeps (h : Keeps b s0 s) {a1} : Result.All (Keeps b s0) (execColdstartBackoffEnd a1 s) := by
  unfold execColdstartBackoffEnd
  extract_lets g1 wait2
  refine Result.all_ite ?_ ?_
  · with_reducible refine finish_keeps ?_
    with_reducible refine State.sendCold_keeps ?_
    exact State.advance_keeps h
  · refine Result.all_next ?_
    exact h

theorem execColfTravelEnd_keeps (h : Keeps b s0 s) {a1} : Result.All (Keeps b s0) (execColfTravelEnd a1 s) := by
  unfold execColfTravelEnd
  refine Result.all_ite ?_ ?_
  · extract_lets s1 x2
    have hs1 : Keeps b s0 s1 := by
      exact State.waitFrom_keeps h
    clear_value s1
    with_reducible refine finish_keeps ?_
    exact State.setLink_keeps hs1
  · refine Result.all_next ?_
    exact h

theorem execCoreFault_keeps (h : Keeps b s0 s) {a1 a2} : Result.All (Keeps b s0) (execCoreFault a1 a2 s) := by
  unfold execCoreFault
  refine Result.all_ite ?_ ?_
  · refine Result.all_next ?_
    exact h
  · with_reducible refine finish_keeps ?_
    exact State.coreLost_keeps h

theorem execCoreTestEnd_keeps (h : Keeps b s0 s) {a1 a2} : Result.All (Keeps b s0) (execCoreTestEnd a1 a2 s) := by
  unfold execCoreTestEnd
  extract_lets x1
  refine Result.all_ite ?_ ?_
  · refine Result.all_next ?_
    exact h
  · refine Result.all_ite ?_ ?_
    · with_reducible refine finish_keeps ?_
      with_reducible refine State.endCmd_keeps ?_
      with_reducible refine State.seEvt_keeps ?_
      exact State.setCore_keeps h
    · refine Result.all_ite ?_ ?_
      · with_reducible refine finish_keeps ?_
        with_reducible refine State.endCmd_keeps ?_
        exact State.coreRuns_keeps h
      · with_reducible refine finish_keeps ?_
        with_reducible refine State.endCmd_keeps ?_
        exact State.setCore_keeps h

theorem execCqStallPoll_keeps (h : Keeps b s0 s) {a1 a2 a3} : Result.All (Keeps b s0) (execCqStallPoll a1 a2 a3 s) := by
  unfold execCqStallPoll
  extract_lets i1 s2 x3
  have hs2 : Keeps b s0 s2 := by
    exact State.waitFrom_keeps h
  clear_value s2
  refine Result.all_ite ?_ ?_
  · with_reducible refine finish_keeps ?_
    with_reducible refine State.readIndex_keeps ?_
    exact State.setRing_keeps hs2
  · refine Result.all_next ?_
    exact h

theorem execCreditReport_keeps (h : Keeps b s0 s) {a1 a2 a3} : Result.All (Keeps b s0) (execCreditReport a1 a2 a3 s) := by
  unfold execCreditReport
  extract_lets l1
  refine Result.all_ite ?_ ?_
  · refine Result.all_next ?_
    exact h
  · with_reducible refine finish_keeps ?_
    exact State.setLink_keeps h

theorem execCreditReportTimer_keeps (h : Keeps b s0 s) {a1} : Result.All (Keeps b s0) (execCreditReportTimer a1 s) := by
  unfold execCreditReportTimer
  refine Result.all_ite ?_ ?_
  · with_reducible refine finish_keeps ?_
    refine Keeps.foldl ?_ ?_
    · exact h
    · intro s1 x2 k3
      exact State.reportCredit_keeps k3
  · refine Result.all_next ?_
    exact h

theorem execCycleStart_keeps (h : Keeps b s0 s) {a1} : Result.All (Keeps b s0) (execCycleStart a1 s) := by
  unfold execCycleStart
  refine Result.all_ite ?_ ?_
  · extract_lets s1
    have hs1 : Keeps b s0 s1 := by
      exact State.turnCycle_keeps h
    clear_value s1
    refine Result.all_ite ?_ ?_
    · with_reducible refine finish_keeps ?_
      exact State.sendRef_keeps hs1
    · with_reducible refine finish_keeps ?_
      refine Keeps.ite ?_ ?_
      · exact State.advance_keeps hs1
      · exact hs1
  · refine Result.all_next ?_
    exact h

theorem execDbbEnable_keeps (h : Keeps b s0 s) {a1 a2} : Result.All (Keeps b s0) (execDbbEnable a1 a2 s) := by
  unfold execDbbEnable
  refine Result.all_ite ?_ ?_
  · refine Result.all_next ?_
    exact h
  · refine Result.all_ite ?_ ?_
    · with_reducible refine finish_keeps ?_
      exact State.writeDbb_keeps h
    · with_reducible refine finish_keeps ?_
      exact State.crossDomain_keeps h

theorem execDebugUnlock_keeps (h : Keeps b s0 s) {a1} : Result.All (Keeps b s0) (execDebugUnlock a1 s) := by
  unfold execDebugUnlock
  dsimp only
  split
  · rename_i x1 heq2
    refine Result.all_next ?_
    exact h
  · rename_i x3 c4 heq5
    refine Result.all_ite ?_ ?_
    · with_reducible refine finish_keeps ?_
      with_reducible refine State.record_keeps ?_
      refine Keeps.same (State.eraseArgs_keeps ?_) ⟨rfl, rfl⟩ rfl rfl rfl rfl rfl rfl rfl rfl rfl rfl
      with_reducible refine State.eraseData_keeps ?_
      exact Keeps.same h ⟨rfl, rfl⟩ rfl rfl rfl rfl rfl rfl rfl rfl rfl rfl
    · with_reducible refine finish_keeps ?_
      exact Keeps.same h ⟨rfl, rfl⟩ rfl rfl rfl rfl rfl rfl rfl rfl rfl rfl

theorem execDebugUnlockRequest_keeps (h : Keeps b s0 s) : Result.All (Keeps b s0) (execDebugUnlockRequest s) := by
  unfold execDebugUnlockRequest
  extract_lets l1 c2 s3 x4 s5
  have hs3 : Keeps b s0 s3 := by
    exact State.draw_keeps h
  clear_value s3
  have hs5 : Keeps b s0 s5 := by
    exact Keeps.same hs3 ⟨rfl, rfl⟩ rfl rfl rfl rfl rfl rfl rfl rfl rfl rfl
  clear_value s5
  refine Result.all_ite ?_ ?_
  · refine Result.all_next ?_
    exact h
  · with_reducible refine finish_keeps ?_
    exact State.emit_keeps hs5

theorem execDevSwap_keeps (h : Keeps b s0 s) {a1 a2} : Result.All (Keeps b s0) (execDevSwap a1 a2 s) := by
  unfold execDevSwap
  with_reducible refine State.ownedWrite_keeps ?_ ?_
  · exact h
  · intro s1 k2
    exact State.writeSwap_keeps k2

theorem execDmaWindowRecord_keeps (h : Keeps b s0 s) {a1 a2} : Result.All (Keeps b s0) (execDmaWindowRecord a1 a2 s) := by
  unfold execDmaWindowRecord
  exact State.submit_keeps h

theorem execDomainEntry_keeps (h : Keeps b s0 s) {a1 a2} : Result.All (Keeps b s0) (execDomainEntry a1 a2 s) := by
  unfold execDomainEntry
  exact State.submit_keeps h

theorem execDutyMoveDone_keeps (h : Keeps b s0 s) {a1} : Result.All (Keeps b s0) (execDutyMoveDone a1 s) := by
  unfold execDutyMoveDone
  extract_lets i1
  dsimp only
  split
  · rename_i x2 t3 heq4
    with_reducible refine finish_keeps ?_
    with_reducible refine State.haltDone_keeps ?_
    with_reducible refine State.dutyStarts_keeps ?_
    with_reducible refine State.seEvt_keeps ?_
    exact State.setDuty_keeps h
  · rename_i x5 heq6
    refine Result.all_next ?_
    exact h

theorem execEngineLoadDone_keeps (h : Keeps b s0 s) {a1} : Result.All (Keeps b s0) (execEngineLoadDone a1 s) := by
  unfold execEngineLoadDone
  extract_lets x1 img2 x3 x4 wanted5
  dsimp only
  split
  · rename_i x6 x7 why8 heq9 heq10
    split
    · rename_i why11 p12
      refine Result.all_ite ?_ ?_
      · with_reducible refine finish_keeps ?_
        with_reducible refine State.enterStandby_keeps ?_
        exact State.setEngine_keeps h
      · with_reducible refine finish_keeps ?_
        exact Keeps.same h ⟨rfl, rfl⟩ rfl rfl rfl rfl rfl rfl rfl rfl rfl rfl
    · rename_i why13 p14
      refine Result.all_ite ?_ ?_
      · with_reducible refine finish_keeps ?_
        exact State.setEngine_keeps h
      · with_reducible refine finish_keeps ?_
        with_reducible refine State.enterStandby_keeps ?_
        exact State.setEngine_keeps h
    · rename_i why15
      with_reducible refine finish_keeps ?_
      with_reducible refine State.endCmd_keeps ?_
      with_reducible refine State.enterStandby_keeps ?_
      exact State.setEngine_keeps h
    · rename_i why16
      with_reducible refine finish_keeps ?_
      with_reducible refine State.endCmd_keeps ?_
      with_reducible refine State.enterStandby_keeps ?_
      exact State.setEngine_keeps h
  · rename_i x17 x18 x19
    refine Result.all_next ?_
    exact h

theorem execEngineLoss_keeps (h : Keeps b s0 s) {a1 a2} : Result.All (Keeps b s0) (execEngineLoss a1 a2 s) := by
  unfold execEngineLoss
  split
  · rename_i x1 heq2
    refine Result.all_next ?_
    exact h
  · rename_i x3 heq4
    refine Result.all_next ?_
    exact h
  · rename_i x5 x6 x7
    refine Result.all_ite ?_ ?_
    · with_reducible refine finish_keeps ?_
      exact State.engineLost_keeps h
    · refine Result.all_next ?_
      exact h

theorem execEngineTestEnd_keeps (h : Keeps b s0 s) {a1 a2} : Result.All (Keeps b s0) (execEngineTestEnd a1 a2 s) := by
  unfold execEngineTestEnd
  extract_lets x1
  refine Result.all_ite ?_ ?_
  · refine Result.all_next ?_
    exact h
  · refine Result.all_ite ?_ ?_
    · with_reducible refine finish_keeps ?_
      exact State.startLoad_keeps h
    · with_reducible refine finish_keeps ?_
      with_reducible refine State.endCmd_keeps ?_
      exact State.faultEngine_keeps h

theorem execEpEnable_keeps (h : Keeps b s0 s) {a1 a2 a3} : Result.All (Keeps b s0) (execEpEnable a1 a2 a3 s) := by
  unfold execEpEnable
  exact State.epRequest_keeps h

theorem execEpLinkLoss_keeps (h : Keeps b s0 s) {a1} : Result.All (Keeps b s0) (execEpLinkLoss a1 s) := by
  unfold execEpLinkLoss
  refine Result.all_ite ?_ ?_
  · refine Result.all_next ?_
    exact h
  · extract_lets s1 s2 x3 s4 s5 x6
    have hs1 : Keeps b s0 s1 := by
      with_reducible refine State.raise_keeps ?_
      with_reducible refine State.endPause_keeps ?_
      exact State.pauseSettle_keeps h
    clear_value s1
    have hs2 : Keeps b s0 s2 := by
      exact State.countEth_keeps hs1
    clear_value s2
    have hs4 : Keeps b s0 s4 := by
      exact State.setEth_keeps hs2
    clear_value s4
    have hs5 : Keeps b s0 s5 := by
      exact State.countEth_keeps hs4
    clear_value s5
    with_reducible refine finish_keeps ?_
    split
    · rename_i b7 heq8
      exact hs4
    · rename_i b9 j10 heq11
      refine Keeps.ite ?_ ?_
      · exact State.endEth_keeps hs5
      · refine Keeps.ite ?_ ?_
        · exact State.endEth_keeps hs5
        · exact State.setEth_keeps hs5

theorem execEpLinkUp_keeps (h : Keeps b s0 s) {a1 a2} : Result.All (Keeps b s0) (execEpLinkUp a1 a2 s) := by
  unfold execEpLinkUp
  extract_lets x1 lp2
  refine Result.all_ite ?_ ?_
  · refine Result.all_next ?_
    exact h
  · refine Result.all_ite ?_ ?_
    · refine Result.all_ite ?_ ?_
      · with_reducible refine finish_keeps ?_
        with_reducible refine State.ethKick_keeps ?_
        with_reducible refine State.raise_keeps ?_
        exact State.setEth_keeps h
      · with_reducible refine finish_keeps ?_
        with_reducible refine State.raise_keeps ?_
        exact State.setEth_keeps h
    · with_reducible refine finish_keeps ?_
      with_reducible refine State.ethKick_keeps ?_
      with_reducible refine State.raise_keeps ?_
      exact State.setEth_keeps h

theorem execEpochPass_keeps (h : Keeps b s0 s) : Result.All (Keeps b s0) (execEpochPass s) := by
  unfold execEpochPass
  refine Result.all_ite ?_ ?_
  · refine Result.all_next ?_
    exact h
  · extract_lets t1 s2 x3
    have hs2 : Keeps b s0 s2 := by
      refine Keeps.ite ?_ ?_
      · exact State.advance_keeps h
      · exact h
    clear_value s2
    with_reducible refine finish_keeps ?_
    with_reducible refine State.epochEntries_keeps ?_
    exact State.setTmu_keeps hs2

theorem execErrorDetected_keeps (h : Keeps b s0 s) {a1 a2} : Result.All (Keeps b s0) (execErrorDetected a1 a2 s) := by
  unfold execErrorDetected
  refine Result.all_ite ?_ ?_
  · exact trivial
  · refine Result.all_ite ?_ ?_
    · refine Result.all_next ?_
      exact h
    · refine Result.all_ite ?_ ?_
      · with_reducible refine finish_keeps ?_
        exact State.errorOp_keeps h
      · split
        · rename_i x1 k2 heq3
          refine Result.all_ite ?_ ?_
          · refine Result.all_next ?_
            exact h
          · with_reducible refine finish_keeps ?_
            exact State.refError_keeps h
        · rename_i x4 heq5
          refine Result.all_next ?_
          exact h

theorem execEthFrameReceived_keeps (h : Keeps b s0 s) {a1 a2 a3 a4 a5} : Result.All (Keeps b s0) (execEthFrameReceived a1 a2 a3 a4 a5 s) := by
  unfold execEthFrameReceived
  extract_lets x1 open2 s3 s4
  have hs3 : Keeps b s0 s3 := by
    exact State.advance_keeps h
  clear_value s3
  have hs4 : Keeps b s0 s4 := by
    with_reducible refine State.ethKick_keeps ?_
    exact State.pauseSettle_keeps hs3
  clear_value s4
  refine Result.all_ite ?_ ?_
  · refine Result.all_next ?_
    exact h
  · with_reducible refine finish_keeps ?_
    refine Keeps.ite ?_ ?_
    · exact State.countEth_keeps hs4
    · exact State.ethFrame_keeps hs4

theorem execEthTx_keeps (h : Keeps b s0 s) {a1 a2 a3 a4} : Result.All (Keeps b s0) (execEthTx a1 a2 a3 a4 s) := by
  unfold execEthTx
  extract_lets cfg1 k2 x3
  refine Result.all_ite ?_ ?_
  · refine Result.all_ite ?_ ?_
    · exact trivial
    · with_reducible refine finish_keeps ?_
      with_reducible refine State.command_keeps ?_ ?_
      · exact State.setEth_keeps h
      · intro s4 x5 k6
        exact State.ethTxOp_keeps k6
  · refine Result.all_next ?_
    exact h

theorem execEthTxEnd_keeps (h : Keeps b s0 s) {a1 a2} : Result.All (Keeps b s0) (execEthTxEnd a1 a2 s) := by
  unfold execEthTxEnd
  extract_lets x1 s2
  have hs2 : Keeps b s0 s2 := by
    exact State.setEth_keeps h
  clear_value s2
  dsimp only
  split
  · rename_i b3 heq4
    refine Result.all_next ?_
    exact h
  · rename_i b5 j6 heq7
    with_reducible refine finish_keeps ?_
    with_reducible refine State.ethKick_keeps ?_
    with_reducible refine State.pauseSettle_keeps ?_
    with_reducible refine State.advance_keeps ?_
    exact State.ethSent_keeps hs2

theorem execEvcClaim_keeps (h : Keeps b s0 s) {a1 a2} : Result.All (Keeps b s0) (execEvcClaim a1 a2 s) := by
  unfold execEvcClaim
  refine Result.all_ite ?_ ?_
  · refine Result.all_next ?_
    exact h
  · dsimp only
    split
    · rename_i best1 heq2
      refine Result.all_next ?_
      exact h
    · rename_i best3 b4 heq5
      with_reducible refine finish_keeps ?_
      with_reducible refine State.stormCount_keeps ?_
      exact Keeps.same h ⟨rfl, rfl⟩ rfl rfl rfl rfl rfl rfl rfl rfl rfl rfl

theorem execEvtInEdge_keeps (h : Keeps b s0 s) {a1 a2 a3 a4} : Result.All (Keeps b s0) (execEvtInEdge a1 a2 a3 a4 s) := by
  unfold execEvtInEdge
  extract_lets c1
  refine Result.all_ite ?_ ?_
  · with_reducible refine finish_keeps ?_
    with_reducible refine State.captureEdge_keeps ?_
    exact State.advance_keeps h
  · refine Result.all_next ?_
    exact h

theorem execEvtoutEnable_keeps (h : Keeps b s0 s) {a1 a2 a3} : Result.All (Keeps b s0) (execEvtoutEnable a1 a2 a3 s) := by
  unfold execEvtoutEnable
  with_reducible refine State.ownedWrite_keeps ?_ ?_
  · exact h
  · intro s1 k2
    exact State.writeOut_keeps k2

theorem execFabEnable_keeps (h : Keeps b s0 s) {a1 a2} : Result.All (Keeps b s0) (execFabEnable a1 a2 s) := by
  unfold execFabEnable
  with_reducible refine State.ownedWrite_keeps ?_ ?_
  · exact h
  · intro s1 k2
    exact State.writeFabCfg_keeps k2

theorem execFabTimeWrite_keeps (h : Keeps b s0 s) {a1 a2} : Result.All (Keeps b s0) (execFabTimeWrite a1 a2 s) := by
  unfold execFabTimeWrite
  with_reducible refine State.ownedWrite_keeps ?_ ?_
  · exact h
  · intro s1 k2
    exact State.writeFabTime_keeps k2

theorem execFabTopoRead_keeps (h : Keeps b s0 s) {a1 a2 a3} : Result.All (Keeps b s0) (execFabTopoRead a1 a2 a3 s) := by
  unfold execFabTopoRead
  refine Result.all_ite ?_ ?_
  · with_reducible refine finish_keeps ?_
    with_reducible refine State.command_keeps ?_ ?_
    · exact h
    · intro s1 x2 k3
      exact State.topoReadOp_keeps k3
  · refine Result.all_next ?_
    exact h

theorem execFilterEval_keeps (h : Keeps b s0 s) {a1} : Result.All (Keeps b s0) (execFilterEval a1 s) := by
  unfold execFilterEval
  split
  · rename_i x1 heq2
    refine Result.all_next ?_
    exact h
  · rename_i x3 e4 heq5
    with_reducible refine finish_keeps ?_
    with_reducible refine State.evaluate_keeps ?_
    exact Keeps.same h ⟨rfl, rfl⟩ rfl rfl rfl rfl rfl rfl rfl rfl rfl rfl

theorem execFlr_keeps (h : Keeps b s0 s) {a1} : Result.All (Keeps b s0) (execFlr a1 s) := by
  unfold execFlr
  refine Result.all_ite ?_ ?_
  · refine Result.all_next ?_
    exact h
  · with_reducible refine finish_keeps ?_
    exact State.flrStart_keeps h

theorem execFlrComplete_keeps (h : Keeps b s0 s) {a1} : Result.All (Keeps b s0) (execFlrComplete a1 s) := by
  unfold execFlrComplete
  split
  · rename_i x1 heq2
    refine Result.all_next ?_
    exact h
  · rename_i x3 n4 heq5
    refine Result.all_ite ?_ ?_
    · refine Result.all_next ?_
      exact h
    · with_reducible refine finish_keeps ?_
      exact State.flrEnd_keeps h

theorem execFltRead_keeps (h : Keeps b s0 s) {a1} : Result.All (Keeps b s0) (execFltRead a1 s) := by
  unfold execFltRead
  with_reducible refine State.ownFn_keeps ?_ ?_
  · exact h
  · intro s1 k2
    exact State.writeFltCmd_keeps k2

theorem execFltWrite_keeps (h : Keeps b s0 s) {a1} : Result.All (Keeps b s0) (execFltWrite a1 s) := by
  unfold execFltWrite
  with_reducible refine State.ownFn_keeps ?_ ?_
  · exact h
  · intro s1 k2
    exact State.writeFltCmd_keeps k2

theorem execFrameReceived_keeps (h : Keeps b s0 s) {a1 a2 a3 a4} : Result.All (Keeps b s0) (execFrameReceived a1 a2 a3 a4 s) := by
  unfold execFrameReceived
  refine Result.all_ite ?_ ?_
  · exact trivial
  · dsimp only
    split
    · rename_i x1 k2 heq3
      refine Result.all_ite ?_ ?_
      · refine Result.all_next ?_
        exact h
      · refine Result.all_ite ?_ ?_
        · with_reducible refine finish_keeps ?_
          exact State.receiveOp_keeps h
        · refine Result.all_ite ?_ ?_
          · with_reducible refine finish_keeps ?_
            exact State.groupHears_keeps h
          · refine Result.all_next ?_
            exact h
    · rename_i x4 heq5
      refine Result.all_ite ?_ ?_
      · with_reducible refine finish_keeps ?_
        exact State.receiveOp_keeps h
      · refine Result.all_next ?_
        exact h

theorem execGetAttest_keeps (h : Keeps b s0 s) {a1 a2} : Result.All (Keeps b s0) (execGetAttest a1 a2 s) := by
  unfold execGetAttest
  with_reducible refine State.request_keeps ?_ ?_
  · exact h
  · intro s1 k2
    with_reducible refine State.respond_keeps ?_
    exact State.attestRecord_keeps k2

theorem execGetEndpointId_keeps (h : Keeps b s0 s) : Result.All (Keeps b s0) (execGetEndpointId s) := by
  unfold execGetEndpointId
  with_reducible refine State.whileUp_keeps ?_ ?_
  · exact h
  · intro s1 k2
    exact State.control_keeps k2

theorem execGetEndpointUuid_keeps (h : Keeps b s0 s) : Result.All (Keeps b s0) (execGetEndpointUuid s) := by
  unfold execGetEndpointUuid
  with_reducible refine State.whileUp_keeps ?_ ?_
  · exact h
  · intro s1 k2
    exact State.control_keeps k2

theorem execGetLog_keeps (h : Keeps b s0 s) {a1 a2} : Result.All (Keeps b s0) (execGetLog a1 a2 s) := by
  unfold execGetLog
  extract_lets n1
  with_reducible refine State.request_keeps ?_ ?_
  · exact h
  · intro s2 k3
    dsimp only
    exact State.respond_keeps k3

theorem execGetMctpVersionSupport_keeps (h : Keeps b s0 s) {a1} : Result.All (Keeps b s0) (execGetMctpVersionSupport a1 s) := by
  unfold execGetMctpVersionSupport
  with_reducible refine State.whileUp_keeps ?_ ?_
  · exact h
  · intro s1 k2
    refine Keeps.ite ?_ ?_
    · exact State.control_keeps k2
    · exact State.control_keeps k2

theorem execGetMessageTypeSupport_keeps (h : Keeps b s0 s) : Result.All (Keeps b s0) (execGetMessageTypeSupport s) := by
  unfold execGetMessageTypeSupport
  with_reducible refine State.whileUp_keeps ?_ ?_
  · exact h
  · intro s1 k2
    exact State.control_keeps k2

theorem execGetSensors_keeps (h : Keeps b s0 s) {a1 a2} : Result.All (Keeps b s0) (execGetSensors a1 a2 s) := by
  unfold execGetSensors
  with_reducible refine State.request_keeps ?_ ?_
  · exact h
  · intro s1 k2
    exact State.respond_keeps k2

theorem execGetStatus_keeps (h : Keeps b s0 s) {a1 a2} : Result.All (Keeps b s0) (execGetStatus a1 a2 s) := by
  unfold execGetStatus
  with_reducible refine State.request_keeps ?_ ?_
  · exact h
  · intro s1 k2
    exact State.respond_keeps k2

theorem execGetVendorDefinedMsgSupport_keeps (h : Keeps b s0 s) {a1} : Result.All (Keeps b s0) (execGetVendorDefinedMsgSupport a1 s) := by
  unfold execGetVendorDefinedMsgSupport
  with_reducible refine State.whileUp_keeps ?_ ?_
  · exact h
  · intro s1 k2
    refine Keeps.ite ?_ ?_
    · exact State.control_keeps k2
    · exact State.control_keeps k2

theorem execGovFallback_keeps (h : Keeps b s0 s) : Result.All (Keeps b s0) (execGovFallback s) := by
  unfold execGovFallback
  dsimp only
  split
  · rename_i x1 x2 t3 heq4 heq5
    with_reducible refine finish_keeps ?_
    with_reducible refine State.crnEvent_keeps ?_
    with_reducible refine State.record_keeps ?_
    with_reducible refine State.modeGoes_keeps ?_
    exact State.advance_keeps h
  · rename_i x6 x7 x8
    refine Result.all_next ?_
    exact h

theorem execGovReturn_keeps (h : Keeps b s0 s) : Result.All (Keeps b s0) (execGovReturn s) := by
  unfold execGovReturn
  dsimp only
  split
  · rename_i x1 x2 t3 heq4 heq5
    refine Result.all_ite ?_ ?_
    · refine Result.all_next ?_
      exact h
    · with_reducible refine finish_keeps ?_
      with_reducible refine State.crnEvent_keeps ?_
      with_reducible refine State.raiseTo_keeps ?_
      exact State.advance_keeps h
  · rename_i x6 x7 x8
    refine Result.all_next ?_
    exact h

theorem execGovWrite_keeps (h : Keeps b s0 s) {a1 a2 a3} : Result.All (Keeps b s0) (execGovWrite a1 a2 a3 s) := by
  unfold execGovWrite
  with_reducible refine State.ownedWrite_keeps ?_ ?_
  · exact h
  · intro s1 k2
    exact State.writeGov_keeps k2

theorem execGroupRejoin_keeps (h : Keeps b s0 s) {a1 a2 a3} : Result.All (Keeps b s0) (execGroupRejoin a1 a2 a3 s) := by
  unfold execGroupRejoin
  exact State.writeGroupCmd_keeps h

theorem execGroupRestart_keeps (h : Keeps b s0 s) {a1 a2} : Result.All (Keeps b s0) (execGroupRestart a1 a2 s) := by
  unfold execGroupRestart
  exact State.writeGroupCmd_keeps h

theorem execGroupStart_keeps (h : Keeps b s0 s) {a1 a2} : Result.All (Keeps b s0) (execGroupStart a1 a2 s) := by
  unfold execGroupStart
  exact State.writeGroupCmd_keeps h

theorem execGroupStop_keeps (h : Keeps b s0 s) {a1 a2} : Result.All (Keeps b s0) (execGroupStop a1 a2 s) := by
  unfold execGroupStop
  exact State.writeGroupCmd_keeps h

theorem execGroupStopEffect_keeps (h : Keeps b s0 s) {a1} : Result.All (Keeps b s0) (execGroupStopEffect a1 s) := by
  unfold execGroupStopEffect
  extract_lets g1
  refine Result.all_ite ?_ ?_
  · refine Result.all_next ?_
    exact h
  · refine Result.all_ite ?_ ?_
    · with_reducible refine finish_keeps ?_
      refine Keeps.foldl ?_ ?_
      · exact State.stopGroup_keeps h
      · intro s2 x3 k4
        exact State.portEvt_keeps k4
    · with_reducible refine finish_keeps ?_
      exact State.stopGroup_keeps h

theorem execGwGapEnd_keeps (h : Keeps b s0 s) {a1} : Result.All (Keeps b s0) (execGwGapEnd a1 s) := by
  unfold execGwGapEnd
  dsimp only
  split
  · rename_i x1 heq2
    refine Result.all_next ?_
    exact h
  · rename_i x3 old4 heq5
    split
    · rename_i x6 x7 x8 val9 heq10 heq11
      with_reducible refine finish_keeps ?_
      with_reducible refine State.gwPass_keeps ?_
      with_reducible refine State.setRule_keeps ?_
      split
      · rename_i x12 t13 heq14
        exact State.advance_keeps h
      · rename_i x15 heq16
        exact h
    · rename_i x17 x18 x19
      refine Result.all_next ?_
      exact h

theorem execGwInput_keeps (h : Keeps b s0 s) : Result.All (Keeps b s0) (execGwInput s) := by
  unfold execGwInput
  dsimp only
  split
  · rename_i x1 heq2
    refine Result.all_next ?_
    exact h
  · rename_i x3 i4 x5 rest6 heq7
    refine Result.all_ite ?_ ?_
    · refine Result.all_next ?_
      exact h
    · with_reducible refine finish_keeps ?_
      with_reducible refine State.gwTake_keeps ?_
      exact Keeps.same h ⟨rfl, rfl⟩ rfl rfl rfl rfl rfl rfl rfl rfl rfl rfl

theorem execGwRead_keeps (h : Keeps b s0 s) {a1} : Result.All (Keeps b s0) (execGwRead a1 s) := by
  unfold execGwRead
  with_reducible refine State.ownFn_keeps ?_ ?_
  · exact h
  · intro s1 k2
    exact State.writeGwCmd_keeps k2

theorem execGwRule_keeps (h : Keeps b s0 s) {a1 a2 a3 a4} : Result.All (Keeps b s0) (execGwRule a1 a2 a3 a4 s) := by
  unfold execGwRule
  refine Result.all_ite ?_ ?_
  · refine Result.all_next ?_
    exact h
  · refine Result.all_ite ?_ ?_
    · exact trivial
    · with_reducible refine finish_keeps ?_
      with_reducible refine State.command_keeps ?_ ?_
      · exact h
      · intro s1 x2 k3
        exact State.gwRuleOp_keeps k3

theorem execHalt_keeps (h : Keeps b s0 s) {a1 a2} : Result.All (Keeps b s0) (execHalt a1 a2 s) := by
  unfold execHalt
  exact State.secmdRequest_keeps h

theorem execHello_keeps (h : Keeps b s0 s) {a1 a2} : Result.All (Keeps b s0) (execHello a1 a2 s) := by
  unfold execHello
  extract_lets f1
  refine Result.all_ite ?_ ?_
  · refine Result.all_next ?_
    exact h
  · with_reducible refine State.rlTake_keeps ?_ ?_
    · exact h
    · intro s2 k3
      with_reducible refine State.helloOp_keeps ?_
      exact State.rlDone_keeps k3

theorem execHelloTimeout_keeps (h : Keeps b s0 s) {a1} : Result.All (Keeps b s0) (execHelloTimeout a1 s) := by
  unfold execHelloTimeout
  refine Result.all_ite ?_ ?_
  · refine Result.all_next ?_
    exact h
  · with_reducible refine finish_keeps ?_
    with_reducible refine State.linkDown_keeps ?_
    exact State.waitFrom_keeps h

theorem execHelloTimer_keeps (h : Keeps b s0 s) {a1} : Result.All (Keeps b s0) (execHelloTimer a1 s) := by
  unfold execHelloTimer
  extract_lets l1 s2 q3 x4
  have hs2 : Keeps b s0 s2 := by
    exact State.waitFrom_keeps h
  clear_value s2
  refine Result.all_ite ?_ ?_
  · refine Result.all_next ?_
    exact h
  · with_reducible refine finish_keeps ?_
    with_reducible refine State.sendLocal_keeps ?_
    exact State.setLink_keeps hs2

theorem execHold_keeps (h : Keeps b s0 s) {a1 a2 a3} : Result.All (Keeps b s0) (execHold a1 a2 a3 s) := by
  unfold execHold
  refine Result.all_ite ?_ ?_
  · with_reducible refine finish_keeps ?_
    with_reducible refine State.command_keeps ?_ ?_
    · exact h
    · intro s1 x2 k3
      exact State.holdOp_keeps k3
  · refine Result.all_next ?_
    exact h

theorem execHoldExpiry_keeps (h : Keeps b s0 s) {a1} : Result.All (Keeps b s0) (execHoldExpiry a1 s) := by
  unfold execHoldExpiry
  split
  · rename_i t1 p2
    split
    · rename_i x3 due4 heq5
      refine Result.all_ite ?_ ?_
      · with_reducible refine finish_keeps ?_
        with_reducible refine State.leaveHold_keeps ?_
        exact State.advance_keeps h
      · refine Result.all_next ?_
        exact h
    · rename_i x6 heq7
      refine Result.all_next ?_
      exact h
  · rename_i t8 k9
    split
    · rename_i x10 due11 heq12
      refine Result.all_ite ?_ ?_
      · with_reducible refine finish_keeps ?_
        with_reducible refine State.leaveGroupHold_keeps ?_
        exact State.advance_keeps h
      · refine Result.all_next ?_
        exact h
    · rename_i x13 heq14
      refine Result.all_next ?_
      exact h

theorem execHoldTakesEffect_keeps (h : Keeps b s0 s) {a1} : Result.All (Keeps b s0) (execHoldTakesEffect a1 s) := by
  unfold execHoldTakesEffect
  dsimp only
  split
  · rename_i t1 p2
    refine Result.all_ite ?_ ?_
    · with_reducible refine finish_keeps ?_
      exact State.holdArrives_keeps h
    · refine Result.all_next ?_
      exact h
  · rename_i t3 k4
    refine Result.all_ite ?_ ?_
    · with_reducible refine finish_keeps ?_
      exact State.groupHoldArrives_keeps h
    · refine Result.all_next ?_
      exact h

theorem execHostReset_keeps (h : Keeps b s0 s) : Result.All (Keeps b s0) (execHostReset s) := by
  unfold execHostReset
  extract_lets down1
  refine Result.all_ite ?_ ?_
  · with_reducible refine finish_keeps ?_
    with_reducible refine State.configReset_keeps ?_
    with_reducible refine State.pfReset_keeps ?_
    dsimp only [down1]
    exact Keeps.same h ⟨rfl, rfl⟩ rfl rfl rfl rfl rfl rfl rfl rfl rfl rfl
  · refine Result.all_next ?_
    dsimp only [down1]
    exact Keeps.same h ⟨rfl, rfl⟩ rfl rfl rfl rfl rfl rfl rfl rfl rfl rfl

theorem execImgActivate_keeps (h : Keeps b s0 s) {a1 a2 a3 a4} : Result.All (Keeps b s0) (execImgActivate a1 a2 a3 a4 s) := by
  unfold execImgActivate
  refine Result.all_ite ?_ ?_
  · with_reducible refine finish_keeps ?_
    with_reducible refine State.command_keeps ?_ ?_
    · exact h
    · intro s1 x2 k3
      exact State.imgActivateOp_keeps k3
  · refine Result.all_next ?_
    exact h

theorem execImgConfirm_keeps (h : Keeps b s0 s) {a1} : Result.All (Keeps b s0) (execImgConfirm a1 s) := by
  unfold execImgConfirm
  refine Result.all_ite ?_ ?_
  · with_reducible refine finish_keeps ?_
    with_reducible refine State.confirm_keeps ?_
    exact State.waitFrom_keeps h
  · refine Result.all_next ?_
    exact h

theorem execImgRevert_keeps (h : Keeps b s0 s) {a1} : Result.All (Keeps b s0) (execImgRevert a1 s) := by
  unfold execImgRevert
  refine Result.all_ite ?_ ?_
  · with_reducible refine finish_keeps ?_
    with_reducible refine State.safePoint_keeps ?_
    exact State.makeOther_keeps h
  · refine Result.all_next ?_
    exact h

theorem execImgWrite_keeps (h : Keeps b s0 s) {a1 a2 a3 a4 a5} : Result.All (Keeps b s0) (execImgWrite a1 a2 a3 a4 a5 s) := by
  unfold execImgWrite
  refine Result.all_ite ?_ ?_
  · refine Result.all_next ?_
    exact h
  · refine Result.all_ite ?_ ?_
    · exact trivial
    · with_reducible refine finish_keeps ?_
      with_reducible refine State.command_keeps ?_ ?_
      · exact h
      · intro s1 x2 k3
        exact State.imgWriteOp_keeps k3

theorem execInvalidOpcodeDescriptor_keeps (h : Keeps b s0 s) {a1 a2 a3 a4} : Result.All (Keeps b s0) (execInvalidOpcodeDescriptor a1 a2 a3 a4 s) := by
  unfold execInvalidOpcodeDescriptor
  extract_lets cfg1 p2 quiet3
  refine Result.all_ite ?_ ?_
  · with_reducible refine finish_keeps ?_
    with_reducible refine State.complete_keeps ?_
    exact State.fetch_keeps h
  · refine Result.all_next ?_
    exact h

theorem execKeyErase_keeps (h : Keeps b s0 s) {a1 a2 a3} : Result.All (Keeps b s0) (execKeyErase a1 a2 a3 s) := by
  unfold execKeyErase
  refine Result.all_ite ?_ ?_
  · with_reducible refine finish_keeps ?_
    with_reducible refine State.command_keeps ?_ ?_
    · exact h
    · intro s1 x2 k3
      exact State.keyEraseOp_keeps k3
  · refine Result.all_next ?_
    exact h

theorem execKeyGen_keeps (h : Keeps b s0 s) {a1 a2 a3} : Result.All (Keeps b s0) (execKeyGen a1 a2 a3 s) := by
  unfold execKeyGen
  refine Result.all_ite ?_ ?_
  · with_reducible refine finish_keeps ?_
    with_reducible refine State.command_keeps ?_ ?_
    · exact h
    · intro s1 x2 k3
      exact State.keyGenOp_keeps k3
  · refine Result.all_next ?_
    exact h

theorem execKeyLoad_keeps (h : Keeps b s0 s) {a1 a2 a3 a4} : Result.All (Keeps b s0) (execKeyLoad a1 a2 a3 a4 s) := by
  unfold execKeyLoad
  refine Result.all_ite ?_ ?_
  · refine Result.all_next ?_
    exact h
  · refine Result.all_ite ?_ ?_
    · exact trivial
    · with_reducible refine finish_keeps ?_
      with_reducible refine State.command_keeps ?_ ?_
      · exact h
      · intro s1 x2 k3
        exact State.keyLoadOp_keeps k3

theorem execKeyx_keeps (h : Keeps b s0 s) {a1 a2} : Result.All (Keeps b s0) (execKeyx a1 a2 s) := by
  unfold execKeyx
  extract_lets f1
  refine Result.all_ite ?_ ?_
  · refine Result.all_next ?_
    exact h
  · with_reducible refine State.rlTake_keeps ?_ ?_
    · exact h
    · intro s2 k3
      refine Keeps.ite ?_ ?_
      · exact State.rlDone_keeps k3
      · with_reducible refine State.keyxOp_keeps ?_
        exact State.rlDone_keeps k3

theorem execKeyxTimer_keeps (h : Keeps b s0 s) {a1} : Result.All (Keeps b s0) (execKeyxTimer a1 s) := by
  unfold execKeyxTimer
  refine Result.all_ite ?_ ?_
  · with_reducible refine finish_keeps ?_
    with_reducible refine State.sendKeyx_keeps ?_
    exact State.waitFrom_keeps h
  · refine Result.all_next ?_
    exact h

theorem execLinkTxStart_keeps (h : Keeps b s0 s) {a1 a2} : Result.All (Keeps b s0) (execLinkTxStart a1 a2 s) := by
  unfold execLinkTxStart
  extract_lets s1 busy2 s3
  have hs1 : Keeps b s0 s1 := by
    exact State.advance_keeps h
  clear_value s1
  have hs3 : Keeps b s0 s3 := by
    exact State.endWire_keeps hs1
  clear_value s3
  refine Result.all_ite ?_ ?_
  · refine Result.all_next ?_
    exact hs1
  · split
    · rename_i x4 heq5
      exact finish_keeps hs3
    · rename_i x6 x7 f8 heq9
      with_reducible refine finish_keeps ?_
      exact State.linkStart_keeps hs3

theorem execListenTimeout_keeps (h : Keeps b s0 s) {a1} : Result.All (Keeps b s0) (execListenTimeout a1 s) := by
  unfold execListenTimeout
  extract_lets g1
  refine Result.all_ite ?_ ?_
  · with_reducible refine finish_keeps ?_
    with_reducible refine State.sendCold_keeps ?_
    exact State.advance_keeps h
  · refine Result.all_next ?_
    exact h

theorem execLogClear_keeps (h : Keeps b s0 s) {a1 a2} : Result.All (Keeps b s0) (execLogClear a1 a2 s) := by
  unfold execLogClear
  with_reducible refine State.ownedWrite_keeps ?_ ?_
  · exact h
  · intro s1 k2
    exact State.writeLogCfg_keeps k2

theorem execLogIntake_keeps (h : Keeps b s0 s) : Result.All (Keeps b s0) (execLogIntake s) := by
  unfold execLogIntake
  dsimp only
  split
  · rename_i x1 heq2
    refine Result.all_next ?_
    exact h
  · rename_i x3 raw4 r5 rest6 heq7
    refine Result.all_ite ?_ ?_
    · refine Result.all_next ?_
      exact h
    · with_reducible refine finish_keeps ?_
      split
      · rename_i h8
        with_reducible refine State.domainRec_keeps ?_
        with_reducible refine State.reportLost_keeps ?_
        exact State.setLog_keeps h
      · rename_i h9
        with_reducible refine State.writeRec_keeps ?_
        with_reducible refine State.reportLost_keeps ?_
        exact State.setLog_keeps h

theorem execLogRead_keeps (h : Keeps b s0 s) {a1 a2 a3} : Result.All (Keeps b s0) (execLogRead a1 a2 a3 s) := by
  unfold execLogRead
  refine Result.all_ite ?_ ?_
  · with_reducible refine finish_keeps ?_
    with_reducible refine State.command_keeps ?_ ?_
    · exact h
    · intro s1 x2 k3
      exact State.logReadOp_keeps k3
  · refine Result.all_next ?_
    exact h

theorem execModeWrite_keeps (h : Keeps b s0 s) {a1 a2} : Result.All (Keeps b s0) (execModeWrite a1 a2 s) := by
  unfold execModeWrite
  with_reducible refine State.ownedWrite_keeps ?_ ?_
  · exact h
  · intro s1 k2
    exact State.writeMode_keeps k2

theorem execModerationGapEnd_keeps (h : Keeps b s0 s) {a1 a2} : Result.All (Keeps b s0) (execModerationGapEnd a1 a2 s) := by
  unfold execModerationGapEnd
  dsimp only
  split
  · rename_i t1 t2
    refine Result.all_ite ?_ ?_
    · refine Result.all_next ?_
      exact h
    · refine Result.all_ite ?_ ?_
      · refine Result.all_next ?_
        exact Keeps.same h ⟨rfl, rfl⟩ rfl rfl rfl rfl rfl rfl rfl rfl rfl rfl
      · with_reducible refine finish_keeps ?_
        with_reducible refine State.message_keeps ?_
        exact State.advance_keeps h
  · rename_i t3 u4
    refine Result.all_ite ?_ ?_
    · refine Result.all_next ?_
      exact h
    · split
      · rename_i x5 heq6
        refine Result.all_next ?_
        exact Keeps.same h ⟨rfl, rfl⟩ rfl rfl rfl rfl rfl rfl rfl rfl rfl rfl
      · rename_i x7 x8 heq9
        with_reducible refine finish_keeps ?_
        with_reducible refine State.sendVector_keeps ?_
        exact State.advance_keeps h

theorem execNop_keeps (h : Keeps b s0 s) {a1 a2 a3} : Result.All (Keeps b s0) (execNop a1 a2 a3 s) := by
  unfold execNop
  extract_lets i1 cfg2 p3 quiet4 s5 st6
  have hs5 : Keeps b s0 s5 := by
    exact State.fetch_keeps h
  clear_value s5
  refine Result.all_ite ?_ ?_
  · with_reducible refine finish_keeps ?_
    exact State.complete_keeps hs5
  · refine Result.all_next ?_
    exact h

theorem execObjCommit_keeps (h : Keeps b s0 s) {a1} : Result.All (Keeps b s0) (execObjCommit a1 s) := by
  unfold execObjCommit
  with_reducible refine State.ownFn_keeps ?_ ?_
  · exact h
  · intro s1 k2
    exact State.writeObjCmd_keeps k2

theorem execObjLoad_keeps (h : Keeps b s0 s) {a1} : Result.All (Keeps b s0) (execObjLoad a1 s) := by
  unfold execObjLoad
  with_reducible refine State.ownFn_keeps ?_ ?_
  · exact h
  · intro s1 k2
    exact State.writeObjCmd_keeps k2

theorem execObjRead_keeps (h : Keeps b s0 s) {a1 a2 a3} : Result.All (Keeps b s0) (execObjRead a1 a2 a3 s) := by
  unfold execObjRead
  refine Result.all_ite ?_ ?_
  · with_reducible refine finish_keeps ?_
    with_reducible refine State.command_keeps ?_ ?_
    · exact h
    · intro s1 x2 k3
      exact State.objReadOp_keeps k3
  · refine Result.all_next ?_
    exact h

theorem execObjReadCopyDone_keeps (h : Keeps b s0 s) {a1 a2} : Result.All (Keeps b s0) (execObjReadCopyDone a1 a2 s) := by
  unfold execObjReadCopyDone
  refine Result.all_ite ?_ ?_
  · with_reducible refine finish_keeps ?_
    exact State.endCopy_keeps h
  · refine Result.all_next ?_
    exact h

theorem execObjSend_keeps (h : Keeps b s0 s) {a1 a2 a3} : Result.All (Keeps b s0) (execObjSend a1 a2 a3 s) := by
  unfold execObjSend
  refine Result.all_ite ?_ ?_
  · with_reducible refine finish_keeps ?_
    with_reducible refine State.command_keeps ?_ ?_
    · exact h
    · intro s1 x2 k3
      exact State.objSendOp_keeps k3
  · refine Result.all_next ?_
    exact h

theorem execObjWrite_keeps (h : Keeps b s0 s) {a1 a2 a3 a4} : Result.All (Keeps b s0) (execObjWrite a1 a2 a3 a4 s) := by
  unfold execObjWrite
  refine Result.all_ite ?_ ?_
  · refine Result.all_next ?_
    exact h
  · refine Result.all_ite ?_ ?_
    · exact trivial
    · with_reducible refine finish_keeps ?_
      with_reducible refine State.command_keeps ?_ ?_
      · exact h
      · intro s1 x2 k3
        exact State.objWriteOp_keeps k3

theorem execOfflineFallback_keeps (h : Keeps b s0 s) {a1 a2} : Result.All (Keeps b s0) (execOfflineFallback a1 a2 s) := by
  unfold execOfflineFallback
  extract_lets st1 s2 x3
  have hs2 : Keeps b s0 s2 := by
    exact State.advance_keeps h
  clear_value s2
  refine Result.all_ite ?_ ?_
  · with_reducible refine finish_keeps ?_
    exact Keeps.same hs2 ⟨rfl, rfl⟩ rfl rfl rfl rfl rfl rfl rfl rfl rfl rfl
  · refine Result.all_next ?_
    exact h

theorem execOffsetSample_keeps (h : Keeps b s0 s) {a1 a2 a3} : Result.All (Keeps b s0) (execOffsetSample a1 a2 a3 s) := by
  unfold execOffsetSample
  refine Result.all_ite ?_ ?_
  · with_reducible refine finish_keeps ?_
    with_reducible refine State.command_keeps ?_ ?_
    · exact h
    · intro s1 x2 k3
      exact State.offsetOp_keeps k3
  · refine Result.all_next ?_
    exact h

theorem execOwnerEnrol_keeps (h : Keeps false s0 s) {a1 a2 a3 a4} : Result.All (Keeps false s0) (execOwnerEnrol a1 a2 a3 a4 s) := by
  unfold execOwnerEnrol
  refine Result.all_ite ?_ ?_
  · refine Result.all_next ?_
    exact h
  · refine Result.all_ite ?_ ?_
    · exact trivial
    · with_reducible refine finish_keeps ?_
      with_reducible refine State.command_keeps ?_ ?_
      · exact h
      · intro s1 x2 k3
        exact State.ownerEnrolOp_keeps k3

theorem execOwnerRelease_keeps (h : Keeps false s0 s) {a1 a2 a3 a4} : Result.All (Keeps false s0) (execOwnerRelease a1 a2 a3 a4 s) := by
  unfold execOwnerRelease
  refine Result.all_ite ?_ ?_
  · refine Result.all_next ?_
    exact h
  · refine Result.all_ite ?_ ?_
    · exact trivial
    · with_reducible refine finish_keeps ?_
      with_reducible refine State.command_keeps ?_ ?_
      · exact h
      · intro s1 x2 k3
        with_reducible refine State.signedOp_keeps ?_ ?_
        · exact k3
        · intro s4 k5
          extract_lets i6 slots7 s8 x9 x10
          have hs8 : Keeps false s0 s8 := by
            exact State.ownerErase_keeps k5
          clear_value s8
          with_reducible refine State.setLife_keeps ?_
          with_reducible refine State.setOtp_keeps ?_ ?_
          · exact hs8
          · intro x11
            dsimp only

theorem execPairInserted_keeps (h : Keeps b s0 s) {a1} : Result.All (Keeps b s0) (execPairInserted a1 s) := by
  unfold execPairInserted
  extract_lets x1
  refine Result.all_ite ?_ ?_
  · with_reducible refine finish_keeps ?_
    with_reducible refine State.portEvt_keeps ?_
    exact Keeps.same h ⟨rfl, rfl⟩ rfl rfl rfl rfl rfl rfl rfl rfl rfl rfl
  · refine Result.all_next ?_
    exact h

theorem execPauseEnd_keeps (h : Keeps b s0 s) {a1} : Result.All (Keeps b s0) (execPauseEnd a1 s) := by
  unfold execPauseEnd
  split
  · rename_i x1 heq2
    refine Result.all_next ?_
    exact h
  · rename_i x3 val4 heq5
    with_reducible refine finish_keeps ?_
    with_reducible refine State.ethKick_keeps ?_
    with_reducible refine State.endPause_keeps ?_
    exact State.advance_keeps h

theorem execPayloadLoaded_keeps (h : Keeps b s0 s) {a1 a2 a3 a4} : Result.All (Keeps b s0) (execPayloadLoaded a1 a2 a3 a4 s) := by
  unfold execPayloadLoaded
  extract_lets x1
  split
  · rename_i x2 heq3
    refine Result.all_next ?_
    exact h
  · rename_i x4 k5 heq6
    refine Result.all_ite ?_ ?_
    · refine Result.all_next ?_
      exact h
    · split
      · rename_i bytes7 bs8
        refine Result.all_ite ?_ ?_
        · exact trivial
        · with_reducible refine finish_keeps ?_
          exact State.setPort_keeps h
      · rename_i bytes9
        refine Result.all_ite ?_ ?_
        · with_reducible refine finish_keeps ?_
          exact State.setPort_keeps h
        · refine Result.all_ite ?_ ?_
          · with_reducible refine finish_keeps ?_
            exact State.setPort_keeps h
          · with_reducible refine finish_keeps ?_
            with_reducible refine State.countDev_keeps ?_
            exact State.setPort_keeps h

theorem execPerstHigh_keeps (h : Keeps b s0 s) : Result.All (Keeps b s0) (execPerstHigh s) := by
  unfold execPerstHigh
  refine Result.all_next ?_
  extract_lets x1
  exact Keeps.same h ⟨rfl, rfl⟩ rfl rfl rfl rfl rfl rfl rfl rfl rfl rfl

theorem execPfFlr_keeps (h : Keeps b s0 s) : Result.All (Keeps b s0) (execPfFlr s) := by
  unfold execPfFlr
  refine Result.all_ite ?_ ?_
  · with_reducible refine finish_keeps ?_
    exact State.pfReset_keeps h
  · refine Result.all_next ?_
    exact h

theorem execPortDisable_keeps (h : Keeps b s0 s) {a1 a2} : Result.All (Keeps b s0) (execPortDisable a1 a2 s) := by
  unfold execPortDisable
  exact State.writePortCmd_keeps h

theorem execPortEnable_keeps (h : Keeps b s0 s) {a1 a2} : Result.All (Keeps b s0) (execPortEnable a1 a2 s) := by
  unfold execPortEnable
  exact State.writePortCmd_keeps h

theorem execPortRestart_keeps (h : Keeps b s0 s) {a1 a2} : Result.All (Keeps b s0) (execPortRestart a1 a2 s) := by
  unfold execPortRestart
  exact State.writePortCmd_keeps h

theorem execPortSleep_keeps (h : Keeps b s0 s) {a1 a2} : Result.All (Keeps b s0) (execPortSleep a1 a2 s) := by
  unfold execPortSleep
  exact State.writePortCmd_keeps h

theorem execPortStart_keeps (h : Keeps b s0 s) {a1 a2} : Result.All (Keeps b s0) (execPortStart a1 a2 s) := by
  unfold execPortStart
  exact State.writePortCmd_keeps h

theorem execPortStop_keeps (h : Keeps b s0 s) {a1 a2} : Result.All (Keeps b s0) (execPortStop a1 a2 s) := by
  unfold execPortStop
  exact State.writePortCmd_keeps h

theorem execPortStopEffect_keeps (h : Keeps b s0 s) {a1} : Result.All (Keeps b s0) (execPortStopEffect a1 s) := by
  unfold execPortStopEffect
  extract_lets x1
  refine Result.all_ite ?_ ?_
  · refine Result.all_next ?_
    exact h
  · refine Result.all_ite ?_ ?_
    · with_reducible refine finish_keeps ?_
      with_reducible refine State.portEvt_keeps ?_
      exact State.toStopped_keeps h
    · refine Result.all_ite ?_ ?_
      · with_reducible refine finish_keeps ?_
        exact State.toStopped_keeps h
      · refine Result.all_next ?_
        exact h

theorem execPortWake_keeps (h : Keeps b s0 s) {a1 a2} : Result.All (Keeps b s0) (execPortWake a1 a2 s) := by
  unfold execPortWake
  exact State.writePortCmd_keeps h

theorem execPowerOnReset_keeps (h : Keeps b s0 s) : Result.All (Keeps b s0) (execPowerOnReset s) := by
  unfold execPowerOnReset
  refine Result.all_next ?_
  exact State.powerOn_keeps h

theorem execPpsEdge_keeps (h : Keeps b s0 s) {a1 a2 a3} : Result.All (Keeps b s0) (execPpsEdge a1 a2 a3 s) := by
  unfold execPpsEdge
  extract_lets c1 early2 s3 at4 p5 x6 s7
  have hs3 : Keeps b s0 s3 := by
    exact State.advance_keeps h
  clear_value s3
  have hs7 : Keeps b s0 s7 := by
    exact State.setTmu_keeps hs3
  clear_value s7
  refine Result.all_ite ?_ ?_
  · refine Result.all_next ?_
    exact h
  · with_reducible refine finish_keeps ?_
    exact State.offerSample_keeps hs7

theorem execPtpMessageInterval_keeps (h : Keeps b s0 s) {a1 a2} : Result.All (Keeps b s0) (execPtpMessageInterval a1 a2 s) := by
  unfold execPtpMessageInterval
  refine Result.all_ite ?_ ?_
  · refine Result.all_next ?_
    exact h
  · extract_lets master1
    split
    · rename_i m2
      refine Result.all_ite ?_ ?_
      · with_reducible refine finish_keeps ?_
        with_reducible refine State.ptpSend_keeps ?_
        exact State.ptpTurn_keeps h
      · refine Result.all_next ?_
        exact h
    · rename_i m3
      with_reducible refine finish_keeps ?_
      with_reducible refine State.ptpSend_keeps ?_
      exact State.ptpTurn_keeps h
    · rename_i m4
      refine Result.all_ite ?_ ?_
      · with_reducible refine finish_keeps ?_
        with_reducible refine State.ptpSend_keeps ?_
        exact State.ptpTurn_keeps h
      · refine Result.all_next ?_
        exact h

theorem execPtpProfileWrite_keeps (h : Keeps b s0 s) {a1 a2} : Result.All (Keeps b s0) (execPtpProfileWrite a1 a2 s) := by
  unfold execPtpProfileWrite
  with_reducible refine State.ownedWrite_keeps ?_ ?_
  · exact h
  · intro s1 k2
    exact State.writePtpg_keeps k2

theorem execPulseEdge_keeps (h : Keeps b s0 s) {a1} : Result.All (Keeps b s0) (execPulseEdge a1 s) := by
  unfold execPulseEdge
  extract_lets p1
  split
  · rename_i x2 l3 heq4
    with_reducible refine finish_keeps ?_
    exact State.pulseEnds_keeps h
  · rename_i x5 heq6
    refine Result.all_ite ?_ ?_
    · with_reducible refine finish_keeps ?_
      exact State.pulseStarts_keeps h
    · refine Result.all_next ?_
      exact h

theorem execRaiseConfirmed_keeps (h : Keeps b s0 s) : Result.All (Keeps b s0) (execRaiseConfirmed s) := by
  unfold execRaiseConfirmed
  refine Result.all_ite ?_ ?_
  · extract_lets s1 x2
    have hs1 : Keeps b s0 s1 := by
      exact State.waitFrom_keeps h
    clear_value s1
    with_reducible refine finish_keeps ?_
    with_reducible refine State.crnEvent_keeps ?_
    exact State.modeGoes_keeps hs1
  · refine Result.all_next ?_
    exact h

theorem execRaiseTimeout_keeps (h : Keeps b s0 s) : Result.All (Keeps b s0) (execRaiseTimeout s) := by
  unfold execRaiseTimeout
  refine Result.all_ite ?_ ?_
  · refine Result.all_next ?_
    exact h
  · extract_lets s1 x2 s3
    have hs1 : Keeps b s0 s1 := by
      exact State.waitFrom_keeps h
    clear_value s1
    have hs3 : Keeps b s0 s3 := by
      exact State.modeGoes_keeps hs1
    clear_value s3
    with_reducible refine finish_keeps ?_
    with_reducible refine State.crnEvent_keeps ?_
    exact State.setRf_keeps hs3

theorem execReclaim_keeps (h : Keeps b s0 s) {a1 a2} : Result.All (Keeps b s0) (execReclaim a1 a2 s) := by
  unfold execReclaim
  exact State.submit_keeps h

theorem execRecordComplete_keeps (h : Keeps b s0 s) : Result.All (Keeps b s0) (execRecordComplete s) := by
  unfold execRecordComplete
  dsimp only
  split
  · rename_i x1 heq2
    refine Result.all_next ?_
    exact h
  · rename_i x3 a4 heq5
    refine Result.all_ite ?_ ?_
    · refine Result.all_next ?_
      exact h
    · with_reducible refine finish_keeps ?_
      refine Keeps.foldl ?_ ?_
      · with_reducible refine State.record_keeps ?_
        exact Keeps.same h ⟨rfl, rfl⟩ rfl rfl rfl rfl rfl rfl rfl rfl rfl rfl
      · intro s6 x7 k8
        exact State.actHeld_keeps k8

theorem execRecoverySeqEnd_keeps (h : Keeps b s0 s) {a1} : Result.All (Keeps b s0) (execRecoverySeqEnd a1 s) := by
  unfold execRecoverySeqEnd
  refine Result.all_ite ?_ ?_
  · extract_lets s1 x2 y3 s4
    have hs1 : Keeps b s0 s1 := by
      exact State.waitFrom_keeps h
    clear_value s1
    have hs4 : Keeps b s0 s4 := by
      refine Keeps.ite ?_ ?_
      · exact State.showPort_keeps hs1
      · exact State.setPort_keeps hs1
    clear_value s4
    with_reducible refine finish_keeps ?_
    exact State.holdArrives_keeps hs4
  · refine Result.all_next ?_
    exact h

theorem execRef25Lock_keeps (h : Keeps b s0 s) : Result.All (Keeps b s0) (execRef25Lock s) := by
  unfold execRef25Lock
  refine Result.all_ite ?_ ?_
  · refine Result.all_next ?_
    exact h
  · extract_lets back1 x2 s3
    have hs3 : Keeps b s0 s3 := by
      exact State.setTmu_keeps h
    clear_value s3
    with_reducible refine finish_keeps ?_
    refine Keeps.ite ?_ ?_
    · exact State.raise_keeps hs3
    · exact hs3

theorem execRef25Loss_keeps (h : Keeps b s0 s) : Result.All (Keeps b s0) (execRef25Loss s) := by
  unfold execRef25Loss
  refine Result.all_ite ?_ ?_
  · with_reducible refine finish_keeps ?_
    with_reducible refine State.raise_keeps ?_
    extract_lets x1
    exact State.setTmu_keeps h
  · refine Result.all_next ?_
    exact h

theorem execRefBackupTimeout_keeps (h : Keeps b s0 s) {a1} : Result.All (Keeps b s0) (execRefBackupTimeout a1 s) := by
  unfold execRefBackupTimeout
  extract_lets g1
  refine Result.all_ite ?_ ?_
  · with_reducible refine finish_keeps ?_
    exact State.sendRef_keeps h
  · refine Result.all_next ?_
    exact h

theorem execRefHoldoverExpiry_keeps (h : Keeps b s0 s) : Result.All (Keeps b s0) (execRefHoldoverExpiry s) := by
  unfold execRefHoldoverExpiry
  refine Result.all_ite ?_ ?_
  · refine Result.all_next ?_
    exact h
  · extract_lets s1 x2 s3 s4
    have hs1 : Keeps b s0 s1 := by
      exact State.waitFrom_keeps h
    clear_value s1
    have hs3 : Keeps b s0 s3 := by
      exact Keeps.same hs1 ⟨rfl, rfl⟩ rfl rfl rfl rfl rfl rfl rfl rfl rfl rfl
    clear_value s3
    have hs4 : Keeps b s0 s4 := by
      refine Keeps.foldl ?_ ?_
      · exact hs3
      · intro s5 x6 k7
        refine Keeps.ite ?_ ?_
        · exact k7
        · extract_lets x8 s9 x10
          have hs9 : Keeps b s0 s9 := by
            with_reducible refine State.setGroup_keeps ?_
            exact State.withdrawPairs_keeps k7
          clear_value s9
          exact State.setPort_keeps hs9
    clear_value s4
    with_reducible refine finish_keeps ?_
    refine Keeps.foldl ?_ ?_
    · exact hs4
    · intro s11 x12 k13
      exact State.refLost_keeps k13

theorem execRegisterWrite_keeps (h : Keeps b s0 s) {a1 a2 a3 a4} : Result.All (Keeps b s0) (execRegisterWrite a1 a2 a3 a4 s) := by
  unfold execRegisterWrite
  dsimp only
  split
  · rename_i t1 off2
    exact State.bar0Write_keeps h
  · rename_i t3 off4
    refine Result.all_ite ?_ ?_
    · with_reducible refine finish_keeps ?_
      exact State.bar2Write_keeps h
    · refine Result.all_next ?_
      exact h
  · rename_i t5 off6
    refine Result.all_ite ?_ ?_
    · with_reducible refine finish_keeps ?_
      exact State.bar4Write_keeps h
    · refine Result.all_next ?_
      exact h
  · rename_i t7 en8 n9
    refine Result.all_ite ?_ ?_
    · refine Result.all_next ?_
      exact h
    · with_reducible refine finish_keeps ?_
      exact Keeps.same h ⟨rfl, rfl⟩ rfl rfl rfl rfl rfl rfl rfl rfl rfl rfl
  · rename_i t10 en11 fm12
    refine Result.all_ite ?_ ?_
    · with_reducible refine finish_keeps ?_
      exact State.msixRequest_keeps h
    · refine Result.all_next ?_
      exact h

theorem execRejoinSeqEnd_keeps (h : Keeps b s0 s) {a1 a2} : Result.All (Keeps b s0) (execRejoinSeqEnd a1 a2 s) := by
  unfold execRejoinSeqEnd
  extract_lets x1 s2 x3
  have hs2 : Keeps b s0 s2 := by
    exact State.waitFrom_keeps h
  clear_value s2
  refine Result.all_ite ?_ ?_
  · with_reducible refine finish_keeps ?_
    with_reducible refine State.joinBranch_keeps ?_
    exact State.setBranch_keeps hs2
  · refine Result.all_next ?_
    exact h

theorem execReload_keeps (h : Keeps b s0 s) {a1 a2} : Result.All (Keeps b s0) (execReload a1 a2 s) := by
  unfold execReload
  exact State.secmdRequest_keeps h

theorem execRetest_keeps (h : Keeps b s0 s) {a1 a2} : Result.All (Keeps b s0) (execRetest a1 a2 s) := by
  unfold execRetest
  exact State.secmdRequest_keeps h

theorem execRetire_keeps (h : Keeps false s0 s) {a1 a2 a3 a4} : Result.All (Keeps false s0) (execRetire a1 a2 a3 a4 s) := by
  unfold execRetire
  refine Result.all_ite ?_ ?_
  · refine Result.all_next ?_
    exact h
  · refine Result.all_ite ?_ ?_
    · exact trivial
    · with_reducible refine finish_keeps ?_
      with_reducible refine State.command_keeps ?_ ?_
      · exact h
      · intro s1 x2 k3
        exact State.retireOp_keeps k3

theorem execRingDisable_keeps (h : Keeps b s0 s) {a1 a2 a3} : Result.All (Keeps b s0) (execRingDisable a1 a2 a3 s) := by
  unfold execRingDisable
  exact State.ringRequest_keeps h

theorem execRingDisableDone_keeps (h : Keeps b s0 s) {a1 a2} : Result.All (Keeps b s0) (execRingDisableDone a1 a2 s) := by
  unfold execRingDisableDone
  extract_lets i1 x2
  refine Result.all_ite ?_ ?_
  · with_reducible refine finish_keeps ?_
    with_reducible refine State.closeCqs_keeps ?_
    exact State.setRing_keeps h
  · refine Result.all_next ?_
    exact h

theorem execRingEnable_keeps (h : Keeps b s0 s) {a1 a2 a3} : Result.All (Keeps b s0) (execRingEnable a1 a2 a3 s) := by
  unfold execRingEnable
  exact State.ringRequest_keeps h

theorem execRingPoll_keeps (h : Keeps b s0 s) {a1 a2 a3} : Result.All (Keeps b s0) (execRingPoll a1 a2 a3 s) := by
  unfold execRingPoll
  extract_lets i1 t2 s3 x4
  have hs3 : Keeps b s0 s3 := by
    exact State.waitFrom_keeps h
  clear_value s3
  refine Result.all_ite ?_ ?_
  · with_reducible refine finish_keeps ?_
    with_reducible refine State.readIndex_keeps ?_
    exact State.setRing_keeps hs3
  · refine Result.all_next ?_
    exact h

theorem execRlAligned_keeps (h : Keeps b s0 s) {a1} : Result.All (Keeps b s0) (execRlAligned a1 s) := by
  unfold execRlAligned
  extract_lets l1 s2 s3
  have hs2 : Keeps b s0 s2 := by
    exact State.setLink_keeps h
  clear_value s2
  have hs3 : Keeps b s0 s3 := by
    refine Keeps.foldl ?_ ?_
    · exact hs2
    · intro s4 x5 k6
      exact State.reportCredit_keeps k6
  clear_value s3
  refine Result.all_ite ?_ ?_
  · refine Result.all_next ?_
    exact h
  · with_reducible refine finish_keeps ?_
    refine Keeps.ite ?_ ?_
    · exact State.enterKeying_keeps hs3
    · exact hs3

theorem execRlEnable_keeps (h : Keeps b s0 s) {a1 a2 a3} : Result.All (Keeps b s0) (execRlEnable a1 a2 a3 s) := by
  unfold execRlEnable
  with_reducible refine State.ownedWrite_keeps ?_ ?_
  · exact h
  · intro s1 k2
    exact State.writeRlCfg_keeps k2

theorem execRlFault_keeps (h : Keeps b s0 s) {a1 a2} : Result.All (Keeps b s0) (execRlFault a1 a2 s) := by
  unfold execRlFault
  extract_lets l1
  refine Result.all_ite ?_ ?_
  · refine Result.all_next ?_
    exact h
  · with_reducible refine finish_keeps ?_
    with_reducible refine State.linkDown_keeps ?_
    exact State.setLink_keeps h

theorem execRlFrameDiscard_keeps (h : Keeps b s0 s) {a1 a2 a3 a4} : Result.All (Keeps b s0) (execRlFrameDiscard a1 a2 a3 a4 s) := by
  unfold execRlFrameDiscard
  refine Result.all_ite ?_ ?_
  · extract_lets s1
    have hs1 : Keeps b s0 s1 := by
      unfold s1
      split
      · rename_i x2 f3 heq4
        refine Keeps.ite ?_ ?_
        · exact State.cutThrough_keeps h
        · exact h
      · rename_i x5 heq6
        exact h
    clear_value s1
    with_reducible refine finish_keeps ?_
    with_reducible refine State.returnCredit_keeps ?_
    exact State.countLink_keeps hs1
  · refine Result.all_next ?_
    exact h

theorem execRmaEnter_keeps (h : Keeps false s0 s) {a1 a2 a3 a4} : Result.All (Keeps false s0) (execRmaEnter a1 a2 a3 a4 s) := by
  unfold execRmaEnter
  refine Result.all_ite ?_ ?_
  · refine Result.all_next ?_
    exact h
  · refine Result.all_ite ?_ ?_
    · exact trivial
    · with_reducible refine finish_keeps ?_
      with_reducible refine State.command_keeps ?_ ?_
      · exact h
      · intro s1 x2 k3
        with_reducible refine State.signedOp_keeps ?_ ?_
        · exact k3
        · intro s4 k5
          exact State.killDus_keeps k5

theorem execRouteAssign_keeps (h : Keeps b s0 s) {a1 a2} : Result.All (Keeps b s0) (execRouteAssign a1 a2 s) := by
  unfold execRouteAssign
  exact State.submit_keeps h

theorem execRouteRecompute_keeps (h : Keeps b s0 s) : Result.All (Keeps b s0) (execRouteRecompute s) := by
  unfold execRouteRecompute
  refine Result.all_ite ?_ ?_
  · refine Result.all_next ?_
    exact h
  · with_reducible refine finish_keeps ?_
    refine Keeps.foldl ?_ ?_
    · exact h
    · intro s1 x2 k3
      exact State.setRoute_keeps k3

theorem execRouted_keeps (h : Keeps b s0 s) {a1 a2} : Result.All (Keeps b s0) (execRouted a1 a2 s) := by
  unfold execRouted
  refine Result.all_ite ?_ ?_
  · refine Result.all_next ?_
    exact h
  · with_reducible refine State.rlTake_keeps ?_ ?_
    · exact h
    · intro s1 k2
      exact State.routedOp_keeps k2

theorem execRtRead_keeps (h : Keeps b s0 s) {a1 a2 a3} : Result.All (Keeps b s0) (execRtRead a1 a2 a3 s) := by
  unfold execRtRead
  refine Result.all_ite ?_ ?_
  · with_reducible refine finish_keeps ?_
    with_reducible refine State.command_keeps ?_ ?_
    · exact h
    · intro s1 x2 k3
      exact State.rtReadOp_keeps k3
  · refine Result.all_next ?_
    exact h

theorem execRtWrite_keeps (h : Keeps b s0 s) {a1 a2 a3 a4} : Result.All (Keeps b s0) (execRtWrite a1 a2 a3 a4 s) := by
  unfold execRtWrite
  refine Result.all_ite ?_ ?_
  · refine Result.all_next ?_
    exact h
  · refine Result.all_ite ?_ ?_
    · exact trivial
    · with_reducible refine finish_keeps ?_
      with_reducible refine State.command_keeps ?_ ?_
      · exact h
      · intro s1 x2 k3
        exact State.rtWriteOp_keeps k3

theorem execRxBuf_keeps (h : Keeps b s0 s) {a1 a2 a3} : Result.All (Keeps b s0) (execRxBuf a1 a2 a3 s) := by
  unfold execRxBuf
  refine Result.all_ite ?_ ?_
  · extract_lets s1 i2 x3
    have hs1 : Keeps b s0 s1 := by
      exact State.fetch_keeps h
    clear_value s1
    refine Result.all_ite ?_ ?_
    · with_reducible refine finish_keeps ?_
      exact State.returnBuffer_keeps hs1
    · with_reducible refine finish_keeps ?_
      with_reducible refine State.serve_keeps ?_
      exact State.setRing_keeps hs1
  · refine Result.all_next ?_
    exact h

theorem execScrub_keeps (h : Keeps b s0 s) {a1 a2 a3} : Result.All (Keeps b s0) (execScrub a1 a2 a3 s) := by
  unfold execScrub
  extract_lets c1 s2 s3
  have hs2 : Keeps b s0 s2 := by
    exact State.setCairn_keeps h
  clear_value s2
  have hs3 : Keeps b s0 s3 := by
    exact State.scrubActs_keeps hs2
  clear_value s3
  refine Result.all_ite ?_ ?_
  · with_reducible refine finish_keeps ?_
    exact State.setCairn_keeps h
  · with_reducible refine finish_keeps ?_
    with_reducible refine State.crnEvent_keeps ?_
    exact State.record_keeps hs3

theorem execSelfTest_keeps (h : Keeps b s0 s) {a1 a2 a3} : Result.All (Keeps b s0) (execSelfTest a1 a2 a3 s) := by
  unfold execSelfTest
  refine Result.all_ite ?_ ?_
  · with_reducible refine finish_keeps ?_
    with_reducible refine State.command_keeps ?_ ?_
    · exact h
    · intro s1 x2 k3
      exact State.selfTestOp_keeps k3
  · refine Result.all_next ?_
    exact h

theorem execSelfTestEnd_keeps (h : Keeps b s0 s) {a1 a2 a3} : Result.All (Keeps b s0) (execSelfTestEnd a1 a2 a3 s) := by
  unfold execSelfTestEnd
  dsimp only
  split
  · rename_i x1 heq2
    refine Result.all_next ?_
    exact h
  · rename_i x3 t4 heq5
    refine Result.all_ite ?_ ?_
    · refine Result.all_next ?_
      exact h
    · with_reducible refine finish_keeps ?_
      with_reducible refine State.turnTests_keeps ?_
      with_reducible refine State.replayTest_keeps ?_
      with_reducible refine State.complete_keeps ?_
      with_reducible refine State.record_keeps ?_
      with_reducible refine State.setCairn_keeps ?_
      exact State.testOutcome_keeps h

theorem execSelfTestForcedStart_keeps (h : Keeps b s0 s) : Result.All (Keeps b s0) (execSelfTestForcedStart s) := by
  unfold execSelfTestForcedStart
  split
  · rename_i x1 heq2
    refine Result.all_ite ?_ ?_
    · refine Result.all_next ?_
      exact h
    · with_reducible refine finish_keeps ?_
      exact State.turnTests_keeps h
  · rename_i x3 t4 heq5
    refine Result.all_ite ?_ ?_
    · refine Result.all_next ?_
      exact h
    · with_reducible refine finish_keeps ?_
      exact State.forcedStart_keeps h

theorem execSensorSample_keeps (h : Keeps b s0 s) {a1} : Result.All (Keeps b s0) (execSensorSample a1 s) := by
  unfold execSensorSample
  split
  · rename_i r1 q2
    refine Result.all_ite ?_ ?_
    · with_reducible refine finish_keeps ?_
      exact State.sampleTemp_keeps h
    · refine Result.all_next ?_
      exact h
  · rename_i r3 mv4
    refine Result.all_ite ?_ ?_
    · with_reducible refine finish_keeps ?_
      exact State.sampleRail_keeps h
    · refine Result.all_next ?_
      exact h
  · rename_i r5 ps6
    refine Result.all_ite ?_ ?_
    · with_reducible refine finish_keeps ?_
      exact State.samplePace_keeps h
    · refine Result.all_next ?_
      exact h
  · rename_i r7 ppm8
    refine Result.all_ite ?_ ?_
    · with_reducible refine finish_keeps ?_
      exact State.sampleAge_keeps h
    · refine Result.all_next ?_
      exact h

theorem execServoEnable_keeps (h : Keeps b s0 s) {a1 a2} : Result.All (Keeps b s0) (execServoEnable a1 a2 s) := by
  unfold execServoEnable
  with_reducible refine State.ownedWrite_keeps ?_ ?_
  · exact h
  · intro s1 k2
    exact State.writeServo_keeps k2

theorem execServoHoldover_keeps (h : Keeps b s0 s) : Result.All (Keeps b s0) (execServoHoldover s) := by
  unfold execServoHoldover
  refine Result.all_ite ?_ ?_
  · extract_lets s1 s2 x3
    have hs1 : Keeps b s0 s1 := by
      exact State.advance_keeps h
    clear_value s1
    have hs2 : Keeps b s0 s2 := by
      exact State.setRate_keeps hs1
    clear_value s2
    with_reducible refine finish_keeps ?_
    with_reducible refine State.raise_keeps ?_
    with_reducible refine State.servoGoes_keeps ?_
    exact State.setTmu_keeps hs2
  · refine Result.all_next ?_
    exact h

theorem execServoSample_keeps (h : Keeps b s0 s) : Result.All (Keeps b s0) (execServoSample s) := by
  unfold execServoSample
  dsimp only
  split
  · rename_i x1 heq2
    refine Result.all_next ?_
    exact h
  · rename_i x3 a4 e5 r6 rest7 heq8
    with_reducible refine finish_keeps ?_
    with_reducible refine State.takeSample_keeps ?_
    exact State.setTmu_keeps h

theorem execSetEndpointId_keeps (h : Keeps b s0 s) {a1} : Result.All (Keeps b s0) (execSetEndpointId a1 s) := by
  unfold execSetEndpointId
  with_reducible refine State.whileUp_keeps ?_ ?_
  · exact h
  · intro s1 k2
    refine Keeps.ite ?_ ?_
    · exact State.control_keeps k2
    · with_reducible refine State.control_keeps ?_
      extract_lets x3
      exact State.setCairn_keeps k2

theorem execSetMode_keeps (h : Keeps b s0 s) {a1 a2} : Result.All (Keeps b s0) (execSetMode a1 a2 s) := by
  unfold execSetMode
  with_reducible refine State.request_keeps ?_ ?_
  · exact h
  · intro s1 k2
    dsimp only
    refine Keeps.ite ?_ ?_
    · with_reducible refine State.respond_keeps ?_
      exact State.writeMode_keeps k2
    · refine Keeps.ite ?_ ?_
      · with_reducible refine State.respond_keeps ?_
        exact State.writeMode_keeps k2
      · with_reducible refine State.respond_keeps ?_
        exact State.writeMode_keeps k2

theorem execSlotMissed_keeps (h : Keeps b s0 s) {a1 a2} : Result.All (Keeps b s0) (execSlotMissed a1 a2 s) := by
  unfold execSlotMissed
  dsimp only
  split
  · rename_i x1 x2 k3 e4 heq5 heq6
    split
    · rename_i x7 heq8
      refine Result.all_next ?_
      exact h
    · rename_i x9 t10 heq11
      refine Result.all_ite ?_ ?_
      · split
        · rename_i x12 l13 heq14
          with_reducible refine finish_keeps ?_
          refine Keeps.ite ?_ ?_
          · with_reducible refine State.slotPassed_keeps ?_
            exact State.advance_keeps h
          · exact State.advance_keeps h
        · rename_i x15 heq16
          refine Result.all_next ?_
          exact h
      · refine Result.all_next ?_
        exact h
  · rename_i x17 x18 x19
    refine Result.all_next ?_
    exact h

theorem execSmbusReset_keeps (h : Keeps b s0 s) {a1 a2} : Result.All (Keeps b s0) (execSmbusReset a1 a2 s) := by
  unfold execSmbusReset
  with_reducible refine State.request_keeps ?_ ?_
  · exact h
  · intro s1 k2
    extract_lets x3
    with_reducible refine State.setCairn_keeps ?_
    exact State.respond_keeps k2

theorem execStage_keeps (h : Keeps b s0 s) {a1 a2 a3} : Result.All (Keeps b s0) (execStage a1 a2 a3 s) := by
  unfold execStage
  extract_lets o1
  with_reducible refine State.request_keeps ?_ ?_
  · exact h
  · intro s2 k3
    split
    · rename_i x4 heq5
      exact State.respond_keeps k3
    · rename_i x6 s7 heq8
      with_reducible refine State.respond_keeps ?_
      exact State.stageWrite_keeps k3 heq8

theorem execStagingHolderTimeout_keeps (h : Keeps b s0 s) : Result.All (Keeps b s0) (execStagingHolderTimeout s) := by
  unfold execStagingHolderTimeout
  refine Result.all_ite ?_ ?_
  · refine Result.all_next ?_
    exact h
  · extract_lets s1 x2
    have hs1 : Keeps b s0 s1 := by
      exact State.waitFrom_keeps h
    clear_value s1
    with_reducible refine finish_keeps ?_
    exact State.setCairn_keeps hs1

theorem execStarSof_keeps (h : Keeps b s0 s) {a1 a2 a3 a4 a5 a6} : Result.All (Keeps b s0) (execStarSof a1 a2 a3 a4 a5 a6 s) := by
  unfold execStarSof
  refine Result.all_ite ?_ ?_
  · refine Result.all_next ?_
    exact h
  · refine Result.all_ite ?_ ?_
    · with_reducible refine finish_keeps ?_
      exact State.starSofOp_keeps h
    · with_reducible refine finish_keeps ?_
      exact State.joinFrame_keeps h

theorem execStartDecision_keeps (h : Keeps b s0 s) {a1 a2} : Result.All (Keeps b s0) (execStartDecision a1 a2 s) := by
  unfold execStartDecision
  extract_lets refDue1
  refine Result.all_ite ?_ ?_
  · exact trivial
  · refine Result.all_ite ?_ ?_
    · refine Result.all_next ?_
      exact h
    · refine Result.all_ite ?_ ?_
      · refine Result.all_ite ?_ ?_
        · with_reducible refine finish_keeps ?_
          exact State.startOp_keeps h
        · refine Result.all_next ?_
          exact h
      · refine Result.all_ite ?_ ?_
        · with_reducible refine finish_keeps ?_
          exact State.startOp_keeps h
        · refine Result.all_next ?_
          exact h

theorem execStuckIsolate_keeps (h : Keeps b s0 s) {a1 a2} : Result.All (Keeps b s0) (execStuckIsolate a1 a2 s) := by
  unfold execStuckIsolate
  extract_lets x1
  refine Result.all_ite ?_ ?_
  · with_reducible refine finish_keeps ?_
    exact State.isolate_keeps h
  · refine Result.all_next ?_
    exact h

theorem execSuspendEnd_keeps (h : Keeps b s0 s) {a1} : Result.All (Keeps b s0) (execSuspendEnd a1 s) := by
  unfold execSuspendEnd
  refine Result.all_ite ?_ ?_
  · with_reducible refine finish_keeps ?_
    extract_lets x1
    exact State.setPort_keeps h
  · refine Result.all_next ?_
    exact h

theorem execSvcRestart_keeps (h : Keeps b s0 s) {a1} : Result.All (Keeps b s0) (execSvcRestart a1 s) := by
  unfold execSvcRestart
  refine Result.all_ite ?_ ?_
  · extract_lets s1 s2
    have hs1 : Keeps b s0 s1 := by
      exact State.spoil_keeps h
    clear_value s1
    have hs2 : Keeps b s0 s2 := by
      unfold s2
      split
      · rename_i x3 a4 heq5
        exact State.windowRecord_keeps hs1
      · rename_i x6 heq7
        exact hs1
    clear_value s2
    with_reducible refine finish_keeps ?_
    exact State.restartService_keeps hs2
  · refine Result.all_next ?_
    exact h

theorem execSvcRestartEnd_keeps (h : Keeps b s0 s) : Result.All (Keeps b s0) (execSvcRestartEnd s) := by
  unfold execSvcRestartEnd
  refine Result.all_ite ?_ ?_
  · with_reducible refine finish_keeps ?_
    extract_lets x1
    exact State.setCairn_keeps h
  · refine Result.all_next ?_
    exact h

theorem execSwapQuietPoint_keeps (h : Keeps b s0 s) : Result.All (Keeps b s0) (execSwapQuietPoint s) := by
  unfold execSwapQuietPoint
  split
  · rename_i x1 w2 e3 old4 heq5
    with_reducible refine finish_keeps ?_
    with_reducible refine State.engineTestAfterSwap_keeps ?_
    exact State.swapNow_keeps h
  · rename_i x6 heq7
    refine Result.all_next ?_
    exact h

theorem execSwapTimeout_keeps (h : Keeps b s0 s) : Result.All (Keeps b s0) (execSwapTimeout s) := by
  unfold execSwapTimeout
  split
  · rename_i x1 w2 heq3
    with_reducible refine finish_keeps ?_
    with_reducible refine State.endSwap_keeps ?_
    with_reducible refine State.releaseSwap_keeps ?_
    exact State.waitFrom_keeps h
  · rename_i x4 heq5
    refine Result.all_next ?_
    exact h

theorem execTakeoverDone_keeps (h : Keeps b s0 s) {a1} : Result.All (Keeps b s0) (execTakeoverDone a1 s) := by
  unfold execTakeoverDone
  dsimp only
  split
  · rename_i x1 heq2
    refine Result.all_next ?_
    exact h
  · rename_i x3 fst4 e5 heq6
    with_reducible refine finish_keeps ?_
    with_reducible refine State.passFifo_keeps ?_
    with_reducible refine State.returnPort_keeps ?_
    with_reducible refine State.countDestroyed_keeps ?_
    with_reducible refine State.setPort_keeps ?_
    refine Keeps.foldl ?_ ?_
    · with_reducible refine State.attach_keeps ?_
      exact Keeps.same h ⟨rfl, rfl⟩ rfl rfl rfl rfl rfl rfl rfl rfl rfl rfl
    · intro s7 x8 k9
      exact State.settleRecord_keeps k9

theorem execTimeReply_keeps (h : Keeps b s0 s) {a1 a2 a3} : Result.All (Keeps b s0) (execTimeReply a1 a2 a3 s) := by
  unfold execTimeReply
  extract_lets f1 s2
  have hs2 : Keeps b s0 s2 := by
    exact State.advance_keeps h
  clear_value s2
  refine Result.all_ite ?_ ?_
  · refine Result.all_next ?_
    exact h
  · with_reducible refine State.rlTake_keeps ?_ ?_
    · exact hs2
    · intro s3 k4
      refine Keeps.ite ?_ ?_
      · exact State.rlDone_keeps k4
      · with_reducible refine State.replyOp_keeps ?_
        exact State.rlDone_keeps k4

theorem execTimeSync_keeps (h : Keeps b s0 s) {a1 a2 a3} : Result.All (Keeps b s0) (execTimeSync a1 a2 a3 s) := by
  unfold execTimeSync
  extract_lets f1 s2
  have hs2 : Keeps b s0 s2 := by
    exact State.advance_keeps h
  clear_value s2
  refine Result.all_ite ?_ ?_
  · refine Result.all_next ?_
    exact h
  · with_reducible refine State.rlTake_keeps ?_ ?_
    · exact hs2
    · intro s3 k4
      refine Keeps.ite ?_ ?_
      · exact State.rlDone_keeps k4
      · with_reducible refine State.sendLocal_keeps ?_
        exact State.rlDone_keeps k4

theorem execTimeSyncTimer_keeps (h : Keeps b s0 s) {a1} : Result.All (Keeps b s0) (execTimeSyncTimer a1 s) := by
  unfold execTimeSyncTimer
  extract_lets l1 s2 q3 x4
  have hs2 : Keeps b s0 s2 := by
    exact State.waitFrom_keeps h
  clear_value s2
  refine Result.all_ite ?_ ?_
  · refine Result.all_next ?_
    exact h
  · with_reducible refine finish_keeps ?_
    with_reducible refine State.sendLocal_keeps ?_
    exact State.setLink_keeps hs2

theorem execTmuLatchRead_keeps (h : Keeps b s0 s) {a1 a2} : Result.All (Keeps b s0) (execTmuLatchRead a1 a2 s) := by
  unfold execTmuLatchRead
  refine Result.all_ite ?_ ?_
  · with_reducible refine finish_keeps ?_
    extract_lets x1
    exact State.setFunc_keeps h
  · refine Result.all_next ?_
    exact h

theorem execTmuStep_keeps (h : Keeps b s0 s) {a1 a2 a3} : Result.All (Keeps b s0) (execTmuStep a1 a2 a3 s) := by
  unfold execTmuStep
  with_reducible refine State.ownedWrite_keeps ?_ ?_
  · exact h
  · intro s1 k2
    exact State.writeStep_keeps k2

theorem execTopo_keeps (h : Keeps b s0 s) {a1 a2} : Result.All (Keeps b s0) (execTopo a1 a2 s) := by
  unfold execTopo
  extract_lets f1 serial2
  refine Result.all_ite ?_ ?_
  · refine Result.all_next ?_
    exact h
  · with_reducible refine State.rlTake_keeps ?_ ?_
    · exact h
    · intro s3 k4
      with_reducible refine State.flooded__keeps ?_ ?_
      · exact State.refreshTopo_keeps k4
      · intro s5 k6
        refine Keeps.ite ?_ ?_
        · exact k6
        · exact State.holdTopo_keeps k6

theorem execTopoExpiry_keeps (h : Keeps b s0 s) {a1} : Result.All (Keeps b s0) (execTopoExpiry a1 s) := by
  unfold execTopoExpiry
  dsimp only
  split
  · rename_i x1 heq2
    refine Result.all_next ?_
    exact h
  · rename_i x3 t4 heq5
    with_reducible refine finish_keeps ?_
    refine Keeps.ite ?_ ?_
    · refine Keeps.same (State.waitFrom_keeps ?_) ⟨rfl, rfl⟩ rfl rfl rfl rfl rfl rfl rfl rfl rfl rfl
      exact h
    · with_reducible refine State.topologyChanged_keeps ?_
      refine Keeps.same (State.waitFrom_keeps ?_) ⟨rfl, rfl⟩ rfl rfl rfl rfl rfl rfl rfl rfl rfl rfl
      exact h

theorem execTopoTimer_keeps (h : Keeps b s0 s) : Result.All (Keeps b s0) (execTopoTimer s) := by
  unfold execTopoTimer
  refine Result.all_ite ?_ ?_
  · with_reducible refine finish_keeps ?_
    with_reducible refine State.sendTopo_keeps ?_
    exact State.waitFrom_keeps h
  · refine Result.all_next ?_
    exact h

theorem execTrvRead_keeps (h : Keeps b s0 s) {a1 a2 a3} : Result.All (Keeps b s0) (execTrvRead a1 a2 a3 s) := by
  unfold execTrvRead
  refine Result.all_ite ?_ ?_
  · with_reducible refine finish_keeps ?_
    with_reducible refine State.command_keeps ?_ ?_
    · exact h
    · intro s1 x2 k3
      exact State.trvReadOp_keeps k3
  · refine Result.all_next ?_
    exact h

theorem execTrvWrite_keeps (h : Keeps b s0 s) {a1 a2 a3 a4} : Result.All (Keeps b s0) (execTrvWrite a1 a2 a3 a4 s) := by
  unfold execTrvWrite
  refine Result.all_ite ?_ ?_
  · refine Result.all_next ?_
    exact h
  · refine Result.all_ite ?_ ?_
    · exact trivial
    · with_reducible refine finish_keeps ?_
      with_reducible refine State.command_keeps ?_ ?_
      · exact h
      · intro s1 x2 k3
        exact State.trvWriteOp_keeps k3

theorem execTsqEnable_keeps (h : Keeps b s0 s) {a1 a2} : Result.All (Keeps b s0) (execTsqEnable a1 a2 s) := by
  unfold execTsqEnable
  refine Result.all_ite ?_ ?_
  · refine Result.all_next ?_
    exact h
  · refine Result.all_ite ?_ ?_
    · with_reducible refine finish_keeps ?_
      exact State.writeTsq_keeps h
    · with_reducible refine finish_keeps ?_
      exact State.crossDomain_keeps h

theorem execTxFrame_keeps (h : Keeps b s0 s) {a1 a2 a3} : Result.All (Keeps b s0) (execTxFrame a1 a2 a3 s) := by
  unfold execTxFrame
  extract_lets p1 cfg2 s3
  have hs3 : Keeps b s0 s3 := by
    exact State.fetch_keeps h
  clear_value s3
  refine Result.all_ite ?_ ?_
  · with_reducible refine finish_keeps ?_
    exact State.txOp_keeps hs3
  · refine Result.all_next ?_
    exact h

theorem execUnsupportedMctpMessage_keeps (h : Keeps b s0 s) {a1} : Result.All (Keeps b s0) (execUnsupportedMctpMessage a1 s) := by
  unfold execUnsupportedMctpMessage
  split
  · rename_i x1 heq2
    refine Result.all_next ?_
    exact h
  · rename_i x3 bytes4 heq5
    refine Result.all_ite ?_ ?_
    · with_reducible refine State.whileUp_keeps ?_ ?_
      · exact h
      · intro s6 k7
        exact State.respond_keeps k7
    · refine Result.all_ite ?_ ?_
      · with_reducible refine State.whileUp_keeps ?_ ?_
        · exact h
        · intro s8 k9
          exact State.control_keeps k9
      · refine Result.all_next ?_
        exact h

theorem execVectorDelivery_keeps (h : Keeps b s0 s) {a1 a2 a3} : Result.All (Keeps b s0) (execVectorDelivery a1 a2 a3 s) := by
  unfold execVectorDelivery
  dsimp only
  split
  · rename_i x1 heq2
    refine Result.all_next ?_
    exact h
  · rename_i x3 u4 heq5
    refine Result.all_ite ?_ ?_
    · refine Result.all_next ?_
      exact h
    · refine Result.all_ite ?_ ?_
      · with_reducible refine finish_keeps ?_
        exact State.wakeTarget_keeps h
      · with_reducible refine finish_keeps ?_
        with_reducible refine State.offerVector_keeps ?_
        exact State.wakeTarget_keeps h

theorem execWakeEdge_keeps (h : Keeps b s0 s) {a1} : Result.All (Keeps b s0) (execWakeEdge a1 s) := by
  unfold execWakeEdge
  extract_lets p1
  refine Result.all_ite ?_ ?_
  · with_reducible refine finish_keeps ?_
    exact State.busWake_keeps h
  · refine Result.all_next ?_
    exact h

theorem execWakeFrame_keeps (h : Keeps b s0 s) {a1 a2} : Result.All (Keeps b s0) (execWakeFrame a1 a2 s) := by
  unfold execWakeFrame
  refine Result.all_ite ?_ ?_
  · with_reducible refine finish_keeps ?_
    exact State.busWake_keeps h
  · refine Result.all_next ?_
    exact h

theorem execWindowCloseCut_keeps (h : Keeps b s0 s) {a1} : Result.All (Keeps b s0) (execWindowCloseCut a1 s) := by
  unfold execWindowCloseCut
  split
  · rename_i x1 f2 heq3
    split
    · rename_i x4 c5 heq6
      refine Result.all_ite ?_ ?_
      · with_reducible refine finish_keeps ?_
        with_reducible refine State.violations_keeps ?_
        with_reducible refine State.cutFrame_keeps ?_
        exact State.advance_keeps h
      · refine Result.all_next ?_
        exact h
    · rename_i x7 heq8
      refine Result.all_next ?_
      exact h
  · rename_i x9 heq10
    refine Result.all_next ?_
    exact h

theorem idle_keeps (h : Keeps b s0 s) : Result.All (Keeps b s0) (idle s) := by
  unfold idle
  with_reducible refine finish_keeps ?_
  with_reducible refine State.scan_keeps ?_
  with_reducible refine State.bootStep_keeps ?_
  with_reducible refine State.endActivation_keeps ?_
  with_reducible refine State.endBusy_keeps ?_
  with_reducible refine State.turnTests_keeps ?_
  with_reducible refine State.wiresEnd_keeps ?_
  exact State.advance_keeps h

end Sys2Proof.Machine
end

