-- ==== Sys2Proof/Laws/Only.lean ====
section
/-! SUPPORT. Frames: the parts of the state that an operation may change. Each operation has one lemma, in OnlyA.lean to OnlyD.lean: a state
that differs from an earlier one only in the parts ps still does after the operation, if ps holds the operation's own parts. -/
namespace Sys2Proof.Machine

variable {ps : List Part} {s0 s t : State}

theorem Part.same_refl (p : Part) (s : State) : p.same s s := by
  cases p <;> simp [Part.same]

theorem Part.same_trans {p : Part} {r s t : State} (h : p.same r s) (g : p.same s t) : p.same r t := by
  cases p <;> simp_all [Part.same]

theorem Only.refl (s : State) : Only ps s s := ⟨rfl, fun p _ => p.same_refl s⟩

theorem Only.trans (h : Only ps s0 s) (g : Only ps s t) : Only ps s0 t :=
  ⟨g.1.trans h.1, fun p hp => Part.same_trans (h.2 p hp) (g.2 p hp)⟩

theorem Only.mono {qs : List Part} (h : Only ps s t) (hs : ∀ p ∈ ps, p ∈ qs) : Only qs s t := ⟨h.1, fun p hp => h.2 p (fun hc => hp (hs p hc))⟩

theorem Only.ite {c : Prop} [Decidable c] {x y : State} (hx : Only ps s0 x) (hy : Only ps s0 y) : Only ps s0 (if c then x else y) := by
  split <;> assumption

theorem Only.foldl {β : Type} {l : List β} {f : State → β → State} (h : Only ps s0 s)
    (hf : ∀ y x, Only ps s0 y → Only ps s0 (f y x)) : Only ps s0 (l.foldl f s) := by
  induction l generalizing s with
  | nil => exact h
  | cons x l ih => exact ih (hf s x h)

/-! ### Updates of one part -/

theorem Only.out (h : Only ps s0 s) (hp : Part.out ∈ ps) {x : List Output} : Only ps s0 { s with out := x } :=
  h.trans ⟨rfl, fun q hq => by cases q <;> first
    | exact absurd hp hq | exact rfl | exact fun _ => rfl | exact fun _ _ => rfl | exact ⟨rfl, rfl, rfl⟩ | exact ⟨rfl, rfl, rfl, rfl, rfl, rfl⟩ | exact ⟨rfl, rfl, rfl, rfl, rfl, rfl, rfl⟩⟩

theorem Only.free (h : Only ps s0 s) (hp : Part.free ∈ ps) {x : Nat} : Only ps s0 { s with free := x } :=
  h.trans ⟨rfl, fun q hq => by cases q <;> first
    | exact absurd hp hq | exact rfl | exact fun _ => rfl | exact fun _ _ => rfl | exact ⟨rfl, rfl, rfl⟩ | exact ⟨rfl, rfl, rfl, rfl, rfl, rfl⟩ | exact ⟨rfl, rfl, rfl, rfl, rfl, rfl, rfl⟩⟩

theorem Only.dev (h : Only ps s0 s) (hp : Part.dev ∈ ps) {x : Dev} : Only ps s0 { s with dev := x } :=
  h.trans ⟨rfl, fun q hq => by cases q <;> first
    | exact absurd hp hq | exact rfl | exact fun _ => rfl | exact fun _ _ => rfl | exact ⟨rfl, rfl, rfl⟩ | exact ⟨rfl, rfl, rfl, rfl, rfl, rfl⟩ | exact ⟨rfl, rfl, rfl, rfl, rfl, rfl, rfl⟩⟩

theorem Only.funcs (h : Only ps s0 s) (hp : Part.funcs ∈ ps) {x : Vector Func 16} : Only ps s0 { s with funcs := x } :=
  h.trans ⟨rfl, fun q hq => by cases q <;> first
    | exact absurd hp hq | exact rfl | exact fun _ => rfl | exact fun _ _ => rfl | exact ⟨rfl, rfl, rfl⟩ | exact ⟨rfl, rfl, rfl, rfl, rfl, rfl⟩ | exact ⟨rfl, rfl, rfl, rfl, rfl, rfl, rfl⟩⟩

theorem Only.rings (h : Only ps s0 s) (hp : Part.rings ∈ ps) {x : Tbl Ring} : Only ps s0 { s with rings := x } :=
  h.trans ⟨rfl, fun q hq => by cases q <;> first
    | exact absurd hp hq | exact rfl | exact fun _ => rfl | exact fun _ _ => rfl | exact ⟨rfl, rfl, rfl⟩ | exact ⟨rfl, rfl, rfl, rfl, rfl, rfl⟩ | exact ⟨rfl, rfl, rfl, rfl, rfl, rfl, rfl⟩⟩

theorem Only.ports (h : Only ps s0 s) (hp : Part.ports ∈ ps) {x : Vector Port 32} : Only ps s0 { s with ports := x } :=
  h.trans ⟨rfl, fun q hq => by cases q <;> first
    | exact absurd hp hq | exact rfl | exact fun _ => rfl | exact fun _ _ => rfl | exact ⟨rfl, rfl, rfl⟩ | exact ⟨rfl, rfl, rfl, rfl, rfl, rfl⟩ | exact ⟨rfl, rfl, rfl, rfl, rfl, rfl, rfl⟩⟩

theorem Only.rxq (h : Only ps s0 s) (hp : Part.rxq ∈ ps) {x : List (PortId × RxFrame)} : Only ps s0 { s with rxq := x } :=
  h.trans ⟨rfl, fun q hq => by cases q <;> first
    | exact absurd hp hq | exact rfl | exact fun _ => rfl | exact fun _ _ => rfl | exact ⟨rfl, rfl, rfl⟩ | exact ⟨rfl, rfl, rfl, rfl, rfl, rfl⟩ | exact ⟨rfl, rfl, rfl, rfl, rfl, rfl, rfl⟩⟩

theorem Only.pairs (h : Only ps s0 s) (hp : Part.pairs ∈ ps) {x : Vector Pair 16} : Only ps s0 { s with pairs := x } :=
  h.trans ⟨rfl, fun q hq => by cases q <;> first
    | exact absurd hp hq | exact rfl | exact fun _ => rfl | exact fun _ _ => rfl | exact ⟨rfl, rfl, rfl⟩ | exact ⟨rfl, rfl, rfl, rfl, rfl, rfl⟩ | exact ⟨rfl, rfl, rfl, rfl, rfl, rfl, rfl⟩⟩

theorem Only.groups (h : Only ps s0 s) (hp : Part.groups ∈ ps) {x : Vector Group 4} : Only ps s0 { s with groups := x } :=
  h.trans ⟨rfl, fun q hq => by cases q <;> first
    | exact absurd hp hq | exact rfl | exact fun _ => rfl | exact fun _ _ => rfl | exact ⟨rfl, rfl, rfl⟩ | exact ⟨rfl, rfl, rfl, rfl, rfl, rfl⟩ | exact ⟨rfl, rfl, rfl, rfl, rfl, rfl, rfl⟩⟩

theorem Only.may (h : Only ps s0 s) (hp : Part.may ∈ ps) {x : Vector (Option DWord) 4} : Only ps s0 { s with may := x } :=
  h.trans ⟨rfl, fun q hq => by cases q <;> first
    | exact absurd hp hq | exact rfl | exact fun _ => rfl | exact fun _ _ => rfl | exact ⟨rfl, rfl, rfl⟩ | exact ⟨rfl, rfl, rfl, rfl, rfl, rfl⟩ | exact ⟨rfl, rfl, rfl, rfl, rfl, rfl, rfl⟩⟩

theorem Only.tarn (h : Only ps s0 s) (hp : Part.tarn ∈ ps) {x : Tbl Byte} : Only ps s0 { s with tarn := x } :=
  h.trans ⟨rfl, fun q hq => by cases q <;> first
    | exact absurd hp hq | exact rfl | exact fun _ => rfl | exact fun _ _ => rfl | exact ⟨rfl, rfl, rfl⟩ | exact ⟨rfl, rfl, rfl, rfl, rfl, rfl⟩ | exact ⟨rfl, rfl, rfl, rfl, rfl, rfl, rfl⟩⟩

theorem Only.units (h : Only ps s0 s) (hp : Part.units ∈ ps) {x : Vector (List Nat) 16} : Only ps s0 { s with units := x } :=
  h.trans ⟨rfl, fun q hq => by cases q <;> first
    | exact absurd hp hq | exact rfl | exact fun _ => rfl | exact fun _ _ => rfl | exact ⟨rfl, rfl, rfl⟩ | exact ⟨rfl, rfl, rfl, rfl, rfl, rfl⟩ | exact ⟨rfl, rfl, rfl, rfl, rfl, rfl, rfl⟩⟩

theorem Only.objs (h : Only ps s0 s) (hp : Part.objs ∈ ps) {x : Tbl Obj} : Only ps s0 { s with objs := x } :=
  h.trans ⟨rfl, fun q hq => by cases q <;> first
    | exact absurd hp hq | exact rfl | exact fun _ => rfl | exact fun _ _ => rfl | exact ⟨rfl, rfl, rfl⟩ | exact ⟨rfl, rfl, rfl, rfl, rfl, rfl⟩ | exact ⟨rfl, rfl, rfl, rfl, rfl, rfl, rfl⟩⟩

theorem Only.flt (h : Only ps s0 s) (hp : Part.flt ∈ ps) {x : Tbl (BitVec 128)} : Only ps s0 { s with flt := x } :=
  h.trans ⟨rfl, fun q hq => by cases q <;> first
    | exact absurd hp hq | exact rfl | exact fun _ => rfl | exact fun _ _ => rfl | exact ⟨rfl, rfl, rfl⟩ | exact ⟨rfl, rfl, rfl, rfl, rfl, rfl⟩ | exact ⟨rfl, rfl, rfl, rfl, rfl, rfl, rfl⟩⟩

theorem Only.tmu (h : Only ps s0 s) (hp : Part.tmu ∈ ps) {x : Tmu} : Only ps s0 { s with tmu := x } :=
  h.trans ⟨rfl, fun q hq => by cases q <;> first
    | exact absurd hp hq | exact rfl | exact fun _ => rfl | exact fun _ _ => rfl | exact ⟨rfl, rfl, rfl⟩ | exact ⟨rfl, rfl, rfl, rfl, rfl, rfl⟩ | exact ⟨rfl, rfl, rfl, rfl, rfl, rfl, rfl⟩⟩

theorem Only.eths (h : Only ps s0 s) (hp : Part.eths ∈ ps) {x : Vector EthPort 4} : Only ps s0 { s with eths := x } :=
  h.trans ⟨rfl, fun q hq => by cases q <;> first
    | exact absurd hp hq | exact rfl | exact fun _ => rfl | exact fun _ _ => rfl | exact ⟨rfl, rfl, rfl⟩ | exact ⟨rfl, rfl, rfl, rfl, rfl, rfl⟩ | exact ⟨rfl, rfl, rfl, rfl, rfl, rfl, rfl⟩⟩

theorem Only.ptp (h : Only ps s0 s) (hp : Part.ptp ∈ ps) {x : Ptp} : Only ps s0 { s with ptp := x } :=
  h.trans ⟨rfl, fun q hq => by cases q <;> first
    | exact absurd hp hq | exact rfl | exact fun _ => rfl | exact fun _ _ => rfl | exact ⟨rfl, rfl, rfl⟩ | exact ⟨rfl, rfl, rfl, rfl, rfl, rfl⟩ | exact ⟨rfl, rfl, rfl, rfl, rfl, rfl, rfl⟩⟩

theorem Only.links (h : Only ps s0 s) (hp : Part.links ∈ ps) {x : Vector Link 4} : Only ps s0 { s with links := x } :=
  h.trans ⟨rfl, fun q hq => by cases q <;> first
    | exact absurd hp hq | exact rfl | exact fun _ => rfl | exact fun _ _ => rfl | exact ⟨rfl, rfl, rfl⟩ | exact ⟨rfl, rfl, rfl, rfl, rfl, rfl⟩ | exact ⟨rfl, rfl, rfl, rfl, rfl, rfl, rfl⟩⟩

theorem Only.fab (h : Only ps s0 s) (hp : Part.fab ∈ ps) {x : Fabric} : Only ps s0 { s with fab := x } :=
  h.trans ⟨rfl, fun q hq => by cases q <;> first
    | exact absurd hp hq | exact rfl | exact fun _ => rfl | exact fun _ _ => rfl | exact ⟨rfl, rfl, rfl⟩ | exact ⟨rfl, rfl, rfl, rfl, rfl, rfl⟩ | exact ⟨rfl, rfl, rfl, rfl, rfl, rfl, rfl⟩⟩

theorem Only.routes (h : Only ps s0 s) (hp : Part.routes ∈ ps) {x : Tbl Route} : Only ps s0 { s with routes := x } :=
  h.trans ⟨rfl, fun q hq => by cases q <;> first
    | exact absurd hp hq | exact rfl | exact fun _ => rfl | exact fun _ _ => rfl | exact ⟨rfl, rfl, rfl⟩ | exact ⟨rfl, rfl, rfl, rfl, rfl, rfl⟩ | exact ⟨rfl, rfl, rfl, rfl, rfl, rfl, rfl⟩⟩

theorem Only.spur (h : Only ps s0 s) (hp : Part.spur ∈ ps) {x : Spur} : Only ps s0 { s with spur := x } :=
  h.trans ⟨rfl, fun q hq => by cases q <;> first
    | exact absurd hp hq | exact rfl | exact fun _ => rfl | exact fun _ _ => rfl | exact ⟨rfl, rfl, rfl⟩ | exact ⟨rfl, rfl, rfl, rfl, rfl, rfl⟩ | exact ⟨rfl, rfl, rfl, rfl, rfl, rfl, rfl⟩⟩

theorem Only.evc (h : Only ps s0 s) (hp : Part.evc ∈ ps) {x : Evc} : Only ps s0 { s with evc := x } :=
  h.trans ⟨rfl, fun q hq => by cases q <;> first
    | exact absurd hp hq | exact rfl | exact fun _ => rfl | exact fun _ _ => rfl | exact ⟨rfl, rfl, rfl⟩ | exact ⟨rfl, rfl, rfl, rfl, rfl, rfl⟩ | exact ⟨rfl, rfl, rfl, rfl, rfl, rfl, rfl⟩⟩

theorem Only.log (h : Only ps s0 s) (hp : Part.log ∈ ps) (hi : Part.intake ∈ ps) {x : Log} : Only ps s0 { s with log := x } :=
  h.trans ⟨rfl, fun q hq => by cases q <;> first
    | exact absurd hp hq | exact absurd hi hq | exact rfl | exact fun _ => rfl | exact fun _ _ => rfl | exact ⟨rfl, rfl, rfl⟩ | exact ⟨rfl, rfl, rfl, rfl, rfl, rfl⟩ | exact ⟨rfl, rfl, rfl, rfl, rfl, rfl, rfl⟩⟩

/-- The intake queue and what it lost. -/
theorem Only.intake (h : Only ps s0 s) (hi : Part.intake ∈ ps) {x : List (DWord × LogRec)} {l : Word} {o : Nat} :
    Only ps s0 { s with log := { s.log with intake := x, lost := l, owed := o } } :=
  h.trans ⟨rfl, fun q hq => by cases q <;> first
    | exact absurd hi hq | exact rfl | exact fun _ => rfl | exact fun _ _ => rfl | exact ⟨rfl, rfl, rfl⟩ | exact ⟨rfl, rfl, rfl, rfl, rfl, rfl⟩ | exact ⟨rfl, rfl, rfl, rfl, rfl, rfl, rfl⟩⟩

theorem Only.cairn (h : Only ps s0 s) (hp : Part.cairn ∈ ps) {x : Cairn} : Only ps s0 { s with cairn := x } :=
  h.trans ⟨rfl, fun q hq => by cases q <;> first
    | exact absurd hp hq | exact rfl | exact fun _ => rfl | exact fun _ _ => rfl | exact ⟨rfl, rfl, rfl⟩ | exact ⟨rfl, rfl, rfl, rfl, rfl, rfl⟩ | exact ⟨rfl, rfl, rfl, rfl, rfl, rfl, rfl⟩⟩

theorem Only.counts (h : Only ps s0 s) (hp : Part.counts ∈ ps) {x : Tbl Word} : Only ps s0 { s with counts := x } :=
  h.trans ⟨rfl, fun q hq => by cases q <;> first
    | exact absurd hp hq | exact rfl | exact fun _ => rfl | exact fun _ _ => rfl | exact ⟨rfl, rfl, rfl⟩ | exact ⟨rfl, rfl, rfl, rfl, rfl, rfl⟩ | exact ⟨rfl, rfl, rfl, rfl, rfl, rfl, rfl⟩⟩

theorem Only.halves (h : Only ps s0 s) (hp : Part.halves ∈ ps) {x : Tbl Bool} : Only ps s0 { s with halves := x } :=
  h.trans ⟨rfl, fun q hq => by cases q <;> first
    | exact absurd hp hq | exact rfl | exact fun _ => rfl | exact fun _ _ => rfl | exact ⟨rfl, rfl, rfl⟩ | exact ⟨rfl, rfl, rfl, rfl, rfl, rfl⟩ | exact ⟨rfl, rfl, rfl, rfl, rfl, rfl, rfl⟩⟩

theorem Only.regs (h : Only ps s0 s) {f : RegFile} (hp : ∀ r, f.get r = s.regs.get r ∨ Part.regs (blockOf r) ∈ ps) :
    Only ps s0 { s with regs := f } := by
  refine h.trans ⟨rfl, fun q hq => ?_⟩
  cases q with
  | regs b =>
    intro r hr
    rcases hp r with hs | hm
    · exact hs
    · rw [hr] at hm; exact absurd hm hq
  | _ => first | exact rfl | exact fun _ => rfl | exact fun _ _ => rfl | exact ⟨rfl, rfl, rfl⟩ | exact ⟨rfl, rfl, rfl, rfl, rfl, rfl⟩ | exact ⟨rfl, rfl, rfl, rfl, rfl, rfl, rfl⟩

theorem Only.belay (h : Only ps s0 s) {x : Belay}
    (h1 : (x.entries = s.belay.entries ∧ x.windows = s.belay.windows ∧ x.routeDom = s.belay.routeDom) ∨ Part.partition ∈ ps)
    (h2 : x.keys = s.belay.keys ∨ Part.keys ∈ ps) (h3 : x.otp = s.belay.otp ∨ Part.otp ∈ ps)
    (h4 : (x.applying = s.belay.applying ∧ x.result = s.belay.result ∧ x.challenge = s.belay.challenge ∧
      x.jtagChallenge = s.belay.jtagChallenge ∧ x.debugUnlocked = s.belay.debugUnlocked ∧ x.closing = s.belay.closing) ∨ Part.trust ∈ ps) :
    Only ps s0 { s with belay := x } := by
  refine h.trans ⟨rfl, fun q hq => ?_⟩
  cases q with
  | partition => exact h1.resolve_right hq
  | keys => exact h2.resolve_right hq
  | otp => exact h3.resolve_right hq
  | trust => exact h4.resolve_right hq
  | _ => first | exact rfl | exact fun _ => rfl | exact fun _ _ => rfl | exact ⟨rfl, rfl, rfl⟩ | exact ⟨rfl, rfl, rfl, rfl, rfl, rfl⟩ | exact ⟨rfl, rfl, rfl, rfl, rfl, rfl, rfl⟩

theorem State.setReg_only (h : Only ps s0 s) {r : Reg} {w : DWord} (hr : Part.regs (blockOf r) ∈ ps) : Only ps s0 (s.setReg r w) :=
  h.regs (fun q => by
    by_cases hq : q = r
    · exact .inr (hq ▸ hr)
    · exact .inl (RegFile.get_set_other _ _ _ _ hq))

/-- A register that p does not choose keeps its value when those that p chooses go back to reset. -/
theorem RegFile.get_clear (f : RegFile) (p : Reg → Bool) (r : Reg) (h : p r = false) : (f.clear p).get r = f.get r := by
  induction f with
  | nil => rfl
  | cons e t ih =>
    obtain ⟨q, w⟩ := e
    unfold RegFile.clear at ih ⊢
    simp only [List.filter_cons]
    split
    · simp only [RegFile.get, ih]
    · rename_i hq
      have hq : p q = true := by simpa using hq
      rw [ih, RegFile.get, if_neg (fun hc => by rw [hc, h] at hq; cases hq)]

theorem RegFile.get_clear_or (f : RegFile) (p : Reg → Bool) (hp : ∀ r, p r = true → Part.regs (blockOf r) ∈ ps) (r : Reg) :
    (f.clear p).get r = f.get r ∨ Part.regs (blockOf r) ∈ ps := by
  by_cases h : p r = true
  · exact .inr (hp r h)
  · exact .inl (RegFile.get_clear _ _ _ (by simpa using h))

end Sys2Proof.Machine
end

