-- ==== Sys2Proof/Laws/OnlyA.lean ====
section
/-! SUPPORT. Frames of the operations (Only.lean), part 1 of 4, each after those it calls. -/
namespace Sys2Proof.Machine

variable {ps : List Part} {s0 s t : State}

theorem State.setGroup_only {a1 a2}  (h : Only ps s0 s) (hgroups : Part.groups ∈ ps) : Only ps s0 (State.setGroup s a1 a2) := by
  unfold State.setGroup
  refine (h.groups hgroups)

theorem State.raise_only {a1 a2}  (h : Only ps s0 s) (hREG : Part.regs (blockOf a1) ∈ ps) : Only ps s0 (State.raise s a1 a2) := by
  unfold State.raise
  exact State.setReg_only h hREG

theorem State.grpEvt_only {a1 a2}  (h : Only ps s0 s) (hregs_grp : Part.regs .grp ∈ ps) : Only ps s0 (State.grpEvt s a1 a2) := by
  unfold State.grpEvt
  exact State.raise_only h hregs_grp

theorem State.setLeader_only {a1 a2}  (h : Only ps s0 s) (hgroups : Part.groups ∈ ps) (hregs_grp : Part.regs .grp ∈ ps) : Only ps s0 (State.setLeader s a1 a2) := by
  unfold State.setLeader
  extract_lets g1
  refine Only.ite ?_ ?_
  · exact h
  · with_reducible refine State.grpEvt_only ?_ hregs_grp
    with_reducible refine State.grpEvt_only ?_ hregs_grp
    with_reducible exact State.setGroup_only h hgroups

theorem State.setPort_only {a1 a2}  (h : Only ps s0 s) (hports : Part.ports ∈ ps) : Only ps s0 (State.setPort s a1 a2) := by
  unfold State.setPort
  refine (h.ports hports)

theorem State.portEvt_only {a1 a2}  (h : Only ps s0 s) (hregs_port : Part.regs .port ∈ ps) : Only ps s0 (State.portEvt s a1 a2) := by
  unfold State.portEvt
  exact State.raise_only h hregs_port

theorem State.showPort_only {a1 a2}  (h : Only ps s0 s) (hports : Part.ports ∈ ps) (hregs_port : Part.regs .port ∈ ps) : Only ps s0 (State.showPort s a1 a2) := by
  unfold State.showPort
  extract_lets old1 s2
  have hs2 : Only ps s0 s2 := by
    with_reducible exact State.setPort_only h hports
  clear_value s2
  refine Only.ite ?_ ?_
  · exact hs2
  · with_reducible exact State.portEvt_only hs2 hregs_port

theorem State.syncMembers_only {a1}  (h : Only ps s0 s) (hports : Part.ports ∈ ps) (hregs_port : Part.regs .port ∈ ps) : Only ps s0 (State.syncMembers s a1) := by
  unfold State.syncMembers
  refine Only.foldl ?_ ?_
  · exact h
  · intro s1 x2 k3
    extract_lets st4 x5
    refine Only.ite ?_ ?_
    · with_reducible exact State.showPort_only k3 hports hregs_port
    · with_reducible exact State.showPort_only k3 hports hregs_port

theorem State.groupGoes_only {a1 a2}  (h : Only ps s0 s) (hgroups : Part.groups ∈ ps) (hports : Part.ports ∈ ps) (hregs_grp : Part.regs .grp ∈ ps) (hregs_port : Part.regs .port ∈ ps) : Only ps s0 (State.groupGoes s a1 a2) := by
  unfold State.groupGoes
  extract_lets old1 s2 s3
  have hs2 : Only ps s0 s2 := by
    with_reducible exact State.setGroup_only h hgroups
  clear_value s2
  have hs3 : Only ps s0 s3 := by
    refine Only.ite ?_ ?_
    · exact hs2
    · with_reducible exact State.grpEvt_only hs2 hregs_grp
  clear_value s3
  with_reducible exact State.syncMembers_only hs3 hports hregs_port

theorem State.toColdstart_only {a1}  (h : Only ps s0 s) (hgroups : Part.groups ∈ ps) (hports : Part.ports ∈ ps) (hregs_grp : Part.regs .grp ∈ ps) (hregs_port : Part.regs .port ∈ ps) : Only ps s0 (State.toColdstart s a1) := by
  unfold State.toColdstart
  extract_lets s1 g2 g3 x4
  have hs1 : Only ps s0 s1 := by
    with_reducible exact State.setLeader_only h hgroups hregs_grp
  clear_value s1
  with_reducible exact State.groupGoes_only hs1 hgroups hports hregs_grp hregs_port

theorem State.turnCycle_only {a1}  (h : Only ps s0 s) (hgroups : Part.groups ∈ ps) (hports : Part.ports ∈ ps) (hregs_grp : Part.regs .grp ∈ ps) (hregs_port : Part.regs .port ∈ ps) : Only ps s0 (State.turnCycle s a1) := by
  unfold State.turnCycle
  extract_lets g1 miss2 s3 keep4 g5
  have hs3 : Only ps s0 s3 := by
    refine Only.ite ?_ ?_
    · with_reducible refine State.setGroup_only ?_ hgroups
      with_reducible exact State.grpEvt_only h hregs_grp
    · exact h
  clear_value s3
  refine Only.ite ?_ ?_
  · with_reducible exact State.toColdstart_only hs3 hgroups hports hregs_grp hregs_port
  · dsimp only
    with_reducible exact State.setGroup_only hs3 hgroups

theorem State.promoteGroup_only {a1}  (h : Only ps s0 s) (hgroups : Part.groups ∈ ps) (hports : Part.ports ∈ ps) (hregs_grp : Part.regs .grp ∈ ps) (hregs_port : Part.regs .port ∈ ps) : Only ps s0 (State.promoteGroup s a1) := by
  unfold State.promoteGroup
  extract_lets g1 n2 need3
  refine Only.ite ?_ ?_
  · exact h
  · refine Only.ite ?_ ?_
    · with_reducible exact State.groupGoes_only h hgroups hports hregs_grp hregs_port
    · with_reducible exact State.setGroup_only h hgroups

theorem State.acceptRef_only {a1 a2 a3 a4 a5}  (h : Only ps s0 s) (hgroups : Part.groups ∈ ps) (hports : Part.ports ∈ ps) (hregs_grp : Part.regs .grp ∈ ps) (hregs_port : Part.regs .port ∈ ps) : Only ps s0 (State.acceptRef s a1 a2 a3 a4 a5) := by
  unfold State.acceptRef
  extract_lets was1 s2 g3 measured4 rho5 rhoOf6 shown7 cnt8 still9 x10 g11 s12
  have hs2 : Only ps s0 s2 := by
    refine Only.ite ?_ ?_
    · with_reducible exact State.turnCycle_only h hgroups hports hregs_grp hregs_port
    · exact h
  clear_value s2
  have hs12 : Only ps s0 s12 := by
    with_reducible exact State.groupGoes_only hs2 hgroups hports hregs_grp hregs_port
  clear_value s12
  with_reducible refine State.promoteGroup_only ?_ hgroups hports hregs_grp hregs_port
  with_reducible exact State.setLeader_only hs12 hgroups hregs_grp

theorem State.ackErr_only {a1}  (h : Only ps s0 s) (hports : Part.ports ∈ ps) (hregs_port : Part.regs .port ∈ ps) : Only ps s0 (State.ackErr s a1) := by
  unfold State.ackErr
  extract_lets x1 run2 s3
  have hs3 : Only ps s0 s3 := by
    with_reducible exact State.setPort_only h hports
  clear_value s3
  refine Only.ite ?_ ?_
  · with_reducible exact State.portEvt_only hs3 hregs_port
  · exact hs3

theorem State.ackReset_only {a1}  (h : Only ps s0 s) (hports : Part.ports ∈ ps) : Only ps s0 (State.ackReset s a1) := by
  unfold State.ackReset
  extract_lets x1
  with_reducible exact State.setPort_only h hports

theorem State.holdBack_only {a1}  (h : Only ps s0 s) (htrust : Part.trust ∈ ps) : Only ps s0 (State.holdBack s a1) := by
  unfold State.holdBack
  dsimp only
  split
  · rename_i x1 a2 heq3
    refine (h.belay (.inl ⟨rfl, rfl, rfl⟩) (.inl rfl) (.inl rfl) (.inr htrust))
  · rename_i x4 heq5
    exact h

theorem State.cmdRefused_only {a1}  (h : Only ps s0 s) (hregs_port : Part.regs .port ∈ ps) : Only ps s0 (State.cmdRefused s a1) := by
  unfold State.cmdRefused
  with_reducible exact State.portEvt_only h hregs_port

theorem State.cfgErr_only {a1 a2}  (h : Only ps s0 s) (hports : Part.ports ∈ ps) (hregs_port : Part.regs .port ∈ ps) : Only ps s0 (State.cfgErr s a1 a2) := by
  unfold State.cfgErr
  with_reducible refine State.portEvt_only ?_ hregs_port
  extract_lets x1
  with_reducible exact State.setPort_only h hports

theorem State.enableOp_only {a1}  (h : Only ps s0 s) (hports : Part.ports ∈ ps) (hregs_port : Part.regs .port ∈ ps) : Only ps s0 (State.enableOp s a1) := by
  unfold State.enableOp
  extract_lets x1
  refine Only.ite ?_ ?_
  · with_reducible exact State.cmdRefused_only h hregs_port
  · refine Only.ite ?_ ?_
    · with_reducible exact State.cfgErr_only h hports hregs_port
    · refine Only.ite ?_ ?_
      · with_reducible exact State.cfgErr_only h hports hregs_port
      · with_reducible exact State.showPort_only h hports hregs_port

theorem State.memberRefuses_only {a1 a2}  (h : Only ps s0 s) (hports : Part.ports ∈ ps) (hregs_port : Part.regs .port ∈ ps) : Only ps s0 (State.memberRefuses s a1 a2) := by
  unfold State.memberRefuses
  refine Only.ite ?_ ?_
  · with_reducible exact State.cfgErr_only h hports hregs_port
  · with_reducible refine State.cmdRefused_only ?_ hregs_port
    extract_lets x1
    with_reducible exact State.setPort_only h hports

theorem State.clearHalves_only {a1}  (h : Only ps s0 s) (hhalves : Part.halves ∈ ps) : Only ps s0 (State.clearHalves s a1) := by
  unfold State.clearHalves
  refine (h.halves hhalves)

theorem State.toOff_only {a1}  (h : Only ps s0 s) (hhalves : Part.halves ∈ ps) (hports : Part.ports ∈ ps) (hregs_port : Part.regs .port ∈ ps) : Only ps s0 (State.toOff s a1) := by
  unfold State.toOff
  extract_lets x1 x2 s3
  have hs3 : Only ps s0 s3 := by
    with_reducible refine State.clearHalves_only ?_ hhalves
    exact State.setReg_only h hregs_port
  clear_value s3
  with_reducible exact State.showPort_only hs3 hports hregs_port

theorem State.disableOp_only {a1}  (h : Only ps s0 s) (hhalves : Part.halves ∈ ps) (hports : Part.ports ∈ ps) (hregs_port : Part.regs .port ∈ ps) : Only ps s0 (State.disableOp s a1) := by
  unfold State.disableOp
  extract_lets x1
  refine Only.ite ?_ ?_
  · with_reducible exact State.memberRefuses_only h hports hregs_port
  · refine Only.ite ?_ ?_
    · with_reducible exact State.toOff_only h hhalves hports hregs_port
    · with_reducible exact State.cmdRefused_only h hregs_port

theorem State.portGoes_only {a1}  (h : Only ps s0 s) (hports : Part.ports ∈ ps) (hregs_port : Part.regs .port ∈ ps) : Only ps s0 (State.portGoes s a1) := by
  unfold State.portGoes
  extract_lets x1 st2 lost3 x4
  with_reducible exact State.showPort_only h hports hregs_port

theorem State.startPort_only {a1}  (h : Only ps s0 s) (hports : Part.ports ∈ ps) (hregs_port : Part.regs .port ∈ ps) : Only ps s0 (State.startPort s a1) := by
  unfold State.startPort
  refine Only.ite ?_ ?_
  · with_reducible exact State.memberRefuses_only h hports hregs_port
  · refine Only.ite ?_ ?_
    · with_reducible exact State.cmdRefused_only h hregs_port
    · refine Only.ite ?_ ?_
      · with_reducible exact State.portGoes_only h hports hregs_port
      · with_reducible exact State.cfgErr_only h hports hregs_port

theorem State.countBy_only {a1 a2 a3}  (h : Only ps s0 s) (hcounts : Part.counts ∈ ps) (hhalves : Part.halves ∈ ps) : Only ps s0 (State.countBy s a1 a2 a3) := by
  unfold State.countBy
  extract_lets k1 v2 w3
  exact h.trans ⟨rfl, fun p hp => by cases p <;> first | exact absurd ‹_› hp | exact rfl | exact fun _ => rfl | exact fun _ _ => rfl | exact ⟨rfl, rfl, rfl⟩ | exact ⟨rfl, rfl, rfl, rfl, rfl, rfl⟩ | exact ⟨rfl, rfl, rfl, rfl, rfl, rfl, rfl⟩⟩

theorem State.count_only {a1 a2}  (h : Only ps s0 s) (hcounts : Part.counts ∈ ps) (hhalves : Part.halves ∈ ps) : Only ps s0 (State.count s a1 a2) := by
  unfold State.count
  with_reducible exact State.countBy_only h hcounts hhalves

theorem State.countDev_only {a1}  (h : Only ps s0 s) (hcounts : Part.counts ∈ ps) (hhalves : Part.halves ∈ ps) : Only ps s0 (State.countDev s a1) := by
  unfold State.countDev
  with_reducible exact State.count_only h hcounts hhalves

theorem State.setRing_only {a1 a2}  (h : Only ps s0 s) (hrings : Part.rings ∈ ps) : Only ps s0 (State.setRing s a1 a2) := by
  unfold State.setRing
  refine (h.rings hrings)

theorem State.endOp_only {a1 a2}  (h : Only ps s0 s) (hrings : Part.rings ∈ ps) : Only ps s0 (State.endOp s a1 a2) := by
  unfold State.endOp
  extract_lets j1 q2
  with_reducible exact State.setRing_only h hrings

theorem State.emit_only {a1}  (h : Only ps s0 s) (hout : Part.out ∈ ps) : Only ps s0 (State.emit s a1) := by
  unfold State.emit
  refine (h.out hout)

theorem State.doorbell_only {a1 a2 a3}  (h : Only ps s0 s) (hout : Part.out ∈ ps) : Only ps s0 (State.doorbell s a1 a2 a3) := by
  unfold State.doorbell
  refine Only.ite ?_ ?_
  · with_reducible exact State.emit_only h hout
  · exact h

theorem State.writeEntry_only {a1 a2 a3 a4}  (h : Only ps s0 s) (hout : Part.out ∈ ps) (hrings : Part.rings ∈ ps) : Only ps s0 (State.writeEntry s a1 a2 a3 a4) := by
  unfold State.writeEntry
  extract_lets i1 r2 s3 s4 s5
  have hs3 : Only ps s0 s3 := by
    with_reducible exact State.emit_only h hout
  clear_value s3
  have hs4 : Only ps s0 s4 := by
    with_reducible exact State.setRing_only hs3 hrings
  clear_value s4
  have hs5 : Only ps s0 s5 := by
    with_reducible exact State.doorbell_only hs4 hout
  clear_value s5
  refine Only.ite ?_ ?_
  · with_reducible exact State.endOp_only hs5 hrings
  · exact hs5

theorem State.completeE_only {a1 a2 a3}  (h : Only ps s0 s) (hcounts : Part.counts ∈ ps) (hhalves : Part.halves ∈ ps) (hout : Part.out ∈ ps) (hrings : Part.rings ∈ ps) : Only ps s0 (State.completeE s a1 a2 a3) := by
  unfold State.completeE
  extract_lets s1 cq2 i3 r4 s5
  have hs1 : Only ps s0 s1 := by
    refine Only.ite ?_ ?_
    · with_reducible exact State.countDev_only h hcounts hhalves
    · exact h
  clear_value s1
  have hs5 : Only ps s0 s5 := by
    with_reducible exact State.setRing_only hs1 hrings
  clear_value s5
  refine Only.ite ?_ ?_
  · refine Only.ite ?_ ?_
    · with_reducible exact State.endOp_only hs1 hrings
    · exact hs1
  · refine Only.ite ?_ ?_
    · with_reducible exact State.writeEntry_only hs1 hout hrings
    · refine Only.ite ?_ ?_
      · with_reducible exact State.countDev_only hs5 hcounts hhalves
      · exact hs5

theorem State.complete_only {a1 a2 a3 a4 a5 a6}  (h : Only ps s0 s) (hcounts : Part.counts ∈ ps) (hhalves : Part.halves ∈ ps) (hout : Part.out ∈ ps) (hrings : Part.rings ∈ ps) : Only ps s0 (State.complete s a1 a2 a3 a4 a5 a6) := by
  unfold State.complete
  refine Only.ite ?_ ?_
  · exact h
  · with_reducible exact State.completeE_only h hcounts hhalves hout hrings

theorem State.clearHold_only {a1}  (h : Only ps s0 s) (hcounts : Part.counts ∈ ps) (hhalves : Part.halves ∈ ps) (hout : Part.out ∈ ps) (hports : Part.ports ∈ ps) (hrings : Part.rings ∈ ps) : Only ps s0 (State.clearHold s a1) := by
  unfold State.clearHold
  extract_lets x1 s2 x3
  have hs2 : Only ps s0 s2 := by
    unfold s2
    split
    · rename_i x4 o5 heq6
      with_reducible exact State.complete_only h hcounts hhalves hout hrings
    · rename_i x7 heq8
      exact h
  clear_value s2
  with_reducible exact State.setPort_only hs2 hports

theorem State.toStopped_only {a1 a2}  (h : Only ps s0 s) (hcounts : Part.counts ∈ ps) (hhalves : Part.halves ∈ ps) (hout : Part.out ∈ ps) (hports : Part.ports ∈ ps) (hregs_port : Part.regs .port ∈ ps) (hrings : Part.rings ∈ ps) : Only ps s0 (State.toStopped s a1 a2) := by
  unfold State.toStopped
  extract_lets s1 x2 x3 x4 x5 s6
  have hs1 : Only ps s0 s1 := by
    with_reducible exact State.clearHold_only h hcounts hhalves hout hports hrings
  clear_value s1
  have hs6 : Only ps s0 s6 := by
    with_reducible exact State.showPort_only hs1 hports hregs_port
  clear_value s6
  exact hs6

theorem State.stopAccepted_only {a1}  (h : Only ps s0 s) (hcounts : Part.counts ∈ ps) (hhalves : Part.halves ∈ ps) (hout : Part.out ∈ ps) (hports : Part.ports ∈ ps) (hregs_port : Part.regs .port ∈ ps) (hrings : Part.rings ∈ ps) : Only ps s0 (State.stopAccepted s a1) := by
  unfold State.stopAccepted
  extract_lets x1
  refine Only.ite ?_ ?_
  · with_reducible exact State.toStopped_only h hcounts hhalves hout hports hregs_port hrings
  · with_reducible exact State.setPort_only h hports

theorem State.stopPort_only {a1}  (h : Only ps s0 s) (hcounts : Part.counts ∈ ps) (hhalves : Part.halves ∈ ps) (hout : Part.out ∈ ps) (hports : Part.ports ∈ ps) (hregs_port : Part.regs .port ∈ ps) (hrings : Part.rings ∈ ps) : Only ps s0 (State.stopPort s a1) := by
  unfold State.stopPort
  refine Only.ite ?_ ?_
  · with_reducible exact State.memberRefuses_only h hports hregs_port
  · refine Only.ite ?_ ?_
    · with_reducible exact State.cmdRefused_only h hregs_port
    · with_reducible exact State.stopAccepted_only h hcounts hhalves hout hports hregs_port hrings

theorem State.restartAccepted_only {a1}  (h : Only ps s0 s) (hports : Part.ports ∈ ps) (hregs_port : Part.regs .port ∈ ps) : Only ps s0 (State.restartAccepted s a1) := by
  unfold State.restartAccepted
  extract_lets x1
  with_reducible exact State.showPort_only h hports hregs_port

theorem State.restartPort_only {a1}  (h : Only ps s0 s) (hports : Part.ports ∈ ps) (hregs_port : Part.regs .port ∈ ps) : Only ps s0 (State.restartPort s a1) := by
  unfold State.restartPort
  extract_lets x1
  refine Only.ite ?_ ?_
  · with_reducible exact State.memberRefuses_only h hports hregs_port
  · refine Only.ite ?_ ?_
    · with_reducible exact State.restartAccepted_only h hports hregs_port
    · with_reducible exact State.cmdRefused_only h hregs_port

theorem State.sleepPort_only {a1}  (h : Only ps s0 s) (hports : Part.ports ∈ ps) (hregs_port : Part.regs .port ∈ ps) : Only ps s0 (State.sleepPort s a1) := by
  unfold State.sleepPort
  extract_lets x1
  refine Only.ite ?_ ?_
  · with_reducible exact State.memberRefuses_only h hports hregs_port
  · refine Only.ite ?_ ?_
    · with_reducible exact State.cmdRefused_only h hregs_port
    · refine Only.ite ?_ ?_
      · with_reducible exact State.cfgErr_only h hports hregs_port
      · with_reducible exact State.showPort_only h hports hregs_port

theorem State.toAwake_only {a1}  (h : Only ps s0 s) (hports : Part.ports ∈ ps) (hregs_port : Part.regs .port ∈ ps) : Only ps s0 (State.toAwake s a1) := by
  unfold State.toAwake
  with_reducible exact State.showPort_only h hports hregs_port

theorem State.wakePort_only {a1}  (h : Only ps s0 s) (hports : Part.ports ∈ ps) (hregs_port : Part.regs .port ∈ ps) : Only ps s0 (State.wakePort s a1) := by
  unfold State.wakePort
  refine Only.ite ?_ ?_
  · with_reducible exact State.toAwake_only h hports hregs_port
  · with_reducible exact State.cmdRefused_only h hregs_port

theorem State.portCommand_only {a1 a2}  (h : Only ps s0 s) (hcounts : Part.counts ∈ ps) (hhalves : Part.halves ∈ ps) (hout : Part.out ∈ ps) (hports : Part.ports ∈ ps) (hregs_port : Part.regs .port ∈ ps) (hrings : Part.rings ∈ ps) : Only ps s0 (State.portCommand s a1 a2) := by
  unfold State.portCommand
  split
  · rename_i c1
    with_reducible exact State.enableOp_only h hports hregs_port
  · rename_i c2
    with_reducible exact State.disableOp_only h hhalves hports hregs_port
  · rename_i c3
    with_reducible exact State.startPort_only h hports hregs_port
  · rename_i c4
    with_reducible exact State.stopPort_only h hcounts hhalves hout hports hregs_port hrings
  · rename_i c5
    with_reducible exact State.restartPort_only h hports hregs_port
  · rename_i c6
    with_reducible exact State.sleepPort_only h hports hregs_port
  · rename_i c7
    with_reducible exact State.wakePort_only h hports hregs_port
  · rename_i c8 x9 x10 x11 x12 x13 x14 x15
    exact h

theorem State.portRequest_only {a1 a2 a3}  (h : Only ps s0 s) (hcairn : Part.cairn ∈ ps) (hcounts : Part.counts ∈ ps) (hhalves : Part.halves ∈ ps) (hout : Part.out ∈ ps) (hports : Part.ports ∈ ps) (hregs_port : Part.regs .port ∈ ps) (hrings : Part.rings ∈ ps) (htrust : Part.trust ∈ ps) : Only ps s0 (State.portRequest s a1 a2 a3) := by
  unfold State.portRequest
  refine Only.ite ?_ ?_
  · with_reducible exact State.holdBack_only h htrust
  · refine Only.ite ?_ ?_
    · extract_lets x1
      refine (h.cairn hcairn)
    · with_reducible exact State.portCommand_only h hcounts hhalves hout hports hregs_port hrings

theorem State.record_only {a1 a2 a3 a4 a5 a6 a7}  (h : Only ps s0 s) (hintake : Part.intake ∈ ps) : Only ps s0 (State.record s a1 a2 a3 a4 a5 a6 a7) := by
  unfold State.record
  dsimp only
  exact Only.ite (h.intake hintake) (Only.ite (h.intake hintake) (h.intake hintake))

theorem State.refuseWrite_only {a1 a2 a3}  (h : Only ps s0 s) (hintake : Part.intake ∈ ps) : Only ps s0 (State.refuseWrite s a1 a2 a3) := by
  unfold State.refuseWrite
  with_reducible exact State.record_only h hintake

theorem State.refuse_only {a1 a2 a3 a4}  (h : Only ps s0 s) (hintake : Part.intake ∈ ps) : Only ps s0 (State.refuse s a1 a2 a3 a4) := by
  unfold State.refuse
  with_reducible exact State.refuseWrite_only h hintake

theorem State.writeFields_only {a1 a2 a3 a4 a5}  (h : Only ps s0 s) (hREG : Part.regs (blockOf a2) ∈ ps) (hintake : Part.intake ∈ ps) : Only ps s0 (State.writeFields s a1 a2 a3 a4 a5) := by
  unfold State.writeFields
  dsimp only
  refine Only.ite ?_ ?_
  · with_reducible refine State.refuse_only ?_ hintake
    exact State.setReg_only h hREG
  · exact State.setReg_only h hREG

theorem State.setRf_only {a1 a2 a3 a4}  (h : Only ps s0 s) (hREG : Part.regs (blockOf a1) ∈ ps) : Only ps s0 (State.setRf s a1 a2 a3 a4) := by
  unfold State.setRf
  exact State.setReg_only h hREG

theorem State.returnBuffer_only {a1 a2 a3 a4}  (h : Only ps s0 s) (hcounts : Part.counts ∈ ps) (hhalves : Part.halves ∈ ps) (hout : Part.out ∈ ps) (hrings : Part.rings ∈ ps) : Only ps s0 (State.returnBuffer s a1 a2 a3 a4) := by
  unfold State.returnBuffer
  with_reducible exact State.completeE_only h hcounts hhalves hout hrings

theorem State.setEth_only {a1 a2}  (h : Only ps s0 s) (heths : Part.eths ∈ ps) : Only ps s0 (State.setEth s a1 a2) := by
  unfold State.setEth
  refine (h.eths heths)

theorem State.setShare_only {a1 a2}  (h : Only ps s0 s) (heths : Part.eths ∈ ps) (hports : Part.ports ∈ ps) : Only ps s0 (State.setShare s a1 a2) := by
  unfold State.setShare
  refine Only.ite ?_ ?_
  · extract_lets x1
    with_reducible exact State.setPort_only h hports
  · refine Only.ite ?_ ?_
    · extract_lets x2
      with_reducible exact State.setEth_only h heths
    · exact h

theorem State.freeSpace_only {a1 a2}  (h : Only ps s0 s) (heths : Part.eths ∈ ps) (hports : Part.ports ∈ ps) : Only ps s0 (State.freeSpace s a1 a2) := by
  unfold State.freeSpace
  with_reducible exact State.setShare_only h heths hports

theorem State.hostWrite_only {a1 a2 a3}  (h : Only ps s0 s) (hout : Part.out ∈ ps) : Only ps s0 (State.hostWrite s a1 a2 a3) := by
  unfold State.hostWrite
  refine Only.ite ?_ ?_
  · exact h
  · with_reducible exact State.emit_only h hout

theorem State.writeBuffers_only {a1 a2 a3 a4 a5 a6} (h : Only ps s0 s) (hout : Part.out ∈ ps) (hrings : Part.rings ∈ ps) : Only ps s0 (State.writeBuffers s a1 a2 a3 a4 a5 a6) := by
  induction a5 generalizing s a6 with
  | nil => exact h
  | cons x r ih =>
    unfold State.writeBuffers
    exact ih (State.writeEntry_only (State.hostWrite_only h hout) hout hrings)

theorem State.serveRx_only {a1 a2 a3} (h : Only ps s0 s) (hcounts : Part.counts ∈ ps) (heths : Part.eths ∈ ps) (hhalves : Part.halves ∈ ps) (hout : Part.out ∈ ps) (hports : Part.ports ∈ ps) (hrings : Part.rings ∈ ps) : Only ps s0 (State.serveRx s a1 a2 a3) := by
  induction a3 generalizing s with
  | zero => exact h
  | succ n ih =>
    unfold State.serveRx
    dsimp only
    split
    · exact h
    · split
      · split
        · exact h
        · split
          · exact ih (State.setRing_only h hrings)
          · exact ih (State.returnBuffer_only (State.setRing_only h hrings) hcounts hhalves hout hrings)
      · split
        · exact ih (State.freeSpace_only (State.writeBuffers_only (State.setRing_only h hrings) hout hrings) heths hports)
        · exact h

theorem State.serve_only {a1 a2}  (h : Only ps s0 s) (hcounts : Part.counts ∈ ps) (heths : Part.eths ∈ ps) (hhalves : Part.halves ∈ ps) (hout : Part.out ∈ ps) (hports : Part.ports ∈ ps) (hrings : Part.rings ∈ ps) : Only ps s0 (State.serve s a1 a2) := by
  unfold State.serve
  extract_lets r1
  with_reducible exact State.serveRx_only h hcounts heths hhalves hout hports hrings

theorem State.serveCq_only {a1 a2}  (h : Only ps s0 s) (hcounts : Part.counts ∈ ps) (heths : Part.eths ∈ ps) (hhalves : Part.halves ∈ ps) (hout : Part.out ∈ ps) (hports : Part.ports ∈ ps) (hrings : Part.rings ∈ ps) : Only ps s0 (State.serveCq s a1 a2) := by
  unfold State.serveCq
  refine Only.foldl ?_ ?_
  · exact h
  · intro s1 x2 k3
    refine Only.ite ?_ ?_
    · with_reducible exact State.serve_only k3 hcounts heths hhalves hout hports hrings
    · exact k3

theorem State.drain_only {a1 a2 a3} (h : Only ps s0 s) (hout : Part.out ∈ ps) (hrings : Part.rings ∈ ps) : Only ps s0 (State.drain s a1 a2 a3) := by
  induction a3 generalizing s with
  | zero => exact h
  | succ n ih =>
    unfold State.drain
    dsimp only
    split
    · exact h
    · split
      · exact ih (State.writeEntry_only (State.setRing_only h hrings) hout hrings)
      · exact h

theorem State.roomShown_only {a1 a2}  (h : Only ps s0 s) (hcounts : Part.counts ∈ ps) (heths : Part.eths ∈ ps) (hhalves : Part.halves ∈ ps) (hout : Part.out ∈ ps) (hports : Part.ports ∈ ps) (hrings : Part.rings ∈ ps) : Only ps s0 (State.roomShown s a1 a2) := by
  unfold State.roomShown
  with_reducible refine State.serveCq_only ?_ hcounts heths hhalves hout hports hrings
  with_reducible exact State.drain_only h hout hrings

theorem State.ringFault_only {a1 a2 a3}  (h : Only ps s0 s) (hintake : Part.intake ∈ ps) (hregs_ring : Part.regs .ring ∈ ps) : Only ps s0 (State.ringFault s a1 a2 a3) := by
  unfold State.ringFault
  with_reducible refine State.record_only ?_ hintake
  exact State.raise_only h hregs_ring

theorem State.enableRing_only {a1 a2}  (h : Only ps s0 s) (hcounts : Part.counts ∈ ps) (heths : Part.eths ∈ ps) (hhalves : Part.halves ∈ ps) (hintake : Part.intake ∈ ps) (hout : Part.out ∈ ps) (hports : Part.ports ∈ ps) (hregs_ring : Part.regs .ring ∈ ps) (hrings : Part.rings ∈ ps) : Only ps s0 (State.enableRing s a1 a2) := by
  unfold State.enableRing
  extract_lets i1 s2 x3 s4
  have hs2 : Only ps s0 s2 := by
    exact State.setRf_only h hregs_ring
  clear_value s2
  have hs4 : Only ps s0 s4 := by
    with_reducible exact State.setRing_only hs2 hrings
  clear_value s4
  refine Only.ite ?_ ?_
  · refine Only.ite ?_ ?_
    · with_reducible exact State.roomShown_only hs4 hcounts heths hhalves hout hports hrings
    · exact hs4
  · with_reducible exact State.ringFault_only h hintake hregs_ring

theorem State.withdrawEth_only {a1 a2 a3}  (h : Only ps s0 s) (hcounts : Part.counts ∈ ps) (heths : Part.eths ∈ ps) (hhalves : Part.halves ∈ ps) (hout : Part.out ∈ ps) (hrings : Part.rings ∈ ps) : Only ps s0 (State.withdrawEth s a1 a2 a3) := by
  unfold State.withdrawEth
  extract_lets x1 mine2 gone3 s4
  have hs4 : Only ps s0 s4 := by
    with_reducible exact State.setEth_only h heths
  clear_value s4
  refine Only.foldl ?_ ?_
  · exact hs4
  · intro s5 x6 k7
    with_reducible exact State.complete_only k7 hcounts hhalves hout hrings

theorem State.setObj_only {a1 a2 a3}  (h : Only ps s0 s) (hobjs : Part.objs ∈ ps) : Only ps s0 (State.setObj s a1 a2 a3) := by
  unfold State.setObj
  refine (h.objs hobjs)

theorem State.clearPending_only {a1 a2}  (h : Only ps s0 s) (hobjs : Part.objs ∈ ps) : Only ps s0 (State.clearPending s a1 a2) := by
  unfold State.clearPending
  dsimp only
  split
  · rename_i x1 o2
    with_reducible exact State.setObj_only h hobjs
  · rename_i x3 n4
    exact h

theorem State.draw_only  (h : Only ps s0 s) (hfree : Part.free ∈ ps) : Only ps s0 (State.draw s) := by
  unfold State.draw
  refine (h.free hfree)

theorem State.setFunc_only {a1 a2}  (h : Only ps s0 s) (hfuncs : Part.funcs ∈ ps) : Only ps s0 (State.setFunc s a1 a2) := by
  unfold State.setFunc
  refine (h.funcs hfuncs)

theorem State.tsqEntry_only {a1 a2 a3 a4 a5 a6}  (h : Only ps s0 s) (hcounts : Part.counts ∈ ps) (hfree : Part.free ∈ ps) (hfuncs : Part.funcs ∈ ps) (hhalves : Part.halves ∈ ps) (hout : Part.out ∈ ps) (hregs_fn : Part.regs .fn ∈ ps) : Only ps s0 (State.tsqEntry s a1 a2 a3 a4 a5 a6) := by
  unfold State.tsqEntry
  refine Only.ite ?_ ?_
  · exact h
  · extract_lets f1 full2 cons3 s4 s5 s6 ovf7 b8 s9 s10
    have hs4 : Only ps s0 s4 := by
      refine Only.ite ?_ ?_
      · with_reducible exact State.draw_only h hfree
      · exact h
    clear_value s4
    have hs5 : Only ps s0 s5 := by
      with_reducible exact State.setFunc_only hs4 hfuncs
    clear_value s5
    have hs6 : Only ps s0 s6 := by
      with_reducible exact State.countDev_only hs5 hcounts hhalves
    clear_value s6
    have hs9 : Only ps s0 s9 := by
      with_reducible exact State.emit_only hs4 hout
    clear_value s9
    have hs10 : Only ps s0 s10 := by
      with_reducible exact State.setFunc_only hs9 hfuncs
    clear_value s10
    refine Only.ite ?_ ?_
    · refine Only.ite ?_ ?_
      · exact hs6
      · exact State.raise_only hs6 hregs_fn
    · with_reducible exact State.doorbell_only hs10 hout

theorem State.tsqStamp_only {a1 a2 a3 a4}  (h : Only ps s0 s) (hcounts : Part.counts ∈ ps) (hfree : Part.free ∈ ps) (hfuncs : Part.funcs ∈ ps) (hhalves : Part.halves ∈ ps) (hout : Part.out ∈ ps) (hregs_fn : Part.regs .fn ∈ ps) : Only ps s0 (State.tsqStamp s a1 a2 a3 a4) := by
  unfold State.tsqStamp
  refine Only.ite ?_ ?_
  · exact h
  · with_reducible exact State.tsqEntry_only h hcounts hfree hfuncs hhalves hout hregs_fn

theorem State.leaveSet_only {a1 a2 a3 a4}  (h : Only ps s0 s) (hcounts : Part.counts ∈ ps) (hfree : Part.free ∈ ps) (hfuncs : Part.funcs ∈ ps) (hhalves : Part.halves ∈ ps) (hobjs : Part.objs ∈ ps) (hout : Part.out ∈ ps) (hports : Part.ports ∈ ps) (hregs_fn : Part.regs .fn ∈ ps) (hrings : Part.rings ∈ ps) : Only ps s0 (State.leaveSet s a1 a2 a3 a4) := by
  unfold State.leaveSet
  extract_lets x1 gone2 s3 s4 s5
  have hs3 : Only ps s0 s3 := by
    with_reducible exact State.setPort_only h hports
  clear_value s3
  have hs4 : Only ps s0 s4 := by
    with_reducible exact State.clearPending_only hs3 hobjs
  clear_value s4
  have hs5 : Only ps s0 s5 := by
    refine Only.ite ?_ ?_
    · exact hs4
    · with_reducible exact State.complete_only hs4 hcounts hhalves hout hrings
  clear_value s5
  split
  · rename_i stamp6 st7
    refine Only.ite ?_ ?_
    · with_reducible exact State.tsqStamp_only hs5 hcounts hfree hfuncs hhalves hout hregs_fn
    · exact hs5
  · rename_i stamp8
    exact hs5

theorem State.fillSlots_only {a1 a2} (h : Only ps s0 s) (hcounts : Part.counts ∈ ps) (hfree : Part.free ∈ ps) (hfuncs : Part.funcs ∈ ps) (hhalves : Part.halves ∈ ps) (hobjs : Part.objs ∈ ps) (hout : Part.out ∈ ps) (hports : Part.ports ∈ ps) (hregs_fn : Part.regs .fn ∈ ps) (hrings : Part.rings ∈ ps) : Only ps s0 (State.fillSlots s a1 a2) := by
  induction a2 generalizing s with
  | zero => exact h
  | succ n ih =>
    unfold State.fillSlots
    dsimp only
    split
    · exact h
    · split
      · exact h
      · split
        · exact ih (State.leaveSet_only h hcounts hfree hfuncs hhalves hobjs hout hports hregs_fn hrings)
        · exact ih (State.setPort_only h hports)

theorem State.withdrawRing_only {a1 a2 a3 a4}  (h : Only ps s0 s) (hports : Part.ports ∈ ps) : Only ps s0 (State.withdrawRing s a1 a2 a3 a4) := by
  unfold State.withdrawRing
  extract_lets mine1 x2
  with_reducible exact State.setPort_only h hports

theorem State.dropWait_only {a1 a2 a3 a4}  (h : Only ps s0 s) (hcounts : Part.counts ∈ ps) (heths : Part.eths ∈ ps) (hhalves : Part.halves ∈ ps) (hout : Part.out ∈ ps) (hports : Part.ports ∈ ps) (hrings : Part.rings ∈ ps) : Only ps s0 (State.dropWait s a1 a2 a3 a4) := by
  unfold State.dropWait
  extract_lets s1
  have hs1 : Only ps s0 s1 := by
    refine Only.foldl ?_ ?_
    · exact h
    · intro s2 x3 k4
      with_reducible exact State.returnBuffer_only k4 hcounts hhalves hout hrings
  clear_value s1
  with_reducible exact State.freeSpace_only hs1 heths hports

theorem State.withdrawRx_only {a1 a2}  (h : Only ps s0 s) (hcounts : Part.counts ∈ ps) (heths : Part.eths ∈ ps) (hhalves : Part.halves ∈ ps) (hout : Part.out ∈ ps) (hports : Part.ports ∈ ps) (hrings : Part.rings ∈ ps) : Only ps s0 (State.withdrawRx s a1 a2) := by
  unfold State.withdrawRx
  extract_lets i1 r2 s3 s4
  have hs3 : Only ps s0 s3 := by
    with_reducible exact State.setRing_only h hrings
  clear_value s3
  have hs4 : Only ps s0 s4 := by
    refine Only.foldl ?_ ?_
    · exact hs3
    · intro s5 x6 k7
      with_reducible exact State.dropWait_only k7 hcounts heths hhalves hout hports hrings
  clear_value s4
  refine Only.foldl ?_ ?_
  · exact hs4
  · intro s8 x9 k10
    with_reducible exact State.returnBuffer_only k10 hcounts hhalves hout hrings

theorem State.takeHeld_only {a1} (h : Only ps s0 s) (htrust : Part.trust ∈ ps) : Only ps s0 (State.takeHeld s a1).1 := by
  unfold State.takeHeld
  split
  · exact h
  · exact h.belay (.inl ⟨rfl, rfl, rfl⟩) (.inl rfl) (.inl rfl) (.inr htrust)

theorem State.withdrawCmd_only {a1 a2}  (h : Only ps s0 s) (hcairn : Part.cairn ∈ ps) (hcounts : Part.counts ∈ ps) (hhalves : Part.halves ∈ ps) (hobjs : Part.objs ∈ ps) (hout : Part.out ∈ ps) (hrings : Part.rings ∈ ps) (htrust : Part.trust ∈ ps) : Only ps s0 (State.withdrawCmd s a1 a2) := by
  unfold State.withdrawCmd
  dsimp only
  refine Only.foldl ?_ (fun _ _ k => State.complete_only k hcounts hhalves hout hrings)
  refine (State.takeHeld_only h (a1 := fun o => decide (o.dom = a1 ∧ o.num = a2)) htrust).trans ⟨rfl, fun p hp => ?_⟩
  cases p <;> first
      | exact absurd ‹_› hp | exact rfl | exact fun _ => rfl | exact fun _ _ => rfl | exact ⟨rfl, rfl, rfl⟩ | exact ⟨rfl, rfl, rfl, rfl, rfl, rfl⟩ | exact ⟨rfl, rfl, rfl, rfl, rfl, rfl, rfl⟩

theorem State.disableRing_only {a1 a2 a3}  (h : Only ps s0 s) (hcairn : Part.cairn ∈ ps) (hcounts : Part.counts ∈ ps) (heths : Part.eths ∈ ps) (hfree : Part.free ∈ ps) (hfuncs : Part.funcs ∈ ps) (hhalves : Part.halves ∈ ps) (hobjs : Part.objs ∈ ps) (hout : Part.out ∈ ps) (hports : Part.ports ∈ ps) (hregs_fn : Part.regs .fn ∈ ps) (hregs_ring : Part.regs .ring ∈ ps) (hrings : Part.rings ∈ ps) (htrust : Part.trust ∈ ps) : Only ps s0 (State.disableRing s a1 a2 a3) := by
  unfold State.disableRing
  extract_lets i1 cfg2 s3
  have hs3 : Only ps s0 s3 := by
    exact State.setRf_only h hregs_ring
  clear_value s3
  split
  · rename_i x4 heq5
    refine Only.ite ?_ ?_
    · with_reducible exact State.withdrawEth_only hs3 hcounts heths hhalves hout hrings
    · with_reducible refine State.fillSlots_only ?_ hcounts hfree hfuncs hhalves hobjs hout hports hregs_fn hrings
      with_reducible exact State.withdrawRing_only hs3 hports
  · rename_i x6 heq7
    with_reducible exact State.withdrawRx_only hs3 hcounts heths hhalves hout hports hrings
  · rename_i x8 heq9
    with_reducible exact State.withdrawCmd_only hs3 hcairn hcounts hhalves hobjs hout hrings htrust
  · rename_i x10 x11 x12 x13
    exact hs3

theorem State.writeRingCfg_only {a1 a2 a3}  (h : Only ps s0 s) (hcairn : Part.cairn ∈ ps) (hcounts : Part.counts ∈ ps) (heths : Part.eths ∈ ps) (hfree : Part.free ∈ ps) (hfuncs : Part.funcs ∈ ps) (hhalves : Part.halves ∈ ps) (hintake : Part.intake ∈ ps) (hobjs : Part.objs ∈ ps) (hout : Part.out ∈ ps) (hports : Part.ports ∈ ps) (hregs_fn : Part.regs .fn ∈ ps) (hregs_ring : Part.regs .ring ∈ ps) (hrings : Part.rings ∈ ps) (htrust : Part.trust ∈ ps) : Only ps s0 (State.writeRingCfg s a1 a2 a3) := by
  unfold State.writeRingCfg
  extract_lets i1 was2 s3
  have hs3 : Only ps s0 s3 := by
    exact State.writeFields_only h hregs_ring hintake
  clear_value s3
  refine Only.ite ?_ ?_
  · with_reducible exact State.enableRing_only hs3 hcounts heths hhalves hintake hout hports hregs_ring hrings
  · refine Only.ite ?_ ?_
    · with_reducible exact State.disableRing_only hs3 hcairn hcounts heths hfree hfuncs hhalves hobjs hout hports hregs_fn hregs_ring hrings htrust
    · exact hs3

theorem State.groupRefused_only {a1}  (h : Only ps s0 s) (hregs_grp : Part.regs .grp ∈ ps) : Only ps s0 (State.groupRefused s a1) := by
  unfold State.groupRefused
  with_reducible exact State.grpEvt_only h hregs_grp

theorem State.groupGoesLive_only {a1}  (h : Only ps s0 s) (hgroups : Part.groups ∈ ps) (hports : Part.ports ∈ ps) (hregs_grp : Part.regs .grp ∈ ps) (hregs_port : Part.regs .port ∈ ps) : Only ps s0 (State.groupGoesLive s a1) := by
  unfold State.groupGoesLive
  extract_lets g1 ms2 fresh3 s4
  have hs4 : Only ps s0 s4 := by
    with_reducible exact State.portGoes_only h hports hregs_port
  clear_value s4
  with_reducible exact State.groupGoes_only hs4 hgroups hports hregs_grp hregs_port

theorem State.groupCfgErr_only {a1 a2}  (h : Only ps s0 s) (hgroups : Part.groups ∈ ps) (hports : Part.ports ∈ ps) (hregs_grp : Part.regs .grp ∈ ps) : Only ps s0 (State.groupCfgErr s a1 a2) := by
  unfold State.groupCfgErr
  extract_lets a1 x2 s3 x4
  have hs3 : Only ps s0 s3 := by
    refine Only.ite ?_ ?_
    · with_reducible exact State.setPort_only h hports
    · exact h
  clear_value s3
  with_reducible refine State.grpEvt_only ?_ hregs_grp
  with_reducible exact State.setGroup_only hs3 hgroups

theorem State.startGroupCmd_only {a1}  (h : Only ps s0 s) (hgroups : Part.groups ∈ ps) (hports : Part.ports ∈ ps) (hregs_grp : Part.regs .grp ∈ ps) (hregs_port : Part.regs .port ∈ ps) : Only ps s0 (State.startGroupCmd s a1) := by
  unfold State.startGroupCmd
  refine Only.ite ?_ ?_
  · with_reducible exact State.groupRefused_only h hregs_grp
  · extract_lets code1
    refine Only.ite ?_ ?_
    · with_reducible exact State.groupGoesLive_only h hgroups hports hregs_grp hregs_port
    · with_reducible exact State.groupCfgErr_only h hgroups hports hregs_grp

theorem State.stopGroupCmd_only {a1}  (h : Only ps s0 s) (hgroups : Part.groups ∈ ps) (hports : Part.ports ∈ ps) (hregs_grp : Part.regs .grp ∈ ps) : Only ps s0 (State.stopGroupCmd s a1) := by
  unfold State.stopGroupCmd
  extract_lets g1 a2 x3
  refine Only.ite ?_ ?_
  · with_reducible exact State.groupRefused_only h hregs_grp
  · with_reducible refine State.setPort_only ?_ hports
    with_reducible exact State.setGroup_only h hgroups

theorem State.setBranch_only {a1 a2 a3}  (h : Only ps s0 s) (hgroups : Part.groups ∈ ps) : Only ps s0 (State.setBranch s a1 a2 a3) := by
  unfold State.setBranch
  extract_lets x1
  with_reducible exact State.setGroup_only h hgroups

theorem State.rejoinCmd_only {a1 a2}  (h : Only ps s0 s) (hgroups : Part.groups ∈ ps) (hregs_grp : Part.regs .grp ∈ ps) : Only ps s0 (State.rejoinCmd s a1 a2) := by
  unfold State.rejoinCmd
  extract_lets x1
  refine Only.ite ?_ ?_
  · with_reducible exact State.setBranch_only h hgroups
  · with_reducible exact State.groupRefused_only h hregs_grp

theorem State.restartGroupCmd_only {a1}  (h : Only ps s0 s) (hports : Part.ports ∈ ps) (hregs_grp : Part.regs .grp ∈ ps) (hregs_port : Part.regs .port ∈ ps) : Only ps s0 (State.restartGroupCmd s a1) := by
  unfold State.restartGroupCmd
  extract_lets a1
  refine Only.ite ?_ ?_
  · with_reducible exact State.restartAccepted_only h hports hregs_port
  · with_reducible exact State.groupRefused_only h hregs_grp

theorem State.groupCommand_only {a1 a2}  (h : Only ps s0 s) (hgroups : Part.groups ∈ ps) (hports : Part.ports ∈ ps) (hregs_grp : Part.regs .grp ∈ ps) (hregs_port : Part.regs .port ∈ ps) : Only ps s0 (State.groupCommand s a1 a2) := by
  unfold State.groupCommand
  split
  · rename_i x1 heq2
    with_reducible exact State.startGroupCmd_only h hgroups hports hregs_grp hregs_port
  · rename_i x3 heq4
    with_reducible exact State.stopGroupCmd_only h hgroups hports hregs_grp
  · rename_i x5 heq6
    with_reducible exact State.rejoinCmd_only h hgroups hregs_grp
  · rename_i x7 heq8
    with_reducible exact State.restartGroupCmd_only h hports hregs_grp hregs_port
  · rename_i x9 x10 x11 x12 x13
    exact h

theorem State.groupRequest_only {a1 a2 a3}  (h : Only ps s0 s) (hgroups : Part.groups ∈ ps) (hports : Part.ports ∈ ps) (hregs_grp : Part.regs .grp ∈ ps) (hregs_port : Part.regs .port ∈ ps) (htrust : Part.trust ∈ ps) : Only ps s0 (State.groupRequest s a1 a2 a3) := by
  unfold State.groupRequest
  refine Only.ite ?_ ?_
  · with_reducible exact State.holdBack_only h htrust
  · with_reducible exact State.groupCommand_only h hgroups hports hregs_grp hregs_port

theorem State.ethKick_only {a1}  (h : Only ps s0 s) (heths : Part.eths ∈ ps) : Only ps s0 (State.ethKick s a1) := by
  unfold State.ethKick
  extract_lets x1
  refine Only.ite ?_ ?_
  · exact h
  · split
    · rename_i b2 heq3
      exact h
    · rename_i b4 j5 heq6
      with_reducible exact State.setEth_only h heths

theorem State.endPause_only {a1 a2}  (h : Only ps s0 s) (hcounts : Part.counts ∈ ps) (heths : Part.eths ∈ ps) (hhalves : Part.halves ∈ ps) : Only ps s0 (State.endPause s a1 a2) := by
  unfold State.endPause
  extract_lets x1
  split
  · rename_i x2 heq3
    exact h
  · rename_i x4 val5 heq6
    with_reducible refine State.countBy_only ?_ hcounts hhalves
    with_reducible exact State.setEth_only h heths

theorem State.pauseSettle_only {a1}  (h : Only ps s0 s) (hcounts : Part.counts ∈ ps) (heths : Part.eths ∈ ps) (hhalves : Part.halves ∈ ps) : Only ps s0 (State.pauseSettle s a1) := by
  unfold State.pauseSettle
  split
  · rename_i x1 r2 heq3
    refine Only.ite ?_ ?_
    · with_reducible exact State.endPause_only h hcounts heths hhalves
    · exact h
  · rename_i x4 heq5
    exact h

theorem State.endEth_only {a1 a2 a3}  (h : Only ps s0 s) (hcounts : Part.counts ∈ ps) (hhalves : Part.halves ∈ ps) (hout : Part.out ∈ ps) (hrings : Part.rings ∈ ps) : Only ps s0 (State.endEth s a1 a2 a3) := by
  unfold State.endEth
  refine Only.ite ?_ ?_
  · exact h
  · with_reducible exact State.complete_only h hcounts hhalves hout hrings

theorem State.stopEth_only {a1}  (h : Only ps s0 s) (hcounts : Part.counts ∈ ps) (heths : Part.eths ∈ ps) (hhalves : Part.halves ∈ ps) (hout : Part.out ∈ ps) (hregs_ep : Part.regs .ep ∈ ps) (hrings : Part.rings ∈ ps) : Only ps s0 (State.stopEth s a1) := by
  unfold State.stopEth
  extract_lets s1 s2 x3 s4
  have hs1 : Only ps s0 s1 := by
    exact State.setRf_only h hregs_ep
  clear_value s1
  have hs2 : Only ps s0 s2 := by
    with_reducible refine State.endPause_only ?_ hcounts heths hhalves
    with_reducible exact State.pauseSettle_only hs1 hcounts heths hhalves
  clear_value s2
  have hs4 : Only ps s0 s4 := by
    with_reducible exact State.setEth_only hs2 heths
  clear_value s4
  refine Only.foldl ?_ ?_
  · exact hs4
  · intro s5 x6 k7
    with_reducible exact State.endEth_only k7 hcounts hhalves hout hrings

theorem State.writeEpCfg_only {a1 a2 a3}  (h : Only ps s0 s) (hcounts : Part.counts ∈ ps) (heths : Part.eths ∈ ps) (hhalves : Part.halves ∈ ps) (hintake : Part.intake ∈ ps) (hout : Part.out ∈ ps) (hregs_ep : Part.regs .ep ∈ ps) (hrings : Part.rings ∈ ps) : Only ps s0 (State.writeEpCfg s a1 a2 a3) := by
  unfold State.writeEpCfg
  extract_lets r1 was2 s3 x4
  have hs3 : Only ps s0 s3 := by
    exact State.writeFields_only h hregs_ep hintake
  clear_value s3
  refine Only.ite ?_ ?_
  · with_reducible refine State.ethKick_only ?_ heths
    with_reducible refine State.setEth_only ?_ heths
    exact State.setRf_only hs3 hregs_ep
  · refine Only.ite ?_ ?_
    · with_reducible exact State.stopEth_only hs3 hcounts heths hhalves hout hregs_ep hrings
    · exact hs3

theorem State.membersRequest_only {a1 a2 a3}  (h : Only ps s0 s) (hintake : Part.intake ∈ ps) (hregs_grp : Part.regs .grp ∈ ps) (htrust : Part.trust ∈ ps) : Only ps s0 (State.membersRequest s a1 a2 a3) := by
  unfold State.membersRequest
  extract_lets old1
  refine Only.ite ?_ ?_
  · with_reducible exact State.holdBack_only h htrust
  · exact State.writeFields_only h hregs_grp hintake

theorem State.actOp_only {f : State → State} {a1}  (h : Only ps s0 s) (hf : ∀ y, Only ps s0 y → Only ps s0 (f y)) : Only ps s0 (State.actOp s a1 f) := by
  unfold State.actOp
  refine Only.ite ?_ ?_
  · exact hf _ h
  · exact h

theorem State.leaveHold_only {a1}  (h : Only ps s0 s) (hports : Part.ports ∈ ps) (hregs_port : Part.regs .port ∈ ps) : Only ps s0 (State.leaveHold s a1) := by
  unfold State.leaveHold
  extract_lets x1
  with_reducible exact State.showPort_only h hports hregs_port

theorem State.holdPort_only {a1 a2 a3}  (h : Only ps s0 s) (hcounts : Part.counts ∈ ps) (hhalves : Part.halves ∈ ps) (hout : Part.out ∈ ps) (hports : Part.ports ∈ ps) (hregs_port : Part.regs .port ∈ ps) (hrings : Part.rings ∈ ps) : Only ps s0 (State.holdPort s a1 a2 a3) := by
  unfold State.holdPort
  extract_lets x1 done2 cancel3
  refine Only.ite ?_ ?_
  · dsimp only [done2]
    split
    · rename_i x4 o5
      with_reducible exact State.complete_only h hcounts hhalves hout hrings
    · rename_i x6
      exact h
  · refine Only.ite ?_ ?_
    · refine Only.ite ?_ ?_
      · dsimp only [done2]
        split
        · rename_i x7 o8
          with_reducible refine State.complete_only ?_ hcounts hhalves hout hrings
          with_reducible exact State.leaveHold_only h hports hregs_port
        · rename_i x9
          with_reducible exact State.leaveHold_only h hports hregs_port
      · dsimp only [done2]
        split
        · rename_i x10 o11
          with_reducible refine State.complete_only ?_ hcounts hhalves hout hrings
          with_reducible exact State.setPort_only h hports
        · rename_i x12
          with_reducible exact State.setPort_only h hports
    · refine Only.ite ?_ ?_
      · refine Only.ite ?_ ?_
        · with_reducible exact State.setPort_only h hports
        · exact h
      · refine Only.ite ?_ ?_
        · refine Only.ite ?_ ?_
          · dsimp only [done2]
            split
            · rename_i x13 o14
              with_reducible refine State.complete_only ?_ hcounts hhalves hout hrings
              dsimp only [cancel3]
              with_reducible refine State.setPort_only ?_ hports
              split
              · rename_i x15 o16 heq17
                with_reducible exact State.complete_only h hcounts hhalves hout hrings
              · rename_i x18 heq19
                exact h
            · rename_i x20
              dsimp only [cancel3]
              with_reducible refine State.setPort_only ?_ hports
              split
              · rename_i x21 o22 heq23
                with_reducible exact State.complete_only h hcounts hhalves hout hrings
              · rename_i x24 heq25
                exact h
          · dsimp only [done2]
            split
            · rename_i x26 o27
              with_reducible refine State.complete_only ?_ hcounts hhalves hout hrings
              with_reducible exact State.setPort_only h hports
            · rename_i x28
              with_reducible exact State.setPort_only h hports
        · refine Only.ite ?_ ?_
          · dsimp only [done2]
            split
            · rename_i x29 o30
              with_reducible exact State.complete_only h hcounts hhalves hout hrings
            · rename_i x31
              exact h
          · refine Only.ite ?_ ?_
            · dsimp only [done2]
              split
              · rename_i x32 o33
                with_reducible exact State.complete_only h hcounts hhalves hout hrings
              · rename_i x34
                exact h
            · refine Only.ite ?_ ?_
              · with_reducible exact State.setPort_only h hports
              · dsimp only [done2]
                split
                · rename_i x35 o36
                  with_reducible refine State.complete_only ?_ hcounts hhalves hout hrings
                  with_reducible exact State.setPort_only h hports
                · rename_i x37
                  with_reducible exact State.setPort_only h hports

theorem State.leaveGroupHold_only {a1}  (h : Only ps s0 s) (hgroups : Part.groups ∈ ps) (hports : Part.ports ∈ ps) (hregs_grp : Part.regs .grp ∈ ps) (hregs_port : Part.regs .port ∈ ps) : Only ps s0 (State.leaveGroupHold s a1) := by
  unfold State.leaveGroupHold
  extract_lets g1 s2 a3 s4 g5
  have hs2 : Only ps s0 s2 := by
    with_reducible exact State.groupGoes_only h hgroups hports hregs_grp hregs_port
  clear_value s2
  have hs4 : Only ps s0 s4 := by
    refine Only.ite ?_ ?_
    · with_reducible exact State.showPort_only hs2 hports hregs_port
    · refine Only.ite ?_ ?_
      · with_reducible exact State.setPort_only hs2 hports
      · exact hs2
  clear_value s4
  refine Only.ite ?_ ?_
  · with_reducible exact State.groupGoes_only hs4 hgroups hports hregs_grp hregs_port
  · exact hs4

theorem State.holdGroup_only {a1 a2 a3}  (h : Only ps s0 s) (hcounts : Part.counts ∈ ps) (hgroups : Part.groups ∈ ps) (hhalves : Part.halves ∈ ps) (hout : Part.out ∈ ps) (hports : Part.ports ∈ ps) (hregs_grp : Part.regs .grp ∈ ps) (hregs_port : Part.regs .port ∈ ps) (hrings : Part.rings ∈ ps) : Only ps s0 (State.holdGroup s a1 a2 a3) := by
  unfold State.holdGroup
  extract_lets g1 done2 cancel3
  refine Only.ite ?_ ?_
  · dsimp only [done2]
    split
    · rename_i x4 o5
      with_reducible exact State.complete_only h hcounts hhalves hout hrings
    · rename_i x6
      exact h
  · refine Only.ite ?_ ?_
    · refine Only.ite ?_ ?_
      · dsimp only [done2]
        split
        · rename_i x7 o8
          with_reducible refine State.complete_only ?_ hcounts hhalves hout hrings
          with_reducible exact State.leaveGroupHold_only h hgroups hports hregs_grp hregs_port
        · rename_i x9
          with_reducible exact State.leaveGroupHold_only h hgroups hports hregs_grp hregs_port
      · dsimp only [done2]
        split
        · rename_i x10 o11
          with_reducible refine State.complete_only ?_ hcounts hhalves hout hrings
          with_reducible exact State.setGroup_only h hgroups
        · rename_i x12
          with_reducible exact State.setGroup_only h hgroups
    · refine Only.ite ?_ ?_
      · refine Only.ite ?_ ?_
        · with_reducible exact State.setGroup_only h hgroups
        · refine Only.ite ?_ ?_
          · dsimp only [done2]
            split
            · rename_i x13 o14
              with_reducible refine State.complete_only ?_ hcounts hhalves hout hrings
              dsimp only [cancel3]
              with_reducible refine State.setGroup_only ?_ hgroups
              split
              · rename_i x15 o16 heq17
                with_reducible exact State.complete_only h hcounts hhalves hout hrings
              · rename_i x18 heq19
                exact h
            · rename_i x20
              dsimp only [cancel3]
              with_reducible refine State.setGroup_only ?_ hgroups
              split
              · rename_i x21 o22 heq23
                with_reducible exact State.complete_only h hcounts hhalves hout hrings
              · rename_i x24 heq25
                exact h
          · dsimp only [done2]
            split
            · rename_i x26 o27
              with_reducible exact State.complete_only h hcounts hhalves hout hrings
            · rename_i x28
              exact h
      · refine Only.ite ?_ ?_
        · refine Only.ite ?_ ?_
          · dsimp only [done2]
            split
            · rename_i x29 o30
              with_reducible refine State.complete_only ?_ hcounts hhalves hout hrings
              dsimp only [cancel3]
              with_reducible refine State.setGroup_only ?_ hgroups
              split
              · rename_i x31 o32 heq33
                with_reducible exact State.complete_only h hcounts hhalves hout hrings
              · rename_i x34 heq35
                exact h
            · rename_i x36
              dsimp only [cancel3]
              with_reducible refine State.setGroup_only ?_ hgroups
              split
              · rename_i x37 o38 heq39
                with_reducible exact State.complete_only h hcounts hhalves hout hrings
              · rename_i x40 heq41
                exact h
          · dsimp only [done2]
            split
            · rename_i x42 o43
              with_reducible refine State.complete_only ?_ hcounts hhalves hout hrings
              with_reducible exact State.setGroup_only h hgroups
            · rename_i x44
              with_reducible exact State.setGroup_only h hgroups
        · refine Only.ite ?_ ?_
          · dsimp only [done2]
            split
            · rename_i x45 o46
              with_reducible exact State.complete_only h hcounts hhalves hout hrings
            · rename_i x47
              exact h
          · with_reducible exact State.setGroup_only h hgroups

theorem State.holdRequest_only {a1 a2 a3}  (h : Only ps s0 s) (hcairn : Part.cairn ∈ ps) (hcounts : Part.counts ∈ ps) (hgroups : Part.groups ∈ ps) (hhalves : Part.halves ∈ ps) (hout : Part.out ∈ ps) (hports : Part.ports ∈ ps) (hregs_grp : Part.regs .grp ∈ ps) (hregs_port : Part.regs .port ∈ ps) (hrings : Part.rings ∈ ps) (htrust : Part.trust ∈ ps) : Only ps s0 (State.holdRequest s a1 a2 a3) := by
  unfold State.holdRequest
  dsimp only
  split
  · rename_i x1 x2 p3 heq4
    refine Only.ite ?_ ?_
    · with_reducible exact State.complete_only h hcounts hhalves hout hrings
    · refine Only.ite ?_ ?_
      · with_reducible exact State.holdBack_only h htrust
      · refine Only.ite ?_ ?_
        · refine (h.cairn hcairn)
        · with_reducible exact State.holdPort_only h hcounts hhalves hout hports hregs_port hrings
  · rename_i x5 x6 k7 heq8 heq9
    refine Only.ite ?_ ?_
    · with_reducible exact State.complete_only h hcounts hhalves hout hrings
    · refine Only.ite ?_ ?_
      · with_reducible exact State.holdBack_only h htrust
      · with_reducible exact State.holdGroup_only h hcounts hgroups hhalves hout hports hregs_grp hregs_port hrings
  · rename_i x10 x11 heq12 heq13
    with_reducible exact State.complete_only h hcounts hhalves hout hrings

theorem State.flushVectors_only {a1}  (h : Only ps s0 s) (hfuncs : Part.funcs ∈ ps) (hout : Part.out ∈ ps) : Only ps s0 (State.flushVectors s a1) := by
  unfold State.flushVectors
  extract_lets f1 go2 s3
  have hs3 : Only ps s0 s3 := by
    with_reducible exact State.setFunc_only h hfuncs
  clear_value s3
  refine Only.ite ?_ ?_
  · exact h
  · refine Only.foldl ?_ ?_
    · exact hs3
    · intro s4 x5 k6
      with_reducible exact State.emit_only k6 hout

theorem State.msixRequest_only {a1 a2 a3}  (h : Only ps s0 s) (hfuncs : Part.funcs ∈ ps) (hout : Part.out ∈ ps) (htrust : Part.trust ∈ ps) : Only ps s0 (State.msixRequest s a1 a2 a3) := by
  unfold State.msixRequest
  refine Only.ite ?_ ?_
  · with_reducible exact State.holdBack_only h htrust
  · with_reducible refine State.flushVectors_only ?_ hfuncs hout
    extract_lets x1
    with_reducible exact State.setFunc_only h hfuncs

theorem State.setRoute_only {a1 a2}  (h : Only ps s0 s) (hroutes : Part.routes ∈ ps) : Only ps s0 (State.setRoute s a1 a2) := by
  unfold State.setRoute
  refine (h.routes hroutes)

theorem State.rtPut_only {a1 a2}  (h : Only ps s0 s) (hfab : Part.fab ∈ ps) (hroutes : Part.routes ∈ ps) : Only ps s0 (State.rtPut s a1 a2) := by
  unfold State.rtPut
  extract_lets b1 old2 valid3 x4 s5
  have hs5 : Only ps s0 s5 := by
    refine Only.ite ?_ ?_
    · refine (h.fab hfab)
    · exact h
  clear_value s5
  with_reducible exact State.setRoute_only hs5 hroutes

theorem State.rtWriteOp_only {a1 a2 a3}  (h : Only ps s0 s) (hcounts : Part.counts ∈ ps) (hfab : Part.fab ∈ ps) (hhalves : Part.halves ∈ ps) (hout : Part.out ∈ ps) (hrings : Part.rings ∈ ps) (hroutes : Part.routes ∈ ps) (htrust : Part.trust ∈ ps) : Only ps s0 (State.rtWriteOp s a1 a2 a3) := by
  unfold State.rtWriteOp
  extract_lets n1
  refine Only.ite ?_ ?_
  · with_reducible exact State.complete_only h hcounts hhalves hout hrings
  · refine Only.ite ?_ ?_
    · with_reducible exact State.complete_only h hcounts hhalves hout hrings
    · refine Only.ite ?_ ?_
      · with_reducible exact State.complete_only h hcounts hhalves hout hrings
      · refine Only.ite ?_ ?_
        · with_reducible exact State.holdBack_only h htrust
        · refine Only.ite ?_ ?_
          · with_reducible exact State.complete_only h hcounts hhalves hout hrings
          · with_reducible refine State.complete_only ?_ hcounts hhalves hout hrings
            refine Only.foldl ?_ ?_
            · exact h
            · intro s2 x3 k4
              with_reducible exact State.rtPut_only k4 hfab hroutes

theorem State.reclaimStop_only {a1}  (h : Only ps s0 s) (hcounts : Part.counts ∈ ps) (hhalves : Part.halves ∈ ps) (hout : Part.out ∈ ps) (hports : Part.ports ∈ ps) (hregs_port : Part.regs .port ∈ ps) (hrings : Part.rings ∈ ps) : Only ps s0 (State.reclaimStop s a1) := by
  unfold State.reclaimStop
  refine Only.ite ?_ ?_
  · exact h
  · with_reducible exact State.stopAccepted_only h hcounts hhalves hout hports hregs_port hrings

theorem State.actHeld_only {a1}  (h : Only ps s0 s) (hcairn : Part.cairn ∈ ps) (hcounts : Part.counts ∈ ps) (heths : Part.eths ∈ ps) (hfab : Part.fab ∈ ps) (hfree : Part.free ∈ ps) (hfuncs : Part.funcs ∈ ps) (hgroups : Part.groups ∈ ps) (hhalves : Part.halves ∈ ps) (hintake : Part.intake ∈ ps) (hobjs : Part.objs ∈ ps) (hout : Part.out ∈ ps) (hports : Part.ports ∈ ps) (hregs_ep : Part.regs .ep ∈ ps) (hregs_fn : Part.regs .fn ∈ ps) (hregs_grp : Part.regs .grp ∈ ps) (hregs_port : Part.regs .port ∈ ps) (hregs_ring : Part.regs .ring ∈ ps) (hrings : Part.rings ∈ ps) (hroutes : Part.routes ∈ ps) (htrust : Part.trust ∈ ps) : Only ps s0 (State.actHeld s a1) := by
  unfold State.actHeld
  split
  · rename_i h1 d2 p3 c4
    refine Only.ite ?_ ?_
    · with_reducible exact State.portRequest_only h hcairn hcounts hhalves hout hports hregs_port hrings htrust
    · exact h
  · rename_i h5 d6 n7 v8
    refine Only.ite ?_ ?_
    · with_reducible exact State.writeRingCfg_only h hcairn hcounts heths hfree hfuncs hhalves hintake hobjs hout hports hregs_fn hregs_ring hrings htrust
    · exact h
  · rename_i h9 d10 k11 v12
    refine Only.ite ?_ ?_
    · with_reducible exact State.groupRequest_only h hgroups hports hregs_grp hregs_port htrust
    · exact h
  · rename_i h13 d14 k15 v16
    refine Only.ite ?_ ?_
    · with_reducible exact State.writeEpCfg_only h hcounts heths hhalves hintake hout hregs_ep hrings
    · exact h
  · rename_i h17 d18 k19 v20
    refine Only.ite ?_ ?_
    · with_reducible exact State.membersRequest_only h hintake hregs_grp htrust
    · exact h
  · rename_i h21 o22 t23 time24
    with_reducible refine State.actOp_only ?_ ?_
    · exact h
    · intro s25 k26
      with_reducible exact State.holdRequest_only k26 hcairn hcounts hgroups hhalves hout hports hregs_grp hregs_port hrings htrust
  · rename_i h27 d28 en29 fm30
    refine Only.ite ?_ ?_
    · with_reducible exact State.msixRequest_only h hfuncs hout htrust
    · exact h
  · rename_i h31 o32 x33 bytes34
    with_reducible refine State.actOp_only ?_ ?_
    · exact h
    · intro s35 k36
      with_reducible exact State.rtWriteOp_only k36 hcounts hfab hhalves hout hrings hroutes htrust
  · rename_i h37 p38
    with_reducible exact State.reclaimStop_only h hcounts hhalves hout hports hregs_port hrings

theorem State.setCairn_only {a1}  (h : Only ps s0 s) (hcairn : Part.cairn ∈ ps) : Only ps s0 (State.setCairn s a1) := by
  unfold State.setCairn
  refine (h.cairn hcairn)

theorem State.writeLayout_only  (h : Only ps s0 s) (hcairn : Part.cairn ∈ ps) : Only ps s0 (State.writeLayout s) := by
  unfold State.writeLayout
  dsimp only
  with_reducible exact State.setCairn_only h hcairn

theorem State.setComp_only {a1 a2}  (h : Only ps s0 s) (hcairn : Part.cairn ∈ ps) : Only ps s0 (State.setComp s a1 a2) := by
  unfold State.setComp
  extract_lets x1 t2
  have ht2 : Only ps s0 t2 := by
    with_reducible exact State.setCairn_only h hcairn
  clear_value t2
  refine Only.ite ?_ ?_
  · exact ht2
  · with_reducible exact State.writeLayout_only ht2 hcairn

theorem State.clearAbsent_only {a1}  (h : Only ps s0 s) (hdev : Part.dev ∈ ps) : Only ps s0 (State.clearAbsent s a1) := by
  unfold State.clearAbsent
  extract_lets x1
  refine (h.dev hdev)

theorem State.crnEvent_only {a1}  (h : Only ps s0 s) (hcairn : Part.cairn ∈ ps) (hregs_fn : Part.regs .fn ∈ ps) : Only ps s0 (State.crnEvent s a1) := by
  unfold State.crnEvent
  extract_lets s1 x2
  have hs1 : Only ps s0 s1 := by
    exact State.raise_only h hregs_fn
  clear_value s1
  refine Only.ite ?_ ?_
  · refine (hs1.cairn hcairn)
  · exact hs1

theorem State.restartService_only {a1}  (h : Only ps s0 s) (hcairn : Part.cairn ∈ ps) (hintake : Part.intake ∈ ps) (hregs_fn : Part.regs .fn ∈ ps) : Only ps s0 (State.restartService s a1) := by
  unfold State.restartService
  extract_lets x1 s2
  have hs2 : Only ps s0 s2 := by
    with_reducible exact State.setCairn_only h hcairn
  clear_value s2
  with_reducible refine State.crnEvent_only ?_ hcairn hregs_fn
  with_reducible exact State.record_only hs2 hintake

theorem State.restartFor_only {a1}  (h : Only ps s0 s) (hcairn : Part.cairn ∈ ps) (hintake : Part.intake ∈ ps) (hregs_fn : Part.regs .fn ∈ ps) : Only ps s0 (State.restartFor s a1) := by
  unfold State.restartFor
  with_reducible exact State.restartService_only h hcairn hintake hregs_fn

theorem State.setCore_only {a1 a2}  (h : Only ps s0 s) (hspur : Part.spur ∈ ps) : Only ps s0 (State.setCore s a1 a2) := by
  unfold State.setCore
  extract_lets x1
  refine (h.spur hspur)

theorem State.setDuty_only {a1 a2}  (h : Only ps s0 s) (hspur : Part.spur ∈ ps) : Only ps s0 (State.setDuty s a1 a2) := by
  unfold State.setDuty
  extract_lets x1
  refine (h.spur hspur)

theorem State.takeHome_only {a1}  (h : Only ps s0 s) (hspur : Part.spur ∈ ps) : Only ps s0 (State.takeHome s a1) := by
  unfold State.takeHome
  refine Only.foldl ?_ ?_
  · exact h
  · intro s1 x2 k3
    extract_lets x4
    refine Only.ite ?_ ?_
    · with_reducible exact State.setDuty_only k3 hspur
    · exact k3

theorem State.coreRuns_only {a1}  (h : Only ps s0 s) (hevc : Part.evc ∈ ps) (hspur : Part.spur ∈ ps) : Only ps s0 (State.coreRuns s a1) := by
  unfold State.coreRuns
  extract_lets x1 s2 x3 s4
  have hs2 : Only ps s0 s2 := by
    with_reducible exact State.setCore_only h hspur
  clear_value s2
  have hs4 : Only ps s0 s4 := by
    refine (hs2.evc hevc)
  clear_value s4
  with_reducible exact State.takeHome_only hs4 hspur

theorem State.dropColdStart_only  (h : Only ps s0 s) (hgroups : Part.groups ∈ ps) : Only ps s0 (State.dropColdStart s) := by
  unfold State.dropColdStart
  refine Only.foldl ?_ ?_
  · exact h
  · intro s1 x2 k3
    extract_lets g4
    refine Only.ite ?_ ?_
    · with_reducible exact State.setGroup_only k3 hgroups
    · exact k3

theorem State.moveDuties_only {a1 a2}  (h : Only ps s0 s) (hgroups : Part.groups ∈ ps) (hspur : Part.spur ∈ ps) : Only ps s0 (State.moveDuties s a1 a2) := by
  unfold State.moveDuties
  refine Only.foldl ?_ ?_
  · exact h
  · intro s1 x2 k3
    extract_lets x4 s5 s6
    have hs5 : Only ps s0 s5 := by
      with_reducible exact State.setDuty_only k3 hspur
    clear_value s5
    have hs6 : Only ps s0 s6 := by
      refine Only.ite ?_ ?_
      · with_reducible exact State.dropColdStart_only hs5 hgroups
      · exact hs5
    clear_value s6
    refine Only.ite ?_ ?_
    · split
      · rename_i x7 t8 heq9
        with_reducible exact State.setDuty_only hs6 hspur
      · rename_i x10 heq11
        exact hs6
    · exact k3

theorem State.reloadCores_only  (h : Only ps s0 s) (hevc : Part.evc ∈ ps) (hgroups : Part.groups ∈ ps) (hspur : Part.spur ∈ ps) : Only ps s0 (State.reloadCores s) := by
  unfold State.reloadCores
  refine Only.foldl ?_ ?_
  · exact h
  · intro s1 x2 k3
    extract_lets x4
    refine Only.ite ?_ ?_
    · with_reducible refine State.coreRuns_only ?_ hevc hspur
      with_reducible refine State.moveDuties_only ?_ hgroups hspur
      with_reducible exact State.setCore_only k3 hspur
    · refine Only.ite ?_ ?_
      · with_reducible exact State.coreRuns_only k3 hevc hspur
      · exact k3

theorem State.safePoint_only {a1 a2}  (h : Only ps s0 s) (hcairn : Part.cairn ∈ ps) (hevc : Part.evc ∈ ps) (hgroups : Part.groups ∈ ps) (hintake : Part.intake ∈ ps) (hregs_fn : Part.regs .fn ∈ ps) (hspur : Part.spur ∈ ps) : Only ps s0 (State.safePoint s a1 a2) := by
  unfold State.safePoint
  refine Only.ite ?_ ?_
  · with_reducible exact State.restartFor_only h hcairn hintake hregs_fn
  · refine Only.ite ?_ ?_
    · with_reducible exact State.reloadCores_only h hevc hgroups hspur
    · exact h

theorem State.setOtp_only {a1}  (h : Only ps s0 s) (hotp : Part.otp ∈ ps) : Only ps s0 (State.setOtp s a1) := by
  unfold State.setOtp
  extract_lets x1
  refine (h.belay (.inl ⟨rfl, rfl, rfl⟩) (.inl rfl) (.inr hotp) (.inl ⟨rfl, rfl, rfl, rfl, rfl, rfl⟩))

theorem State.confirm_only {a1}  (h : Only ps s0 s) (hcairn : Part.cairn ∈ ps) (hintake : Part.intake ∈ ps) (hotp : Part.otp ∈ ps) : Only ps s0 (State.confirm s a1) := by
  unfold State.confirm
  extract_lets x1 s2 f3 x4
  have hs2 : Only ps s0 s2 := by
    with_reducible exact State.setComp_only h hcairn
  clear_value s2
  split
  · rename_i x5 heq6
    exact hs2
  · rename_i x7 i8 heq9
    refine Only.ite ?_ ?_
    · with_reducible refine State.record_only ?_ hintake
      with_reducible exact State.setOtp_only hs2 hotp
    · exact hs2

theorem State.activated_only {a1 a2 a3}  (h : Only ps s0 s) (hcairn : Part.cairn ∈ ps) (hdev : Part.dev ∈ ps) (hevc : Part.evc ∈ ps) (hgroups : Part.groups ∈ ps) (hintake : Part.intake ∈ ps) (hotp : Part.otp ∈ ps) (hregs_fn : Part.regs .fn ∈ ps) (hspur : Part.spur ∈ ps) : Only ps s0 (State.activated s a1 a2 a3) := by
  unfold State.activated
  extract_lets x1 y2 s3 s4 s5 i6 g7 x8 x9 s10
  have hs3 : Only ps s0 s3 := by
    with_reducible exact State.setComp_only h hcairn
  clear_value s3
  have hs4 : Only ps s0 s4 := by
    with_reducible exact State.record_only hs3 hintake
  clear_value s4
  have hs5 : Only ps s0 s5 := by
    refine Only.ite ?_ ?_
    · with_reducible exact State.clearAbsent_only hs4 hdev
    · refine Only.ite ?_ ?_
      · with_reducible exact State.clearAbsent_only hs4 hdev
      · exact hs4
  clear_value s5
  have hs10 : Only ps s0 s10 := by
    refine (hs4.spur hspur)
  clear_value s10
  refine Only.ite ?_ ?_
  · with_reducible exact State.safePoint_only hs5 hcairn hevc hgroups hintake hregs_fn hspur
  · with_reducible refine State.confirm_only ?_ hcairn hintake hotp
    refine Only.ite ?_ ?_
    · with_reducible exact State.clearAbsent_only hs10 hdev
    · exact hs10

theorem State.fabEvt_only {a1}  (h : Only ps s0 s) (hregs_fab : Part.regs .fab ∈ ps) : Only ps s0 (State.fabEvt s a1) := by
  unfold State.fabEvt
  exact State.raise_only h hregs_fab

theorem State.addrConflict_only  (h : Only ps s0 s) (hfab : Part.fab ∈ ps) (hregs_fab : Part.regs .fab ∈ ps) : Only ps s0 (State.addrConflict s) := by
  unfold State.addrConflict
  extract_lets a1 x2
  refine Only.ite ?_ ?_
  · with_reducible refine State.fabEvt_only ?_ hregs_fab
    with_reducible refine State.fabEvt_only ?_ hregs_fab
    refine (h.fab hfab)
  · exact h

theorem State.endCand_only {a1 a2 a3 a4}  (h : Only ps s0 s) (hcounts : Part.counts ∈ ps) (hfree : Part.free ∈ ps) (hfuncs : Part.funcs ∈ ps) (hhalves : Part.halves ∈ ps) (hobjs : Part.objs ∈ ps) (hout : Part.out ∈ ps) (hports : Part.ports ∈ ps) (hregs_fn : Part.regs .fn ∈ ps) (hrings : Part.rings ∈ ps) : Only ps s0 (State.endCand s a1 a2 a3 a4) := by
  unfold State.endCand
  with_reducible refine State.fillSlots_only ?_ hcounts hfree hfuncs hhalves hobjs hout hports hregs_fn hrings
  with_reducible exact State.leaveSet_only h hcounts hfree hfuncs hhalves hobjs hout hports hregs_fn hrings

theorem State.settlePort_only {a1}  (h : Only ps s0 s) (hcounts : Part.counts ∈ ps) (hfree : Part.free ∈ ps) (hfuncs : Part.funcs ∈ ps) (hhalves : Part.halves ∈ ps) (hobjs : Part.objs ∈ ps) (hout : Part.out ∈ ps) (hports : Part.ports ∈ ps) (hregs_fn : Part.regs .fn ∈ ps) (hrings : Part.rings ∈ ps) : Only ps s0 (State.settlePort s a1) := by
  unfold State.settlePort
  extract_lets x1
  with_reducible refine State.fillSlots_only ?_ hcounts hfree hfuncs hhalves hobjs hout hports hregs_fn hrings
  refine Only.foldl ?_ ?_
  · exact h
  · intro s2 x3 k4
    with_reducible exact State.endCand_only k4 hcounts hfree hfuncs hhalves hobjs hout hports hregs_fn hrings

theorem State.settle_only  (h : Only ps s0 s) (hcounts : Part.counts ∈ ps) (hfree : Part.free ∈ ps) (hfuncs : Part.funcs ∈ ps) (hhalves : Part.halves ∈ ps) (hobjs : Part.objs ∈ ps) (hout : Part.out ∈ ps) (hports : Part.ports ∈ ps) (hregs_fn : Part.regs .fn ∈ ps) (hrings : Part.rings ∈ ps) : Only ps s0 (State.settle s) := by
  unfold State.settle
  refine Only.foldl ?_ ?_
  · exact h
  · intro s1 x2 k3
    with_reducible exact State.settlePort_only k3 hcounts hfree hfuncs hhalves hobjs hout hports hregs_fn hrings

theorem State.advance_only {a1}  (h : Only ps s0 s) (hcounts : Part.counts ∈ ps) (hfree : Part.free ∈ ps) (hfuncs : Part.funcs ∈ ps) (hhalves : Part.halves ∈ ps) (hobjs : Part.objs ∈ ps) (hout : Part.out ∈ ps) (hports : Part.ports ∈ ps) (hregs_fn : Part.regs .fn ∈ ps) (hrings : Part.rings ∈ ps) (htmu : Part.tmu ∈ ps) : Only ps s0 (State.advance s a1) := by
  unfold State.advance
  refine Only.ite ?_ ?_
  · extract_lets x1 s2 x3
    have hs2 : Only ps s0 s2 := by
      refine Only.ite ?_ ?_
      · with_reducible refine State.settle_only ?_ hcounts hfree hfuncs hhalves hobjs hout hports hregs_fn hrings
        refine (h.tmu htmu)
      · exact h
    clear_value s2
    refine (hs2.tmu htmu)
  · exact h

theorem State.alertActs_only  (h : Only ps s0 s) (hcairn : Part.cairn ∈ ps) (hintake : Part.intake ∈ ps) (hregs_fn : Part.regs .fn ∈ ps) : Only ps s0 (State.alertActs s) := by
  unfold State.alertActs
  extract_lets c1 s2
  have hs2 : Only ps s0 s2 := by
    with_reducible exact State.setCairn_only h hcairn
  clear_value s2
  refine Only.ite ?_ ?_
  · with_reducible refine State.crnEvent_only ?_ hcairn hregs_fn
    with_reducible exact State.record_only hs2 hintake
  · refine Only.ite ?_ ?_
    · with_reducible exact State.setCairn_only h hcairn
    · exact h

theorem State.nameSource_only  (h : Only ps s0 s) (hregs_tmu : Part.regs .tmu ∈ ps) : Only ps s0 (State.nameSource s) := by
  unfold State.nameSource
  refine Only.ite ?_ ?_
  · exact State.setRf_only h hregs_tmu
  · exact h

theorem State.fabricTime_only  (h : Only ps s0 s) (hfab : Part.fab ∈ ps) (hregs_fab : Part.regs .fab ∈ ps) (hregs_tmu : Part.regs .tmu ∈ ps) : Only ps s0 (State.fabricTime s) := by
  unfold State.fabricTime
  dsimp only
  refine Only.ite ?_ ?_
  · with_reducible refine State.fabEvt_only ?_ hregs_fab
    with_reducible refine State.nameSource_only ?_ hregs_tmu
    refine (h.fab hfab)
  · with_reducible refine State.nameSource_only ?_ hregs_tmu
    refine (h.fab hfab)

theorem State.takeAddr_only {a1}  (h : Only ps s0 s) (hfab : Part.fab ∈ ps) (hregs_fab : Part.regs .fab ∈ ps) (hregs_tmu : Part.regs .tmu ∈ ps) : Only ps s0 (State.takeAddr s a1) := by
  unfold State.takeAddr
  with_reducible refine State.fabricTime_only ?_ hfab hregs_fab hregs_tmu
  with_reducible refine State.addrConflict_only ?_ hfab hregs_fab
  with_reducible refine State.fabEvt_only ?_ hregs_fab
  extract_lets x1
  refine (h.fab hfab)

theorem State.reportCredit_only {a1 a2}  (h : Only ps s0 s) (hout : Part.out ∈ ps) : Only ps s0 (State.reportCredit s a1 a2) := by
  unfold State.reportCredit
  with_reducible exact State.emit_only h hout

theorem State.setLink_only {a1 a2}  (h : Only ps s0 s) (hlinks : Part.links ∈ ps) : Only ps s0 (State.setLink s a1 a2) := by
  unfold State.setLink
  refine (h.links hlinks)

theorem State.returnCredit_only {a1 a2 a3}  (h : Only ps s0 s) (hlinks : Part.links ∈ ps) (hout : Part.out ∈ ps) : Only ps s0 (State.returnCredit s a1 a2 a3) := by
  unfold State.returnCredit
  extract_lets l1 c2
  with_reducible refine State.reportCredit_only ?_ hout
  with_reducible exact State.setLink_only h hlinks

theorem State.rlDone_only {a1 a2}  (h : Only ps s0 s) (hlinks : Part.links ∈ ps) (hout : Part.out ∈ ps) : Only ps s0 (State.rlDone s a1 a2) := by
  unfold State.rlDone
  with_reducible exact State.returnCredit_only h hlinks hout

theorem State.dropFrom_only {a1 a2}  (h : Only ps s0 s) (hlinks : Part.links ∈ ps) (hout : Part.out ∈ ps) : Only ps s0 (State.dropFrom s a1 a2) := by
  unfold State.dropFrom
  split
  · rename_i x1 j2
    refine Only.ite ?_ ?_
    · exact h
    · with_reducible exact State.rlDone_only h hlinks hout
  · rename_i x3
    exact h

theorem State.pushLink_only {a1 a2 a3}  (h : Only ps s0 s) (hlinks : Part.links ∈ ps) : Only ps s0 (State.pushLink s a1 a2 a3) := by
  unfold State.pushLink
  extract_lets x1
  with_reducible exact State.setLink_only h hlinks

theorem State.flood_only {a1 a2}  (h : Only ps s0 s) (hlinks : Part.links ∈ ps) (hout : Part.out ∈ ps) : Only ps s0 (State.flood s a1 a2) := by
  unfold State.flood
  extract_lets ks1
  refine Only.ite ?_ ?_
  · with_reducible exact State.dropFrom_only h hlinks hout
  · refine Only.foldl ?_ ?_
    · exact h
    · intro s2 x3 k4
      with_reducible exact State.pushLink_only k4 hlinks

theorem State.remember_only {a1 a2 a3}  (h : Only ps s0 s) (hfab : Part.fab ∈ ps) : Only ps s0 (State.remember s a1 a2 a3) := by
  unfold State.remember
  extract_lets x1
  refine (h.fab hfab)

theorem State.floodMgmt_only {a1 a2}  (h : Only ps s0 s) (hfab : Part.fab ∈ ps) (hlinks : Part.links ∈ ps) (hout : Part.out ∈ ps) : Only ps s0 (State.floodMgmt s a1 a2) := by
  unfold State.floodMgmt
  extract_lets q1 x2 s3
  have hs3 : Only ps s0 s3 := by
    refine (h.fab hfab)
  clear_value s3
  with_reducible refine State.flood_only ?_ hlinks hout
  with_reducible exact State.remember_only hs3 hfab

theorem State.allocate_only {a1}  (h : Only ps s0 s) (hfab : Part.fab ∈ ps) (hlinks : Part.links ∈ ps) (hout : Part.out ∈ ps) (hregs_fab : Part.regs .fab ∈ ps) (hregs_tmu : Part.regs .tmu ∈ ps) : Only ps s0 (State.allocate s a1) := by
  unfold State.allocate
  refine Only.ite ?_ ?_
  · exact h
  · dsimp only
    split
    · rename_i x1 heq2
      with_reducible exact State.fabEvt_only h hregs_fab
    · rename_i x3 a4 heq5
      with_reducible refine State.floodMgmt_only ?_ hfab hlinks hout
      refine Only.ite ?_ ?_
      · with_reducible refine State.takeAddr_only ?_ hfab hregs_fab hregs_tmu
        refine (h.fab hfab)
      · refine (h.fab hfab)

theorem State.allocator_only  (h : Only ps s0 s) (hfab : Part.fab ∈ ps) : Only ps s0 (State.allocator s) := by
  unfold State.allocator
  extract_lets a1 x2
  refine (h.fab hfab)

theorem State.stormCount_only {a1 a2}  (h : Only ps s0 s) (hevc : Part.evc ∈ ps) (hintake : Part.intake ∈ ps) (hregs_guard : Part.regs .guard ∈ ps) : Only ps s0 (State.stormCount s a1 a2) := by
  unfold State.stormCount
  extract_lets n1 w2 l3 x4 s5 i6 s7 s8
  have hs5 : Only ps s0 s5 := by
    refine (h.evc hevc)
  clear_value s5
  have hs7 : Only ps s0 s7 := by
    exact State.raise_only hs5 hregs_guard
  clear_value s7
  have hs8 : Only ps s0 s8 := by
    exact State.raise_only hs7 hregs_guard
  clear_value s8
  refine Only.ite ?_ ?_
  · exact h
  · refine Only.ite ?_ ?_
    · with_reducible exact State.record_only hs8 hintake
    · exact hs5

theorem State.message_only {a1 a2 a3}  (h : Only ps s0 s) (hevc : Part.evc ∈ ps) (hfuncs : Part.funcs ∈ ps) (hintake : Part.intake ∈ ps) (hout : Part.out ∈ ps) (hregs_guard : Part.regs .guard ∈ ps) : Only ps s0 (State.message s a1 a2 a3) := by
  unfold State.message
  extract_lets f1 held2 x3 e4 s5 s6
  have hs5 : Only ps s0 s5 := by
    refine (h.evc hevc)
  clear_value s5
  have hs6 : Only ps s0 s6 := by
    refine Only.ite ?_ ?_
    · with_reducible exact State.setFunc_only hs5 hfuncs
    · with_reducible exact State.emit_only hs5 hout
  clear_value s6
  refine Only.ite ?_ ?_
  · exact hs5
  · refine Only.foldl ?_ ?_
    · exact hs6
    · intro s7 x8 k9
      with_reducible exact State.stormCount_only k9 hevc hintake hregs_guard

theorem State.announceAt_only {a1 a2 a3}  (h : Only ps s0 s) (hevc : Part.evc ∈ ps) (hfree : Part.free ∈ ps) (hfuncs : Part.funcs ∈ ps) (hintake : Part.intake ∈ ps) (hout : Part.out ∈ ps) (hregs_guard : Part.regs .guard ∈ ps) : Only ps s0 (State.announceAt s a1 a2 a3) := by
  unfold State.announceAt
  refine Only.ite ?_ ?_
  · with_reducible exact State.message_only h hevc hfuncs hintake hout hregs_guard
  · refine Only.ite ?_ ?_
    · with_reducible refine State.message_only ?_ hevc hfuncs hintake hout hregs_guard
      with_reducible exact State.draw_only h hfree
    · extract_lets s1 held2 x3
      have hs1 : Only ps s0 s1 := by
        with_reducible exact State.draw_only h hfree
      clear_value s1
      refine (hs1.evc hevc)

theorem State.announce_only  (h : Only ps s0 s) (hevc : Part.evc ∈ ps) (hfree : Part.free ∈ ps) (hfuncs : Part.funcs ∈ ps) (hintake : Part.intake ∈ ps) (hout : Part.out ∈ ps) (hregs_guard : Part.regs .guard ∈ ps) : Only ps s0 (State.announce s) := by
  unfold State.announce
  extract_lets cur1 new2 reps3 s4 x5
  have hs4 : Only ps s0 s4 := by
    refine Only.foldl ?_ ?_
    · exact h
    · intro s6 x7 k8
      with_reducible exact State.announceAt_only k8 hevc hfree hfuncs hintake hout hregs_guard
  clear_value s4
  refine (hs4.evc hevc)

theorem State.answer_only {a1}  (h : Only ps s0 s) (hout : Part.out ∈ ps) : Only ps s0 (State.answer s a1) := by
  unfold State.answer
  with_reducible exact State.emit_only h hout

theorem State.withEntry_only {a1 a2}  (h : Only ps s0 s) (hpartition : Part.partition ∈ ps) : Only ps s0 (State.withEntry s a1 a2) := by
  unfold State.withEntry
  extract_lets x1
  refine (h.belay (.inr hpartition) (.inl rfl) (.inl rfl) (.inl ⟨rfl, rfl, rfl, rfl, rfl, rfl⟩))

theorem State.reassignPort_only {a1}  (h : Only ps s0 s) (hcounts : Part.counts ∈ ps) (hhalves : Part.halves ∈ ps) (hout : Part.out ∈ ps) (hports : Part.ports ∈ ps) (hregs_port : Part.regs .port ∈ ps) (hrings : Part.rings ∈ ps) : Only ps s0 (State.reassignPort s a1) := by
  unfold State.reassignPort
  extract_lets x1 x2
  refine Only.ite ?_ ?_
  · refine Only.ite ?_ ?_
    · with_reducible exact State.leaveHold_only h hports hregs_port
    · exact h
  · refine Only.ite ?_ ?_
    · refine Only.ite ?_ ?_
      · exact h
      · with_reducible refine State.setPort_only ?_ hports
        with_reducible exact State.clearHold_only h hcounts hhalves hout hports hrings
    · with_reducible exact State.clearHold_only h hcounts hhalves hout hports hrings

theorem State.tarnWrite_only {a1 a2 a3} (h : Only ps s0 s) (htarn : Part.tarn ∈ ps) : Only ps s0 (State.tarnWrite s a1 a2 a3) := by
  induction a3 generalizing s a2 with
  | nil => exact h
  | cons x r ih =>
    unfold State.tarnWrite
    dsimp only
    refine ih ?_
    split
    · exact h.tarn htarn
    · exact h

theorem State.dropObject_only {a1 a2}  (h : Only ps s0 s) (hobjs : Part.objs ∈ ps) (htarn : Part.tarn ∈ ps) : Only ps s0 (State.dropObject s a1 a2) := by
  unfold State.dropObject
  extract_lets x1 x2
  with_reducible refine State.setObj_only ?_ hobjs
  with_reducible exact State.tarnWrite_only h htarn

theorem State.dropBound_only {a1 a2}  (h : Only ps s0 s) (hobjs : Part.objs ∈ ps) (htarn : Part.tarn ∈ ps) : Only ps s0 (State.dropBound s a1 a2) := by
  unfold State.dropBound
  refine Only.foldl ?_ ?_
  · exact h
  · intro s1 x2 k3
    with_reducible exact State.dropObject_only k3 hobjs htarn

theorem State.clearGroupHold_only {a1}  (h : Only ps s0 s) (hcounts : Part.counts ∈ ps) (hgroups : Part.groups ∈ ps) (hhalves : Part.halves ∈ ps) (hout : Part.out ∈ ps) (hrings : Part.rings ∈ ps) : Only ps s0 (State.clearGroupHold s a1) := by
  unfold State.clearGroupHold
  extract_lets g1 s2 x3
  have hs2 : Only ps s0 s2 := by
    unfold s2
    split
    · rename_i x4 o5 heq6
      with_reducible exact State.complete_only h hcounts hhalves hout hrings
    · rename_i x7 heq8
      exact h
  clear_value s2
  with_reducible exact State.setGroup_only hs2 hgroups

theorem State.reassignGroup_only {a1}  (h : Only ps s0 s) (hcounts : Part.counts ∈ ps) (hgroups : Part.groups ∈ ps) (hhalves : Part.halves ∈ ps) (hout : Part.out ∈ ps) (hports : Part.ports ∈ ps) (hregs_grp : Part.regs .grp ∈ ps) (hregs_port : Part.regs .port ∈ ps) (hrings : Part.rings ∈ ps) : Only ps s0 (State.reassignGroup s a1) := by
  unfold State.reassignGroup
  extract_lets g1
  refine Only.ite ?_ ?_
  · refine Only.ite ?_ ?_
    · with_reducible exact State.leaveGroupHold_only h hgroups hports hregs_grp hregs_port
    · exact h
  · with_reducible exact State.clearGroupHold_only h hcounts hgroups hhalves hout hrings

theorem State.clearBlock_only {a1}  (h : Only ps s0 s) (hcounts : Part.counts ∈ ps) (hhalves : Part.halves ∈ ps) : Only ps s0 (State.clearBlock s a1) := by
  unfold State.clearBlock
  exact h.trans ⟨rfl, fun p hp => by cases p <;> first | exact absurd ‹_› hp | exact rfl | exact fun _ => rfl | exact fun _ _ => rfl | exact ⟨rfl, rfl, rfl⟩ | exact ⟨rfl, rfl, rfl, rfl, rfl, rfl⟩ | exact ⟨rfl, rfl, rfl, rfl, rfl, rfl, rfl⟩⟩

theorem State.setEngine_only {a1 a2}  (h : Only ps s0 s) (hspur : Part.spur ∈ ps) : Only ps s0 (State.setEngine s a1 a2) := by
  unfold State.setEngine
  extract_lets x1
  refine (h.spur hspur)

theorem State.attach_only {a1 a2}  (h : Only ps s0 s) (hspur : Part.spur ∈ ps) : Only ps s0 (State.attach s a1 a2) := by
  unfold State.attach
  extract_lets s1 x2 s3
  have hs1 : Only ps s0 s1 := by
    dsimp only [s1]
    split
    · rename_i e4 o5 heq6
      with_reducible exact State.setEngine_only h hspur
    · rename_i e7 heq8
      exact h
  clear_value s1
  have hs3 : Only ps s0 s3 := by
    refine (hs1.spur hspur)
  clear_value s3
  dsimp only
  split
  · rename_i e9 o10
    with_reducible exact State.setEngine_only hs3 hspur
  · rename_i e11
    exact hs3

theorem State.newWindows_only {a1}  (h : Only ps s0 s) (hspur : Part.spur ∈ ps) : Only ps s0 (State.newWindows s a1) := by
  unfold State.newWindows
  with_reducible exact State.attach_only h hspur

theorem State.setQuota_only {a1 a2}  (h : Only ps s0 s) (hobjs : Part.objs ∈ ps) (htarn : Part.tarn ∈ ps) (hunits : Part.units ∈ ps) : Only ps s0 (State.setQuota s a1 a2) := by
  unfold State.setQuota
  extract_lets us1 gone2
  refine Only.ite ?_ ?_
  · refine (h.units hunits)
  · exact h.trans ⟨rfl, fun p hp => by cases p <;> first | exact absurd ‹_› hp | exact rfl | exact fun _ => rfl | exact fun _ _ => rfl | exact ⟨rfl, rfl, rfl⟩ | exact ⟨rfl, rfl, rfl, rfl, rfl, rfl⟩ | exact ⟨rfl, rfl, rfl, rfl, rfl, rfl, rfl⟩⟩

theorem State.applyEntry_only {a1 a2}  (h : Only ps s0 s) (hcounts : Part.counts ∈ ps) (hflt : Part.flt ∈ ps) (hgroups : Part.groups ∈ ps) (hhalves : Part.halves ∈ ps) (hobjs : Part.objs ∈ ps) (hout : Part.out ∈ ps) (hpartition : Part.partition ∈ ps) (hports : Part.ports ∈ ps) (hregs_flt : Part.regs .flt ∈ ps) (hregs_grp : Part.regs .grp ∈ ps) (hregs_port : Part.regs .port ∈ ps) (hregs_ring : Part.regs .ring ∈ ps) (hrings : Part.rings ∈ ps) (hspur : Part.spur ∈ ps) (htarn : Part.tarn ∈ ps) (hunits : Part.units ∈ ps) : Only ps s0 (State.applyEntry s a1 a2) := by
  unfold State.applyEntry
  extract_lets o t1 gone left t2 t2' moved newRing newFlt t3 t4
  have h2 : Only ps s0 t2 := Only.foldl h (fun _ _ k => (State.reassignPort_only (State.dropBound_only k hobjs htarn) hcounts hhalves hout hports hregs_port hrings))
  clear_value t2
  have h2' : Only ps s0 t2' := by
    refine State.withEntry_only ?_ hpartition
    exact Only.foldl h2 (fun _ _ k => (State.reassignGroup_only k hcounts hgroups hhalves hout hports hregs_grp hregs_port hrings))
  clear_value t2'
  have h3 : Only ps s0 t3 := Only.foldl h2' (fun _ _ k => (State.clearBlock_only k hcounts hhalves))
  clear_value t3
  have h4 : Only ps s0 t4 := by
    unfold t4
    refine h3.trans ⟨rfl, fun p hp => ?_⟩
    cases p with
    | regs b =>
      intro r hr
      have hc : ∀ q, (match q with | Reg.ring n _ => newRing n.val | Reg.fltPort p => gone.contains p | _ => false) = true → Part.regs (blockOf q) ∈ ps := by
        intro q hq
        cases q with
        | ring n q => exact hregs_ring
        | fltPort p => exact hregs_flt
        | _ => cases hq
      exact (RegFile.get_clear_or t3.regs _ hc r).resolve_right (hr ▸ hp)
    | _ => first
      | exact absurd ‹_› hp | exact rfl | exact fun _ => rfl | exact fun _ _ => rfl | exact ⟨rfl, rfl, rfl⟩ | exact ⟨rfl, rfl, rfl, rfl, rfl, rfl⟩ | exact ⟨rfl, rfl, rfl, rfl, rfl, rfl, rfl⟩
  exact Only.foldl (State.setQuota_only h4 hobjs htarn hunits) (fun _ _ k => (State.newWindows_only k hspur))

theorem State.reclaimPort_only {a1}  (h : Only ps s0 s) (hcairn : Part.cairn ∈ ps) (hcounts : Part.counts ∈ ps) (hgroups : Part.groups ∈ ps) (hhalves : Part.halves ∈ ps) (hout : Part.out ∈ ps) (hports : Part.ports ∈ ps) (hregs_grp : Part.regs .grp ∈ ps) (hregs_port : Part.regs .port ∈ ps) (hrings : Part.rings ∈ ps) : Only ps s0 (State.reclaimPort s a1) := by
  unfold State.reclaimPort
  dsimp only
  split
  · rename_i x1 k2 heq3
    with_reducible exact State.stopGroupCmd_only h hgroups hports hregs_grp
  · rename_i x4 heq5
    refine Only.ite ?_ ?_
    · with_reducible exact State.toAwake_only h hports hregs_port
    · refine Only.ite ?_ ?_
      · exact h
      · refine Only.ite ?_ ?_
        · refine (h.cairn hcairn)
        · with_reducible exact State.stopAccepted_only h hcounts hhalves hout hports hregs_port hrings

theorem State.dropWaits_only {a1}  (h : Only ps s0 s) (hrings : Part.rings ∈ ps) : Only ps s0 (State.dropWaits s a1) := by
  unfold State.dropWaits
  refine Only.foldl ?_ ?_
  · exact h
  · intro s1 x2 k3
    extract_lets i4 ops5 x6
    refine Only.foldl ?_ ?_
    · with_reducible exact State.setRing_only k3 hrings
    · intro s7 x8 k9
      with_reducible exact State.endOp_only k9 hrings

theorem State.closeCqs_only {a1}  (h : Only ps s0 s) (hcairn : Part.cairn ∈ ps) (hcounts : Part.counts ∈ ps) (heths : Part.eths ∈ ps) (hfree : Part.free ∈ ps) (hfuncs : Part.funcs ∈ ps) (hhalves : Part.halves ∈ ps) (hobjs : Part.objs ∈ ps) (hout : Part.out ∈ ps) (hports : Part.ports ∈ ps) (hregs_fn : Part.regs .fn ∈ ps) (hregs_ring : Part.regs .ring ∈ ps) (hrings : Part.rings ∈ ps) (htrust : Part.trust ∈ ps) : Only ps s0 (State.closeCqs s a1) := by
  unfold State.closeCqs
  refine Only.ite ?_ ?_
  · exact h
  · extract_lets mine1 cqs2 free3 s4 x5
    have hs4 : Only ps s0 s4 := by
      refine Only.foldl ?_ ?_
      · exact h
      · intro s6 x7 k8
        with_reducible exact State.disableRing_only k8 hcairn hcounts heths hfree hfuncs hhalves hobjs hout hports hregs_fn hregs_ring hrings htrust
    clear_value s4
    refine Only.ite ?_ ?_
    · refine (hs4.belay (.inl ⟨rfl, rfl, rfl⟩) (.inl rfl) (.inl rfl) (.inr htrust))
    · exact hs4

theorem State.applyReclaim_only {a1 a2}  (h : Only ps s0 s) (hcairn : Part.cairn ∈ ps) (hcounts : Part.counts ∈ ps) (heths : Part.eths ∈ ps) (hfree : Part.free ∈ ps) (hfuncs : Part.funcs ∈ ps) (hgroups : Part.groups ∈ ps) (hhalves : Part.halves ∈ ps) (hobjs : Part.objs ∈ ps) (hout : Part.out ∈ ps) (hports : Part.ports ∈ ps) (hregs_ep : Part.regs .ep ∈ ps) (hregs_fn : Part.regs .fn ∈ ps) (hregs_grp : Part.regs .grp ∈ ps) (hregs_port : Part.regs .port ∈ ps) (hregs_ring : Part.regs .ring ∈ ps) (hrings : Part.rings ∈ ps) (htrust : Part.trust ∈ ps) : Only ps s0 (State.applyReclaim s a1 a2) := by
  unfold State.applyReclaim
  extract_lets m1 x2 hit3 stopping4 s5 s6 s7 mine8 s9 s10 x11
  have hs5 : Only ps s0 s5 := by
    refine Only.foldl ?_ ?_
    · exact h
    · intro s12 x13 k14
      with_reducible exact State.reclaimPort_only k14 hcairn hcounts hgroups hhalves hout hports hregs_grp hregs_port hrings
  clear_value s5
  have hs6 : Only ps s0 s6 := by
    refine Only.foldl ?_ ?_
    · exact hs5
    · intro s15 x16 k17
      refine Only.ite ?_ ?_
      · exact k17
      · with_reducible exact State.stopGroupCmd_only k17 hgroups hports hregs_grp
  clear_value s6
  have hs7 : Only ps s0 s7 := by
    refine Only.foldl ?_ ?_
    · exact hs6
    · intro s18 x19 k20
      refine Only.ite ?_ ?_
      · with_reducible exact State.stopEth_only k20 hcounts heths hhalves hout hregs_ep hrings
      · exact k20
  clear_value s7
  have hs9 : Only ps s0 s9 := by
    refine Only.ite ?_ ?_
    · exact hs7
    · with_reducible exact State.dropWaits_only hs7 hrings
  clear_value s9
  have hs10 : Only ps s0 s10 := by
    refine Only.foldl ?_ ?_
    · exact hs9
    · intro s21 x22 k23
      extract_lets cfg24 p25
      refine Only.ite ?_ ?_
      · with_reducible exact State.disableRing_only k23 hcairn hcounts heths hfree hfuncs hhalves hobjs hout hports hregs_fn hregs_ring hrings htrust
      · exact k23
  clear_value s10
  refine Only.ite ?_ ?_
  · exact hs7
  · with_reducible refine State.closeCqs_only ?_ hcairn hcounts heths hfree hfuncs hhalves hobjs hout hports hregs_fn hregs_ring hrings htrust
    refine (hs10.belay (.inl ⟨rfl, rfl, rfl⟩) (.inl rfl) (.inl rfl) (.inr htrust))

theorem State.applyRecord_only {a1}  (h : Only ps s0 s) (hcairn : Part.cairn ∈ ps) (hcounts : Part.counts ∈ ps) (heths : Part.eths ∈ ps) (hflt : Part.flt ∈ ps) (hfree : Part.free ∈ ps) (hfuncs : Part.funcs ∈ ps) (hgroups : Part.groups ∈ ps) (hhalves : Part.halves ∈ ps) (hobjs : Part.objs ∈ ps) (hout : Part.out ∈ ps) (hpartition : Part.partition ∈ ps) (hports : Part.ports ∈ ps) (hregs_ep : Part.regs .ep ∈ ps) (hregs_flt : Part.regs .flt ∈ ps) (hregs_fn : Part.regs .fn ∈ ps) (hregs_grp : Part.regs .grp ∈ ps) (hregs_port : Part.regs .port ∈ ps) (hregs_ring : Part.regs .ring ∈ ps) (hrings : Part.rings ∈ ps) (hspur : Part.spur ∈ ps) (htarn : Part.tarn ∈ ps) (htrust : Part.trust ∈ ps) (hunits : Part.units ∈ ps) : Only ps s0 (State.applyRecord s a1) := by
  unfold State.applyRecord
  extract_lets d1 x2
  split
  · rename_i x3 heq4
    with_reducible exact State.applyEntry_only h hcounts hflt hgroups hhalves hobjs hout hpartition hports hregs_flt hregs_grp hregs_port hregs_ring hrings hspur htarn hunits
  · rename_i x5 heq6
    refine (h.belay (.inr hpartition) (.inl rfl) (.inl rfl) (.inr htrust))
  · rename_i x7 heq8
    refine (h.belay (.inr hpartition) (.inl rfl) (.inl rfl) (.inr htrust))
  · rename_i x9 x10 x11 x12
    with_reducible exact State.applyReclaim_only h hcairn hcounts heths hfree hfuncs hgroups hhalves hobjs hout hports hregs_ep hregs_fn hregs_grp hregs_port hregs_ring hrings htrust

theorem State.setTmu_only {a1}  (h : Only ps s0 s) (htmu : Part.tmu ∈ ps) : Only ps s0 (State.setTmu s a1) := by
  unfold State.setTmu
  refine (h.tmu htmu)

theorem State.epochEntries_only {a1}  (h : Only ps s0 s) (hcounts : Part.counts ∈ ps) (hfree : Part.free ∈ ps) (hfuncs : Part.funcs ∈ ps) (hhalves : Part.halves ∈ ps) (hout : Part.out ∈ ps) (hregs_fn : Part.regs .fn ∈ ps) : Only ps s0 (State.epochEntries s a1) := by
  unfold State.epochEntries
  refine Only.foldl ?_ ?_
  · exact h
  · intro s1 x2 k3
    with_reducible exact State.tsqEntry_only k3 hcounts hfree hfuncs hhalves hout hregs_fn

theorem State.setPulse_only {a1 a2}  (h : Only ps s0 s) (htmu : Part.tmu ∈ ps) : Only ps s0 (State.setPulse s a1 a2) := by
  unfold State.setPulse
  extract_lets x1
  with_reducible exact State.setTmu_only h htmu

theorem State.resumePulse_only {a1}  (h : Only ps s0 s) (htmu : Part.tmu ∈ ps) : Only ps s0 (State.resumePulse s a1) := by
  unfold State.resumePulse
  extract_lets p1 lo2
  refine Only.ite ?_ ?_
  · with_reducible exact State.setPulse_only h htmu
  · exact h

theorem State.stepTime_only {a1}  (h : Only ps s0 s) (hcounts : Part.counts ∈ ps) (hfree : Part.free ∈ ps) (hfuncs : Part.funcs ∈ ps) (hhalves : Part.halves ∈ ps) (hout : Part.out ∈ ps) (hregs_fn : Part.regs .fn ∈ ps) (hregs_tmu : Part.regs .tmu ∈ ps) (htmu : Part.tmu ∈ ps) : Only ps s0 (State.stepTime s a1) := by
  unfold State.stepTime
  extract_lets x1 s2 x3 s4 s5 s6 s7
  have hs2 : Only ps s0 s2 := by
    with_reducible exact State.setTmu_only h htmu
  clear_value s2
  have hs4 : Only ps s0 s4 := by
    with_reducible exact State.setTmu_only hs2 htmu
  clear_value s4
  have hs5 : Only ps s0 s5 := by
    exact State.raise_only hs4 hregs_tmu
  clear_value s5
  have hs6 : Only ps s0 s6 := by
    refine Only.foldl ?_ ?_
    · exact hs5
    · intro s8 x9 k10
      refine Only.ite ?_ ?_
      · exact State.raise_only k10 hregs_fn
      · exact k10
  clear_value s6
  have hs7 : Only ps s0 s7 := by
    with_reducible exact State.epochEntries_only hs6 hcounts hfree hfuncs hhalves hout hregs_fn
  clear_value s7
  refine Only.foldl ?_ ?_
  · exact hs7
  · intro s11 x12 k13
    with_reducible exact State.resumePulse_only k13 htmu

theorem State.servoGoes_only {a1}  (h : Only ps s0 s) (hregs_tmu : Part.regs .tmu ∈ ps) (htmu : Part.tmu ∈ ps) : Only ps s0 (State.servoGoes s a1) := by
  unfold State.servoGoes
  extract_lets old1 x2 s3 s4
  have hs3 : Only ps s0 s3 := by
    with_reducible exact State.setTmu_only h htmu
  clear_value s3
  have hs4 : Only ps s0 s4 := by
    refine Only.ite ?_ ?_
    · exact State.raise_only hs3 hregs_tmu
    · exact hs3
  clear_value s4
  refine Only.ite ?_ ?_
  · exact State.raise_only hs4 hregs_tmu
  · exact hs4

theorem State.setRate_only {a1}  (h : Only ps s0 s) (htmu : Part.tmu ∈ ps) : Only ps s0 (State.setRate s a1) := by
  unfold State.setRate
  extract_lets p1
  with_reducible exact State.setTmu_only h htmu

theorem State.setInteg_only {a1}  (h : Only ps s0 s) (hregs_tmu : Part.regs .tmu ∈ ps) (htmu : Part.tmu ∈ ps) : Only ps s0 (State.setInteg s a1) := by
  unfold State.setInteg
  refine State.setReg_only ?_ hregs_tmu
  extract_lets x1
  with_reducible exact State.setTmu_only h htmu

theorem State.piUpdate_only {a1 a2 a3}  (h : Only ps s0 s) (hregs_tmu : Part.regs .tmu ∈ ps) (htmu : Part.tmu ∈ ps) : Only ps s0 (State.piUpdate s a1 a2 a3) := by
  unfold State.piUpdate
  extract_lets den1 i2 rate3 s4 x5
  have hs4 : Only ps s0 s4 := by
    with_reducible refine State.setRate_only ?_ htmu
    with_reducible exact State.setInteg_only h hregs_tmu htmu
  clear_value s4
  with_reducible exact State.setTmu_only hs4 htmu

theorem State.applySample_only {a1 a2}  (h : Only ps s0 s) (hcounts : Part.counts ∈ ps) (hfree : Part.free ∈ ps) (hfuncs : Part.funcs ∈ ps) (hhalves : Part.halves ∈ ps) (hout : Part.out ∈ ps) (hregs_fn : Part.regs .fn ∈ ps) (hregs_tmu : Part.regs .tmu ∈ ps) (htmu : Part.tmu ∈ ps) : Only ps s0 (State.applySample s a1 a2) := by
  unfold State.applySample
  extract_lets v1 big2 fine3 first4 s5 x6
  have hs5 : Only ps s0 s5 := by
    refine Only.ite ?_ ?_
    · with_reducible exact State.stepTime_only h hcounts hfree hfuncs hhalves hout hregs_fn hregs_tmu htmu
    · dsimp only [first4]
      with_reducible exact State.setTmu_only h htmu
  clear_value s5
  dsimp only
  split
  · rename_i x7 heq8
    exact h
  · rename_i x9 heq10
    with_reducible refine State.servoGoes_only ?_ hregs_tmu htmu
    with_reducible exact State.setTmu_only hs5 htmu
  · rename_i x11 heq12
    with_reducible refine State.servoGoes_only ?_ hregs_tmu htmu
    with_reducible exact State.setTmu_only hs5 htmu
  · rename_i x13 x14 x15 x16
    split
    · rename_i x17 heq18
      dsimp only [first4]
      with_reducible refine State.setTmu_only ?_ htmu
      refine Only.ite ?_ ?_
      · with_reducible exact State.servoGoes_only h hregs_tmu htmu
      · exact h
    · rename_i x19 r20 heq21
      refine Only.ite ?_ ?_
      · with_reducible refine State.setTmu_only ?_ htmu
        with_reducible refine State.stepTime_only ?_ hcounts hfree hfuncs hhalves hout hregs_fn hregs_tmu htmu
        refine Only.ite ?_ ?_
        · with_reducible exact State.servoGoes_only h hregs_tmu htmu
        · exact h
      · refine Only.ite ?_ ?_
        · refine Only.ite ?_ ?_
          · with_reducible refine State.servoGoes_only ?_ hregs_tmu htmu
            with_reducible refine State.setTmu_only ?_ htmu
            with_reducible refine State.piUpdate_only ?_ hregs_tmu htmu
            refine Only.ite ?_ ?_
            · with_reducible exact State.servoGoes_only h hregs_tmu htmu
            · exact h
          · with_reducible refine State.setTmu_only ?_ htmu
            with_reducible refine State.piUpdate_only ?_ hregs_tmu htmu
            refine Only.ite ?_ ?_
            · with_reducible exact State.servoGoes_only h hregs_tmu htmu
            · exact h
        · with_reducible refine State.setTmu_only ?_ htmu
          with_reducible refine State.piUpdate_only ?_ hregs_tmu htmu
          refine Only.ite ?_ ?_
          · with_reducible exact State.servoGoes_only h hregs_tmu htmu
          · exact h

end Sys2Proof.Machine
end

