-- ==== Sys2Proof/Laws/OnlyB.lean ====
section
/-! SUPPORT. Frames of the operations (Only.lean), part 2 of 4, each after those it calls. -/
namespace Sys2Proof.Machine

variable {ps : List Part} {s0 s t : State}

theorem State.seqCheck_only {a1} (h : Only ps s0 s) (he : State.seqCheck s a1 = some t) (hfab : Part.fab ∈ ps) : Only ps s0 t := by
  unfold State.seqCheck at he
  dsimp only at he
  split at he
  · split at he
    · split at he
      · cases he; exact h.fab hfab
      · cases he
    · cases he; exact h.fab hfab
  · cases he; exact h

theorem State.countLink_only {a1 a2}  (h : Only ps s0 s) (hcounts : Part.counts ∈ ps) (hhalves : Part.halves ∈ ps) : Only ps s0 (State.countLink s a1 a2) := by
  unfold State.countLink
  with_reducible exact State.count_only h hcounts hhalves

theorem State.setRule_only {a1 a2}  (h : Only ps s0 s) (hspur : Part.spur ∈ ps) : Only ps s0 (State.setRule s a1 a2) := by
  unfold State.setRule
  extract_lets x1
  refine (h.spur hspur)

theorem State.ruleDrop_only {a1}  (h : Only ps s0 s) (hspur : Part.spur ∈ ps) : Only ps s0 (State.ruleDrop s a1) := by
  unfold State.ruleDrop
  split
  · rename_i x1 r2 heq3
    with_reducible exact State.setRule_only h hspur
  · rename_i x4 heq5
    exact h

theorem State.gwEnqueue_only {a1 a2}  (h : Only ps s0 s) (hspur : Part.spur ∈ ps) : Only ps s0 (State.gwEnqueue s a1 a2) := by
  unfold State.gwEnqueue
  extract_lets used1 x2
  refine Only.ite ?_ ?_
  · with_reducible exact State.ruleDrop_only h hspur
  · refine (h.spur hspur)

theorem State.gwRouted_only {a1 a2 a3} (h : Only ps s0 s) (he : State.gwRouted s a1 a2 a3 = some t) (hspur : Part.spur ∈ ps) : Only ps s0 t := by
  unfold State.gwRouted at he
  split at he
  · split at he
    · split at he
      · cases he; exact (State.gwEnqueue_only h hspur)
      · cases he
    · cases he
  · cases he

theorem State.useSpace_only {a1 a2}  (h : Only ps s0 s) (heths : Part.eths ∈ ps) (hports : Part.ports ∈ ps) : Only ps s0 (State.useSpace s a1 a2) := by
  unfold State.useSpace
  with_reducible exact State.setShare_only h heths hports

theorem State.countPort_only {a1 a2}  (h : Only ps s0 s) (hcounts : Part.counts ∈ ps) (hhalves : Part.halves ∈ ps) : Only ps s0 (State.countPort s a1 a2) := by
  unfold State.countPort
  with_reducible exact State.count_only h hcounts hhalves

theorem State.countEth_only {a1 a2}  (h : Only ps s0 s) (hcounts : Part.counts ∈ ps) (hhalves : Part.halves ∈ ps) : Only ps s0 (State.countEth s a1 a2) := by
  unfold State.countEth
  with_reducible exact State.count_only h hcounts hhalves

theorem State.countNoBuf_only {a1}  (h : Only ps s0 s) (hcounts : Part.counts ∈ ps) (hhalves : Part.halves ∈ ps) : Only ps s0 (State.countNoBuf s a1) := by
  unfold State.countNoBuf
  refine Only.ite ?_ ?_
  · with_reducible exact State.countPort_only h hcounts hhalves
  · refine Only.ite ?_ ?_
    · with_reducible exact State.countEth_only h hcounts hhalves
    · exact h

theorem State.countDrop_only {a1 a2 a3}  (h : Only ps s0 s) (hcounts : Part.counts ∈ ps) (hhalves : Part.halves ∈ ps) (hrings : Part.rings ∈ ps) : Only ps s0 (State.countDrop s a1 a2 a3) := by
  unfold State.countDrop
  extract_lets i1 x2
  with_reducible refine State.countNoBuf_only ?_ hcounts hhalves
  with_reducible exact State.setRing_only h hrings

theorem State.dropOldest_only {a1 a2}  (h : Only ps s0 s) (hcounts : Part.counts ∈ ps) (heths : Part.eths ∈ ps) (hhalves : Part.halves ∈ ps) (hout : Part.out ∈ ps) (hports : Part.ports ∈ ps) (hrings : Part.rings ∈ ps) : Only ps s0 (State.dropOldest s a1 a2) := by
  unfold State.dropOldest
  extract_lets i1 x2
  dsimp only
  split
  · rename_i x3 heq4
    exact h
  · rename_i x5 w6 later7 heq8
    with_reducible refine State.countDrop_only ?_ hcounts hhalves hrings
    with_reducible refine State.dropWait_only ?_ hcounts heths hhalves hout hports hrings
    with_reducible exact State.setRing_only h hrings

theorem State.deliver_only {a1 a2 a3}  (h : Only ps s0 s) (hcounts : Part.counts ∈ ps) (heths : Part.eths ∈ ps) (hhalves : Part.halves ∈ ps) (hout : Part.out ∈ ps) (hports : Part.ports ∈ ps) (hrings : Part.rings ∈ ps) : Only ps s0 (State.deliver s a1 a2 a3) := by
  unfold State.deliver
  extract_lets i1 s2 r3 s4 s5
  have hs2 : Only ps s0 s2 := by
    with_reducible exact State.useSpace_only h heths hports
  clear_value s2
  have hs4 : Only ps s0 s4 := by
    with_reducible exact State.setRing_only hs2 hrings
  clear_value s4
  have hs5 : Only ps s0 s5 := by
    with_reducible exact State.serve_only hs4 hcounts heths hhalves hout hports hrings
  clear_value s5
  refine Only.ite ?_ ?_
  · with_reducible exact State.dropOldest_only hs5 hcounts heths hhalves hout hports hrings
  · exact hs5

theorem State.deliverRouted_only {a1 a2}  (h : Only ps s0 s) (hcounts : Part.counts ∈ ps) (heths : Part.eths ∈ ps) (hhalves : Part.halves ∈ ps) (hout : Part.out ∈ ps) (hports : Part.ports ∈ ps) (hrings : Part.rings ∈ ps) (hspur : Part.spur ∈ ps) : Only ps s0 (State.deliverRouted s a1 a2) := by
  unfold State.deliverRouted
  extract_lets rt1 d2
  refine Only.ite ?_ ?_
  · split
    · rename_i x3 s4 heq5
      exact State.gwRouted_only h heq5 hspur
    · rename_i x6 heq7
      with_reducible exact State.countLink_only h hcounts hhalves
  · split
    · rename_i x8 n9 heq10
      refine Only.ite ?_ ?_
      · with_reducible exact State.deliver_only h hcounts heths hhalves hout hports hrings
      · with_reducible exact State.countLink_only h hcounts hhalves
    · rename_i x11 heq12
      with_reducible exact State.countLink_only h hcounts hhalves

theorem State.arriveRouted_only {a1 a2} (h : Only ps s0 s) (hcounts : Part.counts ∈ ps) (heths : Part.eths ∈ ps) (hfab : Part.fab ∈ ps) (hhalves : Part.halves ∈ ps) (hout : Part.out ∈ ps) (hports : Part.ports ∈ ps) (hrings : Part.rings ∈ ps) (hspur : Part.spur ∈ ps) : Only ps s0 (State.arriveRouted s a1 a2).1 := by
  unfold State.arriveRouted
  split
  · exact (State.countLink_only (State.countLink_only h hcounts hhalves) hcounts hhalves)
  · rename_i heq
    exact Only.ite (State.deliverRouted_only (State.seqCheck_only h heq hfab) hcounts heths hhalves hout hports hrings hspur) (State.countLink_only (State.seqCheck_only h heq hfab) hcounts hhalves)

theorem State.countFrame_only {a1 a2 a3}  (h : Only ps s0 s) (hcounts : Part.counts ∈ ps) (hhalves : Part.halves ∈ ps) : Only ps s0 (State.countFrame s a1 a2 a3) := by
  unfold State.countFrame
  extract_lets s1 s2
  have hs1 : Only ps s0 s1 := by
    with_reducible exact State.countPort_only h hcounts hhalves
  clear_value s1
  have hs2 : Only ps s0 s2 := by
    with_reducible exact State.countPort_only hs1 hcounts hhalves
  clear_value s2
  with_reducible exact State.countBy_only hs2 hcounts hhalves

theorem State.promote_only {a1}  (h : Only ps s0 s) (hports : Part.ports ∈ ps) (hregs_port : Part.regs .port ∈ ps) : Only ps s0 (State.promote s a1) := by
  unfold State.promote
  extract_lets x1 n2 need3
  refine Only.ite ?_ ?_
  · exact h
  · refine Only.ite ?_ ?_
    · with_reducible exact State.showPort_only h hports hregs_port
    · with_reducible exact State.setPort_only h hports

theorem State.promoteBy_only {a1}  (h : Only ps s0 s) (hgroups : Part.groups ∈ ps) (hports : Part.ports ∈ ps) (hregs_grp : Part.regs .grp ∈ ps) (hregs_port : Part.regs .port ∈ ps) : Only ps s0 (State.promoteBy s a1) := by
  unfold State.promoteBy
  extract_lets s1
  have hs1 : Only ps s0 s1 := by
    with_reducible exact State.promote_only h hports hregs_port
  clear_value s1
  split
  · rename_i x2 k3 heq4
    refine Only.ite ?_ ?_
    · with_reducible exact State.promoteGroup_only hs1 hgroups hports hregs_grp hregs_port
    · exact hs1
  · rename_i x5 heq6
    exact hs1

theorem State.settleAttempt_only {a1 a2 a3 a4}  (h : Only ps s0 s) (hcounts : Part.counts ∈ ps) (hfree : Part.free ∈ ps) (hfuncs : Part.funcs ∈ ps) (hhalves : Part.halves ∈ ps) (hobjs : Part.objs ∈ ps) (hout : Part.out ∈ ps) (hports : Part.ports ∈ ps) (hregs_fn : Part.regs .fn ∈ ps) (hrings : Part.rings ∈ ps) : Only ps s0 (State.settleAttempt s a1 a2 a3 a4) := by
  unfold State.settleAttempt
  extract_lets x1
  dsimp only
  split
  · rename_i x2 code3 heq4
    with_reducible exact State.endCand_only h hcounts hfree hfuncs hhalves hobjs hout hports hregs_fn hrings
  · rename_i x5 heq6
    with_reducible exact State.setPort_only h hports

theorem State.endCandAttempt_only {a1 a2 a3 a4}  (h : Only ps s0 s) (hcounts : Part.counts ∈ ps) (hfree : Part.free ∈ ps) (hfuncs : Part.funcs ∈ ps) (hhalves : Part.halves ∈ ps) (hobjs : Part.objs ∈ ps) (hout : Part.out ∈ ps) (hports : Part.ports ∈ ps) (hregs_fn : Part.regs .fn ∈ ps) (hrings : Part.rings ∈ ps) : Only ps s0 (State.endCandAttempt s a1 a2 a3 a4) := by
  unfold State.endCandAttempt
  extract_lets s1 here2 x3 s4 x5 x6
  have hs1 : Only ps s0 s1 := by
    refine Only.ite ?_ ?_
    · exact h
    · with_reducible exact State.countPort_only h hcounts hhalves
  clear_value s1
  have hs4 : Only ps s0 s4 := by
    refine Only.ite ?_ ?_
    · with_reducible exact State.setPort_only hs1 hports
    · exact hs1
  clear_value s4
  refine Only.ite ?_ ?_
  · with_reducible exact State.settleAttempt_only hs4 hcounts hfree hfuncs hhalves hobjs hout hports hregs_fn hrings
  · refine Only.ite ?_ ?_
    · exact hs4
    · with_reducible exact State.setPort_only hs4 hports

theorem State.examineRef_only {a1 a2 a3 a4 a5}  (h : Only ps s0 s) (hgroups : Part.groups ∈ ps) (hports : Part.ports ∈ ps) (hregs_grp : Part.regs .grp ∈ ps) (hregs_port : Part.regs .port ∈ ps) : Only ps s0 (State.examineRef s a1 a2 a3 a4 a5) := by
  unfold State.examineRef
  split
  · rename_i e1
    exact h
  · rename_i e2 e3
    refine Only.ite ?_ ?_
    · exact h
    · refine Only.ite ?_ ?_
      · with_reducible exact State.grpEvt_only h hregs_grp
      · with_reducible exact State.acceptRef_only h hgroups hports hregs_grp hregs_port

theorem State.takeSpace_only {a1 a2 a3} {i : Nat} (h : Only ps s0 s) (he : State.takeSpace s a1 a2 a3 = some (i, t)) (heths : Part.eths ∈ ps) (hports : Part.ports ∈ ps) : Only ps s0 t := by
  unfold State.takeSpace at he
  dsimp only at he
  split at he
  · cases he
  · split at he
    · cases he; exact (State.setPort_only h hports)
    · cases he; exact (State.setEth_only h heths)

theorem State.stageFrame_only {a1 a2}  (h : Only ps s0 s) (hcounts : Part.counts ∈ ps) (heths : Part.eths ∈ ps) (hhalves : Part.halves ∈ ps) (hports : Part.ports ∈ ps) (hrxq : Part.rxq ∈ ps) : Only ps s0 (State.stageFrame s a1 a2) := by
  unfold State.stageFrame
  split
  · exact (State.countPort_only h hcounts hhalves)
  · rename_i heq
    exact (State.takeSpace_only h heq heths hports).rxq hrxq

theorem State.attemptDone_only {a1 a2}  (h : Only ps s0 s) (hcounts : Part.counts ∈ ps) (heths : Part.eths ∈ ps) (hfree : Part.free ∈ ps) (hfuncs : Part.funcs ∈ ps) (hgroups : Part.groups ∈ ps) (hhalves : Part.halves ∈ ps) (hobjs : Part.objs ∈ ps) (hout : Part.out ∈ ps) (hports : Part.ports ∈ ps) (hregs_fn : Part.regs .fn ∈ ps) (hregs_grp : Part.regs .grp ∈ ps) (hregs_port : Part.regs .port ∈ ps) (hrings : Part.rings ∈ ps) (hrxq : Part.rxq ∈ ps) : Only ps s0 (State.attemptDone s a1 a2) := by
  unfold State.attemptDone
  extract_lets x1 s2 s3 s4 s5 s6 x7 s8
  have hs2 : Only ps s0 s2 := by
    refine Only.ite ?_ ?_
    · exact h
    · with_reducible exact State.setPort_only h hports
  clear_value s2
  have hs3 : Only ps s0 s3 := by
    with_reducible exact State.countFrame_only hs2 hcounts hhalves
  clear_value s3
  have hs4 : Only ps s0 s4 := by
    with_reducible exact State.ackReset_only hs3 hports
  clear_value s4
  have hs5 : Only ps s0 s5 := by
    with_reducible exact State.promoteBy_only hs4 hgroups hports hregs_grp hregs_port
  clear_value s5
  have hs6 : Only ps s0 s6 := by
    refine Only.ite ?_ ?_
    · exact hs5
    · with_reducible exact State.countPort_only hs5 hcounts hhalves
  clear_value s6
  have hs8 : Only ps s0 s8 := by
    unfold s8
    split
    · rename_i x9 i10 heq11
      split
      · rename_i x12 k13 heq14
        with_reducible exact State.endCandAttempt_only hs5 hcounts hfree hfuncs hhalves hobjs hout hports hregs_fn hrings
      · rename_i x15 heq16
        exact hs5
    · rename_i x17 heq18
      split
      · rename_i x19 k20 heq21
        with_reducible exact State.examineRef_only hs5 hgroups hports hregs_grp hregs_port
      · rename_i x22 heq23
        exact hs5
    · rename_i x24 x25 x26
      with_reducible exact State.setPort_only hs6 hports
  clear_value s8
  refine Only.ite ?_ ?_
  · with_reducible exact State.stageFrame_only hs8 hcounts heths hhalves hports hrxq
  · exact hs8

theorem State.refLostBus_only {a1}  (h : Only ps s0 s) (hgroups : Part.groups ∈ ps) : Only ps s0 (State.refLostBus s a1) := by
  unfold State.refLostBus
  dsimp only
  split
  · rename_i x1 k2 heq3
    refine Only.ite ?_ ?_
    · with_reducible exact State.setGroup_only h hgroups
    · exact h
  · rename_i x4 heq5
    exact h

theorem State.attemptFailed_only {a1 a2 a3}  (h : Only ps s0 s) (hcounts : Part.counts ∈ ps) (hfree : Part.free ∈ ps) (hfuncs : Part.funcs ∈ ps) (hgroups : Part.groups ∈ ps) (hhalves : Part.halves ∈ ps) (hobjs : Part.objs ∈ ps) (hout : Part.out ∈ ps) (hports : Part.ports ∈ ps) (hregs_fn : Part.regs .fn ∈ ps) (hrings : Part.rings ∈ ps) : Only ps s0 (State.attemptFailed s a1 a2 a3) := by
  unfold State.attemptFailed
  extract_lets x1 s2 s3 x4
  have hs2 : Only ps s0 s2 := by
    unfold s2
    split
    · rename_i r5
      with_reducible exact State.countPort_only h hcounts hhalves
    · rename_i r6 e7 won8
      with_reducible exact State.setPort_only h hports
    · rename_i r9
      exact h
  clear_value s2
  have hs3 : Only ps s0 s3 := by
    refine Only.ite ?_ ?_
    · exact hs2
    · with_reducible exact State.countPort_only hs2 hcounts hhalves
  clear_value s3
  split
  · rename_i x10 i11 heq12
    split
    · rename_i x13 k14 heq15
      with_reducible exact State.endCandAttempt_only hs2 hcounts hfree hfuncs hhalves hobjs hout hports hregs_fn hrings
    · rename_i x16 heq17
      exact hs2
  · rename_i x18 heq19
    refine Only.ite ?_ ?_
    · with_reducible exact State.refLostBus_only hs2 hgroups
    · exact hs2
  · rename_i x20 x21 x22
    with_reducible exact State.setPort_only hs3 hports

theorem State.noteLoop_only {a1 a2 a3}  (h : Only ps s0 s) (hports : Part.ports ∈ ps) : Only ps s0 (State.noteLoop s a1 a2 a3) := by
  unfold State.noteLoop
  dsimp only
  split
  · rename_i x1 x2 val3 l4 heq5 heq6
    with_reducible exact State.setPort_only h hports
  · rename_i x7 x8 x9
    exact h

theorem State.setKey_only {a1 a2}  (h : Only ps s0 s) (hkeys : Part.keys ∈ ps) : Only ps s0 (State.setKey s a1 a2) := by
  unfold State.setKey
  extract_lets x1
  refine (h.belay (.inl ⟨rfl, rfl, rfl⟩) (.inr hkeys) (.inl rfl) (.inl ⟨rfl, rfl, rfl, rfl, rfl, rfl⟩))

theorem State.takeFv_only {a1 a2 a3} (h : Only ps s0 s) (hkeys : Part.keys ∈ ps) (hout : Part.out ∈ ps) : Only ps s0 (State.takeFv s a1 a2 a3).1 := by
  unfold State.takeFv
  split
  · exact (State.emit_only (State.setKey_only h hkeys) hout)
  · exact h

theorem State.takeTrailer_only {a1}  (h : Only ps s0 s) (hkeys : Part.keys ∈ ps) (hout : Part.out ∈ ps) (hports : Part.ports ∈ ps) : Only ps s0 (State.takeTrailer s a1) := by
  unfold State.takeTrailer
  extract_lets x1
  dsimp only
  split
  · rename_i x2 a3 heq4
    split
    · rename_i x5 i6 heq7
      split
      · rename_i x8 k9 heq10
        split
        · rename_i x11 code12 heq13
          refine Only.ite ?_ ?_
          · exact h
          · with_reducible refine State.setPort_only ?_ hports
            with_reducible exact State.takeFv_only h hkeys hout
        · rename_i x14 heq15
          exact h
      · rename_i x16 heq17
        exact h
    · rename_i x18 heq19
      exact h
  · rename_i x20 heq21
    exact h

theorem State.frameEnds_only {a1 a2}  (h : Only ps s0 s) (hgroups : Part.groups ∈ ps) : Only ps s0 (State.frameEnds s a1 a2) := by
  unfold State.frameEnds
  dsimp only
  split
  · rename_i x1 k2 heq3
    refine Only.ite ?_ ?_
    · exact h
    · with_reducible exact State.setGroup_only h hgroups
  · rename_i x4 heq5
    exact h

theorem State.endAttempt_only {a1 a2}  (h : Only ps s0 s) (hcounts : Part.counts ∈ ps) (heths : Part.eths ∈ ps) (hfree : Part.free ∈ ps) (hfuncs : Part.funcs ∈ ps) (hgroups : Part.groups ∈ ps) (hhalves : Part.halves ∈ ps) (hkeys : Part.keys ∈ ps) (hobjs : Part.objs ∈ ps) (hout : Part.out ∈ ps) (hports : Part.ports ∈ ps) (hregs_fn : Part.regs .fn ∈ ps) (hregs_grp : Part.regs .grp ∈ ps) (hregs_port : Part.regs .port ∈ ps) (hrings : Part.rings ∈ ps) (hrxq : Part.rxq ∈ ps) : Only ps s0 (State.endAttempt s a1 a2) := by
  unfold State.endAttempt
  dsimp only
  split
  · rename_i x1 heq2
    exact h
  · rename_i x3 x4 heq5
    refine Only.ite ?_ ?_
    · with_reducible refine State.attemptDone_only ?_ hcounts heths hfree hfuncs hgroups hhalves hobjs hout hports hregs_fn hregs_grp hregs_port hrings hrxq
      with_reducible refine State.frameEnds_only ?_ hgroups
      with_reducible refine State.setPort_only ?_ hports
      refine Only.ite ?_ ?_
      · with_reducible exact State.takeTrailer_only h hkeys hout hports
      · exact h
    · with_reducible refine State.attemptFailed_only ?_ hcounts hfree hfuncs hgroups hhalves hobjs hout hports hregs_fn hrings
      with_reducible refine State.frameEnds_only ?_ hgroups
      with_reducible refine State.setPort_only ?_ hports
      refine Only.ite ?_ ?_
      · with_reducible exact State.takeTrailer_only h hkeys hout hports
      · exact h

theorem State.countError_only {a1 a2 a3}  (h : Only ps s0 s) (hcounts : Part.counts ∈ ps) (hhalves : Part.halves ∈ ps) : Only ps s0 (State.countError s a1 a2 a3) := by
  unfold State.countError
  extract_lets s1 s2
  have hs1 : Only ps s0 s1 := by
    with_reducible exact State.countPort_only h hcounts hhalves
  clear_value s1
  have hs2 : Only ps s0 s2 := by
    refine Only.ite ?_ ?_
    · with_reducible exact State.countPort_only hs1 hcounts hhalves
    · exact hs1
  clear_value s2
  refine Only.ite ?_ ?_
  · with_reducible exact State.countPort_only hs2 hcounts hhalves
  · exact hs2

theorem State.emitNode_only {a1 a2}  (h : Only ps s0 s) (hout : Part.out ∈ ps) : Only ps s0 (State.emitNode s a1 a2) := by
  unfold State.emitNode
  refine Only.foldl ?_ ?_
  · exact h
  · intro s1 x2 k3
    with_reducible exact State.emit_only k3 hout

theorem State.noteAck_only {a1 a2}  (h : Only ps s0 s) (hports : Part.ports ∈ ps) (hregs_port : Part.regs .port ∈ ps) : Only ps s0 (State.noteAck s a1 a2) := by
  unfold State.noteAck
  extract_lets s1
  have hs1 : Only ps s0 s1 := by
    refine Only.ite ?_ ?_
    · with_reducible exact State.ackErr_only h hports hregs_port
    · exact h
  clear_value s1
  refine Only.ite ?_ ?_
  · with_reducible exact State.ackReset_only hs1 hports
  · exact hs1

theorem State.refError_only {a1}  (h : Only ps s0 s) (hgroups : Part.groups ∈ ps) : Only ps s0 (State.refError s a1) := by
  unfold State.refError
  extract_lets g1 g2
  with_reducible exact State.setGroup_only h hgroups

theorem State.enterBusoff_only {a1}  (h : Only ps s0 s) (hcounts : Part.counts ∈ ps) (hhalves : Part.halves ∈ ps) (hintake : Part.intake ∈ ps) (hports : Part.ports ∈ ps) (hregs_port : Part.regs .port ∈ ps) : Only ps s0 (State.enterBusoff s a1) := by
  unfold State.enterBusoff
  extract_lets x1 deciding2 auto3 kept4 fl5 s6 s7 s8 s9
  have hs6 : Only ps s0 s6 := by
    with_reducible exact State.countPort_only h hcounts hhalves
  clear_value s6
  have hs7 : Only ps s0 s7 := by
    with_reducible exact State.showPort_only hs6 hports hregs_port
  clear_value s7
  have hs8 : Only ps s0 s8 := by
    refine Only.ite ?_ ?_
    · with_reducible exact State.setPort_only hs7 hports
    · exact hs7
  clear_value s8
  have hs9 : Only ps s0 s9 := by
    with_reducible exact State.record_only hs8 hintake
  clear_value s9
  with_reducible exact State.portEvt_only hs9 hregs_port

theorem State.errorOp_only {a1 a2}  (h : Only ps s0 s) (hcounts : Part.counts ∈ ps) (heths : Part.eths ∈ ps) (hfree : Part.free ∈ ps) (hfuncs : Part.funcs ∈ ps) (hgroups : Part.groups ∈ ps) (hhalves : Part.halves ∈ ps) (hintake : Part.intake ∈ ps) (hkeys : Part.keys ∈ ps) (hobjs : Part.objs ∈ ps) (hout : Part.out ∈ ps) (hports : Part.ports ∈ ps) (hregs_fn : Part.regs .fn ∈ ps) (hregs_grp : Part.regs .grp ∈ ps) (hregs_port : Part.regs .port ∈ ps) (hrings : Part.rings ∈ ps) (hrxq : Part.rxq ∈ ps) : Only ps s0 (State.errorOp s a1 a2) := by
  unfold State.errorOp
  extract_lets x1 e2 isErr3 silent4 pass5 listen6 s7 s8 s9 x10
  have hs7 : Only ps s0 s7 := by
    refine Only.ite ?_ ?_
    · with_reducible exact State.countPort_only h hcounts hhalves
    · exact h
  clear_value s7
  have hs8 : Only ps s0 s8 := by
    refine Only.ite ?_ ?_
    · with_reducible exact State.countError_only hs7 hcounts hhalves
    · exact hs7
  clear_value s8
  have hs9 : Only ps s0 s9 := by
    refine Only.ite ?_ ?_
    · exact hs8
    · with_reducible exact State.emitNode_only hs8 hout
  clear_value s9
  refine Only.ite ?_ ?_
  · with_reducible refine State.countPort_only ?_ hcounts hhalves
    with_reducible refine State.portEvt_only ?_ hregs_port
    with_reducible exact State.setPort_only h hports
  · refine Only.ite ?_ ?_
    · exact h
    · dsimp only
      refine Only.ite ?_ ?_
      · with_reducible refine State.endAttempt_only ?_ hcounts heths hfree hfuncs hgroups hhalves hkeys hobjs hout hports hregs_fn hregs_grp hregs_port hrings hrxq
        with_reducible refine State.enterBusoff_only ?_ hcounts hhalves hintake hports hregs_port
        split
        · rename_i x11 k12 heq13
          refine Only.ite ?_ ?_
          · refine Only.ite ?_ ?_
            · with_reducible refine State.noteAck_only ?_ hports hregs_port
              with_reducible exact State.setPort_only hs9 hports
            · with_reducible exact State.setPort_only hs9 hports
          · with_reducible refine State.refError_only ?_ hgroups
            refine Only.ite ?_ ?_
            · with_reducible refine State.noteAck_only ?_ hports hregs_port
              with_reducible exact State.setPort_only hs9 hports
            · with_reducible exact State.setPort_only hs9 hports
        · rename_i x14 heq15
          refine Only.ite ?_ ?_
          · with_reducible refine State.noteAck_only ?_ hports hregs_port
            with_reducible exact State.setPort_only hs9 hports
          · with_reducible exact State.setPort_only hs9 hports
      · split
        · rename_i x16 k17 heq18
          refine Only.ite ?_ ?_
          · refine Only.ite ?_ ?_
            · with_reducible refine State.noteAck_only ?_ hports hregs_port
              with_reducible exact State.setPort_only hs9 hports
            · with_reducible exact State.setPort_only hs9 hports
          · with_reducible refine State.refError_only ?_ hgroups
            refine Only.ite ?_ ?_
            · with_reducible refine State.noteAck_only ?_ hports hregs_port
              with_reducible exact State.setPort_only hs9 hports
            · with_reducible exact State.setPort_only hs9 hports
        · rename_i x19 heq20
          refine Only.ite ?_ ?_
          · with_reducible refine State.noteAck_only ?_ hports hregs_port
            with_reducible exact State.setPort_only hs9 hports
          · with_reducible exact State.setPort_only hs9 hports

theorem State.attemptOp_only {a1 a2 a3}  (h : Only ps s0 s) (hcounts : Part.counts ∈ ps) (heths : Part.eths ∈ ps) (hfree : Part.free ∈ ps) (hfuncs : Part.funcs ∈ ps) (hgroups : Part.groups ∈ ps) (hhalves : Part.halves ∈ ps) (hintake : Part.intake ∈ ps) (hkeys : Part.keys ∈ ps) (hobjs : Part.objs ∈ ps) (hout : Part.out ∈ ps) (hports : Part.ports ∈ ps) (hregs_fn : Part.regs .fn ∈ ps) (hregs_grp : Part.regs .grp ∈ ps) (hregs_port : Part.regs .port ∈ ps) (hrings : Part.rings ∈ ps) (hrxq : Part.rxq ∈ ps) : Only ps s0 (State.attemptOp s a1 a2 a3) := by
  unfold State.attemptOp
  dsimp only
  split
  · rename_i x1 heq2
    exact h
  · rename_i x3 x4 heq5
    refine Only.ite ?_ ?_
    · with_reducible refine State.endAttempt_only ?_ hcounts heths hfree hfuncs hgroups hhalves hkeys hobjs hout hports hregs_fn hregs_grp hregs_port hrings hrxq
      with_reducible refine State.errorOp_only ?_ hcounts heths hfree hfuncs hgroups hhalves hintake hkeys hobjs hout hports hregs_fn hregs_grp hregs_port hrings hrxq
      refine Only.ite ?_ ?_
      · with_reducible refine State.portEvt_only ?_ hregs_port
        with_reducible exact State.noteLoop_only h hports
      · with_reducible exact State.noteLoop_only h hports
    · with_reducible refine State.endAttempt_only ?_ hcounts heths hfree hfuncs hgroups hhalves hkeys hobjs hout hports hregs_fn hregs_grp hregs_port hrings hrxq
      refine Only.ite ?_ ?_
      · with_reducible refine State.portEvt_only ?_ hregs_port
        with_reducible exact State.noteLoop_only h hports
      · with_reducible exact State.noteLoop_only h hports

theorem State.attestRecord_only {a1 a2 a3}  (h : Only ps s0 s) (hintake : Part.intake ∈ ps) : Only ps s0 (State.attestRecord s a1 a2 a3) := by
  unfold State.attestRecord
  with_reducible exact State.record_only h hintake

theorem State.attestOp_only {a1 a2 a3}  (h : Only ps s0 s) (hcounts : Part.counts ∈ ps) (hhalves : Part.halves ∈ ps) (hintake : Part.intake ∈ ps) (hout : Part.out ∈ ps) (hrings : Part.rings ∈ ps) : Only ps s0 (State.attestOp s a1 a2 a3) := by
  unfold State.attestOp
  extract_lets len1 scope2 r3 s4
  have hs4 : Only ps s0 s4 := by
    with_reducible exact State.attestRecord_only h hintake
  clear_value s4
  refine Only.ite ?_ ?_
  · with_reducible exact State.complete_only h hcounts hhalves hout hrings
  · refine Only.ite ?_ ?_
    · with_reducible exact State.complete_only h hcounts hhalves hout hrings
    · with_reducible refine State.complete_only ?_ hcounts hhalves hout hrings
      with_reducible exact State.hostWrite_only hs4 hout

theorem State.unjoinPair_only {a1}  (h : Only ps s0 s) (hgroups : Part.groups ∈ ps) (hregs_grp : Part.regs .grp ∈ ps) : Only ps s0 (State.unjoinPair s a1) := by
  unfold State.unjoinPair
  dsimp only
  split
  · rename_i x1 heq2
    exact h
  · rename_i x3 k4 heq5
    refine Only.ite ?_ ?_
    · with_reducible refine State.grpEvt_only ?_ hregs_grp
      with_reducible exact State.setGroup_only h hgroups
    · with_reducible exact State.setGroup_only h hgroups

theorem State.withdrawPair_only {a1}  (h : Only ps s0 s) (hgroups : Part.groups ∈ ps) (hpairs : Part.pairs ∈ ps) (hregs_grp : Part.regs .grp ∈ ps) (hregs_port : Part.regs .port ∈ ps) : Only ps s0 (State.withdrawPair s a1) := by
  unfold State.withdrawPair
  extract_lets s1 x2 s3
  have hs1 : Only ps s0 s1 := by
    refine Only.ite ?_ ?_
    · with_reducible exact State.unjoinPair_only h hgroups hregs_grp
    · exact h
  clear_value s1
  have hs3 : Only ps s0 s3 := by
    refine (hs1.pairs hpairs)
  clear_value s3
  refine Only.ite ?_ ?_
  · with_reducible exact State.portEvt_only hs3 hregs_port
  · exact hs3

theorem State.withdrawPairs_only {a1}  (h : Only ps s0 s) (hgroups : Part.groups ∈ ps) (hpairs : Part.pairs ∈ ps) (hregs_grp : Part.regs .grp ∈ ps) (hregs_port : Part.regs .port ∈ ps) : Only ps s0 (State.withdrawPairs s a1) := by
  unfold State.withdrawPairs
  refine Only.foldl ?_ ?_
  · exact h
  · intro s1 x2 k3
    with_reducible exact State.withdrawPair_only k3 hgroups hpairs hregs_grp hregs_port

theorem State.stopGroup_only {a1 a2}  (h : Only ps s0 s) (hcounts : Part.counts ∈ ps) (hgroups : Part.groups ∈ ps) (hhalves : Part.halves ∈ ps) (hout : Part.out ∈ ps) (hpairs : Part.pairs ∈ ps) (hports : Part.ports ∈ ps) (hregs_grp : Part.regs .grp ∈ ps) (hregs_port : Part.regs .port ∈ ps) (hrings : Part.rings ∈ ps) : Only ps s0 (State.stopGroup s a1 a2) := by
  unfold State.stopGroup
  extract_lets s1 s2 s3 g4
  have hs1 : Only ps s0 s1 := by
    with_reducible exact State.clearGroupHold_only h hcounts hgroups hhalves hout hrings
  clear_value s1
  have hs2 : Only ps s0 s2 := by
    with_reducible exact State.withdrawPairs_only hs1 hgroups hpairs hregs_grp hregs_port
  clear_value s2
  have hs3 : Only ps s0 s3 := by
    with_reducible exact State.toStopped_only hs2 hcounts hhalves hout hports hregs_port hrings
  clear_value s3
  with_reducible exact State.groupGoes_only hs3 hgroups hports hregs_grp hregs_port

theorem State.branchOut_only {a1 a2}  (h : Only ps s0 s) (hgroups : Part.groups ∈ ps) (hpairs : Part.pairs ∈ ps) (hports : Part.ports ∈ ps) (hregs_grp : Part.regs .grp ∈ ps) (hregs_port : Part.regs .port ∈ ps) : Only ps s0 (State.branchOut s a1 a2) := by
  unfold State.branchOut
  extract_lets b1 g2 i3 s4 x5 s6
  have hs4 : Only ps s0 s4 := by
    with_reducible exact State.withdrawPair_only h hgroups hpairs hregs_grp hregs_port
  clear_value s4
  have hs6 : Only ps s0 s6 := by
    with_reducible exact State.setGroup_only hs4 hgroups
  clear_value s6
  with_reducible refine State.syncMembers_only ?_ hports hregs_port
  with_reducible exact State.grpEvt_only hs6 hregs_grp

theorem State.bankLost_only {a1}  (h : Only ps s0 s) (hcounts : Part.counts ∈ ps) (hgroups : Part.groups ∈ ps) (hhalves : Part.halves ∈ ps) (hout : Part.out ∈ ps) (hpairs : Part.pairs ∈ ps) (hports : Part.ports ∈ ps) (hregs_grp : Part.regs .grp ∈ ps) (hregs_port : Part.regs .port ∈ ps) (hrings : Part.rings ∈ ps) : Only ps s0 (State.bankLost s a1) := by
  unfold State.bankLost
  dsimp only
  split
  · rename_i x1 k2 heq3
    refine Only.ite ?_ ?_
    · refine Only.foldl ?_ ?_
      · with_reducible exact State.stopGroup_only h hcounts hgroups hhalves hout hpairs hports hregs_grp hregs_port hrings
      · intro s4 x5 k6
        with_reducible exact State.portEvt_only k6 hregs_port
    · refine Only.ite ?_ ?_
      · exact h
      · with_reducible refine State.portEvt_only ?_ hregs_port
        with_reducible exact State.branchOut_only h hgroups hpairs hports hregs_grp hregs_port
  · rename_i x7 heq8
    refine Only.ite ?_ ?_
    · exact h
    · with_reducible refine State.portEvt_only ?_ hregs_port
      with_reducible exact State.toStopped_only h hcounts hhalves hout hports hregs_port hrings

theorem State.noteMay_only  (h : Only ps s0 s) (hmay : Part.may ∈ ps) : Only ps s0 (State.noteMay s) := by
  unfold State.noteMay
  refine (h.may hmay)

theorem finish_only  (h : Only ps s0 s) (hevc : Part.evc ∈ ps) (hfree : Part.free ∈ ps) (hfuncs : Part.funcs ∈ ps) (hintake : Part.intake ∈ ps) (hmay : Part.may ∈ ps) (hout : Part.out ∈ ps) (hregs_guard : Part.regs .guard ∈ ps) : Result.All (Only ps s0) (finish s) := by
  unfold finish
  refine Result.all_next ?_
  with_reducible refine State.announce_only ?_ hevc hfree hfuncs hintake hout hregs_guard
  with_reducible exact State.noteMay_only h hmay

theorem State.crossDomain_only {a1 a2 a3}  (h : Only ps s0 s) (hintake : Part.intake ∈ ps) : Only ps s0 (State.crossDomain s a1 a2 a3) := by
  unfold State.crossDomain
  with_reducible exact State.record_only h hintake

theorem State.readIndex_only {a1 a2 a3}  (h : Only ps s0 s) (hcairn : Part.cairn ∈ ps) (hcounts : Part.counts ∈ ps) (heths : Part.eths ∈ ps) (hfree : Part.free ∈ ps) (hfuncs : Part.funcs ∈ ps) (hhalves : Part.halves ∈ ps) (hintake : Part.intake ∈ ps) (hobjs : Part.objs ∈ ps) (hout : Part.out ∈ ps) (hports : Part.ports ∈ ps) (hregs_fn : Part.regs .fn ∈ ps) (hregs_ring : Part.regs .ring ∈ ps) (hrings : Part.rings ∈ ps) (htrust : Part.trust ∈ ps) : Only ps s0 (State.readIndex s a1 a2 a3) := by
  unfold State.readIndex
  extract_lets i1 r2 cq3 diff4 s5
  have hs5 : Only ps s0 s5 := by
    with_reducible exact State.setRing_only h hrings
  clear_value s5
  refine Only.ite ?_ ?_
  · with_reducible refine State.disableRing_only ?_ hcairn hcounts heths hfree hfuncs hhalves hobjs hout hports hregs_fn hregs_ring hrings htrust
    with_reducible exact State.ringFault_only h hintake hregs_ring
  · refine Only.ite ?_ ?_
    · with_reducible exact State.roomShown_only hs5 hcounts heths hhalves hout hports hrings
    · exact hs5

theorem execDevKick_only {a1 a2 a3}  (h : Only ps s0 s) (hcairn : Part.cairn ∈ ps) (hcounts : Part.counts ∈ ps) (heths : Part.eths ∈ ps) (hevc : Part.evc ∈ ps) (hfree : Part.free ∈ ps) (hfuncs : Part.funcs ∈ ps) (hhalves : Part.halves ∈ ps) (hintake : Part.intake ∈ ps) (hmay : Part.may ∈ ps) (hobjs : Part.objs ∈ ps) (hout : Part.out ∈ ps) (hports : Part.ports ∈ ps) (hregs_fn : Part.regs .fn ∈ ps) (hregs_guard : Part.regs .guard ∈ ps) (hregs_ring : Part.regs .ring ∈ ps) (hrings : Part.rings ∈ ps) (htrust : Part.trust ∈ ps) : Result.All (Only ps s0) (execDevKick a1 a2 a3 s) := by
  unfold execDevKick
  extract_lets r1 ns2
  refine Result.all_ite ?_ ?_
  · refine Result.all_next ?_
    exact h
  · refine Result.all_ite ?_ ?_
    · refine Result.all_ite ?_ ?_
      · exact trivial
      · with_reducible refine finish_only ?_ hevc hfree hfuncs hintake hmay hout hregs_guard
        refine Only.foldl ?_ ?_
        · exact h
        · intro s3 x4 k5
          refine Only.ite ?_ ?_
          · with_reducible exact State.readIndex_only k5 hcairn hcounts heths hfree hfuncs hhalves hintake hobjs hout hports hregs_fn hregs_ring hrings htrust
          · exact k5
    · split
      · rename_i x6 heq7
        with_reducible refine finish_only ?_ hevc hfree hfuncs hintake hmay hout hregs_guard
        exact State.raise_only h hregs_fn
      · rename_i x8 n9 heq10
        refine Result.all_ite ?_ ?_
        · with_reducible refine finish_only ?_ hevc hfree hfuncs hintake hmay hout hregs_guard
          exact State.raise_only h hregs_fn
        · split
          · rename_i words11
            exact trivial
          · rename_i words12 w13 tail14
            with_reducible refine finish_only ?_ hevc hfree hfuncs hintake hmay hout hregs_guard
            with_reducible exact State.readIndex_only h hcairn hcounts heths hfree hfuncs hhalves hintake hobjs hout hports hregs_fn hregs_ring hrings htrust

theorem State.writeDbb_only {a1 a2 a3}  (h : Only ps s0 s) (hintake : Part.intake ∈ ps) (hregs_fn : Part.regs .fn ∈ ps) : Only ps s0 (State.writeDbb s a1 a2 a3) := by
  unfold State.writeDbb
  extract_lets r1 was2 en3
  dsimp only
  refine Only.ite ?_ ?_
  · with_reducible refine State.refuse_only ?_ hintake
    refine Only.ite ?_ ?_
    · refine State.raise_only ?_ hregs_fn
      refine Only.ite ?_ ?_
      · exact State.setReg_only h hregs_fn
      · refine State.setReg_only ?_ hregs_fn
        exact State.setReg_only h hregs_fn
    · refine Only.ite ?_ ?_
      · exact State.setReg_only h hregs_fn
      · refine State.setReg_only ?_ hregs_fn
        exact State.setReg_only h hregs_fn
  · refine Only.ite ?_ ?_
    · refine State.raise_only ?_ hregs_fn
      refine Only.ite ?_ ?_
      · exact State.setReg_only h hregs_fn
      · refine State.setReg_only ?_ hregs_fn
        exact State.setReg_only h hregs_fn
    · refine Only.ite ?_ ?_
      · exact State.setReg_only h hregs_fn
      · refine State.setReg_only ?_ hregs_fn
        exact State.setReg_only h hregs_fn

theorem State.writeTsq_only {a1 a2 a3}  (h : Only ps s0 s) (hfuncs : Part.funcs ∈ ps) (hintake : Part.intake ∈ ps) (hout : Part.out ∈ ps) (hregs_fn : Part.regs .fn ∈ ps) : Only ps s0 (State.writeTsq s a1 a2 a3) := by
  unfold State.writeTsq
  extract_lets r1 was2 en3
  dsimp only
  refine Only.ite ?_ ?_
  · with_reducible refine State.refuse_only ?_ hintake
    refine Only.ite ?_ ?_
    · with_reducible refine State.doorbell_only ?_ hout
      with_reducible refine State.setFunc_only ?_ hfuncs
      refine Only.ite ?_ ?_
      · refine State.raise_only ?_ hregs_fn
        refine Only.ite ?_ ?_
        · exact State.setReg_only h hregs_fn
        · refine State.setReg_only ?_ hregs_fn
          exact State.setReg_only h hregs_fn
      · refine Only.ite ?_ ?_
        · exact State.setReg_only h hregs_fn
        · refine State.setReg_only ?_ hregs_fn
          exact State.setReg_only h hregs_fn
    · refine Only.ite ?_ ?_
      · refine State.raise_only ?_ hregs_fn
        refine Only.ite ?_ ?_
        · exact State.setReg_only h hregs_fn
        · refine State.setReg_only ?_ hregs_fn
          exact State.setReg_only h hregs_fn
      · refine Only.ite ?_ ?_
        · exact State.setReg_only h hregs_fn
        · refine State.setReg_only ?_ hregs_fn
          exact State.setReg_only h hregs_fn
  · refine Only.ite ?_ ?_
    · with_reducible refine State.doorbell_only ?_ hout
      with_reducible refine State.setFunc_only ?_ hfuncs
      refine Only.ite ?_ ?_
      · refine State.raise_only ?_ hregs_fn
        refine Only.ite ?_ ?_
        · exact State.setReg_only h hregs_fn
        · refine State.setReg_only ?_ hregs_fn
          exact State.setReg_only h hregs_fn
      · refine Only.ite ?_ ?_
        · exact State.setReg_only h hregs_fn
        · refine State.setReg_only ?_ hregs_fn
          exact State.setReg_only h hregs_fn
    · refine Only.ite ?_ ?_
      · refine State.raise_only ?_ hregs_fn
        refine Only.ite ?_ ?_
        · exact State.setReg_only h hregs_fn
        · refine State.setReg_only ?_ hregs_fn
          exact State.setReg_only h hregs_fn
      · refine Only.ite ?_ ?_
        · exact State.setReg_only h hregs_fn
        · refine State.setReg_only ?_ hregs_fn
          exact State.setReg_only h hregs_fn

theorem State.objLoadOp_only {a1}  (h : Only ps s0 s) (hfuncs : Part.funcs ∈ ps) (hregs_fn : Part.regs .fn ∈ ps) : Only ps s0 (State.objLoadOp s a1) := by
  unfold State.objLoadOp
  extract_lets x1 put2 s3 x4
  have hs3 : Only ps s0 s3 := by
    unfold s3
    dsimp only [put2]
    refine State.setReg_only ?_ hregs_fn
    refine State.setReg_only ?_ hregs_fn
    refine State.setReg_only ?_ hregs_fn
    refine State.setReg_only ?_ hregs_fn
    refine State.setReg_only ?_ hregs_fn
    exact State.setReg_only h hregs_fn
  clear_value s3
  with_reducible exact State.setFunc_only hs3 hfuncs

theorem State.writeSendHeader_only {a1 a2}  (h : Only ps s0 s) (hobjs : Part.objs ∈ ps) (htarn : Part.tarn ∈ ps) : Only ps s0 (State.writeSendHeader s a1 a2) := by
  unfold State.writeSendHeader
  extract_lets x1 q2 s3
  have hs3 : Only ps s0 s3 := by
    with_reducible exact State.setObj_only h hobjs
  clear_value s3
  with_reducible exact State.tarnWrite_only hs3 htarn

theorem State.objCommitOp_only {a1}  (h : Only ps s0 s) (hfuncs : Part.funcs ∈ ps) (hobjs : Part.objs ∈ ps) (htarn : Part.tarn ∈ ps) : Only ps s0 (State.objCommitOp s a1) := by
  unfold State.objCommitOp
  extract_lets o1 c2 code3 x4 s5 x6 fresh7 y8 y9 s10
  have hs5 : Only ps s0 s5 := by
    with_reducible exact State.setFunc_only h hfuncs
  clear_value s5
  have hs10 : Only ps s0 s10 := by
    with_reducible exact State.setObj_only hs5 hobjs
  clear_value s10
  refine Only.ite ?_ ?_
  · exact hs5
  · refine Only.ite ?_ ?_
    · exact hs10
    · refine Only.ite ?_ ?_
      · with_reducible exact State.writeSendHeader_only hs10 hobjs htarn
      · refine Only.ite ?_ ?_
        · with_reducible refine State.tarnWrite_only ?_ htarn
          with_reducible exact State.tarnWrite_only hs10 htarn
        · exact hs10

theorem State.writeObjCmd_only {a1 a2}  (h : Only ps s0 s) (hfuncs : Part.funcs ∈ ps) (hintake : Part.intake ∈ ps) (hobjs : Part.objs ∈ ps) (hregs_fn : Part.regs .fn ∈ ps) (htarn : Part.tarn ∈ ps) : Only ps s0 (State.writeObjCmd s a1 a2) := by
  unfold State.writeObjCmd
  extract_lets c1 s2 x3
  have hs2 : Only ps s0 s2 := by
    refine Only.ite ?_ ?_
    · with_reducible exact State.objLoadOp_only h hfuncs hregs_fn
    · with_reducible exact State.objCommitOp_only h hfuncs hobjs htarn
  clear_value s2
  refine Only.ite ?_ ?_
  · exact h
  · refine Only.ite ?_ ?_
    · with_reducible exact State.refuseWrite_only h hintake
    · with_reducible exact State.setFunc_only hs2 hfuncs

theorem State.fltReadOp_only {a1}  (h : Only ps s0 s) (hfuncs : Part.funcs ∈ ps) (hregs_fn : Part.regs .fn ∈ ps) : Only ps s0 (State.fltReadOp s a1) := by
  unfold State.fltReadOp
  extract_lets i1 ent2 x3 e4 s5 x6
  have hs5 : Only ps s0 s5 := by
    refine Only.foldl ?_ ?_
    · exact h
    · intro s7 x8 k9
      exact State.setReg_only k9 hregs_fn
  clear_value s5
  refine Only.ite ?_ ?_
  · with_reducible exact State.setFunc_only h hfuncs
  · with_reducible exact State.setFunc_only hs5 hfuncs

theorem State.fltWriteOp_only {a1}  (h : Only ps s0 s) (hflt : Part.flt ∈ ps) (hfuncs : Part.funcs ∈ ps) : Only ps s0 (State.fltWriteOp s a1) := by
  unfold State.fltWriteOp
  extract_lets i1 e2 code3 x4 s5
  have hs5 : Only ps s0 s5 := by
    with_reducible exact State.setFunc_only h hfuncs
  clear_value s5
  refine Only.ite ?_ ?_
  · refine (hs5.flt hflt)
  · exact hs5

theorem State.writeFltCmd_only {a1 a2}  (h : Only ps s0 s) (hflt : Part.flt ∈ ps) (hfuncs : Part.funcs ∈ ps) (hintake : Part.intake ∈ ps) (hregs_fn : Part.regs .fn ∈ ps) : Only ps s0 (State.writeFltCmd s a1 a2) := by
  unfold State.writeFltCmd
  extract_lets c1 s2 x3
  have hs2 : Only ps s0 s2 := by
    refine Only.ite ?_ ?_
    · with_reducible exact State.fltReadOp_only h hfuncs hregs_fn
    · with_reducible exact State.fltWriteOp_only h hflt hfuncs
  clear_value s2
  refine Only.ite ?_ ?_
  · exact h
  · refine Only.ite ?_ ?_
    · with_reducible exact State.refuseWrite_only h hintake
    · with_reducible exact State.setFunc_only hs2 hfuncs

theorem State.gwReadOp_only {a1}  (h : Only ps s0 s) (hfuncs : Part.funcs ∈ ps) (hregs_fn : Part.regs .fn ∈ ps) : Only ps s0 (State.gwReadOp s a1) := by
  unfold State.gwReadOp
  extract_lets f1 s2
  have hs2 : Only ps s0 s2 := by
    with_reducible exact State.setFunc_only h hfuncs
  clear_value s2
  dsimp only
  split
  · rename_i x3 heq4
    with_reducible exact State.setFunc_only h hfuncs
  · rename_i x5 old6 heq7
    refine Only.ite ?_ ?_
    · refine Only.foldl ?_ ?_
      · exact hs2
      · intro s8 x9 k10
        exact State.setReg_only k10 hregs_fn
    · with_reducible exact State.setFunc_only h hfuncs

theorem State.writeGwCmd_only {a1 a2}  (h : Only ps s0 s) (hfuncs : Part.funcs ∈ ps) (hintake : Part.intake ∈ ps) (hregs_fn : Part.regs .fn ∈ ps) : Only ps s0 (State.writeGwCmd s a1 a2) := by
  unfold State.writeGwCmd
  refine Only.ite ?_ ?_
  · exact h
  · refine Only.ite ?_ ?_
    · with_reducible exact State.refuseWrite_only h hintake
    · extract_lets x1
      with_reducible refine State.setFunc_only ?_ hfuncs
      with_reducible exact State.gwReadOp_only h hfuncs hregs_fn

theorem State.writeSeal_only {a1 a2 a3}  (h : Only ps s0 s) (hintake : Part.intake ∈ ps) (hkeys : Part.keys ∈ ps) : Only ps s0 (State.writeSeal s a1 a2 a3) := by
  unfold State.writeSeal
  extract_lets h1
  split
  · rename_i x2 heq3
    with_reducible exact State.crossDomain_only h hintake
  · rename_i x4 k5 heq6
    refine Only.ite ?_ ?_
    · with_reducible exact State.crossDomain_only h hintake
    · with_reducible exact State.setKey_only h hkeys

theorem State.modeGoes_only {a1}  (h : Only ps s0 s) (hcairn : Part.cairn ∈ ps) (hintake : Part.intake ∈ ps) : Only ps s0 (State.modeGoes s a1) := by
  unfold State.modeGoes
  extract_lets old1 s2
  have hs2 : Only ps s0 s2 := by
    with_reducible exact State.setCairn_only h hcairn
  clear_value s2
  refine Only.ite ?_ ?_
  · exact hs2
  · with_reducible exact State.record_only hs2 hintake

theorem State.raiseTo_only {a1}  (h : Only ps s0 s) (hcairn : Part.cairn ∈ ps) (hintake : Part.intake ∈ ps) : Only ps s0 (State.raiseTo s a1) := by
  unfold State.raiseTo
  extract_lets x1
  with_reducible exact State.modeGoes_only h hcairn hintake

theorem State.modeActs_only {a1 a2}  (h : Only ps s0 s) (hcairn : Part.cairn ∈ ps) (hintake : Part.intake ∈ ps) : Only ps s0 (State.modeActs s a1 a2) := by
  unfold State.modeActs
  extract_lets c1 vid2
  split
  · rename_i x3 x4 heq5 heq6
    refine Only.ite ?_ ?_
    · with_reducible exact State.raiseTo_only h hcairn hintake
    · with_reducible exact State.modeGoes_only h hcairn hintake
  · rename_i x7 x8 heq9 heq10
    with_reducible exact State.modeGoes_only h hcairn hintake
  · rename_i x11 x12 heq13 heq14
    refine Only.ite ?_ ?_
    · with_reducible exact State.raiseTo_only h hcairn hintake
    · exact h
  · rename_i x15 x16 heq17
    exact h
  · rename_i x18 x19 heq20 x21
    with_reducible exact State.modeGoes_only h hcairn hintake

theorem State.writeMode_only {a1 a2} (h : Only ps s0 s) (hcairn : Part.cairn ∈ ps) (hintake : Part.intake ∈ ps) (hregs_dev : Part.regs .dev ∈ ps) : Only ps s0 (State.writeMode s a1 a2).2 := by
  unfold State.writeMode
  dsimp only
  split
  · split
    · exact h
    · exact (State.record_only (State.setCairn_only h hcairn) hintake)
  · exact (State.modeActs_only (State.setReg_only h hregs_dev) hcairn hintake)

theorem State.seEvt_only {a1}  (h : Only ps s0 s) (hregs_dev : Part.regs .dev ∈ ps) : Only ps s0 (State.seEvt s a1) := by
  unfold State.seEvt
  exact State.raise_only h hregs_dev

theorem State.endSwap_only {a1}  (h : Only ps s0 s) (hregs_dev : Part.regs .dev ∈ ps) (hspur : Part.spur ∈ ps) : Only ps s0 (State.endSwap s a1) := by
  unfold State.endSwap
  with_reducible refine State.seEvt_only ?_ hregs_dev
  extract_lets x1
  refine (h.spur hspur)

theorem State.startLoad_only {a1 a2 a3}  (h : Only ps s0 s) (hspur : Part.spur ∈ ps) : Only ps s0 (State.startLoad s a1 a2 a3) := by
  unfold State.startLoad
  extract_lets x1
  with_reducible exact State.setEngine_only h hspur

theorem State.choose_only {a1 a2 a3 a4 a5}  (h : Only ps s0 s) (hspur : Part.spur ∈ ps) : Only ps s0 (State.choose s a1 a2 a3 a4 a5) := by
  unfold State.choose
  refine Only.ite ?_ ?_
  · extract_lets x1
    with_reducible exact State.setEngine_only h hspur
  · with_reducible exact State.startLoad_only h hspur

theorem State.swapChoose_only {a1 a2}  (h : Only ps s0 s) (hregs_dev : Part.regs .dev ∈ ps) (hspur : Part.spur ∈ ps) : Only ps s0 (State.swapChoose s a1 a2) := by
  unfold State.swapChoose
  dsimp only
  split
  · rename_i x1 heq2
    with_reducible exact State.endSwap_only h hregs_dev hspur
  · rename_i x3 e4 holds5 heq6
    refine ((State.choose_only ?_ hspur).spur hspur)
    exact h

theorem State.writeSwap_only {a1 a2}  (h : Only ps s0 s) (hintake : Part.intake ∈ ps) (hregs_dev : Part.regs .dev ∈ ps) (hspur : Part.spur ∈ ps) : Only ps s0 (State.writeSwap s a1 a2) := by
  unfold State.writeSwap
  dsimp only
  refine Only.ite ?_ ?_
  · refine Only.ite ?_ ?_
    · with_reducible refine State.refuse_only ?_ hintake
      exact State.setReg_only h hregs_dev
    · exact State.setReg_only h hregs_dev
  · refine Only.ite ?_ ?_
    · with_reducible refine State.endSwap_only ?_ hregs_dev hspur
      refine Only.ite ?_ ?_
      · with_reducible refine State.refuse_only ?_ hintake
        exact State.setReg_only h hregs_dev
      · exact State.setReg_only h hregs_dev
    · with_reducible refine State.swapChoose_only ?_ hregs_dev hspur
      refine Only.ite ?_ ?_
      · with_reducible refine State.refuse_only ?_ hintake
        exact State.setReg_only h hregs_dev
      · exact State.setReg_only h hregs_dev

theorem State.cmdBusy_only {a1}  (h : Only ps s0 s) (hspur : Part.spur ∈ ps) : Only ps s0 (State.cmdBusy s a1) := by
  unfold State.cmdBusy
  extract_lets x1
  refine (h.spur hspur)

theorem State.endCmd_only {a1}  (h : Only ps s0 s) (hregs_dev : Part.regs .dev ∈ ps) (hspur : Part.spur ∈ ps) : Only ps s0 (State.endCmd s a1) := by
  unfold State.endCmd
  with_reducible refine State.seEvt_only ?_ hregs_dev
  extract_lets x1
  refine (h.spur hspur)

theorem State.engineCmd_only {a1 a2}  (h : Only ps s0 s) (hregs_dev : Part.regs .dev ∈ ps) (hspur : Part.spur ∈ ps) : Only ps s0 (State.engineCmd s a1 a2) := by
  unfold State.engineCmd
  extract_lets x1
  refine Only.ite ?_ ?_
  · with_reducible refine State.cmdBusy_only ?_ hspur
    with_reducible exact State.setEngine_only h hspur
  · refine Only.ite ?_ ?_
    · with_reducible refine State.cmdBusy_only ?_ hspur
      with_reducible exact State.startLoad_only h hspur
    · with_reducible exact State.endCmd_only h hregs_dev hspur

theorem State.haltDone_only  (h : Only ps s0 s) (hregs_dev : Part.regs .dev ∈ ps) (hspur : Part.spur ∈ ps) : Only ps s0 (State.haltDone s) := by
  unfold State.haltDone
  split
  · rename_i x1 u2 heq3
    refine Only.ite ?_ ?_
    · with_reducible exact State.endCmd_only h hregs_dev hspur
    · exact h
  · rename_i x4 heq5
    exact h

theorem State.coreCmd_only {a1 a2}  (h : Only ps s0 s) (hgroups : Part.groups ∈ ps) (hregs_dev : Part.regs .dev ∈ ps) (hspur : Part.spur ∈ ps) : Only ps s0 (State.coreCmd s a1 a2) := by
  unfold State.coreCmd
  extract_lets x1
  refine Only.ite ?_ ?_
  · with_reducible refine State.cmdBusy_only ?_ hspur
    with_reducible exact State.setCore_only h hspur
  · refine Only.ite ?_ ?_
    · with_reducible refine State.haltDone_only ?_ hregs_dev hspur
      with_reducible refine State.moveDuties_only ?_ hgroups hspur
      with_reducible refine State.cmdBusy_only ?_ hspur
      with_reducible exact State.setCore_only h hspur
    · with_reducible exact State.endCmd_only h hregs_dev hspur

theorem State.writeSecmd_only {a1 a2}  (h : Only ps s0 s) (hgroups : Part.groups ∈ ps) (hintake : Part.intake ∈ ps) (hregs_dev : Part.regs .dev ∈ ps) (hspur : Part.spur ∈ ps) : Only ps s0 (State.writeSecmd s a1 a2) := by
  unfold State.writeSecmd
  extract_lets cmd1 busy2 s3 u4
  have hs3 : Only ps s0 s3 := by
    exact State.writeFields_only h hregs_dev hintake
  clear_value s3
  refine Only.ite ?_ ?_
  · with_reducible exact State.refuse_only h hintake
  · refine Only.ite ?_ ?_
    · exact hs3
    · split
      · rename_i x5 x6 e7 heq8
        with_reducible exact State.engineCmd_only hs3 hregs_dev hspur
      · rename_i x9 x10 c11 heq12 heq13
        with_reducible exact State.coreCmd_only hs3 hgroups hregs_dev hspur
      · rename_i x14 x15 heq16 heq17
        with_reducible exact State.endCmd_only hs3 hregs_dev hspur

theorem State.gwObject_only {a1 a2 a3}  (h : Only ps s0 s) (hspur : Part.spur ∈ ps) : Only ps s0 (State.gwObject s a1 a2 a3) := by
  unfold State.gwObject
  refine Only.foldl ?_ ?_
  · exact h
  · intro s1 x2 k3
    with_reducible exact State.gwEnqueue_only k3 hspur

theorem State.writeMain_only {a1 a2 a3 a4 a5 a6 a7}  (h : Only ps s0 s) (hobjs : Part.objs ∈ ps) (hspur : Part.spur ∈ ps) (htarn : Part.tarn ∈ ps) : Only ps s0 (State.writeMain s a1 a2 a3 a4 a5 a6 a7) := by
  unfold State.writeMain
  extract_lets x1 q2 s3 s4
  have hs3 : Only ps s0 s3 := by
    with_reducible exact State.setObj_only h hobjs
  clear_value s3
  have hs4 : Only ps s0 s4 := by
    with_reducible exact State.tarnWrite_only hs3 htarn
  clear_value s4
  with_reducible exact State.gwObject_only hs4 hspur

theorem State.promoteShadow_only {a1 a2}  (h : Only ps s0 s) (hobjs : Part.objs ∈ ps) (hspur : Part.spur ∈ ps) (htarn : Part.tarn ∈ ps) : Only ps s0 (State.promoteShadow s a1 a2) := by
  unfold State.promoteShadow
  extract_lets x1 bs2 s3
  have hs3 : Only ps s0 s3 := by
    with_reducible exact State.setObj_only h hobjs
  clear_value s3
  split
  · rename_i x4 heq5
    exact h
  · rename_i x6 st7 p8 heq9
    with_reducible exact State.writeMain_only hs3 hobjs hspur htarn

theorem State.endReads_only {a1}  (h : Only ps s0 s) (hobjs : Part.objs ∈ ps) (hspur : Part.spur ∈ ps) (htarn : Part.tarn ∈ ps) : Only ps s0 (State.endReads s a1) := by
  unfold State.endReads
  extract_lets keys1
  refine Only.foldl ?_ ?_
  · exact h
  · intro s2 x3 k4
    extract_lets s5 x6
    have hs5 : Only ps s0 s5 := by
      with_reducible exact State.promoteShadow_only k4 hobjs hspur htarn
    clear_value s5
    with_reducible exact State.setObj_only hs5 hobjs

theorem State.warmObjs_only  (h : Only ps s0 s) (hobjs : Part.objs ∈ ps) (hspur : Part.spur ∈ ps) (htarn : Part.tarn ∈ ps) : Only ps s0 (State.warmObjs s) := by
  unfold State.warmObjs
  extract_lets s1
  have hs1 : Only ps s0 s1 := by
    refine Only.foldl ?_ ?_
    · exact h
    · intro s2 x3 k4
      with_reducible exact State.endReads_only k4 hobjs hspur htarn
  clear_value s1
  refine (hs1.objs hobjs)

theorem State.ownedWrite_only {f : State → State} {a1 a2 a3 a4}  (h : Only ps s0 s) (hf : ∀ y, Only ps s0 y → Only ps s0 (f y)) (hevc : Part.evc ∈ ps) (hfree : Part.free ∈ ps) (hfuncs : Part.funcs ∈ ps) (hintake : Part.intake ∈ ps) (hmay : Part.may ∈ ps) (hout : Part.out ∈ ps) (hregs_guard : Part.regs .guard ∈ ps) : Result.All (Only ps s0) (State.ownedWrite s a1 a2 a3 a4 f) := by
  unfold State.ownedWrite
  refine Result.all_ite ?_ ?_
  · refine Result.all_next ?_
    exact h
  · refine Result.all_ite ?_ ?_
    · with_reducible refine finish_only ?_ hevc hfree hfuncs hintake hmay hout hregs_guard
      exact hf _ h
    · with_reducible refine finish_only ?_ hevc hfree hfuncs hintake hmay hout hregs_guard
      with_reducible exact State.crossDomain_only h hintake

theorem execTmuRateWrite_only {a1 a2}  (h : Only ps s0 s) (hevc : Part.evc ∈ ps) (hfree : Part.free ∈ ps) (hfuncs : Part.funcs ∈ ps) (hintake : Part.intake ∈ ps) (hmay : Part.may ∈ ps) (hout : Part.out ∈ ps) (hregs_guard : Part.regs .guard ∈ ps) (htmu : Part.tmu ∈ ps) : Result.All (Only ps s0) (execTmuRateWrite a1 a2 s) := by
  unfold execTmuRateWrite
  with_reducible refine State.ownedWrite_only ?_ ?_ hevc hfree hfuncs hintake hmay hout hregs_guard
  · exact h
  · intro s1 k2
    refine Only.ite ?_ ?_
    · refine Only.ite ?_ ?_
      · exact k2
      · with_reducible exact State.refuse_only k2 hintake
    · with_reducible exact State.setRate_only k2 htmu

theorem State.writeStep_only {a1 a2 a3}  (h : Only ps s0 s) (hcounts : Part.counts ∈ ps) (hfree : Part.free ∈ ps) (hfuncs : Part.funcs ∈ ps) (hhalves : Part.halves ∈ ps) (hintake : Part.intake ∈ ps) (hout : Part.out ∈ ps) (hregs_fn : Part.regs .fn ∈ ps) (hregs_tmu : Part.regs .tmu ∈ ps) (htmu : Part.tmu ∈ ps) : Only ps s0 (State.writeStep s a1 a2 a3) := by
  unfold State.writeStep
  refine Only.ite ?_ ?_
  · extract_lets x1 s2
    have hs2 : Only ps s0 s2 := by
      refine Only.ite ?_ ?_
      · with_reducible exact State.setTmu_only h htmu
      · exact h
    clear_value s2
    with_reducible exact State.refuse_only hs2 hintake
  · dsimp only
    split
    · rename_i w3
      with_reducible exact State.setTmu_only h htmu
    · rename_i w4
      with_reducible refine State.stepTime_only ?_ hcounts hfree hfuncs hhalves hout hregs_fn hregs_tmu htmu
      with_reducible exact State.setTmu_only h htmu
    · rename_i w5
      with_reducible refine State.stepTime_only ?_ hcounts hfree hfuncs hhalves hout hregs_fn hregs_tmu htmu
      with_reducible exact State.setTmu_only h htmu

theorem State.servoSwitch_only {a1}  (h : Only ps s0 s) (hregs_tmu : Part.regs .tmu ∈ ps) (htmu : Part.tmu ∈ ps) : Only ps s0 (State.servoSwitch s a1) := by
  unfold State.servoSwitch
  refine Only.ite ?_ ?_
  · extract_lets i1 x2
    with_reducible refine State.servoGoes_only ?_ hregs_tmu htmu
    with_reducible exact State.setTmu_only h htmu
  · with_reducible refine State.servoGoes_only ?_ hregs_tmu htmu
    extract_lets x3
    with_reducible exact State.setTmu_only h htmu

theorem State.firmwareTakes_only  (h : Only ps s0 s) (hfab : Part.fab ∈ ps) (hregs_fab : Part.regs .fab ∈ ps) (hregs_tmu : Part.regs .tmu ∈ ps) (htmu : Part.tmu ∈ ps) : Only ps s0 (State.firmwareTakes s) := by
  unfold State.firmwareTakes
  extract_lets s1
  have hs1 : Only ps s0 s1 := by
    with_reducible exact State.fabricTime_only h hfab hregs_fab hregs_tmu
  clear_value s1
  refine Only.ite ?_ ?_
  · exact hs1
  · with_reducible refine State.servoSwitch_only ?_ hregs_tmu htmu
    exact State.setRf_only hs1 hregs_tmu

theorem State.writeServo_only {a1 a2}  (h : Only ps s0 s) (hfab : Part.fab ∈ ps) (hintake : Part.intake ∈ ps) (hregs_fab : Part.regs .fab ∈ ps) (hregs_tmu : Part.regs .tmu ∈ ps) (htmu : Part.tmu ∈ ps) : Only ps s0 (State.writeServo s a1 a2) := by
  unfold State.writeServo
  extract_lets r1 was2 en3 fw4 bad5
  dsimp only
  refine Only.ite ?_ ?_
  · with_reducible refine State.refuse_only ?_ hintake
    refine Only.ite ?_ ?_
    · with_reducible refine State.firmwareTakes_only ?_ hfab hregs_fab hregs_tmu htmu
      refine Only.ite ?_ ?_
      · exact State.setReg_only h hregs_tmu
      · with_reducible refine State.servoSwitch_only ?_ hregs_tmu htmu
        refine State.setReg_only ?_ hregs_tmu
        exact State.setReg_only h hregs_tmu
    · refine Only.ite ?_ ?_
      · exact State.setReg_only h hregs_tmu
      · with_reducible refine State.servoSwitch_only ?_ hregs_tmu htmu
        refine State.setReg_only ?_ hregs_tmu
        exact State.setReg_only h hregs_tmu
  · refine Only.ite ?_ ?_
    · with_reducible refine State.firmwareTakes_only ?_ hfab hregs_fab hregs_tmu htmu
      refine Only.ite ?_ ?_
      · exact State.setReg_only h hregs_tmu
      · with_reducible refine State.servoSwitch_only ?_ hregs_tmu htmu
        refine State.setReg_only ?_ hregs_tmu
        exact State.setReg_only h hregs_tmu
    · refine Only.ite ?_ ?_
      · exact State.setReg_only h hregs_tmu
      · with_reducible refine State.servoSwitch_only ?_ hregs_tmu htmu
        refine State.setReg_only ?_ hregs_tmu
        exact State.setReg_only h hregs_tmu

theorem State.writeGov_only {a1 a2 a3}  (h : Only ps s0 s) (hintake : Part.intake ∈ ps) (hregs_cairn : Part.regs .cairn ∈ ps) : Only ps s0 (State.writeGov s a1 a2 a3) := by
  unfold State.writeGov
  extract_lets r1 same2
  refine Only.ite ?_ ?_
  · exact h
  · refine Only.ite ?_ ?_
    · with_reducible exact State.refuse_only h hintake
    · exact State.writeFields_only h hregs_cairn hintake

theorem State.setLog_only {a1}  (h : Only ps s0 s) (hintake : Part.intake ∈ ps) (hlog : Part.log ∈ ps) : Only ps s0 (State.setLog s a1) := by
  unfold State.setLog
  refine (h.log hlog hintake)

theorem State.noteFull_only  (h : Only ps s0 s) (hcairn : Part.cairn ∈ ps) (hintake : Part.intake ∈ ps) (hlog : Part.log ∈ ps) (hregs_fn : Part.regs .fn ∈ ps) : Only ps s0 (State.noteFull s) := by
  unfold State.noteFull
  refine Only.ite ?_ ?_
  · with_reducible refine State.crnEvent_only ?_ hcairn hregs_fn
    extract_lets x1
    with_reducible exact State.setLog_only h hintake hlog
  · exact h

theorem State.putRec_only {a1}  (h : Only ps s0 s) (hcairn : Part.cairn ∈ ps) (hintake : Part.intake ∈ ps) (hlog : Part.log ∈ ps) (hregs_fn : Part.regs .fn ∈ ps) : Only ps s0 (State.putRec s a1) := by
  unfold State.putRec
  extract_lets l1 gone2 recs3 s4 s5
  have hs4 : Only ps s0 s4 := by
    with_reducible exact State.setLog_only h hintake hlog
  clear_value s4
  have hs5 : Only ps s0 s5 := by
    refine Only.ite ?_ ?_
    · refine Only.ite ?_ ?_
      · with_reducible exact State.crnEvent_only hs4 hcairn hregs_fn
      · exact State.raise_only hs4 hregs_fn
    · exact hs4
  clear_value s5
  with_reducible exact State.noteFull_only hs5 hcairn hintake hlog hregs_fn

theorem State.writeAnchor_only  (h : Only ps s0 s) (hcairn : Part.cairn ∈ ps) (hintake : Part.intake ∈ ps) (hlog : Part.log ∈ ps) (hregs_fn : Part.regs .fn ∈ ps) : Only ps s0 (State.writeAnchor s) := by
  unfold State.writeAnchor
  extract_lets t1 s2 x3
  have hs2 : Only ps s0 s2 := by
    with_reducible exact State.putRec_only h hcairn hintake hlog hregs_fn
  clear_value s2
  with_reducible exact State.setLog_only hs2 hintake hlog

theorem State.clearLog_only  (h : Only ps s0 s) (hcairn : Part.cairn ∈ ps) (hintake : Part.intake ∈ ps) (hlog : Part.log ∈ ps) (hregs_fn : Part.regs .fn ∈ ps) : Only ps s0 (State.clearLog s) := by
  unfold State.clearLog
  extract_lets n1 x2 s3 s4
  have hs3 : Only ps s0 s3 := by
    with_reducible exact State.setLog_only h hintake hlog
  clear_value s3
  have hs4 : Only ps s0 s4 := by
    with_reducible exact State.writeAnchor_only hs3 hcairn hintake hlog hregs_fn
  clear_value s4
  with_reducible exact State.putRec_only hs4 hcairn hintake hlog hregs_fn

theorem State.writeLogCfg_only {a1 a2}  (h : Only ps s0 s) (hcairn : Part.cairn ∈ ps) (hintake : Part.intake ∈ ps) (hlog : Part.log ∈ ps) (hregs_cairn : Part.regs .cairn ∈ ps) (hregs_fn : Part.regs .fn ∈ ps) : Only ps s0 (State.writeLogCfg s a1 a2) := by
  unfold State.writeLogCfg
  refine Only.ite ?_ ?_
  · with_reducible exact State.refuse_only h hintake
  · extract_lets s1
    have hs1 : Only ps s0 s1 := by
      exact State.writeFields_only h hregs_cairn hintake
    clear_value s1
    refine Only.ite ?_ ?_
    · with_reducible exact State.clearLog_only hs1 hcairn hintake hlog hregs_fn
    · with_reducible exact State.noteFull_only hs1 hcairn hintake hlog hregs_fn

theorem State.ringRequest_only {a1 a2 a3}  (h : Only ps s0 s) (hcairn : Part.cairn ∈ ps) (hcounts : Part.counts ∈ ps) (heths : Part.eths ∈ ps) (hevc : Part.evc ∈ ps) (hfree : Part.free ∈ ps) (hfuncs : Part.funcs ∈ ps) (hhalves : Part.halves ∈ ps) (hintake : Part.intake ∈ ps) (hmay : Part.may ∈ ps) (hobjs : Part.objs ∈ ps) (hout : Part.out ∈ ps) (hports : Part.ports ∈ ps) (hregs_fn : Part.regs .fn ∈ ps) (hregs_guard : Part.regs .guard ∈ ps) (hregs_ring : Part.regs .ring ∈ ps) (hrings : Part.rings ∈ ps) (htrust : Part.trust ∈ ps) : Result.All (Only ps s0) (State.ringRequest s a1 a2 a3) := by
  unfold State.ringRequest
  refine Result.all_ite ?_ ?_
  · refine Result.all_next ?_
    exact h
  · refine Result.all_ite ?_ ?_
    · with_reducible refine finish_only ?_ hevc hfree hfuncs hintake hmay hout hregs_guard
      with_reducible exact State.crossDomain_only h hintake
    · refine Result.all_ite ?_ ?_
      · with_reducible refine finish_only ?_ hevc hfree hfuncs hintake hmay hout hregs_guard
        with_reducible exact State.holdBack_only h htrust
      · with_reducible refine finish_only ?_ hevc hfree hfuncs hintake hmay hout hregs_guard
        with_reducible exact State.writeRingCfg_only h hcairn hcounts heths hfree hfuncs hhalves hintake hobjs hout hports hregs_fn hregs_ring hrings htrust

theorem State.writeEvtin_only {a1 a2 a3}  (h : Only ps s0 s) (hintake : Part.intake ∈ ps) (hregs_evt : Part.regs .evt ∈ ps) (htmu : Part.tmu ∈ ps) : Only ps s0 (State.writeEvtin s a1 a2 a3) := by
  unfold State.writeEvtin
  extract_lets r1 move2 bad3
  dsimp only
  refine Only.ite ?_ ?_
  · with_reducible refine State.refuse_only ?_ hintake
    refine Only.ite ?_ ?_
    · with_reducible refine State.setTmu_only ?_ htmu
      refine State.setReg_only ?_ hregs_evt
      exact State.setReg_only h hregs_evt
    · exact State.setReg_only h hregs_evt
  · refine Only.ite ?_ ?_
    · with_reducible refine State.setTmu_only ?_ htmu
      refine State.setReg_only ?_ hregs_evt
      exact State.setReg_only h hregs_evt
    · exact State.setReg_only h hregs_evt

theorem State.pulseOn_only {a1}  (h : Only ps s0 s) (htmu : Part.tmu ∈ ps) : Only ps s0 (State.pulseOn s a1) := by
  unfold State.pulseOn
  extract_lets x1
  with_reducible exact State.setPulse_only h htmu

theorem State.writeOut_only {a1 a2 a3}  (h : Only ps s0 s) (hintake : Part.intake ∈ ps) (hregs_out : Part.regs .out ∈ ps) (htmu : Part.tmu ∈ ps) : Only ps s0 (State.writeOut s a1 a2 a3) := by
  unfold State.writeOut
  extract_lets r1 was2 en3
  dsimp only
  refine Only.ite ?_ ?_
  · with_reducible refine State.refuse_only ?_ hintake
    refine Only.ite ?_ ?_
    · exact State.setReg_only h hregs_out
    · refine Only.ite ?_ ?_
      · with_reducible refine State.pulseOn_only ?_ htmu
        refine State.setReg_only ?_ hregs_out
        exact State.setReg_only h hregs_out
      · with_reducible refine State.setPulse_only ?_ htmu
        refine State.setReg_only ?_ hregs_out
        exact State.setReg_only h hregs_out
  · refine Only.ite ?_ ?_
    · exact State.setReg_only h hregs_out
    · refine Only.ite ?_ ?_
      · with_reducible refine State.pulseOn_only ?_ htmu
        refine State.setReg_only ?_ hregs_out
        exact State.setReg_only h hregs_out
      · with_reducible refine State.setPulse_only ?_ htmu
        refine State.setReg_only ?_ hregs_out
        exact State.setReg_only h hregs_out

theorem State.epRequest_only {a1 a2 a3}  (h : Only ps s0 s) (hcounts : Part.counts ∈ ps) (heths : Part.eths ∈ ps) (hevc : Part.evc ∈ ps) (hfree : Part.free ∈ ps) (hfuncs : Part.funcs ∈ ps) (hhalves : Part.halves ∈ ps) (hintake : Part.intake ∈ ps) (hmay : Part.may ∈ ps) (hout : Part.out ∈ ps) (hregs_ep : Part.regs .ep ∈ ps) (hregs_guard : Part.regs .guard ∈ ps) (hrings : Part.rings ∈ ps) (htrust : Part.trust ∈ ps) : Result.All (Only ps s0) (State.epRequest s a1 a2 a3) := by
  unfold State.epRequest
  with_reducible refine State.ownedWrite_only ?_ ?_ hevc hfree hfuncs hintake hmay hout hregs_guard
  · exact h
  · intro s1 k2
    refine Only.ite ?_ ?_
    · with_reducible exact State.holdBack_only k2 htrust
    · with_reducible exact State.writeEpCfg_only k2 hcounts heths hhalves hintake hout hregs_ep hrings

theorem State.writePtpg_only {a1 a2}  (h : Only ps s0 s) (hintake : Part.intake ∈ ps) (hptp : Part.ptp ∈ ps) (hregs_ptp : Part.regs .ptp ∈ ps) : Only ps s0 (State.writePtpg s a1 a2) := by
  unfold State.writePtpg
  extract_lets s1 w2
  have hs1 : Only ps s0 s1 := by
    exact State.writeFields_only h hregs_ptp hintake
  clear_value s1
  refine Only.ite ?_ ?_
  · exact hs1
  · refine Only.ite ?_ ?_
    · refine (hs1.ptp hptp)
    · refine (hs1.ptp hptp)

theorem State.writeHalf_only {a1 a2 a3}  (h : Only ps s0 s) (hhalves : Part.halves ∈ ps) : Only ps s0 (State.writeHalf s a1 a2 a3) := by
  unfold State.writeHalf
  refine (h.halves hhalves)

theorem State.insertLinks_only  (h : Only ps s0 s) (hfab : Part.fab ∈ ps) (hlinks : Part.links ∈ ps) : Only ps s0 (State.insertLinks s) := by
  unfold State.insertLinks
  refine Only.foldl ?_ ?_
  · exact h
  · intro s1 x2 k3
    extract_lets now4 was5 x6 s7 x8
    have hs7 : Only ps s0 s7 := by
      refine (k3.fab hfab)
    clear_value s7
    refine Only.ite ?_ ?_
    · with_reducible exact State.setLink_only hs7 hlinks
    · refine Only.ite ?_ ?_
      · with_reducible exact State.setLink_only hs7 hlinks
      · exact hs7

theorem State.endWire_only {a1 a2}  (h : Only ps s0 s) (hcounts : Part.counts ∈ ps) (hhalves : Part.halves ∈ ps) (hlinks : Part.links ∈ ps) : Only ps s0 (State.endWire s a1 a2) := by
  unfold State.endWire
  dsimp only
  split
  · rename_i x1 fst2 e3 heq4
    refine Only.ite ?_ ?_
    · with_reducible refine State.countLink_only ?_ hcounts hhalves
      with_reducible exact State.setLink_only h hlinks
    · refine Only.ite ?_ ?_
      · with_reducible exact State.setLink_only h hlinks
      · with_reducible refine State.countLink_only ?_ hcounts hhalves
        with_reducible exact State.setLink_only h hlinks
  · rename_i x5 heq6
    exact h

theorem State.dropLinkKey_only {a1}  (h : Only ps s0 s) (hkeys : Part.keys ∈ ps) (hlinks : Part.links ∈ ps) : Only ps s0 (State.dropLinkKey s a1) := by
  unfold State.dropLinkKey
  dsimp only
  split
  · rename_i x1 h2 heq3
    with_reducible refine State.setLink_only ?_ hlinks
    with_reducible exact State.setKey_only h hkeys
  · rename_i x4 heq5
    with_reducible exact State.setLink_only h hlinks

theorem State.wrapOnto_only {a1 a2 a3 a4}  (h : Only ps s0 s) (hcounts : Part.counts ∈ ps) (hhalves : Part.halves ∈ ps) (hlinks : Part.links ∈ ps) (hout : Part.out ∈ ps) : Only ps s0 (State.wrapOnto s a1 a2 a3 a4) := by
  unfold State.wrapOnto
  split
  · rename_i x1 o2 g3 heq4
    with_reducible refine State.pushLink_only ?_ hlinks
    with_reducible exact State.countLink_only h hcounts hhalves
  · rename_i x5 heq6
    with_reducible refine State.dropFrom_only ?_ hlinks hout
    refine Only.ite ?_ ?_
    · with_reducible exact State.countLink_only h hcounts hhalves
    · with_reducible exact State.countLink_only h hcounts hhalves

theorem State.wrapQueue_only {a1 a2}  (h : Only ps s0 s) (hcounts : Part.counts ∈ ps) (hhalves : Part.halves ∈ ps) (hlinks : Part.links ∈ ps) (hout : Part.out ∈ ps) : Only ps s0 (State.wrapQueue s a1 a2) := by
  unfold State.wrapQueue
  extract_lets q1 x2 s3
  have hs3 : Only ps s0 s3 := by
    with_reducible exact State.setLink_only h hlinks
  clear_value s3
  refine Only.foldl ?_ ?_
  · exact hs3
  · intro s4 x5 k6
    refine Only.ite ?_ ?_
    · with_reducible exact State.wrapOnto_only k6 hcounts hhalves hlinks hout
    · with_reducible exact State.dropFrom_only k6 hlinks hout

theorem State.sendTopo_only  (h : Only ps s0 s) (hfab : Part.fab ∈ ps) (hlinks : Part.links ∈ ps) (hout : Part.out ∈ ps) : Only ps s0 (State.sendTopo s) := by
  unfold State.sendTopo
  extract_lets x1 s2
  have hs2 : Only ps s0 s2 := by
    refine (h.fab hfab)
  clear_value s2
  with_reducible refine State.flood_only ?_ hlinks hout
  with_reducible exact State.remember_only hs2 hfab

theorem State.newTopo_only  (h : Only ps s0 s) (hfab : Part.fab ∈ ps) (hlinks : Part.links ∈ ps) (hout : Part.out ∈ ps) : Only ps s0 (State.newTopo s) := by
  unfold State.newTopo
  with_reducible refine State.sendTopo_only ?_ hfab hlinks hout
  extract_lets x1
  refine (h.fab hfab)

theorem State.fabTopo_only  (h : Only ps s0 s) (hregs_fab : Part.regs .fab ∈ ps) (hregs_fn : Part.regs .fn ∈ ps) : Only ps s0 (State.fabTopo s) := by
  unfold State.fabTopo
  refine Only.foldl ?_ ?_
  · with_reducible exact State.fabEvt_only h hregs_fab
  · intro s1 x2 k3
    refine Only.ite ?_ ?_
    · exact State.raise_only k3 hregs_fn
    · exact k3

theorem State.topologyChanged_only  (h : Only ps s0 s) (hfab : Part.fab ∈ ps) (hregs_fab : Part.regs .fab ∈ ps) (hregs_fn : Part.regs .fn ∈ ps) (hregs_tmu : Part.regs .tmu ∈ ps) : Only ps s0 (State.topologyChanged s) := by
  unfold State.topologyChanged
  with_reducible refine State.fabricTime_only ?_ hfab hregs_fab hregs_tmu
  with_reducible refine State.allocator_only ?_ hfab
  with_reducible refine State.addrConflict_only ?_ hfab hregs_fab
  with_reducible exact State.fabTopo_only h hregs_fab hregs_fn

theorem State.linkDown_only {a1 a2}  (h : Only ps s0 s) (hcounts : Part.counts ∈ ps) (hfab : Part.fab ∈ ps) (hhalves : Part.halves ∈ ps) (hkeys : Part.keys ∈ ps) (hlinks : Part.links ∈ ps) (hout : Part.out ∈ ps) (hregs_fab : Part.regs .fab ∈ ps) (hregs_fn : Part.regs .fn ∈ ps) (hregs_tmu : Part.regs .tmu ∈ ps) : Only ps s0 (State.linkDown s a1 a2) := by
  unfold State.linkDown
  extract_lets up1 s2 s3 l4 s5 s6 s7 s8
  have hs2 : Only ps s0 s2 := by
    with_reducible exact State.endWire_only h hcounts hhalves hlinks
  clear_value s2
  have hs3 : Only ps s0 s3 := by
    with_reducible exact State.dropLinkKey_only hs2 hkeys hlinks
  clear_value s3
  have hs5 : Only ps s0 s5 := by
    with_reducible exact State.setLink_only hs3 hlinks
  clear_value s5
  have hs6 : Only ps s0 s6 := by
    refine Only.ite ?_ ?_
    · with_reducible exact State.emit_only hs5 hout
    · exact hs5
  clear_value s6
  have hs7 : Only ps s0 s7 := by
    with_reducible exact State.wrapQueue_only hs6 hcounts hhalves hlinks hout
  clear_value s7
  have hs8 : Only ps s0 s8 := by
    refine Only.ite ?_ ?_
    · with_reducible refine State.newTopo_only ?_ hfab hlinks hout
      with_reducible exact State.topologyChanged_only hs7 hfab hregs_fab hregs_fn hregs_tmu
    · with_reducible exact State.newTopo_only hs7 hfab hlinks hout
  clear_value s8
  with_reducible exact State.fabEvt_only hs8 hregs_fab

theorem State.writeRlCfg_only {a1 a2 a3}  (h : Only ps s0 s) (hcounts : Part.counts ∈ ps) (hfab : Part.fab ∈ ps) (hhalves : Part.halves ∈ ps) (hintake : Part.intake ∈ ps) (hkeys : Part.keys ∈ ps) (hlinks : Part.links ∈ ps) (hout : Part.out ∈ ps) (hregs_fab : Part.regs .fab ∈ ps) (hregs_fn : Part.regs .fn ∈ ps) (hregs_link : Part.regs .link ∈ ps) (hregs_tmu : Part.regs .tmu ∈ ps) : Only ps s0 (State.writeRlCfg s a1 a2 a3) := by
  unfold State.writeRlCfg
  extract_lets r1 was2 s3 x4
  have hs3 : Only ps s0 s3 := by
    exact State.writeFields_only h hregs_link hintake
  clear_value s3
  refine Only.ite ?_ ?_
  · with_reducible refine State.insertLinks_only ?_ hfab hlinks
    with_reducible refine State.setLink_only ?_ hlinks
    exact State.setRf_only hs3 hregs_link
  · refine Only.ite ?_ ?_
    · with_reducible refine State.insertLinks_only ?_ hfab hlinks
      with_reducible refine State.linkDown_only ?_ hcounts hfab hhalves hkeys hlinks hout hregs_fab hregs_fn hregs_tmu
      exact State.setRf_only hs3 hregs_link
    · exact hs3

theorem State.writeFabCfg_only {a1 a2}  (h : Only ps s0 s) (hfab : Part.fab ∈ ps) (hintake : Part.intake ∈ ps) (hlinks : Part.links ∈ ps) (hregs_fab : Part.regs .fab ∈ ps) (hregs_tmu : Part.regs .tmu ∈ ps) : Only ps s0 (State.writeFabCfg s a1 a2) := by
  unfold State.writeFabCfg
  extract_lets r1 was2 en3 s4 s5 fixed6 fixed7 a8 new9 x10 s11 s12 s13
  have hs4 : Only ps s0 s4 := by
    exact State.writeFields_only h hregs_fab hintake
  clear_value s4
  have hs5 : Only ps s0 s5 := by
    exact State.setRf_only hs4 hregs_fab
  clear_value s5
  have hs11 : Only ps s0 s11 := by
    refine (hs5.fab hfab)
  clear_value s11
  have hs12 : Only ps s0 s12 := by
    refine Only.ite ?_ ?_
    · exact hs11
    · with_reducible exact State.fabEvt_only hs11 hregs_fab
  clear_value s12
  have hs13 : Only ps s0 s13 := by
    with_reducible refine State.insertLinks_only ?_ hfab hlinks
    with_reducible exact State.addrConflict_only hs12 hfab hregs_fab
  clear_value s13
  refine Only.ite ?_ ?_
  · with_reducible refine State.fabricTime_only ?_ hfab hregs_fab hregs_tmu
    with_reducible exact State.allocator_only hs13 hfab
  · exact hs13

theorem State.writeFabTime_only {a1 a2}  (h : Only ps s0 s) (hfab : Part.fab ∈ ps) (hintake : Part.intake ∈ ps) (hregs_fab : Part.regs .fab ∈ ps) (hregs_tmu : Part.regs .tmu ∈ ps) : Only ps s0 (State.writeFabTime s a1 a2) := by
  unfold State.writeFabTime
  with_reducible refine State.fabricTime_only ?_ hfab hregs_fab hregs_tmu
  exact State.writeFields_only h hregs_fab hintake

theorem State.stormVector_only {a1 a2 a3}  (h : Only ps s0 s) (hevc : Part.evc ∈ ps) (hintake : Part.intake ∈ ps) : Only ps s0 (State.stormVector s a1 a2 a3) := by
  unfold State.stormVector
  extract_lets n1 l2 x3 s4 x5
  have hs4 : Only ps s0 s4 := by
    refine (h.evc hevc)
  clear_value s4
  refine Only.ite ?_ ?_
  · exact h
  · refine Only.ite ?_ ?_
    · with_reducible refine State.record_only ?_ hintake
      refine (hs4.evc hevc)
    · exact hs4

theorem State.sendVector_only {a1 a2 a3}  (h : Only ps s0 s) (hevc : Part.evc ∈ ps) (hintake : Part.intake ∈ ps) (hout : Part.out ∈ ps) : Only ps s0 (State.sendVector s a1 a2 a3) := by
  unfold State.sendVector
  extract_lets c1 st2 x3 s4
  have hs4 : Only ps s0 s4 := by
    refine (h.evc hevc)
  clear_value s4
  with_reducible refine State.stormVector_only ?_ hevc hintake
  with_reducible exact State.emit_only hs4 hout

theorem State.offerVector_only {a1 a2 a3 a4}  (h : Only ps s0 s) (hevc : Part.evc ∈ ps) (hintake : Part.intake ∈ ps) (hout : Part.out ∈ ps) : Only ps s0 (State.offerVector s a1 a2 a3 a4) := by
  unfold State.offerVector
  dsimp only
  split
  · rename_i b1 heq2
    exact h
  · rename_i b3 y4 heq5
    refine Only.ite ?_ ?_
    · with_reducible exact State.sendVector_only h hevc hintake hout
    · refine (h.evc hevc)

theorem State.vecEoi_only {a1}  (h : Only ps s0 s) (hevc : Part.evc ∈ ps) (hintake : Part.intake ∈ ps) (hout : Part.out ∈ ps) : Only ps s0 (State.vecEoi s a1) := by
  unfold State.vecEoi
  extract_lets o1 x2
  dsimp only
  split
  · rename_i x3 heq4
    with_reducible exact State.record_only h hintake
  · rename_i x5 head6 rest7 heq8
    refine Only.ite ?_ ?_
    · refine (h.evc hevc)
    · refine Only.ite ?_ ?_
      · refine (h.evc hevc)
      · with_reducible refine State.offerVector_only ?_ hevc hintake hout
        refine (h.evc hevc)

theorem State.eoiOp_only {a1 a2 a3}  (h : Only ps s0 s) (hcairn : Part.cairn ∈ ps) (hcounts : Part.counts ∈ ps) (heths : Part.eths ∈ ps) (hevc : Part.evc ∈ ps) (hfree : Part.free ∈ ps) (hfuncs : Part.funcs ∈ ps) (hhalves : Part.halves ∈ ps) (hintake : Part.intake ∈ ps) (hobjs : Part.objs ∈ ps) (hout : Part.out ∈ ps) (hports : Part.ports ∈ ps) (hregs_fn : Part.regs .fn ∈ ps) (hregs_ring : Part.regs .ring ∈ ps) (hrings : Part.rings ∈ ps) (htrust : Part.trust ∈ ps) : Only ps s0 (State.eoiOp s a1 a2 a3) := by
  unfold State.eoiOp
  dsimp only
  split
  · rename_i x1 heq2
    with_reducible exact State.record_only h hintake
  · rename_i x3 src4 snd5 rest6 heq7
    refine Only.ite ?_ ?_
    · with_reducible refine State.readIndex_only ?_ hcairn hcounts heths hfree hfuncs hhalves hintake hobjs hout hports hregs_fn hregs_ring hrings htrust
      refine (h.evc hevc)
    · refine (h.evc hevc)

theorem execEvcEoi_only {a1 a2 a3}  (h : Only ps s0 s) (hcairn : Part.cairn ∈ ps) (hcounts : Part.counts ∈ ps) (heths : Part.eths ∈ ps) (hevc : Part.evc ∈ ps) (hfree : Part.free ∈ ps) (hfuncs : Part.funcs ∈ ps) (hhalves : Part.halves ∈ ps) (hintake : Part.intake ∈ ps) (hmay : Part.may ∈ ps) (hobjs : Part.objs ∈ ps) (hout : Part.out ∈ ps) (hports : Part.ports ∈ ps) (hregs_fn : Part.regs .fn ∈ ps) (hregs_guard : Part.regs .guard ∈ ps) (hregs_ring : Part.regs .ring ∈ ps) (hrings : Part.rings ∈ ps) (htrust : Part.trust ∈ ps) : Result.All (Only ps s0) (execEvcEoi a1 a2 a3 s) := by
  unfold execEvcEoi
  split
  · rename_i x1 t2
    with_reducible refine finish_only ?_ hevc hfree hfuncs hintake hmay hout hregs_guard
    with_reducible exact State.vecEoi_only h hevc hintake hout
  · rename_i x3 t4 v5
    refine Result.all_ite ?_ ?_
    · refine Result.all_next ?_
      exact h
    · refine Result.all_ite ?_ ?_
      · with_reducible refine finish_only ?_ hevc hfree hfuncs hintake hmay hout hregs_guard
        with_reducible exact State.crossDomain_only h hintake
      · with_reducible refine finish_only ?_ hevc hfree hfuncs hintake hmay hout hregs_guard
        with_reducible exact State.eoiOp_only h hcairn hcounts heths hevc hfree hfuncs hhalves hintake hobjs hout hports hregs_fn hregs_ring hrings htrust

theorem State.writeApply_only {a1 a2}  (h : Only ps s0 s) (hcairn : Part.cairn ∈ ps) (hcounts : Part.counts ∈ ps) (heths : Part.eths ∈ ps) (hflt : Part.flt ∈ ps) (hfree : Part.free ∈ ps) (hfuncs : Part.funcs ∈ ps) (hgroups : Part.groups ∈ ps) (hhalves : Part.halves ∈ ps) (hintake : Part.intake ∈ ps) (hobjs : Part.objs ∈ ps) (hout : Part.out ∈ ps) (hpartition : Part.partition ∈ ps) (hports : Part.ports ∈ ps) (hregs_ep : Part.regs .ep ∈ ps) (hregs_flt : Part.regs .flt ∈ ps) (hregs_fn : Part.regs .fn ∈ ps) (hregs_grp : Part.regs .grp ∈ ps) (hregs_port : Part.regs .port ∈ ps) (hregs_ring : Part.regs .ring ∈ ps) (hrings : Part.rings ∈ ps) (hspur : Part.spur ∈ ps) (htarn : Part.tarn ∈ ps) (htrust : Part.trust ∈ ps) (hunits : Part.units ∈ ps) : Only ps s0 (State.writeApply s a1 a2) := by
  unfold State.writeApply
  refine Only.ite ?_ ?_
  · exact h
  · refine Only.ite ?_ ?_
    · with_reducible exact State.refuse_only h hintake
    · extract_lets b1 r2 x3 s4
      have hs4 : Only ps s0 s4 := by
        refine (h.belay (.inr hpartition) (.inl rfl) (.inl rfl) (.inr htrust))
      clear_value s4
      refine Only.ite ?_ ?_
      · with_reducible exact State.applyRecord_only hs4 hcairn hcounts heths hflt hfree hfuncs hgroups hhalves hobjs hout hpartition hports hregs_ep hregs_flt hregs_fn hregs_grp hregs_port hregs_ring hrings hspur htarn htrust hunits
      · exact hs4

theorem State.bar2Write_only {a1 a2 a3 a4}  (h : Only ps s0 s) (hintake : Part.intake ∈ ps) (htarn : Part.tarn ∈ ps) : Only ps s0 (State.bar2Write s a1 a2 a3 a4) := by
  unfold State.bar2Write
  extract_lets o1 bs2 own3 cells4 t5 s6
  have hs6 : Only ps s0 s6 := by
    refine (h.tarn htarn)
  clear_value s6
  refine Only.ite ?_ ?_
  · with_reducible exact State.tarnWrite_only h htarn
  · refine Only.ite ?_ ?_
    · exact hs6
    · with_reducible exact State.crossDomain_only hs6 hintake

theorem State.vectorWord_only {a1 a2 a3}  (h : Only ps s0 s) (hfuncs : Part.funcs ∈ ps) : Only ps s0 (State.vectorWord s a1 a2 a3) := by
  unfold State.vectorWord
  extract_lets t1 f2 sh3 m4
  refine Only.ite ?_ ?_
  · exact h
  · refine Only.ite ?_ ?_
    · with_reducible exact State.setFunc_only h hfuncs
    · with_reducible exact State.setFunc_only h hfuncs

theorem State.bar4Write_only {a1 a2 a3 a4}  (h : Only ps s0 s) (hfuncs : Part.funcs ∈ ps) (hout : Part.out ∈ ps) : Only ps s0 (State.bar4Write s a1 a2 a3 a4) := by
  unfold State.bar4Write
  extract_lets o1 s2 s3
  have hs2 : Only ps s0 s2 := by
    with_reducible exact State.vectorWord_only h hfuncs
  clear_value s2
  have hs3 : Only ps s0 s3 := by
    refine Only.ite ?_ ?_
    · with_reducible exact State.vectorWord_only hs2 hfuncs
    · exact hs2
  clear_value s3
  with_reducible exact State.flushVectors_only hs3 hfuncs hout

theorem State.beginActivation_only {a1 a2 a3 a4 a5 a6}  (h : Only ps s0 s) (hcairn : Part.cairn ∈ ps) : Only ps s0 (State.beginActivation s a1 a2 a3 a4 a5 a6) := by
  unfold State.beginActivation
  extract_lets b1 inPlace2 h3 r4 r5 s7 x8
  have hs7 : Only ps s0 s7 := by
    refine Only.ite ?_ ?_
    · with_reducible exact State.setComp_only h hcairn
    · exact h
  clear_value s7
  with_reducible exact State.setCairn_only hs7 hcairn

theorem State.beginTest_only {a1}  (h : Only ps s0 s) (hcairn : Part.cairn ∈ ps) (hregs_dev : Part.regs .dev ∈ ps) (hspur : Part.spur ∈ ps) : Only ps s0 (State.beginTest s a1) := by
  unfold State.beginTest
  extract_lets wait1 start2 e3 x4 s5
  have hs5 : Only ps s0 s5 := by
    unfold s5
    dsimp only [wait1]
    with_reducible exact State.setCairn_only h hcairn
  clear_value s5
  refine Only.ite ?_ ?_
  · refine Only.ite ?_ ?_
    · dsimp only [start2]
      with_reducible exact State.setCairn_only h hcairn
    · dsimp only [wait1]
      with_reducible exact State.setCairn_only h hcairn
  · refine Only.ite ?_ ?_
    · refine Only.ite ?_ ?_
      · refine Only.ite ?_ ?_
        · with_reducible exact State.swapChoose_only hs5 hregs_dev hspur
        · exact hs5
      · dsimp only [start2]
        with_reducible refine State.setCairn_only ?_ hcairn
        with_reducible exact State.setEngine_only h hspur
    · refine Only.ite ?_ ?_
      · dsimp only [start2]
        with_reducible exact State.setCairn_only h hcairn
      · dsimp only [wait1]
        with_reducible exact State.setCairn_only h hcairn

theorem State.bootCores_only  (h : Only ps s0 s) (hspur : Part.spur ∈ ps) : Only ps s0 (State.bootCores s) := by
  unfold State.bootCores
  extract_lets base1 x2
  refine Only.ite ?_ ?_
  · refine (h.spur hspur)
  · refine (h.spur hspur)

theorem State.bootEngines_only  (h : Only ps s0 s) (hspur : Part.spur ∈ ps) : Only ps s0 (State.bootEngines s) := by
  unfold State.bootEngines
  extract_lets base1 images2 x3
  refine (h.spur hspur)

theorem State.setStage_only {a1}  (h : Only ps s0 s) (hdev : Part.dev ∈ ps) : Only ps s0 (State.setStage s a1) := by
  unfold State.setStage
  extract_lets x1
  refine (h.dev hdev)

theorem State.bootVid_only  (h : Only ps s0 s) (hcairn : Part.cairn ∈ ps) (hregs_cairn : Part.regs .cairn ∈ ps) (hregs_dev : Part.regs .dev ∈ ps) : Only ps s0 (State.bootVid s) := by
  unfold State.bootVid
  extract_lets v1 s2 x3 s4 x5
  have hs2 : Only ps s0 s2 := by
    exact State.setRf_only h hregs_cairn
  clear_value s2
  have hs4 : Only ps s0 s4 := by
    with_reducible exact State.setCairn_only hs2 hcairn
  clear_value s4
  refine Only.ite ?_ ?_
  · with_reducible refine State.setCairn_only ?_ hcairn
    exact State.setRf_only hs4 hregs_dev
  · exact hs4

theorem State.setAbsent_only {a1}  (h : Only ps s0 s) (hdev : Part.dev ∈ ps) : Only ps s0 (State.setAbsent s a1) := by
  unfold State.setAbsent
  extract_lets x1
  refine (h.dev hdev)

theorem State.bootSlot_only {a1}  (h : Only ps s0 s) (hcairn : Part.cairn ∈ ps) (hdev : Part.dev ∈ ps) (hintake : Part.intake ∈ ps) (hregs_fn : Part.regs .fn ∈ ps) : Only ps s0 (State.bootSlot s a1) := by
  unfold State.bootSlot
  extract_lets r1 s2 s3
  have hs2 : Only ps s0 s2 := by
    with_reducible exact State.setComp_only h hcairn
  clear_value s2
  have hs3 : Only ps s0 s3 := by
    refine Only.ite ?_ ?_
    · with_reducible refine State.crnEvent_only ?_ hcairn hregs_fn
      with_reducible exact State.record_only hs2 hintake
    · exact hs2
  clear_value s3
  refine Only.ite ?_ ?_
  · with_reducible exact State.setAbsent_only hs3 hdev
  · exact hs3

theorem State.readLayout_only  (h : Only ps s0 s) (hcairn : Part.cairn ∈ ps) : Only ps s0 (State.readLayout s) := by
  unfold State.readLayout
  extract_lets m1 x2
  with_reducible exact State.setCairn_only h hcairn

theorem State.nowReady_only  (h : Only ps s0 s) (hdev : Part.dev ∈ ps) (hfab : Part.fab ∈ ps) (hfree : Part.free ∈ ps) : Only ps s0 (State.nowReady s) := by
  unfold State.nowReady
  extract_lets x1 x2 x3
  have hx1 : Only ps s0 x1 := by
    with_reducible exact State.draw_only h hfree
  clear_value x1
  exact hx1.trans ⟨rfl, fun p hp => by cases p <;> first | exact absurd ‹_› hp | exact rfl | exact fun _ => rfl | exact fun _ _ => rfl | exact ⟨rfl, rfl, rfl⟩ | exact ⟨rfl, rfl, rfl, rfl, rfl, rfl⟩ | exact ⟨rfl, rfl, rfl, rfl, rfl, rfl, rfl⟩⟩

theorem State.recoveryPath_only  (h : Only ps s0 s) (hdev : Part.dev ∈ ps) (hfab : Part.fab ∈ ps) (hfree : Part.free ∈ ps) (hspur : Part.spur ∈ ps) : Only ps s0 (State.recoveryPath s) := by
  unfold State.recoveryPath
  extract_lets x1 s2 x3
  have hs2 : Only ps s0 s2 := by
    refine (h.spur hspur)
  clear_value s2
  with_reducible refine State.nowReady_only ?_ hdev hfab hfree
  refine (hs2.dev hdev)

theorem State.bootStep_only  (h : Only ps s0 s) (hcairn : Part.cairn ∈ ps) (hdev : Part.dev ∈ ps) (hfab : Part.fab ∈ ps) (hfree : Part.free ∈ ps) (hintake : Part.intake ∈ ps) (hregs_cairn : Part.regs .cairn ∈ ps) (hregs_dev : Part.regs .dev ∈ ps) (hregs_fn : Part.regs .fn ∈ ps) (hspur : Part.spur ∈ ps) : Only ps s0 (State.bootStep s) := by
  unfold State.bootStep
  refine Only.ite ?_ ?_
  · exact h
  · dsimp only
    split
    · rename_i x1 heq2
      with_reducible exact State.setStage_only h hdev
    · rename_i x3 heq4
      with_reducible refine State.setStage_only ?_ hdev
      with_reducible exact State.bootVid_only h hcairn hregs_cairn hregs_dev
    · rename_i x5 heq6
      refine Only.ite ?_ ?_
      · with_reducible refine State.recoveryPath_only ?_ hdev hfab hfree hspur
        with_reducible refine State.bootSlot_only ?_ hcairn hdev hintake hregs_fn
        with_reducible refine State.readLayout_only ?_ hcairn
        with_reducible exact State.bootVid_only h hcairn hregs_cairn hregs_dev
      · with_reducible refine State.setStage_only ?_ hdev
        with_reducible refine State.setCairn_only ?_ hcairn
        with_reducible refine State.bootSlot_only ?_ hcairn hdev hintake hregs_fn
        with_reducible refine State.readLayout_only ?_ hcairn
        with_reducible exact State.bootVid_only h hcairn hregs_cairn hregs_dev
    · rename_i x7 heq8
      with_reducible refine State.setStage_only ?_ hdev
      with_reducible refine State.setCairn_only ?_ hcairn
      with_reducible exact State.bootSlot_only h hcairn hdev hintake hregs_fn
    · rename_i x9 heq10
      with_reducible refine State.setStage_only ?_ hdev
      with_reducible refine State.bootCores_only ?_ hspur
      with_reducible exact State.bootSlot_only h hcairn hdev hintake hregs_fn
    · rename_i x11 heq12
      with_reducible refine State.setStage_only ?_ hdev
      with_reducible refine State.bootEngines_only ?_ hspur
      refine Only.foldl ?_ ?_
      · exact h
      · intro s13 x14 k15
        with_reducible exact State.bootSlot_only k15 hcairn hdev hintake hregs_fn
    · rename_i x16 heq17
      with_reducible exact State.nowReady_only h hdev hfab hfree

theorem State.bootSteps_only {a1} (h : Only ps s0 s) (hcairn : Part.cairn ∈ ps) (hdev : Part.dev ∈ ps) (hfab : Part.fab ∈ ps) (hfree : Part.free ∈ ps) (hintake : Part.intake ∈ ps) (hregs_cairn : Part.regs .cairn ∈ ps) (hregs_dev : Part.regs .dev ∈ ps) (hregs_fn : Part.regs .fn ∈ ps) (hspur : Part.spur ∈ ps) : Only ps s0 (State.bootSteps s a1) := by
  induction a1 generalizing s with
  | zero => exact h
  | succ n ih => exact ih (State.bootStep_only h hcairn hdev hfab hfree hintake hregs_cairn hregs_dev hregs_fn hspur)

theorem State.bootOp_only  (h : Only ps s0 s) (hcairn : Part.cairn ∈ ps) (hdev : Part.dev ∈ ps) (hfab : Part.fab ∈ ps) (hfree : Part.free ∈ ps) (hintake : Part.intake ∈ ps) (hregs_cairn : Part.regs .cairn ∈ ps) (hregs_dev : Part.regs .dev ∈ ps) (hregs_fn : Part.regs .fn ∈ ps) (hspur : Part.spur ∈ ps) : Only ps s0 (State.bootOp s) := by
  unfold State.bootOp
  with_reducible exact State.bootSteps_only h hcairn hdev hfab hfree hintake hregs_cairn hregs_dev hregs_fn hspur

theorem State.emitRidge_only {a1 a2 a3}  (h : Only ps s0 s) (hlinks : Part.links ∈ ps) (hout : Part.out ∈ ps) : Only ps s0 (State.emitRidge s a1 a2 a3) := by
  unfold State.emitRidge
  extract_lets l1
  refine Only.ite ?_ ?_
  · with_reducible exact State.emit_only h hout
  · dsimp only
    split
    · rename_i x2 slot3 heq4
      with_reducible refine State.setLink_only ?_ hlinks
      with_reducible exact State.emit_only h hout
    · rename_i x5 heq6
      exact h

theorem State.takeWire_only {a1 a2 a3 a4}  (h : Only ps s0 s) (hcounts : Part.counts ∈ ps) (hhalves : Part.halves ∈ ps) (hlinks : Part.links ∈ ps) : Only ps s0 (State.takeWire s a1 a2 a3 a4) := by
  unfold State.takeWire
  extract_lets s1 l2 c3
  have hs1 : Only ps s0 s1 := by
    with_reducible exact State.endWire_only h hcounts hhalves hlinks
  clear_value s1
  with_reducible exact State.setLink_only hs1 hlinks

theorem State.brokenCopy_only {a1 a2}  (h : Only ps s0 s) (hcounts : Part.counts ∈ ps) (hhalves : Part.halves ∈ ps) (hlinks : Part.links ∈ ps) (hout : Part.out ∈ ps) : Only ps s0 (State.brokenCopy s a1 a2) := by
  unfold State.brokenCopy
  extract_lets ends1 g2
  with_reducible refine State.emitRidge_only ?_ hlinks hout
  with_reducible exact State.takeWire_only h hcounts hhalves hlinks

theorem State.enterHold_only {a1 a2}  (h : Only ps s0 s) (hcounts : Part.counts ∈ ps) (hhalves : Part.halves ∈ ps) (hout : Part.out ∈ ps) (hports : Part.ports ∈ ps) (hregs_port : Part.regs .port ∈ ps) (hrings : Part.rings ∈ ps) : Only ps s0 (State.enterHold s a1 a2) := by
  unfold State.enterHold
  extract_lets x1 due2 s3
  have hs3 : Only ps s0 s3 := by
    with_reducible exact State.showPort_only h hports hregs_port
  clear_value s3
  split
  · rename_i x4 o5 heq6
    with_reducible exact State.complete_only hs3 hcounts hhalves hout hrings
  · rename_i x7 heq8
    exact hs3

theorem State.holdArrives_only {a1}  (h : Only ps s0 s) (hcounts : Part.counts ∈ ps) (hhalves : Part.halves ∈ ps) (hout : Part.out ∈ ps) (hports : Part.ports ∈ ps) (hregs_port : Part.regs .port ∈ ps) (hrings : Part.rings ∈ ps) : Only ps s0 (State.holdArrives s a1) := by
  unfold State.holdArrives
  split
  · rename_i x1 t2 heq3
    refine Only.ite ?_ ?_
    · with_reducible exact State.enterHold_only h hcounts hhalves hout hports hregs_port hrings
    · exact h
  · rename_i x4 heq5
    exact h

theorem State.busWake_only {a1}  (h : Only ps s0 s) (hcounts : Part.counts ∈ ps) (hhalves : Part.halves ∈ ps) (hout : Part.out ∈ ps) (hports : Part.ports ∈ ps) (hregs_port : Part.regs .port ∈ ps) (hrings : Part.rings ∈ ps) : Only ps s0 (State.busWake s a1) := by
  unfold State.busWake
  extract_lets code1 s2
  have hs2 : Only ps s0 s2 := by
    with_reducible exact State.portEvt_only h hregs_port
  clear_value s2
  refine Only.ite ?_ ?_
  · refine Only.ite ?_ ?_
    · with_reducible refine State.holdArrives_only ?_ hcounts hhalves hout hports hregs_port hrings
      with_reducible exact State.portGoes_only hs2 hports hregs_port
    · with_reducible refine State.cfgErr_only ?_ hports hregs_port
      with_reducible exact State.toAwake_only hs2 hports hregs_port
  · with_reducible exact State.toAwake_only hs2 hports hregs_port

theorem State.captureEdge_only {a1 a2 a3}  (h : Only ps s0 s) (htmu : Part.tmu ∈ ps) : Only ps s0 (State.captureEdge s a1 a2 a3) := by
  unfold State.captureEdge
  extract_lets x1 x2 put3 soon4 x5 t6
  refine Only.ite ?_ ?_
  · dsimp only [put3]
    with_reducible exact State.setTmu_only h htmu
  · refine Only.ite ?_ ?_
    · dsimp only [put3]
      with_reducible exact State.setTmu_only h htmu
    · dsimp only [put3]
      with_reducible exact State.setTmu_only h htmu

theorem State.challengeOp_only {a1 a2}  (h : Only ps s0 s) (hcounts : Part.counts ∈ ps) (hfree : Part.free ∈ ps) (hhalves : Part.halves ∈ ps) (hout : Part.out ∈ ps) (hrings : Part.rings ∈ ps) (htrust : Part.trust ∈ ps) : Only ps s0 (State.challengeOp s a1 a2) := by
  unfold State.challengeOp
  refine Only.ite ?_ ?_
  · with_reducible exact State.complete_only h hcounts hhalves hout hrings
  · refine Only.ite ?_ ?_
    · with_reducible exact State.complete_only h hcounts hhalves hout hrings
    · refine Only.ite ?_ ?_
      · with_reducible exact State.complete_only h hcounts hhalves hout hrings
      · extract_lets c1 s2 x3 s4
        have hs2 : Only ps s0 s2 := by
          with_reducible exact State.draw_only h hfree
        clear_value s2
        have hs4 : Only ps s0 s4 := by
          refine (hs2.belay (.inl ⟨rfl, rfl, rfl⟩) (.inl rfl) (.inl rfl) (.inr htrust))
        clear_value s4
        with_reducible refine State.complete_only ?_ hcounts hhalves hout hrings
        with_reducible exact State.hostWrite_only hs4 hout

theorem State.clearTenantRings_only  (h : Only ps s0 s) (hregs_ring : Part.regs .ring ∈ ps) (hrings : Part.rings ∈ ps) : Only ps s0 (State.clearTenantRings s) := by
  unfold State.clearTenantRings
  extract_lets e mine
  refine h.trans ⟨rfl, fun p hp => ?_⟩
  cases p with
  | regs b =>
    intro r hr
    have hc : ∀ q, (match q with | Reg.ring n _ => !mine n.val | _ => false) = true → Part.regs (blockOf q) ∈ ps := by
      intro q hq
      cases q with
      | ring n q => exact hregs_ring
      | _ => cases hq
    exact (RegFile.get_clear_or s.regs _ hc r).resolve_right (hr ▸ hp)
  | _ => first
      | exact absurd ‹_› hp | exact rfl | exact fun _ => rfl | exact fun _ _ => rfl | exact ⟨rfl, rfl, rfl⟩ | exact ⟨rfl, rfl, rfl, rfl, rfl, rfl⟩ | exact ⟨rfl, rfl, rfl, rfl, rfl, rfl, rfl⟩

theorem State.fetch_only {a1 a2 a3}  (h : Only ps s0 s) (hout : Part.out ∈ ps) (hrings : Part.rings ∈ ps) : Only ps s0 (State.fetch s a1 a2 a3) := by
  unfold State.fetch
  extract_lets i1 r2 s3
  have hs3 : Only ps s0 s3 := by
    with_reducible exact State.setRing_only h hrings
  clear_value s3
  with_reducible exact State.doorbell_only hs3 hout

theorem State.command_only {f : State → Op → State} {a1 a2 a3 a4}  (h : Only ps s0 s) (hf : ∀ y o, Only ps s0 y → Only ps s0 (f y o)) (hcounts : Part.counts ∈ ps) (hhalves : Part.halves ∈ ps) (hout : Part.out ∈ ps) (hrings : Part.rings ∈ ps) : Only ps s0 (State.command s a1 a2 a3 f a4) := by
  unfold State.command
  extract_lets o1
  refine Only.ite ?_ ?_
  · exact h
  · refine Only.ite ?_ ?_
    · with_reducible refine State.complete_only ?_ hcounts hhalves hout hrings
      with_reducible exact State.fetch_only h hout hrings
    · refine hf _ _ ?_
      with_reducible exact State.fetch_only h hout hrings

theorem State.configReset_only  (h : Only ps s0 s) (hdev : Part.dev ∈ ps) (hfuncs : Part.funcs ∈ ps) : Only ps s0 (State.configReset s) := by
  unfold State.configReset
  extract_lets x1
  exact h.trans ⟨rfl, fun p hp => by cases p <;> first | exact absurd ‹_› hp | exact rfl | exact fun _ => rfl | exact fun _ _ => rfl | exact ⟨rfl, rfl, rfl⟩ | exact ⟨rfl, rfl, rfl, rfl, rfl, rfl⟩ | exact ⟨rfl, rfl, rfl, rfl, rfl, rfl, rfl⟩⟩

theorem State.control_only {a1 a2}  (h : Only ps s0 s) (hout : Part.out ∈ ps) : Only ps s0 (State.control s a1 a2) := by
  unfold State.control
  with_reducible exact State.answer_only h hout

theorem State.spoil_only {a1}  (h : Only ps s0 s) (hcairn : Part.cairn ∈ ps) : Only ps s0 (State.spoil s a1) := by
  unfold State.spoil
  extract_lets x1 x2
  refine (h.cairn hcairn)

theorem State.windowRecord_only {a1 a2}  (h : Only ps s0 s) (hintake : Part.intake ∈ ps) : Only ps s0 (State.windowRecord s a1 a2) := by
  unfold State.windowRecord
  split
  · rename_i x1 addr2 x3
    with_reducible exact State.record_only h hintake
  · rename_i x4 x5
    exact h

theorem State.coreLost_only {a1 a2}  (h : Only ps s0 s) (hcairn : Part.cairn ∈ ps) (hgroups : Part.groups ∈ ps) (hintake : Part.intake ∈ ps) (hregs_dev : Part.regs .dev ∈ ps) (hspur : Part.spur ∈ ps) : Only ps s0 (State.coreLost s a1 a2) := by
  unfold State.coreLost
  extract_lets x1 code2 s3 s4
  have hs3 : Only ps s0 s3 := by
    with_reducible refine State.spoil_only ?_ hcairn
    with_reducible exact State.setCore_only h hspur
  clear_value s3
  have hs4 : Only ps s0 s4 := by
    with_reducible refine State.record_only ?_ hintake
    with_reducible exact State.seEvt_only hs3 hregs_dev
  clear_value s4
  refine Only.ite ?_ ?_
  · exact h
  · with_reducible refine State.haltDone_only ?_ hregs_dev hspur
    with_reducible refine State.moveDuties_only ?_ hgroups hspur
    with_reducible exact State.windowRecord_only hs4 hintake

theorem State.countBucket_only {a1 a2 a3}  (h : Only ps s0 s) (hcounts : Part.counts ∈ ps) (hhalves : Part.halves ∈ ps) : Only ps s0 (State.countBucket s a1 a2 a3) := by
  unfold State.countBucket
  split
  · rename_i x1 m2 heq3
    with_reducible exact State.countEth_only h hcounts hhalves
  · rename_i x4 heq5
    exact h

theorem State.countDestroyed_only {a1}  (h : Only ps s0 s) (hcounts : Part.counts ∈ ps) (hhalves : Part.halves ∈ ps) (hports : Part.ports ∈ ps) : Only ps s0 (State.countDestroyed s a1) := by
  unfold State.countDestroyed
  extract_lets x1
  dsimp only
  split
  · rename_i x2 heq3
    exact h
  · rename_i x4 i5 heq6
    split
    · rename_i x7 c8 heq9
      refine Only.ite ?_ ?_
      · exact h
      · with_reducible refine State.setPort_only ?_ hports
        refine Only.ite ?_ ?_
        · exact h
        · with_reducible exact State.countPort_only h hcounts hhalves
    · rename_i x10 heq11
      exact h

theorem State.pauseFrame_only {a1 a2 a3}  (h : Only ps s0 s) (hcounts : Part.counts ∈ ps) (heths : Part.eths ∈ ps) (hhalves : Part.halves ∈ ps) : Only ps s0 (State.pauseFrame s a1 a2 a3) := by
  unfold State.pauseFrame
  extract_lets s1 x2
  have hs1 : Only ps s0 s1 := by
    with_reducible exact State.pauseSettle_only h hcounts heths hhalves
  clear_value s1
  refine Only.ite ?_ ?_
  · with_reducible refine State.ethKick_only ?_ heths
    with_reducible exact State.endPause_only hs1 hcounts heths hhalves
  · with_reducible exact State.setEth_only hs1 heths

theorem State.ctrlFrame_only {a1 a2 a3 a4}  (h : Only ps s0 s) (hcounts : Part.counts ∈ ps) (heths : Part.eths ∈ ps) (hhalves : Part.halves ∈ ps) : Only ps s0 (State.ctrlFrame s a1 a2 a3 a4) := by
  unfold State.ctrlFrame
  extract_lets da1 exact2 mine3 s4 s5
  have hs4 : Only ps s0 s4 := by
    with_reducible exact State.countEth_only h hcounts hhalves
  clear_value s4
  have hs5 : Only ps s0 s5 := by
    with_reducible exact State.countEth_only h hcounts hhalves
  clear_value s5
  refine Only.ite ?_ ?_
  · refine Only.ite ?_ ?_
    · with_reducible exact State.pauseFrame_only hs4 hcounts heths hhalves
    · exact hs4
  · refine Only.ite ?_ ?_
    · with_reducible exact State.countEth_only hs5 hcounts hhalves
    · exact hs5

theorem State.ignoreBranch_only {a1 a2}  (h : Only ps s0 s) (hgroups : Part.groups ∈ ps) : Only ps s0 (State.ignoreBranch s a1 a2) := by
  unfold State.ignoreBranch
  extract_lets x1
  with_reducible exact State.setBranch_only h hgroups

theorem State.cutFrame_only {a1 a2}  (h : Only ps s0 s) (hgroups : Part.groups ∈ ps) (hout : Part.out ∈ ps) : Only ps s0 (State.cutFrame s a1 a2) := by
  unfold State.cutFrame
  extract_lets s1
  have hs1 : Only ps s0 s1 := by
    refine Only.foldl ?_ ?_
    · exact h
    · intro s2 x3 k4
      with_reducible exact State.emit_only k4 hout
  clear_value s1
  with_reducible refine State.ignoreBranch_only ?_ hgroups
  with_reducible exact State.refError_only hs1 hgroups

theorem State.cutOutput_only {a1}  (h : Only ps s0 s) (hports : Part.ports ∈ ps) : Only ps s0 (State.cutOutput s a1) := by
  unfold State.cutOutput
  extract_lets x1
  with_reducible exact State.setPort_only h hports

theorem State.cutThrough_only {a1 a2}  (h : Only ps s0 s) (hcounts : Part.counts ∈ ps) (hhalves : Part.halves ∈ ps) (hlinks : Part.links ∈ ps) (hout : Part.out ∈ ps) : Only ps s0 (State.cutThrough s a1 a2) := by
  unfold State.cutThrough
  refine Only.ite ?_ ?_
  · exact h
  · refine Only.foldl ?_ ?_
    · exact h
    · intro s1 x2 k3
      with_reducible exact State.brokenCopy_only k3 hcounts hhalves hlinks hout

theorem State.debugFilterWrite_only {a1 a2}  (h : Only ps s0 s) (hflt : Part.flt ∈ ps) : Only ps s0 (State.debugFilterWrite s a1 a2) := by
  unfold State.debugFilterWrite
  refine Only.ite ?_ ?_
  · refine (h.flt hflt)
  · exact h

theorem State.debugTarnWrite_only {a1 a2}  (h : Only ps s0 s) (htarn : Part.tarn ∈ ps) : Only ps s0 (State.debugTarnWrite s a1 a2) := by
  unfold State.debugTarnWrite
  refine Only.ite ?_ ?_
  · refine (h.tarn htarn)
  · exact h

theorem State.flrRings_only {a1}  (h : Only ps s0 s) (hcairn : Part.cairn ∈ ps) (heths : Part.eths ∈ ps) (hobjs : Part.objs ∈ ps) (hports : Part.ports ∈ ps) (hrings : Part.rings ∈ ps) (hspur : Part.spur ∈ ps) (htarn : Part.tarn ∈ ps) (htrust : Part.trust ∈ ps) : Only ps s0 (State.flrRings s a1) := by
  unfold State.flrRings
  extract_lets e1 s2 s3 mineEth4 s5 s6 x7
  have hs2 : Only ps s0 s2 := by
    refine Only.foldl ?_ ?_
    · exact h
    · intro s8 x9 k10
      extract_lets i11 r12 s13
      have hs13 : Only ps s0 s13 := by
        refine Only.foldl ?_ ?_
        · exact k10
        · intro s14 x15 k16
          with_reducible exact State.freeSpace_only k16 heths hports
      clear_value s13
      with_reducible exact State.setRing_only hs13 hrings
  clear_value s2
  have hs3 : Only ps s0 s3 := by
    with_reducible exact State.endReads_only hs2 hobjs hspur htarn
  clear_value s3
  have hs5 : Only ps s0 s5 := by
    refine Only.foldl ?_ ?_
    · exact hs3
    · intro s17 x18 k19
      extract_lets x20
      with_reducible exact State.setEth_only k19 heths
  clear_value s5
  have hs6 : Only ps s0 s6 := by
    with_reducible exact State.takeHeld_only hs5 htrust
  clear_value s6
  refine (hs6.cairn hcairn)

theorem State.flrPort_only {a1 a2}  (h : Only ps s0 s) (hobjs : Part.objs ∈ ps) (hports : Part.ports ∈ ps) : Only ps s0 (State.flrPort s a1 a2) := by
  unfold State.flrPort
  extract_lets x1 gone2 s3
  have hs3 : Only ps s0 s3 := by
    refine Only.foldl ?_ ?_
    · exact h
    · intro s4 x5 k6
      with_reducible exact State.clearPending_only k6 hobjs
  clear_value s3
  with_reducible exact State.setPort_only hs3 hports

theorem State.endDomain_only {a1}  (h : Only ps s0 s) (hcairn : Part.cairn ∈ ps) (heths : Part.eths ∈ ps) (hfuncs : Part.funcs ∈ ps) (hobjs : Part.objs ∈ ps) (hports : Part.ports ∈ ps) (hrings : Part.rings ∈ ps) (hspur : Part.spur ∈ ps) (htarn : Part.tarn ∈ ps) (htrust : Part.trust ∈ ps) : Only ps s0 (State.endDomain s a1) := by
  unfold State.endDomain
  extract_lets f1 s2
  have hs2 : Only ps s0 s2 := by
    with_reducible exact State.setFunc_only h hfuncs
  clear_value s2
  with_reducible refine State.flrRings_only ?_ hcairn heths hobjs hports hrings hspur htarn htrust
  refine Only.foldl ?_ ?_
  · exact hs2
  · intro s3 x4 k5
    with_reducible exact State.flrPort_only k5 hobjs hports

theorem State.defaultPartition_only  (h : Only ps s0 s) (hcairn : Part.cairn ∈ ps) (hcounts : Part.counts ∈ ps) (heths : Part.eths ∈ ps) (hfuncs : Part.funcs ∈ ps) (hgroups : Part.groups ∈ ps) (hhalves : Part.halves ∈ ps) (hobjs : Part.objs ∈ ps) (hout : Part.out ∈ ps) (hpartition : Part.partition ∈ ps) (hports : Part.ports ∈ ps) (hregs_flt : Part.regs .flt ∈ ps) (hregs_grp : Part.regs .grp ∈ ps) (hregs_port : Part.regs .port ∈ ps) (hregs_ring : Part.regs .ring ∈ ps) (hrings : Part.rings ∈ ps) (hroutes : Part.routes ∈ ps) (hspur : Part.spur ∈ ps) (htarn : Part.tarn ∈ ps) (htrust : Part.trust ∈ ps) (hunits : Part.units ∈ ps) : Only ps s0 (State.defaultPartition s) := by
  unfold State.defaultPartition
  extract_lets ts blocks s1 s2 s3 s4 s5 gone bl s6
  have h1 : Only ps s0 s1 := Only.foldl h (fun _ _ k => (State.endDomain_only k hcairn heths hfuncs hobjs hports hrings hspur htarn htrust))
  have h2 : Only ps s0 s2 := Only.foldl h1 (fun _ _ k => (State.reassignPort_only k hcounts hhalves hout hports hregs_port hrings))
  have h3 : Only ps s0 s3 := Only.foldl h2 (fun _ _ k => (State.reassignGroup_only k hcounts hgroups hhalves hout hports hregs_grp hregs_port hrings))
  have h4 : Only ps s0 s4 := Only.foldl h3 (fun _ _ k => (State.clearBlock_only k hcounts hhalves))
  have h5 : Only ps s0 s5 := (State.clearTenantRings_only h4 hregs_ring hrings)
  clear_value s5
  have h6 : Only ps s0 s6 := by
    refine h5.trans ⟨rfl, fun p hp => ?_⟩
    cases p with
    | regs b =>
      intro r hr
      have hc : ∀ q, (match q with | Reg.fltPort p => decide (s5.portOwner p ≠ 0) | _ => false) = true → Part.regs (blockOf q) ∈ ps := by
        intro q hq
        cases q with
        | fltPort p => exact hregs_flt
        | _ => cases hq
      exact (RegFile.get_clear_or s5.regs _ hc r).resolve_right (hr ▸ hp)
    | _ => first
      | exact absurd ‹_› hp | exact rfl | exact fun _ => rfl | exact fun _ _ => rfl | exact ⟨rfl, rfl, rfl⟩ | exact ⟨rfl, rfl, rfl, rfl, rfl, rfl⟩ | exact ⟨rfl, rfl, rfl, rfl, rfl, rfl, rfl⟩
  exact Only.foldl h6 (fun _ _ k => (State.newWindows_only k hspur))

theorem State.hipri_only {a1}  (h : Only ps s0 s) (hregs_fn : Part.regs .fn ∈ ps) : Only ps s0 (State.hipri s a1) := by
  unfold State.hipri
  exact State.raise_only h hregs_fn

theorem State.defaultRule_only {a1}  (h : Only ps s0 s) (hcounts : Part.counts ∈ ps) (heths : Part.eths ∈ ps) (hhalves : Part.halves ∈ ps) (hout : Part.out ∈ ps) (hports : Part.ports ∈ ps) (hregs_fn : Part.regs .fn ∈ ps) (hrings : Part.rings ∈ ps) : Only ps s0 (State.defaultRule s a1) := by
  unfold State.defaultRule
  extract_lets c1
  refine Only.ite ?_ ?_
  · dsimp only
    split
    · rename_i x2 n3 heq4
      refine Only.ite ?_ ?_
      · with_reducible refine State.hipri_only ?_ hregs_fn
        with_reducible exact State.deliver_only h hcounts heths hhalves hout hports hrings
      · with_reducible exact State.deliver_only h hcounts heths hhalves hout hports hrings
    · rename_i x5 heq6
      with_reducible exact State.countPort_only h hcounts hhalves
  · with_reducible exact State.countPort_only h hcounts hhalves

theorem State.useFv_only {a1 a2 a3}  (h : Only ps s0 s) (hkeys : Part.keys ∈ ps) (hports : Part.ports ∈ ps) : Only ps s0 (State.useFv s a1 a2 a3) := by
  unfold State.useFv
  dsimp only
  split
  · rename_i x1 heq2
    exact h
  · rename_i x3 h4 heq5
    split
    · rename_i x6 k7 heq8
      refine Only.ite ?_ ?_
      · exact h
      · with_reducible refine State.setPort_only ?_ hports
        with_reducible exact State.setKey_only h hkeys
    · rename_i x9 heq10
      exact h

theorem State.destroyAttempt_only {a1}  (h : Only ps s0 s) (hkeys : Part.keys ∈ ps) (hports : Part.ports ∈ ps) : Only ps s0 (State.destroyAttempt s a1) := by
  unfold State.destroyAttempt
  dsimp only
  split
  · rename_i x1 heq2
    exact h
  · rename_i x3 a4 heq5
    refine Only.ite ?_ ?_
    · exact h
    · split
      · rename_i x6 i7 heq8
        split
        · rename_i x9 c10 heq11
          with_reducible refine State.cutOutput_only ?_ hports
          with_reducible refine State.setPort_only ?_ hports
          with_reducible exact State.useFv_only h hkeys hports
        · rename_i x12 heq13
          exact h
      · rename_i x14 heq15
        exact h
      · rename_i x16 x17 x18
        with_reducible refine State.cutOutput_only ?_ hports
        with_reducible exact State.setPort_only h hports

theorem State.readyRec_only  (h : Only ps s0 s) (hcairn : Part.cairn ∈ ps) (hintake : Part.intake ∈ ps) (hlog : Part.log ∈ ps) (hregs_fn : Part.regs .fn ∈ ps) : Only ps s0 (State.readyRec s) := by
  unfold State.readyRec
  extract_lets s1
  have hs1 : Only ps s0 s1 := by
    with_reducible exact State.noteFull_only h hcairn hintake hlog hregs_fn
  clear_value s1
  refine Only.ite ?_ ?_
  · with_reducible exact State.writeAnchor_only hs1 hcairn hintake hlog hregs_fn
  · exact hs1

theorem State.writeRec_only {a1}  (h : Only ps s0 s) (hcairn : Part.cairn ∈ ps) (hintake : Part.intake ∈ ps) (hlog : Part.log ∈ ps) (hregs_fn : Part.regs .fn ∈ ps) : Only ps s0 (State.writeRec s a1) := by
  unfold State.writeRec
  extract_lets s1 x2
  have hs1 : Only ps s0 s1 := by
    with_reducible exact State.readyRec_only h hcairn hintake hlog hregs_fn
  clear_value s1
  refine Only.ite ?_ ?_
  · with_reducible exact State.setLog_only hs1 hintake hlog
  · with_reducible exact State.putRec_only hs1 hcairn hintake hlog hregs_fn

theorem State.domainRec_only {a1 a2 a3}  (h : Only ps s0 s) (hcairn : Part.cairn ∈ ps) (hcounts : Part.counts ∈ ps) (hfuncs : Part.funcs ∈ ps) (hhalves : Part.halves ∈ ps) (hintake : Part.intake ∈ ps) (hlog : Part.log ∈ ps) (hregs_fn : Part.regs .fn ∈ ps) : Only ps s0 (State.domainRec s a1 a2 a3) := by
  unfold State.domainRec
  extract_lets n1 f2 f3 s4 s5 x6
  have hs4 : Only ps s0 s4 := by
    with_reducible refine State.readyRec_only ?_ hcairn hintake hlog hregs_fn
    with_reducible exact State.setFunc_only h hfuncs
  clear_value s4
  have hs5 : Only ps s0 s5 := by
    with_reducible exact State.putRec_only hs4 hcairn hintake hlog hregs_fn
  clear_value s5
  refine Only.ite ?_ ?_
  · with_reducible refine State.countDev_only ?_ hcounts hhalves
    with_reducible exact State.setFunc_only h hfuncs
  · refine Only.ite ?_ ?_
    · with_reducible exact State.writeRec_only hs4 hcairn hintake hlog hregs_fn
    · with_reducible refine State.writeRec_only ?_ hcairn hintake hlog hregs_fn
      with_reducible exact State.setFunc_only hs5 hfuncs

theorem State.driveOthers_only {a1 a2}  (h : Only ps s0 s) (hout : Part.out ∈ ps) : Only ps s0 (State.driveOthers s a1 a2) := by
  unfold State.driveOthers
  with_reducible exact State.emit_only h hout

theorem State.driveSof_only {a1 a2 a3 a4}  (h : Only ps s0 s) (hout : Part.out ∈ ps) (hports : Part.ports ∈ ps) : Only ps s0 (State.driveSof s a1 a2 a3 a4) := by
  unfold State.driveSof
  extract_lets dly1 x2 s3
  have hs3 : Only ps s0 s3 := by
    with_reducible exact State.setPort_only h hports
  clear_value s3
  with_reducible exact State.emitNode_only hs3 hout

theorem State.driveRef_only {a1 a2 a3 a4}  (h : Only ps s0 s) (hcounts : Part.counts ∈ ps) (hfree : Part.free ∈ ps) (hfuncs : Part.funcs ∈ ps) (hgroups : Part.groups ∈ ps) (hhalves : Part.halves ∈ ps) (hobjs : Part.objs ∈ ps) (hout : Part.out ∈ ps) (hports : Part.ports ∈ ps) (hregs_fn : Part.regs .fn ∈ ps) (hrings : Part.rings ∈ ps) (htmu : Part.tmu ∈ ps) : Only ps s0 (State.driveRef s a1 a2 a3 a4) := by
  unfold State.driveRef
  extract_lets s1 x2 s3
  have hs1 : Only ps s0 s1 := by
    with_reducible exact State.advance_only h hcounts hfree hfuncs hhalves hobjs hout hports hregs_fn hrings htmu
  clear_value s1
  have hs3 : Only ps s0 s3 := by
    with_reducible exact State.setGroup_only hs1 hgroups
  clear_value s3
  with_reducible exact State.driveSof_only hs3 hout hports

theorem State.dropKeyless_only  (h : Only ps s0 s) (hcounts : Part.counts ∈ ps) (hfab : Part.fab ∈ ps) (hhalves : Part.halves ∈ ps) (hkeys : Part.keys ∈ ps) (hlinks : Part.links ∈ ps) (hout : Part.out ∈ ps) (hregs_fab : Part.regs .fab ∈ ps) (hregs_fn : Part.regs .fn ∈ ps) (hregs_tmu : Part.regs .tmu ∈ ps) : Only ps s0 (State.dropKeyless s) := by
  unfold State.dropKeyless
  refine Only.foldl ?_ ?_
  · exact h
  · intro s1 x2 k3
    split
    · rename_i x4 h5 heq6
      refine Only.ite ?_ ?_
      · with_reducible exact State.linkDown_only k3 hcounts hfab hhalves hkeys hlinks hout hregs_fab hregs_fn hregs_tmu
      · exact k3
    · rename_i x7 heq8
      exact k3

end Sys2Proof.Machine
end

