-- ==== Sys2Proof/Laws/OnlyC.lean ====
section
/-! SUPPORT. Frames of the operations (Only.lean), part 3 of 4, each after those it calls. -/
namespace Sys2Proof.Machine

variable {ps : List Part} {s0 s t : State}

theorem State.dropStaged_only {a1 a2}  (h : Only ps s0 s) (hcounts : Part.counts ∈ ps) (heths : Part.eths ∈ ps) (hhalves : Part.halves ∈ ps) (hout : Part.out ∈ ps) (hports : Part.ports ∈ ps) (hrings : Part.rings ∈ ps) (hrxq : Part.rxq ∈ ps) : Only ps s0 (State.dropStaged s a1 a2) := by
  unfold State.dropStaged
  extract_lets s1 hit2 s3 s4
  have hs1 : Only ps s0 s1 := by
    refine (h.rxq hrxq)
  clear_value s1
  have hs3 : Only ps s0 s3 := by
    refine Only.foldl ?_ ?_
    · exact hs1
    · intro s5 x6 k7
      refine Only.foldl ?_ ?_
      · exact k7
      · intro s8 x9 k10
        refine Only.ite ?_ ?_
        · exact k10
        · extract_lets k11 ws12 x13 s14
          have hs14 : Only ps s0 s14 := by
            with_reducible exact State.setRing_only k10 hrings
          clear_value s14
          refine Only.foldl ?_ ?_
          · exact hs14
          · intro s15 x16 k17
            with_reducible exact State.dropWait_only k17 hcounts heths hhalves hout hports hrings
  clear_value s3
  have hs4 : Only ps s0 s4 := by
    with_reducible exact State.setShare_only hs3 heths hports
  clear_value s4
  with_reducible exact State.countPort_only hs4 hcounts hhalves

theorem State.listenAgain_only  (h : Only ps s0 s) (hgroups : Part.groups ∈ ps) : Only ps s0 (State.listenAgain s) := by
  unfold State.listenAgain
  refine Only.foldl ?_ ?_
  · exact h
  · intro s1 x2 k3
    extract_lets g4
    refine Only.ite ?_ ?_
    · with_reducible exact State.setGroup_only k3 hgroups
    · exact k3

theorem State.dutyStarts_only {a1}  (h : Only ps s0 s) (hfab : Part.fab ∈ ps) (hgroups : Part.groups ∈ ps) (hregs_fab : Part.regs .fab ∈ ps) (hregs_fn : Part.regs .fn ∈ ps) (hregs_tmu : Part.regs .tmu ∈ ps) (htmu : Part.tmu ∈ ps) : Only ps s0 (State.dutyStarts s a1) := by
  unfold State.dutyStarts
  split
  · rename_i u1
    with_reducible refine State.allocator_only ?_ hfab
    with_reducible exact State.fabTopo_only h hregs_fab hregs_fn
  · rename_i u2
    with_reducible exact State.listenAgain_only h hgroups
  · rename_i u3
    refine Only.ite ?_ ?_
    · with_reducible exact State.firmwareTakes_only h hfab hregs_fab hregs_tmu htmu
    · exact h
  · rename_i u4
    exact h

theorem State.endActivation_only  (h : Only ps s0 s) (hcairn : Part.cairn ∈ ps) (hcounts : Part.counts ∈ ps) (hdev : Part.dev ∈ ps) (hevc : Part.evc ∈ ps) (hgroups : Part.groups ∈ ps) (hhalves : Part.halves ∈ ps) (hintake : Part.intake ∈ ps) (hotp : Part.otp ∈ ps) (hout : Part.out ∈ ps) (hregs_fn : Part.regs .fn ∈ ps) (hrings : Part.rings ∈ ps) (hspur : Part.spur ∈ ps) : Only ps s0 (State.endActivation s) := by
  unfold State.endActivation
  dsimp only
  split
  · rename_i x1 heq2
    exact h
  · rename_i x3 a4 heq5
    split
    · rename_i x6 o7 heq8
      with_reducible refine State.complete_only ?_ hcounts hhalves hout hrings
      with_reducible refine State.crnEvent_only ?_ hcairn hregs_fn
      refine Only.ite ?_ ?_
      · refine ((State.activated_only ?_ hcairn hdev hevc hgroups hintake hotp hregs_fn hspur).dev hdev)
        refine Only.ite ?_ ?_
        · with_reducible exact State.setCairn_only h hcairn
        · with_reducible refine State.setComp_only ?_ hcairn
          with_reducible exact State.setCairn_only h hcairn
      · with_reducible refine State.record_only ?_ hintake
        with_reducible refine State.setCairn_only ?_ hcairn
        with_reducible exact State.setCairn_only h hcairn
    · rename_i x9 heq10
      with_reducible refine State.crnEvent_only ?_ hcairn hregs_fn
      refine Only.ite ?_ ?_
      · refine ((State.activated_only ?_ hcairn hdev hevc hgroups hintake hotp hregs_fn hspur).dev hdev)
        refine Only.ite ?_ ?_
        · with_reducible exact State.setCairn_only h hcairn
        · with_reducible refine State.setComp_only ?_ hcairn
          with_reducible exact State.setCairn_only h hcairn
      · with_reducible refine State.record_only ?_ hintake
        with_reducible refine State.setCairn_only ?_ hcairn
        with_reducible exact State.setCairn_only h hcairn

theorem State.endBusy_only  (h : Only ps s0 s) (hfuncs : Part.funcs ∈ ps) : Only ps s0 (State.endBusy s) := by
  unfold State.endBusy
  refine (h.funcs hfuncs)

theorem State.startCopy_only {a1 a2 a3 a4}  (h : Only ps s0 s) (hobjs : Part.objs ∈ ps) (hout : Part.out ∈ ps) (htarn : Part.tarn ∈ ps) : Only ps s0 (State.startCopy s a1 a2 a3 a4) := by
  unfold State.startCopy
  extract_lets x1 n2 bs3 isNew4 lost5 b6 held7 e8 s9 s10
  have hs9 : Only ps s0 s9 := by
    with_reducible exact State.hostWrite_only h hout
  clear_value s9
  have hs10 : Only ps s0 s10 := by
    with_reducible exact State.tarnWrite_only hs9 htarn
  clear_value s10
  with_reducible exact State.setObj_only hs10 hobjs

theorem State.endCopy_only {a1 a2}  (h : Only ps s0 s) (hcounts : Part.counts ∈ ps) (hhalves : Part.halves ∈ ps) (hobjs : Part.objs ∈ ps) (hout : Part.out ∈ ps) (hrings : Part.rings ∈ ps) (hspur : Part.spur ∈ ps) (htarn : Part.tarn ∈ ps) : Only ps s0 (State.endCopy s a1 a2) := by
  unfold State.endCopy
  dsimp only
  split
  · rename_i x1 heq2
    exact h
  · rename_i x3 fst4 e5 heq6
    split
    · rename_i x7 heq8
      with_reducible refine State.completeE_only ?_ hcounts hhalves hout hrings
      with_reducible refine State.setObj_only ?_ hobjs
      with_reducible exact State.promoteShadow_only h hobjs hspur htarn
    · rename_i x9 op10 a11 rest12 heq13
      with_reducible refine State.startCopy_only ?_ hobjs hout htarn
      with_reducible refine State.setObj_only ?_ hobjs
      with_reducible refine State.completeE_only ?_ hcounts hhalves hout hrings
      with_reducible refine State.setObj_only ?_ hobjs
      with_reducible exact State.promoteShadow_only h hobjs hspur htarn

theorem State.faultEngine_only {a1 a2}  (h : Only ps s0 s) (hregs_dev : Part.regs .dev ∈ ps) (hspur : Part.spur ∈ ps) : Only ps s0 (State.faultEngine s a1 a2) := by
  unfold State.faultEngine
  extract_lets x1
  with_reducible refine State.seEvt_only ?_ hregs_dev
  with_reducible exact State.setEngine_only h hspur

theorem State.takeover_only {a1}  (h : Only ps s0 s) (hregs_dev : Part.regs .dev ∈ ps) (hspur : Part.spur ∈ ps) : Only ps s0 (State.takeover s a1) := by
  unfold State.takeover
  dsimp only
  split
  · rename_i x1 heq2
    with_reducible refine State.seEvt_only ?_ hregs_dev
    refine (h.spur hspur)
  · rename_i x3 e4 holds5 heq6
    refine Only.ite ?_ ?_
    · refine ((State.choose_only ?_ hspur).spur hspur)
      exact h
    · with_reducible exact State.choose_only h hspur

theorem State.enterStandby_only {a1}  (h : Only ps s0 s) (hregs_dev : Part.regs .dev ∈ ps) (hspur : Part.spur ∈ ps) : Only ps s0 (State.enterStandby s a1) := by
  unfold State.enterStandby
  extract_lets x1 s2 x3
  have hs2 : Only ps s0 s2 := by
    with_reducible exact State.setEngine_only h hspur
  clear_value s2
  split
  · rename_i x4 p5 rest6 heq7
    with_reducible refine State.takeover_only ?_ hregs_dev hspur
    refine (hs2.spur hspur)
  · rename_i x8 heq9
    exact hs2

theorem State.releaseSwap_only  (h : Only ps s0 s) (hregs_dev : Part.regs .dev ∈ ps) (hspur : Part.spur ∈ ps) : Only ps s0 (State.releaseSwap s) := by
  unfold State.releaseSwap
  split
  · rename_i x1 w2 heq3
    split
    · rename_i e4 o5 heq6
      refine Only.ite ?_ ?_
      · with_reducible exact State.enterStandby_only h hregs_dev hspur
      · exact h
    · rename_i e7 heq8
      exact h
  · rename_i x9 heq10
    exact h

theorem State.isolatePort_only {a1}  (h : Only ps s0 s) (hports : Part.ports ∈ ps) (hregs_port : Part.regs .port ∈ ps) : Only ps s0 (State.isolatePort s a1) := by
  unfold State.isolatePort
  extract_lets x1 kept2
  refine Only.ite ?_ ?_
  · exact h
  · with_reducible exact State.showPort_only h hports hregs_port

theorem State.losePort_only {a1}  (h : Only ps s0 s) (hkeys : Part.keys ∈ ps) (hports : Part.ports ∈ ps) (hregs_dev : Part.regs .dev ∈ ps) (hregs_port : Part.regs .port ∈ ps) (hspur : Part.spur ∈ ps) : Only ps s0 (State.losePort s a1) := by
  unfold State.losePort
  extract_lets s1
  have hs1 : Only ps s0 s1 := by
    with_reducible exact State.destroyAttempt_only h hkeys hports
  clear_value s1
  with_reducible refine State.takeover_only ?_ hregs_dev hspur
  with_reducible refine State.isolatePort_only ?_ hports hregs_port
  with_reducible exact State.attach_only hs1 hspur

theorem State.engineLost_only {a1 a2}  (h : Only ps s0 s) (hintake : Part.intake ∈ ps) (hkeys : Part.keys ∈ ps) (hports : Part.ports ∈ ps) (hregs_dev : Part.regs .dev ∈ ps) (hregs_port : Part.regs .port ∈ ps) (hspur : Part.spur ∈ ps) : Only ps s0 (State.engineLost s a1 a2) := by
  unfold State.engineLost
  extract_lets x1 s2 s3 inSwap4 x5 p6 s7 x8 s9
  have hs2 : Only ps s0 s2 := by
    with_reducible exact State.faultEngine_only h hregs_dev hspur
  clear_value s2
  have hs3 : Only ps s0 s3 := by
    with_reducible exact State.windowRecord_only hs2 hintake
  clear_value s3
  have hs7 : Only ps s0 s7 := by
    with_reducible exact State.record_only hs3 hintake
  clear_value s7
  have hs9 : Only ps s0 s9 := by
    refine Only.ite ?_ ?_
    · with_reducible refine State.endSwap_only ?_ hregs_dev hspur
      with_reducible exact State.releaseSwap_only hs7 hregs_dev hspur
    · exact hs7
  clear_value s9
  split
  · rename_i x10 x11 p12 heq13 heq14
    with_reducible exact State.takeover_only hs3 hregs_dev hspur
  · rename_i x15 x16 p17 heq18 heq19
    split
    · rename_i x20 w21 heq22
      refine Only.ite ?_ ?_
      · with_reducible exact State.swapChoose_only hs3 hregs_dev hspur
      · exact hs3
    · rename_i x23 heq24
      exact hs3
  · rename_i x25 x26 val27 x28 x29 heq30 heq31
    with_reducible refine State.seEvt_only ?_ hregs_dev
    refine (hs3.spur hspur)
  · rename_i x32 x33 heq34
    refine Only.ite ?_ ?_
    · with_reducible refine State.takeover_only ?_ hregs_dev hspur
      with_reducible refine State.attach_only ?_ hspur
      refine (hs7.spur hspur)
    · refine Only.ite ?_ ?_
      · with_reducible exact State.losePort_only hs9 hkeys hports hregs_dev hregs_port hspur
      · refine Only.ite ?_ ?_
        · with_reducible exact State.endSwap_only hs7 hregs_dev hspur
        · exact hs7
  · rename_i x35 x36 x37 x38 x39 x40
    exact hs3

theorem State.engineTestAfterSwap_only  (h : Only ps s0 s) (hcairn : Part.cairn ∈ ps) (hspur : Part.spur ∈ ps) : Only ps s0 (State.engineTestAfterSwap s) := by
  unfold State.engineTestAfterSwap
  dsimp only
  split
  · rename_i x1 t2 heq3
    refine Only.ite ?_ ?_
    · split
      · rename_i x4 e5 heq6
        refine Only.ite ?_ ?_
        · refine ((State.setEngine_only ?_ hspur).cairn hcairn)
          exact h
        · exact h
      · rename_i x7 heq8
        exact h
    · exact h
  · rename_i x9 heq10
    exact h

theorem State.enterGroupHold_only {a1 a2}  (h : Only ps s0 s) (hcounts : Part.counts ∈ ps) (hgroups : Part.groups ∈ ps) (hhalves : Part.halves ∈ ps) (hout : Part.out ∈ ps) (hports : Part.ports ∈ ps) (hregs_grp : Part.regs .grp ∈ ps) (hregs_port : Part.regs .port ∈ ps) (hrings : Part.rings ∈ ps) : Only ps s0 (State.enterGroupHold s a1 a2) := by
  unfold State.enterGroupHold
  extract_lets g1 s2 a3 s4
  have hs2 : Only ps s0 s2 := by
    with_reducible exact State.groupGoes_only h hgroups hports hregs_grp hregs_port
  clear_value s2
  have hs4 : Only ps s0 s4 := by
    refine Only.ite ?_ ?_
    · with_reducible exact State.showPort_only hs2 hports hregs_port
    · exact hs2
  clear_value s4
  split
  · rename_i x5 o6 heq7
    with_reducible exact State.complete_only hs4 hcounts hhalves hout hrings
  · rename_i x8 heq9
    exact hs4

theorem State.sendLocal_only {a1 a2 a3 a4 a5 a6}  (h : Only ps s0 s) (hlinks : Part.links ∈ ps) : Only ps s0 (State.sendLocal s a1 a2 a3 a4 a5 a6) := by
  unfold State.sendLocal
  extract_lets x1
  with_reducible exact State.pushLink_only h hlinks

theorem State.sendKeyx_only {a1}  (h : Only ps s0 s) (hfree : Part.free ∈ ps) (hlinks : Part.links ∈ ps) : Only ps s0 (State.sendKeyx s a1) := by
  unfold State.sendKeyx
  extract_lets body1 x2 s3
  have hs3 : Only ps s0 s3 := by
    with_reducible exact State.setLink_only h hlinks
  clear_value s3
  with_reducible refine State.sendLocal_only ?_ hlinks
  with_reducible refine State.draw_only ?_ hfree
  with_reducible exact State.draw_only hs3 hfree

theorem State.enterKeying_only {a1}  (h : Only ps s0 s) (hfree : Part.free ∈ ps) (hlinks : Part.links ∈ ps) : Only ps s0 (State.enterKeying s a1) := by
  unfold State.enterKeying
  with_reducible refine State.sendKeyx_only ?_ hfree hlinks
  extract_lets x1
  with_reducible exact State.setLink_only h hlinks

theorem State.enterSet_only {a1 a2 a3}  (h : Only ps s0 s) (hcounts : Part.counts ∈ ps) (hfree : Part.free ∈ ps) (hfuncs : Part.funcs ∈ ps) (hhalves : Part.halves ∈ ps) (hobjs : Part.objs ∈ ps) (hout : Part.out ∈ ps) (hports : Part.ports ∈ ps) (hregs_fn : Part.regs .fn ∈ ps) (hrings : Part.rings ∈ ps) : Only ps s0 (State.enterSet s a1 a2 a3) := by
  unfold State.enterSet
  extract_lets x1 c2 s3
  have hs3 : Only ps s0 s3 := by
    with_reducible exact State.setPort_only h hports
  clear_value s3
  refine Only.ite ?_ ?_
  · with_reducible exact State.endCand_only hs3 hcounts hfree hfuncs hhalves hobjs hout hports hregs_fn hrings
  · exact hs3

theorem State.erasedRec_only {a1}  (h : Only ps s0 s) (hintake : Part.intake ∈ ps) : Only ps s0 (State.erasedRec s a1) := by
  unfold State.erasedRec
  with_reducible exact State.record_only h hintake

theorem State.eraseArgs_only  (h : Only ps s0 s) (hintake : Part.intake ∈ ps) (hlog : Part.log ∈ ps) : Only ps s0 (State.eraseArgs s) := by
  unfold State.eraseArgs
  extract_lets z1 n2 x3
  with_reducible refine State.erasedRec_only ?_ hintake
  with_reducible exact State.setLog_only h hintake hlog

theorem State.eraseReserve_only  (h : Only ps s0 s) (heths : Part.eths ∈ ps) (hports : Part.ports ∈ ps) (hrings : Part.rings ∈ ps) (hrxq : Part.rxq ∈ ps) (hspur : Part.spur ∈ ps) : Only ps s0 (State.eraseReserve s) := by
  unfold State.eraseReserve
  extract_lets s1 x2
  have hs1 : Only ps s0 s1 := by
    refine Only.foldl ?_ ?_
    · exact h
    · intro s3 x4 k5
      with_reducible exact State.freeSpace_only k5 heths hports
  clear_value s1
  exact hs1.trans ⟨rfl, fun p hp => by cases p <;> first | exact absurd ‹_› hp | exact rfl | exact fun _ => rfl | exact fun _ _ => rfl | exact ⟨rfl, rfl, rfl⟩ | exact ⟨rfl, rfl, rfl, rfl, rfl, rfl⟩ | exact ⟨rfl, rfl, rfl, rfl, rfl, rfl, rfl⟩⟩

theorem State.eraseData_only  (h : Only ps s0 s) (hcounts : Part.counts ∈ ps) (heths : Part.eths ∈ ps) (hfab : Part.fab ∈ ps) (hflt : Part.flt ∈ ps) (hhalves : Part.halves ∈ ps) (hkeys : Part.keys ∈ ps) (hlinks : Part.links ∈ ps) (hobjs : Part.objs ∈ ps) (hout : Part.out ∈ ps) (hports : Part.ports ∈ ps) (hregs_fab : Part.regs .fab ∈ ps) (hregs_fn : Part.regs .fn ∈ ps) (hregs_tmu : Part.regs .tmu ∈ ps) (hrings : Part.rings ∈ ps) (hrxq : Part.rxq ∈ ps) (hspur : Part.spur ∈ ps) (htarn : Part.tarn ∈ ps) : Only ps s0 (State.eraseData s) := by
  unfold State.eraseData
  extract_lets s1 x2 s3
  have hs1 : Only ps s0 s1 := by
    with_reducible exact State.eraseReserve_only h heths hports hrings hrxq hspur
  clear_value s1
  have hs3 : Only ps s0 s3 := by
    exact hs1.trans ⟨rfl, fun p hp => by cases p <;> first | exact absurd ‹_› hp | exact rfl | exact fun _ => rfl | exact fun _ _ => rfl | exact ⟨rfl, rfl, rfl⟩ | exact ⟨rfl, rfl, rfl, rfl, rfl, rfl⟩ | exact ⟨rfl, rfl, rfl, rfl, rfl, rfl, rfl⟩⟩
  clear_value s3
  with_reducible exact State.dropKeyless_only hs3 hcounts hfab hhalves hkeys hlinks hout hregs_fab hregs_fn hregs_tmu

theorem State.eraseKeys_only {a1}  (h : Only ps s0 s) (hcounts : Part.counts ∈ ps) (hfab : Part.fab ∈ ps) (hhalves : Part.halves ∈ ps) (hkeys : Part.keys ∈ ps) (hlinks : Part.links ∈ ps) (hout : Part.out ∈ ps) (hregs_fab : Part.regs .fab ∈ ps) (hregs_fn : Part.regs .fn ∈ ps) (hregs_tmu : Part.regs .tmu ∈ ps) : Only ps s0 (State.eraseKeys s a1) := by
  unfold State.eraseKeys
  with_reducible refine State.dropKeyless_only ?_ hcounts hfab hhalves hkeys hlinks hout hregs_fab hregs_fn hregs_tmu
  extract_lets x1
  refine (h.belay (.inl ⟨rfl, rfl, rfl⟩) (.inr hkeys) (.inl rfl) (.inl ⟨rfl, rfl, rfl, rfl, rfl, rfl⟩))

theorem State.eraseRecords_only  (h : Only ps s0 s) (hintake : Part.intake ∈ ps) (hlog : Part.log ∈ ps) : Only ps s0 (State.eraseRecords s) := by
  unfold State.eraseRecords
  extract_lets z1 n2 x3
  with_reducible refine State.erasedRec_only ?_ hintake
  with_reducible exact State.setLog_only h hintake hlog

theorem State.ethCountRx_only {a1 a2 a3}  (h : Only ps s0 s) (hcounts : Part.counts ∈ ps) (hhalves : Part.halves ∈ ps) : Only ps s0 (State.ethCountRx s a1 a2 a3) := by
  unfold State.ethCountRx
  extract_lets n1 s2 s3
  have hs2 : Only ps s0 s2 := by
    refine Only.foldl ?_ ?_
    · exact h
    · intro s4 x5 k6
      refine Only.ite ?_ ?_
      · with_reducible exact State.countEth_only k6 hcounts hhalves
      · exact k6
  clear_value s2
  have hs3 : Only ps s0 s3 := by
    with_reducible exact State.countBucket_only hs2 hcounts hhalves
  clear_value s3
  refine Only.ite ?_ ?_
  · with_reducible refine State.countEth_only ?_ hcounts hhalves
    with_reducible refine State.countBy_only ?_ hcounts hhalves
    with_reducible exact State.countEth_only hs3 hcounts hhalves
  · exact hs3

theorem State.ethDeliver_only {a1 a2 a3 a4 a5 a6 a7 a8}  (h : Only ps s0 s) (hcounts : Part.counts ∈ ps) (heths : Part.eths ∈ ps) (hhalves : Part.halves ∈ ps) (hout : Part.out ∈ ps) (hports : Part.ports ∈ ps) (hrings : Part.rings ∈ ps) : Only ps s0 (State.ethDeliver s a1 a2 a3 a4 a5 a6 a7 a8) := by
  unfold State.ethDeliver
  extract_lets d1 body2
  split
  · rename_i x3 heq4
    with_reducible exact State.countEth_only h hcounts hhalves
  · rename_i x5 n6 heq7
    with_reducible exact State.deliver_only h hcounts heths hhalves hout hports hrings

theorem State.offerSample_only {a1 a2 a3 a4}  (h : Only ps s0 s) (htmu : Part.tmu ∈ ps) : Only ps s0 (State.offerSample s a1 a2 a3 a4) := by
  unfold State.offerSample
  refine Only.ite ?_ ?_
  · extract_lets x1
    with_reducible exact State.setTmu_only h htmu
  · exact h

theorem State.ptpMeasure_only {a1 a2 a3}  (h : Only ps s0 s) (htmu : Part.tmu ∈ ps) : Only ps s0 (State.ptpMeasure s a1 a2 a3) := by
  unfold State.ptpMeasure
  extract_lets t1
  with_reducible exact State.offerSample_only h htmu

theorem State.ptpSend_only {a1 a2 a3}  (h : Only ps s0 s) (heths : Part.eths ∈ ps) (hfree : Part.free ∈ ps) : Only ps s0 (State.ptpSend s a1 a2 a3) := by
  unfold State.ptpSend
  dsimp only
  split
  · rename_i x1 heq2
    exact h
  · rename_i x3 g4 heq5
    refine Only.ite ?_ ?_
    · with_reducible refine State.ethKick_only ?_ heths
      with_reducible refine State.setEth_only ?_ heths
      with_reducible exact State.draw_only h hfree
    · exact h

theorem State.ptpPeer_only {a1 a2 a3 a4}  (h : Only ps s0 s) (hptp : Part.ptp ∈ ps) : Only ps s0 (State.ptpPeer s a1 a2 a3 a4) := by
  unfold State.ptpPeer
  extract_lets x1
  refine (h.ptp hptp)

theorem State.ptpAnswer_only {a1 a2 a3 a4 a5}  (h : Only ps s0 s) (hptp : Part.ptp ∈ ps) : Only ps s0 (State.ptpAnswer s a1 a2 a3 a4 a5) := by
  unfold State.ptpAnswer
  dsimp only
  split
  · rename_i x1 heq2
    exact h
  · rename_i x3 x4 heq5
    refine Only.ite ?_ ?_
    · exact h
    · split
      · rename_i x6 r7 x8 heq9
        refine Only.ite ?_ ?_
        · with_reducible exact State.ptpPeer_only h hptp
        · exact h
      · rename_i x10 heq11
        refine Only.ite ?_ ?_
        · exact h
        · refine Only.ite ?_ ?_
          · refine (h.ptp hptp)
          · with_reducible exact State.ptpPeer_only h hptp

theorem State.ptpChoose_only {a1 a2}  (h : Only ps s0 s) (hptp : Part.ptp ∈ ps) : Only ps s0 (State.ptpChoose s a1 a2) := by
  unfold State.ptpChoose
  dsimp only
  split
  · rename_i x1 heq2
    exact h
  · rename_i x3 g4 heq5
    refine (h.ptp hptp)

theorem State.ptpReceive_only {a1 a2 a3}  (h : Only ps s0 s) (heths : Part.eths ∈ ps) (hfree : Part.free ∈ ps) (hptp : Part.ptp ∈ ps) (htmu : Part.tmu ∈ ps) : Only ps s0 (State.ptpReceive s a1 a2 a3) := by
  unfold State.ptpReceive
  dsimp only
  split
  · rename_i x1 x2 m3 g4 heq5 heq6
    refine Only.ite ?_ ?_
    · exact h
    · split
      · rename_i x7 heq8
        refine Only.ite ?_ ?_
        · exact h
        · refine Only.ite ?_ ?_
          · refine (h.ptp hptp)
          · with_reducible exact State.ptpMeasure_only h htmu
      · rename_i x9 heq10
        split
        · rename_i x11 r12 x13 heq14
          refine Only.ite ?_ ?_
          · with_reducible refine State.ptpMeasure_only ?_ htmu
            refine (h.ptp hptp)
          · exact h
        · rename_i x15 heq16
          exact h
      · rename_i x17 heq18
        with_reducible exact State.ptpSend_only h heths hfree
      · rename_i x19 heq20
        with_reducible exact State.ptpAnswer_only h hptp
      · rename_i x21 heq22
        with_reducible exact State.ptpAnswer_only h hptp
      · rename_i x23 heq24
        with_reducible exact State.ptpChoose_only h hptp
      · rename_i x25 x26 x27 x28 x29 x30 x31
        exact h
  · rename_i x32 x33 x34
    exact h

theorem State.ethStaged_only {f : Nat → State → State} {a1 a2} (h : Only ps s0 s) (hf : ∀ i y, Only ps s0 y → Only ps s0 (f i y)) (hcounts : Part.counts ∈ ps) (heths : Part.eths ∈ ps) (hhalves : Part.halves ∈ ps) (hports : Part.ports ∈ ps) : Only ps s0 (State.ethStaged s a1 a2 f) := by
  unfold State.ethStaged
  split
  · exact (State.countEth_only h hcounts hhalves)
  · rename_i heq
    exact (State.freeSpace_only (hf _ _ (State.takeSpace_only h heq heths hports)) heths hports)

theorem State.ethFrame_only {a1 a2 a3 a4}  (h : Only ps s0 s) (hcounts : Part.counts ∈ ps) (heths : Part.eths ∈ ps) (hfree : Part.free ∈ ps) (hhalves : Part.halves ∈ ps) (hout : Part.out ∈ ps) (hports : Part.ports ∈ ps) (hptp : Part.ptp ∈ ps) (hrings : Part.rings ∈ ps) (htmu : Part.tmu ∈ ps) : Only ps s0 (State.ethFrame s a1 a2 a3 a4) := by
  unfold State.ethFrame
  extract_lets at1 st2 good3 c4 s5 s6
  have hs5 : Only ps s0 s5 := by
    with_reducible exact State.ethCountRx_only h hcounts hhalves
  clear_value s5
  have hs6 : Only ps s0 s6 := by
    with_reducible refine State.ptpReceive_only ?_ heths hfree hptp htmu
    with_reducible exact State.countEth_only hs5 hcounts hhalves
  clear_value s6
  refine Only.ite ?_ ?_
  · refine Only.ite ?_ ?_
    · with_reducible refine State.ethStaged_only ?_ ?_ hcounts heths hhalves hports
      · exact hs6
      · intro x7 s8 k9
        with_reducible exact State.ethDeliver_only k9 hcounts heths hhalves hout hports hrings
    · exact hs6
  · refine Only.ite ?_ ?_
    · with_reducible exact State.ctrlFrame_only hs5 hcounts heths hhalves
    · with_reducible refine State.ethStaged_only ?_ ?_ hcounts heths hhalves hports
      · exact hs5
      · intro x10 s11 k12
        split
        · rename_i x13 heq14
          with_reducible exact State.countEth_only k12 hcounts hhalves
        · rename_i x15 ring16 m17 x18 heq19
          refine Only.ite ?_ ?_
          · with_reducible exact State.countEth_only k12 hcounts hhalves
          · with_reducible exact State.ethDeliver_only k12 hcounts heths hhalves hout hports hrings

theorem State.ptpSent_only {a1 a2 a3}  (h : Only ps s0 s) (hptp : Part.ptp ∈ ps) : Only ps s0 (State.ptpSent s a1 a2 a3) := by
  unfold State.ptpSent
  dsimp only
  split
  · rename_i x1 m2 heq3
    refine Only.ite ?_ ?_
    · refine (h.ptp hptp)
    · exact h
  · rename_i x4 heq5
    exact h

theorem State.ethSent_only {a1 a2 a3}  (h : Only ps s0 s) (hcounts : Part.counts ∈ ps) (hfree : Part.free ∈ ps) (hfuncs : Part.funcs ∈ ps) (hhalves : Part.halves ∈ ps) (hout : Part.out ∈ ps) (hptp : Part.ptp ∈ ps) (hregs_fn : Part.regs .fn ∈ ps) (hrings : Part.rings ∈ ps) : Only ps s0 (State.ethSent s a1 a2 a3) := by
  unfold State.ethSent
  extract_lets t1 padded2 bytes3 n4 s5 s6 s7 s8 s9 s10 s11 st12 s13
  have hs5 : Only ps s0 s5 := by
    with_reducible exact State.emit_only h hout
  clear_value s5
  have hs6 : Only ps s0 s6 := by
    with_reducible exact State.countEth_only hs5 hcounts hhalves
  clear_value s6
  have hs7 : Only ps s0 s7 := by
    with_reducible exact State.countBy_only hs6 hcounts hhalves
  clear_value s7
  have hs8 : Only ps s0 s8 := by
    with_reducible exact State.countEth_only hs7 hcounts hhalves
  clear_value s8
  have hs9 : Only ps s0 s9 := by
    refine Only.ite ?_ ?_
    · with_reducible exact State.countEth_only hs8 hcounts hhalves
    · exact hs8
  clear_value s9
  have hs10 : Only ps s0 s10 := by
    refine Only.ite ?_ ?_
    · with_reducible exact State.countEth_only hs9 hcounts hhalves
    · exact hs9
  clear_value s10
  have hs11 : Only ps s0 s11 := by
    with_reducible exact State.countBucket_only hs10 hcounts hhalves
  clear_value s11
  have hs13 : Only ps s0 s13 := by
    refine Only.ite ?_ ?_
    · with_reducible exact State.tsqStamp_only hs11 hcounts hfree hfuncs hhalves hout hregs_fn
    · exact hs11
  clear_value s13
  refine Only.ite ?_ ?_
  · with_reducible exact State.ptpSent_only hs11 hptp
  · with_reducible exact State.complete_only hs13 hcounts hhalves hout hrings

theorem State.ethTxOp_only {a1 a2 a3 a4}  (h : Only ps s0 s) (hcounts : Part.counts ∈ ps) (heths : Part.eths ∈ ps) (hhalves : Part.halves ∈ ps) (hout : Part.out ∈ ps) (hrings : Part.rings ∈ ps) : Only ps s0 (State.ethTxOp s a1 a2 a3 a4) := by
  unfold State.ethTxOp
  dsimp only
  split
  · rename_i x1 c2 heq3
    with_reducible exact State.complete_only h hcounts hhalves hout hrings
  · rename_i x4 heq5
    refine Only.ite ?_ ?_
    · with_reducible exact State.complete_only h hcounts hhalves hout hrings
    · with_reducible refine State.ethKick_only ?_ heths
      with_reducible exact State.setEth_only h heths

theorem State.verify_only {a1 a2 a3} (h : Only ps s0 s) (hkeys : Part.keys ∈ ps) : Only ps s0 (State.verify s a1 a2 a3).1 := by
  unfold State.verify
  split
  · exact h
  · dsimp only
    split
    · exact h
    · split
      · exact h
      · split
        · exact (State.setKey_only h hkeys)
        · exact h

theorem State.evalSeal_only {a1 a2 a3} (h : Only ps s0 s) (hkeys : Part.keys ∈ ps) : Only ps s0 (State.evalSeal s a1 a2 a3).1 := by
  unfold State.evalSeal
  split
  · split
    · exact h
    · exact (State.verify_only h hkeys)
  · exact h

theorem State.storeObject_only {a1 a2 a3 a4 a5 a6 a7}  (h : Only ps s0 s) (hcounts : Part.counts ∈ ps) (hhalves : Part.halves ∈ ps) (hobjs : Part.objs ∈ ps) (hspur : Part.spur ∈ ps) (htarn : Part.tarn ∈ ps) : Only ps s0 (State.storeObject s a1 a2 a3 a4 a5 a6 a7) := by
  unfold State.storeObject
  extract_lets x1 s2
  have hs2 : Only ps s0 s2 := by
    with_reducible exact State.setObj_only h hobjs
  clear_value s2
  refine Only.ite ?_ ?_
  · with_reducible refine State.countPort_only ?_ hcounts hhalves
    with_reducible exact State.setObj_only h hobjs
  · refine Only.ite ?_ ?_
    · with_reducible exact State.tarnWrite_only hs2 htarn
    · with_reducible exact State.writeMain_only h hobjs hspur htarn

theorem State.originate_only {a1 a2}  (h : Only ps s0 s) (hcounts : Part.counts ∈ ps) (hhalves : Part.halves ∈ ps) (hlinks : Part.links ∈ ps) (hout : Part.out ∈ ps) : Only ps s0 (State.originate s a1 a2) := by
  unfold State.originate
  extract_lets one1
  refine Only.ite ?_ ?_
  · dsimp only [one1]
    split
    · rename_i x2 j3 heq4
      refine Only.ite ?_ ?_
      · with_reducible refine State.pushLink_only ?_ hlinks
        split
        · rename_i x5 j6 heq7
          refine Only.ite ?_ ?_
          · with_reducible exact State.pushLink_only h hlinks
          · with_reducible exact State.wrapOnto_only h hcounts hhalves hlinks hout
        · rename_i x8 heq9
          with_reducible exact State.countLink_only h hcounts hhalves
      · with_reducible refine State.wrapOnto_only ?_ hcounts hhalves hlinks hout
        split
        · rename_i x10 j11 heq12
          refine Only.ite ?_ ?_
          · with_reducible exact State.pushLink_only h hlinks
          · with_reducible exact State.wrapOnto_only h hcounts hhalves hlinks hout
        · rename_i x13 heq14
          with_reducible exact State.countLink_only h hcounts hhalves
    · rename_i x15 heq16
      with_reducible refine State.countLink_only ?_ hcounts hhalves
      split
      · rename_i x17 j18 heq19
        refine Only.ite ?_ ?_
        · with_reducible exact State.pushLink_only h hlinks
        · with_reducible exact State.wrapOnto_only h hcounts hhalves hlinks hout
      · rename_i x20 heq21
        with_reducible exact State.countLink_only h hcounts hhalves
  · split
    · rename_i x22 x23 p24 a25 heq26 heq27
      refine Only.ite ?_ ?_
      · dsimp only [one1]
        refine Only.ite ?_ ?_
        · with_reducible exact State.pushLink_only h hlinks
        · with_reducible exact State.wrapOnto_only h hcounts hhalves hlinks hout
      · refine Only.ite ?_ ?_
        · dsimp only [one1]
          refine Only.ite ?_ ?_
          · with_reducible exact State.pushLink_only h hlinks
          · with_reducible exact State.wrapOnto_only h hcounts hhalves hlinks hout
        · dsimp only [one1]
          refine Only.ite ?_ ?_
          · with_reducible exact State.pushLink_only h hlinks
          · with_reducible exact State.wrapOnto_only h hcounts hhalves hlinks hout
    · rename_i x28 x29 p30 heq31 heq32
      dsimp only [one1]
      refine Only.ite ?_ ?_
      · with_reducible exact State.pushLink_only h hlinks
      · with_reducible exact State.wrapOnto_only h hcounts hhalves hlinks hout
    · rename_i x33 x34 heq35
      dsimp only [one1]
      split
      · rename_i x36 j37 heq38
        refine Only.ite ?_ ?_
        · with_reducible exact State.pushLink_only h hlinks
        · with_reducible exact State.wrapOnto_only h hcounts hhalves hlinks hout
      · rename_i x39 heq40
        with_reducible exact State.countLink_only h hcounts hhalves

theorem State.routeOut_only {a1 a2 a3}  (h : Only ps s0 s) (hcounts : Part.counts ∈ ps) (heths : Part.eths ∈ ps) (hfab : Part.fab ∈ ps) (hhalves : Part.halves ∈ ps) (hlinks : Part.links ∈ ps) (hout : Part.out ∈ ps) (hports : Part.ports ∈ ps) (hrings : Part.rings ∈ ps) (hroutes : Part.routes ∈ ps) (hspur : Part.spur ∈ ps) : Only ps s0 (State.routeOut s a1 a2 a3) := by
  unfold State.routeOut
  extract_lets rt1 q2 s3 f4 x5 s6
  have hs3 : Only ps s0 s3 := by
    with_reducible exact State.setRoute_only h hroutes
  clear_value s3
  have hs6 : Only ps s0 s6 := by
    refine Only.ite ?_ ?_
    · refine (hs3.fab hfab)
    · exact hs3
  clear_value s6
  refine Only.ite ?_ ?_
  · with_reducible exact State.countLink_only h hcounts hhalves
  · refine Only.ite ?_ ?_
    · with_reducible exact State.arriveRouted_only hs3 hcounts heths hfab hhalves hout hports hrings hspur
    · with_reducible exact State.originate_only hs6 hcounts hhalves hlinks hout

theorem State.timeBeacon_only {a1 a2 a3 a4}  (h : Only ps s0 s) (hports : Part.ports ∈ ps) : Only ps s0 (State.timeBeacon s a1 a2 a3 a4) := by
  unfold State.timeBeacon
  extract_lets x1 b2 ok3 x4
  refine Only.ite ?_ ?_
  · with_reducible exact State.setPort_only h hports
  · with_reducible exact State.setPort_only h hports

theorem State.takeAction_only {a1 a2 a3 a4}  (h : Only ps s0 s) (hcounts : Part.counts ∈ ps) (heths : Part.eths ∈ ps) (hfab : Part.fab ∈ ps) (hhalves : Part.halves ∈ ps) (hlinks : Part.links ∈ ps) (hobjs : Part.objs ∈ ps) (hout : Part.out ∈ ps) (hports : Part.ports ∈ ps) (hregs_fn : Part.regs .fn ∈ ps) (hrings : Part.rings ∈ ps) (hroutes : Part.routes ∈ ps) (hspur : Part.spur ∈ ps) (htarn : Part.tarn ∈ ps) : Only ps s0 (State.takeAction s a1 a2 a3 a4) := by
  unfold State.takeAction
  extract_lets d1 t2 notTaken3 hi4 o5
  have hnotTaken3 : Only ps s0 notTaken3 := by
    with_reducible exact State.countPort_only h hcounts hhalves
  clear_value notTaken3
  split
  · rename_i x6 heq7
    refine Only.ite ?_ ?_
    · dsimp only [hi4]
      refine Only.ite ?_ ?_
      · with_reducible refine State.hipri_only ?_ hregs_fn
        with_reducible exact State.storeObject_only h hcounts hhalves hobjs hspur htarn
      · with_reducible exact State.storeObject_only h hcounts hhalves hobjs hspur htarn
    · exact hnotTaken3
  · rename_i x8 heq9
    split
    · rename_i x10 n11 heq12
      dsimp only [hi4]
      refine Only.ite ?_ ?_
      · with_reducible refine State.hipri_only ?_ hregs_fn
        with_reducible exact State.deliver_only h hcounts heths hhalves hout hports hrings
      · with_reducible exact State.deliver_only h hcounts heths hhalves hout hports hrings
    · rename_i x13 heq14
      exact hnotTaken3
  · rename_i x15 heq16
    refine Only.ite ?_ ?_
    · dsimp only [hi4]
      refine Only.ite ?_ ?_
      · with_reducible refine State.hipri_only ?_ hregs_fn
        with_reducible exact State.routeOut_only h hcounts heths hfab hhalves hlinks hout hports hrings hroutes hspur
      · with_reducible exact State.routeOut_only h hcounts heths hfab hhalves hlinks hout hports hrings hroutes hspur
    · exact hnotTaken3
  · rename_i x17 heq18
    dsimp only [hi4]
    refine Only.ite ?_ ?_
    · with_reducible refine State.hipri_only ?_ hregs_fn
      with_reducible exact State.timeBeacon_only h hports
    · with_reducible exact State.timeBeacon_only h hports
  · rename_i x19 x20 x21 x22 x23
    exact hnotTaken3

theorem State.sealFailed_only {a1 a2 a3 a4 a5}  (h : Only ps s0 s) (hcounts : Part.counts ∈ ps) (heths : Part.eths ∈ ps) (hfuncs : Part.funcs ∈ ps) (hhalves : Part.halves ∈ ps) (hintake : Part.intake ∈ ps) (hout : Part.out ∈ ps) (hports : Part.ports ∈ ps) (hregs_fn : Part.regs .fn ∈ ps) (hrings : Part.rings ∈ ps) : Only ps s0 (State.sealFailed s a1 a2 a3 a4 a5) := by
  unfold State.sealFailed
  extract_lets d1 s2 f3 j4 s5 s6
  have hs2 : Only ps s0 s2 := by
    refine Only.ite ?_ ?_
    · split
      · rename_i x7 n8 heq9
        with_reducible exact State.deliver_only h hcounts heths hhalves hout hports hrings
      · rename_i x10 heq11
        with_reducible exact State.countPort_only h hcounts hhalves
    · exact h
  clear_value s2
  have hs5 : Only ps s0 s5 := by
    with_reducible exact State.setFunc_only hs2 hfuncs
  clear_value s5
  have hs6 : Only ps s0 s6 := by
    refine State.raise_only ?_ hregs_fn
    with_reducible exact State.countPort_only hs5 hcounts hhalves
  clear_value s6
  with_reducible exact State.record_only hs6 hintake

theorem State.evalList_only {a1 a2 a3 a4} (h : Only ps s0 s) (hcounts : Part.counts ∈ ps) (heths : Part.eths ∈ ps) (hfab : Part.fab ∈ ps) (hfuncs : Part.funcs ∈ ps) (hhalves : Part.halves ∈ ps) (hintake : Part.intake ∈ ps) (hkeys : Part.keys ∈ ps) (hlinks : Part.links ∈ ps) (hobjs : Part.objs ∈ ps) (hout : Part.out ∈ ps) (hports : Part.ports ∈ ps) (hregs_fn : Part.regs .fn ∈ ps) (hrings : Part.rings ∈ ps) (hroutes : Part.routes ∈ ps) (hspur : Part.spur ∈ ps) (htarn : Part.tarn ∈ ps) : Only ps s0 (State.evalList s a1 a2 a3 a4).1 := by
  induction a4 generalizing s a2 a3 with
  | nil => exact h
  | cons x r ih =>
    unfold State.evalList
    dsimp only
    have hk := State.evalSeal_only (a1 := a1) (a2 := Tbl.get 0 s.flt ((s.entry a1.dom).fltBase + x)) (a3 := a3) h hkeys
    split
    · exact ih h
    · split
      · exact (State.countPort_only (Only.ite (State.hipri_only h hregs_fn) h) hcounts hhalves)
      · split
        · exact (State.sealFailed_only hk hcounts heths hfuncs hhalves hintake hout hports hregs_fn hrings)
        · split
          · exact (State.takeAction_only hk hcounts heths hfab hhalves hlinks hobjs hout hports hregs_fn hrings hroutes hspur htarn)
          · exact ih (State.takeAction_only hk hcounts heths hfab hhalves hlinks hobjs hout hports hregs_fn hrings hroutes hspur htarn)

theorem State.evaluate_only {a1 a2}  (h : Only ps s0 s) (hcounts : Part.counts ∈ ps) (heths : Part.eths ∈ ps) (hfab : Part.fab ∈ ps) (hfuncs : Part.funcs ∈ ps) (hhalves : Part.halves ∈ ps) (hintake : Part.intake ∈ ps) (hkeys : Part.keys ∈ ps) (hlinks : Part.links ∈ ps) (hobjs : Part.objs ∈ ps) (hout : Part.out ∈ ps) (hports : Part.ports ∈ ps) (hregs_fn : Part.regs .fn ∈ ps) (hrings : Part.rings ∈ ps) (hroutes : Part.routes ∈ ps) (hspur : Part.spur ∈ ps) (htarn : Part.tarn ∈ ps) : Only ps s0 (State.evaluate s a1 a2) := by
  unfold State.evaluate
  extract_lets v1 r2 s3
  have hs3 : Only ps s0 s3 := by
    refine Only.ite ?_ ?_
    · with_reducible refine State.defaultRule_only ?_ hcounts heths hhalves hout hports hregs_fn hrings
      dsimp only [r2]
      with_reducible exact State.evalList_only h hcounts heths hfab hfuncs hhalves hintake hkeys hlinks hobjs hout hports hregs_fn hrings hroutes hspur htarn
    · dsimp only [r2]
      with_reducible exact State.evalList_only h hcounts heths hfab hfuncs hhalves hintake hkeys hlinks hobjs hout hports hregs_fn hrings hroutes hspur htarn
  clear_value s3
  with_reducible exact State.freeSpace_only hs3 heths hports

theorem State.failPort_only {a1}  (h : Only ps s0 s) (hcounts : Part.counts ∈ ps) (hgroups : Part.groups ∈ ps) (hhalves : Part.halves ∈ ps) (hout : Part.out ∈ ps) (hpairs : Part.pairs ∈ ps) (hports : Part.ports ∈ ps) (hregs_grp : Part.regs .grp ∈ ps) (hregs_port : Part.regs .port ∈ ps) (hrings : Part.rings ∈ ps) : Only ps s0 (State.failPort s a1) := by
  unfold State.failPort
  dsimp only
  split
  · rename_i x1 k2 heq3
    refine Only.ite ?_ ?_
    · with_reducible exact State.stopGroup_only h hcounts hgroups hhalves hout hpairs hports hregs_grp hregs_port hrings
    · with_reducible exact State.branchOut_only h hgroups hpairs hports hregs_grp hregs_port
  · rename_i x4 heq5
    split
    · rename_i x6 heq7
      exact h
    · rename_i x8 heq9
      with_reducible exact State.showPort_only h hports hregs_port
    · rename_i x10 heq11
      with_reducible exact State.toAwake_only h hports hregs_port
    · rename_i x12 x13 x14 x15
      with_reducible exact State.toStopped_only h hcounts hhalves hout hports hregs_port hrings

theorem State.flooded__only {f : State → State} {a1 a2 a3 a4}  (h : Only ps s0 s) (hf : ∀ y, Only ps s0 y → Only ps s0 (f y)) (hfab : Part.fab ∈ ps) (hlinks : Part.links ∈ ps) (hout : Part.out ∈ ps) : Only ps s0 (State.flooded_ s a1 a2 a3 a4 f) := by
  unfold State.flooded_
  refine Only.ite ?_ ?_
  · with_reducible exact State.rlDone_only h hlinks hout
  · with_reducible refine State.flood_only ?_ hlinks hout
    refine hf _ ?_
    with_reducible exact State.remember_only h hfab

theorem State.flrEnd_only {a1 a2}  (h : Only ps s0 s) (heths : Part.eths ∈ ps) (hfuncs : Part.funcs ∈ ps) (hintake : Part.intake ∈ ps) (hports : Part.ports ∈ ps) (hregs_fn : Part.regs .fn ∈ ps) (hregs_ring : Part.regs .ring ∈ ps) (hrings : Part.rings ∈ ps) : Only ps s0 (State.flrEnd s a1 a2) := by
  unfold State.flrEnd
  extract_lets e left s0' s1 s2
  have h0 : Only ps s0 s0' := Only.foldl h (fun _ _ k => State.freeSpace_only k heths hports)
  clear_value s0'
  have h1 : Only ps s0 s1 := by
    refine h0.trans ⟨rfl, fun p hp => ?_⟩
    cases p with
    | regs b =>
      intro r hr
      refine (RegFile.get_clear_or s0'.regs (s0'.flrReg a1) (fun q hq => ?_) r).resolve_right (hr ▸ hp)
      cases q with
      | ring n q => exact hregs_ring
      | fn d q => exact hregs_fn
      | _ => cases hq
    | _ => first
      | exact absurd ‹_› hp | exact rfl | exact fun _ => rfl | exact fun _ _ => rfl | exact ⟨rfl, rfl, rfl⟩ | exact ⟨rfl, rfl, rfl, rfl, rfl, rfl⟩ | exact ⟨rfl, rfl, rfl, rfl, rfl, rfl, rfl⟩
  exact (State.record_only (State.setFunc_only h1 hfuncs) hintake)

theorem State.groupHoldArrives_only {a1}  (h : Only ps s0 s) (hcounts : Part.counts ∈ ps) (hgroups : Part.groups ∈ ps) (hhalves : Part.halves ∈ ps) (hout : Part.out ∈ ps) (hports : Part.ports ∈ ps) (hregs_grp : Part.regs .grp ∈ ps) (hregs_port : Part.regs .port ∈ ps) (hrings : Part.rings ∈ ps) : Only ps s0 (State.groupHoldArrives s a1) := by
  unfold State.groupHoldArrives
  extract_lets g1
  split
  · rename_i x2 t3 heq4
    refine Only.ite ?_ ?_
    · with_reducible exact State.enterGroupHold_only h hcounts hgroups hhalves hout hports hregs_grp hregs_port hrings
    · exact h
  · rename_i x5 heq6
    exact h

theorem State.flrHoldGroup_only {a1}  (h : Only ps s0 s) (hcounts : Part.counts ∈ ps) (hgroups : Part.groups ∈ ps) (hhalves : Part.halves ∈ ps) (hout : Part.out ∈ ps) (hports : Part.ports ∈ ps) (hregs_grp : Part.regs .grp ∈ ps) (hregs_port : Part.regs .port ∈ ps) (hrings : Part.rings ∈ ps) : Only ps s0 (State.flrHoldGroup s a1) := by
  unfold State.flrHoldGroup
  extract_lets s1 a2
  have hs1 : Only ps s0 s1 := by
    with_reducible exact State.holdGroup_only h hcounts hgroups hhalves hout hports hregs_grp hregs_port hrings
  clear_value s1
  refine Only.ite ?_ ?_
  · with_reducible exact State.groupHoldArrives_only hs1 hcounts hgroups hhalves hout hports hregs_grp hregs_port hrings
  · exact hs1

theorem State.flrHoldPort_only {a1}  (h : Only ps s0 s) (hcounts : Part.counts ∈ ps) (hhalves : Part.halves ∈ ps) (hout : Part.out ∈ ps) (hports : Part.ports ∈ ps) (hregs_port : Part.regs .port ∈ ps) (hrings : Part.rings ∈ ps) : Only ps s0 (State.flrHoldPort s a1) := by
  unfold State.flrHoldPort
  refine Only.ite ?_ ?_
  · extract_lets x1
    with_reducible exact State.setPort_only h hports
  · extract_lets s2 x3
    have hs2 : Only ps s0 s2 := by
      with_reducible exact State.holdPort_only h hcounts hhalves hout hports hregs_port hrings
    clear_value s2
    refine Only.ite ?_ ?_
    · with_reducible exact State.holdArrives_only hs2 hcounts hhalves hout hports hregs_port hrings
    · exact hs2

theorem State.flrStart_only {a1}  (h : Only ps s0 s) (hcairn : Part.cairn ∈ ps) (hcounts : Part.counts ∈ ps) (heths : Part.eths ∈ ps) (hfab : Part.fab ∈ ps) (hfuncs : Part.funcs ∈ ps) (hgroups : Part.groups ∈ ps) (hhalves : Part.halves ∈ ps) (hkeys : Part.keys ∈ ps) (hlinks : Part.links ∈ ps) (hobjs : Part.objs ∈ ps) (hout : Part.out ∈ ps) (hports : Part.ports ∈ ps) (hregs_fab : Part.regs .fab ∈ ps) (hregs_fn : Part.regs .fn ∈ ps) (hregs_grp : Part.regs .grp ∈ ps) (hregs_port : Part.regs .port ∈ ps) (hregs_tmu : Part.regs .tmu ∈ ps) (hrings : Part.rings ∈ ps) (hspur : Part.spur ∈ ps) (htarn : Part.tarn ∈ ps) (htrust : Part.trust ∈ ps) : Only ps s0 (State.flrStart s a1) := by
  unfold State.flrStart
  extract_lets aborts1 f2 s3 s4 s5 s6
  have hs3 : Only ps s0 s3 := by
    with_reducible refine State.countDev_only ?_ hcounts hhalves
    with_reducible exact State.setFunc_only h hfuncs
  clear_value s3
  have hs4 : Only ps s0 s4 := by
    refine Only.foldl ?_ ?_
    · exact hs3
    · intro s7 x8 k9
      with_reducible exact State.flrHoldGroup_only k9 hcounts hgroups hhalves hout hports hregs_grp hregs_port hrings
  clear_value s4
  have hs5 : Only ps s0 s5 := by
    refine Only.foldl ?_ ?_
    · exact hs4
    · intro s10 x11 k12
      with_reducible exact State.flrHoldPort_only k12 hcounts hhalves hout hports hregs_port hrings
  clear_value s5
  have hs6 : Only ps s0 s6 := by
    refine Only.foldl ?_ ?_
    · exact hs5
    · intro s13 x14 k15
      with_reducible exact State.flrPort_only k15 hobjs hports
  clear_value s6
  with_reducible refine State.eraseKeys_only ?_ hcounts hfab hhalves hkeys hlinks hout hregs_fab hregs_fn hregs_tmu
  with_reducible exact State.flrRings_only hs6 hcairn heths hobjs hports hrings hspur htarn htrust

theorem State.forcePort_only {a1}  (h : Only ps s0 s) (hcairn : Part.cairn ∈ ps) (hports : Part.ports ∈ ps) (hregs_port : Part.regs .port ∈ ps) : Only ps s0 (State.forcePort s a1) := by
  unfold State.forcePort
  extract_lets p1 x2 held3 x4 s5
  have hs5 : Only ps s0 s5 := by
    with_reducible exact State.setCairn_only h hcairn
  clear_value s5
  with_reducible exact State.showPort_only hs5 hports hregs_port

theorem State.nextTest_only {a1} (h : Only ps s0 s) (hcairn : Part.cairn ∈ ps) (hcounts : Part.counts ∈ ps) (hhalves : Part.halves ∈ ps) (hout : Part.out ∈ ps) (hregs_dev : Part.regs .dev ∈ ps) (hrings : Part.rings ∈ ps) (hspur : Part.spur ∈ ps) : Only ps s0 (State.nextTest s a1) := by
  induction a1 generalizing s with
  | zero => exact h
  | succ n ih =>
    unfold State.nextTest
    dsimp only
    split
    · exact h
    · split
      · exact h
      · split
        · exact ih (State.complete_only (State.setCairn_only h hcairn) hcounts hhalves hout hrings)
        · exact State.beginTest_only (State.setCairn_only h hcairn) hcairn hregs_dev hspur

theorem State.turnTests_only  (h : Only ps s0 s) (hcairn : Part.cairn ∈ ps) (hcounts : Part.counts ∈ ps) (hhalves : Part.halves ∈ ps) (hout : Part.out ∈ ps) (hregs_dev : Part.regs .dev ∈ ps) (hrings : Part.rings ∈ ps) (hspur : Part.spur ∈ ps) : Only ps s0 (State.turnTests s) := by
  unfold State.turnTests
  with_reducible exact State.nextTest_only h hcairn hcounts hhalves hout hregs_dev hrings hspur

theorem State.forcedStart_only {a1}  (h : Only ps s0 s) (hcairn : Part.cairn ∈ ps) (hcounts : Part.counts ∈ ps) (hfab : Part.fab ∈ ps) (hhalves : Part.halves ∈ ps) (hkeys : Part.keys ∈ ps) (hlinks : Part.links ∈ ps) (hout : Part.out ∈ ps) (hports : Part.ports ∈ ps) (hregs_dev : Part.regs .dev ∈ ps) (hregs_fab : Part.regs .fab ∈ ps) (hregs_fn : Part.regs .fn ∈ ps) (hregs_port : Part.regs .port ∈ ps) (hregs_tmu : Part.regs .tmu ∈ ps) (hrings : Part.rings ∈ ps) (hspur : Part.spur ∈ ps) : Only ps s0 (State.forcedStart s a1) := by
  unfold State.forcedStart
  refine Only.ite ?_ ?_
  · with_reducible refine State.turnTests_only ?_ hcairn hcounts hhalves hout hregs_dev hrings hspur
    with_reducible refine State.complete_only ?_ hcounts hhalves hout hrings
    extract_lets x1
    with_reducible exact State.setCairn_only h hcairn
  · refine Only.ite ?_ ?_
    · refine Only.ite ?_ ?_
      · with_reducible exact State.beginTest_only h hcairn hregs_dev hspur
      · with_reducible exact State.forcePort_only h hcairn hports hregs_port
    · refine Only.ite ?_ ?_
      · with_reducible exact State.beginTest_only h hcairn hregs_dev hspur
      · refine Only.ite ?_ ?_
        · with_reducible exact State.beginTest_only h hcairn hregs_dev hspur
        · extract_lets x2
          with_reducible refine State.setCairn_only ?_ hcairn
          with_reducible exact State.linkDown_only h hcounts hfab hhalves hkeys hlinks hout hregs_fab hregs_fn hregs_tmu

theorem State.groupError_only {a1}  (h : Only ps s0 s) (hgroups : Part.groups ∈ ps) : Only ps s0 (State.groupError s a1) := by
  unfold State.groupError
  extract_lets x1
  with_reducible exact State.setGroup_only h hgroups

theorem State.groupHears_only {a1 a2 a3 a4}  (h : Only ps s0 s) (hcounts : Part.counts ∈ ps) (hfree : Part.free ∈ ps) (hfuncs : Part.funcs ∈ ps) (hgroups : Part.groups ∈ ps) (hhalves : Part.halves ∈ ps) (hobjs : Part.objs ∈ ps) (hout : Part.out ∈ ps) (hports : Part.ports ∈ ps) (hregs_fn : Part.regs .fn ∈ ps) (hregs_grp : Part.regs .grp ∈ ps) (hregs_port : Part.regs .port ∈ ps) (hrings : Part.rings ∈ ps) (htmu : Part.tmu ∈ ps) : Only ps s0 (State.groupHears s a1 a2 a3 a4) := by
  unfold State.groupHears
  extract_lets s1 s2 s3 x4
  have hs1 : Only ps s0 s1 := by
    with_reducible refine State.countFrame_only ?_ hcounts hhalves
    with_reducible refine State.advance_only ?_ hcounts hfree hfuncs hhalves hobjs hout hports hregs_fn hrings htmu
    with_reducible exact State.advance_only h hcounts hfree hfuncs hhalves hobjs hout hports hregs_fn hrings htmu
  clear_value s1
  have hs2 : Only ps s0 s2 := by
    refine Only.ite ?_ ?_
    · exact hs1
    · with_reducible exact State.promoteGroup_only hs1 hgroups hports hregs_grp hregs_port
  clear_value s2
  have hs3 : Only ps s0 s3 := by
    with_reducible exact State.examineRef_only hs2 hgroups hports hregs_grp hregs_port
  clear_value s3
  with_reducible exact State.setGroup_only hs3 hgroups

theorem State.gwHit_only {a1}  (h : Only ps s0 s) (hspur : Part.spur ∈ ps) : Only ps s0 (State.gwHit s a1) := by
  unfold State.gwHit
  split
  · rename_i x1 r2 heq3
    with_reducible exact State.setRule_only h hspur
  · rename_i x4 heq5
    exact h

theorem State.writeSend_only {a1 a2 a3}  (h : Only ps s0 s) (hobjs : Part.objs ∈ ps) (htarn : Part.tarn ∈ ps) : Only ps s0 (State.writeSend s a1 a2 a3) := by
  unfold State.writeSend
  extract_lets x1 s2
  have hs2 : Only ps s0 s2 := by
    with_reducible exact State.tarnWrite_only h htarn
  clear_value s2
  with_reducible refine State.writeSendHeader_only ?_ hobjs htarn
  with_reducible exact State.setObj_only hs2 hobjs

theorem State.requestSend_only {a1 a2 a3 a4 a5}  (h : Only ps s0 s) (hcounts : Part.counts ∈ ps) (hfree : Part.free ∈ ps) (hfuncs : Part.funcs ∈ ps) (hhalves : Part.halves ∈ ps) (hobjs : Part.objs ∈ ps) (hout : Part.out ∈ ps) (hports : Part.ports ∈ ps) (hregs_fn : Part.regs .fn ∈ ps) (hrings : Part.rings ∈ ps) : Only ps s0 (State.requestSend s a1 a2 a3 a4 a5) := by
  unfold State.requestSend
  extract_lets x1 p2 pt3 s4 c5
  have hs4 : Only ps s0 s4 := by
    with_reducible exact State.setObj_only h hobjs
  clear_value s4
  refine Only.ite ?_ ?_
  · refine Only.ite ?_ ?_
    · exact h
    · with_reducible exact State.complete_only h hcounts hhalves hout hrings
  · refine Only.ite ?_ ?_
    · refine Only.ite ?_ ?_
      · exact h
      · with_reducible exact State.complete_only h hcounts hhalves hout hrings
    · with_reducible exact State.enterSet_only hs4 hcounts hfree hfuncs hhalves hobjs hout hports hregs_fn hrings

theorem State.gwPass_only {a1 a2 a3}  (h : Only ps s0 s) (hcounts : Part.counts ∈ ps) (heths : Part.eths ∈ ps) (hfab : Part.fab ∈ ps) (hfree : Part.free ∈ ps) (hfuncs : Part.funcs ∈ ps) (hhalves : Part.halves ∈ ps) (hlinks : Part.links ∈ ps) (hobjs : Part.objs ∈ ps) (hout : Part.out ∈ ps) (hports : Part.ports ∈ ps) (hregs_fn : Part.regs .fn ∈ ps) (hrings : Part.rings ∈ ps) (hroutes : Part.routes ∈ ps) (hspur : Part.spur ∈ ps) (htarn : Part.tarn ∈ ps) : Only ps s0 (State.gwPass s a1 a2 a3) := by
  unfold State.gwPass
  extract_lets p1 e2 d3 ob4 s5
  have hs5 : Only ps s0 s5 := by
    with_reducible refine State.writeSend_only ?_ hobjs htarn
    with_reducible exact State.gwHit_only h hspur
  clear_value s5
  refine Only.ite ?_ ?_
  · with_reducible exact State.ruleDrop_only h hspur
  · refine Only.ite ?_ ?_
    · refine Only.ite ?_ ?_
      · with_reducible exact State.ruleDrop_only h hspur
      · with_reducible refine State.routeOut_only ?_ hcounts heths hfab hhalves hlinks hout hports hrings hroutes hspur
        with_reducible exact State.gwHit_only h hspur
    · refine Only.ite ?_ ?_
      · with_reducible exact State.ruleDrop_only h hspur
      · refine Only.ite ?_ ?_
        · exact hs5
        · with_reducible exact State.requestSend_only hs5 hcounts hfree hfuncs hhalves hobjs hout hports hregs_fn hrings

theorem State.gwReplace_only {a1 a2}  (h : Only ps s0 s) (hspur : Part.spur ∈ ps) : Only ps s0 (State.gwReplace s a1 a2) := by
  unfold State.gwReplace
  split
  · rename_i x1 r2 heq3
    with_reducible exact State.setRule_only h hspur
  · rename_i x4 heq5
    exact h

theorem State.gwRuleOp_only {a1 a2 a3}  (h : Only ps s0 s) (hcounts : Part.counts ∈ ps) (hhalves : Part.halves ∈ ps) (hout : Part.out ∈ ps) (hrings : Part.rings ∈ ps) (hspur : Part.spur ∈ ps) : Only ps s0 (State.gwRuleOp s a1 a2 a3) := by
  unfold State.gwRuleOp
  extract_lets i1 d2 foreign3 x4 x5 r6
  have hx4 : Only ps s0 x4 := by
    with_reducible exact State.setRule_only h hspur
  clear_value x4
  refine Only.ite ?_ ?_
  · with_reducible exact State.complete_only h hcounts hhalves hout hrings
  · refine Only.ite ?_ ?_
    · with_reducible exact State.complete_only h hcounts hhalves hout hrings
    · refine Only.ite ?_ ?_
      · refine Only.ite ?_ ?_
        · with_reducible exact State.complete_only h hcounts hhalves hout hrings
        · with_reducible refine State.complete_only ?_ hcounts hhalves hout hrings
          refine (hx4.spur hspur)
      · refine Only.ite ?_ ?_
        · with_reducible exact State.complete_only h hcounts hhalves hout hrings
        · refine Only.ite ?_ ?_
          · with_reducible exact State.complete_only h hcounts hhalves hout hrings
          · refine Only.ite ?_ ?_
            · with_reducible exact State.complete_only h hcounts hhalves hout hrings
            · split
              · rename_i x7 heq8
                refine Only.ite ?_ ?_
                · with_reducible refine State.complete_only ?_ hcounts hhalves hout hrings
                  with_reducible exact State.setRule_only h hspur
                · with_reducible exact State.complete_only h hcounts hhalves hout hrings
              · rename_i x9 old10 heq11
                refine Only.ite ?_ ?_
                · with_reducible exact State.complete_only h hcounts hhalves hout hrings
                · with_reducible refine State.complete_only ?_ hcounts hhalves hout hrings
                  with_reducible exact State.setRule_only h hspur

theorem State.gwTake_only {a1 a2}  (h : Only ps s0 s) (hcounts : Part.counts ∈ ps) (heths : Part.eths ∈ ps) (hfab : Part.fab ∈ ps) (hfree : Part.free ∈ ps) (hfuncs : Part.funcs ∈ ps) (hhalves : Part.halves ∈ ps) (hlinks : Part.links ∈ ps) (hobjs : Part.objs ∈ ps) (hout : Part.out ∈ ps) (hports : Part.ports ∈ ps) (hregs_fn : Part.regs .fn ∈ ps) (hrings : Part.rings ∈ ps) (hroutes : Part.routes ∈ ps) (hspur : Part.spur ∈ ps) (htarn : Part.tarn ∈ ps) : Only ps s0 (State.gwTake s a1 a2) := by
  unfold State.gwTake
  split
  · rename_i x1 heq2
    exact h
  · rename_i x3 old4 heq5
    refine Only.ite ?_ ?_
    · with_reducible exact State.ruleDrop_only h hspur
    · refine Only.ite ?_ ?_
      · with_reducible refine State.gwPass_only ?_ hcounts heths hfab hfree hfuncs hhalves hlinks hobjs hout hports hregs_fn hrings hroutes hspur htarn
        with_reducible exact State.gwReplace_only h hspur
      · with_reducible exact State.gwReplace_only h hspur

theorem State.linkEntersUp_only {a1}  (h : Only ps s0 s) (hfab : Part.fab ∈ ps) (hlinks : Part.links ∈ ps) (hout : Part.out ∈ ps) (hregs_fab : Part.regs .fab ∈ ps) (hregs_fn : Part.regs .fn ∈ ps) (hregs_tmu : Part.regs .tmu ∈ ps) : Only ps s0 (State.linkEntersUp s a1) := by
  unfold State.linkEntersUp
  extract_lets x1 s2
  have hs2 : Only ps s0 s2 := by
    with_reducible exact State.setLink_only h hlinks
  clear_value s2
  with_reducible refine State.fabEvt_only ?_ hregs_fab
  with_reducible refine State.newTopo_only ?_ hfab hlinks hout
  with_reducible exact State.topologyChanged_only hs2 hfab hregs_fab hregs_fn hregs_tmu

theorem State.helloOp_only {a1 a2}  (h : Only ps s0 s) (hcounts : Part.counts ∈ ps) (hfab : Part.fab ∈ ps) (hfree : Part.free ∈ ps) (hhalves : Part.halves ∈ ps) (hkeys : Part.keys ∈ ps) (hlinks : Part.links ∈ ps) (hout : Part.out ∈ ps) (hregs_fab : Part.regs .fab ∈ ps) (hregs_fn : Part.regs .fn ∈ ps) (hregs_tmu : Part.regs .tmu ∈ ps) : Only ps s0 (State.helloOp s a1 a2) := by
  unfold State.helloOp
  extract_lets l1 was2 c3 s4
  have hs4 : Only ps s0 s4 := by
    with_reducible exact State.setLink_only h hlinks
  clear_value s4
  refine Only.ite ?_ ?_
  · with_reducible exact State.linkDown_only h hcounts hfab hhalves hkeys hlinks hout hregs_fab hregs_fn hregs_tmu
  · split
    · rename_i x5 heq6
      refine Only.ite ?_ ?_
      · with_reducible exact State.enterKeying_only hs4 hfree hlinks
      · refine Only.ite ?_ ?_
        · with_reducible exact State.linkEntersUp_only hs4 hfab hlinks hout hregs_fab hregs_fn hregs_tmu
        · exact hs4
    · rename_i x7 heq8
      refine Only.ite ?_ ?_
      · with_reducible refine State.newTopo_only ?_ hfab hlinks hout
        with_reducible exact State.topologyChanged_only hs4 hfab hregs_fab hregs_fn hregs_tmu
      · with_reducible exact State.fabricTime_only hs4 hfab hregs_fab hregs_tmu
    · rename_i x9 x10 x11
      exact hs4

theorem State.holdOp_only {a1 a2}  (h : Only ps s0 s) (hcairn : Part.cairn ∈ ps) (hcounts : Part.counts ∈ ps) (hgroups : Part.groups ∈ ps) (hhalves : Part.halves ∈ ps) (hout : Part.out ∈ ps) (hports : Part.ports ∈ ps) (hregs_grp : Part.regs .grp ∈ ps) (hregs_port : Part.regs .port ∈ ps) (hrings : Part.rings ∈ ps) (htrust : Part.trust ∈ ps) : Only ps s0 (State.holdOp s a1 a2) := by
  unfold State.holdOp
  refine Only.ite ?_ ?_
  · with_reducible exact State.complete_only h hcounts hhalves hout hrings
  · with_reducible exact State.holdRequest_only h hcairn hcounts hgroups hhalves hout hports hregs_grp hregs_port hrings htrust

theorem State.holdTimeEnds_only {a1 a2}  (h : Only ps s0 s) (hports : Part.ports ∈ ps) : Only ps s0 (State.holdTimeEnds s a1 a2) := by
  unfold State.holdTimeEnds
  extract_lets x1
  refine Only.ite ?_ ?_
  · with_reducible exact State.setPort_only h hports
  · with_reducible exact State.setPort_only h hports

theorem State.noteBoot_only {a1}  (h : Only ps s0 s) (hfab : Part.fab ∈ ps) : Only ps s0 (State.noteBoot s a1) := by
  unfold State.noteBoot
  extract_lets a1 b2 old3 had4 reboot5 taken6 fresh7 x8
  refine (h.fab hfab)

theorem State.holdTopo_only {a1}  (h : Only ps s0 s) (hfab : Part.fab ∈ ps) (hregs_fab : Part.regs .fab ∈ ps) (hregs_fn : Part.regs .fn ∈ ps) (hregs_tmu : Part.regs .tmu ∈ ps) : Only ps s0 (State.holdTopo s a1) := by
  unfold State.holdTopo
  extract_lets before1 s2 x3 s4 same5
  have hs2 : Only ps s0 s2 := by
    with_reducible exact State.noteBoot_only h hfab
  clear_value s2
  have hs4 : Only ps s0 s4 := by
    refine (hs2.fab hfab)
  clear_value s4
  refine Only.ite ?_ ?_
  · exact hs4
  · with_reducible exact State.topologyChanged_only hs4 hfab hregs_fab hregs_fn hregs_tmu

theorem State.imgActivateOp_only {a1 a2 a3}  (h : Only ps s0 s) (hcairn : Part.cairn ∈ ps) (hcounts : Part.counts ∈ ps) (hhalves : Part.halves ∈ ps) (hout : Part.out ∈ ps) (hrings : Part.rings ∈ ps) : Only ps s0 (State.imgActivateOp s a1 a2 a3) := by
  unfold State.imgActivateOp
  extract_lets slot1
  split
  · rename_i x2 heq3
    refine Only.ite ?_ ?_
    · with_reducible exact State.complete_only h hcounts hhalves hout hrings
    · with_reducible exact State.complete_only h hcounts hhalves hout hrings
  · rename_i x4 i5 heq6
    refine Only.ite ?_ ?_
    · with_reducible exact State.complete_only h hcounts hhalves hout hrings
    · refine Only.ite ?_ ?_
      · with_reducible exact State.complete_only h hcounts hhalves hout hrings
      · refine Only.ite ?_ ?_
        · with_reducible exact State.complete_only h hcounts hhalves hout hrings
        · refine Only.ite ?_ ?_
          · with_reducible exact State.complete_only h hcounts hhalves hout hrings
          · with_reducible exact State.beginActivation_only h hcairn

theorem State.stageWrite_only {a1 a2 a3 a4} (h : Only ps s0 s) (he : State.stageWrite s a1 a2 a3 a4 = some t) (hcairn : Part.cairn ∈ ps) : Only ps s0 t := by
  unfold State.stageWrite at he
  dsimp only at he
  split at he
  · cases he
  · cases he; exact (State.setCairn_only h hcairn)

theorem State.imgWriteOp_only {a1 a2 a3 a4}  (h : Only ps s0 s) (hcairn : Part.cairn ∈ ps) (hcounts : Part.counts ∈ ps) (hhalves : Part.halves ∈ ps) (hout : Part.out ∈ ps) (hrings : Part.rings ∈ ps) : Only ps s0 (State.imgWriteOp s a1 a2 a3 a4) := by
  unfold State.imgWriteOp
  extract_lets off1 len2
  refine Only.ite ?_ ?_
  · with_reducible exact State.complete_only h hcounts hhalves hout hrings
  · refine Only.ite ?_ ?_
    · with_reducible exact State.complete_only h hcounts hhalves hout hrings
    · refine Only.ite ?_ ?_
      · with_reducible exact State.complete_only h hcounts hhalves hout hrings
      · split
        · rename_i x3 heq4
          with_reducible exact State.complete_only h hcounts hhalves hout hrings
        · rename_i x5 s6 heq7
          with_reducible refine State.complete_only ?_ hcounts hhalves hout hrings
          exact State.stageWrite_only h heq7 hcairn

theorem State.isolate_only {a1 a2 a3}  (h : Only ps s0 s) (hgroups : Part.groups ∈ ps) (hregs_grp : Part.regs .grp ∈ ps) : Only ps s0 (State.isolate s a1 a2 a3) := by
  unfold State.isolate
  extract_lets g1 x2 s3 g4 s5
  have hs3 : Only ps s0 s3 := by
    with_reducible exact State.setBranch_only h hgroups
  clear_value s3
  have hs5 : Only ps s0 s5 := by
    with_reducible exact State.setGroup_only hs3 hgroups
  clear_value s5
  with_reducible refine State.grpEvt_only ?_ hregs_grp
  with_reducible exact State.grpEvt_only hs5 hregs_grp

theorem State.joinBranch_only {a1 a2}  (h : Only ps s0 s) (hcounts : Part.counts ∈ ps) (hgroups : Part.groups ∈ ps) (hhalves : Part.halves ∈ ps) (hout : Part.out ∈ ps) (hports : Part.ports ∈ ps) (hregs_grp : Part.regs .grp ∈ ps) (hregs_port : Part.regs .port ∈ ps) (hrings : Part.rings ∈ ps) : Only ps s0 (State.joinBranch s a1 a2) := by
  unfold State.joinBranch
  extract_lets x1 s2 s3 g4 s5
  have hs2 : Only ps s0 s2 := by
    with_reducible exact State.setBranch_only h hgroups
  clear_value s2
  have hs3 : Only ps s0 s3 := by
    with_reducible exact State.grpEvt_only hs2 hregs_grp
  clear_value s3
  have hs5 : Only ps s0 s5 := by
    refine Only.ite ?_ ?_
    · with_reducible exact State.groupGoes_only hs3 hgroups hports hregs_grp hregs_port
    · with_reducible exact State.groupGoes_only hs3 hgroups hports hregs_grp hregs_port
  clear_value s5
  refine Only.ite ?_ ?_
  · with_reducible exact State.groupHoldArrives_only hs5 hcounts hgroups hhalves hout hports hregs_grp hregs_port hrings
  · exact hs3

theorem State.joinFrame_only {a1 a2 a3 a4}  (h : Only ps s0 s) (hgroups : Part.groups ∈ ps) (hout : Part.out ∈ ps) : Only ps s0 (State.joinFrame s a1 a2 a3 a4) := by
  unfold State.joinFrame
  extract_lets f1 x2
  with_reducible refine State.driveOthers_only ?_ hout
  with_reducible exact State.setGroup_only h hgroups

theorem State.keyDone_only {a1 a2 a3 a4}  (h : Only ps s0 s) (hcounts : Part.counts ∈ ps) (hhalves : Part.halves ∈ ps) (hintake : Part.intake ∈ ps) (hout : Part.out ∈ ps) (hrings : Part.rings ∈ ps) : Only ps s0 (State.keyDone s a1 a2 a3 a4) := by
  unfold State.keyDone
  extract_lets s1
  have hs1 : Only ps s0 s1 := by
    with_reducible exact State.record_only h hintake
  clear_value s1
  with_reducible exact State.complete_only hs1 hcounts hhalves hout hrings

theorem State.keyEraseOp_only {a1 a2}  (h : Only ps s0 s) (hcounts : Part.counts ∈ ps) (hfab : Part.fab ∈ ps) (hhalves : Part.halves ∈ ps) (hintake : Part.intake ∈ ps) (hkeys : Part.keys ∈ ps) (hlinks : Part.links ∈ ps) (hout : Part.out ∈ ps) (hregs_fab : Part.regs .fab ∈ ps) (hregs_fn : Part.regs .fn ∈ ps) (hregs_tmu : Part.regs .tmu ∈ ps) (hrings : Part.rings ∈ ps) : Only ps s0 (State.keyEraseOp s a1 a2) := by
  unfold State.keyEraseOp
  extract_lets h1
  refine Only.ite ?_ ?_
  · with_reducible exact State.keyDone_only h hcounts hhalves hintake hout hrings
  · refine Only.ite ?_ ?_
    · with_reducible exact State.keyDone_only h hcounts hhalves hintake hout hrings
    · with_reducible refine State.keyDone_only ?_ hcounts hhalves hintake hout hrings
      with_reducible refine State.dropKeyless_only ?_ hcounts hfab hhalves hkeys hlinks hout hregs_fab hregs_fn hregs_tmu
      with_reducible exact State.setKey_only h hkeys

theorem State.keyGenOp_only {a1 a2}  (h : Only ps s0 s) (hcounts : Part.counts ∈ ps) (hfree : Part.free ∈ ps) (hhalves : Part.halves ∈ ps) (hintake : Part.intake ∈ ps) (hkeys : Part.keys ∈ ps) (hout : Part.out ∈ ps) (hrings : Part.rings ∈ ps) : Only ps s0 (State.keyGenOp s a1 a2) := by
  unfold State.keyGenOp
  extract_lets use1 st2 key3
  refine Only.ite ?_ ?_
  · with_reducible exact State.keyDone_only h hcounts hhalves hintake hout hrings
  · dsimp only
    split
    · rename_i x4 heq5
      with_reducible exact State.keyDone_only h hcounts hhalves hintake hout hrings
    · rename_i x6 h7 heq8
      with_reducible refine State.keyDone_only ?_ hcounts hhalves hintake hout hrings
      with_reducible refine State.hostWrite_only ?_ hout
      with_reducible refine State.setKey_only ?_ hkeys
      with_reducible exact State.draw_only h hfree

theorem State.keyLoadOp_only {a1 a2 a3}  (h : Only ps s0 s) (hcounts : Part.counts ∈ ps) (hhalves : Part.halves ∈ ps) (hintake : Part.intake ∈ ps) (hkeys : Part.keys ∈ ps) (hout : Part.out ∈ ps) (hrings : Part.rings ∈ ps) : Only ps s0 (State.keyLoadOp s a1 a2 a3) := by
  unfold State.keyLoadOp
  extract_lets use1 st2 gen3
  refine Only.ite ?_ ?_
  · with_reducible exact State.keyDone_only h hcounts hhalves hintake hout hrings
  · dsimp only
    split
    · rename_i x4 heq5
      with_reducible exact State.keyDone_only h hcounts hhalves hintake hout hrings
    · rename_i x6 p7 heq8
      refine Only.ite ?_ ?_
      · with_reducible exact State.keyDone_only h hcounts hhalves hintake hout hrings
      · split
        · rename_i x9 heq10
          with_reducible exact State.keyDone_only h hcounts hhalves hintake hout hrings
        · rename_i x11 h12 heq13
          with_reducible refine State.keyDone_only ?_ hcounts hhalves hintake hout hrings
          with_reducible exact State.setKey_only h hkeys

theorem State.keyxOp_only {a1 a2}  (h : Only ps s0 s) (hkeys : Part.keys ∈ ps) (hlinks : Part.links ∈ ps) (hregs_fab : Part.regs .fab ∈ ps) : Only ps s0 (State.keyxOp s a1 a2) := by
  unfold State.keyxOp
  extract_lets l1 x2 n3
  dsimp only
  split
  · rename_i x4 x5 draw6 mine7 h8 heq9 heq10
    refine Only.ite ?_ ?_
    · with_reducible refine State.setLink_only ?_ hlinks
      with_reducible exact State.setKey_only h hkeys
    · with_reducible exact State.fabEvt_only h hregs_fab
  · rename_i x11 x12 x13
    with_reducible exact State.fabEvt_only h hregs_fab

theorem State.ownerErase_only  (h : Only ps s0 s) (hcairn : Part.cairn ∈ ps) (hcounts : Part.counts ∈ ps) (heths : Part.eths ∈ ps) (hfab : Part.fab ∈ ps) (hflt : Part.flt ∈ ps) (hfuncs : Part.funcs ∈ ps) (hgroups : Part.groups ∈ ps) (hhalves : Part.halves ∈ ps) (hintake : Part.intake ∈ ps) (hkeys : Part.keys ∈ ps) (hlinks : Part.links ∈ ps) (hlog : Part.log ∈ ps) (hobjs : Part.objs ∈ ps) (hout : Part.out ∈ ps) (hpartition : Part.partition ∈ ps) (hports : Part.ports ∈ ps) (hregs_fab : Part.regs .fab ∈ ps) (hregs_flt : Part.regs .flt ∈ ps) (hregs_fn : Part.regs .fn ∈ ps) (hregs_grp : Part.regs .grp ∈ ps) (hregs_port : Part.regs .port ∈ ps) (hregs_ring : Part.regs .ring ∈ ps) (hregs_tmu : Part.regs .tmu ∈ ps) (hrings : Part.rings ∈ ps) (hroutes : Part.routes ∈ ps) (hrxq : Part.rxq ∈ ps) (hspur : Part.spur ∈ ps) (htarn : Part.tarn ∈ ps) (htrust : Part.trust ∈ ps) (hunits : Part.units ∈ ps) : Only ps s0 (State.ownerErase s) := by
  unfold State.ownerErase
  with_reducible refine State.eraseRecords_only ?_ hintake hlog
  with_reducible refine State.defaultPartition_only ?_ hcairn hcounts heths hfuncs hgroups hhalves hobjs hout hpartition hports hregs_flt hregs_grp hregs_port hregs_ring hrings hroutes hspur htarn htrust hunits
  with_reducible exact State.eraseData_only h hcounts heths hfab hflt hhalves hkeys hlinks hobjs hout hports hregs_fab hregs_fn hregs_tmu hrings hrxq hspur htarn

theorem State.setLife_only {a1}  (h : Only ps s0 s) (hintake : Part.intake ∈ ps) (hotp : Part.otp ∈ ps) : Only ps s0 (State.setLife s a1) := by
  unfold State.setLife
  extract_lets old1 x2
  with_reducible refine State.record_only ?_ hintake
  with_reducible exact State.setOtp_only h hotp

theorem State.killDus_only {a1}  (h : Only ps s0 s) (hcairn : Part.cairn ∈ ps) (hcounts : Part.counts ∈ ps) (heths : Part.eths ∈ ps) (hfab : Part.fab ∈ ps) (hflt : Part.flt ∈ ps) (hfuncs : Part.funcs ∈ ps) (hgroups : Part.groups ∈ ps) (hhalves : Part.halves ∈ ps) (hintake : Part.intake ∈ ps) (hkeys : Part.keys ∈ ps) (hlinks : Part.links ∈ ps) (hlog : Part.log ∈ ps) (hobjs : Part.objs ∈ ps) (hotp : Part.otp ∈ ps) (hout : Part.out ∈ ps) (hpartition : Part.partition ∈ ps) (hports : Part.ports ∈ ps) (hregs_fab : Part.regs .fab ∈ ps) (hregs_flt : Part.regs .flt ∈ ps) (hregs_fn : Part.regs .fn ∈ ps) (hregs_grp : Part.regs .grp ∈ ps) (hregs_port : Part.regs .port ∈ ps) (hregs_ring : Part.regs .ring ∈ ps) (hregs_tmu : Part.regs .tmu ∈ ps) (hrings : Part.rings ∈ ps) (hroutes : Part.routes ∈ ps) (hrxq : Part.rxq ∈ ps) (hspur : Part.spur ∈ ps) (htarn : Part.tarn ∈ ps) (htrust : Part.trust ∈ ps) (hunits : Part.units ∈ ps) : Only ps s0 (State.killDus s a1) := by
  unfold State.killDus
  extract_lets s1 x2
  have hs1 : Only ps s0 s1 := by
    with_reducible exact State.ownerErase_only h hcairn hcounts heths hfab hflt hfuncs hgroups hhalves hintake hkeys hlinks hlog hobjs hout hpartition hports hregs_fab hregs_flt hregs_fn hregs_grp hregs_port hregs_ring hregs_tmu hrings hroutes hrxq hspur htarn htrust hunits
  clear_value s1
  with_reducible refine State.setLife_only ?_ hintake hotp
  with_reducible exact State.setOtp_only hs1 hotp

theorem State.linkStart_only {a1 a2 a3 a4}  (h : Only ps s0 s) (hcounts : Part.counts ∈ ps) (hhalves : Part.halves ∈ ps) (hlinks : Part.links ∈ ps) (hout : Part.out ∈ ps) : Only ps s0 (State.linkStart s a1 a2 a3 a4) := by
  unfold State.linkStart
  extract_lets l1 t2 g3 s4
  have hs4 : Only ps s0 s4 := by
    with_reducible exact State.setLink_only h hlinks
  clear_value s4
  with_reducible refine State.dropFrom_only ?_ hlinks hout
  with_reducible refine State.emitRidge_only ?_ hlinks hout
  with_reducible exact State.takeWire_only hs4 hcounts hhalves hlinks

theorem State.logReadOp_only {a1 a2}  (h : Only ps s0 s) (hcounts : Part.counts ∈ ps) (hhalves : Part.halves ∈ ps) (hout : Part.out ∈ ps) (hrings : Part.rings ∈ ps) : Only ps s0 (State.logReadOp s a1 a2) := by
  unfold State.logReadOp
  extract_lets count1
  refine Only.ite ?_ ?_
  · with_reducible exact State.complete_only h hcounts hhalves hout hrings
  · refine Only.ite ?_ ?_
    · with_reducible exact State.complete_only h hcounts hhalves hout hrings
    · dsimp only
      with_reducible refine State.complete_only ?_ hcounts hhalves hout hrings
      with_reducible exact State.hostWrite_only h hout

theorem State.loseObjects_only {a1}  (h : Only ps s0 s) (hobjs : Part.objs ∈ ps) : Only ps s0 (State.loseObjects s a1) := by
  unfold State.loseObjects
  extract_lets objs1
  refine (h.objs hobjs)

theorem State.makeOther_only {a1}  (h : Only ps s0 s) (hcairn : Part.cairn ∈ ps) (hintake : Part.intake ∈ ps) (hregs_fn : Part.regs .fn ∈ ps) : Only ps s0 (State.makeOther s a1) := by
  unfold State.makeOther
  extract_lets x1 s2
  have hs2 : Only ps s0 s2 := by
    with_reducible exact State.setComp_only h hcairn
  clear_value s2
  with_reducible refine State.crnEvent_only ?_ hcairn hregs_fn
  with_reducible exact State.record_only hs2 hintake

theorem State.noteRefSof_only {a1 a2 a3 a4 a5}  (h : Only ps s0 s) (hgroups : Part.groups ∈ ps) : Only ps s0 (State.noteRefSof s a1 a2 a3 a4 a5) := by
  unfold State.noteRefSof
  extract_lets g1
  refine Only.ite ?_ ?_
  · exact h
  · refine Only.ite ?_ ?_
    · with_reducible exact State.setGroup_only h hgroups
    · with_reducible exact State.setGroup_only h hgroups

theorem State.objReadOp_only {a1 a2 a3}  (h : Only ps s0 s) (hcounts : Part.counts ∈ ps) (hhalves : Part.halves ∈ ps) (hobjs : Part.objs ∈ ps) (hout : Part.out ∈ ps) (hrings : Part.rings ∈ ps) (htarn : Part.tarn ∈ ps) : Only ps s0 (State.objReadOp s a1 a2 a3) := by
  unfold State.objReadOp
  extract_lets o1 ob2
  refine Only.ite ?_ ?_
  · with_reducible exact State.complete_only h hcounts hhalves hout hrings
  · refine Only.ite ?_ ?_
    · with_reducible exact State.complete_only h hcounts hhalves hout hrings
    · refine Only.ite ?_ ?_
      · with_reducible exact State.complete_only h hcounts hhalves hout hrings
      · refine Only.ite ?_ ?_
        · with_reducible exact State.setObj_only h hobjs
        · with_reducible exact State.startCopy_only h hobjs hout htarn

theorem State.objSendOp_only {a1 a2 a3}  (h : Only ps s0 s) (hcounts : Part.counts ∈ ps) (hfree : Part.free ∈ ps) (hfuncs : Part.funcs ∈ ps) (hhalves : Part.halves ∈ ps) (hobjs : Part.objs ∈ ps) (hout : Part.out ∈ ps) (hports : Part.ports ∈ ps) (hregs_fn : Part.regs .fn ∈ ps) (hrings : Part.rings ∈ ps) : Only ps s0 (State.objSendOp s a1 a2 a3) := by
  unfold State.objSendOp
  extract_lets o1 ob2
  refine Only.ite ?_ ?_
  · with_reducible exact State.complete_only h hcounts hhalves hout hrings
  · refine Only.ite ?_ ?_
    · with_reducible exact State.complete_only h hcounts hhalves hout hrings
    · refine Only.ite ?_ ?_
      · with_reducible exact State.complete_only h hcounts hhalves hout hrings
      · refine Only.ite ?_ ?_
        · with_reducible exact State.complete_only h hcounts hhalves hout hrings
        · with_reducible exact State.requestSend_only h hcounts hfree hfuncs hhalves hobjs hout hports hregs_fn hrings

theorem State.objWriteOp_only {a1 a2 a3 a4}  (h : Only ps s0 s) (hcounts : Part.counts ∈ ps) (hfree : Part.free ∈ ps) (hfuncs : Part.funcs ∈ ps) (hhalves : Part.halves ∈ ps) (hobjs : Part.objs ∈ ps) (hout : Part.out ∈ ps) (hports : Part.ports ∈ ps) (hregs_fn : Part.regs .fn ∈ ps) (hrings : Part.rings ∈ ps) (htarn : Part.tarn ∈ ps) : Only ps s0 (State.objWriteOp s a1 a2 a3 a4) := by
  unfold State.objWriteOp
  extract_lets o1 len2 send3 ob4 s5
  have hs5 : Only ps s0 s5 := by
    with_reducible exact State.writeSend_only h hobjs htarn
  clear_value s5
  refine Only.ite ?_ ?_
  · with_reducible exact State.complete_only h hcounts hhalves hout hrings
  · refine Only.ite ?_ ?_
    · with_reducible exact State.complete_only h hcounts hhalves hout hrings
    · refine Only.ite ?_ ?_
      · with_reducible exact State.complete_only h hcounts hhalves hout hrings
      · refine Only.ite ?_ ?_
        · with_reducible exact State.complete_only h hcounts hhalves hout hrings
        · refine Only.ite ?_ ?_
          · with_reducible exact State.complete_only h hcounts hhalves hout hrings
          · refine Only.ite ?_ ?_
            · with_reducible exact State.requestSend_only hs5 hcounts hfree hfuncs hhalves hobjs hout hports hregs_fn hrings
            · with_reducible exact State.complete_only hs5 hcounts hhalves hout hrings

theorem State.offsetOp_only {a1 a2}  (h : Only ps s0 s) (hcounts : Part.counts ∈ ps) (hhalves : Part.halves ∈ ps) (hout : Part.out ∈ ps) (hrings : Part.rings ∈ ps) (htmu : Part.tmu ∈ ps) : Only ps s0 (State.offsetOp s a1 a2) := by
  unfold State.offsetOp
  extract_lets src1 steers2 s3
  have hs3 : Only ps s0 s3 := by
    refine Only.ite ?_ ?_
    · with_reducible exact State.offerSample_only h htmu
    · exact h
  clear_value s3
  refine Only.ite ?_ ?_
  · with_reducible exact State.complete_only h hcounts hhalves hout hrings
  · refine Only.ite ?_ ?_
    · with_reducible exact State.complete_only h hcounts hhalves hout hrings
    · with_reducible exact State.complete_only hs3 hcounts hhalves hout hrings

theorem State.ownFn_only {f : State → State} {a1 a2 a3}  (h : Only ps s0 s) (hf : ∀ y, Only ps s0 y → Only ps s0 (f y)) (hevc : Part.evc ∈ ps) (hfree : Part.free ∈ ps) (hfuncs : Part.funcs ∈ ps) (hintake : Part.intake ∈ ps) (hmay : Part.may ∈ ps) (hout : Part.out ∈ ps) (hregs_guard : Part.regs .guard ∈ ps) : Result.All (Only ps s0) (State.ownFn s a1 a2 a3 f) := by
  unfold State.ownFn
  refine Result.all_ite ?_ ?_
  · refine Result.all_next ?_
    exact h
  · refine Result.all_ite ?_ ?_
    · with_reducible refine finish_only ?_ hevc hfree hfuncs hintake hmay hout hregs_guard
      exact hf _ h
    · with_reducible refine finish_only ?_ hevc hfree hfuncs hintake hmay hout hregs_guard
      with_reducible exact State.crossDomain_only h hintake

theorem State.ownerEnrolOp_only {a1 a2 a3}  (h : Only ps s0 s) (hcounts : Part.counts ∈ ps) (hfree : Part.free ∈ ps) (hhalves : Part.halves ∈ ps) (hintake : Part.intake ∈ ps) (hotp : Part.otp ∈ ps) (hout : Part.out ∈ ps) (hrings : Part.rings ∈ ps) : Only ps s0 (State.ownerEnrolOp s a1 a2 a3) := by
  unfold State.ownerEnrolOp
  refine Only.ite ?_ ?_
  · with_reducible exact State.complete_only h hcounts hhalves hout hrings
  · refine Only.ite ?_ ?_
    · with_reducible exact State.complete_only h hcounts hhalves hout hrings
    · refine Only.ite ?_ ?_
      · with_reducible exact State.complete_only h hcounts hhalves hout hrings
      · refine Only.ite ?_ ?_
        · with_reducible exact State.complete_only h hcounts hhalves hout hrings
        · dsimp only
          split
          · rename_i x1 heq2
            with_reducible exact State.complete_only h hcounts hhalves hout hrings
          · rename_i x3 i4 heq5
            with_reducible refine State.complete_only ?_ hcounts hhalves hout hrings
            with_reducible refine State.setLife_only ?_ hintake hotp
            with_reducible refine State.setOtp_only ?_ hotp
            with_reducible exact State.draw_only h hfree

theorem State.passFifo_only {a1}  (h : Only ps s0 s) (hcounts : Part.counts ∈ ps) (heths : Part.eths ∈ ps) (hhalves : Part.halves ∈ ps) (hports : Part.ports ∈ ps) (hrxq : Part.rxq ∈ ps) : Only ps s0 (State.passFifo s a1) := by
  unfold State.passFifo
  extract_lets x1
  refine Only.foldl ?_ ?_
  · with_reducible exact State.setPort_only h hports
  · intro s2 x3 k4
    with_reducible exact State.stageFrame_only k4 hcounts heths hhalves hports hrxq

theorem State.pfReset_only  (h : Only ps s0 s) (hcairn : Part.cairn ∈ ps) (hcounts : Part.counts ∈ ps) (hdev : Part.dev ∈ ps) (heths : Part.eths ∈ ps) (hfab : Part.fab ∈ ps) (hfuncs : Part.funcs ∈ ps) (hgroups : Part.groups ∈ ps) (hhalves : Part.halves ∈ ps) (hkeys : Part.keys ∈ ps) (hlinks : Part.links ∈ ps) (hobjs : Part.objs ∈ ps) (hout : Part.out ∈ ps) (hports : Part.ports ∈ ps) (hregs_fab : Part.regs .fab ∈ ps) (hregs_fn : Part.regs .fn ∈ ps) (hregs_grp : Part.regs .grp ∈ ps) (hregs_port : Part.regs .port ∈ ps) (hregs_tmu : Part.regs .tmu ∈ ps) (hrings : Part.rings ∈ ps) (hspur : Part.spur ∈ ps) (htarn : Part.tarn ∈ ps) (htrust : Part.trust ∈ ps) : Only ps s0 (State.pfReset s) := by
  unfold State.pfReset
  extract_lets vfs1 x2 s3
  have hs3 : Only ps s0 s3 := by
    refine (h.dev hdev)
  clear_value s3
  refine Only.foldl ?_ ?_
  · exact hs3
  · intro s4 x5 k6
    refine Only.ite ?_ ?_
    · exact k6
    · with_reducible exact State.flrStart_only k6 hcairn hcounts heths hfab hfuncs hgroups hhalves hkeys hlinks hobjs hout hports hregs_fab hregs_fn hregs_grp hregs_port hregs_tmu hrings hspur htarn htrust

theorem State.planCold_only {a1}  (h : Only ps s0 s) (hgroups : Part.groups ∈ ps) : Only ps s0 (State.planCold s a1) := by
  unfold State.planCold
  extract_lets x1
  with_reducible exact State.setGroup_only h hgroups

theorem State.waitFrom_only {a1 a2}  (h : Only ps s0 s) (hcounts : Part.counts ∈ ps) (hfree : Part.free ∈ ps) (hfuncs : Part.funcs ∈ ps) (hhalves : Part.halves ∈ ps) (hobjs : Part.objs ∈ ps) (hout : Part.out ∈ ps) (hports : Part.ports ∈ ps) (hregs_fn : Part.regs .fn ∈ ps) (hrings : Part.rings ∈ ps) (htmu : Part.tmu ∈ ps) : Only ps s0 (State.waitFrom s a1 a2) := by
  unfold State.waitFrom
  with_reducible exact State.advance_only h hcounts hfree hfuncs hhalves hobjs hout hports hregs_fn hrings htmu

theorem State.ptpTurn_only {a1 a2}  (h : Only ps s0 s) (hcounts : Part.counts ∈ ps) (hfree : Part.free ∈ ps) (hfuncs : Part.funcs ∈ ps) (hhalves : Part.halves ∈ ps) (hobjs : Part.objs ∈ ps) (hout : Part.out ∈ ps) (hports : Part.ports ∈ ps) (hptp : Part.ptp ∈ ps) (hregs_fn : Part.regs .fn ∈ ps) (hrings : Part.rings ∈ ps) (htmu : Part.tmu ∈ ps) : Only ps s0 (State.ptpTurn s a1 a2) := by
  unfold State.ptpTurn
  extract_lets s1 x2
  have hs1 : Only ps s0 s1 := by
    with_reducible exact State.waitFrom_only h hcounts hfree hfuncs hhalves hobjs hout hports hregs_fn hrings htmu
  clear_value s1
  refine (hs1.ptp hptp)

theorem State.pulseEnds_only {a1 a2}  (h : Only ps s0 s) (hcounts : Part.counts ∈ ps) (hfree : Part.free ∈ ps) (hfuncs : Part.funcs ∈ ps) (hhalves : Part.halves ∈ ps) (hobjs : Part.objs ∈ ps) (hout : Part.out ∈ ps) (hports : Part.ports ∈ ps) (hregs_fn : Part.regs .fn ∈ ps) (hregs_out : Part.regs .out ∈ ps) (hregs_tmu : Part.regs .tmu ∈ ps) (hrings : Part.rings ∈ ps) (htmu : Part.tmu ∈ ps) : Only ps s0 (State.pulseEnds s a1 a2) := by
  unfold State.pulseEnds
  extract_lets s1 x2 p3 n4
  have hs1 : Only ps s0 s1 := by
    with_reducible refine State.emit_only ?_ hout
    with_reducible exact State.advance_only h hcounts hfree hfuncs hhalves hobjs hout hports hregs_fn hrings htmu
  clear_value s1
  refine Only.ite ?_ ?_
  · refine State.raise_only ?_ hregs_tmu
    refine State.setReg_only ?_ hregs_out
    with_reducible exact State.setPulse_only hs1 htmu
  · with_reducible exact State.setPulse_only hs1 htmu

theorem State.pulseStarts_only {a1}  (h : Only ps s0 s) (hcounts : Part.counts ∈ ps) (hfree : Part.free ∈ ps) (hfuncs : Part.funcs ∈ ps) (hhalves : Part.halves ∈ ps) (hobjs : Part.objs ∈ ps) (hout : Part.out ∈ ps) (hports : Part.ports ∈ ps) (hregs_fn : Part.regs .fn ∈ ps) (hrings : Part.rings ∈ ps) (htmu : Part.tmu ∈ ps) : Only ps s0 (State.pulseStarts s a1) := by
  unfold State.pulseStarts
  extract_lets p1 raw2 s3
  have hs3 : Only ps s0 s3 := by
    with_reducible refine State.emit_only ?_ hout
    with_reducible exact State.advance_only h hcounts hfree hfuncs hhalves hobjs hout hports hregs_fn hrings htmu
  clear_value s3
  with_reducible exact State.setPulse_only hs3 htmu

theorem State.pushFifo_only {a1 a2}  (h : Only ps s0 s) (hcounts : Part.counts ∈ ps) (hhalves : Part.halves ∈ ps) (hports : Part.ports ∈ ps) : Only ps s0 (State.pushFifo s a1 a2) := by
  unfold State.pushFifo
  extract_lets x1
  refine Only.ite ?_ ?_
  · with_reducible exact State.setPort_only h hports
  · with_reducible exact State.countPort_only h hcounts hhalves

theorem State.receiveOp_only {a1 a2 a3 a4}  (h : Only ps s0 s) (hcounts : Part.counts ∈ ps) (heths : Part.eths ∈ ps) (hfree : Part.free ∈ ps) (hfuncs : Part.funcs ∈ ps) (hgroups : Part.groups ∈ ps) (hhalves : Part.halves ∈ ps) (hobjs : Part.objs ∈ ps) (hout : Part.out ∈ ps) (hports : Part.ports ∈ ps) (hregs_fn : Part.regs .fn ∈ ps) (hregs_grp : Part.regs .grp ∈ ps) (hregs_port : Part.regs .port ∈ ps) (hrings : Part.rings ∈ ps) (hrxq : Part.rxq ∈ ps) (htmu : Part.tmu ∈ ps) : Only ps s0 (State.receiveOp s a1 a2 a3 a4) := by
  unfold State.receiveOp
  extract_lets s1 corrected2 x3 s4 s5 s6 s7 s8 r9
  have hs1 : Only ps s0 s1 := by
    with_reducible refine State.advance_only ?_ hcounts hfree hfuncs hhalves hobjs hout hports hregs_fn hrings htmu
    with_reducible exact State.advance_only h hcounts hfree hfuncs hhalves hobjs hout hports hregs_fn hrings htmu
  clear_value s1
  have hs4 : Only ps s0 s4 := by
    with_reducible exact State.setPort_only hs1 hports
  clear_value s4
  have hs5 : Only ps s0 s5 := by
    with_reducible exact State.countFrame_only hs4 hcounts hhalves
  clear_value s5
  have hs6 : Only ps s0 s6 := by
    with_reducible exact State.ackReset_only hs5 hports
  clear_value s6
  have hs7 : Only ps s0 s7 := by
    with_reducible exact State.promoteBy_only hs6 hgroups hports hregs_grp hregs_port
  clear_value s7
  have hs8 : Only ps s0 s8 := by
    dsimp only [s8]
    split
    · rename_i x10 k11 heq12
      with_reducible refine State.setGroup_only ?_ hgroups
      with_reducible exact State.examineRef_only hs7 hgroups hports hregs_grp hregs_port
    · rename_i x13 heq14
      exact hs7
  clear_value s8
  refine Only.ite ?_ ?_
  · with_reducible exact State.pushFifo_only hs8 hcounts hhalves hports
  · with_reducible exact State.stageFrame_only hs8 hcounts heths hhalves hports hrxq

theorem State.refLost_only {a1}  (h : Only ps s0 s) (hcounts : Part.counts ∈ ps) (hhalves : Part.halves ∈ ps) (hout : Part.out ∈ ps) (hports : Part.ports ∈ ps) (hregs_port : Part.regs .port ∈ ps) (hrings : Part.rings ∈ ps) : Only ps s0 (State.refLost s a1) := by
  unfold State.refLost
  extract_lets x1
  refine Only.ite ?_ ?_
  · exact h
  · refine Only.ite ?_ ?_
    · with_reducible refine State.portEvt_only ?_ hregs_port
      with_reducible exact State.toStopped_only h hcounts hhalves hout hports hregs_port hrings
    · with_reducible exact State.setPort_only h hports

theorem State.refreshTopo_only {a1 a2}  (h : Only ps s0 s) (hfab : Part.fab ∈ ps) : Only ps s0 (State.refreshTopo s a1 a2) := by
  unfold State.refreshTopo
  extract_lets x1
  refine (h.fab hfab)

theorem State.relay_only {a1 a2}  (h : Only ps s0 s) (hgroups : Part.groups ∈ ps) (hout : Part.out ∈ ps) : Only ps s0 (State.relay s a1 a2) := by
  unfold State.relay
  with_reducible refine State.driveOthers_only ?_ hout
  extract_lets x1
  with_reducible exact State.setGroup_only h hgroups

theorem State.replayTest_only  (h : Only ps s0 s) (hcairn : Part.cairn ∈ ps) (hcounts : Part.counts ∈ ps) (hhalves : Part.halves ∈ ps) (hout : Part.out ∈ ps) (hports : Part.ports ∈ ps) (hregs_port : Part.regs .port ∈ ps) (hrings : Part.rings ∈ ps) (htrust : Part.trust ∈ ps) : Only ps s0 (State.replayTest s) := by
  unfold State.replayTest
  extract_lets cmds1 holds2 x3 s4 s5
  have hs4 : Only ps s0 s4 := by
    with_reducible exact State.setCairn_only h hcairn
  clear_value s4
  have hs5 : Only ps s0 s5 := by
    refine Only.foldl ?_ ?_
    · exact hs4
    · intro s6 x7 k8
      split
      · rename_i h9 d10 p11 c12
        refine Only.ite ?_ ?_
        · with_reducible exact State.portRequest_only k8 hcairn hcounts hhalves hout hports hregs_port hrings htrust
        · exact k8
      · rename_i h13 p14
        with_reducible exact State.reclaimStop_only k8 hcounts hhalves hout hports hregs_port hrings
      · rename_i h15 x16 x17
        exact k8
  clear_value s5
  refine Only.foldl ?_ ?_
  · exact hs5
  · intro s18 x19 k20
    with_reducible exact State.holdPort_only k20 hcounts hhalves hout hports hregs_port hrings

theorem State.replyOp_only {a1 a2 a3}  (h : Only ps s0 s) (hlinks : Part.links ∈ ps) (htmu : Part.tmu ∈ ps) : Only ps s0 (State.replyOp s a1 a2 a3) := by
  unfold State.replyOp
  extract_lets l1 t2 t3 t4
  dsimp only
  split
  · rename_i x5 heq6
    exact h
  · rename_i x7 q8 x9 heq10
    refine Only.ite ?_ ?_
    · exact h
    · refine Only.ite ?_ ?_
      · with_reducible refine State.offerSample_only ?_ htmu
        with_reducible exact State.setLink_only h hlinks
      · with_reducible exact State.setLink_only h hlinks

theorem State.reportLost_only  (h : Only ps s0 s) (hintake : Part.intake ∈ ps) (hlog : Part.log ∈ ps) : Only ps s0 (State.reportLost s) := by
  unfold State.reportLost
  extract_lets l1
  refine Only.ite ?_ ?_
  · exact h
  · with_reducible exact State.setLog_only h hintake hlog

theorem State.whileUp_only {f : State → State}  (h : Only ps s0 s) (hf : ∀ y, Only ps s0 y → Only ps s0 (f y)) (hevc : Part.evc ∈ ps) (hfree : Part.free ∈ ps) (hfuncs : Part.funcs ∈ ps) (hintake : Part.intake ∈ ps) (hmay : Part.may ∈ ps) (hout : Part.out ∈ ps) (hregs_guard : Part.regs .guard ∈ ps) : Result.All (Only ps s0) (State.whileUp s f) := by
  unfold State.whileUp
  refine Result.all_ite ?_ ?_
  · with_reducible refine finish_only ?_ hevc hfree hfuncs hintake hmay hout hregs_guard
    exact hf _ h
  · refine Result.all_next ?_
    exact h

theorem State.respond_only {a1 a2 a3 a4}  (h : Only ps s0 s) (hout : Part.out ∈ ps) : Only ps s0 (State.respond s a1 a2 a3 a4) := by
  unfold State.respond
  with_reducible exact State.answer_only h hout

theorem State.request_only {f : State → State} {a1 a2 a3 a4}  (h : Only ps s0 s) (hf : ∀ y, Only ps s0 y → Only ps s0 (f y)) (hevc : Part.evc ∈ ps) (hfree : Part.free ∈ ps) (hfuncs : Part.funcs ∈ ps) (hintake : Part.intake ∈ ps) (hmay : Part.may ∈ ps) (hout : Part.out ∈ ps) (hregs_guard : Part.regs .guard ∈ ps) : Result.All (Only ps s0) (State.request s a1 a2 a3 a4 f) := by
  unfold State.request
  with_reducible refine State.whileUp_only ?_ ?_ hevc hfree hfuncs hintake hmay hout hregs_guard
  · exact h
  · intro s1 k2
    refine Only.ite ?_ ?_
    · with_reducible exact State.respond_only k2 hout
    · refine Only.ite ?_ ?_
      · with_reducible exact State.respond_only k2 hout
      · exact hf _ k2

theorem State.restorePort_only {a1}  (h : Only ps s0 s) (hcounts : Part.counts ∈ ps) (hhalves : Part.halves ∈ ps) (hout : Part.out ∈ ps) (hports : Part.ports ∈ ps) (hregs_port : Part.regs .port ∈ ps) (hrings : Part.rings ∈ ps) : Only ps s0 (State.restorePort s a1) := by
  unfold State.restorePort
  extract_lets p1 x2 due3
  refine Only.ite ?_ ?_
  · refine Only.ite ?_ ?_
    · with_reducible exact State.setPort_only h hports
    · with_reducible exact State.setPort_only h hports
  · refine Only.ite ?_ ?_
    · exact h
    · refine Only.ite ?_ ?_
      · with_reducible exact State.setPort_only h hports
      · with_reducible refine State.holdArrives_only ?_ hcounts hhalves hout hports hregs_port hrings
        with_reducible exact State.showPort_only h hports hregs_port

theorem State.spendChallenge_only  (h : Only ps s0 s) (htrust : Part.trust ∈ ps) : Only ps s0 (State.spendChallenge s) := by
  unfold State.spendChallenge
  extract_lets x1
  refine (h.belay (.inl ⟨rfl, rfl, rfl⟩) (.inl rfl) (.inl rfl) (.inr htrust))

theorem State.signedOp_only {f : State → State} {a1 a2 a3}  (h : Only ps s0 s) (hf : ∀ y, Only ps s0 y → Only ps s0 (f y)) (hcounts : Part.counts ∈ ps) (hhalves : Part.halves ∈ ps) (hout : Part.out ∈ ps) (hrings : Part.rings ∈ ps) (htrust : Part.trust ∈ ps) : Only ps s0 (State.signedOp s a1 a2 a3 f) := by
  unfold State.signedOp
  refine Only.ite ?_ ?_
  · with_reducible exact State.complete_only h hcounts hhalves hout hrings
  · refine Only.ite ?_ ?_
    · with_reducible exact State.complete_only h hcounts hhalves hout hrings
    · refine Only.ite ?_ ?_
      · with_reducible exact State.complete_only h hcounts hhalves hout hrings
      · refine Only.ite ?_ ?_
        · with_reducible exact State.complete_only h hcounts hhalves hout hrings
        · extract_lets good1 s2
          have hs2 : Only ps s0 s2 := by
            with_reducible exact State.spendChallenge_only h htrust
          clear_value s2
          refine Only.ite ?_ ?_
          · with_reducible refine State.complete_only ?_ hcounts hhalves hout hrings
            exact hf _ hs2
          · with_reducible exact State.complete_only hs2 hcounts hhalves hout hrings

theorem State.retireOp_only {a1 a2 a3}  (h : Only ps s0 s) (hcairn : Part.cairn ∈ ps) (hcounts : Part.counts ∈ ps) (heths : Part.eths ∈ ps) (hfab : Part.fab ∈ ps) (hflt : Part.flt ∈ ps) (hfuncs : Part.funcs ∈ ps) (hgroups : Part.groups ∈ ps) (hhalves : Part.halves ∈ ps) (hintake : Part.intake ∈ ps) (hkeys : Part.keys ∈ ps) (hlinks : Part.links ∈ ps) (hlog : Part.log ∈ ps) (hobjs : Part.objs ∈ ps) (hotp : Part.otp ∈ ps) (hout : Part.out ∈ ps) (hpartition : Part.partition ∈ ps) (hports : Part.ports ∈ ps) (hregs_fab : Part.regs .fab ∈ ps) (hregs_flt : Part.regs .flt ∈ ps) (hregs_fn : Part.regs .fn ∈ ps) (hregs_grp : Part.regs .grp ∈ ps) (hregs_port : Part.regs .port ∈ ps) (hregs_ring : Part.regs .ring ∈ ps) (hregs_tmu : Part.regs .tmu ∈ ps) (hrings : Part.rings ∈ ps) (hroutes : Part.routes ∈ ps) (hrxq : Part.rxq ∈ ps) (hspur : Part.spur ∈ ps) (htarn : Part.tarn ∈ ps) (htrust : Part.trust ∈ ps) (hunits : Part.units ∈ ps) : Only ps s0 (State.retireOp s a1 a2 a3) := by
  unfold State.retireOp
  refine Only.ite ?_ ?_
  · refine Only.ite ?_ ?_
    · with_reducible exact State.complete_only h hcounts hhalves hout hrings
    · refine Only.ite ?_ ?_
      · with_reducible exact State.complete_only h hcounts hhalves hout hrings
      · with_reducible refine State.complete_only ?_ hcounts hhalves hout hrings
        with_reducible exact State.killDus_only h hcairn hcounts heths hfab hflt hfuncs hgroups hhalves hintake hkeys hlinks hlog hobjs hotp hout hpartition hports hregs_fab hregs_flt hregs_fn hregs_grp hregs_port hregs_ring hregs_tmu hrings hroutes hrxq hspur htarn htrust hunits
  · with_reducible refine State.signedOp_only ?_ ?_ hcounts hhalves hout hrings htrust
    · exact h
    · intro s1 k2
      with_reducible exact State.killDus_only k2 hcairn hcounts heths hfab hflt hfuncs hgroups hhalves hintake hkeys hlinks hlog hobjs hotp hout hpartition hports hregs_fab hregs_flt hregs_fn hregs_grp hregs_port hregs_ring hregs_tmu hrings hroutes hrxq hspur htarn htrust hunits

theorem State.returnPort_only {a1}  (h : Only ps s0 s) (hcounts : Part.counts ∈ ps) (hhalves : Part.halves ∈ ps) (hout : Part.out ∈ ps) (hports : Part.ports ∈ ps) (hregs_port : Part.regs .port ∈ ps) (hrings : Part.rings ∈ ps) : Only ps s0 (State.returnPort s a1) := by
  unfold State.returnPort
  extract_lets x1
  refine Only.ite ?_ ?_
  · exact h
  · refine Only.ite ?_ ?_
    · with_reducible exact State.showPort_only h hports hregs_port
    · refine Only.ite ?_ ?_
      · with_reducible exact State.showPort_only h hports hregs_port
      · with_reducible refine State.holdArrives_only ?_ hcounts hhalves hout hports hregs_port hrings
        with_reducible exact State.showPort_only h hports hregs_port

theorem State.rlTake_only {f : State → State} {a1 a2}  (h : Only ps s0 s) (hf : ∀ y, Only ps s0 y → Only ps s0 (f y)) (hcounts : Part.counts ∈ ps) (hevc : Part.evc ∈ ps) (hfree : Part.free ∈ ps) (hfuncs : Part.funcs ∈ ps) (hhalves : Part.halves ∈ ps) (hintake : Part.intake ∈ ps) (hlinks : Part.links ∈ ps) (hmay : Part.may ∈ ps) (hout : Part.out ∈ ps) (hregs_guard : Part.regs .guard ∈ ps) : Result.All (Only ps s0) (State.rlTake s a1 a2 f) := by
  unfold State.rlTake
  extract_lets f1 l2 s3
  have hs3 : Only ps s0 s3 := by
    refine Only.ite ?_ ?_
    · with_reducible exact State.setLink_only h hlinks
    · exact h
  clear_value s3
  refine Result.all_ite ?_ ?_
  · refine Result.all_next ?_
    exact h
  · refine Result.all_ite ?_ ?_
    · with_reducible refine finish_only ?_ hevc hfree hfuncs hintake hmay hout hregs_guard
      with_reducible refine State.rlDone_only ?_ hlinks hout
      with_reducible exact State.countLink_only h hcounts hhalves
    · refine Result.all_ite ?_ ?_
      · with_reducible refine finish_only ?_ hevc hfree hfuncs hintake hmay hout hregs_guard
        with_reducible refine State.rlDone_only ?_ hlinks hout
        with_reducible exact State.countLink_only hs3 hcounts hhalves
      · refine Result.all_ite ?_ ?_
        · with_reducible refine finish_only ?_ hevc hfree hfuncs hintake hmay hout hregs_guard
          with_reducible refine State.rlDone_only ?_ hlinks hout
          with_reducible exact State.countLink_only hs3 hcounts hhalves
        · with_reducible refine finish_only ?_ hevc hfree hfuncs hintake hmay hout hregs_guard
          refine hf _ ?_
          with_reducible exact State.countLink_only hs3 hcounts hhalves

theorem State.transit_only {a1 a2}  (h : Only ps s0 s) (hcounts : Part.counts ∈ ps) (hhalves : Part.halves ∈ ps) (hlinks : Part.links ∈ ps) (hout : Part.out ∈ ps) : Only ps s0 (State.transit s a1 a2) := by
  unfold State.transit
  extract_lets g1
  split
  · rename_i x2 j3 heq4
    refine Only.ite ?_ ?_
    · with_reducible exact State.pushLink_only h hlinks
    · with_reducible exact State.wrapOnto_only h hcounts hhalves hlinks hout
  · rename_i x5 heq6
    with_reducible refine State.rlDone_only ?_ hlinks hout
    with_reducible exact State.countLink_only h hcounts hhalves

theorem State.routedOp_only {a1 a2}  (h : Only ps s0 s) (hcounts : Part.counts ∈ ps) (heths : Part.eths ∈ ps) (hfab : Part.fab ∈ ps) (hhalves : Part.halves ∈ ps) (hlinks : Part.links ∈ ps) (hout : Part.out ∈ ps) (hports : Part.ports ∈ ps) (hrings : Part.rings ∈ ps) (hspur : Part.spur ∈ ps) : Only ps s0 (State.routedOp s a1 a2) := by
  unfold State.routedOp
  refine Only.ite ?_ ?_
  · dsimp only
    refine Only.ite ?_ ?_
    · with_reducible refine State.flood_only ?_ hlinks hout
      with_reducible exact State.arriveRouted_only h hcounts heths hfab hhalves hout hports hrings hspur
    · with_reducible refine State.rlDone_only ?_ hlinks hout
      with_reducible exact State.arriveRouted_only h hcounts heths hfab hhalves hout hports hrings hspur
  · refine Only.ite ?_ ?_
    · with_reducible refine State.rlDone_only ?_ hlinks hout
      with_reducible exact State.arriveRouted_only h hcounts heths hfab hhalves hout hports hrings hspur
    · with_reducible exact State.transit_only h hcounts hhalves hlinks hout

theorem State.rtReadOp_only {a1 a2}  (h : Only ps s0 s) (hcounts : Part.counts ∈ ps) (hhalves : Part.halves ∈ ps) (hout : Part.out ∈ ps) (hrings : Part.rings ∈ ps) : Only ps s0 (State.rtReadOp s a1 a2) := by
  unfold State.rtReadOp
  extract_lets n1
  refine Only.ite ?_ ?_
  · with_reducible exact State.complete_only h hcounts hhalves hout hrings
  · refine Only.ite ?_ ?_
    · with_reducible exact State.complete_only h hcounts hhalves hout hrings
    · refine Only.ite ?_ ?_
      · with_reducible exact State.complete_only h hcounts hhalves hout hrings
      · with_reducible refine State.complete_only ?_ hcounts hhalves hout hrings
        with_reducible exact State.hostWrite_only h hout

theorem State.sampleAge_only {a1}  (h : Only ps s0 s) (hcairn : Part.cairn ∈ ps) (hintake : Part.intake ∈ ps) : Only ps s0 (State.sampleAge s a1) := by
  unfold State.sampleAge
  extract_lets x1 s2
  have hs2 : Only ps s0 s2 := by
    with_reducible exact State.setCairn_only h hcairn
  clear_value s2
  refine Only.foldl ?_ ?_
  · exact hs2
  · intro s3 x4 k5
    extract_lets v6 x7 s8
    have hs8 : Only ps s0 s8 := by
      with_reducible exact State.setCairn_only k5 hcairn
    clear_value s8
    refine Only.ite ?_ ?_
    · with_reducible exact State.record_only hs8 hintake
    · exact k5

theorem State.samplePace_only {a1}  (h : Only ps s0 s) (hcairn : Part.cairn ∈ ps) (hintake : Part.intake ∈ ps) (hregs_fn : Part.regs .fn ∈ ps) : Only ps s0 (State.samplePace s a1) := by
  unfold State.samplePace
  extract_lets x1 s2 limit3
  have hs2 : Only ps s0 s2 := by
    with_reducible exact State.setCairn_only h hcairn
  clear_value s2
  refine Only.foldl ?_ ?_
  · exact hs2
  · intro s4 x5 k6
    extract_lets v7 x8
    dsimp only
    refine Only.ite ?_ ?_
    · with_reducible refine State.crnEvent_only ?_ hcairn hregs_fn
      with_reducible refine State.record_only ?_ hintake
      with_reducible exact State.setCairn_only k6 hcairn
    · with_reducible exact State.setCairn_only k6 hcairn

theorem State.sampleRail_only {a1}  (h : Only ps s0 s) (hcairn : Part.cairn ∈ ps) (hintake : Part.intake ∈ ps) (hregs_fn : Part.regs .fn ∈ ps) : Only ps s0 (State.sampleRail s a1) := by
  unfold State.sampleRail
  extract_lets x1 s2
  have hs2 : Only ps s0 s2 := by
    with_reducible exact State.setCairn_only h hcairn
  clear_value s2
  refine Only.foldl ?_ ?_
  · exact hs2
  · intro s3 x4 k5
    extract_lets v6 x7
    dsimp only
    refine Only.ite ?_ ?_
    · with_reducible refine State.crnEvent_only ?_ hcairn hregs_fn
      with_reducible refine State.record_only ?_ hintake
      with_reducible exact State.setCairn_only k5 hcairn
    · with_reducible exact State.setCairn_only k5 hcairn

theorem State.sampleTemp_only {a1}  (h : Only ps s0 s) (hcairn : Part.cairn ∈ ps) (hintake : Part.intake ∈ ps) (hregs_fn : Part.regs .fn ∈ ps) : Only ps s0 (State.sampleTemp s a1) := by
  unfold State.sampleTemp
  extract_lets c1 felt2 s3 c4 s5
  have hs3 : Only ps s0 s3 := by
    with_reducible exact State.setCairn_only h hcairn
  clear_value s3
  have hs5 : Only ps s0 s5 := by
    with_reducible exact State.setCairn_only hs3 hcairn
  clear_value s5
  with_reducible exact State.alertActs_only hs5 hcairn hintake hregs_fn

theorem State.scan_only  (h : Only ps s0 s) (hdev : Part.dev ∈ ps) (hfree : Part.free ∈ ps) : Only ps s0 (State.scan s) := by
  unfold State.scan
  extract_lets cells1 x2 x3
  have hx2 : Only ps s0 x2 := by
    with_reducible exact State.draw_only h hfree
  clear_value x2
  refine (hx2.dev hdev)

theorem State.violation_only {a1 a2 a3}  (h : Only ps s0 s) (hgroups : Part.groups ∈ ps) (hregs_grp : Part.regs .grp ∈ ps) : Only ps s0 (State.violation s a1 a2 a3) := by
  unfold State.violation
  extract_lets x1 x2 s3
  have hs3 : Only ps s0 s3 := by
    with_reducible refine State.grpEvt_only ?_ hregs_grp
    with_reducible exact State.setBranch_only h hgroups
  clear_value s3
  refine Only.ite ?_ ?_
  · with_reducible exact State.isolate_only hs3 hgroups hregs_grp
  · exact hs3

theorem State.violations_only {a1 a2 a3}  (h : Only ps s0 s) (hgroups : Part.groups ∈ ps) (hregs_grp : Part.regs .grp ∈ ps) : Only ps s0 (State.violations s a1 a2 a3) := by
  unfold State.violations
  refine Only.foldl ?_ ?_
  · exact h
  · intro s1 x2 k3
    with_reducible exact State.violation_only k3 hgroups hregs_grp

theorem State.scheduledSof_only {a1 a2 a3 a4}  (h : Only ps s0 s) (hgroups : Part.groups ∈ ps) (hout : Part.out ∈ ps) (hregs_grp : Part.regs .grp ∈ ps) : Only ps s0 (State.scheduledSof s a1 a2 a3 a4) := by
  unfold State.scheduledSof
  refine Only.ite ?_ ?_
  · with_reducible exact State.relay_only h hgroups hout
  · split
    · rename_i x1 heq2
      with_reducible refine State.ignoreBranch_only ?_ hgroups
      with_reducible exact State.violation_only h hgroups hregs_grp
    · rename_i x3 fst4 e5 heq6
      refine Only.ite ?_ ?_
      · with_reducible refine State.ignoreBranch_only ?_ hgroups
        with_reducible exact State.violation_only h hgroups hregs_grp
      · refine Only.ite ?_ ?_
        · with_reducible refine State.violations_only ?_ hgroups hregs_grp
          with_reducible refine State.cutFrame_only ?_ hgroups hout
          with_reducible exact State.relay_only h hgroups hout
        · with_reducible exact State.relay_only h hgroups hout

theorem State.scrubInputs_only {a1}  (h : Only ps s0 s) (hspur : Part.spur ∈ ps) : Only ps s0 (State.scrubInputs s a1) := by
  unfold State.scrubInputs
  extract_lets x1
  refine (h.spur hspur)

theorem State.scrubAhead_only {a1 a2}  (h : Only ps s0 s) (hports : Part.ports ∈ ps) : Only ps s0 (State.scrubAhead s a1 a2) := by
  unfold State.scrubAhead
  extract_lets x1
  with_reducible exact State.setPort_only h hports

theorem State.scrubTarn_only {a1}  (h : Only ps s0 s) (hcounts : Part.counts ∈ ps) (heths : Part.eths ∈ ps) (hhalves : Part.halves ∈ ps) (hobjs : Part.objs ∈ ps) (hout : Part.out ∈ ps) (hports : Part.ports ∈ ps) (hrings : Part.rings ∈ ps) (hrxq : Part.rxq ∈ ps) (hspur : Part.spur ∈ ps) (htarn : Part.tarn ∈ ps) : Only ps s0 (State.scrubTarn s a1) := by
  unfold State.scrubTarn
  refine Only.ite ?_ ?_
  · with_reducible refine State.loseObjects_only ?_ hobjs
    refine (h.tarn htarn)
  · extract_lets r1 b2
    refine Only.ite ?_ ?_
    · with_reducible exact State.scrubInputs_only h hspur
    · refine Only.ite ?_ ?_
      · with_reducible exact State.scrubAhead_only h hports
      · split
        · rename_i x3 a4 heq5
          with_reducible exact State.dropStaged_only h hcounts heths hhalves hout hports hrings hrxq
        · rename_i x6 heq7
          exact h

theorem State.scrubLog_only {a1}  (h : Only ps s0 s) (hintake : Part.intake ∈ ps) (hlog : Part.log ∈ ps) : Only ps s0 (State.scrubLog s a1) := by
  unfold State.scrubLog
  extract_lets x1
  with_reducible exact State.setLog_only h hintake hlog

theorem State.scrubActs_only {a1}  (h : Only ps s0 s) (hcairn : Part.cairn ∈ ps) (hcounts : Part.counts ∈ ps) (heths : Part.eths ∈ ps) (hflt : Part.flt ∈ ps) (hgroups : Part.groups ∈ ps) (hhalves : Part.halves ∈ ps) (hintake : Part.intake ∈ ps) (hkeys : Part.keys ∈ ps) (hlog : Part.log ∈ ps) (hobjs : Part.objs ∈ ps) (hout : Part.out ∈ ps) (hports : Part.ports ∈ ps) (hregs_dev : Part.regs .dev ∈ ps) (hregs_fn : Part.regs .fn ∈ ps) (hregs_port : Part.regs .port ∈ ps) (hrings : Part.rings ∈ ps) (hrxq : Part.rxq ∈ ps) (hspur : Part.spur ∈ ps) (htarn : Part.tarn ∈ ps) : Only ps s0 (State.scrubActs s a1) := by
  unfold State.scrubActs
  split
  · rename_i x1 line2
    with_reducible exact State.scrubTarn_only h hcounts heths hhalves hobjs hout hports hrings hrxq hspur htarn
  · rename_i x3 element4
    refine (h.flt hflt)
  · rename_i x5 e6
    split
    · rename_i x7 heq8
      exact h
    · rename_i x9 heq10
      exact h
    · rename_i x11 x12 x13
      with_reducible exact State.engineLost_only h hintake hkeys hports hregs_dev hregs_port hspur
  · rename_i x14 c15
    with_reducible exact State.coreLost_only h hcairn hgroups hintake hregs_dev hspur
  · rename_i x16
    refine Only.ite ?_ ?_
    · with_reducible refine State.restartFor_only ?_ hcairn hintake hregs_fn
      with_reducible exact State.spoil_only h hcairn
    · exact h
  · rename_i x17 pos18
    with_reducible exact State.scrubLog_only h hintake hlog

theorem State.secmdRequest_only {a1 a2}  (h : Only ps s0 s) (hevc : Part.evc ∈ ps) (hfree : Part.free ∈ ps) (hfuncs : Part.funcs ∈ ps) (hgroups : Part.groups ∈ ps) (hintake : Part.intake ∈ ps) (hmay : Part.may ∈ ps) (hout : Part.out ∈ ps) (hregs_dev : Part.regs .dev ∈ ps) (hregs_guard : Part.regs .guard ∈ ps) (hspur : Part.spur ∈ ps) : Result.All (Only ps s0) (State.secmdRequest s a1 a2) := by
  unfold State.secmdRequest
  with_reducible refine State.ownedWrite_only ?_ ?_ hevc hfree hfuncs hintake hmay hout hregs_guard
  · exact h
  · intro s1 k2
    with_reducible exact State.writeSecmd_only k2 hgroups hintake hregs_dev hspur

theorem State.selfTestOp_only {a1 a2}  (h : Only ps s0 s) (hcairn : Part.cairn ∈ ps) (hcounts : Part.counts ∈ ps) (hhalves : Part.halves ∈ ps) (hout : Part.out ∈ ps) (hregs_dev : Part.regs .dev ∈ ps) (hrings : Part.rings ∈ ps) (hspur : Part.spur ∈ ps) : Only ps s0 (State.selfTestOp s a1 a2) := by
  unfold State.selfTestOp
  extract_lets kind1 i2 limit3 t4 x5
  refine Only.ite ?_ ?_
  · with_reducible exact State.complete_only h hcounts hhalves hout hrings
  · refine Only.ite ?_ ?_
    · with_reducible exact State.complete_only h hcounts hhalves hout hrings
    · with_reducible refine State.turnTests_only ?_ hcairn hcounts hhalves hout hregs_dev hrings hspur
      with_reducible exact State.setCairn_only h hcairn

theorem State.sendRef_only {a1 a2 a3}  (h : Only ps s0 s) (hcounts : Part.counts ∈ ps) (hfree : Part.free ∈ ps) (hfuncs : Part.funcs ∈ ps) (hgroups : Part.groups ∈ ps) (hhalves : Part.halves ∈ ps) (hobjs : Part.objs ∈ ps) (hout : Part.out ∈ ps) (hports : Part.ports ∈ ps) (hregs_fn : Part.regs .fn ∈ ps) (hrings : Part.rings ∈ ps) (htmu : Part.tmu ∈ ps) : Only ps s0 (State.sendRef s a1 a2 a3) := by
  unfold State.sendRef
  extract_lets a1 sof2 x3
  refine Only.ite ?_ ?_
  · with_reducible exact State.driveRef_only h hcounts hfree hfuncs hgroups hhalves hobjs hout hports hregs_fn hrings htmu
  · with_reducible exact State.setGroup_only h hgroups

theorem State.sendCold_only {a1}  (h : Only ps s0 s) (hcounts : Part.counts ∈ ps) (hfree : Part.free ∈ ps) (hfuncs : Part.funcs ∈ ps) (hgroups : Part.groups ∈ ps) (hhalves : Part.halves ∈ ps) (hobjs : Part.objs ∈ ps) (hout : Part.out ∈ ps) (hports : Part.ports ∈ ps) (hregs_fn : Part.regs .fn ∈ ps) (hrings : Part.rings ∈ ps) (htmu : Part.tmu ∈ ps) : Only ps s0 (State.sendCold s a1) := by
  unfold State.sendCold
  extract_lets x1 g2
  refine Only.ite ?_ ?_
  · with_reducible refine State.planCold_only ?_ hgroups
    with_reducible exact State.setGroup_only h hgroups
  · with_reducible refine State.sendRef_only ?_ hcounts hfree hfuncs hgroups hhalves hobjs hout hports hregs_fn hrings htmu
    with_reducible exact State.setGroup_only h hgroups

theorem State.settleRecord_only {a1 a2}  (h : Only ps s0 s) (hcounts : Part.counts ∈ ps) (hfree : Part.free ∈ ps) (hfuncs : Part.funcs ∈ ps) (hhalves : Part.halves ∈ ps) (hobjs : Part.objs ∈ ps) (hout : Part.out ∈ ps) (hports : Part.ports ∈ ps) (hregs_fn : Part.regs .fn ∈ ps) (hrings : Part.rings ∈ ps) : Only ps s0 (State.settleRecord s a1 a2) := by
  unfold State.settleRecord
  refine Only.ite ?_ ?_
  · exact h
  · split
    · rename_i x1 c2 heq3
      with_reducible exact State.settleAttempt_only h hcounts hfree hfuncs hhalves hobjs hout hports hregs_fn hrings
    · rename_i x4 heq5
      exact h

theorem State.slotPassed_only {a1 a2}  (h : Only ps s0 s) (hports : Part.ports ∈ ps) : Only ps s0 (State.slotPassed s a1 a2) := by
  unfold State.slotPassed
  extract_lets x1
  refine Only.ite ?_ ?_
  · with_reducible exact State.setPort_only h hports
  · with_reducible exact State.setPort_only h hports

theorem State.starSofOp_only {a1 a2 a3 a4 a5 a6}  (h : Only ps s0 s) (hcounts : Part.counts ∈ ps) (hfree : Part.free ∈ ps) (hfuncs : Part.funcs ∈ ps) (hgroups : Part.groups ∈ ps) (hhalves : Part.halves ∈ ps) (hobjs : Part.objs ∈ ps) (hout : Part.out ∈ ps) (hports : Part.ports ∈ ps) (hregs_fn : Part.regs .fn ∈ ps) (hregs_grp : Part.regs .grp ∈ ps) (hrings : Part.rings ∈ ps) (htmu : Part.tmu ∈ ps) : Only ps s0 (State.starSofOp s a1 a2 a3 a4 a5 a6) := by
  unfold State.starSofOp
  extract_lets s1 x2 s3 f4
  have hs1 : Only ps s0 s1 := by
    with_reducible exact State.advance_only h hcounts hfree hfuncs hhalves hobjs hout hports hregs_fn hrings htmu
  clear_value s1
  have hs3 : Only ps s0 s3 := by
    with_reducible exact State.setBranch_only hs1 hgroups
  clear_value s3
  refine Only.ite ?_ ?_
  · with_reducible exact State.relay_only hs3 hgroups hout
  · refine Only.ite ?_ ?_
    · with_reducible refine State.noteRefSof_only ?_ hgroups
      with_reducible exact State.scheduledSof_only hs3 hgroups hout hregs_grp
    · refine Only.ite ?_ ?_
      · refine Only.ite ?_ ?_
        · with_reducible refine State.cutFrame_only ?_ hgroups hout
          with_reducible exact State.relay_only hs3 hgroups hout
        · with_reducible exact State.relay_only hs3 hgroups hout
      · with_reducible exact State.ignoreBranch_only hs3 hgroups

theorem State.startCandidate_only {a1 a2 a3}  (h : Only ps s0 s) (hout : Part.out ∈ ps) (hports : Part.ports ∈ ps) : Only ps s0 (State.startCandidate s a1 a2 a3) := by
  unfold State.startCandidate
  extract_lets k1
  refine Only.ite ?_ ?_
  · exact h
  · refine Only.ite ?_ ?_
    · with_reducible exact State.driveSof_only h hout hports
    · with_reducible exact State.setPort_only h hports

theorem State.startOp_only {a1 a2}  (h : Only ps s0 s) (hcounts : Part.counts ∈ ps) (hfree : Part.free ∈ ps) (hfuncs : Part.funcs ∈ ps) (hgroups : Part.groups ∈ ps) (hhalves : Part.halves ∈ ps) (hobjs : Part.objs ∈ ps) (hout : Part.out ∈ ps) (hports : Part.ports ∈ ps) (hregs_fn : Part.regs .fn ∈ ps) (hrings : Part.rings ∈ ps) (htmu : Part.tmu ∈ ps) : Only ps s0 (State.startOp s a1 a2) := by
  unfold State.startOp
  extract_lets at1 ref2 c3 ft4
  dsimp only
  clear_value ref2
  split
  · rename_i ref5 k6 cold7
    refine Only.ite ?_ ?_
    · split
      · rename_i x8 heq9
        with_reducible exact State.planCold_only h hgroups
      · rename_i x10 m11 heq12
        refine Only.ite ?_ ?_
        · exact h
        · refine Only.ite ?_ ?_
          · with_reducible exact State.planCold_only h hgroups
          · with_reducible refine State.driveRef_only ?_ hcounts hfree hfuncs hgroups hhalves hobjs hout hports hregs_fn hrings htmu
            with_reducible exact State.setGroup_only h hgroups
    · with_reducible exact State.driveRef_only h hcounts hfree hfuncs hgroups hhalves hobjs hout hports hregs_fn hrings htmu
  · rename_i ref13
    refine Only.ite ?_ ?_
    · exact h
    · split
      · rename_i ft14 x15 w16 f17 c18 heq19 heq20
        refine Only.ite ?_ ?_
        · with_reducible refine State.startCandidate_only ?_ hout hports
          with_reducible exact State.advance_only h hcounts hfree hfuncs hhalves hobjs hout hports hregs_fn hrings htmu
        · with_reducible refine State.driveSof_only ?_ hout hports
          with_reducible exact State.advance_only h hcounts hfree hfuncs hhalves hobjs hout hports hregs_fn hrings htmu
      · rename_i ft21 x22 w23 f24 heq25 heq26
        with_reducible refine State.driveSof_only ?_ hout hports
        with_reducible exact State.advance_only h hcounts hfree hfuncs hhalves hobjs hout hports hregs_fn hrings htmu
      · rename_i ft27 x28 c29 heq30 heq31
        with_reducible refine State.startCandidate_only ?_ hout hports
        with_reducible exact State.advance_only h hcounts hfree hfuncs hhalves hobjs hout hports hregs_fn hrings htmu
      · rename_i ft32 x33 heq34 heq35
        exact h

theorem State.submit_only {a1 a2 a3}  (h : Only ps s0 s) (hcairn : Part.cairn ∈ ps) (hcounts : Part.counts ∈ ps) (heths : Part.eths ∈ ps) (hevc : Part.evc ∈ ps) (hflt : Part.flt ∈ ps) (hfree : Part.free ∈ ps) (hfuncs : Part.funcs ∈ ps) (hgroups : Part.groups ∈ ps) (hhalves : Part.halves ∈ ps) (hintake : Part.intake ∈ ps) (hmay : Part.may ∈ ps) (hobjs : Part.objs ∈ ps) (hout : Part.out ∈ ps) (hpartition : Part.partition ∈ ps) (hports : Part.ports ∈ ps) (hregs_ep : Part.regs .ep ∈ ps) (hregs_flt : Part.regs .flt ∈ ps) (hregs_fn : Part.regs .fn ∈ ps) (hregs_grp : Part.regs .grp ∈ ps) (hregs_guard : Part.regs .guard ∈ ps) (hregs_port : Part.regs .port ∈ ps) (hregs_ring : Part.regs .ring ∈ ps) (hrings : Part.rings ∈ ps) (hspur : Part.spur ∈ ps) (htarn : Part.tarn ∈ ps) (htrust : Part.trust ∈ ps) (hunits : Part.units ∈ ps) : Result.All (Only ps s0) (State.submit s a1 a2 a3) := by
  unfold State.submit
  with_reducible refine State.ownedWrite_only ?_ ?_ hevc hfree hfuncs hintake hmay hout hregs_guard
  · exact h
  · intro s1 k2
    refine Only.ite ?_ ?_
    · with_reducible exact State.writeApply_only k2 hcairn hcounts heths hflt hfree hfuncs hgroups hhalves hintake hobjs hout hpartition hports hregs_ep hregs_flt hregs_fn hregs_grp hregs_port hregs_ring hrings hspur htarn htrust hunits
    · exact k2

theorem State.swapTakes_only {a1 a2}  (h : Only ps s0 s) (hregs_dev : Part.regs .dev ∈ ps) (hspur : Part.spur ∈ ps) : Only ps s0 (State.swapTakes s a1 a2) := by
  unfold State.swapTakes
  extract_lets freed1 x2 s3
  have hs3 : Only ps s0 s3 := by
    refine (h.spur hspur)
  clear_value s3
  refine Only.foldl ?_ ?_
  · exact hs3
  · intro s4 x5 k6
    with_reducible exact State.enterStandby_only k6 hregs_dev hspur

theorem State.swapNow_only {a1 a2 a3}  (h : Only ps s0 s) (hregs_dev : Part.regs .dev ∈ ps) (hspur : Part.spur ∈ ps) : Only ps s0 (State.swapNow s a1 a2 a3) := by
  unfold State.swapNow
  extract_lets s1 x2 s3 s4
  have hs1 : Only ps s0 s1 := by
    with_reducible exact State.attach_only h hspur
  clear_value s1
  have hs3 : Only ps s0 s3 := by
    refine (hs1.spur hspur)
  clear_value s3
  have hs4 : Only ps s0 s4 := by
    with_reducible exact State.endSwap_only hs3 hregs_dev hspur
  clear_value s4
  split
  · rename_i e5 o6
    with_reducible exact State.enterStandby_only hs4 hregs_dev hspur
  · rename_i e7
    with_reducible exact State.swapTakes_only hs4 hregs_dev hspur

theorem State.takeSample_only {a1 a2 a3}  (h : Only ps s0 s) (hcounts : Part.counts ∈ ps) (hfree : Part.free ∈ ps) (hfuncs : Part.funcs ∈ ps) (hhalves : Part.halves ∈ ps) (hout : Part.out ∈ ps) (hregs_fn : Part.regs .fn ∈ ps) (hregs_tmu : Part.regs .tmu ∈ ps) (htmu : Part.tmu ∈ ps) : Only ps s0 (State.takeSample s a1 a2 a3) := by
  unfold State.takeSample
  refine Only.ite ?_ ?_
  · exact h
  · refine Only.ite ?_ ?_
    · extract_lets x1
      with_reducible exact State.setTmu_only h htmu
    · extract_lets x2 s3
      have hs3 : Only ps s0 s3 := by
        with_reducible exact State.setTmu_only h htmu
      clear_value s3
      with_reducible exact State.applySample_only hs3 hcounts hfree hfuncs hhalves hout hregs_fn hregs_tmu htmu

theorem State.testOutcome_only {a1 a2}  (h : Only ps s0 s) (hcounts : Part.counts ∈ ps) (hfab : Part.fab ∈ ps) (hgroups : Part.groups ∈ ps) (hhalves : Part.halves ∈ ps) (hlinks : Part.links ∈ ps) (hout : Part.out ∈ ps) (hpairs : Part.pairs ∈ ps) (hports : Part.ports ∈ ps) (hregs_dev : Part.regs .dev ∈ ps) (hregs_grp : Part.regs .grp ∈ ps) (hregs_link : Part.regs .link ∈ ps) (hregs_port : Part.regs .port ∈ ps) (hrings : Part.rings ∈ ps) (hspur : Part.spur ∈ ps) : Only ps s0 (State.testOutcome s a1 a2) := by
  unfold State.testOutcome
  refine Only.ite ?_ ?_
  · extract_lets p1
    refine Only.ite ?_ ?_
    · with_reducible exact State.failPort_only h hcounts hgroups hhalves hout hpairs hports hregs_grp hregs_port hrings
    · refine Only.ite ?_ ?_
      · with_reducible exact State.restorePort_only h hcounts hhalves hout hports hregs_port hrings
      · exact h
  · refine Only.ite ?_ ?_
    · extract_lets e2 i3 img4 x5
      refine Only.ite ?_ ?_
      · exact h
      · refine Only.ite ?_ ?_
        · with_reducible exact State.faultEngine_only h hregs_dev hspur
        · with_reducible refine State.enterStandby_only ?_ hregs_dev hspur
          with_reducible exact State.setEngine_only h hspur
    · extract_lets k6 x7
      refine Only.ite ?_ ?_
      · with_reducible refine State.insertLinks_only ?_ hfab hlinks
        with_reducible refine State.setLink_only ?_ hlinks
        exact State.setRf_only h hregs_link
      · refine Only.ite ?_ ?_
        · with_reducible exact State.setLink_only h hlinks
        · exact h

theorem State.topoReadOp_only {a1 a2}  (h : Only ps s0 s) (hcounts : Part.counts ∈ ps) (hhalves : Part.halves ∈ ps) (hout : Part.out ∈ ps) (hrings : Part.rings ∈ ps) : Only ps s0 (State.topoReadOp s a1 a2) := by
  unfold State.topoReadOp
  extract_lets len1 ts2 gens3
  refine Only.ite ?_ ?_
  · with_reducible exact State.complete_only h hcounts hhalves hout hrings
  · refine Only.ite ?_ ?_
    · with_reducible exact State.complete_only h hcounts hhalves hout hrings
    · refine Only.ite ?_ ?_
      · with_reducible exact State.complete_only h hcounts hhalves hout hrings
      · with_reducible refine State.complete_only ?_ hcounts hhalves hout hrings
        with_reducible exact State.hostWrite_only h hout

theorem State.trvReadOp_only {a1 a2}  (h : Only ps s0 s) (hcounts : Part.counts ∈ ps) (hhalves : Part.halves ∈ ps) (hout : Part.out ∈ ps) (hrings : Part.rings ∈ ps) : Only ps s0 (State.trvReadOp s a1 a2) := by
  unfold State.trvReadOp
  extract_lets k1 n2 s3
  have hs3 : Only ps s0 s3 := by
    with_reducible exact State.hostWrite_only h hout
  clear_value s3
  refine Only.ite ?_ ?_
  · with_reducible exact State.complete_only h hcounts hhalves hout hrings
  · refine Only.ite ?_ ?_
    · with_reducible exact State.complete_only h hcounts hhalves hout hrings
    · refine Only.ite ?_ ?_
      · with_reducible exact State.complete_only h hcounts hhalves hout hrings
      · with_reducible exact State.complete_only hs3 hcounts hhalves hout hrings

theorem State.trvWriteOp_only {a1 a2 a3}  (h : Only ps s0 s) (hcounts : Part.counts ∈ ps) (hgroups : Part.groups ∈ ps) (hhalves : Part.halves ∈ ps) (hout : Part.out ∈ ps) (hrings : Part.rings ∈ ps) : Only ps s0 (State.trvWriteOp s a1 a2 a3) := by
  unfold State.trvWriteOp
  extract_lets k1 n2 g3 t4
  refine Only.ite ?_ ?_
  · with_reducible exact State.complete_only h hcounts hhalves hout hrings
  · refine Only.ite ?_ ?_
    · with_reducible exact State.complete_only h hcounts hhalves hout hrings
    · refine Only.ite ?_ ?_
      · with_reducible exact State.complete_only h hcounts hhalves hout hrings
      · refine Only.ite ?_ ?_
        · with_reducible exact State.complete_only h hcounts hhalves hout hrings
        · with_reducible refine State.complete_only ?_ hcounts hhalves hout hrings
          with_reducible exact State.setGroup_only h hgroups

theorem State.txOp_only {a1 a2 a3 a4}  (h : Only ps s0 s) (hcounts : Part.counts ∈ ps) (hfree : Part.free ∈ ps) (hfuncs : Part.funcs ∈ ps) (hhalves : Part.halves ∈ ps) (hobjs : Part.objs ∈ ps) (hout : Part.out ∈ ps) (hports : Part.ports ∈ ps) (hregs_fn : Part.regs .fn ∈ ps) (hrings : Part.rings ∈ ps) : Only ps s0 (State.txOp s a1 a2 a3 a4) := by
  unfold State.txOp
  dsimp only
  split
  · rename_i x1 code2 heq3
    with_reducible exact State.complete_only h hcounts hhalves hout hrings
  · rename_i x4 heq5
    refine Only.ite ?_ ?_
    · with_reducible exact State.complete_only h hcounts hhalves hout hrings
    · with_reducible refine State.fillSlots_only ?_ hcounts hfree hfuncs hhalves hobjs hout hports hregs_fn hrings
      with_reducible refine State.enterSet_only ?_ hcounts hfree hfuncs hhalves hobjs hout hports hregs_fn hrings
      with_reducible exact State.setPort_only h hports

theorem State.wakeTarget_only {a1}  (h : Only ps s0 s) (hevc : Part.evc ∈ ps) : Only ps s0 (State.wakeTarget s a1) := by
  unfold State.wakeTarget
  refine Only.ite ?_ ?_
  · exact h
  · extract_lets x1
    refine (h.evc hevc)

theorem State.wiresEnd_only  (h : Only ps s0 s) (hcounts : Part.counts ∈ ps) (hhalves : Part.halves ∈ ps) (hlinks : Part.links ∈ ps) : Only ps s0 (State.wiresEnd s) := by
  unfold State.wiresEnd
  refine Only.foldl ?_ ?_
  · exact h
  · intro s1 x2 k3
    split
    · rename_i x4 fst5 e6 heq7
      refine Only.ite ?_ ?_
      · with_reducible exact State.endWire_only k3 hcounts hhalves hlinks
      · exact k3
    · rename_i x8 heq9
      exact k3

theorem State.writeGroupCmd_only {a1 a2 a3}  (h : Only ps s0 s) (hevc : Part.evc ∈ ps) (hfree : Part.free ∈ ps) (hfuncs : Part.funcs ∈ ps) (hgroups : Part.groups ∈ ps) (hintake : Part.intake ∈ ps) (hmay : Part.may ∈ ps) (hout : Part.out ∈ ps) (hports : Part.ports ∈ ps) (hregs_grp : Part.regs .grp ∈ ps) (hregs_guard : Part.regs .guard ∈ ps) (hregs_port : Part.regs .port ∈ ps) (htrust : Part.trust ∈ ps) : Result.All (Only ps s0) (State.writeGroupCmd s a1 a2 a3) := by
  unfold State.writeGroupCmd
  with_reducible refine State.ownedWrite_only ?_ ?_ hevc hfree hfuncs hintake hmay hout hregs_guard
  · exact h
  · intro s1 k2
    with_reducible exact State.groupRequest_only k2 hgroups hports hregs_grp hregs_port htrust

theorem State.writePortCmd_only {a1 a2 a3}  (h : Only ps s0 s) (hcairn : Part.cairn ∈ ps) (hcounts : Part.counts ∈ ps) (hevc : Part.evc ∈ ps) (hfree : Part.free ∈ ps) (hfuncs : Part.funcs ∈ ps) (hhalves : Part.halves ∈ ps) (hintake : Part.intake ∈ ps) (hmay : Part.may ∈ ps) (hout : Part.out ∈ ps) (hports : Part.ports ∈ ps) (hregs_guard : Part.regs .guard ∈ ps) (hregs_port : Part.regs .port ∈ ps) (hrings : Part.rings ∈ ps) (htrust : Part.trust ∈ ps) : Result.All (Only ps s0) (State.writePortCmd s a1 a2 a3) := by
  unfold State.writePortCmd
  with_reducible refine State.ownedWrite_only ?_ ?_ hevc hfree hfuncs hintake hmay hout hregs_guard
  · exact h
  · intro s1 k2
    with_reducible exact State.portRequest_only k2 hcairn hcounts hhalves hout hports hregs_port hrings htrust

theorem execActivate_only {a1 a2 a3}  (h : Only ps s0 s) (hcairn : Part.cairn ∈ ps) (hevc : Part.evc ∈ ps) (hfree : Part.free ∈ ps) (hfuncs : Part.funcs ∈ ps) (hintake : Part.intake ∈ ps) (hmay : Part.may ∈ ps) (hout : Part.out ∈ ps) (hregs_guard : Part.regs .guard ∈ ps) : Result.All (Only ps s0) (execActivate a1 a2 a3 s) := by
  unfold execActivate
  extract_lets slot1
  with_reducible refine State.request_only ?_ ?_ hevc hfree hfuncs hintake hmay hout hregs_guard
  · exact h
  · intro s2 k3
    split
    · rename_i x4 heq5
      exact k3
    · rename_i x6 c7 heq8
      refine Only.ite ?_ ?_
      · with_reducible exact State.respond_only k3 hout
      · with_reducible refine State.beginActivation_only ?_ hcairn
        with_reducible exact State.respond_only k3 hout

theorem execAddrAssign_only {a1 a2}  (h : Only ps s0 s) (hcounts : Part.counts ∈ ps) (hevc : Part.evc ∈ ps) (hfab : Part.fab ∈ ps) (hfree : Part.free ∈ ps) (hfuncs : Part.funcs ∈ ps) (hhalves : Part.halves ∈ ps) (hintake : Part.intake ∈ ps) (hlinks : Part.links ∈ ps) (hmay : Part.may ∈ ps) (hout : Part.out ∈ ps) (hregs_fab : Part.regs .fab ∈ ps) (hregs_guard : Part.regs .guard ∈ ps) (hregs_tmu : Part.regs .tmu ∈ ps) : Result.All (Only ps s0) (execAddrAssign a1 a2 s) := by
  unfold execAddrAssign
  extract_lets f1
  refine Result.all_ite ?_ ?_
  · refine Result.all_next ?_
    exact h
  · with_reducible refine State.rlTake_only ?_ ?_ hcounts hevc hfree hfuncs hhalves hintake hlinks hmay hout hregs_guard
    · exact h
    · intro s2 k3
      with_reducible refine State.flooded__only ?_ ?_ hfab hlinks hout
      · exact k3
      · intro s4 k5
        refine Only.ite ?_ ?_
        · with_reducible exact State.takeAddr_only k5 hfab hregs_fab hregs_tmu
        · exact k5

theorem execAddrReq_only {a1 a2}  (h : Only ps s0 s) (hcounts : Part.counts ∈ ps) (hevc : Part.evc ∈ ps) (hfab : Part.fab ∈ ps) (hfree : Part.free ∈ ps) (hfuncs : Part.funcs ∈ ps) (hhalves : Part.halves ∈ ps) (hintake : Part.intake ∈ ps) (hlinks : Part.links ∈ ps) (hmay : Part.may ∈ ps) (hout : Part.out ∈ ps) (hregs_fab : Part.regs .fab ∈ ps) (hregs_guard : Part.regs .guard ∈ ps) (hregs_tmu : Part.regs .tmu ∈ ps) : Result.All (Only ps s0) (execAddrReq a1 a2 s) := by
  unfold execAddrReq
  extract_lets f1
  refine Result.all_ite ?_ ?_
  · refine Result.all_next ?_
    exact h
  · with_reducible refine State.rlTake_only ?_ ?_ hcounts hevc hfree hfuncs hhalves hintake hlinks hmay hout hregs_guard
    · exact h
    · intro s2 k3
      with_reducible refine State.flooded__only ?_ ?_ hfab hlinks hout
      · exact k3
      · intro s4 k5
        with_reducible exact State.allocate_only k5 hfab hlinks hout hregs_fab hregs_tmu

theorem execAddrReqTimer_only  (h : Only ps s0 s) (hcounts : Part.counts ∈ ps) (hevc : Part.evc ∈ ps) (hfab : Part.fab ∈ ps) (hfree : Part.free ∈ ps) (hfuncs : Part.funcs ∈ ps) (hhalves : Part.halves ∈ ps) (hintake : Part.intake ∈ ps) (hlinks : Part.links ∈ ps) (hmay : Part.may ∈ ps) (hobjs : Part.objs ∈ ps) (hout : Part.out ∈ ps) (hports : Part.ports ∈ ps) (hregs_fab : Part.regs .fab ∈ ps) (hregs_fn : Part.regs .fn ∈ ps) (hregs_guard : Part.regs .guard ∈ ps) (hregs_tmu : Part.regs .tmu ∈ ps) (hrings : Part.rings ∈ ps) (htmu : Part.tmu ∈ ps) : Result.All (Only ps s0) (execAddrReqTimer s) := by
  unfold execAddrReqTimer
  refine Result.all_ite ?_ ?_
  · extract_lets s1 x2 s3
    have hs1 : Only ps s0 s1 := by
      with_reducible exact State.waitFrom_only h hcounts hfree hfuncs hhalves hobjs hout hports hregs_fn hrings htmu
    clear_value s1
    have hs3 : Only ps s0 s3 := by
      with_reducible refine State.floodMgmt_only ?_ hfab hlinks hout
      refine (hs1.fab hfab)
    clear_value s3
    with_reducible refine finish_only ?_ hevc hfree hfuncs hintake hmay hout hregs_guard
    with_reducible exact State.allocate_only hs3 hfab hlinks hout hregs_fab hregs_tmu
  · refine Result.all_next ?_
    exact h

theorem execAlertResponse_only  (h : Only ps s0 s) (hevc : Part.evc ∈ ps) (hfree : Part.free ∈ ps) (hfuncs : Part.funcs ∈ ps) (hintake : Part.intake ∈ ps) (hmay : Part.may ∈ ps) (hout : Part.out ∈ ps) (hregs_guard : Part.regs .guard ∈ ps) : Result.All (Only ps s0) (execAlertResponse s) := by
  unfold execAlertResponse
  refine Result.all_ite ?_ ?_
  · with_reducible refine finish_only ?_ hevc hfree hfuncs hintake hmay hout hregs_guard
    with_reducible exact State.answer_only h hout
  · refine Result.all_next ?_
    exact h

theorem execAnRestart_only {a1}  (h : Only ps s0 s) (hcounts : Part.counts ∈ ps) (heths : Part.eths ∈ ps) (hevc : Part.evc ∈ ps) (hfree : Part.free ∈ ps) (hfuncs : Part.funcs ∈ ps) (hhalves : Part.halves ∈ ps) (hintake : Part.intake ∈ ps) (hmay : Part.may ∈ ps) (hobjs : Part.objs ∈ ps) (hout : Part.out ∈ ps) (hports : Part.ports ∈ ps) (hregs_fn : Part.regs .fn ∈ ps) (hregs_guard : Part.regs .guard ∈ ps) (hrings : Part.rings ∈ ps) (htmu : Part.tmu ∈ ps) : Result.All (Only ps s0) (execAnRestart a1 s) := by
  unfold execAnRestart
  extract_lets x1 s2 x3
  have hs2 : Only ps s0 s2 := by
    with_reducible exact State.waitFrom_only h hcounts hfree hfuncs hhalves hobjs hout hports hregs_fn hrings htmu
  clear_value s2
  refine Result.all_ite ?_ ?_
  · with_reducible refine finish_only ?_ hevc hfree hfuncs hintake hmay hout hregs_guard
    with_reducible refine State.countEth_only ?_ hcounts hhalves
    with_reducible exact State.setEth_only hs2 heths
  · refine Result.all_next ?_
    exact h

theorem execAnnounceReceiptTimeout_only {a1}  (h : Only ps s0 s) (hcounts : Part.counts ∈ ps) (hevc : Part.evc ∈ ps) (hfree : Part.free ∈ ps) (hfuncs : Part.funcs ∈ ps) (hhalves : Part.halves ∈ ps) (hintake : Part.intake ∈ ps) (hmay : Part.may ∈ ps) (hobjs : Part.objs ∈ ps) (hout : Part.out ∈ ps) (hports : Part.ports ∈ ps) (hptp : Part.ptp ∈ ps) (hregs_fn : Part.regs .fn ∈ ps) (hregs_guard : Part.regs .guard ∈ ps) (hrings : Part.rings ∈ ps) (htmu : Part.tmu ∈ ps) : Result.All (Only ps s0) (execAnnounceReceiptTimeout a1 s) := by
  unfold execAnnounceReceiptTimeout
  refine Result.all_ite ?_ ?_
  · with_reducible refine finish_only ?_ hevc hfree hfuncs hintake hmay hout hregs_guard
    with_reducible refine State.ptpChoose_only ?_ hptp
    with_reducible exact State.waitFrom_only h hcounts hfree hfuncs hhalves hobjs hout hports hregs_fn hrings htmu
  · refine Result.all_next ?_
    exact h

theorem execAttemptCommit_only {a1}  (h : Only ps s0 s) (hevc : Part.evc ∈ ps) (hfree : Part.free ∈ ps) (hfuncs : Part.funcs ∈ ps) (hintake : Part.intake ∈ ps) (hkeys : Part.keys ∈ ps) (hmay : Part.may ∈ ps) (hout : Part.out ∈ ps) (hports : Part.ports ∈ ps) (hregs_guard : Part.regs .guard ∈ ps) : Result.All (Only ps s0) (execAttemptCommit a1 s) := by
  unfold execAttemptCommit
  extract_lets p1 s2 x3
  have hs2 : Only ps s0 s2 := by
    with_reducible exact State.takeTrailer_only h hkeys hout hports
  clear_value s2
  dsimp only
  split
  · rename_i x4 heq5
    refine Result.all_next ?_
    exact h
  · rename_i x6 x7 heq8
    refine Result.all_ite ?_ ?_
    · refine Result.all_next ?_
      exact h
    · split
      · rename_i x9 heq10
        with_reducible exact finish_only hs2 hevc hfree hfuncs hintake hmay hout hregs_guard
      · rename_i x11 heq12
        with_reducible refine finish_only ?_ hevc hfree hfuncs hintake hmay hout hregs_guard
        with_reducible exact State.setPort_only hs2 hports

theorem execAttemptEnd_only {a1 a2 a3}  (h : Only ps s0 s) (hcounts : Part.counts ∈ ps) (heths : Part.eths ∈ ps) (hevc : Part.evc ∈ ps) (hfree : Part.free ∈ ps) (hfuncs : Part.funcs ∈ ps) (hgroups : Part.groups ∈ ps) (hhalves : Part.halves ∈ ps) (hintake : Part.intake ∈ ps) (hkeys : Part.keys ∈ ps) (hmay : Part.may ∈ ps) (hobjs : Part.objs ∈ ps) (hout : Part.out ∈ ps) (hports : Part.ports ∈ ps) (hregs_fn : Part.regs .fn ∈ ps) (hregs_grp : Part.regs .grp ∈ ps) (hregs_guard : Part.regs .guard ∈ ps) (hregs_port : Part.regs .port ∈ ps) (hrings : Part.rings ∈ ps) (hrxq : Part.rxq ∈ ps) : Result.All (Only ps s0) (execAttemptEnd a1 a2 a3 s) := by
  unfold execAttemptEnd
  refine Result.all_ite ?_ ?_
  · refine Result.all_next ?_
    exact h
  · refine Result.all_ite ?_ ?_
    · exact trivial
    · with_reducible refine finish_only ?_ hevc hfree hfuncs hintake hmay hout hregs_guard
      with_reducible exact State.attemptOp_only h hcounts heths hfree hfuncs hgroups hhalves hintake hkeys hobjs hout hports hregs_fn hregs_grp hregs_port hrings hrxq

theorem execAttest_only {a1 a2 a3 a4}  (h : Only ps s0 s) (hcounts : Part.counts ∈ ps) (hevc : Part.evc ∈ ps) (hfree : Part.free ∈ ps) (hfuncs : Part.funcs ∈ ps) (hhalves : Part.halves ∈ ps) (hintake : Part.intake ∈ ps) (hmay : Part.may ∈ ps) (hout : Part.out ∈ ps) (hregs_guard : Part.regs .guard ∈ ps) (hrings : Part.rings ∈ ps) : Result.All (Only ps s0) (execAttest a1 a2 a3 a4 s) := by
  unfold execAttest
  refine Result.all_ite ?_ ?_
  · refine Result.all_next ?_
    exact h
  · refine Result.all_ite ?_ ?_
    · exact trivial
    · with_reducible refine finish_only ?_ hevc hfree hfuncs hintake hmay hout hregs_guard
      with_reducible refine State.command_only ?_ ?_ hcounts hhalves hout hrings
      · exact h
      · intro s1 x2 k3
        with_reducible exact State.attestOp_only k3 hcounts hhalves hintake hout hrings

theorem execBankSupplyLoss_only {a1}  (h : Only ps s0 s) (hcounts : Part.counts ∈ ps) (hdev : Part.dev ∈ ps) (hevc : Part.evc ∈ ps) (hfree : Part.free ∈ ps) (hfuncs : Part.funcs ∈ ps) (hgroups : Part.groups ∈ ps) (hhalves : Part.halves ∈ ps) (hintake : Part.intake ∈ ps) (hmay : Part.may ∈ ps) (hout : Part.out ∈ ps) (hpairs : Part.pairs ∈ ps) (hports : Part.ports ∈ ps) (hregs_grp : Part.regs .grp ∈ ps) (hregs_guard : Part.regs .guard ∈ ps) (hregs_port : Part.regs .port ∈ ps) (hrings : Part.rings ∈ ps) : Result.All (Only ps s0) (execBankSupplyLoss a1 s) := by
  unfold execBankSupplyLoss
  extract_lets x1 s2
  have hs2 : Only ps s0 s2 := by
    refine (h.dev hdev)
  clear_value s2
  with_reducible refine finish_only ?_ hevc hfree hfuncs hintake hmay hout hregs_guard
  refine Only.foldl ?_ ?_
  · exact hs2
  · intro s3 x4 k5
    with_reducible exact State.bankLost_only k5 hcounts hgroups hhalves hout hpairs hports hregs_grp hregs_port hrings

theorem execBankSupplyReturn_only {a1 a2}  (h : Only ps s0 s) (hdev : Part.dev ∈ ps) (hevc : Part.evc ∈ ps) (hfree : Part.free ∈ ps) (hfuncs : Part.funcs ∈ ps) (hintake : Part.intake ∈ ps) (hmay : Part.may ∈ ps) (hout : Part.out ∈ ps) (hregs_guard : Part.regs .guard ∈ ps) : Result.All (Only ps s0) (execBankSupplyReturn a1 a2 s) := by
  unfold execBankSupplyReturn
  with_reducible refine finish_only ?_ hevc hfree hfuncs hintake hmay hout hregs_guard
  extract_lets x1
  refine (h.dev hdev)

theorem execBeaconDue_only {a1}  (h : Only ps s0 s) (hcounts : Part.counts ∈ ps) (hevc : Part.evc ∈ ps) (hfree : Part.free ∈ ps) (hfuncs : Part.funcs ∈ ps) (hhalves : Part.halves ∈ ps) (hintake : Part.intake ∈ ps) (hmay : Part.may ∈ ps) (hobjs : Part.objs ∈ ps) (hout : Part.out ∈ ps) (hports : Part.ports ∈ ps) (hregs_fn : Part.regs .fn ∈ ps) (hregs_guard : Part.regs .guard ∈ ps) (hrings : Part.rings ∈ ps) (htmu : Part.tmu ∈ ps) : Result.All (Only ps s0) (execBeaconDue a1 s) := by
  unfold execBeaconDue
  extract_lets x1 t2 s3 x4 ft5
  have hs3 : Only ps s0 s3 := by
    with_reducible exact State.advance_only h hcounts hfree hfuncs hhalves hobjs hout hports hregs_fn hrings htmu
  clear_value s3
  refine Result.all_ite ?_ ?_
  · with_reducible refine finish_only ?_ hevc hfree hfuncs hintake hmay hout hregs_guard
    with_reducible exact State.setPort_only hs3 hports
  · refine Result.all_next ?_
    exact h

theorem execBoot_only  (h : Only ps s0 s) (hcairn : Part.cairn ∈ ps) (hdev : Part.dev ∈ ps) (hevc : Part.evc ∈ ps) (hfab : Part.fab ∈ ps) (hfree : Part.free ∈ ps) (hfuncs : Part.funcs ∈ ps) (hintake : Part.intake ∈ ps) (hmay : Part.may ∈ ps) (hout : Part.out ∈ ps) (hregs_cairn : Part.regs .cairn ∈ ps) (hregs_dev : Part.regs .dev ∈ ps) (hregs_fn : Part.regs .fn ∈ ps) (hregs_guard : Part.regs .guard ∈ ps) (hspur : Part.spur ∈ ps) : Result.All (Only ps s0) (execBoot s) := by
  unfold execBoot
  refine Result.all_ite ?_ ?_
  · refine Result.all_next ?_
    exact h
  · with_reducible refine finish_only ?_ hevc hfree hfuncs hintake hmay hout hregs_guard
    with_reducible exact State.bootOp_only h hcairn hdev hfab hfree hintake hregs_cairn hregs_dev hregs_fn hspur

theorem execBranchJoin_only {a1 a2}  (h : Only ps s0 s) (hcounts : Part.counts ∈ ps) (hevc : Part.evc ∈ ps) (hfree : Part.free ∈ ps) (hfuncs : Part.funcs ∈ ps) (hgroups : Part.groups ∈ ps) (hhalves : Part.halves ∈ ps) (hintake : Part.intake ∈ ps) (hmay : Part.may ∈ ps) (hout : Part.out ∈ ps) (hports : Part.ports ∈ ps) (hregs_grp : Part.regs .grp ∈ ps) (hregs_guard : Part.regs .guard ∈ ps) (hregs_port : Part.regs .port ∈ ps) (hrings : Part.rings ∈ ps) : Result.All (Only ps s0) (execBranchJoin a1 a2 s) := by
  unfold execBranchJoin
  refine Result.all_ite ?_ ?_
  · with_reducible refine finish_only ?_ hevc hfree hfuncs hintake hmay hout hregs_guard
    with_reducible exact State.joinBranch_only h hcounts hgroups hhalves hout hports hregs_grp hregs_port hrings
  · refine Result.all_next ?_
    exact h

theorem execBufWaitExpiry_only {a1 a2}  (h : Only ps s0 s) (hcounts : Part.counts ∈ ps) (heths : Part.eths ∈ ps) (hevc : Part.evc ∈ ps) (hfree : Part.free ∈ ps) (hfuncs : Part.funcs ∈ ps) (hhalves : Part.halves ∈ ps) (hintake : Part.intake ∈ ps) (hmay : Part.may ∈ ps) (hobjs : Part.objs ∈ ps) (hout : Part.out ∈ ps) (hports : Part.ports ∈ ps) (hregs_fn : Part.regs .fn ∈ ps) (hregs_guard : Part.regs .guard ∈ ps) (hrings : Part.rings ∈ ps) (htmu : Part.tmu ∈ ps) : Result.All (Only ps s0) (execBufWaitExpiry a1 a2 s) := by
  unfold execBufWaitExpiry
  dsimp only
  split
  · rename_i x1 heq2
    refine Result.all_next ?_
    exact h
  · rename_i x3 w4 tail5 heq6
    with_reducible refine finish_only ?_ hevc hfree hfuncs hintake hmay hout hregs_guard
    with_reducible refine State.serve_only ?_ hcounts heths hhalves hout hports hrings
    with_reducible refine State.dropOldest_only ?_ hcounts heths hhalves hout hports hrings
    with_reducible exact State.advance_only h hcounts hfree hfuncs hhalves hobjs hout hports hregs_fn hrings htmu

theorem execBusIntegrated_only {a1}  (h : Only ps s0 s) (hevc : Part.evc ∈ ps) (hfree : Part.free ∈ ps) (hfuncs : Part.funcs ∈ ps) (hgroups : Part.groups ∈ ps) (hintake : Part.intake ∈ ps) (hmay : Part.may ∈ ps) (hout : Part.out ∈ ps) (hpairs : Part.pairs ∈ ps) (hports : Part.ports ∈ ps) (hregs_guard : Part.regs .guard ∈ ps) : Result.All (Only ps s0) (execBusIntegrated a1 s) := by
  unfold execBusIntegrated
  extract_lets x1 k2 coil3 early4 join5 x6 s7 s8 over9 s10
  have hs7 : Only ps s0 s7 := by
    refine Only.ite ?_ ?_
    · refine (h.pairs hpairs)
    · exact h
  clear_value s7
  have hs8 : Only ps s0 s8 := by
    refine Only.ite ?_ ?_
    · with_reducible exact State.setPort_only hs7 hports
    · exact hs7
  clear_value s8
  have hs10 : Only ps s0 s10 := by
    dsimp only [s10]
    clear_value over9
    split
    · rename_i x11 k12
      with_reducible exact State.setGroup_only hs8 hgroups
    · rename_i x13
      exact hs8
  clear_value s10
  refine Result.all_ite ?_ ?_
  · with_reducible exact finish_only hs10 hevc hfree hfuncs hintake hmay hout hregs_guard
  · refine Result.all_next ?_
    exact hs10

theorem execCandidateExpiry_only {a1 a2}  (h : Only ps s0 s) (hcounts : Part.counts ∈ ps) (hevc : Part.evc ∈ ps) (hfree : Part.free ∈ ps) (hfuncs : Part.funcs ∈ ps) (hhalves : Part.halves ∈ ps) (hintake : Part.intake ∈ ps) (hmay : Part.may ∈ ps) (hobjs : Part.objs ∈ ps) (hout : Part.out ∈ ps) (hports : Part.ports ∈ ps) (hregs_fn : Part.regs .fn ∈ ps) (hregs_guard : Part.regs .guard ∈ ps) (hrings : Part.rings ∈ ps) (htmu : Part.tmu ∈ ps) : Result.All (Only ps s0) (execCandidateExpiry a1 a2 s) := by
  unfold execCandidateExpiry
  split
  · rename_i x1 k2 heq3
    split
    · rename_i x4 t5 heq6
      with_reducible refine finish_only ?_ hevc hfree hfuncs hintake hmay hout hregs_guard
      refine Only.ite ?_ ?_
      · with_reducible refine State.holdTimeEnds_only ?_ hports
        with_reducible exact State.advance_only h hcounts hfree hfuncs hhalves hobjs hout hports hregs_fn hrings htmu
      · with_reducible exact State.advance_only h hcounts hfree hfuncs hhalves hobjs hout hports hregs_fn hrings htmu
    · rename_i x7 heq8
      refine Result.all_next ?_
      exact h
  · rename_i x9 heq10
    refine Result.all_next ?_
    exact h

theorem execChallenge_only {a1 a2 a3}  (h : Only ps s0 s) (hcounts : Part.counts ∈ ps) (hevc : Part.evc ∈ ps) (hfree : Part.free ∈ ps) (hfuncs : Part.funcs ∈ ps) (hhalves : Part.halves ∈ ps) (hintake : Part.intake ∈ ps) (hmay : Part.may ∈ ps) (hout : Part.out ∈ ps) (hregs_guard : Part.regs .guard ∈ ps) (hrings : Part.rings ∈ ps) (htrust : Part.trust ∈ ps) : Result.All (Only ps s0) (execChallenge a1 a2 a3 s) := by
  unfold execChallenge
  refine Result.all_ite ?_ ?_
  · with_reducible refine finish_only ?_ hevc hfree hfuncs hintake hmay hout hregs_guard
    with_reducible refine State.command_only ?_ ?_ hcounts hhalves hout hrings
    · exact h
    · intro s1 x2 k3
      with_reducible exact State.challengeOp_only k3 hcounts hfree hhalves hout hrings htrust
  · refine Result.all_next ?_
    exact h

theorem execChallengeExpiry_only  (h : Only ps s0 s) (hcounts : Part.counts ∈ ps) (hevc : Part.evc ∈ ps) (hfree : Part.free ∈ ps) (hfuncs : Part.funcs ∈ ps) (hhalves : Part.halves ∈ ps) (hintake : Part.intake ∈ ps) (hmay : Part.may ∈ ps) (hobjs : Part.objs ∈ ps) (hout : Part.out ∈ ps) (hports : Part.ports ∈ ps) (hregs_fn : Part.regs .fn ∈ ps) (hregs_guard : Part.regs .guard ∈ ps) (hrings : Part.rings ∈ ps) (htmu : Part.tmu ∈ ps) (htrust : Part.trust ∈ ps) : Result.All (Only ps s0) (execChallengeExpiry s) := by
  unfold execChallengeExpiry
  split
  · rename_i x1 c2 snd3 heq4
    with_reducible refine finish_only ?_ hevc hfree hfuncs hintake hmay hout hregs_guard
    with_reducible refine State.spendChallenge_only ?_ htrust
    with_reducible exact State.advance_only h hcounts hfree hfuncs hhalves hobjs hout hports hregs_fn hrings htmu
  · rename_i x5 heq6
    refine Result.all_next ?_
    exact h

end Sys2Proof.Machine
end

