-- ==== Sys2Proof/Laws/OnlyD.lean ====
section
/-! SUPPORT. Frames of the operations (Only.lean), part 4 of 4, each after those it calls. -/
namespace Sys2Proof.Machine

variable {ps : List Part} {s0 s t : State}

theorem execClearAlert_only {a1 a2}  (h : Only ps s0 s) (hcairn : Part.cairn ∈ ps) (hevc : Part.evc ∈ ps) (hfree : Part.free ∈ ps) (hfuncs : Part.funcs ∈ ps) (hintake : Part.intake ∈ ps) (hmay : Part.may ∈ ps) (hout : Part.out ∈ ps) (hregs_guard : Part.regs .guard ∈ ps) : Result.All (Only ps s0) (execClearAlert a1 a2 s) := by
  unfold execClearAlert
  with_reducible refine State.request_only ?_ ?_ hevc hfree hfuncs hintake hmay hout hregs_guard
  · exact h
  · intro s1 k2
    extract_lets e3 x4
    with_reducible refine State.respond_only ?_ hout
    with_reducible exact State.setCairn_only k2 hcairn

theorem execColTravelEnd_only {a1}  (h : Only ps s0 s) (hcounts : Part.counts ∈ ps) (hevc : Part.evc ∈ ps) (hfree : Part.free ∈ ps) (hfuncs : Part.funcs ∈ ps) (hhalves : Part.halves ∈ ps) (hintake : Part.intake ∈ ps) (hmay : Part.may ∈ ps) (hobjs : Part.objs ∈ ps) (hout : Part.out ∈ ps) (hpairs : Part.pairs ∈ ps) (hports : Part.ports ∈ ps) (hregs_fn : Part.regs .fn ∈ ps) (hregs_guard : Part.regs .guard ∈ ps) (hrings : Part.rings ∈ ps) (htmu : Part.tmu ∈ ps) : Result.All (Only ps s0) (execColTravelEnd a1 s) := by
  unfold execColTravelEnd
  extract_lets x1 s2
  have hs2 : Only ps s0 s2 := by
    with_reducible exact State.waitFrom_only h hcounts hfree hfuncs hhalves hobjs hout hports hregs_fn hrings htmu
  clear_value s2
  refine Result.all_ite ?_ ?_
  · with_reducible refine finish_only ?_ hevc hfree hfuncs hintake hmay hout hregs_guard
    refine (hs2.pairs hpairs)
  · refine Result.all_next ?_
    exact h

theorem execColdstartBackoffEnd_only {a1}  (h : Only ps s0 s) (hcounts : Part.counts ∈ ps) (hevc : Part.evc ∈ ps) (hfree : Part.free ∈ ps) (hfuncs : Part.funcs ∈ ps) (hgroups : Part.groups ∈ ps) (hhalves : Part.halves ∈ ps) (hintake : Part.intake ∈ ps) (hmay : Part.may ∈ ps) (hobjs : Part.objs ∈ ps) (hout : Part.out ∈ ps) (hports : Part.ports ∈ ps) (hregs_fn : Part.regs .fn ∈ ps) (hregs_guard : Part.regs .guard ∈ ps) (hrings : Part.rings ∈ ps) (htmu : Part.tmu ∈ ps) : Result.All (Only ps s0) (execColdstartBackoffEnd a1 s) := by
  unfold execColdstartBackoffEnd
  extract_lets g1 wait2
  refine Result.all_ite ?_ ?_
  · with_reducible refine finish_only ?_ hevc hfree hfuncs hintake hmay hout hregs_guard
    with_reducible refine State.sendCold_only ?_ hcounts hfree hfuncs hgroups hhalves hobjs hout hports hregs_fn hrings htmu
    with_reducible exact State.advance_only h hcounts hfree hfuncs hhalves hobjs hout hports hregs_fn hrings htmu
  · refine Result.all_next ?_
    exact h

theorem execColfTravelEnd_only {a1}  (h : Only ps s0 s) (hcounts : Part.counts ∈ ps) (hevc : Part.evc ∈ ps) (hfree : Part.free ∈ ps) (hfuncs : Part.funcs ∈ ps) (hhalves : Part.halves ∈ ps) (hintake : Part.intake ∈ ps) (hlinks : Part.links ∈ ps) (hmay : Part.may ∈ ps) (hobjs : Part.objs ∈ ps) (hout : Part.out ∈ ps) (hports : Part.ports ∈ ps) (hregs_fn : Part.regs .fn ∈ ps) (hregs_guard : Part.regs .guard ∈ ps) (hrings : Part.rings ∈ ps) (htmu : Part.tmu ∈ ps) : Result.All (Only ps s0) (execColfTravelEnd a1 s) := by
  unfold execColfTravelEnd
  refine Result.all_ite ?_ ?_
  · extract_lets s1 x2
    have hs1 : Only ps s0 s1 := by
      with_reducible exact State.waitFrom_only h hcounts hfree hfuncs hhalves hobjs hout hports hregs_fn hrings htmu
    clear_value s1
    with_reducible refine finish_only ?_ hevc hfree hfuncs hintake hmay hout hregs_guard
    with_reducible exact State.setLink_only hs1 hlinks
  · refine Result.all_next ?_
    exact h

theorem execCoreFault_only {a1 a2}  (h : Only ps s0 s) (hcairn : Part.cairn ∈ ps) (hevc : Part.evc ∈ ps) (hfree : Part.free ∈ ps) (hfuncs : Part.funcs ∈ ps) (hgroups : Part.groups ∈ ps) (hintake : Part.intake ∈ ps) (hmay : Part.may ∈ ps) (hout : Part.out ∈ ps) (hregs_dev : Part.regs .dev ∈ ps) (hregs_guard : Part.regs .guard ∈ ps) (hspur : Part.spur ∈ ps) : Result.All (Only ps s0) (execCoreFault a1 a2 s) := by
  unfold execCoreFault
  refine Result.all_ite ?_ ?_
  · refine Result.all_next ?_
    exact h
  · with_reducible refine finish_only ?_ hevc hfree hfuncs hintake hmay hout hregs_guard
    with_reducible exact State.coreLost_only h hcairn hgroups hintake hregs_dev hspur

theorem execCoreTestEnd_only {a1 a2}  (h : Only ps s0 s) (hevc : Part.evc ∈ ps) (hfree : Part.free ∈ ps) (hfuncs : Part.funcs ∈ ps) (hintake : Part.intake ∈ ps) (hmay : Part.may ∈ ps) (hout : Part.out ∈ ps) (hregs_dev : Part.regs .dev ∈ ps) (hregs_guard : Part.regs .guard ∈ ps) (hspur : Part.spur ∈ ps) : Result.All (Only ps s0) (execCoreTestEnd a1 a2 s) := by
  unfold execCoreTestEnd
  extract_lets x1
  refine Result.all_ite ?_ ?_
  · refine Result.all_next ?_
    exact h
  · refine Result.all_ite ?_ ?_
    · with_reducible refine finish_only ?_ hevc hfree hfuncs hintake hmay hout hregs_guard
      with_reducible refine State.endCmd_only ?_ hregs_dev hspur
      with_reducible refine State.seEvt_only ?_ hregs_dev
      with_reducible exact State.setCore_only h hspur
    · refine Result.all_ite ?_ ?_
      · with_reducible refine finish_only ?_ hevc hfree hfuncs hintake hmay hout hregs_guard
        with_reducible refine State.endCmd_only ?_ hregs_dev hspur
        with_reducible exact State.coreRuns_only h hevc hspur
      · with_reducible refine finish_only ?_ hevc hfree hfuncs hintake hmay hout hregs_guard
        with_reducible refine State.endCmd_only ?_ hregs_dev hspur
        with_reducible exact State.setCore_only h hspur

theorem execCqStallPoll_only {a1 a2 a3}  (h : Only ps s0 s) (hcairn : Part.cairn ∈ ps) (hcounts : Part.counts ∈ ps) (heths : Part.eths ∈ ps) (hevc : Part.evc ∈ ps) (hfree : Part.free ∈ ps) (hfuncs : Part.funcs ∈ ps) (hhalves : Part.halves ∈ ps) (hintake : Part.intake ∈ ps) (hmay : Part.may ∈ ps) (hobjs : Part.objs ∈ ps) (hout : Part.out ∈ ps) (hports : Part.ports ∈ ps) (hregs_fn : Part.regs .fn ∈ ps) (hregs_guard : Part.regs .guard ∈ ps) (hregs_ring : Part.regs .ring ∈ ps) (hrings : Part.rings ∈ ps) (htmu : Part.tmu ∈ ps) (htrust : Part.trust ∈ ps) : Result.All (Only ps s0) (execCqStallPoll a1 a2 a3 s) := by
  unfold execCqStallPoll
  extract_lets i1 s2 x3
  have hs2 : Only ps s0 s2 := by
    with_reducible exact State.waitFrom_only h hcounts hfree hfuncs hhalves hobjs hout hports hregs_fn hrings htmu
  clear_value s2
  refine Result.all_ite ?_ ?_
  · with_reducible refine finish_only ?_ hevc hfree hfuncs hintake hmay hout hregs_guard
    with_reducible refine State.readIndex_only ?_ hcairn hcounts heths hfree hfuncs hhalves hintake hobjs hout hports hregs_fn hregs_ring hrings htrust
    with_reducible exact State.setRing_only hs2 hrings
  · refine Result.all_next ?_
    exact h

theorem execCreditReport_only {a1 a2 a3}  (h : Only ps s0 s) (hevc : Part.evc ∈ ps) (hfree : Part.free ∈ ps) (hfuncs : Part.funcs ∈ ps) (hintake : Part.intake ∈ ps) (hlinks : Part.links ∈ ps) (hmay : Part.may ∈ ps) (hout : Part.out ∈ ps) (hregs_guard : Part.regs .guard ∈ ps) : Result.All (Only ps s0) (execCreditReport a1 a2 a3 s) := by
  unfold execCreditReport
  extract_lets l1
  refine Result.all_ite ?_ ?_
  · refine Result.all_next ?_
    exact h
  · with_reducible refine finish_only ?_ hevc hfree hfuncs hintake hmay hout hregs_guard
    with_reducible exact State.setLink_only h hlinks

theorem execCreditReportTimer_only {a1}  (h : Only ps s0 s) (hevc : Part.evc ∈ ps) (hfree : Part.free ∈ ps) (hfuncs : Part.funcs ∈ ps) (hintake : Part.intake ∈ ps) (hmay : Part.may ∈ ps) (hout : Part.out ∈ ps) (hregs_guard : Part.regs .guard ∈ ps) : Result.All (Only ps s0) (execCreditReportTimer a1 s) := by
  unfold execCreditReportTimer
  refine Result.all_ite ?_ ?_
  · with_reducible refine finish_only ?_ hevc hfree hfuncs hintake hmay hout hregs_guard
    refine Only.foldl ?_ ?_
    · exact h
    · intro s1 x2 k3
      with_reducible exact State.reportCredit_only k3 hout
  · refine Result.all_next ?_
    exact h

theorem execCycleStart_only {a1}  (h : Only ps s0 s) (hcounts : Part.counts ∈ ps) (hevc : Part.evc ∈ ps) (hfree : Part.free ∈ ps) (hfuncs : Part.funcs ∈ ps) (hgroups : Part.groups ∈ ps) (hhalves : Part.halves ∈ ps) (hintake : Part.intake ∈ ps) (hmay : Part.may ∈ ps) (hobjs : Part.objs ∈ ps) (hout : Part.out ∈ ps) (hports : Part.ports ∈ ps) (hregs_fn : Part.regs .fn ∈ ps) (hregs_grp : Part.regs .grp ∈ ps) (hregs_guard : Part.regs .guard ∈ ps) (hregs_port : Part.regs .port ∈ ps) (hrings : Part.rings ∈ ps) (htmu : Part.tmu ∈ ps) : Result.All (Only ps s0) (execCycleStart a1 s) := by
  unfold execCycleStart
  refine Result.all_ite ?_ ?_
  · extract_lets s1
    have hs1 : Only ps s0 s1 := by
      with_reducible exact State.turnCycle_only h hgroups hports hregs_grp hregs_port
    clear_value s1
    refine Result.all_ite ?_ ?_
    · with_reducible refine finish_only ?_ hevc hfree hfuncs hintake hmay hout hregs_guard
      with_reducible exact State.sendRef_only hs1 hcounts hfree hfuncs hgroups hhalves hobjs hout hports hregs_fn hrings htmu
    · with_reducible refine finish_only ?_ hevc hfree hfuncs hintake hmay hout hregs_guard
      refine Only.ite ?_ ?_
      · with_reducible exact State.advance_only hs1 hcounts hfree hfuncs hhalves hobjs hout hports hregs_fn hrings htmu
      · exact hs1
  · refine Result.all_next ?_
    exact h

theorem execDbbEnable_only {a1 a2}  (h : Only ps s0 s) (hevc : Part.evc ∈ ps) (hfree : Part.free ∈ ps) (hfuncs : Part.funcs ∈ ps) (hintake : Part.intake ∈ ps) (hmay : Part.may ∈ ps) (hout : Part.out ∈ ps) (hregs_fn : Part.regs .fn ∈ ps) (hregs_guard : Part.regs .guard ∈ ps) : Result.All (Only ps s0) (execDbbEnable a1 a2 s) := by
  unfold execDbbEnable
  refine Result.all_ite ?_ ?_
  · refine Result.all_next ?_
    exact h
  · refine Result.all_ite ?_ ?_
    · with_reducible refine finish_only ?_ hevc hfree hfuncs hintake hmay hout hregs_guard
      with_reducible exact State.writeDbb_only h hintake hregs_fn
    · with_reducible refine finish_only ?_ hevc hfree hfuncs hintake hmay hout hregs_guard
      with_reducible exact State.crossDomain_only h hintake

theorem execDebugUnlock_only {a1}  (h : Only ps s0 s) (hcounts : Part.counts ∈ ps) (heths : Part.eths ∈ ps) (hevc : Part.evc ∈ ps) (hfab : Part.fab ∈ ps) (hflt : Part.flt ∈ ps) (hfree : Part.free ∈ ps) (hfuncs : Part.funcs ∈ ps) (hhalves : Part.halves ∈ ps) (hintake : Part.intake ∈ ps) (hkeys : Part.keys ∈ ps) (hlinks : Part.links ∈ ps) (hlog : Part.log ∈ ps) (hmay : Part.may ∈ ps) (hobjs : Part.objs ∈ ps) (hout : Part.out ∈ ps) (hports : Part.ports ∈ ps) (hregs_fab : Part.regs .fab ∈ ps) (hregs_fn : Part.regs .fn ∈ ps) (hregs_guard : Part.regs .guard ∈ ps) (hregs_tmu : Part.regs .tmu ∈ ps) (hrings : Part.rings ∈ ps) (hrxq : Part.rxq ∈ ps) (hspur : Part.spur ∈ ps) (htarn : Part.tarn ∈ ps) (htrust : Part.trust ∈ ps) : Result.All (Only ps s0) (execDebugUnlock a1 s) := by
  unfold execDebugUnlock
  split
  · exact Result.all_next h
  · extract_lets key good src1 s1 s2 src2 s3 src3 s4
    have h1 : Only ps s0 s1 := h.belay (.inl ⟨rfl, rfl, rfl⟩) (.inl rfl) (.inl rfl) (.inr htrust)
    have h2 : Only ps s0 s2 := (State.eraseArgs_only (State.eraseData_only h1 hcounts heths hfab hflt hhalves hkeys hlinks hobjs hout hports hregs_fab hregs_fn hregs_tmu hrings hrxq hspur htarn) hintake hlog)
    have h3 : Only ps s0 s3 := h2.spur hspur
    have h4 : Only ps s0 s4 := h3.belay (.inl ⟨rfl, rfl, rfl⟩) (.inl rfl) (.inl rfl) (.inr htrust)
    exact Result.all_ite (finish_only (State.record_only h4 hintake) hevc hfree hfuncs hintake hmay hout hregs_guard) (finish_only h1 hevc hfree hfuncs hintake hmay hout hregs_guard)

theorem execDebugUnlockRequest_only  (h : Only ps s0 s) (hevc : Part.evc ∈ ps) (hfree : Part.free ∈ ps) (hfuncs : Part.funcs ∈ ps) (hintake : Part.intake ∈ ps) (hmay : Part.may ∈ ps) (hout : Part.out ∈ ps) (hregs_guard : Part.regs .guard ∈ ps) (htrust : Part.trust ∈ ps) : Result.All (Only ps s0) (execDebugUnlockRequest s) := by
  unfold execDebugUnlockRequest
  extract_lets l1 c2 s3 x4 s5
  have hs3 : Only ps s0 s3 := by
    with_reducible exact State.draw_only h hfree
  clear_value s3
  have hs5 : Only ps s0 s5 := by
    refine (hs3.belay (.inl ⟨rfl, rfl, rfl⟩) (.inl rfl) (.inl rfl) (.inr htrust))
  clear_value s5
  refine Result.all_ite ?_ ?_
  · refine Result.all_next ?_
    exact h
  · with_reducible refine finish_only ?_ hevc hfree hfuncs hintake hmay hout hregs_guard
    with_reducible exact State.emit_only hs5 hout

theorem execDevSwap_only {a1 a2}  (h : Only ps s0 s) (hevc : Part.evc ∈ ps) (hfree : Part.free ∈ ps) (hfuncs : Part.funcs ∈ ps) (hintake : Part.intake ∈ ps) (hmay : Part.may ∈ ps) (hout : Part.out ∈ ps) (hregs_dev : Part.regs .dev ∈ ps) (hregs_guard : Part.regs .guard ∈ ps) (hspur : Part.spur ∈ ps) : Result.All (Only ps s0) (execDevSwap a1 a2 s) := by
  unfold execDevSwap
  with_reducible refine State.ownedWrite_only ?_ ?_ hevc hfree hfuncs hintake hmay hout hregs_guard
  · exact h
  · intro s1 k2
    with_reducible exact State.writeSwap_only k2 hintake hregs_dev hspur

theorem execDmaWindowRecord_only {a1 a2}  (h : Only ps s0 s) (hcairn : Part.cairn ∈ ps) (hcounts : Part.counts ∈ ps) (heths : Part.eths ∈ ps) (hevc : Part.evc ∈ ps) (hflt : Part.flt ∈ ps) (hfree : Part.free ∈ ps) (hfuncs : Part.funcs ∈ ps) (hgroups : Part.groups ∈ ps) (hhalves : Part.halves ∈ ps) (hintake : Part.intake ∈ ps) (hmay : Part.may ∈ ps) (hobjs : Part.objs ∈ ps) (hout : Part.out ∈ ps) (hpartition : Part.partition ∈ ps) (hports : Part.ports ∈ ps) (hregs_ep : Part.regs .ep ∈ ps) (hregs_flt : Part.regs .flt ∈ ps) (hregs_fn : Part.regs .fn ∈ ps) (hregs_grp : Part.regs .grp ∈ ps) (hregs_guard : Part.regs .guard ∈ ps) (hregs_port : Part.regs .port ∈ ps) (hregs_ring : Part.regs .ring ∈ ps) (hrings : Part.rings ∈ ps) (hspur : Part.spur ∈ ps) (htarn : Part.tarn ∈ ps) (htrust : Part.trust ∈ ps) (hunits : Part.units ∈ ps) : Result.All (Only ps s0) (execDmaWindowRecord a1 a2 s) := by
  unfold execDmaWindowRecord
  with_reducible exact State.submit_only h hcairn hcounts heths hevc hflt hfree hfuncs hgroups hhalves hintake hmay hobjs hout hpartition hports hregs_ep hregs_flt hregs_fn hregs_grp hregs_guard hregs_port hregs_ring hrings hspur htarn htrust hunits

theorem execDomainEntry_only {a1 a2}  (h : Only ps s0 s) (hcairn : Part.cairn ∈ ps) (hcounts : Part.counts ∈ ps) (heths : Part.eths ∈ ps) (hevc : Part.evc ∈ ps) (hflt : Part.flt ∈ ps) (hfree : Part.free ∈ ps) (hfuncs : Part.funcs ∈ ps) (hgroups : Part.groups ∈ ps) (hhalves : Part.halves ∈ ps) (hintake : Part.intake ∈ ps) (hmay : Part.may ∈ ps) (hobjs : Part.objs ∈ ps) (hout : Part.out ∈ ps) (hpartition : Part.partition ∈ ps) (hports : Part.ports ∈ ps) (hregs_ep : Part.regs .ep ∈ ps) (hregs_flt : Part.regs .flt ∈ ps) (hregs_fn : Part.regs .fn ∈ ps) (hregs_grp : Part.regs .grp ∈ ps) (hregs_guard : Part.regs .guard ∈ ps) (hregs_port : Part.regs .port ∈ ps) (hregs_ring : Part.regs .ring ∈ ps) (hrings : Part.rings ∈ ps) (hspur : Part.spur ∈ ps) (htarn : Part.tarn ∈ ps) (htrust : Part.trust ∈ ps) (hunits : Part.units ∈ ps) : Result.All (Only ps s0) (execDomainEntry a1 a2 s) := by
  unfold execDomainEntry
  with_reducible exact State.submit_only h hcairn hcounts heths hevc hflt hfree hfuncs hgroups hhalves hintake hmay hobjs hout hpartition hports hregs_ep hregs_flt hregs_fn hregs_grp hregs_guard hregs_port hregs_ring hrings hspur htarn htrust hunits

theorem execDutyMoveDone_only {a1}  (h : Only ps s0 s) (hevc : Part.evc ∈ ps) (hfab : Part.fab ∈ ps) (hfree : Part.free ∈ ps) (hfuncs : Part.funcs ∈ ps) (hgroups : Part.groups ∈ ps) (hintake : Part.intake ∈ ps) (hmay : Part.may ∈ ps) (hout : Part.out ∈ ps) (hregs_dev : Part.regs .dev ∈ ps) (hregs_fab : Part.regs .fab ∈ ps) (hregs_fn : Part.regs .fn ∈ ps) (hregs_guard : Part.regs .guard ∈ ps) (hregs_tmu : Part.regs .tmu ∈ ps) (hspur : Part.spur ∈ ps) (htmu : Part.tmu ∈ ps) : Result.All (Only ps s0) (execDutyMoveDone a1 s) := by
  unfold execDutyMoveDone
  extract_lets i1
  dsimp only
  split
  · rename_i x2 t3 heq4
    with_reducible refine finish_only ?_ hevc hfree hfuncs hintake hmay hout hregs_guard
    with_reducible refine State.haltDone_only ?_ hregs_dev hspur
    with_reducible refine State.dutyStarts_only ?_ hfab hgroups hregs_fab hregs_fn hregs_tmu htmu
    with_reducible refine State.seEvt_only ?_ hregs_dev
    with_reducible exact State.setDuty_only h hspur
  · rename_i x5 heq6
    refine Result.all_next ?_
    exact h

theorem execEngineLoadDone_only {a1}  (h : Only ps s0 s) (hevc : Part.evc ∈ ps) (hfree : Part.free ∈ ps) (hfuncs : Part.funcs ∈ ps) (hintake : Part.intake ∈ ps) (hmay : Part.may ∈ ps) (hout : Part.out ∈ ps) (hregs_dev : Part.regs .dev ∈ ps) (hregs_guard : Part.regs .guard ∈ ps) (hspur : Part.spur ∈ ps) : Result.All (Only ps s0) (execEngineLoadDone a1 s) := by
  unfold execEngineLoadDone
  extract_lets x1 img2 x3 x4 wanted5
  dsimp only
  split
  · rename_i x6 x7 why8 heq9 heq10
    split
    · rename_i why11 p12
      refine Result.all_ite ?_ ?_
      · with_reducible refine finish_only ?_ hevc hfree hfuncs hintake hmay hout hregs_guard
        with_reducible refine State.enterStandby_only ?_ hregs_dev hspur
        with_reducible exact State.setEngine_only h hspur
      · with_reducible refine finish_only ?_ hevc hfree hfuncs hintake hmay hout hregs_guard
        refine ((State.setEngine_only ?_ hspur).spur hspur)
        exact h
    · rename_i why13 p14
      refine Result.all_ite ?_ ?_
      · with_reducible refine finish_only ?_ hevc hfree hfuncs hintake hmay hout hregs_guard
        with_reducible exact State.setEngine_only h hspur
      · with_reducible refine finish_only ?_ hevc hfree hfuncs hintake hmay hout hregs_guard
        with_reducible refine State.enterStandby_only ?_ hregs_dev hspur
        with_reducible exact State.setEngine_only h hspur
    · rename_i why15
      with_reducible refine finish_only ?_ hevc hfree hfuncs hintake hmay hout hregs_guard
      with_reducible refine State.endCmd_only ?_ hregs_dev hspur
      with_reducible refine State.enterStandby_only ?_ hregs_dev hspur
      with_reducible exact State.setEngine_only h hspur
    · rename_i why16
      with_reducible refine finish_only ?_ hevc hfree hfuncs hintake hmay hout hregs_guard
      with_reducible refine State.endCmd_only ?_ hregs_dev hspur
      with_reducible refine State.enterStandby_only ?_ hregs_dev hspur
      with_reducible exact State.setEngine_only h hspur
  · rename_i x17 x18 x19
    refine Result.all_next ?_
    exact h

theorem execEngineLoss_only {a1 a2}  (h : Only ps s0 s) (hevc : Part.evc ∈ ps) (hfree : Part.free ∈ ps) (hfuncs : Part.funcs ∈ ps) (hintake : Part.intake ∈ ps) (hkeys : Part.keys ∈ ps) (hmay : Part.may ∈ ps) (hout : Part.out ∈ ps) (hports : Part.ports ∈ ps) (hregs_dev : Part.regs .dev ∈ ps) (hregs_guard : Part.regs .guard ∈ ps) (hregs_port : Part.regs .port ∈ ps) (hspur : Part.spur ∈ ps) : Result.All (Only ps s0) (execEngineLoss a1 a2 s) := by
  unfold execEngineLoss
  split
  · rename_i x1 heq2
    refine Result.all_next ?_
    exact h
  · rename_i x3 heq4
    refine Result.all_next ?_
    exact h
  · rename_i x5 x6 x7
    refine Result.all_ite ?_ ?_
    · with_reducible refine finish_only ?_ hevc hfree hfuncs hintake hmay hout hregs_guard
      with_reducible exact State.engineLost_only h hintake hkeys hports hregs_dev hregs_port hspur
    · refine Result.all_next ?_
      exact h

theorem execEngineTestEnd_only {a1 a2}  (h : Only ps s0 s) (hevc : Part.evc ∈ ps) (hfree : Part.free ∈ ps) (hfuncs : Part.funcs ∈ ps) (hintake : Part.intake ∈ ps) (hmay : Part.may ∈ ps) (hout : Part.out ∈ ps) (hregs_dev : Part.regs .dev ∈ ps) (hregs_guard : Part.regs .guard ∈ ps) (hspur : Part.spur ∈ ps) : Result.All (Only ps s0) (execEngineTestEnd a1 a2 s) := by
  unfold execEngineTestEnd
  extract_lets x1
  refine Result.all_ite ?_ ?_
  · refine Result.all_next ?_
    exact h
  · refine Result.all_ite ?_ ?_
    · with_reducible refine finish_only ?_ hevc hfree hfuncs hintake hmay hout hregs_guard
      with_reducible exact State.startLoad_only h hspur
    · with_reducible refine finish_only ?_ hevc hfree hfuncs hintake hmay hout hregs_guard
      with_reducible refine State.endCmd_only ?_ hregs_dev hspur
      with_reducible exact State.faultEngine_only h hregs_dev hspur

theorem execEpEnable_only {a1 a2 a3}  (h : Only ps s0 s) (hcounts : Part.counts ∈ ps) (heths : Part.eths ∈ ps) (hevc : Part.evc ∈ ps) (hfree : Part.free ∈ ps) (hfuncs : Part.funcs ∈ ps) (hhalves : Part.halves ∈ ps) (hintake : Part.intake ∈ ps) (hmay : Part.may ∈ ps) (hout : Part.out ∈ ps) (hregs_ep : Part.regs .ep ∈ ps) (hregs_guard : Part.regs .guard ∈ ps) (hrings : Part.rings ∈ ps) (htrust : Part.trust ∈ ps) : Result.All (Only ps s0) (execEpEnable a1 a2 a3 s) := by
  unfold execEpEnable
  with_reducible exact State.epRequest_only h hcounts heths hevc hfree hfuncs hhalves hintake hmay hout hregs_ep hregs_guard hrings htrust

theorem execEpLinkLoss_only {a1}  (h : Only ps s0 s) (hcounts : Part.counts ∈ ps) (heths : Part.eths ∈ ps) (hevc : Part.evc ∈ ps) (hfree : Part.free ∈ ps) (hfuncs : Part.funcs ∈ ps) (hhalves : Part.halves ∈ ps) (hintake : Part.intake ∈ ps) (hmay : Part.may ∈ ps) (hout : Part.out ∈ ps) (hregs_ep : Part.regs .ep ∈ ps) (hregs_guard : Part.regs .guard ∈ ps) (hrings : Part.rings ∈ ps) : Result.All (Only ps s0) (execEpLinkLoss a1 s) := by
  unfold execEpLinkLoss
  refine Result.all_ite ?_ ?_
  · refine Result.all_next ?_
    exact h
  · extract_lets s1 s2 x3 s4 s5 x6
    have hs1 : Only ps s0 s1 := by
      refine State.raise_only ?_ hregs_ep
      with_reducible refine State.endPause_only ?_ hcounts heths hhalves
      with_reducible exact State.pauseSettle_only h hcounts heths hhalves
    clear_value s1
    have hs2 : Only ps s0 s2 := by
      with_reducible exact State.countEth_only hs1 hcounts hhalves
    clear_value s2
    have hs4 : Only ps s0 s4 := by
      with_reducible exact State.setEth_only hs2 heths
    clear_value s4
    have hs5 : Only ps s0 s5 := by
      with_reducible exact State.countEth_only hs4 hcounts hhalves
    clear_value s5
    with_reducible refine finish_only ?_ hevc hfree hfuncs hintake hmay hout hregs_guard
    split
    · rename_i b7 heq8
      exact hs4
    · rename_i b9 j10 heq11
      refine Only.ite ?_ ?_
      · with_reducible exact State.endEth_only hs5 hcounts hhalves hout hrings
      · refine Only.ite ?_ ?_
        · with_reducible exact State.endEth_only hs5 hcounts hhalves hout hrings
        · with_reducible exact State.setEth_only hs5 heths

theorem execEpLinkUp_only {a1 a2}  (h : Only ps s0 s) (heths : Part.eths ∈ ps) (hevc : Part.evc ∈ ps) (hfree : Part.free ∈ ps) (hfuncs : Part.funcs ∈ ps) (hintake : Part.intake ∈ ps) (hmay : Part.may ∈ ps) (hout : Part.out ∈ ps) (hregs_ep : Part.regs .ep ∈ ps) (hregs_guard : Part.regs .guard ∈ ps) : Result.All (Only ps s0) (execEpLinkUp a1 a2 s) := by
  unfold execEpLinkUp
  extract_lets x1 lp2
  refine Result.all_ite ?_ ?_
  · refine Result.all_next ?_
    exact h
  · refine Result.all_ite ?_ ?_
    · refine Result.all_ite ?_ ?_
      · with_reducible refine finish_only ?_ hevc hfree hfuncs hintake hmay hout hregs_guard
        with_reducible refine State.ethKick_only ?_ heths
        refine State.raise_only ?_ hregs_ep
        with_reducible exact State.setEth_only h heths
      · with_reducible refine finish_only ?_ hevc hfree hfuncs hintake hmay hout hregs_guard
        refine State.raise_only ?_ hregs_ep
        with_reducible exact State.setEth_only h heths
    · with_reducible refine finish_only ?_ hevc hfree hfuncs hintake hmay hout hregs_guard
      with_reducible refine State.ethKick_only ?_ heths
      refine State.raise_only ?_ hregs_ep
      with_reducible exact State.setEth_only h heths

theorem execEpochPass_only  (h : Only ps s0 s) (hcounts : Part.counts ∈ ps) (hevc : Part.evc ∈ ps) (hfree : Part.free ∈ ps) (hfuncs : Part.funcs ∈ ps) (hhalves : Part.halves ∈ ps) (hintake : Part.intake ∈ ps) (hmay : Part.may ∈ ps) (hobjs : Part.objs ∈ ps) (hout : Part.out ∈ ps) (hports : Part.ports ∈ ps) (hregs_fn : Part.regs .fn ∈ ps) (hregs_guard : Part.regs .guard ∈ ps) (hrings : Part.rings ∈ ps) (htmu : Part.tmu ∈ ps) : Result.All (Only ps s0) (execEpochPass s) := by
  unfold execEpochPass
  refine Result.all_ite ?_ ?_
  · refine Result.all_next ?_
    exact h
  · extract_lets t1 s2 x3
    have hs2 : Only ps s0 s2 := by
      refine Only.ite ?_ ?_
      · with_reducible exact State.advance_only h hcounts hfree hfuncs hhalves hobjs hout hports hregs_fn hrings htmu
      · exact h
    clear_value s2
    with_reducible refine finish_only ?_ hevc hfree hfuncs hintake hmay hout hregs_guard
    with_reducible refine State.epochEntries_only ?_ hcounts hfree hfuncs hhalves hout hregs_fn
    with_reducible exact State.setTmu_only hs2 htmu

theorem execErrorDetected_only {a1 a2}  (h : Only ps s0 s) (hcounts : Part.counts ∈ ps) (heths : Part.eths ∈ ps) (hevc : Part.evc ∈ ps) (hfree : Part.free ∈ ps) (hfuncs : Part.funcs ∈ ps) (hgroups : Part.groups ∈ ps) (hhalves : Part.halves ∈ ps) (hintake : Part.intake ∈ ps) (hkeys : Part.keys ∈ ps) (hmay : Part.may ∈ ps) (hobjs : Part.objs ∈ ps) (hout : Part.out ∈ ps) (hports : Part.ports ∈ ps) (hregs_fn : Part.regs .fn ∈ ps) (hregs_grp : Part.regs .grp ∈ ps) (hregs_guard : Part.regs .guard ∈ ps) (hregs_port : Part.regs .port ∈ ps) (hrings : Part.rings ∈ ps) (hrxq : Part.rxq ∈ ps) : Result.All (Only ps s0) (execErrorDetected a1 a2 s) := by
  unfold execErrorDetected
  refine Result.all_ite ?_ ?_
  · exact trivial
  · refine Result.all_ite ?_ ?_
    · refine Result.all_next ?_
      exact h
    · refine Result.all_ite ?_ ?_
      · with_reducible refine finish_only ?_ hevc hfree hfuncs hintake hmay hout hregs_guard
        with_reducible exact State.errorOp_only h hcounts heths hfree hfuncs hgroups hhalves hintake hkeys hobjs hout hports hregs_fn hregs_grp hregs_port hrings hrxq
      · split
        · rename_i x1 k2 heq3
          refine Result.all_ite ?_ ?_
          · refine Result.all_next ?_
            exact h
          · with_reducible refine finish_only ?_ hevc hfree hfuncs hintake hmay hout hregs_guard
            with_reducible exact State.refError_only h hgroups
        · rename_i x4 heq5
          refine Result.all_next ?_
          exact h

theorem execEthFrameReceived_only {a1 a2 a3 a4 a5}  (h : Only ps s0 s) (hcounts : Part.counts ∈ ps) (heths : Part.eths ∈ ps) (hevc : Part.evc ∈ ps) (hfree : Part.free ∈ ps) (hfuncs : Part.funcs ∈ ps) (hhalves : Part.halves ∈ ps) (hintake : Part.intake ∈ ps) (hmay : Part.may ∈ ps) (hobjs : Part.objs ∈ ps) (hout : Part.out ∈ ps) (hports : Part.ports ∈ ps) (hptp : Part.ptp ∈ ps) (hregs_fn : Part.regs .fn ∈ ps) (hregs_guard : Part.regs .guard ∈ ps) (hrings : Part.rings ∈ ps) (htmu : Part.tmu ∈ ps) : Result.All (Only ps s0) (execEthFrameReceived a1 a2 a3 a4 a5 s) := by
  unfold execEthFrameReceived
  extract_lets x1 open2 s3 s4
  have hs3 : Only ps s0 s3 := by
    with_reducible exact State.advance_only h hcounts hfree hfuncs hhalves hobjs hout hports hregs_fn hrings htmu
  clear_value s3
  have hs4 : Only ps s0 s4 := by
    with_reducible refine State.ethKick_only ?_ heths
    with_reducible exact State.pauseSettle_only hs3 hcounts heths hhalves
  clear_value s4
  refine Result.all_ite ?_ ?_
  · refine Result.all_next ?_
    exact h
  · with_reducible refine finish_only ?_ hevc hfree hfuncs hintake hmay hout hregs_guard
    refine Only.ite ?_ ?_
    · with_reducible exact State.countEth_only hs4 hcounts hhalves
    · with_reducible exact State.ethFrame_only hs4 hcounts heths hfree hhalves hout hports hptp hrings htmu

theorem execEthTx_only {a1 a2 a3 a4}  (h : Only ps s0 s) (hcounts : Part.counts ∈ ps) (heths : Part.eths ∈ ps) (hevc : Part.evc ∈ ps) (hfree : Part.free ∈ ps) (hfuncs : Part.funcs ∈ ps) (hhalves : Part.halves ∈ ps) (hintake : Part.intake ∈ ps) (hmay : Part.may ∈ ps) (hout : Part.out ∈ ps) (hregs_guard : Part.regs .guard ∈ ps) (hrings : Part.rings ∈ ps) : Result.All (Only ps s0) (execEthTx a1 a2 a3 a4 s) := by
  unfold execEthTx
  extract_lets cfg1 k2 x3
  refine Result.all_ite ?_ ?_
  · refine Result.all_ite ?_ ?_
    · exact trivial
    · with_reducible refine finish_only ?_ hevc hfree hfuncs hintake hmay hout hregs_guard
      with_reducible refine State.command_only ?_ ?_ hcounts hhalves hout hrings
      · with_reducible exact State.setEth_only h heths
      · intro s4 x5 k6
        with_reducible exact State.ethTxOp_only k6 hcounts heths hhalves hout hrings
  · refine Result.all_next ?_
    exact h

theorem execEthTxEnd_only {a1 a2}  (h : Only ps s0 s) (hcounts : Part.counts ∈ ps) (heths : Part.eths ∈ ps) (hevc : Part.evc ∈ ps) (hfree : Part.free ∈ ps) (hfuncs : Part.funcs ∈ ps) (hhalves : Part.halves ∈ ps) (hintake : Part.intake ∈ ps) (hmay : Part.may ∈ ps) (hobjs : Part.objs ∈ ps) (hout : Part.out ∈ ps) (hports : Part.ports ∈ ps) (hptp : Part.ptp ∈ ps) (hregs_fn : Part.regs .fn ∈ ps) (hregs_guard : Part.regs .guard ∈ ps) (hrings : Part.rings ∈ ps) (htmu : Part.tmu ∈ ps) : Result.All (Only ps s0) (execEthTxEnd a1 a2 s) := by
  unfold execEthTxEnd
  extract_lets x1 s2
  have hs2 : Only ps s0 s2 := by
    with_reducible exact State.setEth_only h heths
  clear_value s2
  dsimp only
  split
  · rename_i b3 heq4
    refine Result.all_next ?_
    exact h
  · rename_i b5 j6 heq7
    with_reducible refine finish_only ?_ hevc hfree hfuncs hintake hmay hout hregs_guard
    with_reducible refine State.ethKick_only ?_ heths
    with_reducible refine State.pauseSettle_only ?_ hcounts heths hhalves
    with_reducible refine State.advance_only ?_ hcounts hfree hfuncs hhalves hobjs hout hports hregs_fn hrings htmu
    with_reducible exact State.ethSent_only hs2 hcounts hfree hfuncs hhalves hout hptp hregs_fn hrings

theorem execEvcClaim_only {a1 a2}  (h : Only ps s0 s) (hevc : Part.evc ∈ ps) (hfree : Part.free ∈ ps) (hfuncs : Part.funcs ∈ ps) (hintake : Part.intake ∈ ps) (hmay : Part.may ∈ ps) (hout : Part.out ∈ ps) (hregs_guard : Part.regs .guard ∈ ps) : Result.All (Only ps s0) (execEvcClaim a1 a2 s) := by
  unfold execEvcClaim
  refine Result.all_ite ?_ ?_
  · refine Result.all_next ?_
    exact h
  · dsimp only
    split
    · rename_i best1 heq2
      refine Result.all_next ?_
      exact h
    · rename_i best3 b4 heq5
      with_reducible refine finish_only ?_ hevc hfree hfuncs hintake hmay hout hregs_guard
      with_reducible refine State.stormCount_only ?_ hevc hintake hregs_guard
      refine (h.evc hevc)

theorem execEvtInEdge_only {a1 a2 a3 a4}  (h : Only ps s0 s) (hcounts : Part.counts ∈ ps) (hevc : Part.evc ∈ ps) (hfree : Part.free ∈ ps) (hfuncs : Part.funcs ∈ ps) (hhalves : Part.halves ∈ ps) (hintake : Part.intake ∈ ps) (hmay : Part.may ∈ ps) (hobjs : Part.objs ∈ ps) (hout : Part.out ∈ ps) (hports : Part.ports ∈ ps) (hregs_fn : Part.regs .fn ∈ ps) (hregs_guard : Part.regs .guard ∈ ps) (hrings : Part.rings ∈ ps) (htmu : Part.tmu ∈ ps) : Result.All (Only ps s0) (execEvtInEdge a1 a2 a3 a4 s) := by
  unfold execEvtInEdge
  extract_lets c1
  refine Result.all_ite ?_ ?_
  · with_reducible refine finish_only ?_ hevc hfree hfuncs hintake hmay hout hregs_guard
    with_reducible refine State.captureEdge_only ?_ htmu
    with_reducible exact State.advance_only h hcounts hfree hfuncs hhalves hobjs hout hports hregs_fn hrings htmu
  · refine Result.all_next ?_
    exact h

theorem execEvtoutEnable_only {a1 a2 a3}  (h : Only ps s0 s) (hevc : Part.evc ∈ ps) (hfree : Part.free ∈ ps) (hfuncs : Part.funcs ∈ ps) (hintake : Part.intake ∈ ps) (hmay : Part.may ∈ ps) (hout : Part.out ∈ ps) (hregs_guard : Part.regs .guard ∈ ps) (hregs_out : Part.regs .out ∈ ps) (htmu : Part.tmu ∈ ps) : Result.All (Only ps s0) (execEvtoutEnable a1 a2 a3 s) := by
  unfold execEvtoutEnable
  with_reducible refine State.ownedWrite_only ?_ ?_ hevc hfree hfuncs hintake hmay hout hregs_guard
  · exact h
  · intro s1 k2
    with_reducible exact State.writeOut_only k2 hintake hregs_out htmu

theorem execFabEnable_only {a1 a2}  (h : Only ps s0 s) (hevc : Part.evc ∈ ps) (hfab : Part.fab ∈ ps) (hfree : Part.free ∈ ps) (hfuncs : Part.funcs ∈ ps) (hintake : Part.intake ∈ ps) (hlinks : Part.links ∈ ps) (hmay : Part.may ∈ ps) (hout : Part.out ∈ ps) (hregs_fab : Part.regs .fab ∈ ps) (hregs_guard : Part.regs .guard ∈ ps) (hregs_tmu : Part.regs .tmu ∈ ps) : Result.All (Only ps s0) (execFabEnable a1 a2 s) := by
  unfold execFabEnable
  with_reducible refine State.ownedWrite_only ?_ ?_ hevc hfree hfuncs hintake hmay hout hregs_guard
  · exact h
  · intro s1 k2
    with_reducible exact State.writeFabCfg_only k2 hfab hintake hlinks hregs_fab hregs_tmu

theorem execFabTimeWrite_only {a1 a2}  (h : Only ps s0 s) (hevc : Part.evc ∈ ps) (hfab : Part.fab ∈ ps) (hfree : Part.free ∈ ps) (hfuncs : Part.funcs ∈ ps) (hintake : Part.intake ∈ ps) (hmay : Part.may ∈ ps) (hout : Part.out ∈ ps) (hregs_fab : Part.regs .fab ∈ ps) (hregs_guard : Part.regs .guard ∈ ps) (hregs_tmu : Part.regs .tmu ∈ ps) : Result.All (Only ps s0) (execFabTimeWrite a1 a2 s) := by
  unfold execFabTimeWrite
  with_reducible refine State.ownedWrite_only ?_ ?_ hevc hfree hfuncs hintake hmay hout hregs_guard
  · exact h
  · intro s1 k2
    with_reducible exact State.writeFabTime_only k2 hfab hintake hregs_fab hregs_tmu

theorem execFabTopoRead_only {a1 a2 a3}  (h : Only ps s0 s) (hcounts : Part.counts ∈ ps) (hevc : Part.evc ∈ ps) (hfree : Part.free ∈ ps) (hfuncs : Part.funcs ∈ ps) (hhalves : Part.halves ∈ ps) (hintake : Part.intake ∈ ps) (hmay : Part.may ∈ ps) (hout : Part.out ∈ ps) (hregs_guard : Part.regs .guard ∈ ps) (hrings : Part.rings ∈ ps) : Result.All (Only ps s0) (execFabTopoRead a1 a2 a3 s) := by
  unfold execFabTopoRead
  refine Result.all_ite ?_ ?_
  · with_reducible refine finish_only ?_ hevc hfree hfuncs hintake hmay hout hregs_guard
    with_reducible refine State.command_only ?_ ?_ hcounts hhalves hout hrings
    · exact h
    · intro s1 x2 k3
      with_reducible exact State.topoReadOp_only k3 hcounts hhalves hout hrings
  · refine Result.all_next ?_
    exact h

theorem execFilterEval_only {a1}  (h : Only ps s0 s) (hcounts : Part.counts ∈ ps) (heths : Part.eths ∈ ps) (hevc : Part.evc ∈ ps) (hfab : Part.fab ∈ ps) (hfree : Part.free ∈ ps) (hfuncs : Part.funcs ∈ ps) (hhalves : Part.halves ∈ ps) (hintake : Part.intake ∈ ps) (hkeys : Part.keys ∈ ps) (hlinks : Part.links ∈ ps) (hmay : Part.may ∈ ps) (hobjs : Part.objs ∈ ps) (hout : Part.out ∈ ps) (hports : Part.ports ∈ ps) (hregs_fn : Part.regs .fn ∈ ps) (hregs_guard : Part.regs .guard ∈ ps) (hrings : Part.rings ∈ ps) (hroutes : Part.routes ∈ ps) (hrxq : Part.rxq ∈ ps) (hspur : Part.spur ∈ ps) (htarn : Part.tarn ∈ ps) : Result.All (Only ps s0) (execFilterEval a1 s) := by
  unfold execFilterEval
  split
  · rename_i x1 heq2
    refine Result.all_next ?_
    exact h
  · rename_i x3 e4 heq5
    with_reducible refine finish_only ?_ hevc hfree hfuncs hintake hmay hout hregs_guard
    with_reducible refine State.evaluate_only ?_ hcounts heths hfab hfuncs hhalves hintake hkeys hlinks hobjs hout hports hregs_fn hrings hroutes hspur htarn
    refine (h.rxq hrxq)

theorem execFlr_only {a1}  (h : Only ps s0 s) (hcairn : Part.cairn ∈ ps) (hcounts : Part.counts ∈ ps) (heths : Part.eths ∈ ps) (hevc : Part.evc ∈ ps) (hfab : Part.fab ∈ ps) (hfree : Part.free ∈ ps) (hfuncs : Part.funcs ∈ ps) (hgroups : Part.groups ∈ ps) (hhalves : Part.halves ∈ ps) (hintake : Part.intake ∈ ps) (hkeys : Part.keys ∈ ps) (hlinks : Part.links ∈ ps) (hmay : Part.may ∈ ps) (hobjs : Part.objs ∈ ps) (hout : Part.out ∈ ps) (hports : Part.ports ∈ ps) (hregs_fab : Part.regs .fab ∈ ps) (hregs_fn : Part.regs .fn ∈ ps) (hregs_grp : Part.regs .grp ∈ ps) (hregs_guard : Part.regs .guard ∈ ps) (hregs_port : Part.regs .port ∈ ps) (hregs_tmu : Part.regs .tmu ∈ ps) (hrings : Part.rings ∈ ps) (hspur : Part.spur ∈ ps) (htarn : Part.tarn ∈ ps) (htrust : Part.trust ∈ ps) : Result.All (Only ps s0) (execFlr a1 s) := by
  unfold execFlr
  refine Result.all_ite ?_ ?_
  · refine Result.all_next ?_
    exact h
  · with_reducible refine finish_only ?_ hevc hfree hfuncs hintake hmay hout hregs_guard
    with_reducible exact State.flrStart_only h hcairn hcounts heths hfab hfuncs hgroups hhalves hkeys hlinks hobjs hout hports hregs_fab hregs_fn hregs_grp hregs_port hregs_tmu hrings hspur htarn htrust

theorem execFlrComplete_only {a1}  (h : Only ps s0 s) (heths : Part.eths ∈ ps) (hevc : Part.evc ∈ ps) (hfree : Part.free ∈ ps) (hfuncs : Part.funcs ∈ ps) (hintake : Part.intake ∈ ps) (hmay : Part.may ∈ ps) (hout : Part.out ∈ ps) (hports : Part.ports ∈ ps) (hregs_fn : Part.regs .fn ∈ ps) (hregs_guard : Part.regs .guard ∈ ps) (hregs_ring : Part.regs .ring ∈ ps) (hrings : Part.rings ∈ ps) : Result.All (Only ps s0) (execFlrComplete a1 s) := by
  unfold execFlrComplete
  split
  · rename_i x1 heq2
    refine Result.all_next ?_
    exact h
  · rename_i x3 n4 heq5
    refine Result.all_ite ?_ ?_
    · refine Result.all_next ?_
      exact h
    · with_reducible refine finish_only ?_ hevc hfree hfuncs hintake hmay hout hregs_guard
      with_reducible exact State.flrEnd_only h heths hfuncs hintake hports hregs_fn hregs_ring hrings

theorem execFltRead_only {a1}  (h : Only ps s0 s) (hevc : Part.evc ∈ ps) (hflt : Part.flt ∈ ps) (hfree : Part.free ∈ ps) (hfuncs : Part.funcs ∈ ps) (hintake : Part.intake ∈ ps) (hmay : Part.may ∈ ps) (hout : Part.out ∈ ps) (hregs_fn : Part.regs .fn ∈ ps) (hregs_guard : Part.regs .guard ∈ ps) : Result.All (Only ps s0) (execFltRead a1 s) := by
  unfold execFltRead
  with_reducible refine State.ownFn_only ?_ ?_ hevc hfree hfuncs hintake hmay hout hregs_guard
  · exact h
  · intro s1 k2
    with_reducible exact State.writeFltCmd_only k2 hflt hfuncs hintake hregs_fn

theorem execFltWrite_only {a1}  (h : Only ps s0 s) (hevc : Part.evc ∈ ps) (hflt : Part.flt ∈ ps) (hfree : Part.free ∈ ps) (hfuncs : Part.funcs ∈ ps) (hintake : Part.intake ∈ ps) (hmay : Part.may ∈ ps) (hout : Part.out ∈ ps) (hregs_fn : Part.regs .fn ∈ ps) (hregs_guard : Part.regs .guard ∈ ps) : Result.All (Only ps s0) (execFltWrite a1 s) := by
  unfold execFltWrite
  with_reducible refine State.ownFn_only ?_ ?_ hevc hfree hfuncs hintake hmay hout hregs_guard
  · exact h
  · intro s1 k2
    with_reducible exact State.writeFltCmd_only k2 hflt hfuncs hintake hregs_fn

theorem execFrameReceived_only {a1 a2 a3 a4}  (h : Only ps s0 s) (hcounts : Part.counts ∈ ps) (heths : Part.eths ∈ ps) (hevc : Part.evc ∈ ps) (hfree : Part.free ∈ ps) (hfuncs : Part.funcs ∈ ps) (hgroups : Part.groups ∈ ps) (hhalves : Part.halves ∈ ps) (hintake : Part.intake ∈ ps) (hmay : Part.may ∈ ps) (hobjs : Part.objs ∈ ps) (hout : Part.out ∈ ps) (hports : Part.ports ∈ ps) (hregs_fn : Part.regs .fn ∈ ps) (hregs_grp : Part.regs .grp ∈ ps) (hregs_guard : Part.regs .guard ∈ ps) (hregs_port : Part.regs .port ∈ ps) (hrings : Part.rings ∈ ps) (hrxq : Part.rxq ∈ ps) (htmu : Part.tmu ∈ ps) : Result.All (Only ps s0) (execFrameReceived a1 a2 a3 a4 s) := by
  unfold execFrameReceived
  refine Result.all_ite ?_ ?_
  · exact trivial
  · dsimp only
    split
    · rename_i x1 k2 heq3
      refine Result.all_ite ?_ ?_
      · refine Result.all_next ?_
        exact h
      · refine Result.all_ite ?_ ?_
        · with_reducible refine finish_only ?_ hevc hfree hfuncs hintake hmay hout hregs_guard
          with_reducible exact State.receiveOp_only h hcounts heths hfree hfuncs hgroups hhalves hobjs hout hports hregs_fn hregs_grp hregs_port hrings hrxq htmu
        · refine Result.all_ite ?_ ?_
          · with_reducible refine finish_only ?_ hevc hfree hfuncs hintake hmay hout hregs_guard
            with_reducible exact State.groupHears_only h hcounts hfree hfuncs hgroups hhalves hobjs hout hports hregs_fn hregs_grp hregs_port hrings htmu
          · refine Result.all_next ?_
            exact h
    · rename_i x4 heq5
      refine Result.all_ite ?_ ?_
      · with_reducible refine finish_only ?_ hevc hfree hfuncs hintake hmay hout hregs_guard
        with_reducible exact State.receiveOp_only h hcounts heths hfree hfuncs hgroups hhalves hobjs hout hports hregs_fn hregs_grp hregs_port hrings hrxq htmu
      · refine Result.all_next ?_
        exact h

theorem execGetAttest_only {a1 a2}  (h : Only ps s0 s) (hevc : Part.evc ∈ ps) (hfree : Part.free ∈ ps) (hfuncs : Part.funcs ∈ ps) (hintake : Part.intake ∈ ps) (hmay : Part.may ∈ ps) (hout : Part.out ∈ ps) (hregs_guard : Part.regs .guard ∈ ps) : Result.All (Only ps s0) (execGetAttest a1 a2 s) := by
  unfold execGetAttest
  with_reducible refine State.request_only ?_ ?_ hevc hfree hfuncs hintake hmay hout hregs_guard
  · exact h
  · intro s1 k2
    with_reducible refine State.respond_only ?_ hout
    with_reducible exact State.attestRecord_only k2 hintake

theorem execGetEndpointId_only  (h : Only ps s0 s) (hevc : Part.evc ∈ ps) (hfree : Part.free ∈ ps) (hfuncs : Part.funcs ∈ ps) (hintake : Part.intake ∈ ps) (hmay : Part.may ∈ ps) (hout : Part.out ∈ ps) (hregs_guard : Part.regs .guard ∈ ps) : Result.All (Only ps s0) (execGetEndpointId s) := by
  unfold execGetEndpointId
  with_reducible refine State.whileUp_only ?_ ?_ hevc hfree hfuncs hintake hmay hout hregs_guard
  · exact h
  · intro s1 k2
    with_reducible exact State.control_only k2 hout

theorem execGetEndpointUuid_only  (h : Only ps s0 s) (hevc : Part.evc ∈ ps) (hfree : Part.free ∈ ps) (hfuncs : Part.funcs ∈ ps) (hintake : Part.intake ∈ ps) (hmay : Part.may ∈ ps) (hout : Part.out ∈ ps) (hregs_guard : Part.regs .guard ∈ ps) : Result.All (Only ps s0) (execGetEndpointUuid s) := by
  unfold execGetEndpointUuid
  with_reducible refine State.whileUp_only ?_ ?_ hevc hfree hfuncs hintake hmay hout hregs_guard
  · exact h
  · intro s1 k2
    with_reducible exact State.control_only k2 hout

theorem execGetLog_only {a1 a2}  (h : Only ps s0 s) (hevc : Part.evc ∈ ps) (hfree : Part.free ∈ ps) (hfuncs : Part.funcs ∈ ps) (hintake : Part.intake ∈ ps) (hmay : Part.may ∈ ps) (hout : Part.out ∈ ps) (hregs_guard : Part.regs .guard ∈ ps) : Result.All (Only ps s0) (execGetLog a1 a2 s) := by
  unfold execGetLog
  extract_lets n1
  with_reducible refine State.request_only ?_ ?_ hevc hfree hfuncs hintake hmay hout hregs_guard
  · exact h
  · intro s2 k3
    dsimp only
    with_reducible exact State.respond_only k3 hout

theorem execGetMctpVersionSupport_only {a1}  (h : Only ps s0 s) (hevc : Part.evc ∈ ps) (hfree : Part.free ∈ ps) (hfuncs : Part.funcs ∈ ps) (hintake : Part.intake ∈ ps) (hmay : Part.may ∈ ps) (hout : Part.out ∈ ps) (hregs_guard : Part.regs .guard ∈ ps) : Result.All (Only ps s0) (execGetMctpVersionSupport a1 s) := by
  unfold execGetMctpVersionSupport
  with_reducible refine State.whileUp_only ?_ ?_ hevc hfree hfuncs hintake hmay hout hregs_guard
  · exact h
  · intro s1 k2
    refine Only.ite ?_ ?_
    · with_reducible exact State.control_only k2 hout
    · with_reducible exact State.control_only k2 hout

theorem execGetMessageTypeSupport_only  (h : Only ps s0 s) (hevc : Part.evc ∈ ps) (hfree : Part.free ∈ ps) (hfuncs : Part.funcs ∈ ps) (hintake : Part.intake ∈ ps) (hmay : Part.may ∈ ps) (hout : Part.out ∈ ps) (hregs_guard : Part.regs .guard ∈ ps) : Result.All (Only ps s0) (execGetMessageTypeSupport s) := by
  unfold execGetMessageTypeSupport
  with_reducible refine State.whileUp_only ?_ ?_ hevc hfree hfuncs hintake hmay hout hregs_guard
  · exact h
  · intro s1 k2
    with_reducible exact State.control_only k2 hout

theorem execGetSensors_only {a1 a2}  (h : Only ps s0 s) (hevc : Part.evc ∈ ps) (hfree : Part.free ∈ ps) (hfuncs : Part.funcs ∈ ps) (hintake : Part.intake ∈ ps) (hmay : Part.may ∈ ps) (hout : Part.out ∈ ps) (hregs_guard : Part.regs .guard ∈ ps) : Result.All (Only ps s0) (execGetSensors a1 a2 s) := by
  unfold execGetSensors
  with_reducible refine State.request_only ?_ ?_ hevc hfree hfuncs hintake hmay hout hregs_guard
  · exact h
  · intro s1 k2
    with_reducible exact State.respond_only k2 hout

theorem execGetStatus_only {a1 a2}  (h : Only ps s0 s) (hevc : Part.evc ∈ ps) (hfree : Part.free ∈ ps) (hfuncs : Part.funcs ∈ ps) (hintake : Part.intake ∈ ps) (hmay : Part.may ∈ ps) (hout : Part.out ∈ ps) (hregs_guard : Part.regs .guard ∈ ps) : Result.All (Only ps s0) (execGetStatus a1 a2 s) := by
  unfold execGetStatus
  with_reducible refine State.request_only ?_ ?_ hevc hfree hfuncs hintake hmay hout hregs_guard
  · exact h
  · intro s1 k2
    with_reducible exact State.respond_only k2 hout

theorem execGetVendorDefinedMsgSupport_only {a1}  (h : Only ps s0 s) (hevc : Part.evc ∈ ps) (hfree : Part.free ∈ ps) (hfuncs : Part.funcs ∈ ps) (hintake : Part.intake ∈ ps) (hmay : Part.may ∈ ps) (hout : Part.out ∈ ps) (hregs_guard : Part.regs .guard ∈ ps) : Result.All (Only ps s0) (execGetVendorDefinedMsgSupport a1 s) := by
  unfold execGetVendorDefinedMsgSupport
  with_reducible refine State.whileUp_only ?_ ?_ hevc hfree hfuncs hintake hmay hout hregs_guard
  · exact h
  · intro s1 k2
    refine Only.ite ?_ ?_
    · with_reducible exact State.control_only k2 hout
    · with_reducible exact State.control_only k2 hout

theorem execGovFallback_only  (h : Only ps s0 s) (hcairn : Part.cairn ∈ ps) (hcounts : Part.counts ∈ ps) (hevc : Part.evc ∈ ps) (hfree : Part.free ∈ ps) (hfuncs : Part.funcs ∈ ps) (hhalves : Part.halves ∈ ps) (hintake : Part.intake ∈ ps) (hmay : Part.may ∈ ps) (hobjs : Part.objs ∈ ps) (hout : Part.out ∈ ps) (hports : Part.ports ∈ ps) (hregs_fn : Part.regs .fn ∈ ps) (hregs_guard : Part.regs .guard ∈ ps) (hrings : Part.rings ∈ ps) (htmu : Part.tmu ∈ ps) : Result.All (Only ps s0) (execGovFallback s) := by
  unfold execGovFallback
  dsimp only
  split
  · rename_i x1 x2 t3 heq4 heq5
    with_reducible refine finish_only ?_ hevc hfree hfuncs hintake hmay hout hregs_guard
    with_reducible refine State.crnEvent_only ?_ hcairn hregs_fn
    with_reducible refine State.record_only ?_ hintake
    with_reducible refine State.modeGoes_only ?_ hcairn hintake
    with_reducible exact State.advance_only h hcounts hfree hfuncs hhalves hobjs hout hports hregs_fn hrings htmu
  · rename_i x6 x7 x8
    refine Result.all_next ?_
    exact h

theorem execGovReturn_only  (h : Only ps s0 s) (hcairn : Part.cairn ∈ ps) (hcounts : Part.counts ∈ ps) (hevc : Part.evc ∈ ps) (hfree : Part.free ∈ ps) (hfuncs : Part.funcs ∈ ps) (hhalves : Part.halves ∈ ps) (hintake : Part.intake ∈ ps) (hmay : Part.may ∈ ps) (hobjs : Part.objs ∈ ps) (hout : Part.out ∈ ps) (hports : Part.ports ∈ ps) (hregs_fn : Part.regs .fn ∈ ps) (hregs_guard : Part.regs .guard ∈ ps) (hrings : Part.rings ∈ ps) (htmu : Part.tmu ∈ ps) : Result.All (Only ps s0) (execGovReturn s) := by
  unfold execGovReturn
  dsimp only
  split
  · rename_i x1 x2 t3 heq4 heq5
    refine Result.all_ite ?_ ?_
    · refine Result.all_next ?_
      exact h
    · with_reducible refine finish_only ?_ hevc hfree hfuncs hintake hmay hout hregs_guard
      with_reducible refine State.crnEvent_only ?_ hcairn hregs_fn
      with_reducible refine State.raiseTo_only ?_ hcairn hintake
      with_reducible exact State.advance_only h hcounts hfree hfuncs hhalves hobjs hout hports hregs_fn hrings htmu
  · rename_i x6 x7 x8
    refine Result.all_next ?_
    exact h

theorem execGovWrite_only {a1 a2 a3}  (h : Only ps s0 s) (hevc : Part.evc ∈ ps) (hfree : Part.free ∈ ps) (hfuncs : Part.funcs ∈ ps) (hintake : Part.intake ∈ ps) (hmay : Part.may ∈ ps) (hout : Part.out ∈ ps) (hregs_cairn : Part.regs .cairn ∈ ps) (hregs_guard : Part.regs .guard ∈ ps) : Result.All (Only ps s0) (execGovWrite a1 a2 a3 s) := by
  unfold execGovWrite
  with_reducible refine State.ownedWrite_only ?_ ?_ hevc hfree hfuncs hintake hmay hout hregs_guard
  · exact h
  · intro s1 k2
    with_reducible exact State.writeGov_only k2 hintake hregs_cairn

theorem execGroupRejoin_only {a1 a2 a3}  (h : Only ps s0 s) (hevc : Part.evc ∈ ps) (hfree : Part.free ∈ ps) (hfuncs : Part.funcs ∈ ps) (hgroups : Part.groups ∈ ps) (hintake : Part.intake ∈ ps) (hmay : Part.may ∈ ps) (hout : Part.out ∈ ps) (hports : Part.ports ∈ ps) (hregs_grp : Part.regs .grp ∈ ps) (hregs_guard : Part.regs .guard ∈ ps) (hregs_port : Part.regs .port ∈ ps) (htrust : Part.trust ∈ ps) : Result.All (Only ps s0) (execGroupRejoin a1 a2 a3 s) := by
  unfold execGroupRejoin
  with_reducible exact State.writeGroupCmd_only h hevc hfree hfuncs hgroups hintake hmay hout hports hregs_grp hregs_guard hregs_port htrust

theorem execGroupRestart_only {a1 a2}  (h : Only ps s0 s) (hevc : Part.evc ∈ ps) (hfree : Part.free ∈ ps) (hfuncs : Part.funcs ∈ ps) (hgroups : Part.groups ∈ ps) (hintake : Part.intake ∈ ps) (hmay : Part.may ∈ ps) (hout : Part.out ∈ ps) (hports : Part.ports ∈ ps) (hregs_grp : Part.regs .grp ∈ ps) (hregs_guard : Part.regs .guard ∈ ps) (hregs_port : Part.regs .port ∈ ps) (htrust : Part.trust ∈ ps) : Result.All (Only ps s0) (execGroupRestart a1 a2 s) := by
  unfold execGroupRestart
  with_reducible exact State.writeGroupCmd_only h hevc hfree hfuncs hgroups hintake hmay hout hports hregs_grp hregs_guard hregs_port htrust

theorem execGroupStart_only {a1 a2}  (h : Only ps s0 s) (hevc : Part.evc ∈ ps) (hfree : Part.free ∈ ps) (hfuncs : Part.funcs ∈ ps) (hgroups : Part.groups ∈ ps) (hintake : Part.intake ∈ ps) (hmay : Part.may ∈ ps) (hout : Part.out ∈ ps) (hports : Part.ports ∈ ps) (hregs_grp : Part.regs .grp ∈ ps) (hregs_guard : Part.regs .guard ∈ ps) (hregs_port : Part.regs .port ∈ ps) (htrust : Part.trust ∈ ps) : Result.All (Only ps s0) (execGroupStart a1 a2 s) := by
  unfold execGroupStart
  with_reducible exact State.writeGroupCmd_only h hevc hfree hfuncs hgroups hintake hmay hout hports hregs_grp hregs_guard hregs_port htrust

theorem execGroupStop_only {a1 a2}  (h : Only ps s0 s) (hevc : Part.evc ∈ ps) (hfree : Part.free ∈ ps) (hfuncs : Part.funcs ∈ ps) (hgroups : Part.groups ∈ ps) (hintake : Part.intake ∈ ps) (hmay : Part.may ∈ ps) (hout : Part.out ∈ ps) (hports : Part.ports ∈ ps) (hregs_grp : Part.regs .grp ∈ ps) (hregs_guard : Part.regs .guard ∈ ps) (hregs_port : Part.regs .port ∈ ps) (htrust : Part.trust ∈ ps) : Result.All (Only ps s0) (execGroupStop a1 a2 s) := by
  unfold execGroupStop
  with_reducible exact State.writeGroupCmd_only h hevc hfree hfuncs hgroups hintake hmay hout hports hregs_grp hregs_guard hregs_port htrust

theorem execGroupStopEffect_only {a1}  (h : Only ps s0 s) (hcounts : Part.counts ∈ ps) (hevc : Part.evc ∈ ps) (hfree : Part.free ∈ ps) (hfuncs : Part.funcs ∈ ps) (hgroups : Part.groups ∈ ps) (hhalves : Part.halves ∈ ps) (hintake : Part.intake ∈ ps) (hmay : Part.may ∈ ps) (hout : Part.out ∈ ps) (hpairs : Part.pairs ∈ ps) (hports : Part.ports ∈ ps) (hregs_grp : Part.regs .grp ∈ ps) (hregs_guard : Part.regs .guard ∈ ps) (hregs_port : Part.regs .port ∈ ps) (hrings : Part.rings ∈ ps) : Result.All (Only ps s0) (execGroupStopEffect a1 s) := by
  unfold execGroupStopEffect
  extract_lets g1
  refine Result.all_ite ?_ ?_
  · refine Result.all_next ?_
    exact h
  · refine Result.all_ite ?_ ?_
    · with_reducible refine finish_only ?_ hevc hfree hfuncs hintake hmay hout hregs_guard
      refine Only.foldl ?_ ?_
      · with_reducible exact State.stopGroup_only h hcounts hgroups hhalves hout hpairs hports hregs_grp hregs_port hrings
      · intro s2 x3 k4
        with_reducible exact State.portEvt_only k4 hregs_port
    · with_reducible refine finish_only ?_ hevc hfree hfuncs hintake hmay hout hregs_guard
      with_reducible exact State.stopGroup_only h hcounts hgroups hhalves hout hpairs hports hregs_grp hregs_port hrings

theorem execGwGapEnd_only {a1}  (h : Only ps s0 s) (hcounts : Part.counts ∈ ps) (heths : Part.eths ∈ ps) (hevc : Part.evc ∈ ps) (hfab : Part.fab ∈ ps) (hfree : Part.free ∈ ps) (hfuncs : Part.funcs ∈ ps) (hhalves : Part.halves ∈ ps) (hintake : Part.intake ∈ ps) (hlinks : Part.links ∈ ps) (hmay : Part.may ∈ ps) (hobjs : Part.objs ∈ ps) (hout : Part.out ∈ ps) (hports : Part.ports ∈ ps) (hregs_fn : Part.regs .fn ∈ ps) (hregs_guard : Part.regs .guard ∈ ps) (hrings : Part.rings ∈ ps) (hroutes : Part.routes ∈ ps) (hspur : Part.spur ∈ ps) (htarn : Part.tarn ∈ ps) (htmu : Part.tmu ∈ ps) : Result.All (Only ps s0) (execGwGapEnd a1 s) := by
  unfold execGwGapEnd
  dsimp only
  split
  · rename_i x1 heq2
    refine Result.all_next ?_
    exact h
  · rename_i x3 old4 heq5
    split
    · rename_i x6 x7 x8 val9 heq10 heq11
      with_reducible refine finish_only ?_ hevc hfree hfuncs hintake hmay hout hregs_guard
      with_reducible refine State.gwPass_only ?_ hcounts heths hfab hfree hfuncs hhalves hlinks hobjs hout hports hregs_fn hrings hroutes hspur htarn
      with_reducible refine State.setRule_only ?_ hspur
      split
      · rename_i x12 t13 heq14
        with_reducible exact State.advance_only h hcounts hfree hfuncs hhalves hobjs hout hports hregs_fn hrings htmu
      · rename_i x15 heq16
        exact h
    · rename_i x17 x18 x19
      refine Result.all_next ?_
      exact h

theorem execGwInput_only  (h : Only ps s0 s) (hcounts : Part.counts ∈ ps) (heths : Part.eths ∈ ps) (hevc : Part.evc ∈ ps) (hfab : Part.fab ∈ ps) (hfree : Part.free ∈ ps) (hfuncs : Part.funcs ∈ ps) (hhalves : Part.halves ∈ ps) (hintake : Part.intake ∈ ps) (hlinks : Part.links ∈ ps) (hmay : Part.may ∈ ps) (hobjs : Part.objs ∈ ps) (hout : Part.out ∈ ps) (hports : Part.ports ∈ ps) (hregs_fn : Part.regs .fn ∈ ps) (hregs_guard : Part.regs .guard ∈ ps) (hrings : Part.rings ∈ ps) (hroutes : Part.routes ∈ ps) (hspur : Part.spur ∈ ps) (htarn : Part.tarn ∈ ps) : Result.All (Only ps s0) (execGwInput s) := by
  unfold execGwInput
  dsimp only
  split
  · rename_i x1 heq2
    refine Result.all_next ?_
    exact h
  · rename_i x3 i4 x5 rest6 heq7
    refine Result.all_ite ?_ ?_
    · refine Result.all_next ?_
      exact h
    · with_reducible refine finish_only ?_ hevc hfree hfuncs hintake hmay hout hregs_guard
      with_reducible refine State.gwTake_only ?_ hcounts heths hfab hfree hfuncs hhalves hlinks hobjs hout hports hregs_fn hrings hroutes hspur htarn
      refine (h.spur hspur)

theorem execGwRead_only {a1}  (h : Only ps s0 s) (hevc : Part.evc ∈ ps) (hfree : Part.free ∈ ps) (hfuncs : Part.funcs ∈ ps) (hintake : Part.intake ∈ ps) (hmay : Part.may ∈ ps) (hout : Part.out ∈ ps) (hregs_fn : Part.regs .fn ∈ ps) (hregs_guard : Part.regs .guard ∈ ps) : Result.All (Only ps s0) (execGwRead a1 s) := by
  unfold execGwRead
  with_reducible refine State.ownFn_only ?_ ?_ hevc hfree hfuncs hintake hmay hout hregs_guard
  · exact h
  · intro s1 k2
    with_reducible exact State.writeGwCmd_only k2 hfuncs hintake hregs_fn

theorem execGwRule_only {a1 a2 a3 a4}  (h : Only ps s0 s) (hcounts : Part.counts ∈ ps) (hevc : Part.evc ∈ ps) (hfree : Part.free ∈ ps) (hfuncs : Part.funcs ∈ ps) (hhalves : Part.halves ∈ ps) (hintake : Part.intake ∈ ps) (hmay : Part.may ∈ ps) (hout : Part.out ∈ ps) (hregs_guard : Part.regs .guard ∈ ps) (hrings : Part.rings ∈ ps) (hspur : Part.spur ∈ ps) : Result.All (Only ps s0) (execGwRule a1 a2 a3 a4 s) := by
  unfold execGwRule
  refine Result.all_ite ?_ ?_
  · refine Result.all_next ?_
    exact h
  · refine Result.all_ite ?_ ?_
    · exact trivial
    · with_reducible refine finish_only ?_ hevc hfree hfuncs hintake hmay hout hregs_guard
      with_reducible refine State.command_only ?_ ?_ hcounts hhalves hout hrings
      · exact h
      · intro s1 x2 k3
        with_reducible exact State.gwRuleOp_only k3 hcounts hhalves hout hrings hspur

theorem execHalt_only {a1 a2}  (h : Only ps s0 s) (hevc : Part.evc ∈ ps) (hfree : Part.free ∈ ps) (hfuncs : Part.funcs ∈ ps) (hgroups : Part.groups ∈ ps) (hintake : Part.intake ∈ ps) (hmay : Part.may ∈ ps) (hout : Part.out ∈ ps) (hregs_dev : Part.regs .dev ∈ ps) (hregs_guard : Part.regs .guard ∈ ps) (hspur : Part.spur ∈ ps) : Result.All (Only ps s0) (execHalt a1 a2 s) := by
  unfold execHalt
  with_reducible exact State.secmdRequest_only h hevc hfree hfuncs hgroups hintake hmay hout hregs_dev hregs_guard hspur

theorem execHello_only {a1 a2}  (h : Only ps s0 s) (hcounts : Part.counts ∈ ps) (hevc : Part.evc ∈ ps) (hfab : Part.fab ∈ ps) (hfree : Part.free ∈ ps) (hfuncs : Part.funcs ∈ ps) (hhalves : Part.halves ∈ ps) (hintake : Part.intake ∈ ps) (hkeys : Part.keys ∈ ps) (hlinks : Part.links ∈ ps) (hmay : Part.may ∈ ps) (hout : Part.out ∈ ps) (hregs_fab : Part.regs .fab ∈ ps) (hregs_fn : Part.regs .fn ∈ ps) (hregs_guard : Part.regs .guard ∈ ps) (hregs_tmu : Part.regs .tmu ∈ ps) : Result.All (Only ps s0) (execHello a1 a2 s) := by
  unfold execHello
  extract_lets f1
  refine Result.all_ite ?_ ?_
  · refine Result.all_next ?_
    exact h
  · with_reducible refine State.rlTake_only ?_ ?_ hcounts hevc hfree hfuncs hhalves hintake hlinks hmay hout hregs_guard
    · exact h
    · intro s2 k3
      with_reducible refine State.helloOp_only ?_ hcounts hfab hfree hhalves hkeys hlinks hout hregs_fab hregs_fn hregs_tmu
      with_reducible exact State.rlDone_only k3 hlinks hout

theorem execHelloTimeout_only {a1}  (h : Only ps s0 s) (hcounts : Part.counts ∈ ps) (hevc : Part.evc ∈ ps) (hfab : Part.fab ∈ ps) (hfree : Part.free ∈ ps) (hfuncs : Part.funcs ∈ ps) (hhalves : Part.halves ∈ ps) (hintake : Part.intake ∈ ps) (hkeys : Part.keys ∈ ps) (hlinks : Part.links ∈ ps) (hmay : Part.may ∈ ps) (hobjs : Part.objs ∈ ps) (hout : Part.out ∈ ps) (hports : Part.ports ∈ ps) (hregs_fab : Part.regs .fab ∈ ps) (hregs_fn : Part.regs .fn ∈ ps) (hregs_guard : Part.regs .guard ∈ ps) (hregs_tmu : Part.regs .tmu ∈ ps) (hrings : Part.rings ∈ ps) (htmu : Part.tmu ∈ ps) : Result.All (Only ps s0) (execHelloTimeout a1 s) := by
  unfold execHelloTimeout
  refine Result.all_ite ?_ ?_
  · refine Result.all_next ?_
    exact h
  · with_reducible refine finish_only ?_ hevc hfree hfuncs hintake hmay hout hregs_guard
    with_reducible refine State.linkDown_only ?_ hcounts hfab hhalves hkeys hlinks hout hregs_fab hregs_fn hregs_tmu
    with_reducible exact State.waitFrom_only h hcounts hfree hfuncs hhalves hobjs hout hports hregs_fn hrings htmu

theorem execHelloTimer_only {a1}  (h : Only ps s0 s) (hcounts : Part.counts ∈ ps) (hevc : Part.evc ∈ ps) (hfree : Part.free ∈ ps) (hfuncs : Part.funcs ∈ ps) (hhalves : Part.halves ∈ ps) (hintake : Part.intake ∈ ps) (hlinks : Part.links ∈ ps) (hmay : Part.may ∈ ps) (hobjs : Part.objs ∈ ps) (hout : Part.out ∈ ps) (hports : Part.ports ∈ ps) (hregs_fn : Part.regs .fn ∈ ps) (hregs_guard : Part.regs .guard ∈ ps) (hrings : Part.rings ∈ ps) (htmu : Part.tmu ∈ ps) : Result.All (Only ps s0) (execHelloTimer a1 s) := by
  unfold execHelloTimer
  extract_lets l1 s2 q3 x4
  have hs2 : Only ps s0 s2 := by
    with_reducible exact State.waitFrom_only h hcounts hfree hfuncs hhalves hobjs hout hports hregs_fn hrings htmu
  clear_value s2
  refine Result.all_ite ?_ ?_
  · refine Result.all_next ?_
    exact h
  · with_reducible refine finish_only ?_ hevc hfree hfuncs hintake hmay hout hregs_guard
    with_reducible refine State.sendLocal_only ?_ hlinks
    with_reducible exact State.setLink_only hs2 hlinks

theorem execHold_only {a1 a2 a3}  (h : Only ps s0 s) (hcairn : Part.cairn ∈ ps) (hcounts : Part.counts ∈ ps) (hevc : Part.evc ∈ ps) (hfree : Part.free ∈ ps) (hfuncs : Part.funcs ∈ ps) (hgroups : Part.groups ∈ ps) (hhalves : Part.halves ∈ ps) (hintake : Part.intake ∈ ps) (hmay : Part.may ∈ ps) (hout : Part.out ∈ ps) (hports : Part.ports ∈ ps) (hregs_grp : Part.regs .grp ∈ ps) (hregs_guard : Part.regs .guard ∈ ps) (hregs_port : Part.regs .port ∈ ps) (hrings : Part.rings ∈ ps) (htrust : Part.trust ∈ ps) : Result.All (Only ps s0) (execHold a1 a2 a3 s) := by
  unfold execHold
  refine Result.all_ite ?_ ?_
  · with_reducible refine finish_only ?_ hevc hfree hfuncs hintake hmay hout hregs_guard
    with_reducible refine State.command_only ?_ ?_ hcounts hhalves hout hrings
    · exact h
    · intro s1 x2 k3
      with_reducible exact State.holdOp_only k3 hcairn hcounts hgroups hhalves hout hports hregs_grp hregs_port hrings htrust
  · refine Result.all_next ?_
    exact h

theorem execHoldExpiry_only {a1}  (h : Only ps s0 s) (hcounts : Part.counts ∈ ps) (hevc : Part.evc ∈ ps) (hfree : Part.free ∈ ps) (hfuncs : Part.funcs ∈ ps) (hgroups : Part.groups ∈ ps) (hhalves : Part.halves ∈ ps) (hintake : Part.intake ∈ ps) (hmay : Part.may ∈ ps) (hobjs : Part.objs ∈ ps) (hout : Part.out ∈ ps) (hports : Part.ports ∈ ps) (hregs_fn : Part.regs .fn ∈ ps) (hregs_grp : Part.regs .grp ∈ ps) (hregs_guard : Part.regs .guard ∈ ps) (hregs_port : Part.regs .port ∈ ps) (hrings : Part.rings ∈ ps) (htmu : Part.tmu ∈ ps) : Result.All (Only ps s0) (execHoldExpiry a1 s) := by
  unfold execHoldExpiry
  split
  · rename_i t1 p2
    split
    · rename_i x3 due4 heq5
      refine Result.all_ite ?_ ?_
      · with_reducible refine finish_only ?_ hevc hfree hfuncs hintake hmay hout hregs_guard
        with_reducible refine State.leaveHold_only ?_ hports hregs_port
        with_reducible exact State.advance_only h hcounts hfree hfuncs hhalves hobjs hout hports hregs_fn hrings htmu
      · refine Result.all_next ?_
        exact h
    · rename_i x6 heq7
      refine Result.all_next ?_
      exact h
  · rename_i t8 k9
    split
    · rename_i x10 due11 heq12
      refine Result.all_ite ?_ ?_
      · with_reducible refine finish_only ?_ hevc hfree hfuncs hintake hmay hout hregs_guard
        with_reducible refine State.leaveGroupHold_only ?_ hgroups hports hregs_grp hregs_port
        with_reducible exact State.advance_only h hcounts hfree hfuncs hhalves hobjs hout hports hregs_fn hrings htmu
      · refine Result.all_next ?_
        exact h
    · rename_i x13 heq14
      refine Result.all_next ?_
      exact h

theorem execHoldTakesEffect_only {a1}  (h : Only ps s0 s) (hcounts : Part.counts ∈ ps) (hevc : Part.evc ∈ ps) (hfree : Part.free ∈ ps) (hfuncs : Part.funcs ∈ ps) (hgroups : Part.groups ∈ ps) (hhalves : Part.halves ∈ ps) (hintake : Part.intake ∈ ps) (hmay : Part.may ∈ ps) (hout : Part.out ∈ ps) (hports : Part.ports ∈ ps) (hregs_grp : Part.regs .grp ∈ ps) (hregs_guard : Part.regs .guard ∈ ps) (hregs_port : Part.regs .port ∈ ps) (hrings : Part.rings ∈ ps) : Result.All (Only ps s0) (execHoldTakesEffect a1 s) := by
  unfold execHoldTakesEffect
  dsimp only
  split
  · rename_i t1 p2
    refine Result.all_ite ?_ ?_
    · with_reducible refine finish_only ?_ hevc hfree hfuncs hintake hmay hout hregs_guard
      with_reducible exact State.holdArrives_only h hcounts hhalves hout hports hregs_port hrings
    · refine Result.all_next ?_
      exact h
  · rename_i t3 k4
    refine Result.all_ite ?_ ?_
    · with_reducible refine finish_only ?_ hevc hfree hfuncs hintake hmay hout hregs_guard
      with_reducible exact State.groupHoldArrives_only h hcounts hgroups hhalves hout hports hregs_grp hregs_port hrings
    · refine Result.all_next ?_
      exact h

theorem execHostReset_only  (h : Only ps s0 s) (hcairn : Part.cairn ∈ ps) (hcounts : Part.counts ∈ ps) (hdev : Part.dev ∈ ps) (heths : Part.eths ∈ ps) (hevc : Part.evc ∈ ps) (hfab : Part.fab ∈ ps) (hfree : Part.free ∈ ps) (hfuncs : Part.funcs ∈ ps) (hgroups : Part.groups ∈ ps) (hhalves : Part.halves ∈ ps) (hintake : Part.intake ∈ ps) (hkeys : Part.keys ∈ ps) (hlinks : Part.links ∈ ps) (hmay : Part.may ∈ ps) (hobjs : Part.objs ∈ ps) (hout : Part.out ∈ ps) (hports : Part.ports ∈ ps) (hregs_fab : Part.regs .fab ∈ ps) (hregs_fn : Part.regs .fn ∈ ps) (hregs_grp : Part.regs .grp ∈ ps) (hregs_guard : Part.regs .guard ∈ ps) (hregs_port : Part.regs .port ∈ ps) (hregs_tmu : Part.regs .tmu ∈ ps) (hrings : Part.rings ∈ ps) (hspur : Part.spur ∈ ps) (htarn : Part.tarn ∈ ps) (htrust : Part.trust ∈ ps) : Result.All (Only ps s0) (execHostReset s) := by
  unfold execHostReset
  extract_lets down1
  refine Result.all_ite ?_ ?_
  · with_reducible refine finish_only ?_ hevc hfree hfuncs hintake hmay hout hregs_guard
    with_reducible refine State.configReset_only ?_ hdev hfuncs
    with_reducible refine State.pfReset_only ?_ hcairn hcounts hdev heths hfab hfuncs hgroups hhalves hkeys hlinks hobjs hout hports hregs_fab hregs_fn hregs_grp hregs_port hregs_tmu hrings hspur htarn htrust
    dsimp only [down1]
    refine (h.dev hdev)
  · refine Result.all_next ?_
    dsimp only [down1]
    refine (h.dev hdev)

theorem execImgActivate_only {a1 a2 a3 a4}  (h : Only ps s0 s) (hcairn : Part.cairn ∈ ps) (hcounts : Part.counts ∈ ps) (hevc : Part.evc ∈ ps) (hfree : Part.free ∈ ps) (hfuncs : Part.funcs ∈ ps) (hhalves : Part.halves ∈ ps) (hintake : Part.intake ∈ ps) (hmay : Part.may ∈ ps) (hout : Part.out ∈ ps) (hregs_guard : Part.regs .guard ∈ ps) (hrings : Part.rings ∈ ps) : Result.All (Only ps s0) (execImgActivate a1 a2 a3 a4 s) := by
  unfold execImgActivate
  refine Result.all_ite ?_ ?_
  · with_reducible refine finish_only ?_ hevc hfree hfuncs hintake hmay hout hregs_guard
    with_reducible refine State.command_only ?_ ?_ hcounts hhalves hout hrings
    · exact h
    · intro s1 x2 k3
      with_reducible exact State.imgActivateOp_only k3 hcairn hcounts hhalves hout hrings
  · refine Result.all_next ?_
    exact h

theorem execImgConfirm_only {a1}  (h : Only ps s0 s) (hcairn : Part.cairn ∈ ps) (hcounts : Part.counts ∈ ps) (hevc : Part.evc ∈ ps) (hfree : Part.free ∈ ps) (hfuncs : Part.funcs ∈ ps) (hhalves : Part.halves ∈ ps) (hintake : Part.intake ∈ ps) (hmay : Part.may ∈ ps) (hobjs : Part.objs ∈ ps) (hotp : Part.otp ∈ ps) (hout : Part.out ∈ ps) (hports : Part.ports ∈ ps) (hregs_fn : Part.regs .fn ∈ ps) (hregs_guard : Part.regs .guard ∈ ps) (hrings : Part.rings ∈ ps) (htmu : Part.tmu ∈ ps) : Result.All (Only ps s0) (execImgConfirm a1 s) := by
  unfold execImgConfirm
  refine Result.all_ite ?_ ?_
  · with_reducible refine finish_only ?_ hevc hfree hfuncs hintake hmay hout hregs_guard
    with_reducible refine State.confirm_only ?_ hcairn hintake hotp
    with_reducible exact State.waitFrom_only h hcounts hfree hfuncs hhalves hobjs hout hports hregs_fn hrings htmu
  · refine Result.all_next ?_
    exact h

theorem execImgRevert_only {a1}  (h : Only ps s0 s) (hcairn : Part.cairn ∈ ps) (hevc : Part.evc ∈ ps) (hfree : Part.free ∈ ps) (hfuncs : Part.funcs ∈ ps) (hgroups : Part.groups ∈ ps) (hintake : Part.intake ∈ ps) (hmay : Part.may ∈ ps) (hout : Part.out ∈ ps) (hregs_fn : Part.regs .fn ∈ ps) (hregs_guard : Part.regs .guard ∈ ps) (hspur : Part.spur ∈ ps) : Result.All (Only ps s0) (execImgRevert a1 s) := by
  unfold execImgRevert
  refine Result.all_ite ?_ ?_
  · with_reducible refine finish_only ?_ hevc hfree hfuncs hintake hmay hout hregs_guard
    with_reducible refine State.safePoint_only ?_ hcairn hevc hgroups hintake hregs_fn hspur
    with_reducible exact State.makeOther_only h hcairn hintake hregs_fn
  · refine Result.all_next ?_
    exact h

theorem execImgWrite_only {a1 a2 a3 a4 a5}  (h : Only ps s0 s) (hcairn : Part.cairn ∈ ps) (hcounts : Part.counts ∈ ps) (hevc : Part.evc ∈ ps) (hfree : Part.free ∈ ps) (hfuncs : Part.funcs ∈ ps) (hhalves : Part.halves ∈ ps) (hintake : Part.intake ∈ ps) (hmay : Part.may ∈ ps) (hout : Part.out ∈ ps) (hregs_guard : Part.regs .guard ∈ ps) (hrings : Part.rings ∈ ps) : Result.All (Only ps s0) (execImgWrite a1 a2 a3 a4 a5 s) := by
  unfold execImgWrite
  refine Result.all_ite ?_ ?_
  · refine Result.all_next ?_
    exact h
  · refine Result.all_ite ?_ ?_
    · exact trivial
    · with_reducible refine finish_only ?_ hevc hfree hfuncs hintake hmay hout hregs_guard
      with_reducible refine State.command_only ?_ ?_ hcounts hhalves hout hrings
      · exact h
      · intro s1 x2 k3
        with_reducible exact State.imgWriteOp_only k3 hcairn hcounts hhalves hout hrings

theorem execInvalidOpcodeDescriptor_only {a1 a2 a3 a4}  (h : Only ps s0 s) (hcounts : Part.counts ∈ ps) (hevc : Part.evc ∈ ps) (hfree : Part.free ∈ ps) (hfuncs : Part.funcs ∈ ps) (hhalves : Part.halves ∈ ps) (hintake : Part.intake ∈ ps) (hmay : Part.may ∈ ps) (hout : Part.out ∈ ps) (hregs_guard : Part.regs .guard ∈ ps) (hrings : Part.rings ∈ ps) : Result.All (Only ps s0) (execInvalidOpcodeDescriptor a1 a2 a3 a4 s) := by
  unfold execInvalidOpcodeDescriptor
  extract_lets cfg1 p2 quiet3
  refine Result.all_ite ?_ ?_
  · with_reducible refine finish_only ?_ hevc hfree hfuncs hintake hmay hout hregs_guard
    with_reducible refine State.complete_only ?_ hcounts hhalves hout hrings
    with_reducible exact State.fetch_only h hout hrings
  · refine Result.all_next ?_
    exact h

theorem execKeyErase_only {a1 a2 a3}  (h : Only ps s0 s) (hcounts : Part.counts ∈ ps) (hevc : Part.evc ∈ ps) (hfab : Part.fab ∈ ps) (hfree : Part.free ∈ ps) (hfuncs : Part.funcs ∈ ps) (hhalves : Part.halves ∈ ps) (hintake : Part.intake ∈ ps) (hkeys : Part.keys ∈ ps) (hlinks : Part.links ∈ ps) (hmay : Part.may ∈ ps) (hout : Part.out ∈ ps) (hregs_fab : Part.regs .fab ∈ ps) (hregs_fn : Part.regs .fn ∈ ps) (hregs_guard : Part.regs .guard ∈ ps) (hregs_tmu : Part.regs .tmu ∈ ps) (hrings : Part.rings ∈ ps) : Result.All (Only ps s0) (execKeyErase a1 a2 a3 s) := by
  unfold execKeyErase
  refine Result.all_ite ?_ ?_
  · with_reducible refine finish_only ?_ hevc hfree hfuncs hintake hmay hout hregs_guard
    with_reducible refine State.command_only ?_ ?_ hcounts hhalves hout hrings
    · exact h
    · intro s1 x2 k3
      with_reducible exact State.keyEraseOp_only k3 hcounts hfab hhalves hintake hkeys hlinks hout hregs_fab hregs_fn hregs_tmu hrings
  · refine Result.all_next ?_
    exact h

theorem execKeyGen_only {a1 a2 a3}  (h : Only ps s0 s) (hcounts : Part.counts ∈ ps) (hevc : Part.evc ∈ ps) (hfree : Part.free ∈ ps) (hfuncs : Part.funcs ∈ ps) (hhalves : Part.halves ∈ ps) (hintake : Part.intake ∈ ps) (hkeys : Part.keys ∈ ps) (hmay : Part.may ∈ ps) (hout : Part.out ∈ ps) (hregs_guard : Part.regs .guard ∈ ps) (hrings : Part.rings ∈ ps) : Result.All (Only ps s0) (execKeyGen a1 a2 a3 s) := by
  unfold execKeyGen
  refine Result.all_ite ?_ ?_
  · with_reducible refine finish_only ?_ hevc hfree hfuncs hintake hmay hout hregs_guard
    with_reducible refine State.command_only ?_ ?_ hcounts hhalves hout hrings
    · exact h
    · intro s1 x2 k3
      with_reducible exact State.keyGenOp_only k3 hcounts hfree hhalves hintake hkeys hout hrings
  · refine Result.all_next ?_
    exact h

theorem execKeyLoad_only {a1 a2 a3 a4}  (h : Only ps s0 s) (hcounts : Part.counts ∈ ps) (hevc : Part.evc ∈ ps) (hfree : Part.free ∈ ps) (hfuncs : Part.funcs ∈ ps) (hhalves : Part.halves ∈ ps) (hintake : Part.intake ∈ ps) (hkeys : Part.keys ∈ ps) (hmay : Part.may ∈ ps) (hout : Part.out ∈ ps) (hregs_guard : Part.regs .guard ∈ ps) (hrings : Part.rings ∈ ps) : Result.All (Only ps s0) (execKeyLoad a1 a2 a3 a4 s) := by
  unfold execKeyLoad
  refine Result.all_ite ?_ ?_
  · refine Result.all_next ?_
    exact h
  · refine Result.all_ite ?_ ?_
    · exact trivial
    · with_reducible refine finish_only ?_ hevc hfree hfuncs hintake hmay hout hregs_guard
      with_reducible refine State.command_only ?_ ?_ hcounts hhalves hout hrings
      · exact h
      · intro s1 x2 k3
        with_reducible exact State.keyLoadOp_only k3 hcounts hhalves hintake hkeys hout hrings

theorem execKeyx_only {a1 a2}  (h : Only ps s0 s) (hcounts : Part.counts ∈ ps) (hevc : Part.evc ∈ ps) (hfree : Part.free ∈ ps) (hfuncs : Part.funcs ∈ ps) (hhalves : Part.halves ∈ ps) (hintake : Part.intake ∈ ps) (hkeys : Part.keys ∈ ps) (hlinks : Part.links ∈ ps) (hmay : Part.may ∈ ps) (hout : Part.out ∈ ps) (hregs_fab : Part.regs .fab ∈ ps) (hregs_guard : Part.regs .guard ∈ ps) : Result.All (Only ps s0) (execKeyx a1 a2 s) := by
  unfold execKeyx
  extract_lets f1
  refine Result.all_ite ?_ ?_
  · refine Result.all_next ?_
    exact h
  · with_reducible refine State.rlTake_only ?_ ?_ hcounts hevc hfree hfuncs hhalves hintake hlinks hmay hout hregs_guard
    · exact h
    · intro s2 k3
      refine Only.ite ?_ ?_
      · with_reducible exact State.rlDone_only k3 hlinks hout
      · with_reducible refine State.keyxOp_only ?_ hkeys hlinks hregs_fab
        with_reducible exact State.rlDone_only k3 hlinks hout

theorem execKeyxTimer_only {a1}  (h : Only ps s0 s) (hcounts : Part.counts ∈ ps) (hevc : Part.evc ∈ ps) (hfree : Part.free ∈ ps) (hfuncs : Part.funcs ∈ ps) (hhalves : Part.halves ∈ ps) (hintake : Part.intake ∈ ps) (hlinks : Part.links ∈ ps) (hmay : Part.may ∈ ps) (hobjs : Part.objs ∈ ps) (hout : Part.out ∈ ps) (hports : Part.ports ∈ ps) (hregs_fn : Part.regs .fn ∈ ps) (hregs_guard : Part.regs .guard ∈ ps) (hrings : Part.rings ∈ ps) (htmu : Part.tmu ∈ ps) : Result.All (Only ps s0) (execKeyxTimer a1 s) := by
  unfold execKeyxTimer
  refine Result.all_ite ?_ ?_
  · with_reducible refine finish_only ?_ hevc hfree hfuncs hintake hmay hout hregs_guard
    with_reducible refine State.sendKeyx_only ?_ hfree hlinks
    with_reducible exact State.waitFrom_only h hcounts hfree hfuncs hhalves hobjs hout hports hregs_fn hrings htmu
  · refine Result.all_next ?_
    exact h

theorem execLinkTxStart_only {a1 a2}  (h : Only ps s0 s) (hcounts : Part.counts ∈ ps) (hevc : Part.evc ∈ ps) (hfree : Part.free ∈ ps) (hfuncs : Part.funcs ∈ ps) (hhalves : Part.halves ∈ ps) (hintake : Part.intake ∈ ps) (hlinks : Part.links ∈ ps) (hmay : Part.may ∈ ps) (hobjs : Part.objs ∈ ps) (hout : Part.out ∈ ps) (hports : Part.ports ∈ ps) (hregs_fn : Part.regs .fn ∈ ps) (hregs_guard : Part.regs .guard ∈ ps) (hrings : Part.rings ∈ ps) (htmu : Part.tmu ∈ ps) : Result.All (Only ps s0) (execLinkTxStart a1 a2 s) := by
  unfold execLinkTxStart
  extract_lets s1 busy2 s3
  have hs1 : Only ps s0 s1 := by
    with_reducible exact State.advance_only h hcounts hfree hfuncs hhalves hobjs hout hports hregs_fn hrings htmu
  clear_value s1
  have hs3 : Only ps s0 s3 := by
    with_reducible exact State.endWire_only hs1 hcounts hhalves hlinks
  clear_value s3
  refine Result.all_ite ?_ ?_
  · refine Result.all_next ?_
    exact hs1
  · split
    · rename_i x4 heq5
      with_reducible exact finish_only hs3 hevc hfree hfuncs hintake hmay hout hregs_guard
    · rename_i x6 x7 f8 heq9
      with_reducible refine finish_only ?_ hevc hfree hfuncs hintake hmay hout hregs_guard
      with_reducible exact State.linkStart_only hs3 hcounts hhalves hlinks hout

theorem execListenTimeout_only {a1}  (h : Only ps s0 s) (hcounts : Part.counts ∈ ps) (hevc : Part.evc ∈ ps) (hfree : Part.free ∈ ps) (hfuncs : Part.funcs ∈ ps) (hgroups : Part.groups ∈ ps) (hhalves : Part.halves ∈ ps) (hintake : Part.intake ∈ ps) (hmay : Part.may ∈ ps) (hobjs : Part.objs ∈ ps) (hout : Part.out ∈ ps) (hports : Part.ports ∈ ps) (hregs_fn : Part.regs .fn ∈ ps) (hregs_guard : Part.regs .guard ∈ ps) (hrings : Part.rings ∈ ps) (htmu : Part.tmu ∈ ps) : Result.All (Only ps s0) (execListenTimeout a1 s) := by
  unfold execListenTimeout
  extract_lets g1
  refine Result.all_ite ?_ ?_
  · with_reducible refine finish_only ?_ hevc hfree hfuncs hintake hmay hout hregs_guard
    with_reducible refine State.sendCold_only ?_ hcounts hfree hfuncs hgroups hhalves hobjs hout hports hregs_fn hrings htmu
    with_reducible exact State.advance_only h hcounts hfree hfuncs hhalves hobjs hout hports hregs_fn hrings htmu
  · refine Result.all_next ?_
    exact h

theorem execLogClear_only {a1 a2}  (h : Only ps s0 s) (hcairn : Part.cairn ∈ ps) (hevc : Part.evc ∈ ps) (hfree : Part.free ∈ ps) (hfuncs : Part.funcs ∈ ps) (hintake : Part.intake ∈ ps) (hlog : Part.log ∈ ps) (hmay : Part.may ∈ ps) (hout : Part.out ∈ ps) (hregs_cairn : Part.regs .cairn ∈ ps) (hregs_fn : Part.regs .fn ∈ ps) (hregs_guard : Part.regs .guard ∈ ps) : Result.All (Only ps s0) (execLogClear a1 a2 s) := by
  unfold execLogClear
  with_reducible refine State.ownedWrite_only ?_ ?_ hevc hfree hfuncs hintake hmay hout hregs_guard
  · exact h
  · intro s1 k2
    with_reducible exact State.writeLogCfg_only k2 hcairn hintake hlog hregs_cairn hregs_fn

theorem execLogIntake_only  (h : Only ps s0 s) (hcairn : Part.cairn ∈ ps) (hcounts : Part.counts ∈ ps) (hevc : Part.evc ∈ ps) (hfree : Part.free ∈ ps) (hfuncs : Part.funcs ∈ ps) (hhalves : Part.halves ∈ ps) (hintake : Part.intake ∈ ps) (hlog : Part.log ∈ ps) (hmay : Part.may ∈ ps) (hout : Part.out ∈ ps) (hregs_fn : Part.regs .fn ∈ ps) (hregs_guard : Part.regs .guard ∈ ps) : Result.All (Only ps s0) (execLogIntake s) := by
  unfold execLogIntake
  dsimp only
  split
  · rename_i x1 heq2
    refine Result.all_next ?_
    exact h
  · rename_i x3 raw4 r5 rest6 heq7
    refine Result.all_ite ?_ ?_
    · refine Result.all_next ?_
      exact h
    · with_reducible refine finish_only ?_ hevc hfree hfuncs hintake hmay hout hregs_guard
      split
      · rename_i h8
        with_reducible refine State.domainRec_only ?_ hcairn hcounts hfuncs hhalves hintake hlog hregs_fn
        with_reducible refine State.reportLost_only ?_ hintake hlog
        with_reducible exact State.setLog_only h hintake hlog
      · rename_i h9
        with_reducible refine State.writeRec_only ?_ hcairn hintake hlog hregs_fn
        with_reducible refine State.reportLost_only ?_ hintake hlog
        with_reducible exact State.setLog_only h hintake hlog

theorem execLogRead_only {a1 a2 a3}  (h : Only ps s0 s) (hcounts : Part.counts ∈ ps) (hevc : Part.evc ∈ ps) (hfree : Part.free ∈ ps) (hfuncs : Part.funcs ∈ ps) (hhalves : Part.halves ∈ ps) (hintake : Part.intake ∈ ps) (hmay : Part.may ∈ ps) (hout : Part.out ∈ ps) (hregs_guard : Part.regs .guard ∈ ps) (hrings : Part.rings ∈ ps) : Result.All (Only ps s0) (execLogRead a1 a2 a3 s) := by
  unfold execLogRead
  refine Result.all_ite ?_ ?_
  · with_reducible refine finish_only ?_ hevc hfree hfuncs hintake hmay hout hregs_guard
    with_reducible refine State.command_only ?_ ?_ hcounts hhalves hout hrings
    · exact h
    · intro s1 x2 k3
      with_reducible exact State.logReadOp_only k3 hcounts hhalves hout hrings
  · refine Result.all_next ?_
    exact h

theorem execModeWrite_only {a1 a2}  (h : Only ps s0 s) (hcairn : Part.cairn ∈ ps) (hevc : Part.evc ∈ ps) (hfree : Part.free ∈ ps) (hfuncs : Part.funcs ∈ ps) (hintake : Part.intake ∈ ps) (hmay : Part.may ∈ ps) (hout : Part.out ∈ ps) (hregs_dev : Part.regs .dev ∈ ps) (hregs_guard : Part.regs .guard ∈ ps) : Result.All (Only ps s0) (execModeWrite a1 a2 s) := by
  unfold execModeWrite
  with_reducible refine State.ownedWrite_only ?_ ?_ hevc hfree hfuncs hintake hmay hout hregs_guard
  · exact h
  · intro s1 k2
    with_reducible exact State.writeMode_only k2 hcairn hintake hregs_dev

theorem execModerationGapEnd_only {a1 a2}  (h : Only ps s0 s) (hcounts : Part.counts ∈ ps) (hevc : Part.evc ∈ ps) (hfree : Part.free ∈ ps) (hfuncs : Part.funcs ∈ ps) (hhalves : Part.halves ∈ ps) (hintake : Part.intake ∈ ps) (hmay : Part.may ∈ ps) (hobjs : Part.objs ∈ ps) (hout : Part.out ∈ ps) (hports : Part.ports ∈ ps) (hregs_fn : Part.regs .fn ∈ ps) (hregs_guard : Part.regs .guard ∈ ps) (hrings : Part.rings ∈ ps) (htmu : Part.tmu ∈ ps) : Result.All (Only ps s0) (execModerationGapEnd a1 a2 s) := by
  unfold execModerationGapEnd
  dsimp only
  split
  · rename_i t1 t2
    refine Result.all_ite ?_ ?_
    · refine Result.all_next ?_
      exact h
    · refine Result.all_ite ?_ ?_
      · refine Result.all_next ?_
        refine (h.evc hevc)
      · with_reducible refine finish_only ?_ hevc hfree hfuncs hintake hmay hout hregs_guard
        with_reducible refine State.message_only ?_ hevc hfuncs hintake hout hregs_guard
        with_reducible exact State.advance_only h hcounts hfree hfuncs hhalves hobjs hout hports hregs_fn hrings htmu
  · rename_i t3 u4
    refine Result.all_ite ?_ ?_
    · refine Result.all_next ?_
      exact h
    · split
      · rename_i x5 heq6
        refine Result.all_next ?_
        refine (h.evc hevc)
      · rename_i x7 x8 heq9
        with_reducible refine finish_only ?_ hevc hfree hfuncs hintake hmay hout hregs_guard
        with_reducible refine State.sendVector_only ?_ hevc hintake hout
        with_reducible exact State.advance_only h hcounts hfree hfuncs hhalves hobjs hout hports hregs_fn hrings htmu

theorem execNop_only {a1 a2 a3}  (h : Only ps s0 s) (hcounts : Part.counts ∈ ps) (hevc : Part.evc ∈ ps) (hfree : Part.free ∈ ps) (hfuncs : Part.funcs ∈ ps) (hhalves : Part.halves ∈ ps) (hintake : Part.intake ∈ ps) (hmay : Part.may ∈ ps) (hout : Part.out ∈ ps) (hregs_guard : Part.regs .guard ∈ ps) (hrings : Part.rings ∈ ps) : Result.All (Only ps s0) (execNop a1 a2 a3 s) := by
  unfold execNop
  extract_lets i1 cfg2 p3 quiet4 s5 st6
  have hs5 : Only ps s0 s5 := by
    with_reducible exact State.fetch_only h hout hrings
  clear_value s5
  refine Result.all_ite ?_ ?_
  · with_reducible refine finish_only ?_ hevc hfree hfuncs hintake hmay hout hregs_guard
    with_reducible exact State.complete_only hs5 hcounts hhalves hout hrings
  · refine Result.all_next ?_
    exact h

theorem execObjCommit_only {a1}  (h : Only ps s0 s) (hevc : Part.evc ∈ ps) (hfree : Part.free ∈ ps) (hfuncs : Part.funcs ∈ ps) (hintake : Part.intake ∈ ps) (hmay : Part.may ∈ ps) (hobjs : Part.objs ∈ ps) (hout : Part.out ∈ ps) (hregs_fn : Part.regs .fn ∈ ps) (hregs_guard : Part.regs .guard ∈ ps) (htarn : Part.tarn ∈ ps) : Result.All (Only ps s0) (execObjCommit a1 s) := by
  unfold execObjCommit
  with_reducible refine State.ownFn_only ?_ ?_ hevc hfree hfuncs hintake hmay hout hregs_guard
  · exact h
  · intro s1 k2
    with_reducible exact State.writeObjCmd_only k2 hfuncs hintake hobjs hregs_fn htarn

theorem execObjLoad_only {a1}  (h : Only ps s0 s) (hevc : Part.evc ∈ ps) (hfree : Part.free ∈ ps) (hfuncs : Part.funcs ∈ ps) (hintake : Part.intake ∈ ps) (hmay : Part.may ∈ ps) (hobjs : Part.objs ∈ ps) (hout : Part.out ∈ ps) (hregs_fn : Part.regs .fn ∈ ps) (hregs_guard : Part.regs .guard ∈ ps) (htarn : Part.tarn ∈ ps) : Result.All (Only ps s0) (execObjLoad a1 s) := by
  unfold execObjLoad
  with_reducible refine State.ownFn_only ?_ ?_ hevc hfree hfuncs hintake hmay hout hregs_guard
  · exact h
  · intro s1 k2
    with_reducible exact State.writeObjCmd_only k2 hfuncs hintake hobjs hregs_fn htarn

theorem execObjRead_only {a1 a2 a3}  (h : Only ps s0 s) (hcounts : Part.counts ∈ ps) (hevc : Part.evc ∈ ps) (hfree : Part.free ∈ ps) (hfuncs : Part.funcs ∈ ps) (hhalves : Part.halves ∈ ps) (hintake : Part.intake ∈ ps) (hmay : Part.may ∈ ps) (hobjs : Part.objs ∈ ps) (hout : Part.out ∈ ps) (hregs_guard : Part.regs .guard ∈ ps) (hrings : Part.rings ∈ ps) (htarn : Part.tarn ∈ ps) : Result.All (Only ps s0) (execObjRead a1 a2 a3 s) := by
  unfold execObjRead
  refine Result.all_ite ?_ ?_
  · with_reducible refine finish_only ?_ hevc hfree hfuncs hintake hmay hout hregs_guard
    with_reducible refine State.command_only ?_ ?_ hcounts hhalves hout hrings
    · exact h
    · intro s1 x2 k3
      with_reducible exact State.objReadOp_only k3 hcounts hhalves hobjs hout hrings htarn
  · refine Result.all_next ?_
    exact h

theorem execObjReadCopyDone_only {a1 a2}  (h : Only ps s0 s) (hcounts : Part.counts ∈ ps) (hevc : Part.evc ∈ ps) (hfree : Part.free ∈ ps) (hfuncs : Part.funcs ∈ ps) (hhalves : Part.halves ∈ ps) (hintake : Part.intake ∈ ps) (hmay : Part.may ∈ ps) (hobjs : Part.objs ∈ ps) (hout : Part.out ∈ ps) (hregs_guard : Part.regs .guard ∈ ps) (hrings : Part.rings ∈ ps) (hspur : Part.spur ∈ ps) (htarn : Part.tarn ∈ ps) : Result.All (Only ps s0) (execObjReadCopyDone a1 a2 s) := by
  unfold execObjReadCopyDone
  refine Result.all_ite ?_ ?_
  · with_reducible refine finish_only ?_ hevc hfree hfuncs hintake hmay hout hregs_guard
    with_reducible exact State.endCopy_only h hcounts hhalves hobjs hout hrings hspur htarn
  · refine Result.all_next ?_
    exact h

theorem execObjSend_only {a1 a2 a3}  (h : Only ps s0 s) (hcounts : Part.counts ∈ ps) (hevc : Part.evc ∈ ps) (hfree : Part.free ∈ ps) (hfuncs : Part.funcs ∈ ps) (hhalves : Part.halves ∈ ps) (hintake : Part.intake ∈ ps) (hmay : Part.may ∈ ps) (hobjs : Part.objs ∈ ps) (hout : Part.out ∈ ps) (hports : Part.ports ∈ ps) (hregs_fn : Part.regs .fn ∈ ps) (hregs_guard : Part.regs .guard ∈ ps) (hrings : Part.rings ∈ ps) : Result.All (Only ps s0) (execObjSend a1 a2 a3 s) := by
  unfold execObjSend
  refine Result.all_ite ?_ ?_
  · with_reducible refine finish_only ?_ hevc hfree hfuncs hintake hmay hout hregs_guard
    with_reducible refine State.command_only ?_ ?_ hcounts hhalves hout hrings
    · exact h
    · intro s1 x2 k3
      with_reducible exact State.objSendOp_only k3 hcounts hfree hfuncs hhalves hobjs hout hports hregs_fn hrings
  · refine Result.all_next ?_
    exact h

theorem execObjWrite_only {a1 a2 a3 a4}  (h : Only ps s0 s) (hcounts : Part.counts ∈ ps) (hevc : Part.evc ∈ ps) (hfree : Part.free ∈ ps) (hfuncs : Part.funcs ∈ ps) (hhalves : Part.halves ∈ ps) (hintake : Part.intake ∈ ps) (hmay : Part.may ∈ ps) (hobjs : Part.objs ∈ ps) (hout : Part.out ∈ ps) (hports : Part.ports ∈ ps) (hregs_fn : Part.regs .fn ∈ ps) (hregs_guard : Part.regs .guard ∈ ps) (hrings : Part.rings ∈ ps) (htarn : Part.tarn ∈ ps) : Result.All (Only ps s0) (execObjWrite a1 a2 a3 a4 s) := by
  unfold execObjWrite
  refine Result.all_ite ?_ ?_
  · refine Result.all_next ?_
    exact h
  · refine Result.all_ite ?_ ?_
    · exact trivial
    · with_reducible refine finish_only ?_ hevc hfree hfuncs hintake hmay hout hregs_guard
      with_reducible refine State.command_only ?_ ?_ hcounts hhalves hout hrings
      · exact h
      · intro s1 x2 k3
        with_reducible exact State.objWriteOp_only k3 hcounts hfree hfuncs hhalves hobjs hout hports hregs_fn hrings htarn

theorem execOfflineFallback_only {a1 a2}  (h : Only ps s0 s) (hcounts : Part.counts ∈ ps) (hevc : Part.evc ∈ ps) (hfree : Part.free ∈ ps) (hfuncs : Part.funcs ∈ ps) (hhalves : Part.halves ∈ ps) (hintake : Part.intake ∈ ps) (hmay : Part.may ∈ ps) (hobjs : Part.objs ∈ ps) (hout : Part.out ∈ ps) (hports : Part.ports ∈ ps) (hregs_fn : Part.regs .fn ∈ ps) (hregs_guard : Part.regs .guard ∈ ps) (hrings : Part.rings ∈ ps) (htmu : Part.tmu ∈ ps) : Result.All (Only ps s0) (execOfflineFallback a1 a2 s) := by
  unfold execOfflineFallback
  extract_lets st1 s2 x3
  have hs2 : Only ps s0 s2 := by
    with_reducible exact State.advance_only h hcounts hfree hfuncs hhalves hobjs hout hports hregs_fn hrings htmu
  clear_value s2
  refine Result.all_ite ?_ ?_
  · with_reducible refine finish_only ?_ hevc hfree hfuncs hintake hmay hout hregs_guard
    refine (hs2.evc hevc)
  · refine Result.all_next ?_
    exact h

theorem execOffsetSample_only {a1 a2 a3}  (h : Only ps s0 s) (hcounts : Part.counts ∈ ps) (hevc : Part.evc ∈ ps) (hfree : Part.free ∈ ps) (hfuncs : Part.funcs ∈ ps) (hhalves : Part.halves ∈ ps) (hintake : Part.intake ∈ ps) (hmay : Part.may ∈ ps) (hout : Part.out ∈ ps) (hregs_guard : Part.regs .guard ∈ ps) (hrings : Part.rings ∈ ps) (htmu : Part.tmu ∈ ps) : Result.All (Only ps s0) (execOffsetSample a1 a2 a3 s) := by
  unfold execOffsetSample
  refine Result.all_ite ?_ ?_
  · with_reducible refine finish_only ?_ hevc hfree hfuncs hintake hmay hout hregs_guard
    with_reducible refine State.command_only ?_ ?_ hcounts hhalves hout hrings
    · exact h
    · intro s1 x2 k3
      with_reducible exact State.offsetOp_only k3 hcounts hhalves hout hrings htmu
  · refine Result.all_next ?_
    exact h

theorem execOwnerEnrol_only {a1 a2 a3 a4}  (h : Only ps s0 s) (hcounts : Part.counts ∈ ps) (hevc : Part.evc ∈ ps) (hfree : Part.free ∈ ps) (hfuncs : Part.funcs ∈ ps) (hhalves : Part.halves ∈ ps) (hintake : Part.intake ∈ ps) (hmay : Part.may ∈ ps) (hotp : Part.otp ∈ ps) (hout : Part.out ∈ ps) (hregs_guard : Part.regs .guard ∈ ps) (hrings : Part.rings ∈ ps) : Result.All (Only ps s0) (execOwnerEnrol a1 a2 a3 a4 s) := by
  unfold execOwnerEnrol
  refine Result.all_ite ?_ ?_
  · refine Result.all_next ?_
    exact h
  · refine Result.all_ite ?_ ?_
    · exact trivial
    · with_reducible refine finish_only ?_ hevc hfree hfuncs hintake hmay hout hregs_guard
      with_reducible refine State.command_only ?_ ?_ hcounts hhalves hout hrings
      · exact h
      · intro s1 x2 k3
        with_reducible exact State.ownerEnrolOp_only k3 hcounts hfree hhalves hintake hotp hout hrings

theorem execOwnerRelease_only {a1 a2 a3 a4}  (h : Only ps s0 s) (hcairn : Part.cairn ∈ ps) (hcounts : Part.counts ∈ ps) (heths : Part.eths ∈ ps) (hevc : Part.evc ∈ ps) (hfab : Part.fab ∈ ps) (hflt : Part.flt ∈ ps) (hfree : Part.free ∈ ps) (hfuncs : Part.funcs ∈ ps) (hgroups : Part.groups ∈ ps) (hhalves : Part.halves ∈ ps) (hintake : Part.intake ∈ ps) (hkeys : Part.keys ∈ ps) (hlinks : Part.links ∈ ps) (hlog : Part.log ∈ ps) (hmay : Part.may ∈ ps) (hobjs : Part.objs ∈ ps) (hotp : Part.otp ∈ ps) (hout : Part.out ∈ ps) (hpartition : Part.partition ∈ ps) (hports : Part.ports ∈ ps) (hregs_fab : Part.regs .fab ∈ ps) (hregs_flt : Part.regs .flt ∈ ps) (hregs_fn : Part.regs .fn ∈ ps) (hregs_grp : Part.regs .grp ∈ ps) (hregs_guard : Part.regs .guard ∈ ps) (hregs_port : Part.regs .port ∈ ps) (hregs_ring : Part.regs .ring ∈ ps) (hregs_tmu : Part.regs .tmu ∈ ps) (hrings : Part.rings ∈ ps) (hroutes : Part.routes ∈ ps) (hrxq : Part.rxq ∈ ps) (hspur : Part.spur ∈ ps) (htarn : Part.tarn ∈ ps) (htrust : Part.trust ∈ ps) (hunits : Part.units ∈ ps) : Result.All (Only ps s0) (execOwnerRelease a1 a2 a3 a4 s) := by
  unfold execOwnerRelease
  refine Result.all_ite ?_ ?_
  · refine Result.all_next ?_
    exact h
  · refine Result.all_ite ?_ ?_
    · exact trivial
    · with_reducible refine finish_only ?_ hevc hfree hfuncs hintake hmay hout hregs_guard
      with_reducible refine State.command_only ?_ ?_ hcounts hhalves hout hrings
      · exact h
      · intro s1 x2 k3
        with_reducible refine State.signedOp_only ?_ ?_ hcounts hhalves hout hrings htrust
        · exact k3
        · intro s4 k5
          extract_lets i6 slots7 s8 x9 x10
          have hs8 : Only ps s0 s8 := by
            with_reducible exact State.ownerErase_only k5 hcairn hcounts heths hfab hflt hfuncs hgroups hhalves hintake hkeys hlinks hlog hobjs hout hpartition hports hregs_fab hregs_flt hregs_fn hregs_grp hregs_port hregs_ring hregs_tmu hrings hroutes hrxq hspur htarn htrust hunits
          clear_value s8
          with_reducible refine State.setLife_only ?_ hintake hotp
          with_reducible exact State.setOtp_only hs8 hotp

theorem execPairInserted_only {a1}  (h : Only ps s0 s) (hevc : Part.evc ∈ ps) (hfree : Part.free ∈ ps) (hfuncs : Part.funcs ∈ ps) (hintake : Part.intake ∈ ps) (hmay : Part.may ∈ ps) (hout : Part.out ∈ ps) (hpairs : Part.pairs ∈ ps) (hregs_guard : Part.regs .guard ∈ ps) (hregs_port : Part.regs .port ∈ ps) : Result.All (Only ps s0) (execPairInserted a1 s) := by
  unfold execPairInserted
  extract_lets x1
  refine Result.all_ite ?_ ?_
  · with_reducible refine finish_only ?_ hevc hfree hfuncs hintake hmay hout hregs_guard
    with_reducible refine State.portEvt_only ?_ hregs_port
    refine (h.pairs hpairs)
  · refine Result.all_next ?_
    exact h

theorem execPauseEnd_only {a1}  (h : Only ps s0 s) (hcounts : Part.counts ∈ ps) (heths : Part.eths ∈ ps) (hevc : Part.evc ∈ ps) (hfree : Part.free ∈ ps) (hfuncs : Part.funcs ∈ ps) (hhalves : Part.halves ∈ ps) (hintake : Part.intake ∈ ps) (hmay : Part.may ∈ ps) (hobjs : Part.objs ∈ ps) (hout : Part.out ∈ ps) (hports : Part.ports ∈ ps) (hregs_fn : Part.regs .fn ∈ ps) (hregs_guard : Part.regs .guard ∈ ps) (hrings : Part.rings ∈ ps) (htmu : Part.tmu ∈ ps) : Result.All (Only ps s0) (execPauseEnd a1 s) := by
  unfold execPauseEnd
  split
  · rename_i x1 heq2
    refine Result.all_next ?_
    exact h
  · rename_i x3 val4 heq5
    with_reducible refine finish_only ?_ hevc hfree hfuncs hintake hmay hout hregs_guard
    with_reducible refine State.ethKick_only ?_ heths
    with_reducible refine State.endPause_only ?_ hcounts heths hhalves
    with_reducible exact State.advance_only h hcounts hfree hfuncs hhalves hobjs hout hports hregs_fn hrings htmu

theorem execPayloadLoaded_only {a1 a2 a3 a4}  (h : Only ps s0 s) (hcounts : Part.counts ∈ ps) (hevc : Part.evc ∈ ps) (hfree : Part.free ∈ ps) (hfuncs : Part.funcs ∈ ps) (hhalves : Part.halves ∈ ps) (hintake : Part.intake ∈ ps) (hmay : Part.may ∈ ps) (hout : Part.out ∈ ps) (hports : Part.ports ∈ ps) (hregs_guard : Part.regs .guard ∈ ps) : Result.All (Only ps s0) (execPayloadLoaded a1 a2 a3 a4 s) := by
  unfold execPayloadLoaded
  extract_lets x1
  split
  · rename_i x2 heq3
    refine Result.all_next ?_
    exact h
  · rename_i x4 k5 heq6
    refine Result.all_ite ?_ ?_
    · refine Result.all_next ?_
      exact h
    · split
      · rename_i bytes7 bs8
        refine Result.all_ite ?_ ?_
        · exact trivial
        · with_reducible refine finish_only ?_ hevc hfree hfuncs hintake hmay hout hregs_guard
          with_reducible exact State.setPort_only h hports
      · rename_i bytes9
        refine Result.all_ite ?_ ?_
        · with_reducible refine finish_only ?_ hevc hfree hfuncs hintake hmay hout hregs_guard
          with_reducible exact State.setPort_only h hports
        · refine Result.all_ite ?_ ?_
          · with_reducible refine finish_only ?_ hevc hfree hfuncs hintake hmay hout hregs_guard
            with_reducible exact State.setPort_only h hports
          · with_reducible refine finish_only ?_ hevc hfree hfuncs hintake hmay hout hregs_guard
            with_reducible refine State.countDev_only ?_ hcounts hhalves
            with_reducible exact State.setPort_only h hports

theorem execPerstHigh_only  (h : Only ps s0 s) (hdev : Part.dev ∈ ps) : Result.All (Only ps s0) (execPerstHigh s) := by
  unfold execPerstHigh
  refine Result.all_next ?_
  extract_lets x1
  refine (h.dev hdev)

theorem execPfFlr_only  (h : Only ps s0 s) (hcairn : Part.cairn ∈ ps) (hcounts : Part.counts ∈ ps) (hdev : Part.dev ∈ ps) (heths : Part.eths ∈ ps) (hevc : Part.evc ∈ ps) (hfab : Part.fab ∈ ps) (hfree : Part.free ∈ ps) (hfuncs : Part.funcs ∈ ps) (hgroups : Part.groups ∈ ps) (hhalves : Part.halves ∈ ps) (hintake : Part.intake ∈ ps) (hkeys : Part.keys ∈ ps) (hlinks : Part.links ∈ ps) (hmay : Part.may ∈ ps) (hobjs : Part.objs ∈ ps) (hout : Part.out ∈ ps) (hports : Part.ports ∈ ps) (hregs_fab : Part.regs .fab ∈ ps) (hregs_fn : Part.regs .fn ∈ ps) (hregs_grp : Part.regs .grp ∈ ps) (hregs_guard : Part.regs .guard ∈ ps) (hregs_port : Part.regs .port ∈ ps) (hregs_tmu : Part.regs .tmu ∈ ps) (hrings : Part.rings ∈ ps) (hspur : Part.spur ∈ ps) (htarn : Part.tarn ∈ ps) (htrust : Part.trust ∈ ps) : Result.All (Only ps s0) (execPfFlr s) := by
  unfold execPfFlr
  refine Result.all_ite ?_ ?_
  · with_reducible refine finish_only ?_ hevc hfree hfuncs hintake hmay hout hregs_guard
    with_reducible exact State.pfReset_only h hcairn hcounts hdev heths hfab hfuncs hgroups hhalves hkeys hlinks hobjs hout hports hregs_fab hregs_fn hregs_grp hregs_port hregs_tmu hrings hspur htarn htrust
  · refine Result.all_next ?_
    exact h

theorem execPortDisable_only {a1 a2}  (h : Only ps s0 s) (hcairn : Part.cairn ∈ ps) (hcounts : Part.counts ∈ ps) (hevc : Part.evc ∈ ps) (hfree : Part.free ∈ ps) (hfuncs : Part.funcs ∈ ps) (hhalves : Part.halves ∈ ps) (hintake : Part.intake ∈ ps) (hmay : Part.may ∈ ps) (hout : Part.out ∈ ps) (hports : Part.ports ∈ ps) (hregs_guard : Part.regs .guard ∈ ps) (hregs_port : Part.regs .port ∈ ps) (hrings : Part.rings ∈ ps) (htrust : Part.trust ∈ ps) : Result.All (Only ps s0) (execPortDisable a1 a2 s) := by
  unfold execPortDisable
  with_reducible exact State.writePortCmd_only h hcairn hcounts hevc hfree hfuncs hhalves hintake hmay hout hports hregs_guard hregs_port hrings htrust

theorem execPortEnable_only {a1 a2}  (h : Only ps s0 s) (hcairn : Part.cairn ∈ ps) (hcounts : Part.counts ∈ ps) (hevc : Part.evc ∈ ps) (hfree : Part.free ∈ ps) (hfuncs : Part.funcs ∈ ps) (hhalves : Part.halves ∈ ps) (hintake : Part.intake ∈ ps) (hmay : Part.may ∈ ps) (hout : Part.out ∈ ps) (hports : Part.ports ∈ ps) (hregs_guard : Part.regs .guard ∈ ps) (hregs_port : Part.regs .port ∈ ps) (hrings : Part.rings ∈ ps) (htrust : Part.trust ∈ ps) : Result.All (Only ps s0) (execPortEnable a1 a2 s) := by
  unfold execPortEnable
  with_reducible exact State.writePortCmd_only h hcairn hcounts hevc hfree hfuncs hhalves hintake hmay hout hports hregs_guard hregs_port hrings htrust

theorem execPortRestart_only {a1 a2}  (h : Only ps s0 s) (hcairn : Part.cairn ∈ ps) (hcounts : Part.counts ∈ ps) (hevc : Part.evc ∈ ps) (hfree : Part.free ∈ ps) (hfuncs : Part.funcs ∈ ps) (hhalves : Part.halves ∈ ps) (hintake : Part.intake ∈ ps) (hmay : Part.may ∈ ps) (hout : Part.out ∈ ps) (hports : Part.ports ∈ ps) (hregs_guard : Part.regs .guard ∈ ps) (hregs_port : Part.regs .port ∈ ps) (hrings : Part.rings ∈ ps) (htrust : Part.trust ∈ ps) : Result.All (Only ps s0) (execPortRestart a1 a2 s) := by
  unfold execPortRestart
  with_reducible exact State.writePortCmd_only h hcairn hcounts hevc hfree hfuncs hhalves hintake hmay hout hports hregs_guard hregs_port hrings htrust

theorem execPortSleep_only {a1 a2}  (h : Only ps s0 s) (hcairn : Part.cairn ∈ ps) (hcounts : Part.counts ∈ ps) (hevc : Part.evc ∈ ps) (hfree : Part.free ∈ ps) (hfuncs : Part.funcs ∈ ps) (hhalves : Part.halves ∈ ps) (hintake : Part.intake ∈ ps) (hmay : Part.may ∈ ps) (hout : Part.out ∈ ps) (hports : Part.ports ∈ ps) (hregs_guard : Part.regs .guard ∈ ps) (hregs_port : Part.regs .port ∈ ps) (hrings : Part.rings ∈ ps) (htrust : Part.trust ∈ ps) : Result.All (Only ps s0) (execPortSleep a1 a2 s) := by
  unfold execPortSleep
  with_reducible exact State.writePortCmd_only h hcairn hcounts hevc hfree hfuncs hhalves hintake hmay hout hports hregs_guard hregs_port hrings htrust

theorem execPortStart_only {a1 a2}  (h : Only ps s0 s) (hcairn : Part.cairn ∈ ps) (hcounts : Part.counts ∈ ps) (hevc : Part.evc ∈ ps) (hfree : Part.free ∈ ps) (hfuncs : Part.funcs ∈ ps) (hhalves : Part.halves ∈ ps) (hintake : Part.intake ∈ ps) (hmay : Part.may ∈ ps) (hout : Part.out ∈ ps) (hports : Part.ports ∈ ps) (hregs_guard : Part.regs .guard ∈ ps) (hregs_port : Part.regs .port ∈ ps) (hrings : Part.rings ∈ ps) (htrust : Part.trust ∈ ps) : Result.All (Only ps s0) (execPortStart a1 a2 s) := by
  unfold execPortStart
  with_reducible exact State.writePortCmd_only h hcairn hcounts hevc hfree hfuncs hhalves hintake hmay hout hports hregs_guard hregs_port hrings htrust

theorem execPortStop_only {a1 a2}  (h : Only ps s0 s) (hcairn : Part.cairn ∈ ps) (hcounts : Part.counts ∈ ps) (hevc : Part.evc ∈ ps) (hfree : Part.free ∈ ps) (hfuncs : Part.funcs ∈ ps) (hhalves : Part.halves ∈ ps) (hintake : Part.intake ∈ ps) (hmay : Part.may ∈ ps) (hout : Part.out ∈ ps) (hports : Part.ports ∈ ps) (hregs_guard : Part.regs .guard ∈ ps) (hregs_port : Part.regs .port ∈ ps) (hrings : Part.rings ∈ ps) (htrust : Part.trust ∈ ps) : Result.All (Only ps s0) (execPortStop a1 a2 s) := by
  unfold execPortStop
  with_reducible exact State.writePortCmd_only h hcairn hcounts hevc hfree hfuncs hhalves hintake hmay hout hports hregs_guard hregs_port hrings htrust

theorem execPortStopEffect_only {a1}  (h : Only ps s0 s) (hcounts : Part.counts ∈ ps) (hevc : Part.evc ∈ ps) (hfree : Part.free ∈ ps) (hfuncs : Part.funcs ∈ ps) (hhalves : Part.halves ∈ ps) (hintake : Part.intake ∈ ps) (hmay : Part.may ∈ ps) (hout : Part.out ∈ ps) (hports : Part.ports ∈ ps) (hregs_guard : Part.regs .guard ∈ ps) (hregs_port : Part.regs .port ∈ ps) (hrings : Part.rings ∈ ps) : Result.All (Only ps s0) (execPortStopEffect a1 s) := by
  unfold execPortStopEffect
  extract_lets x1
  refine Result.all_ite ?_ ?_
  · refine Result.all_next ?_
    exact h
  · refine Result.all_ite ?_ ?_
    · with_reducible refine finish_only ?_ hevc hfree hfuncs hintake hmay hout hregs_guard
      with_reducible refine State.portEvt_only ?_ hregs_port
      with_reducible exact State.toStopped_only h hcounts hhalves hout hports hregs_port hrings
    · refine Result.all_ite ?_ ?_
      · with_reducible refine finish_only ?_ hevc hfree hfuncs hintake hmay hout hregs_guard
        with_reducible exact State.toStopped_only h hcounts hhalves hout hports hregs_port hrings
      · refine Result.all_next ?_
        exact h

theorem execPortWake_only {a1 a2}  (h : Only ps s0 s) (hcairn : Part.cairn ∈ ps) (hcounts : Part.counts ∈ ps) (hevc : Part.evc ∈ ps) (hfree : Part.free ∈ ps) (hfuncs : Part.funcs ∈ ps) (hhalves : Part.halves ∈ ps) (hintake : Part.intake ∈ ps) (hmay : Part.may ∈ ps) (hout : Part.out ∈ ps) (hports : Part.ports ∈ ps) (hregs_guard : Part.regs .guard ∈ ps) (hregs_port : Part.regs .port ∈ ps) (hrings : Part.rings ∈ ps) (htrust : Part.trust ∈ ps) : Result.All (Only ps s0) (execPortWake a1 a2 s) := by
  unfold execPortWake
  with_reducible exact State.writePortCmd_only h hcairn hcounts hevc hfree hfuncs hhalves hintake hmay hout hports hregs_guard hregs_port hrings htrust

theorem execPpsEdge_only {a1 a2 a3}  (h : Only ps s0 s) (hcounts : Part.counts ∈ ps) (hevc : Part.evc ∈ ps) (hfree : Part.free ∈ ps) (hfuncs : Part.funcs ∈ ps) (hhalves : Part.halves ∈ ps) (hintake : Part.intake ∈ ps) (hmay : Part.may ∈ ps) (hobjs : Part.objs ∈ ps) (hout : Part.out ∈ ps) (hports : Part.ports ∈ ps) (hregs_fn : Part.regs .fn ∈ ps) (hregs_guard : Part.regs .guard ∈ ps) (hrings : Part.rings ∈ ps) (htmu : Part.tmu ∈ ps) : Result.All (Only ps s0) (execPpsEdge a1 a2 a3 s) := by
  unfold execPpsEdge
  extract_lets c1 early2 s3 at4 p5 x6 s7
  have hs3 : Only ps s0 s3 := by
    with_reducible exact State.advance_only h hcounts hfree hfuncs hhalves hobjs hout hports hregs_fn hrings htmu
  clear_value s3
  have hs7 : Only ps s0 s7 := by
    with_reducible exact State.setTmu_only hs3 htmu
  clear_value s7
  refine Result.all_ite ?_ ?_
  · refine Result.all_next ?_
    exact h
  · with_reducible refine finish_only ?_ hevc hfree hfuncs hintake hmay hout hregs_guard
    with_reducible exact State.offerSample_only hs7 htmu

theorem execPtpMessageInterval_only {a1 a2}  (h : Only ps s0 s) (hcounts : Part.counts ∈ ps) (heths : Part.eths ∈ ps) (hevc : Part.evc ∈ ps) (hfree : Part.free ∈ ps) (hfuncs : Part.funcs ∈ ps) (hhalves : Part.halves ∈ ps) (hintake : Part.intake ∈ ps) (hmay : Part.may ∈ ps) (hobjs : Part.objs ∈ ps) (hout : Part.out ∈ ps) (hports : Part.ports ∈ ps) (hptp : Part.ptp ∈ ps) (hregs_fn : Part.regs .fn ∈ ps) (hregs_guard : Part.regs .guard ∈ ps) (hrings : Part.rings ∈ ps) (htmu : Part.tmu ∈ ps) : Result.All (Only ps s0) (execPtpMessageInterval a1 a2 s) := by
  unfold execPtpMessageInterval
  refine Result.all_ite ?_ ?_
  · refine Result.all_next ?_
    exact h
  · extract_lets master1
    split
    · rename_i m2
      refine Result.all_ite ?_ ?_
      · with_reducible refine finish_only ?_ hevc hfree hfuncs hintake hmay hout hregs_guard
        with_reducible refine State.ptpSend_only ?_ heths hfree
        with_reducible exact State.ptpTurn_only h hcounts hfree hfuncs hhalves hobjs hout hports hptp hregs_fn hrings htmu
      · refine Result.all_next ?_
        exact h
    · rename_i m3
      with_reducible refine finish_only ?_ hevc hfree hfuncs hintake hmay hout hregs_guard
      with_reducible refine State.ptpSend_only ?_ heths hfree
      with_reducible exact State.ptpTurn_only h hcounts hfree hfuncs hhalves hobjs hout hports hptp hregs_fn hrings htmu
    · rename_i m4
      refine Result.all_ite ?_ ?_
      · with_reducible refine finish_only ?_ hevc hfree hfuncs hintake hmay hout hregs_guard
        with_reducible refine State.ptpSend_only ?_ heths hfree
        with_reducible exact State.ptpTurn_only h hcounts hfree hfuncs hhalves hobjs hout hports hptp hregs_fn hrings htmu
      · refine Result.all_next ?_
        exact h

theorem execPtpProfileWrite_only {a1 a2}  (h : Only ps s0 s) (hevc : Part.evc ∈ ps) (hfree : Part.free ∈ ps) (hfuncs : Part.funcs ∈ ps) (hintake : Part.intake ∈ ps) (hmay : Part.may ∈ ps) (hout : Part.out ∈ ps) (hptp : Part.ptp ∈ ps) (hregs_guard : Part.regs .guard ∈ ps) (hregs_ptp : Part.regs .ptp ∈ ps) : Result.All (Only ps s0) (execPtpProfileWrite a1 a2 s) := by
  unfold execPtpProfileWrite
  with_reducible refine State.ownedWrite_only ?_ ?_ hevc hfree hfuncs hintake hmay hout hregs_guard
  · exact h
  · intro s1 k2
    with_reducible exact State.writePtpg_only k2 hintake hptp hregs_ptp

theorem execPulseEdge_only {a1}  (h : Only ps s0 s) (hcounts : Part.counts ∈ ps) (hevc : Part.evc ∈ ps) (hfree : Part.free ∈ ps) (hfuncs : Part.funcs ∈ ps) (hhalves : Part.halves ∈ ps) (hintake : Part.intake ∈ ps) (hmay : Part.may ∈ ps) (hobjs : Part.objs ∈ ps) (hout : Part.out ∈ ps) (hports : Part.ports ∈ ps) (hregs_fn : Part.regs .fn ∈ ps) (hregs_guard : Part.regs .guard ∈ ps) (hregs_out : Part.regs .out ∈ ps) (hregs_tmu : Part.regs .tmu ∈ ps) (hrings : Part.rings ∈ ps) (htmu : Part.tmu ∈ ps) : Result.All (Only ps s0) (execPulseEdge a1 s) := by
  unfold execPulseEdge
  extract_lets p1
  split
  · rename_i x2 l3 heq4
    with_reducible refine finish_only ?_ hevc hfree hfuncs hintake hmay hout hregs_guard
    with_reducible exact State.pulseEnds_only h hcounts hfree hfuncs hhalves hobjs hout hports hregs_fn hregs_out hregs_tmu hrings htmu
  · rename_i x5 heq6
    refine Result.all_ite ?_ ?_
    · with_reducible refine finish_only ?_ hevc hfree hfuncs hintake hmay hout hregs_guard
      with_reducible exact State.pulseStarts_only h hcounts hfree hfuncs hhalves hobjs hout hports hregs_fn hrings htmu
    · refine Result.all_next ?_
      exact h

theorem execRaiseConfirmed_only  (h : Only ps s0 s) (hcairn : Part.cairn ∈ ps) (hcounts : Part.counts ∈ ps) (hevc : Part.evc ∈ ps) (hfree : Part.free ∈ ps) (hfuncs : Part.funcs ∈ ps) (hhalves : Part.halves ∈ ps) (hintake : Part.intake ∈ ps) (hmay : Part.may ∈ ps) (hobjs : Part.objs ∈ ps) (hout : Part.out ∈ ps) (hports : Part.ports ∈ ps) (hregs_fn : Part.regs .fn ∈ ps) (hregs_guard : Part.regs .guard ∈ ps) (hrings : Part.rings ∈ ps) (htmu : Part.tmu ∈ ps) : Result.All (Only ps s0) (execRaiseConfirmed s) := by
  unfold execRaiseConfirmed
  refine Result.all_ite ?_ ?_
  · extract_lets s1 x2
    have hs1 : Only ps s0 s1 := by
      with_reducible exact State.waitFrom_only h hcounts hfree hfuncs hhalves hobjs hout hports hregs_fn hrings htmu
    clear_value s1
    with_reducible refine finish_only ?_ hevc hfree hfuncs hintake hmay hout hregs_guard
    with_reducible refine State.crnEvent_only ?_ hcairn hregs_fn
    with_reducible exact State.modeGoes_only hs1 hcairn hintake
  · refine Result.all_next ?_
    exact h

theorem execRaiseTimeout_only  (h : Only ps s0 s) (hcairn : Part.cairn ∈ ps) (hcounts : Part.counts ∈ ps) (hevc : Part.evc ∈ ps) (hfree : Part.free ∈ ps) (hfuncs : Part.funcs ∈ ps) (hhalves : Part.halves ∈ ps) (hintake : Part.intake ∈ ps) (hmay : Part.may ∈ ps) (hobjs : Part.objs ∈ ps) (hout : Part.out ∈ ps) (hports : Part.ports ∈ ps) (hregs_dev : Part.regs .dev ∈ ps) (hregs_fn : Part.regs .fn ∈ ps) (hregs_guard : Part.regs .guard ∈ ps) (hrings : Part.rings ∈ ps) (htmu : Part.tmu ∈ ps) : Result.All (Only ps s0) (execRaiseTimeout s) := by
  unfold execRaiseTimeout
  refine Result.all_ite ?_ ?_
  · refine Result.all_next ?_
    exact h
  · extract_lets s1 x2 s3
    have hs1 : Only ps s0 s1 := by
      with_reducible exact State.waitFrom_only h hcounts hfree hfuncs hhalves hobjs hout hports hregs_fn hrings htmu
    clear_value s1
    have hs3 : Only ps s0 s3 := by
      with_reducible exact State.modeGoes_only hs1 hcairn hintake
    clear_value s3
    with_reducible refine finish_only ?_ hevc hfree hfuncs hintake hmay hout hregs_guard
    with_reducible refine State.crnEvent_only ?_ hcairn hregs_fn
    exact State.setRf_only hs3 hregs_dev

theorem execReclaim_only {a1 a2}  (h : Only ps s0 s) (hcairn : Part.cairn ∈ ps) (hcounts : Part.counts ∈ ps) (heths : Part.eths ∈ ps) (hevc : Part.evc ∈ ps) (hflt : Part.flt ∈ ps) (hfree : Part.free ∈ ps) (hfuncs : Part.funcs ∈ ps) (hgroups : Part.groups ∈ ps) (hhalves : Part.halves ∈ ps) (hintake : Part.intake ∈ ps) (hmay : Part.may ∈ ps) (hobjs : Part.objs ∈ ps) (hout : Part.out ∈ ps) (hpartition : Part.partition ∈ ps) (hports : Part.ports ∈ ps) (hregs_ep : Part.regs .ep ∈ ps) (hregs_flt : Part.regs .flt ∈ ps) (hregs_fn : Part.regs .fn ∈ ps) (hregs_grp : Part.regs .grp ∈ ps) (hregs_guard : Part.regs .guard ∈ ps) (hregs_port : Part.regs .port ∈ ps) (hregs_ring : Part.regs .ring ∈ ps) (hrings : Part.rings ∈ ps) (hspur : Part.spur ∈ ps) (htarn : Part.tarn ∈ ps) (htrust : Part.trust ∈ ps) (hunits : Part.units ∈ ps) : Result.All (Only ps s0) (execReclaim a1 a2 s) := by
  unfold execReclaim
  with_reducible exact State.submit_only h hcairn hcounts heths hevc hflt hfree hfuncs hgroups hhalves hintake hmay hobjs hout hpartition hports hregs_ep hregs_flt hregs_fn hregs_grp hregs_guard hregs_port hregs_ring hrings hspur htarn htrust hunits

theorem execRecordComplete_only  (h : Only ps s0 s) (hcairn : Part.cairn ∈ ps) (hcounts : Part.counts ∈ ps) (heths : Part.eths ∈ ps) (hevc : Part.evc ∈ ps) (hfab : Part.fab ∈ ps) (hfree : Part.free ∈ ps) (hfuncs : Part.funcs ∈ ps) (hgroups : Part.groups ∈ ps) (hhalves : Part.halves ∈ ps) (hintake : Part.intake ∈ ps) (hmay : Part.may ∈ ps) (hobjs : Part.objs ∈ ps) (hout : Part.out ∈ ps) (hports : Part.ports ∈ ps) (hregs_ep : Part.regs .ep ∈ ps) (hregs_fn : Part.regs .fn ∈ ps) (hregs_grp : Part.regs .grp ∈ ps) (hregs_guard : Part.regs .guard ∈ ps) (hregs_port : Part.regs .port ∈ ps) (hregs_ring : Part.regs .ring ∈ ps) (hrings : Part.rings ∈ ps) (hroutes : Part.routes ∈ ps) (htrust : Part.trust ∈ ps) : Result.All (Only ps s0) (execRecordComplete s) := by
  unfold execRecordComplete
  dsimp only
  split
  · rename_i x1 heq2
    refine Result.all_next ?_
    exact h
  · rename_i x3 a4 heq5
    refine Result.all_ite ?_ ?_
    · refine Result.all_next ?_
      exact h
    · with_reducible refine finish_only ?_ hevc hfree hfuncs hintake hmay hout hregs_guard
      refine Only.foldl ?_ ?_
      · with_reducible refine State.record_only ?_ hintake
        refine (h.belay (.inl ⟨rfl, rfl, rfl⟩) (.inl rfl) (.inl rfl) (.inr htrust))
      · intro s6 x7 k8
        with_reducible exact State.actHeld_only k8 hcairn hcounts heths hfab hfree hfuncs hgroups hhalves hintake hobjs hout hports hregs_ep hregs_fn hregs_grp hregs_port hregs_ring hrings hroutes htrust

theorem execRecoverySeqEnd_only {a1}  (h : Only ps s0 s) (hcounts : Part.counts ∈ ps) (hevc : Part.evc ∈ ps) (hfree : Part.free ∈ ps) (hfuncs : Part.funcs ∈ ps) (hhalves : Part.halves ∈ ps) (hintake : Part.intake ∈ ps) (hmay : Part.may ∈ ps) (hobjs : Part.objs ∈ ps) (hout : Part.out ∈ ps) (hports : Part.ports ∈ ps) (hregs_fn : Part.regs .fn ∈ ps) (hregs_guard : Part.regs .guard ∈ ps) (hregs_port : Part.regs .port ∈ ps) (hrings : Part.rings ∈ ps) (htmu : Part.tmu ∈ ps) : Result.All (Only ps s0) (execRecoverySeqEnd a1 s) := by
  unfold execRecoverySeqEnd
  refine Result.all_ite ?_ ?_
  · extract_lets s1 x2 y3 s4
    have hs1 : Only ps s0 s1 := by
      with_reducible exact State.waitFrom_only h hcounts hfree hfuncs hhalves hobjs hout hports hregs_fn hrings htmu
    clear_value s1
    have hs4 : Only ps s0 s4 := by
      refine Only.ite ?_ ?_
      · with_reducible exact State.showPort_only hs1 hports hregs_port
      · with_reducible exact State.setPort_only hs1 hports
    clear_value s4
    with_reducible refine finish_only ?_ hevc hfree hfuncs hintake hmay hout hregs_guard
    with_reducible exact State.holdArrives_only hs4 hcounts hhalves hout hports hregs_port hrings
  · refine Result.all_next ?_
    exact h

theorem execRef25Lock_only  (h : Only ps s0 s) (hevc : Part.evc ∈ ps) (hfree : Part.free ∈ ps) (hfuncs : Part.funcs ∈ ps) (hintake : Part.intake ∈ ps) (hmay : Part.may ∈ ps) (hout : Part.out ∈ ps) (hregs_guard : Part.regs .guard ∈ ps) (hregs_tmu : Part.regs .tmu ∈ ps) (htmu : Part.tmu ∈ ps) : Result.All (Only ps s0) (execRef25Lock s) := by
  unfold execRef25Lock
  refine Result.all_ite ?_ ?_
  · refine Result.all_next ?_
    exact h
  · extract_lets back1 x2 s3
    have hs3 : Only ps s0 s3 := by
      with_reducible exact State.setTmu_only h htmu
    clear_value s3
    with_reducible refine finish_only ?_ hevc hfree hfuncs hintake hmay hout hregs_guard
    refine Only.ite ?_ ?_
    · exact State.raise_only hs3 hregs_tmu
    · exact hs3

theorem execRef25Loss_only  (h : Only ps s0 s) (hevc : Part.evc ∈ ps) (hfree : Part.free ∈ ps) (hfuncs : Part.funcs ∈ ps) (hintake : Part.intake ∈ ps) (hmay : Part.may ∈ ps) (hout : Part.out ∈ ps) (hregs_guard : Part.regs .guard ∈ ps) (hregs_tmu : Part.regs .tmu ∈ ps) (htmu : Part.tmu ∈ ps) : Result.All (Only ps s0) (execRef25Loss s) := by
  unfold execRef25Loss
  refine Result.all_ite ?_ ?_
  · with_reducible refine finish_only ?_ hevc hfree hfuncs hintake hmay hout hregs_guard
    refine State.raise_only ?_ hregs_tmu
    extract_lets x1
    with_reducible exact State.setTmu_only h htmu
  · refine Result.all_next ?_
    exact h

theorem execRefBackupTimeout_only {a1}  (h : Only ps s0 s) (hcounts : Part.counts ∈ ps) (hevc : Part.evc ∈ ps) (hfree : Part.free ∈ ps) (hfuncs : Part.funcs ∈ ps) (hgroups : Part.groups ∈ ps) (hhalves : Part.halves ∈ ps) (hintake : Part.intake ∈ ps) (hmay : Part.may ∈ ps) (hobjs : Part.objs ∈ ps) (hout : Part.out ∈ ps) (hports : Part.ports ∈ ps) (hregs_fn : Part.regs .fn ∈ ps) (hregs_guard : Part.regs .guard ∈ ps) (hrings : Part.rings ∈ ps) (htmu : Part.tmu ∈ ps) : Result.All (Only ps s0) (execRefBackupTimeout a1 s) := by
  unfold execRefBackupTimeout
  extract_lets g1
  refine Result.all_ite ?_ ?_
  · with_reducible refine finish_only ?_ hevc hfree hfuncs hintake hmay hout hregs_guard
    with_reducible exact State.sendRef_only h hcounts hfree hfuncs hgroups hhalves hobjs hout hports hregs_fn hrings htmu
  · refine Result.all_next ?_
    exact h

theorem execRefHoldoverExpiry_only  (h : Only ps s0 s) (hcounts : Part.counts ∈ ps) (hevc : Part.evc ∈ ps) (hfree : Part.free ∈ ps) (hfuncs : Part.funcs ∈ ps) (hgroups : Part.groups ∈ ps) (hhalves : Part.halves ∈ ps) (hintake : Part.intake ∈ ps) (hmay : Part.may ∈ ps) (hobjs : Part.objs ∈ ps) (hout : Part.out ∈ ps) (hpairs : Part.pairs ∈ ps) (hports : Part.ports ∈ ps) (hregs_fn : Part.regs .fn ∈ ps) (hregs_grp : Part.regs .grp ∈ ps) (hregs_guard : Part.regs .guard ∈ ps) (hregs_port : Part.regs .port ∈ ps) (hrings : Part.rings ∈ ps) (htmu : Part.tmu ∈ ps) : Result.All (Only ps s0) (execRefHoldoverExpiry s) := by
  unfold execRefHoldoverExpiry
  refine Result.all_ite ?_ ?_
  · refine Result.all_next ?_
    exact h
  · extract_lets s1 x2 s3 s4
    have hs1 : Only ps s0 s1 := by
      with_reducible exact State.waitFrom_only h hcounts hfree hfuncs hhalves hobjs hout hports hregs_fn hrings htmu
    clear_value s1
    have hs3 : Only ps s0 s3 := by
      refine (hs1.tmu htmu)
    clear_value s3
    have hs4 : Only ps s0 s4 := by
      refine Only.foldl ?_ ?_
      · exact hs3
      · intro s5 x6 k7
        refine Only.ite ?_ ?_
        · exact k7
        · extract_lets x8 s9 x10
          have hs9 : Only ps s0 s9 := by
            with_reducible refine State.setGroup_only ?_ hgroups
            with_reducible exact State.withdrawPairs_only k7 hgroups hpairs hregs_grp hregs_port
          clear_value s9
          with_reducible exact State.setPort_only hs9 hports
    clear_value s4
    with_reducible refine finish_only ?_ hevc hfree hfuncs hintake hmay hout hregs_guard
    refine Only.foldl ?_ ?_
    · exact hs4
    · intro s11 x12 k13
      with_reducible exact State.refLost_only k13 hcounts hhalves hout hports hregs_port hrings

theorem execRejoinSeqEnd_only {a1 a2}  (h : Only ps s0 s) (hcounts : Part.counts ∈ ps) (hevc : Part.evc ∈ ps) (hfree : Part.free ∈ ps) (hfuncs : Part.funcs ∈ ps) (hgroups : Part.groups ∈ ps) (hhalves : Part.halves ∈ ps) (hintake : Part.intake ∈ ps) (hmay : Part.may ∈ ps) (hobjs : Part.objs ∈ ps) (hout : Part.out ∈ ps) (hports : Part.ports ∈ ps) (hregs_fn : Part.regs .fn ∈ ps) (hregs_grp : Part.regs .grp ∈ ps) (hregs_guard : Part.regs .guard ∈ ps) (hregs_port : Part.regs .port ∈ ps) (hrings : Part.rings ∈ ps) (htmu : Part.tmu ∈ ps) : Result.All (Only ps s0) (execRejoinSeqEnd a1 a2 s) := by
  unfold execRejoinSeqEnd
  extract_lets x1 s2 x3
  have hs2 : Only ps s0 s2 := by
    with_reducible exact State.waitFrom_only h hcounts hfree hfuncs hhalves hobjs hout hports hregs_fn hrings htmu
  clear_value s2
  refine Result.all_ite ?_ ?_
  · with_reducible refine finish_only ?_ hevc hfree hfuncs hintake hmay hout hregs_guard
    with_reducible refine State.joinBranch_only ?_ hcounts hgroups hhalves hout hports hregs_grp hregs_port hrings
    with_reducible exact State.setBranch_only hs2 hgroups
  · refine Result.all_next ?_
    exact h

theorem execReload_only {a1 a2}  (h : Only ps s0 s) (hevc : Part.evc ∈ ps) (hfree : Part.free ∈ ps) (hfuncs : Part.funcs ∈ ps) (hgroups : Part.groups ∈ ps) (hintake : Part.intake ∈ ps) (hmay : Part.may ∈ ps) (hout : Part.out ∈ ps) (hregs_dev : Part.regs .dev ∈ ps) (hregs_guard : Part.regs .guard ∈ ps) (hspur : Part.spur ∈ ps) : Result.All (Only ps s0) (execReload a1 a2 s) := by
  unfold execReload
  with_reducible exact State.secmdRequest_only h hevc hfree hfuncs hgroups hintake hmay hout hregs_dev hregs_guard hspur

theorem execRetest_only {a1 a2}  (h : Only ps s0 s) (hevc : Part.evc ∈ ps) (hfree : Part.free ∈ ps) (hfuncs : Part.funcs ∈ ps) (hgroups : Part.groups ∈ ps) (hintake : Part.intake ∈ ps) (hmay : Part.may ∈ ps) (hout : Part.out ∈ ps) (hregs_dev : Part.regs .dev ∈ ps) (hregs_guard : Part.regs .guard ∈ ps) (hspur : Part.spur ∈ ps) : Result.All (Only ps s0) (execRetest a1 a2 s) := by
  unfold execRetest
  with_reducible exact State.secmdRequest_only h hevc hfree hfuncs hgroups hintake hmay hout hregs_dev hregs_guard hspur

theorem execRetire_only {a1 a2 a3 a4}  (h : Only ps s0 s) (hcairn : Part.cairn ∈ ps) (hcounts : Part.counts ∈ ps) (heths : Part.eths ∈ ps) (hevc : Part.evc ∈ ps) (hfab : Part.fab ∈ ps) (hflt : Part.flt ∈ ps) (hfree : Part.free ∈ ps) (hfuncs : Part.funcs ∈ ps) (hgroups : Part.groups ∈ ps) (hhalves : Part.halves ∈ ps) (hintake : Part.intake ∈ ps) (hkeys : Part.keys ∈ ps) (hlinks : Part.links ∈ ps) (hlog : Part.log ∈ ps) (hmay : Part.may ∈ ps) (hobjs : Part.objs ∈ ps) (hotp : Part.otp ∈ ps) (hout : Part.out ∈ ps) (hpartition : Part.partition ∈ ps) (hports : Part.ports ∈ ps) (hregs_fab : Part.regs .fab ∈ ps) (hregs_flt : Part.regs .flt ∈ ps) (hregs_fn : Part.regs .fn ∈ ps) (hregs_grp : Part.regs .grp ∈ ps) (hregs_guard : Part.regs .guard ∈ ps) (hregs_port : Part.regs .port ∈ ps) (hregs_ring : Part.regs .ring ∈ ps) (hregs_tmu : Part.regs .tmu ∈ ps) (hrings : Part.rings ∈ ps) (hroutes : Part.routes ∈ ps) (hrxq : Part.rxq ∈ ps) (hspur : Part.spur ∈ ps) (htarn : Part.tarn ∈ ps) (htrust : Part.trust ∈ ps) (hunits : Part.units ∈ ps) : Result.All (Only ps s0) (execRetire a1 a2 a3 a4 s) := by
  unfold execRetire
  refine Result.all_ite ?_ ?_
  · refine Result.all_next ?_
    exact h
  · refine Result.all_ite ?_ ?_
    · exact trivial
    · with_reducible refine finish_only ?_ hevc hfree hfuncs hintake hmay hout hregs_guard
      with_reducible refine State.command_only ?_ ?_ hcounts hhalves hout hrings
      · exact h
      · intro s1 x2 k3
        with_reducible exact State.retireOp_only k3 hcairn hcounts heths hfab hflt hfuncs hgroups hhalves hintake hkeys hlinks hlog hobjs hotp hout hpartition hports hregs_fab hregs_flt hregs_fn hregs_grp hregs_port hregs_ring hregs_tmu hrings hroutes hrxq hspur htarn htrust hunits

theorem execRingDisable_only {a1 a2 a3}  (h : Only ps s0 s) (hcairn : Part.cairn ∈ ps) (hcounts : Part.counts ∈ ps) (heths : Part.eths ∈ ps) (hevc : Part.evc ∈ ps) (hfree : Part.free ∈ ps) (hfuncs : Part.funcs ∈ ps) (hhalves : Part.halves ∈ ps) (hintake : Part.intake ∈ ps) (hmay : Part.may ∈ ps) (hobjs : Part.objs ∈ ps) (hout : Part.out ∈ ps) (hports : Part.ports ∈ ps) (hregs_fn : Part.regs .fn ∈ ps) (hregs_guard : Part.regs .guard ∈ ps) (hregs_ring : Part.regs .ring ∈ ps) (hrings : Part.rings ∈ ps) (htrust : Part.trust ∈ ps) : Result.All (Only ps s0) (execRingDisable a1 a2 a3 s) := by
  unfold execRingDisable
  with_reducible exact State.ringRequest_only h hcairn hcounts heths hevc hfree hfuncs hhalves hintake hmay hobjs hout hports hregs_fn hregs_guard hregs_ring hrings htrust

theorem execRingDisableDone_only {a1 a2}  (h : Only ps s0 s) (hcairn : Part.cairn ∈ ps) (hcounts : Part.counts ∈ ps) (heths : Part.eths ∈ ps) (hevc : Part.evc ∈ ps) (hfree : Part.free ∈ ps) (hfuncs : Part.funcs ∈ ps) (hhalves : Part.halves ∈ ps) (hintake : Part.intake ∈ ps) (hmay : Part.may ∈ ps) (hobjs : Part.objs ∈ ps) (hout : Part.out ∈ ps) (hports : Part.ports ∈ ps) (hregs_fn : Part.regs .fn ∈ ps) (hregs_guard : Part.regs .guard ∈ ps) (hregs_ring : Part.regs .ring ∈ ps) (hrings : Part.rings ∈ ps) (htrust : Part.trust ∈ ps) : Result.All (Only ps s0) (execRingDisableDone a1 a2 s) := by
  unfold execRingDisableDone
  extract_lets i1 x2
  refine Result.all_ite ?_ ?_
  · with_reducible refine finish_only ?_ hevc hfree hfuncs hintake hmay hout hregs_guard
    with_reducible refine State.closeCqs_only ?_ hcairn hcounts heths hfree hfuncs hhalves hobjs hout hports hregs_fn hregs_ring hrings htrust
    with_reducible exact State.setRing_only h hrings
  · refine Result.all_next ?_
    exact h

theorem execRingEnable_only {a1 a2 a3}  (h : Only ps s0 s) (hcairn : Part.cairn ∈ ps) (hcounts : Part.counts ∈ ps) (heths : Part.eths ∈ ps) (hevc : Part.evc ∈ ps) (hfree : Part.free ∈ ps) (hfuncs : Part.funcs ∈ ps) (hhalves : Part.halves ∈ ps) (hintake : Part.intake ∈ ps) (hmay : Part.may ∈ ps) (hobjs : Part.objs ∈ ps) (hout : Part.out ∈ ps) (hports : Part.ports ∈ ps) (hregs_fn : Part.regs .fn ∈ ps) (hregs_guard : Part.regs .guard ∈ ps) (hregs_ring : Part.regs .ring ∈ ps) (hrings : Part.rings ∈ ps) (htrust : Part.trust ∈ ps) : Result.All (Only ps s0) (execRingEnable a1 a2 a3 s) := by
  unfold execRingEnable
  with_reducible exact State.ringRequest_only h hcairn hcounts heths hevc hfree hfuncs hhalves hintake hmay hobjs hout hports hregs_fn hregs_guard hregs_ring hrings htrust

theorem execRingPoll_only {a1 a2 a3}  (h : Only ps s0 s) (hcairn : Part.cairn ∈ ps) (hcounts : Part.counts ∈ ps) (heths : Part.eths ∈ ps) (hevc : Part.evc ∈ ps) (hfree : Part.free ∈ ps) (hfuncs : Part.funcs ∈ ps) (hhalves : Part.halves ∈ ps) (hintake : Part.intake ∈ ps) (hmay : Part.may ∈ ps) (hobjs : Part.objs ∈ ps) (hout : Part.out ∈ ps) (hports : Part.ports ∈ ps) (hregs_fn : Part.regs .fn ∈ ps) (hregs_guard : Part.regs .guard ∈ ps) (hregs_ring : Part.regs .ring ∈ ps) (hrings : Part.rings ∈ ps) (htmu : Part.tmu ∈ ps) (htrust : Part.trust ∈ ps) : Result.All (Only ps s0) (execRingPoll a1 a2 a3 s) := by
  unfold execRingPoll
  extract_lets i1 t2 s3 x4
  have hs3 : Only ps s0 s3 := by
    with_reducible exact State.waitFrom_only h hcounts hfree hfuncs hhalves hobjs hout hports hregs_fn hrings htmu
  clear_value s3
  refine Result.all_ite ?_ ?_
  · with_reducible refine finish_only ?_ hevc hfree hfuncs hintake hmay hout hregs_guard
    with_reducible refine State.readIndex_only ?_ hcairn hcounts heths hfree hfuncs hhalves hintake hobjs hout hports hregs_fn hregs_ring hrings htrust
    with_reducible exact State.setRing_only hs3 hrings
  · refine Result.all_next ?_
    exact h

theorem execRlAligned_only {a1}  (h : Only ps s0 s) (hevc : Part.evc ∈ ps) (hfree : Part.free ∈ ps) (hfuncs : Part.funcs ∈ ps) (hintake : Part.intake ∈ ps) (hlinks : Part.links ∈ ps) (hmay : Part.may ∈ ps) (hout : Part.out ∈ ps) (hregs_guard : Part.regs .guard ∈ ps) : Result.All (Only ps s0) (execRlAligned a1 s) := by
  unfold execRlAligned
  extract_lets l1 s2 s3
  have hs2 : Only ps s0 s2 := by
    with_reducible exact State.setLink_only h hlinks
  clear_value s2
  have hs3 : Only ps s0 s3 := by
    refine Only.foldl ?_ ?_
    · exact hs2
    · intro s4 x5 k6
      with_reducible exact State.reportCredit_only k6 hout
  clear_value s3
  refine Result.all_ite ?_ ?_
  · refine Result.all_next ?_
    exact h
  · with_reducible refine finish_only ?_ hevc hfree hfuncs hintake hmay hout hregs_guard
    refine Only.ite ?_ ?_
    · with_reducible exact State.enterKeying_only hs3 hfree hlinks
    · exact hs3

theorem execRlEnable_only {a1 a2 a3}  (h : Only ps s0 s) (hcounts : Part.counts ∈ ps) (hevc : Part.evc ∈ ps) (hfab : Part.fab ∈ ps) (hfree : Part.free ∈ ps) (hfuncs : Part.funcs ∈ ps) (hhalves : Part.halves ∈ ps) (hintake : Part.intake ∈ ps) (hkeys : Part.keys ∈ ps) (hlinks : Part.links ∈ ps) (hmay : Part.may ∈ ps) (hout : Part.out ∈ ps) (hregs_fab : Part.regs .fab ∈ ps) (hregs_fn : Part.regs .fn ∈ ps) (hregs_guard : Part.regs .guard ∈ ps) (hregs_link : Part.regs .link ∈ ps) (hregs_tmu : Part.regs .tmu ∈ ps) : Result.All (Only ps s0) (execRlEnable a1 a2 a3 s) := by
  unfold execRlEnable
  with_reducible refine State.ownedWrite_only ?_ ?_ hevc hfree hfuncs hintake hmay hout hregs_guard
  · exact h
  · intro s1 k2
    with_reducible exact State.writeRlCfg_only k2 hcounts hfab hhalves hintake hkeys hlinks hout hregs_fab hregs_fn hregs_link hregs_tmu

theorem execRlFault_only {a1 a2}  (h : Only ps s0 s) (hcounts : Part.counts ∈ ps) (hevc : Part.evc ∈ ps) (hfab : Part.fab ∈ ps) (hfree : Part.free ∈ ps) (hfuncs : Part.funcs ∈ ps) (hhalves : Part.halves ∈ ps) (hintake : Part.intake ∈ ps) (hkeys : Part.keys ∈ ps) (hlinks : Part.links ∈ ps) (hmay : Part.may ∈ ps) (hout : Part.out ∈ ps) (hregs_fab : Part.regs .fab ∈ ps) (hregs_fn : Part.regs .fn ∈ ps) (hregs_guard : Part.regs .guard ∈ ps) (hregs_tmu : Part.regs .tmu ∈ ps) : Result.All (Only ps s0) (execRlFault a1 a2 s) := by
  unfold execRlFault
  extract_lets l1
  refine Result.all_ite ?_ ?_
  · refine Result.all_next ?_
    exact h
  · with_reducible refine finish_only ?_ hevc hfree hfuncs hintake hmay hout hregs_guard
    with_reducible refine State.linkDown_only ?_ hcounts hfab hhalves hkeys hlinks hout hregs_fab hregs_fn hregs_tmu
    with_reducible exact State.setLink_only h hlinks

theorem execRlFrameDiscard_only {a1 a2 a3 a4}  (h : Only ps s0 s) (hcounts : Part.counts ∈ ps) (hevc : Part.evc ∈ ps) (hfree : Part.free ∈ ps) (hfuncs : Part.funcs ∈ ps) (hhalves : Part.halves ∈ ps) (hintake : Part.intake ∈ ps) (hlinks : Part.links ∈ ps) (hmay : Part.may ∈ ps) (hout : Part.out ∈ ps) (hregs_guard : Part.regs .guard ∈ ps) : Result.All (Only ps s0) (execRlFrameDiscard a1 a2 a3 a4 s) := by
  unfold execRlFrameDiscard
  refine Result.all_ite ?_ ?_
  · extract_lets s1
    have hs1 : Only ps s0 s1 := by
      unfold s1
      split
      · rename_i x2 f3 heq4
        refine Only.ite ?_ ?_
        · with_reducible exact State.cutThrough_only h hcounts hhalves hlinks hout
        · exact h
      · rename_i x5 heq6
        exact h
    clear_value s1
    with_reducible refine finish_only ?_ hevc hfree hfuncs hintake hmay hout hregs_guard
    with_reducible refine State.returnCredit_only ?_ hlinks hout
    with_reducible exact State.countLink_only hs1 hcounts hhalves
  · refine Result.all_next ?_
    exact h

theorem execRmaEnter_only {a1 a2 a3 a4}  (h : Only ps s0 s) (hcairn : Part.cairn ∈ ps) (hcounts : Part.counts ∈ ps) (heths : Part.eths ∈ ps) (hevc : Part.evc ∈ ps) (hfab : Part.fab ∈ ps) (hflt : Part.flt ∈ ps) (hfree : Part.free ∈ ps) (hfuncs : Part.funcs ∈ ps) (hgroups : Part.groups ∈ ps) (hhalves : Part.halves ∈ ps) (hintake : Part.intake ∈ ps) (hkeys : Part.keys ∈ ps) (hlinks : Part.links ∈ ps) (hlog : Part.log ∈ ps) (hmay : Part.may ∈ ps) (hobjs : Part.objs ∈ ps) (hotp : Part.otp ∈ ps) (hout : Part.out ∈ ps) (hpartition : Part.partition ∈ ps) (hports : Part.ports ∈ ps) (hregs_fab : Part.regs .fab ∈ ps) (hregs_flt : Part.regs .flt ∈ ps) (hregs_fn : Part.regs .fn ∈ ps) (hregs_grp : Part.regs .grp ∈ ps) (hregs_guard : Part.regs .guard ∈ ps) (hregs_port : Part.regs .port ∈ ps) (hregs_ring : Part.regs .ring ∈ ps) (hregs_tmu : Part.regs .tmu ∈ ps) (hrings : Part.rings ∈ ps) (hroutes : Part.routes ∈ ps) (hrxq : Part.rxq ∈ ps) (hspur : Part.spur ∈ ps) (htarn : Part.tarn ∈ ps) (htrust : Part.trust ∈ ps) (hunits : Part.units ∈ ps) : Result.All (Only ps s0) (execRmaEnter a1 a2 a3 a4 s) := by
  unfold execRmaEnter
  refine Result.all_ite ?_ ?_
  · refine Result.all_next ?_
    exact h
  · refine Result.all_ite ?_ ?_
    · exact trivial
    · with_reducible refine finish_only ?_ hevc hfree hfuncs hintake hmay hout hregs_guard
      with_reducible refine State.command_only ?_ ?_ hcounts hhalves hout hrings
      · exact h
      · intro s1 x2 k3
        with_reducible refine State.signedOp_only ?_ ?_ hcounts hhalves hout hrings htrust
        · exact k3
        · intro s4 k5
          with_reducible exact State.killDus_only k5 hcairn hcounts heths hfab hflt hfuncs hgroups hhalves hintake hkeys hlinks hlog hobjs hotp hout hpartition hports hregs_fab hregs_flt hregs_fn hregs_grp hregs_port hregs_ring hregs_tmu hrings hroutes hrxq hspur htarn htrust hunits

theorem execRouteAssign_only {a1 a2}  (h : Only ps s0 s) (hcairn : Part.cairn ∈ ps) (hcounts : Part.counts ∈ ps) (heths : Part.eths ∈ ps) (hevc : Part.evc ∈ ps) (hflt : Part.flt ∈ ps) (hfree : Part.free ∈ ps) (hfuncs : Part.funcs ∈ ps) (hgroups : Part.groups ∈ ps) (hhalves : Part.halves ∈ ps) (hintake : Part.intake ∈ ps) (hmay : Part.may ∈ ps) (hobjs : Part.objs ∈ ps) (hout : Part.out ∈ ps) (hpartition : Part.partition ∈ ps) (hports : Part.ports ∈ ps) (hregs_ep : Part.regs .ep ∈ ps) (hregs_flt : Part.regs .flt ∈ ps) (hregs_fn : Part.regs .fn ∈ ps) (hregs_grp : Part.regs .grp ∈ ps) (hregs_guard : Part.regs .guard ∈ ps) (hregs_port : Part.regs .port ∈ ps) (hregs_ring : Part.regs .ring ∈ ps) (hrings : Part.rings ∈ ps) (hspur : Part.spur ∈ ps) (htarn : Part.tarn ∈ ps) (htrust : Part.trust ∈ ps) (hunits : Part.units ∈ ps) : Result.All (Only ps s0) (execRouteAssign a1 a2 s) := by
  unfold execRouteAssign
  with_reducible exact State.submit_only h hcairn hcounts heths hevc hflt hfree hfuncs hgroups hhalves hintake hmay hobjs hout hpartition hports hregs_ep hregs_flt hregs_fn hregs_grp hregs_guard hregs_port hregs_ring hrings hspur htarn htrust hunits

theorem execRouteRecompute_only  (h : Only ps s0 s) (hevc : Part.evc ∈ ps) (hfree : Part.free ∈ ps) (hfuncs : Part.funcs ∈ ps) (hintake : Part.intake ∈ ps) (hmay : Part.may ∈ ps) (hout : Part.out ∈ ps) (hregs_guard : Part.regs .guard ∈ ps) (hroutes : Part.routes ∈ ps) : Result.All (Only ps s0) (execRouteRecompute s) := by
  unfold execRouteRecompute
  refine Result.all_ite ?_ ?_
  · refine Result.all_next ?_
    exact h
  · with_reducible refine finish_only ?_ hevc hfree hfuncs hintake hmay hout hregs_guard
    refine Only.foldl ?_ ?_
    · exact h
    · intro s1 x2 k3
      with_reducible exact State.setRoute_only k3 hroutes

theorem execRouted_only {a1 a2}  (h : Only ps s0 s) (hcounts : Part.counts ∈ ps) (heths : Part.eths ∈ ps) (hevc : Part.evc ∈ ps) (hfab : Part.fab ∈ ps) (hfree : Part.free ∈ ps) (hfuncs : Part.funcs ∈ ps) (hhalves : Part.halves ∈ ps) (hintake : Part.intake ∈ ps) (hlinks : Part.links ∈ ps) (hmay : Part.may ∈ ps) (hout : Part.out ∈ ps) (hports : Part.ports ∈ ps) (hregs_guard : Part.regs .guard ∈ ps) (hrings : Part.rings ∈ ps) (hspur : Part.spur ∈ ps) : Result.All (Only ps s0) (execRouted a1 a2 s) := by
  unfold execRouted
  refine Result.all_ite ?_ ?_
  · refine Result.all_next ?_
    exact h
  · with_reducible refine State.rlTake_only ?_ ?_ hcounts hevc hfree hfuncs hhalves hintake hlinks hmay hout hregs_guard
    · exact h
    · intro s1 k2
      with_reducible exact State.routedOp_only k2 hcounts heths hfab hhalves hlinks hout hports hrings hspur

theorem execRtRead_only {a1 a2 a3}  (h : Only ps s0 s) (hcounts : Part.counts ∈ ps) (hevc : Part.evc ∈ ps) (hfree : Part.free ∈ ps) (hfuncs : Part.funcs ∈ ps) (hhalves : Part.halves ∈ ps) (hintake : Part.intake ∈ ps) (hmay : Part.may ∈ ps) (hout : Part.out ∈ ps) (hregs_guard : Part.regs .guard ∈ ps) (hrings : Part.rings ∈ ps) : Result.All (Only ps s0) (execRtRead a1 a2 a3 s) := by
  unfold execRtRead
  refine Result.all_ite ?_ ?_
  · with_reducible refine finish_only ?_ hevc hfree hfuncs hintake hmay hout hregs_guard
    with_reducible refine State.command_only ?_ ?_ hcounts hhalves hout hrings
    · exact h
    · intro s1 x2 k3
      with_reducible exact State.rtReadOp_only k3 hcounts hhalves hout hrings
  · refine Result.all_next ?_
    exact h

theorem execRtWrite_only {a1 a2 a3 a4}  (h : Only ps s0 s) (hcounts : Part.counts ∈ ps) (hevc : Part.evc ∈ ps) (hfab : Part.fab ∈ ps) (hfree : Part.free ∈ ps) (hfuncs : Part.funcs ∈ ps) (hhalves : Part.halves ∈ ps) (hintake : Part.intake ∈ ps) (hmay : Part.may ∈ ps) (hout : Part.out ∈ ps) (hregs_guard : Part.regs .guard ∈ ps) (hrings : Part.rings ∈ ps) (hroutes : Part.routes ∈ ps) (htrust : Part.trust ∈ ps) : Result.All (Only ps s0) (execRtWrite a1 a2 a3 a4 s) := by
  unfold execRtWrite
  refine Result.all_ite ?_ ?_
  · refine Result.all_next ?_
    exact h
  · refine Result.all_ite ?_ ?_
    · exact trivial
    · with_reducible refine finish_only ?_ hevc hfree hfuncs hintake hmay hout hregs_guard
      with_reducible refine State.command_only ?_ ?_ hcounts hhalves hout hrings
      · exact h
      · intro s1 x2 k3
        with_reducible exact State.rtWriteOp_only k3 hcounts hfab hhalves hout hrings hroutes htrust

theorem execRxBuf_only {a1 a2 a3}  (h : Only ps s0 s) (hcounts : Part.counts ∈ ps) (heths : Part.eths ∈ ps) (hevc : Part.evc ∈ ps) (hfree : Part.free ∈ ps) (hfuncs : Part.funcs ∈ ps) (hhalves : Part.halves ∈ ps) (hintake : Part.intake ∈ ps) (hmay : Part.may ∈ ps) (hout : Part.out ∈ ps) (hports : Part.ports ∈ ps) (hregs_guard : Part.regs .guard ∈ ps) (hrings : Part.rings ∈ ps) : Result.All (Only ps s0) (execRxBuf a1 a2 a3 s) := by
  unfold execRxBuf
  refine Result.all_ite ?_ ?_
  · extract_lets s1 i2 x3
    have hs1 : Only ps s0 s1 := by
      with_reducible exact State.fetch_only h hout hrings
    clear_value s1
    refine Result.all_ite ?_ ?_
    · with_reducible refine finish_only ?_ hevc hfree hfuncs hintake hmay hout hregs_guard
      with_reducible exact State.returnBuffer_only hs1 hcounts hhalves hout hrings
    · with_reducible refine finish_only ?_ hevc hfree hfuncs hintake hmay hout hregs_guard
      with_reducible refine State.serve_only ?_ hcounts heths hhalves hout hports hrings
      with_reducible exact State.setRing_only hs1 hrings
  · refine Result.all_next ?_
    exact h

theorem execScrub_only {a1 a2 a3}  (h : Only ps s0 s) (hcairn : Part.cairn ∈ ps) (hcounts : Part.counts ∈ ps) (heths : Part.eths ∈ ps) (hevc : Part.evc ∈ ps) (hflt : Part.flt ∈ ps) (hfree : Part.free ∈ ps) (hfuncs : Part.funcs ∈ ps) (hgroups : Part.groups ∈ ps) (hhalves : Part.halves ∈ ps) (hintake : Part.intake ∈ ps) (hkeys : Part.keys ∈ ps) (hlog : Part.log ∈ ps) (hmay : Part.may ∈ ps) (hobjs : Part.objs ∈ ps) (hout : Part.out ∈ ps) (hports : Part.ports ∈ ps) (hregs_dev : Part.regs .dev ∈ ps) (hregs_fn : Part.regs .fn ∈ ps) (hregs_guard : Part.regs .guard ∈ ps) (hregs_port : Part.regs .port ∈ ps) (hrings : Part.rings ∈ ps) (hrxq : Part.rxq ∈ ps) (hspur : Part.spur ∈ ps) (htarn : Part.tarn ∈ ps) : Result.All (Only ps s0) (execScrub a1 a2 a3 s) := by
  unfold execScrub
  extract_lets c1 s2 s3
  have hs2 : Only ps s0 s2 := by
    with_reducible exact State.setCairn_only h hcairn
  clear_value s2
  have hs3 : Only ps s0 s3 := by
    with_reducible exact State.scrubActs_only hs2 hcairn hcounts heths hflt hgroups hhalves hintake hkeys hlog hobjs hout hports hregs_dev hregs_fn hregs_port hrings hrxq hspur htarn
  clear_value s3
  refine Result.all_ite ?_ ?_
  · with_reducible refine finish_only ?_ hevc hfree hfuncs hintake hmay hout hregs_guard
    with_reducible exact State.setCairn_only h hcairn
  · with_reducible refine finish_only ?_ hevc hfree hfuncs hintake hmay hout hregs_guard
    with_reducible refine State.crnEvent_only ?_ hcairn hregs_fn
    with_reducible exact State.record_only hs3 hintake

theorem execSelfTest_only {a1 a2 a3}  (h : Only ps s0 s) (hcairn : Part.cairn ∈ ps) (hcounts : Part.counts ∈ ps) (hevc : Part.evc ∈ ps) (hfree : Part.free ∈ ps) (hfuncs : Part.funcs ∈ ps) (hhalves : Part.halves ∈ ps) (hintake : Part.intake ∈ ps) (hmay : Part.may ∈ ps) (hout : Part.out ∈ ps) (hregs_dev : Part.regs .dev ∈ ps) (hregs_guard : Part.regs .guard ∈ ps) (hrings : Part.rings ∈ ps) (hspur : Part.spur ∈ ps) : Result.All (Only ps s0) (execSelfTest a1 a2 a3 s) := by
  unfold execSelfTest
  refine Result.all_ite ?_ ?_
  · with_reducible refine finish_only ?_ hevc hfree hfuncs hintake hmay hout hregs_guard
    with_reducible refine State.command_only ?_ ?_ hcounts hhalves hout hrings
    · exact h
    · intro s1 x2 k3
      with_reducible exact State.selfTestOp_only k3 hcairn hcounts hhalves hout hregs_dev hrings hspur
  · refine Result.all_next ?_
    exact h

theorem execSelfTestEnd_only {a1 a2 a3}  (h : Only ps s0 s) (hcairn : Part.cairn ∈ ps) (hcounts : Part.counts ∈ ps) (hevc : Part.evc ∈ ps) (hfab : Part.fab ∈ ps) (hfree : Part.free ∈ ps) (hfuncs : Part.funcs ∈ ps) (hgroups : Part.groups ∈ ps) (hhalves : Part.halves ∈ ps) (hintake : Part.intake ∈ ps) (hlinks : Part.links ∈ ps) (hmay : Part.may ∈ ps) (hout : Part.out ∈ ps) (hpairs : Part.pairs ∈ ps) (hports : Part.ports ∈ ps) (hregs_dev : Part.regs .dev ∈ ps) (hregs_grp : Part.regs .grp ∈ ps) (hregs_guard : Part.regs .guard ∈ ps) (hregs_link : Part.regs .link ∈ ps) (hregs_port : Part.regs .port ∈ ps) (hrings : Part.rings ∈ ps) (hspur : Part.spur ∈ ps) (htrust : Part.trust ∈ ps) : Result.All (Only ps s0) (execSelfTestEnd a1 a2 a3 s) := by
  unfold execSelfTestEnd
  dsimp only
  split
  · rename_i x1 heq2
    refine Result.all_next ?_
    exact h
  · rename_i x3 t4 heq5
    refine Result.all_ite ?_ ?_
    · refine Result.all_next ?_
      exact h
    · with_reducible refine finish_only ?_ hevc hfree hfuncs hintake hmay hout hregs_guard
      with_reducible refine State.turnTests_only ?_ hcairn hcounts hhalves hout hregs_dev hrings hspur
      with_reducible refine State.replayTest_only ?_ hcairn hcounts hhalves hout hports hregs_port hrings htrust
      with_reducible refine State.complete_only ?_ hcounts hhalves hout hrings
      with_reducible refine State.record_only ?_ hintake
      with_reducible refine State.setCairn_only ?_ hcairn
      with_reducible exact State.testOutcome_only h hcounts hfab hgroups hhalves hlinks hout hpairs hports hregs_dev hregs_grp hregs_link hregs_port hrings hspur

theorem execSelfTestForcedStart_only  (h : Only ps s0 s) (hcairn : Part.cairn ∈ ps) (hcounts : Part.counts ∈ ps) (hevc : Part.evc ∈ ps) (hfab : Part.fab ∈ ps) (hfree : Part.free ∈ ps) (hfuncs : Part.funcs ∈ ps) (hhalves : Part.halves ∈ ps) (hintake : Part.intake ∈ ps) (hkeys : Part.keys ∈ ps) (hlinks : Part.links ∈ ps) (hmay : Part.may ∈ ps) (hout : Part.out ∈ ps) (hports : Part.ports ∈ ps) (hregs_dev : Part.regs .dev ∈ ps) (hregs_fab : Part.regs .fab ∈ ps) (hregs_fn : Part.regs .fn ∈ ps) (hregs_guard : Part.regs .guard ∈ ps) (hregs_port : Part.regs .port ∈ ps) (hregs_tmu : Part.regs .tmu ∈ ps) (hrings : Part.rings ∈ ps) (hspur : Part.spur ∈ ps) : Result.All (Only ps s0) (execSelfTestForcedStart s) := by
  unfold execSelfTestForcedStart
  split
  · rename_i x1 heq2
    refine Result.all_ite ?_ ?_
    · refine Result.all_next ?_
      exact h
    · with_reducible refine finish_only ?_ hevc hfree hfuncs hintake hmay hout hregs_guard
      with_reducible exact State.turnTests_only h hcairn hcounts hhalves hout hregs_dev hrings hspur
  · rename_i x3 t4 heq5
    refine Result.all_ite ?_ ?_
    · refine Result.all_next ?_
      exact h
    · with_reducible refine finish_only ?_ hevc hfree hfuncs hintake hmay hout hregs_guard
      with_reducible exact State.forcedStart_only h hcairn hcounts hfab hhalves hkeys hlinks hout hports hregs_dev hregs_fab hregs_fn hregs_port hregs_tmu hrings hspur

theorem execSensorSample_only {a1}  (h : Only ps s0 s) (hcairn : Part.cairn ∈ ps) (hevc : Part.evc ∈ ps) (hfree : Part.free ∈ ps) (hfuncs : Part.funcs ∈ ps) (hintake : Part.intake ∈ ps) (hmay : Part.may ∈ ps) (hout : Part.out ∈ ps) (hregs_fn : Part.regs .fn ∈ ps) (hregs_guard : Part.regs .guard ∈ ps) : Result.All (Only ps s0) (execSensorSample a1 s) := by
  unfold execSensorSample
  split
  · rename_i r1 q2
    refine Result.all_ite ?_ ?_
    · with_reducible refine finish_only ?_ hevc hfree hfuncs hintake hmay hout hregs_guard
      with_reducible exact State.sampleTemp_only h hcairn hintake hregs_fn
    · refine Result.all_next ?_
      exact h
  · rename_i r3 mv4
    refine Result.all_ite ?_ ?_
    · with_reducible refine finish_only ?_ hevc hfree hfuncs hintake hmay hout hregs_guard
      with_reducible exact State.sampleRail_only h hcairn hintake hregs_fn
    · refine Result.all_next ?_
      exact h
  · rename_i r5 ps6
    refine Result.all_ite ?_ ?_
    · with_reducible refine finish_only ?_ hevc hfree hfuncs hintake hmay hout hregs_guard
      with_reducible exact State.samplePace_only h hcairn hintake hregs_fn
    · refine Result.all_next ?_
      exact h
  · rename_i r7 ppm8
    refine Result.all_ite ?_ ?_
    · with_reducible refine finish_only ?_ hevc hfree hfuncs hintake hmay hout hregs_guard
      with_reducible exact State.sampleAge_only h hcairn hintake
    · refine Result.all_next ?_
      exact h

theorem execServoEnable_only {a1 a2}  (h : Only ps s0 s) (hevc : Part.evc ∈ ps) (hfab : Part.fab ∈ ps) (hfree : Part.free ∈ ps) (hfuncs : Part.funcs ∈ ps) (hintake : Part.intake ∈ ps) (hmay : Part.may ∈ ps) (hout : Part.out ∈ ps) (hregs_fab : Part.regs .fab ∈ ps) (hregs_guard : Part.regs .guard ∈ ps) (hregs_tmu : Part.regs .tmu ∈ ps) (htmu : Part.tmu ∈ ps) : Result.All (Only ps s0) (execServoEnable a1 a2 s) := by
  unfold execServoEnable
  with_reducible refine State.ownedWrite_only ?_ ?_ hevc hfree hfuncs hintake hmay hout hregs_guard
  · exact h
  · intro s1 k2
    with_reducible exact State.writeServo_only k2 hfab hintake hregs_fab hregs_tmu htmu

theorem execServoHoldover_only  (h : Only ps s0 s) (hcounts : Part.counts ∈ ps) (hevc : Part.evc ∈ ps) (hfree : Part.free ∈ ps) (hfuncs : Part.funcs ∈ ps) (hhalves : Part.halves ∈ ps) (hintake : Part.intake ∈ ps) (hmay : Part.may ∈ ps) (hobjs : Part.objs ∈ ps) (hout : Part.out ∈ ps) (hports : Part.ports ∈ ps) (hregs_fn : Part.regs .fn ∈ ps) (hregs_guard : Part.regs .guard ∈ ps) (hregs_tmu : Part.regs .tmu ∈ ps) (hrings : Part.rings ∈ ps) (htmu : Part.tmu ∈ ps) : Result.All (Only ps s0) (execServoHoldover s) := by
  unfold execServoHoldover
  refine Result.all_ite ?_ ?_
  · extract_lets s1 s2 x3
    have hs1 : Only ps s0 s1 := by
      with_reducible exact State.advance_only h hcounts hfree hfuncs hhalves hobjs hout hports hregs_fn hrings htmu
    clear_value s1
    have hs2 : Only ps s0 s2 := by
      with_reducible exact State.setRate_only hs1 htmu
    clear_value s2
    with_reducible refine finish_only ?_ hevc hfree hfuncs hintake hmay hout hregs_guard
    refine State.raise_only ?_ hregs_tmu
    with_reducible refine State.servoGoes_only ?_ hregs_tmu htmu
    with_reducible exact State.setTmu_only hs2 htmu
  · refine Result.all_next ?_
    exact h

theorem execServoSample_only  (h : Only ps s0 s) (hcounts : Part.counts ∈ ps) (hevc : Part.evc ∈ ps) (hfree : Part.free ∈ ps) (hfuncs : Part.funcs ∈ ps) (hhalves : Part.halves ∈ ps) (hintake : Part.intake ∈ ps) (hmay : Part.may ∈ ps) (hout : Part.out ∈ ps) (hregs_fn : Part.regs .fn ∈ ps) (hregs_guard : Part.regs .guard ∈ ps) (hregs_tmu : Part.regs .tmu ∈ ps) (htmu : Part.tmu ∈ ps) : Result.All (Only ps s0) (execServoSample s) := by
  unfold execServoSample
  dsimp only
  split
  · rename_i x1 heq2
    refine Result.all_next ?_
    exact h
  · rename_i x3 a4 e5 r6 rest7 heq8
    with_reducible refine finish_only ?_ hevc hfree hfuncs hintake hmay hout hregs_guard
    with_reducible refine State.takeSample_only ?_ hcounts hfree hfuncs hhalves hout hregs_fn hregs_tmu htmu
    with_reducible exact State.setTmu_only h htmu

theorem execSetEndpointId_only {a1}  (h : Only ps s0 s) (hcairn : Part.cairn ∈ ps) (hevc : Part.evc ∈ ps) (hfree : Part.free ∈ ps) (hfuncs : Part.funcs ∈ ps) (hintake : Part.intake ∈ ps) (hmay : Part.may ∈ ps) (hout : Part.out ∈ ps) (hregs_guard : Part.regs .guard ∈ ps) : Result.All (Only ps s0) (execSetEndpointId a1 s) := by
  unfold execSetEndpointId
  with_reducible refine State.whileUp_only ?_ ?_ hevc hfree hfuncs hintake hmay hout hregs_guard
  · exact h
  · intro s1 k2
    refine Only.ite ?_ ?_
    · with_reducible exact State.control_only k2 hout
    · with_reducible refine State.control_only ?_ hout
      extract_lets x3
      with_reducible exact State.setCairn_only k2 hcairn

theorem execSetMode_only {a1 a2}  (h : Only ps s0 s) (hcairn : Part.cairn ∈ ps) (hevc : Part.evc ∈ ps) (hfree : Part.free ∈ ps) (hfuncs : Part.funcs ∈ ps) (hintake : Part.intake ∈ ps) (hmay : Part.may ∈ ps) (hout : Part.out ∈ ps) (hregs_dev : Part.regs .dev ∈ ps) (hregs_guard : Part.regs .guard ∈ ps) : Result.All (Only ps s0) (execSetMode a1 a2 s) := by
  unfold execSetMode
  with_reducible refine State.request_only ?_ ?_ hevc hfree hfuncs hintake hmay hout hregs_guard
  · exact h
  · intro s1 k2
    dsimp only
    refine Only.ite ?_ ?_
    · with_reducible refine State.respond_only ?_ hout
      with_reducible exact State.writeMode_only k2 hcairn hintake hregs_dev
    · refine Only.ite ?_ ?_
      · with_reducible refine State.respond_only ?_ hout
        with_reducible exact State.writeMode_only k2 hcairn hintake hregs_dev
      · with_reducible refine State.respond_only ?_ hout
        with_reducible exact State.writeMode_only k2 hcairn hintake hregs_dev

theorem execSlotMissed_only {a1 a2}  (h : Only ps s0 s) (hcounts : Part.counts ∈ ps) (hevc : Part.evc ∈ ps) (hfree : Part.free ∈ ps) (hfuncs : Part.funcs ∈ ps) (hhalves : Part.halves ∈ ps) (hintake : Part.intake ∈ ps) (hmay : Part.may ∈ ps) (hobjs : Part.objs ∈ ps) (hout : Part.out ∈ ps) (hports : Part.ports ∈ ps) (hregs_fn : Part.regs .fn ∈ ps) (hregs_guard : Part.regs .guard ∈ ps) (hrings : Part.rings ∈ ps) (htmu : Part.tmu ∈ ps) : Result.All (Only ps s0) (execSlotMissed a1 a2 s) := by
  unfold execSlotMissed
  dsimp only
  split
  · rename_i x1 x2 k3 e4 heq5 heq6
    split
    · rename_i x7 heq8
      refine Result.all_next ?_
      exact h
    · rename_i x9 t10 heq11
      refine Result.all_ite ?_ ?_
      · split
        · rename_i x12 l13 heq14
          with_reducible refine finish_only ?_ hevc hfree hfuncs hintake hmay hout hregs_guard
          refine Only.ite ?_ ?_
          · with_reducible refine State.slotPassed_only ?_ hports
            with_reducible exact State.advance_only h hcounts hfree hfuncs hhalves hobjs hout hports hregs_fn hrings htmu
          · with_reducible exact State.advance_only h hcounts hfree hfuncs hhalves hobjs hout hports hregs_fn hrings htmu
        · rename_i x15 heq16
          refine Result.all_next ?_
          exact h
      · refine Result.all_next ?_
        exact h
  · rename_i x17 x18 x19
    refine Result.all_next ?_
    exact h

theorem execSmbusReset_only {a1 a2}  (h : Only ps s0 s) (hcairn : Part.cairn ∈ ps) (hevc : Part.evc ∈ ps) (hfree : Part.free ∈ ps) (hfuncs : Part.funcs ∈ ps) (hintake : Part.intake ∈ ps) (hmay : Part.may ∈ ps) (hout : Part.out ∈ ps) (hregs_guard : Part.regs .guard ∈ ps) : Result.All (Only ps s0) (execSmbusReset a1 a2 s) := by
  unfold execSmbusReset
  with_reducible refine State.request_only ?_ ?_ hevc hfree hfuncs hintake hmay hout hregs_guard
  · exact h
  · intro s1 k2
    extract_lets x3
    with_reducible refine State.setCairn_only ?_ hcairn
    with_reducible exact State.respond_only k2 hout

theorem execStage_only {a1 a2 a3}  (h : Only ps s0 s) (hcairn : Part.cairn ∈ ps) (hevc : Part.evc ∈ ps) (hfree : Part.free ∈ ps) (hfuncs : Part.funcs ∈ ps) (hintake : Part.intake ∈ ps) (hmay : Part.may ∈ ps) (hout : Part.out ∈ ps) (hregs_guard : Part.regs .guard ∈ ps) : Result.All (Only ps s0) (execStage a1 a2 a3 s) := by
  unfold execStage
  extract_lets o1
  with_reducible refine State.request_only ?_ ?_ hevc hfree hfuncs hintake hmay hout hregs_guard
  · exact h
  · intro s2 k3
    split
    · rename_i x4 heq5
      with_reducible exact State.respond_only k3 hout
    · rename_i x6 s7 heq8
      with_reducible refine State.respond_only ?_ hout
      exact State.stageWrite_only k3 heq8 hcairn

theorem execStagingHolderTimeout_only  (h : Only ps s0 s) (hcairn : Part.cairn ∈ ps) (hcounts : Part.counts ∈ ps) (hevc : Part.evc ∈ ps) (hfree : Part.free ∈ ps) (hfuncs : Part.funcs ∈ ps) (hhalves : Part.halves ∈ ps) (hintake : Part.intake ∈ ps) (hmay : Part.may ∈ ps) (hobjs : Part.objs ∈ ps) (hout : Part.out ∈ ps) (hports : Part.ports ∈ ps) (hregs_fn : Part.regs .fn ∈ ps) (hregs_guard : Part.regs .guard ∈ ps) (hrings : Part.rings ∈ ps) (htmu : Part.tmu ∈ ps) : Result.All (Only ps s0) (execStagingHolderTimeout s) := by
  unfold execStagingHolderTimeout
  refine Result.all_ite ?_ ?_
  · refine Result.all_next ?_
    exact h
  · extract_lets s1 x2
    have hs1 : Only ps s0 s1 := by
      with_reducible exact State.waitFrom_only h hcounts hfree hfuncs hhalves hobjs hout hports hregs_fn hrings htmu
    clear_value s1
    with_reducible refine finish_only ?_ hevc hfree hfuncs hintake hmay hout hregs_guard
    with_reducible exact State.setCairn_only hs1 hcairn

theorem execStarSof_only {a1 a2 a3 a4 a5 a6}  (h : Only ps s0 s) (hcounts : Part.counts ∈ ps) (hevc : Part.evc ∈ ps) (hfree : Part.free ∈ ps) (hfuncs : Part.funcs ∈ ps) (hgroups : Part.groups ∈ ps) (hhalves : Part.halves ∈ ps) (hintake : Part.intake ∈ ps) (hmay : Part.may ∈ ps) (hobjs : Part.objs ∈ ps) (hout : Part.out ∈ ps) (hports : Part.ports ∈ ps) (hregs_fn : Part.regs .fn ∈ ps) (hregs_grp : Part.regs .grp ∈ ps) (hregs_guard : Part.regs .guard ∈ ps) (hrings : Part.rings ∈ ps) (htmu : Part.tmu ∈ ps) : Result.All (Only ps s0) (execStarSof a1 a2 a3 a4 a5 a6 s) := by
  unfold execStarSof
  refine Result.all_ite ?_ ?_
  · refine Result.all_next ?_
    exact h
  · refine Result.all_ite ?_ ?_
    · with_reducible refine finish_only ?_ hevc hfree hfuncs hintake hmay hout hregs_guard
      with_reducible exact State.starSofOp_only h hcounts hfree hfuncs hgroups hhalves hobjs hout hports hregs_fn hregs_grp hrings htmu
    · with_reducible refine finish_only ?_ hevc hfree hfuncs hintake hmay hout hregs_guard
      with_reducible exact State.joinFrame_only h hgroups hout

theorem execStartDecision_only {a1 a2}  (h : Only ps s0 s) (hcounts : Part.counts ∈ ps) (hevc : Part.evc ∈ ps) (hfree : Part.free ∈ ps) (hfuncs : Part.funcs ∈ ps) (hgroups : Part.groups ∈ ps) (hhalves : Part.halves ∈ ps) (hintake : Part.intake ∈ ps) (hmay : Part.may ∈ ps) (hobjs : Part.objs ∈ ps) (hout : Part.out ∈ ps) (hports : Part.ports ∈ ps) (hregs_fn : Part.regs .fn ∈ ps) (hregs_guard : Part.regs .guard ∈ ps) (hrings : Part.rings ∈ ps) (htmu : Part.tmu ∈ ps) : Result.All (Only ps s0) (execStartDecision a1 a2 s) := by
  unfold execStartDecision
  extract_lets refDue1
  refine Result.all_ite ?_ ?_
  · exact trivial
  · refine Result.all_ite ?_ ?_
    · refine Result.all_next ?_
      exact h
    · refine Result.all_ite ?_ ?_
      · refine Result.all_ite ?_ ?_
        · with_reducible refine finish_only ?_ hevc hfree hfuncs hintake hmay hout hregs_guard
          with_reducible exact State.startOp_only h hcounts hfree hfuncs hgroups hhalves hobjs hout hports hregs_fn hrings htmu
        · refine Result.all_next ?_
          exact h
      · refine Result.all_ite ?_ ?_
        · with_reducible refine finish_only ?_ hevc hfree hfuncs hintake hmay hout hregs_guard
          with_reducible exact State.startOp_only h hcounts hfree hfuncs hgroups hhalves hobjs hout hports hregs_fn hrings htmu
        · refine Result.all_next ?_
          exact h

theorem execStuckIsolate_only {a1 a2}  (h : Only ps s0 s) (hevc : Part.evc ∈ ps) (hfree : Part.free ∈ ps) (hfuncs : Part.funcs ∈ ps) (hgroups : Part.groups ∈ ps) (hintake : Part.intake ∈ ps) (hmay : Part.may ∈ ps) (hout : Part.out ∈ ps) (hregs_grp : Part.regs .grp ∈ ps) (hregs_guard : Part.regs .guard ∈ ps) : Result.All (Only ps s0) (execStuckIsolate a1 a2 s) := by
  unfold execStuckIsolate
  extract_lets x1
  refine Result.all_ite ?_ ?_
  · with_reducible refine finish_only ?_ hevc hfree hfuncs hintake hmay hout hregs_guard
    with_reducible exact State.isolate_only h hgroups hregs_grp
  · refine Result.all_next ?_
    exact h

theorem execSuspendEnd_only {a1}  (h : Only ps s0 s) (hevc : Part.evc ∈ ps) (hfree : Part.free ∈ ps) (hfuncs : Part.funcs ∈ ps) (hintake : Part.intake ∈ ps) (hmay : Part.may ∈ ps) (hout : Part.out ∈ ps) (hports : Part.ports ∈ ps) (hregs_guard : Part.regs .guard ∈ ps) : Result.All (Only ps s0) (execSuspendEnd a1 s) := by
  unfold execSuspendEnd
  refine Result.all_ite ?_ ?_
  · with_reducible refine finish_only ?_ hevc hfree hfuncs hintake hmay hout hregs_guard
    extract_lets x1
    with_reducible exact State.setPort_only h hports
  · refine Result.all_next ?_
    exact h

theorem execSvcRestart_only {a1}  (h : Only ps s0 s) (hcairn : Part.cairn ∈ ps) (hevc : Part.evc ∈ ps) (hfree : Part.free ∈ ps) (hfuncs : Part.funcs ∈ ps) (hintake : Part.intake ∈ ps) (hmay : Part.may ∈ ps) (hout : Part.out ∈ ps) (hregs_fn : Part.regs .fn ∈ ps) (hregs_guard : Part.regs .guard ∈ ps) : Result.All (Only ps s0) (execSvcRestart a1 s) := by
  unfold execSvcRestart
  refine Result.all_ite ?_ ?_
  · extract_lets s1 s2
    have hs1 : Only ps s0 s1 := by
      with_reducible exact State.spoil_only h hcairn
    clear_value s1
    have hs2 : Only ps s0 s2 := by
      unfold s2
      split
      · rename_i x3 a4 heq5
        with_reducible exact State.windowRecord_only hs1 hintake
      · rename_i x6 heq7
        exact hs1
    clear_value s2
    with_reducible refine finish_only ?_ hevc hfree hfuncs hintake hmay hout hregs_guard
    with_reducible exact State.restartService_only hs2 hcairn hintake hregs_fn
  · refine Result.all_next ?_
    exact h

theorem execSvcRestartEnd_only  (h : Only ps s0 s) (hcairn : Part.cairn ∈ ps) (hevc : Part.evc ∈ ps) (hfree : Part.free ∈ ps) (hfuncs : Part.funcs ∈ ps) (hintake : Part.intake ∈ ps) (hmay : Part.may ∈ ps) (hout : Part.out ∈ ps) (hregs_guard : Part.regs .guard ∈ ps) : Result.All (Only ps s0) (execSvcRestartEnd s) := by
  unfold execSvcRestartEnd
  refine Result.all_ite ?_ ?_
  · with_reducible refine finish_only ?_ hevc hfree hfuncs hintake hmay hout hregs_guard
    extract_lets x1
    with_reducible exact State.setCairn_only h hcairn
  · refine Result.all_next ?_
    exact h

theorem execSwapQuietPoint_only  (h : Only ps s0 s) (hcairn : Part.cairn ∈ ps) (hevc : Part.evc ∈ ps) (hfree : Part.free ∈ ps) (hfuncs : Part.funcs ∈ ps) (hintake : Part.intake ∈ ps) (hmay : Part.may ∈ ps) (hout : Part.out ∈ ps) (hregs_dev : Part.regs .dev ∈ ps) (hregs_guard : Part.regs .guard ∈ ps) (hspur : Part.spur ∈ ps) : Result.All (Only ps s0) (execSwapQuietPoint s) := by
  unfold execSwapQuietPoint
  split
  · rename_i x1 w2 e3 old4 heq5
    with_reducible refine finish_only ?_ hevc hfree hfuncs hintake hmay hout hregs_guard
    with_reducible refine State.engineTestAfterSwap_only ?_ hcairn hspur
    with_reducible exact State.swapNow_only h hregs_dev hspur
  · rename_i x6 heq7
    refine Result.all_next ?_
    exact h

theorem execSwapTimeout_only  (h : Only ps s0 s) (hcounts : Part.counts ∈ ps) (hevc : Part.evc ∈ ps) (hfree : Part.free ∈ ps) (hfuncs : Part.funcs ∈ ps) (hhalves : Part.halves ∈ ps) (hintake : Part.intake ∈ ps) (hmay : Part.may ∈ ps) (hobjs : Part.objs ∈ ps) (hout : Part.out ∈ ps) (hports : Part.ports ∈ ps) (hregs_dev : Part.regs .dev ∈ ps) (hregs_fn : Part.regs .fn ∈ ps) (hregs_guard : Part.regs .guard ∈ ps) (hrings : Part.rings ∈ ps) (hspur : Part.spur ∈ ps) (htmu : Part.tmu ∈ ps) : Result.All (Only ps s0) (execSwapTimeout s) := by
  unfold execSwapTimeout
  split
  · rename_i x1 w2 heq3
    with_reducible refine finish_only ?_ hevc hfree hfuncs hintake hmay hout hregs_guard
    with_reducible refine State.endSwap_only ?_ hregs_dev hspur
    with_reducible refine State.releaseSwap_only ?_ hregs_dev hspur
    with_reducible exact State.waitFrom_only h hcounts hfree hfuncs hhalves hobjs hout hports hregs_fn hrings htmu
  · rename_i x4 heq5
    refine Result.all_next ?_
    exact h

theorem execTakeoverDone_only {a1}  (h : Only ps s0 s) (hcounts : Part.counts ∈ ps) (heths : Part.eths ∈ ps) (hevc : Part.evc ∈ ps) (hfree : Part.free ∈ ps) (hfuncs : Part.funcs ∈ ps) (hhalves : Part.halves ∈ ps) (hintake : Part.intake ∈ ps) (hmay : Part.may ∈ ps) (hobjs : Part.objs ∈ ps) (hout : Part.out ∈ ps) (hports : Part.ports ∈ ps) (hregs_fn : Part.regs .fn ∈ ps) (hregs_guard : Part.regs .guard ∈ ps) (hregs_port : Part.regs .port ∈ ps) (hrings : Part.rings ∈ ps) (hrxq : Part.rxq ∈ ps) (hspur : Part.spur ∈ ps) : Result.All (Only ps s0) (execTakeoverDone a1 s) := by
  unfold execTakeoverDone
  dsimp only
  split
  · rename_i x1 heq2
    refine Result.all_next ?_
    exact h
  · rename_i x3 fst4 e5 heq6
    with_reducible refine finish_only ?_ hevc hfree hfuncs hintake hmay hout hregs_guard
    with_reducible refine State.passFifo_only ?_ hcounts heths hhalves hports hrxq
    with_reducible refine State.returnPort_only ?_ hcounts hhalves hout hports hregs_port hrings
    with_reducible refine State.countDestroyed_only ?_ hcounts hhalves hports
    with_reducible refine State.setPort_only ?_ hports
    refine Only.foldl ?_ ?_
    · with_reducible refine State.attach_only ?_ hspur
      refine (h.spur hspur)
    · intro s7 x8 k9
      with_reducible exact State.settleRecord_only k9 hcounts hfree hfuncs hhalves hobjs hout hports hregs_fn hrings

theorem execTimeReply_only {a1 a2 a3}  (h : Only ps s0 s) (hcounts : Part.counts ∈ ps) (hevc : Part.evc ∈ ps) (hfree : Part.free ∈ ps) (hfuncs : Part.funcs ∈ ps) (hhalves : Part.halves ∈ ps) (hintake : Part.intake ∈ ps) (hlinks : Part.links ∈ ps) (hmay : Part.may ∈ ps) (hobjs : Part.objs ∈ ps) (hout : Part.out ∈ ps) (hports : Part.ports ∈ ps) (hregs_fn : Part.regs .fn ∈ ps) (hregs_guard : Part.regs .guard ∈ ps) (hrings : Part.rings ∈ ps) (htmu : Part.tmu ∈ ps) : Result.All (Only ps s0) (execTimeReply a1 a2 a3 s) := by
  unfold execTimeReply
  extract_lets f1 s2
  have hs2 : Only ps s0 s2 := by
    with_reducible exact State.advance_only h hcounts hfree hfuncs hhalves hobjs hout hports hregs_fn hrings htmu
  clear_value s2
  refine Result.all_ite ?_ ?_
  · refine Result.all_next ?_
    exact h
  · with_reducible refine State.rlTake_only ?_ ?_ hcounts hevc hfree hfuncs hhalves hintake hlinks hmay hout hregs_guard
    · exact hs2
    · intro s3 k4
      refine Only.ite ?_ ?_
      · with_reducible exact State.rlDone_only k4 hlinks hout
      · with_reducible refine State.replyOp_only ?_ hlinks htmu
        with_reducible exact State.rlDone_only k4 hlinks hout

theorem execTimeSync_only {a1 a2 a3}  (h : Only ps s0 s) (hcounts : Part.counts ∈ ps) (hevc : Part.evc ∈ ps) (hfree : Part.free ∈ ps) (hfuncs : Part.funcs ∈ ps) (hhalves : Part.halves ∈ ps) (hintake : Part.intake ∈ ps) (hlinks : Part.links ∈ ps) (hmay : Part.may ∈ ps) (hobjs : Part.objs ∈ ps) (hout : Part.out ∈ ps) (hports : Part.ports ∈ ps) (hregs_fn : Part.regs .fn ∈ ps) (hregs_guard : Part.regs .guard ∈ ps) (hrings : Part.rings ∈ ps) (htmu : Part.tmu ∈ ps) : Result.All (Only ps s0) (execTimeSync a1 a2 a3 s) := by
  unfold execTimeSync
  extract_lets f1 s2
  have hs2 : Only ps s0 s2 := by
    with_reducible exact State.advance_only h hcounts hfree hfuncs hhalves hobjs hout hports hregs_fn hrings htmu
  clear_value s2
  refine Result.all_ite ?_ ?_
  · refine Result.all_next ?_
    exact h
  · with_reducible refine State.rlTake_only ?_ ?_ hcounts hevc hfree hfuncs hhalves hintake hlinks hmay hout hregs_guard
    · exact hs2
    · intro s3 k4
      refine Only.ite ?_ ?_
      · with_reducible exact State.rlDone_only k4 hlinks hout
      · with_reducible refine State.sendLocal_only ?_ hlinks
        with_reducible exact State.rlDone_only k4 hlinks hout

theorem execTimeSyncTimer_only {a1}  (h : Only ps s0 s) (hcounts : Part.counts ∈ ps) (hevc : Part.evc ∈ ps) (hfree : Part.free ∈ ps) (hfuncs : Part.funcs ∈ ps) (hhalves : Part.halves ∈ ps) (hintake : Part.intake ∈ ps) (hlinks : Part.links ∈ ps) (hmay : Part.may ∈ ps) (hobjs : Part.objs ∈ ps) (hout : Part.out ∈ ps) (hports : Part.ports ∈ ps) (hregs_fn : Part.regs .fn ∈ ps) (hregs_guard : Part.regs .guard ∈ ps) (hrings : Part.rings ∈ ps) (htmu : Part.tmu ∈ ps) : Result.All (Only ps s0) (execTimeSyncTimer a1 s) := by
  unfold execTimeSyncTimer
  extract_lets l1 s2 q3 x4
  have hs2 : Only ps s0 s2 := by
    with_reducible exact State.waitFrom_only h hcounts hfree hfuncs hhalves hobjs hout hports hregs_fn hrings htmu
  clear_value s2
  refine Result.all_ite ?_ ?_
  · refine Result.all_next ?_
    exact h
  · with_reducible refine finish_only ?_ hevc hfree hfuncs hintake hmay hout hregs_guard
    with_reducible refine State.sendLocal_only ?_ hlinks
    with_reducible exact State.setLink_only hs2 hlinks

theorem execTmuLatchRead_only {a1 a2}  (h : Only ps s0 s) (hevc : Part.evc ∈ ps) (hfree : Part.free ∈ ps) (hfuncs : Part.funcs ∈ ps) (hintake : Part.intake ∈ ps) (hmay : Part.may ∈ ps) (hout : Part.out ∈ ps) (hregs_guard : Part.regs .guard ∈ ps) : Result.All (Only ps s0) (execTmuLatchRead a1 a2 s) := by
  unfold execTmuLatchRead
  refine Result.all_ite ?_ ?_
  · with_reducible refine finish_only ?_ hevc hfree hfuncs hintake hmay hout hregs_guard
    extract_lets x1
    with_reducible exact State.setFunc_only h hfuncs
  · refine Result.all_next ?_
    exact h

theorem execTmuStep_only {a1 a2 a3}  (h : Only ps s0 s) (hcounts : Part.counts ∈ ps) (hevc : Part.evc ∈ ps) (hfree : Part.free ∈ ps) (hfuncs : Part.funcs ∈ ps) (hhalves : Part.halves ∈ ps) (hintake : Part.intake ∈ ps) (hmay : Part.may ∈ ps) (hout : Part.out ∈ ps) (hregs_fn : Part.regs .fn ∈ ps) (hregs_guard : Part.regs .guard ∈ ps) (hregs_tmu : Part.regs .tmu ∈ ps) (htmu : Part.tmu ∈ ps) : Result.All (Only ps s0) (execTmuStep a1 a2 a3 s) := by
  unfold execTmuStep
  with_reducible refine State.ownedWrite_only ?_ ?_ hevc hfree hfuncs hintake hmay hout hregs_guard
  · exact h
  · intro s1 k2
    with_reducible exact State.writeStep_only k2 hcounts hfree hfuncs hhalves hintake hout hregs_fn hregs_tmu htmu

theorem execTopo_only {a1 a2}  (h : Only ps s0 s) (hcounts : Part.counts ∈ ps) (hevc : Part.evc ∈ ps) (hfab : Part.fab ∈ ps) (hfree : Part.free ∈ ps) (hfuncs : Part.funcs ∈ ps) (hhalves : Part.halves ∈ ps) (hintake : Part.intake ∈ ps) (hlinks : Part.links ∈ ps) (hmay : Part.may ∈ ps) (hout : Part.out ∈ ps) (hregs_fab : Part.regs .fab ∈ ps) (hregs_fn : Part.regs .fn ∈ ps) (hregs_guard : Part.regs .guard ∈ ps) (hregs_tmu : Part.regs .tmu ∈ ps) : Result.All (Only ps s0) (execTopo a1 a2 s) := by
  unfold execTopo
  extract_lets f1 serial2
  refine Result.all_ite ?_ ?_
  · refine Result.all_next ?_
    exact h
  · with_reducible refine State.rlTake_only ?_ ?_ hcounts hevc hfree hfuncs hhalves hintake hlinks hmay hout hregs_guard
    · exact h
    · intro s3 k4
      with_reducible refine State.flooded__only ?_ ?_ hfab hlinks hout
      · with_reducible exact State.refreshTopo_only k4 hfab
      · intro s5 k6
        refine Only.ite ?_ ?_
        · exact k6
        · with_reducible exact State.holdTopo_only k6 hfab hregs_fab hregs_fn hregs_tmu

theorem execTopoExpiry_only {a1}  (h : Only ps s0 s) (hcounts : Part.counts ∈ ps) (hevc : Part.evc ∈ ps) (hfab : Part.fab ∈ ps) (hfree : Part.free ∈ ps) (hfuncs : Part.funcs ∈ ps) (hhalves : Part.halves ∈ ps) (hintake : Part.intake ∈ ps) (hmay : Part.may ∈ ps) (hobjs : Part.objs ∈ ps) (hout : Part.out ∈ ps) (hports : Part.ports ∈ ps) (hregs_fab : Part.regs .fab ∈ ps) (hregs_fn : Part.regs .fn ∈ ps) (hregs_guard : Part.regs .guard ∈ ps) (hregs_tmu : Part.regs .tmu ∈ ps) (hrings : Part.rings ∈ ps) (htmu : Part.tmu ∈ ps) : Result.All (Only ps s0) (execTopoExpiry a1 s) := by
  unfold execTopoExpiry
  dsimp only
  split
  · rename_i x1 heq2
    refine Result.all_next ?_
    exact h
  · rename_i x3 t4 heq5
    with_reducible refine finish_only ?_ hevc hfree hfuncs hintake hmay hout hregs_guard
    refine Only.ite ?_ ?_
    · refine ((State.waitFrom_only ?_ hcounts hfree hfuncs hhalves hobjs hout hports hregs_fn hrings htmu).fab hfab)
      exact h
    · with_reducible refine State.topologyChanged_only ?_ hfab hregs_fab hregs_fn hregs_tmu
      refine ((State.waitFrom_only ?_ hcounts hfree hfuncs hhalves hobjs hout hports hregs_fn hrings htmu).fab hfab)
      exact h

theorem execTopoTimer_only  (h : Only ps s0 s) (hcounts : Part.counts ∈ ps) (hevc : Part.evc ∈ ps) (hfab : Part.fab ∈ ps) (hfree : Part.free ∈ ps) (hfuncs : Part.funcs ∈ ps) (hhalves : Part.halves ∈ ps) (hintake : Part.intake ∈ ps) (hlinks : Part.links ∈ ps) (hmay : Part.may ∈ ps) (hobjs : Part.objs ∈ ps) (hout : Part.out ∈ ps) (hports : Part.ports ∈ ps) (hregs_fn : Part.regs .fn ∈ ps) (hregs_guard : Part.regs .guard ∈ ps) (hrings : Part.rings ∈ ps) (htmu : Part.tmu ∈ ps) : Result.All (Only ps s0) (execTopoTimer s) := by
  unfold execTopoTimer
  refine Result.all_ite ?_ ?_
  · with_reducible refine finish_only ?_ hevc hfree hfuncs hintake hmay hout hregs_guard
    with_reducible refine State.sendTopo_only ?_ hfab hlinks hout
    with_reducible exact State.waitFrom_only h hcounts hfree hfuncs hhalves hobjs hout hports hregs_fn hrings htmu
  · refine Result.all_next ?_
    exact h

theorem execTrvRead_only {a1 a2 a3}  (h : Only ps s0 s) (hcounts : Part.counts ∈ ps) (hevc : Part.evc ∈ ps) (hfree : Part.free ∈ ps) (hfuncs : Part.funcs ∈ ps) (hhalves : Part.halves ∈ ps) (hintake : Part.intake ∈ ps) (hmay : Part.may ∈ ps) (hout : Part.out ∈ ps) (hregs_guard : Part.regs .guard ∈ ps) (hrings : Part.rings ∈ ps) : Result.All (Only ps s0) (execTrvRead a1 a2 a3 s) := by
  unfold execTrvRead
  refine Result.all_ite ?_ ?_
  · with_reducible refine finish_only ?_ hevc hfree hfuncs hintake hmay hout hregs_guard
    with_reducible refine State.command_only ?_ ?_ hcounts hhalves hout hrings
    · exact h
    · intro s1 x2 k3
      with_reducible exact State.trvReadOp_only k3 hcounts hhalves hout hrings
  · refine Result.all_next ?_
    exact h

theorem execTrvWrite_only {a1 a2 a3 a4}  (h : Only ps s0 s) (hcounts : Part.counts ∈ ps) (hevc : Part.evc ∈ ps) (hfree : Part.free ∈ ps) (hfuncs : Part.funcs ∈ ps) (hgroups : Part.groups ∈ ps) (hhalves : Part.halves ∈ ps) (hintake : Part.intake ∈ ps) (hmay : Part.may ∈ ps) (hout : Part.out ∈ ps) (hregs_guard : Part.regs .guard ∈ ps) (hrings : Part.rings ∈ ps) : Result.All (Only ps s0) (execTrvWrite a1 a2 a3 a4 s) := by
  unfold execTrvWrite
  refine Result.all_ite ?_ ?_
  · refine Result.all_next ?_
    exact h
  · refine Result.all_ite ?_ ?_
    · exact trivial
    · with_reducible refine finish_only ?_ hevc hfree hfuncs hintake hmay hout hregs_guard
      with_reducible refine State.command_only ?_ ?_ hcounts hhalves hout hrings
      · exact h
      · intro s1 x2 k3
        with_reducible exact State.trvWriteOp_only k3 hcounts hgroups hhalves hout hrings

theorem execTsqEnable_only {a1 a2}  (h : Only ps s0 s) (hevc : Part.evc ∈ ps) (hfree : Part.free ∈ ps) (hfuncs : Part.funcs ∈ ps) (hintake : Part.intake ∈ ps) (hmay : Part.may ∈ ps) (hout : Part.out ∈ ps) (hregs_fn : Part.regs .fn ∈ ps) (hregs_guard : Part.regs .guard ∈ ps) : Result.All (Only ps s0) (execTsqEnable a1 a2 s) := by
  unfold execTsqEnable
  refine Result.all_ite ?_ ?_
  · refine Result.all_next ?_
    exact h
  · refine Result.all_ite ?_ ?_
    · with_reducible refine finish_only ?_ hevc hfree hfuncs hintake hmay hout hregs_guard
      with_reducible exact State.writeTsq_only h hfuncs hintake hout hregs_fn
    · with_reducible refine finish_only ?_ hevc hfree hfuncs hintake hmay hout hregs_guard
      with_reducible exact State.crossDomain_only h hintake

theorem execTxFrame_only {a1 a2 a3}  (h : Only ps s0 s) (hcounts : Part.counts ∈ ps) (hevc : Part.evc ∈ ps) (hfree : Part.free ∈ ps) (hfuncs : Part.funcs ∈ ps) (hhalves : Part.halves ∈ ps) (hintake : Part.intake ∈ ps) (hmay : Part.may ∈ ps) (hobjs : Part.objs ∈ ps) (hout : Part.out ∈ ps) (hports : Part.ports ∈ ps) (hregs_fn : Part.regs .fn ∈ ps) (hregs_guard : Part.regs .guard ∈ ps) (hrings : Part.rings ∈ ps) : Result.All (Only ps s0) (execTxFrame a1 a2 a3 s) := by
  unfold execTxFrame
  extract_lets p1 cfg2 s3
  have hs3 : Only ps s0 s3 := by
    with_reducible exact State.fetch_only h hout hrings
  clear_value s3
  refine Result.all_ite ?_ ?_
  · with_reducible refine finish_only ?_ hevc hfree hfuncs hintake hmay hout hregs_guard
    with_reducible exact State.txOp_only hs3 hcounts hfree hfuncs hhalves hobjs hout hports hregs_fn hrings
  · refine Result.all_next ?_
    exact h

theorem execUnsupportedMctpMessage_only {a1}  (h : Only ps s0 s) (hevc : Part.evc ∈ ps) (hfree : Part.free ∈ ps) (hfuncs : Part.funcs ∈ ps) (hintake : Part.intake ∈ ps) (hmay : Part.may ∈ ps) (hout : Part.out ∈ ps) (hregs_guard : Part.regs .guard ∈ ps) : Result.All (Only ps s0) (execUnsupportedMctpMessage a1 s) := by
  unfold execUnsupportedMctpMessage
  split
  · rename_i x1 heq2
    refine Result.all_next ?_
    exact h
  · rename_i x3 bytes4 heq5
    refine Result.all_ite ?_ ?_
    · with_reducible refine State.whileUp_only ?_ ?_ hevc hfree hfuncs hintake hmay hout hregs_guard
      · exact h
      · intro s6 k7
        with_reducible exact State.respond_only k7 hout
    · refine Result.all_ite ?_ ?_
      · with_reducible refine State.whileUp_only ?_ ?_ hevc hfree hfuncs hintake hmay hout hregs_guard
        · exact h
        · intro s8 k9
          with_reducible exact State.control_only k9 hout
      · refine Result.all_next ?_
        exact h

theorem execVectorDelivery_only {a1 a2 a3}  (h : Only ps s0 s) (hevc : Part.evc ∈ ps) (hfree : Part.free ∈ ps) (hfuncs : Part.funcs ∈ ps) (hintake : Part.intake ∈ ps) (hmay : Part.may ∈ ps) (hout : Part.out ∈ ps) (hregs_guard : Part.regs .guard ∈ ps) : Result.All (Only ps s0) (execVectorDelivery a1 a2 a3 s) := by
  unfold execVectorDelivery
  dsimp only
  split
  · rename_i x1 heq2
    refine Result.all_next ?_
    exact h
  · rename_i x3 u4 heq5
    refine Result.all_ite ?_ ?_
    · refine Result.all_next ?_
      exact h
    · refine Result.all_ite ?_ ?_
      · with_reducible refine finish_only ?_ hevc hfree hfuncs hintake hmay hout hregs_guard
        with_reducible exact State.wakeTarget_only h hevc
      · with_reducible refine finish_only ?_ hevc hfree hfuncs hintake hmay hout hregs_guard
        with_reducible refine State.offerVector_only ?_ hevc hintake hout
        with_reducible exact State.wakeTarget_only h hevc

theorem execWakeEdge_only {a1}  (h : Only ps s0 s) (hcounts : Part.counts ∈ ps) (hevc : Part.evc ∈ ps) (hfree : Part.free ∈ ps) (hfuncs : Part.funcs ∈ ps) (hhalves : Part.halves ∈ ps) (hintake : Part.intake ∈ ps) (hmay : Part.may ∈ ps) (hout : Part.out ∈ ps) (hports : Part.ports ∈ ps) (hregs_guard : Part.regs .guard ∈ ps) (hregs_port : Part.regs .port ∈ ps) (hrings : Part.rings ∈ ps) : Result.All (Only ps s0) (execWakeEdge a1 s) := by
  unfold execWakeEdge
  extract_lets p1
  refine Result.all_ite ?_ ?_
  · with_reducible refine finish_only ?_ hevc hfree hfuncs hintake hmay hout hregs_guard
    with_reducible exact State.busWake_only h hcounts hhalves hout hports hregs_port hrings
  · refine Result.all_next ?_
    exact h

theorem execWakeFrame_only {a1 a2}  (h : Only ps s0 s) (hcounts : Part.counts ∈ ps) (hevc : Part.evc ∈ ps) (hfree : Part.free ∈ ps) (hfuncs : Part.funcs ∈ ps) (hhalves : Part.halves ∈ ps) (hintake : Part.intake ∈ ps) (hmay : Part.may ∈ ps) (hout : Part.out ∈ ps) (hports : Part.ports ∈ ps) (hregs_guard : Part.regs .guard ∈ ps) (hregs_port : Part.regs .port ∈ ps) (hrings : Part.rings ∈ ps) : Result.All (Only ps s0) (execWakeFrame a1 a2 s) := by
  unfold execWakeFrame
  refine Result.all_ite ?_ ?_
  · with_reducible refine finish_only ?_ hevc hfree hfuncs hintake hmay hout hregs_guard
    with_reducible exact State.busWake_only h hcounts hhalves hout hports hregs_port hrings
  · refine Result.all_next ?_
    exact h

theorem execWindowCloseCut_only {a1}  (h : Only ps s0 s) (hcounts : Part.counts ∈ ps) (hevc : Part.evc ∈ ps) (hfree : Part.free ∈ ps) (hfuncs : Part.funcs ∈ ps) (hgroups : Part.groups ∈ ps) (hhalves : Part.halves ∈ ps) (hintake : Part.intake ∈ ps) (hmay : Part.may ∈ ps) (hobjs : Part.objs ∈ ps) (hout : Part.out ∈ ps) (hports : Part.ports ∈ ps) (hregs_fn : Part.regs .fn ∈ ps) (hregs_grp : Part.regs .grp ∈ ps) (hregs_guard : Part.regs .guard ∈ ps) (hrings : Part.rings ∈ ps) (htmu : Part.tmu ∈ ps) : Result.All (Only ps s0) (execWindowCloseCut a1 s) := by
  unfold execWindowCloseCut
  split
  · rename_i x1 f2 heq3
    split
    · rename_i x4 c5 heq6
      refine Result.all_ite ?_ ?_
      · with_reducible refine finish_only ?_ hevc hfree hfuncs hintake hmay hout hregs_guard
        with_reducible refine State.violations_only ?_ hgroups hregs_grp
        with_reducible refine State.cutFrame_only ?_ hgroups hout
        with_reducible exact State.advance_only h hcounts hfree hfuncs hhalves hobjs hout hports hregs_fn hrings htmu
      · refine Result.all_next ?_
        exact h
    · rename_i x7 heq8
      refine Result.all_next ?_
      exact h
  · rename_i x9 heq10
    refine Result.all_next ?_
    exact h

theorem idle_only  (h : Only ps s0 s) (hcairn : Part.cairn ∈ ps) (hcounts : Part.counts ∈ ps) (hdev : Part.dev ∈ ps) (hevc : Part.evc ∈ ps) (hfab : Part.fab ∈ ps) (hfree : Part.free ∈ ps) (hfuncs : Part.funcs ∈ ps) (hgroups : Part.groups ∈ ps) (hhalves : Part.halves ∈ ps) (hintake : Part.intake ∈ ps) (hlinks : Part.links ∈ ps) (hmay : Part.may ∈ ps) (hobjs : Part.objs ∈ ps) (hotp : Part.otp ∈ ps) (hout : Part.out ∈ ps) (hports : Part.ports ∈ ps) (hregs_cairn : Part.regs .cairn ∈ ps) (hregs_dev : Part.regs .dev ∈ ps) (hregs_fn : Part.regs .fn ∈ ps) (hregs_guard : Part.regs .guard ∈ ps) (hrings : Part.rings ∈ ps) (hspur : Part.spur ∈ ps) (htmu : Part.tmu ∈ ps) : Result.All (Only ps s0) (idle s) := by
  unfold idle
  with_reducible refine finish_only ?_ hevc hfree hfuncs hintake hmay hout hregs_guard
  with_reducible refine State.scan_only ?_ hdev hfree
  with_reducible refine State.bootStep_only ?_ hcairn hdev hfab hfree hintake hregs_cairn hregs_dev hregs_fn hspur
  with_reducible refine State.endActivation_only ?_ hcairn hcounts hdev hevc hgroups hhalves hintake hotp hout hregs_fn hrings hspur
  with_reducible refine State.endBusy_only ?_ hfuncs
  with_reducible refine State.turnTests_only ?_ hcairn hcounts hhalves hout hregs_dev hrings hspur
  with_reducible refine State.wiresEnd_only ?_ hcounts hhalves hlinks
  with_reducible exact State.advance_only h hcounts hfree hfuncs hhalves hobjs hout hports hregs_fn hrings htmu

end Sys2Proof.Machine
end

