-- ==== Sys2Proof/Laws/Rings.lean ====
section
/-! SUPPORT. The ring mechanism for one command descriptor: what a fetch leaves of its completion queue, and the entry that a completion writes. -/
namespace Sys2Proof.Machine

variable {s t : State} {d : Dom} {n : RingNo} {x : Desc} {ty : Nat}

theorem Sends.of_mid {u v : State} {o : Output} (h : Keeps false s u) (g : Sends u v o) : Sends s v o := by
  obtain ⟨l, hl⟩ := h.1.2
  obtain ⟨m, hm, ho⟩ := g
  exact ⟨l ++ m, by rw [hm, hl, List.append_assoc], List.mem_append_right _ ho⟩

theorem Sends.later {u v : State} {o : Output} (g : Sends s u o) (h : Keeps false u v) : Sends s v o := by
  obtain ⟨l, hl, ho⟩ := g
  obtain ⟨m, hm⟩ := h.1.2
  exact ⟨l ++ m, by rw [hm, hl, List.append_assoc], List.mem_append_left _ ho⟩

/-- A command ring and its completion queue are different rings. -/
theorem RingReady.cq_ne (h : RingReady ty s d n x) : s.dring d (s.cqOf d n) ≠ s.dring d n := by
  intro hc
  have h1 := h.on
  have h2 := h.cqOn
  simp only [State.ringOn, Bool.and_eq_true, beq_iff_eq] at h1 h2
  rw [hc, h1.2] at h2
  exact h.sub h2.2

theorem RingReady.mute (h : RingReady ty s d n x) : s.mute d = false := by
  have h1 := h.fetch
  simp only [State.fetchable, State.answers, Bool.and_eq_true, Bool.not_eq_true', Option.isNone_iff_eq_none] at h1
  obtain ⟨⟨⟨⟨⟨⟨⟨⟨⟨⟨h2, h3⟩, h4⟩, h5⟩, -⟩, -⟩, -⟩, -⟩, -⟩, -⟩, -⟩ := h1
  have h6 : s.active d = true := by
    simp only [State.ringOk, Bool.and_eq_true] at h5
    exact h5.2
  simp [State.mute, h3, h4, h6]

theorem RingReady.waitEmpty (h : RingReady ty s d n x) : (s.ring (s.dring d (s.cqOf d n))).wait = [] := by
  have h1 := h.fetch
  simp only [State.fetchable, State.stalled, h.cqOn, Bool.and_eq_true, Bool.true_and, Bool.not_not, List.isEmpty_iff] at h1
  exact h1.1.1.2

/-- A device-written index changes only what leaves the device. -/
theorem State.doorbell_eq (s : State) (d : Dom) (off : Nat) (w : Word) : ∃ o, s.doorbell d off w = { s with out := o } := by
  unfold State.doorbell
  split
  · exact ⟨_, rfl⟩
  · exact ⟨s.out, rfl⟩

/-- The ring record that a fetch leaves (R74, R82). -/
def Ring.fetched (r : Ring) (op : Bool) : Ring :=
  { r with head := r.head + 1, inflight := if op then r.inflight + 1 else r.inflight }

/-- A fetch changes its own ring's record and what leaves the device, nothing else. -/
theorem State.fetch_eq (s : State) (d : Dom) (n : RingNo) (op : Bool) :
    ∃ o, s.fetch d n op = { s.setRing (s.dring d n) ((s.ring (s.dring d n)).fetched op) with out := o } :=
  State.doorbell_eq _ _ _ _

/-- What a completion needs of the state: the rings' configuration, and the queue's own place and waiting entries, as before the fetch. -/
structure SameCq (s u : State) (d : Dom) (n : RingNo) : Prop where
  regs : ∀ i, u.ringCfg i = s.ringCfg i
  belay : u.belay.entries = s.belay.entries
  dev : u.dev = s.dev
  func : u.func d = s.func d
  ring : u.ring (s.dring d (s.cqOf d n)) = s.ring (s.dring d (s.cqOf d n))

theorem SameCq.fetch (h : RingReady ty s d n x) : SameCq s (s.fetch d n) d n := by
  obtain ⟨o, ho⟩ := State.fetch_eq s d n true
  rw [ho]
  exact ⟨fun _ => rfl, rfl, rfl, rfl, State.ring_setRing_other _ _ _ _ h.cq_ne⟩

theorem SameCq.dring {u : State} (g : SameCq s u d n) (m : RingNo) : u.dring d m = s.dring d m := by
  simp only [State.dring, State.entry, g.belay]

theorem SameCq.cqOf {u : State} (g : SameCq s u d n) : u.cqOf d n = s.cqOf d n := by
  simp only [State.cqOf, g.regs, g.dring]

theorem SameCq.active {u : State} (g : SameCq s u d n) : u.active d = s.active d := by
  unfold State.active State.entry; rw [g.belay, g.dev]

theorem SameCq.mute {u : State} (g : SameCq s u d n) : u.mute d = s.mute d := by
  simp only [State.mute, g.active, g.func, g.dev]

theorem SameCq.room {u : State} (g : SameCq s u d n) : u.room d (s.cqOf d n) = s.room d (s.cqOf d n) := by
  simp only [State.room, g.regs, g.dring, g.ring]

theorem SameCq.cqOn {u : State} (g : SameCq s u d n) : u.ringOn d (s.cqOf d n) 3 = s.ringOn d (s.cqOf d n) 3 := by
  have hk : u.ringOk d (s.cqOf d n) = s.ringOk d (s.cqOf d n) := by
    unfold State.ringOk State.ringsHeld State.entry; rw [g.belay, g.active]
  simp only [State.ringOn, hk, g.regs, g.dring, g.ring]

theorem SameCq.entryOut {u : State} (g : SameCq s u d n) (e : CqEntry) : u.entryOut d (u.cqOf d n) e = s.entryOut d (s.cqOf d n) e := by
  simp only [State.entryOut, g.cqOf, g.dring, g.ring, g.regs]

/-- An entry is written at the index of its queue (R79). -/
theorem State.writeEntry_sends (s : State) (d : Dom) (cq : RingNo) (e : CqEntry) (isOp : Bool) :
    Sends s (s.writeEntry d cq e isOp) (s.entryOut d cq e) := by
  have key : ∃ v : State, v.out = s.out ++ [s.entryOut d cq e] ∧ ∃ l, (s.writeEntry d cq e isOp).out = v.out ++ l := by
    refine ⟨(s.emit (s.entryOut d cq e)).setRing (s.dring d cq)
      { s.ring (s.dring d cq) with head := (s.ring (s.dring d cq)).head + 1 }, rfl, ?_⟩
    unfold State.writeEntry State.doorbell
    dsimp only
    split <;> split <;> first | exact ⟨_, rfl⟩ | exact ⟨[], (List.append_nil _).symm⟩
  obtain ⟨v, hv, l, hl⟩ := key
  exact ⟨[s.entryOut d cq e] ++ l, by rw [hl, hv, List.append_assoc], by simp⟩

/-- A completion in such a state writes the entry at the queue's own index (R79). -/
theorem SameCq.complete {u : State} (g : SameCq s u d n) (h : RingReady ty s d n x) (status : Byte) (i0 : Word) (i1 : Half) (st : Option (BitVec 36)) (port : Byte) :
    Sends u (u.complete { dom := d, num := n, tag := x.tag, epoch := (s.func d).epoch } status i0 i1 st port)
      (s.entryOut d (s.cqOf d n)
        { tag := x.tag, status := status, num := n, info0 := i0, info1 := i1, stamp := st, port := port }) := by
  have hc : ∀ v : State, SameCq s v d n → v.out = u.out →
      Sends u (if v.mute d || v.dev.recovery then v.endOp d n
        else if v.ringOn d (v.cqOf d n) 3 && (v.ring (v.dring d (v.cqOf d n))).wait.isEmpty && decide (0 < v.room d (v.cqOf d n)) then
          v.writeEntry d (v.cqOf d n) { tag := x.tag, status := status, num := n, info0 := i0, info1 := i1, stamp := st, port := port } true
        else
          let r := v.ring (v.dring d (v.cqOf d n))
          let w := v.setRing (v.dring d (v.cqOf d n)) { r with wait := r.wait ++ [({ tag := x.tag, status := status, num := n, info0 := i0, info1 := i1, stamp := st, port := port }, true)] }
          if w.ringOn d (v.cqOf d n) 3 then w.countDev 8 else w)
        (s.entryOut d (s.cqOf d n)
          { tag := x.tag, status := status, num := n, info0 := i0, info1 := i1, stamp := st, port := port }) := by
    intro v gv hv
    have h1 : (v.mute d || v.dev.recovery) = false := by rw [gv.mute, h.mute, gv.dev, h.path]; rfl
    have h2 : (v.ringOn d (v.cqOf d n) 3 && (v.ring (v.dring d (v.cqOf d n))).wait.isEmpty && decide (0 < v.room d (v.cqOf d n))) = true := by
      simp [gv.cqOf, gv.cqOn, h.cqOn, gv.dring, gv.ring, h.waitEmpty, gv.room, h.room]
    rw [if_neg (by simp [h1]), if_pos h2]
    have := State.writeEntry_sends v d (v.cqOf d n) { tag := x.tag, status := status, num := n, info0 := i0, info1 := i1, stamp := st, port := port } true
    rw [gv.entryOut] at this
    obtain ⟨l, hl, ho⟩ := this
    exact ⟨l, by rw [hl, hv], ho⟩
  have he : ((s.func d).epoch ≠ (u.func d).epoch) = False := by rw [g.func]; simp
  unfold State.complete
  dsimp only
  rw [if_neg (by rw [g.func]; simp)]
  unfold State.completeE
  dsimp only
  split
  · exact hc _ ⟨g.regs, g.belay, g.dev, g.func, g.ring⟩ rfl
  · exact hc _ g rfl

/-- The same for the whole of a command: fetched, completed, and what the device does of itself after it. -/
theorem RingReady.answered (h : RingReady ty s d n x) {f : State → Op → State} {im : Bool} {u : State} {status : Byte} {i0 : Word} {i1 : Half}
    {st : Option (BitVec 36)} {port : Byte} (hm : Keeps false s u) (g : SameCq s u d n)
    (hf : f (s.fetch d n) { dom := d, num := n, tag := x.tag, epoch := (s.func d).epoch } =
      u.complete { dom := d, num := n, tag := x.tag, epoch := (s.func d).epoch } status i0 i1 st port) :
    Answered s (s.command d n x f im).noteMay.announce d n x status i0 := by
  have hk : Keeps false (s.command d n x f im) (s.command d n x f im).noteMay.announce := State.announce_keeps (State.noteMay_keeps (Keeps.refl _))
  refine ⟨{ tag := x.tag, status := status, num := n, info0 := i0, info1 := i1, stamp := st, port := port }, ?_, rfl, rfl, rfl, rfl⟩
  refine Sends.later ?_ hk
  unfold State.command
  dsimp only
  rw [if_neg (by rw [h.fetch]; decide), if_neg (by simp [h.path]), hf]
  exact (g.complete h status i0 i1 st port).of_mid hm

end Sys2Proof.Machine
end

