-- ==== Sys2Proof/Tests/Slice0.lean ====
section
/-! SUPPORT. Tests: small states, an ill-formed term for each check of Instr.wf, one-step tests with expected results from the spec, and for
every statement with hypotheses a state and operands that meet them. -/
namespace Sys2Proof.Tests
open Machine
set_option Elab.async false

/-! ### States -/

/-- A device that has booted, owned. -/
def up : State :=
  { State.reset with dev := { ready := true }, cairn := { running := true }, tmu := { started := true, reflock := true }, belay := { otp := { life := .owned } } }
/-- up with a window of D0 over low host memory, CMD ring 0 with one descriptor that waits, and its CQ, ring 1. -/
def cmd : State :=
  { up with
    regs := (RegFile.set [] (ringReg 0 .cfg) 0x445).set (ringReg 1 .cfg) 0x47,
    rings := [(0, { active := true, idx := 1 }), (1, { active := true })],
    belay := { up.belay with windows := [(0, { valid := true, read := true, write := true, base := 0, limit := 0xFFFFFFFF })] } }
/-- A descriptor with its bytes 4 to 31 as a number, and ADDR in such a number. -/
def dsc (n : Nat) : Desc := { flags := 0, tag := 7, body := BitVec.ofNat 224 n }
def adr (a : Nat) : Nat := a * 2 ^ 160
/-- cmd with ring 0 a TX ring of port 3, which is in NORMAL. -/
def tx : State := ((cmd.setReg (ringReg 0 .cfg) 0x30441).setPort 3 { state := .normal, joined := true, busIdle := true })
/-- cmd with object 5 of D0, a valid send object of port 3 in the class of 64 bytes. -/
def sendObj : Obj := { cfg := { cfg0 := 0x37 } }
def osend : State := (cmd.setPort 3 { state := .normal, joined := true, busIdle := true }).setObj 0 5 sendObj
/-- A frame, an operation of D0, and a candidate that is ready. -/
def frm : CanFrame := { fmt := .cc, ident := 0x123, ide := false, rtr := false, brs := false, esi := false, dlc := 0, sdt := 0, vcid := 0, sec := false, af := 0, data := [] }
def op0 : Op := { dom := 0, num := 0, tag := 1, epoch := 0 }
def cand0 : Cand := { slot := 0, order := 0, src := .ring 0, op := op0, frame := frm, ready := true }
def norm : Port := { state := .normal, joined := true, busIdle := true }
/-- An attempt of the candidate in slot 0. -/
def att0 : Attempt := { what := .cand 0, frame := frm, sof := 100 }
/-- cmd with port 3 as given. -/
def holding (x : Port) : State := cmd.setPort 3 x
def err0 : ErrEvent := { kind := .stuff, tx := false, arbStuff := false, dominantInFlag := false, dominantAfterFlag := false, flagBitErrors := 0, longRuns := 0, xlData := false, unknownFormat := false }
/-- Group 1 with ports 2 to 4 as members. -/
def grp (g : Group) : State := (cmd.setReg (.grp 1 .members) 0x1C).setGroup 1 g
def test0 (k i : Nat) : SelfTest := { op := op0, kind := k, index := i, force := false, started := true }
/-- cmd with gateway rule 4 of D0. -/
def ruled : State := { cmd with spur := { cmd.spur with rules := [(4, some { body := 5, owner := 0, hits := 3 })] } }
/-- Group 1 with members 2 to 4 in given states of port and group. -/
def grpP (g : Group) (x : Port) : State := (((grp g).setPort 2 x).setPort 3 x).setPort 4 x
def branches16 (x : BranchSt) : Vector BranchSt 16 := Vector.replicate 16 x
/-- cmd with link 1 as given. -/
def rl1 (x : Link) : State := { cmd with links := cmd.links.set 1 x }
/-- A frame of a kind with a payload. -/
def rf0 (k : BitVec 3) (p : List Byte) : RlFrame := { dest := 9, src := 3, cls := 1, kind := k, rtag := 7, seqNo := 5, version := 1, twin := false, wrapped := false, ttl := 9, stamp := 0, payload := p }
def fabric1 (f : Fabric) (x : Link) : State := { rl1 x with fab := f }
/-- ring 0 a TX ring of EP1, which is enabled and has its link. -/
def epTx (x : EthPort) : State := { (cmd.setReg (ringReg 0 .cfg) 0x10641).setReg (.ep 1 .cfg) 1 with eths := cmd.eths.set 1 x }
def item0 : EthItem := { op := op0, bytes := [1], attempts := 1 }
/-- A component image in a slot. -/
def img0 : Slot := { bytes := [1], present := true, passes := true, family := 1, svn := 1, floor := 3 }
/-- reset with images in both slots of every component. -/
def unbooted : State := { State.reset with cairn := { State.reset.cairn with comps := Vector.replicate 7 { a := img0, b := img0 } } }
/-- up with every right over SMBus. -/
def managed (c : Cairn) : State := { up.setReg .domSmb 0x7F with cairn := { c with running := true } }
def manager : State := managed up.cairn
/-- cmd with an input of rule 4 in the gateway region, and object 6 of D0 a send object with a request pending. -/
def fedRule (r : Rule) : State :=
  { cmd.setObj 0 6 { cfg := { cfg0 := 0x37 }, pending := true } with
    spur := { cmd.spur with rules := [(4, some r)], inputs := [(4, { bytes := List.replicate 16 0 ++ [9], isSealed := false, stamp := 0 })] } }
def rule0 : Rule := { body := 0x600000001, owner := 0 }
def gin0 : GwIn := { bytes := List.replicate 16 0 ++ [9], isSealed := false, stamp := 0 }
/-- Source 66 of D0 asserted at target 5, enabled. -/
def claim0 : State := ((up.setReg (.evcWord 0 0 2) 4).setReg (.evcSrc 0 66) 0x55).setReg (.fn 0 .fltHipri) 1
/-- cmd with an in-place activation of slot B of component 0002h under way, decided with reason r, for a descriptor of ring 0. -/
def acting (r : Byte) : State :=
  { cmd with cairn := { cmd.cairn with activating := some { who := .owner, dom := 16, comp := 1, slotB := true, inPlace := true, reason := r, image := {}, op := some op0 } } }
/-- A port that no engine serves. -/
def unserved (p : PortId) (s : State) : State := { s with spur := { s.spur with attached := s.spur.attached.set p none } }

/-! ### Structures from their decidable parts -/

def tablesOkB (s : State) : Bool :=
  RegFile.wf s.regs && Tbl.wf 0 s.tarn && Tbl.wf {} s.rings && Tbl.wf {} s.objs && Tbl.wf 0 s.flt && Tbl.wf {} s.routes && Tbl.wf 0 s.counts
    && Tbl.wf false s.halves && Tbl.wf none s.belay.keys

theorem tablesOk_of {s : State} (h : tablesOkB s = true) : TablesOk s := by
  simp only [tablesOkB, Bool.and_eq_true] at h
  obtain ⟨⟨⟨⟨⟨⟨⟨⟨a, b⟩, c⟩, d⟩, e⟩, f⟩, g⟩, i⟩, j⟩ := h
  exact ⟨a, b, c, d, e, f, g, i, j⟩

theorem ringReady_of {ty : Nat} {s : State} {d : Dom} {n : RingNo} {x : Desc}
    (h : s.ringOn d n ty = true ∧ ty ≠ 3 ∧ s.fetchable d n (x.flags.getLsbD 2) = true ∧ s.dev.recovery = false ∧ s.ringOn d (s.cqOf d n) 3 = true ∧
      0 < s.room d (s.cqOf d n) ∧ Tbl.wf {} s.rings = true) : RingReady ty s d n x :=
  ⟨h.1, h.2.1, h.2.2.1, h.2.2.2.1, h.2.2.2.2.1, h.2.2.2.2.2.1, h.2.2.2.2.2.2⟩

theorem portCmdReady_of {s : State} {d : Dom} {p : PortId}
    (h : Writes s d (s.portOwner p) ∧ s.heldBack (fun a => a.ports.getLsbD p.val) = false ∧ s.underTest p = false) : PortCmdReady s d p :=
  ⟨h.1, h.2.1, h.2.2⟩

theorem ringWrite_of {s : State} {d : Dom} {n : RingNo}
    (h : s.answers = true ∧ s.active d = true ∧ n.val < s.ringsHeld d ∧
      s.heldBack (fun a => a.rings.any (fun x => inRangeOf x (s.dring d n))) = false) : RingWrite s d n :=
  ⟨h.1, h.2.1, h.2.2.1, h.2.2.2⟩

theorem rlTakes_of {s : State} {k : LinkId} {a : RlArrival}
    (h : rlReceives (s.link k) = true ∧ (s.link k).encOn = false ∧ a.under = none ∧ rlKnown a.frame = true ∧ a.frame.ttl ≠ 0) : RlTakes s k a :=
  ⟨h.1, by rw [h.2.1]; exact h.2.2.1, h.2.2.2.1, h.2.2.2.2⟩

theorem bootAhead_of {s : State}
    (h : s.dev.ready = false ∧ (s.dev.stage = .held ∨ s.dev.stage = .rom ∨ s.dev.stage = .otp) ∧ s.dev.absent = 0 ∧ s.dev.recovery = false) : BootAhead s :=
  ⟨h.1, h.2.1, h.2.2.1, h.2.2.2⟩

/-- The command stops with a fault, or is refused. -/
def faults (i : Instr) (s : State) (f : Fault) : Bool :=
  match exec i s with
  | .fault g => g == f
  | _ => false
def refuses (i : Instr) (s : State) (r : Refusal) : Bool :=
  match exec i s with
  | .refused q => q == r
  | _ => false

/-- The command completes, and what it leaves passes a check. -/
def gives (i : Instr) (s : State) (p : State → Bool) : Bool :=
  match exec i s with
  | .next t => p t
  | _ => false

theorem next_of {i : Instr} {s : State} (h : gives i s (fun _ => true) = true) : ∃ t, exec i s = .next t := by
  unfold gives at h
  split at h
  · exact ⟨_, ‹_›⟩
  · cases h

/-! ### Ill-formed commands -/

/-- A frame whose DLC says one byte. -/
def longFrame : CanFrame := { frm with dlc := 1 }
def longRl : RlArrival := { frame := rf0 kHello (List.replicate 2113 0) }

theorem smoke_well_formed : Instr.wf (.frameReceived 3 frm ⟨0, 0⟩ 3) = true ∧ Instr.wf (.portStart 0 3) = true ∧ Instr.wf (.nop 0 0 (dsc 0)) = true := by
  decide +kernel
theorem smoke_register_write : Instr.wf (.registerWrite 0 (.bar0 2) .low 0) = false ∧ Instr.wf (.registerWrite 0 (.bar0 4) .whole 0) = false ∧
    Instr.wf (.registerWrite 0 (.bar2 4) .high 0) = false ∧ Instr.wf (.registerWrite 0 (.bar4 1) .low 0) = false := by decide +kernel
theorem smoke_kick : Instr.wf (.devKick 0 0x1FF (List.replicate 65 0)) = false := by decide +kernel
theorem smoke_data_operands : Instr.wf (.ethTx 0 0 (dsc 20) []) = false ∧ Instr.wf (.objWrite 0 0 (dsc (2 ^ 16)) []) = false ∧
    Instr.wf (.keyLoad 0 0 (dsc 1) []) = false ∧ Instr.wf (.attest 0 0 (dsc 0) []) = false ∧ Instr.wf (.imgWrite 0 0 (dsc (2 ^ 32)) [] true) = false ∧
    Instr.wf (.gwRule 0 0 (dsc 0) []) = false ∧ Instr.wf (.trvWrite 0 0 (dsc (2 ^ 32)) []) = false ∧
    Instr.wf (.rtWrite 0 0 (dsc (2 ^ 32)) []) = false := by decide +kernel
theorem smoke_signatures : Instr.wf (.ownerEnrol 0 0 (dsc 0) []) = false ∧ Instr.wf (.ownerRelease 0 0 (dsc 0) []) = false ∧
    Instr.wf (.retire 0 0 (dsc 0) []) = false ∧ Instr.wf (.rmaEnter 0 0 (dsc 0) []) = false ∧ Instr.wf (.debugUnlock []) = false := by decide +kernel
theorem smoke_frames : Instr.wf (.wakeFrame 3 longFrame) = false ∧ Instr.wf (.frameReceived 3 longFrame ⟨0, 0⟩ 3) = false ∧
    Instr.wf (.frameReceived 3 { frm with ident := 2048 } ⟨0, 0⟩ 3) = false ∧ Instr.wf (.frameReceived 3 { frm with fmt := .fd, rtr := true } ⟨0, 0⟩ 3) = false ∧
    Instr.wf (.frameReceived 3 { frm with fmt := .xl } ⟨0, 0⟩ 3) = false := by decide +kernel
theorem smoke_payloads : Instr.wf (.payloadLoaded 3 0 false (some (List.replicate 2049 0))) = false ∧
    Instr.wf (.ethFrameReceived 0 [] true true 0) = false := by decide +kernel
theorem smoke_ridge_frames : Instr.wf (.hello 0 longRl) = false ∧ Instr.wf (.keyx 0 longRl) = false ∧ Instr.wf (.topo 0 longRl) = false ∧
    Instr.wf (.addrReq 0 longRl) = false ∧ Instr.wf (.addrAssign 0 longRl) = false ∧ Instr.wf (.routed 0 longRl) = false ∧
    Instr.wf (.timeSync 0 longRl 0) = false ∧ Instr.wf (.timeReply 0 longRl 0) = false := by decide +kernel
theorem smoke_sensors : Instr.wf (.sensorSample (.temp [0])) = false ∧ Instr.wf (.sensorSample (.temp (List.replicate 6 601))) = false ∧
    Instr.wf (.sensorSample (.rail (List.replicate 8 4001))) = false ∧ Instr.wf (.sensorSample (.pace [])) = false ∧
    Instr.wf (.sensorSample (.age [])) = false := by decide +kernel

/-! ### One step -/

/-- The table gives no row bits. -/
theorem test_no_table_words : decodeTableWord 16 0x1234 = none ∧ State.reset.withFetchWord 16 0x1234 = State.reset := by decide +kernel
/-- R483: a write before READY is dropped. -/
theorem test_write_before_ready :
    gives (.registerWrite 0 (.bar0 (BitVec.ofNat 19 (Reg.port 3 .rxdly).off)) .low 5) State.reset (fun t => t == State.reset) = true := by decide +kernel
/-- R125: ENABLE of a port whose bank has its supply leads from OFF to STOPPED, STATE 1. -/
theorem test_port_enable : gives (.portEnable 0 3) up (fun t => (t.port 3).state.code == 1) = true := by decide +kernel
/-- R102: without the supply it stays OFF. -/
theorem test_port_enable_no_bank :
    gives (.portEnable 0 3) { up with dev := { up.dev with banks := Vector.replicate 4 0 } } (fun t => (t.port 3).state.code == 0) = true := by decide +kernel
/-- R125: START is not valid in OFF: CMD_REFUSED. -/
theorem test_port_start_off : gives (.portStart 0 3) up (fun t => (t.port 3).state.code == 0 && t.rb (.port 3 .evt) 5) = true := by decide +kernel
/-- R11, R76, R186: NOP completes 00h: TAG little-endian, STATUS, the ring, and PHASE 1 in the first pass. -/
theorem test_nop : gives (.nop 0 0 (dsc 0)) cmd (fun t => match t.out with
    | [.completion _ _ _ e] => e.take 4 == [7, 0, 0x00, 0x80] && e.length == 16
    | _ => false) = true := by decide +kernel
/-- R77: an opcode that a CMD ring does not take completes 32h. -/
theorem test_bad_opcode : gives (.invalidOpcodeDescriptor 0 0 0x01 (dsc 0)) cmd (fun t => match t.out with
    | [.completion _ _ _ e] => e.getD 2 0 == 0x32
    | _ => false) = true := by decide +kernel
/-- R207, R211: 8 more as transmitter take TEC from 248 to 256, bus-off. -/
theorem test_bus_off : gives (.errorDetected 3 { err0 with tx := true }) (holding { norm with tec := 248 })
    (fun t => (t.port 3).tec == 256 && (t.port 3).state.code == 6) = true := by decide +kernel
/-- R207: 247 and 8 more are 255, which is not. -/
theorem test_not_bus_off : gives (.errorDetected 3 { err0 with tx := true }) (holding { norm with tec := 247 })
    (fun t => (t.port 3).tec == 255 && (t.port 3).state.code == 3) = true := by decide +kernel
/-- R442: an accepted MODE 1 below HI raises, at the VID written. -/
theorem test_mode_raise : gives (.modeWrite 0 0x1A1) up (fun t => t.cairn.mode == .raising && t.cairn.vidNow == 10) = true := by decide +kernel
/-- R441: VID 0 is no code of SUMMIT: REASON 01h. -/
theorem test_mode_refused : gives (.modeWrite 0 0x001) up (fun t => t.cairn.mode == .base && t.cairn.reason == 1) = true := by decide +kernel
/-- R43, R46: an erased slot is empty. -/
theorem test_key_erase : gives (.keyErase 0 0 (dsc 4)) { cmd with belay := { cmd.belay with keys := [(4, some { dom := 0, sealing := true, key := 7 })] } }
    (fun t => (t.key 4).isNone) = true := by decide +kernel
/-- R353: the third HELLO in a row from one SERIAL takes a link to UP, STATE 4. -/
theorem test_third_hello : gives (.hello 1 { frame := rf0 kHello (List.replicate 32 0) }) (rl1 { state := .hello, helloCount := 2 })
    (fun t => (t.link 1).state.code == 4) = true := by decide +kernel
/-- R243: START of a group whose members are STOPPED leads to JOINING, STATE 1. -/
theorem test_group_start : gives (.groupStart 0 1) (grpP {} { state := .stopped }) (fun t => (t.group 1).state.code == 1) = true := by decide +kernel
/-- Log 12: a blob of the wrong length stops the model by name. -/
theorem test_data_length : faults (.keyLoad 0 0 (dsc (1 + adr 0x1000)) []) cmd .dataLength = true := by decide +kernel
/-- Log 13: a frame of a port whose engine runs an image of another family. -/
theorem test_other_family :
    refuses (.errorDetected 3 err0) { up with spur := { up.spur with engines := up.spur.engines.set 3 { up.spur.engines[3] with held := true, family := 2 } } } .otherImageFamily = true := by
  decide +kernel

/-- RNG_POLL: POLL_US 1000 and 1001 give the same interval, 999 µs after the last poll at the earliest. -/
theorem test_poll_capped :
    gives (.ringPoll 0 0 3) (cmd.setReg (ringReg 0 .poll) 1000) (fun t => t.raw == us 999 && (t.ring 0).idx == 3) = true ∧
    gives (.ringPoll 0 0 3) (cmd.setReg (ringReg 0 .poll) 1001) (fun t => t.raw == us 999 && (t.ring 0).idx == 3) = true := by decide +kernel

/-! ### The ciphers against the examples of their standards -/

/-- FIPS 197, appendix C: AES-128 and AES-256. -/
theorem test_aes : aesBlock ((List.range 16).map (BitVec.ofNat 8)) (beBytes 16 0x00112233445566778899AABBCCDDEEFF) = beBytes 16 0x69C4E0D86A7B0430D8CDB78070B4C55A ∧
    aesBlock ((List.range 32).map (BitVec.ofNat 8)) (beBytes 16 0x00112233445566778899AABBCCDDEEFF) = beBytes 16 0x8EA2B7CA516745BFEAFC49904B496089 := by decide +kernel
/-- NIST SP 800-38B, AES-128: the empty message and one block. -/
theorem test_cmac : aesCmac (beBytes 16 0x2B7E151628AED2A6ABF7158809CF4F3C) [] = beBytes 16 0xBB1D6929E95937287FA37D129B756746 ∧
    aesCmac (beBytes 16 0x2B7E151628AED2A6ABF7158809CF4F3C) (beBytes 16 0x6BC1BEE22E409F96E93D7E117393172A) = beBytes 16 0x070A16B46B4D4144F79BDD9DD04A287C := by
  decide +kernel
/-- The GCM example with a 256-bit key of zeros and one block of zeros. -/
theorem test_gcm : gcmSeal (List.replicate 32 0) (List.replicate 12 0) [] (List.replicate 16 0) =
    beBytes 32 0xCEA7403D4D606B6E074EC5D3BAF39D18D0D1C8A799996BF0265B98B5D48AB919 := by decide +kernel
/-- FIPS 180-4: SHA-384 of abc. -/
theorem test_sha384 : sha384 [0x61, 0x62, 0x63] =
    0xCB00753F45A35E8BB5A03D699AC65007272C32AB0EDED1631A8B605A43FF5BED8086072BA1E7CC2358BAECA134C825A7#384 := by decide +kernel
/-- The check value of the CRC-32: that of the digits 1 to 9. -/
theorem test_crc32 : ofLe (crc32 ((List.range 9).map (fun i => BitVec.ofNat 8 (0x31 + i)))) = 0xCBF43926 := by decide +kernel

/-! ### Statements with hypotheses: each clause is met by some state and operands -/

/-- R457: a Hetrum request of version 2. -/
theorem unknown_request : hetrumUnknown ([0x7E] ++ beBytes 2 Config.vendorId.toNat ++ [2, 0x80, 1]) = true := by
  simp [hetrumUnknown, beBytes, leBytes, slice, leAt, ofLe]

/-- It comes in one packet. -/
def unknownPacket (v : Nat) : List Byte :=
  mctpPacket (BitVec.ofNat 8 (manager.rf (.crn .smb) 0 7)) 0x10 0 9 0xC8 ([0x7E] ++ beBytes 2 v ++ [2, 0x80, 1])

theorem beBytes_two (v : Nat) : beBytes 2 v = [BitVec.ofNat 8 (v / 256), BitVec.ofNat 8 v] := by simp [beBytes, leBytes]

theorem unknown_packet_taken (v : Nat) : manager.smbusTake (unknownPacket v) = some (0xC8, [0x7E] ++ beBytes 2 v ++ [2, 0x80, 1]) := by
  simp only [unknownPacket, mctpPacket, beBytes_two, List.cons_append, List.nil_append, State.smbusTake, List.length_cons, List.length_nil]
  rw [if_pos]
  · rfl
  · exact ⟨by decide, by decide, rfl, rfl, rfl, rfl, .inl rfl, rfl⟩

theorem unknown_message (v : Nat) : manager.mctpMessage [unknownPacket v] = some ([0x7E] ++ beBytes 2 v ++ [2, 0x80, 1]) := by
  simp [State.mctpMessage, unknown_packet_taken, mctpRest, beBytes_two]

theorem meets_front_command_runs : (∃ (c : Instr) (rest : List Instr) (s : State), s.pending = c :: rest) ∧ ∃ s : State, s.pending = [] :=
  ⟨⟨.nop 0 0 (dsc 0), [], { cmd with pending := [.nop 0 0 (dsc 0)] }, rfl⟩, State.reset, rfl⟩

theorem meets_step_keeps_tables : ∃ s t : State, TablesOk s ∧ step s = .next t := by
  obtain ⟨t, h⟩ := next_of (i := .nop 0 0 (dsc 0)) (s := cmd) (by decide +kernel)
  exact ⟨{ cmd with pending := [.nop 0 0 (dsc 0)] }, t, tablesOk_of (by decide +kernel), h⟩

theorem meets_queue_output_and_raw : ∃ s t : State, step s = .next t := by
  obtain ⟨t, h⟩ := next_of (i := .nop 0 0 (dsc 0)) (s := cmd) (by decide +kernel)
  exact ⟨{ cmd with pending := [.nop 0 0 (dsc 0)] }, t, h⟩

theorem meets_every_command : ∃ (i : Instr) (s t : State), exec i s = .next t := by
  obtain ⟨t, h⟩ := next_of (i := .nop 0 0 (dsc 0)) (s := cmd) (by decide +kernel)
  exact ⟨_, _, t, h⟩

theorem meets_lifecycle_and_fuses : ∃ (i : Instr) (s t : State), exec i s = .next t ∧ s.belay.otp.life = .unowned := by
  obtain ⟨t, h⟩ := next_of (i := .retire 0 0 (dsc 0) (List.replicate 96 0)) (s := { cmd with belay := { cmd.belay with otp := { life := .unowned } } })
    (by decide +kernel)
  exact ⟨_, _, t, h, rfl⟩

theorem meets_stops_only_by_name : ∃ (i : Instr) (s : State), (∀ p, s.otherFamily p = false) ∧ fits i s = true :=
  ⟨.nop 0 0 (dsc 0), up, by decide +kernel, by decide +kernel⟩

theorem cmd_live : cmd.liveSubmission 0 = [0] := by decide +kernel

/-- POLL_US at and above its cap of 1000 (clauses 2 and 4). -/
theorem meets_index_reads_at_cap : ∀ x : DWord, x = 1000 ∨ x = 1001 → ∃ s : State, s.rf (ringReg 0 .poll) 0 10 = x.toNat ∧ TablesOk s ∧
    s.ringLive 0 0 = true ∧ ringType (s.ringCfg 0) ≠ 3 ∧
    (3 - ((s.waitFrom (s.ring 0).polledAt (us (min 1000 (s.rf (ringReg 0 .poll) 0 10) - 1))).ring 0).head : Half).toNat ≤ ringSize (s.ringCfg 0) ∧
    ringSize (s.ringCfg 0) < (30 - ((s.waitFrom (s.ring 0).polledAt (us (min 1000 (s.rf (ringReg 0 .poll) 0 10) - 1))).ring 0).head : Half).toNat := by
  rintro x (rfl | rfl)
  · exact ⟨cmd.setReg (ringReg 0 .poll) 1000, by decide +kernel, tablesOk_of (by decide +kernel), by decide +kernel⟩
  · exact ⟨cmd.setReg (ringReg 0 .poll) 1001, by decide +kernel, tablesOk_of (by decide +kernel), by decide +kernel⟩

theorem meets_port_enable_disable_sleep_wake_restart :
    (∃ (s : State) (d : Dom) (p : PortId), PortCmdReady s d p ∧ (s.port p).state = .off ∧ s.bankOn p = true ∧ s.imagePresent = true) ∧
    (∃ (s : State) (d : Dom) (p : PortId), PortCmdReady s d p ∧ s.groupOf p = none ∧ ((s.port p).state = .stopped ∨ (s.port p).state = .sleep)) ∧
    (∃ (s : State) (d : Dom) (p : PortId), PortCmdReady s d p ∧ s.groupOf p = none ∧ (s.port p).state = .stopped ∧ (¬(s.rf (.port p .sleep) 0 2 = 1 ∧ (s.rf (.port p .sleep) 4 10 < 50 ∨ 500 < s.rf (.port p .sleep) 4 10)))) ∧
    (∃ (s : State) (d : Dom) (p : PortId), PortCmdReady s d p ∧ (s.port p).state = .sleep) ∧
    (∃ (s : State) (d : Dom) (p : PortId), PortCmdReady s d p ∧ s.groupOf p = none ∧ (s.port p).state = .busoff ∧ (s.port p).boAuto = false) ∧
    (∃ (s : State) (d : Dom) (p : PortId), PortCmdReady s d p ∧ (s.port p).state = .off ∧ s.bankOn p = false) ∧
    (∃ (s : State) (d : Dom) (p : PortId), PortCmdReady s d p ∧ ¬((s.port p).state = .busoff ∧ (s.port p).boAuto = false)) :=
  ⟨⟨up, 0, 3, portCmdReady_of (by decide +kernel), by decide +kernel⟩,
    ⟨up.setPort 3 {state := .stopped}, 0, 3, portCmdReady_of (by decide +kernel), by decide +kernel⟩,
    ⟨up.setPort 3 {state := .stopped}, 0, 3, portCmdReady_of (by decide +kernel), by decide +kernel⟩,
    ⟨up.setPort 3 {state := .sleep}, 0, 3, portCmdReady_of (by decide +kernel), by decide +kernel⟩,
    ⟨up.setPort 3 {state := .busoff}, 0, 3, portCmdReady_of (by decide +kernel), by decide +kernel⟩,
    ⟨{ up with dev := { up.dev with banks := Vector.replicate 4 0 } }, 0, 3, portCmdReady_of (by decide +kernel), by decide +kernel⟩,
    ⟨up, 0, 3, portCmdReady_of (by decide +kernel), by decide +kernel⟩⟩

theorem meets_port_start_stop :
    (∃ (s : State) (d : Dom) (p : PortId), PortCmdReady s d p ∧ s.groupOf p = none ∧ (s.port p).state = .stopped ∧ s.startCode p = 0 ∧ (s.spur.attached[p]).isSome = true) ∧
    (∃ (s : State) (d : Dom) (p : PortId), PortCmdReady s d p ∧ s.groupOf p = none ∧ (running (s.port p).state = true ∨ (s.port p).state = .hold)) ∧
    (∃ (s : State) (d : Dom) (p : PortId), PortCmdReady s d p ∧ s.groupOf p = none ∧ ((s.port p).state = .busoff ∨ (s.port p).state = .isolated)) ∧
    (∃ (s : State) (p : PortId), (s.port p).onWire = none ∧ (s.port p).integ = false ∧ s.silentMember p = false ∧ s.anchorOf p = none ∧ ((s.port p).stopPending = true ∨ (s.port p).refStop = true)) :=
  ⟨⟨(up.setPort 3 {state := .stopped}).setReg (.port 3 .mode) 0, 0, 3, portCmdReady_of (by decide +kernel), by decide +kernel⟩,
    ⟨tx.setPort 3 { state := .normal, joined := true }, 0, 3, portCmdReady_of (by decide +kernel), by decide +kernel⟩,
    ⟨up.setPort 3 {state := .busoff}, 0, 3, portCmdReady_of (by decide +kernel), by decide +kernel⟩,
    ⟨tx.setPort 3 { state := .normal, stopPending := true }, 3, by decide +kernel⟩⟩

theorem meets_records_apply :
    (∃ (s : State) (d : Dom) (v : Word), Writes s d 0 ∧ v.getLsbD 0 = true ∧ s.belay.applying = none ∧ recKind s.stageBytes = 1 ∧ s.checkRecord s.stageBytes = 0) ∧
    (∃ (s : State) (d : Dom) (v : Word), Writes s d 0 ∧ v.getLsbD 0 = true ∧ s.belay.applying = none ∧ recKind s.stageBytes = 2 ∧ s.checkRecord s.stageBytes = 0 ∧ Tbl.wf {} s.belay.windows = true) ∧
    (∃ (s : State) (d : Dom) (v : Word), Writes s d 0 ∧ v.getLsbD 0 = true ∧ s.belay.applying = none ∧ recKind s.stageBytes = 3 ∧ s.checkRecord s.stageBytes = 0 ∧ Tbl.wf 0 s.belay.routeDom = true) ∧
    (∃ (s : State) (d : Dom) (v : Word), Writes s d 0 ∧ v.getLsbD 0 = true ∧ s.belay.applying = none ∧ recKind s.stageBytes = 4 ∧ s.checkRecord s.stageBytes = 0) :=
  ⟨⟨((up.setReg (.domStage 0) 0x0101).setReg (.domStage 1) 0x0), 0, 1, by decide +kernel⟩,
    ⟨((up.setReg (.domStage 0) 0x07000002).setReg (.domStage 4) 0xFFF), 0, 1, by decide +kernel⟩,
    ⟨((up.setReg (.domStage 0) 0x00100003).setReg (.domStage 1) 0x4), 0, 1, by decide +kernel⟩,
    ⟨((up.setReg (.domStage 0) 0x0004).setReg (.domStage 1) 0x0), 0, 1, by decide +kernel⟩⟩

theorem meets_record_ends :
    (∃ (s : State) (a : Applying), s.belay.applying = some a ∧ ((a.kind ≠ 4 ∨ a.result ≠ 0 ∨ s.reclaimDone a = true))) ∧
    (∃ (s : State) (a : Applying), s.belay.applying = some a ∧ a.held = [] ∧ ((a.kind ≠ 4 ∨ a.result ≠ 0 ∨ s.reclaimDone a = true)) ∧ s.dev.absent.getLsbD 0 = false ∧ s.log.intake.length < 256) ∧
    (∃ (s : State) (a : Applying), s.belay.applying = some a ∧ a.kind = 4 ∧ a.result = 0 ∧ s.reclaimDone a = false) :=
  ⟨⟨{ up with belay := { up.belay with applying := some { kind := 1, dom := 1 } } }, { kind := 1, dom := 1 }, by decide +kernel⟩,
    ⟨{ up with belay := { up.belay with applying := some { kind := 1, dom := 1 } } }, { kind := 1, dom := 1 }, by decide +kernel⟩,
    ⟨{ (up.setPort 3 { state := .normal }) with belay := { up.belay with applying := some { kind := 4, dom := 0, ports := 8 } } }, { kind := 4, dom := 0, ports := 8 }, by decide +kernel⟩⟩

theorem meets_register_writes :
    (∃ (s : State) (d : Dom) (off : BitVec 19) (w : Width) (_ : DWord) (p : PortId) (q : PortReg), s.serves = true ∧ s.active d = true ∧ s.ringBeyond d off.toNat = false ∧ s.regAt d off.toNat = some (.port p q, false) ∧ s.portOwner p = d ∧ q ≠ .cmd ∧ q ≠ .pair ∧ (w = .low ∨ (Reg.port p q).wide = false ∧ w = .whole)) ∧
    (∃ (s : State) (d : Dom) (off : BitVec 19) (_ : DWord) (p : PortId) (q : PortReg), s.serves = true ∧ s.active d = true ∧ s.ringBeyond d off.toNat = false ∧ s.regAt d off.toNat = some (.port p q, false) ∧ s.portOwner p = d ∧ q ≠ .cmd ∧ q ≠ .pair ∧ (Reg.port p q).wide = true) ∧
    (∃ (s : State) (d : Dom) (off : BitVec 19) (w : Width) (_ : DWord) (r : Reg) (hi : Bool), s.serves = true ∧ s.active d = true ∧ w ≠ .high ∧ s.ringBeyond d off.toNat = false ∧ s.regAt d off.toNat = some (r, hi) ∧ s.regOwner r ≠ d ∧ s.dev.absent.getLsbD 0 = false ∧ s.log.intake.length < 256) ∧
    (∃ (s : State) (d : Dom) (_ : BitVec 22) (w : Width) (_ : DWord), TablesOk s ∧ s.serves = true ∧ s.active d = true ∧ d ≠ 0 ∧ w ≠ .high) ∧
    (∃ (s : State) (d : Dom) (off : BitVec 13) (_ : DWord), s.serves = true ∧ s.active d = true ∧ off.toNat % 16 = 8 ∧ off.toNat < 2048 ∧ Tbl.wf 0 (s.func d).vecTable = true) ∧
    (∃ (s : State) (_ : Bool) (_ : Dom), s.serves = true) ∧
    (∃ (s : State) (d : Dom) (_ : Bool) (_ : Bool), s.serves = true ∧ (d = 0 ∨ (s.dev.vfEnable = true ∧ d ≤ s.dev.numVfs))) ∧
    (∃ (s : State) (_ : Dom) (_ : Target) (_ : Width) (_ : DWord), s.dev.ready = false) :=
  ⟨⟨up, 0, BitVec.ofNat 19 (Reg.port 3 .rxdly).off, .whole, 5, 3, .rxdly, by decide +kernel⟩,
    ⟨up, 0, BitVec.ofNat 19 (Reg.port 3 .wakedata).off, 0x123456789, 3, .wakedata, by decide +kernel⟩,
    ⟨{ up with dev := { up.dev with vfEnable := true, numVfs := 3 }, belay := { up.belay with entries := up.belay.entries.set 2 { valid := true } } }, 2, BitVec.ofNat 19 (Reg.port 3 .rxdly).off, .whole, 5, .port 3 .rxdly, false, by decide +kernel⟩,
    ⟨{ up with dev := { up.dev with vfEnable := true, numVfs := 3 }, units := up.units.set 2 [7], belay := { up.belay with entries := up.belay.entries.set 2 { valid := true, tarnQuota := 1 } } }, 2, 8, .whole, 0x55, tablesOk_of (by decide +kernel), by decide +kernel⟩,
    ⟨up, 0, 24, 0x55, by decide +kernel⟩,
    ⟨up, true, 3, by decide +kernel⟩,
    ⟨up, 0, true, false, by decide +kernel⟩,
    ⟨State.reset, 0, .bar2 8, .whole, 3, by decide +kernel⟩⟩

theorem meets_ring_enable_disable :
    (∃ (s : State) (d : Dom) (n : RingNo) (v : Word), RingWrite s d n ∧ TablesOk s ∧ v.getLsbD 0 = true ∧ bit (s.ringCfg (s.dring d n)) 0 = false ∧ (s.writeFields d (ringReg (s.dring d n) .cfg) mask32 (v.setWidth 64) (fun f => f.lo == 0)).enableOk d n = true) ∧
    (∃ (s : State) (d : Dom) (n : RingNo) (v : Word), RingWrite s d n ∧ TablesOk s ∧ v.getLsbD 0 = false ∧ bit (s.ringCfg (s.dring d n)) 0 = true) ∧
    (∃ (s : State) (d : Dom) (n : RingNo), TablesOk s ∧ s.ringOk d n = true ∧ bit (s.ringCfg (s.dring d n)) 0 = false ∧ (s.ring (s.dring d n)).active = true ∧ s.ringDone d n = true) ∧
    (∃ (s : State) (d : Dom) (n : RingNo) (v : Word) (b : Half × DWord), RingWrite s d n ∧ TablesOk s ∧ v.getLsbD 0 = false ∧ bit (s.ringCfg (s.dring d n)) 0 = true ∧ ringType (s.ringCfg (s.dring d n)) = 1 ∧ s.cqOf d n ≠ n ∧ (s.ring (s.dring d n)).posted = [b] ∧ (s.ring (s.dring d n)).frames = [] ∧ s.mute d = false ∧ s.dev.recovery = false ∧ s.ringOn d (s.cqOf d n) 3 = true ∧ (s.ring (s.dring d (s.cqOf d n))).wait = [] ∧ 0 < s.room d (s.cqOf d n)) :=
  ⟨⟨(cmd.setReg (ringReg 2 .cfg) 0x444 |>.setReg (ringReg 2 .addr) 0x1000).setReg (.fn 0 .dbb) 1, 0, 2, 0x445, ringWrite_of (by decide +kernel), tablesOk_of (by decide +kernel), by decide +kernel⟩,
    ⟨cmd, 0, 0, 0x444, ringWrite_of (by decide +kernel), tablesOk_of (by decide +kernel), by decide +kernel⟩,
    ⟨(cmd.setReg (ringReg 2 .cfg) 0x444).setRing 2 { active := true }, 0, 2, tablesOk_of (by decide +kernel), by decide +kernel⟩,
    ⟨(cmd.setReg (ringReg 0 .cfg) 0x443).setRing 0 { active := true, posted := [(5, 64)] }, 0, 0, 0x442, (5, 64), ringWrite_of (by decide +kernel), tablesOk_of (by decide +kernel), by decide +kernel⟩⟩

theorem meets_index_reads :
    (∃ (s : State) (d : Dom) (v : Word) (n : RingNo) (w : Half) (_ : List Half), TablesOk s ∧ s.answers = true ∧ s.active d = true ∧ v.toNat % 512 = n.val ∧ s.ringLive d n = true ∧ s.rb (ringReg (s.dring d n) .status) 29 = false ∧ ringType (s.ringCfg (s.dring d n)) ≠ 3 ∧ (w - (s.ring (s.dring d n)).head).toNat ≤ ringSize (s.ringCfg (s.dring d n))) ∧
    (∃ (s : State) (u : State) (d : Dom) (n : RingNo) (w : Half), u = s.waitFrom (s.ring (s.dring d n)).polledAt (us (min 1000 (s.rf (ringReg (s.dring d n) .poll) 0 10) - 1)) ∧ TablesOk s ∧ s.ringLive d n = true ∧ s.rf (ringReg (s.dring d n) .poll) 0 10 ≠ 0 ∧ ringType (s.ringCfg (s.dring d n)) ≠ 3 ∧ (w - (u.ring (s.dring d n)).head).toNat ≤ ringSize (s.ringCfg (s.dring d n))) ∧
    (∃ (s : State) (u : State) (d : Dom) (n : RingNo) (w : Half), u = s.waitFrom (s.ring (s.dring d n)).polledAt (us 9) ∧ TablesOk s ∧ s.ringLive d n = true ∧ s.stalled d n = true ∧ ((u.ring (s.dring d n)).head - w).toNat ≤ ringSize (s.ringCfg (s.dring d n))) ∧
    (∃ (s : State) (u : State) (d : Dom) (n : RingNo) (w : Half), u = s.waitFrom (s.ring (s.dring d n)).polledAt (us (min 1000 (s.rf (ringReg (s.dring d n) .poll) 0 10) - 1)) ∧ s.ringLive d n = true ∧ s.rf (ringReg (s.dring d n) .poll) 0 10 ≠ 0 ∧ ringType (s.ringCfg (s.dring d n)) ≠ 3 ∧ ringSize (s.ringCfg (s.dring d n)) < (w - (u.ring (s.dring d n)).head).toNat) ∧
    (∃ (s : State) (d : Dom) (v : Word) (ws : List Half), TablesOk s ∧ s.answers = true ∧ s.active d = true ∧ v.toNat % 512 = 0x1FF ∧ (s.liveSubmission d).length ≤ ws.length ∧ (∀ e ∈ (s.liveSubmission d).zip ws, (e.2 - (s.ring (s.dring d e.1)).head).toNat ≤ ringSize (s.ringCfg (s.dring d e.1)))) :=
  ⟨⟨cmd, 0, 0, 0, 3, [], tablesOk_of (by decide +kernel), by decide +kernel⟩,
    ⟨cmd.setReg (ringReg 0 .poll) 5, _, 0, 0, 3, rfl, tablesOk_of (by decide +kernel), by decide +kernel⟩,
    ⟨cmd.setRing 1 { active := true, wait := [({ tag := 0, status := 0, num := 0 }, true)] }, _, 0, 1, 0, rfl, tablesOk_of (by decide +kernel), by decide +kernel⟩,
    ⟨cmd.setReg (ringReg 0 .poll) 5, _, 0, 0, 30, rfl, by decide +kernel⟩,
    ⟨cmd, 0, 0x1FF, [3], tablesOk_of (by decide +kernel), by decide +kernel, by decide +kernel, by decide, by rw [cmd_live]; decide +kernel,
      by rw [cmd_live]; intro e h; cases List.mem_singleton.mp h; decide +kernel⟩⟩

theorem meets_doorbell_and_stamp_queue :
    (∃ (s : State) (d : Dom) (v : DWord), s.answers = true ∧ s.active d = true ∧ s.rb (.fn d .dbb) 0 = false ∧ v.getLsbD 0 = true ∧ s.ringsIdle d = true ∧ s.inWindow d (v &&& ~~~ (4095 : DWord)).toNat 4096 true true = true) ∧
    (∃ (s : State) (d : Dom) (v : DWord), s.serves = true ∧ s.active d = true ∧ s.rb (.fn d .tsq) 0 = false ∧ s.rb (.fn d .dbb) 0 = true ∧ v.getLsbD 0 = true ∧ s.inWindow d (v &&& ~~~ (1023 : DWord)).toNat 1024 true true = true) :=
  ⟨⟨{ cmd with rings := [], regs := [] }, 0, 0x3001, by decide +kernel⟩,
    ⟨cmd.setReg (.fn 0 .dbb) 1, 0, 0x3001, by decide +kernel⟩⟩

theorem meets_nop_bad_opcode_and_buffers :
    (∃ (s : State) (d : Dom) (n : RingNo) (x : Desc) (ty : Nat), RingReady ty s d n x ∧ reservedZero x [] = true ∧ ((ty = 0 → bit (s.ringCfg (s.dring d n)) 9 = true ∨ halted (s.port (s.ringPort d n)).state = false))) ∧
    (∃ (s : State) (d : Dom) (n : RingNo) (op : Byte) (x : Desc) (ty : Nat), RingReady ty s d n x ∧ opcodeOk (s.ringCfg (s.dring d n)) op = false ∧ ((ty = 0 → bit (s.ringCfg (s.dring d n)) 9 = true ∨ halted (s.port (s.ringPort d n)).state = false))) ∧
    (∃ (s : State) (d : Dom) (n : RingNo) (x : Desc), TablesOk s ∧ s.ringOn d n 1 = true ∧ s.fetchable d n (dfence x) = true ∧ reservedZero x [fAddr] = true ∧ (daddr x).toNat % 64 = 0 ∧ (s.ring (s.dring d n)).frames = []) ∧
    (∃ (s : State) (d : Dom) (n : RingNo) (x : Desc), RingReady 1 s d n x ∧ ((reservedZero x [fAddr] = false ∨ (daddr x).toNat % 64 ≠ 0))) :=
  ⟨⟨cmd, 0, 0, dsc 0, 2, ringReady_of (by decide +kernel), by decide +kernel⟩,
    ⟨cmd, 0, 0, 3, dsc 0, 2, ringReady_of (by decide +kernel), by decide +kernel⟩,
    ⟨cmd.setReg (ringReg 0 .cfg) 0x443, 0, 0, dsc (adr 0x1000), tablesOk_of (by decide +kernel), by decide +kernel⟩,
    ⟨cmd.setReg (ringReg 0 .cfg) 0x443, 0, 0, dsc (adr 0x1010), ringReady_of (by decide +kernel), by decide +kernel⟩⟩

theorem meets_tx_frames :
    (∃ (s : State) (d : Dom) (n : RingNo) (x : Desc), s.otherFamily (s.ringPort d n) = false ∧ s.ringOn d n 0 = true ∧ bit (s.ringCfg (s.dring d n)) 9 = false ∧ halted (s.port (s.ringPort d n)).state = false ∧ s.fetchable d n (dfence x) = true ∧ s.flushing (s.ringPort d n) = false ∧ s.portTakes d (s.ringPort d n) n (bit (s.ringCfg (s.dring d n)) 8) = true ∧ s.txCode d (s.ringPort d n) x = none ∧ ((∀ k, s.groupOf (s.ringPort d n) = some k → (s.group k).state = .stopped ∨ s.traverse k = false))) ∧
    (∃ (s : State) (d : Dom) (n : RingNo) (x : Desc) (code : Byte), RingReady 0 s d n x ∧ s.otherFamily (s.ringPort d n) = false ∧ bit (s.ringCfg (s.dring d n)) 9 = false ∧ s.portTakes d (s.ringPort d n) n (bit (s.ringCfg (s.dring d n)) 8) = true ∧ s.txCode d (s.ringPort d n) x = some code) ∧
    (∃ (s : State) (d : Dom) (n : RingNo) (x : Desc), RingReady 0 s d n x ∧ s.otherFamily (s.ringPort d n) = false ∧ bit (s.ringCfg (s.dring d n)) 9 = false ∧ s.flushing (s.ringPort d n) = true ∧ halted (s.port (s.ringPort d n)).state = false ∧ s.txCode d (s.ringPort d n) x = none) :=
  ⟨⟨tx, 0, 0, dsc 0x123, by decide +kernel⟩,
    ⟨tx, 0, 0, dsc (0x123 + 2^32 * 3), 0x32, ringReady_of (by decide +kernel), by decide +kernel⟩,
    ⟨(tx.setPort 3 {state := .busoff, flush := true}), 0, 0, dsc 0x123, ringReady_of (by decide +kernel), by decide +kernel⟩⟩

theorem meets_object_reads :
    (∃ (s : State) (d : Dom) (n : RingNo) (x : Desc), CmdReady s d n x ∧ TablesOk s ∧ reservedZero x [(4, 0, 16), fAddr] = true ∧ dnum x 4 2 < 8192 ∧ objValid (s.obj d (dnum x 4 2)) = true ∧ s.inWindow d (daddr x).toNat (16 + classBytes (objClass (s.obj d (dnum x 4 2)).cfg)) false true = true ∧ (s.obj d (dnum x 4 2)).copying = false) ∧
    (∃ (s : State) (d : Dom) (n : RingNo) (x : Desc), CmdReady s d n x ∧ TablesOk s ∧ reservedZero x [(4, 0, 16), fAddr] = true ∧ dnum x 4 2 < 8192 ∧ objValid (s.obj d (dnum x 4 2)) = true ∧ s.inWindow d (daddr x).toNat (16 + classBytes (objClass (s.obj d (dnum x 4 2)).cfg)) false true = true ∧ (s.obj d (dnum x 4 2)).copying = true) ∧
    (∃ (s : State) (d : Dom) (o : BitVec 13) (op : Op) (e : CqEntry), TablesOk s ∧ (s.obj d o.toNat).copying = true ∧ (s.obj d o.toNat).reading = some (op, e) ∧ (s.obj d o.toNat).readers = [] ∧ s.ringOn d (s.cqOf d e.num) 3 = true ∧ (s.ring (s.dring d (s.cqOf d e.num))).wait = [] ∧ 0 < s.room d (s.cqOf d e.num) ∧ s.mute d = false ∧ s.dev.recovery = false) :=
  ⟨⟨osend, 0, 0, dsc (5 + adr 0x1000), ringReady_of (by decide +kernel), tablesOk_of (by decide +kernel), by decide +kernel⟩,
    ⟨osend.setObj 0 5 { sendObj with copying := true, reading := some ({dom := 0, num := 0, tag := 1, epoch := 0}, { tag := 1, status := 0, num := 0 })}, 0, 0, dsc (5 + adr 0x1000), ringReady_of (by decide +kernel), tablesOk_of (by decide +kernel), by decide +kernel⟩,
    ⟨osend.setObj 0 5 { sendObj with copying := true, reading := some ({dom := 0, num := 0, tag := 1, epoch := 0}, { tag := 1, status := 0, num := 0 })}, 0, 5, {dom := 0, num := 0, tag := 1, epoch := 0}, { tag := 1, status := 0, num := 0 }, tablesOk_of (by decide +kernel), by decide +kernel⟩⟩

theorem meets_object_writes_and_sends :
    (∃ (s : State) (d : Dom) (n : RingNo) (x : Desc) (payload : List Byte), CmdReady s d n x ∧ TablesOk s ∧ reservedZero x [(4, 0, 32), (8, 0, 1), fAddr] = true ∧ dnum x 4 2 < 8192 ∧ payload.length = dnum x 6 2 ∧ objValid (s.obj d (dnum x 4 2)) = true ∧ objIsSend (s.obj d (dnum x 4 2)) = true ∧ s.objLenOk d (s.obj d (dnum x 4 2)).cfg (dnum x 6 2) = true ∧ ((dnum x 6 2 = 0 ∨ s.inWindow d (daddr x).toNat (dnum x 6 2) true false = true)) ∧ dbit x 8 0 = false) ∧
    (∃ (s : State) (d : Dom) (n : RingNo) (x : Desc) (payload : List Byte), CmdReady s d n x ∧ TablesOk s ∧ reservedZero x [(4, 0, 32), (8, 0, 1), fAddr] = true ∧ dnum x 4 2 < 8192 ∧ payload.length = dnum x 6 2 ∧ objValid (s.obj d (dnum x 4 2)) = true ∧ objIsSend (s.obj d (dnum x 4 2)) = true ∧ s.objLenOk d (s.obj d (dnum x 4 2)).cfg (dnum x 6 2) = true ∧ ((dnum x 6 2 = 0 ∨ s.inWindow d (daddr x).toNat (dnum x 6 2) true false = true)) ∧ dbit x 8 0 = true ∧ s.sendBad d (s.obj d (dnum x 4 2)) (dnum x 6 2) = false ∧ (s.obj d (dnum x 4 2)).pending = false ∧ halted (s.port (objPort (s.obj d (dnum x 4 2)).cfg)).state = false ∧ s.flushing (objPort (s.obj d (dnum x 4 2)).cfg) = false ∧ ((∀ k, s.groupOf (objPort (s.obj d (dnum x 4 2)).cfg) = some k → (s.group k).state = .stopped ∨ s.traverse k = false))) ∧
    (∃ (s : State) (d : Dom) (n : RingNo) (x : Desc), CmdReady s d n x ∧ TablesOk s ∧ reservedZero x [(4, 0, 16)] = true ∧ dnum x 4 2 < 8192 ∧ objValid (s.obj d (dnum x 4 2)) = true ∧ objIsSend (s.obj d (dnum x 4 2)) = true ∧ s.sendBad d (s.obj d (dnum x 4 2)) (s.obj d (dnum x 4 2)).len = false ∧ (s.obj d (dnum x 4 2)).pending = false ∧ halted (s.port (objPort (s.obj d (dnum x 4 2)).cfg)).state = false ∧ s.flushing (objPort (s.obj d (dnum x 4 2)).cfg) = false ∧ ((∀ k, s.groupOf (objPort (s.obj d (dnum x 4 2)).cfg) = some k → (s.group k).state = .stopped ∨ s.traverse k = false))) :=
  ⟨⟨osend, 0, 0, dsc (5 + 2^16 * 2 + adr 0x1000), [1, 2], ringReady_of (by decide +kernel), tablesOk_of (by decide +kernel), by decide +kernel⟩,
    ⟨osend, 0, 0, dsc (5 + 2^16 * 2 + 2^32 + adr 0x1000), [1, 2], ringReady_of (by decide +kernel), tablesOk_of (by decide +kernel), by decide +kernel⟩,
    ⟨osend, 0, 0, dsc (5), ringReady_of (by decide +kernel), tablesOk_of (by decide +kernel), by decide +kernel⟩⟩

theorem meets_windows_on_objects_and_elements :
    (∃ (s : State) (d : Dom), s.serves = true ∧ s.active d = true ∧ s.objBusy d = false) ∧
    (∃ (s : State) (d : Dom), TablesOk s ∧ s.serves = true ∧ s.active d = true ∧ s.objBusy d = false ∧ s.commitCode d (s.rf (.fn d .objSel) 0 13) (s.staged d) = 0) ∧
    (∃ (s : State) (d : Dom), s.serves = true ∧ s.active d = true ∧ s.objBusy d = false ∧ s.commitCode d (s.rf (.fn d .objSel) 0 13) (s.staged d) ≠ 0) ∧
    (∃ (s : State) (d : Dom), s.serves = true ∧ s.active d = true ∧ s.fltBusy d = false ∧ s.rf (.fn d .fltSel) 0 14 < (s.entry d).fltCount) ∧
    (∃ (s : State) (d : Dom), TablesOk s ∧ s.serves = true ∧ s.active d = true ∧ s.fltBusy d = false ∧ s.fltCode d (s.rf (.fn d .fltSel) 0 14) (s.fltStaged d) = 0) ∧
    (∃ (s : State) (d : Dom), s.serves = true ∧ s.active d = true ∧ s.fltBusy d = false ∧ s.fltCode d (s.rf (.fn d .fltSel) 0 14) (s.fltStaged d) ≠ 0) ∧
    (∃ (s : State) (d : Dom), s.serves = true ∧ s.active d = true ∧ s.objBusy d = true ∧ s.dev.absent.getLsbD 0 = false ∧ s.log.intake.length < 256) ∧
    (∃ (s : State) (d : Dom), s.serves = true ∧ s.active d = true ∧ s.fltBusy d = true ∧ s.dev.absent.getLsbD 0 = false ∧ s.log.intake.length < 256) :=
  ⟨⟨osend.setReg (.fn 0 .objSel) 5, 0, by decide +kernel⟩,
    ⟨(cmd.setReg (.fn 0 .objSel) 5).setReg (.fn 0 .objCfg0) 0x37, 0, tablesOk_of (by decide +kernel), by decide +kernel⟩,
    ⟨(cmd.setReg (.fn 0 .objSel) 5).setReg (.fn 0 .objCfg0) 0xFFFF0037, 0, by decide +kernel⟩,
    ⟨up.setReg (.fn 0 .fltSel) 5, 0, by decide +kernel⟩,
    ⟨up.setReg (.fn 0 .fltSel) 5, 0, tablesOk_of (by decide +kernel), by decide +kernel⟩,
    ⟨up.setReg (.fn 0 (.fltData 0)) 0x8, 0, by decide +kernel⟩,
    ⟨up.setFunc 0 { up.func 0 with objAt := some 0 }, 0, by decide +kernel⟩,
    ⟨up.setFunc 0 { up.func 0 with fltAt := some 0 }, 0, by decide +kernel⟩⟩

theorem meets_key_commands :
    (∃ (s : State) (d : Dom) (n : RingNo) (x : Desc) (h : Nat), CmdReady s d n x ∧ TablesOk s ∧ s.keyCheck x (s.opOf d n x) false = 0 ∧ s.freeHandle d = some h) ∧
    (∃ (s : State) (d : Dom) (n : RingNo) (x : Desc) (blob : List Byte) (h : Nat), CmdReady s d n x ∧ TablesOk s ∧ s.keyCheck x (s.opOf d n x) true = 0 ∧ s.freeHandle d = some h ∧ blob.length = blobLen (dnum x 4 1)) ∧
    (∃ (s : State) (d : Dom) (n : RingNo) (x : Desc), CmdReady s d n x ∧ TablesOk s ∧ reservedZero x [(4, 0, 8)] = true ∧ s.ownKey d (dnum x 4 1) = true) :=
  ⟨⟨cmd, 0, 0, dsc (1 + adr 0x1000), 0, ringReady_of (by decide +kernel), tablesOk_of (by decide +kernel), by decide +kernel⟩,
    ⟨cmd, 0, 0, dsc (1 + adr 0x1000), List.replicate 32 0, 0, ringReady_of (by decide +kernel), tablesOk_of (by decide +kernel), by decide +kernel⟩,
    ⟨{ cmd with belay := { cmd.belay with keys := [(4, some { dom := 0, sealing := true, key := 7 })] } }, 0, 0, dsc 4, ringReady_of (by decide +kernel), tablesOk_of (by decide +kernel), by decide +kernel⟩⟩

theorem meets_challenge_and_enrol :
    (∃ (s : State) (n : RingNo) (x : Desc), CmdReady s 0 n x ∧ reservedZero x [fAddr] = true ∧ s.inWindow 0 (daddr x).toNat 32 false true = true) ∧
    (∃ (s : State) (u : State) (c : BitVec 256) (r : DWord), u = s.advance (after r (sec 60)) ∧ s.belay.challenge = some (c, r)) ∧
    (∃ (s : State) (n : RingNo) (x : Desc) (key : List Byte) (i : Fin 8), CmdReady s 0 n x ∧ reservedZero x [fAddr] = true ∧ s.belay.otp.life = .unowned ∧ key.length = 96 ∧ s.inWindow 0 (daddr x).toNat 96 true false = true ∧ (s.belay.otp.slots[i]).used = false ∧ (∀ j : Fin 8, j < i → (s.belay.otp.slots[j]).used = true)) :=
  ⟨⟨cmd, 0, dsc (adr 0x1000), ringReady_of (by decide +kernel), by decide +kernel⟩,
    ⟨{ cmd with belay := { cmd.belay with challenge := some (5, 0) } }, _, 5, 0, rfl, by decide +kernel⟩,
    ⟨{ cmd with belay := { cmd.belay with otp := { life := .unowned } } }, 0, dsc (adr 0x1000), List.replicate 96 0, 0, ringReady_of (by decide +kernel), by decide +kernel⟩⟩

theorem meets_owner_leaves :
    (∃ (s : State) (n : RingNo) (x : Desc) (sig : List Byte), CmdReady s 0 n x ∧ reservedZero x [fAddr] = true ∧ s.belay.otp.life = .owned ∧ sig.length = 96 ∧ s.inWindow 0 (daddr x).toNat 96 true false = true) ∧
    (∃ (s : State) (n : RingNo) (x : Desc) (sig : List Byte), CmdReady s 0 n x ∧ reservedZero x [fAddr] = true ∧ s.belay.otp.life = .owned ∧ sig.length = 96 ∧ s.inWindow 0 (daddr x).toNat 96 true false = true) ∧
    (∃ (s : State) (n : RingNo) (x : Desc) (_ : List Byte), CmdReady s 0 n x ∧ reservedZero x [] = true ∧ s.belay.otp.life = .unowned) ∧
    (∃ (s : State) (n : RingNo) (x : Desc) (sig : List Byte), CmdReady s 0 n x ∧ reservedZero x [fAddr] = true ∧ s.belay.otp.life = .owned ∧ sig.length = 96 ∧ s.inWindow 0 (daddr x).toNat 96 true false = true) ∧
    (∃ (s : State) (v : Word), s.serves = true ∧ rstActs v = true) ∧
    (∃ (s : State), s.dev.ready = true ∧ s.cairn.resetDue = true) ∧
    (∃ (s : State), s.dev.ready = true) ∧
    (∃ (s : State) (_ : List Byte) (c : BitVec 256), s.belay.jtagChallenge = some c) :=
  ⟨⟨cmd, 0, dsc (adr 0x1000), List.replicate 96 0, ringReady_of (by decide +kernel), by decide +kernel⟩,
    ⟨cmd, 0, dsc (adr 0x1000), List.replicate 96 0, ringReady_of (by decide +kernel), by decide +kernel⟩,
    ⟨{ cmd with belay := { cmd.belay with otp := { life := .unowned } } }, 0, dsc 0, List.replicate 96 0, ringReady_of (by decide +kernel), by decide +kernel⟩,
    ⟨cmd, 0, dsc (adr 0x1000), List.replicate 96 0, ringReady_of (by decide +kernel), by decide +kernel⟩,
    ⟨cmd, 0xA5A5, by decide +kernel⟩,
    ⟨{ cmd with cairn := { cmd.cairn with resetDue := true } }, by decide +kernel⟩,
    ⟨cmd, by decide +kernel⟩,
    ⟨{ cmd with belay := { cmd.belay with jtagChallenge := some 5 } }, List.replicate 96 0, 5, by decide +kernel⟩⟩

theorem meets_attest_log_read_debug :
    (∃ (s : State) (d : Dom) (n : RingNo) (x : Desc) (nonce : List Byte), CmdReady s d n x ∧ reservedZero x [(4, 0, 32), fAddr] = true ∧ 1152 ≤ dnum x 4 4 ∧ nonce.length = 32 ∧ s.inWindow d (daddr x).toNat (dnum x 4 4) true true = true) ∧
    (∃ (s : State) (d : Dom) (n : RingNo) (x : Desc), CmdReady s d n x ∧ reservedZero x [(4, 0, 32), (8, 0, 16), fAddr] = true ∧ 1 ≤ dnum x 8 2 ∧ dnum x 8 2 ≤ 1024 ∧ s.inWindow d (daddr x).toNat ((dnum x 8 2 + 1) * 16) false true = true) ∧
    (∃ (s : State), s.belay.debugUnlocked = false ∧ (s.belay.otp.life = .owned ∨ s.belay.otp.life = .rma)) ∧
    (∃ (s : State) (_ : List Byte) (c : BitVec 256), s.belay.jtagChallenge = some c) :=
  ⟨⟨cmd, 0, 0, dsc (0x1000 + adr 0x1000), List.replicate 32 0, ringReady_of (by decide +kernel), by decide +kernel⟩,
    ⟨{ cmd with log := { cmd.log with intake := [] } }, 0, 0, dsc (0 + 2^32 * 1 + adr 0x1000), ringReady_of (by decide +kernel), by decide +kernel⟩,
    ⟨cmd, by decide +kernel⟩,
    ⟨{ cmd with belay := { cmd.belay with jtagChallenge := some 5 } }, List.replicate 96 0, 5, by decide +kernel⟩⟩

theorem meets_hold_command :
    (∃ (s : State) (d : Dom) (n : RingNo) (x : Desc) (p : PortId), CmdReady s d n x ∧ reservedZero x holdFields = true ∧ dnum x 4 1 = p.val ∧ s.portOwner p = d ∧ s.underTest p = false ∧ s.heldBack (fun a => a.ports.getLsbD p.val) = false ∧ s.groupOf p = none ∧ running (s.port p).state = true ∧ (s.port p).holdPending = none ∧ (BitVec.ofNat 32 (dnum x 8 4) : Word) ≠ 0) ∧
    (∃ (s : State) (d : Dom) (n : RingNo) (x : Desc) (p : PortId), CmdReady s d n x ∧ reservedZero x holdFields = true ∧ dnum x 4 1 = p.val ∧ s.portOwner p = d ∧ s.underTest p = false ∧ s.heldBack (fun a => a.ports.getLsbD p.val) = false ∧ s.groupOf p = none ∧ (s.port p).state = .hold ∧ (BitVec.ofNat 32 (dnum x 8 4) : Word) ≠ 0) ∧
    (∃ (s : State) (d : Dom) (n : RingNo) (x : Desc) (k : GrpId), CmdReady s d n x ∧ reservedZero x holdFields = true ∧ dnum x 4 1 = 0x40 + k.val ∧ s.grpOwner k = d ∧ s.heldBack (s.namesGroup k) = false ∧ ((s.group k).state = .coldstart ∨ (s.group k).state = .startup ∨ (s.group k).state = .normal) ∧ (s.group k).holdPending = none ∧ (BitVec.ofNat 32 (dnum x 8 4) : Word) ≠ 0) ∧
    (∃ (s : State) (d : Dom) (n : RingNo) (x : Desc) (p : PortId), CmdReady s d n x ∧ reservedZero x holdFields = true ∧ dnum x 4 1 = p.val ∧ s.portOwner p ≠ d) ∧
    (∃ (s : State) (p : PortId) (w : Word), (s.port p).holdPending = some w ∧ (s.port p).onWire = none ∧ running (s.port p).state = true ∧ (s.port p).seqOn = false ∧ s.groupOf p = none) ∧
    (∃ (s : State) (k : GrpId) (w : Word), (s.group k).holdPending = some w ∧ s.joinedIdle k = true ∧ ((s.group k).state = .coldstart ∨ (s.group k).state = .startup ∨ (s.group k).state = .normal)) ∧
    (∃ (s : State) (u : State) (p : PortId) (r : DWord), u = s.advance r ∧ (s.port p).state = .hold ∧ (s.port p).holdEnd = some r ∧ s.groupOf p = none) ∧
    (∃ (s : State) (k : GrpId) (r : DWord), (s.group k).state = .hold ∧ (s.group k).holdEnd = some r) :=
  ⟨⟨holding norm, 0, 0, dsc (3 + 2^32 * 500), 3, ringReady_of (by decide +kernel), by decide +kernel⟩,
    ⟨holding { norm with state := .hold, prior := .normal }, 0, 0, dsc (3 + 2^32 * 500), 3, ringReady_of (by decide +kernel), by decide +kernel⟩,
    ⟨grp { state := .normal }, 0, 0, dsc (0x41 + 2^32 * 500), 1, ringReady_of (by decide +kernel), by decide +kernel⟩,
    ⟨{ cmd with belay := { cmd.belay with entries := cmd.belay.entries.set 2 { valid := true, ports := 8 } } }, 0, 0, dsc (3 + 2^32 * 500), 3, ringReady_of (by decide +kernel), by decide +kernel⟩,
    ⟨holding { norm with holdPending := some 500 }, 3, 500, by decide +kernel⟩,
    ⟨grp { state := .normal, holdPending := some 500 }, 1, 500, by decide +kernel⟩,
    ⟨holding { norm with state := .hold, prior := .normal, holdEnd := some 5 }, _, 3, 5, rfl, by decide +kernel⟩,
    ⟨grp { state := .hold, prior := .normal, holdEnd := some 5 }, 1, 5, by decide +kernel⟩⟩

theorem meets_image_commands :
    (∃ (s : State) (n : RingNo) (x : Desc) (bytes : List Byte), CmdReady s 0 n x ∧ reservedZero x [(4, 0, 32), (8, 0, 32), fAddr] = true ∧ dnum x 8 4 % 256 = 0 ∧ dnum x 8 4 ≤ 0x10000 ∧ dnum x 4 4 % 256 = 0 ∧ dnum x 4 4 + dnum x 8 4 ≤ stagingSize ∧ bytes.length = dnum x 8 4 ∧ s.inWindow 0 (daddr x).toNat (dnum x 8 4) true false = true ∧ ((s.cairn.holder = .owner ∨ (dnum x 4 4 = 0 ∧ s.cairn.holder = .none_)))) ∧
    (∃ (s : State) (n : RingNo) (x : Desc) (bytes : List Byte), CmdReady s 0 n x ∧ reservedZero x [(4, 0, 32), (8, 0, 32), fAddr] = true ∧ dnum x 8 4 % 256 = 0 ∧ dnum x 8 4 ≤ 0x10000 ∧ dnum x 4 4 % 256 = 0 ∧ dnum x 4 4 + dnum x 8 4 ≤ stagingSize ∧ bytes.length = dnum x 8 4 ∧ s.inWindow 0 (daddr x).toNat (dnum x 8 4) true false = true ∧ s.cairn.holder = .owner) ∧
    (∃ (s : State) (n : RingNo) (x : Desc) (c : Fin 7), CmdReady s 0 n x ∧ reservedZero x [(4, 0, 16), (6, 0, 8)] = true ∧ compIx (dnum x 4 2) = some c ∧ (dnum x 6 1 = 0x80 ∨ dnum x 6 1 = 0x81) ∧ s.cairn.activating = none) ∧
    (∃ (s : State) (n : RingNo) (x : Desc) (c : Fin 7) (_ : Bool), CmdReady s 0 n x ∧ reservedZero x [(4, 0, 16), (6, 0, 8)] = true ∧ compIx (dnum x 4 2) = some c ∧ slotOk (dnum x 6 1) = true ∧ s.cairn.activating.isSome = true) ∧
    (∃ (s : State) (u : State) (a : Activating), u = (s.advance s.nextUs).wiresEnd.turnTests.endBusy ∧ s.pending = [] ∧ s.dev.ready = true ∧ u.cairn.activating = some a ∧ a.reason = 0 ∧ a.inPlace = true) ∧
    (∃ (s : State) (u : State) (a : Activating) (o : Op), u = (s.advance s.nextUs).wiresEnd.turnTests.endBusy ∧ s.pending = [] ∧ s.dev.ready = true ∧ u.cairn.activating = some a ∧ a.reason ≠ 0 ∧ a.op = some o ∧ o.epoch = (u.func o.dom).epoch ∧ u.mute o.dom = false ∧ u.dev.recovery = false ∧ u.ringOn o.dom (u.cqOf o.dom o.num) 3 = true ∧ (u.ring (u.dring o.dom (u.cqOf o.dom o.num))).wait = [] ∧ 0 < u.room o.dom (u.cqOf o.dom o.num)) :=
  ⟨⟨cmd, 0, dsc (0 + 2^32 * 256 + adr 0x1000), List.replicate 256 7, ringReady_of (by decide +kernel), by decide +kernel⟩,
    ⟨{ cmd with cairn := { cmd.cairn with holder := .owner } }, 0, dsc (256 + 2^32 * 256 + adr 0x1000), List.replicate 256 7, ringReady_of (by decide +kernel), by decide +kernel⟩,
    ⟨cmd.setComp 1 { b := { bytes := [1], present := true, passes := true, svn := 5 } }, 0, dsc (2 + 2^16 * 0x81), 1, ringReady_of (by decide +kernel), by decide +kernel⟩,
    ⟨{ cmd with cairn := { cmd.cairn with activating := some { who := .owner, dom := 16, comp := 1, slotB := false, inPlace := true, reason := 0, image := {}, op := none } } }, 0, dsc (2 + 2^16 * 0x81), 1, true, ringReady_of (by decide +kernel), by decide +kernel⟩,
    ⟨acting 0, _, { who := .owner, dom := 16, comp := 1, slotB := true, inPlace := true, reason := 0, image := {}, op := some op0 }, rfl, by decide +kernel⟩,
    ⟨acting 9, _, { who := .owner, dom := 16, comp := 1, slotB := true, inPlace := true, reason := 9, image := {}, op := some op0 }, op0, rfl, by decide +kernel⟩⟩

theorem meets_table_and_rule_commands :
    (∃ (s : State) (d : Dom) (n : RingNo) (x : Desc) (b : List Byte), CmdReady s d n x ∧ trvBad x = false ∧ s.grpOwner (trvGroup x) = d ∧ s.inWindow d (daddr x).toNat (32 * trvCount x) true false = true ∧ (s.group (trvGroup x)).state = .stopped ∧ b.length = 32 * trvCount x ∧ Tbl.wf 0 (s.group (trvGroup x)).table = true) ∧
    (∃ (s : State) (d : Dom) (n : RingNo) (x : Desc), CmdReady s d n x ∧ trvBad x = false ∧ s.grpOwner (trvGroup x) = d ∧ s.inWindow d (daddr x).toNat (32 * trvCount x) false true = true) ∧
    (∃ (s : State) (d : Dom) (n : RingNo) (x : Desc) (b : List Byte), CmdReady s d n x ∧ TablesOk s ∧ rtBad x = false ∧ s.rtForeign x d = false ∧ s.inWindow d (daddr x).toNat (32 * rtCount x) true false = true ∧ b.length = 32 * rtCount x ∧ (∀ i, i < rtCount x → rtEntryBad (slice b (32 * i) 32) = false)) ∧
    (∃ (s : State) (d : Dom) (n : RingNo) (x : Desc), CmdReady s d n x ∧ rtBad x = false ∧ s.rtForeign x d = false ∧ s.inWindow d (daddr x).toNat (32 * rtCount x) false true = true) ∧
    (∃ (s : State) (n : RingNo) (x : Desc), CmdReady s 0 n x ∧ reservedZero x [(4, 0, 32), fAddr] = true ∧ 8192 ≤ dnum x 4 4 ∧ s.inWindow 0 (daddr x).toNat (dnum x 4 4) false true = true) ∧
    (∃ (s : State) (d : Dom) (n : RingNo) (x : Desc) (b : List Byte), CmdReady s d n x ∧ trvBad x = false ∧ s.grpOwner (trvGroup x) = d ∧ s.inWindow d (daddr x).toNat (32 * trvCount x) true false = true ∧ (s.group (trvGroup x)).state ≠ .stopped ∧ b.length = 32 * trvCount x) ∧
    (∃ (s : State) (d : Dom) (n : RingNo) (x : Desc) (b : List Byte), CmdReady s d n x ∧ gwDescBad x = false ∧ gwOp x = 0 ∧ (s.entry d).gateway = true ∧ s.rule (fin 512 (gwNumber x)) = none ∧ b.length = 32 ∧ s.inWindow d (daddr x).toNat 32 true false = true ∧ gwRuleBad b = false ∧ ((d = 0 ∨ (leAt b 1 1 % 16 = d.val ∧ leAt b 1 1 / 16 = d.val)))) ∧
    (∃ (s : State) (d : Dom) (n : RingNo) (x : Desc) (b : List Byte) (old : Rule), CmdReady s d n x ∧ gwDescBad x = false ∧ gwOp x = 1 ∧ (s.entry d).gateway = true ∧ s.rule (fin 512 (gwNumber x)) = some old ∧ old.owner = d ∧ b.length = 32 ∧ s.inWindow d (daddr x).toNat 32 true false = true ∧ gwRuleBad b = false ∧ ((d = 0 ∨ (leAt b 1 1 % 16 = d.val ∧ leAt b 1 1 / 16 = d.val)))) ∧
    (∃ (s : State) (d : Dom) (n : RingNo) (x : Desc) (_ : List Byte) (old : Rule), CmdReady s d n x ∧ gwDescBad x = false ∧ gwOp x = 2 ∧ (s.entry d).gateway = true ∧ s.rule (fin 512 (gwNumber x)) = some old ∧ old.owner = d ∧ Tbl.wf none s.spur.rules = true) :=
  ⟨⟨cmd, 0, 0, dsc (1 + 2^16 * 5 + 2^32 + adr 0x1000), List.replicate 32 9, ringReady_of (by decide +kernel), by decide +kernel⟩,
    ⟨cmd, 0, 0, dsc (1 + 2^16 * 5 + 2^32 + adr 0x1000), ringReady_of (by decide +kernel), by decide +kernel⟩,
    ⟨cmd, 0, 0, dsc (0 + 2^16 * 5 + 2^32 + adr 0x1000), [5, 9] ++ List.replicate 30 0, ringReady_of (by decide +kernel), tablesOk_of (by decide +kernel), by decide +kernel⟩,
    ⟨cmd, 0, 0, dsc (0 + 2^16 * 5 + 2^32 + adr 0x1000), ringReady_of (by decide +kernel), by decide +kernel⟩,
    ⟨cmd, 0, dsc (8192 + adr 0x1000), ringReady_of (by decide +kernel), by decide +kernel⟩,
    ⟨grp { state := .normal }, 0, 0, dsc (1 + 2^16 * 5 + 2^32 + adr 0x1000), List.replicate 32 9, ringReady_of (by decide +kernel), by decide +kernel⟩,
    ⟨cmd, 0, 0, dsc (4 + adr 0x1000), List.replicate 32 0, ringReady_of (by decide +kernel), by decide +kernel⟩,
    ⟨ruled, 0, 0, dsc (4 + 2^16 + adr 0x1000), List.replicate 32 0, { body := 5, owner := 0, hits := 3 }, ringReady_of (by decide +kernel), by decide +kernel⟩,
    ⟨ruled, 0, 0, dsc (4 + 2^17), [], { body := 5, owner := 0, hits := 3 }, ringReady_of (by decide +kernel), by decide +kernel⟩⟩

theorem meets_self_tests :
    (∃ (s : State) (d : Dom) (n : RingNo) (x : Desc) (p : PortId), CmdReady s d n x ∧ reservedZero x [(4, 0, 8), (5, 0, 8), (6, 0, 1)] = true ∧ dnum x 4 1 = 0 ∧ dnum x 5 1 = p.val ∧ s.portOwner p = d ∧ s.cairn.test = none ∧ s.cairn.tests = [] ∧ s.liveGroup p = none ∧ ((s.port p).state = .off ∨ (s.port p).state = .stopped)) ∧
    (∃ (s : State) (d : Dom) (n : RingNo) (x : Desc) (p : PortId), CmdReady s d n x ∧ reservedZero x [(4, 0, 8), (5, 0, 8), (6, 0, 1)] = true ∧ dnum x 4 1 = 0 ∧ dnum x 5 1 = p.val ∧ s.portOwner p = d ∧ s.cairn.test = none ∧ s.cairn.tests = [] ∧ (s.port p).state = .sleep) ∧
    (∃ (s : State) (q : SelfTest), s.cairn.test = some q ∧ q.started = false ∧ q.kind = 0 ∧ q.force = true ∧ running (s.port (testPort q)).state = true ∧ s.liveGroup (testPort q) = none ∧ s.quiet (testPort q) = true) ∧
    (∃ (s : State) (q : SelfTest) (_ : Byte) (_ : Half), s.cairn.test = some q ∧ q.started = true ∧ q.kind = 0 ∧ q.force = false ∧ s.cairn.tests = [] ∧ s.cairn.deferred = [] ∧ s.cairn.deferredHolds = [] ∧ s.dev.absent.getLsbD 0 = false ∧ s.log.intake.length < 256) ∧
    (∃ (s : State) (q : SelfTest) (_ : Byte) (_ : Half), s.cairn.test = some q ∧ q.started = true ∧ q.kind = 1 ∧ (s.engine (testEngine q)).state = .testing ∧ s.cairn.tests = [] ∧ s.cairn.deferred = [] ∧ s.cairn.deferredHolds = []) :=
  ⟨⟨holding { state := .stopped }, 0, 0, dsc (2^8 * 3), 3, ringReady_of (by decide +kernel), by decide +kernel⟩,
    ⟨holding { state := .sleep }, 0, 0, dsc (2^8 * 3), 3, ringReady_of (by decide +kernel), by decide +kernel⟩,
    ⟨{ holding norm with cairn := { cmd.cairn with test := some { op := op0, kind := 0, index := 3, force := true } } }, { op := op0, kind := 0, index := 3, force := true }, by decide +kernel⟩,
    ⟨{ cmd with cairn := { cmd.cairn with test := some (test0 0 3) } }, test0 0 3, 5, 6, by decide +kernel⟩,
    ⟨{ cmd.setEngine 33 { state := .testing } with cairn := { cmd.cairn with test := some (test0 1 33) } }, test0 1 33, 5, 6, by decide +kernel⟩⟩

theorem meets_starts_and_commits :
    (∃ (s : State) (p : PortId) (sof : DWord) (c : Cand), TablesOk s ∧ s.otherFamily p = false ∧ s.groupOf p = none ∧ s.mayStart p = true ∧ s.ftEn p = false ∧ s.chosen p sof = some c ∧ s.sealStarts (s.startCand c) = true) ∧
    (∃ (s : State) (p : PortId) (a : Attempt), (s.port p).onWire = some a ∧ a.committed = false ∧ a.destroyed = false) ∧
    (∃ (s : State) (p : PortId) (a : Attempt) (i : Nat) (c : Cand) (h : Byte) (k : KeySlot), TablesOk s ∧ (s.port p).onWire = some a ∧ a.committed = false ∧ a.destroyed = false ∧ a.trailed = false ∧ a.what = .cand i ∧ candAt (s.port p) i = some c ∧ c.sealWith = some h ∧ s.ownKey c.op.dom h.toNat = true ∧ s.key h.toNat = some k) ∧
    (∃ (s : State) (p : PortId), (s.port p).suspend = true) :=
  ⟨⟨holding { norm with cands := [cand0] }, 3, 100, cand0, tablesOk_of (by decide +kernel), by decide +kernel⟩,
    ⟨holding { norm with onWire := some att0 }, 3, att0, by decide +kernel⟩,
    ⟨{ holding { norm with cands := [{ cand0 with sealWith := some 4 }], onWire := some att0 } with belay := { cmd.belay with keys := [(4, some { dom := 0, sealing := true, key := 7 })] } }, 3, att0, 0, { cand0 with sealWith := some 4 }, 4, { dom := 0, sealing := true, key := 7 }, tablesOk_of (by decide +kernel), by decide +kernel⟩,
    ⟨holding { norm with suspend := true }, 3, by decide +kernel⟩⟩

theorem meets_attempt_ends :
    (∃ (s : State) (p : PortId) (loop : Option Half) (a : Attempt) (i : Nat) (c : Cand), s.otherFamily p = false ∧ s.groupOf p = none ∧ running (s.port p).state = true ∧ (s.port p).state ≠ .test ∧ (s.port p).onWire = some a ∧ a.what = .cand i ∧ candAt (s.port p) i = some c ∧ c.sealWith = none ∧ c.quiet = false ∧ (s.spur.attached[p]).isSome = true ∧ a.destroyed = false ∧ s.tdcRange p a.frame loop = false ∧ c.op.epoch = (s.func c.op.dom).epoch ∧ s.mute c.op.dom = false ∧ s.dev.recovery = false ∧ s.ringOn c.op.dom (s.cqOf c.op.dom c.op.num) 3 = true ∧ (s.ring (s.dring c.op.dom (s.cqOf c.op.dom c.op.num))).wait = [] ∧ 0 < s.room c.op.dom (s.cqOf c.op.dom c.op.num)) ∧
    (∃ (s : State) (p : PortId) (_ : Option Half) (a : Attempt) (i : Nat) (c : Cand), s.otherFamily p = false ∧ running (s.port p).state = true ∧ (s.port p).onWire = some a ∧ a.what = .cand i ∧ candAt (s.port p) i = some c ∧ a.committed = false ∧ (s.spur.attached[p]).isSome = true ∧ (s.port p).stopPending = false ∧ (s.port p).refStop = false ∧ c.holdEnded = false ∧ c.ringOff = false ∧ c.alcount = false ∧ c.ending ≠ some 12 ∧ s.tdcOf p a.frame = none) :=
  ⟨⟨holding { norm with tec := 5, cands := [cand0], onWire := some att0 }, 3, none, att0, 0, cand0, by decide +kernel⟩,
    ⟨holding { norm with cands := [cand0], onWire := some att0 }, 3, none, att0, 0, cand0, by decide +kernel⟩⟩

theorem meets_errors_and_recovery :
    (∃ (s : State) (p : PortId) (e : ErrEvent), s.otherFamily p = false ∧ s.groupOf p = none ∧ running (s.port p).state = true ∧ (s.port p).state ≠ .test ∧ (s.port p).seqOn = false ∧ e.overload = false ∧ e.unknownFormat = false ∧ e.xlData = false ∧ s.underTest p = false ∧ (s.port p).tec + (errAdds e (passive (s.port p).tec (s.port p).rec_)).1 ≤ 255) ∧
    (∃ (s : State) (p : PortId) (e : ErrEvent), s.otherFamily p = false ∧ s.groupOf p = none ∧ (s.port p).state = .normal ∧ (s.port p).seqOn = false ∧ (s.port p).onWire = none ∧ e.overload = false ∧ e.unknownFormat = false ∧ e.xlData = false ∧ s.underTest p = false ∧ 255 < (s.port p).tec + (errAdds e (passive (s.port p).tec (s.port p).rec_)).1) ∧
    (∃ (s : State) (p : PortId) (e : ErrEvent), TablesOk s ∧ s.otherFamily p = false ∧ s.groupOf p = none ∧ running (s.port p).state = true ∧ (s.port p).state ≠ .test ∧ (s.port p).seqOn = false ∧ e.overload = true ∧ e.flagBitErrors = 0 ∧ e.unknownFormat = false ∧ e.xlData = false ∧ s.underTest p = false ∧ (s.port p).tec + (errAdds e (passive (s.port p).tec (s.port p).rec_)).1 ≤ 255) ∧
    (∃ (s : State) (p : PortId) (_ : ErrEvent), s.otherFamily p = false ∧ s.underTest p = true) ∧
    (∃ (s : State) (u : State) (p : PortId), u = s.waitFrom (s.port p).seqAt (1408 * s.nbt p) ∧ (s.port p).seqOn = true ∧ (s.port p).holdPending = none) :=
  ⟨⟨holding norm, 3, err0, by decide +kernel⟩,
    ⟨holding { norm with tec := 255 }, 3, { err0 with tx := true }, by decide +kernel⟩,
    ⟨holding norm, 3, { err0 with overload := true }, tablesOk_of (by decide +kernel), by decide +kernel⟩,
    ⟨{ holding { norm with state := .hold } with cairn := { cmd.cairn with test := some { op := op0, kind := 0, index := 3, force := true, started := true } } }, 3, err0, by decide +kernel⟩,
    ⟨holding { state := .busoff, prior := .normal, seqOn := true, tec := 256 }, _, 3, rfl, by decide +kernel⟩⟩

theorem meets_candidate_events :
    (∃ (s : State) (p : PortId) (c : Nat) (k : Cand) (bs : List Byte), candAt (s.port p) c = some k ∧ k.ready = false ∧ k.ending = none ∧ k.addr.isSome = true ∧ bs.length = k.len ∧ (lowestTwo ((s.port p).cands.filter inSet)).any (fun e => e.slot == c) = true ∧ bufferFor (s.port p) = true) ∧
    (∃ (s : State) (p : PortId) (c : Nat) (k : Cand), candAt (s.port p) c = some k ∧ k.ready = false ∧ k.ending = none ∧ k.addr.isSome = true ∧ k.reread = true ∧ (lowestTwo ((s.port p).cands.filter inSet)).any (fun e => e.slot == c) = true ∧ bufferFor (s.port p) = true) ∧
    (∃ (s : State) (p : PortId) (c : Nat) (k : Cand), TablesOk s ∧ candAt (s.port p) c = some k ∧ k.ready = false ∧ k.ending = none ∧ k.addr.isSome = true ∧ k.reread = false ∧ (lowestTwo ((s.port p).cands.filter inSet)).any (fun e => e.slot == c) = true ∧ bufferFor (s.port p) = true) ∧
    (∃ (s : State) (u : State) (p : PortId) (c : Nat) (k : Cand) (r : DWord), u = s.advance r ∧ candAt (s.port p) c = some k ∧ k.due = some r ∧ onWireSlot (u.port p) ≠ some c) ∧
    (∃ (s : State) (u : State) (p : PortId) (c : Nat) (k : Cand) (r : DWord), u = s.advance r ∧ candAt (s.port p) c = some k ∧ k.due = some r ∧ onWireSlot (u.port p) = some c) ∧
    (∃ (s : State) (u : State) (p : PortId) (c : Nat) (k : GrpId) (e : Cand) (m : DWord) (l : Int), u = s.advance (s.rawOfFlow (s.flow (s.group k).cycleAt + BitVec.ofInt 64 l)) ∧ s.anchorOf p = some k ∧ candAt (s.port p) c = some e ∧ s.may[k] = some m ∧ s.traverse k = true ∧ s.missWait k = false ∧ e.ready = true ∧ inSet e = true ∧ s.ownSlot p k e m = some l ∧ onWireSlot (u.port p) ≠ some c) ∧
    (∃ (s : State) (u : State) (p : PortId), u = s.advance (s.rawOf (s.beaconTime p)) ∧ s.ftEn p = true ∧ takesPart (s.port p) = true ∧ (s.port p).joined = true ∧ s.silentMember p = false ∧ s.tmu.started = true) :=
  ⟨⟨holding { norm with cands := [{ cand0 with ready := false, addr := some 64, len := 1 }] }, 3, 0, { cand0 with ready := false, addr := some 64, len := 1 }, [7], by decide +kernel⟩,
    ⟨holding { norm with cands := [{ cand0 with ready := false, addr := some 64, reread := true }] }, 3, 0, { cand0 with ready := false, addr := some 64, reread := true }, by decide +kernel⟩,
    ⟨holding { norm with cands := [{ cand0 with ready := false, addr := some 64 }] }, 3, 0, { cand0 with ready := false, addr := some 64 }, tablesOk_of (by decide +kernel), by decide +kernel⟩,
    ⟨holding { norm with cands := [{ cand0 with due := some 5 }] }, _, 3, 0, { cand0 with due := some 5 }, 5, rfl, by decide +kernel⟩,
    ⟨holding { norm with cands := [{ cand0 with due := some 5 }], onWire := some att0 }, _, 3, 0, { cand0 with due := some 5 }, 5, rfl, by decide +kernel⟩,
    ⟨{ ((((grp { state := .normal, table := [(0, (2^80+2^81+2^32*10000000+2^128*0x7FF : Nat))] }).setReg (.grp 1 .cfg) 1).setReg (.grp 1 .tbl) 1).setPort 2 { norm with cands := [cand0] }) with may := up.may.set 1 (some 0) }, _, 2, 0, 1, cand0, 0, 142336000, rfl, by decide +kernel⟩,
    ⟨(holding norm).setReg (.port 3 .ftcfg) 1, _, 3, rfl, by decide +kernel⟩⟩

theorem meets_frame_reception :
    (∃ (s : State) (p : PortId) (f : CanFrame) (_ : FrameTimes), s.otherFamily p = false ∧ s.liveGroup p = none ∧ s.hears p f = true ∧ (s.port p).state ≠ .isolated ∧ usedUnits (s.port p).spaces + stageUnits f.data.length ≤ 96) ∧
    (∃ (s : State) (p : PortId) (f : CanFrame) (_ : FrameTimes), s.otherFamily p = false ∧ s.liveGroup p = none ∧ s.hears p f = true ∧ (s.port p).state = .isolated ∧ (s.port p).fifo.length < 4) ∧
    (∃ (s : State) (p : PortId) (_ : CanFrame) (_ : FrameTimes) (q : PortId) (k : GrpId), s.otherFamily p = false ∧ s.liveGroup p = some k ∧ ((s.group k).branches[(fin 16 (s.branchNo k (s.arrivedOn k q)) : Fin 16)]).ignored = true) :=
  ⟨⟨holding norm, 3, frm, { sof := 100, done := 3000 }, by decide +kernel⟩,
    ⟨holding { norm with state := .isolated, prior := .normal }, 3, frm, { sof := 100, done := 3000 }, by decide +kernel⟩,
    ⟨grp { state := .normal, branches := (Vector.replicate 16 ({} : BranchSt)).set 1 { ignored := true } }, 2, frm, { sof := 100, done := 3000 }, 3, 1, by decide +kernel⟩⟩

theorem meets_filter_evaluation :
    (∃ (s : State) (d : Dom) (p : PortId) (f : RxFrame), TablesOk s ∧ s.rxq.find? (fun e => s.portOwner e.1 == d) = some (p, f) ∧ s.otherFamily p = false ∧ (∀ i ∈ s.listOf p, ¬(i < (s.entry d).fltCount ∧ elMatches (Tbl.get 0 s.flt ((s.entry d).fltBase + i)) f.frame = true)) ∧ s.rb (.fltPort p) 32 = false) ∧
    (∃ (s : State) (d : Dom) (p : PortId) (f : RxFrame) (i : Nat) (n : RingNo), TablesOk s ∧ s.rxq.find? (fun e => s.portOwner e.1 == d) = some (p, f) ∧ s.otherFamily p = false ∧ s.listOf p = [i] ∧ i < (s.entry d).fltCount ∧ elMatches (Tbl.get 0 s.flt ((s.entry d).fltBase + i)) f.frame = true ∧ elAction (Tbl.get 0 s.flt ((s.entry d).fltBase + i)) = 1 ∧ elSeal (Tbl.get 0 s.flt ((s.entry d).fltBase + i)) = false ∧ elMore (Tbl.get 0 s.flt ((s.entry d).fltBase + i)) = false ∧ s.ringCond d (elTarget (Tbl.get 0 s.flt ((s.entry d).fltBase + i))) = some n ∧ (s.ring (s.dring d n)).frames = [] ∧ (s.ring (s.dring d n)).posted = [] ∧ s.bufWait d n ≠ 0) ∧
    (∃ (s : State) (d : Dom) (n : RingNo) (w : RxWait), TablesOk s ∧ (s.ring (s.dring d n)).frames = [w] ∧ w.taken = []) :=
  ⟨⟨{ cmd with rxq := [(3, { frame := frm, sof := 100, arrived := 3 })] }, 0, 3, { frame := frm, sof := 100, arrived := 3 }, tablesOk_of (by decide +kernel), by decide +kernel⟩,
    ⟨{ (((cmd.setReg (ringReg 2 .cfg) 0x443).setReg (ringReg 2 .rxcfg) 10).setReg (.fltPort 3) 0x10000).setRing 2 { active := true } with flt := [(0, 0x7FF0000012300020111)], rxq := [(3, { frame := frm, sof := 100, arrived := 3 })] }, 0, 3, { frame := frm, sof := 100, arrived := 3 }, 0, 2, tablesOk_of (by decide +kernel), by decide +kernel⟩,
    ⟨cmd.setRing 2 { active := true, frames := [{ bytes := [], info0 := 0, status := 0, stamp := none, port := 3, block := 3, space := 0 }] }, 0, 2, { bytes := [], info0 := 0, status := 0, stamp := none, port := 3, block := 3, space := 0 }, tablesOk_of (by decide +kernel), by decide +kernel⟩⟩

theorem meets_wake_join_and_pairs :
    (∃ (s : State) (p : PortId) (low : Nat), (s.port p).state = .sleep ∧ (s.port p).wakeArmed = true ∧ s.rf (.port p .sleep) 0 2 = 1 ∧ 160 * s.rf (.port p .sleep) 4 10 ≤ low ∧ s.rb (.port p .sleep) 2 = false) ∧
    (∃ (s : State) (p : PortId) (low : Nat), (s.port p).state = .sleep ∧ (s.port p).wakeArmed = true ∧ s.rf (.port p .sleep) 0 2 = 1 ∧ 160 * s.rf (.port p .sleep) 4 10 ≤ low ∧ s.rb (.port p .sleep) 2 = true ∧ s.groupOf p = none ∧ s.startCode p = 0 ∧ (s.spur.attached[p]).isSome = true ∧ (s.port p).holdPending = none) ∧
    (∃ (s : State) (p : PortId) (fell : Bool) (low : Nat), (fell = false ∨ low < 160 * s.rf (.port p .sleep) 4 10 ∨ (s.port p).wakeArmed = false)) ∧
    (∃ (s : State) (p : PortId) (f : CanFrame), s.otherFamily p = false ∧ (s.port p).state = .sleep ∧ (s.port p).wakeArmed = true ∧ s.rf (.port p .sleep) 0 2 = 2 ∧ s.tmu.reflock = true ∧ s.wakeMatches p f = true ∧ s.rb (.port p .sleep) 2 = false) ∧
    (∃ (s : State) (p : PortId), takesPart (s.port p) = true ∧ s.silentMember p = false ∧ s.liveGroup p = none ∧ s.underTest p = false) ∧
    (∃ (s : State) (k : PairId), s.mayInsert k = true ∧ (s.pairs[k]).colOn = false) ∧
    (∃ (s : State) (u : State) (k : PairId), u = s.waitFrom (s.pairs[k]).travelAt (us (100 * s.colTravel k)) ∧ (s.pairs[k]).colOn = true ∧ (s.pairs[k]).travelDone = false) ∧
    (∃ (s : State) (k : PairId), (s.pairs[k]).travelDone = true ∧ (s.pairs[k]).inserted = false) :=
  ⟨⟨(holding { state := .sleep, wakeArmed := true }).setReg (.port 3 .sleep) 0x51, 3, 800, by decide +kernel⟩,
    ⟨((holding { state := .sleep, wakeArmed := true }).setReg (.port 3 .sleep) 5).setReg (.port 3 .mode) 0, 3, 0, by decide +kernel⟩,
    ⟨(holding { state := .sleep, wakeArmed := true }).setReg (.port 3 .sleep) 0x51, 3, true, 799, by decide +kernel⟩,
    ⟨(holding { state := .sleep, wakeArmed := true }).setReg (.port 3 .sleep) 2, 3, frm, by decide +kernel⟩,
    ⟨holding { state := .normal }, 3, by decide +kernel⟩,
    ⟨((grpP { state := .joining } norm)).setReg (.port 2 .pair) 1, 1, by decide +kernel⟩,
    ⟨{ cmd with pairs := cmd.pairs.set 1 { colOn := true } }, _, 1, rfl, by decide +kernel⟩,
    ⟨{ cmd with pairs := cmd.pairs.set 1 { colOn := true, travelDone := true } }, 1, by decide +kernel⟩⟩

theorem meets_group_commands :
    (∃ (s : State) (d : Dom) (k : GrpId), Writes s d (s.grpOwner k) ∧ s.heldBack (s.namesGroup k) = false ∧ (s.group k).state = .stopped ∧ s.groupCode k = 0) ∧
    (∃ (s : State) (d : Dom) (k : GrpId), Writes s d (s.grpOwner k) ∧ s.heldBack (s.namesGroup k) = false ∧ (s.group k).state = .stopped ∧ s.groupCode k ≠ 0) ∧
    (∃ (s : State) (d : Dom) (k : GrpId), Writes s d (s.grpOwner k) ∧ s.heldBack (s.namesGroup k) = false ∧ (s.group k).state ≠ .stopped) ∧
    (∃ (s : State) (k : GrpId), (s.group k).state ≠ .stopped ∧ s.joinedIdle k = true ∧ ((s.group k).stopPending = true ∨ (s.group k).refStop = true)) ∧
    (∃ (s : State) (d : Dom) (k : GrpId) (b : Branch), Writes s d (s.grpOwner k) ∧ s.heldBack (s.namesGroup k) = false ∧ (s.group k).state ≠ .stopped ∧ b.val < s.width k ∧ (s.branch k b).state = .isolated ∧ (s.branch k b).seqOn = false) ∧
    (∃ (s : State) (d : Dom) (k : GrpId), Writes s d (s.grpOwner k) ∧ s.heldBack (s.namesGroup k) = false ∧ (s.group k).state ≠ .stopped ∧ (s.port (s.anchor k)).state = .busoff ∧ (s.port (s.anchor k)).boAuto = false) ∧
    (∃ (s : State) (d : Dom) (k : GrpId) (b : Branch), Writes s d (s.grpOwner k) ∧ s.heldBack (s.namesGroup k) = false ∧ ((s.branch k b).state ≠ .isolated ∨ (s.branch k b).seqOn = true)) :=
  ⟨⟨grpP {} { state := .stopped }, 0, 1, by decide +kernel⟩,
    ⟨grpP {} {}, 0, 1, by decide +kernel⟩,
    ⟨grp { state := .normal }, 0, 1, by decide +kernel⟩,
    ⟨grp { state := .normal, stopPending := true }, 1, by decide +kernel⟩,
    ⟨grp { state := .normal, branches := branches16 { state := .isolated } }, 0, 1, 1, by decide +kernel⟩,
    ⟨grpP { state := .normal } { state := .busoff }, 0, 1, by decide +kernel⟩,
    ⟨grp { state := .normal, branches := branches16 { state := .joined } }, 0, 1, 1, by decide +kernel⟩⟩

theorem meets_branches :
    (∃ (s : State) (k : GrpId) (b : Branch), (s.group k).state ≠ .stopped ∧ (s.group k).state ≠ .joining ∧ b.val < s.width k ∧ (s.branch k b).state = .joining ∧ s.pairReady k b = true ∧ s.joinedIdle k = true) ∧
    (∃ (s : State) (k : GrpId) (b : Branch), (s.group k).state = .joining ∧ s.traverse k = false ∧ (s.group k).holdPending = none ∧ b.val < s.width k ∧ (s.branch k b).state = .joining ∧ s.pairReady k b = true ∧ s.joinedIdle k = true) ∧
    (∃ (s : State) (k : GrpId) (b : Branch), (s.group k).state ≠ .stopped ∧ b.val < s.width k ∧ ((s.branch k b).state = .joined ∨ (s.branch k b).state = .joining)) ∧
    (∃ (s : State) (u : State) (k : GrpId) (b : Branch), u = s.waitFrom (s.branch k b).seqAt (1408 * s.nbt (s.anchor k)) ∧ (s.group k).state ≠ .joining ∧ (s.branch k b).state = .isolated ∧ (s.branch k b).seqOn = true ∧ s.joinedIdle k = true) :=
  ⟨⟨grp { state := .normal }, 1, 1, by decide +kernel⟩,
    ⟨grp { state := .joining }, 1, 1, by decide +kernel⟩,
    ⟨grp { state := .normal, branches := branches16 { state := .joined } }, 1, 1, by decide +kernel⟩,
    ⟨grp { state := .normal, branches := branches16 { state := .isolated, seqOn := true } }, _, 1, 1, rfl, by decide +kernel⟩⟩

theorem meets_star_windows :
    (∃ (s : State) (k : GrpId) (b : Branch) (_ : DWord) (_ : BitVec 29) (_ : Bool) (_ : BitVec 16), (s.group k).state ≠ .stopped ∧ (s.branch k b).state = .joined ∧ s.joinedIdle k = true ∧ s.traverse k = false) ∧
    (∃ (s : State) (k : GrpId) (b : Branch) (sof : DWord) (_ : BitVec 29) (_ : Bool) (_ : BitVec 16), (s.group k).state ≠ .stopped ∧ (s.branch k b).state = .joined ∧ s.joinedIdle k = true ∧ s.traverse k = true ∧ scheduled (s.group k) = true ∧ (s.group k).windows = true ∧ s.windowOf k (sof - BitVec.ofNat 64 (s.rf (.port (s.anchor k) .rxdly) 0 16)) = none) ∧
    (∃ (s : State) (k : GrpId) (f : StarFrame) (c : DWord), (s.group k).frame = some f ∧ f.close = some c ∧ scheduled (s.group k) = true) ∧
    (∃ (s : State) (k : GrpId) (b : Branch) (_ : DWord) (_ : BitVec 29) (_ : Bool) (_ : BitVec 16), (s.group k).state ≠ .stopped ∧ (s.branch k b).state = .joined ∧ s.joinedIdle k = false) :=
  ⟨⟨grp { state := .normal, branches := (branches16 { state := .joined }).set 2 { state := .isolated } }, 1, 1, 100, 5, false, 0, by decide +kernel⟩,
    ⟨(grp { state := .normal, windows := true, branches := branches16 { state := .joined } }).setReg (.grp 1 .cfg) 1, 1, 1, 1000000, 5, false, 0, by decide +kernel⟩,
    ⟨grp { state := .normal, frame := some { branch := 1, sof := 100, close := some 300 }, branches := branches16 { state := .joined } }, 1, { branch := 1, sof := 100, close := some 300 }, 300, by decide +kernel⟩,
    ⟨grp { state := .normal, frame := some { branch := 1, sof := 100 }, branches := branches16 { state := .joined } }, 1, 2, 90, 5, false, 0, by decide +kernel⟩⟩

theorem meets_traverse_cycles :
    (∃ (s : State) (u : State) (k : GrpId), u = s.advance (s.rawOfFlow (after (s.flow (s.group k).cycleAt) (s.cycleLen k))) ∧ s.traverse k = true ∧ scheduled (s.group k) = true ∧ (s.group k).accepted = true ∧ s.leads k = false) ∧
    (∃ (s : State) (k : GrpId), s.traverse k = true ∧ ((s.group k).state = .startup ∨ (s.group k).state = .normal) ∧ (s.group k).accepted = false ∧ max 1 (s.rf (.grp k .cfg) 28 4) ≤ (s.group k).misses + 1) ∧
    (∃ (s : State) (u : State) (k : GrpId), u = s.advance (after (s.group k).listenAt (16 * s.rf (.grp k .listen) 0 30)) ∧ s.traverse k = true ∧ gPhase (s.group k) = .coldstart ∧ (s.group k).role = .listening ∧ s.devMaster k = true) ∧
    (∃ (s : State) (k : GrpId), s.traverse k = true ∧ gPhase (s.group k) = .coldstart ∧ (s.group k).role = .backoff ∧ s.devMaster k = false ∧ s.refMayStart (s.anchor k) = true ∧ (∀ c ∈ (s.port (s.anchor k)).cands, c.ending = none)) ∧
    (∃ (s : State) (k : GrpId), s.traverse k = true ∧ scheduled (s.group k) = true ∧ (s.group k).role = .integrated ∧ (s.group k).refSof = false ∧ s.refMayStart (s.anchor k) = true) :=
  ⟨⟨((grp { state := .normal, accepted := true }).setReg (.grp 1 .cfg) 1), _, 1, rfl, by decide +kernel⟩,
    ⟨((grp { state := .normal, misses := 9 }).setReg (.grp 1 .cfg) 1), 1, by decide +kernel⟩,
    ⟨((grp { state := .coldstart, role := .listening }).setReg (.grp 1 .cfg) 5), _, 1, rfl, by decide +kernel⟩,
    ⟨((grpP { state := .coldstart, role := .backoff } norm).setReg (.grp 1 .cfg) 1), 1, by decide +kernel⟩,
    ⟨((grpP { state := .normal, role := .integrated } norm).setReg (.grp 1 .cfg) 1), 1, by decide +kernel⟩⟩

theorem meets_supplies_and_reference :
    (∃ (s : State), s.tmu.reflock = true) ∧
    (∃ (s : State), s.tmu.reflock = false) ∧
    (∃ (s : State), s.tmu.reflock = false ∧ s.tmu.portHoldover = true ∧ (∀ k, (s.group k).state = .stopped)) :=
  ⟨⟨up, by decide +kernel⟩,
    ⟨{ up with tmu := {} }, by decide +kernel⟩,
    ⟨{ holding norm with tmu := { portHoldover := true } }, by decide +kernel⟩⟩

theorem meets_time_registers :
    (∃ (s : State) (d : Dom) (_ : Word), Writes s d 0 ∧ s.rb (.tmu .servo) 0 = false ∧ s.rb (.tmu .servo) 6 = false ∧ s.tmu.par.start ≤ s.raw) ∧
    (∃ (s : State) (d : Dom) (v : Word), Writes s d 0 ∧ s.rb (.tmu .servo) 0 = true ∧ v ≠ s.tmu.par.rate) ∧
    (∃ (s : State) (d : Dom) (_ : DWord), Writes s d 0 ∧ s.rb (.tmu .servo) 0 = false ∧ s.rb (.tmu .servo) 6 = false) ∧
    (∃ (s : State) (d : Dom) (_ : DWord), Writes s d 0 ∧ s.rb (.tmu .servo) 0 = false ∧ s.rb (.tmu .servo) 6 = false) ∧
    (∃ (s : State) (d : Dom) (_ : DWord) (w : Word), Writes s d 0 ∧ s.rb (.tmu .servo) 0 = false ∧ s.rb (.tmu .servo) 6 = false ∧ s.tmu.stepLow = some w) ∧
    (∃ (s : State) (d : Dom) (_ : TimeReg), s.serves = true ∧ s.active d = true) ∧
    (∃ (s : State), s.tmu.started = true) :=
  ⟨⟨up, 0, 5, by decide +kernel⟩,
    ⟨up.setReg (.tmu .servo) 1, 0, 5, by decide +kernel⟩,
    ⟨up, 0, 5, by decide +kernel⟩,
    ⟨up, 0, 5, by decide +kernel⟩,
    ⟨{ up with tmu := { up.tmu with stepLow := some 9 } }, 0, 5, 9, by decide +kernel⟩,
    ⟨up, 0, .ofs, by decide +kernel⟩,
    ⟨up, by decide +kernel⟩⟩

theorem meets_servo_runs :
    (∃ (s : State) (d : Dom) (v : Word), Writes s d 0 ∧ v.getLsbD 0 = true ∧ s.rb (.tmu .servo) 0 = false ∧ s.rb (.tmu .servo) 6 = false) ∧
    (∃ (s : State) (d : Dom) (v : Word), Writes s d 0 ∧ v.getLsbD 0 = false ∧ v.getLsbD 6 = false ∧ s.rb (.tmu .servo) 0 = true ∧ s.rb (.tmu .servo) 6 = false) ∧
    (∃ (s : State) (a : DWord) (e : DWord) (r : Option DWord) (l : List (DWord × DWord × Option DWord)), s.tmu.samples = (a, e, r) :: l ∧ s.tmu.servo ≠ .off ∧ s.staleSample a r = true) ∧
    (∃ (s : State) (a : DWord) (e : DWord) (r : Option DWord) (l : List (DWord × DWord × Option DWord)), s.tmu.samples = (a, e, r) :: l ∧ s.tmu.servo = .freerun ∧ s.staleSample a r = false ∧ e.toInt.natAbs < s.stepThr) ∧
    (∃ (s : State), (s.tmu.servo = .locking ∨ s.tmu.servo = .locked)) ∧
    (∃ (s : State) (d : Dom) (n : RingNo) (x : Desc), CmdReady s d n x ∧ reservedZero x [(4, 0, 8), (8, 0, 64), (16, 0, 64)] = true ∧ dnum x 4 1 ≤ 3 ∧ (s.entry d).timeFeed = true) :=
  ⟨⟨up, 0, 1, by decide +kernel⟩,
    ⟨{ up.setReg (.tmu .servo) 1 with tmu := { up.tmu with servo := .locked } }, 0, 0, by decide +kernel⟩,
    ⟨{ up with tmu := { up.tmu with servo := .freerun, samples := [(1600, 5, none)] } }, 1600, 5, none, [], by decide +kernel⟩,
    ⟨{ up.setReg (.tmu .sstep) 100 with tmu := { up.tmu with raw := 3200, servo := .freerun, samples := [(1600, 5, none)] } }, 1600, 5, none, [], by decide +kernel⟩,
    ⟨{ up with tmu := { up.tmu with servo := .locked } }, by decide +kernel⟩,
    ⟨cmd, 0, 0, dsc (1 + 2^32 * 5 + 2^96 * 77), ringReady_of (by decide +kernel), by decide +kernel⟩⟩

theorem meets_pulses_and_edges :
    (∃ (s : State) (i : Fin 2) (raw : DWord) (fall : Bool), s.rb (.ppsCfg i) 0 = true ∧ s.rb (.ppsCfg i) 1 = fall ∧ (s.tmu.ppsRaw[i]).all (fun r => decide (r.toNat + ms 500 ≤ raw.toNat)) = true) ∧
    (∃ (s : State) (i : Fin 8) (raw : DWord) (rise : Bool) (held : Nat), s.rb (.evtinCfg i) 0 = true ∧ edgeSelected (s.rf (.evtinCfg i) 1 2) rise = true ∧ 10 * min 100 (s.rf (.evtinCfg i) 4 10) ≤ held ∧ ((s.tmu.captures[i]).lastEdge).all (fun r => decide (r.toNat + ns 40 ≤ raw.toNat)) = true ∧ ((s.tmu.captures[i]).prod - s.captureCons i).toNat ≠ 16) ∧
    (∃ (s : State) (i : Fin 8) (raw : DWord) (rise : Bool) (held : Nat), s.rb (.evtinCfg i) 0 = true ∧ edgeSelected (s.rf (.evtinCfg i) 1 2) rise = true ∧ 10 * min 100 (s.rf (.evtinCfg i) 4 10) ≤ held ∧ ((s.tmu.captures[i]).lastEdge).all (fun r => decide (r.toNat + ns 40 ≤ raw.toNat)) = true ∧ ((s.tmu.captures[i]).prod - s.captureCons i).toNat = 16) ∧
    (∃ (s : State) (d : Dom) (i : Fin 4) (v : Word), Writes s d 0 ∧ v.getLsbD 4 = true ∧ s.rb (.out i .cfg) 4 = false ∧ (s.setReg (.out i .cfg) (s.fieldWrite d (.out i .cfg) mask32 (v.setWidth 64) (fun f => f.lo == 4)).1).pulseBad i = false) ∧
    (∃ (s : State) (d : Dom) (i : Fin 4) (v : Word), Writes s d 0 ∧ v.getLsbD 4 = false ∧ s.rb (.out i .cfg) 4 = true) ∧
    (∃ (s : State) (i : Fin 4) (r : DWord), (s.tmu.pulses[i]).ends = some r ∧ s.rf (.out i .count) 0 32 = 0) ∧
    (∃ (s : State) (i : Fin 4), (s.tmu.pulses[i]).ends = none ∧ (s.tmu.pulses[i]).running = true ∧ s.pulsing i = true) :=
  ⟨⟨up.setReg (.ppsCfg 1) 1, 1, 100, false, by decide +kernel⟩,
    ⟨up.setReg (.evtinCfg 1) 1, 1, 100, true, 2000, by decide +kernel⟩,
    ⟨{ up.setReg (.evtinCfg 1) 1 with tmu := { up.tmu with captures := up.tmu.captures.set 1 { prod := 16 } } }, 1, 100, true, 2000, by decide +kernel⟩,
    ⟨(up.setReg (.out 1 .width) 10), 0, 1, 0x11, by decide +kernel⟩,
    ⟨(up.setReg (.out 1 .cfg) 0x11), 0, 1, 1, by decide +kernel⟩,
    ⟨{ up with tmu := { up.tmu with pulses := up.tmu.pulses.set 1 { running := true, ends := some 5 } } }, 1, 5, by decide +kernel⟩,
    ⟨{ up.setReg (.out 1 .cfg) 0x11 with tmu := { up.tmu with pulses := up.tmu.pulses.set 1 { running := true } } }, 1, by decide +kernel⟩⟩

theorem meets_ridgeline_links :
    (∃ (s : State) (d : Dom) (k : LinkId) (v : Word), Writes s d 0 ∧ v.getLsbD 0 = true ∧ s.rb (.rl k .cfg) 0 = false) ∧
    (∃ (s : State) (d : Dom) (k : LinkId) (v : Word), Writes s d 0 ∧ v.getLsbD 0 = false ∧ s.rb (.rl k .cfg) 0 = true) ∧
    (∃ (s : State) (k : LinkId), (s.link k).state = .aligning ∧ (s.link k).travel = false ∧ s.tmu.reflock = true ∧ s.rb (.rl k .cfg) 1 = false) ∧
    (∃ (s : State) (k : LinkId), (s.link k).state = .aligning ∧ (s.link k).travel = false ∧ s.tmu.reflock = true ∧ s.rb (.rl k .cfg) 1 = true) ∧
    (∃ (s : State) (_ : LinkId), s.tmu.reflock = false) ∧
    (∃ (s : State) (k : LinkId) (_ : RlFaultCause), (s.link k).state ≠ .down) ∧
    (∃ (s : State) (k : LinkId), (s.link k).state ≠ .down) ∧
    (∃ (s : State) (u : State) (k : LinkId), u = s.waitFrom (s.link k).helloAt (ms 9) ∧ rlReceives (s.link k) = true) ∧
    (∃ (s : State) (k : LinkId) (a : RlArrival) (f : RlFrame), RlTakes s k a ∧ a.frame = f ∧ f.kind = kHello ∧ (s.link k).state = .hello ∧ (s.link k).helloCount = 2 ∧ (s.link k).nbr.serial = (neighbourOf f.payload).serial ∧ ((neighbourOf f.payload).encReq = false ∨ (s.link k).encOn = true)) ∧
    (∃ (s : State) (k : LinkId) (a : RlArrival) (f : RlFrame), RlTakes s k a ∧ a.frame = f ∧ f.kind = kHello ∧ (s.link k).state = .hello ∧ (s.link k).encOn = false ∧ (neighbourOf f.payload).encReq = true ∧ ((s.link k).helloCount = 0 ∨ (s.link k).nbr.serial = (neighbourOf f.payload).serial)) ∧
    (∃ (s : State) (k : LinkId) (a : RlArrival) (f : RlFrame) (draw : Nat) (mine : List Byte) (h : Nat), RlTakes s k a ∧ TablesOk s ∧ a.frame = f ∧ (s.link k).state = .keying ∧ f.kind = kMgmt ∧ f.payload.headD 0 = 0x10 ∧ (s.link k).keyxSent = some (draw, mine) ∧ s.freeHandle 0 = some h) ∧
    (∃ (s : State) (u : State) (k : LinkId), u = s.waitFrom (s.link k).keyxAt (ms 100) ∧ (s.link k).state = .keying) ∧
    (∃ (s : State) (u : State) (k : LinkId), u = s.waitFrom (s.link k).travelAt (ms s.colfTravel) ∧ (s.link k).travel = true) :=
  ⟨⟨up, 0, 1, 1, by decide +kernel⟩,
    ⟨(rl1 { state := .up }).setReg (.rl 1 .cfg) 1, 0, 1, 0, by decide +kernel⟩,
    ⟨rl1 { state := .aligning }, 1, by decide +kernel⟩,
    ⟨(rl1 { state := .aligning }).setReg (.rl 1 .cfg) 2, 1, by decide +kernel⟩,
    ⟨{ rl1 { state := .aligning } with tmu := {} }, 1, by decide +kernel⟩,
    ⟨rl1 { state := .up }, 1, .lossOfLock, by decide +kernel⟩,
    ⟨rl1 { state := .up }, 1, by decide +kernel⟩,
    ⟨rl1 { state := .hello }, _, 1, rfl, by decide +kernel⟩,
    ⟨rl1 { state := .hello, helloCount := 2 }, 1, { frame := rf0 kHello (List.replicate 32 0) }, rf0 kHello (List.replicate 32 0), rlTakes_of (by decide +kernel), by decide +kernel⟩,
    ⟨rl1 { state := .hello }, 1, { frame := rf0 kHello (List.replicate 32 0xFF) }, rf0 kHello (List.replicate 32 0xFF), rlTakes_of (by decide +kernel), by decide +kernel⟩,
    ⟨rl1 { state := .keying, keyxSent := some (4, [1]) }, 1, { frame := rf0 kMgmt [0x10] }, rf0 kMgmt [0x10], 4, [1], 0, rlTakes_of (by decide +kernel), tablesOk_of (by decide +kernel), by decide +kernel⟩,
    ⟨rl1 { state := .keying }, _, 1, rfl, by decide +kernel⟩,
    ⟨rl1 { state := .aligning, travel := true }, _, 1, rfl, by decide +kernel⟩⟩

theorem meets_ridgeline_credits :
    (∃ (s : State) (k : LinkId) (cls : BitVec 2) (_ : BitVec 12), rlReceives (s.link k) = true ∧ cls ≠ 3) ∧
    (∃ (s : State) (k : LinkId), rlReceives (s.link k) = true) ∧
    (∃ (s : State) (k : LinkId) (why : RlDiscard) (_ : BitVec 2) (_ : Nat) (_ : Option RlFrame), TablesOk s ∧ rlReceives (s.link k) = true ∧ (why ≠ .auth ∨ (s.link k).encOn = true)) ∧
    (∃ (s : State) (k : LinkId) (_ : DWord) (f : RlFrame), rlReceives (s.link k) = true ∧ (s.link k).wire = none ∧ readyFrame (s.link k) = some (none, f) ∧ (s.link k).encOn = false) :=
  ⟨⟨rl1 { state := .up }, 1, 2, 77, by decide +kernel⟩,
    ⟨rl1 { state := .up }, 1, by decide +kernel⟩,
    ⟨rl1 { state := .up }, 1, .crc, 2, 77, none, tablesOk_of (by decide +kernel), by decide +kernel⟩,
    ⟨rl1 { state := .up, granted := Vector.replicate 3 100, queue := [(none, rf0 kTopo [1, 2])] }, 1, 77, rf0 kTopo [1, 2], by decide +kernel⟩⟩

theorem meets_topology_and_addresses :
    (∃ (s : State) (k : LinkId) (a : RlArrival) (f : RlFrame), RlTakes s k a ∧ a.frame = f ∧ f.kind = kTopo ∧ BitVec.ofNat 64 (ofBe (slice f.payload 0 8)) ≠ s.serial ∧ s.seen (s.floodSerial f) f.seqNo false = false) ∧
    (∃ (s : State) (k : LinkId) (a : RlArrival) (f : RlFrame), RlTakes s k a ∧ a.frame = f ∧ f.kind = kTopo ∧ s.seen (s.floodSerial f) f.seqNo false = true) ∧
    (∃ (s : State) (u : State) (k : LinkId), u = s.waitFrom s.fab.topoAt (sec 1) ∧ s.linkUp k = true) ∧
    (∃ (s : State) (serial : DWord), s.fab.topo.any (fun u => u.serial == serial) = true) ∧
    (∃ (s : State), s.fabOn = true ∧ s.rb (.fab .cfg) 1 = true ∧ s.fab.addr = 0 ∧ s.fab.alloc = false) ∧
    (∃ (s : State) (k : LinkId) (y : RlArrival) (f : RlFrame) (a : Byte), RlTakes s k y ∧ y.frame = f ∧ f.kind = kMgmt ∧ f.payload.headD 0 = 0x01 ∧ s.seen (s.floodSerial f) f.seqNo true = false ∧ s.fab.alloc = true ∧ s.dutyRuns 0 = true ∧ mgmtSerial f ≠ s.serial ∧ s.chooseAddr (mgmtSerial f) = some a) ∧
    (∃ (s : State) (k : LinkId) (a : RlArrival) (f : RlFrame), RlTakes s k a ∧ a.frame = f ∧ f.kind = kMgmt ∧ f.payload.headD 0 = 0x02 ∧ s.seen (s.floodSerial f) f.seqNo true = false ∧ mgmtSerial f = s.serial ∧ s.fabOn = true ∧ s.rb (.fab .cfg) 1 = true ∧ s.fab.addr = 0) ∧
    (∃ (s : State), TablesOk s ∧ s.dutyRuns 0 = true) :=
  ⟨⟨rl1 { state := .up }, 1, { frame := rf0 kTopo (List.replicate 64 1) }, rf0 kTopo (List.replicate 64 1), rlTakes_of (by decide +kernel), by decide +kernel⟩,
    ⟨fabric1 { flooded := [(72340172838076673, 5, false)], topo := [{ serial := 72340172838076673, gen := 1, payload := List.replicate 64 1, at_ := 0 }] } { state := .up }, 1, { frame := rf0 kTopo (List.replicate 64 1) }, rf0 kTopo (List.replicate 64 1), rlTakes_of (by decide +kernel), by decide +kernel⟩,
    ⟨rl1 { state := .up }, _, 1, rfl, by decide +kernel⟩,
    ⟨fabric1 { topo := [{ serial := 9, gen := 1, payload := [], at_ := 0 }] } { state := .up }, 9, by decide +kernel⟩,
    ⟨(rl1 { state := .up }).setReg (.fab .cfg) 3, by decide +kernel⟩,
    ⟨fabric1 { alloc := true } { state := .up }, 1, { frame := rf0 kMgmt ([1, 0] ++ List.replicate 14 1) }, rf0 kMgmt ([1, 0] ++ List.replicate 14 1), 1, rlTakes_of (by decide +kernel), by decide +kernel⟩,
    ⟨(rl1 { state := .up }).setReg (.fab .cfg) 3, 1, { frame := rf0 kMgmt ([2, 5] ++ List.replicate 14 0) }, rf0 kMgmt ([2, 5] ++ List.replicate 14 0), rlTakes_of (by decide +kernel), by decide +kernel⟩,
    ⟨{ rl1 { state := .up } with routes := [(5, { valid := true, dest := 9 })] }, tablesOk_of (by decide +kernel), by decide +kernel⟩⟩

theorem meets_fabric_transit_and_time :
    (∃ (s : State) (d : Dom) (v : Word), Writes s d 0 ∧ v.getLsbD 0 = true ∧ v.getLsbD 1 = false ∧ s.rb (.fab .cfg) 0 = false) ∧
    (∃ (s : State) (d : Dom) (v : Word), Writes s d 0 ∧ v.getLsbD 0 = false ∧ s.rb (.fab .cfg) 0 = true) ∧
    (∃ (s : State) (d : Dom) (_ : Word), Writes s d 0) ∧
    (∃ (s : State) (k : LinkId) (j : LinkId) (a : RlArrival) (f : RlFrame), RlTakes s k a ∧ a.frame = f ∧ f.kind = kRouted ∧ f.dest ≠ 0xFF ∧ ¬(s.fab.addr ≠ 0 ∧ f.dest = s.fab.addr) ∧ (s.route f.rtag.toNat).valid = true ∧ routeLink (s.route f.rtag.toNat).primary = some j ∧ j ≠ k ∧ s.linkUp j = true) ∧
    (∃ (s : State) (u : State) (k : LinkId), u = s.waitFrom (s.link k).syncAt (us 990) ∧ s.linkUp k = true) ∧
    (∃ (s : State) (u : State) (k : LinkId) (a : RlArrival) (f : RlFrame) (raw : DWord), u = s.advance raw ∧ RlTakes u k a ∧ a.frame = f ∧ f.kind = kSync ∧ s.linkUp k = true) ∧
    (∃ (s : State) (u : State) (k : LinkId) (a : RlArrival) (f : RlFrame) (raw : DWord) (q : Half) (t1 : DWord), u = s.advance raw ∧ RlTakes u k a ∧ a.frame = f ∧ f.kind = kReply ∧ s.linkUp k = true ∧ (s.link k).syncSent = some (q, t1) ∧ ofBe (slice f.payload 16 2) = q.toNat ∧ (s.rlStamp k raw - t1).toNat ≤ us 100) :=
  ⟨⟨up, 0, 0x501, by decide +kernel⟩,
    ⟨up.setReg (.fab .cfg) 1, 0, 0, by decide +kernel⟩,
    ⟨up, 0, 0x155, by decide +kernel⟩,
    ⟨{ rl1 { state := .up } with links := (rl1 { state := .up }).links.set 2 { state := .up }, routes := [(7, { valid := true, dest := 9, primary := 2 })] }, 1, 2, { frame := rf0 kRouted [1] }, rf0 kRouted [1], rlTakes_of (by decide +kernel), by decide +kernel⟩,
    ⟨rl1 { state := .up }, _, 1, rfl, by decide +kernel⟩,
    ⟨rl1 { state := .up }, _, 1, { frame := rf0 kSync [] }, rf0 kSync [], 100, rfl, rlTakes_of (by decide +kernel), by decide +kernel⟩,
    ⟨rl1 { state := .up, syncSent := some (5, 100) }, _, 1, { frame := rf0 kReply (List.replicate 16 0 ++ [0, 5]) }, rf0 kReply (List.replicate 16 0 ++ [0, 5]), 1000, 5, 100, rfl, rlTakes_of (by decide +kernel), by decide +kernel⟩⟩

theorem meets_engine_loss_and_takeover :
    (∃ (s : State) (e : EngId) (p : PortId) (cause : FaultCause), (s.engine e).state = .active ∧ breaks (s.engineReaches e) cause = true ∧ (s.engine e).port = p ∧ s.spur.attached[p] = some e ∧ s.spur.swap = none ∧ s.spur.takeovers.any (fun u => u.2 == e) = false ∧ running (s.port p).state = true ∧ s.standby = []) ∧
    (∃ (s : State) (e : EngId) (p : PortId) (cause : FaultCause) (n : EngId), (s.engine e).state = .active ∧ breaks (s.engineReaches e) cause = true ∧ (s.engine e).port = p ∧ s.spur.attached[p] = some e ∧ s.spur.swap = none ∧ s.spur.takeovers.any (fun u => u.2 == e) = false ∧ running (s.port p).state = true ∧ s.pickSpare s.spur.portImage[p] = some (n, true)) ∧
    (∃ (s : State) (e : EngId) (p : PortId), (s.engine e).state = .loading ∧ (s.engine e).loading = some (.takeover p) ∧ s.spur.attached[p] = none ∧ s.spur.takeovers.any (fun u => u.1 == p) = false) ∧
    (∃ (s : State) (e : EngId) (p : PortId), s.spur.takeovers.find? (fun u => u.1 == p) = some (p, e) ∧ (s.port p).state = .isolated ∧ running (s.port p).prior = true ∧ (s.port p).holdPending = none ∧ s.spur.attached[p] = none ∧ s.underTest p = false) :=
  ⟨⟨{ holding norm with spur := { cmd.spur with engines := (cmd.spur.engines.set 32 { state := .faulted }).set 33 { state := .faulted } } }, 3, 3, .memory, by decide +kernel⟩,
    ⟨holding norm, 3, 3, .memory, 32, by decide +kernel⟩,
    ⟨unserved 3 (cmd.setEngine 32 { state := .loading, loading := some (.takeover 3) }), 32, 3, by decide +kernel⟩,
    ⟨unserved 3 { holding { norm with state := .isolated, prior := .normal } with spur := { cmd.spur with takeovers := [(3, 32)] } }, 32, 3, by decide +kernel⟩⟩

theorem meets_engine_swap_and_commands :
    (∃ (s : State) (d : Dom) (v : Word) (e : EngId), Writes s d 0 ∧ v.getLsbD 15 = true ∧ s.spur.swap = none ∧ (s.spur.images[(fin 4 (v.toNat / 256) : Fin 4)]).valid = true ∧ s.pickSpare (fin 4 (v.toNat / 256)) = some (e, true)) ∧
    (∃ (s : State) (d : Dom) (v : Word), Writes s d 0 ∧ v.getLsbD 15 = true ∧ s.spur.swap = none ∧ (s.spur.images[(fin 4 (v.toNat / 256) : Fin 4)]).valid = false) ∧
    (∃ (s : State) (w : Swap) (e : EngId) (old : Option EngId), s.swapReady = some (w, e, old) ∧ s.spur.orphans = [] ∧ s.cairn.test = none) ∧
    (∃ (s : State) (u : State) (w : Swap), u = s.waitFrom w.at_ (sec 1) ∧ s.spur.swap = some w) ∧
    (∃ (s : State) (d : Dom) (v : Word) (e : EngId), Writes s d 0 ∧ v.toNat / 256 % 4 = 1 ∧ v.toNat % 64 = e.val ∧ s.spur.cmdUnit = none ∧ (s.engine e).state = .faulted) ∧
    (∃ (s : State) (d : Dom) (v : Word) (e : EngId), Writes s d 0 ∧ v.toNat / 256 % 4 = 2 ∧ v.toNat % 64 = e.val ∧ s.spur.cmdUnit = none ∧ (s.engine e).state = .standby) ∧
    (∃ (s : State) (e : EngId), (s.engine e).state = .testing ∧ s.spur.cmdUnit = some e.val) ∧
    (∃ (s : State) (e : EngId), (s.engine e).state = .testing ∧ s.spur.cmdUnit = some e.val) :=
  ⟨⟨up, 0, 0x8003, 32, by decide +kernel⟩,
    ⟨up, 0, 0x8103, by decide +kernel⟩,
    ⟨{ up with spur := { (up.setEngine 32 { state := .active, port := 3 }).spur with swap := some { port := 3, image := 0, engine := some 32, at_ := 0 } } }, { port := 3, image := 0, engine := some 32, at_ := 0 }, 32, some 3, by decide +kernel⟩,
    ⟨{ up with spur := { (up.setEngine 32 { state := .active, port := 3 }).spur with swap := some { port := 3, image := 0, engine := some 32, at_ := 0 } } }, _, { port := 3, image := 0, engine := some 32, at_ := 0 }, rfl, by decide +kernel⟩,
    ⟨up.setEngine 33 { state := .faulted }, 0, 0x121, 33, by decide +kernel⟩,
    ⟨up, 0, 0x221, 33, by decide +kernel⟩,
    ⟨{ up.setEngine 33 { state := .testing } with spur := { (up.setEngine 33 { state := .testing }).spur with cmdUnit := some 33 } }, 33, by decide +kernel⟩,
    ⟨{ up.setEngine 33 { state := .testing } with spur := { (up.setEngine 33 { state := .testing }).spur with cmdUnit := some 33 } }, 33, by decide +kernel⟩⟩

theorem meets_gateway_cores :
    (∃ (s : State) (c : CoreId) (cause : FaultCause), (s.core c).state = .running ∧ breaks coreReaches cause = true) ∧
    (∃ (s : State) (d : Dom) (v : Word) (c : CoreId), Writes s d 0 ∧ v.toNat / 256 % 4 = 3 ∧ v.toNat % 64 = 0x38 + c.val ∧ s.spur.cmdUnit = none ∧ (s.core c).state = .running) ∧
    (∃ (s : State) (u : Duty) (c : CoreId), (s.spur.duties[dutyIx u]).moving = some c) ∧
    (∃ (s : State) (c : CoreId), (s.core c).state = .testing ∧ s.gatewayFw = true) ∧
    (∃ (s : State) (c : CoreId), (s.core c).state = .testing) :=
  ⟨⟨up, 1, .halt, by decide +kernel⟩,
    ⟨up, 0, 0x339, 1, by decide +kernel⟩,
    ⟨{ up with spur := { up.spur with duties := up.spur.duties.set 1 { core := none, moving := some 2 } } }, .rules, 2, by decide +kernel⟩,
    ⟨up.setCore 1 { state := .testing }, 1, by decide +kernel⟩,
    ⟨up.setCore 1 { state := .testing }, 1, by decide +kernel⟩⟩

theorem meets_gateway_inputs :
    (∃ (s : State) (i : Fin 512) (x : GwIn) (rest : List (Fin 512 × GwIn)) (r : Rule), s.spur.inputs = (i, x) :: rest ∧ (s.spur.duties[(1 : Fin 4)]).core.isSome = true ∧ s.rule i = some r ∧ gwValid r = true ∧ s.gwGapOver r = false) ∧
    (∃ (s : State) (i : Fin 512) (x : GwIn) (rest : List (Fin 512 × GwIn)) (r : Rule), TablesOk s ∧ s.spur.inputs = (i, x) :: rest ∧ (s.spur.duties[(1 : Fin 4)]).core.isSome = true ∧ s.rule i = some r ∧ gwValid r = true ∧ s.gwGapOver r = true ∧ r.held = none ∧ s.gwOutOk r = true ∧ gwOutRoute r = false ∧ gwOut r < 8192 ∧ objValid (s.obj (fin 16 (gwOutDom r)) (gwOut r)) = true ∧ objIsSend (s.obj (fin 16 (gwOutDom r)) (gwOut r)) = true ∧ s.objLenOk (fin 16 (gwOutDom r)) (s.obj (fin 16 (gwOutDom r)) (gwOut r)).cfg (gwPayload r x).length = true ∧ (s.obj (fin 16 (gwOutDom r)) (gwOut r)).pending = true) ∧
    (∃ (s : State) (i : Fin 512) (x : GwIn) (r : Rule), s.rule i = some r ∧ r.held = some x ∧ (s.spur.duties[(1 : Fin 4)]).core.isSome = true ∧ gwOutRoute r = false ∧ 8192 ≤ gwOut r) ∧
    (∃ (s : State) (i : Fin 512) (x : GwIn) (r : Rule), TablesOk s ∧ s.rule i = some r ∧ r.held = some x ∧ (s.spur.duties[(1 : Fin 4)]).core.isSome = true ∧ r.lastOut = none ∧ s.gwOutOk r = true ∧ gwOutRoute r = false ∧ gwOut r < 8192 ∧ objValid (s.obj (fin 16 (gwOutDom r)) (gwOut r)) = true ∧ objIsSend (s.obj (fin 16 (gwOutDom r)) (gwOut r)) = true ∧ s.objLenOk (fin 16 (gwOutDom r)) (s.obj (fin 16 (gwOutDom r)) (gwOut r)).cfg (gwPayload r x).length = true ∧ (s.obj (fin 16 (gwOutDom r)) (gwOut r)).pending = true) ∧
    (∃ (s : State) (d : Dom) (r : Rule), s.serves = true ∧ s.active d = true ∧ s.gwBusy d = false ∧ s.rule (fin 512 (s.rf (.fn d .gwSel) 0 9)) = some r ∧ (r.owner = d ∨ gwInDom r = d.val ∨ gwOutDom r = d.val)) ∧
    (∃ (s : State) (d : Dom), s.serves = true ∧ s.active d = true ∧ s.gwBusy d = false ∧ s.rule (fin 512 (s.rf (.fn d .gwSel) 0 9)) = none) :=
  ⟨⟨fedRule { rule0 with body := 0x600000001 + 1000 * 2^64, lastOut := some 0 }, 4, gin0, [], { rule0 with body := 0x600000001 + 1000 * 2^64, lastOut := some 0 }, by decide +kernel⟩,
    ⟨fedRule rule0, 4, gin0, [], rule0, tablesOk_of (by decide +kernel), by decide +kernel⟩,
    ⟨fedRule { rule0 with body := 0x200000000001, held := some gin0 }, 4, gin0, { rule0 with body := 0x200000000001, held := some gin0 }, by decide +kernel⟩,
    ⟨fedRule { rule0 with held := some gin0 }, 4, gin0, { rule0 with held := some gin0 }, tablesOk_of (by decide +kernel), by decide +kernel⟩,
    ⟨(fedRule rule0).setReg (.fn 0 .gwSel) 4, 0, rule0, by decide +kernel⟩,
    ⟨(fedRule rule0).setReg (.fn 0 .gwSel) 5, 0, by decide +kernel⟩⟩

theorem meets_event_claims :
    (∃ (s : State) (d : Dom) (t0 : Fin 128) (x : Nat), t0.val < (s.entry d).msixCount ∧ s.serves = true ∧ s.active d = true ∧ s.claimed d t0.val = some x ∧ s.rb (.evcSrc d (fin 256 x)) 13 = false) ∧
    (∃ (s : State) (d : Dom) (t0 : Fin 128), t0.val < (s.entry d).msixCount ∧ s.serves = true ∧ s.active d = true ∧ s.claimed d t0.val = none) ∧
    (∃ (s : State) (d : Dom) (t0 : Fin 128) (_ : Word) (_ : Half) (x : Nat) (q : Nat) (rest : List (Nat × Nat)), t0.val < (s.entry d).msixCount ∧ s.serves = true ∧ s.active d = true ∧ s.stack d t0.val = (x, q) :: rest ∧ 64 < x ∧ Tbl.wf [] s.evc.claimStacks = true) ∧
    (∃ (s : State) (d : Dom) (t0 : Fin 128) (_ : Word) (_ : Half), t0.val < (s.entry d).msixCount ∧ s.serves = true ∧ s.active d = true ∧ s.stack d t0.val = [] ∧ s.dev.absent.getLsbD 0 = false ∧ s.log.intake.length < 256) ∧
    (∃ (s : State) (d : Dom) (t0 : Fin 128) (_ : Word) (_ : Half), (s.entry d).msixCount ≤ t0.val ∧ s.serves = true ∧ s.active d = true ∧ s.dev.absent.getLsbD 0 = false ∧ s.log.intake.length < 256) ∧
    (∃ (s : State) (_ : Dom) (v : VecTarget) (_ : Half) (a : Nat × Nat) (rest : List (Nat × Nat)), Tbl.get [] s.evc.vstacks (s.vecOwner v) = a :: rest ∧ Tbl.wf [] s.evc.vstacks = true ∧ (rest ≠ [] ∨ (Tbl.get (0, []) s.evc.heldVecs (vecCode v)).2 = [])) ∧
    (∃ (s : State) (u : State) (d : Dom) (t0 : Fin 128), u = s.advance (s.gapEnd d t0.val (s.heldDue d t0.val)) ∧ s.heldDue d t0.val ≠ [] ∧ s.sends d t0.val = true ∧ (s.func d).funcMask = false ∧ t0.val ∈ (s.func d).vecOpen) ∧
    (∃ (s : State) (e : EngId) (o : Nat) (src : Byte) (prio : BitVec 4) (cls : BitVec 2) (guarded : Bool), o = s.vecOwner (.leaf e) ∧ ((Tbl.get [] s.evc.vstacks o).head?.map (·.2)).getD 0 < prio.toNat ∧ (∀ a ∈ s.evc.vstacks, ∀ y ∈ a.2, y.1 ≠ vecKey o ⟨src, prio, false, cls, guarded⟩) ∧ vecKey o ⟨src, prio, false, cls, guarded⟩ ∉ s.evc.vecStorm ∧ (4 + e.val ∉ s.evc.awake ∨ s.vecGapEnd (.leaf e) cls.toNat ≤ s.raw) ∧ Tbl.wf [] s.evc.vstacks = true) ∧
    (∃ (s : State) (e : EngId) (o : Nat) (_ : Byte) (prio : BitVec 4) (y : VecSource), o = s.vecOwner (.leaf e) ∧ Tbl.get [] s.evc.vstacks o = [] ∧ 0 < prio.toNat ∧ prio.toNat < y.prio.toNat ∧ y.masked = false ∧ (∀ a ∈ s.evc.vstacks, ∀ z ∈ a.2, z.1 ≠ vecKey o y) ∧ vecKey o y ∉ s.evc.vecStorm ∧ 4 + e.val ∉ s.evc.awake) ∧
    (∃ (_ : State) (_ : EngId) (_ : Byte) (prio : BitVec 4) (_ : BitVec 2) (_ : Bool), prio.toNat ≠ 0) ∧
    (∃ (s : State) (u : State) (c : CoreId) (src : Byte) (since : DWord), u = s.advance (after since (us 1)) ∧ ((s.core c).state = .halted ∨ (s.core c).state = .faulted) ∧ (c, src) ∉ s.evc.fallback) :=
  ⟨⟨claim0, 0, 5, 66, by decide +kernel⟩,
    ⟨up, 0, 5, by decide +kernel⟩,
    ⟨{ up with evc := { up.evc with claimStacks := [(tgtKey 0 5, [(65, 3)])] } }, 0, 5, 0, 0x41, 65, 3, [], by decide +kernel⟩,
    ⟨up, 0, 5, 0x41, 0, by decide +kernel⟩,
    ⟨{ up with belay := { up.belay with entries := up.belay.entries.set 0 { up.entry 0 with msixCount := 4 } } }, 0, 5, 0x41, 0, by decide +kernel⟩,
    ⟨{ up with evc := { up.evc with vstacks := [(9, [(900, 3)])] } }, 0, .leaf 5, 0, (900, 3), [], by decide +kernel⟩,
    ⟨{ claim0.setFunc 0 { claim0.func 0 with msixEnable := true, vecOpen := [5] } with evc := { claim0.evc with heldMsgs := [(tgtKey 0 5, [66])] } }, _, 0, 5, rfl, by decide +kernel⟩,
    ⟨up, 5, up.vecOwner (.leaf 5), 7, 3, 0, false, by decide +kernel⟩,
    ⟨up, 5, up.vecOwner (.leaf 5), 7, 3, { src := 9, prio := 4, masked := false, cls := 0, guarded := false }, by decide +kernel⟩,
    ⟨up, 5, 7, 3, 0, false, by decide +kernel⟩,
    ⟨up.setCore 1 { state := .halted }, _, 1, 7, 0, rfl, by decide +kernel⟩⟩

theorem meets_ethernet_transmission :
    (∃ (s : State) (d : Dom) (n : RingNo) (x : Desc) (payload : List Byte) (k : Fin 4), RingReady 0 s d n x ∧ k = (fin 4 (fld (s.ringCfg (s.dring d n)) 16 5) : EpId) ∧ bit (s.ringCfg (s.dring d n)) 9 = true ∧ s.epOn k = true ∧ (s.eth k).link = true ∧ s.ethTurn d k n = true ∧ s.epOwner k = d ∧ (s.eth k).queue.all (fun i => i.firmware || decide (i.op.num ≠ n)) = true ∧ 14 ≤ dnum x 4 2 ∧ dnum x 4 2 ≤ 1996 ∧ payload.length = dnum x 4 2 ∧ reservedZero { x with flags := x.flags &&& 0xFD } ethFields = true ∧ s.inWindow d (daddr x).toNat (dnum x 4 2) true false = true ∧ (dbit x 6 0 = true → oneStepOk payload = true) ∧ (s.eth k).wire.isSome = true) ∧
    (∃ (s : State) (d : Dom) (n : RingNo) (x : Desc) (payload : List Byte) (k : Fin 4), RingReady 0 s d n x ∧ k = (fin 4 (fld (s.ringCfg (s.dring d n)) 16 5) : EpId) ∧ bit (s.ringCfg (s.dring d n)) 9 = true ∧ s.epOn k = true ∧ (s.eth k).link = true ∧ s.ethTurn d k n = true ∧ s.epOwner k = d ∧ (s.eth k).queue = [] ∧ 14 ≤ dnum x 4 2 ∧ dnum x 4 2 ≤ 1996 ∧ payload.length = dnum x 4 2 ∧ reservedZero { x with flags := x.flags &&& 0xFD } ethFields = true ∧ s.inWindow d (daddr x).toNat (dnum x 4 2) true false = true ∧ (dbit x 6 0 = true → oneStepOk payload = true) ∧ (s.eth k).wire = none ∧ (s.eth k).pauseEnd = none) ∧
    (∃ (s : State) (d : Dom) (n : RingNo) (x : Desc) (payload : List Byte) (k : Fin 4), RingReady 0 s d n x ∧ k = (fin 4 (fld (s.ringCfg (s.dring d n)) 16 5) : EpId) ∧ bit (s.ringCfg (s.dring d n)) 9 = true ∧ s.epOn k = true ∧ (s.eth k).link = true ∧ s.ethTurn d k n = true ∧ s.epOwner k = d ∧ (s.eth k).queue.all (fun i => i.firmware || decide (i.op.num ≠ n)) = true ∧ 14 ≤ dnum x 4 2 ∧ dnum x 4 2 ≤ 1996 ∧ payload.length = dnum x 4 2 ∧ reservedZero { x with flags := x.flags &&& 0xFD } ethFields = true ∧ s.inWindow d (daddr x).toNat (dnum x 4 2) true false = false) ∧
    (∃ (s : State) (d : Dom) (n : RingNo) (x : Desc) (_ : List Byte) (k : Fin 4), RingReady 0 s d n x ∧ k = (fin 4 (fld (s.ringCfg (s.dring d n)) 16 5) : EpId) ∧ bit (s.ringCfg (s.dring d n)) 9 = true ∧ s.epOn k = true ∧ (s.eth k).link = true ∧ s.ethTurn d k n = true ∧ s.epOwner k ≠ d ∧ (s.eth k).queue.all (fun i => i.firmware || decide (i.op.num ≠ n)) = true ∧ 14 ≤ dnum x 4 2 ∧ dnum x 4 2 ≤ 1996 ∧ reservedZero { x with flags := x.flags &&& 0xFD } ethFields = true) ∧
    (∃ (s : State) (k : EpId) (_ : DWord) (i : EthItem), (s.eth k).wire = some i ∧ i.oneStep = false ∧ i.firmware = true ∧ (s.eth k).queue = []) ∧
    (∃ (s : State) (k : EpId) (_ : DWord) (i : EthItem) (n : RingNo), (s.eth k).wire = some i ∧ i.oneStep = false ∧ i.firmware = false ∧ i.tsq = false ∧ i.attempts = 1 ∧ (s.eth k).queue = [] ∧ s.mute i.op.dom = false ∧ s.dev.recovery = false ∧ i.op.epoch = (s.func i.op.dom).epoch ∧ n = s.cqOf i.op.dom i.op.num ∧ s.ringOn i.op.dom n 3 = true ∧ (s.ring (s.dring i.op.dom n)).wait = [] ∧ 0 < s.room i.op.dom n) ∧
    (∃ (s : State) (k : EpId) (r : DWord), (s.eth k).pauseEnd = some r) :=
  ⟨⟨epTx { link := true, wire := some item0 }, 0, 0, dsc (20 + adr 0x1000), List.replicate 20 1, 1, ringReady_of (by decide +kernel), by decide +kernel⟩,
    ⟨epTx { link := true }, 0, 0, dsc (20 + adr 0x1000), List.replicate 20 1, 1, ringReady_of (by decide +kernel), by decide +kernel⟩,
    ⟨epTx { link := true }, 0, 0, dsc (20 + adr 0x100000000), List.replicate 20 1, 1, ringReady_of (by decide +kernel), by decide +kernel⟩,
    ⟨{ epTx { link := true } with belay := { (epTx { link := true }).belay with entries := (epTx { link := true }).belay.entries.set 2 { valid := true, eports := 2 } } }, 0, 0, dsc (20 + adr 0x1000), [], 1, ringReady_of (by decide +kernel), by decide +kernel⟩,
    ⟨epTx { link := true, wire := some { item0 with firmware := true } }, 1, 100, { item0 with firmware := true }, by decide +kernel⟩,
    ⟨epTx { link := true, wire := some item0 }, 1, 100, item0, 1, by decide +kernel⟩,
    ⟨epTx { link := true, pauseEnd := some 5 }, 1, 5, by decide +kernel⟩⟩

theorem meets_ethernet_links_and_clock :
    (∃ (s : State) (d : Dom) (k : EpId) (v : Word), Writes s d (s.epOwner k) ∧ s.heldBack (fun a => a.eports.getLsbD k.val) = false ∧ v.getLsbD 0 = true ∧ s.epOn k = false) ∧
    (∃ (s : State) (d : Dom) (k : EpId) (v : Word), Writes s d (s.epOwner k) ∧ s.heldBack (fun a => a.eports.getLsbD k.val) = false ∧ v.getLsbD 0 = false ∧ s.epOn k = true) ∧
    (∃ (s : State) (d : Dom) (k : EpId) (_ : Word), s.serves = true ∧ s.active d = true ∧ s.epOwner k ≠ d ∧ s.dev.absent.getLsbD 0 = false ∧ s.log.intake.length < 256) ∧
    (∃ (s : State) (k : EpId) (a : AnPartner), (s.eth k).link = false ∧ s.tmu.reflock = true ∧ s.rb (.ep k .cfg) 1 = true ∧ a.fullDuplex = true) ∧
    (∃ (s : State) (k : EpId) (a : AnPartner), (s.eth k).link = false ∧ s.tmu.reflock = true ∧ s.rb (.ep k .cfg) 1 = true ∧ a.fullDuplex = false) ∧
    (∃ (s : State) (k : EpId) (_ : AnPartner), (s.eth k).link = false ∧ s.tmu.reflock = true ∧ s.rb (.ep k .cfg) 1 = false) ∧
    (∃ (s : State) (k : EpId), TablesOk s ∧ (s.eth k).link = true ∧ (s.eth k).wire = none) ∧
    (∃ (s : State) (k : EpId) (i : EthItem), (s.eth k).link = true ∧ (s.eth k).wire = some i ∧ i.ringOff = false ∧ (s.eth k).stopping = false) ∧
    (∃ (s : State) (u : State) (k : EpId), u = s.waitFrom (s.eth k).failedAt (sec 1) ∧ TablesOk s ∧ (s.eth k).anFailed = true ∧ (s.eth k).link = false ∧ s.rb (.ep k .cfg) 1 = true) ∧
    (∃ (s : State) (d : Dom) (v : Word), Writes s d 0 ∧ (v.toNat % 4 = 1 ∨ v.toNat % 4 = 2)) ∧
    (∃ (s : State) (d : Dom) (v : Word), Writes s d 0 ∧ v.toNat % 4 = 0) ∧
    (∃ (s : State) (u : State) (k : EpId) (m : PtpKind), u = s.ptpTurn k m ∧ s.ptpUses k = true ∧ s.epOn k = true ∧ (s.eth k).link = true ∧ (m = .pdelayReq ∨ s.ptpState k = .master) ∧ (s.eth k).wire.isSome = true) ∧
    (∃ (s : State) (k : EpId), s.ptpUses k = true ∧ s.mastersOnly = true) ∧
    (∃ (s : State) (k : EpId), s.ptpUses k = true ∧ s.mastersOnly = false) :=
  ⟨⟨up, 0, 1, 1, by decide +kernel⟩,
    ⟨epTx { link := true, wire := some item0 }, 0, 1, 0, by decide +kernel⟩,
    ⟨{ up with dev := { up.dev with vfEnable := true, numVfs := 3 }, belay := { up.belay with entries := up.belay.entries.set 2 { valid := true } } }, 2, 1, 1, by decide +kernel⟩,
    ⟨up.setReg (.ep 1 .cfg) 2, 1, { fullDuplex := true, ps1 := true, ps2 := false, rf := 0 }, by decide +kernel⟩,
    ⟨up.setReg (.ep 1 .cfg) 2, 1, { fullDuplex := false, ps1 := true, ps2 := false, rf := 0 }, by decide +kernel⟩,
    ⟨up.setReg (.ep 1 .cfg) 1, 1, { fullDuplex := false, ps1 := true, ps2 := false, rf := 0 }, by decide +kernel⟩,
    ⟨epTx { link := true }, 1, tablesOk_of (by decide +kernel), by decide +kernel⟩,
    ⟨epTx { link := true, wire := some item0 }, 1, item0, by decide +kernel⟩,
    ⟨(epTx { anFailed := true }).setReg (.ep 1 .cfg) 3, _, 1, rfl, tablesOk_of (by decide +kernel), by decide +kernel⟩,
    ⟨up, 0, 1, by decide +kernel⟩,
    ⟨up, 0, 0, by decide +kernel⟩,
    ⟨{ ((epTx { link := true, wire := some item0 }).setReg (.tmu .servo) 0x40).setReg (.ep 1 .cfg) 0x401 with ptp := { running := some 0x21, ports := Vector.replicate 4 .master } }, _, 1, .announce, rfl, by decide +kernel⟩,
    ⟨{ (((epTx { link := true, wire := some item0 }).setReg (.tmu .servo) 0x40).setReg (.ep 1 .cfg) 0x401).setReg (.fab .cfg) 1 with ptp := { running := some 0x21, ports := Vector.replicate 4 .master } }, 1, by decide +kernel⟩,
    ⟨{ (((epTx { link := true, wire := some item0 }).setReg (.tmu .servo) 0x40).setReg (.ep 1 .cfg) 0x401) with ptp := { running := some 0x21, ports := Vector.replicate 4 .master } }, 1, by decide +kernel⟩⟩

theorem meets_ethernet_reception :
    (∃ (s : State) (u : State) (k : EpId) (bytes : List Byte) (_ : Bool) (_ : Bool) (raw : DWord), u = ((s.advance (after raw (128 * bytes.length))).pauseSettle k).ethKick k ∧ TablesOk s ∧ s.epOn k = true ∧ (s.eth k).link = true ∧ bytes.length < 18) ∧
    (∃ (s : State) (u : State) (k : EpId) (bytes : List Byte) (raw : DWord), u = ((s.advance (after raw (128 * bytes.length))).pauseSettle k).ethKick k ∧ TablesOk s ∧ s.epOn k = true ∧ (s.eth k).link = true ∧ 18 ≤ bytes.length ∧ u.ethFlags k bytes.length true true = 0 ∧ u.rb (.ep k .cfg) 10 = false ∧ isCtrl bytes = false ∧ u.ethMatch k bytes = none) ∧
    (∃ (s : State) (u : State) (k : EpId) (bytes : List Byte) (_ : Bool) (raw : DWord) (r : Nat × Nat × Word), u = ((s.advance (after raw (128 * bytes.length))).pauseSettle k).ethKick k ∧ TablesOk s ∧ s.epOn k = true ∧ (s.eth k).link = true ∧ 18 ≤ bytes.length ∧ isCtrl bytes = false ∧ u.ethMatch k bytes = some r ∧ u.rb (.ep k .cfg) 5 = false) ∧
    (∃ (s : State) (u : State) (k : EpId) (bytes : List Byte) (raw : DWord) (n : Nat) (m : Nat) (info0 : Word), u = ((s.advance (after raw (128 * bytes.length))).pauseSettle k).ethKick k ∧ s.epOn k = true ∧ (s.eth k).link = true ∧ 18 ≤ bytes.length ∧ u.ethFlags k bytes.length true true = 0 ∧ u.rb (.ep k .cfg) 10 = false ∧ isCtrl bytes = false ∧ u.ethMatch k bytes = some (n, m, info0) ∧ n < 64 ∧ (u.func (u.epOwner k)).flr = none ∧ u.ringOn (u.epOwner k) (fin 64 n) 1 = true ∧ (u.ring (u.dring (u.epOwner k) (fin 64 n))).frames = [] ∧ (u.ring (u.dring (u.epOwner k) (fin 64 n))).posted = [] ∧ u.bufWait (u.epOwner k) (fin 64 n) ≠ 0 ∧ usedUnits (u.eth k).spaces + stageUnits (min 2048 (bytes.length - 4)) ≤ 96) ∧
    (∃ (s : State) (u : State) (k : EpId) (bytes : List Byte) (raw : DWord), u = ((s.advance (after raw (128 * bytes.length))).pauseSettle k).ethKick k ∧ s.epOn k = true ∧ (s.eth k).link = true ∧ 18 ≤ bytes.length ∧ u.ethFlags k bytes.length true true = 0 ∧ u.rb (.ep k .cfg) 10 = false ∧ isCtrl bytes = true ∧ ofBe (slice bytes 14 2) = 1 ∧ slice bytes 0 6 = [0x01, 0x80, 0xC2, 0x00, 0x00, 0x01] ∧ u.pauseHon k = true ∧ ofBe (slice bytes 16 2) ≠ 0) :=
  ⟨⟨epTx { link := true }, _, 1, List.replicate 10 1, true, true, 100, rfl, tablesOk_of (by decide +kernel), by decide +kernel⟩,
    ⟨epTx { link := true }, _, 1, List.replicate 64 2, 100, rfl, tablesOk_of (by decide +kernel), by decide +kernel⟩,
    ⟨(epTx { link := true }).setReg (.ep 1 .cfg) 0x41, _, 1, List.replicate 64 2, true, 100, (0, 3, 0x4000), rfl, tablesOk_of (by decide +kernel), by decide +kernel⟩,
    ⟨((((epTx { link := true }).setReg (.ep 1 .cfg) 0x41).setReg (ringReg 0 .cfg) 0x443)).setReg (ringReg 0 .rxcfg) 10, _, 1, List.replicate 64 2, 100, 0, 3, 0x4000, rfl, by decide +kernel⟩,
    ⟨((epTx { link := true }).setReg (.ep 1 .cfg) 0x5), _, 1, [0x01, 0x80, 0xC2, 0x00, 0x00, 0x01, 2, 2, 2, 2, 2, 2, 0x88, 0x08, 0, 1, 0, 9] ++ List.replicate 46 0, 100, rfl, by decide +kernel⟩⟩

theorem meets_operating_modes :
    (∃ (s : State) (d : Dom) (v : Word), Writes s d 0 ∧ s.modeRefusal v = 0 ∧ s.cairn.mode = .base ∧ v.getLsbD 0 = true ∧ s.tmax < s.cairn.hi) ∧
    (∃ (s : State) (d : Dom) (v : Word), Writes s d 0 ∧ s.modeRefusal v = 0 ∧ s.cairn.mode = .base ∧ v.getLsbD 0 = true ∧ s.cairn.hi ≤ s.tmax) ∧
    (∃ (s : State) (d : Dom) (v : Word), Writes s d 0 ∧ s.modeRefusal v = 0 ∧ s.cairn.mode = .summit ∧ v.getLsbD 0 = true) ∧
    (∃ (s : State) (d : Dom) (v : Word), Writes s d 0 ∧ s.modeRefusal v = 0 ∧ s.cairn.mode ≠ .raising ∧ v.getLsbD 0 = false) ∧
    (∃ (s : State) (d : Dom) (v : Word), Writes s d 0 ∧ s.modeRefusal v ≠ 0 ∧ s.sameMode v = false) ∧
    (∃ (s : State), s.cairn.mode = .raising) ∧
    (∃ (s : State), s.cairn.mode = .raising) ∧
    (∃ (s : State) (h : DWord), s.cairn.mode = .summit ∧ s.cairn.hotSince = some h) ∧
    (∃ (s : State) (h : DWord), s.cairn.mode = .held ∧ s.cairn.coolSince = some h ∧ s.rb (.dev .mode) 8 = true) ∧
    (∃ (s : State) (d : Dom) (v : Word), Writes s d 0 ∧ s.cairn.running = true ∧ s.govOk v = true) ∧
    (∃ (s : State) (d : Dom) (_ : Word), Writes s d 0 ∧ s.cairn.running = true) ∧
    (∃ (s : State) (d : Dom) (v : Word), Writes s d 0 ∧ (s.cairn.running = false ∨ (s.govOk v = false ∧ s.rf (.crn .gov) 0 28 ≠ v.toNat % 2 ^ 28))) :=
  ⟨⟨up, 0, 0x1A1, by decide +kernel⟩,
    ⟨{ up with cairn := { up.cairn with felt := Vector.replicate 6 500 } }, 0, 0x1A1, by decide +kernel⟩,
    ⟨managed { mode := .summit }, 0, 0x1A1, by decide +kernel⟩,
    ⟨managed { mode := .summit }, 0, 0x40, by decide +kernel⟩,
    ⟨up, 0, 0x1, by decide +kernel⟩,
    ⟨managed { mode := .raising }, by decide +kernel⟩,
    ⟨managed { mode := .raising }, by decide +kernel⟩,
    ⟨managed { mode := .summit, hotSince := some 5 }, 5, by decide +kernel⟩,
    ⟨(managed { mode := .held, coolSince := some 5 }).setReg (.dev .mode) 0x1A1, 5, by decide +kernel⟩,
    ⟨up, 0, 0x04785A6E, by decide +kernel⟩,
    ⟨up, 0, 50, by decide +kernel⟩,
    ⟨up, 0, 0x04786E6E, by decide +kernel⟩⟩

theorem meets_sensors_service_and_log :
    (∃ (s : State) (_ : List Int), s.dev.otpRead = true) ∧
    (∃ (s : State) (_ : List Nat), s.cairn.running = true) ∧
    (∃ (s : State) (_ : List Nat), s.cairn.running = true) ∧
    (∃ (s : State) (_ : List Int), s.cairn.running = true) ∧
    (∃ (s : State) (_ : Word), s.cairn.running = true ∧ s.dev.absent.getLsbD 0 = false ∧ s.log.intake.length < 256) ∧
    (∃ (s : State) (_ : Word) (_ : Word), s.cairn.running = true ∧ s.dev.absent.getLsbD 0 = false ∧ s.log.intake.length < 255) ∧
    (∃ (s : State), s.dev.cairnUp = true ∧ s.cairn.running = false ∧ s.dev.absent.getLsbD 0 = false) ∧
    (∃ (_ : State) (line : Nat) (_ : Word), line < 61440) ∧
    (∃ (s : State) (_ : Nat) (_ : Word), TablesOk s) ∧
    (∃ (s : State) (raw : DWord) (r : LogRec) (rest : List (DWord × LogRec)), s.log.intake = (raw, r) :: rest ∧ s.cairn.running = true ∧ s.log.owed = 0 ∧ 16 ≤ r.dom.toNat ∧ s.logFull = false ∧ s.anchorDue = false ∧ s.log.recs.length < 16384) ∧
    (∃ (s : State) (raw : DWord) (r : LogRec) (rest : List (DWord × LogRec)), s.log.intake = (raw, r) :: rest ∧ s.cairn.running = true ∧ s.log.owed = 0 ∧ 16 ≤ r.dom.toNat ∧ s.rb (.crn .logcfg) 0 = false ∧ s.anchorDue = true ∧ s.log.recs.length + 1 < 16384) ∧
    (∃ (s : State) (raw : DWord) (r : LogRec) (rest : List (DWord × LogRec)), s.log.intake = (raw, r) :: rest ∧ s.cairn.running = true ∧ s.log.owed = 0 ∧ 16 ≤ r.dom.toNat ∧ s.logFull = true) ∧
    (∃ (s : State) (raw : DWord) (r : LogRec) (rest : List (DWord × LogRec)) (d : Dom), s.log.intake = (raw, r) :: rest ∧ s.cairn.running = true ∧ s.log.owed = 0 ∧ r.dom.toNat = d.val ∧ (s.entry d).logRate ≠ 0 ∧ (s.func d).logInterval = logInterval raw ∧ (s.entry d).logRate ≤ (s.func d).logCount) ∧
    (∃ (s : State) (d : Dom) (v : Word), Writes s d 0 ∧ s.cairn.running = true ∧ v.getLsbD 1 = true) :=
  ⟨⟨{ up with dev := { up.dev with stage := .spur } }, [500, 1, 2], by decide +kernel⟩,
    ⟨up, [500, 1, 2], by decide +kernel⟩,
    ⟨up, [500, 1, 2], by decide +kernel⟩,
    ⟨up, [3000, 1, 2], by decide +kernel⟩,
    ⟨up, 5, by decide +kernel⟩,
    ⟨up, 5, 9, by decide +kernel⟩,
    ⟨{ up with cairn := { up.cairn with running := false } }, by decide +kernel⟩,
    ⟨{ up with tarn := [(5, 1), (192, 2), (300, 3)] }, 3, 5, by decide +kernel⟩,
    ⟨{ up with flt := [(5, 1), (7, 2)] }, 5, 5, tablesOk_of (by decide +kernel)⟩,
    ⟨{ up with log := { intake := [(0, { dom := 16, severity := 4, source := 9, code := 9 })], anchor := some (0, 0) } }, 0, { dom := 16, severity := 4, source := 9, code := 9 }, [], by decide +kernel⟩,
    ⟨{ up with log := { intake := [(0, { dom := 16, severity := 4, source := 9, code := 9 })] } }, 0, { dom := 16, severity := 4, source := 9, code := 9 }, [], by decide +kernel⟩,
    ⟨({ up with log := { intake := [(0, { dom := 16, severity := 4, source := 9, code := 9 })], sinceClear := 16384 } }).setReg (.crn .logcfg) 1, 0, { dom := 16, severity := 4, source := 9, code := 9 }, [], by decide +kernel⟩,
    ⟨{ up with belay := { up.belay with entries := up.belay.entries.set 2 { valid := true, logRate := 5 } }, funcs := up.funcs.set 2 { logCount := 5 }, log := { intake := [(0, { dom := 2, severity := 4, source := 9, code := 9 })] } }, 0, { dom := 2, severity := 4, source := 9, code := 9 }, [], 2, by decide +kernel⟩,
    ⟨up, 0, 2, by decide +kernel⟩⟩

theorem meets_management_messages :
    (∃ (s : State) (eid : Byte), s.cairn.running = true ∧ eid ≠ 0 ∧ eid ≠ 0xFF) ∧
    (∃ (s : State) (eid : Byte), s.cairn.running = true ∧ (eid = 0 ∨ eid = 0xFF)) ∧
    (∃ (s : State), s.cairn.running = true) ∧
    (∃ (s : State), s.cairn.running = true) ∧
    (∃ (s : State) (m : Byte), s.cairn.running = true ∧ (m = 0xFF ∨ m = 0x00 ∨ m = 0x7E)) ∧
    (∃ (s : State) (m : Byte), s.cairn.running = true ∧ m ≠ 0xFF ∧ m ≠ 0x00 ∧ m ≠ 0x7E) ∧
    (∃ (s : State), s.cairn.running = true) ∧
    (∃ (s : State), s.cairn.running = true) ∧
    (∃ (s : State) (x : Byte), s.cairn.running = true ∧ x ≠ 0) ∧
    (∃ (s : State) (_ : BitVec 5), s.cairn.running = true ∧ s.smbRight 0 = true) ∧
    (∃ (s : State) (_ : BitVec 5) (req : List Byte), s.cairn.running = true ∧ s.smbRight 5 = true ∧ req.length = 4 ∧ s.modeRefusal (BitVec.ofNat 32 (leAt req 0 4)) = 0 ∧ s.cairn.mode = .summit ∧ (BitVec.ofNat 32 (leAt req 0 4)).getLsbD 0 = false) ∧
    (∃ (s : State) (_ : BitVec 5) (_ : List Byte), s.cairn.running = true ∧ s.smbRight 5 = false) ∧
    (∃ (s : State) (_ : BitVec 5) (req : List Byte), s.cairn.running = true ∧ s.smbRight 1 = true ∧ req.length = 32) ∧
    (∃ (s : State) (_ : BitVec 5) (req : List Byte), s.cairn.running = true ∧ (s.smbRight 2 = true ∨ s.smbRight 3 = true) ∧ req.length = 5 ∧ 1 ≤ leAt req 4 1 ∧ leAt req 4 1 ≤ 60) ∧
    (∃ (s : State) (_ : BitVec 5) (req : List Byte), s.cairn.running = true ∧ s.smbRight 4 = true ∧ req.length = 260 ∧ leAt req 0 4 = 0 ∧ s.cairn.holder = .none_) ∧
    (∃ (s : State) (_ : BitVec 5) (req : List Byte) (_ : Bool), s.cairn.running = true ∧ s.smbRight 4 = true ∧ req.length = 260 ∧ leAt req 0 4 % 256 = 0 ∧ leAt req 0 4 + 256 ≤ stagingSize ∧ s.cairn.holder = .owner) ∧
    (∃ (s : State) (_ : BitVec 5) (req : List Byte) (_ : Bool) (c : Fin 7), s.cairn.running = true ∧ s.smbRight 4 = true ∧ req.length = 3 ∧ slotOk (leAt req 2 1) = true ∧ compIx (leAt req 0 2) = some c ∧ (s.slotBusy c (leAt req 2 1) = true ∨ s.cairn.activating.isSome = true)) ∧
    (∃ (s : State) (_ : BitVec 5) (req : List Byte) (c : Fin 7), s.cairn.running = true ∧ s.smbRight 4 = true ∧ req.length = 3 ∧ leAt req 2 1 = 128 ∧ compIx (leAt req 0 2) = some c ∧ s.cairn.activating = none) ∧
    (∃ (s : State) (_ : BitVec 5), s.cairn.running = true) ∧
    (∃ (s : State) (_ : BitVec 5), s.cairn.running = true ∧ s.smbRight 6 = true) ∧
    (∃ (s : State) (_ : BitVec 5) (req : List Byte), s.cairn.running = true ∧ req.length = 4) ∧
    (∃ (s : State), s.cairn.running = true ∧ s.smbAlert = true) ∧
    (∃ (s : State) (packets : List (List Byte)) (bs : List Byte), s.cairn.running = true ∧ s.mctpMessage packets = some bs ∧ hetrumUnknown bs = true) ∧
    (∃ (s : State), s.cairn.running = false) :=
  ⟨⟨manager, 9, by decide +kernel⟩,
    ⟨manager, 0, by decide +kernel⟩,
    ⟨manager, by decide +kernel⟩,
    ⟨manager, by decide +kernel⟩,
    ⟨manager, 0, by decide +kernel⟩,
    ⟨manager, 5, by decide +kernel⟩,
    ⟨manager, by decide +kernel⟩,
    ⟨manager, by decide +kernel⟩,
    ⟨manager, 4, by decide +kernel⟩,
    ⟨manager, 3, by decide +kernel⟩,
    ⟨managed { mode := .summit }, 3, [0x40, 0, 0, 0], by decide +kernel⟩,
    ⟨up, 3, [0x40, 0, 0, 0], by decide +kernel⟩,
    ⟨manager, 3, List.replicate 32 0, by decide +kernel⟩,
    ⟨manager, 3, [0, 0, 0, 0, 5], by decide +kernel⟩,
    ⟨manager, 3, List.replicate 260 0, by decide +kernel⟩,
    ⟨managed { holder := .owner }, 3, List.replicate 260 0, true, by decide +kernel⟩,
    ⟨{ manager with cairn := { manager.cairn with activating := some { who := .owner, dom := 16, comp := 1, slotB := false, inPlace := true, reason := 0, image := {}, op := none } } }, 3, [2, 0, 0], true, 1, by decide +kernel⟩,
    ⟨managed { comps := Vector.replicate 7 { a := img0, b := img0 } }, 3, [1, 0, 128], 0, by decide +kernel⟩,
    ⟨manager, 3, by decide +kernel⟩,
    ⟨manager, 3, by decide +kernel⟩,
    ⟨managed { smbEvt := 0xFF }, 3, [5, 0, 0, 0], by decide +kernel⟩,
    ⟨(managed { smbEvt := 0xFF }).setReg (.crn .smb) 0xB6, by decide +kernel⟩,
    ⟨manager, [unknownPacket Config.vendorId.toNat], [0x7E] ++ beBytes 2 Config.vendorId.toNat ++ [2, 0x80, 1], rfl, unknown_message _, unknown_request⟩,
    ⟨State.reset, by decide +kernel⟩⟩

theorem meets_resets :
    (∃ (s : State) (d : Dom), TablesOk s ∧ s.serves = true ∧ d ≠ 0 ∧ s.active d = true ∧ (s.func d).flr = none) ∧
    (∃ (s : State) (d : Dom) (n : Nat), (s.func d).flr = some n ∧ (s.ports_ d).any (fun p => running (s.port p).state && (s.port p).holdPending.isSome) = false) ∧
    (∃ (s : State) (d : Dom), s.answers = true ∧ (d = 0 ∨ s.active d = true) ∧ (s.func d).flr = none) ∧
    (∃ (s : State), s.dev.ready = true) ∧
    (∃ (s : State), s.dev.ready = false) ∧
    (∃ (s : State) (d : Dom) (v : Word), TablesOk s ∧ s.serves = true ∧ s.active d = true ∧ d = 0 ∧ rstActs v = true) ∧
    (∃ (s : State), s.dev.ready = true ∧ s.cairn.resetDue = true) ∧
    (∃ (s : State), s.dev.ready = true) ∧
    (∃ (s : State), s.dev.reboot = true ∧ s.dev.ready = true) ∧
    (∃ (s : State), s.dev.ready = false ∧ s.dev.cause ≠ 1) :=
  ⟨⟨{ up with dev := { up.dev with vfEnable := true, numVfs := 3 }, belay := { up.belay with entries := up.belay.entries.set 2 { valid := true }, keys := [(4, some { dom := 2, sealing := true, key := 7 }), (5, some { dom := 0, sealing := true, key := 7 })] } }, 2, tablesOk_of (by decide +kernel), by decide +kernel⟩,
    ⟨up.setFunc 2 { flr := some 5 }, 2, 5, by decide +kernel⟩,
    ⟨{ up with dev := { up.dev with vfEnable := true, numVfs := 3 }, belay := { up.belay with entries := up.belay.entries.set 2 { valid := true } } }, 2, by decide +kernel⟩,
    ⟨up, by decide +kernel⟩,
    ⟨State.reset, by decide +kernel⟩,
    ⟨cmd, 0, 0xA501, tablesOk_of (by decide +kernel), by decide +kernel⟩,
    ⟨managed { resetDue := true }, by decide +kernel⟩,
    ⟨up, by decide +kernel⟩,
    ⟨{ up with dev := { up.dev with reboot := true } }, by decide +kernel⟩,
    ⟨{ State.reset with dev := { cause := 2 } }, by decide +kernel⟩⟩

theorem meets_updates_and_boots :
    (∃ (s : State) (u : State), u = s.waitFrom s.cairn.stagedAt (sec 300) ∧ s.cairn.holder ≠ .none_ ∧ s.cairn.activating = none) ∧
    (∃ (s : State) (u : State) (c : Fin 7) (i : Fin 7), u = s.waitFrom (s.runsSince c) (sec 10) ∧ s.confirmable c = true ∧ counterIx c (s.comp c).active.family.toNat = some i) ∧
    (∃ (s : State) (c : Fin 7), (s.comp c).trial = true ∧ (s.comp c).runs = true ∧ s.otherOk c = true ∧ c ≠ 1 ∧ c ≠ 2) ∧
    (∃ (s : State), (s.comp 1).trial = true ∧ (s.comp 1).runs = true ∧ s.otherOk 1 = true) ∧
    (∃ (s : State), BootAhead s ∧ (∀ c, s.slotPasses c ((s.comp c).slot (s.bootMarks[c]).1) = true ∧ (s.bootMarks[c]).2 = false)) ∧
    (∃ (s : State) (c : Fin 7), BootAhead s ∧ (s.slotPasses 0 (s.comp 0).a = true ∨ s.slotPasses 0 (s.comp 0).b = true) ∧ (s.bootMarks[c]).2 = false ∧ s.slotPasses c ((s.comp c).slot (s.bootMarks[c]).1) = false ∧ s.slotPasses c ((s.comp c).slot (!(s.bootMarks[c]).1)) = true) ∧
    (∃ (s : State), BootAhead s ∧ s.cairn.running = false ∧ s.slotPasses 0 (s.comp 0).a = false ∧ s.slotPasses 0 (s.comp 0).b = false) ∧
    (∃ (s : State), s.dev.ready = true) ∧
    (∃ (s : State), (s.comp 2).trial = true ∧ (s.comp 2).runs = true ∧ s.otherOk 2 = true) :=
  ⟨⟨managed { holder := .owner }, _, rfl, by decide +kernel⟩,
    ⟨managed { comps := Vector.replicate 7 { a := img0, b := img0, trial := true, runs := true } }, _, 0, 0, rfl, by decide +kernel⟩,
    ⟨managed { comps := Vector.replicate 7 { a := img0, b := img0, trial := true, runs := true } }, 0, by decide +kernel⟩,
    ⟨managed { comps := Vector.replicate 7 { a := img0, b := img0, trial := true, runs := true } }, by decide +kernel⟩,
    ⟨unbooted, bootAhead_of (by decide +kernel), by decide +kernel⟩,
    ⟨{ unbooted with cairn := { unbooted.cairn with comps := unbooted.cairn.comps.set 3 { b := img0 } } }, 3, bootAhead_of (by decide +kernel), by decide +kernel⟩,
    ⟨{ unbooted with cairn := { unbooted.cairn with comps := unbooted.cairn.comps.set 0 {} } }, bootAhead_of (by decide +kernel), by decide +kernel⟩,
    ⟨up, by decide +kernel⟩,
    ⟨managed { comps := Vector.replicate 7 { a := img0, b := img0, trial := true, runs := true } }, by decide +kernel⟩⟩

end Sys2Proof.Tests
end

namespace Sys2Proof.Machine

/-! ### What a read of the reset state finds -/

theorem State.reset_tablesOk : TablesOk State.reset := ⟨rfl, rfl, rfl, rfl, rfl, rfl, rfl, rfl, rfl⟩

@[simp] theorem State.reset_reg (r : Reg) : State.reset.reg r = r.reset := rfl
@[simp] theorem State.reset_key (h : Nat) : State.reset.key h = none := rfl
@[simp] theorem State.reset_ring (i : Nat) : State.reset.ring i = {} := rfl
@[simp] theorem State.reset_obj (d : Dom) (o : Nat) : State.reset.obj d o = {} := rfl

@[simp] theorem State.reset_port (p : PortId) : State.reset.port p = {} := by
  simp [State.port, State.reset]

@[simp] theorem State.reset_group (k : GrpId) : State.reset.group k = {} := by
  simp [State.group, State.reset]

@[simp] theorem State.reset_entry_zero : State.reset.entry 0 = Entry.ownerReset := rfl

/-- R17, R22: the partition at reset holds the entry of D0 alone. -/
theorem State.reset_entry_tenant {d : Dom} (h : d ≠ 0) : State.reset.entry d = {} := by
  have hv : (0 : Nat) ≠ d.val := fun c => h (Fin.ext c.symm)
  simp [State.entry, State.reset, Vector.getElem_set_ne _ _ hv]

/-- Settles O2: the tables list nothing at reset, so each read of them gives the default, and every vector but that of the entries holds one value. -/
theorem resetState : Obligations.ResetState := by
  unfold Obligations.ResetState
  refine ⟨State.reset_tablesOk, rfl, State.reset_reg, rfl, rfl, ?ports, ?groups, rfl, State.reset_entry_zero, ?tenants, State.reset_key, rfl,
    State.reset_ring, ?objects, fun _ _ => rfl, rfl, rfl⟩
  case ports => intro p; rw [State.reset_port]
  case groups => intro k; rw [State.reset_group]
  case tenants => intro d hd; rw [State.reset_entry_tenant hd]
  case objects => intro d o; rw [State.reset_obj]; rfl

/-! ### A host write that reaches a register -/

theorem State.answers_of_serves {s : State} (h : s.serves = true) : s.answers = true := by
  simp only [State.serves, Bool.and_eq_true] at h
  exact h.1

theorem State.recovery_of_serves {s : State} (h : s.serves = true) : s.dev.recovery = false := by
  simp only [State.serves, Bool.and_eq_true, Bool.not_eq_true'] at h
  exact h.2

theorem State.present_of_active {s : State} {d : Dom} (h : s.active d = true) : s.present d = true := by
  simp only [State.active, State.present, Bool.or_eq_true, Bool.and_eq_true] at h ⊢
  exact h.imp_right And.left

/-- A write of a low word by the domain that holds the register is passed on to it (R18, R23). -/
theorem State.bar0Write_low {s : State} {d : Dom} {off : Nat} {r : Reg} (v : DWord) (hserves : s.serves = true) (hactive : s.active d = true)
    (hring : s.ringBeyond d off = false) (hat : s.regAt d off = some (r, false)) (howner : s.regOwner r = d) :
    s.bar0Write d off .low v = s.regWrite d r .low mask32 v (v.setWidth 32) := by
  simp [State.bar0Write, State.answers_of_serves hserves, State.present_of_active hactive, hring, hat, State.recovery_of_serves hserves, hactive,
    howner]

/-- A write of FPn_TXSET is a slot allocation too (R181, R182): sends that wait for a slot may enter the set. -/
theorem State.regWrite_txset (s : State) (d : Dom) (p : PortId) (w : Width) (mask v : DWord) (x : Word) :
    s.regWrite d (.port p .txset) w mask v x = finish ((s.writeFields d (.port p .txset) mask v (fun _ => false)).fillSlots p 32) := rfl

/-! ### A waiting send that a write of SRC_CAP lets in -/

namespace SrcCapRaise

/-- A send object of port 3 whose send is pending. -/
def sendObject : Obj := { cfg := { cfg0 := 0x33 }, pending := true }

/-- The pending send of D0's object o as a candidate of port 3. -/
def candidate (o : BitVec 13) (slot : Nat) : Cand :=
  { slot := slot, order := slot, src := .obj o, op := { dom := 0, num := 0, tag := 1 },
    frame := { fmt := .cc, ident := 0x123, ide := false, rtr := false, brs := false, esi := false, dlc := 0, sdt := 0, vcid := 0, sec := false, af := 0, data := [] } }

/-- A device that serves, with FP3_TXSET.SRC_CAP at 1 and two sends of D0 pending: that of object 5 holds slot 0, and that of object 6 waits,
numbered from 32 (R182, R183). -/
def before : State :=
  { State.reset with
    dev := { ready := true }
    regs := RegFile.set [] (.port 3 .txset) 1
    objs := [(5, sendObject), (6, sendObject)]
    ports := State.reset.ports.set 3 { state := .normal, joined := true, busIdle := true, cands := [candidate 5 0, candidate 6 32], nextOrder := 1 } }

/-- FP3_TXSET in BAR0. -/
def offset : BitVec 19 := BitVec.ofNat 19 (Reg.port 3 .txset).off

/-- D0 writes SRC_CAP 2. -/
def write : Instr := .registerWrite 0 (.bar0 offset) .low 2

/-- The register takes the value, and the waiting send is given a slot. -/
def written : State := (before.writeFields 0 (.port 3 .txset) mask32 2 (fun _ => false)).fillSlots 3 32

theorem before_serves : before.serves = true := by decide +kernel
theorem before_active : before.active 0 = true := by decide +kernel
theorem offset_not_ring : before.ringBeyond 0 offset.toNat = false := by decide +kernel
theorem regAt_offset : before.regAt 0 offset.toNat = some (.port 3 .txset, false) := by decide +kernel
theorem before_portOwner : before.portOwner 3 = 0 := by decide +kernel

theorem exec_write : exec write before = finish written := by
  have h : exec write before = before.bar0Write 0 offset.toNat .low 2 := rfl
  rw [h, State.bar0Write_low 2 before_serves before_active offset_not_ring regAt_offset before_portOwner, State.regWrite_txset]
  rfl

/-- The slots of port 3's candidates: the send that waited takes slot 1. -/
theorem before_slots : (before.port 3).cands.map Cand.slot = [0, 32] := by decide +kernel
theorem written_slots : (written.port 3).cands.map Cand.slot = [0, 1] := by decide +kernel

theorem written_ports_ne : written.ports ≠ before.ports := by
  intro h
  have hport : written.port 3 = before.port 3 := congrArg (·[(3 : PortId)]) h
  have hslots := written_slots
  rw [hport, before_slots] at hslots
  exact absurd hslots (by decide)

end SrcCapRaise

open SrcCapRaise in
/-- Refutes O14, whose first clause keeps every port as it was on a write of any register of a field port but CMD and PAIR. FPn_TXSET is one of these,
and a raised SRC_CAP takes effect at the next slot allocation (R182), which the write itself makes: D0 writes 2 over 1 in FP3_TXSET, and its second
pending send, which waited for a slot, takes slot 1. -/
theorem not_registerWrites : ¬ Obligations.RegisterWrites := by
  unfold Obligations.RegisterWrites
  rintro ⟨hfields, -⟩
  obtain ⟨t, hexec, -, -, hports, -⟩ := hfields before 0 offset .low 2 3 .txset before_serves before_active offset_not_ring regAt_offset
    before_portOwner (by decide) (by decide) (.inl rfl)
  have hnext : t = written.noteMay.announce := (Host.Outcome.next.inj (hexec.symm.trans exec_write))
  rw [hnext, State.announce_ports, State.noteMay_ports] at hports
  exact written_ports_ne hports

end Sys2Proof.Machine

namespace Sys2Proof.Machine

/-! ### The frame of every command -/

/-- A part that the list of a command names, found by evaluation of the list: the command's operands play no part in it. -/
theorem mem_touches {p : Part} {i : Instr} (h : (touches i).elem p = true) : p ∈ touches i := List.mem_of_elem_eq_true h

theorem mem_everyPart (p : Part) : p ∈ everyPart := by
  cases p with
  | regs b => cases b <;> decide
  | _ => decide

/-- An operation that keeps the queue changes nothing but some of all the parts. -/
theorem Result.all_keeps_everyPart {b : Bool} {s : State} {r : Result} (h : Result.All (Keeps b s) r) : Result.All (Only everyPart s) r :=
  Result.all_iff.2 fun t ht => ⟨(Result.all_iff.1 h t ht).1.1, fun p hp => absurd (mem_everyPart p) hp⟩

/-- Each meaning changes only parts that are named for its command: the frame lemma of the meaning asks for the parts that its operations write, and
the command's list holds each of them. A register write and the resets of the whole device may change any part, and keep the queue. -/
theorem exec_only (i : Instr) (s : State) : Result.All (Only (touches i) s) (exec i s) := by
  cases i with
  | domainEntry => apply execDomainEntry_only (Only.refl s) <;> exact mem_touches rfl
  | dmaWindowRecord => apply execDmaWindowRecord_only (Only.refl s) <;> exact mem_touches rfl
  | routeAssign => apply execRouteAssign_only (Only.refl s) <;> exact mem_touches rfl
  | reclaim => apply execReclaim_only (Only.refl s) <;> exact mem_touches rfl
  | recordComplete => apply execRecordComplete_only (Only.refl s) <;> exact mem_touches rfl
  | registerWrite => exact Result.all_keeps_everyPart (execRegisterWrite_keeps (Keeps.refl (b := false) s))
  | devKick => apply execDevKick_only (Only.refl s) <;> exact mem_touches rfl
  | ringPoll => apply execRingPoll_only (Only.refl s) <;> exact mem_touches rfl
  | cqStallPoll => apply execCqStallPoll_only (Only.refl s) <;> exact mem_touches rfl
  | dbbEnable => apply execDbbEnable_only (Only.refl s) <;> exact mem_touches rfl
  | tsqEnable => apply execTsqEnable_only (Only.refl s) <;> exact mem_touches rfl
  | ringEnable => apply execRingEnable_only (Only.refl s) <;> exact mem_touches rfl
  | ringDisable => apply execRingDisable_only (Only.refl s) <;> exact mem_touches rfl
  | ringDisableDone => apply execRingDisableDone_only (Only.refl s) <;> exact mem_touches rfl
  | txFrame => apply execTxFrame_only (Only.refl s) <;> exact mem_touches rfl
  | rxBuf => apply execRxBuf_only (Only.refl s) <;> exact mem_touches rfl
  | ethTx => apply execEthTx_only (Only.refl s) <;> exact mem_touches rfl
  | nop => apply execNop_only (Only.refl s) <;> exact mem_touches rfl
  | objRead => apply execObjRead_only (Only.refl s) <;> exact mem_touches rfl
  | objReadCopyDone => apply execObjReadCopyDone_only (Only.refl s) <;> exact mem_touches rfl
  | objWrite => apply execObjWrite_only (Only.refl s) <;> exact mem_touches rfl
  | objSend => apply execObjSend_only (Only.refl s) <;> exact mem_touches rfl
  | hold => apply execHold_only (Only.refl s) <;> exact mem_touches rfl
  | offsetSample => apply execOffsetSample_only (Only.refl s) <;> exact mem_touches rfl
  | keyGen => apply execKeyGen_only (Only.refl s) <;> exact mem_touches rfl
  | keyLoad => apply execKeyLoad_only (Only.refl s) <;> exact mem_touches rfl
  | keyErase => apply execKeyErase_only (Only.refl s) <;> exact mem_touches rfl
  | challenge => apply execChallenge_only (Only.refl s) <;> exact mem_touches rfl
  | challengeExpiry => apply execChallengeExpiry_only (Only.refl s) <;> exact mem_touches rfl
  | ownerEnrol => apply execOwnerEnrol_only (Only.refl s) <;> exact mem_touches rfl
  | ownerRelease => apply execOwnerRelease_only (Only.refl s) <;> exact mem_touches rfl
  | retire => apply execRetire_only (Only.refl s) <;> exact mem_touches rfl
  | rmaEnter => apply execRmaEnter_only (Only.refl s) <;> exact mem_touches rfl
  | attest => apply execAttest_only (Only.refl s) <;> exact mem_touches rfl
  | logRead => apply execLogRead_only (Only.refl s) <;> exact mem_touches rfl
  | imgWrite => apply execImgWrite_only (Only.refl s) <;> exact mem_touches rfl
  | imgActivate => apply execImgActivate_only (Only.refl s) <;> exact mem_touches rfl
  | gwRule => apply execGwRule_only (Only.refl s) <;> exact mem_touches rfl
  | selfTest => apply execSelfTest_only (Only.refl s) <;> exact mem_touches rfl
  | selfTestEnd => apply execSelfTestEnd_only (Only.refl s) <;> exact mem_touches rfl
  | trvWrite => apply execTrvWrite_only (Only.refl s) <;> exact mem_touches rfl
  | trvRead => apply execTrvRead_only (Only.refl s) <;> exact mem_touches rfl
  | rtWrite => apply execRtWrite_only (Only.refl s) <;> exact mem_touches rfl
  | rtRead => apply execRtRead_only (Only.refl s) <;> exact mem_touches rfl
  | fabTopoRead => apply execFabTopoRead_only (Only.refl s) <;> exact mem_touches rfl
  | flr => apply execFlr_only (Only.refl s) <;> exact mem_touches rfl
  | flrComplete => apply execFlrComplete_only (Only.refl s) <;> exact mem_touches rfl
  | pfFlr => apply execPfFlr_only (Only.refl s) <;> exact mem_touches rfl
  | hostReset => apply execHostReset_only (Only.refl s) <;> exact mem_touches rfl
  | portEnable => apply execPortEnable_only (Only.refl s) <;> exact mem_touches rfl
  | portDisable => apply execPortDisable_only (Only.refl s) <;> exact mem_touches rfl
  | portStart => apply execPortStart_only (Only.refl s) <;> exact mem_touches rfl
  | portStop => apply execPortStop_only (Only.refl s) <;> exact mem_touches rfl
  | portStopEffect => apply execPortStopEffect_only (Only.refl s) <;> exact mem_touches rfl
  | portRestart => apply execPortRestart_only (Only.refl s) <;> exact mem_touches rfl
  | portSleep => apply execPortSleep_only (Only.refl s) <;> exact mem_touches rfl
  | portWake => apply execPortWake_only (Only.refl s) <;> exact mem_touches rfl
  | wakeEdge => apply execWakeEdge_only (Only.refl s) <;> exact mem_touches rfl
  | wakeFrame => apply execWakeFrame_only (Only.refl s) <;> exact mem_touches rfl
  | busIntegrated => apply execBusIntegrated_only (Only.refl s) <;> exact mem_touches rfl
  | startDecision => apply execStartDecision_only (Only.refl s) <;> exact mem_touches rfl
  | attemptCommit => apply execAttemptCommit_only (Only.refl s) <;> exact mem_touches rfl
  | attemptEnd => apply execAttemptEnd_only (Only.refl s) <;> exact mem_touches rfl
  | errorDetected => apply execErrorDetected_only (Only.refl s) <;> exact mem_touches rfl
  | recoverySeqEnd => apply execRecoverySeqEnd_only (Only.refl s) <;> exact mem_touches rfl
  | suspendEnd => apply execSuspendEnd_only (Only.refl s) <;> exact mem_touches rfl
  | payloadLoaded => apply execPayloadLoaded_only (Only.refl s) <;> exact mem_touches rfl
  | candidateExpiry => apply execCandidateExpiry_only (Only.refl s) <;> exact mem_touches rfl
  | holdTakesEffect => apply execHoldTakesEffect_only (Only.refl s) <;> exact mem_touches rfl
  | holdExpiry => apply execHoldExpiry_only (Only.refl s) <;> exact mem_touches rfl
  | frameReceived => apply execFrameReceived_only (Only.refl s) <;> exact mem_touches rfl
  | filterEval => apply execFilterEval_only (Only.refl s) <;> exact mem_touches rfl
  | bufWaitExpiry => apply execBufWaitExpiry_only (Only.refl s) <;> exact mem_touches rfl
  | objLoad => apply execObjLoad_only (Only.refl s) <;> exact mem_touches rfl
  | objCommit => apply execObjCommit_only (Only.refl s) <;> exact mem_touches rfl
  | fltRead => apply execFltRead_only (Only.refl s) <;> exact mem_touches rfl
  | fltWrite => apply execFltWrite_only (Only.refl s) <;> exact mem_touches rfl
  | bankSupplyLoss => apply execBankSupplyLoss_only (Only.refl s) <;> exact mem_touches rfl
  | ref25Loss => apply execRef25Loss_only (Only.refl s) <;> exact mem_touches rfl
  | ref25Lock => apply execRef25Lock_only (Only.refl s) <;> exact mem_touches rfl
  | refHoldoverExpiry => apply execRefHoldoverExpiry_only (Only.refl s) <;> exact mem_touches rfl
  | colTravelEnd => apply execColTravelEnd_only (Only.refl s) <;> exact mem_touches rfl
  | pairInserted => apply execPairInserted_only (Only.refl s) <;> exact mem_touches rfl
  | groupStart => apply execGroupStart_only (Only.refl s) <;> exact mem_touches rfl
  | groupStop => apply execGroupStop_only (Only.refl s) <;> exact mem_touches rfl
  | groupStopEffect => apply execGroupStopEffect_only (Only.refl s) <;> exact mem_touches rfl
  | groupRejoin => apply execGroupRejoin_only (Only.refl s) <;> exact mem_touches rfl
  | groupRestart => apply execGroupRestart_only (Only.refl s) <;> exact mem_touches rfl
  | branchJoin => apply execBranchJoin_only (Only.refl s) <;> exact mem_touches rfl
  | stuckIsolate => apply execStuckIsolate_only (Only.refl s) <;> exact mem_touches rfl
  | rejoinSeqEnd => apply execRejoinSeqEnd_only (Only.refl s) <;> exact mem_touches rfl
  | starSof => apply execStarSof_only (Only.refl s) <;> exact mem_touches rfl
  | windowCloseCut => apply execWindowCloseCut_only (Only.refl s) <;> exact mem_touches rfl
  | cycleStart => apply execCycleStart_only (Only.refl s) <;> exact mem_touches rfl
  | listenTimeout => apply execListenTimeout_only (Only.refl s) <;> exact mem_touches rfl
  | coldstartBackoffEnd => apply execColdstartBackoffEnd_only (Only.refl s) <;> exact mem_touches rfl
  | refBackupTimeout => apply execRefBackupTimeout_only (Only.refl s) <;> exact mem_touches rfl
  | slotMissed => apply execSlotMissed_only (Only.refl s) <;> exact mem_touches rfl
  | tmuRateWrite => apply execTmuRateWrite_only (Only.refl s) <;> exact mem_touches rfl
  | tmuStep => apply execTmuStep_only (Only.refl s) <;> exact mem_touches rfl
  | tmuLatchRead => apply execTmuLatchRead_only (Only.refl s) <;> exact mem_touches rfl
  | epochPass => apply execEpochPass_only (Only.refl s) <;> exact mem_touches rfl
  | servoEnable => apply execServoEnable_only (Only.refl s) <;> exact mem_touches rfl
  | servoSample => apply execServoSample_only (Only.refl s) <;> exact mem_touches rfl
  | servoHoldover => apply execServoHoldover_only (Only.refl s) <;> exact mem_touches rfl
  | ppsEdge => apply execPpsEdge_only (Only.refl s) <;> exact mem_touches rfl
  | evtInEdge => apply execEvtInEdge_only (Only.refl s) <;> exact mem_touches rfl
  | evtoutEnable => apply execEvtoutEnable_only (Only.refl s) <;> exact mem_touches rfl
  | pulseEdge => apply execPulseEdge_only (Only.refl s) <;> exact mem_touches rfl
  | beaconDue => apply execBeaconDue_only (Only.refl s) <;> exact mem_touches rfl
  | epEnable => apply execEpEnable_only (Only.refl s) <;> exact mem_touches rfl
  | epLinkUp => apply execEpLinkUp_only (Only.refl s) <;> exact mem_touches rfl
  | epLinkLoss => apply execEpLinkLoss_only (Only.refl s) <;> exact mem_touches rfl
  | anRestart => apply execAnRestart_only (Only.refl s) <;> exact mem_touches rfl
  | ethFrameReceived => apply execEthFrameReceived_only (Only.refl s) <;> exact mem_touches rfl
  | pauseEnd => apply execPauseEnd_only (Only.refl s) <;> exact mem_touches rfl
  | ethTxEnd => apply execEthTxEnd_only (Only.refl s) <;> exact mem_touches rfl
  | ptpProfileWrite => apply execPtpProfileWrite_only (Only.refl s) <;> exact mem_touches rfl
  | rlEnable => apply execRlEnable_only (Only.refl s) <;> exact mem_touches rfl
  | rlAligned => apply execRlAligned_only (Only.refl s) <;> exact mem_touches rfl
  | rlFault => apply execRlFault_only (Only.refl s) <;> exact mem_touches rfl
  | helloTimer => apply execHelloTimer_only (Only.refl s) <;> exact mem_touches rfl
  | hello => apply execHello_only (Only.refl s) <;> exact mem_touches rfl
  | helloTimeout => apply execHelloTimeout_only (Only.refl s) <;> exact mem_touches rfl
  | keyx => apply execKeyx_only (Only.refl s) <;> exact mem_touches rfl
  | keyxTimer => apply execKeyxTimer_only (Only.refl s) <;> exact mem_touches rfl
  | topo => apply execTopo_only (Only.refl s) <;> exact mem_touches rfl
  | topoTimer => apply execTopoTimer_only (Only.refl s) <;> exact mem_touches rfl
  | topoExpiry => apply execTopoExpiry_only (Only.refl s) <;> exact mem_touches rfl
  | addrReqTimer => apply execAddrReqTimer_only (Only.refl s) <;> exact mem_touches rfl
  | addrReq => apply execAddrReq_only (Only.refl s) <;> exact mem_touches rfl
  | addrAssign => apply execAddrAssign_only (Only.refl s) <;> exact mem_touches rfl
  | routed => apply execRouted_only (Only.refl s) <;> exact mem_touches rfl
  | creditReport => apply execCreditReport_only (Only.refl s) <;> exact mem_touches rfl
  | creditReportTimer => apply execCreditReportTimer_only (Only.refl s) <;> exact mem_touches rfl
  | linkTxStart => apply execLinkTxStart_only (Only.refl s) <;> exact mem_touches rfl
  | timeSyncTimer => apply execTimeSyncTimer_only (Only.refl s) <;> exact mem_touches rfl
  | timeSync => apply execTimeSync_only (Only.refl s) <;> exact mem_touches rfl
  | timeReply => apply execTimeReply_only (Only.refl s) <;> exact mem_touches rfl
  | fabEnable => apply execFabEnable_only (Only.refl s) <;> exact mem_touches rfl
  | colfTravelEnd => apply execColfTravelEnd_only (Only.refl s) <;> exact mem_touches rfl
  | fabTimeWrite => apply execFabTimeWrite_only (Only.refl s) <;> exact mem_touches rfl
  | routeRecompute => apply execRouteRecompute_only (Only.refl s) <;> exact mem_touches rfl
  | engineLoss => apply execEngineLoss_only (Only.refl s) <;> exact mem_touches rfl
  | engineLoadDone => apply execEngineLoadDone_only (Only.refl s) <;> exact mem_touches rfl
  | takeoverDone => apply execTakeoverDone_only (Only.refl s) <;> exact mem_touches rfl
  | devSwap => apply execDevSwap_only (Only.refl s) <;> exact mem_touches rfl
  | swapQuietPoint => apply execSwapQuietPoint_only (Only.refl s) <;> exact mem_touches rfl
  | swapTimeout => apply execSwapTimeout_only (Only.refl s) <;> exact mem_touches rfl
  | retest => apply execRetest_only (Only.refl s) <;> exact mem_touches rfl
  | reload => apply execReload_only (Only.refl s) <;> exact mem_touches rfl
  | halt => apply execHalt_only (Only.refl s) <;> exact mem_touches rfl
  | engineTestEnd => apply execEngineTestEnd_only (Only.refl s) <;> exact mem_touches rfl
  | coreTestEnd => apply execCoreTestEnd_only (Only.refl s) <;> exact mem_touches rfl
  | coreFault => apply execCoreFault_only (Only.refl s) <;> exact mem_touches rfl
  | dutyMoveDone => apply execDutyMoveDone_only (Only.refl s) <;> exact mem_touches rfl
  | gwInput => apply execGwInput_only (Only.refl s) <;> exact mem_touches rfl
  | gwGapEnd => apply execGwGapEnd_only (Only.refl s) <;> exact mem_touches rfl
  | gwRead => apply execGwRead_only (Only.refl s) <;> exact mem_touches rfl
  | evcClaim => apply execEvcClaim_only (Only.refl s) <;> exact mem_touches rfl
  | evcEoi => apply execEvcEoi_only (Only.refl s) <;> exact mem_touches rfl
  | vectorDelivery => apply execVectorDelivery_only (Only.refl s) <;> exact mem_touches rfl
  | moderationGapEnd => apply execModerationGapEnd_only (Only.refl s) <;> exact mem_touches rfl
  | offlineFallback => apply execOfflineFallback_only (Only.refl s) <;> exact mem_touches rfl
  | modeWrite => apply execModeWrite_only (Only.refl s) <;> exact mem_touches rfl
  | raiseConfirmed => apply execRaiseConfirmed_only (Only.refl s) <;> exact mem_touches rfl
  | raiseTimeout => apply execRaiseTimeout_only (Only.refl s) <;> exact mem_touches rfl
  | sensorSample => apply execSensorSample_only (Only.refl s) <;> exact mem_touches rfl
  | govFallback => apply execGovFallback_only (Only.refl s) <;> exact mem_touches rfl
  | govReturn => apply execGovReturn_only (Only.refl s) <;> exact mem_touches rfl
  | govWrite => apply execGovWrite_only (Only.refl s) <;> exact mem_touches rfl
  | logIntake => apply execLogIntake_only (Only.refl s) <;> exact mem_touches rfl
  | logClear => apply execLogClear_only (Only.refl s) <;> exact mem_touches rfl
  | setEndpointId => apply execSetEndpointId_only (Only.refl s) <;> exact mem_touches rfl
  | getEndpointId => apply execGetEndpointId_only (Only.refl s) <;> exact mem_touches rfl
  | getEndpointUuid => apply execGetEndpointUuid_only (Only.refl s) <;> exact mem_touches rfl
  | getMctpVersionSupport => apply execGetMctpVersionSupport_only (Only.refl s) <;> exact mem_touches rfl
  | getMessageTypeSupport => apply execGetMessageTypeSupport_only (Only.refl s) <;> exact mem_touches rfl
  | getVendorDefinedMsgSupport => apply execGetVendorDefinedMsgSupport_only (Only.refl s) <;> exact mem_touches rfl
  | getSensors => apply execGetSensors_only (Only.refl s) <;> exact mem_touches rfl
  | setMode => apply execSetMode_only (Only.refl s) <;> exact mem_touches rfl
  | getAttest => apply execGetAttest_only (Only.refl s) <;> exact mem_touches rfl
  | getLog => apply execGetLog_only (Only.refl s) <;> exact mem_touches rfl
  | stage => apply execStage_only (Only.refl s) <;> exact mem_touches rfl
  | activate => apply execActivate_only (Only.refl s) <;> exact mem_touches rfl
  | getStatus => apply execGetStatus_only (Only.refl s) <;> exact mem_touches rfl
  | smbusReset => apply execSmbusReset_only (Only.refl s) <;> exact mem_touches rfl
  | clearAlert => apply execClearAlert_only (Only.refl s) <;> exact mem_touches rfl
  | alertResponse => apply execAlertResponse_only (Only.refl s) <;> exact mem_touches rfl
  | stagingHolderTimeout => apply execStagingHolderTimeout_only (Only.refl s) <;> exact mem_touches rfl
  | imgConfirm => apply execImgConfirm_only (Only.refl s) <;> exact mem_touches rfl
  | imgRevert => apply execImgRevert_only (Only.refl s) <;> exact mem_touches rfl
  | svcRestart => apply execSvcRestart_only (Only.refl s) <;> exact mem_touches rfl
  | scrub => apply execScrub_only (Only.refl s) <;> exact mem_touches rfl
  | debugUnlockRequest => apply execDebugUnlockRequest_only (Only.refl s) <;> exact mem_touches rfl
  | debugUnlock => apply execDebugUnlock_only (Only.refl s) <;> exact mem_touches rfl
  | warmReset => exact Result.all_keeps_everyPart (execWarmReset_keeps (Keeps.refl (b := false) s))
  | powerOnReset => exact Result.all_keeps_everyPart (execPowerOnReset_keeps (Keeps.refl (b := false) s))
  | boot => apply execBoot_only (Only.refl s) <;> exact mem_touches rfl
  | bankSupplyReturn => apply execBankSupplyReturn_only (Only.refl s) <;> exact mem_touches rfl
  | svcRestartEnd => apply execSvcRestartEnd_only (Only.refl s) <;> exact mem_touches rfl
  | perstHigh => exact execPerstHigh_only (Only.refl s) (mem_touches rfl)
  | selfTestForcedStart => apply execSelfTestForcedStart_only (Only.refl s) <;> exact mem_touches rfl
  | ptpMessageInterval => apply execPtpMessageInterval_only (Only.refl s) <;> exact mem_touches rfl
  | announceReceiptTimeout => apply execAnnounceReceiptTimeout_only (Only.refl s) <;> exact mem_touches rfl
  | rlFrameDiscard => apply execRlFrameDiscard_only (Only.refl s) <;> exact mem_touches rfl
  | invalidOpcodeDescriptor => apply execInvalidOpcodeDescriptor_only (Only.refl s) <;> exact mem_touches rfl
  | unsupportedMctpMessage => apply execUnsupportedMctpMessage_only (Only.refl s) <;> exact mem_touches rfl

/-- Settles O4, by cases over the commands. -/
theorem everyCommandTouchesOnlyItsParts : Obligations.EveryCommandTouchesOnlyItsParts :=
  fun i s => Result.all_iff.1 (exec_only i s)

end Sys2Proof.Machine

namespace Sys2Proof.Machine

/-! ### What a fetch, a completion and the end of a command leave as it was -/

/-- A counted event changes the counters and their HALF bits. -/
theorem State.countDev_eq (s : State) (off : Nat) : ∃ c h, s.countDev off = { s with counts := c, halves := h } := ⟨_, _, rfl⟩

/-- An entry written changes what leaves the device and the rings. -/
theorem State.writeEntry_eq (s : State) (d : Dom) (cq : RingNo) (e : CqEntry) (isOp : Bool) :
    ∃ o r, s.writeEntry d cq e isOp = { s with out := o, rings := r } := by
  unfold State.writeEntry
  extract_lets i r s1 s2 s3
  obtain ⟨o, ho⟩ := State.doorbell_eq s2 d (0x400 + 4 * cq.val) ((r.head + 1).setWidth 32)
  have h3 : s3 = { s2 with out := o } := ho
  clear_value s3
  subst h3
  split
  · exact ⟨_, _, rfl⟩
  · exact ⟨_, _, rfl⟩

/-- A completion changes what leaves the device, the rings and the counters (R79, R83). -/
theorem State.completeE_eq (s : State) (d : Dom) (e : CqEntry) (isOp : Bool) :
    ∃ o r c h, s.completeE d e isOp = { s with out := o, rings := r, counts := c, halves := h } := by
  unfold State.completeE
  extract_lets u cq i r w
  have hu : ∃ c h, u = { s with counts := c, halves := h } := by
    unfold u
    split
    · exact s.countDev_eq 0
    · exact ⟨_, _, rfl⟩
  obtain ⟨c, h, hu⟩ := hu
  clear_value u
  subst hu
  split
  · split
    · exact ⟨_, _, _, _, rfl⟩
    · exact ⟨_, _, _, _, rfl⟩
  · split
    · obtain ⟨l, q, hw⟩ := State.writeEntry_eq { s with counts := c, halves := h } d cq e isOp
      exact ⟨l, q, c, h, hw⟩
    · split
      · exact ⟨_, _, _, _, rfl⟩
      · exact ⟨_, _, _, _, rfl⟩

theorem State.complete_eq (s : State) (o : Op) (st : Byte) (i0 : Word) (i1 : Half) (stamp : Option (BitVec 36)) (port : Byte) :
    ∃ l r c h, s.complete o st i0 i1 stamp port = { s with out := l, rings := r, counts := c, halves := h } := by
  unfold State.complete
  split
  · exact ⟨_, _, _, _, rfl⟩
  · exact State.completeE_eq _ _ _ _

section complete
variable (s : State) (o : Op) (st : Byte) (i0 : Word) (i1 : Half) (stamp : Option (BitVec 36)) (port : Byte)

@[simp] theorem State.complete_belay : (s.complete o st i0 i1 stamp port).belay = s.belay := by
  obtain ⟨l, r, c, h, e⟩ := s.complete_eq o st i0 i1 stamp port; rw [e]
@[simp] theorem State.complete_regs : (s.complete o st i0 i1 stamp port).regs = s.regs := by
  obtain ⟨l, r, c, h, e⟩ := s.complete_eq o st i0 i1 stamp port; rw [e]
@[simp] theorem State.complete_ports : (s.complete o st i0 i1 stamp port).ports = s.ports := by
  obtain ⟨l, r, c, h, e⟩ := s.complete_eq o st i0 i1 stamp port; rw [e]
@[simp] theorem State.complete_log : (s.complete o st i0 i1 stamp port).log = s.log := by
  obtain ⟨l, r, c, h, e⟩ := s.complete_eq o st i0 i1 stamp port; rw [e]
@[simp] theorem State.complete_tarn : (s.complete o st i0 i1 stamp port).tarn = s.tarn := by
  obtain ⟨l, r, c, h, e⟩ := s.complete_eq o st i0 i1 stamp port; rw [e]
@[simp] theorem State.complete_flt : (s.complete o st i0 i1 stamp port).flt = s.flt := by
  obtain ⟨l, r, c, h, e⟩ := s.complete_eq o st i0 i1 stamp port; rw [e]
@[simp] theorem State.complete_objs : (s.complete o st i0 i1 stamp port).objs = s.objs := by
  obtain ⟨l, r, c, h, e⟩ := s.complete_eq o st i0 i1 stamp port; rw [e]

end complete

section fetch
variable (s : State) (d : Dom) (n : RingNo) (op : Bool)

@[simp] theorem State.fetch_belay : (s.fetch d n op).belay = s.belay := by
  obtain ⟨o, e⟩ := s.fetch_eq d n op; rw [e]; rfl
@[simp] theorem State.fetch_regs : (s.fetch d n op).regs = s.regs := by
  obtain ⟨o, e⟩ := s.fetch_eq d n op; rw [e]; rfl
@[simp] theorem State.fetch_ports : (s.fetch d n op).ports = s.ports := by
  obtain ⟨o, e⟩ := s.fetch_eq d n op; rw [e]; rfl
@[simp] theorem State.fetch_log : (s.fetch d n op).log = s.log := by
  obtain ⟨o, e⟩ := s.fetch_eq d n op; rw [e]; rfl
@[simp] theorem State.fetch_tmu : (s.fetch d n op).tmu = s.tmu := by
  obtain ⟨o, e⟩ := s.fetch_eq d n op; rw [e]; rfl
@[simp] theorem State.fetch_free : (s.fetch d n op).free = s.free := by
  obtain ⟨o, e⟩ := s.fetch_eq d n op; rw [e]; rfl
@[simp] theorem State.fetch_dev : (s.fetch d n op).dev = s.dev := by
  obtain ⟨o, e⟩ := s.fetch_eq d n op; rw [e]; rfl
@[simp] theorem State.fetch_func (e : Dom) : (s.fetch d n op).func e = s.func e := by
  obtain ⟨o, h⟩ := s.fetch_eq d n op; rw [h]; rfl

end fetch

/-- A command that is fetched acts on the state after the fetch (R74, R77); one that is not leaves Belay as it was. -/
theorem State.command_belay (s : State) (d : Dom) (n : RingNo) (x : Desc) (f : State → Op → State) (im : Bool) :
    (s.command d n x f im).belay = s.belay ∨ s.command d n x f im = f (s.fetch d n) (s.opOf d n x) := by
  unfold State.command
  dsimp only
  split
  · exact .inl rfl
  · split
    · exact .inl (by rw [State.complete_belay, State.fetch_belay])
    · exact .inr rfl

/-- What every command ends with leaves Belay as it was. -/
theorem belay_of_finish {s t : State} (h : finish s = .next t) : t.belay = s.belay := by
  rw [← Host.Outcome.next.inj h, State.announce_belay, State.noteMay_belay]

end Sys2Proof.Machine

namespace Sys2Proof.Machine

/-! ### Fuses: what only six commands write -/

/-- Every part but the fuses. -/
def notFuses : List Part := everyPart.erase .otp

theorem mem_notFuses {p : Part} (h : p ≠ .otp) : p ∈ notFuses := (List.mem_erase_of_ne h).2 (mem_everyPart p)

theorem Only.otp {ps : List Part} {s t : State} (h : Only ps s t) (hp : Part.otp ∉ ps) : t.belay.otp = s.belay.otp := h.2 .otp hp

theorem Only.of_otp {s t : State} (hq : t.pending = s.pending) (ho : t.belay.otp = s.belay.otp) : Only notFuses s t :=
  ⟨hq, fun p hp => by
    have hotp : p = .otp := by_contra fun h => hp (mem_notFuses h)
    rw [hotp]
    exact ho⟩

section registerWrite
variable {s0 s : State} (h : Only notFuses s0 s)
include h

theorem State.plainWrite_notFuses {d r mask v} : Result.All (Only notFuses s0) (s.plainWrite d r mask v) := by
  unfold State.plainWrite
  apply finish_only
  · apply Only.ite
    · exact State.refuse_only h (mem_notFuses nofun)
    · exact State.writeFields_only h (mem_notFuses nofun) (mem_notFuses nofun)
  all_goals exact mem_notFuses nofun

theorem finish_notFuses : Result.All (Only notFuses s0) (finish s) := by
  apply finish_only h <;> exact mem_notFuses nofun

theorem State.fnWrite_notFuses {d e q mask v x} : Result.All (Only notFuses s0) (s.fnWrite d e q mask v x) := by
  unfold State.fnWrite
  split
  · apply execDevKick_only (h.free (mem_notFuses nofun)) <;> exact mem_notFuses nofun
  · apply finish_notFuses; apply State.writeDbb_only h <;> exact mem_notFuses nofun
  · apply finish_notFuses; apply State.writeTsq_only h <;> exact mem_notFuses nofun
  · apply finish_notFuses; apply State.writeObjCmd_only h <;> exact mem_notFuses nofun
  · apply finish_notFuses; apply State.writeFltCmd_only h <;> exact mem_notFuses nofun
  · apply finish_notFuses; apply State.writeGwCmd_only h <;> exact mem_notFuses nofun
  · apply finish_notFuses; apply State.writeSeal_only h <;> exact mem_notFuses nofun
  · apply finish_notFuses; apply State.writeSeal_only h <;> exact mem_notFuses nofun
  · apply finish_notFuses; apply State.writeSeal_only h <;> exact mem_notFuses nofun
  · apply finish_notFuses; apply State.writeSeal_only h <;> exact mem_notFuses nofun
  · exact State.plainWrite_notFuses h

omit h in
theorem State.warm_notFuses (cause : BitVec 3) : Only notFuses s (s.warm cause) := Only.of_otp rfl rfl

theorem State.warmTrigger_notFuses (cause : BitVec 3) : Only notFuses s0 (s.warmTrigger cause) := by
  unfold State.warmTrigger
  exact Only.ite (h.dev (mem_notFuses nofun)) (h.trans (State.warm_notFuses cause))

/-- A warm reset keeps the fuses, with whatever cause (R479). -/
theorem execWarmReset_notFuses {c} : Result.All (Only notFuses s0) (execWarmReset c s) := by
  unfold execWarmReset
  split
  · refine Result.all_ite (Result.all_next h) (Result.all_ite ?_ (Result.all_ite ?_ (Result.all_next h)))
    · exact finish_notFuses (State.crossDomain_only h (mem_notFuses nofun))
    · exact Result.all_next (State.warmTrigger_notFuses h 2)
  · exact Result.all_ite (Result.all_next (State.warmTrigger_notFuses h 3)) (Result.all_next h)
  · exact Result.all_next (State.warmTrigger_notFuses h 4)
  · exact Result.all_ite (Result.all_next (State.warmTrigger_notFuses h 4)) (Result.all_next h)

theorem State.devWrite_notFuses {d q mask v x} : Result.All (Only notFuses s0) (s.devWrite d q mask v x) := by
  unfold State.devWrite
  split
  · apply finish_notFuses; apply State.writeMode_only h <;> exact mem_notFuses nofun
  · apply finish_notFuses; apply State.writeSwap_only h <;> exact mem_notFuses nofun
  · apply finish_notFuses; apply State.writeSecmd_only h <;> exact mem_notFuses nofun
  · exact execWarmReset_notFuses h
  · exact State.plainWrite_notFuses h

theorem State.tmuWrite_notFuses {d q w mask v x} : Result.All (Only notFuses s0) (s.tmuWrite d q w mask v x) := by
  unfold State.tmuWrite
  split
  · apply execTmuRateWrite_only h <;> exact mem_notFuses nofun
  · apply finish_notFuses; apply State.writeStep_only h <;> exact mem_notFuses nofun
  · apply finish_notFuses; apply State.writeServo_only h <;> exact mem_notFuses nofun
  · exact State.plainWrite_notFuses h

theorem State.crnWrite_notFuses {d q mask v x} : Result.All (Only notFuses s0) (s.crnWrite d q mask v x) := by
  unfold State.crnWrite
  split
  · apply finish_notFuses; apply State.writeGov_only h <;> exact mem_notFuses nofun
  · apply finish_notFuses; apply State.writeGov_only h <;> exact mem_notFuses nofun
  · apply finish_notFuses; apply State.writeLogCfg_only h <;> exact mem_notFuses nofun
  · exact State.plainWrite_notFuses h

/-- No register starts anything that blows a fuse. -/
theorem State.regWrite_notFuses {d r w mask v x} : Result.All (Only notFuses s0) (s.regWrite d r w mask v x) := by
  cases r with
  | fn e q => exact State.fnWrite_notFuses h
  | dev q => exact State.devWrite_notFuses h
  | tmu q => exact State.tmuWrite_notFuses h
  | crn q => exact State.crnWrite_notFuses h
  | ring n q =>
    refine Result.all_ite ?_ (State.plainWrite_notFuses h)
    apply State.ringRequest_only h <;> exact mem_notFuses nofun
  | port p q =>
    refine Result.all_ite ?_ (Result.all_ite (Result.all_next h) (Result.all_ite ?_ (State.plainWrite_notFuses h)))
    · apply finish_notFuses; apply State.portRequest_only h <;> exact mem_notFuses nofun
    · apply finish_notFuses
      apply State.fillSlots_only (State.writeFields_only h (mem_notFuses nofun) (mem_notFuses nofun)) <;> exact mem_notFuses nofun
  | grp k q =>
    refine Result.all_ite ?_ (Result.all_ite ?_ (State.plainWrite_notFuses h))
    · apply finish_notFuses; apply State.groupRequest_only h <;> exact mem_notFuses nofun
    · apply finish_notFuses; apply State.membersRequest_only h <;> exact mem_notFuses nofun
  | evtinCfg i => apply finish_notFuses; apply State.writeEvtin_only h <;> exact mem_notFuses nofun
  | out i q =>
    refine Result.all_ite ?_ (State.plainWrite_notFuses h)
    apply finish_notFuses; apply State.writeOut_only h <;> exact mem_notFuses nofun
  | ep k q =>
    refine Result.all_ite ?_ (State.plainWrite_notFuses h)
    apply State.epRequest_only h <;> exact mem_notFuses nofun
  | ptpg => apply finish_notFuses; apply State.writePtpg_only h <;> exact mem_notFuses nofun
  | half b i => apply finish_notFuses; apply State.writeHalf_only h; exact mem_notFuses nofun
  | rl k q =>
    refine Result.all_ite ?_ (State.plainWrite_notFuses h)
    apply finish_notFuses; apply State.writeRlCfg_only h <;> exact mem_notFuses nofun
  | fab q =>
    refine Result.all_ite ?_ (Result.all_ite ?_ (State.plainWrite_notFuses h))
    · apply finish_notFuses; apply State.writeFabCfg_only h <;> exact mem_notFuses nofun
    · apply finish_notFuses; apply State.writeFabTime_only h <;> exact mem_notFuses nofun
  | evcMod _ _ | evcClaim _ _ | evcPri _ _ =>
    exact Result.all_ite (State.plainWrite_notFuses h) (finish_notFuses (State.crossDomain_only h (mem_notFuses nofun)))
  | evcEoi e t =>
    change Result.All _ (execEvcEoi d (.claim t x) ((Config.hostWord s.free).setWidth 16) s.draw)
    apply execEvcEoi_only (State.draw_only h (mem_notFuses nofun)) <;> exact mem_notFuses nofun
  | domApply => apply finish_notFuses; apply State.writeApply_only h <;> exact mem_notFuses nofun
  | _ => exact State.plainWrite_notFuses h

theorem State.bar0Write_notFuses {d off w v} : Result.All (Only notFuses s0) (s.bar0Write d off w v) := by
  have hcross : ∀ o x, Result.All (Only notFuses s0) (finish (s.crossDomain d o x)) :=
    fun _ _ => finish_notFuses (State.crossDomain_only h (mem_notFuses nofun))
  unfold State.bar0Write
  extract_lets o x
  refine Result.all_ite (Result.all_next h) (Result.all_ite (Result.all_ite (Result.all_next h) (hcross _ _)) ?_)
  split
  · exact Result.all_next h
  · refine Result.all_ite (Result.all_next h) (Result.all_ite (Result.all_next h) (Result.all_ite (hcross _ _) (Result.all_ite ?_ (Result.all_ite ?_ ?_))))
    · exact State.regWrite_notFuses h
    · exact State.regWrite_notFuses h
    · exact State.regWrite_notFuses h

/-- A register write keeps the fuses. -/
theorem execRegisterWrite_notFuses {d t w v} : Result.All (Only notFuses s0) (execRegisterWrite d t w v s) := by
  cases t with
  | bar0 off => exact State.bar0Write_notFuses h
  | bar2 off =>
    refine Result.all_ite ?_ (Result.all_next h)
    apply finish_notFuses; apply State.bar2Write_only h <;> exact mem_notFuses nofun
  | bar4 off =>
    refine Result.all_ite ?_ (Result.all_next h)
    apply finish_notFuses; apply State.bar4Write_only h <;> exact mem_notFuses nofun
  | sriov en n => exact Result.all_ite (Result.all_next h) (finish_notFuses (h.dev (mem_notFuses nofun)))
  | msixControl en fm =>
    refine Result.all_ite ?_ (Result.all_next h)
    apply finish_notFuses; apply State.msixRequest_only h <;> exact mem_notFuses nofun

end registerWrite

end Sys2Proof.Machine

namespace Sys2Proof.Machine

/-! ### Fuses are only blown, never restored -/

/-- OTP b can follow OTP a as far as fuses go: counters do not fall, used slots stay used, a kill stays (R47, R467). -/
structure Otp.Grows (a b : Otp) : Prop where
  rollback : ∀ c : Fin 7, a.rollback[c] ≤ b.rollback[c]
  slots : ∀ j : Fin 8, a.slots[j].used = true → b.slots[j].used = true
  killed : a.dusKilled = true → b.dusKilled = true

theorem Otp.Grows.of_eq {a b : Otp} (h : b = a) : a.Grows b := by
  subst h
  exact ⟨fun _ => le_rfl, fun _ => id, id⟩

/-- The owner slot i takes a value that is used. -/
theorem Otp.Grows.slot (a : Otp) (i : Fin 8) (x : OwnerSlot) (l : Lifecycle) (h : a.slots[i].used = true → x.used = true) :
    a.Grows { a with slots := a.slots.set i x, life := l } := by
  refine ⟨fun _ => le_rfl, fun j hj => ?_, id⟩
  by_cases hij : i = j
  · subst hij
    simpa using h hj
  · have hv : i.val ≠ j.val := fun c => hij (Fin.ext c)
    simpa [Vector.getElem_set, hv] using hj

theorem Otp.Grows.kill (a : Otp) (l : Lifecycle) : a.Grows { a with dusKilled := true, life := l } :=
  ⟨fun _ => le_rfl, fun _ => id, fun _ => rfl⟩

/-- A rollback counter takes a higher value. -/
theorem Otp.Grows.raise (a : Otp) (i : Fin 7) (f : Nat) (h : a.rollback[i] < f) : a.Grows { a with rollback := a.rollback.set i f } := by
  refine ⟨fun c => ?_, fun _ => id, id⟩
  by_cases hic : i = c
  · subst hic
    simpa using h.le
  · have hv : i.val ≠ c.val := fun e => hic (Fin.ext e)
    simp [hv]

/-! ### What the lifecycle commands and a confirmation write -/

@[simp] theorem State.setLife_otp (s : State) (l : Lifecycle) : (s.setLife l).belay.otp = { s.belay.otp with life := l } := by
  simp only [State.setLife, State.record_belay, State.setOtp]

theorem State.ownerErase_otp (s : State) : s.ownerErase.belay.otp = s.belay.otp := by
  have h : Only notFuses s s.ownerErase := by
    apply State.ownerErase_only (Only.refl s) <;> exact mem_notFuses nofun
  exact h.otp (by decide)

/-- OWNER_ENROL leaves the fuses, or is D0's on an unowned device and puts an owner into a slot (R47). -/
theorem State.ownerEnrolOp_otp (s : State) (x : Desc) (key : List Byte) (o : Op) :
    (s.ownerEnrolOp x key o).belay.otp = s.belay.otp ∨ (o.dom = 0 ∧ s.belay.otp.life = .unowned ∧ ∃ (i : Fin 8) (slot : OwnerSlot), slot.used = true ∧
      (s.ownerEnrolOp x key o).belay.otp = { s.belay.otp with slots := s.belay.otp.slots.set i slot, life := .owned }) := by
  unfold State.ownerEnrolOp
  split
  · exact .inl (by simp)
  split
  · exact .inl (by simp)
  split
  · exact .inl (by simp)
  split
  · exact .inl (by simp)
  split
  · exact .inl (by simp)
  next hdom hlife _ _ i _ =>
    exact .inr ⟨not_not.1 hdom, not_not.1 hlife, i, { used := true, hash := sha384 (slice key 0 96), seed := (Config.drbg s.free).setWidth 256 }, rfl,
      by simp [State.setOtp, State.draw]⟩

/-- A signed command leaves the fuses, or is D0's on an owned device and has its effect (R47). -/
theorem State.signedOp_otp (s : State) (x : Desc) (sig : List Byte) (o : Op) (eff : State → State) :
    (s.signedOp x sig o eff).belay.otp = s.belay.otp ∨ (o.dom = 0 ∧ s.belay.otp.life = .owned ∧
      (s.signedOp x sig o eff).belay.otp = (eff s.spendChallenge).belay.otp) := by
  unfold State.signedOp
  split
  · exact .inl (by simp)
  split
  · exact .inl (by simp)
  split
  · exact .inl (by simp)
  split
  · exact .inl (by simp)
  next hdom hlife _ =>
    dsimp only
    split
    · exact .inr ⟨not_not.1 hdom, not_not.1 hlife, by simp⟩
    · exact .inl (by simp [State.spendChallenge])

@[simp] theorem State.killDus_otp (s : State) (l : Lifecycle) :
    (s.killDus l).belay.otp = { s.belay.otp with dusKilled := true, life := l } := by
  simp [State.killDus, State.setOtp, State.ownerErase_otp]

/-- RETIRE leaves the fuses, or is D0's on a device that is OWNED or UNOWNED, and retires it (R47). -/
theorem State.retireOp_otp (s : State) (x : Desc) (sig : List Byte) (o : Op) :
    (s.retireOp x sig o).belay.otp = s.belay.otp ∨ (o.dom = 0 ∧ (s.belay.otp.life = .owned ∨ s.belay.otp.life = .unowned) ∧
      (s.retireOp x sig o).belay.otp = { s.belay.otp with dusKilled := true, life := .retired }) := by
  unfold State.retireOp
  split
  next hlife =>
    split
    · exact .inl (by simp)
    split
    · exact .inl (by simp)
    next hdom => exact .inr ⟨not_not.1 hdom, .inr hlife, by simp⟩
  next =>
    rcases State.signedOp_otp s x sig o (fun s => s.killDus .retired) with h | ⟨hdom, hlife, h⟩
    · exact .inl h
    · exact .inr ⟨hdom, .inl hlife, by rw [h, State.killDus_otp]; rfl⟩

@[simp] theorem State.setComp_belay (s : State) (c : Fin 7) (x : Comp) : (s.setComp c x).belay = s.belay := by
  unfold State.setComp
  dsimp only
  split <;> rfl

/-- A confirmation leaves the fuses, or raises one rollback counter (R467). -/
theorem State.confirm_otp (s : State) (c : Fin 7) :
    (s.confirm c).belay.otp = s.belay.otp ∨ ∃ (i : Fin 7) (f : Nat), s.belay.otp.rollback[i] < f ∧
      (s.confirm c).belay.otp = { s.belay.otp with rollback := s.belay.otp.rollback.set i f } := by
  unfold State.confirm
  extract_lets x u f
  have hu : u.belay = s.belay := State.setComp_belay _ _ _
  split
  · exact .inl (by rw [hu])
  next i _ =>
    split
    next hlt =>
      refine .inr ⟨i, f, hu ▸ hlt, ?_⟩
      rw [State.record_belay]
      change { u.belay.otp with rollback := u.belay.otp.rollback.set i f } = { s.belay.otp with rollback := s.belay.otp.rollback.set i f }
      rw [hu]
    · exact .inl (by rw [hu])

/-! ### Each of the six commands -/

/-- How the lifecycle can change with command i (R47). -/
def LifeArrow (i : Instr) (a b : Lifecycle) : Prop :=
  b = a ∨ ((∃ n x key, i = .ownerEnrol 0 n x key) ∧ a = .unowned ∧ b = .owned) ∨
    ((∃ n x sig, i = .ownerRelease 0 n x sig) ∧ a = .owned ∧ b = .unowned) ∨
    ((∃ n x sig, i = .retire 0 n x sig) ∧ (a = .owned ∨ a = .unowned) ∧ b = .retired) ∨
    ((∃ n x sig, i = .rmaEnter 0 n x sig) ∧ a = .owned ∧ b = .rma)

/-- The fuses after command i: along an arrow, and growing. -/
def FusesFollow (i : Instr) (s t : State) : Prop := LifeArrow i s.belay.otp.life t.belay.otp.life ∧ s.belay.otp.Grows t.belay.otp

theorem FusesFollow.of_eq {i : Instr} {s t : State} (h : t.belay.otp = s.belay.otp) : FusesFollow i s t := ⟨.inl (by rw [h]), .of_eq h⟩

/-- A command whose named parts leave out the fuses. -/
theorem FusesFollow.of_touches {i : Instr} {s t : State} (he : exec i s = .next t) (h : (touches i).elem .otp = false) : FusesFollow i s t :=
  .of_eq ((Result.all_iff.1 (exec_only i s) t he).otp (fun hm => by rw [List.elem_eq_true_of_mem hm] at h; cases h))

theorem FusesFollow.of_notFuses {i : Instr} {s t : State} (he : exec i s = .next t) (h : Result.All (Only notFuses s) (exec i s)) : FusesFollow i s t :=
  .of_eq ((Result.all_iff.1 h t he).otp (by decide))

/-- A command of a ring, by what its operation does to the fuses at the state after the fetch. -/
theorem FusesFollow.of_command {i : Instr} {s t : State} {d : Dom} {n : RingNo} {x : Desc} {f : State → Op → State} {im : Bool}
    (h : finish (s.command d n x f im) = .next t)
    (hf : ∀ u v, u.belay = s.belay → v.belay.otp = (f u (s.opOf d n x)).belay.otp → FusesFollow i s v) : FusesFollow i s t := by
  have ht := belay_of_finish h
  rcases s.command_belay d n x f im with hc | hc
  · exact .of_eq (by rw [ht, hc])
  · exact hf (s.fetch d n) t (State.fetch_belay _ _ _ _) (by rw [ht, hc])

theorem ownerEnrol_fuses {s t : State} {d : Dom} {n : RingNo} {x : Desc} {key : List Byte} (he : exec (.ownerEnrol d n x key) s = .next t) :
    FusesFollow (.ownerEnrol d n x key) s t := by
  change execOwnerEnrol d n x key s = _ at he
  unfold execOwnerEnrol at he
  split at he
  · exact .of_eq (by rw [Host.Outcome.next.inj he])
  split at he
  · cases he
  refine .of_command he fun u v hu hv => ?_
  rcases u.ownerEnrolOp_otp x key (s.opOf d n x) with h | ⟨hdom, hlife, i, slot, hslot, h⟩
  · exact .of_eq (by rw [hv, h, hu])
  · rw [hu] at hlife h
    rw [h] at hv
    refine ⟨.inr (.inl ⟨⟨n, x, key, by rw [show d = 0 from hdom]⟩, hlife, by rw [hv]⟩), ?_⟩
    rw [hv]
    exact .slot _ _ _ _ fun _ => hslot

theorem ownerRelease_fuses {s t : State} {d : Dom} {n : RingNo} {x : Desc} {sig : List Byte} (he : exec (.ownerRelease d n x sig) s = .next t) :
    FusesFollow (.ownerRelease d n x sig) s t := by
  change execOwnerRelease d n x sig s = _ at he
  unfold execOwnerRelease at he
  split at he
  · exact .of_eq (by rw [Host.Outcome.next.inj he])
  split at he
  · cases he
  refine .of_command he fun u v hu hv => ?_
  rcases u.signedOp_otp x sig (s.opOf d n x) _ with h | ⟨hdom, hlife, h⟩
  · exact .of_eq (by rw [hv, h, hu])
  · rw [h] at hv
    simp only [State.setLife_otp, State.setOtp, State.ownerErase_otp] at hv
    rw [hu] at hlife
    rw [show u.spendChallenge.belay.otp = s.belay.otp by simp [State.spendChallenge, hu]] at hv
    refine ⟨.inr (.inr (.inl ⟨⟨n, x, sig, by rw [show d = 0 from hdom]⟩, hlife, by rw [hv]⟩)), ?_⟩
    rw [hv]
    exact .slot _ _ _ _ id

theorem retire_fuses {s t : State} {d : Dom} {n : RingNo} {x : Desc} {sig : List Byte} (he : exec (.retire d n x sig) s = .next t) :
    FusesFollow (.retire d n x sig) s t := by
  change execRetire d n x sig s = _ at he
  unfold execRetire at he
  split at he
  · exact .of_eq (by rw [Host.Outcome.next.inj he])
  split at he
  · cases he
  refine .of_command he fun u v hu hv => ?_
  rcases u.retireOp_otp x sig (s.opOf d n x) with h | ⟨hdom, hlife, h⟩
  · exact .of_eq (by rw [hv, h, hu])
  · rw [hu] at hlife h
    rw [h] at hv
    refine ⟨.inr (.inr (.inr (.inl ⟨⟨n, x, sig, by rw [show d = 0 from hdom]⟩, hlife, by rw [hv]⟩))), ?_⟩
    rw [hv]
    exact .kill _ _

theorem rmaEnter_fuses {s t : State} {d : Dom} {n : RingNo} {x : Desc} {sig : List Byte} (he : exec (.rmaEnter d n x sig) s = .next t) :
    FusesFollow (.rmaEnter d n x sig) s t := by
  change execRmaEnter d n x sig s = _ at he
  unfold execRmaEnter at he
  split at he
  · exact .of_eq (by rw [Host.Outcome.next.inj he])
  split at he
  · cases he
  refine .of_command he fun u v hu hv => ?_
  rcases u.signedOp_otp x sig (s.opOf d n x) _ with h | ⟨hdom, hlife, h⟩
  · exact .of_eq (by rw [hv, h, hu])
  · rw [h, State.killDus_otp, show u.spendChallenge.belay.otp = s.belay.otp by simp [State.spendChallenge, hu]] at hv
    rw [hu] at hlife
    refine ⟨.inr (.inr (.inr (.inr ⟨⟨n, x, sig, by rw [show d = 0 from hdom]⟩, hlife, by rw [hv]⟩))), ?_⟩
    rw [hv]
    exact .kill _ _

theorem imgConfirm_fuses {s t : State} {c : Fin 7} (he : exec (.imgConfirm c) s = .next t) : FusesFollow (.imgConfirm c) s t := by
  change execImgConfirm c s = _ at he
  unfold execImgConfirm at he
  split at he
  · have ht := belay_of_finish he
    have hw : (s.waitFrom (s.runsSince c) (sec 10)).belay.otp = s.belay.otp := by
      have h : Only notFuses s (s.waitFrom (s.runsSince c) (sec 10)) := by
        apply State.waitFrom_only (Only.refl s) <;> exact mem_notFuses nofun
      exact h.otp (by decide)
    rcases State.confirm_otp (s.waitFrom (s.runsSince c) (sec 10)) c with h | ⟨i, f, hlt, h⟩
    · exact .of_eq (by rw [ht, h, hw])
    · rw [hw] at h hlt
      refine ⟨.inl (by rw [ht, h]), ?_⟩
      rw [ht, h]
      exact .raise _ _ _ hlt
  · exact .of_eq (by rw [Host.Outcome.next.inj he])

theorem exec_fuses {i : Instr} {s t : State} (he : exec i s = .next t) : FusesFollow i s t := by
  cases i with
  | registerWrite => exact .of_notFuses he (execRegisterWrite_notFuses (Only.refl s))
  | warmReset => exact .of_notFuses he (execWarmReset_notFuses (Only.refl s))
  | powerOnReset => exact .of_eq (by rw [← Host.Outcome.next.inj he]; rfl)
  | ownerEnrol => exact ownerEnrol_fuses he
  | ownerRelease => exact ownerRelease_fuses he
  | retire => exact retire_fuses he
  | rmaEnter => exact rmaEnter_fuses he
  | imgConfirm => exact imgConfirm_fuses he
  | _ => exact .of_touches he rfl

/-- Settles O7: the fuses are a part of their own, which the frame of every command but eight leaves out; of those eight, a register write and the two
resets keep them too, and each of the others is one arrow, or the rise of one counter. -/
theorem lifecycleAndFuses : Obligations.LifecycleAndFuses := by
  unfold Obligations.LifecycleAndFuses
  intro i s t he
  obtain ⟨hlife, hgrows⟩ := exec_fuses he
  exact ⟨hlife, hgrows.rollback, hgrows.slots, hgrows.killed⟩

end Sys2Proof.Machine

namespace Sys2Proof.Machine

/-! ### A command that is answered at once -/

section ready
variable {s : State} {d : Dom} {n : RingNo} {x : Desc}

/-- A descriptor that is ready is fetched, and its operation acts (R77). -/
theorem RingReady.command_eq {ty : Nat} (h : RingReady ty s d n x) (f : State → Op → State) (im : Bool) :
    s.command d n x f im = f (s.fetch d n) (s.opOf d n x) := by
  unfold State.command
  dsimp only
  rw [if_neg (by rw [h.fetch]; decide), if_neg (by rw [h.path]; simp)]
  rfl

theorem State.fetch_keeps' (s : State) (d : Dom) (n : RingNo) (op : Bool) : Keeps false s (s.fetch d n op) := State.fetch_keeps (Keeps.refl s)

/-- What a completion needs is not touched by an operation that leaves registers, entries, device, function and rings. -/
theorem SameCq.of_eq {u v : State} (g : SameCq s u d n) (regs : v.regs = u.regs) (entries : v.belay.entries = u.belay.entries) (dev : v.dev = u.dev)
    (func : v.func d = u.func d) (rings : v.rings = u.rings) : SameCq s v d n :=
  ⟨fun i => by rw [← g.regs i]; simp only [State.ringCfg, State.reg, regs], by rw [entries, g.belay], by rw [dev, g.dev], by rw [func, g.func],
    by rw [← g.ring]; simp only [State.ring, rings]⟩

theorem State.inWindow_of_eq {u v : State} (h : v.dev = u.dev) (g : v.belay = u.belay) (e : Dom) (a k : Nat) (rd wr : Bool) :
    v.inWindow e a k rd wr = u.inWindow e a k rd wr := by
  simp only [State.inWindow, h, g]

@[simp] theorem State.inWindow_fetch (op : Bool) (e : Dom) (a k : Nat) (rd wr : Bool) :
    (s.fetch d n op).inWindow e a k rd wr = s.inWindow e a k rd wr :=
  State.inWindow_of_eq (by simp) (by simp) e a k rd wr

/-- A write of a byte or more to host memory leaves the device, where the domain may write there (R21, R57). -/
theorem State.hostWrite_sends {e : Dom} {a : Nat} {bs : List Byte} (hm : s.mute e = false) (hb : bs ≠ []) : Sends s (s.hostWrite e a bs) (.host e a bs) := by
  unfold State.hostWrite
  rw [if_neg (by simp [hm, hb])]
  exact ⟨[_], rfl, List.mem_singleton_self _⟩

theorem State.hostWrite_eq (s : State) (e : Dom) (a : Nat) (bs : List Byte) : ∃ o, s.hostWrite e a bs = { s with out := o } := by
  unfold State.hostWrite
  split
  · exact ⟨_, rfl⟩
  · exact ⟨_, rfl⟩

end ready

section hostWrite
variable (s : State) (e : Dom) (a : Nat) (bs : List Byte)

@[simp] theorem State.hostWrite_belay : (s.hostWrite e a bs).belay = s.belay := by obtain ⟨o, h⟩ := s.hostWrite_eq e a bs; rw [h]
@[simp] theorem State.hostWrite_regs : (s.hostWrite e a bs).regs = s.regs := by obtain ⟨o, h⟩ := s.hostWrite_eq e a bs; rw [h]
@[simp] theorem State.hostWrite_ports : (s.hostWrite e a bs).ports = s.ports := by obtain ⟨o, h⟩ := s.hostWrite_eq e a bs; rw [h]
@[simp] theorem State.hostWrite_log : (s.hostWrite e a bs).log = s.log := by obtain ⟨o, h⟩ := s.hostWrite_eq e a bs; rw [h]
@[simp] theorem State.hostWrite_dev : (s.hostWrite e a bs).dev = s.dev := by obtain ⟨o, h⟩ := s.hostWrite_eq e a bs; rw [h]
@[simp] theorem State.hostWrite_rings : (s.hostWrite e a bs).rings = s.rings := by obtain ⟨o, h⟩ := s.hostWrite_eq e a bs; rw [h]
@[simp] theorem State.hostWrite_func (i : Dom) : (s.hostWrite e a bs).func i = s.func i := by obtain ⟨o, h⟩ := s.hostWrite_eq e a bs; rw [h]; rfl

theorem SameCq.hostWrite {s u : State} {d : Dom} {n : RingNo} (g : SameCq s u d n) (e : Dom) (a : Nat) (bs : List Byte) : SameCq s (u.hostWrite e a bs) d n :=
  g.of_eq (by simp) (by simp) (by simp) (by simp) (by simp)

end hostWrite

theorem leBytes_length (n v : Nat) : (leBytes n v).length = n := by
  induction n generalizing v with
  | zero => rfl
  | succ n ih => simp [leBytes, ih]

theorem beBytes_ne_nil {n : Nat} (hn : n ≠ 0) (v : Nat) : beBytes n v ≠ [] := by
  intro h
  have hl := congrArg List.length h
  rw [beBytes, List.length_reverse, leBytes_length] at hl
  exact hn hl

/-- Registers that are the same but for the storm guard's words after the end of a command. -/
theorem SameRegs.of_regs {s u : State} (h : u.regs = s.regs) : SameRegs s u.noteMay.announce := by
  intro r
  have := u.noteMay.announce_kept r
  rwa [State.noteMay_reg, State.reg, h] at this

end Sys2Proof.Machine

namespace Sys2Proof.Machine

/-! ### The course of a ready command: fetch, effect, completion, end -/

theorem Part.log_same (s t : State) : Part.log.same s t ↔ t.log.recs = s.log.recs ∧ t.log.next = s.log.next ∧ t.log.sinceClear = s.log.sinceClear ∧
    t.log.fullLost = s.log.fullLost ∧ t.log.fullSeen = s.log.fullSeen ∧ t.log.anchor = s.log.anchor ∧ t.log.anchorGone = s.log.anchorGone := Iff.rfl

/-- The log after the end of a command that has left it alone. -/
theorem Logged.of_log {s u : State} {l : List (DWord × LogRec)} (h : u.log = { s.log with intake := s.log.intake ++ l }) :
    Logged s u.noteMay.announce l := by
  obtain ⟨hsame, hqueued⟩ := u.noteMay.announce_logged
  rw [Part.log_same, State.noteMay_log, h] at hsame
  rw [State.noteMay_log, h] at hqueued
  exact ⟨hsame, by rwa [List.append_nil] at hqueued⟩

/-- t is what a ready command leaves, where its effect has led to u and its completion carries a status and INFO0. -/
structure Concluded (s u t : State) (d : Dom) (n : RingNo) (x : Desc) (status : Byte) (i0 : Word) : Prop where
  answered : Answered s t d n x status i0
  sends : ∀ o, Sends s u o → Sends s t o
  belay : t.belay = u.belay
  ports : t.ports = u.ports
  tarn : t.tarn = u.tarn
  flt : t.flt = u.flt
  objs : t.objs = u.objs
  sameRegs : u.regs = s.regs → SameRegs s t
  logged : u.log = s.log → Logged s t []

theorem RingReady.concluded {s u : State} {d : Dom} {n : RingNo} {x : Desc} {ty : Nat} (h : RingReady ty s d n x) {f : State → Op → State} {im : Bool}
    {status : Byte} {i0 : Word} {i1 : Half} {st : Option (BitVec 36)} {port : Byte}
    (hf : f (s.fetch d n) (s.opOf d n x) = u.complete (s.opOf d n x) status i0 i1 st port) (hk : Keeps false s u) (g : SameCq s u d n) :
    Concluded s u (s.command d n x f im).noteMay.announce d n x status i0 := by
  have hc : s.command d n x f im = u.complete (s.opOf d n x) status i0 i1 st port := by rw [h.command_eq, hf]
  have hend : Keeps false u (s.command d n x f im).noteMay.announce := by
    rw [hc]
    exact State.announce_keeps (State.noteMay_keeps (State.complete_keeps (Keeps.refl u)))
  refine ⟨h.answered hk g hf, fun o ho => ho.later hend, ?_, ?_, ?_, ?_, ?_, fun hr => ?_, fun hl => ?_⟩
  case refine_6 => exact SameRegs.of_regs (by rw [hc, State.complete_regs, hr])
  case refine_7 => exact Logged.of_log (by rw [hc, State.complete_log, hl, List.append_nil])
  all_goals simp [hc]

theorem RingReady.does {s u : State} {d : Dom} {n : RingNo} {x : Desc} {ty : Nat} (h : RingReady ty s d n x) {i : Instr} {f : State → Op → State} {im : Bool}
    {status : Byte} {i0 : Word} {i1 : Half} {st : Option (BitVec 36)} {port : Byte} {p : State → Prop}
    (he : exec i s = finish (s.command d n x f im))
    (hf : f (s.fetch d n) (s.opOf d n x) = u.complete (s.opOf d n x) status i0 i1 st port) (hk : Keeps false s u) (g : SameCq s u d n)
    (hp : ∀ t, Concluded s u t d n x status i0 → p t) : Does i s p :=
  ⟨_, he, hp _ (h.concluded hf hk g)⟩

end Sys2Proof.Machine

namespace Sys2Proof.Machine

/-! ### CHALLENGE, its expiry, and OWNER_ENROL -/

/-- Belay is its four parts. -/
theorem Only.belay_eq {ps : List Part} {s t : State} (h : Only ps s t) (h1 : Part.partition ∉ ps) (h2 : Part.keys ∉ ps) (h3 : Part.otp ∉ ps)
    (h4 : Part.trust ∉ ps) : t.belay = s.belay := by
  obtain ⟨he, hw, hr⟩ := h.2 .partition h1
  have hk := h.2 .keys h2
  have ho := h.2 .otp h3
  obtain ⟨ha, hres, hc, hj, hd, hcl⟩ := h.2 .trust h4
  cases ht : t.belay
  cases hs : s.belay
  simp_all [Part.same]

/-- Time that passes changes nothing of Belay. -/
theorem State.advance_belay (s : State) (r : DWord) : (s.advance r).belay = s.belay := by
  have h : Only [.counts, .free, .funcs, .halves, .objs, .out, .ports, .regs .fn, .rings, .tmu] s (s.advance r) := by
    apply State.advance_only (Only.refl s) <;> decide
  exact h.belay_eq (by decide) (by decide) (by decide) (by decide)

/-- A challenge is drawn and kept with the present instant (R47). -/
def State.drawChallenge (s : State) : State :=
  { s.draw with belay := { s.belay with challenge := some ((Config.drbg s.free).setWidth 256, s.raw) } }

theorem State.challengeOp_eq {s : State} {x : Desc} {o : Op} (hres : reservedZero x [fAddr] = true) (hdom : o.dom = 0)
    (hwin : s.inWindow 0 (daddr x).toNat 32 false true = true) :
    s.challengeOp x o = (s.drawChallenge.hostWrite 0 (daddr x).toNat (beBytes 32 ((Config.drbg s.free).setWidth 256 : BitVec 256).toNat)).complete o 0x00 := by
  unfold State.challengeOp
  rw [if_neg (by simp [hres]), if_neg (by simp [hdom]), if_neg (by simp [hdom, hwin]), hdom]
  rfl

theorem State.drawChallenge_keeps {s0 s : State} (h : Keeps false s0 s) : Keeps false s0 s.drawChallenge :=
  Keeps.same (State.draw_keeps h) ⟨rfl, rfl⟩ rfl rfl rfl rfl rfl rfl rfl rfl rfl rfl

theorem challenge_does {s : State} {n : RingNo} {x : Desc} (h : CmdReady s 0 n x) (hres : reservedZero x [fAddr] = true)
    (hwin : s.inWindow 0 (daddr x).toNat 32 false true = true) :
    Does (.challenge 0 n x) s fun t => Answered s t 0 n x 0x00 0 ∧ (∃ c, t.belay.challenge = some (c, s.raw) ∧
        Sends s t (.host 0 (daddr x).toNat (beBytes 32 c.toNat))) ∧ t.belay.otp = s.belay.otp ∧ t.belay.keys = s.belay.keys ∧ SameRegs s t := by
  have he : exec (.challenge 0 n x) s = finish (s.command 0 n x fun s op => s.challengeOp x op) := by
    change execChallenge 0 n x s = _
    rw [execChallenge, if_pos h.on]
  have hf := State.challengeOp_eq (s := s.fetch 0 n) (o := s.opOf 0 n x) hres rfl (by rwa [State.inWindow_fetch])
  have hk := State.drawChallenge_keeps (s.fetch_keeps' 0 n true)
  have hg : SameCq s (s.fetch 0 n).drawChallenge 0 n := (SameCq.fetch h).of_eq rfl rfl rfl rfl rfl
  refine h.does he hf (State.hostWrite_keeps hk) (hg.hostWrite _ _ _) fun t ht => ?_
  have hb : t.belay = (s.fetch 0 n).drawChallenge.belay := by rw [ht.belay, State.hostWrite_belay]
  refine ⟨ht.answered, ⟨(Config.drbg (s.fetch 0 n).free).setWidth 256, ?_, ?_⟩, ?_, ?_, ht.sameRegs ?_⟩
  · rw [hb, State.raw, ← s.fetch_tmu 0 n true]
    rfl
  · have hm : (s.fetch 0 n).drawChallenge.mute 0 = false := by rw [hg.mute, h.mute]
    exact ht.sends _ ((State.hostWrite_sends hm (beBytes_ne_nil (by decide) _)).of_mid hk)
  · rw [hb, State.drawChallenge, State.fetch_belay]
  · rw [hb, State.drawChallenge, State.fetch_belay]
  · rw [State.hostWrite_regs]
    exact s.fetch_regs 0 n true

theorem challengeExpiry_does {s u : State} {c : BitVec 256} {r : DWord} (h : s.belay.challenge = some (c, r)) (hu : u = s.advance (after r (sec 60))) :
    Does .challengeExpiry s fun t => t.belay = { s.belay with challenge := none } ∧ SameRegs u t ∧ t.ports = u.ports ∧ t.raw = u.raw := by
  subst hu
  have he : exec .challengeExpiry s = finish (s.advance (after r (sec 60))).spendChallenge := by
    change execChallengeExpiry s = _
    rw [execChallengeExpiry, h]
  refine ⟨_, he, ?_, SameRegs.of_regs rfl, ?_, ?_⟩
  · rw [State.announce_belay, State.noteMay_belay, State.spendChallenge, State.advance_belay]
  · rw [State.announce_ports, State.noteMay_ports]; rfl
  · rw [State.announce_raw, State.noteMay_raw]; rfl

/-- The first number of those below n that satisfies a test. -/
theorem find_finRange_eq {n : Nat} {p : Fin n → Bool} {i : Fin n} (hi : p i = true) (hlow : ∀ j, j < i → p j = false) :
    (List.finRange n).find? p = some i := by
  rw [List.find?_eq_some_iff_getElem]
  refine ⟨hi, i.val, by simp, by simp, fun j hj => ?_⟩
  simp [hlow ⟨j, hj.trans i.isLt⟩ hj]

/-- The hash of a key goes into a free owner slot, and the device is OWNED (R47). -/
def State.enrol (s : State) (i : Fin 8) (key : List Byte) : State :=
  (s.draw.setOtp { s.belay.otp with
    slots := s.belay.otp.slots.set i { used := true, hash := sha384 (slice key 0 96), seed := (Config.drbg s.free).setWidth 256 } }).setLife .owned

theorem State.ownerEnrolOp_eq {s : State} {x : Desc} {key : List Byte} {o : Op} {i : Fin 8} (hres : reservedZero x [fAddr] = true) (hdom : o.dom = 0)
    (hlife : s.belay.otp.life = .unowned) (hwin : s.inWindow 0 (daddr x).toNat 96 true false = true) (hfree : (s.belay.otp.slots[i]).used = false)
    (hlow : ∀ j : Fin 8, j < i → (s.belay.otp.slots[j]).used = true) :
    s.ownerEnrolOp x key o = (s.enrol i key).complete o 0x00 (BitVec.ofNat 32 i.val) := by
  have hfind : (List.finRange 8).find? (fun i => !(s.belay.otp.slots[i]).used) = some i :=
    find_finRange_eq (by rw [hfree]; rfl) fun j hj => by rw [hlow j hj]; rfl
  unfold State.ownerEnrolOp
  rw [if_neg (by simp [hres]), if_neg (by simp [hdom]), if_neg (by simp [hlife]), if_neg (by simp [hdom, hwin]), hfind]
  rfl

theorem slice_all {bs : List Byte} {n : Nat} (h : bs.length = n) : slice bs 0 n = bs := by
  simp [slice, ← h]

theorem State.enrol_otp (s : State) (i : Fin 8) (key : List Byte) : (s.enrol i key).belay.otp = { s.belay.otp with
    life := .owned,
    slots := s.belay.otp.slots.set i { used := true, hash := sha384 (slice key 0 96), seed := (Config.drbg s.free).setWidth 256 } } := by
  rw [State.enrol, State.setLife_otp]
  rfl

theorem State.enrol_keeps {s0 s : State} (h : Keeps false s0 s) (i : Fin 8) (key : List Byte) : Keeps false s0 (s.enrol i key) :=
  State.setLife_keeps (State.setOtp_keeps (State.draw_keeps h) nofun)

theorem State.setLife_eq (s : State) (l : Lifecycle) :
    ∃ g, s.setLife l = { s with belay := { s.belay with otp := { s.belay.otp with life := l } }, log := g } := by
  unfold State.setLife State.record
  dsimp only
  split
  · exact ⟨_, rfl⟩
  · split
    · exact ⟨_, rfl⟩
    · exact ⟨_, rfl⟩

/-- An enrolment changes the fuses, the draws and the intake of the log. -/
theorem State.enrol_eq (s : State) (i : Fin 8) (key : List Byte) :
    ∃ o g f, s.enrol i key = { s with belay := { s.belay with otp := o }, log := g, free := f } := by
  obtain ⟨g, hg⟩ := State.setLife_eq (s.draw.setOtp { s.belay.otp with
    slots := s.belay.otp.slots.set i { used := true, hash := sha384 (slice key 0 96), seed := (Config.drbg s.free).setWidth 256 } }) .owned
  exact ⟨_, g, _, hg⟩

theorem ownerEnrol_does {s : State} {n : RingNo} {x : Desc} {key : List Byte} {i : Fin 8} (h : CmdReady s 0 n x) (hres : reservedZero x [fAddr] = true)
    (hlife : s.belay.otp.life = .unowned) (hlen : key.length = 96) (hwin : s.inWindow 0 (daddr x).toNat 96 true false = true)
    (hfree : (s.belay.otp.slots[i]).used = false) (hlow : ∀ j : Fin 8, j < i → (s.belay.otp.slots[j]).used = true) :
    Does (.ownerEnrol 0 n x key) s fun t => Answered s t 0 n x 0x00 (BitVec.ofNat 32 i.val) ∧ t.belay.otp.life = .owned ∧ (t.belay.otp.slots[i]).used = true ∧
      (t.belay.otp.slots[i]).revoked = false ∧ (t.belay.otp.slots[i]).hash = sha384 key ∧ (∀ j : Fin 8, j ≠ i → t.belay.otp.slots[j] = s.belay.otp.slots[j]) ∧
      t.belay.keys = s.belay.keys ∧ SameRegs s t ∧ t.ports = s.ports := by
  have he : exec (.ownerEnrol 0 n x key) s = finish (s.command 0 n x fun s op => s.ownerEnrolOp x key op) := by
    change execOwnerEnrol 0 n x key s = _
    rw [execOwnerEnrol, if_neg (by simp [h.on]), if_neg (by simp [hlen])]
  have hfb := s.fetch_belay 0 n true
  have hf := State.ownerEnrolOp_eq (s := s.fetch 0 n) (o := s.opOf 0 n x) (key := key) (i := i) hres rfl (by rw [hfb, hlife]) (by rwa [State.inWindow_fetch])
    (by rw [hfb, hfree]) (by rwa [hfb])
  have hk := State.enrol_keeps (s.fetch_keeps' 0 n true) i key
  obtain ⟨o, g, f, hu⟩ := State.enrol_eq (s.fetch 0 n) i key
  have hcq : SameCq s ((s.fetch 0 n).enrol i key) 0 n := by
    rw [hu]
    exact (SameCq.fetch h).of_eq rfl rfl rfl rfl rfl
  refine h.does he hf hk hcq fun t ht => ?_
  have ho : t.belay.otp = _ := (congrArg Belay.otp ht.belay).trans (State.enrol_otp _ _ _)
  rw [hfb] at ho
  refine ⟨ht.answered, by rw [ho], by simp [ho], by simp [ho], by simp [ho, slice_all hlen], fun j hj => ?_, ?_, ht.sameRegs ?_, ?_⟩
  · have hv : i.val ≠ j.val := fun c => hj (Fin.ext c.symm)
    simp [ho, hv]
  · rw [ht.belay, hu, hfb]
  · rw [hu]
    exact s.fetch_regs 0 n true
  · rw [ht.ports, hu]
    exact s.fetch_ports 0 n true

/-- Settles O24: each command is fetched and answered with the status 00h after its one effect, and the expiry is the passage of time and a spent
challenge. -/
theorem challengeAndEnrol : Obligations.ChallengeAndEnrol := by
  unfold Obligations.ChallengeAndEnrol
  refine ⟨fun s n x h hres hwin => challenge_does h hres hwin, fun s u c r h hu => challengeExpiry_does h hu, ?_⟩
  exact fun s n x key i h hres hlife hlen hwin hfree hlow => ownerEnrol_does h hres hlife hlen hwin hfree hlow

end Sys2Proof.Machine

namespace Sys2Proof.Machine

/-! ### What a link that goes down leaves alone: trust, Tarn, filters and objects

The parts of `Only` speak of Tarn, the filter store and the objects entry by entry. The erasures of R52 leave these tables empty, so the operations that
run after an erasure are followed here by the tables themselves. -/

/-- The belay and the tables that R52 erases. -/
def State.stores (s : State) : Belay × Tbl Byte × Tbl (BitVec 128) × Tbl Obj := (s.belay, s.tarn, s.flt, s.objs)

variable (s : State)

theorem stores_foldl {α : Type} {f : State → α → State} (hf : ∀ s a, (f s a).stores = s.stores) (l : List α) : (l.foldl f s).stores = s.stores := by
  induction l generalizing s with
  | nil => rfl
  | cons a l ih => rw [List.foldl_cons, ih, hf]

@[simp] theorem State.emit_stores (o : Output) : (s.emit o).stores = s.stores := rfl
@[simp] theorem State.setLink_stores (k : LinkId) (x : Link) : (s.setLink k x).stores = s.stores := rfl
@[simp] theorem State.setRf_stores (r : Reg) (lo n : Nat) (v : Nat) : (s.setRf r lo n v).stores = s.stores := rfl
@[simp] theorem State.raise_stores (r : Reg) (i : Nat) : (s.raise r i).stores = s.stores := rfl
@[simp] theorem State.fabEvt_stores (i : Nat) : (s.fabEvt i).stores = s.stores := rfl
@[simp] theorem State.countLink_stores (k : LinkId) (off : Nat) : (s.countLink k off).stores = s.stores := rfl
@[simp] theorem State.pushLink_stores (k : LinkId) (j : Option LinkId) (f : RlFrame) : (s.pushLink k j f).stores = s.stores := rfl
@[simp] theorem State.rlDone_stores (k : LinkId) (f : RlFrame) : (s.rlDone k f).stores = s.stores := rfl
@[simp] theorem State.allocator_stores : s.allocator.stores = s.stores := rfl

@[simp] theorem State.dropFrom_stores (j : Option LinkId) (f : RlFrame) : (s.dropFrom j f).stores = s.stores := by
  unfold State.dropFrom
  split
  · split <;> simp
  · rfl

@[simp] theorem State.wrapOnto_stores (k c : LinkId) (j : Option LinkId) (f : RlFrame) : (s.wrapOnto k c j f).stores = s.stores := by
  unfold State.wrapOnto
  split
  · simp
  · split <;> simp

@[simp] theorem State.flood_stores (j : Option LinkId) (f : RlFrame) : (s.flood j f).stores = s.stores := by
  unfold State.flood
  dsimp only
  split
  · simp
  · exact stores_foldl s (fun s k => s.pushLink_stores k j f) _

@[simp] theorem State.newTopo_stores : s.newTopo.stores = s.stores := by
  unfold State.newTopo State.sendTopo
  exact State.flood_stores _ _ _

@[simp] theorem State.fabTopo_stores : s.fabTopo.stores = s.stores := by
  refine stores_foldl (s.fabEvt 0) (fun s d => ?_) _
  split <;> simp

@[simp] theorem State.addrConflict_stores : s.addrConflict.stores = s.stores := by
  unfold State.addrConflict
  dsimp only
  split
  · rfl
  · rfl

@[simp] theorem State.nameSource_stores : s.nameSource.stores = s.stores := by
  unfold State.nameSource
  split <;> simp

theorem State.fabEvt_ite_stores (c : Prop) [Decidable c] (i : Nat) : (if c then s.fabEvt i else s).stores = s.stores := by split <;> rfl

@[simp] theorem State.fabricTime_stores : s.fabricTime.stores = s.stores := by
  unfold State.fabricTime
  split
  exact (State.fabEvt_ite_stores _ _ _).trans (State.nameSource_stores _)

@[simp] theorem State.topologyChanged_stores : s.topologyChanged.stores = s.stores := by simp [State.topologyChanged]

@[simp] theorem State.endWire_stores (k : LinkId) (cut : Bool) : (s.endWire k cut).stores = s.stores := by
  unfold State.endWire
  split
  · dsimp only
    split
    · simp
    · split <;> simp
  · rfl

@[simp] theorem State.wrapQueue_stores (k : LinkId) (up : Bool) : (s.wrapQueue k up).stores = s.stores := by
  unfold State.wrapQueue
  dsimp only
  rw [stores_foldl]
  · simp
  · intro s e
    split <;> simp

theorem State.linkDown_stores (k : LinkId) (st : LState) : (s.linkDown k st).stores = ((s.endWire k true).dropLinkKey k).stores := by
  unfold State.linkDown
  extract_lets up s1 s2 l s3 s4 s5 s6
  have h4 : s4.stores = s3.stores := by
    unfold s4
    split <;> simp
  have h6 : s6.stores = s5.stores := by
    unfold s6
    split <;> simp
  rw [State.fabEvt_stores, h6, State.wrapQueue_stores, h4]
  rfl

/-- A link that goes down gives up its key slot, and nothing else of what R52 erases changes. -/
theorem State.dropLinkKey_stores_of_no_keys {s : State} (h : s.belay.keys = []) (k : LinkId) : (s.dropLinkKey k).stores = s.stores := by
  unfold State.dropLinkKey
  split
  · show (({ s.belay with keys := Tbl.put none s.belay.keys _ none } : Belay), _) = _
    rw [h]
    show (({ s.belay with keys := [] } : Belay), _) = _
    rw [← h]
    rfl
  · rfl

theorem State.linkDown_stores_of_no_keys {s : State} (h : s.belay.keys = []) (k : LinkId) (st : LState) : (s.linkDown k st).stores = s.stores := by
  have he : (s.endWire k true).belay = s.belay := congrArg Prod.fst (s.endWire_stores k true)
  rw [State.linkDown_stores, State.dropLinkKey_stores_of_no_keys (by rw [he, h]), State.endWire_stores]

theorem State.dropKeyless_stores_of_no_keys {s : State} (h : s.belay.keys = []) : s.dropKeyless.stores = s.stores := by
  suffices ∀ l : List LinkId, ∀ t : State, t.stores = s.stores → (l.foldl (fun s k => match (s.link k).key with
      | some h => if (s.key h).isNone then s.linkDown k .aligning else s
      | none => s) t).stores = s.stores from this linkIds s rfl
  intro l
  induction l with
  | nil => exact fun _ ht => ht
  | cons k l ih =>
    intro t ht
    refine ih _ ?_
    have hb : t.belay.keys = [] := by rw [← h]; exact congrArg (fun x => x.1.keys) ht
    dsimp only
    split
    · split
      · rw [State.linkDown_stores_of_no_keys hb, ht]
      · exact ht
    · exact ht

@[simp] theorem State.record_stores (s : State) (dom : BitVec 5) (sev : BitVec 3) (sens : Bool) (src code : Byte) (a0 a1 : Word) :
    (s.record dom sev sens src code a0 a1).stores = s.stores := by simp [State.stores]

@[simp] theorem State.erasedRec_stores (s : State) (n : Nat) : (s.erasedRec n).stores = s.stores :=
  State.record_stores _ _ _ _ _ _ _ _

@[simp] theorem State.eraseArgs_stores (s : State) : s.eraseArgs.stores = s.stores := by
  unfold State.eraseArgs
  exact State.erasedRec_stores _ _

@[simp] theorem State.eraseRecords_stores (s : State) : s.eraseRecords.stores = s.stores := by
  unfold State.eraseRecords
  exact State.erasedRec_stores _ _

@[simp] theorem State.freeSpace_stores (s : State) (b i : Nat) : (s.freeSpace b i).stores = s.stores := by
  unfold State.freeSpace State.setShare
  split
  · rfl
  · split <;> rfl

@[simp] theorem State.eraseReserve_stores (s : State) : s.eraseReserve.stores = s.stores := by
  unfold State.eraseReserve
  exact stores_foldl s (f := fun s e => s.freeSpace e.1.val e.2.space) (fun s e => s.freeSpace_stores e.1.val e.2.space) s.rxq

/-- An object after the erasure: its configuration and what is under way, with an empty image. -/
def erasedObj (_ : Nat) (x : Obj) : Obj := { cfg := x.cfg, pending := x.pending, copying := x.copying, reading := x.reading, readers := x.readers }

theorem State.eraseData_stores (s : State) :
    s.eraseData.stores = ({ s.belay with keys := [] }, [], [], Tbl.mapVal {} s.objs erasedObj) := by
  have h := s.eraseReserve_stores
  unfold State.eraseData
  rw [State.dropKeyless_stores_of_no_keys rfl]
  show (({ s.eraseReserve.belay with keys := [] } : Belay), ([] : Tbl Byte), ([] : Tbl (BitVec 128)), Tbl.mapVal {} s.eraseReserve.objs erasedObj) = _
  rw [show s.eraseReserve.belay = s.belay from congrArg Prod.fst h, show s.eraseReserve.objs = s.objs from congrArg (fun x => x.2.2.2) h]

end Sys2Proof.Machine

namespace Sys2Proof.Machine

/-! ### ATTEST and LOG_READ -/

theorem State.report_fetch (s : State) (d : Dom) (n : RingNo) (a b : Nat) (own : Dom) (nonce : List Byte) :
    (s.fetch d n).report a b own nonce = s.report a b own nonce := by
  obtain ⟨o, h⟩ := s.fetch_eq d n true
  rw [h]
  rfl

theorem State.report_ne_nil (s : State) (a b : Nat) (own : Dom) (nonce : List Byte) : s.report a b own nonce ≠ [] := by
  unfold State.report
  extract_lets ms digest body
  exact List.append_ne_nil_of_right_ne_nil _ (beBytes_ne_nil (by decide) _)

theorem State.attestRecord_eq (s : State) (dom : BitVec 5) (a : Nat) (nonce : List Byte) : ∃ l, s.attestRecord dom a nonce = { s with log := l } := by
  unfold State.attestRecord State.record
  dsimp only
  split
  · exact ⟨_, rfl⟩
  · split
    · exact ⟨_, rfl⟩
    · exact ⟨_, rfl⟩

theorem State.attestOp_eq {s : State} {x : Desc} {nonce : List Byte} {o : Op} (hres : reservedZero x [(4, 0, 32), fAddr] = true) (hlen : 1152 ≤ dnum x 4 4)
    (hwin : s.inWindow o.dom (daddr x).toNat (dnum x 4 4) true true = true) :
    s.attestOp x nonce o = ((s.attestRecord (domCode o.dom) (if o.dom = 0 then 1 else 0) nonce).hostWrite o.dom (daddr x).toNat
      (s.report o.dom.val (if o.dom = 0 then 1 else 0) o.dom nonce)).complete o 0x00 0
        (BitVec.ofNat 16 (s.report o.dom.val (if o.dom = 0 then 1 else 0) o.dom nonce).length) := by
  unfold State.attestOp
  dsimp only
  rw [if_neg (by simp [hres, hlen]), if_neg (by simp [hwin])]

theorem attest_does {s : State} {d : Dom} {n : RingNo} {x : Desc} {nonce : List Byte} (h : CmdReady s d n x)
    (hres : reservedZero x [(4, 0, 32), fAddr] = true) (hlen : 1152 ≤ dnum x 4 4) (hnonce : nonce.length = 32)
    (hwin : s.inWindow d (daddr x).toNat (dnum x 4 4) true true = true) :
    Does (.attest d n x nonce) s fun t => Answered s t d n x 0x00 0 ∧
      Sends s t (.host d (daddr x).toNat (s.report d.val (if d = 0 then 1 else 0) d nonce)) ∧ SameRegs s t ∧ t.belay = s.belay ∧ t.ports = s.ports := by
  have he : exec (.attest d n x nonce) s = finish (s.command d n x fun s op => s.attestOp x nonce op) := by
    change execAttest d n x nonce s = _
    rw [execAttest, if_neg (by simp [h.on]), if_neg (by simp [hnonce])]
  have hf := State.attestOp_eq (s := s.fetch d n) (o := s.opOf d n x) (nonce := nonce) hres hlen (by rwa [State.inWindow_fetch])
  rw [State.report_fetch] at hf
  obtain ⟨l, hl⟩ := State.attestRecord_eq (s.fetch d n) (domCode d) (if d = 0 then 1 else 0) nonce
  have hk : Keeps false s ((s.fetch d n).attestRecord (domCode d) (if d = 0 then 1 else 0) nonce) := State.attestRecord_keeps (s.fetch_keeps' d n true)
  have hg : SameCq s ((s.fetch d n).attestRecord (domCode d) (if d = 0 then 1 else 0) nonce) d n := by
    rw [hl]
    exact (SameCq.fetch h).of_eq rfl rfl rfl rfl rfl
  refine h.does he hf (State.hostWrite_keeps hk) (hg.hostWrite _ _ _) fun t ht => ⟨ht.answered, ?_, ht.sameRegs ?_, ?_, ?_⟩
  · have hm := hg.mute.trans h.mute
    exact ht.sends _ ((State.hostWrite_sends hm (State.report_ne_nil _ _ _ _ _)).of_mid hk)
  · rw [State.hostWrite_regs]
    exact (congrArg State.regs hl).trans (s.fetch_regs d n true)
  · rw [ht.belay, State.hostWrite_belay]
    exact (congrArg State.belay hl).trans (s.fetch_belay d n true)
  · rw [ht.ports, State.hostWrite_ports]
    exact (congrArg State.ports hl).trans (s.fetch_ports d n true)

theorem State.logReadOp_eq {s : State} {x : Desc} {o : Op} (hres : reservedZero x [(4, 0, 32), (8, 0, 16), fAddr] = true) (h1 : 1 ≤ dnum x 8 2)
    (h2 : dnum x 8 2 ≤ 1024) (hwin : s.inWindow o.dom (daddr x).toNat ((dnum x 8 2 + 1) * 16) false true = true) :
    s.logReadOp x o = (s.hostWrite o.dom (daddr x).toNat (s.snapshotBytes (s.snapshot (domainView o.dom) (dnum x 4 4) (dnum x 8 2)).1)).complete o 0x00
      (BitVec.ofNat 32 (s.snapshot (domainView o.dom) (dnum x 4 4) (dnum x 8 2)).2)
      (BitVec.ofNat 16 (s.snapshot (domainView o.dom) (dnum x 4 4) (dnum x 8 2)).1.length) := by
  have hcount : ¬ (dnum x 8 2 = 0 ∨ 1024 < dnum x 8 2) := by omega
  unfold State.logReadOp
  dsimp only
  rw [if_neg (by simp [hres, hcount]), if_neg (by simp [hwin])]

theorem State.snapshot_fetch (s : State) (d : Dom) (n : RingNo) (see : LogRec → Option LogRec) (a c : Nat) :
    (s.fetch d n).snapshot see a c = s.snapshot see a c := by
  obtain ⟨o, h⟩ := s.fetch_eq d n true
  rw [h]
  rfl

theorem State.snapshotBytes_fetch (s : State) (d : Dom) (n : RingNo) (rs : List (Nat × LogRec)) : (s.fetch d n).snapshotBytes rs = s.snapshotBytes rs := by
  cases rs with
  | nil => rfl
  | cons e rs =>
    obtain ⟨o, h⟩ := s.fetch_eq d n true
    rw [h]
    rfl

theorem logRead_does {s : State} {d : Dom} {n : RingNo} {x : Desc} (h : CmdReady s d n x)
    (hres : reservedZero x [(4, 0, 32), (8, 0, 16), fAddr] = true) (h1 : 1 ≤ dnum x 8 2) (h2 : dnum x 8 2 ≤ 1024)
    (hwin : s.inWindow d (daddr x).toNat ((dnum x 8 2 + 1) * 16) false true = true) :
    Does (.logRead d n x) s fun t => Answered s t d n x 0x00 (BitVec.ofNat 32 (s.snapshot (domainView d) (dnum x 4 4) (dnum x 8 2)).2) ∧
      (s.snapshotBytes (s.snapshot (domainView d) (dnum x 4 4) (dnum x 8 2)).1 ≠ [] →
        Sends s t (.host d (daddr x).toNat (s.snapshotBytes (s.snapshot (domainView d) (dnum x 4 4) (dnum x 8 2)).1))) ∧ Logged s t [] ∧ SameRegs s t := by
  have he : exec (.logRead d n x) s = finish (s.command d n x fun s op => s.logReadOp x op) := by
    change execLogRead d n x s = _
    rw [execLogRead, if_pos h.on]
  have hf := State.logReadOp_eq (s := s.fetch d n) (o := s.opOf d n x) hres h1 h2 (by rwa [State.inWindow_fetch])
  rw [State.snapshot_fetch, State.snapshotBytes_fetch] at hf
  have hk := s.fetch_keeps' d n true
  have hg := SameCq.fetch h
  refine h.does he hf (State.hostWrite_keeps hk) (hg.hostWrite _ _ _) fun t ht => ⟨ht.answered, fun hne => ?_, ht.logged ?_, ht.sameRegs ?_⟩
  · exact ht.sends _ ((State.hostWrite_sends (hg.mute.trans h.mute) hne).of_mid hk)
  · rw [State.hostWrite_log, State.fetch_log]
  · rw [State.hostWrite_regs, State.fetch_regs]

/-! ### Debug unlock -/

theorem debugUnlockRequest_does {s : State} (hl : s.belay.debugUnlocked = false) (h : s.belay.otp.life = .owned ∨ s.belay.otp.life = .rma) :
    Does .debugUnlockRequest s fun t => ∃ c, t.belay = { s.belay with jtagChallenge := some c } ∧ Sends s t (.jtag c) := by
  let c : BitVec 256 := (Config.drbg s.free).setWidth 256
  let v : State := { s.draw with belay := { s.belay with jtagChallenge := some c } }
  have he : exec .debugUnlockRequest s = finish (v.emit (.jtag c)) := by
    change execDebugUnlockRequest s = _
    unfold execDebugUnlockRequest
    dsimp only
    rw [if_neg (by rcases h with h | h <;> simp [hl, h])]
    rfl
  refine ⟨_, he, c, ?_, ?_⟩
  · rw [State.announce_belay, State.noteMay_belay]
    rfl
  · have hsent : Sends s (v.emit (.jtag c)) (.jtag c) := ⟨[.jtag c], rfl, List.mem_singleton_self _⟩
    exact hsent.later (State.announce_keeps (State.noteMay_keeps (Keeps.refl _)))

/-- The challenge of the debug port is spent, whatever the signature. -/
def State.spendJtag (s : State) : State := { s with belay := { s.belay with jtagChallenge := none } }

@[simp] theorem State.spendJtag_belay (s : State) : s.spendJtag.belay = { s.belay with jtagChallenge := none } := rfl
@[simp] theorem State.spendJtag_tarn (s : State) : s.spendJtag.tarn = s.tarn := rfl

/-- The erasures of a debug unlock, before its record. -/
def State.unlockErase (s : State) : State :=
  let u := s.eraseData.eraseArgs
  let v : State := { u with spur := { u.spur with engines := u.spur.engines.map (fun e : Engine => { e with data := none }) } }
  { v with belay := { v.belay with debugUnlocked := true } }

theorem State.unlockErase_stores (s : State) :
    s.unlockErase.stores = ({ s.belay with keys := [], debugUnlocked := true }, [], [], Tbl.mapVal {} s.objs erasedObj) := by
  have h : s.eraseData.eraseArgs.stores = _ := (State.eraseArgs_stores _).trans s.eraseData_stores
  show (({ s.eraseData.eraseArgs.belay with debugUnlocked := true } : Belay), s.eraseData.eraseArgs.stores.2) = _
  rw [h, show s.eraseData.eraseArgs.belay = _ from congrArg Prod.fst h]

/-- The signature that unlocks debug verifies over challenge and serial number. -/
def State.jtagSigned (s : State) (c : BitVec 256) (sig : List Byte) : Bool :=
  ecdsaVerify (if s.belay.otp.life = .rma then Config.faKey else Config.ownerKey s.ownerHash) (beBytes 32 c.toNat ++ beBytes 8 s.serial.toNat)
    (BitVec.ofNat 768 (ofBe (slice sig 0 96)))

theorem execDebugUnlock_eq {s : State} {c : BitVec 256} (hc : s.belay.jtagChallenge = some c) (sig : List Byte) :
    execDebugUnlock sig s = if s.jtagSigned c sig then
      finish (s.spendJtag.unlockErase.record devCode 5 false 0x05 0x04 (BitVec.ofNat 32 (lifeCode s.spendJtag.unlockErase.belay.otp.life)) 0)
    else finish s.spendJtag := by
  unfold execDebugUnlock
  rw [hc]
  rfl

theorem debugUnlock_does {s : State} {sig : List Byte} {c : BitVec 256} (hc : s.belay.jtagChallenge = some c) :
    Does (.debugUnlock sig) s fun t => t.belay.jtagChallenge = none ∧
      if s.jtagSigned c sig then t.belay.debugUnlocked = true ∧ t.belay.keys = [] ∧ t.tarn = [] ∧ t.flt = [] ∧ t.belay.otp = s.belay.otp
      else t.belay = { s.belay with jtagChallenge := none } ∧ t.tarn = s.tarn := by
  have he : exec (.debugUnlock sig) s = _ := execDebugUnlock_eq hc sig
  by_cases hgood : s.jtagSigned c sig = true
  · rw [if_pos hgood] at he
    obtain ⟨hb, htarn, hflt, -⟩ : _ ∧ _ ∧ _ ∧ _ := by
      simpa only [State.stores, Prod.mk.injEq] using s.spendJtag.unlockErase_stores
    refine ⟨_, he, ?_⟩
    simp [hgood, hb, htarn, hflt]
  · rw [if_neg hgood] at he
    refine ⟨_, he, ?_⟩
    simp [hgood]

/-- Settles O26: each of the four requests is followed to its last state; the erasure of a debug unlock is followed by the tables themselves. -/
theorem attestLogReadDebug : Obligations.AttestLogReadDebug := by
  unfold Obligations.AttestLogReadDebug
  exact ⟨fun _ _ _ _ _ h hres hlen hnonce hwin => attest_does h hres hlen hnonce hwin,
    fun _ _ _ _ h hres h1 h2 hwin => logRead_does h hres h1 h2 hwin,
    fun _ hl h => debugUnlockRequest_does hl h, fun _ _ _ hc => debugUnlock_does hc⟩

end Sys2Proof.Machine

namespace Sys2Proof.Machine

/-! ### A wrapped key is never empty -/

theorem slice_length (bs : List Byte) (o n : Nat) : (slice bs o n).length = n := by
  rw [slice, List.length_append, List.length_take, List.length_replicate]
  omega

theorem xorBytes_length {a b : List Byte} {n : Nat} (ha : a.length = n) (hb : b.length = n) : (xorBytes a b).length = n := by
  simp [xorBytes, ha, hb]

/-- The words of a key schedule so far: at least the words of the key, of four bytes each. -/
structure KeyWords (nk : Nat) (ws : List (List Byte)) : Prop where
  enough : nk ≤ ws.length
  four : ∀ w ∈ ws, w.length = 4

theorem KeyWords.getD {nk : Nat} {ws : List (List Byte)} (h : KeyWords nk ws) {i : Nat} (hi : i < ws.length) : (ws.getD i []).length = 4 := by
  rw [List.getD_eq_getElem ws [] hi]
  exact h.four _ (List.getElem_mem hi)

theorem KeyWords.next {nk : Nat} {ws : List (List Byte)} (hnk : 0 < nk) (h : KeyWords nk ws) : KeyWords nk (ws ++ [nextKeyWord nk ws]) := by
  have hlast := h.getD (i := ws.length - 1) (by have := h.enough; omega)
  have hold := h.getD (i := ws.length - nk) (by have := h.enough; omega)
  refine ⟨by simp only [List.length_append]; have := h.enough; omega, fun w hw => ?_⟩
  rcases List.mem_append.1 hw with hw | hw
  · exact h.four w hw
  · rw [List.mem_singleton.1 hw]
    unfold nextKeyWord
    refine xorBytes_length hold ?_
    split
    · exact xorBytes_length (by rw [List.length_map, List.length_append, List.length_drop, List.length_take, hlast]; rfl) rfl
    · split
      · rw [List.length_map, hlast]
      · exact hlast

theorem KeyWords.foldl {nk : Nat} (hnk : 0 < nk) (k : Nat) {ws : List (List Byte)} (h : KeyWords nk ws) :
    KeyWords nk ((List.range k).foldl (fun ws _ => ws ++ [nextKeyWord nk ws]) ws) ∧
      ((List.range k).foldl (fun ws _ => ws ++ [nextKeyWord nk ws]) ws).length = ws.length + k := by
  induction k with
  | zero => exact ⟨h, rfl⟩
  | succ k ih =>
    obtain ⟨hw, hlen⟩ := ih
    rw [List.range_succ, List.foldl_append]
    exact ⟨hw.next hnk, by simp only [List.foldl_cons, List.foldl_nil, List.length_append, hlen, List.length_singleton]; omega⟩

/-- Of a key of 32 bytes there are fifteen round keys, and none is empty. -/
theorem roundKeys_ne_nil {key : List Byte} (hk : key.length = 32) : (roundKeys key).length = 15 ∧ ∀ w ∈ roundKeys key, w ≠ [] := by
  have h0 : KeyWords 8 ((List.range 8).map (fun i => slice key (4 * i) 4)) := by
    refine ⟨by simp, fun w hw => ?_⟩
    obtain ⟨i, -, rfl⟩ := List.mem_map.1 hw
    exact slice_length _ _ _
  obtain ⟨hws, hlen⟩ := h0.foldl (by decide) 52
  unfold roundKeys
  rw [hk]
  refine ⟨by simp, fun w hw => ?_⟩
  obtain ⟨r, hr, rfl⟩ := List.mem_map.1 hw
  rw [List.mem_range] at hr
  intro hnil
  generalize hdef : (List.range (3 * (32 / 4) + 28)).foldl _ _ = ws at hnil hws hlen
  have hlt : 4 * r < ws.length := by
    rw [hlen, List.length_map, List.length_range]
    omega
  have hword : ws[4 * r] = [] := List.flatten_eq_nil_iff.1 hnil _ (by
    rw [List.drop_eq_getElem_cons hlt]
    exact List.mem_cons_self)
  have hfour := hws.four _ (List.getElem_mem hlt)
  rw [hword] at hfour
  cases hfour

theorem aesBlock_ne_nil {key : List Byte} (hk : key.length = 32) (x : List Byte) : aesBlock key x ≠ [] := by
  obtain ⟨hlen, hne⟩ := roundKeys_ne_nil hk
  unfold aesBlock
  split
  next h => simp [h] at hlen
  next k ks h =>
    have hks : ks ≠ [] := by
      rintro rfl
      simp [h] at hlen
    have hlast : ks.getLastD [] ≠ [] := by
      rw [List.getLastD_eq_getLast?, List.getLast?_eq_some_getLast hks]
      exact hne _ (by rw [h]; exact List.mem_cons_of_mem _ (List.getLast_mem hks))
    intro hnil
    rw [xorBytes, List.zipWith_eq_nil_iff] at hnil
    rcases hnil with hrows | hkey
    · simp [turnRows] at hrows
    · exact hlast hkey

theorem kwStep_ne_nil {key : List Byte} (hk : key.length = 32) (n : Nat) (st : List Byte × List (List Byte)) (t : Nat) : (kwStep key n st t).1 ≠ [] := by
  intro hnil
  rw [kwStep, xorBytes, List.zipWith_eq_nil_iff] at hnil
  rcases hnil with hblock | hcount
  · exact aesBlock_ne_nil hk _ ((List.take_eq_nil_iff.1 hblock).resolve_left (by decide))
  · exact beBytes_ne_nil (by decide) _ hcount

theorem kwWrap_ne_nil {key : List Byte} (hk : key.length = 32) (data : List Byte) : kwWrap key data ≠ [] := by
  suffices ∀ (l : List Nat) (st : List Byte × List (List Byte)), st.1 ≠ [] →
      (l.foldl (fun st t => kwStep key (data.length / 8) st (t + 1)) st).1 ≠ [] from List.append_ne_nil_of_left_ne_nil (this _ _ (by simp)) _
  intro l
  induction l with
  | nil => exact fun _ h => h
  | cons t l ih => exact fun _ _ => ih _ (kwStep_ne_nil hk _ _ _)

end Sys2Proof.Machine

namespace Sys2Proof.Machine

/-! ### The key slots after links that have lost theirs go down -/

/-- Every slot reads the same, and the table is in canonical form. -/
def SameKeys (s t : State) : Prop := Tbl.wf none t.belay.keys = true ∧ ∀ i, t.key i = s.key i

@[simp] theorem State.countLink_link (s : State) (k j : LinkId) (off : Nat) : (s.countLink k off).link j = s.link j := rfl

theorem State.endWire_link_key (s : State) (k : LinkId) (cut : Bool) : ((s.endWire k cut).link k).key = (s.link k).key := by
  unfold State.endWire
  split
  · dsimp only
    split
    · rw [State.countLink_link, State.link_setLink_same]
    · split
      · rw [State.link_setLink_same]
      · rw [State.countLink_link, State.link_setLink_same]
  · rfl

theorem State.dropLinkKey_sameKeys {s : State} {k : LinkId} (hwf : Tbl.wf none s.belay.keys = true) (hgone : ∀ h, (s.link k).key = some h → s.key h = none) :
    SameKeys s (s.dropLinkKey k) := by
  unfold State.dropLinkKey
  split
  next h hh =>
    refine ⟨Tbl.wf_put _ _ _ hwf, fun i => ?_⟩
    by_cases hi : i = h
    · subst hi
      exact (State.key_setKey_same _ _ _ hwf).trans (hgone i hh).symm
    · exact State.key_setKey_other _ _ _ _ hi
  next => exact ⟨hwf, fun _ => rfl⟩

theorem State.linkDown_sameKeys {s : State} {k : LinkId} (hwf : Tbl.wf none s.belay.keys = true) (hgone : ∀ h, (s.link k).key = some h → s.key h = none)
    (st : LState) : SameKeys s (s.linkDown k st) := by
  have he : (s.endWire k true).belay = s.belay := congrArg Prod.fst (s.endWire_stores k true)
  have hb : (s.linkDown k st).belay = ((s.endWire k true).dropLinkKey k).belay := congrArg Prod.fst (s.linkDown_stores k st)
  have hd : SameKeys (s.endWire k true) ((s.endWire k true).dropLinkKey k) := by
    refine State.dropLinkKey_sameKeys (by rw [he, hwf]) fun h hh => ?_
    rw [State.endWire_link_key] at hh
    rw [State.key, he]
    exact hgone h hh
  obtain ⟨hwf', hkeys⟩ := hd
  refine ⟨by rw [hb, hwf'], fun i => ?_⟩
  have := hkeys i
  rw [State.key, State.key, he] at this
  rw [State.key, State.key, hb, this]

theorem State.dropKeyless_sameKeys {s : State} (hwf : Tbl.wf none s.belay.keys = true) : SameKeys s s.dropKeyless := by
  suffices ∀ (l : List LinkId) (t : State), SameKeys s t → SameKeys s (l.foldl (fun s k => match (s.link k).key with
      | some h => if (s.key h).isNone then s.linkDown k .aligning else s
      | none => s) t) from this linkIds s ⟨hwf, fun _ => rfl⟩
  intro l
  induction l with
  | nil => exact fun _ ht => ht
  | cons k l ih =>
    intro t ht
    refine ih _ ?_
    dsimp only
    split
    next h hh =>
      split
      next hnone =>
        obtain ⟨hwf', hkeys⟩ := ht
        obtain ⟨hwf'', hkeys'⟩ := t.linkDown_sameKeys (k := k) (st := .aligning) hwf' fun h' hh' => by
          rw [hh, Option.some.injEq] at hh'
          rw [← hh', ← Option.isNone_iff_eq_none]
          exact hnone
        exact ⟨hwf'', fun i => (hkeys' i).trans (hkeys i)⟩
      next => exact ht
    next => exact ht

/-! ### The key commands -/

theorem State.freeHandle_lowest {s : State} {d : Dom} {h : Nat} (hf : s.freeHandle d = some h) : s.key h = none ∧ ∀ i, i < h → (s.key i).isSome = true := by
  unfold State.freeHandle at hf
  dsimp only at hf
  split at hf
  · cases hf
  · obtain ⟨hfree, -, hlow⟩ := List.find?_range_eq_some.1 hf
    exact ⟨Option.isNone_iff_eq_none.1 hfree, fun i hi => by simpa [← Option.isSome_iff_ne_none] using hlow i hi⟩

section fetch
variable (s : State) (d : Dom) (n : RingNo)

theorem State.keyCheck_fetch (x : Desc) (o : Op) (rd : Bool) : (s.fetch d n).keyCheck x o rd = s.keyCheck x o rd := by
  obtain ⟨o, h⟩ := s.fetch_eq d n true
  rw [h]
  rfl

theorem State.freeHandle_fetch (e : Dom) : (s.fetch d n).freeHandle e = s.freeHandle e := by
  obtain ⟨o, h⟩ := s.fetch_eq d n true
  rw [h]
  rfl

theorem State.wrapKey_fetch (e : Dom) : (s.fetch d n).wrapKey e = s.wrapKey e := by
  obtain ⟨o, h⟩ := s.fetch_eq d n true
  rw [h]
  rfl

theorem State.key_fetch (i : Nat) : (s.fetch d n).key i = s.key i := by rw [State.key, State.fetch_belay, State.key]

theorem State.entry_fetch (e : Dom) : (s.fetch d n).entry e = s.entry e := by rw [State.entry, State.fetch_belay, State.entry]

end fetch

theorem State.key_of_belay {s t : State} (h : t.belay = s.belay) (i : Nat) : t.key i = s.key i := by rw [State.key, State.key, h]

/-- The KEY_OP record of a key command (R446). -/
def State.keyRecord (s : State) (o : Op) (opcode handle : Nat) (status : Byte) : State :=
  s.record (domCode o.dom) 2 true 0x05 0x01 (BitVec.ofNat 32 (opcode + 256 * handle)) (status.setWidth 32)

theorem State.keyDone_eq (s : State) (o : Op) (opcode handle : Nat) (status : Byte) : s.keyDone o opcode handle status =
    (s.keyRecord o opcode handle status).complete o status (if status = 0 ∧ opcode ≠ 0x32 then BitVec.ofNat 32 handle else 0) := rfl

section keyRecord
variable (s : State) (o : Op) (opcode handle : Nat) (status : Byte)

@[simp] theorem State.keyRecord_belay : (s.keyRecord o opcode handle status).belay = s.belay := by simp [State.keyRecord]
@[simp] theorem State.keyRecord_regs : (s.keyRecord o opcode handle status).regs = s.regs := by simp [State.keyRecord]
@[simp] theorem State.keyRecord_ports : (s.keyRecord o opcode handle status).ports = s.ports := by simp [State.keyRecord]

theorem State.keyRecord_keeps {s0 s : State} (h : Keeps false s0 s) : Keeps false s0 (s.keyRecord o opcode handle status) := State.record_keeps h

theorem SameCq.keyRecord {s u : State} {d : Dom} {n : RingNo} (g : SameCq s u d n) : SameCq s (u.keyRecord o opcode handle status) d n :=
  g.of_eq (by simp) (by simp) (by simp [State.keyRecord]) (by simp [State.keyRecord, State.func]) (by simp [State.keyRecord])

end keyRecord

/-- What a completed key command leaves, where its effect has led to v before its record. -/
theorem RingReady.does_keyDone {s v : State} {d : Dom} {n : RingNo} {x : Desc} (h : CmdReady s d n x) {i : Instr} {f : State → Op → State}
    {opcode handle : Nat} {status : Byte} {p : State → Prop} (he : exec i s = finish (s.command d n x f))
    (hf : f (s.fetch d n) (s.opOf d n x) = v.keyDone (s.opOf d n x) opcode handle status) (hk : Keeps false s v) (hg : SameCq s v d n)
    (hp : ∀ t, Answered s t d n x status (if status = 0 ∧ opcode ≠ 0x32 then BitVec.ofNat 32 handle else 0) → t.belay = v.belay → t.ports = v.ports →
      (v.regs = s.regs → SameRegs s t) → (∀ o, Sends s v o → Sends s t o) → p t) : Does i s p := by
  rw [State.keyDone_eq] at hf
  refine h.does he hf (State.keyRecord_keeps _ _ _ _ hk) (hg.keyRecord _ _ _ _) fun t ht => hp t ht.answered ?_ ?_ (fun hr => ht.sameRegs ?_) fun o ho => ?_
  · rw [ht.belay, State.keyRecord_belay]
  · rw [ht.ports, State.keyRecord_ports]
  · rw [State.keyRecord_regs, hr]
  · exact ht.sends o (ho.later (State.keyRecord_keeps _ _ _ _ (Keeps.refl v)))

/-- The key slot that KEY_GEN fills (R45). -/
def State.drawnSlot (s : State) (d : Dom) (use : Nat) : KeySlot :=
  { dom := d, sealing := use == 1, key := BitVec.ofNat 256 ((Config.drbg s.free).toNat % 2 ^ (8 * keyLen use)) }

/-- The plaintext of a blob (R44). -/
def State.blobPlain (s : State) (d : Dom) (use : Nat) (key : BitVec 256) : List Byte :=
  leBytes 1 use ++ leBytes 1 d.val ++ leBytes 2 (s.entry d).generation ++ [0, 0, 0, 0] ++ beBytes (keyLen use) key.toNat

theorem State.keyGenOp_eq {s : State} {x : Desc} {o : Op} {h : Nat} (hc : s.keyCheck x o false = 0) (hf : s.freeHandle o.dom = some h) :
    s.keyGenOp x o = ((s.draw.setKey h (some (s.drawnSlot o.dom (dnum x 4 1)))).hostWrite o.dom (daddr x).toNat
      (kwWrap (s.wrapKey o.dom) (s.blobPlain o.dom (dnum x 4 1) (s.drawnSlot o.dom (dnum x 4 1)).key))).keyDone o 0x30 h 0x00 := by
  unfold State.keyGenOp
  dsimp only
  rw [if_neg (by simp [hc]), hf]
  rfl

theorem State.wrapKey_length (s : State) (d : Dom) : (s.wrapKey d).length = 32 := by
  rw [State.wrapKey, beBytes, List.length_reverse, leBytes_length]

theorem keyGen_does {s : State} {d : Dom} {n : RingNo} {x : Desc} {h : Nat} (hr : CmdReady s d n x) (htab : TablesOk s)
    (hc : s.keyCheck x (s.opOf d n x) false = 0) (hf : s.freeHandle d = some h) :
    Does (.keyGen d n x) s fun t => Answered s t d n x 0x00 (BitVec.ofNat 32 h) ∧
      (∃ k, t.key h = some k ∧ k.dom = d ∧ k.sealing = (dnum x 4 1 == 1) ∧ k.ctr = 0 ∧
        Sends s t (.host d (daddr x).toNat (kwWrap (s.wrapKey d) (s.blobPlain d (dnum x 4 1) k.key)))) ∧ (∀ i, i ≠ h → t.key i = s.key i) ∧
      s.key h = none ∧ (∀ i, i < h → (s.key i).isSome = true) ∧ t.ports = s.ports ∧ SameRegs s t ∧ t.belay.otp = s.belay.otp := by
  have he : exec (.keyGen d n x) s = finish (s.command d n x fun s op => s.keyGenOp x op) := by
    change execKeyGen d n x s = _
    rw [execKeyGen, if_pos hr.on]
  have hop := State.keyGenOp_eq (s := s.fetch d n) (o := s.opOf d n x) (by rw [State.keyCheck_fetch, hc]) ((s.freeHandle_fetch d n d).trans hf)
  set k := (s.fetch d n).drawnSlot d (dnum x 4 1) with hk
  set v := (s.fetch d n).draw.setKey h (some k) with hv
  have hkeep : Keeps false s v := State.setKey_keeps (State.draw_keeps (s.fetch_keeps' d n true))
  have hg : SameCq s v d n := (SameCq.fetch hr).of_eq rfl rfl rfl rfl rfl
  have hwf : Tbl.wf none (s.fetch d n).draw.belay.keys = true := by rw [State.draw_belay, State.fetch_belay]; exact htab.keys
  obtain ⟨hfree, hlow⟩ := State.freeHandle_lowest hf
  refine hr.does_keyDone he hop (State.hostWrite_keeps hkeep) (hg.hostWrite _ _ _) fun t hans hb hp hregs hsend => ?_
  rw [State.hostWrite_belay] at hb
  refine ⟨hans, ⟨k, ?_, rfl, rfl, rfl, ?_⟩, fun i hi => ?_, hfree, hlow, ?_, hregs ?_, ?_⟩
  · exact (State.key_of_belay hb h).trans (State.key_setKey_same _ _ _ hwf)
  · rw [State.wrapKey_fetch] at hsend
    have hs := State.hostWrite_sends (a := (daddr x).toNat) (hg.mute.trans hr.mute) (kwWrap_ne_nil (s.wrapKey_length d) ((s.fetch d n).blobPlain d (dnum x 4 1) k.key))
    have := hsend _ (hs.of_mid hkeep)
    rwa [State.blobPlain, State.entry_fetch] at this
  · exact (State.key_of_belay hb i).trans ((State.key_setKey_other _ _ _ _ hi).trans (s.key_fetch d n i))
  · rw [hp, State.hostWrite_ports]
    exact s.fetch_ports d n true
  · rw [State.hostWrite_regs]
    exact s.fetch_regs d n true
  · rw [hb]
    change (s.fetch d n).belay.otp = _
    rw [State.fetch_belay]

/-- The plaintext of a blob names this use, domain and generation (R44). -/
def State.blobFits (s : State) (d : Dom) (use : Nat) (p : List Byte) : Prop :=
  leAt p 0 1 = use ∧ leAt p 1 1 = d.val ∧ leAt p 2 2 = (s.entry d).generation

/-- The key slot that a blob's plaintext fills (R45). -/
def loadedSlot (d : Dom) (use : Nat) (p : List Byte) : KeySlot :=
  { dom := d, sealing := use == 1, key := BitVec.ofNat 256 (ofBe (slice p 8 (keyLen use))) }

theorem State.keyLoadOp_fits {s : State} {x : Desc} {blob p : List Byte} {o : Op} {h : Nat} (hc : s.keyCheck x o true = 0) (hf : s.freeHandle o.dom = some h)
    (hp : kwUnwrap (s.wrapKey o.dom) blob = some p) (hfit : s.blobFits o.dom (dnum x 4 1) p) :
    s.keyLoadOp x blob o = (s.setKey h (some (loadedSlot o.dom (dnum x 4 1) p))).keyDone o 0x31 h 0x00 := by
  obtain ⟨huse, hdom, hgen⟩ := hfit
  unfold State.keyLoadOp
  dsimp only
  rw [if_neg (by simp [hc]), hp]
  dsimp only
  rw [if_neg (by simp [huse, hdom, hgen]), hf]
  rfl

theorem State.keyLoadOp_refused {s : State} {x : Desc} {blob : List Byte} {o : Op} (hc : s.keyCheck x o true = 0)
    (hp : ∀ p, kwUnwrap (s.wrapKey o.dom) blob = some p → ¬ s.blobFits o.dom (dnum x 4 1) p) : s.keyLoadOp x blob o = s.keyDone o 0x31 0 0x32 := by
  unfold State.keyLoadOp
  dsimp only
  rw [if_neg (by simp [hc])]
  split
  next => rfl
  next p hsome =>
    rw [if_pos]
    by_contra hn
    simp only [not_or, not_not] at hn
    exact hp p hsome hn

theorem keyLoad_exec {s : State} {d : Dom} {n : RingNo} {x : Desc} {blob : List Byte} (hr : CmdReady s d n x) (hl : blob.length = blobLen (dnum x 4 1)) :
    exec (.keyLoad d n x blob) s = finish (s.command d n x fun s op => s.keyLoadOp x blob op) := by
  change execKeyLoad d n x blob s = _
  rw [execKeyLoad, if_neg (by simp [hr.on]), if_neg (by simp [hl])]

theorem keyLoad_fits {s : State} {d : Dom} {n : RingNo} {x : Desc} {blob p : List Byte} {h : Nat} (hr : CmdReady s d n x) (htab : TablesOk s)
    (hc : s.keyCheck x (s.opOf d n x) true = 0) (hf : s.freeHandle d = some h) (hl : blob.length = blobLen (dnum x 4 1))
    (hp : kwUnwrap (s.wrapKey d) blob = some p) (hfit : s.blobFits d (dnum x 4 1) p) :
    Does (.keyLoad d n x blob) s fun t => (∀ i, i ≠ h → t.key i = s.key i) ∧ SameRegs s t ∧ t.ports = s.ports ∧
      Answered s t d n x 0x00 (BitVec.ofNat 32 h) ∧ t.key h = some (loadedSlot d (dnum x 4 1) p) := by
  have hop := State.keyLoadOp_fits (s := s.fetch d n) (o := s.opOf d n x) (blob := blob) (p := p) (by rw [State.keyCheck_fetch, hc])
    ((s.freeHandle_fetch d n d).trans hf) (by rw [State.wrapKey_fetch]; exact hp) (by rwa [State.blobFits, State.entry_fetch])
  have hkeep : Keeps false s ((s.fetch d n).setKey h (some (loadedSlot d (dnum x 4 1) p))) := State.setKey_keeps (s.fetch_keeps' d n true)
  have hwf : Tbl.wf none (s.fetch d n).belay.keys = true := by rw [State.fetch_belay]; exact htab.keys
  refine hr.does_keyDone (keyLoad_exec hr hl) hop hkeep ((SameCq.fetch hr).of_eq rfl rfl rfl rfl rfl) fun t hans hb hports hregs _ => ?_
  refine ⟨fun i hi => ?_, hregs (s.fetch_regs d n true), hports.trans (s.fetch_ports d n true), hans, ?_⟩
  · exact (State.key_of_belay hb i).trans ((State.key_setKey_other _ _ _ _ hi).trans (s.key_fetch d n i))
  · exact (State.key_of_belay hb h).trans (State.key_setKey_same _ _ _ hwf)

theorem keyLoad_refused {s : State} {d : Dom} {n : RingNo} {x : Desc} {blob : List Byte} (hr : CmdReady s d n x)
    (hc : s.keyCheck x (s.opOf d n x) true = 0) (hl : blob.length = blobLen (dnum x 4 1))
    (hp : ∀ p, kwUnwrap (s.wrapKey d) blob = some p → ¬ s.blobFits d (dnum x 4 1) p) :
    Does (.keyLoad d n x blob) s fun t => (∀ i, t.key i = s.key i) ∧ SameRegs s t ∧ t.ports = s.ports ∧ Answered s t d n x 0x32 0 := by
  have hop := State.keyLoadOp_refused (s := s.fetch d n) (o := s.opOf d n x) (blob := blob) (by rw [State.keyCheck_fetch, hc]) fun p h hfit => by
    rw [State.wrapKey_fetch] at h
    rw [State.blobFits, State.entry_fetch] at hfit
    exact hp p h hfit
  refine hr.does_keyDone (keyLoad_exec hr hl) hop (s.fetch_keeps' d n true) (SameCq.fetch hr) fun t hans hb hports hregs _ => ?_
  exact ⟨fun i => (State.key_of_belay hb i).trans (s.key_fetch d n i), hregs (s.fetch_regs d n true), hports.trans (s.fetch_ports d n true), hans⟩

theorem keyLoad_does {s : State} {d : Dom} {n : RingNo} {x : Desc} {blob : List Byte} {h : Nat} (hr : CmdReady s d n x) (htab : TablesOk s)
    (hc : s.keyCheck x (s.opOf d n x) true = 0) (hf : s.freeHandle d = some h) (hl : blob.length = blobLen (dnum x 4 1)) :
    Does (.keyLoad d n x blob) s fun t => (∀ i, i ≠ h → t.key i = s.key i) ∧ SameRegs s t ∧ t.ports = s.ports ∧
      (∀ p, kwUnwrap (s.wrapKey d) blob = some p →
        if leAt p 0 1 = dnum x 4 1 ∧ leAt p 1 1 = d.val ∧ leAt p 2 2 = (s.entry d).generation then
          Answered s t d n x 0x00 (BitVec.ofNat 32 h) ∧ (∀ i, i < h → (s.key i).isSome = true) ∧
          ∃ k, t.key h = some k ∧ k.dom = d ∧ k.sealing = (dnum x 4 1 == 1) ∧ k.key = BitVec.ofNat 256 (ofBe (slice p 8 (keyLen (dnum x 4 1))))
        else Answered s t d n x 0x32 0 ∧ t.key h = s.key h) ∧
      (kwUnwrap (s.wrapKey d) blob = none → Answered s t d n x 0x32 0 ∧ t.key h = s.key h) := by
  by_cases hfit : ∃ p, kwUnwrap (s.wrapKey d) blob = some p ∧ s.blobFits d (dnum x 4 1) p
  · obtain ⟨p, hp, hfit⟩ := hfit
    obtain ⟨t, he, hother, hregs, hports, hans, hkey⟩ := keyLoad_fits hr htab hc hf hl hp hfit
    refine ⟨t, he, hother, hregs, hports, fun q hq => ?_, fun hnone => ?_⟩
    · obtain rfl : p = q := Option.some.inj (hp.symm.trans hq)
      rw [if_pos (show _ ∧ _ ∧ _ from hfit)]
      exact ⟨hans, (State.freeHandle_lowest hf).2, _, hkey, rfl, rfl, rfl⟩
    · rw [hp] at hnone
      cases hnone
  · obtain ⟨t, he, hkeys, hregs, hports, hans⟩ := keyLoad_refused hr hc hl fun p hp h => hfit ⟨p, hp, h⟩
    refine ⟨t, he, fun i _ => hkeys i, hregs, hports, fun q hq => ?_, fun _ => ⟨hans, hkeys h⟩⟩
    rw [if_neg fun h : _ ∧ _ ∧ _ => hfit ⟨q, hq, h⟩]
    exact ⟨hans, hkeys h⟩

theorem State.keyEraseOp_eq {s : State} {x : Desc} {o : Op} (hres : reservedZero x [(4, 0, 8)] = true) (hown : s.ownKey o.dom (dnum x 4 1) = true) :
    s.keyEraseOp x o = ((s.setKey (dnum x 4 1) none).dropKeyless).keyDone o 0x32 (dnum x 4 1) 0x00 := by
  unfold State.keyEraseOp
  dsimp only
  rw [if_neg (by simp [hres]), if_neg (by simp [hown])]

/-- Parts that links going down may change. -/
def linkParts : List Part := [.counts, .fab, .halves, .keys, .links, .out, .regs .fab, .regs .fn, .regs .tmu]

theorem State.dropKeyless_linkParts (s : State) : Only linkParts s s.dropKeyless := by
  apply State.dropKeyless_only (Only.refl s) <;> decide

theorem SameCq.dropKeyless {s u : State} {d : Dom} {n : RingNo} (g : SameCq s u d n) : SameCq s u.dropKeyless d n := by
  have h := u.dropKeyless_linkParts
  refine ⟨fun i => ?_, ?_, ?_, ?_, ?_⟩
  · rw [← g.regs i]
    exact h.2 (.regs .ring) (by decide) _ rfl
  · rw [← g.belay]
    exact (h.2 .partition (by decide)).1
  · rw [← g.dev]
    exact h.2 .dev (by decide)
  · rw [← g.func, State.func, State.func, show u.dropKeyless.funcs = u.funcs from h.2 .funcs (by decide)]
  · rw [← g.ring]
    exact h.2 .rings (by decide) _

theorem keyErase_does {s : State} {d : Dom} {n : RingNo} {x : Desc} (hr : CmdReady s d n x) (htab : TablesOk s)
    (hres : reservedZero x [(4, 0, 8)] = true) (hown : s.ownKey d (dnum x 4 1) = true) :
    Does (.keyErase d n x) s fun t => Answered s t d n x 0x00 0 ∧ t.key (dnum x 4 1) = none ∧ (∀ i, i ≠ dnum x 4 1 → t.key i = s.key i) ∧
      t.ports = s.ports ∧ t.belay.otp = s.belay.otp := by
  have he : exec (.keyErase d n x) s = finish (s.command d n x fun s op => s.keyEraseOp x op) := by
    change execKeyErase d n x s = _
    rw [execKeyErase, if_pos hr.on]
  have hop := State.keyEraseOp_eq (s := s.fetch d n) (o := s.opOf d n x) hres (by rwa [State.ownKey, State.key_fetch])
  set u := (s.fetch d n).setKey (dnum x 4 1) none with hu
  have hwf : Tbl.wf none (s.fetch d n).belay.keys = true := by rw [State.fetch_belay]; exact htab.keys
  have hkeep : Keeps false s u.dropKeyless := State.dropKeyless_keeps (State.setKey_keeps (s.fetch_keeps' d n true))
  have hg : SameCq s u d n := (SameCq.fetch hr).of_eq rfl rfl rfl rfl rfl
  obtain ⟨-, hkeys⟩ := State.dropKeyless_sameKeys (s := u) (Tbl.wf_put _ _ _ hwf)
  have honly := u.dropKeyless_linkParts
  refine hr.does_keyDone he hop hkeep hg.dropKeyless fun t hans hb hports _ _ => ⟨hans, ?_, fun i hi => ?_, ?_, ?_⟩
  · exact (State.key_of_belay hb _).trans ((hkeys _).trans (State.key_setKey_same _ _ _ hwf))
  · exact (State.key_of_belay hb i).trans ((hkeys i).trans ((State.key_setKey_other _ _ _ _ hi).trans (s.key_fetch d n i)))
  · exact hports.trans ((honly.2 .ports (by decide)).trans (s.fetch_ports d n true))
  · rw [hb, show u.dropKeyless.belay.otp = u.belay.otp from honly.2 .otp (by decide)]
    change (s.fetch d n).belay.otp = _
    rw [State.fetch_belay]

/-- Settles O23: the key table is followed through the fetch, the fill or the erasure, and the links that lose their slot with it. -/
theorem keyCommands : Obligations.KeyCommands := by
  unfold Obligations.KeyCommands
  exact ⟨fun _ _ _ _ _ hr htab hc hf => keyGen_does hr htab hc hf, fun _ _ _ _ _ _ hr htab hc hf hl => keyLoad_does hr htab hc hf hl,
    fun _ _ _ _ hr htab hres hown => keyErase_does hr htab hres hown⟩

end Sys2Proof.Machine

namespace Sys2Proof.Machine

/-! ### What the return to the partition of reset leaves alone (R25, R52) -/

section stores
variable (s : State)

@[simp] theorem State.setPort_stores (p : PortId) (x : Port) : (s.setPort p x).stores = s.stores := rfl
@[simp] theorem State.setGroup_stores (k : GrpId) (g : Group) : (s.setGroup k g).stores = s.stores := rfl
@[simp] theorem State.setRing_stores (i : Nat) (r : Ring) : (s.setRing i r).stores = s.stores := rfl
@[simp] theorem State.setEth_stores (k : EpId) (x : EthPort) : (s.setEth k x).stores = s.stores := rfl
@[simp] theorem State.setFunc_stores (d : Dom) (f : Func) : (s.setFunc d f).stores = s.stores := rfl
@[simp] theorem State.portEvt_stores (p : PortId) (i : Nat) : (s.portEvt p i).stores = s.stores := rfl
@[simp] theorem State.grpEvt_stores (k : GrpId) (i : Nat) : (s.grpEvt k i).stores = s.stores := rfl
@[simp] theorem State.clearBlock_stores (b : Nat) : (s.clearBlock b).stores = s.stores := rfl
@[simp] theorem State.clearTenantRings_stores : s.clearTenantRings.stores = s.stores := rfl

@[simp] theorem State.complete_stores (o : Op) (st : Byte) (i0 : Word) (i1 : Half) (stamp : Option (BitVec 36)) (port : Byte) :
    (s.complete o st i0 i1 stamp port).stores = s.stores := by
  obtain ⟨l, r, c, h, he⟩ := s.complete_eq o st i0 i1 stamp port
  rw [he]
  rfl

@[simp] theorem State.showPort_stores (p : PortId) (x : Port) : (s.showPort p x).stores = s.stores := by
  unfold State.showPort
  dsimp only
  split <;> simp

@[simp] theorem State.leaveHold_stores (p : PortId) : (s.leaveHold p).stores = s.stores := State.showPort_stores _ _ _

@[simp] theorem State.clearHold_stores (p : PortId) : (s.clearHold p).stores = s.stores := by
  unfold State.clearHold
  dsimp only
  split <;> simp

@[simp] theorem State.syncMembers_stores (k : GrpId) : (s.syncMembers k).stores = s.stores := by
  refine stores_foldl s (fun s e => ?_) _
  dsimp only
  split <;> simp

@[simp] theorem State.groupGoes_stores (k : GrpId) (g : Group) : (s.groupGoes k g).stores = s.stores := by
  unfold State.groupGoes
  dsimp only
  split <;> simp

@[simp] theorem State.clearGroupHold_stores (k : GrpId) : (s.clearGroupHold k).stores = s.stores := by
  unfold State.clearGroupHold
  dsimp only
  split <;> simp

@[simp] theorem State.leaveGroupHold_stores (k : GrpId) : (s.leaveGroupHold k).stores = s.stores := by
  unfold State.leaveGroupHold
  extract_lets g t a u g'
  have ht : t.stores = s.stores := State.groupGoes_stores _ _ _
  have hu : u.stores = t.stores := by
    unfold u
    split
    · simp
    · split
      · simp
      · rfl
  split
  · rw [State.groupGoes_stores, hu, ht]
  · rw [hu, ht]

@[simp] theorem State.reassignPort_stores (p : PortId) : (s.reassignPort p).stores = s.stores := by
  unfold State.reassignPort
  dsimp only
  split
  · split <;> simp
  · split
    · split <;> simp
    · simp

@[simp] theorem State.reassignGroup_stores (k : GrpId) : (s.reassignGroup k).stores = s.stores := by
  unfold State.reassignGroup
  dsimp only
  split
  · split <;> simp
  · simp

@[simp] theorem State.newWindows_stores (p : PortId) : (s.newWindows p).stores = s.stores := by
  unfold State.newWindows State.attach
  cases s.spur.attached[p] <;> rfl

end stores

/-! ### The erased tables stay empty while the tenants end -/

section tbl
variable {α : Type} [DecidableEq α] {dflt : α}

theorem Tbl.mem_put (t : Tbl α) (i : Nat) (v : α) (e : Nat × α) (he : e ∈ Tbl.put dflt t i v) : e ∈ t ∨ e = (i, v) := by
  induction t with
  | nil =>
    rw [Tbl.put] at he
    split at he
    · exact Or.inl he
    · exact Or.inr (List.mem_singleton.1 he)
  | cons f t ih =>
    obtain ⟨k, u⟩ := f
    rw [Tbl.put] at he
    split at he
    · split at he
      · exact Or.inl he
      · exact (List.mem_cons.1 he).symm
    · split at he
      · split at he
        · exact Or.inl (List.mem_cons_of_mem _ he)
        · exact (List.mem_cons.1 he).symm.imp_left (List.mem_cons_of_mem _)
      · rcases List.mem_cons.1 he with rfl | he
        · exact Or.inl List.mem_cons_self
        · exact (ih he).imp_left (List.mem_cons_of_mem _)

omit [DecidableEq α] in
theorem Tbl.get_eq_or_mem (t : Tbl α) (i : Nat) : Tbl.get dflt t i = dflt ∨ ∃ k, (k, Tbl.get dflt t i) ∈ t := by
  induction t with
  | nil => exact Or.inl rfl
  | cons f t ih =>
    obtain ⟨k, u⟩ := f
    rw [Tbl.get]
    split
    · exact Or.inr ⟨k, List.mem_cons_self⟩
    · exact ih.imp_right fun ⟨j, hj⟩ => ⟨j, List.mem_cons_of_mem _ hj⟩

end tbl

/-- Tarn and the filter store are empty, no object holds a shadow, and the challenge is c. -/
structure Erased (c : Option (BitVec 256 × DWord)) (s : State) : Prop where
  tarn : s.tarn = []
  flt : s.flt = []
  challenge : s.belay.challenge = c
  shadows : ∀ e ∈ s.objs, e.2.shadow = none

section erased
variable {c : Option (BitVec 256 × DWord)} {s t : State}

theorem Erased.of_stores (h : t.stores = s.stores) (hs : Erased c s) : Erased c t := by
  obtain ⟨hb, ht, hf, ho⟩ : _ ∧ _ ∧ _ ∧ _ := by simpa only [State.stores, Prod.mk.injEq] using h
  exact ⟨ht.trans hs.tarn, hf.trans hs.flt, by rw [hb, hs.challenge], by rw [ho]; exact hs.shadows⟩

theorem Erased.foldl {α : Type} {f : State → α → State} (hf : ∀ s a, Erased c s → Erased c (f s a)) (l : List α) (hs : Erased c s) :
    Erased c (l.foldl f s) := by
  induction l generalizing s with
  | nil => exact hs
  | cons a l ih => exact ih (hf s a hs)

theorem Erased.shadow (hs : Erased c s) (d : Dom) (o : Nat) : (s.obj d o).shadow = none := by
  rcases Tbl.get_eq_or_mem (dflt := ({} : Obj)) s.objs (8192 * d.val + o) with h | ⟨k, h⟩
  · rw [State.obj, h]
  · exact hs.shadows _ h

theorem Erased.setObj (hs : Erased c s) (d : Dom) (o : Nat) {x : Obj} (hx : x.shadow = none) : Erased c (s.setObj d o x) := by
  refine ⟨hs.tarn, hs.flt, hs.challenge, fun e he => ?_⟩
  rcases Tbl.mem_put _ _ _ e he with he | rfl
  · exact hs.shadows e he
  · exact hx

theorem Erased.clearPending (hs : Erased c s) (d : Dom) (src : Source) : Erased c (s.clearPending d src) := by
  cases src with
  | obj o => exact hs.setObj d _ (hs.shadow d _)
  | ring n => exact hs

theorem Erased.flrPort (hs : Erased c s) (d : Dom) (p : PortId) : Erased c (s.flrPort d p) := by
  unfold State.flrPort
  exact Erased.of_stores (State.setPort_stores _ _ _) (Erased.foldl (fun s a hs => hs.clearPending d a.src) _ hs)

theorem Erased.endReads (hs : Erased c s) (d : Dom) : Erased c (s.endReads d) := by
  unfold State.endReads
  refine Erased.foldl (fun s o hs => ?_) _ hs
  have hp : s.promoteShadow d o = s := by
    unfold State.promoteShadow
    dsimp only
    rw [hs.shadow]
  dsimp only
  rw [hp]
  exact hs.setObj d o (hs.shadow d o)

theorem Erased.takeHeld (hs : Erased c s) (f : Op → Bool) : Erased c (s.takeHeld f).1 := by
  unfold State.takeHeld
  split
  · exact hs
  · exact ⟨hs.tarn, hs.flt, hs.challenge, hs.shadows⟩

theorem Erased.flrRings (hs : Erased c s) (d : Dom) : Erased c (s.flrRings d) := by
  unfold State.flrRings
  extract_lets e s1 s2 mine s3 s4
  have h1 : Erased c s1 := Erased.foldl (fun s n hs => by
    refine Erased.of_stores (State.setRing_stores _ _ _) (Erased.foldl (fun s w hs => ?_) _ hs)
    exact Erased.of_stores (State.freeSpace_stores _ _ _) hs) _ hs
  have h3 : Erased c s3 := Erased.foldl (fun s k hs => Erased.of_stores (State.setEth_stores _ _ _) hs) _ (h1.endReads d)
  have h4 : Erased c s4 := h3.takeHeld _
  exact ⟨h4.tarn, h4.flt, h4.challenge, h4.shadows⟩

theorem Erased.endDomain (hs : Erased c s) (d : Dom) : Erased c (s.endDomain d) := by
  unfold State.endDomain
  exact Erased.flrRings (Erased.foldl (fun s p hs => hs.flrPort d p) _ (Erased.of_stores (State.setFunc_stores s _ _) hs)) d

end erased

/-- The entries of the partition of reset (R22, R503). -/
def resetEntries : Vector Entry 16 := (Vector.replicate 16 ({} : Entry)).set 0 Entry.ownerReset

/-- What R52 leaves: nothing in Tarn, filters and objects, and the partition of reset. -/
structure Defaulted (c : Option (BitVec 256 × DWord)) (s : State) : Prop where
  tarn : s.tarn = []
  flt : s.flt = []
  objs : s.objs = []
  entries : s.belay.entries = resetEntries
  challenge : s.belay.challenge = c

theorem Defaulted.of_stores {c : Option (BitVec 256 × DWord)} {s t : State} (h : t.stores = s.stores) (hs : Defaulted c s) : Defaulted c t := by
  obtain ⟨hb, ht, hf, ho⟩ : _ ∧ _ ∧ _ ∧ _ := by simpa only [State.stores, Prod.mk.injEq] using h
  exact ⟨ht.trans hs.tarn, hf.trans hs.flt, ho.trans hs.objs, by rw [hb, hs.entries], by rw [hb, hs.challenge]⟩

theorem State.defaultPartition_defaulted {c : Option (BitVec 256 × DWord)} {s : State} (hs : Erased c s) : Defaulted c s.defaultPartition := by
  unfold State.defaultPartition
  extract_lets ts blocks s1 s2 s3 s4 s5 gone _ s6
  have h1 : Erased c s1 := Erased.foldl (fun s d hs => hs.endDomain d) _ hs
  have h2 : Erased c s2 := Erased.foldl (fun s p hs => Erased.of_stores (s.reassignPort_stores p) hs) _ h1
  have h3 : Erased c s3 := Erased.foldl (fun s k hs => Erased.of_stores (s.reassignGroup_stores k) hs) _ h2
  have h4 : Erased c s4 := Erased.foldl (fun s b hs => Erased.of_stores (s.clearBlock_stores b) hs) _ h3
  have h5 : Erased c s5 := Erased.of_stores s4.clearTenantRings_stores h4
  have h6 : Defaulted c s6 := ⟨h5.tarn, h5.flt, rfl, rfl, h5.challenge⟩
  exact Defaulted.of_stores (stores_foldl s6 (fun s p => s.newWindows_stores p) _) h6

theorem State.eraseData_erased (s : State) : Erased s.belay.challenge s.eraseData := by
  obtain ⟨hb, ht, hf, ho⟩ : _ ∧ _ ∧ _ ∧ _ := by simpa only [State.stores, Prod.mk.injEq] using s.eraseData_stores
  refine ⟨ht, hf, by rw [hb], fun e he => ?_⟩
  rw [ho, Tbl.mapVal, List.mem_filter, List.mem_map] at he
  obtain ⟨⟨x, -, rfl⟩, -⟩ := he
  rfl

theorem State.ownerErase_defaulted (s : State) : Defaulted s.belay.challenge s.ownerErase :=
  Defaulted.of_stores (State.eraseRecords_stores _) (State.defaultPartition_defaulted s.eraseData_erased)

theorem State.eraseRecords_belay (s : State) : s.eraseRecords.belay = s.belay := congrArg Prod.fst (State.eraseRecords_stores s)

theorem State.eraseData_belay (s : State) : s.eraseData.belay = { s.belay with keys := [] } := congrArg Prod.fst (State.eraseData_stores s)

theorem State.ownerErase_keys (s : State) : s.ownerErase.belay.keys = [] := by
  have h1 : s.eraseData.belay.keys = [] := by rw [State.eraseData_belay]
  have h2 : s.eraseData.defaultPartition.belay.keys = s.eraseData.belay.keys := by
    have h : Only [.cairn, .counts, .eths, .funcs, .groups, .halves, .objs, .out, .partition, .ports, .regs .flt, .regs .grp, .regs .port, .regs .ring,
        .rings, .routes, .spur, .tarn, .trust, .units] s.eraseData s.eraseData.defaultPartition := by
      apply State.defaultPartition_only (Only.refl _) <;> decide
    exact h.2 .keys (by decide)
  rw [State.ownerErase, State.eraseRecords_belay, h2, h1]

end Sys2Proof.Machine

namespace Sys2Proof.Machine

/-! ### The signed commands (R47, R52) -/

theorem Defaulted.setOtp {c : Option (BitVec 256 × DWord)} {s : State} (h : Defaulted c s) (o : Otp) : Defaulted c (s.setOtp o) :=
  ⟨h.tarn, h.flt, h.objs, h.entries, h.challenge⟩

theorem Defaulted.setLife {c : Option (BitVec 256 × DWord)} {s : State} (h : Defaulted c s) (l : Lifecycle) : Defaulted c (s.setLife l) := by
  obtain ⟨g, hg⟩ := s.setLife_eq l
  rw [hg]
  exact ⟨h.tarn, h.flt, h.objs, h.entries, h.challenge⟩

theorem State.setLife_keys (s : State) (l : Lifecycle) : (s.setLife l).belay.keys = s.belay.keys := by
  obtain ⟨g, hg⟩ := s.setLife_eq l
  rw [hg]

/-- The device has lost its owner: the lifecycle is l, and what R52 erases is erased. -/
structure Left (l : Lifecycle) (t : State) : Prop where
  life : t.belay.otp.life = l
  keys : t.belay.keys = []
  tarn : t.tarn = []
  flt : t.flt = []
  objs : t.objs = []
  owner : t.entry 0 = Entry.ownerReset
  tenants : ∀ d, d ≠ 0 → t.entry d = {}

theorem resetEntries_tenants : ∀ d : Dom, d ≠ 0 → resetEntries[d] = {} := by decide

theorem Defaulted.left {c : Option (BitVec 256 × DWord)} {s : State} {l : Lifecycle} (h : Defaulted c s) (hl : s.belay.otp.life = l)
    (hk : s.belay.keys = []) : Left l s :=
  ⟨hl, hk, h.tarn, h.flt, h.objs, by rw [State.entry, h.entries]; rfl, fun d hd => by rw [State.entry, h.entries, resetEntries_tenants d hd]⟩

theorem Left.of_stores {l : Lifecycle} {s t : State} (h : t.stores = s.stores) (hs : Left l s) : Left l t := by
  obtain ⟨hb, ht, hf, ho⟩ : _ ∧ _ ∧ _ ∧ _ := by simpa only [State.stores, Prod.mk.injEq] using h
  exact ⟨by rw [hb, hs.life], by rw [hb, hs.keys], ht.trans hs.tarn, hf.trans hs.flt, ho.trans hs.objs, by rw [State.entry, hb]; exact hs.owner,
    fun d hd => by rw [State.entry, hb]; exact hs.tenants d hd⟩

theorem State.killDus_defaulted (s : State) (l : Lifecycle) : Defaulted s.belay.challenge (s.killDus l) :=
  (s.ownerErase_defaulted.setOtp _).setLife l

theorem State.killDus_left (s : State) (l : Lifecycle) : Left l (s.killDus l) :=
  (s.killDus_defaulted l).left (by rw [State.killDus_otp]) ((State.setLife_keys _ l).trans s.ownerErase_keys)

/-- What OWNER_RELEASE does once its signature verifies. -/
def State.releaseOwner (s : State) : State :=
  (s.ownerErase.setOtp { s.ownerErase.belay.otp with
    slots := s.belay.otp.slots.set (fin 8 s.ownerSlot) { s.belay.otp.slots[(fin 8 s.ownerSlot : Fin 8)] with revoked := true } }).setLife .unowned

theorem State.releaseOwner_otp (s : State) : s.releaseOwner.belay.otp = { s.belay.otp with
    slots := s.belay.otp.slots.set (fin 8 s.ownerSlot) { s.belay.otp.slots[(fin 8 s.ownerSlot : Fin 8)] with revoked := true }, life := .unowned } := by
  rw [State.releaseOwner, State.setLife_otp, State.setOtp, State.ownerErase_otp]

theorem State.releaseOwner_defaulted (s : State) : Defaulted s.belay.challenge s.releaseOwner :=
  (s.ownerErase_defaulted.setOtp _).setLife .unowned

theorem State.releaseOwner_left (s : State) : Left .unowned s.releaseOwner :=
  s.releaseOwner_defaulted.left (by rw [State.releaseOwner_otp]) ((State.setLife_keys _ _).trans s.ownerErase_keys)

theorem State.signedOp_eq {s : State} {x : Desc} {sig : List Byte} {o : Op} {eff : State → State} (hres : reservedZero x [fAddr] = true) (hdom : o.dom = 0)
    (hlife : s.belay.otp.life = .owned) (hwin : s.inWindow 0 (daddr x).toNat 96 true false = true) :
    s.signedOp x sig o eff = if s.ownerSigned sig then (eff s.spendChallenge).complete o 0x00 else s.spendChallenge.complete o 0x32 := by
  unfold State.signedOp
  rw [if_neg (by simp [hres]), if_neg (by simp [hdom]), if_neg (by simp [hlife]), if_neg (by simp [hdom, hwin])]

theorem State.ownerSigned_fetch (s : State) (d : Dom) (n : RingNo) (sig : List Byte) : (s.fetch d n).ownerSigned sig = s.ownerSigned sig := by
  obtain ⟨o, h⟩ := s.fetch_eq d n true
  rw [h]
  rfl

theorem State.concluded_stores (u : State) (o : Op) (st : Byte) : (u.complete o st).noteMay.announce.stores = u.stores := by
  simp [State.stores]

/-- The course of a signed command: the challenge is spent, a good signature has the effect, a bad one completes BAD_DESC and has none. -/
theorem signed_does {s : State} {n : RingNo} {x : Desc} {sig : List Byte} {i : Instr} {eff : State → State} {p : State → Prop} (hr : CmdReady s 0 n x)
    (hres : reservedZero x [fAddr] = true) (hlife : s.belay.otp.life = .owned) (hwin : s.inWindow 0 (daddr x).toNat 96 true false = true)
    (he : exec i s = finish (s.command 0 n x fun s op => s.signedOp x sig op eff))
    (hgood : ∀ v t, v.belay = { s.belay with challenge := none } → t.stores = (eff v).stores → t.belay.challenge = none ∧ p t) :
    Does i s fun t => t.belay.challenge = none ∧
      if s.ownerSigned sig then p t
      else Answered s t 0 n x 0x32 0 ∧ t.belay.otp = s.belay.otp ∧ t.belay.keys = s.belay.keys ∧ t.belay.entries = s.belay.entries := by
  set f := s.fetch 0 n with hf
  have hfb : f.belay = s.belay := s.fetch_belay 0 n true
  have hop := State.signedOp_eq (s := f) (sig := sig) (o := s.opOf 0 n x) (eff := eff) hres rfl (by rw [hfb, hlife]) (by rwa [hf, State.inWindow_fetch])
  rw [hf, State.ownerSigned_fetch, ← hf] at hop
  have hb : f.spendChallenge.belay = { s.belay with challenge := none } := by rw [State.spendChallenge, hfb]
  by_cases hs : s.ownerSigned sig = true
  · rw [if_pos hs] at hop
    have hc : s.command 0 n x (fun s op => s.signedOp x sig op eff) = (eff f.spendChallenge).complete (s.opOf 0 n x) 0x00 := by
      rw [hr.command_eq]
      exact hop
    obtain ⟨hnone, hp⟩ := hgood f.spendChallenge _ hb (State.concluded_stores (eff f.spendChallenge) (s.opOf 0 n x) 0x00)
    refine ⟨_, he, ?_⟩
    rw [hc]
    dsimp only
    rw [if_pos hs]
    exact ⟨hnone, hp⟩
  · rw [if_neg hs] at hop
    refine hr.does he hop (State.spendChallenge_keeps (s.fetch_keeps' 0 n true)) ((SameCq.fetch hr).of_eq rfl rfl rfl rfl rfl) fun t ht => ?_
    rw [if_neg hs, ht.belay, hb]
    exact ⟨rfl, ht.answered, rfl, rfl, rfl⟩

theorem killDus_good {s v t : State} (hb : v.belay = { s.belay with challenge := none }) (l : Lifecycle) (ht : t.stores = (v.killDus l).stores) :
    t.belay.challenge = none ∧ t.belay.otp.dusKilled = true ∧ Left l t := by
  have htb : t.belay = (v.killDus l).belay := congrArg Prod.fst ht
  refine ⟨?_, by rw [htb, State.killDus_otp], (v.killDus_left l).of_stores ht⟩
  rw [htb, (v.killDus_defaulted l).challenge, hb]

theorem ownerRelease_does {s : State} {n : RingNo} {x : Desc} {sig : List Byte} (hr : CmdReady s 0 n x) (hres : reservedZero x [fAddr] = true)
    (hlife : s.belay.otp.life = .owned) (hsig : sig.length = 96) (hwin : s.inWindow 0 (daddr x).toNat 96 true false = true) :
    Does (.ownerRelease 0 n x sig) s fun t => t.belay.challenge = none ∧
      if s.ownerSigned sig then Left .unowned t ∧ (t.belay.otp.slots[(fin 8 s.ownerSlot : Fin 8)]).revoked = true ∧ t.belay.otp.dusKilled = s.belay.otp.dusKilled
      else Answered s t 0 n x 0x32 0 ∧ t.belay.otp = s.belay.otp ∧ t.belay.keys = s.belay.keys ∧ t.belay.entries = s.belay.entries := by
  refine signed_does (eff := State.releaseOwner) hr hres hlife hwin ?_ fun v t hb ht => ?_
  · change execOwnerRelease 0 n x sig s = _
    rw [execOwnerRelease, if_neg (by simp [hr.on]), if_neg (by simp [State.readsSig, hsig])]
    rfl
  · have htb : t.belay = v.releaseOwner.belay := congrArg Prod.fst ht
    have hslot : v.ownerSlot = s.ownerSlot := by rw [State.ownerSlot, State.ownerSlot, hb]
    refine ⟨?_, v.releaseOwner_left.of_stores ht, ?_, ?_⟩
    · rw [htb, v.releaseOwner_defaulted.challenge, hb]
    · simp [htb, State.releaseOwner_otp, hslot]
    · rw [htb, State.releaseOwner_otp, hb]

theorem retire_does {s : State} {n : RingNo} {x : Desc} {sig : List Byte} (hr : CmdReady s 0 n x) (hres : reservedZero x [fAddr] = true)
    (hlife : s.belay.otp.life = .owned) (hsig : sig.length = 96) (hwin : s.inWindow 0 (daddr x).toNat 96 true false = true) :
    Does (.retire 0 n x sig) s fun t => t.belay.challenge = none ∧
      if s.ownerSigned sig then t.belay.otp.dusKilled = true ∧ Left .retired t
      else Answered s t 0 n x 0x32 0 ∧ t.belay.otp = s.belay.otp ∧ t.belay.keys = s.belay.keys ∧ t.belay.entries = s.belay.entries := by
  refine signed_does (sig := sig) (eff := fun s => s.killDus .retired) hr hres hlife hwin ?_ fun v t hb ht => killDus_good hb .retired ht
  change execRetire 0 n x sig s = _
  rw [execRetire, if_neg (by simp [hr.on]), if_neg (by simp [State.readsSig, hsig]), hr.command_eq, hr.command_eq, State.retireOp,
    if_neg (by rw [State.fetch_belay, hlife]; decide)]

theorem rmaEnter_does {s : State} {n : RingNo} {x : Desc} {sig : List Byte} (hr : CmdReady s 0 n x) (hres : reservedZero x [fAddr] = true)
    (hlife : s.belay.otp.life = .owned) (hsig : sig.length = 96) (hwin : s.inWindow 0 (daddr x).toNat 96 true false = true) :
    Does (.rmaEnter 0 n x sig) s fun t => t.belay.challenge = none ∧
      if s.ownerSigned sig then t.belay.otp.dusKilled = true ∧ Left .rma t
      else Answered s t 0 n x 0x32 0 ∧ t.belay.otp = s.belay.otp ∧ t.belay.keys = s.belay.keys ∧ t.belay.entries = s.belay.entries := by
  refine signed_does (sig := sig) (eff := fun s => s.killDus .rma) hr hres hlife hwin ?_ fun v t hb ht => killDus_good hb .rma ht
  change execRmaEnter 0 n x sig s = _
  rw [execRmaEnter, if_neg (by simp [hr.on]), if_neg (by simp [State.readsSig, hsig])]

theorem retire_unowned_does {s : State} {n : RingNo} {x : Desc} {sig : List Byte} (hr : CmdReady s 0 n x) (hres : reservedZero x [] = true)
    (hlife : s.belay.otp.life = .unowned) : Does (.retire 0 n x sig) s fun t => t.belay.otp.dusKilled = true ∧ Left .retired t := by
  have he : exec (.retire 0 n x sig) s = finish (s.command 0 n x fun s op => s.retireOp x sig op) := by
    change execRetire 0 n x sig s = _
    rw [execRetire, if_neg (by simp [hr.on]), if_neg (by simp [State.readsSig, hlife])]
  have hc : s.command 0 n x (fun s op => s.retireOp x sig op) = ((s.fetch 0 n).killDus .retired).complete (s.opOf 0 n x) 0x00 := by
    rw [hr.command_eq, State.retireOp, if_pos (by rw [State.fetch_belay, hlife]), if_neg (by simp [hres])]
    rfl
  refine ⟨_, he, ?_, ?_⟩
  · simp [hc]
  · rw [hc]
    exact ((s.fetch 0 n).killDus_left .retired).of_stores (State.concluded_stores _ _ _)

theorem ite_prop_imp {c : Prop} [Decidable c] {p q r : Prop} (h : if c then p else r) (hpq : p → q) : if c then q else r := by
  by_cases hc : c
  · rw [if_pos hc] at h ⊢
    exact hpq h
  · rw [if_neg hc] at h ⊢
    exact h

/-! ### Resets -/

theorem State.warmTrigger_keys {s : State} (h : s.dev.ready = true) (c : BitVec 3) : (s.warmTrigger c).belay.keys = [] := by
  rw [State.warmTrigger, if_neg (by simp [h])]
  rfl

/-- Settles O25: the erasures of R52 are followed by the tables themselves, through the ends of the tenants to the partition of reset. -/
theorem ownerLeaves : Obligations.OwnerLeaves := by
  unfold Obligations.OwnerLeaves
  refine ⟨fun s n x sig hr hres hlife hsig hwin => ?_, fun s n x sig hr hres hlife hsig hwin => ?_, fun s n x sig hr hres hlife => ?_,
    fun s n x sig hr hres hlife hsig hwin => ?_, fun s => ⟨_, rfl, rfl⟩, fun s v hs hv => ?_, fun s hs hdue => ?_, fun s hs => ?_, fun s sig c hc => ?_⟩
  · obtain ⟨t, he, hch, h⟩ := ownerRelease_does hr hres hlife hsig hwin
    exact ⟨t, he, hch, ite_prop_imp h fun ⟨hl, hrev, hdus⟩ => ⟨hl.life, hrev, hl.keys, hl.tarn, hl.flt, hl.objs, hl.owner, hl.tenants, hdus⟩⟩
  · obtain ⟨t, he, hch, h⟩ := retire_does hr hres hlife hsig hwin
    exact ⟨t, he, hch, ite_prop_imp h fun ⟨hdus, hl⟩ => ⟨hl.life, hdus, hl.keys, hl.tarn, hl.flt, hl.objs, hl.owner, hl.tenants⟩⟩
  · obtain ⟨t, he, hdus, hl⟩ := retire_unowned_does hr hres hlife
    exact ⟨t, he, hl.life, hdus, hl.keys, hl.tarn⟩
  · obtain ⟨t, he, hch, h⟩ := rmaEnter_does hr hres hlife hsig hwin
    exact ⟨t, he, hch, ite_prop_imp h fun ⟨hdus, hl⟩ => ⟨hl.life, hdus, hl.keys, hl.tarn, hl.flt, hl.objs, hl.owner, hl.tenants⟩⟩
  · have hserve : s.answers = true := (Bool.and_eq_true_iff.1 hs).1
    have hready : s.dev.ready = true := (Bool.and_eq_true_iff.1 hserve).1
    refine ⟨s.warmTrigger 2, ?_, State.warmTrigger_keys hready 2⟩
    change (if _ then _ else _) = _
    rw [if_neg (by simp [hs, State.active]), if_neg (by simp), if_pos hv]
  · refine ⟨s.warmTrigger 3, ?_, State.warmTrigger_keys hs 3⟩
    change (if _ then _ else _) = _
    rw [if_pos hdue]
  · exact ⟨_, rfl, State.warmTrigger_keys hs 4⟩
  · obtain ⟨t, he, -, h⟩ := debugUnlock_does (sig := sig) hc
    refine ⟨t, he, fun hgood => ?_⟩
    rw [if_pos (show s.jtagSigned c sig = true from hgood)] at h
    exact h.2.1

end Sys2Proof.Machine

namespace Sys2Proof.Machine

/-! ### The end of a partition record (R26, R28) -/

/-- Every part but the trust state. -/
def noTrust : List Part := everyPart.erase .trust

theorem mem_noTrust {p : Part} (h : p ≠ .trust) : p ∈ noTrust := (List.mem_erase_of_ne h).2 (mem_everyPart p)

/-- A record is applied in both states or in neither, with the same RESULT. -/
def SameBusy (s t : State) : Prop := t.belay.applying.isSome = s.belay.applying.isSome ∧ t.belay.result = s.belay.result

section busy
variable {s t u : State}

theorem SameBusy.refl (s : State) : SameBusy s s := ⟨rfl, rfl⟩

theorem SameBusy.trans (h : SameBusy s t) (g : SameBusy t u) : SameBusy s u := ⟨g.1.trans h.1, g.2.trans h.2⟩

theorem SameBusy.of_belay (h : t.belay = s.belay) : SameBusy s t := by rw [SameBusy, h]; exact ⟨rfl, rfl⟩

theorem Only.sameBusy (h : Only noTrust s t) : SameBusy s t := by
  obtain ⟨ha, hr, -⟩ := h.2 .trust (by decide)
  exact ⟨by rw [ha], hr⟩

theorem SameBusy.foldl {α : Type} {f : State → α → State} (hf : ∀ s a, SameBusy s (f s a)) (l : List α) (s : State) : SameBusy s (l.foldl f s) := by
  induction l generalizing s with
  | nil => exact SameBusy.refl s
  | cons a l ih => exact (hf s a).trans (ih _)

theorem State.holdBack_sameBusy (s : State) (h : Held) : SameBusy s (s.holdBack h) := by
  unfold State.holdBack
  split
  next a ha => exact ⟨by rw [ha]; rfl, rfl⟩
  next => exact SameBusy.refl s

theorem State.takeHeld_sameBusy (s : State) (f : Op → Bool) : SameBusy s (s.takeHeld f).1 := by
  unfold State.takeHeld
  split
  next => exact SameBusy.refl s
  next a ha => exact ⟨by rw [ha]; rfl, rfl⟩

theorem State.portRequest_sameBusy (s : State) (d : Dom) (p : PortId) (c : Nat) : SameBusy s (s.portRequest d p c) := by
  unfold State.portRequest
  split
  · exact s.holdBack_sameBusy _
  split
  · exact SameBusy.refl s
  · apply Only.sameBusy
    apply State.portCommand_only (Only.refl s) <;> exact mem_noTrust nofun

theorem State.groupRequest_sameBusy (s : State) (d : Dom) (k : GrpId) (v : Word) : SameBusy s (s.groupRequest d k v) := by
  unfold State.groupRequest
  split
  · exact s.holdBack_sameBusy _
  · apply Only.sameBusy
    apply State.groupCommand_only (Only.refl s) <;> exact mem_noTrust nofun

theorem State.membersRequest_sameBusy (s : State) (d : Dom) (k : GrpId) (v : Word) : SameBusy s (s.membersRequest d k v) := by
  unfold State.membersRequest
  dsimp only
  split
  · exact s.holdBack_sameBusy _
  · apply Only.sameBusy
    apply State.writeFields_only (Only.refl s) <;> exact mem_noTrust nofun

theorem State.complete_sameBusy (s : State) (o : Op) (st : Byte) (i0 : Word) : SameBusy s (s.complete o st i0) :=
  SameBusy.of_belay (s.complete_belay o st i0 0 none 0xFF)

theorem State.holdRequest_sameBusy (s : State) (t : Nat) (time : Word) (o : Op) : SameBusy s (s.holdRequest t time o) := by
  unfold State.holdRequest
  split
  · split
    · exact s.complete_sameBusy _ _ _
    split
    · exact s.holdBack_sameBusy _
    split
    · exact SameBusy.refl s
    · apply Only.sameBusy
      apply State.holdPort_only (Only.refl s) <;> exact mem_noTrust nofun
  · split
    · exact s.complete_sameBusy _ _ _
    split
    · exact s.holdBack_sameBusy _
    · apply Only.sameBusy
      apply State.holdGroup_only (Only.refl s) <;> exact mem_noTrust nofun
  · exact s.complete_sameBusy _ _ _

theorem State.rtWriteOp_sameBusy (s : State) (x : Desc) (bytes : List Byte) (o : Op) : SameBusy s (s.rtWriteOp x bytes o) := by
  unfold State.rtWriteOp
  dsimp only
  split
  · exact s.complete_sameBusy _ _ _
  split
  · exact s.complete_sameBusy _ _ _
  split
  · exact s.complete_sameBusy _ _ _
  split
  · exact s.holdBack_sameBusy _
  split
  · exact s.complete_sameBusy _ _ _
  · refine (SameBusy.foldl (fun s i => ?_) _ s).trans (State.complete_sameBusy _ _ _ _)
    apply Only.sameBusy
    apply State.rtPut_only (Only.refl s) <;> exact mem_noTrust nofun

theorem State.msixRequest_sameBusy (s : State) (d : Dom) (en fm : Bool) : SameBusy s (s.msixRequest d en fm) := by
  unfold State.msixRequest
  split
  · exact s.holdBack_sameBusy _
  · apply Only.sameBusy
    apply State.flushVectors_only (State.setFunc_only (Only.refl s) _) <;> exact mem_noTrust nofun

theorem State.withdrawCmd_sameBusy (s : State) (d : Dom) (n : RingNo) : SameBusy s (s.withdrawCmd d n) := by
  unfold State.withdrawCmd
  exact (s.takeHeld_sameBusy _).trans (SameBusy.foldl (fun s o => s.complete_sameBusy o 0x13 0) _ _)

theorem State.disableRing_sameBusy (s : State) (d : Dom) (n : RingNo) (stops : Bool) : SameBusy s (s.disableRing d n stops) := by
  unfold State.disableRing
  extract_lets i cfg u
  have hu : SameBusy s u := SameBusy.of_belay rfl
  refine hu.trans ?_
  split
  · split
    · apply Only.sameBusy
      apply State.withdrawEth_only (Only.refl u) <;> exact mem_noTrust nofun
    · apply Only.sameBusy
      apply State.fillSlots_only (State.withdrawRing_only (Only.refl u) (mem_noTrust nofun)) <;> exact mem_noTrust nofun
  · apply Only.sameBusy
    apply State.withdrawRx_only (Only.refl u) <;> exact mem_noTrust nofun
  · exact State.withdrawCmd_sameBusy u d n
  · exact SameBusy.refl u

theorem State.writeRingCfg_sameBusy (s : State) (d : Dom) (n : RingNo) (v : Word) : SameBusy s (s.writeRingCfg d n v) := by
  unfold State.writeRingCfg
  extract_lets i was u
  have hu : SameBusy s u := by
    apply Only.sameBusy
    apply State.writeFields_only (Only.refl s) <;> exact mem_noTrust nofun
  refine hu.trans ?_
  split
  · apply Only.sameBusy
    apply State.enableRing_only (Only.refl u) <;> exact mem_noTrust nofun
  split
  · exact State.disableRing_sameBusy u d n false
  · exact SameBusy.refl u

theorem State.actOp_sameBusy {s : State} {o : Op} {f : State → State} (hf : SameBusy s (f s)) : SameBusy s (s.actOp o f) := by
  unfold State.actOp
  split
  · exact hf
  · exact SameBusy.refl s

theorem SameBusy.ite {c : Prop} [Decidable c] (h : SameBusy s t) : SameBusy s (if c then t else s) := by
  split
  · exact h
  · exact SameBusy.refl s

theorem State.actHeld_sameBusy (s : State) (h : Held) : SameBusy s (s.actHeld h) := by
  cases h with
  | portCmd d p c => exact (s.portRequest_sameBusy d p c).ite
  | ringCfg d n v => exact (s.writeRingCfg_sameBusy d n v).ite
  | grpCmd d k v => exact (s.groupRequest_sameBusy d k v).ite
  | epCfg d k v =>
    refine SameBusy.ite (Only.sameBusy ?_)
    apply State.writeEpCfg_only (Only.refl s) <;> exact mem_noTrust nofun
  | grpMembers d k v => exact (s.membersRequest_sameBusy d k v).ite
  | hold o t time => exact State.actOp_sameBusy (s.holdRequest_sameBusy t time o)
  | msix d en fm => exact (s.msixRequest_sameBusy d en fm).ite
  | rtWrite o x bytes => exact State.actOp_sameBusy (s.rtWriteOp_sameBusy x bytes o)
  | reclaimStop p =>
    refine Only.sameBusy ?_
    apply State.reclaimStop_only (Only.refl s) <;> exact mem_noTrust nofun

/-- The record is over: BUSY falls, RESULT is a's, and it is logged (R26, R446). -/
def State.recordOver (s : State) (a : Applying) : State :=
  { s with belay := { s.belay with applying := none, result := a.result } }.record 0 2 false 0x01 0x03 (BitVec.ofNat 32 (a.kind.toNat + 256 * a.dom.toNat))
    (a.result.setWidth 32)

theorem execRecordComplete_ends {a : Applying} (ha : s.belay.applying = some a) (h : a.kind ≠ 4 ∨ a.result ≠ 0 ∨ s.reclaimDone a = true) :
    execRecordComplete s = finish (a.held.foldl (fun s h => s.actHeld h) (s.recordOver a)) := by
  unfold execRecordComplete
  rw [ha]
  dsimp only
  rw [if_neg]
  · rfl
  · simp only [Bool.and_eq_true, decide_eq_true_eq, beq_iff_eq, Bool.not_eq_true']
    rintro ⟨⟨hk, hr⟩, hd⟩
    rcases h with h | h | h
    · exact h hk
    · exact h hr
    · rw [hd] at h
      cases h

theorem recordComplete_ends {a : Applying} (ha : s.belay.applying = some a) (h : a.kind ≠ 4 ∨ a.result ≠ 0 ∨ s.reclaimDone a = true) :
    Does .recordComplete s fun t => t.belay.applying = none ∧ t.belay.result = a.result := by
  obtain ⟨hbusy, hres⟩ := SameBusy.foldl (fun s h => s.actHeld_sameBusy h) a.held (s.recordOver a)
  have hb : (s.recordOver a).belay = { s.belay with applying := none, result := a.result } := by simp [State.recordOver]
  rw [hb] at hbusy hres
  refine ⟨_, execRecordComplete_ends ha h, ?_, ?_⟩
  · rw [State.announce_belay, State.noteMay_belay]
    exact Option.isSome_eq_false_iff.1 hbusy |> Option.isNone_iff_eq_none.1
  · rw [State.announce_belay, State.noteMay_belay, hres]

/-- A record enters the intake queue where the log firmware runs and there is room (R451). -/
theorem State.record_queues (h : s.dev.absent.getLsbD 0 = false) (hroom : s.log.intake.length < 256) (dom : BitVec 5) (sev : BitVec 3) (sens : Bool)
    (src code : Byte) (a0 a1 : Word) : (s.record dom sev sens src code a0 a1).log = { s.log with intake := s.log.intake ++ [(s.raw,
      { t := s.short s.raw, dom := dom, severity := sev, sensitive := sens, source := src, code := code, arg0 := a0, arg1 := a1 })] } := by
  unfold State.record
  dsimp only
  rw [if_neg (by rw [h]; decide), if_neg (by omega)]

theorem recordComplete_quiet {a : Applying} (ha : s.belay.applying = some a) (hheld : a.held = []) (h : a.kind ≠ 4 ∨ a.result ≠ 0 ∨ s.reclaimDone a = true)
    (habs : s.dev.absent.getLsbD 0 = false) (hroom : s.log.intake.length < 256) :
    Does .recordComplete s fun t => t.ports = s.ports ∧ SameRegs s t ∧ t.rings = s.rings ∧ ∃ r, Logged s t [(s.raw, r)] ∧
      r.source = 0x01 ∧ r.code = 0x03 ∧ r.arg0 = BitVec.ofNat 32 (a.kind.toNat + 256 * a.dom.toNat) ∧ r.arg1 = a.result.setWidth 32 := by
  have he := execRecordComplete_ends ha h
  rw [hheld, List.foldl_nil] at he
  have hlog := State.record_queues (s := { s with belay := { s.belay with applying := none, result := a.result } }) habs hroom 0 2 false 0x01 0x03
    (BitVec.ofNat 32 (a.kind.toNat + 256 * a.dom.toNat)) (a.result.setWidth 32)
  refine ⟨_, he, ?_, SameRegs.of_regs (by simp [State.recordOver]), ?_, _, Logged.of_log hlog, rfl, rfl, rfl, rfl⟩
  · simp [State.recordOver]
  · simp [State.recordOver]

theorem recordComplete_waits {a : Applying} (ha : s.belay.applying = some a) (hk : a.kind = 4) (hr : a.result = 0) (hd : s.reclaimDone a = false) :
    Does .recordComplete s fun t => t = s := by
  refine ⟨s, ?_, rfl⟩
  change execRecordComplete s = _
  unfold execRecordComplete
  rw [ha]
  dsimp only
  rw [if_pos (by simp [hk, hr, hd])]

end busy

/-- Settles O13: what a record held back may act on the queue of held requests but begins no record, so BUSY stays down. -/
theorem recordEnds : Obligations.RecordEnds := by
  unfold Obligations.RecordEnds
  exact ⟨fun _ _ ha h => recordComplete_ends ha h, fun _ _ ha hheld h habs hroom => recordComplete_quiet ha hheld h habs hroom,
    fun _ _ ha hk hr hd => recordComplete_waits ha hk hr hd⟩

end Sys2Proof.Machine

namespace Sys2Proof.Machine

/-! ### A reclaim of a domain whose entry is not valid -/

/-- The device is READY and OWNED, and D0's ring 0 is enabled. The entry of tenant 1 is not valid, its RING_COUNT names that ring too, and a reclaim of
the rings of tenant 1 is staged. -/
def staleReclaim : State :=
  let s : State := { State.reset with
    dev := { ready := true }
    belay := { otp := { life := .owned }, entries := (Vector.replicate 16 ({} : Entry)).set 0 Entry.ownerReset |>.set 1 { ringCount := 1 } } }
  ((s.setReg (.domStage 0) 0x104).setReg (.domStage 2) 0x100).setReg (ringReg 0 .cfg) 1

theorem staleReclaim_checked : Writes staleReclaim 0 0 ∧ staleReclaim.belay.applying = none ∧ recKind staleReclaim.stageBytes = 4 ∧
    staleReclaim.checkRecord staleReclaim.stageBytes = 0 := by decide +kernel

theorem staleReclaim_named : (0 : RingNo).val < (staleReclaim.entry (fin 16 (recDom staleReclaim.stageBytes))).ringCount ∧
    leAt staleReclaim.stageBytes 9 1 % 2 = 1 ∧
    ringType (staleReclaim.ringCfg (staleReclaim.dring (fin 16 (recDom staleReclaim.stageBytes)) 0)) ≠ 3 := by decide +kernel

/-- What the ring that the stale entry names is after a command. -/
def staleRingOn (r : Result) : Bool :=
  match r with
  | .next t => bit (t.ringCfg (staleReclaim.dring (fin 16 (recDom staleReclaim.stageBytes)) 0)) 0
  | _ => false

theorem staleReclaim_ringOn : staleRingOn (exec (.reclaim 0 1) staleReclaim) = true := by decide +kernel

/-- Refutes O12: the fourth clause takes the rings of the domain by RING_COUNT alone, but an entry that is not valid holds no ring (R22). A reclaim
of such a domain leaves them as they are, and the ring may be one of D0. -/
theorem not_recordsApply : ¬ Obligations.RecordsApply := by
  unfold Obligations.RecordsApply
  rintro ⟨-, -, -, hreclaim⟩
  obtain ⟨hwrites, hidle, hkind, hcheck⟩ := staleReclaim_checked
  obtain ⟨hcount, hflag, htype⟩ := staleReclaim_named
  obtain ⟨t, he, hrings, -⟩ := hreclaim staleReclaim 0 1 hwrites rfl hidle hkind hcheck
  have hon := staleReclaim_ringOn
  rw [he] at hon
  exact Bool.false_ne_true ((hrings 0 hcount hflag htype).symm.trans hon)

end Sys2Proof.Machine

namespace Sys2Proof.Machine

/-! ### Time that passes leaves a function but for its stamp queue -/

/-- A function without its TX timestamp queue. -/
def Func.noTsq (f : Func) : Func := { f with tsqProd := 0, tsqCons := 0, tsqLost := 0, tsqRun := false }

/-- The functions are the same but for their stamp queues. -/
def SameFuncs (s t : State) : Prop := ∀ d, (t.func d).noTsq = (s.func d).noTsq

section funcs
variable {s t u : State}

theorem SameFuncs.trans (h : SameFuncs s t) (g : SameFuncs t u) : SameFuncs s u := fun d => (g d).trans (h d)

theorem SameFuncs.of_funcs (h : t.funcs = s.funcs) : SameFuncs s t := fun d => by rw [State.func, State.func, h]

theorem SameFuncs.foldl {α : Type} {f : State → α → State} (hf : ∀ s a, SameFuncs s (f s a)) (l : List α) (s : State) : SameFuncs s (l.foldl f s) := by
  induction l generalizing s with
  | nil => exact SameFuncs.of_funcs rfl
  | cons a l ih => exact (hf s a).trans (ih _)

theorem SameFuncs.setFunc {d : Dom} {f : Func} (h : f.noTsq = (s.func d).noTsq) : SameFuncs s (s.setFunc d f) := by
  intro e
  by_cases he : e = d
  · rw [he, State.func_setFunc_same, h]
  · rw [State.func_setFunc_other _ _ _ _ he]

/-- Every part but the functions. -/
def notFuncs : List Part := everyPart.erase .funcs

theorem mem_notFuncs {p : Part} (h : p ≠ .funcs) : p ∈ notFuncs := (List.mem_erase_of_ne h).2 (mem_everyPart p)

theorem Only.sameFuncs (h : Only notFuncs s t) : SameFuncs s t := SameFuncs.of_funcs (h.2 .funcs (by decide))

theorem State.tsqEntry_sameFuncs (s : State) (d : Dom) (tag : Half) (ring kind : Nat) (port : Byte) (tail : List Byte) :
    SameFuncs s (s.tsqEntry d tag ring kind port tail) := by
  unfold State.tsqEntry
  split
  · exact SameFuncs.of_funcs rfl
  · extract_lets f full cons u v w ovf b2 e x
    have hu : SameFuncs s u := by
      unfold u
      split <;> exact SameFuncs.of_funcs rfl
    have hf : f.noTsq = (u.func d).noTsq := (hu d).symm
    split
    · have hw : SameFuncs s w := hu.trans (SameFuncs.setFunc hf)
      split
      · exact hw
      · exact hw
    · have hx : SameFuncs s x := hu.trans (SameFuncs.setFunc hf)
      refine hx.trans (Only.sameFuncs ?_)
      apply State.doorbell_only (Only.refl x); exact mem_notFuncs nofun

theorem State.tsqStamp_sameFuncs (s : State) (o : Op) (kind : Nat) (port : Byte) (st : BitVec 36) : SameFuncs s (s.tsqStamp o kind port st) := by
  unfold State.tsqStamp
  split
  · exact SameFuncs.of_funcs rfl
  · exact State.tsqEntry_sameFuncs _ _ _ _ _ _ _

theorem State.leaveSet_sameFuncs (s : State) (p : PortId) (c : Cand) (status : Byte) (stamp : Option (BitVec 36)) :
    SameFuncs s (s.leaveSet p c status stamp) := by
  unfold State.leaveSet
  extract_lets x gone s1 s2 s3
  have h2 : SameFuncs s s2 := by
    apply Only.sameFuncs
    apply State.clearPending_only (State.setPort_only (Only.refl s) (mem_notFuncs nofun)); exact mem_notFuncs nofun
  have h3 : SameFuncs s2 s3 := by
    unfold s3
    split
    · exact SameFuncs.of_funcs rfl
    · apply Only.sameFuncs
      apply State.complete_only (Only.refl s2) <;> exact mem_notFuncs nofun
  split
  · split
    · exact (h2.trans h3).trans (State.tsqStamp_sameFuncs _ _ _ _ _)
    · exact h2.trans h3
  · exact h2.trans h3

theorem State.fillSlots_sameFuncs (s : State) (p : PortId) (n : Nat) : SameFuncs s (s.fillSlots p n) := by
  induction n generalizing s with
  | zero => exact SameFuncs.of_funcs rfl
  | succ n ih =>
    rw [State.fillSlots]
    dsimp only
    split
    · exact SameFuncs.of_funcs rfl
    · split
      · exact SameFuncs.of_funcs rfl
      · split
        · exact (State.leaveSet_sameFuncs _ _ _ _ _).trans (ih _)
        · exact (SameFuncs.of_funcs rfl).trans (ih _)

theorem State.endCand_sameFuncs (s : State) (p : PortId) (c : Cand) (status : Byte) (stamp : Option (BitVec 36)) :
    SameFuncs s (s.endCand p c status stamp) :=
  (s.leaveSet_sameFuncs p c status stamp).trans (State.fillSlots_sameFuncs _ p 32)

theorem State.settle_sameFuncs (s : State) : SameFuncs s s.settle :=
  SameFuncs.foldl (fun _ _ => (SameFuncs.foldl (fun _ _ => State.endCand_sameFuncs _ _ _ _ _) _ _).trans (State.fillSlots_sameFuncs _ _ _)) _ s

/-- The raw counter set to an instant. -/
def State.setRaw (s : State) (r : DWord) : State := { s with tmu := { s.tmu with raw := r } }

theorem State.setRaw_sameFuncs (s : State) (r : DWord) : SameFuncs s (s.setRaw r) := SameFuncs.of_funcs rfl

theorem State.advance_eq (s : State) (r : DWord) : s.advance r =
    if s.tmu.started && decide (s.raw < r) then (if s.nextUs ≤ r then (s.setRaw s.nextUs).settle else s).setRaw r else s := rfl

theorem State.advance_sameFuncs (s : State) (r : DWord) : SameFuncs s (s.advance r) := by
  rw [State.advance_eq]
  split
  · refine SameFuncs.trans ?_ (State.setRaw_sameFuncs _ r)
    split
    · exact (s.setRaw_sameFuncs _).trans (State.settle_sameFuncs _)
    · exact SameFuncs.of_funcs rfl
  · exact SameFuncs.of_funcs rfl

end funcs

end Sys2Proof.Machine

namespace Sys2Proof.Machine

/-! ### Claims and EOI (R422, R423) -/

/-- A value other than the default is read back, whatever the form of the table. -/
theorem Tbl.get_put_same_of_ne {α : Type} [DecidableEq α] {dflt : α} (t : Tbl α) (i : Nat) {v : α} (hv : v ≠ dflt) :
    Tbl.get dflt (Tbl.put dflt t i v) i = v := by
  induction t with
  | nil => simp [Tbl.put, Tbl.get, hv]
  | cons e t ih =>
    obtain ⟨k, u⟩ := e
    rw [Tbl.put]
    split
    · rw [Tbl.get, if_pos rfl]
    · split
      next h => rw [Tbl.get, if_pos rfl]
      next h => rw [Tbl.get, if_neg (Ne.symm h), ih]

section claims
variable {s u t : State} {d : Dom} {t0 : Fin 128} {v : Word} {w : Half}

/-- What a command that only signals leaves of the registers. -/
theorem SameRegs.of_signals (h : Signals s u) : SameRegs s u.noteMay.announce := by
  intro r
  have ha := u.noteMay.announce_signals
  by_cases hr : blockOf r = .guard
  · refine .inr ⟨hr, ?_⟩
    calc s.reg r &&& u.noteMay.announce.reg r = s.reg r &&& u.reg r &&& u.noteMay.announce.reg r := by rw [h.guard r]
      _ = s.reg r &&& (u.noteMay.reg r &&& u.noteMay.announce.reg r) := BitVec.and_assoc _ _ _
      _ = s.reg r := by rw [ha.guard r, State.noteMay_reg, h.guard r]
  · exact .inl ((ha.regs r hr).trans (h.regs r hr))

theorem announced_stack (u : State) (d : Dom) (k : Nat) : u.noteMay.announce.stack d k = u.stack d k := by
  rw [State.stack, u.noteMay.announce_signals.claim]
  rfl

theorem announced_vstacks (u : State) : u.noteMay.announce.evc.vstacks = u.evc.vstacks := u.noteMay.announce_signals.vector

theorem State.stormCount_unguarded {x : Nat} (h : s.rb (.evcSrc d (fin 256 x)) 13 = false) : s.stormCount d x = s := by
  unfold State.stormCount
  dsimp only
  rw [if_pos (by simp [h])]

theorem evcClaim_does {x : Nat} (ht : t0.val < (s.entry d).msixCount) (hs : s.serves = true) (ha : s.active d = true) (hc : s.claimed d t0.val = some x)
    (hg : s.rb (.evcSrc d (fin 256 x)) 13 = false) :
    Does (.evcClaim d t0) s fun t => t.stack d t0.val = (x, s.srcPrio d x) :: s.stack d t0.val ∧ SameRegs s t ∧ Logged s t [] := by
  let u : State := { s with evc := { s.evc with claimStacks := Tbl.put [] s.evc.claimStacks (tgtKey d t0.val) ((x, s.srcPrio d x) :: s.stack d t0.val) } }
  have he : exec (.evcClaim d t0) s = finish u := by
    change execEvcClaim d t0 s = _
    unfold execEvcClaim
    rw [if_neg (by simp [hs, ha, ht]), hc]
    exact congrArg finish (State.stormCount_unguarded (s := u) hg)
  refine ⟨_, he, ?_, SameRegs.of_regs rfl, Logged.of_log ?_⟩
  · rw [announced_stack]
    exact Tbl.get_put_same_of_ne _ _ (List.cons_ne_nil _ _)
  · rw [List.append_nil]

theorem evcClaim_none (ht : t0.val < (s.entry d).msixCount) (hs : s.serves = true) (ha : s.active d = true) (hc : s.claimed d t0.val = none) :
    Does (.evcClaim d t0) s fun t => t = s := by
  refine ⟨s, ?_, rfl⟩
  change execEvcClaim d t0 s = _
  unfold execEvcClaim
  rw [if_neg (by simp [hs, ha, ht]), hc]

theorem evcEoi_exec (ht : t0.val < (s.entry d).msixCount) (hs : s.serves = true) (ha : s.active d = true) :
    exec (.evcEoi d (.claim t0 v) w) s = finish (s.eoiOp d t0 w) := by
  change execEvcEoi d (.claim t0 v) w s = _
  unfold execEvcEoi
  dsimp only
  rw [if_neg (by simp [hs, State.present_of_active ha]), if_neg (by simp [ha, ht])]

theorem evcEoi_does {x q : Nat} {rest : List (Nat × Nat)} (ht : t0.val < (s.entry d).msixCount) (hs : s.serves = true) (ha : s.active d = true)
    (hst : s.stack d t0.val = (x, q) :: rest) (hx : 64 < x) (hwf : Tbl.wf [] s.evc.claimStacks = true) :
    Does (.evcEoi d (.claim t0 v) w) s fun t => t.stack d t0.val = rest ∧ SameRegs s t ∧ t.rings = s.rings ∧ Logged s t [] := by
  let u : State := { s with evc := { s.evc with
    claimStacks := Tbl.put [] s.evc.claimStacks (tgtKey d t0.val) rest
    announced := s.evc.announced.filter (fun x => decide (dueDom x ≠ d ∨ dueTgt x ≠ t0.val)) } }
  have hu : s.eoiOp d t0 w = u := by
    unfold State.eoiOp
    rw [hst]
    dsimp only
    rw [if_neg (by omega)]
  refine ⟨_, evcEoi_exec ht hs ha, ?_⟩
  rw [hu]
  refine ⟨?_, SameRegs.of_regs rfl, ?_, Logged.of_log ?_⟩
  · rw [announced_stack]
    exact Tbl.get_put_same _ _ _ hwf
  · rw [State.announce_rings]
    rfl
  · rw [List.append_nil]

/-- A command that does no more than write a record. -/
theorem recorded (habs : s.dev.absent.getLsbD 0 = false) (hroom : s.log.intake.length < 256) (dom : BitVec 5) (sev : BitVec 3) (sens : Bool)
    (src code : Byte) (a0 a1 : Word) : let t := (s.record dom sev sens src code a0 a1).noteMay.announce
    t.evc.claimStacks = s.evc.claimStacks ∧ SameRegs s t ∧ t.rings = s.rings ∧ ∃ r, Logged s t [(s.raw, r)] ∧
      r.source = src ∧ r.code = code ∧ r.dom = dom ∧ r.arg0 = a0 ∧ r.arg1 = a1 := by
  refine ⟨?_, SameRegs.of_regs (by simp), by simp, _, Logged.of_log (State.record_queues habs hroom dom sev sens src code a0 a1), rfl, rfl, rfl, rfl, rfl⟩
  rw [(State.announce_signals _).claim, State.noteMay_evc, State.record_evc]

theorem evcEoi_unclaimed (ht : t0.val < (s.entry d).msixCount) (hs : s.serves = true) (ha : s.active d = true) (hst : s.stack d t0.val = [])
    (habs : s.dev.absent.getLsbD 0 = false) (hroom : s.log.intake.length < 256) :
    Does (.evcEoi d (.claim t0 v) w) s fun t => SameRegs s t ∧ t.rings = s.rings ∧
      ∃ r, Logged s t [(s.raw, r)] ∧ r.source = 0x0B ∧ r.code = 0x02 ∧ r.dom = domCode d ∧ r.arg0 = BitVec.ofNat 32 t0.val := by
  have hu : s.eoiOp d t0 w = s.record (domCode d) 3 false 0x0B 0x02 (BitVec.ofNat 32 t0.val) 0 := by
    unfold State.eoiOp
    rw [hst]
  obtain ⟨-, hregs, hrings, r, hlog, hsrc, hcode, hdom, harg, -⟩ := recorded habs hroom (domCode d) 3 false 0x0B 0x02 (BitVec.ofNat 32 t0.val) 0
  rw [← hu] at hregs hrings hlog
  exact ⟨_, evcEoi_exec ht hs ha, hregs, hrings, r, hlog, hsrc, hcode, hdom, harg⟩

theorem evcEoi_beyond (ht : (s.entry d).msixCount ≤ t0.val) (hs : s.serves = true) (ha : s.active d = true) (habs : s.dev.absent.getLsbD 0 = false)
    (hroom : s.log.intake.length < 256) :
    Does (.evcEoi d (.claim t0 v) w) s fun t => t.evc.claimStacks = s.evc.claimStacks ∧ SameRegs s t ∧ t.rings = s.rings ∧
      ∃ r, Logged s t [(s.raw, r)] ∧ r.source = 0x01 ∧ r.code = 0x02 ∧ r.dom = domCode d ∧ r.arg1 = v := by
  have he : exec (.evcEoi d (.claim t0 v) w) s = finish (s.crossDomain d (Reg.evcEoi d t0).off v) := by
    change execEvcEoi d (.claim t0 v) w s = _
    unfold execEvcEoi
    dsimp only
    rw [if_neg (by simp [hs, State.present_of_active ha]), if_pos (Or.inl ht)]
  obtain ⟨hstacks, hregs, hrings, r, hlog, hsrc, hcode, hdom, -, harg⟩ :=
    recorded habs hroom (domCode d) 3 true 0x01 0x02 (BitVec.ofNat 32 (Reg.evcEoi d t0).off) v
  exact ⟨_, he, hstacks, hregs, hrings, r, hlog, hsrc, hcode, hdom, harg⟩

end claims

/-! ### The vector level (R425, R429, R430) -/

section vectors
variable {s u : State}

theorem vecEoi_does {d : Dom} {v : VecTarget} {w : Half} {a : Nat × Nat} {rest : List (Nat × Nat)}
    (hst : Tbl.get [] s.evc.vstacks (s.vecOwner v) = a :: rest) (hwf : Tbl.wf [] s.evc.vstacks = true)
    (hheld : rest ≠ [] ∨ (Tbl.get (0, []) s.evc.heldVecs (vecCode v)).2 = []) :
    Does (.evcEoi d (.vector v) w) s fun t => Tbl.get [] t.evc.vstacks (s.vecOwner v) = rest ∧
      (∀ k, k ≠ s.vecOwner v → Tbl.get [] t.evc.vstacks k = Tbl.get [] s.evc.vstacks k) ∧ SameRegs s t ∧ Logged s t [] := by
  have hu : (s.vecEoi v).evc.vstacks = Tbl.put [] s.evc.vstacks (s.vecOwner v) rest ∧ (s.vecEoi v).regs = s.regs ∧ (s.vecEoi v).log = s.log := by
    unfold State.vecEoi
    dsimp only
    rw [hst]
    dsimp only
    split
    · exact ⟨rfl, rfl, rfl⟩
    · rw [if_pos (hheld.resolve_left ‹_›)]
      exact ⟨rfl, rfl, rfl⟩
  obtain ⟨hstacks, hregs, hlog⟩ := hu
  refine ⟨_, rfl, ?_, fun k hk => ?_, SameRegs.of_regs hregs, Logged.of_log ?_⟩
  · rw [announced_vstacks, hstacks]
    exact Tbl.get_put_same _ _ _ hwf
  · rw [announced_vstacks, hstacks]
    exact Tbl.get_put_other _ _ _ _ hk
  · rw [hlog, List.append_nil]

/-! The wait states of the vector level are not touched by what a command ends with. -/

theorem State.record_awake (s : State) (dom : BitVec 5) (sev : BitVec 3) (sens : Bool) (src code : Byte) (a0 a1 : Word) :
    (s.record dom sev sens src code a0 a1).evc.awake = s.evc.awake := by rw [State.record_evc]

theorem State.stormCount_awake (s : State) (d : Dom) (x : Nat) : (s.stormCount d x).evc.awake = s.evc.awake := by
  unfold State.stormCount
  dsimp only
  split
  · rfl
  · split
    · rw [State.record_awake]
      rfl
    · rfl

theorem awake_foldl {α : Type} {f : State → α → State} (hf : ∀ s a, (f s a).evc.awake = s.evc.awake) (l : List α) (s : State) :
    (l.foldl f s).evc.awake = s.evc.awake := by
  induction l generalizing s with
  | nil => rfl
  | cons a l ih => rw [List.foldl_cons, ih, hf]

theorem State.message_awake (s : State) (d : Dom) (k : Nat) (xs : List Nat) : (s.message d k xs).evc.awake = s.evc.awake := by
  unfold State.message
  dsimp only
  split
  · rfl
  · rw [awake_foldl fun s x => s.stormCount_awake d x]
    split
    · rfl
    · rfl

theorem State.announceAt_awake (s : State) (d : Dom) (k : Nat) (xs : List Nat) : (s.announceAt d k xs).evc.awake = s.evc.awake := by
  unfold State.announceAt
  split
  · exact State.message_awake _ _ _ _
  · split
    · exact State.message_awake _ _ _ _
    · rfl

theorem announced_awake (u : State) : u.noteMay.announce.evc.awake = u.evc.awake := by
  unfold State.announce
  exact awake_foldl (fun s x => s.announceAt_awake _ _ _) _ _

/-- The storm guard of the vector level writes its own records alone. -/
theorem State.stormVector_keeps_others (s : State) (v : VecTarget) (key : Nat) (x : VecSource) :
    (s.stormVector v key x).out = s.out ∧ (s.stormVector v key x).regs = s.regs ∧ (s.stormVector v key x).evc.vstacks = s.evc.vstacks ∧
      (s.stormVector v key x).evc.awake = s.evc.awake := by
  unfold State.stormVector
  dsimp only
  split
  · exact ⟨rfl, rfl, rfl, rfl⟩
  · split
    · rw [State.record_out, State.record_regs, State.record_evc]
      exact ⟨rfl, rfl, rfl, rfl⟩
    · exact ⟨rfl, rfl, rfl, rfl⟩

/-- What a vector to a leaf leaves: the message at the address of its source, and its priority on the stack. -/
structure VectorSent (s u : State) (e : EngId) (x : VecSource) : Prop where
  out : u.out = s.out ++ [.vector (.leaf e) x.src (Config.vectorBase (4 + e.val) + BitVec.ofNat 32 (16 * x.src.toNat))]
  regs : u.regs = s.regs
  vstacks : u.evc.vstacks = Tbl.put [] s.evc.vstacks (s.vecOwner (.leaf e))
    ((vecKey (s.vecOwner (.leaf e)) x, x.prio.toNat) :: Tbl.get [] s.evc.vstacks (s.vecOwner (.leaf e)))
  awake : 4 + e.val ∈ u.evc.awake

theorem State.wakeTarget_eq (s : State) (v : VecTarget) : ∃ l, vecCode v ∈ l ∧ s.wakeTarget v = { s with evc := { s.evc with awake := l } } := by
  unfold State.wakeTarget
  split
  next h => exact ⟨s.evc.awake, h, rfl⟩
  next => exact ⟨_, List.mem_cons_self, rfl⟩

section wake
variable (s : State) (v : VecTarget)

theorem State.wakeTarget_vecChosen (u : VecTarget) (o : Nat) (xs : List VecSource) : (s.wakeTarget v).vecChosen u o xs = s.vecChosen u o xs := by
  obtain ⟨l, -, h⟩ := s.wakeTarget_eq v
  rw [h]
  rfl

theorem State.wakeTarget_vecGapEnd (u : VecTarget) (c : Nat) : (s.wakeTarget v).vecGapEnd u c = s.vecGapEnd u c := by
  obtain ⟨l, -, h⟩ := s.wakeTarget_eq v
  rw [h]
  rfl

theorem State.wakeTarget_vecOwner (u : VecTarget) : (s.wakeTarget v).vecOwner u = s.vecOwner u := by
  obtain ⟨l, -, h⟩ := s.wakeTarget_eq v
  rw [h]
  rfl

theorem State.wakeTarget_raw : (s.wakeTarget v).raw = s.raw := by
  obtain ⟨l, -, h⟩ := s.wakeTarget_eq v
  rw [h]
  rfl

end wake

/-- A vector to a target has gone out, and the storm guard has not counted it yet (R425). -/
def State.pushVector (s : State) (u : VecTarget) (o : Nat) (x : VecSource) : State :=
  { s with evc := { s.evc with
    vstacks := Tbl.put [] s.evc.vstacks (s.vecOwner u) ((vecKey o x, x.prio.toNat) :: Tbl.get [] s.evc.vstacks (s.vecOwner u))
    lastVec := Tbl.put none s.evc.lastVec (vecCode u) (some s.raw)
    heldVecs := Tbl.put (0, []) s.evc.heldVecs (vecCode u) (0, []) } }.emit
      (.vector u x.src (Config.vectorBase (vecCode u) + BitVec.ofNat 32 (16 * x.src.toNat)))

theorem State.sendVector_eq (s : State) (u : VecTarget) (o : Nat) (x : VecSource) :
    s.sendVector u o x = (s.pushVector u o x).stormVector u (vecKey o x) x := rfl

theorem State.sendVector_sent {s w : State} {e : EngId} {x : VecSource} {l : List Nat} (hw : w = { s with evc := { s.evc with awake := l } })
    (hl : vecCode (.leaf e) ∈ l) : VectorSent s (w.sendVector (.leaf e) (s.vecOwner (.leaf e)) x) e x := by
  subst hw
  rw [State.sendVector_eq]
  obtain ⟨hout, hregs, hstacks, hawake⟩ := State.stormVector_keeps_others
    ({ s with evc := { s.evc with awake := l } }.pushVector (.leaf e) (s.vecOwner (.leaf e)) x) (.leaf e) (vecKey (s.vecOwner (.leaf e)) x) x
  exact ⟨hout, hregs, hstacks, by rw [hawake]; exact hl⟩

/-- The source that a leaf takes goes out where the leaf was idle or its gap has run. -/
theorem vectorDelivery_sends {e : EngId} {src : Byte} {lv : SourceLevel} {x : VecSource} {xs : List VecSource}
    (hxs : ((⟨src, lv.prio, lv.masked, lv.cls, lv.guarded⟩ :: lv.others : List VecSource).filter fun x => decide (x.prio ≠ 0)) = xs) (hne : xs ≠ [])
    (hch : s.vecChosen (.leaf e) (s.vecOwner (.leaf e)) xs = some x)
    (hgap : 4 + e.val ∉ s.evc.awake ∨ s.vecGapEnd (.leaf e) x.cls.toNat ≤ s.raw) :
    ∃ u, exec (.vectorDelivery (.leaf e) src lv) s = finish u ∧ VectorSent s u e x := by
  obtain ⟨l, hl, hw⟩ := s.wakeTarget_eq (.leaf e)
  have hoffer : (s.wakeTarget (.leaf e)).offerVector (.leaf e) (s.vecOwner (.leaf e)) xs (decide (4 + e.val ∉ s.evc.awake)) =
      (s.wakeTarget (.leaf e)).sendVector (.leaf e) (s.vecOwner (.leaf e)) x := by
    unfold State.offerVector
    rw [State.wakeTarget_vecChosen, hch]
    dsimp only
    rw [if_pos]
    rw [Bool.or_eq_true, decide_eq_true_eq, decide_eq_true_eq, State.wakeTarget_vecGapEnd, State.wakeTarget_raw]
    exact hgap
  refine ⟨_, ?_, State.sendVector_sent hw hl⟩
  rw [← hoffer]
  change execVectorDelivery (.leaf e) src lv s = _
  unfold execVectorDelivery
  simp only [State.vecTarget, beq_self_eq_true, Bool.and_true]
  rw [hxs, if_neg (by simpa using hne), if_neg (by simp), State.wakeTarget_vecOwner]
  rfl

/-- A source may be taken by a target whose running priority is run (R422). -/
def State.vecFits (s : State) (o run : Nat) (x : VecSource) : Bool :=
  !x.masked && decide (vecKey o x ∉ s.evc.vecStorm) && decide (run < x.prio.toNat) && !s.evc.vstacks.any (fun e => e.2.any (fun y => y.1 == vecKey o x))

theorem State.vecFits_of {o run : Nat} {x : VecSource} (hm : x.masked = false) (hs : vecKey o x ∉ s.evc.vecStorm) (hp : run < x.prio.toNat)
    (ha : ∀ a ∈ s.evc.vstacks, ∀ y ∈ a.2, y.1 ≠ vecKey o x) : s.vecFits o run x = true := by
  simp only [State.vecFits, hm, hs, hp, not_false_eq_true, decide_true, Bool.not_false, Bool.and_self, Bool.true_and, Bool.not_eq_true', List.any_eq_false,
    Bool.not_eq_true, beq_eq_false_iff_ne]
  exact ha

theorem State.vecChosen_eq (s : State) (u : VecTarget) (o : Nat) (xs : List VecSource) : s.vecChosen u o xs =
    (xs.filter (s.vecFits o (((Tbl.get [] s.evc.vstacks (s.vecOwner u)).head?.map (·.2)).getD 0))).foldl (fun b x => match b with
      | none => some x
      | some y => if y.prio.toNat < x.prio.toNat ∨ (y.prio = x.prio ∧ x.src.toNat < y.src.toNat) then some x else some y) none := rfl

theorem State.vecChosen_one {u : VecTarget} {o : Nat} {x : VecSource}
    (h : s.vecFits o (((Tbl.get [] s.evc.vstacks (s.vecOwner u)).head?.map (·.2)).getD 0) x = true) : s.vecChosen u o [x] = some x := by
  rw [State.vecChosen_eq, List.filter_cons_of_pos h]
  rfl

theorem State.vecChosen_higher {u : VecTarget} {o : Nat} {x y : VecSource}
    (h : s.vecFits o (((Tbl.get [] s.evc.vstacks (s.vecOwner u)).head?.map (·.2)).getD 0) y = true) (hp : x.prio.toNat < y.prio.toNat) :
    s.vecChosen u o [x, y] = some y := by
  rw [State.vecChosen_eq, List.filter_cons, List.filter_cons_of_pos h]
  split
  · exact if_pos (Or.inl hp)
  · rfl

theorem State.vecChosen_masked {u : VecTarget} {o : Nat} {x : VecSource} (h : x.masked = true) : s.vecChosen u o [x] = none := by
  rw [State.vecChosen_eq, List.filter_cons_of_neg (by simp [State.vecFits, h])]
  rfl

theorem prio_ne_zero {p : BitVec 4} {n : Nat} (h : n < p.toNat) : p ≠ 0 := by
  rintro rfl
  exact absurd h (Nat.not_lt_zero n)

theorem VectorSent.sends {e : EngId} {x : VecSource} (h : VectorSent s u e x) :
    Sends s u.noteMay.announce (.vector (.leaf e) x.src (Config.vectorBase (4 + e.val) + BitVec.ofNat 32 (16 * x.src.toNat))) := by
  have hu : Sends s u (.vector (.leaf e) x.src (Config.vectorBase (4 + e.val) + BitVec.ofNat 32 (16 * x.src.toNat))) :=
    ⟨_, h.out, List.mem_singleton_self _⟩
  exact hu.later (State.announce_keeps (State.noteMay_keeps (Keeps.refl u)))

theorem vectorDelivery_one {e : EngId} {o : Nat} {src : Byte} {prio : BitVec 4} {cls : BitVec 2} {guarded : Bool} (ho : o = s.vecOwner (.leaf e))
    (hp : ((Tbl.get [] s.evc.vstacks o).head?.map (·.2)).getD 0 < prio.toNat)
    (hact : ∀ a ∈ s.evc.vstacks, ∀ y ∈ a.2, y.1 ≠ vecKey o ⟨src, prio, false, cls, guarded⟩)
    (hst : vecKey o ⟨src, prio, false, cls, guarded⟩ ∉ s.evc.vecStorm) (hgap : 4 + e.val ∉ s.evc.awake ∨ s.vecGapEnd (.leaf e) cls.toNat ≤ s.raw) :
    Does (.vectorDelivery (.leaf e) src ⟨prio, false, cls, guarded, []⟩) s fun t =>
      Sends s t (.vector (.leaf e) src (Config.vectorBase (4 + e.val) + BitVec.ofNat 32 (16 * src.toNat))) ∧ 4 + e.val ∈ t.evc.awake ∧
      Tbl.get [] t.evc.vstacks o = (vecKey o ⟨src, prio, false, cls, guarded⟩, prio.toNat) :: Tbl.get [] s.evc.vstacks o ∧ SameRegs s t := by
  subst ho
  obtain ⟨u, he, hu⟩ := vectorDelivery_sends (lv := ⟨prio, false, cls, guarded, []⟩)
    (List.filter_cons_of_pos (by simpa using prio_ne_zero hp)) (List.cons_ne_nil _ _)
    (State.vecChosen_one (State.vecFits_of rfl hst hp hact)) hgap
  refine ⟨_, he, hu.sends, ?_, ?_, SameRegs.of_regs hu.regs⟩
  · rw [announced_awake]
    exact hu.awake
  · rw [announced_vstacks, hu.vstacks]
    exact Tbl.get_put_same_of_ne _ _ (List.cons_ne_nil _ _)

theorem vectorDelivery_two {e : EngId} {o : Nat} {src : Byte} {prio : BitVec 4} {y : VecSource} (ho : o = s.vecOwner (.leaf e))
    (hempty : Tbl.get [] s.evc.vstacks o = []) (hp : 0 < prio.toNat) (hy : prio.toNat < y.prio.toNat) (hm : y.masked = false)
    (hact : ∀ a ∈ s.evc.vstacks, ∀ z ∈ a.2, z.1 ≠ vecKey o y) (hst : vecKey o y ∉ s.evc.vecStorm) (hawake : 4 + e.val ∉ s.evc.awake) :
    Does (.vectorDelivery (.leaf e) src ⟨prio, false, 0, false, [y]⟩) s fun t =>
      Sends s t (.vector (.leaf e) y.src (Config.vectorBase (4 + e.val) + BitVec.ofNat 32 (16 * y.src.toNat))) := by
  subst ho
  have hfit : s.vecFits (s.vecOwner (.leaf e)) (((Tbl.get [] s.evc.vstacks (s.vecOwner (.leaf e))).head?.map (·.2)).getD 0) y = true := by
    refine State.vecFits_of hm hst ?_ hact
    rw [hempty]
    exact hp.trans hy
  obtain ⟨u, he, hu⟩ := vectorDelivery_sends (src := src) (lv := ⟨prio, false, 0, false, [y]⟩)
    (List.filter_eq_self.2 (by simpa using ⟨prio_ne_zero hp, prio_ne_zero hy⟩)) (List.cons_ne_nil _ _)
    (State.vecChosen_higher hfit hy) (Or.inl hawake)
  exact ⟨_, he, hu.sends⟩

theorem vectorDelivery_masked {e : EngId} {src : Byte} {prio : BitVec 4} {cls : BitVec 2} {guarded : Bool} (hp : prio.toNat ≠ 0) :
    Does (.vectorDelivery (.leaf e) src ⟨prio, true, cls, guarded, []⟩) s fun t =>
      4 + e.val ∈ t.evc.awake ∧ t.evc.vstacks = s.evc.vstacks ∧ SameRegs s t := by
  have he : exec (.vectorDelivery (.leaf e) src ⟨prio, true, cls, guarded, []⟩) s = finish (s.wakeTarget (.leaf e)) := by
    change execVectorDelivery (.leaf e) src ⟨prio, true, cls, guarded, []⟩ s = _
    unfold execVectorDelivery
    simp only [State.vecTarget, beq_self_eq_true, Bool.and_true]
    rw [List.filter_cons_of_pos (by simpa using prio_ne_zero (Nat.pos_of_ne_zero hp)), List.filter_nil, if_neg (by simp), if_neg (by simp), State.offerVector,
      State.vecChosen_masked rfl]
  obtain ⟨l, hl, hw⟩ := s.wakeTarget_eq (.leaf e)
  refine ⟨_, he, ?_, ?_, SameRegs.of_regs (by rw [hw])⟩
  · rw [announced_awake, hw]
    exact hl
  · rw [announced_vstacks, hw]

theorem offlineFallback_does {c : CoreId} {src : Byte} {since : DWord} (hc : (s.core c).state = .halted ∨ (s.core c).state = .faulted)
    (hf : (c, src) ∉ s.evc.fallback) (hu : u = s.advance (after since (us 1))) :
    Does (.offlineFallback c ⟨src, since⟩) s fun t => t.evc.fallback = (c, src) :: s.evc.fallback ∧ SameRegs u t ∧ t.spur = s.spur := by
  have h : Only [.counts, .free, .funcs, .halves, .objs, .out, .ports, .regs .fn, .rings, .tmu] s u := by
    rw [hu]
    apply State.advance_only (Only.refl s) <;> decide
  have hevc : u.evc = s.evc := h.2 .evc (by decide)
  have he : exec (.offlineFallback c ⟨src, since⟩) s = finish { u with evc := { u.evc with fallback := (c, src) :: u.evc.fallback } } := by
    change execOfflineFallback c ⟨src, since⟩ s = _
    unfold execOfflineFallback
    dsimp only
    rw [if_pos ⟨hc, hf⟩, hu]
  refine ⟨_, he, ?_, SameRegs.of_regs rfl, ?_⟩
  · rw [(State.announce_signals _).back, State.noteMay_evc, hevc]
  · rw [State.announce_spur]
    exact h.2 .spur (by decide)

/-- What does not read the stamp queue of a function reads the same. -/
theorem SameFuncs.eq {α : Type} (h : SameFuncs s u) (d : Dom) (g : Func → α) (hg : ∀ f : Func, g f.noTsq = g f) : g (u.func d) = g (s.func d) := by
  rw [← hg, h d, hg]

theorem SameFuncs.sends {d : Dom} {k : Nat} (h : SameFuncs s u) (hb : u.belay = s.belay) (hd : u.dev = s.dev) : u.sends d k = s.sends d k := by
  unfold State.sends State.active State.entry
  rw [hb, hd, h.eq d Func.msixEnable fun _ => rfl, h.eq d Func.flr fun _ => rfl]

theorem State.message_sends {d : Dom} {k : Fin 128} {xs : List Nat} (hsends : s.sends d k.val = true) (hmask : (s.func d).funcMask = false)
    (hopen : k.val ∈ (s.func d).vecOpen) : Sends s (s.message d k.val xs) (.msix d k (Tbl.get 0 (s.func d).vecTable k.val)) := by
  unfold State.message
  extract_lets f held e _ v w
  have hk : fin 128 k.val = k := Fin.ofNat_val_eq_self k
  have hgoes : ¬ (f.funcMask = true ∨ k.val ∉ f.vecOpen) := fun h => h.elim (by rw [hmask]; decide) (· hopen)
  have hw : w = v.emit (.msix d (fin 128 k.val) (Tbl.get 0 f.vecTable k.val)) := if_neg hgoes
  rw [hk] at hw
  have hout : Sends s w (.msix d k (Tbl.get 0 f.vecTable k.val)) := ⟨[_], by rw [hw]; rfl, List.mem_singleton_self _⟩
  rw [if_neg (by rw [show v.sends d k.val = s.sends d k.val from rfl, hsends]; decide)]
  exact hout.later (Keeps.foldl (Keeps.refl w) fun y x hy => State.stormCount_keeps hy)

theorem moderationGapEnd_does {d : Dom} {t0 : Fin 128} (hheld : s.heldDue d t0.val ≠ []) (hu : u = s.advance (s.gapEnd d t0.val (s.heldDue d t0.val)))
    (hsends : s.sends d t0.val = true) (hmask : (s.func d).funcMask = false) (hopen : t0.val ∈ (s.func d).vecOpen) :
    Does (.moderationGapEnd d (.claim t0)) s fun t =>
      Sends s t (.msix d t0 (Tbl.get 0 (s.func d).vecTable t0.val)) ∧ SameRegs u t ∧ t.rings = u.rings := by
  have hmsgs : Tbl.get [] s.evc.heldMsgs (tgtKey d t0.val) ≠ [] := fun h => hheld (by rw [State.heldDue, h, List.filter_nil])
  have he : exec (.moderationGapEnd d (.claim t0)) s = finish (u.message d t0.val (s.heldDue d t0.val)) := by
    change execModerationGapEnd d (.claim t0) s = _
    unfold execModerationGapEnd
    dsimp only
    rw [if_neg hmsgs, if_neg (by simpa using hheld), hu]
  have honly : Only [.counts, .free, .funcs, .halves, .objs, .out, .ports, .regs .fn, .rings, .tmu] s u := by
    rw [hu]
    apply State.advance_only (Only.refl s) <;> decide
  have hfuncs : SameFuncs s u := by
    rw [hu]
    exact s.advance_sameFuncs _
  have hkeep : Keeps false s u := by
    rw [hu]
    exact State.advance_keeps (Keeps.refl s)
  have hm : (u.func d).funcMask = (s.func d).funcMask := hfuncs.eq d Func.funcMask fun _ => rfl
  have ho : (u.func d).vecOpen = (s.func d).vecOpen := hfuncs.eq d Func.vecOpen fun _ => rfl
  have htab : (u.func d).vecTable = (s.func d).vecTable := hfuncs.eq d Func.vecTable fun _ => rfl
  have hs : u.sends d t0.val = true := by
    rw [hfuncs.sends (honly.belay_eq (by decide) (by decide) (by decide) (by decide)) (honly.2 .dev (by decide)), hsends]
  have hsig := u.message_signals d t0.val (s.heldDue d t0.val)
  have hsent : Sends u (u.message d t0.val (s.heldDue d t0.val)) (.msix d t0 (Tbl.get 0 (u.func d).vecTable t0.val)) :=
    State.message_sends hs (hm.trans hmask) (by rw [ho]; exact hopen)
  rw [htab] at hsent
  refine ⟨_, he, (hsent.of_mid hkeep).later (State.announce_keeps (State.noteMay_keeps (Keeps.refl _))), SameRegs.of_signals hsig, ?_⟩
  rw [State.announce_rings, State.noteMay_rings, hsig.rest]

end vectors

/-- Settles O54: each clause is followed to the state that its command ends with; what every command ends with leaves stacks, wait states and
fallbacks. -/
theorem eventClaims : Obligations.EventClaims := by
  unfold Obligations.EventClaims
  exact ⟨fun _ _ _ _ ht hs ha hc hg => evcClaim_does ht hs ha hc hg, fun _ _ _ ht hs ha hc => evcClaim_none ht hs ha hc,
    fun _ _ _ _ _ _ _ _ ht hs ha hst hx hwf => evcEoi_does ht hs ha hst hx hwf,
    fun _ _ _ _ _ ht hs ha hst habs hroom => evcEoi_unclaimed ht hs ha hst habs hroom,
    fun _ _ _ _ _ ht hs ha habs hroom => evcEoi_beyond ht hs ha habs hroom,
    fun _ _ _ _ _ _ hst hwf hheld => vecEoi_does hst hwf hheld,
    fun _ _ _ _ hheld hu hsends hmask hopen => moderationGapEnd_does hheld hu hsends hmask hopen,
    fun _ _ _ _ _ _ _ ho hp hact hst hgap _ => vectorDelivery_one ho hp hact hst hgap,
    fun _ _ _ _ _ _ ho hempty hp hy hm hact hst hawake => vectorDelivery_two ho hempty hp hy hm hact hst hawake,
    fun _ _ _ _ _ _ hp => vectorDelivery_masked hp,
    fun _ _ _ _ _ hc hf hu => offlineFallback_does hc hf hu⟩

end Sys2Proof.Machine

namespace Sys2Proof.Machine

/-! ### A TX ring that names an Ethernet port beyond the four -/

namespace EthPortBeyond

/-- A frame that is on the wire. -/
def sending : EthItem := { op := { dom := 0, num := 0, tag := 1 }, bytes := [1], attempts := 1 }

/-- D0 has a window over low host memory and a ring 0 with one descriptor that waits. Ring 0 is a TX ring for an Ethernet port, and its PORT is
5; ring 1 is its CQ. EP1, which has PORT 5 modulo 4, is enabled, has its link, and a frame on the wire. -/
def before : State :=
  let s : State := { State.reset with
    dev := { ready := true }
    rings := [(0, { active := true, idx := 1 }), (1, { active := true })]
    eths := State.reset.eths.set 1 { link := true, wire := some sending }
    belay := { windows := [(0, { valid := true, read := true, write := true, base := 0, limit := 0xFFFFFFFF })] } }
  ((s.setReg (ringReg 0 .cfg) 0x50641).setReg (ringReg 1 .cfg) 0x47).setReg (.ep 1 .cfg) 1

/-- LEN 20 at address 1000h. -/
def descriptor : Desc := { flags := 0, tag := 7, body := BitVec.ofNat 224 (20 + 0x1000 * 2 ^ 160) }

def payload : List Byte := List.replicate 20 1

theorem before_ready : RingReady 0 before 0 0 descriptor :=
  ⟨by decide +kernel, by decide, by decide +kernel, by decide +kernel, by decide +kernel, by decide +kernel, by decide +kernel⟩

/-- What the first clause asks of the ring and of its port. -/
theorem before_port : (1 : EpId) = fin 4 (fld (before.ringCfg (before.dring 0 0)) 16 5) ∧ bit (before.ringCfg (before.dring 0 0)) 9 = true ∧
    before.epOn 1 = true ∧ (before.eth 1).link = true ∧ before.ethTurn 0 1 0 = true ∧ before.epOwner 1 = 0 ∧
    (before.eth 1).queue.all (fun i => i.firmware || decide (i.op.num ≠ 0)) = true ∧ (before.eth 1).wire.isSome = true := by decide +kernel

/-- What it asks of the descriptor. -/
theorem descriptor_fits : 14 ≤ dnum descriptor 4 2 ∧ dnum descriptor 4 2 ≤ 1996 ∧ payload.length = dnum descriptor 4 2 ∧
    reservedZero { descriptor with flags := descriptor.flags &&& 0xFD } ethFields = true ∧
    before.inWindow 0 (daddr descriptor).toNat (dnum descriptor 4 2) true false = true ∧ dbit descriptor 6 0 = false := by decide +kernel

theorem before_not_named : before.ethNames 0 (fin 4 (fld (before.ringCfg (before.dring 0 0)) 16 5)) 0 = false := by decide +kernel

/-- The ring names none of the four ports, so that nothing of it is fetched. -/
theorem exec_ethTx : exec (.ethTx 0 0 descriptor payload) before = .next before := by
  change execEthTx 0 0 descriptor payload before = _
  unfold execEthTx
  dsimp only
  rw [before_not_named]
  rfl

end EthPortBeyond

open EthPortBeyond in
/-- Refutes O55: its first clauses take the port of a ring as PORT modulo 4, but PORT has five bits, and a ring whose PORT is 4 or more is no ring of
any Ethernet port. The model fetches nothing of such a ring, so that no frame joins the port. (R69 refuses to enable one; the clauses do not ask how
the ring came to be enabled.) -/
theorem not_ethernetTransmission : ¬ Obligations.EthernetTransmission := by
  unfold Obligations.EthernetTransmission
  rintro ⟨hjoins, -⟩
  obtain ⟨hk, hbit, hon, hlink, hturn, howner, hroom, hwire⟩ := before_port
  obtain ⟨hmin, hmax, hlen, hres, hwin, hplain⟩ := descriptor_fits
  obtain ⟨t, hexec, hqueue, -⟩ := hjoins before 0 0 descriptor payload 1 before_ready hk hbit hon hlink hturn howner hroom hmin hmax hlen hres hwin
    (fun h => absurd (hplain.symm.trans h) Bool.false_ne_true) hwire
  have hsame : before = t := Host.Outcome.next.inj (exec_ethTx.symm.trans hexec)
  rw [← hsame] at hqueue
  exact List.cons_ne_nil _ _ (List.self_eq_append_right.1 hqueue)

end Sys2Proof.Machine

namespace Sys2Proof.Machine

/-! ### An enabled ring that is not active -/

namespace StaleRing

/-- D0's ring 0 is an RX ring with ENABLE 1, ACTIVE 0 and one posted buffer; ring 1 is its CQ, which has room. -/
def before : State :=
  let s : State := { State.reset with
    dev := { ready := true }
    rings := [(0, { posted := [(5, 64)] }), (1, { active := true })] }
  (s.setReg (ringReg 0 .cfg) 0x443).setReg (ringReg 1 .cfg) 0x47

/-- ENABLE 0 and TYPE 2, a CMD ring, are written. -/
def value : Word := 0x444

theorem before_write : RingWrite before 0 0 := ⟨by decide +kernel, by decide +kernel, by decide +kernel, by decide +kernel⟩

theorem before_tables : TablesOk before :=
  ⟨by decide +kernel, rfl, by decide +kernel, rfl, rfl, rfl, rfl, rfl, rfl⟩

/-- What the fourth clause asks of the ring. -/
theorem before_ring : bit (before.ringCfg (before.dring 0 0)) 0 = true ∧ ringType (before.ringCfg (before.dring 0 0)) = 1 ∧ before.cqOf 0 0 ≠ 0 ∧
    (before.ring (before.dring 0 0)).posted = [(5, 64)] ∧ (before.ring (before.dring 0 0)).frames = [] := by decide +kernel

/-- What it asks of the completion queue. -/
theorem before_queue : before.mute 0 = false ∧ before.dev.recovery = false ∧ before.ringOn 0 (before.cqOf 0 0) 3 = true ∧
    (before.ring (before.dring 0 (before.cqOf 0 0))).wait = [] ∧ 0 < before.room 0 (before.cqOf 0 0) := by decide +kernel

/-- What has left the device after a command. -/
def sent (r : Result) : Option (List Output) :=
  match r with
  | .next t => some t.out
  | _ => none

/-- The write takes the type with it, since the ring is not active, and a CMD ring returns no buffer. -/
theorem sent_nothing : sent (exec (.ringDisable 0 0 value) before) = some [] := by decide +kernel

end StaleRing

open StaleRing in
/-- Refutes O15: its fourth clause does not ask that the ring be ACTIVE. The fields of RNG_CFG but ENABLE may be written while ACTIVE is 0, so a write
of ENABLE 0 to a ring with ENABLE 1 and ACTIVE 0 can make an RX ring a CMD ring first, and then its posted buffer is not returned. -/
theorem not_ringEnableDisable : ¬ Obligations.RingEnableDisable := by
  unfold Obligations.RingEnableDisable
  rintro ⟨-, -, -, hreturns⟩
  obtain ⟨hon, htype, hcq, hposted, hframes⟩ := before_ring
  obtain ⟨hmute, hpath, hcqOn, hwait, hroom⟩ := before_queue
  obtain ⟨t, hexec, e, ⟨l, hout, hl⟩, -⟩ := hreturns before 0 0 value (5, 64) before_write before_tables (by decide) hon htype hcq hposted hframes hmute
    hpath hcqOn hwait hroom
  have hnone := sent_nothing
  rw [hexec] at hnone
  have hempty : before.out ++ l = [] := hout.symm.trans (Option.some.inj hnone)
  rw [List.append_eq_nil_iff.1 hempty |>.2] at hl
  exact List.not_mem_nil hl

end Sys2Proof.Machine

namespace Sys2Proof.Machine

/-! ### Commands of a port (R125) -/

section portCommand
variable {s u : State} {d : Dom} {p : PortId}

/-- A write of FPn_CMD that reaches its port carries the command out (R28, R471). -/
theorem PortCmdReady.writePortCmd (h : PortCmdReady s d p) (c : Nat) : s.writePortCmd d p c = finish (s.portCommand p c) := by
  obtain ⟨⟨hserves, hactive, howner⟩, hfree, htest⟩ := h
  unfold State.writePortCmd State.ownedWrite
  rw [if_neg (by simp [hserves, State.present_of_active hactive]), if_pos ⟨howner, hactive⟩]
  change finish (s.portRequest d p c) = _
  unfold State.portRequest
  rw [if_neg (by rw [hfree]; decide), if_neg (by simp [htest])]

/-- u is s with port p set to x and its event register to w. -/
structure PortBecomes (s u : State) (p : PortId) (x : Port) (w : DWord) : Prop where
  ports : u.ports = s.ports.set p x
  evt : u.reg (.port p .evt) = w
  regs : ∀ r, r ≠ .port p .evt → u.reg r = s.reg r

theorem PortBecomes.portEvt (x : Port) (i : Nat) :
    PortBecomes s ((s.setPort p x).portEvt p i) p x (setBit (s.reg (.port p .evt)) i) :=
  ⟨rfl, State.reg_raise_same _ _ _, fun _ hr => State.reg_raise_other _ _ _ _ hr⟩

theorem PortBecomes.showPort {x : Port} (h : (s.port p).state ≠ x.state) :
    PortBecomes s (s.showPort p x) p x (setBit (s.reg (.port p .evt)) 0) := by
  have he : s.showPort p x = (s.setPort p x).portEvt p 0 := by
    unfold State.showPort
    dsimp only
    rw [if_neg h]
  rw [he]
  exact .portEvt x 0

theorem setPort_self (s : State) (p : PortId) : s.setPort p (s.port p) = s := by
  unfold State.setPort State.port
  rw [show s.ports.set p s.ports[p] = s.ports from Vector.set_getElem_self _]

theorem PortBecomes.cmdRefused : PortBecomes s (s.cmdRefused p) p (s.port p) (setBit (s.reg (.port p .evt)) 5) := by
  have h := PortBecomes.portEvt (s := s) (p := p) (s.port p) 5
  rwa [setPort_self] at h

/-- What a command leaves at its end that has set port p to x and its event register to w, and nothing else of ports and registers. -/
structure PortLeft (s t : State) (p : PortId) (x : Port) (w : DWord) : Prop where
  port : t.port p = x
  evt : t.reg (.port p .evt) = w
  others : OtherPorts s t p
  regs : OtherRegs s t [.port p .evt]
  ports : t.ports = s.ports.set p x

theorem PortBecomes.left {x : Port} {w : DWord} (h : PortBecomes s u p x w) : PortLeft s u.noteMay.announce p x w := by
  have hports : u.noteMay.announce.ports = (s.setPort p x).ports := by rw [State.announce_ports, State.noteMay_ports, h.ports, State.setPort]
  have hport : ∀ q, u.noteMay.announce.port q = (s.setPort p x).port q := fun q => by rw [State.port, hports, State.port]
  refine ⟨?_, ?_, fun q hq => ?_, fun r hr => ?_, hports⟩
  · rw [hport, State.port_setPort_same]
  · rw [State.announce_reg _ _ (show blockOf (.port p .evt) ≠ .guard from nofun), State.noteMay_reg, h.evt]
  · rw [hport, State.port_setPort_other _ _ _ _ hq]
  · have hk := u.noteMay.announce_kept r
    rwa [State.noteMay_reg, h.regs r (fun e => hr (List.mem_singleton.2 e))] at hk

theorem PortCmdReady.does {i : Instr} {c : Nat} {x : Port} {w : DWord} {P : State → Prop} (h : PortCmdReady s d p) (he : exec i s = s.writePortCmd d p c)
    (hb : PortBecomes s (s.portCommand p c) p x w) (hp : ∀ t, PortLeft s t p x w → P t) : Does i s P :=
  .of_finish (he.trans (h.writePortCmd c)) (hp _ hb.left)

theorem portEnable_becomes (hoff : (s.port p).state = .off) (hbank : s.bankOn p = true) (himage : s.imagePresent = true) :
    PortBecomes s (s.enableOp p) p { s.port p with state := .stopped } (setBit (s.reg (.port p .evt)) 0) := by
  unfold State.enableOp
  dsimp only
  rw [if_neg (by simp [hoff]), if_neg (by simp [hbank]), if_neg (by simp [himage])]
  exact .showPort (by simp [hoff])

theorem portEnable_unsupplied (hoff : (s.port p).state = .off) (hbank : s.bankOn p = false) :
    PortBecomes s (s.enableOp p) p { s.port p with cfgCode := 9 } (setBit (s.reg (.port p .evt)) 4) := by
  unfold State.enableOp
  dsimp only
  rw [if_neg (by simp [hoff]), if_pos (by simp [hbank])]
  exact .portEvt _ 4

/-- The port as it is in OFF: its operations end, and its error counters and its FIFO are empty (R486). -/
def State.portOff (s : State) (p : PortId) : Port :=
  { addEnding s.raw { s.port p with onWire := none } 10 (fun _ => true) with
    state := .off, wakeArmed := false, fifo := [], record := [], tec := 0, rec_ := 0, loopFd := 0, loopXl := 0 }

theorem portDisable_becomes (hgroup : s.groupOf p = none) (h : (s.port p).state = .stopped ∨ (s.port p).state = .sleep) :
    PortBecomes s (s.disableOp p) p (s.portOff p) (setBit 0 0) := by
  let v : State := (s.setReg (.port p .evt) 0).clearHalves p.val
  have hv : s.disableOp p = v.showPort p (s.portOff p) := by
    unfold State.disableOp
    dsimp only
    rw [if_neg (by simp [hgroup]), if_pos h]
    rfl
  have hshow := PortBecomes.showPort (s := v) (p := p) (x := s.portOff p) (by
    change (s.port p).state ≠ .off
    rcases h with h | h <;> simp [h])
  have hcleared : v.reg (.port p .evt) = 0 := s.reg_setReg_same (.port p .evt) 0
  rw [hcleared] at hshow
  rw [hv]
  exact ⟨hshow.ports, hshow.evt, fun r hr => (hshow.regs r hr).trans (s.reg_setReg_other (.port p .evt) r 0 hr)⟩

theorem portSleep_becomes (hgroup : s.groupOf p = none) (hstop : (s.port p).state = .stopped)
    (hfilter : ¬(s.rf (.port p .sleep) 0 2 = 1 ∧ (s.rf (.port p .sleep) 4 10 < 50 ∨ 500 < s.rf (.port p .sleep) 4 10))) :
    PortBecomes s (s.sleepPort p) p { s.port p with state := .sleep, wakeArmed := true } (setBit (s.reg (.port p .evt)) 0) := by
  unfold State.sleepPort
  dsimp only
  rw [if_neg (by simp [hgroup]), if_neg (by simp [hstop]), if_neg (by omega)]
  exact .showPort (by simp [hstop])

theorem portWake_becomes (hsleep : (s.port p).state = .sleep) :
    PortBecomes s (s.wakePort p) p { s.port p with state := .stopped, wakeArmed := false } (setBit (s.reg (.port p .evt)) 0) := by
  unfold State.wakePort State.toAwake
  rw [if_pos hsleep]
  exact .showPort (by simp [hsleep])

theorem portRestart_becomes (hgroup : s.groupOf p = none) (hbusoff : (s.port p).state = .busoff) (hauto : (s.port p).boAuto = false) :
    PortBecomes s (s.restartPort p) p { s.port p with state := .recovery, prior := .off, seqOn := true, seqAt := s.raw, joined := false }
      (setBit (s.reg (.port p .evt)) 0) := by
  unfold State.restartPort State.restartAccepted
  dsimp only
  rw [if_neg (by simp [hgroup]), if_pos ⟨hbusoff, by simp [hauto]⟩]
  exact .showPort (by simp [hbusoff])

/-- A RESTART that is not valid: of a member of a group, which keeps code 8, or in another state (R125, R127). -/
theorem portRestart_refused (h : ¬((s.port p).state = .busoff ∧ (s.port p).boAuto = false)) :
    PortBecomes s (s.restartPort p) p (if (s.groupOf p).isSome then { s.port p with cfgCode := 8 } else s.port p)
      (setBit (s.reg (.port p .evt)) 5) := by
  unfold State.restartPort State.memberRefuses
  dsimp only
  split
  · rw [if_neg Bool.false_ne_true]
    exact .portEvt _ 5
  · rw [if_neg (by simpa using h)]
    exact .cmdRefused

end portCommand

/-- Settles O10: each command sets its port and one bit of its event register, and nothing else. -/
theorem portEnableDisableSleepWakeRestart : Obligations.PortEnableDisableSleepWakeRestart := by
  unfold Obligations.PortEnableDisableSleepWakeRestart
  refine ⟨fun s d p h hoff hbank himage => h.does rfl (portEnable_becomes hoff hbank himage) fun t ht => ⟨ht.port, ht.evt, ht.others, ht.regs⟩,
    fun s d p h hgroup hst => h.does rfl (portDisable_becomes hgroup hst) fun t ht => ?disabled,
    fun s d p h hgroup hst hfilter => h.does rfl (portSleep_becomes hgroup hst hfilter) fun t ht => ⟨ht.port, ht.evt, ht.others, ht.regs⟩,
    fun s d p h hst => h.does rfl (portWake_becomes hst) fun t ht => ⟨ht.port, ht.evt, ht.others, ht.regs⟩,
    fun s d p h hgroup hst hauto => h.does rfl (portRestart_becomes hgroup hst hauto) fun t ht => ⟨ht.port, ht.evt, ht.others, ht.regs⟩,
    fun s d p h hoff hbank => h.does rfl (portEnable_unsupplied hoff hbank) fun t ht => ⟨ht.port, ht.evt, ht.others, ht.regs⟩,
    fun s d p h hst => h.does rfl (portRestart_refused hst) fun t ht => ⟨ht.evt, fun q => ?states, fun hgroup => ?ports, ht.others, ht.regs⟩⟩
  case disabled =>
    rw [ht.port]
    exact ⟨rfl, rfl, rfl, rfl, ht.evt, ht.others, ht.regs⟩
  case states =>
    by_cases hq : q = p
    · rw [hq, ht.port]
      split <;> rfl
    · rw [ht.others q hq]
  case ports =>
    rw [ht.ports, hgroup, if_neg (by simp)]
    exact congrArg State.ports (setPort_self s p)

end Sys2Proof.Machine

namespace Sys2Proof.Machine

/-! ### Bits of fields (R9) -/

theorem getLsbD_ones (lo n i : Nat) : (ones lo n).getLsbD i = decide (i < 64 ∧ lo ≤ i ∧ i < lo + n) := by
  simp only [ones, BitVec.getLsbD_ofNat, Nat.testBit_shiftLeft, Nat.testBit_two_pow_sub_one, ← Bool.decide_and]
  exact decide_eq_decide.2 (by omega)

theorem getLsbD_setBit (w : DWord) (i j : Nat) (hj : j < 64) : (setBit w i).getLsbD j = (w.getLsbD j || decide (j = i)) := by
  rw [setBit, BitVec.getLsbD_or, getLsbD_ones]
  exact congrArg _ (decide_eq_decide.2 (by omega))

theorem getLsbD_putFld (w : DWord) (lo n v i : Nat) (hi : i < 64) :
    (putFld w lo n v).getLsbD i = if lo ≤ i ∧ i < lo + n then v.testBit (i - lo) else w.getLsbD i := by
  simp only [putFld, BitVec.getLsbD_or, BitVec.getLsbD_and, BitVec.getLsbD_not, getLsbD_ones, BitVec.getLsbD_ofNat, Nat.testBit_shiftLeft,
    Nat.testBit_mod_two_pow]
  split
  next h => simp [h, hi, show i - lo < n by omega]
  next h => by_cases hlo : lo ≤ i
            · simp [hi, hlo, show ¬ i < lo + n by omega, show ¬ i - lo < n by omega]
            · simp [hi, hlo]

theorem testBit_fld (w : DWord) (lo n j : Nat) : (fld w lo n).testBit j = (decide (j < n) && w.getLsbD (lo + j)) := by
  rw [fld, Nat.testBit_mod_two_pow, Nat.testBit_shiftRight, BitVec.testBit_toNat]

theorem fld_eq_iff {a b : DWord} {lo n : Nat} : fld a lo n = fld b lo n ↔ ∀ i, lo ≤ i → i < lo + n → a.getLsbD i = b.getLsbD i := by
  constructor
  · intro h i hlo hi
    have hbit := congrArg (·.testBit (i - lo)) h
    simpa only [testBit_fld, show i - lo < n by omega, decide_true, Bool.true_and, Nat.add_sub_cancel' hlo] using hbit
  · intro h
    refine Nat.eq_of_testBit_eq fun j => ?_
    rw [testBit_fld, testBit_fld]
    by_cases hj : j < n
    · rw [h (lo + j) (by omega) (by omega)]
    · simp [hj]

/-- Two words that agree from bit lo on have the same base, whatever their low bits. -/
theorem base_eq {a b : DWord} {lo : Nat} (h : ∀ i, lo ≤ i → i < 64 → a.getLsbD i = b.getLsbD i) : a &&& ~~~ (ones 0 lo) = b &&& ~~~ (ones 0 lo) := by
  refine BitVec.eq_of_getLsbD_eq fun i hi => ?_
  simp only [BitVec.getLsbD_and, BitVec.getLsbD_not, getLsbD_ones]
  by_cases hlo : lo ≤ i
  · rw [h i hlo hi]
  · simp [hi, show i < lo by omega]

/-! ### The doorbell block and the timestamp queue (R62, R90) -/

section enables
variable {s : State} {d : Dom} {r : Reg} {v w : DWord} {lo : Nat}

/-- Only the address of the register, from bit lo on, is writable besides its ENABLE, and it may be written now: it takes the value. -/
theorem State.fieldWrite_address (hfields : r.fields.filter (fun f => !(f.lo == 0)) = [⟨lo, 64 - lo, .rws, 0⟩])
    (hok : s.fieldOk d r ⟨lo, 64 - lo, .rws, 0⟩ = true) :
    ∃ w, s.fieldWrite d r maskAll v (fun f => f.lo == 0) = (w, false) ∧ ∀ i, lo ≤ i → i < 64 → w.getLsbD i = v.getLsbD i := by
  have hmask : (s.reg r &&& ~~~ maskAll) ||| (v &&& maskAll) = v := by
    rw [show maskAll = BitVec.allOnes 64 from rfl, BitVec.not_allOnes, BitVec.and_zero, BitVec.zero_or, BitVec.and_allOnes]
  unfold State.fieldWrite
  rw [hfields]
  simp only [List.foldl_cons, List.foldl_nil, hmask, hok, if_true]
  split
  next h => exact ⟨_, rfl, fun i hlo hi => (fld_eq_iff.1 h i hlo (by omega)).symm⟩
  next h =>
    refine ⟨_, rfl, fun i hlo hi => ?_⟩
    rw [getLsbD_putFld _ _ _ _ _ hi, if_pos ⟨hlo, by omega⟩, testBit_fld]
    simp [show i - lo < 64 - lo by omega, Nat.add_sub_cancel' hlo]

/-- A register that has taken the address of v, and ENABLE 1. -/
theorem fld_enabled (hw : ∀ i, lo ≤ i → i < 64 → w.getLsbD i = v.getLsbD i) (hlo : 0 < lo) : fld (setBit w 0) lo (64 - lo) = fld v lo (64 - lo) :=
  fld_eq_iff.2 fun i hi h64 => by rw [getLsbD_setBit _ _ _ (by omega), hw i hi (by omega), decide_eq_false (by omega), Bool.or_false]

theorem bit_setBit_zero (w : DWord) : bit (setBit w 0) 0 = true := by
  rw [bit, getLsbD_setBit _ _ _ (by decide), decide_eq_true rfl, Bool.or_true]

/-- The register r holds w, then w with ENABLE 1. -/
def State.enableAt (s : State) (r : Reg) (w : DWord) : State := (s.setReg r w).setReg r (setBit w 0)

theorem State.enableAt_reg (s : State) (r : Reg) (w : DWord) : (s.enableAt r w).reg r = setBit w 0 := State.reg_setReg_same _ _ _

theorem State.enableAt_other (s : State) (w : DWord) {q : Reg} (hq : q ≠ r) : (s.enableAt r w).reg q = s.reg q := by
  rw [State.enableAt, State.reg_setReg_other _ _ _ _ hq, State.reg_setReg_other _ _ _ _ hq]

theorem State.writeDbb_enables (hoff : s.rb (.fn d .dbb) 0 = false) (hv : v.getLsbD 0 = true) (hidle : s.ringsIdle d = true)
    (hwin : s.inWindow d (v &&& ~~~ (4095 : DWord)).toNat 4096 true true = true) :
    ∃ w, s.writeDbb d maskAll v = s.enableAt (.fn d .dbb) w ∧ ∀ i, 12 ≤ i → i < 64 → w.getLsbD i = v.getLsbD i := by
  obtain ⟨w, hwrite, hw⟩ := s.fieldWrite_address (d := d) (r := .fn d .dbb) (v := v) (lo := 12) rfl
    (by simp [State.fieldOk, State.rwsOk, hoff])
  have hen : bit ((s.reg (.fn d .dbb) &&& ~~~ maskAll) ||| (v &&& maskAll)) 0 = true := by simp [bit, maskAll, hv]
  have hwin' : (s.setReg (.fn d .dbb) w).inWindow d (w &&& ~~~ (4095 : DWord)).toNat 4096 true true = true := by
    rw [show (4095 : DWord) = ones 0 12 from rfl, base_eq hw]
    exact hwin
  have hidle' : (s.setReg (.fn d .dbb) w).ringsIdle d = true := hidle
  refine ⟨w, ?_, hw⟩
  unfold State.writeDbb
  dsimp only at hwin' ⊢
  rw [hwrite]
  dsimp only
  rw [hwin', hoff, hen, hidle']
  rfl

theorem State.writeTsq_enables (hoff : s.rb (.fn d .tsq) 0 = false) (hdbb : s.rb (.fn d .dbb) 0 = true) (hv : v.getLsbD 0 = true)
    (hwin : s.inWindow d (v &&& ~~~ (1023 : DWord)).toNat 1024 true true = true) :
    ∃ w, s.writeTsq d maskAll v = ((s.enableAt (.fn d .tsq) w).setFunc d { s.func d with tsqProd := 0, tsqCons := 0, tsqLost := 0, tsqRun := false }).doorbell
        d 0x500 0 ∧ ∀ i, 10 ≤ i → i < 64 → w.getLsbD i = v.getLsbD i := by
  obtain ⟨w, hwrite, hw⟩ := s.fieldWrite_address (d := d) (r := .fn d .tsq) (v := v) (lo := 10) rfl
    (by simp [State.fieldOk, State.rwsOk, hoff])
  have hen : bit ((s.reg (.fn d .tsq) &&& ~~~ maskAll) ||| (v &&& maskAll)) 0 = true := by simp [bit, maskAll, hv]
  have hwin' : (s.setReg (.fn d .tsq) w).inWindow d (w &&& ~~~ (1023 : DWord)).toNat 1024 true true = true := by
    rw [show (1023 : DWord) = ones 0 10 from rfl, base_eq hw]
    exact hwin
  have hdbb' : (s.setReg (.fn d .tsq) w).rb (.fn d .dbb) 0 = true := by
    rw [State.rb, State.reg_setReg_other _ _ _ _ (by simp)]
    exact hdbb
  refine ⟨w, ?_, hw⟩
  unfold State.writeTsq
  dsimp only at hwin' ⊢
  rw [hwrite]
  dsimp only
  rw [hwin', hoff, hen, hdbb']
  rfl

/-- Of the registers, a command has changed r alone. -/
theorem OtherRegs.of_reg {u : State} (h : ∀ q, q ≠ r → u.reg q = s.reg q) : OtherRegs s u.noteMay.announce [r] := by
  intro q hq
  have hk := u.noteMay.announce_kept q
  rwa [State.noteMay_reg, h q (fun e => hq (List.mem_singleton.2 e))] at hk

theorem dbbEnable_does (hans : s.answers = true) (hact : s.active d = true) (hoff : s.rb (.fn d .dbb) 0 = false) (hv : v.getLsbD 0 = true)
    (hidle : s.ringsIdle d = true) (hwin : s.inWindow d (v &&& ~~~ (4095 : DWord)).toNat 4096 true true = true) :
    Does (.dbbEnable d v) s fun t => t.rb (.fn d .dbb) 0 = true ∧ t.rf (.fn d .dbb) 12 52 = fld v 12 52 ∧ OtherRegs s t [.fn d .dbb] ∧
      t.rings = s.rings ∧ Logged s t [] := by
  obtain ⟨w, hwrite, hw⟩ := State.writeDbb_enables hoff hv hidle hwin
  have he : exec (.dbbEnable d v) s = finish (s.enableAt (.fn d .dbb) w) := by
    change execDbbEnable d v s = _
    unfold execDbbEnable
    rw [if_neg (by simp [hans, State.present_of_active hact]), if_pos hact, hwrite]
  refine ⟨_, he, ?_, ?_, OtherRegs.of_reg fun q hq => State.enableAt_other s w hq, by rw [State.announce_rings]; rfl, Logged.of_log (by simp [State.enableAt])⟩
  · rw [State.announce_rb _ _ _ (fun h => RegBlock.noConfusion h), State.noteMay_rb, State.rb, State.enableAt_reg]
    exact bit_setBit_zero w
  · rw [State.announce_rf _ _ _ _ (fun h => RegBlock.noConfusion h), State.noteMay_rf, State.rf, State.enableAt_reg]
    exact fld_enabled hw (by decide)

theorem tsqEnable_does (hserves : s.serves = true) (hact : s.active d = true) (hoff : s.rb (.fn d .tsq) 0 = false) (hdbb : s.rb (.fn d .dbb) 0 = true)
    (hv : v.getLsbD 0 = true) (hwin : s.inWindow d (v &&& ~~~ (1023 : DWord)).toNat 1024 true true = true) :
    Does (.tsqEnable d v) s fun t => t.rb (.fn d .tsq) 0 = true ∧ t.rf (.fn d .tsq) 10 54 = fld v 10 54 ∧ (t.func d).tsqProd = 0 ∧
      (t.func d).tsqLost = 0 ∧ OtherRegs s t [.fn d .tsq] ∧ Logged s t [] := by
  obtain ⟨w, hwrite, hw⟩ := State.writeTsq_enables hoff hdbb hv hwin
  obtain ⟨o, hdoor⟩ := State.doorbell_eq ((s.enableAt (.fn d .tsq) w).setFunc d { s.func d with tsqProd := 0, tsqCons := 0, tsqLost := 0, tsqRun := false })
    d 0x500 0
  rw [hdoor] at hwrite
  have he : exec (.tsqEnable d v) s = finish (s.writeTsq d maskAll v) := by
    change execTsqEnable d v s = _
    unfold execTsqEnable
    rw [if_neg (by simp [hserves, State.present_of_active hact]), if_pos hact]
  have hreg : ∀ q, (s.writeTsq d maskAll v).reg q = (s.enableAt (.fn d .tsq) w).reg q := fun q => by rw [hwrite]; rfl
  have hfunc : (s.writeTsq d maskAll v).func d = { s.func d with tsqProd := 0, tsqCons := 0, tsqLost := 0, tsqRun := false } := by
    rw [hwrite]
    exact State.func_setFunc_same _ _ _
  refine ⟨_, he, ?_, ?_, ?_, ?_, OtherRegs.of_reg fun q hq => (hreg q).trans (State.enableAt_other s w hq), Logged.of_log ?_⟩
  · rw [State.announce_rb _ _ _ (fun h => RegBlock.noConfusion h), State.noteMay_rb, State.rb, hreg, State.enableAt_reg]
    exact bit_setBit_zero w
  · rw [State.announce_rf _ _ _ _ (fun h => RegBlock.noConfusion h), State.noteMay_rf, State.rf, hreg, State.enableAt_reg]
    exact fld_enabled hw (by decide)
  · rw [State.announce_func _ d Func.tsqProd fun _ _ => rfl, State.noteMay_func, hfunc]
  · rw [State.announce_func _ d Func.tsqLost fun _ _ => rfl, State.noteMay_func, hfunc]
  · rw [hwrite, List.append_nil]
    rfl

end enables

/-- Settles O17: the address is the one field that each register takes besides ENABLE, and it is taken whole, so that no check on it fails. -/
theorem doorbellAndStampQueue : Obligations.DoorbellAndStampQueue := by
  unfold Obligations.DoorbellAndStampQueue
  exact ⟨fun _ _ _ hans hact hoff hv hidle hwin => dbbEnable_does hans hact hoff hv hidle hwin,
    fun _ _ _ hserves hact hoff hdbb hv hwin => tsqEnable_does hserves hact hoff hdbb hv hwin⟩

end Sys2Proof.Machine

namespace Sys2Proof.Machine

/-! ### NOP, opcodes that a ring does not take, and receive buffers (R77, R86) -/

section descriptors
variable {s u v : State} {d : Dom} {n : RingNo} {op : Byte} {x : Desc} {ty : Nat}

theorem Answered.of_sends {status : Byte} {i0 : Word} {i1 : Half} {st : Option (BitVec 36)} {port : Byte} (hk : Keeps false s u)
    (h : Sends u v (s.entryOut d (s.cqOf d n) { tag := x.tag, status := status, num := n, info0 := i0, info1 := i1, stamp := st, port := port })) :
    Answered s v.noteMay.announce d n x status i0 :=
  ⟨_, (h.of_mid hk).later (State.announce_keeps (State.noteMay_keeps (Keeps.refl v))), rfl, rfl, rfl, rfl⟩

theorem RingReady.ringType (h : RingReady ty s d n x) : ringType (s.ringCfg (s.dring d n)) = ty := by
  have hon := h.on
  simp only [State.ringOn, Bool.and_eq_true, beq_iff_eq] at hon
  exact hon.2

/-- The halted port that keeps a TX ring of it from being fetched is not there (R184). -/
theorem RingReady.not_quiet (h : RingReady ty s d n x)
    (hport : ty = 0 → bit (s.ringCfg (s.dring d n)) 9 = true ∨ halted (s.port (s.ringPort d n)).state = false) :
    (Machine.ringType (s.ringCfg (s.dring d n)) == 0 && !bit (s.ringCfg (s.dring d n)) 9 && s.portOwner (s.ringPort d n) == d &&
      halted (s.port (s.ringPort d n)).state) = false := by
  rw [h.ringType]
  by_cases h0 : ty = 0
  · rcases hport h0 with hp | hp <;> simp [hp]
  · simp [h0]

/-- A descriptor that is fetched and completed at once has no other effect. -/
theorem RingReady.fetched_complete (h : RingReady ty s d n x) (status : Byte) :
    let t := ((s.fetch d n).complete (s.opOf d n x) status).noteMay.announce
    Answered s t d n x status 0 ∧ SameRegs s t ∧ t.ports = s.ports ∧ t.objs = s.objs := by
  refine ⟨.of_sends (s.fetch_keeps' d n true) ((SameCq.fetch h).complete h status 0 0 none 0xFF), SameRegs.of_regs (by simp), by simp, ?_⟩
  obtain ⟨o, ho⟩ := s.fetch_eq d n true
  rw [State.announce_objs, State.noteMay_objs, State.complete_objs, ho]
  rfl

theorem nop_does (h : RingReady ty s d n x) (hres : reservedZero x [] = true)
    (hport : ty = 0 → bit (s.ringCfg (s.dring d n)) 9 = true ∨ halted (s.port (s.ringPort d n)).state = false) :
    Does (.nop d n x) s fun t => Answered s t d n x 0x00 0 ∧ SameRegs s t ∧ t.ports = s.ports ∧ t.objs = s.objs := by
  refine .of_finish ?_ (h.fetched_complete 0x00)
  change execNop d n x s = _
  unfold execNop
  dsimp only
  rw [show s.fetchable d n (dfence x) = true from h.fetch, h.not_quiet hport, if_pos (by decide), if_pos hres, s.fetch_func d n true d]
  rfl

theorem invalidOpcode_does (h : RingReady ty s d n x) (hop : opcodeOk (s.ringCfg (s.dring d n)) op = false)
    (hport : ty = 0 → bit (s.ringCfg (s.dring d n)) 9 = true ∨ halted (s.port (s.ringPort d n)).state = false) :
    Does (.invalidOpcodeDescriptor d n op x) s fun t => Answered s t d n x 0x32 0 ∧ SameRegs s t ∧ t.ports = s.ports ∧ t.objs = s.objs := by
  refine .of_finish ?_ (h.fetched_complete 0x32)
  change execInvalidOpcodeDescriptor d n op x s = _
  unfold execInvalidOpcodeDescriptor
  dsimp only
  rw [show s.fetchable d n (dfence x) = true from h.fetch, h.not_quiet hport, hop]
  rfl

theorem State.serve_of_no_frames (h : (s.ring (s.dring d n)).frames = []) : s.serve d n = s := by
  unfold State.serve
  dsimp only
  rw [State.serveRx]
  dsimp only
  rw [h]

/-- The buffer of a descriptor posted to its ring, once fetched (R74, R86). -/
def State.post (s : State) (d : Dom) (n : RingNo) (x : Desc) : State :=
  let u := s.fetch d n false
  u.setRing (s.dring d n) { u.ring (s.dring d n) with posted := (u.ring (s.dring d n)).posted ++ [(x.tag, daddr x)] }

theorem State.fetch_dring (s : State) (d e : Dom) (n m : RingNo) (op : Bool) : (s.fetch d n op).dring e m = s.dring e m := by
  simp [State.dring, State.entry]

theorem State.fetch_ring (s : State) (d : Dom) (n : RingNo) (op : Bool) (hwf : Tbl.wf {} s.rings = true) :
    (s.fetch d n op).ring (s.dring d n) = (s.ring (s.dring d n)).fetched op := by
  obtain ⟨o, ho⟩ := s.fetch_eq d n op
  rw [ho]
  exact State.ring_setRing_same _ _ _ hwf

theorem State.fetch_ring_other (s : State) (d : Dom) (n : RingNo) (op : Bool) {j : Nat} (hj : j ≠ s.dring d n) : (s.fetch d n op).ring j = s.ring j := by
  obtain ⟨o, ho⟩ := s.fetch_eq d n op
  rw [ho]
  exact State.ring_setRing_other _ _ _ _ hj

theorem State.post_ring (s : State) (d : Dom) (n : RingNo) (x : Desc) (h : TablesOk s) : (s.post d n x).ring (s.dring d n) =
    { s.ring (s.dring d n) with
      head := (s.ring (s.dring d n)).head + 1, posted := (s.ring (s.dring d n)).posted ++ [(x.tag, daddr x)] } := by
  unfold State.post
  dsimp only
  rw [State.ring_setRing_same _ _ _ ((s.fetch_keeps' d n false).2.1 h).rings, State.fetch_ring s d n false h.rings]
  rfl

theorem State.post_ring_other (s : State) (d : Dom) (n : RingNo) (x : Desc) {j : Nat} (hj : j ≠ s.dring d n) : (s.post d n x).ring j = s.ring j :=
  (State.ring_setRing_other _ _ _ _ hj).trans (s.fetch_ring_other d n false hj)

theorem rxBuf_posts (hon : s.ringOn d n 1 = true) (hfetch : s.fetchable d n (dfence x) = true) (hres : reservedZero x [fAddr] = true)
    (halign : (daddr x).toNat % 64 = 0) (hframes : (s.ring (s.dring d n)).frames = []) (htab : TablesOk s) :
    Does (.rxBuf d n x) s fun t => (t.ring (s.dring d n)).posted = (s.ring (s.dring d n)).posted ++ [(x.tag, daddr x)] ∧
      (t.ring (s.dring d n)).head = (s.ring (s.dring d n)).head + 1 ∧ (∀ j, j ≠ s.dring d n → t.ring j = s.ring j) ∧ SameRegs s t ∧
      t.ports = s.ports := by
  have hring := s.post_ring d n x htab
  have hdring : (s.post d n x).dring d n = s.dring d n := s.fetch_dring d d n n false
  have hserve : (s.post d n x).serve d n = s.post d n x := State.serve_of_no_frames (by rw [hdring, hring]; exact hframes)
  have he : exec (.rxBuf d n x) s = finish (s.post d n x) := by
    change execRxBuf d n x s = _
    unfold execRxBuf
    rw [hon, hfetch, if_pos (by decide)]
    dsimp only
    rw [hres, halign, State.fetch_dring]
    exact congrArg finish hserve
  refine .of_finish he ⟨?_, ?_, fun j hj => ?_, SameRegs.of_regs (s.fetch_regs d n false), ?_⟩
  · rw [State.announce_ring, State.noteMay_ring, hring]
  · rw [State.announce_ring, State.noteMay_ring, hring]
  · rw [State.announce_ring, State.noteMay_ring, State.post_ring_other s d n x hj]
  · rw [State.announce_ports, State.noteMay_ports]
    exact s.fetch_ports d n false

theorem SameCq.fetch_buffer (h : RingReady ty s d n x) : SameCq s (s.fetch d n false) d n := by
  obtain ⟨o, ho⟩ := s.fetch_eq d n false
  rw [ho]
  exact ⟨fun _ => rfl, rfl, rfl, rfl, State.ring_setRing_other _ _ _ _ h.cq_ne⟩

/-- The empty return of a buffer, written at the index of its queue (R79, R86). -/
theorem SameCq.returnBuffer (g : SameCq s u d n) (h : RingReady ty s d n x) :
    Sends u (u.returnBuffer d n x.tag 0x32) (s.entryOut d (s.cqOf d n) { tag := x.tag, status := 0x32, num := n }) := by
  have hmute : (u.mute d || u.dev.recovery) = false := by rw [g.mute, h.mute, g.dev, h.path]; rfl
  have hroom : (u.ringOn d (u.cqOf d n) 3 && (u.ring (u.dring d (u.cqOf d n))).wait.isEmpty && decide (0 < u.room d (u.cqOf d n))) = true := by
    simp [g.cqOf, g.cqOn, h.cqOn, g.dring, g.ring, h.waitEmpty, g.room, h.room]
  have hcount : (if (0x32 : Byte) = 0x30 then u.countDev 0 else u) = u := if_neg (by decide)
  unfold State.returnBuffer State.completeE
  dsimp only
  rw [hcount, hmute, hroom, if_neg Bool.false_ne_true, if_pos rfl, ← g.entryOut]
  exact State.writeEntry_sends _ _ _ _ _

theorem rxBuf_malformed (h : RingReady 1 s d n x) (hbad : reservedZero x [fAddr] = false ∨ (daddr x).toNat % 64 ≠ 0) :
    Does (.rxBuf d n x) s fun t => Answered s t d n x 0x32 0 := by
  have he : exec (.rxBuf d n x) s = finish ((s.fetch d n false).returnBuffer d n x.tag 0x32) := by
    change execRxBuf d n x s = _
    unfold execRxBuf
    rw [h.on, show s.fetchable d n (dfence x) = true from h.fetch, if_pos (by decide)]
    dsimp only
    rw [if_pos (by rcases hbad with hb | hb <;> simp [hb])]
  exact .of_finish he (.of_sends (s.fetch_keeps' d n false) ((SameCq.fetch_buffer h).returnBuffer h))

end descriptors

/-- Settles O18: each descriptor is fetched, and then completed, or posted to a ring that has no frame to serve. -/
theorem nopBadOpcodeAndBuffers : Obligations.NopBadOpcodeAndBuffers := by
  unfold Obligations.NopBadOpcodeAndBuffers
  exact ⟨fun _ _ _ _ _ h hres hport => nop_does h hres hport, fun _ _ _ _ _ _ h hop hport => invalidOpcode_does h hop hport,
    fun _ _ _ _ hon hfetch hres halign hframes htab => rxBuf_posts hon hfetch hres halign hframes htab,
    fun _ _ _ _ h hbad => rxBuf_malformed h hbad⟩

end Sys2Proof.Machine

namespace Sys2Proof.Machine

/-! ### Active rings keep their index while entries are written and frames served -/

/-- A ring that is active stays active, with its index. -/
def KeepsIdx (s t : State) : Prop := ∀ i, (s.ring i).active = true → (t.ring i).active = true ∧ (t.ring i).idx = (s.ring i).idx

/-- Every part but the rings. -/
def notRings : List Part := everyPart.erase .rings

theorem mem_notRings {p : Part} (h : p ≠ .rings) : p ∈ notRings := (List.mem_erase_of_ne h).2 (mem_everyPart p)

section keepsIdx
variable {s t u : State}

theorem KeepsIdx.refl (s : State) : KeepsIdx s s := fun _ h => ⟨h, rfl⟩

theorem KeepsIdx.trans (h : KeepsIdx s t) (g : KeepsIdx t u) : KeepsIdx s u := fun i hi =>
  have ht := h i hi
  have hu := g i ht.1
  ⟨hu.1, hu.2.trans ht.2⟩

theorem KeepsIdx.of_only (h : Only notRings s t) : KeepsIdx s t := fun i hi => by
  rw [h.2 .rings (by decide) i]
  exact ⟨hi, rfl⟩

theorem KeepsIdx.of_rings (h : t.rings = s.rings) : KeepsIdx s t := fun i hi => by
  rw [State.ring, h]
  exact ⟨hi, rfl⟩

/-- An update of a ring that leaves ACTIVE and the index. -/
theorem KeepsIdx.setRing {i : Nat} {x : Ring} (ha : x.active = (s.ring i).active) (hx : x.idx = (s.ring i).idx) : KeepsIdx s (s.setRing i x) := by
  intro j hj
  by_cases hij : j = i
  · subst hij
    have hne : x ≠ {} := fun h => by
      rw [h] at ha
      exact Bool.false_ne_true (ha.trans hj)
    have hr : (s.setRing j x).ring j = x := Tbl.get_put_same_of_ne _ _ hne
    rw [hr, ha]
    exact ⟨hj, hx⟩
  · rw [State.ring_setRing_other _ _ _ _ hij]
    exact ⟨hj, rfl⟩

theorem KeepsIdx.foldl {α : Type} {f : State → α → State} (hf : ∀ s a, KeepsIdx s (f s a)) (l : List α) (s : State) : KeepsIdx s (l.foldl f s) := by
  induction l generalizing s with
  | nil => exact .refl s
  | cons a l ih => exact (hf s a).trans (ih _)

theorem State.endOp_keepsIdx (s : State) (d : Dom) (n : RingNo) : KeepsIdx s (s.endOp d n) := KeepsIdx.setRing rfl rfl

theorem State.writeEntry_keepsIdx (s : State) (d : Dom) (cq : RingNo) (e : CqEntry) (isOp : Bool) : KeepsIdx s (s.writeEntry d cq e isOp) := by
  unfold State.writeEntry
  extract_lets i r s1 s2 s3
  have h2 : KeepsIdx s s2 := KeepsIdx.setRing rfl rfl
  obtain ⟨o, ho⟩ := State.doorbell_eq s2 d (0x400 + 4 * cq.val) ((r.head + 1).setWidth 32)
  have h3 : KeepsIdx s s3 := h2.trans (.of_rings (show (s2.doorbell _ _ _).rings = _ by rw [ho]))
  split
  · exact h3.trans (State.endOp_keepsIdx _ _ _)
  · exact h3

theorem State.completeE_keepsIdx (s : State) (d : Dom) (e : CqEntry) (isOp : Bool) : KeepsIdx s (s.completeE d e isOp) := by
  unfold State.completeE
  extract_lets v cq i r w
  have hv : KeepsIdx s v := by
    unfold v
    split
    · exact .of_rings rfl
    · exact .refl s
  have hw : KeepsIdx v w := KeepsIdx.setRing rfl rfl
  refine hv.trans ?_
  split
  · split
    · exact State.endOp_keepsIdx _ _ _
    · exact .refl v
  · split
    · exact State.writeEntry_keepsIdx _ _ _ _ _
    · split
      · exact hw.trans (.of_rings rfl)
      · exact hw

theorem State.complete_keepsIdx (s : State) (o : Op) (st : Byte) (i0 : Word) (i1 : Half) (stamp : Option (BitVec 36)) (port : Byte) :
    KeepsIdx s (s.complete o st i0 i1 stamp port) := by
  unfold State.complete
  split
  · exact .refl s
  · exact State.completeE_keepsIdx _ _ _ _

theorem State.leaveSet_keepsIdx (s : State) (p : PortId) (c : Cand) (status : Byte) (stamp : Option (BitVec 36)) : KeepsIdx s (s.leaveSet p c status stamp) := by
  unfold State.leaveSet
  extract_lets x gone s1 s2 s3
  have h2 : KeepsIdx s s2 := by
    apply KeepsIdx.of_only
    apply State.clearPending_only (State.setPort_only (Only.refl s) (mem_notRings nofun)); exact mem_notRings nofun
  have h3 : KeepsIdx s s3 := by
    unfold s3
    split
    · exact h2
    · exact h2.trans (State.complete_keepsIdx _ _ _ _ _ _ _)
  split
  · split
    · refine h3.trans (.of_only ?_)
      apply State.tsqStamp_only (Only.refl s3) <;> exact mem_notRings nofun
    · exact h3
  · exact h3

theorem State.fillSlots_keepsIdx (s : State) (p : PortId) (n : Nat) : KeepsIdx s (s.fillSlots p n) := by
  induction n generalizing s with
  | zero => exact .refl s
  | succ n ih =>
    rw [State.fillSlots]
    dsimp only
    split
    · exact .refl s
    · split
      · exact .refl s
      · split
        · exact .trans (State.leaveSet_keepsIdx _ _ _ _ _) (ih _)
        · refine .trans ?_ (ih _)
          exact .of_rings rfl

theorem State.endCand_keepsIdx (s : State) (p : PortId) (c : Cand) (status : Byte) (stamp : Option (BitVec 36)) : KeepsIdx s (s.endCand p c status stamp) :=
  (s.leaveSet_keepsIdx p c status stamp).trans (State.fillSlots_keepsIdx _ p 32)

theorem State.settle_keepsIdx (s : State) : KeepsIdx s s.settle :=
  KeepsIdx.foldl (fun _ _ => (KeepsIdx.foldl (fun _ _ => State.endCand_keepsIdx _ _ _ _ _) _ _).trans (State.fillSlots_keepsIdx _ _ _)) _ s

theorem State.advance_keepsIdx (s : State) (r : DWord) : KeepsIdx s (s.advance r) := by
  rw [State.advance_eq]
  split
  · have hset : ∀ s : State, ∀ x, KeepsIdx s (s.setRaw x) := fun _ _ => .of_rings rfl
    refine .trans ?_ (hset _ r)
    split
    · exact (hset s _).trans (State.settle_keepsIdx _)
    · exact .refl s
  · exact .refl s

theorem State.drain_keepsIdx (s : State) (d : Dom) (cq : RingNo) (fuel : Nat) : KeepsIdx s (s.drain d cq fuel) := by
  induction fuel generalizing s with
  | zero => exact .refl s
  | succ fuel ih =>
    rw [State.drain]
    dsimp only
    split
    · exact .refl s
    · split
      · refine .trans (.trans ?_ (State.writeEntry_keepsIdx _ _ _ _ _)) (ih _)
        exact .setRing rfl rfl
      · exact .refl s

theorem State.writeBuffers_keepsIdx (s : State) (d : Dom) (n : RingNo) (w : RxWait) (size : Nat) (bufs : List (Half × DWord)) (bs : List Byte) :
    KeepsIdx s (s.writeBuffers d n w size bufs bs) := by
  induction bufs generalizing s bs with
  | nil => exact .refl s
  | cons b rest ih =>
    rw [State.writeBuffers]
    refine .trans (.trans ?_ (State.writeEntry_keepsIdx _ _ _ _ _)) (ih _ _)
    exact .of_rings (State.hostWrite_rings _ _ _ _)

theorem State.freeSpace_keepsIdx (s : State) (b i : Nat) : KeepsIdx s (s.freeSpace b i) := by
  apply KeepsIdx.of_only
  apply State.freeSpace_only (Only.refl s) <;> exact mem_notRings nofun

theorem State.serveRx_keepsIdx (s : State) (d : Dom) (n : RingNo) (fuel : Nat) : KeepsIdx s (s.serveRx d n fuel) := by
  induction fuel generalizing s with
  | zero => exact .refl s
  | succ fuel ih =>
    rw [State.serveRx]
    dsimp only
    split
    · exact .refl s
    · split
      · split
        · exact .refl s
        · split
          · refine .trans ?_ (ih _)
            exact .setRing rfl rfl
          · refine .trans (.trans ?_ (State.completeE_keepsIdx _ _ _ _)) (ih _)
            exact .setRing rfl rfl
      · split
        · refine .trans (.trans (.trans ?_ (State.writeBuffers_keepsIdx _ _ _ _ _ _ _)) (State.freeSpace_keepsIdx _ _ _)) (ih _)
          exact .setRing rfl rfl
        · exact .refl s

theorem State.serveCq_keepsIdx (s : State) (d : Dom) (cq : RingNo) : KeepsIdx s (s.serveCq d cq) := by
  refine KeepsIdx.foldl (fun s n => ?_) _ s
  split
  · exact State.serveRx_keepsIdx _ _ _ _
  · exact .refl s

theorem State.roomShown_keepsIdx (s : State) (d : Dom) (cq : RingNo) : KeepsIdx s (s.roomShown d cq) :=
  (s.drain_keepsIdx d cq _).trans (State.serveCq_keepsIdx _ _ _)

end keepsIdx

/-! ### Reads of an index (R64, R66, R73) -/

section indices
variable {s t u : State} {d : Dom} {n : RingNo} {w : Half} {v : Word}

/-- The ring with an index just read. -/
def State.setIdx (s : State) (d : Dom) (n : RingNo) (w : Half) : State :=
  s.setRing (s.dring d n) { s.ring (s.dring d n) with idx := w }

theorem State.setIdx_ring (h : Tbl.wf {} s.rings = true) : (s.setIdx d n w).ring (s.dring d n) = { s.ring (s.dring d n) with idx := w } :=
  State.ring_setRing_same _ _ _ h

theorem State.setIdx_other {j : Nat} (hj : j ≠ s.dring d n) : (s.setIdx d n w).ring j = s.ring j := State.ring_setRing_other _ _ _ _ hj

/-- PROD of a submission ring, no further ahead than the ring has entries, is taken (R73). -/
theorem State.readIndex_submission (hty : ringType (s.ringCfg (s.dring d n)) ≠ 3)
    (hroom : (w - (s.ring (s.dring d n)).head).toNat ≤ ringSize (s.ringCfg (s.dring d n))) : s.readIndex d n w = s.setIdx d n w := by
  unfold State.readIndex
  dsimp only
  rw [beq_eq_false_iff_ne.2 hty, if_neg Bool.false_ne_true, if_neg (by omega), if_neg Bool.false_ne_true]
  rfl

/-- CONS of a CQ, no further behind than the ring has entries, is taken, and shows room (R73, R83). -/
theorem State.readIndex_cq (hty : ringType (s.ringCfg (s.dring d n)) = 3)
    (hroom : ((s.ring (s.dring d n)).head - w).toNat ≤ ringSize (s.ringCfg (s.dring d n))) : s.readIndex d n w = (s.setIdx d n w).roomShown d n := by
  unfold State.readIndex
  dsimp only
  rw [beq_iff_eq.2 hty, if_pos rfl, if_neg (by omega), if_pos rfl]
  rfl

/-- An index further ahead than that disables the ring (R73). -/
theorem State.readIndex_beyond (hty : ringType (s.ringCfg (s.dring d n)) ≠ 3)
    (hroom : ringSize (s.ringCfg (s.dring d n)) < (w - (s.ring (s.dring d n)).head).toNat) :
    s.readIndex d n w = (s.ringFault d n 2).disableRing d n := by
  unfold State.readIndex
  dsimp only
  rw [beq_eq_false_iff_ne.2 hty, if_neg Bool.false_ne_true, if_pos hroom]

theorem devKick_named (hans : s.answers = true) (hact : s.active d = true) (hv : v.toNat % 512 = n.val) (hlive : s.ringLive d n = true)
    (hfault : s.rb (ringReg (s.dring d n) .status) 29 = false) (hty : ringType (s.ringCfg (s.dring d n)) ≠ 3)
    (hroom : (w - (s.ring (s.dring d n)).head).toNat ≤ ringSize (s.ringCfg (s.dring d n))) (htab : TablesOk s) (ws : List Half) :
    Does (.devKick d v (w :: ws)) s fun t => t.ring (s.dring d n) = { s.ring (s.dring d n) with idx := w } ∧
      (∀ j, j ≠ s.dring d n → t.ring j = s.ring j) ∧ SameRegs s t := by
  have hnth : nth? 64 (v.toNat % 512) = some n := by rw [hv]; simp [nth?]
  have he : exec (.devKick d v (w :: ws)) s = finish (s.setIdx d n w) := by
    change execDevKick d v (w :: ws) s = _
    unfold execDevKick
    dsimp only
    rw [if_neg (by simp [hans, hact]), if_neg (by omega), hnth]
    dsimp only
    rw [if_neg (by simp [hlive, hfault]), State.readIndex_submission hty hroom]
  refine .of_finish he ⟨?_, fun j hj => ?_, SameRegs.of_regs rfl⟩
  · rw [State.announce_ring, State.noteMay_ring, State.setIdx_ring htab.rings]
  · rw [State.announce_ring, State.noteMay_ring, State.setIdx_other hj]

/-! Time that passes leaves the rings' configuration. -/

theorem State.advance_reg (s : State) (x : DWord) {r : Reg} (hr : blockOf r ≠ .fn) : (s.advance x).reg r = s.reg r := by
  have h : Only [.counts, .free, .funcs, .halves, .objs, .out, .ports, .regs .fn, .rings, .tmu] s (s.advance x) := by
    apply State.advance_only (Only.refl s) <;> decide
  exact h.2 (.regs (blockOf r)) (by simpa using hr) r rfl

theorem State.advance_ringReg (s : State) (x : DWord) (i : Nat) (r : RingReg) : (s.advance x).reg (ringReg i r) = s.reg (ringReg i r) :=
  s.advance_reg x (show blockOf (ringReg i r) ≠ .fn from fun h => RegBlock.noConfusion h)

theorem State.advance_dring (s : State) (x : DWord) (d : Dom) (n : RingNo) : (s.advance x).dring d n = s.dring d n := by
  rw [State.dring, State.entry, State.advance_belay]
  rfl

/-- The instant of a poll is noted at its ring. -/
def State.polled (s : State) (i : Nat) : State := s.setRing i { s.ring i with polledAt := s.raw }

theorem State.polled_keepsIdx (s : State) (i : Nat) : KeepsIdx s (s.polled i) := .setRing rfl rfl

theorem State.polled_ring {i : Nat} (h : (s.ring i).active = true) : (s.polled i).ring i = { s.ring i with polledAt := s.raw } := by
  refine Tbl.get_put_same_of_ne _ _ fun hx => ?_
  have ha : (s.ring i).active = false := congrArg Ring.active hx
  exact Bool.false_ne_true (ha.symm.trans h)

theorem State.polled_other {i j : Nat} (h : j ≠ i) : (s.polled i).ring j = s.ring j := State.ring_setRing_other _ _ _ _ h

theorem State.ringLive_active (h : s.ringLive d n = true) : (s.ring (s.dring d n)).active = true := by
  simp only [State.ringLive, Bool.and_eq_true] at h
  exact h.1.2

section poll
variable {x : DWord} (hu : u = s.advance x)
include hu

theorem polled_dring (i : Nat) : (u.polled i).dring d n = s.dring d n := by
  subst hu
  exact s.advance_dring x d n

theorem polled_ringCfg (i j : Nat) : (u.polled i).ringCfg j = s.ringCfg j := by
  subst hu
  exact s.advance_ringReg x j .cfg

/-- A ring that is live is still active at the end of the interval. -/
theorem live_active (hlive : s.ringLive d n = true) : (u.ring (s.dring d n)).active = true := by
  subst hu
  exact (s.advance_keepsIdx x _ (State.ringLive_active hlive)).1

theorem polled_tables (i : Nat) (htab : TablesOk s) : TablesOk (u.polled i) := by
  subst hu
  have hk : Keeps false s ((s.advance x).polled i) := State.setRing_keeps (State.advance_keeps (Keeps.refl s))
  exact hk.2.1 htab

theorem readIndex_polled (hlive : s.ringLive d n = true) (hty : ringType (s.ringCfg (s.dring d n)) ≠ 3)
    (hroom : (w - (u.ring (s.dring d n)).head).toNat ≤ ringSize (s.ringCfg (s.dring d n))) :
    (u.polled (s.dring d n)).readIndex d n w = (u.polled (s.dring d n)).setIdx d n w := by
  refine State.readIndex_submission ?_ ?_ <;> rw [polled_dring hu, polled_ringCfg hu]
  · exact hty
  · rw [State.polled_ring (live_active hu hlive)]
    exact hroom

end poll

section ringPoll
variable (hlive : s.ringLive d n = true) (hpoll : s.rf (ringReg (s.dring d n) .poll) 0 10 ≠ 0)
  (hu : u = s.waitFrom (s.ring (s.dring d n)).polledAt (us (min 1000 (s.rf (ringReg (s.dring d n) .poll) 0 10) - 1)))
include hlive hpoll hu

theorem ringPoll_exec : exec (.ringPoll d n w) s = finish ((u.polled (s.dring d n)).readIndex d n w) := by
  change execRingPoll d n w s = _
  unfold execRingPoll
  dsimp only
  rw [if_pos (by simp [hlive, hpoll]), ← hu]
  rfl

theorem ringPoll_does (hty : ringType (s.ringCfg (s.dring d n)) ≠ 3)
    (hroom : (w - (u.ring (s.dring d n)).head).toNat ≤ ringSize (s.ringCfg (s.dring d n))) (htab : TablesOk s) :
    Does (.ringPoll d n w) s fun t => t.ring (s.dring d n) = { u.ring (s.dring d n) with idx := w, polledAt := u.raw } ∧
      (∀ j, j ≠ s.dring d n → t.ring j = u.ring j) ∧ SameRegs u t := by
  have hdring := polled_dring (d := d) (n := n) hu (s.dring d n)
  have he : exec (.ringPoll d n w) s = finish ((u.polled (s.dring d n)).setIdx d n w) := by
    rw [ringPoll_exec hlive hpoll hu, readIndex_polled hu hlive hty hroom]
  have hring := State.setIdx_ring (s := u.polled (s.dring d n)) (d := d) (n := n) (w := w) (polled_tables hu _ htab).rings
  have hother := fun j => State.setIdx_other (s := u.polled (s.dring d n)) (d := d) (n := n) (w := w) (j := j)
  rw [hdring] at hring hother
  refine .of_finish he ⟨?_, fun j hj => ?_, SameRegs.of_regs rfl⟩
  · rw [State.announce_ring, State.noteMay_ring, hring, State.polled_ring (live_active hu hlive)]
  · rw [State.announce_ring, State.noteMay_ring, hother j hj, State.polled_other hj]

end ringPoll

/-- What shows room writes entries and serves rings, and no register. -/
theorem State.roomShown_regs (s : State) (d : Dom) (cq : RingNo) (r : Reg) : (s.roomShown d cq).reg r = s.reg r := by
  have h : Only [.counts, .eths, .halves, .out, .ports, .rings] s (s.roomShown d cq) := by
    apply State.roomShown_only (Only.refl s) <;> decide
  exact h.2 (.regs (blockOf r)) (by simp) r rfl

theorem SameRegs.of_reg (h : ∀ r, u.reg r = s.reg r) : SameRegs s u.noteMay.announce := fun r => by
  have hk := u.noteMay.announce_kept r
  rwa [State.noteMay_reg, h r] at hk

theorem cqStallPoll_does (hlive : s.ringLive d n = true) (hstall : s.stalled d n = true) (hu : u = s.waitFrom (s.ring (s.dring d n)).polledAt (us 9))
    (hroom : ((u.ring (s.dring d n)).head - w).toNat ≤ ringSize (s.ringCfg (s.dring d n))) (htab : TablesOk s) :
    Does (.cqStallPoll d n w) s fun t => (t.ring (s.dring d n)).idx = w ∧ SameRegs u t := by
  have hdring := polled_dring (d := d) (n := n) hu (s.dring d n)
  have hpolled := State.polled_ring (live_active hu hlive)
  have hty : ringType (s.ringCfg (s.dring d n)) = 3 := by
    simp only [State.stalled, State.ringOn, Bool.and_eq_true, beq_iff_eq] at hstall
    exact hstall.1.2
  have hread : (u.polled (s.dring d n)).readIndex d n w = ((u.polled (s.dring d n)).setIdx d n w).roomShown d n := by
    refine State.readIndex_cq ?_ ?_ <;> rw [hdring, polled_ringCfg hu]
    · exact hty
    · rw [hpolled]
      exact hroom
  have he : exec (.cqStallPoll d n w) s = finish (((u.polled (s.dring d n)).setIdx d n w).roomShown d n) := by
    change execCqStallPoll d n w s = _
    unfold execCqStallPoll
    dsimp only
    rw [if_pos (by simp [hlive, hstall]), ← hu, ← hread]
    rfl
  have hring := State.setIdx_ring (s := u.polled (s.dring d n)) (d := d) (n := n) (w := w) (polled_tables hu _ htab).rings
  rw [hdring, hpolled] at hring
  have hkeeps := State.roomShown_keepsIdx ((u.polled (s.dring d n)).setIdx d n w) d n (s.dring d n) (by rw [hring]; exact live_active hu hlive)
  refine .of_finish he ⟨?_, SameRegs.of_reg fun r => (State.roomShown_regs _ d n r).trans rfl⟩
  rw [State.announce_ring, State.noteMay_ring, hkeeps.2, hring]

/-- Every part but the registers of the rings. -/
def notRingRegs : List Part := everyPart.erase (.regs .ring)

theorem mem_notRingRegs {p : Part} (h : p ≠ .regs .ring) : p ∈ notRingRegs := (List.mem_erase_of_ne h).2 (mem_everyPart p)

/-- Of the rings' registers, what a ring leaves behind that is disabled changes ENABLE alone (R71). -/
theorem State.disableRing_reg (s : State) (d : Dom) (n : RingNo) (i : Nat) (r : RingReg) :
    (s.disableRing d n).reg (ringReg i r) = (s.setRf (ringReg (s.dring d n) .cfg) 0 1 0).reg (ringReg i r) := by
  suffices h : Only notRingRegs (s.setRf (ringReg (s.dring d n) .cfg) 0 1 0) (s.disableRing d n) from h.2 (.regs .ring) (by decide) _ rfl
  unfold State.disableRing
  dsimp only
  split
  · split
    · apply State.withdrawEth_only (Only.refl _) <;> exact mem_notRingRegs nofun
    · apply State.fillSlots_only (State.withdrawRing_only (Only.refl _) (mem_notRingRegs nofun)) <;> exact mem_notRingRegs nofun
  · apply State.withdrawRx_only (Only.refl _) <;> exact mem_notRingRegs nofun
  · apply State.withdrawCmd_only (Only.refl _) <;> exact mem_notRingRegs nofun
  · exact Only.refl _

theorem ringReg_ne (i j : Nat) {q r : RingReg} (h : q ≠ r) : ringReg i q ≠ ringReg j r := fun e => h (Reg.ring.inj e).2

/-- A ring with a bad index has FAULT 1 and ENABLE 0 (R73). -/
theorem State.ringFault_disableRing (s : State) (d : Dom) (n : RingNo) (code : Nat) :
    bit (((s.ringFault d n code).disableRing d n).ringCfg (s.dring d n)) 0 = false ∧
      ((s.ringFault d n code).disableRing d n).rb (ringReg (s.dring d n) .status) 29 = true := by
  have hdring : (s.ringFault d n code).dring d n = s.dring d n := by simp [State.ringFault]
  constructor
  · rw [State.ringCfg, State.disableRing_reg, hdring, State.setRf, State.reg_setReg_same, bit, getLsbD_putFld _ _ _ _ _ (by decide), if_pos (by decide)]
    rfl
  · rw [State.rb, State.disableRing_reg, hdring, State.setRf, State.reg_setReg_other _ _ _ _ (ringReg_ne _ _ (q := .status) (r := .cfg) nofun), State.ringFault, State.reg_record,
      State.reg_raise_same, bit, getLsbD_setBit _ _ _ (by decide)]
    simp

theorem ringPoll_beyond (hlive : s.ringLive d n = true) (hpoll : s.rf (ringReg (s.dring d n) .poll) 0 10 ≠ 0)
    (hty : ringType (s.ringCfg (s.dring d n)) ≠ 3)
    (hu : u = s.waitFrom (s.ring (s.dring d n)).polledAt (us (min 1000 (s.rf (ringReg (s.dring d n) .poll) 0 10) - 1)))
    (hroom : ringSize (s.ringCfg (s.dring d n)) < (w - (u.ring (s.dring d n)).head).toNat) :
    Does (.ringPoll d n w) s fun t => bit (t.ringCfg (s.dring d n)) 0 = false ∧ t.rb (ringReg (s.dring d n) .status) 29 = true := by
  have hdring := polled_dring (d := d) (n := n) hu (s.dring d n)
  have hread : (u.polled (s.dring d n)).readIndex d n w = ((u.polled (s.dring d n)).ringFault d n 2).disableRing d n := by
    refine State.readIndex_beyond ?_ ?_ <;> rw [hdring, polled_ringCfg hu]
    · exact hty
    · rw [State.polled_ring (live_active hu hlive)]
      exact hroom
  obtain ⟨hcfg, hstatus⟩ := (u.polled (s.dring d n)).ringFault_disableRing d n 2
  rw [hdring, ← hread] at hcfg hstatus
  refine .of_finish (ringPoll_exec hlive hpoll hu) ⟨?_, ?_⟩
  · rw [State.ringCfg, State.announce_reg _ _ fun h => RegBlock.noConfusion h]
    exact hcfg
  · rw [State.announce_rb _ _ _ fun h => RegBlock.noConfusion h]
    exact hstatus

/-! A kick of all. -/

/-- The indices of a kick of all are taken ring by ring. -/
def State.kickAll (s : State) (d : Dom) (l : List (RingNo × Half)) : State :=
  l.foldl (fun s e => if s.ringLive d e.1 then s.readIndex d e.1 e.2 else s) s

/-- A ring that a kick takes an index of: a live submission ring, with an index no further ahead than it has entries. -/
def Kicks (s : State) (d : Dom) (e : RingNo × Half) : Prop :=
  s.ringLive d e.1 = true ∧ ringType (s.ringCfg (s.dring d e.1)) ≠ 3 ∧
    (e.2 - (s.ring (s.dring d e.1)).head).toNat ≤ ringSize (s.ringCfg (s.dring d e.1))

theorem State.dring_ne (s : State) (d : Dom) {m n : RingNo} (h : m ≠ n) : s.dring d m ≠ s.dring d n := fun e =>
  h (Fin.ext (Nat.add_left_cancel e))

theorem Kicks.setIdx {e : RingNo × Half} (h : Kicks s d e) (hn : e.1 ≠ n) : Kicks (s.setIdx d n w) d e := by
  have hring : (s.setIdx d n w).ring (s.dring d e.1) = s.ring (s.dring d e.1) := State.setIdx_other (s.dring_ne d hn)
  have hlive : (s.setIdx d n w).ringLive d e.1 = s.ringLive d e.1 := by
    unfold State.ringLive
    dsimp only
    rw [show (s.setIdx d n w).dring d e.1 = s.dring d e.1 from rfl, hring]
    rfl
  unfold Kicks
  rw [hlive, show (s.setIdx d n w).dring d e.1 = s.dring d e.1 from rfl, hring]
  exact h

theorem State.kickAll_spec {l : List (RingNo × Half)} (hwf : Tbl.wf {} s.rings = true) (hnd : (l.map Prod.fst).Nodup) (hl : ∀ e ∈ l, Kicks s d e) :
    (∀ e ∈ l, ((s.kickAll d l).ring (s.dring d e.1)).idx = e.2) ∧ (s.kickAll d l).regs = s.regs ∧
      ∀ j, (∀ e ∈ l, j ≠ s.dring d e.1) → (s.kickAll d l).ring j = s.ring j := by
  induction l generalizing s with
  | nil => exact ⟨nofun, rfl, fun _ _ => rfl⟩
  | cons a l ih =>
    rw [List.map_cons, List.nodup_cons] at hnd
    obtain ⟨hlive, hty, hroom⟩ := hl a List.mem_cons_self
    have hne : ∀ e ∈ l, e.1 ≠ a.1 := fun e he h => hnd.1 (h ▸ List.mem_map_of_mem he)
    have hstep : s.kickAll d (a :: l) = (s.setIdx d a.1 a.2).kickAll d l := by
      rw [State.kickAll, List.foldl_cons, if_pos hlive, State.readIndex_submission hty hroom]
      rfl
    obtain ⟨hidx, hregs, hother⟩ := ih (s := s.setIdx d a.1 a.2) (Tbl.wf_put _ _ _ hwf) hnd.2
      fun e he => (hl e (List.mem_cons_of_mem _ he)).setIdx (hne e he)
    rw [hstep]
    refine ⟨fun e he => ?_, hregs, fun j hj => ?_⟩
    · rcases List.mem_cons.1 he with rfl | he
      · rw [hother _ fun b hb => s.dring_ne d (hne b hb).symm, State.setIdx_ring hwf]
      · exact hidx e he
    · rw [hother j fun e he => hj e (List.mem_cons_of_mem _ he), State.setIdx_other (hj a List.mem_cons_self)]

theorem devKick_all (hans : s.answers = true) (hact : s.active d = true) (hv : v.toNat % 512 = 0x1FF) {ws : List Half}
    (hlen : (s.liveSubmission d).length ≤ ws.length) (htab : TablesOk s)
    (hroom : ∀ e ∈ (s.liveSubmission d).zip ws, (e.2 - (s.ring (s.dring d e.1)).head).toNat ≤ ringSize (s.ringCfg (s.dring d e.1))) :
    Does (.devKick d v ws) s fun t => (∀ e ∈ (s.liveSubmission d).zip ws, (t.ring (s.dring d e.1)).idx = e.2) ∧ SameRegs s t := by
  have he : exec (.devKick d v ws) s = finish (s.kickAll d ((s.liveSubmission d).zip ws)) := by
    change execDevKick d v ws s = _
    unfold execDevKick
    dsimp only
    rw [if_neg (by simp [hans, hact]), if_pos hv, if_neg (by omega)]
    rfl
  have hnd : (((s.liveSubmission d).zip ws).map Prod.fst).Nodup := by
    rw [List.map_fst_zip hlen]
    exact (List.nodup_finRange 64).filter _
  obtain ⟨hidx, hregs, -⟩ := State.kickAll_spec htab.rings hnd fun e he => by
    have hmem := (List.mem_filter.1 (List.of_mem_zip he).1).2
    rw [Bool.and_eq_true, bne_iff_ne] at hmem
    exact ⟨hmem.1, hmem.2, hroom e he⟩
  refine .of_finish he ⟨fun e hmem => ?_, SameRegs.of_regs hregs⟩
  rw [State.announce_ring, State.noteMay_ring]
  exact hidx e hmem

end indices

/-- Settles O16: an index within the ring is taken at its ring alone; one that lies beyond makes the fault; the room that a CQ shows is used without its
index being touched. -/
theorem indexReads : Obligations.IndexReads := by
  unfold Obligations.IndexReads
  exact ⟨fun _ _ _ _ _ ws hans hact hv hlive hfault hty hroom htab => devKick_named hans hact hv hlive hfault hty hroom htab ws,
    fun _ _ _ _ _ hlive hpoll hty hu hroom htab => ringPoll_does hlive hpoll hu hty hroom htab,
    fun _ _ _ _ _ hlive hstall hu hroom htab => cqStallPoll_does hlive hstall hu hroom htab,
    fun _ _ _ _ _ hlive hpoll hty hu hroom => ringPoll_beyond hlive hpoll hty hu hroom,
    fun _ _ _ _ hans hact hv hlen htab hroom => devKick_all hans hact hv hlen htab hroom⟩

end Sys2Proof.Machine

namespace Sys2Proof.Machine

/-! ### What time that passes leaves of a port, of Tarn and of the filters (R224) -/

/-- A port without its candidates. -/
def Port.noCands (x : Port) : Port := { x with cands := [], left := [], nextOrder := 0 }

/-- What does not look at a port's candidates is the same of it. -/
theorem Port.eq_of_noCands {α : Type} {x y : Port} (h : x.noCands = y.noCands) (g : Port → α) (hg : ∀ z, g z = g z.noCands) : g x = g y := by
  rw [hg x, hg y, h]

/-- Tarn, the filter elements and the ports are the same, but for the ports' candidates. -/
structure SameButCands (s t : State) : Prop where
  tarn : t.tarn = s.tarn
  flt : t.flt = s.flt
  ports : ∀ p, (t.port p).noCands = (s.port p).noCands

section settling
variable {s t u : State}

theorem SameButCands.refl (s : State) : SameButCands s s := ⟨rfl, rfl, fun _ => rfl⟩

theorem SameButCands.trans (h : SameButCands s t) (g : SameButCands t u) : SameButCands s u :=
  ⟨g.tarn.trans h.tarn, g.flt.trans h.flt, fun p => (g.ports p).trans (h.ports p)⟩

theorem SameButCands.of_eq (ht : t.tarn = s.tarn) (hf : t.flt = s.flt) (hp : t.ports = s.ports) : SameButCands s t :=
  ⟨ht, hf, fun p => by rw [State.port, State.port, hp]⟩

theorem SameButCands.setPort {p : PortId} {x : Port} (h : x.noCands = (s.port p).noCands) : SameButCands s (s.setPort p x) := by
  refine ⟨rfl, rfl, fun q => ?_⟩
  by_cases hq : q = p
  · rw [hq, State.port_setPort_same, h]
  · rw [State.port_setPort_other _ _ _ _ hq]

theorem SameButCands.foldl {α : Type} {f : State → α → State} (hf : ∀ s a, SameButCands s (f s a)) (l : List α) (s : State) :
    SameButCands s (l.foldl f s) := by
  induction l generalizing s with
  | nil => exact .refl s
  | cons a l ih => exact (hf s a).trans (ih _)

theorem State.complete_sameButCands (s : State) (o : Op) (st : Byte) (i0 : Word) (i1 : Half) (stamp : Option (BitVec 36)) (port : Byte) :
    SameButCands s (s.complete o st i0 i1 stamp port) := .of_eq (by simp) (by simp) (by simp)

theorem State.tsqEntry_sameButCands (s : State) (d : Dom) (tag : Half) (ring kind : Nat) (port : Byte) (tail : List Byte) :
    SameButCands s (s.tsqEntry d tag ring kind port tail) := by
  unfold State.tsqEntry
  split
  · exact .refl s
  · extract_lets f full cons u v w ovf b2 e x
    have hu : SameButCands s u := by
      unfold u
      split <;> exact .of_eq rfl rfl rfl
    split
    · have hw : SameButCands s w := hu.trans (.of_eq rfl rfl rfl)
      split
      · exact hw
      · exact hw.trans (.of_eq rfl rfl rfl)
    · have hx : SameButCands s x := hu.trans (.of_eq rfl rfl rfl)
      obtain ⟨o, ho⟩ := State.doorbell_eq x d 0x500 ((f.tsqProd + 1).setWidth 32)
      rw [ho]
      exact hx.trans (.of_eq rfl rfl rfl)

theorem State.clearPending_sameButCands (s : State) (d : Dom) (c : Source) : SameButCands s (s.clearPending d c) := by
  cases c with
  | obj o => exact .of_eq rfl rfl rfl
  | ring n => exact .refl s

theorem State.leaveSet_sameButCands (s : State) (p : PortId) (c : Cand) (status : Byte) (stamp : Option (BitVec 36)) :
    SameButCands s (s.leaveSet p c status stamp) := by
  unfold State.leaveSet
  extract_lets x gone s1 s2 s3
  have h1 : SameButCands s s1 := .setPort rfl
  have h2 : SameButCands s s2 := h1.trans (State.clearPending_sameButCands _ _ _)
  have h3 : SameButCands s s3 := by
    unfold s3
    split
    · exact h2
    · exact h2.trans (State.complete_sameButCands _ _ _ _ _ _ _)
  split
  · split
    · refine h3.trans ?_
      unfold State.tsqStamp
      split
      · exact .refl s3
      · exact State.tsqEntry_sameButCands _ _ _ _ _ _ _
    · exact h3
  · exact h3

theorem State.fillSlots_sameButCands (s : State) (p : PortId) (n : Nat) : SameButCands s (s.fillSlots p n) := by
  induction n generalizing s with
  | zero => exact .refl s
  | succ n ih =>
    rw [State.fillSlots]
    dsimp only
    split
    · exact .refl s
    · split
      · exact .refl s
      · split
        · exact .trans (State.leaveSet_sameButCands _ _ _ _ _) (ih _)
        · refine .trans ?_ (ih _)
          exact .setPort rfl

theorem State.endCand_sameButCands (s : State) (p : PortId) (c : Cand) (status : Byte) (stamp : Option (BitVec 36)) :
    SameButCands s (s.endCand p c status stamp) :=
  (s.leaveSet_sameButCands p c status stamp).trans (State.fillSlots_sameButCands _ p 32)

theorem State.settle_sameButCands (s : State) : SameButCands s s.settle :=
  SameButCands.foldl (fun _ _ => (SameButCands.foldl (fun _ _ => State.endCand_sameButCands _ _ _ _ _) _ _).trans
    (State.fillSlots_sameButCands _ _ _)) _ s

theorem State.advance_sameButCands (s : State) (r : DWord) : SameButCands s (s.advance r) := by
  rw [State.advance_eq]
  have hset : ∀ s : State, ∀ x, SameButCands s (s.setRaw x) := fun _ _ => .of_eq rfl rfl rfl
  split
  · refine .trans ?_ (hset _ r)
    split
    · exact (hset s _).trans (State.settle_sameButCands _)
    · exact .refl s
  · exact .refl s

end settling

/-! ### A frame that a port hears (R86, R124, R156, R400) -/

section reception
variable {s u : State} {p : PortId} {f : CanFrame} {tm : FrameTimes}

/-- The group of a port is read from the members' registers, the entries and the groups. -/
theorem State.liveGroup_of_eq (hr : ∀ k, u.reg (.grp k .members) = s.reg (.grp k .members)) (hb : u.belay = s.belay) (hg : u.groups = s.groups)
    (p : PortId) : u.liveGroup p = s.liveGroup p := by
  have howner : ∀ q, u.ownerBy q = s.ownerBy q := fun q => by simp only [State.ownerBy, State.entry, hb]
  have hgroup : u.group = s.group := funext fun k => by rw [State.group, State.group, hg]
  have hmember : ∀ k, (u.rb (.grp k .members) p.val && decide (u.grpOwner k = u.portOwner p)) =
      (s.rb (.grp k .members) p.val && decide (s.grpOwner k = s.portOwner p)) := fun k => by
    rw [State.rb, hr, State.grpOwner, State.portOwner, howner, howner]
    rfl
  have hgroupOf : u.groupOf p = s.groupOf p := congrArg (grpIds.find? ·) (funext hmember)
  rw [State.liveGroup, State.liveGroup, hgroupOf, hgroup]

theorem Only.liveGroup {ps : List Part} (h : Only ps s u) (hr : Part.regs .grp ∉ ps) (h1 : Part.partition ∉ ps) (h2 : Part.keys ∉ ps)
    (h3 : Part.otp ∉ ps) (h4 : Part.trust ∉ ps) (hg : Part.groups ∉ ps) (p : PortId) : u.liveGroup p = s.liveGroup p :=
  State.liveGroup_of_eq (fun _ => h.2 (.regs .grp) hr _ rfl) (h.belay_eq h1 h2 h3 h4) (h.2 .groups hg) p

/-- A frame that counts towards promotion changes the count and the state of its port, and its event bits (R124). -/
theorem State.promote_eq (s : State) (p : PortId) :
    ∃ n st g, s.promote p = { s.setPort p { s.port p with promoteCnt := n, state := st } with regs := g } := by
  unfold State.promote
  extract_lets x n need
  split
  · exact ⟨x.promoteCnt, x.state, s.regs, (setPort_self s p).symm⟩
  · split
    · unfold State.showPort
      dsimp only
      split
      · exact ⟨_, _, _, rfl⟩
      · exact ⟨_, _, _, rfl⟩
    · exact ⟨_, x.state, s.regs, rfl⟩

theorem State.promoteBy_alone (h : (s.promote p).liveGroup p = none) : s.promoteBy p = s.promote p := by
  unfold State.promoteBy
  dsimp only
  split
  next k hk =>
    rw [State.anchorOf, Option.filter_eq_some_iff] at hk
    have hstop : ((s.promote p).group k).state = .stopped := by
      rw [State.liveGroup, hk.1] at h
      simpa [Option.filter] using h
    rw [if_neg fun hc => hc.1 hstop]
  next => rfl

/-- What the bus leaves of a port that hears a frame of it without error: REC falls, the bus is idle, the frame is counted, and the port may be
promoted (R124, R207). -/
def State.heard (s : State) (p : PortId) (f : CanFrame) : State :=
  let s := s.setPort p { s.port p with rec_ := recDown (s.port p).rec_, suspend := false, busIdle := true }
  ((s.countFrame p f true).ackReset p).promote p

theorem State.heard_eq (s : State) (p : PortId) (f : CanFrame) : ∃ n st g c h, s.heard p f =
    { s.setPort p { s.port p with
        rec_ := recDown (s.port p).rec_, suspend := false, busIdle := true, ackRun := 0, lone := false, promoteCnt := n, state := st } with
      regs := g, counts := c, halves := h } := by
  let v : State := ((s.setPort p { s.port p with rec_ := recDown (s.port p).rec_, suspend := false, busIdle := true }).countFrame p f true).ackReset p
  have hport : v.port p = { s.port p with rec_ := recDown (s.port p).rec_, suspend := false, busIdle := true, ackRun := 0, lone := false } := by
    simp [v, State.ackReset, State.countFrame]
  obtain ⟨n, st, g, hv⟩ := v.promote_eq p
  refine ⟨n, st, g, v.counts, v.halves, hv.trans ?_⟩
  rw [hport]
  simp [v, State.setPort, State.ackReset, State.countFrame, State.countPort, State.count, State.countBy]

theorem State.heard_only (s : State) (p : PortId) (f : CanFrame) : Only [.ports, .counts, .halves, .regs .port] s (s.heard p f) := by
  apply State.promote_only (State.setPort_only (State.countFrame_only (State.setPort_only (Only.refl s) ?_) ?_ ?_) ?_) <;> decide

/-- The frame that a port outside a live group takes (R156). -/
def State.taken (s : State) (p : PortId) (f : CanFrame) (tm : FrameTimes) : RxFrame :=
  { frame := f, sof := tm.sof - BitVec.ofNat 64 (s.rf (.port p .rxdly) 0 16), arrived := p }

/-- Time as it stands when a frame is complete. -/
def State.framed (s : State) (tm : FrameTimes) : State := (s.advance tm.sof).advance tm.done

theorem State.framed_only (s : State) (tm : FrameTimes) :
    Only [.counts, .free, .funcs, .halves, .objs, .out, .ports, .regs .fn, .rings, .tmu] s (s.framed tm) := by
  apply State.advance_only (State.advance_only (Only.refl s) ?_ ?_ ?_ ?_ ?_ ?_ ?_ ?_ ?_ ?_) <;> decide

theorem State.framed_sameButCands (s : State) (tm : FrameTimes) : SameButCands s (s.framed tm) :=
  (s.advance_sameButCands tm.sof).trans (State.advance_sameButCands _ tm.done)

theorem State.framed_liveGroup (s : State) (tm : FrameTimes) (p : PortId) : (s.framed tm).liveGroup p = s.liveGroup p :=
  (s.framed_only tm).liveGroup (by decide) (by decide) (by decide) (by decide) (by decide) (by decide) p

theorem State.heard_liveGroup (s : State) (p : PortId) (f : CanFrame) : (s.heard p f).liveGroup p = s.liveGroup p :=
  (s.heard_only p f).liveGroup (by decide) (by decide) (by decide) (by decide) (by decide) (by decide) p

theorem State.receiveOp_alone (hgroup : s.liveGroup p = none) : s.receiveOp p f tm p =
    if (s.port p).state = .isolated then ((s.framed tm).heard p f).pushFifo p (s.taken p f tm)
    else ((s.framed tm).heard p f).stageFrame p (s.taken p f tm) := by
  have hframed : (s.framed tm).liveGroup p = none := (s.framed_liveGroup tm p).trans hgroup
  have hheard : ((s.framed tm).heard p f).liveGroup p = none := ((s.framed tm).heard_liveGroup p f).trans hframed
  have hstate : ((s.framed tm).port p).state = (s.port p).state := Port.eq_of_noCands ((s.framed_sameButCands tm).ports p) Port.state fun _ => rfl
  have hstamp : (s.framed tm).stampOf p tm.sof = (s.taken p f tm).sof := by
    rw [State.stampOf, hframed]
    exact congrArg (fun w : DWord => tm.sof - BitVec.ofNat 64 (fld w 0 16)) ((s.framed_only tm).2 (.regs .port) (by decide) _ rfl)
  unfold State.receiveOp
  extract_lets s1 corrected x s2 s3 s4 s5 s6 r
  have h5 : s5 = (s.framed tm).heard p f := State.promoteBy_alone hheard
  have h6 : s6 = s5 := by
    unfold s6
    rw [h5, hheard]
  have hr : r = s.taken p f tm := by
    unfold r
    rw [show corrected = _ from hstamp]
    rfl
  rw [h6, h5, hr, show x.state = _ from hstate]

theorem fin_val (p : PortId) : fin 32 p.val = p := Fin.ofNat_val_eq_self p

/-- A frame for which its port's share has room takes its place in staging (R87, R156). -/
theorem State.stageFrame_room {r : RxFrame} (h : usedUnits (s.port p).spaces + stageUnits r.frame.data.length ≤ 96) : s.stageFrame p r =
    { s.setPort p { s.port p with
        spaces := (s.port p).spaces ++ [⟨(s.port p).nextSpace, stageUnits r.frame.data.length, 1⟩], nextSpace := (s.port p).nextSpace + 1 } with
      rxq := s.rxq ++ [(p, { r with space := (s.port p).nextSpace, done := s.raw })] } := by
  unfold State.stageFrame State.takeSpace State.share
  dsimp only
  rw [if_pos p.isLt, fin_val, if_neg (by omega), if_pos p.isLt]
  rfl

theorem frameReceived_exec (hfam : s.otherFamily p = false) (hgroup : s.liveGroup p = none) (hhears : s.hears p f = true) :
    exec (.frameReceived p f tm p) s = finish (s.receiveOp p f tm p) := by
  change execFrameReceived p f tm p s = _
  unfold execFrameReceived
  rw [if_neg (by simp [hfam]), hgroup]
  dsimp only
  rw [if_pos (by simp [hhears])]

theorem frameReceived_staged (hfam : s.otherFamily p = false) (hgroup : s.liveGroup p = none) (hhears : s.hears p f = true)
    (hst : (s.port p).state ≠ .isolated) (hroom : usedUnits (s.port p).spaces + stageUnits f.data.length ≤ 96) :
    Does (.frameReceived p f tm p) s fun t => (∃ r, t.rxq = s.rxq ++ [(p, r)] ∧ r.frame = f ∧
        r.sof = tm.sof - BitVec.ofNat 64 (s.rf (.port p .rxdly) 0 16) ∧ r.arrived = p ∧
        r.done = ((s.advance tm.sof).advance tm.done).raw ∧ r.space = (s.port p).nextSpace) ∧ (t.port p).rec_ = recDown (s.port p).rec_ ∧
      (t.port p).tec = (s.port p).tec ∧ t.tarn = s.tarn ∧ t.flt = s.flt := by
  obtain ⟨htarn, hflt, hports⟩ := s.framed_sameButCands tm
  have hrxq : (s.framed tm).rxq = s.rxq := (s.framed_only tm).2 .rxq (by decide)
  have hspaces : ((s.framed tm).port p).spaces = (s.port p).spaces := Port.eq_of_noCands (hports p) Port.spaces fun _ => rfl
  have hnext : ((s.framed tm).port p).nextSpace = (s.port p).nextSpace := Port.eq_of_noCands (hports p) Port.nextSpace fun _ => rfl
  have hrec : ((s.framed tm).port p).rec_ = (s.port p).rec_ := Port.eq_of_noCands (hports p) Port.rec_ fun _ => rfl
  have htec : ((s.framed tm).port p).tec = (s.port p).tec := Port.eq_of_noCands (hports p) Port.tec fun _ => rfl
  obtain ⟨n, st, g, c, h, hheard⟩ := (s.framed tm).heard_eq p f
  have hport : ((s.framed tm).heard p f).port p = { (s.framed tm).port p with
      rec_ := recDown ((s.framed tm).port p).rec_, suspend := false, busIdle := true, ackRun := 0, lone := false, promoteCnt := n, state := st } := by
    rw [hheard]
    exact State.port_setPort_same _ _ _
  have hstage := State.stageFrame_room (s := (s.framed tm).heard p f) (p := p) (r := s.taken p f tm) (by rw [hport, hspaces]; exact hroom)
  have he := frameReceived_exec (tm := tm) hfam hgroup hhears
  rw [State.receiveOp_alone hgroup, if_neg hst, hstage] at he
  refine .of_finish he ⟨⟨{ s.taken p f tm with space := (((s.framed tm).heard p f).port p).nextSpace, done := ((s.framed tm).heard p f).raw }, ?_, rfl, rfl,
    rfl, ?_, ?_⟩, ?_, ?_, ?_, ?_⟩
  · rw [State.announce_rxq, State.noteMay_rxq, hheard]
    exact congrArg (· ++ _) hrxq
  · show ((s.framed tm).heard p f).raw = (s.framed tm).raw
    rw [hheard]
    rfl
  · rw [hport, hnext]
  · rw [State.announce_port, State.noteMay_port]
    refine (congrArg Port.rec_ (State.port_setPort_same _ _ _)).trans ?_
    rw [hport, hrec]
  · rw [State.announce_port, State.noteMay_port]
    refine (congrArg Port.tec (State.port_setPort_same _ _ _)).trans ?_
    rw [hport, htec]
  · rw [State.announce_tarn, State.noteMay_tarn, hheard]
    exact htarn
  · rw [State.announce_flt, State.noteMay_flt, hheard]
    exact hflt

theorem frameReceived_isolated (hfam : s.otherFamily p = false) (hgroup : s.liveGroup p = none) (hhears : s.hears p f = true)
    (hst : (s.port p).state = .isolated) (hroom : (s.port p).fifo.length < 4) :
    Does (.frameReceived p f tm p) s fun t => (∃ r, (t.port p).fifo = (s.port p).fifo ++ [r] ∧ r.frame = f) ∧ t.rxq = s.rxq := by
  have hrxq : (s.framed tm).rxq = s.rxq := (s.framed_only tm).2 .rxq (by decide)
  have hfifo : ((s.framed tm).port p).fifo = (s.port p).fifo := Port.eq_of_noCands ((s.framed_sameButCands tm).ports p) Port.fifo fun _ => rfl
  obtain ⟨n, st, g, c, h, hheard⟩ := (s.framed tm).heard_eq p f
  have hheardFifo : (((s.framed tm).heard p f).port p).fifo = (s.port p).fifo := by
    rw [hheard]
    exact (congrArg Port.fifo (State.port_setPort_same _ _ _)).trans hfifo
  have he := frameReceived_exec (tm := tm) hfam hgroup hhears
  rw [State.receiveOp_alone hgroup, if_pos hst, State.pushFifo, hheardFifo, if_pos hroom] at he
  refine .of_finish he ⟨⟨s.taken p f tm, ?_, rfl⟩, ?_⟩
  · rw [State.announce_port, State.noteMay_port, State.port_setPort_same]
  · rw [State.announce_rxq, State.noteMay_rxq, State.setPort_rxq, hheard]
    exact hrxq

/-- A star takes nothing from a branch that it ignores (R240). -/
theorem frameReceived_ignored {q : PortId} {k : GrpId} (hfam : s.otherFamily p = false) (hgroup : s.liveGroup p = some k)
    (hignored : ((s.group k).branches[(fin 16 (s.branchNo k (s.arrivedOn k q)) : Fin 16)]).ignored = true) :
    Does (.frameReceived p f tm q) s fun t => t = s := by
  refine .of_next ?_ rfl
  change execFrameReceived p f tm q s = _
  unfold execFrameReceived
  rw [if_neg (by simp [hfam]), hgroup]
  dsimp only
  rw [if_pos (by simp only [Bool.or_eq_true]; exact .inl (.inl hignored))]

end reception

/-- Settles O35: time that passes until the frame is complete leaves the port, and what the port takes of the frame is then its staging or its FIFO. -/
theorem frameReception : Obligations.FrameReception := by
  unfold Obligations.FrameReception
  exact ⟨fun _ _ _ _ hfam hgroup hhears hst hroom => frameReceived_staged hfam hgroup hhears hst hroom,
    fun _ _ _ _ hfam hgroup hhears hst hroom => frameReceived_isolated hfam hgroup hhears hst hroom,
    fun _ _ _ _ _ _ hfam hgroup hignored => frameReceived_ignored hfam hgroup hignored⟩

end Sys2Proof.Machine

namespace Sys2Proof.Machine

/-! ### Ports one after another: how changes of one port and of its event register combine -/

section becomes
variable {s u v : State} {p : PortId} {x y : Port} {w z : DWord}

theorem PortBecomes.port (h : PortBecomes s u p x w) : u.port p = x := by
  have hu : u.port p = (s.setPort p x).port p := by rw [State.port, h.ports, State.port, State.setPort]
  rw [hu, State.port_setPort_same]

theorem PortBecomes.trans (h : PortBecomes s u p x w) (g : PortBecomes u v p y z) : PortBecomes s v p y z :=
  ⟨by rw [g.ports, h.ports, Vector.set_set], g.evt, fun r hr => (g.regs r hr).trans (h.regs r hr)⟩

theorem PortBecomes.setPort (x : Port) : PortBecomes s (s.setPort p x) p x (s.reg (.port p .evt)) := ⟨rfl, rfl, fun _ _ => rfl⟩

theorem PortBecomes.raised (i : Nat) : PortBecomes s (s.portEvt p i) p (s.port p) (setBit (s.reg (.port p .evt)) i) := by
  have h := PortBecomes.portEvt (s := s) (p := p) (s.port p) i
  rwa [setPort_self] at h

/-- A port that shows a state has its event register with STATE_CHG set, or as it was. -/
theorem PortBecomes.shown (s : State) (p : PortId) (x : Port) : ∃ w, PortBecomes s (s.showPort p x) p x w := by
  by_cases h : (s.port p).state = x.state
  · have he : s.showPort p x = s.setPort p x := by
      unfold State.showPort
      dsimp only
      rw [if_pos h]
    rw [he]
    exact ⟨_, .setPort x⟩
  · exact ⟨_, .showPort h⟩

theorem PortBecomes.complete (h : PortBecomes s u p x w) (o : Op) (st : Byte) : PortBecomes s (u.complete o st) p x w := by
  refine ⟨by rw [State.complete_ports, h.ports], ?_, fun r hr => ?_⟩
  · rw [State.reg, State.complete_regs, ← h.evt, State.reg]
  · rw [State.reg, State.complete_regs, ← h.regs r hr, State.reg]

theorem bit_setBit_self (w : DWord) {i : Nat} (hi : i < 64) : bit (setBit w i) i = true := by
  rw [bit, getLsbD_setBit _ _ _ hi, decide_eq_true rfl, Bool.or_true]

theorem bit_setBit_of_bit {w : DWord} {j : Nat} (i : Nat) (hj : j < 64) (h : bit w j = true) : bit (setBit w i) j = true := by
  rw [bit] at h ⊢
  rw [getLsbD_setBit _ _ _ hj, h, Bool.true_or]

theorem PortLeft.rb {t : State} (h : PortLeft s t p x w) (i : Nat) : t.rb (.port p .evt) i = bit w i := by rw [State.rb, h.evt]

theorem SameRegs.other {t : State} (h : SameRegs s t) (rs : List Reg) : OtherRegs s t rs := fun r _ => h r

/-- What every command ends with leaves the other ports of a state that differs in one. -/
theorem OtherPorts.of_set (h : u.ports = s.ports.set p x) : OtherPorts s u.noteMay.announce p := fun q hq => by
  rw [State.announce_port, State.noteMay_port, State.port, h]
  exact State.port_setPort_other s p q x hq

end becomes

/-! ### START and STOP of a port (R109, R125, R126) -/

section startStop
variable {s : State} {d : Dom} {p : PortId}

/-- What a port is when it takes part in the bus, as far as the statements ask (R125). -/
structure PortStarts (s : State) (p : PortId) (x : Port) : Prop where
  state : x.state = if s.testMode p = 0 then PState.startup else .test
  tec : x.tec = 0
  rec_ : x.rec_ = 0
  count : x.promoteCnt = 0
  cands : x.cands = (s.port p).cands
  hold : x.holdPending = (s.port p).holdPending

theorem portGoes_becomes (hhalted : halted (s.port p).state = true) (hengine : (s.spur.attached[p]).isSome = true) :
    ∃ x, PortBecomes s (s.portGoes p) p x (setBit (s.reg (.port p .evt)) 0) ∧ PortStarts s p x := by
  have hlost : ¬ (s.spur.attached[p]).isNone = true := fun h => by
    rw [Option.isNone_iff_eq_none.1 h] at hengine
    cases hengine
  unfold State.portGoes
  dsimp only
  simp only [if_neg hlost]
  refine ⟨_, .showPort fun hst => ?_, ⟨rfl, rfl, rfl, rfl, rfl, rfl⟩⟩
  rw [hst] at hhalted
  revert hhalted
  dsimp only
  split <;> simp [halted]

theorem startPort_becomes (hgroup : s.groupOf p = none) (hstop : (s.port p).state = .stopped) (hcode : s.startCode p = 0)
    (hengine : (s.spur.attached[p]).isSome = true) :
    ∃ x, PortBecomes s (s.startPort p) p x (setBit (s.reg (.port p .evt)) 0) ∧ PortStarts s p x := by
  unfold State.startPort
  rw [if_neg (by simp [hgroup]), if_neg (by simp [hstop]), if_pos hcode]
  exact portGoes_becomes (by rw [hstop]; rfl) hengine

/-- Holds of a port are cleared, and the HOLD that waits completes (R128). -/
theorem clearHold_becomes (s : State) (p : PortId) : ∃ x, PortBecomes s (s.clearHold p) p x (s.reg (.port p .evt)) ∧
    x.state = (s.port p).state ∧ x.onWire = (s.port p).onWire := by
  have hself : PortBecomes s s p (s.port p) (s.reg (.port p .evt)) := by
    have h := PortBecomes.setPort (s := s) (p := p) (s.port p)
    rwa [setPort_self] at h
  unfold State.clearHold
  extract_lets x u
  have hu : PortBecomes s u p (s.port p) (s.reg (.port p .evt)) := by
    unfold u
    split
    · exact hself.complete _ _
    · exact hself
  have hset := hu.trans (.setPort (s := u) (p := p)
    { u.port p with holdPending := none, holdWaiter := none, holdEnd := none, holdKept := none, holdReturn := .off })
  rw [hu.evt] at hset
  exact ⟨_, hset, by rw [hu.port], by rw [hu.port]⟩

/-- A port that passes to STOPPED: a frame that an isolated port has on the wire is finished, unless its bank is lost (R103, R126). -/
theorem toStopped_becomes (s : State) (p : PortId) (rank : Nat) : ∃ x w, PortBecomes s (s.toStopped p rank) p x w ∧ x.state = .stopped ∧
    x.stopPending = false ∧ x.refStop = false ∧ x.onWire = if (s.port p).state = .isolated ∧ rank ≠ 5 then (s.port p).onWire else none := by
  obtain ⟨y, hclear, hstate, hwire⟩ := clearHold_becomes s p
  unfold State.toStopped
  extract_lets u x0 x1
  obtain ⟨w, hv⟩ := PortBecomes.shown u p _
  refine ⟨_, w, hclear.trans hv, rfl, rfl, rfl, ?_⟩
  change (if (u.port p).state = .isolated ∧ rank ≠ 5 then (u.port p).onWire else none) = _
  rw [hclear.port, hstate, hwire]

theorem stopPort_pending (hgroup : s.groupOf p = none) (h : running (s.port p).state = true ∨ (s.port p).state = .hold) :
    s.stopPort p = s.setPort p { s.port p with stopPending := true } := by
  have hstate : halted (s.port p).state = false ∧ ¬((s.port p).state = .busoff ∨ (s.port p).state = .isolated) := by
    cases hst : (s.port p).state <;> simp_all [running, halted]
  unfold State.stopPort State.stopAccepted
  dsimp only
  rw [if_neg (by simp [hgroup]), if_neg (by simp [hstate.1]), if_neg hstate.2]

theorem stopPort_atOnce (hgroup : s.groupOf p = none) (h : (s.port p).state = .busoff ∨ (s.port p).state = .isolated) :
    s.stopPort p = s.toStopped p 10 := by
  unfold State.stopPort State.stopAccepted
  dsimp only
  rw [if_neg (by simp [hgroup]), if_neg (by rcases h with h | h <;> simp [h, halted]), if_pos h]

theorem portStop_pends (hready : PortCmdReady s d p) (hgroup : s.groupOf p = none) (h : running (s.port p).state = true ∨ (s.port p).state = .hold) :
    Does (.portStop d p) s fun t => t.port p = { s.port p with stopPending := true } ∧ OtherPorts s t p ∧ OtherRegs s t [] := by
  have he : exec (.portStop d p) s = finish (s.setPort p { s.port p with stopPending := true }) := by
    rw [← stopPort_pending hgroup h]
    exact hready.writePortCmd 4
  refine .of_finish he ⟨?_, .of_set rfl, (SameRegs.of_regs rfl).other _⟩
  rw [State.announce_port, State.noteMay_port, State.port_setPort_same]

theorem portStop_stops (hready : PortCmdReady s d p) (hgroup : s.groupOf p = none) (h : (s.port p).state = .busoff ∨ (s.port p).state = .isolated) :
    Does (.portStop d p) s fun t => (t.port p).state = .stopped ∧ (t.port p).stopPending = false ∧
      (t.port p).onWire = (if (s.port p).state = .isolated then (s.port p).onWire else none) ∧ OtherPorts s t p ∧ OtherRegs s t [.port p .evt] := by
  obtain ⟨x, w, hb, hstate, hpending, -, hwire⟩ := toStopped_becomes s p 10
  rw [← stopPort_atOnce hgroup h] at hb
  refine hready.does (c := 4) rfl hb fun t ht => ?_
  rw [ht.port]
  exact ⟨hstate, hpending, by simpa using hwire, ht.others, ht.regs⟩

/-- PORT_STOP_EFFECT stops its port, with REF_LOST where the reference was lost (R106, R126). -/
theorem portStopEffect_stops (hwire : (s.port p).onWire = none) (hinteg : (s.port p).integ = false) (hsilent : s.silentMember p = false)
    (hanchor : s.anchorOf p = none) (h : (s.port p).stopPending = true ∨ (s.port p).refStop = true) :
    Does (.portStopEffect p) s fun t => (t.port p).state = .stopped ∧ (t.port p).stopPending = false ∧ (t.port p).refStop = false ∧
      ((s.port p).refStop = true → t.rb (.port p .evt) 7 = true) ∧ OtherPorts s t p ∧ OtherRegs s t [.port p .evt] := by
  obtain ⟨x, w, hb, hstate, hpending, href, -⟩ := toStopped_becomes s p 10
  have he : exec (.portStopEffect p) s = finish (if (s.port p).refStop = true then (s.toStopped p 10).portEvt p 7 else s.toStopped p 10) := by
    change execPortStopEffect p s = _
    unfold execPortStopEffect
    dsimp only
    rw [if_neg (by simp [hwire, hinteg, hsilent, hanchor])]
    split
    · rfl
    next hkept => rw [if_pos (h.resolve_right hkept)]
  split at he
  next hlost =>
    have hraised := hb.trans (.raised 7)
    rw [hb.port] at hraised
    have ht := hraised.left
    refine .of_finish he ?_
    rw [ht.port]
    exact ⟨hstate, hpending, href, fun _ => (ht.rb 7).trans (bit_setBit_self _ (by decide)), ht.others, ht.regs⟩
  next hkept =>
    have ht := hb.left
    refine .of_finish he ?_
    rw [ht.port]
    exact ⟨hstate, hpending, href, fun hlost => absurd hlost hkept, ht.others, ht.regs⟩

end startStop

/-- Settles O11: a start and a stop each set their port and its event register, and a hold that a stop clears only completes. -/
theorem portStartStop : Obligations.PortStartStop := by
  unfold Obligations.PortStartStop
  refine ⟨fun s d p hready hgroup hstop hcode hengine => ?start, fun _ _ _ hready hgroup h => portStop_pends hready hgroup h,
    fun _ _ _ hready hgroup h => portStop_stops hready hgroup h,
    fun _ _ hwire hinteg hsilent hanchor h => portStopEffect_stops hwire hinteg hsilent hanchor h⟩
  case start =>
    obtain ⟨x, hb, hx⟩ := startPort_becomes hgroup hstop hcode hengine
    refine hready.does (c := 3) rfl hb fun t ht => ?_
    rw [ht.port]
    exact ⟨hx.state, hx.tec, hx.rec_, hx.count, hx.cands, ht.evt, ht.others, ht.regs⟩

end Sys2Proof.Machine

namespace Sys2Proof.Machine

/-! ### Wake of a sleeping port (R125, R130) -/

section wake
variable {s : State} {p : PortId}

/-- A bus wake without AUTOSTART: WAKE and STATE_CHG are set, and the port is STOPPED. -/
theorem busWake_stops (hsleep : (s.port p).state = .sleep) (hauto : s.rb (.port p .sleep) 2 = false) :
    PortBecomes s (s.busWake p) p { s.port p with state := .stopped, wakeArmed := false } (setBit (setBit (s.reg (.port p .evt)) 3) 0) := by
  have hraised := PortBecomes.raised (s := s) (p := p) 3
  have hkept : (s.portEvt p 3).rb (.port p .sleep) 2 = false := by rw [State.rb, hraised.regs _ (by simp)]; exact hauto
  have hawake := PortBecomes.showPort (s := s.portEvt p 3) (p := p) (x := { (s.portEvt p 3).port p with state := .stopped, wakeArmed := false })
    (by rw [hraised.port, hsleep]; simp)
  have h := hraised.trans hawake
  rw [hraised.evt, hraised.port] at h
  unfold State.busWake State.toAwake
  dsimp only
  rw [if_neg (by simp [hkept]), hraised.port]
  exact h

/-- A bus wake with AUTOSTART, and with checks that pass, is a START (R125). -/
theorem busWake_starts (hsleep : (s.port p).state = .sleep) (hauto : s.rb (.port p .sleep) 2 = true) (hgroup : s.groupOf p = none)
    (hcode : s.startCode p = 0) (hengine : (s.spur.attached[p]).isSome = true) (hhold : (s.port p).holdPending = none) :
    ∃ x, PortBecomes s (s.busWake p) p x (setBit (setBit (s.reg (.port p .evt)) 3) 0) ∧ PortStarts s p x := by
  have hraised := PortBecomes.raised (s := s) (p := p) 3
  have hkept : (s.portEvt p 3).rb (.port p .sleep) 2 = true := by rw [State.rb, hraised.regs _ (by simp)]; exact hauto
  have hmode : (s.portEvt p 3).testMode p = s.testMode p := by
    rw [State.testMode, State.rf, hraised.regs _ (by simp)]
    rfl
  obtain ⟨x, hgoes, hx⟩ := portGoes_becomes (s := s.portEvt p 3) (p := p) (by rw [hraised.port, hsleep]; rfl) hengine
  have hnone : x.holdPending = none := by rw [hx.hold, hraised.port, hhold]
  have harrives : ((s.portEvt p 3).portGoes p).holdArrives p = (s.portEvt p 3).portGoes p := by
    unfold State.holdArrives
    rw [hgoes.port, hnone]
  have h := hraised.trans hgoes
  rw [hraised.evt] at h
  have hwake : s.busWake p = (s.portEvt p 3).portGoes p := by
    unfold State.busWake
    dsimp only
    rw [if_pos hkept, hgroup]
    exact (if_pos hcode).trans harrives
  rw [hwake]
  refine ⟨x, h, ⟨by rw [hx.state, hmode], hx.tec, hx.rec_, hx.count, ?_, ?_⟩⟩
  · rw [hx.cands, hraised.port]
  · rw [hx.hold, hraised.port]

theorem wakeEdge_exec {low : Nat} (hsleep : (s.port p).state = .sleep) (harmed : (s.port p).wakeArmed = true)
    (hmode : s.rf (.port p .sleep) 0 2 = 1) (hlow : 160 * s.rf (.port p .sleep) 4 10 ≤ low) :
    exec (.wakeEdge ⟨p, true, low⟩) s = finish (s.busWake p) := by
  change execWakeEdge ⟨p, true, low⟩ s = _
  unfold execWakeEdge
  exact if_pos ⟨hsleep, harmed, hmode, rfl, hlow⟩

theorem wakeEdge_ignored {fell : Bool} {low : Nat}
    (h : fell = false ∨ low < 160 * s.rf (.port p .sleep) 4 10 ∨ (s.port p).wakeArmed = false) :
    Does (.wakeEdge ⟨p, fell, low⟩) s fun t => t = s := by
  refine .of_next ?_ rfl
  change execWakeEdge ⟨p, fell, low⟩ s = _
  unfold execWakeEdge
  dsimp only
  refine if_neg ?_
  rintro ⟨-, harmed, -, hfell, hlow⟩
  rcases h with h | h | h
  · simp [h] at hfell
  · omega
  · simp [h] at harmed

theorem wakeFrame_exec {f : CanFrame} (hsleep : (s.port p).state = .sleep) (harmed : (s.port p).wakeArmed = true)
    (hmode : s.rf (.port p .sleep) 0 2 = 2) (hlock : s.tmu.reflock = true) (hmatch : s.wakeMatches p f = true) :
    exec (.wakeFrame p f) s = finish (s.busWake p) := by
  change execWakeFrame p f s = _
  unfold execWakeFrame
  exact if_pos ⟨hsleep, harmed, hmode, hlock, hmatch⟩

theorem bit_wakeEvent (w : DWord) : bit (setBit (setBit w 3) 0) 3 = true := bit_setBit_of_bit 0 (by decide) (bit_setBit_self w (by decide))

end wake

/-! ### Joining the bus, and in-line pairs (R125, R134) -/

section pairs
variable {s : State} {p : PortId} {k : PairId}

theorem pairOf_evenPort (k : PairId) : pairOf (evenPort k) = k := by
  ext
  simp only [pairOf, evenPort, fin, Fin.ofNat]
  omega

/-- In-line pairs are inserted in live groups only (R133). -/
theorem State.mayInsert_liveGroup (h : s.mayInsert k = true) : s.liveGroup (evenPort k) ≠ none := by
  intro hnone
  unfold State.mayInsert at h
  dsimp only at h
  rw [hnone, Bool.and_false] at h
  exact absurd h Bool.false_ne_true

/-- An anchor outside a live group anchors a stopped one. -/
theorem State.anchorOf_stopped {g : GrpId} (hlive : s.liveGroup p = none) (hg : s.anchorOf p = some g) : (s.group g).state = .stopped := by
  rw [State.anchorOf, Option.filter_eq_some_iff] at hg
  rw [State.liveGroup, hg.1] at hlive
  simpa [Option.filter] using hlive

theorem busIntegrated_joins (hpart : takesPart (s.port p) = true) (hsilent : s.silentMember p = false) (hlive : s.liveGroup p = none)
    (htest : s.underTest p = false) :
    exec (.busIntegrated p) s = finish (s.setPort p { s.port p with joined := true, busIdle := true, integ := false }) := by
  change execBusIntegrated p s = _
  unfold execBusIntegrated
  extract_lets x k coil early join pair s1 s2 ended s3
  have hcoil : coil = false := by
    by_contra hc
    simp only [coil, Bool.not_eq_false, Bool.and_eq_true, decide_eq_true_eq] at hc
    exact State.mayInsert_liveGroup hc.1.2 (hc.1.1 ▸ hlive)
  have hjoin : join = true := by simp [join, early, x, hpart, hsilent, hlive, htest]
  have h2 : s2 = s.setPort p { s.port p with joined := true, busIdle := true, integ := false } := by
    unfold s2 s1
    rw [hjoin, hcoil]
    rfl
  have hended : ended = none := by
    unfold ended
    rw [h2]
    refine Option.filter_eq_none_iff.2 fun g hg => ?_
    have hstop := State.anchorOf_stopped hlive hg
    simp [hstop]
  have h3 : s3 = s2 := by
    unfold s3
    rw [hended]
  rw [hjoin, Bool.or_true, Bool.true_or, if_pos rfl, h3, h2]

/-- The coil of a pair that may be inserted is driven; whether the even port joins the bus as well does not concern the pairs. -/
theorem busIntegrated_drives (hk : pairOf p = k) (hp : evenPort k = p) (hmay : s.mayInsert k = true) (hoff : (s.pairs[k]).colOn = false) :
    ∃ u, exec (.busIntegrated p) s = finish u ∧ u.pairs = s.pairs.set k { s.pairs[k] with colOn := true, travelAt := s.raw } ∧
      u.regs = s.regs := by
  subst hk
  change ∃ u, execBusIntegrated p s = finish u ∧ _
  unfold execBusIntegrated
  extract_lets x k coil early join pair s1 s2 ended s3
  have hcoil : coil = true := by simp only [coil, k, hp, hmay, hoff]; rfl
  have h1 : s1 = { s with pairs := s.pairs.set k { s.pairs[k] with colOn := true, travelAt := s.raw } } := if_pos hcoil
  have h2 : s2.pairs = s1.pairs ∧ s2.regs = s1.regs := by
    unfold s2
    split
    · exact ⟨rfl, rfl⟩
    · exact ⟨rfl, rfl⟩
  have h3 : s3.pairs = s2.pairs ∧ s3.regs = s2.regs := by
    unfold s3
    match ended with
    | some g => exact ⟨rfl, rfl⟩
    | none => exact ⟨rfl, rfl⟩
  refine ⟨s3, by rw [hcoil]; rfl, ?_, ?_⟩
  · rw [h3.1, h2.1, h1]
  · rw [h3.2, h2.2, h1]

/-- Setting one pair leaves the others. -/
theorem pairs_set {t : State} {x : Pair} (h : t.pairs = s.pairs.set k x) : t.pairs[k] = x ∧ ∀ j : PairId, j ≠ k → t.pairs[j] = s.pairs[j] := by
  refine ⟨by simp [h], fun j hj => ?_⟩
  have hne : k.val ≠ j.val := fun e => hj (Fin.ext e.symm)
  simp [h, hne]

theorem busIntegrated_coil (hmay : s.mayInsert k = true) (hoff : (s.pairs[k]).colOn = false) :
    Does (.busIntegrated (evenPort k)) s fun t => t.pairs[k] = { s.pairs[k] with colOn := true, travelAt := s.raw } ∧
      (∀ j, j ≠ k → t.pairs[j] = s.pairs[j]) ∧ SameRegs s t := by
  obtain ⟨u, he, hpairs, hregs⟩ := busIntegrated_drives (pairOf_evenPort k) rfl hmay hoff
  obtain ⟨hsame, hother⟩ := pairs_set (s := s) (t := u.noteMay.announce) (by rw [State.announce_pairs, State.noteMay_pairs, hpairs])
  exact .of_finish he ⟨hsame, hother, SameRegs.of_regs hregs⟩

/-- The parts that time which passes may change (R224). -/
theorem State.advance_frame (s : State) (r : DWord) :
    Only [.counts, .free, .funcs, .halves, .objs, .out, .ports, .regs .fn, .rings, .tmu] s (s.advance r) := by
  apply State.advance_only (Only.refl s) <;> decide

theorem State.advance_pairs (s : State) (r : DWord) : (s.advance r).pairs = s.pairs := (s.advance_frame r).2 .pairs (by decide)

theorem colTravelEnd_does {u : State} (hon : (s.pairs[k]).colOn = true) (hdone : (s.pairs[k]).travelDone = false)
    (hu : u = s.waitFrom (s.pairs[k]).travelAt (us (100 * s.colTravel k))) :
    Does (.colTravelEnd k) s fun t => t.pairs[k] = { s.pairs[k] with travelDone := true } ∧ (∀ j, j ≠ k → t.pairs[j] = s.pairs[j]) ∧
      SameRegs u t ∧ t.ports = u.ports := by
  have he : exec (.colTravelEnd k) s = finish { u with pairs := u.pairs.set k { s.pairs[k] with travelDone := true } } := by
    change execColTravelEnd k s = _
    unfold execColTravelEnd
    dsimp only
    rw [if_pos (by simp only [hon, hdone]; rfl), hu]
  have hkept : u.pairs = s.pairs := by rw [hu]; exact s.advance_pairs _
  rw [hkept] at he
  obtain ⟨hsame, hother⟩ := pairs_set (s := s) (k := k) (x := { s.pairs[k] with travelDone := true })
    (t := ({ u with pairs := s.pairs.set k { s.pairs[k] with travelDone := true } } : State).noteMay.announce)
    (by rw [State.announce_pairs, State.noteMay_pairs])
  exact .of_finish he ⟨hsame, hother, SameRegs.of_regs rfl, by rw [State.announce_ports, State.noteMay_ports]⟩

theorem pairInserted_does (hdone : (s.pairs[k]).travelDone = true) (hout : (s.pairs[k]).inserted = false) :
    Does (.pairInserted k) s fun t => t.pairs[k] = { s.pairs[k] with inserted := true } ∧ (∀ j, j ≠ k → t.pairs[j] = s.pairs[j]) ∧
      t.reg (.port (evenPort k) .evt) = setBit (s.reg (.port (evenPort k) .evt)) 0 ∧ OtherRegs s t [.port (evenPort k) .evt] ∧ t.ports = s.ports := by
  let v : State := { s with pairs := s.pairs.set k { s.pairs[k] with inserted := true } }
  have he : exec (.pairInserted k) s = finish (v.portEvt (evenPort k) 0) := by
    change execPairInserted k s = _
    unfold execPairInserted
    exact if_pos (by simp only [hdone, hout]; rfl)
  have ht := (PortBecomes.raised (s := v) (p := evenPort k) 0).left
  obtain ⟨hsame, hother⟩ := pairs_set (s := s) (k := k) (x := { s.pairs[k] with inserted := true })
    (t := (v.portEvt (evenPort k) 0).noteMay.announce) (by rw [State.announce_pairs]; rfl)
  exact .of_finish he ⟨hsame, hother, ht.evt, ht.regs, by rw [State.announce_ports]; rfl⟩

end pairs

/-- Settles O37: a wake sets its port and its event register, and of a bus that is integrated, of a coil that travels and of an insertion only the port,
the pair and the event bit that each concerns are changed. -/
theorem wakeJoinAndPairs : Obligations.WakeJoinAndPairs := by
  unfold Obligations.WakeJoinAndPairs
  refine ⟨fun s p low hsleep harmed hmode hlow hauto => .of_finish (wakeEdge_exec hsleep harmed hmode hlow) ?edge,
    fun s p low hsleep harmed hmode hlow hauto hgroup hcode hengine hhold => .of_finish (wakeEdge_exec hsleep harmed hmode hlow) ?start,
    fun _ _ _ _ h => wakeEdge_ignored h,
    fun s p f _ hsleep harmed hmode hlock hmatch hauto => .of_finish (wakeFrame_exec hsleep harmed hmode hlock hmatch) ?frame,
    fun s p hpart hsilent hlive htest => .of_finish (busIntegrated_joins hpart hsilent hlive htest) ?join,
    fun _ _ hmay hoff => busIntegrated_coil hmay hoff, fun _ _ _ hon hdone hu => colTravelEnd_does hon hdone hu,
    fun _ _ hdone hout => pairInserted_does hdone hout⟩
  case edge =>
    have ht := (busWake_stops hsleep hauto).left
    rw [ht.port]
    exact ⟨rfl, rfl, (ht.rb 3).trans (bit_wakeEvent _), (ht.rb 0).trans (bit_setBit_zero _), ht.others, ht.regs⟩
  case start =>
    obtain ⟨x, hb, hx⟩ := busWake_starts hsleep hauto hgroup hcode hengine hhold
    have ht := hb.left
    rw [ht.port]
    exact ⟨hx.state, hx.tec, (ht.rb 3).trans (bit_wakeEvent _), ht.others, ht.regs⟩
  case frame =>
    have ht := (busWake_stops hsleep hauto).left
    rw [ht.port]
    exact ⟨rfl, (ht.rb 3).trans (bit_wakeEvent _), ht.others, ht.regs⟩
  case join =>
    have ht := (PortBecomes.setPort (s := s) (p := p) { s.port p with joined := true, busIdle := true, integ := false }).left
    exact ⟨ht.port, ht.others, by rw [State.announce_pairs]; rfl, SameRegs.of_regs rfl⟩

end Sys2Proof.Machine

namespace Sys2Proof.Machine

/-! ### TX_FRAME at its fetch (R120, R183, R187, R215) -/

section enters
variable {s : State} {p : PortId}

/-- What reads neither the rings nor what has left the device reads the same after a fetch (R74). -/
theorem State.fetch_reads {α : Type} (s : State) (d : Dom) (n : RingNo) (op : Bool) (g : State → α)
    (hg : ∀ o r, g { s with out := o, rings := r } = g s) : g (s.fetch d n op) = g s := by
  obtain ⟨o, ho⟩ := s.fetch_eq d n op
  rw [ho]
  exact hg o _

/-- A candidate apart from its place in the set: its slot, its order and the instant from which it holds them. -/
def Cand.unplaced (c : Cand) : Cand := { c with slot := 0, order := 0, since := 0 }

/-- A change of candidates that gives slots to those that wait for one, and leaves those that hold one (R181, R183). -/
structure GivesSlots (f : Cand → Cand) : Prop where
  held : ∀ c, inSet c = true → f c = c
  rest : ∀ c, (f c).unplaced = c.unplaced

theorem GivesSlots.id : GivesSlots id := ⟨fun _ _ => rfl, fun _ => rfl⟩

theorem GivesSlots.comp {f g : Cand → Cand} (hg : GivesSlots g) (hf : GivesSlots f) : GivesSlots (g ∘ f) :=
  ⟨fun c hc => by rw [Function.comp_apply, hf.held c hc, hg.held c hc], fun c => (hg.rest (f c)).trans (hf.rest c)⟩

/-- The candidate that waits at w's number takes slot i (R183). -/
def Cand.enter (w : Cand) (i order : Nat) (since : DWord) (c : Cand) : Cand :=
  if c.slot = w.slot then { c with slot := i, order := order, since := since } else c

theorem Cand.enter_givesSlots {w : Cand} (hw : inSet w = false) (i order : Nat) (since : DWord) : GivesSlots (w.enter i order since) := by
  refine ⟨fun c hc => if_neg fun he => ?_, fun c => ?_⟩
  · rw [inSet, he] at hc
    rw [inSet, hc] at hw
    exact absurd hw (by decide)
  · unfold Cand.enter
    split
    · rfl
    · rfl

/-- The port is in no group whose schedule runs. -/
def State.Unscheduled (s : State) (p : PortId) : Prop := ∀ k, s.groupOf p = some k → (s.group k).state = .stopped ∨ s.traverse k = false

theorem State.Unscheduled.admits (h : s.Unscheduled p) (c : Cand) : s.unslotted p c = false := by
  unfold State.unslotted
  split
  next k hk => rcases h k hk with h | h <;> simp [h]
  next => rfl

theorem State.setPort_setPort (s : State) (p : PortId) (x y : Port) : (s.setPort p x).setPort p y = s.setPort p y := by
  rw [State.setPort, State.setPort, Vector.set_set]
  rfl

theorem State.setPort_map_id (s : State) (p : PortId) :
    s = s.setPort p { s.port p with cands := (s.port p).cands.map id, nextOrder := (s.port p).nextOrder } := by
  rw [List.map_id]
  exact (setPort_self s p).symm

/-- Where no schedule runs, the sends that wait are only given slots: none ends (R183, R262). -/
theorem State.fillSlots_givesSlots (h : s.Unscheduled p) (n : Nat) :
    ∃ f m, GivesSlots f ∧ s.fillSlots p n = s.setPort p { s.port p with cands := (s.port p).cands.map f, nextOrder := m } := by
  induction n generalizing s with
  | zero => exact ⟨id, _, .id, s.setPort_map_id p⟩
  | succ n ih =>
    rw [State.fillSlots]
    dsimp only
    split
    next => exact ⟨id, _, .id, s.setPort_map_id p⟩
    next w hfind =>
      have hw : inSet w = false := by
        have hfound := List.find?_some hfind
        simp only [Bool.and_eq_true, Bool.not_eq_true'] at hfound
        exact hfound.1
      split
      · exact ⟨id, _, .id, s.setPort_map_id p⟩
      · rw [if_neg (by simp [h.admits w])]
        let v : State := s.setPort p { s.port p with
          cands := (s.port p).cands.map (w.enter (freeSlot (s.port p)) (s.port p).nextOrder s.raw), nextOrder := (s.port p).nextOrder + 1 }
        have hv : v.Unscheduled p := h
        obtain ⟨f, m, hf, hfill⟩ := ih hv
        refine ⟨f ∘ w.enter (freeSlot (s.port p)) (s.port p).nextOrder s.raw, m, hf.comp (Cand.enter_givesSlots hw _ _ _), hfill.trans ?_⟩
        rw [State.port_setPort_same, List.map_map]
        exact s.setPort_setPort p _ _

/-- Where no schedule runs, a candidate that enters the set is one more candidate (R178). -/
theorem State.enterSet_adds (h : s.Unscheduled p) (c : Cand) : ∃ i m, s.enterSet p c false = s.setPort p { s.port p with
    cands := (s.port p).cands ++ [{ c with slot := i, order := m, since := s.raw }], nextOrder := m + 1 } := by
  refine ⟨freeSlot (s.port p), (s.port p).nextOrder, ?_⟩
  unfold State.enterSet
  extract_lets x c1 u
  have hu : u.Unscheduled p := h
  rw [hu.admits c1]
  rfl

/-- t is s but for port p, whose candidates keep their places in the set, and which has one more: c, in some place. -/
structure TakesCand (s t : State) (p : PortId) (c : Cand) : Prop where
  ports : ∃ x, t = s.setPort p x
  joins : ∃ e ∈ (t.port p).cands, e.unplaced = c.unplaced
  length : (t.port p).cands.length = (s.port p).cands.length + 1
  held : ∀ e ∈ (s.port p).cands, inSet e = true → e ∈ (t.port p).cands

theorem State.enterSet_fillSlots (h : s.Unscheduled p) (c : Cand) : TakesCand s ((s.enterSet p c false).fillSlots p 32) p c := by
  obtain ⟨i, m, henter⟩ := State.enterSet_adds h c
  have hu : (s.enterSet p c false).Unscheduled p := by rw [henter]; exact h
  obtain ⟨f, m', hf, hfill⟩ := State.fillSlots_givesSlots hu 32
  have hports : ∃ x, (s.enterSet p c false).fillSlots p 32 = s.setPort p x := by
    rw [hfill, henter, State.setPort_setPort]
    exact ⟨_, rfl⟩
  have hcands : (((s.enterSet p c false).fillSlots p 32).port p).cands =
      ((s.port p).cands ++ [{ c with slot := i, order := m, since := s.raw }]).map f := by
    rw [hfill, State.port_setPort_same, henter, State.port_setPort_same]
  refine ⟨hports, ?_, ?_, ?_⟩
  · rw [hcands]
    exact ⟨f _, List.mem_map_of_mem (List.mem_append_right _ (List.mem_singleton_self _)), hf.rest _⟩
  · rw [hcands, List.length_map, List.length_append, List.length_singleton]
  · intro e he hin
    rw [hcands]
    exact List.mem_map.2 ⟨e, List.mem_append_left _ he, hf.held e hin⟩

end enters

section txFrame
variable {s : State} {d : Dom} {n : RingNo} {x : Desc}

/-- A TX_FRAME whose fetch is allowed is fetched, and its operation acts (R77, R181). -/
theorem txFrame_exec (hon : s.ringOn d n 0 = true) (hfield : bit (s.ringCfg (s.dring d n)) 9 = false) (hfetch : s.fetchable d n (dfence x) = true)
    (htakes : s.portTakes d (s.ringPort d n) n (bit (s.ringCfg (s.dring d n)) 8) = true) :
    exec (.txFrame d n x) s = finish ((s.fetch d n).txOp (s.ringPort d n) n x (s.opOf d n x)) := by
  have hopOf : s.opOf d n x = { dom := d, num := n, tag := x.tag, epoch := ((s.fetch d n).func d).epoch } := by rw [State.fetch_func]; rfl
  change execTxFrame d n x s = _
  unfold execTxFrame
  dsimp only
  rw [if_pos (by simp only [hon, hfield, hfetch, htakes]; rfl), hopOf]

theorem State.txCode_fetch (s : State) (d e : Dom) (n : RingNo) (p : PortId) (x : Desc) : (s.fetch d n).txCode e p x = s.txCode e p x :=
  s.fetch_reads d n true (fun u => u.txCode e p x) fun _ _ => rfl

theorem State.flushing_fetch (s : State) (d : Dom) (n : RingNo) (p : PortId) : (s.fetch d n).flushing p = s.flushing p :=
  s.fetch_reads d n true (fun u => u.flushing p) fun _ _ => rfl

/-- An operation that completes at its fetch has no other effect on ports and registers. -/
theorem RingReady.fetched_answered {ty : Nat} (h : RingReady ty s d n x) (status port : Byte) :
    let t := ((s.fetch d n).complete (s.opOf d n x) status (port := port)).noteMay.announce
    Answered s t d n x status 0 ∧ t.ports = s.ports ∧ SameRegs s t :=
  ⟨.of_sends (s.fetch_keeps' d n true) ((SameCq.fetch h).complete h status 0 0 none port), by simp, SameRegs.of_regs (by simp)⟩

theorem txFrame_joins (hon : s.ringOn d n 0 = true) (hfield : bit (s.ringCfg (s.dring d n)) 9 = false) (hfetch : s.fetchable d n (dfence x) = true)
    (hflush : s.flushing (s.ringPort d n) = false) (htakes : s.portTakes d (s.ringPort d n) n (bit (s.ringCfg (s.dring d n)) 8) = true)
    (hcode : s.txCode d (s.ringPort d n) x = none) (hgroup : s.Unscheduled (s.ringPort d n)) :
    Does (.txFrame d n x) s fun t => (∃ c ∈ (t.port (s.ringPort d n)).cands, c.src = .ring n ∧ c.op = s.opOf d n x ∧
        c.len = txLen x ∧ c.retry = dfld x 9 0 4 ∧ c.attempts = 0 ∧ c.frame.ident = BitVec.ofNat 29 (dnum x 4 4)) ∧
      (t.port (s.ringPort d n)).cands.length = (s.port (s.ringPort d n)).cands.length + 1 ∧
      (∀ c ∈ (s.port (s.ringPort d n)).cands, inSet c = true → c ∈ (t.port (s.ringPort d n)).cands) ∧ OtherPorts s t (s.ringPort d n) ∧ SameRegs s t ∧
      t.objs = s.objs ∧ t.tarn = s.tarn := by
  let p := s.ringPort d n
  let c := (s.fetch d n).txCand n x (s.opOf d n x)
  let v : State := (s.fetch d n).setPort p { (s.fetch d n).port p with lastRing := n.val }
  have hop : (s.fetch d n).txOp p n x (s.opOf d n x) = (v.enterSet p c false).fillSlots p 32 := by
    unfold State.txOp
    rw [show (s.opOf d n x).dom = d from rfl, State.txCode_fetch, hcode]
    dsimp only
    rw [State.flushing_fetch, hflush, if_neg Bool.false_ne_true]
  have hsame : ∀ q, (s.fetch d n).port q = s.port q := fun q => by rw [State.port, State.fetch_ports, State.port]
  have hcands : (v.port p).cands = (s.port p).cands := by
    rw [show v.port p = _ from State.port_setPort_same _ _ _, hsame]
  have hv : v.Unscheduled p := s.fetch_reads d n true (fun u => u.Unscheduled p) (fun _ _ => rfl) ▸ hgroup
  obtain ⟨⟨y, hu⟩, ⟨e, hmem, hplace⟩, hlength, hheld⟩ := State.enterSet_fillSlots hv c
  have he : exec (.txFrame d n x) s = finish ((v.enterSet p c false).fillSlots p 32) := hop ▸ txFrame_exec hon hfield hfetch htakes
  have hset : (v.enterSet p c false).fillSlots p 32 = (s.fetch d n).setPort p y := by
    rw [hu]
    exact State.setPort_setPort _ p _ y
  rw [hcands] at hlength hheld
  generalize (v.enterSet p c false).fillSlots p 32 = u at *
  have hport : ∀ q, u.noteMay.announce.port q = u.port q := fun q => by rw [State.announce_port, State.noteMay_port]
  refine .of_finish he ⟨⟨e, hport p ▸ hmem, congrArg Cand.src hplace, congrArg Cand.op hplace, congrArg Cand.len hplace, congrArg Cand.retry hplace,
    congrArg Cand.attempts hplace, congrArg (fun c => c.frame.ident) hplace⟩, ?_, ?_, fun q hq => ?_, SameRegs.of_regs ?_, ?_, ?_⟩
  · rw [hport]; exact hlength
  · rw [hport]; exact hheld
  · rw [hport, hset, State.port_setPort_other _ _ _ _ hq, hsame]
  · rw [hset]; exact s.fetch_regs d n true
  · rw [State.announce_objs, State.noteMay_objs, hset]
    exact s.fetch_reads d n true State.objs fun _ _ => rfl
  · rw [State.announce_tarn, State.noteMay_tarn, hset]
    exact s.fetch_reads d n true State.tarn fun _ _ => rfl

/-- A TX_FRAME whose operation completes at once leaves the candidates. -/
theorem txFrame_completes {code : Byte} (h : RingReady 0 s d n x) (hfield : bit (s.ringCfg (s.dring d n)) 9 = false)
    (htakes : s.portTakes d (s.ringPort d n) n (bit (s.ringCfg (s.dring d n)) 8) = true)
    (hop : (s.fetch d n).txOp (s.ringPort d n) n x (s.opOf d n x) =
      (s.fetch d n).complete (s.opOf d n x) code (port := BitVec.ofNat 8 (s.ringPort d n).val)) :
    Does (.txFrame d n x) s fun t => Answered s t d n x code 0 ∧ (t.port (s.ringPort d n)).cands = (s.port (s.ringPort d n)).cands ∧ SameRegs s t := by
  have he := txFrame_exec (x := x) h.on hfield h.fetch htakes
  rw [hop] at he
  obtain ⟨hanswered, hports, hregs⟩ := h.fetched_answered code (BitVec.ofNat 8 (s.ringPort d n).val)
  exact .of_finish he ⟨hanswered, by rw [State.port, hports, State.port], hregs⟩

theorem txFrame_fails {code : Byte} (h : RingReady 0 s d n x) (hfield : bit (s.ringCfg (s.dring d n)) 9 = false)
    (htakes : s.portTakes d (s.ringPort d n) n (bit (s.ringCfg (s.dring d n)) 8) = true) (hcode : s.txCode d (s.ringPort d n) x = some code) :
    Does (.txFrame d n x) s fun t => Answered s t d n x code 0 ∧ (t.port (s.ringPort d n)).cands = (s.port (s.ringPort d n)).cands ∧ SameRegs s t := by
  refine txFrame_completes h hfield htakes ?_
  unfold State.txOp
  rw [show (s.opOf d n x).dom = d from rfl, State.txCode_fetch, hcode]

/-- A bus-off port that flushes lets its rings be fetched, and what is fetched completes BUSOFF_FLUSH (R215). -/
theorem txFrame_flushed (h : RingReady 0 s d n x) (hfield : bit (s.ringCfg (s.dring d n)) 9 = false) (hflush : s.flushing (s.ringPort d n) = true)
    (hhalted : halted (s.port (s.ringPort d n)).state = false) (hcode : s.txCode d (s.ringPort d n) x = none) :
    Does (.txFrame d n x) s fun t => Answered s t d n x 0x15 0 ∧ (t.port (s.ringPort d n)).cands = (s.port (s.ringPort d n)).cands ∧ SameRegs s t := by
  have htakes : s.portTakes d (s.ringPort d n) n (bit (s.ringCfg (s.dring d n)) 8) = true := by
    simp [State.portTakes, hflush, hhalted]
  refine txFrame_completes h hfield htakes ?_
  unfold State.txOp
  rw [show (s.opOf d n x).dom = d from rfl, State.txCode_fetch, hcode]
  dsimp only
  rw [State.flushing_fetch, hflush, if_pos rfl]

end txFrame

/-- Settles O19: where no schedule runs, what enters a port's set ends nothing, so the frame is one more candidate; a fault or a flush completes it. -/
theorem txFrames : Obligations.TxFrames := by
  unfold Obligations.TxFrames
  refine ⟨fun _ _ _ _ _ hon hfield _ hfetch hflush htakes hcode hgroup => txFrame_joins hon hfield hfetch hflush htakes hcode hgroup,
    fun _ _ _ _ _ _ h hfield htakes hcode => txFrame_fails h hfield htakes hcode, fun _ _ _ _ _ h hfield hflush hhalted hcode => ?_⟩
  obtain ⟨t, he, hanswered, hcands, -⟩ := txFrame_flushed h hfield hflush hhalted hcode
  exact ⟨t, he, hanswered, hcands⟩

end Sys2Proof.Machine

namespace Sys2Proof.Machine

/-! ### HOLD of ports and groups (R128, R129, R247) -/

section holdCommand
variable {s : State} {d : Dom} {n : RingNo} {x : Desc} {p : PortId} {k : GrpId} {t : Nat} {time : Word} {o : Op}

/-- A HOLD that is fetched, and whose reserved bits are 0, asks for its hold (R77, R128). -/
theorem hold_exec (h : CmdReady s d n x) (hres : reservedZero x holdFields = true) :
    exec (.hold d n x) s = finish ((s.fetch d n).holdRequest (dnum x 4 1) (BitVec.ofNat 32 (dnum x 8 4)) (s.opOf d n x)) := by
  change execHold d n x s = _
  rw [execHold, if_pos h.on, h.command_eq, State.holdOp, if_neg (by simp [hres])]

theorem State.holdRequest_foreign (ht : t = p.val) (howner : s.portOwner p ≠ o.dom) : s.holdRequest t time o = s.complete o 0x31 := by
  subst ht
  unfold State.holdRequest
  rw [show nth? 32 p.val = some p from dif_pos p.isLt]
  exact if_pos howner

theorem State.holdRequest_port (ht : t = p.val) (howner : s.portOwner p = o.dom) (hfree : s.heldBack (fun a => a.ports.getLsbD p.val) = false)
    (htest : s.underTest p = false) : s.holdRequest t time o = s.holdPort p time (some o) := by
  subst ht
  unfold State.holdRequest
  rw [show nth? 32 p.val = some p from dif_pos p.isLt]
  dsimp only
  rw [if_neg (by simp [howner]), if_neg (by rw [hfree]; decide), if_neg (by simp [htest])]

theorem State.holdRequest_group (ht : t = 0x40 + k.val) (howner : s.grpOwner k = o.dom) (hfree : s.heldBack (s.namesGroup k) = false) :
    s.holdRequest t time o = s.holdGroup k time (some o) := by
  subst ht
  unfold State.holdRequest
  rw [show nth? 32 (0x40 + k.val) = none from dif_neg (by omega), if_pos (by omega), Nat.add_sub_cancel_left,
    show nth? 4 k.val = some k from dif_pos k.isLt]
  dsimp only
  rw [if_neg (by simp [howner]), if_neg (by simp [hfree])]

/-- A hold of a running port is pending (R128). -/
theorem State.holdPort_pends (hgroup : s.groupOf p = none) (hrun : running (s.port p).state = true) (hnone : (s.port p).holdPending = none)
    (htime : time ≠ 0) : s.holdPort p time (some o) = s.setPort p { s.port p with holdPending := some time, holdWaiter := some o } := by
  have hstate : (s.port p).state ≠ .hold ∧ halted (s.port p).state = false := by
    cases hst : (s.port p).state <;> simp_all [running, halted]
  unfold State.holdPort
  dsimp only
  rw [if_neg (by simp [hgroup]), if_neg hstate.1, if_neg (by simp), if_neg (by simp [hnone]), if_neg (by simp [hstate.2]), if_neg htime,
    if_pos hrun]

/-- A HOLD of a held port sets the time left (R128). -/
theorem State.holdPort_held (hgroup : s.groupOf p = none) (hst : (s.port p).state = .hold) (htime : time ≠ 0) :
    s.holdPort p time (some o) = (s.setPort p { s.port p with holdEnd := s.holdDue time }).complete o 0x00 := by
  unfold State.holdPort
  dsimp only
  rw [if_neg (by simp [hgroup]), if_pos hst, if_neg htime]

/-- The states of a group in which a hold of it can take effect (R245). -/
def Holdable (st : GState) : Prop := st = .coldstart ∨ st = .startup ∨ st = .normal

theorem Holdable.ne {st : GState} (h : Holdable st) : st ≠ .stopped ∧ st ≠ .hold ∧ st ≠ .joining := by
  rcases h with rfl | rfl | rfl <;> simp

/-- A hold of a live group is pending (R247). -/
theorem State.holdGroup_pends (hst : Holdable (s.group k).state) (hnone : (s.group k).holdPending = none) (htime : time ≠ 0) :
    s.holdGroup k time (some o) = s.setGroup k { s.group k with holdPending := some time, holdWaiter := some o } := by
  obtain ⟨hstopped, hhold, hjoining⟩ := hst.ne
  unfold State.holdGroup
  dsimp only
  rw [if_neg hstopped, if_neg hhold, if_neg hjoining, if_neg (by simp [hnone]), if_neg htime]

theorem State.fetch_port (s : State) (d : Dom) (n : RingNo) (op : Bool) (p : PortId) : (s.fetch d n op).port p = s.port p :=
  s.fetch_reads d n op (fun u => u.port p) fun _ _ => rfl

theorem State.fetch_group (s : State) (d : Dom) (n : RingNo) (op : Bool) (k : GrpId) : (s.fetch d n op).group k = s.group k :=
  s.fetch_reads d n op (fun u => u.group k) fun _ _ => rfl

theorem State.fetch_groups (s : State) (d : Dom) (n : RingNo) (op : Bool) : (s.fetch d n op).groups = s.groups :=
  s.fetch_reads d n op State.groups fun _ _ => rfl

theorem State.fetch_portOwner (s : State) (d : Dom) (n : RingNo) (op : Bool) (p : PortId) : (s.fetch d n op).portOwner p = s.portOwner p :=
  s.fetch_reads d n op (fun u => u.portOwner p) fun _ _ => rfl

theorem State.fetch_groupOf (s : State) (d : Dom) (n : RingNo) (op : Bool) (p : PortId) : (s.fetch d n op).groupOf p = s.groupOf p :=
  s.fetch_reads d n op (fun u => u.groupOf p) fun _ _ => rfl

theorem State.fetch_setPort_ports (s : State) (d : Dom) (n : RingNo) (p : PortId) (y : Port) :
    ((s.fetch d n).setPort p y).ports = s.ports.set p y := by
  simp only [State.setPort, State.fetch_ports]

/-- What a request for a hold of a port that its domain holds comes to, once its HOLD is fetched. -/
theorem hold_port_exec (h : CmdReady s d n x) (hres : reservedZero x holdFields = true) (ht : dnum x 4 1 = p.val) (howner : s.portOwner p = d)
    (htest : s.underTest p = false) (hfree : s.heldBack (fun a => a.ports.getLsbD p.val) = false) :
    exec (.hold d n x) s = finish ((s.fetch d n).holdPort p (BitVec.ofNat 32 (dnum x 8 4)) (some (s.opOf d n x))) := by
  rw [hold_exec h hres, State.holdRequest_port ht ((s.fetch_portOwner d n true p).trans howner)
    ((s.fetch_reads d n true (fun u => u.heldBack fun a => a.ports.getLsbD p.val) fun _ _ => rfl).trans hfree)
    ((s.fetch_reads d n true (fun u => u.underTest p) fun _ _ => rfl).trans htest)]

theorem State.complete_groups (s : State) (o : Op) (st : Byte) (i0 : Word) (i1 : Half) (stamp : Option (BitVec 36)) (port : Byte) :
    (s.complete o st i0 i1 stamp port).groups = s.groups := by
  obtain ⟨l, r, c, h, e⟩ := s.complete_eq o st i0 i1 stamp port
  rw [e]

theorem hold_running_pends (h : CmdReady s d n x) (hres : reservedZero x holdFields = true) (ht : dnum x 4 1 = p.val) (howner : s.portOwner p = d)
    (htest : s.underTest p = false) (hfree : s.heldBack (fun a => a.ports.getLsbD p.val) = false) (hgroup : s.groupOf p = none)
    (hrun : running (s.port p).state = true) (hnone : (s.port p).holdPending = none) (htime : (BitVec.ofNat 32 (dnum x 8 4) : Word) ≠ 0) :
    Does (.hold d n x) s fun t => t.port p = { s.port p with holdPending := some (BitVec.ofNat 32 (dnum x 8 4)), holdWaiter := some (s.opOf d n x) } ∧
      OtherPorts s t p ∧ SameRegs s t ∧ t.groups = s.groups := by
  have he := hold_port_exec h hres ht howner htest hfree
  rw [State.holdPort_pends (by rwa [State.fetch_groupOf]) (by rwa [State.fetch_port]) (by rwa [State.fetch_port]) htime, State.fetch_port] at he
  refine .of_finish he ⟨?_, .of_set (s.fetch_setPort_ports d n p _), SameRegs.of_regs (s.fetch_regs d n true), ?_⟩
  · rw [State.announce_port, State.noteMay_port, State.port_setPort_same]
  · rw [State.announce_groups, State.noteMay_groups, State.setPort_groups, State.fetch_groups]

theorem hold_held_answers (h : CmdReady s d n x) (hres : reservedZero x holdFields = true) (ht : dnum x 4 1 = p.val) (howner : s.portOwner p = d)
    (htest : s.underTest p = false) (hfree : s.heldBack (fun a => a.ports.getLsbD p.val) = false) (hgroup : s.groupOf p = none)
    (hst : (s.port p).state = .hold) (htime : (BitVec.ofNat 32 (dnum x 8 4) : Word) ≠ 0) :
    Does (.hold d n x) s fun t => Answered s t d n x 0x00 0 ∧ t.port p = { s.port p with holdEnd := s.holdDue (BitVec.ofNat 32 (dnum x 8 4)) } ∧
      OtherPorts s t p ∧ SameRegs s t ∧ t.groups = s.groups := by
  let v : State := (s.fetch d n).setPort p { s.port p with holdEnd := s.holdDue (BitVec.ofNat 32 (dnum x 8 4)) }
  have hdue : (s.fetch d n).holdDue (BitVec.ofNat 32 (dnum x 8 4)) = s.holdDue (BitVec.ofNat 32 (dnum x 8 4)) :=
    s.fetch_reads d n true (fun u => u.holdDue _) fun _ _ => rfl
  have he : exec (.hold d n x) s = finish (v.complete (s.opOf d n x) 0x00) := by
    rw [hold_port_exec h hres ht howner htest hfree,
      State.holdPort_held (by rwa [State.fetch_groupOf]) (by rwa [State.fetch_port]) htime, State.fetch_port, hdue]
  have hk : Keeps false s v := State.setPort_keeps (s.fetch_keeps' d n true)
  have hg : SameCq s v d n := (SameCq.fetch h).of_eq rfl rfl rfl rfl rfl
  have hports : (v.complete (s.opOf d n x) 0x00).ports = s.ports.set p _ :=
    (State.complete_ports _ _ _ _ _ _ _).trans (s.fetch_setPort_ports d n p _)
  refine .of_finish he ⟨.of_sends hk (hg.complete h 0x00 0 0 none 0xFF), ?_, .of_set hports, SameRegs.of_regs ?_, ?_⟩
  · rw [State.announce_port, State.noteMay_port, State.port, State.complete_ports]
    exact State.port_setPort_same _ _ _
  · rw [State.complete_regs]
    exact s.fetch_regs d n true
  · rw [State.announce_groups, State.noteMay_groups, State.complete_groups]
    exact s.fetch_groups d n true

theorem hold_foreign_refused (h : CmdReady s d n x) (hres : reservedZero x holdFields = true) (ht : dnum x 4 1 = p.val) (howner : s.portOwner p ≠ d) :
    Does (.hold d n x) s fun t => Answered s t d n x 0x31 0 ∧ t.ports = s.ports ∧ t.groups = s.groups ∧ SameRegs s t := by
  have he := hold_exec h hres
  rw [State.holdRequest_foreign ht (by rwa [State.fetch_portOwner])] at he
  obtain ⟨hanswered, hports, hregs⟩ := h.fetched_answered 0x31 0xFF
  refine .of_finish he ⟨hanswered, hports, ?_, hregs⟩
  rw [State.announce_groups, State.noteMay_groups, State.complete_groups, State.fetch_groups]

theorem hold_group_pends (h : CmdReady s d n x) (hres : reservedZero x holdFields = true) (ht : dnum x 4 1 = 0x40 + k.val) (howner : s.grpOwner k = d)
    (hfree : s.heldBack (s.namesGroup k) = false) (hst : Holdable (s.group k).state) (hnone : (s.group k).holdPending = none)
    (htime : (BitVec.ofNat 32 (dnum x 8 4) : Word) ≠ 0) :
    Does (.hold d n x) s fun t => t.group k = { s.group k with holdPending := some (BitVec.ofNat 32 (dnum x 8 4)), holdWaiter := some (s.opOf d n x) } ∧
      SameRegs s t ∧ t.ports = s.ports ∧ ∀ j, j ≠ k → t.group j = s.group j := by
  have he := hold_exec h hres
  rw [State.holdRequest_group ht ((s.fetch_reads d n true (fun u => u.grpOwner k) fun _ _ => rfl).trans howner)
      ((s.fetch_reads d n true (fun u => u.heldBack (u.namesGroup k)) fun _ _ => rfl).trans hfree),
    State.holdGroup_pends (by rwa [State.fetch_group]) (by rwa [State.fetch_group]) htime, State.fetch_group] at he
  refine .of_finish he ⟨?_, SameRegs.of_regs (s.fetch_regs d n true), ?_, fun j hj => ?_⟩
  · rw [State.announce_group, State.noteMay_group, State.group_setGroup_same]
  · rw [State.announce_ports, State.noteMay_ports, State.setGroup_ports, State.fetch_ports]
  · rw [State.announce_group, State.noteMay_group, State.group_setGroup_other _ _ _ _ hj, State.fetch_group]

end holdCommand

/-! ### A hold of a port takes effect, and ends (R125, R129) -/

section portHold
variable {s : State} {p : PortId}

theorem enterHold_becomes (w : Word) (hrun : running (s.port p).state = true) : PortBecomes s (s.enterHold p w) p
    { s.port p with state := .hold, prior := (s.port p).state, holdPending := none, holdWaiter := none, holdEnd := s.holdDue w }
    (setBit (s.reg (.port p .evt)) 0) := by
  have hshow := PortBecomes.showPort (s := s) (p := p)
    (x := { s.port p with state := .hold, prior := (s.port p).state, holdPending := none, holdWaiter := none, holdEnd := s.holdDue w })
    (fun hst => by rw [hst] at hrun; exact absurd hrun Bool.false_ne_true)
  unfold State.enterHold
  extract_lets x due u
  split
  · exact hshow.complete _ _
  · exact hshow

theorem enterHold_groups (s : State) (p : PortId) (w : Word) : (s.enterHold p w).groups = s.groups := by
  have h : Only [.counts, .halves, .out, .ports, .regs .port, .rings] s (s.enterHold p w) := by
    apply State.enterHold_only (Only.refl s) <;> decide
  exact h.2 .groups (by decide)

theorem holdTakesEffect_port {w : Word} (hpending : (s.port p).holdPending = some w) (hwire : (s.port p).onWire = none)
    (hrun : running (s.port p).state = true) (hseq : (s.port p).seqOn = false) (hgroup : s.groupOf p = none) :
    Does (.holdTakesEffect (.port p)) s fun t =>
      t.port p = { s.port p with state := .hold, prior := (s.port p).state, holdPending := none, holdWaiter := none, holdEnd := s.holdDue w } ∧
      t.reg (.port p .evt) = setBit (s.reg (.port p .evt)) 0 ∧ OtherPorts s t p ∧ OtherRegs s t [.port p .evt] ∧ t.groups = s.groups := by
  have he : exec (.holdTakesEffect (.port p)) s = finish (s.enterHold p w) := by
    change execHoldTakesEffect (.port p) s = _
    unfold execHoldTakesEffect State.holdArrives
    dsimp only
    rw [if_pos (by simp [hpending, hwire, hrun, hseq, hgroup]), hpending]
    dsimp only
    rw [if_pos hrun]
  have ht := (enterHold_becomes w hrun).left
  exact .of_finish he ⟨ht.port, ht.evt, ht.others, ht.regs, by rw [State.announce_groups, State.noteMay_groups, enterHold_groups]⟩

theorem State.advance_groups (s : State) (r : DWord) : (s.advance r).groups = s.groups := (s.advance_frame r).2 .groups (by decide)

theorem showPort_groups (s : State) (p : PortId) (x : Port) : (s.showPort p x).groups = s.groups := by
  have h : Only [.ports, .regs .port] s (s.showPort p x) := by apply State.showPort_only (Only.refl s) <;> decide
  exact h.2 .groups (by decide)

theorem holdExpiry_port {u : State} {r : DWord} (hst : (s.port p).state = .hold) (hend : (s.port p).holdEnd = some r)
    (hgroup : s.groupOf p = none) (hu : u = s.advance r) :
    Does (.holdExpiry (.port p)) s fun t => t.port p = { u.port p with state := (s.port p).prior, prior := .off, holdEnd := none } ∧
      OtherPorts u t p ∧ OtherRegs u t [.port p .evt] ∧ t.groups = s.groups := by
  subst hu
  have hprior : ((s.advance r).port p).prior = (s.port p).prior := Port.eq_of_noCands ((s.advance_sameButCands r).ports p) Port.prior fun _ => rfl
  have he : exec (.holdExpiry (.port p)) s =
      finish ((s.advance r).showPort p { (s.advance r).port p with state := (s.port p).prior, prior := .off, holdEnd := none }) := by
    change execHoldExpiry (.port p) s = _
    unfold execHoldExpiry State.leaveHold
    dsimp only
    rw [hend]
    dsimp only
    rw [if_pos ⟨hst, by rw [hgroup]; rfl⟩, hprior]
  obtain ⟨w, hshown⟩ := PortBecomes.shown (s.advance r) p { (s.advance r).port p with state := (s.port p).prior, prior := .off, holdEnd := none }
  have ht := hshown.left
  exact .of_finish he ⟨ht.port, ht.others, ht.regs, by rw [State.announce_groups, State.noteMay_groups, showPort_groups, State.advance_groups]⟩

end portHold

/-! ### A hold of a group takes effect, and ends (R245, R247) -/

section groupHold
variable {s u v : State} {k : GrpId} {g : Group}

/-- u is s with group k set to g, and of the groups' registers only the event register of k changed. -/
structure GroupBecomes (s u : State) (k : GrpId) (g : Group) : Prop where
  groups : u.groups = s.groups.set k g
  regs : ∀ j q, Reg.grp j q ≠ .grp k .evt → u.reg (.grp j q) = s.reg (.grp j q)

theorem GroupBecomes.group (h : GroupBecomes s u k g) : u.group k = g := by
  have hu : u.group k = (s.setGroup k g).group k := by rw [State.group, h.groups, State.group, State.setGroup]
  rw [hu, State.group_setGroup_same]

theorem GroupBecomes.trans {g' : Group} (h : GroupBecomes s u k g) (h' : GroupBecomes u v k g') : GroupBecomes s v k g' :=
  ⟨by rw [h'.groups, h.groups, Vector.set_set], fun j q hq => (h'.regs j q hq).trans (h.regs j q hq)⟩

/-- What changes no group and no register of one changes nothing here. -/
theorem GroupBecomes.only {ps : List Part} (h : GroupBecomes s u k g) (ho : Only ps u v) (hg : Part.groups ∉ ps) (hr : Part.regs .grp ∉ ps) :
    GroupBecomes s v k g :=
  ⟨(ho.2 .groups hg).trans h.groups, fun j q hq => (ho.2 (.regs .grp) hr (.grp j q) rfl).trans (h.regs j q hq)⟩

/-- What every command ends with leaves the groups. -/
theorem GroupBecomes.left (h : GroupBecomes s u k g) : u.noteMay.announce.group k = g ∧ ∀ j, j ≠ k → u.noteMay.announce.group j = s.group j := by
  have hgroup : ∀ j, u.noteMay.announce.group j = (s.setGroup k g).group j := fun j => by
    rw [State.announce_group, State.noteMay_group, State.group, h.groups, State.group, State.setGroup]
  exact ⟨by rw [hgroup, State.group_setGroup_same], fun j hj => by rw [hgroup, State.group_setGroup_other _ _ _ _ hj]⟩

theorem State.syncMembers_reg (s : State) (k : GrpId) (r : Reg) (hr : blockOf r ≠ .port) : (s.syncMembers k).reg r = s.reg r := by
  have h : Only [.ports, .regs .port] s (s.syncMembers k) := by apply State.syncMembers_only (Only.refl s) <;> decide
  exact h.2 (.regs (blockOf r)) (by simpa using hr) r rfl

theorem groupGoes_becomes (s : State) (k : GrpId) (g : Group) : GroupBecomes s (s.groupGoes k g) k g := by
  unfold State.groupGoes
  extract_lets old v w
  have hv : GroupBecomes s v k g := ⟨rfl, fun _ _ _ => rfl⟩
  have hw : GroupBecomes s w k g := by
    unfold w
    split
    · exact hv
    · exact ⟨rfl, fun j q hq => State.reg_raise_other _ _ _ _ hq⟩
  have hsync : Only [.ports, .regs .port] w (w.syncMembers k) := by apply State.syncMembers_only (Only.refl w) <;> decide
  exact hw.only hsync (by decide) (by decide)

/-- A group that changes its state has its event bit set (R245). -/
theorem groupGoes_evt (h : (s.group k).state ≠ g.state) : (s.groupGoes k g).reg (.grp k .evt) = setBit (s.reg (.grp k .evt)) 0 := by
  unfold State.groupGoes
  dsimp only
  rw [if_neg h, State.syncMembers_reg _ _ _ (by simp [blockOf])]
  exact State.reg_raise_same _ _ _

/-- What follows a group into its hold: the anchor shows it, and the HOLD that waits completes. -/
theorem enterGroupHold_only (s : State) (k : GrpId) (w : Word) : Only [.counts, .halves, .out, .ports, .regs .port, .rings]
    (s.groupGoes k { s.group k with state := .hold, prior := (s.group k).state, holdPending := none, holdWaiter := none, holdEnd := s.holdDue w })
    (s.enterGroupHold k w) := by
  unfold State.enterGroupHold
  extract_lets g u a v
  have hv : Only [.counts, .halves, .out, .ports, .regs .port, .rings] u v := by
    unfold v
    split
    · apply State.showPort_only (Only.refl u) <;> decide
    · exact Only.refl u
  split
  · apply State.complete_only hv <;> decide
  · exact hv

theorem holdTakesEffect_group {w : Word} (hpending : (s.group k).holdPending = some w) (hidle : s.joinedIdle k = true)
    (hst : Holdable (s.group k).state) :
    Does (.holdTakesEffect (.grp k)) s fun t =>
      t.group k = { s.group k with state := .hold, prior := (s.group k).state, holdPending := none, holdWaiter := none, holdEnd := s.holdDue w } ∧
      t.reg (.grp k .evt) = setBit (s.reg (.grp k .evt)) 0 ∧ ∀ j, j ≠ k → t.group j = s.group j := by
  obtain ⟨hstopped, hhold, hjoining⟩ := hst.ne
  have he : exec (.holdTakesEffect (.grp k)) s = finish (s.enterGroupHold k w) := by
    change execHoldTakesEffect (.grp k) s = _
    unfold execHoldTakesEffect State.groupHoldArrives
    dsimp only
    rw [if_pos (by simp [hpending, hidle, hstopped, hjoining]), hpending]
    exact congrArg finish (if_pos hst)
  have honly := enterGroupHold_only s k w
  obtain ⟨hgroup, hothers⟩ := ((groupGoes_becomes s k _).only honly (by decide) (by decide)).left
  refine .of_finish he ⟨hgroup, ?_, hothers⟩
  rw [State.announce_reg _ _ (by simp [blockOf]), State.noteMay_reg, honly.2 (.regs .grp) (by decide) _ rfl, groupGoes_evt (by simpa using hhold)]

/-- The state to which the hold of a group returns it: PRIOR, or NORMAL where the count reached G_PROMOTE during the hold (R245). -/
def State.holdReturns (s : State) (k : GrpId) : GState :=
  if (s.group k).prior = .startup ∧ max 1 (s.rf (.grp k .cfg) 12 5) ≤ (s.group k).promoteCnt then .normal else (s.group k).prior

theorem leaveGroupHold_becomes (s : State) (k : GrpId) : GroupBecomes s (s.leaveGroupHold k) k
    { s.group k with state := s.holdReturns k, prior := .stopped, holdEnd := none } := by
  unfold State.leaveGroupHold
  extract_lets g u a v g'
  have hu : GroupBecomes s u k { s.group k with state := (s.group k).prior, prior := .stopped, holdEnd := none } := groupGoes_becomes _ _ _
  have honly : Only [.ports, .regs .port] u v := by
    unfold v
    split
    · apply State.showPort_only (Only.refl u) <;> decide
    · split
      · exact State.setPort_only (Only.refl u) (by decide)
      · exact Only.refl u
  have hv := hu.only honly (by decide) (by decide)
  have hneed : v.rf (.grp k .cfg) 12 5 = s.rf (.grp k .cfg) 12 5 := by rw [State.rf, hv.regs k .cfg (by simp), State.rf]
  have hg' : g' = { s.group k with state := (s.group k).prior, prior := .stopped, holdEnd := none } := hv.group
  rw [hneed, hg']
  by_cases hpromote : (s.group k).prior = .startup ∧ max 1 (s.rf (.grp k .cfg) 12 5) ≤ (s.group k).promoteCnt
  · rw [if_pos hpromote, State.holdReturns, if_pos hpromote]
    exact hv.trans (groupGoes_becomes v k _)
  · rw [if_neg hpromote, State.holdReturns, if_neg hpromote]
    exact hv

theorem holdExpiry_group {r : DWord} (hst : (s.group k).state = .hold) (hend : (s.group k).holdEnd = some r) :
    Does (.holdExpiry (.grp k)) s fun t => (t.group k).holdEnd = none ∧ (t.group k).state = s.holdReturns k ∧ ∀ j, j ≠ k → t.group j = s.group j := by
  have he : exec (.holdExpiry (.grp k)) s = finish ((s.advance r).leaveGroupHold k) := by
    change execHoldExpiry (.grp k) s = _
    unfold execHoldExpiry
    dsimp only
    rw [hend]
    exact if_pos hst
  have hgroups : ∀ j, (s.advance r).group j = s.group j := fun j => by rw [State.group, State.advance_groups, State.group]
  have hreturns : (s.advance r).holdReturns k = s.holdReturns k := by
    rw [State.holdReturns, hgroups, State.rf, State.advance_reg _ _ (by simp [blockOf]), ← State.rf, ← State.holdReturns]
  obtain ⟨hgroup, hothers⟩ := (leaveGroupHold_becomes (s.advance r) k).left
  refine .of_finish he ⟨by rw [hgroup], by rw [hgroup, hreturns], fun j hj => (hothers j hj).trans (hgroups j)⟩

end groupHold

/-- Settles O27: a hold is noted, takes effect and ends as a change of its own port or group; what else its command does is a completion. -/
theorem holdCommand : Obligations.HoldCommand := by
  unfold Obligations.HoldCommand
  exact ⟨fun _ _ _ _ _ h hres ht howner htest hfree hgroup hrun hnone htime => hold_running_pends h hres ht howner htest hfree hgroup hrun hnone htime,
    fun _ _ _ _ _ h hres ht howner htest hfree hgroup hst htime => hold_held_answers h hres ht howner htest hfree hgroup hst htime,
    fun _ _ _ _ _ h hres ht howner hfree hst hnone htime => hold_group_pends h hres ht howner hfree hst hnone htime,
    fun _ _ _ _ _ h hres ht howner => hold_foreign_refused h hres ht howner,
    fun _ _ _ hpending hwire hrun hseq hgroup => holdTakesEffect_port hpending hwire hrun hseq hgroup,
    fun _ _ _ hpending hidle hst => holdTakesEffect_group hpending hidle hst,
    fun _ _ _ _ hst hend hgroup hu => holdExpiry_port hst hend hgroup hu, fun _ _ _ hst hend => holdExpiry_group hst hend⟩

end Sys2Proof.Machine

namespace Sys2Proof.Machine

/-! ### Tarn after a write, byte by byte (R24, R138) -/

section tarnWrite
variable {s : State} {d : Dom}

/-- A write to Tarn changes nothing else. -/
theorem State.tarnWrite_eq (s : State) (d : Dom) (x : Nat) (bs : List Byte) : ∃ m, s.tarnWrite d x bs = { s with tarn := m } := by
  induction bs generalizing s x with
  | nil => exact ⟨s.tarn, rfl⟩
  | cons b bs ih =>
    rw [State.tarnWrite]
    split
    next a _ =>
      obtain ⟨m, hm⟩ := ih { s with tarn := Tbl.put 0 s.tarn a b } (x + 1)
      exact ⟨m, hm⟩
    next => exact ih s (x + 1)

@[simp] theorem State.tarnWrite_objs (s : State) (d : Dom) (x : Nat) (bs : List Byte) : (s.tarnWrite d x bs).objs = s.objs := by
  obtain ⟨m, hm⟩ := s.tarnWrite_eq d x bs; rw [hm]

@[simp] theorem State.tarnWrite_obj (s : State) (d : Dom) (x : Nat) (bs : List Byte) (e : Dom) (o : Nat) : (s.tarnWrite d x bs).obj e o = s.obj e o := by
  rw [State.obj, State.tarnWrite_objs, State.obj]

@[simp] theorem State.tarnWrite_units (s : State) (d : Dom) (x : Nat) (bs : List Byte) : (s.tarnWrite d x bs).units = s.units := by
  obtain ⟨m, hm⟩ := s.tarnWrite_eq d x bs; rw [hm]

theorem State.tarnAddr_of_units {t : State} (h : t.units = s.units) (d : Dom) (x : Nat) : t.tarnAddr d x = s.tarnAddr d x := by
  rw [State.tarnAddr, h, State.tarnAddr]

/-- No address of the bytes written: the byte there stays. -/
theorem State.tarnWrite_outside {x a : Nat} {bs : List Byte} (h : ∀ i, i < bs.length → s.tarnAddr d (x + i) ≠ some a) :
    Tbl.get 0 (s.tarnWrite d x bs).tarn a = Tbl.get 0 s.tarn a := by
  induction bs generalizing s x with
  | nil => rfl
  | cons b bs ih =>
    have hfirst : s.tarnAddr d x ≠ some a := h 0 (Nat.zero_lt_succ _)
    have hrest : ∀ i, i < bs.length → s.tarnAddr d (x + 1 + i) ≠ some a := fun i hi => by
      rw [Nat.add_right_comm]
      exact h (i + 1) (Nat.succ_lt_succ hi)
    rw [State.tarnWrite]
    split
    next c hc =>
      exact (ih (s := { s with tarn := Tbl.put 0 s.tarn c b }) hrest).trans (Tbl.get_put_other _ _ _ _ fun hac => hfirst (hac ▸ hc))
    next => exact ih hrest

/-- Different bytes of a quota whose units are all different have different addresses. -/
theorem State.tarnAddr_inj (hn : (s.units[d]).Nodup) {x y a : Nat} (hx : s.tarnAddr d x = some a) (hy : s.tarnAddr d y = some a) : x = y := by
  obtain ⟨u, hu, hau⟩ := Option.map_eq_some_iff.1 hx
  obtain ⟨v, hv, hav⟩ := Option.map_eq_some_iff.1 hy
  have huv : u = v := by omega
  have hlen : x / 4096 < (s.units[d]).length := (List.getElem?_eq_some_iff.1 hu).1
  have hunit : x / 4096 = y / 4096 := (List.getElem?_inj hlen hn).1 (by rw [hu, hv, huv])
  omega

/-- The byte at the address of the i-th byte written is that byte. -/
theorem State.tarnWrite_inside (hn : (s.units[d]).Nodup) {x a i : Nat} {bs : List Byte} (hwf : Tbl.wf 0 s.tarn = true) (hi : i < bs.length)
    (ha : s.tarnAddr d (x + i) = some a) : Tbl.get 0 (s.tarnWrite d x bs).tarn a = bs.getD i 0 := by
  induction bs generalizing s x i with
  | nil => exact absurd hi (Nat.not_lt_zero i)
  | cons b bs ih =>
    rw [State.tarnWrite]
    cases i with
    | zero =>
      rw [Nat.add_zero] at ha
      rw [ha]
      dsimp only
      refine (State.tarnWrite_outside fun j _ hj => ?_).trans (Tbl.get_put_same _ _ _ hwf)
      have hxj : x + 1 + j = x := State.tarnAddr_inj (s := s) hn hj ha
      omega
    | succ i =>
      have hnext : s.tarnAddr d (x + 1 + i) = some a := by rw [← ha, Nat.add_right_comm, Nat.add_assoc]
      have hlt : i < bs.length := Nat.lt_of_succ_lt_succ hi
      rw [List.getD_cons_succ]
      split
      next c _ => exact ih (s := { s with tarn := Tbl.put 0 s.tarn c b }) hn (Tbl.wf_put _ _ _ hwf) hlt hnext
      next => exact ih hn hwf hlt hnext

end tarnWrite

/-- The object of another domain or number is the same. -/
theorem State.obj_setObj_other (s : State) {d e : Dom} {o i : Nat} (x : Obj) (h : (e, i) ≠ (d, o)) (hi : i < 8192) (ho : o < 8192) :
    (s.setObj d o x).obj e i = s.obj e i := by
  refine Tbl.get_put_other _ _ _ _ fun hk => h ?_
  have hd : e.val = d.val := by omega
  exact Prod.ext (Fin.ext hd) (by omega)

/-! ### OBJ_READ: the copy of an object (R148, R150, R151) -/

section copy
variable {s : State} {d : Dom} {n : RingNo} {o : Nat} {x : Desc}

theorem State.tarnRead_length (s : State) (d : Dom) (x n : Nat) : (s.tarnRead d x n).length = n := by simp [State.tarnRead]

theorem State.tarnRead_getD (s : State) (d : Dom) (x : Nat) {n i : Nat} (hi : i < n) : (s.tarnRead d x n).getD i 0 = s.tarnByte d (x + i) := by
  simp [State.tarnRead, List.getD, hi]

/-- The bytes that OBJ_READ copies: the header with the payload of its LENGTH, at most that of the object's class (log 24). -/
def State.copyLength (s : State) (d : Dom) (o : Nat) : Nat :=
  16 + min (leAt (s.tarnRead d (objMain (s.obj d o)) 16) 6 2) (classBytes (objClass (s.obj d o).cfg))

/-- An object while it is copied for an operation that will complete with the entry e. -/
def Obj.copied (x : Obj) (op : Op) (e : CqEntry) : Obj := { x with copying := true, isNew := false, lost := false, reading := some (op, e) }

/-- What the start of a copy does: the image leaves for host memory, its flags in Tarn fall, and the entry is kept with the object. -/
theorem State.startCopy_eq (s : State) (d : Dom) (o : Nat) (op : Op) (addr : DWord) : ∃ bs e m,
    s.startCopy d o op addr = State.setObj { s.hostWrite d addr.toNat bs with tarn := m } d o ((s.obj d o).copied op e) ∧
    bs.length = s.copyLength d o ∧ (∀ i, i ≠ 4 → i < bs.length → bs.getD i 0 = s.tarnByte d (objMain (s.obj d o) + i)) ∧
    e.tag = op.tag ∧ e.status = 0 ∧ e.num = op.num := by
  unfold State.startCopy
  extract_lets x n bs isNew lost b4 held e u v
  have hlen : bs.length = s.copyLength d o := s.tarnRead_length d _ _
  have hlong : 4 < bs.length := by rw [hlen, State.copyLength]; omega
  have hset : bs.take 4 ++ [b4] ++ bs.drop 5 = bs.set 4 b4 := by simp [List.set_eq_take_append_cons_drop, hlong]
  obtain ⟨m, hm⟩ := u.tarnWrite_eq d (objMain x + 4) [bs.getD 4 0 &&& 0x9F]
  refine ⟨bs.set 4 b4, e, m, ?_, by rw [List.length_set, hlen], fun i h4 hi => ?_, rfl, rfl, rfl⟩
  · rw [show v = _ from hm, show u = _ from congrArg (s.hostWrite d addr.toNat) hset]
    rfl
  · rw [List.length_set] at hi
    rw [List.getD_eq_getElem?_getD, List.getElem?_set_ne (Ne.symm h4), ← List.getD_eq_getElem?_getD]
    exact s.tarnRead_getD d _ (hi.trans_eq hlen)

/-- OBJ_READ of a valid object whose image the windows take (R148). -/
theorem State.objReadOp_eq {op : Op} (hres : reservedZero x [(4, 0, 16), fAddr] = true) (hnum : dnum x 4 2 < 8192)
    (hvalid : objValid (s.obj d (dnum x 4 2)) = true)
    (hwin : s.inWindow d (daddr x).toNat (16 + classBytes (objClass (s.obj d (dnum x 4 2)).cfg)) false true = true) :
    s.objReadOp d x op = if (s.obj d (dnum x 4 2)).copying then
      s.setObj d (dnum x 4 2) { s.obj d (dnum x 4 2) with readers := (s.obj d (dnum x 4 2)).readers ++ [(op, daddr x)] }
    else s.startCopy d (dnum x 4 2) op (daddr x) := by
  unfold State.objReadOp
  dsimp only
  rw [if_neg (by simp [hres, hnum]), if_neg (by simp [hvalid]), if_neg (by simp [hwin])]

theorem State.fetch_obj (s : State) (d : Dom) (n : RingNo) (e : Dom) (i : Nat) : (s.fetch d n).obj e i = s.obj e i :=
  s.fetch_reads d n true (fun u => u.obj e i) fun _ _ => rfl

theorem State.fetch_tarn (s : State) (d : Dom) (n : RingNo) : (s.fetch d n).tarn = s.tarn := s.fetch_reads d n true State.tarn fun _ _ => rfl

theorem objRead_exec (h : CmdReady s d n x) : exec (.objRead d n x) s = finish ((s.fetch d n).objReadOp d x (s.opOf d n x)) := by
  change execObjRead d n x s = _
  rw [execObjRead, if_pos h.on, h.command_eq]

theorem objRead_copies (h : CmdReady s d n x) (htab : TablesOk s) (hres : reservedZero x [(4, 0, 16), fAddr] = true) (hnum : dnum x 4 2 < 8192)
    (hvalid : objValid (s.obj d (dnum x 4 2)) = true)
    (hwin : s.inWindow d (daddr x).toNat (16 + classBytes (objClass (s.obj d (dnum x 4 2)).cfg)) false true = true)
    (hidle : (s.obj d (dnum x 4 2)).copying = false) :
    Does (.objRead d n x) s fun t => (t.obj d (dnum x 4 2)).copying = true ∧ (t.obj d (dnum x 4 2)).isNew = false ∧ (t.obj d (dnum x 4 2)).lost = false ∧
      (∃ bs, Sends s t (.host d (daddr x).toNat bs) ∧ bs.length = 16 + min (leAt (s.tarnRead d (objMain (s.obj d (dnum x 4 2))) 16) 6 2)
          (classBytes (objClass (s.obj d (dnum x 4 2)).cfg)) ∧
        ∀ i, i ≠ 4 → i < bs.length → bs.getD i 0 = s.tarnByte d (objMain (s.obj d (dnum x 4 2)) + i)) ∧
      (∃ e, (t.obj d (dnum x 4 2)).reading = some (s.opOf d n x, e) ∧ e.tag = x.tag ∧ e.status = 0 ∧ e.num = n) ∧
      (∀ e o, (e, o) ≠ (d, dnum x 4 2) → o < 8192 → t.obj e o = s.obj e o) ∧ SameRegs s t ∧ t.ports = s.ports := by
  obtain ⟨bs, e, m, hcopy, hlen, hbytes, htag, hstatus, hentry⟩ := (s.fetch d n).startCopy_eq d (dnum x 4 2) (s.opOf d n x) (daddr x)
  rw [s.fetch_reads d n true (fun u => u.copyLength d (dnum x 4 2)) fun _ _ => rfl] at hlen
  rw [State.fetch_obj] at hcopy hbytes
  let w : State := { (s.fetch d n).hostWrite d (daddr x).toNat bs with tarn := m }
  have hop : (s.fetch d n).objReadOp d x (s.opOf d n x) = w.setObj d (dnum x 4 2) ((s.obj d (dnum x 4 2)).copied (s.opOf d n x) e) := by
    rw [State.objReadOp_eq hres hnum (by rwa [State.fetch_obj]) (by rwa [State.fetch_obj, State.inWindow_fetch]), State.fetch_obj,
      if_neg (by rw [hidle]; decide), hcopy]
  have hkeep : Keeps false s ((s.fetch d n).hostWrite d (daddr x).toNat bs) := State.hostWrite_keeps (s.fetch_keeps' d n true)
  have hobjs : ∀ e i, w.obj e i = s.obj e i := fun e i => by
    obtain ⟨l, hl⟩ := (s.fetch d n).hostWrite_eq d (daddr x).toNat bs
    rw [show w.obj e i = ((s.fetch d n).hostWrite d (daddr x).toNat bs).obj e i from rfl, hl]
    exact s.fetch_obj d n e i
  have hself := State.obj_setObj_same (s := w) d (dnum x 4 2) ((s.obj d (dnum x 4 2)).copied (s.opOf d n x) e) (hkeep.2.1 htab).objs
  have hsends : Sends s ((s.fetch d n).hostWrite d (daddr x).toNat bs) (.host d (daddr x).toNat bs) := by
    refine (State.hostWrite_sends ?_ fun hnil => ?_).of_mid (s.fetch_keeps' d n true)
    · rw [(SameCq.fetch h).mute, h.mute]
    · rw [hnil, State.copyLength, List.length_nil] at hlen
      omega
  refine .of_finish ((objRead_exec h).trans (congrArg finish hop)) ?_
  simp only [State.announce_obj, State.noteMay_obj, hself]
  refine ⟨rfl, rfl, rfl, ⟨bs, ?_, hlen, fun i h4 hi => (hbytes i h4 hi).trans ?_⟩, ⟨e, rfl, htag, hstatus, hentry⟩, fun e i hne hi => ?_,
    SameRegs.of_regs ?_, ?_⟩
  · exact Sends.later (u := w.setObj d (dnum x 4 2) _) hsends (State.announce_keeps (State.noteMay_keeps (Keeps.refl _)))
  · exact s.fetch_reads d n true (fun u => u.tarnByte d (objMain (s.obj d (dnum x 4 2)) + i)) fun _ _ => rfl
  · rw [State.obj_setObj_other _ _ hne hi hnum, hobjs]
  · exact (State.hostWrite_regs _ _ _ _).trans (s.fetch_regs d n true)
  · rw [State.announce_ports, State.noteMay_ports]
    exact (State.hostWrite_ports _ _ _ _).trans (s.fetch_ports d n true)

theorem objRead_waits (h : CmdReady s d n x) (htab : TablesOk s) (hres : reservedZero x [(4, 0, 16), fAddr] = true) (hnum : dnum x 4 2 < 8192)
    (hvalid : objValid (s.obj d (dnum x 4 2)) = true)
    (hwin : s.inWindow d (daddr x).toNat (16 + classBytes (objClass (s.obj d (dnum x 4 2)).cfg)) false true = true)
    (hcopying : (s.obj d (dnum x 4 2)).copying = true) :
    Does (.objRead d n x) s fun t => t.obj d (dnum x 4 2) =
        { s.obj d (dnum x 4 2) with readers := (s.obj d (dnum x 4 2)).readers ++ [(s.opOf d n x, daddr x)] } ∧ t.tarn = s.tarn := by
  refine .of_finish (objRead_exec h) ?_
  rw [State.objReadOp_eq hres hnum (by rwa [State.fetch_obj]) (by rwa [State.fetch_obj, State.inWindow_fetch]), State.fetch_obj, if_pos hcopying]
  refine ⟨?_, ?_⟩
  · rw [State.announce_obj, State.noteMay_obj]
    exact State.obj_setObj_same _ _ _ _ ((s.fetch_keeps' d n true).2.1 htab).objs
  · rw [State.announce_tarn, State.noteMay_tarn]
    exact s.fetch_tarn d n

end copy

/-! ### The end of the copy (R148, R149) -/

section endCopy
variable {s : State} {d : Dom} {o : Nat}

theorem State.ruleDrop_eq (s : State) (i : Fin 512) : ∃ sp, s.ruleDrop i = { s with spur := sp } := by
  unfold State.ruleDrop
  split
  · exact ⟨_, rfl⟩
  · exact ⟨s.spur, rfl⟩

theorem State.gwEnqueue_eq (s : State) (i : Fin 512) (x : GwIn) : ∃ sp, s.gwEnqueue i x = { s with spur := sp } := by
  unfold State.gwEnqueue
  dsimp only
  split
  · exact s.ruleDrop_eq i
  · exact ⟨_, rfl⟩

/-- What the gateway takes of an object's frame is its own (R415). -/
theorem State.gwObject_eq (s : State) (d : Dom) (o : Nat) (x : GwIn) : ∃ sp, s.gwObject d o x = { s with spur := sp } := by
  unfold State.gwObject
  generalize s.spur.rules.filter _ = l
  induction l generalizing s with
  | nil => exact ⟨s.spur, rfl⟩
  | cons e l ih =>
    obtain ⟨sp, hsp⟩ := s.gwEnqueue_eq (fin 512 e.1) x
    rw [List.foldl_cons, hsp]
    exact ih { s with spur := sp }

/-- A frame written into the main slot changes Tarn, the gateway's inputs and its object (R145, R147, R415). -/
theorem State.writeMain_eq (s : State) (d : Dom) (o : Nat) (f : CanFrame) (isSealed lost : Bool) (stamp : DWord) (p : PortId) : ∃ m sp,
    s.writeMain d o f isSealed lost stamp p = State.setObj { s with tarn := m, spur := sp } d o
      { s.obj d o with isNew := true, lost := lost, seqNo := seqNext (s.obj d o).seqNo, held := some (stamp, p) } := by
  unfold State.writeMain
  extract_lets x q u v
  obtain ⟨m, hm⟩ := u.tarnWrite_eq d (objMain x) (objHeader f isSealed true lost f.data.length q ++ f.data)
  obtain ⟨sp, hsp⟩ := v.gwObject_eq d o { bytes := rxHeader f isSealed 0 ++ f.data, isSealed := isSealed, stamp := stamp.setWidth 36 }
  rw [hsp, show v = _ from hm]
  exact ⟨m, sp, rfl⟩

/-- A promotion changes Tarn, the gateway's inputs and its object, whose shadow is free after it and whose readers stay (R149). -/
theorem State.promoteShadow_eq (s : State) (d : Dom) (o : Nat) (hwf : Tbl.wf {} s.objs = true) : ∃ m sp l,
    s.promoteShadow d o = { s with tarn := m, spur := sp, objs := l } ∧ Tbl.wf {} l = true ∧
    ((s.promoteShadow d o).obj d o).shadow = none ∧ ((s.promoteShadow d o).obj d o).readers = (s.obj d o).readers := by
  cases hshadow : (s.obj d o).shadow with
  | none =>
    have hp : s.promoteShadow d o = s := by
      unfold State.promoteShadow
      dsimp only
      rw [hshadow]
    rw [hp]
    exact ⟨s.tarn, s.spur, s.objs, rfl, hwf, hshadow, rfl⟩
  | some a =>
    let u : State := s.setObj d o { s.obj d o with shadow := none }
    have hp : ∃ f isSealed, s.promoteShadow d o = u.writeMain d o f isSealed (s.obj d o).lost a.1 a.2 := by
      unfold State.promoteShadow
      dsimp only
      rw [hshadow]
      exact ⟨_, _, rfl⟩
    obtain ⟨f, isSealed, hp⟩ := hp
    obtain ⟨m, sp, hm⟩ := u.writeMain_eq d o f isSealed (s.obj d o).lost a.1 a.2
    have hu : Tbl.wf {} u.objs = true := Tbl.wf_put _ _ _ hwf
    have hobj : u.obj d o = { s.obj d o with shadow := none } := State.obj_setObj_same s d o _ hwf
    rw [hp, hm, State.obj_setObj_same { u with tarn := m, spur := sp } d o _ hu, hobj]
    exact ⟨m, sp, _, rfl, Tbl.wf_put _ _ _ hu, rfl, rfl⟩

/-- A completion whose queue is enabled, has room and holds nothing back is written at the queue's index (R79, R83). -/
theorem State.completeE_sends {e : CqEntry} (isOp : Bool) (hon : s.ringOn d (s.cqOf d e.num) 3 = true)
    (hwait : (s.ring (s.dring d (s.cqOf d e.num))).wait = []) (hroom : 0 < s.room d (s.cqOf d e.num)) (hmute : s.mute d = false)
    (hpath : s.dev.recovery = false) : Sends s (s.completeE d e isOp) (s.entryOut d (s.cqOf d e.num) e) := by
  unfold State.completeE
  extract_lets u cq i r w
  have hu : ∃ c h, u = { s with counts := c, halves := h } := by
    unfold u
    split
    · exact s.countDev_eq 0
    · exact ⟨_, _, rfl⟩
  have hquiet : (u.mute d || u.dev.recovery) = false := by
    obtain ⟨c, h, he⟩ := hu
    rw [he]
    exact (congrArg₂ or hmute hpath).trans rfl
  have hfree : (u.ringOn d cq 3 && (u.ring i).wait.isEmpty && decide (0 < u.room d cq)) = true := by
    have hgo : (s.ringOn d (s.cqOf d e.num) 3 && (s.ring (s.dring d (s.cqOf d e.num))).wait.isEmpty && decide (0 < s.room d (s.cqOf d e.num))) = true := by
      simp [hon, hwait, hroom]
    obtain ⟨c, h, he⟩ := hu
    unfold i cq
    rw [he]
    exact hgo
  rw [hquiet, hfree, if_neg Bool.false_ne_true, if_pos rfl]
  have hsends := u.writeEntry_sends d cq e isOp
  obtain ⟨c, h, he⟩ := hu
  unfold cq at hsends ⊢
  rw [he] at hsends ⊢
  exact hsends

@[simp] theorem State.completeE_objs (s : State) (d : Dom) (e : CqEntry) (isOp : Bool) : (s.completeE d e isOp).objs = s.objs := by
  obtain ⟨o, r, c, h, he⟩ := s.completeE_eq d e isOp; rw [he]
@[simp] theorem State.completeE_regs (s : State) (d : Dom) (e : CqEntry) (isOp : Bool) : (s.completeE d e isOp).regs = s.regs := by
  obtain ⟨o, r, c, h, he⟩ := s.completeE_eq d e isOp; rw [he]
@[simp] theorem State.completeE_ports (s : State) (d : Dom) (e : CqEntry) (isOp : Bool) : (s.completeE d e isOp).ports = s.ports := by
  obtain ⟨o, r, c, h, he⟩ := s.completeE_eq d e isOp; rw [he]

/-- The object after its copy, before the completion is written. -/
def State.copyEnded (s : State) (d : Dom) (o : Nat) : State :=
  (s.promoteShadow d o).setObj d o { (s.promoteShadow d o).obj d o with copying := false, reading := none }

/-- The end of a copy for which no other read waits (R148, R150). -/
theorem State.endCopy_last {op : Op} {e : CqEntry} (hreading : (s.obj d o).reading = some (op, e))
    (hlast : ((s.copyEnded d o).obj d o).readers = []) : s.endCopy d o = (s.copyEnded d o).completeE d e true := by
  unfold State.endCopy
  rw [hreading]
  dsimp only
  have hnone : (((s.copyEnded d o).completeE d e true).obj d o).readers = [] := by rw [State.obj, State.completeE_objs]; exact hlast
  unfold State.copyEnded at hnone ⊢
  rw [hnone]

theorem objReadCopyDone_last {o : BitVec 13} {op : Op} {e : CqEntry} (htab : TablesOk s) (hcopying : (s.obj d o.toNat).copying = true)
    (hreading : (s.obj d o.toNat).reading = some (op, e)) (hlast : (s.obj d o.toNat).readers = []) (hon : s.ringOn d (s.cqOf d e.num) 3 = true)
    (hwait : (s.ring (s.dring d (s.cqOf d e.num))).wait = []) (hroom : 0 < s.room d (s.cqOf d e.num)) (hmute : s.mute d = false)
    (hpath : s.dev.recovery = false) :
    Does (.objReadCopyDone d o) s fun t => (t.obj d o.toNat).copying = false ∧ (t.obj d o.toNat).reading = none ∧ (t.obj d o.toNat).shadow = none ∧
      Sends s t (s.entryOut d (s.cqOf d e.num) e) ∧ SameRegs s t ∧ t.ports = s.ports := by
  obtain ⟨m, sp, l, hpromote, hwf, hshadow, hreaders⟩ := s.promoteShadow_eq d o.toNat htab.objs
  have hobj : (s.copyEnded d o.toNat).obj d o.toNat = { (s.promoteShadow d o.toNat).obj d o.toNat with copying := false, reading := none } :=
    State.obj_setObj_same _ d o.toNat _ (by rw [hpromote]; exact hwf)
  have hend : s.endCopy d o.toNat = (s.copyEnded d o.toNat).completeE d e true :=
    State.endCopy_last hreading (by rw [hobj]; exact hreaders.trans hlast)
  have hv : ∃ l', s.copyEnded d o.toNat = { s with tarn := m, spur := sp, objs := l' } := by
    rw [State.copyEnded, hpromote]
    exact ⟨_, rfl⟩
  have he : exec (.objReadCopyDone d o) s = finish (s.endCopy d o.toNat) := by
    change execObjReadCopyDone d o s = _
    rw [execObjReadCopyDone, if_pos hcopying]
  refine .of_finish he ?_
  rw [hend]
  have hfinal : ((s.copyEnded d o.toNat).completeE d e true).noteMay.announce.obj d o.toNat =
      { (s.promoteShadow d o.toNat).obj d o.toNat with copying := false, reading := none } := by
    rw [State.announce_obj, State.noteMay_obj, ← hobj, State.obj, State.completeE_objs, State.obj]
  rw [hfinal]
  obtain ⟨l', hv⟩ := hv
  rw [hv]
  refine ⟨rfl, rfl, hshadow, ?_, SameRegs.of_regs (State.completeE_regs _ _ _ _), ?_⟩
  · have hsends := State.completeE_sends (s := { s with tarn := m, spur := sp, objs := l' }) (e := e) true hon hwait hroom hmute hpath
    exact Sends.later (s := s) hsends (State.announce_keeps (State.noteMay_keeps (Keeps.refl _)))
  · rw [State.announce_ports, State.noteMay_ports, State.completeE_ports]

end endCopy

/-- Settles O20: a read either waits behind the one that copies or starts its own copy, and the last copy's end promotes the shadow and then writes the
entry that the read left with the object. -/
theorem objectReads : Obligations.ObjectReads := by
  unfold Obligations.ObjectReads
  exact ⟨fun _ _ _ _ h htab hres hnum hvalid hwin hidle => objRead_copies h htab hres hnum hvalid hwin hidle,
    fun _ _ _ _ h htab hres hnum hvalid hwin hcopying => objRead_waits h htab hres hnum hvalid hwin hcopying,
    fun _ _ _ _ _ htab hcopying hreading hlast hon hwait hroom hmute hpath =>
      objReadCopyDone_last htab hcopying hreading hlast hon hwait hroom hmute hpath⟩

end Sys2Proof.Machine

namespace Sys2Proof.Machine

/-! ### OBJ_WRITE: the image of a send object (R147, R152, R508) -/

section write
variable {s : State} {d : Dom} {n : RingNo} {o : Nat} {x : Desc} {payload : List Byte}

/-- The header of a send object's image has 16 bytes (R508). -/
theorem sendHeader_length (idw cfg2 cfg3 af : Word) (len : Nat) (q : Half) : (sendHeader idw cfg2 cfg3 af len q).length = 16 := by
  simp [sendHeader, leBytes_length]

/-- A send object with a payload just written. -/
def Obj.written (x : Obj) (payload : List Byte) : Obj := { x with len := payload.length, wrote := true, seqNo := seqNext x.seqNo }

/-- t is s with a payload written to send object o of d: the object's record, its header and its payload. -/
structure WritesSend (s t : State) (d : Dom) (o : Nat) (payload : List Byte) : Prop where
  frame : ∃ m l, t = { s with tarn := m, objs := l }
  obj : t.obj d o = (s.obj d o).written payload
  others : o < 8192 → ∀ e i, (e, i) ≠ (d, o) → i < 8192 → t.obj e i = s.obj e i
  outside : ∀ a, (∀ i, i < 16 + payload.length → s.tarnAddr d (objMain (s.obj d o) + i) ≠ some a) → Tbl.get 0 t.tarn a = Tbl.get 0 s.tarn a
  inside : (s.units[d]).Nodup → ∀ i a, i < payload.length → s.tarnAddr d (objMain (s.obj d o) + 16 + i) = some a → Tbl.get 0 t.tarn a = payload.getD i 0

theorem State.writeSend_writes (htab : TablesOk s) (d : Dom) (o : Nat) (payload : List Byte) : WritesSend s (s.writeSend d o payload) d o payload := by
  let main := objMain (s.obj d o)
  let u : State := s.tarnWrite d (main + 16) payload
  let y : Obj := { s.obj d o with len := payload.length, wrote := true }
  let v : State := u.setObj d o y
  let w : State := v.setObj d o { y with seqNo := seqNext y.seqNo }
  let header := sendHeader y.cfg.idw y.cfg.cfg2 y.cfg.cfg3 y.cfg.af y.len (seqNext y.seqNo)
  have hheader : header.length = 16 := sendHeader_length _ _ _ _ _ _
  have hobjs : u.objs = s.objs := s.tarnWrite_objs d _ payload
  have hu : Tbl.wf {} u.objs = true := hobjs ▸ htab.objs
  have hv : v.obj d o = y := State.obj_setObj_same u d o y hu
  have hw : s.writeSend d o payload = w.tarnWrite d main header := by
    change v.writeSendHeader d o = _
    unfold State.writeSendHeader
    dsimp only
    rw [hv]
    rfl
  have haddr : ∀ i, w.tarnAddr d i = s.tarnAddr d i := State.tarnAddr_of_units (s.tarnWrite_units d _ payload) d
  rw [hw]
  refine ⟨?_, ?_, fun ho e i hne hi => ?_, fun a ha => ?_, fun hn i a hi ha => ?_⟩
  · obtain ⟨m, hm⟩ := s.tarnWrite_eq d (main + 16) payload
    obtain ⟨m', hm'⟩ := w.tarnWrite_eq d main header
    rw [hm']
    refine ⟨m', w.objs, ?_⟩
    unfold w v u
    rw [hm]
    rfl
  · rw [State.tarnWrite_obj]
    exact State.obj_setObj_same v d o _ (Tbl.wf_put _ _ _ hu)
  · rw [State.tarnWrite_obj, State.obj_setObj_other _ _ hne hi ho, State.obj_setObj_other _ _ hne hi ho, State.tarnWrite_obj]
  · rw [State.tarnWrite_outside fun i hi => by rw [haddr]; exact ha i (by omega)]
    exact State.tarnWrite_outside fun i hi => by rw [Nat.add_assoc]; exact ha (16 + i) (by omega)
  · rw [State.tarnWrite_outside fun j hj hja => ?_]
    · exact State.tarnWrite_inside hn htab.tarn hi ha
    · rw [haddr] at hja
      have := State.tarnAddr_inj hn hja ha
      omega

/-- OBJ_WRITE of a send object that no check stops (R152, R154, R155). -/
theorem State.objWriteOp_eq {op : Op} (hres : reservedZero x [(4, 0, 32), (8, 0, 1), fAddr] = true) (hnum : dnum x 4 2 < 8192)
    (hvalid : objValid (s.obj d (dnum x 4 2)) = true) (hsend : objIsSend (s.obj d (dnum x 4 2)) = true)
    (hlen : s.objLenOk d (s.obj d (dnum x 4 2)).cfg (dnum x 6 2) = true)
    (hwin : dnum x 6 2 = 0 ∨ s.inWindow d (daddr x).toNat (dnum x 6 2) true false = true)
    (hfree : dbit x 8 0 = true → s.sendBad d (s.obj d (dnum x 4 2)) (dnum x 6 2) = false ∧ (s.obj d (dnum x 4 2)).pending = false) :
    s.objWriteOp d x payload op = if dbit x 8 0 then (s.writeSend d (dnum x 4 2) payload).requestSend d (dnum x 4 2) op false false
      else (s.writeSend d (dnum x 4 2) payload).complete op 0x00 := by
  have hgood : (dbit x 8 0 && s.sendBad d (s.obj d (dnum x 4 2)) (dnum x 6 2)) = false := by
    cases hb : dbit x 8 0 with
    | false => rfl
    | true => exact (hfree hb).1
  have hidle : (dbit x 8 0 && (s.obj d (dnum x 4 2)).pending) = false := by
    cases hb : dbit x 8 0 with
    | false => rfl
    | true => exact (hfree hb).2
  unfold State.objWriteOp
  dsimp only
  rw [if_neg (by simp [hres, hnum]), if_neg (by simp [hvalid, hsend, hlen]), hgood, hidle, if_neg Bool.false_ne_true,
    if_neg (by rcases hwin with hwin | hwin <;> simp [hwin]), if_neg Bool.false_ne_true]

theorem State.objLenOk_fetch (s : State) (d e : Dom) (n : RingNo) (c : ObjCfg) (len : Nat) : (s.fetch d n).objLenOk e c len = s.objLenOk e c len :=
  s.fetch_reads d n true (fun u => u.objLenOk e c len) fun _ _ => rfl

theorem State.sendBad_fetch (s : State) (d e : Dom) (n : RingNo) (x : Obj) (len : Nat) : (s.fetch d n).sendBad e x len = s.sendBad e x len :=
  s.fetch_reads d n true (fun u => u.sendBad e x len) fun _ _ => rfl

theorem objWrite_exec (h : CmdReady s d n x) (hlen : payload.length = dnum x 6 2) :
    exec (.objWrite d n x payload) s = finish (s.command d n x fun s op => s.objWriteOp d x payload op) := by
  change execObjWrite d n x payload s = _
  rw [execObjWrite, if_neg (by simp [h.on]), if_neg (by simp [hlen])]

/-- What a payload written after the fetch leaves, seen from before the fetch. -/
theorem State.writeSend_fetched (htab : TablesOk s) (d : Dom) (n : RingNo) (o : Nat) (payload : List Byte) :
    WritesSend (s.fetch d n) ((s.fetch d n).writeSend d o payload) d o payload :=
  State.writeSend_writes ((s.fetch_keeps' d n true).2.1 htab) d o payload

theorem objWrite_writes (h : CmdReady s d n x) (htab : TablesOk s) (hres : reservedZero x [(4, 0, 32), (8, 0, 1), fAddr] = true)
    (hnum : dnum x 4 2 < 8192) (hpay : payload.length = dnum x 6 2) (hvalid : objValid (s.obj d (dnum x 4 2)) = true)
    (hsend : objIsSend (s.obj d (dnum x 4 2)) = true) (hlen : s.objLenOk d (s.obj d (dnum x 4 2)).cfg (dnum x 6 2) = true)
    (hwin : dnum x 6 2 = 0 ∨ s.inWindow d (daddr x).toNat (dnum x 6 2) true false = true) (hplain : dbit x 8 0 = false) :
    Does (.objWrite d n x payload) s fun t => Answered s t d n x 0x00 0 ∧ (t.obj d (dnum x 4 2)).len = dnum x 6 2 ∧
      (t.obj d (dnum x 4 2)).seqNo = seqNext (s.obj d (dnum x 4 2)).seqNo ∧ (t.obj d (dnum x 4 2)).cfg = (s.obj d (dnum x 4 2)).cfg ∧
      (∀ a, (∀ i, i < 16 + dnum x 6 2 → s.tarnAddr d (objMain (s.obj d (dnum x 4 2)) + i) ≠ some a) → Tbl.get 0 t.tarn a = Tbl.get 0 s.tarn a) ∧
      ((s.units[d]).Nodup → ∀ i a, i < dnum x 6 2 → s.tarnAddr d (objMain (s.obj d (dnum x 4 2)) + 16 + i) = some a → Tbl.get 0 t.tarn a = payload.getD i 0) ∧
      (∀ e o, (e, o) ≠ (d, dnum x 4 2) → o < 8192 → t.obj e o = s.obj e o) ∧ SameRegs s t ∧ t.ports = s.ports := by
  have hf := State.objWriteOp_eq (s := s.fetch d n) (d := d) (payload := payload) (op := s.opOf d n x) hres hnum (by rwa [State.fetch_obj])
    (by rwa [State.fetch_obj]) (by rwa [State.fetch_obj, State.objLenOk_fetch]) (by rwa [State.inWindow_fetch])
    (fun hb => absurd (hplain.symm.trans hb) Bool.false_ne_true)
  rw [hplain, if_neg Bool.false_ne_true] at hf
  obtain ⟨⟨m, l, hframe⟩, hobj, hothers, houtside, hinside⟩ := State.writeSend_fetched htab d n (dnum x 4 2) payload
  have hunits : (s.fetch d n).units = s.units := s.fetch_reads d n true State.units fun _ _ => rfl
  have haddr := State.tarnAddr_of_units hunits d
  simp only [State.fetch_obj, haddr, hunits, hpay, s.fetch_tarn d n] at hobj hothers houtside hinside
  have hcq : SameCq s ((s.fetch d n).writeSend d (dnum x 4 2) payload) d n := by
    rw [hframe]
    exact (SameCq.fetch h).of_eq rfl rfl rfl rfl rfl
  refine h.does (objWrite_exec h hpay) hf (State.writeSend_keeps (s.fetch_keeps' d n true)) hcq fun t ht => ?_
  have hobjs : ∀ e i, t.obj e i = ((s.fetch d n).writeSend d (dnum x 4 2) payload).obj e i := fun e i => by rw [State.obj, ht.objs, State.obj]
  simp only [hobjs, ht.tarn, hobj]
  refine ⟨ht.answered, hpay, rfl, rfl, houtside, hinside, hothers hnum, ht.sameRegs ?_, ?_⟩
  · rw [hframe]
    exact s.fetch_regs d n true
  · rw [ht.ports, hframe]
    exact s.fetch_ports d n true

end write

/-! ### A transmission of a send object is requested (R153, R185) -/

section request
variable {s : State} {d : Dom} {n : RingNo} {o : Nat} {x : Desc} {payload : List Byte} {p : PortId}

/-- Where no schedule runs, a candidate joins those of its port, whether it holds a slot or waits for one (R178, R183). -/
theorem State.enterSet_joins (h : s.Unscheduled p) (c : Cand) (wait : Bool) : ∃ i m, s.enterSet p c wait = s.setPort p { s.port p with
    cands := (s.port p).cands ++ [{ c with slot := i, order := m, since := s.raw }], nextOrder := m + 1 } := by
  cases wait with
  | false => exact State.enterSet_adds h c
  | true => exact ⟨32 + (s.port p).nextOrder, (s.port p).nextOrder, rfl⟩

/-- A request that is not flushed sets PENDING and adds one candidate (R153, R215). -/
theorem State.requestSend_joins {op : Op} {tsq quiet : Bool} (hport : objPort (s.obj d o).cfg = p) (hhalted : halted (s.port p).state = false)
    (hflush : s.flushing p = false) (hgroup : s.Unscheduled p) : ∃ c m,
    s.requestSend d o op tsq quiet = (s.setObj d o { s.obj d o with pending := true }).setPort p { s.port p with
      cands := (s.port p).cands ++ [c], nextOrder := m } ∧
    c.src = .obj (BitVec.ofNat 13 o) ∧ c.op = op ∧ c.len = (s.obj d o).len ∧ c.tsq = tsq := by
  unfold State.requestSend
  extract_lets x q pt u c
  have hq : q = p := hport
  unfold pt
  rw [hq, hhalted, hflush, if_neg Bool.false_ne_true, if_neg Bool.false_ne_true]
  have hu : u.Unscheduled p := hgroup
  obtain ⟨i, m, he⟩ := State.enterSet_joins hu c (!u.sendMayTake p || (s.port p).cands.any fun c => !inSet c && isObj c)
  exact ⟨_, _, he, rfl, rfl, rfl, rfl⟩

theorem State.port_fetch (s : State) (d : Dom) (n : RingNo) (q : PortId) : (s.fetch d n).port q = s.port q := by
  rw [State.port, State.fetch_ports, State.port]

theorem State.Unscheduled.fetch (h : s.Unscheduled p) (d : Dom) (n : RingNo) : (s.fetch d n).Unscheduled p :=
  s.fetch_reads d n true (fun u => u.Unscheduled p) (fun _ _ => rfl) ▸ h

theorem WritesSend.port {t : State} (h : WritesSend s t d o payload) (q : PortId) : t.port q = s.port q := by
  obtain ⟨m, l, hframe⟩ := h.frame
  rw [hframe]
  rfl

theorem WritesSend.unscheduled {t : State} (h : WritesSend s t d o payload) (hgroup : s.Unscheduled p) : t.Unscheduled p := by
  obtain ⟨m, l, hframe⟩ := h.frame
  rw [hframe]
  exact hgroup

theorem objWrite_sends (h : CmdReady s d n x) (htab : TablesOk s) (hres : reservedZero x [(4, 0, 32), (8, 0, 1), fAddr] = true)
    (hnum : dnum x 4 2 < 8192) (hpay : payload.length = dnum x 6 2) (hvalid : objValid (s.obj d (dnum x 4 2)) = true)
    (hsend : objIsSend (s.obj d (dnum x 4 2)) = true) (hlen : s.objLenOk d (s.obj d (dnum x 4 2)).cfg (dnum x 6 2) = true)
    (hwin : dnum x 6 2 = 0 ∨ s.inWindow d (daddr x).toNat (dnum x 6 2) true false = true) (hasked : dbit x 8 0 = true)
    (hgood : s.sendBad d (s.obj d (dnum x 4 2)) (dnum x 6 2) = false) (hidle : (s.obj d (dnum x 4 2)).pending = false)
    (hhalted : halted (s.port (objPort (s.obj d (dnum x 4 2)).cfg)).state = false) (hflush : s.flushing (objPort (s.obj d (dnum x 4 2)).cfg) = false)
    (hgroup : s.Unscheduled (objPort (s.obj d (dnum x 4 2)).cfg)) :
    Does (.objWrite d n x payload) s fun t => (t.obj d (dnum x 4 2)).pending = true ∧ (t.obj d (dnum x 4 2)).len = dnum x 6 2 ∧
      ∃ c, (t.port (objPort (s.obj d (dnum x 4 2)).cfg)).cands = (s.port (objPort (s.obj d (dnum x 4 2)).cfg)).cands ++ [c] ∧
        c.src = .obj (BitVec.ofNat 13 (dnum x 4 2)) ∧ c.op = s.opOf d n x ∧ c.len = dnum x 6 2 := by
  have hf := State.objWriteOp_eq (s := s.fetch d n) (d := d) (payload := payload) (op := s.opOf d n x) hres hnum (by rwa [State.fetch_obj])
    (by rwa [State.fetch_obj]) (by rwa [State.fetch_obj, State.objLenOk_fetch]) (by rwa [State.inWindow_fetch])
    (fun _ => by rw [State.fetch_obj, State.sendBad_fetch]; exact ⟨hgood, hidle⟩)
  rw [hasked, if_pos rfl] at hf
  have hwrites := State.writeSend_fetched htab d n (dnum x 4 2) payload
  have hport := fun q => (hwrites.port q).trans (s.port_fetch d n q)
  have hobj := hwrites.obj
  have hquiet := hwrites.unscheduled (hgroup.fetch d n)
  have hwf : TablesOk ((s.fetch d n).writeSend d (dnum x 4 2) payload) := (State.writeSend_keeps (s.fetch_keeps' d n true)).2.1 htab
  have he := (objWrite_exec h hpay).trans (congrArg finish (h.command_eq _ _))
  rw [State.fetch_obj] at hobj
  rw [hf] at he
  generalize (s.fetch d n).writeSend d (dnum x 4 2) payload = u at *
  have hcfg : objPort (u.obj d (dnum x 4 2)).cfg = objPort (s.obj d (dnum x 4 2)).cfg := by rw [hobj]; rfl
  have hulen : (u.obj d (dnum x 4 2)).len = dnum x 6 2 := by rw [hobj]; exact hpay
  have hstill : u.flushing (objPort (s.obj d (dnum x 4 2)).cfg) = false := by rw [State.flushing, hport]; exact hflush
  obtain ⟨c, k, hrequest, hsrc, hop, hclen, -⟩ := State.requestSend_joins (op := s.opOf d n x) (tsq := false) (quiet := false) hcfg
    (by rwa [hport]) hstill hquiet
  have hself := State.obj_setObj_same u d (dnum x 4 2) { u.obj d (dnum x 4 2) with pending := true } hwf.objs
  refine .of_finish (he.trans (congrArg finish hrequest)) ?_
  rw [State.announce_obj, State.noteMay_obj, State.announce_port, State.noteMay_port, State.port_setPort_same, ← hport]
  exact ⟨congrArg Obj.pending hself, (congrArg Obj.len hself).trans hulen, c, rfl, hsrc, hop, hclen.trans hulen⟩

theorem objSend_sends (h : CmdReady s d n x) (htab : TablesOk s) (hres : reservedZero x [(4, 0, 16)] = true) (hnum : dnum x 4 2 < 8192)
    (hvalid : objValid (s.obj d (dnum x 4 2)) = true) (hsend : objIsSend (s.obj d (dnum x 4 2)) = true)
    (hgood : s.sendBad d (s.obj d (dnum x 4 2)) (s.obj d (dnum x 4 2)).len = false) (hidle : (s.obj d (dnum x 4 2)).pending = false)
    (hhalted : halted (s.port (objPort (s.obj d (dnum x 4 2)).cfg)).state = false) (hflush : s.flushing (objPort (s.obj d (dnum x 4 2)).cfg) = false)
    (hgroup : s.Unscheduled (objPort (s.obj d (dnum x 4 2)).cfg)) :
    Does (.objSend d n x) s fun t => t.obj d (dnum x 4 2) = { s.obj d (dnum x 4 2) with pending := true } ∧ t.tarn = s.tarn ∧ SameRegs s t ∧
      OtherPorts s t (objPort (s.obj d (dnum x 4 2)).cfg) ∧
      ∃ c, (t.port (objPort (s.obj d (dnum x 4 2)).cfg)).cands = (s.port (objPort (s.obj d (dnum x 4 2)).cfg)).cands ++ [c] ∧
        c.src = .obj (BitVec.ofNat 13 (dnum x 4 2)) ∧ c.op = s.opOf d n x ∧ c.tsq = dtsq x := by
  obtain ⟨c, k, hrequest, hsrc, hop, -, htsq⟩ := State.requestSend_joins (s := s.fetch d n) (d := d) (o := dnum x 4 2) (op := s.opOf d n x)
    (tsq := dtsq x) (quiet := false) (by rw [State.fetch_obj]) (by rwa [State.port_fetch]) (by rwa [State.flushing_fetch]) (hgroup.fetch d n)
  rw [State.fetch_obj, State.port_fetch] at hrequest
  have hasks : (s.fetch d n).objSendOp d x (s.opOf d n x) = (s.fetch d n).requestSend d (dnum x 4 2) (s.opOf d n x) (dtsq x) false := by
    unfold State.objSendOp
    dsimp only
    rw [State.fetch_obj, State.sendBad_fetch, if_neg (by simp [hres, hnum]), if_neg (by simp [hvalid, hsend]), hgood, hidle,
      if_neg Bool.false_ne_true, if_neg Bool.false_ne_true]
  have he : exec (.objSend d n x) s = finish ((s.fetch d n).objSendOp d x (s.opOf d n x)) := by
    change execObjSend d n x s = _
    rw [execObjSend, if_pos h.on, h.command_eq]
  refine .of_finish (he.trans (congrArg finish (hasks.trans hrequest))) ⟨?_, ?_, SameRegs.of_regs (s.fetch_regs d n true), fun q hq => ?_, c, ?_, hsrc, hop, htsq⟩
  · rw [State.announce_obj, State.noteMay_obj]
    exact State.obj_setObj_same _ _ _ _ ((s.fetch_keeps' d n true).2.1 htab).objs
  · rw [State.announce_tarn, State.noteMay_tarn]
    exact s.fetch_tarn d n
  · rw [State.announce_port, State.noteMay_port, State.port_setPort_other _ _ _ _ hq]
    exact s.port_fetch d n q
  · rw [State.announce_port, State.noteMay_port, State.port_setPort_same]

end request

/-- Settles O21: the write is followed byte by byte through payload and header, whose addresses differ where the units do, and a request adds one candidate
to those of its port, since no schedule runs there. -/
theorem objectWritesAndSends : Obligations.ObjectWritesAndSends := by
  unfold Obligations.ObjectWritesAndSends
  exact ⟨fun _ _ _ _ _ h htab hres hnum hpay hvalid hsend hlen hwin hplain => objWrite_writes h htab hres hnum hpay hvalid hsend hlen hwin hplain,
    fun _ _ _ _ _ h htab hres hnum hpay hvalid hsend hlen hwin hasked hgood hidle hhalted hflush hgroup =>
      objWrite_sends h htab hres hnum hpay hvalid hsend hlen hwin hasked hgood hidle hhalted hflush hgroup,
    fun _ _ _ _ h htab hres hnum hvalid hsend hgood hidle hhalted hflush hgroup =>
      objSend_sends h htab hres hnum hvalid hsend hgood hidle hhalted hflush hgroup⟩

end Sys2Proof.Machine

namespace Sys2Proof.Machine

/-! ### A refused COMMIT while the device owes a masked message -/

namespace OwedMessage

/-- D0 has just started a command in its object window, so that BUSY lasts, and at the end of that command the storm guard masked source 68: STORM
(source 124) is asserted since then. It is enabled, with priority 1 at target 0, and no message has been sent for it yet. MSI-X is enabled, and
every entry of its table is masked. -/
def before : State :=
  let s : State := { State.reset with
    dev := { ready := true }
    funcs := State.reset.funcs.set 0 { objAt := some 0, msixEnable := true } }
  (((s.setReg (.evcWord 0 1 2) 0x10).setReg (.evcWord 0 4 2) 0x10).setReg (.evcWord 0 0 3) 0x10000000).setReg (.evcSrc 0 124) 1

/-- The entries of D0's MSI-X table that are pending after a command. -/
def pendingVectors (r : Result) : Option (List Nat) :=
  match r with
  | .next t => some (t.func 0).vecPending
  | _ => none

theorem before_busy : before.serves = true ∧ before.active 0 = true ∧ before.objBusy 0 = true ∧ before.dev.absent.getLsbD 0 = false ∧
    before.log.intake.length < 256 := by decide +kernel

theorem before_pending : (before.func 0).vecPending = [] := by decide +kernel

/-- The message for the source is owed at the end of the command, and its entry of the table, which is masked, becomes pending. -/
theorem pendingVectors_commit : pendingVectors (exec (.objCommit 0) before) = some [0] := by decide +kernel

end OwedMessage

open OwedMessage in
/-- Refutes O22: its seventh clause keeps everything that the function holds, MSI-X entries that are pending among it. A refused COMMIT changes nothing in
the object window, but like every command it ends with the messages for the sources that have become due (R424), and a message whose table entry is
masked is kept pending (R56). -/
theorem not_windowsOnObjectsAndElements : ¬ Obligations.WindowsOnObjectsAndElements := by
  unfold Obligations.WindowsOnObjectsAndElements
  rintro ⟨-, -, -, -, -, -, hrefused, -⟩
  obtain ⟨hserves, hactive, hbusy, hpresent, hroom⟩ := before_busy
  obtain ⟨t, hexec, -, -, -, hfunc, -⟩ := hrefused before 0 hserves hactive hbusy hpresent hroom
  have hvectors := pendingVectors_commit
  rw [hexec] at hvectors
  have hone : (before.func 0).vecPending = [0] := (congrArg Func.vecPending hfunc).symm.trans (Option.some.inj hvectors)
  exact absurd (before_pending.symm.trans hone) (by decide)

/-! ### A wait for buffers that ends after the end of a send has arrived -/

namespace EndedSend

/-- A frame of 8 bytes that waits at an RX ring without a buffer. -/
def waiting : RxWait := { bytes := List.replicate 24 0, info0 := 0, status := 0, stamp := none, port := 3, block := 3, space := 0 }

/-- The raw counter runs. Ring 0 of D0, with BUF_WAIT 10 µs, has one frame that waits. At port 3 the send of object 5, which is pending, holds slot 0,
and the end of its hold time has arrived and is not settled yet (R201, R224). -/
def before : State :=
  let s : State := { State.reset with
    dev := { ready := true }
    tmu := { State.reset.tmu with started := true }
    rings := [(0, { active := true, frames := [waiting] })]
    objs := [(5, SrcCapRaise.sendObject)]
    ports := State.reset.ports.set 3 { state := .normal, joined := true, cands := [{ SrcCapRaise.candidate 5 0 with ready := true, ending := some 8 }],
                                       nextOrder := 1 } }
  s.setReg (ringReg 0 .rxcfg) 10

/-- PENDING of object 5 of D0 after a command. -/
def pendingAfter (r : Result) : Option Bool :=
  match r with
  | .next t => some (t.obj 0 5).pending
  | _ => none

theorem before_tables : TablesOk before :=
  ⟨by decide +kernel, rfl, by decide +kernel, by decide +kernel, rfl, rfl, rfl, rfl, rfl⟩

theorem before_frames : (before.ring (before.dring 0 0)).frames = [waiting] := by decide +kernel

theorem before_pending : (before.obj 0 5).pending = true := by decide +kernel

/-- The 10 µs pass a whole microsecond, at which the send completes and its PENDING ends. -/
theorem pendingAfter_expiry : pendingAfter (exec (.bufWaitExpiry 0 0) before) = some false := by decide +kernel

end EndedSend

open EndedSend in
/-- Refutes O36: its third clause compares with the state before the wait's end, while the raw counter goes on to that end. At the first whole
microsecond on the way every candidate whose ending has arrived completes (R224), which ends PENDING of its send object (R153). -/
theorem not_filterEvaluation : ¬ Obligations.FilterEvaluation := by
  unfold Obligations.FilterEvaluation
  rintro ⟨-, -, hexpiry⟩
  obtain ⟨t, hexec, -, -, -, hobjs⟩ := hexpiry before 0 0 waiting before_frames rfl before_tables
  have hended := pendingAfter_expiry
  rw [hexec] at hended
  have hsame : (t.obj 0 5).pending = true := by rw [State.obj, hobjs]; exact before_pending
  exact absurd (hsame.symm.trans (Option.some.inj hended)) (by decide)

end Sys2Proof.Machine

namespace Sys2Proof.Machine

/-! ### An operation whose completion is written at once (R79, R82) -/

/-- An operation that no reset has ended, of a domain that can write entries, and whose CQ is enabled, has room, and holds nothing back. -/
structure CanComplete (s : State) (o : Op) : Prop where
  epoch : o.epoch = (s.func o.dom).epoch
  mute : s.mute o.dom = false
  path : s.dev.recovery = false
  on : s.ringOn o.dom (s.cqOf o.dom o.num) 3 = true
  wait : (s.ring (s.dring o.dom (s.cqOf o.dom o.num))).wait = []
  room : 0 < s.room o.dom (s.cqOf o.dom o.num)

section completion
variable {s u : State} {o : Op}

theorem CanComplete.sends (h : CanComplete s o) (status : Byte) (i0 : Word) (i1 : Half) (stamp : Option (BitVec 36)) (port : Byte) :
    Sends s (s.complete o status i0 i1 stamp port) (s.entryOut o.dom (s.cqOf o.dom o.num)
      { tag := o.tag, status := status, num := o.num, info0 := i0, info1 := i1, stamp := stamp, port := port }) := by
  unfold State.complete
  rw [if_neg (not_not.2 h.epoch)]
  exact State.completeE_sends true h.on h.wait h.room h.mute h.path

theorem CanComplete.of_sameCq (h : CanComplete s o) (g : SameCq s u o.dom o.num) : CanComplete u o := by
  refine ⟨?_, ?_, ?_, ?_, ?_, ?_⟩
  · rw [g.func, h.epoch]
  · rw [g.mute, h.mute]
  · rw [g.dev, h.path]
  · rw [g.cqOf, g.cqOn, h.on]
  · rw [g.cqOf, g.dring, g.ring, h.wait]
  · rw [g.cqOf, g.room]
    exact h.room

end completion

/-! ### A candidate that leaves the set (R153, R181, R203) -/

section leaving
variable {s : State} {p : PortId} {c : Cand}

/-- The completion entry of a candidate of p (R76, R204). -/
def Cand.entry (c : Cand) (p : PortId) (status : Byte) (stamp : Option (BitVec 36)) : CqEntry :=
  { tag := c.op.tag, status := status, num := c.op.num, info0 := txInfo0 c, info1 := txInfo1 c, stamp := stamp, port := BitVec.ofNat 8 p.val }

/-- Outside a live group no schedule runs. -/
theorem State.unscheduled_of_liveGroup (h : s.liveGroup p = none) : s.Unscheduled p := by
  intro k hk
  rw [State.liveGroup, hk] at h
  exact .inl (by simpa [Option.filter] using h)

/-- Of the ports, the end of a candidate concerns its own: the candidates at its slot go. -/
theorem State.leaveSet_ports (s : State) (p : PortId) (c : Cand) (status : Byte) (stamp : Option (BitVec 36)) :
    ∃ l, (s.leaveSet p c status stamp).ports =
      (s.setPort p { s.port p with cands := (s.port p).cands.filter (fun k => decide (k.slot ≠ c.slot)), left := l }).ports := by
  unfold State.leaveSet
  extract_lets x gone s1 s2 s3
  have h2 : s2.ports = s1.ports := by
    unfold s2 State.clearPending
    split
    · rfl
    · rfl
  have h3 : s3.ports = s1.ports := by
    unfold s3
    split
    · exact h2
    · rw [State.complete_ports, h2]
  refine ⟨_, Eq.trans ?_ h3⟩
  split
  · split
    · have ho : Only [.counts, .free, .funcs, .halves, .out, .regs .fn] s3 (s3.tsqStamp c.op 0 (BitVec.ofNat 8 p.val) ‹_›) := by
        apply State.tsqStamp_only (Only.refl s3) <;> decide
      exact ho.2 .ports (by decide)
    · rfl
  · rfl

theorem State.leaveSet_liveGroup (s : State) (p : PortId) (c : Cand) (status : Byte) (stamp : Option (BitVec 36)) (q : PortId) :
    (s.leaveSet p c status stamp).liveGroup q = s.liveGroup q := by
  have ho : Only [.counts, .free, .funcs, .halves, .objs, .out, .ports, .regs .fn, .rings] s (s.leaveSet p c status stamp) := by
    apply State.leaveSet_only (Only.refl s) <;> decide
  exact ho.liveGroup (by decide) (by decide) (by decide) (by decide) (by decide) (by decide) q

theorem State.leaveSet_sends (hquiet : c.quiet = false) (h : CanComplete s c.op) (status : Byte) (stamp : Option (BitVec 36)) :
    Sends s (s.leaveSet p c status stamp) (s.entryOut c.op.dom (s.cqOf c.op.dom c.op.num) (c.entry p status stamp)) := by
  unfold State.leaveSet
  extract_lets x gone s1 s2 s3
  have h2 : ∃ ps os, s2 = { s with ports := ps, objs := os } := by
    unfold s2 State.clearPending
    split
    · exact ⟨_, _, rfl⟩
    · exact ⟨_, _, rfl⟩
  have h3 : Sends s s3 (s.entryOut c.op.dom (s.cqOf c.op.dom c.op.num) (c.entry p status stamp)) := by
    unfold s3
    rw [hquiet, if_neg Bool.false_ne_true]
    obtain ⟨ps, os, he⟩ := h2
    rw [he]
    exact (h.of_sameCq (u := { s with ports := ps, objs := os }) ⟨fun _ => rfl, rfl, rfl, rfl, rfl⟩).sends _ _ _ _ _
  split
  · split
    · exact h3.later (State.tsqStamp_keeps (Keeps.refl s3))
    · exact h3
  · exact h3

/-- t is s after the end of candidate c of p, where no schedule runs: those at its slot have left, the others may have been given slots, and its
completion, with the stamp, has left the device. -/
structure CandLeft (s t : State) (p : PortId) (c : Cand) (status : Byte) (stamp : Option (BitVec 36)) : Prop where
  same : (t.port p).noCands = (s.port p).noCands
  length : (t.port p).cands.length = ((s.port p).cands.filter (fun k => decide (k.slot ≠ c.slot))).length
  others : OtherPorts s t p
  sends : Sends s t (s.entryOut c.op.dom (s.cqOf c.op.dom c.op.num) (c.entry p status stamp))

theorem State.endCand_leaves (hgroup : s.liveGroup p = none) (hquiet : c.quiet = false) (h : CanComplete s c.op) (status : Byte)
    (stamp : Option (BitVec 36)) : CandLeft s (s.endCand p c status stamp) p c status stamp := by
  have hu : (s.leaveSet p c status stamp).Unscheduled p :=
    State.unscheduled_of_liveGroup ((s.leaveSet_liveGroup p c status stamp p).trans hgroup)
  obtain ⟨l, hports⟩ := s.leaveSet_ports p c status stamp
  obtain ⟨f, m, -, hfill⟩ := State.fillSlots_givesSlots hu 32
  have hleft : ∀ q, (s.leaveSet p c status stamp).port q = (s.setPort p { s.port p with
      cands := (s.port p).cands.filter (fun k => decide (k.slot ≠ c.slot)), left := l }).port q := fun q => by
    rw [State.port, hports]
    rfl
  refine ⟨(s.endCand_sameButCands p c status stamp).ports p, ?_, fun q hq => ?_,
    (State.leaveSet_sends hquiet h status stamp).later (State.fillSlots_keeps (Keeps.refl _))⟩
  · rw [State.endCand, hfill, State.port_setPort_same, List.length_map, hleft, State.port_setPort_same]
  · rw [State.endCand, hfill, State.port_setPort_other _ _ _ _ hq, hleft, State.port_setPort_other _ _ _ _ hq]

end leaving

/-! ### What the end of an attempt changes of its port (R112, R124, R207, R210) -/

/-- u is s with port p set to x; beyond that, only its event bits and the counters may differ. -/
structure AtPort (s u : State) (p : PortId) (x : Port) : Prop where
  port : u.port p = x
  others : OtherPorts s u p
  only : Only [.counts, .halves, .ports, .regs .port] s u

section atPort
variable {s u : State} {p : PortId} {x : Port}

theorem AtPort.refl (s : State) (p : PortId) : AtPort s s p (s.port p) := ⟨rfl, fun _ _ => rfl, Only.refl s⟩

theorem AtPort.trans {v : State} {y : Port} (h : AtPort s u p x) (g : AtPort u v p y) : AtPort s v p y :=
  ⟨g.port, fun q hq => (g.others q hq).trans (h.others q hq), h.only.trans g.only⟩

theorem AtPort.setPort (h : AtPort s u p x) (y : Port) : AtPort s (u.setPort p y) p y :=
  ⟨State.port_setPort_same _ _ _, fun q hq => (State.port_setPort_other _ _ _ _ hq).trans (h.others q hq), State.setPort_only h.only (by decide)⟩

theorem AtPort.countPort (h : AtPort s u p x) (off : Nat) : AtPort s (u.countPort p off) p x :=
  ⟨h.port, h.others, State.countPort_only h.only (by decide) (by decide)⟩

theorem AtPort.countFrame (h : AtPort s u p x) (f : CanFrame) (rx : Bool) : AtPort s (u.countFrame p f rx) p x :=
  ⟨h.port, h.others, State.countFrame_only h.only (by decide) (by decide)⟩

theorem AtPort.ackReset (h : AtPort s u p x) : AtPort s (u.ackReset p) p { x with ackRun := 0, lone := false } := by
  rw [State.ackReset, h.port]
  exact h.setPort _

theorem AtPort.showPort (h : AtPort s u p x) (y : Port) : AtPort s (u.showPort p y) p y := by
  have hset := h.setPort y
  unfold State.showPort
  dsimp only
  split
  · exact hset
  · exact ⟨hset.port, hset.others, State.portEvt_only hset.only (by decide)⟩

/-- A frame that counts towards promotion leaves the port in its state or takes it to NORMAL (R124). -/
theorem AtPort.promote (h : AtPort s u p x) :
    ∃ n st, (st = x.state ∨ st = .normal) ∧ AtPort s (u.promote p) p { x with promoteCnt := n, state := st } := by
  unfold State.promote
  rw [h.port]
  dsimp only
  split
  · exact ⟨x.promoteCnt, x.state, .inl rfl, h⟩
  · split
    · exact ⟨_, .normal, .inr rfl, h.showPort _⟩
    · exact ⟨_, x.state, .inl rfl, h.setPort _⟩

/-- FPn_TDCSTAT is all that a loop delay changes (R112). -/
theorem State.noteLoop_eq (s : State) (p : PortId) (f : CanFrame) (loop : Option Half) :
    ∃ a b, s.noteLoop p f loop = s.setPort p { s.port p with loopXl := a, loopFd := b } := by
  unfold State.noteLoop
  split
  · dsimp only
    split
    · exact ⟨_, (s.port p).loopFd, rfl⟩
    · exact ⟨(s.port p).loopXl, _, rfl⟩
  · exact ⟨(s.port p).loopXl, (s.port p).loopFd, (setPort_self s p).symm⟩

theorem AtPort.liveGroup (h : AtPort s u p x) : u.liveGroup p = s.liveGroup p :=
  h.only.liveGroup (by decide) (by decide) (by decide) (by decide) (by decide) (by decide) p

theorem AtPort.sameCq (h : AtPort s u p x) (d : Dom) (n : RingNo) : SameCq s u d n :=
  ⟨fun _ => h.only.2 (.regs .ring) (by decide) _ rfl, (h.only.2 .partition (by decide)).1, h.only.2 .dev (by decide),
    congrArg (·[d]) (h.only.2 .funcs (by decide)), h.only.2 .rings (by decide) _⟩

theorem AtPort.short (h : AtPort s u p x) (raw : DWord) : u.short raw = s.short raw := by
  have htmu : u.tmu = s.tmu := h.only.2 .tmu (by decide)
  rw [State.short, State.short, State.timeAt, State.timeAt, htmu]

theorem AtPort.spur (h : AtPort s u p x) : u.spur = s.spur := h.only.2 .spur (by decide)

/-- What leaves the device after such a change leaves it after s. -/
theorem AtPort.sends {t : State} {o : Output} (h : AtPort s u p x) (g : Sends u t o) : Sends s t o := by
  obtain ⟨l, hl, ho⟩ := g
  have hout : u.out = s.out := h.only.2 .out (by decide)
  exact ⟨l, hout ▸ hl, ho⟩

end atPort

/-! ### An attempt that ends with success (R203) -/

section success
variable {s : State} {p : PortId} {a : Attempt} {c : Cand} {i : Nat}

/-- What a success leaves of a port: TEC falls by one, REC and the candidates stay (R124, R207). -/
structure Succeeds (x y : Port) : Prop where
  wire : y.onWire = x.onWire
  tec : y.tec = x.tec - 1
  rec_ : y.rec_ = x.rec_
  cands : y.cands = x.cands
  state : y.state = x.state ∨ y.state = .normal

/-- The engine's own dealings with a success: the error counters, the statistics and promotion (R124, R207, R219). -/
def State.succeeded (s : State) (p : PortId) (f : CanFrame) : State :=
  let x : Port := { s.port p with tec := (s.port p).tec - 1 }
  (((s.setPort p (demote { x with suspend := suspends x, busIdle := true })).countFrame p f false).ackReset p).promote p

theorem demote_eq (x : Port) : ∃ n, demote x = { x with promoteCnt := n } := by
  unfold demote
  split
  · exact ⟨0, rfl⟩
  · exact ⟨x.promoteCnt, rfl⟩

theorem State.succeeded_atPort (s : State) (p : PortId) (f : CanFrame) : ∃ y, AtPort s (s.succeeded p f) p y ∧ Succeeds (s.port p) y := by
  let x : Port := { s.port p with tec := (s.port p).tec - 1 }
  obtain ⟨m, hm⟩ := demote_eq { x with suspend := suspends x, busIdle := true }
  have hset := (AtPort.refl s p).setPort (demote { x with suspend := suspends x, busIdle := true })
  rw [hm] at hset
  obtain ⟨n, st, hst, h⟩ := ((hset.countFrame f false).ackReset).promote
  refine ⟨{ s.port p with
    tec := (s.port p).tec - 1, suspend := suspends x, busIdle := true, ackRun := 0, lone := false, promoteCnt := n, state := st }, ?_,
    ⟨rfl, rfl, rfl, rfl, hst⟩⟩
  rw [State.succeeded, hm]
  exact h

/-- The candidate after one more attempt. -/
def Cand.tried (c : Cand) : Cand := { c with attempts := c.attempts + 1 }

theorem attemptOutcome_success (c : Cand) (stopping flushing : Bool) :
    attemptOutcome c .success stopping flushing = (c.tried, some (if c.attempts = 0 then 0x00 else 0x01)) := by
  simp [attemptOutcome, Cand.tried]

/-- An attempt of a candidate is counted where it is a repeated one. -/
theorem AtPort.retried {u : State} {x : Port} (h : AtPort s u p x) (n : Nat) : AtPort s (if n = 0 then u else u.countPort p 0x88) p x := by
  split
  · exact h
  · exact h.countPort _

/-- With an engine attached the candidate of a success ends at once; beyond that only the record of attempts may change (R203, R399). -/
theorem State.endCandAttempt_success (s : State) (p : PortId) (a : Attempt) (c : Cand) (hengine : (s.spur.attached[p]).isSome = true) :
    ∃ u l, AtPort s u p { s.port p with record := l } ∧ s.endCandAttempt p a c .success =
      u.endCand p c.tried (if c.attempts = 0 then 0x00 else 0x01) (some (s.short a.sof)) := by
  unfold State.endCandAttempt
  extract_lets x0 u1 here x1 u2 x2 x3
  have h1 : AtPort s u1 p (s.port p) := (AtPort.refl s p).retried c.attempts
  have hhere : here = true := by
    unfold here
    rw [h1.spur]
    exact hengine
  have h2 : ∃ l, AtPort s u2 p { s.port p with record := l } := by
    unfold u2 x1
    rw [h1.port]
    split
    · exact ⟨_, h1.setPort _⟩
    · exact ⟨_, h1⟩
  obtain ⟨l, h2⟩ := h2
  refine ⟨u2, l, h2, ?_⟩
  rw [if_pos hhere, State.settleAttempt]
  dsimp only
  rw [attemptOutcome_success]
  dsimp only
  rw [if_pos rfl, h2.short]

theorem State.anchorOf_alone (h : s.groupOf p = none) : s.anchorOf p = none := by
  rw [State.anchorOf, h]
  rfl

theorem State.liveGroup_alone (h : s.groupOf p = none) : s.liveGroup p = none := by
  rw [State.liveGroup, h]
  rfl

/-- The attempt of an unsealed candidate has no trailer to take (R171). -/
theorem State.takeTrailer_unsealed (hwire : (s.port p).onWire = some a) (hwhat : a.what = .cand i) (hcand : candAt (s.port p) i = some c)
    (hseal : c.sealWith = none) : s.takeTrailer p = s := by
  have hslot : onWireSlot (s.port p) = some i := by
    obtain ⟨w, f, sof, co, tr, de, n⟩ := a
    subst hwhat
    rw [onWireSlot, hwire]
  rw [State.takeTrailer, hwire]
  dsimp only
  rw [hslot]
  dsimp only
  rw [hcand]
  dsimp only
  rw [hseal]

theorem running_ne {st x : PState} (h : running st = true) (hx : running x = false) : (st == x) = false := by
  refine beq_eq_false_iff_ne.2 fun e => ?_
  rw [e, hx] at h
  exact Bool.false_ne_true h

theorem halted_of_running {st : PState} (h : running st = true) : halted st = false := by
  cases st
  case off | stopped | sleep => exact absurd h (by decide)
  all_goals rfl

/-- The end of a candidate leaves the state of its port. -/
theorem State.endCandAttempt_success_state (s : State) (p : PortId) (a : Attempt) (c : Cand) (hengine : (s.spur.attached[p]).isSome = true) :
    ((s.endCandAttempt p a c .success).port p).state = (s.port p).state := by
  obtain ⟨u, l, hu, he⟩ := s.endCandAttempt_success p a c hengine
  rw [he, Port.eq_of_noCands ((u.endCand_sameButCands p _ _ _).ports p) Port.state fun _ => rfl, hu.port]

theorem loopback_false (h : (s.port p).state ≠ .test) : s.loopback p = false := by
  rw [State.loopback, beq_eq_false_iff_ne.2 h]
  rfl

/-- A success of a candidate on a port outside a live group and in no loopback: the engine's own dealings, then the end of the candidate (R203). -/
theorem State.attemptDone_cand (hgroup : s.liveGroup p = none) (hrun : running (s.port p).state = true) (htest : (s.port p).state ≠ .test)
    (hengine : (s.spur.attached[p]).isSome = true) (hwhat : a.what = .cand i) (hcand : candAt (s.port p) i = some c) :
    s.attemptDone p a = (s.succeeded p a.frame).endCandAttempt p a c .success := by
  obtain ⟨y, hy, hsucc⟩ := s.succeeded_atPort p a.frame
  have hhalted : halted (s.port p).state = false := halted_of_running hrun
  have hfound : candAt ((s.succeeded p a.frame).port p) i = some c := by
    rw [hy.port, candAt, hsucc.cands]
    exact hcand
  have hloop : ((s.succeeded p a.frame).endCandAttempt p a c .success).loopback p = false := by
    refine loopback_false ?_
    rw [State.endCandAttempt_success_state _ p a c (by rw [hy.spur]; exact hengine), hy.port]
    rcases hsucc.state with h | h <;> rw [h]
    · exact htest
    · decide
  unfold State.attemptDone
  extract_lets x u1 u2 u3 u4 v y' u5
  have h4 : u4 = s.succeeded p a.frame := by
    unfold u4 u3 u2 u1
    rw [hhalted, if_neg Bool.false_ne_true]
    exact State.promoteBy_alone (hy.liveGroup.trans hgroup)
  have h5 : u5 = (s.succeeded p a.frame).endCandAttempt p a c .success := by
    unfold u5
    rw [hwhat, h4]
    dsimp only
    rw [hfound]
  rw [h5, hloop, if_neg Bool.false_ne_true]

/-- Nothing of the port is on the wire any more. -/
def State.offWire (s : State) (p : PortId) : State := s.setPort p { s.port p with onWire := none }

theorem State.endAttempt_eq {r : AttemptResult} (hwire : (s.port p).onWire = some a) (htrailer : wonArb r = true → s.takeTrailer p = s) :
    s.endAttempt p r = if r = .success then ((s.offWire p).frameEnds p r).attemptDone p a else ((s.offWire p).frameEnds p r).attemptFailed p a r := by
  unfold State.endAttempt
  rw [hwire]
  dsimp only
  rw [ite_eq_right_iff.2 htrailer, hwire]
  rfl

theorem State.frameEnds_alone (h : s.groupOf p = none) (r : AttemptResult) : s.frameEnds p r = s := by
  rw [State.frameEnds, State.anchorOf_alone h]

/-- A lost arbitration leaves the frame of the branch that won on the joined bus (R231, R256). -/
theorem State.frameEnds_arbLost (s : State) (p : PortId) : s.frameEnds p .arbLost = s := by
  unfold State.frameEnds
  split
  · rfl
  · rfl

theorem State.endAttempt_success (hgroup : s.groupOf p = none) (hwire : (s.port p).onWire = some a) (hwhat : a.what = .cand i)
    (hcand : candAt (s.port p) i = some c) (hseal : c.sealWith = none) : s.endAttempt p .success = (s.offWire p).attemptDone p a := by
  rw [State.endAttempt_eq hwire fun _ => State.takeTrailer_unsealed hwire hwhat hcand hseal, if_pos rfl,
    State.frameEnds_alone (s := s.offWire p) hgroup]

/-- A success whose loop delay is in range is one (R114). -/
theorem State.attemptOp_success {loop : Option Half} (hwire : (s.port p).onWire = some a) (hlate : s.tdcRange p a.frame loop = false) :
    s.attemptOp p .success loop = (s.noteLoop p a.frame loop).endAttempt p .success := by
  unfold State.attemptOp
  rw [hwire]
  dsimp only
  rw [hlate]
  rfl

theorem attemptEnd_exec {r : AttemptResult} {loop : Option Half} (hfam : s.otherFamily p = false) (hwire : (s.port p).onWire = some a)
    (hlives : a.destroyed = false ∨ r ≠ .success) : exec (.attemptEnd p r loop) s = finish (s.attemptOp p r loop) := by
  change execAttemptEnd p r loop s = _
  unfold execAttemptEnd
  rw [hwire, if_neg (by rcases hlives with h | h <;> simp [h]), if_neg (by rw [hfam]; exact Bool.false_ne_true)]

theorem attemptEnd_succeeds {loop : Option Half} (hfam : s.otherFamily p = false) (hgroup : s.groupOf p = none)
    (hrun : running (s.port p).state = true) (htest : (s.port p).state ≠ .test) (hwire : (s.port p).onWire = some a) (hwhat : a.what = .cand i)
    (hcand : candAt (s.port p) i = some c) (hseal : c.sealWith = none) (hquiet : c.quiet = false)
    (hengine : (s.spur.attached[p]).isSome = true) (hlives : a.destroyed = false) (hlate : s.tdcRange p a.frame loop = false)
    (hcomplete : CanComplete s c.op) :
    Does (.attemptEnd p .success loop) s fun t => (t.port p).onWire = none ∧ (t.port p).tec = (s.port p).tec - 1 ∧ (t.port p).rec_ = (s.port p).rec_ ∧
      (t.port p).cands.length = ((s.port p).cands.filter (fun k => decide (k.slot ≠ c.slot))).length ∧ OtherPorts s t p ∧
      Sends s t (s.entryOut c.op.dom (s.cqOf c.op.dom c.op.num)
        (c.tried.entry p (if c.attempts = 0 then 0x00 else 0x01) (some (s.short a.sof)))) := by
  obtain ⟨l1, l2, hloop⟩ := s.noteLoop_eq p a.frame loop
  let x : Port := { s.port p with loopXl := l1, loopFd := l2, onWire := none }
  let w : State := s.setPort p x
  have hw : AtPort s w p x := (AtPort.refl s p).setPort x
  obtain ⟨y, hy, hsucc⟩ := w.succeeded_atPort p a.frame
  obtain ⟨u, l, hu, hend⟩ := (w.succeeded p a.frame).endCandAttempt_success p a c (by rw [hy.spur]; exact hengine)
  have hall : AtPort s u p { y with record := l } := (hw.trans hy).trans (hy.port ▸ hu)
  have hoff : (s.noteLoop p a.frame loop).endAttempt p .success = w.attemptDone p a := by
    have hport : (s.noteLoop p a.frame loop).port p = { s.port p with loopXl := l1, loopFd := l2 } := by
      rw [hloop, State.port_setPort_same]
    have hnone : (s.noteLoop p a.frame loop).groupOf p = none := by
      rw [hloop]
      exact hgroup
    rw [State.endAttempt_success hnone (by rw [hport]; exact hwire) hwhat (by rw [hport]; exact hcand) hseal, State.offWire, hport, hloop,
      State.setPort_setPort]
  have hop : s.attemptOp p .success loop = u.endCand p c.tried (if c.attempts = 0 then 0x00 else 0x01) (some (s.short a.sof)) := by
    rw [State.attemptOp_success hwire hlate, hoff,
      State.attemptDone_cand (c := c) (hw.liveGroup.trans (State.liveGroup_alone hgroup)) (by rw [hw.port]; exact hrun) (by rw [hw.port]; exact htest)
        hengine hwhat (by rw [hw.port]; exact hcand), hend, (hw.trans hy).short]
  have hcq : SameCq s u c.op.dom c.op.num := hall.sameCq _ _
  obtain ⟨hsame, hlength, hothers, hsends⟩ := State.endCand_leaves (c := c.tried) (hall.liveGroup.trans (State.liveGroup_alone hgroup)) hquiet
    (hcomplete.of_sameCq hcq) (if c.attempts = 0 then 0x00 else 0x01) (some (s.short a.sof))
  rw [hall.port] at hsame hlength
  rw [show u.entryOut c.tried.op.dom (u.cqOf c.tried.op.dom c.tried.op.num) _ = _ from hcq.entryOut _] at hsends
  refine .of_finish (hop ▸ attemptEnd_exec hfam hwire (.inl hlives)) ?_
  rw [State.announce_port, State.noteMay_port]
  rw [hw.port] at hsucc
  refine ⟨?_, ?_, ?_, ?_, fun q hq => ?_, ?_⟩
  · exact (Port.eq_of_noCands hsame Port.onWire fun _ => rfl).trans hsucc.wire
  · exact (Port.eq_of_noCands hsame Port.tec fun _ => rfl).trans hsucc.tec
  · exact (Port.eq_of_noCands hsame Port.rec_ fun _ => rfl).trans hsucc.rec_
  · exact hlength.trans (congrArg (fun l : List Cand => (l.filter (fun k => decide (k.slot ≠ c.slot))).length) hsucc.cands)
  · rw [State.announce_port, State.noteMay_port]
    exact (hothers q hq).trans (hall.others q hq)
  · exact (hall.sends hsends).later (State.announce_keeps (State.noteMay_keeps (Keeps.refl _)))

end success

/-! ### An attempt that loses arbitration (R198, R199, R203) -/

section arbLost
variable {s : State} {p : PortId} {a : Attempt} {c : Cand} {i : Nat}

/-- Nothing of the candidate's own ends it at a lost arbitration: its hold time and its ring last, losses do not count, and it is not withdrawn (R199, R203). -/
structure Cand.GoesOn (c : Cand) : Prop where
  hold : c.holdEnded = false
  ring : c.ringOff = false
  count : c.alcount = false
  ending : c.ending ≠ some 12

/-- The candidate after one more attempt, which has lost arbitration (R204). -/
def Cand.outbid (c : Cand) : Cand := { c with attempts := c.attempts + 1, arb := c.arb + 1 }

theorem attemptOutcome_arbLost (h : c.GoesOn) : attemptOutcome c .arbLost false false = (c.outbid, none) := by
  obtain ⟨hhold, hring, hcount, hending⟩ := h
  simp [attemptOutcome, hhold, hring, hcount, hending, Cand.outbid]

/-- With an engine attached, on a port that runs on, a lost arbitration before the commit only changes the candidate (R203). -/
theorem State.endCandAttempt_arbLost (h : c.GoesOn) (hengine : (s.spur.attached[p]).isSome = true) (hcommit : a.committed = false)
    (hstop : (s.port p).stopPending = false) (href : (s.port p).refStop = false) (hrun : running (s.port p).state = true) :
    ∃ n m, s.endCandAttempt p a c .arbLost = { s.setPort p { s.port p with
      cands := (s.port p).cands.map (fun e => if e.slot = c.slot then c.outbid else e) } with counts := n, halves := m } := by
  have hstopped : ((s.port p).state == .stopped) = false := running_ne hrun rfl
  have hbusoff : ((s.port p).state == .busoff) = false := running_ne hrun rfl
  have hcount : ∃ n m, (if c.attempts = 0 then s else s.countPort p 0x88) = { s with counts := n, halves := m } := by
    split
    · exact ⟨_, _, rfl⟩
    · exact ⟨_, _, rfl⟩
  obtain ⟨n, m, hcount⟩ := hcount
  refine ⟨n, m, ?_⟩
  unfold State.endCandAttempt
  dsimp only
  rw [hcount, hcommit, if_neg Bool.false_ne_true, if_pos hengine, State.settleAttempt]
  dsimp only
  rw [show ({ s with counts := n, halves := m } : State).port p = s.port p from rfl, hstop, href, hstopped, hbusoff, Bool.or_false, Bool.or_false,
    Bool.false_and, attemptOutcome_arbLost h]
  rfl

theorem State.attemptFailed_arbLost (hwhat : a.what = .cand i) (hcand : candAt (s.port p) i = some c) :
    s.attemptFailed p a .arbLost = (s.countPort p 0x80).endCandAttempt p a c .arbLost := by
  unfold State.attemptFailed
  dsimp only
  rw [hwhat]
  dsimp only
  rw [State.port_countPort, hcand]

/-- A format without delay compensation, or with it off, has no loop delay to note (R112). -/
theorem State.attemptOp_arbLost {loop : Option Half} (hwire : (s.port p).onWire = some a) (htdc : s.tdcOf p a.frame = none) :
    s.attemptOp p .arbLost loop = s.endAttempt p .arbLost := by
  unfold State.attemptOp State.noteLoop
  rw [hwire]
  dsimp only
  rw [htdc]
  rfl

theorem attemptEnd_arbLost {loop : Option Half} (hfam : s.otherFamily p = false) (hrun : running (s.port p).state = true)
    (hwire : (s.port p).onWire = some a) (hwhat : a.what = .cand i) (hcand : candAt (s.port p) i = some c) (hcommit : a.committed = false)
    (hengine : (s.spur.attached[p]).isSome = true) (hstop : (s.port p).stopPending = false) (href : (s.port p).refStop = false) (h : c.GoesOn)
    (htdc : s.tdcOf p a.frame = none) :
    Does (.attemptEnd p .arbLost loop) s fun t => t.port p = { s.port p with
        onWire := none, cands := (s.port p).cands.map (fun e => if e.slot = c.slot then c.outbid else e) } ∧
      OtherPorts s t p ∧ SameRegs s t ∧ t.rings = s.rings ∧ t.belay = s.belay := by
  let x : Port := { s.port p with onWire := none }
  let y : Port := { x with cands := x.cands.map (fun e => if e.slot = c.slot then c.outbid else e) }
  let w : State := (s.offWire p).countPort p 0x80
  have hw : w.port p = x := State.port_setPort_same s p x
  obtain ⟨n, m, hend⟩ := State.endCandAttempt_arbLost (s := w) (p := p) h hengine hcommit (by rw [hw]; exact hstop) (by rw [hw]; exact href)
    (by rw [hw]; exact hrun)
  have hop : s.attemptOp p .arbLost loop = { s.setPort p y with counts := n, halves := m } := by
    rw [State.attemptOp_arbLost hwire htdc, State.endAttempt_eq (r := .arbLost) hwire (absurd · Bool.false_ne_true), if_neg nofun, State.frameEnds_arbLost,
      State.attemptFailed_arbLost (c := c) hwhat (by rw [State.offWire, State.port_setPort_same]; exact hcand), hend, hw]
    exact congrArg (fun v : State => { v with counts := n, halves := m }) (s.setPort_setPort p x y)
  have hp : ∀ q, (s.attemptOp p .arbLost loop).noteMay.announce.port q = (s.setPort p y).port q := fun q => by
    rw [State.announce_port, State.noteMay_port, hop]
    rfl
  refine .of_finish (attemptEnd_exec hfam hwire (.inr nofun)) ⟨?_, fun q hq => ?_, SameRegs.of_regs (by rw [hop]; rfl), ?_, ?_⟩
  · rw [hp, State.port_setPort_same]
  · rw [hp, State.port_setPort_other _ _ _ _ hq]
  · rw [State.announce_rings, State.noteMay_rings, hop]
    rfl
  · rw [State.announce_belay, State.noteMay_belay, hop]
    rfl

end arbLost

/-- Settles O32: a success changes its port alone before its candidate leaves the set, so that the completion is written at the index of the queue as
it stood; a lost arbitration before the commit changes the candidate and nothing else of ports and registers. -/
theorem attemptEnds : Obligations.AttemptEnds := by
  unfold Obligations.AttemptEnds
  refine ⟨fun s p loop a i c hfam hgroup hrun htest hwire hwhat hcand hseal hquiet hengine hlives hlate hepoch hmute hpath hon hwait hroom => ?_,
    fun _ _ _ _ _ _ hfam hrun hwire hwhat hcand hcommit hengine hstop href hhold hring hcount hending htdc =>
      attemptEnd_arbLost hfam hrun hwire hwhat hcand hcommit hengine hstop href ⟨hhold, hring, hcount, hending⟩ htdc⟩
  obtain ⟨t, he, hnone, htec, hrec, hlength, hothers, hsends⟩ := attemptEnd_succeeds hfam hgroup hrun htest hwire hwhat hcand hseal hquiet hengine
    hlives hlate ⟨hepoch, hmute, hpath, hon, hwait, hroom⟩
  exact ⟨t, he, hnone, htec, hrec, hlength, hothers, _, hsends, rfl, rfl, rfl, rfl⟩

end Sys2Proof.Machine

namespace Sys2Proof.Machine

/-! ### Branches of a group, and the group's event bits (R239, R243) -/

section branches
variable {s u : State} {k : GrpId} {b c : Branch}

@[simp] theorem State.group_setBranch (s : State) (k : GrpId) (b : Branch) (x : BranchSt) :
    (s.setBranch k b x).group k = { s.group k with branches := (s.group k).branches.set b x } := State.group_setGroup_same _ _ _

@[simp] theorem State.branch_setBranch_same (s : State) (k : GrpId) (b : Branch) (x : BranchSt) : (s.setBranch k b x).branch k b = x := by
  simp [State.branch]

theorem State.branch_setBranch_other (s : State) (k : GrpId) (x : BranchSt) (h : c ≠ b) : (s.setBranch k b x).branch k c = s.branch k c := by
  have hne : b.val ≠ c.val := fun e => h (Fin.ext e.symm)
  simp [State.branch, hne]

@[simp] theorem State.branch_grpEvt (s : State) (j k : GrpId) (i : Nat) (b : Branch) : (s.grpEvt j i).branch k b = s.branch k b := rfl

@[simp] theorem State.branch_ended (u : State) (k : GrpId) (b : Branch) : u.noteMay.announce.branch k b = u.branch k b := by
  rw [State.branch, State.announce_group, State.noteMay_group, State.branch]

@[simp] theorem State.reg_grpEvt_same (s : State) (k : GrpId) (i : Nat) : (s.grpEvt k i).reg (.grp k .evt) = setBit (s.reg (.grp k .evt)) i :=
  State.reg_raise_same _ _ _

theorem State.reg_grpEvt_other (s : State) (k : GrpId) (i : Nat) {r : Reg} (h : r ≠ .grp k .evt) : (s.grpEvt k i).reg r = s.reg r :=
  State.reg_raise_other _ _ _ _ h

/-- What every command ends with leaves the registers of groups. -/
theorem State.reg_ended (u : State) (k : GrpId) (q : GrpReg) : u.noteMay.announce.reg (.grp k q) = u.reg (.grp k q) := by
  rw [State.announce_reg _ _ (show blockOf (.grp k q) ≠ .guard from nofun), State.noteMay_reg]

theorem State.rb_ended (u : State) (k : GrpId) (q : GrpReg) (i : Nat) : u.noteMay.announce.rb (.grp k q) i = u.rb (.grp k q) i :=
  congrArg (bit · i) (u.reg_ended k q)

theorem State.ports_ended (u : State) : u.noteMay.announce.ports = u.ports := by rw [State.announce_ports, State.noteMay_ports]

end branches

/-! ### A branch joins (R235, R245) -/

section join
variable {s u : State} {k : GrpId} {b c : Branch}

/-- The branch is JOINED, and STATE_CHG is set. -/
def State.branchJoined (s : State) (k : GrpId) (b : Branch) : State :=
  (s.setBranch k b { s.branch k b with state := .joined, seqOn := false, ignored := false }).grpEvt k 0

theorem State.group_branchJoined_state (s : State) (k : GrpId) (b : Branch) : ((s.branchJoined k b).group k).state = (s.group k).state := by
  rw [State.branchJoined, State.group_grpEvt, State.group_setBranch]

theorem State.branch_branchJoined_same (s : State) (k : GrpId) (b : Branch) :
    (s.branchJoined k b).branch k b = { s.branch k b with state := .joined, seqOn := false, ignored := false } := by
  rw [State.branchJoined, State.branch_grpEvt, State.branch_setBranch_same]

theorem State.branch_branchJoined_other (s : State) (k : GrpId) (h : c ≠ b) : (s.branchJoined k b).branch k c = s.branch k c := by
  rw [State.branchJoined, State.branch_grpEvt, State.branch_setBranch_other _ _ _ h]

theorem State.joinBranch_running (h : (s.group k).state ≠ .joining) : s.joinBranch k b = s.branchJoined k b := by
  rw [← s.group_branchJoined_state k b] at h
  exact if_neg h

theorem State.groupHoldArrives_none (h : (s.group k).holdPending = none) : s.groupHoldArrives k = s := by
  unfold State.groupHoldArrives
  dsimp only
  rw [h]

/-- The first branch takes a JOINING group without a schedule to STARTUP; no hold waits for it (R245). -/
theorem State.joinBranch_first (h : (s.group k).state = .joining) (htrav : s.traverse k = false) (hhold : (s.group k).holdPending = none) :
    s.joinBranch k b = (s.branchJoined k b).groupGoes k { (s.branchJoined k b).group k with state := .startup } := by
  have hjoining : ((s.branchJoined k b).group k).state = .joining := (s.group_branchJoined_state k b).trans h
  have hkept : (s.branchJoined k b).traverse k = false := by
    rw [State.traverse, State.rb, State.branchJoined, State.reg_grpEvt_other _ _ _ (show Reg.grp k .cfg ≠ .grp k .evt from nofun)]
    exact htrav
  have hnone : ((s.branchJoined k b).group k).holdPending = none := by
    rw [State.branchJoined, State.group_grpEvt, State.group_setBranch]
    exact hhold
  refine (if_pos hjoining).trans ?_
  change State.groupHoldArrives (if (s.branchJoined k b).traverse k = true then _ else _) k = _
  rw [hkept, if_neg Bool.false_ne_true]
  exact State.groupHoldArrives_none (by rw [(groupGoes_becomes _ k _).group]; exact hnone)

theorem branchJoin_exec (hstop : (s.group k).state ≠ .stopped) (hwidth : b.val < s.width k) (hst : (s.branch k b).state = .joining)
    (hpair : s.pairReady k b = true) (hidle : s.joinedIdle k = true) : exec (.branchJoin k b) s = finish (s.joinBranch k b) := by
  change execBranchJoin k b s = _
  unfold execBranchJoin
  exact if_pos ⟨hstop, hwidth, hst, hpair, hidle⟩

theorem branchJoin_joins (hstop : (s.group k).state ≠ .stopped) (hjoining : (s.group k).state ≠ .joining) (hwidth : b.val < s.width k)
    (hst : (s.branch k b).state = .joining) (hpair : s.pairReady k b = true) (hidle : s.joinedIdle k = true) :
    Does (.branchJoin k b) s fun t => (t.branch k b).state = .joined ∧ (∀ c, c ≠ b → t.branch k c = s.branch k c) ∧
      (t.group k).state = (s.group k).state ∧ t.reg (.grp k .evt) = setBit (s.reg (.grp k .evt)) 0 ∧ t.ports = s.ports ∧
      OtherRegs s t [.grp k .evt] := by
  have he := branchJoin_exec hstop hwidth hst hpair hidle
  rw [State.joinBranch_running hjoining] at he
  refine .of_finish he ⟨?_, fun c hc => ?_, ?_, ?_, State.ports_ended _, .of_reg fun q hq => State.reg_grpEvt_other _ _ _ hq⟩
  · rw [State.branch_ended, State.branch_branchJoined_same]
  · rw [State.branch_ended, State.branch_branchJoined_other _ _ hc]
  · rw [State.announce_group, State.noteMay_group, State.group_branchJoined_state]
  · rw [State.reg_ended]
    exact State.reg_grpEvt_same _ _ _

theorem branchJoin_starts (hjoining : (s.group k).state = .joining) (htrav : s.traverse k = false) (hhold : (s.group k).holdPending = none)
    (hwidth : b.val < s.width k) (hst : (s.branch k b).state = .joining) (hpair : s.pairReady k b = true) (hidle : s.joinedIdle k = true) :
    Does (.branchJoin k b) s fun t => (t.branch k b).state = .joined ∧ (t.group k).state = .startup ∧ t.rb (.grp k .evt) 0 = true := by
  have he := branchJoin_exec (by simp [hjoining]) hwidth hst hpair hidle
  rw [State.joinBranch_first hjoining htrav hhold] at he
  have hgroup := (groupGoes_becomes (s.branchJoined k b) k { (s.branchJoined k b).group k with state := .startup }).left.1
  have hevt : ((s.branchJoined k b).group k).state ≠ .startup := by simp [State.group_branchJoined_state, hjoining]
  refine .of_finish he ⟨?_, by rw [hgroup], ?_⟩
  · rw [State.branch, hgroup]
    exact congrArg BranchSt.state (s.branch_branchJoined_same k b)
  · rw [State.rb_ended, State.rb, groupGoes_evt hevt]
    exact bit_setBit_self _ (by decide)

end join

/-! ### A branch is isolated, and rejoins (R239, R241, R242) -/

section isolate
variable {s u : State} {k : GrpId} {b c : Branch} {kind : Nat}

theorem State.group_isolate (s : State) (k : GrpId) (b : Branch) (kind : Nat) : (s.isolate k b kind).group k = { s.group k with
    branches := (s.group k).branches.set b { s.branch k b with state := .isolated, kind := kind, seqOn := earlyPhase (s.group k), seqAt := s.raw },
    frame := (s.group k).frame.filter (fun f => decide (f.branch ≠ b)) } := by
  unfold State.isolate
  dsimp only
  rw [State.group_grpEvt, State.group_grpEvt, State.group_setGroup_same, State.group_setBranch]

theorem State.branch_isolate_same (s : State) (k : GrpId) (b : Branch) (kind : Nat) : (s.isolate k b kind).branch k b =
    { s.branch k b with state := .isolated, kind := kind, seqOn := earlyPhase (s.group k), seqAt := s.raw } := by
  rw [State.branch, State.group_isolate]
  simp

theorem State.branch_isolate_other (s : State) (k : GrpId) (kind : Nat) (h : c ≠ b) : (s.isolate k b kind).branch k c = s.branch k c := by
  have hne : b.val ≠ c.val := fun e => h (Fin.ext e.symm)
  rw [State.branch, State.group_isolate]
  simp [State.branch, hne]

theorem State.reg_isolate_evt (s : State) (k : GrpId) (b : Branch) (kind : Nat) :
    (s.isolate k b kind).reg (.grp k .evt) = setBit (setBit (s.reg (.grp k .evt)) 1) 0 := by
  unfold State.isolate
  dsimp only
  rw [State.reg_grpEvt_same, State.reg_grpEvt_same]
  rfl

theorem State.reg_isolate_other (s : State) (k : GrpId) (b : Branch) (kind : Nat) {r : Reg} (h : r ≠ .grp k .evt) :
    (s.isolate k b kind).reg r = s.reg r := by
  unfold State.isolate
  dsimp only
  rw [State.reg_grpEvt_other _ _ _ h, State.reg_grpEvt_other _ _ _ h]
  rfl

theorem stuckIsolate_does (hstop : (s.group k).state ≠ .stopped) (hwidth : b.val < s.width k)
    (hst : (s.branch k b).state = .joined ∨ (s.branch k b).state = .joining) :
    Does (.stuckIsolate k b) s fun t => (t.branch k b).state = .isolated ∧ (t.branch k b).kind = 5 ∧ (t.branch k b).seqOn = earlyPhase (s.group k) ∧
      (∀ c, c ≠ b → t.branch k c = s.branch k c) ∧ t.reg (.grp k .evt) = setBit (setBit (s.reg (.grp k .evt)) 1) 0 ∧ t.ports = s.ports ∧
      OtherRegs s t [.grp k .evt] := by
  have he : exec (.stuckIsolate k b) s = finish (s.isolate k b 5) := by
    change execStuckIsolate k b s = _
    unfold execStuckIsolate
    exact if_pos ⟨hstop, hwidth, hst⟩
  refine .of_finish he ⟨?_, ?_, ?_, fun c hc => ?_, ?_, State.ports_ended _, .of_reg fun q hq => State.reg_isolate_other _ _ _ _ hq⟩
  · rw [State.branch_ended, State.branch_isolate_same]
  · rw [State.branch_ended, State.branch_isolate_same]
  · rw [State.branch_ended, State.branch_isolate_same]
  · rw [State.branch_ended, State.branch_isolate_other _ _ _ hc]
  · rw [State.reg_ended, State.reg_isolate_evt]

theorem State.advance_group (s : State) (r : DWord) (k : GrpId) : (s.advance r).group k = s.group k := by
  rw [State.group, State.advance_groups, State.group]

theorem State.advance_branch (s : State) (r : DWord) (k : GrpId) (b : Branch) : (s.advance r).branch k b = s.branch k b := by
  rw [State.branch, State.advance_group, State.branch]

theorem rejoinSeqEnd_joins (hjoining : (s.group k).state ≠ .joining) (hst : (s.branch k b).state = .isolated) (hseq : (s.branch k b).seqOn = true)
    (hidle : s.joinedIdle k = true) (hu : u = s.waitFrom (s.branch k b).seqAt (1408 * s.nbt (s.anchor k))) :
    Does (.rejoinSeqEnd k b) s fun t => (t.branch k b).state = .joined ∧ (t.branch k b).recent = [] ∧ (t.branch k b).seqOn = false ∧
      (∀ c, c ≠ b → t.branch k c = s.branch k c) ∧ t.ports = u.ports ∧ OtherRegs u t [.grp k .evt] := by
  let v : State := u.setBranch k b { u.branch k b with recent := [] }
  have hstate : (v.group k).state ≠ .joining := by rw [State.group_setBranch, hu, State.waitFrom, State.advance_group]; exact hjoining
  have he : exec (.rejoinSeqEnd k b) s = finish (v.branchJoined k b) := by
    rw [← State.joinBranch_running hstate]
    change execRejoinSeqEnd k b s = _
    unfold execRejoinSeqEnd
    dsimp only
    rw [if_pos ⟨hst, hseq, hidle⟩, ← hu]
  have hb : (v.branchJoined k b).branch k b = { u.branch k b with state := .joined, recent := [], seqOn := false, ignored := false } := by
    rw [State.branch_branchJoined_same, State.branch_setBranch_same]
  refine .of_finish he ⟨?_, ?_, ?_, fun c hc => ?_, State.ports_ended _, .of_reg fun q hq => State.reg_grpEvt_other _ _ _ hq⟩
  · rw [State.branch_ended, hb]
  · rw [State.branch_ended, hb]
  · rw [State.branch_ended, hb]
  · rw [State.branch_ended, State.branch_branchJoined_other _ _ hc, State.branch_setBranch_other _ _ _ hc, hu, State.waitFrom, State.advance_branch]

end isolate

/-- Settles O39: a branch that joins or is isolated is set within its group, with the group's event bits; time that passes before a rejoin changes no
group. -/
theorem branches : Obligations.Branches := by
  unfold Obligations.Branches
  exact ⟨fun _ _ _ hstop hjoining hwidth hst hpair hidle => branchJoin_joins hstop hjoining hwidth hst hpair hidle,
    fun _ _ _ hjoining htrav hhold hwidth hst hpair hidle => branchJoin_starts hjoining htrav hhold hwidth hst hpair hidle,
    fun _ _ _ hstop hwidth hst => stuckIsolate_does hstop hwidth hst,
    fun _ _ _ _ hjoining hst hseq hidle hu => rejoinSeqEnd_joins hjoining hst hseq hidle hu⟩

end Sys2Proof.Machine

namespace Sys2Proof.Machine

/-! ### What a start of frame finds of its group (R237, R257) -/

section sof
variable {s u : State} {k : GrpId} {b c : Branch} {o : Output}

/-- What every command ends with recalls nothing that has left the device. -/
theorem Sends.ended (h : Sends s u o) : Sends s u.noteMay.announce o := h.later (State.announce_keeps (State.noteMay_keeps (Keeps.refl _)))

theorem State.setGroup_self (s : State) (k : GrpId) : s.setGroup k (s.group k) = s := by
  unfold State.setGroup State.group
  rw [show s.groups.set k s.groups[k] = s.groups from Vector.set_getElem_self _]

theorem State.advance_grpReg (s : State) (r : DWord) (k : GrpId) (q : GrpReg) : (s.advance r).reg (.grp k q) = s.reg (.grp k q) :=
  s.advance_reg r (show blockOf (.grp k q) ≠ .fn from nofun)

theorem State.advance_traverse (s : State) (r : DWord) (k : GrpId) : (s.advance r).traverse k = s.traverse k :=
  congrArg (bit · 0) (s.advance_grpReg r k .cfg)

theorem State.members_congr (h : u.reg (.grp k .members) = s.reg (.grp k .members)) : u.members k = s.members k := by
  unfold State.members State.rb
  rw [h]

theorem State.advance_members (s : State) (r : DWord) (k : GrpId) : (s.advance r).members k = s.members k :=
  State.members_congr (s.advance_grpReg r k .members)

theorem State.drivenBranches_congr (h : ∀ c, (u.branch k c).state = (s.branch k c).state) : u.drivenBranches k = s.drivenBranches k := by
  refine List.filter_congr fun c _ => ?_
  have hc := h c
  unfold State.branch at hc
  rw [hc]

theorem State.driveOthers_sends (s : State) (k : GrpId) (b : Branch) :
    Sends s (s.driveOthers k b) (.relay k b (joinedMask ((s.drivenBranches k).filter (fun j => decide (j ≠ b))))) :=
  ⟨[_], rfl, List.mem_singleton.2 rfl⟩

/-- Time has come to a start of frame on the branch, which is not ignored any more (R258). -/
def State.sofSeen (s : State) (k : GrpId) (b : Branch) (sof : DWord) : State :=
  (s.advance sof).setBranch k b { (s.advance sof).branch k b with ignored := false }

theorem State.group_sofSeen (s : State) (k : GrpId) (b : Branch) (sof : DWord) :
    (s.sofSeen k b sof).group k = { s.group k with branches := (s.group k).branches.set b { s.branch k b with ignored := false } } := by
  rw [State.sofSeen, State.group_setBranch, State.advance_group, State.advance_branch]

theorem State.branch_sofSeen (s : State) (k : GrpId) (b : Branch) (sof : DWord) :
    (s.sofSeen k b sof).branch k b = { s.branch k b with ignored := false } := by
  rw [State.sofSeen, State.branch_setBranch_same, State.advance_branch]

theorem State.drivenBranches_sofSeen (s : State) (k : GrpId) (b : Branch) (sof : DWord) :
    (s.sofSeen k b sof).drivenBranches k = s.drivenBranches k := by
  refine State.drivenBranches_congr fun c => ?_
  by_cases hc : c = b
  · rw [hc, State.branch_sofSeen]
  · rw [State.sofSeen, State.branch_setBranch_other _ _ _ hc, State.advance_branch]

theorem State.reg_sofSeen (s : State) (k : GrpId) (b : Branch) (sof : DWord) {r : Reg} (h : blockOf r ≠ .fn) :
    (s.sofSeen k b sof).reg r = s.reg r := s.advance_reg sof h

theorem State.sofSeen_keeps (s : State) (k : GrpId) (b : Branch) (sof : DWord) : Keeps false s (s.sofSeen k b sof) :=
  State.setBranch_keeps (State.advance_keeps (Keeps.refl s))

/-- The start of frame as the star takes it, at the corrected instant (R237). -/
def State.sofFrame (s : State) (k : GrpId) (b : Branch) (sof : DWord) (dom : BitVec 16) : StarFrame :=
  { branch := b, sof := sof - BitVec.ofNat 64 (s.rf (.port (s.anchor k) .rxdly) 0 16), dominant := dom }

theorem State.sofFrame_sofSeen (s : State) (k : GrpId) (b : Branch) (sof : DWord) (dom : BitVec 16) :
    (s.sofSeen k b sof).sofFrame k b sof dom = s.sofFrame k b sof dom := by
  have hmembers : (s.sofSeen k b sof).members k = s.members k := s.advance_members sof k
  unfold State.sofFrame State.anchor State.rf
  rw [hmembers, s.reg_sofSeen k b sof (show blockOf (.port ((s.members k).headD 0) .rxdly) ≠ .fn from nofun)]

theorem starSof_exec {sof : DWord} {ident : BitVec 29} {ide : Bool} {dom : BitVec 16} (hstop : (s.group k).state ≠ .stopped)
    (hst : (s.branch k b).state = .joined) (hidle : s.joinedIdle k = true) :
    exec (.starSof k b sof ident ide dom) s = finish (s.starSofOp k b sof ident.toNat ide dom) := by
  change execStarSof k b sof ident ide dom s = _
  unfold execStarSof
  rw [if_neg (by simp [hstop, hst]), if_pos hidle]

/-! ### A star without a schedule relays (R231, R256) -/

theorem State.starSofOp_plain {sof : DWord} {ident : Nat} {ide : Bool} {dom : BitVec 16} (htrav : s.traverse k = false) :
    s.starSofOp k b sof ident ide dom = (s.sofSeen k b sof).relay k (s.sofFrame k b sof dom) := by
  have hkept : (s.sofSeen k b sof).traverse k = false := (s.advance_traverse sof k).trans htrav
  rw [← s.sofFrame_sofSeen k b sof dom]
  exact if_pos (congrArg not hkept)

theorem starSof_relays {sof : DWord} {ident : BitVec 29} {ide : Bool} {dom : BitVec 16} (hstop : (s.group k).state ≠ .stopped)
    (hst : (s.branch k b).state = .joined) (hidle : s.joinedIdle k = true) (htrav : s.traverse k = false) :
    Does (.starSof k b sof ident ide dom) s fun t => Sends s t (.relay k b (joinedMask ((s.drivenBranches k).filter (fun j => decide (j ≠ b))))) ∧
      (∃ f, (t.group k).frame = some f ∧ f.branch = b) ∧ (t.branch k b).state = .joined ∧ (t.branch k b).total = (s.branch k b).total ∧
      SameRegs (s.advance sof) t := by
  let f := s.sofFrame k b sof dom
  let v : State := (s.sofSeen k b sof).setGroup k { (s.sofSeen k b sof).group k with frame := some f }
  have he : exec (.starSof k b sof ident ide dom) s = finish (v.driveOthers k b) := by
    rw [starSof_exec hstop hst hidle, State.starSofOp_plain htrav]
    rfl
  have hgroup : v.group k = { (s.sofSeen k b sof).group k with frame := some f } := State.group_setGroup_same _ _ _
  have hbranch : ∀ c, v.branch k c = (s.sofSeen k b sof).branch k c := fun c => by rw [State.branch, hgroup, State.branch]
  have hdriven : v.drivenBranches k = s.drivenBranches k :=
    (State.drivenBranches_congr fun c => by rw [hbranch]).trans (s.drivenBranches_sofSeen k b sof)
  have hsent := v.driveOthers_sends k b
  rw [hdriven] at hsent
  have hend : (v.driveOthers k b).noteMay.announce.branch k b = { s.branch k b with ignored := false } := by
    rw [State.branch_ended, ← s.branch_sofSeen k b sof, ← hbranch]
    rfl
  refine .of_finish he ⟨(hsent.of_mid (State.setGroup_keeps (s.sofSeen_keeps k b sof))).ended, ⟨f, ?_, rfl⟩, ?_, ?_, SameRegs.of_regs rfl⟩
  · rw [State.announce_group, State.noteMay_group]
    exact congrArg Group.frame hgroup
  · rw [hend]
    exact hst
  · rw [hend]

/-- Every further level of a joined branch belongs to the frame in progress (R231, R256). -/
theorem starSof_joinsFrame {sof : DWord} {ident : BitVec 29} {ide : Bool} {dom : BitVec 16} (hstop : (s.group k).state ≠ .stopped)
    (hst : (s.branch k b).state = .joined) (hidle : s.joinedIdle k = false) :
    Does (.starSof k b sof ident ide dom) s fun t => Sends s t (.relay k b (joinedMask ((s.drivenBranches k).filter (fun j => decide (j ≠ b))))) ∧
      (∃ f, (t.group k).frame = some f ∧ ((s.group k).frame = none → f.branch = b)) ∧ (t.branch k b) = s.branch k b ∧ t.ports = s.ports ∧
      SameRegs s t := by
  obtain ⟨f, hnew, hjoin⟩ : ∃ f : StarFrame, ((s.group k).frame = none → f.branch = b) ∧
      s.joinFrame k b (sof - BitVec.ofNat 64 (s.rf (.port (s.anchor k) .rxdly) 0 16)) dom =
        (s.setGroup k { s.group k with frame := some f }).driveOthers k b := by
    refine ⟨_, ?_, rfl⟩
    intro hnone
    rw [hnone]
  let v : State := s.setGroup k { s.group k with frame := some f }
  have he : exec (.starSof k b sof ident ide dom) s = finish (v.driveOthers k b) := by
    change execStarSof k b sof ident ide dom s = _
    unfold execStarSof
    rw [if_neg (by simp [hstop, hst]), if_neg (by simp [hidle]), hjoin]
  have hgroup : v.group k = { s.group k with frame := some f } := State.group_setGroup_same _ _ _
  have hbranch : ∀ c, v.branch k c = s.branch k c := fun c => by rw [State.branch, hgroup, State.branch]
  have hsent := v.driveOthers_sends k b
  rw [State.drivenBranches_congr (s := s) fun c => by rw [hbranch]] at hsent
  refine .of_finish he ⟨(hsent.of_mid (State.setGroup_keeps (Keeps.refl s))).ended, ⟨f, ?_, hnew⟩, ?_, State.ports_ended _, SameRegs.of_regs rfl⟩
  · rw [State.announce_group, State.noteMay_group]
    exact congrArg Group.frame hgroup
  · rw [State.branch_ended]
    exact hbranch b

end sof

/-! ### Violations (R257, R259, R260) -/

section violations
variable {s u : State} {k : GrpId} {b c : Branch} {kind : Nat}

/-- The violation is counted against the branch. -/
def State.violated (s : State) (k : GrpId) (kind : Nat) (b : Branch) : State :=
  (s.setBranch k b { s.branch k b with recent := raiseRecent (s.branch k b).recent, total := (s.branch k b).total + 1, kind := kind }).grpEvt k 2

/-- A violation is counted, and may isolate its branch. -/
theorem State.violation_cases (s : State) (k : GrpId) (kind : Nat) (b : Branch) :
    s.violation k kind b = s.violated k kind b ∨ s.violation k kind b = (s.violated k kind b).isolate k b kind := by
  unfold State.violation
  dsimp only
  split
  · exact .inr rfl
  · exact .inl rfl

theorem State.group_violated (s : State) (k : GrpId) (kind : Nat) (b : Branch) : (s.violated k kind b).group k = { s.group k with
    branches := (s.group k).branches.set b
      { s.branch k b with recent := raiseRecent (s.branch k b).recent, total := (s.branch k b).total + 1, kind := kind } } := by
  rw [State.violated, State.group_grpEvt, State.group_setBranch]

theorem State.branch_violated (s : State) (k : GrpId) (kind : Nat) (b : Branch) : (s.violated k kind b).branch k b =
    { s.branch k b with recent := raiseRecent (s.branch k b).recent, total := (s.branch k b).total + 1, kind := kind } := by
  rw [State.violated, State.branch_grpEvt, State.branch_setBranch_same]

theorem State.branch_violated_other (s : State) (k : GrpId) (kind : Nat) (h : c ≠ b) : (s.violated k kind b).branch k c = s.branch k c := by
  rw [State.violated, State.branch_grpEvt, State.branch_setBranch_other _ _ _ h]

theorem State.violation_counts (s : State) (k : GrpId) (kind : Nat) (b : Branch) :
    ((s.violation k kind b).branch k b).total = (s.branch k b).total + 1 ∧ ((s.violation k kind b).branch k b).kind = kind := by
  rcases s.violation_cases k kind b with h | h
  · rw [h, State.branch_violated]
    exact ⟨rfl, rfl⟩
  · rw [h, State.branch_isolate_same, State.branch_violated]
    exact ⟨rfl, rfl⟩

theorem State.violation_evt (s : State) (k : GrpId) (kind : Nat) (b : Branch) : (s.violation k kind b).rb (.grp k .evt) 2 = true := by
  have hset : bit ((s.violated k kind b).reg (.grp k .evt)) 2 = true := by
    rw [State.violated, State.reg_grpEvt_same]
    exact bit_setBit_self _ (by decide)
  rcases s.violation_cases k kind b with h | h
  · rw [h]
    exact hset
  · rw [h, State.rb, State.reg_isolate_evt]
    exact bit_setBit_of_bit 0 (by decide) (bit_setBit_of_bit 1 (by decide) hset)

/-- A violation lets no ignored branch be heard again. -/
theorem State.violation_ignored (s : State) (k : GrpId) (kind : Nat) (b c : Branch) :
    ((s.violation k kind b).branch k c).ignored = (s.branch k c).ignored := by
  have hcount : ((s.violated k kind b).branch k c).ignored = (s.branch k c).ignored := by
    by_cases hc : c = b
    · rw [hc, State.branch_violated]
    · rw [State.branch_violated_other _ _ _ hc]
  rcases s.violation_cases k kind b with h | h
  · rw [h, hcount]
  · rw [h, ← hcount]
    by_cases hc : c = b
    · rw [hc, State.branch_isolate_same]
    · rw [State.branch_isolate_other _ _ _ hc]

theorem State.violation_promoteCnt (s : State) (k : GrpId) (kind : Nat) (b : Branch) :
    ((s.violation k kind b).group k).promoteCnt = (s.group k).promoteCnt := by
  rcases s.violation_cases k kind b with h | h
  · rw [h, State.group_violated]
  · rw [h, State.group_isolate, State.group_violated]

theorem State.violation_noFrame (h : (s.group k).frame = none) (kind : Nat) (b : Branch) : ((s.violation k kind b).group k).frame = none := by
  rcases s.violation_cases k kind b with hv | hv
  · rw [hv, State.group_violated]
    exact h
  · rw [hv, State.group_isolate, State.group_violated]
    dsimp only
    rw [h]
    rfl

/-- The group after a cut: no frame in progress, no count to promotion, and the branch of the frame ignored (R245, R258). -/
structure CutShort (s : State) (k : GrpId) (b : Branch) : Prop where
  frame : (s.group k).frame = none
  count : (s.group k).promoteCnt = 0
  ignored : (s.branch k b).ignored = true

theorem CutShort.violation (h : CutShort s k b) (kind : Nat) (c : Branch) : CutShort (s.violation k kind c) k b :=
  ⟨State.violation_noFrame h.frame kind c, (s.violation_promoteCnt k kind c).trans h.count, (s.violation_ignored k kind c b).trans h.ignored⟩

theorem CutShort.violations (h : CutShort s k b) (kind : Nat) (m : BitVec 16) : CutShort (s.violations k kind m) k b := by
  unfold State.violations
  generalize (s.joinedBranches k).filter _ = l
  induction l generalizing s with
  | nil => exact h
  | cons c l ih => exact ih (h.violation kind c)

end violations

/-! ### A start of frame outside every window (R257) -/

section windows
variable {s u : State} {k : GrpId} {b : Branch}

/-- Of device time, an instant that is reached changes the raw counter alone. -/
theorem State.advance_tmu (s : State) (r : DWord) : ∃ x, (s.advance r).tmu = { s.tmu with raw := x } := by
  have hsettle : ∀ v : State, v.settle.tmu = v.tmu := fun v => by
    have h : Only [.counts, .free, .funcs, .halves, .objs, .out, .ports, .regs .fn, .rings] v v.settle := by
      apply State.settle_only (Only.refl v) <;> decide
    exact h.2 .tmu (by decide)
  rw [State.advance_eq]
  split
  · refine ⟨r, ?_⟩
    split
    · rw [State.setRaw, hsettle]
      rfl
    · rfl
  · exact ⟨s.tmu.raw, rfl⟩

theorem State.advance_timeAt (s : State) (r x : DWord) : (s.advance r).timeAt x = s.timeAt x := by
  obtain ⟨y, hy⟩ := s.advance_tmu r
  rw [State.timeAt, hy]
  rfl

theorem State.advance_flow (s : State) (r x : DWord) : (s.advance r).flow x = s.flow x := by
  obtain ⟨y, hy⟩ := s.advance_tmu r
  rw [State.flow, State.advance_timeAt, hy]
  rfl

/-- The window of an instant is found from the group's registers, its table, its present cycle and device time (R255). -/
theorem State.windowOf_congr (hreg : ∀ q, u.reg (.grp k q) = s.reg (.grp k q)) (hflow : ∀ x, u.flow x = s.flow x)
    (htable : (u.group k).table = (s.group k).table) (hat : (u.group k).cycleAt = (s.group k).cycleAt) (hrho : (u.group k).rho = (s.group k).rho)
    (hrole : (u.group k).role = (s.group k).role) (x : DWord) : u.windowOf k x = s.windowOf k x := by
  have hcycle : u.cycleNs k = s.cycleNs k := congrArg (fld · 0 30) (hreg .cycle)
  have hscaled : ∀ n, u.scaled k n = s.scaled k n := fun n => by
    unfold State.scaled
    rw [hrho, hrole, hcycle]
  have htime : ∀ m, u.cycleTime k m x = s.cycleTime k m x := fun m => by
    unfold State.cycleTime State.cycleLen State.elapsed
    rw [hat, hcycle, hscaled, hflow, hflow]
  have hguard : u.guardNs k = s.guardNs k := congrArg (fld · 0 17) (hreg .guardBand)
  have hslot : ∀ e, u.inSlotWindow k e x = s.inSlotWindow k e x := fun e => by
    unfold State.inSlotWindow
    rw [hguard, htime, hscaled, hscaled]
  simp only [State.windowOf, State.slots, State.rf, State.slotAt, hreg, htable, hslot]

theorem State.windowOf_sofSeen (s : State) (k : GrpId) (b : Branch) (sof x : DWord) : (s.sofSeen k b sof).windowOf k x = s.windowOf k x := by
  have hgroup := s.group_sofSeen k b sof
  exact State.windowOf_congr (fun _ => s.reg_sofSeen k b sof nofun) (s.advance_flow sof) (by rw [hgroup]) (by rw [hgroup]) (by rw [hgroup])
    (by rw [hgroup]) x

/-- A reference start of frame that appears is noted in the group alone (R269). -/
theorem State.noteRefSof_eq (s : State) (k : GrpId) (b : Branch) (sof : DWord) (ident : Nat) (ide : Bool) :
    ∃ x y, s.noteRefSof k b sof ident ide = s.setGroup k { s.group k with refSof := x, nextRefSof := y } := by
  unfold State.noteRefSof
  dsimp only
  split
  · exact ⟨_, _, (s.setGroup_self k).symm⟩
  · split
    · exact ⟨_, _, rfl⟩
    · exact ⟨_, _, rfl⟩

theorem State.branch_noteRefSof (s : State) (k : GrpId) (b c : Branch) (sof : DWord) (ident : Nat) (ide : Bool) :
    (s.noteRefSof k b sof ident ide).branch k c = s.branch k c := by
  obtain ⟨x, y, h⟩ := s.noteRefSof_eq k b sof ident ide
  rw [h, State.branch, State.group_setGroup_same, State.branch]

theorem State.reg_noteRefSof (s : State) (k : GrpId) (b : Branch) (sof : DWord) (ident : Nat) (ide : Bool) (r : Reg) :
    (s.noteRefSof k b sof ident ide).reg r = s.reg r := by
  obtain ⟨x, y, h⟩ := s.noteRefSof_eq k b sof ident ide
  rw [h]
  rfl

theorem State.starSofOp_outside {sof : DWord} {ident : Nat} {ide : Bool} {dom : BitVec 16} (htrav : s.traverse k = true)
    (hsched : scheduled (s.group k) = true) (hwin : (s.group k).windows = true)
    (hnone : s.windowOf k (sof - BitVec.ofNat 64 (s.rf (.port (s.anchor k) .rxdly) 0 16)) = none) :
    s.starSofOp k b sof ident ide dom = (((s.sofSeen k b sof).violation k 1 b).ignoreBranch k b).noteRefSof k b (s.sofFrame k b sof dom).sof ident ide := by
  have hkept : (s.sofSeen k b sof).traverse k = true := (s.advance_traverse sof k).trans htrav
  have hgroup := s.group_sofSeen k b sof
  have hon : scheduled ((s.sofSeen k b sof).group k) = true := by rw [hgroup]; exact hsched
  have hout : (s.sofSeen k b sof).scheduledSof k (s.sofFrame k b sof dom) ident ide = ((s.sofSeen k b sof).violation k 1 b).ignoreBranch k b := by
    unfold State.scheduledSof
    rw [if_neg (by simp [hgroup, hwin]), show (s.sofSeen k b sof).windowOf k (s.sofFrame k b sof dom).sof = none from
      (s.windowOf_sofSeen k b sof _).trans hnone]
    rfl
  rw [← hout, ← s.sofFrame_sofSeen k b sof dom]
  exact (if_neg fun h => Bool.false_ne_true ((congrArg not hkept).symm.trans h)).trans (if_pos hon)

theorem starSof_violates {sof : DWord} {ident : BitVec 29} {ide : Bool} {dom : BitVec 16} (hstop : (s.group k).state ≠ .stopped)
    (hst : (s.branch k b).state = .joined) (hidle : s.joinedIdle k = true) (htrav : s.traverse k = true) (hsched : scheduled (s.group k) = true)
    (hwin : (s.group k).windows = true) (hnone : s.windowOf k (sof - BitVec.ofNat 64 (s.rf (.port (s.anchor k) .rxdly) 0 16)) = none) :
    Does (.starSof k b sof ident ide dom) s fun t => (t.branch k b).ignored = true ∧ (t.branch k b).kind = 1 ∧
      (t.branch k b).total = (s.branch k b).total + 1 ∧ t.rb (.grp k .evt) 2 = true := by
  let v : State := (s.sofSeen k b sof).violation k 1 b
  have he := (starSof_exec (dom := dom) (ident := ident) (ide := ide) (sof := sof) hstop hst hidle).trans
    (congrArg finish (State.starSofOp_outside htrav hsched hwin hnone))
  obtain ⟨htotal, hkind⟩ := (s.sofSeen k b sof).violation_counts k 1 b
  rw [State.branch_sofSeen] at htotal
  refine .of_finish he ?_
  rw [State.branch_ended, State.branch_noteRefSof, State.ignoreBranch, State.branch_setBranch_same]
  refine ⟨rfl, hkind, htotal, ?_⟩
  rw [State.rb_ended, State.rb, State.reg_noteRefSof]
  exact (s.sofSeen k b sof).violation_evt k 1 b

end windows

/-! ### A frame is cut when its window closes (R257, R258) -/

section cut
variable {s u : State} {k : GrpId} {b : Branch}

/-- Outputs that leave one after another, none of which depends on those before it. -/
theorem State.foldl_emit {α : Type} (o : State → α → Output) (ho : ∀ v l x, o { v with out := l } x = o v x) (s : State) (l : List α) :
    l.foldl (fun s x => s.emit (o s x)) s = { s with out := s.out ++ l.map (o s) } := by
  induction l generalizing s with
  | nil => rw [List.foldl_nil, List.map_nil, List.append_nil]
  | cons x l ih =>
    have hsame : o (s.emit (o s x)) = o s := funext fun y => ho s _ y
    rw [List.foldl_cons, ih, List.map_cons, hsame]
    simp [State.emit]

/-- The active error flags of a cut, on every joined branch (R258). -/
def State.cutFlags (s : State) (k : GrpId) : List Output := (s.joinedBranches k).map (fun j => .errorFlag ((s.members k).getD j.val 0) true)

theorem State.cutFrame_eq (s : State) (k : GrpId) (b : Branch) :
    s.cutFrame k b = (({ s with out := s.out ++ s.cutFlags k } : State).refError k).ignoreBranch k b := by
  have h := State.foldl_emit (fun (v : State) (j : Branch) => Output.errorFlag ((v.members k).getD j.val 0) true) (fun _ _ _ => rfl) s (s.joinedBranches k)
  exact congrArg (fun v : State => (v.refError k).ignoreBranch k b) h

/-- An error frame on the joined bus ends the frame in progress and the count to promotion (R245). -/
theorem State.refError_eq (s : State) (k : GrpId) : ∃ g, s.refError k = s.setGroup k g ∧ g.frame = none ∧ g.promoteCnt = 0 := by
  unfold State.refError
  dsimp only
  refine ⟨_, rfl, ?_⟩
  split
  · exact ⟨rfl, rfl⟩
  · exact ⟨rfl, rfl⟩

theorem State.cutFrame_cutShort (s : State) (k : GrpId) (b : Branch) : CutShort (s.cutFrame k b) k b := by
  obtain ⟨g, hg, hframe, hcount⟩ := ({ s with out := s.out ++ s.cutFlags k } : State).refError_eq k
  rw [State.cutFrame_eq, hg, State.ignoreBranch]
  refine ⟨?_, ?_, by rw [State.branch_setBranch_same]⟩
  · rw [State.group_setBranch, State.group_setGroup_same]
    exact hframe
  · rw [State.group_setBranch, State.group_setGroup_same]
    exact hcount

theorem State.cutFrame_sends (s : State) (k : GrpId) (b : Branch) {o : Output} (h : o ∈ s.cutFlags k) : Sends s (s.cutFrame k b) o := by
  obtain ⟨g, hg, -, -⟩ := ({ s with out := s.out ++ s.cutFlags k } : State).refError_eq k
  rw [State.cutFrame_eq, hg]
  exact ⟨_, rfl, h⟩

theorem State.advance_cutFlags (s : State) (r : DWord) (k : GrpId) : (s.advance r).cutFlags k = s.cutFlags k := by
  unfold State.cutFlags State.joinedBranches
  rw [State.advance_group, State.advance_members]

theorem windowCloseCut_cuts {f : StarFrame} {r : DWord} (hframe : (s.group k).frame = some f) (hclose : f.close = some r)
    (hsched : scheduled (s.group k) = true) :
    Does (.windowCloseCut k) s fun t => (t.group k).frame = none ∧ (t.group k).promoteCnt = 0 ∧ (t.branch k f.branch).ignored = true ∧
      ∀ j ∈ s.joinedBranches k, Sends s t (.errorFlag ((s.members k).getD j.val 0) true) := by
  let v : State := (s.advance r).cutFrame k f.branch
  have he : exec (.windowCloseCut k) s = finish (v.violations k 4 f.dominant) := by
    change execWindowCloseCut k s = _
    unfold execWindowCloseCut
    rw [hframe]
    dsimp only
    rw [hclose]
    exact if_pos hsched
  have hcut : CutShort (v.violations k 4 f.dominant) k f.branch := ((s.advance r).cutFrame_cutShort k f.branch).violations 4 f.dominant
  refine .of_finish he ⟨?_, ?_, ?_, fun j hj => ?_⟩
  · rw [State.announce_group, State.noteMay_group, hcut.frame]
  · rw [State.announce_group, State.noteMay_group, hcut.count]
  · rw [State.branch_ended, hcut.ignored]
  · have hflag : Output.errorFlag ((s.members k).getD j.val 0) true ∈ (s.advance r).cutFlags k := by
      rw [State.advance_cutFlags]
      exact List.mem_map_of_mem hj
    have hsent := ((s.advance r).cutFrame_sends k f.branch hflag).of_mid (State.advance_keeps (Keeps.refl s))
    exact (hsent.later (State.violations_keeps (Keeps.refl v))).ended

end cut

/-- Settles O40: a relay and a violation set the group alone, after time has come to the start of frame; what a cut clears of its group, the violations
that follow leave cleared. -/
theorem starWindows : Obligations.StarWindows := by
  unfold Obligations.StarWindows
  exact ⟨fun _ _ _ _ _ _ _ hstop hst hidle htrav => starSof_relays hstop hst hidle htrav,
    fun _ _ _ _ _ _ _ hstop hst hidle htrav hsched hwin hnone => starSof_violates hstop hst hidle htrav hsched hwin hnone,
    fun _ _ _ _ hframe hclose hsched => windowCloseCut_cuts hframe hclose hsched,
    fun _ _ _ _ _ _ _ hstop hst hidle => starSof_joinsFrame hstop hst hidle⟩

end Sys2Proof.Machine

namespace Sys2Proof.Machine

/-! ### Commands of a group (R28, R243) -/

section groupCommand
variable {s u v w : State} {d : Dom} {k : GrpId} {b c : Branch} {p : PortId} {g : Group}

/-- A write of GRPk_CMD by the domain that holds the group is carried out, where no record holds it back (R28). -/
theorem State.writeGroupCmd_eq (hwrite : Writes s d (s.grpOwner k)) (hfree : s.heldBack (s.namesGroup k) = false) (x : Word) :
    s.writeGroupCmd d k x = finish (s.groupCommand k x) := by
  obtain ⟨hserves, hactive, howner⟩ := hwrite
  unfold State.writeGroupCmd State.ownedWrite
  rw [if_neg (by simp [hserves, State.present_of_active hactive]), if_pos ⟨howner, hactive⟩]
  change finish (s.groupRequest d k x) = _
  unfold State.groupRequest
  rw [if_neg (by simp [hfree])]

/-- GRPk_CMD of a REJOIN carries the branch above the code (R243). -/
theorem State.groupCommand_rejoin (s : State) (k : GrpId) (b : Branch) : s.groupCommand k (BitVec.ofNat 32 (3 + 16 * b.val)) = s.rejoinCmd k b := by
  have hvalue : (BitVec.ofNat 32 (3 + 16 * b.val)).toNat = 3 + 16 * b.val := by
    rw [BitVec.toNat_ofNat]
    omega
  have hbranch : fin 16 ((3 + 16 * b.val) / 16) = b := by
    ext
    simp only [fin, Fin.ofNat]
    omega
  unfold State.groupCommand
  rw [hvalue, show (3 + 16 * b.val) % 16 = 3 by omega]
  exact congrArg (s.rejoinCmd k) hbranch

/-- What changes no register of a group leaves its members, and with them its anchor. -/
theorem Only.members {ps : List Part} (h : Only ps s u) (hr : Part.regs .grp ∉ ps) (k : GrpId) : u.members k = s.members k :=
  State.members_congr (h.2 (.regs .grp) hr _ rfl)

theorem State.anchor_congr (h : u.members k = s.members k) : u.anchor k = s.anchor k := by
  rw [State.anchor, h, State.anchor]

theorem State.showPort_other (s : State) (p : PortId) (x : Port) {q : PortId} (h : q ≠ p) : (s.showPort p x).port q = s.port q := by
  obtain ⟨w, hw⟩ := PortBecomes.shown s p x
  rw [State.port, hw.ports]
  exact State.port_setPort_other s p q x h

/-- The anchor is the first of the members, and no other. -/
theorem State.anchor_not_mem_drop (s : State) (k : GrpId) : s.anchor k ∉ (s.members k).drop 1 := by
  have hnodup : (s.members k).Nodup := (List.nodup_finRange 32).filter _
  unfold State.anchor
  cases hl : s.members k with
  | nil => exact List.not_mem_nil
  | cons a l =>
    rw [hl] at hnodup
    exact (List.nodup_cons.1 hnodup).1

/-- The members that follow the group are those other than its anchor (R230). -/
theorem State.syncMembers_anchor (s : State) (k : GrpId) : (s.syncMembers k).port (s.anchor k) = s.port (s.anchor k) := by
  have hnot : ∀ e ∈ (s.members k).zipIdx.drop 1, s.anchor k ≠ e.1 := fun e he heq => by
    refine s.anchor_not_mem_drop k ?_
    have hmem := List.mem_map_of_mem (f := Prod.fst) he
    rwa [List.map_drop, List.zipIdx_map_fst, ← heq] at hmem
  unfold State.syncMembers
  generalize s.anchor k = a at hnot
  generalize (s.members k).zipIdx.drop 1 = l at hnot
  induction l generalizing s with
  | nil => rfl
  | cons e l ih =>
    rw [List.foldl_cons, ih _ fun e' he' => hnot e' (List.mem_cons_of_mem _ he')]
    dsimp only
    split
    · exact State.showPort_other _ _ _ (hnot e List.mem_cons_self)
    · exact State.showPort_other _ _ _ (hnot e List.mem_cons_self)

/-- A group that passes to a state leaves its anchor's port (R230). -/
theorem State.groupGoes_anchor (s : State) (k : GrpId) (g : Group) : (s.groupGoes k g).port (s.anchor k) = s.port (s.anchor k) := by
  unfold State.groupGoes
  extract_lets old v w
  have hw : w.members k = s.members k ∧ w.ports = s.ports := by
    unfold w
    split
    · exact ⟨rfl, rfl⟩
    · exact ⟨State.members_congr (State.reg_grpEvt_other v k 0 (show Reg.grp k .members ≠ .grp k .evt from nofun)), rfl⟩
  have hsync := w.syncMembers_anchor k
  rw [State.anchor_congr hw.1] at hsync
  rw [hsync, State.port, hw.2, State.port]

/-! ### START of a group (R238, R244, R245) -/

/-- A group whose checks pass has no anchor in TEST mode (R238). -/
theorem State.testMode_of_groupCode (h : s.groupCode k = 0) : s.testMode (s.anchor k) = 0 := by
  by_contra hmode
  have hfails : (decide (s.startCode (s.anchor k) ≠ 0) || decide (s.testMode (s.anchor k) ≠ 0)) = true := by simp [hmode]
  unfold State.groupCode at h
  dsimp only at h
  rw [if_pos hfails] at h
  split_ifs at h

theorem State.portGoes_state (s : State) (p : PortId) : ((s.portGoes p).port p).state =
    if (s.spur.attached[p]).isNone then .isolated else if s.testMode p = 0 then .startup else .test := by
  unfold State.portGoes
  extract_lets x st lost
  obtain ⟨w, hw⟩ := PortBecomes.shown s p _
  rw [hw.port]

/-- A group that goes to JOINING, as far as the statements ask: its branches join afresh, or are OUT (R244, R245). -/
structure GroupStarts (g : Group) : Prop where
  state : g.state = .joining
  windows : g.windows = false
  count : g.promoteCnt = 0
  branches : ∀ b : Branch, (g.branches[b]).state = .joining ∨ (g.branches[b]).state = .out

theorem State.groupGoesLive_eq (s : State) (k : GrpId) :
    ∃ g, s.groupGoesLive k = (s.portGoes (s.anchor k)).groupGoes k g ∧ GroupStarts g := by
  refine ⟨_, rfl, rfl, rfl, rfl, fun b => ?_⟩
  simp only [Fin.getElem_fin, Vector.getElem_ofFn]
  split
  · exact .inl rfl
  · exact .inr rfl

theorem groupStart_joins (hwrite : Writes s d (s.grpOwner k)) (hfree : s.heldBack (s.namesGroup k) = false) (hstop : (s.group k).state = .stopped)
    (hcode : s.groupCode k = 0) :
    Does (.groupStart d k) s fun t => (t.group k).state = .joining ∧ (t.group k).windows = false ∧ (t.group k).promoteCnt = 0 ∧
      (∀ b : Branch, ((t.group k).branches[b]).state = .joining ∨ ((t.group k).branches[b]).state = .out) ∧
      ((s.spur.attached[s.anchor k]).isSome = true → (t.port (s.anchor k)).state = .startup) ∧
      ((s.spur.attached[s.anchor k]).isSome = false → (t.port (s.anchor k)).state = .isolated) ∧
      t.rb (.grp k .evt) 0 = true ∧ ∀ j, j ≠ k → t.group j = s.group j := by
  obtain ⟨g, hlive, hg⟩ := s.groupGoesLive_eq k
  let v : State := s.portGoes (s.anchor k)
  have hv : Only [.ports, .regs .port] s v := by apply State.portGoes_only (Only.refl s) <;> decide
  have hgroups : ∀ j, v.group j = s.group j := fun j => by rw [State.group, hv.2 .groups (by decide), State.group]
  have he : exec (.groupStart d k) s = finish (v.groupGoes k g) := by
    change s.writeGroupCmd d k 1 = _
    rw [State.writeGroupCmd_eq hwrite hfree]
    change finish (s.startGroupCmd k) = _
    unfold State.startGroupCmd
    rw [if_neg (by simp [hstop]), if_pos hcode, hlive]
  have hanchor := v.groupGoes_anchor k g
  rw [State.anchor_congr (hv.members (by decide) k)] at hanchor
  have hport : (((v.groupGoes k g).noteMay.announce).port (s.anchor k)).state =
      if (s.spur.attached[s.anchor k]).isNone then .isolated else .startup := by
    rw [State.announce_port, State.noteMay_port, hanchor, State.portGoes_state, if_pos (State.testMode_of_groupCode hcode)]
  obtain ⟨hgroup, hothers⟩ := (groupGoes_becomes v k g).left
  have hevt : (v.group k).state ≠ g.state := by simp [hgroups, hstop, hg.state]
  refine .of_finish he ?_
  rw [hgroup, hport]
  refine ⟨hg.state, hg.windows, hg.count, hg.branches, fun h => ?_, fun h => ?_, ?_, fun j hj => (hothers j hj).trans (hgroups j)⟩
  · rw [if_neg (by rw [← Option.not_isSome, h]; decide)]
  · rw [if_pos (by simpa using h)]
  · rw [State.rb_ended, State.rb, groupGoes_evt hevt]
    exact bit_setBit_self _ (by decide)

/-- A START that fails shows its code, and at the anchor the anchor's own, and changes no state (R238). -/
theorem State.groupCfgErr_eq (s : State) (k : GrpId) (code : Nat) : ∃ x : Port, x.state = (s.port (s.anchor k)).state ∧ s.groupCfgErr k code =
    ((s.setPort (s.anchor k) x).setGroup k { s.group k with cfgCode := BitVec.ofNat 8 code }).grpEvt k 5 := by
  unfold State.groupCfgErr
  dsimp only
  split
  · exact ⟨{ s.port (s.anchor k) with cfgCode := BitVec.ofNat 8 (s.startCode (s.anchor k)) }, rfl, rfl⟩
  · exact ⟨s.port (s.anchor k), rfl, by rw [setPort_self]⟩

theorem groupStart_fails (hwrite : Writes s d (s.grpOwner k)) (hfree : s.heldBack (s.namesGroup k) = false) (hstop : (s.group k).state = .stopped)
    (hcode : s.groupCode k ≠ 0) :
    Does (.groupStart d k) s fun t => t.group k = { s.group k with cfgCode := BitVec.ofNat 8 (s.groupCode k) } ∧ t.rb (.grp k .evt) 5 = true ∧
      (∀ p, (t.port p).state = (s.port p).state) ∧ OtherRegs s t [.grp k .evt] := by
  obtain ⟨x, hx, herr⟩ := s.groupCfgErr_eq k (s.groupCode k)
  have he : exec (.groupStart d k) s =
      finish (((s.setPort (s.anchor k) x).setGroup k { s.group k with cfgCode := BitVec.ofNat 8 (s.groupCode k) }).grpEvt k 5) := by
    change s.writeGroupCmd d k 1 = _
    rw [State.writeGroupCmd_eq hwrite hfree]
    change finish (s.startGroupCmd k) = _
    unfold State.startGroupCmd
    rw [if_neg (by simp [hstop]), if_neg hcode, herr]
  refine .of_finish he ⟨?_, ?_, fun p => ?_, .of_reg fun q hq => State.reg_grpEvt_other _ _ _ hq⟩
  · rw [State.announce_group, State.noteMay_group, State.group_grpEvt, State.group_setGroup_same]
  · rw [State.rb_ended, State.rb, State.reg_grpEvt_same]
    exact bit_setBit_self _ (by decide)
  · rw [State.announce_port, State.noteMay_port, State.port_grpEvt]
    change ((s.setPort (s.anchor k) x).port p).state = _
    by_cases hp : p = s.anchor k
    · rw [hp, State.port_setPort_same, hx]
    · rw [State.port_setPort_other _ _ _ _ hp]

/-! ### STOP of a group, and its effect (R106, R126, R245) -/

theorem groupStop_pends (hwrite : Writes s d (s.grpOwner k)) (hfree : s.heldBack (s.namesGroup k) = false) (hlive : (s.group k).state ≠ .stopped) :
    Does (.groupStop d k) s fun t => t.group k = { s.group k with stopPending := true } ∧
      t.port (s.anchor k) = { s.port (s.anchor k) with stopPending := true } ∧ OtherPorts s t (s.anchor k) ∧ SameRegs s t := by
  have he : exec (.groupStop d k) s = finish ((s.setGroup k { s.group k with stopPending := true }).setPort (s.anchor k)
      { s.port (s.anchor k) with stopPending := true }) := by
    change s.writeGroupCmd d k 2 = _
    rw [State.writeGroupCmd_eq hwrite hfree]
    change finish (s.stopGroupCmd k) = _
    unfold State.stopGroupCmd
    exact congrArg finish (if_neg hlive)
  refine .of_finish he ⟨?_, ?_, .of_set rfl, SameRegs.of_regs rfl⟩
  · rw [State.announce_group, State.noteMay_group]
    exact State.group_setGroup_same s k _
  · rw [State.announce_port, State.noteMay_port, State.port_setPort_same]

/-- The group of a port is read from the members' registers and the entries. -/
theorem State.groupOf_congr (hr : ∀ k, u.reg (.grp k .members) = s.reg (.grp k .members)) (hb : u.belay = s.belay) (p : PortId) :
    u.groupOf p = s.groupOf p := by
  have howner : ∀ f, u.ownerBy f = s.ownerBy f := fun f => by simp only [State.ownerBy, State.entry, hb]
  unfold State.groupOf State.rb State.grpOwner State.portOwner
  simp only [hr, howner]

/-- On the way to STOPPED group k keeps its state; of the other groups, of the members and of who owns what nothing changes. -/
structure GroupKept (s u : State) (k : GrpId) : Prop where
  state : (u.group k).state = (s.group k).state
  others : ∀ j, j ≠ k → u.group j = s.group j
  members : ∀ j, u.reg (.grp j .members) = s.reg (.grp j .members)
  belay : u.belay = s.belay

theorem GroupKept.refl (s : State) (k : GrpId) : GroupKept s s k := ⟨rfl, fun _ _ => rfl, fun _ => rfl, rfl⟩

theorem GroupKept.setGroup (h : GroupKept s u k) (hg : g.state = (u.group k).state) : GroupKept s (u.setGroup k g) k :=
  ⟨by rw [State.group_setGroup_same, hg, h.state], fun j hj => (State.group_setGroup_other _ _ _ _ hj).trans (h.others j hj), h.members, h.belay⟩

theorem GroupKept.grpEvt (h : GroupKept s u k) (i : Nat) : GroupKept s (u.grpEvt k i) k :=
  ⟨h.state, h.others, fun j => (u.reg_grpEvt_other k i (show Reg.grp j .members ≠ .grp k .evt from nofun)).trans (h.members j), h.belay⟩

/-- What changes neither groups nor their registers nor the trust layer. -/
theorem GroupKept.only {ps : List Part} (h : GroupKept s u k) (ho : Only ps u v) (hg : Part.groups ∉ ps) (hr : Part.regs .grp ∉ ps)
    (h1 : Part.partition ∉ ps) (h2 : Part.keys ∉ ps) (h3 : Part.otp ∉ ps) (h4 : Part.trust ∉ ps) : GroupKept s v k := by
  have hgroup : ∀ j, v.group j = u.group j := fun j => by rw [State.group, ho.2 .groups hg, State.group]
  exact ⟨by rw [hgroup, h.state], fun j hj => (hgroup j).trans (h.others j hj), fun j => (ho.2 (.regs .grp) hr _ rfl).trans (h.members j),
    (ho.belay_eq h1 h2 h3 h4).trans h.belay⟩

theorem GroupKept.unjoinPair {q : PairId} (h : GroupKept s u k) (hq : s.groupOf (evenPort q) = some k) : GroupKept s (u.unjoinPair q) k := by
  unfold State.unjoinPair
  rw [State.groupOf_congr h.members h.belay, hq]
  dsimp only
  split
  · refine GroupKept.grpEvt (GroupKept.setGroup h ?_) 0
    rfl
  · refine GroupKept.setGroup h ?_
    rfl

theorem GroupKept.withdrawPair {q : PairId} (h : GroupKept s u k) (hq : s.groupOf (evenPort q) = some k) : GroupKept s (u.withdrawPair q) k := by
  unfold State.withdrawPair
  extract_lets v x w
  have hv : GroupKept s v k := by
    unfold v
    split
    · exact h.unjoinPair hq
    · exact h
  have hw : GroupKept s w k := hv.only (Only.pairs (Only.refl v) (List.mem_singleton.2 rfl)) (by decide) (by decide) (by decide) (by decide) (by decide)
    (by decide)
  split
  · exact hw.only (State.portEvt_only (Only.refl w) (List.mem_singleton.2 rfl)) (by decide) (by decide) (by decide) (by decide) (by decide) (by decide)
  · exact hw

/-- The pairs of a group that withdraw leave its own branches only (R135). -/
theorem GroupKept.withdrawPairs (h : GroupKept s u k) : GroupKept s (u.withdrawPairs k) k := by
  unfold State.withdrawPairs
  have hown : ∀ q ∈ (List.finRange 16).filter (fun q => u.inline q && u.groupOf (evenPort q) == some k), s.groupOf (evenPort q) = some k := fun q hq => by
    have hpair := (List.mem_filter.1 hq).2
    rw [State.groupOf_congr h.members h.belay] at hpair
    simp only [Bool.and_eq_true, beq_iff_eq] at hpair
    exact hpair.2
  generalize (List.finRange 16).filter _ = l at hown
  induction l generalizing u with
  | nil => exact h
  | cons q l ih => exact ih (h.withdrawPair (hown q List.mem_cons_self)) fun q' hq' => hown q' (List.mem_cons_of_mem _ hq')

theorem GroupKept.clearGroupHold (h : GroupKept s u k) : GroupKept s (u.clearGroupHold k) k := by
  unfold State.clearGroupHold
  extract_lets g v
  have hv : GroupKept s v k := by
    unfold v
    split
    next o _ =>
      refine h.only (ps := [.counts, .halves, .out, .rings]) ?_ ?_ ?_ ?_ ?_ ?_ ?_
      · apply State.complete_only (Only.refl u) <;> decide
      all_goals decide
    next => exact h
  exact hv.setGroup rfl

/-- The group's hold is cleared, its pairs withdraw, and its anchor is STOPPED (R135, R245, R247). -/
def State.groupHalts (s : State) (k : GrpId) (rank : Nat) : State := ((s.clearGroupHold k).withdrawPairs k).toStopped (s.anchor k) rank

theorem State.groupHalts_kept (s : State) (k : GrpId) (rank : Nat) : GroupKept s (s.groupHalts k rank) k := by
  have h : Only [.counts, .halves, .out, .ports, .regs .port, .rings] ((s.clearGroupHold k).withdrawPairs k) (s.groupHalts k rank) := by
    apply State.toStopped_only (Only.refl _) <;> decide
  exact (GroupKept.refl s k).clearGroupHold.withdrawPairs.only h (by decide) (by decide) (by decide) (by decide) (by decide) (by decide)

theorem State.groupHalts_anchor (s : State) (k : GrpId) (rank : Nat) : ((s.groupHalts k rank).port (s.anchor k)).state = .stopped := by
  obtain ⟨x, w, hb, hx, -⟩ := toStopped_becomes ((s.clearGroupHold k).withdrawPairs k) (s.anchor k) rank
  rw [State.groupHalts, hb.port, hx]

/-- A stopped group, as far as the statements ask (R245). -/
structure GroupStopped (g : Group) : Prop where
  state : g.state = .stopped
  leader : g.leader = 15
  frame : g.frame = none
  pending : g.stopPending = false

theorem State.stopGroup_eq (s : State) (k : GrpId) (rank : Nat) :
    ∃ g, s.stopGroup k rank = (s.groupHalts k rank).groupGoes k g ∧ GroupStopped g := by
  have hanchor : ((s.clearGroupHold k).withdrawPairs k).anchor k = s.anchor k :=
    State.anchor_congr (State.members_congr ((GroupKept.refl s k).clearGroupHold.withdrawPairs.members k))
  unfold State.stopGroup
  dsimp only
  rw [hanchor]
  exact ⟨_, rfl, rfl, rfl, rfl, rfl⟩

theorem State.foldl_portEvt_keepsBit {i : Nat} (hi : i < 64) (l : List PortId) (h : s.rb (.port p .evt) i = true) :
    (l.foldl (fun s q => s.portEvt q i) s).rb (.port p .evt) i = true := by
  induction l generalizing s with
  | nil => exact h
  | cons q l ih =>
    refine ih ?_
    by_cases hq : p = q
    · subst hq
      rw [State.rb, (PortBecomes.raised i).evt]
      exact bit_setBit_self _ hi
    · rw [State.rb, (PortBecomes.raised (p := q) i).regs _ (by simp [hq])]
      exact h

/-- An event of several ports is set in each of them. -/
theorem State.foldl_portEvt_sets {i : Nat} (hi : i < 64) {l : List PortId} (hp : p ∈ l) (s : State) :
    (l.foldl (fun s q => s.portEvt q i) s).rb (.port p .evt) i = true := by
  induction l generalizing s with
  | nil => exact absurd hp List.not_mem_nil
  | cons q l ih =>
    rcases List.mem_cons.1 hp with rfl | hl
    · refine State.foldl_portEvt_keepsBit hi l ?_
      rw [State.rb, (PortBecomes.raised i).evt]
      exact bit_setBit_self _ hi
    · exact ih hl _

/-- REF_LOST of every member where the reference of the group was lost (R106). -/
def State.refLostEvents (u s : State) (k : GrpId) : State :=
  if (s.group k).refStop = true then (s.members k).foldl (fun u p => u.portEvt p 7) u else u

theorem State.refLostEvents_only (u s : State) (k : GrpId) : Only [.regs .port] u (u.refLostEvents s k) := by
  unfold State.refLostEvents
  split
  · exact Only.foldl (Only.refl u) fun _ _ h => State.portEvt_only h (List.mem_singleton.2 rfl)
  · exact Only.refl u

theorem groupStopEffect_stops (hlive : (s.group k).state ≠ .stopped) (hidle : s.joinedIdle k = true)
    (hstop : (s.group k).stopPending = true ∨ (s.group k).refStop = true) :
    Does (.groupStopEffect k) s fun t => (t.group k).state = .stopped ∧ (t.group k).leader = 15 ∧ (t.group k).frame = none ∧
      (t.group k).stopPending = false ∧ (t.port (s.anchor k)).state = .stopped ∧
      ((s.group k).refStop = true → ∀ p ∈ s.members k, t.rb (.port p .evt) 7 = true) ∧ t.rb (.grp k .evt) 0 = true ∧
      ∀ j, j ≠ k → t.group j = s.group j := by
  obtain ⟨g, hgoes, hg⟩ := s.stopGroup_eq k 10
  let v : State := (s.groupHalts k 10).groupGoes k g
  have he : exec (.groupStopEffect k) s = finish (v.refLostEvents s k) := by
    change execGroupStopEffect k s = _
    unfold execGroupStopEffect State.refLostEvents
    dsimp only
    rw [if_neg (by rcases hstop with h | h <;> simp [hlive, hidle, h]), hgoes]
    split <;> rfl
  have hkept := s.groupHalts_kept k 10
  have honly := v.refLostEvents_only s k
  obtain ⟨hgroup, hothers⟩ := ((groupGoes_becomes (s.groupHalts k 10) k g).only honly (by decide) (by decide)).left
  have hanchor := (s.groupHalts k 10).groupGoes_anchor k g
  rw [State.anchor_congr (State.members_congr (hkept.members k))] at hanchor
  refine .of_finish he ?_
  rw [hgroup]
  refine ⟨hg.state, hg.leader, hg.frame, hg.pending, ?_, fun href p hp => ?_, ?_, fun j hj => (hothers j hj).trans (hkept.others j hj)⟩
  · rw [State.announce_port, State.noteMay_port, State.port, honly.2 .ports (by decide), ← State.port, hanchor, State.groupHalts_anchor]
  · rw [State.announce_rb _ _ _ (show blockOf (.port p .evt) ≠ .guard from nofun), State.noteMay_rb, State.refLostEvents, if_pos href]
    exact State.foldl_portEvt_sets (by decide) hp v
  · rw [State.rb_ended, State.rb, honly.2 (.regs .grp) (by decide) _ rfl, groupGoes_evt (by rw [hkept.state, hg.state]; exact hlive)]
    exact bit_setBit_self _ (by decide)

/-! ### REJOIN and RESTART (R218, R243, R246) -/

theorem groupRejoin_exec (hwrite : Writes s d (s.grpOwner k)) (hfree : s.heldBack (s.namesGroup k) = false) :
    exec (.groupRejoin d k b) s = finish (s.rejoinCmd k b) := by
  change s.writeGroupCmd d k (BitVec.ofNat 32 (3 + 16 * b.val)) = _
  rw [State.writeGroupCmd_eq hwrite hfree, State.groupCommand_rejoin]

theorem groupRejoin_starts (hwrite : Writes s d (s.grpOwner k)) (hfree : s.heldBack (s.namesGroup k) = false) (hlive : (s.group k).state ≠ .stopped)
    (hwidth : b.val < s.width k) (hst : (s.branch k b).state = .isolated) (hseq : (s.branch k b).seqOn = false) :
    Does (.groupRejoin d k b) s fun t => t.branch k b = { s.branch k b with seqOn := true, seqAt := s.raw } ∧
      (∀ c, c ≠ b → t.branch k c = s.branch k c) ∧ (t.group k).state = (s.group k).state ∧ t.ports = s.ports ∧ SameRegs s t := by
  have he : exec (.groupRejoin d k b) s = finish (s.setBranch k b { s.branch k b with seqOn := true, seqAt := s.raw }) := by
    rw [groupRejoin_exec hwrite hfree]
    unfold State.rejoinCmd
    exact congrArg finish (if_pos ⟨hlive, hwidth, hst, by simp [hseq]⟩)
  refine .of_finish he ⟨?_, fun c hc => ?_, ?_, State.ports_ended _, SameRegs.of_regs rfl⟩
  · rw [State.branch_ended, State.branch_setBranch_same]
  · rw [State.branch_ended, State.branch_setBranch_other _ _ _ hc]
  · rw [State.announce_group, State.noteMay_group, State.group_setBranch]

theorem groupRejoin_refused (hwrite : Writes s d (s.grpOwner k)) (hfree : s.heldBack (s.namesGroup k) = false)
    (h : (s.branch k b).state ≠ .isolated ∨ (s.branch k b).seqOn = true) :
    Does (.groupRejoin d k b) s fun t => t.groups = s.groups ∧ t.ports = s.ports ∧ t.reg (.grp k .evt) = setBit (s.reg (.grp k .evt)) 6 ∧
      OtherRegs s t [.grp k .evt] := by
  have he : exec (.groupRejoin d k b) s = finish (s.grpEvt k 6) := by
    rw [groupRejoin_exec hwrite hfree]
    unfold State.rejoinCmd
    exact congrArg finish (if_neg (by rcases h with h | h <;> simp [h]))
  refine .of_finish he ⟨?_, State.ports_ended _, ?_, .of_reg fun q hq => State.reg_grpEvt_other _ _ _ hq⟩
  · rw [State.announce_groups, State.noteMay_groups]
    rfl
  · rw [State.reg_ended, State.reg_grpEvt_same]

theorem groupRestart_recovers (hwrite : Writes s d (s.grpOwner k)) (hfree : s.heldBack (s.namesGroup k) = false)
    (hlive : (s.group k).state ≠ .stopped) (hbusoff : (s.port (s.anchor k)).state = .busoff) (hauto : (s.port (s.anchor k)).boAuto = false) :
    Does (.groupRestart d k) s fun t => (t.port (s.anchor k)).state = .recovery ∧ (t.port (s.anchor k)).seqOn = true ∧
      t.rb (.port (s.anchor k) .evt) 0 = true ∧ OtherPorts s t (s.anchor k) ∧ t.groups = s.groups := by
  have he : exec (.groupRestart d k) s = finish (s.restartAccepted (s.anchor k)) := by
    change s.writeGroupCmd d k 4 = _
    rw [State.writeGroupCmd_eq hwrite hfree]
    change finish (s.restartGroupCmd k) = _
    unfold State.restartGroupCmd
    exact congrArg finish (if_pos ⟨hlive, hbusoff, by simp [hauto]⟩)
  have ht := (PortBecomes.showPort (s := s) (p := s.anchor k)
    (x := { s.port (s.anchor k) with state := .recovery, prior := .off, seqOn := true, seqAt := s.raw, joined := false }) (by simp [hbusoff])).left
  refine .of_finish he ⟨congrArg Port.state ht.port, congrArg Port.seqOn ht.port, (ht.rb 0).trans (bit_setBit_self _ (by decide)), ht.others, ?_⟩
  rw [State.announce_groups, State.noteMay_groups]
  exact showPort_groups s (s.anchor k) _

end groupCommand

/-- Settles O38: START and the effect of STOP pass the group on, whose members follow while its anchor is set by its own passage; what a stop clears
besides is of the group and its pairs. REJOIN and RESTART set one branch and one port. -/
theorem groupCommands : Obligations.GroupCommands := by
  unfold Obligations.GroupCommands
  exact ⟨fun _ _ _ hwrite hfree hstop hcode => groupStart_joins hwrite hfree hstop hcode,
    fun _ _ _ hwrite hfree hstop hcode => groupStart_fails hwrite hfree hstop hcode,
    fun _ _ _ hwrite hfree hlive => groupStop_pends hwrite hfree hlive,
    fun _ _ hlive hidle hstop => groupStopEffect_stops hlive hidle hstop,
    fun _ _ _ _ hwrite hfree hlive hwidth hst hseq => groupRejoin_starts hwrite hfree hlive hwidth hst hseq,
    fun _ _ _ hwrite hfree hlive hbusoff hauto => groupRestart_recovers hwrite hfree hlive hbusoff hauto,
    fun _ _ _ _ hwrite hfree h => groupRejoin_refused hwrite hfree h⟩

end Sys2Proof.Machine

namespace Sys2Proof.Machine

/-! ### Completions read nothing of the groups (R79, R80) -/

section withGroups
variable (s : State) (g : Vector Group 4)

/-- The state with other groups. -/
def State.withGroups (s : State) (g : Vector Group 4) : State := { s with groups := g }

theorem State.doorbell_withGroups (d : Dom) (off : Nat) (w : Word) :
    (s.withGroups g).doorbell d off w = (s.doorbell d off w).withGroups g := by
  unfold State.doorbell
  rw [apply_ite (State.withGroups · g)]
  rfl

theorem State.endOp_withGroups (d : Dom) (n : RingNo) : (s.withGroups g).endOp d n = (s.endOp d n).withGroups g := rfl

theorem State.writeEntry_withGroups (d : Dom) (cq : RingNo) (e : CqEntry) (isOp : Bool) :
    (s.withGroups g).writeEntry d cq e isOp = (s.writeEntry d cq e isOp).withGroups g := by
  unfold State.writeEntry
  dsimp only
  rw [apply_ite (State.withGroups · g), ← State.endOp_withGroups, ← State.doorbell_withGroups]
  rfl

theorem State.completeE_withGroups (d : Dom) (e : CqEntry) (isOp : Bool) :
    (s.withGroups g).completeE d e isOp = (s.completeE d e isOp).withGroups g := by
  unfold State.completeE
  extract_lets v _ _ _ _ w
  have hv : v = w.withGroups g := by
    unfold v w
    split <;> rfl
  clear_value v
  subst hv
  simp only [apply_ite (State.withGroups · g), ← State.writeEntry_withGroups]
  rfl

theorem State.complete_withGroups (o : Op) (st : Byte) (i0 : Word) (i1 : Half) (stamp : Option (BitVec 36)) (port : Byte) :
    (s.withGroups g).complete o st i0 i1 stamp port = (s.complete o st i0 i1 stamp port).withGroups g := by
  unfold State.complete
  rw [apply_ite (State.withGroups · g), ← State.completeE_withGroups]
  rfl

theorem State.setRaw_withGroups (r : DWord) : (s.withGroups g).setRaw r = (s.setRaw r).withGroups g := rfl

theorem State.clearPending_withGroups (d : Dom) (c : Source) :
    (s.withGroups g).clearPending d c = (s.clearPending d c).withGroups g := by
  cases c <;> rfl

theorem State.leaveSet_withGroups (p : PortId) (c : Cand) (st : Byte) :
    (s.withGroups g).leaveSet p c st = (s.leaveSet p c st).withGroups g := by
  unfold State.leaveSet
  dsimp only
  rw [apply_ite (State.withGroups · g), ← State.complete_withGroups, ← State.clearPending_withGroups]
  rfl

end withGroups

/-! ### Of the groups, time that passes reads the states and the tables alone (R224, R262) -/

section slots
variable {s : State} {g : Vector Group 4}

/-- The groups g have the states and tables of those of s. -/
def SlotsAs (g : Vector Group 4) (s : State) : Prop :=
  ∀ k : GrpId, (g[k]).state = (s.group k).state ∧ (g[k]).table = (s.group k).table

theorem SlotsAs.of_groups {t : State} (h : SlotsAs g s) (ht : t.groups = s.groups) : SlotsAs g t := fun k => by
  rw [State.group, ht]
  exact h k

theorem SlotsAs.unslotted (h : SlotsAs g s) (p : PortId) (c : Cand) : (s.withGroups g).unslotted p c = s.unslotted p c := by
  have hslots : ∀ k, (s.withGroups g).slotList k = s.slotList k := fun k => by
    refine List.map_congr_left fun i _ => ?_
    exact congrArg (fun t => Tbl.get 0 t i) (h k).2
  have hsome : ∀ k, (s.withGroups g).someSlot k = s.someSlot k := fun k => by
    unfold State.someSlot
    rw [hslots]
  have hstate : ∀ k, ((s.withGroups g).group k).state = (s.group k).state := fun k => (h k).1
  unfold State.unslotted
  rw [show (s.withGroups g).groupOf p = s.groupOf p from rfl]
  cases s.groupOf p with
  | none => rfl
  | some k =>
    dsimp only
    rw [hstate, hsome]
    rfl

theorem State.leaveSet_groups (s : State) (p : PortId) (c : Cand) (st : Byte) : (s.leaveSet p c st).groups = s.groups := by
  have h : Only [.counts, .free, .funcs, .halves, .objs, .out, .ports, .regs .fn, .rings] s (s.leaveSet p c st) := by
    apply State.leaveSet_only (Only.refl s) <;> decide
  exact h.2 .groups (by decide)

theorem State.fillSlots_groups (s : State) (p : PortId) (n : Nat) : (s.fillSlots p n).groups = s.groups := by
  have h : Only [.counts, .free, .funcs, .halves, .objs, .out, .ports, .regs .fn, .rings] s (s.fillSlots p n) := by
    apply State.fillSlots_only (Only.refl s) <;> decide
  exact h.2 .groups (by decide)

theorem SlotsAs.fillSlots (h : SlotsAs g s) (p : PortId) (n : Nat) : (s.withGroups g).fillSlots p n = (s.fillSlots p n).withGroups g := by
  induction n generalizing s with
  | zero => rfl
  | succ n ih =>
    unfold State.fillSlots
    dsimp only
    rw [show (s.withGroups g).port p = s.port p from rfl]
    split
    next => rfl
    next w _ =>
      rw [h.unslotted, State.leaveSet_withGroups, ih (h.of_groups (s.leaveSet_groups p w 0x17))]
      simp only [apply_ite (State.withGroups · g)]
      have hset : ∀ x, SlotsAs g (s.setPort p x) := fun x => h.of_groups rfl
      rw [← ih (hset _)]
      rfl

theorem SlotsAs.endCand (h : SlotsAs g s) (p : PortId) (c : Cand) (st : Byte) : (s.withGroups g).endCand p c st = (s.endCand p c st).withGroups g := by
  unfold State.endCand
  rw [State.leaveSet_withGroups, (h.of_groups (s.leaveSet_groups p c st)).fillSlots]

theorem State.endCand_groups (s : State) (p : PortId) (c : Cand) (st : Byte) : (s.endCand p c st).groups = s.groups :=
  (State.fillSlots_groups _ p 32).trans (s.leaveSet_groups p c st)

theorem SlotsAs.foldl {α : Type} {f : State → α → State} (hf : ∀ {t : State}, SlotsAs g t → ∀ a, f (t.withGroups g) a = (f t a).withGroups g)
    (hg : ∀ (t : State) a, (f t a).groups = t.groups) (h : SlotsAs g s) (l : List α) :
    l.foldl f (s.withGroups g) = (l.foldl f s).withGroups g := by
  induction l generalizing s with
  | nil => rfl
  | cons a l ih => rw [List.foldl_cons, hf h, ih (h.of_groups (hg s a)), List.foldl_cons]

theorem foldl_groups {α : Type} {f : State → α → State} (hg : ∀ (t : State) a, (f t a).groups = t.groups) (l : List α) (s : State) :
    (l.foldl f s).groups = s.groups := by
  induction l generalizing s with
  | nil => rfl
  | cons a l ih => exact (ih _).trans (hg s a)

theorem SlotsAs.settlePort (h : SlotsAs g s) (p : PortId) : (s.withGroups g).settlePort p = (s.settlePort p).withGroups g := by
  unfold State.settlePort
  dsimp only
  have hgroups : ∀ (t : State) (c : Cand), (t.endCand p c (endingStatus (c.ending.getD 0))).groups = t.groups := fun t c => t.endCand_groups p c _
  rw [← SlotsAs.fillSlots (h.of_groups (foldl_groups hgroups _ s)),
    ← SlotsAs.foldl (f := fun t c => t.endCand p c (endingStatus (c.ending.getD 0))) (fun ht c => ht.endCand p c _) hgroups h]
  rfl

theorem State.settlePort_groups (s : State) (p : PortId) : (s.settlePort p).groups = s.groups :=
  (State.fillSlots_groups _ p 32).trans (foldl_groups (fun t c => t.endCand_groups p c _) _ s)

theorem SlotsAs.settle (h : SlotsAs g s) : (s.withGroups g).settle = s.settle.withGroups g :=
  SlotsAs.foldl (fun ht p => ht.settlePort p) (fun t p => t.settlePort_groups p) h portIds

/-- Time passes alike before and after groups are set whose states and tables stay. -/
theorem SlotsAs.advance (h : SlotsAs g s) (r : DWord) : (s.withGroups g).advance r = (s.advance r).withGroups g := by
  rw [State.advance_eq, State.advance_eq, apply_ite (State.withGroups · g)]
  have hset : ((s.withGroups g).setRaw (s.withGroups g).nextUs).settle = ((s.setRaw s.nextUs).settle).withGroups g :=
    SlotsAs.settle (s := s.setRaw s.nextUs) (h.of_groups rfl)
  rw [← State.setRaw_withGroups, apply_ite (State.withGroups · g), hset]
  rfl

end slots

end Sys2Proof.Machine

namespace Sys2Proof.Machine

/-! ### A cycle turns (R245, R254) -/

section cycle
variable {s u : State} {k : GrpId} {g : Group}

theorem State.advance_setGroup (hst : g.state = (s.group k).state) (htable : g.table = (s.group k).table) (r : DWord) :
    (s.setGroup k g).advance r = (s.advance r).setGroup k g := by
  have hslots : SlotsAs (s.groups.set k g) s := fun j => by
    change ((s.setGroup k g).group j).state = _ ∧ ((s.setGroup k g).group j).table = _
    by_cases hj : j = k
    · rw [hj, State.group_setGroup_same]
      exact ⟨hst, htable⟩
    · rw [State.group_setGroup_other _ _ _ _ hj]
      exact ⟨rfl, rfl⟩
  refine (hslots.advance r).trans ?_
  rw [State.setGroup, State.advance_groups, State.withGroups]

/-- A group whose cycle turned to the one that starts at c, its reference accepted (R245, R254). -/
structure CycleTurned (g g' : Group) (c : DWord) : Prop where
  phase : g'.state = g.state ∧ g'.prior = g.prior
  table : g'.table = g.table
  role : g'.role = g.role
  misses : g'.misses = g.misses
  start : g'.cycleAt = c
  count : g'.cycleCnt = g.cycleCnt + 1
  windows : g'.windows = true
  accepted : g'.accepted = false

theorem CycleTurned.scheduled {g' : Group} {c : DWord} (h : CycleTurned g g' c) : scheduled g' = scheduled g := by
  obtain ⟨hstate, hprior⟩ := h.phase
  unfold Machine.scheduled gPhase
  rw [hstate, hprior]

/-- A cycle with a reference turns on a device that does not lead: the next one starts by the length of a cycle (R254). -/
theorem State.turnCycle_accepted (hacc : (s.group k).accepted = true) (hlead : s.leads k = false) :
    ∃ g, s.turnCycle k = s.setGroup k g ∧
      CycleTurned (s.group k) g (s.rawOfFlow (after (s.flow (s.group k).cycleAt) (s.cycleLen k))) := by
  unfold State.turnCycle State.nextCycle
  simp only [hacc, hlead, Bool.not_true, Bool.false_and, Bool.false_eq_true, if_false]
  exact ⟨_, rfl, ⟨rfl, rfl⟩, rfl, rfl, rfl, rfl, rfl, rfl, rfl⟩

theorem cycleStart_turns (htrav : s.traverse k = true) (hsched : scheduled (s.group k) = true) (hacc : (s.group k).accepted = true)
    (hlead : s.leads k = false) (hu : u = s.advance (s.rawOfFlow (after (s.flow (s.group k).cycleAt) (s.cycleLen k)))) :
    Does (.cycleStart k) s fun t => (t.group k).cycleAt = s.rawOfFlow (after (s.flow (s.group k).cycleAt) (s.cycleLen k)) ∧
      (t.group k).cycleCnt = (s.group k).cycleCnt + 1 ∧ (t.group k).windows = true ∧ (t.group k).accepted = false ∧
      (t.group k).misses = (s.group k).misses ∧ (t.group k).state = (s.group k).state ∧ SameRegs u t ∧ t.ports = u.ports ∧
      ∀ j, j ≠ k → t.group j = s.group j := by
  obtain ⟨g, hturn, hg⟩ := State.turnCycle_accepted hacc hlead
  have hon : scheduled ((s.setGroup k g).group k) = true := by rw [State.group_setGroup_same, hg.scheduled, hsched]
  have hled : (s.setGroup k g).leads k = false := by
    rw [State.leads, State.group_setGroup_same, hg.role]
    exact hlead
  have he : exec (.cycleStart k) s = finish (u.setGroup k g) := by
    change execCycleStart k s = _
    unfold execCycleStart
    rw [if_pos (by simp [htrav, hsched]), hturn]
    dsimp only
    rw [if_neg (by simp [hled]), if_pos hon, State.group_setGroup_same, State.advance_setGroup hg.phase.1 hg.table, hg.start, hu]
  refine .of_finish he ?_
  rw [State.announce_group, State.noteMay_group, State.group_setGroup_same]
  refine ⟨hg.start, hg.count, hg.windows, hg.accepted, hg.misses, hg.phase.1, SameRegs.of_regs rfl, State.ports_ended _, fun j hj => ?_⟩
  rw [State.announce_group, State.noteMay_group, State.group_setGroup_other _ _ _ _ hj, hu, State.advance_group]

/-! ### The loss of the reference (R245) -/

/-- The LEADER of a group is set, and where it differs events tell so (R269). -/
theorem State.setLeader_becomes (s : State) (k : GrpId) (l : Nat) : GroupBecomes s (s.setLeader k l) k { s.group k with leader := l } := by
  unfold State.setLeader
  dsimp only
  split
  next h =>
    subst h
    exact ⟨congrArg State.groups (s.setGroup_self k).symm, fun _ _ _ => rfl⟩
  next =>
    exact ⟨rfl, fun j q hq => (State.reg_grpEvt_other _ _ _ hq).trans (State.reg_grpEvt_other _ _ _ hq)⟩

theorem State.setLeader_keepsEvt {i : Nat} (hi : i < 64) (l : Nat) (h : s.rb (.grp k .evt) i = true) : (s.setLeader k l).rb (.grp k .evt) i = true := by
  unfold State.setLeader
  dsimp only
  split
  · exact h
  · rw [State.rb, State.reg_grpEvt_same, State.reg_grpEvt_same]
    exact bit_setBit_of_bit 0 hi (bit_setBit_of_bit 4 hi h)

/-- The rejoins that start set the branches alone (R241). -/
theorem startRejoins_eq (raw : DWord) (g : Group) :
    ∃ bs, (if gPhase g = .normal then startRejoins raw g else g) = { g with branches := bs } := by
  split
  · exact ⟨_, rfl⟩
  · exact ⟨g.branches, rfl⟩

/-- A group back in COLDSTART, as far as the statements ask (R245, R269). -/
structure BackInColdstart (g g' : Group) : Prop where
  state : g'.state = .coldstart
  leader : g'.leader = 15
  windows : g'.windows = false
  misses : g'.misses = g.misses

theorem State.toColdstart_eq (h : (s.group k).state ≠ .hold) :
    ∃ g, s.toColdstart k = (s.setLeader k 15).groupGoes k g ∧ BackInColdstart (s.group k) g := by
  obtain ⟨bs, hbs⟩ := startRejoins_eq (s.setLeader k 15).raw { s.group k with leader := 15 }
  unfold State.toColdstart
  dsimp only
  rw [(s.setLeader_becomes k 15).group, hbs, setPhase, if_neg h]
  exact ⟨_, rfl, rfl, rfl, rfl, rfl⟩

/-- A cycle without a reference is counted, with its event, and ends the count to promotion (R245). -/
def State.missCounted (s : State) (k : GrpId) : State :=
  (s.grpEvt k 3).setGroup k { s.group k with misses := (s.group k).misses + 1, promoteCnt := 0, lastRef := none }

theorem State.turnCycle_lost (hacc : (s.group k).accepted = false) (hmiss : max 1 (s.rf (.grp k .cfg) 28 4) ≤ (s.group k).misses + 1) :
    s.turnCycle k = (s.missCounted k).toColdstart k := by
  have hcfg : (s.missCounted k).reg (.grp k .cfg) = s.reg (.grp k .cfg) := s.reg_grpEvt_other k 3 nofun
  have hmissed : (!(s.group k).accepted) = true := by rw [hacc, Bool.not_false]
  unfold State.turnCycle
  dsimp only
  rw [hmissed, Bool.true_and, if_pos rfl]
  refine if_pos (decide_eq_true ?_)
  change max 1 (fld ((s.missCounted k).reg (.grp k .cfg)) 28 4) ≤ _
  rw [hcfg]
  exact hmiss

theorem cycleStart_losesReference (htrav : s.traverse k = true) (hst : (s.group k).state = .startup ∨ (s.group k).state = .normal)
    (hacc : (s.group k).accepted = false) (hmiss : max 1 (s.rf (.grp k .cfg) 28 4) ≤ (s.group k).misses + 1) :
    Does (.cycleStart k) s fun t => (t.group k).state = .coldstart ∧ (t.group k).leader = 15 ∧ (t.group k).windows = false ∧
      (t.group k).misses = (s.group k).misses + 1 ∧ t.rb (.grp k .evt) 3 = true ∧ t.rb (.grp k .evt) 0 = true ∧
      ∀ j, j ≠ k → t.group j = s.group j := by
  let v : State := s.missCounted k
  have hgroup : v.group k = { s.group k with misses := (s.group k).misses + 1, promoteCnt := 0, lastRef := none } := State.group_setGroup_same _ _ _
  have hstate : (v.group k).state = (s.group k).state := by rw [hgroup]
  obtain ⟨g, hcold, hg⟩ := State.toColdstart_eq (s := v) (k := k) (by rw [hstate]; rcases hst with h | h <;> simp [h])
  have hlead := v.setLeader_becomes k 15
  have hgoes := groupGoes_becomes (v.setLeader k 15) k g
  have hsched : scheduled (s.group k) = true := by rcases hst with h | h <;> simp [scheduled, gPhase, h]
  have hnot : scheduled (((v.setLeader k 15).groupGoes k g).group k) = false := by
    rw [hgoes.group]
    simp [scheduled, gPhase, hg.state]
  have he : exec (.cycleStart k) s = finish ((v.setLeader k 15).groupGoes k g) := by
    change execCycleStart k s = _
    unfold execCycleStart
    rw [if_pos (by simp [htrav, hsched]), State.turnCycle_lost hacc hmiss, hcold]
    dsimp only
    rw [if_neg (by simp [hnot]), if_neg (by simp [hnot])]
  obtain ⟨hleft, hothers⟩ := (hlead.trans hgoes).left
  have hevt : ((v.setLeader k 15).groupGoes k g).reg (.grp k .evt) = setBit ((v.setLeader k 15).reg (.grp k .evt)) 0 := by
    refine groupGoes_evt ?_
    rw [hlead.group, hg.state]
    change (v.group k).state ≠ _
    rw [hstate]
    rcases hst with h | h <;> simp [h]
  have hmissed : v.rb (.grp k .evt) 3 = true := by
    change bit ((s.grpEvt k 3).reg (.grp k .evt)) 3 = true
    rw [State.reg_grpEvt_same]
    exact bit_setBit_self _ (by decide)
  refine .of_finish he ?_
  rw [hleft, State.rb_ended, State.rb_ended, State.rb, State.rb, hevt]
  refine ⟨hg.state, hg.leader, hg.windows, by rw [hg.misses, hgroup], bit_setBit_of_bit 0 (by decide) (State.setLeader_keepsEvt (by decide) 15 hmissed),
    bit_setBit_self _ (by decide), fun j hj => (hothers j hj).trans ?_⟩
  exact State.group_setGroup_other _ _ _ _ hj

end cycle

/-! ### The device's reference frame goes out (R265, R267, R269) -/

section reference
variable {s u v : State} {k : GrpId} {p q : PortId} {g : Group}

/-- Between the two states nothing changes that says on which pins a node is driven, and with which reference frame (R231, R265). -/
structure SameNode (s u : State) : Prop where
  regs : ∀ r, blockOf r ≠ .fn → u.reg r = s.reg r
  belay : u.belay = s.belay
  pairs : u.pairs = s.pairs
  states : ∀ j, (u.group j).state = (s.group j).state
  branches : ∀ j, (u.group j).branches = (s.group j).branches
  ports : ∀ p, (u.port p).state = (s.port p).state

theorem SameNode.trans (h : SameNode s u) (h' : SameNode u v) : SameNode s v :=
  ⟨fun r hr => (h'.regs r hr).trans (h.regs r hr), h'.belay.trans h.belay, h'.pairs.trans h.pairs, fun j => (h'.states j).trans (h.states j),
    fun j => (h'.branches j).trans (h.branches j), fun p => (h'.ports p).trans (h.ports p)⟩

theorem State.advance_sameNode (s : State) (r : DWord) : SameNode s (s.advance r) :=
  ⟨fun _ hq => s.advance_reg r hq, s.advance_belay r, s.advance_pairs r, fun j => by rw [State.advance_group], fun j => by rw [State.advance_group],
    fun p => Port.eq_of_noCands ((s.advance_sameButCands r).ports p) Port.state fun _ => rfl⟩

theorem State.setGroup_sameNode (hst : g.state = (s.group k).state) (hbs : g.branches = (s.group k).branches) : SameNode s (s.setGroup k g) := by
  have hgroup : ∀ j, (s.setGroup k g).group j = if j = k then g else s.group j := fun j => by
    split
    next h => rw [h, State.group_setGroup_same]
    next h => rw [State.group_setGroup_other _ _ _ _ h]
  refine ⟨fun _ _ => rfl, rfl, rfl, fun j => ?_, fun j => ?_, fun _ => rfl⟩
  · rw [hgroup]
    split
    next h => rw [h, hst]
    next => rfl
  · rw [hgroup]
    split
    next h => rw [h, hbs]
    next => rfl

theorem State.setPort_sameNode {x : Port} (hx : x.state = (s.port p).state) : SameNode s (s.setPort p x) := by
  refine ⟨fun _ _ => rfl, rfl, rfl, fun _ => rfl, fun _ => rfl, fun q => ?_⟩
  by_cases hq : q = p
  · rw [hq, State.port_setPort_same, hx]
  · rw [State.port_setPort_other _ _ _ _ hq]

theorem SameNode.grpReg (h : SameNode s u) (j : GrpId) (q : GrpReg) : u.reg (.grp j q) = s.reg (.grp j q) :=
  h.regs _ (show blockOf (.grp j q) ≠ .fn from nofun)

theorem SameNode.groupOf (h : SameNode s u) (p : PortId) : u.groupOf p = s.groupOf p := State.groupOf_congr (fun j => h.grpReg j .members) h.belay p

theorem SameNode.nodePorts (h : SameNode s u) (p : PortId) : u.nodePorts p = s.nodePorts p := by
  have hdriven : ∀ j, u.drivenBranches j = s.drivenBranches j := fun j => State.drivenBranches_congr fun c => by
    rw [State.branch, State.branch, h.branches j]
  have hmembers : ∀ j, u.members j = s.members j := fun j => State.members_congr (h.grpReg j .members)
  unfold State.nodePorts State.liveGroup
  simp only [h.groupOf, h.states, hdriven, hmembers]

theorem SameNode.txdRecessive (h : SameNode s u) (p : PortId) : u.txdRecessive p = s.txdRecessive p := by
  have hreg : ∀ p q, u.reg (.port p q) = s.reg (.port p q) := fun p q => h.regs _ (show blockOf (.port p q) ≠ .fn from nofun)
  unfold State.txdRecessive State.testMode State.pairOpen State.inline State.rf State.rb
  rw [h.ports, hreg, hreg, h.pairs]

theorem SameNode.refFrame (h : SameNode s u) (k : GrpId) (cold : Bool) (cnt : Half) : u.refFrame k cold cnt = s.refFrame k cold cnt := by
  have hfd : u.refFd k = s.refFd k := congrArg (bit · 3) (h.grpReg k .cfg)
  have htag : u.tableTag k = s.tableTag k := congrArg (fld · 16 8) (h.grpReg k .tbl)
  have hcycle : u.cycleNs k = s.cycleNs k := congrArg (fld · 0 30) (h.grpReg k .cycle)
  have hentry : u.devEntry k = s.devEntry k := by simp only [State.devEntry, State.csValid, State.csDevice, State.rb, h.grpReg]
  have hrank : u.csRank k = s.csRank k := funext fun i => congrArg (fld · 6 2) (h.grpReg k (.cs i))
  have hident : u.csRefId k = s.csRefId k := funext fun i => congrArg (fld · 8 11) (h.grpReg k (.cs i))
  unfold State.refFrame State.refPayload
  dsimp only
  rw [hfd, htag, hcycle, hentry, hrank, hident]

/-- A start of frame is driven on every pin of the node that is not held recessive; of the rest of the device it changes the port alone (R194). -/
theorem State.driveSof_eq (s : State) (p : PortId) (w : Sending) (f : CanFrame) (sof : DWord) : ∃ x : Port, x.state = (s.port p).state ∧
    s.driveSof p w f sof = { s.setPort p x with out := s.out ++ ((s.nodePorts p).filter (fun q => !s.txdRecessive q)).map (fun q => .frame q f) } := by
  let x : Port := { s.port p with
    onWire := some { what := w, frame := f, sof := after sof (s.rf (.port p .txdly) 0 16), tries := (s.port p).ft.tries }, busIdle := false }
  have hnode : SameNode s (s.setPort p x) := State.setPort_sameNode rfl
  have hsent := State.foldl_emit (fun (_ : State) (q : PortId) => Output.frame q f) (fun _ _ _ => rfl) (s.setPort p x)
    (((s.setPort p x).nodePorts p).filter (fun q => !(s.setPort p x).txdRecessive q))
  rw [hnode.nodePorts, show (s.setPort p x).txdRecessive = s.txdRecessive from funext hnode.txdRecessive] at hsent
  refine ⟨x, rfl, Eq.trans ?_ hsent⟩
  rw [← hnode.nodePorts, ← show (s.setPort p x).txdRecessive = s.txdRecessive from funext hnode.txdRecessive]
  rfl

/-- The group whose reference frame is driven: nothing is due any more, and its start of frame has appeared (R269). -/
def refDriven (g : Group) : Group := { g with refSend := none, gridDue := none, refSof := true }

/-- Time has come to the start of frame of the group's reference frame. -/
def State.refReached (s : State) (k : GrpId) (sof : DWord) : State := (s.advance sof).setGroup k (refDriven ((s.advance sof).group k))

theorem State.driveRef_eq (s : State) (k : GrpId) (p : PortId) (cold : Bool) (sof : DWord) : s.driveRef k p cold sof =
    (s.refReached k sof).driveSof p .reference ((s.refReached k sof).refFrame k cold ((s.refReached k sof).group k).cycleCnt) sof := rfl

theorem State.group_refReached (s : State) (k : GrpId) (sof : DWord) : (s.refReached k sof).group k = refDriven (s.group k) := by
  rw [State.refReached, State.group_setGroup_same, State.advance_group]

theorem State.refReached_sameNode (s : State) (k : GrpId) (sof : DWord) : SameNode s (s.refReached k sof) :=
  (s.advance_sameNode sof).trans (State.setGroup_sameNode rfl rfl)

theorem State.group_driveRef (s : State) (k : GrpId) (p : PortId) (cold : Bool) (sof : DWord) :
    (s.driveRef k p cold sof).group k = refDriven (s.group k) := by
  rw [State.driveRef_eq]
  generalize (s.refReached k sof).refFrame k cold _ = f
  obtain ⟨x, -, hdrive⟩ := (s.refReached k sof).driveSof_eq p .reference f sof
  rw [hdrive]
  exact s.group_refReached k sof

theorem State.driveRef_sends (s : State) (k : GrpId) (cold : Bool) (sof : DWord) (hq : q ∈ s.nodePorts p) (hpin : s.txdRecessive q = false) :
    Sends s (s.driveRef k p cold sof) (.frame q (s.refFrame k cold (s.group k).cycleCnt)) := by
  have hnode := s.refReached_sameNode k sof
  rw [State.driveRef_eq, hnode.refFrame, s.group_refReached k sof]
  obtain ⟨x, -, hdrive⟩ := (s.refReached k sof).driveSof_eq p .reference (s.refFrame k cold (refDriven (s.group k)).cycleCnt) sof
  rw [hdrive, hnode.nodePorts, show (s.refReached k sof).txdRecessive = s.txdRecessive from funext hnode.txdRecessive]
  have hsent : q ∈ (s.nodePorts p).filter (fun q => !s.txdRecessive q) := List.mem_filter.2 ⟨hq, by simp [hpin]⟩
  exact Sends.of_mid (u := s.advance sof) (State.advance_keeps (Keeps.refl s)) ⟨_, rfl, List.mem_map.2 ⟨q, hsent, rfl⟩⟩

/-- Whether a reference frame may start is read from the port, its mode and its group's frame (log 26). -/
theorem SameNode.refMayStart (h : SameNode s u) (hframes : ∀ j, (u.group j).frame = (s.group j).frame)
    (hports : (u.port p).noCands = (s.port p).noCands) : u.refMayStart p = s.refMayStart p := by
  have hport : ∀ {α : Type} (f : Port → α), (∀ z, f z = f z.noCands) → f (u.port p) = f (s.port p) := fun f hf => Port.eq_of_noCands hports f hf
  have hmode : u.reg (.port p .mode) = s.reg (.port p .mode) := h.regs _ nofun
  have hanchor : u.anchorOf p = s.anchorOf p := by
    have hmembers : ∀ j, u.anchor j = s.anchor j := fun j => State.anchor_congr (State.members_congr (h.grpReg j .members))
    unfold State.anchorOf
    simp only [h.groupOf, hmembers]
  unfold State.refMayStart State.rb
  dsimp only
  rw [hanchor, hmode, hport Port.joined fun _ => rfl, hport Port.onWire fun _ => rfl, hport Port.stopPending fun _ => rfl,
    hport Port.refStop fun _ => rfl, hport Port.lone fun _ => rfl, hport Port.suspend fun _ => rfl, hport Port.seqOn fun _ => rfl, h.ports]
  simp only [hframes]

/-- Where the node may start, a reference frame of the device starts at once (log 26). -/
theorem State.sendRef_eq (h : s.refMayStart (s.anchor k) = true) (cold : Bool) (r : DWord) :
    ∃ sof, s.sendRef k cold r = s.driveRef k (s.anchor k) cold sof := ⟨_, if_pos h⟩

theorem refBackupTimeout_sends (htrav : s.traverse k = true) (hsched : scheduled (s.group k) = true) (hrole : (s.group k).role = .integrated)
    (hsof : (s.group k).refSof = false) (hmay : s.refMayStart (s.anchor k) = true) :
    Does (.refBackupTimeout k) s fun t => (t.group k).refSof = true ∧
      ∀ j ∈ s.nodePorts (s.anchor k), s.txdRecessive j = false → Sends s t (.frame j (s.refFrame k false (s.group k).cycleCnt)) := by
  obtain ⟨sof, hsend⟩ := State.sendRef_eq hmay false (s.later (s.group k).cycleAt (32 * s.guardNs k))
  have he : exec (.refBackupTimeout k) s = finish (s.driveRef k (s.anchor k) false sof) := by
    rw [← hsend]
    change execRefBackupTimeout k s = _
    unfold execRefBackupTimeout
    exact if_pos (by simp [htrav, hsched, hrole, hsof])
  refine .of_finish he ⟨?_, fun j hj hpin => (s.driveRef_sends k false sof hj hpin).ended⟩
  rw [State.announce_group, State.noteMay_group, State.group_driveRef]
  rfl

/-- A cold-start reference frame is sent at once, with count 0 (R267, R269). -/
def State.coldDue (s : State) (k : GrpId) : State := s.setGroup k { s.group k with role := .sendDue, cycleAt := s.raw, cycleCnt := 0 }

theorem coldstartBackoffEnd_sends (htrav : s.traverse k = true) (hphase : gPhase (s.group k) = .coldstart) (hrole : (s.group k).role = .backoff)
    (hmaster : s.devMaster k = false) (hmay : s.refMayStart (s.anchor k) = true) :
    Does (.coldstartBackoffEnd k) s fun t => (t.group k).role = .sendDue ∧ (t.group k).cycleCnt = 0 ∧ (t.group k).refSend = none ∧
      ∀ j ∈ s.nodePorts (s.anchor k), s.txdRecessive j = false → Sends s t (.frame j (s.refFrame k true 0)) := by
  obtain ⟨r, he⟩ : ∃ r, exec (.coldstartBackoffEnd k) s = finish ((s.advance r).sendCold k) := by
    change ∃ r, execColdstartBackoffEnd k s = _
    unfold execColdstartBackoffEnd
    dsimp only
    rw [if_pos (by simp [htrav, hphase, hrole])]
    exact ⟨_, rfl⟩
  let v : State := (s.advance r).coldDue k
  have hnode : SameNode s v := (s.advance_sameNode r).trans (State.setGroup_sameNode rfl rfl)
  have hgroup : v.group k = { s.group k with role := .sendDue, cycleAt := (s.advance r).raw, cycleCnt := 0 } := by
    rw [← s.advance_group r]
    exact State.group_setGroup_same _ _ _
  have hframes : ∀ j, (v.group j).frame = (s.group j).frame := fun j => by
    by_cases hj : j = k
    · rw [hj, hgroup]
    · rw [show v.group j = (s.advance r).group j from State.group_setGroup_other _ _ _ _ hj, State.advance_group]
  have hanchor : v.anchor k = s.anchor k := State.anchor_congr (State.members_congr (hnode.grpReg k .members))
  have hmayNow : v.refMayStart (v.anchor k) = true := by
    rw [hanchor]
    exact (hnode.refMayStart hframes ((s.advance_sameButCands r).ports _)).trans hmay
  have hmasterNow : (s.advance r).devMaster k = false := (congrArg (bit · 2) (s.advance_grpReg r k .cfg)).trans hmaster
  have hcold : (s.advance r).sendCold k = v.sendRef k true (s.advance r).raw := by
    unfold State.sendCold
    dsimp only
    rw [hmasterNow, if_neg Bool.false_ne_true]
    rfl
  obtain ⟨sof, hsend⟩ := State.sendRef_eq hmayNow true (s.advance r).raw
  rw [hcold, hsend, hanchor] at he
  have hdriven : (v.driveRef k (s.anchor k) true sof).noteMay.announce.group k = refDriven (v.group k) := by
    rw [State.announce_group, State.noteMay_group, State.group_driveRef]
  refine .of_finish he ?_
  rw [hdriven, hgroup]
  refine ⟨rfl, rfl, rfl, fun j hj hpin => ?_⟩
  have hsent := v.driveRef_sends k true sof ((hnode.nodePorts _).symm ▸ hj) ((hnode.txdRecessive j).trans hpin)
  rw [hnode.refFrame, hgroup] at hsent
  exact (hsent.of_mid (State.advance_keeps (Keeps.refl s))).ended

theorem listenTimeout_plans (htrav : s.traverse k = true) (hphase : gPhase (s.group k) = .coldstart) (hrole : (s.group k).role = .listening)
    (hmaster : s.devMaster k = true) (hu : u = s.advance (after (s.group k).listenAt (16 * s.rf (.grp k .listen) 0 30))) :
    Does (.listenTimeout k) s fun t => (t.group k).role = .sendDue ∧ (t.group k).refSend = some true ∧ (t.group k).gridDue = some (u.gridNext k) ∧
      (t.group k).state = (s.group k).state ∧ t.ports = u.ports ∧ SameRegs u t := by
  let v : State := u.setGroup k { s.group k with role := .sendDue }
  have hmasterNow : u.devMaster k = true := by
    rw [hu]
    exact (congrArg (bit · 2) (s.advance_grpReg _ k .cfg)).trans hmaster
  have hgroup : u.group k = s.group k := by rw [hu, State.advance_group]
  have he : exec (.listenTimeout k) s = finish (v.planCold k) := by
    change execListenTimeout k s = _
    unfold execListenTimeout
    dsimp only
    rw [if_pos (by simp [htrav, hphase, hrole]), ← hu, State.sendCold, if_pos hmasterNow, hgroup]
  refine .of_finish he ?_
  rw [State.announce_group, State.noteMay_group, State.planCold, State.group_setGroup_same, State.group_setGroup_same]
  exact ⟨rfl, rfl, rfl, rfl, State.ports_ended _, SameRegs.of_regs rfl⟩

end reference

/-- Settles O41: a cycle that turns sets its group alone, and time passes alike before and after; on the loss of the reference the group goes to
COLDSTART. Nothing that happens on the way to a reference frame changes the pins of the node or the frame's bytes. -/
theorem traverseCycles : Obligations.TraverseCycles := by
  unfold Obligations.TraverseCycles
  exact ⟨fun _ _ _ htrav hsched hacc hlead hu => cycleStart_turns htrav hsched hacc hlead hu,
    fun _ _ htrav hst hacc hmiss => cycleStart_losesReference htrav hst hacc hmiss,
    fun _ _ _ htrav hphase hrole hmaster hu => listenTimeout_plans htrav hphase hrole hmaster hu,
    fun _ _ htrav hphase hrole hmaster hmay _ => coldstartBackoffEnd_sends htrav hphase hrole hmaster hmay,
    fun _ _ htrav hsched hrole hsof hmay => refBackupTimeout_sends htrav hsched hrole hsof hmay⟩

end Sys2Proof.Machine

namespace Sys2Proof.Machine

/-! ### The last epoch of device time (R91) -/

/-- What every command ends with leaves the time unit as it was. -/
theorem State.tmu_ended (u : State) : u.noteMay.announce.tmu = u.tmu := by rw [State.announce_tmu, State.noteMay_tmu]

theorem State.epochEntries_tmu (s : State) (t : DWord) : (s.epochEntries t).tmu = s.tmu := by
  have h : Only [.counts, .free, .funcs, .halves, .out, .regs .fn] s (s.epochEntries t) := by
    apply State.epochEntries_only (Only.refl s) <;> decide
  exact h.2 .tmu (by decide)

/-- T has 64 bits, which are 2^29 epochs: the number of the multiple passed starts again at 0. -/
theorem epochPass_counts {s : State} (h : s.tmu.started = true) : Does .epochPass s fun t => t.tmu.epochs = (s.tmu.epochs + 1) % 2 ^ 29 := by
  obtain ⟨t, ht⟩ : ∃ t, exec .epochPass s = finish t ∧ t.tmu.epochs = (s.tmu.epochs + 1) % 2 ^ 29 := by
    change ∃ t, execEpochPass s = _ ∧ _
    unfold execEpochPass
    rw [if_neg (by simp [h])]
    refine ⟨_, rfl, ?_⟩
    rw [State.epochEntries_tmu]
    split
    · obtain ⟨r, hr⟩ := s.advance_tmu (s.rawOf (BitVec.ofNat 64 ((s.tmu.epochs + 1) * 2 ^ 35)))
      simp only [State.setTmu, hr]
    · rfl
  exact .of_finish ht.1 (by rw [State.tmu_ended, ht.2])

namespace LastEpoch

/-- RAW has started at 0, and a write of TMU_STEP has taken T to 2^64 - 2^35: the next multiple of 2^35 that T passes is 0. -/
def before : State := (State.reset.setTmu { State.reset.tmu with started := true }).stepTime 0xFFFFFFF800000000

theorem before_started : before.tmu.started = true := by decide +kernel

theorem before_epochs : before.tmu.epochs = 2 ^ 29 - 1 := by decide +kernel

end LastEpoch

open LastEpoch in
/-- Refutes O43: its last clause counts every pass of the EPOCH one further, without bound. At the end of its last epoch T starts again at 0, and the number
of the multiple passed is 0 with it (R91). -/
theorem not_timeRegisters : ¬ Obligations.TimeRegisters := by
  unfold Obligations.TimeRegisters
  rintro ⟨-, -, -, -, -, -, hpass⟩
  obtain ⟨t, ht, hnext, -⟩ := hpass before before_started
  obtain ⟨u, hu, hwraps⟩ := epochPass_counts before_started
  rw [Host.Outcome.next.inj (ht.symm.trans hu), hwraps, before_epochs] at hnext
  exact absurd hnext (by decide)

end Sys2Proof.Machine

namespace Sys2Proof.Machine

/-! ### PPS and event inputs (R295 to R298) -/

section inputs
variable {s u : State}

theorem State.offerSample_tmu (s : State) (src : Nat) (at_ e : DWord) (r : Option DWord) : ∃ l, (s.offerSample src at_ e r).tmu = { s.tmu with samples := l } := by
  unfold State.offerSample
  split
  · exact ⟨_, rfl⟩
  · exact ⟨s.tmu.samples, rfl⟩

theorem ppsEdge_stamps {i : Fin 2} {raw : DWord} {fall : Bool} (hon : s.rb (.ppsCfg i) 0 = true) (hdir : s.rb (.ppsCfg i) 1 = fall)
    (hgap : (s.tmu.ppsRaw[i]).all (fun r => decide (r.toNat + ms 500 ≤ raw.toNat)) = true) :
    Does (.ppsEdge i raw fall) s fun t => t.tmu.ppsRaw[i] = some raw ∧
      t.tmu.ppsStamp[i] = s.timeAt (raw - BitVec.ofNat 64 (16 * s.rf (.ppsCfg i) 16 16)) ∧ t.tmu.par = s.tmu.par := by
  let at_ : DWord := raw - BitVec.ofNat 64 (16 * s.rf (.ppsCfg i) 16 16)
  let v : State := (s.advance raw).setTmu { (s.advance raw).tmu with
    ppsRaw := (s.advance raw).tmu.ppsRaw.set i (some raw), ppsStamp := (s.advance raw).tmu.ppsStamp.set i (s.timeAt at_) }
  have he : exec (.ppsEdge i raw fall) s = finish (v.offerSample (4 + i.val) (s.timeAt at_) (nearestSecond (s.timeAt at_) - s.timeAt at_) (some at_)) := by
    have hreg : (s.advance raw).rf (.ppsCfg i) 16 16 = s.rf (.ppsCfg i) 16 16 := congrArg (fld · 16 16) (s.advance_reg raw (by simp [blockOf]))
    change execPpsEdge i raw fall s = _
    unfold execPpsEdge
    dsimp only
    rw [if_neg, hreg, State.advance_timeAt]
    cases hlast : s.tmu.ppsRaw[i] with
    | none => simp [hon, hdir]
    | some r =>
      rw [hlast, Option.all_some, decide_eq_true_eq] at hgap
      simp [hon, hdir, hgap]
  obtain ⟨l, hl⟩ := v.offerSample_tmu (4 + i.val) (s.timeAt at_) (nearestSecond (s.timeAt at_) - s.timeAt at_) (some at_)
  obtain ⟨x, hx⟩ := s.advance_tmu raw
  refine .of_finish he ?_
  rw [State.tmu_ended, hl]
  simp [v, State.setTmu, hx, at_]

/-- Capture x of input i is put in place of the one that is there. -/
def State.setCapture (s : State) (i : Fin 8) (x : Capture) : State := s.setTmu { s.tmu with captures := s.tmu.captures.set i x }

/-- The buffer after an edge at raw, stamped t (R297). -/
def Capture.stamped (x : Capture) (raw t : DWord) (rise : Bool) : Capture :=
  { entries := x.entries.set (fin 16 x.prod.toNat) (captureEntry t rise x.lost), prod := x.prod + 1, lost := 0, lastEdge := some raw }

/-- The buffer after an edge at raw that it has no room for (R297). -/
def Capture.overrun (x : Capture) (raw : DWord) : Capture := { x with lastEdge := some raw, lost := satHalf x.lost }

/-- The stamp of an edge of input i at raw, its delay taken off (R296). -/
def State.edgeStamp (s : State) (i : Fin 8) (raw : DWord) : DWord := s.timeAt (raw - BitVec.ofNat 64 (16 * s.rf (.evtinCfg i) 20 12))

section edge
variable {i : Fin 8} {raw : DWord} {rise : Bool}
  (hgap : ((s.tmu.captures[i]).lastEdge).all (fun r => decide (r.toNat + ns 40 ≤ raw.toNat)) = true)
include hgap

/-- An edge 40 ns or more after the last stamped one is stamped where its buffer has room, and else counted as lost (R296, R297). -/
theorem State.captureEdge_eq : s.captureEdge i raw rise = s.setCapture i
    (if ((s.tmu.captures[i]).prod - s.captureCons i).toNat = 16 then (s.tmu.captures[i]).overrun raw
      else (s.tmu.captures[i]).stamped raw (s.edgeStamp i raw) rise) := by
  unfold State.captureEdge
  dsimp only
  rw [if_neg, apply_ite (s.setCapture i)]
  · rfl
  · cases hlast : (s.tmu.captures[i]).lastEdge with
    | none => simp
    | some r =>
      rw [hlast, Option.all_some, decide_eq_true_eq] at hgap
      simp [hgap]

/-- A selected edge that is held long enough ends in a capture (R296). -/
theorem evtInEdge_captures {held : Nat} {x : Capture} (hon : s.rb (.evtinCfg i) 0 = true) (hsel : edgeSelected (s.rf (.evtinCfg i) 1 2) rise = true)
    (hheld : 10 * min 100 (s.rf (.evtinCfg i) 4 10) ≤ held)
    (hx : x = if ((s.tmu.captures[i]).prod - s.captureCons i).toNat = 16 then (s.tmu.captures[i]).overrun raw
      else (s.tmu.captures[i]).stamped raw (s.edgeStamp i raw) rise) :
    Does (.evtInEdge i raw rise held) s fun t => t.tmu.captures = s.tmu.captures.set i x := by
  have hcaptures : (s.advance raw).tmu.captures = s.tmu.captures := by
    obtain ⟨y, hy⟩ := s.advance_tmu raw
    rw [hy]
  have hcons : (s.advance raw).captureCons i = s.captureCons i := by
    unfold State.captureCons State.rf
    rw [s.advance_reg raw (by simp [blockOf])]
  have hstamp : (s.advance raw).edgeStamp i raw = s.edgeStamp i raw := by
    unfold State.edgeStamp State.rf
    rw [s.advance_reg raw (by simp [blockOf]), State.advance_timeAt]
  have he : exec (.evtInEdge i raw rise held) s = finish ((s.advance raw).setCapture i x) := by
    change execEvtInEdge i raw rise held s = _
    unfold execEvtInEdge
    dsimp only
    rw [if_pos (by simp [hon, hsel, hheld]), State.captureEdge_eq (by rwa [hcaptures]), hcons, hstamp, hcaptures, hx]
  refine .of_finish he ?_
  rw [State.tmu_ended, State.setCapture, hcaptures]
  rfl

end edge

theorem evtInEdge_stamps {i : Fin 8} {raw : DWord} {rise : Bool} {held : Nat} (hon : s.rb (.evtinCfg i) 0 = true)
    (hsel : edgeSelected (s.rf (.evtinCfg i) 1 2) rise = true) (hheld : 10 * min 100 (s.rf (.evtinCfg i) 4 10) ≤ held)
    (hgap : ((s.tmu.captures[i]).lastEdge).all (fun r => decide (r.toNat + ns 40 ≤ raw.toNat)) = true)
    (hroom : ((s.tmu.captures[i]).prod - s.captureCons i).toNat ≠ 16) :
    Does (.evtInEdge i raw rise held) s fun t => (t.tmu.captures[i]).prod = (s.tmu.captures[i]).prod + 1 ∧ (t.tmu.captures[i]).lost = 0 ∧
      (t.tmu.captures[i]).entries[(fin 16 (s.tmu.captures[i]).prod.toNat : Fin 16)] =
        captureEntry (s.timeAt (raw - BitVec.ofNat 64 (16 * s.rf (.evtinCfg i) 20 12))) rise (s.tmu.captures[i]).lost ∧
      ∀ j, j ≠ i → t.tmu.captures[j] = s.tmu.captures[j] := by
  obtain ⟨t, he, ht⟩ := evtInEdge_captures hgap hon hsel hheld (if_neg hroom).symm
  refine ⟨t, he, ?_⟩
  simp only [ht, Fin.getElem_fin, Vector.getElem_set_self, Capture.stamped, State.edgeStamp, true_and]
  exact fun j hj => Vector.getElem_set_ne _ _ fun h => hj (Fin.ext h.symm)

theorem evtInEdge_overruns {i : Fin 8} {raw : DWord} {rise : Bool} {held : Nat} (hon : s.rb (.evtinCfg i) 0 = true)
    (hsel : edgeSelected (s.rf (.evtinCfg i) 1 2) rise = true) (hheld : 10 * min 100 (s.rf (.evtinCfg i) 4 10) ≤ held)
    (hgap : ((s.tmu.captures[i]).lastEdge).all (fun r => decide (r.toNat + ns 40 ≤ raw.toNat)) = true)
    (hfull : ((s.tmu.captures[i]).prod - s.captureCons i).toNat = 16) :
    Does (.evtInEdge i raw rise held) s fun t => (t.tmu.captures[i]).prod = (s.tmu.captures[i]).prod ∧
      (t.tmu.captures[i]).entries = (s.tmu.captures[i]).entries ∧ (t.tmu.captures[i]).lost = satHalf (s.tmu.captures[i]).lost := by
  obtain ⟨t, he, ht⟩ := evtInEdge_captures hgap hon hsel hheld (if_pos hfull).symm
  refine ⟨t, he, ?_⟩
  simp [ht, Capture.overrun]

end inputs
end Sys2Proof.Machine

namespace Sys2Proof.Machine

/-! ### Writes by the domain that holds a register -/

section writes
variable {s : State} {d o : Dom}

theorem Writes.ownedWrite (h : Writes s d o) (off : Nat) (v : Word) (f : State → State) : s.ownedWrite d o off v f = finish (f s) := by
  obtain ⟨hserves, hactive, howner⟩ := h
  unfold State.ownedWrite
  rw [if_neg (by simp [hserves, State.present_of_active hactive]), if_pos ⟨howner, hactive⟩]

/-- A refused write leaves a record, or is counted as lost with it (R15). -/
theorem State.refuseIf_eq (s : State) (c : Bool) (d : Dom) (r : Reg) (mask v : DWord) :
    ∃ g, (if c then s.refuse d r mask v else s) = { s with log := g } := by
  unfold State.refuse State.refuseWrite State.record
  dsimp only
  split
  · split
    · exact ⟨_, rfl⟩
    · split
      · exact ⟨_, rfl⟩
      · exact ⟨_, rfl⟩
  · exact ⟨s.log, rfl⟩

theorem getLsbD_clearBit (w : DWord) (i j : Nat) (hj : j < 64) : (clearBit w i).getLsbD j = (w.getLsbD j && !decide (j = i)) := by
  rw [clearBit, BitVec.getLsbD_and, BitVec.getLsbD_not, getLsbD_ones]
  congr 1
  rw [decide_eq_true hj, Bool.true_and]
  exact congrArg _ (decide_eq_decide.2 (by omega))

theorem bit_putBit_self (w : DWord) {i : Nat} (hi : i < 64) (b : Bool) : bit (putBit w i b) i = b := by
  cases b with
  | false => rw [putBit, if_neg nofun, bit, getLsbD_clearBit _ _ _ hi, decide_eq_true rfl, Bool.not_true, Bool.and_false]
  | true => rw [putBit, if_pos rfl, bit_setBit_self w hi]

theorem bit_putBit_other (w : DWord) {i j : Nat} (hj : j < 64) (h : j ≠ i) (b : Bool) : bit (putBit w i b) j = bit w j := by
  cases b with
  | false => rw [putBit, if_neg nofun, bit, getLsbD_clearBit _ _ _ hj, decide_eq_false h, Bool.not_false, Bool.and_true, bit]
  | true => rw [putBit, if_pos rfl, bit, getLsbD_setBit _ _ _ hj, decide_eq_false h, Bool.or_false, bit]

end writes

/-! ### Pulse outputs (R299 to R302) -/

section outputs
variable {s : State} {d : Dom} {i : Fin 4} {v : Word}

/-- The word that a write of v by d leaves in an output's register, its ENABLE apart. -/
def State.outWord (s : State) (d : Dom) (i : Fin 4) (v : Word) : DWord :=
  (s.fieldWrite d (.out i .cfg) mask32 (v.setWidth 64) (fun f => f.lo == 4)).1

/-- An output whose ENABLE becomes b; one that starts has its pulse n before it (R300). -/
def Pulse.switched (p : Pulse) (b : Bool) (n : Nat) : Pulse :=
  if b then { p with running := true, emitted := 0, next := n, last := none } else { p with running := false }

/-- A write of an output's register leaves the word w there, and ENABLE b with pulse state p. -/
def State.outSwitched (s : State) (i : Fin 4) (w : DWord) (b : Bool) (p : Pulse) : State :=
  ((s.setReg (.out i .cfg) w).setReg (.out i .cfg) (putBit w 4 b)).setPulse i p

/-- ENABLE of an output changes: the output starts or stops, whatever the write's other fields come to (R300, R302). -/
theorem State.writeOut_switches {b : Bool} (hv : v.getLsbD 4 = b) (hwas : s.rb (.out i .cfg) 4 = !b)
    (hgood : b = true → (s.setReg (.out i .cfg) (s.outWord d i v)).pulseBad i = false) :
    ∃ w n g, s.writeOut d i v = { s.outSwitched i w b ((s.tmu.pulses[i]).switched b n) with log := g } := by
  let w := s.outWord d i v
  have hbad : ((v.getLsbD 4 && !s.rb (.out i .cfg) 4) && (s.setReg (.out i .cfg) w).pulseBad i) = false := by
    rw [hv, hwas]
    cases b with
    | false => rfl
    | true => rw [hgood rfl]; rfl
  have hne : (v.getLsbD 4 == s.rb (.out i .cfg) 4) = false := by
    rw [hv, hwas]
    cases b <;> rfl
  unfold State.writeOut
  dsimp only
  simp only [w, State.outWord] at hbad
  rw [hbad, hne, hv]
  cases b with
  | false =>
    obtain ⟨g, hg⟩ := State.refuseIf_eq (s.outSwitched i w false ((s.tmu.pulses[i]).switched false 0)) _ d (.out i .cfg) mask32 (v.setWidth 64)
    exact ⟨w, 0, g, hg⟩
  | true =>
    obtain ⟨g, hg⟩ := State.refuseIf_eq (((s.setReg (.out i .cfg) w).setReg (.out i .cfg) (putBit w 4 true)).pulseOn i) _ d (.out i .cfg) mask32
      (v.setWidth 64)
    exact ⟨w, _, g, hg⟩

/-- A write by D0 that switches an output acts on that output and its register alone. -/
theorem evtoutEnable_switches {b : Bool} (hwrite : Writes s d 0) (hv : v.getLsbD 4 = b) (hwas : s.rb (.out i .cfg) 4 = !b)
    (hgood : b = true → (s.setReg (.out i .cfg) (s.outWord d i v)).pulseBad i = false) :
    ∃ n, Does (.evtoutEnable d i v) s fun t => t.tmu = { s.tmu with pulses := s.tmu.pulses.set i ((s.tmu.pulses[i]).switched b n) } ∧
      t.rb (.out i .cfg) 4 = b ∧ OtherRegs s t [.out i .cfg] := by
  obtain ⟨w, n, g, hend⟩ := State.writeOut_switches hv hwas hgood
  have he : exec (.evtoutEnable d i v) s = finish (s.writeOut d i v) := by
    change execEvtoutEnable d i v s = _
    rw [execEvtoutEnable, hwrite.ownedWrite]
  have hreg : (s.writeOut d i v).reg (.out i .cfg) = putBit w 4 b := by
    rw [hend]
    exact (s.setReg (.out i .cfg) w).reg_setReg_same _ _
  refine ⟨n, .of_finish he ⟨?_, ?_, OtherRegs.of_reg fun q hq => ?_⟩⟩
  · rw [State.tmu_ended, hend]
    rfl
  · rw [State.announce_rb _ _ _ (by simp [blockOf]), State.noteMay_rb, State.rb, hreg, bit_putBit_self w (by decide)]
  · rw [hend]
    exact ((s.setReg _ w).reg_setReg_other _ q _ hq).trans (s.reg_setReg_other _ q _ hq)

theorem evtoutEnable_starts (hwrite : Writes s d 0) (hv : v.getLsbD 4 = true) (hoff : s.rb (.out i .cfg) 4 = false)
    (hgood : (s.setReg (.out i .cfg) (s.outWord d i v)).pulseBad i = false) :
    Does (.evtoutEnable d i v) s fun t => (t.tmu.pulses[i]).running = true ∧ (t.tmu.pulses[i]).emitted = 0 ∧ t.rb (.out i .cfg) 4 = true ∧
      (∀ j, j ≠ i → t.tmu.pulses[j] = s.tmu.pulses[j]) ∧ OtherRegs s t [.out i .cfg] ∧ t.tmu.par = s.tmu.par := by
  obtain ⟨n, t, he, htmu, hen, hregs⟩ := evtoutEnable_switches hwrite hv hoff fun _ => hgood
  refine ⟨t, he, ?_, ?_, hen, fun j hj => ?_, hregs, by rw [htmu]⟩
  · simp [htmu, Pulse.switched]
  · simp [htmu, Pulse.switched]
  · rw [htmu]
    exact Vector.getElem_set_ne i.isLt j.isLt fun h => hj (Fin.ext h.symm)

theorem evtoutEnable_stops (hwrite : Writes s d 0) (hv : v.getLsbD 4 = false) (hon : s.rb (.out i .cfg) 4 = true) :
    Does (.evtoutEnable d i v) s fun t => (t.tmu.pulses[i]).running = false ∧ (t.tmu.pulses[i]).ends = (s.tmu.pulses[i]).ends ∧
      t.rb (.out i .cfg) 4 = false ∧ OtherRegs s t [.out i .cfg] := by
  obtain ⟨n, t, he, htmu, hen, hregs⟩ := evtoutEnable_switches hwrite hv hon nofun
  refine ⟨t, he, ?_, ?_, hen, hregs⟩
  · simp [htmu, Pulse.switched]
  · simp [htmu, Pulse.switched]

/-- A pulse that ends keeps an output without COUNT running (R300). -/
theorem pulseEdge_ends {r : DWord} (hends : (s.tmu.pulses[i]).ends = some r) (hcount : s.rf (.out i .count) 0 32 = 0) :
    Does (.pulseEdge i) s fun t => Sends s t (.pulse i r) ∧ (t.tmu.pulses[i]).ends = none ∧ (t.tmu.pulses[i]).running = (s.tmu.pulses[i]).running ∧
      (t.tmu.pulses[i]).emitted = (s.tmu.pulses[i]).emitted := by
  let v : State := (s.advance r).emit (.pulse i r)
  have he : exec (.pulseEdge i) s = finish (v.setPulse i { v.tmu.pulses[i] with ends := none }) := by
    have hn : v.rf (.out i .count) 0 32 = 0 := (congrArg (fld · 0 32) (s.advance_reg r (by simp [blockOf]))).trans hcount
    change execPulseEdge i s = _
    unfold execPulseEdge
    dsimp only
    rw [hends]
    dsimp only
    unfold State.pulseEnds
    rw [if_neg fun h => h.2.1 hn]
  have hsent : Sends s v (.pulse i r) := Sends.of_mid (State.advance_keeps (Keeps.refl s)) ⟨_, rfl, List.mem_singleton_self _⟩
  obtain ⟨x, hx⟩ := s.advance_tmu r
  refine .of_finish he ⟨(show Sends s (v.setPulse i _) _ from hsent).ended, ?_⟩
  rw [State.tmu_ended]
  simp [State.setPulse, State.setTmu, v, hx]

theorem pulseEdge_starts (hends : (s.tmu.pulses[i]).ends = none) (hrun : (s.tmu.pulses[i]).running = true) (hmode : s.pulsing i = true) :
    Does (.pulseEdge i) s fun t => Sends s t (.pulse i (s.rawOf (BitVec.ofNat 64 (s.pulseAt i (s.tmu.pulses[i]).next) - BitVec.ofNat 64 (s.rf (.out i .cfg) 16 16)))) ∧
      (t.tmu.pulses[i]).emitted = (s.tmu.pulses[i]).emitted + 1 ∧ (t.tmu.pulses[i]).last = some (s.tmu.pulses[i]).next ∧
      (t.tmu.pulses[i]).next = (s.tmu.pulses[i]).next + 1 := by
  let r : DWord := s.rawOf (BitVec.ofNat 64 (s.pulseAt i (s.tmu.pulses[i]).next) - BitVec.ofNat 64 (s.rf (.out i .cfg) 16 16))
  let v : State := (s.advance r).emit (.pulse i r)
  have he : exec (.pulseEdge i) s = finish (s.pulseStarts i) := by
    change execPulseEdge i s = _
    unfold execPulseEdge
    dsimp only
    rw [hends]
    dsimp only
    rw [if_pos (by rw [hrun, hmode]; rfl)]
  have hsent : Sends s v (.pulse i r) := Sends.of_mid (State.advance_keeps (Keeps.refl s)) ⟨_, rfl, List.mem_singleton_self _⟩
  refine .of_finish he ⟨(show Sends s (s.pulseStarts i) _ from hsent).ended, ?_⟩
  rw [State.tmu_ended]
  simp [State.pulseStarts, State.setPulse, State.setTmu]

end outputs
/-- Settles O45: an edge and a pulse act on the time unit that time's passage has left as it was but for RAW, and an output switched is set in its register
and its pulse state alone. -/
theorem pulsesAndEdges : Obligations.PulsesAndEdges := by
  unfold Obligations.PulsesAndEdges
  exact ⟨fun _ _ _ _ hon hdir hgap => ppsEdge_stamps hon hdir hgap,
    fun _ _ _ _ _ hon hsel hheld hgap hroom => evtInEdge_stamps hon hsel hheld hgap hroom,
    fun _ _ _ _ _ hon hsel hheld hgap hfull => evtInEdge_overruns hon hsel hheld hgap hfull,
    fun _ _ _ _ hwrite hv hoff hgood => evtoutEnable_starts hwrite hv hoff hgood,
    fun _ _ _ _ hwrite hv hon => evtoutEnable_stops hwrite hv hon,
    fun _ _ _ hends hcount => pulseEdge_ends hends hcount,
    fun _ _ hends hrun hmode => pulseEdge_starts hends hrun hmode⟩

end Sys2Proof.Machine

namespace Sys2Proof.Machine

/-! ### What time that passes leaves of the registers -/

section passage
variable (s : State)

/-- A candidate that leaves its set without a stamp writes no register. -/
theorem State.leaveSet_regs (p : PortId) (c : Cand) (status : Byte) : (s.leaveSet p c status).regs = s.regs := by
  unfold State.leaveSet
  extract_lets x gone s1 s2 s3
  have h2 : s2.regs = s.regs := by
    unfold s2 State.clearPending
    split <;> rfl
  change s3.regs = s.regs
  unfold s3
  split
  · exact h2
  · rw [State.complete_regs, h2]

theorem State.fillSlots_regs (p : PortId) (n : Nat) : (s.fillSlots p n).regs = s.regs := by
  induction n generalizing s with
  | zero => rfl
  | succ n ih =>
    unfold State.fillSlots
    dsimp only
    split
    · rfl
    · split
      · rfl
      · split
        · rw [ih, State.leaveSet_regs]
        · rw [ih, State.setPort_regs]

theorem regs_foldl {α : Type} {f : State → α → State} (hf : ∀ s a, (f s a).regs = s.regs) (l : List α) : (l.foldl f s).regs = s.regs := by
  induction l generalizing s with
  | nil => rfl
  | cons a l ih => rw [List.foldl_cons, ih, hf]

theorem State.settlePort_regs (p : PortId) : (s.settlePort p).regs = s.regs := by
  unfold State.settlePort
  dsimp only
  rw [State.fillSlots_regs, regs_foldl _ fun y c => by rw [State.endCand, State.fillSlots_regs, State.leaveSet_regs]]

theorem State.settle_regs : s.settle.regs = s.regs := by
  unfold State.settle
  exact regs_foldl s (fun y p => y.settlePort_regs p) _

theorem State.setRaw_regs (r : DWord) : (s.setRaw r).regs = s.regs := rfl

theorem State.advance_regs (r : DWord) : (s.advance r).regs = s.regs := by
  rw [State.advance_eq]
  split
  · split
    · rw [State.setRaw_regs, State.settle_regs, State.setRaw_regs]
    · rw [State.setRaw_regs]
  · rfl

end passage

/-! ### The servo (R289 to R294) -/

section servo
variable {s : State} {d : Dom} {n : RingNo} {x : Desc} {v : Word} {st : Servo}

theorem State.servoGoes_tmu (s : State) (st : Servo) : (s.servoGoes st).tmu = { s.tmu with servo := st } := by
  unfold State.servoGoes
  dsimp only
  split <;> split <;> rfl

theorem State.servoGoes_reg (s : State) (st : Servo) {q : Reg} (hq : q ≠ .tmu .evt) : (s.servoGoes st).reg q = s.reg q := by
  unfold State.servoGoes
  dsimp only
  have h : ∀ (c : Prop) [Decidable c] (y : State) (i : Nat), (if c then y.raise (.tmu .evt) i else y).reg q = y.reg q := fun c _ y i => by
    split
    · exact y.reg_raise_other _ q i hq
    · rfl
  rw [h, h]
  rfl

/-- LOCKED is left with UNLOCK (TMU_EVT). -/
theorem State.servoGoes_unlocks (h : s.tmu.servo = .locked) (hst : st ≠ .locked) : (s.servoGoes st).rb (.tmu .evt) 2 = true := by
  unfold State.servoGoes
  dsimp only
  rw [if_neg fun c => hst c.2, if_pos ⟨h, hst⟩, State.rb, State.reg_raise_same, bit_setBit_self _ (by decide)]

theorem State.servoGoes_quiet (h : s.tmu.servo ≠ .locked) (hst : st ≠ .locked) : s.servoGoes st = s.setTmu { s.tmu with servo := st } := by
  unfold State.servoGoes
  dsimp only
  rw [if_neg fun c => hst c.2, if_neg fun c => h c.1]

/-! #### EN and FW -/

theorem State.fabricTime_tmu (s : State) : s.fabricTime.tmu = s.tmu := by
  have h : Only [.fab, .regs .fab, .regs .tmu] s s.fabricTime := by apply State.fabricTime_only (Only.refl s) <;> decide
  exact h.2 .tmu (by decide)

/-- The time firmware names the servo's input and leaves its ENABLE (R294, R381). -/
theorem State.fabricTime_enable (s : State) : s.fabricTime.rb (.tmu .servo) 0 = s.rb (.tmu .servo) 0 := by
  have hname : ∀ y : State, y.nameSource.rb (.tmu .servo) 0 = y.rb (.tmu .servo) 0 := fun y => by
    unfold State.nameSource
    split
    · rw [State.setRf, State.rb, State.reg_setReg_same, bit, getLsbD_putFld _ _ _ _ _ (by decide), if_neg (by decide)]
      rfl
    · rfl
  have hlast : ∀ (c : Prop) [Decidable c] (y : State), (if c then y.nameSource.fabEvt 2 else y.nameSource).rb (.tmu .servo) 0 = y.rb (.tmu .servo) 0 :=
    fun c _ y => by
      split
      · exact (congrArg (bit · 0) (y.nameSource.reg_raise_other (.fab .evt) (.tmu .servo) 2 nofun)).trans (hname y)
      · exact hname y
  unfold State.fabricTime
  dsimp only
  rw [hlast]
  rfl

/-- A bit that a write leaves as it is, in a register of which no bit is cleared by a 1 (R14, R15). -/
theorem State.fieldWrite_keepsBit {r : Reg} {mask w : DWord} {skip : Field → Bool} {i : Nat} (hi : i < 64) (hacc : ∀ f ∈ r.fields, f.acc ≠ .rw1c)
    (hsame : ((s.reg r &&& ~~~ mask) ||| (w &&& mask)).getLsbD i = (s.reg r).getLsbD i) :
    (s.fieldWrite d r mask w skip).1.getLsbD i = (s.reg r).getLsbD i := by
  unfold State.fieldWrite
  refine List.foldlRecOn (motive := fun acc : DWord × Bool => acc.1.getLsbD i = (s.reg r).getLsbD i) _ _ rfl fun acc hbit f hf => ?_
  have htaken : (putFld acc.1 f.lo f.width (fld ((s.reg r &&& ~~~ mask) ||| (w &&& mask)) f.lo f.width)).getLsbD i = (s.reg r).getLsbD i := by
    rw [getLsbD_putFld _ _ _ _ _ hi]
    split
    next h => rw [testBit_fld, Nat.add_sub_cancel' h.1, hsame, decide_eq_true (by omega), Bool.true_and]
    next => exact hbit
  have hne := hacc f (List.mem_of_mem_filter hf)
  dsimp only
  split
  · exact hbit
  · exact absurd ‹_› hne
  · split
    · exact hbit
    · split
      · exact htaken
      · exact hbit

/-- The word that a write of v by d leaves in TMU_SERVO, its EN apart. -/
def State.servoWord (s : State) (d : Dom) (v : Word) : DWord := (s.fieldWrite d (.tmu .servo) mask32 (v.setWidth 64) (fun f => f.lo == 0)).1

/-- EN becomes en, with the other fields written and before the time firmware does anything (R293). -/
def State.servoSwitched (s : State) (d : Dom) (v : Word) (en : Bool) : State :=
  ((s.setReg (.tmu .servo) (s.servoWord d v)).setReg (.tmu .servo) (putBit (s.servoWord d v) 0 en)).servoSwitch en

theorem servoEnable_switches {en : Bool} (hwrite : Writes s d 0) (hv : v.getLsbD 0 = en) (hwas : s.rb (.tmu .servo) 0 = !en)
    (hfw : s.rb (.tmu .servo) 6 = false) :
    ∃ u g, exec (.servoEnable d v) s = finish { u with log := g } ∧
      u = if (s.servoSwitched d v en).rb (.tmu .servo) 6 then (s.servoSwitched d v en).firmwareTakes else s.servoSwitched d v en := by
  obtain ⟨g, hg⟩ := State.refuseIf_eq (if (s.servoSwitched d v en).rb (.tmu .servo) 6 then (s.servoSwitched d v en).firmwareTakes else s.servoSwitched d v en)
    (s.fieldWrite d (.tmu .servo) mask32 (v.setWidth 64) (fun f => f.lo == 0)).2 d (.tmu .servo) mask32 (v.setWidth 64)
  refine ⟨_, g, ?_, rfl⟩
  have hne : (v.getLsbD 0 == s.rb (.tmu .servo) 0) = false := by
    rw [hv, hwas]
    cases en <;> rfl
  change execServoEnable d v s = _
  rw [execServoEnable, hwrite.ownedWrite, ← hg]
  unfold State.writeServo
  dsimp only
  rw [hne, hfw, hv]
  simp only [Bool.and_false, Bool.or_false, Bool.false_eq_true, if_false, Bool.not_false, Bool.and_true]
  rfl

/-- A servo that is switched starts or stops anew, without a sample (R293). -/
theorem State.servoSwitch_eq (s : State) (en : Bool) : ∃ m : Tmu, s.servoSwitch en = (s.setTmu m).servoGoes (if en then .freerun else .off) ∧
    m.servo = s.tmu.servo ∧ m.samples = [] ∧ m.par = s.tmu.par ∧ m.lockCnt = s.tmu.lockCnt ∧ m.lastAt = s.tmu.lastAt ∧ (en = true → m.ref = none) := by
  cases en with
  | false => exact ⟨_, rfl, rfl, rfl, rfl, rfl, rfl, nofun⟩
  | true => exact ⟨_, rfl, rfl, rfl, rfl, rfl, rfl, fun _ => rfl⟩

theorem State.servoSwitched_reg (s : State) (d : Dom) (v : Word) (en : Bool) :
    (s.servoSwitched d v en).reg (.tmu .servo) = putBit (s.servoWord d v) 0 en := by
  obtain ⟨m, hm, -⟩ := ((s.setReg (.tmu .servo) (s.servoWord d v)).setReg (.tmu .servo) (putBit (s.servoWord d v) 0 en)).servoSwitch_eq en
  rw [State.servoSwitched, hm, State.servoGoes_reg _ _ (by simp)]
  exact State.reg_setReg_same _ _ _

theorem State.firmwareTakes_running (h : s.rb (.tmu .servo) 0 = true) : s.firmwareTakes = s.fabricTime := by
  unfold State.firmwareTakes
  dsimp only
  rw [State.fabricTime_enable, h]
  rfl

theorem servoEnable_starts (hwrite : Writes s d 0) (hv : v.getLsbD 0 = true) (hoff : s.rb (.tmu .servo) 0 = false) (hfw : s.rb (.tmu .servo) 6 = false) :
    Does (.servoEnable d v) s fun t => t.tmu.servo = .freerun ∧ t.rb (.tmu .servo) 0 = true ∧ t.tmu.ref = none ∧ t.tmu.lockCnt = s.tmu.lockCnt ∧
      t.tmu.lastAt = s.tmu.lastAt ∧ t.tmu.samples = [] ∧ t.tmu.par = s.tmu.par := by
  obtain ⟨u, g, he, hu⟩ := servoEnable_switches hwrite hv hoff hfw
  have hen : (s.servoSwitched d v true).rb (.tmu .servo) 0 = true := by rw [State.rb, State.servoSwitched_reg, bit_putBit_self _ (by decide)]
  rw [State.firmwareTakes_running hen] at hu
  have htmu : u.tmu = (s.servoSwitched d v true).tmu := by
    rw [hu, apply_ite State.tmu, State.fabricTime_tmu, ite_self]
  have hrun : u.rb (.tmu .servo) 0 = true := by
    rw [hu, apply_ite (State.rb · (.tmu .servo) 0), State.fabricTime_enable, ite_self, hen]
  obtain ⟨m, hm, -, hsamples, hpar, hcnt, hlast, href⟩ :=
    ((s.setReg (.tmu .servo) (s.servoWord d v)).setReg (.tmu .servo) (putBit (s.servoWord d v) 0 true)).servoSwitch_eq true
  have hgoes : u.tmu = { m with servo := .freerun } := by
    rw [htmu, State.servoSwitched, hm, State.servoGoes_tmu]
    rfl
  refine .of_finish he ?_
  rw [State.tmu_ended, State.announce_rb _ _ _ (by simp [blockOf]), State.noteMay_rb]
  change u.tmu.servo = _ ∧ u.rb _ 0 = true ∧ u.tmu.ref = _ ∧ u.tmu.lockCnt = _ ∧ u.tmu.lastAt = _ ∧ u.tmu.samples = _ ∧ u.tmu.par = _
  rw [hgoes]
  exact ⟨rfl, hrun, href rfl, hcnt, hlast, hsamples, hpar⟩

/-- FW, written 0 over 0, stays 0. -/
theorem State.servoWord_firmware (hv : v.getLsbD 6 = false) (hfw : s.rb (.tmu .servo) 6 = false) : bit (s.servoWord d v) 6 = false := by
  have hold : (s.reg (.tmu .servo)).getLsbD 6 = false := hfw
  refine (State.fieldWrite_keepsBit (by decide) (by decide) ?_).trans hfw
  rw [BitVec.getLsbD_or, BitVec.getLsbD_and, BitVec.getLsbD_and, hold, BitVec.getLsbD_setWidth, hv]
  rfl

theorem servoEnable_stops (hwrite : Writes s d 0) (hv : v.getLsbD 0 = false) (hv6 : v.getLsbD 6 = false) (hon : s.rb (.tmu .servo) 0 = true)
    (hfw : s.rb (.tmu .servo) 6 = false) :
    Does (.servoEnable d v) s fun t => t.tmu.servo = .off ∧ t.rb (.tmu .servo) 0 = false ∧ (s.tmu.servo = .locked → t.rb (.tmu .evt) 2 = true) ∧
      t.tmu.par = s.tmu.par := by
  obtain ⟨u, g, he, hu⟩ := servoEnable_switches hwrite hv hon hfw
  have hreg := s.servoSwitched_reg d v false
  have hnofw : (s.servoSwitched d v false).rb (.tmu .servo) 6 = false := by
    rw [State.rb, hreg, bit_putBit_other _ (by decide) (by decide), State.servoWord_firmware hv6 hfw]
  rw [hnofw, if_neg Bool.false_ne_true] at hu
  obtain ⟨m, hm, hservo, -, hpar, -⟩ :=
    ((s.setReg (.tmu .servo) (s.servoWord d v)).setReg (.tmu .servo) (putBit (s.servoWord d v) 0 false)).servoSwitch_eq false
  have hgoes : u = (State.setTmu _ m).servoGoes .off := hu.trans hm
  refine .of_finish he ?_
  rw [State.tmu_ended, State.announce_rb _ _ _ (by simp [blockOf]), State.noteMay_rb, State.announce_rb _ _ _ (by simp [blockOf]), State.noteMay_rb]
  change u.tmu.servo = _ ∧ u.rb _ 0 = false ∧ (_ → u.rb _ 2 = true) ∧ u.tmu.par = _
  refine ⟨?_, ?_, fun hlocked => ?_, ?_⟩
  · rw [hgoes, State.servoGoes_tmu]
  · rw [hu, State.rb, hreg, bit_putBit_self _ (by decide)]
  · rw [hgoes]
    exact State.servoGoes_unlocks (hservo.trans hlocked) nofun
  · rw [hgoes, State.servoGoes_tmu]
    exact hpar

/-! #### Samples and holdover -/

theorem servoSample_exec {a e : DWord} {r : Option DWord} {l : List (DWord × DWord × Option DWord)} (h : s.tmu.samples = (a, e, r) :: l) :
    exec .servoSample s = finish ((s.setTmu { s.tmu with samples := l }).takeSample a e r) := by
  change execServoSample s = _
  rw [execServoSample, h]

theorem State.takeSample_stale {a e : DWord} {r : Option DWord} (hon : s.tmu.servo ≠ .off) (hstale : s.staleSample a r = true) :
    s.takeSample a e r = s.setTmu { s.tmu with stale := s.tmu.stale + 1 } := by
  rw [State.takeSample, if_neg hon, if_pos hstale]

theorem servoSample_stale {a e : DWord} {r : Option DWord} {l : List (DWord × DWord × Option DWord)} (h : s.tmu.samples = (a, e, r) :: l)
    (hon : s.tmu.servo ≠ .off) (hstale : s.staleSample a r = true) :
    Does .servoSample s fun t => t.tmu = { s.tmu with samples := l, stale := s.tmu.stale + 1 } ∧ SameRegs s t := by
  have he := servoSample_exec h
  rw [State.takeSample_stale (s := s.setTmu { s.tmu with samples := l }) hon hstale] at he
  exact .of_finish he ⟨State.tmu_ended _, SameRegs.of_regs rfl⟩

/-- A sample within STEP_THR steps nothing in the free run: it becomes the reference (R293). -/
theorem State.applySample_first {a e : DWord} (h : s.tmu.servo = .freerun) (hthr : e.toInt.natAbs < s.stepThr) :
    s.applySample e a = s.setTmu { s.tmu with ref := some a, lockCnt := 0, servo := .locking } := by
  unfold State.applySample
  dsimp only
  rw [h]
  dsimp only
  rw [decide_eq_false (Nat.not_le.2 hthr), Bool.false_and, if_neg Bool.false_ne_true, State.servoGoes_quiet (st := .locking) _ nofun]
  · rfl
  · exact (nofun : Servo.freerun ≠ .locked)

theorem State.takeSample_first {a e : DWord} {r : Option DWord} (hfree : s.tmu.servo = .freerun) (hfresh : s.staleSample a r = false)
    (hthr : e.toInt.natAbs < s.stepThr) :
    s.takeSample a e r = s.setTmu { s.tmu with
      used := s.tmu.used + 1, lastOffset := e, lastAt := some a, lastUse := s.raw, ref := some a, lockCnt := 0, servo := .locking } := by
  have hfirst := State.applySample_first (a := a) (e := e)
    (s := s.setTmu { s.tmu with used := s.tmu.used + 1, lastOffset := e, lastAt := some a, lastUse := s.raw }) hfree hthr
  rw [State.takeSample, if_neg (fun c => Servo.noConfusion (hfree.symm.trans c)), hfresh, if_neg Bool.false_ne_true]
  exact hfirst

theorem servoSample_locks {a e : DWord} {r : Option DWord} {l : List (DWord × DWord × Option DWord)} (h : s.tmu.samples = (a, e, r) :: l)
    (hfree : s.tmu.servo = .freerun) (hfresh : s.staleSample a r = false) (hthr : e.toInt.natAbs < s.stepThr) :
    Does .servoSample s fun t => t.tmu.servo = .locking ∧ t.tmu.ref = some a ∧ t.tmu.used = s.tmu.used + 1 ∧ t.tmu.lastOffset = e ∧
      t.tmu.par = s.tmu.par ∧ t.tmu.samples = l ∧ SameRegs s t := by
  have he := servoSample_exec h
  rw [State.takeSample_first (s := s.setTmu { s.tmu with samples := l }) hfree hfresh hthr] at he
  refine .of_finish he ?_
  rw [State.tmu_ended]
  exact ⟨rfl, rfl, rfl, rfl, rfl, rfl, SameRegs.of_regs rfl⟩

theorem servoHoldover_holds (h : s.tmu.servo = .locking ∨ s.tmu.servo = .locked) :
    Does .servoHoldover s fun t => t.tmu.servo = .holdover ∧ t.tmu.par.rate = rateOfInt s.tmu.integ ∧ t.tmu.ref = none ∧ t.rb (.tmu .evt) 3 = true ∧
      (s.tmu.servo = .locked → t.rb (.tmu .evt) 2 = true) ∧ OtherRegs s t [.tmu .evt] := by
  let u : State := s.advance (after s.tmu.lastUse (ms s.holdTo))
  let v : State := (u.setRate (rateOfInt u.tmu.integ)).setTmu { (u.setRate (rateOfInt u.tmu.integ)).tmu with ref := none }
  have he : exec .servoHoldover s = finish ((v.servoGoes .holdover).raise (.tmu .evt) 3) := by
    change execServoHoldover s = _
    rw [execServoHoldover, if_pos h]
  have hregs : v.regs = s.regs := s.advance_regs _
  obtain ⟨r, hr⟩ := s.advance_tmu (after s.tmu.lastUse (ms s.holdTo))
  have hinteg : u.tmu.integ = s.tmu.integ := by rw [hr]
  have hservo : v.tmu.servo = s.tmu.servo := (congrArg Tmu.servo hr :)
  refine .of_finish he ?_
  rw [State.tmu_ended, State.raise_tmu, State.servoGoes_tmu, State.announce_rb _ _ _ (by simp [blockOf]), State.noteMay_rb,
    State.announce_rb _ _ _ (by simp [blockOf]), State.noteMay_rb, State.rb, State.rb, State.reg_raise_same, bit_setBit_self _ (by decide)]
  refine ⟨rfl, congrArg rateOfInt hinteg, rfl, rfl, fun hlocked => ?_, OtherRegs.of_reg fun q hq => ?_⟩
  · exact bit_setBit_of_bit 3 (by decide) (State.servoGoes_unlocks (hservo.trans hlocked) nofun)
  · rw [State.reg_raise_other _ _ _ _ hq, State.servoGoes_reg _ _ hq, State.reg, hregs, State.reg]

/-! #### OFFSET_SAMPLE -/

/-- The samples that wait after one of stream src of domain d with AT and offset (R289, R290, R294). -/
def State.offered (s : State) (d : Dom) (src : Nat) (at_ e : DWord) : List (DWord × DWord × Option DWord) :=
  if s.rf (.tmu .servo) 8 4 = d.val ∧ ¬(src = 0 ∧ s.rb (.tmu .servo) 6 = true) ∧ s.rb (.tmu .servo) 0 = true ∧ s.rf (.tmu .servo) 1 3 = src then
    s.tmu.samples ++ [(at_, e, none)]
  else s.tmu.samples

theorem State.offsetOp_eq {o : Op} (hres : reservedZero x [(4, 0, 8), (8, 0, 64), (16, 0, 64)] = true) (hsrc : dnum x 4 1 ≤ 3)
    (hfeed : (s.entry o.dom).timeFeed = true) :
    s.offsetOp x o = (s.setTmu { s.tmu with
      samples := s.offered o.dom (dnum x 4 1) (BitVec.ofNat 64 (dnum x 16 8)) (BitVec.ofNat 64 (dnum x 8 8)) }).complete o 0x00 := by
  unfold State.offsetOp State.offered State.offerSample
  dsimp only
  rw [if_neg (by simp [hres, hsrc]), if_neg (by simp [hfeed])]
  congr 1
  by_cases hdom : s.rf (.tmu .servo) 8 4 = o.dom.val ∧ ¬(dnum x 4 1 = 0 ∧ s.rb (.tmu .servo) 6 = true)
  · rw [if_pos (by simpa [imp_iff_not_or] using hdom)]
    by_cases hsel : s.rb (.tmu .servo) 0 = true ∧ s.rf (.tmu .servo) 1 3 = dnum x 4 1
    · rw [if_pos (by simpa using hsel), if_pos ⟨hdom.1, hdom.2, hsel⟩]
    · rw [if_neg (by simpa using hsel), if_neg fun h => hsel h.2.2]
      rfl
  · rw [if_neg (by simpa [imp_iff_not_or] using hdom), if_neg fun h => hdom ⟨h.1, h.2.1⟩]
    rfl

theorem offsetSample_completes (h : CmdReady s d n x) (hres : reservedZero x [(4, 0, 8), (8, 0, 64), (16, 0, 64)] = true) (hsrc : dnum x 4 1 ≤ 3)
    (hfeed : (s.entry d).timeFeed = true) :
    Does (.offsetSample d n x) s fun t => Answered s t d n x 0x00 0 ∧ SameRegs s t ∧ t.ports = s.ports ∧
      t.tmu.samples = s.offered d (dnum x 4 1) (BitVec.ofNat 64 (dnum x 16 8)) (BitVec.ofNat 64 (dnum x 8 8)) := by
  let u := s.fetch d n
  let l := u.offered d (dnum x 4 1) (BitVec.ofNat 64 (dnum x 16 8)) (BitVec.ofNat 64 (dnum x 8 8))
  have he : exec (.offsetSample d n x) s = finish (s.command d n x fun s op => s.offsetOp x op) := by
    change execOffsetSample d n x s = _
    rw [execOffsetSample, if_pos h.on]
  have hf : u.offsetOp x (s.opOf d n x) = (u.setTmu { u.tmu with samples := l }).complete (s.opOf d n x) 0x00 :=
    State.offsetOp_eq hres hsrc (by rw [State.entry_fetch]; exact hfeed)
  have hk : Keeps false s (u.setTmu { u.tmu with samples := l }) := State.setTmu_keeps (s.fetch_keeps' d n true)
  have hc := h.concluded (im := false) (f := fun s op => s.offsetOp x op) hf hk ((SameCq.fetch h).of_eq rfl rfl rfl rfl rfl)
  refine ⟨_, he, hc.answered, hc.sameRegs (s.fetch_regs d n true), hc.ports.trans (s.fetch_ports d n true), ?_⟩
  have hend : ((u.setTmu { u.tmu with samples := l }).complete (s.opOf d n x) 0x00).tmu = { u.tmu with samples := l } :=
    (State.complete_only (Only.refl (ps := [.counts, .halves, .out, .rings]) _) (by decide) (by decide) (by decide) (by decide)).2 .tmu (by decide)
  rw [State.tmu_ended, h.command_eq, hf, hend]
  exact s.fetch_reads d n true (fun y => y.offered d (dnum x 4 1) (BitVec.ofNat 64 (dnum x 16 8)) (BitVec.ofNat 64 (dnum x 8 8))) fun _ _ => rfl

end servo

/-- Settles O44: a switch of EN and a sample set the servo alone, whose passages raise LOCK and UNLOCK; the time that passes before a holdover writes no
register. -/
theorem servoRuns : Obligations.ServoRuns := by
  unfold Obligations.ServoRuns
  exact ⟨fun _ _ _ hwrite hv hoff hfw => servoEnable_starts hwrite hv hoff hfw,
    fun _ _ _ hwrite hv hv6 hon hfw => servoEnable_stops hwrite hv hv6 hon hfw,
    fun _ _ _ _ _ h hon hstale => servoSample_stale h hon hstale,
    fun _ _ _ _ _ h hfree hfresh hthr => servoSample_locks h hfree hfresh hthr,
    fun _ h => servoHoldover_holds h,
    fun _ _ _ _ h hres hsrc hfeed => offsetSample_completes h hres hsrc hfeed⟩

end Sys2Proof.Machine

namespace Sys2Proof.Machine

/-! ### RAW does not fall (R273) -/

/-- RAW has not fallen. -/
def Later (s t : State) : Prop := s.raw ≤ t.raw

/-- Every part but the time unit. -/
def notTime : List Part := everyPart.erase .tmu

theorem mem_notTime {p : Part} (h : p ≠ .tmu) : p ∈ notTime := (List.mem_erase_of_ne h).2 (mem_everyPart p)

section later
variable {s0 s t : State} {r : Result}

theorem Later.refl (s : State) : Later s s := BitVec.le_refl s.raw

theorem Later.trans (h : Later s0 s) (g : Later s t) : Later s0 t := BitVec.le_trans h g

theorem Later.of_raw (h : t.raw = s.raw) : Later s t := by
  rw [Later, h]
  exact BitVec.le_refl s.raw

theorem Later.same (h : Later s0 s) (g : t.raw = s.raw) : Later s0 t := h.trans (.of_raw g)

/-- What leaves the time unit alone keeps RAW. -/
theorem Only.later (h : Only notTime s t) : Later s t :=
  .of_raw (congrArg Tmu.raw (h.2 .tmu (by decide)))

theorem Later.only (h : Later s0 s) (g : Only notTime s t) : Later s0 t := h.trans g.later

theorem Later.ite {c : Prop} [Decidable c] (hs : Later s0 s) (ht : Later s0 t) : Later s0 (if c then s else t) := by
  split <;> assumption

theorem Later.foldl {α : Type} {l : List α} {f : State → α → State} (h : Later s0 s) (hf : ∀ y a, Later s0 y → Later s0 (f y a)) :
    Later s0 (l.foldl f s) := by
  induction l generalizing s with
  | nil => exact h
  | cons a l ih => exact ih (hf s a h)

/-- What every command ends with leaves the time unit alone. -/
theorem Later.finished (h : Later s0 s) : Result.All (Later s0) (finish s) :=
  Result.all_next (h.trans (.of_raw (by rw [State.announce_raw, State.noteMay_raw])))

theorem Result.All.later (h : Later s0 s) (g : Result.All (Only notTime s) r) : Result.All (Later s0) r :=
  Result.all_iff.2 fun t ht => h.only (Result.all_iff.1 g t ht)

/-- RAW goes on to the instant named, or stands still. -/
theorem State.advance_later (h : Later s0 s) {r : DWord} : Later s0 (s.advance r) := by
  rw [State.advance_eq]
  split
  next hr =>
    rw [Bool.and_eq_true, decide_eq_true_eq] at hr
    exact h.trans (BitVec.le_of_lt hr.2)
  next => exact h

theorem State.waitFrom_later (h : Later s0 s) {r : DWord} {n : Nat} : Later s0 (s.waitFrom r n) := State.advance_later h

/-! The time unit's own operations keep RAW. -/

theorem State.setTmu_later (h : Later s0 s) {u : Tmu} (g : u.raw = s.tmu.raw) : Later s0 (s.setTmu u) := h.same g

theorem State.setPulse_later (h : Later s0 s) {i : Fin 4} {p : Pulse} : Later s0 (s.setPulse i p) := h.same (by rfl)

theorem State.setReg_later (h : Later s0 s) {r : Reg} {v : DWord} : Later s0 (s.setReg r v) := h.same (by rfl)

theorem State.setRf_later (h : Later s0 s) {r : Reg} {lo w n : Nat} : Later s0 (s.setRf r lo w n) := h.same (by rfl)

theorem State.servoGoes_later (h : Later s0 s) {st : Servo} : Later s0 (s.servoGoes st) :=
  h.same (by rw [State.raw, State.servoGoes_tmu]; rfl)

theorem State.resumePulse_later (h : Later s0 s) {i : Fin 4} : Later s0 (s.resumePulse i) := by
  unfold State.resumePulse
  exact .ite (h.same (by rfl)) h

theorem State.epochEntries_later (h : Later s0 s) {t : DWord} : Later s0 (s.epochEntries t) :=
  h.same (congrArg Tmu.raw (s.epochEntries_tmu t))

theorem State.stepTime_later (h : Later s0 s) {delta : DWord} : Later s0 (s.stepTime delta) := by
  unfold State.stepTime
  extract_lets par s1 u s2 s3 s4 s5
  have h2 : Later s0 s2 := h.same (by rfl)
  have h3 : Later s0 s3 := h2.same (by rfl)
  have h4 : Later s0 s4 := by
    refine .foldl h3 fun y d hy => ?_
    exact .ite (hy.same (by rfl)) hy
  have h5 : Later s0 s5 := State.epochEntries_later h4
  exact .foldl h5 fun _ _ hy => State.resumePulse_later hy

theorem State.refuseIf_later (h : Later s0 s) {c : Bool} {d : Dom} {r : Reg} {mask v : DWord} :
    Later s0 (if c then s.refuse d r mask v else s) := by
  obtain ⟨g, hg⟩ := s.refuseIf_eq c d r mask v
  rw [hg]
  exact h.same (by rfl)

theorem State.refuse_later (h : Later s0 s) {d : Dom} {r : Reg} {mask v : DWord} : Later s0 (s.refuse d r mask v) :=
  h.only (State.refuse_only (Only.refl s) (mem_notTime nofun))

theorem State.writeStep_later (h : Later s0 s) {d : Dom} {w : Width} {v : DWord} : Later s0 (s.writeStep d w v) := by
  unfold State.writeStep
  extract_lets u s1 lo
  have h1 : Later s0 s1 := .ite (State.setTmu_later h (by rfl)) h
  refine .ite (State.refuse_later h1) ?_
  cases w with
  | low => exact State.setTmu_later h (by rfl)
  | high | whole => exact State.stepTime_later (State.setTmu_later h (by rfl))

theorem State.setRate_later (h : Later s0 s) {rate : Word} : Later s0 (s.setRate rate) := by
  unfold State.setRate
  exact State.setTmu_later h (by rfl)

theorem State.piUpdate_later (h : Later s0 s) {e : Int} {a r : DWord} : Later s0 (s.piUpdate e a r) := by
  unfold State.piUpdate
  exact State.setTmu_later (State.setRate_later (State.setReg_later (State.setTmu_later h (by rfl)))) (by rfl)

theorem State.applySample_later (h : Later s0 s) {e a : DWord} : Later s0 (s.applySample e a) := by
  unfold State.applySample
  extract_lets v big fine first free
  have hfirst : ∀ {y : State}, Later s0 y → Later s0 (first y) := fun hy => State.setTmu_later hy (by rfl)
  have hfree : Later s0 free := .ite (State.stepTime_later h) (hfirst h)
  split
  · exact h
  · exact State.servoGoes_later (State.setTmu_later hfree (by rfl))
  · exact State.servoGoes_later (State.setTmu_later hfree (by rfl))
  · extract_lets y
    have hy : Later s0 y := .ite (State.servoGoes_later h) h
    split
    · exact hfirst hy
    · refine .ite (State.setTmu_later (State.stepTime_later hy) (by rfl)) ?_
      extract_lets z n u w
      have hz : Later s0 z := State.piUpdate_later hy
      have hw : Later s0 w := State.setTmu_later hz (by rfl)
      exact .ite (.ite (State.servoGoes_later hw) hw) (State.setTmu_later hz (by rfl))

theorem State.takeSample_later (h : Later s0 s) {a e : DWord} {r : Option DWord} : Later s0 (s.takeSample a e r) := by
  unfold State.takeSample
  refine .ite h (.ite (State.setTmu_later h (by rfl)) ?_)
  extract_lets u y
  exact State.applySample_later (State.setTmu_later h (by rfl))

theorem State.offerSample_later (h : Later s0 s) {src : Nat} {a e : DWord} {r : Option DWord} : Later s0 (s.offerSample src a e r) := by
  obtain ⟨l, hl⟩ := s.offerSample_tmu src a e r
  exact h.same (by rw [State.raw, hl]; rfl)

theorem State.servoSwitch_later (h : Later s0 s) {en : Bool} : Later s0 (s.servoSwitch en) := by
  unfold State.servoSwitch
  extract_lets i
  refine .ite ?_ (State.servoGoes_later (State.setTmu_later h (by rfl)))
  exact State.servoGoes_later (State.setTmu_later h (by rfl))

theorem State.firmwareTakes_later (h : Later s0 s) : Later s0 s.firmwareTakes := by
  have hfab : Later s0 s.fabricTime := h.same (congrArg Tmu.raw s.fabricTime_tmu)
  unfold State.firmwareTakes
  exact .ite hfab (State.servoSwitch_later (State.setRf_later hfab))

theorem State.writeServo_later (h : Later s0 s) {d : Dom} {v : Word} : Later s0 (s.writeServo d v) := by
  unfold State.writeServo
  extract_lets r was en fw bad
  split
  extract_lets s1 s2 s3
  have h1 : Later s0 s1 := State.setReg_later h
  have h2 : Later s0 s2 := .ite h1 (State.servoSwitch_later (State.setReg_later h1))
  have h3 : Later s0 s3 := .ite (State.firmwareTakes_later h2) h2
  exact State.refuseIf_later h3

theorem State.writeEvtin_later (h : Later s0 s) {d : Dom} {i : Fin 8} {v : DWord} : Later s0 (s.writeEvtin d i v) := by
  unfold State.writeEvtin
  extract_lets r move bad
  split
  extract_lets s1 u x s2
  have h2 : Later s0 s2 := .ite (h.same (by rfl)) (h.same (by rfl))
  exact State.refuseIf_later h2

theorem State.writeOut_later (h : Later s0 s) {d : Dom} {i : Fin 4} {v : Word} : Later s0 (s.writeOut d i v) := by
  unfold State.writeOut
  extract_lets r was en
  split
  extract_lets s1 bad p s2
  have h2 : Later s0 s2 := .ite (h.same (by rfl)) (.ite (h.same (by rfl)) (h.same (by rfl)))
  exact State.refuseIf_later h2

theorem State.captureEdge_later (h : Later s0 s) {i : Fin 8} {raw : DWord} {rise : Bool} : Later s0 (s.captureEdge i raw rise) := by
  unfold State.captureEdge
  exact .ite (h.same (by rfl)) (.ite (h.same (by rfl)) (h.same (by rfl)))

theorem State.complete_later (h : Later s0 s) {o : Op} {st : Byte} : Later s0 (s.complete o st) :=
  h.only (by apply State.complete_only (Only.refl _) <;> exact mem_notTime nofun)

theorem State.offsetOp_later (h : Later s0 s) {x : Desc} {o : Op} : Later s0 (s.offsetOp x o) := by
  unfold State.offsetOp
  exact .ite (State.complete_later h) (.ite (State.complete_later h)
    (State.complete_later (.ite (State.offerSample_later h) h)))

theorem State.dutyStarts_later (h : Later s0 s) {u : Duty} : Later s0 (s.dutyStarts u) := by
  unfold State.dutyStarts
  split
  · refine h.only ?_
    apply State.allocator_only
    apply State.fabTopo_only (Only.refl s)
    all_goals exact mem_notTime nofun
  · exact h.only (State.listenAgain_only (Only.refl s) (mem_notTime nofun))
  · exact .ite (State.firmwareTakes_later h) h
  · exact h

end later

end Sys2Proof.Machine

namespace Sys2Proof.Machine

/-! ### Operations that carry the time on -/

section carried
variable {s0 s : State} {r : Result} (h : Later s0 s)
include h

theorem State.driveRef_later {k : GrpId} {p : PortId} {cold : Bool} {sof : DWord} : Later s0 (s.driveRef k p cold sof) := by
  unfold State.driveRef
  extract_lets y g z
  have hz : Later s0 z := (State.advance_later h).same (by rfl)
  exact hz.only (by apply State.driveSof_only (Only.refl z) <;> exact mem_notTime nofun)

theorem State.sendRef_later {k : GrpId} {cold : Bool} {at_ : DWord} : Later s0 (s.sendRef k cold at_) := by
  unfold State.sendRef
  exact .ite (State.driveRef_later h) (h.same (by rfl))

theorem State.planCold_later {k : GrpId} : Later s0 (s.planCold k) :=
  h.only (State.planCold_only (Only.refl s) (mem_notTime nofun))

theorem State.sendCold_later {k : GrpId} : Later s0 (s.sendCold k) := by
  unfold State.sendCold
  extract_lets g y
  exact .ite (State.planCold_later (h.same (by rfl))) (State.sendRef_later (h.same (by rfl)))

theorem State.startOp_later {p : PortId} {sof : DWord} : Later s0 (s.startOp p sof) := by
  have hsof : Later s0 (s.advance sof) := State.advance_later h
  have hcand : ∀ c, Later s0 ((s.advance sof).startCandidate p c sof) := fun c =>
    hsof.only (by apply State.startCandidate_only (Only.refl _) <;> exact mem_notTime nofun)
  have hfield : ∀ w f, Later s0 ((s.advance sof).driveSof p w f sof) := fun w f =>
    hsof.only (by apply State.driveSof_only (Only.refl _) <;> exact mem_notTime nofun)
  unfold State.startOp
  extract_lets at_ ref c ft
  clear_value ref ft
  cases ref with
  | some x =>
    obtain ⟨k, cold⟩ := x
    refine .ite ?_ (State.driveRef_later h)
    split
    · exact State.planCold_later h
    · refine .ite h (.ite (State.planCold_later h) (State.driveRef_later (h.same (by rfl))))
  | none =>
    refine .ite h ?_
    split
    · exact .ite (hcand _) (hfield _ _)
    · exact hfield _ _
    · exact hcand _
    · exact h

theorem State.starSofOp_later {k : GrpId} {b : Branch} {sof : DWord} {ident : Nat} {ide : Bool} {dominant : BitVec 16} :
    Later s0 (s.starSofOp k b sof ident ide dominant) := by
  have hbranch : ∀ x, Later s0 ((s.advance sof).setBranch k b x) := fun _ =>
    (State.advance_later h).only (State.setBranch_only (Only.refl _) (mem_notTime nofun))
  unfold State.starSofOp
  extract_lets y x z f
  have hz : Later s0 z := hbranch x
  have hrelay : Later s0 (z.relay k f) := hz.only (by apply State.relay_only (Only.refl z) <;> exact mem_notTime nofun)
  refine .ite hrelay (.ite (hz.only ?_) (.ite (.ite (hrelay.only ?_) hrelay) (hz.only ?_)))
  · apply State.noteRefSof_only
    apply State.scheduledSof_only (Only.refl z)
    all_goals exact mem_notTime nofun
  · apply State.cutFrame_only (Only.refl _) <;> exact mem_notTime nofun
  · exact State.ignoreBranch_only (Only.refl z) (mem_notTime nofun)

theorem State.examined_later {k : GrpId} {e : Option (Fin 4)} {own : Bool} {f : CanFrame} {t : DWord} {g : State → Group} :
    Later s0 ((s.examineRef k e own f t).setGroup k (g (s.examineRef k e own f t))) := by
  have hx : Later s0 (s.examineRef k e own f t) := h.only (by apply State.examineRef_only (Only.refl s) <;> exact mem_notTime nofun)
  exact hx.same (by rfl)

theorem State.groupHears_later {k : GrpId} {f : CanFrame} {t : FrameTimes} {arrived : PortId} : Later s0 (s.groupHears k f t arrived) := by
  unfold State.groupHears
  extract_lets y z
  have hy : Later s0 y :=
    (State.advance_later (State.advance_later h)).only (by apply State.countFrame_only (Only.refl _) <;> exact mem_notTime nofun)
  have hz : Later s0 z := .ite hy (hy.only (by apply State.promoteGroup_only (Only.refl y) <;> exact mem_notTime nofun))
  exact State.examined_later hz (g := fun x => { x.group k with frame := none })

theorem State.receiveOp_later {p : PortId} {f : CanFrame} {t : FrameTimes} {arrived : PortId} : Later s0 (s.receiveOp p f t arrived) := by
  unfold State.receiveOp
  extract_lets y corrected x z1 z2 z3 z4 z5 r
  have hy : Later s0 y := State.advance_later (State.advance_later h)
  have h1 : Later s0 z1 := hy.same (by rfl)
  have h4 : Later s0 z4 := by
    refine h1.only ?_
    apply State.promoteBy_only
    apply State.ackReset_only
    apply State.countFrame_only (Only.refl z1)
    all_goals exact mem_notTime nofun
  have h5 : Later s0 z5 := by
    unfold z5
    split
    · exact State.examined_later h4 (g := fun x => { x.group _ with frame := none })
    · exact h4
  refine .ite (h5.only ?_) (h5.only ?_)
  · apply State.pushFifo_only (Only.refl z5) <;> exact mem_notTime nofun
  · apply State.stageFrame_only (Only.refl z5) <;> exact mem_notTime nofun

theorem State.ptpTurn_later {k : EpId} {m : PtpKind} : Later s0 (s.ptpTurn k m) := by
  unfold State.ptpTurn
  exact (State.waitFrom_later h).same (by rfl)

theorem State.ptpMeasure_later {k : EpId} {msgs : List (List Byte)} {a : DWord} : Later s0 (s.ptpMeasure k msgs a) :=
  State.offerSample_later h

theorem State.ptpReceive_later {k : EpId} {bs : List Byte} {a : DWord} : Later s0 (s.ptpReceive k bs a) := by
  have hanswer : ∀ {t c q msg x}, Later s0 (s.ptpAnswer t c q msg x) :=
    h.only (State.ptpAnswer_only (Only.refl s) (mem_notTime nofun))
  unfold State.ptpReceive
  split
  · refine .ite h ?_
    extract_lets q msg slave
    split
    · exact .ite h (.ite (h.same (by rfl)) (State.ptpMeasure_later h))
    · split
      · exact .ite (State.ptpMeasure_later (h.same (by rfl))) h
      · exact h
    · exact h.only (by apply State.ptpSend_only (Only.refl s) <;> exact mem_notTime nofun)
    · exact hanswer
    · exact hanswer
    · exact h.only (State.ptpChoose_only (Only.refl s) (mem_notTime nofun))
    · exact h
  · exact h

theorem State.replyOp_later {k : LinkId} {p : List Byte} {raw : DWord} : Later s0 (s.replyOp k p raw) := by
  unfold State.replyOp
  extract_lets l t4
  split
  · exact h
  · exact .ite h (.ite (State.offerSample_later (h.same (by rfl))) (h.same (by rfl)))

theorem State.pulseEnds_later {i : Fin 4} {raw : DWord} : Later s0 (s.pulseEnds i raw) := by
  unfold State.pulseEnds
  have hy : Later s0 ((s.advance raw).emit (.pulse i raw)) :=
    (State.advance_later h).only (State.emit_only (Only.refl _) (mem_notTime nofun))
  exact .ite (hy.same (by rfl)) (hy.same (by rfl))

theorem State.pulseStarts_later {i : Fin 4} : Later s0 (s.pulseStarts i) := by
  unfold State.pulseStarts
  exact State.setPulse_later ((State.advance_later h).only (State.emit_only (Only.refl _) (mem_notTime nofun)))

theorem State.ownedWrite_later {d owner : Dom} {off : Nat} {v : Word} {f : State → State} (hf : Later s0 (f s)) :
    Result.All (Later s0) (s.ownedWrite d owner off v f) := by
  unfold State.ownedWrite
  exact Result.all_ite (Result.all_next h)
    (Result.all_ite hf.finished (h.only (State.crossDomain_only (Only.refl s) (mem_notTime nofun))).finished)

theorem State.rlTake_later {k : LinkId} {a : RlArrival} {eff : State → State} (heff : ∀ y, Later s0 y → Later s0 (eff y)) :
    Result.All (Later s0) (s.rlTake k a eff) := by
  have hcount : ∀ {y : State} {o : Nat}, Later s0 y → Later s0 (y.countLink k o) := fun hy =>
    hy.only (by apply State.countLink_only (Only.refl _) <;> exact mem_notTime nofun)
  have hdone : ∀ {y : State} {f : RlFrame}, Later s0 y → Later s0 (y.rlDone k f) := fun hy =>
    hy.only (by apply State.rlDone_only (Only.refl _) <;> exact mem_notTime nofun)
  unfold State.rlTake
  extract_lets f l y
  have hy : Later s0 y := .ite (h.same (by rfl)) h
  exact Result.all_ite (Result.all_next h) (Result.all_ite (hdone (hcount h)).finished
    (Result.all_ite (hdone (hcount hy)).finished (Result.all_ite (hdone (hcount hy)).finished (heff _ (hcount hy)).finished)))

end carried
end Sys2Proof.Machine

namespace Sys2Proof.Machine

/-! ### A command that waits for its time, or lets it pass -/

section timed
variable {s0 s t : State}

/-- A command that does nothing now. -/
theorem Later.stays (h : Later s0 s) : Result.All (Later s0) (.next s) := Result.all_next h

/-- A command that carries the time on, then leaves the time unit alone, and else does nothing. -/
theorem Later.timed {c : Prop} [Decidable c] (h : Later s0 s) (g : Only notTime s t) :
    Result.All (Later s0) (if c then finish t else .next s0) :=
  Result.all_ite (h.only g).finished (Later.refl s0).stays

/-- As `Later.timed`, where the condition is the one to do nothing. -/
theorem Later.untimed {c : Prop} [Decidable c] (h : Later s0 s) (g : Only notTime s t) :
    Result.All (Later s0) (if c then .next s0 else finish t) :=
  Result.all_ite (Later.refl s0).stays (h.only g).finished

/-- The time has been carried on to an instant, or to the end of a wait. -/
theorem State.advance_from (s : State) {r : DWord} : Later s (s.advance r) := State.advance_later (.refl s)

theorem State.waitFrom_from (s : State) {r : DWord} {n : Nat} : Later s (s.waitFrom r n) := State.waitFrom_later (.refl s)

/-! Rings, ports and groups. -/

theorem execRingPoll_later {d n w} : Result.All (Later s) (execRingPoll d n w s) := by
  unfold execRingPoll
  extract_lets i t y
  have hy : Later s y := s.waitFrom_from
  refine Later.timed hy ?_
  apply State.readIndex_only
  apply State.setRing_only (Only.refl _)
  all_goals exact mem_notTime nofun

theorem execCqStallPoll_later {d n w} : Result.All (Later s) (execCqStallPoll d n w s) := by
  unfold execCqStallPoll
  extract_lets i y
  have hy : Later s y := s.waitFrom_from
  refine Later.timed hy ?_
  apply State.readIndex_only
  apply State.setRing_only (Only.refl _)
  all_goals exact mem_notTime nofun

theorem execBufWaitExpiry_later {d n} : Result.All (Later s) (execBufWaitExpiry d n s) := by
  unfold execBufWaitExpiry
  split
  · exact (Later.refl s).stays
  · extract_lets y
    have hy : Later s y := s.advance_from
    refine (hy.only ?_).finished
    apply State.serve_only
    apply State.dropOldest_only (Only.refl y)
    all_goals exact mem_notTime nofun

theorem execRecoverySeqEnd_later {p} : Result.All (Later s) (execRecoverySeqEnd p s) := by
  unfold execRecoverySeqEnd
  extract_lets y
  have hy : Later s y := s.waitFrom_from
  refine Later.timed hy ?_
  apply State.holdArrives_only
  apply Only.ite
  · apply State.showPort_only (Only.refl _) <;> exact mem_notTime nofun
  · exact State.setPort_only (Only.refl _) (mem_notTime nofun)
  all_goals exact mem_notTime nofun

theorem execCandidateExpiry_later {p c} : Result.All (Later s) (execCandidateExpiry p c s) := by
  unfold execCandidateExpiry
  split
  · split
    next due _ =>
      have hy : Later s (s.advance due) := s.advance_from
      exact (Later.ite (hy.only (State.holdTimeEnds_only (Only.refl _) (mem_notTime nofun))) hy).finished
    next => exact (Later.refl s).stays
  · exact (Later.refl s).stays

theorem execHoldExpiry_later {t} : Result.All (Later s) (execHoldExpiry t s) := by
  unfold execHoldExpiry
  split
  · split
    next due _ =>
      refine Later.timed (s.advance_from (r := due)) ?_
      apply State.leaveHold_only (Only.refl _) <;> exact mem_notTime nofun
    next => exact (Later.refl s).stays
  · split
    next due _ =>
      refine Later.timed (s.advance_from (r := due)) ?_
      apply State.leaveGroupHold_only (Only.refl _) <;> exact mem_notTime nofun
    next => exact (Later.refl s).stays

theorem execSlotMissed_later {p c} : Result.All (Later s) (execSlotMissed p c s) := by
  unfold execSlotMissed
  split
  · split
    · exact (Later.refl s).stays
    · refine Result.all_ite ?_ (Later.refl s).stays
      split
      · extract_lets y
        have hy : Later s y := s.advance_from
        exact (Later.ite (hy.only (State.slotPassed_only (Only.refl y) (mem_notTime nofun))) hy).finished
      · exact (Later.refl s).stays
  · exact (Later.refl s).stays

theorem execStartDecision_later {p sof} : Result.All (Later s) (execStartDecision p sof s) := by
  have hstart : Result.All (Later s) (finish (s.startOp p sof)) := (State.startOp_later (.refl s)).finished
  have hs : Result.All (Later s) (.next s) := (Later.refl s).stays
  unfold execStartDecision
  exact Result.all_ite trivial (Result.all_ite hs (Result.all_ite (Result.all_ite hstart hs) (Result.all_ite hstart hs)))

theorem execFrameReceived_later {p f t a} : Result.All (Later s) (execFrameReceived p f t a s) := by
  have hs : Result.All (Later s) (.next s) := (Later.refl s).stays
  have hport : ∀ q, Result.All (Later s) (finish (s.receiveOp p f t q)) := fun _ => (State.receiveOp_later (.refl s)).finished
  unfold execFrameReceived
  refine Result.all_ite trivial ?_
  split
  · exact Result.all_ite hs (Result.all_ite (hport _) (Result.all_ite (State.groupHears_later (.refl s)).finished hs))
  · exact Result.all_ite (hport p) hs

theorem execBeaconDue_later {p} : Result.All (Later s) (execBeaconDue p s) := by
  unfold execBeaconDue
  extract_lets x t y x' ft
  have hy : Later s y := s.advance_from
  exact Later.timed hy (State.setPort_only (Only.refl y) (mem_notTime nofun))

theorem execColTravelEnd_later {k} : Result.All (Later s) (execColTravelEnd k s) := by
  unfold execColTravelEnd
  extract_lets x y
  have hy : Later s y := s.waitFrom_from
  exact Later.timed hy ((Only.refl y).pairs (mem_notTime nofun))

theorem execRejoinSeqEnd_later {k b} : Result.All (Later s) (execRejoinSeqEnd k b s) := by
  unfold execRejoinSeqEnd
  extract_lets x y
  have hy : Later s y := s.waitFrom_from
  refine Later.timed hy ?_
  apply State.joinBranch_only
  apply State.setBranch_only (Only.refl _)
  all_goals exact mem_notTime nofun

theorem execStarSof_later {k b sof ident ide dominant} : Result.All (Later s) (execStarSof k b sof ident ide dominant s) := by
  unfold execStarSof
  refine Result.all_ite (Later.refl s).stays (Result.all_ite (State.starSofOp_later (.refl s)).finished ((Later.refl s).only ?_).finished)
  apply State.joinFrame_only (Only.refl s) <;> exact mem_notTime nofun

theorem execWindowCloseCut_later {k} : Result.All (Later s) (execWindowCloseCut k s) := by
  unfold execWindowCloseCut
  split
  · split
    next c _ =>
      refine Later.timed (s.advance_from (r := c)) ?_
      apply State.violations_only
      apply State.cutFrame_only (Only.refl _)
      all_goals exact mem_notTime nofun
    next => exact (Later.refl s).stays
  · exact (Later.refl s).stays

theorem execCycleStart_later {k} : Result.All (Later s) (execCycleStart k s) := by
  have hturn : Later s (s.turnCycle k) := (Later.refl s).only (by apply State.turnCycle_only (Only.refl s) <;> exact mem_notTime nofun)
  unfold execCycleStart
  refine Result.all_ite (Result.all_ite (State.sendRef_later hturn).finished ?_) (Later.refl s).stays
  exact (Later.ite (State.advance_later hturn) hturn).finished

theorem execListenTimeout_later {k} : Result.All (Later s) (execListenTimeout k s) := by
  unfold execListenTimeout
  exact Result.all_ite (State.sendCold_later s.advance_from).finished (Later.refl s).stays

theorem execColdstartBackoffEnd_later {k} : Result.All (Later s) (execColdstartBackoffEnd k s) := by
  unfold execColdstartBackoffEnd
  exact Result.all_ite (State.sendCold_later s.advance_from).finished (Later.refl s).stays

theorem execRefBackupTimeout_later {k} : Result.All (Later s) (execRefBackupTimeout k s) := by
  unfold execRefBackupTimeout
  exact Result.all_ite (State.sendRef_later (.refl s)).finished (Later.refl s).stays

/-! The reference, and the time unit's own commands. -/

theorem execRef25Loss_later : Result.All (Later s) (execRef25Loss s) := by
  unfold execRef25Loss
  exact Result.all_ite (Later.same (.refl s) (by rfl)).finished (Later.refl s).stays

theorem execRef25Lock_later : Result.All (Later s) (execRef25Lock s) := by
  unfold execRef25Lock
  extract_lets back u y
  have hy : Later s y := (Later.refl s).same (by rfl)
  exact Result.all_ite (Later.refl s).stays (Later.ite (hy.same (by rfl)) hy).finished

theorem execRefHoldoverExpiry_later : Result.All (Later s) (execRefHoldoverExpiry s) := by
  unfold execRefHoldoverExpiry
  refine Result.all_ite (Later.refl s).stays ?_
  extract_lets y u z w
  have hy : Later s y := s.waitFrom_from
  have hz : Later s z := hy.same (by rfl)
  have hw : Later s w := by
    refine .foldl hz fun x k hx => .ite hx (hx.only ?_)
    apply State.setPort_only
    apply State.setGroup_only
    apply State.withdrawPairs_only (Only.refl x)
    all_goals exact mem_notTime nofun
  exact (Later.foldl hw fun x p hx => hx.only (by apply State.refLost_only (Only.refl x) <;> exact mem_notTime nofun)).finished

theorem execTmuRateWrite_later (h : Later s0 s) {d v} : Result.All (Later s0) (execTmuRateWrite d v s) :=
  State.ownedWrite_later h (.ite (.ite h (State.refuse_later h)) (State.setRate_later h))

theorem execTmuStep_later {d w v} : Result.All (Later s) (execTmuStep d w v s) :=
  State.ownedWrite_later (.refl s) (State.writeStep_later (.refl s))

theorem execServoEnable_later {d v} : Result.All (Later s) (execServoEnable d v s) :=
  State.ownedWrite_later (.refl s) (State.writeServo_later (.refl s))

theorem execEvtoutEnable_later {d i v} : Result.All (Later s) (execEvtoutEnable d i v s) :=
  State.ownedWrite_later (.refl s) (State.writeOut_later (.refl s))

/-- For any number: the kernel would otherwise count the epoch's own one, modulo `2 ^ 29`, down to nothing. -/
theorem State.setEpochs_later (h : Later s0 s) {n : Nat} : Later s0 (s.setTmu { s.tmu with epochs := n }) := State.setTmu_later h (by rfl)

theorem execEpochPass_later : Result.All (Later s) (execEpochPass s) := by
  unfold execEpochPass
  refine Result.all_ite (Later.refl s).stays ?_
  extract_lets t y u
  have hy : Later s y := .ite s.advance_from (.refl s)
  exact (State.epochEntries_later (State.setEpochs_later hy)).finished

theorem execServoSample_later : Result.All (Later s) (execServoSample s) := by
  unfold execServoSample
  split
  · exact (Later.refl s).stays
  · exact (State.takeSample_later (State.setTmu_later (.refl s) (by rfl))).finished

theorem execServoHoldover_later : Result.All (Later s) (execServoHoldover s) := by
  unfold execServoHoldover
  refine Result.all_ite (Later.same ?_ (by rfl)).finished (Later.refl s).stays
  exact State.servoGoes_later (State.setTmu_later (State.setRate_later s.advance_from) (by rfl))

theorem State.command_later {f : State → Op → State} {d n x} (h : Later s0 s) (hf : ∀ y o, Later s0 y → Later s0 (f y o)) :
    Later s0 (s.command d n x f) := by
  unfold State.command
  extract_lets o
  have hfetch : Later s0 (s.fetch d n) := h.only (by apply State.fetch_only (Only.refl s) <;> exact mem_notTime nofun)
  exact .ite h (.ite (State.complete_later hfetch) (hf _ _ hfetch))

theorem execOffsetSample_later {d n x} : Result.All (Later s) (execOffsetSample d n x s) := by
  unfold execOffsetSample
  exact Result.all_ite (State.command_later (.refl s) fun _ _ hy => State.offsetOp_later hy).finished (Later.refl s).stays

theorem execPpsEdge_later {i raw fall} : Result.All (Later s) (execPpsEdge i raw fall s) := by
  unfold execPpsEdge
  refine Result.all_ite (Later.refl s).stays (State.offerSample_later (State.setTmu_later s.advance_from (by rfl))).finished

theorem execEvtInEdge_later {i raw rise held} : Result.All (Later s) (execEvtInEdge i raw rise held s) := by
  unfold execEvtInEdge
  exact Result.all_ite (State.captureEdge_later s.advance_from).finished (Later.refl s).stays

theorem execPulseEdge_later {i} : Result.All (Later s) (execPulseEdge i s) := by
  unfold execPulseEdge
  extract_lets p
  split
  · exact (State.pulseEnds_later (.refl s)).finished
  · exact Result.all_ite (State.pulseStarts_later (.refl s)).finished (Later.refl s).stays

end timed
end Sys2Proof.Machine

namespace Sys2Proof.Machine

/-! ### The network's, the fabric's and the device's commands that carry the time on -/

section network
variable {s0 s : State}

theorem State.ethStaged_later {f : Nat → State → State} (h : Later s0 s) {k bs} (hf : ∀ i y, Only notTime s y → Only notTime s (f i y)) :
    Later s0 (s.ethStaged k bs f) :=
  h.only (by apply State.ethStaged_only (Only.refl s) hf <;> exact mem_notTime nofun)

theorem State.ethFrame_later (h : Later s0 s) {k bs flags raw} : Later s0 (s.ethFrame k bs flags raw) := by
  unfold State.ethFrame
  extract_lets at_ st good c y z
  have hy : Later s0 y := h.only (by apply State.ethCountRx_only (Only.refl s) <;> exact mem_notTime nofun)
  have hc : Later s0 (y.countEth k 0x68) := hy.only (by apply State.countEth_only (Only.refl y) <;> exact mem_notTime nofun)
  have hz : Later s0 z := State.ptpReceive_later hc
  refine .ite (.ite (State.ethStaged_later hz fun i x hx => ?_) hz) (.ite (hy.only ?_) (State.ethStaged_later hy fun i x hx => ?_))
  · apply State.ethDeliver_only hx <;> exact mem_notTime nofun
  · apply State.ctrlFrame_only (Only.refl y) <;> exact mem_notTime nofun
  · split
    · apply State.countEth_only hx <;> exact mem_notTime nofun
    · apply Only.ite
      · apply State.countEth_only hx <;> exact mem_notTime nofun
      · apply State.ethDeliver_only hx <;> exact mem_notTime nofun

/-- A pause that is over ends, and the endpoint goes on with what waits. -/
theorem State.pauseSettled_later (h : Later s0 s) {k : EpId} : Later s0 ((s.pauseSettle k).ethKick k) := by
  refine h.only ?_
  apply State.ethKick_only
  apply State.pauseSettle_only (Only.refl s)
  all_goals exact mem_notTime nofun

theorem execEthFrameReceived_later {k bs fcs symbol raw} : Result.All (Later s) (execEthFrameReceived k bs fcs symbol raw s) := by
  unfold execEthFrameReceived
  extract_lets x open_ y z
  have hz : Later s z := State.pauseSettled_later s.advance_from
  refine Result.all_ite (Later.refl s).stays (Later.ite (hz.only ?_) (State.ethFrame_later hz)).finished
  apply State.countEth_only (Only.refl z) <;> exact mem_notTime nofun

theorem execEthTxEnd_later {k raw} : Result.All (Later s) (execEthTxEnd k raw s) := by
  unfold execEthTxEnd
  extract_lets x y
  split
  · exact (Later.refl s).stays
  · extract_lets z w
    have hz : Later s z := by
      refine (Later.refl s).only ?_
      apply State.ethSent_only
      apply State.setEth_only (Only.refl s)
      all_goals exact mem_notTime nofun
    exact (State.pauseSettled_later (State.advance_later hz)).finished

theorem execPauseEnd_later {k} : Result.All (Later s) (execPauseEnd k s) := by
  unfold execPauseEnd
  split
  next => exact (Later.refl s).stays
  next r _ =>
    refine (Later.only (s.advance_from (r := r)) ?_).finished
    apply State.ethKick_only
    apply State.endPause_only (Only.refl _)
    all_goals exact mem_notTime nofun

theorem execAnRestart_later {k} : Result.All (Later s) (execAnRestart k s) := by
  unfold execAnRestart
  extract_lets x y
  have hy : Later s y := s.waitFrom_from
  refine Later.timed hy ?_
  apply State.countEth_only
  apply State.setEth_only (Only.refl y)
  all_goals exact mem_notTime nofun

theorem execAnnounceReceiptTimeout_later {k} : Result.All (Later s) (execAnnounceReceiptTimeout k s) := by
  unfold execAnnounceReceiptTimeout
  have hy : Later s (s.waitFrom s.ptp.times[k].heard (sec 3)) := s.waitFrom_from
  exact Later.timed hy (State.ptpChoose_only (Only.refl _) (mem_notTime nofun))

theorem execPtpMessageInterval_later {k m} : Result.All (Later s) (execPtpMessageInterval k m s) := by
  have hs : Result.All (Later s) (.next s) := (Later.refl s).stays
  have hsend : ∀ c b, Result.All (Later s) (finish ((s.ptpTurn k m).ptpSend k c b)) := fun c b => by
    have hy : Later s (s.ptpTurn k m) := State.ptpTurn_later (.refl s)
    exact (hy.only (by apply State.ptpSend_only (Only.refl _) <;> exact mem_notTime nofun)).finished
  unfold execPtpMessageInterval
  refine Result.all_ite hs ?_
  cases m with
  | sync => exact Result.all_ite (hsend 0 true) hs
  | pdelayReq => exact hsend 2 false
  | announce => exact Result.all_ite (hsend 0xB false) hs

/-! The fabric. -/

theorem execHelloTimer_later {k} : Result.All (Later s) (execHelloTimer k s) := by
  unfold execHelloTimer
  extract_lets l y q
  have hy : Later s y := s.waitFrom_from
  refine Later.untimed hy ?_
  apply State.sendLocal_only
  apply State.setLink_only (Only.refl y)
  all_goals exact mem_notTime nofun

theorem execHelloTimeout_later {k} : Result.All (Later s) (execHelloTimeout k s) := by
  unfold execHelloTimeout
  have hy : Later s (s.waitFrom (s.link k).heardAt (ms 30)) := s.waitFrom_from
  refine Later.untimed hy ?_
  apply State.linkDown_only (Only.refl _) <;> exact mem_notTime nofun

theorem execKeyxTimer_later {k} : Result.All (Later s) (execKeyxTimer k s) := by
  unfold execKeyxTimer
  have hy : Later s (s.waitFrom (s.link k).keyxAt (ms 100)) := s.waitFrom_from
  refine Later.timed hy ?_
  apply State.sendKeyx_only (Only.refl _) <;> exact mem_notTime nofun

theorem execTopoTimer_later : Result.All (Later s) (execTopoTimer s) := by
  unfold execTopoTimer
  have hy : Later s (s.waitFrom s.fab.topoAt (sec 1)) := s.waitFrom_from
  refine Later.timed hy ?_
  apply State.sendTopo_only (Only.refl _) <;> exact mem_notTime nofun

theorem execTopoExpiry_later {serial} : Result.All (Later s) (execTopoExpiry serial s) := by
  unfold execTopoExpiry
  split
  · exact (Later.refl s).stays
  · extract_lets y n fab z
    have hy : Later s y := s.waitFrom_from
    have hz : Later s z := hy.same (by rfl)
    refine (Later.ite hz (hz.only ?_)).finished
    apply State.topologyChanged_only (Only.refl z) <;> exact mem_notTime nofun

theorem execAddrReqTimer_later : Result.All (Later s) (execAddrReqTimer s) := by
  unfold execAddrReqTimer
  extract_lets y fab z
  have hy : Later s y := s.waitFrom_from
  have hz : Later s z := hy.only (by apply State.floodMgmt_only ((Only.refl y).fab (mem_notTime nofun)) <;> exact mem_notTime nofun)
  refine Later.timed hz ?_
  apply State.allocate_only (Only.refl z) <;> exact mem_notTime nofun

theorem execLinkTxStart_later {k raw} : Result.All (Later s) (execLinkTxStart k raw s) := by
  unfold execLinkTxStart
  extract_lets y busy z
  have hy : Later s y := s.advance_from
  have hz : Later s z := hy.only (by apply State.endWire_only (Only.refl y) <;> exact mem_notTime nofun)
  refine Result.all_ite hy.stays ?_
  split
  · exact hz.finished
  · refine (hz.only ?_).finished
    apply State.linkStart_only (Only.refl z) <;> exact mem_notTime nofun

theorem execTimeSyncTimer_later {k} : Result.All (Later s) (execTimeSyncTimer k s) := by
  unfold execTimeSyncTimer
  extract_lets l y q
  have hy : Later s y := s.waitFrom_from
  refine Later.untimed hy ?_
  apply State.sendLocal_only
  apply State.setLink_only (Only.refl y)
  all_goals exact mem_notTime nofun

/-- A frame of a link that has been taken. -/
theorem State.rlDone_later (h : Later s0 s) {k f} : Later s0 (s.rlDone k f) :=
  h.only (by apply State.rlDone_only (Only.refl s) <;> exact mem_notTime nofun)

theorem execTimeSync_later {k a raw} : Result.All (Later s) (execTimeSync k a raw s) := by
  unfold execTimeSync
  refine Result.all_ite (Later.refl s).stays (State.rlTake_later s.advance_from fun y hy => ?_)
  have hdone : Later s (y.rlDone k a.frame) := State.rlDone_later hy
  exact .ite hdone (hdone.only (State.sendLocal_only (Only.refl _) (mem_notTime nofun)))

theorem execTimeReply_later {k a raw} : Result.All (Later s) (execTimeReply k a raw s) := by
  unfold execTimeReply
  refine Result.all_ite (Later.refl s).stays (State.rlTake_later s.advance_from fun y hy => ?_)
  exact .ite (State.rlDone_later hy) (State.replyOp_later (State.rlDone_later hy))

theorem execColfTravelEnd_later {k} : Result.All (Later s) (execColfTravelEnd k s) := by
  unfold execColfTravelEnd
  extract_lets y
  have hy : Later s y := s.waitFrom_from
  exact Later.timed hy (State.setLink_only (Only.refl y) (mem_notTime nofun))

/-! The cores, the gateway and the events. -/

theorem execSwapTimeout_later : Result.All (Later s) (execSwapTimeout s) := by
  unfold execSwapTimeout
  split
  next w _ =>
    refine (Later.only (s.waitFrom_from (r := w.at_) (n := sec 1)) ?_).finished
    apply State.endSwap_only
    apply State.releaseSwap_only (Only.refl _)
    all_goals exact mem_notTime nofun
  next => exact (Later.refl s).stays

theorem execDutyMoveDone_later {u} : Result.All (Later s) (execDutyMoveDone u s) := by
  unfold execDutyMoveDone
  extract_lets i
  split
  · extract_lets y
    have hy : Later s y := by
      refine (Later.refl s).only ?_
      apply State.seEvt_only
      apply State.setDuty_only (Only.refl s)
      all_goals exact mem_notTime nofun
    have hu : Later s (y.dutyStarts u) := State.dutyStarts_later hy
    exact (hu.only (by apply State.haltDone_only (Only.refl _) <;> exact mem_notTime nofun)).finished
  · exact (Later.refl s).stays

theorem execGwGapEnd_later {i} : Result.All (Later s) (execGwGapEnd i s) := by
  unfold execGwGapEnd
  split
  · exact (Later.refl s).stays
  · split
    · extract_lets y
      have hy : Later s y := by
        unfold y
        split
        · exact s.advance_from
        · exact .refl s
      refine (hy.only ?_).finished
      apply State.gwPass_only
      apply State.setRule_only (Only.refl y)
      all_goals exact mem_notTime nofun
    · exact (Later.refl s).stays

theorem execModerationGapEnd_later {d t} : Result.All (Later s) (execModerationGapEnd d t s) := by
  unfold execModerationGapEnd
  split
  next t =>
    refine Result.all_ite (Later.refl s).stays ?_
    extract_lets due
    refine Result.all_ite (Later.same (.refl s) (by rfl)).stays ?_
    refine (Later.only (s.advance_from (r := s.gapEnd d t.val due)) ?_).finished
    apply State.message_only (Only.refl _) <;> exact mem_notTime nofun
  next u =>
    extract_lets held
    refine Result.all_ite (Later.refl s).stays ?_
    split
    next => exact (Later.same (.refl s) (by rfl)).stays
    next x _ =>
      refine (Later.only (s.advance_from (r := s.vecGapEnd u x.cls.toNat)) ?_).finished
      apply State.sendVector_only (Only.refl _) <;> exact mem_notTime nofun

theorem execOfflineFallback_later {c x} : Result.All (Later s) (execOfflineFallback c x s) := by
  unfold execOfflineFallback
  extract_lets st y
  have hy : Later s y := s.advance_from
  exact Later.timed hy ((Only.refl y).evc (mem_notTime nofun))

/-! Belay and Cairn. -/

theorem execChallengeExpiry_later : Result.All (Later s) (execChallengeExpiry s) := by
  unfold execChallengeExpiry
  split
  next t _ =>
    have hy : Later s (s.advance (after t (sec 60))) := s.advance_from
    exact (hy.only (State.spendChallenge_only (Only.refl _) (mem_notTime nofun))).finished
  next => exact (Later.refl s).stays

theorem execRaiseConfirmed_later : Result.All (Later s) (execRaiseConfirmed s) := by
  unfold execRaiseConfirmed
  extract_lets y
  have hy : Later s y := s.waitFrom_from
  refine Later.timed hy ?_
  apply State.crnEvent_only
  apply State.modeGoes_only (Only.refl y)
  all_goals exact mem_notTime nofun

theorem execRaiseTimeout_later : Result.All (Later s) (execRaiseTimeout s) := by
  unfold execRaiseTimeout
  extract_lets y c z
  have hy : Later s y := s.waitFrom_from
  have hz : Later s z := hy.only (by apply State.modeGoes_only (Only.refl y) <;> exact mem_notTime nofun)
  refine Later.untimed hz ?_
  apply State.crnEvent_only
  apply State.setRf_only (Only.refl z)
  all_goals exact mem_notTime nofun

theorem execGovFallback_later : Result.All (Later s) (execGovFallback s) := by
  unfold execGovFallback
  split
  · extract_lets y n c z w
    have hy : Later s y := s.advance_from
    refine (hy.only ?_).finished
    apply State.crnEvent_only
    apply State.record_only
    apply State.modeGoes_only (Only.refl y)
    all_goals exact mem_notTime nofun
  · exact (Later.refl s).stays

theorem execGovReturn_later : Result.All (Later s) (execGovReturn s) := by
  unfold execGovReturn
  split
  · extract_lets y
    have hy : Later s y := s.advance_from
    refine Later.untimed hy ?_
    apply State.crnEvent_only
    apply State.raiseTo_only (Only.refl y)
    all_goals exact mem_notTime nofun
  · exact (Later.refl s).stays

theorem execStagingHolderTimeout_later : Result.All (Later s) (execStagingHolderTimeout s) := by
  unfold execStagingHolderTimeout
  extract_lets y
  have hy : Later s y := s.waitFrom_from
  exact Later.untimed hy (State.setCairn_only (Only.refl y) (mem_notTime nofun))

theorem execImgConfirm_later {c} : Result.All (Later s) (execImgConfirm c s) := by
  unfold execImgConfirm
  refine Later.timed (s.waitFrom_from (r := s.runsSince c) (n := sec 10)) ?_
  apply State.confirm_only (Only.refl _) <;> exact mem_notTime nofun

theorem idle_later : Result.All (Later s) (idle s) := by
  unfold idle
  refine (Later.only (s.advance_from (r := s.nextUs)) ?_).finished
  apply State.scan_only
  apply State.bootStep_only
  apply State.endActivation_only
  apply State.endBusy_only
  apply State.turnTests_only
  apply State.wiresEnd_only (Only.refl _)
  all_goals exact mem_notTime nofun

end network

/-! ### Register writes and resets -/

section registerWrites
variable {s0 s : State}

/-- A warm reset keeps RAW, whatever its cause (R479). -/
theorem State.warmTrigger_later (h : Later s0 s) {cause : BitVec 3} : Later s0 (s.warmTrigger cause) := by
  unfold State.warmTrigger
  exact .ite (h.same (by rfl)) (h.same (by rfl))

theorem State.crossDomain_later (h : Later s0 s) {d off v} : Later s0 (s.crossDomain d off v) :=
  h.only (State.crossDomain_only (Only.refl s) (mem_notTime nofun))

theorem execWarmReset_later (h : Later s0 s) {c} : Result.All (Later s0) (execWarmReset c s) := by
  unfold execWarmReset
  cases c with
  | register d v =>
    exact Result.all_ite h.stays (Result.all_ite (State.crossDomain_later h).finished
      (Result.all_ite (State.warmTrigger_later h).stays h.stays))
  | smbus | recovered => exact Result.all_ite (State.warmTrigger_later h).stays h.stays
  | belayFault => exact (State.warmTrigger_later h).stays

/-- A register write that leaves the time unit alone. -/
theorem Later.written (h : Later s0 s) {t : State} (g : Only notTime s t) : Result.All (Later s0) (finish t) := (h.only g).finished

theorem State.plainWrite_later (h : Later s0 s) {d r mask v} : Result.All (Later s0) (s.plainWrite d r mask v) := by
  unfold State.plainWrite
  refine (Later.ite (State.refuse_later h) (h.only ?_)).finished
  apply State.writeFields_only (Only.refl s) <;> exact mem_notTime nofun

theorem State.fnWrite_later (h : Later s0 s) {d e q mask v x} : Result.All (Later s0) (s.fnWrite d e q mask v x) := by
  unfold State.fnWrite
  split
  · refine Result.All.later h ?_
    apply execDevKick_only ((Only.refl s).free (mem_notTime nofun)) <;> exact mem_notTime nofun
  · refine h.written ?_; apply State.writeDbb_only (Only.refl s) <;> exact mem_notTime nofun
  · refine h.written ?_; apply State.writeTsq_only (Only.refl s) <;> exact mem_notTime nofun
  · refine h.written ?_; apply State.writeObjCmd_only (Only.refl s) <;> exact mem_notTime nofun
  · refine h.written ?_; apply State.writeFltCmd_only (Only.refl s) <;> exact mem_notTime nofun
  · refine h.written ?_; apply State.writeGwCmd_only (Only.refl s) <;> exact mem_notTime nofun
  iterate 4 refine h.written ?_; apply State.writeSeal_only (Only.refl s) <;> exact mem_notTime nofun
  · exact State.plainWrite_later h

theorem State.devWrite_later (h : Later s0 s) {d q mask v x} : Result.All (Later s0) (s.devWrite d q mask v x) := by
  unfold State.devWrite
  split
  · refine h.written ?_; apply State.writeMode_only (Only.refl s) <;> exact mem_notTime nofun
  · refine h.written ?_; apply State.writeSwap_only (Only.refl s) <;> exact mem_notTime nofun
  · refine h.written ?_; apply State.writeSecmd_only (Only.refl s) <;> exact mem_notTime nofun
  · exact execWarmReset_later h
  · exact State.plainWrite_later h

theorem State.tmuWrite_later (h : Later s0 s) {d q w mask v x} : Result.All (Later s0) (s.tmuWrite d q w mask v x) := by
  unfold State.tmuWrite
  split
  · exact execTmuRateWrite_later h
  · exact (State.writeStep_later h).finished
  · exact (State.writeServo_later h).finished
  · exact State.plainWrite_later h

theorem State.crnWrite_later (h : Later s0 s) {d q mask v x} : Result.All (Later s0) (s.crnWrite d q mask v x) := by
  unfold State.crnWrite
  split
  · refine h.written ?_; apply State.writeGov_only (Only.refl s) <;> exact mem_notTime nofun
  · refine h.written ?_; apply State.writeGov_only (Only.refl s) <;> exact mem_notTime nofun
  · refine h.written ?_; apply State.writeLogCfg_only (Only.refl s) <;> exact mem_notTime nofun
  · exact State.plainWrite_later h

/-- Of the registers only those of the time unit reach it, and none of them sets RAW. -/
theorem State.regWrite_later (h : Later s0 s) {d r w mask v x} : Result.All (Later s0) (s.regWrite d r w mask v x) := by
  have hplain : ∀ {r mask}, Result.All (Later s0) (s.plainWrite d r mask v) := State.plainWrite_later h
  cases r with
  | fn e q => exact State.fnWrite_later h
  | dev q => exact State.devWrite_later h
  | tmu q => exact State.tmuWrite_later h
  | crn q => exact State.crnWrite_later h
  | ring n q =>
    refine Result.all_ite (Result.All.later h ?_) hplain
    apply State.ringRequest_only (Only.refl s) <;> exact mem_notTime nofun
  | port p q =>
    refine Result.all_ite (h.written ?_) (Result.all_ite h.stays (Result.all_ite (h.written ?_) hplain))
    · apply State.portRequest_only (Only.refl s) <;> exact mem_notTime nofun
    · apply State.fillSlots_only
      apply State.writeFields_only (Only.refl s)
      all_goals exact mem_notTime nofun
  | grp k q =>
    refine Result.all_ite (h.written ?_) (Result.all_ite (h.written ?_) hplain)
    · apply State.groupRequest_only (Only.refl s) <;> exact mem_notTime nofun
    · apply State.membersRequest_only (Only.refl s) <;> exact mem_notTime nofun
  | evtinCfg i => exact (State.writeEvtin_later h).finished
  | out i q => exact Result.all_ite (State.writeOut_later h).finished hplain
  | ep k q =>
    refine Result.all_ite (Result.All.later h ?_) hplain
    apply State.epRequest_only (Only.refl s) <;> exact mem_notTime nofun
  | ptpg => refine h.written ?_; apply State.writePtpg_only (Only.refl s) <;> exact mem_notTime nofun
  | half b i => exact h.written (State.writeHalf_only (Only.refl s) (mem_notTime nofun))
  | rl k q =>
    refine Result.all_ite (h.written ?_) hplain
    apply State.writeRlCfg_only (Only.refl s) <;> exact mem_notTime nofun
  | fab q =>
    refine Result.all_ite (h.written ?_) (Result.all_ite (h.written ?_) hplain)
    · apply State.writeFabCfg_only (Only.refl s) <;> exact mem_notTime nofun
    · apply State.writeFabTime_only (Only.refl s) <;> exact mem_notTime nofun
  | evcMod _ _ | evcClaim _ _ | evcPri _ _ => exact Result.all_ite hplain (State.crossDomain_later h).finished
  | evcEoi e t =>
    refine Result.All.later h ?_
    change Result.All _ (execEvcEoi d (.claim t x) ((Config.hostWord s.free).setWidth 16) s.draw)
    apply execEvcEoi_only (State.draw_only (Only.refl s) (mem_notTime nofun)) <;> exact mem_notTime nofun
  | domApply => refine h.written ?_; apply State.writeApply_only (Only.refl s) <;> exact mem_notTime nofun
  | _ => exact hplain

theorem State.bar0Write_later (h : Later s0 s) {d off w v} : Result.All (Later s0) (s.bar0Write d off w v) := by
  have hcross : ∀ {o x}, Result.All (Later s0) (finish (s.crossDomain d o x)) := (State.crossDomain_later h).finished
  have hreg : ∀ {r w mask v x}, Result.All (Later s0) (s.regWrite d r w mask v x) := State.regWrite_later h
  unfold State.bar0Write
  extract_lets o x
  refine Result.all_ite h.stays (Result.all_ite (Result.all_ite h.stays hcross) ?_)
  split
  · exact h.stays
  · exact Result.all_ite h.stays (Result.all_ite h.stays (Result.all_ite hcross (Result.all_ite hreg (Result.all_ite hreg hreg))))

theorem execRegisterWrite_later {d t w v} : Result.All (Later s) (execRegisterWrite d t w v s) := by
  have h : Later s s := .refl s
  unfold execRegisterWrite
  cases t with
  | bar0 off => exact State.bar0Write_later h
  | bar2 off =>
    refine Result.all_ite (h.written ?_) h.stays
    apply State.bar2Write_only (Only.refl s) <;> exact mem_notTime nofun
  | bar4 off =>
    refine Result.all_ite (h.written ?_) h.stays
    apply State.bar4Write_only (Only.refl s) <;> exact mem_notTime nofun
  | sriov en n => exact Result.all_ite h.stays (h.same (by rfl)).finished
  | msixControl en fm =>
    refine Result.all_ite (h.written ?_) h.stays
    apply State.msixRequest_only (Only.refl s) <;> exact mem_notTime nofun

end registerWrites
end Sys2Proof.Machine

namespace Sys2Proof.Machine

/-! ### What one step does to the queue, to what has left the device and to RAW (O5) -/

/-- RAW does not fall over a command that is no power-on reset: one that does not reach the time unit keeps it, and each other one
carries the time on or leaves RAW as it is. -/
theorem exec_later (i : Instr) (s : State) (hi : i ≠ .powerOnReset) : Result.All (Later s) (exec i s) := by
  by_cases ht : (touches i).elem .tmu = false
  · have hnot : Part.tmu ∉ touches i := fun hmem => Bool.false_ne_true (ht.symm.trans (List.elem_iff.2 hmem))
    exact Result.all_iff.2 fun t h => .of_raw (congrArg Tmu.raw ((Result.all_iff.1 (exec_only i s) t h).2 .tmu hnot))
  cases i with
  | powerOnReset => exact absurd rfl hi
  | registerWrite => exact execRegisterWrite_later
  | ringPoll => exact execRingPoll_later
  | cqStallPoll => exact execCqStallPoll_later
  | offsetSample => exact execOffsetSample_later
  | challengeExpiry => exact execChallengeExpiry_later
  | startDecision => exact execStartDecision_later
  | recoverySeqEnd => exact execRecoverySeqEnd_later
  | candidateExpiry => exact execCandidateExpiry_later
  | holdExpiry => exact execHoldExpiry_later
  | frameReceived => exact execFrameReceived_later
  | bufWaitExpiry => exact execBufWaitExpiry_later
  | ref25Loss => exact execRef25Loss_later
  | ref25Lock => exact execRef25Lock_later
  | refHoldoverExpiry => exact execRefHoldoverExpiry_later
  | colTravelEnd => exact execColTravelEnd_later
  | rejoinSeqEnd => exact execRejoinSeqEnd_later
  | starSof => exact execStarSof_later
  | windowCloseCut => exact execWindowCloseCut_later
  | cycleStart => exact execCycleStart_later
  | listenTimeout => exact execListenTimeout_later
  | coldstartBackoffEnd => exact execColdstartBackoffEnd_later
  | refBackupTimeout => exact execRefBackupTimeout_later
  | slotMissed => exact execSlotMissed_later
  | tmuRateWrite => exact execTmuRateWrite_later (.refl s)
  | tmuStep => exact execTmuStep_later
  | epochPass => exact execEpochPass_later
  | servoEnable => exact execServoEnable_later
  | servoSample => exact execServoSample_later
  | servoHoldover => exact execServoHoldover_later
  | ppsEdge => exact execPpsEdge_later
  | evtInEdge => exact execEvtInEdge_later
  | evtoutEnable => exact execEvtoutEnable_later
  | pulseEdge => exact execPulseEdge_later
  | beaconDue => exact execBeaconDue_later
  | anRestart => exact execAnRestart_later
  | ethFrameReceived => exact execEthFrameReceived_later
  | pauseEnd => exact execPauseEnd_later
  | ethTxEnd => exact execEthTxEnd_later
  | helloTimer => exact execHelloTimer_later
  | helloTimeout => exact execHelloTimeout_later
  | keyxTimer => exact execKeyxTimer_later
  | topoTimer => exact execTopoTimer_later
  | topoExpiry => exact execTopoExpiry_later
  | addrReqTimer => exact execAddrReqTimer_later
  | linkTxStart => exact execLinkTxStart_later
  | timeSyncTimer => exact execTimeSyncTimer_later
  | timeSync => exact execTimeSync_later
  | timeReply => exact execTimeReply_later
  | colfTravelEnd => exact execColfTravelEnd_later
  | swapTimeout => exact execSwapTimeout_later
  | dutyMoveDone => exact execDutyMoveDone_later
  | gwGapEnd => exact execGwGapEnd_later
  | moderationGapEnd => exact execModerationGapEnd_later
  | offlineFallback => exact execOfflineFallback_later
  | raiseConfirmed => exact execRaiseConfirmed_later
  | raiseTimeout => exact execRaiseTimeout_later
  | govFallback => exact execGovFallback_later
  | govReturn => exact execGovReturn_later
  | stagingHolderTimeout => exact execStagingHolderTimeout_later
  | imgConfirm => exact execImgConfirm_later
  | warmReset => exact execWarmReset_later (.refl s)
  | ptpMessageInterval => exact execPtpMessageInterval_later
  | announceReceiptTimeout => exact execAnnounceReceiptTimeout_later
  | _ => exact absurd rfl ht

/-- No command changes the rest of the queue, and what has left the device stays recorded. -/
theorem exec_keeps (i : Instr) (s : State) : Result.All (Keeps false s) (exec i s) := by
  have h : Keeps false s s := Keeps.refl s
  cases i with
  | domainEntry => exact execDomainEntry_keeps h
  | dmaWindowRecord => exact execDmaWindowRecord_keeps h
  | routeAssign => exact execRouteAssign_keeps h
  | reclaim => exact execReclaim_keeps h
  | recordComplete => exact execRecordComplete_keeps h
  | registerWrite => exact execRegisterWrite_keeps h
  | devKick => exact execDevKick_keeps h
  | ringPoll => exact execRingPoll_keeps h
  | cqStallPoll => exact execCqStallPoll_keeps h
  | dbbEnable => exact execDbbEnable_keeps h
  | tsqEnable => exact execTsqEnable_keeps h
  | ringEnable => exact execRingEnable_keeps h
  | ringDisable => exact execRingDisable_keeps h
  | ringDisableDone => exact execRingDisableDone_keeps h
  | txFrame => exact execTxFrame_keeps h
  | rxBuf => exact execRxBuf_keeps h
  | ethTx => exact execEthTx_keeps h
  | nop => exact execNop_keeps h
  | objRead => exact execObjRead_keeps h
  | objReadCopyDone => exact execObjReadCopyDone_keeps h
  | objWrite => exact execObjWrite_keeps h
  | objSend => exact execObjSend_keeps h
  | hold => exact execHold_keeps h
  | offsetSample => exact execOffsetSample_keeps h
  | keyGen => exact execKeyGen_keeps h
  | keyLoad => exact execKeyLoad_keeps h
  | keyErase => exact execKeyErase_keeps h
  | challenge => exact execChallenge_keeps h
  | challengeExpiry => exact execChallengeExpiry_keeps h
  | ownerEnrol => exact execOwnerEnrol_keeps h
  | ownerRelease => exact execOwnerRelease_keeps h
  | retire => exact execRetire_keeps h
  | rmaEnter => exact execRmaEnter_keeps h
  | attest => exact execAttest_keeps h
  | logRead => exact execLogRead_keeps h
  | imgWrite => exact execImgWrite_keeps h
  | imgActivate => exact execImgActivate_keeps h
  | gwRule => exact execGwRule_keeps h
  | selfTest => exact execSelfTest_keeps h
  | selfTestEnd => exact execSelfTestEnd_keeps h
  | trvWrite => exact execTrvWrite_keeps h
  | trvRead => exact execTrvRead_keeps h
  | rtWrite => exact execRtWrite_keeps h
  | rtRead => exact execRtRead_keeps h
  | fabTopoRead => exact execFabTopoRead_keeps h
  | flr => exact execFlr_keeps h
  | flrComplete => exact execFlrComplete_keeps h
  | pfFlr => exact execPfFlr_keeps h
  | hostReset => exact execHostReset_keeps h
  | portEnable => exact execPortEnable_keeps h
  | portDisable => exact execPortDisable_keeps h
  | portStart => exact execPortStart_keeps h
  | portStop => exact execPortStop_keeps h
  | portStopEffect => exact execPortStopEffect_keeps h
  | portRestart => exact execPortRestart_keeps h
  | portSleep => exact execPortSleep_keeps h
  | portWake => exact execPortWake_keeps h
  | wakeEdge => exact execWakeEdge_keeps h
  | wakeFrame => exact execWakeFrame_keeps h
  | busIntegrated => exact execBusIntegrated_keeps h
  | startDecision => exact execStartDecision_keeps h
  | attemptCommit => exact execAttemptCommit_keeps h
  | attemptEnd => exact execAttemptEnd_keeps h
  | errorDetected => exact execErrorDetected_keeps h
  | recoverySeqEnd => exact execRecoverySeqEnd_keeps h
  | suspendEnd => exact execSuspendEnd_keeps h
  | payloadLoaded => exact execPayloadLoaded_keeps h
  | candidateExpiry => exact execCandidateExpiry_keeps h
  | holdTakesEffect => exact execHoldTakesEffect_keeps h
  | holdExpiry => exact execHoldExpiry_keeps h
  | frameReceived => exact execFrameReceived_keeps h
  | filterEval => exact execFilterEval_keeps h
  | bufWaitExpiry => exact execBufWaitExpiry_keeps h
  | objLoad => exact execObjLoad_keeps h
  | objCommit => exact execObjCommit_keeps h
  | fltRead => exact execFltRead_keeps h
  | fltWrite => exact execFltWrite_keeps h
  | bankSupplyLoss => exact execBankSupplyLoss_keeps h
  | ref25Loss => exact execRef25Loss_keeps h
  | ref25Lock => exact execRef25Lock_keeps h
  | refHoldoverExpiry => exact execRefHoldoverExpiry_keeps h
  | colTravelEnd => exact execColTravelEnd_keeps h
  | pairInserted => exact execPairInserted_keeps h
  | groupStart => exact execGroupStart_keeps h
  | groupStop => exact execGroupStop_keeps h
  | groupStopEffect => exact execGroupStopEffect_keeps h
  | groupRejoin => exact execGroupRejoin_keeps h
  | groupRestart => exact execGroupRestart_keeps h
  | branchJoin => exact execBranchJoin_keeps h
  | stuckIsolate => exact execStuckIsolate_keeps h
  | rejoinSeqEnd => exact execRejoinSeqEnd_keeps h
  | starSof => exact execStarSof_keeps h
  | windowCloseCut => exact execWindowCloseCut_keeps h
  | cycleStart => exact execCycleStart_keeps h
  | listenTimeout => exact execListenTimeout_keeps h
  | coldstartBackoffEnd => exact execColdstartBackoffEnd_keeps h
  | refBackupTimeout => exact execRefBackupTimeout_keeps h
  | slotMissed => exact execSlotMissed_keeps h
  | tmuRateWrite => exact execTmuRateWrite_keeps h
  | tmuStep => exact execTmuStep_keeps h
  | tmuLatchRead => exact execTmuLatchRead_keeps h
  | epochPass => exact execEpochPass_keeps h
  | servoEnable => exact execServoEnable_keeps h
  | servoSample => exact execServoSample_keeps h
  | servoHoldover => exact execServoHoldover_keeps h
  | ppsEdge => exact execPpsEdge_keeps h
  | evtInEdge => exact execEvtInEdge_keeps h
  | evtoutEnable => exact execEvtoutEnable_keeps h
  | pulseEdge => exact execPulseEdge_keeps h
  | beaconDue => exact execBeaconDue_keeps h
  | epEnable => exact execEpEnable_keeps h
  | epLinkUp => exact execEpLinkUp_keeps h
  | epLinkLoss => exact execEpLinkLoss_keeps h
  | anRestart => exact execAnRestart_keeps h
  | ethFrameReceived => exact execEthFrameReceived_keeps h
  | pauseEnd => exact execPauseEnd_keeps h
  | ethTxEnd => exact execEthTxEnd_keeps h
  | ptpProfileWrite => exact execPtpProfileWrite_keeps h
  | rlEnable => exact execRlEnable_keeps h
  | rlAligned => exact execRlAligned_keeps h
  | rlFault => exact execRlFault_keeps h
  | helloTimer => exact execHelloTimer_keeps h
  | hello => exact execHello_keeps h
  | helloTimeout => exact execHelloTimeout_keeps h
  | keyx => exact execKeyx_keeps h
  | keyxTimer => exact execKeyxTimer_keeps h
  | topo => exact execTopo_keeps h
  | topoTimer => exact execTopoTimer_keeps h
  | topoExpiry => exact execTopoExpiry_keeps h
  | addrReqTimer => exact execAddrReqTimer_keeps h
  | addrReq => exact execAddrReq_keeps h
  | addrAssign => exact execAddrAssign_keeps h
  | routed => exact execRouted_keeps h
  | creditReport => exact execCreditReport_keeps h
  | creditReportTimer => exact execCreditReportTimer_keeps h
  | linkTxStart => exact execLinkTxStart_keeps h
  | timeSyncTimer => exact execTimeSyncTimer_keeps h
  | timeSync => exact execTimeSync_keeps h
  | timeReply => exact execTimeReply_keeps h
  | fabEnable => exact execFabEnable_keeps h
  | colfTravelEnd => exact execColfTravelEnd_keeps h
  | fabTimeWrite => exact execFabTimeWrite_keeps h
  | routeRecompute => exact execRouteRecompute_keeps h
  | engineLoss => exact execEngineLoss_keeps h
  | engineLoadDone => exact execEngineLoadDone_keeps h
  | takeoverDone => exact execTakeoverDone_keeps h
  | devSwap => exact execDevSwap_keeps h
  | swapQuietPoint => exact execSwapQuietPoint_keeps h
  | swapTimeout => exact execSwapTimeout_keeps h
  | retest => exact execRetest_keeps h
  | reload => exact execReload_keeps h
  | halt => exact execHalt_keeps h
  | engineTestEnd => exact execEngineTestEnd_keeps h
  | coreTestEnd => exact execCoreTestEnd_keeps h
  | coreFault => exact execCoreFault_keeps h
  | dutyMoveDone => exact execDutyMoveDone_keeps h
  | gwInput => exact execGwInput_keeps h
  | gwGapEnd => exact execGwGapEnd_keeps h
  | gwRead => exact execGwRead_keeps h
  | evcClaim => exact execEvcClaim_keeps h
  | evcEoi => exact execEvcEoi_keeps h
  | vectorDelivery => exact execVectorDelivery_keeps h
  | moderationGapEnd => exact execModerationGapEnd_keeps h
  | offlineFallback => exact execOfflineFallback_keeps h
  | modeWrite => exact execModeWrite_keeps h
  | raiseConfirmed => exact execRaiseConfirmed_keeps h
  | raiseTimeout => exact execRaiseTimeout_keeps h
  | sensorSample => exact execSensorSample_keeps h
  | govFallback => exact execGovFallback_keeps h
  | govReturn => exact execGovReturn_keeps h
  | govWrite => exact execGovWrite_keeps h
  | logIntake => exact execLogIntake_keeps h
  | logClear => exact execLogClear_keeps h
  | setEndpointId => exact execSetEndpointId_keeps h
  | getEndpointId => exact execGetEndpointId_keeps h
  | getEndpointUuid => exact execGetEndpointUuid_keeps h
  | getMctpVersionSupport => exact execGetMctpVersionSupport_keeps h
  | getMessageTypeSupport => exact execGetMessageTypeSupport_keeps h
  | getVendorDefinedMsgSupport => exact execGetVendorDefinedMsgSupport_keeps h
  | getSensors => exact execGetSensors_keeps h
  | setMode => exact execSetMode_keeps h
  | getAttest => exact execGetAttest_keeps h
  | getLog => exact execGetLog_keeps h
  | stage => exact execStage_keeps h
  | activate => exact execActivate_keeps h
  | getStatus => exact execGetStatus_keeps h
  | smbusReset => exact execSmbusReset_keeps h
  | clearAlert => exact execClearAlert_keeps h
  | alertResponse => exact execAlertResponse_keeps h
  | stagingHolderTimeout => exact execStagingHolderTimeout_keeps h
  | imgConfirm => exact execImgConfirm_keeps h
  | imgRevert => exact execImgRevert_keeps h
  | svcRestart => exact execSvcRestart_keeps h
  | scrub => exact execScrub_keeps h
  | debugUnlockRequest => exact execDebugUnlockRequest_keeps h
  | debugUnlock => exact execDebugUnlock_keeps h
  | warmReset => exact execWarmReset_keeps h
  | powerOnReset => exact execPowerOnReset_keeps h
  | boot => exact execBoot_keeps h
  | bankSupplyReturn => exact execBankSupplyReturn_keeps h
  | svcRestartEnd => exact execSvcRestartEnd_keeps h
  | perstHigh => exact execPerstHigh_keeps h
  | selfTestForcedStart => exact execSelfTestForcedStart_keeps h
  | ptpMessageInterval => exact execPtpMessageInterval_keeps h
  | announceReceiptTimeout => exact execAnnounceReceiptTimeout_keeps h
  | rlFrameDiscard => exact execRlFrameDiscard_keeps h
  | invalidOpcodeDescriptor => exact execInvalidOpcodeDescriptor_keeps h
  | unsupportedMctpMessage => exact execUnsupportedMctpMessage_keeps h

/-- A step is the idle one where the queue is empty, and else the front command over the rest of the queue. -/
theorem step_later {s : State} (hr : s.pending.head? ≠ some .powerOnReset) : Result.All (Later s) (step s) := by
  unfold step
  cases hp : s.pending with
  | nil => exact idle_later
  | cons c rest =>
    have hc : c ≠ .powerOnReset := fun h => hr (by rw [hp, h]; rfl)
    exact exec_later c { s with pending := rest } hc

theorem step_keeps {s : State} : Result.All (fun t => t.pending = s.pending.tail ∧ ∃ l, t.out = s.out ++ l) (step s) := by
  unfold step
  cases hp : s.pending with
  | nil =>
    refine Result.all_iff.2 fun t ht => ?_
    obtain ⟨⟨hpending, hout⟩, -⟩ := Result.all_iff.1 (idle_keeps (Keeps.refl (b := false) s)) t ht
    exact ⟨hpending.trans hp, hout⟩
  | cons c rest =>
    refine Result.all_iff.2 fun t ht => ?_
    obtain ⟨hqueue, -⟩ := Result.all_iff.1 (exec_keeps c { s with pending := rest }) t ht
    exact hqueue

/-- Settles O5: what every command keeps of the queue and of what has left the device, and RAW followed through each command that
reaches the time unit. -/
theorem queueOutputAndRaw : Obligations.QueueOutputAndRaw := by
  intro s t h
  obtain ⟨hpending, hout⟩ := Result.all_iff.1 step_keeps t h
  exact ⟨hpending, hout, fun hr => Result.all_iff.1 (step_later hr) t h⟩

end Sys2Proof.Machine

namespace Sys2Proof.Machine

/-! ### Ridgeline links: what the operations on frames leave of a link (R342 to R372) -/

/-- A link apart from what waits on it and passes over it, with its credits and frame counters, and from the travel of its switch. -/
def Link.standing (l : Link) : Link :=
  { l with queue := [], returned := Vector.replicate 3 0, usedCr := Vector.replicate 3 0, wire := none, stomped := false, cTx := 0, cRx := none,
           travel := false, travelAt := 0 }

/-- Every link stands as it did: its state, its neighbour, its key and its count of HELLOs among them. -/
def SameStanding (s t : State) : Prop := ∀ j, (t.link j).standing = (s.link j).standing

theorem link_of_links {s t : State} (h : t.links = s.links) (j : LinkId) : t.link j = s.link j := by rw [State.link, h, State.link]

section standing
variable {s t u : State} {j k c : LinkId}

theorem SameStanding.refl (s : State) : SameStanding s s := fun _ => rfl
theorem SameStanding.trans (h : SameStanding s t) (g : SameStanding t u) : SameStanding s u := fun j => (g j).trans (h j)
theorem SameStanding.of_links (h : t.links = s.links) : SameStanding s t := fun j => by rw [link_of_links h]
theorem SameStanding.ite {p : Prop} [Decidable p] (ht : SameStanding s t) (hu : SameStanding s u) : SameStanding s (if p then t else u) := by
  split <;> assumption
theorem SameStanding.foldl {α : Type} {f : State → α → State} (hf : ∀ s a, SameStanding s (f s a)) (l : List α) (s : State) :
    SameStanding s (l.foldl f s) := by
  induction l generalizing s with
  | nil => exact .refl s
  | cons a l ih => exact (hf s a).trans (ih _)

theorem SameStanding.state (h : SameStanding s t) (j : LinkId) : (t.link j).state = (s.link j).state :=
  show (t.link j).standing.state = (s.link j).standing.state from congrArg _ (h j)
theorem SameStanding.key (h : SameStanding s t) (j : LinkId) : (t.link j).key = (s.link j).key :=
  show (t.link j).standing.key = (s.link j).standing.key from congrArg _ (h j)
theorem SameStanding.nbr (h : SameStanding s t) (j : LinkId) : (t.link j).nbr = (s.link j).nbr :=
  show (t.link j).standing.nbr = (s.link j).standing.nbr from congrArg _ (h j)
theorem SameStanding.encOn (h : SameStanding s t) (j : LinkId) : (t.link j).encOn = (s.link j).encOn :=
  show (t.link j).standing.encOn = (s.link j).standing.encOn from congrArg _ (h j)
theorem SameStanding.wrapped (h : SameStanding s t) (j : LinkId) : (t.link j).wrapped = (s.link j).wrapped :=
  show (t.link j).standing.wrapped = (s.link j).standing.wrapped from congrArg _ (h j)
theorem SameStanding.helloCount (h : SameStanding s t) (j : LinkId) : (t.link j).helloCount = (s.link j).helloCount :=
  show (t.link j).standing.helloCount = (s.link j).standing.helloCount from congrArg _ (h j)
theorem SameStanding.linkUp (h : SameStanding s t) (j : LinkId) : t.linkUp j = s.linkUp j := by rw [State.linkUp, h.state, State.linkUp]

theorem State.setLink_standing {x : Link} (h : x.standing = (s.link k).standing) : SameStanding s (s.setLink k x) := fun j => by
  by_cases hj : j = k
  · rw [hj, State.link_setLink_same, h]
  · rw [State.link_setLink_other _ _ _ _ hj]

theorem State.pushLink_standing (s : State) (k : LinkId) (from_ : Option LinkId) (f : RlFrame) : SameStanding s (s.pushLink k from_ f) :=
  State.setLink_standing rfl

theorem State.countLink_standing (s : State) (k : LinkId) (off : Nat) : SameStanding s (s.countLink k off) := .of_links rfl

theorem State.rlDone_standing (s : State) (k : LinkId) (f : RlFrame) : SameStanding s (s.rlDone k f) :=
  State.setLink_standing (x := { s.link k with returned := _ }) rfl

theorem State.dropFrom_standing (s : State) (from_ : Option LinkId) (f : RlFrame) : SameStanding s (s.dropFrom from_ f) := by
  unfold State.dropFrom
  split
  · exact SameStanding.ite (.refl s) (s.rlDone_standing _ f)
  · exact .refl s

theorem State.wrapOnto_standing (s : State) (k c : LinkId) (from_ : Option LinkId) (f : RlFrame) : SameStanding s (s.wrapOnto k c from_ f) := by
  unfold State.wrapOnto
  split
  · exact (s.countLink_standing _ _).trans (State.pushLink_standing _ _ _ _)
  · exact (SameStanding.ite (s.countLink_standing _ _) (s.countLink_standing _ _)).trans (State.dropFrom_standing _ _ _)

theorem State.wrapQueue_standing (s : State) (k : LinkId) (up : Bool) : SameStanding s (s.wrapQueue k up) := by
  unfold State.wrapQueue
  extract_lets q l s1
  have h1 : SameStanding s s1 := State.setLink_standing rfl
  exact h1.trans (SameStanding.foldl (fun y e => .ite (y.wrapOnto_standing _ _ _ _) (y.dropFrom_standing _ _)) q s1)

theorem State.flood_standing (s : State) (from_ : Option LinkId) (f : RlFrame) : SameStanding s (s.flood from_ f) := by
  unfold State.flood
  exact .ite (s.dropFrom_standing _ _) (SameStanding.foldl (fun y i => y.pushLink_standing i from_ f) _ s)

theorem State.newTopo_standing (s : State) : SameStanding s s.newTopo := by
  unfold State.newTopo State.sendTopo
  exact SameStanding.trans (SameStanding.of_links rfl) (State.flood_standing _ _ _)

theorem State.topologyChanged_links (s : State) : s.topologyChanged.links = s.links := by
  have h : Only [.fab, .regs .fab, .regs .fn, .regs .tmu] s s.topologyChanged := by
    apply State.topologyChanged_only (Only.refl s) <;> decide
  exact h.2 .links (by decide)

theorem State.endWire_standing (s : State) (k : LinkId) (cut : Bool) : SameStanding s (s.endWire k cut) := by
  unfold State.endWire
  split
  · exact SameStanding.trans (t := s.setLink k { s.link k with wire := none, stomped := false }) (State.setLink_standing rfl)
      (.ite (State.countLink_standing _ _ _) (.ite (.refl _) (State.countLink_standing _ _ _)))
  · exact .refl s

theorem State.takeWire_standing (s : State) (k : LinkId) (g : RlFrame) (ends : DWord) (broken : Bool) : SameStanding s (s.takeWire k g ends broken) :=
  SameStanding.trans (s.endWire_standing k false) (State.setLink_standing rfl)

theorem State.emitRidge_standing (s : State) (k : LinkId) (f : RlFrame) (broken : Bool) : SameStanding s (s.emitRidge k f broken) := by
  unfold State.emitRidge
  extract_lets l
  refine .ite (.of_links rfl) ?_
  split
  · exact SameStanding.trans (SameStanding.of_links rfl) (State.setLink_standing rfl)
  · exact .refl s

theorem State.brokenCopy_standing (s : State) (j : LinkId) (g : RlFrame) : SameStanding s (s.brokenCopy j g) :=
  (s.takeWire_standing _ _ _ _).trans (State.emitRidge_standing _ _ _ _)

theorem State.cutThrough_standing (s : State) (k : LinkId) (f : RlFrame) : SameStanding s (s.cutThrough k f) := by
  unfold State.cutThrough
  exact .ite (.refl s) (SameStanding.foldl (fun y e => y.brokenCopy_standing _ _) _ s)

theorem State.insertLinks_standing (s : State) : SameStanding s s.insertLinks := by
  unfold State.insertLinks
  refine SameStanding.foldl (fun y k => ?_) _ s
  extract_lets now was fab y1
  have h1 : SameStanding y y1 := .of_links rfl
  exact .ite (h1.trans (State.setLink_standing rfl)) (.ite (h1.trans (State.setLink_standing rfl)) h1)

/-! A frame that is taken from a link (R345, R386) -/

/-- Link k after a frame has passed the checks of R345 and R386: the counter of a sealed one is noted, and the frame is counted in RX_OK. -/
def State.rlTaken (s : State) (k : LinkId) (a : RlArrival) : State :=
  (if (s.link k).encOn then s.setLink k { s.link k with cRx := a.under.map (·.c) } else s).countLink k 0x40

theorem RlTakes.rlTake {a : RlArrival} (h : RlTakes s k a) (eff : State → State) : s.rlTake k a eff = finish (eff (s.rlTaken k a)) := by
  obtain ⟨hreceives, hauth, hknown, hhops⟩ := h
  have hclear : (!rlReceives (s.link k) || (!(s.link k).encOn && a.under.isSome)) = false := by
    cases henc : (s.link k).encOn with
    | true => simp [hreceives]
    | false => simpa [hreceives, henc] using hauth
  have hseal : ((s.link k).encOn && !s.authentic k a) = false := by
    cases henc : (s.link k).encOn with
    | true => simpa [henc] using hauth
    | false => rfl
  unfold State.rlTake State.rlTaken
  dsimp only
  rw [if_neg (by simp [hclear]), if_neg (by simp [hseal]), if_neg (by simp [hknown]), if_neg hhops]

theorem State.rlTaken_only (s : State) (k : LinkId) (a : RlArrival) : Only [.links, .counts, .halves] s (s.rlTaken k a) := by
  have h : Only [.links, .counts, .halves] s (if (s.link k).encOn then s.setLink k { s.link k with cRx := a.under.map (·.c) } else s) :=
    .ite ((Only.refl s).links (by decide)) (Only.refl s)
  exact State.countLink_only h (by decide) (by decide)

theorem State.rlTaken_link (s : State) (k : LinkId) (a : RlArrival) : ∃ c, (s.rlTaken k a).link k = { s.link k with cRx := c } := by
  unfold State.rlTaken
  rw [State.countLink_link]
  split
  · exact ⟨_, State.link_setLink_same _ _ _⟩
  · exact ⟨(s.link k).cRx, rfl⟩

theorem State.rlTaken_cRx {a : RlArrival} (henc : (s.link k).encOn = true) : ((s.rlTaken k a).link k).cRx = a.under.map (·.c) := by
  unfold State.rlTaken
  rw [State.countLink_link, if_pos henc, State.link_setLink_same]

theorem State.rlTaken_link_other {a : RlArrival} (hj : j ≠ k) : (s.rlTaken k a).link j = s.link j := by
  unfold State.rlTaken
  rw [State.countLink_link]
  split
  · exact State.link_setLink_other _ _ _ _ hj
  · rfl

theorem State.rlTaken_standing (s : State) (k : LinkId) (a : RlArrival) : SameStanding s (s.rlTaken k a) := fun j => by
  by_cases hj : j = k
  · obtain ⟨c, hc⟩ := s.rlTaken_link k a
    rw [hj, hc]
    rfl
  · rw [State.rlTaken_link_other hj]

end standing

end Sys2Proof.Machine

namespace Sys2Proof.Machine

/-! ### Credits, broken copies and frame starts on a link (R344 to R350) -/

/-- A command whose own part changes no register. -/
theorem Only.sameRegs {ps : List Part} {s u : State} (h : Only ps s u) (hr : ∀ b, Part.regs b ∉ ps) : SameRegs s u.noteMay.announce :=
  SameRegs.of_reg fun r => h.2 (.regs (blockOf r)) (hr _) r rfl

section credits
variable {s t u : State} {j k : LinkId} {f g : RlFrame}

theorem State.setLink_ended (s : State) (k : LinkId) (x : Link) : (s.setLink k x).noteMay.announce.link k = x ∧
    ∀ j, j ≠ k → (s.setLink k x).noteMay.announce.link j = s.link j := by
  refine ⟨?_, fun j hj => ?_⟩
  · rw [State.announce_link, State.noteMay_link, State.link_setLink_same]
  · rw [State.announce_link, State.noteMay_link, State.link_setLink_other _ _ _ _ hj]

theorem State.setLink_sameRegs (s : State) (k : LinkId) (x : Link) : SameRegs s (s.setLink k x).noteMay.announce := SameRegs.of_regs rfl

/-- The report of a class, as it leaves. -/
def State.creditOutput (s : State) (k : LinkId) (c : Fin 3) : Output := .credit k (BitVec.ofNat 2 c.val) (BitVec.ofNat 12 (s.link k).returned[c])

theorem State.reportCredits_eq (s : State) (k : LinkId) (l : List (Fin 3)) :
    l.foldl (fun y c => y.reportCredit k c) s = { s with out := s.out ++ l.map (s.creditOutput k) } := by
  induction l generalizing s with
  | nil => simp
  | cons c l ih =>
    rw [List.foldl_cons, ih, List.map_cons, ← List.singleton_append, ← List.append_assoc]
    rfl

theorem State.reportCredits_sends (s : State) (k : LinkId) (c : Fin 3) :
    Sends s ((List.finRange 3).foldl (fun y c => y.reportCredit k c) s) (s.creditOutput k c) := by
  rw [State.reportCredits_eq]
  exact ⟨_, rfl, List.mem_map_of_mem (List.mem_finRange c)⟩

theorem creditReport_does {cls : BitVec 2} {count : BitVec 12} (hreceives : rlReceives (s.link k) = true) (hcls : cls ≠ 3) :
    Does (.creditReport k cls count) s fun t =>
      t.link k = { s.link k with granted := (s.link k).granted.set (clsIx cls) count.toNat } ∧ (∀ j, j ≠ k → t.link j = s.link j) ∧ SameRegs s t := by
  have he : exec (.creditReport k cls count) s =
      finish (s.setLink k { s.link k with granted := (s.link k).granted.set (clsIx cls) count.toNat }) := by
    change execCreditReport k cls count s = _
    unfold execCreditReport
    dsimp only
    rw [if_neg (by simpa [hreceives] using hcls)]
  obtain ⟨hsame, hother⟩ := s.setLink_ended k { s.link k with granted := (s.link k).granted.set (clsIx cls) count.toNat }
  exact .of_finish he ⟨hsame, hother, s.setLink_sameRegs _ _⟩

theorem creditReportTimer_does (hreceives : rlReceives (s.link k) = true) :
    Does (.creditReportTimer k) s fun t =>
      (∀ c : Fin 3, Sends s t (.credit k (BitVec.ofNat 2 c.val) (BitVec.ofNat 12 (s.link k).returned[c]))) ∧ t.links = s.links ∧ SameRegs s t := by
  have he : exec (.creditReportTimer k) s = finish ((List.finRange 3).foldl (fun y c => y.reportCredit k c) s) := by
    change execCreditReportTimer k s = _
    unfold execCreditReportTimer
    rw [if_pos hreceives]
  refine .of_finish he ⟨fun c => (s.reportCredits_sends k c).ended, ?_, ?_⟩
  · rw [State.announce_links, State.noteMay_links, State.reportCredits_eq]
  · exact SameRegs.of_regs (by rw [State.reportCredits_eq])

/-! A copy that goes on cut-through uses up credit of its output link and counts there what ended before it; it returns no credit, and no counter of a
discard rises (R346, R350). -/

/-- No credit returns, and of the counters of links only TX_OK and TX_CUT may rise. -/
structure OnlySends (s t : State) : Prop where
  returned : ∀ j, (t.link j).returned = (s.link j).returned
  counts : ∀ i, i % 64 ≠ 1 → i % 64 ≠ 7 → Tbl.get 0 t.counts i = Tbl.get 0 s.counts i

theorem OnlySends.refl (s : State) : OnlySends s s := ⟨fun _ => rfl, fun _ _ _ => rfl⟩

theorem OnlySends.trans (h : OnlySends s t) (g : OnlySends t u) : OnlySends s u :=
  ⟨fun j => (g.returned j).trans (h.returned j), fun i h1 h7 => (g.counts i h1 h7).trans (h.counts i h1 h7)⟩

theorem OnlySends.ite {p : Prop} [Decidable p] (ht : OnlySends s t) (hu : OnlySends s u) : OnlySends s (if p then t else u) := by
  split <;> assumption

theorem OnlySends.emit {o : Output} : OnlySends s (s.emit o) := ⟨fun _ => rfl, fun _ _ _ => rfl⟩

theorem OnlySends.setLink {x : Link} (h : x.returned = (s.link k).returned) : OnlySends s (s.setLink k x) := by
  refine ⟨fun j => ?_, fun _ _ _ => rfl⟩
  by_cases hj : j = k
  · rw [hj, State.link_setLink_same, h]
  · rw [State.link_setLink_other _ _ _ _ hj]

theorem State.countLink_counts_other (s : State) {k : LinkId} {off i : Nat} (h : i ≠ 64 * (37 + k.val) + (off - 0x40) / 4) :
    Tbl.get 0 (s.countLink k off).counts i = Tbl.get 0 s.counts i := Tbl.get_put_other _ _ _ _ h

theorem State.countLink_counts_same (s : State) {k : LinkId} {off : Nat} (h : Tbl.wf 0 s.counts = true) :
    Tbl.get 0 (s.countLink k off).counts (64 * (37 + k.val) + (off - 0x40) / 4) = Tbl.get 0 s.counts (64 * (37 + k.val) + (off - 0x40) / 4) + 1 :=
  Tbl.get_put_same _ _ _ h

theorem State.countSent_onlySends (s : State) (k : LinkId) {off : Nat} (h : off = 0x44 ∨ off = 0x5C) : OnlySends s (s.countLink k off) :=
  ⟨fun _ => rfl, fun i h1 h7 => s.countLink_counts_other (by rcases h with rfl | rfl <;> omega)⟩

theorem State.endWire_onlySends (s : State) (k : LinkId) (cut : Bool) : OnlySends s (s.endWire k cut) := by
  unfold State.endWire
  split
  · dsimp only
    have h1 : OnlySends s (s.setLink k { s.link k with wire := none, stomped := false }) := OnlySends.setLink rfl
    split
    · exact h1.trans (State.countSent_onlySends _ _ (.inr rfl))
    · split
      · exact h1
      · exact h1.trans (State.countSent_onlySends _ _ (.inl rfl))
  · exact .refl s

theorem State.emitRidge_onlySends (s : State) (k : LinkId) (f : RlFrame) (broken : Bool) : OnlySends s (s.emitRidge k f broken) := by
  unfold State.emitRidge
  dsimp only
  split
  · exact .emit
  · split
    · exact OnlySends.emit.trans (OnlySends.setLink rfl)
    · exact .refl s

theorem State.takeWire_onlySends (s : State) (k : LinkId) (g : RlFrame) (ends : DWord) (broken : Bool) : OnlySends s (s.takeWire k g ends broken) :=
  (s.endWire_onlySends k false).trans (OnlySends.setLink rfl)

theorem State.brokenCopy_onlySends (s : State) (j : LinkId) (g : RlFrame) : OnlySends s (s.brokenCopy j g) :=
  (s.takeWire_onlySends _ _ _ _).trans (State.emitRidge_onlySends _ _ _ _)

theorem State.cutThrough_onlySends (s : State) (k : LinkId) (f : RlFrame) : OnlySends s (s.cutThrough k f) := by
  unfold State.cutThrough
  split
  · exact .refl s
  · induction ((s.copiesOf k f).filter _) generalizing s with
    | nil => exact .refl s
    | cons e l ih => exact (s.brokenCopy_onlySends e.1 e.2).trans (ih _)

/-- A broken copy is on the wire of link j. -/
def State.breaking (s : State) (j : LinkId) : Prop := (∃ w, (s.link j).wire = some w) ∧ (s.link j).stomped = true

theorem State.countLink_ite_link (s : State) (c d : Bool) (k j : LinkId) (m n : Nat) :
    (if c then s.countLink k m else if d then s else s.countLink k n).link j = s.link j := by
  split
  · rfl
  · split <;> rfl

theorem State.endWire_link_other (cut : Bool) (hj : j ≠ k) : (s.endWire k cut).link j = s.link j := by
  unfold State.endWire
  split
  · exact (State.countLink_ite_link _ _ _ _ _ _ _).trans (State.link_setLink_other _ _ _ _ hj)
  · rfl

theorem State.takeWire_link_other {ends : DWord} {broken : Bool} (hj : j ≠ k) : (s.takeWire k g ends broken).link j = s.link j :=
  (State.link_setLink_other _ _ _ _ hj).trans (State.endWire_link_other false hj)

theorem State.takeWire_wire (s : State) (k : LinkId) (g : RlFrame) (ends : DWord) (broken : Bool) :
    ((s.takeWire k g ends broken).link k).wire = some (g, ends) ∧ ((s.takeWire k g ends broken).link k).stomped = broken := by
  unfold State.takeWire
  simp only [State.link_setLink_same, and_self]

/-- Of a link, a frame that leaves changes at most its counter C. -/
theorem State.emitRidge_link (s : State) (k : LinkId) (f : RlFrame) (broken : Bool) (j : LinkId) :
    ∃ c, (s.emitRidge k f broken).link j = { s.link j with cTx := c } := by
  unfold State.emitRidge
  dsimp only
  split
  · exact ⟨_, rfl⟩
  · split
    · by_cases hj : j = k
      · rw [hj]
        exact ⟨_, State.link_setLink_same _ _ _⟩
      · exact ⟨(s.link j).cTx, State.link_setLink_other _ _ _ _ hj⟩
    · exact ⟨_, rfl⟩

theorem State.brokenCopy_breaking (s : State) (j : LinkId) (g : RlFrame) : (s.brokenCopy j g).breaking j := by
  unfold State.brokenCopy State.breaking
  extract_lets ends g1
  obtain ⟨c, hc⟩ := (s.takeWire j g1 ends true).emitRidge_link j g1 true j
  obtain ⟨hwire, hstomped⟩ := s.takeWire_wire j g1 ends true
  rw [hc]
  exact ⟨⟨_, hwire⟩, hstomped⟩

theorem State.brokenCopy_keeps_breaking (h : s.breaking j) (k : LinkId) (g : RlFrame) : (s.brokenCopy k g).breaking j := by
  by_cases hj : j = k
  · rw [hj]
    exact s.brokenCopy_breaking k g
  · unfold State.brokenCopy State.breaking
    extract_lets ends g1
    obtain ⟨c, hc⟩ := (s.takeWire k g1 ends true).emitRidge_link k g1 true j
    rw [hc, State.takeWire_link_other hj]
    exact h

/-- A frame that waits for a stamp keeps its header apart from it. -/
theorem stampFrame_header (f : RlFrame) (x : DWord) : (stampFrame f x).kind = f.kind ∧ (stampFrame f x).dest = f.dest ∧ (stampFrame f x).ttl = f.ttl ∧
    (stampFrame f x).cls = f.cls := by
  unfold stampFrame
  split
  · exact ⟨rfl, rfl, rfl, rfl⟩
  · dsimp only
    split <;> exact ⟨rfl, rfl, rfl, rfl⟩

/-- A copy of the frame g leaves on link j and ends there with an error block. -/
def SendsBroken (s t : State) (j : LinkId) (g : RlFrame) : Prop :=
  ∃ x, Sends s t (.ridgeError j x) ∧ x.kind = g.kind ∧ x.dest = g.dest ∧ x.ttl = g.ttl

theorem SendsBroken.later (h : SendsBroken s t j g) (hk : Keeps false t u) : SendsBroken s u j g := by
  obtain ⟨x, hx, hsame⟩ := h
  exact ⟨x, hx.later hk, hsame⟩

theorem SendsBroken.of_mid (hk : Keeps false s t) (h : SendsBroken t u j g) : SendsBroken s u j g := by
  obtain ⟨x, hx, hsame⟩ := h
  exact ⟨x, .of_mid hk hx, hsame⟩

theorem State.emitRidge_clear {broken : Bool} (henc : (s.link j).encOn = false) :
    s.emitRidge j g broken = s.emit (if broken then .ridgeError j g else .ridge j g) := by
  unfold State.emitRidge rlSealed
  simp [henc]

theorem State.brokenCopy_sends (g : RlFrame) (henc : (s.link j).encOn = false) : SendsBroken s (s.brokenCopy j g) j g := by
  unfold State.brokenCopy
  extract_lets ends x
  have hclear : ((s.takeWire j x ends true).link j).encOn = false := ((s.takeWire_standing j x ends true).encOn j).trans henc
  obtain ⟨hkind, hdest, httl, -⟩ := stampFrame_header g (s.rlTxStamp j (ends - BitVec.ofNat 64 (rlDuration (s.link j) g)))
  rw [State.emitRidge_clear hclear]
  exact ⟨x, .of_mid (State.takeWire_keeps (Keeps.refl s)) ⟨[_], rfl, List.mem_singleton.2 rfl⟩, hkind, hdest, httl⟩

theorem State.brokenCopies_breaking (h : s.breaking j) (l : List (LinkId × RlFrame)) : (l.foldl (fun y e => y.brokenCopy e.1 e.2) s).breaking j := by
  induction l generalizing s with
  | nil => exact h
  | cons e l ih => exact ih (State.brokenCopy_keeps_breaking h e.1 e.2)

/-- Each of the copies ends with an error block on its link (R346). -/
theorem State.brokenCopies_do {l : List (LinkId × RlFrame)} {e : LinkId × RlFrame} (he : e ∈ l) (henc : (s.link e.1).encOn = false) :
    SendsBroken s (l.foldl (fun y e => y.brokenCopy e.1 e.2) s) e.1 e.2 ∧ (l.foldl (fun y e => y.brokenCopy e.1 e.2) s).breaking e.1 := by
  induction l generalizing s with
  | nil => cases he
  | cons d l ih =>
    have hd : Keeps false s (s.brokenCopy d.1 d.2) := State.brokenCopy_keeps (Keeps.refl s)
    rcases List.mem_cons.1 he with rfl | hl
    · have hrest : Keeps false (s.brokenCopy e.1 e.2) (l.foldl (fun y e => y.brokenCopy e.1 e.2) (s.brokenCopy e.1 e.2)) :=
        Keeps.foldl (.refl _) fun _ _ hy => State.brokenCopy_keeps hy
      exact ⟨(State.brokenCopy_sends e.2 henc).later hrest, State.brokenCopies_breaking (s.brokenCopy_breaking e.1 e.2) l⟩
    · obtain ⟨hsends, hbreaking⟩ := ih hl (((s.brokenCopy_standing d.1 d.2).encOn e.1).trans henc)
      exact ⟨.of_mid hd hsends, hbreaking⟩

/-- A copy that had begun when its frame failed ends with an error block. -/
theorem State.cutThrough_breaks {e : LinkId × RlFrame} (hknown : rlKnown f = true) (hhops : f.ttl ≠ 0) (he : e ∈ s.copiesOf k f)
    (hfree : s.linkFree e.1 = true) (hfits : rlFits (s.link e.1) e.2 = true) (henc : (s.link e.1).encOn = false) :
    SendsBroken s (s.cutThrough k f) e.1 e.2 ∧ (s.cutThrough k f).breaking e.1 := by
  unfold State.cutThrough
  rw [if_neg (by simpa [hknown] using hhops)]
  exact State.brokenCopies_do (List.mem_filter.2 ⟨he, by rw [hfree, hfits]; rfl⟩) henc

/-- The copies of a frame that failed after its header end; one whose header failed has none (R346). -/
def State.copiesEnd (s : State) (k : LinkId) (why : RlDiscard) : Option RlFrame → State
  | some f => if afterHeader why then s.cutThrough k f else s
  | none => s

/-- What a discard does of itself: it is counted, and its credits return (R345, R349). -/
def State.discarded (s : State) (k : LinkId) (why : RlDiscard) (cls : BitVec 2) (len : Nat) : State :=
  (s.countLink k (discardOff why)).returnCredit k cls len

theorem exec_rlFrameDiscard {why : RlDiscard} {cls : BitVec 2} {len : Nat} {head : Option RlFrame} (hreceives : rlReceives (s.link k) = true)
    (hwhy : why ≠ .auth ∨ (s.link k).encOn = true) :
    exec (.rlFrameDiscard k why cls ⟨len, head⟩) s = finish ((s.copiesEnd k why head).discarded k why cls len) := by
  change execRlFrameDiscard k why cls ⟨len, head⟩ s = _
  unfold execRlFrameDiscard
  rw [if_pos (by rcases hwhy with h | h <;> simp [hreceives, h])]
  cases head <;> rfl

section discard
variable (s : State) (k : LinkId) (why : RlDiscard) (head : Option RlFrame) (cls : BitVec 2) (len : Nat)

theorem State.copiesEnd_standing : SameStanding s (s.copiesEnd k why head) := by
  cases head with
  | none => exact .refl s
  | some f => exact .ite (s.cutThrough_standing k f) (.refl s)

theorem State.copiesEnd_onlySends : OnlySends s (s.copiesEnd k why head) := by
  cases head with
  | none => exact .refl s
  | some f => exact .ite (s.cutThrough_onlySends k f) (.refl s)

theorem State.copiesEnd_keeps : Keeps false s (s.copiesEnd k why head) := by
  cases head with
  | none => exact .refl s
  | some f => exact .ite (State.cutThrough_keeps (.refl s)) (.refl s)

theorem State.copiesEnd_regs (r : Reg) : (s.copiesEnd k why head).reg r = s.reg r := by
  have h : Only [.links, .counts, .halves, .out] s (s.copiesEnd k why head) := by
    cases head with
    | none => exact .refl s
    | some f => exact .ite (by apply State.cutThrough_only (Only.refl s) <;> decide) (.refl s)
  exact h.2 (.regs (blockOf r)) (by simp) r rfl

theorem State.discarded_link : (s.discarded k why cls len).link k =
    { s.link k with returned := (s.link k).returned.set (clsIx cls) (((s.link k).returned[clsIx cls] + rlCredits len (s.link k).encOn) % 4096) } :=
  State.link_setLink_same _ _ _

theorem State.discarded_link_other (hj : j ≠ k) : (s.discarded k why cls len).link j = s.link j := State.link_setLink_other _ _ _ _ hj

theorem State.discarded_breaking (h : s.breaking j) : (s.discarded k why cls len).breaking j := by
  unfold State.breaking
  by_cases hj : j = k
  · rw [hj, State.discarded_link, ← hj]
    exact h
  · rw [State.discarded_link_other s k why cls len hj]
    exact h

end discard

/-- The word of a discard's counter is none of those of frames sent. -/
theorem discardOff_word (why : RlDiscard) (k : LinkId) :
    (64 * (37 + k.val) + (discardOff why - 0x40) / 4) % 64 ≠ 1 ∧ (64 * (37 + k.val) + (discardOff why - 0x40) / 4) % 64 ≠ 7 := by
  cases why <;> simp only [discardOff] <;> omega

theorem rlFrameDiscard_does {why : RlDiscard} {cls : BitVec 2} {len : Nat} {head : Option RlFrame} (hreceives : rlReceives (s.link k) = true)
    (hwhy : why ≠ .auth ∨ (s.link k).encOn = true) (htab : TablesOk s) :
    Does (.rlFrameDiscard k why cls ⟨len, head⟩) s fun t =>
      Tbl.get 0 t.counts (64 * (37 + k.val) + (discardOff why - 0x40) / 4) = Tbl.get 0 s.counts (64 * (37 + k.val) + (discardOff why - 0x40) / 4) + 1 ∧
      (t.link k).returned[clsIx cls] = ((s.link k).returned[clsIx cls] + rlCredits len (s.link k).encOn) % 4096 ∧
      (t.link k).state = (s.link k).state ∧ (head = none → ∀ j, j ≠ k → t.link j = s.link j) ∧ SameRegs s t ∧
      ∀ f e, head = some f → afterHeader why = true → rlKnown f = true → f.ttl ≠ 0 → e ∈ s.copiesOf k f → s.linkFree e.1 = true →
        rlFits (s.link e.1) e.2 = true → (s.link e.1).encOn = false →
        (∃ g, Sends s t (.ridgeError e.1 g) ∧ g.kind = e.2.kind ∧ g.dest = e.2.dest ∧ g.ttl = e.2.ttl) ∧
          ∃ w, (t.link e.1).wire = some w ∧ (t.link e.1).stomped = true := by
  obtain ⟨hreturned, hcounts⟩ := s.copiesEnd_onlySends k why head
  have hstanding := s.copiesEnd_standing k why head
  have hkeeps := s.copiesEnd_keeps k why head
  obtain ⟨hsent, hcut⟩ := discardOff_word why k
  refine .of_finish (exec_rlFrameDiscard hreceives hwhy) ⟨?_, ?_, ?_, fun hhead j hj => ?_, ?_, fun f e hhead hafter hknown hhops he hfree hfits henc => ?_⟩
  · rw [State.announce_counts, State.noteMay_counts, ← hcounts _ hsent hcut]
    exact State.countLink_counts_same _ (hkeeps.2.1 htab).counts
  · rw [State.announce_link, State.noteMay_link, State.discarded_link, ← hreturned, ← hstanding.encOn]
    exact Vector.getElem_set_self _
  · rw [State.announce_link, State.noteMay_link, State.discarded_link]
    exact hstanding.state k
  · rw [State.announce_link, State.noteMay_link, State.discarded_link_other _ _ _ _ _ hj, hhead, State.copiesEnd]
  · exact SameRegs.of_reg (s.copiesEnd_regs k why head)
  · have hcopies : s.copiesEnd k why head = s.cutThrough k f := by rw [hhead, State.copiesEnd, if_pos hafter]
    obtain ⟨hsends, hbreaking⟩ := s.cutThrough_breaks hknown hhops he hfree hfits henc
    rw [hcopies]
    have hrest : Keeps false (s.cutThrough k f) ((s.cutThrough k f).discarded k why cls len) :=
      State.returnCredit_keeps (State.countLink_keeps (.refl _))
    obtain ⟨g, hg, hsame⟩ := hsends.later hrest
    obtain ⟨⟨w, hw⟩, hstomped⟩ := State.discarded_breaking (s.cutThrough k f) k why cls len hbreaking
    rw [State.announce_link, State.noteMay_link]
    exact ⟨⟨g, hg.ended, hsame⟩, w, hw, hstomped⟩

/-! A frame of this device that starts (R344, R351) -/

theorem State.advance_links (s : State) (r : DWord) : (s.advance r).links = s.links := (s.advance_frame r).2 .links (by decide)
theorem State.advance_link (s : State) (r : DWord) (k : LinkId) : (s.advance r).link k = s.link k := link_of_links (s.advance_links r) k

theorem State.endWire_none (s : State) {k : LinkId} {cut : Bool} (h : (s.link k).wire = none) : s.endWire k cut = s := by
  unfold State.endWire
  rw [h]

theorem State.setLink_setLink (s : State) (k : LinkId) (x y : Link) : (s.setLink k x).setLink k y = s.setLink k y := by
  simp only [State.setLink, Vector.set_set]

/-- The link that frame f of this device, stamped x, leaves on: without encryption the frame takes the wire and uses the credits of its length. -/
def Link.started (l : Link) (f : RlFrame) (x raw : DWord) : Link :=
  let g := stampFrame f x
  { l with
    queue := dropFirst (fun e => e == (none, f)) l.queue, syncSent := if g.kind = kSync then some (g.seqNo, x) else l.syncSent,
    usedCr := l.usedCr.set (clsIx f.cls) ((l.usedCr[clsIx f.cls] + rlCredits g.payload.length false) % 4096),
    wire := some (g, after raw (rlDuration l g)), stomped := false }

theorem State.linkStart_clear (s : State) {raw : DWord} (hwire : (s.link k).wire = none) (henc : (s.link k).encOn = false) :
    s.linkStart k raw none f =
      (s.setLink k ((s.link k).started f (s.rlTxStamp k raw) raw)).emit (.ridge k (stampFrame f (s.rlTxStamp k raw))) := by
  obtain ⟨-, -, -, hcls⟩ := stampFrame_header f (s.rlTxStamp k raw)
  unfold State.linkStart State.takeWire State.dropFrom
  dsimp only
  rw [State.endWire_none _ (by rw [State.link_setLink_same, hwire]), State.link_setLink_same, State.setLink_setLink,
    State.emitRidge_clear (by rw [State.link_setLink_same, henc])]
  unfold Link.started
  simp only [rlSealed, henc, Bool.false_and, hcls]
  rfl

theorem linkTxStart_does {raw : DWord} (hreceives : rlReceives (s.link k) = true) (hwire : (s.link k).wire = none)
    (hready : readyFrame (s.link k) = some (none, f)) (henc : (s.link k).encOn = false) :
    Does (.linkTxStart k raw) s fun t => Sends s t (.ridge k (stampFrame f (s.timeAt (raw + BitVec.ofNat 64 (248 + k.val))))) ∧
      (t.link k).queue = dropFirst (fun e => e == (none, f)) (s.link k).queue ∧
      (t.link k).usedCr[clsIx f.cls] =
        ((s.link k).usedCr[clsIx f.cls] + rlCredits (stampFrame f (s.timeAt (raw + BitVec.ofNat 64 (248 + k.val)))).payload.length false) % 4096 ∧
      (t.link k).wire.isSome = true ∧ ∀ j, j ≠ k → t.link j = s.link j := by
  have hstamp : (s.advance raw).rlTxStamp k raw = s.timeAt (raw + BitVec.ofNat 64 (248 + k.val)) := s.advance_timeAt raw _
  have he : exec (.linkTxStart k raw) s = finish ((s.advance raw).linkStart k raw none f) := by
    change execLinkTxStart k raw s = _
    unfold execLinkTxStart
    dsimp only
    rw [State.endWire_none _ (by rw [State.advance_link, hwire]), State.advance_link, hwire, hready, if_neg (by simp [hreceives])]
  rw [State.linkStart_clear _ (by rw [State.advance_link, hwire]) (by rw [State.advance_link, henc]), State.advance_link, hstamp] at he
  refine .of_finish he ⟨?_, ?_, ?_, ?_, fun j hj => ?_⟩
  · exact Sends.ended (.of_mid (State.advance_keeps (.refl s)) ⟨_, rfl, List.mem_singleton.2 rfl⟩)
  · rw [State.announce_link, State.noteMay_link, State.link_emit, State.link_setLink_same]
    rfl
  · rw [State.announce_link, State.noteMay_link, State.link_emit, State.link_setLink_same]
    exact Vector.getElem_set_self _
  · rw [State.announce_link, State.noteMay_link, State.link_emit, State.link_setLink_same]
    rfl
  · rw [State.announce_link, State.noteMay_link, State.link_emit, State.link_setLink_other _ _ _ _ hj, State.advance_link]

end credits

/-- Settles O47: reports of credits touch nothing else; a discard is followed through the copies that it breaks, which change neither the counter of the
discard nor the credits returned; and a frame that starts in clear is one write of its link. -/
theorem ridgelineCredits : Obligations.RidgelineCredits := by
  unfold Obligations.RidgelineCredits
  exact ⟨fun _ _ _ _ hreceives hcls => creditReport_does hreceives hcls, fun _ _ hreceives => creditReportTimer_does hreceives,
    fun _ _ _ _ _ _ hreceives hwhy htab => rlFrameDiscard_does hreceives hwhy htab,
    fun _ _ _ _ hreceives hwire hready henc => linkTxStart_does hreceives hwire hready henc⟩

end Sys2Proof.Machine

namespace Sys2Proof.Machine

/-! ### A link goes down (R353, R354, R372, R386) -/

section falls
variable {s t u : State} {j k : LinkId} {st : LState}

/-- Link k has gone to st without its key and with no HELLO counted; every other link stands as it did, FAB_LINK is set, and no port and no link register
has changed. -/
structure Falls (s t : State) (k : LinkId) (st : LState) : Prop where
  state : (t.link k).state = st
  key : (t.link k).key = none
  helloCount : (t.link k).helloCount = 0
  others : ∀ j, j ≠ k → (t.link j).standing = (s.link j).standing
  event : t.rb (.fab .evt) 1 = true
  ports : t.ports = s.ports
  regs : ∀ i q, t.reg (.rl i q) = s.reg (.rl i q)

theorem Falls.other (h : Falls s t k st) (hj : j ≠ k) : (t.link j).state = (s.link j).state :=
  show (t.link j).standing.state = (s.link j).standing.state from congrArg _ (h.others j hj)

/-- What every command ends with leaves a link that has gone down as it is. -/
theorem Falls.ended (h : Falls s t k st) : Falls s t.noteMay.announce k st := by
  obtain ⟨hstate, hkey, hcount, hothers, hevent, hports, hregs⟩ := h
  refine ⟨?_, ?_, ?_, fun j hj => ?_, ?_, ?_, fun i q => ?_⟩
  · rw [State.announce_link, State.noteMay_link, hstate]
  · rw [State.announce_link, State.noteMay_link, hkey]
  · rw [State.announce_link, State.noteMay_link, hcount]
  · rw [State.announce_link, State.noteMay_link, hothers j hj]
  · rw [State.announce_rb _ _ _ (by decide), State.noteMay_rb, hevent]
  · rw [State.announce_ports, State.noteMay_ports, hports]
  · rw [State.announce_reg _ _ (show blockOf (.rl i q) ≠ .guard from nofun), State.noteMay_reg, hregs]

theorem State.insertLinks_frame (s : State) : Only [.fab, .links] s s.insertLinks :=
  State.insertLinks_only (Only.refl s) (by decide) (by decide)

/-- The drivers of the switches follow (R376). -/
theorem Falls.inserted (h : Falls s t k st) : Falls s t.insertLinks k st := by
  have hsame := t.insertLinks_standing
  obtain ⟨hstate, hkey, hcount, hothers, hevent, hports, hregs⟩ := h
  refine ⟨(hsame.state k).trans hstate, (hsame.key k).trans hkey, (hsame.helloCount k).trans hcount, fun j hj => (hsame j).trans (hothers j hj), ?_,
    (t.insertLinks_frame.2 .ports (by decide)).trans hports, fun i q => (t.insertLinks_frame.2 (.regs .link) (by decide) (.rl i q) rfl).trans (hregs i q)⟩
  have hreg : t.insertLinks.reg (.fab .evt) = t.reg (.fab .evt) := t.insertLinks_frame.2 (.regs .fab) (by decide) (.fab .evt) rfl
  rw [State.rb, hreg]
  exact hevent

theorem State.dropLinkKey_key (s : State) (k : LinkId) : ((s.dropLinkKey k).link k).key = none := by
  unfold State.dropLinkKey
  split
  next h => rw [State.link_setLink_same]
  next h => rw [State.link_setLink_same, h]

theorem State.dropLinkKey_link_other (s : State) (hj : j ≠ k) : (s.dropLinkKey k).link j = s.link j := by
  unfold State.dropLinkKey
  split <;> exact State.link_setLink_other _ _ _ _ hj

theorem State.linkDown_frame (s : State) (k : LinkId) (st : LState) : Only linkParts s (s.linkDown k st) := by
  apply State.linkDown_only (Only.refl s) <;> decide

theorem State.linkDown_falls (s : State) (k : LinkId) (st : LState) : Falls s (s.linkDown k st) k st := by
  suffices h : ((s.linkDown k st).link k).state = st ∧ ((s.linkDown k st).link k).key = none ∧ ((s.linkDown k st).link k).helloCount = 0 ∧
      (∀ j, j ≠ k → ((s.linkDown k st).link j).standing = (s.link j).standing) ∧ (s.linkDown k st).rb (.fab .evt) 1 = true by
    obtain ⟨hstate, hkey, hcount, hothers, hevent⟩ := h
    exact ⟨hstate, hkey, hcount, hothers, hevent, (s.linkDown_frame k st).2 .ports (by decide),
      fun i q => (s.linkDown_frame k st).2 (.regs .link) (by decide) (.rl i q) rfl⟩
  unfold State.linkDown
  extract_lets up s1 s2 l s3 s4 s5 s6
  have h4 : SameStanding s3 s4 := .ite (.of_links rfl) (.refl s3)
  have h5 : SameStanding s4 s5 := s4.wrapQueue_standing k up
  have h6 : SameStanding s5 s6 := .ite ((SameStanding.of_links s5.topologyChanged_links).trans (State.newTopo_standing _)) s5.newTopo_standing
  have hrest : SameStanding s3 (s6.fabEvt 1) := ((h4.trans h5).trans h6).trans (.of_links rfl)
  have hlink : s3.link k = _ := State.link_setLink_same _ _ _
  refine ⟨(hrest.state k).trans ?_, (hrest.key k).trans ?_, (hrest.helloCount k).trans ?_, fun j hj => (hrest j).trans ?_, ?_⟩
  · rw [hlink]
  · rw [hlink]
    exact s1.dropLinkKey_key k
  · rw [hlink]
  · have h3 : s3.link j = s2.link j := State.link_setLink_other _ _ _ _ hj
    rw [h3, s1.dropLinkKey_link_other hj]
    exact s.endWire_standing k true j
  · rw [State.rb, State.fabEvt, State.reg_raise_same]
    exact bit_setBit_self _ (by decide)

theorem rlFault_does {cause : RlFaultCause} (hstate : (s.link k).state ≠ .down) :
    Does (.rlFault k cause) s fun t => (t.link k).state = .aligning ∧ (t.link k).key = none ∧ (t.link k).helloCount = 0 ∧ t.rb (.fab .evt) 1 = true ∧
      (∀ j, j ≠ k → (t.link j).state = (s.link j).state) ∧ t.ports = s.ports := by
  obtain ⟨x, he⟩ : ∃ x, exec (.rlFault k cause) s = finish ((s.setLink k x).linkDown k .aligning) := by
    change ∃ x, execRlFault k cause s = _
    unfold execRlFault
    rw [if_neg hstate]
    exact ⟨_, rfl⟩
  have h := ((s.setLink k x).linkDown_falls k .aligning).ended
  exact .of_finish he ⟨h.state, h.key, h.helloCount, h.event,
    fun j hj => (h.other hj).trans (congrArg Link.state (State.link_setLink_other _ _ _ _ hj)), h.ports⟩

theorem helloTimeout_does (hstate : (s.link k).state ≠ .down) :
    Does (.helloTimeout k) s fun t => (t.link k).state = .aligning ∧ (t.link k).key = none ∧ t.rb (.fab .evt) 1 = true ∧
      (∀ j, j ≠ k → (t.link j).state = (s.link j).state) ∧ t.ports = (s.waitFrom (s.link k).heardAt (ms 30)).ports := by
  have he : exec (.helloTimeout k) s = finish ((s.waitFrom (s.link k).heardAt (ms 30)).linkDown k .aligning) := if_neg hstate
  have h := ((s.waitFrom (s.link k).heardAt (ms 30)).linkDown_falls k .aligning).ended
  exact .of_finish he ⟨h.state, h.key, h.event, fun j hj => (h.other hj).trans (congrArg Link.state (s.advance_link _ j)), h.ports⟩

/-! ### A link is enabled and disabled (R353) -/

theorem State.writeFields_eq (s : State) (d : Dom) (r : Reg) (mask v : DWord) (skip : Field → Bool) :
    ∃ g, s.writeFields d r mask v skip = { s.setReg r (s.fieldWrite d r mask v skip).1 with log := g } := State.refuseIf_eq _ _ _ _ _ _

theorem bit_putFld_one (w : DWord) (i v : Nat) (hi : i < 64) : bit (putFld w i 1 v) i = v.testBit 0 := by
  rw [bit, getLsbD_putFld _ _ _ _ _ hi, if_pos ⟨Nat.le_refl i, Nat.lt_succ_self i⟩, Nat.sub_self]

/-- RLk_CFG with its fields written and ENABLE as it is to be. -/
def State.rlCfgSet (s : State) (d : Dom) (k : LinkId) (v : Word) (en : Nat) : State :=
  (s.writeFields d (.rl k .cfg) mask32 (v.setWidth 64) (fun f => f.lo == 0)).setRf (.rl k .cfg) 0 1 en

section cfg
variable (s : State) (d : Dom) (k : LinkId) (v : Word) (en : Nat)

theorem State.rlCfgSet_links : (s.rlCfgSet d k v en).links = s.links := by
  obtain ⟨g, hg⟩ := s.writeFields_eq d (.rl k .cfg) mask32 (v.setWidth 64) (fun f => f.lo == 0)
  rw [State.rlCfgSet, hg]
  rfl

theorem State.rlCfgSet_ports : (s.rlCfgSet d k v en).ports = s.ports := by
  obtain ⟨g, hg⟩ := s.writeFields_eq d (.rl k .cfg) mask32 (v.setWidth 64) (fun f => f.lo == 0)
  rw [State.rlCfgSet, hg]
  rfl

theorem State.rlCfgSet_enable : (s.rlCfgSet d k v en).rb (.rl k .cfg) 0 = en.testBit 0 := by
  rw [State.rb, State.rlCfgSet, State.setRf, State.reg_setReg_same, bit_putFld_one _ _ _ (by decide)]

theorem State.rlCfgSet_reg {r : Reg} (hr : r ≠ .rl k .cfg) : (s.rlCfgSet d k v en).reg r = s.reg r := by
  obtain ⟨g, hg⟩ := s.writeFields_eq d (.rl k .cfg) mask32 (v.setWidth 64) (fun f => f.lo == 0)
  rw [State.rlCfgSet, hg, State.setRf, State.reg_setReg_other _ _ _ _ hr]
  exact State.reg_setReg_other _ _ _ _ hr

end cfg

/-- A link that is enabled starts to align (R353). -/
def Link.enabled (l : Link) (raw : DWord) : Link := { l with state := .aligning, fresh := true, heardAt := raw }

theorem exec_rlEnable_on {d : Dom} {v : Word} (hw : Writes s d 0) (hv : v.getLsbD 0 = true) (hoff : s.rb (.rl k .cfg) 0 = false) :
    exec (.rlEnable d k v) s =
      finish ((s.rlCfgSet d k v 1).setLink k (((s.rlCfgSet d k v 1).link k).enabled (s.rlCfgSet d k v 1).raw)).insertLinks := by
  change execRlEnable d k v s = _
  unfold execRlEnable
  rw [hw.ownedWrite]
  unfold State.writeRlCfg
  dsimp only
  rw [if_pos (by rw [hv, hoff]; rfl)]
  rfl

theorem exec_rlEnable_off {d : Dom} {v : Word} (hw : Writes s d 0) (hv : v.getLsbD 0 = false) (hon : s.rb (.rl k .cfg) 0 = true) :
    exec (.rlEnable d k v) s = finish ((s.rlCfgSet d k v 0).linkDown k .down).insertLinks := by
  change execRlEnable d k v s = _
  unfold execRlEnable
  rw [hw.ownedWrite]
  unfold State.writeRlCfg
  dsimp only
  rw [if_neg (by rw [hv, Bool.false_and]; nofun), if_pos (by rw [hv, hon]; rfl)]
  rfl

theorem rlEnable_aligns {d : Dom} {v : Word} (hw : Writes s d 0) (hv : v.getLsbD 0 = true) (hoff : s.rb (.rl k .cfg) 0 = false) :
    Does (.rlEnable d k v) s fun t => (t.link k).state = .aligning ∧ t.rb (.rl k .cfg) 0 = true ∧ (∀ j, j ≠ k → (t.link j).state = (s.link j).state) ∧
      t.ports = s.ports ∧ OtherRegs s t [.rl k .cfg] := by
  refine .of_finish (exec_rlEnable_on hw hv hoff) ?_
  generalize hx : ((s.rlCfgSet d k v 1).link k).enabled (s.rlCfgSet d k v 1).raw = x
  have hsame := ((s.rlCfgSet d k v 1).setLink k x).insertLinks_standing
  have hframe := ((s.rlCfgSet d k v 1).setLink k x).insertLinks_frame
  have hreg : ∀ r, ((s.rlCfgSet d k v 1).setLink k x).insertLinks.reg r = (s.rlCfgSet d k v 1).reg r := fun r =>
    hframe.2 (.regs (blockOf r)) (by simp) r rfl
  refine ⟨?_, ?_, fun j hj => ?_, ?_, ?_⟩
  · rw [State.announce_link, State.noteMay_link, hsame.state, State.link_setLink_same, ← hx]
    rfl
  · rw [State.announce_rb _ _ _ (show blockOf (.rl k .cfg) ≠ .guard from nofun), State.noteMay_rb, State.rb, hreg]
    exact s.rlCfgSet_enable d k v 1
  · rw [State.announce_link, State.noteMay_link, hsame.state, State.link_setLink_other _ _ _ _ hj, link_of_links (s.rlCfgSet_links d k v 1)]
  · rw [State.announce_ports, State.noteMay_ports]
    exact (hframe.2 .ports (by decide)).trans (s.rlCfgSet_ports d k v 1)
  · exact OtherRegs.of_reg fun q hq => (hreg q).trans (s.rlCfgSet_reg d k v 1 hq)

theorem rlEnable_ends {d : Dom} {v : Word} (hw : Writes s d 0) (hv : v.getLsbD 0 = false) (hon : s.rb (.rl k .cfg) 0 = true) :
    Does (.rlEnable d k v) s fun t => (t.link k).state = .down ∧ (t.link k).key = none ∧ t.rb (.rl k .cfg) 0 = false ∧ t.rb (.fab .evt) 1 = true ∧
      (∀ j, j ≠ k → (t.link j).state = (s.link j).state) ∧ t.ports = s.ports := by
  have h := ((s.rlCfgSet d k v 0).linkDown_falls k .down).inserted.ended
  refine .of_finish (exec_rlEnable_off hw hv hon) ⟨h.state, h.key, ?_, h.event,
    fun j hj => (h.other hj).trans (congrArg Link.state (link_of_links (s.rlCfgSet_links d k v 0) j)), h.ports.trans (s.rlCfgSet_ports d k v 0)⟩
  rw [State.rb, h.regs]
  exact s.rlCfgSet_enable d k v 0

end falls

/-! ### A link aligns and agrees on a key (R350, R353, R383, R384) -/

section keying
variable {s t u : State} {j k : LinkId} {a : RlArrival}

theorem State.sendLocal_eq (s : State) (k : LinkId) (x : Link) (kind : BitVec 3) (cls : BitVec 2) (q : Half) (ttl : Byte) (p : List Byte) :
    (s.setLink k x).sendLocal k kind cls q ttl p = s.setLink k { x with queue := x.queue ++ [(none, s.ownFrame 0 kind cls q ttl p)] } := by
  unfold State.sendLocal State.pushLink
  rw [State.setLink_setLink, State.link_setLink_same]
  rfl

/-- The KEYX that is sent now (R383). -/
def State.keyxFrame (s : State) : RlFrame :=
  s.ownFrame 0 kMgmt cUrgent 0 s.fabTtl (s.keyxBody s.free ++ beBytes 96 (Config.dikSign (s.keyxBody s.free)).toNat)

/-- A link on which the KEYX f of a draw and body has been put. -/
def Link.keyxPut (l : Link) (draw : Nat) (body : List Byte) (raw : DWord) (f : RlFrame) : Link :=
  { l with keyxSent := some (draw, body), keyxAt := raw, queue := l.queue ++ [(none, f)] }

theorem State.sendKeyx_eq (s : State) (k : LinkId) :
    s.sendKeyx k = s.draw.draw.setLink k ((s.link k).keyxPut s.free (s.keyxBody s.free) s.raw s.keyxFrame) :=
  s.draw.draw.sendLocal_eq k { s.link k with keyxSent := some (s.free, s.keyxBody s.free), keyxAt := s.raw } kMgmt cUrgent 0 s.fabTtl _

theorem State.enterKeying_eq (s : State) (k : LinkId) :
    s.enterKeying k = s.draw.draw.setLink k
      ({ s.link k with state := .keying, helloCount := 0 }.keyxPut s.free (s.keyxBody s.free) s.raw s.keyxFrame) := by
  unfold State.enterKeying
  rw [State.sendKeyx_eq, State.link_setLink_same]
  exact State.setLink_setLink s.draw.draw k _ _

theorem State.enterKeying_link (s : State) (k : LinkId) : (s.enterKeying k).link k =
    { s.link k with state := .keying, helloCount := 0 }.keyxPut s.free (s.keyxBody s.free) s.raw s.keyxFrame := by
  rw [State.enterKeying_eq, State.link_setLink_same]

theorem State.enterKeying_link_other (s : State) (hj : j ≠ k) : (s.enterKeying k).link j = s.link j := by
  rw [State.enterKeying_eq, State.link_setLink_other _ _ _ _ hj]
  rfl

theorem State.enterKeying_frame (s : State) (k : LinkId) : Only [.free, .links] s (s.enterKeying k) :=
  State.enterKeying_only (Only.refl s) (by decide) (by decide)

theorem keyxTimer_does (hstate : (s.link k).state = .keying) (hu : u = s.waitFrom (s.link k).keyxAt (ms 100)) :
    Does (.keyxTimer k) s fun t => (t.link k).keyxSent = some (u.free, u.keyxBody u.free) ∧ (t.link k).state = .keying ∧ SameRegs u t ∧
      ∃ f, (t.link k).queue = (s.link k).queue ++ [(none, f)] ∧ f.kind = kMgmt ∧
        f.payload = u.keyxBody u.free ++ beBytes 96 (Config.dikSign (u.keyxBody u.free)).toNat := by
  have hlink : u.link k = s.link k := by rw [hu]; exact s.advance_link _ k
  have he : exec (.keyxTimer k) s = finish (u.sendKeyx k) := by rw [hu]; exact if_pos hstate
  rw [State.sendKeyx_eq, hlink] at he
  obtain ⟨hsame, -⟩ := u.draw.draw.setLink_ended k ((s.link k).keyxPut u.free (u.keyxBody u.free) u.raw u.keyxFrame)
  refine .of_finish he ⟨?_, ?_, SameRegs.of_regs rfl, u.keyxFrame, ?_, rfl, rfl⟩
  · rw [hsame, Link.keyxPut]
  · rw [hsame]
    exact hstate
  · rw [hsame, Link.keyxPut]

/-- A link that has aligned: the counts of credits start at 0, with the whole buffers returned (R350, R353). -/
def Link.aligned (l : Link) (raw : DWord) : Link :=
  { l with
    state := .hello, fresh := false, los := false, rf := false, helloCount := 0, heardAt := raw, granted := Vector.replicate 3 0,
    usedCr := Vector.replicate 3 0, returned := #v[bufCredits 0, bufCredits 1, bufCredits 2] }

/-- Link k has aligned, and the first reports have left. -/
def State.alignedAt (s : State) (k : LinkId) : State :=
  (List.finRange 3).foldl (fun y c => y.reportCredit k c) (s.setLink k ((s.link k).aligned s.raw))

theorem exec_rlAligned (hstate : (s.link k).state = .aligning) (htravel : (s.link k).travel = false) (href : s.tmu.reflock = true) :
    exec (.rlAligned k) s = finish (if (s.alignedAt k).rb (.rl k .cfg) 1 then (s.alignedAt k).enterKeying k else s.alignedAt k) := by
  change execRlAligned k s = _
  unfold execRlAligned
  dsimp only
  rw [if_neg (by simp [hstate, htravel, href])]
  rfl

theorem State.alignedAt_eq (s : State) (k : LinkId) : ∃ o, s.alignedAt k = { s.setLink k ((s.link k).aligned s.raw) with out := o } :=
  ⟨_, State.reportCredits_eq _ _ _⟩

theorem State.alignedAt_link (s : State) (k : LinkId) : (s.alignedAt k).link k = (s.link k).aligned s.raw := by
  obtain ⟨o, ho⟩ := s.alignedAt_eq k
  rw [ho]
  exact State.link_setLink_same _ _ _

theorem State.alignedAt_link_other (s : State) (hj : j ≠ k) : (s.alignedAt k).link j = s.link j := by
  obtain ⟨o, ho⟩ := s.alignedAt_eq k
  rw [ho]
  exact State.link_setLink_other _ _ _ _ hj

theorem State.alignedAt_reg (s : State) (k : LinkId) (r : Reg) : (s.alignedAt k).reg r = s.reg r := by
  obtain ⟨o, ho⟩ := s.alignedAt_eq k
  rw [ho]
  rfl

theorem aligned_returned (l : Link) (raw : DWord) (c : Fin 3) : (l.aligned raw).returned[c] = bufCredits c.val := by
  match c with
  | 0 | 1 | 2 => rfl

theorem State.alignedAt_sends (s : State) (k : LinkId) (c : Fin 3) :
    Sends s (s.alignedAt k) (.credit k (BitVec.ofNat 2 c.val) (BitVec.ofNat 12 (bufCredits c.val))) := by
  have h := (s.setLink k ((s.link k).aligned s.raw)).reportCredits_sends k c
  rw [State.creditOutput, State.link_setLink_same, aligned_returned] at h
  exact h

theorem rlAligned_greets (hstate : (s.link k).state = .aligning) (htravel : (s.link k).travel = false) (href : s.tmu.reflock = true)
    (hclear : s.rb (.rl k .cfg) 1 = false) :
    Does (.rlAligned k) s fun t => (t.link k).state = .hello ∧ (t.link k).helloCount = 0 ∧ (∀ c : Fin 3, (t.link k).granted[c] = 0 ∧ (t.link k).usedCr[c] = 0) ∧
      (∀ c : Fin 3, Sends s t (.credit k (BitVec.ofNat 2 c.val) (BitVec.ofNat 12 (bufCredits c.val)))) ∧ (∀ j, j ≠ k → t.link j = s.link j) ∧ SameRegs s t := by
  have he := exec_rlAligned hstate htravel href
  rw [if_neg (by rw [State.rb, State.alignedAt_reg]; exact ne_true_of_eq_false hclear)] at he
  have hlink : (s.alignedAt k).noteMay.announce.link k = (s.link k).aligned s.raw := by
    rw [State.announce_link, State.noteMay_link, State.alignedAt_link]
  refine .of_finish he ⟨?_, ?_, fun c => ?_, fun c => (s.alignedAt_sends k c).ended, fun j hj => ?_, SameRegs.of_reg (s.alignedAt_reg k)⟩
  · rw [hlink, Link.aligned]
  · rw [hlink, Link.aligned]
  · simp [hlink, Link.aligned]
  · rw [State.announce_link, State.noteMay_link, State.alignedAt_link_other _ hj]

theorem rlAligned_keys (hstate : (s.link k).state = .aligning) (htravel : (s.link k).travel = false) (href : s.tmu.reflock = true)
    (henc : s.rb (.rl k .cfg) 1 = true) :
    Does (.rlAligned k) s fun t => (t.link k).state = .keying ∧ (t.link k).keyxSent = some (s.free, s.keyxBody s.free) ∧
      (∀ j, j ≠ k → t.link j = s.link j) := by
  have he := exec_rlAligned hstate htravel href
  rw [if_pos (by rw [State.rb, State.alignedAt_reg]; exact henc)] at he
  have hfree : (s.alignedAt k).free = s.free ∧ (s.alignedAt k).belay = s.belay := by
    obtain ⟨o, ho⟩ := s.alignedAt_eq k
    rw [ho]
    exact ⟨rfl, rfl⟩
  have hbody : (s.alignedAt k).keyxBody s.free = s.keyxBody s.free := by
    unfold State.keyxBody State.serial State.ownerHash
    rw [hfree.2]
  refine .of_finish he ⟨?_, ?_, fun j hj => ?_⟩
  · rw [State.announce_link, State.noteMay_link, State.enterKeying_link, Link.keyxPut]
  · rw [State.announce_link, State.noteMay_link, State.enterKeying_link, Link.keyxPut, hfree.1, hbody]
  · rw [State.announce_link, State.noteMay_link, State.enterKeying_link_other _ hj, State.alignedAt_link_other _ hj]

theorem rlAligned_waits (href : s.tmu.reflock = false) : Does (.rlAligned k) s fun t => t = s := by
  refine .of_next (t := s) ?_ rfl
  change execRlAligned k s = _
  unfold execRlAligned
  rw [if_pos (by simp [href])]

/-! An answer to the KEYX sent -/

theorem State.freeHandle_congr (h : u.belay = s.belay) (d : Dom) : u.freeHandle d = s.freeHandle d := by
  unfold State.freeHandle State.entry State.key
  rw [h]

theorem State.keyxOk_congr (h : u.belay = s.belay) (p : List Byte) : u.keyxOk p = s.keyxOk p := by
  unfold State.keyxOk State.ownerHash
  rw [h]

theorem State.linkKey_congr (h : u.belay = s.belay) (draw : Nat) (mine p : List Byte) : u.linkKey draw mine p = s.linkKey draw mine p := by
  unfold State.linkKey State.serial
  rw [h]

/-- A frame has been taken from link k and has left its receive buffer. -/
def State.rlRead (s : State) (k : LinkId) (a : RlArrival) : State := (s.rlTaken k a).rlDone k a.frame

theorem State.rlRead_frame (s : State) (k : LinkId) (a : RlArrival) : Only [.links, .counts, .halves, .out] s (s.rlRead k a) :=
  State.rlDone_only ((s.rlTaken_only k a).mono (by simp)) (by decide) (by decide)

theorem State.rlRead_standing (s : State) (k : LinkId) (a : RlArrival) : SameStanding s (s.rlRead k a) :=
  (s.rlTaken_standing k a).trans (State.rlDone_standing _ _ _)

theorem State.rlRead_link_other (s : State) (a : RlArrival) (hj : j ≠ k) : (s.rlRead k a).link j = s.link j :=
  (State.link_setLink_other _ _ _ _ hj).trans (State.rlTaken_link_other hj)

theorem State.rlRead_belay (s : State) (k : LinkId) (a : RlArrival) : (s.rlRead k a).belay = s.belay :=
  (s.rlRead_frame k a).belay_eq (by decide) (by decide) (by decide) (by decide)

theorem State.rlRead_reg (s : State) (k : LinkId) (a : RlArrival) (r : Reg) : (s.rlRead k a).reg r = s.reg r :=
  (s.rlRead_frame k a).2 (.regs (blockOf r)) (by simp) r rfl

theorem SameStanding.keyxSent (h : SameStanding s t) (j : LinkId) : (t.link j).keyxSent = (s.link j).keyxSent :=
  show (t.link j).standing.keyxSent = (s.link j).standing.keyxSent from congrArg _ (h j)

section answer
variable {draw h : Nat} {mine p : List Byte}

/-- The slot that an agreement gives a link (R384). -/
def State.agreedSlot (s : State) (draw : Nat) (mine p : List Byte) : KeySlot := { dom := 0, sealing := false, key := s.linkKey draw mine p }

theorem State.keyxOp_agrees (hsent : (s.link k).keyxSent = some (draw, mine)) (hfree : s.freeHandle 0 = some h) (hok : s.keyxOk p = true) :
    ∃ x, s.keyxOp k p = (s.setKey h (some (s.agreedSlot draw mine p))).setLink k x ∧ x.state = .hello ∧ x.encOn = true ∧ x.key = some h := by
  unfold State.keyxOp
  simp only [hsent, hfree, hok, if_true]
  exact ⟨_, rfl, rfl, rfl, rfl⟩

theorem State.keyxOp_fails (hok : s.keyxOk p = false) : s.keyxOp k p = s.fabEvt 5 := by
  unfold State.keyxOp
  simp only [hok]
  split <;> rfl

theorem keyx_does (hstate : (s.link k).state = .keying) (hkind : a.frame.kind = kMgmt) (hop : a.frame.payload.headD 0 = 0x10) (htakes : RlTakes s k a)
    (hsent : (s.link k).keyxSent = some (draw, mine)) (hfree : s.freeHandle 0 = some h) (htab : TablesOk s) :
    Does (.keyx k a) s fun t =>
      if s.keyxOk a.frame.payload then (t.link k).state = .hello ∧ (t.link k).encOn = true ∧ (t.link k).key = some h ∧
        t.key h = some { dom := 0, sealing := false, key := s.linkKey draw mine a.frame.payload } ∧ ∀ i, i ≠ h → t.key i = s.key i
      else t.rb (.fab .evt) 5 = true ∧ (t.link k).state = .keying ∧ t.belay = s.belay := by
  have hstanding := s.rlRead_standing k a
  have hbelay := s.rlRead_belay k a
  have he : exec (.keyx k a) s = finish ((s.rlRead k a).keyxOp k a.frame.payload) := by
    change execKeyx k a s = _
    unfold execKeyx
    dsimp only
    rw [if_neg (fun h => h.elim (fun h => h hkind) (fun h => h hop)), htakes.rlTake, if_neg (by rw [(s.rlTaken_standing k a).state, hstate]; simp)]
    rfl
  refine .of_finish he ?_
  split
  next hok =>
    obtain ⟨x, hx, hstate', henc, hkey⟩ := State.keyxOp_agrees ((hstanding.keyxSent k).trans hsent) ((State.freeHandle_congr hbelay 0).trans hfree)
      ((State.keyxOk_congr hbelay _).trans hok)
    rw [hx, State.agreedSlot, State.linkKey_congr hbelay]
    simp only [State.announce_link, State.noteMay_link, State.link_setLink_same, State.announce_key, State.noteMay_key]
    refine ⟨hstate', henc, hkey, State.key_setKey_same _ _ _ (by rw [hbelay]; exact htab.keys), fun i hi => ?_⟩
    refine (State.key_setKey_other _ _ _ _ hi).trans ?_
    rw [State.key, hbelay, State.key]
  next hok =>
    rw [State.keyxOp_fails ((State.keyxOk_congr hbelay _).trans (eq_false_of_ne_true hok))]
    refine ⟨?_, ?_, ?_⟩
    · rw [State.announce_rb _ _ _ (by decide), State.noteMay_rb, State.rb, State.fabEvt, State.reg_raise_same]
      exact bit_setBit_self _ (by decide)
    · rw [State.announce_link, State.noteMay_link]
      exact (hstanding.state k).trans hstate
    · rw [State.announce_belay, State.noteMay_belay]
      exact hbelay

end answer

end keying

/-! ### HELLOs (R352, R353) -/

section hello
variable {s t u : State} {j k : LinkId} {a : RlArrival} {n : Neighbour}

theorem helloTimer_does (hreceives : rlReceives (s.link k) = true) (hu : u = s.waitFrom (s.link k).helloAt (ms 9)) :
    Does (.helloTimer k) s fun t => (t.link k).helloSeq = (s.link k).helloSeq + 1 ∧ (t.link k).helloAt = u.raw ∧
      (∃ f, (t.link k).queue = (s.link k).queue ++ [(none, f)] ∧ f.kind = kHello ∧
        f.ttl = 1 ∧ f.seqNo = (s.link k).helloSeq + 1 ∧ f.payload = u.helloPayload k) ∧ (∀ j, j ≠ k → t.link j = s.link j) ∧ SameRegs u t := by
  have hlink : ∀ i, u.link i = s.link i := fun i => by rw [hu]; exact s.advance_link _ i
  have he : exec (.helloTimer k) s = finish ((u.setLink k { u.link k with helloSeq := (s.link k).helloSeq + 1, helloAt := u.raw }).sendLocal k kHello cUrgent
      ((s.link k).helloSeq + 1) 1 (u.helloPayload k)) := by
    rw [hu]
    exact if_neg (by simp [hreceives])
  rw [State.sendLocal_eq, hlink] at he
  obtain ⟨hsame, hother⟩ := u.setLink_ended k
    { s.link k with helloSeq := (s.link k).helloSeq + 1, helloAt := u.raw
                    queue := (s.link k).queue ++ [(none, u.ownFrame 0 kHello cUrgent ((s.link k).helloSeq + 1) 1 (u.helloPayload k))] }
  exact .of_finish he ⟨by rw [hsame], by rw [hsame], ⟨_, by rw [hsame], rfl, rfl, rfl, rfl⟩, fun j hj => (hother j hj).trans (hlink j), u.setLink_sameRegs k _⟩

/-- A link on which another HELLO of its neighbour n has been heard. -/
def Link.heard (l : Link) (n : Neighbour) (raw : DWord) : Link := { l with nbr := n, helloCount := min 3 (l.helloCount + 1), heardAt := raw }

/-- A HELLO on a link in HELLO that does not break the row of one SERIAL (R353, R383). -/
theorem State.helloOp_hello (hstate : (s.link k).state = .hello) (hrow : ¬(0 < (s.link k).helloCount ∧ (s.link k).nbr.serial ≠ n.serial)) :
    s.helloOp k n = if n.encReq && !(s.link k).encOn then (s.setLink k ((s.link k).heard n s.raw)).enterKeying k
      else if min 3 ((s.link k).helloCount + 1) = 3 then (s.setLink k ((s.link k).heard n s.raw)).linkEntersUp k
      else s.setLink k ((s.link k).heard n s.raw) := by
  unfold State.helloOp
  dsimp only
  rw [if_neg hrow]
  split
  · rfl
  next h => exact absurd (hstate.symm.trans h) nofun
  next h _ => exact absurd hstate h

/-- The neighbour asks for a key that the link has not (R383). -/
theorem State.helloOp_asked (hstate : (s.link k).state = .hello) (hsame : (s.link k).helloCount = 0 ∨ (s.link k).nbr.serial = n.serial)
    (henc : (s.link k).encOn = false) (hasks : n.encReq = true) :
    s.helloOp k n = (s.setLink k ((s.link k).heard n s.raw)).enterKeying k := by
  rw [State.helloOp_hello hstate (fun h => hsame.elim (fun h0 => by omega) (fun h0 => h.2 h0)), if_pos (by rw [hasks, henc]; rfl)]

/-- The third HELLO in a row (R353). -/
theorem State.helloOp_third (hstate : (s.link k).state = .hello) (hcount : (s.link k).helloCount = 2) (hsame : (s.link k).nbr.serial = n.serial)
    (henc : n.encReq = false ∨ (s.link k).encOn = true) :
    s.helloOp k n = (s.setLink k ((s.link k).heard n s.raw)).linkEntersUp k := by
  rw [State.helloOp_hello hstate (fun h => h.2 hsame), if_neg (by rcases henc with h | h <;> simp [h]), if_pos (by rw [hcount]; rfl)]

theorem exec_hello (hkind : a.frame.kind = kHello) (htakes : RlTakes s k a) :
    exec (.hello k a) s = finish ((s.rlRead k a).helloOp k (neighbourOf a.frame.payload)) := by
  change execHello k a s = _
  unfold execHello
  dsimp only
  rw [if_neg (not_not.2 hkind), htakes.rlTake]
  rfl

theorem hello_keys (hkind : a.frame.kind = kHello) (htakes : RlTakes s k a) (hstate : (s.link k).state = .hello) (henc : (s.link k).encOn = false)
    (hasks : (neighbourOf a.frame.payload).encReq = true)
    (hsame : (s.link k).helloCount = 0 ∨ (s.link k).nbr.serial = (neighbourOf a.frame.payload).serial) :
    Does (.hello k a) s fun t => (t.link k).state = .keying ∧ (t.link k).nbr = neighbourOf a.frame.payload ∧ (∀ j, j ≠ k → t.link j = s.link j) ∧
      t.ports = s.ports ∧ SameRegs s t := by
  have h := s.rlRead_standing k a
  have he := exec_hello hkind htakes
  rw [State.helloOp_asked ((h.state k).trans hstate) (by rw [h.helloCount, h.nbr]; exact hsame) ((h.encOn k).trans henc) hasks] at he
  generalize hy : (s.rlRead k a).setLink k (((s.rlRead k a).link k).heard (neighbourOf a.frame.payload) (s.rlRead k a).raw) = y at he
  have hyreg : ∀ r, y.reg r = s.reg r := fun r => by rw [← hy]; exact s.rlRead_reg k a r
  have hyports : y.ports = s.ports := by rw [← hy]; exact (s.rlRead_frame k a).2 .ports (by decide)
  refine .of_finish he ⟨?_, ?_, fun j hj => ?_, ?_, SameRegs.of_reg fun r => ?_⟩
  · rw [State.announce_link, State.noteMay_link, State.enterKeying_link, Link.keyxPut]
  · rw [State.announce_link, State.noteMay_link, State.enterKeying_link, Link.keyxPut, ← hy, State.link_setLink_same, Link.heard]
  · rw [State.announce_link, State.noteMay_link, State.enterKeying_link_other _ hj, ← hy, State.link_setLink_other _ _ _ _ hj,
      State.rlRead_link_other _ _ hj]
  · rw [State.announce_ports, State.noteMay_ports, (y.enterKeying_frame k).2 .ports (by decide), hyports]
  · rw [(y.enterKeying_frame k).2 (.regs (blockOf r)) (by simp) r rfl, hyreg]

theorem State.linkEntersUp_standing (s : State) (k : LinkId) :
    SameStanding (s.setLink k { s.link k with state := .up, wrapped := false }) (s.linkEntersUp k) :=
  ((SameStanding.of_links (State.topologyChanged_links _)).trans (State.newTopo_standing _)).trans (.of_links rfl)

theorem hello_raises (hkind : a.frame.kind = kHello) (htakes : RlTakes s k a) (hstate : (s.link k).state = .hello) (hcount : (s.link k).helloCount = 2)
    (hsame : (s.link k).nbr.serial = (neighbourOf a.frame.payload).serial) (henc : (neighbourOf a.frame.payload).encReq = false ∨ (s.link k).encOn = true) :
    Does (.hello k a) s fun t => (t.link k).state = .up ∧ (t.link k).wrapped = false ∧ (t.link k).nbr = neighbourOf a.frame.payload ∧
      t.rb (.fab .evt) 1 = true ∧ (∀ j, j ≠ k → (t.link j).state = (s.link j).state) ∧ t.ports = s.ports := by
  have h := s.rlRead_standing k a
  have he := exec_hello hkind htakes
  rw [State.helloOp_third ((h.state k).trans hstate) ((h.helloCount k).trans hcount) (by rw [h.nbr]; exact hsame) (by rw [h.encOn]; exact henc)] at he
  generalize hy : (s.rlRead k a).setLink k (((s.rlRead k a).link k).heard (neighbourOf a.frame.payload) (s.rlRead k a).raw) = y at he
  have hup := y.linkEntersUp_standing k
  refine .of_finish he ⟨?_, ?_, ?_, ?_, fun j hj => ?_, ?_⟩
  · rw [State.announce_link, State.noteMay_link, hup.state, State.link_setLink_same]
  · rw [State.announce_link, State.noteMay_link, hup.wrapped, State.link_setLink_same]
  · rw [State.announce_link, State.noteMay_link, hup.nbr, State.link_setLink_same, ← hy, State.link_setLink_same, Link.heard]
  · rw [State.announce_rb _ _ _ (by decide), State.noteMay_rb, State.rb, State.linkEntersUp, State.fabEvt, State.reg_raise_same]
    exact bit_setBit_self _ (by decide)
  · rw [State.announce_link, State.noteMay_link, hup.state, State.link_setLink_other _ _ _ _ hj, ← hy, State.link_setLink_other _ _ _ _ hj, h.state]
  · rw [State.announce_ports, State.noteMay_ports]
    have hframe : Only [.fab, .links, .out, .regs .fab, .regs .fn, .regs .tmu] y (y.linkEntersUp k) := by
      apply State.linkEntersUp_only (Only.refl y) <;> decide
    rw [hframe.2 .ports (by decide), ← hy]
    exact (s.rlRead_frame k a).2 .ports (by decide)

theorem colfTravelEnd_does (htravel : (s.link k).travel = true) (hu : u = s.waitFrom (s.link k).travelAt (ms s.colfTravel)) :
    Does (.colfTravelEnd k) s fun t => t.link k = { s.link k with travel := false } ∧ (∀ j, j ≠ k → t.link j = s.link j) ∧ SameRegs u t := by
  have hlink : ∀ i, u.link i = s.link i := fun i => by rw [hu]; exact s.advance_link _ i
  have he : exec (.colfTravelEnd k) s = finish (u.setLink k { u.link k with travel := false }) := by
    rw [hu]
    exact if_pos htravel
  rw [hlink] at he
  obtain ⟨hsame, hother⟩ := u.setLink_ended k { s.link k with travel := false }
  exact .of_finish he ⟨hsame, fun j hj => (hother j hj).trans (hlink j), u.setLink_sameRegs k _⟩

end hello

/-- Settles O46: a passage of a link is one write of it, followed where its topology changes by what keeps the standing of every link. -/
theorem ridgelineLinks : Obligations.RidgelineLinks := by
  unfold Obligations.RidgelineLinks
  refine ⟨fun _ _ _ _ hw hv hoff => rlEnable_aligns hw hv hoff, fun _ _ _ _ hw hv hon => rlEnable_ends hw hv hon,
    fun _ _ hstate htravel href hclear => rlAligned_greets hstate htravel href hclear, fun _ _ hstate htravel href henc => rlAligned_keys hstate htravel href henc,
    fun _ _ href => rlAligned_waits href, fun _ _ _ hstate => rlFault_does hstate, fun _ _ hstate => helloTimeout_does hstate,
    fun _ _ _ hreceives hu => helloTimer_does hreceives hu, ?_, ?_, ?_, fun _ _ _ hstate hu => keyxTimer_does hstate hu,
    fun _ _ _ htravel hu => colfTravelEnd_does htravel hu⟩
  · rintro s k a _ rfl hkind htakes hstate hcount hsame henc
    exact hello_raises hkind htakes hstate hcount hsame henc
  · rintro s k a _ rfl hkind htakes hstate henc hasks hsame
    exact hello_keys hkind htakes hstate henc hasks hsame
  · rintro s k a _ draw mine h rfl hstate hkind hop htakes hsent hfree htab
    exact keyx_does hstate hkind hop htakes hsent hfree htab

end Sys2Proof.Machine

namespace Sys2Proof.Machine

/-! ### Frames that are flooded (R347, R356) -/

section flood
variable {s t u : State} {j k : LinkId} {from_ : Option LinkId} {f : RlFrame}

theorem pushAll_queue (l : List LinkId) (hl : l.Nodup) (s : State) (from_ : Option LinkId) (f : RlFrame) (j : LinkId) :
    ((l.foldl (fun y i => y.pushLink i from_ f) s).link j).queue = if j ∈ l then (s.link j).queue ++ [(from_, f)] else (s.link j).queue := by
  induction l generalizing s with
  | nil => rfl
  | cons i l ih =>
    obtain ⟨hi, hrest⟩ := List.nodup_cons.1 hl
    rw [List.foldl_cons, ih hrest, State.pushLink]
    by_cases hj : j = i
    · subst hj
      rw [if_neg hi, if_pos List.mem_cons_self, State.link_setLink_same]
    · rw [State.link_setLink_other _ _ _ _ hj]
      simp [hj]

theorem linkIds_nodup : linkIds.Nodup := List.nodup_finRange 4

/-- The frame joins the queue of every link that is UP but that of its arrival. -/
theorem State.flood_queue (hup : s.linkUp j = true) (hj : some j ≠ from_) : ((s.flood from_ f).link j).queue = (s.link j).queue ++ [(from_, f)] := by
  have hmem : j ∈ linkIds.filter (fun i => s.linkUp i && decide (some i ≠ from_)) :=
    List.mem_filter.2 ⟨List.mem_finRange j, by rw [hup, decide_eq_true hj]; rfl⟩
  unfold State.flood
  dsimp only
  rw [if_neg (fun h => List.ne_nil_of_mem hmem (List.isEmpty_iff.1 h)), pushAll_queue _ (linkIds_nodup.filter _), if_pos hmem]

theorem State.rlDone_queue (s : State) (k : LinkId) (f : RlFrame) (j : LinkId) : ((s.rlDone k f).link j).queue = (s.link j).queue := by
  unfold State.rlDone State.returnCredit State.reportCredit
  dsimp only
  rw [State.link_emit]
  by_cases hj : j = k
  · rw [hj, State.link_setLink_same]
  · rw [State.link_setLink_other _ _ _ _ hj]

theorem State.dropFrom_queue (s : State) (from_ : Option LinkId) (f : RlFrame) (j : LinkId) : ((s.dropFrom from_ f).link j).queue = (s.link j).queue := by
  unfold State.dropFrom
  split
  · split
    · rfl
    · exact s.rlDone_queue _ _ _
  · rfl

/-- It does not go back on the link of its arrival. -/
theorem State.flood_queue_source (s : State) (k : LinkId) (f : RlFrame) : ((s.flood (some k) f).link k).queue = (s.link k).queue := by
  unfold State.flood
  dsimp only
  split
  · exact s.dropFrom_queue _ _ _
  · rw [pushAll_queue _ (linkIds_nodup.filter _), if_neg (by simp)]

theorem State.flood_frame (s : State) (from_ : Option LinkId) (f : RlFrame) : Only [.links, .out] s (s.flood from_ f) :=
  State.flood_only (Only.refl s) (by decide) (by decide)

theorem State.flood_fab (s : State) (from_ : Option LinkId) (f : RlFrame) : (s.flood from_ f).fab = s.fab := (s.flood_frame from_ f).2 .fab (by decide)

/-- A flooded frame that is new has its effect and goes on. -/
theorem State.flooded_new {serial : DWord} {mg : Bool} {eff : State → State} (h : s.seen serial f.seqNo mg = false) :
    s.flooded_ k f serial mg eff = (eff (s.remember serial f.seqNo mg)).flood (some k) { f with ttl := f.ttl - 1 } := by
  unfold State.flooded_
  rw [if_neg (ne_true_of_eq_false h)]

theorem State.flooded_seen {serial : DWord} {mg : Bool} {eff : State → State} (h : s.seen serial f.seqNo mg = true) :
    s.flooded_ k f serial mg eff = s.rlDone k f := if_pos h

end flood

/-! ### What the topology rests on, and what a change of it leaves (R356, R360, R377) -/

section topology
variable {s t u : State} {j k : LinkId}

theorem State.topology_congr (htopo : u.fab.topo = s.fab.topo) (h : SameStanding s u) : u.topology = s.topology := by
  unfold State.topology
  rw [htopo]
  simp only [h.linkUp, h.nbr]

theorem State.heldBelow_congr (htopo : u.fab.topo = s.fab.topo) (hbelay : u.belay = s.belay) (h : SameStanding s u) (a : Byte) :
    u.heldBelow a = s.heldBelow a := by
  unfold State.heldBelow State.serial
  rw [State.topology_congr htopo h, hbelay]

theorem State.chooseAddr_congr (hfab : u.fab.topo = s.fab.topo ∧ u.fab.given = s.fab.given ∧ u.fab.addr = s.fab.addr) (hbelay : u.belay = s.belay)
    (h : SameStanding s u) (serial : DWord) : u.chooseAddr serial = s.chooseAddr serial := by
  obtain ⟨htopo, hgiven, haddr⟩ := hfab
  unfold State.chooseAddr State.addrFree State.serial
  rw [State.topology_congr htopo h, hbelay, hgiven, haddr]

theorem State.nameSource_fab (s : State) : s.nameSource.fab = s.fab := by
  unfold State.nameSource
  split <;> rfl

/-- The fabric's part apart from the master of its time and the way to it. -/
def Fabric.apart (x : Fabric) : Fabric := { x with master := 0, masterSerial := none, isMaster := false, hops := 0, upstream := 0 }

/-- An election writes the master and the upstream only. -/
theorem State.fabricTime_apart (s : State) : s.fabricTime.fab.apart = s.fab.apart := by
  have hevt : ∀ (y : State) (c : Bool), (if c then y.fabEvt 2 else y).fab = y.fab := fun y c => by split <;> rfl
  unfold State.fabricTime
  split
  dsimp only
  rw [hevt, State.nameSource_fab]
  rfl

theorem State.fabricTime_topo (s : State) : s.fabricTime.fab.topo = s.fab.topo :=
  show s.fabricTime.fab.apart.topo = s.fab.apart.topo from congrArg _ s.fabricTime_apart

theorem State.fabricTime_addr (s : State) : s.fabricTime.fab.addr = s.fab.addr :=
  show s.fabricTime.fab.apart.addr = s.fab.apart.addr from congrArg _ s.fabricTime_apart

theorem State.fabricTime_gaveUp (s : State) : s.fabricTime.fab.gaveUp = s.fab.gaveUp :=
  show s.fabricTime.fab.apart.gaveUp = s.fab.apart.gaveUp from congrArg _ s.fabricTime_apart

theorem State.addrConflict_topo (s : State) : s.addrConflict.fab.topo = s.fab.topo := by
  unfold State.addrConflict
  dsimp only
  split <;> rfl

theorem State.fabTopo_fab (s : State) : s.fabTopo.fab = s.fab := by
  have h : Only [.regs .fab, .regs .fn] s s.fabTopo := State.fabTopo_only (Only.refl s) (by decide) (by decide)
  exact h.2 .fab (by decide)

theorem State.topologyChanged_topo (s : State) : s.topologyChanged.fab.topo = s.fab.topo :=
  calc s.topologyChanged.fab.topo = s.fabTopo.addrConflict.fab.topo := State.fabricTime_topo _
    _ = s.fabTopo.fab.topo := State.addrConflict_topo _
    _ = s.fab.topo := congrArg _ s.fabTopo_fab

theorem State.holdTopo_topo (s : State) (t : Topo) : (s.holdTopo t).fab.topo = t :: s.fab.topo.filter (fun x => x.serial != t.serial) := by
  unfold State.holdTopo
  dsimp only
  split
  · rfl
  · exact State.topologyChanged_topo _

theorem State.holdTopo_frame (s : State) (t : Topo) : Only [.fab, .regs .fab, .regs .fn, .regs .tmu] s (s.holdTopo t) := by
  apply State.holdTopo_only (Only.refl s) <;> decide

/-- A payload that is taken in anew is not also refreshed. -/
theorem refresh_filter (l : List Topo) (serial : DWord) (payload : List Byte) (now : DWord) :
    (l.map (fun t => if t.serial == serial && t.payload == payload then { t with at_ := now } else t)).filter (fun x => x.serial != serial) =
      l.filter (fun x => x.serial != serial) := by
  induction l with
  | nil => rfl
  | cons t l ih =>
    rw [List.map_cons]
    by_cases ht : t.serial = serial
    · rw [List.filter_cons_of_neg (by split <;> simp [ht]), List.filter_cons_of_neg (by simp [ht]), ih]
    · rw [if_neg (by simp [ht]), List.filter_cons_of_pos (by simp [ht]), List.filter_cons_of_pos (by simp [ht]), ih]

end topology

/-! ### TOPO (R355, R356) -/

section topo
variable {s t u : State} {j k : LinkId} {a : RlArrival}

/-- Link k has taken a TOPO, which refreshes the payload that it repeats. -/
def State.topoTaken (s : State) (k : LinkId) (a : RlArrival) : State :=
  (s.rlTaken k a).refreshTopo (s.floodSerial a.frame) (slice a.frame.payload 0 64)

/-- What a TOPO does that has not been seen, by its serial and payload (R356). -/
def State.topoOp (s : State) (serial : DWord) (f : RlFrame) (now : DWord) : State :=
  if serial = s.serial then s else s.holdTopo { serial := serial, gen := f.seqNo, payload := slice f.payload 0 64, at_ := now }

theorem exec_topo (hkind : a.frame.kind = kTopo) (htakes : RlTakes s k a) :
    exec (.topo k a) s = finish ((s.topoTaken k a).flooded_ k a.frame (s.floodSerial a.frame) false
      (fun y => y.topoOp (s.floodSerial a.frame) a.frame y.raw)) := by
  change execTopo k a s = _
  unfold execTopo
  dsimp only
  rw [if_neg (not_not.2 hkind), htakes.rlTake]
  rfl

theorem State.rlTaken_fab (s : State) (k : LinkId) (a : RlArrival) : (s.rlTaken k a).fab = s.fab := (s.rlTaken_only k a).2 .fab (by decide)

theorem State.rlTaken_raw (s : State) (k : LinkId) (a : RlArrival) : (s.rlTaken k a).raw = s.raw :=
  congrArg Tmu.raw ((s.rlTaken_only k a).2 .tmu (by decide))

theorem State.rlTaken_belay (s : State) (k : LinkId) (a : RlArrival) : (s.rlTaken k a).belay = s.belay :=
  (s.rlTaken_only k a).belay_eq (by decide) (by decide) (by decide) (by decide)

theorem State.rlTaken_queue (s : State) (k : LinkId) (a : RlArrival) (j : LinkId) : ((s.rlTaken k a).link j).queue = (s.link j).queue := by
  by_cases hj : j = k
  · obtain ⟨c, hc⟩ := s.rlTaken_link k a
    rw [hj, hc]
  · rw [State.rlTaken_link_other hj]

theorem State.topoTaken_fab (s : State) (k : LinkId) (a : RlArrival) : (s.topoTaken k a).fab = { s.fab with topo := s.fab.topo.map (fun t =>
    if t.serial == s.floodSerial a.frame && t.payload == slice a.frame.payload 0 64 then { t with at_ := s.raw } else t) } := by
  unfold State.topoTaken State.refreshTopo
  dsimp only
  rw [State.rlTaken_fab, State.rlTaken_raw]

theorem topo_new (hkind : a.frame.kind = kTopo) (htakes : RlTakes s k a) (hother : BitVec.ofNat 64 (ofBe (slice a.frame.payload 0 8)) ≠ s.serial)
    (hnew : s.seen (s.floodSerial a.frame) a.frame.seqNo false = false) :
    Does (.topo k a) s fun t =>
      t.fab.topo = { serial := BitVec.ofNat 64 (ofBe (slice a.frame.payload 0 8)), gen := a.frame.seqNo, payload := slice a.frame.payload 0 64, at_ := s.raw } ::
        s.fab.topo.filter (fun u => u.serial != BitVec.ofNat 64 (ofBe (slice a.frame.payload 0 8))) ∧
      (∀ j, j ≠ k → s.linkUp j = true → (t.link j).queue = (s.link j).queue ++ [(some k, { a.frame with ttl := a.frame.ttl - 1 })]) ∧
      (t.link k).queue = (s.link k).queue ∧ t.ports = s.ports := by
  have hserial : s.floodSerial a.frame = BitVec.ofNat 64 (ofBe (slice a.frame.payload 0 8)) := if_pos hkind
  have hfab := s.topoTaken_fab k a
  have hraw : (s.topoTaken k a).raw = s.raw := s.rlTaken_raw k a
  have hbelay : (s.topoTaken k a).belay = s.belay := s.rlTaken_belay k a
  have he := exec_topo hkind htakes
  rw [State.flooded_new (by rw [State.seen, hfab]; exact hnew)] at he
  generalize hy : (s.topoTaken k a).remember (s.floodSerial a.frame) a.frame.seqNo false = y at he
  have hyraw : y.raw = s.raw := by rw [← hy]; exact hraw
  have hyserial : y.serial = s.serial := by rw [State.serial, State.serial, ← hbelay, ← hy]; rfl
  have hop : y.topoOp (s.floodSerial a.frame) a.frame y.raw =
      y.holdTopo { serial := s.floodSerial a.frame, gen := a.frame.seqNo, payload := slice a.frame.payload 0 64, at_ := s.raw } := by
    rw [State.topoOp, if_neg (by rw [hyserial, hserial]; exact hother), hyraw]
  rw [hop] at he
  generalize hx : ({ serial := s.floodSerial a.frame, gen := a.frame.seqNo, payload := slice a.frame.payload 0 64, at_ := s.raw } : Topo) = x at he
  have hlinks : (y.holdTopo x).links = (s.rlTaken k a).links := ((y.holdTopo_frame x).2 .links (by decide)).trans (by rw [← hy]; rfl)
  have hqueue : ∀ i, ((y.holdTopo x).link i).queue = (s.link i).queue := fun i => by rw [link_of_links hlinks, s.rlTaken_queue]
  have hup : ∀ i, (y.holdTopo x).linkUp i = s.linkUp i := ((s.rlTaken_standing k a).trans (.of_links hlinks)).linkUp
  refine .of_finish he ⟨?_, fun i hi hiup => ?_, ?_, ?_⟩
  · rw [State.announce_fab, State.noteMay_fab, State.flood_fab, State.holdTopo_topo, ← hy, ← hx, ← hserial]
    refine congrArg _ ?_
    rw [State.remember, hfab]
    exact refresh_filter _ _ _ _
  · rw [State.announce_link, State.noteMay_link, State.flood_queue (by rw [hup, hiup]) (fun h => hi (Option.some.inj h)), hqueue]
  · rw [State.announce_link, State.noteMay_link, State.flood_queue_source, hqueue]
  · rw [State.announce_ports, State.noteMay_ports, (State.flood_frame _ _ _).2 .ports (by decide), (y.holdTopo_frame x).2 .ports (by decide), ← hy]
    exact (s.rlTaken_only k a).2 .ports (by decide)

theorem topo_repeated (hkind : a.frame.kind = kTopo) (htakes : RlTakes s k a) (hseen : s.seen (s.floodSerial a.frame) a.frame.seqNo false = true) :
    Does (.topo k a) s fun t => t.fab = { s.fab with topo := s.fab.topo.map (fun u =>
        if u.serial = s.floodSerial a.frame ∧ u.payload = slice a.frame.payload 0 64 then { u with at_ := s.raw } else u) } ∧
      (∀ j, (t.link j).queue = (s.link j).queue) ∧ SameRegs s t := by
  have hfab := s.topoTaken_fab k a
  have he := exec_topo hkind htakes
  rw [State.flooded_seen (by rw [State.seen, hfab]; exact hseen)] at he
  have hframe : Only [.fab, .links, .counts, .halves, .out] s ((s.topoTaken k a).rlDone k a.frame) := by
    have h : Only [.fab, .links, .counts, .halves, .out] s (s.topoTaken k a) :=
      State.refreshTopo_only ((s.rlTaken_only k a).mono (by simp)) (by decide)
    exact State.rlDone_only h (by decide) (by decide)
  refine .of_finish he ⟨?_, fun i => ?_, hframe.sameRegs (by simp)⟩
  · rw [State.announce_fab, State.noteMay_fab]
    refine Eq.trans (b := (s.topoTaken k a).fab) rfl (hfab.trans ?_)
    simp only [Bool.and_eq_true, beq_iff_eq]
  · rw [State.announce_link, State.noteMay_link, State.rlDone_queue]
    exact s.rlTaken_queue k a i

/-- What a device says of itself rests on its links, its registers and what it knows of itself (R355). -/
theorem State.topoPayload_congr (hlinks : u.links = s.links) (hregs : u.regs = s.regs) (hbelay : u.belay = s.belay)
    (hfab : u.fab.addr = s.fab.addr ∧ u.fab.boot = s.fab.boot ∧ u.fab.alloc = s.fab.alloc) : u.topoPayload = s.topoPayload := by
  obtain ⟨haddr, hboot, halloc⟩ := hfab
  have hrecord : ∀ i, u.linkRecord i = s.linkRecord i := fun i => by unfold State.linkRecord; rw [link_of_links hlinks]
  unfold State.topoPayload State.serial State.myPrio State.rf State.rb State.reg
  simp only [hregs, hbelay, haddr, hboot, halloc, hrecord]

/-- The instant of a TOPO of this device is noted. -/
def State.topoNoted (s : State) : State := { s with fab := { s.fab with topoAt := s.raw } }

/-- The TOPO of this device (R355). -/
def State.topoFrame (s : State) : RlFrame := s.ownFrame 0xFF kTopo cUrgent s.fab.gen s.fabTtl s.topoPayload

theorem State.sendTopo_eq (s : State) :
    s.sendTopo = (s.topoNoted.remember s.topoNoted.serial s.topoNoted.fab.gen false).flood none s.topoNoted.topoFrame := rfl

theorem topoTimer_does (hup : s.linkUp k = true) (hu : u = s.waitFrom s.fab.topoAt (sec 1)) :
    Does .topoTimer s fun t => (∃ f, (t.link k).queue = (s.link k).queue ++ [(none, f)] ∧ f.kind = kTopo ∧ f.seqNo = s.fab.gen ∧ f.payload = s.topoPayload) ∧
      t.fab.topo = s.fab.topo ∧ SameRegs u t := by
  have hlinks : u.links = s.links := by rw [hu]; exact s.advance_links _
  have hfab : u.fab = s.fab := by rw [hu]; exact (s.advance_frame _).2 .fab (by decide)
  have hbelay : u.belay = s.belay := by rw [hu]; exact s.advance_belay _
  have hregs : u.regs = s.regs := by rw [hu]; exact s.advance_regs _
  have he : exec .topoTimer s = finish u.sendTopo := by
    rw [hu]
    exact if_pos (List.any_eq_true.2 ⟨k, List.mem_finRange k, hup⟩)
  have hframe : Only [.fab, .links, .out] u u.sendTopo := State.sendTopo_only (Only.refl u) (by decide) (by decide) (by decide)
  have hupU : u.topoNoted.linkUp k = true := (SameStanding.linkUp (SameStanding.of_links hlinks) k).trans hup
  have hgen : u.topoNoted.fab.gen = s.fab.gen := show u.fab.gen = s.fab.gen by rw [hfab]
  have hpayload : u.topoNoted.topoPayload = s.topoPayload :=
    State.topoPayload_congr hlinks hregs hbelay
      (show u.fab.addr = s.fab.addr ∧ u.fab.boot = s.fab.boot ∧ u.fab.alloc = s.fab.alloc by rw [hfab]; exact ⟨rfl, rfl, rfl⟩)
  refine .of_finish he ⟨⟨u.topoNoted.topoFrame, ?_, rfl, hgen, hpayload⟩, ?_, hframe.sameRegs (by simp)⟩
  · rw [State.announce_link, State.noteMay_link, ← link_of_links hlinks k]
    exact State.flood_queue hupU nofun
  · rw [State.announce_fab, State.noteMay_fab, State.sendTopo_eq, State.flood_fab, ← hfab]
    rfl

theorem topoExpiry_does {serial : DWord} (hheld : s.fab.topo.any (fun u => u.serial == serial) = true) :
    Does (.topoExpiry serial) s fun t => t.fab.topo = s.fab.topo.filter (fun u => u.serial != serial) ∧ t.links = s.links := by
  obtain ⟨x, hx⟩ : ∃ x, s.fab.topo.find? (fun u => u.serial == serial) = some x := Option.isSome_iff_exists.1 (by rw [List.find?_isSome]; simpa using hheld)
  have hfab : (s.waitFrom x.at_ (ms 3500)).fab = s.fab := (s.advance_frame _).2 .fab (by decide)
  generalize hu : s.waitFrom x.at_ (ms 3500) = u at hfab
  have hlinks : u.links = s.links := by rw [← hu]; exact s.advance_links _
  obtain ⟨c, he⟩ : ∃ c : Prop, ∃ _ : Decidable c, exec (.topoExpiry serial) s =
      finish (if c then { u with fab := { u.fab with topo := u.fab.topo.filter (fun t => t.serial != serial) } }
        else State.topologyChanged { u with fab := { u.fab with topo := u.fab.topo.filter (fun t => t.serial != serial) } }) := by
    change ∃ c : Prop, ∃ _ : Decidable c, execTopoExpiry serial s = _
    unfold execTopoExpiry
    rw [hx]
    dsimp only
    rw [hu]
    exact ⟨_, _, rfl⟩
  obtain ⟨hc, he⟩ := he
  refine .of_finish he ⟨?_, ?_⟩
  · rw [State.announce_fab, State.noteMay_fab, ← hfab]
    split
    · rfl
    · exact State.topologyChanged_topo _
  · rw [State.announce_links, State.noteMay_links, ← hlinks]
    split
    · rfl
    · exact State.topologyChanged_links _

end topo

/-! ### Addresses (R358 to R360) -/

section addresses
variable {s t u : State} {j k : LinkId} {a : RlArrival}

/-- The frame that carries a MGMT payload of this device to every other (R356). -/
def State.mgmtFrame (s : State) (payload : List Byte) : RlFrame :=
  { s with fab := { s.fab with mgmtSeq := s.fab.mgmtSeq + 1 } }.ownFrame 0xFF kMgmt cUrgent (s.fab.mgmtSeq + 1) s.fabTtl payload

theorem State.floodMgmt_queue (s : State) {originator : DWord} {payload : List Byte} (hup : s.linkUp j = true) :
    ((s.floodMgmt originator payload).link j).queue = (s.link j).queue ++ [(none, s.mgmtFrame payload)] := State.flood_queue hup nofun

theorem State.floodMgmt_fab (s : State) (originator : DWord) (payload : List Byte) : ∃ l,
    (s.floodMgmt originator payload).fab = { s.fab with mgmtSeq := s.fab.mgmtSeq + 1, flooded := l } := ⟨_, State.flood_fab _ _ _⟩

theorem State.floodMgmt_frame (s : State) (originator : DWord) (payload : List Byte) : Only [.fab, .links, .out] s (s.floodMgmt originator payload) :=
  State.floodMgmt_only (Only.refl s) (by decide) (by decide) (by decide)

/-- A device that does not allocate answers no request. -/
theorem State.allocate_idle {serial : DWord} (h : s.fab.alloc = false) : s.allocate serial = s := by
  unfold State.allocate
  rw [if_pos (by rw [h]; rfl)]

/-- The ask of a device for an address (R359). -/
def State.askPayload (s : State) : List Byte := [0x01, s.fab.prevAddr] ++ List.replicate 6 0 ++ beBytes 8 s.serial.toNat

/-- The instant of an ask is noted. -/
def State.askNoted (s : State) : State := { s with fab := { s.fab with reqAt := s.raw } }

theorem exec_addrReqTimer (hon : s.fabOn = true) (hmode : s.rb (.fab .cfg) 1 = true) (haddr : s.fab.addr = 0)
    (halloc : (s.waitFrom s.fab.reqAt (ms 100)).fab.alloc = false) (hu : u = (s.waitFrom s.fab.reqAt (ms 100)).askNoted) :
    exec .addrReqTimer s = finish (u.floodMgmt u.serial u.askPayload) := by
  obtain ⟨l, hl⟩ := u.floodMgmt_fab u.serial u.askPayload
  have hidle : (u.floodMgmt u.serial u.askPayload).fab.alloc = false := by
    rw [hl, hu]
    exact halloc
  change execAddrReqTimer s = _
  unfold execAddrReqTimer
  rw [if_pos (by rw [hon, hmode, haddr]; rfl), ← State.allocate_idle (serial := (u.floodMgmt u.serial u.askPayload).serial) hidle, hu]
  rfl

theorem addrReqTimer_does (hon : s.fabOn = true) (hmode : s.rb (.fab .cfg) 1 = true) (haddr : s.fab.addr = 0) (halloc : s.fab.alloc = false) :
    Does .addrReqTimer s fun t => t.fab.mgmtSeq = s.fab.mgmtSeq + 1 ∧ t.fab.addr = 0 ∧
      ∀ k, s.linkUp k = true → ∃ f, (t.link k).queue = (s.link k).queue ++ [(none, f)] ∧ f.kind = kMgmt ∧
        f.payload = [0x01, s.fab.prevAddr] ++ List.replicate 6 0 ++ beBytes 8 s.serial.toNat := by
  have hwait : (s.waitFrom s.fab.reqAt (ms 100)).fab = s.fab := (s.advance_frame _).2 .fab (by decide)
  obtain ⟨u, hu⟩ : ∃ u, u = (s.waitFrom s.fab.reqAt (ms 100)).askNoted := ⟨_, rfl⟩
  have hlinks : u.links = s.links := by rw [hu]; exact s.advance_links _
  have hbelay : u.belay = s.belay := by rw [hu]; exact s.advance_belay _
  have hfab : u.fab = { s.fab with reqAt := (s.waitFrom s.fab.reqAt (ms 100)).raw } := by rw [hu, State.askNoted, hwait]
  have hask : u.askPayload = s.askPayload := by
    unfold State.askPayload State.serial
    rw [hfab, hbelay]
  obtain ⟨l, hl⟩ := u.floodMgmt_fab u.serial u.askPayload
  refine .of_finish (exec_addrReqTimer hon hmode haddr (by rw [hwait, halloc]) hu) ⟨?_, ?_, fun i hi => ⟨u.mgmtFrame u.askPayload, ?_, rfl, hask⟩⟩
  · rw [State.announce_fab, State.noteMay_fab, hl, hfab]
  · rw [State.announce_fab, State.noteMay_fab, hl, hfab]
    exact haddr
  · rw [State.announce_link, State.noteMay_link, ← link_of_links hlinks]
    exact u.floodMgmt_queue ((SameStanding.linkUp (SameStanding.of_links hlinks) i).trans hi)

/-- A MGMT frame of another kind than KEYX that is new: link k has taken it, and its pair is remembered (R356). -/
def State.mgmtTaken (s : State) (k : LinkId) (a : RlArrival) : State := (s.rlTaken k a).remember (s.floodSerial a.frame) a.frame.seqNo true

theorem State.floodSerial_congr (hfab : u.fab = s.fab) (hbelay : u.belay = s.belay) :
    u.floodSerial a.frame = s.floodSerial a.frame := by
  unfold State.floodSerial State.serialAt State.serial
  rw [hfab, hbelay]

theorem State.mgmtTaken_frame (s : State) (k : LinkId) (a : RlArrival) : Only [.fab, .links, .counts, .halves] s (s.mgmtTaken k a) :=
  State.remember_only ((s.rlTaken_only k a).mono (by simp)) (by decide)

theorem State.mgmtTaken_fab (s : State) (k : LinkId) (a : RlArrival) : ∃ l, (s.mgmtTaken k a).fab = { s.fab with flooded := l } :=
  ⟨_, by rw [State.mgmtTaken, State.remember, s.rlTaken_fab]⟩

theorem State.mgmtTaken_belay (s : State) (k : LinkId) (a : RlArrival) : (s.mgmtTaken k a).belay = s.belay := s.rlTaken_belay k a

theorem State.mgmtTaken_reg (s : State) (k : LinkId) (a : RlArrival) (r : Reg) : (s.mgmtTaken k a).reg r = s.reg r :=
  (s.mgmtTaken_frame k a).2 (.regs (blockOf r)) (by simp) r rfl

theorem State.mgmtTaken_standing (s : State) (k : LinkId) (a : RlArrival) : SameStanding s (s.mgmtTaken k a) := s.rlTaken_standing k a

/-- A flooded MGMT frame that is new has its effect eff and goes on. -/
theorem RlTakes.flooded_mgmt (htakes : RlTakes s k a) (hnew : s.seen (s.floodSerial a.frame) a.frame.seqNo true = false)
    (eff : State → State) :
    s.rlTake k a (fun y => y.flooded_ k a.frame (y.floodSerial a.frame) true eff) =
      finish ((eff (s.mgmtTaken k a)).flood (some k) { a.frame with ttl := a.frame.ttl - 1 }) := by
  rw [htakes.rlTake, State.floodSerial_congr (s.rlTaken_fab k a) (s.rlTaken_belay k a),
    State.flooded_new (by rw [State.seen, s.rlTaken_fab]; exact hnew)]
  rfl

/-- The address x is given to a serial. -/
def State.giving (s : State) (serial : DWord) (x : Byte) : State :=
  { s with fab := { s.fab with given := (serial, x) :: s.fab.given.filter (fun g => g.1 != serial) } }

/-- The answer of the allocator (R359). -/
def assignPayload (serial : DWord) (x : Byte) : List Byte := [0x02, x] ++ List.replicate 6 0 ++ beBytes 8 serial.toNat

/-- The allocator gives an address to another device (R359). -/
theorem State.allocate_other {serial : DWord} {x : Byte} (halloc : s.fab.alloc = true) (hduty : s.dutyRuns 0 = true) (hother : serial ≠ s.serial)
    (hchoice : s.chooseAddr serial = some x) :
    s.allocate serial = (s.giving serial x).floodMgmt s.serial (assignPayload serial x) := by
  have hkept : (if serial = (s.giving serial x).serial then (s.giving serial x).takeAddr x else s.giving serial x) = s.giving serial x := if_neg hother
  unfold State.allocate
  rw [if_neg (by rw [halloc, hduty]; nofun), hchoice]
  exact congrArg (fun y => y.floodMgmt y.serial (assignPayload serial x)) hkept

theorem addrReq_does {x : Byte} (hkind : a.frame.kind = kMgmt) (hop : a.frame.payload.headD 0 = 0x01) (htakes : RlTakes s k a)
    (hnew : s.seen (s.floodSerial a.frame) a.frame.seqNo true = false) (halloc : s.fab.alloc = true) (hduty : s.dutyRuns 0 = true)
    (hother : mgmtSerial a.frame ≠ s.serial) (hchoice : s.chooseAddr (mgmtSerial a.frame) = some x) :
    Does (.addrReq k a) s fun t => t.fab.given = (mgmtSerial a.frame, x) :: s.fab.given.filter (fun g => g.1 != mgmtSerial a.frame) ∧
      t.fab.addr = s.fab.addr ∧ SameRegs s t := by
  obtain ⟨l, hl⟩ := s.mgmtTaken_fab k a
  have hspur : (s.mgmtTaken k a).spur = s.spur := (s.mgmtTaken_frame k a).2 .spur (by decide)
  have hallocate := State.allocate_other (s := s.mgmtTaken k a) (serial := mgmtSerial a.frame) (x := x) (by rw [hl]; exact halloc)
    (by rw [State.dutyRuns, hspur]; exact hduty) (by rw [State.serial, s.mgmtTaken_belay]; exact hother)
    (by rw [State.chooseAddr_congr (by rw [hl]; exact ⟨rfl, rfl, rfl⟩) (s.mgmtTaken_belay k a) (s.mgmtTaken_standing k a)]; exact hchoice)
  have he : exec (.addrReq k a) s = finish (((s.mgmtTaken k a).allocate (mgmtSerial a.frame)).flood (some k) { a.frame with ttl := a.frame.ttl - 1 }) := by
    change execAddrReq k a s = _
    unfold execAddrReq
    dsimp only
    rw [if_neg (fun h => h.elim (fun h => h hkind) (fun h => h hop)), htakes.flooded_mgmt hnew]
  rw [hallocate] at he
  obtain ⟨m, hm⟩ := ((s.mgmtTaken k a).giving (mgmtSerial a.frame) x).floodMgmt_fab (s.mgmtTaken k a).serial (assignPayload (mgmtSerial a.frame) x)
  have hgiven : ((s.mgmtTaken k a).giving (mgmtSerial a.frame) x).fab =
      { s.fab with given := (mgmtSerial a.frame, x) :: s.fab.given.filter (fun g => g.1 != mgmtSerial a.frame), flooded := l } := by
    rw [State.giving, hl]
  refine .of_finish he ⟨?_, ?_, SameRegs.of_reg fun r => ?_⟩
  · rw [State.announce_fab, State.noteMay_fab, State.flood_fab, hm, hgiven]
  · rw [State.announce_fab, State.noteMay_fab, State.flood_fab, hm, hgiven]
  · rw [(State.flood_frame _ _ _).2 (.regs (blockOf r)) (by simp) r rfl, (State.floodMgmt_frame _ _ _).2 (.regs (blockOf r)) (by simp) r rfl]
    exact s.mgmtTaken_reg k a r

/-! The device takes an address -/

/-- A device that takes an address gives it up again where a lower serial holds it (R360). -/
theorem State.addrConflict_addr (s : State) : s.addrConflict.fab.addr = (if s.heldBelow s.fab.addr then 0 else s.fab.addr) := by
  unfold State.addrConflict
  dsimp only
  split <;> rfl

/-- With dynamic addresses it has given up none of its own. -/
theorem State.addrConflict_gaveUp (s : State) (hmode : s.rb (.fab .cfg) 1 = true) (h : s.fab.gaveUp = false) : s.addrConflict.fab.gaveUp = false := by
  unfold State.addrConflict
  dsimp only
  split
  · exact congrArg (!·) hmode
  · exact h

theorem State.fabEvt_keeps_bit (s : State) (i : Nat) {r : Reg} {j : Nat} (hj : j < 64) (h : s.rb r j = true) : (s.fabEvt i).rb r j = true := by
  unfold State.rb State.fabEvt
  by_cases hr : r = .fab .evt
  · rw [hr, State.reg_raise_same]
    exact bit_setBit_of_bit _ hj (hr ▸ h)
  · rw [State.reg_raise_other _ _ _ _ hr]
    exact h

theorem State.fabEvt_bit (s : State) {i : Nat} (hi : i < 64) : (s.fabEvt i).rb (.fab .evt) i = true := by
  rw [State.rb, State.fabEvt, State.reg_raise_same]
  exact bit_setBit_self _ hi

theorem State.addrConflict_keeps_bit (s : State) {r : Reg} {j : Nat} (hj : j < 64) (h : s.rb r j = true) : s.addrConflict.rb r j = true := by
  unfold State.addrConflict
  dsimp only
  split
  · exact State.fabEvt_keeps_bit _ _ hj (State.fabEvt_keeps_bit _ _ hj h)
  · exact h

/-- FAB_ADDR_CONFLICT where an address is given up. -/
theorem State.addrConflict_event (s : State) (h : s.heldBelow s.fab.addr = true) : s.addrConflict.rb (.fab .evt) 4 = true := by
  unfold State.addrConflict
  dsimp only
  rw [if_pos h]
  exact State.fabEvt_bit _ (by decide)

theorem State.nameSource_reg (s : State) {r : Reg} (hr : blockOf r ≠ .tmu) : s.nameSource.reg r = s.reg r := by
  have h : Only [.regs .tmu] s s.nameSource := State.nameSource_only (Only.refl s) (by decide)
  exact h.2 (.regs (blockOf r)) (by simpa using hr) r rfl

theorem State.fabricTime_keeps_bit (s : State) {r : Reg} {j : Nat} (hr : blockOf r ≠ .tmu) (hj : j < 64) (h : s.rb r j = true) :
    s.fabricTime.rb r j = true := by
  have hevt : ∀ (y : State) (c : Bool), y.rb r j = true → (if c then y.fabEvt 2 else y).rb r j = true := fun y c hy => by
    split
    · exact y.fabEvt_keeps_bit 2 hj hy
    · exact hy
  unfold State.fabricTime
  split
  dsimp only
  apply hevt
  rw [State.rb, State.nameSource_reg _ hr]
  exact h

/-- What a device holds after it has taken the address x (R359, R360). -/
structure TakesAddr (s t : State) (x : Byte) : Prop where
  addr : t.fab.addr = (if s.heldBelow x then 0 else x)
  gaveUp : t.fab.gaveUp = false
  changed : t.rb (.fab .evt) 3 = true
  conflict : s.heldBelow x = true → t.rb (.fab .evt) 4 = true

theorem State.takeAddr_takes (s : State) (x : Byte) (hmode : s.rb (.fab .cfg) 1 = true) : TakesAddr s (s.takeAddr x) x := by
  obtain ⟨y, hy⟩ : ∃ y, y = { s with fab := { s.fab with addr := x, gaveUp := false } }.fabEvt 3 := ⟨_, rfl⟩
  have hyfab : y.fab = { s.fab with addr := x, gaveUp := false } := by rw [hy]; rfl
  have hheld : y.heldBelow y.fab.addr = s.heldBelow x := by
    rw [hyfab]
    exact State.heldBelow_congr (by rw [hyfab]) (by rw [hy]; rfl) (.of_links (by rw [hy]; rfl)) x
  have hmodeY : y.rb (.fab .cfg) 1 = true := by
    rw [hy]
    exact State.fabEvt_keeps_bit _ _ (by decide) hmode
  have hchanged : y.rb (.fab .evt) 3 = true := by
    rw [hy]
    exact State.fabEvt_bit _ (by decide)
  have htake : s.takeAddr x = y.addrConflict.fabricTime := by rw [hy]; rfl
  rw [htake]
  refine ⟨?_, ?_, ?_, fun h => ?_⟩
  · calc y.addrConflict.fabricTime.fab.addr = y.addrConflict.fab.addr := State.fabricTime_addr _
      _ = if y.heldBelow y.fab.addr then 0 else y.fab.addr := y.addrConflict_addr
      _ = if s.heldBelow x then 0 else x := by rw [hheld, hyfab]
  · calc y.addrConflict.fabricTime.fab.gaveUp = y.addrConflict.fab.gaveUp := State.fabricTime_gaveUp _
      _ = false := y.addrConflict_gaveUp hmodeY (by rw [hyfab])
  · exact State.fabricTime_keeps_bit _ (by decide) (by decide) (y.addrConflict_keeps_bit (by decide) hchanged)
  · exact State.fabricTime_keeps_bit _ (by decide) (by decide) (y.addrConflict_event (by rw [hheld, h]))

theorem addrAssign_does (hkind : a.frame.kind = kMgmt) (hop : a.frame.payload.headD 0 = 0x02) (htakes : RlTakes s k a)
    (hnew : s.seen (s.floodSerial a.frame) a.frame.seqNo true = false) (hself : mgmtSerial a.frame = s.serial) (hon : s.fabOn = true)
    (hmode : s.rb (.fab .cfg) 1 = true) (haddr : s.fab.addr = 0) :
    Does (.addrAssign k a) s fun t =>
      t.fab.addr = (if s.heldBelow (a.frame.payload.getD 1 0) then 0 else a.frame.payload.getD 1 0) ∧ t.fab.gaveUp = false ∧
      t.rb (.fab .evt) 3 = true ∧ (s.heldBelow (a.frame.payload.getD 1 0) = true → t.rb (.fab .evt) 4 = true) := by
  obtain ⟨l, hl⟩ := s.mgmtTaken_fab k a
  have hbelay := s.mgmtTaken_belay k a
  have hcfg : ∀ i, (s.mgmtTaken k a).rb (.fab .cfg) i = s.rb (.fab .cfg) i := fun i => by rw [State.rb, State.mgmtTaken_reg, State.rb]
  have hfits : mgmtSerial a.frame = (s.mgmtTaken k a).serial ∧ (s.mgmtTaken k a).fabOn ∧ (s.mgmtTaken k a).rb (.fab .cfg) 1 ∧ (s.mgmtTaken k a).fab.addr = 0 :=
    ⟨by rw [State.serial, hbelay]; exact hself, (hcfg 0).trans hon, (hcfg 1).trans hmode, by rw [hl]; exact haddr⟩
  have he : exec (.addrAssign k a) s =
      finish (((s.mgmtTaken k a).takeAddr (a.frame.payload.getD 1 0)).flood (some k) { a.frame with ttl := a.frame.ttl - 1 }) := by
    change execAddrAssign k a s = _
    unfold execAddrAssign
    dsimp only
    rw [if_neg (fun h => h.elim (fun h => h hkind) (fun h => h hop)), htakes.flooded_mgmt hnew, if_pos hfits]
  have hheld := State.heldBelow_congr (by rw [hl]) hbelay (s.mgmtTaken_standing k a) (a.frame.payload.getD 1 0)
  have htaken := (s.mgmtTaken k a).takeAddr_takes (a.frame.payload.getD 1 0) ((hcfg 1).trans hmode)
  obtain ⟨htook, hkept, hchanged, hconflict⟩ := htaken
  rw [hheld] at htook hconflict
  have hevt : ∀ i, (((s.mgmtTaken k a).takeAddr (a.frame.payload.getD 1 0)).flood (some k) { a.frame with ttl := a.frame.ttl - 1 }).noteMay.announce.rb
      (.fab .evt) i = ((s.mgmtTaken k a).takeAddr (a.frame.payload.getD 1 0)).rb (.fab .evt) i := fun i => by
    rw [State.announce_rb _ _ _ (by decide), State.noteMay_rb, State.rb, (State.flood_frame _ _ _).2 (.regs .fab) (by decide) (.fab .evt) rfl, State.rb]
  refine .of_finish he ⟨?_, ?_, (hevt 3).trans hchanged, fun h => (hevt 4).trans (hconflict h)⟩
  · rw [State.announce_fab, State.noteMay_fab, State.flood_fab, htook]
  · rw [State.announce_fab, State.noteMay_fab, State.flood_fab, hkept]

end addresses

/-! ### Routes are computed anew (R365) -/

section tables
variable {α : Type} [DecidableEq α] {dflt : α}

omit [DecidableEq α] in
/-- A value that is not the default is listed where it is read. -/
theorem Tbl.mem_get {t : Tbl α} {i : Nat} (h : Tbl.get dflt t i ≠ dflt) : (i, Tbl.get dflt t i) ∈ t := by
  induction t with
  | nil => exact absurd rfl h
  | cons e t ih =>
    obtain ⟨k, v⟩ := e
    rw [Tbl.get] at h ⊢
    split
    next hk => rw [hk]; exact List.mem_cons_self
    next hk => exact List.mem_cons_of_mem _ (ih (by rwa [if_neg hk] at h))

/-- In a table in canonical form, what is listed is what is read. -/
theorem Tbl.get_of_mem {t : Tbl α} (hwf : Tbl.wf dflt t = true) {e : Nat × α} (he : e ∈ t) : Tbl.get dflt t e.1 = e.2 := by
  induction t with
  | nil => cases he
  | cons d t ih =>
    obtain ⟨k, v⟩ := d
    simp only [Tbl.wf, Bool.and_eq_true, decide_eq_true_eq, List.all_eq_true] at hwf
    obtain ⟨⟨-, hlow⟩, hrest⟩ := hwf
    rcases List.mem_cons.1 he with rfl | hmem
    · rw [Tbl.get, if_pos rfl]
    · rw [Tbl.get, if_neg (Nat.ne_of_lt (hlow e hmem)), ih hrest hmem]

end tables

section routes
variable {s t u : State}

theorem State.hops_congr (htopology : u.topology = s.topology) (hserial : u.serial = s.serial) (target : DWord) (fuel n : Nat) (seen : List DWord) :
    u.hops target fuel n seen = s.hops target fuel n seen := by
  have hhop : ∀ l, u.hopFrom l = s.hopFrom l := fun l => by unfold State.hopFrom; rw [htopology, hserial]
  induction fuel generalizing n seen with
  | zero => rfl
  | succ fuel ih => simp only [State.hops, hhop, ih]

/-- Routes are computed from the links, the fabric's part and the serial. -/
theorem State.routeLinks_congr (hlinks : u.links = s.links) (hfab : u.fab = s.fab) (hbelay : u.belay = s.belay) (x : Route) :
    u.routeLinks x = s.routeLinks x := by
  have hsame : SameStanding s u := .of_links hlinks
  have htopology : u.topology = s.topology := State.topology_congr (by rw [hfab]) hsame
  have hserial : u.serial = s.serial := by rw [State.serial, hbelay, State.serial]
  have hhops : u.linkHops = s.linkHops := by
    funext dest k
    unfold State.linkHops
    simp only [hsame.linkUp, htopology, State.hops_congr htopology hserial, hsame.nbr]
  unfold State.routeLinks State.bestLink
  rw [hfab, hhops]

theorem State.setRoute_routeLinks (s : State) (r : Nat) (y x : Route) : (s.setRoute r y).routeLinks x = s.routeLinks x :=
  State.routeLinks_congr (u := s.setRoute r y) (s := s) rfl rfl rfl x

/-- PRIMARY and ALTERNATE alone change. -/
theorem State.routeLinks_valid (s : State) (x : Route) : (s.routeLinks x).valid = x.valid := by
  unfold State.routeLinks
  dsimp only
  split <;> rfl

/-- The entries l of the table rewritten. -/
def State.reroute (s : State) (l : Tbl Route) : State := l.foldl (fun y e => y.setRoute e.1 (y.routeLinks e.2)) s

theorem State.reroute_other (s : State) {l : Tbl Route} {r : Nat} (h : ∀ e ∈ l, e.1 ≠ r) : (s.reroute l).route r = s.route r := by
  unfold State.reroute
  induction l generalizing s with
  | nil => rfl
  | cons e l ih =>
    rw [List.foldl_cons, ih _ (fun d hd => h d (List.mem_cons_of_mem _ hd))]
    exact State.route_setRoute_other _ _ _ _ (h e List.mem_cons_self).symm

theorem State.reroute_listed (s : State) {l : Tbl Route} (hkeys : l.Pairwise (fun d e => d.1 ≠ e.1)) (hvalid : ∀ e ∈ l, e.2.valid = true) {e : Nat × Route}
    (he : e ∈ l) : (s.reroute l).route e.1 = s.routeLinks e.2 := by
  unfold State.reroute
  induction l generalizing s with
  | nil => cases he
  | cons d l ih =>
    obtain ⟨hd, hrest⟩ := List.pairwise_cons.1 hkeys
    rw [List.foldl_cons]
    rcases List.mem_cons.1 he with rfl | hmem
    · have hset : (s.setRoute e.1 (s.routeLinks e.2)).route e.1 = s.routeLinks e.2 := Tbl.get_put_same_of_ne _ _ fun h => by
        have hv := s.routeLinks_valid e.2
        rw [h, hvalid e List.mem_cons_self] at hv
        cases hv
      exact ((s.setRoute e.1 (s.routeLinks e.2)).reroute_other fun c hc => (hd c hc).symm).trans hset
    · rw [ih _ hrest (fun c hc => hvalid c (List.mem_cons_of_mem _ hc)) hmem]
      exact s.setRoute_routeLinks _ _ _

theorem Tbl.wf_pairwise {t : Tbl Route} (hwf : Tbl.wf {} t = true) : t.Pairwise (fun d e => d.1 ≠ e.1) := by
  induction t with
  | nil => exact .nil
  | cons d t ih =>
    obtain ⟨k, v⟩ := d
    simp only [Tbl.wf, Bool.and_eq_true, decide_eq_true_eq, List.all_eq_true] at hwf
    obtain ⟨⟨-, hlow⟩, hrest⟩ := hwf
    exact List.pairwise_cons.2 ⟨fun e he => Nat.ne_of_lt (hlow e he), ih hrest⟩

theorem routeRecompute_does (hduty : s.dutyRuns 0 = true) (htab : TablesOk s) :
    Does .routeRecompute s fun t => ∀ r, t.route r = if (s.route r).valid then s.routeLinks (s.route r) else s.route r := by
  have he : exec .routeRecompute s = finish (s.reroute (s.routes.filter (fun e => e.2.valid))) := by
    change execRouteRecompute s = _
    unfold execRouteRecompute
    rw [if_neg (by rw [hduty]; nofun)]
    rfl
  refine .of_finish he fun r => ?_
  rw [State.announce_route, State.noteMay_route]
  split
  next hvalid =>
    have hmem : (r, s.route r) ∈ s.routes := Tbl.mem_get fun h => by
      rw [State.route, h] at hvalid
      cases hvalid
    exact s.reroute_listed (l := s.routes.filter (fun e => e.2.valid)) ((Tbl.wf_pairwise htab.routes).filter _) (fun e he => (List.mem_filter.1 he).2)
      (e := (r, s.route r)) (List.mem_filter.2 ⟨hmem, hvalid⟩)
  next hvalid =>
    refine s.reroute_other fun e he hr => hvalid ?_
    obtain ⟨hmem, hv⟩ := List.mem_filter.1 he
    rw [← hr, State.route, Tbl.get_of_mem htab.routes hmem]
    exact hv

end routes

/-- Settles O48: a flooded frame is followed through the queues of the links that are UP, the election after a change of topology leaves topology and
address alone, and the routes are computed from what no rewriting of an entry changes. -/
theorem topologyAndAddresses : Obligations.TopologyAndAddresses := by
  unfold Obligations.TopologyAndAddresses
  refine ⟨?_, ?_, fun _ _ _ hup hu => topoTimer_does hup hu, fun _ _ hheld => topoExpiry_does hheld,
    fun _ hon hmode haddr halloc => addrReqTimer_does hon hmode haddr halloc, ?_, ?_, fun _ hduty htab => routeRecompute_does hduty htab⟩
  · rintro s k a _ rfl hkind htakes hother hnew
    exact topo_new hkind htakes hother hnew
  · rintro s k a _ rfl hkind htakes hseen
    exact topo_repeated hkind htakes hseen
  · rintro s k a _ x rfl hkind hop htakes hnew halloc hduty hother hchoice
    exact addrReq_does hkind hop htakes hnew halloc hduty hother hchoice
  · rintro s k a _ rfl hkind hop htakes hnew hself hon hmode haddr
    exact addrAssign_does hkind hop htakes hnew hself hon hmode haddr

end Sys2Proof.Machine

namespace Sys2Proof.Machine

/-! ### A routed frame that arrives sealed (R367, R386) -/

section transit
variable {s : State} {k j : LinkId} {a : RlArrival} {f : RlFrame}

/-- A frame in transit whose PRIMARY link is UP leaves on it (R367). -/
theorem State.transit_primary (hvalid : (s.route f.rtag.toNat).valid = true) (hprimary : routeLink (s.route f.rtag.toNat).primary = some j) (hj : j ≠ k)
    (hup : s.linkUp j = true) : s.transit k f = s.pushLink j (some k) { f with ttl := f.ttl - 1 } := by
  have hlink : s.transitLink k f = some j := by simp [State.transitLink, hvalid, hprimary, hj, hup]
  unfold State.transit
  simp only [hlink, hup, if_true]

/-- A frame that an encrypted link takes leaves its counter C at the link (R386). -/
theorem routed_cRx (hkind : f.kind = kRouted) (htakes : RlTakes s k a) (hf : a.frame = f) (hdest : f.dest ≠ 0xFF)
    (haddr : ¬(s.fab.addr ≠ 0 ∧ f.dest = s.fab.addr)) (hvalid : (s.route f.rtag.toNat).valid = true)
    (hprimary : routeLink (s.route f.rtag.toNat).primary = some j) (hj : j ≠ k) (hup : s.linkUp j = true) (henc : (s.link k).encOn = true) :
    ∃ u, exec (.routed k a) s = finish u ∧ (u.link k).cRx = a.under.map (·.c) := by
  subst hf
  have hroute : ∀ r, (s.rlTaken k a).route r = s.route r := (s.rlTaken_only k a).2 .routes (by decide)
  have hfab : (s.rlTaken k a).fab = s.fab := (s.rlTaken_only k a).2 .fab (by decide)
  have htransit : (s.rlTaken k a).routedOp k a.frame = (s.rlTaken k a).pushLink j (some k) { a.frame with ttl := a.frame.ttl - 1 } := by
    unfold State.routedOp
    rw [if_neg hdest, hfab, if_neg haddr]
    exact State.transit_primary (by rw [hroute, hvalid]) (by rw [hroute, hprimary]) hj (by rw [(s.rlTaken_standing k a).linkUp, hup])
  refine ⟨(s.rlTaken k a).routedOp k a.frame, ?_, ?_⟩
  · change execRouted k a s = _
    unfold execRouted
    rw [if_neg (not_not.2 hkind), htakes.rlTake]
  · rw [htransit, State.pushLink, State.link_setLink_other _ _ _ _ hj.symm, State.rlTaken_cRx henc]

/-- The first frame under a link key whose tag is that of the key is authentic, whatever its C (R386). -/
theorem State.authentic_first {q : RlSeal} {slot : KeySlot} (hunder : a.under = some q) (hkey : (s.link k).key.bind (fun h => s.key h) = some slot)
    (hfirst : (s.link k).cRx = none) (htag : q.tag = (s.rlSeal k slot false q.c a.frame).drop (16 + a.frame.payload.length)) : s.authentic k a = true := by
  unfold State.authentic
  simp only [hunder, hkey, hfirst, ← htag, Bool.true_and, beq_self_eq_true]

end transit

/-! ### A device that passes a sealed frame on -/

namespace SealedTransit

/-- The key in slot 0. -/
def slot : KeySlot := { dom := 0, sealing := false, key := 0 }

/-- A link that is UP under the key of slot 0 (R383). -/
def encrypted : Link := { state := .up, encOn := true, key := some 0, nbr := { serial := 7 } }

/-- Link 0 is encrypted, link 1 is UP and PRIMARY of entry 0, and this device has no address. -/
def device : State :=
  { State.reset with
    belay := { State.reset.belay with keys := [(0, some slot)] }
    routes := [(0, { valid := true, cls := 1, dest := 5, primary := 1 })]
    links := #v[encrypted, { state := .up }, {}, {}] }

/-- A ROUTED frame of address 3 for address 5 under entry 0. -/
def frame : RlFrame :=
  { dest := 5, src := 3, cls := cUrgent, kind := kRouted, rtag := 0, seqNo := 1, version := 1, twin := false, wrapped := false, ttl := 8, stamp := 0, payload := [] }

/-- What seals the frame as the first that its sender sends under the key: C is 0, and the tag that of the key (R385). -/
def tagged : RlSeal := { c := 0, tag := (device.rlSeal 0 slot false 0 frame).drop (16 + frame.payload.length) }

def arrival : RlArrival := { frame := frame, under := some tagged }

theorem device_key : (device.link 0).key.bind (fun h => device.key h) = some slot := rfl

theorem device_first : (device.link 0).cRx = none := rfl

theorem device_authentic : device.authentic 0 arrival = true :=
  State.authentic_first (q := tagged) (slot := slot) (by rw [arrival]) device_key device_first (by rw [arrival, tagged])

theorem device_takes : RlTakes device 0 arrival := ⟨rfl, device_authentic, by decide, by decide⟩

end SealedTransit

open SealedTransit in
/-- Refutes O49, whose clause on transit keeps every link but the PRIMARY one as it was, the link of arrival included. Where that link is encrypted it
notes the counter C of the frame that it accepts (R386): the first sealed frame for another device leaves C = 0 at a link that had accepted none. -/
theorem not_fabricTransitAndTime : ¬ Obligations.FabricTransitAndTime := by
  unfold Obligations.FabricTransitAndTime
  rintro ⟨-, -, -, htransit, -⟩
  have haddr : ¬(device.fab.addr ≠ 0 ∧ frame.dest = device.fab.addr) := fun h => h.1 rfl
  obtain ⟨t, hexec, -, hlinks, -⟩ := htransit device 0 1 arrival frame rfl rfl device_takes (by decide) haddr rfl rfl (by decide) rfl
  obtain ⟨u, hu, hcRx⟩ := routed_cRx (j := 1) rfl device_takes rfl (by decide) haddr rfl rfl (by decide) rfl rfl
  have ht : t = u.noteMay.announce := Host.Outcome.next.inj (hexec.symm.trans hu)
  have hkept : (t.link 0).cRx = (device.link 0).cRx := congrArg Link.cRx (hlinks 0 (by decide))
  rw [ht, State.announce_link, State.noteMay_link, hcRx] at hkept
  exact absurd hkept (by decide)

end Sys2Proof.Machine

namespace Sys2Proof.Machine

/-! ### When the machine stops (O6) -/

/-- A result that stops for the length of a data operand only where bad holds, for a frame of another image family only where foreign holds, and for no
other reason. -/
def Result.StopsFor (bad foreign : Prop) : Result → Prop
  | .next _ => True
  | .fault .dataLength => bad
  | .refused .otherImageFamily => foreign
  | .refused (.notModelled _) => False

section stops
variable {bad foreign : Prop} {s t : State} {r r' : Result} {c : Prop} [Decidable c]

theorem completes.ite (h : completes r) (g : completes r') : completes (if c then r else r') := by
  split <;> assumption

theorem completes.stopsFor (h : completes r) : r.StopsFor bad foreign := by
  obtain ⟨t, rfl⟩ := h
  trivial

theorem Result.StopsFor.ite (h : r.StopsFor bad foreign) (g : r'.StopsFor bad foreign) : (if c then r else r').StopsFor bad foreign := by
  split <;> assumption

/-- The length of a data operand is all that may stop a command that reads one (log 12). -/
theorem Result.StopsFor.length (h : c → bad) : Result.StopsFor bad foreign (if c then .fault .dataLength else finish t) := by
  split
  · exact h ‹_›
  · trivial

/-- A command about a frame of port p stops where the engine of p runs an image of another family (log 13). -/
theorem Result.StopsFor.family {p : PortId} (h : r.StopsFor bad (∃ p, s.otherFamily p = true)) :
    Result.StopsFor bad (∃ p, s.otherFamily p = true) (if s.otherFamily p then .refused .otherImageFamily else r) := by
  split
  · exact ⟨p, ‹_›⟩
  · exact h

/-- The three ways in which a command ends. -/
theorem Result.StopsFor.cases (h : r.StopsFor bad foreign) :
    completes r ∨ (r = .fault .dataLength ∧ bad) ∨ (r = .refused .otherImageFamily ∧ foreign) := by
  match r, h with
  | .next t, _ => exact .inl ⟨t, rfl⟩
  | .fault .dataLength, h => exact .inr (.inl ⟨rfl, h⟩)
  | .refused .otherImageFamily, h => exact .inr (.inr ⟨rfl, h⟩)

end stops

/-! ### Commands that never stop -/

section commands
variable {s : State}

theorem State.rlTake_completes {k : LinkId} {a : RlArrival} {eff : State → State} : completes (s.rlTake k a eff) :=
  .ite ⟨_, rfl⟩ (.ite ⟨_, rfl⟩ (.ite ⟨_, rfl⟩ (.ite ⟨_, rfl⟩ ⟨_, rfl⟩)))

theorem State.ownedWrite_completes {d o : Dom} {off : Nat} {v : Word} {f : State → State} : completes (s.ownedWrite d o off v f) :=
  .ite ⟨_, rfl⟩ (.ite ⟨_, rfl⟩ ⟨_, rfl⟩)

theorem State.whileUp_completes {f : State → State} : completes (s.whileUp f) := .ite ⟨_, rfl⟩ ⟨_, rfl⟩

theorem execRecordComplete_completes : completes (execRecordComplete s) := by
  unfold execRecordComplete
  split
  · exact ⟨_, rfl⟩
  · exact .ite ⟨_, rfl⟩ ⟨_, rfl⟩

theorem execChallengeExpiry_completes : completes (execChallengeExpiry s) := by
  unfold execChallengeExpiry
  split <;> exact ⟨_, rfl⟩

theorem execSelfTestEnd_completes {failed block us} : completes (execSelfTestEnd failed block us s) := by
  unfold execSelfTestEnd
  split
  · exact ⟨_, rfl⟩
  · exact .ite ⟨_, rfl⟩ ⟨_, rfl⟩

theorem execFlrComplete_completes {d} : completes (execFlrComplete d s) := by
  unfold execFlrComplete
  split
  · exact ⟨_, rfl⟩
  · exact .ite ⟨_, rfl⟩ ⟨_, rfl⟩

theorem execAttemptCommit_completes {x} : completes (execAttemptCommit x s) := by
  unfold execAttemptCommit
  dsimp only
  split
  · exact ⟨_, rfl⟩
  · refine .ite ⟨_, rfl⟩ ?_
    split <;> exact ⟨_, rfl⟩

theorem execCandidateExpiry_completes {p c} : completes (execCandidateExpiry p c s) := by
  unfold execCandidateExpiry
  split
  · split <;> exact ⟨_, rfl⟩
  · exact ⟨_, rfl⟩

theorem execHoldTakesEffect_completes {t} : completes (execHoldTakesEffect t s) := by
  cases t with
  | port p => exact .ite ⟨_, rfl⟩ ⟨_, rfl⟩
  | grp k => exact .ite ⟨_, rfl⟩ ⟨_, rfl⟩

theorem execHoldExpiry_completes {t} : completes (execHoldExpiry t s) := by
  unfold execHoldExpiry
  split
  · split
    · exact .ite ⟨_, rfl⟩ ⟨_, rfl⟩
    · exact ⟨_, rfl⟩
  · split
    · exact .ite ⟨_, rfl⟩ ⟨_, rfl⟩
    · exact ⟨_, rfl⟩

theorem execFilterEval_completes {d} : completes (execFilterEval d s) := by
  unfold execFilterEval
  split <;> exact ⟨_, rfl⟩

theorem execBufWaitExpiry_completes {d n} : completes (execBufWaitExpiry d n s) := by
  unfold execBufWaitExpiry
  split <;> exact ⟨_, rfl⟩

theorem execWindowCloseCut_completes {k} : completes (execWindowCloseCut k s) := by
  unfold execWindowCloseCut
  split
  · split
    · exact .ite ⟨_, rfl⟩ ⟨_, rfl⟩
    · exact ⟨_, rfl⟩
  · exact ⟨_, rfl⟩

theorem execSlotMissed_completes {p c} : completes (execSlotMissed p c s) := by
  unfold execSlotMissed
  split
  · split
    · exact ⟨_, rfl⟩
    · refine .ite ?_ ⟨_, rfl⟩
      split <;> exact ⟨_, rfl⟩
  · exact ⟨_, rfl⟩

theorem execServoSample_completes : completes (execServoSample s) := by
  unfold execServoSample
  split <;> exact ⟨_, rfl⟩

theorem execPulseEdge_completes {i} : completes (execPulseEdge i s) := by
  unfold execPulseEdge
  dsimp only
  split
  · exact ⟨_, rfl⟩
  · exact .ite ⟨_, rfl⟩ ⟨_, rfl⟩

theorem execPauseEnd_completes {k} : completes (execPauseEnd k s) := by
  unfold execPauseEnd
  split <;> exact ⟨_, rfl⟩

theorem execEthTxEnd_completes {k raw} : completes (execEthTxEnd k raw s) := by
  unfold execEthTxEnd
  dsimp only
  split <;> exact ⟨_, rfl⟩

theorem execTopoExpiry_completes {serial} : completes (execTopoExpiry serial s) := by
  unfold execTopoExpiry
  split <;> exact ⟨_, rfl⟩

theorem execLinkTxStart_completes {k raw} : completes (execLinkTxStart k raw s) := by
  unfold execLinkTxStart
  extract_lets u busy v
  refine .ite ⟨_, rfl⟩ ?_
  split <;> exact ⟨_, rfl⟩

theorem execEngineLoss_completes {e cause} : completes (execEngineLoss e cause s) := by
  unfold execEngineLoss
  split
  · exact ⟨_, rfl⟩
  · exact ⟨_, rfl⟩
  · exact .ite ⟨_, rfl⟩ ⟨_, rfl⟩

theorem execEngineLoadDone_completes {e} : completes (execEngineLoadDone e s) := by
  unfold execEngineLoadDone
  dsimp only
  split
  · split
    · exact .ite ⟨_, rfl⟩ ⟨_, rfl⟩
    · exact .ite ⟨_, rfl⟩ ⟨_, rfl⟩
    · exact ⟨_, rfl⟩
    · exact ⟨_, rfl⟩
  · exact ⟨_, rfl⟩

theorem execTakeoverDone_completes {p} : completes (execTakeoverDone p s) := by
  unfold execTakeoverDone
  split <;> exact ⟨_, rfl⟩

theorem execSwapQuietPoint_completes : completes (execSwapQuietPoint s) := by
  unfold execSwapQuietPoint
  split <;> exact ⟨_, rfl⟩

theorem execSwapTimeout_completes : completes (execSwapTimeout s) := by
  unfold execSwapTimeout
  split <;> exact ⟨_, rfl⟩

theorem execDutyMoveDone_completes {u} : completes (execDutyMoveDone u s) := by
  unfold execDutyMoveDone
  dsimp only
  split <;> exact ⟨_, rfl⟩

theorem execGwInput_completes : completes (execGwInput s) := by
  unfold execGwInput
  split
  · exact ⟨_, rfl⟩
  · exact .ite ⟨_, rfl⟩ ⟨_, rfl⟩

theorem execGwGapEnd_completes {i} : completes (execGwGapEnd i s) := by
  unfold execGwGapEnd
  split
  · exact ⟨_, rfl⟩
  · split <;> exact ⟨_, rfl⟩

theorem execEvcClaim_completes {d t} : completes (execEvcClaim d t s) := by
  unfold execEvcClaim
  refine .ite ⟨_, rfl⟩ ?_
  split <;> exact ⟨_, rfl⟩

theorem execEvcEoi_completes {d x word} : completes (execEvcEoi d x word s) := by
  cases x with
  | vector t => exact ⟨_, rfl⟩
  | claim t v => exact .ite ⟨_, rfl⟩ (.ite ⟨_, rfl⟩ ⟨_, rfl⟩)

theorem execVectorDelivery_completes {t src level} : completes (execVectorDelivery t src level s) := by
  unfold execVectorDelivery
  split
  · exact ⟨_, rfl⟩
  · exact .ite ⟨_, rfl⟩ (.ite ⟨_, rfl⟩ ⟨_, rfl⟩)

theorem execModerationGapEnd_completes {d t} : completes (execModerationGapEnd d t s) := by
  unfold execModerationGapEnd
  split
  · exact .ite ⟨_, rfl⟩ (.ite ⟨_, rfl⟩ ⟨_, rfl⟩)
  · refine .ite ⟨_, rfl⟩ ?_
    split <;> exact ⟨_, rfl⟩

theorem execSensorSample_completes {x} : completes (execSensorSample x s) := by
  cases x with
  | temp => exact .ite ⟨_, rfl⟩ ⟨_, rfl⟩
  | rail => exact .ite ⟨_, rfl⟩ ⟨_, rfl⟩
  | pace => exact .ite ⟨_, rfl⟩ ⟨_, rfl⟩
  | age => exact .ite ⟨_, rfl⟩ ⟨_, rfl⟩

theorem execGovFallback_completes : completes (execGovFallback s) := by
  unfold execGovFallback
  split <;> exact ⟨_, rfl⟩

theorem execGovReturn_completes : completes (execGovReturn s) := by
  unfold execGovReturn
  split
  · exact .ite ⟨_, rfl⟩ ⟨_, rfl⟩
  · exact ⟨_, rfl⟩

theorem execLogIntake_completes : completes (execLogIntake s) := by
  unfold execLogIntake
  split
  · exact ⟨_, rfl⟩
  · exact .ite ⟨_, rfl⟩ ⟨_, rfl⟩

theorem execDebugUnlock_completes {sig} : completes (execDebugUnlock sig s) := by
  unfold execDebugUnlock
  split
  · exact ⟨_, rfl⟩
  · exact .ite ⟨_, rfl⟩ ⟨_, rfl⟩

theorem execWarmReset_completes {c} : completes (execWarmReset c s) := by
  cases c with
  | register d v => exact .ite ⟨_, rfl⟩ (.ite ⟨_, rfl⟩ (.ite ⟨_, rfl⟩ ⟨_, rfl⟩))
  | smbus => exact .ite ⟨_, rfl⟩ ⟨_, rfl⟩
  | belayFault => exact ⟨_, rfl⟩
  | recovered => exact .ite ⟨_, rfl⟩ ⟨_, rfl⟩

theorem execSelfTestForcedStart_completes : completes (execSelfTestForcedStart s) := by
  unfold execSelfTestForcedStart
  split
  · exact .ite ⟨_, rfl⟩ ⟨_, rfl⟩
  · exact .ite ⟨_, rfl⟩ ⟨_, rfl⟩

theorem execPtpMessageInterval_completes {k m} : completes (execPtpMessageInterval k m s) := by
  cases m with
  | sync => exact .ite ⟨_, rfl⟩ (.ite ⟨_, rfl⟩ ⟨_, rfl⟩)
  | pdelayReq => exact .ite ⟨_, rfl⟩ ⟨_, rfl⟩
  | announce => exact .ite ⟨_, rfl⟩ (.ite ⟨_, rfl⟩ ⟨_, rfl⟩)

theorem execUnsupportedMctpMessage_completes {packets} : completes (execUnsupportedMctpMessage packets s) := by
  unfold execUnsupportedMctpMessage
  split
  · exact ⟨_, rfl⟩
  · exact .ite State.whileUp_completes (.ite State.whileUp_completes ⟨_, rfl⟩)

/-! ### Register writes -/

/-- A function has 64 rings at most. -/
theorem State.liveSubmission_length (s : State) (d : Dom) : (s.liveSubmission d).length ≤ 64 :=
  (List.length_filter_le _ _).trans (List.length_finRange (n := 64)).le

/-- A kick finds an index for each ring that it names in 64 words (R67). -/
theorem execDevKick_completes {d v words} (h : 64 ≤ words.length) : completes (execDevKick d v words s) := by
  unfold execDevKick
  extract_lets r ns
  have hns : ¬words.length < ns.length := not_lt.2 ((s.liveSubmission_length d).trans h)
  rw [if_neg hns]
  refine .ite ⟨_, rfl⟩ (.ite ⟨_, rfl⟩ ?_)
  split
  · exact ⟨_, rfl⟩
  · refine .ite ⟨_, rfl⟩ ?_
    split
    · simp at h
    · exact ⟨_, rfl⟩

theorem State.fnWrite_completes {d e q mask v x} : completes (s.fnWrite d e q mask v x) := by
  unfold State.fnWrite
  cases q with
  | kick => exact execDevKick_completes (by rw [State.kickWords, List.length_map, List.length_range])
  | _ => exact ⟨_, rfl⟩

theorem State.devWrite_completes {d q mask v x} : completes (s.devWrite d q mask v x) := by
  unfold State.devWrite
  cases q with
  | rst => exact execWarmReset_completes
  | _ => exact ⟨_, rfl⟩

theorem State.tmuWrite_completes {d q w mask v x} : completes (s.tmuWrite d q w mask v x) := by
  unfold State.tmuWrite
  cases q with
  | rate => exact State.ownedWrite_completes
  | _ => exact ⟨_, rfl⟩

theorem State.crnWrite_completes {d q mask v x} : completes (s.crnWrite d q mask v x) := by
  unfold State.crnWrite
  cases q with
  | _ => exact ⟨_, rfl⟩

theorem State.ringRequest_completes {d n v} : completes (s.ringRequest d n v) := .ite ⟨_, rfl⟩ (.ite ⟨_, rfl⟩ (.ite ⟨_, rfl⟩ ⟨_, rfl⟩))

theorem State.regWrite_completes {d r w mask v x} : completes (s.regWrite d r w mask v x) := by
  unfold State.regWrite
  cases r with
  | fn => exact State.fnWrite_completes
  | dev => exact State.devWrite_completes
  | tmu => exact State.tmuWrite_completes
  | crn => exact State.crnWrite_completes
  | ring => exact .ite State.ringRequest_completes ⟨_, rfl⟩
  | port => exact .ite ⟨_, rfl⟩ (.ite ⟨_, rfl⟩ (.ite ⟨_, rfl⟩ ⟨_, rfl⟩))
  | grp => exact .ite ⟨_, rfl⟩ (.ite ⟨_, rfl⟩ ⟨_, rfl⟩)
  | fab => exact .ite ⟨_, rfl⟩ (.ite ⟨_, rfl⟩ ⟨_, rfl⟩)
  | out | rl | evcMod | evcClaim | evcPri => exact .ite ⟨_, rfl⟩ ⟨_, rfl⟩
  | ep => exact .ite State.ownedWrite_completes ⟨_, rfl⟩
  | evcEoi => exact execEvcEoi_completes
  | _ => exact ⟨_, rfl⟩

theorem State.bar0Write_completes {d off w v} : completes (s.bar0Write d off w v) := by
  unfold State.bar0Write
  dsimp only
  refine .ite ⟨_, rfl⟩ (.ite (.ite ⟨_, rfl⟩ ⟨_, rfl⟩) ?_)
  split
  · exact ⟨_, rfl⟩
  · exact .ite ⟨_, rfl⟩ (.ite ⟨_, rfl⟩ (.ite ⟨_, rfl⟩
      (.ite State.regWrite_completes (.ite State.regWrite_completes State.regWrite_completes))))

theorem execRegisterWrite_completes {d t w v} : completes (execRegisterWrite d t w v s) := by
  cases t with
  | bar0 => exact State.bar0Write_completes
  | _ => exact .ite ⟨_, rfl⟩ ⟨_, rfl⟩

end commands

/-! ### Commands that may stop -/

section stopping
variable {s : State} {bad : Prop}

theorem execErrorDetected_stopsFor {p e} : (execErrorDetected p e s).StopsFor bad (∃ p, s.otherFamily p = true) := by
  unfold execErrorDetected
  refine .family (.ite trivial (.ite trivial ?_))
  split
  · exact .ite trivial trivial
  · trivial

theorem execFrameReceived_stopsFor {p f t arrived} : (execFrameReceived p f t arrived s).StopsFor bad (∃ p, s.otherFamily p = true) := by
  unfold execFrameReceived
  refine .family ?_
  split
  · exact .ite trivial (.ite trivial (.ite trivial trivial))
  · exact .ite trivial trivial

theorem execPayloadLoaded_stopsFor {p c reread bytes} {foreign : Prop} :
    (execPayloadLoaded p c reread bytes s).StopsFor (fits (.payloadLoaded p c reread bytes) s = false) foreign := by
  unfold execPayloadLoaded
  dsimp only
  split
  · trivial
  next k hk =>
    refine .ite trivial ?_
    split
    · exact .length fun h => by simp [fits, hk, h]
    · exact .ite trivial (.ite trivial trivial)

/-- With fewer than 64 words a kick may miss one that it reads (R67). -/
theorem execDevKick_stopsFor {d v words} {foreign : Prop} :
    (execDevKick d v words s).StopsFor (fits (.devKick d v words) s = false) foreign := by
  by_cases h : 64 ≤ words.length
  · exact (execDevKick_completes h).stopsFor
  · have hbad : fits (.devKick d v words) s = false := decide_eq_false h
    unfold execDevKick
    extract_lets r ns
    refine .ite trivial (.ite (.length fun _ => hbad) ?_)
    split
    · trivial
    · refine .ite trivial ?_
      split
      · exact hbad
      · trivial

/-- The one way in which each command may stop (R392; logs 12 and 13). -/
theorem exec_stopsFor (i : Instr) (s : State) : Result.StopsFor (fits i s = false) (∃ p, s.otherFamily p = true) (exec i s) := by
  cases i with
  | bankSupplyLoss | powerOnReset | bankSupplyReturn | perstHigh => trivial
  | ringPoll | cqStallPoll | ringDisableDone | txFrame | nop | objRead | objReadCopyDone | objSend | hold | offsetSample | keyGen | keyErase
  | challenge | logRead | imgActivate | selfTest | trvRead | rtRead | fabTopoRead | flr | pfFlr | hostReset | wakeEdge | wakeFrame | busIntegrated
  | recoverySeqEnd | suspendEnd | ref25Loss | ref25Lock | refHoldoverExpiry | colTravelEnd | pairInserted | branchJoin | stuckIsolate | rejoinSeqEnd
  | listenTimeout | coldstartBackoffEnd | refBackupTimeout | tmuLatchRead | epochPass | servoHoldover | ppsEdge | evtInEdge | beaconDue | epLinkLoss
  | anRestart | ethFrameReceived | rlAligned | rlFault | helloTimer | helloTimeout | keyxTimer | topoTimer | addrReqTimer | creditReport
  | creditReportTimer | timeSyncTimer | colfTravelEnd | routeRecompute | coreFault | offlineFallback | raiseConfirmed | raiseTimeout | setEndpointId
  | getEndpointId | getEndpointUuid | getMctpVersionSupport | getMessageTypeSupport | getVendorDefinedMsgSupport | getSensors | setMode | getAttest
  | getLog | stage | activate | getStatus | smbusReset | clearAlert | alertResponse | stagingHolderTimeout | imgConfirm | imgRevert | svcRestart
  | scrub | debugUnlockRequest | boot | svcRestartEnd | announceReceiptTimeout | rlFrameDiscard | invalidOpcodeDescriptor =>
    exact .ite trivial trivial
  | domainEntry | dmaWindowRecord | routeAssign | reclaim | dbbEnable | tsqEnable | portEnable | portDisable | portStart | portStop | portRestart
  | portSleep | portWake | objLoad | objCommit | fltRead | fltWrite | groupStart | groupStop | groupStopEffect | groupRejoin | groupRestart | starSof
  | tmuRateWrite | tmuStep | servoEnable | evtoutEnable | epEnable | ptpProfileWrite | rlEnable | fabEnable | fabTimeWrite | devSwap | retest
  | reload | halt | engineTestEnd | gwRead | modeWrite | govWrite | logClear => exact .ite trivial (.ite trivial trivial)
  | rxBuf | cycleStart => exact .ite (.ite trivial trivial) trivial
  | ringEnable | ringDisable | portStopEffect | coreTestEnd => exact .ite trivial (.ite trivial (.ite trivial trivial))
  | epLinkUp => exact .ite trivial (.ite (.ite trivial trivial) trivial)
  | hello | keyx | topo | addrReq | addrAssign | routed | timeSync | timeReply => exact .ite trivial State.rlTake_completes.stopsFor
  | ethTx => exact .ite (.length fun h => by simp [fits, Instr.wf, h.2]) trivial
  | objWrite | keyLoad | ownerEnrol | ownerRelease | retire | rmaEnter | attest | imgWrite | gwRule | trvWrite | rtWrite =>
    exact .ite trivial (.length fun h => by simp_all [fits, Instr.wf, sigOk, State.readsSig, trvCount, rtCount])
  | startDecision => exact .family (.ite trivial (.ite (.ite trivial trivial) (.ite trivial trivial)))
  | attemptEnd => exact .ite trivial (.family trivial)
  | errorDetected => exact execErrorDetected_stopsFor
  | frameReceived => exact execFrameReceived_stopsFor
  | payloadLoaded => exact execPayloadLoaded_stopsFor
  | devKick => exact execDevKick_stopsFor
  | recordComplete => exact execRecordComplete_completes.stopsFor
  | registerWrite => exact execRegisterWrite_completes.stopsFor
  | challengeExpiry => exact execChallengeExpiry_completes.stopsFor
  | selfTestEnd => exact execSelfTestEnd_completes.stopsFor
  | flrComplete => exact execFlrComplete_completes.stopsFor
  | attemptCommit => exact execAttemptCommit_completes.stopsFor
  | candidateExpiry => exact execCandidateExpiry_completes.stopsFor
  | holdTakesEffect => exact execHoldTakesEffect_completes.stopsFor
  | holdExpiry => exact execHoldExpiry_completes.stopsFor
  | filterEval => exact execFilterEval_completes.stopsFor
  | bufWaitExpiry => exact execBufWaitExpiry_completes.stopsFor
  | windowCloseCut => exact execWindowCloseCut_completes.stopsFor
  | slotMissed => exact execSlotMissed_completes.stopsFor
  | servoSample => exact execServoSample_completes.stopsFor
  | pulseEdge => exact execPulseEdge_completes.stopsFor
  | pauseEnd => exact execPauseEnd_completes.stopsFor
  | ethTxEnd => exact execEthTxEnd_completes.stopsFor
  | topoExpiry => exact execTopoExpiry_completes.stopsFor
  | linkTxStart => exact execLinkTxStart_completes.stopsFor
  | engineLoss => exact execEngineLoss_completes.stopsFor
  | engineLoadDone => exact execEngineLoadDone_completes.stopsFor
  | takeoverDone => exact execTakeoverDone_completes.stopsFor
  | swapQuietPoint => exact execSwapQuietPoint_completes.stopsFor
  | swapTimeout => exact execSwapTimeout_completes.stopsFor
  | dutyMoveDone => exact execDutyMoveDone_completes.stopsFor
  | gwInput => exact execGwInput_completes.stopsFor
  | gwGapEnd => exact execGwGapEnd_completes.stopsFor
  | evcClaim => exact execEvcClaim_completes.stopsFor
  | evcEoi => exact execEvcEoi_completes.stopsFor
  | vectorDelivery => exact execVectorDelivery_completes.stopsFor
  | moderationGapEnd => exact execModerationGapEnd_completes.stopsFor
  | sensorSample => exact execSensorSample_completes.stopsFor
  | govFallback => exact execGovFallback_completes.stopsFor
  | govReturn => exact execGovReturn_completes.stopsFor
  | logIntake => exact execLogIntake_completes.stopsFor
  | debugUnlock => exact execDebugUnlock_completes.stopsFor
  | warmReset => exact execWarmReset_completes.stopsFor
  | selfTestForcedStart => exact execSelfTestForcedStart_completes.stopsFor
  | ptpMessageInterval => exact execPtpMessageInterval_completes.stopsFor
  | unsupportedMctpMessage => exact execUnsupportedMctpMessage_completes.stopsFor

end stopping

/-- Settles O6: by cases over the commands, each of which completes but for the length of its data operand or the family of its port's image. -/
theorem stopsOnlyByName : Obligations.StopsOnlyByName := by
  unfold Obligations.StopsOnlyByName
  refine ⟨fun i s => ?_, fun i s hfam h => ?_, fun i s hfam hfits => ?_⟩
  · exact (exec_stopsFor i s).cases.imp_right (.imp And.left And.left)
  · have hstop := exec_stopsFor i s
    rw [h] at hstop
    obtain ⟨p, hp⟩ := hstop
    exact Bool.false_ne_true ((hfam p).symm.trans hp)
  · rcases (exec_stopsFor i s).cases with h | ⟨-, hbad⟩ | ⟨-, p, hp⟩
    · exact h
    · exact absurd (hfits.symm.trans hbad) nofun
    · exact absurd ((hfam p).symm.trans hp) nofun

end Sys2Proof.Machine

namespace Sys2Proof.Machine

/-! ### The records of engines, cores and duties, and the event bits of the crossbar (R387 to R412) -/

section spurRecords
variable {s : State}

@[simp] theorem State.engine_setEngine_same (s : State) (e : EngId) (x : Engine) : (s.setEngine e x).engine e = x := by
  simp [State.engine, State.setEngine]

theorem State.engine_setEngine_other (s : State) {e f : EngId} (x : Engine) (h : f ≠ e) : (s.setEngine e x).engine f = s.engine f := by
  simp only [State.engine, State.setEngine]
  exact Vector.getElem_set_ne _ _ fun hv => h (Fin.ext hv.symm)

@[simp] theorem State.core_setCore_same (s : State) (c : CoreId) (x : Core) : (s.setCore c x).core c = x := by
  simp [State.core, State.setCore]

theorem State.core_setCore_other (s : State) {c b : CoreId} (x : Core) (h : b ≠ c) : (s.setCore c x).core b = s.core b := by
  simp only [State.core, State.setCore]
  exact Vector.getElem_set_ne _ _ fun hv => h (Fin.ext hv.symm)

/-- The record of a duty (R408). -/
def State.duty (s : State) (u : Fin 4) : DutySt := s.spur.duties[u]

@[simp] theorem State.duty_setDuty_same (s : State) (u : Fin 4) (x : DutySt) : (s.setDuty u x).duty u = x := by
  simp [State.duty, State.setDuty]

theorem State.duty_setDuty_other (s : State) {u w : Fin 4} (x : DutySt) (h : w ≠ u) : (s.setDuty u x).duty w = s.duty w := by
  simp only [State.duty, State.setDuty]
  exact Vector.getElem_set_ne _ _ fun hv => h (Fin.ext hv.symm)

/-- An event bit of the crossbar is set, and stays set as others are. -/
theorem State.seEvt_rb (s : State) (i : Nat) (hi : i < 64) : (s.seEvt i).rb (.dev .seevt) i = true := by
  rw [State.rb, State.seEvt, State.reg_raise_same, bit_setBit_self _ hi]

theorem State.seEvt_rb_stays (i : Nat) {j : Nat} (hj : j < 64) (h : s.rb (.dev .seevt) j = true) : (s.seEvt i).rb (.dev .seevt) j = true := by
  rw [State.rb, State.seEvt, State.reg_raise_same]
  exact bit_setBit_of_bit i hj h

theorem State.seEvt_reg (s : State) (i : Nat) {r : Reg} (h : r ≠ .dev .seevt) : (s.seEvt i).reg r = s.reg r := State.reg_raise_other _ _ _ _ h

/-- What every command ends with leaves the records of the crossbar. -/
theorem State.spur_ended (u : State) : u.noteMay.announce.spur = u.spur := by rw [State.announce_spur, State.noteMay_spur]

theorem State.devRb_ended (u : State) (q : DevReg) (i : Nat) : u.noteMay.announce.rb (.dev q) i = u.rb (.dev q) i := by
  rw [State.announce_rb _ _ _ (show blockOf (.dev q) ≠ .guard from nofun), State.noteMay_rb]

theorem State.engine_ended (u : State) (e : EngId) : u.noteMay.announce.engine e = u.engine e := by rw [State.engine, State.spur_ended, State.engine]

theorem State.core_ended (u : State) (c : CoreId) : u.noteMay.announce.core c = u.core c := by rw [State.core, State.spur_ended, State.core]

end spurRecords

/-! ### DEV_SWAP and DEV_SECMD as they are written (R405, R412) -/

section words
variable {s : State} {d : Dom} {v : Word}

/-- A field of acc takes that of w where it differs from the one of old. -/
def takeFld (old w : DWord) (lo n : Nat) (acc : DWord) : DWord := if fld w lo n = fld old lo n then acc else putFld acc lo n (fld w lo n)

theorem fld_putFld_same (w : DWord) {lo n : Nat} (v : Nat) (h : lo + n ≤ 64) : fld (putFld w lo n v) lo n = v % 2 ^ n := by
  refine Nat.eq_of_testBit_eq fun j => ?_
  rw [testBit_fld, Nat.testBit_mod_two_pow]
  by_cases hj : j < n
  · rw [getLsbD_putFld _ _ _ _ _ (by omega), if_pos (by omega), Nat.add_sub_cancel_left]
  · simp [hj]

theorem fld_putFld_other (w : DWord) {lo n lo' n' : Nat} (v : Nat) (h : lo' + n' ≤ lo ∨ lo + n ≤ lo') (h64 : lo' + n' ≤ 64) :
    fld (putFld w lo n v) lo' n' = fld w lo' n' :=
  fld_eq_iff.2 fun i hlo hi => by rw [getLsbD_putFld _ _ _ _ _ (by omega), if_neg (by omega)]

theorem fld_takeFld_same {old w acc : DWord} {lo n : Nat} (hacc : fld acc lo n = fld old lo n) (h : lo + n ≤ 64) :
    fld (takeFld old w lo n acc) lo n = fld w lo n := by
  unfold takeFld
  split
  next heq => rw [hacc, heq]
  next => rw [fld_putFld_same _ _ h, fld, Nat.mod_mod]

theorem fld_takeFld_other (old w acc : DWord) {lo n lo' n' : Nat} (h : lo' + n' ≤ lo ∨ lo + n ≤ lo') (h64 : lo' + n' ≤ 64) :
    fld (takeFld old w lo n acc) lo' n' = fld acc lo' n' := by
  unfold takeFld
  split
  · rfl
  · exact fld_putFld_other _ _ h h64

/-- A register after the write of a 32-bit word, before access codes (R18). -/
def lowWritten (old : DWord) (v : Word) : DWord := (old &&& ~~~ mask32) ||| (v.setWidth 64 &&& mask32)

theorem fld_lowWritten (old : DWord) (v : Word) {lo n : Nat} (h : lo + n ≤ 32) : fld (lowWritten old v) lo n = v.toNat / 2 ^ lo % 2 ^ n := by
  have hv : fld (lowWritten old v) lo n = fld (v.setWidth 64) lo n := by
    refine fld_eq_iff.2 fun i _ hi => ?_
    have hm : mask32.getLsbD i = true := by
      rw [show mask32 = ones 0 32 from by decide, getLsbD_ones]
      simp; omega
    simp [lowWritten, hm]
  have hlt : v.toNat < 2 ^ 64 := by have := v.isLt; omega
  rw [hv, fld, Nat.shiftRight_eq_div_pow, BitVec.toNat_setWidth, Nat.mod_eq_of_lt hlt]

/-- UNIT is the one field of DEV_SECMD that a write leaves behind (R412). -/
theorem State.fieldWrite_secmd (hidle : s.spur.cmdUnit = none) :
    (s.fieldWrite d (.dev .secmd) mask32 (v.setWidth 64) (fun _ => false)).1 =
      takeFld (s.reg (.dev .secmd)) (lowWritten (s.reg (.dev .secmd)) v) 0 6 (s.reg (.dev .secmd)) := by
  have hok : s.fieldOk d (.dev .secmd) ⟨0, 6, .rw, 0⟩ = true := by rw [State.fieldOk, hidle]; rfl
  have hfields : (Reg.dev .secmd).fields.filter (fun f => !(fun _ => false) f) = [⟨0, 6, .rw, 0⟩, ⟨8, 2, .wo, 0⟩] := rfl
  unfold State.fieldWrite takeFld
  rw [hfields]
  simp only [List.foldl_cons, List.foldl_nil, hok, if_true]
  rw [apply_ite Prod.fst]
  rfl

/-- PORT and IMAGE are what a write of DEV_SWAP leaves behind (R405). -/
theorem State.fieldWrite_swap (hidle : s.spur.swap = none) :
    (s.fieldWrite d (.dev .swap) mask32 (v.setWidth 64) (fun _ => false)).1 =
      takeFld (s.reg (.dev .swap)) (lowWritten (s.reg (.dev .swap)) v) 8 2
        (takeFld (s.reg (.dev .swap)) (lowWritten (s.reg (.dev .swap)) v) 0 5 (s.reg (.dev .swap))) := by
  have hok : ∀ f : Field, f.acc = .rw → s.fieldOk d (.dev .swap) f = true := fun f hf => by
    unfold State.fieldOk
    rw [hf, hidle]
    rfl
  have hfields : (Reg.dev .swap).fields.filter (fun f => !(fun _ => false) f) = [⟨0, 5, .rw, 0⟩, ⟨8, 2, .rw, 0⟩, ⟨15, 1, .wo, 0⟩] := rfl
  unfold State.fieldWrite takeFld
  rw [hfields]
  simp only [List.foldl_cons, List.foldl_nil, hok, if_true]
  rw [apply_ite Prod.fst, apply_ite Prod.fst]
  rfl

/-- Register r holds w, and what its write recorded is in the log. -/
def State.written (s : State) (r : Reg) (w : DWord) (g : Log) : State := { s.setReg r w with log := g }

theorem State.written_rf (s : State) (r : Reg) (w : DWord) (g : Log) (lo n : Nat) : (s.written r w g).rf r lo n = fld w lo n :=
  congrArg (fld · lo n) (State.reg_setReg_same s r w)

theorem State.written_rf_other (s : State) {r q : Reg} (w : DWord) (g : Log) (lo n : Nat) (h : q ≠ r) : (s.written r w g).rf q lo n = s.rf q lo n :=
  congrArg (fld · lo n) (State.reg_setReg_other s r q w h)

/-- A write of DEV_SECMD that is carried out leaves its UNIT; beyond that register only the log may differ. -/
theorem State.writeFields_secmd (hidle : s.spur.cmdUnit = none) :
    ∃ w g, s.writeFields d (.dev .secmd) mask32 (v.setWidth 64) (fun _ => false) = s.written (.dev .secmd) w g ∧ fld w 0 6 = v.toNat % 64 := by
  obtain ⟨g, hg⟩ := s.writeFields_eq d (.dev .secmd) mask32 (v.setWidth 64) (fun _ => false)
  refine ⟨_, g, hg, ?_⟩
  rw [State.fieldWrite_secmd hidle, fld_takeFld_same rfl (by decide), fld_lowWritten _ _ (by decide), pow_zero, Nat.div_one]
  rfl

/-- A write of DEV_SWAP while no swap runs leaves PORT and IMAGE (R405). -/
theorem State.writeFields_swap (hidle : s.spur.swap = none) :
    ∃ w g, s.writeFields d (.dev .swap) mask32 (v.setWidth 64) (fun _ => false) = s.written (.dev .swap) w g ∧ fin 32 (fld w 0 5) = fin 32 v.toNat ∧
      fin 4 (fld w 8 2) = fin 4 (v.toNat / 256) := by
  obtain ⟨g, hg⟩ := s.writeFields_eq d (.dev .swap) mask32 (v.setWidth 64) (fun _ => false)
  refine ⟨_, g, hg, ?_, ?_⟩
  · rw [State.fieldWrite_swap hidle, fld_takeFld_other _ _ _ (by decide) (by decide), fld_takeFld_same rfl (by decide), fld_lowWritten _ _ (by decide),
      pow_zero, Nat.div_one]
    exact Fin.ext (Nat.mod_mod _ _)
  · rw [State.fieldWrite_swap hidle, fld_takeFld_same (fld_takeFld_other _ _ _ (by decide) (by decide)) (by decide), fld_lowWritten _ _ (by decide)]
    exact Fin.ext (Nat.mod_mod _ _)

end words

end Sys2Proof.Machine

namespace Sys2Proof.Machine

/-! ### Duties that leave a core (R409 to R412) -/

section duties
variable {s : State} {c : CoreId} {u w : Fin 4} {forHalt : Bool}

/-- The duty neither runs on c nor moves to it. -/
def State.DutyOff (s : State) (c : CoreId) (u : Fin 4) : Prop := (s.duty u).core ≠ some c ∧ (s.duty u).moving ≠ some c

/-- A duty moves to a core that runs (R409). -/
theorem State.moveTarget_running {t : CoreId} (h : s.moveTarget = some t) : (s.core t).state = .running := by
  have hrun : ∀ l : List CoreId, (∀ b ∈ l, (s.core b).state = .running) → ∀ best : Option CoreId, (∀ b, best = some b → (s.core b).state = .running) →
      ∀ b, l.foldl (fun (b : Option CoreId) c => match b with
        | none => some c
        | some d => if s.dutiesOf c < s.dutiesOf d then some c else some d) best = some b → (s.core b).state = .running := by
    intro l
    induction l with
    | nil => exact fun _ _ hbest => hbest
    | cons c l ih =>
      intro hl best hbest
      refine ih (fun b hb => hl b (List.mem_cons_of_mem _ hb)) _ fun b hb => ?_
      have hc := hl c List.mem_cons_self
      cases best with
      | none => exact Option.some.inj hb ▸ hc
      | some d =>
        dsimp only at hb
        split at hb
        · exact Option.some.inj hb ▸ hc
        · exact hbest b hb
  refine hrun _ (fun b hb => ?_) none nofun t h
  simpa using (List.mem_filter.1 hb).2

/-- What State.moveDuties does for one duty (R409, R411). -/
def State.moveDuty (s : State) (c : CoreId) (forHalt : Bool) (u : Fin 4) : State :=
  let x := s.spur.duties[u]
  if x.core = some c ∨ x.moving = some c then
    let s := s.setDuty u { core := none, moving := none, forHalt := false }
    let s := if u = 3 then s.dropColdStart else s
    match s.moveTarget with
    | some t => s.setDuty u { core := none, moving := some t, forHalt := forHalt || x.forHalt }
    | none => s
  else s

theorem State.moveDuties_eq (s : State) (c : CoreId) (forHalt : Bool) :
    s.moveDuties c forHalt = dutyIds.foldl (fun s u => s.moveDuty c forHalt u) s := rfl

/-- Duty u is at most one record that may differ; the cores are as they were. -/
structure DutyMoved (s t : State) (u : Fin 4) : Prop where
  cores : t.spur.cores = s.spur.cores
  others : ∀ w, w ≠ u → t.duty w = s.duty w

theorem State.dropColdStart_spur (s : State) : s.dropColdStart.spur = s.spur := by
  have h : Only [.groups] s s.dropColdStart := State.dropColdStart_only (Only.refl s) (by decide)
  exact h.2 .spur (by decide)

theorem State.core_of_cores {t : State} (h : t.spur.cores = s.spur.cores) (b : CoreId) : t.core b = s.core b := by rw [State.core, h, State.core]

theorem State.moveDuty_moves (hc : (s.core c).state ≠ .running) (forHalt : Bool) (u : Fin 4) :
    DutyMoved s (s.moveDuty c forHalt u) u ∧ (s.moveDuty c forHalt u).DutyOff c u := by
  unfold State.moveDuty
  extract_lets x s1 s2
  have h1 : DutyMoved s s1 u := ⟨rfl, fun w hw => State.duty_setDuty_other _ _ hw⟩
  have hoff1 : s1.duty u = { core := none, moving := none, forHalt := false } := State.duty_setDuty_same _ _ _
  have hspur : s2.spur = s1.spur := by
    unfold s2
    split
    · exact s1.dropColdStart_spur
    · rfl
  have hduty : ∀ w, s2.duty w = s1.duty w := fun w => by rw [State.duty, hspur, State.duty]
  have h2 : DutyMoved s s2 u := ⟨by rw [hspur, h1.cores], fun w hw => (hduty w).trans (h1.others w hw)⟩
  split
  next =>
    split
    next t ht =>
      have hne : t ≠ c := fun e => hc (by rw [← State.core_of_cores h2.cores c, ← e, State.moveTarget_running ht])
      refine ⟨⟨h2.cores, fun w hw => (State.duty_setDuty_other _ _ hw).trans (h2.others w hw)⟩, ?_, ?_⟩
      · rw [State.duty_setDuty_same]
        exact nofun
      · rw [State.duty_setDuty_same]
        exact fun e => hne (Option.some.inj e)
    next =>
      refine ⟨h2, ?_, ?_⟩
      · rw [hduty, hoff1]
        exact nofun
      · rw [hduty, hoff1]
        exact nofun
  next h => exact ⟨⟨rfl, fun _ _ => rfl⟩, not_or.1 h⟩

/-- No duty is left on a core that does not run, and none on its way to it (R409). -/
theorem State.moveDuties_off (hc : (s.core c).state ≠ .running) (forHalt : Bool) :
    (s.moveDuties c forHalt).spur.cores = s.spur.cores ∧ ∀ u, (s.moveDuties c forHalt).DutyOff c u := by
  have hfold : ∀ (l : List (Fin 4)) (t : State), t.spur.cores = s.spur.cores →
      (l.foldl (fun s u => s.moveDuty c forHalt u) t).spur.cores = s.spur.cores ∧
        ∀ u, u ∈ l ∨ t.DutyOff c u → (l.foldl (fun s u => s.moveDuty c forHalt u) t).DutyOff c u := by
    intro l
    induction l with
    | nil => exact fun t ht => ⟨ht, fun u hu => hu.resolve_left List.not_mem_nil⟩
    | cons w l ih =>
      intro t ht
      obtain ⟨hmoved, hoff⟩ := State.moveDuty_moves (by rwa [State.core_of_cores ht c]) forHalt w
      obtain ⟨hcores, hall⟩ := ih _ (hmoved.cores.trans ht)
      refine ⟨hcores, fun u hu => hall u ?_⟩
      by_cases hw : u = w
      · exact .inr (hw ▸ hoff)
      · refine hu.imp (fun h => (List.mem_cons.1 h).resolve_left hw) fun h => ?_
        rwa [State.DutyOff, hmoved.others u hw]
  rw [State.moveDuties_eq]
  obtain ⟨hcores, hall⟩ := hfold dutyIds s rfl
  exact ⟨hcores, fun u => hall u (.inl (List.mem_finRange u))⟩

/-- A HALT that completes leaves cores and duties as they are (R412). -/
theorem State.haltDone_eq (s : State) : s.haltDone = s ∨ s.haltDone = s.endCmd 0x00 := by
  unfold State.haltDone
  split
  · split
    · exact .inr rfl
    · exact .inl rfl
  · exact .inl rfl

theorem State.haltDone_frame (s : State) : s.haltDone.spur.cores = s.spur.cores ∧ s.haltDone.spur.duties = s.spur.duties ∧ s.haltDone.ports = s.ports := by
  rcases s.haltDone_eq with h | h
  · rw [h]
    exact ⟨rfl, rfl, rfl⟩
  · rw [h]
    exact ⟨rfl, rfl, rfl⟩

theorem State.haltDone_duty (s : State) (u : Fin 4) : s.haltDone.duty u = s.duty u := by
  obtain ⟨-, hduties, -⟩ := s.haltDone_frame
  rw [State.duty, hduties, State.duty]

theorem State.haltDone_rb {i : Nat} (hi : i < 64) (h : s.rb (.dev .seevt) i = true) : s.haltDone.rb (.dev .seevt) i = true := by
  rcases s.haltDone_eq with he | he
  · rwa [he]
  · rw [he]
    exact State.seEvt_rb_stays 2 hi h

theorem State.moveDuties_ports (s : State) (c : CoreId) (forHalt : Bool) : (s.moveDuties c forHalt).ports = s.ports := by
  have h : Only [.groups, .spur] s (s.moveDuties c forHalt) := by apply State.moveDuties_only (Only.refl s) <;> decide
  exact h.2 .ports (by decide)

theorem State.windowRecord_spur (s : State) (agent : Nat) (cause : FaultCause) : (s.windowRecord agent cause).spur = s.spur := by
  cases cause with
  | window => exact State.record_spur _ _ _ _ _ _ _ _
  | _ => rfl

theorem State.windowRecord_reg (s : State) (agent : Nat) (cause : FaultCause) (r : Reg) : (s.windowRecord agent cause).reg r = s.reg r := by
  cases cause with
  | window => exact State.reg_record _ _ _ _ _ _ _ _ _
  | _ => rfl

/-- What is left where a core has stopped and its duties have moved: every other core as it was, and no duty on this one (R409, R412). -/
theorem State.stopped_leaves (hc : (s.core c).state ≠ .running) (forHalt : Bool) :
    (∀ b, (s.moveDuties c forHalt).haltDone.core b = s.core b) ∧ ∀ u, (s.moveDuties c forHalt).haltDone.DutyOff c u := by
  obtain ⟨hcores, hoff⟩ := State.moveDuties_off hc forHalt
  refine ⟨fun b => State.core_of_cores ((State.haltDone_frame _).1.trans hcores) b, fun u => ?_⟩
  rw [State.DutyOff, State.haltDone_duty]
  exact hoff u

end duties

/-! ### Faults, halts and tests of cores (R409 to R412) -/

section cores
variable {s : State} {c : CoreId}

theorem State.coreLost_ports (s : State) (c : CoreId) (cause : FaultCause) : (s.coreLost c cause).ports = s.ports := by
  have h : Only [.cairn, .groups, .intake, .regs .dev, .spur] s (s.coreLost c cause) := by
    apply State.coreLost_only (Only.refl s) <;> decide
  exact h.2 .ports (by decide)

theorem State.moveDuties_rb (s : State) (c : CoreId) (forHalt : Bool) (r : Reg) (i : Nat) : (s.moveDuties c forHalt).rb r i = s.rb r i := by
  have h : Only [.groups, .spur] s (s.moveDuties c forHalt) := by apply State.moveDuties_only (Only.refl s) <;> decide
  rw [State.rb, h.2 (.regs (blockOf r)) (by simp) r rfl, State.rb]

/-- A core that faults is FAULTED, with its event, before its duties move (R409). -/
theorem State.coreLost_eq (hrun : (s.core c).state = .running) (cause : FaultCause) :
    ∃ u : State, s.coreLost c cause = (u.moveDuties c false).haltDone ∧
      u.spur = (s.setCore c { s.core c with state := .faulted, cause := causeCode cause }).spur ∧ u.rb (.dev .seevt) 3 = true := by
  refine ⟨_, by rw [State.coreLost]; exact if_neg (not_not.2 hrun), ?_, ?_⟩
  · rw [State.windowRecord_spur, State.record_spur]
    rfl
  · rw [State.rb, State.windowRecord_reg, State.reg_record]
    exact State.seEvt_rb _ 3 (by decide)

theorem coreFault_leaves {cause : FaultCause} (hrun : (s.core c).state = .running) (hbreaks : breaks coreReaches cause = true) :
    Does (.coreFault c cause) s fun t => (t.core c).state = .faulted ∧ (t.core c).cause = causeCode cause ∧ t.rb (.dev .seevt) 3 = true ∧
      (∀ u : Fin 4, (t.spur.duties[u]).core ≠ some c ∧ (t.spur.duties[u]).moving ≠ some c) ∧ (∀ b, b ≠ c → t.core b = s.core b) ∧ t.ports = s.ports := by
  have he : exec (.coreFault c cause) s = finish (s.coreLost c cause) := if_neg (by simp [hrun, hbreaks])
  obtain ⟨u, hu, hspur, hbit⟩ := State.coreLost_eq hrun cause
  have hcore : ∀ b, u.core b = (s.setCore c { s.core c with state := .faulted, cause := causeCode cause }).core b :=
    State.core_of_cores (congrArg Spur.cores hspur)
  obtain ⟨hcores, hoff⟩ := State.stopped_leaves (s := u) (c := c) (by rw [hcore, State.core_setCore_same]; exact nofun) false
  refine .of_finish he ?_
  rw [State.devRb_ended, State.ports_ended, State.coreLost_ports, State.spur_ended]
  simp only [State.core_ended]
  rw [hu]
  refine ⟨?_, ?_, State.haltDone_rb (by decide) ?_, hoff, fun b hb => ?_, trivial⟩
  · rw [hcores, hcore, State.core_setCore_same]
  · rw [hcores, hcore, State.core_setCore_same]
  · rwa [State.moveDuties_rb]
  · rw [hcores, hcore, State.core_setCore_other _ _ hb]

theorem nth?_val {n : Nat} (i : Fin n) : nth? n i.val = some i := by
  simp [nth?]

theorem nth?_none {n i : Nat} (h : n ≤ i) : nth? n i = none := by
  simp [nth?, h]

section secmd
variable {d : Dom} {v : Word}

/-- A command of DEV_SECMD on an idle unit is carried out once its fields are written (R393, R412). -/
theorem State.writeSecmd_engine {e : EngId} (hidle : s.spur.cmdUnit = none) (hcmd : v.toNat / 256 % 4 ≠ 0) (hunit : v.toNat % 64 = e.val) :
    ∃ w g, s.writeSecmd d v = (s.written (.dev .secmd) w g).engineCmd e (v.toNat / 256 % 4) := by
  obtain ⟨w, g, hwritten, hw⟩ := State.writeFields_secmd (d := d) (v := v) hidle
  refine ⟨w, g, ?_⟩
  rw [State.writeSecmd]
  dsimp only
  rw [hidle]
  simp only [Option.isSome_none, Bool.false_and, Bool.false_eq_true, if_false, hwritten, hcmd, State.written_rf, hw, hunit, nth?_val]

theorem State.writeSecmd_core {c : CoreId} (hidle : s.spur.cmdUnit = none) (hcmd : v.toNat / 256 % 4 ≠ 0) (hunit : v.toNat % 64 = 0x38 + c.val) :
    ∃ w g, s.writeSecmd d v = (s.written (.dev .secmd) w g).coreCmd c (v.toNat / 256 % 4) := by
  obtain ⟨w, g, hwritten, hw⟩ := State.writeFields_secmd (d := d) (v := v) hidle
  refine ⟨w, g, ?_⟩
  have hnone : nth? 34 (0x38 + c.val) = none := nth?_none (by omega)
  rw [State.writeSecmd]
  dsimp only
  rw [hidle]
  simp only [Option.isSome_none, Bool.false_and, Bool.false_eq_true, if_false, hwritten, hcmd, State.written_rf, hw, hunit, hnone, Nat.le_add_right,
    if_true, Nat.add_sub_cancel_left, nth?_val]

/-- A write of DEV_SECMD by D0 reaches it (R393, R412). -/
theorem Writes.secmdRequest (hw : Writes s d 0) (v : Word) : s.secmdRequest d v = finish (s.writeSecmd d v) := hw.ownedWrite _ _ _

end secmd

/-- A HALT of a RUNNING core sets it HALTED before its duties move (R412). -/
theorem halt_exec {d : Dom} {v : Word} (hw : Writes s d 0) (hcmd : v.toNat / 256 % 4 = 3) (hunit : v.toNat % 64 = 0x38 + c.val)
    (hidle : s.spur.cmdUnit = none) (hrun : (s.core c).state = .running) :
    ∃ u : State, exec (.halt d v) s = finish (u.moveDuties c true).haltDone ∧ u.spur.cores = (s.setCore c { s.core c with state := .halted }).spur.cores ∧
      u.ports = s.ports := by
  have hne : v.toNat / 256 % 4 ≠ 0 := by omega
  have hfirst : ¬(v.toNat / 256 % 4 = 1 ∧ ((s.core c).state = .faulted ∨ (s.core c).state = .halted)) := fun h => by omega
  obtain ⟨w, g, he⟩ := State.writeSecmd_core (d := d) hidle hne hunit
  refine ⟨((s.written (.dev .secmd) w g).setCore c { s.core c with state := .halted }).cmdBusy (0x38 + c.val), (hw.secmdRequest v).trans ?_, rfl, rfl⟩
  rw [he]
  exact congrArg finish ((if_neg hfirst).trans (if_pos ⟨hcmd, hrun⟩))

theorem halt_leaves {d : Dom} {v : Word} (hw : Writes s d 0) (hcmd : v.toNat / 256 % 4 = 3) (hunit : v.toNat % 64 = 0x38 + c.val)
    (hidle : s.spur.cmdUnit = none) (hrun : (s.core c).state = .running) :
    Does (.halt d v) s fun t => (t.core c).state = .halted ∧ (∀ u : Fin 4, (t.spur.duties[u]).core ≠ some c ∧ (t.spur.duties[u]).moving ≠ some c) ∧
      (∀ b, b ≠ c → t.core b = s.core b) ∧ t.ports = s.ports := by
  obtain ⟨u, he, hset, hports⟩ := halt_exec hw hcmd hunit hidle hrun
  have hcore : ∀ b, u.core b = (s.setCore c { s.core c with state := .halted }).core b := State.core_of_cores hset
  obtain ⟨hcores, hoff⟩ := State.stopped_leaves (s := u) (c := c) (by rw [hcore, State.core_setCore_same]; exact nofun) true
  refine .of_finish he ?_
  rw [State.ports_ended, State.spur_ended]
  simp only [State.core_ended]
  refine ⟨?_, hoff, fun b hb => ?_, ?_⟩
  · rw [hcores, hcore, State.core_setCore_same]
  · rw [hcores, hcore, State.core_setCore_other _ _ hb]
  · rw [(State.haltDone_frame _).2.2, State.moveDuties_ports, hports]

/-- What a duty starts as its move ends is beyond the crossbar's records (R249, R294, R358). -/
theorem State.dutyStarts_frame (s : State) (u : Duty) :
    (s.dutyStarts u).spur = s.spur ∧ (s.dutyStarts u).ports = s.ports ∧ (s.dutyStarts u).reg (.dev .seevt) = s.reg (.dev .seevt) := by
  have h : Only [.fab, .groups, .regs .fab, .regs .fn, .regs .tmu, .tmu] s (s.dutyStarts u) := by
    apply State.dutyStarts_only (Only.refl s) <;> decide
  exact ⟨h.2 .spur (by decide), h.2 .ports (by decide), h.2 (.regs .dev) (by decide) _ rfl⟩

theorem dutyMoveDone_runs {u : Duty} (hmove : (s.spur.duties[dutyIx u]).moving = some c) :
    Does (.dutyMoveDone u) s fun t => (t.spur.duties[dutyIx u]).core = some c ∧ (t.spur.duties[dutyIx u]).moving = none ∧ t.rb (.dev .seevt) 4 = true ∧
      (∀ w : Fin 4, w ≠ dutyIx u → t.spur.duties[w] = s.spur.duties[w]) ∧ t.ports = s.ports := by
  let a := (s.setDuty (dutyIx u) { core := some c, moving := none, forHalt := false }).seEvt 4
  have he : exec (.dutyMoveDone u) s = finish (a.dutyStarts u).haltDone := by
    change execDutyMoveDone u s = _
    unfold execDutyMoveDone
    dsimp only
    rw [hmove]
  obtain ⟨hspur, hports, hreg⟩ := a.dutyStarts_frame u
  have hduty : ∀ w, (a.dutyStarts u).haltDone.duty w = (s.setDuty (dutyIx u) { core := some c, moving := none, forHalt := false }).duty w := fun w => by
    rw [State.haltDone_duty, State.duty, hspur]
    rfl
  refine .of_finish he ?_
  rw [State.devRb_ended, State.ports_ended, State.spur_ended]
  refine ⟨?_, ?_, State.haltDone_rb (by decide) ?_, fun w hw => ?_, ?_⟩
  · exact congrArg DutySt.core ((hduty _).trans (State.duty_setDuty_same _ _ _))
  · exact congrArg DutySt.moving ((hduty _).trans (State.duty_setDuty_same _ _ _))
  · rw [State.rb, hreg]
    exact State.seEvt_rb _ 4 (by decide)
  · exact (hduty w).trans (State.duty_setDuty_other _ _ hw)
  · rw [(State.haltDone_frame _).2.2, hports]
    rfl

/-- A core that runs takes duties, and the cores are as they were (R411). -/
theorem State.takeHome_cores (s : State) (c : CoreId) : (s.takeHome c).spur.cores = s.spur.cores := by
  unfold State.takeHome
  refine List.foldlRecOn (motive := fun t : State => t.spur.cores = s.spur.cores) _ _ rfl fun t ht u _ => ?_
  dsimp only
  split
  · exact ht
  · exact ht

theorem State.takeHome_regs (s : State) (c : CoreId) : (s.takeHome c).regs = s.regs := by
  unfold State.takeHome
  refine List.foldlRecOn (motive := fun t : State => t.regs = s.regs) _ _ rfl fun t ht u _ => ?_
  dsimp only
  split
  · exact ht
  · exact ht

theorem coreTestEnd_runs (htest : (s.core c).state = .testing) (hfw : s.gatewayFw = true) :
    Does (.coreTestEnd c true) s fun t => (t.core c).state = .running ∧ t.spur.cmdUnit = none ∧ t.spur.cmdResult = 0x00 ∧ t.rb (.dev .seevt) 2 = true ∧
      (∀ b, b ≠ c → t.core b = s.core b) ∧ OtherRegs s t [.dev .seevt] := by
  have he : exec (.coreTestEnd c true) s = finish ((s.coreRuns c).endCmd 0x00) := by
    change execCoreTestEnd c true s = _
    unfold execCoreTestEnd
    simp [htest, hfw]
  let x : Core := { s.core c with state := .running, wantsFw := false, runAt := s.raw }
  have hcore : ∀ b, ((s.coreRuns c).endCmd 0x00).core b = (s.setCore c x).core b := State.core_of_cores (State.takeHome_cores _ c)
  refine .of_finish he ?_
  rw [State.devRb_ended, State.spur_ended]
  simp only [State.core_ended]
  refine ⟨?_, rfl, rfl, State.seEvt_rb _ 2 (by decide), fun b hb => ?_, .of_reg fun r hr => ?_⟩
  · rw [hcore, State.core_setCore_same]
  · rw [hcore, State.core_setCore_other _ _ hb]
  · rw [State.endCmd, State.seEvt_reg _ _ hr]
    exact congrArg (RegFile.get · r) (State.takeHome_regs _ c)

theorem coreTestEnd_faults (htest : (s.core c).state = .testing) :
    Does (.coreTestEnd c false) s fun t => (t.core c).state = .faulted ∧ (t.core c).cause = 5 ∧ t.spur.cmdResult = 0x02 ∧ t.rb (.dev .seevt) 3 = true ∧
      OtherRegs s t [.dev .seevt] := by
  let a := (s.setCore c { s.core c with state := .faulted, cause := 5 }).seEvt 3
  have he : exec (.coreTestEnd c false) s = finish (a.endCmd 0x02) := by
    change execCoreTestEnd c false s = _
    unfold execCoreTestEnd
    simp [htest, a]
  have hcore : (a.endCmd 0x02).core c = { s.core c with state := .faulted, cause := 5 } := State.core_setCore_same _ _ _
  refine .of_finish he ?_
  rw [State.devRb_ended, State.spur_ended]
  simp only [State.core_ended]
  rw [hcore]
  refine ⟨rfl, rfl, rfl, State.seEvt_rb_stays 2 (by decide) (State.seEvt_rb _ 3 (by decide)), .of_reg fun r hr => ?_⟩
  rw [State.endCmd, State.seEvt_reg _ _ hr]
  exact State.seEvt_reg _ _ hr

end cores
/-- Settles O52: a core that has stopped is no target of a duty's move, so the moves of its duties leave none on it and none on its way to it. -/
theorem gatewayCores : Obligations.GatewayCores := by
  unfold Obligations.GatewayCores
  exact ⟨fun _ _ _ hrun hbreaks => coreFault_leaves hrun hbreaks,
    fun _ _ _ _ hw hcmd hunit hidle hrun => halt_leaves hw hcmd hunit hidle hrun,
    fun _ _ _ hmove => dutyMoveDone_runs hmove,
    fun _ _ htest hfw => coreTestEnd_runs htest hfw,
    fun _ _ htest => coreTestEnd_faults htest⟩

end Sys2Proof.Machine

namespace Sys2Proof.Machine

/-! ### The choice of a spare, attachments, and engines that enter STANDBY (R387 to R405) -/

section spares
variable {s t : State} {e f : EngId} {p : PortId} {i : Fin 4}

/-- What the choice of a spare looks at is the same of every engine (R401). -/
def SameSpares (s t : State) : Prop :=
  ∀ f, ((t.engine f).state = .standby ↔ (s.engine f).state = .standby) ∧ (t.engine f).held = (s.engine f).held ∧ (t.engine f).image = (s.engine f).image

theorem SameSpares.standby (h : SameSpares s t) : t.standby = s.standby := by
  unfold State.standby
  exact List.filter_congr fun f _ => decide_eq_decide.2 (h f).1

theorem SameSpares.pickSpare (h : SameSpares s t) (i : Fin 4) : t.pickSpare i = s.pickSpare i := by
  have hpick : (fun e => (t.engine e).held && (t.engine e).image == i) = fun e => (s.engine e).held && (s.engine e).image == i := funext fun e => by
    obtain ⟨-, hheld, himage⟩ := h e
    rw [hheld, himage]
  rw [State.pickSpare, h.standby, hpick, State.pickSpare]

/-- A spare is an engine in STANDBY (R401). -/
theorem State.pickSpare_standby {b : Bool} (h : s.pickSpare i = some (e, b)) : (s.engine e).state = .standby := by
  have hmem : e ∈ s.standby := by
    unfold State.pickSpare at h
    split at h
    next f hf =>
      obtain ⟨rfl, -⟩ := Prod.mk.inj (Option.some.inj h)
      exact List.mem_of_find?_eq_some hf
    next =>
      obtain ⟨f, hf, hfe⟩ := Option.map_eq_some_iff.1 h
      obtain ⟨rfl, -⟩ := Prod.mk.inj hfe
      exact List.mem_of_mem_head? hf
  simpa using (List.mem_filter.1 hmem).2

theorem State.pickSpare_none (h : s.standby = []) (i : Fin 4) : s.pickSpare i = none := by
  unfold State.pickSpare
  rw [h]
  rfl

/-- Attaching changes the crossbar and the windows of engines only (R387, R388). -/
theorem State.attach_eq (s : State) (p : PortId) (x : Option EngId) :
    ∃ es, s.attach p x = { s with spur := { s.spur with attached := s.spur.attached.set p x, engines := es } } := by
  unfold State.attach
  cases s.spur.attached[p] with
  | none => cases x <;> exact ⟨_, rfl⟩
  | some o => cases x <;> exact ⟨_, rfl⟩

/-- The engines are the same but for their windows. -/
def SameButWindows (s t : State) : Prop := ∀ f, ∃ w, t.engine f = { s.engine f with windows := w }

theorem SameButWindows.refl (s : State) : SameButWindows s s := fun f => ⟨(s.engine f).windows, rfl⟩

theorem SameButWindows.of_engines (h : t.spur.engines = s.spur.engines) : SameButWindows s t := fun f =>
  ⟨(s.engine f).windows, by rw [State.engine, h, State.engine]⟩

theorem SameButWindows.trans {u : State} (h : SameButWindows s t) (g : SameButWindows t u) : SameButWindows s u := fun f => by
  obtain ⟨v, hv⟩ := h f
  obtain ⟨w, hw⟩ := g f
  exact ⟨w, by rw [hw, hv]⟩

theorem SameButWindows.setWindows (s : State) (o : EngId) (w : Option (PortId × Dom)) : SameButWindows s (s.setEngine o { s.engine o with windows := w }) := fun f => by
  by_cases h : f = o
  · rw [h]
    exact ⟨w, State.engine_setEngine_same _ _ _⟩
  · exact ⟨(s.engine f).windows, State.engine_setEngine_other _ _ h⟩

theorem State.attach_sameButWindows (s : State) (p : PortId) (x : Option EngId) : SameButWindows s (s.attach p x) := by
  have hset : ∀ (u : State) (a : Vector (Option EngId) 32), SameButWindows u { u with spur := { u.spur with attached := a } } := fun _ _ => .of_engines rfl
  unfold State.attach
  cases s.spur.attached[p] with
  | none =>
    cases x with
    | none => exact hset s _
    | some o => exact (hset s _).trans (.setWindows _ o _)
  | some a =>
    have hold := (SameButWindows.setWindows s a none).trans (hset _ (s.spur.attached.set p x))
    cases x with
    | none => exact hold
    | some o => exact hold.trans (.setWindows _ o _)

theorem SameButWindows.sameSpares (h : SameButWindows s t) : SameSpares s t := fun f => by
  obtain ⟨w, hw⟩ := h f
  rw [hw]
  exact ⟨Iff.rfl, rfl, rfl⟩

/-- Where no takeover waits, an engine that enters STANDBY is all that changes (R389, R403). -/
theorem State.enterStandby_alone (h : s.spur.orphans = []) (e : EngId) :
    s.enterStandby e = s.setEngine e { s.engine e with state := .standby, port := 0, loading := none, data := none } := by
  unfold State.enterStandby
  dsimp only
  have ho : (s.setEngine e { s.engine e with state := .standby, port := 0, loading := none, data := none }).spur.orphans = [] := h
  rw [ho]

/-- The engines' records replaced. -/
def State.withEngines (s : State) (es : Vector Engine 34) : State := { s with spur := { s.spur with engines := es } }

theorem State.enterStandby_all (h : s.spur.orphans = []) (l : List EngId) : ∃ es, l.foldl (fun s e => s.enterStandby e) s = s.withEngines es := by
  refine List.foldlRecOn (motive := fun t : State => ∃ es, t = s.withEngines es) _ _ ⟨s.spur.engines, rfl⟩ ?_
  rintro _ ⟨es, rfl⟩ e _
  exact ⟨_, State.enterStandby_alone (s := s.withEngines es) h e⟩

/-- A takeover that begins moves no attachment (R401). -/
theorem State.takeover_attached (s : State) (p : PortId) : (s.takeover p).spur.attached = s.spur.attached := by
  have hchoose : ∀ (e : EngId) (b : Bool), (s.choose p s.spur.portImage[p] e b false).spur.attached = s.spur.attached := fun e b => by cases b <;> rfl
  unfold State.takeover
  split
  · rfl
  · dsimp only
    split
    · exact hchoose _ _
    · exact hchoose _ _

theorem State.enterStandby_attached (s : State) (e : EngId) : (s.enterStandby e).spur.attached = s.spur.attached := by
  unfold State.enterStandby
  dsimp only
  split
  · exact State.takeover_attached _ _
  · rfl

end spares

/-! ### DEV_SWAP (R405 to R407) -/

section swaps
variable {s : State}

/-- A write of DEV_SWAP with GO, while no swap runs (R405, R407). -/
theorem State.writeSwap_go {d : Dom} {v : Word} (hgo : v.getLsbD 15 = true) (hidle : s.spur.swap = none) :
    ∃ w g, s.writeSwap d v = if (s.spur.images[(fin 4 (v.toNat / 256) : Fin 4)]).valid
      then (s.written (.dev .swap) w g).swapChoose (fin 32 v.toNat) (fin 4 (v.toNat / 256)) else (s.written (.dev .swap) w g).endSwap 0x01 := by
  obtain ⟨w, g, hwritten, hport, himage⟩ := State.writeFields_swap (d := d) (v := v) hidle
  refine ⟨w, g, ?_⟩
  have hspur : (s.written (.dev .swap) w g).spur = s.spur := rfl
  unfold State.writeFields at hwritten
  dsimp only at hwritten
  unfold State.writeSwap
  dsimp only
  simp only [hgo, hidle, Option.isSome_none, Bool.and_false, Bool.or_false, Bool.not_true, Bool.false_eq_true, if_false, hwritten, State.written_rf,
    hport, himage, hspur]
  cases (s.spur.images[(fin 4 (v.toNat / 256) : Fin 4)]).valid with
  | false => exact (if_pos rfl).trans (if_neg Bool.false_ne_true).symm
  | true => exact (if_neg (by decide)).trans (if_pos rfl).symm

/-- A write of DEV_SWAP by D0 reaches it (R407). -/
theorem Writes.devSwap {d : Dom} (hw : Writes s d 0) (v : Word) : execDevSwap d v s = finish (s.writeSwap d v) := hw.ownedWrite _ _ _

theorem devSwap_exec {d : Dom} {v : Word} (hw : Writes s d 0) (hgo : v.getLsbD 15 = true) (hidle : s.spur.swap = none) :
    ∃ w g, exec (.devSwap d v) s = finish (if (s.spur.images[(fin 4 (v.toNat / 256) : Fin 4)]).valid
      then (s.written (.dev .swap) w g).swapChoose (fin 32 v.toNat) (fin 4 (v.toNat / 256)) else (s.written (.dev .swap) w g).endSwap 0x01) := by
  obtain ⟨w, g, he⟩ := State.writeSwap_go (d := d) hgo hidle
  exact ⟨w, g, (hw.devSwap v).trans (congrArg finish he)⟩

theorem devSwap_chooses {d : Dom} {v : Word} {e : EngId} (hw : Writes s d 0) (hgo : v.getLsbD 15 = true) (hidle : s.spur.swap = none)
    (himage : (s.spur.images[(fin 4 (v.toNat / 256) : Fin 4)]).valid = true) (hpick : s.pickSpare (fin 4 (v.toNat / 256)) = some (e, true)) :
    Does (.devSwap d v) s fun t => t.spur.swap = some { port := fin 32 v.toNat, image := fin 4 (v.toNat / 256), engine := some e, at_ := s.raw } ∧
      (t.engine e).state = .active ∧ (t.engine e).port = fin 32 v.toNat ∧ t.spur.attached = s.spur.attached ∧ t.ports = s.ports := by
  obtain ⟨w, g, he⟩ := devSwap_exec hw hgo hidle
  have hsame : (s.written (.dev .swap) w g).pickSpare (fin 4 (v.toNat / 256)) = some (e, true) := hpick
  rw [if_pos himage, State.swapChoose, hsame] at he
  refine .of_finish he ?_
  rw [State.spur_ended, State.ports_ended, State.engine_ended]
  have hengine : ∀ (u : State) (x : Engine) (sw : Option Swap),
      State.engine { u.setEngine e x with spur := { (u.setEngine e x).spur with swap := sw } } e = x := fun u x _ => State.engine_setEngine_same u e x
  refine ⟨rfl, ?_, ?_, rfl, rfl⟩
  · exact congrArg Engine.state (hengine _ _ _)
  · exact congrArg Engine.port (hengine _ _ _)

theorem devSwap_ends {d : Dom} {v : Word} (hw : Writes s d 0) (hgo : v.getLsbD 15 = true) (hidle : s.spur.swap = none)
    (himage : (s.spur.images[(fin 4 (v.toNat / 256) : Fin 4)]).valid = false) :
    Does (.devSwap d v) s fun t => t.spur.swap = none ∧ t.spur.swapResult = 0x01 ∧ t.rb (.dev .seevt) 2 = true ∧ t.spur.engines = s.spur.engines := by
  obtain ⟨w, g, he⟩ := devSwap_exec hw hgo hidle
  rw [himage, if_neg Bool.false_ne_true] at he
  refine .of_finish he ?_
  rw [State.devRb_ended, State.spur_ended]
  exact ⟨rfl, rfl, State.seEvt_rb _ 2 (by decide), rfl⟩

/-- A swap's attachment at the quiet point, but for what the engines hold (R405). -/
def State.swapAttached (s : State) (w : Swap) (e : EngId) (es : Vector Engine 34) : State :=
  { s with spur := { s.spur with
    attached := s.spur.attached.set w.port (some e), engines := es, portImage := s.spur.portImage.set w.port w.image } }.endSwap 0x00

/-- The engine that the swap replaces enters STANDBY. -/
theorem State.swapNow_old (h : s.spur.orphans = []) (w : Swap) (e o : EngId) :
    ∃ es, s.swapNow w e (some o) =
      (s.swapAttached w e es).setEngine o { (s.swapAttached w e es).engine o with state := .standby, port := 0, loading := none, data := none } := by
  obtain ⟨es, hes⟩ := s.attach_eq w.port (some e)
  refine ⟨es, ?_⟩
  unfold State.swapNow
  rw [hes]
  exact State.enterStandby_alone (s := s.swapAttached w e es) h o

/-- The swap's engine takes over a port that no engine serves. -/
theorem State.swapTakes_eq (h : s.spur.orphans = []) (p : PortId) (e : EngId) :
    ∃ es, s.swapTakes p e = { s with spur := { s.spur with
      engines := es, orphans := [], takeovers := s.spur.takeovers.filter (fun t => t.1 != p) ++ [(p, e)] } } := by
  obtain ⟨es, hes⟩ := State.enterStandby_all (s := { s with spur := { s.spur with
      orphans := [], takeovers := s.spur.takeovers.filter (fun t => t.1 != p) ++ [(p, e)] } }) rfl
    ((s.spur.takeovers.filter (fun t => t.1 == p)).map (·.2))
  refine ⟨es, ?_⟩
  unfold State.swapTakes
  rw [h]
  exact hes

theorem State.swapNow_none (h : s.spur.orphans = []) (w : Swap) (e : EngId) :
    ∃ es fs ts, s.swapNow w e none = { s.swapAttached w e es with spur := { (s.swapAttached w e es).spur with
      engines := fs, orphans := [], takeovers := ts ++ [(w.port, e)] } } := by
  obtain ⟨es, hes⟩ := s.attach_eq w.port (some e)
  obtain ⟨fs, hfs⟩ := State.swapTakes_eq (s := s.swapAttached w e es) h w.port e
  refine ⟨es, fs, s.spur.takeovers.filter (fun t => t.1 != w.port), ?_⟩
  unfold State.swapNow
  rw [hes]
  exact hfs

theorem State.engineTestAfterSwap_none (h : s.cairn.test = none) : s.engineTestAfterSwap = s := by
  unfold State.engineTestAfterSwap
  rw [h]

theorem swapQuietPoint_attaches {w : Swap} {e : EngId} {old : Option EngId} (hready : s.swapReady = some (w, e, old)) (horphans : s.spur.orphans = [])
    (htest : s.cairn.test = none) :
    Does .swapQuietPoint s fun t => t.spur.attached[w.port] = some e ∧ t.spur.portImage[w.port] = w.image ∧ t.spur.swap = none ∧ t.spur.swapResult = 0x00 ∧
      (∀ o, old = some o → (t.engine o).state = .standby) ∧ (old = none → (w.port, e) ∈ t.spur.takeovers) ∧ t.rb (.dev .seevt) 2 = true ∧ t.ports = s.ports := by
  have hcairn : (s.swapNow w e old).cairn = s.cairn :=
    (State.swapNow_only (ps := [.regs .dev, .spur]) (Only.refl s) (by decide) (by decide)).2 .cairn (by decide)
  have he : exec .swapQuietPoint s = finish (s.swapNow w e old) := by
    show execSwapQuietPoint s = _
    unfold execSwapQuietPoint
    rw [hready]
    exact congrArg finish (State.engineTestAfterSwap_none (by rw [hcairn, htest]))
  have hattached : ∀ es, (s.swapAttached w e es).spur.attached[w.port] = some e := fun es => Vector.getElem_set_self _
  have himage : ∀ es, (s.swapAttached w e es).spur.portImage[w.port] = w.image := fun es => Vector.getElem_set_self _
  have hevt : ∀ es, (s.swapAttached w e es).rb (.dev .seevt) 2 = true := fun es => State.seEvt_rb _ 2 (by decide)
  refine .of_finish he ?_
  rw [State.devRb_ended, State.spur_ended, State.ports_ended]
  simp only [State.engine_ended]
  cases old with
  | none =>
    obtain ⟨es, fs, ts, hnow⟩ := State.swapNow_none horphans w e
    rw [hnow]
    exact ⟨hattached es, himage es, rfl, rfl, nofun, fun _ => by simp, hevt es, rfl⟩
  | some o =>
    obtain ⟨es, hnow⟩ := State.swapNow_old horphans w e o
    rw [hnow]
    refine ⟨hattached es, himage es, rfl, rfl, ?_, nofun, hevt es, rfl⟩
    rintro _ ⟨⟩
    rw [State.engine_setEngine_same]

/-- A swap that is given up moves no attachment (R405). -/
theorem State.releaseSwap_attached (s : State) : s.releaseSwap.spur.attached = s.spur.attached := by
  unfold State.releaseSwap
  split
  · split
    · split
      · exact State.enterStandby_attached _ _
      · rfl
    · rfl
  · rfl

theorem swapTimeout_ends {u : State} {w : Swap} (hswap : s.spur.swap = some w) (hu : u = s.waitFrom w.at_ (sec 1)) :
    Does .swapTimeout s fun t => t.spur.swap = none ∧ t.spur.swapResult = 0x02 ∧ t.rb (.dev .seevt) 2 = true ∧ t.spur.attached = s.spur.attached ∧
      t.ports = u.ports := by
  have he : exec .swapTimeout s = finish (u.releaseSwap.endSwap 0x02) := by
    show execSwapTimeout s = _
    unfold execSwapTimeout
    rw [hswap, hu]
  have hspur : u.spur = s.spur := by
    rw [hu]
    exact (s.advance_frame _).2 .spur (by decide)
  have hports : u.releaseSwap.ports = u.ports :=
    (State.releaseSwap_only (ps := [.regs .dev, .spur]) (Only.refl u) (by decide) (by decide)).2 .ports (by decide)
  refine .of_finish he ?_
  rw [State.devRb_ended, State.spur_ended, State.ports_ended]
  refine ⟨rfl, rfl, State.seEvt_rb _ 2 (by decide), ?_, hports⟩
  calc (u.releaseSwap.endSwap 0x02).spur.attached = u.releaseSwap.spur.attached := rfl
    _ = u.spur.attached := u.releaseSwap_attached
    _ = s.spur.attached := by rw [hspur]

end swaps

/-! ### DEV_SECMD on an engine, and the end of its test (R393, R412) -/

section engineCommands
variable {s : State} {d : Dom} {v : Word} {e : EngId}

/-- A write of DEV_SECMD with CMD on an engine, while no command runs, is that command (R412). -/
theorem secmdRequest_engine (hw : Writes s d 0) (hidle : s.spur.cmdUnit = none) (hcmd : v.toNat / 256 % 4 ≠ 0) (hunit : v.toNat % 64 = e.val) :
    ∃ w g, s.secmdRequest d v = finish ((s.written (.dev .secmd) w g).engineCmd e (v.toNat / 256 % 4)) := by
  obtain ⟨w, g, he⟩ := State.writeSecmd_engine (d := d) hidle hcmd hunit
  exact ⟨w, g, (hw.secmdRequest v).trans (congrArg finish he)⟩

theorem retest_starts (hw : Writes s d 0) (hcmd : v.toNat / 256 % 4 = 1) (hunit : v.toNat % 64 = e.val) (hidle : s.spur.cmdUnit = none)
    (hfaulted : (s.engine e).state = .faulted) :
    Does (.retest d v) s fun t => t.engine e = { s.engine e with state := .testing } ∧ t.spur.cmdUnit = some e.val ∧ (∀ f, f ≠ e → t.engine f = s.engine f) ∧
      t.ports = s.ports := by
  obtain ⟨w, g, he⟩ := secmdRequest_engine hw hidle (by omega) hunit
  have hrun : (s.written (.dev .secmd) w g).engineCmd e (v.toNat / 256 % 4) =
      ((s.written (.dev .secmd) w g).setEngine e { s.engine e with state := .testing }).cmdBusy e.val := if_pos ⟨hcmd, hfaulted⟩
  rw [hrun] at he
  refine .of_finish (i := .retest d v) he ?_
  rw [State.spur_ended, State.ports_ended]
  simp only [State.engine_ended]
  exact ⟨State.engine_setEngine_same _ _ _, rfl, fun f hf => State.engine_setEngine_other (s.written (.dev .secmd) w g) _ hf, rfl⟩

theorem reload_starts (hw : Writes s d 0) (hcmd : v.toNat / 256 % 4 = 2) (hunit : v.toNat % 64 = e.val) (hidle : s.spur.cmdUnit = none)
    (hstandby : (s.engine e).state = .standby) :
    Does (.reload d v) s fun t => (t.engine e).state = .loading ∧ (t.engine e).image = s.spareEntry e ∧ (t.engine e).loading = some .reload ∧
      t.spur.cmdUnit = some e.val ∧ (∀ f, f ≠ e → t.engine f = s.engine f) ∧ t.ports = s.ports := by
  obtain ⟨w, g, he⟩ := secmdRequest_engine hw hidle (by omega) hunit
  have hrun : (s.written (.dev .secmd) w g).engineCmd e (v.toNat / 256 % 4) =
      ((s.written (.dev .secmd) w g).startLoad e ((s.written (.dev .secmd) w g).spareEntry e) .reload).cmdBusy e.val :=
    (if_neg (by omega)).trans (if_pos ⟨hcmd, hstandby⟩)
  have hentry : (s.written (.dev .secmd) w g).spareEntry e = s.spareEntry e := by
    unfold State.spareEntry
    simp only [State.written_rf_other s w g _ _ (show Reg.dev .sparecfg ≠ .dev .secmd from nofun)]
    rfl
  rw [hrun, hentry] at he
  refine .of_finish (i := .reload d v) he ?_
  rw [State.spur_ended, State.ports_ended]
  simp only [State.engine_ended]
  have hengine := State.engine_setEngine_same (s.written (.dev .secmd) w g) e
    { s.engine e with state := .loading, image := s.spareEntry e, loading := some .reload, held := false }
  exact ⟨congrArg Engine.state hengine, congrArg Engine.image hengine, congrArg Engine.loading hengine, rfl,
    fun f hf => State.engine_setEngine_other (s.written (.dev .secmd) w g) _ hf, rfl⟩

theorem engineTestEnd_passes (htesting : (s.engine e).state = .testing) (hcmd : s.spur.cmdUnit = some e.val) :
    Does (.engineTestEnd e true) s fun t => (t.engine e).state = .loading ∧ (t.engine e).loading = some .retest ∧ t.spur.cmdUnit = some e.val ∧ SameRegs s t := by
  have he : exec (.engineTestEnd e true) s = finish (s.startLoad e (s.spareEntry e) .retest) := by
    show execEngineTestEnd e true s = _
    unfold execEngineTestEnd
    exact (if_neg (by simp [htesting, State.cmdIs, hcmd])).trans (if_pos rfl)
  refine .of_finish he ?_
  rw [State.spur_ended, State.engine_ended, State.startLoad, State.engine_setEngine_same]
  exact ⟨rfl, rfl, hcmd, .of_regs rfl⟩

theorem engineTestEnd_fails (htesting : (s.engine e).state = .testing) (hcmd : s.spur.cmdUnit = some e.val) :
    Does (.engineTestEnd e false) s fun t => (t.engine e).state = .faulted ∧ (t.engine e).cause = 5 ∧ t.spur.cmdUnit = none ∧ t.spur.cmdResult = 0x02 ∧
      t.rb (.dev .seevt) 2 = true ∧ t.rb (.dev .seevt) 0 = true := by
  have he : exec (.engineTestEnd e false) s = finish ((s.faultEngine e 5).endCmd 0x02) := by
    show execEngineTestEnd e false s = _
    unfold execEngineTestEnd
    exact (if_neg (by simp [htesting, State.cmdIs, hcmd])).trans (if_neg Bool.false_ne_true)
  refine .of_finish he ?_
  rw [State.devRb_ended, State.devRb_ended, State.spur_ended, State.engine_ended]
  have hengine : ((s.faultEngine e 5).endCmd 0x02).engine e = (s.faultEngine e 5).engine e := rfl
  have hfault : (s.faultEngine e 5).engine e = _ := State.engine_setEngine_same s e _
  rw [hengine, hfault]
  exact ⟨rfl, rfl, rfl, rfl, State.seEvt_rb _ 2 (by decide), State.seEvt_rb_stays 2 (by decide) (State.seEvt_rb _ 0 (by decide))⟩

end engineCommands

/-- Settles O51: a swap, RETEST, RELOAD and the end of an engine's test, a lemma each. -/
theorem engineSwapAndCommands : Obligations.EngineSwapAndCommands :=
  ⟨fun _ _ _ _ => devSwap_chooses, fun _ _ _ => devSwap_ends, fun _ _ _ _ => swapQuietPoint_attaches, fun _ _ _ => swapTimeout_ends,
    fun _ _ _ _ => retest_starts, fun _ _ _ _ => reload_starts, fun _ _ => engineTestEnd_passes, fun _ _ => engineTestEnd_fails⟩

end Sys2Proof.Machine

namespace Sys2Proof.Machine

/-! ### The loss of an engine (R388, R393, R401) -/

section loss
variable {s u v : State} {e n : EngId} {p : PortId} {cause : FaultCause}

/-- u is s but for keys and for port p, which stays in its state. -/
structure SamePortState (s u : State) (p : PortId) : Prop where
  state : (u.port p).state = (s.port p).state
  others : OtherPorts s u p
  only : Only [.keys, .ports] s u

theorem SamePortState.refl (s : State) (p : PortId) : SamePortState s s p := ⟨rfl, fun _ _ => rfl, Only.refl s⟩

theorem SamePortState.setPort (h : SamePortState s u p) {y : Port} (hy : y.state = (u.port p).state) : SamePortState s (u.setPort p y) p :=
  ⟨by rw [State.port_setPort_same, hy, h.state], fun q hq => (State.port_setPort_other _ _ _ _ hq).trans (h.others q hq), State.setPort_only h.only (by decide)⟩

theorem SamePortState.useFv (h : SamePortState s u p) (a : Attempt) (c : Cand) : SamePortState s (u.useFv p a c) p := by
  unfold State.useFv
  split
  · exact h
  · split
    next k _ =>
      split
      · exact h
      · have hkey : ∀ i k, SamePortState s (u.setKey i k) p := fun i k => ⟨h.state, h.others, State.setKey_only h.only (by decide)⟩
        exact (hkey _ _).setPort rfl
    · exact h

theorem SamePortState.cutOutput (h : SamePortState s u p) : SamePortState s (u.cutOutput p) p := h.setPort rfl

/-- The attempt that a loss destroys leaves the port in its state (R388). -/
theorem State.destroyAttempt_same (s : State) (p : PortId) : SamePortState s (s.destroyAttempt p) p := by
  have h := SamePortState.refl s p
  unfold State.destroyAttempt
  split
  · exact h
  · split
    · exact h
    · split
      · split
        · exact ((h.useFv _ _).setPort (by rfl)).cutOutput
        · exact h
      · exact h
      · exact (h.setPort (by rfl)).cutOutput

/-- A running port becomes ISOLATED, and keeps the state it was in (R388). -/
theorem State.isolatePort_running (hrun : running (s.port p).state = true) :
    ∃ y : Port, y.state = .isolated ∧ y.prior = (s.port p).state ∧ AtPort s (s.isolatePort p) p y := by
  have hstate : (halted (s.port p).state || (s.port p).state == .busoff || (s.port p).state == .isolated) = false := by
    cases hx : (s.port p).state <;> simp_all [running, halted]
  unfold State.isolatePort
  dsimp only
  rw [hstate, if_neg Bool.false_ne_true]
  exact ⟨_, rfl, rfl, (AtPort.refl s p).showPort _⟩

/-- v is u after the loss of the engine of port p, before a spare is looked for (R388, R401). -/
structure Isolates (u v : State) (p : PortId) : Prop where
  state : (v.port p).state = .isolated
  prior : (v.port p).prior = (u.port p).state
  others : OtherPorts u v p
  engines : SameButWindows u v
  spur : ∃ es, v.spur = { u.spur with attached := u.spur.attached.set p none, engines := es }
  evt : v.reg (.dev .seevt) = u.reg (.dev .seevt)

theorem State.losePort_isolates (hrun : running (s.port p).state = true) : ∃ v, s.losePort p = v.takeover p ∧ Isolates s v p := by
  obtain ⟨hstate, hothers, honly⟩ := s.destroyAttempt_same p
  obtain ⟨es, hes⟩ := (s.destroyAttempt p).attach_eq p none
  have hwindows := (s.destroyAttempt p).attach_sameButWindows p none
  have hspur : (s.destroyAttempt p).spur = s.spur := honly.2 .spur (by decide)
  have hports : ((s.destroyAttempt p).attach p none).ports = (s.destroyAttempt p).ports := by rw [hes]
  have hport : ∀ q, ((s.destroyAttempt p).attach p none).port q = (s.destroyAttempt p).port q := fun q => by rw [State.port, hports, State.port]
  obtain ⟨y, hisolated, hprior, hy⟩ := State.isolatePort_running (s := (s.destroyAttempt p).attach p none) (p := p) (by rw [hport, hstate, hrun])
  refine ⟨_, rfl, ?_, ?_, fun q hq => ?_, ?_, ⟨es, ?_⟩, ?_⟩
  · rw [hy.port, hisolated]
  · rw [hy.port, hprior, hport, hstate]
  · rw [hy.others q hq, hport, hothers q hq]
  · exact (SameButWindows.of_engines (congrArg Spur.engines hspur)).trans (hwindows.trans (.of_engines (congrArg Spur.engines hy.spur)))
  · rw [hy.spur, hes, hspur]
  · rw [hy.only.2 (.regs .dev) (by decide) _ rfl, hes]
    exact honly.2 (.regs .dev) (by decide) _ rfl

/-- The loss of the engine of port p is recorded, and the engine is FAULTED (R393). -/
def State.lossNoted (s : State) (e : EngId) (p : PortId) (cause : FaultCause) : State :=
  ((s.faultEngine e (causeCode cause)).windowRecord e.val cause).record devCode 4 false 0x0A 0x01 (BitVec.ofNat 32 e.val)
    (BitVec.ofNat 32 (p.val + 256 * (causeCode cause).toNat))

theorem State.lossNoted_spur (s : State) (e : EngId) (p : PortId) (cause : FaultCause) :
    (s.lossNoted e p cause).spur = (s.faultEngine e (causeCode cause)).spur := by rw [State.lossNoted, State.record_spur, State.windowRecord_spur]

theorem State.lossNoted_port (s : State) (e : EngId) (p q : PortId) (cause : FaultCause) : (s.lossNoted e p cause).port q = s.port q := by
  have hports : ((s.faultEngine e (causeCode cause)).windowRecord e.val cause).ports = s.ports :=
    (State.windowRecord_only (ps := [.intake]) (Only.refl (s.faultEngine e (causeCode cause))) (by decide)).2 .ports (by decide)
  rw [State.port, State.lossNoted, State.record_ports, hports, State.port]

theorem State.lossNoted_evt (s : State) (e : EngId) (p : PortId) (cause : FaultCause) : (s.lossNoted e p cause).rb (.dev .seevt) 0 = true := by
  rw [State.lossNoted, State.rb, State.reg_record, State.windowRecord_reg]
  exact State.seEvt_rb _ 0 (by decide)

/-- An engine that serves a port, while no swap runs, takes the port down with it (R393). -/
theorem State.engineLost_serving (hactive : (s.engine e).state = .active) (hport : (s.engine e).port = p) (hattached : s.spur.attached[p] = some e)
    (hswap : s.spur.swap = none) (htakeovers : s.spur.takeovers.any (fun u => u.2 == e) = false) :
    s.engineLost e cause = (s.lossNoted e p cause).losePort p := by
  have hspur := State.windowRecord_spur (s.faultEngine e (causeCode cause)) e.val cause
  have hattached' : (s.faultEngine e (causeCode cause)).spur.attached[p] = some e := hattached
  have htakeovers' : (s.faultEngine e (causeCode cause)).spur.takeovers.any (fun u => u.2 == e) = false := htakeovers
  have hswap' : (s.faultEngine e (causeCode cause)).spur.swap = none := hswap
  unfold State.engineLost
  simp only [hactive, hport, State.record_spur, hspur, hattached', htakeovers', hswap', Bool.false_eq_true, if_false, if_true, reduceCtorEq]
  rfl

theorem State.lossNoted_engine (s : State) (e : EngId) (p : PortId) (cause : FaultCause) :
    ∃ k, (s.lossNoted e p cause).engine e = { s.engine e with state := .faulted, cause := causeCode cause, count := k, loading := none } := by
  rw [State.engine, State.lossNoted_spur]
  exact ⟨_, State.engine_setEngine_same s e _⟩

theorem State.lossNoted_engine_other (s : State) {e f : EngId} (p : PortId) (cause : FaultCause) (h : f ≠ e) :
    (s.lossNoted e p cause).engine f = s.engine f := by
  rw [State.engine, State.lossNoted_spur]
  exact State.engine_setEngine_other s _ h

/-- The loss of an engine that is ACTIVE takes no spare away (R401). -/
theorem State.lossNoted_spares (hactive : (s.engine e).state = .active) (p : PortId) (cause : FaultCause) : SameSpares s (s.lossNoted e p cause) := fun f => by
  by_cases h : f = e
  · obtain ⟨k, hk⟩ := s.lossNoted_engine e p cause
    rw [h, hk, hactive]
    exact ⟨by simp, rfl, rfl⟩
  · rw [State.lossNoted_engine_other _ _ _ h]
    exact ⟨Iff.rfl, rfl, rfl⟩

theorem SameSpares.trans (h : SameSpares s u) (g : SameSpares u v) : SameSpares s v := fun f => by
  obtain ⟨hstate, hheld, himage⟩ := h f
  obtain ⟨gstate, gheld, gimage⟩ := g f
  exact ⟨gstate.trans hstate, gheld.trans hheld, gimage.trans himage⟩

theorem State.takeover_waits (h : s.standby = []) (p : PortId) :
    s.takeover p = { s with spur := { s.spur with orphans := s.spur.orphans ++ [p] } }.seEvt 1 := by
  rw [State.takeover, State.pickSpare_none h]

/-- A takeover is added to those on their way (R401). -/
def State.withTakeover (s : State) (x : PortId × EngId) : State := { s with spur := { s.spur with takeovers := s.spur.takeovers ++ [x] } }

theorem State.takeover_begins (h : s.pickSpare s.spur.portImage[p] = some (n, true)) :
    s.takeover p = (s.setEngine n { s.engine n with state := .active, port := p, data := some s.raw }).withTakeover (p, n) := by
  rw [State.takeover, h]
  rfl

/-- e alone serves the running port p, and no swap runs (R401, R405). -/
structure Serves (s : State) (e : EngId) (p : PortId) : Prop where
  active : (s.engine e).state = .active
  port : (s.engine e).port = p
  attached : s.spur.attached[p] = some e
  noSwap : s.spur.swap = none
  noTakeover : s.spur.takeovers.any (fun u => u.2 == e) = false
  running : running (s.port p).state = true

/-- v is s after its engine e has left port p ISOLATED, before a spare is looked for (R388, R393). -/
structure Loses (s v : State) (e : EngId) (p : PortId) (cause : FaultCause) : Prop where
  state : (v.engine e).state = .faulted
  cause : (v.engine e).cause = causeCode cause
  spares : SameSpares s v
  isolated : (v.port p).state = .isolated
  prior : (v.port p).prior = (s.port p).state
  others : OtherPorts s v p
  attached : v.spur.attached[p] = none
  portImage : v.spur.portImage = s.spur.portImage
  orphans : v.spur.orphans = s.spur.orphans
  takeovers : v.spur.takeovers = s.spur.takeovers
  evt : v.rb (.dev .seevt) 0 = true

theorem Serves.engineLoss (h : Serves s e p) (hbreaks : breaks (s.engineReaches e) cause = true) :
    ∃ v, exec (.engineLoss e cause) s = finish (v.takeover p) ∧ Loses s v e p cause := by
  have hport := s.lossNoted_port e p (cause := cause)
  obtain ⟨v, hv, hi⟩ := State.losePort_isolates (s := s.lossNoted e p cause) (p := p) (by rw [hport, h.running])
  obtain ⟨es, hspur⟩ := hi.spur
  obtain ⟨k, hk⟩ := s.lossNoted_engine e p cause
  obtain ⟨w, hw⟩ := hi.engines e
  rw [s.lossNoted_spur] at hspur
  have he : exec (.engineLoss e cause) s = finish (v.takeover p) := by
    show execEngineLoss e cause s = _
    unfold execEngineLoss
    rw [h.active, ← hv, ← State.engineLost_serving h.active h.port h.attached h.noSwap h.noTakeover]
    exact if_pos hbreaks
  refine ⟨v, he, ?_, ?_, ?_, hi.state, ?_, fun q hq => ?_, ?_, ?_, ?_, ?_, ?_⟩
  · rw [hw, hk]
  · rw [hw, hk]
  · exact (State.lossNoted_spares h.active p cause).trans hi.engines.sameSpares
  · rw [hi.prior, hport]
  · rw [hi.others q hq, hport]
  · rw [hspur]
    exact Vector.getElem_set_self _
  · rw [hspur]; rfl
  · rw [hspur]; rfl
  · rw [hspur]; rfl
  · rw [State.rb, hi.evt]
    exact s.lossNoted_evt e p cause

theorem OtherPorts.ended (h : OtherPorts s u p) : OtherPorts s u.noteMay.announce p := fun q hq => by rw [State.announce_port, State.noteMay_port, h q hq]

theorem engineLoss_waits (h : Serves s e p) (hbreaks : breaks (s.engineReaches e) cause = true) (hnone : s.standby = []) :
    Does (.engineLoss e cause) s fun t => (t.engine e).state = .faulted ∧ (t.engine e).cause = causeCode cause ∧ t.spur.attached[p] = none ∧
      (t.port p).state = .isolated ∧ (t.port p).prior = (s.port p).state ∧ t.spur.orphans = s.spur.orphans ++ [p] ∧ t.rb (.dev .seevt) 0 = true ∧
      t.rb (.dev .seevt) 1 = true ∧ OtherPorts s t p := by
  obtain ⟨v, he, hv⟩ := h.engineLoss hbreaks
  rw [State.takeover_waits (by rw [hv.spares.standby, hnone])] at he
  refine .of_finish he ?_
  simp only [State.devRb_ended, State.engine_ended, State.spur_ended, State.announce_port, State.noteMay_port]
  exact ⟨hv.state, hv.cause, hv.attached, hv.isolated, hv.prior, congrArg (· ++ [p]) hv.orphans, State.seEvt_rb_stays 1 (by decide) hv.evt,
    State.seEvt_rb _ 1 (by decide), OtherPorts.ended hv.others⟩

theorem engineLoss_takesOver (h : Serves s e p) (hbreaks : breaks (s.engineReaches e) cause = true)
    (hpick : s.pickSpare s.spur.portImage[p] = some (n, true)) :
    Does (.engineLoss e cause) s fun t => (t.engine e).state = .faulted ∧ (t.engine n).state = .active ∧ (t.engine n).port = p ∧
      t.spur.takeovers = s.spur.takeovers ++ [(p, n)] ∧ t.spur.attached[p] = none ∧ (t.port p).state = .isolated ∧ t.spur.orphans = s.spur.orphans ∧
      OtherPorts s t p := by
  obtain ⟨v, he, hv⟩ := h.engineLoss hbreaks
  have hne : e ≠ n := fun heq => by
    have hstandby := State.pickSpare_standby hpick
    rw [← heq, h.active] at hstandby
    exact absurd hstandby nofun
  rw [State.takeover_begins (n := n) (by rw [hv.spares.pickSpare, hv.portImage, hpick])] at he
  refine .of_finish he ?_
  simp only [State.engine_ended, State.spur_ended, State.announce_port, State.noteMay_port]
  have hn := State.engine_setEngine_same v n { v.engine n with state := .active, port := p, data := some v.raw }
  refine ⟨?_, congrArg Engine.state hn, congrArg Engine.port hn, congrArg (· ++ [(p, n)]) hv.takeovers, hv.attached, hv.isolated, hv.orphans,
    OtherPorts.ended hv.others⟩
  exact (congrArg Engine.state (State.engine_setEngine_other v _ hne)).trans hv.state

theorem engineLoadDone_serves (hloading : (s.engine e).state = .loading) (hwhy : (s.engine e).loading = some (.takeover p)) (hattached : s.spur.attached[p] = none)
    (hnone : s.spur.takeovers.any (fun u => u.1 == p) = false) :
    Does (.engineLoadDone e) s fun t => (t.engine e).state = .active ∧ (t.engine e).port = p ∧ (t.engine e).gen = (s.spur.images[(s.engine e).image]).gen ∧
      t.spur.takeovers = s.spur.takeovers ++ [(p, e)] ∧ (∀ f, f ≠ e → t.engine f = s.engine f) ∧ t.ports = s.ports ∧ SameRegs s t := by
  have he : exec (.engineLoadDone e) s = finish ((s.setEngine e { (s.engine e).load (s.spur.images[(s.engine e).image]) with
      loading := none, state := .active, port := p, data := some s.raw }).withTakeover (p, e)) := by
    show execEngineLoadDone e s = _
    unfold execEngineLoadDone
    dsimp only
    rw [hloading, hwhy]
    exact if_neg (by simp only [hattached, hnone]; decide)
  refine .of_finish he ?_
  simp only [State.engine_ended, State.spur_ended, State.ports_ended]
  have hengine := State.engine_setEngine_same s e { (s.engine e).load (s.spur.images[(s.engine e).image]) with
      loading := none, state := .active, port := p, data := some s.raw }
  exact ⟨congrArg Engine.state hengine, congrArg Engine.port hengine, congrArg Engine.gen hengine, rfl,
    fun f hf => State.engine_setEngine_other s _ hf, rfl, .of_regs rfl⟩

end loss
end Sys2Proof.Machine

namespace Sys2Proof.Machine

/-! ### The end of a takeover (R401, R402) -/

section takeover
variable {s u : State} {e : EngId} {p : PortId}

/-- To attach an engine to a port that has none, its windows are those of the port (R387). -/
theorem State.attach_free (h : s.spur.attached[p] = none) (e : EngId) :
    s.attach p (some e) = { s with spur := { s.spur with attached := s.spur.attached.set p (some e) } }.setEngine e
      { s.engine e with windows := some (p, s.portOwner p) } := by
  unfold State.attach
  rw [h]
  rfl

/-- Port p stands as it stood, and nothing changed of the crossbar and of the tests. -/
structure PortStays (s u : State) (p : PortId) : Prop where
  state : (u.port p).state = (s.port p).state
  prior : (u.port p).prior = (s.port p).prior
  holdPending : (u.port p).holdPending = (s.port p).holdPending
  spur : u.spur = s.spur
  cairn : u.cairn = s.cairn

theorem PortStays.refl (s : State) (p : PortId) : PortStays s s p := ⟨rfl, rfl, rfl, rfl, rfl⟩

theorem PortStays.trans {v : State} (h : PortStays s u p) (g : PortStays u v p) : PortStays s v p :=
  ⟨g.state.trans h.state, g.prior.trans h.prior, g.holdPending.trans h.holdPending, g.spur.trans h.spur, g.cairn.trans h.cairn⟩

theorem PortStays.setPort (h : PortStays s u p) {y : Port} (hstate : y.state = (u.port p).state) (hprior : y.prior = (u.port p).prior)
    (hpending : y.holdPending = (u.port p).holdPending) : PortStays s (u.setPort p y) p :=
  h.trans ⟨by rw [State.port_setPort_same, hstate], by rw [State.port_setPort_same, hprior], by rw [State.port_setPort_same, hpending], rfl, rfl⟩

theorem PortStays.countPort (h : PortStays s u p) (off : Nat) : PortStays s (u.countPort p off) p := by
  have hport : (u.countPort p off).port p = u.port p := ((AtPort.refl u p).countPort off).port
  have honly : Only [.counts, .halves] u (u.countPort p off) := State.countPort_only (Only.refl u) (by decide) (by decide)
  exact h.trans ⟨by rw [hport], by rw [hport], by rw [hport], honly.2 .spur (by decide), honly.2 .cairn (by decide)⟩

theorem State.settleAttempt_sameButCands (s : State) (p : PortId) (c : Cand) (r : AttemptResult) (sof : DWord) :
    SameButCands s (s.settleAttempt p c r sof) := by
  unfold State.settleAttempt
  dsimp only
  split
  · exact s.endCand_sameButCands ..
  · exact .setPort rfl

/-- An attempt that is settled at the end of a takeover ends candidates only (R399). -/
theorem State.settleRecord_portStays (s : State) (p : PortId) (r : Committed) : PortStays s (s.settleRecord p r) p := by
  have hcands : SameButCands s (s.settleRecord p r) := by
    unfold State.settleRecord
    split
    · exact .refl s
    · split
      · exact s.settleAttempt_sameButCands ..
      · exact .refl s
  have honly : Only [.counts, .free, .funcs, .halves, .objs, .out, .ports, .regs .fn, .rings] s (s.settleRecord p r) := by
    apply State.settleRecord_only (Only.refl s) <;> decide
  have hstate := congrArg Port.state (hcands.ports p)
  have hprior := congrArg Port.prior (hcands.ports p)
  have hpending := congrArg Port.holdPending (hcands.ports p)
  exact ⟨hstate, hprior, hpending, honly.2 .spur (by decide), honly.2 .cairn (by decide)⟩

theorem State.settleRecords_portStays (s : State) (p : PortId) (l : List Committed) :
    PortStays s (l.foldl (fun s r => s.settleRecord p r) s) p :=
  List.foldlRecOn (motive := fun u => PortStays s u p) l _ (.refl s p) fun u h r _ => h.trans (u.settleRecord_portStays p r)

theorem State.countDestroyed_portStays (s : State) (p : PortId) : PortStays s (s.countDestroyed p) p := by
  have h := PortStays.refl s p
  unfold State.countDestroyed
  dsimp only
  split
  · exact h
  · split
    · split
      · exact h
      · split
        · exact h.setPort rfl rfl rfl
        · exact (h.countPort _).setPort rfl rfl rfl
    · exact h

/-- A port that waited for its engine is again in the state that it was in (R402). -/
theorem State.returnPort_running (hisolated : (s.port p).state = .isolated) (hprior : running (s.port p).prior = true)
    (hpending : (s.port p).holdPending = none) (htest : s.underTest p = false) :
    ∃ y : Port, y.state = (s.port p).prior ∧ s.returnPort p = s.showPort p y := by
  have hhold : (s.port p).prior ≠ .hold := fun h => by simp [h, running] at hprior
  unfold State.returnPort
  dsimp only
  rw [if_neg (by simp [hisolated]), if_neg (by simp [htest]), if_neg hhold]
  generalize hy : ({ s.port p with state := (s.port p).prior, prior := .off, holdReturn := .off, holdKept := none } : Port) = y
  refine ⟨y, by rw [← hy], ?_⟩
  have hnone : ((s.showPort p y).port p).holdPending = none := by rw [((AtPort.refl s p).showPort y).port, ← hy]; exact hpending
  unfold State.holdArrives
  rw [hnone]

theorem State.takeSpace_port {t : State} {limit k i : Nat} (h : s.takeSpace p.val limit k = some (i, t)) :
    ∃ l n, t.port p = { s.port p with spaces := l, nextSpace := n } := by
  unfold State.takeSpace at h
  rw [if_pos p.isLt, fin_val] at h
  split at h
  · exact absurd h nofun
  · obtain ⟨-, rfl⟩ := Prod.mk.inj (Option.some.inj h)
    exact ⟨_, _, State.port_setPort_same _ _ _⟩

/-- A frame of the FIFO that is passed on takes space only (R402). -/
theorem State.stageFrame_port (s : State) (p : PortId) (f : RxFrame) :
    ∃ l n, (s.stageFrame p f).port p = { s.port p with spaces := l, nextSpace := n } := by
  unfold State.stageFrame
  split
  · exact ⟨(s.port p).spaces, (s.port p).nextSpace, ((AtPort.refl s p).countPort _).port⟩
  next hspace =>
    obtain ⟨l, n, h⟩ := State.takeSpace_port hspace
    exact ⟨l, n, h⟩

theorem State.stageFrames_port (s : State) (p : PortId) (fs : List RxFrame) :
    ∃ l n, (fs.foldl (fun s f => s.stageFrame p f) s).port p = { s.port p with spaces := l, nextSpace := n } := by
  refine List.foldlRecOn (motive := fun u : State => ∃ l n, u.port p = { s.port p with spaces := l, nextSpace := n }) fs _
    ⟨(s.port p).spaces, (s.port p).nextSpace, rfl⟩ ?_
  rintro u ⟨l, n, hu⟩ f _
  obtain ⟨l', n', hf⟩ := u.stageFrame_port p f
  exact ⟨l', n', by rw [hf, hu]⟩

theorem State.passFifo_port (s : State) (p : PortId) : ((s.passFifo p).port p).fifo = [] ∧ ((s.passFifo p).port p).state = (s.port p).state := by
  obtain ⟨l, n, h⟩ := (s.setPort p { s.port p with fifo := [] }).stageFrames_port p (s.port p).fifo
  have hport : (s.passFifo p).port p = _ := h
  rw [hport, State.port_setPort_same]
  exact ⟨rfl, rfl⟩

theorem State.passFifo_frame (s : State) (p : PortId) : Only [.counts, .eths, .halves, .ports, .rxq] s (s.passFifo p) := by
  apply State.passFifo_only (Only.refl s) <;> decide

/-- The port stands as it stood up to the return to its state (R399, R402). -/
def State.takeoverSettled (s : State) (p : PortId) : State :=
  let u := (s.port p).record.reverse.foldl (fun s r => s.settleRecord p r) s
  (u.setPort p { u.port p with record := (u.port p).record.map (fun r => { r with settled := true }) }).countDestroyed p

theorem State.takeoverSettled_portStays (s : State) (p : PortId) : PortStays s (s.takeoverSettled p) p :=
  PortStays.trans ((s.settleRecords_portStays p _).setPort (by rfl) (by rfl) (by rfl)) (State.countDestroyed_portStays _ p)

/-- The crossbar after the end of the takeover of port p by e (R401). -/
def State.takeoverAttached (s : State) (p : PortId) (e : EngId) : State :=
  { s with spur := { s.spur with takeovers := s.spur.takeovers.filter (fun t => t.1 != p) } }.attach p (some e)

theorem State.takeoverAttached_eq (h : s.spur.attached[p] = none) (e : EngId) :
    s.takeoverAttached p e = { s with spur := { s.spur with
      takeovers := s.spur.takeovers.filter (fun t => t.1 != p), attached := s.spur.attached.set p (some e),
      engines := s.spur.engines.set e { s.engine e with windows := some (p, s.portOwner p) } } } :=
  State.attach_free (s := { s with spur := { s.spur with takeovers := s.spur.takeovers.filter (fun t => t.1 != p) } }) h e

theorem takeoverDone_exec (hfind : s.spur.takeovers.find? (fun u => u.1 == p) = some (p, e)) :
    exec (.takeoverDone p) s = finish ((((s.takeoverAttached p e).takeoverSettled p).returnPort p).passFifo p) := by
  show execTakeoverDone p s = _
  unfold execTakeoverDone
  rw [hfind]
  rfl

theorem takeoverDone_returns (hfind : s.spur.takeovers.find? (fun u => u.1 == p) = some (p, e)) (hisolated : (s.port p).state = .isolated)
    (hprior : running (s.port p).prior = true) (hpending : (s.port p).holdPending = none) (hattached : s.spur.attached[p] = none)
    (htest : s.underTest p = false) :
    Does (.takeoverDone p) s fun t => t.spur.attached[p] = some e ∧ (t.port p).state = (s.port p).prior ∧ (t.port p).fifo = [] ∧
      t.spur.takeovers = s.spur.takeovers.filter (fun u => u.1 != p) ∧ t.rb (.port p .evt) 0 = true ∧
      t.engine e = { s.engine e with windows := some (p, s.portOwner p) } ∧ ∀ f, f ≠ e → t.engine f = s.engine f := by
  have heq := State.takeoverAttached_eq hattached e
  have hspur := congrArg State.spur heq
  have hport : (s.takeoverAttached p e).port p = s.port p := congrArg (·.port p) heq
  have hcairn : (s.takeoverAttached p e).cairn = s.cairn := by rw [heq]
  have hv := (s.takeoverAttached p e).takeoverSettled_portStays p
  have htest' : ((s.takeoverAttached p e).takeoverSettled p).underTest p = false := by
    unfold State.underTest at htest ⊢
    rwa [hv.cairn, hcairn]
  have he := takeoverDone_exec hfind
  generalize (s.takeoverAttached p e).takeoverSettled p = v at hv htest' he
  have hstate : (v.port p).state = .isolated := by rw [hv.state, hport, hisolated]
  have hprior' : (v.port p).prior = (s.port p).prior := by rw [hv.prior, hport]
  obtain ⟨y, hy, hreturns⟩ := State.returnPort_running hstate (by rw [hprior', hprior]) (by rw [hv.holdPending, hport, hpending]) htest'
  rw [hprior'] at hy
  have hne : (v.port p).state ≠ y.state := fun h => by
    rw [hy, hstate] at h
    rw [← h] at hprior
    exact absurd hprior nofun
  have hevt := (PortBecomes.showPort hne).evt
  have hshown := (AtPort.refl v p).showPort y
  obtain ⟨hfifo, hstays⟩ := State.passFifo_port (v.showPort p y) p
  have honly := State.passFifo_frame (v.showPort p y) p
  have hspurs : ((v.showPort p y).passFifo p).spur = (s.takeoverAttached p e).spur := by rw [honly.2 .spur (by decide), hshown.spur, hv.spur]
  rw [hreturns] at he
  refine .of_finish he ?_
  simp only [State.engine_ended, State.spur_ended, State.announce_port, State.noteMay_port]
  simp only [State.engine, hspurs, hspur]
  refine ⟨?_, ?_, hfifo, trivial, ?_, ?_, fun f hf => ?_⟩
  · exact Vector.getElem_set_self _
  · rw [hstays, hshown.port, hy]
  · rw [State.announce_rb _ _ _ (show blockOf (.port p .evt) ≠ .guard from nofun), State.noteMay_rb, State.rb, honly.2 (.regs .port) (by decide) _ rfl, hevt]
    exact bit_setBit_self _ (by decide)
  · exact State.engine_setEngine_same s e _
  · exact State.engine_setEngine_other s _ hf

end takeover

/-- Settles O50: a lost engine leaves its port ISOLATED, with a takeover or in the order of loss; a load and the end of a takeover attach the spare. -/
theorem engineLossAndTakeover : Obligations.EngineLossAndTakeover := by
  unfold Obligations.EngineLossAndTakeover
  refine ⟨?waits, ?takesOver, fun _ _ _ => engineLoadDone_serves, fun _ _ _ => takeoverDone_returns⟩
  case waits =>
    intro s e p cause hactive hbreaks hport hattached hswap htakeovers hrun
    exact engineLoss_waits ⟨hactive, hport, hattached, hswap, htakeovers, hrun⟩ hbreaks
  case takesOver =>
    intro s e p cause n hactive hbreaks hport hattached hswap htakeovers hrun
    exact engineLoss_takesOver ⟨hactive, hport, hattached, hswap, htakeovers, hrun⟩ hbreaks

end Sys2Proof.Machine

namespace Sys2Proof.Machine

/-! ### Cairn and its event bits after the end of a command (R424, R458) -/

section ended
variable (u : State)

theorem State.cairn_ended : u.noteMay.announce.cairn = u.cairn := by rw [State.announce_cairn, State.noteMay_cairn]

theorem State.belay_ended : u.noteMay.announce.belay = u.belay := by rw [State.announce_belay, State.noteMay_belay]

theorem State.dev_ended : u.noteMay.announce.dev = u.dev := by rw [State.announce_dev, State.noteMay_dev]

theorem State.comp_ended (c : Fin 7) : u.noteMay.announce.comp c = u.comp c := by rw [State.comp, State.cairn_ended, State.comp]

/-- A register apart from the MASK and STORM words. -/
theorem State.plainReg_ended (r : Reg) (h : blockOf r ≠ .guard) : u.noteMay.announce.reg r = u.reg r := by
  rw [State.announce_reg _ _ h, State.noteMay_reg]

end ended

section events
variable {s u t : State} {i j : Nat}

/-- What an event bit of CRN_EVT leaves in Cairn: the manager's latch of it (R458). -/
def Cairn.noted (c : Cairn) (i : Nat) : Cairn := { c with smbEvt := if i < 12 then c.smbEvt ||| BitVec.ofNat 12 (2 ^ i) else c.smbEvt }

theorem State.crnEvent_eq (s : State) (i : Nat) : s.crnEvent i = (s.raise (.fn 0 .crnEvt) i).setCairn (s.cairn.noted i) := by
  unfold State.crnEvent Cairn.noted State.setCairn
  dsimp only
  split
  · rfl
  · rfl

@[simp] theorem State.crnEvent_cairn (s : State) (i : Nat) : (s.crnEvent i).cairn = s.cairn.noted i := by rw [State.crnEvent_eq]; rfl
@[simp] theorem State.crnEvent_log (s : State) (i : Nat) : (s.crnEvent i).log = s.log := by rw [State.crnEvent_eq]; rfl
@[simp] theorem State.crnEvent_belay (s : State) (i : Nat) : (s.crnEvent i).belay = s.belay := by rw [State.crnEvent_eq]; rfl
@[simp] theorem State.crnEvent_tmu (s : State) (i : Nat) : (s.crnEvent i).tmu = s.tmu := by rw [State.crnEvent_eq]; rfl
@[simp] theorem State.crnEvent_raw (s : State) (i : Nat) : (s.crnEvent i).raw = s.raw := by rw [State.crnEvent_eq]; rfl
@[simp] theorem State.crnEvent_dev (s : State) (i : Nat) : (s.crnEvent i).dev = s.dev := by rw [State.crnEvent_eq]; rfl
@[simp] theorem State.crnEvent_spur (s : State) (i : Nat) : (s.crnEvent i).spur = s.spur := by rw [State.crnEvent_eq]; rfl
@[simp] theorem State.crnEvent_ports (s : State) (i : Nat) : (s.crnEvent i).ports = s.ports := by rw [State.crnEvent_eq]; rfl
@[simp] theorem State.crnEvent_tarn (s : State) (i : Nat) : (s.crnEvent i).tarn = s.tarn := by rw [State.crnEvent_eq]; rfl
@[simp] theorem State.crnEvent_flt (s : State) (i : Nat) : (s.crnEvent i).flt = s.flt := by rw [State.crnEvent_eq]; rfl

theorem State.crnEvent_reg_event (s : State) (i : Nat) : (s.crnEvent i).reg (.fn 0 .crnEvt) = setBit (s.reg (.fn 0 .crnEvt)) i := by
  rw [State.crnEvent_eq]
  exact State.reg_raise_same s _ _

theorem State.crnEvent_reg (s : State) (i : Nat) {r : Reg} (h : r ≠ .fn 0 .crnEvt) : (s.crnEvent i).reg r = s.reg r := by
  rw [State.crnEvent_eq]
  exact State.reg_raise_other s _ _ _ h

theorem State.crnEvent_rb (s : State) (hi : i < 64) : (s.crnEvent i).rb (.fn 0 .crnEvt) i = true := by
  rw [State.rb, State.crnEvent_reg_event, bit_setBit_self _ hi]

theorem State.crnEvent_rb_stays (i : Nat) (hj : j < 64) (h : s.rb (.fn 0 .crnEvt) j = true) : (s.crnEvent i).rb (.fn 0 .crnEvt) j = true := by
  rw [State.rb, State.crnEvent_reg_event]
  exact bit_setBit_of_bit i hj h

/-- t is what the end of a command leaves of u with an event bit of D0 set. -/
structure Noted (u t : State) (i : Nat) : Prop where
  cairn : t.cairn = u.cairn.noted i
  event : i < 64 → t.rb (.fn 0 .crnEvt) i = true
  stays : ∀ j, j < 64 → u.rb (.fn 0 .crnEvt) j = true → t.rb (.fn 0 .crnEvt) j = true
  reg : ∀ r, r ≠ .fn 0 .crnEvt → blockOf r ≠ .guard → t.reg r = u.reg r
  otherRegs : OtherRegs u t [.fn 0 .crnEvt]
  logged : Logged u t []
  belay : t.belay = u.belay

theorem State.crnEvent_noted (u : State) (i : Nat) : Noted u (u.crnEvent i).noteMay.announce i where
  cairn := by rw [State.cairn_ended, State.crnEvent_cairn]
  event hi := by rw [State.rb, State.plainReg_ended _ (.fn 0 .crnEvt) nofun]; exact u.crnEvent_rb hi
  stays j hj h := by rw [State.rb, State.plainReg_ended _ (.fn 0 .crnEvt) nofun]; exact State.crnEvent_rb_stays i hj h
  reg r hr hg := by rw [State.plainReg_ended _ _ hg, State.crnEvent_reg _ _ hr]
  otherRegs := .of_reg fun _ hr => u.crnEvent_reg i hr
  logged := Logged.of_log (by rw [State.crnEvent_log, List.append_nil])
  belay := by rw [State.belay_ended, State.crnEvent_belay]

/-- The intake of the log in two steps. -/
theorem Logged.of_mid {l m : List (DWord × LogRec)} (h : u.log = { s.log with intake := s.log.intake ++ l }) (g : Logged u t m) : Logged s t (l ++ m) := by
  obtain ⟨hsame, hqueued⟩ := g
  rw [Part.log_same, h] at hsame
  rw [h] at hqueued
  exact ⟨hsame, by rwa [List.append_assoc] at hqueued⟩

theorem OtherRegs.of_mid {rs : List Reg} (h : OtherRegs u t rs) (hu : ∀ r, r ∉ rs → u.reg r = s.reg r) : OtherRegs s t rs := fun r hr => hu r hr ▸ h r hr

theorem Sends.of_out {o : Output} (h : Sends u t o) (hu : u.out = s.out) : Sends s t o := by rwa [Sends, ← hu]

theorem Does.imp {c : Instr} {p q : State → Prop} (h : Does c s p) (hpq : ∀ t, p t → q t) : Does c s q := by
  obtain ⟨t, he, hp⟩ := h
  exact ⟨t, he, hpq t hp⟩

/-- A record changes the log alone (R451). -/
theorem State.record_eq (s : State) (dom : BitVec 5) (sev : BitVec 3) (sens : Bool) (src code : Byte) (a0 a1 : Word) :
    ∃ l g, s.record dom sev sens src code a0 a1 = { s with log := l } ∧ l = { s.log with intake := g, lost := l.lost, owed := l.owed } := by
  unfold State.record
  dsimp only
  split
  · exact ⟨_, _, rfl, rfl⟩
  · split
    · exact ⟨_, _, rfl, rfl⟩
    · exact ⟨_, _, rfl, rfl⟩

end events

end Sys2Proof.Machine

namespace Sys2Proof.Machine

/-! ### DEV_MODE (R438 to R442) -/

section mode
variable {s u : State} {d : Dom} {v : Word}

/-- A passage of the mode changes Cairn, and the log where DEV_MSTAT shows it. -/
theorem State.modeGoes_eq (s : State) (c : Cairn) : ∃ g, s.modeGoes c = { s with cairn := c, log := g } := by
  unfold State.modeGoes
  dsimp only
  split
  · exact ⟨_, rfl⟩
  · obtain ⟨g, _, hg, -⟩ := State.record_eq (s.setCairn c) devCode 2 false 0x0C 0x01 s.mstat (s.setCairn c).mstat
    exact ⟨g, hg⟩

@[simp] theorem State.modeGoes_cairn (s : State) (c : Cairn) : (s.modeGoes c).cairn = c := by obtain ⟨g, h⟩ := s.modeGoes_eq c; rw [h]
@[simp] theorem State.modeGoes_regs (s : State) (c : Cairn) : (s.modeGoes c).regs = s.regs := by obtain ⟨g, h⟩ := s.modeGoes_eq c; rw [h]
@[simp] theorem State.modeGoes_out (s : State) (c : Cairn) : (s.modeGoes c).out = s.out := by obtain ⟨g, h⟩ := s.modeGoes_eq c; rw [h]

theorem State.modeGoes_reg (s : State) (c : Cairn) (r : Reg) : (s.modeGoes c).reg r = s.reg r := by rw [State.reg, State.modeGoes_regs, State.reg]

/-- DEV_MODE as an accepted write leaves it. -/
def State.modeSet (s : State) (v : Word) : State := s.setReg (.dev .mode) ((v &&& 0x1F1).setWidth 64)

/-- Cairn where a raise to a code begins (R442). -/
def Cairn.raised (c : Cairn) (vid : BitVec 4) (raw : DWord) : Cairn := { c with mode := .raising, vidBefore := c.vidNow, vidNow := vid, vidAt := raw }

theorem State.writeMode_accepted (dom : BitVec 5) (h : s.modeRefusal v = 0) :
    s.writeMode dom v = (0, (s.modeSet v).modeActs v (s.rb (.dev .mode) 8)) := if_neg (not_not.2 h)

theorem State.writeMode_refused (dom : BitVec 5) (h : s.modeRefusal v ≠ 0) (hsame : s.sameMode v = false) :
    s.writeMode dom v = (s.modeRefusal v, (s.setCairn { s.cairn with reason := s.modeRefusal v }).record dom 3 false 0x01 0x01 0x100 v) :=
  (if_pos h).trans (if_neg (by rw [hsame]; decide))

theorem Writes.modeWrite (hw : Writes s d 0) (v : Word) : exec (.modeWrite d v) s = finish (s.writeMode 0 v).2 :=
  hw.ownedWrite (Reg.dev .mode).off v fun s => (s.writeMode 0 v).2

/-- What the state of R442 makes of an accepted write, by the state and the mode asked for. -/
theorem State.modeActs_raises (ret : Bool) (hmode : s.cairn.mode = .base) (hbit : v.getLsbD 0 = true) (hcool : s.tmax < s.cairn.hi) :
    s.modeActs v ret = s.modeGoes (s.cairn.raised ((v >>> 4).setWidth 4) s.raw) := by
  unfold State.modeActs
  dsimp only
  rw [hmode, hbit]
  exact if_pos hcool

theorem State.modeActs_holds (ret : Bool) (hmode : s.cairn.mode = .base) (hbit : v.getLsbD 0 = true) (hhot : s.cairn.hi ≤ s.tmax) :
    s.modeActs v ret = s.modeGoes { s.cairn with mode := .held } := by
  unfold State.modeActs
  dsimp only
  rw [hmode, hbit]
  exact if_neg (not_lt.2 hhot)

theorem State.modeActs_code (ret : Bool) (hmode : s.cairn.mode = .summit) (hbit : v.getLsbD 0 = true) :
    s.modeActs v ret = s.modeGoes { s.cairn with vidNow := (v >>> 4).setWidth 4 } := by
  unfold State.modeActs
  dsimp only
  rw [hmode, hbit]

theorem State.modeActs_base (ret : Bool) (hmode : s.cairn.mode ≠ .raising) (hbit : v.getLsbD 0 = false) :
    s.modeActs v ret = s.modeGoes { s.cairn with mode := .base, vidNow := (v >>> 4).setWidth 4 } := by
  unfold State.modeActs
  dsimp only
  rw [hbit]
  cases hm : s.cairn.mode with
  | raising => exact absurd hm hmode
  | base => rfl
  | summit => rfl
  | held => rfl

/-- An accepted write of DEV_MODE leaves its fields, and Cairn as the state of R442 makes it. -/
theorem modeWrite_leaves {c : Cairn} (hw : Writes s d 0) (hok : s.modeRefusal v = 0)
    (hacts : (s.modeSet v).modeActs v (s.rb (.dev .mode) 8) = (s.modeSet v).modeGoes c) :
    Does (.modeWrite d v) s fun t => t.cairn = c ∧ t.reg (.dev .mode) = (v &&& 0x1F1).setWidth 64 ∧ OtherRegs s t [.dev .mode] := by
  have he : exec (.modeWrite d v) s = finish ((s.modeSet v).modeGoes c) := by rw [hw.modeWrite, State.writeMode_accepted 0 hok, hacts]
  refine .of_finish he ⟨?_, ?_, .of_reg fun r hr => ?_⟩
  · rw [State.cairn_ended, State.modeGoes_cairn]
  · rw [State.plainReg_ended _ (.dev .mode) nofun, State.modeGoes_reg]
    exact State.reg_setReg_same _ _ _
  · rw [State.modeGoes_reg]
    exact State.reg_setReg_other _ _ _ _ hr

theorem modeWrite_refused (hw : Writes s d 0) (hrefused : s.modeRefusal v ≠ 0) (hsame : s.sameMode v = false) :
    Does (.modeWrite d v) s fun t => t.cairn = { s.cairn with reason := s.modeRefusal v } ∧ SameRegs s t := by
  have he := hw.modeWrite v
  rw [State.writeMode_refused 0 hrefused hsame] at he
  refine .of_finish he ⟨?_, .of_regs ?_⟩
  · rw [State.cairn_ended, State.record_cairn]
    rfl
  · rw [State.record_regs]
    rfl

end mode

/-! ### The end of a raise, and the governor (R442) -/

section governor
variable {s : State}

theorem State.waitFrom_cairn (s : State) (r : DWord) (n : Nat) : (s.waitFrom r n).cairn = s.cairn := (s.advance_frame _).2 .cairn (by decide)
theorem State.waitFrom_regs (s : State) (r : DWord) (n : Nat) : (s.waitFrom r n).regs = s.regs := s.advance_regs _

/-- A passage of the mode with an event bit. -/
theorem modeGoes_event {c : Instr} {x : State} {g : Cairn} {i : Nat} (he : exec c s = finish ((x.modeGoes g).crnEvent i)) (hi : i < 64) :
    Does c s fun t => t.cairn = g.noted i ∧ t.rb (.fn 0 .crnEvt) i = true ∧ OtherRegs x t [.fn 0 .crnEvt] := by
  have h := (x.modeGoes g).crnEvent_noted i
  refine .of_finish he ⟨by rw [h.cairn, State.modeGoes_cairn], h.event hi, h.otherRegs.of_mid fun r _ => x.modeGoes_reg g r⟩

theorem raiseConfirmed_leaves (hraise : s.cairn.mode = .raising) :
    Does .raiseConfirmed s fun t => t.cairn.mode = .summit ∧ t.cairn.vidNow = s.cairn.vidNow ∧ t.cairn.smbEvt.getLsbD 0 = true ∧ t.rb (.fn 0 .crnEvt) 0 = true ∧
      OtherRegs (s.waitFrom s.cairn.vidAt (us 200)) t [.fn 0 .crnEvt] := by
  let w := s.waitFrom s.cairn.vidAt (us 200)
  have he : exec .raiseConfirmed s = finish ((w.modeGoes { w.cairn with mode := .summit }).crnEvent 0) := if_pos hraise
  refine (modeGoes_event he (by decide)).imp fun t ⟨hcairn, hevent, hregs⟩ => ?_
  rw [show w.cairn = s.cairn from State.waitFrom_cairn _ _ _] at hcairn
  refine ⟨by rw [hcairn]; rfl, by rw [hcairn]; rfl, ?_, hevent, hregs⟩
  rw [hcairn, Cairn.noted]
  simp

theorem raiseTimeout_leaves (hraise : s.cairn.mode = .raising) :
    Does .raiseTimeout s fun t => t.cairn.mode = .base ∧ t.cairn.vidNow = s.cairn.vidBefore ∧ t.cairn.reason = 4 ∧ t.rb (.dev .mode) 0 = false ∧
      t.rb (.fn 0 .crnEvt) 1 = true ∧ OtherRegs (s.waitFrom s.cairn.vidAt (ms 2)) t [.dev .mode, .fn 0 .crnEvt] := by
  let w := s.waitFrom s.cairn.vidAt (ms 2)
  let u := (w.modeGoes { w.cairn with mode := .base, vidNow := w.cairn.vidBefore, reason := 4 }).setRf (.dev .mode) 0 1 0
  have he : exec .raiseTimeout s = finish (u.crnEvent 1) := if_neg (not_not.2 hraise)
  have h := u.crnEvent_noted 1
  have hcairn : u.cairn = { s.cairn with mode := .base, vidNow := s.cairn.vidBefore, reason := 4 } := by
    rw [State.setRf_cairn, State.modeGoes_cairn, State.waitFrom_cairn]
  refine .of_finish he ⟨?_, ?_, ?_, ?_, h.event (by decide), fun r hr => ?_⟩
  · rw [h.cairn, hcairn]; rfl
  · rw [h.cairn, hcairn]; rfl
  · rw [h.cairn, hcairn]; rfl
  · rw [State.rb, h.reg (.dev .mode) nofun nofun]
    exact (congrArg (bit · 0) (State.reg_setReg_same _ _ _)).trans (bit_putFld_one _ 0 0 (by decide))
  · obtain ⟨hmode, hevt⟩ := not_or.1 (fun c => hr (List.mem_cons.2 (c.imp_right List.mem_singleton.2)))
    have hk := h.otherRegs r (fun c => hevt (List.mem_singleton.1 c))
    rwa [show u.reg r = w.reg r from (State.reg_setReg_other _ _ _ _ hmode).trans (State.modeGoes_reg _ _ _)] at hk

theorem govFallback_leaves {h : DWord} (hmode : s.cairn.mode = .summit) (hhot : s.cairn.hotSince = some h) :
    Does .govFallback s fun t => t.cairn.mode = .held ∧ t.cairn.vidNow = s.cairn.fbVid ∧
      t.cairn.fallbacks = (if s.cairn.fallbacks = 0xFF then 0xFF else s.cairn.fallbacks + 1) ∧ t.rb (.fn 0 .crnEvt) 2 = true ∧ t.reg (.dev .mode) = s.reg (.dev .mode) := by
  let w := s.waitFrom h (ms 1)
  let c : Cairn := { w.cairn with mode := .held, vidNow := w.cairn.fbVid, fallbacks := if w.cairn.fallbacks = 0xFF then w.cairn.fallbacks else w.cairn.fallbacks + 1 }
  let x := w.modeGoes c
  let u := x.record devCode 3 false 0x0C 0x02 (BitVec.ofInt 32 x.tmax) (BitVec.ofNat 32 x.hottest)
  have he : exec .govFallback s = finish (u.crnEvent 2) := by
    change execGovFallback s = _
    unfold execGovFallback
    rw [hmode, hhot]
    rfl
  have hn := u.crnEvent_noted 2
  have hcairn : u.cairn = c := by rw [State.record_cairn, State.modeGoes_cairn]
  have hw : w.cairn = s.cairn := State.waitFrom_cairn _ _ _
  refine .of_finish he ⟨?_, ?_, ?_, hn.event (by decide), ?_⟩
  · rw [hn.cairn, hcairn]; rfl
  · rw [hn.cairn, hcairn, ← hw]; rfl
  · rw [hn.cairn, hcairn, ← hw]
    refine ite_congr rfl (fun hmax => hmax) fun _ => rfl
  · rw [hn.reg (.dev .mode) nofun nofun, State.reg_record, State.modeGoes_reg, State.reg, State.waitFrom_regs, State.reg]

theorem govReturn_leaves {h : DWord} (hmode : s.cairn.mode = .held) (hcool : s.cairn.coolSince = some h) (hret : s.rb (.dev .mode) 8 = true) :
    Does .govReturn s fun t => t.cairn.mode = .raising ∧ t.cairn.vidNow = BitVec.ofNat 4 (s.rf (.dev .mode) 4 4) ∧ t.cairn.vidBefore = s.cairn.vidNow ∧
      t.rb (.fn 0 .crnEvt) 3 = true ∧ t.reg (.dev .mode) = s.reg (.dev .mode) := by
  let w := s.waitFrom h (sec (max 1 s.cairn.govHold.toNat))
  have hreg : w.reg (.dev .mode) = s.reg (.dev .mode) := by rw [State.reg, State.waitFrom_regs, State.reg]
  have he : exec .govReturn s = finish ((w.modeGoes (w.cairn.raised (BitVec.ofNat 4 (w.rf (.dev .mode) 4 4)) w.raw)).crnEvent 3) := by
    change execGovReturn s = _
    unfold execGovReturn
    rw [hmode, hcool]
    exact if_neg (by rw [hret]; decide)
  refine (modeGoes_event he (by decide)).imp fun t ⟨hcairn, hevent, hregs⟩ => ?_
  refine ⟨by rw [hcairn]; rfl, ?_, ?_, hevent, ?_⟩
  · rw [hcairn]
    exact congrArg (fun x => BitVec.ofNat 4 (fld x 4 4)) hreg
  · rw [hcairn, ← State.waitFrom_cairn s h (sec (max 1 s.cairn.govHold.toNat))]; rfl
  · rcases hregs (.dev .mode) (by decide) with hk | ⟨hg, -⟩
    · rw [hk, hreg]
    · exact absurd hg nofun

end governor

/-! ### Fields that take what is written, and the governor's thresholds (R15, R444) -/

section fields
variable {s : State} {d : Dom} {r : Reg} {v : Word}

theorem getLsbD_takeFld {old w acc : DWord} {lo n i : Nat} (hi : i < 64) (h : acc.getLsbD i = old.getLsbD i ∨ acc.getLsbD i = w.getLsbD i) :
    (takeFld old w lo n acc).getLsbD i = if lo ≤ i ∧ i < lo + n then w.getLsbD i else acc.getLsbD i := by
  unfold takeFld
  split
  next heq =>
    split
    next hin => exact h.elim (fun ho => ho.trans (fld_eq_iff.1 heq i hin.1 hin.2).symm) id
    next => rfl
  next =>
    rw [getLsbD_putFld _ _ _ _ _ hi]
    split
    next hin => rw [testBit_fld, Nat.add_sub_cancel' hin.1, decide_eq_true (by omega), Bool.true_and]
    next => rfl

/-- A register all of whose fields in fs take what is written. -/
def takeFlds (old w : DWord) (fs : List Field) (acc : DWord) : DWord := fs.foldl (fun acc f => takeFld old w f.lo f.width acc) acc

theorem getLsbD_takeFlds {old w : DWord} {fs : List Field} {i : Nat} (hi : i < 64) (hin : ∃ f ∈ fs, f.lo ≤ i ∧ i < f.lo + f.width) {acc : DWord}
    (h : acc.getLsbD i = old.getLsbD i ∨ acc.getLsbD i = w.getLsbD i) : (takeFlds old w fs acc).getLsbD i = w.getLsbD i := by
  have hstays : ∀ (l : List Field) (a : DWord), a.getLsbD i = w.getLsbD i → (takeFlds old w l a).getLsbD i = w.getLsbD i := by
    intro l
    induction l with
    | nil => exact fun _ ha => ha
    | cons f l ih => exact fun a ha => ih _ (by rw [getLsbD_takeFld hi (.inr ha), ha, ite_self])
  induction fs generalizing acc with
  | nil => exact absurd hin (by simp)
  | cons f l ih =>
    have hf := getLsbD_takeFld (lo := f.lo) (n := f.width) hi h
    by_cases hhere : f.lo ≤ i ∧ i < f.lo + f.width
    · exact hstays l _ (hf.trans (if_pos hhere))
    · obtain ⟨g, hg, hgi⟩ := hin
      have hne : g ≠ f := fun e => hhere (e ▸ hgi)
      refine ih ⟨g, (List.mem_cons.1 hg).resolve_left hne, hgi⟩ ?_
      rwa [hf, if_neg hhere]

/-- What a write makes of one field (R14, R15, R18). -/
def State.fieldTake (s : State) (d : Dom) (r : Reg) (mask v : DWord) (acc : DWord × Bool) (f : Field) : DWord × Bool :=
  let old := s.reg r
  let o := fld old f.lo f.width
  let w := fld ((old &&& ~~~ mask) ||| (v &&& mask)) f.lo f.width
  match f.acc with
  | .wo => acc
  | .rw1c => (putFld acc.1 f.lo f.width (fld (old &&& ~~~ (v &&& mask)) f.lo f.width), acc.2)
  | _ => if w = o then acc else if s.fieldOk d r f then (putFld acc.1 f.lo f.width w, acc.2) else (acc.1, true)

theorem State.fieldWrite_eq (s : State) (d : Dom) (r : Reg) (mask v : DWord) (skip : Field → Bool) :
    s.fieldWrite d r mask v skip = (r.fields.filter (fun f => !skip f)).foldl (s.fieldTake d r mask v) (s.reg r, false) := rfl

/-- A field that a write may change takes its value (R15). -/
theorem State.fieldTake_eq (s : State) {a : DWord} {f : Field} (hwo : f.acc ≠ .wo) (hclear : f.acc ≠ .rw1c) (hok : s.fieldOk d r f = true) :
    s.fieldTake d r mask32 (v.setWidth 64) (a, false) f = (takeFld (s.reg r) (lowWritten (s.reg r) v) f.lo f.width a, false) := by
  have hw : s.fieldTake d r mask32 (v.setWidth 64) (a, false) f =
      if fld (lowWritten (s.reg r) v) f.lo f.width = fld (s.reg r) f.lo f.width then (a, false)
      else if s.fieldOk d r f then (putFld a f.lo f.width (fld (lowWritten (s.reg r) v) f.lo f.width), false) else (a, true) := by
    unfold State.fieldTake
    cases hacc : f.acc with
    | wo => exact absurd hacc hwo
    | rw1c => exact absurd hacc hclear
    | rwo => rfl
    | rws => rfl
    | rw => rfl
  rw [hw, hok, if_pos rfl, takeFld]
  split
  · rfl
  · rfl

/-- A write of which no field is refused (R15). -/
theorem State.fieldWrite_takes (hok : ∀ f ∈ r.fields, f.acc ≠ .wo ∧ f.acc ≠ .rw1c ∧ s.fieldOk d r f = true) :
    s.fieldWrite d r mask32 (v.setWidth 64) (fun _ => false) = (takeFlds (s.reg r) (lowWritten (s.reg r) v) r.fields (s.reg r), false) := by
  have hfold : ∀ (l : List Field) (a : DWord), (∀ f ∈ l, f.acc ≠ .wo ∧ f.acc ≠ .rw1c ∧ s.fieldOk d r f = true) →
      l.foldl (fun acc f => s.fieldTake d r mask32 (v.setWidth 64) acc f) (a, false) = (takeFlds (s.reg r) (lowWritten (s.reg r) v) l a, false) := by
    intro l
    induction l with
    | nil => exact fun _ _ => rfl
    | cons f l ih =>
      intro a hl
      obtain ⟨hwo, hclear, hallowed⟩ := hl f List.mem_cons_self
      rw [List.foldl_cons, s.fieldTake_eq hwo hclear hallowed]
      exact ih _ fun g hg => hl g (List.mem_cons_of_mem _ hg)
  rw [State.fieldWrite_eq, show r.fields.filter (fun f => !(fun _ => false) f) = r.fields from List.filter_eq_self.2 fun _ _ => rfl]
  exact hfold _ _ hok

/-- A run of bits that the fields of a register cover takes what is written (R15). -/
theorem fld_takeFlds {old : DWord} {fs : List Field} {n : Nat} (hn : n ≤ 32) (hcover : ∀ i, i < n → ∃ f ∈ fs, f.lo ≤ i ∧ i < f.lo + f.width) :
    fld (takeFlds old (lowWritten old v) fs old) 0 n = v.toNat % 2 ^ n := by
  have hbits : fld (takeFlds old (lowWritten old v) fs old) 0 n = fld (lowWritten old v) 0 n :=
    fld_eq_iff.2 fun i _ hi => getLsbD_takeFlds (by omega) (hcover i (by omega)) (.inl rfl)
  rw [hbits, fld_lowWritten _ _ (by omega), pow_zero, Nat.div_one]

end fields

section thresholds
variable {s : State} {d : Dom} {hold : Bool} {v : Word}

/-- The register that GOV_WRITE names. -/
def govReg (hold : Bool) : Reg := .crn (if hold then .govhold else .gov)

theorem Writes.govWrite (hw : Writes s d 0) (hold : Bool) (v : Word) : exec (.govWrite d hold v) s = finish (s.writeGov d hold v) :=
  hw.ownedWrite (govReg hold).off v fun s => s.writeGov d hold v

theorem State.fieldOk_rwo {r : Reg} {f : Field} (h : f.acc = .rwo) : s.fieldOk d r f = (d == 0) := by
  unfold State.fieldOk
  rw [h]

/-- Both registers of the governor are D0's to write (R444). -/
theorem govReg_fieldOk (s : State) (hold : Bool) : ∀ f ∈ (govReg hold).fields, f.acc ≠ .wo ∧ f.acc ≠ .rw1c ∧ s.fieldOk 0 (govReg hold) f = true := by
  have hrwo : ∀ f ∈ (govReg hold).fields, f.acc = .rwo := by cases hold <;> decide
  intro f hf
  rw [State.fieldOk_rwo (hrwo f hf), hrwo f hf]
  exact ⟨nofun, nofun, rfl⟩

/-- A register of the governor with its fields written. -/
def State.govSet (s : State) (hold : Bool) (v : Word) : DWord :=
  takeFlds (s.reg (govReg hold)) (lowWritten (s.reg (govReg hold)) v) (govReg hold).fields (s.reg (govReg hold))

theorem State.writeGov_eq (s : State) (hold : Bool) (v : Word) : s.writeGov 0 hold v =
    if s.govSet hold v == s.reg (govReg hold) && s.cairn.running then s
    else if !s.cairn.running || (!hold && !s.govOk v) then s.refuse 0 (govReg hold) mask32 (v.setWidth 64)
    else s.setReg (govReg hold) (s.govSet hold v) := by
  have htakes := State.fieldWrite_takes (v := v) (govReg_fieldOk s hold)
  have hfields : s.writeFields 0 (govReg hold) mask32 (v.setWidth 64) (fun _ => false) = s.setReg (govReg hold) (s.govSet hold v) := by
    unfold State.writeFields
    rw [htakes]
    rfl
  have hset : s.govSet hold v = (s.fieldWrite 0 (govReg hold) mask32 (v.setWidth 64) (fun _ => false)).1 := (congrArg Prod.fst htakes).symm
  rw [← hfields, hset]
  rfl

/-- A write that keeps the rules of the registers leaves its value in the fields, and nothing else (R444). -/
theorem govWrite_takes (hw : Writes s d 0) (hup : s.cairn.running = true) (hok : hold = true ∨ s.govOk v = true) {n : Nat} (hn : n ≤ 32)
    (hcover : ∀ i, i < n → ∃ f ∈ (govReg hold).fields, f.lo ≤ i ∧ i < f.lo + f.width) :
    Does (.govWrite d hold v) s fun t => t.rf (govReg hold) 0 n = v.toNat % 2 ^ n ∧ OtherRegs s t [govReg hold] ∧ t.cairn = s.cairn := by
  obtain rfl : 0 = d := hw.2.2
  have hkeeps : (!s.cairn.running || (!hold && !s.govOk v)) = false := by rcases hok with h | h <;> simp [hup, h]
  have hval : fld (s.govSet hold v) 0 n = v.toNat % 2 ^ n := fld_takeFlds hn hcover
  have hplain : blockOf (govReg hold) ≠ .guard := nofun
  have hwrite := s.writeGov_eq hold v
  rw [hkeeps, if_neg Bool.false_ne_true, hup, Bool.and_true] at hwrite
  refine .of_finish (hw.govWrite hold v) ?_
  rw [State.rf, State.plainReg_ended _ _ hplain, State.cairn_ended, hwrite]
  split
  next hsame => exact ⟨by rw [← eq_of_beq hsame, hval], (SameRegs.of_regs rfl).other _, rfl⟩
  next => exact ⟨by rw [State.reg_setReg_same, hval], .of_reg fun q hq => State.reg_setReg_other _ _ _ _ hq, rfl⟩

/-- A write that breaks the rules, or that finds the firmware out, leaves at most its record (R434, R444). -/
theorem govWrite_dropped (hw : Writes s d 0) (hno : s.cairn.running = false ∨ s.govOk v = false) :
    Does (.govWrite d false v) s fun t => SameRegs s t ∧ t.cairn = s.cairn := by
  obtain rfl : 0 = d := hw.2.2
  have hdrops : (!s.cairn.running || (!false && !s.govOk v)) = true := by rcases hno with h | h <;> simp [h]
  have hwrite := s.writeGov_eq false v
  rw [hdrops, if_pos rfl] at hwrite
  refine .of_finish (hw.govWrite false v) ?_
  rw [State.cairn_ended, hwrite]
  split
  · exact ⟨.of_regs rfl, rfl⟩
  · exact ⟨.of_regs (State.record_regs _ _ _ _ _ _ _ _), State.record_cairn _ _ _ _ _ _ _ _⟩

end thresholds

/-- Settles O58: an accepted write and each passage of the governor are one change of Cairn's mode, an event bit and the registers named; the thresholds
are four fields that cover 28 bits. -/
theorem operatingModes : Obligations.OperatingModes := by
  unfold Obligations.OperatingModes
  refine ⟨fun s d v hw hok hmode hbit hcool => ?_, fun s d v hw hok hmode hbit hhot => ?_, fun s d v hw hok hmode hbit => ?_, fun s d v hw hok hmode hbit => ?_,
    fun _ _ _ hw hrefused hsame => modeWrite_refused hw hrefused hsame, fun _ hraise => raiseConfirmed_leaves hraise, fun _ hraise => raiseTimeout_leaves hraise,
    fun _ _ hmode hhot => govFallback_leaves hmode hhot, fun _ _ hmode hcool hret => govReturn_leaves hmode hcool hret, fun s d v hw hup hok => ?_,
    fun s d v hw hup => ?_, fun s d v hw hno => govWrite_dropped hw (hno.imp_right And.left)⟩
  case refine_1 =>
    exact (modeWrite_leaves hw hok (State.modeActs_raises _ hmode hbit hcool)).imp fun t ⟨hcairn, hreg, hregs⟩ =>
      ⟨congrArg Cairn.mode hcairn, congrArg Cairn.vidNow hcairn, congrArg Cairn.vidBefore hcairn, hreg, hregs⟩
  case refine_2 => exact modeWrite_leaves hw hok (State.modeActs_holds _ hmode hbit hhot)
  case refine_3 => exact modeWrite_leaves hw hok (State.modeActs_code _ hmode hbit)
  case refine_4 => exact modeWrite_leaves hw hok (State.modeActs_base _ hmode hbit)
  case refine_5 =>
    exact govWrite_takes hw hup (.inr hok) (by decide) (by decide)
  case refine_6 => exact govWrite_takes hw hup (.inl rfl) (by decide) (by decide)

end Sys2Proof.Machine

namespace Sys2Proof.Machine

/-! ### The staging area (R463, R464) -/

section staging
variable {s : State} {who : Holder} {o : Nat} {bs : List Byte} {programmed : Bool}

theorem blocks_length (n : Nat) (bs : List Byte) : (blocks n bs).length = n := by
  induction n generalizing bs with
  | zero => rfl
  | succ n ih => rw [blocks, List.length_cons, ih]

theorem blocks_getElem (n : Nat) (bs : List Byte) (i : Nat) (hi : i < (blocks n bs).length) : (blocks n bs)[i] = (bs.drop (256 * i)).take 256 := by
  induction n generalizing bs i with
  | zero => exact absurd hi (Nat.not_lt_zero i)
  | succ n ih =>
    cases i with
    | zero => rfl
    | succ i =>
      rw [show (blocks (n + 1) bs)[i + 1] = (blocks n (bs.drop 256))[i]'(by simpa [blocks] using hi) from rfl, ih, List.drop_drop]
      congr 2
      omega

/-- The table of staged blocks after a write: block by block from a first number on. -/
def stageBlocks (t : Tbl (List Byte)) (first : Nat) (bl : List (List Byte × Nat)) (programmed : Bool) : Tbl (List Byte) :=
  bl.foldl (fun t e => Tbl.put [] t (first + e.2) (if programmed then e.1 else [])) t

/-- Blocks that are programmed read back, and those below them read as before. -/
theorem get_stageBlocks (bl : List (List Byte)) (hne : ∀ b ∈ bl, b ≠ []) (t : Tbl (List Byte)) (first k : Nat) :
    (∀ j, j < k → Tbl.get [] (stageBlocks t first (bl.zipIdx k) true) (first + j) = Tbl.get [] t (first + j)) ∧
      ∀ i (hi : i < bl.length), Tbl.get [] (stageBlocks t first (bl.zipIdx k) true) (first + (k + i)) = bl[i] := by
  induction bl generalizing t k with
  | nil => exact ⟨fun _ _ => rfl, fun i hi => absurd hi (Nat.not_lt_zero i)⟩
  | cons b bl ih =>
    obtain ⟨hbelow, hread⟩ := ih (fun c hc => hne c (List.mem_cons_of_mem _ hc)) (Tbl.put [] t (first + k) b) (k + 1)
    refine ⟨fun j hj => ?_, fun i hi => ?_⟩
    · exact (hbelow j (by omega)).trans (Tbl.get_put_other _ _ _ _ (by omega))
    · cases i with
      | zero => exact (hbelow k (Nat.lt_succ_self k)).trans (Tbl.get_put_same_of_ne _ _ (hne b List.mem_cons_self))
      | succ i =>
        have := hread i (Nat.lt_of_succ_lt_succ hi)
        rwa [Nat.add_assoc, Nat.add_comm 1 i] at this

/-- Cairn after a write to the staging area that is not BUSY (R463). -/
def Cairn.staged (c : Cairn) (who : Holder) (o : Nat) (bs : List Byte) (programmed : Bool) (raw : DWord) : Cairn :=
  let c := if o = 0 then { c with holder := who, staging := [] } else c
  { c with staging := stageBlocks c.staging (o / 256) (blocks (bs.length / 256) bs).zipIdx programmed, stagedAt := raw,
           imgReason := if programmed then c.imgReason else 8 }

theorem State.stageWrite_takes (h : s.cairn.holder = who ∨ (o = 0 ∧ s.cairn.holder = .none_)) :
    s.stageWrite who o bs programmed = some (s.setCairn (s.cairn.staged who o bs programmed s.raw)) :=
  if_neg fun hno => h.elim hno.1 hno.2

theorem State.stageWrite_busy (hheld : s.cairn.holder ≠ .none_) (hother : s.cairn.holder ≠ who) : s.stageWrite who o bs programmed = none :=
  if_pos ⟨hother, fun h => hheld h.2⟩

theorem Cairn.staged_holder (c : Cairn) (raw : DWord) (h : c.holder = who ∨ (o = 0 ∧ c.holder = .none_)) :
    (c.staged who o bs programmed raw).holder = who := by
  unfold Cairn.staged
  dsimp only
  split
  next => rfl
  next hne => exact h.resolve_right fun h => hne h.1

theorem Cairn.staged_comps (c : Cairn) (who : Holder) (o : Nat) (bs : List Byte) (programmed : Bool) (raw : DWord) :
    (c.staged who o bs programmed raw).comps = c.comps := by
  unfold Cairn.staged
  dsimp only
  split
  · rfl
  · rfl

/-- Whole blocks that the flash takes are stored (R463). -/
theorem Cairn.staged_block (c : Cairn) (who : Holder) (o : Nat) (raw : DWord) (hwhole : bs.length % 256 = 0) {i : Nat} (hi : i < bs.length / 256) :
    Tbl.get [] (c.staged who o bs true raw).staging (o / 256 + i) = (bs.drop (256 * i)).take 256 := by
  have hlen := blocks_length (bs.length / 256) bs
  have hne : ∀ b ∈ blocks (bs.length / 256) bs, b ≠ [] := by
    intro b hb
    obtain ⟨j, hj, rfl⟩ := List.getElem_of_mem hb
    refine List.ne_nil_of_length_pos ?_
    rw [blocks_getElem, List.length_take, List.length_drop]
    omega
  obtain ⟨-, hread⟩ := get_stageBlocks _ hne (if o = 0 then { c with holder := who, staging := [] } else c).staging (o / 256) 0
  have := hread i (by omega)
  rw [Nat.zero_add, blocks_getElem] at this
  exact this

end staging

end Sys2Proof.Machine

namespace Sys2Proof.Machine

/-! ### What the service firmware answers over SMBus (R455 to R458) -/

section answers
variable {s u t : State} {bs : List Byte} {c : Instr} {p : State → Prop}

/-- t is what the end of a command leaves of u, with a message sent. -/
structure Replied (u t : State) (bs : List Byte) : Prop where
  sends : Sends u t (.smbus bs)
  cairn : t.cairn = u.cairn
  belay : t.belay = u.belay
  reg : ∀ r, blockOf r ≠ .guard → t.reg r = u.reg r
  regs : ∀ {s : State}, u.regs = s.regs → SameRegs s t
  logged : Logged u t []

theorem State.answer_replied (u : State) (bs : List Byte) : Replied u (u.answer bs).noteMay.announce bs where
  sends := Sends.ended ⟨[_], rfl, List.mem_singleton_self _⟩
  cairn := (u.answer bs).cairn_ended
  belay := (u.answer bs).belay_ended
  reg := fun r h => (u.answer bs).plainReg_ended r h
  regs h := SameRegs.of_regs h
  logged := Logged.of_log (by rw [List.append_nil]; rfl)

/-- A request that the firmware takes up is one effect and one message. -/
theorem Does.of_answer {r : Result} {f : State → State} (he : exec c s = r) (hr : r = s.whileUp f) (hup : s.cairn.running = true) (hf : f s = u.answer bs)
    (hp : ∀ t, Replied u t bs → p t) : Does c s p :=
  .of_finish (by rw [he, hr, State.whileUp, if_pos hup, hf]) (hp _ (u.answer_replied bs))

theorem Replied.mstat (h : Replied u t bs) : t.mstat = u.mstat := by rw [State.mstat, h.cairn, h.belay, State.mstat]

end answers

/-! ### MCTP control (R456) -/

section control
variable {s : State}

theorem setEndpointId_sets {eid : Byte} (hup : s.cairn.running = true) (hzero : eid ≠ 0) (hall : eid ≠ 0xFF) :
    Does (.setEndpointId eid) s fun t => Sends s t (.smbus [0x00, 0x01, 0x00, 0x00, eid, 0x00]) ∧ t.cairn = { s.cairn with eid := eid } ∧ SameRegs s t :=
  .of_answer (r := execSetEndpointId eid s) (u := s.setCairn { s.cairn with eid := eid }) rfl rfl hup (if_neg (not_or.2 ⟨hzero, hall⟩)) fun _ ht => ⟨ht.sends.of_out rfl, ht.cairn, ht.regs rfl⟩

theorem setEndpointId_refuses {eid : Byte} (hup : s.cairn.running = true) (hno : eid = 0 ∨ eid = 0xFF) :
    Does (.setEndpointId eid) s fun t => Sends s t (.smbus [0x00, 0x01, 0x02, 0x00, s.cairn.eid, 0x00]) ∧ t.cairn = s.cairn :=
  .of_answer (r := execSetEndpointId eid s) (u := s) rfl rfl hup (if_pos hno) fun _ ht => ⟨ht.sends, ht.cairn⟩

/-- A control command that only reads is answered with what it reads. -/
theorem Does.of_control {c : Instr} {r : Result} {cmd : Byte} {bs : List Byte} {f : State → State} (he : exec c s = r) (hr : r = s.whileUp f)
    (hup : s.cairn.running = true) (hf : f s = s.control cmd bs) : Does c s fun t => Sends s t (.smbus ([0x00, cmd] ++ bs)) ∧ t.cairn = s.cairn :=
  .of_answer (u := s) he hr hup hf fun _ ht => ⟨ht.sends, ht.cairn⟩

end control

/-! ### Hetrum messages (R457) -/

section messages
variable {s u t : State} {inst : BitVec 5} {cmd : Byte} {right lenOk : Bool} {f : State → State} {req : List Byte}

theorem State.request_granted (hright : right = true) (hlen : lenOk = true) : s.request inst cmd right lenOk f = s.whileUp f := by
  subst hright hlen
  rfl

theorem State.request_noRight (hright : right = false) : s.request inst cmd right lenOk f = s.whileUp fun s => s.respond inst cmd 0x01 [] := by
  subst hright
  rfl

/-- The code of a mode request in a number of 32 bits or more. -/
theorem vidOf_ofNat (n : Nat) : (((BitVec.ofNat 32 n : Word) >>> 4).setWidth 4 : BitVec 4) = BitVec.ofNat 4 (n / 16) := by
  refine BitVec.eq_of_toNat_eq ?_
  rw [BitVec.toNat_setWidth, BitVec.toNat_ushiftRight, BitVec.toNat_ofNat, BitVec.toNat_ofNat, Nat.shiftRight_eq_div_pow]
  omega

/-- The fields of DEV_MODE lie below bit 32. -/
theorem modeFields_ofNat (n : Nat) : ((BitVec.ofNat 32 n &&& 0x1F1 : Word).setWidth 64 : DWord) = BitVec.ofNat 64 n &&& 0x1F1 := by
  rw [BitVec.setWidth_and, show ((0x1F1 : Word).setWidth 64 : DWord) = 0x1F1 from rfl]
  refine BitVec.eq_of_getLsbD_eq fun i hi => ?_
  rw [BitVec.getLsbD_and, BitVec.getLsbD_and, BitVec.getLsbD_setWidth, BitVec.getLsbD_ofNat, BitVec.getLsbD_ofNat]
  by_cases h : i < 32
  · simp [hi, h]
  · have hmask : (0x1F1 : DWord).getLsbD i = false := BitVec.getLsbD_ofNat 64 0x1F1 i ▸ by
      rw [Nat.testBit_lt_two_pow (Nat.lt_of_lt_of_le (by decide : 0x1F1 < 2 ^ 32) (Nat.pow_le_pow_right (by decide) (not_lt.1 h))), Bool.and_false]
    rw [hmask, Bool.and_false, Bool.and_false]

theorem getSensors_answers (hup : s.cairn.running = true) (hright : s.smbRight 0 = true) :
    Does (.getSensors inst []) s fun t => Sends s t (.smbus (hetrumHead inst 0x01 0x00 ++ (s.sensorBytes ++ leBytes 4 s.mstat.toNat))) ∧ t.cairn = s.cairn ∧
      SameRegs s t :=
  .of_answer (r := execGetSensors inst [] s) (u := s) rfl (State.request_granted hright rfl) hup rfl fun _ ht => ⟨ht.sends, ht.cairn, ht.regs rfl⟩

theorem setMode_returns (hup : s.cairn.running = true) (hright : s.smbRight 5 = true) (hlen : req.length = 4)
    (hok : s.modeRefusal (BitVec.ofNat 32 (leAt req 0 4)) = 0) (hmode : s.cairn.mode = .summit) (hbit : (BitVec.ofNat 32 (leAt req 0 4)).getLsbD 0 = false) :
    Does (.setMode inst req) s fun t => Sends s t (.smbus (hetrumHead inst 0x02 0x00 ++ leBytes 4 t.mstat.toNat)) ∧ t.cairn.mode = .base ∧
      t.cairn.vidNow = BitVec.ofNat 4 (leAt req 0 4 / 16) ∧ t.reg (.dev .mode) = BitVec.ofNat 64 (leAt req 0 4) &&& 0x1F1 ∧ OtherRegs s t [.dev .mode] := by
  let v : Word := BitVec.ofNat 32 (leAt req 0 4)
  let u := (s.modeSet v).modeGoes { s.cairn with mode := .base, vidNow := (v >>> 4).setWidth 4 }
  have hwrite : s.writeMode 0x11 v = (0, u) :=
    (State.writeMode_accepted 0x11 hok).trans (congrArg (Prod.mk 0) (State.modeActs_base (s := s.modeSet v) _ (by rw [show (s.modeSet v).cairn.mode = _ from hmode]; exact nofun) hbit))
  have hlenOk : (req.length == 4) = true := by rw [hlen]; rfl
  refine .of_answer (r := execSetMode inst req s) (u := u) (bs := hetrumHead inst 0x02 0x00 ++ leBytes 4 u.mstat.toNat) rfl (State.request_granted hright hlenOk) hup ?_ fun t ht => ?_
  · dsimp only
    rw [hwrite]
    rfl
  · have hcairn : u.cairn = _ := State.modeGoes_cairn _ _
    refine ⟨?_, by rw [ht.cairn, hcairn], ?_, ?_, ?_⟩
    · rw [ht.mstat]
      exact ht.sends.of_out (State.modeGoes_out _ _)
    · rw [ht.cairn, hcairn]
      exact vidOf_ofNat _
    · rw [ht.reg (.dev .mode) nofun, State.modeGoes_reg]
      exact (State.reg_setReg_same _ _ _).trans (modeFields_ofNat _)
    · exact ((ht.regs rfl).other _).of_mid fun r hr => (State.modeGoes_reg _ _ r).trans (State.reg_setReg_other _ _ _ _ (List.mem_singleton.not.1 hr))

theorem setMode_noRight (hup : s.cairn.running = true) (hright : s.smbRight 5 = false) :
    Does (.setMode inst req) s fun t => Sends s t (.smbus (hetrumHead inst 0x02 0x01)) ∧ t.cairn = s.cairn ∧ SameRegs s t ∧ Logged s t [] :=
  .of_answer (r := execSetMode inst req s) (u := s) rfl (State.request_noRight hright) hup rfl fun _ ht => ⟨ht.sends, ht.cairn, ht.regs rfl, ht.logged⟩

theorem getAttest_answers (hup : s.cairn.running = true) (hright : s.smbRight 1 = true) (hlen : req.length = 32) :
    Does (.getAttest inst req) s fun t => Sends s t (.smbus (hetrumHead inst 0x03 0x00 ++ s.report 0xFF 2 0 req)) ∧ t.belay = s.belay ∧
      t.cairn = s.cairn ∧ SameRegs s t := by
  refine .of_answer (r := execGetAttest inst req s) (u := s.attestRecord 0x11 2 req) rfl (State.request_granted hright (by rw [hlen]; rfl)) hup rfl fun t ht => ⟨?_, ?_, ?_, ?_⟩
  · exact ht.sends.of_out (State.record_out _ _ _ _ _ _ _ _)
  · exact ht.belay.trans (State.record_belay _ _ _ _ _ _ _ _)
  · exact ht.cairn.trans (State.record_cairn _ _ _ _ _ _ _ _)
  · exact ht.regs (State.record_regs _ _ _ _ _ _ _ _)

theorem getLog_answers (hup : s.cairn.running = true) (hright : s.smbRight 2 = true ∨ s.smbRight 3 = true) (hlen : req.length = 5) (hlow : 1 ≤ leAt req 4 1)
    (hhigh : leAt req 4 1 ≤ 60) :
    Does (.getLog inst req) s fun t => Sends s t (.smbus (hetrumHead inst 0x04 0x00 ++ (leBytes 4 (s.snapshot s.smbusView (leAt req 0 4) (leAt req 4 1)).2 ++
        leBytes 2 (s.snapshot s.smbusView (leAt req 0 4) (leAt req 4 1)).1.length ++ s.snapshotBytes (s.snapshot s.smbusView (leAt req 0 4) (leAt req 4 1)).1))) ∧
      Logged s t [] ∧ t.cairn = s.cairn :=
  .of_answer (r := execGetLog inst req s) (u := s) rfl (State.request_granted (by rw [Bool.or_eq_true]; exact hright) (by simp [hlen, hlow, hhigh])) hup rfl
    fun _ ht => ⟨ht.sends, ht.logged, ht.cairn⟩

/-- One block of 256 bytes at the front of the area reads back. -/
theorem State.stagedBytes_block (hblock : Tbl.get [] s.cairn.staging 0 = req) (hlen : req.length = 256) : s.stagedBytes 0 256 = req := by
  have hne : req.isEmpty = false := List.isEmpty_eq_false_iff.2 (List.ne_nil_of_length_pos (by omega))
  change ((List.range 1).flatMap fun i => if (Tbl.get [] s.cairn.staging (0 / 256 + i)).isEmpty then List.replicate 256 0xFF
    else Tbl.get [] s.cairn.staging (0 / 256 + i)).take 256 = req
  rw [show List.range 1 = [0] from rfl, List.flatMap_singleton, show 0 / 256 + 0 = 0 from rfl, hblock, hne, if_neg Bool.false_ne_true,
    List.take_of_length_le (by omega)]

theorem stage_takes (hup : s.cairn.running = true) (hright : s.smbRight 4 = true) (hlen : req.length = 260) (hoff : leAt req 0 4 = 0)
    (hfree : s.cairn.holder = .none_) :
    Does (.stage inst req true) s fun t => Sends s t (.smbus (hetrumHead inst 0x05 0x00)) ∧ t.cairn.holder = .smbus ∧ t.stagedBytes 0 256 = req.drop 4 ∧
      t.cairn.comps = s.cairn.comps ∧ SameRegs s t := by
  have hdrop : (req.drop 4).length = 256 := by rw [List.length_drop, hlen]
  have hholder : s.cairn.holder = .smbus ∨ (0 = 0 ∧ s.cairn.holder = .none_) := .inr ⟨rfl, hfree⟩
  let c := s.cairn.staged .smbus 0 (req.drop 4) true s.raw
  have hwrite : s.stageWrite .smbus 0 (req.drop 4) true = some (s.setCairn c) := State.stageWrite_takes hholder
  refine .of_answer (r := execStage inst req true s) (u := s.setCairn c) (bs := hetrumHead inst 0x05 0x00) rfl
    (State.request_granted hright (by simp [hlen, hoff, stagingSize])) hup ?_ fun t ht => ⟨ht.sends.of_out rfl, ?_, ?_, ?_, ht.regs rfl⟩
  · rw [hoff, hwrite]
    rfl
  · rw [ht.cairn]
    exact Cairn.staged_holder _ _ hholder
  · refine State.stagedBytes_block ?_ hdrop
    rw [ht.cairn]
    exact (Cairn.staged_block _ _ 0 _ (by omega) (i := 0) (by omega)).trans (List.take_of_length_le hdrop.le)
  · rw [ht.cairn]
    exact Cairn.staged_comps _ _ _ _ _ _

theorem stage_busy {programmed : Bool} (hup : s.cairn.running = true) (hright : s.smbRight 4 = true) (hlen : req.length = 260) (hoff : leAt req 0 4 % 256 = 0)
    (hfits : leAt req 0 4 + 256 ≤ stagingSize) (howner : s.cairn.holder = .owner) :
    Does (.stage inst req programmed) s fun t => Sends s t (.smbus (hetrumHead inst 0x05 0x03)) ∧ t.cairn = s.cairn := by
  have hwrite : s.stageWrite .smbus (leAt req 0 4) (req.drop 4) programmed = none :=
    State.stageWrite_busy (by rw [howner]; exact nofun) (by rw [howner]; exact nofun)
  refine .of_answer (r := execStage inst req programmed s) (u := s) rfl (State.request_granted hright (by simp [hlen, hoff, hfits])) hup ?_
    fun _ ht => ⟨ht.sends, ht.cairn⟩
  rw [hwrite]
  rfl

theorem activate_busy {programmed : Bool} {c : Fin 7} (hup : s.cairn.running = true) (hright : s.smbRight 4 = true) (hlen : req.length = 3)
    (hslot : slotOk (leAt req 2 1) = true) (hcomp : compIx (leAt req 0 2) = some c) (hbusy : s.slotBusy c (leAt req 2 1) = true ∨ s.cairn.activating.isSome = true) :
    Does (.activate inst req programmed) s fun t => Sends s t (.smbus (hetrumHead inst 0x06 0x03)) ∧ t.cairn = s.cairn ∧ SameRegs s t := by
  have hno : (s.cairn.activating.isSome || s.slotBusy c (leAt req 2 1)) = true := by rw [Bool.or_eq_true]; exact hbusy.symm
  refine .of_answer (r := execActivate inst req programmed s) (u := s) rfl (State.request_granted hright (by simp [hlen, hslot, hcomp])) hup ?_
    fun _ ht => ⟨ht.sends, ht.cairn, ht.regs rfl⟩
  rw [hcomp]
  exact if_pos hno

theorem activate_begins {c : Fin 7} (hup : s.cairn.running = true) (hright : s.smbRight 4 = true) (hlen : req.length = 3) (hslot : leAt req 2 1 = 128)
    (hcomp : compIx (leAt req 0 2) = some c) (hfree : s.cairn.activating = none) :
    Does (.activate inst req true) s fun t => Sends s t (.smbus (hetrumHead inst 0x06 0x00)) ∧ (∃ a, t.cairn.activating = some a ∧ a.comp = c ∧ a.slotB = false ∧
        a.inPlace = true ∧ a.op = none ∧ a.who = .smbus ∧ a.reason = s.inPlaceReason c (s.comp c).a true) ∧ t.cairn.comps = s.cairn.comps ∧ SameRegs s t := by
  let a : Activating := { who := .smbus, dom := 0x11, comp := c, slotB := false, inPlace := true, reason := s.inPlaceReason c (s.comp c).a true, image := {}, op := none }
  let u := s.setCairn { s.cairn with imgComponent := BitVec.ofNat 16 (compCode c.val), activating := some a }
  have hno : (s.cairn.activating.isSome || s.slotBusy c (leAt req 2 1)) = false := by rw [hfree, hslot]; rfl
  have hbegin : (s.respond inst 0x06 0x00 []).beginActivation 0x11 .smbus c 128 true none = u.answer (hetrumHead inst 0x06 0x00 ++ []) := rfl
  refine .of_answer (r := execActivate inst req true s) (u := u) (bs := hetrumHead inst 0x06 0x00) rfl
    (State.request_granted hright (by simp [hlen, hslot, hcomp, slotOk])) hup ?_ fun _ ht => ?_
  · rw [hcomp]
    dsimp only
    rw [hno, if_neg Bool.false_ne_true, hslot, hbegin, List.append_nil]
  · exact ⟨ht.sends.of_out rfl, ⟨a, by rw [ht.cairn]; rfl, rfl, rfl, rfl, rfl, rfl, rfl⟩, by rw [ht.cairn]; rfl, ht.regs rfl⟩

theorem getStatus_answers (hup : s.cairn.running = true) :
    Does (.getStatus inst []) s fun t => Sends s t (.smbus (hetrumHead inst 0x07 0x00 ++ (leBytes 4 s.imgstat.toNat ++
        (List.finRange 7).flatMap (fun c => leBytes 4 (s.slotWord c).toNat) ++ leBytes 4 s.cairn.smbEvt.toNat))) ∧ t.cairn = s.cairn :=
  .of_answer (r := execGetStatus inst [] s) (u := s) rfl (State.request_granted rfl rfl) hup rfl fun _ ht => ⟨ht.sends, ht.cairn⟩

theorem smbusReset_answers (hup : s.cairn.running = true) (hright : s.smbRight 6 = true) :
    Does (.smbusReset inst []) s fun t => Sends s t (.smbus (hetrumHead inst 0x08 0x00)) ∧ t.cairn = { s.cairn with resetDue := true } ∧ SameRegs s t :=
  .of_answer (r := execSmbusReset inst [] s) (u := s.setCairn { s.cairn with resetDue := true }) rfl (State.request_granted hright rfl) hup rfl
    fun _ ht => ⟨ht.sends.of_out rfl, ht.cairn, ht.regs rfl⟩

theorem clearAlert_answers (hup : s.cairn.running = true) (hlen : req.length = 4) :
    Does (.clearAlert inst req) s fun t => t.cairn = { s.cairn with smbEvt := s.cairn.smbEvt &&& ~~~ (BitVec.ofNat 12 (leAt req 0 4)) } ∧
      Sends s t (.smbus (hetrumHead inst 0x09 0x00 ++ leBytes 4 t.cairn.smbEvt.toNat)) := by
  let u := s.setCairn { s.cairn with smbEvt := s.cairn.smbEvt &&& ~~~ (BitVec.ofNat 12 (leAt req 0 4)) }
  exact .of_answer (r := execClearAlert inst req s) (u := u) (bs := hetrumHead inst 0x09 0x00 ++ leBytes 4 u.cairn.smbEvt.toNat) rfl
    (State.request_granted rfl (by rw [hlen]; rfl)) hup rfl fun t ht => ⟨ht.cairn, by rw [ht.cairn]; exact ht.sends.of_out rfl⟩

theorem alertResponse_answers (hup : s.cairn.running = true) (halert : s.smbAlert = true) :
    Does .alertResponse s fun t => Sends s t (.smbus [BitVec.ofNat 8 (2 * s.rf (.crn .smb) 0 7)]) ∧ t.cairn = s.cairn := by
  have he : exec .alertResponse s = finish (s.answer [BitVec.ofNat 8 (2 * s.rf (.crn .smb) 0 7)]) := if_pos (by rw [hup, halert]; rfl)
  have ht := s.answer_replied [BitVec.ofNat 8 (2 * s.rf (.crn .smb) 0 7)]
  exact .of_finish he ⟨ht.sends, ht.cairn⟩

theorem unsupportedMctpMessage_answers {packets : List (List Byte)} {bs : List Byte} (hup : s.cairn.running = true) (hmessage : s.mctpMessage packets = some bs)
    (hunknown : hetrumUnknown bs = true) :
    Does (.unsupportedMctpMessage packets) s fun t => Sends s t (.smbus (hetrumHead (BitVec.ofNat 5 (leAt bs 4 1)) (bs.getD 5 0) 0x04)) ∧ t.cairn = s.cairn := by
  have hr : execUnsupportedMctpMessage packets s = s.whileUp fun s => s.respond (BitVec.ofNat 5 (leAt bs 4 1)) (bs.getD 5 0) 0x04 [] := by
    unfold execUnsupportedMctpMessage
    rw [hmessage]
    exact if_pos hunknown
  exact .of_answer (u := s) rfl hr hup rfl fun _ ht => ⟨ht.sends, ht.cairn⟩

end messages

/-- Settles O60: each request is one effect on Cairn and one message that leaves, and nothing is taken up while the firmware is out. -/
theorem managementMessages : Obligations.ManagementMessages := by
  unfold Obligations.ManagementMessages
  refine ⟨fun _ _ hup hzero hall => setEndpointId_sets hup hzero hall, fun _ _ hup hno => setEndpointId_refuses hup hno,
    fun s hup => .of_control (r := execGetEndpointId s) rfl rfl hup rfl, fun s hup => .of_control (r := execGetEndpointUuid s) rfl rfl hup rfl,
    fun s m hup hm => .of_control (r := execGetMctpVersionSupport m s) rfl rfl hup (if_pos hm),
    fun s m hup hall hzero hvendor => .of_control (r := execGetMctpVersionSupport m s) rfl rfl hup (if_neg ?_),
    fun s hup => .of_control (r := execGetMessageTypeSupport s) rfl rfl hup rfl,
    fun s hup => .of_control (r := execGetVendorDefinedMsgSupport 0 s) rfl rfl hup (if_pos rfl),
    fun s x hup hx => .of_control (r := execGetVendorDefinedMsgSupport x s) rfl rfl hup (if_neg hx),
    fun _ _ hup hright => getSensors_answers hup hright, fun _ _ _ hup hright hlen hok hmode hbit => setMode_returns hup hright hlen hok hmode hbit,
    fun _ _ _ hup hright => setMode_noRight hup hright, fun _ _ _ hup hright hlen => getAttest_answers hup hright hlen,
    fun _ _ _ hup hright hlen hlow hhigh => getLog_answers hup hright hlen hlow hhigh, fun _ _ _ hup hright hlen hoff hfree => stage_takes hup hright hlen hoff hfree,
    fun _ _ _ _ hup hright hlen hoff hfits howner => stage_busy hup hright hlen hoff hfits howner,
    fun _ _ _ _ _ hup hright hlen hslot hcomp hbusy => activate_busy hup hright hlen hslot hcomp hbusy,
    fun _ _ _ _ hup hright hlen hslot hcomp hfree => activate_begins hup hright hlen hslot hcomp hfree, fun _ _ hup => getStatus_answers hup,
    fun _ _ hup hright => smbusReset_answers hup hright, fun _ _ _ hup hlen => clearAlert_answers hup hlen, fun _ hup halert => alertResponse_answers hup halert,
    fun _ _ _ hup hmessage hunknown => unsupportedMctpMessage_answers hup hmessage hunknown, fun s hout => .of_next (if_neg ?_) rfl⟩
  · exact not_or.2 ⟨hall, not_or.2 ⟨hzero, hvendor⟩⟩
  · rw [hout]
    exact Bool.false_ne_true

end Sys2Proof.Machine

namespace Sys2Proof.Machine

/-! ### Folds in which each element has its own cell -/

section each
variable {σ α W : Type}

/-- A fold over a list: p holds throughout, element i changes its own cell of out by g, and what an element has to tell is kept in a flag. -/
structure EachCell (f : σ → α → σ) (p : σ → Prop) (out : σ → α → W) (g : α → W → W) (tell : α → W → Prop) (flag : σ → Prop) : Prop where
  keeps : ∀ u i, p u → p (f u i)
  self : ∀ u i, p u → out (f u i) i = g i (out u i)
  other : ∀ u i j, p u → j ≠ i → out (f u i) j = out u j
  tells : ∀ u i, p u → tell i (out u i) → flag (f u i)
  stays : ∀ u i, flag u → flag (f u i)

variable {f : σ → α → σ} {p : σ → Prop} {out : σ → α → W} {g : α → W → W} {tell : α → W → Prop} {flag : σ → Prop}

theorem EachCell.flag_foldl (h : EachCell f p out g tell flag) (l : List α) (s : σ) (hs : flag s) : flag (l.foldl f s) := by
  induction l generalizing s with
  | nil => exact hs
  | cons i l ih => exact ih (f s i) (h.stays s i hs)

theorem EachCell.foldl (h : EachCell f p out g tell flag) (l : List α) (hl : l.Nodup) (s : σ) (hs : p s) :
    p (l.foldl f s) ∧ (∀ j, j ∉ l → out (l.foldl f s) j = out s j) ∧ ∀ i ∈ l, out (l.foldl f s) i = g i (out s i) ∧ (tell i (out s i) → flag (l.foldl f s)) := by
  induction l generalizing s with
  | nil => exact ⟨hs, fun _ _ => rfl, nofun⟩
  | cons i l ih =>
    obtain ⟨hi, hl⟩ := List.nodup_cons.1 hl
    obtain ⟨hp, hout, hin⟩ := ih hl (f s i) (h.keeps s i hs)
    refine ⟨hp, fun j hj => ?_, fun k hk => ?_⟩
    · obtain ⟨hji, hjl⟩ := not_or.1 (mt List.mem_cons.2 hj)
      rw [List.foldl_cons, hout j hjl, h.other s i j hs hji]
    · rcases List.mem_cons.1 hk with rfl | hk
      · exact ⟨(hout k hi).trans (h.self s k hs), fun ht => h.flag_foldl l _ (h.tells s k hs ht)⟩
      · have hki : k ≠ i := fun e => hi (e ▸ hk)
        have hcell := hin k hk
        rwa [h.other s i k hs hki] at hcell

/-- Over all of a finite type: every cell has its new value, and whatever is to be told is told. -/
theorem EachCell.finRange {n : Nat} {f : σ → Fin n → σ} {out : σ → Fin n → W} {g : Fin n → W → W} {tell : Fin n → W → Prop}
    (h : EachCell f p out g tell flag) (s : σ) (hs : p s) :
    p ((List.finRange n).foldl f s) ∧ (∀ i, out ((List.finRange n).foldl f s) i = g i (out s i)) ∧
      ((∃ i, tell i (out s i)) → flag ((List.finRange n).foldl f s)) := by
  obtain ⟨hp, -, hin⟩ := h.foldl _ (List.nodup_finRange n) s hs
  exact ⟨hp, fun i => (hin i (List.mem_finRange i)).1, fun ⟨i, hi⟩ => (hin i (List.mem_finRange i)).2 hi⟩

end each

/-! ### Samples of the sensors (R434 to R437, R443) -/

section sensors
variable {s : State}

/-- TEMP_ALERT# after a sample (R443). -/
def State.alertNext (s : State) : Bool := if s.cairn.alert then !decide (s.tmax < s.cairn.alertAt - 20) else decide (s.cairn.alertAt ≤ s.tmax)

/-- The comparator of TEMP_ALERT# changes the pin, and tells where it sets it. -/
theorem State.alertActs_leaves (s : State) : ∃ e, s.alertActs.cairn = { s.cairn with alert := s.alertNext, smbEvt := e } ∧
    (s.cairn.alert = false → s.alertNext = true → s.alertActs.rb (.fn 0 .crnEvt) 4 = true) := by
  unfold State.alertActs State.alertNext
  dsimp only
  cases ha : s.cairn.alert with
  | false =>
    by_cases hhot : s.cairn.alertAt ≤ s.tmax
    · simp only [hhot, decide_true, Bool.not_false, Bool.and_self, if_true, Bool.false_eq_true, if_false]
      refine ⟨(s.cairn.noted 4).smbEvt, ?_, fun _ _ => State.crnEvent_rb _ (by decide)⟩
      rw [State.crnEvent_cairn, State.record_cairn]
      rfl
    · simp only [hhot, decide_false, Bool.not_false, Bool.and_false, Bool.false_eq_true, if_false, Bool.false_and]
      refine ⟨s.cairn.smbEvt, ?_, nofun⟩
      rw [← ha]
  | true =>
    by_cases hcool : s.tmax < s.cairn.alertAt - 20
    · simp only [hcool, decide_true, Bool.not_true, Bool.false_and, Bool.false_eq_true, if_false, Bool.and_self, if_true]
      exact ⟨s.cairn.smbEvt, rfl, nofun⟩
    · simp only [hcool, decide_false, Bool.not_true, Bool.false_and, Bool.false_eq_true, if_false, Bool.and_false, if_true, Bool.not_false]
      refine ⟨s.cairn.smbEvt, ?_, nofun⟩
      rw [← ha]

theorem tempSample_leaves (q : List Int) (hread : s.dev.otpRead = true) :
    Does (.sensorSample (.temp q)) s fun t => (∀ i : Fin 6, t.cairn.felt[i] = q.getD i.val s.cairn.felt[i]) ∧
      t.cairn.temps = (if s.cairn.running then t.cairn.felt else s.cairn.temps) ∧ t.cairn.mode = s.cairn.mode ∧
      t.cairn.hotSince = (if t.cairn.hi ≤ t.tmax then some (s.cairn.hotSince.getD s.raw) else none) ∧
      t.cairn.coolSince = (if t.tmax ≤ t.cairn.lo then some (s.cairn.coolSince.getD s.raw) else none) ∧
      t.cairn.alert = (if s.cairn.alert then !decide (t.tmax < t.cairn.alertAt - 20) else decide (t.cairn.alertAt ≤ t.tmax)) ∧
      (s.cairn.alert = false → t.cairn.alert = true → t.rb (.fn 0 .crnEvt) 4 = true) := by
  refine .of_finish (u := s.sampleTemp q) (if_pos hread) ?_
  let felt := Vector.ofFn fun i : Fin 6 => q.getD i.val s.cairn.felt[i]
  let u := s.setCairn { s.cairn with
    felt := felt, temps := if s.cairn.running then felt else s.cairn.temps,
    gov := (s.reg (.crn .gov)).setWidth 32, govHold := (s.reg (.crn .govhold)).setWidth 16 }
  let w := u.setCairn { u.cairn with
    hotSince := if u.cairn.hi ≤ u.tmax then some (u.cairn.hotSince.getD s.raw) else none
    coolSince := if u.tmax ≤ u.cairn.lo then some (u.cairn.coolSince.getD s.raw) else none }
  obtain ⟨e, hcairn, htold⟩ := w.alertActs_leaves
  have hend : (s.sampleTemp q).noteMay.announce.cairn = { w.cairn with alert := w.alertNext, smbEvt := e } := (State.cairn_ended _).trans hcairn
  have htmax : (s.sampleTemp q).noteMay.announce.tmax = w.tmax := by rw [State.tmax, hend, State.tmax]
  rw [htmax, hend]
  refine ⟨fun i => ?_, rfl, rfl, rfl, rfl, rfl, fun hoff hon => ?_⟩
  · exact Vector.getElem_ofFn _
  · rw [State.rb, State.plainReg_ended _ (.fn 0 .crnEvt) nofun]
    exact htold hoff hon

/-- A watched reading: Cairn with the watch, and the record and the event of a reading that is to be reported. -/
def State.watched (s : State) (c : Cairn) (tell : Bool) (code : Byte) (i v k : Nat) : State :=
  if tell then ((s.setCairn c).record devCode 4 false 0x0C code (BitVec.ofNat 32 i) (BitVec.ofNat 32 v)).crnEvent k else s.setCairn c

theorem State.watched_cairn (s : State) (c : Cairn) (tell : Bool) (code : Byte) (i v k : Nat) :
    ∃ e, (s.watched c tell code i v k).cairn = { c with smbEvt := e } := by
  cases tell with
  | false => exact ⟨c.smbEvt, rfl⟩
  | true => exact ⟨(c.noted k).smbEvt, by rw [State.watched, if_pos rfl, State.crnEvent_cairn, State.record_cairn]; rfl⟩

theorem State.record_raw (s : State) (dom : BitVec 5) (sev : BitVec 3) (sens : Bool) (src code : Byte) (a0 a1 : Word) :
    (s.record dom sev sens src code a0 a1).raw = s.raw := by rw [State.raw, State.record_tmu, State.raw]

theorem State.watched_raw (s : State) (c : Cairn) (tell : Bool) (code : Byte) (i v k : Nat) : (s.watched c tell code i v k).raw = s.raw := by
  cases tell with
  | false => rfl
  | true => rw [State.watched, if_pos rfl, State.crnEvent_raw, State.record_raw]; rfl

theorem State.watched_rb_stays {j : Nat} (hj : j < 64) (h : s.rb (.fn 0 .crnEvt) j = true) (c : Cairn) (tell : Bool) (code : Byte) (i v k : Nat) :
    (s.watched c tell code i v k).rb (.fn 0 .crnEvt) j = true := by
  cases tell with
  | false => exact h
  | true =>
    rw [State.watched, if_pos rfl]
    exact State.crnEvent_rb_stays k hj (by rw [State.rb, State.reg_record]; exact h)

theorem State.watched_tells {k : Nat} (hk : k < 64) {tell : Bool} (h : tell = true) (c : Cairn) (code : Byte) (i v : Nat) :
    (s.watched c tell code i v k).rb (.fn 0 .crnEvt) k = true := by
  rw [State.watched, if_pos h]
  exact State.crnEvent_rb _ hk

/-- What the watches of the rails and the paces leave alone. -/
def UnderWatch (s u : State) : Prop := u.raw = s.raw ∧
  u.cairn = { s.cairn with railOut := u.cairn.railOut, paceOut := u.cairn.paceOut, smbEvt := u.cairn.smbEvt }

/-- The watch on a rail (R436). -/
def State.railWatch (u : State) (i : Fin 4) : (Option DWord × Bool) × Bool :=
  watch u.cairn.railOut[i] (u.railBad i.val u.cairn.rails[(fin 8 i.val : Fin 8)]) u.raw (ms 1)

def State.railStep (u : State) (i : Fin 4) : State :=
  u.watched { u.cairn with railOut := u.cairn.railOut.set i (u.railWatch i).1 } (u.railWatch i).2 0x04 i.val u.cairn.rails[(fin 8 i.val : Fin 8)] 5

/-- The readings of the rails are taken (R436). -/
def State.withRails (s : State) (mv : List Nat) : State := s.setCairn { s.cairn with rails := Vector.ofFn (fun i : Fin 8 => mv.getD i.val s.cairn.rails[i]) }

theorem State.sampleRail_eq (s : State) (mv : List Nat) : s.sampleRail mv = (List.finRange 4).foldl State.railStep (s.withRails mv) := rfl

theorem State.railStep_cairn (u : State) (i : Fin 4) :
    ∃ e, (u.railStep i).cairn = { u.cairn with railOut := u.cairn.railOut.set i (u.railWatch i).1, smbEvt := e } :=
  u.watched_cairn { u.cairn with railOut := u.cairn.railOut.set i (u.railWatch i).1 } (u.railWatch i).2 0x04 i.val u.cairn.rails[(fin 8 i.val : Fin 8)] 5

/-- A watch reads what the samples before it in the sequence leave alone. -/
theorem UnderWatch.railWatch {u : State} (h : UnderWatch s u) (i : Fin 4) :
    u.railWatch i = watch u.cairn.railOut[i] (s.railBad i.val s.cairn.rails[(fin 8 i.val : Fin 8)]) s.raw (ms 1) := by
  obtain ⟨hraw, hcairn⟩ := h
  have hrails : u.cairn.rails = s.cairn.rails := by rw [hcairn]
  have hvid : u.cairn.vidNow = s.cairn.vidNow := by rw [hcairn]
  have hbad : u.railBad i.val = s.railBad i.val := by
    funext mv
    have htarget : u.railTarget i.val = s.railTarget i.val := by rw [State.railTarget, hvid, State.railTarget]
    rw [State.railBad, htarget, State.railBad]
  rw [State.railWatch, hraw, hrails, hbad]

theorem railStep_each (s : State) : EachCell State.railStep (UnderWatch s) (fun u i => u.cairn.railOut[i])
    (fun i w => (watch w (s.railBad i.val s.cairn.rails[(fin 8 i.val : Fin 8)]) s.raw (ms 1)).1)
    (fun i w => (watch w (s.railBad i.val s.cairn.rails[(fin 8 i.val : Fin 8)]) s.raw (ms 1)).2 = true) (fun u => u.rb (.fn 0 .crnEvt) 5 = true) where
  keeps u i h := by
    obtain ⟨e, he⟩ := u.railStep_cairn i
    refine ⟨(State.watched_raw _ _ _ _ _ _ _).trans h.1, ?_⟩
    rw [he, h.2]
  self u i h := by
    obtain ⟨e, he⟩ := u.railStep_cairn i
    rw [he, h.railWatch]
    exact Vector.getElem_set_self i.isLt
  other u i j h hj := by
    obtain ⟨e, he⟩ := u.railStep_cairn i
    rw [he]
    exact Vector.getElem_set_ne i.isLt j.isLt fun e => hj (Fin.ext e.symm)
  tells u i h ht := State.watched_tells (by decide) (by rw [h.railWatch]; exact ht) _ _ _ _
  stays u i h := State.watched_rb_stays (by decide) h _ _ _ _ _ _

theorem railSample_leaves (mv : List Nat) (hup : s.cairn.running = true) :
    Does (.sensorSample (.rail mv)) s fun t => (∀ i : Fin 8, t.cairn.rails[i] = mv.getD i.val s.cairn.rails[i]) ∧
      (∀ i : Fin 4, t.cairn.railOut[i] = (watch s.cairn.railOut[i] (s.railBad i.val t.cairn.rails[(fin 8 i.val : Fin 8)]) s.raw (ms 1)).1) ∧
      ((∃ i : Fin 4, (watch s.cairn.railOut[i] (s.railBad i.val t.cairn.rails[(fin 8 i.val : Fin 8)]) s.raw (ms 1)).2 = true) → t.rb (.fn 0 .crnEvt) 5 = true) ∧
      t.cairn.mode = s.cairn.mode ∧ t.cairn.vidNow = s.cairn.vidNow := by
  obtain ⟨⟨-, hkept⟩, hout, htold⟩ := (railStep_each (s.withRails mv)).finRange (s.withRails mv) ⟨rfl, rfl⟩
  have hrails : (s.sampleRail mv).cairn.rails = (s.withRails mv).cairn.rails := by rw [State.sampleRail_eq, hkept]
  have hbad : (s.withRails mv).railBad = s.railBad := rfl
  refine .of_finish (u := s.sampleRail mv) (if_pos hup) ?_
  rw [State.cairn_ended, State.rb, State.plainReg_ended _ (.fn 0 .crnEvt) nofun, hrails, State.sampleRail_eq]
  rw [hbad] at hout htold
  exact ⟨fun i => Vector.getElem_ofFn _, hout, htold, by rw [hkept]; rfl, by rw [hkept]; rfl⟩

/-- The longest pace that is in order (R437). -/
def Cairn.paceLimit (c : Cairn) : Nat := if c.mode = .summit then 833 else 1250

/-- The watch on a pace (R437). -/
def State.paceWatch (u : State) (limit : Nat) (i : Fin 12) : (Option DWord × Bool) × Bool :=
  watch u.cairn.paceOut[i] (decide (limit < u.cairn.paces[i])) u.raw (ms 10)

def State.paceStep (limit : Nat) (u : State) (i : Fin 12) : State :=
  u.watched { u.cairn with paceOut := u.cairn.paceOut.set i (u.paceWatch limit i).1 } (u.paceWatch limit i).2 0x05 i.val u.cairn.paces[i] 6

theorem State.paceStep_cairn (limit : Nat) (u : State) (i : Fin 12) :
    ∃ e, (State.paceStep limit u i).cairn = { u.cairn with paceOut := u.cairn.paceOut.set i (u.paceWatch limit i).1, smbEvt := e } :=
  u.watched_cairn { u.cairn with paceOut := u.cairn.paceOut.set i (u.paceWatch limit i).1 } (u.paceWatch limit i).2 0x05 i.val u.cairn.paces[i] 6

/-- The readings of the paces are taken (R437). -/
def State.withPaces (s : State) (ps : List Nat) : State := s.setCairn { s.cairn with paces := Vector.ofFn (fun i : Fin 12 => ps.getD i.val s.cairn.paces[i]) }

theorem State.samplePace_eq (s : State) (ps : List Nat) :
    s.samplePace ps = (List.finRange 12).foldl (State.paceStep s.cairn.paceLimit) (s.withPaces ps) := rfl

theorem paceStep_each (s : State) (limit : Nat) : EachCell (State.paceStep limit) (UnderWatch s) (fun u i => u.cairn.paceOut[i])
    (fun i w => (watch w (decide (limit < s.cairn.paces[i])) s.raw (ms 10)).1) (fun _ _ => False) (fun _ => False) where
  keeps u i h := by
    obtain ⟨e, he⟩ := State.paceStep_cairn limit u i
    refine ⟨(State.watched_raw _ _ _ _ _ _ _).trans h.1, ?_⟩
    rw [he, h.2]
  self u i h := by
    obtain ⟨e, he⟩ := State.paceStep_cairn limit u i
    have hpaces : u.cairn.paces = s.cairn.paces := by rw [h.2]
    rw [he, State.paceWatch, h.1, hpaces]
    exact Vector.getElem_set_self i.isLt
  other u i j h hj := by
    obtain ⟨e, he⟩ := State.paceStep_cairn limit u i
    rw [he]
    exact Vector.getElem_set_ne i.isLt j.isLt fun e => hj (Fin.ext e.symm)
  tells _ _ _ h := h
  stays _ _ h := h

theorem paceSample_leaves (ps : List Nat) (hup : s.cairn.running = true) :
    Does (.sensorSample (.pace ps)) s fun t => (∀ i : Fin 12, t.cairn.paces[i] = ps.getD i.val s.cairn.paces[i]) ∧
      (∀ i : Fin 12, t.cairn.paceOut[i] =
        (watch s.cairn.paceOut[i] (decide ((if s.cairn.mode = .summit then 833 else 1250) < t.cairn.paces[i])) s.raw (ms 10)).1) := by
  obtain ⟨⟨-, hkept⟩, hout, -⟩ := (paceStep_each (s.withPaces ps) s.cairn.paceLimit).finRange (s.withPaces ps) ⟨rfl, rfl⟩
  have hpaces : (s.samplePace ps).cairn.paces = (s.withPaces ps).cairn.paces := by rw [State.samplePace_eq, hkept]
  refine .of_finish (u := s.samplePace ps) (if_pos hup) ?_
  rw [State.cairn_ended, hpaces, State.samplePace_eq]
  exact ⟨fun i => Vector.getElem_ofFn _, hout⟩

def State.ageStep (u : State) (i : Fin 4) : State :=
  if 2000 < u.cairn.ages[i] ∧ !u.cairn.ageLogged[i] then
    (u.setCairn { u.cairn with ageLogged := u.cairn.ageLogged.set i true }).record devCode 3 false 0x0C 0x08 (BitVec.ofNat 32 i.val) (BitVec.ofInt 32 u.cairn.ages[i])
  else u

/-- The readings of the ageing lines are taken (R435). -/
def State.withAges (s : State) (ppm : List Int) : State := s.setCairn { s.cairn with ages := Vector.ofFn (fun i : Fin 4 => ppm.getD i.val s.cairn.ages[i]) }

theorem State.sampleAge_eq (s : State) (ppm : List Int) : s.sampleAge ppm = (List.finRange 4).foldl State.ageStep (s.withAges ppm) := rfl

/-- The mark of an ageing line that is logged once. -/
theorem State.ageStep_eq (u : State) (i : Fin 4) : (u.ageStep i).regs = u.regs ∧
    (u.ageStep i).cairn = { u.cairn with ageLogged := u.cairn.ageLogged.set i (u.cairn.ageLogged[i] || decide (2000 < u.cairn.ages[i])) } := by
  unfold State.ageStep
  split
  next h => exact ⟨State.record_regs _ _ _ _ _ _ _ _, by rw [State.record_cairn, decide_eq_true h.1, Bool.or_true]; rfl⟩
  next h =>
    have hsame : (u.cairn.ageLogged[i] || decide (2000 < u.cairn.ages[i])) = u.cairn.ageLogged[i] := by
      cases hl : u.cairn.ageLogged[i] with
      | true => rfl
      | false => rw [Bool.false_or, decide_eq_false fun hold => h ⟨hold, by rw [hl]; rfl⟩]
    refine ⟨rfl, ?_⟩
    rw [hsame, show u.cairn.ageLogged.set i u.cairn.ageLogged[i] = u.cairn.ageLogged from Vector.set_getElem_self i.isLt]

theorem ageStep_each (s : State) : EachCell State.ageStep (fun u => u.regs = s.regs ∧ u.cairn.ages = s.cairn.ages) (fun u i => u.cairn.ageLogged[i])
    (fun i w => w || decide (2000 < s.cairn.ages[i])) (fun _ _ => False) (fun _ => False) where
  keeps u i h := ⟨(u.ageStep_eq i).1.trans h.1, by rw [(u.ageStep_eq i).2]; exact h.2⟩
  self u i h := by
    rw [(u.ageStep_eq i).2, h.2]
    exact Vector.getElem_set_self i.isLt
  other u i j h hj := by
    rw [(u.ageStep_eq i).2]
    exact Vector.getElem_set_ne i.isLt j.isLt fun e => hj (Fin.ext e.symm)
  tells _ _ _ h := h
  stays _ _ h := h

theorem ageSample_leaves (ppm : List Int) (hup : s.cairn.running = true) :
    Does (.sensorSample (.age ppm)) s fun t => (∀ i : Fin 4, t.cairn.ages[i] = ppm.getD i.val s.cairn.ages[i]) ∧
      (∀ i : Fin 4, t.cairn.ageLogged[i] = (s.cairn.ageLogged[i] || decide (2000 < t.cairn.ages[i]))) ∧ SameRegs s t := by
  obtain ⟨⟨hregs, hages⟩, hlogged, -⟩ := (ageStep_each (s.withAges ppm)).finRange (s.withAges ppm) ⟨rfl, rfl⟩
  rw [← State.sampleAge_eq] at hregs hages hlogged
  refine .of_finish (u := s.sampleAge ppm) (if_pos hup) ?_
  rw [State.cairn_ended, hages]
  exact ⟨fun i => Vector.getElem_ofFn _, hlogged, .of_regs hregs⟩

end sensors

/-! ### The service firmware and the scrub (R34, R434, R468) -/

section service
variable {s u : State}

/-- A record and an event bit, once the record finds room. -/
theorem recorded_noted (habs : u.dev.absent.getLsbD 0 = false) (hroom : u.log.intake.length < 256) (sev : BitVec 3) (src code : Byte) (a0 a1 : Word) (i : Nat) :
    let t := ((u.record devCode sev false src code a0 a1).crnEvent i).noteMay.announce
    t.cairn = u.cairn.noted i ∧ (i < 64 → t.rb (.fn 0 .crnEvt) i = true) ∧ OtherRegs u t [.fn 0 .crnEvt] ∧
      ∃ r, Logged u t [(u.raw, r)] ∧ r.source = src ∧ r.code = code ∧ r.arg0 = a0 ∧ r.arg1 = a1 := by
  have h := (u.record devCode sev false src code a0 a1).crnEvent_noted i
  exact ⟨by rw [h.cairn, State.record_cairn], h.event, h.otherRegs.of_mid fun r _ => State.reg_record _ _ _ _ _ _ _ _ _, _,
    h.logged.of_mid (State.record_queues habs hroom devCode sev false src code a0 a1), rfl, rfl, rfl, rfl⟩

/-- Cairn where the service firmware goes out (R434). -/
def State.serviceOut (s : State) : State :=
  s.setCairn { s.cairn with running := false, restartAt := s.raw, last := some (s.cairn.last.getD s.crnNow) }

theorem State.restartService_eq (s : State) (cause : Word) : s.restartService cause = (s.serviceOut.record devCode 4 false 0x0C 0x07 cause 0).crnEvent 8 := rfl

theorem restartService_noted (habs : u.dev.absent.getLsbD 0 = false) (hroom : u.log.intake.length < 256) (cause : Word) :
    let t := (u.restartService cause).noteMay.announce
    t.cairn.running = false ∧ t.rb (.fn 0 .crnEvt) 8 = true ∧ OtherRegs u t [.fn 0 .crnEvt] ∧
      ∃ r, Logged u t [(u.raw, r)] ∧ r.source = 0x0C ∧ r.code = 0x07 ∧ r.arg0 = cause := by
  obtain ⟨hcairn, hevent, hregs, r, hlog, hsrc, hcode, harg, -⟩ := recorded_noted (u := u.serviceOut) habs hroom 4 0x0C 0x07 cause 0 8
  rw [← State.restartService_eq] at hcairn hevent hregs hlog
  exact ⟨congrArg Cairn.running hcairn, hevent (by decide), hregs, r, hlog, hsrc, hcode, harg⟩

theorem svcRestart_plain (cause : Word) (hup : s.cairn.running = true) (habs : s.dev.absent.getLsbD 0 = false) (hroom : s.log.intake.length < 256) :
    Does (.svcRestart ⟨cause, none⟩) s fun t => t.cairn.running = false ∧ t.rb (.fn 0 .crnEvt) 8 = true ∧ OtherRegs s t [.fn 0 .crnEvt] ∧
      ∃ r, Logged s t [(s.raw, r)] ∧ r.source = 0x0C ∧ r.code = 0x07 ∧ r.arg0 = cause := by
  have he : exec (.svcRestart ⟨cause, none⟩) s = finish ((s.spoil 1).restartService cause) := if_pos hup
  exact .of_finish he (restartService_noted (u := s.spoil 1) habs hroom cause)

theorem svcRestart_window (cause a : Word) (hup : s.cairn.running = true) (habs : s.dev.absent.getLsbD 0 = false) (hroom : s.log.intake.length < 255) :
    Does (.svcRestart ⟨cause, some a⟩) s fun t => t.cairn.running = false ∧ t.rb (.fn 0 .crnEvt) 8 = true ∧ OtherRegs s t [.fn 0 .crnEvt] ∧
      ∃ v r, Logged s t [(s.raw, v), (s.raw, r)] ∧ v.arg0 = 0x40 ∧ v.arg1 = a ∧ r.source = 0x0C ∧ r.code = 0x07 := by
  let u := (s.spoil 1).record devCode 4 false 0x0A 0x03 0x40 a
  have hlog := State.record_queues (s := s.spoil 1) habs (Nat.lt_succ_of_lt hroom) devCode 4 false 0x0A 0x03 0x40 a
  have hraw : u.raw = s.raw := State.record_raw _ _ _ _ _ _ _ _
  have huabs : u.dev.absent.getLsbD 0 = false := by rw [show u.dev = s.dev from State.record_dev _ _ _ _ _ _ _ _]; exact habs
  have huroom : u.log.intake.length < 256 := by
    rw [show u.log = _ from hlog, List.length_append]
    exact Nat.succ_lt_succ hroom
  obtain ⟨hout, hevent, hregs, r, hqueue, hsrc, hcode, -⟩ := restartService_noted huabs huroom cause
  rw [hraw] at hqueue
  have he : exec (.svcRestart ⟨cause, some a⟩) s = finish (u.restartService cause) := if_pos hup
  exact .of_finish he ⟨hout, hevent, hregs.of_mid fun r _ => State.reg_record _ _ _ _ _ _ _ _ _, _, r, hqueue.of_mid (s := s) hlog, rfl, rfl, hsrc, hcode⟩

theorem svcRestartEnd_runs (hup : s.dev.cairnUp = true) (hout : s.cairn.running = false) (habs : s.dev.absent.getLsbD 0 = false) :
    Does .svcRestartEnd s fun t => t.cairn = { s.cairn with running := true, runAt := s.raw, last := none } ∧ SameRegs s t ∧ Logged s t [] :=
  .of_finish (u := s.setCairn { s.cairn with running := true, runAt := s.raw, last := none }) (if_pos (by rw [hup, hout, habs]; rfl))
    ⟨State.cairn_ended _, .of_regs rfl, .of_log (by rw [List.append_nil]; rfl)⟩

theorem scrub_corrected (m : ScrubMem) (addr : Word) :
    Does (.scrub m addr false) s fun t => t.cairn = { s.cairn with corrected := (s.cairn.corrected + 1) % 2 ^ 24 } ∧ SameRegs s t ∧ Logged s t [] ∧
      t.tarn = s.tarn ∧ t.flt = s.flt :=
  .of_finish (u := s.setCairn { s.cairn with corrected := (s.cairn.corrected + 1) % 2 ^ 24 }) rfl
    ⟨State.cairn_ended _, .of_regs rfl, .of_log (by rw [List.append_nil]; rfl), by rw [State.announce_tarn]; rfl, by rw [State.announce_flt]; rfl⟩

/-- Cairn with one more uncorrectable error (R468). -/
def Cairn.worse (c : Cairn) : Cairn := { c with uncorr := if c.uncorr = 0xFF then 0xFF else c.uncorr + 1 }

/-- An uncorrectable error whose handling leaves u: the record and the event come on top. -/
theorem scrub_uncorrected {p : State → Prop} (m : ScrubMem) (addr : Word) (hu : (s.setCairn s.cairn.worse).scrubActs m = u)
    (hp : ∀ t, t.tarn = u.tarn → t.flt = u.flt → t.cairn = u.cairn.noted 7 → t.rb (.fn 0 .crnEvt) 7 = true → OtherRegs u t [.fn 0 .crnEvt] → p t) :
    Does (.scrub m addr true) s p := by
  subst hu
  let v := ((s.setCairn s.cairn.worse).scrubActs m).record devCode 4 false 0x0C 0x06 (BitVec.ofNat 32 (scrubCode m)) addr
  have h := v.crnEvent_noted 7
  refine .of_finish (u := v.crnEvent 7) rfl (hp _ ?_ ?_ ?_ (h.event (by decide)) (h.otherRegs.of_mid fun r _ => State.reg_record _ _ _ _ _ _ _ _ _))
  · rw [State.announce_tarn, State.noteMay_tarn, State.crnEvent_tarn, State.record_tarn]
  · rw [State.announce_flt, State.noteMay_flt, State.crnEvent_flt, State.record_flt]
  · rw [h.cairn, State.record_cairn]

theorem scrub_tarn {line : Nat} (addr : Word) (hline : line < 61440) :
    Does (.scrub (.tarn line) addr true) s fun t => (∀ a, Tbl.get 0 t.tarn a = if a / 64 = line then 0 else Tbl.get 0 s.tarn a) ∧
      t.cairn.uncorr = (if s.cairn.uncorr = 0xFF then 0xFF else s.cairn.uncorr + 1) ∧ t.rb (.fn 0 .crnEvt) 7 = true ∧ OtherRegs s t [.fn 0 .crnEvt] := by
  refine scrub_uncorrected (.tarn line) addr (if_pos hline) fun t htarn _ hcairn hevent hregs => ⟨fun a => ?_, by rw [hcairn]; rfl, hevent, hregs⟩
  rw [htarn]
  exact (Tbl.get_drop s.tarn (fun a => a / 64 == line) a).trans (if_congr beq_iff_eq rfl rfl)

theorem scrub_filter (e : Nat) (addr : Word) (htables : TablesOk s) :
    Does (.scrub (.filter e) addr true) s fun t => (∀ i, Tbl.get 0 t.flt i = if i = e then 0 else Tbl.get 0 s.flt i) ∧ t.tarn = s.tarn ∧
      t.rb (.fn 0 .crnEvt) 7 = true ∧ OtherRegs s t [.fn 0 .crnEvt] := by
  refine scrub_uncorrected (.filter e) addr rfl fun t htarn hflt _ hevent hregs => ⟨fun i => ?_, htarn, hevent, hregs⟩
  rw [hflt]
  by_cases hi : i = e
  · rw [if_pos hi, hi]
    exact Tbl.get_put_same _ _ _ htables.flt
  · rw [if_neg hi]
    exact Tbl.get_put_other _ _ _ _ hi

end service

end Sys2Proof.Machine

namespace Sys2Proof.Machine

/-! ### The log: intake, ANCHOR, full, CLEAR (R42, R447, R450, R451) -/

section log
variable {s u : State} {r : LogRec}

/-- Where the log stands, apart from the note that it was full. -/
structure LogNow (u : State) (l : Log) : Prop where
  eq : u.log = { l with fullSeen := u.log.fullSeen }

/-- What the writing of records leaves alone but for the log: the clock, and the registers but for the event bits of D0. -/
structure BesideLog (s u : State) : Prop where
  tmu : u.tmu = s.tmu
  reg : ∀ r, r ≠ .fn 0 .crnEvt → u.reg r = s.reg r

theorem BesideLog.refl (s : State) : BesideLog s s := ⟨rfl, fun _ _ => rfl⟩

theorem BesideLog.stopFull (h : BesideLog s u) : u.rb (.crn .logcfg) 0 = s.rb (.crn .logcfg) 0 := by
  rw [State.rb, h.reg (.crn .logcfg) nofun, State.rb]

theorem State.noteFull_leaves (s : State) : BesideLog s s.noteFull ∧ LogNow s.noteFull s.log := by
  unfold State.noteFull
  split
  · exact ⟨⟨State.crnEvent_tmu _ _, fun r hr => State.crnEvent_reg _ _ hr⟩, ⟨by rw [State.crnEvent_log]; rfl⟩⟩
  · exact ⟨.refl s, ⟨rfl⟩⟩

theorem State.noteFull_of_not_full (h : s.logFull = false) : s.noteFull = s := if_neg (by rw [h]; exact Bool.false_ne_true)

theorem State.logFull_noteFull (s : State) : s.noteFull.logFull = s.logFull := by
  obtain ⟨hbeside, hlog⟩ := s.noteFull_leaves
  rw [State.logFull, hbeside.stopFull, hlog.eq, State.logFull]

/-- The log with one more record, while the ring has room (R445, R450). -/
def Log.withRec (l : Log) (r : LogRec) : Log := { l with recs := l.recs ++ [(l.next, r)], next := (l.next + 1) % 2 ^ 32, sinceClear := l.sinceClear + 1 }

/-- A record of no domain enters a ring with room. -/
theorem State.putRec_leaves (hdom : 16 ≤ r.dom.toNat) (hroom : s.log.recs.length < logSize) :
    BesideLog s (s.putRec r) ∧ LogNow (s.putRec r) (s.log.withRec r) := by
  have hput : s.putRec r = (s.setLog (s.log.withRec r)).noteFull := by
    unfold State.putRec Log.withRec
    dsimp only
    rw [if_neg (not_le.2 hroom), if_neg (fun h => absurd h.2 (not_lt.2 hdom))]
    cases hrecs : s.log.recs with
    | nil => rfl
    | cons e l =>
      dsimp only
      rw [if_neg (fun h => absurd h.1 (not_le.2 (hrecs ▸ hroom)))]
  obtain ⟨hbeside, hlog⟩ := (s.setLog (s.log.withRec r)).noteFull_leaves
  rw [hput]
  exact ⟨⟨hbeside.tmu, hbeside.reg⟩, hlog⟩

/-- The ANCHOR of an instant (R447). -/
def State.anchorRec (s : State) : LogRec := s.nowRec devCode 1 0 1 (s.now.setWidth 32) ((s.now >>> 32).setWidth 32)

theorem State.anchorTime_anchorRec (s : State) : anchorTime s.anchorRec = s.now := by
  change (s.now >>> 32).setWidth 32 ++ s.now.setWidth 32 = s.now
  refine BitVec.eq_of_getLsbD_eq fun i hi => ?_
  rw [BitVec.getLsbD_append, BitVec.getLsbD_setWidth, BitVec.getLsbD_setWidth, BitVec.getLsbD_ushiftRight]
  by_cases h : i < 32
  · simp [h]
  · rw [if_neg h, show 32 + (i - 32) = i by omega, decide_eq_true (by omega : i - 32 < 32), Bool.true_and]

/-- An ANCHOR enters a ring with room. -/
theorem State.writeAnchor_leaves (hroom : s.log.recs.length < logSize) :
    BesideLog s s.writeAnchor ∧ LogNow s.writeAnchor { s.log.withRec s.anchorRec with anchor := some (s.now, s.tmu.stepCnt) } := by
  obtain ⟨hbeside, hlog⟩ := State.putRec_leaves (r := s.anchorRec) (show 16 ≤ devCode.toNat by decide) hroom
  have hwrite : s.writeAnchor = (s.putRec s.anchorRec).setLog { (s.putRec s.anchorRec).log with anchor := some (s.now, (s.putRec s.anchorRec).tmu.stepCnt) } := rfl
  rw [hwrite, hbeside.tmu]
  exact ⟨⟨hbeside.tmu, hbeside.reg⟩, ⟨congrArg (fun l : Log => { l with anchor := some (s.now, s.tmu.stepCnt) }) hlog.eq⟩⟩

/-- The state in which the oldest record has left the intake queue. -/
def State.dequeued (s : State) (rest : List (DWord × LogRec)) : State := s.setLog { s.log with intake := rest }

/-- The oldest record of the queue, of no domain, while nothing lost is owed (R451). -/
theorem execLogIntake_device {raw : DWord} {rest : List (DWord × LogRec)} (hqueue : s.log.intake = (raw, r) :: rest) (hup : s.cairn.running = true)
    (howed : s.log.owed = 0) (hdom : 16 ≤ r.dom.toNat) : exec .logIntake s = finish ((s.dequeued rest).writeRec r) := by
  change execLogIntake s = _
  unfold execLogIntake
  rw [hqueue]
  dsimp only
  have hreport : (s.dequeued rest).reportLost = s.dequeued rest := if_pos (.inl howed)
  rw [hup, if_neg (by decide), dif_neg (not_lt.2 hdom)]
  exact congrArg (fun x : State => finish (x.writeRec r)) hreport

/-- The log after the end of a command. -/
theorem State.log_ended (u : State) : Logged u u.noteMay.announce [] := Logged.of_log (by rw [List.append_nil])

theorem LogNow.ended {l : Log} (h : LogNow u l) : let t := u.noteMay.announce
    t.log.recs = l.recs ∧ t.log.next = l.next ∧ t.log.sinceClear = l.sinceClear ∧ t.log.fullLost = l.fullLost ∧ Queued t l.intake := by
  obtain ⟨hsame, hqueued⟩ := u.log_ended
  obtain ⟨hrecs, hnext, hsince, hlost, -⟩ := (Part.log_same _ _).1 hsame
  rw [h.eq] at hrecs hnext hsince hlost hqueued
  rw [List.append_nil] at hqueued
  exact ⟨hrecs, hnext, hsince, hlost, hqueued⟩

/-- A record goes to the log where no ANCHOR is due. -/
theorem logIntake_plain {raw : DWord} {rest : List (DWord × LogRec)} (hqueue : s.log.intake = (raw, r) :: rest) (hup : s.cairn.running = true)
    (howed : s.log.owed = 0) (hdom : 16 ≤ r.dom.toNat) (hfull : s.logFull = false) (hanchor : s.anchorDue = false) (hroom : s.log.recs.length < 16384) :
    Does .logIntake s fun t => Queued t rest ∧ t.log.recs = s.log.recs ++ [(s.log.next, r)] ∧ t.log.next = (s.log.next + 1) % 2 ^ 32 ∧
      t.log.sinceClear = s.log.sinceClear + 1 ∧ t.log.fullLost = s.log.fullLost := by
  let v := s.dequeued rest
  have hready : v.readyRec = v := by
    unfold State.readyRec
    dsimp only
    rw [State.noteFull_of_not_full (s := v) hfull, show v.anchorDue = false from hanchor, Bool.and_false]
    rfl
  have hwrite : v.writeRec r = v.putRec r := by
    unfold State.writeRec
    rw [hready]
    exact if_neg (by rw [show v.logFull = false from hfull]; decide)
  have he := execLogIntake_device hqueue hup howed hdom
  rw [hwrite] at he
  obtain ⟨-, hlog⟩ := State.putRec_leaves (s := v) hdom hroom
  obtain ⟨hrecs, hnext, hsince, hlost, hqueued⟩ := hlog.ended
  exact .of_finish he ⟨hqueued, hrecs, hnext, hsince, hlost⟩

/-- A record goes to the log after an ANCHOR where one is due (R447). -/
theorem logIntake_anchored {raw : DWord} {rest : List (DWord × LogRec)} (hqueue : s.log.intake = (raw, r) :: rest) (hup : s.cairn.running = true)
    (howed : s.log.owed = 0) (hdom : 16 ≤ r.dom.toNat) (hstop : s.rb (.crn .logcfg) 0 = false) (hanchor : s.anchorDue = true)
    (hroom : s.log.recs.length + 1 < 16384) :
    Does .logIntake s fun t => Queued t rest ∧ t.log.next = ((s.log.next + 1) % 2 ^ 32 + 1) % 2 ^ 32 ∧
      ∃ a, t.log.recs = s.log.recs ++ [(s.log.next, a), ((s.log.next + 1) % 2 ^ 32, r)] ∧ isAnchor a = true ∧ anchorTime a = s.now := by
  let v := s.dequeued rest
  have hfull : ∀ {x : State}, BesideLog v x → x.logFull = false := fun hx => by
    rw [State.logFull, hx.stopFull, show v.rb (.crn .logcfg) 0 = false from hstop, Bool.false_and]
  have hready : v.readyRec = v.writeAnchor := by
    unfold State.readyRec
    rw [State.noteFull_of_not_full (hfull (.refl v))]
    exact if_pos (by rw [hfull (.refl v), show v.anchorDue = true from hanchor]; rfl)
  obtain ⟨hbeside, hlog⟩ := State.writeAnchor_leaves (s := v) (Nat.lt_of_succ_lt hroom)
  have hwrite : v.writeRec r = v.writeAnchor.putRec r := by
    unfold State.writeRec
    rw [hready]
    exact if_neg (by rw [hfull hbeside]; decide)
  have he := execLogIntake_device hqueue hup howed hdom
  rw [hwrite] at he
  have hlength : v.writeAnchor.log.recs.length < logSize := by
    rw [hlog.eq, show (Log.recs _) = s.log.recs ++ [(s.log.next, v.anchorRec)] from rfl, List.length_append]
    exact hroom
  obtain ⟨-, hput⟩ := State.putRec_leaves hdom hlength
  rw [hlog.eq] at hput
  obtain ⟨hrecs, hnext, -, -, hqueued⟩ := hput.ended
  exact .of_finish he ⟨hqueued, hnext, v.anchorRec, hrecs.trans (List.append_assoc _ _ _), rfl, v.anchorTime_anchorRec⟩

end log

/-! ### The storm guard where no source is guarded (R427) -/

section quiet
variable {s u t : State}

/-- Nothing joins the log, and every register is the same. -/
structure Quiet (s t : State) : Prop where
  log : t.log = s.log
  regs : t.regs = s.regs

theorem Quiet.trans (h : Quiet s t) (g : Quiet t u) : Quiet s u := ⟨g.log.trans h.log, g.regs.trans h.regs⟩

theorem Quiet.unguarded (h : Quiet s t) (hs : ∀ e x, s.rb (.evcSrc e x) 13 = false) : ∀ e x, t.rb (.evcSrc e x) 13 = false := fun e x => by
  rw [State.rb, State.reg, h.regs]
  exact hs e x

theorem Quiet.foldl {α : Type} {f : State → α → State} (hf : ∀ u x, (∀ e x, u.rb (.evcSrc e x) 13 = false) → Quiet u (f u x)) (l : List α)
    (hs : ∀ e x, s.rb (.evcSrc e x) 13 = false) : Quiet s (l.foldl f s) := by
  induction l generalizing s with
  | nil => exact ⟨rfl, rfl⟩
  | cons x l ih => exact (hf s x hs).trans (ih ((hf s x hs).unguarded hs))

theorem State.message_quiet (hs : ∀ e x, s.rb (.evcSrc e x) 13 = false) (d : Dom) (n : Nat) (srcs : List Nat) : Quiet s (s.message d n srcs) := by
  unfold State.message
  dsimp only
  split
  · exact ⟨rfl, rfl⟩
  · refine Quiet.trans (t := if _ then _ else _) ?_ (Quiet.foldl (fun u x hu => ?_) _ ?_)
    · split
      · exact ⟨rfl, rfl⟩
      · exact ⟨rfl, rfl⟩
    · rw [State.stormCount_unguarded (hu d _)]
      exact ⟨rfl, rfl⟩
    · intro e x
      split
      · exact hs e x
      · exact hs e x

theorem State.announceAt_quiet (hs : ∀ e x, s.rb (.evcSrc e x) 13 = false) (d : Dom) (n : Nat) (srcs : List Nat) : Quiet s (s.announceAt d n srcs) := by
  unfold State.announceAt
  split
  · exact State.message_quiet hs d n srcs
  · split
    · exact Quiet.trans (t := s.draw) ⟨rfl, rfl⟩ (State.message_quiet (s := s.draw) hs d n srcs)
    · exact ⟨rfl, rfl⟩

/-- Where no source is guarded, the messages at the end of a command leave the log alone. -/
theorem State.log_ended_unguarded (hs : ∀ e x, u.rb (.evcSrc e x) 13 = false) : u.noteMay.announce.log = u.log := by
  have hfold := Quiet.foldl (s := u.noteMay) (f := fun s x => s.announceAt (dueDom x) (dueTgt x)
    (((u.noteMay.due.filter (fun x => decide (x ∉ u.noteMay.evc.announced))).filter (fun y => decide (dueDom y = dueDom x) && dueTgt y == dueTgt x)).map dueSrc))
    (fun v x hv => State.announceAt_quiet hv _ _ _)
    ((u.noteMay.due.filter (fun x => decide (x ∉ u.noteMay.evc.announced))).filter (fun x => standsFor (u.noteMay.due.filter (fun x => decide (x ∉ u.noteMay.evc.announced))) x)) hs
  exact hfold.log

end quiet

/-! ### Records that are counted as lost, or dropped; CLEAR (R42, R450) -/

section lost
variable {s : State} {r : LogRec}

/-- A record is counted as lost where the log is full and stops (R450). -/
theorem logIntake_full {raw : DWord} {rest : List (DWord × LogRec)} (hqueue : s.log.intake = (raw, r) :: rest) (hup : s.cairn.running = true)
    (howed : s.log.owed = 0) (hdom : 16 ≤ r.dom.toNat) (hfull : s.logFull = true) :
    Does .logIntake s fun t => Queued t rest ∧ t.log.recs = s.log.recs ∧ t.log.fullLost = s.log.fullLost + 1 ∧
      ((∀ e x, s.rb (.evcSrc e x) 13 = false) → t.log.lost = s.log.lost + 1) := by
  let v := s.dequeued rest
  have hnoted : v.noteFull.logFull = true := v.logFull_noteFull.trans hfull
  have hready : v.readyRec = v.noteFull := by
    unfold State.readyRec
    dsimp only
    rw [hnoted]
    rfl
  let u := v.noteFull.setLog { v.noteFull.log with lost := v.noteFull.log.lost + 1, fullLost := v.noteFull.log.fullLost + 1 }
  have hwrite : v.writeRec r = u := by
    unfold State.writeRec
    rw [hready]
    exact if_pos hnoted
  have he := execLogIntake_device hqueue hup howed hdom
  rw [hwrite] at he
  obtain ⟨hbeside, hlog⟩ := v.noteFull_leaves
  have hnow : LogNow u { s.log with intake := rest, lost := s.log.lost + 1, fullLost := s.log.fullLost + 1 } :=
    ⟨congrArg (fun l : Log => { l with lost := l.lost + 1, fullLost := l.fullLost + 1 }) hlog.eq⟩
  obtain ⟨hrecs, -, -, hlost, hqueued⟩ := hnow.ended
  refine .of_finish he ⟨hqueued, hrecs, hlost, fun hguard => ?_⟩
  rw [State.log_ended_unguarded fun e x => ?_, hnow.eq]
  exact (congrArg (bit · 13) (hbeside.reg (.evcSrc e x) nofun)).trans (hguard e x)

/-- A record beyond its domain's rate is dropped and counted (R42). -/
theorem logIntake_beyondRate {raw : DWord} {rest : List (DWord × LogRec)} {d : Dom} (hqueue : s.log.intake = (raw, r) :: rest) (hup : s.cairn.running = true)
    (howed : s.log.owed = 0) (hdom : r.dom.toNat = d.val) (hrate : (s.entry d).logRate ≠ 0) (hinterval : (s.func d).logInterval = logInterval raw)
    (hbeyond : (s.entry d).logRate ≤ (s.func d).logCount) :
    Does .logIntake s fun t => Queued t rest ∧ t.log.recs = s.log.recs ∧ (t.func d).logDropped = (s.func d).logDropped + 1 ∧ SameRegs s t := by
  let v := s.dequeued rest
  let u := (v.setFunc d { v.func d with logDropped := (v.func d).logDropped + 1 }).countDev 0x10
  have hdrop : v.domainRec d raw r = u := by
    unfold State.domainRec
    dsimp only
    rw [if_pos (show (v.func d).logInterval = logInterval raw from hinterval)]
    exact if_pos ⟨hrate, hbeyond⟩
  have he : exec .logIntake s = finish u := by
    change execLogIntake s = _
    unfold execLogIntake
    rw [hqueue]
    dsimp only
    have hreport : v.reportLost = v := if_pos (.inl howed)
    have hlt : r.dom.toNat < 16 := hdom ▸ d.isLt
    rw [hup, if_neg (by decide), dif_pos hlt, show (⟨r.dom.toNat, hlt⟩ : Dom) = d from Fin.ext hdom, ← hdrop]
    exact congrArg (fun x : State => finish (x.domainRec d raw r)) hreport
  have hnow : LogNow u { s.log with intake := rest } := ⟨rfl⟩
  obtain ⟨hrecs, -, -, -, hqueued⟩ := hnow.ended
  obtain ⟨l, hfunc⟩ := u.noteMay.announce_signals.func d
  refine .of_finish he ⟨hqueued, hrecs, ?_, .of_regs rfl⟩
  have hcount : (u.func d).logDropped = (s.func d).logDropped + 1 := by
    rw [show u.func d = { v.func d with logDropped := (v.func d).logDropped + 1 } from State.func_setFunc_same _ _ _]
    rfl
  rw [hfunc]
  exact hcount

/-- A write to fields of which none refuses it leaves a value of the register, and nothing else (R15). -/
theorem State.writeFields_takes {d : Dom} {q : Reg} (mask v : DWord) (hok : ∀ f ∈ q.fields, f.acc = .wo ∨ s.fieldOk d q f = true) :
    ∃ w, s.writeFields d q mask v (fun _ => false) = s.setReg q w := by
  have hfold : ∀ (l : List Field) (a : DWord), (∀ f ∈ l, f.acc = .wo ∨ s.fieldOk d q f = true) → (l.foldl (s.fieldTake d q mask v) (a, false)).2 = false := by
    intro l
    induction l with
    | nil => exact fun _ _ => rfl
    | cons f l ih =>
      intro a hl
      have hstep : (s.fieldTake d q mask v (a, false) f).2 = false := by
        unfold State.fieldTake
        rcases hl f List.mem_cons_self with hwo | hallowed
        · rw [hwo]
        · rw [hallowed]
          dsimp only
          split
          · rfl
          · rfl
          · split
            · rfl
            · rfl
      rw [List.foldl_cons, show s.fieldTake d q mask v (a, false) f = ((s.fieldTake d q mask v (a, false) f).1, false) from Prod.ext rfl hstep]
      exact ih _ fun g hg => hl g (List.mem_cons_of_mem _ hg)
  have hrefused : (s.fieldWrite d q mask v (fun _ => false)).2 = false := by
    rw [State.fieldWrite_eq, show q.fields.filter (fun f => !(fun _ => false) f) = q.fields from List.filter_eq_self.2 fun _ _ => rfl]
    exact hfold _ _ hok
  have hwrite : s.writeFields d q mask v (fun _ => false) = if (s.fieldWrite d q mask v (fun _ => false)).2 then
      (s.setReg q (s.fieldWrite d q mask v (fun _ => false)).1).refuse d q mask v else s.setReg q (s.fieldWrite d q mask v (fun _ => false)).1 := rfl
  exact ⟨_, hwrite.trans (if_neg (by rw [hrefused]; exact Bool.false_ne_true))⟩

/-- CLEAR leaves an ANCHOR and a LOST record (R450). -/
theorem State.clearLog_leaves (s : State) : ∃ a l, LogNow s.clearLog { s.log with
    recs := [(s.log.next, a), ((s.log.next + 1) % 2 ^ 32, l)], next := ((s.log.next + 1) % 2 ^ 32 + 1) % 2 ^ 32, sinceClear := 2, fullLost := 0,
    anchor := some (s.now, s.tmu.stepCnt) } ∧ isAnchor a = true ∧ l.source = 0 ∧ l.code = 4 ∧ l.arg0 = BitVec.ofNat 32 s.log.fullLost := by
  let v := s.setLog { s.log with recs := [], sinceClear := 0, fullLost := 0, fullSeen := false }
  obtain ⟨-, hanchor⟩ := State.writeAnchor_leaves (s := v) (show 0 < logSize by decide)
  let l := v.writeAnchor.nowRec devCode 3 0 4 (BitVec.ofNat 32 s.log.fullLost) 0
  have hrecs : v.writeAnchor.log.recs = [(s.log.next, v.anchorRec)] := by rw [hanchor.eq]; rfl
  obtain ⟨-, hlost⟩ := State.putRec_leaves (s := v.writeAnchor) (r := l) (show 16 ≤ devCode.toNat by decide) (by rw [hrecs]; exact (by decide : 1 < logSize))
  rw [hanchor.eq] at hlost
  exact ⟨v.anchorRec, l, ⟨hlost.eq⟩, rfl, rfl, rfl, rfl⟩

theorem logClear_leaves {d : Dom} {v : Word} (hw : Writes s d 0) (hup : s.cairn.running = true) (hclear : v.getLsbD 1 = true) :
    Does (.logClear d v) s fun t => ∃ a l, t.log.recs = [(s.log.next, a), ((s.log.next + 1) % 2 ^ 32, l)] ∧ isAnchor a = true ∧ l.source = 0 ∧ l.code = 4 ∧
      l.arg0 = BitVec.ofNat 32 s.log.fullLost ∧ t.log.fullLost = 0 ∧ t.log.sinceClear = 2 ∧ Queued t s.log.intake := by
  obtain rfl : 0 = d := hw.2.2
  have hfields : ∀ f ∈ (Reg.crn .logcfg).fields, f.acc = .wo ∨ s.fieldOk 0 (.crn .logcfg) f = true := by
    have hacc : ∀ f ∈ (Reg.crn .logcfg).fields, f.acc = .wo ∨ f.acc = .rwo := by decide
    exact fun f hf => (hacc f hf).imp_right fun hrwo => State.fieldOk_rwo hrwo
  obtain ⟨w, hwrite⟩ := State.writeFields_takes mask32 (v.setWidth 64) hfields
  have he : exec (.logClear 0 v) s = finish (s.setReg (.crn .logcfg) w).clearLog := by
    refine (hw.ownedWrite (Reg.crn .logcfg).off v fun s => s.writeLogCfg 0 v).trans (congrArg finish ?_)
    unfold State.writeLogCfg
    rw [hup, if_neg (by decide), hwrite]
    exact if_pos hclear
  obtain ⟨a, l, hnow, ha, hsrc, hcode, harg⟩ := (s.setReg (.crn .logcfg) w).clearLog_leaves
  obtain ⟨hrecs, -, hsince, hlost, hqueued⟩ := hnow.ended
  exact .of_finish he ⟨a, l, hrecs, ha, hsrc, hcode, harg, hlost, hsince, hqueued⟩

end lost

/-- Settles O59: the samples cell by cell, the service firmware and the scrub by what each leaves, the log by what a record, an ANCHOR and CLEAR make of it. -/
theorem sensorsServiceAndLog : Obligations.SensorsServiceAndLog := by
  unfold Obligations.SensorsServiceAndLog
  exact ⟨fun _ q hread => tempSample_leaves q hread, fun _ mv hup => railSample_leaves mv hup, fun _ ps hup => paceSample_leaves ps hup,
    fun _ ppm hup => ageSample_leaves ppm hup, fun _ cause hup habs hroom => svcRestart_plain cause hup habs hroom,
    fun _ cause a hup habs hroom => svcRestart_window cause a hup habs hroom, fun _ hup hout habs => svcRestartEnd_runs hup hout habs,
    fun _ m addr => scrub_corrected m addr, fun _ _ addr hline => scrub_tarn addr hline, fun _ e addr htables => scrub_filter e addr htables,
    fun _ _ _ _ hqueue hup howed hdom hfull hanchor hroom => logIntake_plain hqueue hup howed hdom hfull hanchor hroom,
    fun _ _ _ _ hqueue hup howed hdom hstop hanchor hroom => logIntake_anchored hqueue hup howed hdom hstop hanchor hroom,
    fun _ _ _ _ hqueue hup howed hdom hfull => logIntake_full hqueue hup howed hdom hfull,
    fun _ _ _ _ _ hqueue hup howed hdom hrate hinterval hbeyond => logIntake_beyondRate hqueue hup howed hdom hrate hinterval hbeyond,
    fun _ _ _ hw hup hclear => logClear_leaves hw hup hclear⟩

end Sys2Proof.Machine

namespace Sys2Proof.Machine

/-! ### SELF_TEST (R469 to R472) -/

section selfTest
variable {s u : State} {d : Dom} {n : RingNo} {x : Desc} {p : PortId}

theorem State.complete_cairn (s : State) (o : Op) (st : Byte) (i0 : Word) (i1 : Half) (stamp : Option (BitVec 36)) (port : Byte) :
    (s.complete o st i0 i1 stamp port).cairn = s.cairn := by
  obtain ⟨l, r, c, h, e⟩ := s.complete_eq o st i0 i1 stamp port
  rw [e]

/-- A ready command leaves Cairn as its effect leaves it, beside what it leaves of all else. -/
theorem RingReady.does_cairn {ty : Nat} (h : RingReady ty s d n x) {i : Instr} {f : State → Op → State} {im : Bool} {status : Byte} {i0 : Word} {i1 : Half}
    {st : Option (BitVec 36)} {port : Byte} {q : State → Prop} (he : exec i s = finish (s.command d n x f im))
    (hf : f (s.fetch d n) (s.opOf d n x) = u.complete (s.opOf d n x) status i0 i1 st port) (hk : Keeps false s u) (g : SameCq s u d n)
    (hq : ∀ t, Concluded s u t d n x status i0 → t.cairn = u.cairn → q t) : Does i s q :=
  ⟨_, he, hq _ (h.concluded hf hk g) (by rw [State.cairn_ended, h.command_eq, hf, State.complete_cairn])⟩

theorem State.complete_spur (s : State) (o : Op) (st : Byte) (i0 : Word) : (s.complete o st i0).spur = s.spur := by
  obtain ⟨l, r, c, h, e⟩ := s.complete_eq o st i0 0 none 0xFF
  rw [e]

/-- The test of a port that a SELF_TEST descriptor names (R470). -/
def portTest (o : Op) (p : PortId) (force : Bool) : SelfTest := { op := o, kind := 0, index := p.val, force := force }

theorem testPort_portTest (o : Op) (p : PortId) (force : Bool) : testPort (portTest o p force) = p := Fin.ext (Nat.mod_eq_of_lt p.isLt)

/-- A port that runs is in none of the states that keep a test of it waiting, or out (R470). -/
theorem ready_of_running {st : PState} (h : running st = true) :
    halted st = false ∧ (st == .hold) = false ∧ (st == .sleep) = false ∧ (st == .busoff) = false ∧ (st == .isolated) = false := by
  revert h
  cases st <;> decide

theorem State.testBusy_port {q : SelfTest} (hkind : q.kind = 0) (hgroup : s.liveGroup (testPort q) = none) :
    s.testBusy q = (((s.port (testPort q)).state == .sleep || (s.port (testPort q)).state == .busoff || (s.port (testPort q)).state == .isolated) ||
      ((running (s.port (testPort q)).state || (s.port (testPort q)).state == .hold) && !q.force)) := by
  refine (if_pos hkind).trans ?_
  dsimp only
  rw [hgroup, Option.isSome_none, Bool.false_or]

theorem State.beginTest_halted {q : SelfTest} (hkind : q.kind = 0) (hport : halted (s.port (testPort q)).state = true) :
    s.beginTest q = s.setCairn { s.cairn with test := some { q with started := true, force := false } } := by
  unfold State.beginTest
  rw [if_pos hkind, if_pos hport]

/-- Cairn with a test taken from an empty queue. -/
def Cairn.testing (c : Cairn) (t : Option SelfTest) : Cairn := { c with tests := [], test := t }

theorem State.nextTest_none (fuel : Nat) (htests : s.cairn.tests = []) : s.nextTest fuel = s := by
  cases fuel with
  | zero => rfl
  | succ fuel =>
    rw [State.nextTest, htests]
    split
    · rfl
    · rfl

theorem State.turnTests_none (htests : s.cairn.tests = []) : s.turnTests = s := State.nextTest_none _ htests

/-- The only test that waits has its turn. -/
theorem State.turnTests_one {t : SelfTest} (htest : s.cairn.test = none) (htests : s.cairn.tests = [t]) :
    s.turnTests = if (s.setCairn (s.cairn.testing none)).testBusy t then ((s.setCairn (s.cairn.testing none)).complete t.op 0x33).nextTest 1
      else (s.setCairn (s.cairn.testing none)).beginTest t := by
  have hpop : ({ s.cairn with tests := [] } : Cairn) = s.cairn.testing none := by rw [← htest]; rfl
  unfold State.turnTests
  rw [htests]
  unfold State.nextTest
  rw [htest, htests, ← hpop]
  rfl

/-- A SELF_TEST of the domain's own port asks for a turn. -/
theorem State.selfTestOp_port {o : Op} (hres : reservedZero x [(4, 0, 8), (5, 0, 8), (6, 0, 1)] = true) (hkind : dnum x 4 1 = 0) (hindex : dnum x 5 1 = p.val)
    (howner : s.portOwner p = o.dom) :
    s.selfTestOp x o = (s.setCairn { s.cairn with tests := s.cairn.tests ++ [portTest o p (dbit x 6 0)] }).turnTests := by
  have hport : (fin 32 p.val : PortId) = p := Fin.ext (Nat.mod_eq_of_lt p.isLt)
  have hbad : (!reservedZero x [(4, 0, 8), (5, 0, 8), (6, 0, 1)] || decide (2 < 0) || decide (32 ≤ p.val)) = false := by
    rw [hres, decide_eq_false (not_le.2 p.isLt)]
    rfl
  unfold State.selfTestOp
  dsimp only
  rw [hkind, hindex, if_pos rfl, hbad, if_neg Bool.false_ne_true, if_pos rfl, hport, howner, decide_eq_false (not_not.2 rfl), if_neg Bool.false_ne_true]
  rfl

theorem CmdReady.selfTest (h : CmdReady s d n x) : exec (.selfTest d n x) s = finish (s.command d n x fun s op => s.selfTestOp x op) := if_pos h.on

theorem State.liveGroup_fetch (s : State) (d : Dom) (n : RingNo) (p : PortId) : (s.fetch d n).liveGroup p = s.liveGroup p :=
  s.fetch_reads d n true (·.liveGroup p) fun _ _ => rfl

theorem State.cairn_fetch (s : State) (d : Dom) (n : RingNo) : (s.fetch d n).cairn = s.cairn := s.fetch_reads d n true State.cairn fun _ _ => rfl

/-- SELF_TEST of a port where no other test runs or waits: the test finds BUSY or begins. -/
theorem State.selfTestOp_fetched (hres : reservedZero x [(4, 0, 8), (5, 0, 8), (6, 0, 1)] = true) (hkind : dnum x 4 1 = 0) (hindex : dnum x 5 1 = p.val)
    (howner : s.portOwner p = d) (htest : s.cairn.test = none) (htests : s.cairn.tests = []) :
    let t := portTest (s.opOf d n x) p (dbit x 6 0)
    let w := (s.fetch d n).setCairn (s.cairn.testing none)
    (s.fetch d n).selfTestOp x (s.opOf d n x) = if w.testBusy t then (w.complete t.op 0x33).nextTest 1 else w.beginTest t := by
  intro t w
  have hcairn := s.cairn_fetch d n
  have howner' : (s.fetch d n).portOwner p = (s.opOf d n x).dom := (s.fetch_portOwner d n true p).trans howner
  let v := (s.fetch d n).setCairn { s.cairn with tests := [t] }
  have hwait : ({ (s.fetch d n).cairn with tests := (s.fetch d n).cairn.tests ++ [t] } : Cairn) = { s.cairn with tests := [t] } := by
    rw [hcairn, htests]
    rfl
  have hpop : v.setCairn (v.cairn.testing none) = w := rfl
  rw [State.selfTestOp_port hres hkind hindex howner', hwait, ← hpop]
  exact State.turnTests_one (s := v) htest rfl

/-- SELF_TEST of a port that is OFF or STOPPED starts at once (R469). -/
theorem selfTest_starts (h : CmdReady s d n x) (hres : reservedZero x [(4, 0, 8), (5, 0, 8), (6, 0, 1)] = true) (hkind : dnum x 4 1 = 0)
    (hindex : dnum x 5 1 = p.val) (howner : s.portOwner p = d) (htest : s.cairn.test = none) (htests : s.cairn.tests = []) (hgroup : s.liveGroup p = none)
    (hport : (s.port p).state = .off ∨ (s.port p).state = .stopped) :
    Does (.selfTest d n x) s fun t => t.cairn.test = some { op := s.opOf d n x, kind := 0, index := p.val, force := false, started := true } ∧ t.cairn.tests = [] ∧
      t.ports = s.ports ∧ SameRegs s t ∧ Logged s t [] := by
  let q := portTest (s.opOf d n x) p (dbit x 6 0)
  let w := (s.fetch d n).setCairn (s.cairn.testing none)
  let u := w.setCairn (s.cairn.testing (some { q with started := true, force := false }))
  have hq : testPort q = p := testPort_portTest _ _ _
  have hstate : (w.port p).state = (s.port p).state := congrArg Port.state (s.fetch_port d n true p)
  have hlive : w.liveGroup p = none := (s.liveGroup_fetch d n p).trans hgroup
  have hfree : w.testBusy q = false := by
    rw [State.testBusy_port rfl (hq.symm ▸ hlive), hq, hstate]
    rcases hport with hoff | hstopped
    · rw [hoff]; rfl
    · rw [hstopped]; rfl
  have hhalted : halted (w.port p).state = true := by
    rw [hstate]
    rcases hport with hoff | hstopped
    · rw [hoff]; rfl
    · rw [hstopped]; rfl
  have hbegin : w.beginTest q = u := State.beginTest_halted rfl (hq.symm ▸ hhalted)
  have he : exec (.selfTest d n x) s = finish u := by
    rw [h.selfTest, RingReady.command_eq h, State.selfTestOp_fetched hres hkind hindex howner htest htests, hfree, if_neg Bool.false_ne_true, hbegin]
  refine .of_finish he ⟨?_, ?_, ?_, .of_regs (s.fetch_regs d n true), .of_log ?_⟩
  · rw [State.cairn_ended]
    rfl
  · rw [State.cairn_ended]
    rfl
  · rw [State.announce_ports, State.noteMay_ports]
    exact s.fetch_ports d n true
  · rw [List.append_nil]
    exact s.fetch_log d n true

/-- SELF_TEST of a sleeping port is BUSY (R470). -/
theorem selfTest_busy (h : CmdReady s d n x) (hres : reservedZero x [(4, 0, 8), (5, 0, 8), (6, 0, 1)] = true) (hkind : dnum x 4 1 = 0)
    (hindex : dnum x 5 1 = p.val) (howner : s.portOwner p = d) (htest : s.cairn.test = none) (htests : s.cairn.tests = [])
    (hport : (s.port p).state = .sleep) :
    Does (.selfTest d n x) s fun t => Answered s t d n x 0x33 0 ∧ t.cairn.test = none ∧ t.ports = s.ports ∧ SameRegs s t := by
  let q := portTest (s.opOf d n x) p (dbit x 6 0)
  let w := (s.fetch d n).setCairn (s.cairn.testing none)
  have hbusy : w.testBusy q = true := by
    have hstate : (w.port (testPort q)).state = .sleep := by
      rw [show testPort q = p from testPort_portTest _ _ _]
      exact (congrArg Port.state (s.fetch_port d n true p)).trans hport
    refine (if_pos (rfl : q.kind = 0)).trans ?_
    simp [hstate]
  have hdone : (w.complete q.op 0x33).nextTest 1 = w.complete q.op 0x33 := State.nextTest_none 1 (by rw [State.complete_cairn]; rfl)
  have hf : (s.fetch d n).selfTestOp x (s.opOf d n x) = w.complete (s.opOf d n x) 0x33 := by
    rw [State.selfTestOp_fetched hres hkind hindex howner htest htests, hbusy, if_pos rfl, hdone]
    rfl
  have hcq : SameCq s w d n := (SameCq.fetch h).of_eq rfl rfl rfl rfl rfl
  exact RingReady.does_cairn h (f := fun s op => s.selfTestOp x op) h.selfTest hf (State.setCairn_keeps (s.fetch_keeps' d n true)) hcq fun t ht hcairn =>
    ⟨ht.answered, by rw [hcairn]; rfl, ht.ports.trans (s.fetch_ports d n true), ht.sameRegs (s.fetch_regs d n true)⟩

end selfTest

/-! ### The start and the end of a test (R469, R471, R472) -/

section testEnd
variable {s : State} {q : SelfTest} {block : Byte} {us : Half}

theorem State.showPort_cairn (s : State) (p : PortId) (x : Port) : (s.showPort p x).cairn = s.cairn := by
  unfold State.showPort
  dsimp only
  split
  · rfl
  · rfl

/-- A forced test of a running port starts at its quiet point (R471). -/
theorem selfTest_forced (htest : s.cairn.test = some q) (hwaits : q.started = false) (hkind : q.kind = 0) (hforce : q.force = true)
    (hrun : running (s.port (testPort q)).state = true) (hgroup : s.liveGroup (testPort q) = none) (hquiet : s.quiet (testPort q) = true) :
    Does .selfTestForcedStart s fun t => t.cairn.test = some { q with started := true, heldPrior := .off, heldEnd := none } ∧
      t.port (testPort q) = { s.port (testPort q) with state := .hold, prior := (s.port (testPort q)).state, holdEnd := none, joined := false, busIdle := false } ∧
      OtherPorts s t (testPort q) ∧ OtherRegs s t [.port (testPort q) .evt] := by
  let v := s.setCairn { s.cairn with test := some { q with started := true, heldPrior := .off, heldEnd := none } }
  let y : Port := { s.port (testPort q) with state := .hold, prior := (s.port (testPort q)).state, holdEnd := none, joined := false, busIdle := false }
  obtain ⟨hactive, hnothold, hawake, hon, hserved⟩ := ready_of_running hrun
  have hfree : s.testBusy q = false := by rw [State.testBusy_port hkind hgroup, hawake, hon, hserved, hforce, Bool.not_true, Bool.and_false]; rfl
  have hstart : s.forcedStart q = v.showPort (testPort q) y := by
    unfold State.forcedStart
    rw [if_neg (by rw [hfree]; exact Bool.false_ne_true), if_pos hkind, if_neg (by rw [hactive]; exact Bool.false_ne_true)]
    unfold State.forcePort
    dsimp only
    rw [hnothold]
    rfl
  have he : exec .selfTestForcedStart s = finish (v.showPort (testPort q) y) := by
    change execSelfTestForcedStart s = _
    unfold execSelfTestForcedStart
    rw [htest]
    dsimp only
    rw [hwaits, hquiet, hkind, hstart]
    rfl
  obtain ⟨w, hport⟩ := PortBecomes.shown v (testPort q) y
  refine .of_finish he ⟨?_, ?_, .of_set hport.ports, .of_reg hport.regs⟩
  · rw [State.cairn_ended, State.showPort_cairn]
    rfl
  · rw [State.announce_port, State.noteMay_port, hport.port]

/-- A test that ends frees the unit, is logged and completes; nothing that was held back or that waits follows. -/
theorem selfTestEnd_leaves {failed : Bool} {v : State} (htest : s.cairn.test = some q) (hstarted : q.started = true) (hv : s.testOutcome q failed = v)
    (htests : v.cairn.tests = []) (hdeferred : v.cairn.deferred = []) (hholds : v.cairn.deferredHolds = []) {p : State → Prop}
    (hp : ∀ t, t.cairn.test = none → t.ports = v.ports → t.spur = v.spur → (∀ r, blockOf r ≠ .guard → t.reg r = v.reg r) → SameRegs v t →
      (v.dev.absent.getLsbD 0 = false → v.log.intake.length < 256 → ∃ r, Logged v t [(v.raw, r)] ∧ r.source = 0x0E ∧ r.code = 0x01 ∧
        r.arg0 = BitVec.ofNat 32 (q.kind + 256 * q.index) ∧ r.arg1 = testInfo failed block us) → p t) :
    Does (.selfTestEnd failed block us) s p := by
  subst hv
  let v := s.testOutcome q failed
  let c : Cairn := { v.cairn with test := none }
  let a := (v.setCairn c).record (domCode q.op.dom) (if failed then 4 else 2) false 0x0E 0x01 (BitVec.ofNat 32 (q.kind + 256 * q.index)) (testInfo failed block us)
  let b := a.complete q.op 0x00 (testInfo failed block us)
  have hcairn : b.cairn = c := by rw [State.complete_cairn, State.record_cairn]; rfl
  have hclear : ({ b.cairn with deferred := [], deferredHolds := [] } : Cairn) = c := by rw [hcairn, ← hdeferred, ← hholds]
  let u := b.setCairn c
  have hreplay : b.replayTest = u := by
    unfold State.replayTest
    rw [hclear, hcairn, show c.deferred = [] from hdeferred, show c.deferredHolds = [] from hholds]
    rfl
  have he : exec (.selfTestEnd failed block us) s = finish u := by
    have hturn : u.turnTests = u := State.turnTests_none htests
    change execSelfTestEnd failed block us s = _
    unfold execSelfTestEnd
    rw [htest]
    dsimp only
    rw [hstarted, if_neg (by decide), ← hturn, ← hreplay]
  have hregs : u.regs = v.regs := (State.complete_regs _ _ _ _ _ _ _).trans (State.record_regs _ _ _ _ _ _ _ _)
  refine .of_finish he (hp _ ?_ ?_ ?_ (fun r hr => ?_) (.of_regs hregs) fun habs hroom => ?_)
  · rw [State.cairn_ended]
    rfl
  · rw [State.announce_ports, State.noteMay_ports]
    exact (State.complete_ports _ _ _ _ _ _ _).trans (State.record_ports _ _ _ _ _ _ _ _)
  · rw [State.spur_ended]
    exact (State.complete_spur _ _ _ _).trans (State.record_spur _ _ _ _ _ _ _ _)
  · rw [State.plainReg_ended _ _ hr, State.reg, hregs]
    rfl
  · exact ⟨_, .of_log ((State.complete_log _ _ _ _ _ _ _).trans (State.record_queues (s := v.setCairn c) habs hroom _ _ _ _ _ _ _)), rfl, rfl, rfl, rfl⟩

/-- The test of a port ends well (R472). -/
theorem selfTestEnd_port (htest : s.cairn.test = some q) (hstarted : q.started = true) (hkind : q.kind = 0) (hforce : q.force = false)
    (htests : s.cairn.tests = []) (hdeferred : s.cairn.deferred = []) (hholds : s.cairn.deferredHolds = []) (habs : s.dev.absent.getLsbD 0 = false)
    (hroom : s.log.intake.length < 256) :
    Does (.selfTestEnd false block us) s fun t => t.cairn.test = none ∧ t.ports = s.ports ∧ SameRegs s t ∧
      ∃ r, Logged s t [(s.raw, r)] ∧ r.source = 0x0E ∧ r.code = 0x01 ∧ r.arg0 = BitVec.ofNat 32 (256 * q.index) ∧ r.arg1 = testInfo false block us := by
  have hsame : s.testOutcome q false = s := by
    unfold State.testOutcome
    rw [if_pos hkind]
    dsimp only
    rw [if_neg Bool.false_ne_true, if_neg (by rw [hforce]; exact Bool.false_ne_true)]
  refine selfTestEnd_leaves htest hstarted hsame htests hdeferred hholds fun t hfreed hports _ _ hregs hlogged => ⟨hfreed, hports, hregs, ?_⟩
  have hlog := hlogged habs hroom
  rwa [hkind, Nat.zero_add] at hlog

/-- An engine that fails its test is FAULTED (R469, R393). -/
theorem selfTestEnd_engine (htest : s.cairn.test = some q) (hstarted : q.started = true) (hkind : q.kind = 1)
    (hengine : (s.engine (testEngine q)).state = .testing) (htests : s.cairn.tests = []) (hdeferred : s.cairn.deferred = [])
    (hholds : s.cairn.deferredHolds = []) :
    Does (.selfTestEnd true block us) s fun t => t.cairn.test = none ∧ (t.engine (testEngine q)).state = .faulted ∧ (t.engine (testEngine q)).cause = 5 ∧
      t.rb (.dev .seevt) 0 = true ∧ (∀ e, e ≠ testEngine q → t.engine e = s.engine e) ∧ t.ports = s.ports ∧ OtherRegs s t [.dev .seevt] := by
  let x := s.engine (testEngine q)
  let y : Engine := { x with state := .faulted, cause := 5, count := if x.count = 0xFF then 0xFF else x.count + 1, loading := none }
  let v := (s.setEngine (testEngine q) y).seEvt 0
  have hfault : s.testOutcome q true = v := by
    unfold State.testOutcome
    rw [if_neg (by rw [hkind]; decide), if_pos hkind]
    dsimp only
    rw [if_neg (not_not.2 hengine), if_pos rfl]
    rfl
  refine selfTestEnd_leaves htest hstarted hfault htests hdeferred hholds fun t hfreed hports hspur hplain hregs _ => ?_
  have hengines : ∀ e, t.engine e = (s.setEngine (testEngine q) y).engine e := fun e => by rw [State.engine, hspur]; rfl
  refine ⟨hfreed, ?_, ?_, ?_, fun e he => ?_, hports, (hregs.other _).of_mid fun r hr => ?_⟩
  · rw [hengines, State.engine_setEngine_same]
  · rw [hengines, State.engine_setEngine_same]
  · rw [State.rb, hplain (.dev .seevt) nofun]
    exact State.seEvt_rb _ _ (by decide)
  · rw [hengines, State.engine_setEngine_other _ _ he]
  · exact State.seEvt_reg _ _ (List.mem_singleton.not.1 hr)

end testEnd

/-- Settles O30: a SELF_TEST is one turn of the queue of tests; the forced start shows HOLD; the end frees the unit after what it does to its resource. -/
theorem selfTests : Obligations.SelfTests := by
  unfold Obligations.SelfTests
  exact ⟨fun _ _ _ _ _ h hres hkind hindex howner htest htests hgroup hport => selfTest_starts h hres hkind hindex howner htest htests hgroup hport,
    fun _ _ _ _ _ h hres hkind hindex howner htest htests hport => selfTest_busy h hres hkind hindex howner htest htests hport,
    fun _ _ htest hwaits hkind hforce hrun hgroup hquiet => selfTest_forced htest hwaits hkind hforce hrun hgroup hquiet,
    fun _ _ _ _ htest hstarted hkind hforce htests hdeferred hholds habs hroom =>
      selfTestEnd_port htest hstarted hkind hforce htests hdeferred hholds habs hroom,
    fun _ _ _ _ htest hstarted hkind hengine htests hdeferred hholds => selfTestEnd_engine htest hstarted hkind hengine htests hdeferred hholds⟩

end Sys2Proof.Machine

namespace Sys2Proof.Machine

/-! ### Slots, holder and activation: what the operations on images leave (R460, R463 to R466) -/

section images
variable {s u : State} {c : Fin 7}

/-- The slots of every component, the holder of the staging area, and the activation that runs. -/
def State.images (s : State) : Vector Comp 7 × Holder × Option Activating := (s.cairn.comps, s.cairn.holder, s.cairn.activating)

theorem State.images_of_cairn (h : u.cairn = s.cairn) : u.images = s.images := by rw [State.images, h, State.images]

theorem State.comps_of_images (h : u.images = s.images) : u.cairn.comps = s.cairn.comps := congrArg Prod.fst h

theorem State.comp_of_images (h : u.images = s.images) (b : Fin 7) : u.comp b = s.comp b := by rw [State.comp, State.comps_of_images h, State.comp]

theorem State.holder_of_images (h : u.images = s.images) : u.cairn.holder = s.cairn.holder := congrArg (fun e => e.2.1) h

theorem State.activating_of_images (h : u.images = s.images) : u.cairn.activating = s.cairn.activating := congrArg (fun e => e.2.2) h

/-- A component that changes, with the layout record that may follow it (R460). -/
theorem State.setComp_eq (s : State) (c : Fin 7) (x : Comp) :
    ∃ l, s.setComp c x = s.setCairn { s.cairn with comps := s.cairn.comps.set c x, layouts := l } := by
  unfold State.setComp
  dsimp only
  split
  · exact ⟨s.cairn.layouts, rfl⟩
  · exact ⟨_, rfl⟩

theorem State.setComp_images (s : State) (c : Fin 7) (x : Comp) : (s.setComp c x).images = (s.cairn.comps.set c x, s.cairn.holder, s.cairn.activating) := by
  obtain ⟨l, h⟩ := s.setComp_eq c x
  rw [h]
  rfl

@[simp] theorem State.comp_setComp_same (s : State) (c : Fin 7) (x : Comp) : (s.setComp c x).comp c = x := by
  rw [State.comp, show (s.setComp c x).cairn.comps = _ from congrArg Prod.fst (s.setComp_images c x)]
  exact Vector.getElem_set_self c.isLt

theorem State.comp_setComp_other (s : State) {c b : Fin 7} (x : Comp) (h : b ≠ c) : (s.setComp c x).comp b = s.comp b := by
  rw [State.comp, show (s.setComp c x).cairn.comps = _ from congrArg Prod.fst (s.setComp_images c x)]
  exact Vector.getElem_set_ne c.isLt b.isLt fun e => h (Fin.ext e.symm)

/-- What a component that changes leaves alone. -/
theorem State.setComp_frame (s : State) (c : Fin 7) (x : Comp) : (s.setComp c x).regs = s.regs ∧ (s.setComp c x).dev = s.dev ∧ (s.setComp c x).spur = s.spur ∧
    (s.setComp c x).ports = s.ports ∧ (s.setComp c x).log = s.log := by
  obtain ⟨l, h⟩ := s.setComp_eq c x
  rw [h]
  exact ⟨rfl, rfl, rfl, rfl, rfl⟩

/-- Two changes of one component are the second. -/
theorem State.setComp_twice (s : State) (c : Fin 7) (x y : Comp) : ((s.setComp c x).setComp c y).images = (s.setComp c y).images := by
  obtain ⟨l, h⟩ := s.setComp_eq c x
  rw [State.setComp_images, State.setComp_images, h]
  exact congrArg (fun v => (v, s.cairn.holder, s.cairn.activating)) (Vector.set_set _ c.isLt)

theorem State.setComp_of_images (h : u.images = s.images) (c : Fin 7) (x : Comp) : (u.setComp c x).images = (s.setComp c x).images := by
  rw [State.setComp_images, State.setComp_images, State.comps_of_images h, State.holder_of_images h, State.activating_of_images h]

theorem State.crnEvent_images (s : State) (i : Nat) : (s.crnEvent i).images = s.images := by rw [State.images, State.crnEvent_cairn]; rfl

theorem State.record_images (s : State) (dom : BitVec 5) (sev : BitVec 3) (sens : Bool) (src code : Byte) (a0 a1 : Word) :
    (s.record dom sev sens src code a0 a1).images = s.images := State.images_of_cairn (State.record_cairn _ _ _ _ _ _ _ _)

theorem State.complete_images (s : State) (o : Op) (st : Byte) : (s.complete o st).images = s.images := State.images_of_cairn (State.complete_cairn _ _ _ _ _ _ _)

theorem State.images_ended (u : State) : u.noteMay.announce.images = u.images := State.images_of_cairn u.cairn_ended

theorem State.restartService_images (s : State) (cause : Word) : (s.restartService cause).images = s.images := by
  unfold State.restartService
  dsimp only
  rw [State.crnEvent_images, State.record_images]
  rfl

theorem State.reloadCores_images (s : State) : s.reloadCores.images = s.images := by
  have h : Only [.evc, .groups, .spur] s s.reloadCores := by apply State.reloadCores_only (Only.refl s) <;> decide
  exact State.images_of_cairn (h.2 .cairn (by decide))

theorem State.safePoint_images (s : State) (c : Fin 7) (why : Nat) : (s.safePoint c why).images = s.images := by
  unfold State.safePoint
  split
  · exact State.restartService_images _ _
  · split
    · exact State.reloadCores_images s
    · rfl

theorem State.safePoint_dev (s : State) (c : Fin 7) (why : Nat) : (s.safePoint c why).dev = s.dev := by
  have h : Only [.cairn, .evc, .groups, .intake, .regs .fn, .spur] s (s.safePoint c why) := by apply State.safePoint_only (Only.refl s) <;> decide
  exact h.2 .dev (by decide)

/-- A component that is confirmed (R467). -/
def Comp.confirmed (x : Comp) : Comp := { x with trial := false, runs := false, spoiled := false }

theorem State.confirm_images (s : State) (c : Fin 7) : (s.confirm c).images = (s.setComp c (s.comp c).confirmed).images := by
  unfold State.confirm
  dsimp only
  split
  · rfl
  · split
    · rw [State.record_images]
      rfl
    · rfl

theorem State.confirm_dev (s : State) (c : Fin 7) : (s.confirm c).dev = s.dev := by
  have h : Only [.cairn, .intake, .otp] s (s.confirm c) := by apply State.confirm_only (Only.refl s) <;> decide
  exact h.2 .dev (by decide)

/-- A component whose slot b has become active, in trial where it is firmware (R466). -/
def Comp.activated (x : Comp) (c : Fin 7) (b : Bool) : Comp :=
  { x with activeB := b, trial := decide (c.val < 3), runs := c == 1 || c == 2, spoiled := false }

/-- The slot is active; no other slot, holder or activation changes, and the device stays as READY as it was (R466). -/
theorem State.activated_leaves (s : State) (dom : BitVec 5) (c : Fin 7) (b : Bool) :
    (s.activated dom c b).images = (s.setComp c ((s.comp c).activated c b)).images ∧ (s.activated dom c b).dev.ready = s.dev.ready := by
  let y : Comp := { s.comp c with activeB := b, trial := true, runs := c == 1 || c == 2, spoiled := false }
  let w := (s.setComp c y).record dom 2 false 0x0D 0x01 (BitVec.ofNat 32 (compCode c.val))
    (BitVec.ofNat 32 (b2n b + 256 * ((slotSvn c.val ((s.comp c).slot b)).toNat % 2 ^ 24)))
  have himages : w.images = (s.setComp c y).images := State.record_images _ _ _ _ _ _ _ _
  have hdev : w.dev = s.dev := (State.record_dev _ _ _ _ _ _ _ _).trans (s.setComp_frame c y).2.1
  by_cases hc : c.val < 3
  · have hy : y = (s.comp c).activated c b := by rw [Comp.activated, decide_eq_true hc]
    let z := if c = 1 then w.clearAbsent 0 else if c = 2 then w.clearAbsent 1 else w
    have hz : z.images = w.images ∧ z.dev.ready = w.dev.ready := by
      unfold z
      split
      · exact ⟨rfl, rfl⟩
      · split
        · exact ⟨rfl, rfl⟩
        · exact ⟨rfl, rfl⟩
    have he : s.activated dom c b = z.safePoint c 1 := if_pos hc
    rw [he, ← hy, State.safePoint_images, State.safePoint_dev, hz.1, hz.2, hdev]
    exact ⟨himages, rfl⟩
  · let i : Fin 4 := fin 4 (c.val - 3)
    let v : State := { w with spur := { w.spur with images := w.spur.images.set i { imageOf ((s.comp c).slot b) with gen := (w.spur.images[i]).gen + 1 } } }
    let z := if i = 0 then v.clearAbsent 2 else v
    have hz : z.images = w.images ∧ z.dev.ready = w.dev.ready := by
      unfold z
      split
      · exact ⟨rfl, rfl⟩
      · exact ⟨rfl, rfl⟩
    have he : s.activated dom c b = z.confirm c := if_neg hc
    have hzy : z.images = (s.setComp c y).images := hz.1.trans himages
    have hnot : (c == 1 || c == 2) = false := by
      rw [Bool.or_eq_false_iff, beq_eq_false_iff_ne, beq_eq_false_iff_ne]
      exact ⟨fun e => hc (by rw [e]; decide), fun e => hc (by rw [e]; decide)⟩
    have hy : y.confirmed = (s.comp c).activated c b := by
      unfold Comp.activated
      rw [decide_eq_false hc, hnot]
      rfl
    refine ⟨?_, by rw [he, State.confirm_dev, hz.2, hdev]⟩
    rw [he, State.confirm_images, State.comp_of_images hzy, State.comp_setComp_same, hy, State.setComp_of_images hzy, State.setComp_twice]

end images

/-! ### The idle step as far as images see it (log 2, log 33) -/

section idling
variable {s : State}

/-- The device at its next whole microsecond, before an activation ends. -/
def State.idled (s : State) : State := (s.advance s.nextUs).wiresEnd.turnTests.endBusy

theorem State.beginTest_images (s : State) (t : SelfTest) : (s.beginTest t).images = s.images := by
  have hswap : ∀ (v : State) (p : PortId) (i : Fin 4), (v.swapChoose p i).images = v.images := fun v p i => by
    have h : Only [.regs .dev, .spur] v (v.swapChoose p i) := by apply State.swapChoose_only (Only.refl v) <;> decide
    exact State.images_of_cairn (h.2 .cairn (by decide))
  unfold State.beginTest
  dsimp only
  split
  · split
    · rfl
    · rfl
  · split
    · split
      · split
        · exact hswap _ _ _
        · rfl
      · rfl
    · split
      · rfl
      · rfl

theorem State.nextTest_images (fuel : Nat) (s : State) : (s.nextTest fuel).images = s.images := by
  induction fuel generalizing s with
  | zero => rfl
  | succ fuel ih =>
    rw [State.nextTest]
    split
    · rfl
    · split
      · rfl
      · dsimp only
        split
        · rw [ih, State.complete_images]
          rfl
        · rw [State.beginTest_images]
          rfl

theorem State.turnTests_images (s : State) : s.turnTests.images = s.images := State.nextTest_images _ s

theorem State.endBusy_images (s : State) : s.endBusy.images = s.images := rfl

theorem State.advance_wiresEnd_only (s : State) :
    Only [.counts, .free, .funcs, .halves, .links, .objs, .out, .ports, .regs .fn, .rings, .tmu] s (s.advance s.nextUs).wiresEnd := by
  apply State.wiresEnd_only
  · apply State.advance_only (Only.refl s) <;> decide
  all_goals decide

theorem State.idled_images (s : State) : s.idled.images = s.images := by
  have h := State.images_of_cairn (s.advance_wiresEnd_only.2 .cairn (by decide))
  rw [State.idled, State.endBusy_images, State.turnTests_images, h]

theorem State.idled_only (s : State) :
    Only [.cairn, .counts, .free, .funcs, .halves, .links, .objs, .out, .ports, .regs .dev, .regs .fn, .rings, .spur, .tmu] s s.idled := by
  apply State.endBusy_only
  · apply State.turnTests_only
    · apply State.wiresEnd_only
      · apply State.advance_only (Only.refl s) <;> decide
      all_goals decide
    all_goals decide
  · decide

theorem State.idled_dev (s : State) : s.idled.dev = s.dev := s.idled_only.2 .dev (by decide)

theorem State.idled_otp (s : State) : s.idled.belay.otp = s.belay.otp := s.idled_only.2 .otp (by decide)

theorem State.idled_keeps (s : State) : Keeps false s s.idled :=
  State.endBusy_keeps (State.turnTests_keeps (State.wiresEnd_keeps (State.advance_keeps (Keeps.refl s))))

/-- u is the device at its next whole microsecond, from which it goes on once it is READY. -/
structure Idled (s u : State) : Prop where
  images : u.images = s.images
  dev : u.dev = s.dev
  otp : u.belay.otp = s.belay.otp
  keeps : Keeps false s u
  step : u.endActivation.dev.ready = true → step s = finish u.endActivation.scan

/-- On an empty queue a device that is READY ends its activation. -/
theorem State.idled_leaves (hpending : s.pending = []) : Idled s s.idled where
  images := s.idled_images
  dev := s.idled_dev
  otp := s.idled_otp
  keeps := s.idled_keeps
  step hready := by
    have hboot : s.idled.endActivation.bootStep = s.idled.endActivation := if_pos hready
    have hidle : step s = idle s := by
      unfold step
      rw [hpending]
    rw [hidle, ← congrArg State.scan hboot]
    rfl

/-- The completion of the command that began an activation. -/
def State.answerOp (s : State) (o : Option Op) (status : Byte) : State :=
  match o with
  | some o => s.complete o status
  | none => s

theorem State.answerOp_leaves (s : State) (o : Option Op) (status : Byte) : (s.answerOp o status).cairn = s.cairn ∧ (s.answerOp o status).regs = s.regs ∧
    (s.answerOp o status).belay = s.belay ∧ (s.answerOp o status).dev = s.dev := by
  cases o with
  | none => exact ⟨rfl, rfl, rfl, rfl⟩
  | some o =>
    obtain ⟨l, r, c, h, he⟩ := s.complete_eq o status 0 0 none 0xFF
    rw [State.answerOp, he]
    exact ⟨rfl, rfl, rfl, rfl⟩

theorem SameCq.crnEvent {v : State} {d : Dom} {n : RingNo} (g : SameCq s v d n) (i : Nat) : SameCq s (v.crnEvent i) d n := by
  refine ⟨fun j => ?_, ?_, ?_, ?_, ?_⟩
  · rw [← g.regs j]
    exact v.crnEvent_reg i nofun
  · rw [State.crnEvent_belay, g.belay]
  · rw [State.crnEvent_dev, g.dev]
  · rw [State.crnEvent_eq]
    exact g.func
  · rw [State.crnEvent_eq]
    exact g.ring

theorem SameCq.record {v : State} {d : Dom} {n : RingNo} (g : SameCq s v d n) {dom : BitVec 5} {sev : BitVec 3} {sens : Bool} {src code : Byte} {a0 a1 : Word} :
    SameCq s (v.record dom sev sens src code a0 a1) d n :=
  g.of_eq (State.record_regs _ _ _ _ _ _ _ _) (by rw [State.record_belay]) (State.record_dev _ _ _ _ _ _ _ _) (by rw [State.func, State.record_funcs, State.func])
    (State.record_rings _ _ _ _ _ _ _ _)

/-- What the idle step leaves where it ends an activation with event bit 9 and an answer. -/
structure ActivationEnded (w t : State) : Prop where
  cairn : t.cairn = w.cairn.noted 9
  event : t.rb (.fn 0 .crnEvt) 9 = true
  otp : t.belay.otp = w.belay.otp

theorem ActivationEnded.images {w t : State} (h : ActivationEnded w t) : t.images = w.images := by rw [State.images, h.cairn]; rfl

theorem State.activationEnded (w : State) (o : Option Op) (status : Byte) : ActivationEnded w (((w.crnEvent 9).answerOp o status).scan).noteMay.announce := by
  obtain ⟨hcairn, hregs, hbelay, -⟩ := (w.crnEvent 9).answerOp_leaves o status
  have hscan : Only [.dev, .free] ((w.crnEvent 9).answerOp o status) ((w.crnEvent 9).answerOp o status).scan := by
    apply State.scan_only (Only.refl _) <;> decide
  refine ⟨?_, ?_, ?_⟩
  · rw [State.cairn_ended, hscan.2 .cairn (by decide), hcairn, State.crnEvent_cairn]
  · rw [State.rb, State.plainReg_ended _ (.fn 0 .crnEvt) nofun, hscan.2 (.regs .fn) (by decide) (.fn 0 .crnEvt) rfl, State.reg, hregs]
    exact w.crnEvent_rb (by decide)
  · rw [State.belay_ended, show Belay.otp _ = _ from hscan.2 .otp (by decide), hbelay, State.crnEvent_belay]

/-- The state in which an activation is over and its holding ends (R463). -/
def State.released (s : State) (a : Activating) : State :=
  s.setCairn { s.cairn with activating := none, holder := if s.cairn.holder = a.who then .none_ else s.cairn.holder }

theorem State.released_images (s : State) (a : Activating) :
    (s.released a).images = (s.cairn.comps, if s.cairn.holder = a.who then .none_ else s.cairn.holder, none) := rfl

/-- The slot in place becomes active as the activation ends (R465, R466). -/
theorem idle_activates {u : State} {a : Activating} (hu : Idled s u) (hready : s.dev.ready = true) (ha : u.cairn.activating = some a) (hgood : a.reason = 0)
    (hplace : a.inPlace = true) :
    ∃ t, step s = .next t ∧ t.cairn.activating = none ∧ (t.comp a.comp).activeB = a.slotB ∧ (t.comp a.comp).a = (s.comp a.comp).a ∧
      (t.comp a.comp).b = (s.comp a.comp).b ∧ (t.comp a.comp).trial = decide (a.comp.val < 3) ∧ (∀ i, i ≠ a.comp → t.comp i = s.comp i) ∧
      t.rb (.fn 0 .crnEvt) 9 = true ∧ (t.cairn.holder = .none_ ∨ t.cairn.holder = s.cairn.holder) := by
  let v := u.released a
  let y := (v.comp a.comp).activated a.comp a.slotB
  obtain ⟨himages, hup⟩ := v.activated_leaves a.dom a.comp a.slotB
  let w : State := { v.activated a.dom a.comp a.slotB with dev := { (v.activated a.dom a.comp a.slotB).dev with reboot := (v.activated a.dom a.comp a.slotB).dev.recovery } }
  have hend : u.endActivation = (w.crnEvent 9).answerOp a.op 0x00 := by
    unfold State.endActivation
    rw [ha]
    dsimp only
    rw [hgood, if_pos rfl, hplace, if_pos rfl]
    rfl
  have hstep := hu.step (by
    obtain ⟨-, -, -, hdev⟩ := (w.crnEvent 9).answerOp_leaves a.op 0x00
    rw [hend, hdev, State.crnEvent_dev]
    exact hup.trans ((congrArg Dev.ready hu.dev).trans hready))
  rw [hend] at hstep
  have ht := w.activationEnded a.op 0x00
  have hcomps := ht.images.trans himages
  have hcomp : ∀ i, v.comp i = s.comp i := fun i => State.comp_of_images hu.images i
  have hsame := State.comp_of_images hcomps a.comp
  rw [State.comp_setComp_same] at hsame
  refine ⟨_, hstep, ?_, ?_, ?_, ?_, ?_, fun i hi => ?_, ht.event, ?_⟩
  · rw [State.activating_of_images hcomps, show State.cairn _ = _ from rfl]
    exact congrArg (fun e => e.2.2) (v.setComp_images a.comp y)
  · rw [hsame]
    rfl
  · rw [hsame, ← hcomp]
    rfl
  · rw [hsame, ← hcomp]
    rfl
  · rw [hsame]
    rfl
  · rw [State.comp_of_images hcomps, State.comp_setComp_other _ _ hi, hcomp]
  · rw [State.holder_of_images hcomps, show Cairn.holder _ = _ from congrArg (fun e => e.2.1) (v.setComp_images a.comp y), ← State.holder_of_images hu.images]
    change (if u.cairn.holder = a.who then Holder.none_ else u.cairn.holder) = _ ∨ (if u.cairn.holder = a.who then Holder.none_ else u.cairn.holder) = _
    split
    · exact .inl rfl
    · exact .inr rfl

/-- An activation with another REASON ends without a change of the slots, and its command completes BAD_DESC (R465). -/
theorem idle_refuses {u : State} {a : Activating} {o : Op} (hu : Idled s u) (hready : s.dev.ready = true) (ha : u.cairn.activating = some a)
    (hbad : a.reason ≠ 0) (hop : a.op = some o) (hcq : CanComplete u o) :
    ∃ t, step s = .next t ∧ t.cairn.activating = none ∧ t.cairn.imgReason = a.reason ∧ t.cairn.comps = s.cairn.comps ∧ t.belay.otp = s.belay.otp ∧
      t.rb (.fn 0 .crnEvt) 9 = true ∧
      ∃ e : CqEntry, Sends s t (u.entryOut o.dom (u.cqOf o.dom o.num) e) ∧ e.tag = o.tag ∧ e.num = o.num ∧ e.status = 0x32 := by
  let c : Cairn := { (u.released a).cairn with imgReason := a.reason }
  let w := ((u.released a).setCairn c).record a.dom 3 false 0x0D 0x02 (BitVec.ofNat 32 (compCode a.comp.val)) (a.reason.setWidth 32)
  have hend : u.endActivation = (w.crnEvent 9).answerOp (some o) 0x32 := by
    unfold State.endActivation
    rw [ha]
    dsimp only
    rw [hop, if_neg hbad, if_neg hbad]
    rfl
  have hdev : w.dev = s.dev := (State.record_dev _ _ _ _ _ _ _ _).trans hu.dev
  have hstep := hu.step (by
    obtain ⟨-, -, -, hd⟩ := (w.crnEvent 9).answerOp_leaves (some o) 0x32
    rw [hend, hd, State.crnEvent_dev, hdev]
    exact hready)
  rw [hend] at hstep
  have ht := w.activationEnded (some o) 0x32
  have hcairn : w.cairn = c := State.record_cairn _ _ _ _ _ _ _ _
  have hkeeps : Keeps false s (w.crnEvent 9) := State.crnEvent_keeps (State.record_keeps (State.setCairn_keeps (State.setCairn_keeps hu.keeps)))
  have hsame : SameCq u (w.crnEvent 9) o.dom o.num := by
    have hself : SameCq u u o.dom o.num := ⟨fun _ => rfl, rfl, rfl, rfl, rfl⟩
    have hset : SameCq u ((u.released a).setCairn c) o.dom o.num := hself.of_eq rfl rfl rfl rfl rfl
    exact hset.record.crnEvent 9
  have hsends := ((hcq.of_sameCq hsame).sends 0x32 0 0 none 0xFF).of_mid hkeeps
  rw [hsame.entryOut] at hsends
  refine ⟨_, hstep, ?_, ?_, ?_, ?_, ht.event, _, hsends.later ?_, rfl, rfl, rfl⟩
  · rw [ht.cairn, hcairn]
    rfl
  · rw [ht.cairn, hcairn]
    rfl
  · rw [ht.cairn, hcairn]
    exact (congrArg Prod.fst (u.released_images a)).trans (State.comps_of_images hu.images)
  · rw [ht.otp, show w.belay = u.belay from State.record_belay _ _ _ _ _ _ _ _, hu.otp]
  · exact State.announce_keeps (State.noteMay_keeps (State.scan_keeps (Keeps.refl _)))

end idling

/-! ### IMG_WRITE and IMG_ACTIVATE (R463, R465) -/

section commands
variable {s : State} {n : RingNo} {x : Desc} {bytes : List Byte} {programmed : Bool}

/-- IMG_WRITE writes whole blocks within the staging area, from host memory that may be read (R463). -/
structure ImageWrite (s : State) (x : Desc) (bytes : List Byte) : Prop where
  reserved : reservedZero x [(4, 0, 32), (8, 0, 32), fAddr] = true
  whole : dnum x 8 4 % 256 = 0
  short : dnum x 8 4 ≤ 0x10000
  aligned : dnum x 4 4 % 256 = 0
  fits : dnum x 4 4 + dnum x 8 4 ≤ stagingSize
  length : bytes.length = dnum x 8 4
  window : s.inWindow 0 (daddr x).toNat (dnum x 8 4) true false = true
  holder : s.cairn.holder = .owner ∨ (dnum x 4 4 = 0 ∧ s.cairn.holder = .none_)

/-- Cairn after IMG_WRITE (R463). -/
def State.imgWritten (s : State) (x : Desc) (bytes : List Byte) (programmed : Bool) : Cairn :=
  s.cairn.staged .owner (dnum x 4 4) bytes programmed s.raw

theorem State.imgWriteOp_fetched (h : ImageWrite s x bytes) :
    (s.fetch 0 n).imgWriteOp x bytes programmed (s.opOf 0 n x) =
      ((s.fetch 0 n).setCairn (s.imgWritten x bytes programmed)).complete (s.opOf 0 n x) (if programmed then 0x00 else 0x32) := by
  have hcairn := s.cairn_fetch 0 n
  have hraw : (s.fetch 0 n).raw = s.raw := congrArg Tmu.raw (s.fetch_tmu 0 n true)
  have hwin : (s.fetch 0 n).inWindow 0 (daddr x).toNat (dnum x 8 4) true false = true := by rw [State.inWindow_fetch]; exact h.window
  have hwrite : (s.fetch 0 n).stageWrite .owner (dnum x 4 4) bytes programmed = some ((s.fetch 0 n).setCairn (s.imgWritten x bytes programmed)) := by
    rw [State.stageWrite_takes (by rw [hcairn]; exact h.holder), hcairn, hraw]
    rfl
  have hshape : (!reservedZero x [(4, 0, 32), (8, 0, 32), fAddr] || dnum x 8 4 % 256 != 0 || decide (0x10000 < dnum x 8 4) || dnum x 4 4 % 256 != 0 ||
      decide (stagingSize < dnum x 4 4 + dnum x 8 4)) = false := by
    rw [h.reserved, h.whole, h.aligned, decide_eq_false (not_lt.2 h.short), decide_eq_false (not_lt.2 h.fits)]
    rfl
  unfold State.imgWriteOp
  dsimp only
  rw [hshape, if_neg Bool.false_ne_true, show (s.opOf 0 n x).dom = 0 from rfl, if_neg (not_not.2 rfl), hwin, if_neg (by decide), hwrite]

theorem CmdReady.imgWrite (h : CmdReady s 0 n x) (hlength : bytes.length = dnum x 8 4) (programmed : Bool) :
    exec (.imgWrite 0 n x bytes programmed) s = finish (s.command 0 n x (fun s op => s.imgWriteOp x bytes programmed op) true) :=
  (if_neg (by rw [h.on]; decide)).trans (if_neg fun hbad => hbad.2 hlength)

/-- IMG_WRITE that the flash takes stores its blocks and completes DONE. -/
theorem imgWrite_stores (h : CmdReady s 0 n x) (hw : ImageWrite s x bytes) :
    Does (.imgWrite 0 n x bytes true) s fun t => Answered s t 0 n x 0x00 0 ∧ t.cairn.holder = .owner ∧
      (∀ i, i < dnum x 8 4 / 256 → Tbl.get [] t.cairn.staging (dnum x 4 4 / 256 + i) = (bytes.drop (256 * i)).take 256) ∧
      SameRegs s t ∧ t.ports = s.ports ∧ t.cairn.comps = s.cairn.comps := by
  refine RingReady.does_cairn h (f := fun s op => s.imgWriteOp x bytes true op) (h.imgWrite hw.length true) (State.imgWriteOp_fetched hw)
    (State.setCairn_keeps (s.fetch_keeps' 0 n true)) ((SameCq.fetch h).of_eq rfl rfl rfl rfl rfl) fun t ht hcairn => ?_
  have hstaged : t.cairn = s.imgWritten x bytes true := hcairn
  refine ⟨ht.answered, ?_, fun i hi => ?_, ht.sameRegs (s.fetch_regs 0 n true), ht.ports.trans (s.fetch_ports 0 n true), ?_⟩
  · rw [hstaged]
    exact Cairn.staged_holder _ _ hw.holder
  · rw [hstaged]
    exact Cairn.staged_block _ _ _ _ (by rw [hw.length]; exact hw.whole) (by rw [hw.length]; exact hi)
  · rw [hstaged]
    exact Cairn.staged_comps _ _ _ _ _ _

/-- IMG_WRITE that the flash does not take completes BAD_DESC with REASON 8. -/
theorem imgWrite_fails (h : CmdReady s 0 n x) (hw : ImageWrite s x bytes) :
    Does (.imgWrite 0 n x bytes false) s fun t => Answered s t 0 n x 0x32 0 ∧ t.cairn.imgReason = 8 ∧ t.cairn.comps = s.cairn.comps := by
  refine RingReady.does_cairn h (f := fun s op => s.imgWriteOp x bytes false op) (h.imgWrite hw.length false) (State.imgWriteOp_fetched hw)
    (State.setCairn_keeps (s.fetch_keeps' 0 n true)) ((SameCq.fetch h).of_eq rfl rfl rfl rfl rfl) fun t ht hcairn => ?_
  have hstaged : t.cairn = s.imgWritten x bytes false := hcairn
  exact ⟨ht.answered, by rw [hstaged]; rfl, by rw [hstaged]; exact Cairn.staged_comps _ _ _ _ _ _⟩

theorem CmdReady.imgActivate (h : CmdReady s 0 n x) (programmed : Bool) :
    exec (.imgActivate 0 n x programmed) s = finish (s.command 0 n x (fun s op => s.imgActivateOp x programmed op) true) := if_pos h.on

/-- IMG_ACTIVATE of a component and a slot that exist, by D0 outside the recovery path: BUSY, or an activation begins (R465). -/
theorem State.imgActivateOp_fetched {c : Fin 7} (h : CmdReady s 0 n x) (hres : reservedZero x [(4, 0, 16), (6, 0, 8)] = true) (hcomp : compIx (dnum x 4 2) = some c)
    (hslot : slotOk (dnum x 6 1) = true) :
    (s.fetch 0 n).imgActivateOp x programmed (s.opOf 0 n x) =
      if s.cairn.activating.isSome || s.slotBusy c (dnum x 6 1) then (s.fetch 0 n).complete (s.opOf 0 n x) 0x33
      else (s.fetch 0 n).beginActivation (domCode 0) .owner c (dnum x 6 1) programmed (some (s.opOf 0 n x)) := by
  have hpath : (s.fetch 0 n).dev.recovery = false := by rw [s.fetch_dev]; exact h.path
  have hbusy : (s.fetch 0 n).slotBusy c (dnum x 6 1) = s.slotBusy c (dnum x 6 1) := s.fetch_reads 0 n true (·.slotBusy c (dnum x 6 1)) fun _ _ => rfl
  unfold State.imgActivateOp
  dsimp only
  rw [hcomp]
  dsimp only
  rw [hres, hslot, if_neg (by decide), show (s.opOf 0 n x).dom = 0 from rfl, if_neg (not_not.2 rfl), hpath, Bool.false_and, if_neg Bool.false_ne_true, hbusy, s.cairn_fetch]

theorem State.beginActivation_inPlace {dom : BitVec 5} {who : Holder} {c : Fin 7} {slot : Nat} {o : Option Op} (hplace : decide (128 ≤ slot) = true) :
    s.beginActivation dom who c slot programmed o = s.setCairn { s.cairn with
      imgComponent := BitVec.ofNat 16 (compCode c.val),
      activating := some {
        who := who, dom := dom, comp := c, slotB := slot % 2 == 1, inPlace := true, reason := s.inPlaceReason c ((s.comp c).slot (slot % 2 == 1)) programmed,
        image := {}, op := o } } := by
  unfold State.beginActivation
  dsimp only
  rw [hplace]
  rfl

/-- IMG_ACTIVATE of a slot in place begins an activation, and changes no slot (R465). -/
theorem imgActivate_begins {c : Fin 7} (h : CmdReady s 0 n x) (hres : reservedZero x [(4, 0, 16), (6, 0, 8)] = true) (hcomp : compIx (dnum x 4 2) = some c)
    (hslot : dnum x 6 1 = 0x80 ∨ dnum x 6 1 = 0x81) (hfree : s.cairn.activating = none) :
    Does (.imgActivate 0 n x true) s fun t => (∃ a, t.cairn.activating = some a ∧ a.comp = c ∧ a.slotB = (dnum x 6 1 % 2 == 1) ∧ a.inPlace = true ∧
        a.op = some (s.opOf 0 n x) ∧ a.reason = s.inPlaceReason c ((s.comp c).slot (dnum x 6 1 % 2 == 1)) true) ∧
      t.cairn.comps = s.cairn.comps ∧ t.cairn.holder = s.cairn.holder ∧ t.belay.otp = s.belay.otp ∧ t.ports = s.ports ∧ SameRegs s t := by
  let b := dnum x 6 1 % 2 == 1
  let a : Activating := {
    who := .owner, dom := domCode 0, comp := c, slotB := b, inPlace := true, reason := s.inPlaceReason c ((s.comp c).slot b) true, image := {},
    op := some (s.opOf 0 n x) }
  let u := (s.fetch 0 n).setCairn { s.cairn with imgComponent := BitVec.ofNat 16 (compCode c.val), activating := some a }
  have hok : slotOk (dnum x 6 1) = true := by rcases hslot with e | e <;> rw [e] <;> rfl
  have hplace : decide (128 ≤ dnum x 6 1) = true := by rcases hslot with e | e <;> rw [e] <;> rfl
  have hbusy : (s.cairn.activating.isSome || s.slotBusy c (dnum x 6 1)) = false := by
    rw [hfree, State.slotBusy, decide_eq_false (not_lt.2 (of_decide_eq_true hplace))]
    rfl
  have hreason : (s.fetch 0 n).inPlaceReason c (((s.fetch 0 n).comp c).slot b) true = s.inPlaceReason c ((s.comp c).slot b) true :=
    s.fetch_reads 0 n true (fun u => u.inPlaceReason c ((u.comp c).slot b) true) fun _ _ => rfl
  have hbegin : (s.fetch 0 n).beginActivation (domCode 0) .owner c (dnum x 6 1) true (some (s.opOf 0 n x)) = u := by
    rw [State.beginActivation_inPlace hplace, hreason, s.cairn_fetch]
  have he : exec (.imgActivate 0 n x true) s = finish u := by
    rw [h.imgActivate, RingReady.command_eq h, State.imgActivateOp_fetched h hres hcomp hok, hbusy, if_neg Bool.false_ne_true, hbegin]
  refine .of_finish he ⟨⟨a, by rw [State.cairn_ended]; rfl, rfl, rfl, rfl, rfl, rfl⟩, by rw [State.cairn_ended]; rfl, by rw [State.cairn_ended]; rfl, ?_, ?_,
    .of_regs (s.fetch_regs 0 n true)⟩
  · rw [State.belay_ended]
    exact congrArg Belay.otp (s.fetch_belay 0 n true)
  · rw [State.announce_ports, State.noteMay_ports]
    exact s.fetch_ports 0 n true

/-- While an activation runs, another completes BUSY (R465). -/
theorem imgActivate_busy {c : Fin 7} (h : CmdReady s 0 n x) (hres : reservedZero x [(4, 0, 16), (6, 0, 8)] = true) (hcomp : compIx (dnum x 4 2) = some c)
    (hslot : slotOk (dnum x 6 1) = true) (hruns : s.cairn.activating.isSome = true) :
    Does (.imgActivate 0 n x programmed) s fun t => Answered s t 0 n x 0x33 0 ∧ t.cairn = s.cairn ∧ SameRegs s t := by
  have hf : (s.fetch 0 n).imgActivateOp x programmed (s.opOf 0 n x) = (s.fetch 0 n).complete (s.opOf 0 n x) 0x33 := by
    rw [State.imgActivateOp_fetched h hres hcomp hslot, hruns, Bool.true_or, if_pos rfl]
  exact RingReady.does_cairn h (f := fun s op => s.imgActivateOp x programmed op) (h.imgActivate programmed) hf (s.fetch_keeps' 0 n true) (SameCq.fetch h)
    fun t ht hcairn => ⟨ht.answered, hcairn.trans (s.cairn_fetch 0 n), ht.sameRegs (s.fetch_regs 0 n true)⟩

end commands

/-- Settles O28: a write is one change of the staging area, an activation begins with its REASON, and the idle step ends it. -/
theorem imageCommands : Obligations.ImageCommands := by
  unfold Obligations.ImageCommands
  refine ⟨fun _ _ _ _ h hres hwhole hshort haligned hfits hlength hwindow hholder =>
      imgWrite_stores h ⟨hres, hwhole, hshort, haligned, hfits, hlength, hwindow, hholder⟩,
    fun _ _ _ _ h hres hwhole hshort haligned hfits hlength hwindow hholder =>
      imgWrite_fails h ⟨hres, hwhole, hshort, haligned, hfits, hlength, hwindow, .inl hholder⟩,
    fun _ _ _ _ h hres hcomp hslot hfree => imgActivate_begins h hres hcomp hslot hfree,
    fun _ _ _ _ _ h hres hcomp hslot hruns => imgActivate_busy h hres hcomp hslot hruns, ?_, ?_⟩
  · rintro s u a hpending hready rfl ha hgood hplace
    exact idle_activates (s.idled_leaves hpending) hready ha hgood hplace
  · rintro s u a o hpending hready rfl ha hbad hop hepoch hmute hpath hon hwait hroom
    exact idle_refuses (s.idled_leaves hpending) hready ha hbad hop ⟨hepoch, hmute, hpath, hon, hwait, hroom⟩

end Sys2Proof.Machine

namespace Sys2Proof.Machine

/-! ### The end of a holding, confirmation and reversion (R463, R466, R467) -/

section updates
variable {s u : State} {c : Fin 7}

theorem stagingHolderTimeout_frees (hheld : s.cairn.holder ≠ .none_) (hidle : s.cairn.activating = none) (hu : u = s.waitFrom s.cairn.stagedAt (sec 300)) :
    Does .stagingHolderTimeout s fun t => t.cairn = { s.cairn with holder := .none_ } ∧ SameRegs u t ∧ t.raw = u.raw := by
  subst hu
  let u := s.waitFrom s.cairn.stagedAt (sec 300)
  have hruns : ¬(s.cairn.holder = .none_ ∨ s.cairn.activating.any (fun a => a.who == s.cairn.holder) = true) :=
    not_or.2 ⟨hheld, by rw [hidle]; exact Bool.false_ne_true⟩
  have he : exec .stagingHolderTimeout s = finish (u.setCairn { u.cairn with holder := .none_ }) := if_neg hruns
  refine .of_finish he ⟨?_, .of_regs rfl, ?_⟩
  · rw [State.cairn_ended, show u.cairn = s.cairn from State.waitFrom_cairn _ _ _]
    rfl
  · rw [State.announce_raw, State.noteMay_raw]
    rfl

/-- A confirmation raises the counter of the active slot to its FLOOR, and no other (R467). -/
theorem State.confirm_rollback {i : Fin 7} (hi : counterIx c (s.comp c).active.family.toNat = some i) :
    (s.confirm c).belay.otp.rollback = s.belay.otp.rollback.set i (max s.belay.otp.rollback[i] (min 63 (s.comp c).active.floor)) := by
  have hconfirm : (s.confirm c).belay.otp.rollback =
      if s.belay.otp.rollback[i] < min 63 (s.comp c).active.floor then s.belay.otp.rollback.set i (min 63 (s.comp c).active.floor) else s.belay.otp.rollback := by
    unfold State.confirm
    dsimp only
    rw [hi]
    dsimp only
    rw [State.setComp_belay]
    split
    · rw [State.record_belay]
      rfl
    · rw [State.setComp_belay]
  rw [hconfirm]
  split
  next hlow => rw [max_eq_right hlow.le]
  next hhigh => rw [max_eq_left (not_lt.1 hhigh), show s.belay.otp.rollback.set i s.belay.otp.rollback[i] = _ from Vector.set_getElem_self i.isLt]

theorem State.confirm_regs (s : State) (c : Fin 7) : (s.confirm c).regs = s.regs := by
  obtain ⟨hregs, -⟩ := s.setComp_frame c (s.comp c).confirmed
  unfold State.confirm
  dsimp only
  split
  · exact hregs
  · split
    · rw [State.record_regs]
      exact hregs
    · exact hregs

/-- A component that has run for 10 s is confirmed (R466, R467). -/
theorem imgConfirm_confirms {i : Fin 7} (hready : s.confirmable c = true) (hu : u = s.waitFrom (s.runsSince c) (sec 10))
    (hi : counterIx c (s.comp c).active.family.toNat = some i) :
    Does (.imgConfirm c) s fun t => (t.comp c).trial = false ∧ (t.comp c).activeB = (s.comp c).activeB ∧
      (t.belay.otp.rollback[i] = max s.belay.otp.rollback[i] (min 63 (s.comp c).active.floor)) ∧ (∀ j : Fin 7, j ≠ i → t.belay.otp.rollback[j] = s.belay.otp.rollback[j]) ∧
      (∀ b, b ≠ c → t.comp b = s.comp b) ∧ SameRegs u t := by
  have hcairn : u.cairn = s.cairn := by rw [hu, State.waitFrom_cairn]
  have hbelay : u.belay = s.belay := by rw [hu]; exact s.advance_belay _
  have hcomp : ∀ b, u.comp b = s.comp b := fun b => by rw [State.comp, hcairn, State.comp]
  have he : exec (.imgConfirm c) s = finish (u.confirm c) := by
    rw [hu]
    exact if_pos hready
  have himages := (State.images_ended (u.confirm c)).trans (u.confirm_images c)
  have hrollback := State.confirm_rollback (s := u) (by rw [hcomp]; exact hi)
  rw [hbelay, hcomp, ← State.belay_ended] at hrollback
  refine .of_finish he ⟨?_, ?_, ?_, fun j hj => ?_, fun b hb => ?_, .of_regs (u.confirm_regs c)⟩
  · rw [State.comp_of_images himages, State.comp_setComp_same]
    rfl
  · rw [State.comp_of_images himages, State.comp_setComp_same, hcomp]
    rfl
  · exact (congrArg (fun v => v[i]) hrollback).trans (Vector.getElem_set_self i.isLt)
  · exact (congrArg (fun v => v[j]) hrollback).trans (Vector.getElem_set_ne i.isLt j.isLt fun e => hj (Fin.ext e.symm))
  · rw [State.comp_of_images himages, State.comp_setComp_other _ _ hb, hcomp]

/-- A component whose other slot has taken over (R467). -/
def Comp.swapped (x : Comp) : Comp := { x with activeB := !x.activeB, trial := false, runs := false, spoiled := false }

/-- The other slot becomes active: its event bit, its record, and the slots; nothing else (R467). -/
theorem State.makeOther_eq (s : State) (c : Fin 7) : ∃ v : State, s.makeOther c = v.crnEvent 10 ∧ v.images = (s.setComp c (s.comp c).swapped).images ∧
    v.regs = s.regs ∧ v.belay = s.belay ∧ v.spur = s.spur ∧ v.ports = s.ports := by
  obtain ⟨hregs, -, hspur, hports, -⟩ := s.setComp_frame c (s.comp c).swapped
  refine ⟨(s.setComp c (s.comp c).swapped).record devCode 4 false 0x0D 0x03 (BitVec.ofNat 32 (compCode c.val)) (BitVec.ofNat 32 (b2n (!(s.comp c).activeB))), rfl,
    State.record_images _ _ _ _ _ _ _ _, ?_, ?_, ?_, ?_⟩
  · rw [State.record_regs, hregs]
  · rw [State.record_belay, State.setComp_belay]
  · rw [State.record_spur, hspur]
  · rw [State.record_ports, hports]

theorem execImgRevert_reverts (htrial : (s.comp c).trial = true) (hruns : (s.comp c).runs = true) (hother : s.otherOk c = true) :
    exec (.imgRevert c) s = finish ((s.makeOther c).safePoint c 2) := if_pos (by rw [htrial, hruns, hother]; rfl)

/-- A component that has no safe point of its own reverts, and nothing else changes. -/
theorem imgRevert_reverts (htrial : (s.comp c).trial = true) (hruns : (s.comp c).runs = true) (hother : s.otherOk c = true) (hservice : c ≠ 1) (hgateway : c ≠ 2) :
    Does (.imgRevert c) s fun t => (t.comp c).activeB = !(s.comp c).activeB ∧ (t.comp c).trial = false ∧ (t.comp c).a = (s.comp c).a ∧ (t.comp c).b = (s.comp c).b ∧
      t.belay.otp = s.belay.otp ∧ (∀ b, b ≠ c → t.comp b = s.comp b) ∧ t.rb (.fn 0 .crnEvt) 10 = true ∧ OtherRegs s t [.fn 0 .crnEvt] := by
  obtain ⟨v, hv, himages, hregs, hbelay, -, -⟩ := s.makeOther_eq c
  have he : exec (.imgRevert c) s = finish (v.crnEvent 10) := by
    rw [execImgRevert_reverts htrial hruns hother, hv]
    exact congrArg finish ((if_neg hservice).trans (if_neg hgateway))
  have h := v.crnEvent_noted 10
  have hend := (State.images_ended _).trans ((v.crnEvent_images 10).trans himages)
  have hcomp := State.comp_of_images hend c
  rw [State.comp_setComp_same] at hcomp
  refine .of_finish he ⟨by rw [hcomp]; rfl, by rw [hcomp]; rfl, by rw [hcomp]; rfl, by rw [hcomp]; rfl, by rw [h.belay, hbelay], fun b hb => ?_, h.event (by decide),
    h.otherRegs.of_mid fun r _ => by rw [State.reg, hregs, State.reg]⟩
  rw [State.comp_of_images hend, State.comp_setComp_other _ _ hb]

/-- The service firmware restarts with its other slot (R467). -/
theorem imgRevert_service (htrial : (s.comp 1).trial = true) (hruns : (s.comp 1).runs = true) (hother : s.otherOk 1 = true) :
    Does (.imgRevert 1) s fun t => (t.comp 1).activeB = !(s.comp 1).activeB ∧ (t.comp 1).trial = false ∧ t.cairn.running = false ∧ t.rb (.fn 0 .crnEvt) 8 = true ∧
      t.rb (.fn 0 .crnEvt) 10 = true := by
  obtain ⟨v, hv, himages, -⟩ := s.makeOther_eq 1
  let w := (v.crnEvent 10).serviceOut.record devCode 4 false 0x0C 0x07 (Config.svcCause 2) 0
  have he : exec (.imgRevert 1) s = finish (w.crnEvent 8) := by
    rw [execImgRevert_reverts htrial hruns hother, hv]
    rfl
  have h := w.crnEvent_noted 8
  have hwimages : w.images = (s.setComp 1 (s.comp 1).swapped).images := (State.record_images _ _ _ _ _ _ _ _).trans ((v.crnEvent_images 10).trans himages)
  have hend := (State.images_ended _).trans ((w.crnEvent_images 8).trans hwimages)
  have hcomp := State.comp_of_images hend 1
  rw [State.comp_setComp_same] at hcomp
  have hbit : w.rb (.fn 0 .crnEvt) 10 = true := by
    rw [State.rb, State.reg_record]
    exact v.crnEvent_rb (i := 10) (by decide)
  refine .of_finish he ⟨by rw [hcomp]; rfl, by rw [hcomp]; rfl, ?_, h.event (by decide), h.stays 10 (by decide) hbit⟩
  rw [h.cairn, show w.cairn = (v.crnEvent 10).serviceOut.cairn from State.record_cairn _ _ _ _ _ _ _ _]
  rfl

/-- A core that enters RUNNING runs; the others are as they were (R412). -/
theorem State.coreRuns_core (s : State) (c b : CoreId) : ((s.coreRuns c).core b).state = if b = c then .running else (s.core b).state := by
  have hcores : (s.coreRuns c).spur.cores = (s.setCore c { s.core c with state := .running, wantsFw := false, runAt := s.raw }).spur.cores := State.takeHome_cores _ c
  rw [State.core_of_cores hcores b]
  split
  next hb => rw [hb, State.core_setCore_same]
  next hb => rw [State.core_setCore_other _ _ hb]

/-- What State.reloadCores does for one core (R466). -/
def State.reloadCore (s : State) (c : CoreId) : State :=
  let x := s.core c
  if x.state = .running then ((s.setCore c { x with state := .halted }).moveDuties c false).coreRuns c
  else if x.state = .halted ∧ x.wantsFw then s.coreRuns c
  else s

theorem State.reloadCores_eq (s : State) : s.reloadCores = [3, 2, 1, 0].foldl State.reloadCore s := rfl

theorem State.reloadCore_runs (s : State) (c b : CoreId) (hrun : (s.core b).state = .running) : ((s.reloadCore c).core b).state = .running := by
  unfold State.reloadCore
  dsimp only
  split
  next =>
    obtain ⟨hcores, -⟩ := State.moveDuties_off (s := s.setCore c { s.core c with state := .halted }) (c := c) (by rw [State.core_setCore_same]; exact nofun) false
    rw [State.coreRuns_core]
    split
    · rfl
    next hb => rw [State.core_of_cores hcores, State.core_setCore_other _ _ hb, hrun]
  next =>
    split
    next =>
      rw [State.coreRuns_core]
      split
      · rfl
      · exact hrun
    next => exact hrun

/-- The gateway cores that run go on running (R466). -/
theorem State.reloadCores_runs (s : State) (b : CoreId) (hrun : (s.core b).state = .running) : (s.reloadCores.core b).state = .running := by
  rw [State.reloadCores_eq]
  exact List.foldlRecOn (motive := fun t : State => (t.core b).state = .running) _ _ hrun fun t ht c _ => t.reloadCore_runs c b ht

/-- The gateway firmware reverts; its cores reload one at a time (R466, R467). -/
theorem imgRevert_gateway (htrial : (s.comp 2).trial = true) (hruns : (s.comp 2).runs = true) (hother : s.otherOk 2 = true) :
    Does (.imgRevert 2) s fun t => (t.comp 2).activeB = !(s.comp 2).activeB ∧ (t.comp 2).trial = false ∧ t.rb (.fn 0 .crnEvt) 10 = true ∧
      (∀ c, (s.core c).state = .running → (t.core c).state = .running) ∧ (∀ b, b ≠ 2 → t.comp b = s.comp b) ∧ t.ports = s.ports := by
  obtain ⟨v, hv, himages, -, -, hspur, hports⟩ := s.makeOther_eq 2
  let w := v.crnEvent 10
  have he : exec (.imgRevert 2) s = finish w.reloadCores := by
    rw [execImgRevert_reverts htrial hruns hother, hv]
    rfl
  have honly : Only [.evc, .groups, .spur] w w.reloadCores := by apply State.reloadCores_only (Only.refl w) <;> decide
  have hend := (State.images_ended _).trans (w.reloadCores_images.trans ((v.crnEvent_images 10).trans himages))
  have hcomp := State.comp_of_images hend 2
  rw [State.comp_setComp_same] at hcomp
  refine .of_finish he ⟨by rw [hcomp]; rfl, by rw [hcomp]; rfl, ?_, fun c hrun => ?_, fun b hb => ?_, ?_⟩
  · rw [State.rb, State.plainReg_ended _ (.fn 0 .crnEvt) nofun, honly.2 (.regs .fn) (by decide) (.fn 0 .crnEvt) rfl]
    exact v.crnEvent_rb (by decide)
  · rw [State.core_ended]
    refine w.reloadCores_runs c ?_
    rwa [State.core, State.crnEvent_spur, hspur]
  · rw [State.comp_of_images hend, State.comp_setComp_other _ _ hb]
  · rw [State.announce_ports, State.noteMay_ports, show State.ports _ = w.ports from honly.2 .ports (by decide), State.crnEvent_ports, hports]

end updates

end Sys2Proof.Machine

namespace Sys2Proof.Machine

/-! ### The boot: the choice of a slot, component by component (R466, R467, R487, R488) -/

section verify
variable {s m x y : State} {done : List (Fin 7)} {c : Fin 7}

theorem State.slotPasses_of_otp (h : x.belay.otp = m.belay.otp) (c : Fin 7) (z : Slot) : x.slotPasses c z = m.slotPasses c z := by
  have hrollback : ∀ f, x.rollback c f = m.rollback c f := fun f => by rw [State.rollback, h, State.rollback]
  rw [State.slotPasses, hrollback, State.slotPasses]

theorem State.bootComp_of_eq (hotp : x.belay.otp = m.belay.otp) (hcomp : x.comp c = m.comp c) : x.bootComp c = m.bootComp c := by
  unfold State.bootComp
  dsimp only
  rw [hcomp, State.slotPasses_of_otp hotp, State.slotPasses_of_otp hotp]

/-- A component is verified: its slots by the boot's choice, ABSENT where neither passes, and the event bit where the other took over. -/
theorem State.bootSlot_leaves (x : State) (c : Fin 7) :
    (x.bootSlot c).images = (x.setComp c (x.bootComp c).1).images ∧ (x.bootSlot c).belay = x.belay ∧ (x.bootSlot c).spur = x.spur ∧
      (x.bootSlot c).cairn.running = x.cairn.running ∧
      (x.bootSlot c).dev = { x.dev with absent := if (x.bootComp c).2.2 then x.dev.absent ||| absentBit c else x.dev.absent } ∧
      ((x.bootComp c).2.1 = true → (x.bootSlot c).rb (.fn 0 .crnEvt) 10 = true) ∧
      (x.rb (.fn 0 .crnEvt) 10 = true → (x.bootSlot c).rb (.fn 0 .crnEvt) 10 = true) := by
  let v := x.setComp c (x.bootComp c).1
  let r := v.record devCode 4 false 0x0D 0x03 (BitVec.ofNat 32 (compCode c.val)) (BitVec.ofNat 32 (b2n (x.bootComp c).1.activeB))
  let w := if (x.bootComp c).2.1 then r.crnEvent 10 else v
  obtain ⟨hregs, hdev, hspur, -, -⟩ := x.setComp_frame c (x.bootComp c).1
  have hrunning : v.cairn.running = x.cairn.running := by
    obtain ⟨l, h⟩ := x.setComp_eq c (x.bootComp c).1
    rw [show v = _ from h]
    rfl
  have hslot : x.bootSlot c = if (x.bootComp c).2.2 then w.setAbsent (absentBit c) else w := rfl
  have hw : w.images = v.images ∧ w.belay = x.belay ∧ w.spur = x.spur ∧ w.cairn.running = x.cairn.running ∧ w.dev = x.dev ∧
      ((x.bootComp c).2.1 = true → w.rb (.fn 0 .crnEvt) 10 = true) ∧ (x.rb (.fn 0 .crnEvt) 10 = true → w.rb (.fn 0 .crnEvt) 10 = true) := by
    unfold w
    split
    next hswapped =>
      refine ⟨?_, ?_, ?_, ?_, ?_, fun _ => r.crnEvent_rb (by decide), fun _ => r.crnEvent_rb (by decide)⟩
      · rw [State.crnEvent_images, State.record_images]
      · rw [State.crnEvent_belay, State.record_belay, State.setComp_belay]
      · rw [State.crnEvent_spur, State.record_spur, hspur]
      · rw [State.crnEvent_cairn, State.record_cairn, ← hrunning]
        rfl
      · rw [State.crnEvent_dev, State.record_dev, hdev]
    next hkept => exact ⟨rfl, State.setComp_belay _ _ _, hspur, hrunning, hdev, fun h => absurd h hkept, fun h => by rw [State.rb, State.reg, hregs]; exact h⟩
  obtain ⟨himages, hbelay, hspur', hrun, hdev', htold, hstays⟩ := hw
  rw [hslot]
  split
  · exact ⟨himages, hbelay, hspur', hrun, by rw [← hdev']; rfl, htold, hstays⟩
  · exact ⟨himages, hbelay, hspur', hrun, by rw [hdev'], htold, hstays⟩

/-- The boot from m has verified the components of a list, and has come to x. -/
structure Verifying (m x : State) (done : List (Fin 7)) : Prop where
  otp : x.belay.otp = m.belay.otp
  chosen : ∀ c ∈ done, x.comp c = (m.bootComp c).1
  told : ∀ c ∈ done, (m.bootComp c).2.1 = true → x.rb (.fn 0 .crnEvt) 10 = true
  ahead : ∀ c, c ∉ done → x.comp c = m.comp c
  absent : (∀ c ∈ done, (m.bootComp c).2.2 = false) → x.dev.absent = 0
  ready : x.dev.ready = false
  path : x.dev.recovery = false

theorem Verifying.slot (h : Verifying m x done) (hc : c ∉ done) : Verifying m (x.bootSlot c) (c :: done) := by
  obtain ⟨himages, hbelay, -, -, hdev, htold, hstays⟩ := x.bootSlot_leaves c
  have hchoice : x.bootComp c = m.bootComp c := State.bootComp_of_eq h.otp (h.ahead c hc)
  rw [hchoice] at himages hdev htold
  have hsame : (x.bootSlot c).comp c = (m.bootComp c).1 := by rw [State.comp_of_images himages, State.comp_setComp_same]
  have hother : ∀ b, b ≠ c → (x.bootSlot c).comp b = x.comp b := fun b hb => by rw [State.comp_of_images himages, State.comp_setComp_other _ _ hb]
  refine ⟨by rw [hbelay, h.otp], fun b hb => ?_, fun b hb hswapped => ?_, fun b hb => ?_, fun hall => ?_, by rw [hdev]; exact h.ready, by rw [hdev]; exact h.path⟩
  · by_cases hbc : b = c
    · rw [hbc, hsame]
    · rw [hother b hbc, h.chosen b ((List.mem_cons.1 hb).resolve_left hbc)]
  · by_cases hbc : b = c
    · exact htold (hbc ▸ hswapped)
    · exact hstays (h.told b ((List.mem_cons.1 hb).resolve_left hbc) hswapped)
  · obtain ⟨hbc, hbd⟩ := not_or.1 (mt List.mem_cons.2 hb)
    rw [hother b hbc, h.ahead b hbd]
  · rw [hdev, hall c List.mem_cons_self]
    exact h.absent fun b hb => hall b (List.mem_cons_of_mem _ hb)

/-- What the boot does besides leaves the choices as they are. -/
theorem Verifying.of_eq (h : Verifying m x done) (hcomps : y.cairn.comps = x.cairn.comps) (hotp : y.belay.otp = x.belay.otp)
    (hevt : y.rb (.fn 0 .crnEvt) 10 = x.rb (.fn 0 .crnEvt) 10) (habsent : y.dev.absent = x.dev.absent) (hready : y.dev.ready = x.dev.ready)
    (hpath : y.dev.recovery = x.dev.recovery) : Verifying m y done := by
  have hcomp : ∀ c, y.comp c = x.comp c := fun c => by rw [State.comp, hcomps, State.comp]
  exact ⟨hotp.trans h.otp, fun c hc => (hcomp c).trans (h.chosen c hc), fun c hc hs => hevt.trans (h.told c hc hs), fun c hc => (hcomp c).trans (h.ahead c hc),
    fun hall => habsent.trans (h.absent hall), hready.trans h.ready, hpath.trans h.path⟩

theorem Verifying.setStage (h : Verifying m x done) (z : BootStage) : Verifying m (x.setStage z) done := h.of_eq rfl rfl rfl rfl rfl rfl

theorem Verifying.setCairn (h : Verifying m x done) {k : Cairn} (hk : k.comps = x.cairn.comps) : Verifying m (x.setCairn k) done := h.of_eq hk rfl rfl rfl rfl rfl

theorem Verifying.bootEngines (h : Verifying m x done) : Verifying m x.bootEngines done := h.of_eq rfl rfl rfl rfl rfl rfl

end verify

/-! ### The steps of the boot (R487, R488) -/

section steps
variable {s m x v : State}

theorem State.bootSteps_add (s : State) (a b : Nat) : s.bootSteps (a + b) = (s.bootSteps a).bootSteps b := by
  induction a generalizing s with
  | zero => rw [Nat.zero_add]; rfl
  | succ a ih => rw [Nat.succ_add, State.bootSteps, ih]; rfl

theorem State.bootSteps_ready (hready : s.dev.ready = true) (n : Nat) : s.bootSteps n = s := by
  induction n with
  | zero => rfl
  | succ n ih => rw [State.bootSteps, show s.bootStep = s from if_pos hready, ih]

/-- What a step does, by the stage (R487, R488). -/
theorem State.bootStep_held (hready : s.dev.ready = false) (hstage : s.dev.stage = .held) : s.bootStep = s.setStage .rom := by
  unfold State.bootStep
  rw [if_neg (by rw [hready]; exact Bool.false_ne_true), hstage]

theorem State.bootStep_rom (hready : s.dev.ready = false) (hstage : s.dev.stage = .rom) : s.bootStep = s.bootVid.setStage .otp := by
  unfold State.bootStep
  rw [if_neg (by rw [hready]; exact Bool.false_ne_true), hstage]

/-- The layout record is read, and the Belay monitor verified. -/
def State.monitored (s : State) : State := s.bootVid.readLayout.bootSlot 0

theorem State.bootStep_otp (hready : s.dev.ready = false) (hstage : s.dev.stage = .otp) : s.bootStep =
    if s.monitored.dev.absent.getLsbD 3 then s.monitored.recoveryPath else (s.monitored.setCairn { s.monitored.cairn with belayAt := s.monitored.raw }).setStage .belay := by
  unfold State.bootStep
  rw [if_neg (by rw [hready]; exact Bool.false_ne_true), hstage]
  rfl

theorem State.bootStep_belay (hready : s.dev.ready = false) (hstage : s.dev.stage = .belay) : s.bootStep =
    ((s.bootSlot 1).setCairn { (s.bootSlot 1).cairn with
      running := !(s.bootSlot 1).dev.absent.getLsbD 0, restartAt := (s.bootSlot 1).raw, runAt := (s.bootSlot 1).raw }).setStage .cairn := by
  unfold State.bootStep
  rw [if_neg (by rw [hready]; exact Bool.false_ne_true), hstage]

theorem State.bootStep_cairn (hready : s.dev.ready = false) (hstage : s.dev.stage = .cairn) : s.bootStep = (s.bootSlot 2).bootCores.setStage .gateway := by
  unfold State.bootStep
  rw [if_neg (by rw [hready]; exact Bool.false_ne_true), hstage]

theorem State.bootStep_gateway (hready : s.dev.ready = false) (hstage : s.dev.stage = .gateway) :
    s.bootStep = ((((s.bootSlot 3).bootSlot 4).bootSlot 5).bootSlot 6).bootEngines.setStage .spur := by
  unfold State.bootStep
  rw [if_neg (by rw [hready]; exact Bool.false_ne_true), hstage]
  dsimp only [List.foldl]

theorem State.bootStep_spur (hready : s.dev.ready = false) (hstage : s.dev.stage = .spur) : s.bootStep = s.nowReady := by
  unfold State.bootStep
  rw [if_neg (by rw [hready]; exact Bool.false_ne_true), hstage]

/-- The codes of the supply leave what the boot verifies. -/
theorem State.bootVid_leaves (s : State) : s.bootVid.cairn.comps = s.cairn.comps ∧ s.bootVid.cairn.layouts = s.cairn.layouts ∧
    s.bootVid.cairn.running = s.cairn.running ∧ s.bootVid.belay = s.belay ∧ s.bootVid.dev = s.dev := by
  unfold State.bootVid
  dsimp only
  split
  · exact ⟨rfl, rfl, rfl, rfl, rfl⟩
  · exact ⟨rfl, rfl, rfl, rfl, rfl⟩

/-- The boot from s has come to the step that reads the layout record, and nothing that it verifies has changed. -/
structure AtLayout (s v : State) : Prop where
  comps : v.cairn.comps = s.cairn.comps
  layouts : v.cairn.layouts = s.cairn.layouts
  running : v.cairn.running = s.cairn.running
  belay : v.belay = s.belay
  absent : v.dev.absent = 0
  ready : v.dev.ready = false
  path : v.dev.recovery = false

theorem BootAhead.atLayout (h : BootAhead s) : AtLayout s s := ⟨rfl, rfl, rfl, rfl, h.absent, h.ready, h.path⟩

theorem AtLayout.setStage (h : AtLayout s v) (z : BootStage) : AtLayout s (v.setStage z) :=
  ⟨h.comps, h.layouts, h.running, h.belay, h.absent, h.ready, h.path⟩

theorem AtLayout.bootVid (h : AtLayout s v) : AtLayout s v.bootVid := by
  obtain ⟨hcomps, hlayouts, hrunning, hbelay, hdev⟩ := v.bootVid_leaves
  exact ⟨hcomps.trans h.comps, hlayouts.trans h.layouts, hrunning.trans h.running, hbelay.trans h.belay, by rw [hdev]; exact h.absent,
    by rw [hdev]; exact h.ready, by rw [hdev]; exact h.path⟩

/-- A boot that comes to READY in five steps from the layout record is over then, wherever it began. -/
theorem BootAhead.bootOp_eq (h : BootAhead s) (hends : ∀ v, AtLayout s v → v.dev.stage = .otp → (v.bootSteps 5).dev.ready = true) :
    ∃ v, AtLayout s v ∧ v.dev.stage = .otp ∧ s.bootOp = v.bootSteps 5 := by
  have hover : ∀ v, AtLayout s v → v.dev.stage = .otp → ∀ n, v.bootSteps (5 + n) = v.bootSteps 5 := fun v hv hstage n => by
    rw [State.bootSteps_add, State.bootSteps_ready (hends v hv hstage)]
  have hrom : ∀ v, AtLayout s v → v.dev.stage = .rom → ∀ n, AtLayout s (v.bootVid.setStage .otp) ∧ v.bootSteps (n + 1) = (v.bootVid.setStage .otp).bootSteps n :=
    fun v hv hstage n => ⟨hv.bootVid.setStage .otp, by rw [State.bootSteps, State.bootStep_rom hv.ready hstage]⟩
  rcases h.stage with hheld | hstage | hotp
  · have hv := h.atLayout.setStage .rom
    obtain ⟨hw, hsteps⟩ := hrom _ hv rfl 5
    refine ⟨_, hw, rfl, ?_⟩
    rw [← hsteps, State.bootOp, State.bootSteps, State.bootStep_held h.ready hheld]
  · obtain ⟨hw, hsteps⟩ := hrom _ h.atLayout hstage (5 + 1)
    refine ⟨_, hw, rfl, ?_⟩
    rw [State.bootOp, hsteps, hover _ hw rfl]
  · exact ⟨s, h.atLayout, hotp, hover s h.atLayout hotp 2⟩

/-- A component as the layout record marks it (R460). -/
theorem State.comp_readLayout (s : State) (c : Fin 7) : s.readLayout.comp c = { s.comp c with activeB := (s.bootMarks[c]).1, trial := (s.bootMarks[c]).2 } :=
  Vector.getElem_ofFn c.isLt

/-- The layout record is read, and no component is verified yet. -/
theorem AtLayout.verifying (h : AtLayout s v) : Verifying s.readLayout v.bootVid.readLayout [] := by
  have hv := h.bootVid
  have hcomp : ∀ c, v.bootVid.readLayout.comp c = s.readLayout.comp c := fun c => by
    rw [State.comp_readLayout, State.comp_readLayout, State.bootMarks, hv.layouts, State.comp, hv.comps, State.bootMarks, State.comp]
  exact ⟨congrArg Belay.otp hv.belay, nofun, nofun, fun c _ => hcomp c, fun _ => hv.absent, hv.ready, hv.path⟩

/-- The boot with a Belay monitor (step 4 of R487). -/
theorem AtLayout.belay_step (h : AtLayout s v) (hstage : v.dev.stage = .otp) (hmonitor : (s.readLayout.bootComp 0).2.2 = false) :
    Verifying s.readLayout v.bootStep [0] ∧ v.bootStep.dev.stage = .belay := by
  have hslot := h.verifying.slot (c := 0) List.not_mem_nil
  have hpresent : v.monitored.dev.absent.getLsbD 3 = false := by
    rw [State.monitored, hslot.absent fun c hc => by rw [List.mem_singleton.1 hc, hmonitor]]
    rfl
  rw [State.bootStep_otp h.ready hstage, hpresent, if_neg Bool.false_ne_true]
  refine ⟨(Verifying.setCairn hslot ?_).setStage .belay, rfl⟩
  rfl

/-- The service firmware (step 5). -/
theorem Verifying.cairn_step (h : Verifying m x [0]) (hstage : x.dev.stage = .belay) :
    Verifying m x.bootStep [1, 0] ∧ x.bootStep.dev.stage = .cairn ∧ x.bootStep.cairn.running = !x.bootStep.dev.absent.getLsbD 0 := by
  have hslot := h.slot (c := 1) (by decide)
  rw [State.bootStep_belay h.ready hstage]
  refine ⟨(hslot.setCairn ?_).setStage .cairn, rfl, rfl⟩
  rfl

/-- The cores after the boot: with their firmware they run. -/
theorem State.bootCores_leaves (s : State) : s.bootCores.cairn = s.cairn ∧ s.bootCores.belay = s.belay ∧ s.bootCores.dev = s.dev ∧ s.bootCores.regs = s.regs ∧
    (s.dev.absent.getLsbD 1 = false → ∀ c, (s.bootCores.core c).state = .running) := by
  unfold State.bootCores
  dsimp only
  split
  next hout => exact ⟨rfl, rfl, rfl, rfl, fun hin => absurd hout (by rw [hin]; exact Bool.false_ne_true)⟩
  next =>
    refine ⟨rfl, rfl, rfl, rfl, fun _ c => ?_⟩
    have hbase : (({} : Spur).cores[c]).state = .running := by
      revert c
      decide
    exact (congrArg Core.state (Vector.getElem_map _ c.isLt)).trans hbase

/-- The gateway firmware (step 6). -/
theorem Verifying.gateway_step (h : Verifying m x [1, 0]) (hstage : x.dev.stage = .cairn) :
    Verifying m x.bootStep [2, 1, 0] ∧ x.bootStep.dev.stage = .gateway ∧ x.bootStep.cairn.running = x.cairn.running ∧
      (x.bootStep.dev.absent.getLsbD 1 = false → ∀ c, (x.bootStep.core c).state = .running) := by
  have hslot := h.slot (c := 2) (by decide)
  obtain ⟨hcairn, hbelay, hdev, hregs, hcores⟩ := (x.bootSlot 2).bootCores_leaves
  obtain ⟨-, -, -, hrunning, -⟩ := x.bootSlot_leaves 2
  have hevt : (x.bootSlot 2).bootCores.rb (.fn 0 .crnEvt) 10 = (x.bootSlot 2).rb (.fn 0 .crnEvt) 10 := by rw [State.rb, State.reg, hregs, State.rb, State.reg]
  have hverifying : Verifying m (x.bootSlot 2).bootCores [2, 1, 0] := hslot.of_eq (by rw [hcairn]) (by rw [hbelay]) hevt (by rw [hdev]) (by rw [hdev]) (by rw [hdev])
  rw [State.bootStep_cairn h.ready hstage]
  refine ⟨hverifying.setStage .gateway, rfl, ?_, fun hin => hcores ?_⟩
  · rw [← hrunning, ← hcairn]
    rfl
  · rw [← hdev]
    exact hin

/-- The map of R2: each port on the engine of its number. -/
theorem homeEngine (p : PortId) : ({} : Spur).attached[p] = some (fin 34 p.val) := by
  have hlt : p.val < 34 := by omega
  have hrange : ({} : Spur).attached[p] = nth? 34 ((Vector.range 32)[p.val]) := Vector.getElem_map _ p.isLt
  rw [hrange, Vector.getElem_range, nth?, dif_pos hlt]
  exact congrArg some (Fin.ext (Nat.mod_eq_of_lt hlt).symm)

theorem State.setStage_core (s : State) (z : BootStage) (c : CoreId) : (s.setStage z).core c = s.core c := rfl

/-- The engines and their store once the boot has filled them; nothing else changes. -/
theorem State.bootEngines_leaves (s : State) : s.bootEngines.cairn = s.cairn ∧ (∀ c, s.bootEngines.core c = s.core c) ∧
    (∀ p : PortId, s.bootEngines.spur.attached[p] = some (fin 34 p.val)) ∧ s.bootEngines.spur.images = bootImages s :=
  ⟨rfl, fun _ => rfl, homeEngine, rfl⟩

/-- The engine image store and the engines (step 7): the cores and the service firmware stay as they are. -/
theorem Verifying.spur_step (h : Verifying m x [2, 1, 0]) (hstage : x.dev.stage = .gateway) :
    Verifying m x.bootStep [6, 5, 4, 3, 2, 1, 0] ∧ x.bootStep.dev.stage = .spur ∧ x.bootStep.cairn.running = x.cairn.running ∧
      (∀ c, x.bootStep.core c = x.core c) ∧ (∀ p : PortId, x.bootStep.spur.attached[p] = some (fin 34 p.val)) ∧
      ∃ w, Verifying m w [6, 5, 4, 3, 2, 1, 0] ∧ x.bootStep.spur.images = bootImages w := by
  have hslots := (((h.slot (c := 3) (by decide)).slot (c := 4) (by decide)).slot (c := 5) (by decide)).slot (c := 6) (by decide)
  let w := (((x.bootSlot 3).bootSlot 4).bootSlot 5).bootSlot 6
  have hstep : x.bootStep = w.bootEngines.setStage .spur := State.bootStep_gateway h.ready hstage
  have hspur : w.spur = x.spur := by
    have hkept : ∀ (y : State) (c : Fin 7), (y.bootSlot c).spur = y.spur := fun y c => (y.bootSlot_leaves c).2.2.1
    rw [show w = _ from rfl, hkept, hkept, hkept, hkept]
  have hrunning : w.cairn.running = x.cairn.running := by
    have hkept : ∀ (y : State) (c : Fin 7), (y.bootSlot c).cairn.running = y.cairn.running := fun y c => (y.bootSlot_leaves c).2.2.2.1
    rw [show w = _ from rfl, hkept, hkept, hkept, hkept]
  obtain ⟨hcairn, hcores, hattached, himages⟩ := w.bootEngines_leaves
  rw [hstep]
  refine ⟨hslots.bootEngines.setStage .spur, rfl, ?_, fun c => ?_, hattached, w, hslots, himages⟩
  · rw [← hrunning, ← hcairn]
    rfl
  · rw [State.setStage_core, hcores, State.core, hspur, State.core]

/-- What the boot leaves with a Belay monitor: READY outside the recovery path, every component by its choice. -/
structure Booted (m t : State) : Prop where
  chosen : ∀ c, t.comp c = (m.bootComp c).1
  told : ∀ c, (m.bootComp c).2.1 = true → t.rb (.fn 0 .crnEvt) 10 = true
  ready : t.dev.ready = true
  path : t.dev.recovery = false
  otp : t.belay.otp = m.belay.otp
  whole : (∀ c, (m.bootComp c).2.2 = false) → t.dev.absent = 0 ∧ t.cairn.running = true ∧ ∀ c, (t.core c).state = .running
  attached : ∀ p : PortId, t.spur.attached[p] = some (fin 34 p.val)
  images : ∃ w, Verifying m w [6, 5, 4, 3, 2, 1, 0] ∧ t.spur.images = bootImages w

theorem mem_components (c : Fin 7) : c ∈ [(6 : Fin 7), 5, 4, 3, 2, 1, 0] := by
  revert c
  decide

/-- READY changes no component, no core and no engine. -/
theorem State.nowReady_leaves (s : State) : s.nowReady.cairn = s.cairn ∧ s.nowReady.belay = s.belay ∧ s.nowReady.spur = s.spur ∧ s.nowReady.regs = s.regs ∧
    s.nowReady.dev = { s.dev with ready := true } := ⟨rfl, rfl, rfl, rfl, rfl⟩

/-- The five steps of the boot from the layout record on, with a Belay monitor (R487). -/
theorem AtLayout.booted (h : AtLayout s v) (hstage : v.dev.stage = .otp) (hmonitor : (s.readLayout.bootComp 0).2.2 = false) :
    Booted s.readLayout (v.bootSteps 5) := by
  obtain ⟨h1, hbelay⟩ := h.belay_step hstage hmonitor
  obtain ⟨h2, hcairn, hrunning2⟩ := h1.cairn_step hbelay
  obtain ⟨h3, hgateway, hrunning3, hcores3⟩ := h2.gateway_step hcairn
  obtain ⟨h4, hspur, hrunning4, hcores4, hattached, himages⟩ := h3.spur_step hgateway
  have hsteps : v.bootSteps 5 = v.bootStep.bootStep.bootStep.bootStep.bootStep := rfl
  have hready : v.bootStep.bootStep.bootStep.bootStep.bootStep = v.bootStep.bootStep.bootStep.bootStep.nowReady :=
    State.bootStep_spur h4.ready hspur
  rw [hsteps, hready]
  generalize v.bootStep.bootStep.bootStep.bootStep = z at h4 hrunning4 hcores4 hattached himages ⊢
  obtain ⟨hc, hb, hs, hr, hd⟩ := z.nowReady_leaves
  refine ⟨fun c => ?_, fun c hswapped => ?_, by rw [hd], by rw [hd]; exact h4.path, by rw [hb, h4.otp], fun hall => ⟨?_, ?_, fun c => ?_⟩, by rw [hs]; exact hattached,
    by rw [hs]; exact himages⟩
  · rw [State.comp, hc]
    exact h4.chosen c (mem_components c)
  · rw [State.rb, State.reg, hr]
    exact h4.told c (mem_components c) hswapped
  · rw [hd]
    exact h4.absent fun c _ => hall c
  · rw [hc, hrunning4, hrunning3, hrunning2, h2.absent fun c _ => hall c]
    rfl
  · rw [State.core, hs]
    exact (congrArg Core.state (hcores4 c)).trans (hcores3 (by rw [h3.absent fun c _ => hall c]; rfl) c)

theorem Booted.ended {u : State} (h : Booted m u) : Booted m u.noteMay.announce := by
  refine ⟨fun c => ?_, fun c hswapped => ?_, ?_, ?_, ?_, fun hall => ?_, ?_, ?_⟩
  · rw [State.comp_ended, h.chosen]
  · rw [State.rb, State.plainReg_ended _ (.fn 0 .crnEvt) nofun]
    exact h.told c hswapped
  · rw [State.dev_ended, h.ready]
  · rw [State.dev_ended, h.path]
  · rw [State.belay_ended, h.otp]
  · obtain ⟨habsent, hrunning, hcores⟩ := h.whole hall
    exact ⟨by rw [State.dev_ended, habsent], by rw [State.cairn_ended, hrunning], fun c => by rw [State.core_ended, hcores]⟩
  · rw [State.spur_ended]
    exact h.attached
  · rw [State.spur_ended]
    exact h.images

/-- BOOT with a Belay monitor that passes. -/
theorem boot_boots (h : BootAhead s) (hmonitor : (s.readLayout.bootComp 0).2.2 = false) : Does .boot s (Booted s.readLayout) := by
  obtain ⟨v, hv, hstage, hboot⟩ := h.bootOp_eq fun v hv hstage => (hv.booted hstage hmonitor).ready
  refine .of_finish (u := s.bootOp) (if_neg (by rw [h.ready]; exact Bool.false_ne_true)) ?_
  rw [hboot]
  exact (hv.booted hstage hmonitor).ended

end steps

/-! ### What a boot chooses (R466, R467, R488) -/

section choice
variable {s t : State} {c : Fin 7}

theorem Comp.active_eq (x : Comp) : x.active = x.slot x.activeB := rfl

/-- The slot that the layout record calls active passes, not in trial: it stays. -/
theorem State.bootComp_keeps (htrial : (s.bootMarks[c]).2 = false) (hpass : s.slotPasses c ((s.comp c).slot (s.bootMarks[c]).1) = true) :
    s.readLayout.bootComp c = ({ s.readLayout.comp c with runs := false, spoiled := false }, false, false) := by
  have hpass' : s.readLayout.slotPasses c (s.readLayout.comp c).active = true := by rw [State.comp_readLayout]; exact hpass
  have htrial' : (s.readLayout.comp c).trial = false := by rw [State.comp_readLayout]; exact htrial
  unfold State.bootComp
  dsimp only
  rw [hpass', htrial', Bool.false_and, Bool.false_and, if_neg Bool.false_ne_true, if_pos rfl]

/-- The slot that the layout record calls active fails, not in trial, and the other passes: the other takes over. -/
theorem State.bootComp_swaps (htrial : (s.bootMarks[c]).2 = false) (hfail : s.slotPasses c ((s.comp c).slot (s.bootMarks[c]).1) = false)
    (hother : s.slotPasses c ((s.comp c).slot (!(s.bootMarks[c]).1)) = true) : s.readLayout.bootComp c = ((s.readLayout.comp c).swapped, true, false) := by
  have hfail' : s.readLayout.slotPasses c (s.readLayout.comp c).active = false := by rw [State.comp_readLayout]; exact hfail
  have htrial' : (s.readLayout.comp c).trial = false := by rw [State.comp_readLayout]; exact htrial
  have hother' : s.readLayout.slotPasses c ((s.readLayout.comp c).slot (!(s.readLayout.comp c).activeB)) = true := by rw [State.comp_readLayout]; exact hother
  unfold State.bootComp
  dsimp only
  rw [hfail', htrial', hother', Bool.false_and, Bool.false_and, if_neg Bool.false_ne_true, if_neg Bool.false_ne_true, if_pos rfl]
  rfl

/-- A component is absent where neither slot passes, and only there. -/
theorem State.bootComp_present (hpass : s.slotPasses c (s.comp c).a = true ∨ s.slotPasses c (s.comp c).b = true) : (s.readLayout.bootComp c).2.2 = false := by
  let x := s.readLayout.comp c
  have hone : s.readLayout.slotPasses c x.active = true ∨ s.readLayout.slotPasses c (x.slot (!x.activeB)) = true := by
    have ha : x.a = (s.comp c).a := by rw [show x = _ from s.comp_readLayout c]
    have hb : x.b = (s.comp c).b := by rw [show x = _ from s.comp_readLayout c]
    rw [← ha, ← hb] at hpass
    rw [Comp.active_eq]
    cases x.activeB with
    | false => exact hpass
    | true => exact hpass.symm
  unfold State.bootComp
  dsimp only
  split
  · rfl
  · split
    · rfl
    next hactive => rw [if_pos (hone.resolve_left hactive)]

theorem State.bootComp_absent (ha : s.slotPasses c (s.comp c).a = false) (hb : s.slotPasses c (s.comp c).b = false) :
    s.readLayout.bootComp c = (s.readLayout.comp c, false, true) := by
  have hnone : ∀ b, s.readLayout.slotPasses c ((s.readLayout.comp c).slot b) = false := fun b => by
    rw [State.comp_readLayout]
    cases b with
    | false => exact ha
    | true => exact hb
  unfold State.bootComp
  dsimp only
  rw [Comp.active_eq, hnone, hnone, Bool.and_false, if_neg Bool.false_ne_true, if_neg Bool.false_ne_true, if_neg Bool.false_ne_true]

/-- A boot in which every active slot passes, none in trial (R487). -/
theorem boot_whole (h : BootAhead s) (hall : ∀ c, s.slotPasses c ((s.comp c).slot (s.bootMarks[c]).1) = true ∧ (s.bootMarks[c]).2 = false) :
    Does .boot s fun t => t.dev.ready = true ∧ t.dev.absent = 0 ∧ t.dev.recovery = false ∧ t.cairn.running = true ∧ (∀ i : Fin 4, (t.spur.images[i]).valid = true) ∧
      (∀ c, (t.core c).state = .running) ∧ (∀ c, (t.comp c).activeB = (s.bootMarks[c]).1) ∧ (∀ p : PortId, t.spur.attached[p] = some (fin 34 p.val)) ∧
      t.belay.otp = s.belay.otp := by
  have hkept : ∀ c, s.readLayout.bootComp c = ({ s.readLayout.comp c with runs := false, spoiled := false }, false, false) :=
    fun c => State.bootComp_keeps (hall c).2 (hall c).1
  refine (boot_boots h (by rw [hkept])).imp fun t ht => ?_
  obtain ⟨habsent, hrunning, hcores⟩ := ht.whole fun c => by rw [hkept]
  obtain ⟨w, hw, himages⟩ := ht.images
  refine ⟨ht.ready, habsent, ht.path, hrunning, fun i => ?_, hcores, fun c => ?_, ht.attached, ht.otp⟩
  · have hcomp := hw.chosen (fin 7 (3 + i.val)) (mem_components _)
    have hpass : w.slotPasses (fin 7 (3 + i.val)) (w.comp (fin 7 (3 + i.val))).active = true := by
      rw [hcomp, hkept, State.slotPasses_of_otp hw.otp, State.comp_readLayout]
      exact (hall _).1
    have himage : (bootImages w)[i] = if w.slotPasses (fin 7 (3 + i.val)) (w.comp (fin 7 (3 + i.val))).active then
        imageOf (w.comp (fin 7 (3 + i.val))).active else {} := Vector.getElem_ofFn i.isLt
    rw [himages, himage, if_pos hpass]
    rfl
  · rw [ht.chosen, hkept, State.comp_readLayout]

/-- A component not in trial whose active slot fails comes up with its other slot (R466, R467). -/
theorem boot_swaps (h : BootAhead s) (hmonitor : s.slotPasses 0 (s.comp 0).a = true ∨ s.slotPasses 0 (s.comp 0).b = true) (htrial : (s.bootMarks[c]).2 = false)
    (hfail : s.slotPasses c ((s.comp c).slot (s.bootMarks[c]).1) = false) (hother : s.slotPasses c ((s.comp c).slot (!(s.bootMarks[c]).1)) = true) :
    Does .boot s fun t => t.dev.ready = true ∧ (t.comp c).activeB = !(s.bootMarks[c]).1 ∧ (t.comp c).a = (s.comp c).a ∧ (t.comp c).b = (s.comp c).b ∧
      t.rb (.fn 0 .crnEvt) 10 = true := by
  have hswap := State.bootComp_swaps htrial hfail hother
  refine (boot_boots h (State.bootComp_present hmonitor)).imp fun t ht => ?_
  have hcomp : t.comp c = (s.readLayout.comp c).swapped := by rw [ht.chosen, hswap]
  rw [State.comp_readLayout] at hcomp
  exact ⟨ht.ready, by rw [hcomp]; rfl, by rw [hcomp]; rfl, by rw [hcomp]; rfl, ht.told c (by rw [hswap])⟩

/-- The recovery path: READY, without engines, cores and images (R488). -/
theorem State.recoveryPath_leaves (s : State) : s.recoveryPath.cairn = s.cairn ∧ s.recoveryPath.dev = { s.dev with recovery := true, ready := true } ∧
    (∀ i : Fin 4, (s.recoveryPath.spur.images[i]).valid = false) ∧ ∀ c, (s.recoveryPath.core c).state = .halted :=
  ⟨rfl, rfl, fun i => congrArg ImgEntry.valid (Vector.getElem_replicate i.isLt), fun c => congrArg Core.state (Vector.getElem_replicate c.isLt)⟩

/-- Without a Belay monitor the first step after the layout record is the last one (R488). -/
theorem AtLayout.recovers {v : State} (h : AtLayout s v) (hstage : v.dev.stage = .otp) (ha : s.slotPasses 0 (s.comp 0).a = false)
    (hb : s.slotPasses 0 (s.comp 0).b = false) : v.bootSteps 5 = (v.bootVid.readLayout.bootSlot 0).recoveryPath ∧
      (v.bootVid.readLayout.bootSlot 0).dev.absent = 8 ∧ (v.bootVid.readLayout.bootSlot 0).cairn.running = s.cairn.running ∧
      ∀ c, ((v.bootVid.readLayout.bootSlot 0).comp c).activeB = (s.bootMarks[c]).1 := by
  have hlayout := h.verifying
  have hslot := hlayout.slot (c := 0) List.not_mem_nil
  have hchoice := State.bootComp_absent ha hb
  have hfound : v.bootVid.readLayout.bootComp 0 = s.readLayout.bootComp 0 := State.bootComp_of_eq hlayout.otp (hlayout.ahead 0 List.not_mem_nil)
  obtain ⟨-, -, -, hrunning, hdev, -, -⟩ := v.bootVid.readLayout.bootSlot_leaves 0
  have habsent : (v.bootVid.readLayout.bootSlot 0).dev.absent = 8 := by
    rw [hdev, hfound, hchoice, if_pos rfl, hlayout.absent nofun]
    rfl
  refine ⟨?_, habsent, hrunning.trans h.bootVid.running, fun c => ?_⟩
  · have hstep := State.bootStep_otp h.ready hstage
    rw [State.monitored, habsent, if_pos (by decide)] at hstep
    obtain ⟨-, hpath, -⟩ := (v.bootVid.readLayout.bootSlot 0).recoveryPath_leaves
    rw [show v.bootSteps 5 = v.bootStep.bootSteps 4 from rfl, hstep, State.bootSteps_ready (by rw [hpath])]
  · by_cases hc : c = 0
    · rw [hc, hslot.chosen 0 (List.mem_singleton_self 0), hchoice, State.comp_readLayout]
    · rw [hslot.ahead c (List.mem_singleton.not.2 hc), State.comp_readLayout]

/-- BOOT without a Belay monitor that passes. -/
theorem boot_recovers (h : BootAhead s) (hout : s.cairn.running = false) (ha : s.slotPasses 0 (s.comp 0).a = false) (hb : s.slotPasses 0 (s.comp 0).b = false) :
    Does .boot s fun t => t.dev.ready = true ∧ t.dev.recovery = true ∧ t.dev.absent = 8 ∧ t.cairn.running = false ∧ t.serves = false ∧
      (∀ c, (t.comp c).activeB = (s.bootMarks[c]).1) ∧ (∀ i : Fin 4, (t.spur.images[i]).valid = false) ∧ (∀ c, (t.core c).state = .halted) := by
  obtain ⟨v, hv, hstage, hboot⟩ := h.bootOp_eq fun v hv hstage => by
    obtain ⟨hends, -⟩ := hv.recovers hstage ha hb
    obtain ⟨-, hdev, -⟩ := (v.bootVid.readLayout.bootSlot 0).recoveryPath_leaves
    rw [hends, hdev]
  obtain ⟨hends, habsent, hrunning, hactive⟩ := hv.recovers hstage ha hb
  refine .of_finish (u := s.bootOp) (if_neg (by rw [h.ready]; exact Bool.false_ne_true)) ?_
  rw [hboot, hends]
  generalize v.bootVid.readLayout.bootSlot 0 = w at habsent hrunning hactive ⊢
  obtain ⟨hcairn, hdev, himages, hcores⟩ := w.recoveryPath_leaves
  have hpath : w.recoveryPath.noteMay.announce.dev.recovery = true := by rw [State.dev_ended, hdev]
  refine ⟨by rw [State.dev_ended, hdev], hpath, by rw [State.dev_ended, hdev]; exact habsent, by rw [State.cairn_ended, hcairn, hrunning, hout],
    by rw [State.serves, hpath]; exact Bool.and_false _, fun c => ?_, fun i => ?_, fun c => ?_⟩
  · rw [State.comp_ended, State.comp, hcairn]
    exact hactive c
  · rw [State.spur_ended]
    exact himages i
  · rw [State.core_ended]
    exact hcores c

end choice

/-- Settles O9: a holding, a confirmation and a reversion by what each leaves of the slots; a boot by what it chooses for each component, step by step. -/
theorem updatesAndBoots : Obligations.UpdatesAndBoots := by
  unfold Obligations.UpdatesAndBoots
  exact ⟨fun _ _ hheld hidle hu => stagingHolderTimeout_frees hheld hidle hu, fun _ _ _ _ hready hu hi => imgConfirm_confirms hready hu hi,
    fun _ _ htrial hruns hother hservice hgateway => imgRevert_reverts htrial hruns hother hservice hgateway,
    fun _ htrial hruns hother => imgRevert_service htrial hruns hother, fun _ h hall => boot_whole h hall,
    fun _ _ h hmonitor htrial hfail hother => boot_swaps h hmonitor htrial hfail hother, fun _ h hout ha hb => boot_recovers h hout ha hb,
    fun _ hready => .of_next (if_pos hready) rfl, fun _ htrial hruns hother => imgRevert_gateway htrial hruns hother⟩

end Sys2Proof.Machine
